-- ==== Sys2Proof/Word.lean ====
section
/-! DEFINITION. The word types of the KT8 (00 R6: structures are little-endian, a dword is 32 bits). -/
namespace Sys2Proof

/-- A byte. -/
abbrev Byte := BitVec 8

/-- A dword, the unit of every register (03 R50). -/
abbrev Word := BitVec 32

/-- A 64-bit value: a Peken scalar, a predicate over 64 threads. -/
abbrev Dword := BitVec 64

end Sys2Proof
end

