-- ==== Sys2Proof/Syntax.lean ====
section
/-! DEFINITION. The commands of the block: one constructor per row of the spec's opcode table, in its order, with the operands the rows' rules act on (log entry 2), and the types of those operands. -/
namespace Sys2Proof

/-- Who makes a register access (03 R57): a tenant through its BAR2, a physical function through BAR0, the management mailbox, device firmware. -/
inductive Requester where
  | tenant (n : Fin 128)
  | pf (port : Fin 4)
  | mgt
  | fw
deriving DecidableEq, Repr

/-- The function a memory request to the register BAR comes through: a requester, or virtual function v of a port, which no tenant may be bound to (06 R123). -/
inductive RegSrc where
  | req (rq : Requester)
  | vf (port : Fin 4) (v : Fin 64)
deriving DecidableEq, Repr

/-- One end of a bridge link (tile, port d = E, W, N, S) or of a serial bundle. -/
inductive LinkEndId where
  | bridge (t : Fin 8) (d : Fin 4)
  | bundleTile (t : Fin 8)
  | bundleHub (t : Fin 8)
deriving DecidableEq, Repr

/-- A link: the bridge link at port d of tile t, or the serial bundle of tile t. -/
inductive LinkId where
  | bridge (t : Fin 8) (d : Fin 4)
  | bundle (t : Fin 8)
deriving DecidableEq, Repr

/-- What a training run of a link finds (02, Training): whether deskew and the pattern test can succeed, the wires that fail the pattern test outgoing and incoming, the lanes that pass, and the identities exchanged. `site` and `build` are what the far end reports: on a bundle the straps of the tile, of which the tile's first training after a cold power cycle or a device warm reset takes the sample (R26); on a bridge the neighbour's. `siteBack` is the SITE_ID that the neighbour hears from this end of a bridge. -/
structure TrainIn where
  deskewOk : Bool
  badTx : Nat
  badRx : Nat
  lanesTx : BitVec 16
  lanesRx : BitVec 16
  site : BitVec 4
  build : BitVec 6
  siteBack : BitVec 4
deriving DecidableEq, Repr

/-- A burst at a bridge receiver (02 R29): valid, half marker (0 A, 1 B), sequence, CRC half, virtual channel, 256 data bytes; and the tiles that the flit's content names as its source and destination, whose place in the data the spec does not give (log entry 68). -/
structure Burst where
  bv : Bool
  hm : Bool
  seq : BitVec 8
  crcHalf : BitVec 16
  vc : BitVec 2
  data : List Byte
  src : Fin 8
  dst : Fin 8
deriving DecidableEq, Repr

/-- A 256-byte flit at a bundle receiver (02 R33): the bytes as received, and the pair of interleaved codewords nearest to them, which FEC decoding finds (the spec gives neither the field's polynomial nor the code's roots; log entry 45). -/
structure BundleFlit where
  recv : List Byte
  near : List Byte
deriving DecidableEq, Repr

/-- ack_type (02 R29, R33). -/
inductive AckType where
  | none | ack | nak
deriving DecidableEq, Repr

/-- A reverse sideband word of a bridge, or the acknowledgement fields of a bundle flit header (02 R29, R33): ack_type, ack_seq, the credits returned for each virtual channel, and whether the even parity holds. -/
structure AckWord where
  typ : AckType
  seq : Nat
  credits : List Nat
  parityOk : Bool
deriving DecidableEq, Repr

/-- Why a tile is declared lost (02 R46, 15 R367, 16). -/
inductive LostCause where
  | clock
  | retrainFailed
  | cdr
  | regulator
  | disabled
  | bringup
deriving DecidableEq, Repr

/-- A hub clock (01 R24). -/
inductive HubClock where
  | hclk
  | hpclk
  | sysref
deriving DecidableEq, Repr

/-- A function of a host port: the physical function, or virtual function v = 1 to 64. -/
inductive FnId where
  | pf (port : Fin 4)
  | vf (port : Fin 4) (v : Fin 64)
deriving DecidableEq, Repr

/-- What a configuration read asks for. -/
inductive CfgReg where
  | ids
  | classCode
  | command
  | bar (i : Fin 6)
  | interruptPin
  | deviceCap
  | powerMgmt
  | msix
  | pending (vec : Fin 32)
  | sriov
  | ats
  | pasid
  | vector (vec : Fin 32)
  | ide (stream : Fin 4)
deriving DecidableEq, Repr

/-- A configuration request, or a write of a function's MSI-X table: what it reads or changes (PCI Express; 03 R68, 06 R122). -/
inductive ConfigOp where
  | read (r : CfgReg)
  | memEnable (v : Bool)
  | busMaster (v : Bool)
  | msixEnable (v : Bool)
  | functionMask (v : Bool)
  | vectorMask (vec : Fin 32) (v : Bool)
  | vfEnable (numVfs : Fin 65)
  | maxPayload (bytes : Nat)
  /-- Message address and data of an MSI-X table entry. -/
  | vectorEntry (vec : Fin 32) (addr : Dword) (data : Word)
  /-- The address association blocks (base and limit) and the RID association of selective IDE stream 1 + `stream` (17 R407). -/
  | ideAssoc (stream : Fin 4) (blocks : List (Dword × Dword)) (rids : Option (BitVec 16 × BitVec 16))
  | other
deriving DecidableEq, Repr

/-- A dword of a register write with its byte enables. -/
structure RegDword where
  be : BitVec 4
  val : Word
deriving DecidableEq, Repr

/-- An AMO of a companion program (07 R178: RVA22U64). -/
inductive HpcAmo where
  | swap
  | add
  | xor
  | and
  | or
  | min
  | max
  | minu
  | maxu
deriving DecidableEq, Repr

/-- How a companion program reaches its address map (07 R179): a load or a store, an instruction fetch, LR, SC or an AMO. -/
inductive HpcKind where
  | plain
  | fetch
  | reserved
  | amo (op : HpcAmo)
deriving DecidableEq, Repr

/-- A read of an aperture: so many bytes, or an AtomicOp on them (05 R105). -/
structure ApRead where
  len : Nat
  atomic : Bool
deriving DecidableEq, Repr

/-- The source of an aperture access: a tenant function with the Requester ID on the request, a physical function, virtual function v of a port, which no tenant may be bound to (06 R123), or the program on companion core h at a virtual address of its map (07 R179; the offset operand is then 0). -/
inductive ApSrc where
  | tenant (n : Fin 128) (rid : BitVec 16)
  | pf (port : Fin 4)
  | vf (port : Fin 4) (v : Fin 64) (rid : BitVec 16)
  | hpc (h : Fin 16) (va : Dword) (k : HpcKind)
deriving DecidableEq, Repr

/-- The contents of a boot medium (04 R76) from offset 0, as read from flash or from a pushed buffer. -/
abbrev Medium := List Byte

/-- What the end of a bring-up step finds (04 R73). Each constructor carries the inputs of that step: strap pads, media, check outcomes. -/
inductive StepIn where
  /-- Step 2: sampled pins and the hub's own pads. -/
  | straps (ownerPort : Fin 4) (bootSrc : Fin 4) (site : BitVec 4) (build : BitVec 6) (clkMode : BitVec 8) (media : BitVec 2) (mgtAddr : BitVec 2)
  /-- Step 4: flash contents, `none` where no flash answers. -/
  | stage1 (flash : Option Medium)
  /-- Step 5: bundles and tile rails are done (each bundle trains by its own row). -/
  | tiles
  /-- Step 6: fuse maps; a tile (or 8, the hub) whose map fails its CRC. The step ends once the bridge links are trained or left DOWN. -/
  | fuses (bad : Option (Fin 9))
  /-- Step 7: the field map is applied. -/
  | fieldMap
  /-- Step 8: slices have trained (each by its own row). -/
  | slices
  /-- Step 9: a Hamper bank that fails its initialisation check. -/
  | hamper (badBank : Option (Fin 64))
  /-- Step 10: the payload image is fetched from the medium of the stage-1 image. -/
  | payload
  /-- Step 11: cores have fetched (each by its own row). -/
  | cores
  /-- Step 12: the partition plan of the accepted payload, if it has one. -/
  | plan
deriving DecidableEq, Repr

/-- A bring-up watchdog (04 R91), with the flash contents of which the first candidate's read did not end. -/
inductive BootWatch where
  | step2
  | spi (flash : Option Medium)
  | push
  | bundle (t : Fin 8)
  | bridge (t : Fin 8) (d : Fin 4)
  | slice (x : Fin 512)
  | payload
  | core (x : Fin 512)
  | step12
deriving DecidableEq, Repr

/-- An access of a CXL.mem request: a read, or a write of a 64-byte line with or without poison. -/
inductive CxlOp where
  | read
  | write (data : List Byte) (poison : Bool)
deriving DecidableEq, Repr

/-- The status of a host Completion to a COPY read (06 R133). -/
inductive HostCpl where
  | success (data : List Byte) (ep : Bool)
  | unsupported
  | abort
  | translation
deriving DecidableEq, Repr

/-- The fields of a Peken instruction word (07 R175) beside its opcode, which the command's name gives: guard, register fields, mod, the immediate or offset, and the engine fields. `rsv` says that a reserved bit of the word's format is not zero. -/
structure Pk where
  pg : Fin 8
  pn : Bool
  d : Fin 64
  a : Fin 64
  b : Fin 64
  c : Fin 64
  mod : Fin 16
  imm : Word
  token : Fin 16
  mod2 : Fin 16
  flags : BitVec 16
  rsv : Bool
deriving DecidableEq, Repr

/-- An exception of a companion program (07 R180, HPC_EXIT). -/
inductive CompanionCause where
  | illegal
  | access
  | misaligned
  | poison
deriving DecidableEq, Repr

/-- A request at a slice controller (09 R231): a read of n bytes, a write, an atomic update (08 R205: 0 i32 add, 1 f32 add, 2 i64 add, 3 f32 max), a compare-and-swap. -/
inductive SliceOp where
  | read (n : Nat)
  | write (data : List Byte) (poison : Bool)
  | atomic (kind : Fin 4) (v : Dword)
  | cas (cmp swap : Dword)
deriving DecidableEq, Repr

/-- What error correction finds at an access (13 R316, R319, R320): nothing, a corrected error, an uncorrectable one in the line, one in the word of the valid or lost bits, one in a buffer that carries the line. -/
inductive EccIn where
  | clean
  | corrected
  | uncorrectable
  | map
  | buffer
deriving DecidableEq, Repr

/-- What an Ethernet frame that the MAC takes in carries (11 R271): UDP over IP, another protocol over IP, no IP, or a PAUSE. ARP, Neighbor Solicitations, PFC and PTP have their own rows. -/
inductive EthKind where
  | udp
  | otherIp
  | nonIp
  | pause
deriving DecidableEq, Repr

/-- An Ethernet frame as a stream port receives it (11 R271, R273): what it carries, and the fields of its UDP datagram where it carries one. An IPv4 address stands in the low 32 bits. `plain` says that the packet has no IPv4 options, fragments or IPv6 extension headers; `checksum` is none where the UDP checksum field is 0, else whether it verifies; `udp` is the UDP payload. -/
structure EthFrame where
  kind : EthKind
  fcsOk : Bool
  macLen : Nat
  dstMac : BitVec 48
  ipv6 : Bool
  plain : Bool
  dstIp : BitVec 128
  srcIp : BitVec 128
  srcUdp : BitVec 16
  dstUdp : BitVec 16
  checksum : Option Bool
  udp : List Byte
deriving DecidableEq, Repr

/-- A PTP message as firmware's servo takes it (11 R271): whether a Delay_Req answers it, the PTP time the servo sets, and whether it is locked afterwards. -/
structure PtpIn where
  delayReq : Bool
  time : Option (BitVec 64)
  locked : Bool
deriving DecidableEq, Repr

/-- What decoding an access unit finds (12 R296, R304): PicOrderCntVal or order_hint, the start of a sequence, concealment, no picture shown, the parameter field the stream exceeds, the picture buffers it refers to and the one it fills, and AV1 film grain parameters. -/
structure DecIn where
  poc : BitVec 16
  newSeq : Bool
  concealed : Bool
  noPicture : Bool
  exceeded : Option (Fin 256)
  refs : BitVec 17
  buf : Fin 17
  grain : List Byte
deriving DecidableEq, Repr

/-- A memory with an SCB page (13 R330): a slice, a cluster's stores, the Hamper. -/
inductive ScbId where
  | slice (x : Fin 512)
  | cluster (cl : Fin 64)
  | hamper
deriving DecidableEq, Repr

/-- Instructions of the TAP (17 R413). -/
inductive TapInstr where
  | idcode
  | bypass
  | sample
  | preload
  | extest
  | extestPulse
  | extestTrain
  /-- Any other instruction: internal scan, Peken core debug, hub processor debug, by the scope bit of R414 it needs. -/
  | other (scope : Fin 3)
deriving DecidableEq, Repr

/-- What a power sample reads (15 R361): VIN_CORE in mV and mA, tile regulators 0 to 7, VDD_DRAM and VDD_SER in mA. -/
structure PowerIn where
  vinMv : Nat
  vinMa : Nat
  tileMa : List Nat
  dramMa : Nat
  serMa : Nat
deriving DecidableEq, Repr

/-- The board rails of 18 R423 beside VIN_CORE. -/
inductive Rail where
  | vddDram
  | vppDram
  | vddSer
  | vddIo
  | vaoIo
deriving DecidableEq, Repr

/-- One sensor's conversion (16 R371): whether the converter's own check passed, and the result in 0.25 °C. -/
structure SensorIn where
  ok : Bool
  temp : BitVec 11
deriving DecidableEq, Repr

/-- Where a management message came from: the SMBus binding or I3C, and the source EID; and whether it found the MGT compartments full (17 R395). -/
structure MctpSrc where
  smb : Bool
  eid : Fin 256
  full : Bool
deriving DecidableEq, Repr

/-- The envelope of an FMC request (17 R396): source and request ID. -/
structure Fmc where
  src : MctpSrc
  id : BitVec 32
deriving DecidableEq, Repr

/-- The trailer of a signed request (17 R398): nonce, key slot, public key (X then Y) and signature (r then s). -/
structure Signed where
  nonce : List Byte
  slot : Fin 4
  key : List Byte
  sig : List Byte
deriving DecidableEq, Repr

/-- A debug unlock token (17 R414): device ID, nonce, scope word, the key that made the signature, the signature. -/
structure DebugToken where
  device : List Byte
  nonce : List Byte
  scope : Word
  key : List Byte
  sig : List Byte
deriving DecidableEq, Repr

/-- A dynamic address on I3C (17 R394): by ENTDAA, or by SETDASA that names a static address. -/
structure I3cAssign where
  static : Option (BitVec 7)
  da : BitVec 7
deriving DecidableEq, Repr

/-- MCTP control messages (DSP0236): Set and Get Endpoint ID, and the queries that change nothing. -/
inductive MctpOp where
  | setEid (eid : Fin 256)
  | getEid
  | query
deriving DecidableEq, Repr

/-- PLDM Type 2 requests (17 R400). -/
inductive PldmOp where
  | readSensor (id : Nat)
  | getPdr (id : Nat)
deriving DecidableEq, Repr

/-- An SPDM responder (17 R405): the DOE of a port, or MCTP, where a message may find the MGT compartments full (R395). -/
inductive Responder where
  | doe (port : Fin 4)
  | mctp (full : Bool)
deriving DecidableEq, Repr

/-- SPDM requests (17 R405, R406). -/
inductive SpdmOp where
  | version
  | capabilities
  | algorithms
  | digests
  | certificate (slot : Fin 8)
  | challenge (slot : Fin 8)
  | measure (index : Fin 16)
  | keyExchange
  | heartbeat
  | endSession
  | pskExchange
  | setCertificate
deriving DecidableEq, Repr

/-- IDE_KM requests (17 R407): program the keys of a stream, start it, stop it. -/
inductive IdeOp where
  | keyProg
  | setGo
  | setStop
deriving DecidableEq, Repr

/-- A command (00 R2; opcode_table.json). Each constructor's comment gives the row's name and rule. -/
inductive Instr where
  /-- COLD_POWER_ON (R421). -/
  | coldPowerOn
  /-- BRINGUP_STEP_END (R73). -/
  | bringupStepEnd (i : StepIn)
  /-- BOOT_WATCHDOG_EXPIRY (R91). -/
  | bootWatchdogExpiry (w : BootWatch)
  /-- BOOT_CONFIG_SPACE_READY (R87). -/
  | bootConfigSpaceReady (port : Fin 4)
  /-- CONFIG_REQUEST (R87). -/
  | configRequest (fn : FnId) (op : ConfigOp)
  /-- BOOT_PUSH_GO (R89). -/
  | bootPushGo (rq : Requester)
  /-- BOOT_PUSH_READ_DONE (R89). -/
  | bootPushReadDone (m : Medium)
  /-- CORE_BOOT_FETCH (R84). -/
  | coreBootFetch (x : Fin 512) (first second : List Bool)
  /-- SLICE_TRAINING_DONE (R240). -/
  | sliceTrainingDone (x : Fin 512) (ok : Bool)
  /-- LINK_TRAINING (R39). -/
  | linkTraining (l : LinkId) (r : TrainIn)
  /-- BRIDGE_BURST_RECEIVE (R30). -/
  | bridgeBurstReceive (t : Fin 8) (d : Fin 4) (b : Burst)
  /-- BUNDLE_FLIT_RECEIVE (R34). -/
  | bundleFlitReceive (t : Fin 8) (hub : Bool) (f : BundleFlit)
  /-- ACK_NAK_RECEIVE (R31). -/
  | ackNakReceive (e : LinkEndId) (w : AckWord)
  /-- REPLAY_TIMER_EXPIRY (R31). -/
  | replayTimerExpiry (e : LinkEndId)
  /-- REPLAY_LIMIT_REACHED (R45). -/
  | replayLimitReached (e : LinkEndId)
  /-- FEC_THRESHOLD_EXCEEDED (R40). -/
  | fecThresholdExceeded (t : Fin 8) (hub : Bool)
  /-- KEEP_ALIVE_SEND (R35). -/
  | keepAliveSend (e : LinkEndId)
  /-- LINK_WATCHDOG_EXPIRY (R35). -/
  | linkWatchdogExpiry (e : LinkEndId)
  /-- DCLK_LOSS_REPORT (R35). -/
  | dclkLossReport (x : Fin 512)
  /-- LINK_DRAIN_DONE (R40). -/
  | linkDrainDone (l : LinkId)
  /-- LINK_RETRAIN_DONE (R40). -/
  | linkRetrainDone (l : LinkId) (r : TrainIn)
  /-- LINK_RETRAIN_TIMEOUT (R45). -/
  | linkRetrainTimeout (l : LinkId)
  /-- LNK_RETRAIN (R40). -/
  | lnkRetrain (rq : Requester) (t : Fin 8) (d : Fin 4)
  /-- LNK_FORCE_DOWN (R39). -/
  | lnkForceDown (rq : Requester) (t : Fin 8) (d : Fin 4) (v : Bool)
  /-- LNK_ENABLE (R39). -/
  | lnkEnable (rq : Requester) (t : Fin 8) (d : Fin 4) (v : Bool)
  /-- LNK_CLR_CNT (R49). -/
  | lnkClrCnt (rq : Requester) (t : Fin 8) (d : Fin 4)
  /-- SER_RETRAIN (R40). -/
  | serRetrain (rq : Requester) (t : Fin 8) (hub : Bool)
  /-- SER_ENABLE (R46). -/
  | serEnable (rq : Requester) (t : Fin 8) (hub : Bool) (v : Bool)
  /-- SER_CLR_CNT (R49). -/
  | serClrCnt (rq : Requester) (t : Fin 8) (hub : Bool)
  /-- ROUTE_SWITCH_RESUME (R37). -/
  | routeSwitchResume (t u : Fin 8)
  /-- TILE_LOST (R46). -/
  | tileLost (t : Fin 8) (c : LostCause)
  /-- VCLK_LOSS (R24). -/
  | vclkLoss
  /-- HUB_CLOCK_LOSS (R24). -/
  | hubClockLoss (c : HubClock)
  /-- REFCLK_LOSS (R24). -/
  | refclkLoss (port : Fin 4)
  /-- REGISTER_WRITE (R58). -/
  | registerWrite (src : RegSrc) (addr : BitVec 28) (ws : List RegDword) (ep : Bool)
  /-- ERR_REARM (R53). -/
  | errRearm (rq : Requester) (pg : BitVec 16)
  /-- ERR_CLR (R53). -/
  | errClr (rq : Requester) (pg : BitVec 16)
  /-- INT_STS_CLEAR (R67). -/
  | intStsClear (rq : Requester) (pg : BitVec 16) (v : Word)
  /-- INT_FORCE (R50). -/
  | intForce (rq : Requester) (pg : BitVec 16) (v : Word)
  /-- PAGE_LOCK (R53). -/
  | pageLock (rq : Requester) (pg : BitVec 16)
  /-- MSIX_PENDING_SEND (R68). -/
  | msixPendingSend (fn : FnId) (vec : Fin 32)
  /-- APERTURE_WRITE (R106). -/
  | apertureWrite (src : ApSrc) (off : BitVec 28) (data : List Byte) (ep : Bool)
  /-- APERTURE_READ (R436). -/
  | apertureRead (src : ApSrc) (off : BitVec 28) (r : ApRead)
  /-- HAMPER_WRITE_LAND (R113). -/
  | hamperWriteLand
  /-- TILE_HAMPER_REQUEST (R108). -/
  | tileHamperRequest (x : Fin 512) (boot : Bool) (addr : BitVec 28) (wr : Option (List Byte)) (len : Nat)
  /-- HMP_ALLOC (R110). -/
  | hmpAlloc (rq : Requester)
  /-- HMP_FREE (R111). -/
  | hmpFree (rq : Requester)
  /-- HAMPER_CLEAR_DONE (R121). -/
  | hamperClearDone
  /-- HMP_TQ_QUERY (R63). -/
  | hmpTqQuery (rq : Requester) (n : Fin 128) (slot : BitVec 12)
  /-- DOORBELL (R135). -/
  | doorbell (rq : Requester) (n : Fin 128) (q : Fin 8) (v : BitVec 16)
  /-- CQ_HEAD_WRITE (R137). -/
  | cqHeadWrite (rq : Requester) (n : Fin 128) (q : Fin 8) (v : BitVec 16)
  /-- DESCRIPTOR_FETCH (R136). -/
  | descriptorFetch (n : Fin 128) (q : Fin 8)
  /-- DISPATCH (R142). -/
  | dispatch (p : Fin 8)
  /-- JOB_RUN (R143). -/
  | jobRun (p : Fin 8)
  /-- JOB_FENCE (R140). -/
  | jobFence (n : Fin 128) (q : Fin 8)
  /-- JOB_NOP (R140). -/
  | jobNop (n : Fin 128) (q : Fin 8)
  /-- JOB_LOAD (R144). -/
  | jobLoad (p : Fin 8)
  /-- JOB_UNLOAD (R144). -/
  | jobUnload (p : Fin 8)
  /-- JOB_COPY (R140). -/
  | jobCopy (p : Fin 8) (xlate : Bool)
  /-- COPY_HOST_COMPLETION (R153). -/
  | copyHostCompletion (n : Fin 128) (q : Fin 8) (i : BitVec 16) (off : BitVec 25) (c : HostCpl)
  /-- COPY_COMPLETION_TIMEOUT (R133). -/
  | copyCompletionTimeout (n : Fin 128) (q : Fin 8) (i : BitVec 16)
  /-- MODEL_LOAD (R201). -/
  | modelLoad (x : Fin 512)
  /-- CQ_COAL_TIMER_EXPIRY (R139). -/
  | cqCoalTimerExpiry (n : Fin 128) (q : Fin 8)
  /-- CQ_WRITE_FAIL (R153). -/
  | cqWriteFail (n : Fin 128) (q : Fin 8)
  /-- TENANT_CANCEL (R141). -/
  | tenantCancel (rq : Requester) (n : Fin 128) (q : Fin 8) (all : Bool)
  /-- QUEUE_ENABLE (R134). -/
  | queueEnable (rq : Requester) (n : Fin 128) (q : Fin 8) (cfg : Word)
  /-- QUEUE_DISABLE (R147). -/
  | queueDisable (rq : Requester) (n : Fin 128) (q : Fin 8) (cfg : Word)
  /-- TENANT_BIND_WRITE (R435). -/
  | tenantBindWrite (rq : Requester) (n : Fin 128) (v : Word)
  /-- TENANT_RESET_CMD (R130). -/
  | tenantResetCmd (rq : Requester) (n : Fin 128)
  /-- TENANT_RESET (R342). -/
  | tenantReset (n : Fin 128)
  /-- TENANT_RESET_REPORT (R342). -/
  | tenantResetReport (n : Fin 128)
  /-- FUNCTION_LEVEL_RESET (R130). -/
  | functionLevelReset (fn : FnId)
  /-- VF_ENABLE_CLEAR (R130). -/
  | vfEnableClear (port : Fin 4)
  /-- PERST_ASSERT (R424). -/
  | perstAssert (port : Fin 4)
  /-- PERST_DEASSERT (R424). -/
  | perstDeassert (port : Fin 4)
  /-- HOST_LINK_DOWN (R127). -/
  | hostLinkDown (port : Fin 4)
  /-- HOST_LINK_UP (R127). -/
  | hostLinkUp (port : Fin 4) (rate : Fin 6) (width : Fin 17) (flit cxl : Bool)
  /-- D3HOT_ENTER (R128). -/
  | d3hotEnter (port : Fin 4)
  /-- D0_RETURN (R128). -/
  | d0Return (port : Fin 4)
  /-- CXL_MEM_ACCESS (R125). -/
  | cxlMemAccess (port : Fin 4) (off : BitVec 37) (op : CxlOp)
  /-- NOP (R176). -/
  | pkNop (x : Fin 512) (i : Pk)
  /-- BR (R176). -/
  | pkBr (x : Fin 512) (i : Pk)
  /-- BRC (R176). -/
  | pkBrc (x : Fin 512) (i : Pk)
  /-- CALL (R176). -/
  | pkCall (x : Fin 512) (i : Pk)
  /-- JR (R176). -/
  | pkJr (x : Fin 512) (i : Pk)
  /-- IF (R166). -/
  | pkIf (x : Fin 512) (i : Pk)
  /-- ELSE (R166). -/
  | pkElse (x : Fin 512) (i : Pk)
  /-- ENDIF (R166). -/
  | pkEndif (x : Fin 512) (i : Pk)
  /-- LOOP (R166). -/
  | pkLoop (x : Fin 512) (i : Pk)
  /-- BRK (R166). -/
  | pkBrk (x : Fin 512) (i : Pk)
  /-- ENDLOOP (R166). -/
  | pkEndloop (x : Fin 512) (i : Pk)
  /-- BRNONE (R176). -/
  | pkBrnone (x : Fin 512) (i : Pk)
  /-- TRAP (R189). -/
  | pkTrap (x : Fin 512) (i : Pk)
  /-- ADD (R176). -/
  | pkAdd (x : Fin 512) (i : Pk)
  /-- SUB (R176). -/
  | pkSub (x : Fin 512) (i : Pk)
  /-- AND (R176). -/
  | pkAnd (x : Fin 512) (i : Pk)
  /-- OR (R176). -/
  | pkOr (x : Fin 512) (i : Pk)
  /-- XOR (R176). -/
  | pkXor (x : Fin 512) (i : Pk)
  /-- SHL (R176). -/
  | pkShl (x : Fin 512) (i : Pk)
  /-- SHR (R176). -/
  | pkShr (x : Fin 512) (i : Pk)
  /-- SRA (R176). -/
  | pkSra (x : Fin 512) (i : Pk)
  /-- MUL (R176). -/
  | pkMul (x : Fin 512) (i : Pk)
  /-- MULHU (R176). -/
  | pkMulhu (x : Fin 512) (i : Pk)
  /-- MIN (R176). -/
  | pkMin (x : Fin 512) (i : Pk)
  /-- MAX (R176). -/
  | pkMax (x : Fin 512) (i : Pk)
  /-- MINU (R176). -/
  | pkMinu (x : Fin 512) (i : Pk)
  /-- MAXU (R176). -/
  | pkMaxu (x : Fin 512) (i : Pk)
  /-- SLT (R176). -/
  | pkSlt (x : Fin 512) (i : Pk)
  /-- SLTU (R176). -/
  | pkSltu (x : Fin 512) (i : Pk)
  /-- ADDI (R176). -/
  | pkAddi (x : Fin 512) (i : Pk)
  /-- ANDI (R176). -/
  | pkAndi (x : Fin 512) (i : Pk)
  /-- ORI (R176). -/
  | pkOri (x : Fin 512) (i : Pk)
  /-- XORI (R176). -/
  | pkXori (x : Fin 512) (i : Pk)
  /-- SHLI (R176). -/
  | pkShli (x : Fin 512) (i : Pk)
  /-- SHRI (R176). -/
  | pkShri (x : Fin 512) (i : Pk)
  /-- SRAI (R176). -/
  | pkSrai (x : Fin 512) (i : Pk)
  /-- LUI (R176). -/
  | pkLui (x : Fin 512) (i : Pk)
  /-- SLTI (R176). -/
  | pkSlti (x : Fin 512) (i : Pk)
  /-- CSRR (R164). -/
  | pkCsrr (x : Fin 512) (i : Pk)
  /-- CSRW (R164). -/
  | pkCsrw (x : Fin 512) (i : Pk)
  /-- LDS (R160). -/
  | pkLds (x : Fin 512) (i : Pk)
  /-- STS (R160). -/
  | pkSts (x : Fin 512) (i : Pk)
  /-- VADD (R176). -/
  | pkVadd (x : Fin 512) (i : Pk)
  /-- VSUB (R176). -/
  | pkVsub (x : Fin 512) (i : Pk)
  /-- VMUL (R176). -/
  | pkVmul (x : Fin 512) (i : Pk)
  /-- VMULHU (R176). -/
  | pkVmulhu (x : Fin 512) (i : Pk)
  /-- VAND (R176). -/
  | pkVand (x : Fin 512) (i : Pk)
  /-- VOR (R176). -/
  | pkVor (x : Fin 512) (i : Pk)
  /-- VXOR (R176). -/
  | pkVxor (x : Fin 512) (i : Pk)
  /-- VSHL (R176). -/
  | pkVshl (x : Fin 512) (i : Pk)
  /-- VSHR (R176). -/
  | pkVshr (x : Fin 512) (i : Pk)
  /-- VSRA (R176). -/
  | pkVsra (x : Fin 512) (i : Pk)
  /-- VMIN (R176). -/
  | pkVmin (x : Fin 512) (i : Pk)
  /-- VMAX (R176). -/
  | pkVmax (x : Fin 512) (i : Pk)
  /-- VMINU (R176). -/
  | pkVminu (x : Fin 512) (i : Pk)
  /-- VMAXU (R176). -/
  | pkVmaxu (x : Fin 512) (i : Pk)
  /-- VSEL (R176). -/
  | pkVsel (x : Fin 512) (i : Pk)
  /-- VMAD (R176). -/
  | pkVmad (x : Fin 512) (i : Pk)
  /-- VFADD (R173). -/
  | pkVfadd (x : Fin 512) (i : Pk)
  /-- VFSUB (R173). -/
  | pkVfsub (x : Fin 512) (i : Pk)
  /-- VFMUL (R173). -/
  | pkVfmul (x : Fin 512) (i : Pk)
  /-- VFMA (R173). -/
  | pkVfma (x : Fin 512) (i : Pk)
  /-- VFMIN (R173). -/
  | pkVfmin (x : Fin 512) (i : Pk)
  /-- VFMAX (R173). -/
  | pkVfmax (x : Fin 512) (i : Pk)
  /-- VFRCP (R173). -/
  | pkVfrcp (x : Fin 512) (i : Pk)
  /-- VFRSQ (R173). -/
  | pkVfrsq (x : Fin 512) (i : Pk)
  /-- VFEXP2 (R173). -/
  | pkVfexp2 (x : Fin 512) (i : Pk)
  /-- VFLOG2 (R173). -/
  | pkVflog2 (x : Fin 512) (i : Pk)
  /-- VFSGN (R176). -/
  | pkVfsgn (x : Fin 512) (i : Pk)
  /-- VCVT (R174). -/
  | pkVcvt (x : Fin 512) (i : Pk)
  /-- VFRND (R176). -/
  | pkVfrnd (x : Fin 512) (i : Pk)
  /-- VICMP (R176). -/
  | pkVicmp (x : Fin 512) (i : Pk)
  /-- VFCMP (R176). -/
  | pkVfcmp (x : Fin 512) (i : Pk)
  /-- PAND (R176). -/
  | pkPand (x : Fin 512) (i : Pk)
  /-- POR (R176). -/
  | pkPor (x : Fin 512) (i : Pk)
  /-- PXOR (R176). -/
  | pkPxor (x : Fin 512) (i : Pk)
  /-- PANDN (R176). -/
  | pkPandn (x : Fin 512) (i : Pk)
  /-- PANY (R176). -/
  | pkPany (x : Fin 512) (i : Pk)
  /-- PCNT (R176). -/
  | pkPcnt (x : Fin 512) (i : Pk)
  /-- PTOS (R176). -/
  | pkPtos (x : Fin 512) (i : Pk)
  /-- STOP (R176). -/
  | pkStop (x : Fin 512) (i : Pk)
  /-- VLD (R197). -/
  | pkVld (x : Fin 512) (i : Pk)
  /-- VST (R197). -/
  | pkVst (x : Fin 512) (i : Pk)
  /-- VSHFL (R176). -/
  | pkVshfl (x : Fin 512) (i : Pk)
  /-- VRED (R173). -/
  | pkVred (x : Fin 512) (i : Pk)
  /-- VSCAN (R173). -/
  | pkVscan (x : Fin 512) (i : Pk)
  /-- VBCAST (R176). -/
  | pkVbcast (x : Fin 512) (i : Pk)
  /-- VTID (R176). -/
  | pkVtid (x : Fin 512) (i : Pk)
  /-- VEXT (R176). -/
  | pkVext (x : Fin 512) (i : Pk)
  /-- VINS (R176). -/
  | pkVins (x : Fin 512) (i : Pk)
  /-- MMA (R170). -/
  | pkMma (x : Fin 512) (i : Pk)
  /-- MSCL (R176). -/
  | pkMscl (x : Fin 512) (i : Pk)
  /-- MCVT (R172). -/
  | pkMcvt (x : Fin 512) (i : Pk)
  /-- MXE_OP_COMPLETE (R171). -/
  | mxeOpComplete (x : Fin 512)
  /-- MVL (R202). -/
  | pkMvl (x : Fin 512) (i : Pk)
  /-- MVS (R204). -/
  | pkMvs (x : Fin 512) (i : Pk)
  /-- MVG (R205). -/
  | pkMvg (x : Fin 512) (i : Pk)
  /-- MVT (R205). -/
  | pkMvt (x : Fin 512) (i : Pk)
  /-- MVA (R207). -/
  | pkMva (x : Fin 512) (i : Pk)
  /-- MCAS (R207). -/
  | pkMcas (x : Fin 512) (i : Pk)
  /-- MOVER_OP_START (R206). -/
  | moverOpStart (x : Fin 512)
  /-- MOVER_OP_COMPLETE (R208). -/
  | moverOpComplete (x : Fin 512) (k : Fin 4)
  /-- ATTN (R256). -/
  | pkAttn (x : Fin 512) (i : Pk)
  /-- KVAPP (R255). -/
  | pkKvapp (x : Fin 512) (i : Pk)
  /-- KVOP (R253). -/
  | pkKvop (x : Fin 512) (i : Pk)
  /-- WAIT (R167). -/
  | pkWait (x : Fin 512) (i : Pk)
  /-- WAITA (R167). -/
  | pkWaita (x : Fin 512) (i : Pk)
  /-- BAR (R177). -/
  | pkBar (x : Fin 512) (i : Pk)
  /-- MFENCE (R168). -/
  | pkMfence (x : Fin 512) (i : Pk)
  /-- TOKS (R176). -/
  | pkToks (x : Fin 512) (i : Pk)
  /-- REZQ (R176). -/
  | pkRezq (x : Fin 512) (i : Pk)
  /-- REZINV (R161). -/
  | pkRezinv (x : Fin 512) (i : Pk)
  /-- JEND (R177). -/
  | pkJend (x : Fin 512) (i : Pk)
  /-- IDLE (R158). -/
  | pkIdle (x : Fin 512) (i : Pk)
  /-- RANK_END (R177). -/
  | rankEnd (x : Fin 512) (energy : Nat)
  /-- JOB_STOP (R184). -/
  | jobStop (x : Fin 512)
  /-- HPC_GRANT_WRITE (R178). -/
  | hpcGrantWrite (rq : Requester) (h : Fin 16) (v : Word)
  /-- HPC_START (R178). -/
  | hpcStart (rq : Requester) (h : Fin 16)
  /-- HPC_STOP (R180). -/
  | hpcStop (rq : Requester) (h : Fin 16)
  /-- COMPANION_ECALL (R180). -/
  | companionEcall (h : Fin 16) (a7 a0 : Dword)
  /-- COMPANION_EXCEPTION (R180). -/
  | companionException (h : Fin 16) (c : CompanionCause) (tval : Dword)
  /-- COMPANION_STOPPED (R180). -/
  | companionStopped (h : Fin 16)
  /-- SPARE_ASSIGN_WRITE (R198). -/
  | spareAssignWrite (rq : Requester) (x : Fin 512) (v : Word)
  /-- SPARE_ASSIGN_TAKE_EFFECT (R199). -/
  | spareAssignTakeEffect (x : Fin 512)
  /-- SLICE_REQUEST (R231). -/
  | sliceRequest (x : Fin 512) (addr : BitVec 27) (op : SliceOp) (ecc : EccIn)
  /-- SLICE_BOND_ERROR (R236). -/
  | sliceBondError (x : Fin 512)
  /-- SLICE_CALIBRATION (R230). -/
  | sliceCalibration (x : Fin 512) (ok : Bool)
  /-- SLC_FORCE_FAIL (R236). -/
  | slcForceFail (rq : Requester) (x : Fin 512)
  /-- SLICE_REFRESH (R229). -/
  | sliceRefresh (x : Fin 512)
  /-- REFRESH_BAND_FALL (R229). -/
  | refreshBandFall (t : Fin 8)
  /-- KVOP_ALLOC (R253). -/
  | kvopAlloc (x : Fin 512)
  /-- KVOP_INCREF (R253). -/
  | kvopIncref (x : Fin 512)
  /-- KVOP_DECREF (R253). -/
  | kvopDecref (x : Fin 512)
  /-- KVOP_FORK (R253). -/
  | kvopFork (x : Fin 512)
  /-- KVOP_RELEASE (R253). -/
  | kvopRelease (x : Fin 512)
  /-- KVOP_INVAL (R249). -/
  | kvopInval (x : Fin 512)
  /-- KVOP_QUERY (R253). -/
  | kvopQuery (x : Fin 512)
  /-- KVAPP_EXECUTE (R255). -/
  | kvappExecute (x : Fin 512)
  /-- ATTN_EXECUTE (R258). -/
  | attnExecute (x : Fin 512)
  /-- KPM_RECLAIM_SWEEP (R264). -/
  | kpmReclaimSweep (n : Fin 128)
  /-- POOL_ENABLE (R269). -/
  | poolEnable (rq : Requester) (p : Fin 8) (v : Word)
  /-- POOL_DISABLE (R269). -/
  | poolDisable (rq : Requester) (p : Fin 8) (v : Word)
  /-- POOL_INIT_DONE (R265). -/
  | poolInitDone (p : Fin 8)
  /-- KVW_FLUSH (R249). -/
  | kvwFlush (rq : Requester) (cl : Fin 64)
  /-- DATAGRAM_RECEIVE (R279). -/
  | datagramReceive (n : Fin 2) (f : EthFrame)
  /-- STREAM_HEAD_READ (R277). -/
  | streamHeadRead (k : Fin 512)
  /-- SEQUENCE_GAP_TIMEOUT (R279). -/
  | sequenceGapTimeout (k : Fin 512)
  /-- HALT_REPEAT (R280). -/
  | haltRepeat (k : Fin 512)
  /-- EASE_REPEAT (R280). -/
  | easeRepeat (k : Fin 512)
  /-- PFC_REFRESH (R280). -/
  | pfcRefresh (n : Fin 2) (prio : Fin 8)
  /-- PFC_RECEIVE (R271). -/
  | pfcReceive (n : Fin 2) (prio : Fin 8) (time : BitVec 16)
  /-- ARP_NS_REQUEST (R271). -/
  | arpNsRequest (n : Fin 2) (ns : Bool) (target : BitVec 128)
  /-- PTP_MESSAGE (R271). -/
  | ptpMessage (n : Fin 2) (m : PtpIn)
  /-- ETHERNET_LINK_DOWN (R285). -/
  | ethernetLinkDown (n : Fin 2)
  /-- ETHERNET_LINK_UP (R285). -/
  | ethernetLinkUp (n : Fin 2)
  /-- STREAM_ENABLE (R286). -/
  | streamEnable (rq : Requester) (k : Fin 512) (v : Word)
  /-- STREAM_DISABLE (R285). -/
  | streamDisable (rq : Requester) (k : Fin 512) (v : Word)
  /-- VCE_PRODUCER_POLL (R295). -/
  | vceProducerPoll (i : Fin 64)
  /-- VCE_ENCODE (R297). -/
  | vceEncode (i : Fin 64)
  /-- VCE_DECODE (R304). -/
  | vceDecode (i : Fin 64)
  /-- ENCODE_PASS_DONE (R301). -/
  | encodePassDone (i : Fin 64) (len : Nat) (qp : Fin 256)
  /-- VCE_SESSION_ENABLE (R310). -/
  | vceSessionEnable (rq : Requester) (i : Fin 64) (v : Word)
  /-- VCE_SESSION_DISABLE (R307). -/
  | vceSessionDisable (rq : Requester) (i : Fin 64) (v : Word)
  /-- VCE_BIST (R308). -/
  | vceBist (rq : Requester) (n : Fin 4)
  /-- VCE_BIST_DONE (R309). -/
  | vceBistDone (n : Fin 4) (pass : Bool)
  /-- VCE_ENGINE_RESET (R309). -/
  | vceEngineReset (rq : Requester) (n : Fin 4)
  /-- VCE_ENGINE_FAULT (R309). -/
  | vceEngineFault (n : Fin 4)
  /-- VCE_OUTPUT_HEAD_READ (R303). -/
  | vceOutputHeadRead (i : Fin 64)
  /-- IDLE_SCRUB_LINE (R317). -/
  | idleScrubLine (cl : Option (Fin 64)) (ecc : EccIn)
  /-- SCRUB_LAP_LIMIT (R317). -/
  | scrubLapLimit (cl : Option (Fin 64))
  /-- PATROL_SCRUB_STEP (R318). -/
  | patrolScrubStep (x : Fin 512) (ecc : EccIn)
  /-- CE_WINDOW_END (R321). -/
  | ceWindowEnd (m : ScbId)
  /-- CE_WINDOW_WRITE (R321). -/
  | ceWindowWrite (rq : Requester) (m : ScbId) (v : Word)
  /-- MEMORY_SELF_TEST (R328). -/
  | memorySelfTest (rq : Requester) (m : ScbId) (v : Word)
  /-- SELF_TEST_DONE (R328). -/
  | selfTestDone (m : ScbId) (pass : Bool)
  /-- FAULT_LOG_CLEAR (R329). -/
  | faultLogClear (rq : Requester) (n : Fin 128)
  /-- CORE_RESET (R341). -/
  | coreReset (rq : Requester) (target : Fin 512)
  /-- CLUSTER_RESET (R341). -/
  | clusterReset (rq : Requester) (target : Fin 512)
  /-- TILE_RESET (R341). -/
  | tileReset (rq : Requester) (target : Fin 512)
  /-- PARTITION_BUILD (R332). -/
  | partitionBuild (rq : Requester) (p : Fin 8)
  /-- PARTITION_RESET (R340). -/
  | partitionReset (rq : Requester) (p : Fin 8)
  /-- PARTITION_DISSOLVE (R333). -/
  | partitionDissolve (rq : Requester) (p : Fin 8)
  /-- RESET_ABSORB_POINT (R337). -/
  | resetAbsorbPoint (scope : Fin 8) (target : Fin 512)
  /-- RESET_RESTORE (R337). -/
  | resetRestore (scope : Fin 8) (target : Fin 512)
  /-- DEVICE_WARM_RESET (R343). -/
  | deviceWarmReset (rq : Requester) (key : BitVec 16)
  /-- OPP_CHANGE_START (R358). -/
  | oppChangeStart (t : Fin 8)
  /-- PLL_LOCKED (R358). -/
  | pllLocked (t : Fin 8)
  /-- VDD_T_REACHED (R358). -/
  | vddTReached (t : Fin 8)
  /-- POWER_SAMPLE (R361). -/
  | powerSample (i : PowerIn)
  /-- FAST_CLAMP_RELEASE (R363). -/
  | fastClampRelease (t : Option (Fin 8))
  /-- POWER_LOOP_TICK (R362). -/
  | powerLoopTick
  /-- PWR_LIMIT_WRITE (R355). -/
  | pwrLimitWrite (rq : Requester) (v : Word)
  /-- PWR_T_REQ_WRITE (R355). -/
  | pwrTReqWrite (rq : Requester) (t : Fin 8) (v : Word)
  /-- DOMAIN_RAMP_START (R360). -/
  | domainRampStart (t : Fin 8)
  /-- RAMP_STAGE_DWELL (R357). -/
  | rampStageDwell (t : Fin 8) (dom : Fin 136)
  /-- VIRTUAL_RAIL_90 (R357). -/
  | virtualRail90 (t : Fin 8) (dom : Fin 136)
  /-- DOMAIN_SHORT (R366). -/
  | domainShort (t : Fin 8) (dom : Fin 136) (rail : Bool)
  /-- REGULATOR_FAULT (R367). -/
  | regulatorFault (t : Fin 8) (under : Bool)
  /-- VIN_CORE_LOW (R367). -/
  | vinCoreLow
  /-- VIN_CORE_RESTORED (R367). -/
  | vinCoreRestored
  /-- RAIL_LOSS (R423). -/
  | railLoss (r : Rail)
  /-- VDD_AO_LOSS (R336). -/
  | vddAoLoss
  /-- THERMAL_CONVERSION (R372). -/
  | thermalConversion (die : Fin 9) (rs : List SensorIn)
  /-- THROTTLE_STEP (R376). -/
  | throttleStep (t : Fin 8)
  /-- THROTTLE_RELEASE_STEP (R376). -/
  | throttleReleaseStep (t : Fin 8)
  /-- SAMPLING_BAND_DROP (R372). -/
  | samplingBandDrop (die : Fin 9)
  /-- EXT_NTC_CONVERSION (R374). -/
  | extNtcConversion (k : Fin 2) (valid : Bool) (temp : Int)
  /-- COOLANT_OK_HIGH (R375). -/
  | coolantOkHigh
  /-- COOLANT_OK_RESTORED (R388). -/
  | coolantOkRestored
  /-- RISE_EVALUATION (R387). -/
  | riseEvaluation
  /-- HUB_T_HOT_RESTORED (R388). -/
  | hubTHotRestored
  /-- FLOOR_RELEASE (R388). -/
  | floorRelease (rq : Requester)
  /-- COOLING_SHUTDOWN (R389). -/
  | coolingShutdown
  /-- COOLING_SHUTDOWN_ABSORB (R389). -/
  | coolingShutdownAbsorb
  /-- THM_CFG_WRITE (R373). -/
  | thmCfgWrite (rq : Requester) (v : Word)
  /-- FORECAST_PUBLISH (R380). -/
  | forecastPublish
  /-- CYCLE_SNAPSHOT (R382). -/
  | cycleSnapshot
  /-- ENERGY_TABLE_CLEAR (R379). -/
  | energyTableClear (rq : Requester)
  /-- MCTP_CONTROL (R395). -/
  | mctpControl (src : MctpSrc) (op : MctpOp)
  /-- GET_NONCE (R397). -/
  | getNonce (f : Fmc)
  /-- REG_READ (R397). -/
  | regRead (f : Fmc) (addr : BitVec 28) (n : Nat)
  /-- REG_WRITE (R397). -/
  | regWrite (f : Fmc) (addr : BitVec 28) (ws : List RegDword)
  /-- TRAIL_READ (R397). -/
  | trailRead (f : Fmc) (slot : Fin 4096) (n : Fin 64)
  /-- DEV_RESET (R397). -/
  | devReset (f : Fmc)
  /-- RESTART (R389). -/
  | restart (f : Fmc)
  /-- EVENT_SUB (R401). -/
  | eventSub (f : Fmc) (eid : Fin 256)
  /-- OWNER_TRANSFER (R126). -/
  | ownerTransfer (f : Fmc) (g : Signed) (port : Nat)
  /-- FIELD_SUBST (R344). -/
  | fieldSubst (f : Fmc) (g : Signed) (tile cluster p : Nat)
  /-- FIELD_MAP_CLEAR (R397). -/
  | fieldMapClear (f : Fmc) (g : Signed)
  /-- SVN_COMMIT (R404). -/
  | svnCommit (f : Fmc) (g : Signed)
  /-- KEY_REVOKE (R404). -/
  | keyRevoke (f : Fmc) (g : Signed) (slot : Nat)
  /-- DEBUG_CHALLENGE (R414). -/
  | debugChallenge (f : Fmc)
  /-- DEBUG_UNLOCK (R414). -/
  | debugUnlock (f : Fmc) (device nonce : List Byte) (scope : Word) (key sig : List Byte)
  /-- NONCE_EXPIRY (R398). -/
  | nonceExpiry (src : MctpSrc)
  /-- FUSE_WRITE_DONE (R404). -/
  | fuseWriteDone
  /-- PLDM_MONITOR_REQUEST (R400). -/
  | pldmMonitorRequest (src : MctpSrc) (inst : Nat) (op : PldmOp)
  /-- PLDM_UPDATE_COMPONENT (R402). -/
  | pldmUpdateComponent (src : MctpSrc) (inst comp : Nat)
  /-- PLDM_FIRMWARE_DATA (R402). -/
  | pldmFirmwareData (data : List Byte)
  /-- PLDM_VERIFY_COMPLETE (R402); `back` is what the flash gives back where that is not what was written to it. -/
  | pldmVerifyComplete (back : Option (List Byte))
  /-- PLDM_ACTIVATE_FIRMWARE (R402). -/
  | pldmActivateFirmware (src : MctpSrc) (inst : Nat)
  /-- MANAGEMENT_PUSH (R403). -/
  | managementPush (m : Option Medium)
  /-- SPDM_REQUEST (R405). -/
  | spdmRequest (r : Responder) (op : SpdmOp)
  /-- IDE_KM_REQUEST (R407). -/
  | ideKmRequest (port : Fin 4) (stream : Fin 5) (op : IdeOp)
  /-- IDE_INSECURE (R408). -/
  | ideInsecure (port : Fin 4) (stream : Fin 5)
  /-- TRAIL_RECORD_COMMIT (R412). -/
  | trailRecordCommit
  /-- TRL_IDX_WRITE (R412). -/
  | trlIdxWrite (rq : Requester) (v : Word)
  /-- TAP_INSTRUCTION (R413). -/
  | tapInstruction (i : TapInstr)
  /-- RESUME_REPEAT (R280). -/
  | resumeRepeat (k : Fin 512)
  /-- VCE_DECODE_DONE (R304). -/
  | vceDecodeDone (i : Fin 64) (r : DecIn)
  /-- ATU_COMMAND_DONE (R260). -/
  | atuCommandDone (x : Fin 512)
  /-- ACK_INTERVAL_TIMER (R31). -/
  | ackIntervalTimer (e : LinkEndId)
  /-- RAIL_RESTORED (R423). -/
  | railRestored (r : Rail)
  /-- UE_WINDOW_END (R236). -/
  | ueWindowEnd (x : Fin 512)
  /-- REGISTER_READ (R64). -/
  | registerRead (src : RegSrc) (addr : BitVec 28) (n : Nat)
  /-- I3C_ADDRESS_ASSIGN (R394). -/
  | i3cAddressAssign (a : I3cAssign)
  /-- TAP_RESET (R426). -/
  | tapReset
  /-- PFC_PAUSE_EXPIRY (R271). -/
  | pfcPauseExpiry (n : Fin 2) (prio : Fin 8)
deriving DecidableEq, Repr

end Sys2Proof
end

