-- ==== Sys2Proof/Decode.lean ====
section
/-! DEFINITION. The reading of a command from a table word. The opcode table of this block gives no row any bits: a command reaches the block as an access, a message or an event, not as a word. -/
namespace Sys2Proof

/-- The command a word spells by the table's bits: none, since no row has bits. -/
def decodeTableWord (_nbits _w : Nat) : Option Instr := none

end Sys2Proof
end

