-- ==== Sys2Proof/Config.lean ====
section
/-! DEFINITION. What an implementation fixes and what the spec leaves open: constants without a body, so that a claim holds whatever they are. Free values are applied to the operands they depend on, or to the model's own counter `State.fresh`. -/
namespace Sys2Proof.Config

/-- A 32-bit value the spec does not state, fresh for each counter value. -/
opaque freeWord : Nat → Word

/-- A byte the spec does not state, fresh for each counter value and position. -/
opaque freeByte : Nat → Nat → Byte

/-- A number the spec does not state (a size, a choice among allowed orders), fresh for each counter value. -/
opaque freeNat : Nat → Nat

/-- Which of the binary32 codes within 2 ulp of the exact value VFRCP (0), VFRSQ (1), VFEXP2 (2), VFLOG2 (3) and the exponential (4) and logarithm (5) of ATTN give for an operand (07 R173, 10 R258: within 2 ulp, the same on every KT8). Used modulo the number of those codes. -/
opaque fpStep : Nat → Word → Nat

/-- What a mover operation leaves in a destination byte that is also one of its source bytes (08 R203: undefined; 07 R183: the same for the same inputs): a function of the operation's fields, its descriptor, the bytes it reads, the byte's address and its old value. -/
opaque moverByte : List Nat → List Byte → List Byte → Nat → Byte → Byte

/-- Whether element n of a mover operation leaves an aligned dword that an earlier element wrote as it is (08 R206: the order of element accesses is not defined, each dword holds the value of one write; 07 R183): a function of the operation's fields, its descriptor, the bytes it reads, n and the dword's address. -/
opaque moverKeep : List Nat → List Byte → List Byte → Nat → Nat → Bool

/-- The emax that an MCVT with scales takes for BF16 (4), FP16 (5) and FP32 (6), which 07 R172 does not state. -/
opaque mxEmax : Nat → Int

/-- Whether VFMA of a zero, an infinity and a quiet NaN sets invalid (07 R173; IEEE 754-2019 leaves it to the implementation). -/
opaque fmaNanInvalid : Bool

/-- The thread whose store a VST applies last where several threads write one byte (07 R176 states no order; R183: the same on every KT8). Used modulo 64. -/
opaque vstLast : Nat

/-- The conventions of the CRC-32 of flits and of the boot directory (02 R29, R33; 04 R76): the spec gives the polynomial 0x04C1_1DB7 and neither the initial value, the final XOR, the order of the bits of a byte, nor whether the result is reflected. -/
opaque crcInit : Nat
opaque crcFinal : Nat
opaque crcLsbFirst : Bool
opaque crcReflected : Bool

/-- SHA-384 (04 R77-R79, R83; 17 R398), a function that the spec names and does not copy. -/
opaque sha384 : List Byte → List Byte

/-- The key hashes fused into the part (04 R79; 17 R414): SHA-384 of the public key of slots 0 to 3, and of the debug key at 4. -/
opaque fusedKey : Nat → List Byte

/-- Whether a signature (96 bytes, r then s) is an ECDSA P-384 signature of a digest under a public key (96 bytes, X then Y) (04 R78, 17 R398). -/
opaque ecdsaP384 : List Byte → List Byte → List Byte → Bool

/-- The bit rate (kbit/s) and buffer size (kbit) that a level and tier allow, by codec, level and tier (12 R302: the limits of H.265 and AV1, which the spec names and does not copy). -/
opaque levelLimits : Nat → Nat → Nat → Nat × Nat

/-- Sample i (raster order) of a plane scaled by the input stage (12 R297: an 8-tap luma and 4-tap chroma polyphase filter of 64 phases, whose coefficients and rounding the spec does not give): luma or chroma, source and scaled size, source samples. -/
opaque scaled : Bool → Nat × Nat → Nat × Nat → List Nat → Nat → Nat

/-- Sample i of a chroma plane filtered from 4:2:2 to 4:2:0 (12 R297): width, samples. -/
opaque chromaHalved : Nat → List Nat → Nat → Nat

/-- The step that motion search takes at a level (0 the 1/4 pyramid level, 1 the 1/2 level, 2 full resolution, 3 half- and quarter-samples), in units of that level (12 R299): parameter block, coded picture, reference, block, and the vector of the level before. -/
opaque mvStep : Nat → List Byte → List (List Nat) → List Byte → Nat → Int × Int → Int × Int

/-- Byte i of an access unit, and sample i of a plane of the picture it reconstructs (12 R288, R289, R298-R302: the standards and the encoder's own decisions fix them): the parameter block; the coded picture, the tool set, the parts of the split, and type, quantiser, length and filler; the references; the motion vectors; a number that is 0 unless the work area was written by the tenant (R290). -/
opaque vcBits : List Byte → List (List Nat) → List (List Byte) → List (Int × Int) → Nat → Nat → Byte
opaque vcRecon : List Byte → List (List Nat) → List (List Byte) → List (Int × Int) → Nat → Nat → Nat → Nat

/-- Length less 1 (used modulo K) and mean quantiser of a skip or flat intra picture (12 R302): parameter block, flat intra, pictures coded before. -/
opaque vcSub : List Byte → Bool → Nat → Nat × Nat

/-- Byte i of what the work area holds beside a picture (12 R293: pyramids and motion field, whose layout the spec does not give): parameter block, samples of the picture, motion vectors. -/
opaque vcAux : List Byte → (List (List Nat)) → List (Int × Int) → Nat → Byte

/-- Sample i of a plane of a decoded picture (12 R304; the standards fix it): parameter block, access unit, reference pictures. -/
opaque vcDecoded : List Byte → List Byte → List (List Byte) → Nat → Nat → Nat

/-- The fused VDD_T offset of a tile in mV for operating points above 0 (15 R353: 0 to 20, per tile). Used modulo 21. -/
opaque vddOffset : Nat → Nat

/-- Digest i of an SPDM measurement whose content is a digest (17 R406): the spec gives no digest's value. -/
opaque measurement : Nat → Nat → Nat

/-- The certificate chain of slot 0 (17 R405): root, device identity and the alias certificate, whose key is derived from the device secret and the stage-1 digest; and the signature of a challenge or a measurement, by the responder's key, as a function of what it signs. -/
opaque certChain : List Byte → List Byte
opaque spdmSign : List Nat → List Byte

/-- The sixteen bytes of the device ID (17 R397). -/
opaque deviceId : Nat → Byte

/-- Finrum's PCI-SIG Vendor ID (06 R122), which the spec does not give. -/
opaque vendorId : Nat

end Sys2Proof.Config
end

