-- ==== Sys2Proof/Machine/Tab.lean ====
section
/-! DEFINITION. `Tab V`: sparse plain data by key, in one canonical form. A table is a list of (key, value) pairs with strictly rising keys and no entry equal to what an unlisted key reads as, so equal contents are equal lists. Every sparse piece of state (registers, memories, cores, queues) is one of these. -/
namespace Sys2Proof.Machine

/-- Sparse data by key. What an unlisted key reads as is an argument of `get` and `set`. -/
abbrev Tab (V : Type) := List (Nat × V)

/-- The value at key `k`; `d k` where nothing is listed. -/
def Tab.get {V : Type} (d : Nat → V) : Tab V → Nat → V
  | [], k => d k
  | (j, v) :: m, k => if k = j then v else Tab.get d m k

/-- Put `v` at key `k`, keeping the keys rising. -/
def Tab.ins {V : Type} (k : Nat) (v : V) : Tab V → Tab V
  | [] => [(k, v)]
  | (j, w) :: m =>
    if k < j then (k, v) :: (j, w) :: m
    else if k = j then (k, v) :: m
    else (j, w) :: Tab.ins k v m

/-- Drop every entry of key `k`. -/
def Tab.del {V : Type} (k : Nat) : Tab V → Tab V
  | [] => []
  | (j, w) :: m => if k = j then Tab.del k m else (j, w) :: Tab.del k m

/-- Make key `k` read as `v`: an entry, or none where `v` is what an unlisted key reads as. -/
def Tab.set {V : Type} [DecidableEq V] (d : Nat → V) (m : Tab V) (k : Nat) (v : V) : Tab V :=
  if v = d k then Tab.del k m else Tab.ins k v m

/-- Drop every entry whose key lies in `lo .. lo + n - 1`: those keys read as unlisted. -/
def Tab.clear {V : Type} (m : Tab V) (lo n : Nat) : Tab V :=
  m.filter fun e => decide (e.1 < lo ∨ lo + n ≤ e.1)

/-- Drop every entry whose key satisfies `p`. -/
def Tab.clearIf {V : Type} (m : Tab V) (p : Nat → Bool) : Tab V :=
  m.filter fun e => !(p e.1)

/-- The keys of a table that lie in order, first to last. -/
def Tab.keys {V : Type} (m : Tab V) : List Nat := m.map (·.1)

/-- Strictly rising keys, each above `b` where `b` is given. -/
def Tab.rising {V : Type} : Tab V → Bool
  | [] => true
  | [_] => true
  | (j, _) :: (k, w) :: m => decide (j < k) && Tab.rising ((k, w) :: m)

/-- The canonical form: rising keys, and no entry equal to what its key reads as when unlisted. -/
def Tab.wf {V : Type} [DecidableEq V] (d : Nat → V) (m : Tab V) : Bool :=
  Tab.rising m && m.all fun e => decide (e.2 ≠ d e.1)

end Sys2Proof.Machine
end

