-- ==== Sys2Proof/Machine/Mem.lean ====
section
/-! DEFINITION. Addressed memories with 64-byte lines (13 R313-R315): bytes, a valid bit and a poison bit per line. The bytes are a `Tab` of (address, byte) pairs; a byte that nothing has written reads 0, as a line whose valid bit is clear does (R314). -/
namespace Sys2Proof.Machine

/-- A memory of 64-byte lines. `bytes` is keyed by byte address, `valid` and `poison` by line index. -/
structure Mem where
  bytes : Tab Byte
  valid : Tab Bool
  poison : Tab Bool
deriving DecidableEq, Repr

/-- A memory in which every valid bit is clear. -/
def Mem.empty : Mem := ⟨[], [], []⟩

/-- What a byte that nothing has written reads as (13 R314). -/
def byte0 : Nat → Byte := fun _ => 0

/-- A bit that nothing has set reads clear. -/
def bit0 : Nat → Bool := fun _ => false

/-- One byte. -/
def Mem.rd (m : Mem) (a : Nat) : Byte := Tab.get byte0 m.bytes a

/-- `n` bytes from `a` upward. -/
def Mem.rdN (m : Mem) (a n : Nat) : List Byte := (List.range n).map fun i => m.rd (a + i)

/-- The valid bit of line `l`. -/
def Mem.lineValid (m : Mem) (l : Nat) : Bool := Tab.get bit0 m.valid l

/-- The poison bit of line `l`. -/
def Mem.linePoison (m : Mem) (l : Nat) : Bool := Tab.get bit0 m.poison l

/-- The lines that `n` bytes from `a` touch. -/
def linesOf (a n : Nat) : List Nat :=
  if n = 0 then [] else (List.range ((a + n - 1) / 64 - a / 64 + 1)).map (a / 64 + ·)

/-- The first poisoned line that `n` bytes from `a` touch. -/
def Mem.firstPoison (m : Mem) (a n : Nat) : Option Nat := (linesOf a n).find? m.linePoison

/-- Whether any line that `n` bytes from `a` touch is poisoned. -/
def Mem.poisoned (m : Mem) (a n : Nat) : Bool := (linesOf a n).any m.linePoison

/-- Whether `n` bytes from `a` cover line `l` whole. -/
def coversLine (a n l : Nat) : Bool := decide (a ≤ 64 * l ∧ 64 * l + 64 ≤ a + n)

/-- Bytes written one after the other. -/
def wrBytes (b : Tab Byte) (a : Nat) : List Byte → Tab Byte
  | [] => b
  | x :: xs => wrBytes (Tab.set byte0 b a x) (a + 1) xs

/-- Write bytes from `a` upward (13 R314, R315): every touched line becomes valid; a line covered whole loses its poison, a poisoned line covered in part keeps it. With `ep` every touched line is written poisoned (R322). -/
def Mem.wr (m : Mem) (a : Nat) (bs : List Byte) (ep : Bool) : Mem :=
  { bytes := wrBytes m.bytes a bs
    valid := (linesOf a bs.length).foldl (fun v l => Tab.set bit0 v l true) m.valid
    poison := (linesOf a bs.length).foldl
      (fun p l => if ep then Tab.set bit0 p l true
                  else if coversLine a bs.length l then Tab.set bit0 p l false else p) m.poison }

/-- Clear the valid bits of the lines of `n` bytes from the line-aligned address `a`: they read zero, and poison goes with the data (13 R327). -/
def Mem.clear (m : Mem) (a n : Nat) : Mem :=
  { bytes := Tab.clear m.bytes a n
    valid := Tab.clear m.valid (a / 64) ((n + 63) / 64)
    poison := Tab.clear m.poison (a / 64) ((n + 63) / 64) }

/-- Poison line `l` in place (13 R319). -/
def Mem.setPoison (m : Mem) (l : Nat) : Mem :=
  { m with valid := Tab.set bit0 m.valid l true, poison := Tab.set bit0 m.poison l true }

/-- The canonical form of all three tables. -/
def Mem.wf (m : Mem) : Bool := Tab.wf byte0 m.bytes && Tab.wf bit0 m.valid && Tab.wf bit0 m.poison

/-! Byte order (00 R6): little-endian structures. -/

/-- The little-endian number of a list of bytes. -/
def leNat : List Byte → Nat
  | [] => 0
  | b :: bs => b.toNat + 256 * leNat bs

/-- `n` bytes of a number, least significant first. -/
def leBytes : Nat → Nat → List Byte
  | 0, _ => []
  | n + 1, v => BitVec.ofNat 8 v :: leBytes n (v / 256)

/-- The number at `a`, `n` bytes, little-endian. -/
def Mem.rdLe (m : Mem) (a n : Nat) : Nat := leNat (m.rdN a n)

/-- Bits `lo .. lo + len - 1` of a number. -/
def bits (v lo len : Nat) : Nat := v / 2 ^ lo % 2 ^ len

/-- One bit of a number. -/
def bitOf (v i : Nat) : Bool := v / 2 ^ i % 2 == 1

/-- A Bool as 0 or 1. -/
def b2n (b : Bool) : Nat := if b then 1 else 0

/-- Saturating add below `2 ^ w`. -/
def satAdd (w v n : Nat) : Nat := min (2 ^ w - 1) (v + n)

/-- A number as a signed number of `w` bits. -/
def sgn (w v : Nat) : Int := if v % 2 ^ w < 2 ^ (w - 1) then (v % 2 ^ w : Nat) else ((v % 2 ^ w : Nat) : Int) - 2 ^ w

/-- A signed number in `w` bits of two's complement. -/
def unsgn (w : Nat) (i : Int) : Nat := (i % (2 ^ w : Nat)).toNat

end Sys2Proof.Machine
end

