-- ==== Sys2Proof/Machine/RegTable.lean ====
section
/-! DEFINITION. The register tables of chapters 2 to 18 of the spec as data: for every page layout, every field of every register with its offset, bits, privileged and tenant access and stated reset value, and one named field per row for the meanings to read and write. Fields whose reset the spec leaves to a sample or a fuse carry 0 here; `Machine/State.lean` says what they hold. -/
namespace Sys2Proof.Machine

/-- Access codes of a register field (00 R8). -/
inductive Acc where
  | ro | rw | rwl | w1s | w1c | wo | rc | none
deriving DecidableEq, Repr

/-- A field of a register of a page: byte offset, lowest bit, number of bits. -/
structure Fld where
  off : Nat
  lo : Nat
  len : Nat
deriving DecidableEq, Repr

/-- One row of a register table: the register at `off + stride·k`, `k < cnt`, and in it the field at `lo + bstride·u`, `u < bcnt`, of `len` bits. -/
structure FldRow where
  off : Nat
  stride : Nat
  cnt : Nat
  lo : Nat
  len : Nat
  priv : Acc
  ten : Acc
  rst : Nat
  bstride : Nat
  bcnt : Nat
deriving DecidableEq, Repr

/-- The layouts of register pages (03 R62, R63). -/
inductive Layout where
  | hub0
  | hub1
  | hub2
  | pt
  | boot
  | ser
  | hmp0
  | hmp1
  | hmp2
  | hmp3
  | hmpMap
  | disp0
  | disp1
  | disp2
  | disp4
  | disp5
  | disp6
  | kpm0
  | kpm1
  | hpt
  | stp0
  | stpPort
  | stpPeer
  | stpCtx
  | vce0
  | vce1
  | hpc
  | mgt
  | trl
  | thm0
  | thm1
  | pwrHub
  | scbH
  | tn0
  | queue
  | tn9
  | tn10
  | tn11
  | tile
  | thmTile
  | pwrTile
  | lnk
  | clu
  | kvw
  | atu
  | scbC
  | core
  | mxe
  | tgu
  | mov
  | sto
  | slc
  | scbP
deriving DecidableEq, Repr

namespace F

def HUB_BOOT_SUM_boot : Fld := ⟨0x040, 0, 20⟩
def HUB_OWNER_owner_port : Fld := ⟨0x044, 0, 2⟩
def HUB_OWNER_owner_link_up : Fld := ⟨0x044, 2, 1⟩
def HUB_OWNER_transfers : Fld := ⟨0x044, 3, 8⟩
def HUB_STRAP_EXT_clk_mode : Fld := ⟨0x048, 0, 8⟩
def HUB_STRAP_EXT_stp_media : Fld := ⟨0x048, 8, 2⟩
def HUB_STRAP_EXT_mgt_addr : Fld := ⟨0x048, 10, 2⟩
def HUB_STRAP_EXT_port_clk_bad : Fld := ⟨0x048, 12, 4⟩
def HUB_INT_ROUTE_vector (k : Nat) : Fld := ⟨0x040 + 4 * k, 0, 5⟩
def HUB_INT_ROUTE_to_owner (k : Nat) : Fld := ⟨0x040 + 4 * k, 8, 1⟩
def HUB_INT_ROUTE_to_mgt (k : Nat) : Fld := ⟨0x040 + 4 * k, 9, 1⟩
def HUB_INT_SUM_pend : Fld := ⟨0x0C0, 1, 28⟩
def HUB_INT_TILE_tile : Fld := ⟨0x0C4, 0, 8⟩
def HUB_RST_CMD_scope : Fld := ⟨0x040, 0, 3⟩
def HUB_RST_CMD_target : Fld := ⟨0x040, 3, 9⟩
def HUB_RST_CMD_go : Fld := ⟨0x040, 31, 1⟩
def HUB_RST_STS_busy : Fld := ⟨0x044, 0, 1⟩
def HUB_RST_STS_result : Fld := ⟨0x044, 1, 2⟩
def HUB_RST_LAST_scope : Fld := ⟨0x048, 0, 3⟩
def HUB_RST_LAST_drain_us : Fld := ⟨0x048, 3, 11⟩
def HUB_RST_LAST_limit_hit : Fld := ⟨0x048, 14, 1⟩
def HUB_DEV_RESET_key : Fld := ⟨0x04C, 0, 16⟩
def PT_CLU_LO_mask : Fld := ⟨0x040, 0, 32⟩
def PT_CLU_HI_mask : Fld := ⟨0x044, 0, 32⟩
def PT_CFG_near_size : Fld := ⟨0x048, 0, 3⟩
def PT_CFG_companion : Fld := ⟨0x048, 3, 12⟩
def PT_CMD_op : Fld := ⟨0x04C, 0, 2⟩
def PT_CMD_go : Fld := ⟨0x04C, 31, 1⟩
def PT_STS_state : Fld := ⟨0x050, 0, 3⟩
def PT_STS_result : Fld := ⟨0x050, 3, 3⟩
def PT_STS_fault : Fld := ⟨0x050, 6, 2⟩
def PT_STS_cores_online : Fld := ⟨0x050, 8, 9⟩
def PT_STS_tenants : Fld := ⟨0x050, 17, 8⟩
def PT_MEM_poolcap_mib : Fld := ⟨0x054, 0, 17⟩
def PT_MEM_d_slots : Fld := ⟨0x054, 17, 9⟩
def PT_SET_n : Fld := ⟨0x058, 0, 10⟩
def PT_SET_fenced : Fld := ⟨0x058, 10, 8⟩
def BOOT_STS_stage : Fld := ⟨0x040, 0, 4⟩
def BOOT_STS_ready : Fld := ⟨0x040, 4, 1⟩
def BOOT_STS_failed : Fld := ⟨0x040, 5, 1⟩
def BOOT_STS_degraded : Fld := ⟨0x040, 6, 1⟩
def BOOT_STS_wait_push : Fld := ⟨0x040, 7, 1⟩
def BOOT_STS_slot : Fld := ⟨0x040, 8, 1⟩
def BOOT_STS_src : Fld := ⟨0x040, 9, 2⟩
def BOOT_STS_cores_online : Fld := ⟨0x040, 11, 9⟩
def BOOT_STS_tiles_fenced : Fld := ⟨0x040, 20, 4⟩
def BOOT_ERR_code : Fld := ⟨0x044, 0, 8⟩
def BOOT_ERR_detail : Fld := ⟨0x044, 8, 12⟩
def BOOT_ERR_step : Fld := ⟨0x044, 20, 4⟩
def BOOT_STRAP_owner_port : Fld := ⟨0x048, 0, 2⟩
def BOOT_STRAP_boot_src : Fld := ⟨0x048, 2, 2⟩
def BOOT_STRAP_hub_site : Fld := ⟨0x048, 4, 4⟩
def BOOT_STRAP_pkg_build : Fld := ⟨0x048, 8, 6⟩
def BOOT_REV_si_rev : Fld := ⟨0x04C, 0, 8⟩
def BOOT_REV_variant : Fld := ⟨0x04C, 8, 2⟩
def BOOT_FW_VER_fw_version : Fld := ⟨0x050, 0, 32⟩
def BOOT_VARIANT_tclk_max_mhz : Fld := ⟨0x054, 0, 12⟩
def BOOT_VARIANT_p_sust : Fld := ⟨0x054, 12, 8⟩
def BOOT_VARIANT_p_peak : Fld := ⟨0x054, 20, 8⟩
def BOOT_VARIANT_peak_ms : Fld := ⟨0x054, 28, 4⟩
def BOOT_PUSH_ADDR_LO_addr : Fld := ⟨0x058, 0, 32⟩
def BOOT_PUSH_ADDR_HI_addr : Fld := ⟨0x05C, 0, 32⟩
def BOOT_PUSH_LEN_len : Fld := ⟨0x060, 0, 27⟩
def BOOT_PUSH_CTL_go : Fld := ⟨0x064, 0, 1⟩
def BOOT_PUSH_CTL_busy : Fld := ⟨0x064, 1, 1⟩
def BOOT_MEM_slices_good : Fld := ⟨0x068, 0, 10⟩
def BOOT_MEM_capacity_mib : Fld := ⟨0x068, 10, 17⟩
def BOOT_TIME_ms : Fld := ⟨0x06C, 0, 16⟩
def BOOT_ITIN_value : Fld := ⟨0x070, 0, 32⟩
def BOOT_ITIN_GEN_value : Fld := ⟨0x074, 0, 32⟩
def BOOT_FWREG_compartments : Fld := ⟨0x078, 0, 10⟩
def SER_CTL_enable : Fld := ⟨0x040, 0, 1⟩
def SER_CTL_retrain : Fld := ⟨0x040, 1, 1⟩
def SER_CTL_clr_cnt : Fld := ⟨0x040, 2, 1⟩
def SER_CTL_allow_half : Fld := ⟨0x040, 3, 1⟩
def SER_CTL_replay_limit : Fld := ⟨0x040, 4, 4⟩
def SER_CTL_fec_thresh : Fld := ⟨0x040, 8, 16⟩
def SER_STS_state : Fld := ⟨0x044, 0, 4⟩
def SER_STS_tx_half : Fld := ⟨0x044, 4, 1⟩
def SER_STS_tx_upper : Fld := ⟨0x044, 5, 1⟩
def SER_STS_rx_half : Fld := ⟨0x044, 6, 1⟩
def SER_STS_rx_upper : Fld := ⟨0x044, 7, 1⟩
def SER_STS_tx_seq : Fld := ⟨0x044, 8, 10⟩
def SER_STS_rx_expected : Fld := ⟨0x044, 18, 10⟩
def SER_LANE_STS_tx_lane_ok : Fld := ⟨0x048, 0, 16⟩
def SER_LANE_STS_rx_lane_ok : Fld := ⟨0x048, 16, 16⟩
def SER_CNT_fec_corr : Fld := ⟨0x04C, 0, 16⟩
def SER_CNT_fec_uncorr : Fld := ⟨0x04C, 16, 8⟩
def SER_CNT_replay_cnt : Fld := ⟨0x04C, 24, 8⟩
def SER_STRAP_site_id : Fld := ⟨0x050, 0, 4⟩
def SER_STRAP_pkg_build : Fld := ⟨0x050, 4, 6⟩
def SER_STRAP_valid : Fld := ⟨0x050, 10, 1⟩
def SER_STRAP_conflict : Fld := ⟨0x050, 11, 3⟩
def SER_ROUTE_route (u : Nat) : Fld := ⟨0x054, 0 + 4 * u, 4⟩
def HMP_STS_free_cnt : Fld := ⟨0x040, 0, 13⟩
def HMP_STS_fw_cnt : Fld := ⟨0x040, 13, 10⟩
def HMP_LOWWATER_level : Fld := ⟨0x044, 0, 13⟩
def HMP_ARB_weight (k : Nat) : Fld := ⟨0x040 + 4 * k, 0, 4⟩
def HMP_CLIENT_BW_grants (k : Nat) : Fld := ⟨0x080 + 4 * k, 0, 32⟩
def HMP_PT_BUDGET_budget (k : Nat) : Fld := ⟨0x040 + 8 * k, 0, 13⟩
def HMP_PT_USED_used (k : Nat) : Fld := ⟨0x044 + 8 * k, 0, 13⟩
def HMP_ALLOC_ARG0_first : Fld := ⟨0x040, 0, 12⟩
def HMP_ALLOC_ARG0_count : Fld := ⟨0x040, 12, 13⟩
def HMP_ALLOC_ARG1_partition : Fld := ⟨0x044, 0, 3⟩
def HMP_ALLOC_ARG1_tenant : Fld := ⟨0x044, 3, 7⟩
def HMP_ALLOC_ARG1_tenant_valid : Fld := ⟨0x044, 10, 1⟩
def HMP_ALLOC_ARG1_use : Fld := ⟨0x044, 11, 4⟩
def HMP_ALLOC_ARG1_slot : Fld := ⟨0x044, 16, 12⟩
def HMP_ALLOC_CMD_op : Fld := ⟨0x048, 0, 2⟩
def HMP_ALLOC_CMD_go : Fld := ⟨0x048, 31, 1⟩
def HMP_ALLOC_RES_busy : Fld := ⟨0x04C, 0, 1⟩
def HMP_ALLOC_RES_result : Fld := ⟨0x04C, 1, 4⟩
def HMP_ALLOC_RES_where : Fld := ⟨0x04C, 5, 12⟩
def HMP_CMAP_state (k : Nat) : Fld := ⟨0x040 + 4 * k, 0, 2⟩
def HMP_CMAP_use (k : Nat) : Fld := ⟨0x040 + 4 * k, 2, 4⟩
def HMP_CMAP_partition (k : Nat) : Fld := ⟨0x040 + 4 * k, 6, 3⟩
def HMP_CMAP_tenant (k : Nat) : Fld := ⟨0x040 + 4 * k, 9, 7⟩
def HMP_CMAP_tenant_valid (k : Nat) : Fld := ⟨0x040 + 4 * k, 16, 1⟩
def HMP_CMAP_bound (k : Nat) : Fld := ⟨0x040 + 4 * k, 17, 1⟩
def HMP_CMAP_clearing (k : Nat) : Fld := ⟨0x040 + 4 * k, 18, 1⟩
def HMP_CMAP_slot (k : Nat) : Fld := ⟨0x040 + 4 * k, 20, 12⟩
def DISP_STS_enabled : Fld := ⟨0x040, 0, 8⟩
def DISP_STS_paused : Fld := ⟨0x040, 8, 8⟩
def DISP_TN_BIND_vf (k : Nat) : Fld := ⟨0x040 + 4 * k, 0, 6⟩
def DISP_TN_BIND_port (k : Nat) : Fld := ⟨0x040 + 4 * k, 6, 2⟩
def DISP_TN_BIND_partition (k : Nat) : Fld := ⟨0x040 + 4 * k, 8, 3⟩
def DISP_TN_BIND_weight (k : Nat) : Fld := ⟨0x040 + 4 * k, 11, 4⟩
def DISP_TN_BIND_valid (k : Nat) : Fld := ⟨0x040 + 4 * k, 15, 1⟩
def DISP_TN_BIND_enable (k : Nat) : Fld := ⟨0x040 + 4 * k, 16, 1⟩
def DISP_RES_IDX_index : Fld := ⟨0x040, 0, 11⟩
def DISP_RES_ENT_model_id : Fld := ⟨0x044, 0, 16⟩
def DISP_RES_ENT_tenant : Fld := ⟨0x044, 16, 7⟩
def DISP_RES_ENT_valid : Fld := ⟨0x044, 23, 1⟩
def DISP_RES_ENT_copies : Fld := ⟨0x044, 24, 8⟩
def DISP_FC_CFG_default_mw : Fld := ⟨0x040, 0, 16⟩
def DISP_FC_CFG_default_us : Fld := ⟨0x040, 16, 16⟩
def DISP_FC_SEQ_value : Fld := ⟨0x044, 0, 16⟩
def DISP_FC_BASE_value : Fld := ⟨0x048, 0, 16⟩
def DISP_FC_BASE_value2 : Fld := ⟨0x048, 16, 16⟩
def DISP_FC_WIN_value (k : Nat) : Fld := ⟨0x04C + 4 * k, 0, 16⟩
def DISP_ET_IDX_index : Fld := ⟨0x040, 0, 12⟩
def DISP_ET_KEY_model_id : Fld := ⟨0x044, 0, 16⟩
def DISP_ET_KEY_tenant : Fld := ⟨0x044, 16, 7⟩
def DISP_ET_KEY_valid : Fld := ⟨0x044, 23, 1⟩
def DISP_ET_KEY_n : Fld := ⟨0x044, 24, 8⟩
def DISP_ET_VAL_energy : Fld := ⟨0x048, 0, 16⟩
def DISP_ET_VAL_duration : Fld := ⟨0x048, 16, 16⟩
def DISP_ET_CTL_clear : Fld := ⟨0x04C, 0, 1⟩
def DISP_ROTA_ptr (k : Nat) : Fld := ⟨0x040 + 4 * k, 0, 9⟩
def DISP_ROTA_skips (k : Nat) : Fld := ⟨0x040 + 4 * k, 16, 16⟩
def KPM_STS_ready : Fld := ⟨0x040, 0, 8⟩
def KPM_STS_faulted : Fld := ⟨0x040, 8, 8⟩
def KPM_POOL_CFG_enable (k : Nat) : Fld := ⟨0x040 + 32 * k, 0, 1⟩
def KPM_POOL_CFG_head_dim (k : Nat) : Fld := ⟨0x040 + 32 * k, 1, 2⟩
def KPM_POOL_CFG_frame_log2 (k : Nat) : Fld := ⟨0x040 + 32 * k, 4, 3⟩
def KPM_POOL_BASE_LO_base (k : Nat) : Fld := ⟨0x044 + 32 * k, 0, 32⟩
def KPM_POOL_BASE_HI_base (k : Nat) : Fld := ⟨0x048 + 32 * k, 0, 32⟩
def KPM_POOL_PAGES_pages (k : Nat) : Fld := ⟨0x04C + 32 * k, 0, 22⟩
def KPM_POOL_STS_state (k : Nat) : Fld := ⟨0x050 + 32 * k, 0, 3⟩
def KPM_POOL_STS_free (k : Nat) : Fld := ⟨0x050 + 32 * k, 3, 22⟩
def KPM_POOL_QUAR_quarantined (k : Nat) : Fld := ⟨0x054 + 32 * k, 0, 22⟩
def HPT_LINK_STS_rate : Fld := ⟨0x040, 0, 4⟩
def HPT_LINK_STS_width : Fld := ⟨0x040, 4, 5⟩
def HPT_LINK_STS_flit : Fld := ⟨0x040, 9, 1⟩
def HPT_LINK_STS_cxl : Fld := ⟨0x040, 10, 1⟩
def HPT_LINK_STS_perst : Fld := ⟨0x040, 11, 1⟩
def HPT_CTL_cxl_en : Fld := ⟨0x044, 0, 1⟩
def HPT_CXL_WIN_partition : Fld := ⟨0x048, 0, 3⟩
def HPT_CXL_WIN_enable : Fld := ⟨0x048, 3, 1⟩
def HPT_CXL_WIN_base : Fld := ⟨0x048, 4, 8⟩
def HPT_CXL_WIN_size : Fld := ⟨0x048, 12, 8⟩
def STP_STS_ptp_locked : Fld := ⟨0x040, 0, 1⟩
def STP_STS_link_up : Fld := ⟨0x040, 1, 2⟩
def STP_STS_enabled : Fld := ⟨0x040, 3, 10⟩
def STP_PTP_LO_ns : Fld := ⟨0x044, 0, 32⟩
def STP_PTP_HI_ns : Fld := ⟨0x048, 0, 32⟩
def STP_PORT_CTL_enable : Fld := ⟨0x040, 0, 1⟩
def STP_PORT_CTL_ipv6 : Fld := ⟨0x040, 1, 1⟩
def STP_PORT_CTL_vlan_en : Fld := ⟨0x040, 2, 1⟩
def STP_PORT_CTL_vlan : Fld := ⟨0x040, 3, 12⟩
def STP_PORT_CTL_ctl_prio : Fld := ⟨0x040, 15, 3⟩
def STP_PORT_ADDR_udp : Fld := ⟨0x044, 0, 16⟩
def STP_PORT_ADDR_mac_hi : Fld := ⟨0x044, 16, 16⟩
def STP_PORT_MAC_LO_value : Fld := ⟨0x048, 0, 32⟩
def STP_PORT_IP4_value : Fld := ⟨0x04C, 0, 32⟩
def STP_PORT_IP6_0_value : Fld := ⟨0x050, 0, 32⟩
def STP_PORT_IP6_1_value : Fld := ⟨0x054, 0, 32⟩
def STP_PORT_IP6_2_value : Fld := ⟨0x058, 0, 32⟩
def STP_PORT_IP6_3_value : Fld := ⟨0x05C, 0, 32⟩
def STP_PORT_CNT0_fcs : Fld := ⟨0x060, 0, 16⟩
def STP_PORT_CNT0_no_stream : Fld := ⟨0x060, 16, 16⟩
def STP_PORT_CNT1_malformed : Fld := ⟨0x064, 0, 16⟩
def STP_PORT_CNT1_other : Fld := ⟨0x064, 16, 16⟩
def STP_PEER_MAC_mac_lo (k : Nat) : Fld := ⟨0x040 + 32 * k, 0, 32⟩
def STP_PEER_UDP_mac_hi (k : Nat) : Fld := ⟨0x044 + 32 * k, 0, 16⟩
def STP_PEER_UDP_udp (k : Nat) : Fld := ⟨0x044 + 32 * k, 16, 16⟩
def STP_PEER_IP0_ip (k : Nat) : Fld := ⟨0x048 + 32 * k, 0, 32⟩
def STP_PEER_IP1_ip (k : Nat) : Fld := ⟨0x04C + 32 * k, 0, 32⟩
def STP_PEER_IP2_ip (k : Nat) : Fld := ⟨0x050 + 32 * k, 0, 32⟩
def STP_PEER_IP3_ip (k : Nat) : Fld := ⟨0x054 + 32 * k, 0, 32⟩
def STP_PEER_CTL_valid (k : Nat) : Fld := ⟨0x058 + 32 * k, 0, 1⟩
def STP_PEER_CTL_ipv6 (k : Nat) : Fld := ⟨0x058 + 32 * k, 1, 1⟩
def STP_PEER_CTL_check_src (k : Nat) : Fld := ⟨0x058 + 32 * k, 2, 1⟩
def STP_SK_BIND_stream_id (k : Nat) : Fld := ⟨0x100 + 48 * k, 0, 16⟩
def STP_SK_BIND_port (k : Nat) : Fld := ⟨0x100 + 48 * k, 16, 1⟩
def STP_SK_BIND_peer (k : Nat) : Fld := ⟨0x100 + 48 * k, 17, 6⟩
def STP_SK_BIND_tenant (k : Nat) : Fld := ⟨0x100 + 48 * k, 23, 7⟩
def STP_SK_BIND_pfc (k : Nat) : Fld := ⟨0x100 + 48 * k, 30, 1⟩
def STP_SK_BIND_enable (k : Nat) : Fld := ⟨0x100 + 48 * k, 31, 1⟩
def STP_SK_RING_slot (k : Nat) : Fld := ⟨0x104 + 48 * k, 0, 12⟩
def STP_SK_RING_count (k : Nat) : Fld := ⟨0x104 + 48 * k, 12, 12⟩
def STP_SK_RING_prio (k : Nat) : Fld := ⟨0x104 + 48 * k, 24, 3⟩
def STP_SK_COAST_slot (k : Nat) : Fld := ⟨0x108 + 48 * k, 0, 12⟩
def STP_SK_COAST_count (k : Nat) : Fld := ⟨0x108 + 48 * k, 12, 12⟩
def STP_SK_LIMIT_budget_kib (k : Nat) : Fld := ⟨0x10C + 48 * k, 0, 15⟩
def STP_SK_LIMIT_max_frame (k : Nat) : Fld := ⟨0x10C + 48 * k, 16, 7⟩
def STP_SK_LIMIT_resume_pct (k : Nat) : Fld := ⟨0x10C + 48 * k, 24, 6⟩
def STP_SK_STS_state (k : Nat) : Fld := ⟨0x110 + 48 * k, 0, 3⟩
def STP_SK_STS_records (k : Nat) : Fld := ⟨0x110 + 48 * k, 3, 11⟩
def STP_SK_STS_open (k : Nat) : Fld := ⟨0x110 + 48 * k, 14, 3⟩
def STP_SK_FILL_value (k : Nat) : Fld := ⟨0x114 + 48 * k, 0, 32⟩
def STP_SK_COASTUSED_value (k : Nat) : Fld := ⟨0x118 + 48 * k, 0, 32⟩
def STP_SK_EXPECT_value (k : Nat) : Fld := ⟨0x11C + 48 * k, 0, 32⟩
def STP_SK_CNT0_dup (k : Nat) : Fld := ⟨0x120 + 48 * k, 0, 16⟩
def STP_SK_CNT0_late (k : Nat) : Fld := ⟨0x120 + 48 * k, 16, 16⟩
def STP_SK_CNT1_lost (k : Nat) : Fld := ⟨0x124 + 48 * k, 0, 16⟩
def STP_SK_CNT1_incomplete (k : Nat) : Fld := ⟨0x124 + 48 * k, 16, 16⟩
def STP_SK_CNT2_overrun (k : Nat) : Fld := ⟨0x128 + 48 * k, 0, 16⟩
def STP_SK_CNT2_oversize (k : Nat) : Fld := ⟨0x128 + 48 * k, 16, 16⟩
def STP_SK_CNT3_malformed (k : Nat) : Fld := ⟨0x12C + 48 * k, 0, 16⟩
def STP_SK_CNT3_halts (k : Nat) : Fld := ⟨0x12C + 48 * k, 16, 16⟩
def VCE_STS_state : Fld := ⟨0x040, 0, 3⟩
def VCE_STS_session : Fld := ⟨0x040, 3, 6⟩
def VCE_STS_load : Fld := ⟨0x040, 9, 10⟩
def VCE_CTL_bist : Fld := ⟨0x044, 0, 1⟩
def VCE_CTL_reset : Fld := ⟨0x044, 1, 1⟩
def VCE_BIST_done : Fld := ⟨0x048, 0, 1⟩
def VCE_BIST_pass : Fld := ⟨0x048, 1, 1⟩
def VCE_BIST_refused : Fld := ⟨0x048, 8, 8⟩
def VCE_SS_BIND_tenant (k : Nat) : Fld := ⟨0x100 + 32 * k, 0, 7⟩
def VCE_SS_BIND_queue (k : Nat) : Fld := ⟨0x100 + 32 * k, 7, 3⟩
def VCE_SS_BIND_engines (k : Nat) : Fld := ⟨0x100 + 32 * k, 10, 4⟩
def VCE_SS_BIND_enable (k : Nat) : Fld := ⟨0x100 + 32 * k, 31, 1⟩
def VCE_SS_CTLSLOT_slot (k : Nat) : Fld := ⟨0x104 + 32 * k, 0, 12⟩
def VCE_SS_OUT_slot (k : Nat) : Fld := ⟨0x108 + 32 * k, 0, 12⟩
def VCE_SS_OUT_count (k : Nat) : Fld := ⟨0x108 + 32 * k, 12, 12⟩
def VCE_SS_WORK_slot (k : Nat) : Fld := ⟨0x10C + 32 * k, 0, 12⟩
def VCE_SS_WORK_count (k : Nat) : Fld := ⟨0x10C + 32 * k, 12, 12⟩
def VCE_SS_STS_state (k : Nat) : Fld := ⟨0x110 + 32 * k, 0, 3⟩
def VCE_SS_STS_cause (k : Nat) : Fld := ⟨0x110 + 32 * k, 3, 5⟩
def VCE_SS_STS_detail (k : Nat) : Fld := ⟨0x110 + 32 * k, 8, 8⟩
def VCE_SS_STS_pending (k : Nat) : Fld := ⟨0x110 + 32 * k, 16, 9⟩
def VCE_SS_CNT_recoded (k : Nat) : Fld := ⟨0x114 + 32 * k, 0, 16⟩
def VCE_SS_CNT_substituted (k : Nat) : Fld := ⟨0x114 + 32 * k, 16, 16⟩
def HPC_STS_companion : Fld := ⟨0x040, 0, 1⟩
def HPC_STS_state : Fld := ⟨0x040, 1, 3⟩
def HPC_GRANT_partition : Fld := ⟨0x044, 0, 3⟩
def HPC_GRANT_tenant : Fld := ⟨0x044, 3, 7⟩
def HPC_GRANT_valid : Fld := ⟨0x044, 10, 1⟩
def HPC_ENTRY_offset : Fld := ⟨0x048, 0, 28⟩
def HPC_CTL_start : Fld := ⟨0x04C, 0, 1⟩
def HPC_CTL_stop : Fld := ⟨0x04C, 1, 1⟩
def HPC_EXIT_code : Fld := ⟨0x050, 0, 16⟩
def HPC_EXIT_cause : Fld := ⟨0x050, 16, 8⟩
def HPC_EXIT_valid : Fld := ⟨0x050, 31, 1⟩
def HPC_TVAL_LO_tval : Fld := ⟨0x054, 0, 32⟩
def HPC_TVAL_HI_tval : Fld := ⟨0x058, 0, 32⟩
def MGT_STS_eid_i3c : Fld := ⟨0x040, 0, 8⟩
def MGT_STS_eid_smb : Fld := ⟨0x040, 8, 8⟩
def MGT_STS_i3c_da : Fld := ⟨0x040, 16, 7⟩
def MGT_STS_sessions : Fld := ⟨0x040, 23, 3⟩
def MGT_SEC_svn_min : Fld := ⟨0x044, 0, 7⟩
def MGT_SEC_revoked : Fld := ⟨0x044, 7, 4⟩
def MGT_SEC_run_slot : Fld := ⟨0x044, 11, 2⟩
def MGT_SEC_jtag_lock : Fld := ⟨0x044, 13, 2⟩
def MGT_SEC_unlocked : Fld := ⟨0x044, 15, 3⟩
def MGT_CNT_cached : Fld := ⟨0x048, 0, 16⟩
def MGT_CNT_auth_fail : Fld := ⟨0x048, 16, 16⟩
def TRL_STS_next_slot : Fld := ⟨0x040, 0, 12⟩
def TRL_STS_fmap_cnt : Fld := ⟨0x040, 12, 11⟩
def TRL_STS_dropped : Fld := ⟨0x040, 23, 8⟩
def TRL_STS_busy : Fld := ⟨0x040, 31, 1⟩
def TRL_SEQ_value : Fld := ⟨0x044, 0, 32⟩
def TRL_BOOTCNT_value : Fld := ⟨0x048, 0, 32⟩
def TRL_IDX_slot : Fld := ⟨0x04C, 0, 12⟩
def TRL_REC_dword (k : Nat) : Fld := ⟨0x080 + 4 * k, 0, 32⟩
def THM_STS_floor : Fld := ⟨0x040, 0, 1⟩
def THM_STS_cause : Fld := ⟨0x040, 1, 3⟩
def THM_STS_shutdown : Fld := ⟨0x040, 4, 1⟩
def THM_STS_hub_band : Fld := ⟨0x040, 5, 2⟩
def THM_STS_throttled : Fld := ⟨0x040, 7, 8⟩
def THM_STS_floor_ms : Fld := ⟨0x040, 15, 12⟩
def THM_CFG_t_throttle : Fld := ⟨0x044, 0, 7⟩
def THM_CFG_t_hot : Fld := ⟨0x044, 8, 8⟩
def THM_CFG_trip_logic : Fld := ⟨0x044, 16, 8⟩
def THM_CFG_trip_dram : Fld := ⟨0x044, 24, 8⟩
def THM_MARGIN_margin : Fld := ⟨0x048, 0, 16⟩
def THM_MARGIN_dev_max : Fld := ⟨0x048, 16, 11⟩
def THM_HUB_T_temp (k : Nat) : Fld := ⟨0x04C + 4 * k, 0, 11⟩
def THM_HUB_T_valid (k : Nat) : Fld := ⟨0x04C + 4 * k, 11, 1⟩
def THM_COOL_CFG_ok_en : Fld := ⟨0x040, 0, 1⟩
def THM_COOL_CFG_release : Fld := ⟨0x040, 1, 1⟩
def THM_COOL_CFG_pin_ok : Fld := ⟨0x040, 2, 1⟩
def THM_EXT_temp (k : Nat) : Fld := ⟨0x044 + 4 * k, 0, 12⟩
def THM_EXT_stale (k : Nat) : Fld := ⟨0x044 + 4 * k, 12, 1⟩
def THM_EXT_broken (k : Nat) : Fld := ⟨0x044 + 4 * k, 13, 1⟩
def THM_EXT_invalid_cnt (k : Nat) : Fld := ⟨0x044 + 4 * k, 16, 8⟩
def THM_EXT_CFG_alarm_in : Fld := ⟨0x04C, 0, 8⟩
def THM_EXT_CFG_alarm_out : Fld := ⟨0x04C, 8, 8⟩
def PWR_STS_limiting : Fld := ⟨0x040, 0, 1⟩
def PWR_STS_clamp : Fld := ⟨0x040, 1, 1⟩
def PWR_STS_cap : Fld := ⟨0x040, 2, 5⟩
def PWR_STS_vin_ok : Fld := ⟨0x040, 7, 1⟩
def PWR_LIMIT_p_sust : Fld := ⟨0x044, 0, 8⟩
def PWR_LIMIT_p_peak : Fld := ⟨0x044, 8, 8⟩
def PWR_PKG_p_w : Fld := ⟨0x048, 0, 12⟩
def PWR_PKG_bucket_mj : Fld := ⟨0x048, 12, 12⟩
def PWR_VIN_mv : Fld := ⟨0x04C, 0, 12⟩
def PWR_VIN_amps : Fld := ⟨0x04C, 12, 10⟩
def PWR_ENERGY_LO_mj : Fld := ⟨0x050, 0, 32⟩
def PWR_ENERGY_HI_mj : Fld := ⟨0x054, 0, 32⟩
def PWR_RAILS_dram_a : Fld := ⟨0x058, 0, 10⟩
def PWR_RAILS_ser_a : Fld := ⟨0x058, 16, 10⟩
def SCB_CE_CNT_window_ce : Fld := ⟨0x048, 0, 16⟩
def SCB_CE_CNT_ue_lines : Fld := ⟨0x048, 16, 16⟩
def SCB_CE_CFG_ce_thresh : Fld := ⟨0x04C, 0, 16⟩
def SCB_CE_CFG_ce_window_h : Fld := ⟨0x04C, 16, 8⟩
def SCB_I_CTL_enable : Fld := ⟨0x040, 0, 1⟩
def SCB_I_CTL_lap_limit_ms : Fld := ⟨0x040, 1, 15⟩
def SCB_I_LAP_last_lap_ms : Fld := ⟨0x044, 0, 16⟩
def SCB_I_LAP_incomplete : Fld := ⟨0x044, 16, 1⟩
def SCB_I_LAP_laps_late : Fld := ⟨0x044, 17, 15⟩
def TN_STS_state : Fld := ⟨0x040, 0, 3⟩
def TN_STS_partition : Fld := ⟨0x040, 3, 3⟩
def TN_STS_port : Fld := ⟨0x040, 6, 2⟩
def TN_STS_epoch : Fld := ⟨0x040, 16, 16⟩
def TN_CTL_reset : Fld := ⟨0x044, 0, 1⟩
def TN_CANCEL_TAG_tag : Fld := ⟨0x048, 0, 32⟩
def TN_CANCEL_CMD_queue : Fld := ⟨0x04C, 0, 3⟩
def TN_CANCEL_CMD_all : Fld := ⟨0x04C, 3, 1⟩
def TN_CANCEL_CMD_go : Fld := ⟨0x04C, 31, 1⟩
def TN_CANCEL_RES_busy : Fld := ⟨0x050, 0, 1⟩
def TN_CANCEL_RES_found : Fld := ⟨0x050, 1, 13⟩
def Q_SQ_CFG_enable : Fld := ⟨0x040, 0, 1⟩
def Q_SQ_CFG_log2_size : Fld := ⟨0x040, 1, 4⟩
def Q_SQ_CFG_priority : Fld := ⟨0x040, 5, 2⟩
def Q_SQ_CFG_ordered : Fld := ⟨0x040, 7, 1⟩
def Q_SQ_CFG_dup_en : Fld := ⟨0x040, 8, 1⟩
def Q_SQ_CFG_base : Fld := ⟨0x040, 11, 17⟩
def Q_SQ_TAIL_count : Fld := ⟨0x044, 0, 16⟩
def Q_SQ_HEAD_count : Fld := ⟨0x048, 0, 16⟩
def Q_CQ_BASE_LO_addr : Fld := ⟨0x04C, 0, 32⟩
def Q_CQ_BASE_HI_addr : Fld := ⟨0x050, 0, 32⟩
def Q_CQ_CFG_log2_size : Fld := ⟨0x054, 0, 4⟩
def Q_CQ_CFG_coal_cnt : Fld := ⟨0x054, 8, 8⟩
def Q_CQ_CFG_coal_us : Fld := ⟨0x054, 16, 8⟩
def Q_CQ_HEAD_count : Fld := ⟨0x058, 0, 16⟩
def Q_CQ_TAIL_count : Fld := ⟨0x060, 0, 16⟩
def Q_CQ_TAIL_phase : Fld := ⟨0x060, 16, 1⟩
def Q_PASID_pasid : Fld := ⟨0x05C, 0, 20⟩
def Q_PASID_enable : Fld := ⟨0x05C, 20, 1⟩
def Q_STS_state : Fld := ⟨0x064, 0, 2⟩
def Q_STS_fence_wait : Fld := ⟨0x064, 2, 1⟩
def Q_STS_cq_full : Fld := ⟨0x064, 3, 1⟩
def Q_STS_in_flight : Fld := ⟨0x064, 4, 7⟩
def Q_STS_stale_cnt : Fld := ⟨0x064, 16, 8⟩
def KPM_TQ_LIMIT_limit : Fld := ⟨0x040, 0, 22⟩
def KPM_TQ_USED_used : Fld := ⟨0x044, 0, 22⟩
def KPM_TQ_OPSEQ_h : Fld := ⟨0x048, 0, 32⟩
def KPM_TQ_CNT_dup : Fld := ⟨0x04C, 0, 16⟩
def KPM_TQ_CNT_stale : Fld := ⟨0x04C, 16, 16⟩
def KPM_TQ_POOL_state : Fld := ⟨0x050, 0, 3⟩
def KPM_TQ_POOL_head_dim : Fld := ⟨0x050, 3, 2⟩
def KPM_TQ_POOL_frame_log2 : Fld := ⟨0x050, 5, 3⟩
def KPM_TQ_POOL_free : Fld := ⟨0x050, 8, 22⟩
def KPM_TQ_RECLAIM_pending : Fld := ⟨0x054, 0, 22⟩
def KPM_TQ_RECLAIM_sweeping : Fld := ⟨0x054, 31, 1⟩
def FL_TAIL_count : Fld := ⟨0x040, 0, 32⟩
def FL_CTL_clear : Fld := ⟨0x044, 0, 1⟩
def FL_ENTRY_dword (k : Nat) : Fld := ⟨0x800 + 4 * k, 0, 32⟩
def HMP_TQ_LIMIT_limit : Fld := ⟨0x040, 0, 13⟩
def HMP_TQ_USED_used : Fld := ⟨0x044, 0, 13⟩
def HMP_TQ_LAND_RID_rid : Fld := ⟨0x048, 0, 16⟩
def HMP_TQ_LAND_RID_mask : Fld := ⟨0x048, 16, 16⟩
def HMP_TQ_LAND_CTL_enable : Fld := ⟨0x04C, 0, 1⟩
def HMP_TQ_QUERY_slot : Fld := ⟨0x050, 0, 12⟩
def HMP_TQ_QUERY_RES_mapped : Fld := ⟨0x054, 0, 1⟩
def HMP_TQ_QUERY_RES_use : Fld := ⟨0x054, 1, 4⟩
def HMP_TQ_QUERY_RES_bound : Fld := ⟨0x054, 5, 1⟩
def HMP_TQ_QUERY_RES_run : Fld := ⟨0x054, 6, 12⟩
def TILE_INT_SUM_cluster : Fld := ⟨0xF00, 0, 8⟩
def TILE_INT_SUM_tile_pg : Fld := ⟨0xF00, 8, 1⟩
def TILE_INT_SUM_thm : Fld := ⟨0xF00, 9, 1⟩
def TILE_INT_SUM_pwr : Fld := ⟨0xF00, 10, 1⟩
def TILE_INT_SUM_lnk : Fld := ⟨0xF00, 11, 4⟩
def TILE_INT_SUM_ser : Fld := ⟨0xF00, 15, 1⟩
def TILE_STS_trained : Fld := ⟨0x040, 0, 1⟩
def TILE_STS_fuse_ok : Fld := ⟨0x040, 1, 1⟩
def TILE_STS_cores_online : Fld := ⟨0x040, 2, 6⟩
def TILE_STS_slices_good : Fld := ⟨0x040, 8, 7⟩
def THM_T_SENSOR_temp (k : Nat) : Fld := ⟨0x080 + 4 * k, 0, 11⟩
def THM_T_SENSOR_valid (k : Nat) : Fld := ⟨0x080 + 4 * k, 11, 1⟩
def THM_T_STS_logic_max : Fld := ⟨0x040, 0, 11⟩
def THM_T_STS_dram_max : Fld := ⟨0x040, 11, 11⟩
def THM_T_STS_band : Fld := ⟨0x040, 22, 2⟩
def THM_T_STS_state : Fld := ⟨0x040, 24, 2⟩
def THM_T_STS_req : Fld := ⟨0x040, 26, 5⟩
def THM_T_MEAN_mean : Fld := ⟨0x044, 0, 11⟩
def THM_T_MEAN_valid_logic : Fld := ⟨0x044, 11, 5⟩
def THM_T_MEAN_valid_dram : Fld := ⟨0x044, 16, 4⟩
def THM_T_CYC20_count : Fld := ⟨0x100, 0, 32⟩
def THM_T_CYC40_count : Fld := ⟨0x104, 0, 32⟩
def PWR_T_STS_opp : Fld := ⟨0x040, 0, 5⟩
def PWR_T_STS_target : Fld := ⟨0x040, 5, 5⟩
def PWR_T_STS_limiter : Fld := ⟨0x040, 10, 4⟩
def PWR_T_STS_busy : Fld := ⟨0x040, 14, 1⟩
def PWR_T_STS_clamp : Fld := ⟨0x040, 15, 1⟩
def PWR_T_STS_vdd_mv : Fld := ⟨0x040, 16, 10⟩
def PWR_T_STS_reg_on : Fld := ⟨0x040, 26, 1⟩
def PWR_T_REQ_opp_req : Fld := ⟨0x044, 0, 5⟩
def PWR_T_TEL_amps : Fld := ⟨0x048, 0, 10⟩
def PWR_T_TEL_watts : Fld := ⟨0x048, 10, 12⟩
def PWR_T_ENERGY_LO_mj : Fld := ⟨0x04C, 0, 32⟩
def PWR_T_ENERGY_HI_mj : Fld := ⟨0x050, 0, 32⟩
def PWR_T_RAMP_CFG_dwell_us : Fld := ⟨0x054, 0, 4⟩
def PWR_T_RAMP_CFG_slots : Fld := ⟨0x054, 4, 3⟩
def PWR_T_SHORT_cluster : Fld := ⟨0x058, 0, 3⟩
def PWR_T_SHORT_type : Fld := ⟨0x058, 3, 2⟩
def PWR_T_SHORT_p : Fld := ⟨0x058, 5, 3⟩
def PWR_T_SHORT_stage : Fld := ⟨0x058, 8, 2⟩
def PWR_T_SHORT_cause : Fld := ⟨0x058, 10, 1⟩
def PWR_T_SHORT_valid : Fld := ⟨0x058, 31, 1⟩
def PWR_T_DOM_A_k (k : Nat) : Fld := ⟨0x080 + 8 * k, 0, 3⟩
def PWR_T_DOM_A_cl (k : Nat) (u : Nat) : Fld := ⟨0x080 + 8 * k, 3 + 3 * u, 3⟩
def PWR_T_DOM_B_cs (k : Nat) (u : Nat) : Fld := ⟨0x084 + 8 * k, 0 + 3 * u, 3⟩
def LNK_CTL_enable : Fld := ⟨0x040, 0, 1⟩
def LNK_CTL_retrain : Fld := ⟨0x040, 1, 1⟩
def LNK_CTL_force_down : Fld := ⟨0x040, 2, 1⟩
def LNK_CTL_clr_cnt : Fld := ⟨0x040, 3, 1⟩
def LNK_CTL_replay_limit : Fld := ⟨0x040, 4, 4⟩
def LNK_CTL_ack_timer : Fld := ⟨0x040, 8, 8⟩
def LNK_STS_state : Fld := ⟨0x044, 0, 4⟩
def LNK_STS_peer_site : Fld := ⟨0x044, 4, 4⟩
def LNK_STS_tx_seq : Fld := ⟨0x044, 8, 8⟩
def LNK_STS_rx_expected : Fld := ⟨0x044, 16, 8⟩
def LNK_STS_unacked : Fld := ⟨0x044, 24, 7⟩
def LNK_CNT0_replay_cnt : Fld := ⟨0x048, 0, 16⟩
def LNK_CNT0_crc_err_cnt : Fld := ⟨0x048, 16, 16⟩
def LNK_CNT1_half_err_cnt : Fld := ⟨0x04C, 0, 16⟩
def LNK_CNT1_dup_drop_cnt : Fld := ⟨0x04C, 16, 16⟩
def LNK_WIRE_MAP_tx_spares_used : Fld := ⟨0x050, 0, 6⟩
def LNK_WIRE_MAP_rx_spares_used : Fld := ⟨0x050, 8, 6⟩
def CLU_INT_SUM0_core_pg : Fld := ⟨0xF00, 0, 32⟩
def CLU_INT_SUM1_core_pg : Fld := ⟨0xF04, 0, 32⟩
def CLU_INT_SUM2_clu : Fld := ⟨0xF08, 0, 1⟩
def CLU_INT_SUM2_kvw : Fld := ⟨0xF08, 1, 1⟩
def CLU_INT_SUM2_atu : Fld := ⟨0xF08, 2, 1⟩
def CLU_INT_SUM2_scb : Fld := ⟨0xF08, 3, 1⟩
def CLU_MAP_phys (u : Nat) : Fld := ⟨0x040, 0 + 3 * u, 3⟩
def CLU_MAP_online : Fld := ⟨0x040, 21, 7⟩
def CLU_MAP_spare_valid : Fld := ⟨0x040, 28, 1⟩
def CLU_MAP_spare_phys : Fld := ⟨0x040, 29, 3⟩
def CLU_PHYS_state (u : Nat) : Fld := ⟨0x044, 0 + 2 * u, 2⟩
def CLU_PHYS_slice_ok : Fld := ⟨0x044, 16, 8⟩
def KVW_STS_lab_valid : Fld := ⟨0x040, 0, 7⟩
def KVW_STS_active : Fld := ⟨0x040, 7, 4⟩
def KVW_MISS_count : Fld := ⟨0x044, 0, 32⟩
def KVW_INVAL_count : Fld := ⟨0x048, 0, 32⟩
def KVW_FAULT_sub : Fld := ⟨0x04C, 0, 8⟩
def KVW_FAULT_core : Fld := ⟨0x04C, 8, 3⟩
def KVW_FAULT_valid : Fld := ⟨0x04C, 31, 1⟩
def KVW_CTL_flush : Fld := ⟨0x050, 0, 1⟩
def ATU_FAULT_sub : Fld := ⟨0x048, 0, 8⟩
def ATU_FAULT_core : Fld := ⟨0x048, 8, 3⟩
def ATU_FAULT_valid : Fld := ⟨0x048, 31, 1⟩
def ATU_STS_busy : Fld := ⟨0x040, 0, 1⟩
def ATU_STS_core : Fld := ⟨0x040, 1, 3⟩
def ATU_STS_waiting : Fld := ⟨0x040, 4, 6⟩
def ATU_CMDS_count : Fld := ⟨0x044, 0, 32⟩
def ATU_BUSY_LO_cycles : Fld := ⟨0x04C, 0, 32⟩
def ATU_BUSY_HI_cycles : Fld := ⟨0x050, 0, 32⟩
def SCB_BIST_start : Fld := ⟨0x050, 0, 1⟩
def SCB_BIST_target : Fld := ⟨0x050, 1, 3⟩
def SCB_BIST_done : Fld := ⟨0x050, 4, 1⟩
def SCB_BIST_pass : Fld := ⟨0x050, 5, 1⟩
def SCB_BIST_refused : Fld := ⟨0x050, 8, 8⟩
def CORE_STS_state : Fld := ⟨0x040, 0, 3⟩
def CORE_STS_lcore : Fld := ⟨0x040, 3, 3⟩
def CORE_STS_rank : Fld := ⟨0x040, 6, 3⟩
def CORE_STS_width : Fld := ⟨0x040, 9, 3⟩
def CORE_STS_tenant : Fld := ⟨0x040, 12, 7⟩
def CORE_STS_partition : Fld := ⟨0x040, 19, 3⟩
def CORE_STS_rezinv : Fld := ⟨0x040, 22, 1⟩
def CORE_JOB_model_id : Fld := ⟨0x044, 0, 16⟩
def CORE_JOB_queue : Fld := ⟨0x044, 16, 3⟩
def CORE_TAG_tag : Fld := ⟨0x048, 0, 32⟩
def CORE_PC_pc : Fld := ⟨0x04C, 0, 19⟩
def CORE_PC_valid : Fld := ⟨0x04C, 31, 1⟩
def CORE_FAULT_code : Fld := ⟨0x050, 0, 8⟩
def CORE_FAULT_pc : Fld := ⟨0x050, 8, 19⟩
def CORE_FAULT_source : Fld := ⟨0x050, 27, 2⟩
def CORE_FAULT_valid : Fld := ⟨0x050, 31, 1⟩
def CORE_FAULT_ADDR_LO_addr : Fld := ⟨0x054, 0, 32⟩
def CORE_FAULT_ADDR_HI_addr : Fld := ⟨0x058, 0, 32⟩
def CORE_TOK_busy : Fld := ⟨0x05C, 0, 16⟩
def CORE_TOK_mxe_q : Fld := ⟨0x05C, 16, 5⟩
def CORE_TOK_mov_q : Fld := ⟨0x05C, 21, 6⟩
def CORE_TOK_atu_q : Fld := ⟨0x05C, 27, 4⟩
def CORE_REZ_BASE_base (k : Nat) : Fld := ⟨0x060 + 16 * k, 0, 19⟩
def CORE_REZ_LEN_len (k : Nat) : Fld := ⟨0x064 + 16 * k, 0, 20⟩
def CORE_REZ_OWN_model_id (k : Nat) : Fld := ⟨0x068 + 16 * k, 0, 16⟩
def CORE_REZ_OWN_tenant (k : Nat) : Fld := ⟨0x068 + 16 * k, 16, 7⟩
def CORE_REZ_OWN_fw (k : Nat) : Fld := ⟨0x068 + 16 * k, 23, 1⟩
def CORE_REZ_OWN_valid (k : Nat) : Fld := ⟨0x068 + 16 * k, 31, 1⟩
def CORE_JOBS_count : Fld := ⟨0x0E0, 0, 32⟩
def MXE_STS_busy : Fld := ⟨0x040, 0, 1⟩
def MXE_STS_class : Fld := ⟨0x040, 1, 3⟩
def MXE_BUSY_LO_cycles : Fld := ⟨0x044, 0, 32⟩
def MXE_BUSY_HI_cycles : Fld := ⟨0x048, 0, 32⟩
def TGU_STS_mask_depth : Fld := ⟨0x040, 0, 6⟩
def TGU_STS_active_cnt : Fld := ⟨0x040, 6, 7⟩
def TGU_STS_fpstat : Fld := ⟨0x040, 13, 5⟩
def TGU_ISSUE_LO_count : Fld := ⟨0x044, 0, 32⟩
def TGU_ISSUE_HI_count : Fld := ⟨0x048, 0, 32⟩
def MOV_STS_active : Fld := ⟨0x040, 0, 3⟩
def MOV_STS_queued : Fld := ⟨0x040, 3, 6⟩
def MOV_STS_outstanding : Fld := ⟨0x040, 9, 10⟩
def MOV_STS_loading : Fld := ⟨0x040, 19, 1⟩
def MOV_FAULT_code : Fld := ⟨0x044, 0, 8⟩
def MOV_FAULT_sub : Fld := ⟨0x044, 8, 4⟩
def MOV_FAULT_token : Fld := ⟨0x044, 12, 4⟩
def MOV_FAULT_valid : Fld := ⟨0x044, 31, 1⟩
def MOV_BYTES_LO_bytes : Fld := ⟨0x048, 0, 32⟩
def MOV_BYTES_HI_bytes : Fld := ⟨0x04C, 0, 32⟩
def MOV_SKIPPED_count : Fld := ⟨0x050, 0, 32⟩
def STO_STS_spare : Fld := ⟨0x040, 0, 1⟩
def STO_STS_assign_pending : Fld := ⟨0x040, 1, 1⟩
def STO_STS_clearing : Fld := ⟨0x040, 2, 1⟩
def STO_SPARE_ASSIGN_w_tenant : Fld := ⟨0x044, 0, 7⟩
def STO_SPARE_ASSIGN_w_valid : Fld := ⟨0x044, 7, 1⟩
def STO_SPARE_ASSIGN_a_tenant : Fld := ⟨0x044, 8, 7⟩
def STO_SPARE_ASSIGN_a_valid : Fld := ⟨0x044, 15, 1⟩
def STO_SPARE_ASSIGN_p_tenant : Fld := ⟨0x044, 16, 7⟩
def STO_SPARE_ASSIGN_p_valid : Fld := ⟨0x044, 23, 1⟩
def STO_CONFLICT_stalls : Fld := ⟨0x048, 0, 32⟩
def STO_REMOTE_lines : Fld := ⟨0x04C, 0, 32⟩
def SLC_STS_state : Fld := ⟨0x040, 0, 3⟩
def SLC_STS_band : Fld := ⟨0x040, 3, 2⟩
def SLC_STS_hot : Fld := ⟨0x040, 5, 1⟩
def SLC_STS_role : Fld := ⟨0x040, 6, 2⟩
def SLC_STS_fail_cause : Fld := ⟨0x040, 8, 4⟩
def SLC_SET_partition : Fld := ⟨0x044, 0, 3⟩
def SLC_SET_in_set : Fld := ⟨0x044, 3, 1⟩
def SLC_SET_index : Fld := ⟨0x044, 4, 9⟩
def SLC_SET_size : Fld := ⟨0x044, 13, 10⟩
def SLC_SET_near_size : Fld := ⟨0x044, 23, 3⟩
def SLC_NEAR_backing : Fld := ⟨0x048, 0, 2⟩
def SLC_NEAR_standin : Fld := ⟨0x048, 2, 9⟩
def SLC_NEAR_slot : Fld := ⟨0x048, 11, 9⟩
def SLC_NEAR_valid : Fld := ⟨0x048, 20, 1⟩
def SLC_STANDIN_g : Fld := ⟨0x04C, 0, 9⟩
def SLC_STANDIN_valid : Fld := ⟨0x04C, 9, 1⟩
def SLC_GVM_valid_granules : Fld := ⟨0x050, 0, 16⟩
def SLC_GVM_lost_granules : Fld := ⟨0x050, 16, 16⟩
def SLC_CTL_ue_limit : Fld := ⟨0x054, 0, 8⟩
def SLC_CTL_force_fail : Fld := ⟨0x054, 8, 1⟩
def SLC_CTL_band_min : Fld := ⟨0x054, 9, 2⟩
def SLC_DRAM_T_temp : Fld := ⟨0x058, 0, 8⟩
def SLC_DRAM_T_valid : Fld := ⟨0x058, 8, 1⟩
def SLC_DRAM_T_ue_lines : Fld := ⟨0x058, 16, 16⟩
def SLC_BYTES_LO_bytes : Fld := ⟨0x05C, 0, 32⟩
def SLC_BYTES_HI_bytes : Fld := ⟨0x060, 0, 32⟩
def SCB_P_CTL_enable : Fld := ⟨0x040, 0, 1⟩
def SCB_P_CTL_pass_min : Fld := ⟨0x040, 1, 16⟩
def SCB_P_STS_passes : Fld := ⟨0x044, 0, 16⟩
def SCB_P_STS_pct : Fld := ⟨0x044, 16, 7⟩
def SCB_P_STS_running : Fld := ⟨0x044, 23, 1⟩

end F

/-- Registers of the hub0 layout. -/
def rows_hub0 : List FldRow := [
  ⟨0x040, 0, 1, 0, 20, .ro, .none, 2, 0, 1⟩,
  ⟨0x044, 0, 1, 0, 2, .ro, .none, 0, 0, 1⟩,
  ⟨0x044, 0, 1, 2, 1, .ro, .none, 0, 0, 1⟩,
  ⟨0x044, 0, 1, 3, 8, .ro, .none, 0, 0, 1⟩,
  ⟨0x048, 0, 1, 0, 8, .ro, .none, 0, 0, 1⟩,
  ⟨0x048, 0, 1, 8, 2, .ro, .none, 0, 0, 1⟩,
  ⟨0x048, 0, 1, 10, 2, .ro, .none, 0, 0, 1⟩,
  ⟨0x048, 0, 1, 12, 4, .ro, .none, 0, 0, 1⟩]

/-- Registers of the hub1 layout. -/
def rows_hub1 : List FldRow := [
  ⟨0x040, 4, 28, 0, 5, .rw, .none, 0, 0, 1⟩,
  ⟨0x040, 4, 28, 8, 1, .rw, .none, 0, 0, 1⟩,
  ⟨0x040, 4, 28, 9, 1, .rw, .none, 0, 0, 1⟩,
  ⟨0x0C0, 0, 1, 1, 28, .ro, .none, 0, 0, 1⟩,
  ⟨0x0C4, 0, 1, 0, 8, .ro, .none, 0, 0, 1⟩]

/-- Registers of the hub2 layout. -/
def rows_hub2 : List FldRow := [
  ⟨0x040, 0, 1, 0, 3, .rw, .none, 0, 0, 1⟩,
  ⟨0x040, 0, 1, 3, 9, .rw, .none, 0, 0, 1⟩,
  ⟨0x040, 0, 1, 31, 1, .w1s, .none, 0, 0, 1⟩,
  ⟨0x044, 0, 1, 0, 1, .ro, .none, 0, 0, 1⟩,
  ⟨0x044, 0, 1, 1, 2, .ro, .none, 0, 0, 1⟩,
  ⟨0x048, 0, 1, 0, 3, .ro, .none, 0, 0, 1⟩,
  ⟨0x048, 0, 1, 3, 11, .ro, .none, 0, 0, 1⟩,
  ⟨0x048, 0, 1, 14, 1, .ro, .none, 0, 0, 1⟩,
  ⟨0x04C, 0, 1, 0, 16, .wo, .none, 0, 0, 1⟩]

/-- Registers of the pt layout. -/
def rows_pt : List FldRow := [
  ⟨0x040, 0, 1, 0, 32, .rw, .none, 0, 0, 1⟩,
  ⟨0x044, 0, 1, 0, 32, .rw, .none, 0, 0, 1⟩,
  ⟨0x048, 0, 1, 0, 3, .rw, .none, 0, 0, 1⟩,
  ⟨0x048, 0, 1, 3, 12, .rw, .none, 0, 0, 1⟩,
  ⟨0x04C, 0, 1, 0, 2, .rw, .none, 0, 0, 1⟩,
  ⟨0x04C, 0, 1, 31, 1, .w1s, .none, 0, 0, 1⟩,
  ⟨0x050, 0, 1, 0, 3, .ro, .none, 0, 0, 1⟩,
  ⟨0x050, 0, 1, 3, 3, .ro, .none, 0, 0, 1⟩,
  ⟨0x050, 0, 1, 6, 2, .ro, .none, 0, 0, 1⟩,
  ⟨0x050, 0, 1, 8, 9, .ro, .none, 0, 0, 1⟩,
  ⟨0x050, 0, 1, 17, 8, .ro, .none, 0, 0, 1⟩,
  ⟨0x054, 0, 1, 0, 17, .ro, .none, 0, 0, 1⟩,
  ⟨0x054, 0, 1, 17, 9, .ro, .none, 0, 0, 1⟩,
  ⟨0x058, 0, 1, 0, 10, .ro, .none, 0, 0, 1⟩,
  ⟨0x058, 0, 1, 10, 8, .ro, .none, 0, 0, 1⟩]

/-- Registers of the boot layout. -/
def rows_boot : List FldRow := [
  ⟨0x040, 0, 1, 0, 4, .ro, .none, 2, 0, 1⟩,
  ⟨0x040, 0, 1, 4, 1, .ro, .none, 0, 0, 1⟩,
  ⟨0x040, 0, 1, 5, 1, .ro, .none, 0, 0, 1⟩,
  ⟨0x040, 0, 1, 6, 1, .ro, .none, 0, 0, 1⟩,
  ⟨0x040, 0, 1, 7, 1, .ro, .none, 0, 0, 1⟩,
  ⟨0x040, 0, 1, 8, 1, .ro, .none, 0, 0, 1⟩,
  ⟨0x040, 0, 1, 9, 2, .ro, .none, 0, 0, 1⟩,
  ⟨0x040, 0, 1, 11, 9, .ro, .none, 0, 0, 1⟩,
  ⟨0x040, 0, 1, 20, 4, .ro, .none, 0, 0, 1⟩,
  ⟨0x044, 0, 1, 0, 8, .ro, .none, 0, 0, 1⟩,
  ⟨0x044, 0, 1, 8, 12, .ro, .none, 0, 0, 1⟩,
  ⟨0x044, 0, 1, 20, 4, .ro, .none, 0, 0, 1⟩,
  ⟨0x048, 0, 1, 0, 2, .ro, .none, 0, 0, 1⟩,
  ⟨0x048, 0, 1, 2, 2, .ro, .none, 0, 0, 1⟩,
  ⟨0x048, 0, 1, 4, 4, .ro, .none, 0, 0, 1⟩,
  ⟨0x048, 0, 1, 8, 6, .ro, .none, 0, 0, 1⟩,
  ⟨0x04C, 0, 1, 0, 8, .ro, .none, 0, 0, 1⟩,
  ⟨0x04C, 0, 1, 8, 2, .ro, .none, 0, 0, 1⟩,
  ⟨0x050, 0, 1, 0, 32, .ro, .none, 0, 0, 1⟩,
  ⟨0x054, 0, 1, 0, 12, .ro, .none, 0, 0, 1⟩,
  ⟨0x054, 0, 1, 12, 8, .ro, .none, 0, 0, 1⟩,
  ⟨0x054, 0, 1, 20, 8, .ro, .none, 0, 0, 1⟩,
  ⟨0x054, 0, 1, 28, 4, .ro, .none, 0, 0, 1⟩,
  ⟨0x058, 0, 1, 0, 32, .rw, .none, 0, 0, 1⟩,
  ⟨0x05C, 0, 1, 0, 32, .rw, .none, 0, 0, 1⟩,
  ⟨0x060, 0, 1, 0, 27, .rw, .none, 0, 0, 1⟩,
  ⟨0x064, 0, 1, 0, 1, .w1s, .none, 0, 0, 1⟩,
  ⟨0x064, 0, 1, 1, 1, .ro, .none, 0, 0, 1⟩,
  ⟨0x068, 0, 1, 0, 10, .ro, .none, 0, 0, 1⟩,
  ⟨0x068, 0, 1, 10, 17, .ro, .none, 0, 0, 1⟩,
  ⟨0x06C, 0, 1, 0, 16, .ro, .none, 0, 0, 1⟩,
  ⟨0x070, 0, 1, 0, 32, .ro, .none, 0, 0, 1⟩,
  ⟨0x074, 0, 1, 0, 32, .ro, .none, 0, 0, 1⟩,
  ⟨0x078, 0, 1, 0, 10, .ro, .none, 0, 0, 1⟩]

/-- Registers of the ser layout. -/
def rows_ser : List FldRow := [
  ⟨0x040, 0, 1, 0, 1, .rwl, .none, 1, 0, 1⟩,
  ⟨0x040, 0, 1, 1, 1, .w1s, .none, 0, 0, 1⟩,
  ⟨0x040, 0, 1, 2, 1, .w1s, .none, 0, 0, 1⟩,
  ⟨0x040, 0, 1, 3, 1, .rwl, .none, 1, 0, 1⟩,
  ⟨0x040, 0, 1, 4, 4, .rwl, .none, 8, 0, 1⟩,
  ⟨0x040, 0, 1, 8, 16, .rwl, .none, 4096, 0, 1⟩,
  ⟨0x044, 0, 1, 0, 4, .ro, .none, 1, 0, 1⟩,
  ⟨0x044, 0, 1, 4, 1, .ro, .none, 0, 0, 1⟩,
  ⟨0x044, 0, 1, 5, 1, .ro, .none, 0, 0, 1⟩,
  ⟨0x044, 0, 1, 6, 1, .ro, .none, 0, 0, 1⟩,
  ⟨0x044, 0, 1, 7, 1, .ro, .none, 0, 0, 1⟩,
  ⟨0x044, 0, 1, 8, 10, .ro, .none, 0, 0, 1⟩,
  ⟨0x044, 0, 1, 18, 10, .ro, .none, 0, 0, 1⟩,
  ⟨0x048, 0, 1, 0, 16, .ro, .none, 0, 0, 1⟩,
  ⟨0x048, 0, 1, 16, 16, .ro, .none, 0, 0, 1⟩,
  ⟨0x04C, 0, 1, 0, 16, .ro, .none, 0, 0, 1⟩,
  ⟨0x04C, 0, 1, 16, 8, .ro, .none, 0, 0, 1⟩,
  ⟨0x04C, 0, 1, 24, 8, .ro, .none, 0, 0, 1⟩,
  ⟨0x050, 0, 1, 0, 4, .ro, .none, 0, 0, 1⟩,
  ⟨0x050, 0, 1, 4, 6, .ro, .none, 0, 0, 1⟩,
  ⟨0x050, 0, 1, 10, 1, .ro, .none, 0, 0, 1⟩,
  ⟨0x050, 0, 1, 11, 3, .ro, .none, 0, 0, 1⟩,
  ⟨0x054, 0, 1, 0, 4, .ro, .none, 0, 4, 8⟩]

/-- Registers of the hmp0 layout. -/
def rows_hmp0 : List FldRow := [
  ⟨0x040, 0, 1, 0, 13, .ro, .none, 0, 0, 1⟩,
  ⟨0x040, 0, 1, 13, 10, .ro, .none, 0, 0, 1⟩,
  ⟨0x044, 0, 1, 0, 13, .rw, .none, 0, 0, 1⟩]

/-- Registers of the hmp1 layout. -/
def rows_hmp1 : List FldRow := [
  ⟨0x040, 4, 16, 0, 4, .rwl, .none, 0, 0, 1⟩,
  ⟨0x080, 4, 16, 0, 32, .ro, .none, 0, 0, 1⟩]

/-- Registers of the hmp2 layout. -/
def rows_hmp2 : List FldRow := [
  ⟨0x040, 8, 8, 0, 13, .rw, .none, 0, 0, 1⟩,
  ⟨0x044, 8, 8, 0, 13, .ro, .none, 0, 0, 1⟩]

/-- Registers of the hmp3 layout. -/
def rows_hmp3 : List FldRow := [
  ⟨0x040, 0, 1, 0, 12, .rw, .none, 0, 0, 1⟩,
  ⟨0x040, 0, 1, 12, 13, .rw, .none, 0, 0, 1⟩,
  ⟨0x044, 0, 1, 0, 3, .rw, .none, 0, 0, 1⟩,
  ⟨0x044, 0, 1, 3, 7, .rw, .none, 0, 0, 1⟩,
  ⟨0x044, 0, 1, 10, 1, .rw, .none, 0, 0, 1⟩,
  ⟨0x044, 0, 1, 11, 4, .rw, .none, 0, 0, 1⟩,
  ⟨0x044, 0, 1, 16, 12, .rw, .none, 0, 0, 1⟩,
  ⟨0x048, 0, 1, 0, 2, .rw, .none, 0, 0, 1⟩,
  ⟨0x048, 0, 1, 31, 1, .w1s, .none, 0, 0, 1⟩,
  ⟨0x04C, 0, 1, 0, 1, .ro, .none, 0, 0, 1⟩,
  ⟨0x04C, 0, 1, 1, 4, .ro, .none, 0, 0, 1⟩,
  ⟨0x04C, 0, 1, 5, 12, .ro, .none, 0, 0, 1⟩]

/-- Registers of the hmpMap layout. -/
def rows_hmpMap : List FldRow := [
  ⟨0x040, 4, 512, 0, 2, .ro, .none, 0, 0, 1⟩,
  ⟨0x040, 4, 512, 2, 4, .ro, .none, 0, 0, 1⟩,
  ⟨0x040, 4, 512, 6, 3, .ro, .none, 0, 0, 1⟩,
  ⟨0x040, 4, 512, 9, 7, .ro, .none, 0, 0, 1⟩,
  ⟨0x040, 4, 512, 16, 1, .ro, .none, 0, 0, 1⟩,
  ⟨0x040, 4, 512, 17, 1, .ro, .none, 0, 0, 1⟩,
  ⟨0x040, 4, 512, 18, 1, .ro, .none, 0, 0, 1⟩,
  ⟨0x040, 4, 512, 20, 12, .ro, .none, 0, 0, 1⟩]

/-- Registers of the disp0 layout. -/
def rows_disp0 : List FldRow := [
  ⟨0x040, 0, 1, 0, 8, .ro, .none, 0, 0, 1⟩,
  ⟨0x040, 0, 1, 8, 8, .ro, .none, 0, 0, 1⟩]

/-- Registers of the disp1 layout. -/
def rows_disp1 : List FldRow := [
  ⟨0x040, 4, 128, 0, 6, .rw, .none, 0, 0, 1⟩,
  ⟨0x040, 4, 128, 6, 2, .rw, .none, 0, 0, 1⟩,
  ⟨0x040, 4, 128, 8, 3, .rw, .none, 0, 0, 1⟩,
  ⟨0x040, 4, 128, 11, 4, .rw, .none, 0, 0, 1⟩,
  ⟨0x040, 4, 128, 15, 1, .rw, .none, 0, 0, 1⟩,
  ⟨0x040, 4, 128, 16, 1, .rw, .none, 0, 0, 1⟩]

/-- Registers of the disp2 layout. -/
def rows_disp2 : List FldRow := [
  ⟨0x040, 0, 1, 0, 11, .rw, .none, 0, 0, 1⟩,
  ⟨0x044, 0, 1, 0, 16, .ro, .none, 0, 0, 1⟩,
  ⟨0x044, 0, 1, 16, 7, .ro, .none, 0, 0, 1⟩,
  ⟨0x044, 0, 1, 23, 1, .ro, .none, 0, 0, 1⟩,
  ⟨0x044, 0, 1, 24, 8, .ro, .none, 0, 0, 1⟩]

/-- Registers of the disp4 layout. -/
def rows_disp4 : List FldRow := [
  ⟨0x040, 0, 1, 0, 16, .rw, .none, 3000, 0, 1⟩,
  ⟨0x040, 0, 1, 16, 16, .rw, .none, 100, 0, 1⟩,
  ⟨0x044, 0, 1, 0, 16, .ro, .none, 0, 0, 1⟩,
  ⟨0x048, 0, 1, 0, 16, .ro, .none, 0, 0, 1⟩,
  ⟨0x048, 0, 1, 16, 16, .ro, .none, 0, 0, 1⟩,
  ⟨0x04C, 4, 8, 0, 16, .ro, .none, 0, 0, 1⟩]

/-- Registers of the disp5 layout. -/
def rows_disp5 : List FldRow := [
  ⟨0x040, 0, 1, 0, 12, .rw, .none, 0, 0, 1⟩,
  ⟨0x044, 0, 1, 0, 16, .ro, .none, 0, 0, 1⟩,
  ⟨0x044, 0, 1, 16, 7, .ro, .none, 0, 0, 1⟩,
  ⟨0x044, 0, 1, 23, 1, .ro, .none, 0, 0, 1⟩,
  ⟨0x044, 0, 1, 24, 8, .ro, .none, 0, 0, 1⟩,
  ⟨0x048, 0, 1, 0, 16, .ro, .none, 0, 0, 1⟩,
  ⟨0x048, 0, 1, 16, 16, .ro, .none, 0, 0, 1⟩,
  ⟨0x04C, 0, 1, 0, 1, .w1s, .none, 0, 0, 1⟩]

/-- Registers of the disp6 layout. -/
def rows_disp6 : List FldRow := [
  ⟨0x040, 4, 8, 0, 9, .ro, .none, 0, 0, 1⟩,
  ⟨0x040, 4, 8, 16, 16, .ro, .none, 0, 0, 1⟩]

/-- Registers of the kpm0 layout. -/
def rows_kpm0 : List FldRow := [
  ⟨0x040, 0, 1, 0, 8, .ro, .none, 0, 0, 1⟩,
  ⟨0x040, 0, 1, 8, 8, .ro, .none, 0, 0, 1⟩]

/-- Registers of the kpm1 layout. -/
def rows_kpm1 : List FldRow := [
  ⟨0x040, 32, 8, 0, 1, .rw, .none, 0, 0, 1⟩,
  ⟨0x040, 32, 8, 1, 2, .rw, .none, 0, 0, 1⟩,
  ⟨0x040, 32, 8, 4, 3, .rw, .none, 0, 0, 1⟩,
  ⟨0x044, 32, 8, 0, 32, .rw, .none, 0, 0, 1⟩,
  ⟨0x048, 32, 8, 0, 32, .rw, .none, 0, 0, 1⟩,
  ⟨0x04C, 32, 8, 0, 22, .rw, .none, 0, 0, 1⟩,
  ⟨0x050, 32, 8, 0, 3, .ro, .none, 0, 0, 1⟩,
  ⟨0x050, 32, 8, 3, 22, .ro, .none, 0, 0, 1⟩,
  ⟨0x054, 32, 8, 0, 22, .ro, .none, 0, 0, 1⟩]

/-- Registers of the hpt layout. -/
def rows_hpt : List FldRow := [
  ⟨0x040, 0, 1, 0, 4, .ro, .none, 0, 0, 1⟩,
  ⟨0x040, 0, 1, 4, 5, .ro, .none, 0, 0, 1⟩,
  ⟨0x040, 0, 1, 9, 1, .ro, .none, 0, 0, 1⟩,
  ⟨0x040, 0, 1, 10, 1, .ro, .none, 0, 0, 1⟩,
  ⟨0x040, 0, 1, 11, 1, .ro, .none, 0, 0, 1⟩,
  ⟨0x044, 0, 1, 0, 1, .rwl, .none, 0, 0, 1⟩,
  ⟨0x048, 0, 1, 0, 3, .rwl, .none, 0, 0, 1⟩,
  ⟨0x048, 0, 1, 3, 1, .rwl, .none, 0, 0, 1⟩,
  ⟨0x048, 0, 1, 4, 8, .rwl, .none, 0, 0, 1⟩,
  ⟨0x048, 0, 1, 12, 8, .rwl, .none, 0, 0, 1⟩]

/-- Registers of the stp0 layout. -/
def rows_stp0 : List FldRow := [
  ⟨0x040, 0, 1, 0, 1, .ro, .none, 0, 0, 1⟩,
  ⟨0x040, 0, 1, 1, 2, .ro, .none, 0, 0, 1⟩,
  ⟨0x040, 0, 1, 3, 10, .ro, .none, 0, 0, 1⟩,
  ⟨0x044, 0, 1, 0, 32, .ro, .none, 0, 0, 1⟩,
  ⟨0x048, 0, 1, 0, 32, .ro, .none, 0, 0, 1⟩]

/-- Registers of the stpPort layout. -/
def rows_stpPort : List FldRow := [
  ⟨0x040, 0, 1, 0, 1, .rwl, .none, 0, 0, 1⟩,
  ⟨0x040, 0, 1, 1, 1, .rwl, .none, 0, 0, 1⟩,
  ⟨0x040, 0, 1, 2, 1, .rwl, .none, 0, 0, 1⟩,
  ⟨0x040, 0, 1, 3, 12, .rwl, .none, 0, 0, 1⟩,
  ⟨0x040, 0, 1, 15, 3, .rwl, .none, 7, 0, 1⟩,
  ⟨0x044, 0, 1, 0, 16, .rwl, .none, 0, 0, 1⟩,
  ⟨0x044, 0, 1, 16, 16, .rwl, .none, 0, 0, 1⟩,
  ⟨0x048, 0, 1, 0, 32, .rwl, .none, 0, 0, 1⟩,
  ⟨0x04C, 0, 1, 0, 32, .rwl, .none, 0, 0, 1⟩,
  ⟨0x050, 0, 1, 0, 32, .rwl, .none, 0, 0, 1⟩,
  ⟨0x054, 0, 1, 0, 32, .rwl, .none, 0, 0, 1⟩,
  ⟨0x058, 0, 1, 0, 32, .rwl, .none, 0, 0, 1⟩,
  ⟨0x05C, 0, 1, 0, 32, .rwl, .none, 0, 0, 1⟩,
  ⟨0x060, 0, 1, 0, 16, .ro, .none, 0, 0, 1⟩,
  ⟨0x060, 0, 1, 16, 16, .ro, .none, 0, 0, 1⟩,
  ⟨0x064, 0, 1, 0, 16, .ro, .none, 0, 0, 1⟩,
  ⟨0x064, 0, 1, 16, 16, .ro, .none, 0, 0, 1⟩]

/-- Registers of the stpPeer layout. -/
def rows_stpPeer : List FldRow := [
  ⟨0x040, 32, 64, 0, 32, .rw, .none, 0, 0, 1⟩,
  ⟨0x044, 32, 64, 0, 16, .rw, .none, 0, 0, 1⟩,
  ⟨0x044, 32, 64, 16, 16, .rw, .none, 0, 0, 1⟩,
  ⟨0x048, 32, 64, 0, 32, .rw, .none, 0, 0, 1⟩,
  ⟨0x04C, 32, 64, 0, 32, .rw, .none, 0, 0, 1⟩,
  ⟨0x050, 32, 64, 0, 32, .rw, .none, 0, 0, 1⟩,
  ⟨0x054, 32, 64, 0, 32, .rw, .none, 0, 0, 1⟩,
  ⟨0x058, 32, 64, 0, 1, .rw, .none, 0, 0, 1⟩,
  ⟨0x058, 32, 64, 1, 1, .rw, .none, 0, 0, 1⟩,
  ⟨0x058, 32, 64, 2, 1, .rw, .none, 0, 0, 1⟩]

/-- Registers of the stpCtx layout. -/
def rows_stpCtx : List FldRow := [
  ⟨0x100, 48, 64, 0, 16, .rw, .none, 0, 0, 1⟩,
  ⟨0x100, 48, 64, 16, 1, .rw, .none, 0, 0, 1⟩,
  ⟨0x100, 48, 64, 17, 6, .rw, .none, 0, 0, 1⟩,
  ⟨0x100, 48, 64, 23, 7, .rw, .none, 0, 0, 1⟩,
  ⟨0x100, 48, 64, 30, 1, .rw, .none, 0, 0, 1⟩,
  ⟨0x100, 48, 64, 31, 1, .rw, .none, 0, 0, 1⟩,
  ⟨0x104, 48, 64, 0, 12, .rw, .none, 0, 0, 1⟩,
  ⟨0x104, 48, 64, 12, 12, .rw, .none, 0, 0, 1⟩,
  ⟨0x104, 48, 64, 24, 3, .rw, .none, 0, 0, 1⟩,
  ⟨0x108, 48, 64, 0, 12, .rw, .none, 0, 0, 1⟩,
  ⟨0x108, 48, 64, 12, 12, .rw, .none, 0, 0, 1⟩,
  ⟨0x10C, 48, 64, 0, 15, .rw, .none, 1, 0, 1⟩,
  ⟨0x10C, 48, 64, 16, 7, .rw, .none, 5, 0, 1⟩,
  ⟨0x10C, 48, 64, 24, 6, .rw, .none, 25, 0, 1⟩,
  ⟨0x110, 48, 64, 0, 3, .ro, .none, 0, 0, 1⟩,
  ⟨0x110, 48, 64, 3, 11, .ro, .none, 0, 0, 1⟩,
  ⟨0x110, 48, 64, 14, 3, .ro, .none, 0, 0, 1⟩,
  ⟨0x114, 48, 64, 0, 32, .ro, .none, 0, 0, 1⟩,
  ⟨0x118, 48, 64, 0, 32, .ro, .none, 0, 0, 1⟩,
  ⟨0x11C, 48, 64, 0, 32, .ro, .none, 0, 0, 1⟩,
  ⟨0x120, 48, 64, 0, 16, .ro, .none, 0, 0, 1⟩,
  ⟨0x120, 48, 64, 16, 16, .ro, .none, 0, 0, 1⟩,
  ⟨0x124, 48, 64, 0, 16, .ro, .none, 0, 0, 1⟩,
  ⟨0x124, 48, 64, 16, 16, .ro, .none, 0, 0, 1⟩,
  ⟨0x128, 48, 64, 0, 16, .ro, .none, 0, 0, 1⟩,
  ⟨0x128, 48, 64, 16, 16, .ro, .none, 0, 0, 1⟩,
  ⟨0x12C, 48, 64, 0, 16, .ro, .none, 0, 0, 1⟩,
  ⟨0x12C, 48, 64, 16, 16, .ro, .none, 0, 0, 1⟩]

/-- Registers of the vce0 layout. -/
def rows_vce0 : List FldRow := [
  ⟨0x040, 0, 1, 0, 3, .ro, .none, 0, 0, 1⟩,
  ⟨0x040, 0, 1, 3, 6, .ro, .none, 0, 0, 1⟩,
  ⟨0x040, 0, 1, 9, 10, .ro, .none, 0, 0, 1⟩,
  ⟨0x044, 0, 1, 0, 1, .w1s, .none, 0, 0, 1⟩,
  ⟨0x044, 0, 1, 1, 1, .w1s, .none, 0, 0, 1⟩,
  ⟨0x048, 0, 1, 0, 1, .ro, .none, 0, 0, 1⟩,
  ⟨0x048, 0, 1, 1, 1, .ro, .none, 0, 0, 1⟩,
  ⟨0x048, 0, 1, 8, 8, .ro, .none, 0, 0, 1⟩]

/-- Registers of the vce1 layout. -/
def rows_vce1 : List FldRow := [
  ⟨0x100, 32, 16, 0, 7, .rw, .none, 0, 0, 1⟩,
  ⟨0x100, 32, 16, 7, 3, .rw, .none, 0, 0, 1⟩,
  ⟨0x100, 32, 16, 10, 4, .rw, .none, 0, 0, 1⟩,
  ⟨0x100, 32, 16, 31, 1, .rw, .none, 0, 0, 1⟩,
  ⟨0x104, 32, 16, 0, 12, .rw, .none, 0, 0, 1⟩,
  ⟨0x108, 32, 16, 0, 12, .rw, .none, 0, 0, 1⟩,
  ⟨0x108, 32, 16, 12, 12, .rw, .none, 0, 0, 1⟩,
  ⟨0x10C, 32, 16, 0, 12, .rw, .none, 0, 0, 1⟩,
  ⟨0x10C, 32, 16, 12, 12, .rw, .none, 0, 0, 1⟩,
  ⟨0x110, 32, 16, 0, 3, .ro, .none, 0, 0, 1⟩,
  ⟨0x110, 32, 16, 3, 5, .ro, .none, 0, 0, 1⟩,
  ⟨0x110, 32, 16, 8, 8, .ro, .none, 0, 0, 1⟩,
  ⟨0x110, 32, 16, 16, 9, .ro, .none, 0, 0, 1⟩,
  ⟨0x114, 32, 16, 0, 16, .ro, .none, 0, 0, 1⟩,
  ⟨0x114, 32, 16, 16, 16, .ro, .none, 0, 0, 1⟩]

/-- Registers of the hpc layout. -/
def rows_hpc : List FldRow := [
  ⟨0x040, 0, 1, 0, 1, .ro, .none, 0, 0, 1⟩,
  ⟨0x040, 0, 1, 1, 3, .ro, .none, 0, 0, 1⟩,
  ⟨0x044, 0, 1, 0, 3, .rw, .none, 0, 0, 1⟩,
  ⟨0x044, 0, 1, 3, 7, .rw, .none, 0, 0, 1⟩,
  ⟨0x044, 0, 1, 10, 1, .rw, .none, 0, 0, 1⟩,
  ⟨0x048, 0, 1, 0, 28, .rw, .none, 0, 0, 1⟩,
  ⟨0x04C, 0, 1, 0, 1, .w1s, .none, 0, 0, 1⟩,
  ⟨0x04C, 0, 1, 1, 1, .w1s, .none, 0, 0, 1⟩,
  ⟨0x050, 0, 1, 0, 16, .ro, .none, 0, 0, 1⟩,
  ⟨0x050, 0, 1, 16, 8, .ro, .none, 0, 0, 1⟩,
  ⟨0x050, 0, 1, 31, 1, .ro, .none, 0, 0, 1⟩,
  ⟨0x054, 0, 1, 0, 32, .ro, .none, 0, 0, 1⟩,
  ⟨0x058, 0, 1, 0, 32, .ro, .none, 0, 0, 1⟩]

/-- Registers of the mgt layout. -/
def rows_mgt : List FldRow := [
  ⟨0x040, 0, 1, 0, 8, .ro, .none, 0, 0, 1⟩,
  ⟨0x040, 0, 1, 8, 8, .ro, .none, 0, 0, 1⟩,
  ⟨0x040, 0, 1, 16, 7, .ro, .none, 0, 0, 1⟩,
  ⟨0x040, 0, 1, 23, 3, .ro, .none, 0, 0, 1⟩,
  ⟨0x044, 0, 1, 0, 7, .ro, .none, 0, 0, 1⟩,
  ⟨0x044, 0, 1, 7, 4, .ro, .none, 0, 0, 1⟩,
  ⟨0x044, 0, 1, 11, 2, .ro, .none, 0, 0, 1⟩,
  ⟨0x044, 0, 1, 13, 2, .ro, .none, 0, 0, 1⟩,
  ⟨0x044, 0, 1, 15, 3, .ro, .none, 0, 0, 1⟩,
  ⟨0x048, 0, 1, 0, 16, .ro, .none, 0, 0, 1⟩,
  ⟨0x048, 0, 1, 16, 16, .ro, .none, 0, 0, 1⟩]

/-- Registers of the trl layout. -/
def rows_trl : List FldRow := [
  ⟨0x040, 0, 1, 0, 12, .ro, .none, 0, 0, 1⟩,
  ⟨0x040, 0, 1, 12, 11, .ro, .none, 0, 0, 1⟩,
  ⟨0x040, 0, 1, 23, 8, .ro, .none, 0, 0, 1⟩,
  ⟨0x040, 0, 1, 31, 1, .ro, .none, 0, 0, 1⟩,
  ⟨0x044, 0, 1, 0, 32, .ro, .none, 0, 0, 1⟩,
  ⟨0x048, 0, 1, 0, 32, .ro, .none, 0, 0, 1⟩,
  ⟨0x04C, 0, 1, 0, 12, .rw, .none, 0, 0, 1⟩,
  ⟨0x080, 4, 16, 0, 32, .ro, .none, 0, 0, 1⟩]

/-- Registers of the thm0 layout. -/
def rows_thm0 : List FldRow := [
  ⟨0x040, 0, 1, 0, 1, .ro, .none, 0, 0, 1⟩,
  ⟨0x040, 0, 1, 1, 3, .ro, .none, 0, 0, 1⟩,
  ⟨0x040, 0, 1, 4, 1, .ro, .none, 0, 0, 1⟩,
  ⟨0x040, 0, 1, 5, 2, .ro, .none, 0, 0, 1⟩,
  ⟨0x040, 0, 1, 7, 8, .ro, .none, 0, 0, 1⟩,
  ⟨0x040, 0, 1, 15, 12, .ro, .none, 0, 0, 1⟩,
  ⟨0x044, 0, 1, 0, 7, .rwl, .none, 100, 0, 1⟩,
  ⟨0x044, 0, 1, 8, 8, .ro, .none, 108, 0, 1⟩,
  ⟨0x044, 0, 1, 16, 8, .ro, .none, 115, 0, 1⟩,
  ⟨0x044, 0, 1, 24, 8, .ro, .none, 110, 0, 1⟩,
  ⟨0x048, 0, 1, 0, 16, .ro, .none, 0, 0, 1⟩,
  ⟨0x048, 0, 1, 16, 11, .ro, .none, 0, 0, 1⟩,
  ⟨0x04C, 4, 8, 0, 11, .ro, .none, 0, 0, 1⟩,
  ⟨0x04C, 4, 8, 11, 1, .ro, .none, 0, 0, 1⟩]

/-- Registers of the thm1 layout. -/
def rows_thm1 : List FldRow := [
  ⟨0x040, 0, 1, 0, 1, .rwl, .none, 0, 0, 1⟩,
  ⟨0x040, 0, 1, 1, 1, .w1s, .none, 0, 0, 1⟩,
  ⟨0x040, 0, 1, 2, 1, .ro, .none, 0, 0, 1⟩,
  ⟨0x044, 4, 2, 0, 12, .ro, .none, 0, 0, 1⟩,
  ⟨0x044, 4, 2, 12, 1, .ro, .none, 0, 0, 1⟩,
  ⟨0x044, 4, 2, 13, 1, .ro, .none, 0, 0, 1⟩,
  ⟨0x044, 4, 2, 16, 8, .ro, .none, 0, 0, 1⟩,
  ⟨0x04C, 0, 1, 0, 8, .rw, .none, 45, 0, 1⟩,
  ⟨0x04C, 0, 1, 8, 8, .rw, .none, 65, 0, 1⟩]

/-- Registers of the pwrHub layout. -/
def rows_pwrHub : List FldRow := [
  ⟨0x040, 0, 1, 0, 1, .ro, .none, 0, 0, 1⟩,
  ⟨0x040, 0, 1, 1, 1, .ro, .none, 0, 0, 1⟩,
  ⟨0x040, 0, 1, 2, 5, .ro, .none, 0, 0, 1⟩,
  ⟨0x040, 0, 1, 7, 1, .ro, .none, 0, 0, 1⟩,
  ⟨0x044, 0, 1, 0, 8, .rwl, .none, 0, 0, 1⟩,
  ⟨0x044, 0, 1, 8, 8, .rwl, .none, 0, 0, 1⟩,
  ⟨0x048, 0, 1, 0, 12, .ro, .none, 0, 0, 1⟩,
  ⟨0x048, 0, 1, 12, 12, .ro, .none, 0, 0, 1⟩,
  ⟨0x04C, 0, 1, 0, 12, .ro, .none, 0, 0, 1⟩,
  ⟨0x04C, 0, 1, 12, 10, .ro, .none, 0, 0, 1⟩,
  ⟨0x050, 0, 1, 0, 32, .ro, .none, 0, 0, 1⟩,
  ⟨0x054, 0, 1, 0, 32, .ro, .none, 0, 0, 1⟩,
  ⟨0x058, 0, 1, 0, 10, .ro, .none, 0, 0, 1⟩,
  ⟨0x058, 0, 1, 16, 10, .ro, .none, 0, 0, 1⟩]

/-- Registers of the scbH layout. -/
def rows_scbH : List FldRow := [
  ⟨0x048, 0, 1, 0, 16, .ro, .none, 0, 0, 1⟩,
  ⟨0x048, 0, 1, 16, 16, .ro, .none, 0, 0, 1⟩,
  ⟨0x04C, 0, 1, 0, 16, .rwl, .none, 256, 0, 1⟩,
  ⟨0x04C, 0, 1, 16, 8, .rwl, .none, 24, 0, 1⟩,
  ⟨0x040, 0, 1, 0, 1, .rwl, .none, 1, 0, 1⟩,
  ⟨0x040, 0, 1, 1, 15, .rwl, .none, 1000, 0, 1⟩,
  ⟨0x044, 0, 1, 0, 16, .ro, .none, 0, 0, 1⟩,
  ⟨0x044, 0, 1, 16, 1, .ro, .none, 0, 0, 1⟩,
  ⟨0x044, 0, 1, 17, 15, .ro, .none, 0, 0, 1⟩]

/-- Registers of the tn0 layout. -/
def rows_tn0 : List FldRow := [
  ⟨0x040, 0, 1, 0, 3, .ro, .ro, 0, 0, 1⟩,
  ⟨0x040, 0, 1, 3, 3, .ro, .ro, 0, 0, 1⟩,
  ⟨0x040, 0, 1, 6, 2, .ro, .ro, 0, 0, 1⟩,
  ⟨0x040, 0, 1, 16, 16, .ro, .ro, 1, 0, 1⟩,
  ⟨0x044, 0, 1, 0, 1, .w1s, .w1s, 0, 0, 1⟩,
  ⟨0x048, 0, 1, 0, 32, .rw, .rw, 0, 0, 1⟩,
  ⟨0x04C, 0, 1, 0, 3, .rw, .rw, 0, 0, 1⟩,
  ⟨0x04C, 0, 1, 3, 1, .rw, .rw, 0, 0, 1⟩,
  ⟨0x04C, 0, 1, 31, 1, .w1s, .w1s, 0, 0, 1⟩,
  ⟨0x050, 0, 1, 0, 1, .ro, .ro, 0, 0, 1⟩,
  ⟨0x050, 0, 1, 1, 13, .ro, .ro, 0, 0, 1⟩]

/-- Registers of the queue layout. -/
def rows_queue : List FldRow := [
  ⟨0x040, 0, 1, 0, 1, .rw, .rw, 0, 0, 1⟩,
  ⟨0x040, 0, 1, 1, 4, .rw, .rw, 0, 0, 1⟩,
  ⟨0x040, 0, 1, 5, 2, .rw, .rw, 0, 0, 1⟩,
  ⟨0x040, 0, 1, 7, 1, .rw, .rw, 0, 0, 1⟩,
  ⟨0x040, 0, 1, 8, 1, .rw, .rw, 0, 0, 1⟩,
  ⟨0x040, 0, 1, 11, 17, .rw, .rw, 0, 0, 1⟩,
  ⟨0x044, 0, 1, 0, 16, .rw, .rw, 0, 0, 1⟩,
  ⟨0x048, 0, 1, 0, 16, .ro, .ro, 0, 0, 1⟩,
  ⟨0x04C, 0, 1, 0, 32, .rw, .rw, 0, 0, 1⟩,
  ⟨0x050, 0, 1, 0, 32, .rw, .rw, 0, 0, 1⟩,
  ⟨0x054, 0, 1, 0, 4, .rw, .rw, 0, 0, 1⟩,
  ⟨0x054, 0, 1, 8, 8, .rw, .rw, 0, 0, 1⟩,
  ⟨0x054, 0, 1, 16, 8, .rw, .rw, 0, 0, 1⟩,
  ⟨0x058, 0, 1, 0, 16, .rw, .rw, 0, 0, 1⟩,
  ⟨0x060, 0, 1, 0, 16, .ro, .ro, 0, 0, 1⟩,
  ⟨0x060, 0, 1, 16, 1, .ro, .ro, 0, 0, 1⟩,
  ⟨0x05C, 0, 1, 0, 20, .rw, .rw, 0, 0, 1⟩,
  ⟨0x05C, 0, 1, 20, 1, .rw, .rw, 0, 0, 1⟩,
  ⟨0x064, 0, 1, 0, 2, .ro, .ro, 0, 0, 1⟩,
  ⟨0x064, 0, 1, 2, 1, .ro, .ro, 0, 0, 1⟩,
  ⟨0x064, 0, 1, 3, 1, .ro, .ro, 0, 0, 1⟩,
  ⟨0x064, 0, 1, 4, 7, .ro, .ro, 0, 0, 1⟩,
  ⟨0x064, 0, 1, 16, 8, .ro, .ro, 0, 0, 1⟩]

/-- Registers of the tn9 layout. -/
def rows_tn9 : List FldRow := [
  ⟨0x040, 0, 1, 0, 22, .rw, .ro, 0, 0, 1⟩,
  ⟨0x044, 0, 1, 0, 22, .ro, .ro, 0, 0, 1⟩,
  ⟨0x048, 0, 1, 0, 32, .ro, .ro, 0, 0, 1⟩,
  ⟨0x04C, 0, 1, 0, 16, .ro, .ro, 0, 0, 1⟩,
  ⟨0x04C, 0, 1, 16, 16, .ro, .ro, 0, 0, 1⟩,
  ⟨0x050, 0, 1, 0, 3, .ro, .ro, 0, 0, 1⟩,
  ⟨0x050, 0, 1, 3, 2, .ro, .ro, 0, 0, 1⟩,
  ⟨0x050, 0, 1, 5, 3, .ro, .ro, 0, 0, 1⟩,
  ⟨0x050, 0, 1, 8, 22, .ro, .ro, 0, 0, 1⟩,
  ⟨0x054, 0, 1, 0, 22, .ro, .ro, 0, 0, 1⟩,
  ⟨0x054, 0, 1, 31, 1, .ro, .ro, 0, 0, 1⟩]

/-- Registers of the tn10 layout. -/
def rows_tn10 : List FldRow := [
  ⟨0x040, 0, 1, 0, 32, .ro, .ro, 0, 0, 1⟩,
  ⟨0x044, 0, 1, 0, 1, .w1s, .none, 0, 0, 1⟩,
  ⟨0x800, 4, 512, 0, 32, .ro, .ro, 0, 0, 1⟩]

/-- Registers of the tn11 layout. -/
def rows_tn11 : List FldRow := [
  ⟨0x040, 0, 1, 0, 13, .rw, .ro, 0, 0, 1⟩,
  ⟨0x044, 0, 1, 0, 13, .ro, .ro, 0, 0, 1⟩,
  ⟨0x048, 0, 1, 0, 16, .rw, .ro, 0, 0, 1⟩,
  ⟨0x048, 0, 1, 16, 16, .rw, .ro, 0, 0, 1⟩,
  ⟨0x04C, 0, 1, 0, 1, .rw, .ro, 0, 0, 1⟩,
  ⟨0x050, 0, 1, 0, 12, .rw, .rw, 0, 0, 1⟩,
  ⟨0x054, 0, 1, 0, 1, .ro, .ro, 0, 0, 1⟩,
  ⟨0x054, 0, 1, 1, 4, .ro, .ro, 0, 0, 1⟩,
  ⟨0x054, 0, 1, 5, 1, .ro, .ro, 0, 0, 1⟩,
  ⟨0x054, 0, 1, 6, 12, .ro, .ro, 0, 0, 1⟩]

/-- Registers of the tile layout. -/
def rows_tile : List FldRow := [
  ⟨0xF00, 0, 1, 0, 8, .ro, .none, 0, 0, 1⟩,
  ⟨0xF00, 0, 1, 8, 1, .ro, .none, 0, 0, 1⟩,
  ⟨0xF00, 0, 1, 9, 1, .ro, .none, 0, 0, 1⟩,
  ⟨0xF00, 0, 1, 10, 1, .ro, .none, 0, 0, 1⟩,
  ⟨0xF00, 0, 1, 11, 4, .ro, .none, 0, 0, 1⟩,
  ⟨0xF00, 0, 1, 15, 1, .ro, .none, 0, 0, 1⟩,
  ⟨0x040, 0, 1, 0, 1, .ro, .none, 0, 0, 1⟩,
  ⟨0x040, 0, 1, 1, 1, .ro, .none, 0, 0, 1⟩,
  ⟨0x040, 0, 1, 2, 6, .ro, .none, 0, 0, 1⟩,
  ⟨0x040, 0, 1, 8, 7, .ro, .none, 0, 0, 1⟩]

/-- Registers of the thmTile layout. -/
def rows_thmTile : List FldRow := [
  ⟨0x080, 4, 28, 0, 11, .ro, .none, 0, 0, 1⟩,
  ⟨0x080, 4, 28, 11, 1, .ro, .none, 0, 0, 1⟩,
  ⟨0x040, 0, 1, 0, 11, .ro, .none, 0, 0, 1⟩,
  ⟨0x040, 0, 1, 11, 11, .ro, .none, 0, 0, 1⟩,
  ⟨0x040, 0, 1, 22, 2, .ro, .none, 0, 0, 1⟩,
  ⟨0x040, 0, 1, 24, 2, .ro, .none, 0, 0, 1⟩,
  ⟨0x040, 0, 1, 26, 5, .ro, .none, 0, 0, 1⟩,
  ⟨0x044, 0, 1, 0, 11, .ro, .none, 0, 0, 1⟩,
  ⟨0x044, 0, 1, 11, 5, .ro, .none, 0, 0, 1⟩,
  ⟨0x044, 0, 1, 16, 4, .ro, .none, 0, 0, 1⟩,
  ⟨0x100, 0, 1, 0, 32, .ro, .none, 0, 0, 1⟩,
  ⟨0x104, 0, 1, 0, 32, .ro, .none, 0, 0, 1⟩]

/-- Registers of the pwrTile layout. -/
def rows_pwrTile : List FldRow := [
  ⟨0x040, 0, 1, 0, 5, .ro, .none, 0, 0, 1⟩,
  ⟨0x040, 0, 1, 5, 5, .ro, .none, 0, 0, 1⟩,
  ⟨0x040, 0, 1, 10, 4, .ro, .none, 0, 0, 1⟩,
  ⟨0x040, 0, 1, 14, 1, .ro, .none, 0, 0, 1⟩,
  ⟨0x040, 0, 1, 15, 1, .ro, .none, 0, 0, 1⟩,
  ⟨0x040, 0, 1, 16, 10, .ro, .none, 0, 0, 1⟩,
  ⟨0x040, 0, 1, 26, 1, .ro, .none, 0, 0, 1⟩,
  ⟨0x044, 0, 1, 0, 5, .rw, .none, 0, 0, 1⟩,
  ⟨0x048, 0, 1, 0, 10, .ro, .none, 0, 0, 1⟩,
  ⟨0x048, 0, 1, 10, 12, .ro, .none, 0, 0, 1⟩,
  ⟨0x04C, 0, 1, 0, 32, .ro, .none, 0, 0, 1⟩,
  ⟨0x050, 0, 1, 0, 32, .ro, .none, 0, 0, 1⟩,
  ⟨0x054, 0, 1, 0, 4, .rwl, .none, 2, 0, 1⟩,
  ⟨0x054, 0, 1, 4, 3, .rwl, .none, 4, 0, 1⟩,
  ⟨0x058, 0, 1, 0, 3, .ro, .none, 0, 0, 1⟩,
  ⟨0x058, 0, 1, 3, 2, .ro, .none, 0, 0, 1⟩,
  ⟨0x058, 0, 1, 5, 3, .ro, .none, 0, 0, 1⟩,
  ⟨0x058, 0, 1, 8, 2, .ro, .none, 0, 0, 1⟩,
  ⟨0x058, 0, 1, 10, 1, .ro, .none, 0, 0, 1⟩,
  ⟨0x058, 0, 1, 31, 1, .ro, .none, 0, 0, 1⟩,
  ⟨0x080, 8, 8, 0, 3, .ro, .none, 0, 0, 1⟩,
  ⟨0x080, 8, 8, 3, 3, .ro, .none, 0, 3, 8⟩,
  ⟨0x084, 8, 8, 0, 3, .ro, .none, 0, 3, 8⟩]

/-- Registers of the lnk layout. -/
def rows_lnk : List FldRow := [
  ⟨0x040, 0, 1, 0, 1, .rwl, .none, 1, 0, 1⟩,
  ⟨0x040, 0, 1, 1, 1, .w1s, .none, 0, 0, 1⟩,
  ⟨0x040, 0, 1, 2, 1, .rwl, .none, 0, 0, 1⟩,
  ⟨0x040, 0, 1, 3, 1, .w1s, .none, 0, 0, 1⟩,
  ⟨0x040, 0, 1, 4, 4, .rwl, .none, 8, 0, 1⟩,
  ⟨0x040, 0, 1, 8, 8, .rwl, .none, 64, 0, 1⟩,
  ⟨0x044, 0, 1, 0, 4, .ro, .none, 0, 0, 1⟩,
  ⟨0x044, 0, 1, 4, 4, .ro, .none, 15, 0, 1⟩,
  ⟨0x044, 0, 1, 8, 8, .ro, .none, 0, 0, 1⟩,
  ⟨0x044, 0, 1, 16, 8, .ro, .none, 0, 0, 1⟩,
  ⟨0x044, 0, 1, 24, 7, .ro, .none, 0, 0, 1⟩,
  ⟨0x048, 0, 1, 0, 16, .ro, .none, 0, 0, 1⟩,
  ⟨0x048, 0, 1, 16, 16, .ro, .none, 0, 0, 1⟩,
  ⟨0x04C, 0, 1, 0, 16, .ro, .none, 0, 0, 1⟩,
  ⟨0x04C, 0, 1, 16, 16, .ro, .none, 0, 0, 1⟩,
  ⟨0x050, 0, 1, 0, 6, .ro, .none, 0, 0, 1⟩,
  ⟨0x050, 0, 1, 8, 6, .ro, .none, 0, 0, 1⟩]

/-- Registers of the clu layout. -/
def rows_clu : List FldRow := [
  ⟨0xF00, 0, 1, 0, 32, .ro, .none, 0, 0, 1⟩,
  ⟨0xF04, 0, 1, 0, 32, .ro, .none, 0, 0, 1⟩,
  ⟨0xF08, 0, 1, 0, 1, .ro, .none, 0, 0, 1⟩,
  ⟨0xF08, 0, 1, 1, 1, .ro, .none, 0, 0, 1⟩,
  ⟨0xF08, 0, 1, 2, 1, .ro, .none, 0, 0, 1⟩,
  ⟨0xF08, 0, 1, 3, 1, .ro, .none, 0, 0, 1⟩,
  ⟨0x040, 0, 1, 0, 3, .ro, .none, 0, 3, 7⟩,
  ⟨0x040, 0, 1, 21, 7, .ro, .none, 0, 0, 1⟩,
  ⟨0x040, 0, 1, 28, 1, .ro, .none, 0, 0, 1⟩,
  ⟨0x040, 0, 1, 29, 3, .ro, .none, 0, 0, 1⟩,
  ⟨0x044, 0, 1, 0, 2, .ro, .none, 0, 2, 8⟩,
  ⟨0x044, 0, 1, 16, 8, .ro, .none, 0, 0, 1⟩]

/-- Registers of the kvw layout. -/
def rows_kvw : List FldRow := [
  ⟨0x040, 0, 1, 0, 7, .ro, .none, 0, 0, 1⟩,
  ⟨0x040, 0, 1, 7, 4, .ro, .none, 0, 0, 1⟩,
  ⟨0x044, 0, 1, 0, 32, .ro, .none, 0, 0, 1⟩,
  ⟨0x048, 0, 1, 0, 32, .ro, .none, 0, 0, 1⟩,
  ⟨0x04C, 0, 1, 0, 8, .ro, .none, 0, 0, 1⟩,
  ⟨0x04C, 0, 1, 8, 3, .ro, .none, 0, 0, 1⟩,
  ⟨0x04C, 0, 1, 31, 1, .ro, .none, 0, 0, 1⟩,
  ⟨0x050, 0, 1, 0, 1, .w1s, .none, 0, 0, 1⟩]

/-- Registers of the atu layout. -/
def rows_atu : List FldRow := [
  ⟨0x048, 0, 1, 0, 8, .ro, .none, 0, 0, 1⟩,
  ⟨0x048, 0, 1, 8, 3, .ro, .none, 0, 0, 1⟩,
  ⟨0x048, 0, 1, 31, 1, .ro, .none, 0, 0, 1⟩,
  ⟨0x040, 0, 1, 0, 1, .ro, .none, 0, 0, 1⟩,
  ⟨0x040, 0, 1, 1, 3, .ro, .none, 0, 0, 1⟩,
  ⟨0x040, 0, 1, 4, 6, .ro, .none, 0, 0, 1⟩,
  ⟨0x044, 0, 1, 0, 32, .ro, .none, 0, 0, 1⟩,
  ⟨0x04C, 0, 1, 0, 32, .ro, .none, 0, 0, 1⟩,
  ⟨0x050, 0, 1, 0, 32, .ro, .none, 0, 0, 1⟩]

/-- Registers of the scbC layout. -/
def rows_scbC : List FldRow := [
  ⟨0x048, 0, 1, 0, 16, .ro, .none, 0, 0, 1⟩,
  ⟨0x048, 0, 1, 16, 16, .ro, .none, 0, 0, 1⟩,
  ⟨0x04C, 0, 1, 0, 16, .rwl, .none, 256, 0, 1⟩,
  ⟨0x04C, 0, 1, 16, 8, .rwl, .none, 24, 0, 1⟩,
  ⟨0x050, 0, 1, 0, 1, .w1s, .none, 0, 0, 1⟩,
  ⟨0x050, 0, 1, 1, 3, .rw, .none, 0, 0, 1⟩,
  ⟨0x050, 0, 1, 4, 1, .ro, .none, 0, 0, 1⟩,
  ⟨0x050, 0, 1, 5, 1, .ro, .none, 0, 0, 1⟩,
  ⟨0x050, 0, 1, 8, 8, .ro, .none, 0, 0, 1⟩,
  ⟨0x040, 0, 1, 0, 1, .rwl, .none, 1, 0, 1⟩,
  ⟨0x040, 0, 1, 1, 15, .rwl, .none, 1000, 0, 1⟩,
  ⟨0x044, 0, 1, 0, 16, .ro, .none, 0, 0, 1⟩,
  ⟨0x044, 0, 1, 16, 1, .ro, .none, 0, 0, 1⟩,
  ⟨0x044, 0, 1, 17, 15, .ro, .none, 0, 0, 1⟩]

/-- Registers of the core layout. -/
def rows_core : List FldRow := [
  ⟨0x040, 0, 1, 0, 3, .ro, .none, 0, 0, 1⟩,
  ⟨0x040, 0, 1, 3, 3, .ro, .none, 0, 0, 1⟩,
  ⟨0x040, 0, 1, 6, 3, .ro, .none, 0, 0, 1⟩,
  ⟨0x040, 0, 1, 9, 3, .ro, .none, 0, 0, 1⟩,
  ⟨0x040, 0, 1, 12, 7, .ro, .none, 0, 0, 1⟩,
  ⟨0x040, 0, 1, 19, 3, .ro, .none, 0, 0, 1⟩,
  ⟨0x040, 0, 1, 22, 1, .ro, .none, 0, 0, 1⟩,
  ⟨0x044, 0, 1, 0, 16, .ro, .none, 0, 0, 1⟩,
  ⟨0x044, 0, 1, 16, 3, .ro, .none, 0, 0, 1⟩,
  ⟨0x048, 0, 1, 0, 32, .ro, .none, 0, 0, 1⟩,
  ⟨0x04C, 0, 1, 0, 19, .ro, .none, 0, 0, 1⟩,
  ⟨0x04C, 0, 1, 31, 1, .ro, .none, 0, 0, 1⟩,
  ⟨0x050, 0, 1, 0, 8, .ro, .none, 0, 0, 1⟩,
  ⟨0x050, 0, 1, 8, 19, .ro, .none, 0, 0, 1⟩,
  ⟨0x050, 0, 1, 27, 2, .ro, .none, 0, 0, 1⟩,
  ⟨0x050, 0, 1, 31, 1, .ro, .none, 0, 0, 1⟩,
  ⟨0x054, 0, 1, 0, 32, .ro, .none, 0, 0, 1⟩,
  ⟨0x058, 0, 1, 0, 32, .ro, .none, 0, 0, 1⟩,
  ⟨0x05C, 0, 1, 0, 16, .ro, .none, 0, 0, 1⟩,
  ⟨0x05C, 0, 1, 16, 5, .ro, .none, 0, 0, 1⟩,
  ⟨0x05C, 0, 1, 21, 6, .ro, .none, 0, 0, 1⟩,
  ⟨0x05C, 0, 1, 27, 4, .ro, .none, 0, 0, 1⟩,
  ⟨0x060, 16, 8, 0, 19, .ro, .none, 0, 0, 1⟩,
  ⟨0x064, 16, 8, 0, 20, .ro, .none, 0, 0, 1⟩,
  ⟨0x068, 16, 8, 0, 16, .ro, .none, 0, 0, 1⟩,
  ⟨0x068, 16, 8, 16, 7, .ro, .none, 0, 0, 1⟩,
  ⟨0x068, 16, 8, 23, 1, .ro, .none, 0, 0, 1⟩,
  ⟨0x068, 16, 8, 31, 1, .ro, .none, 0, 0, 1⟩,
  ⟨0x0E0, 0, 1, 0, 32, .ro, .none, 0, 0, 1⟩]

/-- Registers of the mxe layout. -/
def rows_mxe : List FldRow := [
  ⟨0x040, 0, 1, 0, 1, .ro, .none, 0, 0, 1⟩,
  ⟨0x040, 0, 1, 1, 3, .ro, .none, 0, 0, 1⟩,
  ⟨0x044, 0, 1, 0, 32, .ro, .none, 0, 0, 1⟩,
  ⟨0x048, 0, 1, 0, 32, .ro, .none, 0, 0, 1⟩]

/-- Registers of the tgu layout. -/
def rows_tgu : List FldRow := [
  ⟨0x040, 0, 1, 0, 6, .ro, .none, 0, 0, 1⟩,
  ⟨0x040, 0, 1, 6, 7, .ro, .none, 0, 0, 1⟩,
  ⟨0x040, 0, 1, 13, 5, .ro, .none, 0, 0, 1⟩,
  ⟨0x044, 0, 1, 0, 32, .ro, .none, 0, 0, 1⟩,
  ⟨0x048, 0, 1, 0, 32, .ro, .none, 0, 0, 1⟩]

/-- Registers of the mov layout. -/
def rows_mov : List FldRow := [
  ⟨0x040, 0, 1, 0, 3, .ro, .none, 0, 0, 1⟩,
  ⟨0x040, 0, 1, 3, 6, .ro, .none, 0, 0, 1⟩,
  ⟨0x040, 0, 1, 9, 10, .ro, .none, 0, 0, 1⟩,
  ⟨0x040, 0, 1, 19, 1, .ro, .none, 0, 0, 1⟩,
  ⟨0x044, 0, 1, 0, 8, .ro, .none, 0, 0, 1⟩,
  ⟨0x044, 0, 1, 8, 4, .ro, .none, 0, 0, 1⟩,
  ⟨0x044, 0, 1, 12, 4, .ro, .none, 0, 0, 1⟩,
  ⟨0x044, 0, 1, 31, 1, .ro, .none, 0, 0, 1⟩,
  ⟨0x048, 0, 1, 0, 32, .ro, .none, 0, 0, 1⟩,
  ⟨0x04C, 0, 1, 0, 32, .ro, .none, 0, 0, 1⟩,
  ⟨0x050, 0, 1, 0, 32, .ro, .none, 0, 0, 1⟩]

/-- Registers of the sto layout. -/
def rows_sto : List FldRow := [
  ⟨0x040, 0, 1, 0, 1, .ro, .none, 0, 0, 1⟩,
  ⟨0x040, 0, 1, 1, 1, .ro, .none, 0, 0, 1⟩,
  ⟨0x040, 0, 1, 2, 1, .ro, .none, 0, 0, 1⟩,
  ⟨0x044, 0, 1, 0, 7, .rw, .none, 0, 0, 1⟩,
  ⟨0x044, 0, 1, 7, 1, .rw, .none, 0, 0, 1⟩,
  ⟨0x044, 0, 1, 8, 7, .rw, .none, 0, 0, 1⟩,
  ⟨0x044, 0, 1, 15, 1, .rw, .none, 0, 0, 1⟩,
  ⟨0x044, 0, 1, 16, 7, .rw, .none, 0, 0, 1⟩,
  ⟨0x044, 0, 1, 23, 1, .rw, .none, 0, 0, 1⟩,
  ⟨0x048, 0, 1, 0, 32, .ro, .none, 0, 0, 1⟩,
  ⟨0x04C, 0, 1, 0, 32, .ro, .none, 0, 0, 1⟩]

/-- Registers of the slc layout. -/
def rows_slc : List FldRow := [
  ⟨0x040, 0, 1, 0, 3, .ro, .none, 0, 0, 1⟩,
  ⟨0x040, 0, 1, 3, 2, .ro, .none, 0, 0, 1⟩,
  ⟨0x040, 0, 1, 5, 1, .ro, .none, 0, 0, 1⟩,
  ⟨0x040, 0, 1, 6, 2, .ro, .none, 0, 0, 1⟩,
  ⟨0x040, 0, 1, 8, 4, .ro, .none, 0, 0, 1⟩,
  ⟨0x044, 0, 1, 0, 3, .ro, .none, 0, 0, 1⟩,
  ⟨0x044, 0, 1, 3, 1, .ro, .none, 0, 0, 1⟩,
  ⟨0x044, 0, 1, 4, 9, .ro, .none, 0, 0, 1⟩,
  ⟨0x044, 0, 1, 13, 10, .ro, .none, 0, 0, 1⟩,
  ⟨0x044, 0, 1, 23, 3, .ro, .none, 0, 0, 1⟩,
  ⟨0x048, 0, 1, 0, 2, .ro, .none, 0, 0, 1⟩,
  ⟨0x048, 0, 1, 2, 9, .ro, .none, 0, 0, 1⟩,
  ⟨0x048, 0, 1, 11, 9, .ro, .none, 0, 0, 1⟩,
  ⟨0x048, 0, 1, 20, 1, .ro, .none, 0, 0, 1⟩,
  ⟨0x04C, 0, 1, 0, 9, .ro, .none, 0, 0, 1⟩,
  ⟨0x04C, 0, 1, 9, 1, .ro, .none, 0, 0, 1⟩,
  ⟨0x050, 0, 1, 0, 16, .ro, .none, 0, 0, 1⟩,
  ⟨0x050, 0, 1, 16, 16, .ro, .none, 0, 0, 1⟩,
  ⟨0x054, 0, 1, 0, 8, .rwl, .none, 16, 0, 1⟩,
  ⟨0x054, 0, 1, 8, 1, .w1s, .none, 0, 0, 1⟩,
  ⟨0x054, 0, 1, 9, 2, .rwl, .none, 0, 0, 1⟩,
  ⟨0x058, 0, 1, 0, 8, .ro, .none, 0, 0, 1⟩,
  ⟨0x058, 0, 1, 8, 1, .ro, .none, 0, 0, 1⟩,
  ⟨0x058, 0, 1, 16, 16, .ro, .none, 0, 0, 1⟩,
  ⟨0x05C, 0, 1, 0, 32, .ro, .none, 0, 0, 1⟩,
  ⟨0x060, 0, 1, 0, 32, .ro, .none, 0, 0, 1⟩]

/-- Registers of the scbP layout. -/
def rows_scbP : List FldRow := [
  ⟨0x040, 0, 1, 0, 1, .rwl, .none, 1, 0, 1⟩,
  ⟨0x040, 0, 1, 1, 16, .rwl, .none, 1440, 0, 1⟩,
  ⟨0x044, 0, 1, 0, 16, .ro, .none, 0, 0, 1⟩,
  ⟨0x044, 0, 1, 16, 7, .ro, .none, 0, 0, 1⟩,
  ⟨0x044, 0, 1, 23, 1, .ro, .none, 0, 0, 1⟩,
  ⟨0x048, 0, 1, 0, 16, .ro, .none, 0, 0, 1⟩,
  ⟨0x048, 0, 1, 16, 16, .ro, .none, 0, 0, 1⟩,
  ⟨0x04C, 0, 1, 0, 16, .rwl, .none, 256, 0, 1⟩,
  ⟨0x04C, 0, 1, 16, 8, .rwl, .none, 24, 0, 1⟩,
  ⟨0x050, 0, 1, 0, 1, .w1s, .none, 0, 0, 1⟩,
  ⟨0x050, 0, 1, 1, 3, .rw, .none, 0, 0, 1⟩,
  ⟨0x050, 0, 1, 4, 1, .ro, .none, 0, 0, 1⟩,
  ⟨0x050, 0, 1, 5, 1, .ro, .none, 0, 0, 1⟩,
  ⟨0x050, 0, 1, 8, 8, .ro, .none, 0, 0, 1⟩]

/-- The register table of a layout. -/
def Layout.rows : Layout → List FldRow
  | .hub0 => rows_hub0
  | .hub1 => rows_hub1
  | .hub2 => rows_hub2
  | .pt => rows_pt
  | .boot => rows_boot
  | .ser => rows_ser
  | .hmp0 => rows_hmp0
  | .hmp1 => rows_hmp1
  | .hmp2 => rows_hmp2
  | .hmp3 => rows_hmp3
  | .hmpMap => rows_hmpMap
  | .disp0 => rows_disp0
  | .disp1 => rows_disp1
  | .disp2 => rows_disp2
  | .disp4 => rows_disp4
  | .disp5 => rows_disp5
  | .disp6 => rows_disp6
  | .kpm0 => rows_kpm0
  | .kpm1 => rows_kpm1
  | .hpt => rows_hpt
  | .stp0 => rows_stp0
  | .stpPort => rows_stpPort
  | .stpPeer => rows_stpPeer
  | .stpCtx => rows_stpCtx
  | .vce0 => rows_vce0
  | .vce1 => rows_vce1
  | .hpc => rows_hpc
  | .mgt => rows_mgt
  | .trl => rows_trl
  | .thm0 => rows_thm0
  | .thm1 => rows_thm1
  | .pwrHub => rows_pwrHub
  | .scbH => rows_scbH
  | .tn0 => rows_tn0
  | .queue => rows_queue
  | .tn9 => rows_tn9
  | .tn10 => rows_tn10
  | .tn11 => rows_tn11
  | .tile => rows_tile
  | .thmTile => rows_thmTile
  | .pwrTile => rows_pwrTile
  | .lnk => rows_lnk
  | .clu => rows_clu
  | .kvw => rows_kvw
  | .atu => rows_atu
  | .scbC => rows_scbC
  | .core => rows_core
  | .mxe => rows_mxe
  | .tgu => rows_tgu
  | .mov => rows_mov
  | .sto => rows_sto
  | .slc => rows_slc
  | .scbP => rows_scbP

end Sys2Proof.Machine
end

