-- ==== Sys2Proof/Machine/Pages.lean ====
section
/-! DEFINITION. The privileged address map (03 R60-R63): the page number (byte address / 4096) of every register page, its layout and identity, the events each layout defines, and the reset value of every field. -/
namespace Sys2Proof.Machine

/-! Page numbers. -/
namespace P
/-- HUB page n (window 0). -/
def hub (n : Nat) : Nat := n
def boot : Nat := 0x10
/-- Hub end of the bundle of tile t. -/
def serHub (t : Nat) : Nat := 0x20 + t
def hmp (n : Nat) : Nat := 0x30 + n
def disp (n : Nat) : Nat := 0x40 + n
def kpm (n : Nat) : Nat := 0x50 + n
def hpt (n : Nat) : Nat := 0x60 + 4 * n
def stp (n : Nat) : Nat := 0x70 + n
/-- VCE page k of engine n. -/
def vce (n k : Nat) : Nat := 0x80 + 4 * n + k
def hpc (h : Nat) : Nat := 0x90 + h
def mgt : Nat := 0xA0
def trl : Nat := 0xB0
def thm (n : Nat) : Nat := 0xC0 + n
def pwr : Nat := 0xD0
def scbH : Nat := 0xE0
/-- Page k of tenant n's window. -/
def ten (n k : Nat) : Nat := 0x400 + 16 * n + k
/-- Queue page of tenant n, queue q. -/
def queue (n q : Nat) : Nat := 0x400 + 16 * n + (q + 1)
def pt (p : Nat) : Nat := 8 + p
def tile (t : Nat) : Nat := 0x1000 + 0x800 * t
def thmT (t : Nat) : Nat := 0x1000 + 0x800 * t + 1
def pwrT (t : Nat) : Nat := 0x1000 + 0x800 * t + 2
def lnk (t d : Nat) : Nat := 0x1000 + 0x800 * t + 0x10 + d
def serTile (t : Nat) : Nat := 0x1000 + 0x800 * t + 0x18
/-- CLU page of cluster cl = 8t + c. -/
def clu (cl : Nat) : Nat := 0x1000 + 0x800 * (cl / 8) + 0x100 + 0x80 * (cl % 8)
def kvw (cl : Nat) : Nat := clu cl + 1
def atu (cl : Nat) : Nat := clu cl + 2
def scbC (cl : Nat) : Nat := clu cl + 3
/-- Page k of physical core x = 64t + 8c + p. -/
def corePg (x k : Nat) : Nat := clu (x / 8) + 0x40 + 8 * (x % 8) + k
def core (x : Nat) : Nat := corePg x 0
def mxe (x : Nat) : Nat := corePg x 1
def tgu (x : Nat) : Nat := corePg x 2
def mov (x : Nat) : Nat := corePg x 3
def sto (x : Nat) : Nat := corePg x 4
def slc (x : Nat) : Nat := corePg x 5
def scbP (x : Nat) : Nat := corePg x 6
/-- Page of stream context k (11 R287). -/
def stream (k : Nat) : Nat := 0x74 + k / 64
/-- Compartment map page of compartment c. -/
def cmap (c : Nat) : Nat := 0x34 + c / 512
end P

/-! Header fields (03 R50-R53). -/
namespace F
def PG_CTL_err_rearm : Fld := ⟨0x00C, 30, 1⟩
def PG_CTL_err_clr : Fld := ⟨0x00C, 31, 1⟩
def PG_INT_STS : Fld := ⟨0x014, 0, 32⟩
def PG_INT_EN : Fld := ⟨0x018, 0, 32⟩
def PG_ERR_CNT : Fld := ⟨0x020, 0, 16⟩
def PG_ERR_FIRST_code : Fld := ⟨0x024, 0, 8⟩
def PG_ERR_FIRST_requester : Fld := ⟨0x024, 8, 8⟩
def PG_ERR_FIRST_valid : Fld := ⟨0x024, 16, 1⟩
def PG_ERR_ADDR_LO : Fld := ⟨0x028, 0, 32⟩
def PG_ERR_ADDR_HI : Fld := ⟨0x02C, 0, 32⟩
def PG_LOCK_locked : Fld := ⟨0x034, 0, 1⟩
end F

/-- What a page is: its layout, its PG_ID fields and its place in a tenant window. -/
structure PageInfo where
  layout : Layout
  block : Nat
  page : Nat
  inst : Nat
  tenantPage : Bool
deriving DecidableEq, Repr

/-- A hub-window page (03 R60, R62). -/
def hubPage (pg : Nat) : Option PageInfo :=
  let w := pg / 16
  let n := pg % 16
  match w with
  | 0 => match n with
    | 0 => some ⟨.hub0, 0x01, 0, 0, false⟩
    | 1 => some ⟨.hub1, 0x01, 1, 0, false⟩
    | 2 => some ⟨.hub2, 0x01, 2, 0, false⟩
    | _ => if n < 8 then none else some ⟨.pt, 0x01, n, 0, false⟩
  | 1 => if n = 0 then some ⟨.boot, 0x0D, 0, 0, false⟩ else none
  | 2 => if n < 8 then some ⟨.ser, 0x1B, 1, n, false⟩ else none
  | 3 => match n with
    | 0 => some ⟨.hmp0, 0x02, 0, 0, false⟩
    | 1 => some ⟨.hmp1, 0x02, 1, 0, false⟩
    | 2 => some ⟨.hmp2, 0x02, 2, 0, false⟩
    | 3 => some ⟨.hmp3, 0x02, 3, 0, false⟩
    | _ => if n < 12 then some ⟨.hmpMap, 0x02, n, 0, false⟩ else none
  | 4 => match n with
    | 0 => some ⟨.disp0, 0x03, 0, 0, false⟩
    | 1 => some ⟨.disp1, 0x03, 1, 0, false⟩
    | 2 => some ⟨.disp2, 0x03, 2, 0, false⟩
    | 4 => some ⟨.disp4, 0x03, 4, 0, false⟩
    | 5 => some ⟨.disp5, 0x03, 5, 0, false⟩
    | 6 => some ⟨.disp6, 0x03, 6, 0, false⟩
    | _ => none
  | 5 => match n with
    | 0 => some ⟨.kpm0, 0x05, 0, 0, false⟩
    | 1 => some ⟨.kpm1, 0x05, 1, 0, false⟩
    | _ => none
  | 6 => if n % 4 = 0 then some ⟨.hpt, 0x08, 0, n / 4, false⟩ else none
  | 7 => match n with
    | 0 => some ⟨.stp0, 0x07, 0, 0, false⟩
    | 1 => some ⟨.stpPort, 0x07, 1, 0, false⟩
    | 2 => some ⟨.stpPort, 0x07, 2, 0, false⟩
    | 3 => some ⟨.stpPeer, 0x07, 3, 0, false⟩
    | _ => if n < 12 then some ⟨.stpCtx, 0x07, n, 0, false⟩ else none
  | 8 => if n % 4 = 0 then some ⟨.vce0, 0x06, 0, n / 4, false⟩
         else if n % 4 = 1 then some ⟨.vce1, 0x06, 1, n / 4, false⟩ else none
  | 9 => some ⟨.hpc, 0x04, 0, n, false⟩
  | 10 => if n = 0 then some ⟨.mgt, 0x09, 0, 0, false⟩ else none
  | 11 => if n = 0 then some ⟨.trl, 0x0C, 0, 0, false⟩ else none
  | 12 => match n with
    | 0 => some ⟨.thm0, 0x0A, 0, 8, false⟩
    | 1 => some ⟨.thm1, 0x0A, 1, 8, false⟩
    | _ => none
  | 13 => if n = 0 then some ⟨.pwrHub, 0x0B, 0, 8, false⟩ else none
  | 14 => if n = 0 then some ⟨.scbH, 0x1C, 2, 0, false⟩ else none
  | _ => none

/-- A page of a tenant window (03 R63). -/
def tenantPage (n k : Nat) : Option PageInfo :=
  match k with
  | 0 => some ⟨.tn0, 0x03, 0, n, true⟩
  | 9 => some ⟨.tn9, 0x05, 9, n, true⟩
  | 10 => some ⟨.tn10, 0x01, 10, n, true⟩
  | 11 => some ⟨.tn11, 0x02, 11, n, true⟩
  | _ => if k < 9 then some ⟨.queue, 0x03, k, n, true⟩ else none

/-- A page of tile `t`, at page offset `o` of its 8 MiB (03 R60, R62). -/
def tilePage (t o : Nat) : Option PageInfo :=
  if o < 0x100 then
    if o = 0 then some ⟨.tile, 0x10, 0, t, false⟩
    else if o = 1 then some ⟨.thmTile, 0x0A, 0, t, false⟩
    else if o = 2 then some ⟨.pwrTile, 0x0B, 0, t, false⟩
    else if 0x10 ≤ o ∧ o < 0x14 then some ⟨.lnk, 0x1A, 0, 4 * t + (o - 0x10), false⟩
    else if o = 0x18 then some ⟨.ser, 0x1B, 0, t, false⟩
    else none
  else if o < 0x500 then
    let c := (o - 0x100) / 0x80
    let r := (o - 0x100) % 0x80
    let cl := 8 * t + c
    if r < 0x40 then
      match r with
      | 0 => some ⟨.clu, 0x11, 0, cl, false⟩
      | 1 => some ⟨.kvw, 0x19, 0, cl, false⟩
      | 2 => some ⟨.atu, 0x18, 0, cl, false⟩
      | 3 => some ⟨.scbC, 0x1C, 1, cl, false⟩
      | _ => none
    else
      let x := 8 * cl + (r - 0x40) / 8
      match (r - 0x40) % 8 with
      | 0 => some ⟨.core, 0x12, 0, x, false⟩
      | 1 => some ⟨.mxe, 0x13, 0, x, false⟩
      | 2 => some ⟨.tgu, 0x14, 0, x, false⟩
      | 3 => some ⟨.mov, 0x15, 0, x, false⟩
      | 4 => some ⟨.sto, 0x16, 0, x, false⟩
      | 5 => some ⟨.slc, 0x17, 0, x, false⟩
      | 6 => some ⟨.scbP, 0x1C, 0, x, false⟩
      | _ => none
  else none

/-- What stands at page number `pg` of the privileged view; `none` for a reserved page or range (03 R60). -/
def pageInfo (pg : Nat) : Option PageInfo :=
  if pg < 0xF0 then hubPage pg
  else if 0x400 ≤ pg ∧ pg < 0xC00 then tenantPage ((pg - 0x400) / 16) ((pg - 0x400) % 16)
  else if 0x1000 ≤ pg ∧ pg < 0x5000 then tilePage ((pg - 0x1000) / 0x800) ((pg - 0x1000) % 0x800)
  else none

/-- The tile of a page, where it lies in one. -/
def pageTile (pg : Nat) : Option Nat :=
  if 0x1000 ≤ pg ∧ pg < 0x5000 then some ((pg - 0x1000) / 0x800) else none

/-- The tenant of a page, where it is a tenant page. -/
def pageTenant (pg : Nat) : Option Nat :=
  if 0x400 ≤ pg ∧ pg < 0xC00 then some ((pg - 0x400) / 16) else none

/-- Key of a field in the register file. -/
def fkey (pg : Nat) (f : Fld) : Nat := (pg * 4096 + f.off) * 32 + f.lo

/-- The neighbour of tile `t` at port `d` (0 E, 1 W, 2 N, 3 S), where the position has one (02, Tile position). -/
def neighbour (t d : Nat) : Option Nat :=
  match d with
  | 0 => if t % 4 < 3 then some (t + 1) else none
  | 1 => if 0 < t % 4 then some (t - 1) else none
  | 2 => if 4 ≤ t then some (t - 4) else none
  | _ => if t < 4 then some (t + 4) else none

/-- The port opposite to `d`. -/
def opposite (d : Nat) : Nat :=
  match d with | 0 => 1 | 1 => 0 | 2 => 3 | _ => 2

/-- The next tile from `a` towards `b` along a row. -/
def rowStep (a b : Nat) : Nat := if b % 4 > a % 4 then 0 else 1

/-- Default route entry of SER_ROUTE from tile `t` to tile `u`: row first on VC0 (02 R36, R48); 0xF for the tile itself. -/
def defaultRoute (t u : Nat) : Nat :=
  if t = u then 0xF
  else if t % 4 ≠ u % 4 then rowStep t u
  else if u / 4 < t / 4 then 2 else 3

/-- Reset values the register tables leave to a sample (S), a fuse (F) or another rule; `none` where the table states the value. Samples and fuses: log entries 4 and 5. -/
def resetSpecial (pg off lo : Nat) : Option Nat :=
  if pg = 0 then
    if off = 0x048 ∧ lo = 10 then some 0 else if off = 0x40 ∧ lo = 0 then some 2 else none
  else if pg = P.boot then
    if off = 0x048 then (if lo = 4 then some 8 else if lo = 8 then some 1 else none)
    else if off = 0x04C then (if lo = 0 then some 0xA1 else none)
    else if off = 0x054 then
      (if lo = 0 then some 1800 else if lo = 12 then some 150 else if lo = 20 then some 180 else if lo = 28 then some 10 else none)
    else none
  else if pg = 0x31 then
    if 0x040 ≤ off ∧ off < 0x080 then
      let k := (off - 0x40) / 4
      some (if k = 7 then 8 else if k = 5 ∨ k = 6 then 2 else 4)
    else none
  else if 0x94 ≤ pg ∧ pg < 0xA0 then
    if off = 0x040 ∧ lo = 0 then some 1 else none
  else if pg = P.mgt then
    if off = 0x044 ∧ lo = 13 then some 2 else none
  else if pg = P.pwr then
    if off = 0x040 ∧ lo = 2 then some 24
    else if off = 0x044 then (if lo = 0 then some 150 else if lo = 8 then some 180 else none)
    else none
  else match pageInfo pg with
    | some ⟨.lnk, _, _, i, _⟩ =>
      if off = 0x044 ∧ lo = 0 then some (if (neighbour (i / 4) (i % 4)).isSome then 1 else 0) else none
    | some ⟨.ser, _, 0, t, _⟩ =>
      if off = 0x050 then (if lo = 0 then some t else if lo = 4 then some 1 else none)
      else if off = 0x054 then some (defaultRoute t (lo / 4))
      else none
    | some ⟨.pwrTile, _, _, _, _⟩ => if off = 0x044 ∧ lo = 0 then some 24 else none
    | _ => none

/-- Whether a row of a register table names the field at (off, lo). -/
def FldRow.hits (r : FldRow) (off lo : Nat) : Bool :=
  (if r.stride = 0 then off == r.off
   else decide (r.off ≤ off) && (off - r.off) % r.stride == 0 && decide ((off - r.off) / r.stride < r.cnt)) &&
  (if r.bstride = 0 then lo == r.lo
   else decide (r.lo ≤ lo) && (lo - r.lo) % r.bstride == 0 && decide ((lo - r.lo) / r.bstride < r.bcnt))

/-- Whether a row of a register table lies in the register at `off`. -/
def FldRow.atOff (r : FldRow) (off : Nat) : Bool :=
  if r.stride = 0 then off == r.off
  else decide (r.off ≤ off) && (off - r.off) % r.stride == 0 && decide ((off - r.off) / r.stride < r.cnt)

/-- The stated reset value of the field whose key is `k`: the special value, else the table's, else 0. -/
def resetFld (k : Nat) : Nat :=
  let pg := k / 131072
  let off := k / 32 % 4096
  let lo := k % 32
  match resetSpecial pg off lo with
  | some v => v
  | none =>
    match pageInfo pg with
    | some i =>
      match i.layout.rows.find? (·.hits off lo) with
      | some r => r.rst
      | none => 0
    | none => 0

end Sys2Proof.Machine
end

