-- ==== Sys2Proof/Machine/State.lean ====
section
/-! DEFINITION. The state of the KT8 as plain data, the reasons to stop, and the state right after reset. -/
namespace Sys2Proof.Machine

/-- Why the machine stops. No rule of the spec stops this block: every fault the manual describes is an effect on the state. -/
inductive Fault where
  /-- Raised by nobody: the spec names no access that has no answer (03 R50, R60: reserved ranges read 0 and drop writes). Safe. -/
  | none
deriving DecidableEq, Repr

/-- Why a command has no meaning. -/
inductive Refusal where
  /-- A command whose meaning is not written yet, by its name in the opcode table. Safe: the machine stops. -/
  | notModelled (mnemonic : String)
deriving DecidableEq, Repr

/-- MSI-X and command state of a function (03 R68, 06 R122-R128; PRESUMED PCI Express reset values, log entry 6). `unmasked` and `pba` are bit maps over the vectors. -/
structure FnSt where
  memEn : Bool
  bme : Bool
  msixEn : Bool
  fmask : Bool
  unmasked : Nat
  pba : Nat
  /-- Message address and data of each MSI-X table entry, by vector. -/
  entries : Tab (Nat × Nat)
deriving DecidableEq, Repr

/-- A function after reset. -/
def FnSt.reset : FnSt := ⟨false, false, false, false, 0, 0, []⟩

/-- The association of a selective IDE stream (17 R407): address blocks as base and limit, and a range of Requester IDs. -/
structure IdeAssoc where
  blocks : List (Nat × Nat)
  rids : Option (Nat × Nat)
deriving DecidableEq, Repr

/-- A host port beside its registers: configuration space readiness (04 R87), SR-IOV, D-state (06 R128), the HDM window latched at training (06 R125), and whether VDD_IO holds PERST_N asserted (18 R423). -/
structure Port where
  perst : Bool
  cfgReady : Bool
  numVfs : Nat
  d3 : Bool
  cxlWin : Option (Nat × Nat × Nat)
  railBad : Bool
  /-- The associations of selective IDE streams 1 to 4, by stream (17 R407). -/
  assoc : Tab IdeAssoc
deriving DecidableEq, Repr

/-- A port after reset: PERST_N deasserted, as HPT_LINK_STS.perst resets (log entry 4), no link. -/
def Port.reset : Port := ⟨false, false, 0, false, none, false, []⟩

/-- A flit in a transmitter's replay buffer. -/
structure TxFlit where
  seq : Nat
  vc : Nat
  data : List Byte
deriving DecidableEq, Repr

/-- A bridge flit that waits in a receive buffer for the next link of its route (02 R32, R38): virtual channel, source and destination tile, 512 data bytes. -/
structure RxFlit where
  vc : Nat
  src : Nat
  dst : Nat
  data : List Byte
deriving DecidableEq, Repr

/-- One end of a link (02 R30-R34, R40, R45): receiver and transmitter state. -/
structure LinkEnd where
  /-- Unacknowledged flits, oldest first. -/
  replay : List TxFlit
  /-- Times the oldest flit was replayed in a row without an ACK. -/
  replays : Nat
  /-- The A burst that waits for its B. -/
  pendA : Option Burst
  /-- The last NAK: expected sequence and time. -/
  lastNak : Option (Nat × Nat)
  /-- Flits accepted since the last acknowledgement. -/
  accSince : Nat
  /-- The last accepted sequence. -/
  lastAcc : Option Nat
  /-- What a drain leads to: retrain (true) or DOWN (false). -/
  drainRetrain : Bool
  /-- Credits left for each virtual channel of a bridge (R32); on a bundle the first counts the credits that headers returned (R33). -/
  credit : List Nat
  /-- Through traffic in the receive buffers, oldest first. -/
  rxq : List RxFlit
  /-- The link went DOWN by a failed training or retrain and stays so (R45). -/
  failed : Bool
  /-- Training runs of a bundle that failed in a row (04 R91). -/
  tries : Nat
  /-- Bytes that FEC corrected since the start of the current 1 ms window, and that start (R40). -/
  fecSum : Nat
  fecAt : Nat
  /-- Flits of a bundle counted as CRC errors (R33), which no register shows. -/
  crcErr : Nat
deriving DecidableEq, Repr

/-- A link end after training: sequences 0 (02, Training step 5), all 32 credits of each channel (R32), everything else empty. -/
def LinkEnd.reset : LinkEnd := ⟨[], 0, none, none, 0, none, true, [32, 32, 32], [], false, 0, 0, 0, 0⟩

/-- A Trail record (17 R410): header fields and nine payload dwords. -/
structure TrailRec where
  seq : Nat
  typ : Nat
  block : Nat
  sev : Nat
  ptp : Nat
  boot : Nat
  ms : Nat
  payload : List Nat
deriving DecidableEq, Repr

/-- The Trail (17 R409-R412). `slots` is keyed by slot number; `queue` is oldest first. -/
structure Trail where
  slots : Tab (Option TrailRec)
  /-- Raw dwords of slots whose write VDD_AO did not outlast (16 R386), by slot; empty for any other slot. -/
  torn : Tab (List Nat)
  queue : List TrailRec
  lost : Nat
  snapNext : Nat
  stepOne : Nat
deriving DecidableEq, Repr

/-- An empty Trail. -/
def Trail.reset : Trail := ⟨[], [], [], 0, 1024, 0⟩

/-- A fact of the field map (04 R82): tile, kind (0 core, 1 slice, 2 common domain), cluster, p, cause. -/
structure FieldFact where
  tile : Nat
  kind : Nat
  cluster : Nat
  p : Nat
  cause : Nat
deriving DecidableEq, Repr

/-- Straps as the pins and pads hold them, and fuses (log entries 4 and 5). -/
structure Board where
  ownerPort : Nat
  bootSrc : Nat
  clkMode : Nat
  media : Nat
  mgtAddr : Nat
  /-- The variant fuses (04 R85): variant code, TCLK max in MHz, sustained and peak limits in 10 W, peak duration in ms. -/
  variant : Nat
  tclk : Nat
  pSust : Nat
  pPeak : Nat
  peakMs : Nat
  /-- Fused key hashes by key slot (04 R79), and the debug key hash (17 R414); what no part of this state names reads as the fuses of the part (`Config.fusedKey`). -/
  keys : Tab (List Byte)
  /-- Bad-core mask per cluster, bad-slice mask per tile (04 R80). -/
  badCore : Tab Nat
  badSlice : Tab Nat
  svn : Nat
  revoked : Nat
  /-- A fuse write in progress: 1 SVN to a value, 2 revoke a slot (17 R404). -/
  fuseWrite : Option (Nat × Nat)
deriving DecidableEq, Repr

/-- Board and fuses at reset: every open strap reads 0 (18 R419), variant KT8-X, no defect, nothing revoked. -/
def Board.reset : Board := ⟨0, 0, 0, 0, 0, 0, 1800, 150, 180, 10, [], [], [], 0, 0, none⟩

/-- An image accepted at boot: what later steps and checks need of it. -/
structure Accepted where
  fwVersion : Nat
  secVersion : Nat
  keySlot : Nat
  totalLen : Nat
  /-- SHA-384 of the image's bytes (17 R406). -/
  digest : List Byte
deriving DecidableEq, Repr

/-- Bring-up (04): what is loaded, beside the BOOT registers and the bytes in the Hamper. -/
structure Boot where
  stage1 : Option Accepted
  payload : Option Accepted
  /-- The partition plan section of the payload (14 R339). -/
  plan : Option (List Byte)
  /-- The medium that images are taken from. -/
  medium : Option Medium
  /-- Slices that failed training at this boot and at the previous one, by slice index. -/
  trainFail : List Nat
  prevTrainFail : List Nat
  /-- The field map in effect for this boot, in record order, with the facts found at this boot (R81, R82). -/
  facts : List FieldFact
  /-- Compartments that hold the hub firmware, the core images and the published itinerary (R90). -/
  release : Nat
  /-- A CORE_OFFLINE error has named its core at this boot (04 R97). -/
  offlined : Bool
  /-- Release of HP0 at the end of step 1, or the trigger of a warm reset (04, Timeline). -/
  start : Nat
  /-- The payload of the other slot is fetched (04 R91). -/
  alt : Bool
  /-- The read of a pushed image waits for the owner port to leave D3hot (06 R128). -/
  pushHeld : Bool
  /-- SHA-384 of the field-map records at the last step 7 (17 R406). -/
  mapDigest : List Byte
  /-- When ready was reached: the scrubbers' first laps and the first correctable-error windows start then (13 R329). -/
  readyAt : Nat
deriving DecidableEq, Repr

/-- Bring-up at reset. -/
def Boot.reset : Boot := ⟨none, none, none, none, [], [], [], 0, false, 0, false, false, [], 0⟩

/-- A completion entry (06 R133): the fields of its 32 bytes, which `CqEntry.bytes` lays out. -/
structure CqEntry where
  tag : Nat
  sqHead : Nat
  status : Nat
  phase : Bool
  loaded : Bool
  epoch : Nat
  detail : Nat
  core : Nat
  width : Nat
  queue : Nat
  cookie : Nat
  result : Nat
  runUs : Nat
deriving DecidableEq, Repr

/-- Where a fetched descriptor stands. -/
inductive DescSt where
  | waiting
  | running
  /-- Completed, with an entry that waits for a slot (06 R138): status and detail. -/
  | ended (status detail : Nat)
deriving DecidableEq, Repr

/-- A fetched descriptor (06 R131), with the epoch it was fetched under, its number in its queue and its place in the tenant-wide fetch order. -/
structure Desc where
  num : Nat
  order : Nat
  tag : Nat
  kind : Nat
  flags : Nat
  model : Nat
  width : Nat
  energy : Nat
  duration : Nat
  cookie : Nat
  /-- LOAD: image, length, W offset, entry offset, copies. COPY: host address, aperture offset, length. -/
  area : List Nat
  args : List Word
  epoch : Nat
  st : DescSt
  loaded : Bool
  /-- COPY: bytes landed or sent, first poison met, first failure met. -/
  moved : Nat
  poison : Option Nat
  started : Nat
  /-- RUN: the cluster its model is loaded on, once it is chosen (06 R143). -/
  clu : Option Nat
deriving DecidableEq, Repr

/-- A queue pair beside its registers (06 R134-R147). -/
structure QueueSt where
  /-- Fetched and not completed, oldest first. -/
  fetched : List Desc
  /-- The numbers of the descriptors that ended and wait for a slot, in the order they ended (06 R140). -/
  ended : List Nat
  /-- Tags of the duplicate window, newest first, at most 256. -/
  window : List Nat
  /-- Slots reserved for entries of started descriptors (R138). -/
  reserved : Nat
  unsignalled : Nat
  coalStart : Option Nat
  /-- TENANT_RESET reports held for want of a slot (R138). -/
  heldReport : List CqEntry
  /-- Entries held in TRANSIT while the port is in D3hot (R128), oldest first. -/
  heldEntries : List CqEntry
  heldMsix : Bool
deriving DecidableEq, Repr

/-- A queue with nothing in it. -/
def QueueSt.reset : QueueSt := ⟨[], [], [], 0, 0, none, [], [], false⟩

/-- A reset in progress (14 R336-R341): scope code, target, trigger time, whether it is past its absorb point and its rebuild, whether it is a partition reset inside a tile reset, and, from the absorb point on, the microseconds it drained and whether the drain limit ended the drain. -/
structure Rst where
  scope : Nat
  target : Nat
  start : Nat
  absorbed : Bool
  rebuilt : Bool
  sub : Bool
  drainUs : Nat
  limitHit : Bool
deriving DecidableEq, Repr

/-- A residency table entry (06 R144): image (aperture offset), length, W-store offset, entry offset, the physical cores that hold the model, and the loaded flag for the next RUN. -/
structure Resid where
  valid : Bool
  tn : Nat
  model : Nat
  image : Nat
  len : Nat
  wOff : Nat
  entry : Nat
  cores : List Nat
  loadedNext : Bool
  /-- By physical core: the place of the model's last run in the sequence of runs on that core (08 R200). -/
  lastRun : Tab Nat
deriving DecidableEq, Repr

/-- An empty residency entry. -/
def Resid.none : Resid := ⟨false, 0, 0, 0, 0, 0, 0, [], false, []⟩

/-- Kinds of mask stack entries (07 R166). -/
inductive MaskKind where
  | ifk
  | loopk
deriving DecidableEq, Repr

/-- A mask stack entry (07 R166). -/
structure MaskEntry where
  kind : MaskKind
  outer : Dword
  taken : Dword
  els : Bool
deriving DecidableEq, Repr

/-- An operation in the MXE queue (07 R170-R172): kind 0 MMA, 1 MSCL, 2 MCVT, with the scale table addresses in force at its issue. -/
structure MxeOp where
  kind : Nat
  token : Nat
  pc : Nat
  sd : Nat
  sa : Nat
  sb : Nat
  shape : Nat
  fmtA : Nat
  fmtB : Nat
  flags : Nat
  sclA : Nat
  sclB : Nat
deriving DecidableEq, Repr

/-- An operation in the mover queue or in progress: kind 0 MVL, 1 MVS, 2 MVG, 3 MVT, 4 MVA, 5 MCAS; scalar operands and the descriptor bytes copied at issue (07 R167). -/
structure MovOp where
  kind : Nat
  token : Nat
  pc : Nat
  sd : Nat
  sa : Nat
  sb : Nat
  sc : Nat
  desc : List Byte
  flags : Nat
deriving DecidableEq, Repr

/-- A command in the ATU port queue: kind 0 ATTN, 1 KVAPP, 2 KVOP, with its block copied at issue (07 R167). -/
structure AtuOp where
  kind : Nat
  token : Nat
  pc : Nat
  blk : List Byte
  /-- KVAPP and KVOP: the result record, a core-local address. -/
  recAddr : Nat
  executed : Bool
deriving DecidableEq, Repr

/-- Why a rank is not executing. -/
inductive Wait where
  | run
  | barrier (b : Nat)
  | jend
  | ended
deriving DecidableEq, Repr

/-- A Peken core's registers and queues (07 R162-R167). Keys: s by number, v by 64·number + thread, p by number, t by number. -/
structure Core where
  s : Tab Dword
  v : Tab Word
  p : Tab Dword
  active : Dword
  stack : List MaskEntry
  tok : Tab Nat
  pc : Nat
  fpstat : Nat
  fpmode : Nat
  start : Nat
  sclA : Nat
  sclB : Nat
  mxeq : List MxeOp
  movq : List MovOp
  movAct : List MovOp
  atuq : List AtuOp
  wait : Wait
  job : Option Nat
  result : Nat
deriving DecidableEq, Repr

/-- A core after a core reset: every register, token and queue clear (07 R191). -/
def Core.reset : Core :=
  ⟨[], [], [], 0, [], [], 0, 0, 0, 0, 0, 0, [], [], [], [], .run, none, 0⟩

/-- A running job (07 R177, R185), keyed by the fetch order of its descriptor: its tenant and queue, its ranks' physical cores in ascending g, start time, the first recorded end (status, detail, core g), whether it is stopping, whether a reset suppresses its entry. -/
structure Job where
  tn : Nat
  q : Nat
  order : Nat
  model : Nat
  part : Nat
  ranks : List Nat
  start : Nat
  wbase : Nat
  wlen : Nat
  verdict : Option (Nat × Nat × Nat)
  stopping : Bool
  /-- Activity energy of the ended ranks in 10 µJ units (16 R379). -/
  energy : Nat
  /-- Compartments that left the job's partition while it ran, and, as 4096 + slot, slots whose compartment left its tenant (05 R115). -/
  left : List Nat
deriving DecidableEq, Repr

/-- A model load that waits for its core or is in progress there (08 R200, R201): the residency entry, and the LOAD descriptor it serves (tenant, queue, number), if it serves one. -/
structure LoadOp where
  res : Nat
  desc : Option (Nat × Nat × Nat)
deriving DecidableEq, Repr

/-- An entry of the energy table (16 R379), energy in 10 µJ and duration in 10 µs units, with the stamp of its last use. -/
structure EtEntry where
  valid : Bool
  model : Nat
  tn : Nat
  n : Nat
  energy : Nat
  duration : Nat
  used : Nat
deriving DecidableEq, Repr

/-- An unused energy table entry. -/
def EtEntry.none : EtEntry := ⟨false, 0, 0, 0, 0, 0, 0⟩

/-- No job. -/
def Job.none : Job := ⟨0, 0, 0, 0, 0, [], 0, 0, 0, Option.none, false, 0, []⟩

/-- What the block sends: messages, Completions, entries and link words, newest first in `State.outs`. Functions, link ends and requesters are given by their numbers. -/
inductive Out where
  /-- An MSI-X message of function `fn` (03 R68). -/
  | msix (fn vec : Nat)
  /-- Completion entry number `j` of queue `q` of tenant `n`, as a 32-byte posted write of function `fn`, with the queue's PASID if it attaches one, to a host address, poisoned or not (06 R124, R133, R137, R139; 13 R322). -/
  | cqEntry (n q j fn : Nat) (pasid : Option Nat) (addr : Nat) (data : List Byte) (ep : Bool)
  /-- The answer to a configuration request: RRS, or a normal completion (04 R87). -/
  | config (fn : Nat) (rrs : Bool)
  /-- The data of a configuration read (03 R56, R68; 06 R122, R123). -/
  | cfgData (fn : Nat) (vals : List Nat)
  /-- An Unsupported Request completion to function `fn`'s requester (05 R105). -/
  | unsupported (fn : Nat)
  /-- A Completion of an aperture read: function, aperture offset, data, EP (13 R323). -/
  | aperture (fn off : Nat) (data : List Byte) (ep : Bool)
  /-- What a load, fetch, LR or AMO of the program on companion core h brings back (07 R179), and what its SC answers: 0 for success. -/
  | hpcData (h va : Nat) (data : List Byte)
  | hpcSc (h code : Nat)
  /-- The dwords of a register read, by requester code (03 R64). -/
  | regData (rq : Nat) (data : List Nat)
  /-- A Completer Abort (03 R64, 01 R24). -/
  | abort (rq : Nat)
  /-- The answer to a tile request of a Hamper read: core, data, poison. -/
  | tileData (x : Nat) (data : List Byte) (poison : Bool)
  /-- The AV1 film grain parameters of a picture that session `i` decoded, passed through (12 R288). -/
  | filmGrain (i : Nat) (params : List Byte)
  /-- Stream port `n` sends a PTP Delay_Req, leaving at PTP time `time` (11 R271). -/
  | delayReq (n : Nat) (time : Nat)
  /-- An ACK or NAK of a link end. -/
  | ack (e : Nat) (nak : Bool) (seq : Nat)
  /-- A credit that a bridge receiver returns for a virtual channel (02 R29, R32). -/
  | credit (e vc : Nat)
  /-- A flit sent or sent again by a link end. -/
  | flit (e seq : Nat)
  /-- A keep-alive of a link end (02 R35). -/
  | keepAlive (e : Nat)
  /-- A clock-loss report to the hub (02 R35). -/
  | clockLoss (t : Nat)
  /-- A host-memory read or write of a COPY: function, PASID if attached, host address, length or data (06 R124). -/
  | dmaRead (fn : Nat) (pasid : Option Nat) (addr len : Nat)
  | dmaWrite (fn : Nat) (pasid : Option Nat) (addr : Nat) (data : List Byte) (ep : Bool)
  /-- An Advisory Non-Fatal Poisoned TLP record (13 R322). -/
  | aer (port : Nat)
  /-- The answer to a CXL.mem access (06 R125). -/
  | cxl (port : Nat) (data : List Byte) (poison : Bool)
  /-- A management event: PG_ID and PG_INT_STS of a page routed with to_mgt (17 R397). -/
  | mgtEvent (eid pgId sts : Nat)
  /-- The answer of a slice controller: slice, data, poison (09 R231). -/
  | sliceData (x : Nat) (data : List Byte) (poison : Bool)
  /-- A control datagram of stream `k` on a stream port to peer `peer`: its 40 bytes of header and body (11 R273). -/
  | ksf (port k peer : Nat) (data : List Byte)
  /-- A PFC frame: port, priority, pause time (11 R280). -/
  | pfc (port prio time : Nat)
  /-- The answer to an ARP request or Neighbor Solicitation (11 R271). -/
  | neighbour (port : Nat) (ns : Bool) (addr : Nat)
  /-- A flit that a link end accepts and gives to its own die: virtual channel, or flit type on a bundle, and data (02 R30, R33). -/
  | deliver (e ch : Nat) (data : List Byte)
  /-- A Completer Abort of a configuration request (01 R24). -/
  | configAbort (fn : Nat)
  /-- An FMC response (17 R396): source, command, request ID, status, body as dwords or bytes. -/
  | fmc (src cmd id status : Nat) (data : List Nat)
  /-- An MCTP control response. -/
  | mctp (src : Nat) (data : List Nat)
  /-- A PLDM response: source, completion code, data; and a sensor event (17 R400): EID, sensor, level 0 normal, 1 warning, 2 critical, 3 fatal. -/
  | pldm (src code : Nat) (data : List Nat)
  | sensorEvent (eid id level : Nat)
  /-- The forecast record on I3C (16 R381, 17 R401). -/
  | forecast (eid : Nat) (rec : List Byte)
  /-- A request for the next 4 KiB of a component (17 R402), the chunk written to the unaccepted flash slot, and the boot directory rewritten with a preferred slot. -/
  | flashRequest (comp off : Nat)
  | flashWrite (slot comp off : Nat) (data : List Byte)
  | flashDir (slot : Nat)
  /-- A management push is refused, BUSY: another push runs, or none is waited for (17 R403, R415). -/
  | pushBusy
  /-- An SPDM response: responder (4 MCTP), 0 for an error, data. -/
  | spdm (resp : Nat) (ok : Bool) (data : List Nat)
  /-- An IDE_KM acknowledgement: port, stream, whether it was taken. -/
  | ideKm (port stream : Nat) (ok : Bool)
deriving DecidableEq, Repr

/-- An accepted Hamper write that has not landed: source client (host port 0-3, else the R101 client), byte address, data, EP. -/
structure HmpWr where
  client : Nat
  addr : Nat
  data : List Byte
  ep : Bool
deriving DecidableEq, Repr

/-- A TN_CANCEL in progress (06 R141, R149): its queue, the submission count up to which a cancel of all still has to fetch, and the numbers of the running descriptors it waits for. -/
structure CancelSt where
  q : Nat
  upto : Option Nat
  nums : List Nat
deriving DecidableEq, Repr

/-- A tenant context beside its registers (06 R129-R130, R435; 14 R342): the binding dword that waits for the end of the reset it started, whether the reset in progress is a function reset (no entry is written), whether it has passed its absorb point, and the scope code its ABORTED entries carry. -/
structure TenSt where
  pendBind : Option Nat
  suppress : Bool
  absorbed : Bool
  scope : Nat
  /-- The cancel in progress (06 R149). -/
  cancel : Option CancelSt
deriving DecidableEq, Repr

/-- A tenant with no reset. -/
def TenSt.reset : TenSt := ⟨none, false, false, 5, none⟩

/-- Dispatcher state of a partition (06 R142): the tenant the round robin stands at and its remaining credit, and the queue picked for the next start. -/
structure DispSt where
  tenant : Nat
  credit : Nat
  rr : Tab Nat
  pick : Option (Nat × Nat)
deriving DecidableEq, Repr

/-- A dispatcher at reset. -/
def DispSt.reset : DispSt := ⟨0, 0, [], none⟩

/-- A compartment map entry (05 R102-R104, HMP_CMAP): state 0 FREE, 1 FIRMWARE, 2 ASSIGNED, 3 DEVICE. -/
structure Comp where
  state : Nat
  use : Nat
  part : Nat
  tn : Nat
  tv : Bool
  bound : Bool
  clearing : Bool
  slot : Nat
deriving DecidableEq, Repr

/-- A FREE compartment. -/
def Comp.free : Comp := ⟨0, 0, 0, 0, false, false, false, 0⟩


/-- Contents of the DRAM slices (09 R218, R227, R228; 13 R313): bytes by 2^27·slice + address, valid and lost bits by granule (2^15·slice + address / 4096), poison by 64-byte line (2^21·slice + address / 64). -/
structure SMem where
  bytes : Tab Byte
  valid : Tab Bool
  lost : Tab Bool
  poison : Tab Bool
deriving DecidableEq, Repr

/-- Slices in which nothing is valid. -/
def SMem.empty : SMem := ⟨[], [], [], []⟩

/-- What serves a near window (09 R225). -/
inductive Backing where
  | own
  | standin (x : Nat)
  | slot (k : Nat)
  | unbacked
deriving DecidableEq, Repr

/-- The memory layout of a partition as of its last rebuild: hash set in ascending order, Z in bytes, D (09 R220, R221, R224). -/
structure PartMem where
  set : List Nat
  z : Nat
  d : Nat
deriving DecidableEq, Repr

/-- A partition that was never built. -/
def PartMem.none : PartMem := ⟨[], 0, 0⟩



/-- An entry of a walker's look-aside buffer (10 R248). -/
structure LabEnt where
  root : Nat
  idx : Nat
  page : Nat
  fmt : Nat
  owner : Nat
  epoch : Nat
deriving DecidableEq, Repr

/-- A tenant's window of KPM operations (10 R252): H, and the applied operations of the window with their results. -/
structure KvWin where
  h : Nat
  done : List (Nat × Nat)
deriving DecidableEq, Repr

/-- An empty window. -/
def KvWin.reset : KvWin := ⟨0, []⟩


/-- A frame that has opened and is not published (11 R276, R278): number, frame ID, length, place, bytes received, time and PTP lock of its first datagram, lowest and highest sequence, flags, and the byte ranges received (offset, length). -/
structure SkFrame where
  n : Nat
  id : Nat
  len : Nat
  b : Nat
  got : Nat
  time : Nat
  locked : Bool
  lo : Nat
  hi : Nat
  coast : Bool
  reord : Bool
  /-- Two of its ranges overlapped: its contents are undefined (R274). -/
  dbl : Bool
  ranges : List (Nat × Nat)
deriving DecidableEq, Repr

/-- A stream context beside its registers (11 R273-R282). -/
structure SkSt where
  /-- Control datagrams sent; the next one's sequence. -/
  ctl : Nat
  /-- The last control datagram: type and sequence. -/
  cur : Nat × Nat
  /-- RESUME repeats still to send: sequence and count. -/
  resume : Option (Nat × Nat)
  gen : Nat
  tail : Nat
  head : Nat
  /-- Frames opened since enable. -/
  opened : Nat
  /-- The ring tail: data offset of the next reservation. -/
  rt : Nat
  /-- Whether E is set. -/
  est : Bool
  /-- Sequences seen above E. -/
  seen : List Nat
  /-- Opened and not published, in order of opening. -/
  frames : List SkFrame
  /-- Reservations not released, oldest first. -/
  live : List Nat
  /-- The frame ID being dropped (R282). -/
  dropId : Option Nat
  /-- IDs of the frames published since enable or restart. -/
  pub : List Nat
  overs : Nat
  lost : Nat
  dup : Nat
  inc : Nat
deriving DecidableEq, Repr

/-- A stream that never ran. -/
def SkSt.reset : SkSt := ⟨0, (0, 0), none, 0, 0, 0, 0, 0, false, [], [], [], none, [], 0, 0, 0, 0⟩

/-- A control datagram that waits behind a received PFC pause. -/
structure SkSend where
  k : Nat
  typ : Nat
  rep : Bool
  seq : Nat
deriving DecidableEq, Repr

/-- A stream port beside its registers: priorities paused by received PFC, control datagrams held by the pause. -/
structure EthPort where
  paused : Nat
  held : List SkSend
deriving DecidableEq, Repr

/-- A stream port at reset. -/
def EthPort.reset : EthPort := ⟨0, []⟩


/-- A picture a codec session is working on (12 R296, R301): the command, its start, whether its input and a reference met poison (first poisoned aperture offset), whether the second pass runs, whether it is coded intra. -/
structure VcRun where
  cmd : List Byte
  start : Nat
  inPoison : Option Nat
  refPoison : Option Nat
  twice : Bool
  intra : Bool
deriving DecidableEq, Repr

/-- An access unit ready to publish (12 R303). -/
structure VcPub where
  len : Nat
  typ : Nat
  qp : Nat
  flags : Nat
  filler : Nat
  b : Nat
deriving DecidableEq, Repr

/-- A codec session beside its registers (12 R291-R304). -/
structure VcSt where
  /-- The parameter block as read at enable. -/
  par : List Byte
  /-- Consumed count C, and the count up to which commands are visible. -/
  c : Nat
  vis : Nat
  /-- The last producer and cancel values read. -/
  prod : Option Nat
  cancel : Nat
  run : Option VcRun
  /-- The access unit the engine stalls with. -/
  stall : Option VcPub
  /-- Cancelled commands whose entries wait for slots, oldest first. -/
  ended : List (List Byte)
  gen : Nat
  /-- Bucket fullness B in 1 / (90 · frame rate numerator) bits. -/
  b : Nat
  skips : Nat
  recodes : Nat
  fillers : Nat
  /-- Pictures coded since enable; whether an intra picture is owed. -/
  pics : Nat
  retry : Bool
  /-- The tenant wrote to the work area since the last intra picture (12 R290). -/
  dirty : Bool
  /-- Decode: sequence count. -/
  seq : Nat
  tail : Nat
  head : Nat
  /-- Access units not released: data offset and reserved length, oldest first. -/
  live : List (Nat × Nat)
  /-- Where the next access unit goes. -/
  wpos : Nat
deriving DecidableEq, Repr

/-- A session that never ran. -/
def VcSt.reset : VcSt := ⟨[], 0, 0, none, 0, none, none, [], 0, 0, 0, 0, 0, 0, false, false, 0, 0, 0, [], 0⟩


/-! Power (15). -/

/-- One power sample (15 R361): package power in mW, VIN_CORE in mV and mA, VDD_DRAM and VDD_SER in mA, tile regulators in mA. -/
structure PSample where
  mw : Nat
  mv : Nat
  ma : Nat
  dram : Nat
  ser : Nat
  tiles : List Nat
deriving DecidableEq, Repr

/-- A change of a tile's operating point (15 R358): the point TCLK runs at, the point it goes to, whether the idle PLL is locked, whether VDD_T has its new value. -/
structure OppChg where
  active : Bool
  freq : Nat
  goal : Nat
  locked : Bool
  vdd : Bool
deriving DecidableEq, Repr

/-- No change in progress. -/
def OppChg.none : OppChg := ⟨false, 0, 0, false, false⟩

/-- The power controller beside its registers (15 R361-R364, R367; 18 R423). -/
structure Power where
  /-- Samples, newest first, at most 100. -/
  samples : List PSample
  /-- The bucket E in units of 10 nJ (1 mW for 10 µs). -/
  bucket : Nat
  /-- Energy of the package and of each tile since reset, in 10 nJ. -/
  energy : Nat
  tileEnergy : Tab Nat
  /-- Steps of each tile's current cap below the variant's highest point. -/
  drop : Tab Nat
  /-- Time of the last lowering by the 1 ms average, and start of the time at or below 240 A, each plus 1 (0: none). -/
  lowAt : Tab Nat
  okAt : Tab Nat
  /-- A tile's own fast clamp. -/
  clamp : Tab Bool
  /-- Sum in mW and number of the samples since the last forecast. -/
  sum10 : Nat
  n10 : Nat
  /-- Least and greatest P in mW since the last rise evaluation, and whether a tile raised its point since. -/
  lo : Option Nat
  hi : Nat
  raised : Bool
  /-- Rails out of tolerance, by bit: 0 VIN_CORE, 1 VDD_DRAM, 2 VPP_DRAM, 3 VDD_SER, 4 VDD_IO, 5 VAO_IO. -/
  rails : Nat
  chg : Tab OppChg
deriving DecidableEq, Repr

/-- The power controller at reset. -/
def Power.reset : Power := ⟨[], 0, 0, [], [], [], [], [], 0, 0, none, 0, false, 0, []⟩

/-! Temperature (16). -/

/-- A sensor (16 R371): whether it was ever valid, and the run of bad conversions while valid, of good ones while not. -/
structure SensorSt where
  seen : Bool
  cnt : Nat
deriving DecidableEq, Repr

def SensorSt.reset : SensorSt := ⟨false, 0⟩

/-- One rise evaluation (16 R387): M of each die in 1/64 °C (8 the hub), where it has one; P in mW, its least and greatest value in the last ms, and whether a tile raised its point in it. -/
structure RiseRec where
  m : List (Option Int)
  p : Nat
  lo : Nat
  hi : Nat
  raised : Bool
deriving DecidableEq, Repr

/-- Thermal cycle counting of a tile (16 R382): running, past a rise of 20 °C, minimum and maximum so far in 1/64 °C. -/
structure CycSt where
  run : Bool
  up : Bool
  lo : Int
  hi : Int
deriving DecidableEq, Repr

def CycSt.reset : CycSt := ⟨false, false, 0, 0⟩

/-- The thermal controller beside its registers. -/
structure Thm where
  /-- Sensors by 32·die + s. -/
  sens : Tab SensorSt
  /-- The throttle condition of a tile held at its last conversion. -/
  cond : Tab Bool
  /-- Time of a tile's last HOT record. -/
  hotAt : Tab (Option Nat)
  /-- Sum and number of the logic maxima of a die since the last rise evaluation. -/
  sum : Tab Int
  num : Tab Nat
  /-- Rise evaluations, newest first, at most 40. -/
  hist : List RiseRec
  /-- Some die's 40 ms rise exceeded 15 °C/s at the last evaluation. -/
  rising : Bool
  /-- Run of invalid conversions of a coolant channel, of valid ones while it is broken. -/
  ext : Tab Nat
  /-- Time of floor entry. -/
  floorAt : Option Nat
  /-- COOLANT_OK_N reads low. -/
  pinLow : Bool
  /-- The device has tripped; THERMTRIP_N is asserted (18 R427). -/
  tripped : Bool
  tripPin : Bool
  cyc : Tab CycSt
  /-- The forecast as last formed: B, P̄ and the eight windows. -/
  fc : List Nat
deriving DecidableEq, Repr

/-- The thermal controller at reset; COOLANT_OK_N is open and reads high (18 R426). -/
def Thm.reset : Thm := ⟨[], [], [], [], [], [], false, [], none, false, false, false, [], []⟩

/-! Management (17). -/

/-- A kept FMC request and its response (17 R399). -/
structure FmcKept where
  id : Nat
  cmd : Nat
  body : List Nat
  status : Nat
  data : List Nat
deriving DecidableEq, Repr

/-- The last PLDM request of a source (17 R399): Instance ID, content, completion code, data. -/
structure PldmKept where
  inst : Nat
  body : List Nat
  code : Nat
  data : List Nat
deriving DecidableEq, Repr

/-- A firmware update in progress (17 R402): the component being written, the bytes written, and the fw_version of each verified component (1 stage-1, 2 payload). -/
structure Update where
  comp : Nat
  data : List Byte
  v1 : Option Nat
  v2 : Option Nat
deriving DecidableEq, Repr

/-- The management controller beside its registers. Sources are keyed by EID, plus 256 for SMBus. -/
structure Mgt where
  /-- The EID that receives events and the forecast, 0 for none. -/
  evSub : Nat
  /-- The current nonce of a source (R398), and its last debug challenge (R414). -/
  nonces : Tab (Option (List Byte))
  dbgNonces : Tab (Option (List Byte))
  /-- Kept responses of a source, newest first. -/
  kept : Tab (List FmcKept)
  pldm : Tab (Option PldmKept)
  update : Option Update
  /-- Open SPDM sessions of the responder of port 0-3, and 4 for MCTP (R405). -/
  sessions : Tab Nat
  /-- IDE streams by 5·port + i, i = 0 link, 1-4 selective (R407): 0 no keys, 1 keys programmed, 2 Secure. -/
  ide : Tab Nat
  /-- The instruction of the TAP (R413), and whether it held the logic in reset. -/
  tap : TapInstr
  extest : Bool
  /-- A flash answered at step 4. -/
  flash : Bool
deriving DecidableEq, Repr

/-- The management controller at reset; an open TRST_N holds the TAP in reset (18 R426). -/
def Mgt.reset : Mgt := ⟨0, [], [], [], [], none, [], [], .idcode, false, false⟩


/-- A register access to a tile that waits for the tile's new operating point (03 R66): a read, a write, or a command of the table that writes one register of the tile. Links are named by `linkKey`, SCB pages by their memory. -/
inductive Held where
  | read (rq : Requester) (addr n : Nat)
  | mailbox (f : Fmc) (addr n : Nat)
  | write (rq : Requester) (addr : Nat) (ws : List RegDword)
  | retrain (k : Nat)
  | forceDown (rq : Requester) (k : Nat) (v : Bool)
  | enable (rq : Requester) (k : Nat) (v : Bool)
  | serEnable (rq : Requester) (t : Nat) (v : Bool)
  | lnkClear (t d : Nat)
  | serClear (t : Nat)
  | spare (rq : Requester) (x v : Nat)
  | forceFail (x : Nat)
  | walkerFlush (cl : Nat)
  | ceWindow (rq : Requester) (m : ScbId) (v : Nat)
  | selfTest (rq : Requester) (m : ScbId) (v : Nat)
  | point (rq : Requester) (t v : Nat)
deriving DecidableEq, Repr

/-- The machine. -/
structure State where
  /-- Model time in ns, which AOCLK counts (log entry 1). -/
  now : Nat
  /-- PTP time less `now`, modulo 2^64, as the servo last set it (11 R271). -/
  ptpOff : Nat
  /-- The commands that wait, first in first out. -/
  pending : List Instr
  /-- The model's own counter behind free values. -/
  fresh : Nat
  /-- The register file: one entry per field that differs from its reset value, by `fkey`. -/
  regs : Tab Nat
  /-- What the block has sent, newest first. -/
  outs : List Out
  /-- Functions by number: physical function p, virtual function 4 + 64·port + v. -/
  fns : Tab FnSt
  /-- Host ports. -/
  ports : Tab Port
  /-- Link ends: 4t + d, 32 + t (tile end of a bundle), 40 + t (hub end). -/
  ends : Tab LinkEnd
  /-- A route held back from tile t to u, by 8t + u: the route to take (02 R37). -/
  routeHold : Tab (Option Nat)
  /-- The Trail. -/
  trail : Trail
  /-- Straps and fuses. -/
  board : Board
  /-- Bring-up. -/
  boot : Boot
  /-- VCLK is lost until a warm reset (01 R24). -/
  vclkLost : Bool
  /-- The device has failed until a warm reset (01 R24). -/
  devFailed : Bool
  /-- The hub's logic is off, or the package is in cooling shutdown (16). -/
  hubOff : Bool
  /-- The Hamper, by byte address. -/
  hmp : Mem
  /-- Compartment map by compartment number (HMP_CMAP). -/
  cmap : Tab Comp
  /-- Accepted writes that have not landed, oldest first (05 R113). -/
  hmpPend : List HmpWr
  /-- The FREE whose clear is in progress: first, count. -/
  hmpClr : Option (Nat × Nat)
  /-- Tenant contexts. -/
  tens : Tab TenSt
  /-- Queue pairs by 8n + q. -/
  queues : Tab QueueSt
  /-- Fetch order counter of the dispatcher. -/
  order : Nat
  /-- Residency table. -/
  resid : Tab Resid
  /-- Dispatcher state by partition. -/
  disps : Tab DispSt
  /-- Resets in progress. -/
  rsts : List Rst
  /-- Peken cores by physical index 64t + 8c + p. -/
  cores : Tab Core
  /-- Running jobs by fetch order. -/
  jobs : Tab Job
  /-- On-chip stores: 2^20·physical core + own-store offset (07 R159). -/
  stores : Mem
  /-- VDD_AO and VAO_IO are within tolerance (18 R421, R423). -/
  aoUp : Bool
  /-- The power controller (15). -/
  power : Power
  /-- The thermal controller (16). -/
  thm : Thm
  /-- The management controller (17). -/
  mgt : Mgt
  /-- High halves captured by reads of the low halves of 64-bit counters, by page and offset (15 R369). -/
  snaps : Tab Nat
  /-- The DRAM slices. -/
  slices : SMem
  /-- Memory layout by partition. -/
  pmem : Tab PartMem
  /-- Near-window backing by logical core g. -/
  near : Tab Backing
  /-- Distinct uncorrectable lines of the current 1 s window, by slice (09 R236). -/
  ueWin : Tab (List Nat)
  /-- Whether a memory instance has had its first uncorrectable line since the warm reset, by SCB page number (13 R319). -/
  ueSeen : Tab Bool
  /-- Model loads of a physical core, first to last. -/
  loads : Tab (List LoadOp)
  /-- The energy table, by 8·set + way. -/
  etab : Tab EtEntry
  /-- Stamp counter of the energy table's replacement. -/
  etClock : Nat
  /-- Cause with which a stopping companion program ends (07 HPC_EXIT), by hub processor. -/
  hpcCause : Tab Nat
  /-- Scope and target of the latest accepted HUB_RST_CMD reset (14 R341); while it runs, a write without go changes the register's fields alone. -/
  hubRst : Nat × Nat
  /-- The LR reservation of companion core h: the Hamper address and the bytes LR read there (07 R179). -/
  hpcResv : Tab (Option (Nat × List Byte))
  /-- Pending value of STO_SPARE_ASSIGN, by physical core (08 R199). -/
  sparePend : Tab (Option Nat)
  /-- The physical core p whose stores a cluster self-test runs on (13 R328), by cluster. -/
  bistCore : Tab (Option Nat)
  /-- Refresh band of a tile (09 R229). -/
  bands : Tab Nat
  /-- Look-aside buffers by cluster, most recently used first. -/
  labs : Tab (List LabEnt)
  /-- Free list of each KV pool, head first (10 R251). -/
  kvFree : Tab (List Nat)
  /-- Quarantined pages of each KV pool (10 R267). -/
  kvQuar : Tab (List Nat)
  /-- Allocated pages of a tenant in a pool, by 128·pool + tenant. -/
  kvOwned : Tab Nat
  /-- A job wrote the pool's descriptors: its state is undefined until its next initialisation (10 R246). -/
  kvUndef : Tab Bool
  /-- Operation windows by tenant. -/
  kvWins : Tab KvWin
  /-- The core whose ATTN a cluster's ATU served last (10 R259). -/
  atuLast : Tab Nat
  /-- Stream contexts (11). -/
  sks : Tab SkSt
  /-- Stream ports. -/
  eths : Tab EthPort
  /-- Codec sessions (12). -/
  vcs : Tab VcSt
  /-- The session whose picture an engine set ran last, by engine mask (12 R305). -/
  vcLast : Tab Nat
  /-- Next line of each scrubber, by SCB page (13 R317, R318). -/
  scrubPos : Tab Nat
  /-- Start of the current lap, by SCB page. -/
  scrubStart : Tab Nat
  /-- Start of the current correctable-error window, by SCB page (13 R321). -/
  ceStart : Tab Nat
  /-- Field substitutions written and not yet applied (14 R344). -/
  subs : List FieldFact
  /-- Ramps in progress by 136·tile + domain: stage in force, plus 8 once the virtual rail is at 90 % (15 R357). -/
  ramps : Tab Nat
  /-- Fault code of a partition whose tile was lost during its reset, before the absorb point (14 R346). -/
  ptPend : Tab Nat
  /-- Register accesses held while the operating point of a tile changes, by tile, oldest first (03 R66). -/
  held : Tab (List Held)
  /-- Device-region compartments that passing traffic has used: bit p for TRANSIT of host port p, bit 4 for MGT (01 R14, 05 R105). -/
  transit : Nat
  /-- Requests that went out on a Secure IDE stream, newest first: how many outputs came before, and the stream (17 R407). -/
  ideSent : List (Nat × Nat)
deriving DecidableEq, Repr

/-- The machine right after reset: every register at the value the spec states (tables in `RegTable`, samples and fuses in `resetSpecial`, else 0), memories empty, nothing waiting. -/
def State.reset : State where
  now := 0
  ptpOff := 0
  pending := []
  fresh := 0
  regs := []
  outs := []
  fns := []
  ports := []
  ends := []
  routeHold := []
  trail := Trail.reset
  board := Board.reset
  boot := Boot.reset
  vclkLost := false
  devFailed := false
  hubOff := false
  hmp := Mem.empty
  cmap := []
  hmpPend := []
  hmpClr := none
  tens := []
  queues := []
  order := 0
  resid := []
  disps := []
  rsts := []
  cores := []
  jobs := []
  stores := Mem.empty
  aoUp := true
  power := Power.reset
  thm := Thm.reset
  mgt := Mgt.reset
  snaps := []
  slices := SMem.empty
  pmem := []
  near := []
  ueWin := []
  ueSeen := []
  loads := []
  etab := []
  etClock := 0
  hpcCause := []
  hubRst := (0, 0)
  hpcResv := []
  sparePend := []
  bistCore := []
  bands := []
  labs := []
  kvFree := []
  kvQuar := []
  kvOwned := []
  kvUndef := []
  kvWins := []
  atuLast := []
  sks := []
  eths := []
  vcs := []
  vcLast := []
  scrubPos := []
  scrubStart := []
  ceStart := []
  subs := []
  ramps := []
  ptPend := []
  held := []
  transit := 0
  ideSent := []

end Sys2Proof.Machine
end

