-- ==== Sys2Proof/Machine/Ops.lean ====
section
/-! DEFINITION. The named operations every family shares: fields of the register file, page errors and interrupts (03 R53, R67, R68), MSI-X delivery, Trail records (17 R410-R412), the tenant fault log (13 R325), page availability (03 R69), free values. -/
namespace Sys2Proof.Machine

/-! Fields of the register file. -/

/-- The value of a field. -/
def State.fld (s : State) (pg : Nat) (f : Fld) : Nat := Tab.get resetFld s.regs (fkey pg f)

/-- Write a field; a value wider than the field keeps its low bits. -/
def State.setFld (s : State) (pg : Nat) (f : Fld) (v : Nat) : State :=
  { s with regs := Tab.set resetFld s.regs (fkey pg f) (v % 2 ^ f.len) }

/-- A field as a truth value. -/
def State.flag (s : State) (pg : Nat) (f : Fld) : Bool := s.fld pg f != 0

/-- Write a one-bit field. -/
def State.setFlag (s : State) (pg : Nat) (f : Fld) (v : Bool) : State := s.setFld pg f (b2n v)

/-- Add to a saturating counter field. -/
def State.satFld (s : State) (pg : Nat) (f : Fld) (n : Nat) : State :=
  s.setFld pg f (satAdd f.len (s.fld pg f) n)

/-- Add to a wrapping counter field. -/
def State.addFld (s : State) (pg : Nat) (f : Fld) (n : Nat) : State := s.setFld pg f (s.fld pg f + n)

/-- Return a field to its reset value. -/
def State.rstFld (s : State) (pg : Nat) (f : Fld) : State := s.setFld pg f (resetFld (fkey pg f))

/-- Set one bit of a multi-bit field. -/
def State.setBit (s : State) (pg : Nat) (f : Fld) (i : Nat) (v : Bool) : State :=
  let x := s.fld pg f
  s.setFld pg f (if v then x ||| 2 ^ i else x - (if bitOf x i then 2 ^ i else 0))

/-- A 64-bit register pair. -/
def State.fld64 (s : State) (pg : Nat) (lo hi : Fld) : Nat := s.fld pg lo + 2 ^ 32 * s.fld pg hi

/-- Write a 64-bit register pair. -/
def State.setFld64 (s : State) (pg : Nat) (lo hi : Fld) (v : Nat) : State :=
  (s.setFld pg lo v).setFld pg hi (v / 2 ^ 32)

/-- The port of a function. -/
def fnPort (k : Nat) : Nat := if k < 4 then k else (k - 4) / 64

/-- The device-region compartments that what the block sends passes through (01 R14; 05 R102; 06 R125, R139; 17 R395): bit p TRANSIT of host port p, bit 4 MGT. -/
def Out.passes : Out → Nat
  | .cqEntry _ _ _ fn _ _ _ _ => 2 ^ fnPort fn
  | .dmaRead fn _ _ _ => 2 ^ fnPort fn
  | .dmaWrite fn _ _ _ _ => 2 ^ fnPort fn
  | .cxl port _ _ => 2 ^ port
  | .fmc .. => 16
  | .mctp .. => 16
  | .pldm .. => 16
  | .mgtEvent .. => 16
  | .sensorEvent .. => 16
  | .forecast .. => 16
  | .spdm resp _ _ => 2 ^ resp
  | .flashRequest .. => 16
  | .flashWrite .. => 16
  | _ => 0

def nat0 : Nat → Nat := fun _ => 0
def fn0 : Nat → FnSt := fun _ => FnSt.reset
def port0 : Nat → Port := fun _ => Port.reset
def pair0 : Nat → Nat × Nat := fun _ => (0, 0)
def assoc0 : Nat → IdeAssoc := fun _ => ⟨[], none⟩

/-- A memory request that the device sends to a host: function and address (06 R124, R139; 03 R68). -/
def State.requestOf (s : State) : Out → Option (Nat × Nat)
  | .cqEntry _ _ _ fn _ a _ _ => some (fn, a)
  | .dmaRead fn _ a _ => some (fn, a)
  | .dmaWrite fn _ a _ _ => some (fn, a)
  | .msix fn v => some (fn, (Tab.get pair0 (Tab.get fn0 s.fns fn).entries v).1)
  | _ => none

/-- IDE stream i of a port: 0 no keys, 1 keys programmed, 2 Secure. -/
def State.ideState (s : State) (port i : Nat) : Nat := Tab.get nat0 s.mgt.ide (5 * port + i)

/-- The IDE stream a request goes out on (17 R407): the Secure selective stream with an address block around it, else the link stream where that is Secure. -/
def State.ideStream (s : State) (fn a : Nat) : Option Nat :=
  let p := fnPort fn
  match [1, 2, 3, 4].find? fun j => s.ideState p j == 2 && (Tab.get assoc0 (Tab.get port0 s.ports p).assoc j).blocks.any fun b => decide (b.1 ≤ a) && decide (a ≤ b.2) with
  | some j => some j
  | none => if s.ideState p 0 = 2 then some 0 else none

/-- The note of the stream that an output goes out on. -/
def State.ideNote (s : State) (o : Out) : List (Nat × Nat) :=
  match s.requestOf o with
  | some r => ((s.ideStream r.1 r.2).map fun j => (s.outs.length, j)).toList
  | none => []

/-- Send something, through the device region where it leaves that way, and on its IDE stream. -/
def State.emit (s : State) (o : Out) : State :=
  { s with outs := o :: s.outs, transit := s.transit ||| o.passes, ideSent := s.ideNote o ++ s.ideSent }

/-- Apply a family of updates for every element of a list, first to last. -/
def State.each {α : Type} (s : State) (l : List α) (f : α → State → State) : State :=
  l.foldl (fun s x => f x s) s

/-- Take the next free value's counter. -/
def State.tick (s : State) : State := { s with fresh := s.fresh + 1 }

/-! Parts held by key. -/

def end0 : Nat → LinkEnd := fun _ => LinkEnd.reset
def hold0 : Nat → Option Nat := fun _ => none
def slot0 : Nat → Option TrailRec := fun _ => none
def ten0 : Nat → TenSt := fun _ => TenSt.reset
def queue0 : Nat → QueueSt := fun _ => QueueSt.reset
def resid0 : Nat → Resid := fun _ => Resid.none
def disp0 : Nat → DispSt := fun _ => DispSt.reset
def core0 : Nat → Core := fun _ => Core.reset
def job0 : Nat → Job := fun _ => Job.none
def comp0 : Nat → Comp := fun _ => Comp.free
def pmem0 : Nat → PartMem := fun _ => PartMem.none
def back0 : Nat → Backing := fun _ => Backing.own
def list0 : Nat → List Nat := fun _ => []
def loads0 : Nat → List LoadOp := fun _ => []
def et0 : Nat → EtEntry := fun _ => EtEntry.none
def chg0 : Nat → OppChg := fun _ => OppChg.none
def sens0 : Nat → SensorSt := fun _ => SensorSt.reset
def cyc0 : Nat → CycSt := fun _ => CycSt.reset
def int0 : Nat → Int := fun _ => 0
def kept0 : Nat → List FmcKept := fun _ => []
def pldm0 : Nat → Option PldmKept := fun _ => none
def nonce0 : Nat → Option (List Byte) := fun _ => none

def State.fn (s : State) (k : Nat) : FnSt := Tab.get fn0 s.fns k
def State.setFn (s : State) (k : Nat) (v : FnSt) : State := { s with fns := Tab.set fn0 s.fns k v }
def State.port (s : State) (k : Nat) : Port := Tab.get port0 s.ports k
def State.setPort (s : State) (k : Nat) (v : Port) : State := { s with ports := Tab.set port0 s.ports k v }
def State.lend (s : State) (k : Nat) : LinkEnd := Tab.get end0 s.ends k
def State.setLend (s : State) (k : Nat) (v : LinkEnd) : State := { s with ends := Tab.set end0 s.ends k v }
def State.ten (s : State) (k : Nat) : TenSt := Tab.get ten0 s.tens k
def State.setTen (s : State) (k : Nat) (v : TenSt) : State := { s with tens := Tab.set ten0 s.tens k v }
/-- Queue q of tenant n. -/
def State.queue (s : State) (n q : Nat) : QueueSt := Tab.get queue0 s.queues (8 * n + q)
def State.setQueue (s : State) (n q : Nat) (v : QueueSt) : State :=
  { s with queues := Tab.set queue0 s.queues (8 * n + q) v }
def State.res (s : State) (k : Nat) : Resid := Tab.get resid0 s.resid k
def State.setRes (s : State) (k : Nat) (v : Resid) : State := { s with resid := Tab.set resid0 s.resid k v }
def State.dsp (s : State) (k : Nat) : DispSt := Tab.get disp0 s.disps k
def State.setDsp (s : State) (k : Nat) (v : DispSt) : State := { s with disps := Tab.set disp0 s.disps k v }
def State.core (s : State) (x : Nat) : Core := Tab.get core0 s.cores x
def State.setCore (s : State) (x : Nat) (v : Core) : State := { s with cores := Tab.set core0 s.cores x v }
def State.job (s : State) (k : Nat) : Job := Tab.get job0 s.jobs k
def State.pm (s : State) (p : Nat) : PartMem := Tab.get pmem0 s.pmem p
def State.setPm (s : State) (p : Nat) (v : PartMem) : State := { s with pmem := Tab.set pmem0 s.pmem p v }
def State.backing (s : State) (g : Nat) : Backing := Tab.get back0 s.near g
def State.setBacking (s : State) (g : Nat) (v : Backing) : State := { s with near := Tab.set back0 s.near g v }
def State.comp (s : State) (c : Nat) : Comp := Tab.get comp0 s.cmap c
def State.setComp (s : State) (c : Nat) (v : Comp) : State := { s with cmap := Tab.set comp0 s.cmap c v }
def State.setJob (s : State) (k : Nat) (v : Job) : State := { s with jobs := Tab.set job0 s.jobs k v }

/-! Identity of requesters and functions. -/

/-- Requester codes (03 R57). -/
def rqCode : Requester → Nat
  | .tenant n => n.val
  | .pf p => 0x80 + p.val
  | .mgt => 0x88
  | .fw => 0x89

/-- A function's number: physical function p, virtual function 4 + 64·port + v. -/
def fnNum : FnId → Nat
  | .pf p => p.val
  | .vf p v => 4 + 64 * p.val + v.val

/-- The current owner port (06 R126). -/
def State.owner (s : State) : Nat := s.fld (P.hub 0) F.HUB_OWNER_owner_port

/-- A tenant's binding. -/
def State.bound (s : State) (n : Nat) : Bool := s.flag (P.disp 1) (F.DISP_TN_BIND_valid n)
def State.tnPort (s : State) (n : Nat) : Nat := s.fld (P.disp 1) (F.DISP_TN_BIND_port n)
def State.tnPart (s : State) (n : Nat) : Nat := s.fld (P.disp 1) (F.DISP_TN_BIND_partition n)
/-- The function a tenant is bound to. -/
def State.tnFn (s : State) (n : Nat) : Nat := 4 + 64 * s.tnPort n + s.fld (P.disp 1) (F.DISP_TN_BIND_vf n)
/-- TN_STS.state of a tenant (06 R129). -/
def State.tnState (s : State) (n : Nat) : Nat := s.fld (P.ten n 0) F.TN_STS_state
def State.epoch (s : State) (n : Nat) : Nat := s.fld (P.ten n 0) F.TN_STS_epoch
/-- The tenants bound to partition p. -/
def State.tenantsOf (s : State) (p : Nat) : List Nat :=
  (List.range 128).filter fun n => s.bound n && s.tnPart n == p
/-- The tenants bound to virtual functions of a port. -/
def State.tenantsOnPort (s : State) (p : Nat) : List Nat :=
  (List.range 128).filter fun n => s.bound n && s.tnPort n == p

/-- A host port's link is up (06 R156: rate 0 is down). -/
def State.linkUp (s : State) (p : Nat) : Bool := s.flag (P.hpt p) F.HPT_LINK_STS_rate

/-- Bring-up is complete. -/
def State.ready (s : State) : Bool := s.flag P.boot F.BOOT_STS_ready

/-! Interrupts and messages. -/

/-- Whether an MSI-X message of function `k`, vector `v`, is deliverable (03 R68; a port in D3hot originates no request, 06 R128). -/
def State.deliverable (s : State) (k v : Nat) : Bool :=
  let f := s.fn k
  s.linkUp (fnPort k) && !(s.port (fnPort k)).d3 && f.bme && f.msixEn && !f.fmask && bitOf f.unmasked v && !s.devFailed

/-- Set or clear bit `i` of a bit map. -/
def putBit (x i : Nat) (v : Bool) : Nat :=
  if v then x ||| 2 ^ i else if bitOf x i then x - 2 ^ i else x

/-- Send an MSI-X message, or hold it as pending (03 R68). -/
def State.msix (s : State) (k v : Nat) : State :=
  if s.deliverable k v then (s.setFn k { s.fn k with pba := putBit (s.fn k).pba v false }).emit (.msix k v)
  else s.setFn k { s.fn k with pba := putBit (s.fn k).pba v true }

/-- PG_ID of a page (03 R50). -/
def pgId (pg : Nat) : Nat :=
  match pageInfo pg with
  | some i => i.block + 2 ^ 8 * i.page + 2 ^ 16 * i.inst + 2 ^ 28 * b2n i.tenantPage
  | none => 0

/-- A page raises its interrupt (03 R67, R68): a tenant page to vector 8 of the bound function, any other by the routing of HUB page 1.
DESIGN CHOICE (log entry 70): a raise of a tenant page while no function is bound to the tenant is dropped, and is not sent after a later binding; R68 names only the bound function. -/
def State.raiseInt (s : State) (pg : Nat) : State :=
  match pageTenant pg with
  | some n => if s.bound n then s.msix (s.tnFn n) 8 else s
  | none =>
    match pageInfo pg with
    | none => s
    | some i =>
      let k := i.block - 1
      let s1 := if s.flag (P.hub 1) (F.HUB_INT_ROUTE_to_owner k)
        then s.msix s.owner (s.fld (P.hub 1) (F.HUB_INT_ROUTE_vector k)) else s
      if s.flag (P.hub 1) (F.HUB_INT_ROUTE_to_mgt k) && s.mgt.evSub != 0
      then s1.emit (.mgtEvent s.mgt.evSub (pgId pg) (s.fld pg F.PG_INT_STS)) else s1

/-- PG_STS.int_pending of a page (03 R52). -/
def State.pagePending (s : State) (pg : Nat) : Bool :=
  (s.fld pg F.PG_INT_STS &&& s.fld pg F.PG_INT_EN) != 0

/-- Events set bits of PG_INT_STS; the page raises its interrupt when int_pending rises (03 R67). -/
def State.setInts (s : State) (pg mask : Nat) : State :=
  let was := s.pagePending pg
  let s1 := s.setFld pg F.PG_INT_STS (s.fld pg F.PG_INT_STS ||| mask)
  if !was && s1.pagePending pg then s1.raiseInt pg else s1

/-- One event bit. -/
def State.event (s : State) (pg bit : Nat) : State := s.setInts pg (2 ^ bit)

/-! Errors. -/

/-- Count an error on a page, and capture it if none is captured (03 R53). -/
def State.countErr (s : State) (pg code rq addr : Nat) : State :=
  let s1 := s.satFld pg F.PG_ERR_CNT 1
  let s2 := if s.flag pg F.PG_ERR_FIRST_valid then s1
    else (((s1.setFld pg F.PG_ERR_FIRST_code code).setFld pg F.PG_ERR_FIRST_requester rq).setFlag pg
      F.PG_ERR_FIRST_valid true).setFld64 pg F.PG_ERR_ADDR_LO F.PG_ERR_ADDR_HI addr
  s2.event pg 31

/-- PTP time in ns. -/
def State.ptpNow (s : State) : Nat := (s.now + s.ptpOff) % 2 ^ 64

/-- PTP time as records carry it: 0 while PTP is not locked (17 R410). -/
def State.ptpStamp (s : State) : Nat := if s.flag (P.stp 0) F.STP_STS_ptp_locked then s.ptpNow else 0

/-- The header fields that a reset returns (03 R54); PG_CTL holds nothing, and PG_LOCK is kept. -/
def headerFlds : List Fld :=
  [F.PG_INT_STS, F.PG_INT_EN, F.PG_ERR_CNT, F.PG_ERR_FIRST_code, F.PG_ERR_FIRST_requester, F.PG_ERR_FIRST_valid, F.PG_ERR_ADDR_LO, F.PG_ERR_ADDR_HI]

/-- A reset whose scope holds the block instance of a page returns its header (03 R54). -/
def State.hdrReset (s : State) (pg : Nat) : State := s.each headerFlds fun f s => s.rstFld pg f

/-- The same for a list of pages. -/
def State.hdrResets (s : State) (pgs : List Nat) : State := s.each pgs fun pg s => s.hdrReset pg

/-- The eight dwords of a fault log entry (13 R325). -/
def flogDwords (code block kind seq detail epoch addr ptp : Nat) : List Nat :=
  [code % 256 + 2 ^ 8 * (block % 256) + 2 ^ 16 * (kind % 16), seq, detail % 2 ^ 16 + 2 ^ 16 * (epoch % 2 ^ 16), 0,
   addr, addr / 2 ^ 32, ptp, ptp / 2 ^ 32]

/-- Write an entry into tenant n's fault log (13 R325). -/
def State.flog (s : State) (n kind block code detail addr : Nat) : State :=
  let pg := P.ten n 10
  let seq := s.fld pg F.FL_TAIL_count
  let ds := flogDwords code block kind seq detail (s.epoch n) addr s.ptpStamp
  let s1 := s.each (List.range 8) fun i s => s.setFld pg (F.FL_ENTRY_dword (8 * (seq % 64) + i)) (ds.getD i 0)
  (s1.addFld pg F.FL_TAIL_count 1).event pg 0

/-- Count an error on a tenant page and enter it in the tenant's fault log (13 R325 kind 1). -/
def State.tenErr (s : State) (n pg code rq addr : Nat) : State :=
  let block := match pageInfo pg with | some i => i.block | none => 0
  (s.countErr pg code rq addr).flog n 1 block code (if code < 0x40 then rq else 0) addr

/-! The Trail. -/

/-- Milliseconds since the last step 1. -/
def State.msSinceStep1 (s : State) : Nat := (s.now - s.trail.stepOne) / 1000000

/-- Queue a Trail record; a record at a full queue is dropped and counted (17 R412). -/
def State.trailPut (s : State) (typ block sev : Nat) (payload : List Nat) : State :=
  if s.trail.queue.length < 16 then
    let r : TrailRec := ⟨0, typ, block, sev, s.ptpStamp, s.fld P.trl F.TRL_BOOTCNT_value, s.msSinceStep1, payload⟩
    { s with trail := { s.trail with queue := s.trail.queue ++ [r] } }.setFlag P.trl F.TRL_STS_busy true
  else
    (({ s with trail := { s.trail with lost := s.trail.lost + 1 } }.satFld P.trl F.TRL_STS_dropped 1)).event P.trl 1

/-- The hub fails (01 R24): a Trail record that names what was lost, and the device has failed until a device warm reset. -/
def State.hubLost (s : State) (clock : Nat) : State :=
  if s.devFailed then s else { s with devFailed := true }.trailPut 0x07 0x01 3 [3, clock]

/-- The fact of a FIELD_MAP record (17 R411). -/
def TrailRec.fact (r : TrailRec) : FieldFact :=
  ⟨r.payload.getD 0 0, r.payload.getD 1 0, r.payload.getD 2 0, r.payload.getD 3 0, r.payload.getD 4 0⟩

/-- The FIELD_MAP facts of the Trail, in record order, with those whose records wait in the queue (04 R82). -/
def State.fieldMap (s : State) : List FieldFact :=
  let old := s.trail.slots.filterMap fun e =>
    match e.2 with
    | some r => if e.1 < 1024 ∧ r.typ = 2 then some r.fact else none
    | none => none
  old ++ s.trail.queue.filterMap fun r => if r.typ = 2 ∧ !bitOf (r.payload.getD 4 0) 7 then some r.fact else none

/-- Whether two facts state the same (04 R82). -/
def FieldFact.same (a b : FieldFact) : Bool :=
  a.tile == b.tile && a.kind == b.kind && a.cluster == b.cluster && (a.kind == 2 || a.p == b.p)

/-- The field map holds its 1,024 entries, counting the records that wait in the queue (04 R82). -/
def State.mapFull (s : State) : Bool :=
  decide (1024 ≤ s.fld P.trl F.TRL_STS_fmap_cnt + (s.trail.queue.filter fun r => r.typ == 2 && !bitOf (r.payload.getD 4 0) 7).length)

/-- A new field map fact: in effect for this boot, and written to the field-map region, or to the log with cause bit 7 where the region is full (04 R82). A repeated fact has no effect. -/
def State.addFact (s : State) (f : FieldFact) : State :=
  if s.boot.facts.any (·.same f) then s
  else
    let s1 := { s with boot := { s.boot with facts := s.boot.facts ++ [f] } }
    let full := s.mapFull
    s1.trailPut 0x02 0x10 (if full then 2 else 1)
      [f.tile, f.kind, f.cluster, f.p, if full then f.cause + 0x80 else f.cause]

/-! Page availability (03 R69, 04 R88). -/

/-- The tile is fenced: its bundle is FENCED at the hub end (02 R39, R46). -/
def State.fenced (s : State) (t : Nat) : Bool := s.fld (P.serHub t) F.SER_STS_state == 6

/-- The mask of partition p names cluster cl. -/
def State.inMask (s : State) (p cl : Nat) : Bool := bitOf (s.fld64 (P.pt p) F.PT_CLU_LO_mask F.PT_CLU_HI_mask) cl

/-- State of partition p (14 R331). -/
def State.ptState (s : State) (p : Nat) : Nat := s.fld (P.pt p) F.PT_STS_state

/-- The partition that holds cluster cl, if one does (14 R331). A FAULTED partition's mask can be written (R332), so a partition in another state comes first. -/
def State.cluPart (s : State) (cl : Nat) : Option Nat :=
  match (List.range 8).find? fun p => s.ptState p != 0 && s.ptState p != 4 && s.inMask p cl with
  | some p => some p
  | none => (List.range 8).find? fun p => s.ptState p == 4 && s.inMask p cl

/-- The clusters of partition p. -/
def State.partClusters (s : State) (p : Nat) : List Nat :=
  (List.range 64).filter fun cl => bitOf (s.fld64 (P.pt p) F.PT_CLU_LO_mask F.PT_CLU_HI_mask) cl

/-- The physical core that holds logical core g = 7·cluster + l (04 R81). -/
def State.physOf (s : State) (g : Nat) : Nat := 8 * (g / 7) + s.fld (P.clu (g / 7)) (F.CLU_MAP_phys (g % 7))

/-- Logical core g is online. -/
def State.online (s : State) (g : Nat) : Bool := bitOf (s.fld (P.clu (g / 7)) F.CLU_MAP_online) (g % 7)

/-- The logical core that physical core x holds, if any. -/
def State.logicalOf (s : State) (x : Nat) : Option Nat :=
  (List.range 7).findSome? fun l =>
    if bitOf (s.fld (P.clu (x / 8)) F.CLU_MAP_online) l && s.fld (P.clu (x / 8)) (F.CLU_MAP_phys l) == x % 8
    then some (7 * (x / 8) + l) else none

/-- Whether cluster cl lies in the domain of a reset. -/
def Rst.coversClu (s : State) (r : Rst) (cl : Nat) : Bool :=
  match r.scope with
  | 2 => r.target == cl
  | 3 => s.cluPart cl == some r.target
  | 4 => r.target == cl / 8
  | _ => false

/-- Whether physical core x lies in the domain of a reset. -/
def Rst.coversCore (s : State) (r : Rst) (x : Nat) : Bool :=
  (r.scope == 1 && s.physOf r.target == x) || r.coversClu s (x / 8)

/-- The hub's logic answers nothing: its clock is lost, or its supply is off (01 R24, 15 R367, 16 R385, R389). -/
def State.hubDead (s : State) : Bool := s.devFailed || s.hubOff

/-- In cooling shutdown (16 R389). -/
def State.inShutdown (s : State) : Bool := s.flag (P.thm 0) F.THM_STS_shutdown

/-- Pages of always-on logic (15 R351): THM, PWR, TRL and MGT of the hub. -/
def alwaysOn (pg : Nat) : Bool := decide (0xA0 ≤ pg ∧ pg < 0xE0)

/-- Whether a page's block instance lies in a reset (03 R69, 14 R336): before ready every page but HUB page 0 and the BOOT window (04 R88); core blocks, cluster blocks, or a tile's blocks of a reset in progress. -/
def State.pageInReset (s : State) (pg : Nat) : Bool :=
  (!s.ready && !s.hubOff && pg != 0 && pg / 16 != 1) ||
  match pageInfo pg with
  | none => false
  | some i => s.rsts.any fun r =>
    match i.layout with
    | .core | .mxe | .tgu | .mov | .sto => r.coversCore s i.inst
    | .slc | .scbP => r.scope == 4 && r.target == i.inst / 64
    | .clu | .kvw | .atu | .scbC => r.coversClu s i.inst
    | .tile => r.scope == 4 && r.target == i.inst
    | .lnk => r.scope == 4 && r.target == i.inst / 4
    | .ser => r.scope == 4 && r.target == i.inst && i.page == 0
    | _ => false

/-! Power domains of a tile (15 R356): K of cluster c is domain c, CS of (c, p) is 8 + 8c + p, CL of (c, p) is 72 + 8c + p, which is the slot order of 15 R360. -/

/-- The state field of a domain: 0 OFF, 1 QUEUED, 2 RAMPING, 3 ON, 4 FAULT_SHORT. -/
def domFld (i : Nat) : Fld :=
  if i < 8 then F.PWR_T_DOM_A_k i
  else if i < 72 then F.PWR_T_DOM_B_cs ((i - 8) / 8) ((i - 8) % 8)
  else F.PWR_T_DOM_A_cl ((i - 72) / 8) ((i - 72) % 8)

/-- Whether a page's logic is powered (03 R69; 15 R356): with the hub dead only always-on pages are; the core blocks of a spare, a bad core or a core in FAULT_SHORT are not; a store page is live for the spare and dead for a bad core; the walker, ATU and idle-scrubber pages of a cluster are while its K domain is ON. -/
def State.pagePowered (s : State) (pg : Nat) : Bool :=
  (!s.hubDead || alwaysOn pg) &&
  match pageInfo pg with
  | none => true
  | some i =>
    let st := s.fld (P.clu (i.inst / 8)) (F.CLU_PHYS_state (i.inst % 8))
    let short := s.fld (P.pwrT (i.inst / 64)) (F.PWR_T_DOM_A_cl (i.inst / 8 % 8) (i.inst % 8)) == 4
    match i.layout with
    | .core | .mxe | .tgu | .mov => st == 0 && !short
    | .sto => decide (st < 2) && s.fld (P.pwrT (i.inst / 64)) (F.PWR_T_DOM_B_cs (i.inst / 8 % 8) (i.inst % 8)) != 4
    | .kvw | .atu | .scbC => s.fld (P.pwrT (i.inst / 8)) (domFld (i.inst % 8)) == 3
    | _ => true

/-- Whether a page lies in a fenced tile. -/
def State.pageFenced (s : State) (pg : Nat) : Bool :=
  match pageTile pg with
  | some t => s.fenced t
  | none => false

/-- A page that does not serve accesses (03 R69). -/
def State.unavailable (s : State) (pg : Nat) : Bool :=
  s.pageFenced pg || s.pageInReset pg || !s.pagePowered pg

/-! Register writes with a row of their own. -/

/-- The address through which an access to page `pg`, offset `off`, arrived: the BAR2 offset for a tenant, else the privileged address (03 R53). -/
def accessAddr (rq : Requester) (pg off : Nat) : Nat :=
  match rq with
  | .tenant _ => (pg - 0x400) % 16 * 4096 + off
  | _ => pg * 4096 + off

/-- A memory request reaches function `k`: its link is up, it is in D0 with Memory Space Enable set, and it exists (06 R127, R128, R130; PRESUMED PCI Express decoding, log entry 6). -/
def State.decodes (s : State) (k : Nat) : Bool :=
  s.linkUp (fnPort k) && !(s.port (fnPort k)).d3 && (s.fn k).memEn &&
  (decide (k < 4) || decide ((k - 4) % 64 < (s.port (fnPort k)).numVfs))

/-- The tenant bound to virtual function v of a port. -/
def State.vfTenant (s : State) (port : Fin 4) (v : Fin 64) : Option (Fin 128) :=
  (List.finRange 128).find? fun n => s.bound n && s.tnFn n == fnNum (.vf port v)

/-- A request to virtual function k that no tenant is bound to is decoded (06 R123). -/
def State.vfReach (s : State) (k : Nat) : Bool := !s.hubDead && s.decodes k

/-- A requester's register access reaches the device (01 R24, 06 R127): with the hub dead only the management mailbox does, while VDD_AO is up. -/
def State.reach (s : State) (rq : Requester) : Bool :=
  match rq with
  | .tenant n => !s.hubDead && s.bound n && s.decodes (s.tnFn n)
  | .pf p => !s.hubDead && s.decodes p
  | .mgt => s.aoUp
  | .fw => !s.hubDead

/-! What answers for a page that does not serve (03 R69), and accesses held while a tile changes its operating point (R66). -/

/-- PG_STS bits 31:29. -/
def State.pgAvail (s : State) (pg : Nat) : Nat :=
  2 ^ 29 * b2n (s.pageFenced pg) + 2 ^ 30 * b2n (s.pageInReset pg) + 2 ^ 31 * b2n (s.pagePowered pg)

/-- PG_VIEW. -/
def State.pgView (s : State) (pg : Nat) (tenant : Bool) : Nat :=
  match pageTenant pg with
  | none => 0
  | some n => 1 + 2 * b2n tenant + 2 ^ 2 * n + 2 ^ 9 * ((pg - 0x400) % 16) + 2 ^ 13 * (if s.bound n then s.tnPort n else 0)

/-- What a page that does not serve answers (R69). -/
def State.substitute0 (s : State) (pg off : Nat) (tenant : Bool) : Nat :=
  match off with
  | 0x000 => pgId pg
  | 0x004 => 0x100
  | 0x010 => s.pgAvail pg
  | 0x030 => s.pgView pg tenant
  | _ => 0

/-- `n` dwords of such a page. -/
def State.substitutes (s : State) (addr n : Nat) : List Nat :=
  (List.range n).map fun i => s.substitute0 (addr / 4096) (addr / 4 % 1024 * 4 + 4 * i) false

/-- The number of a management source: its EID, plus 256 for SMBus. -/
def srcKey (m : MctpSrc) : Nat := m.eid + 256 * b2n m.smb

def held0 : Nat → List Held := fun _ => []

/-- A page of a tile whose operating point changes: its register accesses are held until the new point is reached (03 R66). -/
def State.tileBusy (s : State) (pg : Nat) : Bool :=
  match pageTile pg with
  | some t => s.flag (P.pwrT t) F.PWR_T_STS_busy && (pageInfo pg).isSome && !s.unavailable pg
  | none => false

/-- An access to a page of a tile waits behind the earlier ones. -/
def State.hold (s : State) (pg : Nat) (c : Held) : State :=
  match pageTile pg with
  | some t => { s with held := Tab.set held0 s.held t (Tab.get held0 s.held t ++ [c]) }
  | none => s

/-- A held access of a page that has become unavailable: a write is dropped without counting, a read answers as the page does (03 R69). -/
def State.heldDrop (s : State) (c : Held) : State :=
  match c with
  | .read rq addr n => s.emit (.regData (rqCode rq) (s.substitutes addr n))
  | .mailbox f addr n => s.emit (.fmc (srcKey f.src) 2 f.id.toNat 0 (s.substitutes addr n))
  | _ => s

/-- The accesses held for a tile that is lost. -/
def State.heldLost (s : State) (t : Nat) : State :=
  { s with held := Tab.set held0 s.held t [] }.each (Tab.get held0 s.held t) fun c s => s.heldDrop c

/-! Register writes by a requester. -/

/-- Apply one accepted Hamper write. -/
def Mem.land (m : Mem) (w : HmpWr) : Mem := m.wr w.addr w.data w.ep

/-- Land every accepted Hamper write of one client, oldest first (05 R114). -/
def State.landClient (s : State) (k : Nat) : State :=
  { s with hmp := (s.hmpPend.filter (·.client == k)).foldl Mem.land s.hmp
           hmpPend := s.hmpPend.filter (·.client != k) }

/-- A register write takes effect after every aperture write that its host port sent before it (05 R114). -/
def State.landFor (s : State) (rq : Requester) : State :=
  match rq with
  | .tenant n => s.landClient (s.tnPort n)
  | .pf p => s.landClient p
  | _ => s

/-- A privileged write at its page: dropped as UNAVAILABLE where the page does not serve (03 R55, R69). -/
def State.pageWrite (s : State) (rq : Requester) (pg off : Nat) (k : State → State) : State :=
  if s.unavailable pg then s.countErr (P.hub 0) 0x05 (rqCode rq) (accessAddr rq pg off) else k s

/-- A privileged write: dropped as NOT_OWNER from a physical function that is not the owner's, dropped for a tenant (03 R56). -/
def State.privApply (s : State) (rq : Requester) (pg off : Nat) (k : State → State) : State :=
  match rq with
  | .tenant _ => s
  | .pf p => if p.val ≠ s.owner then s.countErr (P.hub 0) 0x06 (rqCode rq) (accessAddr rq pg off) else s.pageWrite rq pg off k
  | _ => s.pageWrite rq pg off k

/-- A write of a privileged register by a requester that reaches the device, after the port's earlier aperture writes. -/
def State.privWrite (s : State) (rq : Requester) (pg off : Nat) (k : State → State) : State :=
  if s.reach rq then (s.landFor rq).privApply rq pg off k else s

/-- The same for a register of a tile; the write `c` is held while the tile changes its operating point (03 R66). -/
def State.tileWrite (s : State) (rq : Requester) (pg off : Nat) (c : Held) (k : State → State) : State :=
  s.privWrite rq pg off fun s => if s.tileBusy pg then s.hold pg c else k s

/-- A write of an RWL field: counted LOCKED and ignored while the page is locked and the value changes (03 R59). -/
def State.rwlWrite (s : State) (rq : Requester) (pg : Nat) (f : Fld) (v : Nat) (k : State → State) : State :=
  if s.flag pg F.PG_LOCK_locked then
    if s.fld pg f = v then s else s.countErr pg 0x03 (rqCode rq) (accessAddr rq pg f.off)
  else k (s.setFld pg f v)

/-- A tenant's write of a register of tenant n's window. -/
def State.tenApply (s : State) (m : Fin 128) (n : Nat) (f : State → State) : State :=
  if m.val = n && s.ready && s.tnState n != 3 then f s else s

/-- A write of a register of tenant n's window by the tenant itself or through the privileged alias (03 R63, R70). Before ready the page answers as a page in reset (04 R88), and a tenant's write to its own pages during its own reset is dropped uncounted (03 R55). -/
def State.tenWrite (s : State) (rq : Requester) (n k off : Nat) (f : State → State) : State :=
  match rq with
  | .tenant m => if s.reach rq then (s.landFor rq).tenApply m n f else s
  | _ => s.privWrite rq (P.ten n k) off f

/-- Capture of an error that a register access to tenant n's window raises: on the page, and in the fault log (03 R55, R70; 06 R152). -/
def State.tenRegErr (s : State) (rq : Requester) (n k off code : Nat) : State :=
  s.tenErr n (P.ten n k) code (rqCode rq) (accessAddr rq (P.ten n k) off)

end Sys2Proof.Machine
end

