-- ==== Sys2Proof/Machine/Hamper.lean ====
section
/-! DEFINITION. The Hamper (05): compartment lookup, accepted and landed writes, clears, apertures, allocation, quota queries. -/
namespace Sys2Proof.Machine

/-! Lookup. -/

/-- The bank of the line that holds Hamper address A (05 R100): A[11:6] XOR A[17:12] XOR A[23:18] XOR A[27:24]. -/
def hmpBank (a : Nat) : Nat := bits a 6 6 ^^^ bits a 12 6 ^^^ bits a 18 6 ^^^ bits a 24 4

/-- The pieces of `len` bytes from `off` that do not cross a multiple of `unit`: start and length of each. -/
def segs (unit off len : Nat) : List (Nat × Nat) :=
  if len = 0 then [] else
  (List.range ((off + len - 1) / unit - off / unit + 1)).map fun i =>
    let lo := max off ((off / unit + i) * unit)
    (lo, min (off + len) ((off / unit + i + 1) * unit) - lo)

/-- A compartment that tenant n holds and that is not being freed. -/
def Comp.heldBy (v : Comp) (n : Nat) : Bool := v.state == 2 && v.tv && v.tn == n && !v.clearing

/-- The compartment of tenant n whose slot field is `slot` (05 R105). -/
def State.slotComp (s : State) (n slot : Nat) : Option Nat :=
  (s.cmap.find? fun e => e.2.heldBy n && e.2.slot == slot).map (·.1)

/-- The Hamper address behind tenant n's aperture offset. -/
def State.apAddr (s : State) (n off : Nat) : Option Nat :=
  (s.slotComp n (off / 65536)).map fun c => c * 65536 + off % 65536

/-- Compartments of tenant n (tenant-owned). -/
def State.tenComps (s : State) (n : Nat) : List Nat :=
  (s.cmap.filter fun e => e.2.state == 2 && e.2.tv && e.2.tn == n).map (·.1)

/-- Compartments that partition p owns itself. -/
def State.partComps (s : State) (p : Nat) : List Nat :=
  (s.cmap.filter fun e => e.2.state == 2 && !e.2.tv && e.2.part == p).map (·.1)

/-- Whether the whole aperture range lies in compartments of tenant n whose use is in `uses`. -/
def State.apRange (s : State) (n off len : Nat) (uses : List Nat) : Bool :=
  (segs 65536 off len).all fun sg =>
    match s.slotComp n (sg.1 / 65536) with
    | some c => uses.contains (s.comp c).use
    | none => false

/-- The compartments under an aperture range. -/
def State.apComps (s : State) (n off len : Nat) : List Nat :=
  (segs 65536 off len).filterMap fun sg => s.slotComp n (sg.1 / 65536)

/-- Bytes of an aperture range; a byte behind no compartment of the tenant reads 0. -/
def State.apRead (s : State) (n off len : Nat) : List Byte :=
  (segs 65536 off len).flatMap fun sg =>
    match s.apAddr n sg.1 with
    | some a => s.hmp.rdN a sg.2
    | none => List.replicate sg.2 0

/-- The first poisoned line an aperture range touches, as an aperture offset. -/
def State.apPoison (s : State) (n off len : Nat) : Option Nat :=
  (segs 64 off len).findSome? fun sg =>
    match s.apAddr n sg.1 with
    | some a => if s.hmp.linePoison (a / 64) then some (sg.1 / 64 * 64) else none
    | none => none

/-! Landing and clearing (05 R113, R121). -/

/-- Land every accepted write, oldest first. -/
def State.landAll (s : State) : State := { s with hmp := s.hmpPend.foldl Mem.land s.hmp, hmpPend := [] }

/-- A write enters a client's queue. -/
def State.hmpAccept (s : State) (w : HmpWr) : State := { s with hmpPend := s.hmpPend ++ [w] }

/-- Clear the line valid bits of compartments (05 R111, R120). -/
def State.hmpClearComps (s : State) (cs : List Nat) : State :=
  { s with hmp := cs.foldl (fun m c => m.clear (c * 65536) 65536) s.hmp }

/-- Set the bound flag of compartments. -/
def State.bindComps (s : State) (cs : List Nat) (v : Bool) : State :=
  s.each cs fun c s => s.setComp c { s.comp c with bound := v }

/-- The absorb point of a tenant reset in the Hamper (05 R120): accepted writes land, the tenant's compartments are cleared, allocation is kept, bound flags go with their bindings. -/
def State.hmpTenantClear (s : State) (n : Nat) : State :=
  let s := s.landAll
  (s.hmpClearComps (s.tenComps n)).bindComps (s.tenComps n) false

/-- The absorb point of a partition reset in the Hamper: partition-owned compartments are cleared (05 R120). -/
def State.hmpPartClear (s : State) (p : Nat) : State :=
  let s := s.landAll
  s.hmpClearComps (s.partComps p)

/-- TRANSIT compartments of host port n are discarded (05 R120). -/
def State.hmpTransitClear (s : State) (n : Nat) : State :=
  { s.landAll.hmpClearComps ((List.range 16).map (4024 + 16 * n + ·)) with transit := putBit s.transit n false }

/-! HAMPER_WRITE_LAND. -/

/-- HAMPER_WRITE_LAND (05 R113): the oldest accepted write lands. -/
def execHamperWriteLand (s : State) : Host.Outcome State Fault Refusal :=
  match s.hmpPend with
  | [] => .next s
  | w :: ws => .next { s with hmp := s.hmp.land w, hmpPend := ws }

/-! Apertures (05 R105-R107, R436; 13 R322, R323). -/

/-- Accepted pieces of an aperture write: the Hamper address of each piece and its bytes. -/
def putPieces (s : State) (client off : Nat) (data : List Byte) (ep : Bool) (ok : List (Nat × Nat × Nat)) : State :=
  s.each ok fun (lo, n, a) s => s.hmpAccept ⟨client, a, (data.drop (lo - off)).take n, ep⟩

/-- Pieces of an aperture write that reach a compartment: start offset, length, Hamper address. -/
def State.tenPieces (s : State) (n : Nat) (peer : Bool) (off len : Nat) : List (Nat × Nat × Nat) :=
  (segs 65536 off len).filterMap fun sg =>
    match s.slotComp n (sg.1 / 65536) with
    | some c => if peer && (s.comp c).use != 6 then none else some (sg.1, sg.2, c * 65536 + sg.1 % 65536)
    | none => none

/-- The offset of the first byte of an aperture range that lies in no accepted piece. -/
def firstMiss (off len : Nat) (ok : List (Nat × Nat × Nat)) : Option Nat :=
  ((segs 65536 off len).find? fun sg => !ok.any fun k => k.1 == sg.1).map (·.1)

/-- A write that arrived with EP is counted once on the Hamper SCB page and noted by the port (13 R322). -/
def State.poisonIn (s : State) (port rq : Nat) (ok : List (Nat × Nat × Nat)) : State :=
  match ok with
  | [] => s
  | (_, _, a) :: _ => (s.countErr P.scbH 0x41 rq (a / 64 * 64)).emit (.aer port)

/-- A peer write: the filter is on and the Requester ID matches under the mask (05 R107). -/
def State.isPeer (s : State) (n : Nat) (rid : Nat) : Bool :=
  let pg := P.ten n 11
  let m := s.fld pg F.HMP_TQ_LAND_RID_mask
  s.flag pg F.HMP_TQ_LAND_CTL_enable && (rid &&& m) == (s.fld pg F.HMP_TQ_LAND_RID_rid &&& m)

/-! Codec sessions, and their work areas as a tenant meets them (12 R290). -/

def vc0 : Nat → VcSt := fun _ => VcSt.reset
def State.vc (s : State) (i : Nat) : VcSt := Tab.get vc0 s.vcs i
def State.setVc (s : State) (i : Nat) (v : VcSt) : State := { s with vcs := Tab.set vc0 s.vcs i v }

/-- The page of a session, and its fields. -/
def vcPg (i : Nat) : Nat := P.vce (i / 16) 1
def State.vcf (s : State) (i : Nat) (f : Nat → Fld) : Nat := s.fld (vcPg i) (f (i % 16))
def State.setVcf (s : State) (i : Nat) (f : Nat → Fld) (v : Nat) : State := s.setFld (vcPg i) (f (i % 16)) v
/-- VCE_SS_STS.state: 0 OFF, 1 READY, 2 RUNNING, 3 STOPPING, 4 CFG_ERROR, 5 FAULTED. -/
def State.vcState (s : State) (i : Nat) : Nat := s.vcf i F.VCE_SS_STS_state
/-- Neither OFF nor CFG_ERROR: the session is enabled. -/
def State.vcOn (s : State) (i : Nat) : Bool := s.vcState i != 0 && s.vcState i != 4
def State.vcTenant (s : State) (i : Nat) : Nat := s.vcf i F.VCE_SS_BIND_tenant

/-- The session whose work area holds Hamper address a: a bound VCE_OUT compartment in its work run. -/
def State.workAt (s : State) (a : Nat) : Option Nat :=
  let c := s.comp (a / 65536)
  if c.state == 2 && c.tv && c.use == 5 && c.bound then
    (List.range 64).find? fun i => s.vcOn i && s.vcTenant i == c.tn &&
      decide (s.vcf i F.VCE_SS_WORK_slot ≤ c.slot) && decide (c.slot < s.vcf i F.VCE_SS_WORK_slot + s.vcf i F.VCE_SS_WORK_count)
  else none

/-- A write to a work area: the session's output is undefined until the next intra picture. -/
def State.vcTouch (s : State) (a : Nat) : State :=
  match s.workAt a with
  | some i => s.setVc i { s.vc i with dirty := true }
  | none => s

/-- A write to tenant n's aperture. -/
def State.tenApWrite (s : State) (n rid off : Nat) (data : List Byte) (ep : Bool) : State :=
  let peer := s.isPeer n rid
  let ok := s.tenPieces n peer off data.length
  let s1 := (putPieces s (s.tnPort n) off data ep ok).each ok fun e s => s.vcTouch e.2.2
  let s2 := match firstMiss off data.length ok with
    | some o => s1.tenErr n (P.ten n 11) (if peer then 0x41 else 0x40) 0xFF o
    | none => s1
  match ep, ok with
  | true, (lo, _, _) :: _ => (s2.poisonIn (s.tnPort n) n ok).flog n 3 0x08 10 0xFFFF (lo / 64 * 64)
  | _, _ => s2

/-- A write to the owner aperture. -/
def State.ownApWrite (s : State) (p off : Nat) (data : List Byte) (ep : Bool) : State :=
  let cls (sg : Nat × Nat) : Nat := if sg.1 / 65536 < 4096 then
    (let v := s.comp (sg.1 / 65536); if v.clearing then 0 else v.state) else 0
  let sgs := segs 65536 off data.length
  let ok := (sgs.filter fun sg => cls sg == 2).map fun sg => (sg.1, sg.2, sg.1)
  let s1 := putPieces s p off data ep ok
  let free : Option (Nat × Nat) := (sgs.find? fun sg => cls sg == 0).map fun (sg : Nat × Nat) => (sg.1, 0x40)
  let wp : Option (Nat × Nat) := (sgs.find? fun sg => cls sg == 1 || cls sg == 3).map fun (sg : Nat × Nat) => (sg.1, 0x43)
  let errs := (free.toList ++ wp.toList).mergeSort fun a b => decide (a.1 ≤ b.1)
  let s3 := s1.each errs fun e s => s.countErr (P.hmp 0) e.2 0xFF e.1
  if ep then s3.poisonIn p (0x80 + p) ok else s3

/-- A write to the aperture of tenant n, once its function decodes it. -/
def State.apWriteFrom (s : State) (n : Fin 128) (rid off : Nat) (data : List Byte) (ep : Bool) : State :=
  if s.reach (.tenant n) && s.ready && s.tnState n != 3 && s.tnState n != 4 then s.tenApWrite n rid off data ep else s

/-- The Completions of a read that touches a poisoned line: one per line, EP on the poisoned ones (13 R323). -/
def splitRead (fn off : Nat) (data : List Byte) (addr : Nat → Option Nat) (m : Mem) : List Out :=
  (segs 64 off data.length).map fun sg =>
    .aperture fn sg.1 ((data.drop (sg.1 - off)).take sg.2)
      (match addr sg.1 with | some a => m.linePoison (a / 64) | none => false)

/-- What tenant n reads of its aperture: a codec work area holds undefined data for it (12 R290). -/
def State.tenBytes (s : State) (n off len : Nat) : List Byte :=
  (segs 65536 off len).flatMap fun sg =>
    match s.apAddr n sg.1 with
    | some a => if (s.workAt a).isSome then (List.range sg.2).map fun i => Config.freeByte s.fresh (a + i) else s.hmp.rdN a sg.2
    | none => List.replicate sg.2 0

/-- A read of tenant n's aperture (05 R106, R436; 13 R323, R325). -/
def State.tenApRead (s : State) (n off len : Nat) : State :=
  let data := s.tenBytes n off len
  let s1 := match (segs 65536 off len).find? fun sg => (s.slotComp n (sg.1 / 65536)).isNone with
    | some sg => s.tenErr n (P.ten n 11) 0x40 0xFF sg.1
    | none => s
  match s.apPoison n off len with
  | some o => ((splitRead (s.tnFn n) off data (s.apAddr n) s.hmp).foldl State.emit s1.tick).flog n 3 0x08 8 0xFFFF o
  | none => s1.tick.emit (.aperture (s.tnFn n) off data false)

/-- The Hamper address behind an owner-aperture offset: everything but FREE compartments and those being freed. -/
def State.ownAddr (s : State) (off : Nat) : Option Nat :=
  let v := s.comp (off / 65536)
  if off / 65536 < 4096 && v.state != 0 && !v.clearing then some off else none

/-- What the owner reads of compartment c: the stored bytes; of a device-region compartment that traffic has passed through, bytes that the spec does not place (log entry 71). -/
def State.ownBytes (s : State) (a n : Nat) : List Byte :=
  let c := a / 65536
  if 4024 ≤ c && bitOf s.transit (min 4 ((c - 4024) / 16)) then (List.range n).map fun i => Config.freeByte s.fresh (a + i) else s.hmp.rdN a n

/-- A read of the owner aperture. -/
def State.ownApRead (s : State) (p off len : Nat) : State :=
  let data := (segs 65536 off len).flatMap fun sg =>
    match s.ownAddr sg.1 with | some a => s.ownBytes a sg.2 | none => List.replicate sg.2 0
  let s0 := match (segs 65536 off len).find? fun sg => (s.ownAddr sg.1).isNone with
    | some sg => s.countErr (P.hmp 0) 0x40 0xFF sg.1
    | none => s
  let s1 := s0.tick
  if (segs 64 off len).any fun sg => match s.ownAddr sg.1 with | some a => s.hmp.linePoison (a / 64) | none => false
  then (splitRead p off data s.ownAddr s.hmp).foldl State.emit s1
  else s1.emit (.aperture p off data false)

/-- A read of the aperture of tenant n: an AtomicOp completes with Unsupported Request (05 R105); the port's earlier writes land first (05 R114). -/
def State.apReadFrom (s : State) (n : Fin 128) (off len : Nat) (atomic : Bool) : State :=
  if s.devFailed then s.emit (.abort n)
  else if !s.reach (.tenant n) then s
  else if atomic then s.emit (.unsupported (s.tnFn n))
  else if !s.ready || s.tnState n == 3 then s.emit (.aperture (s.tnFn n) off (List.replicate len 0) false)
  else (s.landClient (s.tnPort n)).tenApRead n off len

/-! Allocation (05 R109-R111, R116, R117). -/

/-- The arguments of an allocation command. -/
structure AllocArgs where
  first : Nat
  count : Nat
  part : Nat
  tn : Nat
  tv : Bool
  use : Nat
  slot : Nat
deriving DecidableEq, Repr

/-- The argument registers. -/
def State.allocArgs (s : State) : AllocArgs :=
  let g := s.fld (P.hmp 3)
  ⟨g F.HMP_ALLOC_ARG0_first, g F.HMP_ALLOC_ARG0_count, g F.HMP_ALLOC_ARG1_partition, g F.HMP_ALLOC_ARG1_tenant,
   g F.HMP_ALLOC_ARG1_tenant_valid != 0, g F.HMP_ALLOC_ARG1_use, g F.HMP_ALLOC_ARG1_slot⟩

/-- The compartments a command names. -/
def AllocArgs.comps (a : AllocArgs) : List Nat := (List.range a.count).map (a.first + ·)

/-- The first refusal of R110 that applies to the named compartments and owner, common to both ops. -/
def State.allocCommon (s : State) (op : Nat) (a : AllocArgs) : Option Nat :=
  if a.first + a.count > 4096 ∨ a.count = 0 ∨ (op = 1 ∧ a.slot + a.count > 4096 ∧ a.tv) then some 1
  else if (op ≠ 1 ∧ op ≠ 2) ∨ s.fld (P.pt a.part) F.PT_STS_state = 0 ∨ s.fld (P.pt a.part) F.PT_STS_state = 1 ∨
    (a.tv ∧ ¬ (s.bound a.tn ∧ s.tnPart a.tn = a.part)) ∨
    (op = 1 ∧ (a.use > 6 ∨ (¬ a.tv ∧ a.use ≠ 0))) then some 2
  else if s.fld (P.pt a.part) F.PT_STS_state = 3 ∨ (a.tv ∧ s.tnState a.tn = 3) then some 3
  else none

/-- ALLOC checks 4 to 8: result and the place that caused it. -/
def State.allocCheck (s : State) (a : AllocArgs) : Option (Nat × Nat) :=
  match s.allocCommon 1 a with
  | some r => some (r, 0)
  | none =>
    match a.comps.find? fun c => (s.comp c).state != 0 with
    | some c => some (4, c)
    | none =>
      if s.fld (P.hmp 2) (F.HMP_PT_USED_used a.part) + a.count > s.fld (P.hmp 2) (F.HMP_PT_BUDGET_budget a.part) then some (6, 0)
      else if a.tv ∧ s.fld (P.ten a.tn 11) F.HMP_TQ_USED_used + a.count > s.fld (P.ten a.tn 11) F.HMP_TQ_LIMIT_limit then some (7, 0)
      else if a.tv then
        match (List.range a.count).find? fun i => s.cmap.any fun e => e.2.state == 2 && e.2.tv && e.2.tn == a.tn && e.2.slot == a.slot + i with
        | some i => some (8, a.slot + i)
        | none => none
      else none

/-- FREE checks 4 and 5. -/
def State.freeCheck (s : State) (a : AllocArgs) : Option (Nat × Nat) :=
  match s.allocCommon 2 a with
  | some r => some (r, 0)
  | none =>
    match a.comps.find? fun c => let v := s.comp c
        !(v.state == 2 && v.part == a.part && v.tv == a.tv && (!a.tv || v.tn == a.tn)) with
    | some c => some (4, c)
    | none =>
      match a.comps.find? fun c => (s.comp c).bound with
      | some c => some (5, c)
      | none => none

/-- HMP_STS.free_cnt changes; falling to HMP_LOWWATER or below sets PG_INT_STS bit 1. -/
def State.setFree (s : State) (n : Nat) : State :=
  let old := s.fld (P.hmp 0) F.HMP_STS_free_cnt
  let s1 := s.setFld (P.hmp 0) F.HMP_STS_free_cnt n
  if n < old ∧ n ≤ s.fld (P.hmp 0) F.HMP_LOWWATER_level then s1.event (P.hmp 0) 1 else s1

/-- The command ends. -/
def State.allocEnd (s : State) (result at' : Nat) : State :=
  ((((s.setFlag (P.hmp 3) F.HMP_ALLOC_CMD_go false).setFlag (P.hmp 3) F.HMP_ALLOC_RES_busy false).setFld (P.hmp 3)
    F.HMP_ALLOC_RES_result result).setFld (P.hmp 3) F.HMP_ALLOC_RES_where at').event (P.hmp 0) 0

/-- Every compartment of an ALLOC takes its owner, use and slot. -/
def State.assignComps (s : State) (a : AllocArgs) : State :=
  s.each (List.range a.count) fun i s =>
    s.setComp (a.first + i) ⟨2, a.use, a.part, if a.tv then a.tn else 0, a.tv, false, false, if a.tv then a.slot + i else 0⟩

/-- ALLOC. -/
def State.allocRun (s : State) : State :=
  let a := s.allocArgs
  match s.allocCheck a with
  | some (r, w) => s.allocEnd r w
  | none =>
    let s1 := (s.assignComps a).setFld (P.hmp 2) (F.HMP_PT_USED_used a.part) (s.fld (P.hmp 2) (F.HMP_PT_USED_used a.part) + a.count)
    let s2 := s1.setFree (s.fld (P.hmp 0) F.HMP_STS_free_cnt - a.count)
    let s3 := if a.tv then (s2.setFld (P.ten a.tn 11) F.HMP_TQ_USED_used (s.fld (P.ten a.tn 11) F.HMP_TQ_USED_used + a.count)).event (P.ten a.tn 11) 0 else s2
    s3.allocEnd 0 0

/-- Compartments leave their owner: a job of that partition that runs now may still name them, and one of that tenant their slots (05 R115). -/
def State.leave (s : State) (a : AllocArgs) : State :=
  let slots := if a.tv then a.comps.map fun c => 4096 + (s.comp c).slot else []
  { s with jobs := s.jobs.map fun (e : Nat × Job) =>
      if e.2.ranks.isEmpty || e.2.part != a.part then e
      else (e.1, { e.2 with left := a.comps ++ (if e.2.tn == a.tn then slots else []) ++ e.2.left }) }

/-- FREE: accepted writes land, the clear starts; HAMPER_CLEAR_DONE ends it. -/
def State.freeRun (s : State) : State :=
  let a := s.allocArgs
  match s.freeCheck a with
  | some (r, w) => s.allocEnd r w
  | none =>
    let s1 := (s.landAll.hmpClearComps a.comps).leave a
    let s2 := s1.each a.comps fun c s => s.setComp c { s.comp c with clearing := true }
    { ((s2.setFlag (P.hmp 3) F.HMP_ALLOC_CMD_go true).setFlag (P.hmp 3) F.HMP_ALLOC_RES_busy true) with hmpClr := some (a.first, a.count) }

/-- A write of HMP_ALLOC_CMD: ignored and counted while busy (05 R116). -/
def State.allocWrite (s : State) (rq : Requester) (op : Nat) (go : Bool) : State :=
  if s.flag (P.hmp 3) F.HMP_ALLOC_RES_busy then s.countErr (P.hmp 0) 0x45 (rqCode rq) (accessAddr rq (P.hmp 3) 0x048)
  else
    let s1 := s.setFld (P.hmp 3) F.HMP_ALLOC_CMD_op op
    if !go then s1
    else if op = 1 then s1.allocRun
    else if op = 2 then s1.freeRun
    else match s1.allocCommon op s1.allocArgs with
      | some r => s1.allocEnd r 0
      | none => s1.allocEnd 2 0

/-- HMP_ALLOC (05 R110): a write of HMP_ALLOC_CMD with op 1 and go. -/
def execHmpAlloc (rq : Requester) (s : State) : Host.Outcome State Fault Refusal :=
  .next (s.privWrite rq (P.hmp 3) 0x048 fun s => s.allocWrite rq 1 true)

/-- HMP_FREE (05 R111): a write of HMP_ALLOC_CMD with op 2 and go. -/
def execHmpFree (rq : Requester) (s : State) : Host.Outcome State Fault Refusal :=
  .next (s.privWrite rq (P.hmp 3) 0x048 fun s => s.allocWrite rq 2 true)

/-- A compartment returns to FREE, with its owner's counts. -/
def State.freeComp (s : State) (c : Nat) : State :=
  let v := s.comp c
  let s1 := (s.setComp c Comp.free).setFld (P.hmp 2) (F.HMP_PT_USED_used v.part) (s.fld (P.hmp 2) (F.HMP_PT_USED_used v.part) - 1)
  let s2 := s1.setFree (s1.fld (P.hmp 0) F.HMP_STS_free_cnt + 1)
  if v.tv then s2.setFld (P.ten v.tn 11) F.HMP_TQ_USED_used (s2.fld (P.ten v.tn 11) F.HMP_TQ_USED_used - 1) else s2

/-- The clear of the FREE in progress ends (05 R111, R121). -/
def State.clearDone (s : State) : State :=
  match s.hmpClr with
  | none => s
  | some (f, n) =>
    let v := s.comp f
    let s1 := s.each ((List.range n).map (f + ·)) fun c s => s.freeComp c
    let s2 := if v.tv then s1.event (P.ten v.tn 11) 0 else s1
    { s2.allocEnd 0 0 with hmpClr := none }

/-- HAMPER_CLEAR_DONE. -/
def execHamperClearDone (s : State) : Host.Outcome State Fault Refusal := .next s.clearDone

/-! Quota queries. -/

/-- Consecutive mapped slots of one use from `slot`, at most `fuel`. -/
def State.slotRun (s : State) (n use : Nat) : Nat → Nat → Nat
  | 0, _ => 0
  | fuel + 1, slot =>
    match s.slotComp n slot with
    | some c => if (s.comp c).use == use then 1 + s.slotRun n use fuel (slot + 1) else 0
    | none => 0

/-- The lookup of HMP_TQ_QUERY. -/
def State.slotQuery (s : State) (n slot : Nat) : State :=
  let pg := P.ten n 11
  let s := s.setFld pg F.HMP_TQ_QUERY_slot slot
  match s.slotComp n slot with
  | some c =>
    (((s.setFlag pg F.HMP_TQ_QUERY_RES_mapped true).setFld pg F.HMP_TQ_QUERY_RES_use (s.comp c).use).setFlag pg
      F.HMP_TQ_QUERY_RES_bound (s.comp c).bound).setFld pg F.HMP_TQ_QUERY_RES_run (s.slotRun n (s.comp c).use 4095 slot)
  | none =>
    (((s.setFlag pg F.HMP_TQ_QUERY_RES_mapped false).setFld pg F.HMP_TQ_QUERY_RES_use 0).setFlag pg
      F.HMP_TQ_QUERY_RES_bound false).setFld pg F.HMP_TQ_QUERY_RES_run 0

/-- HMP_TQ_QUERY (05 registers): a write of the slot looks it up. -/
def execHmpTqQuery (rq : Requester) (n : Fin 128) (slot : BitVec 12) (s : State) : Host.Outcome State Fault Refusal :=
  .next (s.tenWrite rq n 11 0x050 fun s => s.slotQuery n slot.toNat)

/-- The compartment map after bring-up step 9 (05 R119): FIRMWARE below `fw`, DEVICE from 4024, all else FREE; every line outside the firmware region is cleared, and budgets and limits are 0. -/
def State.hmpInit (s : State) (fw : Nat) : State :=
  let lines := 1024 * fw
  let m : Mem := ⟨s.hmp.bytes.filter (decide <| ·.1 < 65536 * fw), s.hmp.valid.filter (decide <| ·.1 < lines), s.hmp.poison.filter (decide <| ·.1 < lines)⟩
  let fws := (List.range fw).map fun c => (c, (⟨1, 0, 0, 0, false, false, false, 0⟩ : Comp))
  let devs := (List.range 72).map fun i => (4024 + i, (⟨3, if i < 64 then 7 else 8, 0, 0, false, false, false, 0⟩ : Comp))
  let s1 := { s with hmp := m, hmpPend := [], hmpClr := none, cmap := fws ++ devs }
  let s2 := (s1.setFld (P.hmp 0) F.HMP_STS_free_cnt (4024 - fw)).setFld (P.hmp 0) F.HMP_STS_fw_cnt fw
  let s3 := s2.each (List.range 8) fun p s => (s.setFld (P.hmp 2) (F.HMP_PT_BUDGET_budget p) 0).setFld (P.hmp 2) (F.HMP_PT_USED_used p) 0
  s3.each (List.range 128) fun n s => (s.setFld (P.ten n 11) F.HMP_TQ_LIMIT_limit 0).setFld (P.ten n 11) F.HMP_TQ_USED_used 0

/-- The firmware region shrinks at ready (04 R90): released compartments become FREE, cleared. -/
def State.hmpShrink (s : State) (fw : Nat) : State :=
  let old := s.fld (P.hmp 0) F.HMP_STS_fw_cnt
  let cs := (List.range (old - fw)).map (fw + ·)
  let s1 := s.hmpClearComps cs
  let s2 := s1.each cs fun c s => s.setComp c Comp.free
  (s2.setFld (P.hmp 0) F.HMP_STS_free_cnt (4024 - fw)).setFld (P.hmp 0) F.HMP_STS_fw_cnt fw

end Sys2Proof.Machine
end

