-- ==== Sys2Proof/Machine/Queues.lean ====
section
/-! DEFINITION. Submission and completion queues (06 R131-R141, R147-R153): doorbells, fetch and checks, completion entries, interrupt coalescing, queue configuration, cancels. -/
namespace Sys2Proof.Machine

/-! Fields. -/

def qf (s : State) (n q : Nat) (f : Fld) : Nat := s.fld (P.queue n q) f
/-- Q_STS.state: 0 disabled, 1 running, 2 CFG_ERROR, 3 CQ_ERROR. -/
def State.qState (s : State) (n q : Nat) : Nat := qf s n q F.Q_STS_state
def State.sqTail (s : State) (n q : Nat) : Nat := qf s n q F.Q_SQ_TAIL_count
def State.sqHead (s : State) (n q : Nat) : Nat := qf s n q F.Q_SQ_HEAD_count
def State.cqTail (s : State) (n q : Nat) : Nat := qf s n q F.Q_CQ_TAIL_count
def State.cqHead (s : State) (n q : Nat) : Nat := qf s n q F.Q_CQ_HEAD_count
def State.sqSize (s : State) (n q : Nat) : Nat := 2 ^ qf s n q F.Q_SQ_CFG_log2_size
def State.cqSize (s : State) (n q : Nat) : Nat := 2 ^ qf s n q F.Q_CQ_CFG_log2_size

/-- a − b modulo 65,536. -/
def sub16 (a b : Nat) : Nat := (a + 65536 - b % 65536) % 65536

/-- Free descriptors of the submission queue (06 R135). -/
def State.sqFree (s : State) (n q : Nat) : Nat := s.sqSize n q - sub16 (s.sqTail n q) (s.sqHead n q)

/-- Entries written and not returned. -/
def State.cqOut (s : State) (n q : Nat) : Nat := sub16 (s.cqTail n q) (s.cqHead n q)

/-- Slots of the completion queue in use: written and not returned, held in TRANSIT, reserved (06 R128, R138). -/
def State.cqUsed (s : State) (n q : Nat) : Nat := s.cqOut n q + (s.queue n q).heldEntries.length + (s.queue n q).reserved

/-- No slot can be reserved for a job result (06 R138). -/
def State.cqFull (s : State) (n q : Nat) : Bool :=
  decide (s.cqSize n q - 1 ≤ s.cqUsed n q) || !(s.queue n q).heldReport.isEmpty

/-! Completion entries (06 R133, R137-R139). -/

/-- Send the queue's message, or hold it while the port is in D3hot (06 R128). -/
def State.cqSignal (s : State) (n q : Nat) : State :=
  let v := s.queue n q
  let s1 := s.setQueue n q { v with unsignalled := 0, coalStart := none, heldMsix := (s.port (s.tnPort n)).d3 }
  if (s.port (s.tnPort n)).d3 then s1 else s1.msix (s.tnFn n) q

/-- Interrupt decision after an entry (06 R139). -/
def State.cqNotify (s : State) (n q : Nat) (irqNow : Bool) : State :=
  let v := s.queue n q
  let s1 := s.setQueue n q { v with unsignalled := v.unsignalled + 1
                                    coalStart := if v.unsignalled = 0 then some s.now else v.coalStart }
  if irqNow || decide (qf s n q F.Q_CQ_CFG_coal_cnt ≤ v.unsignalled + 1) then s1.cqSignal n q else s1

/-- The 32 bytes of a completion entry (06 R133), little-endian; flags bit 0 is the phase, bit 1 loaded, bits 7:2 are 0. -/
def CqEntry.bytes (e : CqEntry) : List Byte :=
  leBytes 4 e.tag ++ leBytes 2 e.sqHead ++ leBytes 1 e.status ++ leBytes 1 (b2n e.phase + 2 * b2n e.loaded) ++ leBytes 2 e.epoch ++
  leBytes 2 e.detail ++ leBytes 2 e.core ++ leBytes 1 e.width ++ leBytes 1 e.queue ++ leBytes 8 e.cookie ++ leBytes 4 e.result ++ leBytes 4 e.runUs

/-- The PASID a queue attaches to its completion entries and COPY requests (06 R124). -/
def State.qPasid (s : State) (n q : Nat) : Option Nat :=
  if qf s n q F.Q_PASID_enable != 0 then some (qf s n q F.Q_PASID_pasid) else none

/-- A write of Q_CQ_CFG: a message is due where the unsignalled entries reach the new coal_cnt (06 R139). -/
def State.coalCheck (s : State) (n q : Nat) : State :=
  if (s.queue n q).unsignalled != 0 && decide (qf s n q F.Q_CQ_CFG_coal_cnt ≤ (s.queue n q).unsignalled) then s.cqSignal n q else s

/-- Put an entry into the completion ring (06 R137): the next number, with its phase and the current SQ head, through the port's TRANSIT compartments (R139). -/
def State.cqPut (s : State) (n q : Nat) (e : CqEntry) (irqNow : Bool) : State :=
  let j := s.cqTail n q
  let k := qf s n q F.Q_CQ_CFG_log2_size
  let base := s.fld64 (P.queue n q) F.Q_CQ_BASE_LO_addr F.Q_CQ_BASE_HI_addr / 4096 * 4096
  let e1 := { e with sqHead := s.sqHead n q, phase := j / 2 ^ k % 2 == 0 }
  let s1 := s.emit (.cqEntry n q j (s.tnFn n) (s.qPasid n q) (base + j % 2 ^ k * 32) e1.bytes false)
  let s2 := s1.setFld (P.queue n q) F.Q_CQ_TAIL_count (j + 1)
  let s3 := s2.setFlag (P.queue n q) F.Q_CQ_TAIL_phase ((j + 1) % 65536 / 2 ^ k % 2 == 0)
  s3.cqNotify n q irqNow

/-- Drop the descriptors that have not started, without entries (06 R153). -/
def State.dropWaiting (s : State) (n q : Nat) : State :=
  let v := s.queue n q
  s.setQueue n q { v with fetched := v.fetched.filter fun d => d.st == .running, ended := [] }

/-- A completion write failed: the queue goes to CQ_ERROR, its unstarted descriptors are completed internally (06 R153). -/
def State.cqError (s : State) (n q : Nat) : State :=
  let s1 := (s.setFld (P.queue n q) F.Q_STS_state 3).dropWaiting n q
  (s1.tenErr n (P.queue n q) 0x46 0xFF 0).event (P.queue n q) 1

/-- Whether a function may originate a request. -/
def State.mayRequest (s : State) (n : Nat) : Bool := (s.fn (s.tnFn n)).bme && (s.fn (s.tnFn n)).memEn

/-- Write one entry to the host, or hold it in TRANSIT while the port is in D3hot (06 R128), or lose it with the queue when the function may not write (06 R153). -/
def State.cqWrite (s : State) (n q : Nat) (e : CqEntry) (irqNow : Bool) : State :=
  if (s.port (s.tnPort n)).d3 then
    s.setQueue n q { s.queue n q with heldEntries := (s.queue n q).heldEntries ++ [e], heldMsix := (s.queue n q).heldMsix || irqNow }
  else if s.mayRequest n then s.cqPut n q e irqNow
  else s.cqError n q

/-- An entry of the tenant is written at all: not in a function reset (06 R155), not in CFG_ERROR or CQ_ERROR (06 R134, R153), and only for a bound context. -/
def State.writesEntries (s : State) (n q : Nat) : Bool :=
  !(s.ten n).suppress && s.qState n q != 2 && s.qState n q != 3 && s.bound n && s.linkUp (s.tnPort n)

/-- The statuses whose tag enters the duplicate window (06 R147): OK, JOB_FAULT, POISON, ENGINE_FAULT. -/
def windowStatus (st : Nat) : Bool := st == 0 || st == 3 || st == 4 || st == 0x0A

/-- Result fields of a completion. -/
structure Done where
  status : Nat
  detail : Nat
  core : Nat
  width : Nat
  result : Nat
deriving DecidableEq, Repr

/-- A completion without cores or result. -/
def Done.plain (status detail : Nat) : Done := ⟨status, detail, 0xFFFF, 0, 0⟩

/-- Microseconds from a start, saturating. -/
def State.usSince (s : State) (t : Nat) : Nat := min (2 ^ 32 - 1) ((s.now - t) / 1000)

/-- A cancel ends once no job it stopped runs and, for a cancel of all, everything it reaches has been fetched (06 R149; log entry 74). -/
def State.cancelEnd (s : State) (n : Nat) : State :=
  match (s.ten n).cancel with
  | some c =>
    if c.nums.isEmpty && (c.upto.isNone || c.upto == some (s.sqHead n c.q) || s.qState n c.q != 1)
    then (s.setTen n { s.ten n with cancel := none }).event (P.ten n 0) 2 else s
  | none => s

/-- A descriptor that a cancel waits for has completed. -/
def State.cancelNote (s : State) (n q num : Nat) : State :=
  match (s.ten n).cancel with
  | some c =>
    if c.q = q then (s.setTen n { s.ten n with cancel := some { c with nums := c.nums.filter (· != num) } }).cancelEnd n else s
  | none => s

/-- The descriptor leaves its queue with an entry. `started` releases the slot it reserved. -/
def State.complete (s : State) (n q : Nat) (d : Desc) (r : Done) : State :=
  let v := s.queue n q
  let started := d.st == .running
  let w := if windowStatus r.status && qf s n q F.Q_SQ_CFG_dup_en != 0 && !(r.status == 4 && d.kind == 0)
    then (d.tag :: v.window).take 256 else v.window
  let s1 := s.setQueue n q { v with fetched := v.fetched.filter (·.num != d.num), ended := v.ended.filter (· != d.num), window := w
                                    reserved := if started then v.reserved - 1 else v.reserved }
  let e : CqEntry := ⟨d.tag, 0, r.status, false, d.loaded, d.epoch, r.detail, r.core, r.width, q, d.cookie, r.result,
    if started then s.usSince d.started else 0⟩
  (if s.writesEntries n q then s1.cqWrite n q e (bitOf d.flags 1) else s1).cancelNote n q d.num

/-- Complete a descriptor that has not started: at once where a slot is free, else when one is (06 R138). -/
def State.completeUnstarted (s : State) (n q : Nat) (d : Desc) (status detail : Nat) : State :=
  if s.writesEntries n q && s.cqFull n q then
    let v := s.queue n q
    s.setQueue n q { v with fetched := v.fetched.map fun e => if e.num = d.num then { e with st := .ended status detail } else e
                            ended := v.ended ++ [d.num] }
  else s.complete n q d (Done.plain status detail)

/-- Write the entries that waited for slots, in the order their descriptors ended (06 R140 rule 2), `fuel` at most. -/
def State.flushEnded (s : State) (n q : Nat) : Nat → State
  | 0 => s
  | fuel + 1 =>
    if s.cqFull n q then s
    else
      match (s.queue n q).ended with
      | [] => s
      | k :: ks =>
        match (s.queue n q).fetched.find? fun d => d.num == k with
        | some d =>
          match d.st with
          | .ended st dt => (s.complete n q d (Done.plain st dt)).flushEnded n q fuel
          | _ => (s.setQueue n q { s.queue n q with ended := ks }).flushEnded n q fuel
        | none => (s.setQueue n q { s.queue n q with ended := ks }).flushEnded n q fuel

/-- A TENANT_RESET report: written into the reserved slot, or held (06 R138). On a port whose link is down it is absorbed (R153). -/
def State.putReport (s : State) (n q : Nat) : State :=
  let e : CqEntry := ⟨0, 0, 7, false, false, s.epoch n, 0, 0xFFFF, 0, q, 0, 0, 0⟩
  if !s.linkUp (s.tnPort n) then s
  else if s.cqSize n q ≤ s.cqUsed n q || !(s.queue n q).heldReport.isEmpty
  then s.setQueue n q { s.queue n q with heldReport := (s.queue n q).heldReport ++ [e] }
  else s.cqWrite n q e false

/-- Write the held reports that find a slot when entries are returned, oldest first. -/
def State.flushReport (s : State) (n q : Nat) : State :=
  s.each (s.queue n q).heldReport fun e s =>
    if s.cqUsed n q < s.cqSize n q then
      let s1 := s.setQueue n q { s.queue n q with heldReport := (s.queue n q).heldReport.tail }
      if s.linkUp (s.tnPort n) then s1.cqWrite n q e false else s1
    else s

/-- Counts moved by the host's window of written or visible entries (06 R135): 0 none, 1 accepted, 2 stale, 3 out of range. -/
def countClass (d free size : Nat) : Nat :=
  if d = 0 then 0 else if d ≤ free then 1 else if 65536 - size < d then 2 else 3

/-- Doorbells and head writes are taken only in running and CQ_ERROR (06 R135), and not in RESETTING or FAULTED (06 R148, 14 R348). -/
def State.takesBells (s : State) (n q : Nat) : Bool :=
  (s.qState n q == 1 || s.qState n q == 3) && s.tnState n != 3 && s.tnState n != 4 && s.tnState n != 1

/-- The doorbell itself (06 R135). -/
def State.doorbell (s : State) (rq : Requester) (n q v : Nat) : State :=
  if !s.takesBells n q then s
  else
    let d := sub16 v (s.sqTail n q)
    match countClass d (s.sqFree n q) (s.sqSize n q) with
    | 0 => s
    | 1 => s.setFld (P.queue n q) F.Q_SQ_TAIL_count v
    | 2 => s.satFld (P.queue n q) F.Q_STS_stale_cnt 1
    | _ => s.tenRegErr rq n (q + 1) 0x044 0x40

/-- DOORBELL (06 R135). -/
def execDoorbell (rq : Requester) (n : Fin 128) (q : Fin 8) (v : BitVec 16) (s : State) : Host.Outcome State Fault Refusal :=
  .next (s.tenWrite rq n (q.val + 1) 0x044 fun s => s.doorbell rq n q v.toNat)

/-! Fetch (06 R131, R132, R136, R147; 13 R322). -/

/-- A field of a descriptor. -/
def dfield (b : List Byte) (off n : Nat) : Nat := leNat ((b.drop off).take n)

/-- The descriptor in 128 bytes. -/
def parseDesc (b : List Byte) (num order epoch : Nat) : Desc :=
  let kind := dfield b 4 1
  { num, order, tag := dfield b 0 4, kind, flags := dfield b 5 1, model := dfield b 6 2
    width := dfield b 8 1, energy := dfield b 0x0A 2, duration := dfield b 0x0C 4, cookie := dfield b 0x10 8
    area := if kind = 4 then [dfield b 0x18 4 % 2 ^ 28, dfield b 0x1C 4, dfield b 0x20 4, dfield b 0x24 4, dfield b 0x28 1]
            else if kind = 6 then [dfield b 0x18 8, dfield b 0x20 4 % 2 ^ 28, dfield b 0x24 4] else []
    args := (List.range 16).map fun i => BitVec.ofNat 32 (dfield b (0x40 + 4 * i) 4)
    epoch, st := .waiting, loaded := false, moved := 0, poison := none, started := 0, clu := none }

/-- Use codes a LOAD or COPY may name: STAGING, LANDING, VCE_IN, VCE_OUT. -/
def dataUses : List Nat := [0, 6, 4, 5]

/-- The failing offsets of R132, in ascending order of the table's rows. -/
def State.descFaults (s : State) (n : Nat) (d : Desc) (version : Nat) : List Nat :=
  let a (i : Nat) : Nat := d.area.getD i 0
  (if d.kind = 0 ∨ 6 < d.kind then [0x04] else []) ++
  (if d.flags / 32 ≠ 0 then [0x05] else []) ++
  (if d.kind = 1 ∧ 7 < d.width then [0x08] else []) ++
  (if version ≠ 1 then [0x09] else []) ++
  (if d.kind = 1 ∧ bitOf d.flags 2 ∧ d.duration = 0 then [0x0C] else []) ++
  (if d.kind = 4 then
    (if s.apRange n (a 0) (a 1) dataUses then [] else [0x18]) ++
    (if a 1 = 0 ∨ a 1 % 64 ≠ 0 ∨ 0x80000 < a 1 then [0x1C] else []) ++
    (if a 2 % 64 ≠ 0 ∨ 0x80000 < a 2 + a 1 then [0x20] else []) ++
    (if a 3 % 8 ≠ 0 ∨ a 1 ≤ a 3 then [0x24] else []) else []) ++
  (if d.kind = 6 then
    (if s.apRange n (a 1) (a 2) dataUses then [] else [0x20]) ++
    (if a 2 = 0 ∨ 0x1000000 < a 2 then [0x24] else []) else [])

/-- A duplicate of a windowed tag or of one fetched and not completed (06 R147); a descriptor that was fetched poisoned has no tag. -/
def State.isDup (s : State) (n q : Nat) (d : Desc) : Bool :=
  qf s n q F.Q_SQ_CFG_dup_en != 0 && bitOf d.flags 0 &&
  ((s.queue n q).window.contains d.tag || (s.queue n q).fetched.any fun e => e.tag == d.tag && e.st != .ended 4 0x46)

/-- Fetch descriptor number `head` of queue q and check it. -/
def State.fetchOne (s : State) (n q : Nat) : State :=
  let i := s.sqHead n q
  let off := qf s n q F.Q_SQ_CFG_base * 2048 + i % s.sqSize n q * 128
  let b := s.apRead n off 128
  let d := parseDesc b i s.order (s.epoch n)
  let dup := s.isDup n q d
  let s1 := { s.setFld (P.queue n q) F.Q_SQ_HEAD_count (i + 1) with order := s.order + 1 }
  let put (e : Desc) (s : State) : State := s.setQueue n q { s.queue n q with fetched := (s.queue n q).fetched ++ [e] }
  match s.apPoison n off 128 with
  | some o =>
    let e := { d with tag := 0, cookie := 0, kind := 0, flags := 0 }
    ((put e s1).flog n 3 0x03 6 0xFFFF o).completeUnstarted n q e 4 0x46
  | none =>
    match (s.descFaults n d (dfield b 9 1)).min? with
    | some o => (put { d with kind := 0 } s1).completeUnstarted n q { d with kind := 0 } 5 o
    | none => if dup then (put { d with kind := 0 } s1).completeUnstarted n q { d with kind := 0 } 1 0 else put d s1

/-- The dispatcher may fetch for a queue: running, tenant ENABLED, port not in D3hot (06 R128, R129). -/
def State.mayFetch (s : State) (n q : Nat) : Bool :=
  s.ready && s.qState n q == 1 && s.tnState n == 2 && !(s.port (s.tnPort n)).d3 && s.sqTail n q != s.sqHead n q

/-- The descriptor at the head of start order, if it may start under the rules of its own queue (06 R140 rule 1, R129, R138). -/
def State.startHead (s : State) (n q : Nat) : Option Desc :=
  if s.ready && s.tnState n == 2 && s.qState n q != 2 && s.qState n q != 3 && !(s.port (s.tnPort n)).d3 && !s.cqFull n q then
    match (s.queue n q).fetched.find? fun d => d.st == .waiting with
    | some d =>
      if qf s n q F.Q_SQ_CFG_ordered != 0 && (s.queue n q).fetched.head?.map (·.num) != some d.num then none else some d
    | none => none
  else none

/-- A descriptor starts: it reserves a slot. -/
def State.startDesc (s : State) (n q : Nat) (d : Desc) : State :=
  let v := s.queue n q
  s.setQueue n q { v with reserved := v.reserved + 1
                          fetched := v.fetched.map fun e => if e.num = d.num then { e with st := .running, started := s.now } else e }

/-- The fetched descriptor with a number. -/
def State.descOf (s : State) (n q num : Nat) : Option Desc := (s.queue n q).fetched.find? (·.num == num)

/-- Replace a fetched descriptor. -/
def State.setDesc (s : State) (n q : Nat) (d : Desc) : State :=
  s.setQueue n q { s.queue n q with fetched := (s.queue n q).fetched.map fun e => if e.num = d.num then d else e }

/-- Every descriptor fetched before `d` from its queue, or from all queues of its tenant, has completed (06 R140 rule 4). -/
def State.fenceDone (s : State) (n q : Nat) (d : Desc) : Bool :=
  (s.queue n q).fetched.all (fun e => decide (d.order ≤ e.order)) &&
  (!bitOf d.flags 3 || (List.range 8).all fun r => (s.queue n r).fetched.all fun e => decide (d.order ≤ e.order))

/-- JOB_FENCE (06 R140 rule 4). -/
def execJobFence (n : Fin 128) (q : Fin 8) (s : State) : Host.Outcome State Fault Refusal :=
  .next <|
    match s.startHead n q with
    | some d => if d.kind = 2 && s.fenceDone n q d then s.completeUnstarted n q d 0 0 else s
    | none => s

/-- JOB_NOP (06 R140 rule 5). -/
def execJobNop (n : Fin 128) (q : Fin 8) (s : State) : Host.Outcome State Fault Refusal :=
  .next <|
    match s.startHead n q with
    | some d => if d.kind = 3 then s.completeUnstarted n q d 0 0 else s
    | none => s

/-- CQ_COAL_TIMER_EXPIRY (06 R139). -/
def execCqCoalTimerExpiry (n : Fin 128) (q : Fin 8) (s : State) : Host.Outcome State Fault Refusal :=
  .next (if (s.queue n q).unsignalled != 0 && qf s n q F.Q_CQ_CFG_coal_us != 0 then s.cqSignal n q else s)

/-- CQ_WRITE_FAIL (06 R153): the last entry written did not arrive; the tail does not count it. -/
def execCqWriteFail (n : Fin 128) (q : Fin 8) (s : State) : Host.Outcome State Fault Refusal :=
  .next <|
    if s.qState n q != 2 && s.cqOut n q != 0 then
      let j := (s.cqTail n q + 65535) % 65536
      let k := qf s n q F.Q_CQ_CFG_log2_size
      ((s.setFld (P.queue n q) F.Q_CQ_TAIL_count j).setFlag (P.queue n q) F.Q_CQ_TAIL_phase (j / 2 ^ k % 2 == 0)).cqError n q
    else s

/-! Queue configuration (06 R134, R147, R152). -/

/-- The compartments under a submission queue. -/
def State.sqComps (s : State) (n q : Nat) : List Nat :=
  s.apComps n (qf s n q F.Q_SQ_CFG_base * 2048) (128 * s.sqSize n q)

/-- The check at enable (06 R134). -/
def State.queueOk (s : State) (n q : Nat) : Bool :=
  let a := qf s n q F.Q_SQ_CFG_log2_size
  let b := qf s n q F.Q_CQ_CFG_log2_size
  decide (4 ≤ a ∧ a ≤ 12 ∧ 4 ≤ b ∧ b ≤ 12) &&
  s.apRange n (qf s n q F.Q_SQ_CFG_base * 2048) (128 * s.sqSize n q) [1]

/-- The queue pair is enabled: running with its compartments bound, or CFG_ERROR. -/
def State.queueOn (s : State) (rq : Requester) (n q : Nat) : State :=
  let s1 := s.setFld (P.queue n q) F.Q_STS_stale_cnt 0
  let k := qf s n q F.Q_CQ_CFG_log2_size
  if s.queueOk n q then
    ((s1.bindComps (s.sqComps n q) true).setFld (P.queue n q) F.Q_STS_state 1).setFlag (P.queue n q) F.Q_CQ_TAIL_phase
      (s.cqTail n q / 2 ^ k % 2 == 0)
  else ((s1.setFld (P.queue n q) F.Q_STS_state 2).tenRegErr rq n (q + 1) 0x040 0x42).event (P.queue n q) 0

/-- The queue pair is disabled: fetching stops, the duplicate window clears, compartments that no other running queue of the tenant lies in are unbound (05 R104). -/
def State.queueOff (s : State) (n q : Nat) : State :=
  let others := ((List.range 8).filter fun r => r != q && (s.qState n r == 1 || s.qState n r == 3)).flatMap fun r => s.sqComps n r
  let s1 := if s.qState n q == 1 || s.qState n q == 3 then s.bindComps ((s.sqComps n q).filter fun c => !others.contains c) false else s
  ((s1.setQueue n q { s1.queue n q with window := [] }).setFld (P.queue n q) F.Q_STS_state 0).cancelEnd n

/-- Bits of Q_SQ_CFG that may change only while enable is 0. -/
def sqProtected (v : Nat) : Nat := bits v 1 4 + 2 ^ 7 * bits v 7 2 + 2 ^ 11 * bits v 11 17

/-- The stored Q_SQ_CFG as a dword. -/
def State.sqCfg (s : State) (n q : Nat) : Nat :=
  qf s n q F.Q_SQ_CFG_enable + 2 * qf s n q F.Q_SQ_CFG_log2_size + 2 ^ 5 * qf s n q F.Q_SQ_CFG_priority +
  2 ^ 7 * qf s n q F.Q_SQ_CFG_ordered + 2 ^ 8 * qf s n q F.Q_SQ_CFG_dup_en + 2 ^ 11 * qf s n q F.Q_SQ_CFG_base

/-- A write of Q_SQ_CFG (06 R152): the enable before the write decides whether the other fields may change. -/
def State.sqCfgWrite (s : State) (rq : Requester) (n q v : Nat) : State :=
  let pg := P.queue n q
  let was := s.flag pg F.Q_SQ_CFG_enable
  let on := bitOf v 0
  let s1 := s.setFld pg F.Q_SQ_CFG_priority (bits v 5 2)
  let s2 :=
    if was then
      if sqProtected v = sqProtected (s.sqCfg n q) then s1
      else s1.countErr pg 0x43 (rqCode rq) (accessAddr rq pg 0x040)
    else (((s1.setFld pg F.Q_SQ_CFG_log2_size (bits v 1 4)).setFld pg F.Q_SQ_CFG_ordered (bits v 7 1)).setFld pg
      F.Q_SQ_CFG_dup_en (bits v 8 1)).setFld pg F.Q_SQ_CFG_base (bits v 11 17)
  if on then (if was then s2 else (s2.setFlag pg F.Q_SQ_CFG_enable true).queueOn rq n q)
  else (s2.queueOff n q).setFlag pg F.Q_SQ_CFG_enable false

/-- QUEUE_ENABLE (06 R134): a write of Q_SQ_CFG with enable 1. -/
def execQueueEnable (rq : Requester) (n : Fin 128) (q : Fin 8) (cfg : Word) (s : State) : Host.Outcome State Fault Refusal :=
  .next (s.tenWrite rq n (q.val + 1) 0x040 fun s => s.sqCfgWrite rq n q (cfg ||| 1#32).toNat)

/-- QUEUE_DISABLE (06 R147): a write of Q_SQ_CFG with enable 0. -/
def execQueueDisable (rq : Requester) (n : Fin 128) (q : Fin 8) (cfg : Word) (s : State) : Host.Outcome State Fault Refusal :=
  .next (s.tenWrite rq n (q.val + 1) 0x040 fun s => s.sqCfgWrite rq n q (cfg &&& ~~~ 1#32).toNat)

/-! Cancel (06 R141, R148, R149). -/

/-- The running job of a descriptor, by its order number: it gets a verdict unless it has one, and its ranks stop at their next boundary (07 R184). -/
def State.stopJob (s : State) (order : Nat) (verdict : Nat × Nat × Nat) : State :=
  let j := s.job order
  if j.ranks.isEmpty then s
  else s.setJob order { j with stopping := true, verdict := if j.verdict.isSome then j.verdict else some verdict }

/-- The loads of a LOAD descriptor are abandoned. -/
def State.dropLoads (s : State) (n q num : Nat) : State :=
  let l : Tab (List LoadOp) := s.loads.map fun (e : Nat × List LoadOp) => (e.1, e.2.filter fun l => l.desc != some (n, q, num))
  { s with loads := l.filter fun (e : Nat × List LoadOp) => !e.2.isEmpty }

/-- Cancel one descriptor: unstarted ones complete at once; a job stops; a COPY or LOAD in progress ends. -/
def State.cancelDesc (s : State) (n q : Nat) (d : Desc) : State :=
  match d.st with
  | .running =>
    if d.kind = 1 then s.stopJob d.order (2, 1, 0)
    else
      (s.dropLoads n q d.num).complete n q d ⟨2, 1, 0xFFFF, 0, d.moved⟩
  | .waiting => s.completeUnstarted n q d 2 0
  | .ended _ _ => s

/-- A cancel of all in progress fetches what it reaches, 64 descriptors at most being fetched and not completed (06 R136, R141), and cancels each. -/
def State.cancelFetch (s : State) (n q : Nat) : Nat → State
  | 0 => s
  | fuel + 1 =>
    match (s.ten n).cancel with
    | some c =>
      if c.upto = some (s.sqHead n q) then s.setTen n { s.ten n with cancel := some { c with upto := none } }
      else if c.q = q && c.upto.isSome && s.mayFetch n q && decide ((s.queue n q).fetched.length < 64) then
        let k := s.sqHead n q
        let s1 := (s.addFld (P.ten n 0) F.TN_CANCEL_RES_found 1).fetchOne n q
        let s2 := match (s1.queue n q).fetched.find? fun (d : Desc) => d.num == k && d.st == .waiting with
          | some d => s1.cancelDesc n q d
          | none => s1
        s2.cancelFetch n q fuel
      else s
    | none => s

/-- The cancel of queue q goes on where it can. -/
def State.cancelMore (s : State) (n q : Nat) : State := (s.cancelFetch n q 4096).cancelEnd n

/-- The cancel itself (06 R141): dropped in RESETTING (R148), ignored while an earlier one runs (R149). Descriptors that already ended and only wait for a slot are not covered. -/
def State.cancel (s : State) (n q : Nat) (all : Bool) : State :=
  if s.tnState n == 3 || (s.ten n).cancel.isSome then s
  else
    let pg := P.ten n 0
    let s0 := (s.setFld pg F.TN_CANCEL_CMD_queue q).setFlag pg F.TN_CANCEL_CMD_all all
    let tag := s.fld pg F.TN_CANCEL_TAG_tag
    let ds := (s0.queue n q).fetched.filter fun d =>
      (all || d.tag == tag) && match d.st with | .ended _ _ => false | _ => true
    let s1 := s0.each ds fun d s => s.cancelDesc n q d
    let run := (s1.queue n q).fetched.filter fun d => d.st == .running && ds.any (·.num == d.num)
    let c : CancelSt := ⟨q, if all && s.mayFetch n q then some (s.sqTail n q) else none, run.map (·.num)⟩
    ((s1.setFld pg F.TN_CANCEL_RES_found ds.length).setTen n { s1.ten n with cancel := some c }).cancelMore n q

/-- TENANT_CANCEL (06 R141): a write of TN_CANCEL_CMD with go. -/
def execTenantCancel (rq : Requester) (n : Fin 128) (q : Fin 8) (all : Bool) (s : State) : Host.Outcome State Fault Refusal :=
  .next (s.tenWrite rq n 0 0x04C fun s => s.cancel n q all)

/-- DESCRIPTOR_FETCH (06 R136): at most 64 fetched and not completed. What a cancel of all in progress reaches is cancelled as it is fetched. -/
def execDescriptorFetch (n : Fin 128) (q : Fin 8) (s : State) : Host.Outcome State Fault Refusal :=
  .next <|
    if s.mayFetch n q && decide ((s.queue n q).fetched.length < 64) then
      match (s.ten n).cancel with
      | some c => if c.q = q.val ∧ c.upto.isSome then s.cancelMore n q else s.fetchOne n q
      | none => s.fetchOne n q
    else s

/-- The head write itself (06 R137): entries the host returned may release reports and waiting entries. -/
def State.cqHeadWrite (s : State) (rq : Requester) (n q v : Nat) : State :=
  if !((s.qState n q == 1 || s.qState n q == 3) && s.tnState n != 3) then s
  else
    let d := sub16 v (s.cqHead n q)
    match countClass d (s.cqOut n q) (s.cqSize n q) with
    | 0 => s
    | 1 => (((s.setFld (P.queue n q) F.Q_CQ_HEAD_count v).flushReport n q).flushEnded n q 128).cancelMore n q
    | 2 => s
    | _ => s.tenRegErr rq n (q + 1) 0x058 0x41

/-- CQ_HEAD_WRITE (06 R137). -/
def execCqHeadWrite (rq : Requester) (n : Fin 128) (q : Fin 8) (v : BitVec 16) (s : State) : Host.Outcome State Fault Refusal :=
  .next (s.tenWrite rq n (q.val + 1) 0x058 fun s => s.cqHeadWrite rq n q v.toNat)

end Sys2Proof.Machine
end

