-- ==== Sys2Proof/Machine/Companions.lean ====
section
/-! DEFINITION. Companion cores (07 R178-R180, R188, R192): grants, start, stop and end of the programs on HP4 to HP15. -/
namespace Sys2Proof.Machine

def resv0 : Nat → Option (Nat × List Byte) := fun _ => none

/-- HPC_STS.state: 0 FREE, 1 GRANTED, 2 RUNNING, 3 EXITED, 4 FAULTED, 5 STOPPING; HP0 to HP3 read 2. -/
def State.hpcState (s : State) (h : Nat) : Nat := s.fld (P.hpc h) F.HPC_STS_state
def State.hpcTenant (s : State) (h : Nat) : Nat := s.fld (P.hpc h) F.HPC_GRANT_tenant
def State.hpcGranted (s : State) (h : Nat) : Bool := s.flag (P.hpc h) F.HPC_GRANT_valid

/-- A program is on the core: RUNNING, or STOPPING until its end. -/
def State.hpcBusy (s : State) (h : Nat) : Bool := s.hpcState h == 2 || s.hpcState h == 5

/-- Partition p's companion share includes HP h. -/
def State.hpcShared (s : State) (p h : Nat) : Bool := decide (4 ≤ h) && bitOf (s.fld (P.pt p) F.PT_CFG_companion) (h - 4)

/-- Take a grant away: the core is FREE (R192). -/
def State.hpcFree (s : State) (h : Nat) : State :=
  ((((s.setFld (P.hpc h) F.HPC_GRANT_partition 0).setFld (P.hpc h) F.HPC_GRANT_tenant 0).setFlag (P.hpc h) F.HPC_GRANT_valid false).setFld
    (P.hpc h) F.HPC_STS_state 0)

/-- A write of HPC_GRANT: a busy core counts HPC_BUSY; a valid grant outside the partition's share, or to a tenant that is not bound to the partition, counts HPC_NOT_SHARED. -/
def State.hpcGrant (s : State) (rq : Requester) (h w : Nat) : State :=
  let p := bits w 0 3
  let n := bits w 3 7
  let a := accessAddr rq (P.hpc h) 0x044
  let put (v : Bool) (s : State) : State :=
    (((s.setFld (P.hpc h) F.HPC_GRANT_partition p).setFld (P.hpc h) F.HPC_GRANT_tenant n).setFlag (P.hpc h)
        F.HPC_GRANT_valid v).setFld (P.hpc h) F.HPC_STS_state (b2n v)
  if h < 4 then s
  else if s.hpcBusy h then s.countErr (P.hpc h) 0x41 (rqCode rq) a
  else if bitOf w 10 then
    if !s.hpcShared p h || !s.bound n || s.tnPart n != p then s.countErr (P.hpc h) 0x40 (rqCode rq) a else put true s
  else put false s

/-- HPC_GRANT_WRITE. -/
def execHpcGrantWrite (rq : Requester) (h : Fin 16) (v : Word) (s : State) : Host.Outcome State Fault Refusal :=
  .next <| s.privWrite rq (P.hpc h) 0x044 fun s => s.hpcGrant rq h v.toNat

/-- Start the companion program: in GRANTED, EXITED or FAULTED. -/
def State.hpcStart (s : State) (h : Nat) : State :=
  if 4 ≤ h ∧ s.hpcGranted h ∧ (s.hpcState h = 1 ∨ s.hpcState h = 3 ∨ s.hpcState h = 4) then
    ({ s with hpcResv := Tab.set resv0 s.hpcResv h none }.setFld (P.hpc h) F.HPC_STS_state 2).setFlag (P.hpc h) F.HPC_EXIT_valid false
  else s

/-- HPC_START. -/
def execHpcStart (rq : Requester) (h : Fin 16) (s : State) : Host.Outcome State Fault Refusal :=
  .next <| s.privWrite rq (P.hpc h) 0x04C fun s => s.hpcStart h

/-- A running program begins to stop with a cause (R180). -/
def State.hpcStop (s : State) (h cause : Nat) : State :=
  if 4 ≤ h ∧ s.hpcState h = 2 then { s with hpcCause := Tab.set nat0 s.hpcCause h cause }.setFld (P.hpc h) F.HPC_STS_state 5 else s

/-- HPC_STOP. -/
def execHpcStop (rq : Requester) (h : Fin 16) (s : State) : Host.Outcome State Fault Refusal :=
  .next <| s.privWrite rq (P.hpc h) 0x04C fun s => s.hpcStop h 4

/-- Record the end of a program. -/
def State.hpcEnd (s : State) (h st code cause tval : Nat) : State :=
  let pg := P.hpc h
  ((((s.setFld pg F.HPC_STS_state st).setFld pg F.HPC_EXIT_code code).setFld pg F.HPC_EXIT_cause cause).setFlag pg
    F.HPC_EXIT_valid true).setFld64 pg F.HPC_TVAL_LO_tval F.HPC_TVAL_HI_tval tval |>.event pg (if st = 4 then 1 else 0)

/-- COMPANION_ECALL: a7 = 0 exits with a0[15:0]; any other call is a fault with cause 7. -/
def execCompanionEcall (h : Fin 16) (a7 a0 : Dword) (s : State) : Host.Outcome State Fault Refusal :=
  .next <|
    if h.val < 4 ∨ s.hpcState h ≠ 2 then s
    else if a7 = 0 then s.hpcEnd h 3 (a0.toNat % 65536) 0 0
    else (s.hpcEnd h 4 0 7 0).flog (s.hpcTenant h) 4 0x04 7 h 0

/-- HPC_EXIT cause of an exception; poison is an access fault (13 R322). -/
def causeCode : CompanionCause → Nat
  | .illegal => 1
  | .access => 2
  | .misaligned => 3
  | .poison => 2

/-- The fault log address of poison a program met: the aperture offset inside the compartment window (13 R325, 07 R179). -/
def hpcPoisonAddr (a : Nat) : Nat :=
  if 0x4000000000 ≤ a ∧ a < 0x4010000000 then a - 0x4000000000 else a

/-- A running program ends as faulted by an exception (07 R180; 13 R322, R325). -/
def State.hpcFault (s : State) (h : Nat) (c : CompanionCause) (tval : Nat) : State :=
  if h < 4 ∨ s.hpcState h ≠ 2 then s
  else
    let s1 := s.hpcEnd h 4 0 (causeCode c) tval
    if c = .poison then s1.flog (s.hpcTenant h) 3 0x04 9 0xFFFF (hpcPoisonAddr tval)
    else s1.flog (s.hpcTenant h) 4 0x04 (causeCode c) h tval

/-- COMPANION_EXCEPTION. Poison that the firmware on HP0 to HP3 consumes fails the device as the loss of HCLK does (13 R322). -/
def execCompanionException (h : Fin 16) (c : CompanionCause) (tval : Dword) (s : State) : Host.Outcome State Fault Refusal :=
  .next (if h.val < 4 ∧ c = .poison then s.hubLost 0 else s.hpcFault h c tval.toNat)

/-- A stopping program has ended: EXITED with the cause of the stop; after a partition reset or dissolution the grant goes too (R192). -/
def State.hpcStopped (s : State) (h : Nat) : State :=
  if s.hpcState h ≠ 5 then s
  else
    let c := Tab.get nat0 s.hpcCause h
    let s1 := { s with hpcCause := Tab.set nat0 s.hpcCause h 0 }.hpcEnd h 3 0 c 0
    if c = 6 then s1.hpcFree h else s1

/-- COMPANION_STOPPED. -/
def execCompanionStopped (h : Fin 16) (s : State) : Host.Outcome State Fault Refusal := .next (s.hpcStopped h)

end Sys2Proof.Machine
end

