-- ==== Sys2Proof/Machine/Flags.lean ====
section
/-! DEFINITION. Floating-point arithmetic and flags of the thread-group unit and the matrix engine (07 R164, R169-R174): formats, exact values, one rounding, FPSTAT bits. Rounding modes are FPMODE's: 0 nearest-even, 1 toward zero, 2 down, 3 up. -/
namespace Sys2Proof.Machine

/-- A floating-point format: exponent bits, fraction bits, E4M3's layout (no infinity, one NaN code). -/
structure FpFmt where
  eb : Nat
  mb : Nat
  e4m3 : Bool
deriving DecidableEq, Repr

def fmtF32 : FpFmt := ⟨8, 23, false⟩
def fmtBf16 : FpFmt := ⟨8, 7, false⟩
def fmtF16 : FpFmt := ⟨5, 10, false⟩
def fmtE4m3 : FpFmt := ⟨4, 3, true⟩
def fmtE5m2 : FpFmt := ⟨5, 2, false⟩

def FpFmt.bias (f : FpFmt) : Nat := 2 ^ (f.eb - 1) - 1
/-- Exponent of the smallest normal number. -/
def FpFmt.emin (f : FpFmt) : Int := 1 - (f.bias : Int)
/-- Code of the largest finite number. -/
def FpFmt.maxCode (f : FpFmt) : Nat := if f.e4m3 then 0x7E else (2 ^ f.eb - 1) * 2 ^ f.mb - 1
/-- Code of infinity; a format without one has its NaN there. -/
def FpFmt.infCode (f : FpFmt) : Nat := f.maxCode + 1
/-- The canonical positive quiet NaN (07 R172). -/
def FpFmt.nanCode (f : FpFmt) : Nat := if f.e4m3 then 0x7F else (2 ^ f.eb - 1) * 2 ^ f.mb + 2 ^ (f.mb - 1)
def FpFmt.signBit (f : FpFmt) : Nat := 2 ^ (f.eb + f.mb)

/-- An exact value: ±m·2^e, an infinity, or a NaN (signalling or quiet). -/
inductive Fp where
  | nan (signalling : Bool)
  | inf (neg : Bool)
  | num (neg : Bool) (m : Nat) (e : Int)
deriving DecidableEq, Repr

/-! FPSTAT bits (07 R164). -/
def fInvalid : Nat := 1
def fDivZero : Nat := 2
def fOverflow : Nat := 4
def fUnderflow : Nat := 8
def fInexact : Nat := 16

/-- The value of a code; with `daz` a subnormal is a zero of the same sign (07 R173). -/
def FpFmt.decode (f : FpFmt) (w : Nat) (daz : Bool) : Fp :=
  let neg := bitOf w (f.eb + f.mb)
  let ex := w / 2 ^ f.mb % 2 ^ f.eb
  let fr := w % 2 ^ f.mb
  if f.e4m3 && ex == 15 && fr == 7 then .nan false
  else if !f.e4m3 && ex == 2 ^ f.eb - 1 then (if fr = 0 then .inf neg else .nan (!bitOf fr (f.mb - 1)))
  else if ex = 0 then .num neg (if daz then 0 else fr) (f.emin - f.mb)
  else .num neg (2 ^ f.mb + fr) ((ex : Int) - f.bias - f.mb)

/-- Whether a discarded part `r` of `2^sh` rounds the kept part `q` up in magnitude. -/
def roundsUp (mode : Nat) (neg : Bool) (q r sh : Nat) : Bool :=
  match mode with
  | 0 => decide (2 ^ sh < 2 * r) || (2 * r == 2 ^ sh && q % 2 == 1)
  | 1 => false
  | 2 => neg && r != 0
  | _ => !neg && r != 0

/-- m·2^e as a multiple of 2^q, rounded, and whether the value changed. -/
def quantize (mode : Nat) (neg : Bool) (m : Nat) (e q : Int) : Nat × Bool :=
  if q ≤ e then (m * 2 ^ (e - q).toNat, false)
  else
    let sh := (q - e).toNat
    let k := m / 2 ^ sh
    let r := m % 2 ^ sh
    (if roundsUp mode neg k r sh then k + 1 else k, r != 0)

/-- The code of magnitude k·2^q, with q at least emin − mb. -/
def FpFmt.code (f : FpFmt) (k : Nat) (q : Int) : Nat :=
  if k < 2 ^ f.mb then k
  else
    let l := Nat.log2 k
    ((l + q + f.bias).toNat) * 2 ^ f.mb + k / 2 ^ (l - f.mb) - 2 ^ f.mb

/-- Round a value into a format: code and flags (07 R172-R174). `sat` takes the largest finite value beyond it; `ftz` flushes a tiny result. Tininess is detected after rounding. -/
def FpFmt.encode (f : FpFmt) (mode : Nat) (sat ftz : Bool) (x : Fp) : Nat × Nat :=
  match x with
  | .nan s => (f.nanCode, if s then fInvalid else 0)
  | .inf neg =>
    let sb := if neg then f.signBit else 0
    if sat then (sb + f.maxCode, fOverflow + fInexact)
    else if f.e4m3 then (f.nanCode, 0) else (sb + f.infCode, 0)
  | .num neg m e =>
    let sb := if neg then f.signBit else 0
    if m = 0 then (sb, 0)
    else
      let qu : Int := Nat.log2 m + e - f.mb
      let ku := (quantize mode neg m e qu).1
      let tiny := decide ((Nat.log2 ku : Int) + qu < f.emin)
      let q := max qu (f.emin - f.mb)
      let kq := quantize mode neg m e q
      let c := f.code kq.1 q
      if c > f.maxCode then
        let toInf := !sat && match mode with | 0 => true | 1 => false | 2 => neg | _ => !neg
        if !toInf then (sb + f.maxCode, fOverflow + fInexact)
        else if f.e4m3 then (f.nanCode, fOverflow + fInexact)
        else (sb + f.infCode, fOverflow + fInexact)
      else if ftz && tiny then (sb, fUnderflow + fInexact)
      else (sb + c, if kq.2 then fInexact + (if tiny then fUnderflow else 0) else 0)

/-! Exact operations: the value before rounding, and flags. -/

def Fp.isNan : Fp → Bool | .nan _ => true | _ => false
def Fp.isSnan : Fp → Bool | .nan s => s | _ => false
def Fp.isZero : Fp → Bool | .num _ m _ => m == 0 | _ => false
def Fp.isInf : Fp → Bool | .inf _ => true | _ => false
def Fp.sign : Fp → Bool | .nan _ => false | .inf n => n | .num n _ _ => n
def Fp.negate : Fp → Fp | .nan s => .nan s | .inf n => .inf (!n) | .num n m e => .num (!n) m e

/-- A signed integer times 2^e. -/
def Fp.ofInt (i : Int) (e : Int) : Fp := .num (decide (i < 0)) i.natAbs e

/-- Signed mantissa at exponent `e`, which is at most the value's. -/
def Fp.atExp : Fp → Int → Int
  | .num n m e', e => (if n then -1 else 1) * (m : Int) * 2 ^ (e' - e).toNat
  | _, _ => 0

def Fp.exp : Fp → Int | .num _ _ e => e | _ => 0

/-- Sum (IEEE 754-2019: ∞ − ∞ is invalid; the sign of an exact zero is + but for rounding down). -/
def fpAdd (mode : Nat) (x y : Fp) : Fp × Nat :=
  match x, y with
  | .nan a, .nan b => (.nan false, if a || b then fInvalid else 0)
  | .nan a, _ => (.nan false, if a then fInvalid else 0)
  | _, .nan b => (.nan false, if b then fInvalid else 0)
  | .inf a, .inf b => if a = b then (.inf a, 0) else (.nan false, fInvalid)
  | .inf a, _ => (.inf a, 0)
  | _, .inf b => (.inf b, 0)
  | .num a m _, .num b n _ =>
    if m = 0 ∧ n = 0 then (.num (if a = b then a else mode == 2) 0 0, 0)
    else
      let e := min x.exp y.exp
      let v := x.atExp e + y.atExp e
      if v = 0 then (.num (mode == 2) 0 0, 0) else (Fp.ofInt v e, 0)

/-- Product (0·∞ is invalid). -/
def fpMul (x y : Fp) : Fp × Nat :=
  match x, y with
  | .nan a, .nan b => (.nan false, if a || b then fInvalid else 0)
  | .nan a, _ => (.nan false, if a then fInvalid else 0)
  | _, .nan b => (.nan false, if b then fInvalid else 0)
  | .inf a, .inf b => (.inf (a != b), 0)
  | .inf a, .num b n _ => if n = 0 then (.nan false, fInvalid) else (.inf (a != b), 0)
  | .num a m _, .inf b => if m = 0 then (.nan false, fInvalid) else (.inf (a != b), 0)
  | .num a m e, .num b n f => (.num (a != b) (m * n) (e + f), 0)

/-- x·y + z, exact. 0·∞ with a quiet NaN: IEEE 754-2019 leaves invalid to the implementation. -/
def fpFma (mode : Nat) (x y z : Fp) : Fp × Nat :=
  let p := fpMul x y
  let s := fpAdd mode p.1 z
  let zeroInf := (x.isZero && y.isInf) || (x.isInf && y.isZero)
  let pf := if zeroInf && z == .nan false && !Config.fmaNanInvalid then 0 else p.2
  (s.1, pf ||| s.2)

/-- x < y for numbers and infinities; −0 is below +0 when `zeros` is set. -/
def fpLt (zeros : Bool) (x y : Fp) : Bool :=
  match x, y with
  | .inf a, .inf b => a && !b
  | .inf a, _ => a
  | _, .inf b => !b
  | .num a m _, .num b n _ =>
    if m = 0 ∧ n = 0 then zeros && a && !b
    else
      let e := min x.exp y.exp
      decide (x.atExp e < y.atExp e)
  | _, _ => false

/-- Minimum or maximum that returns the number when one operand is a NaN (07 R173). -/
def fpMinMax (isMax : Bool) (x y : Fp) : Fp × Nat :=
  let fl := if x.isSnan || y.isSnan then fInvalid else 0
  if x.isNan && y.isNan then (.nan false, fl)
  else if x.isNan then (y, fl)
  else if y.isNan then (x, fl)
  else if (fpLt true x y) != isMax then (x, fl) else (y, fl)

/-! Binary32 under FPMODE (07 R173). -/

/-- FPMODE: rounding and flush. -/
def modeOf (fpmode : Nat) : Nat := fpmode % 4
def ftzOf (fpmode : Nat) : Bool := bitOf fpmode 2

/-- Operand and result of a binary32 operation. -/
def f32In (fpmode : Nat) (w : Word) : Fp := fmtF32.decode w.toNat (ftzOf fpmode)
def f32Out (fpmode : Nat) (r : Fp × Nat) : Word × Nat :=
  let o := fmtF32.encode (modeOf fpmode) false (ftzOf fpmode) r.1
  (BitVec.ofNat 32 o.1, o.2 ||| r.2)

def f32Add (fm : Nat) (a b : Word) : Word × Nat := f32Out fm (fpAdd (modeOf fm) (f32In fm a) (f32In fm b))
def f32Sub (fm : Nat) (a b : Word) : Word × Nat := f32Out fm (fpAdd (modeOf fm) (f32In fm a) (f32In fm b).negate)
def f32Mul (fm : Nat) (a b : Word) : Word × Nat := f32Out fm (fpMul (f32In fm a) (f32In fm b))
def f32Fma (fm : Nat) (a b c : Word) : Word × Nat := f32Out fm (fpFma (modeOf fm) (f32In fm a) (f32In fm b) (f32In fm c))
def f32Min (fm : Nat) (a b : Word) : Word × Nat := f32Out fm (fpMinMax false (f32In fm a) (f32In fm b))
def f32Max (fm : Nat) (a b : Word) : Word × Nat := f32Out fm (fpMinMax true (f32In fm a) (f32In fm b))

/-- VFCMP (07 R176): an ordered compare (0 EQ, 1 NE, 2 LT, 3 LE) with a NaN is false; 4 is unordered. LT and LE set invalid on any NaN, the others on a signalling one. -/
def f32Cmp (fm mod : Nat) (a b : Word) : Bool × Nat :=
  let x := f32In fm a
  let y := f32In fm b
  let nan := x.isNan || y.isNan
  let fl := if x.isSnan || y.isSnan || (nan && (mod == 2 || mod == 3)) then fInvalid else 0
  let lt := fpLt false x y
  let gt := fpLt false y x
  (match mod with
    | 0 => !nan && !lt && !gt
    | 1 => !nan && (lt || gt)
    | 2 => !nan && lt
    | 3 => !nan && !gt
    | _ => nan, fl)

/-- VFSGN (07 R176): 0 abs, 1 negate, 2 sign of the second operand; a NaN result is the canonical one. -/
def f32Sgn (fm mod : Nat) (a b : Word) : Word :=
  let x := f32In fm a
  let neg := match mod with | 0 => false | 1 => !bitOf a.toNat 31 | _ => bitOf b.toNat 31
  let y : Fp := match x with | .nan _ => .nan false | .inf _ => .inf neg | .num _ m e => .num neg m e
  BitVec.ofNat 32 (fmtF32.encode 0 false false y).1

/-- The nearest integer to a number under a rounding, as sign and magnitude, and whether it changed. -/
def Fp.toInteger (mode : Nat) : Fp → Int × Bool
  | .num n m e => let k := quantize mode n m e 0; ((if n then -1 else 1) * (k.1 : Int), k.2)
  | _ => (0, false)

/-- VFRND (07 R176): rounding to an integral number, without inexact. -/
def f32Rnd (fm mod : Nat) (a : Word) : Word × Nat :=
  match f32In fm a with
  | .num n m e =>
    let x : Fp := .num n m e
    f32Out fm (.num n (x.toInteger mod).1.natAbs 0, 0)
  | .nan s => (BitVec.ofNat 32 fmtF32.nanCode, if s then fInvalid else 0)
  | .inf n => f32Out fm (.inf n, 0)

/-- Conversion to a saturating integer of `w` bits (07 R174): NaN gives 0 and invalid; a saturated value sets invalid only. -/
def fpToInt (mode w : Nat) (signed : Bool) (x : Fp) : Int × Nat :=
  let lo : Int := if signed then -(2 ^ (w - 1)) else 0
  let hi : Int := if signed then 2 ^ (w - 1) - 1 else 2 ^ w - 1
  match x with
  | .nan _ => (0, fInvalid)
  | .inf n => (if n then lo else hi, fInvalid)
  | .num n m e =>
    let r := Fp.toInteger mode (.num n m e)
    if r.1 < lo then (lo, fInvalid)
    else if hi < r.1 then (hi, fInvalid)
    else (r.1, if r.2 then fInexact else 0)

/-- Conversion of binary32 into a narrower format, with the result in the low bits. -/
def cvtDown (f : FpFmt) (mode : Nat) (sat : Bool) (fm : Nat) (a : Word) : Word × Nat :=
  let o := f.encode mode sat (ftzOf fm) (f32In fm a)
  (BitVec.ofNat 32 o.1, o.2)

/-- Conversion of a narrower format into binary32. -/
def cvtUp (f : FpFmt) (fm : Nat) (a : Word) : Word × Nat :=
  let x := f.decode (a.toNat % (2 * f.signBit)) (ftzOf fm)
  let o := fmtF32.encode (modeOf fm) false (ftzOf fm) x
  (BitVec.ofNat 32 o.1, o.2)

/-- VCVT (07 R174). Modes 3, 6, 8 and 10 round under FPMODE, mode 4 to nearest even. -/
def f32Cvt (fm mod : Nat) (a : Word) : Word × Nat :=
  let md := modeOf fm
  match mod with
  | 0 => let r := fpToInt md 32 true (f32In fm a); (BitVec.ofInt 32 r.1, r.2)
  | 1 => f32Out fm (Fp.ofInt a.toInt 0, 0)
  | 2 => f32Out fm (Fp.ofInt a.toNat 0, 0)
  | 3 => let r := fpToInt md 32 false (f32In fm a); (BitVec.ofInt 32 r.1, r.2)
  | 4 => cvtDown fmtBf16 0 false fm a
  | 5 => cvtUp fmtBf16 fm a
  | 6 => cvtDown fmtF16 md false fm a
  | 7 => cvtUp fmtF16 fm a
  | 8 => cvtDown fmtE4m3 md true fm a
  | 9 => cvtUp fmtE4m3 fm a
  | 10 => cvtDown fmtE5m2 md false fm a
  | _ => cvtUp fmtE5m2 fm a

/-! VFRCP, VFRSQ, VFEXP2, VFLOG2 (07 R173): within 2 ulp of the exact value; which value is a free constant of the operand. -/

/-- A positive real close to m·2^e, whether it is exactly that, and the sign. -/
structure Approx where
  neg : Bool
  m : Nat
  e : Int
  exact : Bool
deriving DecidableEq, Repr

/-- Fractional bits of log2 of x / 2^200, for x in [2^200, 2^201), by repeated squaring. -/
def log2Bits : Nat → Nat → Nat
  | 0, _ => 0
  | n + 1, x =>
    let y := x * x / 2 ^ 200
    if y ≥ 2 ^ 201 then 2 ^ n + log2Bits n (y / 2) else log2Bits n y

/-- 2^(f / 2^n) · 2^100 for the low `n` bits of `f`, multiplying roots of 2. -/
def exp2Bits : Nat → Nat → Nat → Nat → Nat
  | 0, _, _, acc => acc
  | n + 1, f, root, acc =>
    let r := Nat.sqrt (root * 2 ^ 100)
    exp2Bits n f r (if bitOf f n then acc * r / 2 ^ 100 else acc)

/-- 1/x. -/
def approxRcp (neg : Bool) (m : Nat) (e : Int) : Approx :=
  let k := 2 ^ (100 + Nat.log2 m)
  ⟨neg, k / m * 2 + (if k % m = 0 then 0 else 1), -(e : Int) - 101 - Nat.log2 m, k % m == 0⟩

/-- 1/√x. -/
def approxRsq (m : Nat) (e : Int) : Approx :=
  let m1 := if e % 2 = 0 then m else 2 * m
  let e1 := if e % 2 = 0 then e else e - 1
  let k := 2 ^ 300
  let v := k / m1
  let r := Nat.sqrt v
  let ex := k % m1 == 0 && r * r == v
  ⟨false, 2 * r + (if ex then 0 else 1), -(e1 / 2) - 151, ex⟩

/-- 2^x. -/
def approxExp2 (neg : Bool) (m : Nat) (e : Int) : Approx :=
  let i : Int := (if neg then -1 else 1) * (m : Int)
  let scaled : Int := if 0 ≤ e then i * 2 ^ (e.toNat + 64) else if -64 ≤ e then i * 2 ^ (64 + e).toNat else i / 2 ^ (-64 - e).toNat
  if scaled ≥ 200 * 2 ^ 64 then ⟨false, 1, 300, true⟩
  else if scaled < -(200 * 2 ^ 64) then ⟨false, 1, -300, false⟩
  else
    let f := (scaled % 2 ^ 64).toNat
    let w := scaled / 2 ^ 64
    let ex := decide (0 ≤ e) || decide (-64 ≤ e) && f == 0
    ⟨false, if f = 0 then 2 ^ 101 + (if ex then 0 else 1) else exp2Bits 64 f (2 ^ 101) (2 ^ 100) * 2 + 1, w - 101, ex⟩

/-- log2 of m·2^e; the caller takes x = 1 apart. -/
def approxLog2 (m : Nat) (e : Int) : Approx :=
  let l := Nat.log2 m
  let x := m * 2 ^ 200 / 2 ^ l
  let k : Int := (l : Int) + e
  let v : Int := k * 2 ^ 100 + log2Bits 100 x
  let ex := m == 2 ^ l
  ⟨decide (v < 0), if ex then 2 * v.natAbs else if v < 0 then 2 * v.natAbs - 1 else 2 * v.natAbs + 1, -101, ex⟩

/-- The positive code c of binary32 (infinity read as 2^128) lies within 2 ulp of m·2^e; an ulp is the spacing of binary32 at that value. -/
def within2Ulp (m : Nat) (e : Int) (c : Nat) : Bool :=
  let cm := if c < 2 ^ 23 then c else 2 ^ 23 + c % 2 ^ 23
  let ce : Int := if c < 2 ^ 23 then -149 else (c / 2 ^ 23 : Nat) - 150
  let u : Int := max (Nat.log2 m + e - 23) (-149)
  let b := min e (min ce u)
  decide (((cm * 2 ^ (ce - b).toNat : Nat) - (m * 2 ^ (e - b).toNat : Nat) : Int).natAbs ≤ 2 * 2 ^ (u - b).toNat)

/-- The result within 2 ulp: one of the codes that near the value, free which (log 17), with flags from the code delivered. A value that overflows takes the result of IEEE 754. -/
def approxOut (fm op : Nat) (a : Word) (r : Approx) : Word × Nat :=
  let v : Fp := .num r.neg r.m r.e
  let out := fmtF32.encode (modeOf fm) false (ftzOf fm) v
  let base := (fmtF32.encode (modeOf fm) false false v).1 % 2 ^ 31
  let near := ((List.range 9).map fun i => base + i).filter fun c => decide (4 ≤ c) && decide (c ≤ 0x7F800004) && within2Ulp r.m r.e (c - 4)
  let c := near.getD (Config.fpStep op a % near.length) (base + 4) - 4
  let sb := if r.neg then 2 ^ 31 else 0
  if bitOf out.2 2 || c == base then (BitVec.ofNat 32 out.1, out.2)
  else if c = 0x7F800000 then (BitVec.ofNat 32 (sb + c), fOverflow + fInexact)
  else if c < 2 ^ 23 then (BitVec.ofNat 32 (if ftzOf fm then sb else sb + c), fUnderflow + fInexact)
  else (BitVec.ofNat 32 (sb + c), fInexact)

def f32Nan : Word := BitVec.ofNat 32 fmtF32.nanCode
def f32Inf (neg : Bool) : Word := BitVec.ofNat 32 ((if neg then 2 ^ 31 else 0) + fmtF32.infCode)
def f32Zero (neg : Bool) : Word := BitVec.ofNat 32 (if neg then 2 ^ 31 else 0)

/-- VFRCP. -/
def f32Rcp (fm : Nat) (a : Word) : Word × Nat :=
  match f32In fm a with
  | .nan s => (f32Nan, if s then fInvalid else 0)
  | .inf n => (f32Zero n, 0)
  | .num n m e => if m = 0 then (f32Inf n, fDivZero) else approxOut fm 0 a (approxRcp n m e)

/-- VFRSQ. -/
def f32Rsq (fm : Nat) (a : Word) : Word × Nat :=
  match f32In fm a with
  | .nan s => (f32Nan, if s then fInvalid else 0)
  | .inf n => if n then (f32Nan, fInvalid) else (f32Zero false, 0)
  | .num n m e =>
    if m = 0 then (f32Inf n, fDivZero) else if n then (f32Nan, fInvalid) else approxOut fm 1 a (approxRsq m e)

/-- VFEXP2. -/
def f32Exp2 (fm : Nat) (a : Word) : Word × Nat :=
  match f32In fm a with
  | .nan s => (f32Nan, if s then fInvalid else 0)
  | .inf n => if n then (f32Zero false, 0) else (f32Inf false, 0)
  | .num n m e => approxOut fm 2 a (approxExp2 n m e)

/-- VFLOG2. -/
def f32Log2 (fm : Nat) (a : Word) : Word × Nat :=
  match f32In fm a with
  | .nan s => (f32Nan, if s then fInvalid else 0)
  | .inf n => if n then (f32Nan, fInvalid) else (f32Inf false, 0)
  | .num n m e =>
    if m = 0 then (f32Inf true, fDivZero)
    else if n then (f32Nan, fInvalid)
    else if m = 2 ^ Nat.log2 m ∧ (Nat.log2 m : Int) + e = 0 then (f32Zero false, 0)
    else approxOut fm 3 a (approxLog2 m e)

/-! Reductions and scans (07 R173): a fixed pairwise tree over thread order. -/

/-- One level of the tree. -/
def pairUp {α : Type} (f : α → α → α) : List α → List α
  | a :: b :: l => f a b :: pairUp f l
  | l => l

/-- The tree's root over 2^n leaves. -/
def treeFold {α : Type} (f : α → α → α) (z : α) : Nat → List α → α
  | 0, l => l.getD 0 z
  | n + 1, l => treeFold f z n (pairUp f l)

/-- Combine two results with flags. -/
def withFlags (op : Word → Word → Word × Nat) (a b : Word × Nat) : Word × Nat :=
  let r := op a.1 b.1
  (r.1, r.2 ||| a.2 ||| b.2)

/-- The prefix of the first `n` leaves: the nodes of the aligned blocks that make it up, combined from left to right, largest block first. -/
def blockPrefix {α : Type} (f : α → α → α) (z : α) : Nat → Nat → List α → Option α → α
  | 0, _, l, acc =>
    match acc with
    | none => l.getD 0 z
    | some a => match l with | [] => a | x :: _ => f a x
  | k + 1, n, l, acc =>
    if 2 ^ (k + 1) ≤ n then
      let node := treeFold f z (k + 1) (l.take (2 ^ (k + 1)))
      let acc' := match acc with | none => node | some a => f a node
      if n = 2 ^ (k + 1) then acc' else blockPrefix f z k (n - 2 ^ (k + 1)) (l.drop (2 ^ (k + 1))) (some acc')
    else blockPrefix f z k n l acc

end Sys2Proof.Machine
end

