-- ==== Sys2Proof/Machine/Slices.lean ====
section
/-! DEFINITION. The bonded DRAM slices (09): addressing of near windows and pooled memory, reads, writes and atomics with granule fill, error counting of the SCB pages (13 R316, R319, R321), slice states, relocation and rebuild. -/
namespace Sys2Proof.Machine

/-! Contents. -/

def SMem.rd (m : SMem) (k : Nat) : Byte := Tab.get byte0 m.bytes k

/-- Whether the granule of slice key `k` = 2^27·slice + address is valid, or lost. -/
def SMem.isValid (m : SMem) (k : Nat) : Bool := Tab.get bit0 m.valid (k / 4096)
def SMem.isLost (m : SMem) (k : Nat) : Bool := Tab.get bit0 m.lost (k / 4096)

/-- Read `n` bytes inside one line: data and poison (09 R227, R228; 13 R314). -/
def SMem.read (m : SMem) (k n : Nat) : List Byte × Bool :=
  if m.isLost k then (List.replicate n 0, true)
  else if !m.isValid k then (List.replicate n 0, false)
  else ((List.range n).map fun i => m.rd (k + i), Tab.get bit0 m.poison (k / 64))

/-- Poison every line of a granule. -/
def poisonGranule (p : Tab Bool) (g : Nat) : Tab Bool :=
  (List.range 64).foldl (fun p i => Tab.set bit0 p (64 * g + i) true) p

/-- Write inside one line (09 R227, R228; 13 R315): a clear granule is filled with zeros first, a lost one with poisoned zeros. -/
def SMem.write (m : SMem) (k : Nat) (bs : List Byte) (ep : Bool) : SMem :=
  let g := k / 4096
  let p0 := if m.isLost k then poisonGranule m.poison g else m.poison
  { bytes := wrBytes (if m.isLost k then Tab.clear m.bytes (4096 * g) 4096 else m.bytes) k bs
    valid := Tab.set bit0 m.valid g true
    lost := Tab.set bit0 m.lost g false
    poison := if ep then Tab.set bit0 p0 (k / 64) true
              else if coversLine k bs.length (k / 64) then Tab.set bit0 p0 (k / 64) false else p0 }

/-- Clear the valid and lost bits of `n` granules from granule `g` upward. -/
def SMem.clear (m : SMem) (g n : Nat) : SMem :=
  { bytes := Tab.clear m.bytes (4096 * g) (4096 * n)
    valid := Tab.clear m.valid g n
    lost := Tab.clear m.lost g n
    poison := Tab.clear m.poison (64 * g) (64 * n) }

/-- Clear only the lost bits. -/
def SMem.clearLost (m : SMem) (g n : Nat) : SMem := { m with lost := Tab.clear m.lost g n }

/-- Mark granules lost. -/
def SMem.markLost (m : SMem) (gs : List Nat) : SMem :=
  { m with lost := gs.foldl (fun l g => Tab.set bit0 l g true) m.lost }

/-- Mark granules valid and lost (13 R320). -/
def SMem.markBoth (m : SMem) (gs : List Nat) : SMem :=
  { m with valid := gs.foldl (fun l g => Tab.set bit0 l g true) m.valid
           lost := gs.foldl (fun l g => Tab.set bit0 l g true) m.lost }

/-- Granules, offset by `base`, that are valid or lost among `n`. -/
def SMem.usedGranules (m : SMem) (base n : Nat) : List Nat :=
  (List.range n).filter fun i => Tab.get bit0 m.valid (base + i) || Tab.get bit0 m.lost (base + i)

/-- The canonical form. -/
def SMem.wf (m : SMem) : Bool :=
  Tab.wf byte0 m.bytes && Tab.wf bit0 m.valid && Tab.wf bit0 m.lost && Tab.wf bit0 m.poison

/-! Slice state (09 R236). -/

def State.sliceState (s : State) (x : Nat) : Nat := s.fld (P.slc x) F.SLC_STS_state

/-- IN_SERVICE or QUEUED: all accesses are served. -/
def State.sliceServes (s : State) (x : Nat) : Bool := s.sliceState x == 1 || s.sliceState x == 2

/-- A change of slice state: event bit 0 and a Trail record (13 R319). -/
def State.setSliceState (s : State) (x st cause : Nat) : State :=
  let s1 := (s.setFld (P.slc x) F.SLC_STS_state st).setFld (P.slc x) F.SLC_STS_fail_cause cause
  if s.sliceState x = st then s1
  else (s1.event (P.slc x) 0).trailPut 0x08 0x17 (if st ≤ 1 then 0 else 2) [1, x, st, cause]

/-! Error counting on SCB pages (13 R316, R319, R321). -/

/-- A correction in the current window (R321), and whether the count has reached the threshold by it. -/
def State.scbCe (s : State) (pg : Nat) : State × Bool :=
  let n := s.fld pg F.SCB_CE_CNT_window_ce
  let th := s.fld pg F.SCB_CE_CFG_ce_thresh
  (s.satFld pg F.SCB_CE_CNT_window_ce 1, th != 0 && decide (n < th) && decide (th ≤ n + 1))

/-- One corrected line of a cluster's stores or of the Hamper. -/
def State.sramCe (s : State) (pg : Nat) : State :=
  let r := s.scbCe pg
  if r.2 then r.1.event pg 1 else r.1

/-- One uncorrectable line: counted once, with a Trail record for the first of the instance. -/
def State.scbUe (s : State) (pg lo hi : Nat) : State :=
  let s1 := ((s.countErr pg 0x40 0xFF (lo + 2 ^ 32 * hi)).satFld pg F.SCB_CE_CNT_ue_lines 1).event pg 2
  if Tab.get bit0 s.ueSeen pg then s1
  else { s1 with ueSeen := Tab.set bit0 s1.ueSeen pg true }.trailPut 0x08 0x1C 2 [0, pgId pg, lo, hi]

/-! Addressing (09 R222-R225). -/

/-- Where an access lands: a slice and its address, an Unbacked window, or no address at all. -/
inductive Place where
  | dram (x a : Nat)
  | unbacked
  | unmapped
deriving DecidableEq, Repr

/-- Size of a slice. -/
def sliceSize : Nat := 0x8000000

/-- Pooled share P of a partition. -/
def PartMem.share (m : PartMem) : Nat := sliceSize - m.z

/-- POOLCAP = N·P − D·Z (09 R224). -/
def PartMem.poolcap (m : PartMem) : Nat := m.set.length * m.share - m.d * m.z

/-- The hash of R223: pooled offset to hash set entry and slice address. -/
def poolHash (n z o : Nat) : Nat × Nat :=
  let l := o / 256
  let q := l / n
  let r := l % n
  let h := ((q % 1024) ^^^ (q / 2 ^ 10 % 512)) % n
  ((r + h) % n, z + q * 256 + o % 256)

/-- A pooled offset, below N·P. -/
def PartMem.place (m : PartMem) (o : Nat) : Place :=
  let e := poolHash m.set.length m.z o
  .dram (m.set.getD e.1 0) e.2

/-- Pooled offset `o` of partition `p`. -/
def State.poolPlace (s : State) (p o : Nat) : Place :=
  if o < (s.pm p).poolcap then (s.pm p).place o else .unmapped

/-- Near-window offset `o` of logical core `g` of partition `p`. -/
def State.nearPlace (s : State) (p g o : Nat) : Place :=
  let m := s.pm p
  if m.z ≤ o then .unmapped
  else match s.backing g with
    | .own => .dram (s.physOf g) o
    | .standin x => .dram x o
    | .slot k => m.place (m.poolcap + k * m.z + o)
    | .unbacked => .unbacked

/-- Key of a slice byte. -/
def skey (x a : Nat) : Nat := x * sliceSize + a

/-- Read inside one line of a slice (09 R227, R228, R237): a slice that serves nothing, or one on a fenced tile, returns poison (02 R46). -/
def State.sliceRead (s : State) (x a n : Nat) : List Byte × Bool :=
  if s.sliceServes x && !s.fenced (x / 64) then s.slices.read (skey x a) n else (List.replicate n 0, true)

/-- Bytes moved in DRAM. -/
def State.sliceBytes (s : State) (x n : Nat) : State :=
  s.setFld64 (P.slc x) F.SLC_BYTES_LO_bytes F.SLC_BYTES_HI_bytes (s.fld64 (P.slc x) F.SLC_BYTES_LO_bytes F.SLC_BYTES_HI_bytes + n)

/-- A read of a valid granule is a DRAM access. -/
def State.sliceReadCount (s : State) (x a n : Nat) : State :=
  if s.sliceServes x && !s.fenced (x / 64) && s.slices.isValid (skey x a) && !s.slices.isLost (skey x a) then s.sliceBytes x n else s

/-- The count of a read at a place. -/
def State.placeCount (s : State) (pl : Place) (n : Nat) : State := match pl with | .dram x a => s.sliceReadCount x a n | _ => s

/-- Write inside one line of a slice; to a FAILED slice it is dropped and counted (09 R237). -/
def State.sliceWrite (s : State) (x a : Nat) (bs : List Byte) (ep : Bool) : State :=
  if s.fenced (x / 64) then s
  else if s.sliceServes x then { s with slices := s.slices.write (skey x a) bs ep }.sliceBytes x bs.length
  else if s.sliceState x = 3 then s.countErr (P.slc x) 0x40 0xFF a
  else s

/-- Read at a place. -/
def State.placeRead (s : State) (pl : Place) (n : Nat) : List Byte × Bool :=
  match pl with
  | .dram x a => s.sliceRead x a n
  | _ => (List.replicate n 0, true)

/-- Write at a place; against an Unbacked window it is dropped and counted on the SLC page of the core's physical core (09 R238). -/
def State.placeWrite (s : State) (g : Nat) (pl : Place) (bs : List Byte) (ep : Bool) : State :=
  match pl with
  | .dram x a => s.sliceWrite x a bs ep
  | .unbacked => s.countErr (P.slc (s.physOf g)) 0x41 0xFF 0
  | .unmapped => s

/-- The SER_ROUTE entry that says no route: channel 3 (02 R36). Its port bits, which the spec leaves open, are 0: DESIGN CHOICE, log entry 45. -/
def noRoute : Nat := 12

/-- Tile t has no route to tile u (02 R36). -/
def State.unreachable (s : State) (t u : Nat) : Bool := t != u && s.fld (P.serTile t) (F.SER_ROUTE_route u) == noRoute

/-- Tile t issues no request to tile u until its route has changed (02 R37). -/
def State.routeHeld (s : State) (t u : Nat) : Bool := (Tab.get hold0 s.routeHold (8 * t + u)).isSome

/-- The tile of a place in slice memory. -/
def Place.tile : Place → Option Nat
  | .dram x _ => some (x / 64)
  | _ => none

/-- Whether a place lies on a fenced tile (08 R213). -/
def State.placeGone (s : State) (pl : Place) : Bool :=
  match pl with
  | .dram x _ => s.fenced (x / 64)
  | _ => false

/-! Relocation (09 R225, R226, R232, R233, R238). -/

/-- Bridge hops between two tiles on the grid of 2 rows of 4 (02). -/
def hops (t u : Nat) : Nat := ((max (t % 4) (u % 4)) - (min (t % 4) (u % 4))) + (if t / 4 = u / 4 then 0 else 1)

/-- The window the near region of slice `x` backs, if any. -/
def State.windowOf (s : State) (x : Nat) : Option Nat :=
  match (s.near.find? fun e => e.2 == Backing.standin x).map (·.1) with
  | some g => some g
  | none =>
    match s.logicalOf x with
    | some g => if s.backing g = .own then some g else none
    | none => none

/-- Idle near regions of a hash set (09 R226). -/
def State.idleRegions (s : State) (set : List Nat) : List Nat :=
  set.filter fun x => s.sliceState x == 1 && (s.windowOf x).isNone && !s.fenced (x / 64)

/-- The first candidate in the order of R225 for a window of cluster `cl`: same cluster, same tile, fewest hops and lowest number. -/
def pickStandin (cl : Nat) (xs : List Nat) : Option Nat :=
  match xs.find? (· / 8 == cl) with
  | some x => some x
  | none => (List.range 5).findSome? fun h => xs.find? fun x => hops (cl / 8) (x / 64) == h

/-- A window whose slice failed takes a stand-in, with the lost bits of the failed slice, or becomes Unbacked (09 R238). -/
def State.relocate (s : State) (p g x : Nat) : State :=
  let m := s.pm p
  let n := m.z / 4096
  let s1 := match pickStandin (g / 7) (s.idleRegions m.set) with
    | some y =>
      let gs := (s.slices.usedGranules (x * 32768) n).map (y * 32768 + ·)
      { s with slices := (s.slices.clear (y * 32768) n).markLost gs }.setBacking g (.standin y)
    | none => s.setBacking g .unbacked
  s1.event (P.slc (s.physOf g)) 3

/-- A slice goes to FAILED (09 R236); the window its near region backs relocates while the partition runs. -/
def State.sliceFail (s : State) (x cause : Nat) : State :=
  if s.sliceServes x then
    let s1 := s.setSliceState x 3 cause
    match s.cluPart (x / 8) with
    | some p => if (s.pm p).set.contains x then
        match s.windowOf x with
        | some g => s1.relocate p g x
        | none => s1
      else s1
    | none => s1
  else s

/-- An uncorrectable error in a line of a slice (13 R319, 09 R236): poisoned in place, counted, and one distinct line towards ue_limit. -/
def State.sliceUe (s : State) (x a : Nat) : State :=
  let line := a / 64
  let s1 := { s with slices := { s.slices with poison := Tab.set bit0 s.slices.poison (x * 2097152 + line) true } }.scbUe (P.scbP x) (line * 64) 0
  let w := Tab.get list0 s1.ueWin x
  if w.contains line then s1
  else
    let s2 := { s1 with ueWin := Tab.set list0 s1.ueWin x (w ++ [line]) }
    if max 1 (s2.fld (P.slc x) F.SLC_CTL_ue_limit) ≤ w.length + 1 then s2.sliceFail x 2 else s2

/-- The count of a slice's window has reached the threshold (13 R321): a slice in service is queued; a queued one sees no further effect. -/
def State.sliceCross (s : State) (x : Nat) : State :=
  if s.sliceState x = 1 then (s.event (P.scbP x) 1).setSliceState x 2 6 else s

/-- A correction in a line of a slice. -/
def State.sliceCe (s : State) (x : Nat) : State :=
  let r := s.scbCe (P.scbP x)
  if r.2 then r.1.sliceCross x else r.1

/-- An uncorrectable error in a word of the valid or lost bits (13 R320). -/
def State.sliceMapUe (s : State) (x a : Nat) : State :=
  let w := a / 4096 / 64
  { s with slices := s.slices.markBoth ((List.range 64).map fun i => 32768 * x + 64 * w + i) }.scbUe (P.scbP x) (w * 0x40000) 0

/-- An access to slice address a decodes the line: it reads it, the granule is valid and not lost, and the line is not poisoned, as a poisoned line still decodes as poison and counts nothing again (13 R313, R314). -/
def State.lineDecoded (s : State) (x a : Nat) (reads : Bool) : Bool :=
  reads && s.slices.isValid (skey x a) && !s.slices.isLost (skey x a) && !Tab.get bit0 s.slices.poison (skey x a / 64)

/-- The error correction of an access to a serving slice; every access looks up the words of the valid and lost bits (13 R316, R319, R320). -/
def State.sliceEcc (s : State) (x a : Nat) (reads : Bool) (e : EccIn) : State :=
  if !s.sliceServes x || s.fenced (x / 64) then s
  else match e with
    | .corrected => if s.lineDecoded x a reads then s.sliceCe x else s
    | .uncorrectable => if s.lineDecoded x a reads then s.sliceUe x a else s
    | .map => s.sliceMapUe x a
    | _ => s

/-! Rebuild (09 R239, R241). -/

/-- The slices under the clusters of partition p. -/
def State.slicesUnder (s : State) (p : Nat) : List Nat :=
  (List.range 512).filter fun x => s.inMask p (x / 8)

/-- The online logical cores of partition p, ascending. -/
def State.onlineOf (s : State) (p : Nat) : List Nat :=
  (List.range 448).filter fun g => s.inMask p (g / 7) && s.online g

/-- QUEUED and FAILED slices become MAPPED_OUT; one leaving QUEUED enters the field map. -/
def State.mapOut (s : State) (p : Nat) : State :=
  s.each (s.slicesUnder p) fun x s =>
    if s.sliceState x = 2 then (s.setSliceState x 4 6).addFact ⟨x / 64, 1, x / 8 % 8, x % 8, 4⟩
    else if s.sliceState x = 3 then s.setSliceState x 4 (s.fld (P.slc x) F.SLC_STS_fail_cause)
    else s

/-- New backings of the windows of a partition in ascending g, from a hash set: own, else the stand-in order of R225, else the next pooled slot. Answers the backings, newest first, and D. -/
def State.newBackings (s : State) (set : List Nat) (gs : List Nat) : List (Nat × Backing) × Nat :=
  let owned := gs.filterMap fun g => if set.contains (s.physOf g) then some (s.physOf g) else none
  gs.foldl (fun (acc : List (Nat × Backing) × Nat) g =>
      if set.contains (s.physOf g) then ((g, .own) :: acc.1, acc.2)
      else
        let taken := acc.1.filterMap fun e => match e.2 with | .standin x => some x | _ => none
        match pickStandin (g / 7) (set.filter fun x => !owned.contains x && !taken.contains x) with
        | some x => ((g, .standin x) :: acc.1, acc.2)
        | none => ((g, .slot acc.2) :: acc.1, acc.2 + 1)) ([], 0)

/-- The near region (slice and its first granules) that a backing names. -/
def State.regionOf (s : State) (g : Nat) (b : Backing) : Option Nat :=
  match b with
  | .own => some (s.physOf g)
  | .standin x => some x
  | _ => none

/-- Every window of partition p's clusters returns to Own. -/
def State.nearReset (s : State) (p : Nat) : State :=
  s.each ((List.range 448).filter fun g => s.inMask p (g / 7)) fun g s => s.setBacking g .own

/-- Clear pooled slot `k` of a layout: the granules that it covers whole, and the bytes of its other lines, whose granules hold other pooled lines too. -/
def SMem.slotClear (m : SMem) (l : PartMem) (k : Nat) : SMem :=
  let row := 4096 * l.set.length
  let lo := l.poolcap + k * l.z
  let g0 := (lo + row - 1) / row
  let m1 := l.set.foldl (fun (m : SMem) x => m.clear (x * 32768 + l.z / 4096 + g0) ((lo + l.z) / row - g0)) m
  (List.range (l.z / 256)).foldl (fun m i =>
    match l.place (lo + 256 * i) with
    | .dram x a => { m with bytes := Tab.clear m.bytes (skey x a) 256, poison := Tab.clear m.poison (skey x a / 64) 4 }
    | _ => m) m1

/-- The pooled slots that are new at a rebuild: of a window that had another backing, or another place in pooled memory (09 R227). -/
def State.newSlots (s : State) (old new : PartMem) (bs : List (Nat × Backing)) : List Nat :=
  bs.filterMap fun e =>
    match e.2 with
    | .slot k => if s.backing e.1 == e.2 && decide (old = new) then none else some k
    | _ => none

/-- A rebuild of partition p with the current cluster mask and near size, and whether the pooled slots fit (R239); where they do not, the slices stay mapped out and the layout as it was. `build` is true for a BUILD, which clears every slice of the set; `wipe` clears the pooled shares whatever the set (tile reset, 13 R329). -/
def State.rebuild (s : State) (p : Nat) (build wipe : Bool) : State × Bool :=
  let s := s.mapOut p
  let z := s.fld (P.pt p) F.PT_CFG_near_size * 0x1000000
  let set := (s.slicesUnder p).filter fun x => s.sliceState x == 1
  let gs := s.onlineOf p
  let nb := s.newBackings set gs
  let m : PartMem := ⟨set, z, nb.2⟩
  if set.length = 0 ∨ nb.2 * z > set.length * (sliceSize - z) then (s, false)
  else
    let old := s.pm p
    let zg := z / 4096
    let regions := nb.1.filterMap fun e =>
      if s.backing e.1 == e.2 && old.set.contains ((s.regionOf e.1 e.2).getD 512) then none else s.regionOf e.1 e.2
    let m1 := set.foldl (fun (m : SMem) x =>
      if build then m.clear (x * 32768) 32768
      else
        let m := if regions.contains x then m.clear (x * 32768) zg else m
        let m := if wipe || old.set != set then m.clear (x * 32768 + zg) (32768 - zg) else m
        m.clearLost (x * 32768) 32768) s.slices
    let m1 := (s.newSlots old m nb.1).foldl (fun sm k => sm.slotClear m k) m1
    ((({ s with slices := m1 }.setPm p m).nearReset p).each nb.1 fun e s => s.setBacking e.1 e.2, true)

end Sys2Proof.Machine
end

