-- ==== Sys2Proof/Machine/Operands.lean ====
section
/-! DEFINITION. Operands of Peken instructions (07): register files, guards, core-local addresses, access checks, reads and writes of every space. -/
namespace Sys2Proof.Machine

/-! Register files (07 R162). -/

def dw0 : Nat → Dword := fun _ => 0
def word0 : Nat → Word := fun _ => 0

/-- Scalar register n; s0 reads 0. -/
def Core.getS (c : Core) (n : Nat) : Dword := if n = 0 then 0 else Tab.get dw0 c.s n
/-- Write a scalar register; s0 ignores writes. -/
def Core.setS (c : Core) (n : Nat) (v : Dword) : Core := if n = 0 then c else { c with s := Tab.set dw0 c.s n v }
/-- Predicate n; p0 reads all ones. -/
def Core.getP (c : Core) (n : Nat) : Dword := if n = 0 then -1 else Tab.get dw0 c.p n
/-- Write a predicate; p0 ignores writes. -/
def Core.setP (c : Core) (n : Nat) (v : Dword) : Core := if n = 0 then c else { c with p := Tab.set dw0 c.p n v }
/-- Per-thread register n of thread t. -/
def Core.getV (c : Core) (n t : Nat) : Word := Tab.get word0 c.v (64 * n + t)
def Core.setV (c : Core) (n t : Nat) (v : Word) : Core := { c with v := Tab.set word0 c.v (64 * n + t) v }
/-- Token count. -/
def Core.getT (c : Core) (n : Nat) : Nat := Tab.get nat0 c.tok n
def Core.setT (c : Core) (n v : Nat) : Core := { c with tok := Tab.set nat0 c.tok n v }

/-- The guard of an instruction (07 R165). -/
def Core.guard (c : Core) (i : Pk) : Dword := if i.pn then ~~~ c.getP i.pg else c.getP i.pg

/-- Threads that act: active and guarded. -/
def Core.acting (c : Core) (i : Pk) : Dword := c.active &&& c.guard i

/-- The thread numbers of a mask, ascending. -/
def threadsOf (m : Dword) : List Nat := (List.range 64).filter fun t => m.getLsbD t

/-- Write vd in the acting threads. -/
def Core.mapV (c : Core) (i : Pk) (f : Nat → Word) : Core :=
  (threadsOf (c.acting i)).foldl (fun k t => k.setV i.d t (f t)) c

/-- The mask of the threads of `m` for which `f` holds. -/
def maskOf (m : Dword) (f : Nat → Bool) : Dword :=
  (List.range 64).foldl (fun (a : Dword) t => if m.getLsbD t && f t then a ||| (1#64 <<< t) else a) 0

/-- imm32 sign-extended. -/
def Pk.simm (i : Pk) : Dword := i.imm.signExtend 64
/-- imm24 of format M, sign-extended. -/
def Pk.simm24 (i : Pk) : Dword := (i.imm.truncate 24).signExtend 64

/-! The core's place. -/

/-- CORE_STS.state: 0 OFF, 1 BOOT, 2 MONITOR, 3 IDLE, 4 JOB, 5 STOPPING, 6 OFFLINE. -/
def State.coreSt (s : State) (x : Nat) : Nat := s.fld (P.core x) F.CORE_STS_state
/-- The job of a core. -/
def State.coreJob (s : State) (x : Nat) : Option Job := (s.core x).job.map s.job
/-- Rank of core x in its job. -/
def Job.rankOf (j : Job) (x : Nat) : Nat := j.ranks.idxOf x
/-- The logical core number of core x, 0 if none. -/
def State.gOf (s : State) (x : Nat) : Nat := (s.logicalOf x).getD 0
/-- The cluster spare of cluster cl, as a physical core. -/
def State.spareOf (s : State) (cl : Nat) : Option Nat :=
  if s.flag (P.clu cl) F.CLU_MAP_spare_valid then some (8 * cl + s.fld (P.clu cl) F.CLU_MAP_spare_phys) else none

/-! Core-local addresses (07 R159). -/

/-- What a core-local address names. -/
inductive Loc where
  | store (y off : Nat)
  | spare (y off : Nat)
  | near (o : Nat)
  | pool (o : Nat)
  | hamTen (o : Nat)
  | hamPart (a : Nat)
  | unmapped
deriving DecidableEq, Repr

/-- Bytes of the own-store layout: W-store, A-store, P-store. -/
def storeTop : Nat := 0xE0000

/-- Where a core-local address points. -/
def State.locate (s : State) (x addr : Nat) : Loc :=
  if addr < storeTop then .store x addr
  else if 0x100000 ≤ addr ∧ addr < 0x800000 then
    if addr % 0x100000 < storeTop then
      match s.coreJob x with
      | some j =>
        let r := addr / 0x100000 - 1
        if r < j.ranks.length then .store (j.ranks.getD r x) (addr % 0x100000) else .unmapped
      | none => .unmapped
    else .unmapped
  else if 0x800000 ≤ addr ∧ addr < 0x800000 + storeTop then
    match s.spareOf (x / 8) with
    | some y => .spare y (addr - 0x800000)
    | none => .unmapped
  else if 0x100000000 ≤ addr ∧ addr < 0x108000000 then .near (addr - 0x100000000)
  else if 0x10000000000 ≤ addr ∧ addr < 0x20000000000 then .pool (addr - 0x10000000000)
  else if 0x20000000000 ≤ addr ∧ addr < 0x20010000000 then .hamTen (addr - 0x20000000000)
  else if 0x30000000000 ≤ addr ∧ addr < 0x30010000000 then .hamPart (addr - 0x30000000000)
  else .unmapped

/-- Who accesses: the spaces each reaches (07 R160, 08 R203). -/
inductive Access where
  | scalar
  | vector
  | mover
deriving DecidableEq, Repr

/-- The compartment in slot `slot` of tenant n, one being freed included (05 R115). -/
def State.slotCompAny (s : State) (n slot : Nat) : Option Nat :=
  (s.cmap.find? fun e => e.2.state == 2 && e.2.tv && e.2.tn == n && e.2.slot == slot).map (·.1)

/-- The place of a near-window offset of core x. -/
def State.nearOf (s : State) (x o : Nat) : Place :=
  match s.cluPart (x / 8), s.logicalOf x with
  | some p, some g => s.nearPlace p g o
  | _, _ => .unmapped

/-- The place of a pooled offset as core x reaches it. -/
def State.poolOf (s : State) (x o : Nat) : Place :=
  match s.cluPart (x / 8) with
  | some p => s.poolPlace p o
  | none => .unmapped

/-- Whether one byte address is mapped for an access. -/
def State.mapped (s : State) (x : Nat) (k : Access) (addr : Nat) : Bool :=
  match s.locate x addr with
  | .store _ _ => true
  | .spare _ _ => true
  | .near o => k != .vector && s.nearOf x o != .unmapped
  | .pool o => k != .vector && s.poolOf x o != .unmapped
  | .hamTen o =>
    k == .mover &&
    match s.coreJob x with
    | some j => (s.slotCompAny j.tn (o / 65536)).isSome || j.left.contains (4096 + o / 65536)
    | none => false
  | .hamPart _ => k == .mover
  | .unmapped => false

/-- Field values of a residency range of core y. -/
def State.rezValid (s : State) (y k : Nat) : Bool := s.flag (P.core y) (F.CORE_REZ_OWN_valid k)
def State.rezBase (s : State) (y k : Nat) : Nat := s.fld (P.core y) (F.CORE_REZ_BASE_base k)
def State.rezLen (s : State) (y k : Nat) : Nat := s.fld (P.core y) (F.CORE_REZ_LEN_len k)
def State.rezFw (s : State) (y k : Nat) : Bool := s.flag (P.core y) (F.CORE_REZ_OWN_fw k)
def State.rezTn (s : State) (y k : Nat) : Nat := s.fld (P.core y) (F.CORE_REZ_OWN_tenant k)
def State.rezModel (s : State) (y k : Nat) : Nat := s.fld (P.core y) (F.CORE_REZ_OWN_model_id k)

/-- The ranges of core y that overlap `n` bytes at W-store offset `o`. -/
def State.rezOver (s : State) (y o n : Nat) : List Nat :=
  (List.range 8).filter fun k => s.rezValid y k && decide (s.rezBase y k < o + n) && decide (o < s.rezBase y k + s.rezLen y k)

/-- W-store protection in job mode (07 R161): own model range read only, every other range closed, scratch open. -/
def State.wProtected (s : State) (j : Job) (y o n : Nat) (write : Bool) : Bool :=
  (s.rezOver y o n).any fun k => s.rezFw y k || s.rezTn y k != j.tn || s.rezModel y k != j.model || write

/-- The tenant a spare store is assigned to, by offset in the own-store layout. -/
def State.spareTenant (s : State) (y o : Nat) : Option Nat :=
  let pg := P.sto y
  if o < 0x80000 then (if s.flag pg F.STO_SPARE_ASSIGN_w_valid then some (s.fld pg F.STO_SPARE_ASSIGN_w_tenant) else none)
  else if o < 0xC0000 then (if s.flag pg F.STO_SPARE_ASSIGN_a_valid then some (s.fld pg F.STO_SPARE_ASSIGN_a_tenant) else none)
  else (if s.flag pg F.STO_SPARE_ASSIGN_p_valid then some (s.fld pg F.STO_SPARE_ASSIGN_p_tenant) else none)

/-- STORE_PROTECT of an access (07 R161, 08 R198). In monitor mode a W-store access is always allowed. -/
def State.storeProtected (s : State) (x : Nat) (addr n : Nat) (write : Bool) : Bool :=
  match s.locate x addr with
  | .store y o =>
    match s.coreJob x with
    | some j => decide (o < 0x80000) && s.wProtected j y o n write
    | none => false
  | .spare y o =>
    match s.coreJob x with
    | some j => s.spareTenant y o != some j.tn
    | none => true
  | _ => false

/-- Compartment c is assigned in the partition of core x. -/
def State.inPart (s : State) (x c : Nat) : Bool := (s.comp c).state == 2 && s.cluPart (x / 8) == some (s.comp c).part

/-- Compartment c left the partition while the job of core x ran (05 R115). -/
def State.leftJob (s : State) (x c : Nat) : Bool := match s.coreJob x with | some j => j.left.contains c | none => false

/-- CROSS_PARTITION of the Hamper partition form (05 R108). A compartment being freed, or one that has left the partition since the job started, completes as cleared (R115). -/
def State.crossPart (s : State) (x addr : Nat) : Bool :=
  match s.locate x addr with
  | .hamPart a => !(s.inPart x (a / 65536) || s.leftJob x (a / 65536))
  | _ => false

/-- The first fault of an access, in the order of R189. -/
def State.accessFault (s : State) (x : Nat) (k : Access) (addr n align : Nat) (write : Bool) : Option Nat :=
  if !s.mapped x k addr || !s.mapped x k (addr + n - 1) then some 0x04
  else if addr % align ≠ 0 then some 0x03
  else if s.crossPart x addr then some 0x06
  else if s.storeProtected x addr n write then some 0x05
  else none

/-- Own-store bytes of core y. -/
def stoKey (y o : Nat) : Nat := 0x100000 * y + o

/-- An access to another core's stores is counted there (08, STO_REMOTE). -/
def State.countRemote (s : State) (x y : Nat) : State :=
  if x = y then s else s.addFld (P.sto y) F.STO_REMOTE_lines 1

/-- A job's read of the Hamper inside one line; a codec work area holds undefined data for it (12 R290). -/
def State.hmpRead (s : State) (a n : Nat) : List Byte × Bool × State :=
  if (s.workAt a).isSome then ((List.range n).map (Config.freeByte s.fresh), s.hmp.linePoison (a / 64), s.tick)
  else (s.hmp.rdN a n, s.hmp.linePoison (a / 64), s)

/-- Read `n` bytes inside one line: data, poison, and the state with its counters. -/
def State.memRead (s : State) (x addr n : Nat) : List Byte × Bool × State :=
  let slice (pl : Place) : List Byte × Bool × State :=
    let r := s.placeRead pl n
    (r.1, r.2, s.placeCount pl n)
  match s.locate x addr with
  | .store y o => (s.stores.rdN (stoKey y o) n, s.stores.linePoison (stoKey y o / 64), s.countRemote x y)
  | .spare y o => (s.stores.rdN (stoKey y o) n, s.stores.linePoison (stoKey y o / 64), s.countRemote x y)
  | .near o => slice (s.nearOf x o)
  | .pool o => slice (s.poolOf x o)
  | .hamTen o =>
    match s.coreJob x with
    | some j =>
      match s.apAddr j.tn o with
      | some a => s.hmpRead a n
      | none => (List.replicate n 0, false, s)
    | none => (List.replicate n 0, false, s)
  | .hamPart a =>
    if (s.comp (a / 65536)).clearing || !s.inPart x (a / 65536) then (List.replicate n 0, false, s)
    else s.hmpRead a n
  | .unmapped => (List.replicate n 0, false, s)

/-- A job's write of `n` bytes at pooled offset `o` of partition p: where it hits the descriptor table of a KV pool that is not OFF, the pool's state is undefined (10 R246). -/
def State.kvTouch (s : State) (p o n : Nat) : State :=
  let pg := P.kpm 1
  let b := s.fld64 pg (F.KPM_POOL_BASE_LO_base p) (F.KPM_POOL_BASE_HI_base p)
  if s.fld pg (F.KPM_POOL_STS_state p) != 0 && decide (b < o + n) && decide (o < b + 32 * s.fld pg (F.KPM_POOL_PAGES_pages p))
  then { s with kvUndef := Tab.set bit0 s.kvUndef p true } else s

/-- Write bytes inside one line; `ep` writes the line poisoned. -/
def State.memWrite (s : State) (x addr : Nat) (bs : List Byte) (ep : Bool) : State :=
  match s.locate x addr with
  | .store y o => { s with stores := s.stores.wr (stoKey y o) bs ep }.countRemote x y
  | .spare y o => { s with stores := s.stores.wr (stoKey y o) bs ep }.countRemote x y
  | .near o => s.placeWrite (s.gOf x) (s.nearOf x o) bs ep
  | .pool o => (s.placeWrite (s.gOf x) (s.poolOf x o) bs ep).kvTouch ((s.cluPart (x / 8)).getD 8) o bs.length
  | .hamTen o =>
    match s.coreJob x with
    | some j =>
      match s.apAddr j.tn o with
      | some a => { s with hmp := s.hmp.wr a bs ep }.vcTouch a
      | none => s
    | none => s
  | .hamPart a => if (s.comp (a / 65536)).clearing || !s.inPart x (a / 65536) then s else { s with hmp := s.hmp.wr a bs ep }.vcTouch a
  | .unmapped => s

/-- The place behind a near or pooled address. -/
def State.placeOf (s : State) (x addr : Nat) : Place :=
  match s.locate x addr with
  | .near o => s.nearOf x o
  | .pool o => s.poolOf x o
  | _ => .unmapped

/-- Poison space code of an address (13 R324). -/
def State.poisonSpace (s : State) (x addr : Nat) : Nat :=
  match s.locate x addr with
  | .store y _ => if y = x then 0 else 1
  | .spare _ _ => 1
  | .near _ => 2
  | .pool _ => 3
  | _ => 4

end Sys2Proof.Machine
end

