-- ==== Sys2Proof/Machine/Apertures.lean ====
section
/-! DEFINITION. The apertures as they are reached: by functions (05 R105-R107, R436) and by companion programs (07 R179). -/
namespace Sys2Proof.Machine

/-- What a virtual address of a companion program reaches (07 R179): an offset into its tenant's compartments, a pooled offset of its partition, or nothing. -/
inductive HpcLoc where
  | ham (o : Nat)
  | pool (o : Nat)
  | none
deriving DecidableEq, Repr

/-- The address map of a granted program (07 R179). -/
def hpcLoc (va : Nat) : HpcLoc :=
  if 0x4000000000 ≤ va ∧ va < 0x4010000000 then .ham (va - 0x4000000000)
  else if 0x8000000000 ≤ va ∧ va < 0xC000000000 then .pool (va - 0x8000000000)
  else .none

/-- The compartment that a program on core h reaches at an aperture offset; a fetch reaches STAGING only (use 0). -/
def State.hpcComp (s : State) (h o : Nat) (k : HpcKind) : Option Nat :=
  match s.slotCompAny (s.hpcTenant h) (o / 65536) with
  | some c => if k = .fetch && (s.comp c).use != 0 then none else some c
  | none => none

/-- The place in pooled memory that a program on core h reaches: loads and stores alone. -/
def State.hpcPool (s : State) (h o : Nat) (k : HpcKind) : Option Place :=
  if k = .plain && s.poolPlace (s.fld (P.hpc h) F.HPC_GRANT_partition) o != .unmapped
  then some (s.poolPlace (s.fld (P.hpc h) F.HPC_GRANT_partition) o) else none

/-- Poison ends the program (13 R322); other data goes on to `next`. -/
def State.hpcGot (s : State) (h va : Nat) (poison : Bool) (next : State → State) : State :=
  if poison then s.hpcFault h .poison va else next s

/-- A load, fetch or LR of the program on core h (07 R179): a compartment being freed reads 0 (05 R115), any address outside the map is an access fault. -/
def State.hpcRead (s : State) (h va : Nat) (k : HpcKind) (len : Nat) : State :=
  if h < 4 ∨ s.hpcState h ≠ 2 then s
  else match hpcLoc va with
    | .ham o =>
      match s.hpcComp h o k with
      | none => s.hpcFault h .access va
      | some c =>
        if (s.comp c).clearing then s.emit (.hpcData h va (List.replicate len 0))
        else
          let a := c * 65536 + o % 65536
          let r := s.hmpRead a len
          r.2.2.hpcGot h va r.2.1 fun s =>
            let s1 := if k = .reserved then { s with hpcResv := Tab.set resv0 s.hpcResv h (some (a, r.1)) } else s
            s1.emit (.hpcData h va r.1)
    | .pool o =>
      match s.hpcPool h o k with
      | none => s.hpcFault h .access va
      | some pl =>
        let r := s.placeRead pl len
        let s1 := s.placeCount pl len
        s1.hpcGot h va r.2 fun s => s.emit (.hpcData h va r.1)
    | .none => s.hpcFault h .access va

/-- The value an AMO stores, from the old value and the operand, both of w bits. -/
def amoVal (op : HpcAmo) (w old x : Nat) : Nat :=
  let sg (v : Nat) : Int := (BitVec.ofNat w v).toInt
  match op with
  | .swap => x
  | .add => (old + x) % 2 ^ w
  | .xor => old ^^^ x
  | .and => old &&& x
  | .or => old ||| x
  | .min => if sg x < sg old then x else old
  | .max => if sg old < sg x then x else old
  | .minu => Nat.min old x
  | .maxu => Nat.max old x

/-- Store into the Hamper at once, coherent with every other writer. -/
def State.hpcPut (s : State) (a : Nat) (bs : List Byte) : State := { s with hmp := s.hmp.wr a bs false }.vcTouch a

/-- SC succeeds only on the reservation, with the bytes that LR read still there; with both it may still fail, as the architecture lets it. -/
def State.scWins (s : State) (h a : Nat) (n : Nat) : Bool :=
  match Tab.get resv0 s.hpcResv h with
  | some (b, old) => b == a && old == s.hmp.rdN a n && (Config.freeByte s.fresh a).getLsbD 0
  | none => false

/-- A store, SC or AMO of the program on core h at byte a of the Hamper. -/
def State.hpcStore (s : State) (h va a : Nat) (k : HpcKind) (data : List Byte) : State :=
  match k with
  | .reserved =>
    let won := s.scWins h a data.length
    let s1 := { s with hpcResv := Tab.set resv0 s.hpcResv h none }.tick
    (if won then s1.hpcPut a data else s1).emit (.hpcSc h (if won then 0 else 1))
  | .amo op =>
    let r := s.hmpRead a data.length
    r.2.2.hpcGot h va r.2.1 fun s =>
      (s.hpcPut a (leBytes data.length (amoVal op (8 * data.length) (leNat r.1) (leNat data)))).emit (.hpcData h va r.1)
  | _ => s.hpcPut a data

/-- A store, SC or AMO of the program on core h (07 R179): what reaches a compartment being freed is dropped, its AMO reading 0 and its SC succeeding on nothing (05 R115). -/
def State.hpcWrite (s : State) (h va : Nat) (k : HpcKind) (data : List Byte) : State :=
  if h < 4 ∨ s.hpcState h ≠ 2 then s
  else match hpcLoc va with
    | .ham o =>
      match s.hpcComp h o k with
      | none => s.hpcFault h .access va
      | some c =>
        if (s.comp c).clearing then
          match k with
          | .reserved => s.emit (.hpcSc h 1)
          | .amo _ => s.emit (.hpcData h va (List.replicate data.length 0))
          | _ => s
        else s.hpcStore h va (c * 65536 + o % 65536) k data
    | .pool o =>
      match s.hpcPool h o k with
      | none => s.hpcFault h .access va
      | some pl => (s.placeWrite 0 pl data false).kvTouch (s.fld (P.hpc h) F.HPC_GRANT_partition) o data.length
    | .none => s.hpcFault h .access va

/-- APERTURE_WRITE (05 R105-R107, R113, R115, R120; 13 R322): accepted pieces wait to land in the order of the port. BAR4 of a virtual function that no tenant is bound to drops writes (06 R123). The stores of a companion program act by 07 R179. -/
def execApertureWrite (src : ApSrc) (off : BitVec 28) (data : List Byte) (ep : Bool) (s : State) :
    Host.Outcome State Fault Refusal :=
  .next <|
    match src with
    | .tenant n rid => s.apWriteFrom n rid.toNat off.toNat data ep
    | .vf p v rid => match s.vfTenant p v with | some n => s.apWriteFrom n rid.toNat off.toNat data ep | none => s
    | .hpc h va k => s.hpcWrite h va.toNat k data
    | .pf p =>
      if !s.reach (.pf p) then s
      else if p.val ≠ s.owner then s.countErr (P.hub 0) 0x06 0xFF off.toNat
      else if s.ready then s.ownApWrite p off.toNat data ep else s

/-- APERTURE_READ (05 R105, R106, R436; 13 R323). BAR4 of a virtual function that no tenant is bound to, and of a physical function that is not the owner's, reads 0 (05 R105; 06 R123). The loads and fetches of a companion program act by 07 R179. -/
def execApertureRead (src : ApSrc) (off : BitVec 28) (r : ApRead) (s : State) : Host.Outcome State Fault Refusal :=
  .next <|
    match src with
    | .tenant n _ => s.apReadFrom n off.toNat r.len r.atomic
    | .vf p v _ =>
      match s.vfTenant p v with
      | some n => s.apReadFrom n off.toNat r.len r.atomic
      | none =>
        let k := fnNum (.vf p v)
        if s.devFailed then s.emit (.abort (0x100 + k))
        else if !s.vfReach k then s
        else if r.atomic then s.emit (.unsupported k) else s.emit (.aperture k off.toNat (List.replicate r.len 0) false)
    | .hpc h va k => s.hpcRead h va.toNat k r.len
    | .pf p =>
      if s.devFailed then s.emit (.abort (0x80 + p.val))
      else if !s.reach (.pf p) then s
      else if r.atomic then s.emit (.unsupported p)
      else if p.val ≠ s.owner || !s.ready then s.emit (.aperture p off.toNat (List.replicate r.len 0) false)
      else (s.landClient p).ownApRead p off.toNat r.len

end Sys2Proof.Machine
end

