-- ==== Sys2Proof/Machine/Jobs.lean ====
section
/-! DEFINITION. Jobs from dispatch to completion (06 R142-R144; 07 R157-R163, R177, R181, R185, R189; 08 R200, R201; 16 R378, R379): start, faults, end, the residency table, model loads, the energy table, the choice of tenant, queue and cores. -/
namespace Sys2Proof.Machine

/-! Store clears (07 R181, 13 R329). -/

/-- Drop the lines (by line number) that satisfy `p`. -/
def Mem.clearLines (m : Mem) (p : Nat → Bool) : Mem :=
  ⟨Tab.clearIf m.bytes fun a => p (a / 64), Tab.clearIf m.valid p, Tab.clearIf m.poison p⟩

/-- Clear the A-store, the P-store and the W-store scratch of core x. -/
def State.clearScratch (s : State) (x : Nat) : State :=
  { s with stores := s.stores.clearLines fun l =>
      l / 16384 == x && decide (l % 16384 < 0x3800) &&
      (decide (0x2000 ≤ l % 16384) || (s.rezOver x (64 * (l % 16384)) 64).isEmpty) }

/-- Clear every line of core x's stores. -/
def State.clearStores (s : State) (x : Nat) : State := { s with stores := s.stores.clear (stoKey x 0) 0x100000 }

/-- Clear `n` bytes of core y's stores from offset `o`. -/
def State.clearStoreAt (s : State) (y o n : Nat) : State := { s with stores := s.stores.clear (stoKey y o) n }

/-! Energy table (16 R379). -/

def State.et (s : State) (k : Nat) : EtEntry := Tab.get et0 s.etab k
def State.setEt (s : State) (k : Nat) (v : EtEntry) : State := { s with etab := Tab.set et0 s.etab k v }

/-- The ways of the set of (tenant, model). -/
def etWays (n model : Nat) : List Nat := (List.range 8).map (8 * ((model ^^^ (n * 4)) % 512) + ·)

/-- The learned entry of (tenant, model). -/
def State.etFind (s : State) (n model : Nat) : Option Nat :=
  (etWays n model).find? fun k => (s.et k).valid && (s.et k).tn == n && (s.et k).model == model

/-- The entry to replace: an unused way, else the least recently used. -/
def State.etVictim (s : State) (n model : Nat) : Nat :=
  match (etWays n model).find? fun k => !(s.et k).valid with
  | some k => k
  | none => (etWays n model).foldl (fun b k => if (s.et k).used < (s.et b).used then k else b) ((etWays n model).getD 0 0)

/-- One eighth of the way from `a` towards `b`. -/
def eighth (a b : Nat) : Nat := if a ≤ b then a + (b - a) / 8 else a - (a - b) / 8

/-- A RUN that ended OK trains the table with its energy (10 µJ) and duration (10 µs, at least one). -/
def State.etLearn (s : State) (n model energy us : Nat) : State :=
  let e := min 65535 energy
  let d := min 65535 (max 1 (us / 10))
  let s1 := { s with etClock := s.etClock + 1 }
  match s.etFind n model with
  | some k =>
    let v := s.et k
    s1.setEt k { v with n := min 255 (v.n + 1), energy := eighth v.energy e, duration := eighth v.duration d, used := s1.etClock }
  | none => s1.setEt (s.etVictim n model) ⟨true, model, n, 1, e, d, s1.etClock⟩

/-- Every entry of a tenant is dropped (new binding). -/
def State.etDrop (s : State) (n : Nat) : State := { s with etab := s.etab.filter fun e => e.2.tn != n }

/-! Residency table (06 R144). -/

def State.resFind (s : State) (n model : Nat) : Option Nat :=
  (s.resid.find? fun e => e.2.valid && e.2.tn == n && e.2.model == model).map (·.1)

/-- Core x no longer holds the model of entry k; the last one sets the loaded flag of the next RUN. -/
def State.resDropCore (s : State) (k x : Nat) : State :=
  let e := s.res k
  let cs := e.cores.filter (· != x)
  s.setRes k { e with cores := cs, loadedNext := e.loadedNext || (cs.isEmpty && !e.cores.isEmpty) }

/-- Range k of core x is given up: it becomes scratch. -/
def State.rezDrop (s : State) (x k : Nat) : State :=
  (((((s.setFlag (P.core x) (F.CORE_REZ_OWN_valid k) false).setFld (P.core x) (F.CORE_REZ_BASE_base k) 0).setFld (P.core x)
    (F.CORE_REZ_LEN_len k) 0).setFld (P.core x) (F.CORE_REZ_OWN_model_id k) 0).setFld (P.core x)
    (F.CORE_REZ_OWN_tenant k) 0).setFlag (P.core x) (F.CORE_REZ_OWN_fw k) false

/-- Evict model range k of core x (08 R201): scratch, its lines cleared, the core leaves the residency entry. -/
def State.evict (s : State) (x k : Nat) : State :=
  let s1 := match s.resFind (s.rezTn x k) (s.rezModel x k) with
    | some r => s.resDropCore r x
    | none => s
  (s1.clearStoreAt x (s.rezBase x k) (s.rezLen x k)).rezDrop x k

/-- The model range of (tenant, model) on core x. -/
def State.rezOf (s : State) (x n model : Nat) : Option Nat :=
  (List.range 8).find? fun k => s.rezValid x k && !s.rezFw x k && s.rezTn x k == n && s.rezModel x k == model

/-- The loads that RUNs wait for go with their residency entry (06 R129, R144). -/
def State.dropResLoads (s : State) (k : Nat) : State :=
  let l : Tab (List LoadOp) := s.loads.map fun (e : Nat × List LoadOp) => (e.1, e.2.filter fun l => l.res != k || l.desc.isSome)
  { s with loads := l.filter fun (e : Nat × List LoadOp) => !e.2.isEmpty }

/-- Remove a residency entry, with its ranges on every core. -/
def State.resRemove (s : State) (k : Nat) : State :=
  let e := s.res k
  let s1 := s.each e.cores fun x s =>
    match s.rezOf x e.tn e.model with
    | some r => (s.clearStoreAt x (s.rezBase x r) (s.rezLen x r)).rezDrop x r
    | none => s
  (s1.setRes k Resid.none).dropResLoads k

/-- Remove every residency entry of a tenant (06 R155). -/
def State.resRemoveTenant (s : State) (n : Nat) : State :=
  s.each ((s.resid.filter fun e => e.2.valid && e.2.tn == n).map (·.1)) fun k s => s.resRemove k

/-- A core lost its stores: every residency entry loses it (07 R191). -/
def State.resLoseCore (s : State) (x : Nat) : State :=
  s.each ((s.resid.filter fun e => e.2.valid && e.2.cores.contains x).map (·.1)) fun k s => s.resDropCore k x

/-! Idle cores and the rota (16 R378). -/

def State.loadsOf (s : State) (x : Nat) : List LoadOp := Tab.get loads0 s.loads x
def State.setLoads (s : State) (x : Nat) (l : List LoadOp) : State := { s with loads := Tab.set loads0 s.loads x l }

/-- Logical core g is online and IDLE, and no load waits for it. -/
def State.idleCore (s : State) (g : Nat) : Bool :=
  s.online g && s.coreSt (s.physOf g) == 3 && (s.loadsOf (s.physOf g)).isEmpty

/-- Temperature of a physical core, 0.25 °C, if its sensor is valid. -/
def State.coreTemp (s : State) (x : Nat) : Option Int :=
  let k := 2 * (x / 8 % 8) + x % 8 / 4
  if s.flag (P.thmT (x / 64)) (F.THM_T_SENSOR_valid k) then some (sgn 11 (s.fld (P.thmT (x / 64)) (F.THM_T_SENSOR_temp k))) else none

/-- A core more than 6 °C above its tile mean. -/
def State.hotCore (s : State) (g : Nat) : Bool :=
  match s.coreTemp (s.physOf g) with
  | some t => decide (t > sgn 11 (s.fld (P.thmT (s.physOf g / 64)) F.THM_T_MEAN_mean) + 24)
  | none => false

/-- Logical cores of partition p in rota order. -/
def State.rotaOrder (s : State) (p : Nat) : List Nat :=
  let ptr := s.fld (P.disp 6) (F.DISP_ROTA_ptr p)
  ((List.range 448).map fun i => (ptr + i) % 448).filter fun g => s.inMask p (g / 7)

/-- The first set of w cores of one cluster among the eligible, in order. -/
def rotaSet (order : List Nat) (w : Nat) : Option (List Nat) :=
  (List.range order.length).findSome? fun i =>
    let rest := order.drop i
    match rest with
    | [] => none
    | g :: _ =>
      let mates := (rest ++ order.take i).filter (· / 7 == g / 7)
      if w ≤ mates.length then some (mates.take w) else none

/-- The rota's choice: skipping hot cores where a set remains. -/
def State.rotaPick (s : State) (p w : Nat) (elig : Nat → Bool) : Option (List Nat) × State :=
  let order := (s.rotaOrder p).filter elig
  let plain := rotaSet order w
  let choice := match rotaSet (order.filter fun g => !s.hotCore g) w with
    | some gs => some gs
    | none => plain
  match choice with
  | none => (none, s)
  | some gs =>
    let s1 := s.setFld (P.disp 6) (F.DISP_ROTA_ptr p) (((gs.getLast?.getD 0) + 1) % 448)
    (some gs, if choice = plain then s1 else s1.satFld (P.disp 6) (F.DISP_ROTA_skips p) 1)

/-! Faults and poison (07 R185, R189; 13 R322, R324, R325). -/

/-- The first recorded end of a job decides its completion. -/
def State.setVerdict (s : State) (x status detail : Nat) : State :=
  match (s.core x).job with
  | none => s
  | some k =>
    let j := s.job k
    s.setJob k { j with stopping := true, verdict := if j.verdict.isSome then j.verdict else some (status, detail, s.gOf x) }

/-- Whether the job of core x has no end recorded yet. -/
def State.jobOpen (s : State) (x : Nat) : Bool :=
  match s.coreJob x with
  | some j => j.verdict.isNone
  | none => false

/-- A fault of core x (07 R189): recorded in CORE_FAULT, counted on the CORE page; in job mode it ends the job. `hi` is the high byte of the detail: the source, or the TRAP immediate. -/
def State.coreFault (s : State) (x code src hi addr pc : Nat) : State :=
  let pg := P.core x
  let s1 := ((((s.setFld pg F.CORE_FAULT_code code).setFld pg F.CORE_FAULT_pc pc).setFld pg F.CORE_FAULT_source src).setFlag pg
    F.CORE_FAULT_valid true).setFld64 pg F.CORE_FAULT_ADDR_LO_addr F.CORE_FAULT_ADDR_HI_addr addr
  let s2 := s1.countErr pg 0x40 0xFF addr
  match s.coreJob x with
  | none => s2
  | some j =>
    let s3 := s2.setInts pg (if code = 0x0A then 3 else 1)
    let s4 := if s.jobOpen x then s3.flog j.tn 2 0x12 code (s.gOf x) addr else s3
    s4.setVerdict x 3 (code + 256 * (hi % 256))

/-- Poison consumed by core x: consumer code and space of R324; the address is core-local. -/
def State.corePoison (s : State) (x block consumer space addr : Nat) : State :=
  match s.coreJob x with
  | none => s.event (P.core x) 2
  | some j =>
    let s1 := s.event (P.core x) 2
    let s2 := if s.jobOpen x then s1.flog j.tn 3 block consumer (s.gOf x) addr else s1
    s2.setVerdict x 4 (consumer + 16 * space)

/-! Job start and end (07 R158, R163, R177, R181). -/

/-- The register state of a rank at job start (07 R163). -/
def startCore (j : Job) (rank : Nat) (g epoch : Nat) (entry : Nat) (args : List Word) (key : Nat) : Core :=
  let c : Core := { Core.reset with active := -1, pc := j.wbase + entry, start := j.start, job := some key }
  let c := c.setS 1 (BitVec.ofNat 64 (rank + 256 * j.ranks.length + 2 ^ 16 * g + 2 ^ 32 * j.q))
  let c := c.setS 2 (BitVec.ofNat 64 j.wbase)
  let c := c.setS 3 (BitVec.ofNat 64 (j.tn + 256 * j.part + 2 ^ 16 * epoch))
  (List.range 16).foldl (fun c i => c.setS (16 + i) ((args.getD i 0).zeroExtend 64)) c

/-- Core registers at a job start. -/
def State.jobRegs (s : State) (x : Nat) (j : Job) (rank tag : Nat) : State :=
  let pg := P.core x
  (((((((((s.setFld pg F.CORE_STS_state 4).setFld pg F.CORE_STS_rank rank).setFld pg F.CORE_STS_width (j.ranks.length - 1)).setFld pg
    F.CORE_STS_tenant j.tn).setFlag pg F.CORE_STS_rezinv false).setFld pg F.CORE_JOB_model_id j.model).setFld pg
    F.CORE_JOB_queue j.q).setFld pg F.CORE_TAG_tag tag).setFlag pg F.CORE_FAULT_valid false).setFlag (P.mov x) F.MOV_FAULT_valid false
    |>.setFld (P.sto x) F.STO_CONFLICT_stalls 0

/-- The place of the next run in the sequence of runs on core x. -/
def State.runStamp (s : State) (x : Nat) : Nat := (s.resid.map fun e => Tab.get nat0 e.2.lastRun x).foldl max 0 + 1

/-- Start a RUN on a set of logical cores. -/
def State.jobStart (s : State) (n q p : Nat) (d : Desc) (k : Nat) (gs : List Nat) : State :=
  let e := s.res k
  let gl := gs.mergeSort (· ≤ ·)
  let j : Job := { Job.none with tn := n, q, order := d.order, model := d.model, part := p, ranks := gl.map s.physOf, start := s.now, wbase := e.wOff, wlen := e.len }
  let d1 := { d with loaded := d.loaded || e.loadedNext }
  let last := j.ranks.foldl (fun b x => Tab.set nat0 b x (s.runStamp x)) e.lastRun
  let s1 := ((s.setDesc n q d1).startDesc n q d1).setRes k { e with loadedNext := false, lastRun := last }
  let s2 := s1.setJob d.order j
  s2.each (List.range gl.length) fun r s =>
    let x := j.ranks.getD r 0
    (s.jobRegs x j r d.tag).setCore x (startCore j r (gl.getD r 0) d.epoch e.entry d.args d.order)

/-- A core returns to IDLE after its job (07, A job's life, steps 4 and 5); inside a reset it stays off until it boots (14 R337). -/
def State.coreToIdle (s : State) (x : Nat) (j : Job) : State :=
  let rez := s.flag (P.core x) F.CORE_STS_rezinv
  let s1 := s.clearScratch x
  let s2 := if rez then (match s1.resFind j.tn j.model with | some k => s1.resDropCore k x | none => s1) else s1
  let pg := P.core x
  let st := if s.rsts.any (Rst.coversCore s · x) then 0 else 3
  ((((((s2.setFld pg F.CORE_STS_state st).setFld pg F.CORE_STS_rank 0).setFld pg F.CORE_STS_width 0).setFld pg
    F.CORE_STS_tenant 0).setFlag pg F.CORE_STS_rezinv false).addFld pg F.CORE_JOBS_count 1).setCore x Core.reset

/-- Every rank has ended: the stores are cleared, the cores return to IDLE, and the entry is written. A pending spare assignment may take effect later. -/
def State.jobEnd (s : State) (k : Nat) : State :=
  let j := s.job k
  let result := (s.core (j.ranks.getD 0 0)).result
  let g0 := s.gOf (j.ranks.getD 0 0)
  let us := s.usSince j.start
  let s1 := (s.each j.ranks fun x s => s.coreToIdle x j).setJob k Job.none
  let v := j.verdict.getD (0, 0, 0)
  let s2 := if v.1 = 0 then s1.etLearn j.tn j.model j.energy (max 10 us) else s1
  match (s2.queue j.tn j.q).fetched.find? (·.order == k) with
  | some d => s2.complete j.tn j.q d ⟨v.1, v.2.1, g0, j.ranks.length, if v.1 = 0 then result else 0⟩
  | none => s2

/-- End the job when no rank is left. -/
def State.jobCheck (s : State) (k : Nat) : State :=
  if (s.job k).ranks.all fun x => (s.core x).wait == .ended then s.jobEnd k else s

/-! Dispatch (06 R142, R143, R146). -/

/-- Partition p starts no jobs: paused, or the emergency floor or a cooling shutdown is active (16 R387, R389). -/
def State.dispPaused (s : State) (p : Nat) : Bool :=
  bitOf (s.fld (P.disp 0) F.DISP_STS_paused) p || s.flag (P.thm 0) F.THM_STS_floor || s.inShutdown || s.ptState p != 2

/-- What a RUN at the head of start order meets. -/
inductive RunPlan where
  | absent
  | noCapacity
  | wait
  | start (res : Nat)
  | load (res cl : Nat) (xs : List Nat)
deriving DecidableEq, Repr

/-- A firmware range of core x overlaps the model range of an entry: the core is ineligible (08 R200). -/
def State.fwBlocks (s : State) (x : Nat) (e : Resid) : Bool := (s.rezOver x e.wOff e.len).any fun k => s.rezFw x k

/-- The range fits on core x without eviction. -/
def State.fits (s : State) (x : Nat) (e : Resid) : Bool :=
  (s.rezOver x e.wOff e.len).isEmpty && (List.range 8).any fun k => !s.rezValid x k

/-- The plan of R143 for a RUN of width w. `chosen` is the cluster its loads were given to, which it keeps while that cluster can still reach w copies. Idle cores that the range fits on without eviction come first (08 R200). -/
def State.runPlan (s : State) (p n model w : Nat) (chosen : Option Nat) : RunPlan :=
  match s.resFind n model with
  | none => .absent
  | some k =>
    let e := s.res k
    let cls := (s.partClusters p)
    let on (cl : Nat) : List Nat := ((List.range 7).map (7 * cl + ·)).filter s.online
    let holds (g : Nat) : Bool := e.cores.contains (s.physOf g)
    let coming (g : Nat) : Bool := (s.loadsOf (s.physOf g)).any fun l => l.res == k
    if cls.all fun cl => decide ((on cl).length < w) then .noCapacity
    else if cls.any fun cl => decide (w ≤ ((on cl).filter holds).length) then
      match rotaSet ((s.rotaOrder p).filter fun g => s.idleCore g && holds g) w with
      | some _ => .start k
      | none => .wait
    else
      let can (g : Nat) : Bool := holds g || !s.fwBlocks (s.physOf g) e
      let ok := (s.rotaOrder p).filterMap fun g => if decide (w ≤ ((on (g / 7)).filter can).length) then some (g / 7) else none
      match ok with
      | [] => .noCapacity
      | c0 :: _ =>
        let have' (cl : Nat) : Nat := ((on cl).filter holds).length
        let best := match chosen with
          | some c => if ok.contains c then c else ok.foldl (fun b cl => if have' b < have' cl then cl else b) c0
          | none => ok.foldl (fun b cl => if have' b < have' cl then cl else b) c0
        let need := w - ((on best).filter fun g => holds g || coming g).length
        let idle := (s.rotaOrder p).filter fun g => g / 7 == best && s.idleCore g && !holds g && !coming g && can g
        let xs := (((idle.filter fun g => s.fits (s.physOf g) e) ++ idle.filter fun g => !s.fits (s.physOf g) e).map s.physOf).take need
        if xs.isEmpty then .wait else .load k best xs

/-- Width of a RUN: 0 is taken as 1. -/
def Desc.runWidth (d : Desc) : Nat := max 1 d.width

/-- No job of the model runs, and no LOAD that started before is still making copies (06 R144, R150). -/
def State.mayUnload (s : State) (n model : Nat) : Bool :=
  (!s.jobs.any fun e => e.2.tn == n && e.2.model == model && !e.2.ranks.isEmpty) &&
  match s.resFind n model with
  | some k => !s.loads.any fun e => e.2.any fun l => l.res == k && l.desc.isSome
  | none => true

/-- Whether the head descriptor of a queue can act now. -/
def State.dispReady (s : State) (p n q : Nat) : Bool :=
  match s.startHead n q with
  | some d =>
    match d.kind with
    | 1 => s.runPlan p n d.model d.runWidth d.clu != .wait
    | 4 => true
    | 5 => s.mayUnload n d.model
    | 6 => true
    | _ => false
  | none => false

/-- The queue the dispatcher takes from tenant n: highest priority, round robin after the last one served. -/
def State.pickQueue (s : State) (p n last : Nat) : Option Nat :=
  let rs := ((List.range 8).map fun i => (last + 1 + i) % 8).filter fun q => s.dispReady p n q
  let top := rs.foldl (fun b q => max b (qf s n q F.Q_SQ_CFG_priority)) 0
  rs.find? fun q => qf s n q F.Q_SQ_CFG_priority == top

/-- DISPATCH (06 R142): weighted round robin over the partition's tenants with ready descriptors. -/
def execDispatch (p : Fin 8) (s : State) : Host.Outcome State Fault Refusal :=
  .next <|
    if s.dispPaused p then s
    else
      let v := s.dsp p
      let ready (n : Nat) : Bool := (List.range 8).any fun q => s.dispReady p n q
      let ts := (s.tenantsOf p).filter ready
      let next := match ts.find? (fun n => decide (v.tenant < n)) with | some n => some n | none => ts.head?
      let choice : Option (Nat × Nat) :=
        if ts.contains v.tenant && v.credit != 0 then some (v.tenant, v.credit - 1)
        else next.map fun n => (n, max 1 (s.fld (P.disp 1) (F.DISP_TN_BIND_weight n)) - 1)
      match choice with
      | none => s.setDsp p { v with pick := none }
      | some (n, c) =>
        match s.pickQueue p n (Tab.get nat0 v.rr n) with
        | none => s.setDsp p { v with pick := none }
        | some q => s.setDsp p { v with tenant := n, credit := c, rr := Tab.set nat0 v.rr n q, pick := some (n, q) }

/-- The dispatcher acts on its pick for partition p, if its head descriptor is of `kind`; the pick is spent. -/
def State.onPick (s : State) (p kind : Nat) (f : Nat → Nat → Desc → State → State) : State :=
  match (s.dsp p).pick with
  | none => s
  | some (n, q) =>
    if s.dispPaused p then s
    else match s.startHead n q with
      | some d => if d.kind = kind then f n q d (s.setDsp p { s.dsp p with pick := none }) else s
      | none => s

/-- Queue loads of entry k on cores xs. -/
def State.addLoads (s : State) (k : Nat) (xs : List Nat) (desc : Option (Nat × Nat × Nat)) : State :=
  s.each xs fun x s => (s.setLoads x (s.loadsOf x ++ [⟨k, desc⟩])).setFlag (P.mov x) F.MOV_STS_loading true

/-- JOB_RUN (06 R143). -/
def execJobRun (p : Fin 8) (s : State) : Host.Outcome State Fault Refusal :=
  .next <| s.onPick p 1 fun n q d s =>
    match s.runPlan p n d.model d.runWidth d.clu with
    | .absent => s.completeUnstarted n q d 6 0
    | .noCapacity => s.completeUnstarted n q d 0x0B 0
    | .wait => s
    | .load k cl xs => (s.setDesc n q { d with loaded := true, clu := some cl }).addLoads k xs none
    | .start k =>
      match s.rotaPick p d.runWidth fun g => s.idleCore g && (s.res k).cores.contains (s.physOf g) with
      | (some gs, s1) => s1.jobStart n q p d k gs
      | (none, _) => s

/-! Model loads (06 R144; 08 R200, R201). -/

/-- The candidates of R200 for further copies, in order. -/
def State.loadCands (s : State) (p : Nat) (e : Resid) (k : Nat) : List Nat :=
  let gs := (s.rotaOrder p).filter fun g =>
    s.online g && !e.cores.contains (s.physOf g) && !s.fwBlocks (s.physOf g) e && !(s.loadsOf (s.physOf g)).any fun l => l.res == k
  (gs.filter fun g => s.idleCore g && s.fits (s.physOf g) e) ++ (gs.filter fun g => !(s.idleCore g && s.fits (s.physOf g) e))

/-- Number of unused entry of the residency table. -/
def State.resFree (s : State) : Option Nat := (List.range 2048).find? fun k => !(s.res k).valid

/-- The LOAD itself on an entry: further copies are queued, or it ends at once. -/
def State.loadOn (s : State) (p n q : Nat) (d : Desc) (k : Nat) : State :=
  let e := s.res k
  let online := (s.rotaOrder p).filter s.online
  let held := online.filter fun g => e.cores.contains (s.physOf g)
  let want := let c := d.area.getD 4 0; if c = 0 then online.length else c
  let cands := (s.loadCands p e k).take (want - held.length)
  if want ≤ held.length then (s.startDesc n q d).complete n q { d with st := .running, started := s.now } ⟨0, 0, 0xFFFF, 0, held.length⟩
  else if cands.isEmpty then
    if held.isEmpty then (if e.cores.isEmpty then s.resRemove k else s).completeUnstarted n q d 0x0B 0
    else (s.startDesc n q d).complete n q { d with st := .running, started := s.now } ⟨0, 0, 0xFFFF, 0, held.length⟩
  else
    let s1 := s.setFld (P.disp 6) (F.DISP_ROTA_ptr p) (((cands.getLast?.getD 0) + 1) % 448)
    (s1.startDesc n q d).addLoads k (cands.map s.physOf) (some (n, q, d.num))

/-- JOB_LOAD (06 R144). -/
def execJobLoad (p : Fin 8) (s : State) : Host.Outcome State Fault Refusal :=
  .next <| s.onPick p 4 fun n q d s =>
    let a (i : Nat) : Nat := d.area.getD i 0
    match s.resFind n d.model with
    | some k =>
      let e := s.res k
      if e.wOff ≠ a 2 ∨ e.len ≠ a 1 ∨ e.entry ≠ a 3 then s.completeUnstarted n q d 5 0x18
      else (s.setRes k { e with image := a 0 }).loadOn p n q d k
    | none =>
      match s.resFree with
      | none => s.completeUnstarted n q d 0x0B 0
      | some k => (s.setRes k ⟨true, n, d.model, a 0, a 1, a 2, a 3, [], false, []⟩).loadOn p n q d k

/-- JOB_UNLOAD (06 R144, R150): with no entry it completes MODEL_ABSENT. -/
def execJobUnload (p : Fin 8) (s : State) : Host.Outcome State Fault Refusal :=
  .next <| s.onPick p 5 fun n q d s =>
    if !s.mayUnload n d.model then s
    else match s.resFind n d.model with
      | some k => (s.resRemove k).completeUnstarted n q d 0 0
      | none => s.completeUnstarted n q d 6 0

/-- The model range of core x that ran there longest ago (08 R200). -/
def State.lruRange (s : State) (x : Nat) : Option Nat :=
  let stamp (k : Nat) : Nat := match s.resFind (s.rezTn x k) (s.rezModel x k) with | some r => Tab.get nat0 (s.res r).lastRun x | none => 0
  match (List.range 8).filter fun k => s.rezValid x k && !s.rezFw x k with
  | [] => none
  | k0 :: ks => some (ks.foldl (fun b k => if stamp k < stamp b then k else b) k0)

/-- Evict every overlapping model range, and the least recently run one where no range number is free (08 R200). -/
def State.makeRoom (s : State) (x : Nat) (e : Resid) : State :=
  let s1 := s.each (s.rezOver x e.wOff e.len) fun k s => s.evict x k
  if (List.range 8).all fun k => s1.rezValid x k then
    match s1.lruRange x with
    | some k => s1.evict x k
    | none => s1
  else s1

/-- Copy an image from the tenant's compartments into the W-store of core x, line by line, poison carried. -/
def State.copyImage (s : State) (x : Nat) (e : Resid) : State :=
  s.each (segs 64 e.image e.len) fun sg s =>
    let data := s.apRead e.tn sg.1 sg.2
    let ep := (s.apPoison e.tn sg.1 sg.2).isSome
    { s with stores := s.stores.wr (stoKey x (e.wOff + (sg.1 - e.image))) data ep }

/-- A model range becomes valid on core x. -/
def State.rezSet (s : State) (x : Nat) (e : Resid) : State :=
  match (List.range 8).find? fun k => !s.rezValid x k with
  | none => s
  | some k =>
    (((((s.setFld (P.core x) (F.CORE_REZ_BASE_base k) e.wOff).setFld (P.core x) (F.CORE_REZ_LEN_len k) e.len).setFld (P.core x)
      (F.CORE_REZ_OWN_model_id k) e.model).setFld (P.core x) (F.CORE_REZ_OWN_tenant k) e.tn).setFlag (P.core x)
      (F.CORE_REZ_OWN_fw k) false).setFlag (P.core x) (F.CORE_REZ_OWN_valid k) true

/-- A LOAD descriptor whose loads have all ended completes with the number of cores that hold the model. -/
def State.loadCheck (s : State) (k : Nat) (desc : Option (Nat × Nat × Nat)) : State :=
  match desc with
  | none => s
  | some (n, q, num) =>
    if s.loads.any fun e => e.2.any fun l => l.desc == desc then s
    else match s.descOf n q num with
      | some d =>
        let held := (s.res k).cores.length
        s.complete n q d (if held = 0 then Done.plain 0x0B 0 else ⟨0, 0, 0xFFFF, 0, held⟩)
      | none => s

/-- MODEL_LOAD (08 R201): core x, idle and in a partition that is not paused, performs its first load. -/
def execModelLoad (x : Fin 512) (s : State) : Host.Outcome State Fault Refusal :=
  .next <|
    match s.loadsOf x with
    | [] => s
    | l :: ls =>
      let paused := s.tnState (s.res l.res).tn == 3 || match s.cluPart (x / 8) with | some p => s.dispPaused p | none => true
      if s.coreSt x != 3 || paused then s
      else
        let e := s.res l.res
        let s1 := (s.setLoads x ls).setFlag (P.mov x) F.MOV_STS_loading (!ls.isEmpty)
        let s2 :=
          if e.valid && !s1.fwBlocks x e && !e.cores.contains x.val then
            let s2 := ((s1.makeRoom x e).copyImage x e).rezSet x e
            let s3 := s2.setRes l.res { s2.res l.res with cores := (s2.res l.res).cores ++ [x.val] }
            let n := s3.fld64 (P.mov x) F.MOV_BYTES_LO_bytes F.MOV_BYTES_HI_bytes
            s3.setFld64 (P.mov x) F.MOV_BYTES_LO_bytes F.MOV_BYTES_HI_bytes (n + e.len)
          else s1
        s2.loadCheck l.res l.desc

/-! COPY (06 R140, R153; 13 R322). -/

/-- Note the first poison of a COPY: its detail, and one fault log entry. -/
def State.copyPoison (s : State) (n q : Nat) (d : Desc) (space addr : Nat) : State × Desc :=
  match d.poison with
  | some _ => (s, d)
  | none =>
    let d1 := { d with poison := some (7 + 16 * space) }
    ((s.flog n 3 0x08 7 0xFFFF addr).setDesc n q d1, d1)

/-- The end of a COPY: OK, or POISON. -/
def State.copyEnd (s : State) (n q : Nat) (d : Desc) : State :=
  match d.poison with
  | some dt => s.complete n q d ⟨4, dt, 0xFFFF, 0, d.moved⟩
  | none => s.complete n q d ⟨0, 0, 0xFFFF, 0, d.moved⟩

/-- JOB_COPY (06 R131, R140, R153): towards the host the Hamper lines are written at once; from the host a read is issued. `xlate` says whether the host translates the range. -/
def execJobCopy (p : Fin 8) (xlate : Bool) (s : State) : Host.Outcome State Fault Refusal :=
  .next <| s.onPick p 6 fun n q d s =>
    let host := d.area.getD 0 0
    let ap := d.area.getD 1 0
    let len := d.area.getD 2 0
    let d := { d with st := .running, started := s.now }
    let s := s.startDesc n q d
    let fn := s.tnFn n
    if !(s.fn fn).bme then s.complete n q d ⟨0x0C, 0x11, 0xFFFF, 0, 0⟩
    else if !xlate then s.complete n q d ⟨0x0C, 0x10, 0xFFFF, 0, 0⟩
    else if bitOf d.flags 4 then
      let s1 := s.each (segs 64 ap len) fun sg s =>
        s.emit (.dmaWrite fn (s.qPasid n q) (host + (sg.1 - ap)) (s.apRead n sg.1 sg.2) (s.apPoison n sg.1 sg.2).isSome)
      let d1 := { d with moved := len }
      match s1.apPoison n ap len with
      | some o => let r := s1.copyPoison n q d1 4 o; r.1.copyEnd n q r.2
      | none => s1.copyEnd n q d1
    else s.emit (.dmaRead fn (s.qPasid n q) host len)

/-- Land bytes of a COPY at aperture offset `o`, piece by piece; a piece that has left the tenant is dropped (05 R115).
DESIGN CHOICE (log entry 72): bytes dropped, and bytes of a departed compartment sent as zeros, count as moved in the COPY's result; R115 and R133 do not say. -/
def State.copyLand (s : State) (n o : Nat) (data : List Byte) (ep : Bool) : State :=
  s.each (segs 64 o data.length) fun sg s =>
    match s.apAddr n sg.1 with
    | some a => { s with hmp := s.hmp.wr a ((data.drop (sg.1 - o)).take sg.2) ep }
    | none => s

/-- COPY_HOST_COMPLETION (06 R133, R153; 13 R322): bytes at offset `off` of the COPY numbered `i`, or a failure that ends it. -/
def execCopyHostCompletion (n : Fin 128) (q : Fin 8) (i : BitVec 16) (off : BitVec 25) (c : HostCpl) (s : State) :
    Host.Outcome State Fault Refusal :=
  .next <|
    match s.descOf n q i.toNat with
    | none => s
    | some d =>
      if d.kind != 6 || d.st != .running then s
      else
        let fail (dt : Nat) : State := s.complete n q d ⟨0x0C, dt, 0xFFFF, 0, d.moved⟩
        match c with
        | .unsupported => fail 1
        | .abort => fail 4
        | .translation => fail 0x10
        | .success data ep =>
          let room := d.area.getD 2 0 - off.toNat
          let data := data.take room
          let o := d.area.getD 1 0 + off.toNat
          let s1 := s.copyLand n o data ep
          let d1 := { d with moved := d.moved + data.length }
          let r := if ep then s1.copyPoison n q d1 5 (o / 64 * 64) else (s1, d1)
          if d.area.getD 2 0 ≤ r.2.moved then r.1.copyEnd n q r.2 else r.1.setDesc n q r.2

/-- COPY_COMPLETION_TIMEOUT (06 R133). -/
def execCopyCompletionTimeout (n : Fin 128) (q : Fin 8) (i : BitVec 16) (s : State) : Host.Outcome State Fault Refusal :=
  .next <|
    match s.descOf n q i.toNat with
    | none => s
    | some d => if d.kind != 6 || d.st != .running then s else s.complete n q d ⟨0x0C, 0x12, 0xFFFF, 0, d.moved⟩

end Sys2Proof.Machine
end

