-- ==== Sys2Proof/Machine/Peken.lean ====
section
/-! DEFINITION. How a Peken core executes one instruction (07 R158, R160-R162, R165, R175, R184, R189): when it runs, fetch checks, field checks, and what follows from its outcome. -/
namespace Sys2Proof.Machine

/-- What an instruction does. -/
inductive Act where
  /-- The core stays at the instruction: a WAIT, a stall on a full queue or a saturated token, or a request to a tile whose route changes (02 R37). -/
  | hold
  /-- A fault: code, high byte of the detail, address. -/
  | fault (code hi addr : Nat)
  /-- Poison consumed by a load: space, address. -/
  | poison (space addr : Nat)
  /-- Done; the next instruction follows. -/
  | next (s : State)
  /-- Done; execution goes on at a PC. -/
  | jump (s : State) (pc : Nat)
  /-- Done; the rank waits here until something releases it. -/
  | block (s : State)

/-- Which register file a field indexes, if the instruction uses it. -/
inductive RegUse where
  | no
  | s
  | v
  | p
deriving DecidableEq, Repr

/-- A field is in range. -/
def RegUse.ok (u : RegUse) (r : Fin 64) : Bool :=
  match u with
  | .no => r == 0
  | .s => decide (r.val < 32)
  | .v => true
  | .p => decide (r.val < 8)

/-- How an instruction uses the fields of its word. `keep` marks fields that another rule checks (08 R202, 10 R268). -/
structure Form where
  d : RegUse := .no
  a : RegUse := .no
  b : RegUse := .no
  c : RegUse := .no
  mods : List Nat := [0]
  mod2s : List Nat := [0]
  flags : Nat := 0
  imm : Bool := false
  guarded : Bool := false
  tgu : Bool := false
  engine : Bool := false

/-- RESERVED_FIELD (R162, R165, R175): a reserved bit, an unused field that is not zero, an index out of range, a reserved mod code, an undefined flag. -/
def Form.bad (f : Form) (i : Pk) : Bool :=
  i.rsv || !f.d.ok i.d || !f.a.ok i.a || !f.b.ok i.b || !f.c.ok i.c || !f.mods.contains i.mod.val ||
  !f.mod2s.contains i.mod2.val || (i.flags.toNat &&& f.flags) != i.flags.toNat ||
  (!f.imm && i.imm != 0) || (!f.guarded && (i.pg != 0 || i.pn)) || (!f.engine && i.token != 0)

/-- Core x executes instructions: MONITOR or JOB, not waiting at a barrier or in JEND, its job not stopping (R158, R184). -/
def State.executes (s : State) (x : Nat) : Bool :=
  (s.coreSt x == 2 || s.coreSt x == 4) && (s.core x).wait == .run &&
  match s.coreJob x with
  | some j => !j.stopping
  | none => true

/-- The fetch of core x: own W-store, aligned, permitted (R160, R161), and not poisoned in job mode (13 R322). -/
def State.fetchStop (s : State) (x pc : Nat) : Option Act :=
  if 0x80000 < pc + 8 then some (.fault 0x04 0 pc)
  else if pc % 8 ≠ 0 then some (.fault 0x03 0 pc)
  else if s.storeProtected x pc 8 false then some (.fault 0x05 0 pc)
  else if (s.coreJob x).isSome && s.stores.linePoison (stoKey x pc / 64) then some (.poison 0 pc)
  else none

/-- The PC is 19 bits wide (R162). -/
def pcAdd (pc : Nat) (off : Int) : Nat := unsgn 19 (pc + off)

/-- The state after an outcome. -/
def State.act (s : State) (x pc : Nat) : Act → State
  | .hold => s
  | .fault code hi addr => s.coreFault x code 0 hi addr pc
  | .poison space addr => s.corePoison x 0x12 1 space addr
  | .next t => t.setCore x { t.core x with pc := pcAdd pc 8 }
  | .jump t pc' => t.setCore x { t.core x with pc := pc' % 2 ^ 19 }
  | .block t => t

/-- TGU_ISSUE counts the per-thread instructions issued. -/
def State.tguCount (s : State) (x : Nat) : State :=
  s.setFld64 (P.tgu x) F.TGU_ISSUE_LO_count F.TGU_ISSUE_HI_count (s.fld64 (P.tgu x) F.TGU_ISSUE_LO_count F.TGU_ISSUE_HI_count + 1)

/-- Core x fetches and executes an instruction of form `f` with effect `body`. -/
def State.peken (s : State) (x : Nat) (i : Pk) (f : Form) (body : State → Core → Act) : State :=
  if !s.executes x then s
  else
    let c := s.core x
    match s.fetchStop x c.pc with
    | some a => s.act x c.pc a
    | none =>
      if f.bad i then s.act x c.pc (.fault 0x02 0 0)
      else
        let s1 := match body s c with
          | .next t => if f.tgu then Act.next (t.tguCount x) else .next t
          | a => a
        s.act x c.pc s1

/-- An instruction that only changes its core's registers. -/
def State.pekenReg (s : State) (x : Nat) (i : Pk) (f : Form) (g : Core → Core) : State :=
  s.peken x i f fun s c => .next (s.setCore x (g c))

end Sys2Proof.Machine
end

