-- ==== Sys2Proof/Machine/Scalar.lean ====
section
/-! DEFINITION. Scalar Peken instructions (07 R176, classes 0x1, 0x2, 0x3; R164): ALU, immediates, special registers, LDS and STS. -/
namespace Sys2Proof.Machine

/-- Format R, sd = sa op sb. -/
def formSss : Form := { d := .s, a := .s, b := .s }
/-- Format I, sd = sa op imm. -/
def formSsi : Form := { d := .s, a := .s, imm := true }

/-- sd = sa op sb. -/
def State.aluR (s : State) (x : Nat) (i : Pk) (op : Dword → Dword → Dword) : State :=
  s.pekenReg x i formSss fun c => c.setS i.d (op (c.getS i.a) (c.getS i.b))

/-- sd = sa op imm. -/
def State.aluI (s : State) (x : Nat) (i : Pk) (op : Dword → Dword → Dword) : State :=
  s.pekenReg x i formSsi fun c => c.setS i.d (op (c.getS i.a) (Pk.simm i))

/-- Scalar shift counts use bits 5:0 (R173). -/
def sh6 (b : Dword) : Nat := b.toNat % 64
def b2d (b : Bool) : Dword := if b then 1 else 0
/-- The high half of the unsigned product. -/
def mulHigh (a b : Dword) : Dword := BitVec.ofNat 64 (a.toNat * b.toNat / 2 ^ 64)

def execPkAdd (x : Fin 512) (i : Pk) (s : State) : Host.Outcome State Fault Refusal := .next (s.aluR x i (· + ·))
def execPkSub (x : Fin 512) (i : Pk) (s : State) : Host.Outcome State Fault Refusal := .next (s.aluR x i (· - ·))
def execPkAnd (x : Fin 512) (i : Pk) (s : State) : Host.Outcome State Fault Refusal := .next (s.aluR x i (· &&& ·))
def execPkOr (x : Fin 512) (i : Pk) (s : State) : Host.Outcome State Fault Refusal := .next (s.aluR x i (· ||| ·))
def execPkXor (x : Fin 512) (i : Pk) (s : State) : Host.Outcome State Fault Refusal := .next (s.aluR x i (· ^^^ ·))
def execPkShl (x : Fin 512) (i : Pk) (s : State) : Host.Outcome State Fault Refusal := .next (s.aluR x i fun a b => a <<< sh6 b)
def execPkShr (x : Fin 512) (i : Pk) (s : State) : Host.Outcome State Fault Refusal := .next (s.aluR x i fun a b => a >>> sh6 b)
def execPkSra (x : Fin 512) (i : Pk) (s : State) : Host.Outcome State Fault Refusal := .next (s.aluR x i fun a b => a.sshiftRight (sh6 b))
def execPkMul (x : Fin 512) (i : Pk) (s : State) : Host.Outcome State Fault Refusal := .next (s.aluR x i (· * ·))
def execPkMulhu (x : Fin 512) (i : Pk) (s : State) : Host.Outcome State Fault Refusal := .next (s.aluR x i mulHigh)
def execPkMin (x : Fin 512) (i : Pk) (s : State) : Host.Outcome State Fault Refusal := .next (s.aluR x i fun a b => if a.slt b then a else b)
def execPkMax (x : Fin 512) (i : Pk) (s : State) : Host.Outcome State Fault Refusal := .next (s.aluR x i fun a b => if a.slt b then b else a)
def execPkMinu (x : Fin 512) (i : Pk) (s : State) : Host.Outcome State Fault Refusal := .next (s.aluR x i fun a b => if a.ult b then a else b)
def execPkMaxu (x : Fin 512) (i : Pk) (s : State) : Host.Outcome State Fault Refusal := .next (s.aluR x i fun a b => if a.ult b then b else a)
def execPkSlt (x : Fin 512) (i : Pk) (s : State) : Host.Outcome State Fault Refusal := .next (s.aluR x i fun a b => b2d (a.slt b))
def execPkSltu (x : Fin 512) (i : Pk) (s : State) : Host.Outcome State Fault Refusal := .next (s.aluR x i fun a b => b2d (a.ult b))
def execPkAddi (x : Fin 512) (i : Pk) (s : State) : Host.Outcome State Fault Refusal := .next (s.aluI x i (· + ·))
def execPkAndi (x : Fin 512) (i : Pk) (s : State) : Host.Outcome State Fault Refusal := .next (s.aluI x i (· &&& ·))
def execPkOri (x : Fin 512) (i : Pk) (s : State) : Host.Outcome State Fault Refusal := .next (s.aluI x i (· ||| ·))
def execPkXori (x : Fin 512) (i : Pk) (s : State) : Host.Outcome State Fault Refusal := .next (s.aluI x i (· ^^^ ·))
def execPkShli (x : Fin 512) (i : Pk) (s : State) : Host.Outcome State Fault Refusal := .next (s.aluI x i fun a b => a <<< sh6 b)
def execPkShri (x : Fin 512) (i : Pk) (s : State) : Host.Outcome State Fault Refusal := .next (s.aluI x i fun a b => a >>> sh6 b)
def execPkSrai (x : Fin 512) (i : Pk) (s : State) : Host.Outcome State Fault Refusal := .next (s.aluI x i fun a b => a.sshiftRight (sh6 b))
/-- LUI: sd = imm32 << 32 OR sa[31:0]. -/
def execPkLui (x : Fin 512) (i : Pk) (s : State) : Host.Outcome State Fault Refusal :=
  .next (s.aluI x i fun a b => (b <<< 32) ||| (a &&& 0xFFFFFFFF))
def execPkSlti (x : Fin 512) (i : Pk) (s : State) : Host.Outcome State Fault Refusal := .next (s.aluI x i fun a b => b2d (a.slt b))

/-! Special registers (R164). -/

/-- The near window of core x is served as pooled memory (NEARINFO bit 0). -/
def State.nearPooled (s : State) (x : Nat) : Bool :=
  match s.logicalOf x with
  | some g => match s.backing g with | .slot _ => true | .standin _ => true | _ => false
  | none => false

/-- The pooled capacity of the partition of core x. -/
def State.poolcapOf (s : State) (x : Nat) : Nat :=
  match s.cluPart (x / 8) with
  | some p => (s.pm p).poolcap
  | none => 0

/-- The value of special register n; CYCLE is a free value (timing). -/
def State.csr (s : State) (x : Nat) (c : Core) (n : Nat) : Option Dword :=
  match n with
  | 0 => some (BitVec.ofNat 64 (Config.freeNat s.fresh))
  | 1 => some (BitVec.ofNat 64 s.ptpNow)
  | 2 => some (BitVec.ofNat 64 (s.gOf x))
  | 3 => some (BitVec.ofNat 64 (match s.coreJob x with | some j => j.rankOf x | none => 0))
  | 4 => some (BitVec.ofNat 64 (match s.coreJob x with | some j => j.ranks.length | none => 0))
  | 5 => some (BitVec.ofNat 64 c.fpstat)
  | 6 => some (BitVec.ofNat 64 c.fpmode)
  | 7 => some (b2d (s.nearPooled x))
  | 8 => some (BitVec.ofNat 64 (s.poolcapOf x))
  | _ => none

/-- CSRR. Any other number is ILLEGAL_OPCODE. -/
def execPkCsrr (x : Fin 512) (i : Pk) (s : State) : Host.Outcome State Fault Refusal :=
  .next <| s.peken x i { d := .s, imm := true } fun s c =>
    match s.csr x c i.imm.toNat with
    | some v => .next ((if i.imm = 0 then s.tick else s).setCore x (c.setS i.d v))
    | none => .fault 0x01 0 0

/-- CSRW. A read-only register, or any other number, is ILLEGAL_OPCODE. -/
def execPkCsrw (x : Fin 512) (i : Pk) (s : State) : Host.Outcome State Fault Refusal :=
  .next <| s.peken x i { a := .s, imm := true } fun s c =>
    if i.imm = 5 then .next (s.setCore x { c with fpstat := (c.getS i.a).toNat % 32 })
    else if i.imm = 6 then .next (s.setCore x { c with fpmode := (c.getS i.a).toNat % 8 })
    else .fault 0x01 0 0

/-! LDS and STS (R160). -/

/-- The address sa + imm. -/
def lsAddr (c : Core) (i : Pk) : Nat := (c.getS i.a + (Pk.simm i)).toNat

/-- Sign- or zero-extend `n` bytes. -/
def loadExt (bs : List Byte) (signed : Bool) : Dword :=
  let v := leNat bs
  if signed then BitVec.ofInt 64 (sgn (8 * bs.length) v) else BitVec.ofNat 64 v

/-- The place of an access lies on a tile that is fenced, or that the core's tile cannot reach. -/
def State.accGone (s : State) (x addr : Nat) : Bool :=
  s.placeGone (s.placeOf x addr) || match (s.placeOf x addr).tile with | some u => s.unreachable (x / 64) u | none => false

/-- The tile of the access's place is one to which the core's tile issues nothing now (02 R37). -/
def State.accHeld (s : State) (x addr : Nat) : Bool :=
  match (s.placeOf x addr).tile with | some u => s.routeHeld (x / 64) u | none => false

/-- LDS. In job mode poison is consumed; monitor code loads the bytes and the event is raised (13 R322). -/
def execPkLds (x : Fin 512) (i : Pk) (s : State) : Host.Outcome State Fault Refusal :=
  .next <| s.peken x i { d := .s, a := .s, imm := true, mods := [0, 1, 2, 3, 4, 5, 6, 7] } fun s c =>
    let addr := lsAddr c i
    let n := 2 ^ (i.mod.val % 4)
    match s.accessFault x .scalar addr n n false with
    | some code => .fault code 0 addr
    | none =>
      let r := s.memRead x addr n
      if s.accHeld x addr then .hold
      else if r.2.1 && c.job.isSome then .poison (s.poisonSpace x addr) addr
      else
        let t := if r.2.1 then r.2.2.event (P.core x) 2 else r.2.2
        .next (t.setCore x (c.setS i.d (loadExt r.1 (decide (4 ≤ i.mod.val)))))

/-- STS. -/
def execPkSts (x : Fin 512) (i : Pk) (s : State) : Host.Outcome State Fault Refusal :=
  .next <| s.peken x i { d := .s, a := .s, imm := true, mods := [0, 1, 2, 3] } fun s c =>
    let addr := lsAddr c i
    let n := 2 ^ i.mod.val
    match s.accessFault x .scalar addr n n true with
    | some code => .fault code 0 addr
    | none => if s.accHeld x addr then .hold else .next (s.memWrite x addr (leBytes n (c.getS i.d).toNat) false)

end Sys2Proof.Machine
end

