-- ==== Sys2Proof/Machine/Control.lean ====
section
/-! DEFINITION. Control Peken instructions (07 R158, R166-R168, R176, R177): branches, divergence, TRAP, WAIT to TOKS, residency, JEND and IDLE, and the end of a rank. -/
namespace Sys2Proof.Machine

/-- Branch target: 8·off from this instruction. -/
def brTarget (c : Core) (i : Pk) : Nat := pcAdd c.pc (8 * (sgn 32 i.imm.toNat))

def execPkNop (x : Fin 512) (i : Pk) (s : State) : Host.Outcome State Fault Refusal := .next (s.pekenReg x i {} id)
def execPkBr (x : Fin 512) (i : Pk) (s : State) : Host.Outcome State Fault Refusal :=
  .next <| s.peken x i { imm := true } fun s c => .jump s (brTarget c i)

/-- The condition of BRC. -/
def brcCond (m : Nat) (a : Dword) : Bool :=
  match m with
  | 0 => a == 0
  | 1 => a != 0
  | 2 => a.slt 0
  | 3 => !a.slt 0
  | 4 => (0#64).slt a
  | _ => !(0#64).slt a

def execPkBrc (x : Fin 512) (i : Pk) (s : State) : Host.Outcome State Fault Refusal :=
  .next <| s.peken x i { a := .s, imm := true, mods := [0, 1, 2, 3, 4, 5] } fun s c =>
    if brcCond i.mod.val (c.getS i.a) then .jump s (brTarget c i) else .next s
def execPkCall (x : Fin 512) (i : Pk) (s : State) : Host.Outcome State Fault Refusal :=
  .next <| s.peken x i { d := .s, imm := true } fun s c =>
    .jump (s.setCore x (c.setS i.d (BitVec.ofNat 64 (c.pc + 8)))) (brTarget c i)
def execPkJr (x : Fin 512) (i : Pk) (s : State) : Host.Outcome State Fault Refusal :=
  .next <| s.peken x i { a := .s } fun s c => .jump s (c.getS i.a).toNat

/-! Divergence (R166). The stack's top is the list's head. -/

/-- MASK_STACK. -/
def maskFault : Act := .fault 0x07 0 0

/-- Push an entry onto the mask stack. -/
def State.pushMask (s : State) (x : Nat) (c : Core) (e : MaskEntry) (active : Dword) : Act :=
  if 32 ≤ c.stack.length then maskFault else .next (s.setCore x { c with stack := e :: c.stack, active := active })

/-- IF. -/
def execPkIf (x : Fin 512) (i : Pk) (s : State) : Host.Outcome State Fault Refusal :=
  .next <| s.peken x i { guarded := true } fun s c =>
    let taken := c.active &&& c.guard i
    s.pushMask x c ⟨.ifk, c.active, taken, false⟩ taken

/-- ELSE. -/
def execPkElse (x : Fin 512) (i : Pk) (s : State) : Host.Outcome State Fault Refusal :=
  .next <| s.peken x i {} fun s c =>
    match c.stack with
    | e :: r =>
      if e.kind = .ifk ∧ !e.els then
        .next (s.setCore x { c with stack := { e with els := true } :: r, active := e.outer &&& ~~~ e.taken })
      else maskFault
    | [] => maskFault

/-- ENDIF. -/
def execPkEndif (x : Fin 512) (i : Pk) (s : State) : Host.Outcome State Fault Refusal :=
  .next <| s.peken x i {} fun s c =>
    match c.stack with
    | e :: r => if e.kind = .ifk then .next (s.setCore x { c with stack := r, active := e.outer }) else maskFault
    | [] => maskFault

/-- LOOP. -/
def execPkLoop (x : Fin 512) (i : Pk) (s : State) : Host.Outcome State Fault Refusal :=
  .next <| s.peken x i {} fun s c => s.pushMask x c ⟨.loopk, c.active, 0, false⟩ c.active

/-- Every IF entry above the innermost LOOP entry loses threads; `none` without a LOOP entry. -/
def breakStack (gone : Dword) : List MaskEntry → Option (List MaskEntry)
  | [] => none
  | e :: r =>
    match e.kind with
    | .loopk => some (e :: r)
    | .ifk => (breakStack gone r).map ({ e with outer := e.outer &&& ~~~ gone, taken := e.taken &&& ~~~ gone } :: ·)

/-- BRK. The guarded threads are the active ones whose guard is 1 (DEDUCED from R165). -/
def execPkBrk (x : Fin 512) (i : Pk) (s : State) : Host.Outcome State Fault Refusal :=
  .next <| s.peken x i { guarded := true } fun s c =>
    match breakStack (c.acting i) c.stack with
    | some st => .next (s.setCore x { c with stack := st, active := c.active &&& ~~~ c.guard i })
    | none => maskFault

/-- ENDLOOP. -/
def execPkEndloop (x : Fin 512) (i : Pk) (s : State) : Host.Outcome State Fault Refusal :=
  .next <| s.peken x i { imm := true } fun s c =>
    match c.stack with
    | e :: r =>
      if e.kind = .loopk then
        if c.active ≠ 0 then .jump s (brTarget c i) else .next (s.setCore x { c with stack := r, active := e.outer })
      else maskFault
    | [] => maskFault

/-- BRNONE. -/
def execPkBrnone (x : Fin 512) (i : Pk) (s : State) : Host.Outcome State Fault Refusal :=
  .next <| s.peken x i { imm := true } fun s c => if c.active = 0 then .jump s (brTarget c i) else .next s

/-- TRAP: the immediate's low byte is reported (R189, CORE_FAULT_ADDR). -/
def execPkTrap (x : Fin 512) (i : Pk) (s : State) : Host.Outcome State Fault Refusal :=
  .next <| s.peken x i { imm := true } fun _ _ => .fault 0x0A (i.imm.toNat % 256) (i.imm.toNat % 256)

/-! Tokens, barriers, fences. -/

/-- WAIT. -/
def execPkWait (x : Fin 512) (i : Pk) (s : State) : Host.Outcome State Fault Refusal :=
  .next <| s.peken x i { imm := true } fun s c =>
    if (List.range 16).all fun t => !bitOf i.imm.toNat t || c.getT t == 0 then .next s else .hold

/-- WAITA. -/
def execPkWaita (x : Fin 512) (i : Pk) (s : State) : Host.Outcome State Fault Refusal :=
  .next <| s.peken x i {} fun s c => if (List.range 16).all fun t => c.getT t == 0 then .next s else .hold

/-- The barrier some rank of job j waits at. -/
def State.barrierOf (s : State) (j : Job) : Option Nat :=
  j.ranks.findSome? fun y => match (s.core y).wait with | .barrier b => some b | _ => none

/-- Release the barrier of job j when every rank that has not executed JEND waits (R177). -/
def State.barrierRelease (s : State) (j : Job) : State :=
  let st (y : Nat) : Wait := (s.core y).wait
  if j.ranks.all fun y => match st y with | .run => false | _ => true then
    s.each j.ranks fun y s =>
      match (s.core y).wait with
      | .barrier _ => s.setCore y { s.core y with wait := .run, pc := pcAdd (s.core y).pc 8 }
      | _ => s
  else s

/-- BAR. Two waiting ranks that name different identifiers fault BARRIER. Without a job it completes at once. -/
def execPkBar (x : Fin 512) (i : Pk) (s : State) : Host.Outcome State Fault Refusal :=
  .next <| s.peken x i { imm := true } fun s c =>
    match s.coreJob x with
    | none => .next s
    | some j =>
      let b := i.imm.toNat % 4
      match s.barrierOf j with
      | some b' => if b' = b then .block ((s.setCore x { c with wait := .barrier b }).barrierRelease j) else .fault 0x09 0 0
      | none => .block ((s.setCore x { c with wait := .barrier b }).barrierRelease j)

/-- MFENCE: every store of this model is visible when it is made, so only the PC advances (R168). -/
def execPkMfence (x : Fin 512) (i : Pk) (s : State) : Host.Outcome State Fault Refusal :=
  .next (s.pekenReg x i { mods := [0, 1] } id)

/-- TOKS. -/
def execPkToks (x : Fin 512) (i : Pk) (s : State) : Host.Outcome State Fault Refusal :=
  .next <| s.pekenReg x i { d := .s, imm := true } fun c => c.setS i.d (BitVec.ofNat 64 (c.getT (i.imm.toNat % 16)))

/-! Residency of the running job. -/

/-- The range of the job's model on core x. -/
def State.jobRange (s : State) (x : Nat) : Option Nat :=
  match s.coreJob x with
  | some j => s.rezOf x j.tn j.model
  | none => none

/-- REZQ: offset and length of the job's model range; 0 after REZINV. -/
def execPkRezq (x : Fin 512) (i : Pk) (s : State) : Host.Outcome State Fault Refusal :=
  .next <| s.peken x i { d := .s } fun s c =>
    .next (s.setCore x (c.setS i.d (match s.jobRange x with
      | some k => BitVec.ofNat 64 (s.rezBase x k + 2 ^ 32 * s.rezLen x k)
      | none => 0)))

/-- REZINV: the range becomes scratch; the dispatcher learns of it at the job's end (R161, and step 5 of A job's life). -/
def execPkRezinv (x : Fin 512) (i : Pk) (s : State) : Host.Outcome State Fault Refusal :=
  .next <| s.peken x i {} fun s _ =>
    match s.jobRange x with
    | some k => .next ((s.rezDrop x k).setFlag (P.core x) F.CORE_STS_rezinv true)
    | none => .next s

/-! End of a rank (R177). -/

/-- JEND: rank 0 gives the result; the rank then waits for its tokens and takes part in no later barrier. In monitor mode it is ILLEGAL_OPCODE (DEDUCED). -/
def execPkJend (x : Fin 512) (i : Pk) (s : State) : Host.Outcome State Fault Refusal :=
  .next <| s.peken x i { a := .s } fun s c =>
    match s.coreJob x with
    | none => .fault 0x01 0 0
    | some j =>
      let c1 := if j.rankOf x = 0 then { c with result := (c.getS i.a).toNat % 2 ^ 32 } else c
      .block ((s.setCore x { c1 with wait := .jend }).barrierRelease j)

/-- IDLE: monitor mode only. -/
def execPkIdle (x : Fin 512) (i : Pk) (s : State) : Host.Outcome State Fault Refusal :=
  .next <| s.peken x i {} fun s _ =>
    if (s.coreJob x).isSome then .fault 0x01 0 0
    else .next (s.setFld (P.core x) F.CORE_STS_state 3)

/-- RANK_END: a rank in JEND whose tokens are all 0 ends; `energy` is the activity energy of the rank in 10 µJ units (16 R379). -/
def execRankEnd (x : Fin 512) (energy : Nat) (s : State) : Host.Outcome State Fault Refusal :=
  .next <|
    let c := s.core x
    match c.job with
    | none => s
    | some k =>
      let j := s.job k
      if c.wait == .jend && !j.stopping && (List.range 16).all fun t => c.getT t == 0 then
        ((s.setCore x { c with wait := .ended }).setJob k { j with energy := j.energy + energy }).jobCheck k
      else s

end Sys2Proof.Machine
end

