-- ==== Sys2Proof/Machine/Engines.lean ====
section
/-! DEFINITION. The matrix engine (07 R167, R169-R172): issue of MMA, MSCL and MCVT, and the completion of the operation at the head of the MXE queue. -/
namespace Sys2Proof.Machine

/-! Issue (R167). -/

/-- A full queue or a saturated token stalls issue; otherwise the token rises and the operation enters its queue. -/
def State.issue (s : State) (x : Nat) (c : Core) (i : Pk) (queued depth : Nat) (put : Core → Core) : Act :=
  if depth ≤ queued ∨ 255 ≤ c.getT i.token then .hold
  else .next (s.setCore x (put (c.setT i.token (c.getT i.token + 1))))

/-- An operation's token falls. -/
def State.tokenFall (s : State) (x t : Nat) : State :=
  s.setCore x ((s.core x).setT t ((s.core x).getT t - 1))

/-- ENGINE_DESC, refused at issue: source 0, an instruction. -/
def engineDesc : Act := .fault 0x08 0 0

/-! Formats (R169, R170). -/

/-- Classes: 1 INT4, 2 8-bit, 3 16-bit. -/
def mxClass (fmt : Nat) : Nat := if fmt = 3 then 1 else if fmt < 3 then 2 else 3
/-- K_c. -/
def mxKc (fmt : Nat) : Nat := if fmt = 3 then 16 else if fmt < 3 then 8 else 4
/-- Half bytes per element. -/
def mxNib (fmt : Nat) : Nat := if fmt = 3 then 1 else if fmt < 3 then 2 else if fmt < 6 then 4 else 8
/-- Bytes of n elements. -/
def mxBytes (fmt n : Nat) : Nat := (n * mxNib fmt + 1) / 2
/-- A and B may meet in one MMA. -/
def mxMix (fa fb : Nat) : Bool := fa == fb || (decide (fa < 2) && decide (fb < 2))
/-- m or n. -/
def mxDim (n : Nat) : Bool := n == 16 || n == 32 || n == 48 || n == 64

/-- Fields of a shape scalar. -/
def shM (sh : Nat) : Nat := bits sh 0 8
def shN (sh : Nat) : Nat := bits sh 8 8
def shK (sh : Nat) : Nat := bits sh 16 16

/-- `n` bytes at `a` lie inside a store of the own-store layout, 64-byte aligned. -/
def inStore (lo hi a n : Nat) : Bool := decide (lo ≤ a) && decide (a + n ≤ hi) && a % 64 == 0
def inW (a n : Nat) : Bool := inStore 0 0x80000 a n
def inA (a n : Nat) : Bool := inStore 0x80000 0xC0000 a n
def inP (a n : Nat) : Bool := inStore 0xC0000 0xE0000 a n

/-- R161 on an MXE operand in the W-store. -/
def State.mxProtected (s : State) (x a n : Nat) (write : Bool) : Bool :=
  match s.coreJob x with
  | some j => decide (a < 0x80000) && s.wProtected j x a n write
  | none => false

/-- The first operand that R161 refuses. -/
def State.mxGuard (s : State) (x : Nat) (ops : List (Nat × Nat × Bool)) (ok : Act) : Act :=
  match ops.find? fun o => s.mxProtected x o.1 o.2.1 o.2.2 with
  | some o => .fault 0x05 0 o.1
  | none => ok

/-! MMA. -/

/-- Operands of an MMA that it reads, as (address, length): A, B, the scale tables, C. -/
def MxeOp.reads (o : MxeOp) : List (Nat × Nat) :=
  let m := shM o.shape
  let n := shN o.shape
  let k := shK o.shape
  [(o.sa, mxBytes o.fmtA (m * k)), (o.sb, mxBytes o.fmtB (n * k))] ++
  (if bitOf o.flags 1 then [(o.sclA, m * (k / 32)), (o.sclB, n * (k / 32))] else []) ++
  (if bitOf o.flags 0 then [(o.sd, 4 * m * n)] else [])

/-- The rules of R170. -/
def MxeOp.mmaOk (o : MxeOp) : Bool :=
  let m := shM o.shape
  let n := shN o.shape
  let k := shK o.shape
  mxDim m && mxDim n && k % 32 == 0 && decide (32 ≤ k) && decide (k ≤ 2048) && mxMix o.fmtA o.fmtB &&
  (inA o.sa (mxBytes o.fmtA (m * k)) || inW o.sa (mxBytes o.fmtA (m * k))) && inW o.sb (mxBytes o.fmtB (n * k)) &&
  inP o.sd (4 * m * n) &&
  (!bitOf o.flags 1 ||
    ((inA o.sclA (m * (k / 32)) || inW o.sclA (m * (k / 32))) && (inA o.sclB (n * (k / 32)) || inW o.sclB (n * (k / 32)))))

/-- MMA at issue. -/
def execPkMma (x : Fin 512) (i : Pk) (s : State) : Host.Outcome State Fault Refusal :=
  .next <| s.peken x i { d := .s, a := .s, b := .s, c := .s, mods := [0, 1, 2, 3, 4, 5], mod2s := [0, 1, 2, 3, 4, 5], flags := 3, engine := true }
    fun s c =>
      let o : MxeOp := ⟨0, i.token, c.pc, (c.getS i.d).toNat, (c.getS i.a).toNat, (c.getS i.b).toNat, (c.getS i.c).toNat,
        i.mod, i.mod2, i.flags.toNat, c.sclA, c.sclB⟩
      let go := s.issue x c i c.mxeq.length 16 fun c => { c with mxeq := c.mxeq ++ [o] }
      match go with
      | .hold => .hold
      | _ => if !o.mmaOk then engineDesc else s.mxGuard x (o.reads.map fun r => (r.1, r.2, false)) go

/-- MSCL: the tables of later MMAs. -/
def execPkMscl (x : Fin 512) (i : Pk) (s : State) : Host.Outcome State Fault Refusal :=
  .next <| s.peken x i { a := .s, b := .s, engine := true } fun s c =>
    let o : MxeOp := ⟨1, i.token, c.pc, 0, (c.getS i.a).toNat, (c.getS i.b).toNat, 0, 0, 0, 0, 0, 0⟩
    s.issue x c i c.mxeq.length 16 fun c => { c with mxeq := c.mxeq ++ [o], sclA := o.sa, sclB := o.sb }

/-- The shape rule of MCVT: with scales, n is a multiple of 32 (R172). -/
def MxeOp.mcvtOk (o : MxeOp) : Bool := !bitOf o.flags 0 || shN o.shape % 32 == 0

/-- Operands of an MCVT: address, length, written, in the P-store (else A-store or W-store). -/
def MxeOp.mcvtOps (o : MxeOp) : List (Nat × Nat × Bool × Bool) :=
  let mn := shM o.shape * shN o.shape
  [(o.sa, 4 * mn, false, true), (o.sd, mxBytes o.fmtA mn, true, false)] ++ (if bitOf o.flags 0 then [(o.sb, mn / 32, true, false)] else [])

/-- Placement of an operand of an MCVT (R160): outside its stores ADDR_UNMAPPED, else not 64-byte aligned MISALIGNED. -/
def mcvtPlace (a n : Nat) (p : Bool) : Option Nat :=
  let within (lo hi : Nat) : Bool := decide (lo ≤ a) && decide (a + n ≤ hi)
  if !(if p then within 0xC0000 0xE0000 else within 0x80000 0xC0000 || within 0 0x80000) then some 0x04
  else if a % 64 ≠ 0 then some 0x03 else none

/-- MCVT at issue. -/
def execPkMcvt (x : Fin 512) (i : Pk) (s : State) : Host.Outcome State Fault Refusal :=
  .next <| s.peken x i { d := .s, a := .s, b := .s, c := .s, mods := [0, 1, 2, 3, 4, 5, 6], flags := 3, engine := true } fun s c =>
    let o : MxeOp := ⟨2, i.token, c.pc, (c.getS i.d).toNat, (c.getS i.a).toNat, (c.getS i.b).toNat, (c.getS i.c).toNat,
      i.mod, 0, i.flags.toNat, 0, 0⟩
    let go := s.issue x c i c.mxeq.length 16 fun c => { c with mxeq := c.mxeq ++ [o] }
    match go with
    | .hold => .hold
    | _ =>
      if !o.mcvtOk then engineDesc
      else match o.mcvtOps.findSome? fun r => (mcvtPlace r.1 r.2.1 r.2.2.2).map (·, r.1) with
        | some e => .fault e.1 0 e.2
        | none => s.mxGuard x (o.mcvtOps.map fun r => (r.1, r.2.1, r.2.2.1)) go

/-! Arithmetic of the matrix engine (R171, R172). -/

/-- The format of an element code; none for the integers. -/
def mxFmt (fmt : Nat) : Option FpFmt :=
  match fmt with
  | 0 => some fmtE4m3
  | 1 => some fmtE5m2
  | 4 => some fmtBf16
  | 5 => some fmtF16
  | 6 => some fmtF32
  | _ => none

/-- The exponent of the unit in which elements of a format are integers. -/
def mxUnit (fmt : Nat) (scaled : Bool) : Int :=
  match mxFmt fmt with
  | some f => f.emin - f.mb
  | none => if scaled then (if fmt = 2 then -6 else -2) else 0

/-- An element as an integer of its unit; none for an infinity or a NaN. -/
def mxElem (fmt code : Nat) : Option Int :=
  match mxFmt fmt with
  | some f =>
    match f.decode code false with
    | .num n m e => some ((if n then -1 else 1) * ((m * 2 ^ (e - (f.emin - f.mb)).toNat : Nat) : Int))
    | _ => none
  | none => some (sgn (if fmt = 2 then 8 else 4) code)

/-- Element number `e` of an operand at address `a` of the own stores of core x. -/
def State.mxCode (s : State) (x a fmt e : Nat) : Nat :=
  let nib := mxNib fmt
  if nib = 1 then (s.stores.rd (stoKey x (a + e / 2))).toNat / (if e % 2 = 0 then 1 else 16) % 16
  else s.stores.rdLe (stoKey x (a + e * (nib / 2))) (nib / 2)

/-- The exact sum of two lists of 32 elements; none where an input is not finite. -/
def mxDot : List (Option Int) → List (Option Int) → Option Int
  | [], _ => some 0
  | _, [] => some 0
  | a :: as, b :: bs =>
    match a, b, mxDot as bs with
    | some u, some v, some r => some (u * v + r)
    | _, _, _ => none

/-- Round to binary32, nearest even. -/
def toF32 (x : Fp) : Nat := (fmtF32.encode 0 false false x).1

/-- Step 2 of R171: x times 2^(ea − 127)·2^(eb − 127), kept exact. -/
def mxScale (x : Fp) (ea eb : Nat) : Fp :=
  if ea = 255 ∨ eb = 255 then .nan false
  else match x with
    | .num n m e => .num n m (e + ea + eb - 254)
    | y => y

/-- Block b of output (i, j): x of R171. -/
def State.mxBlock (s : State) (x : Nat) (o : MxeOp) (i j b : Nat) : Fp :=
  let k := shK o.shape
  let sc := bitOf o.flags 1
  let as := (List.range 32).map fun e => mxElem o.fmtA (s.mxCode x o.sa o.fmtA (i * k + 32 * b + e))
  let bs := (List.range 32).map fun e => mxElem o.fmtB (s.mxCode x o.sb o.fmtB (j * k + 32 * b + e))
  let v : Fp := match mxDot as bs with
    | some d => fmtF32.decode (toF32 (Fp.ofInt d (mxUnit o.fmtA sc + mxUnit o.fmtB sc))) false
    | none => .nan false
  if sc then mxScale v (s.stores.rd (stoKey x (o.sclA + i * (k / 32) + b))).toNat (s.stores.rd (stoKey x (o.sclB + j * (k / 32) + b))).toNat
  else v

/-- Output (i, j) of an MMA. -/
def State.mxOut (s : State) (x : Nat) (o : MxeOp) (i j : Nat) : Nat :=
  let c0 := if bitOf o.flags 0 then s.stores.rdLe (stoKey x (o.sd + 4 * (i * shN o.shape + j))) 4 else 0
  (List.range (shK o.shape / 32)).foldl (fun c b =>
    toF32 (fpAdd 0 (fmtF32.decode c false) (s.mxBlock x o i j b)).1) c0

/-- The C of an MMA, row-major. -/
def State.mmaC (s : State) (x : Nat) (o : MxeOp) : List Byte :=
  (List.range (shM o.shape)).flatMap fun i => (List.range (shN o.shape)).flatMap fun j => leBytes 4 (s.mxOut x o i j)

/-- emax of a format with scales; of BF16, FP16 and FP32 the spec states none (log entry 22). -/
def mxEmax (fmt : Nat) : Int := match fmt with | 0 => 8 | 1 => 15 | 2 => 0 | 3 => 0 | f => Config.mxEmax f

/-- ⌊log2⌋ of the largest magnitude of a block, none if it is all zero. -/
def blockLog (vs : List Fp) : Option Int :=
  vs.foldl (fun acc v =>
    match v with
    | .num _ m e => if m = 0 then acc else
        let l : Int := Nat.log2 m + e
        match acc with | none => some l | some a => some (max a l)
    | _ => acc) none

/-- The E8M0 scale byte of a block (R172). -/
def blockScale (fmt : Nat) (vs : List Fp) : Nat :=
  if vs.any fun v => v.isNan || v.isInf then 255
  else match blockLog vs with
    | none => 0
    | some l => (max 0 (min 254 (l - mxEmax fmt + 127))).toNat

/-- An element divided by a scale, in the fixed point that a scaled MMA reads (R171). -/
def mxDivide (fmt sb : Nat) (v : Fp) : Fp :=
  match v with
  | .num n m e => .num n m (e - ((sb : Int) - 127) - (if (mxFmt fmt).isNone then mxUnit fmt true else 0))
  | y => y

/-- The code of a value in a destination format. -/
def mxStore (fmt : Nat) (sat : Bool) (v : Fp) : Nat :=
  match mxFmt fmt with
  | some f => (f.encode 0 sat false v).1
  | none => let w := if fmt = 2 then 8 else 4; unsgn w (fpToInt 0 w true v).1

/-- Codes packed into bytes, the lower-indexed INT4 element in the low nibble. -/
def mxPack (fmt : Nat) : List Nat → List Byte
  | a :: b :: l => if fmt = 3 then BitVec.ofNat 8 (a + 16 * b) :: mxPack fmt l
                   else leBytes (mxNib fmt / 2) a ++ leBytes (mxNib fmt / 2) b ++ mxPack fmt l
  | [a] => leBytes (max 1 (mxNib fmt / 2)) a
  | [] => []

/-- Element e of the source of an MCVT. -/
def State.mcvtIn (s : State) (x : Nat) (o : MxeOp) (e : Nat) : Fp :=
  fmtF32.decode (s.stores.rdLe (stoKey x (o.sa + 4 * e)) 4) false

/-- The scale byte of block b of an MCVT. -/
def State.mcvtScale (s : State) (x : Nat) (o : MxeOp) (b : Nat) : Nat :=
  blockScale o.fmtA ((List.range 32).map fun e => s.mcvtIn x o (32 * b + e))

/-- The code of element e of an MCVT. -/
def State.mcvtCode (s : State) (x : Nat) (o : MxeOp) (e : Nat) : Nat :=
  let v := s.mcvtIn x o e
  if bitOf o.flags 0 then
    let sb := s.mcvtScale x o (e / 32)
    mxStore o.fmtA (bitOf o.flags 1) (if sb = 255 then .nan false else mxDivide o.fmtA sb v)
  else mxStore o.fmtA (bitOf o.flags 1) v

/-! Completion (R167, R171, R189; 13 R322). -/

/-- Bytes into the own stores of core x. -/
def State.ownWrite (s : State) (x a : Nat) (bs : List Byte) : State := { s with stores := s.stores.wr (stoKey x a) bs false }

/-- The effect of an MXE operation on the stores. -/
def State.mxeEffect (s : State) (x : Nat) (o : MxeOp) : State :=
  let mn := shM o.shape * shN o.shape
  match o.kind with
  | 0 =>
    let n := s.fld64 (P.mxe x) F.MXE_BUSY_LO_cycles F.MXE_BUSY_HI_cycles
    (s.ownWrite x o.sd (s.mmaC x o)).setFld64 (P.mxe x) F.MXE_BUSY_LO_cycles F.MXE_BUSY_HI_cycles
      (n + shM o.shape / 16 * (shN o.shape / 16) * (shK o.shape / mxKc o.fmtA))
  | 1 => s
  | _ =>
    let s1 := s.ownWrite x o.sd (mxPack o.fmtA ((List.range mn).map fun e => s.mcvtCode x o e))
    if bitOf o.flags 0 then s1.ownWrite x o.sb ((List.range (mn / 32)).map fun b => BitVec.ofNat 8 (s.mcvtScale x o b)) else s1

/-- What an MXE operation reads. -/
def MxeOp.sources (o : MxeOp) : List (Nat × Nat) :=
  match o.kind with
  | 0 => o.reads
  | 1 => []
  | _ => [(o.sa, 4 * (shM o.shape * shN o.shape))]

/-- The engines of core x work: it executes, waits or has left with JEND, and its job is not stopping. -/
def State.enginesRun (s : State) (x : Nat) : Bool :=
  (s.coreSt x == 2 || s.coreSt x == 4) && (s.core x).wait != .ended &&
  match s.coreJob x with
  | some j => !j.stopping
  | none => true

/-- MXE_OP_COMPLETE: the operation at the head of the queue. -/
def execMxeOpComplete (x : Fin 512) (s : State) : Host.Outcome State Fault Refusal :=
  .next <|
    if !s.enginesRun x then s
    else match (s.core x).mxeq with
      | [] => s
      | o :: q =>
        let s1 := s.setCore x { s.core x with mxeq := q }
        let bad := o.sources.findSome? fun r => s.stores.firstPoison (stoKey x r.1) r.2
        match bad with
        | some l =>
          let s2 := s1.corePoison x 0x12 2 0 (64 * (l % 16384))
          if (s.core x).job.isSome then s2 else (s2.mxeEffect x o).tokenFall x o.token
        | none => (s1.mxeEffect x o).tokenFall x o.token

end Sys2Proof.Machine
end

