-- ==== Sys2Proof/Machine/Movers.lean ====
section
/-! DEFINITION. Movers (08 R202-R216): issue and descriptor checks, start, completion of linear, strided, indexed and compare-and-swap operations, tile requests to the Hamper (05 R108), and the stop of a rank (07 R184; 08 R212). -/
namespace Sys2Proof.Machine

/-! Issue. -/

/-- The mover queue entry of an instruction. -/
def movEntry (c : Core) (i : Pk) (kind : Nat) (desc : List Byte) : MovOp :=
  ⟨kind, i.token, c.pc, (c.getS i.d).toNat, (c.getS i.a).toNat, (c.getS i.b).toNat, (c.getS i.c).toNat, desc, i.flags.toNat⟩

/-- Put an operation into the mover queue. -/
def State.movIssue (s : State) (x : Nat) (c : Core) (i : Pk) (o : MovOp) : Act :=
  s.issue x c i c.movq.length 32 fun c => { c with movq := c.movq ++ [o] }

/-- MVL: a length above 64 MiB is refused at issue. -/
def execPkMvl (x : Fin 512) (i : Pk) (s : State) : Host.Outcome State Fault Refusal :=
  .next <| s.peken x i { d := .s, a := .s, b := .s, flags := 1, engine := true } fun s c =>
    match s.movIssue x c i (movEntry c i 0 []) with
    | .hold => .hold
    | go => if 0x4000000 < (c.getS i.b).toNat then engineDesc else go

/-- A number of `n` bytes at offset `o` of a descriptor. -/
def dNum (d : List Byte) (o n : Nat) : Nat := leNat ((d.drop o).take n)
/-- The same, signed. -/
def dInt (d : List Byte) (o n : Nat) : Int := sgn (8 * n) (dNum d o n)

/-- Layout rules of an MVS descriptor (R204). -/
def mvsOk (d : List Byte) : Bool :=
  let len := dNum d 0x10 4
  decide (1 ≤ len) && decide (len ≤ 65536) && decide (1 ≤ dNum d 0x14 4) && decide (1 ≤ dNum d 0x28 2) && decide (1 ≤ dNum d 0x2A 2) &&
  dNum d 0x2C 4 == 0 && decide (len * dNum d 0x14 4 * dNum d 0x28 2 * dNum d 0x2A 2 ≤ 0x4000000)

/-- Layout rules of an MVG, MVT or MVA descriptor (R205). -/
def mvxOk (mva : Bool) (d : List Byte) : Bool :=
  let elem := dNum d 0x1C 4
  let w := dNum d 0x28 1
  let op := dNum d 0x29 1
  decide (w ≤ 1) && dNum d 0x10 8 % (if w = 0 then 4 else 8) == 0 && decide (1 ≤ dNum d 0x18 4) && decide (dNum d 0x18 4 ≤ 65536) &&
  decide (4 ≤ elem) && decide (elem ≤ 4096) && elem % 4 == 0 && dNum d 0x20 8 % 4 == 0 &&
  (if mva then decide (op ≤ 3) && (op != 2 || elem % 8 == 0) else op == 0) && decide (dNum d 0x2A 2 < 4) && dNum d 0x30 16 == 0

/-- An instruction with a descriptor at sa (R202): d, b and c are unused and must be 0; the descriptor lies in the own stores, is permitted, and its poison is consumed (R214). -/
def State.movDesc (s : State) (x : Nat) (i : Pk) (kind : Nat) (ok : List Byte → Bool) : State :=
  s.peken x i { a := .s, flags := 1, engine := true } fun s c =>
    let a := (c.getS i.a).toNat
    let desc := s.stores.rdN (stoKey x a) 64
    match s.movIssue x c i { movEntry c i kind desc with sd := 0, sb := 0, sc := 0 } with
    | .hold => .hold
    | go =>
      if storeTop < a + 64 then .fault 0x04 0 a
      else if s.storeProtected x a 64 false then .fault 0x05 0 a
      else if s.stores.poisoned (stoKey x a) 64 && c.job.isSome then .block (s.corePoison x 0x12 3 0 a)
      else if !ok desc then engineDesc
      else go

def execPkMvs (x : Fin 512) (i : Pk) (s : State) : Host.Outcome State Fault Refusal := .next (s.movDesc x i 1 mvsOk)
def execPkMvg (x : Fin 512) (i : Pk) (s : State) : Host.Outcome State Fault Refusal := .next (s.movDesc x i 2 (mvxOk false))
def execPkMvt (x : Fin 512) (i : Pk) (s : State) : Host.Outcome State Fault Refusal := .next (s.movDesc x i 3 (mvxOk false))
def execPkMva (x : Fin 512) (i : Pk) (s : State) : Host.Outcome State Fault Refusal := .next (s.movDesc x i 4 (mvxOk true))

/-- MCAS. -/
def execPkMcas (x : Fin 512) (i : Pk) (s : State) : Host.Outcome State Fault Refusal :=
  .next <| s.peken x i { d := .s, a := .s, b := .s, c := .s, flags := 1, engine := true } fun s c => s.movIssue x c i (movEntry c i 5 [])

/-! Accesses of a mover. -/

/-- The failure of an access of `n` bytes inside one line: fault code and MOVER sub-cause (R203, R210, R213). -/
def State.movFault (s : State) (x addr n align : Nat) (write : Bool) : Option (Nat × Nat) :=
  match s.accessFault x .mover addr n align write with
  | some c => some (c, 0)
  | none => if s.accGone x addr then some (0x0B, 1) else none

/-- Near or pooled memory, where MVA and MCAS work (R203). -/
def State.isSliceSpace (s : State) (x addr : Nat) : Bool :=
  match s.locate x addr with
  | .near _ => true
  | .pool _ => true
  | _ => false

/-- The memory byte behind an address, as one number for all memories; none where nothing is held. -/
def State.physKey (s : State) (x addr : Nat) : Option Nat :=
  let pl (p : Place) : Option Nat := match p with | .dram y a => some (2 ^ 60 + skey y a) | _ => none
  match s.locate x addr with
  | .store y o => some (stoKey y o)
  | .spare y o => some (stoKey y o)
  | .near o => pl (s.nearOf x o)
  | .pool o => pl (s.poolOf x o)
  | .hamTen o => match s.coreJob x with | some j => (s.apAddr j.tn o).map (2 ^ 61 + ·) | none => none
  | .hamPart a => some (2 ^ 61 + a)
  | .unmapped => none

/-- A piece of a copy, inside one line of the destination: the number of its element, source (none for zeros), destination, length. -/
structure Piece where
  el : Nat
  src : Option Nat
  dst : Nat
  len : Nat
deriving DecidableEq, Repr

/-- 64-bit address arithmetic. -/
def addr64 (i : Int) : Nat := unsgn 64 i

/-- The pieces of element `el`: `n` bytes from `src` to `dst`, cut at the lines of the destination. -/
def pieces (el : Nat) (src : Option Nat) (dst n : Nat) : List Piece :=
  let d := dst % 2 ^ 64
  (segs 64 d n).map fun sg => ⟨el, src.map fun a => (a + (sg.1 - d)) % 2 ^ 64, sg.1, sg.2⟩

/-- The elements of an MVS in nested order (R204): source, destination. -/
def mvsElems (d : List Byte) : List (Nat × Nat) :=
  (List.range (dNum d 0x2A 2)).flatMap fun (k : Nat) => (List.range (dNum d 0x28 2)).flatMap fun (j : Nat) => (List.range (dNum d 0x14 4)).map fun (i : Nat) =>
    (addr64 (((dNum d 0 8 : Nat) : Int) + (i : Int) * dInt d 0x18 8 + (j : Int) * dInt d 0x30 4 + (k : Int) * dInt d 0x38 4),
     addr64 (((dNum d 8 8 : Nat) : Int) + (i : Int) * dInt d 0x20 8 + (j : Int) * dInt d 0x34 4 + (k : Int) * dInt d 0x3C 4))

/-- The result of a mover operation. -/
inductive MovEnd where
  | ok
  | fault (code sub addr : Nat)
  | poison (addr : Nat)
deriving DecidableEq, Repr

/-- Index i of an indexed operation: `none` where it is skipped, or how reading it ends the operation. -/
def State.movIndex (s : State) (x : Nat) (d : List Byte) (i : Nat) : Except MovEnd (Option Nat) :=
  let n := if dNum d 0x28 1 = 0 then 4 else 8
  let a := (dNum d 0x10 8 + n * i) % 2 ^ 64
  let inStores := match s.locate x a with | .store _ _ => true | .spare _ _ => true | _ => false
  if !inStores then .error (.fault 0x04 0 a)
  else match s.movFault x a n n false with
    | some f => .error (.fault f.1 f.2 a)
    | none =>
      let r := s.memRead x a n
      if r.2.1 then .error (.poison a)
      else
        let v := leNat r.1
        let fl := dNum d 0x2A 2
        if bitOf fl 0 && v == 2 ^ (8 * n) - 1 then .ok none
        else if bitOf fl 1 && decide (dNum d 0x2C 4 ≤ v) then .error (.fault 0x0B 2 a)
        else .ok (some v)

/-- The table address of an index. -/
def tableAddr (d : List Byte) (v : Nat) : Nat := (dNum d 0 8 + v * dNum d 0x20 8) % 2 ^ 64
/-- The dense address of element i. -/
def denseAddr (d : List Byte) (i : Nat) : Nat := (dNum d 8 8 + i * dNum d 0x1C 4) % 2 ^ 64

/-- The element numbers and table addresses of an indexed operation up to its first failure, how many indices were skipped, and that failure. -/
def State.movIndices (s : State) (x : Nat) (d : List Byte) : List (Nat × Option Nat) × MovEnd :=
  (List.range (dNum d 0x18 4)).foldl (fun acc i =>
    match acc.2 with
    | .ok =>
      match s.movIndex x d i with
      | .ok v => (acc.1 ++ [(i, v.map (tableAddr d))], .ok)
      | .error e => (acc.1, e)
    | _ => acc) ([], .ok)

/-- The copies that an MVL, MVS, MVG or MVT asks for, and how reading its indices ended. -/
def State.movPieces (s : State) (x : Nat) (o : MovOp) : List Piece × MovEnd :=
  let elem := dNum o.desc 0x1C 4
  match o.kind with
  | 0 => (pieces 0 (some o.sa) o.sd o.sb, .ok)
  | 1 => ((mvsElems o.desc).zipIdx.flatMap fun e => pieces e.2 (some e.1.1) e.1.2 (dNum o.desc 0x10 4), .ok)
  | 2 =>
    let r := s.movIndices x o.desc
    (r.1.flatMap fun e => pieces e.1 e.2 (denseAddr o.desc e.1) elem, r.2)
  | _ =>
    let r := s.movIndices x o.desc
    (r.1.flatMap fun e => match e.2 with | some t => pieces e.1 (some (denseAddr o.desc e.1)) t elem | none => [], r.2)

/-- The failure of reading `n` bytes, line by line, and where. -/
def State.readFault (s : State) (x a n : Nat) : Option (Nat × Nat × Nat) :=
  (segs 64 a n).findSome? fun sg => (s.movFault x sg.1 sg.2 1 false).map fun f => (f.1, f.2, sg.1)

/-- Read bytes that may cross lines: data and poison. -/
def State.memReadX (s : State) (x a n : Nat) : List Byte × Bool :=
  (segs 64 a n).foldl (fun acc sg => let r := s.memRead x sg.1 sg.2; (acc.1 ++ r.1, acc.2 || r.2.1)) ([], false)

/-- The counts of such a read. -/
def State.readCount (s : State) (x a n : Nat) : State := s.each (segs 64 a n) fun sg s => (s.memRead x sg.1 sg.2).2.2

/-- The failure of a piece. -/
def State.pieceFault (s : State) (x : Nat) (p : Piece) : Option (Nat × Nat × Nat) :=
  match p.src.bind fun a => s.readFault x a p.len with
  | some f => some f
  | none => (s.movFault x p.dst p.len 1 true).map fun f => (f.1, f.2, p.dst)

/-- MOV_BYTES counts bytes written. -/
def State.movBytes (s : State) (x n : Nat) : State :=
  s.setFld64 (P.mov x) F.MOV_BYTES_LO_bytes F.MOV_BYTES_HI_bytes (s.fld64 (P.mov x) F.MOV_BYTES_LO_bytes F.MOV_BYTES_HI_bytes + n)

/-- What an operation is and reads: its fields, its descriptor, the physical ranges of its sources, and their bytes. The undefined bytes it writes are functions of these (07 R183). -/
structure MovIn where
  ops : List Nat
  desc : List Byte
  srcs : List (Nat × Nat)
  data : List Byte
deriving DecidableEq, Repr

/-- The inputs of an operation whose sources are `rs`, as (address, length). -/
def State.movIn (s : State) (x : Nat) (o : MovOp) (rs : List (Nat × Nat)) : MovIn :=
  ⟨[o.kind, o.sd, o.sa, o.sb, o.sc, o.flags], o.desc, rs.flatMap fun r => (segs 64 r.1 r.2).filterMap fun sg => (s.physKey x sg.1).map (·, sg.2),
   rs.flatMap fun r => (s.memReadX x r.1 r.2).1⟩

/-- A byte of memory is one of the source bytes. -/
def MovIn.reads (m : MovIn) (k : Option Nat) : Bool :=
  match k with
  | some k => m.srcs.any fun r => decide (r.1 ≤ k) && decide (k < r.1 + r.2)
  | none => false

/-- The bytes an element stores at `a`: a destination byte that is also a source byte is undefined (R203); an aligned dword that an earlier element wrote keeps its value or takes the new one (R206). `k0` gives the memory byte behind an address, `written` the bytes already written. -/
def MovIn.store (m : MovIn) (k0 : Nat → Option Nat) (written : Tab Bool) (el a : Nat) (old new : List Byte) : List Byte :=
  new.zipIdx.map fun e =>
    let k := k0 (a + e.2)
    let was := old.getD e.2 0
    if m.reads k then Config.moverByte m.ops m.desc m.data (a + e.2) was
    else if (match k with | some k => Tab.get bit0 written k | none => false) && Config.moverKeep m.ops m.desc m.data el ((a + e.2) / 4) then was
    else e.1

/-- Perform one piece; the sources are read as they stood in `s0`. -/
def State.doPiece (s0 : State) (x : Nat) (m : MovIn) (acc : State × Tab Bool) (p : Piece) : State × Tab Bool :=
  let s := acc.1
  let r : List Byte × Bool := match p.src with
    | some a => s0.memReadX x a p.len
    | none => (List.replicate p.len 0, false)
  let counted := match p.src with | some a => s.readCount x a p.len | none => s
  let bs := m.store (s0.physKey x) acc.2 p.el p.dst (s.memRead x p.dst p.len).1 r.1
  let w := (List.range p.len).foldl (fun t i => match s0.physKey x (p.dst + i) with | some k => Tab.set bit0 t k true | none => t) acc.2
  ((counted.memWrite x p.dst bs r.2).movBytes x p.len, w)

/-- The source ranges of pieces. -/
def Piece.source (p : Piece) : List (Nat × Nat) := match p.src with | some a => [(a, p.len)] | none => []

/-- Copy every piece that `take` chooses by its destination line. -/
def State.doPieces (s : State) (x : Nat) (o : MovOp) (ps : List Piece) (take : Nat → Bool) : State :=
  ((ps.filter fun p => take (p.dst / 64)).foldl (fun acc p => s.doPiece x (s.movIn x o (ps.flatMap Piece.source)) acc p) (s, [])).1

/-- A failed operation has no defined effect on its destinations (07 R189): every destination byte it could reach is free. -/
def State.scramble (s : State) (x : Nat) (ps : List Piece) : State :=
  s.each (ps.filter fun p => (s.movFault x p.dst p.len 1 true).isNone) fun p s =>
    (s.memWrite x p.dst ((List.range p.len).map (Config.freeByte s.fresh)) false).tick

/-! MVA and MCAS (R207, R214). -/

/-- The operation of an MVA on a word. -/
def mvaOp (op : Nat) (old new : Nat) : Nat :=
  match op with
  | 0 => (old + new) % 2 ^ 32
  | 1 => (f32Add 0 (BitVec.ofNat 32 old) (BitVec.ofNat 32 new)).1.toNat
  | 2 => (old + new) % 2 ^ 64
  | _ => (f32Max 0 (BitVec.ofNat 32 old) (BitVec.ofNat 32 new)).1.toNat

/-- The word updates of an MVA: table word and dense word. -/
def mvaWords (d : List Byte) (es : List (Nat × Option Nat)) : List (Nat × Nat) :=
  let w := if dNum d 0x29 1 = 2 then 8 else 4
  es.flatMap fun e => match e.2 with
    | some t => (List.range (dNum d 0x1C 4 / w)).map fun k => ((t + w * k) % 2 ^ 64, (denseAddr d e.1 + w * k) % 2 ^ 64)
    | none => []

/-- The failure of one word of an MVA. -/
def State.mvaFault (s : State) (x w : Nat) (u : Nat × Nat) : Option (Nat × Nat × Nat) :=
  if !s.isSliceSpace x u.1 then some (0x04, 0, u.1)
  else match s.movFault x u.1 w w true with
    | some f => some (f.1, f.2, u.1)
    | none => s.readFault x u.2 w

/-- One atomic update: a poisoned target keeps its word; a poisoned addend poisons the line; a byte that the dense side covers is undefined (R203). -/
def State.mvaWord (s : State) (x op : Nat) (m : MovIn) (u : Nat × Nat) : State :=
  let w := if op = 2 then 8 else 4
  let old := s.memRead x u.1 w
  let add := s.memReadX x u.2 w
  if old.2.1 then s
  else ((old.2.2.memWrite x u.1 (m.store (s.physKey x) [] 0 u.1 old.1 (leBytes w (mvaOp op (leNat old.1) (leNat add.1)))) add.2)).movBytes x w

/-- Order a list by free keys: the order in which concurrent updates arrive (R206, R207). -/
def freeOrder {α : Type} (seed : Nat) (l : List α) : List α :=
  ((l.zipIdx.map fun e => (Config.freeNat (seed + e.2), e.1)).mergeSort fun a b => decide (a.1 ≤ b.1)).map (·.2)

/-- Advance the free counter by n. -/
def State.ticks (s : State) (n : Nat) : State := { s with fresh := s.fresh + n }

/-- Skipped indices. -/
def State.movSkipped (s : State) (x n : Nat) : State := s.satFld (P.mov x) F.MOV_SKIPPED_count n

/-- The word updates of an MVA up to the failure of reading its indices. -/
def State.runMva (s : State) (x : Nat) (o : MovOp) (take : Nat → Bool) : State × MovEnd :=
  let d := o.desc
  let r := s.movIndices x d
  let op := dNum d 0x29 1
  let us := mvaWords d r.1
  let w := if op = 2 then 8 else 4
  let fail : MovEnd := match us.findSome? (s.mvaFault x w) with
    | some f => .fault f.1 f.2.1 f.2.2
    | none => r.2
  let good := (us.filter fun u => (s.mvaFault x w u).isNone).zipIdx
  let todo := (if fail = .ok then good.filter fun u => take u.2 else good.filter fun u => Config.freeNat (s.fresh + u.2) % 2 == 1).map (·.1)
  let s1 := s.ticks good.length
  (((freeOrder s1.fresh todo).foldl (fun t u => t.mvaWord x op (s.movIn x o (us.map fun u => (u.2, w))) u) (s1.ticks todo.length)).movSkipped x (r.1.filter (·.2.isNone)).length, fail)

/-- MCAS: the old value goes to the own store at sd; a poisoned target stays, and its poison is written to sd. -/
def State.runMcas (s : State) (x : Nat) (o : MovOp) : State × MovEnd :=
  if !s.isSliceSpace x o.sa then (s, .fault 0x04 0 o.sa)
  else match s.movFault x o.sa 8 8 true with
    | some f => (s, .fault f.1 f.2 o.sa)
    | none =>
      if decide (storeTop ≤ o.sd) then (s, .fault 0x04 0 o.sd)
      else match s.movFault x o.sd 8 8 true with
        | some f => (s, .fault f.1 f.2 o.sd)
        | none =>
          let old := s.memRead x o.sa 8
          let s1 := if !old.2.1 && leNat old.1 == o.sb then (old.2.2.memWrite x o.sa (leBytes 8 o.sc) false).movBytes x 8 else old.2.2
          ((s1.memWrite x o.sd old.1 old.2.1).movBytes x 8, .ok)

/-- Run a mover operation; `take` chooses what a cut operation still performs: lines of a copy's destination, words of an MVA. -/
def State.runMov (s : State) (x : Nat) (o : MovOp) (take : Nat → Bool) : State × MovEnd :=
  match o.kind with
  | 4 => s.runMva x o take
  | 5 => if take 0 then s.runMcas x o else (s, .ok)
  | _ =>
    let r := s.movPieces x o
    match r.1.findSome? (s.pieceFault x) with
    | some f => (s.scramble x r.1, .fault f.1 f.2.1 f.2.2)
    | none =>
      match r.2 with
      | .ok =>
        let s1 := s.doPieces x o r.1 take
        (if 2 ≤ o.kind then s1.movSkipped x ((s.movIndices x o.desc).1.filter (·.2.isNone)).length else s1, .ok)
      | e => (s.scramble x r.1, e)

/-- Operation o of core x reaches slice memory of tile u. -/
def State.movTouches (s : State) (x : Nat) (o : MovOp) (u : Nat) : Bool :=
  let on (a : Nat) : Bool := (s.placeOf x a).tile == some u
  let onAny (a n : Nat) : Bool := (segs 64 a n).any fun sg => on sg.1
  match o.kind with
  | 4 => (mvaWords o.desc (s.movIndices x o.desc).1).any fun w => on w.1 || onAny w.2 8
  | 5 => on o.sa
  | _ => (s.movPieces x o).1.any fun p => on p.dst || match p.src with | some a => onAny a p.len | none => false

/-- MOVER_OP_START (R206): in issue order, at most four; an ordered one only when every earlier one has completed; none to a tile whose route changes (02 R37). The requests of an operation are issued at its start. -/
def execMoverOpStart (x : Fin 512) (s : State) : Host.Outcome State Fault Refusal :=
  .next <|
    let c := s.core x
    if !s.enginesRun x || decide (4 ≤ c.movAct.length) then s
    else match c.movq with
      | [] => s
      | o :: q =>
        if bitOf o.flags 0 && !c.movAct.isEmpty then s
        else if (List.range 8).any fun u => s.routeHeld (x / 64) u && s.movTouches x o u then s
        else s.setCore x { c with movq := q, movAct := c.movAct ++ [o] }

/-- HMP page 0 counts a refused partition access (05 R118): code 0x42 with the Hamper address, and event bit 2. -/
def State.crossPartCount (s : State) (a : Nat) : State := (s.countErr (P.hmp 0) 0x42 0xFF a).event (P.hmp 0) 2

/-- A mover failure (R216; 07 R189). -/
def State.movFail (s : State) (x : Nat) (o : MovOp) (code sub addr : Nat) : State :=
  let pg := P.mov x
  let s1 := ((((s.setFld pg F.MOV_FAULT_code code).setFld pg F.MOV_FAULT_sub sub).setFld pg F.MOV_FAULT_token o.token).setFlag pg
    F.MOV_FAULT_valid true).event pg 0
  let s2 := if code = 0x06 then s1.crossPartCount (addr - 0x30000000000) else s1
  s2.coreFault x code 2 2 addr o.pc

/-- MOVER_OP_COMPLETE: operation k in progress; all its writes become visible together. -/
def execMoverOpComplete (x : Fin 512) (k : Fin 4) (s : State) : Host.Outcome State Fault Refusal :=
  .next <|
    if !s.enginesRun x then s
    else match (s.core x).movAct[k.val]? with
      | none => s
      | some o =>
        let s1 := s.setCore x { s.core x with movAct := (s.core x).movAct.eraseIdx k }
        let r := s1.runMov x o fun _ => true
        match r.2 with
        | .ok => r.1.tokenFall x o.token
        | .fault c sub a => (r.1.movFail x o c sub a).tokenFall x o.token
        | .poison a => (r.1.corePoison x 0x12 3 (s.poisonSpace x a) a).tokenFall x o.token

/-! Tile requests (05 R108). -/

/-- TILE_HAMPER_REQUEST: a request of core x at the hub end of its bundle; `boot` marks the boot ROM, which reads the firmware region. A compartment that is being freed, or that left the partition while the job ran, reads zeros and drops writes (R115). -/
def execTileHamperRequest (x : Fin 512) (boot : Bool) (addr : BitVec 28) (wr : Option (List Byte)) (len : Nat) (s : State) :
    Host.Outcome State Fault Refusal :=
  .next <|
    let a := addr.toNat
    let n := match wr with | some bs => bs.length | none => len
    let last := (a + n - 1) / 65536
    let cs := (List.range (last + 1 - a / 65536)).map (a / 65536 + ·)
    let open' (c : Nat) : Bool := s.inPart x c && !(s.comp c).clearing
    if s.fenced (x / 64) || n == 0 || decide (2 ^ 28 < a + n) then s
    else if boot then
      if wr.isNone && cs.all fun c => (s.comp c).state == 1 then s.emit (.tileData x (s.hmp.rdN a n) (s.hmp.poisoned a n)) else s
    else if cs.all fun c => s.inPart x c || s.leftJob x c then
      match wr with
      | some bs => s.each (segs 64 a n) fun sg s =>
          if open' (sg.1 / 65536) then { s with hmp := s.hmp.wr sg.1 ((bs.drop (sg.1 - a)).take sg.2) false } else s
      | none =>
        let data := (segs 64 a n).flatMap fun sg => if open' (sg.1 / 65536) then s.hmp.rdN sg.1 sg.2 else List.replicate sg.2 0
        s.emit (.tileData x data ((segs 64 a n).any fun sg => open' (sg.1 / 65536) && s.hmp.linePoison (sg.1 / 64)))
    else
      let s1 := s.crossPartCount a
      if (s.coreJob x).isSome then s1.coreFault x 0x06 2 2 (0x30000000000 + a) (s.core x).pc else s1

end Sys2Proof.Machine
end

