-- ==== Sys2Proof/Machine/Kpm.lean ====
section
/-! DEFINITION. The KV page manager (10 R245-R254, R261, R264-R267, R269, R270): pools, descriptors, the free list, operation windows, the look-aside buffers and the KPM operations. -/
namespace Sys2Proof.Machine

/-! Statuses (R254). Two more numbers end a command as a fault: pooled memory out of reach, and an offset at or above POOLCAP. -/
def kvOk : Nat := 0
def kvDup : Nat := 1
def kvStale : Nat := 2
def kvEpoch : Nat := 3
def kvEmpty : Nat := 4
def kvQuota : Nat := 5
def kvNotOwner : Nat := 6
def kvSaturated : Nat := 7
def kvUnderflow : Nat := 8
def kvNoTable : Nat := 9
def kvFormat : Nat := 10
def kvPoisoned : Nat := 11
def kvPoolOff : Nat := 12
def kvBadInput : Nat := 13
def kvDestValid : Nat := 14
def kvGone : Nat := 100
def kvUnmapped : Nat := 101

/-- Why an operation does not apply: status, the page whose descriptor read with poison, the pooled offset of a refused access. -/
structure KvErr where
  st : Nat
  quar : Option Nat := none
  off : Nat := 0
deriving DecidableEq, Repr

/-! Geometry (R244, R245). -/

/-- A pool as configured. -/
structure KvPool where
  base : Nat
  pages : Nat
  d : Nat
  frame : Nat
  scales : Nat
  frames : Nat
deriving DecidableEq, Repr

/-- x rounded up to a multiple of f. -/
def ceilTo (x f : Nat) : Nat := (x + f - 1) / f * f

/-- Head dimension by code. -/
def kvDim (c : Nat) : Nat := match c with | 0 => 64 | 1 => 128 | _ => 256

/-- The pool of partition p as its registers configure it. -/
def State.kvPool (s : State) (p : Nat) : KvPool :=
  let pg := P.kpm 1
  let b := s.fld64 pg (F.KPM_POOL_BASE_LO_base p) (F.KPM_POOL_BASE_HI_base p)
  let n := s.fld pg (F.KPM_POOL_PAGES_pages p)
  let d := kvDim (s.fld pg (F.KPM_POOL_CFG_head_dim p))
  let f := 2 ^ (10 + s.fld pg (F.KPM_POOL_CFG_frame_log2 p))
  let sc := b + ceilTo (32 * n) f
  ⟨b, n, d, f, sc, sc + ceilTo (8 * d * n) f⟩

def KvPool.desc (k : KvPool) (i : Nat) : Nat := k.base + 32 * i
def KvPool.scale (k : KvPool) (i : Nat) : Nat := k.scales + 8 * k.d * i
def KvPool.frameOf (k : KvPool) (i : Nat) : Nat := k.frames + k.frame * i

/-- Bytes per position of a page format (R243). -/
def kvBytes (fmt d : Nat) : Nat := if fmt = 2 then d / 2 else d
/-- A format fits a pool (R244). -/
def KvPool.fits (k : KvPool) (fmt : Nat) : Bool := decide (fmt < 3) && decide (128 * kvBytes fmt k.d ≤ k.frame)

/-- KPM_POOL_STS.state: 0 OFF, 1 INIT, 2 READY, 3 CFG_ERROR, 4 FAULTED, 5 RESET. -/
def State.poolState (s : State) (p : Nat) : Nat := s.fld (P.kpm 1) (F.KPM_POOL_STS_state p)

/-- A pool changes state; KPM_STS and event bit 0 follow. -/
def State.setPoolState (s : State) (p st : Nat) : State :=
  if s.poolState p = st then s
  else
    (((s.setFld (P.kpm 1) (F.KPM_POOL_STS_state p) st).setBit (P.kpm 0) F.KPM_STS_ready p (st == 2)).setBit (P.kpm 0)
      F.KPM_STS_faulted p (st == 3 || st == 4)).event (P.kpm 0) 0

/-! Free list, quarantine and ownership. -/
def State.kvFreeList (s : State) (p : Nat) : List Nat := Tab.get list0 s.kvFree p
def State.setKvFree (s : State) (p : Nat) (l : List Nat) : State :=
  let s1 := { s with kvFree := Tab.set list0 s.kvFree p l }.setFld (P.kpm 1) (F.KPM_POOL_STS_free p) l.length
  if !(s.kvFreeList p).isEmpty && l.isEmpty then s1.event (P.kpm 0) 1 else s1
def State.kvQuarList (s : State) (p : Nat) : List Nat := Tab.get list0 s.kvQuar p
def State.setKvQuar (s : State) (p : Nat) (l : List Nat) : State :=
  { s with kvQuar := Tab.set list0 s.kvQuar p l }.setFld (P.kpm 1) (F.KPM_POOL_QUAR_quarantined p) l.length
/-- Allocated pages owned by tenant n (KPM_TQ_USED). -/
def State.kvUsed (s : State) (n : Nat) : Nat := ((List.range 8).map fun p => Tab.get nat0 s.kvOwned (128 * p + n)).sum
/-- Set how many pages of pool p tenant n owns; event bit 0 of page 9 where the limit is reached. -/
def State.setOwned (s : State) (p n v : Nat) : State :=
  let was := s.kvUsed n
  let s1 := { s with kvOwned := Tab.set nat0 s.kvOwned (128 * p + n) v }
  let s2 := s1.setFld (P.ten n 9) F.KPM_TQ_USED_used (s1.kvUsed n)
  if was < s1.kvUsed n ∧ s1.kvUsed n = s1.fld (P.ten n 9) F.KPM_TQ_LIMIT_limit then s2.event (P.ten n 9) 0 else s2
def State.ownedIn (s : State) (p n : Nat) : Nat := Tab.get nat0 s.kvOwned (128 * p + n)

/-! Pooled memory, as the KV units reach it. -/

/-- Read `n` bytes at pooled offset `o` of partition p. -/
def State.pRead (s : State) (p o n : Nat) : Except KvErr (List Byte) :=
  let sg := segs 64 o n
  let pl (g : Nat × Nat) : Place := s.poolPlace p g.1
  match sg.find? fun g => pl g == .unmapped with
  | some g => .error ⟨kvUnmapped, none, g.1⟩
  | none =>
    match sg.find? fun g => s.placeGone (pl g) with
    | some g => .error ⟨kvGone, none, g.1⟩
    | none =>
      match sg.find? fun g => (s.placeRead (pl g) g.2).2 with
      | some g => .error ⟨kvPoisoned, none, g.1⟩
      | none => .ok (sg.flatMap fun g => (s.placeRead (pl g) g.2).1)

/-- Write bytes at a pooled offset. -/
def State.pWrite (s : State) (p o : Nat) (bs : List Byte) : State :=
  s.each (segs 64 o bs.length) fun g s => s.placeWrite 0 (s.poolPlace p g.1) ((bs.drop (g.1 - o)).take g.2) false

/-- The counts of a read of `n` bytes at a pooled offset. -/
def State.pCount (s : State) (p o n : Nat) : State := s.each (segs 64 o n) fun g s => s.placeCount (s.poolPlace p g.1) g.2

/-- Copy lines, poison carried (R267). -/
def State.pCopy (s : State) (p src dst n : Nat) : State :=
  s.each (segs 64 dst n) fun g s =>
    let pl := s.poolPlace p (src + (g.1 - dst))
    let r := s.placeRead pl g.2
    (s.placeCount pl g.2).placeWrite 0 (s.poolPlace p g.1) r.1 r.2

/-! Descriptors (R246). -/

/-- A descriptor's fields. -/
structure KvDesc where
  frame : Nat
  rc : Nat
  epoch : Nat
  vt : Nat
  fmt : Nat
  owner : Nat
  flags : Nat
  next : Nat
  opseq : Nat
deriving DecidableEq, Repr

def KvDesc.ofBytes (b : List Byte) : KvDesc :=
  ⟨dNum b 0 8, dNum b 8 2, dNum b 0x0A 2, dNum b 0x0C 4, dNum b 0x10 1, dNum b 0x11 1 % 128, dNum b 0x12 1, dNum b 0x14 4, dNum b 0x18 4⟩

def KvDesc.bytes (d : KvDesc) : List Byte :=
  leBytes 8 d.frame ++ leBytes 2 d.rc ++ leBytes 2 d.epoch ++ leBytes 4 d.vt ++ leBytes 1 d.fmt ++ leBytes 1 d.owner ++ leBytes 1 d.flags ++
    leBytes 1 0 ++ leBytes 4 d.next ++ leBytes 4 d.opseq ++ leBytes 4 0

def KvDesc.alloc (d : KvDesc) : Bool := bitOf d.flags 0

/-- Descriptor k of pool p. A page beyond the pool is not usable; a pool that a job has written reads as free values. -/
def State.kvDesc (s : State) (p k : Nat) : Except KvErr KvDesc :=
  if (s.kvPool p).pages ≤ k then .error ⟨kvNotOwner, none, 0⟩
  else match s.pRead p ((s.kvPool p).desc k) 32 with
    | .ok b => .ok (KvDesc.ofBytes (if Tab.get bit0 s.kvUndef p then (List.range 32).map (Config.freeByte s.fresh) else b))
    | .error e => .error { e with quar := if e.st = kvPoisoned then some k else none }

def State.setKvDesc (s : State) (p k : Nat) (d : KvDesc) : State := s.pWrite p ((s.kvPool p).desc k) d.bytes

/-- A page is usable by tenant n (R246). -/
def State.kvUsable (s : State) (p k n : Nat) (d : KvDesc) : Bool :=
  d.alloc && !bitOf d.flags 1 && !(s.kvQuarList p).contains k && d.owner == n && d.epoch == s.epoch n

/-- The page named by an operation: usable by the tenant, else a status; a free page has its own. -/
def State.kvNamed (s : State) (p k n free : Nat) : Except KvErr KvDesc :=
  match s.kvDesc p k with
  | .error e => .error e
  | .ok d => if !d.alloc then .error ⟨free, none, 0⟩ else if s.kvUsable p k n d then .ok d else .error ⟨kvNotOwner, none, 0⟩

/-- Quarantine page k (R267): it is never allocated again before the next initialisation. -/
def State.kvQuarantine (s : State) (p k : Nat) : State :=
  if (s.kvQuarList p).contains k then s
  else
    let s1 := s.setKvQuar p (s.kvQuarList p ++ [k])
    let s2 := s1.pWrite p ((s.kvPool p).desc k + 0x12) [if (s.kvFreeList p).contains k then 2 else 3]
    if (s.kvFreeList p).contains k then s2.setKvFree p ((s.kvFreeList p).filter (· != k)) else s2

/-- The error's effect on the state. -/
def State.kvFailed (s : State) (p : Nat) (e : KvErr) : State :=
  match e.quar with
  | some k => s.kvQuarantine p k
  | none => s

/-- Allocate the head of the free list for tenant n (R251). -/
def State.kvTake (s : State) (p n fmt v : Nat) : Nat × State :=
  match s.kvFreeList p with
  | [] => (0, s)
  | k :: r =>
    let d : KvDesc := ⟨(s.kvPool p).frameOf k, 1, s.epoch n, 0, fmt, n, 1, 0, v⟩
    (k, ((s.setKvDesc p k d).setKvFree p r).setOwned p n (s.ownedIn p n + 1))

/-- Set a refcount and the operation that set it; at 0 the page returns to the head of the free list (R251). -/
def State.kvSetRc (s : State) (p k rc v : Nat) (d : KvDesc) : State :=
  if rc = 0 then
    let quar := (s.kvQuarList p).contains k
    let l := s.kvFreeList p
    let nxt := if quar then 0 else match l with | h :: _ => h | [] => (Config.freeWord s.fresh).toNat
    let s1 := s.tick.setKvDesc p k { d with rc := 0, flags := d.flags - d.flags % 2, next := nxt, opseq := v }
    let s2 := s1.setOwned p d.owner (s1.ownedIn p d.owner - 1)
    if quar then s2 else s2.setKvFree p (k :: l)
  else s.setKvDesc p k { d with rc := rc, opseq := v }

/-! Block tables (R247). -/

/-- Directory entry e of a root: the level-2 table, if valid. -/
def State.kvDir (s : State) (p root e : Nat) : Except KvErr (Option Nat) :=
  match s.pRead p (root + 8 * e) 8 with
  | .error x => .error x
  | .ok b => .ok (if bitOf (leNat b) 0 then some (leNat b % 2 ^ 48 / 256 * 256) else none)

/-- Level-2 entry of page index i: the page number, if valid. -/
def State.kvL2 (s : State) (p l2 i : Nat) : Except KvErr (Option Nat) :=
  match s.pRead p (l2 + 4 * (i % 64)) 4 with
  | .error x => .error x
  | .ok b => .ok (if bitOf (leNat b) 31 then some (leNat b % 2 ^ 22) else none)

/-! Look-aside buffers (R248, R249). -/
def lab0 : Nat → List LabEnt := fun _ => []
def State.lab (s : State) (cl : Nat) : List LabEnt := Tab.get lab0 s.labs cl
def State.setLab (s : State) (cl : Nat) (l : List LabEnt) : State :=
  { s with labs := Tab.set lab0 s.labs cl l }.setFld (P.kvw cl) F.KVW_STS_lab_valid l.length

/-- Remove entries from one walker; KVW_INVAL counts them. -/
def State.labRemove (s : State) (cl : Nat) (p : LabEnt → Bool) : State :=
  (s.setLab cl ((s.lab cl).filter fun e => !p e)).addFld (P.kvw cl) F.KVW_INVAL_count ((s.lab cl).filter p).length

/-- Remove entries from every walker of partition p. -/
def State.labRemovePart (s : State) (p : Nat) (f : LabEnt → Bool) : State := s.each (s.partClusters p) fun cl s => s.labRemove cl f

/-- A hit, as the requesting tenant may use it. -/
def State.labFind (s : State) (cl root i n : Nat) : Option LabEnt :=
  (s.lab cl).find? fun e => e.root == root && e.idx == i && e.owner == n && e.epoch == s.epoch n

/-- The entry becomes the most recently used. -/
def State.labTouch (s : State) (cl : Nat) (e : LabEnt) : State := s.setLab cl (e :: (s.lab cl).filter (· != e))

/-- Fill an entry, replacing the least recently used. -/
def State.labFill (s : State) (cl : Nat) (e : LabEnt) : State :=
  s.setLab cl ((e :: (s.lab cl).filter fun x => !(x.root == e.root && x.idx == e.idx)).take 64)

/-- Write a level-2 entry; every walker of the partition loses that entry (R249). -/
def State.kvWriteL2 (s : State) (p root i l2 v : Nat) : State :=
  (s.pWrite p (l2 + 4 * (i % 64)) (leBytes 4 v)).labRemovePart p fun e => e.root == root && e.idx == i

/-! Operation windows (R252). -/
def kvwin0 : Nat → KvWin := fun _ => KvWin.reset
def State.kvWin (s : State) (n : Nat) : KvWin := Tab.get kvwin0 s.kvWins n
def State.setKvWin (s : State) (n : Nat) (w : KvWin) : State :=
  { s with kvWins := Tab.set kvwin0 s.kvWins n w }.setFld (P.ten n 9) F.KPM_TQ_OPSEQ_h w.h

/-- How far v lies above H, modulo 2^32. -/
def seqDist (v h : Nat) : Nat := (v + 2 ^ 32 - h % 2 ^ 32) % 2 ^ 32
/-- v is above H. -/
def seqAbove (v h : Nat) : Bool := seqDist v h != 0 && decide (seqDist v h < 2 ^ 31)

/-- Record an applied operation. -/
def KvWin.record (w : KvWin) (v r : Nat) : KvWin :=
  let h := if seqAbove v w.h then v else w.h
  ⟨h, (v, r) :: w.done.filter fun e => e.1 != v && decide (seqDist h e.1 < 64)⟩

/-- What the KPM answers before an operation is looked at: EPOCH, POOL_OFF, DUP with its result, STALE. -/
def State.kvGate (s : State) (p n ep v : Nat) (windowed : Bool) : Option (Nat × Nat) :=
  if ep ≠ s.epoch n then some (kvEpoch, 0)
  else if s.poolState p ≠ 2 then some (kvPoolOff, 0)
  else if !windowed then none
  else
    let w := s.kvWin n
    if seqAbove v w.h then none
    else if seqDist w.h v < 64 then (w.done.find? fun e => e.1 == v).map fun e => (kvDup, e.2)
    else some (kvStale, 0)

/-- KPM_TQ_CNT. -/
def State.kvCount (s : State) (n st : Nat) : State :=
  if st = kvDup then s.satFld (P.ten n 9) F.KPM_TQ_CNT_dup 1
  else if st = kvStale ∨ st = kvEpoch then s.satFld (P.ten n 9) F.KPM_TQ_CNT_stale 1
  else s

/-- Run a KPM operation: status, result and state. Only an applied operation is recorded. -/
def State.kpmOp (s : State) (p n ep v : Nat) (windowed : Bool) (op : State → Except KvErr (State × Nat)) : Except KvErr (Nat × Nat × State) :=
  match s.kvGate p n ep v windowed with
  | some g => .ok (g.1, g.2, s.kvCount n g.1)
  | none =>
    match op s with
    | .error e => .error e
    | .ok r => .ok (kvOk, r.2, if windowed then r.1.setKvWin n ((r.1.kvWin n).record v r.2) else r.1)

/-! The operations (R253). -/

/-- ALLOC. The checks run FORMAT, POOL_EMPTY, QUOTA, then the head descriptor's poison. -/
def State.kvAlloc (s : State) (p n fmt v : Nat) : Except KvErr (State × Nat) :=
  if !(s.kvPool p).fits fmt then .error ⟨kvFormat, none, 0⟩
  else match s.kvFreeList p with
    | [] => .error ⟨kvEmpty, none, 0⟩
    | k :: _ =>
      if s.fld (P.ten n 9) F.KPM_TQ_LIMIT_limit ≤ s.kvUsed n then .error ⟨kvQuota, none, 0⟩
      else match s.kvDesc p k with
        | .error e => .error e
        | .ok _ => let r := s.kvTake p n fmt v; .ok (r.2, r.1)

/-- INCREF and DECREF. -/
def State.kvRef (s : State) (p n k v : Nat) (inc : Bool) : Except KvErr (State × Nat) :=
  match s.kvNamed p k n kvUnderflow with
  | .error e => .error e
  | .ok d =>
    if inc then (if 65535 ≤ d.rc then .error ⟨kvSaturated, none, 0⟩ else .ok (s.kvSetRc p k (d.rc + 1) v d, d.rc + 1))
    else if d.rc = 0 then .error ⟨kvUnderflow, none, 0⟩
    else .ok (s.kvSetRc p k (d.rc - 1) v d, d.rc - 1)

/-- The valid entries of a range under a root: index, level-2 table, page. An invalid directory entry holds no valid entry. -/
def State.kvWalk (s : State) (p root first count : Nat) : Except KvErr (List (Nat × Nat × Nat)) :=
  (List.range count).foldl (fun acc j =>
    match acc with
    | .error e => .error e
    | .ok l =>
      match s.kvDir p root ((first + j) / 64) with
      | .error e => .error e
      | .ok none => .ok l
      | .ok (some l2) =>
        match s.kvL2 p l2 (first + j) with
        | .error e => .error e
        | .ok none => .ok l
        | .ok (some k) => .ok (l ++ [(first + j, l2, k)])) (.ok [])

/-- Change the refcounts of a list of pages by their number of occurrences, if `ok` of count and refcount holds for each. -/
def State.kvCounts (s : State) (n p : Nat) (ks : List Nat) (bad : Nat) (ok : Nat → Nat → Bool) : Except KvErr Unit :=
  ks.eraseDups.foldl (fun acc k =>
    match acc with
    | .error e => .error e
    | .ok _ =>
      match s.kvNamed p k n kvNotOwner with
      | .error e => .error e
      | .ok d => if ok (ks.count k) d.rc then .ok () else .error ⟨bad, none, 0⟩) (.ok ())

/-- The destination tables of a FORK: each source entry with the level-2 table under root2. -/
def State.kvDests (s : State) (p root2 : Nat) (src : List (Nat × Nat × Nat)) : Except KvErr (List (Nat × Nat × Nat)) :=
  src.foldl (fun acc e =>
    match acc with
    | .error x => .error x
    | .ok l =>
      match s.kvDir p root2 (e.1 / 64) with
      | .error x => .error x
      | .ok none => .error ⟨kvNoTable, none, 0⟩
      | .ok (some l2) =>
        match s.kvL2 p l2 e.1 with
        | .error x => .error x
        | .ok (some _) => .error ⟨kvDestValid, none, 0⟩
        | .ok none => .ok (l ++ [(e.1, l2, e.2.2)])) (.ok [])

/-- Add to or take from the refcount of each listed page. -/
def State.kvBump (s : State) (p : Nat) (ks : List Nat) (v : Nat) (up : Bool) : State :=
  s.each ks.eraseDups fun k s =>
    match s.kvDesc p k with
    | .ok d => s.kvSetRc p k (if up then d.rc + ks.count k else d.rc - ks.count k) v d
    | .error _ => s

/-- FORK. -/
def State.kvFork (s : State) (p n root root2 first count v : Nat) : Except KvErr (State × Nat) :=
  match s.kvWalk p root first count with
  | .error e => .error e
  | .ok src =>
    match s.kvDests p root2 src with
    | .error e => .error e
    | .ok dst =>
      let ks := src.map (·.2.2)
      match s.kvCounts n p ks kvSaturated fun c rc => decide (rc + c ≤ 65535) with
      | .error e => .error e
      | .ok _ => .ok ((s.each dst fun e s => s.kvWriteL2 p root2 e.1 e.2.1 (2 ^ 31 + e.2.2)).kvBump p ks v true, src.length)

/-- RELEASE. -/
def State.kvRelease (s : State) (p n root first count v : Nat) : Except KvErr (State × Nat) :=
  match s.kvWalk p root first count with
  | .error e => .error e
  | .ok src =>
    let ks := src.map (·.2.2)
    match s.kvCounts n p ks kvUnderflow fun c rc => decide (c ≤ rc) with
    | .error e => .error e
    | .ok _ => .ok ((s.each src fun e s => s.kvWriteL2 p root e.1 e.2.1 0).kvBump p ks v false, src.length)

/-! Pools (R265, R269). -/

/-- The checks of R269 on a pool that is being enabled. -/
def State.poolOk (s : State) (p : Nat) : Bool :=
  let k := s.kvPool p
  let fl := s.fld (P.kpm 1) (F.KPM_POOL_CFG_frame_log2 p)
  s.fld (P.kpm 1) (F.KPM_POOL_CFG_head_dim p) != 3 && decide (2 ≤ fl) && decide (fl ≤ 5) && decide (1 ≤ k.pages) && k.base % k.frame == 0 &&
  decide (64 * k.d ≤ k.frame) && (s.ptState p == 2 || s.ptState p == 3) && decide (k.frames + k.frame * k.pages ≤ (s.pm p).poolcap)

/-- The pool holds nothing any more: no page is owned, free or quarantined. -/
def State.poolEmpty (s : State) (p : Nat) : State :=
  let s1 := s.each (List.range 128) fun n s => if s.ownedIn p n = 0 then s else s.setOwned p n 0
  let s2 := { s1 with kvFree := Tab.set list0 s1.kvFree p [], kvUndef := Tab.set bit0 s1.kvUndef p false }
  (s2.setFld (P.kpm 1) (F.KPM_POOL_STS_free p) 0).setKvQuar p []

/-- Start initialisation, or CFG_ERROR. -/
def State.poolStart (s : State) (p : Nat) : State := (s.poolEmpty p).setPoolState p (if s.poolOk p then 1 else 3)

/-- Every LAB entry of the partition's walkers goes (R249). -/
def State.labFlushPart (s : State) (p : Nat) : State := s.labRemovePart p fun _ => true

/-- A write of KPM_POOL_CFG_p (R269, R270): the other fields keep their values while the pool is not OFF. -/
def State.poolCfgWrite (s : State) (rq : Requester) (p : Nat) (v : Word) : State :=
  let pg := P.kpm 1
  let hd := bits v.toNat 1 2
  let fl := bits v.toNat 4 3
  let live := s.poolState p != 0
  let same := s.fld pg (F.KPM_POOL_CFG_head_dim p) == hd && s.fld pg (F.KPM_POOL_CFG_frame_log2 p) == fl
  let s1 := if live then (if same then s else s.countErr pg 0x40 (rqCode rq) (accessAddr rq pg (0x040 + 32 * p)))
    else (s.setFld pg (F.KPM_POOL_CFG_head_dim p) hd).setFld pg (F.KPM_POOL_CFG_frame_log2 p) fl
  let was := s.flag pg (F.KPM_POOL_CFG_enable p)
  let s2 := s1.setFlag pg (F.KPM_POOL_CFG_enable p) (bitOf v.toNat 0)
  if bitOf v.toNat 0 then (if !was && s.poolState p == 0 then s2.poolStart p else s2)
  else if was && s.poolState p != 4 && s.poolState p != 5 then ((s2.poolEmpty p).setPoolState p 0).labFlushPart p
  else s2

/-- POOL_ENABLE: a write of KPM_POOL_CFG_p with enable 1. -/
def execPoolEnable (rq : Requester) (p : Fin 8) (v : Word) (s : State) : Host.Outcome State Fault Refusal :=
  .next <| if bitOf v.toNat 0 then s.privWrite rq (P.kpm 1) (0x040 + 32 * p) fun s => s.poolCfgWrite rq p v else s

/-- POOL_DISABLE: a write of KPM_POOL_CFG_p with enable 0. -/
def execPoolDisable (rq : Requester) (p : Fin 8) (v : Word) (s : State) : Host.Outcome State Fault Refusal :=
  .next <| if bitOf v.toNat 0 then s else s.privWrite rq (P.kpm 1) (0x040 + 32 * p) fun s => s.poolCfgWrite rq p v

/-- Write the free descriptors of a pool along its free list; the last one's next is a free value. -/
def State.poolWrite (s : State) (p : Nat) : List Nat → State
  | [] => s
  | k :: r =>
    let nxt := match r with | h :: _ => h | [] => (Config.freeWord s.fresh).toNat
    State.poolWrite (s.setKvDesc p k ⟨(s.kvPool p).frameOf k, 0, 0, 0, 0, 0, 0, nxt, 0⟩) p r

/-- POOL_INIT_DONE: every descriptor is rewritten free, in a free order of the list (the spec states none), and the pool is READY. -/
def execPoolInitDone (p : Fin 8) (s : State) : Host.Outcome State Fault Refusal :=
  .next <|
    if s.poolState p ≠ 1 then s
    else
      let l := freeOrder s.fresh (List.range (s.kvPool p).pages)
      ((((s.ticks l.length).poolWrite p l).tick).setKvFree p l).setPoolState p 2

/-- The pages of pool p owned by tenant n under an older epoch. -/
def State.kvStalePages (s : State) (p n : Nat) : List (Nat × KvDesc) :=
  (List.range (s.kvPool p).pages).filterMap fun k =>
    match s.kvDesc p k with
    | .ok d => if d.alloc && d.owner == n && d.epoch != s.epoch n then some (k, d) else none
    | .error _ => none

/-- KPM_RECLAIM_SWEEP (R264): the sweep of tenant n runs to its end. -/
def execKpmReclaimSweep (n : Fin 128) (s : State) : Host.Outcome State Fault Refusal :=
  .next <|
    if !s.flag (P.ten n 9) F.KPM_TQ_RECLAIM_sweeping then s
    else
      let s1 := s.each ((List.range 8).filter fun p => s.poolState p == 2) fun p s =>
        s.each (s.kvStalePages p n) fun e s => s.kvSetRc p e.1 0 e.2.opseq e.2
      ((s1.setFld (P.ten n 9) F.KPM_TQ_RECLAIM_pending 0).setFlag (P.ten n 9) F.KPM_TQ_RECLAIM_sweeping false).event (P.ten n 9) 1

/-- KVW_FLUSH. -/
def execKvwFlush (rq : Requester) (cl : Fin 64) (s : State) : Host.Outcome State Fault Refusal :=
  .next <| s.tileWrite rq (P.kvw cl) 0x050 (.walkerFlush cl) fun s => s.labRemove cl fun _ => true

/-! The pool side of resets (R264-R266). -/

/-- The absorb point of a tenant reset: empty window, no LAB entry, and a sweep of the old-epoch pages. -/
def State.kvTenantReset (s : State) (n : Nat) (sweep : Bool) : State :=
  let s1 := s.setKvWin n KvWin.reset
  let s2 := s1.each (List.range 64) fun cl s => s.labRemove cl fun e => e.owner == n
  if sweep then
    (s2.setFld (P.ten n 9) F.KPM_TQ_RECLAIM_pending (s2.kvUsed n)).setFlag (P.ten n 9) F.KPM_TQ_RECLAIM_sweeping true
  else s2

/-- The absorb point of a partition reset: the pool is in RESET and every walker is flushed. -/
def State.kvPartReset (s : State) (p : Nat) : State :=
  let s1 := if s.poolState p = 0 ∨ s.poolState p = 3 then s else s.setPoolState p 5
  s1.labFlushPart p

/-- After the rebuild of a partition reset: initialise again, or OFF. -/
def State.kvPartRestore (s : State) (p : Nat) : State :=
  if s.poolState p ≠ 5 then s
  else if s.flag (P.kpm 1) (F.KPM_POOL_CFG_enable p) then s.poolStart p
  else (s.poolEmpty p).setPoolState p 0

/-- A partition fault moves its pool to FAULTED. -/
def State.kvFault (s : State) (p : Nat) : State := if s.poolState p = 0 ∨ s.poolState p = 3 then s else s.setPoolState p 4

end Sys2Proof.Machine
end

