-- ==== Sys2Proof/Machine/Kv.lean ====
section
/-! DEFINITION. KVOP and KVAPP (10 R252-R255, R259-R261, R267, R268): issue of the port commands, translation, the operations of a core, appends with allocation and copy on write, quantisation. -/
namespace Sys2Proof.Machine

/-! Issue (R253-R257, R268). -/

/-- `n` bytes at an offset of the A-store. -/
def aRange (off n align : Nat) : Bool := decide (off + n ≤ 0x40000) && off % align == 0

/-- Bytes `lo` to `hi - 1` of a block are 0. -/
def zeroBytes (b : List Byte) (lo hi : Nat) : Bool := ((b.drop lo).take (hi - lo)).all (· == 0)

/-- A root is 512-byte aligned (R247). -/
def rootOk (r : Nat) : Bool := r % 512 == 0

/-- Layout rules of a KVOP block (R253). -/
def kvopOk (b : List Byte) : Bool :=
  let op := dNum b 0 1
  let first := dNum b 0x18 4
  let count := dNum b 0x1C 4
  let range := decide (1 ≤ count) && decide (count ≤ 4096) && decide (first + count ≤ 4096)
  decide (1 ≤ op) && decide (op ≤ 7) && zeroBytes b 2 4 && (op != 1 || decide (dNum b 1 1 < 3)) &&
  (!(op == 4 || op == 5 || op == 6) || rootOk (dNum b 8 8)) && (op != 4 || rootOk (dNum b 0x10 8)) && (!(op == 4 || op == 5) || range)

/-- Bytes per element of the source of a KVAPP. -/
def srcBytes (f : Nat) : Nat := if f = 0 then 4 else 2

/-- Layout rules of a KVAPP block (R255). -/
def kvappOk (b : List Byte) : Bool :=
  let n := dNum b 0xC 2
  let sf := dNum b 0xE 1
  let d := dNum b 0x1C 1
  let len := n * kvDim d * srcBytes sf
  rootOk (dNum b 0 8) && decide (1 ≤ n) && decide (n ≤ 64) && decide (dNum b 8 4 + n ≤ 262144) && decide (sf ≤ 1) && decide (dNum b 0xF 1 < 3) &&
  decide (d ≤ 2) && aRange (dNum b 0x10 4) len 64 && aRange (dNum b 0x14 4) len 64 && zeroBytes b 0x1D 0x40

/-- Bytes per element of Q and O. -/
def qBytes (f : Nat) : Nat := if f = 0 then 4 else 2

/-- Bytes of a bitmap row. -/
def bitmapStride (kvLen : Nat) : Nat := 8 * ((kvLen + 63) / 64)

/-- Layout rules of an ATTN block (R256). -/
def attnOk (b : List Byte) : Bool :=
  let kvLen := dNum b 8 4
  let g := dNum b 0x28 1
  let mq := dNum b 0x29 1
  let d := dNum b 0x2A 1
  let rows := g * mq
  let mask := dNum b 0x2D 1
  let fl := dNum b 0x2E 2
  rootOk (dNum b 0 8) && decide (kvLen ≤ 262144) && decide (1 ≤ g) && decide (g ≤ 16) && decide (1 ≤ mq) && decide (mq ≤ 64) && decide (rows ≤ 64) &&
  decide (d ≤ 2) && decide (dNum b 0x2B 1 ≤ 2) && decide (dNum b 0x2C 1 ≤ 1) && decide (mask < 8) && decide (fl < 2) && zeroBytes b 0x30 0x40 &&
  aRange (dNum b 0x10 4) (rows * kvDim d * qBytes (dNum b 0x2B 1)) 64 && aRange (dNum b 0x14 4) (rows * kvDim d * qBytes (dNum b 0x2C 1)) 64 &&
  (fl == 0 || aRange (dNum b 0x18 4) (8 * rows) 64) &&
  (!bitOf mask 1 || (decide (1 ≤ dNum b 0x24 4) && decide (dNum b 0x24 4 ≤ 262144))) &&
  (!bitOf mask 2 || (decide (kvLen ≤ 16384) && aRange (dNum b 0x1C 4) (mq * bitmapStride kvLen) 8))

/-- An instruction of the ATU port with a block of `len` bytes at sa: unused fields must be 0, the block lies in the own stores, is permitted, and its poison is consumed; the block is copied at issue (07 R167, 08 R214). -/
def State.atuIssue (s : State) (x : Nat) (i : Pk) (kind len : Nat) (ok : List Byte → Nat → Bool) : State :=
  s.peken x i { d := if kind = 0 then .v else .s, a := .s, b := .v, c := .v, engine := true } fun s c =>
    let a := (c.getS i.a).toNat
    let blk := s.stores.rdN (stoKey x a) len
    let r := (c.getS i.d).toNat
    match s.issue x c i c.atuq.length 8 fun c => { c with atuq := c.atuq ++ [⟨kind, i.token, c.pc, blk, if kind = 0 then 0 else r, false⟩] } with
    | .hold => .hold
    | go =>
      if i.b != 0 || i.c != 0 || (kind == 0 && i.d != 0) then engineDesc
      else if storeTop < a + len then .fault 0x04 0 a
      else if s.storeProtected x a len false then .fault 0x05 0 a
      else if s.stores.poisoned (stoKey x a) len && c.job.isSome then .block (s.corePoison x 0x18 4 0 a)
      else if !ok blk r then engineDesc
      else go

/-- A result record of `n` bytes lies in the own A-store, 16-byte aligned. -/
def recOk (r n : Nat) : Bool := decide (0x80000 ≤ r) && decide (r + n ≤ 0xC0000) && r % 16 == 0

def execPkAttn (x : Fin 512) (i : Pk) (s : State) : Host.Outcome State Fault Refusal := .next (s.atuIssue x i 0 64 fun b _ => attnOk b)
def execPkKvapp (x : Fin 512) (i : Pk) (s : State) : Host.Outcome State Fault Refusal := .next (s.atuIssue x i 1 64 fun b r => kvappOk b && recOk r 16)
def execPkKvop (x : Fin 512) (i : Pk) (s : State) : Host.Outcome State Fault Refusal :=
  .next (s.atuIssue x i 2 32 fun b r => kvopOk b && recOk r (if dNum b 0 1 = 7 then 48 else 16))

/-! Running a command (R259). -/

/-- The epoch of a core's job: its descriptor's (06 R131). -/
def State.jobEpoch (s : State) (x : Nat) : Nat :=
  match s.coreJob x, (s.core x).job with
  | some j, some k => match (s.queue j.tn j.q).fetched.find? (·.order == k) with | some d => d.epoch | none => s.epoch j.tn
  | _, _ => 0

/-- Partition, tenant and epoch of a core that runs a job. -/
def State.jobPlace (s : State) (x : Nat) : Option (Nat × Nat × Nat) :=
  match s.coreJob x, s.cluPart (x / 8) with
  | some j, some p => some (p, j.tn, s.jobEpoch x)
  | _, _ => none

/-- The core's tile issues nothing now to a tile that holds pooled memory of its partition (02 R37; which requests a command makes is not looked at, log entry 58). -/
def State.atuHeld (s : State) (x : Nat) : Bool :=
  match s.cluPart (x / 8) with
  | some p => (s.pm p).set.any fun y => s.routeHeld (x / 64) (y / 64)
  | none => false

/-- The command at the head of core x's port queue, if it is of `kind`, has not run, and may issue its requests. -/
def State.atuHead (s : State) (x kind : Nat) : Option AtuOp :=
  if !s.enginesRun x || s.atuHeld x then none
  else match (s.core x).atuq with
    | o :: _ => if o.kind = kind && !o.executed then some o else none
    | [] => none

/-- The head command has run; its token falls at ATU_COMMAND_DONE. -/
def State.atuRan (s : State) (x : Nat) : State :=
  let c := s.core x
  s.setCore x { c with atuq := match c.atuq with | o :: q => { o with executed := true } :: q | [] => [] }

/-- The head command leaves the queue and its token falls. -/
def State.atuPop (s : State) (x : Nat) (o : AtuOp) : State :=
  (s.setCore x { s.core x with atuq := (s.core x).atuq.drop 1 }).tokenFall x o.token

/-- Core-local address of a pooled offset. -/
def poolAddr (o : Nat) : Nat := 0x10000000000 + o

/-- A failure of a command as a job fault: ATU with a sub-cause, or ADDR_UNMAPPED; source 3 (07 R189). -/
def State.atuFail (s : State) (x : Nat) (o : AtuOp) (code sub addr : Nat) : State :=
  let cl := x / 8
  let s1 :=
    if code ≠ 0x0C then s
    else if o.kind = 0 then
      (((s.setFld (P.atu cl) F.ATU_FAULT_sub sub).setFld (P.atu cl) F.ATU_FAULT_core (x % 8)).setFlag (P.atu cl) F.ATU_FAULT_valid true).event (P.atu cl) 0
    else
      (((s.setFld (P.kvw cl) F.KVW_FAULT_sub sub).setFld (P.kvw cl) F.KVW_FAULT_core (x % 8)).setFlag (P.kvw cl) F.KVW_FAULT_valid true).event (P.kvw cl) 0
  (s1.coreFault x code 3 3 addr o.pc).atuPop x o

/-- Poison consumed by a command (13 R322 consumer 4). -/
def State.atuPoison (s : State) (x : Nat) (o : AtuOp) (space addr : Nat) : State := (s.corePoison x 0x18 4 space addr).atuPop x o

/-- A result record (R254), and the command has run. -/
def State.kvRecord (s : State) (x : Nat) (o : AtuOp) (st res valid v : Nat) (more : List Byte) : State :=
  (s.ownWrite x o.recAddr (leBytes 4 st ++ leBytes 4 res ++ leBytes 4 valid ++ leBytes 4 v ++ more)).atuRan x

/-- A failure of an operation (R268): a fault where memory is out of reach, else a status; a table at or above POOLCAP is one that is not there (log entry 37). -/
def State.kvEnd (s : State) (x : Nat) (o : AtuOp) (p v : Nat) (e : KvErr) : State :=
  if e.st = kvGone then s.atuFail x o 0x0C 5 (poolAddr e.off)
  else (s.kvFailed p e).kvRecord x o (if e.st = kvUnmapped then kvNoTable else e.st) 0 0 v []

/-! KVOP. -/

/-- A KVOP of core x whose block names `op`: partition, tenant, block and opseq go to the operation. -/
def State.kvop (s : State) (x op : Nat) (windowed : Bool) (f : Nat → Nat → List Byte → Nat → State → Except KvErr (State × Nat)) (more : Nat → List Byte → State → List Byte) : State :=
  match s.atuHead x 2 with
  | none => s
  | some o =>
    let v := dNum o.blk 4 4
    if dNum o.blk 0 1 ≠ op then s
    else match s.jobPlace x with
      | none => s.kvRecord x o kvPoolOff 0 0 v []
      | some (p, n, ep) =>
        match s.kpmOp p n ep v windowed (f p n o.blk v) with
        | .error e => s.kvEnd x o p v e
        | .ok r => r.2.2.kvRecord x o r.1 r.2.1 0 v (if r.1 = kvOk then more p o.blk r.2.2 else [])

/-- Nothing after the 16 bytes. -/
def noMore : Nat → List Byte → State → List Byte := fun _ _ _ => []

/-- KVOP_ALLOC. -/
def execKvopAlloc (x : Fin 512) (s : State) : Host.Outcome State Fault Refusal :=
  .next <| s.kvop x 1 true (fun p n b v s => s.kvAlloc p n (dNum b 1 1) v) noMore
/-- KVOP_INCREF. -/
def execKvopIncref (x : Fin 512) (s : State) : Host.Outcome State Fault Refusal :=
  .next <| s.kvop x 2 true (fun p n b v s => s.kvRef p n (dNum b 0x18 4) v true) noMore
/-- KVOP_DECREF. -/
def execKvopDecref (x : Fin 512) (s : State) : Host.Outcome State Fault Refusal :=
  .next <| s.kvop x 3 true (fun p n b v s => s.kvRef p n (dNum b 0x18 4) v false) noMore
/-- KVOP_FORK. -/
def execKvopFork (x : Fin 512) (s : State) : Host.Outcome State Fault Refusal :=
  .next <| s.kvop x 4 true (fun p n b v s => s.kvFork p n (dNum b 8 8) (dNum b 0x10 8) (dNum b 0x18 4) (dNum b 0x1C 4) v) noMore
/-- KVOP_RELEASE. -/
def execKvopRelease (x : Fin 512) (s : State) : Host.Outcome State Fault Refusal :=
  .next <| s.kvop x 5 true (fun p n b v s => s.kvRelease p n (dNum b 8 8) (dNum b 0x18 4) (dNum b 0x1C 4) v) noMore
/-- KVOP_INVAL: every walker of the partition loses the entries of the root. -/
def execKvopInval (x : Fin 512) (s : State) : Host.Outcome State Fault Refusal :=
  .next <| s.kvop x 6 false (fun p _ b _ s => .ok (s.labRemovePart p (fun e => e.root == dNum b 8 8), 0)) noMore
/-- KVOP_QUERY: the descriptor follows the record. -/
def execKvopQuery (x : Fin 512) (s : State) : Host.Outcome State Fault Refusal :=
  .next <| s.kvop x 7 false
    (fun p n b _ s => match s.kvNamed p (dNum b 0x18 4) n kvNotOwner with | .ok _ => .ok (s, dNum b 0x18 4) | .error e => .error e)
    (fun p b s => match s.kvDesc p (dNum b 0x18 4) with | .ok d => d.bytes | .error _ => [])

/-! Translation (R247, R248). -/

/-- A page index of a sequence: its page, or an unmapped level-2 entry. -/
structure KvRef where
  idx : Nat
  page : Option (Nat × KvDesc)
deriving DecidableEq, Repr

/-- Translate page index i of a root for tenant n through the walker of cluster cl. A miss fills the buffer from a usable page. -/
def State.kvTranslate (s : State) (cl p n root i : Nat) : Except KvErr KvRef × State :=
  match s.labFind cl root i n with
  | some e =>
    match s.kvNamed p e.page n kvNotOwner with
    | .ok d => (.ok ⟨i, some (e.page, d)⟩, s.labTouch cl e)
    | .error x => (.error x, s)
  | none =>
    let s1 := s.addFld (P.kvw cl) F.KVW_MISS_count 1
    match s.kvDir p root (i / 64) with
    | .error x => (.error x, s1)
    | .ok none => (.error ⟨kvNoTable, none, 0⟩, s1)
    | .ok (some l2) =>
      match s.kvL2 p l2 i with
      | .error x => (.error x, s1)
      | .ok none => (.ok ⟨i, none⟩, s1)
      | .ok (some k) =>
        match s.kvNamed p k n kvNotOwner with
        | .error x => (.error x, s1)
        | .ok d => (.ok ⟨i, some (k, d)⟩, s1.labFill cl ⟨root, i, k, d.fmt, d.owner, d.epoch⟩)

/-- Translate several indices in order, to the first failure. -/
def State.kvTranslateAll (s : State) (cl p n root : Nat) : List Nat → Except KvErr (List KvRef) × State
  | [] => (.ok [], s)
  | i :: is =>
    match s.kvTranslate cl p n root i with
    | (.error e, s1) => (.error e, s1)
    | (.ok r, s1) =>
      match State.kvTranslateAll s1 cl p n root is with
      | (.error e, s2) => (.error e, s2)
      | (.ok l, s2) => (.ok (r :: l), s2)

/-! Quantisation (R243, R255). -/

/-- qmax of a page format. -/
def kvQmax (fmt : Nat) : Nat := match fmt with | 0 => 448 | 1 => 127 | _ => 7

/-- The element code that MXE packing knows a page format by. -/
def kvMx (fmt : Nat) : Nat := match fmt with | 0 => 0 | 1 => 2 | _ => 3

/-- x / y for positive m·2^e and n·2^f, with a last bit that stands for the rest. -/
def divSticky (neg : Bool) (m : Nat) (e : Int) (n : Nat) (f : Int) : Fp :=
  let q := m * 2 ^ 64 / n
  .num neg (2 * q + if m * 2 ^ 64 % n = 0 then 0 else 1) (e - f - 65)

/-- The largest magnitude of a block. -/
def blockMax (xs : List Fp) : Fp := xs.foldl (fun a x => let y : Fp := match x with | .num _ m e => .num false m e | z => z; if fpLt false a y then y else a) (.num false 0 0)

/-- The scale of a block as an FP16 code: rounded up, at most 65504. -/
def kvScale (fmt : Nat) (xs : List Fp) : Nat :=
  match blockMax xs with
  | .num _ m e => if m = 0 then 0 else (fmtF16.encode 3 true false (divSticky false m e (kvQmax fmt) 0)).1
  | _ => 0

/-- The code of an element under a scale. -/
def kvCode (fmt sc : Nat) (x : Fp) : Nat :=
  match x, fmtF16.decode sc false with
  | .num n m e, .num _ sm se =>
    if sm = 0 then 0
    else
      let v := divSticky n m e sm se
      match fmt with
      | 0 => (fmtE4m3.encode 0 true false v).1
      | 1 => unsgn 8 (fpToInt 0 8 true v).1
      | _ => unsgn 4 (fpToInt 0 4 true v).1
  | _, _ => 0

/-- Blocks of 32. -/
def blocks32 {α : Type} : Nat → List α → List (List α)
  | 0, _ => []
  | n + 1, l => l.take 32 :: blocks32 n (l.drop 32)

/-- The codes and scales of positions: element bytes and scale bytes. -/
def kvQuant (fmt : Nat) (xs : List Fp) : List Byte × List Byte :=
  let bs := blocks32 (xs.length / 32) xs
  (bs.flatMap fun b => mxPack (kvMx fmt) (b.map (kvCode fmt (kvScale fmt b))), bs.flatMap fun b => leBytes 2 (kvScale fmt b))

/-- Elements in the own A-store of core x. -/
def State.aElems (s : State) (x off fmt n : Nat) : List Fp :=
  let w := qBytes fmt
  let f := match fmt with | 0 => fmtF32 | 1 => fmtBf16 | _ => fmtF16
  (List.range n).map fun e => f.decode (s.stores.rdLe (stoKey x (0x80000 + off + w * e)) w) false

/-! KVAPP (R255). -/

/-- Change the valid_tokens of page k by the atomic maximum. -/
def State.kvRaise (s : State) (p k v : Nat) : State :=
  match s.kvDesc p k with
  | .ok d => if d.vt < v then s.pWrite p ((s.kvPool p).desc k + 0xC) (leBytes 4 v) else s
  | .error _ => s

/-- Copy a page: K, V and scale bytes with their poison, and valid_tokens. -/
def State.kvCopy (s : State) (p src dst fmt vt : Nat) : State :=
  let g := s.kvPool p
  let s1 := (s.pCopy p (g.frameOf src) (g.frameOf dst) (128 * kvBytes fmt g.d)).pCopy p (g.scale src) (g.scale dst) (8 * g.d)
  s1.pWrite p (g.desc dst + 0xC) (leBytes 4 vt)

/-- The positions of a KVAPP in page index i: first position in the page, first position of the append, count. -/
def kvSpan (pos n i : Nat) : Nat × Nat × Nat :=
  let lo := max pos (64 * i)
  let hi := min (pos + n) (64 * i + 64)
  (lo - 64 * i, lo - pos, hi - lo)

/-- Store the positions of an append that lie in page k (index i). -/
def State.kvStore (s : State) (p k i fmt pos n : Nat) (ks vs : List Fp) : State :=
  let g := s.kvPool p
  let b := kvBytes fmt g.d
  let sp := kvSpan pos n i
  let part (l : List Fp) := (l.drop (sp.2.1 * g.d)).take (sp.2.2 * g.d)
  let kq := kvQuant fmt (part ks)
  let vq := kvQuant fmt (part vs)
  let w := g.d / 32 * 2
  ((((s.pWrite p (g.frameOf k + sp.1 * b) kq.1).pWrite p (g.frameOf k + 64 * b + sp.1 * b) vq.1).pWrite p (g.scale k + sp.1 * w) kq.2).pWrite p
    (g.scale k + 64 * w + sp.1 * w) vq.2).kvRaise p k (sp.1 + sp.2.2)

/-- A page of a KVAPP that needs the KPM. -/
def KvRef.needs (r : KvRef) : Bool := match r.page with | none => true | some e => decide (1 < e.2.rc)

/-- The KPM operation of a KVAPP: fresh pages for `m` indices, and one reference less for each page copied. -/
def State.kvAppOp (s : State) (p n fmt v : Nat) (refs : List KvRef) (last : Nat) (st : State) : Except KvErr (State × Nat) :=
  let need := refs.filter (·.needs)
  let old := need.filterMap fun r => r.page.map (·.1)
  let freed := old.eraseDups.filter fun k => match s.kvDesc p k with | .ok d => d.rc == old.count k | .error _ => false
  let fresh := (s.kvFreeList p).take need.length
  if fresh.length < need.length then .error ⟨kvEmpty, none, 0⟩
  else if s.fld (P.ten n 9) F.KPM_TQ_LIMIT_limit + freed.length < s.kvUsed n + need.length then .error ⟨kvQuota, none, 0⟩
  else match fresh.findSome? fun k => match s.kvDesc p k with | .error e => some e | .ok _ => none with
    | some e => .error e
    | none => .ok (((List.range need.length).foldl (fun t _ => (t.kvTake p n fmt v).2) st).kvBump p old v false, last)

/-- The pages the append writes, in index order: the fresh page of an index that needs one, else its own. -/
def kvTargets : List KvRef → List Nat → List (KvRef × Nat)
  | [], _ => []
  | r :: rs, fresh =>
    match r.page with
    | some e => if r.needs then (r, fresh.headD 0) :: kvTargets rs (fresh.drop 1) else (r, e.1) :: kvTargets rs fresh
    | none => (r, fresh.headD 0) :: kvTargets rs (fresh.drop 1)

/-- Repoint a level-2 entry at a fresh page, after copying the old one. -/
def State.kvRepoint (s : State) (p root fmt : Nat) (t : KvRef × Nat) : State :=
  if !t.1.needs then s
  else
    let s1 := match t.1.page with | some e => s.kvCopy p e.1 t.2 fmt e.2.vt | none => s
    match s1.kvDir p root (t.1.idx / 64) with
    | .ok (some l2) => s1.kvWriteL2 p root t.1.idx l2 (2 ^ 31 + t.2)
    | _ => s1

/-- The first line of a page's frame or scale block that lies in a fenced tile. -/
def State.kvPageGone (s : State) (x p k fmt : Nat) : Option Nat :=
  let g := s.kvPool p
  ((segs 64 (g.frameOf k) (128 * kvBytes fmt g.d)) ++ segs 64 (g.scale k) (8 * g.d)).findSome? fun sg =>
    if s.accGone x (poolAddr sg.1) then some sg.1 else none

/-- Store the positions of a KVAPP in its pages, repointing the entries that took fresh ones, and its record. -/
def State.kvAppWrite (s : State) (x : Nat) (o : AtuOp) (p : Nat) (ks vs : List Fp) (ts : List (KvRef × Nat)) : State :=
  let b := o.blk
  let root := dNum b 0 8
  let fmt := dNum b 0xF 1
  let last := (ts.getLast?.map (·.2)).getD 0
  let s1 := (s.each ts fun t s => s.kvRepoint p root fmt t).each ts fun t s => s.kvStore p t.2 t.1.idx fmt (dNum b 8 4) (dNum b 0xC 2) ks vs
  let vt := match s1.kvDesc p last with | .ok d => d.vt | .error _ => 0
  s1.kvRecord x o kvOk last vt (dNum b 0x18 4) []

/-- The page of index i as its entries read now, if tenant n may write it in place. -/
def State.kvReread (s : State) (p n root fmt i : Nat) : Option (KvRef × Nat) :=
  match s.kvDir p root (i / 64) with
  | .ok (some l2) =>
    match s.kvL2 p l2 i with
    | .ok (some k) =>
      match s.kvNamed p k n kvNotOwner with
      | .ok d => if d.rc ≤ 1 && d.fmt == fmt then some (⟨i, some (k, d)⟩, k) else none
      | .error _ => none
    | _ => none
  | _ => none

/-- The KPM answered DUP: the walker reads the entries again and writes in place. Where one is still not resolved, the record says DUP with the recorded result (log entry 36). -/
def State.kvAppDup (s : State) (x : Nat) (o : AtuOp) (p n res : Nat) (refs : List KvRef) (ks vs : List Fp) : State :=
  let ts := refs.filterMap fun r => s.kvReread p n (dNum o.blk 0 8) (dNum o.blk 0xF 1) r.idx
  if ts.length < refs.length then s.kvRecord x o kvDup res 0 (dNum o.blk 0x18 4) []
  else match ts.findSome? fun t => s.kvPageGone x p t.2 (dNum o.blk 0xF 1) with
    | some off => s.atuFail x o 0x0C 5 (poolAddr off)
    | none => s.kvAppWrite x o p ks vs ts

/-- KVAPP after its pages are resolved and its source is good. -/
def State.kvAppend (s : State) (x : Nat) (o : AtuOp) (p n ep : Nat) (refs : List KvRef) (ks vs : List Fp) : State :=
  let fmt := dNum o.blk 0xF 1
  let v := dNum o.blk 0x18 4
  let ts := kvTargets refs ((s.kvFreeList p).take (refs.filter (·.needs)).length)
  match ts.findSome? fun t => s.kvPageGone x p t.2 fmt with
  | some off => s.atuFail x o 0x0C 5 (poolAddr off)
  | none =>
    if !refs.any (·.needs) then s.kvAppWrite x o p ks vs ts
    else match s.kpmOp p n ep v true (s.kvAppOp p n fmt v refs ((ts.getLast?.map (·.2)).getD 0)) with
      | .error e => s.kvEnd x o p v e
      | .ok r =>
        if r.1 = kvOk then r.2.2.kvAppWrite x o p ks vs ts
        else if r.1 = kvDup then r.2.2.kvAppDup x o p n r.2.1 refs ks vs
        else r.2.2.kvRecord x o r.1 r.2.1 0 v []

/-- KVAPP_EXECUTE. -/
def execKvappExecute (x : Fin 512) (s : State) : Host.Outcome State Fault Refusal :=
  .next <|
    match s.atuHead x 1 with
    | none => s
    | some o =>
      let b := o.blk
      let v := dNum b 0x18 4
      let fmt := dNum b 0xF 1
      let pos := dNum b 8 4
      let cnt := dNum b 0xC 2
      let sf := dNum b 0xE 1
      let stop (st : Nat) (s : State) : State := s.kvRecord x o st 0 0 v []
      match s.jobPlace x with
      | none => stop kvPoolOff s
      | some (p, n, ep) =>
        let g := s.kvPool p
        if s.poolState p ≠ 2 then stop kvPoolOff s
        else if kvDim (dNum b 0x1C 1) ≠ g.d || !g.fits fmt then stop kvFormat s
        else
          let idxs := (List.range ((pos + cnt - 1) / 64 - pos / 64 + 1)).map (pos / 64 + ·)
          let len := cnt * g.d
          match s.kvTranslateAll (x / 8) p n (dNum b 0 8) idxs with
          | (.error e, s1) => s1.kvEnd x o p v e
          | (.ok refs, s1) =>
            if refs.any fun r => match r.page with | some e => e.2.fmt != fmt | none => false then stop kvFormat s1
            else
              let ka := 0x80000 + dNum b 0x10 4
              let va := 0x80000 + dNum b 0x14 4
              match (s1.stores.firstPoison (stoKey x ka) (len * srcBytes sf)).orElse fun _ => s1.stores.firstPoison (stoKey x va) (len * srcBytes sf) with
              | some l => s1.atuPoison x o 0 (64 * (l % 16384))
              | none =>
                let ks := s1.aElems x (dNum b 0x10 4) sf len
                let vs := s1.aElems x (dNum b 0x14 4) sf len
                if (ks ++ vs).any fun e => e.isNan || e.isInf then stop kvBadInput s1
                else s1.kvAppend x o p n ep refs ks vs

/-! The end of a command (R259, R260). -/

/-- ATU_COMMAND_DONE: the command at the head of the queue has run, and its token falls. -/
def execAtuCommandDone (x : Fin 512) (s : State) : Host.Outcome State Fault Refusal :=
  .next <|
    if !s.enginesRun x then s
    else match (s.core x).atuq with
      | [] => s
      | o :: _ =>
        if !o.executed then s
        else
          let pg := P.atu (x / 8)
          let s1 := if o.kind = 0 then
              ((s.addFld pg F.ATU_CMDS_count 1).tick).setFld64 pg F.ATU_BUSY_LO_cycles F.ATU_BUSY_HI_cycles
                (s.fld64 pg F.ATU_BUSY_LO_cycles F.ATU_BUSY_HI_cycles + Config.freeNat s.fresh)
            else s
          s1.atuPop x o

end Sys2Proof.Machine
end

