-- ==== Sys2Proof/Machine/Attn.lean ====
section
/-! DEFINITION. The attention unit (10 R256-R260, R267, R268): visibility, the arithmetic of R258, and the execution of an ATTN. -/
namespace Sys2Proof.Machine

/-! Binary32 steps, to nearest even. -/
def aF (w : Nat) : Fp := fmtF32.decode w false
def aAdd (a b : Nat) : Nat := toF32 (fpAdd 0 (aF a) (aF b)).1
def aMul (a b : Nat) : Nat := toF32 (fpMul (aF a) (aF b)).1

/-- log2 e and ln 2, each times 2^100, rounded down. -/
def log2e100 : Nat := 1828833234529184422442202814989
def ln2x100 : Nat := 878668439483319573618263538048

/-- e^x: within 2 ulp (R183, R258), which value is the free constant number 4. -/
def aExp (a : Nat) : Nat :=
  match aF a with
  | .nan _ => fmtF32.nanCode
  | .inf n => if n then 0 else fmtF32.infCode
  | .num n m e => (approxOut 0 4 (BitVec.ofNat 32 a) (approxExp2 n (m * log2e100) (e - 100))).1.toNat

/-- ln x: within 2 ulp, free constant number 5. -/
def aLn (a : Nat) : Nat :=
  match aF a with
  | .nan _ => fmtF32.nanCode
  | .inf n => if n then fmtF32.nanCode else fmtF32.infCode
  | .num n m e =>
    if m = 0 then fmtF32.signBit + fmtF32.infCode
    else if n then fmtF32.nanCode
    else if m = 2 ^ Nat.log2 m ∧ (Nat.log2 m : Int) + e = 0 then 0
    else
      let r := approxLog2 m e
      (approxOut 0 5 (BitVec.ofNat 32 a) ⟨r.neg, r.m * ln2x100, r.e - 100, false⟩).1.toNat

/-- a / b. -/
def aDiv (a b : Nat) : Nat :=
  match aF a, aF b with
  | .num n m e, .num k j f =>
    if j = 0 then (if m = 0 then fmtF32.nanCode else (if n != k then fmtF32.signBit else 0) + fmtF32.infCode)
    else if m = 0 then (if n != k then fmtF32.signBit else 0)
    else toF32 (divSticky (n != k) m e j f)
  | .num n _ _, .inf k => if n != k then fmtF32.signBit else 0
  | .inf n, .num k _ _ => (if n != k then fmtF32.signBit else 0) + fmtF32.infCode
  | _, _ => fmtF32.nanCode

/-- The larger of two; a NaN propagates. -/
def aMax (a b : Nat) : Nat :=
  if (aF a).isNan || (aF b).isNan then fmtF32.nanCode else if fpLt false (aF a) (aF b) then b else a

def aNeg (a : Nat) : Nat := if bitOf a 31 then a - 2 ^ 31 else a + 2 ^ 31
def aBad (a : Nat) : Bool := (aF a).isNan || (aF a).isInf
/-- −∞. -/
def aNegInf : Nat := 0xFF800000

/-- The exact sum of a block's products, rounded once. -/
def aBlock (qs ks : List Fp) : Nat := toF32 ((qs.zip ks).foldl (fun a e => (fpAdd 0 a (fpMul e.1 e.2).1).1) (.num false 0 0))

/-- dot_j: the block sums in ascending order. -/
def aDot (d : Nat) (qs ks : List Fp) : Nat :=
  match ((blocks32 (d / 32) qs).zip (blocks32 (d / 32) ks)).map fun e => aBlock e.1 e.2 with
  | [] => 0
  | b :: bs => bs.foldl aAdd b

/-- A sum of a list in ascending order. -/
def aSum : List Nat → Nat
  | [] => 0
  | b :: bs => bs.foldl aAdd b

/-- Running values of a row (R258): m, l, acc, count of visible positions, whether some s_j was infinite or NaN. -/
structure ARow where
  m : Nat
  l : Nat
  acc : List Nat
  seen : Nat
  bad : Bool
deriving DecidableEq, Repr

/-- One page for a row: dots of its visible positions and their V vectors. -/
def ARow.page (r : ARow) (scale : Nat) (dv : List (Nat × List Nat)) : ARow :=
  match dv with
  | [] => r
  | _ =>
    let ss := dv.map fun e => aMul e.1 scale
    let m' := ss.foldl aMax r.m
    let al := aExp (aAdd r.m (aNeg m'))
    let es := ss.map fun sj => aExp (aAdd sj (aNeg m'))
    let l' := aAdd (aMul r.l al) (aSum es)
    let acc := r.acc.zipIdx.map fun a => aAdd (aMul a.1 al) (aSum ((es.zip dv).map fun e => aMul e.1 (e.2.2.getD a.2 0)))
    ⟨m', l', acc, r.seen + dv.length, r.bad || ss.any aBad⟩

/-- A value in the O format. -/
def aOut (fmt a : Nat) : Nat := if fmt = 0 then a else (fmtBf16.encode 0 false false (aF a)).1
def aOutBad (fmt c : Nat) : Bool := if fmt = 0 then aBad c else aBad (c * 2 ^ 16)

/-- The end of a row: O codes and the record. -/
def ARow.fin (r : ARow) (fmt : Nat) : List Nat × Nat × Nat :=
  if r.seen = 0 then (r.acc.map fun _ => 0, aNegInf, 0x80000000)
  else
    let o := r.acc.map fun a => aOut fmt (aDiv a r.l)
    (o, aAdd r.m (aLn r.l), r.seen % 2 ^ 19 + if r.bad || aBad r.l || o.any (aOutBad fmt) then 2 ^ 30 else 0)

/-! The command. -/

/-- Visibility of position j to query row i (R257). -/
def State.aVisible (s : State) (x : Nat) (b : List Byte) (i j : Nat) : Bool :=
  let mask := dNum b 0x2D 1
  let kvLen := dNum b 8 4
  let p := dNum b 0xC 4 + i
  decide (j < kvLen) && (!bitOf mask 0 || decide (j ≤ p)) && (!bitOf mask 1 || decide (p < dNum b 0x24 4 + j)) &&
  (!bitOf mask 2 || bitOf (s.stores.rd (stoKey x (0x80000 + dNum b 0x1C 4 + i * bitmapStride kvLen + j / 8))).toNat (j % 8))

/-- The positions of page index pi that some row sees, as offsets in the page. -/
def State.aSeen (s : State) (x : Nat) (b : List Byte) (pi : Nat) : List Nat :=
  (List.range 64).filter fun o => (List.range (dNum b 0x29 1)).any fun i => s.aVisible x b i (64 * pi + o)

/-- A vector of K or V: element bytes and scales to values. -/
def kvDecode (fmt : Nat) (es sc : List Byte) : List Fp :=
  let elem (i : Nat) : Fp :=
    match fmt with
    | 0 => fmtE4m3.decode (es.getD i 0).toNat false
    | 1 => Fp.ofInt (sgn 8 (es.getD i 0).toNat) 0
    | _ => Fp.ofInt (sgn 4 ((es.getD (i / 2) 0).toNat / (if i % 2 = 0 then 1 else 16))) 0
  (List.range (if fmt = 2 then 2 * es.length else es.length)).map fun i => (fpMul (elem i) (fmtF16.decode (leNat ((sc.drop (2 * (i / 32))).take 2)) false)).1

/-- K and V of position o of page k. -/
def State.kvVec (s : State) (p k fmt o : Nat) : Except KvErr (List Fp × List Fp) :=
  let g := s.kvPool p
  let b := kvBytes fmt g.d
  let w := g.d / 32 * 2
  match s.pRead p (g.frameOf k + o * b) b, s.pRead p (g.frameOf k + 64 * b + o * b) b, s.pRead p (g.scale k + o * w) w,
      s.pRead p (g.scale k + 64 * w + o * w) w with
  | .ok ke, .ok ve, .ok ks, .ok vs => .ok (kvDecode fmt ke ks, kvDecode fmt ve vs)
  | .error e, _, _, _ => .error e
  | _, .error e, _, _ => .error e
  | _, _, .error e, _ => .error e
  | _, _, _, .error e => .error e

/-- The visible positions of a page: offset, K, and V as binary32 codes. -/
def State.kvVecs (s : State) (p k fmt : Nat) : List Nat → Except KvErr (List (Nat × List Fp × List Nat))
  | [] => .ok []
  | o :: os =>
    match s.kvVec p k fmt o with
    | .error e => .error e
    | .ok r =>
      match s.kvVecs p k fmt os with
      | .error e => .error e
      | .ok l => .ok ((o, r.1, r.2.map toF32) :: l)

/-- A failure of an ATTN (R267, R268): poison is consumed. -/
def State.attnEnd (s : State) (x : Nat) (o : AtuOp) (p : Nat) (e : KvErr) : State :=
  let sub := if e.st = kvGone then 5 else if e.st = kvNoTable then 1 else if e.st = kvNotOwner then 3 else if e.st = kvFormat then 4 else 2
  if e.st = kvPoisoned then (s.kvFailed p e).atuPoison x o 3 (poolAddr e.off)
  else if e.st = kvUnmapped then s.atuFail x o 0x04 0 (poolAddr e.off)
  else s.atuFail x o 0x0C sub (if e.st = kvGone then poolAddr e.off else 0)

/-- The pages of an ATTN that were translated, checked (format, HOLE) and read. -/
def State.attnPages (s : State) (p : Nat) (seen : Nat → List Nat) : List KvRef → Except KvErr (List (Nat × List (Nat × List Fp × List Nat)))
  | [] => .ok []
  | r :: rs =>
    match r.page with
    | none => .error ⟨kvEmpty, none, 0⟩
    | some (k, d) =>
      let os := seen r.idx
      if !(s.kvPool p).fits d.fmt then .error ⟨kvFormat, none, 0⟩
      else if os.any fun o => decide (d.vt ≤ o) then .error ⟨kvEmpty, none, 0⟩
      else match s.kvVecs p k d.fmt os with
        | .error e => .error e
        | .ok vs => match s.attnPages p seen rs with | .error e => .error e | .ok l => .ok ((r.idx, vs) :: l)

/-- The DRAM counts of the K, V and scale bytes that an ATTN reads. -/
def State.attnCount (s : State) (p : Nat) (seen : Nat → List Nat) (refs : List KvRef) : State :=
  s.each refs fun r s =>
    match r.page with
    | none => s
    | some (k, d) =>
      let g := s.kvPool p
      let b := kvBytes d.fmt g.d
      let w := g.d / 32 * 2
      s.each (seen r.idx) fun o s =>
        (((s.pCount p (g.frameOf k + o * b) b).pCount p (g.frameOf k + 64 * b + o * b) b).pCount p (g.scale k + o * w) w).pCount p
          (g.scale k + 64 * w + o * w) w

/-- Rows of an ATTN, in ascending r: O bytes and record bytes. -/
def State.attnRows (s : State) (x : Nat) (b : List Byte) (d : Nat) (pages : List (Nat × List (Nat × List Fp × List Nat))) : List Byte × List Byte :=
  let mq := dNum b 0x29 1
  let rows := dNum b 0x28 1 * mq
  let qf := dNum b 0x2B 1
  let ofm := dNum b 0x2C 1
  let outs := (List.range rows).map fun r =>
    let qs := s.aElems x (dNum b 0x10 4 + r * d * qBytes qf) qf d
    let row := pages.foldl (fun (a : ARow) pg =>
      a.page (dNum b 0x20 4) ((pg.2.filter fun v => s.aVisible x b (r % mq) (64 * pg.1 + v.1)).map fun v => (aDot d qs v.2.1, v.2.2)))
      ⟨aNegInf, 0, List.replicate d 0, 0, false⟩
    row.fin ofm
  (outs.flatMap fun o => o.1.flatMap (leBytes (qBytes ofm)), outs.flatMap fun o => leBytes 4 o.2.1 ++ leBytes 4 o.2.2)

/-- The core of cluster cl whose ATTN is next: round robin over the cores with a waiting ATTN, none while one runs (R259). -/
def State.attnNext (s : State) (cl : Nat) : Option Nat :=
  let xs := (List.range 8).map (8 * cl + ·)
  if xs.any fun x => match (s.core x).atuq with | o :: _ => o.kind == 0 && o.executed | [] => false then none
  else
    let last := Tab.get nat0 s.atuLast cl
    ((List.range 8).map fun i => 8 * cl + (last + 1 + i) % 8).find? fun x => (s.atuHead x 0).isSome

/-- ATTN_EXECUTE. Poison of the bitmap, then of Q, is consumed first; translations run in ascending page index. -/
def execAttnExecute (x : Fin 512) (s : State) : Host.Outcome State Fault Refusal :=
  .next <|
    match s.atuHead x 0 with
    | none => s
    | some o =>
      if s.attnNext (x / 8) ≠ some x.val then s
      else
        let s := { s with atuLast := Tab.set nat0 s.atuLast (x.val / 8) (x.val % 8) }
        let b := o.blk
        let d := kvDim (dNum b 0x2A 1)
        let kvLen := dNum b 8 4
        let mq := dNum b 0x29 1
        let rows := dNum b 0x28 1 * mq
        let bm := s.stores.firstPoison (stoKey x (0x80000 + dNum b 0x1C 4)) (if bitOf (dNum b 0x2D 1) 2 then mq * bitmapStride kvLen else 0)
        let qp := s.stores.firstPoison (stoKey x (0x80000 + dNum b 0x10 4)) (rows * d * qBytes (dNum b 0x2B 1))
        match s.jobPlace x with
        | none => s.atuFail x o 0x0C 6 0
        | some (p, n, _) =>
          if s.poolState p ≠ 2 then s.atuFail x o 0x0C 6 0
          else if d ≠ (s.kvPool p).d then s.atuFail x o 0x0C 4 0
          else match bm.orElse fun _ => qp with
            | some l => s.atuPoison x o 0 (64 * (l % 16384))
            | none =>
              let idxs := (List.range ((kvLen + 63) / 64)).filter fun i => !(s.aSeen x b i).isEmpty
              match s.kvTranslateAll (x / 8) p n (dNum b 0 8) idxs with
              | (.error e, s1) => s1.attnEnd x o p e
              | (.ok refs, s1) =>
                match s1.attnPages p (s1.aSeen x b) refs with
                | .error e => s1.attnEnd x o p e
                | .ok pages =>
                  let r := s1.attnRows x b d pages
                  let s2 := (s1.attnCount p (s1.aSeen x b) refs).ownWrite x (0x80000 + dNum b 0x14 4) r.1
                  let s3 := if bitOf (dNum b 0x2E 2) 0 then s2.ownWrite x (0x80000 + dNum b 0x18 4) r.2 else s2
                  s3.atuRan x

/-! The stop of a rank (07 R184, R189; 08 R212). -/

/-- An ATTN that runs when its job stops is abandoned: its outputs are undefined (R263). -/
def State.attnAbandon (s : State) (x : Nat) : State :=
  match (s.core x).atuq with
  | o :: _ =>
    if o.kind = 0 && o.executed then
      let b := o.blk
      let rows := dNum b 0x28 1 * dNum b 0x29 1
      let junk (seed n : Nat) : List Byte := (List.range n).map (Config.freeByte seed)
      let s1 := s.ownWrite x (0x80000 + dNum b 0x14 4) (junk s.fresh (rows * kvDim (dNum b 0x2A 1) * qBytes (dNum b 0x2C 1)))
      (if bitOf (dNum b 0x2E 2) 0 then s1.ownWrite x (0x80000 + dNum b 0x18 4) (junk (s.fresh + 1) (8 * rows)) else s1).ticks 2
    else s
  | [] => s

/-- JOB_STOP: the rank of core x on a stopping job ends; operations in progress on the mover perform the lines that were already issued, free which. -/
def execJobStop (x : Fin 512) (s : State) : Host.Outcome State Fault Refusal :=
  .next <|
    match (s.core x).job with
    | none => s
    | some k =>
      if !(s.job k).stopping || (s.core x).wait == .ended then s
      else
        let s1 := (s.attnAbandon x).each (s.core x).movAct fun o s =>
          let f := s.fresh
          (s.ticks 1).runMov x o (fun i => (Config.freeByte f i).getLsbD 0) |>.1
        let c := s1.core x
        ((s1.setCore x { c with mxeq := [], movq := [], movAct := [], atuq := [], tok := [], wait := .ended }).setFld (P.core x)
          F.CORE_STS_state 5).jobCheck k

end Sys2Proof.Machine
end

