-- ==== Sys2Proof/Machine/Codes.lean ====
section
/-! DEFINITION. The CRC-32 with the polynomial of 02 R29, and reading numbers from lists of bytes (00 R6). -/
namespace Sys2Proof.Machine

/-- The bits of a number of `w` bits, most significant first, or least significant first as the implementation feeds its CRC. -/
def numBits (w v : Nat) : List Bool :=
  let l := (List.range w).map fun i => bitOf v i
  if Config.crcLsbFirst then l else l.reverse

/-- The bits of bytes in the order in which they enter the CRC. -/
def byteBits (bs : List Byte) : List Bool := bs.flatMap fun b => numBits 8 b.toNat

/-- One bit into the CRC register: division by 0x04C1_1DB7. -/
def crcShift (c : Nat) (b : Bool) : Nat :=
  let c2 := 2 * c % 2 ^ 32
  if bitOf c 31 != b then c2 ^^^ 0x04C11DB7 else c2

/-- The low 32 bits of a number in reverse order. -/
def reflect32 (v : Nat) : Nat := (List.range 32).foldl (fun r i => 2 * r + b2n (bitOf v i)) 0

/-- The CRC-32 of a string of bits (02 R29). -/
def linkCrc (l : List Bool) : Nat :=
  let c := l.foldl crcShift (Config.crcInit % 2 ^ 32)
  (if Config.crcReflected then reflect32 c else c) ^^^ (Config.crcFinal % 2 ^ 32)

/-- The bytes `off .. off + n - 1` of a list. -/
def slice (l : List Byte) (off n : Nat) : List Byte := (l.drop off).take n

/-- The little-endian number in `n` bytes at `off`; bytes past the end read 0. -/
def leAt (l : List Byte) (off n : Nat) : Nat := leNat (slice l off n)

/-- Every byte of a list is 0. -/
def zeros (l : List Byte) : Bool := l.all (· == 0)

end Sys2Proof.Machine
end

