-- ==== Sys2Proof/Machine/Spares.lean ====
section
/-! DEFINITION. Spare stores (08 R198, R199, R215-R217): assignment, and the events that clear them. -/
namespace Sys2Proof.Machine

/-- Offset and length of store k (0 W, 1 A, 2 P) in the own-store layout. -/
def storeBase (k : Nat) : Nat := match k with | 0 => 0 | 1 => 0x80000 | _ => 0xC0000
def storeLen (k : Nat) : Nat := match k with | 0 => 0x80000 | 1 => 0x40000 | _ => 0x20000

/-- Tenant and valid fields of store k in STO_SPARE_ASSIGN. -/
def spareTnFld (k : Nat) : Fld := match k with | 0 => F.STO_SPARE_ASSIGN_w_tenant | 1 => F.STO_SPARE_ASSIGN_a_tenant | _ => F.STO_SPARE_ASSIGN_p_tenant
def spareOkFld (k : Nat) : Fld := match k with | 0 => F.STO_SPARE_ASSIGN_w_valid | 1 => F.STO_SPARE_ASSIGN_a_valid | _ => F.STO_SPARE_ASSIGN_p_valid

/-- The assignment of store k as one number: tenant and valid bit. -/
def State.spareNow (s : State) (y k : Nat) : Nat := s.fld (P.sto y) (spareTnFld k) + 128 * s.fld (P.sto y) (spareOkFld k)

/-- The value of store k in a written dword. -/
def spareVal (v k : Nat) : Nat := bits v (8 * k) 8

def spare0 : Nat → Option Nat := fun _ => none
/-- The pending value of the spare stores of core y. -/
def State.sparePending (s : State) (y : Nat) : Option Nat := Tab.get spare0 s.sparePend y
def State.setSparePending (s : State) (y : Nat) (v : Option Nat) : State :=
  { s with sparePend := Tab.set spare0 s.sparePend y v }.setFlag (P.sto y) F.STO_STS_assign_pending v.isSome

/-- Clear store k of core y. -/
def State.clearSpare (s : State) (y k : Nat) : State := s.clearStoreAt y (storeBase k) (storeLen k)

/-- A job of tenant n runs in cluster cl. -/
def State.tenantRuns (s : State) (n cl : Nat) : Bool := s.jobs.any fun e => e.2.tn == n && e.2.ranks.any (· / 8 == cl)

/-- A self-test runs on the stores of core y. -/
def State.storesTested (s : State) (y : Nat) : Bool :=
  s.flag (P.scbC (y / 8)) F.SCB_BIST_start && Tab.get spare0 s.bistCore (y / 8) == some (y % 8)

/-- Core y is its cluster's spare. -/
def State.isSpare (s : State) (y : Nat) : Bool := s.spareOf (y / 8) == some y

/-- A write of STO_SPARE_ASSIGN. A write while a change is pending replaces the pending value (R215). -/
def State.spareWrite (s : State) (rq : Requester) (x v : Nat) : State :=
  let a := accessAddr rq (P.sto x) 0x044
  let part := s.cluPart (x / 8)
  let bad (k : Nat) : Bool :=
    let w := spareVal v k
    bitOf w 7 && !(s.bound (w % 128) && part == some (s.tnPart (w % 128)))
  if !s.isSpare x then s.countErr (P.sto x) 0x40 (rqCode rq) a
  else if bad 0 || bad 1 || bad 2 then s.countErr (P.sto x) 0x41 (rqCode rq) a
  else s.setSparePending x (some (v % 2 ^ 24))

/-- SPARE_ASSIGN_WRITE. -/
def execSpareAssignWrite (rq : Requester) (x : Fin 512) (v : Word) (s : State) : Host.Outcome State Fault Refusal :=
  .next <| s.tileWrite rq (P.sto x) 0x044 (.spare rq x v.toNat) fun s => s.spareWrite rq x v.toNat

/-- SPARE_ASSIGN_TAKE_EFFECT: once no job of a tenant that loses a store runs in the cluster and no self-test runs on the stores; every store whose assignment changes is cleared. -/
def execSpareAssignTakeEffect (x : Fin 512) (s : State) : Host.Outcome State Fault Refusal :=
  .next <|
    match s.sparePending x with
    | none => s
    | some v =>
      let changed := [0, 1, 2].filter fun k => s.spareNow x k != spareVal v k
      let held := changed.any fun k => decide (128 ≤ s.spareNow x k) && s.tenantRuns (s.spareNow x k % 128) (x / 8)
      if held || s.storesTested x then s
      else
        let s1 := s.each changed fun k s =>
          ((s.setFld (P.sto x) (spareTnFld k) (spareVal v k % 128)).setFld (P.sto x) (spareOkFld k) (spareVal v k / 128)).clearSpare x k
        (s1.setSparePending x none).event (P.sto x) 0

/-- The spare stores assigned to tenant n are cleared (R199). -/
def State.spareClearTenant (s : State) (n : Nat) : State :=
  s.each ((List.range 512).filter s.isSpare) fun y s =>
    s.each ([0, 1, 2].filter fun k => s.spareNow y k == n + 128) fun k s => s.clearSpare y k

/-- Assignments of the spare of cluster cl end, with any pending change (R199, R217). -/
def State.spareUnassign (s : State) (y : Nat) : State :=
  (s.each [0, 1, 2] fun k s => ((s.setFld (P.sto y) (spareTnFld k) 0).setFld (P.sto y) (spareOkFld k) 0)).setSparePending y none

end Sys2Proof.Machine
end

