-- ==== Sys2Proof/Machine/Media.lean ====
section
/-! DEFINITION. What bring-up reads (04 R76-R83, 14 R339): the byte layouts of boot medium, Thido image, itinerary and partition plan, and the checks of them that need no state. -/
namespace Sys2Proof
open Sys2Proof.Machine

/-! Images (R77-R79). -/

/-- A section of a Thido image (R77). -/
structure Section where
  typ : Nat
  critical : Bool
  off : Nat
  len : Nat
  digest : List Byte
deriving DecidableEq, Repr

/-- A Thido image as read (R77): the fields of its header and section table, and its bytes. -/
structure Image where
  magic : Nat
  formatVersion : Nat
  typ : Nat
  totalLen : Nat
  fwVersion : Nat
  secVersion : Nat
  count : Nat
  keySlot : Nat
  target : Nat
  key : List Byte
  sig : List Byte
  sections : List Section
  raw : List Byte
deriving DecidableEq, Repr

/-- Entry i of the section table, 64 bytes from 0x100. -/
def sectionAt (l : List Byte) (i : Nat) : Section :=
  let o := 0x100 + 64 * i
  ⟨leAt l o 2, bitOf (leAt l (o + 2) 2) 0, leAt l (o + 4) 4, leAt l (o + 8) 4, slice l (o + 16) 48⟩

/-- The header at offset 0 and the section table (R77). -/
def Image.parse (l : List Byte) : Image where
  magic := leAt l 0x000 4
  formatVersion := leAt l 0x004 2
  typ := leAt l 0x006 2
  totalLen := leAt l 0x008 4
  fwVersion := leAt l 0x00C 4
  secVersion := leAt l 0x010 4
  count := leAt l 0x014 2
  keySlot := leAt l 0x016 1
  target := leAt l 0x018 4
  key := slice l 0x040 96
  sig := slice l 0x0A0 96
  sections := (List.range (min 64 (leAt l 0x014 2))).map (sectionAt l)
  raw := l

/-- The bytes of a section. -/
def Image.body (m : Image) (x : Section) : List Byte := slice m.raw x.off x.len

/-- What the signature covers (R78): SHA-384 of the header with bytes 0x0A0 to 0x0FF as zero, followed by the section table. -/
def Image.signed (m : Image) : List Byte :=
  Config.sha384 (slice m.raw 0 0xA0 ++ List.replicate 0x60 0 ++ slice m.raw 0x100 (64 * m.count))

/-- Two sections overlap. -/
def Section.overlaps (a b : Section) : Bool := decide (a.off < b.off + b.len) && decide (b.off < a.off + a.len)

/-- No two of a list of sections overlap. -/
def disjointSections : List Section → Bool
  | [] => true
  | a :: l => !l.any a.overlaps && disjointSections l

/-- What an image of a type must hold (R78): 1 stage-1, 2 payload. -/
def Image.composed (m : Image) : Bool :=
  let n (t : Nat) := (m.sections.filter fun x => x.typ == t).length
  (m.sections.all fun x => decide (1 ≤ x.typ ∧ x.typ ≤ 4) || !x.critical) &&
  if m.typ = 1 then n 1 == 1 && decide (m.totalLen ≤ 0x800000) && m.sections.all fun x => x.typ != 1 || decide (x.len ≤ 0x800000)
  else decide (1 ≤ n 2) && n 3 == 1 && decide (n 4 ≤ 1) && decide (m.totalLen ≤ 0x1800000)

/-- Check 1 of R79: magic, format version, type, lengths (the image lies whole in what the directory gives it), sections. -/
def Image.formed (m : Image) (typ : Nat) : Bool :=
  m.magic == 0x4F444854 && m.formatVersion == 1 && m.typ == typ && decide (1 ≤ m.count ∧ m.count ≤ 64) &&
  decide (m.totalLen ≤ m.raw.length) && decide (m.keySlot < 4) &&
  (m.sections.all fun x => decide (x.off + x.len ≤ m.totalLen)) && disjointSections m.sections && m.composed

/-- Check 2: PKG_BUILD and silicon revision A1 (bit 0 of the mask). -/
def Image.fits (m : Image) (build : Nat) : Bool := bits m.target 0 6 == build && bitOf m.target 8

/-- The first check of R79 that an image fails, as an R97 code and detail. `keys` are the fused key hashes by slot; the section digests are taken over the bytes that `body` gives, as they lie in the Hamper. -/
def Image.refusal (m : Image) (typ build revoked svn : Nat) (keys : Tab (List Byte)) (body : Nat → List Byte) : Option (Nat × Nat) :=
  if !m.formed typ then some (5, 1)
  else if !m.fits build then some (5, 2)
  else if Config.sha384 m.key ≠ Tab.get Config.fusedKey keys m.keySlot ∨ bitOf revoked m.keySlot then some (6, m.keySlot)
  else if m.secVersion < svn then some (7, m.keySlot)
  else if !Config.ecdsaP384 m.key m.signed m.sig then some (8, 0)
  else ((List.range m.sections.length).find? fun i =>
    match m.sections[i]? with | some x => decide (Config.sha384 (body i) ≠ x.digest) | none => false).map fun i => (9, i)

/-- What later steps need of an image. -/
def Image.accepted (m : Image) : Accepted := ⟨m.fwVersion, m.secVersion, m.keySlot, m.totalLen, Config.sha384 (m.raw.take m.totalLen)⟩

/-- The first section of a type. -/
def Image.only (m : Image) (typ : Nat) : Option Section := m.sections.find? fun x => x.typ == typ

/-! The boot directory (R76). -/

/-- The boot directory is usable (R76): magic, version and the CRC-32 over bytes 0x00 to 0x27. -/
def dirOk (md : Medium) : Bool :=
  leAt md 0x00 4 == 0x5244424B && leAt md 0x04 2 == 1 && leAt md 0x28 4 == linkCrc (byteBits (slice md 0 0x28))

/-- The image whose offset and length stand at `o` of the directory; none where the length is 0. The offset is a multiple of 4 KiB: its low bits are ignored (log entry 47). -/
def imageAt (md : Medium) (o : Nat) : Option Image :=
  let off := leAt md o 4 / 4096 * 4096
  let len := leAt md (o + 4) 4
  if len = 0 then none else some (Image.parse (slice md off len))

/-- The stage-1 candidates of a medium, the preferred slot first. -/
def stage1s (md : Medium) : List (Nat × Option Image) :=
  let a := (0, imageAt md 0x08)
  let b := (1, imageAt md 0x10)
  if !dirOk md then [] else if leAt md 0x06 1 = 1 then [b, a] else [a, b]

/-- The payload image of slot k. -/
def payloadAt (md : Medium) (k : Nat) : Option Image := imageAt md (0x18 + 8 * k)

/-! The itinerary (R83). -/

/-- An image descriptor of the itinerary. -/
structure ItinDesc where
  imageId : Nat
  store : Nat
  rsv : Nat
  hamperOff : Nat
  storeOff : Nat
  len : Nat
  digest : List Byte
deriving DecidableEq, Repr

/-- The Hamper offset of the core image of a descriptor: the first core image section of its length and digest (DESIGN CHOICE, log entry 69: the spec does not say how a descriptor finds its section). -/
def Image.coreImage (m : Image) (base : Nat) (d : ItinDesc) : Option Nat :=
  (m.sections.find? fun x => x.typ == 2 && x.len == d.len && x.digest == d.digest).map fun x => base + x.off

/-- A rule of the itinerary. -/
structure ItinRule where
  tiles : Nat
  clusters : Nat
  lcores : Nat
  imageSet : Nat
  entry : Nat
deriving DecidableEq, Repr

/-- An itinerary. -/
structure Itinerary where
  magic : Nat
  version : Nat
  generation : Nat
  fwVersion : Nat
  nDesc : Nat
  nRule : Nat
  descs : List ItinDesc
  rules : List ItinRule
deriving DecidableEq, Repr

/-- Descriptor i, 64 bytes from 0x40. -/
def descAt (l : List Byte) (i : Nat) : ItinDesc :=
  let o := 0x40 + 64 * i
  ⟨leAt l o 2, leAt l (o + 2) 1, leAt l (o + 3) 1, leAt l (o + 4) 4, leAt l (o + 8) 4, leAt l (o + 12) 4, slice l (o + 16) 48⟩

/-- Rule i after `nd` descriptors, 16 bytes each; the logical core mask is bits 6:0. -/
def ruleAt (l : List Byte) (nd i : Nat) : ItinRule :=
  let o := 0x40 + 64 * nd + 16 * i
  ⟨leAt l o 1, leAt l (o + 1) 1, leAt l (o + 2) 1 % 128, leAt l (o + 4) 4, leAt l (o + 8) 4⟩

/-- Header, descriptors 0 to image_count − 1, rules. -/
def Itinerary.parse (l : List Byte) : Itinerary :=
  let nd := leAt l 0x06 1
  let nr := leAt l 0x07 1
  ⟨leAt l 0x00 4, leAt l 0x04 2, leAt l 0x08 4, leAt l 0x0C 4, nd, nr, (List.range nd).map (descAt l), (List.range nr).map (ruleAt l nd)⟩

/-- The bytes of an itinerary: header, descriptors, rules. -/
def Itinerary.size (l : List Byte) : Nat := 0x40 + 64 * leAt l 0x06 1 + 16 * leAt l 0x07 1

/-- What firmware publishes (R83): the bytes of the itinerary with the generation, the payload's fw_version and each descriptor's Hamper offset written. -/
def Itinerary.publish (l : List Byte) (gen fw : Nat) (offs : List Nat) : List Byte :=
  slice l 0 0x08 ++ leBytes 4 gen ++ leBytes 4 fw ++ slice l 0x10 0x30 ++
  (List.range (leAt l 0x06 1)).flatMap (fun i => let o := 0x40 + 64 * i
    slice l o 4 ++ leBytes 4 (offs.getD i 0) ++ slice l (o + 8) 56) ++
  slice l (0x40 + 64 * leAt l 0x06 1) (16 * leAt l 0x07 1)

/-- A descriptor's fields are in range (R83). -/
def ItinDesc.ok (d : ItinDesc) : Bool :=
  decide (d.store < 3) && d.storeOff % 64 == 0 && d.len % 64 == 0 && decide (0 < d.len ∧ d.storeOff + d.len ≤ storeLen d.store)

/-- Two images overlap in one store. -/
def ItinDesc.overlaps (a b : ItinDesc) : Bool :=
  a.store == b.store && decide (a.storeOff < b.storeOff + b.len) && decide (b.storeOff < a.storeOff + a.len)

/-- The descriptors that a rule selects, in ascending order: bits at or above image_count are ignored. -/
def Itinerary.picked (it : Itinerary) (r : ItinRule) : List ItinDesc :=
  (List.range it.descs.length).filterMap fun i => if bitOf r.imageSet i then it.descs[i]? else none

def disjointDescs : List ItinDesc → Bool
  | [] => true
  | a :: l => !l.any a.overlaps && disjointDescs l

/-- A rule includes logical core l of cluster c of tile t. -/
def ItinRule.covers (r : ItinRule) (t c l : Nat) : Bool := bitOf r.tiles t && bitOf r.clusters c && bitOf r.lcores l

/-- The rule that logical core g uses: the first whose three masks include it. -/
def Itinerary.ruleOf (it : Itinerary) (g : Nat) : Option ItinRule :=
  it.rules.find? fun r => r.covers (g / 56) (g / 7 % 8) (g % 7)

/-- The index with which an itinerary is refused (R83). `found i` says that the bytes of descriptor i's image in the Hamper have its digest. DESIGN CHOICE (log entry 47): a wrong magic or version, or an image_count or rule_count outside its range, has no index of its own and is reported with index 0; a core without a rule is reported with the first index past the rules. -/
def Itinerary.bad (it : Itinerary) (found : Nat → Bool) : Option Nat :=
  if it.magic ≠ 0x4E495449 ∨ it.version ≠ 1 ∨ it.nDesc < 1 ∨ 32 < it.nDesc ∨ it.nRule < 1 ∨ 64 < it.nRule then some 0
  else if (List.range 448).any fun g => (it.ruleOf g).isNone then some it.nRule
  else match it.rules.findIdx? fun r => r.imageSet == 0 || decide (2 ^ it.nDesc ≤ r.imageSet) with
    | some i => some i
    | none => match (List.range it.descs.length).find? fun i =>
        match it.descs[i]? with | some d => !d.ok || !found i | none => false with
      | some i => some i
      | none => it.rules.findIdx? fun r => !disjointDescs (it.picked r)

/-! The partition plan (14 R339). -/

/-- A partition entry of a partition plan. -/
structure PlanPart where
  p : Nat
  nearSize : Nat
  companion : Nat
  budget : Nat
  rsv : Nat
  mask : Nat
deriving DecidableEq, Repr

/-- A binding entry of a partition plan. -/
structure PlanBind where
  tenant : Nat
  port : Nat
  vf : Nat
  part : Nat
  weight : Nat
  rsv : Nat
  limit : Nat
deriving DecidableEq, Repr

/-- A partition plan. -/
structure Plan where
  magic : Nat
  version : Nat
  nPart : Nat
  nBind : Nat
  rsv : Nat
  parts : List PlanPart
  binds : List PlanBind
deriving DecidableEq, Repr

/-- Partition entry i, 16 bytes from 0x10. -/
def planPartAt (l : List Byte) (i : Nat) : PlanPart :=
  let o := 0x10 + 16 * i
  ⟨leAt l o 1, leAt l (o + 1) 1, leAt l (o + 2) 2, leAt l (o + 4) 2, leAt l (o + 6) 2, leAt l (o + 8) 8⟩

/-- Binding entry i after `np` partition entries, 8 bytes each. -/
def planBindAt (l : List Byte) (np i : Nat) : PlanBind :=
  let o := 0x10 + 16 * np + 8 * i
  ⟨leAt l o 1, leAt l (o + 1) 1, leAt l (o + 2) 1, leAt l (o + 3) 1, leAt l (o + 4) 1, leAt l (o + 5) 1, leAt l (o + 6) 2⟩

/-- A partition plan from the bytes of its section. -/
def Plan.parse (l : List Byte) : Plan :=
  let np := leAt l 0x06 1
  let nb := leAt l 0x07 1
  ⟨leAt l 0x00 4, leAt l 0x04 2, np, nb, leAt l 0x08 8, (List.range np).map (planPartAt l), (List.range nb).map (planBindAt l np)⟩

/-- No two binding entries name the same port and virtual function. -/
def disjointBinds : List PlanBind → Bool
  | [] => true
  | b :: l => !(l.any fun c => c.port == b.port && c.vf == b.vf) && disjointBinds l

/-- No partition appears twice. -/
def disjointParts : List PlanPart → Bool
  | [] => true
  | b :: l => !(l.any fun c => c.p == b.p) && disjointParts l

/-- The conditions of R339 that do not need a BUILD. -/
def Plan.formed (pl : Plan) : Bool :=
  pl.magic == 0x4E414C50 && pl.version == 1 && pl.rsv == 0 &&
  decide (1 ≤ pl.nPart ∧ pl.nPart ≤ 8) && decide (pl.nBind ≤ 128) &&
  (pl.parts.all fun e => e.rsv == 0 && decide (e.companion < 4096) && decide (e.p < 8 ∧ e.nearSize < 8)) && disjointParts pl.parts && disjointBinds pl.binds &&
  pl.binds.all fun b =>
    b.rsv == 0 && decide (b.tenant < 128 ∧ b.port < 4 ∧ b.vf < 64) && decide (b.weight < 16) &&
    match pl.parts.find? fun e => e.p == b.part with
    | some e => decide (b.limit ≤ e.budget)
    | none => false

/-- DISP_TN_BIND of a binding entry, with enable 0. -/
def PlanBind.val (b : PlanBind) : Nat := b.vf + 2 ^ 6 * b.port + 2 ^ 8 * b.part + 2 ^ 11 * b.weight + 2 ^ 15

end Sys2Proof
end

