-- ==== Sys2Proof/Machine/Encoder.lean ====
section
/-! DEFINITION. What a codec session computes (12 R288, R289, R293, R297-R302, R304): pictures in memory, the input stage, the split of a picture, motion search, and the coded bits and samples, which the standards and the encoder's decisions fix as functions of the inputs and the parameter block (07 R183). -/
namespace Sys2Proof.Machine

/-! Fields of the parameter block (R292) and the layout of pictures (R293). -/

/-- A field of the parameter block. -/
def VcSt.p (v : VcSt) (off n : Nat) : Nat := dfield v.par off n

def VcSt.w (v : VcSt) : Nat := v.p 0xC 2
def VcSt.h (v : VcSt) : Nat := v.p 0xE 2
def VcSt.encodes (v : VcSt) : Bool := v.p 1 1 == 0
/-- Constant QP: no buffer model. -/
def VcSt.constQp (v : VcSt) : Bool := v.p 0x10 1 == 0
/-- Bytes of a row of a picture format. -/
def vcRow (fmt w : Nat) : Nat := if fmt % 2 = 0 then w else 4 * ((w + 2) / 3)
/-- Rows of the chroma plane. -/
def vcChroma (fmt h : Nat) : Nat := if fmt < 2 then h / 2 else h
/-- Size of a picture with a pitch. -/
def vcPic (fmt h pitch : Nat) : Nat := pitch * (h + vcChroma fmt h)
/-- A row rounded up to the pitch rule. -/
def vcPitch (fmt w : Nat) : Nat := (vcRow fmt w + 63) / 64 * 64
/-- Format of reference pictures: the profile's; AV1 Main holds 8 and 10 bits, and takes those of the session's pictures (DEDUCED, log entry 41). -/
def VcSt.refFmt (v : VcSt) : Nat := if v.p 0 1 = 1 then v.p 6 1 % 2 else match v.p 2 1 with | 0 => 0 | 1 => 1 | _ => 3


/-! Pictures in memory (R293). -/

/-- Sample (x, y) of plane pl (0 luma, 1 Cb, 2 Cr) of a picture whose byte at offset o is `b o`. -/
def picSample (b : Nat → Byte) (fmt h pitch pl x y : Nat) : Nat :=
  let row := (if pl = 0 then 0 else pitch * h) + y * pitch
  let i := if pl = 0 then x else 2 * x + (pl - 1)
  if fmt % 2 = 0 then (b (row + i)).toNat
  else bits (leNat ((List.range 4).map fun k => b (row + 4 * (i / 3) + k))) (10 * (i % 3)) 10

/-- Byte o of a picture of w columns with samples `sm` (plane, x, y); behind the end of a row it is `pad o`. -/
def picByte (fmt w h pitch : Nat) (sm : Nat → Nat → Nat → Nat) (pad : Nat → Byte) (o : Nat) : Byte :=
  let row := o / pitch
  let col := o % pitch
  let at' (i : Nat) : Nat := if row < h then sm 0 i row else sm (1 + i % 2) (i / 2) (row - h)
  if vcRow fmt w ≤ col then pad o
  else if fmt % 2 = 0 then BitVec.ofNat 8 (at' col)
  else
    let k := 3 * (col / 4)
    BitVec.ofNat 8 ((at' k % 1024 + 2 ^ 10 * (at' (k + 1) % 1024) + 2 ^ 20 * (at' (k + 2) % 1024)) / 256 ^ (col % 4))

/-- Columns and rows of a plane. -/
def planeDim (fmt w h pl : Nat) : Nat × Nat := if pl = 0 then (w, h) else (w / 2, vcChroma fmt h)

/-! The input stage (R297). -/

/-- Where sample (x, y) comes from in a plane of w columns and h rows that is rotated clockwise by transform bits 1:0 and then mirrored left to right by bit 2. -/
def turned (t w h x y : Nat) : Nat × Nat :=
  let ow := if t % 2 = 1 then h else w
  let x := if bitOf t 2 then ow - 1 - x else x
  match t % 4 with
  | 0 => (x, y)
  | 1 => (y, h - 1 - x)
  | 2 => (w - 1 - x, h - 1 - y)
  | _ => (w - 1 - y, x)

/-- A plane of the source in raster order, rotated and mirrored, with its size. -/
def turnedPlane (sm : Nat → Nat → Nat) (t w h : Nat) : List Nat × (Nat × Nat) :=
  let d := if t % 2 = 1 then (h, w) else (w, h)
  ((List.range (d.1 * d.2)).map fun i => let p := turned t w h (i % d.1) (i / d.1); sm p.1 p.2, d)

/-- A sample of the input format as one of the profile's depth. -/
def depthTo (fmt ref v : Nat) : Nat :=
  if fmt % 2 = ref % 2 then v else if ref % 2 = 1 then 4 * v else min 255 ((v + 2) / 4)

/-- A plane of the coded picture: rotated, mirrored, scaled to the coded size, in the profile's chroma and depth. -/
def VcSt.codedPlane (v : VcSt) (b : Nat → Byte) (pitch pl : Nat) : List Nat :=
  let fmt := v.p 6 1
  let d := planeDim fmt (v.p 8 2) (v.p 0xA 2) pl
  let r := turnedPlane (picSample b fmt (v.p 0xA 2) pitch pl) (v.p 7 1) d.1 d.2
  let c := planeDim fmt v.w v.h pl
  let sc := (List.range (c.1 * c.2)).map (Config.scaled (pl == 0) r.2 c r.1)
  let ch := if pl ≠ 0 ∧ 2 ≤ fmt ∧ v.refFmt < 2 then (List.range (c.1 * (c.2 / 2))).map (Config.chromaHalved c.1 sc) else sc
  ch.map (depthTo fmt v.refFmt)

/-- The coded picture: luma, Cb, Cr. -/
def VcSt.coded (v : VcSt) (b : Nat → Byte) (pitch : Nat) : List (List Nat) := (List.range 3).map (v.codedPlane b pitch)

/-! Tools, split and motion search (R289, R298-R300). -/

/-- What the encoder may use: codec; largest block; smallest block; smallest and largest transform (HEVC, 0 where R289 names none); references; deblocking or CDEF; SAO; temporal motion vector prediction; vectors in quarter-samples; and the buffer model it writes: 0 none, 1 CBR, 2 capped VBR. Every other tool of R289 is off. -/
def VcSt.tools (v : VcSt) : List Nat :=
  (if v.p 0 1 = 0 then [0, 64, 8, 4, 32, v.p 0x14 1, 1, 1, 1, 1] else [1, 64, 8, 0, 0, v.p 0x14 1, 1, 0, 0, 1]) ++ [v.p 0x10 1]

/-- A count of blocks in k parts that differ by at most 1: first block and length of each. Which part is longer the spec leaves open: the later ones, as uniform spacing gives (DESIGN CHOICE, log entry 41). -/
def parts (n k : Nat) : List (Nat × Nat) := (List.range k).map fun j => (j * n / k, (j + 1) * n / k - j * n / k)

/-- The parts of a picture of k engines: tile columns, slices, wavefront rows (row r goes to engine r mod k), or one. -/
def VcSt.split (v : VcSt) (k : Nat) : List (Nat × Nat) :=
  let cols := (v.w + 63) / 64
  let rows := (v.h + 63) / 64
  match v.p 5 1 with
  | 1 => parts cols k
  | 2 => parts rows k
  | 3 => (List.range rows).map fun r => (r, r % k)
  | _ => [(0, cols)]

/-- A step inside its range. -/
def clampMv (x y : Int) (d : Int × Int) : Int × Int := (max (-x) (min x d.1), max (-y) (min y d.2))

/-- The motion vector of a block against a reference, in quarter-samples: ±64 by ±32 at the 1/4 level, ±8 at each finer one, then half- and quarter-samples. -/
def motionVector (par : List Byte) (cur : List (List Nat)) (ref : List Byte) (blk : Nat) : Int × Int :=
  let a := clampMv 64 32 (Config.mvStep 0 par cur ref blk (0, 0))
  let r1 := clampMv 8 8 (Config.mvStep 1 par cur ref blk a)
  let b : Int × Int := (2 * a.1 + r1.1, 2 * a.2 + r1.2)
  let r2 := clampMv 8 8 (Config.mvStep 2 par cur ref blk b)
  let c : Int × Int := (2 * b.1 + r2.1, 2 * b.2 + r2.2)
  let q := clampMv 3 3 (Config.mvStep 3 par cur ref blk c)
  (4 * c.1 + q.1, 4 * c.2 + q.2)

/-- The vectors of every block of 16 by 16 against every reference. -/
def VcSt.motion (v : VcSt) (cur : List (List Nat)) (refs : List (List Byte)) : List (Int × Int) :=
  refs.flatMap fun r => (List.range (((v.w + 15) / 16) * ((v.h + 15) / 16))).map (motionVector v.par cur r)

/-! The result. -/

/-- What a coded picture was made from. -/
structure VcMade where
  parts : List (Nat × Nat)
  cur : List (List Nat)
  refs : List (List Byte)
  mvs : List (Int × Int)
  info : List Nat
  junk : Nat
deriving DecidableEq, Repr

/-- The coded picture with how it is coded: its planes, the tools, the parts, and type, quantiser, length and filler. -/
def VcMade.what (m : VcMade) (v : VcSt) : List (List Nat) := m.cur ++ [v.tools, m.parts.flatMap fun p => [p.1, p.2], m.info]

/-- Byte i of the access unit. -/
def VcSt.unitByte (v : VcSt) (m : VcMade) (i : Nat) : Byte := Config.vcBits v.par (m.what v) m.refs m.mvs m.junk i

/-- A plane of the reconstructed picture, in raster order. -/
def VcSt.recon (v : VcSt) (m : VcMade) (pl : Nat) : List Nat :=
  let d := planeDim v.refFmt v.w v.h pl
  (List.range (d.1 * d.2)).map (Config.vcRecon v.par (m.what v) m.refs m.mvs m.junk pl)

/-- The bytes of a reference buffer that holds a picture: its planes, then pyramids and motion field. -/
def VcSt.bufBytes (v : VcSt) (planes : List (List Nat)) (mvs : List (Int × Int)) (n : Nat) : List Byte :=
  let pitch := vcPitch v.refFmt v.w
  let sm (pl x y : Nat) : Nat := (planes.getD pl []).getD (y * (planeDim v.refFmt v.w v.h pl).1 + x) 0
  (List.range n).map fun o =>
    if o < vcPic v.refFmt v.h pitch then picByte v.refFmt v.w v.h pitch sm (Config.vcAux v.par planes mvs) o else Config.vcAux v.par planes mvs o

/-- The planes of a decoded picture at the coded size, in the format `fmt`. -/
def VcSt.decoded (v : VcSt) (fmt : Nat) (au : List Byte) (refs : List (List Byte)) : List (List Nat) :=
  (List.range 3).map fun pl => let d := planeDim fmt v.w v.h pl; (List.range (d.1 * d.2)).map (Config.vcDecoded v.par au refs pl)

end Sys2Proof.Machine
end

