-- ==== Sys2Proof/Machine/Codec.lean ====
section
/-! DEFINITION. The video codec engines (12): sessions, parameter blocks, picture commands, the guard of the buffer model, the output ring, admission, self-test and faults. -/
namespace Sys2Proof.Machine

def State.vcQueue (s : State) (i : Nat) : Nat := s.vcf i F.VCE_SS_BIND_queue
def State.vcMask (s : State) (i : Nat) : Nat := s.vcf i F.VCE_SS_BIND_engines
/-- The engines of a mask. -/
def maskEngines (m : Nat) : List Nat := (List.range 4).filter fun n => bitOf m n
/-- VCE_STS.state of an engine: 0 IDLE, 1 ACTIVE, 2 BIST, 3 FAILED, 4 OFFLINE. -/
def State.engine (s : State) (n : Nat) : Nat := s.fld (P.vce n 0) F.VCE_STS_state
def State.setEngine (s : State) (n st : Nat) : State := s.setFld (P.vce n 0) F.VCE_STS_state st

/-! The parameter block (R292, R293, R297, R298, R302). -/

/-- Bytes of one reference buffer: Pic + Y + M. -/
def VcSt.unit (v : VcSt) : Nat :=
  let w := v.w
  let h := v.h
  vcPic v.refFmt h (vcPitch v.refFmt w) +
  (if v.encodes then ((w + 1) / 2) * ((h + 1) / 2) + ((w + 3) / 4) * ((h + 3) / 4) else 0) + 16 * ((w + 15) / 16) * ((h + 15) / 16)
/-- W. -/
def VcSt.work (v : VcSt) : Nat := (v.p 0x14 1 + 1) * v.unit
/-- K. -/
def VcSt.k (v : VcSt) : Nat := 256 + ((v.w + 63) / 64) * ((v.h + 63) / 64)
/-- Numbers of the guard in 1 / (90 · numerator) bits: Δ, the buffer size, a count of bytes, B at the start. -/
def VcSt.scale (v : VcSt) : Nat := 90 * v.p 0x28 4
def VcSt.delta (v : VcSt) : Nat := 90000 * v.p 0x18 4 * v.p 0x2C 4
def VcSt.size (v : VcSt) : Nat := 1000 * v.p 0x20 4 * v.scale
def VcSt.bytes (v : VcSt) (n : Nat) : Nat := 8 * n * v.scale
def VcSt.b0 (v : VcSt) : Nat := v.p 0x18 4 * v.p 0x24 4 * v.p 0x28 4

/-- Size of the source after rotation. -/
def VcSt.rotated (v : VcSt) : Nat × Nat := if v.p 7 1 % 2 = 1 then (v.p 0xA 2, v.p 8 2) else (v.p 8 2, v.p 0xA 2)

/-- Ratio of coded to source size from 1/8 to 2. -/
def ratioOk (coded src : Nat) : Bool := decide (0 < src) && decide (src ≤ 8 * coded) && decide (coded ≤ 2 * src)

/-- Whether each field of the block is valid for `k` engines: offset and truth. -/
def VcSt.checks (v : VcSt) (k : Nat) : List (Nat × Bool) :=
  let codec := v.p 0 1
  let enc := v.encodes
  let prof := v.p 2 1
  let fmt := v.p 6 1
  let rate := enc && !v.constQp
  let top := if codec = 0 then 51 else 255
  let lim := Config.levelLimits codec (v.p 3 1) (v.p 4 1)
  let rot := v.rotated
  [ (0x00, decide (codec ≤ 1)), (0x01, decide (v.p 1 1 ≤ 1)), (0x02, if codec = 0 then decide (prof ≤ 2) else prof == 0),
    (0x03, if codec = 0 then decide (v.p 3 1 ≤ 183) else decide (v.p 3 1 ≤ 17)), (0x04, decide (v.p 4 1 ≤ 1)),
    (0x05, decide (v.p 5 1 ≤ 3) && (codec == 0 || decide (v.p 5 1 ≤ 1)) && (!enc || v.p 5 1 != 0 || k == 1)),
    (0x06, decide (fmt ≤ 3) && !(enc && codec == 0 && prof == 2 && decide (fmt < 2))), (0x07, decide (v.p 7 1 ≤ 7)),
    (0x08, !enc || ratioOk v.w rot.1 && ratioOk v.h rot.2),
    (0x0C, decide (64 ≤ v.w) && decide (v.w ≤ 8192) && v.w % 8 == 0), (0x0E, decide (64 ≤ v.h) && decide (v.h ≤ 4352) && v.h % 8 == 0),
    (0x10, !enc || decide (v.p 0x10 1 ≤ 2)), (0x11, !rate || decide (v.p 0x11 1 ≤ v.p 0x12 1)), (0x12, !rate || decide (v.p 0x12 1 ≤ top)),
    (0x13, !(enc && v.constQp) || decide (v.p 0x13 1 ≤ top)),
    (0x14, decide (1 ≤ v.p 0x14 1) && decide (v.p 0x14 1 ≤ if enc then 2 else 16)), (0x15, v.p 0x15 1 == 0),
    (0x18, !rate || (decide (v.bytes v.k ≤ v.delta) && decide (v.p 0x18 4 ≤ lim.1))),
    (0x20, !rate || (decide (2 * v.delta ≤ v.size) && decide (v.p 0x20 4 ≤ lim.2))), (0x24, !rate || decide (v.delta ≤ v.b0)),
    (0x28, v.p 0x28 4 != 0), (0x2C, v.p 0x2C 4 != 0) ] ++
  (List.range 208).map fun i => (0x30 + i, v.p (0x30 + i) 1 == 0)

/-- The offset of the first failing field. -/
def VcSt.bad (v : VcSt) (k : Nat) : Option Nat := (v.checks k).findSome? fun c => if c.2 then none else some c.1

/-! Compartments. -/

def State.vcCtl (s : State) (i : Nat) : Nat := s.vcf i F.VCE_SS_CTLSLOT_slot * 65536
def State.vcOut (s : State) (i : Nat) : Nat := s.vcf i F.VCE_SS_OUT_slot * 65536
def State.vcWork (s : State) (i : Nat) : Nat := s.vcf i F.VCE_SS_WORK_slot * 65536
/-- Size of the bitstream data area. -/
def State.vcArea (s : State) (i : Nat) : Nat := (s.vcf i F.VCE_SS_OUT_count - 1) * 65536

/-- Write bytes at an aperture offset of the session's tenant. -/
def State.vcPut (s : State) (i off : Nat) (bs : List Byte) (ep : Bool) : State :=
  s.each (segs 64 off bs.length) fun g s =>
    match s.apAddr (s.vcTenant i) g.1 with
    | some a => { s with hmp := s.hmp.wr a ((bs.drop (g.1 - off)).take g.2) ep }
    | none => s

/-- The control line (R291) and STS.pending. -/
def State.vcControlLine (s : State) (i : Nat) : State :=
  let v := s.vc i
  let s1 := s.vcPut i (s.vcCtl i + 0x100)
    (leBytes 4 v.c ++ leBytes 1 (s.vcState i) ++ leBytes 3 0 ++ leBytes 4 v.gen ++ leBytes 4 (v.b / v.scale) ++ leBytes 1 v.cancel ++ leBytes 3 0 ++
      leBytes 4 v.skips ++ leBytes 4 v.recodes ++ leBytes 4 v.fillers ++ leBytes 32 0) false
  s1.setVcf i F.VCE_SS_STS_pending ((v.vis + 2 ^ 32 - v.c) % 2 ^ 32 + b2n v.run.isSome + v.ended.length)

/-- A session changes state. -/
def State.setVcState (s : State) (i st : Nat) : State := (s.setVcf i F.VCE_SS_STS_state st).vcControlLine i

/-! Admission (R305). -/

/-- Luma samples per second that a session adds to each of its engines, rounded up. -/
def State.vcRate (s : State) (i : Nat) : Nat :=
  let v := s.vc i
  let d := v.p 0x2C 4 * (maskEngines (s.vcMask i)).length
  (v.w * v.h * v.p 0x28 4 + d - 1) / d

/-- Admitted load of engine n. -/
def State.vcLoad (s : State) (n : Nat) : Nat :=
  (((List.range 64).filter fun i => s.vcOn i && bitOf (s.vcMask i) n).map s.vcRate).sum

/-- VCE_STS.load of every engine. -/
def State.vcLoads (s : State) : State :=
  s.each (List.range 4) fun n s => s.setFld (P.vce n 0) F.VCE_STS_load (s.vcLoad n / 500000)

/-! Completion entries (R296). -/

/-- The completion entry of a command. -/
def State.vcEntry (s : State) (i : Nat) (cmd : List Byte) (st dt res us : Nat) : State :=
  let n := s.vcTenant i
  let q := s.vcQueue i
  let e : CqEntry := ⟨dfield cmd 0 4, 0, st, false, false, s.epoch n, dt, 0xFFFF, 0, q, dfield cmd 8 8, res, us⟩
  if s.writesEntries n q then s.cqWrite n q e (bitOf (dfield cmd 5 1) 1) else s

/-- Take or give back the slot of a started command. -/
def State.vcReserve (s : State) (i : Nat) (up : Bool) : State :=
  let n := s.vcTenant i
  let q := s.vcQueue i
  let v := s.queue n q
  s.setQueue n q { v with reserved := if up then v.reserved + 1 else v.reserved - 1 }

/-- Unbind the session's compartments and turn it OFF. -/
def State.vcComps (s : State) (i : Nat) : List Nat :=
  let n := s.vcTenant i
  let run (slot count : Nat) : List Nat := (List.range count).filterMap fun j => s.slotComp n (slot + j)
  run (s.vcf i F.VCE_SS_CTLSLOT_slot) 1 ++ run (s.vcf i F.VCE_SS_WORK_slot) (s.vcf i F.VCE_SS_WORK_count) ++
  (if (s.vc i).encodes then run (s.vcf i F.VCE_SS_OUT_slot) (s.vcf i F.VCE_SS_OUT_count) else [])

def State.vcOff (s : State) (i : Nat) : State :=
  let s1 := (s.setVc i { s.vc i with run := none, stall := none, ended := [] }).setVcState i 0
  (s1.bindComps (s1.vcComps i) false).vcLoads

/-- Write the entries of cancelled commands while slots are free; a stopping session with nothing left goes OFF. -/
def State.vcFlush (s : State) (i : Nat) : Nat → State
  | 0 => s
  | f + 1 =>
    match (s.vc i).ended with
    | [] => if s.vcState i = 3 ∧ (s.vc i).run.isNone then s.vcOff i else s
    | b :: bs =>
      if s.cqFull (s.vcTenant i) (s.vcQueue i) then s
      else State.vcFlush ((((s.setVc i { s.vc i with ended := bs }).vcEntry i b 2 0 0 0)).vcControlLine i) i f

/-- A picture command in its ring slot. -/
def State.vcCmd (s : State) (i c : Nat) : List Byte := s.apRead (s.vcTenant i) (s.vcCtl i + 0x1000 + 64 * (c % 256)) 64

/-- Cancel every accepted command that has not started (R306). -/
def State.vcCancel (s : State) (i : Nat) : State :=
  let v := s.vc i
  let n := (v.vis + 2 ^ 32 - v.c) % 2 ^ 32
  let cmds := (List.range n).map fun j => s.vcCmd i ((v.c + j) % 2 ^ 32)
  ((s.setVc i { v with c := v.vis, ended := v.ended ++ cmds }).vcControlLine i).vcFlush i 600

/-- VCE_PRODUCER_POLL (R295, R306). A poisoned line is read again at the next poll. -/
def execVceProducerPoll (i : Fin 64) (s : State) : Host.Outcome State Fault Refusal :=
  .next <|
    let s := s.vcFlush i 600
    let n := s.vcTenant i
    let a := s.vcCtl i + 0x140
    if !(s.vcState i == 1 || s.vcState i == 2) || s.tnState n == 3 || (s.apPoison n a 8).isSome then s
    else
      let v := s.vc i
      let p := leNat (s.apRead n a 4)
      let cv := leNat (s.apRead n (a + 4) 1)
      let d := (p + 2 ^ 32 - v.c) % 2 ^ 32
      let s1 :=
        if v.prod = some p then s
        else if d ≤ 256 then
          (s.setVc i { v with prod := some p, vis := if (v.vis + 2 ^ 32 - v.c) % 2 ^ 32 < d then p else v.vis }).vcControlLine i
        else ((s.setVc i { v with prod := some p }).countErr (vcPg i) 0x42 0xFF 0).flog n 1 0x06 0x42 0 0
      if cv = v.cancel then s1 else (s1.setVc i { s1.vc i with cancel := cv }).vcCancel i

/-! Starting a command (R294, R296, R305). -/

/-- The offset of the first failing field of a command. -/
def State.vcCmdBad (s : State) (i : Nat) (b : List Byte) : Option Nat :=
  let v := s.vc i
  let n := s.vcTenant i
  let enc := v.encodes
  let fmt := v.p 6 1
  let w := if enc then v.p 8 2 else v.w
  let h := if enc then v.p 0xA 2 else v.h
  let pitch := dfield b 0x24 4
  let size := vcPic fmt h pitch
  let inp := dfield b 0x18 4 % 2 ^ 28
  let cs : List (Nat × Bool) :=
    [ (0x04, dfield b 4 1 == if enc then 1 else 2), (0x05, decide (dfield b 5 1 < 4) && (enc || !bitOf (dfield b 5 1) 0)), (0x06, dfield b 6 2 == 0),
      (0x18, s.apRange n inp (if enc then size else dfield b 0x1C 4) [4, 0, 6]), (0x1C, enc == (dfield b 0x1C 4 == 0)),
      (0x20, if enc then dfield b 0x20 4 == 0 else s.apRange n (dfield b 0x20 4 % 2 ^ 28) size [5, 0]),
      (0x24, pitch % 64 == 0 && decide (vcRow fmt w ≤ pitch)), (0x28, (b.drop 0x28).all (· == 0)) ]
  cs.findSome? fun c => if c.2 then none else some c.1

/-- Session i can start a command. -/
def State.vcCan (s : State) (i : Nat) : Bool :=
  let v := s.vc i
  let n := s.vcTenant i
  let q := s.vcQueue i
  s.ready && !s.inShutdown && s.vcState i == 1 && v.run.isNone && v.c != v.vis && v.ended.isEmpty && s.tnState n == 2 && s.qState n q == 1 &&
  !(s.port (s.tnPort n)).d3 && !s.cqFull n q && (maskEngines (s.vcMask i)).all fun e => s.engine e == 0

/-- The session of an engine set whose turn it is: round robin at picture boundaries. -/
def State.vcTurn (s : State) (m : Nat) : Option Nat :=
  let last := Tab.get nat0 s.vcLast m
  ((List.range 64).map fun j => (last + 1 + j) % 64).find? fun i => s.vcMask i == m && s.vcCan i

/-- Aperture offset of reference buffer j. -/
def State.vcBuf (s : State) (i j : Nat) : Nat := s.vcWork i + j * (s.vc i).unit

/-- The reference buffers of the next inter picture of an encode session. -/
def VcSt.encRefs (v : VcSt) : List Nat := (List.range (min (v.p 0x14 1) v.pics)).map fun j => (v.pics - 1 - j) % (v.p 0x14 1 + 1)

/-- The first poisoned line of reference buffers. -/
def State.vcRefPoison (s : State) (i : Nat) (bufs : List Nat) : Option Nat :=
  bufs.findSome? fun j => s.apPoison (s.vcTenant i) (s.vcBuf i j) (s.vc i).unit

/-- Intra position: the first picture, the period, a forced or owed intra picture (R292, R294, R301). -/
def VcSt.intraNow (v : VcSt) (cmd : List Byte) : Bool :=
  v.pics == 0 || v.retry || bitOf (dfield cmd 5 1) 0 || (v.p 0x16 2 != 0 && v.pics % v.p 0x16 2 == 0)

/-- Start the next command of session i. -/
def State.vcStart (s : State) (i : Nat) : State :=
  if s.vcTurn (s.vcMask i) ≠ some i then s
  else
    let v := s.vc i
    let n := s.vcTenant i
    let cmd := s.vcCmd i v.c
    let s1 := { s with vcLast := Tab.set nat0 s.vcLast (s.vcMask i) i }.setVc i { v with c := (v.c + 1) % 2 ^ 32 }
    match s1.vcCmdBad i cmd with
    | some o => ((s1.vcEntry i cmd 5 o 0 0)).vcControlLine i
    | none =>
      let len := if v.encodes then vcPic (v.p 6 1) (v.p 0xA 2) (dfield cmd 0x24 4) else dfield cmd 0x1C 4
      let intra := v.encodes && v.intraNow cmd
      let run : VcRun := ⟨cmd, s.now, s.apPoison n (dfield cmd 0x18 4 % 2 ^ 28) len, if v.encodes && !intra then s.vcRefPoison i v.encRefs else none, false, intra⟩
      let s2 := (s1.setVc i { s1.vc i with run := some run }).vcReserve i true
      (s2.each (maskEngines (s.vcMask i)) fun e s => (s.setEngine e 1).setFld (P.vce e 0) F.VCE_STS_session i).setVcState i 2

/-- VCE_ENCODE. -/
def execVceEncode (i : Fin 64) (s : State) : Host.Outcome State Fault Refusal := .next (if (s.vc i).encodes then s.vcStart i else s)
/-- VCE_DECODE. -/
def execVceDecode (i : Fin 64) (s : State) : Host.Outcome State Fault Refusal := .next (if (s.vc i).encodes then s else s.vcStart i)

/-- The running command ends: engines free, slot given back, entry written. -/
def State.vcDone (s : State) (i st dt res : Nat) : State :=
  match (s.vc i).run with
  | none => s
  | some r =>
    let s1 := (s.setVc i { s.vc i with run := none, stall := none }).each (maskEngines (s.vcMask i)) fun e s =>
      if s.engine e = 1 then (s.setEngine e 0).setFld (P.vce e 0) F.VCE_STS_session 0 else s
    let s2 := if s1.vcState i = 2 then s1.setVcState i 1 else s1
    (((s2.vcReserve i false).vcEntry i r.cmd st dt res (s.usSince r.start)).vcControlLine i).vcFlush i 600

/-- Poison met by the codec: one fault log entry (13 R322 consumer 5, R325). -/
def State.vcPoison (s : State) (i off : Nat) : State := s.flog (s.vcTenant i) 3 0x06 5 0xFFFF off

/-! The guard (R300-R302) and the output ring (R303). -/

/-- Where an access unit of `len` bytes goes, if there is room. -/
def State.vcPlace (s : State) (i len : Nat) : Option Nat :=
  let v := s.vc i
  let area := s.vcArea i
  let o := if v.wpos + len ≤ area then v.wpos else 0
  if decide (o + len ≤ area) && decide (v.live.length < 1024) && v.live.all fun e => decide (e.1 + e.2 ≤ o) || decide (o + len ≤ e.1) then some o else none

/-- The bytes of a reference buffer. -/
def State.vcRef (s : State) (i j : Nat) : List Byte := s.apRead (s.vcTenant i) (s.vcBuf i j) (s.vc i).unit

/-- What the access unit u of the running command is made from. -/
def State.vcMade (s : State) (i : Nat) (r : VcRun) (u : VcPub) : VcMade :=
  let v := s.vc i
  let inp := dfield r.cmd 0x18 4 % 2 ^ 28
  let cur := v.coded (fun o => (s.apRead (s.vcTenant i) (inp + o) 1).getD 0 0) (dfield r.cmd 0x24 4)
  let refs := if u.typ = 1 then v.encRefs.map (s.vcRef i) else []
  ⟨v.split (maskEngines (s.vcMask i)).length, cur, refs, v.motion cur refs, [u.typ, u.qp, u.len, u.filler], if v.dirty && u.typ == 1 then s.fresh + 1 else 0⟩

/-- Publish the access unit, or stall. -/
def State.vcPublish (s : State) (i : Nat) (u : VcPub) : State :=
  let v := s.vc i
  match v.run with
  | none => s
  | some r =>
    match s.vcPlace i u.len with
    | none => s.setVc i { v with stall := some u }
    | some o =>
      let len := (u.len + 63) / 64 * 64
      let m := s.vcMade i r u
      let s1 := s.tick.vcPut i (s.vcOut i + 65536 + o) ((List.range u.len).map (v.unitByte m)) false
      let rec' := leBytes 4 o ++ leBytes 4 u.len ++ leBytes 8 (dfield r.cmd 0x10 8) ++ leBytes 1 u.typ ++ leBytes 1 u.qp ++
        leBytes 1 (u.flags + if v.tail / 1024 % 2 = 0 then 4 else 0) ++ leBytes 1 0 ++ leBytes 4 u.filler ++ leBytes 4 u.b ++ leBytes 4 (dfield r.cmd 0 4)
      let s2 := s1.vcPut i (s.vcOut i + 0x8000 + 32 * (v.tail % 1024)) rec' false
      let s3 := s2.vcPut i (s.vcOut i) (leBytes 4 (v.tail + 1) ++ leBytes 4 0 ++ leBytes 4 v.gen ++ leBytes 52 0) false
      let s4 := s3.vcPut i (s.vcBuf i (v.pics % (v.p 0x14 1 + 1))) (v.bufBytes ((List.range 3).map (v.recon m)) m.mvs v.unit) false
      let s5 := s4.setVc i { s4.vc i with tail := (v.tail + 1) % 2 ^ 32, live := v.live ++ [(o, len)], wpos := o + len, pics := v.pics + 1,
                                          retry := u.typ == 3, dirty := v.dirty && u.typ != 0 && u.typ != 3 }
      match r.inPoison.orElse fun _ => r.refPoison with
      | some off => (s5.vcPoison i off).vcDone i 4 0x45 u.len
      | none => s5.vcDone i 0 0 u.len

/-- A picture of `len` bytes is final: filler, the next B, publication. -/
def State.vcFinal (s : State) (i len typ qp flags : Nat) : State :=
  let v := s.vc i
  if v.constQp then s.vcPublish i ⟨len, typ, qp, flags, 0, 0⟩
  else
    let left := v.b - v.bytes len + v.delta
    let fill := if v.p 0x10 1 = 1 ∧ v.size < left then (left - v.size + 8 * v.scale - 1) / (8 * v.scale) else 0
    let b' := if v.p 0x10 1 = 1 then left - v.bytes fill else min v.size left
    let s1 := s.setVc i { v with b := b', fillers := v.fillers + b2n (fill != 0) }
    s1.vcPublish i ⟨len + fill, typ, qp, flags, fill, v.b / v.scale⟩

/-- Substitute a skip or flat intra picture of at most K bytes. -/
def State.vcSubstitute (s : State) (i : Nat) (intra : Bool) (flags : Nat) : State :=
  let v := s.vc i
  let sub := Config.vcSub v.par intra v.pics
  let len := 1 + sub.1 % v.k
  let qp := sub.2 % 256
  let s1 := (s.satFld (vcPg i) (F.VCE_SS_CNT_substituted (i % 16)) 1).setVc i { v with skips := v.skips + 1 }
  s1.vcFinal i len (if intra then 3 else 2) qp (flags + 2)

/-- ENCODE_PASS_DONE (R301, R309): a pass gave `len` bytes at mean QP `qp`. -/
def execEncodePassDone (i : Fin 64) (len : Nat) (qp : Fin 256) (s : State) : Host.Outcome State Fault Refusal :=
  .next <|
    let v := s.vc i
    match v.run with
    | none => s
    | some r =>
      if !v.encodes || v.stall.isSome then s
      else
        let intra := r.intra || r.refPoison.isSome
        let twice := if r.twice then 1 else 0
        let typ := if intra then 0 else 1
        if r.inPoison.isSome then s.vcSubstitute i intra twice
        else if v.constQp then s.vcFinal i len typ (v.p 0x13 1) 0
        else if v.bytes len ≤ v.b then
          s.vcFinal i len typ (if r.twice then v.p 0x12 1 else max (v.p 0x11 1) (min (v.p 0x12 1) qp.val)) twice
        else if r.twice then s.vcSubstitute i intra 1
        else
          ((s.satFld (vcPg i) (F.VCE_SS_CNT_recoded (i.val % 16)) 1).setVc i { v with recodes := v.recodes + 1, run := some { r with twice := true } }).vcControlLine i

/-- VCE_OUTPUT_HEAD_READ (R303): head as in 11 R277; a stalled engine goes on when there is room. -/
def execVceOutputHeadRead (i : Fin 64) (s : State) : Host.Outcome State Fault Refusal :=
  .next <|
    let v := s.vc i
    let n := s.vcTenant i
    let a := s.vcOut i + 0x40
    if !s.vcOn i || !v.encodes || s.tnState n == 3 || (s.apPoison n a 4).isSome then s
    else
      let h := leNat (s.apRead n a 4)
      let d := (h + 2 ^ 32 - v.head) % 2 ^ 32
      if d = 0 then s
      else if v.live.length < d then (s.countErr (vcPg i) 0x44 0xFF 0).flog n 1 0x06 0x44 0 0
      else
        let s1 := s.setVc i { v with head := h, live := v.live.drop d }
        match v.stall with
        | some u => (s1.setVc i { s1.vc i with stall := none }).vcPublish i u
        | none => s1

/-! Decoding (R304, R309). -/

/-- Write `n` bytes given by their offsets. -/
def State.vcFill (s : State) (i off n : Nat) (b : Nat → Byte) (ep : Bool) : State := s.vcPut i off ((List.range n).map b) ep

/-- VCE_DECODE_DONE: the picture goes to the command's buffer and, at the profile's format, to the work area; the bytes behind the end of a row are free. -/
def execVceDecodeDone (i : Fin 64) (r : DecIn) (s : State) : Host.Outcome State Fault Refusal :=
  .next <|
    let v := s.vc i
    match v.run with
    | none => s
    | some u =>
      if v.encodes then s
      else
        let fmt := v.p 6 1
        let size := vcPic fmt v.h (dfield u.cmd 0x24 4)
        let out := dfield u.cmd 0x20 4 % 2 ^ 28
        let refs := (List.range (v.p 0x14 1 + 1)).filter fun j => bitOf r.refs.toNat j
        let buf := r.buf.val % (v.p 0x14 1 + 1)
        let au := s.apRead (s.vcTenant i) (dfield u.cmd 0x18 4 % 2 ^ 28) (dfield u.cmd 0x1C 4)
        let pic := v.decoded fmt au (refs.map (s.vcRef i))
        let byte := picByte fmt v.w v.h (dfield u.cmd 0x24 4) (fun pl x y => (pic.getD pl []).getD (y * (planeDim fmt v.w v.h pl).1 + x) 0) (Config.freeByte s.fresh)
        let held := v.bufBytes (v.decoded v.refFmt au (refs.map (s.vcRef i))) [] v.unit
        let bad := u.inPoison.orElse fun _ => s.vcRefPoison i refs
        let q := if r.newSeq then (v.seq + 1) % 2 ^ 14 else v.seq
        let res := r.poc.toNat + 2 ^ 16 * q + (if r.concealed then 2 ^ 30 else 0) + (if r.noPicture then 2 ^ 31 else 0)
        match bad with
        | some off => ((((s.tick.vcFill i out size byte true).vcPut i (s.vcBuf i buf) held true).setVc i { (s.vc i) with seq := q }).vcPoison i off).vcDone i 4 0x45 res
        | none =>
          match r.exceeded with
          | some o => s.vcDone i 5 (0x100 + o.val) 0
          | none =>
            let s1 := if r.noPicture then s else s.tick.vcFill i out size byte false
            let s2 := if v.p 0 1 = 1 ∧ r.grain ≠ [] then s1.emit (.filmGrain i r.grain) else s1
            ((s2.vcPut i (s.vcBuf i buf) held false).setVc i { v with seq := q }).vcDone i 0 0 res

/-! Enable and disable (R290, R305, R307, R310). -/

/-- A legal engine mask of lead engine n. -/
def vcMaskOk (m n : Nat) : Bool := bitOf m n && (m == 2 ^ n || m == 3 || m == 12 || m == 15)

/-- A run of slots maps consecutive unbound compartments of tenant n with a use. -/
def State.vcRunOk (s : State) (n slot count use : Nat) : Bool :=
  match s.slotComp n slot with
  | none => false
  | some c0 => decide (0 < count) && (List.range count).all fun j => s.slotComp n (slot + j) == some (c0 + j) && (s.comp (c0 + j)).use == use && !(s.comp (c0 + j)).bound

/-- The cause and detail that refuse an enable. The control run is checked before its block is read, and the other runs after it. -/
def State.vcRefuse (s : State) (i : Nat) (v : VcSt) : Option (Nat × Nat) :=
  let n := s.vcTenant i
  let es := maskEngines (s.vcMask i)
  let need := s.vcf i F.VCE_SS_WORK_count * 65536
  let area := s.vcArea i
  let rate := (v.w * v.h * v.p 0x28 4 + v.p 0x2C 4 * es.length - 1) / (v.p 0x2C 4 * es.length)
  if !s.bound n || s.tnState n != 2 || qf s n (s.vcQueue i) F.Q_SQ_CFG_enable == 0 || s.qState n (s.vcQueue i) != 1 then some (1, 0)
  else if !s.vcRunOk n (s.vcf i F.VCE_SS_CTLSLOT_slot) 1 4 then some (2, 0)
  else if !vcMaskOk (s.vcMask i) (i / 16) then some (3, 5)
  else match v.bad es.length with
    | some o => some (3, o)
    | none =>
      if !s.vcRunOk n (s.vcf i F.VCE_SS_WORK_slot) (s.vcf i F.VCE_SS_WORK_count) 5 || decide (need < v.work) ||
        (v.encodes && (!s.vcRunOk n (s.vcf i F.VCE_SS_OUT_slot) (s.vcf i F.VCE_SS_OUT_count) 5 ||
          decide (area < if v.constQp then vcPic v.refFmt v.h (vcPitch v.refFmt v.w) else v.p 0x20 4 * 125))) then some (2, 0)
      else if es.any fun e => decide (500000000 < s.vcLoad e + rate) then some (4, 0)
      else if es.any fun e => s.engine e == 3 || s.engine e == 4 || s.engine e == 2 then some (5, 0)
      else none

/-- Enable a session. -/
def State.vcEnable (s : State) (rq : Requester) (i : Nat) : State :=
  let n := s.vcTenant i
  let old := s.vc i
  let v : VcSt := { VcSt.reset with par := s.apRead n (s.vcCtl i) 256, gen := old.gen, cancel := leNat (s.apRead n (s.vcCtl i + 0x144) 1) }
  match s.vcRefuse i v with
  | some (c, d) =>
    (((s.setVcf i F.VCE_SS_STS_state 4).setVcf i F.VCE_SS_STS_cause c).setVcf i F.VCE_SS_STS_detail d).countErr (vcPg i) 0x40 (rqCode rq) (accessAddr rq (vcPg i) (0x100 + 32 * (i % 16))) |>.event (vcPg i) 0
  | none =>
    let s1 := s.setVc i { v with gen := old.gen + 1, b := if v.encodes && !v.constQp then v.b0 else 0 }
    let s2 := s1.each [F.VCE_SS_STS_cause, F.VCE_SS_STS_detail, F.VCE_SS_CNT_recoded, F.VCE_SS_CNT_substituted] fun f s => s.setVcf i f 0
    ((s2.bindComps (s2.vcComps i) true).setVcState i 1).vcLoads

/-- Disable a session: accepted commands complete CANCELLED, a running picture ends first. -/
def State.vcDisable (s : State) (i : Nat) : State :=
  if !s.vcOn i then s.setVcf i F.VCE_SS_STS_state 0
  else if s.vcState i = 5 then s.vcOff i
  else ((s.setVcState i 3).vcCancel i).vcFlush i 600

/-- The fields of a session that keep their values while it is enabled, with their place in the dwords. -/
def vcLive : List (Nat → Fld) := [F.VCE_SS_BIND_tenant, F.VCE_SS_BIND_queue, F.VCE_SS_BIND_engines]

/-- A write of VCE_SS_BIND; SS_CFG_LIVE as for a stream context (log entry 75). -/
def State.vcBindWrite (s : State) (rq : Requester) (i w : Nat) : State :=
  let val (f : Nat → Fld) : Nat := bits w (f 0).lo (f 0).len
  let s1 := if s.vcOn i then
      (if !bitOf w 31 && vcLive.all fun f => s.vcf i f == val f then s else s.countErr (vcPg i) 0x41 (rqCode rq) (accessAddr rq (vcPg i) (0x100 + 32 * (i % 16))))
    else s.each vcLive fun f s => s.setVcf i f (val f)
  let s2 := s1.setVcf i F.VCE_SS_BIND_enable (w / 2 ^ 31)
  if bitOf w 31 then (if s.vcOn i then s2 else s2.vcEnable rq i) else s2.vcDisable i

/-- VCE_SESSION_ENABLE. -/
def execVceSessionEnable (rq : Requester) (i : Fin 64) (v : Word) (s : State) : Host.Outcome State Fault Refusal :=
  .next <| if bitOf v.toNat 31 then s.privWrite rq (vcPg i) (0x100 + 32 * (i.val % 16)) fun s => s.vcBindWrite rq i v.toNat else s

/-- VCE_SESSION_DISABLE. -/
def execVceSessionDisable (rq : Requester) (i : Fin 64) (v : Word) (s : State) : Host.Outcome State Fault Refusal :=
  .next <| if bitOf v.toNat 31 then s else s.privWrite rq (vcPg i) (0x100 + 32 * (i.val % 16)) fun s => s.vcBindWrite rq i v.toNat

/-! Self-test and faults (R308, R309). -/

/-- Start a self-test of engine n, or refuse it. An OFFLINE engine may be tested again. -/
def State.vceBist (s : State) (rq : Requester) (n : Nat) : State :=
  if (s.engine n == 0 || s.engine n == 4) && !(List.range 64).any fun i => s.vcOn i && bitOf (s.vcMask i) n
  then (s.setEngine n 2).setFlag (P.vce n 0) F.VCE_CTL_bist true
  else (s.satFld (P.vce n 0) F.VCE_BIST_refused 1).countErr (P.vce n 0) 0x43 (rqCode rq) (accessAddr rq (P.vce n 0) 0x044)

/-- VCE_BIST. -/
def execVceBist (rq : Requester) (n : Fin 4) (s : State) : Host.Outcome State Fault Refusal :=
  .next <| s.privWrite rq (P.vce n 0) 0x044 fun s => s.vceBist rq n

/-- VCE_BIST_DONE. -/
def execVceBistDone (n : Fin 4) (pass : Bool) (s : State) : Host.Outcome State Fault Refusal :=
  .next <|
    if s.engine n ≠ 2 then s
    else ((((s.setEngine n (if pass then 0 else 4)).setFlag (P.vce n 0) F.VCE_CTL_bist false).setFlag (P.vce n 0) F.VCE_BIST_done true).setFlag (P.vce n 0)
      F.VCE_BIST_pass pass).event (P.vce n 0) 0

/-- Reset a FAILED engine; after a loss of VCLK it has no effect. -/
def State.vceReset (s : State) (n : Nat) : State := if s.engine n = 3 ∧ ¬ s.vclkLost then s.setEngine n 0 else s

/-- VCE_ENGINE_RESET. -/
def execVceEngineReset (rq : Requester) (n : Fin 4) (s : State) : Host.Outcome State Fault Refusal :=
  .next <| s.privWrite rq (P.vce n 0) 0x044 fun s => s.vceReset n

/-- Engine n goes to FAILED; its sessions fault. -/
def State.vceFail (s : State) (n : Nat) : State :=
  if s.engine n = 3 then s
  else
    let s1 := ((s.setEngine n 3).setFlag (P.vce n 0) F.VCE_CTL_bist false).event (P.vce n 0) 1
    s1.each ((List.range 64).filter fun i => s.vcOn i && s.vcState i != 5 && bitOf (s.vcMask i) n) fun i s =>
      let s2 := (s.vcDone i 0x0A n 0)
      if s2.vcOn i then ((s2.setVcState i 5).vcCancel i).event (vcPg i) 1 else s2

/-- VCE_ENGINE_FAULT. -/
def execVceEngineFault (n : Fin 4) (s : State) : Host.Outcome State Fault Refusal := .next (s.vceFail n)

/-! Resets (R307). -/

/-- The sessions of tenant n. -/
def State.vcOf (s : State) (n : Nat) : List Nat := (List.range 64).filter fun i => s.vcOn i && s.vcTenant i == n

/-- The start of a reset of tenant n: running pictures are abandoned, with no entry. -/
def State.vcTenantStart (s : State) (n : Nat) : State :=
  s.each (s.vcOf n) fun i s =>
    if (s.vc i).run.isNone then s.setVc i { s.vc i with ended := [] }
    else
      let s1 := (s.setVc i { s.vc i with run := none, stall := none, ended := [] }).vcReserve i false
      let s2 := s1.each (maskEngines (s.vcMask i)) fun e s => if s.engine e = 1 then (s.setEngine e 0).setFld (P.vce e 0) F.VCE_STS_session 0 else s
      if s2.vcState i = 2 then s2.setVcf i F.VCE_SS_STS_state 1 else s2

/-- The absorb point of a reset of tenant n, before its compartments are cleared. -/
def State.vcTenantAbsorb (s : State) (n : Nat) : State :=
  s.each (s.vcOf n) fun i s => (s.setVcf i F.VCE_SS_BIND_enable 0).vcOff i

end Sys2Proof.Machine
end

