-- ==== Sys2Proof/Machine/Mapping.lean ====
section
/-! DEFINITION. Power domains and their ramps (15 R356, R357, R360, R366), the logical mapping of clusters (04 R80, R81) and what a core or a cluster marked bad leads to (04 R82, R84, R93; 14 R344). -/
namespace Sys2Proof.Machine

/-! Bring-up status. -/

/-- Logical cores with verified images: online, and past their fetch. -/
def State.verified (s : State) : Nat :=
  ((List.range 448).filter fun g => s.online g && decide (2 ≤ s.coreSt (s.physOf g) ∧ s.coreSt (s.physOf g) ≤ 5)).length

/-- BOOT_STS as a dword. -/
def State.bootSts (s : State) : Nat :=
  let f := s.fld P.boot
  f F.BOOT_STS_stage + 2 ^ 4 * f F.BOOT_STS_ready + 2 ^ 5 * f F.BOOT_STS_failed + 2 ^ 6 * f F.BOOT_STS_degraded +
  2 ^ 7 * f F.BOOT_STS_wait_push + 2 ^ 8 * f F.BOOT_STS_slot + 2 ^ 9 * f F.BOOT_STS_src + 2 ^ 11 * s.verified +
  2 ^ 20 * f F.BOOT_STS_tiles_fenced

/-- BOOT_ERR as a dword. -/
def State.bootErrVal (s : State) : Nat :=
  s.fld P.boot F.BOOT_ERR_code + 2 ^ 8 * s.fld P.boot F.BOOT_ERR_detail + 2 ^ 20 * s.fld P.boot F.BOOT_ERR_step

/-- The step in progress. -/
def State.stage (s : State) : Nat := s.fld P.boot F.BOOT_STS_stage

/-- BOOT_TIME now: milliseconds from the release of HP0. -/
def State.bootMs (s : State) : Nat := min 65535 ((s.now - s.boot.start) / 1000000)

/-- The variant fuses in BOOT_REV and BOOT_VARIANT, and the fused limits in PWR_LIMIT, PWR_STS.cap and PWR_T_REQ.opp_req (04 R85; 00 R1-R3, R10): the reset value F of these fields. -/
def State.fuseLoad (s : State) : State :=
  let b := s.board
  let top := (b.tclk - 600) / 50
  let s1 := ((((((s.setFld P.boot F.BOOT_REV_variant b.variant).setFld P.boot F.BOOT_VARIANT_tclk_max_mhz b.tclk).setFld P.boot F.BOOT_VARIANT_p_sust b.pSust).setFld
    P.boot F.BOOT_VARIANT_p_peak b.pPeak).setFld P.boot F.BOOT_VARIANT_peak_ms b.peakMs).setFld P.pwr F.PWR_LIMIT_p_sust b.pSust).setFld
    P.pwr F.PWR_LIMIT_p_peak b.pPeak
  (s1.setFld P.pwr F.PWR_STS_cap top).each (List.range 8) fun t s => s.setFld (P.pwrT t) F.PWR_T_REQ_opp_req top

/-- A BOOT record of the Trail (17 R411). -/
def State.bootTrail (s : State) (sev : Nat) : State :=
  s.trailPut 0x01 0x0D sev [s.bootSts, s.bootErrVal, s.fld P.boot F.BOOT_TIME_ms, s.fld P.boot F.BOOT_FW_VER_fw_version]

/-- A boot error is recorded (04 R97), with its Trail record. -/
def State.bootErr (s : State) (code detail step : Nat) : State :=
  (((s.setFld P.boot F.BOOT_ERR_code code).setFld P.boot F.BOOT_ERR_detail detail).setFld P.boot F.BOOT_ERR_step step).bootTrail 2

/-! Power domains: K of cluster c is domain c, CS of (c, p) is 8 + 8c + p, CL of (c, p) is 72 + 8c + p, which is the slot order of 15 R360. -/

/-- The cluster of a domain. -/
def domClu (i : Nat) : Nat := if i < 8 then i else if i < 72 then (i - 8) / 8 else (i - 72) / 8
/-- The physical core of a CS or CL domain. -/
def domP (i : Nat) : Nat := (i - 8) % 8
/-- 0 K, 1 CS, 2 CL. -/
def domType (i : Nat) : Nat := if i < 8 then 0 else if i < 72 then 1 else 2

def State.dom (s : State) (t i : Nat) : Nat := s.fld (P.pwrT t) (domFld i)
def State.setDom (s : State) (t i v : Nat) : State := s.setFld (P.pwrT t) (domFld i) v

/-- The ramp of a domain: 0 none, else its stage, plus 8 with the virtual rail at 90 %, plus 16 with the dwell of stage 3 expired. -/
def State.ramp (s : State) (t i : Nat) : Nat := Tab.get nat0 s.ramps (136 * t + i)
def State.setRamp (s : State) (t i v : Nat) : State := { s with ramps := Tab.set nat0 s.ramps (136 * t + i) v }

def State.regOn (s : State) (t : Nat) : Bool := s.flag (P.pwrT t) F.PWR_T_STS_reg_on

/-- The common domain of a cluster is bad (04 R81). -/
def State.commonBad (s : State) (cl : Nat) : Bool :=
  s.boot.facts.any fun f => f.kind == 2 && f.tile == cl / 8 && f.cluster == cl % 8

/-- Whether domain i of tile t is to be ON (15 R356). -/
def State.domDue (s : State) (t i : Nat) : Bool :=
  let cl := 8 * t + domClu i
  let st := s.fld (P.clu cl) (F.CLU_PHYS_state (domP i))
  s.regOn t && !s.commonBad cl &&
  match domType i with
  | 0 => true
  | 1 => decide (st < 2)
  | _ => st == 0

/-- Domains that are due and OFF are queued to ramp; domains that are not due are OFF. A shorted domain keeps its state (R366). -/
def State.domSync (s : State) (t : Nat) : State :=
  s.each (List.range 136) fun i s =>
    if s.dom t i = 4 then s
    else if s.domDue t i then (if s.dom t i = 0 then s.setDom t i 1 else s)
    else (s.setDom t i 0).setRamp t i 0

/-- Concurrent ramps of a tile (R360). -/
def State.rampSlots (s : State) (t : Nat) : Nat := min 4 (max 1 (s.fld (P.pwrT t) F.PWR_T_RAMP_CFG_slots))

/-- DOMAIN_RAMP_START: the first queued domain whose K domain is ON takes a free slot and closes stage 1. -/
def execDomainRampStart (t : Fin 8) (s : State) : Host.Outcome State Fault Refusal :=
  .next <|
    if s.rampSlots t ≤ ((List.range 136).filter fun i => s.dom t i == 2).length then s
    else match (List.range 136).find? fun i => s.dom t i == 1 && (decide (i < 8) || s.dom t (domClu i) == 3) with
      | some i => (s.setDom t i 2).setRamp t i 1
      | none => s

/-- RAMP_STAGE_DWELL: the next stage closes; stage 4 also needs the rail; after stage 4 the domain is ON. -/
def execRampStageDwell (t : Fin 8) (dom : Fin 136) (s : State) : Host.Outcome State Fault Refusal :=
  .next <|
    let r := s.ramp t dom
    if s.dom t dom ≠ 2 then s
    else match r % 8 with
      | 3 => s.setRamp t dom (if bitOf r 3 then 4 + 8 else 3 + 16)
      | 4 => (s.setDom t dom 3).setRamp t dom 0
      | k => s.setRamp t dom (r + (if k < 3 then 1 else 0))

/-- VIRTUAL_RAIL_90: stage 4 closes if stage 3 has dwelt. -/
def execVirtualRail90 (t : Fin 8) (dom : Fin 136) (s : State) : Host.Outcome State Fault Refusal :=
  .next <|
    let r := s.ramp t dom
    if s.dom t dom ≠ 2 then s
    else if bitOf r 4 then s.setRamp t dom (4 + 8)
    else s.setRamp t dom (if bitOf r 3 then r else r + 8)

/-! The mapping of a cluster (04 R81). -/

/-- Physical core of each logical core, online mask, spare, and CLU_PHYS state of each physical core. -/
structure CluMap where
  phys : List Nat
  online : Nat
  spare : Option Nat
  st : List Nat
deriving DecidableEq, Repr

/-- What marking a core bad changes. -/
inductive MapEff where
  | nothing
  | spareLost
  | takeover (l sp : Nat)
  | offline (l : Nat)
deriving DecidableEq, Repr

/-- The base mapping from a bad-core mask: the first seven good cores in ascending order, and the spare if eight are good. -/
def CluMap.base (bad : Nat) : CluMap :=
  let good := (List.range 8).filter fun p => !bitOf bad p
  let sp := good[7]?
  ⟨good.take 7, 2 ^ (good.take 7).length - 1, sp, (List.range 8).map fun p => if bitOf bad p then 2 else if sp = some p then 1 else 0⟩

/-- An entry that marks physical core p bad. -/
def CluMap.bad (m : CluMap) (p : Nat) : CluMap × MapEff :=
  if 2 ≤ m.st.getD p 2 then (m, .nothing)
  else
    let st := m.st.set p 3
    if m.spare = some p then ({ m with spare := none, st }, .spareLost)
    else match (List.range 7).find? fun l => bitOf m.online l && m.phys.getD l 8 == p with
      | none => ({ m with st }, .nothing)
      | some l =>
        match m.spare with
        | some sp => ({ m with phys := m.phys.set l sp, spare := none, st := st.set sp 0 }, .takeover l sp)
        | none => ({ m with online := putBit m.online l false, st }, .offline l)

/-- An entry for the common domain: no logical core, no spare. -/
def CluMap.common (m : CluMap) : CluMap :=
  { m with online := 0, spare := none, st := m.st.map fun v => if v = 2 then 2 else 3 }

/-- One entry of the field map, applied to its cluster's mapping. -/
def CluMap.fact (m : CluMap) (f : FieldFact) : CluMap :=
  match f.kind with
  | 0 => (m.bad f.p).1
  | 2 => m.common
  | _ => m

/-- The mapping in CLU_MAP and CLU_PHYS. -/
def State.cluMap (s : State) (cl : Nat) : CluMap :=
  let pg := P.clu cl
  ⟨(List.range 7).map fun l => s.fld pg (F.CLU_MAP_phys l), s.fld pg F.CLU_MAP_online,
   if s.flag pg F.CLU_MAP_spare_valid then some (s.fld pg F.CLU_MAP_spare_phys) else none,
   (List.range 8).map fun p => s.fld pg (F.CLU_PHYS_state p)⟩

def State.setCluMap (s : State) (cl : Nat) (m : CluMap) : State :=
  let pg := P.clu cl
  let s1 := s.each (List.range 7) fun l s => s.setFld pg (F.CLU_MAP_phys l) (m.phys.getD l 0)
  let s2 := ((s1.setFld pg F.CLU_MAP_online m.online).setFlag pg F.CLU_MAP_spare_valid m.spare.isSome).setFld pg
    F.CLU_MAP_spare_phys (m.spare.getD 0)
  s2.each (List.range 8) fun p s => s.setFld pg (F.CLU_PHYS_state p) (m.st.getD p 2)

/-- The mapping of every cluster of tile t from its fuse maps and the field map, in record order. -/
def State.mapTile (s : State) (t : Nat) : State :=
  s.each (List.range 8) fun c s =>
    let fs := s.boot.facts.filter fun f => f.tile == t && f.cluster == c
    s.setCluMap (8 * t + c) (fs.foldl CluMap.fact (CluMap.base (Tab.get nat0 s.board.badCore (8 * t + c))))

/-- TILE_STS is recomputed at bring-up and at a tile reset. -/
def State.tileCount (s : State) (t : Nat) : State :=
  let on := ((List.range 56).filter fun i => s.online (56 * t + i)).length
  let good := ((List.range 64).filter fun i => s.sliceServes (64 * t + i)).length
  (s.setFld (P.tile t) F.TILE_STS_cores_online on).setFld (P.tile t) F.TILE_STS_slices_good good

/-! A core or a cluster leaves service. -/

/-- Everything a core reset clears in physical core x (07 R191): registers, tokens, queues, stores, firmware and model ranges. The core is off. -/
def State.coreWipe (s : State) (x : Nat) : State :=
  let ls := s.loadsOf x
  let s1 := s.each (List.range 8) fun k s => s.rezDrop x k
  let s2 := (((s1.clearStores x).resLoseCore x).setLoads x []).setFlag (P.mov x) F.MOV_STS_loading false
  let s3 := s2.each ls fun l s => s.loadCheck l.res l.desc
  let pg := P.core x
  (((((s3.setCore x Core.reset).setFld pg F.CORE_STS_state 0).setFld pg F.CORE_STS_rank 0).setFld pg F.CORE_STS_width 0).setFld pg
    F.CORE_STS_tenant 0).setFlag pg F.CORE_STS_rezinv false

/-- Physical core x starts step 11 (04 R84) if it is exposed. -/
def State.coreBoot (s : State) (x : Nat) : State :=
  if (s.logicalOf x).isSome then s.setFld (P.core x) F.CORE_STS_state 1 else s

/-- Logical core g is online from now on with the spare's slice: its near window takes the Own backing with its granules clear, where that slice is in the set and backs no other window; else a stand-in, or Unbacked (14 R344, 09 R225). -/
def State.takeoverNear (s : State) (g y : Nat) : State :=
  match s.cluPart (g / 7) with
  | none => s.setBacking g .own
  | some p =>
    let m := s.pm p
    let n := m.z / 4096
    if m.set.contains y && s.sliceServes y && !s.near.any fun e => e.2 == .standin y then
      { s with slices := s.slices.clear (y * 32768) n }.setBacking g .own
    else match pickStandin (g / 7) (s.idleRegions m.set) with
      | some r => { s with slices := s.slices.clear (r * 32768) n }.setBacking g (.standin r)
      | none => s.setBacking g .unbacked

/-- A logical core goes offline: CLU event, and CORE_OFFLINE for the first one of a boot (04 R97). -/
def State.offlineNote (s : State) (cl g : Nat) : State :=
  let s1 := s.event (P.clu cl) 0
  if s.ready || s.boot.offlined then s1
  else { s1 with boot := { s1.boot with offlined := true } }.bootErr 0x0F g s.stage

/-- Physical core x is bad from now on (04 R81): the spare takes its logical core over, or the logical core goes offline, or the cluster loses its spare. -/
def State.markCore (s : State) (x : Nat) : State :=
  let cl := x / 8
  let r := (s.cluMap cl).bad (x % 8)
  let s1 := s.setCluMap cl r.1
  match r.2 with
  | .nothing => s1
  | .spareLost => ((s1.coreWipe x).spareUnassign x).domSync (cl / 8)
  | .takeover l sp =>
    let y := 8 * cl + sp
    let s2 := (((s1.coreWipe x).spareUnassign y).clearStores y).domSync (cl / 8)
    ((s2.takeoverNear (7 * cl + l) y).coreBoot y).event (P.clu cl) 1
  | .offline l => (((s1.coreWipe x).setBacking (7 * cl + l) .own).domSync (cl / 8)).offlineNote cl (7 * cl + l)

/-- The common domain of a cluster is bad: every logical core of it goes offline and the spare is lost. -/
def State.markCluster (s : State) (cl : Nat) : State :=
  let gs := (List.range 7).map (7 * cl + ·) |>.filter s.online
  let sp := s.spareOf cl
  let s1 := s.setCluMap cl (s.cluMap cl).common
  let s2 := s1.each (List.range 8) fun p s => s.coreWipe (8 * cl + p)
  let s3 := match sp with | some y => s2.spareUnassign y | none => s2
  (s3.each gs fun g s => (s.setBacking g .own).offlineNote cl g).domSync (cl / 8)

/-- The effect of a new fact on cores (kinds 0 and 2). -/
def State.applyFact (s : State) (f : FieldFact) : State :=
  match f.kind with
  | 0 => s.markCore (64 * f.tile + 8 * f.cluster + f.p)
  | 2 => s.markCluster (8 * f.tile + f.cluster)
  | _ => s

/-- DOMAIN_SHORT (R366, 04 R93): the ramp aborts, the domain goes to FAULT_SHORT, and the core or the cluster is bad with cause FAULT_SHORT. -/
def execDomainShort (t : Fin 8) (dom : Fin 136) (rail : Bool) (s : State) : Host.Outcome State Fault Refusal :=
  .next <|
    if s.dom t dom ≠ 2 then s
    else
      let pg := P.pwrT t
      let stage := s.ramp t dom % 8
      let ty := domType dom
      let p := if ty = 0 then 0 else domP dom
      let s1 := ((s.setDom t dom 4).setRamp t dom 0)
      let s2 := ((((((s1.setFld pg F.PWR_T_SHORT_cluster (domClu dom)).setFld pg F.PWR_T_SHORT_type ty).setFld pg
        F.PWR_T_SHORT_p p).setFld pg F.PWR_T_SHORT_stage (stage - 1)).setFlag pg F.PWR_T_SHORT_cause rail).setFlag pg
        F.PWR_T_SHORT_valid true).event pg 1
      let v := domClu dom + 2 ^ 3 * ty + 2 ^ 5 * p + 2 ^ 8 * (stage - 1) + 2 ^ 10 * b2n rail + 2 ^ 31
      let s3 := s2.trailPut 0x06 0x0B 2 [0, t, v]
      let f : FieldFact := ⟨t, if ty = 0 then 2 else 0, domClu dom, p, 3⟩
      (s3.addFact f).applyFact f

/-- The pending substitutions of cluster cl take effect, in the order of their commands (14 R344). -/
def State.subsApply (s : State) (cl : Nat) : State :=
  let mine := s.subs.filter fun f => f.tile == cl / 8 && f.cluster == cl % 8
  let s1 := { s with subs := s.subs.filter fun f => !(f.tile == cl / 8 && f.cluster == cl % 8) }
  s1.each mine fun f s => s.applyFact f

/-- A substitution of the cluster waits for the self-test of its spare's stores (13 R328). -/
def State.subsHeld (s : State) (cl : Nat) : Bool :=
  (s.subs.any fun f => f.tile == cl / 8 && f.cluster == cl % 8) &&
  match s.spareOf cl with | some y => s.storesTested y | none => false

end Sys2Proof.Machine
end

