-- ==== Sys2Proof/Machine/Partitions.lean ====
section
/-! DEFINITION. Partitions (14 R331-R333, R350): the checks of a build, BUILD, DISSOLVE, and what PT_CMD answers. -/
namespace Sys2Proof.Machine

def State.setPtState (s : State) (p v : Nat) : State := s.setFld (P.pt p) F.PT_STS_state v

/-- DISP_STS.paused bit p. -/
def State.setPaused (s : State) (p : Nat) (v : Bool) : State := s.setBit (P.disp 0) F.DISP_STS_paused p v

/-- The checks of R332 before the layout: 1 CLUSTERS, 2 COMPANION. -/
def State.ptCheck (s : State) (p : Nat) : Option Nat :=
  let cls := s.partClusters p
  let others := (List.range 8).filter fun q => q != p && s.ptState q != 0
  if cls.isEmpty || cls.any (fun cl => s.fenced (cl / 8) || others.any fun q => s.inMask q cl) then some 1
  else if others.any fun q => (s.fld (P.pt p) F.PT_CFG_companion &&& s.fld (P.pt q) F.PT_CFG_companion) != 0 then some 2
  else none

/-- A slice of the partition that would be included is under self-test (13 R328). -/
def State.ptTested (s : State) (p : Nat) : Bool :=
  (s.slicesUnder p).any fun x => s.sliceState x == 1 && s.flag (P.scbP x) F.SCB_BIST_start

/-- A PT_CMD command ends with a result. -/
def State.ptCmdEnd (s : State) (p result : Nat) : State :=
  ((s.setFld (P.pt p) F.PT_STS_result result).setFlag (P.pt p) F.PT_CMD_go false).event (P.pt p) 0

/-- A BUILD goes on once no included slice is under test: the checks, the layout, RUNNING. A refused BUILD leaves NONE. -/
def State.buildTry (s : State) (p : Nat) : State :=
  if s.ptState p != 1 || s.ptTested p then s
  else match s.ptCheck p with
    | some r => (s.setPtState p 0).ptCmdEnd p r
    | none =>
      let r := s.rebuild p true false
      if r.2 then (r.1.setPtState p 2).ptCmdEnd p 0 else (r.1.setPtState p 0).ptCmdEnd p 3

/-- Start a BUILD. -/
def State.buildStart (s : State) (p : Nat) : State :=
  match s.ptCheck p with
  | some r => s.ptCmdEnd p r
  | none => (s.setPtState p 1).buildTry p

/-- The companion programs granted to a partition are told to stop, and lose their grants at their end; an idle grant goes at once (07 R192). -/
def State.ptUngrant (s : State) (p cause : Nat) : State :=
  s.each ((List.range 16).filter fun h => s.hpcGranted h && s.fld (P.hpc h) F.HPC_GRANT_partition == p) fun h s =>
    if s.hpcBusy h then { s.hpcStop h cause with hpcCause := Tab.set nat0 s.hpcCause h cause } else s.hpcFree h

/-- The spare stores of a partition's clusters lose their assignments and are cleared (08 R199, R217). -/
def State.ptUnspare (s : State) (p : Nat) : State :=
  s.each ((s.partClusters p).filterMap s.spareOf) fun y s => (s.spareUnassign y).clearStores y

/-- The partition no longer exists (R333): grants and spare assignments go, the budget is 0, its slices are in no set. -/
def State.ptDrop (s : State) (p : Nat) : State :=
  let s1 := ((s.ptUngrant p 6).ptUnspare p).nearReset p
  ((((s1.setPm p PartMem.none).setFld (P.hmp 2) (F.HMP_PT_BUDGET_budget p) 0).setPtState p 0).setFld (P.pt p) F.PT_STS_fault 0).setPaused p false

/-- DISSOLVE is accepted with no valid binding, no compartment and pool p OFF (R333). -/
def State.mayDissolve (s : State) (p : Nat) : Bool :=
  (s.tenantsOf p).isEmpty && s.fld (P.hmp 2) (F.HMP_PT_USED_used p) == 0 && s.poolState p == 0

end Sys2Proof.Machine
end

