-- ==== Sys2Proof/Machine/Integrity.lean ====
section
/-! DEFINITION. Scrubbers, correctable-error windows, memory self-test and the tenant fault log (13 R316-R321, R325, R328, R330). -/
namespace Sys2Proof.Machine

/-- The SCB page of a memory. -/
def scbPg : ScbId → Nat
  | .slice x => P.scbP x
  | .cluster cl => P.scbC cl
  | .hamper => P.scbH

/-- The page of an idle-cycle scrubber: a cluster's, or the Hamper's. -/
def idlePg : Option (Fin 64) → Nat
  | some cl => P.scbC cl
  | none => P.scbH

/-! Idle-cycle scrubbers (R317). -/

/-- The memory lines (by line number) that a scrubber visits, in ascending order, from its position on: valid lines, without the stores of power-gated cores. -/
def State.scrubLines (s : State) (cl : Option (Fin 64)) (pos : Nat) : List Nat :=
  match cl with
  | some c => (s.stores.valid.map (·.1)).filter fun l => l / 131072 == c.val && s.pagePowered (P.sto (l / 16384)) && decide (pos ≤ l % 131072)
  | none => (s.hmp.valid.map (·.1)).filter fun l => decide (pos ≤ l)

/-- Position of a line in its scrubber's index. -/
def scrubIdx (cl : Option (Fin 64)) (l : Nat) : Nat := match cl with | some _ => l % 131072 | none => l

/-- A lap ends: its duration, event bit 0, and the next one starts. The first lap started at ready (R329). -/
def State.lapEnd (s : State) (pg : Nat) : State :=
  let ms := (s.now - max s.boot.readyAt (Tab.get nat0 s.scrubStart pg)) / 1000000
  let s1 := ((s.setFld pg F.SCB_I_LAP_last_lap_ms (min 65535 ms)).setFlag pg F.SCB_I_LAP_incomplete false).event pg 0
  { s1 with scrubPos := Tab.set nat0 s1.scrubPos pg 0, scrubStart := Tab.set nat0 s1.scrubStart pg s1.now }

/-- What a scrubber finds in an SRAM line (R316, R319): a poisoned line counts nothing again. -/
def State.sramEcc (s : State) (cl : Option (Fin 64)) (l : Nat) (e : EccIn) : State :=
  match cl with
  | some c =>
    if s.stores.linePoison l then s
    else match e with
      | .corrected => s.sramCe (P.scbC c)
      | .uncorrectable => { s with stores := s.stores.setPoison l }.scbUe (P.scbC c) (l % 16384 * 64) (l / 16384 % 8)
      | _ => s
  | none =>
    if s.hmp.linePoison l then s
    else match e with
      | .corrected => s.sramCe P.scbH
      | .uncorrectable => { s with hmp := s.hmp.setPoison l }.scbUe P.scbH (64 * l) 0
      | _ => s

/-- IDLE_SCRUB_LINE: the next valid line; the lap ends after the last. Errors of demand reads of the Hamper and the stores enter here too (log entry 7). -/
def execIdleScrubLine (cl : Option (Fin 64)) (ecc : EccIn) (s : State) : Host.Outcome State Fault Refusal :=
  .next <|
    let pg := idlePg cl
    if !s.ready || !s.flag pg F.SCB_I_CTL_enable || s.unavailable pg then s
    else match s.scrubLines cl (Tab.get nat0 s.scrubPos pg) with
      | [] => s.lapEnd pg
      | l :: rest =>
        let s1 := { s.sramEcc cl l ecc with scrubPos := Tab.set nat0 s.scrubPos pg (scrubIdx cl l + 1) }
        if rest.isEmpty then s1.lapEnd pg else s1

/-- SCRUB_LAP_LIMIT: the lap passes lap_limit_ms. -/
def execScrubLapLimit (cl : Option (Fin 64)) (s : State) : Host.Outcome State Fault Refusal :=
  .next <|
    let pg := idlePg cl
    if !s.ready || !s.flag pg F.SCB_I_CTL_enable || s.flag pg F.SCB_I_LAP_incomplete then s
    else ((s.setFlag pg F.SCB_I_LAP_incomplete true).satFld pg F.SCB_I_LAP_laps_late 1).event pg 1

/-! Patrol scrubbers (R318). -/

/-- Lines of a slice. -/
def sliceLines : Nat := 2097152

/-- PATROL_SCRUB_STEP: the next line; a line of a clear or lost granule is skipped. -/
def execPatrolScrubStep (x : Fin 512) (ecc : EccIn) (s : State) : Host.Outcome State Fault Refusal :=
  .next <|
    let pg := P.scbP x
    if !s.ready || !s.flag pg F.SCB_P_CTL_enable || !s.sliceServes x || s.fenced (x / 64) then s
    else
      let l := Tab.get nat0 s.scrubPos pg
      let a := 64 * l
      let s1 := s.sliceEcc x a true ecc
      if l + 1 = sliceLines then
        (({ s1 with scrubPos := Tab.set nat0 s1.scrubPos pg 0 }.satFld pg F.SCB_P_STS_passes 1).setFld pg F.SCB_P_STS_pct 0).event pg 0
      else { s1 with scrubPos := Tab.set nat0 s1.scrubPos pg (l + 1) }.setFld pg F.SCB_P_STS_pct (100 * (l + 1) / sliceLines)

/-! Correctable-error windows (R321). -/

/-- The window ends, and the next starts with a count of 0. -/
def State.ceWindowEnd (s : State) (pg : Nat) : State :=
  { s.setFld pg F.SCB_CE_CNT_window_ce 0 with ceStart := Tab.set nat0 s.ceStart pg s.now }

/-- CE_WINDOW_END. -/
def execCeWindowEnd (m : ScbId) (s : State) : Host.Outcome State Fault Refusal := .next (s.ceWindowEnd (scbPg m))

/-- Hours in ns. -/
def hourNs : Nat := 3600000000000

/-- The threshold of a memory instance is reached. -/
def State.ceCross (s : State) (m : ScbId) : State :=
  match m with
  | .slice x => s.sliceCross x
  | _ => s.event (scbPg m) 1

/-- A write of SCB_CE_CFG: a change of ce_window_h applies to the current window, which ends at once if it is longer than that already. A threshold lowered to the count of the window or below is reached at the write (DEDUCED, log entry 76). -/
def State.ceCfgWrite (s : State) (rq : Requester) (m : ScbId) (v : Nat) : State :=
  let pg := scbPg m
  let th := bits v 0 16
  let h := bits v 16 8
  let was := s.fld pg F.SCB_CE_CFG_ce_thresh
  let same := was == th && s.fld pg F.SCB_CE_CFG_ce_window_h == h
  if s.flag pg F.PG_LOCK_locked then (if same then s else s.countErr pg 0x03 (rqCode rq) (accessAddr rq pg 0x04C))
  else
    let s1 := (s.setFld pg F.SCB_CE_CFG_ce_thresh th).setFld pg F.SCB_CE_CFG_ce_window_h h
    let n := s.fld pg F.SCB_CE_CNT_window_ce
    if h != s.fld pg F.SCB_CE_CFG_ce_window_h && decide (max 1 h * hourNs ≤ s.now - max s.boot.readyAt (Tab.get nat0 s.ceStart pg)) then s1.ceWindowEnd pg
    else if th != 0 && decide (th ≤ n) && (was == 0 || decide (n < was)) then s1.ceCross m else s1

/-- CE_WINDOW_WRITE. -/
def execCeWindowWrite (rq : Requester) (m : ScbId) (v : Word) (s : State) : Host.Outcome State Fault Refusal :=
  .next <| s.tileWrite rq (scbPg m) 0x04C (.ceWindow rq m v.toNat) fun s => s.ceCfgWrite rq m v.toNat

/-! Memory self-test (R328). -/

/-- Slice x lies in no hash set of a built partition. -/
def State.inNoSet (s : State) (x : Nat) : Bool := !(List.range 8).any fun p => s.ptState p != 0 && (s.pm p).set.contains x

/-- A refused request. -/
def State.bistRefuse (s : State) (rq : Requester) (pg : Nat) (page : Bool) : State :=
  let s1 := s.countErr pg 0x42 (rqCode rq) (accessAddr rq pg 0x050)
  if page then (s1.satFld pg F.SCB_BIST_refused 1).event pg 4 else s1

/-- A write of SCB_BIST with start; a test that runs already goes on with the core it began on. -/
def State.bistStart (s : State) (rq : Requester) (m : ScbId) (v : Nat) : State :=
  let pg := scbPg m
  match m with
  | .hamper => s.bistRefuse rq pg false
  | .slice x =>
    if s.flag pg F.SCB_BIST_start then s
    else if s.sliceState x == 4 || (s.sliceState x == 1 && s.inNoSet x) then s.setFlag pg F.SCB_BIST_start true
    else s.bistRefuse rq pg true
  | .cluster cl =>
    let p := bits v 1 3
    let s1 := s.setFld pg F.SCB_BIST_target p
    if s.flag pg F.SCB_BIST_start then s1
    else
      let y := 8 * cl.val + p
      if s.isSpare y && [0, 1, 2].all fun k => decide (s.spareNow y k < 128)
      then { s1.setFlag pg F.SCB_BIST_start true with bistCore := Tab.set spare0 s1.bistCore cl (some p) }
      else s1.bistRefuse rq pg true

/-- A write of SCB_BIST: without start it sets the target of a cluster page. -/
def State.bistWrite (s : State) (rq : Requester) (m : ScbId) (v : Nat) : State :=
  if bitOf v 0 then s.bistStart rq m v
  else match m with
    | .cluster _ => s.setFld (scbPg m) F.SCB_BIST_target (bits v 1 3)
    | _ => s

/-- MEMORY_SELF_TEST. -/
def execMemorySelfTest (rq : Requester) (m : ScbId) (v : Word) (s : State) : Host.Outcome State Fault Refusal :=
  .next <| s.tileWrite rq (scbPg m) 0x050 (.selfTest rq m v.toNat) fun s => s.bistWrite rq m v.toNat

/-- SELF_TEST_DONE: every valid bit of the tested memory is clear; a failure writes a Trail record. A partition build that waited for the test goes on. -/
def execSelfTestDone (m : ScbId) (pass : Bool) (s : State) : Host.Outcome State Fault Refusal :=
  .next <|
    let pg := scbPg m
    if !s.flag pg F.SCB_BIST_start then s
    else
      let s1 := match m with
        | .slice x => { s with slices := s.slices.clear (x.val * 32768) 32768 }
        | .cluster cl =>
          match Tab.get spare0 s.bistCore cl with
          | some p => { s.clearStores (8 * cl.val + p) with bistCore := Tab.set spare0 s.bistCore cl none }
          | none => s
        | .hamper => s
      let s2 := (((s1.setFlag pg F.SCB_BIST_start false).setFlag pg F.SCB_BIST_done true).setFlag pg F.SCB_BIST_pass pass).event pg 3
      let s3 := if pass then s2 else s2.trailPut 0x08 0x1C 2 [2, pgId pg, s.fld pg F.SCB_BIST_target, 0]
      s3.each (List.range 8) fun p s => s.buildTry p

/-! The fault log (R325, R330). -/

/-- FL_TAIL and every entry of tenant n read 0. -/
def State.flogClear (s : State) (n : Nat) : State :=
  (s.setFld (P.ten n 10) F.FL_TAIL_count 0).each (List.range 512) fun i s => s.setFld (P.ten n 10) (F.FL_ENTRY_dword i) 0

/-- FAULT_LOG_CLEAR: a privileged write of FL_CTL.clear. -/
def execFaultLogClear (rq : Requester) (n : Fin 128) (s : State) : Host.Outcome State Fault Refusal :=
  .next <| s.privWrite rq (P.ten n 10) 0x044 fun s => s.flogClear n

end Sys2Proof.Machine
end

