-- ==== Sys2Proof/Machine/Streams.lean ====
section
/-! DEFINITION. The stream port (11): KSF datagrams, sequence windows, frames and records in stream rings, flow control and the coast, ports, stream contexts. -/
namespace Sys2Proof.Machine

def sk0 : Nat → SkSt := fun _ => SkSt.reset
def eth0 : Nat → EthPort := fun _ => EthPort.reset
def State.sk (s : State) (k : Nat) : SkSt := Tab.get sk0 s.sks k
def State.setSk (s : State) (k : Nat) (v : SkSt) : State := { s with sks := Tab.set sk0 s.sks k v }
def State.eth (s : State) (n : Nat) : EthPort := Tab.get eth0 s.eths n
def State.setEth (s : State) (n : Nat) (v : EthPort) : State := { s with eths := Tab.set eth0 s.eths n v }

/-- A register field of stream k. -/
def State.skf (s : State) (k : Nat) (f : Nat → Fld) : Nat := s.fld (P.stream k) (f (k % 64))
def State.setSkf (s : State) (k : Nat) (f : Nat → Fld) (v : Nat) : State := s.setFld (P.stream k) (f (k % 64)) v
def State.satSkf (s : State) (k : Nat) (f : Nat → Fld) : State := s.satFld (P.stream k) (f (k % 64)) 1

/-- STP_SK_STS.state: 0 OFF, 1 IDLE, 2 FLOWING, 3 EASED, 4 HALTED, 5 STOPPED, 6 CFG_ERROR. -/
def State.skState (s : State) (k : Nat) : Nat := s.skf k F.STP_SK_STS_state
/-- Neither OFF nor CFG_ERROR. -/
def State.skOn (s : State) (k : Nat) : Bool := s.skState k != 0 && s.skState k != 6
def State.skTenant (s : State) (k : Nat) : Nat := s.skf k F.STP_SK_BIND_tenant
def State.skPort (s : State) (k : Nat) : Nat := s.skf k F.STP_SK_BIND_port

/-- Dr and A (R275), X and the EASE and RESUME levels (R280). -/
def State.skDr (s : State) (k : Nat) : Nat := (s.skf k F.STP_SK_RING_count - 1) * 65536
def State.skA (s : State) (k : Nat) : Nat := s.skDr k + s.skf k F.STP_SK_COAST_count * 65536
def State.skMax (s : State) (k : Nat) : Nat := s.skf k F.STP_SK_LIMIT_max_frame * 65536
def State.skX (s : State) (k : Nat) : Nat := s.skf k F.STP_SK_LIMIT_budget_kib * 1024 + s.skMax k
def SkSt.fill (v : SkSt) : Nat := v.live.sum
/-- Records in use: opened and not released. -/
def SkSt.inUse (v : SkSt) : Nat := v.live.length

/-! The ring in the Hamper (R275, R276). -/

/-- Aperture offset of data byte b. -/
def State.skData (s : State) (k b : Nat) : Nat :=
  let slot := if b < s.skDr k then s.skf k F.STP_SK_RING_slot + 1 + b / 65536 else s.skf k F.STP_SK_COAST_slot + (b - s.skDr k) / 65536
  slot * 65536 + b % 65536

/-- Aperture offset of the index compartment. -/
def State.skIndex (s : State) (k : Nat) : Nat := s.skf k F.STP_SK_RING_slot * 65536

/-- Write bytes at an aperture offset of the stream's tenant. -/
def State.skPut (s : State) (k off : Nat) (bs : List Byte) : State :=
  s.each (segs 64 off bs.length) fun g s =>
    match s.apAddr (s.skTenant k) g.1 with
    | some a => { s with hmp := s.hmp.wr a ((bs.drop (g.1 - off)).take g.2) false }
    | none => s

/-- Write bytes of the data area from data offset b, wrapping at A. -/
def State.skPutData (s : State) (k b : Nat) (bs : List Byte) : State :=
  let lim := s.skA k
  let n := min bs.length (lim - b % lim)
  let run (s : State) (b : Nat) (bs : List Byte) : State :=
    s.each (segs 65536 b bs.length) fun g s => s.skPut k (s.skData k g.1) ((bs.drop (g.1 - b)).take g.2)
  run (run s (b % lim) (bs.take n)) 0 (bs.drop n)

/-- The control line (R275). -/
def State.skControlLine (s : State) (k : Nat) : State :=
  let v := s.sk k
  s.skPut k (s.skIndex k) (leBytes 4 v.tail ++ leBytes 1 (s.skState k) ++ leBytes 3 0 ++ leBytes 4 (s.skf k F.STP_SK_EXPECT_value) ++ leBytes 4 v.fill ++
    leBytes 4 v.overs ++ leBytes 4 v.lost ++ leBytes 4 v.dup ++ leBytes 4 v.inc ++ leBytes 4 v.gen ++ leBytes 28 0)

/-- Registers that follow the stream's own state. -/
def State.skRegs (s : State) (k : Nat) : State :=
  let v := s.sk k
  ((s.setSkf k F.STP_SK_FILL_value v.fill).setSkf k F.STP_SK_STS_records v.inUse).setSkf k F.STP_SK_STS_open
    (v.frames.filter fun f => decide (f.got < f.len)).length

/-- A stream changes state: STP_STS.enabled and the control line follow. -/
def State.setSkState (s : State) (k st : Nat) : State :=
  if s.skState k = st then s
  else
    let was := b2n (s.skOn k)
    let s1 := s.setSkf k F.STP_SK_STS_state st
    (s1.setFld (P.stp 0) F.STP_STS_enabled (s1.fld (P.stp 0) F.STP_STS_enabled + b2n (s1.skOn k) - was)).skControlLine k

/-! Sending (R273, R280). -/

def State.ethUp (s : State) (n : Nat) : Bool := bitOf (s.fld (P.stp 0) F.STP_STS_link_up) n

/-- `n` bytes of a number, most significant first (00 R6). -/
def beBytes (n v : Nat) : List Byte := (leBytes n v).reverse

/-- A control datagram (R273): header and body. -/
def State.skBytes (s : State) (m : SkSend) : List Byte :=
  let v := s.sk m.k
  beBytes 1 (0x10 + m.typ) ++ beBytes 1 (b2n m.rep) ++ beBytes 2 (s.skf m.k F.STP_SK_BIND_stream_id) ++ beBytes 4 m.seq ++ beBytes 12 0 ++ beBytes 2 16 ++
  beBytes 2 0 ++ beBytes 4 (v.fill / 1024) ++ beBytes 4 ((s.skA m.k - v.fill) / 1024) ++ beBytes 4 (s.skf m.k F.STP_SK_EXPECT_value) ++
  beBytes 4 (s.skf m.k F.STP_SK_COASTUSED_value / 1024)

/-- Put a control datagram on the wire. -/
def State.skEmit (s : State) (m : SkSend) : State := s.emit (.ksf (s.skPort m.k) m.k (s.skf m.k F.STP_SK_BIND_peer) (s.skBytes m))

/-- Transmit: nothing on a link that is down; behind a received pause of the port's control priority it waits. -/
def State.skTransmit (s : State) (m : SkSend) : State :=
  let n := s.skPort m.k
  if !s.ethUp n then s
  else if bitOf (s.eth n).paused (s.fld (P.stp (1 + n)) F.STP_PORT_CTL_ctl_prio) then s.setEth n { s.eth n with held := (s.eth n).held ++ [m] }
  else s.skEmit m

/-- A new control datagram: its sequence is the control count, which rises. -/
def State.skControl (s : State) (k typ : Nat) : State :=
  let v := s.sk k
  let s1 := s.setSk k { v with ctl := (v.ctl + 1) % 2 ^ 32, cur := (typ, v.ctl), resume := if typ = 3 then some (v.ctl, 2) else v.resume }
  s1.skTransmit ⟨k, typ, false, v.ctl⟩

/-- The last control datagram again, with flag repeat. -/
def State.skRepeat (s : State) (k : Nat) : State := s.skTransmit ⟨k, (s.sk k).cur.1, true, (s.sk k).cur.2⟩

/-- The streams that hold PFC on a port and priority. -/
def State.skPausing (s : State) (n prio : Nat) : List Nat :=
  (List.range 512).filter fun k =>
    (s.skState k == 4 || s.skState k == 5) && s.skPort k == n && s.skf k F.STP_SK_BIND_pfc == 1 && s.skf k F.STP_SK_RING_prio == prio

/-- PFC with HALT. -/
def State.skPfcOn (s : State) (k : Nat) : State :=
  if s.skf k F.STP_SK_BIND_pfc = 1 ∧ s.ethUp (s.skPort k) then s.emit (.pfc (s.skPort k) (s.skf k F.STP_SK_RING_prio) 0xFFFF) else s

/-- Release PFC once no halted stream holds it. -/
def State.skPfcOff (s : State) (k : Nat) : State :=
  let n := s.skPort k
  let p := s.skf k F.STP_SK_RING_prio
  if s.skf k F.STP_SK_BIND_pfc = 1 ∧ (s.skPausing n p).isEmpty ∧ s.ethUp n then s.emit (.pfc n p 0) else s

/-! Records (R276, R278). -/

/-- Bytes 0 to len − 1 that no range covers. -/
def SkFrame.holes (f : SkFrame) : List Nat := (List.range f.len).filter fun i => !f.ranges.any fun r => decide (r.1 ≤ i) && decide (i < r.1 + r.2)

/-- The record of a frame. -/
def SkFrame.record (f : SkFrame) : List Byte :=
  leBytes 4 f.id ++ leBytes 4 f.len ++ leBytes 4 f.b ++ leBytes 4 f.got ++ leBytes 8 f.time ++ leBytes 4 f.lo ++ leBytes 1 (if f.got < f.len then 1 else 0) ++
  leBytes 1 ((if f.n / 1024 % 2 = 0 then 1 else 0) + (if f.coast then 2 else 0) + (if f.locked then 4 else 0) + (if f.reord then 8 else 0)) ++ leBytes 2 0

/-- Publish a frame: the missing bytes of an INCOMPLETE one are free values (R276). -/
def State.skPublish (s : State) (k : Nat) (f : SkFrame) : State :=
  let bad := decide (f.got < f.len)
  let s1 := if bad then
      let s1 := ((s.tick.each f.holes fun i t => t.skPutData k (f.b + i) [Config.freeByte s.fresh i]).satSkf k F.STP_SK_CNT1_incomplete).event (P.stream k) 3
      s1.setSk k { s1.sk k with inc := (s1.sk k).inc + 1 }
    else s
  let s2 := s1.skPut k (s1.skIndex k + 0x8000 + 32 * (f.n % 1024)) f.record
  (s2.setSk k { s2.sk k with tail := (s2.sk k).tail + 1, pub := f.id :: (s2.sk k).pub }).skControlLine k

/-- Publish the first `n` unpublished frames. -/
def State.skPublishN (s : State) (k n : Nat) : State :=
  let fs := (s.sk k).frames
  ((fs.take n).foldl (fun s f => s.skPublish k f) (s.setSk k { s.sk k with frames := fs.drop n })).skRegs k

/-- Publish the complete frames that no open frame precedes. -/
def State.skFlush (s : State) (k : Nat) : State := s.skPublishN k ((s.sk k).frames.takeWhile fun f => decide (f.len ≤ f.got)).length

/-- Sequence a lies below e, modulo 2^32. -/
def seqBelow (a e : Nat) : Bool := let d := (e + 2 ^ 32 - a % 2 ^ 32) % 2 ^ 32; d != 0 && decide (d < 2 ^ 31)

/-- Close every frame that precedes one of whose datagrams E has passed, then publish. -/
def State.skClose (s : State) (k : Nat) : State :=
  let e := s.skf k F.STP_SK_EXPECT_value
  let fs := (s.sk k).frames
  let n := (List.range fs.length).foldl (fun a i => match fs[i]? with | some f => if seqBelow f.lo e then i else a | none => a) 0
  (s.skPublishN k n).skFlush k

/-! The window (R279). -/

/-- E advances past every contiguous seen sequence. -/
def skAdvance : Nat → Nat → List Nat → Nat × List Nat
  | 0, e, l => (e, l)
  | f + 1, e, l => if l.contains e then skAdvance f ((e + 1) % 2 ^ 32) (l.filter (· != e)) else (e, l)

/-- Move E to `e` with the seen list `l`; `lost` sequences are declared lost. -/
def State.skMove (s : State) (k e : Nat) (l : List Nat) (lost : Nat) : State :=
  let r := skAdvance 1025 e l
  let s1 := s.setSk k { s.sk k with seen := r.2, est := true, lost := (s.sk k).lost + lost }
  (s1.setSkf k F.STP_SK_EXPECT_value r.1).satFld (P.stream k) (F.STP_SK_CNT1_lost (k % 64)) lost

/-- The cases of R279: whether the datagram is accepted. -/
def State.skSeq (s : State) (k q : Nat) : State × Bool :=
  let v := s.sk k
  if !v.est then (s.skMove k q [q] 0, true)
  else
    let e := s.skf k F.STP_SK_EXPECT_value
    let d := (q + 2 ^ 32 - e) % 2 ^ 32
    if d < 1024 then
      if v.seen.contains q then ((s.satSkf k F.STP_SK_CNT0_dup).setSk k { v with dup := v.dup + 1 }, false)
      else (s.skMove k e (q :: v.seen) 0, true)
    else if d < 2 ^ 31 then
      let e' := (q + 2 ^ 32 - 1023) % 2 ^ 32
      let gone := v.seen.filter fun a => seqBelow a e'
      (s.skMove k e' (q :: v.seen.filter fun a => !seqBelow a e') (d - 1023 - gone.length), true)
    else (s.satSkf k F.STP_SK_CNT0_late, false)

/-! Flow control (R280, R281). -/

/-- EASE, tested at an open and a release. -/
def State.skEase (s : State) (k : Nat) : State :=
  let v := s.sk k
  if s.skState k = 2 ∧ (s.skA k ≤ 2 * v.fill ∨ 512 ≤ v.inUse) then (s.setSkState k 3).skControl k 1 else s

/-- RESUME, tested at an open and a release. -/
def State.skResume (s : State) (k : Nat) : State :=
  let v := s.sk k
  if (s.skState k = 3 ∨ s.skState k = 4) ∧ 100 * v.fill < s.skf k F.STP_SK_LIMIT_resume_pct * s.skA k ∧ v.inUse < 256 then
    let s1 := (s.setSkState k 2).skControl k 3
    if s.skState k = 4 then s1.skPfcOff k else s1
  else s

/-- HALT after an open that reserved r bytes; in HALTED the coast grows. -/
def State.skHalt (s : State) (k r : Nat) : State :=
  let v := s.sk k
  if (s.skState k = 2 ∨ s.skState k = 3) ∧ (s.skA k - v.fill ≤ s.skX k ∨ 1024 - v.inUse ≤ 256) then
    ((((s.setSkf k F.STP_SK_COASTUSED_value r).satSkf k F.STP_SK_CNT3_halts).setSkState k 4).skControl k 2).skPfcOn k |>.event (P.stream k) 0
  else if s.skState k = 4 then s.satFld (P.stream k) (F.STP_SK_COASTUSED_value (k % 64)) r
  else s

/-! Releases (R277). -/

/-- Read head: released frames go; a value out of range is ignored and counted; poison is ignored. -/
def State.skHead (s : State) (k : Nat) : State :=
  let v := s.sk k
  let n := s.skTenant k
  let a := s.skIndex k + 0x40
  match s.apPoison n a 4 with
  | some _ => s
  | none =>
    let h := leNat (s.apRead n a 4)
    let d := (h + 2 ^ 32 - v.head % 2 ^ 32) % 2 ^ 32
    if d = 0 then s
    else if v.tail - v.head < d then (s.countErr (P.stream k) 0x41 0xFF 0).flog n 1 0x07 0x41 0 0
    else (((s.setSk k { v with head := v.head + d, live := v.live.drop d }).skRegs k).skResume k).skEase k

/-! Frames (R278, R282). -/

/-- A datagram of a frame is placed. Once two of its ranges have overlapped the frame's contents are free (R274). -/
def State.skPlace (s : State) (k id off q : Nat) (data : List Byte) : State :=
  let v := s.sk k
  match v.frames.find? (·.id == id) with
  | none => s
  | some f =>
    let dbl := f.dbl || f.ranges.any fun r => decide (r.1 < off + data.length) && decide (off < r.1 + r.2)
    let f1 := { f with got := f.got + data.length, lo := if f.ranges.isEmpty || seqBelow q f.lo then q else f.lo,
                       hi := if f.ranges.isEmpty || seqBelow f.hi q then q else f.hi,
                       reord := f.reord || (!f.ranges.isEmpty && seqBelow q f.hi), dbl, ranges := f.ranges ++ [(off, data.length)] }
    let s1 := if dbl then s.tick.skPutData k f.b ((List.range f.len).map (Config.freeByte s.fresh)) else s.skPutData k (f.b + off) data
    s1.setSk k { s1.sk k with frames := v.frames.map fun g => if g.n = f.n then f1 else g }

/-- Open a frame, or drop it whole. The device reads head where it lacks space or a record. -/
def State.skOpen (s : State) (k id len q : Nat) : State × Bool :=
  let r := (len + 63) / 64 * 64
  let room (s : State) : Bool := decide ((s.sk k).fill + r ≤ s.skA k) && decide ((s.sk k).inUse < 1024)
  let s := if room s then s else s.skHead k
  if !room s then
    let s1 := s.setSk k { s.sk k with dropId := some id, overs := (s.sk k).overs + 1 }
    (((((s1.satSkf k F.STP_SK_CNT2_overrun).countErr (P.stream k) 0x43 0xFF 0).flog (s.skTenant k) 1 0x07 0x43 0 0).event (P.stream k) 1).skControlLine k, false)
  else
    let openN (s : State) : List SkFrame := (s.sk k).frames.filter fun f => decide (f.got < f.len)
    let s1 := if (openN s).length < 4 then s
      else (s.skPublishN k (((s.sk k).frames.takeWhile fun f => decide (f.len ≤ f.got)).length + 1)).skFlush k
    let v := s1.sk k
    let s2 := (s1.setSk k { v with opened := v.opened + 1, rt := (v.rt + r) % s1.skA k, live := v.live ++ [r] }).skRegs k
    let s3 := ((s2.skHalt k r).skEase k).skResume k
    let f : SkFrame := ⟨v.opened, id, len, v.rt, 0, s.ptpNow, s.flag (P.stp 0) F.STP_STS_ptp_locked, q, q, s3.skState k == 4, false, false, []⟩
    (s3.setSk k { s3.sk k with frames := v.frames ++ [f] }, true)

/-- Big-endian number of bytes at an offset. -/
def beNum (b : List Byte) (o n : Nat) : Nat := leNat ((b.drop o).take n).reverse

/-- MALFORMED (R273). -/
def State.skBad (s : State) (k : Nat) (u : List Byte) : Bool :=
  let id := beNum u 8 4
  let len := beNum u 16 4
  let n := beNum u 20 2
  beNum u 0 1 != 0x10 || n != u.length - 24 || decide (len < beNum u 12 4 + n) || len == 0 ||
  ((s.sk k).frames.any fun f => f.id == id && f.len != len) || (s.sk k).pub.contains id

/-- A MALFORMED datagram of stream k. -/
def State.skMalformed (s : State) (n k : Nat) : State := (s.satFld (P.stp (1 + n)) F.STP_PORT_CNT1_malformed 1).satSkf k F.STP_SK_CNT3_malformed

/-- A datagram of an enabled stream (R278-R282). A restart keeps the IDs of the frames it closes as published, so that a datagram that names one of them starts no frame (R273, R274; log entry 40). -/
def State.skDatagram (s : State) (k : Nat) (u : List Byte) : State :=
  let q := beNum u 4 4
  let id := beNum u 8 4
  let len := beNum u 16 4
  let s := if bitOf (beNum u 1 1) 1 then
      let s1 := s.skPublishN k (s.sk k).frames.length
      s1.setSk k { s1.sk k with est := false, seen := [] }
    else s
  let r := s.skSeq k q
  if !r.2 then r.1
  else if (r.1.sk k).pub.contains id then r.1.skMalformed (s.skPort k) k
  else
    let s1 := if r.1.skState k = 1 then r.1.setSkState k 2 else r.1
    let s1 := if (s1.sk k).dropId.all (· == id) then s1 else s1.setSk k { s1.sk k with dropId := none }
    let data := u.drop 24
    let s2 :=
      if s1.skMax k < len then
        if (s1.sk k).dropId = some id then s1 else (s1.satSkf k F.STP_SK_CNT2_oversize).setSk k { s1.sk k with dropId := some id }
      else if (s1.sk k).frames.any (·.id == id) then s1.skPlace k id (beNum u 12 4) q data
      else if (s1.sk k).dropId = some id then s1
      else
        let o := s1.skOpen k id len q
        if o.2 then o.1.skPlace k id (beNum u 12 4) q data else o.1
    (s2.skFlush k).skClose k |>.skRegs k

/-- The enabled context a datagram belongs to (R272). -/
def State.skMatch (s : State) (n : Nat) (f : EthFrame) : Option Nat :=
  let pg := P.stp 3
  (List.range 512).find? fun k =>
    let j := s.skf k F.STP_SK_BIND_peer
    s.skOn k && s.skPort k == n && s.skf k F.STP_SK_BIND_stream_id == beNum f.udp 2 2 &&
    (!s.flag pg (F.STP_PEER_CTL_check_src j) ||
      (f.srcUdp.toNat == s.fld pg (F.STP_PEER_UDP_udp j) && f.ipv6 == s.flag pg (F.STP_PEER_CTL_ipv6 j) &&
        f.srcIp.toNat == (if f.ipv6 then s.fld pg (F.STP_PEER_IP3_ip j) + 2 ^ 32 * (s.fld pg (F.STP_PEER_IP2_ip j) + 2 ^ 32 *
          (s.fld pg (F.STP_PEER_IP1_ip j) + 2 ^ 32 * s.fld pg (F.STP_PEER_IP0_ip j))) else s.fld pg (F.STP_PEER_IP0_ip j))))

/-- Own addresses of a port. -/
def State.ethMac (s : State) (n : Nat) : Nat := s.fld (P.stp (1 + n)) F.STP_PORT_MAC_LO_value + 2 ^ 32 * s.fld (P.stp (1 + n)) F.STP_PORT_ADDR_mac_hi
def State.ethIp (s : State) (n : Nat) (v6 : Bool) : Nat :=
  let g := s.fld (P.stp (1 + n))
  if v6 then g F.STP_PORT_IP6_3_value + 2 ^ 32 * (g F.STP_PORT_IP6_2_value + 2 ^ 32 * (g F.STP_PORT_IP6_1_value + 2 ^ 32 * g F.STP_PORT_IP6_0_value))
  else g F.STP_PORT_IP4_value

/-- DATAGRAM_RECEIVE (R271-R273, R278-R282). -/
def execDatagramReceive (n : Fin 2) (f : EthFrame) (s : State) : Host.Outcome State Fault Refusal :=
  .next <|
    let pg := P.stp (1 + n)
    let v6 := s.flag pg F.STP_PORT_CTL_ipv6
    if !s.ethUp n then s
    else if !f.fcsOk || decide (f.macLen < 64) || decide (9238 < f.macLen) then s.satFld pg F.STP_PORT_CNT0_fcs 1
    else if f.kind == .pause then s
    else if f.kind == .nonIp then s.satFld pg F.STP_PORT_CNT1_other 1
    else if !f.plain then s.satFld pg F.STP_PORT_CNT1_malformed 1
    else if f.kind == .otherIp || f.ipv6 != v6 || f.dstMac.toNat != s.ethMac n || f.dstIp.toNat != s.ethIp n v6 then s.satFld pg F.STP_PORT_CNT1_other 1
    else if f.checksum == some false || (f.ipv6 && f.checksum.isNone) then s.satFld pg F.STP_PORT_CNT1_malformed 1
    else if f.dstUdp.toNat != s.fld pg F.STP_PORT_ADDR_udp then s.satFld pg F.STP_PORT_CNT1_other 1
    else if f.udp.length < 24 then s.satFld pg F.STP_PORT_CNT1_malformed 1
    else match s.skMatch n f with
      | none => s.satFld pg F.STP_PORT_CNT0_no_stream 1
      | some k =>
        if s.skState k = 5 then s
        else if s.skBad k f.udp then s.skMalformed n k
        else s.skDatagram k f.udp

/-- STREAM_HEAD_READ (R277, R280). -/
def execStreamHeadRead (k : Fin 512) (s : State) : Host.Outcome State Fault Refusal :=
  .next <| if s.skOn k && s.skState k != 5 then s.skHead k else s

/-- SEQUENCE_GAP_TIMEOUT (R279): E is declared lost, if a later sequence has been seen. -/
def execSequenceGapTimeout (k : Fin 512) (s : State) : Host.Outcome State Fault Refusal :=
  .next <|
    let v := s.sk k
    if !s.skOn k || s.skState k == 5 || !v.est || v.seen.isEmpty then s
    else ((s.skMove k ((s.skf k F.STP_SK_EXPECT_value + 1) % 2 ^ 32) v.seen 1).skClose k).skRegs k

/-- HALT_REPEAT (R280, R285). -/
def execHaltRepeat (k : Fin 512) (s : State) : Host.Outcome State Fault Refusal :=
  .next <| if s.skState k = 4 ∨ s.skState k = 5 then s.skRepeat k else s

/-- EASE_REPEAT (R280). -/
def execEaseRepeat (k : Fin 512) (s : State) : Host.Outcome State Fault Refusal :=
  .next <| if s.skState k = 3 then s.skRepeat k else s

/-- RESUME_REPEAT (R280). -/
def execResumeRepeat (k : Fin 512) (s : State) : Host.Outcome State Fault Refusal :=
  .next <|
    match (s.sk k).resume with
    | some (q, c) => if s.skOn k then (s.setSk k { s.sk k with resume := if c ≤ 1 then none else some (q, c - 1) }).skTransmit ⟨k, 3, true, q⟩ else s
    | none => s

/-- PFC_REFRESH (R280). -/
def execPfcRefresh (n : Fin 2) (prio : Fin 8) (s : State) : Host.Outcome State Fault Refusal :=
  .next <| if s.ethUp n && !(s.skPausing n prio).isEmpty then s.emit (.pfc n prio 0xFFFF) else s

/-- Transmission on a priority resumes: held datagrams go out. -/
def State.ethResume (s : State) (n prio : Nat) : State :=
  let e := s.eth n
  let s1 := s.setEth n { e with paused := putBit e.paused prio false }
  if s.fld (P.stp (1 + n)) F.STP_PORT_CTL_ctl_prio = prio then (s1.setEth n { s1.eth n with held := [] }).each e.held fun m s => s.skEmit m else s1

/-- PFC_RECEIVE (R271): a pause time of 0 ends the pause. -/
def execPfcReceive (n : Fin 2) (prio : Fin 8) (time : BitVec 16) (s : State) : Host.Outcome State Fault Refusal :=
  .next <| if !s.ethUp n then s else if time = 0 then s.ethResume n prio else s.setEth n { s.eth n with paused := putBit (s.eth n).paused prio true }

/-- PFC_PAUSE_EXPIRY (R271). -/
def execPfcPauseExpiry (n : Fin 2) (prio : Fin 8) (s : State) : Host.Outcome State Fault Refusal :=
  .next <| if bitOf (s.eth n).paused prio then s.ethResume n prio else s

/-- ARP_NS_REQUEST (R271). -/
def execArpNsRequest (n : Fin 2) (ns : Bool) (target : BitVec 128) (s : State) : Host.Outcome State Fault Refusal :=
  .next <|
    if !s.ethUp n then s
    else if target.toNat = s.ethIp n ns then s.emit (.neighbour n ns target.toNat)
    else s.satFld (P.stp (1 + n)) F.STP_PORT_CNT1_other 1

/-- PTP_MESSAGE (R271): the servo of device firmware may answer with a Delay_Req, set PTP time, and be locked after it, or not. -/
def execPtpMessage (n : Fin 2) (m : PtpIn) (s : State) : Host.Outcome State Fault Refusal :=
  .next <|
    if !s.ethUp n then s
    else
      let s1 := match m.time with | some t => { s with ptpOff := (t.toNat + 2 ^ 64 - s.now % 2 ^ 64) % 2 ^ 64 } | none => s
      let s2 := if m.delayReq then s1.emit (.delayReq n s1.ptpNow) else s1
      if s2.flag (P.stp 0) F.STP_STS_ptp_locked == m.locked then s2
      else (s2.setFlag (P.stp 0) F.STP_STS_ptp_locked m.locked).event (P.stp 0) 0

/-- A stream port's link goes down (R285). -/
def State.ethDown (s : State) (n : Nat) : State :=
  if !s.ethUp n then s
  else ((s.setBit (P.stp 0) F.STP_STS_link_up n false).setEth n EthPort.reset).event (P.stp (1 + n)) 1

/-- ETHERNET_LINK_DOWN. -/
def execEthernetLinkDown (n : Fin 2) (s : State) : Host.Outcome State Fault Refusal := .next (s.ethDown n)

/-- ETHERNET_LINK_UP (R285, R287): a port trains once it is enabled and its MAC address is not zero. -/
def execEthernetLinkUp (n : Fin 2) (s : State) : Host.Outcome State Fault Refusal :=
  .next <|
    if !s.ready || s.ethUp n || !s.flag (P.stp (1 + n)) F.STP_PORT_CTL_enable || s.ethMac n == 0 || s.devFailed || s.hubOff then s
    else
      let s1 := (s.setBit (P.stp 0) F.STP_STS_link_up n true).event (P.stp (1 + n)) 0
      s1.each ((List.range 512).filter fun k => s1.skPort k == n && (s1.skState k == 1 || s1.skState k == 3 || s1.skState k == 4 || s1.skState k == 5)) fun k s => s.skRepeat k

/-! Enable and disable (R285, R286). -/

/-- The compartments of a run of slots, if they are consecutive compartments of tenant n with the use, none bound. -/
def State.skRun (s : State) (n slot count use : Nat) : Option (List Nat) :=
  match s.slotComp n slot with
  | none => if count = 0 then some [] else none
  | some c0 =>
    if (List.range count).all fun i => s.slotComp n (slot + i) == some (c0 + i) && (s.comp (c0 + i)).use == use && !(s.comp (c0 + i)).bound
    then some ((List.range count).map (c0 + ·)) else none

/-- The compartments a context would bind, if the checks of R286 pass. -/
def State.skCheck (s : State) (k : Nat) : Option (List Nat) :=
  let n := s.skTenant k
  let rc := s.skf k F.STP_SK_RING_count
  let cc := s.skf k F.STP_SK_COAST_count
  let x := s.skX k
  if s.bound n && s.tnState n == 2 && decide (2 ≤ rc) && decide (x ≤ cc * 65536) && decide (x + s.skMax k ≤ (rc - 1) * 65536) &&
    s.flag (P.stp 3) (F.STP_PEER_CTL_valid (s.skf k F.STP_SK_BIND_peer)) &&
    !(List.range 512).any fun j => j != k && s.skOn j && s.skPort j == s.skPort k && s.skf j F.STP_SK_BIND_stream_id == s.skf k F.STP_SK_BIND_stream_id
  then
    match s.skRun n (s.skf k F.STP_SK_RING_slot) rc 2, s.skRun n (s.skf k F.STP_SK_COAST_slot) cc 3 with
    | some a, some b => some (a ++ b)
    | _, _ => none
  else none

/-- Enable a context; a failed check carries the register write that asked for it. -/
def State.skEnable (s : State) (rq : Requester) (k : Nat) : State :=
  match s.skCheck k with
  | none => ((s.setSkState k 6).countErr (P.stream k) 0x40 (rqCode rq) (accessAddr rq (P.stream k) (0x100 + 48 * (k % 64)))).event (P.stream k) 2
  | some cs =>
    let v := s.sk k
    let s1 := (s.bindComps cs true).setSk k { SkSt.reset with ctl := v.ctl, cur := v.cur, gen := v.gen + 1 }
    let s2 := s1.each [F.STP_SK_CNT0_dup, F.STP_SK_CNT0_late, F.STP_SK_CNT1_lost, F.STP_SK_CNT1_incomplete, F.STP_SK_CNT2_overrun, F.STP_SK_CNT2_oversize,
      F.STP_SK_CNT3_malformed, F.STP_SK_CNT3_halts, F.STP_SK_EXPECT_value, F.STP_SK_COASTUSED_value] fun f s => s.setSkf k f 0
    ((s2.skRegs k).setSkState k 1).skControl k 3

/-- The compartments of an enabled context. -/
def State.skComps (s : State) (k : Nat) : List Nat :=
  let n := s.skTenant k
  ((List.range (s.skf k F.STP_SK_RING_count)).filterMap fun i => s.slotComp n (s.skf k F.STP_SK_RING_slot + i)) ++
  ((List.range (s.skf k F.STP_SK_COAST_count)).filterMap fun i => s.slotComp n (s.skf k F.STP_SK_COAST_slot + i))

/-- End a context: repeats stop, open frames are discarded, compartments unbound, PFC released, state OFF. -/
def State.skDisable (s : State) (k : Nat) : State :=
  if !s.skOn k then s.setSkf k F.STP_SK_STS_state 0
  else
    let halted := s.skState k == 4 || s.skState k == 5
    let s1 := s.setSk k { s.sk k with frames := [], live := [], seen := [], est := false, resume := none }
    let s2 := (s1.skRegs k).setSkState k 0
    let s3 := s2.bindComps (s2.skComps k) false
    if halted then s3.skPfcOff k else s3

/-- A write of STP_SK_BIND. While the context is enabled its configuration fields keep their values, and a write of them counts SK_CFG_LIVE (R285); one that clears enable and leaves them as they are does not (log entry 75). -/
def State.skBindWrite (s : State) (rq : Requester) (k : Nat) (w : Nat) : State :=
  let pg := P.stream k
  let fs : List (Nat → Fld) := [F.STP_SK_BIND_stream_id, F.STP_SK_BIND_port, F.STP_SK_BIND_peer, F.STP_SK_BIND_tenant, F.STP_SK_BIND_pfc]
  let val (f : Nat → Fld) : Nat := bits w (f 0).lo (f 0).len
  let s1 := if s.skOn k then
      (if !bitOf w 31 && fs.all fun f => s.skf k f == val f then s else s.countErr pg 0x42 (rqCode rq) (accessAddr rq pg (0x100 + 48 * (k % 64))))
    else s.each fs fun f s => s.setSkf k f (val f)
  let s2 := s1.setSkf k F.STP_SK_BIND_enable (w / 2 ^ 31)
  if bitOf w 31 then (if s.skOn k then s2 else s2.skEnable rq k) else s2.skDisable k

/-- STREAM_ENABLE. -/
def execStreamEnable (rq : Requester) (k : Fin 512) (v : Word) (s : State) : Host.Outcome State Fault Refusal :=
  .next <| if bitOf v.toNat 31 then s.privWrite rq (P.stream k) (0x100 + 48 * (k.val % 64)) fun s => s.skBindWrite rq k v.toNat else s

/-- STREAM_DISABLE. -/
def execStreamDisable (rq : Requester) (k : Fin 512) (v : Word) (s : State) : Host.Outcome State Fault Refusal :=
  .next <| if bitOf v.toNat 31 then s else s.privWrite rq (P.stream k) (0x100 + 48 * (k.val % 64)) fun s => s.skBindWrite rq k v.toNat

/-! Resets (R285). -/

/-- The streams bound to tenant n. -/
def State.skOf (s : State) (n : Nat) : List Nat := (List.range 512).filter fun k => s.skOn k && s.skTenant k == n

/-- The start of a reset of tenant n. -/
def State.skTenantStart (s : State) (n : Nat) : State :=
  s.each (s.skOf n) fun k s => if s.skState k = 5 then s else ((s.setSkState k 5).skControl k 2).skPfcOn k

/-- The absorb point of a reset of tenant n, before its compartments are cleared. -/
def State.skTenantAbsorb (s : State) (n : Nat) : State :=
  s.each (s.skOf n) fun k s => (s.setSkf k F.STP_SK_BIND_enable 0).skDisable k

end Sys2Proof.Machine
end

