-- ==== Sys2Proof/Machine/Tenants.lean ====
section
/-! DEFINITION. Tenant contexts (06 R129, R130, R148, R151-R155, R435; 14 R336-R338, R342, R346): bindings, the phases of a tenant reset, partition faults (14 R348). -/
namespace Sys2Proof.Machine

/-! Bindings. -/

def bindF (s : State) (n : Nat) (f : Nat → Fld) : Nat := s.fld (P.disp 1) (f n)

/-- DISP_TN_BIND as a dword. -/
def State.bindVal (s : State) (n : Nat) : Nat :=
  bindF s n F.DISP_TN_BIND_vf + 2 ^ 6 * bindF s n F.DISP_TN_BIND_port + 2 ^ 8 * bindF s n F.DISP_TN_BIND_partition +
  2 ^ 11 * bindF s n F.DISP_TN_BIND_weight + 2 ^ 15 * bindF s n F.DISP_TN_BIND_valid + 2 ^ 16 * bindF s n F.DISP_TN_BIND_enable

/-- A weight of 0 is taken as 1 (06, Limits). -/
def bindWeight (v : Nat) : Nat := max 1 (bits v 11 4)

/-- The state of a bound context with no reset in progress (R129). -/
def State.tnSettled (s : State) (n : Nat) : Nat :=
  if !s.bound n then 0
  else if s.ptState (s.tnPart n) == 4 then 4
  else if bindF s n F.DISP_TN_BIND_enable != 0 then 2 else 1

def State.setTnState (s : State) (n v : Nat) : State := s.setFld (P.ten n 0) F.TN_STS_state v

/-- The fields of a binding take written values; a context that becomes bound starts with a clear fault log and no learned energy (13 R325, 16 R379). -/
def State.bindApply (s : State) (n v : Nat) : State :=
  let pg := P.disp 1
  let was := s.bound n
  let s1 := ((((((s.setFld pg (F.DISP_TN_BIND_vf n) (bits v 0 6)).setFld pg (F.DISP_TN_BIND_port n) (bits v 6 2)).setFld pg
    (F.DISP_TN_BIND_partition n) (bits v 8 3)).setFld pg (F.DISP_TN_BIND_weight n) (bindWeight v)).setFld pg
    (F.DISP_TN_BIND_valid n) (bits v 15 1)).setFld pg (F.DISP_TN_BIND_enable n) (bits v 16 1))
  let s2 := if !was && bitOf v 15 then (s1.flogClear n).etDrop n else s1
  s2.setTnState n (s2.tnSettled n)

/-! Phases of a tenant reset. -/

/-- A reset in progress contains tenant n's context. -/
def State.tnInReset (s : State) (n : Nat) : Bool :=
  s.rsts.any fun r => (r.scope == 5 && r.target == n) || (r.scope == 3 && s.bound n && s.tnPart n == r.target)

/-- Jobs, by order number, that satisfy a predicate. -/
def State.jobsWhere (s : State) (f : Job → Bool) : List Nat := (s.jobs.filter fun e => !e.2.ranks.isEmpty && f e.2).map (·.1)

/-- Tell jobs to stop, with a verdict for those that have none. -/
def State.stopJobs (s : State) (ks : List Nat) (status detail : Nat) : State :=
  s.each ks fun k s => s.stopJob k (status, detail, s.gOf ((s.job k).ranks.getD 0 0))

/-- End jobs at once, as their absorb point requires (14 R338). -/
def State.endJobs (s : State) (ks : List Nat) (status detail : Nat) : State :=
  s.each ks fun k s => ((s.stopJob k (status, detail, s.gOf ((s.job k).ranks.getD 0 0)))).jobEnd k

/-- The trigger of a tenant reset that runs with scope code `scope`: RESETTING, the next epoch, jobs, streams, sessions and companion programs stop. -/
def State.tnQuiesce (s : State) (n scope : Nat) (function : Bool) : State :=
  let e := (s.epoch n + 1) % 65536
  let s1 := ((s.setTnState n 3).setFld (P.ten n 0) F.TN_STS_epoch (if e = 0 then 1 else e)).setFlag (P.ten n 0) F.TN_CTL_reset true
  let s2 := s1.setTen n { s1.ten n with suppress := (s.ten n).suppress || function, absorbed := false, scope }
  let s3 := s2.stopJobs (s2.jobsWhere fun j => j.tn == n) 8 scope
  let s4 := (s3.skTenantStart n).vcTenantStart n
  s4.each ((List.range 16).filter fun h => s4.hpcGranted h && s4.hpcTenant h == n) fun h s => s.hpcStop h 5

/-- The descriptors of queue q at the absorb point: a COPY or LOAD in progress ends ABORTED, the rest is discarded without entries, and head is set to tail. -/
def State.queueAbsorb (s : State) (n q scope : Nat) : State :=
  let run := (s.queue n q).fetched.filter fun d => d.st == .running
  let s1 := s.each run fun d s =>
    (s.dropLoads n q d.num).complete n q d ⟨8, scope, 0xFFFF, 0, d.moved⟩
  let v := s1.queue n q
  (s1.setQueue n q { v with fetched := [], ended := [], reserved := 0 }).setFld (P.queue n q) F.Q_SQ_HEAD_count (s1.sqTail n q)

/-- A function reset clears the configuration of queue q, enable included; counts and duplicate window stay (06 R155). -/
def State.queueForget (s : State) (n q : Nat) : State :=
  let pg := P.queue n q
  let fs : List Fld := [F.Q_SQ_CFG_enable, F.Q_SQ_CFG_log2_size, F.Q_SQ_CFG_priority, F.Q_SQ_CFG_ordered, F.Q_SQ_CFG_dup_en, F.Q_SQ_CFG_base,
    F.Q_CQ_BASE_LO_addr, F.Q_CQ_BASE_HI_addr, F.Q_CQ_CFG_log2_size, F.Q_CQ_CFG_coal_cnt, F.Q_CQ_CFG_coal_us, F.Q_PASID_pasid, F.Q_PASID_enable,
    F.Q_STS_state]
  (s.each fs fun f s => s.setFld pg f 0).setQueue n q
    { s.queue n q with unsignalled := 0, coalStart := none, heldReport := [], heldEntries := [], heldMsix := false }

/-- The absorb point of a tenant reset (14 R337, R338, R342). -/
def State.tnAbsorb (s : State) (n : Nat) (sweep : Bool) : State :=
  let v := s.ten n
  if v.absorbed then s
  else
    let s0 := (s.endJobs (s.jobsWhere fun j => j.tn == n) 8 v.scope).hdrResets ((List.range 12).map (P.ten n))
    let s1 := s0.each ((List.range 16).filter fun h => s0.hpcGranted h && s0.hpcTenant h == n) fun h s => s.hpcStopped h
    let s2 := s1.each (List.range 8) fun q s => s.queueAbsorb n q v.scope
    let s3 := ((s2.skTenantAbsorb n).vcTenantAbsorb n).hmpTenantClear n
    let s4 := if v.suppress then s3.each (List.range 8) fun q s => s.queueForget n q
      else s3.each ((List.range 8).filter fun q => s3.qState n q == 1 || s3.qState n q == 3) fun q s => s.bindComps (s.sqComps n q) true
    let s5 := ((s4.kvTenantReset n sweep).resRemoveTenant n).spareClearTenant n
    s5.setTen n { s5.ten n with absorbed := true, cancel := none }

/-- The end of a tenant reset: TENANT_RESET in every enabled completion queue, one in CQ_ERROR among them, unless it was a function reset, the state of the binding, the written binding, the event (06 R155, R435; 14 R342). -/
def State.tnFinish (s : State) (n : Nat) : State :=
  let v := s.ten n
  let s1 := if v.suppress then s
    else s.each ((List.range 8).filter fun q => s.qState n q == 1 || s.qState n q == 3) fun q s => s.putReport n q
  let s2 := (s1.setTen n TenSt.reset).setFlag (P.ten n 0) F.TN_CTL_reset false
  let s3 := (s2.setTnState n (s2.tnSettled n)).event (P.ten n 0) 0
  match v.pendBind with
  | some b => s3.bindApply n b
  | none => s3

/-- Microseconds of the drain limit of a scope (14 R336). -/
def drainLimit (scope : Nat) : Nat :=
  match scope with
  | 1 => 50
  | 2 => 100
  | 3 => 500
  | 4 => 1000
  | _ => 2000

/-- HUB_RST_LAST at the end of a reset. -/
def State.rstLast (s : State) (r : Rst) : State :=
  ((s.setFld (P.hub 2) F.HUB_RST_LAST_scope r.scope).setFld (P.hub 2) F.HUB_RST_LAST_drain_us (min 2047 r.drainUs)).setFlag (P.hub 2)
    F.HUB_RST_LAST_limit_hit r.limitHit

/-- The record of a reset that reaches its absorb point. -/
def State.rstAbsorbed (s : State) (r : Rst) : Rst :=
  let us := (s.now - r.start) / 1000
  { r with absorbed := true, drainUs := us, limitHit := decide (drainLimit r.scope ≤ us) }

/-- Replace a reset's record. -/
def State.setRst (s : State) (r r' : Rst) : State := { s with rsts := s.rsts.map fun x => if x = r then r' else x }

/-- The reset in progress of a scope and target. -/
def State.findRst (s : State) (scope target : Nat) : Option Rst := s.rsts.find? fun r => r.scope == scope && r.target == target && !r.sub

/-- A trigger of tenant n's reset (R130). Inside a wider reset it is merged, and while the partition is FAULTED it is held until that partition's reset (14 R346); a function reset that arrives then still stops the tenant's entries. A cooling shutdown ignores a reset (16 R384). -/
def State.tnTrigger (s : State) (n : Nat) (function : Bool) : State :=
  if !s.bound n || s.inShutdown then s
  else if s.tnInReset n then
    let s1 := if function then s.setTen n { s.ten n with suppress := true } else s
    if function && (s.ten n).absorbed then s1.each (List.range 8) fun q s => s.queueForget n q else s1
  else if s.tnState n = 4 then
    (if function then s.setTen n { s.ten n with suppress := true } else s).setFlag (P.ten n 0) F.TN_CTL_reset true
  else { s.tnQuiesce n 5 function with rsts := ⟨5, n, s.now, false, false, false, 0, false⟩ :: s.rsts }

/-- TENANT_RESET_CMD: a write of TN_CTL.reset. -/
def execTenantResetCmd (rq : Requester) (n : Fin 128) (s : State) : Host.Outcome State Fault Refusal :=
  .next (s.tenWrite rq n 0 0x044 fun s => s.tnTrigger n false)

/-- The absorb point of a tenant reset of its own. -/
def State.tnAbsorbPoint (s : State) (n : Nat) : State :=
  match s.findRst 5 n with
  | some r => if r.absorbed then s else (s.setRst r (s.rstAbsorbed r)).tnAbsorb n true
  | none => s

/-- TENANT_RESET: the tenant's domain has drained, or the limit has passed; the absorb point of R342. -/
def execTenantReset (n : Fin 128) (s : State) : Host.Outcome State Fault Refusal := .next (s.tnAbsorbPoint n)

/-- The end of a tenant reset of its own. -/
def State.tnRelease (s : State) (n : Nat) : State :=
  match s.findRst 5 n with
  | some r => if r.absorbed then ({ s with rsts := s.rsts.filter (· != r) }.tnFinish n).rstLast r else s
  | none => s

/-- TENANT_RESET_REPORT: the clears are done; the report is written and the context leaves RESETTING. -/
def execTenantResetReport (n : Fin 128) (s : State) : Host.Outcome State Fault Refusal := .next (s.tnRelease n)

/-- A write of DISP_TN_BIND_n (06 R151, R152, R435). -/
def State.bindWrite (s : State) (rq : Requester) (n : Nat) (w : Nat) : State :=
  let pg := P.disp 1
  let cur := s.bindVal n
  let a := accessAddr rq pg (F.DISP_TN_BIND_vf n).off
  let v := w % 2 ^ 11 + 2 ^ 11 * bindWeight w + 2 ^ 15 * bits w 15 2
  if s.tnState n = 3 then (if v = cur then s else s.countErr pg 0x44 (rqCode rq) a)
  else if bitOf cur 16 then
    let s1 := if v % 2 ^ 16 = cur % 2 ^ 16 then s else s.countErr pg 0x44 (rqCode rq) a
    let s2 := s1.setFld pg (F.DISP_TN_BIND_enable n) (bits v 16 1)
    s2.setTnState n (s2.tnSettled n)
  else if bitOf v 15 && (List.range 128).any fun m => m != n &&
      (s.bound m && s.bindVal m % 256 == v % 256 || (match (s.ten m).pendBind with | some b => bitOf b 15 && b % 256 == v % 256 | none => false)) then
    s.countErr pg 0x45 (rqCode rq) a
  else if s.bound n && (v % 2 ^ 11 != cur % 2 ^ 11 || !bitOf v 15) then
    let s1 := s.tnTrigger n true
    s1.setTen n { s1.ten n with pendBind := some v }
  else s.bindApply n v

/-- TENANT_BIND_WRITE. -/
def execTenantBindWrite (rq : Requester) (n : Fin 128) (v : Word) (s : State) : Host.Outcome State Fault Refusal :=
  .next (s.privWrite rq (P.disp 1) (F.DISP_TN_BIND_vf n).off fun s => s.bindWrite rq n v.toNat)

/-! Partition faults (14 R348). -/

/-- Partition p goes to FAULTED. Jobs with a rank on a fenced tile end at once; the others stop at their next boundary. -/
def State.ptFault (s : State) (p code : Nat) : State :=
  let ns := s.tenantsOf p
  let ks := s.jobsWhere fun j => j.part == p
  let gone := ks.filter fun k => (s.job k).ranks.any fun x => s.fenced (x / 64)
  let s1 := (s.stopJobs ks 9 p).endJobs gone 9 p
  let s2 := s1.each ns fun n s => s.each (List.range 8) fun q s =>
    let loads := (s.queue n q).fetched.filter fun d => d.st == .running && d.kind == 4
    let s := s.each loads fun d s => (s.dropLoads n q d.num).complete n q d ⟨9, p, 0xFFFF, 0, 0⟩
    s.dropWaiting n q
  let s3 := s2.each ns fun n s => (s.setTnState n 4).event (P.ten n 0) 1
  (((s3.kvFault p).setPaused p true).setPtState p 4).setFld (P.pt p) F.PT_STS_fault code
    |>.event (P.pt p) 1 |>.trailPut 0x0A 0x01 2 [1, p, code]

/-- Partition p has clusters on tile t. -/
def State.ptOnTile (s : State) (p t : Nat) : Bool := (List.range 8).any fun c => s.inMask p (8 * t + c)

/-- The domain of reset `a` contains the domain of reset `b` (R336, R346). -/
def State.rstCovers (s : State) (a b : Rst) : Bool :=
  match b.scope with
  | 1 => (a.scope == 1 && a.target == b.target) || a.coversClu s (b.target / 7)
  | 2 => a.coversClu s b.target
  | 3 => (a.scope == 3 && a.target == b.target) || (a.scope == 4 && s.ptOnTile b.target a.target)
  | 4 => a.scope == 4 && a.target == b.target
  | 5 => (a.scope == 5 && a.target == b.target) || (a.scope == 3 && s.bound b.target && s.tnPart b.target == a.target)
  | _ => false

/-- The HUB_RST_CMD reset that ends with `r` (R346): result 0 if it is `r`, 2 if it was merged or superseded. -/
def State.hubRstEnd (s : State) (r : Rst) : State :=
  let pg := P.hub 2
  if !s.flag pg F.HUB_RST_CMD_go then s
  else
    let h : Rst := { r with scope := s.hubRst.1, target := s.hubRst.2, sub := false }
    if !s.rstCovers r h then s
    else (((s.setFlag pg F.HUB_RST_CMD_go false).setFlag pg F.HUB_RST_STS_busy false).setFld pg F.HUB_RST_STS_result
      (if h.scope = r.scope ∧ h.target = r.target ∧ !r.sub then 0 else 2)).event pg 0

/-- A reset leaves the list, and with it the HUB_RST_CMD reset it carried. -/
def State.rstDrop (s : State) (r : Rst) : State := let s1 := s.hubRstEnd r; { s1 with rsts := s1.rsts.filter (· != r) }

/-- The end of a PT_CMD reset in progress. -/
def State.ptResetCmdEnd (s : State) (p result : Nat) : State := if s.flag (P.pt p) F.PT_CMD_go then s.ptCmdEnd p result else s

/-- A fault ends the reset of partition p that is in progress, and its PT_CMD with a result (R346, R348). -/
def State.ptRstFault (s : State) (p code result : Nat) : State :=
  let s1 := s.each (s.rsts.filter fun (r : Rst) => r.scope == 3 && r.target == p) fun r s => s.rstDrop r
  (s1.ptFault p code).ptResetCmdEnd p result

/-- The event that faults partition p (14 R346, R348): during a reset it waits for the absorb point; a BUILD in progress is judged by its own checks. -/
def State.ptFaultEvent (s : State) (p code : Nat) : State :=
  match s.ptState p with
  | 2 => s.ptFault p code
  | 3 =>
    if s.rsts.any fun r => r.scope == 3 && r.target == p && !r.absorbed
    then { s with ptPend := Tab.set nat0 s.ptPend p (if Tab.get nat0 s.ptPend p = 0 then code else Tab.get nat0 s.ptPend p) }
    else s.ptRstFault p code 0
  | _ => s

end Sys2Proof.Machine
end

