-- ==== Sys2Proof/Machine/Links.lean ====
section
/-! DEFINITION. Bridge links and serial bundles (02 R27, R29-R49): state, training, reception, replay, retrains, routes. A link end is 4t + d for bridge port d of tile t, 32 + t for the tile end and 40 + t for the hub end of a bundle. -/
namespace Sys2Proof.Machine

/-! Ends and their registers. -/

def isSer (k : Nat) : Bool := decide (32 ≤ k)
/-- The register page of an end. -/
def endPg (k : Nat) : Nat := if k < 32 then P.lnk (k / 4) (k % 4) else if k < 40 then P.serTile (k - 32) else P.serHub (k - 40)
/-- The other end of the link. -/
def farEnd (k : Nat) : Option Nat :=
  if k < 32 then (neighbour (k / 4) (k % 4)).map fun u => 4 * u + opposite (k % 4) else if k < 40 then some (k + 8) else some (k - 8)
/-- The tile whose loss of clock an end's watchdog reports: the far tile, or none (8) for the hub. -/
def farTile (k : Nat) : Nat := if k < 32 then (neighbour (k / 4) (k % 4)).getD 8 else if k < 40 then 8 else k - 40

def endKey : LinkEndId → Nat
  | .bridge t d => 4 * t.val + d.val
  | .bundleTile t => 32 + t.val
  | .bundleHub t => 40 + t.val

/-- The first end of a link: tile t's port, or the tile end. -/
def linkKey : LinkId → Nat
  | .bridge t d => 4 * t.val + d.val
  | .bundle t => 32 + t.val

def eFld (k : Nat) (lnk ser : Fld) : Fld := if isSer k then ser else lnk
def State.eget (s : State) (k : Nat) (lnk ser : Fld) : Nat := s.fld (endPg k) (eFld k lnk ser)
def State.eset (s : State) (k : Nat) (lnk ser : Fld) (v : Nat) : State := s.setFld (endPg k) (eFld k lnk ser) v

/-- R39: 0 ABSENT, 1 DOWN, 2 TRAIN, 3 ACTIVE, 4 DRAIN, 5 RETRAIN, 6 FENCED. -/
def State.eState (s : State) (k : Nat) : Nat := s.eget k F.LNK_STS_state F.SER_STS_state
def State.txSeq (s : State) (k : Nat) : Nat := s.eget k F.LNK_STS_tx_seq F.SER_STS_tx_seq
def State.rxExp (s : State) (k : Nat) : Nat := s.eget k F.LNK_STS_rx_expected F.SER_STS_rx_expected
/-- Sequence numbers of an end: 8 bits on a bridge, 10 on a bundle. -/
def seqMod (k : Nat) : Nat := if isSer k then 1024 else 256
/-- Flits the replay buffer holds. -/
def replayCap (k : Nat) : Nat := if isSer k then 256 else 64

/-- The replay buffer changes; LNK_STS.unacked follows it. -/
def State.setReplay (s : State) (k : Nat) (l : List TxFlit) (replays : Nat) : State :=
  let s1 := s.setLend k { s.lend k with replay := l, replays }
  if isSer k then s1 else s1.setFld (endPg k) F.LNK_STS_unacked l.length

/-- An end without traffic of its link: nothing unacknowledged or pending, all credits; what it accepted and counted is kept. -/
def LinkEnd.cleared (v : LinkEnd) : LinkEnd :=
  { LinkEnd.reset with rxq := v.rxq, failed := v.failed, tries := v.tries, fecSum := v.fecSum, fecAt := v.fecAt, crcErr := v.crcErr }

/-- An end forgets its traffic, and its sequences are 0. -/
def State.endClear (s : State) (k : Nat) : State :=
  ((s.setReplay k [] 0).setLend k (s.lend k).cleared).eset k F.LNK_STS_tx_seq F.SER_STS_tx_seq 0 |>.eset k F.LNK_STS_rx_expected F.SER_STS_rx_expected 0

def State.setRetrain (s : State) (k : Nat) (v : Bool) : State := s.eset k F.LNK_CTL_retrain F.SER_CTL_retrain (b2n v)

/-- Both ends of the link of end `k` take a state; entering DOWN or FENCED clears them and raises event bit 3 (R49). -/
def State.linkSet (s : State) (k v : Nat) : State :=
  let ends := k :: (farEnd k).toList
  s.each ends fun e s =>
    let was := s.eState e
    let s1 := s.eset e F.LNK_STS_state F.SER_STS_state v
    if v = 1 ∨ v = 6 then
      let s2 := (s1.endClear e).setRetrain e false
      if was = 1 ∨ was = 6 ∨ was = 0 then s2 else s2.event (endPg e) 3
    else s1

/-! Routes (R36, R37, R47). -/

def State.bridgeUp (s : State) (t d : Nat) : Bool := (neighbour t d).isSome && s.eState (4 * t + d) == 3

/-- Walk a list of ports from tile t: every link ACTIVE and no tile on the way fenced. -/
def State.pathOk (s : State) (t : Nat) : List Nat → Bool
  | [] => !s.fenced t
  | d :: ds => !s.fenced t && s.bridgeUp t d && match neighbour t d with | some u => s.pathOk u ds | none => false

/-- Ports along a row, and along a column, from tile a to the column and row of tile b. -/
def rowPorts (a b : Nat) : List Nat := List.replicate (max (a % 4) (b % 4) - min (a % 4) (b % 4)) (if b % 4 > a % 4 then 0 else 1)
def colPorts (a b : Nat) : List Nat := if a / 4 = b / 4 then [] else [if b / 4 > a / 4 then 3 else 2]
/-- The vertical port of a tile. -/
def vertPort (t : Nat) : Nat := if t < 4 then 3 else 2

/-- The row bypass from t to u, where they share a row or a column. -/
def bypassPorts (t u : Nat) : Option (List Nat) :=
  if t / 4 = u / 4 then some (vertPort t :: rowPorts t u ++ [opposite (vertPort t)])
  else if t % 4 = u % 4 then
    let d := if t % 4 ≤ 1 then 0 else 1
    some [d, vertPort t, opposite d]
  else none

/-- SER_ROUTE's entry for a path in a channel. -/
def routeCode (ports : List Nat) (ch : Nat) : Nat := ports.headD 0 + 4 * ch

/-- The route R36 chooses from tile t to tile u. -/
def State.routeOf (s : State) (t u : Nat) : Nat :=
  let a := rowPorts t u ++ colPorts t u
  let b := colPorts t u ++ rowPorts t u
  if s.pathOk t a then routeCode a 0
  else if s.pathOk t b then routeCode b 1
  else match bypassPorts t u with
    | some c => if s.pathOk t c then routeCode c 2 else noRoute
    | none => noRoute

def State.routeNow (s : State) (t u : Nat) : Nat := s.fld (P.serTile t) (F.SER_ROUTE_route u)
def State.setHold (s : State) (t u : Nat) (v : Option Nat) : State := { s with routeHold := Tab.set hold0 s.routeHold (8 * t + u) v }

/-- Tiles of partition p that are neither fenced nor in a tile reset. -/
def State.ptTiles (s : State) (p : Nat) : List Nat :=
  (List.range 8).filter fun t =>
    !s.fenced t && !(s.rsts.any fun r => r.scope == 4 && r.target == t) && (List.range 8).any fun c => s.inMask p (8 * t + c)

/-- Partitions two of whose tiles cannot reach each other fault (R47). -/
def State.reachCheck (s : State) : State :=
  s.each ((List.range 8).filter fun p => s.ptState p == 2 || s.ptState p == 3) fun p s =>
    let ts := s.ptTiles p
    if ts.any fun a => ts.any fun b => a != b && s.routeOf a b == noRoute then s.ptFaultEvent p 2 else s

/-- Every source looks at its routes again: a changed one stops issuing until its old requests are answered (R37). -/
def State.reroute (s : State) : State :=
  let s1 := s.each ((List.range 8).filter fun t => !s.fenced t) fun t s =>
    s.each ((List.range 8).filter (· != t)) fun u s =>
      let r := s.routeOf t u
      s.setHold t u (if r = s.routeNow t u then none else some r)
  s1.reachCheck

/-- The default route tables are loaded (R48). -/
def State.routesReset (s : State) : State :=
  { s with routeHold := [] }.each (List.range 64) fun k s => s.setFld (P.serTile (k / 8)) (F.SER_ROUTE_route (k % 8)) (defaultRoute (k / 8) (k % 8))

/-- Whether an end may train: enabled at both ends, not forced down, not FENCED (R39). -/
def State.mayTrain (s : State) (k : Nat) : Bool :=
  (k :: (farEnd k).toList).all fun e =>
    s.eget e F.LNK_CTL_enable F.SER_CTL_enable != 0 && (isSer e || s.fld (endPg e) F.LNK_CTL_force_down == 0) && s.eState e != 6

/-- A bridge link goes DOWN: reroute, and a Trail record (R45; 17 R411, "link down"). -/
def State.bridgeDown (s : State) (k : Nat) : State :=
  ((s.linkSet k 1).reroute).trailPut 0x07 0x1A 1 [1, k / 4, k % 4]

/-- Both ends of a link note whether it is held DOWN by a failure (R45). -/
def State.setFailed (s : State) (k : Nat) (v : Bool) : State :=
  s.each (k :: (farEnd k).toList) fun e s => s.setLend e { s.lend e with failed := v }

/-- A training or retrain that a write of the retrain bit asked for ends: the bit clears, with event 1 for success and 2 for failure (R49). That a training from DOWN which such a write started raises them too is DEDUCED from the bit's meaning, "reads 1 until it completes or fails" (log entry 45). -/
def State.retrainEnd (s : State) (k bit : Nat) : State :=
  s.each (k :: (farEnd k).toList) fun e s =>
    if s.eget e F.LNK_CTL_retrain F.SER_CTL_retrain != 0 then (s.setRetrain e false).event (endPg e) bit else s

/-- A bridge link whose training or retrain fails: DOWN until a tile reset of either end, a device warm reset or a write of LNK_CTL.retrain (R45, R48). -/
def State.bridgeFail (s : State) (k : Nat) : State := (s.bridgeDown k).setFailed k true

/-! Training. -/

/-- Half-width choice of a direction from its good lanes: full, half with the upper flag, or failure. -/
def laneUse (lanes : Nat) (half : Bool) : Option (Bool × Bool) :=
  if lanes % 65536 = 65535 then some (false, false)
  else if half && lanes % 256 = 255 then some (true, false)
  else if half && lanes / 256 % 256 = 255 then some (true, true)
  else none

/-- The wires or lanes a training run leaves, if both directions work: spare wires taken on a bridge, widths on a bundle. -/
def State.trainPhy (s : State) (k : Nat) (r : TrainIn) : Option State :=
  if !r.deskewOk then none
  else if isSer k then
    let t := k - 32
    match laneUse r.lanesTx.toNat (s.flag (P.serTile t) F.SER_CTL_allow_half), laneUse r.lanesRx.toNat (s.flag (P.serHub t) F.SER_CTL_allow_half) with
    | some a, some b =>
      let put (pg : Nat) (tx rx : Bool × Bool) (ltx lrx : Nat) (s : State) : State :=
        ((((((s.setFlag pg F.SER_STS_tx_half tx.1).setFlag pg F.SER_STS_tx_upper tx.2).setFlag pg F.SER_STS_rx_half rx.1).setFlag pg
          F.SER_STS_rx_upper rx.2).setFld pg F.SER_LANE_STS_tx_lane_ok ltx).setFld pg F.SER_LANE_STS_rx_lane_ok lrx)
          |> fun s => if tx.1 || rx.1 then s.event pg 6 else s
      some (put (P.serHub t) b a r.lanesRx.toNat r.lanesTx.toNat (put (P.serTile t) a b r.lanesTx.toNat r.lanesRx.toNat s))
    | _, _ => none
  else match farEnd k with
    | none => none
    | some e =>
      let tx := s.fld (endPg k) F.LNK_WIRE_MAP_tx_spares_used + r.badTx
      let rx := s.fld (endPg k) F.LNK_WIRE_MAP_rx_spares_used + r.badRx
      if 32 < tx ∨ 32 < rx then none
      else some ((((s.setFld (endPg k) F.LNK_WIRE_MAP_tx_spares_used tx).setFld (endPg k) F.LNK_WIRE_MAP_rx_spares_used rx).setFld
        (endPg e) F.LNK_WIRE_MAP_rx_spares_used tx).setFld (endPg e) F.LNK_WIRE_MAP_tx_spares_used rx)

/-- Boot stops (04 R97): the stage stays at the failing step. -/
def State.bootFail (s : State) (code detail : Nat) : State :=
  ((((s.setFlag P.boot F.BOOT_STS_failed true).setFld P.boot F.BOOT_TIME_ms s.bootMs).bootErr code detail s.stage)).event P.boot 1

/-- The R27 code that an identity raises. `twice` says that another die reports the SITE_ID, `want` is the value that the position implies. Where several conditions hold the spec does not say which code is reported: DESIGN CHOICE (log entry 45), the order 1, 3, 2, 4, the same on a bundle and on a bridge. -/
def identCode (twice : Bool) (site want build hubBuild : Nat) : Nat :=
  if twice then 1 else if 9 ≤ site then 3 else if site ≠ want then 2 else if build ≠ hubBuild then 4 else 0

/-- The R27 code that the identity of the die on bundle t raises. -/
def State.strapCode (s : State) (t site build : Nat) : Nat :=
  let others := (List.range 8).filter fun u => u != t && s.flag (P.serHub u) F.SER_STRAP_valid
  identCode (site == s.fld P.boot F.BOOT_STRAP_hub_site || others.any fun u => s.fld (P.serHub u) F.SER_STRAP_site_id == site)
    site t build (s.fld P.boot F.BOOT_STRAP_pkg_build)

/-- An identity check fails: SER_STRAP.conflict of tile t, the event of both ends, the Trail record, and boot stops (R27). -/
def State.strapConflict (s : State) (k t code : Nat) : State :=
  let s1 := (s.setFld (P.serHub t) F.SER_STRAP_conflict code).setFld (P.serTile t) F.SER_STRAP_conflict code
  let s2 := (s1.each (k :: (farEnd k).toList) fun e s => s.event (endPg e) 5).trailPut 0x07 0x1B 3 [0, t, code]
  let s3 := s2.linkSet k 1
  if s3.ready || s3.flag P.boot F.BOOT_STS_failed then s3 else s3.bootFail 0x01 code

/-! Reception (R30-R34). -/

/-- The receiver NAKs its expected sequence, at most once in 64 ns for one sequence. -/
def State.sendNak (s : State) (k : Nat) : State :=
  let x := s.rxExp k
  let again := match (s.lend k).lastNak with | some (y, t) => y == x && decide (s.now < t + 64) | none => false
  if again then s else (s.setLend k { s.lend k with lastNak := some (x, s.now) }).emit (.ack k true x)

/-- The receiver acknowledges the last accepted flit. -/
def State.sendAck (s : State) (k : Nat) : State :=
  match (s.lend k).lastAcc with
  | some q => (s.setLend k { s.lend k with accSince := 0 }).emit (.ack k false q)
  | none => s

/-! Virtual channels and through traffic (R32, R38). -/

/-- The ports of the route in channel `vc` from tile a to tile b (R36). -/
def routePorts (a b vc : Nat) : List Nat :=
  match vc with
  | 0 => rowPorts a b ++ colPorts a b
  | 1 => colPorts a b ++ rowPorts a b
  | _ => (bypassPorts a b).getD []

/-- The port at which tile u forwards a flit that walks `ports` from tile t. -/
def portAt (u t : Nat) : List Nat → Option Nat
  | [] => none
  | d :: ds => if t = u then some d else match neighbour t d with | some w => portAt u w ds | none => none

/-- Credits left at end k for a channel. -/
def State.credits (s : State) (k vc : Nat) : Nat := (s.lend k).credit.getD vc 0

def State.setCredits (s : State) (k vc n : Nat) : State := s.setLend k { s.lend k with credit := (s.lend k).credit.set vc n }

/-- The transmitter of bridge end k can take a flit of a channel: ACTIVE, room in the replay buffer, a credit. -/
def State.canSend (s : State) (k vc : Nat) : Bool := s.eState k == 3 && decide ((s.lend k).replay.length < replayCap k) && decide (0 < s.credits k vc)

/-- A new flit goes out: the next sequence, an entry in the replay buffer, a credit less (R31, R32). -/
def State.sendFlit (s : State) (k vc : Nat) (data : List Byte) : State :=
  let q := s.txSeq k
  let v := s.lend k
  let s1 := (s.setReplay k (v.replay ++ [⟨q, vc, data⟩]) v.replays).eset k F.LNK_STS_tx_seq F.SER_STS_tx_seq ((q + 1) % seqMod k)
  (if isSer k then s1 else s1.setCredits k vc (s1.credits k vc - 1)).emit (.flit k q)

/-- The end at which tile k / 4 sends a waiting flit on. -/
def fwdEnd (k : Nat) (f : RxFlit) : Option Nat := (portAt (k / 4) f.src (routePorts f.src f.dst f.vc)).map fun d => 4 * (k / 4) + d

/-- Send on what the receive buffers of end k hold, oldest first, as far as the next links take it; within a channel no flit passes another (R37). The buffer's place goes back as a credit. `stuck` lists the channels whose oldest flit waits. -/
def State.fwdFlits (s : State) (k : Nat) (stuck : List Nat) : List RxFlit → State × List RxFlit
  | [] => (s, [])
  | f :: l =>
    match fwdEnd k f with
    | none => s.fwdFlits k stuck l
    | some e =>
      if !stuck.contains f.vc && s.canSend e f.vc then ((s.sendFlit e f.vc f.data).emit (.credit k f.vc)).fwdFlits k stuck l
      else let r := s.fwdFlits k (f.vc :: stuck) l; (r.1, f :: r.2)

/-- The tile of bridge end k sends on what its four ports hold. -/
def State.forward (s : State) (k : Nat) : State :=
  if isSer k then s
  else s.each (List.range 4) fun d s =>
    let e := 4 * (k / 4) + d
    let r := s.fwdFlits e [] (s.lend e).rxq
    r.1.setLend e { r.1.lend e with rxq := r.2 }

/-- An accepted flit leaves the link: a bundle's, and a bridge's for this tile, to the die; another bridge flit waits in its channel's receive buffer for the next link. -/
def State.flitOut (s : State) (k ch src dst : Nat) (data : List Byte) : State :=
  if isSer k then s.emit (.deliver k ch data)
  else if dst = k / 4 then (s.emit (.deliver k ch data)).emit (.credit k ch)
  else (s.setLend k { s.lend k with rxq := (s.lend k).rxq ++ [⟨ch, src, dst, data⟩] }).forward k

/-- Whether the receive buffer of a bridge channel has room: 32 flits (R32), which the credits ensure. -/
def State.rxRoom (s : State) (k ch : Nat) : Bool := isSer k || decide (((s.lend k).rxq.filter fun f => f.vc == ch).length < 32)

/-- A complete flit whose CRC checks: accepted, a duplicate, or ahead of a replay. One that no credit covers is not taken. -/
def State.flitIn (s : State) (k seq ch src dst : Nat) (data : List Byte) : State :=
  let m := seqMod k
  let x := s.rxExp k
  if seq % m = x then
    if !s.rxRoom k ch then s
    else
      let v := s.lend k
      let s1 := ((s.eset k F.LNK_STS_rx_expected F.SER_STS_rx_expected ((x + 1) % m)).setLend k
        { v with accSince := v.accSince + 1, lastAcc := some x }).flitOut k ch src dst data
      if 8 ≤ v.accSince + 1 then s1.sendAck k else s1
  else if (x + m - seq % m) % m ≤ m / 2 then
    let s1 := if isSer k then s else s.satFld (endPg k) F.LNK_CNT1_dup_drop_cnt 1
    s1.sendAck k
  else s

/-- Carrying traffic in either direction: ACTIVE, or draining. -/
def State.carries (s : State) (k : Nat) : Bool := s.eState k == 3 || s.eState k == 4

/-- A half-marker error. -/
def State.halfErr (s : State) (k : Nat) : State :=
  ((s.setLend k { s.lend k with pendA := none }).satFld (endPg k) F.LNK_CNT1_half_err_cnt 1).sendNak k

/-- The CRC-32 of a bridge flit (R29): the 512 data bytes, then seq, then vc. -/
def burstCrc (data : List Byte) (seq vc : Nat) : Nat := linkCrc (byteBits data ++ numBits 8 seq ++ numBits 2 vc)

/-- BRIDGE_BURST_RECEIVE (R30). Two points are DESIGN CHOICES (log entry 45): a B burst whose seq differs from the pending A's, which no row of R30's table names, is handled as a half-marker error; and the flit's channel (with its source and destination) is taken from its A burst. -/
def execBridgeBurstReceive (t : Fin 8) (d : Fin 4) (b : Burst) (s : State) : Host.Outcome State Fault Refusal :=
  .next <|
    let k := 4 * t.val + d.val
    if !b.bv || !s.carries k then s
    else match (s.lend k).pendA, b.hm with
      | none, false => s.setLend k { s.lend k with pendA := some b }
      | some a, true =>
        if a.seq ≠ b.seq then s.halfErr k
        else
          let s1 := s.setLend k { s.lend k with pendA := none }
          let all := a.data ++ b.data
          if burstCrc all a.seq.toNat a.vc.toNat = 2 ^ 16 * a.crcHalf.toNat + b.crcHalf.toNat
          then s1.flitIn k a.seq.toNat a.vc.toNat a.src.val a.dst.val all
          else (s1.satFld (endPg k) F.LNK_CNT0_crc_err_cnt 1).sendNak k
      | _, _ => s.halfErr k

/-! The transmitter (R31, R45). -/

/-- Count and send a replay of the buffer from its oldest flit. -/
def State.replayAll (s : State) (k : Nat) : State :=
  match (s.lend k).replay with
  | [] => s
  | l =>
    let s1 := s.setReplay k l ((s.lend k).replays + 1)
    let s2 := if isSer k then s1.satFld (endPg k) F.SER_CNT_replay_cnt 1 else s1.satFld (endPg k) F.LNK_CNT0_replay_cnt 1
    s2.each l fun f s => s.emit (.flit k f.seq)

/-- An ACK or NAK: flits before the acknowledged point leave the buffer; a NAK replays the rest. -/
def State.ackIn (s : State) (k : Nat) (nak : Bool) (seq : Nat) : State :=
  let l := (s.lend k).replay
  match l.findIdx? (·.seq == seq % seqMod k) with
  | none => s
  | some i =>
    let rest := l.drop (if nak then i else i + 1)
    let s1 := s.setReplay k rest (if rest.length = l.length then (s.lend k).replays else 0)
    if nak then s1.replayAll k else s1

/-- Credits come back: a bridge channel never holds more than its 32 (R32). -/
def State.creditsIn (s : State) (k : Nat) (ns : List Nat) : State :=
  s.each (List.range 3) fun vc s => s.setCredits k vc (min 32 (s.credits k vc + ns.getD vc 0))

/-- ACK_NAK_RECEIVE: a bridge reverse word with a parity error is discarded (R29); else its acknowledgement and its credits are taken, and what waited for them goes on. -/
def execAckNakReceive (e : LinkEndId) (w : AckWord) (s : State) : Host.Outcome State Fault Refusal :=
  .next <|
    let k := endKey e
    if !w.parityOk || !s.carries k then s
    else
      let s1 := match w.typ with
        | .none => s
        | .ack => s.ackIn k false w.seq
        | .nak => s.ackIn k true w.seq
      if isSer k then s1 else (s1.creditsIn k w.credits).forward k

/-- Positions of one of the two interleaved codewords (R33): even bytes form one, odd bytes the other. -/
def codeword (l : List Byte) (odd : Nat) : List Byte := (List.range 128).map fun i => l.getD (2 * i + odd) 0

/-- The bytes by which a received codeword differs from the nearest one. -/
def fecDiff (f : BundleFlit) (odd : Nat) : Nat :=
  (((codeword f.recv odd).zip (codeword f.near odd)).filter fun e => e.1 != e.2).length

/-- FEC corrects up to 5 byte errors in each codeword (R33). -/
def flitFixable (f : BundleFlit) : Bool := decide (fecDiff f 0 ≤ 5) && decide (fecDiff f 1 ≤ 5)

/-- Bytes that FEC corrects. -/
def flitCorrected (f : BundleFlit) : Nat := if flitFixable f then fecDiff f 0 + fecDiff f 1 else 0

/-- The flit after FEC: what was received, where a codeword is beyond correction. -/
def flitBytes (f : BundleFlit) : List Byte := if flitFixable f then f.near else f.recv

/-- Corrected bytes count in SER_CNT and in the 1 ms window of R40, which starts afresh with the first correction after its end. -/
def State.fecCount (s : State) (k n : Nat) : State :=
  let v := s.lend k
  let w := if n = 0 then v else if s.now < v.fecAt + 1000000 then { v with fecSum := v.fecSum + n } else { v with fecSum := n, fecAt := s.now }
  (s.setLend k w).satFld (endPg k) F.SER_CNT_fec_corr n

/-- A flit of a bundle fails its CRC, or is of a reserved type: discarded, counted, NAKed. -/
def State.serCrcErr (s : State) (k : Nat) : State := (s.setLend k { s.lend k with crcErr := (s.lend k).crcErr + 1 }).sendNak k

/-- BUNDLE_FLIT_RECEIVE (R33, R34): FEC, the CRC over bytes 0 to 231, the type; then the header's acknowledgement and credits, and the flit by its sequence. -/
def execBundleFlitReceive (t : Fin 8) (hub : Bool) (f : BundleFlit) (s : State) : Host.Outcome State Fault Refusal :=
  .next <|
    let k := (if hub then 40 else 32) + t.val
    if !s.carries k then s
    else
      let s1 := s.fecCount k (flitCorrected f)
      let s2 := if flitFixable f then s1 else s1.satFld (endPg k) F.SER_CNT_fec_uncorr 1
      let h := leAt (flitBytes f) 0 4
      if !flitFixable f || linkCrc (byteBits (slice (flitBytes f) 0 232)) != leAt (flitBytes f) 232 4 || decide (7 ≤ bits h 0 4) then s2.serCrcErr k
      else
        let s3 := match bits h 24 2 with
          | 1 => s2.ackIn k false (bits h 14 10)
          | 2 => s2.ackIn k true (bits h 14 10)
          | _ => s2
        let s4 := s3.setCredits k 0 (s3.credits k 0 + bits h 26 6)
        s4.flitIn k (bits h 4 10) (bits h 0 4) 0 0 (slice (flitBytes f) 4 228)

/-- REPLAY_TIMER_EXPIRY. -/
def execReplayTimerExpiry (e : LinkEndId) (s : State) : Host.Outcome State Fault Refusal :=
  .next (if s.carries (endKey e) then s.replayAll (endKey e) else s)

/-- ACK_INTERVAL_TIMER (R31): a cumulative ACK where accepted flits wait for one. -/
def execAckIntervalTimer (e : LinkEndId) (s : State) : Host.Outcome State Fault Refusal :=
  .next (if s.carries (endKey e) && (s.lend (endKey e)).accSince != 0 then s.sendAck (endKey e) else s)

/-- KEEP_ALIVE_SEND (R35): a beacon on a bridge; on a bundle an idle flit, which takes a sequence number like any flit (R34). A bundle in DRAIN issues no new flit (R40) and one with a full replay buffer has no place for one (R31), so no idle flit goes out there: DEDUCED, log entry 45. -/
def execKeepAliveSend (e : LinkEndId) (s : State) : Host.Outcome State Fault Refusal :=
  .next <|
    let k := endKey e
    if !s.carries k then s
    else if !isSer k then s.emit (.keepAlive k)
    else if s.eState k ≠ 3 ∨ replayCap k ≤ (s.lend k).replay.length then s
    else (s.sendFlit k 0 []).emit (.keepAlive k)

/-! The end of a training run. -/

/-- A trained link: ACTIVE with both sequences 0, and credits for the free places of the far receive buffers; a failure that held it DOWN is over; what waited for it goes on. -/
def State.linkActive (s : State) (k : Nat) : State :=
  let ends := k :: (farEnd k).toList
  let s1 := s.each ends fun e s =>
    let q := match farEnd e with | some f => (s.lend f).rxq | none => []
    (s.endClear e).setLend e { (s.lend e).cleared with failed := false, tries := 0, credit := (List.range 3).map fun vc => 32 - (q.filter fun f => f.vc == vc).length }
  let s2 := (s1.retrainEnd k 1).linkSet k 3
  if isSer k then s2 else s2.reroute.each ends fun e s => s.forward e

/-- The tile's own sample of its straps (R26): what its SER_STRAP holds, or, where it has sampled nothing since the last cold power cycle or device warm reset, the pads as the training run finds them. -/
def State.tileIdent (s : State) (t : Nat) (r : TrainIn) : Nat × Nat :=
  if s.flag (P.serTile t) F.SER_STRAP_valid then (s.fld (P.serTile t) F.SER_STRAP_site_id, s.fld (P.serTile t) F.SER_STRAP_pkg_build)
  else (r.site.toNat, r.build.toNat)

/-- SER_STRAP of an end takes an identity. -/
def State.putIdent (s : State) (pg : Nat) (v : Nat × Nat) : State :=
  ((s.setFld pg F.SER_STRAP_site_id v.1).setFld pg F.SER_STRAP_pkg_build v.2).setFlag pg F.SER_STRAP_valid true

/-- The identity exchange of a bundle: the hub checks what the tile reports (R27). In a tile reset the tile then applies its fuse maps again (04 R98). -/
def State.bundleIdent (s : State) (t : Nat) (r : TrainIn) : State :=
  let id := s.tileIdent t r
  let code := s.strapCode t id.1 id.2
  let s1 := s.putIdent (P.serHub t) id
  if code = 0 then
    let s2 := (s1.linkActive (32 + t)).setFlag (P.tile t) F.TILE_STS_trained true
    if s.ready then s2.setFlag (P.tile t) F.TILE_STS_fuse_ok true else s2
  else s1.strapConflict (32 + t) t code

/-- The identity exchange of a bridge link: each of the two tiles checks the SITE_ID that the other reports (R27). A PKG_BUILD that differs is an event only (R49), since R27 leaves that check to the hub. -/
def State.bridgeIdent (s : State) (k : Nat) (r : TrainIn) : State :=
  match farEnd k with
  | none => s
  | some e =>
    let s1 := (s.setFld (endPg k) F.LNK_STS_peer_site r.site.toNat).setFld (endPg e) F.LNK_STS_peer_site r.siteBack.toNat
    let c1 := identCode false r.site.toNat (e / 4) 0 0
    let c2 := identCode false r.siteBack.toNat (k / 4) 0 0
    if c1 ≠ 0 then s1.strapConflict k (k / 4) c1
    else if c2 ≠ 0 then s1.strapConflict k (e / 4) c2
    else (if r.build.toNat ≠ s.fld P.boot F.BOOT_STRAP_pkg_build then s1.each [k, e] fun x s => s.event (endPg x) 5 else s1).linkActive k

/-- A link may come up now (R48; 04 R98): a bundle from step 5 on; a bridge link in step 6 once both its tiles have applied their fuse maps, or after that where the device is ready or a write of LNK_CTL.retrain asks for it. -/
def State.trainTime (s : State) (k : Nat) : Bool :=
  !s.flag P.boot F.BOOT_STS_failed &&
  if isSer k then decide (5 ≤ s.stage)
  else
    let ends := k :: (farEnd k).toList
    (ends.all fun e => s.flag (P.tile (e / 4)) F.TILE_STS_fuse_ok) &&
    (s.stage == 6 || s.ready || (decide (6 ≤ s.stage) && ends.any fun e => s.fld (endPg e) F.LNK_CTL_retrain != 0))

/-- A run of training of the bridge link of end k that fails leaves it DOWN (R48). -/
def State.trainFailed (s : State) (k : Nat) : State := ((s.retrainEnd k 2).linkSet k 1).setFailed k true

/-! Retrains (R40, R42, R45). -/

/-- A retrain of the link of end k: DRAIN from ACTIVE; under way it merges (R40). -/
def State.retrain (s : State) (k : Nat) : State :=
  if s.eState k = 3 then (s.each (k :: (farEnd k).toList) fun e s => s.setLend e { s.lend e with drainRetrain := true }).linkSet k 4 else s

/-- A retrain that software asks for also brings a link that is DOWN to TRAIN, whatever held it down (R45). -/
def State.retrainAsked (s : State) (k : Nat) : State :=
  if s.eState k = 1 then (let s1 := s.setFailed k false; if s1.mayTrain k then s1.linkSet k 2 else s1) else s.retrain k

/-- The link of end k goes DOWN after DRAIN. -/
def State.drainDown (s : State) (k : Nat) : State :=
  match s.eState k with
  | 3 => (s.each (k :: (farEnd k).toList) fun e s => s.setLend e { s.lend e with drainRetrain := false }).linkSet k 4
  | 4 => s.each (k :: (farEnd k).toList) fun e s => s.setLend e { s.lend e with drainRetrain := false }
  | 2 => s.linkSet k 1
  | 5 => s.bridgeDown k
  | _ => s

/-- A tile reset takes a link: a retrain or training in progress is superseded, and the link drains towards DOWN (R43, R44). -/
def State.drainForReset (s : State) (k : Nat) : State :=
  let s1 := s.each (k :: (farEnd k).toList) fun e s => (s.setRetrain e false).setLend e { s.lend e with drainRetrain := false }
  match s.eState k with
  | 3 => s1.linkSet k 4
  | 4 => s1
  | 5 => s1.linkSet k 4
  | 2 => s1.linkSet k 1
  | _ => s

/-- REPLAY_LIMIT_REACHED: a limit of 0 acts as 1. -/
def execReplayLimitReached (e : LinkEndId) (s : State) : Host.Outcome State Fault Refusal :=
  .next <|
    let k := endKey e
    if s.eState k = 3 ∧ max 1 (s.eget k F.LNK_CTL_replay_limit F.SER_CTL_replay_limit) ≤ (s.lend k).replays
    then (s.event (endPg k) 0).retrain k else s

/-- FEC_THRESHOLD_EXCEEDED (R40): the current 1 ms window holds more corrected bytes than SER_CTL.fec_thresh. -/
def execFecThresholdExceeded (t : Fin 8) (hub : Bool) (s : State) : Host.Outcome State Fault Refusal :=
  .next <|
    let k := (if hub then 40 else 32) + t.val
    if s.fld (endPg k) F.SER_CTL_fec_thresh < (s.lend k).fecSum ∧ s.now < (s.lend k).fecAt + 1000000 then s.retrain k else s

/-- LINK_DRAIN_DONE: with both replay buffers empty the PHY retrains, or the link goes DOWN; the reset of one of its tiles is no fault of the link and has no record of its own. -/
def execLinkDrainDone (l : LinkId) (s : State) : Host.Outcome State Fault Refusal :=
  .next <|
    let k := linkKey l
    let ends := k :: (farEnd k).toList
    if s.eState k ≠ 4 ∨ !(ends.all fun e => (s.lend e).replay.isEmpty) then s
    else if ends.all fun e => (s.lend e).drainRetrain then (s.each ends fun e s => s.endClear e).linkSet k 5
    else if isSer k || ends.any (fun e => s.rsts.any fun r => r.scope == 4 && r.target == e / 4) then (s.linkSet k 1).reroute
    else s.bridgeDown k

/-- LINK_RETRAIN_DONE: a run that works returns the link to ACTIVE; a run that fails leaves it to its time limit. -/
def execLinkRetrainDone (l : LinkId) (r : TrainIn) (s : State) : Host.Outcome State Fault Refusal :=
  .next <|
    let k := linkKey l
    if s.eState k ≠ 5 then s
    else match s.trainPhy k r with
      | none => s
      | some s1 => (s1.linkActive k).each (k :: (farEnd k).toList) fun e s => s.event (endPg e) 1

/-- A clock-loss report to the hub (R35), with event bit 4 and a Trail record. -/
def State.clockLost (s : State) (pg block t : Nat) : State := ((s.event pg 4).emit (.clockLoss t)).trailPut 0x07 block 2 [3, t]

/-- LINK_WATCHDOG_EXPIRY. -/
def execLinkWatchdogExpiry (e : LinkEndId) (s : State) : Host.Outcome State Fault Refusal :=
  .next <|
    let k := endKey e
    if s.carries k || s.eState k == 5 then s.clockLost (endPg k) (if isSer k then 0x1B else 0x1A) (farTile k) else s

/-- DCLK_LOSS_REPORT: the tile's bundle carries it. -/
def execDclkLossReport (x : Fin 512) (s : State) : Host.Outcome State Fault Refusal :=
  .next ((s.emit (.clockLoss (x / 64))).trailPut 0x07 0x17 2 [3, x / 64])

/-! Control writes. -/

/-- LNK_RETRAIN: reads 1 until the retrain completes or fails. -/
def State.lnkRetrainWrite (s : State) (k : Nat) : State :=
  let s1 := s.retrainAsked k
  if s1.eState k = 4 ∨ s1.eState k = 5 ∨ s1.eState k = 2 then s1.setRetrain k true else s1

def execLnkRetrain (rq : Requester) (t : Fin 8) (d : Fin 4) (s : State) : Host.Outcome State Fault Refusal :=
  .next (s.tileWrite rq (P.lnk t d) 0x040 (.retrain (4 * t + d)) fun s => s.lnkRetrainWrite (4 * t + d))

/-- SER_RETRAIN. -/
def execSerRetrain (rq : Requester) (t : Fin 8) (hub : Bool) (s : State) : Host.Outcome State Fault Refusal :=
  .next (s.tileWrite rq (if hub then P.serHub t else P.serTile t) 0x040 (.retrain (32 + t)) fun s => s.lnkRetrainWrite ((if hub then 40 else 32) + t))

/-- LNK_CTL.force_down takes a value. -/
def State.lnkForceWrite (s : State) (rq : Requester) (k : Nat) (v : Bool) : State :=
  s.rwlWrite rq (endPg k) F.LNK_CTL_force_down (b2n v) fun s => if v then s.drainDown k else s

/-- LNK_FORCE_DOWN. -/
def execLnkForceDown (rq : Requester) (t : Fin 8) (d : Fin 4) (v : Bool) (s : State) : Host.Outcome State Fault Refusal :=
  .next (s.tileWrite rq (P.lnk t d) 0x040 (.forceDown rq (4 * t + d) v) fun s => s.lnkForceWrite rq (4 * t + d) v)

/-- LNK_CTL.enable takes a value: 0 holds the link DOWN, 1 lets it train. -/
def State.lnkEnableWrite (s : State) (rq : Requester) (k : Nat) (v : Bool) : State :=
  s.rwlWrite rq (endPg k) F.LNK_CTL_enable (b2n v) fun s =>
    if !v then s.drainDown k else if s.eState k = 1 ∧ s.mayTrain k ∧ (s.lend k).failed = false then s.linkSet k 2 else s

/-- LNK_ENABLE. -/
def execLnkEnable (rq : Requester) (t : Fin 8) (d : Fin 4) (v : Bool) (s : State) : Host.Outcome State Fault Refusal :=
  .next (s.tileWrite rq (P.lnk t d) 0x040 (.enable rq (4 * t + d) v) fun s => s.lnkEnableWrite rq (4 * t + d) v)

/-- LNK_CNT0 and LNK_CNT1 are cleared. -/
def State.lnkCntClear (s : State) (t d : Nat) : State :=
  s.each [F.LNK_CNT0_replay_cnt, F.LNK_CNT0_crc_err_cnt, F.LNK_CNT1_half_err_cnt, F.LNK_CNT1_dup_drop_cnt] fun f s => s.setFld (P.lnk t d) f 0

/-- LNK_CLR_CNT. -/
def execLnkClrCnt (rq : Requester) (t : Fin 8) (d : Fin 4) (s : State) : Host.Outcome State Fault Refusal :=
  .next (s.tileWrite rq (P.lnk t d) 0x040 (.lnkClear t d) fun s => s.lnkCntClear t d)

/-- SER_CNT is cleared. -/
def State.serCntClear (s : State) (pg : Nat) : State :=
  s.each [F.SER_CNT_fec_corr, F.SER_CNT_fec_uncorr, F.SER_CNT_replay_cnt] fun f s => s.setFld pg f 0

/-- SER_CLR_CNT. -/
def execSerClrCnt (rq : Requester) (t : Fin 8) (hub : Bool) (s : State) : Host.Outcome State Fault Refusal :=
  let pg := if hub then P.serHub t else P.serTile t
  .next (s.tileWrite rq pg 0x040 (.serClear t) fun s => s.serCntClear pg)

end Sys2Proof.Machine
end

