-- ==== Sys2Proof/Machine/Resets.lean ====
section
/-! DEFINITION. Resets of scopes 1 to 5 (14 R336-R342, R346): quiesce, absorb point, restore, HUB_RST_CMD and PT_CMD; loss of a tile (02 R46; 14 R346, R348). -/
namespace Sys2Proof.Machine

/-! Domains. -/

/-- The partitions that exist and have clusters on tile t. -/
def State.ptsOnTile (s : State) (t : Nat) : List Nat :=
  (List.range 8).filter fun p => (s.ptState p == 2 || s.ptState p == 3 || s.ptState p == 4) && s.ptOnTile p t

/-- The clusters a reset covers itself. -/
def Rst.clusters (s : State) (r : Rst) : List Nat := (List.range 64).filter fun cl => r.coversClu s cl

/-! Quiesce (R337 phase 1). -/

/-- An idle, booting or monitor core stops for its reset. -/
def State.coreHalt (s : State) (x : Nat) : State :=
  if s.coreSt x = 1 ∨ s.coreSt x = 2 ∨ s.coreSt x = 3 then s.setFld (P.core x) F.CORE_STS_state 0 else s

def State.cluHalt (s : State) (cl : Nat) : State := s.each (List.range 8) fun p s => s.coreHalt (8 * cl + p)

/-- Step 1 and 2 of R340, with the scope code that entries carry. -/
def State.ptQuiesce (s : State) (p scope : Nat) : State :=
  let s1 := { (s.setPtState p 3).setPaused p true with ptPend := Tab.set nat0 s.ptPend p 0 }
  let s2 := s1.each ((List.range 16).filter fun h => s1.hpcGranted h && s1.fld (P.hpc h) F.HPC_GRANT_partition == p) fun h s =>
    s.hpcStop h 6
  let s3 := s2.each (s2.tenantsOf p) fun n s => s.tnQuiesce n scope false
  let s4 := s3.stopJobs (s3.jobsWhere fun j => j.part == p) 8 scope
  s4.each (s4.partClusters p) fun cl s => s.cluHalt cl

/-- The links of tile t, by an end: its bundle and its bridge links. -/
def tileLinks (t : Nat) : List Nat := (32 + t) :: ((List.range 4).filter fun d => (neighbour t d).isSome).map (4 * t + ·)

/-- Phase 1 of a new reset. The links of a tile drain (02 R43). -/
def State.rstQuiesce (s : State) (r : Rst) : State :=
  match r.scope with
  | 1 =>
    let x := s.physOf r.target
    (s.stopJobs (s.jobsWhere fun j => j.ranks.contains x) 8 1).coreHalt x
  | 2 => (s.stopJobs (s.jobsWhere fun j => j.ranks.any (· / 8 == r.target)) 8 2).cluHalt r.target
  | 3 => s.ptQuiesce r.target 3
  | 4 =>
    let ps := s.ptsOnTile r.target
    let subs := ps.map fun p => (⟨3, p, s.now, false, false, true, 0, false⟩ : Rst)
    let s1 := { s with rsts := s.rsts ++ subs }.each ps fun p s => s.ptQuiesce p 4
    let s2 := s1.each (List.range 8) fun c s => s.cluHalt (8 * r.target + c)
    s2.each (tileLinks r.target) fun k s => s.drainForReset k
  | _ => s

/-- Start a reset of scope 1 to 4: merged into one whose domain contains its own, else from its own trigger, ending the narrower ones as part of it (R346). -/
def State.rstStart (s : State) (scope target : Nat) : State :=
  let r : Rst := ⟨scope, target, s.now, false, false, false, 0, false⟩
  if s.rsts.any fun a => s.rstCovers a r then s
  else
    let parts := if scope = 4 then (s.ptsOnTile target).map fun p => { r with scope := 3, target := p } else []
    { s with rsts := s.rsts.filter (fun b => !(r :: parts).any fun a => s.rstCovers a b) ++ [r] }.rstQuiesce r

/-! The absorb point (R337 phase 3, R338). -/

/-- The pages of the blocks of physical core x that lie in a core reset: CORE, MXE, TGU, MOV, STO. -/
def coreBlocks (x : Nat) : List Nat := [P.core x, P.mxe x, P.tgu x, P.mov x, P.sto x]

/-- The pages of a cluster's own blocks: CLU, KVW, ATU. Its SCB pages keep their header (13). -/
def cluBlocks (cl : Nat) : List Nat := [P.clu cl, P.kvw cl, P.atu cl]

/-- The pages of a tile's own blocks: TILE, LNK, the tile end of its bundle, SLC. -/
def tileBlocks (t : Nat) : List Nat :=
  [P.tile t, P.serTile t] ++ (List.range 4).map (P.lnk t) ++ (List.range 64).map fun i => P.slc (64 * t + i)

def State.coreAbsorb (s : State) (x code : Nat) : State :=
  ((s.endJobs (s.jobsWhere fun j => j.ranks.contains x) 8 code).hdrResets (coreBlocks x)).coreWipe x

/-- A cluster: its jobs end, its cores and spare stores are cleared, the walker is flushed, the ATU abandons its command with the cores' queues (R341). -/
def State.cluAbsorb (s : State) (cl code : Nat) : State :=
  let s1 := (s.each (List.range 8) fun p s => s.coreAbsorb (8 * cl + p) code).hdrResets (cluBlocks cl)
  s1.labRemove cl fun _ => true

/-- Step 5 of R340. A tile lost meanwhile faults the partition now (R346). -/
def State.ptAbsorb (s : State) (p code : Nat) : State :=
  let s1 := s.endJobs (s.jobsWhere fun j => j.part == p) 8 code
  let s2 := s1.each (s1.partClusters p) fun cl s => s.cluAbsorb cl code
  let s3 := s2.each (s2.tenantsOf p) fun n s => s.tnAbsorb n false
  let s4 := s3.each ((List.range 16).filter fun h => s3.fld (P.hpc h) F.HPC_GRANT_partition == p) fun h s => s.hpcStopped h
  let s5 := (((s4.ptUngrant p 6).ptUnspare p).kvPartReset p).hmpPartClear p
  match Tab.get nat0 s5.ptPend p with
  | 0 => s5
  | code => ({ s5 with ptPend := Tab.set nat0 s5.ptPend p 0 }.ptRstFault p code 0)

/-- The slices of a tile that leave service for a tile reset: TRAINING unless mapped or fused out, nothing valid (13 R329, 09 R240). -/
def State.tileSlices (s : State) (t : Nat) : State :=
  let s1 := { s with slices := s.slices.clear (64 * t * 32768) (64 * 32768) }
  s1.each (List.range 64) fun i s =>
    let x := 64 * t + i
    if s.sliceState x = 4 ∨ s.sliceState x = 5 then s
    else s.setSliceState x 0 0

/-- The regulator of a tile turns on at opp 0, and its domains ramp (15 R368). -/
def State.regulatorOn (s : State) (t : Nat) : State :=
  if s.regOn t then s else ((s.setFlag (P.pwrT t) F.PWR_T_STS_reg_on true).setFld (P.pwrT t) F.PWR_T_STS_opp 0).setFld (P.pwrT t) F.PWR_T_STS_vdd_mv 620 |>.domSync t

/-- The receive buffers of a tile's bridge ports are empty. -/
def State.tileBuffers (s : State) (t : Nat) : State :=
  s.each (List.range 4) fun d s => s.setLend (4 * t + d) { s.lend (4 * t + d) with rxq := [] }

/-- A tile: its partitions and clusters, its slices, and its links, which go DOWN; FENCED is cleared towards tiles that are not lost (02 R43, R46). -/
def State.tileAbsorb (s : State) (t : Nat) : State :=
  let ps := (s.rsts.filter fun (r : Rst) => r.sub && s.ptOnTile r.target t).map (fun (r : Rst) => r.target)
  let s1 := { s with rsts := s.rsts.map fun (r : Rst) => if r.sub && ps.contains r.target then s.rstAbsorbed r else r }.each ps fun p s => s.ptAbsorb p 4
  let s2 := s1.each (List.range 8) fun c s => s.cluAbsorb (8 * t + c) 4
  let s3 := ((s2.hdrResets (tileBlocks t)).tileSlices t).linkSet (32 + t) 1
  let s4 := s3.each ((List.range 4).filter fun d => match neighbour t d with | some u => !s3.fenced u | none => false) fun d s =>
    (s.linkSet (4 * t + d) 1).setFailed (4 * t + d) false
  let s5 := s4.tileBuffers t
  (((s5.setFlag (P.tile t) F.TILE_STS_trained false).setFlag (P.tile t) F.TILE_STS_fuse_ok false).regulatorOn t).reroute

/-- The absorb point of a reset. -/
def State.rstAbsorb (s : State) (r : Rst) : State :=
  let s1 := s.setRst r (s.rstAbsorbed r)
  match r.scope with
  | 1 => s1.coreAbsorb (s1.physOf r.target) 1
  | 2 => s1.cluAbsorb r.target 2 |>.each (s1.spareOf r.target).toList fun y s => s.clearStores y
  | 3 => s1.ptAbsorb r.target 3
  | 4 => s1.tileAbsorb r.target
  | _ => s1.tnAbsorb r.target true

/-- RESET_ABSORB_POINT: the domain of the reset has no outstanding transaction, or its limit has passed. A partition inside a tile reset is absorbed with the tile. -/
def execResetAbsorbPoint (scope : Fin 8) (target : Fin 512) (s : State) : Host.Outcome State Fault Refusal :=
  .next <|
    match s.findRst scope target with
    | some r => if r.absorbed then s else s.rstAbsorb r
    | none => s

/-! Restore (R337 phase 4). -/

/-- A reset ends. -/
def State.rstEnd (s : State) (r : Rst) : State :=
  (s.rstDrop r).rstLast r

/-- Step 8 of R340: reports, tenants back, RUNNING, dispatch resumes. -/
def State.ptFinish (s : State) (p : Nat) : State :=
  let s1 := s.each (s.tenantsOf p) fun n s => s.tnFinish n
  let s2 := ((s1.setPtState p 2).setFld (P.pt p) F.PT_STS_fault 0).setPaused p false
  let s3 := s2.each (s2.tenantsOf p) fun n s => s.setTnState n (s.tnSettled n)
  (s3.event (P.pt p) 2).ptResetCmdEnd p 0

/-- Step 7 of R340: the rebuild with the current mask. A refused rebuild leaves the partition FAULTED with fault 3 (R332, R348, R349). -/
def State.ptRebuild (s : State) (p : Nat) (wipe : Bool) : State :=
  let refuse (s : State) (r : Nat) : State := s.ptRstFault p 3 r
  match s.ptCheck p with
  | some r => refuse s r
  | none =>
    let r := s.rebuild p false wipe
    if r.2 then (r.1.each (r.1.partClusters p) fun cl s => s.each (List.range 8) fun i s => s.coreBoot (8 * cl + i)).kvPartRestore p
    else refuse r.1 3

/-- No core of the clusters is fetching (step 11). -/
def State.booted (s : State) (cls : List Nat) : Bool := cls.all fun cl => (List.range 8).all fun p => s.coreSt (8 * cl + p) != 1

/-- The partition of a reset waits for a slice self-test or for a substitution (13 R328). -/
def State.ptHeld (s : State) (p : Nat) : Bool := s.ptTested p || (s.partClusters p).any s.subsHeld

/-- The subs of a tile reset that are still running. -/
def State.subsOf (s : State) (t : Nat) : List Rst := s.rsts.filter fun r => r.sub && s.ptOnTile r.target t

/-- The rebuild part of a restore, once its conditions hold. -/
def State.rstRebuild (s : State) (r : Rst) : State :=
  let s1 := s.setRst r { r with rebuilt := true }
  match r.scope with
  | 1 => s1.coreBoot (s1.physOf r.target)
  | 2 => (s1.subsApply r.target).each (List.range 8) fun p s => s.coreBoot (8 * r.target + p)
  | 3 => (s1.each (s1.partClusters r.target) fun cl s => s.subsApply cl).ptRebuild r.target false
  | 4 =>
    let t := r.target
    let s2 := ({ s1 with subs := s1.subs.filter fun f => f.tile != t }.mapTile t).domSync t
    let s3 := s2.each (List.range 8) fun c s => s.each (List.range 8) fun p s => s.coreBoot (64 * t + 8 * c + p)
    let s4 := s3.each ((s3.subsOf t).map (·.target)) fun p s => (s.each (s.partClusters p) fun cl s => s.subsApply cl).ptRebuild p true
    ((s4.setFlag (P.tile t) F.TILE_STS_trained true).setFlag (P.tile t) F.TILE_STS_fuse_ok true).tileCount t
  | _ => s1

/-- Whether the rebuild can run now. -/
def State.rstReady (s : State) (r : Rst) : Bool :=
  match r.scope with
  | 2 => !s.subsHeld r.target
  | 3 => !s.ptHeld r.target
  | 4 =>
    s.eState (32 + r.target) == 3 && (List.range 64).all (fun i => s.sliceState (64 * r.target + i) != 0) &&
    (s.subsOf r.target).all fun b => !s.ptHeld b.target
  | _ => true

/-- Whether the domain can be released: every core has fetched, every pool is initialised. -/
def State.rstDone (s : State) (r : Rst) : Bool :=
  match r.scope with
  | 1 => s.coreSt (s.physOf r.target) != 1
  | 2 => s.booted [r.target]
  | 3 => s.booted (s.partClusters r.target) && s.poolState r.target != 1
  | 4 => s.booted ((List.range 8).map (8 * r.target + ·)) &&
    (s.subsOf r.target).all fun b => s.booted (s.partClusters b.target) && s.poolState b.target != 1
  | _ => true

/-- Release the domain. -/
def State.rstRelease (s : State) (r : Rst) : State :=
  match r.scope with
  | 3 => (s.ptFinish r.target).rstEnd r
  | 4 =>
    let subs := s.subsOf r.target
    let s1 := s.each subs fun b s => (s.ptFinish b.target).rstDrop b
    (s1.tileCount r.target).rstEnd r
  | _ => s.rstEnd r

/-- RESET_RESTORE: after the clears, the rebuild runs and the cores fetch again; once they have, the domain is released. A command given before its part can run changes nothing. -/
def State.rstRestore (s : State) (r : Rst) : State :=
  if r.scope = 5 then s.tnRelease r.target
  else if !r.absorbed then s
  else
    let s1 := if r.rebuilt then s else if s.rstReady r then s.rstRebuild r else s
    match s1.findRst r.scope r.target with
    | some r1 => if r1.rebuilt && s1.rstDone r1 then s1.rstRelease r1 else s1
    | none => s1

def execResetRestore (scope : Fin 8) (target : Fin 512) (s : State) : Host.Outcome State Fault Refusal :=
  .next <|
    match s.findRst scope target with
    | some r => s.rstRestore r
    | none => s

/-! HUB_RST_CMD (R341, R346, R350). -/

/-- The targets that a scope accepts: an online core, a cluster or a tile; a core or cluster of a fenced tile is refused. -/
def State.rstTargetOk (s : State) (scope target : Nat) : Bool :=
  match scope with
  | 1 => decide (target < 448) && s.online target
  | 2 => decide (target < 64) && !s.fenced (target / 8)
  | 4 => decide (target < 8)
  | _ => false

/-- A write of HUB_RST_CMD. A cooling shutdown ignores a reset (16 R384). -/
def State.hubRstWrite (s : State) (rq : Requester) (scope target : Nat) (go : Bool) : State :=
  let pg := P.hub 2
  if go && s.inShutdown then s
  else if go && s.flag pg F.HUB_RST_CMD_go then s.countErr pg 0x40 (rqCode rq) (accessAddr rq pg 0x040)
  else
    let s1 := (s.setFld pg F.HUB_RST_CMD_scope scope).setFld pg F.HUB_RST_CMD_target target
    if !go then s1
    else if s.rstTargetOk scope target then
      (({ s1 with hubRst := (scope, target) }.setFlag pg F.HUB_RST_CMD_go true).setFlag pg F.HUB_RST_STS_busy true).rstStart scope target
    else s1.setFld pg F.HUB_RST_STS_result 1

/-- CORE_RESET. -/
def execCoreReset (rq : Requester) (target : Fin 512) (s : State) : Host.Outcome State Fault Refusal :=
  .next (s.privWrite rq (P.hub 2) 0x040 fun s => s.hubRstWrite rq 1 target true)

/-- CLUSTER_RESET. -/
def execClusterReset (rq : Requester) (target : Fin 512) (s : State) : Host.Outcome State Fault Refusal :=
  .next (s.privWrite rq (P.hub 2) 0x040 fun s => s.hubRstWrite rq 2 target true)

/-- TILE_RESET. -/
def execTileReset (rq : Requester) (target : Fin 512) (s : State) : Host.Outcome State Fault Refusal :=
  .next (s.privWrite rq (P.hub 2) 0x040 fun s => s.hubRstWrite rq 4 target true)

/-! PT_CMD (R332, R333, R340, R346, R350). -/

/-- A write of PT_CMD. While a command is in progress, go is ignored with result STATE; so is an op that the state does not allow. A cooling shutdown ignores a reset (16 R384). -/
def State.ptCmdWrite (s : State) (p op : Nat) (go : Bool) : State :=
  let pg := P.pt p
  if s.flag pg F.PT_CMD_go then (if go then s.setFld pg F.PT_STS_result 4 else s)
  else
    let s1 := s.setFld pg F.PT_CMD_op op
    if !go || (op % 4 = 2 && s.inShutdown) then s1
    else
      let s2 := s1.setFlag pg F.PT_CMD_go true
      match op % 4, s.ptState p with
      | 1, 0 => s2.buildStart p
      | 2, 2 => s2.rstStart 3 p
      | 2, 3 => s2
      | 2, 4 => s2.rstStart 3 p
      | 3, 2 => if s.mayDissolve p then (s2.ptDrop p).ptCmdEnd p 0 else s2.ptCmdEnd p 5
      | 3, 4 => if s.mayDissolve p then (s2.ptDrop p).ptCmdEnd p 0 else s2.ptCmdEnd p 5
      | _, _ => s2.ptCmdEnd p 4

/-- PARTITION_BUILD. -/
def execPartitionBuild (rq : Requester) (p : Fin 8) (s : State) : Host.Outcome State Fault Refusal :=
  .next (s.privWrite rq (P.pt p) 0x04C fun s => s.ptCmdWrite p 1 true)

/-- PARTITION_RESET. -/
def execPartitionReset (rq : Requester) (p : Fin 8) (s : State) : Host.Outcome State Fault Refusal :=
  .next (s.privWrite rq (P.pt p) 0x04C fun s => s.ptCmdWrite p 2 true)

/-- PARTITION_DISSOLVE. -/
def execPartitionDissolve (rq : Requester) (p : Fin 8) (s : State) : Host.Outcome State Fault Refusal :=
  .next (s.privWrite rq (P.pt p) 0x04C fun s => s.ptCmdWrite p 3 true)

/-! Loss of a tile (02 R46). -/

/-- Codes of the causes of a loss in the Trail record. -/
def lostCode : LostCause → Nat
  | .clock => 0
  | .retrainFailed => 1
  | .cdr => 2
  | .regulator => 3
  | .disabled => 4
  | .bringup => 5

/-- The regulator of a tile turns off, and every domain with it (15 R367). -/
def State.regulatorOff (s : State) (t : Nat) : State :=
  let pg := P.pwrT t
  let s1 := (((s.setFlag pg F.PWR_T_STS_reg_on false).setFld pg F.PWR_T_STS_opp 0).setFld pg F.PWR_T_STS_vdd_mv 0).setFlag pg F.PWR_T_STS_busy false
  { s1 with power := { s1.power with chg := Tab.set chg0 s1.power.chg t OppChg.none, clamp := Tab.set bit0 s1.power.clamp t false } }.domSync t

/-- A tile reset in progress of a lost tile has no drain, and ends: its partitions fault. -/
def State.tileRstLost (s : State) (t : Nat) : State :=
  match s.findRst 4 t with
  | none => s
  | some r =>
    let s1 := if r.absorbed then s else
      let s1 := s.setRst r (s.rstAbsorbed r)
      let ps := (s1.subsOf t).map (·.target)
      s1.each ps fun p s => s.ptAbsorb p 4
    match s1.findRst 4 t with
    | some r1 =>
      let subs := s1.subsOf t
      let s2 := s1.each subs fun b s => s.ptRstFault b.target 1 0
      s2.rstEnd r1
    | none => s1

/-- The hub declares tile t lost: bundle and bridge links FENCED, regulator off, partitions fault, cores offline, other tiles reroute (02 R46, 14 R348, 04 R93). -/
def State.tileLost (s : State) (t : Nat) (cause : LostCause) : State :=
  if s.fenced t then s
  else
    let s1 := (s.each (tileLinks t) fun k s => s.linkSet k 6).tileBuffers t
    let s2 := ((s1.heldLost t).regulatorOff t).trailPut 0x07 0x1B 2 [2, t, lostCode cause]
    let s3 := if s2.ready then s2 else s2.satFld P.boot F.BOOT_STS_tiles_fenced 1
    let s4 := (s3.each (s3.ptsOnTile t) fun p s => s.ptFaultEvent p 1).tileRstLost t
    let s5 := s4.each (List.range 8) fun c s =>
      (s.each (List.range 8) fun p s => s.coreWipe (64 * t + 8 * c + p)).setFld (P.clu (8 * t + c)) F.CLU_MAP_online 0
    s5.reroute

/-- TILE_LOST. -/
def execTileLost (t : Fin 8) (c : LostCause) (s : State) : Host.Outcome State Fault Refusal := .next (s.tileLost t c)

/-- LINK_RETRAIN_TIMEOUT (02 R40, R45): a bridge link goes DOWN and stays so, a bundle's tile is lost. A drain towards DOWN is no retrain. -/
def execLinkRetrainTimeout (l : LinkId) (s : State) : Host.Outcome State Fault Refusal :=
  .next <|
    let k := linkKey l
    if s.eState k ≠ 5 ∧ (s.eState k ≠ 4 ∨ (s.lend k).drainRetrain = false) then s
    else
      let s1 := s.each (k :: (farEnd k).toList) fun e s => (s.event (endPg e) 2).setRetrain e false
      if isSer k then s1.tileLost (k - 32) .retrainFailed else s1.bridgeFail k

/-- SER_CTL.enable takes a value: 0 holds the bundle DOWN and the tile is lost. -/
def State.serEnableWrite (s : State) (rq : Requester) (pg t : Nat) (v : Bool) : State :=
  s.rwlWrite rq pg F.SER_CTL_enable (b2n v) fun s => if v then s else s.tileLost t .disabled

/-- SER_ENABLE. -/
def execSerEnable (rq : Requester) (t : Fin 8) (hub : Bool) (v : Bool) (s : State) : Host.Outcome State Fault Refusal :=
  let pg := if hub then P.serHub t else P.serTile t
  .next (s.tileWrite rq pg 0x040 (.serEnable rq t v) fun s => s.serEnableWrite rq pg t v)

end Sys2Proof.Machine
end

