-- ==== Sys2Proof/Machine/Trail.lean ====
section
/-! DEFINITION. The Trail (17 R409-R412): layout of a record with its commit word, the write of a queued record, TRL_IDX. -/
namespace Sys2Proof.Machine

/-- One bit of the reflected CRC-32 of IEEE 802.3. -/
def crcBit (c : Nat) : Nat := if c % 2 = 1 then (c / 2) ^^^ 0xEDB88320 else c / 2

/-- One byte of it. -/
def crcByte (c : Nat) (b : Byte) : Nat := crcBit (crcBit (crcBit (crcBit (crcBit (crcBit (crcBit (crcBit (c ^^^ b.toNat))))))))

/-- CRC-32 with initial and final XOR 0xFFFF_FFFF (R410). -/
def crc32 (bs : List Byte) : Nat := bs.foldl crcByte 0xFFFFFFFF ^^^ 0xFFFFFFFF

/-- Bytes of dwords, little-endian. -/
def dwordBytes (ds : List Nat) : List Byte := ds.flatMap fun d => leBytes 4 d

/-- The body of a record as fifteen dwords (R410). -/
def TrailRec.body (r : TrailRec) : List Nat :=
  [r.seq % 2 ^ 32, r.typ % 2 ^ 16 + 2 ^ 16 * (r.block % 256) + 2 ^ 24 * (r.sev % 256), r.ptp % 2 ^ 32, r.ptp / 2 ^ 32 % 2 ^ 32, r.boot % 2 ^ 32,
   r.ms % 2 ^ 32] ++ (List.range 9).map fun i => r.payload.getD i 0 % 2 ^ 32

/-- The sixteen dwords of a slot, the commit word last. -/
def TrailRec.raw (r : TrailRec) : List Nat := r.body ++ [crc32 (dwordBytes r.body)]

/-- What a slot reads as, raw, a torn record included (R412); a slot never written reads 0 (DESIGN CHOICE, log entry 8). -/
def State.trailRaw (s : State) (k : Nat) : List Nat :=
  match Tab.get list0 s.trail.torn k, Tab.get slot0 s.trail.slots k with
  | [], some r => r.raw
  | [], none => List.replicate 16 0
  | ds, _ => ds

/-- The next sequence number, never 0. -/
def nextSeq (n : Nat) : Nat := if (n + 1) % 2 ^ 32 = 0 then 1 else (n + 1) % 2 ^ 32

/-- Where a record goes (R409): the field map, the snapshots (cycle counts and SVN commits), or the log. -/
inductive Region where
  | map
  | snapshot
  | log
deriving DecidableEq, Repr

/-- The region of a record: a FIELD_MAP record marked in its cause as having found the region full goes to the log. -/
def TrailRec.region (r : TrailRec) (mapped : Nat) : Region :=
  if r.typ = 2 then (if bitOf (r.payload.getD 4 0) 7 || decide (1024 ≤ mapped) then .log else .map)
  else if r.typ = 5 ∨ (r.typ = 9 ∧ r.payload.getD 0 0 = 1) then .snapshot
  else .log

/-- The slot that a record is written to. -/
def State.trailSlot (s : State) (r : TrailRec) : Nat :=
  match r.region (s.fld P.trl F.TRL_STS_fmap_cnt) with
  | .map => s.fld P.trl F.TRL_STS_fmap_cnt
  | .snapshot => s.trail.snapNext
  | .log => max 1088 (s.fld P.trl F.TRL_STS_next_slot)

/-- A record as it is written: with the next sequence number. -/
def State.numbered (s : State) (r : TrailRec) : TrailRec := { r with seq := nextSeq (s.fld P.trl F.TRL_SEQ_value) }

/-- A record is written: its sequence number, its slot. -/
def State.trailWrite (s : State) (r : TrailRec) : State :=
  let r := s.numbered r
  let k := s.trailSlot r
  let s1 := (s.setFld P.trl F.TRL_SEQ_value r.seq).event P.trl 0
  let s2 := { s1 with trail := { s1.trail with slots := Tab.set slot0 s1.trail.slots k (some r), torn := Tab.set list0 s1.trail.torn k [] } }
  match r.region (s.fld P.trl F.TRL_STS_fmap_cnt) with
  | .map => s2.setFld P.trl F.TRL_STS_fmap_cnt (k + 1)
  | .snapshot => { s2 with trail := { s2.trail with snapNext := if k + 1 = 1088 then 1024 else k + 1 } }
  | .log => s2.setFld P.trl F.TRL_STS_next_slot (if k + 1 = 4096 then 1088 else k + 1)

/-- VDD_AO fails while the oldest queued record is being written (16 R386): each dword of its body may be there already, its commit word is not, and the slot keeps what was there before for the rest. -/
def State.trailTear (s : State) : State :=
  match s.trail.queue with
  | [] => s
  | r :: _ =>
    let k := s.trailSlot (s.numbered r)
    let old := s.trailRaw k
    let new := (s.numbered r).raw
    let mixed := (List.range 16).map fun i => (if i < 15 && (Config.freeByte s.fresh i).getLsbD 0 then new else old).getD i 0
    if mixed = old then s.tick
    else { s.tick with trail := { s.trail with slots := Tab.set slot0 s.trail.slots k none, torn := Tab.set list0 s.trail.torn k mixed } }

/-- The oldest queued record is written; a LOST record follows once space frees (R412). -/
def State.trailCommit (s : State) : State :=
  match s.trail.queue with
  | [] => s
  | r :: q =>
    let s1 := { s with trail := { s.trail with queue := q } }.trailWrite r
    let n := s1.trail.lost
    let s2 := if n = 0 then s1 else { s1 with trail := { s1.trail with lost := 0 } }.trailPut 0x0B 0x0C 1 [n]
    s2.setFlag P.trl F.TRL_STS_busy (!s2.trail.queue.isEmpty)

/-- TRAIL_RECORD_COMMIT. -/
def execTrailRecordCommit (s : State) : Host.Outcome State Fault Refusal := .next s.trailCommit

/-- A write of TRL_IDX snapshots the slot into TRL_REC. -/
def State.trlIndex (s : State) (slot : Nat) : State :=
  let ds := s.trailRaw (slot % 4096)
  (s.setFld P.trl F.TRL_IDX_slot slot).each (List.range 16) fun i s => s.setFld P.trl (F.TRL_REC_dword i) (ds.getD i 0)

/-- TRL_IDX_WRITE. -/
def execTrlIdxWrite (rq : Requester) (v : Word) (s : State) : Host.Outcome State Fault Refusal :=
  .next (s.privWrite rq P.trl 0x04C fun s => s.trlIndex v.toNat)

end Sys2Proof.Machine
end

