-- ==== Sys2Proof/Machine/Boot.lean ====
section
/-! DEFINITION. Bring-up (04): image checks (R77-R79), the steps of R73 and their ends, push (R89), the itinerary (R83), what a core and a slice do at steps 11 and 8, watchdogs (R91), failures (R97). -/
namespace Sys2Proof.Machine

/-! Image verification. -/

/-- Where an image is loaded (R90; DESIGN CHOICE, log entry 69): a stage-1 image whole from compartment 0, a payload image whole from the first compartment after it. -/
def State.loadBase (s : State) (typ : Nat) : Nat :=
  match s.boot.stage1 with
  | some a => if typ = 1 then 0 else (a.totalLen + 65535) / 65536 * 65536
  | none => 0

/-- The size limit of an image of a type (R78). -/
def imageLimit (typ : Nat) : Nat := if typ = 1 then 0x800000 else 0x1800000

/-- An image lies in the firmware region of the Hamper. -/
def State.loadImage (s : State) (typ : Nat) (m : Image) : State :=
  { s with hmp := s.hmp.wr (s.loadBase typ) (m.raw.take (imageLimit typ)) false }

/-- The bytes of section i of an image as they lie in the Hamper. -/
def State.sectionBytes (s : State) (typ : Nat) (m : Image) (i : Nat) : List Byte :=
  match m.sections[i]? with
  | some x => s.hmp.rdN (s.loadBase typ + x.off) x.len
  | none => []

/-- R79 for this device, of an image loaded in the Hamper. -/
def State.refusal (s : State) (typ : Nat) (m : Image) : Option (Nat × Nat) :=
  m.refusal typ (s.fld P.boot F.BOOT_STRAP_pkg_build) s.board.revoked s.board.svn s.board.keys (s.sectionBytes typ m)

/-- The first candidate (slot and image) that verifies, after the refusals of those before it, with the state in which the candidates tried have been loaded. An empty image is no candidate. -/
def State.pickImage (s : State) (typ : Nat) : List (Nat × Option Image) → State × List (Nat × Nat) × Option (Nat × Image)
  | [] => (s, [], none)
  | (_, none) :: l => s.pickImage typ l
  | (k, some m) :: l =>
    let s1 := s.loadImage typ m
    match s1.refusal typ m with
    | none => (s1, [], some (k, m))
    | some e => let r := s1.pickImage typ l; (r.1, e :: r.2.1, r.2.2)

/-- Errors met on the way, each with its Trail record. -/
def State.noteErrs (s : State) (es : List (Nat × Nat)) : State := s.each es fun e s => s.bootErr e.1 e.2 s.stage

/-- Boot stops with the last of a list of errors. Where no candidate was there to fail (each one empty, or of another version than the running image), the spec names no error: DESIGN CHOICE (log entry 47), IMAGE_FORMAT with detail 1. -/
def State.failErrs (s : State) (es : List (Nat × Nat)) : State :=
  match es.getLast? with
  | some e => (s.noteErrs es.dropLast).bootFail e.1 e.2
  | none => s.bootFail 5 1

/-! Steps 2 to 5. -/

/-- The ROM waits for a push (R89). -/
def State.waitPush (s : State) : State := (s.setFlag P.boot F.BOOT_STS_wait_push true).event P.boot 3

def State.setStage (s : State) (n : Nat) : State := s.setFld P.boot F.BOOT_STS_stage n

/-- Step 4 starts: with BOOT_SRC 0b01 only a push is read. -/
def State.stage4 (s : State) : State :=
  let s1 := s.setStage 4
  if s.board.bootSrc = 1 then s1.waitPush else s1

/-- Step 5 starts: the field map of the Trail is known, the tiles' regulators and domains come up (15 R368). -/
def State.stage5 (s : State) : State :=
  let s1 := { s.setStage 5 with boot := { s.boot with facts := s.fieldMap } }
  s1.each (List.range 8) fun t s => (s.mapTile t).regulatorOn t

/-- A stage-1 image is accepted: from slot k, source src (0 SPI, 1 owner push, 2 management push). -/
def State.acceptStage1 (s : State) (k src : Nat) (md : Medium) (m : Image) : State :=
  let s1 := { s with boot := { s.boot with stage1 := some m.accepted, medium := some md, alt := false } }
  let s2 := (((s1.setFld P.boot F.BOOT_STS_slot k).setFld P.boot F.BOOT_STS_src src).setFld P.boot F.BOOT_FW_VER_fw_version m.fwVersion).setFld
    P.mgt F.MGT_SEC_run_slot m.keySlot
  s2.stage5

/-- No candidate is left (R97): a push under BOOT_SRC 0b10 where the candidates came from the flash, else boot stops. -/
def State.noImage (s : State) (push : Bool) (es : List (Nat × Nat)) : State :=
  if !push && s.board.bootSrc = 2 then (s.noteErrs (if es.isEmpty then [(5, 1)] else es)).waitPush else s.failErrs es

/-- A boot medium has been read at step 4: the stage-1 image of the preferred slot, then of the other. -/
def State.mediumRead (s : State) (md : Medium) (src : Nat) : State :=
  match s.pickImage 1 (stage1s md) with
  | (s1, es, some (k, m)) => (s1.noteErrs es).acceptStage1 k src md m
  | (s1, es, none) => s1.noImage (src != 0) es

/-- The variant fuses match a row of the variant table (R85; 00 Limits). -/
def Board.variantOk (b : Board) : Bool :=
  (b.variant == 0 && b.tclk == 1800 && b.pSust == 150 && b.pPeak == 180 && b.peakMs == 10) ||
  (b.variant == 1 && b.tclk == 1500 && b.pSust == 110 && b.pPeak == 130 && b.peakMs == 10) ||
  (b.variant == 2 && b.tclk == 1200 && b.pSust == 80 && b.pPeak == 95 && b.peakMs == 10)

/-- SER_STRAP.conflict of the hub: of the hub ends of all bundles, since R27 names the register and not its instance (DESIGN CHOICE, log entry 47). -/
def State.hubConflict (s : State) (code : Nat) : State := s.each (List.range 8) fun t s => s.setFld (P.serHub t) F.SER_STRAP_conflict code

/-- Step 2 (R27 codes 3 and 5, R74, R85, 18 R418): straps and variant; the always-on straps and the owner follow the samples, and the fused limits are loaded. The one PKG_BUILD that is not reserved is 1 (02 R25). Where several checks fail the spec does not say which is reported: DESIGN CHOICE (log entry 47), the strap conflicts 3 and 5, then STRAP_INVALID, then VARIANT_INVALID. -/
def State.step2 (s : State) (owner src site build mode media mgt : Nat) : State :=
  let b := { s.board with ownerPort := owner, bootSrc := src, clkMode := mode, media := media, mgtAddr := mgt }
  let s1 := ((((({ s with board := b }.setFld P.boot F.BOOT_STRAP_owner_port owner).setFld P.boot F.BOOT_STRAP_boot_src src).setFld P.boot
    F.BOOT_STRAP_hub_site site).setFld P.boot F.BOOT_STRAP_pkg_build build).setFld (P.hub 0) F.HUB_OWNER_owner_port owner)
  let bad := (List.range 4).foldl (fun m n => if Machine.bits mode (2 * n) 2 = 3 then m + 2 ^ n else m) 0
  let s2 := (((((s1.setFld (P.hub 0) F.HUB_STRAP_EXT_clk_mode mode).setFld (P.hub 0) F.HUB_STRAP_EXT_stp_media media).setFld (P.hub 0)
    F.HUB_STRAP_EXT_mgt_addr mgt).setFld (P.hub 0) F.HUB_STRAP_EXT_port_clk_bad bad)).fuseLoad
  if site ≠ 8 then ((s2.hubConflict 3).trailPut 0x07 0x0D 3 [0, 8, 3]).bootFail 0x01 3
  else if build ≠ 1 then ((s2.hubConflict 5).trailPut 0x07 0x0D 3 [0, 8, 5]).bootFail 0x01 5
  else if src = 3 then s2.bootFail 0x02 3
  else if !b.variantOk then s2.bootFail 0x03 0
  else s2.stage4

/-! Steps 5 to 8. -/

/-- Every queued or ramping domain of tile t ends ON (the ramps that no row of their own has run). -/
def State.rampsEnd (s : State) (t : Nat) : State :=
  s.each (List.range 136) fun i s => if s.dom t i = 1 ∨ s.dom t i = 2 then (s.setDom t i 3).setRamp t i 0 else s

/-- Every tile that is not fenced has applied its fuse maps. -/
def State.fusesDone (s : State) : Bool := (List.range 8).all fun t => s.fenced t || s.flag (P.tile t) F.TILE_STS_fuse_ok

/-- Each bridge link is trained, or left DOWN, or held down by a fence or its controls (R48, R91). -/
def State.bridgesDone (s : State) : Bool :=
  (List.range 32).all fun k => (farEnd k).isNone || s.eState k == 3 || (s.lend k).failed || !s.mayTrain k

/-- Step 6: the fuse maps are applied; the step ends once the bridge links have trained (R48, R73). -/
def State.step6 (s : State) : State :=
  let s1 := if s.fusesDone then s
    else s.each ((List.range 8).filter fun t => !s.fenced t) fun t s => (s.mapTile t).setFlag (P.tile t) F.TILE_STS_fuse_ok true
  if s1.bridgesDone then s1.setStage 7 else s1

/-- A slice that the fuse map or the field map leaves out (09 R236). -/
def State.sliceOut (s : State) (x : Nat) : Bool :=
  bitOf (Tab.get nat0 s.board.badSlice (x / 64)) (x % 64) ||
  s.boot.facts.any fun f => f.kind == 1 && f.tile == x / 64 && 8 * f.cluster + f.p == x % 64

/-- Step 7: the field map, and its digest for measurement 7 (17 R406); then the slices start to train. -/
def State.step7 (s : State) : State :=
  let s1 := s.each ((List.range 8).filter fun t => !s.fenced t) fun t s => (s.mapTile t).domSync t
  let s2 := s1.each (List.range 512) fun x s =>
    s.setSliceState x (if s.sliceOut x then 5 else 0) 0
  { s2 with boot := { s2.boot with mapDigest := Config.sha384 (dwordBytes ((List.range 1024).flatMap fun k => if k < s.fld P.trl F.TRL_STS_fmap_cnt then s.trailRaw k else [])) } }.setStage 8

/-- BOOT_MEM at the end of step 8. -/
def State.bootMem (s : State) : State :=
  let n := ((List.range 512).filter fun x => s.sliceServes x && !s.fenced (x / 64)).length
  (s.setFld P.boot F.BOOT_MEM_slices_good n).setFld P.boot F.BOOT_MEM_capacity_mib (128 * n)

/-- The end of a slice's training (R94): in service, or mapped out for this boot with a Trail record, and in the field map if it failed at the previous boot too. -/
def State.sliceTrained (s : State) (x : Nat) (ok : Bool) : State :=
  if s.sliceState x ≠ 0 ∨ s.fenced (x / 64) ∨ s.stage < 8 ∨ s.flag P.boot F.BOOT_STS_failed then s
  else if ok then s.setSliceState x 1 0
  else
    let s1 := s.setSliceState x 4 1
    let again := s1.boot.prevTrainFail.contains x
    let s2 := { s1 with boot := { s1.boot with trainFail := if s1.boot.trainFail.contains x then s1.boot.trainFail else x :: s1.boot.trainFail } }
    if again then s2.addFact ⟨x / 64, 1, x % 64 / 8, x % 8, 5⟩ else s2

/-- SLICE_TRAINING_DONE. -/
def execSliceTrainingDone (x : Fin 512) (ok : Bool) (s : State) : Host.Outcome State Fault Refusal := .next (s.sliceTrained x ok)

/-! Step 10: the payload and the itinerary (R83). -/

/-- The payload candidates (R76): the slot of the stage-1 image, then the other one if its version agrees with the running image. After a push that followed a failed flash the slot is the one that the pushed directory prefers (log entry 47). -/
def State.payloads (s : State) : List (Nat × Option Image) :=
  let md := s.boot.medium.getD []
  let k := s.fld P.boot F.BOOT_STS_slot
  let run := s.fld P.boot F.BOOT_FW_VER_fw_version / 65536
  let other := (payloadAt md (1 - k)).filter fun m => m.fwVersion / 65536 == run
  if !dirOk md then [] else (if s.boot.alt then [] else [(k, payloadAt md k)]) ++ [(1 - k, other)]

/-- Step 10 ends: the payload is verified, the itinerary checked and published in its place in the Hamper, and every exposed core starts its fetch. -/
def State.step10 (s : State) : State :=
  match s.pickImage 2 s.payloads with
  | (s0, es, none) => s0.noImage (s0.fld P.boot F.BOOT_STS_src != 0) es
  | (s0, es, some (_, m)) =>
    let s1 := s0.noteErrs es
    let base := s1.loadBase 2
    match m.only 3 with
    | none => s1.bootFail 0x0D 0
    | some x =>
      let raw := m.body x
      let it := Itinerary.parse raw
      let offs : List (Option Nat) := it.descs.map (m.coreImage base)
      match it.bad fun i => (offs.getD i none).isSome with
      | some i => s1.bootFail 0x0D i
      | none =>
        let gen := s1.fld P.boot F.BOOT_ITIN_GEN_value + 1
        let top := (m.sections.filter fun y => y.typ == 2 || y.typ == 3).foldl (fun n y => max n (base + y.off + y.len)) base
        let s2 := { s1 with
          hmp := s1.hmp.wr (base + x.off) (Itinerary.publish raw gen m.fwVersion (offs.map fun o => Option.getD o 0)) false
          boot := { s1.boot with payload := some m.accepted, plan := (m.only 4).map m.body, release := min 512 ((top + 65535) / 65536) } }
        let s3 := ((s2.setFld P.boot F.BOOT_ITIN_value (base + x.off)).setFld P.boot F.BOOT_ITIN_GEN_value gen).setStage 11
        s3.each (List.range 512) fun x s => s.coreBoot x

/-! Step 11 (R84, 07 R191). -/

/-- The published itinerary as it lies in the Hamper; none before its publication. A boot ROM reads the header, then the descriptors and rules that it counts, and no further. -/
def State.itin (s : State) : Option Itinerary :=
  let a := s.fld P.boot F.BOOT_ITIN_value
  if s.fld P.boot F.BOOT_ITIN_GEN_value = 0 then none
  else some (Itinerary.parse (s.hmp.rdN a (Itinerary.size (s.hmp.rdN a 0x40))))

/-- An image goes into its store; one for the W-store is a firmware range. -/
def State.putImage (s : State) (x : Nat) (d : ItinDesc) : State :=
  let s1 := s.each (segs 64 d.hamperOff d.len) fun sg s =>
    { s with stores := s.stores.wr (stoKey x (storeBase d.store + d.storeOff + (sg.1 - d.hamperOff))) (s.hmp.rdN sg.1 sg.2) false }
  let n := s1.fld64 (P.mov x) F.MOV_BYTES_LO_bytes F.MOV_BYTES_HI_bytes
  let s2 := s1.setFld64 (P.mov x) F.MOV_BYTES_LO_bytes F.MOV_BYTES_HI_bytes (n + d.len)
  if d.store ≠ 0 then s2
  else match (List.range 8).find? fun k => !s2.rezValid x k with
    | none => s2
    | some k =>
      (((s2.setFld (P.core x) (F.CORE_REZ_BASE_base k) d.storeOff).setFld (P.core x) (F.CORE_REZ_LEN_len k) d.len).setFlag (P.core x)
        (F.CORE_REZ_OWN_fw k) true).setFlag (P.core x) (F.CORE_REZ_OWN_valid k) true

/-- A fetched image compares (R84): the bytes moved have the descriptor's digest and none of them is poisoned. -/
def State.imageGood (s : State) (d : ItinDesc) : Bool :=
  !s.hmp.poisoned d.hamperOff d.len && decide (Config.sha384 (s.hmp.rdN d.hamperOff d.len) = d.digest)

/-- The core cannot verify its images: it is bad, with cause boot fetch failure. -/
def State.fetchFail (s : State) (x : Nat) : State :=
  (s.addFact ⟨x / 64, 0, x / 8 % 8, x % 8, 2⟩).markCore x

/-- CORE_BOOT_FETCH: the core in BOOT, its domain ON, moves each image of its rule and compares its digest; `first` and `second` say which images arrive without an error of the transfer at the first and at the second fetch. It then runs its monitor from the entry address. -/
def execCoreBootFetch (x : Fin 512) (first second : List Bool) (s : State) : Host.Outcome State Fault Refusal :=
  .next <|
    match s.logicalOf x, s.itin with
    | some g, some it =>
      if s.coreSt x ≠ 1 ∨ s.dom (x.val / 64) (72 + x.val % 64) ≠ 3 ∨ s.fenced (x.val / 64) then s
      else match it.ruleOf g with
        | none => s.fetchFail x
        | some r =>
          let ds := it.picked r
          let ok := (List.range ds.length).all fun i =>
            (first.getD i false || second.getD i false) && match ds[i]? with | some d => s.imageGood d | none => true
          if !ok then s.fetchFail x
          else
            let s1 := s.each ds fun d s => s.putImage x d
            (s1.setCore x { Core.reset with active := -1, pc := r.entry }).setFld (P.core x) F.CORE_STS_state 2
    | _, _ => s

/-! Step 12 (14 R339) and ready. -/

/-- One partition entry: configuration, then a BUILD under R332. -/
def State.planPart (s : State) (e : PlanPart) : Option State :=
  let pg := P.pt e.p
  let s1 := (((s.setFld64 pg F.PT_CLU_LO_mask F.PT_CLU_HI_mask e.mask).setFld pg F.PT_CFG_near_size e.nearSize).setFld pg
    F.PT_CFG_companion e.companion)
  match s1.ptCheck e.p with
  | some _ => none
  | none => let r := s1.rebuild e.p true false; if r.2 then some (r.1.setPtState e.p 2) else none

/-- The partitions in entry order; none if a BUILD is refused. -/
def State.planParts (s : State) : List PlanPart → Option State
  | [] => some s
  | e :: l => match s.planPart e with | some s1 => s1.planParts l | none => none

/-- A plan, applied whole or not at all. -/
def State.planApply (s : State) (pl : Plan) : Option State :=
  if !pl.formed then none
  else (s.planParts pl.parts).map fun s1 =>
    let s2 := s1.each pl.parts fun e s => s.setFld (P.hmp 2) (F.HMP_PT_BUDGET_budget e.p) e.budget
    s2.each pl.binds fun b s => (s.setFld (P.ten b.tenant 11) F.HMP_TQ_LIMIT_limit b.limit).bindApply b.tenant b.val

/-- Ready with offline logical cores or excluded slices: a slice the fuse map leaves out is no excluded one. -/
def State.isDegraded (s : State) : Bool :=
  (List.range 448).any (fun g => !s.online g) ||
  (List.range 512).any fun x => !bitOf (Tab.get nat0 s.board.badSlice (x / 64)) (x % 64) && (!s.sliceServes x || s.fenced (x / 64))

/-- The device is ready (R86, R90, R99). -/
def State.bootReady (s : State) : State :=
  let s1 := (((s.setStage 0xD).setFlag P.boot F.BOOT_STS_ready true).setFlag P.boot F.BOOT_STS_degraded s.isDegraded).setFld P.boot
    F.BOOT_TIME_ms s.bootMs
  let s2 := ((s1.hmpShrink s.boot.release).setFld P.boot F.BOOT_FWREG_compartments s.boot.release).each (List.range 8) fun t s => s.tileCount t
  { (s2.setInts P.boot (if s.isDegraded then 5 else 1)) with boot := { s2.boot with readyAt := s2.now } }.bootTrail 0

/-- Step 12 ends. -/
def State.step12 (s : State) : State :=
  match s.boot.plan with
  | none => s.bootReady
  | some l => match s.planApply (Plan.parse l) with
    | some s1 => s1.bootReady
    | none => (s.bootErr 0x0E 0 12).bootReady

/-! The rows. -/

/-- A push read or a wait for one is in progress. -/
def State.pushing (s : State) : Bool :=
  s.flag P.boot F.BOOT_STS_wait_push || s.flag P.boot F.BOOT_PUSH_CTL_go || s.flag P.boot F.BOOT_PUSH_CTL_busy

/-- Each bundle is trained or fenced. -/
def State.bundlesDone (s : State) : Bool := (List.range 8).all fun t => s.eState (32 + t) == 3 || s.fenced t

/-- A step of training of the bundle of tile t fails (R91): after the third in a row the tile is fenced, and at step 5 the error is recorded; with no tile left, boot stops. -/
def State.bundleFailed (s : State) (t : Nat) : State :=
  let n := (s.lend (32 + t)).tries + 1
  let s1 := ((s.retrainEnd (32 + t) 2).linkSet (32 + t) 1).setLend (32 + t) { s.lend (32 + t) with tries := n }
  if n < 3 then s1
  else
    let s2 := s1.tileLost t .bringup
    if s2.ready then s2
    else if (List.range 8).all s2.fenced then s2.bootFail 0x0A t else s2.bootErr 0x0A t 5

/-- LINK_TRAINING: a run of training from DOWN ends. One that fails leaves the link DOWN. -/
def execLinkTraining (l : LinkId) (r : TrainIn) (s : State) : Host.Outcome State Fault Refusal :=
  .next <|
    let k := linkKey l
    if (farEnd k).isNone || (s.eState k != 1 && s.eState k != 2) || (s.lend k).failed || !s.mayTrain k || !s.trainTime k then s
    else
      let s0 := if isSer k then s.putIdent (endPg k) (s.tileIdent (k - 32) r) else s
      match s0.trainPhy k r with
      | none => if isSer k then s0.bundleFailed (k - 32) else s0.trainFailed k
      | some s1 => if isSer k then s1.bundleIdent (k - 32) r else s1.bridgeIdent k r

/-- The end of the step in progress, by what it finds. An operand of another step changes nothing. -/
def State.stepEnd (s : State) (i : StepIn) : State :=
  if s.flag P.boot F.BOOT_STS_failed then s
  else match i with
    | .straps o b si bu cm me ma =>
      if s.stage = 2 then s.step2 o b si.toNat bu.toNat cm.toNat me.toNat ma.toNat else s
    | .stage1 fl =>
      if s.stage ≠ 4 ∨ s.pushing then s
      else
        let s := { s with mgt := { s.mgt with flash := fl.isSome } }
        match fl with
        | none => s.noImage false [(4, 0)]
        | some md => s.mediumRead md 0
    | .tiles =>
      if s.stage = 5 ∧ s.bundlesDone then (s.each ((List.range 8).filter fun t => !s.fenced t) fun t s => s.rampsEnd t).setStage 6 else s
    | .fuses bad =>
      if s.stage ≠ 6 then s
      else match bad with
        | some t => if s.fusesDone then s.step6 else s.bootFail 0x0B t
        | none => s.step6
    | .fieldMap => if s.stage = 7 then s.step7 else s
    | .slices =>
      if s.stage = 8 ∧ ((List.range 512).all fun x => s.sliceState x != 0 || s.fenced (x / 64)) then s.bootMem.setStage 9 else s
    | .hamper bad =>
      if s.stage = 9 then (match bad with
        | some b => s.bootFail 0x0C b
        | none => ((s.hmpInit 512).setFld P.boot F.BOOT_FWREG_compartments 512).setStage 10)
      else s
    | .payload => if s.stage = 10 ∧ s.pushing = false then s.step10 else s
    | .cores => if s.stage = 11 ∧ ((List.range 512).all fun x => s.coreSt x != 1 || s.fenced (x / 64)) then s.setStage 12 else s
    | .plan => if s.stage = 12 then s.step12 else s

/-- BRINGUP_STEP_END. -/
def execBringupStepEnd (i : StepIn) (s : State) : Host.Outcome State Fault Refusal := .next (s.stepEnd i)

/-- BOOT_CONFIG_SPACE_READY (R87): the port's link is up and step 2 has ended, be it in failure (R97). -/
def execBootConfigSpaceReady (port : Fin 4) (s : State) : Host.Outcome State Fault Refusal :=
  .next (if s.linkUp port && (decide (4 ≤ s.stage) || s.flag P.boot F.BOOT_STS_failed) then s.setPort port { s.port port with cfgReady := true } else s)

/-- The read of a push that waits is issued, unless the owner port is in D3hot (06 R128). -/
def State.pushIssue (s : State) : State :=
  if s.boot.pushHeld && s.flag P.boot F.BOOT_PUSH_CTL_go && !(s.port s.owner).d3 then
    let a := s.fld64 P.boot F.BOOT_PUSH_ADDR_LO_addr F.BOOT_PUSH_ADDR_HI_addr / 4096 * 4096
    { s with boot := { s.boot with pushHeld := false } }.emit (.dmaRead s.owner none a (s.fld P.boot F.BOOT_PUSH_LEN_len))
  else s

/-- A write of BOOT_PUSH_CTL.go (R89, R403): ignored unless wait_push is 1, refused while a management push runs or where the length is above 64 MiB. Which detail and step that IMAGE_FORMAT carries is not stated: DESIGN CHOICE (log entry 47), detail 1 (lengths are part of check 1) at the step in progress. The owner function reads the buffer by DMA, through the port's TRANSIT compartments; in D3hot the read waits for the return to D0 (06 R128). -/
def State.pushGo (s : State) : State :=
  if s.flag P.boot F.BOOT_PUSH_CTL_busy || !s.flag P.boot F.BOOT_STS_wait_push then s
  else if 0x4000000 < s.fld P.boot F.BOOT_PUSH_LEN_len then s.bootErr 5 1 s.stage
  else
    { ((s.setFlag P.boot F.BOOT_STS_wait_push false).setFlag P.boot F.BOOT_PUSH_CTL_go true) with boot := { s.boot with pushHeld := true } }.pushIssue

/-- BOOT_PUSH_GO. -/
def execBootPushGo (rq : Requester) (s : State) : Host.Outcome State Fault Refusal :=
  .next (s.privWrite rq P.boot 0x064 fun s => s.pushGo)

/-- The push read ends. At step 4 the ROM looks for a stage-1 image; at step 10, where the payloads of the flash have failed (R97), the medium gives the payload candidates. -/
def State.pushDone (s : State) (md : Medium) (src : Nat) : State :=
  let s1 := (s.setFlag P.boot F.BOOT_PUSH_CTL_go false).setFlag P.boot F.BOOT_PUSH_CTL_busy false
  if s1.stage < 10 then s1.mediumRead md src
  else
    let s2 := { s1 with boot := { s1.boot with medium := some md, alt := false } }
    (s2.setFld P.boot F.BOOT_STS_src src).setFld P.boot F.BOOT_STS_slot (leAt md 0x06 1 % 2)

/-- BOOT_PUSH_READ_DONE. -/
def execBootPushReadDone (m : Medium) (s : State) : Host.Outcome State Fault Refusal :=
  .next (if s.flag P.boot F.BOOT_PUSH_CTL_go && !s.boot.pushHeld then s.pushDone (m.take (s.fld P.boot F.BOOT_PUSH_LEN_len)) 1 else s)

/-- A push read is given up (R91, R92): what it loaded is discarded and the ROM waits again. -/
def State.pushAbort (s : State) : State :=
  { ((s.setFlag P.boot F.BOOT_PUSH_CTL_go false).setFlag P.boot F.BOOT_PUSH_CTL_busy false) with boot := { s.boot with pushHeld := false } }.waitPush

/-- The SPI watchdog of step 4: the other slot's stage-1 image, then a push under BOOT_SRC 0b10, else WATCHDOG. -/
def State.spiWatch (s : State) (flash : Option Medium) : State :=
  let s1 := s.bootErr 0x10 4 4
  let rest (es : List (Nat × Nat)) (s : State) : State :=
    if s.board.bootSrc = 2 then (s.noteErrs es).waitPush else (s.noteErrs es).bootFail 0x10 4
  match flash with
  | none => rest [] s1
  | some md =>
    match s1.pickImage 1 ((stage1s md).drop 1) with
    | (s2, _, some (k, m)) => s2.acceptStage1 k 0 md m
    | (s2, es, none) => rest es s2

/-- The watchdog of step 10 (R91): the other slot's payload where it is eligible under R76, else boot stops. -/
def State.payloadWatch (s : State) : State :=
  let s1 := { s with boot := { s.boot with alt := true } }
  if s.boot.alt || s1.payloads.all (fun e => e.2.isNone) then s.bootFail 0x10 10 else s1.bootErr 0x10 10 10

/-- BOOT_WATCHDOG_EXPIRY (R91). -/
def execBootWatchdogExpiry (w : BootWatch) (s : State) : Host.Outcome State Fault Refusal :=
  .next <|
    if s.flag P.boot F.BOOT_STS_failed || s.ready then s
    else match w with
      | .step2 => if s.stage = 2 then s.bootFail 0x10 2 else s
      | .spi fl =>
        if s.stage ≠ 4 ∨ s.pushing then s else { s with mgt := { s.mgt with flash := fl.isSome } }.spiWatch fl
      | .push =>
        if s.stage = 4 ∧ (s.flag P.boot F.BOOT_PUSH_CTL_go || s.flag P.boot F.BOOT_PUSH_CTL_busy) then s.pushAbort.bootErr 0x10 4 4 else s
      | .bundle t => if s.stage = 5 ∧ s.eState (32 + t) ≠ 3 ∧ s.fenced t = false then s.bundleFailed t else s
      | .bridge t d => if s.stage = 6 ∧ (s.eState (4 * t + d) = 1 ∨ s.eState (4 * t + d) = 2) then s.trainFailed (4 * t + d) else s
      | .slice x => if s.stage = 8 then s.sliceTrained x false else s
      | .payload =>
        if s.stage = 10 ∧ s.pushing = false then s.payloadWatch else s
      | .core x => if s.stage = 11 ∧ s.coreSt x = 1 then s.fetchFail x else s
      | .step12 => if s.stage = 12 then s.bootFail 0x10 12 else s

end Sys2Proof.Machine
end

