-- ==== Sys2Proof/Machine/HostPorts.lean ====
section
/-! DEFINITION. Host ports and functions (06 R122-R130; 03 R68, R71; 04 R87, R92; 18 R423, R424): configuration requests, link and PERST_N, D3hot, Function Level Reset, CXL.mem, pending messages; loss of a hub, host or codec clock (01 R24). -/
namespace Sys2Proof.Machine

/-! Resets of functions and ports. -/

/-- A reset of function k clears its configuration; a pending message stays pending (03 R68). -/
def State.fnReset (s : State) (k : Nat) : State := s.setFn k { FnSt.reset with pba := (s.fn k).pba }

/-- VF Enable goes to 0: the virtual functions of port p are gone, and their tenants take a function reset (06 R130). -/
def State.vfClear (s : State) (p : Nat) : State :=
  let s1 := s.setPort p { s.port p with numVfs := 0 }
  let s2 := s1.each (List.range 64) fun v s => s.fnReset (4 + 64 * p + v)
  s2.each (s2.tenantsOnPort p) fun n s => s.tnTrigger n true

/-- FUNCTION_LEVEL_RESET (06 R128, R130): a configuration write; a failed device aborts it (01 R24). Of a physical function it clears VF Enable, which resets tenants where it goes from 1 to 0. -/
def execFunctionLevelReset (fn : FnId) (s : State) : Host.Outcome State Fault Refusal :=
  .next <|
    let k := fnNum fn
    let p := fnPort k
    if !s.linkUp p then s
    else if s.devFailed then s.emit (.configAbort k)
    else match fn with
      | .pf _ =>
        let s1 := (s.fnReset k).setPort p { s.port p with d3 := false }
        if (s.port p).numVfs = 0 then s1 else s1.vfClear p
      | .vf _ v =>
        if (s.port p).numVfs ≤ v.val then s
        else
          let s1 := s.fnReset k
          s1.each ((List.range 128).filter fun n => s1.bound n && s1.tnFn n == k) fun n s => s.tnTrigger n true

/-- VF_ENABLE_CLEAR (06 R130). -/
def execVfEnableClear (port : Fin 4) (s : State) : Host.Outcome State Fault Refusal :=
  .next (if s.linkUp port && s.devFailed then s.emit (.configAbort port)
    else if (s.port port).numVfs = 0 then s else s.vfClear port)

/-- A reset of host port p (06 R127, 03 R71): its functions lose their configuration, TRANSIT is discarded, its tenants take a function reset, its DOE sessions and IDE keys are gone (PRESUMED, log entry 6); a push read of the owner port is given up (04 R92). -/
def State.portReset (s : State) (p : Nat) : State :=
  let s0 := { s with mgt := { s.mgt with ide := Tab.clear s.mgt.ide (5 * p) 5, sessions := Tab.clear s.mgt.sessions p 1 } }
  let s1 := s0.setPort p { s.port p with cfgReady := false, d3 := false, cxlWin := none }
  let s2 := ((s1.fnReset p).vfClear p).hmpTransitClear p
  if s2.owner = p && s2.flag P.boot F.BOOT_PUSH_CTL_go then s2.pushAbort else s2

/-- The link of port p goes down. -/
def State.portDown (s : State) (p : Nat) : State :=
  if !s.linkUp p then s
  else
    let pg := P.hpt p
    let s1 := (((s.setFld pg F.HPT_LINK_STS_rate 0).setFld pg F.HPT_LINK_STS_width 0).setFlag pg F.HPT_LINK_STS_flit false).setFlag pg
      F.HPT_LINK_STS_cxl false
    (s1.event pg 1).portReset p

/-- HOST_LINK_DOWN. -/
def execHostLinkDown (port : Fin 4) (s : State) : Host.Outcome State Fault Refusal := .next (s.portDown port)

/-- REFCLK_LOSS (01 R24): the link of that port goes down. -/
def execRefclkLoss (port : Fin 4) (s : State) : Host.Outcome State Fault Refusal := .next (s.portDown port)

/-- PERST_N as the port reads it changes (18 R423, R424). It resets the port whether its link is up or down (06 R127). -/
def State.perstSync (s : State) (p : Nat) : State :=
  let pg := P.hpt p
  let v := (s.port p).perst || (s.port p).railBad
  if s.flag pg F.HPT_LINK_STS_perst = v then s
  else
    let s1 := s.setFlag pg F.HPT_LINK_STS_perst v
    if v then (if s1.linkUp p then s1.portDown p else s1.portReset p).event pg 2 else s1

/-- PERST_ASSERT. -/
def execPerstAssert (port : Fin 4) (s : State) : Host.Outcome State Fault Refusal :=
  .next ((s.setPort port { s.port port with perst := true }).perstSync port)

/-- PERST_DEASSERT. -/
def execPerstDeassert (port : Fin 4) (s : State) : Host.Outcome State Fault Refusal :=
  .next ((s.setPort port { s.port port with perst := false }).perstSync port)

/-- The HDM window that port p latches when it trains as CXL: partition, base and size in bytes (06 R125). A window beyond the pooled capacity has size 0. -/
def State.cxlLatch (s : State) (p : Nat) : Option (Nat × Nat × Nat) :=
  let pg := P.hpt p
  if !s.flag pg F.HPT_CXL_WIN_enable then none
  else
    let q := s.fld pg F.HPT_CXL_WIN_partition
    let b := s.fld pg F.HPT_CXL_WIN_base * 2 ^ 28
    let n := s.fld pg F.HPT_CXL_WIN_size * 2 ^ 28
    some (q, b, if b + n ≤ (s.pm q).poolcap then n else 0)

/-- A width a link can have: x1, x2, x4, x8 or x16 (06 R122). -/
def legalWidth (w : Nat) : Bool := w == 1 || w == 2 || w == 4 || w == 8 || w == 16

/-- HOST_LINK_UP: the far end trains. Step 3 has enabled the port, or bring-up has failed before it, which leaves the port's pages answering (04 R97); PERST_N is deasserted, its CLK_MODE is legal (04 R73, R87; 18 R418, R424). A width the port does not have trains no link (06 R122). -/
def execHostLinkUp (port : Fin 4) (rate : Fin 6) (width : Fin 17) (flit cxl : Bool) (s : State) : Host.Outcome State Fault Refusal :=
  .next <|
    let pg := P.hpt port
    if s.linkUp port || (decide (s.stage < 3) && !s.flag P.boot F.BOOT_STS_failed) || !legalWidth width || s.flag pg F.HPT_LINK_STS_perst || bitOf (s.fld (P.hub 0) F.HUB_STRAP_EXT_port_clk_bad) port ||
      s.devFailed || s.hubOff then s
    else
      let c := cxl && s.flag pg F.HPT_CTL_cxl_en
      let s1 := (((s.setFld pg F.HPT_LINK_STS_rate (rate + 1)).setFld pg F.HPT_LINK_STS_width width).setFlag pg F.HPT_LINK_STS_flit
        flit).setFlag pg F.HPT_LINK_STS_cxl c
      (s1.setPort port { s1.port port with cxlWin := if c then s1.cxlLatch port else none }).event pg 0

/-! D3hot (06 R128). -/

/-- D3HOT_ENTER. -/
def execD3hotEnter (port : Fin 4) (s : State) : Host.Outcome State Fault Refusal :=
  .next (if !s.linkUp port then s else if s.devFailed then s.emit (.configAbort port) else s.setPort port { s.port port with d3 := true })

/-- The held entries of a queue are written in order, unless a change of binding suppresses them (06 R435), then its held message is sent. -/
def State.releaseHeld (s : State) (n q : Nat) : State :=
  let v := s.queue n q
  let s1 := s.setQueue n q { v with heldEntries := [], heldMsix := false }
  let s2 := s1.each v.heldEntries fun e s => if s.writesEntries n q then s.cqWrite n q e false else s
  if v.heldMsix then s2.cqSignal n q else s2

/-- D0_RETURN: held entries and messages go, and a push read that waited is issued. -/
def execD0Return (port : Fin 4) (s : State) : Host.Outcome State Fault Refusal :=
  .next <|
    if s.linkUp port && s.devFailed then s.emit (.configAbort port)
    else if !(s.port port).d3 then s
    else
      let s1 := s.setPort port { s.port port with d3 := false }
      (s1.each (s1.tenantsOnPort port) fun n s => s.each (List.range 8) fun q s => s.releaseHeld n q).pushIssue

/-! Configuration requests (04 R87; PRESUMED PCI Express, log entry 6). -/

/-- A memory BAR: its type bits (64-bit, and 8 where prefetchable) and its size in bytes. BAR0 of a physical function and BAR2 of a virtual one are not prefetchable, BAR4 is (03 R56, 05 R105, 06 R123). -/
def barOf (vf : Bool) (i : Nat) : List Nat :=
  match vf, i with
  | false, 0 => [4, 2 ^ 27]
  | true, 2 => [4, 2 ^ 16]
  | _, 4 => [12, 2 ^ 28]
  | _, _ => [0, 0]

/-- What a configuration read of function k answers (03 R56, R68; 06 R122-R124, R128): Vendor and Device ID; class code; Memory Space and Bus Master Enable; a BAR; Interrupt Pin; Max Payload Size, Max Read Request Size, 10-bit tags, AtomicOps; D-state, No_Soft_Reset, PME; MSI-X table size, enable and function mask; a pending bit; TotalVFs, InitialVFs, NumVFs, First VF Offset, VF Stride; the STU in bytes and PRI; PASID width, execute and privileged permission; an MSI-X table entry; the associations of a selective IDE stream (17 R407). -/
def State.configRead (s : State) (k : Nat) (r : CfgReg) : List Nat :=
  let f := s.fn k
  let vf := decide (4 ≤ k)
  match r with
  | .ids => [Config.vendorId, if vf then 0x4B81 else 0x4B80]
  | .classCode => [0x120000]
  | .command => [b2n f.memEn, b2n f.bme]
  | .bar i => barOf vf i
  | .interruptPin => [0]
  | .deviceCap => [512, 4096, 1, 0]
  | .powerMgmt => [if !vf && (s.port k).d3 then 3 else 0, b2n !vf, 0]
  | .msix => [if vf then 16 else 32, b2n f.msixEn, b2n f.fmask]
  | .pending v => [b2n (bitOf f.pba v)]
  | .sriov => if vf then [] else [64, 64, (s.port k).numVfs, 1, 1]
  | .ats => [4096, 0]
  | .pasid => [20, 0, 0]
  | .vector v => [(Tab.get pair0 f.entries v).1, (Tab.get pair0 f.entries v).2, b2n (!bitOf f.unmasked v)]
  | .ide j => if vf then [] else let a := Tab.get assoc0 (s.port k).assoc (1 + j); a.blocks.flatMap (fun b => [b.1, b.2]) ++ (match a.rids with | some r => [r.1, r.2] | none => [])

/-- What a configuration request that completes normally changes. -/
def State.configOp (s : State) (k : Nat) (op : ConfigOp) : State :=
  let f := s.fn k
  match op with
  | .read r => s.emit (.cfgData k (s.configRead k r))
  | .memEnable v => s.setFn k { f with memEn := v }
  | .busMaster v => s.setFn k { f with bme := v }
  | .msixEnable v => s.setFn k { f with msixEn := v }
  | .functionMask v => s.setFn k { f with fmask := v }
  | .vectorMask vec v => if k < 4 ∨ vec.val < 16 then s.setFn k { f with unmasked := putBit f.unmasked vec (!v) } else s
  | .vectorEntry vec a d => if k < 4 ∨ vec.val < 16 then s.setFn k { f with entries := Tab.set pair0 f.entries vec (a.toNat, d.toNat) } else s
  | .ideAssoc j bs rs =>
    if 4 ≤ k then s
    else s.setPort k { s.port k with assoc := Tab.set assoc0 (s.port k).assoc (1 + j) ⟨(bs.take 2).map fun b => (b.1.toNat, b.2.toNat), rs.map fun r => (r.1.toNat, r.2.toNat)⟩ }
  | .vfEnable n =>
    if 4 ≤ k then s
    else if n.val = 0 then (if (s.port k).numVfs = 0 then s else s.vfClear k)
    else if (s.port k).numVfs = 0 then s.setPort k { s.port k with numVfs := n } else s
  | _ => s

/-- CONFIG_REQUEST: RRS until the boot configuration space is ready; Completer Abort in a failed device (01 R24). -/
def execConfigRequest (fn : FnId) (op : ConfigOp) (s : State) : Host.Outcome State Fault Refusal :=
  .next <|
    let k := fnNum fn
    let p := fnPort k
    if !s.linkUp p then s
    else if s.devFailed then s.emit (.configAbort k)
    else if !(s.port p).cfgReady then s.emit (.config k true)
    else if 4 ≤ k ∧ (s.port p).numVfs ≤ (k - 4) % 64 then s
    else (s.configOp k op).emit (.config k false)

/-! Messages (03 R68). -/

/-- The source of a pending message is still pending (03 R68): for a completion queue while an entry is not returned (DEDUCED, log entry 73); for vector 8 of a tenant, or a routed vector of the owner, while a page of it is. -/
def State.srcPending (s : State) (k v : Nat) : Bool :=
  if 4 ≤ k then
    (List.range 128).any fun n => s.bound n && s.tnFn n == k &&
      if v < 8 then s.cqOut n v != 0 else (List.range 12).any fun j => s.pagePending (P.ten n j)
  else
    s.regs.any fun e =>
      let pg := e.1 / 2 ^ 17
      match pageInfo pg with
      | some i => !i.tenantPage && s.pagePending pg && s.flag (P.hub 1) (F.HUB_INT_ROUTE_to_owner (i.block - 1)) &&
          s.fld (P.hub 1) (F.HUB_INT_ROUTE_vector (i.block - 1)) == v
      | none => false

/-- A pending message that has become deliverable is sent once, if its source is still pending. -/
def State.pendingSend (s : State) (k vec : Nat) : State :=
  let f := s.fn k
  if !bitOf f.pba vec || !s.deliverable k vec then s
  else
    let s1 := s.setFn k { f with pba := putBit f.pba vec false }
    if s.srcPending k vec then s1.emit (.msix k vec) else s1

/-- MSIX_PENDING_SEND. -/
def execMsixPendingSend (fn : FnId) (vec : Fin 32) (s : State) : Host.Outcome State Fault Refusal := .next (s.pendingSend (fnNum fn) vec)

/-! CXL.mem (06 R125). -/

/-- CXL_MEM_ACCESS at a byte offset of the port's HDM window: the line that holds it, through the port's TRANSIT compartments. In a reset of the window's partition reads return poison and writes are dropped. -/
def execCxlMemAccess (port : Fin 4) (off : BitVec 37) (op : CxlOp) (s : State) : Host.Outcome State Fault Refusal :=
  .next <|
    if !s.linkUp port || s.hubOff || (s.port port).d3 then s
    else if s.devFailed then (match op with | .read => s.emit (.abort (0x80 + port.val)) | .write _ _ => s)
    else match (s.port port).cxlWin with
      | none => s
      | some (q, b, n) =>
        let o := off.toNat / 64 * 64
        if n ≤ o then s
        else
          let busy := s.ptState q == 3
          let pl := s.poolPlace q (b + o)
          match op with
          | .read =>
            if busy then s.emit (.cxl port (List.replicate 64 0) true)
            else let r := s.placeRead pl 64; (s.placeCount pl 64).emit (.cxl port r.1 r.2)
          | .write data ep => if busy then s else { s with transit := s.transit ||| 2 ^ port.val }.placeWrite 0 pl data ep

/-! Clocks (01 R24). -/

/-- VCLK_LOSS: all four engines fault until a device warm reset. -/
def execVclkLoss (s : State) : Host.Outcome State Fault Refusal :=
  .next (if s.vclkLost then s else { s with vclkLost := true }.each (List.range 4) fun n s => s.vceFail n)

/-- HUB_CLOCK_LOSS: a Trail record, and the device has failed until a device warm reset. -/
def execHubClockLoss (c : HubClock) (s : State) : Host.Outcome State Fault Refusal :=
  .next (s.hubLost (match c with | .hclk => 0 | .hpclk => 1 | .sysref => 2))

end Sys2Proof.Machine
end

