-- ==== Sys2Proof/Machine/Restart.lean ====
section
/-! DEFINITION. What survives a device warm reset, a loss of every supply but the always-on one, and a cold power cycle (04 R96, R98; 14 R343; 16 R382, R384, R392; 18 R421-R423). -/
namespace Sys2Proof.Machine

/-- Keep the registers of a list of pages and fields through a return to `State.reset`. -/
def State.keepRegs (s t : State) (keep : Nat → Nat → Bool) : State := { t with regs := s.regs.filter fun e => keep (e.1 / 2 ^ 17) (e.1 % 2 ^ 17) }

/-- A field of tile THM pages that counts thermal cycles. -/
def isCycle (pg key : Nat) : Bool :=
  (List.range 8).any fun t => pg == P.thmT t && (key == fkey 0 F.THM_T_CYC20_count || key == fkey 0 F.THM_T_CYC40_count)

/-- THM_STS.floor and cause. -/
def isFloor (pg key : Nat) : Bool := pg == P.thm 0 && (key == fkey 0 F.THM_STS_floor || key == fkey 0 F.THM_STS_cause)

/-- A port's pins through a reset. -/
def Port.pins (p : Port) : Port := { Port.reset with perst := p.perst, railBad := p.railBad }

/-- What no reset takes: the model's own time, queue and counter, what was sent, the Trail, the fuses, the pins of the host ports, and which slices failed to train. -/
def State.bareState (s : State) : State :=
  { State.reset with
    now := s.now, pending := s.pending, fresh := s.fresh, outs := s.outs, trail := s.trail, board := { s.board with fuseWrite := none }
    ports := s.ports.filterMap fun e => let p := e.2.pins; if p = Port.reset then none else some (e.1, p)
    boot := { Boot.reset with prevTrainFail := s.boot.trainFail, start := s.now }
    mgt := { Mgt.reset with tap := s.mgt.tap, extest := s.mgt.extest } }

/-- HPT_LINK_STS.perst follows the pins. -/
def State.pinSync (s : State) : State :=
  s.each (List.range 4) fun p s => s.setFlag (P.hpt p) F.HPT_LINK_STS_perst ((s.port p).perst || (s.port p).railBad)

/-- The boot count rises (17 R410). -/
def State.bootCount (s : State) (n : Nat) : State := s.addFld P.trl F.TRL_BOOTCNT_value n

/-- A register of the TRL page that counts the Trail's own records: TRL_STS, TRL_SEQ and TRL_BOOTCNT (17 R410, R412). The page's header, its lock and the snapshot are not among them (03 R54, R72). -/
def isTrlCount (pg key : Nat) : Bool := pg == P.trl && decide (0x040 ≤ key / 32 ∧ key / 32 < 0x04C)

/-- Steps 2 to 12 start again (R343 without its Trail record): the Trail, the field map, the fuses, an active emergency floor with its timer and the thermal cycle counts are kept; the fields with a fused reset value take it. -/
def State.rerun (s : State) : State :=
  let t := s.bareState
  let t := { t with
    power := { Power.reset with rails := s.power.rails }
    thm := { Thm.reset with floorAt := s.thm.floorAt, pinLow := s.thm.pinLow, cyc := s.thm.cyc }
    mgt := { t.mgt with extest := false } }
  ((s.keepRegs t fun pg k => isTrlCount pg k || isCycle pg k || isFloor pg k).bootCount 1).fuseLoad.pinSync

/-- The device must stay as it is: it is off, tripped, held by EXTEST, or has no always-on I/O supply. -/
def State.stuck (s : State) : Bool := !s.aoUp || s.thm.tripped || s.mgt.extest

/-- A device warm reset (R343): its Trail record, then steps 2 to 12. None runs in cooling shutdown. -/
def State.warmReset (s : State) : State :=
  if s.inShutdown || s.stuck then s else (s.trailPut 0x0A 0x01 1 [0]).rerun

/-- Only always-on logic runs on (15 R367, 16 R385, R389; 17 R413): every other state is gone, host links are down, the hub answers nothing. -/
def State.dark (s : State) : State :=
  let t := s.bareState
  let t := { t with power := { s.power with samples := [], chg := [], clamp := [] }, thm := s.thm, mgt := s.mgt, board := s.board, snaps := s.snaps, aoUp := s.aoUp, hubOff := true
                    boot := { t.boot with trainFail := s.boot.trainFail, prevTrainFail := s.boot.prevTrainFail } }
  s.keepRegs t fun pg k => alwaysOn pg || isCycle pg k

/-- A write of HUB_DEV_RESET; another key is ignored and counted (R350). -/
def State.devReset (s : State) (rq : Requester) (key : Nat) : State :=
  if key = 0xA5C3 then s.warmReset else s.countErr (P.hub 2) 0x41 (rqCode rq) (accessAddr rq (P.hub 2) 0x04C)

/-- DEVICE_WARM_RESET. -/
def execDeviceWarmReset (rq : Requester) (key : BitVec 16) (s : State) : Host.Outcome State Fault Refusal :=
  .next (s.privWrite rq (P.hub 2) 0x04C fun s => s.devReset rq key.toNat)

/-! Cold power cycle. -/

/-- The last cycle-count snapshot in the Trail (16 R382). -/
def State.lastCycles (s : State) : Option TrailRec :=
  s.trail.slots.foldl (fun b e =>
    match e.2, b with
    | some r, none => if 1024 ≤ e.1 ∧ e.1 < 1088 ∧ r.typ = 5 then some r else none
    | some r, some q => if 1024 ≤ e.1 ∧ e.1 < 1088 ∧ r.typ = 5 ∧ q.seq < r.seq then some r else some q
    | none, b => b) none

/-- Count i of a CYCLES payload of 16-bit counts: the eight CYC20 counts, then the eight CYC40 counts (DEDUCED, log entry 9). -/
def cycleOf (payload : List Nat) (i : Nat) : Nat := bits (payload.getD (i / 2) 0) (16 * (i % 2)) 16

/-- The Trail, the field map and the fuses alone remain (R343); the queue of records is always-on state and is lost, and the record being written is torn (16 R386). The boot that the loss of power ended stays the latest one (R94). -/
def State.powerOff (s : State) : State :=
  let s := s.trailTear
  let t := { s.bareState with trail := { s.trail with queue := [], lost := 0 }, mgt := Mgt.reset, aoUp := false, hubOff := true
                              boot := { Boot.reset with trainFail := s.boot.trainFail, prevTrainFail := s.boot.prevTrainFail, start := s.now } }
  s.keepRegs t fun pg k => pg == P.trl && (k == fkey 0 F.TRL_STS_next_slot || k == fkey 0 F.TRL_STS_fmap_cnt || k == fkey 0 F.TRL_SEQ_value ||
    k == fkey 0 F.TRL_BOOTCNT_value)

/-- Step 1 runs: the Trail is scanned, cycle counts are restored, and step 2 begins (R73, R382, 17 R412). -/
def State.powerOn (s : State) : State :=
  let t := { s.powerOff with aoUp := true, hubOff := false, trail := { s.powerOff.trail with stepOne := s.now }
                             boot := { Boot.reset with prevTrainFail := s.boot.trainFail, start := s.now } }
  let t := match s.lastCycles with
    | none => t
    | some r => t.each (List.range 8) fun i s =>
        (s.setFld (P.thmT i) F.THM_T_CYC20_count (cycleOf r.payload i)).setFld (P.thmT i) F.THM_T_CYC40_count (cycleOf r.payload (8 + i))
  (t.bootCount 2).fuseLoad.pinSync

/-- COLD_POWER_ON (18 R421): the rails come up after a time without VDD_AO. -/
def execColdPowerOn (s : State) : Host.Outcome State Fault Refusal := .next s.powerOn

/-- VDD_AO_LOSS (18 R423): the device is off until a cold power-on. -/
def execVddAoLoss (s : State) : Host.Outcome State Fault Refusal := .next (if s.aoUp then s.powerOff else s)

end Sys2Proof.Machine
end

