-- ==== Sys2Proof/Machine/Power.lean ====
section
/-! DEFINITION. Operating points and what limits them (15 R353-R355, R358, R365), samples and telemetry (R361), the power limit loop, fast clamp and current caps (R362-R364), regulator faults and the board's rails (R367, 18 R423). -/
namespace Sys2Proof.Machine

/-! Targets. -/

/-- The variant's highest operating point (R353). -/
def State.maxOpp (s : State) : Nat := (s.fld P.boot F.BOOT_VARIANT_tclk_max_mhz - 600) / 50

/-- The current cap of tile t. -/
def State.tileCap (s : State) (t : Nat) : Nat := s.maxOpp - Tab.get nat0 s.power.drop t

/-- The requests of R354 in the order of its table: limiter code and point. -/
def State.oppRequests (s : State) (t : Nat) : List (Nat × Nat) :=
  (if s.flag (P.thm 0) F.THM_STS_floor then [(5, 0)] else []) ++ [(4, s.fld (P.thmT t) F.THM_T_STS_req)] ++
  (if s.ready then [] else [(6, 0)]) ++
  [(3, s.tileCap t), (2, s.fld P.pwr F.PWR_STS_cap), (1, s.maxOpp), (0, s.fld (P.pwrT t) F.PWR_T_REQ_opp_req)]

/-- The target of tile t and the limiter that sets it: the lowest request, the first of the lowest (R354). -/
def State.oppTarget (s : State) (t : Nat) : Nat × Nat :=
  (s.oppRequests t).foldl (fun b r => if r.2 < b.1 then (r.2, r.1) else b) (32, 0)

/-- VDD_T of a tile at a point, in mV (R353). -/
def vddOf (t n : Nat) : Nat := 620 + 10 * n + if n = 0 then 0 else Config.vddOffset t % 21

def State.chg (s : State) (t : Nat) : OppChg := Tab.get chg0 s.power.chg t
def State.setChg (s : State) (t : Nat) (v : OppChg) : State := { s with power := { s.power with chg := Tab.set chg0 s.power.chg t v } }

/-- The point that TCLK of tile t runs at. -/
def State.freqOpp (s : State) (t : Nat) : Nat := if (s.chg t).active then (s.chg t).freq else s.fld (P.pwrT t) F.PWR_T_STS_opp

/-- OPP_CHANGE_START (R358): the target differs from where the tile is going; a change in progress is taken from its current state. -/
def execOppChangeStart (t : Fin 8) (s : State) : Host.Outcome State Fault Refusal :=
  .next <|
    let tgt := (s.oppTarget t).1
    let c := s.chg t
    let going := if c.active then c.goal else s.fld (P.pwrT t) F.PWR_T_STS_opp
    if !s.regOn t || tgt = going then s
    else (s.setChg t ⟨true, s.freqOpp t, tgt, false, false⟩).setFlag (P.pwrT t) F.PWR_T_STS_busy true

/-- The change of tile t goes as far as lock and voltage let it: a raise switches TCLK once both are there; a lowering switches at the lock and ends once VDD_T has fallen. -/
def State.chgStep (s : State) (t : Nat) : State :=
  let c := s.chg t
  let pg := P.pwrT t
  let done (s : State) : State :=
    (((s.setChg t OppChg.none).setFld pg F.PWR_T_STS_opp c.goal).setFlag pg F.PWR_T_STS_busy false).event pg 0
  if c.freq < c.goal then
    if c.locked && c.vdd then
      let s1 := done s
      { s1 with power := { s1.power with raised := true } }
    else s
  else if c.vdd then done s
  else if c.locked then s.setChg t { c with freq := c.goal }
  else s

/-- The idle PLL is locked. -/
def State.pllLock (s : State) (t : Nat) : State :=
  if (s.chg t).active then (s.setChg t { s.chg t with locked := true }).chgStep t else s

/-- A domain of tile t is between the close of its stage 3 and ON: VDD_T waits (R365). -/
def State.vddHeld (s : State) (t : Nat) : Bool := (List.range 136).any fun i => s.dom t i == 2 && decide (3 ≤ s.ramp t i % 8)

/-- VDD_T has its new value; in a lowering it falls only after TCLK has switched. -/
def State.vddReach (s : State) (t : Nat) : State :=
  let c := s.chg t
  if !c.active || s.vddHeld t || decide (c.goal < c.freq) then s
  else ((s.setFld (P.pwrT t) F.PWR_T_STS_vdd_mv (vddOf t c.goal)).setChg t { c with vdd := true }).chgStep t

/-! Samples (R361). -/

/-- Package power of a sample in mW: VIN_CORE, VDD_DRAM at 1.10 V and VDD_SER at 0.85 V, and 15 W. -/
def packageMw (i : PowerIn) : Nat := (i.vinMv * i.vinMa + 1100 * i.dramMa + 850 * i.serMa) / 1000 + 15000

/-- The mean of a list, 0 if empty. -/
def mean (l : List Nat) : Nat := l.sum / l.length

/-- P in mW: package power over the last 100 µs. -/
def State.pAvg (s : State) : Nat := mean ((s.power.samples.take 10).map (·.mw))

/-- The output current of tile t in mA over the last n samples. -/
def State.tileMa (s : State) (t n : Nat) : Nat := mean ((s.power.samples.take n).map fun x => x.tiles.getD t 0)

/-- Telemetry registers and energy counters of the package. -/
def State.pkgTelemetry (s : State) : State :=
  let l := s.power.samples.take 10
  let pg := P.pwr
  ((((((s.setFld pg F.PWR_PKG_p_w (min 4095 (s.pAvg / 1000))).setFld pg F.PWR_PKG_bucket_mj (min 4095 (s.power.bucket / 100000))).setFld pg
    F.PWR_VIN_mv (min 4095 (mean (l.map (·.mv))))).setFld pg F.PWR_VIN_amps (min 1023 (mean (l.map (·.ma)) / 1000))).setFld pg
    F.PWR_RAILS_dram_a (min 1023 (mean (l.map (·.dram)) / 1000))).setFld pg F.PWR_RAILS_ser_a (min 1023 (mean (l.map (·.ser)) / 1000))).setFld64 pg
    F.PWR_ENERGY_LO_mj F.PWR_ENERGY_HI_mj (s.power.energy / 100000)

/-- Telemetry registers and energy counter of tile t. -/
def State.tileTelemetry (s : State) (t : Nat) : State :=
  let pg := P.pwrT t
  let ma := s.tileMa t 10
  let now := s.fld pg F.PWR_T_STS_vdd_mv * ((s.power.samples.head?.map fun x => x.tiles.getD t 0).getD 0) / 1000
  let e := Tab.get nat0 s.power.tileEnergy t + now
  let s1 := { s with power := { s.power with tileEnergy := Tab.set nat0 s.power.tileEnergy t e } }
  (((s1.setFld pg F.PWR_T_TEL_amps (min 1023 (ma / 1000))).setFld pg F.PWR_T_TEL_watts
    (min 4095 (s.fld pg F.PWR_T_STS_vdd_mv * ma / 1000000))).setFld64 pg F.PWR_T_ENERGY_LO_mj F.PWR_T_ENERGY_HI_mj (e / 100000))

/-! The fast clamp (R359, R363, R364). -/

def State.ownClamp (s : State) (t : Nat) : Bool := Tab.get bit0 s.power.clamp t

/-- PWR_T_STS.clamp: the tile's own clamp, or the one on all tiles. -/
def State.clampSync (s : State) (t : Nat) : State :=
  s.setFlag (P.pwrT t) F.PWR_T_STS_clamp (s.ownClamp t || s.flag P.pwr F.PWR_STS_clamp)

def State.setOwnClamp (s : State) (t : Nat) (v : Bool) : State :=
  { s with power := { s.power with clamp := Tab.set bit0 s.power.clamp t v } }.clampSync t

def State.setAllClamp (s : State) (v : Bool) : State :=
  (s.setFlag P.pwr F.PWR_STS_clamp v).each (List.range 8) fun t s => s.clampSync t

/-- FAST_CLAMP_RELEASE of a tile's own clamp, or of the one on all tiles. -/
def execFastClampRelease (t : Option (Fin 8)) (s : State) : Host.Outcome State Fault Refusal :=
  .next (match t with
    | some t => s.setOwnClamp t false
    | none => s.setAllClamp false)

/-! The loop (R362). -/

/-- The sustained and peak limits in mW; a peak below the sustained limit acts as it. -/
def State.pSust (s : State) : Nat := 10000 * s.fld P.pwr F.PWR_LIMIT_p_sust
def State.pPeak (s : State) : Nat := max s.pSust (10000 * s.fld P.pwr F.PWR_LIMIT_p_peak)

/-- The capacity C in units of 10 nJ. -/
def State.bucketCap (s : State) : Nat := (s.pPeak - s.pSust) * s.fld P.boot F.BOOT_VARIANT_peak_ms * 100

/-- The device cap moves; interrupt bit 0 when it leaves the highest point. -/
def State.setCap (s : State) (v : Nat) : State :=
  let was := s.fld P.pwr F.PWR_STS_cap
  let s1 := (s.setFld P.pwr F.PWR_STS_cap v).setFlag P.pwr F.PWR_STS_limiting (decide (v < s.maxOpp))
  if was = s.maxOpp ∧ v < was then s1.event P.pwr 0 else s1

/-- POWER_LOOP_TICK. While the fast clamp of R363 is engaged the loop moves no cap: it continues at the release. -/
def execPowerLoopTick (s : State) : Host.Outcome State Fault Refusal :=
  .next <|
    if s.flag P.pwr F.PWR_STS_clamp then s else
    let e := s.power.bucket
    let c := s.bucketCap
    let p := s.pAvg
    let cap := s.fld P.pwr F.PWR_STS_cap
    if 9 * c ≤ 10 * e ∧ s.pSust < p then s.setCap (cap - 1)
    else if 2 * e ≤ c ∧ 100 * p ≤ 97 * s.pSust then s.setCap (min s.maxOpp (cap + 1))
    else s

/-- The highest current operating point of any tile. -/
def State.topOpp (s : State) : Nat := ((List.range 8).map fun t => s.fld (P.pwrT t) F.PWR_T_STS_opp).foldl max 0

/-- The clamp on every tile engages (R363). E reaches C in a sample that adds to it. -/
def State.clampAll (s : State) : State :=
  if s.flag P.pwr F.PWR_STS_clamp then s
  else if s.pPeak < s.pAvg ∨ (s.bucketCap ≤ s.power.bucket ∧ s.pSust < s.pAvg) then
    ((s.setAllClamp true).setCap (min (s.fld P.pwr F.PWR_STS_cap) (s.topOpp - 4))).event P.pwr 1
  else s

/-! Current caps (R364). -/

def State.drop (s : State) (t : Nat) : Nat := Tab.get nat0 s.power.drop t

/-- The cap of tile t becomes v, no higher than the highest point. -/
def State.setTileCap (s : State) (t v : Nat) : State :=
  { s with power := { s.power with drop := Tab.set nat0 s.power.drop t (s.maxOpp - min v s.maxOpp) } }

def State.setAt (s : State) (low : Bool) (t v : Nat) : State :=
  if low then { s with power := { s.power with lowAt := Tab.set nat0 s.power.lowAt t v } }
  else { s with power := { s.power with okAt := Tab.set nat0 s.power.okAt t v } }

/-- The three rows of R364 at a sample. -/
def State.capTile (s : State) (t : Nat) : State :=
  let now := s.now + 1
  let s1 := if 320000 < s.tileMa t 1 ∧ !s.ownClamp t then
      ((s.setOwnClamp t true).setTileCap t (min (s.tileCap t) (s.fld (P.pwrT t) F.PWR_T_STS_opp - 2))).event (P.pwrT t) 2 else s
  let a := s1.tileMa t 100
  let low := Tab.get nat0 s1.power.lowAt t
  let ok := Tab.get nat0 s1.power.okAt t
  let s2 := if 260000 < a then (if low = 0 ∨ low + 100000 ≤ now then (s1.setTileCap t (s1.tileCap t - 1)).setAt true t now else s1)
    else s1.setAt true t 0
  if a ≤ 240000 then
    if ok = 0 then s2.setAt false t now
    else if ok + 10000000 ≤ now then (s2.setTileCap t (s2.tileCap t + 1)).setAt false t now
    else s2
  else s2.setAt false t 0

/-- POWER_SAMPLE: one sample every 10 µs. -/
def execPowerSample (i : PowerIn) (s : State) : Host.Outcome State Fault Refusal :=
  .next <|
    if !s.aoUp || s.thm.tripped then s
    else
      let x : PSample := ⟨packageMw i, i.vinMv, i.vinMa, i.dramMa, i.serMa, i.tileMa⟩
      let s1 := { s with power := { s.power with samples := (x :: s.power.samples).take 100, energy := s.power.energy + x.mw, sum10 := s.power.sum10 + x.mw, n10 := s.power.n10 + 1 } }
      let p := s1.pAvg
      let s2 := { s1 with power := { s1.power with bucket := min s1.bucketCap (s1.power.bucket + p - s1.pSust), lo := some (min p (s1.power.lo.getD p)), hi := max p s1.power.hi } }
      let vin := decide (1746 ≤ i.vinMv ∧ i.vinMv ≤ 1854)
      let s3 := (if s.flag P.pwr F.PWR_STS_vin_ok && !vin then s2.event P.pwr 2 else s2).setFlag P.pwr F.PWR_STS_vin_ok vin
      let s4 := s3.pkgTelemetry.each (List.range 8) fun t s => (s.tileTelemetry t).capTile t
      s4.clampAll

/-! Writes (R355). -/

/-- A write of PWR_LIMIT: values above the fused ones store the fused ones, counted once; locked, a change is refused. -/
def State.pwrLimit (s : State) (rq : Requester) (v : Nat) : State :=
  let pg := P.pwr
  let fs := s.fld P.boot F.BOOT_VARIANT_p_sust
  let fp := s.fld P.boot F.BOOT_VARIANT_p_peak
  let a := bits v 0 8
  let b := bits v 8 8
  if s.flag pg F.PG_LOCK_locked then
    if a = s.fld pg F.PWR_LIMIT_p_sust ∧ b = s.fld pg F.PWR_LIMIT_p_peak then s
    else s.countErr pg 0x03 (rqCode rq) (accessAddr rq pg 0x044)
  else
    let s1 := (s.setFld pg F.PWR_LIMIT_p_sust (min a fs)).setFld pg F.PWR_LIMIT_p_peak (min b fp)
    if fs < a ∨ fp < b then s1.countErr pg 0x40 (rqCode rq) (accessAddr rq pg 0x044) else s1

/-- PWR_LIMIT_WRITE. -/
def execPwrLimitWrite (rq : Requester) (v : Word) (s : State) : Host.Outcome State Fault Refusal :=
  .next (s.privWrite rq P.pwr 0x044 fun s => s.pwrLimit rq v.toNat)

/-- A write of PWR_T_REQ. -/
def State.pwrReq (s : State) (rq : Requester) (t v : Nat) : State :=
  let pg := P.pwrT t
  let a := bits v 0 5
  let s1 := s.setFld pg F.PWR_T_REQ_opp_req (min a s.maxOpp)
  if s.maxOpp < a then s1.countErr pg 0x40 (rqCode rq) (accessAddr rq pg 0x044) else s1

/-- PWR_T_REQ_WRITE. -/
def execPwrTReqWrite (rq : Requester) (t : Fin 8) (v : Word) (s : State) : Host.Outcome State Fault Refusal :=
  .next (s.tileWrite rq (P.pwrT t) 0x044 (.point rq t v.toNat) fun s => s.pwrReq rq t v.toNat)

/-! Regulators and rails (R367, 18 R423). -/

/-- REGULATOR_FAULT: overcurrent, or undervoltage; the tile is lost. -/
def execRegulatorFault (t : Fin 8) (under : Bool) (s : State) : Host.Outcome State Fault Refusal :=
  .next <|
    if !s.regOn t then s
    else
      let s1 := ((s.regulatorOff t).trailPut 0x06 0x0B 2 [1, t, b2n under]).event (P.pwrT t) 3
      s1.tileLost t .regulator

def State.setRail (s : State) (i : Nat) (bad : Bool) : State := { s with power := { s.power with rails := putBit s.power.rails i bad } }

/-- A supply of the regulators fails: every regulator turns off, with a Trail record; nothing more happens in a cooling shutdown past its step 3 or after a trip (18 R434). -/
def State.supplyLost (s : State) (i : Nat) : State :=
  let s1 := s.setRail i true
  if s.hubOff || s.stuck then s1
  else
    let s2 := s1.trailPut 0x06 0x0B 2 [2, i]
    (if i = 0 && s.flag P.pwr F.PWR_STS_vin_ok then (s2.setFlag P.pwr F.PWR_STS_vin_ok false).event P.pwr 2 else s2).dark

/-- The supply is back: once the last one is, steps 2 to 12 run as after a device warm reset. -/
def State.supplyBack (s : State) (i : Nat) : State :=
  if !bitOf s.power.rails i then s
  else
    let s1 := s.setRail i false
    if s1.power.rails % 16 = 0 && s1.hubOff && !s1.inShutdown && !s1.stuck then s1.rerun else s1

/-- VIN_CORE_LOW. -/
def execVinCoreLow (s : State) : Host.Outcome State Fault Refusal := .next (s.supplyLost 0)

/-- VIN_CORE_RESTORED. -/
def execVinCoreRestored (s : State) : Host.Outcome State Fault Refusal := .next (s.supplyBack 0)

/-- VDD_IO: every port's PERST_N reads asserted while it is out of tolerance. -/
def State.ioRail (s : State) (bad : Bool) : State :=
  (s.setRail 4 bad).each (List.range 4) fun p s => (s.setPort p { s.port p with railBad := bad }).perstSync p

/-- What a trip does to the Trail before its own record (16 R385, R386; 17 R415): the record being written is finished, the queued ones are discarded; a fuse write and a flash write in progress are abandoned. -/
def State.tripTrail (s : State) : State :=
  let s1 := { s with trail := { s.trail with queue := s.trail.queue.take 1, lost := 0 } }.trailCommit
  { s1 with board := { s1.board with fuseWrite := none }, mgt := { s1.mgt with update := none } }

/-- RAIL_LOSS. VAO_IO: a trip without its record and without THERMTRIP_N. -/
def execRailLoss (r : Rail) (s : State) : Host.Outcome State Fault Refusal :=
  .next (match r with
    | .vddDram => s.supplyLost 1
    | .vppDram => s.supplyLost 2
    | .vddSer => s.supplyLost 3
    | .vddIo => s.ioRail true
    | .vaoIo => let s1 := (s.setRail 5 true).tripTrail.dark; { s1 with thm := { s1.thm with tripped := true, tripPin := false } })

/-- RAIL_RESTORED. VAO_IO back changes nothing: only a cold power cycle ends that stop. -/
def execRailRestored (r : Rail) (s : State) : Host.Outcome State Fault Refusal :=
  .next (match r with
    | .vddDram => s.supplyBack 1
    | .vppDram => s.supplyBack 2
    | .vddSer => s.supplyBack 3
    | .vddIo => s.ioRail false
    | .vaoIo => s.setRail 5 false)

end Sys2Proof.Machine
end

