-- ==== Sys2Proof/Machine/Thermal.lean ====
section
/-! DEFINITION. Temperature (16): sensors and sampling bands (R370-R374), thermal requests (R376), the margin (R377), refresh bands (09 R229), trip (R385, R386), emergency floor and cooling shutdown (R387-R389), thermal cycles (R382). -/
namespace Sys2Proof.Machine

/-! Readings. Dies 0 to 7 are the tiles, die 8 the hub; readings are in 0.25 °C. -/

/-- A temperature in °C as a reading. -/
def degC (n : Nat) : Int := 4 * n

def sensorCount (d : Nat) : Nat := if d < 8 then 28 else 8
def thmPage (d : Nat) : Nat := if d < 8 then P.thmT d else P.thm 0
def sensorTemp (d k : Nat) : Fld := if d < 8 then F.THM_T_SENSOR_temp k else F.THM_HUB_T_temp k
def sensorValid (d k : Nat) : Fld := if d < 8 then F.THM_T_SENSOR_valid k else F.THM_HUB_T_valid k
/-- Sensor k is a DRAM-layer sensor. -/
def isDram (k : Nat) : Bool := decide (20 ≤ k)

/-- The reading of a sensor, if it is valid. -/
def State.sensor (s : State) (d k : Nat) : Option Int :=
  if s.flag (thmPage d) (sensorValid d k) then some (sgn 11 (s.fld (thmPage d) (sensorTemp d k))) else none

/-- The valid readings of a die that satisfy a choice of sensors. -/
def State.readings (s : State) (d : Nat) (f : Nat → Bool) : List Int := ((List.range (sensorCount d)).filter f).filterMap fun k => s.sensor d k
def State.logicOf (s : State) (d : Nat) : List Int := s.readings d fun k => !isDram k
def State.dramOf (s : State) (d : Nat) : List Int := s.readings d isDram
def State.allOf (s : State) (d : Nat) : List Int := s.readings d fun _ => true

/-- The greatest of a list. -/
def maxOf : List Int → Option Int
  | [] => none
  | a :: l => some (l.foldl max a)

/-- T_THROTTLE as a reading. -/
def State.tThrottle (s : State) : Int := degC (s.fld (P.thm 0) F.THM_CFG_t_throttle)

/-- A field that shows a derived reading; with no valid sensor behind it the spec states no value (log entry 10). -/
def State.showReading (s : State) (pg : Nat) (f : Fld) (o : Option Int) : State :=
  match o with
  | some v => s.setFld pg f (unsgn f.len v)
  | none => (s.setFld pg f (Config.freeNat s.fresh)).tick

def State.thermalRec (s : State) (sev : Nat) (payload : List Nat) : State := s.trailPut 0x04 0x0A sev payload

/-- One conversion of sensor k of die d (R371). -/
def State.sensorStep (s : State) (d k : Nat) (r : SensorIn) : State :=
  let temp := sgn 11 r.temp.toNat
  let pg := thmPage d
  let i := 32 * d + k
  let st := Tab.get sens0 s.thm.sens i
  let put (v : SensorSt) (s : State) : State := { s with thm := { s.thm with sens := Tab.set sens0 s.thm.sens i v } }
  let valid := s.flag pg (sensorValid d k)
  if r.ok && decide (-160 ≤ temp) && decide (temp ≤ 600) then
    let s1 := s.setFld pg (sensorTemp d k) r.temp.toNat
    if valid then put ⟨true, 0⟩ s1
    else if !st.seen then put ⟨true, 0⟩ (s1.setFlag pg (sensorValid d k) true)
    else if st.cnt = 9 then put ⟨true, 0⟩ ((s1.setFlag pg (sensorValid d k) true).thermalRec 0 [4, d, k])
    else put ⟨true, st.cnt + 1⟩ s1
  else if valid then
    if st.cnt = 1 then
      let s1 := put ⟨true, 0⟩ ((s.setFlag pg (sensorValid d k) false).thermalRec 1 [3, d, k])
      if d < 8 then s1.event pg 2 else s1
    else put ⟨true, 1⟩ s
  else put ⟨st.seen, 0⟩ s

/-! Sampling bands (R372). -/

/-- The entry condition of band b, lowered by `back`. -/
def State.bandMet (s : State) (d b : Nat) (back : Int) : Bool :=
  let l := if b = 2 then degC 110 else s.tThrottle - 32
  let m := if b = 2 then degC 105 else degC 97
  (s.logicOf d).any (fun v => decide (l - back ≤ v)) || (s.dramOf d).any fun v => decide (m - back ≤ v)

def State.band (s : State) (d : Nat) : Nat := if d < 8 then s.fld (P.thmT d) F.THM_T_STS_band else s.fld (P.thm 0) F.THM_STS_hub_band

/-- The band changes; a tile reports it. -/
def State.setBand (s : State) (d b : Nat) : State :=
  if s.band d = b then s
  else if d < 8 then (s.setFld (P.thmT d) F.THM_T_STS_band b).event (P.thmT d) 3
  else s.setFld (P.thm 0) F.THM_STS_hub_band b

def State.bandUp (s : State) (d : Nat) : State :=
  if s.bandMet d 2 0 then s.setBand d 2 else if s.bandMet d 1 0 then s.setBand d (max 1 (s.band d)) else s

/-- SAMPLING_BAND_DROP: every reading stays at least 2 °C below the band's entry condition. -/
def execSamplingBandDrop (die : Fin 9) (s : State) : Host.Outcome State Fault Refusal :=
  .next <|
    let b := s.band die
    if b = 0 ∨ s.bandMet die b 7 then s else s.setBand die (b - 1)

/-! Refresh bands (09 R229). -/

/-- Band of the hottest valid DRAM-layer reading: 0 1×, 1 2×, 2 4×. -/
def State.refreshWanted (s : State) (t : Nat) : Nat :=
  match maxOf (s.dramOf t) with
  | none => 2
  | some v => if degC 95 ≤ v then 2 else if degC 85 ≤ v then 1 else 0

def State.refreshBand (s : State) (t : Nat) : Nat := Tab.get nat0 s.bands t

/-- The band slice x refreshes at: the tile's, not below SLC_CTL.band_min, of which 3 acts as 2. -/
def State.sliceBand (s : State) (x : Nat) : Nat := min 2 (max (s.refreshBand (x / 64)) (s.fld (P.slc x) F.SLC_CTL_band_min))

/-- The DRAM-hot event of tile t is active. -/
def State.dramHot (s : State) (t : Nat) : Bool := (s.dramOf t).any fun v => decide (degC 105 ≤ v)

/-- The slices of tile t. -/
def tileSlcs (t : Nat) : List Nat := (List.range 64).map (64 * t + ·)

/-- The refresh band of tile t becomes b; a slice whose band changes reports it (R242 bit 1). -/
def State.setRefresh (s : State) (t b : Nat) : State :=
  if s.refreshBand t = b then s
  else
    let s1 := { s with bands := Tab.set nat0 s.bands t b }
    s1.each ((tileSlcs t).filter fun x => s.sliceBand x != s1.sliceBand x) fun x s => s.event (P.slc x) 1

/-- A refresh band rises at the first sample. -/
def State.refreshUp (s : State) (t : Nat) : State := s.setRefresh t (max (s.refreshBand t) (s.refreshWanted t))

/-- The tile enters DRAM-hot (R242 bit 2). -/
def State.hotEnter (s : State) (d : Nat) (was : Bool) : State :=
  if d < 8 && !was && s.dramHot d then s.each (tileSlcs d) fun x s => s.event (P.slc x) 2 else s

/-- REFRESH_BAND_FALL: every reading stays at least 3 °C below the band's lower threshold. -/
def execRefreshBandFall (t : Fin 8) (s : State) : Host.Outcome State Fault Refusal :=
  .next <|
    let b := s.refreshBand t
    let limit := degC (if b = 2 then 92 else 82)
    if b = 0 || (s.dramOf t).isEmpty || (s.dramOf t).any (fun v => decide (limit < v)) then s
    else s.setRefresh t (b - 1)

/-! Thermal requests (R376, R390). -/

def State.thmState (s : State) (t : Nat) : Nat := s.fld (P.thmT t) F.THM_T_STS_state
def State.thmReq (s : State) (t : Nat) : Nat := s.fld (P.thmT t) F.THM_T_STS_req
def State.setReq (s : State) (t v : Nat) : State := s.setFld (P.thmT t) F.THM_T_STS_req v
def State.setThmState (s : State) (t v : Nat) : State := s.setFld (P.thmT t) F.THM_T_STS_state v
def State.thmCond (s : State) (t : Nat) : Bool := Tab.get bit0 s.thm.cond t
def State.setCond (s : State) (t : Nat) (v : Bool) : State := { s with thm := { s.thm with cond := Tab.set bit0 s.thm.cond t v } }

/-- THROTTLING entered, unless the tile is there. -/
def State.throttling (s : State) (t : Nat) : State := if s.thmState t = 1 then s else (s.setThmState t 1).event (P.thmT t) 0

/-- The throttle condition on the tile's readings. -/
def State.mustThrottle (s : State) (t : Nat) : Bool :=
  (s.logicOf t).any (fun v => decide (s.tThrottle ≤ v)) || (s.dramOf t).any fun v => decide (degC 105 ≤ v)

/-- The release condition. -/
def State.mayRelease (s : State) (t : Nat) : Bool :=
  !(s.logicOf t).isEmpty && !(s.dramOf t).isEmpty && (s.logicOf t).all (fun v => decide (v ≤ s.tThrottle - 12)) &&
  (s.dramOf t).all (fun v => decide (v ≤ degC 102)) && (s.allOf t).all fun v => decide (v ≤ degC 105)

/-- HOT entered: one Trail record a minute. -/
def State.enterHot (s : State) (t : Nat) : State :=
  let s1 := (s.setThmState t 2).event (P.thmT t) 1
  let due := match Tab.get hold0 s.thm.hotAt t with | some a => decide (a + 60000000000 ≤ s.now) | none => true
  if due then { s1 with thm := { s1.thm with hotAt := Tab.set hold0 s1.thm.hotAt t (some s.now) } }.thermalRec 2 [7, t] else s1

/-- The request of tile t at a conversion. -/
def State.requestStep (s : State) (t : Nat) : State :=
  if (s.logicOf t).isEmpty || (s.dramOf t).isEmpty then ((s.setThmState t 3).setReq t 0).setCond t false
  else if (s.allOf t).any fun v => decide (degC 108 ≤ v) then ((if s.thmState t = 2 then s else s.enterHot t).setReq t 0).setCond t true
  else if s.thmState t = 2 && (s.allOf t).any (fun v => decide (degC 105 < v)) then s
  else if s.mustThrottle t then
    let s1 := if s.thmCond t then s else s.setReq t (s.thmReq t - 1)
    (s1.throttling t).setCond t true
  else
    let s1 := s.setCond t false
    if s.thmState t = 2 ∨ s.thmState t = 3 then s1.throttling t else s1

/-- THROTTLE_STEP: 200 µs more of the throttle condition. -/
def execThrottleStep (t : Fin 8) (s : State) : Host.Outcome State Fault Refusal :=
  .next (if s.thmState t = 1 && s.mustThrottle t then s.setReq t (s.thmReq t - 1) else s)

/-- THROTTLE_RELEASE_STEP: 1 ms at the release levels. -/
def execThrottleReleaseStep (t : Fin 8) (s : State) : Host.Outcome State Fault Refusal :=
  .next <|
    if 2 ≤ s.thmState t || !s.mayRelease t then s
    else
      let r := min s.maxOpp (s.thmReq t + 1)
      let s1 := s.setReq t r
      if r = s.maxOpp then s1.setThmState t 0 else s1

/-! The cooling margin (R377) and threshold crossings (17 R400). -/

/-- Dies in service: tiles that are not fenced, and the hub. -/
def State.inService (s : State) (d : Nat) : Bool := decide (8 ≤ d) || !s.fenced d

/-- The margin, if any sensor counts. -/
def State.margin (s : State) : Option Int :=
  let ds := (List.range 9).filter s.inService
  let ms := ds.flatMap fun d => ((s.logicOf d).map fun v => v - s.tThrottle) ++ if d < 8 then (s.dramOf d).map fun v => v - degC 105 else []
  (maxOf ms).map fun v => -v

/-- The hottest valid logic reading of the device. -/
def State.devMax (s : State) : Option Int := maxOf ((List.range 9).flatMap s.logicOf)

/-- Level of a temperature sensor: 0 normal, 1 warning, 2 critical, 3 fatal. -/
def State.tempLevel (s : State) (trip : Nat) (o : Option Int) : Nat :=
  match o with
  | none => 0
  | some v => if degC trip ≤ v then 3 else if degC 108 ≤ v then 2 else if s.tThrottle ≤ v then 1 else 0

/-- Levels of the PLDM temperature sensors: device, tile logic, tile DRAM. -/
def State.tempLevels (s : State) : List (Nat × Nat) :=
  (1, s.tempLevel 115 s.devMax) :: (List.range 8).flatMap fun t =>
    [(16 + t, s.tempLevel 115 (maxOf (s.logicOf t))), (24 + t, s.tempLevel 110 (maxOf (s.dramOf t)))]

/-- Sensor events for the levels that differ from `before`. -/
def State.tempEvents (s : State) (before : List (Nat × Nat)) : State :=
  if s.mgt.evSub = 0 then s
  else s.each (s.tempLevels.filter fun e => !before.contains e) fun e s => s.emit (.sensorEvent s.mgt.evSub e.1 e.2)

/-- THM_MARGIN after a conversion; interrupt bit 3 when the margin falls to 0 or below. -/
def State.marginStep (s : State) : State :=
  let was := sgn 16 (s.fld (P.thm 0) F.THM_MARGIN_margin)
  let s1 := (s.showReading (P.thm 0) F.THM_MARGIN_margin s.margin).showReading (P.thm 0) F.THM_MARGIN_dev_max s.devMax
  if 0 < was ∧ sgn 16 (s1.fld (P.thm 0) F.THM_MARGIN_margin) ≤ 0 then s1.event (P.thm 0) 3 else s1

/-- Maxima, mean and counts of a tile. -/
def State.tileReadings (s : State) (t : Nat) : State :=
  let l := s.logicOf t
  let m := s.dramOf t
  let avg : Option Int := if l.isEmpty then none else some (l.sum / l.length)
  ((((s.showReading (P.thmT t) F.THM_T_STS_logic_max (maxOf l)).showReading (P.thmT t) F.THM_T_STS_dram_max (maxOf m)).showReading (P.thmT t)
    F.THM_T_MEAN_mean avg).setFld (P.thmT t) F.THM_T_MEAN_valid_logic l.length).setFld (P.thmT t) F.THM_T_MEAN_valid_dram m.length

/-- The logic max of a die enters its 1 ms average. -/
def State.sampleMax (s : State) (d : Nat) : State :=
  match maxOf (s.logicOf d) with
  | none => s
  | some v => { s with thm := { s.thm with sum := Tab.set int0 s.thm.sum d (Tab.get int0 s.thm.sum d + v), num := Tab.set nat0 s.thm.num d (Tab.get nat0 s.thm.num d + 1) } }

/-! Emergency floor (R387, R388). -/

/-- THM_STS.cause after a conversion or an event adds cause i. -/
def State.floorCause (s : State) (i : Nat) : State :=
  if s.inShutdown || s.stuck || s.hubOff then s
  else
    let c := putBit (s.fld (P.thm 0) F.THM_STS_cause) i true
    let s1 := s.setFld (P.thm 0) F.THM_STS_cause c
    if s.flag (P.thm 0) F.THM_STS_floor then s1
    else (({ s1 with thm := { s1.thm with floorAt := some s.now } }.setFlag (P.thm 0) F.THM_STS_floor true).event (P.thm 0) 0).thermalRec 2 [0, c]

/-- Cause i is restored; the floor ends with its last cause. -/
def State.floorRestore (s : State) (i : Nat) : State :=
  if !bitOf (s.fld (P.thm 0) F.THM_STS_cause) i then s
  else
    let c := putBit (s.fld (P.thm 0) F.THM_STS_cause) i false
    let s1 := s.setFld (P.thm 0) F.THM_STS_cause c
    if c ≠ 0 then s1
    else (({ s1 with thm := { s1.thm with floorAt := none } }.setFlag (P.thm 0) F.THM_STS_floor false).event (P.thm 0) 1).thermalRec 1 [1]

def State.okEn (s : State) : Bool := s.flag (P.thm 1) F.THM_COOL_CFG_ok_en

/-- A write of ok_en (R375): a level that is high already counts from then on. -/
def State.okSync (s : State) : State := if s.okEn && !s.thm.pinLow && !bitOf (s.fld (P.thm 0) F.THM_STS_cause) 0 then s.floorCause 0 else s

/-- COOLANT_OK_HIGH. -/
def execCoolantOkHigh (s : State) : Host.Outcome State Fault Refusal :=
  .next <|
    let s1 := { s with thm := { s.thm with pinLow := false } }
    if s.okEn then s1.floorCause 0 else s1

/-- COOLANT_OK_RESTORED. -/
def execCoolantOkRestored (s : State) : Host.Outcome State Fault Refusal :=
  .next ({ s with thm := { s.thm with pinLow := true } }.floorRestore 0)

/-- HUB_T_HOT_RESTORED: every hub reading at or below 105 °C. -/
def execHubTHotRestored (s : State) : Host.Outcome State Fault Refusal :=
  .next (if (s.allOf 8).any fun v => decide (degC 105 < v) then s else s.floorRestore 2)

/-- A release written to THM_COOL_CFG. -/
def State.thmRelease (s : State) (rq : Requester) : State :=
  if !s.inShutdown && (s.thm.pinLow || !s.okEn) && !s.thm.rising then s.floorRestore 1
  else s.countErr (P.thm 1) 0x41 (rqCode rq) (accessAddr rq (P.thm 1) 0x040)

/-- FLOOR_RELEASE. -/
def execFloorRelease (rq : Requester) (s : State) : Host.Outcome State Fault Refusal :=
  .next (s.privWrite rq (P.thm 1) 0x040 fun s => s.thmRelease rq)

/-! Trip (R385, R386). -/

/-- P̄ in W. -/
def State.pBar (s : State) : Nat := if s.power.n10 = 0 then s.thm.fc.getD 1 0 else s.power.sum10 / s.power.n10 / 1000

/-- EXT_Tk as records carry it (R381). -/
def State.extWord (s : State) (k : Nat) : Nat :=
  if s.flag (P.thm 1) (F.THM_EXT_broken k) then 0x8000 else unsgn 16 (sgn 12 (s.fld (P.thm 1) (F.THM_EXT_temp k)))

/-- Bytes as little-endian dwords. -/
def byteDwords (n : Nat) (bs : List Byte) : List Nat := (List.range n).map fun i => leNat ((bs.drop (4 * i)).take 4)

/-- The payload of a TRIP record (17 R411). -/
def State.tripPayload (s : State) (d k lost : Nat) (v : Int) : List Nat :=
  let c (o : Option Int) : List Byte := leBytes 1 (unsgn 8 (o.getD 0 / 4))
  byteDwords 9 <| leBytes 1 d ++ leBytes 1 k ++ leBytes 2 (unsgn 11 v) ++
    ((List.range 8).flatMap fun t => c (maxOf (s.logicOf t)) ++ c (maxOf (s.dramOf t)) ++ leBytes 1 (s.fld (P.pwrT t) F.PWR_T_STS_opp)) ++
    leBytes 2 (min 65535 s.pBar) ++ leBytes 2 (s.extWord 0) ++ leBytes 2 (s.extWord 1) ++ leBytes 1 (min 255 lost)

/-- The trip: the record in progress is finished, the queued ones are discarded, everything but always-on logic stops, the trip record is written. -/
def State.trip (s : State) (d k : Nat) (v : Int) : State :=
  let lost := s.trail.queue.length - 1
  let s1 := s.tripTrail
  let r : TrailRec := ⟨0, 3, 0x0A, 3, s.ptpStamp, s.fld P.trl F.TRL_BOOTCNT_value, s.msSinceStep1, s.tripPayload d k lost v⟩
  let s2 := (s1.trailWrite r).dark
  { s2 with thm := { s2.thm with tripped := true, tripPin := true } }

/-- The first sensor of a die at its trip threshold. -/
def State.tripping (s : State) (d : Nat) : Option (Nat × Int) :=
  (List.range (sensorCount d)).findSome? fun k =>
    match s.sensor d k with
    | some v => if (if isDram k then degC (s.fld (P.thm 0) F.THM_CFG_trip_dram) else degC (s.fld (P.thm 0) F.THM_CFG_trip_logic)) ≤ v then some (k, v) else none
    | none => none

/-- What a conversion of a tile or of the hub leads to. -/
def State.dieActs (s : State) (d : Nat) : State :=
  if d < 8 then ((s.tileReadings d).refreshUp d).requestStep d
  else if (s.allOf 8).any fun v => decide (degC 108 ≤ v) then s.floorCause 2 else s

/-- THERMAL_CONVERSION: the sensors of a die are converted together. -/
def execThermalConversion (die : Fin 9) (rs : List SensorIn) (s : State) : Host.Outcome State Fault Refusal :=
  .next <|
    if !s.aoUp || s.thm.tripped then s
    else
      let before := s.tempLevels
      let s1 := s.each ((rs.take (sensorCount die)).zipIdx) fun e s => s.sensorStep die e.2 e.1
      let s2 := (((((s1.bandUp die).dieActs die).hotEnter die (s.dramHot die)).sampleMax die).marginStep).tempEvents before
      match s2.tripping die with
      | some (k, v) => s2.trip die k v
      | none => s2

/-! Coolant channels (R374). -/

/-- EXT_NTC_CONVERSION: a valid result outside −20 to 120 °C reads as the nearer bound (18 R430). -/
def execExtNtcConversion (k : Fin 2) (valid : Bool) (temp : Int) (s : State) : Host.Outcome State Fault Refusal :=
  .next <|
    if !s.aoUp || s.thm.tripped then s
    else
      let pg := P.thm 1
      let n := Tab.get nat0 s.thm.ext k
      let put (n : Nat) (s : State) : State := { s with thm := { s.thm with ext := Tab.set nat0 s.thm.ext k n } }
      let broken := s.flag pg (F.THM_EXT_broken k)
      if !valid then
        let s1 := (s.satFld pg (F.THM_EXT_invalid_cnt k) 1).setFlag pg (F.THM_EXT_stale k) true
        if broken then put 0 s1
        else if n = 0 then put 1 s1
        else put 0 (((s1.setFlag pg (F.THM_EXT_broken k) true).event pg 0).thermalRec 1 [5, k])
      else
        let v := max (-200) (min 1200 temp)
        let was := sgn 12 (s.fld pg (F.THM_EXT_temp k))
        let alarm : Int := 10 * (s.fld pg (if k.val = 0 then F.THM_EXT_CFG_alarm_in else F.THM_EXT_CFG_alarm_out) : Nat)
        let s1 := (s.setFld pg (F.THM_EXT_temp k) (unsgn 12 v)).setFlag pg (F.THM_EXT_stale k) false
        let back := broken && n == 9
        let s2 := if back then put 0 (((s1.setFlag pg (F.THM_EXT_broken k) false).event pg 1).thermalRec 0 [6, k])
          else if broken then put (n + 1) s1 else put 0 s1
        if (!broken || back) && decide (alarm ≤ v) && (back || decide (was < alarm)) then s2.event pg (2 + k) else s2

/-! Rise inference (R387) and thermal cycles (R382). -/

/-- One step of cycle counting of tile t with its 1 ms mean v in 1/64 °C. -/
def State.cycleStep (s : State) (t : Nat) (v : Int) : State :=
  let c := Tab.get cyc0 s.thm.cyc t
  let put (c : CycSt) (s : State) : State := { s with thm := { s.thm with cyc := Tab.set cyc0 s.thm.cyc t c } }
  if !c.run then put ⟨true, false, v, v⟩ s
  else if !c.up then
    let lo := min c.lo v
    put ⟨true, decide (1280 ≤ v - lo), lo, v⟩ s
  else
    let hi := max c.hi v
    if hi - v < 1280 then put { c with hi } s
    else
      let s1 := put ⟨true, false, v, v⟩ (s.satFld (P.thmT t) F.THM_T_CYC20_count 1)
      if 2560 ≤ hi - c.lo then s1.satFld (P.thmT t) F.THM_T_CYC40_count 1 else s1

/-- The mean logic max of a die over the last ms, in 1/64 °C. -/
def State.dieMean (s : State) (d : Nat) : Option Int :=
  let n := Tab.get nat0 s.thm.num d
  if n = 0 then none else some (Tab.get int0 s.thm.sum d * 16 / n)

/-- A die's rise over 40 ms exceeds 15 °C/s. -/
def risesFast (now old : RiseRec) (d : Nat) : Bool :=
  match now.m.getD d none, old.m.getD d none with
  | some a, some b => decide (192 < (a - b) * 5)
  | _, _ => false

/-- Power stayed within ±5 % of its value at `old`, and no tile raised its point since. -/
def steady (since : List RiseRec) (old : RiseRec) : Bool :=
  since.all fun r => decide (95 * old.p ≤ 100 * r.lo) && decide (100 * r.hi ≤ 105 * old.p) && !r.raised

/-- RISE_EVALUATION. -/
def execRiseEvaluation (s : State) : Host.Outcome State Fault Refusal :=
  .next <|
    if !s.aoUp || s.thm.tripped then s
    else
      let ms := (List.range 9).map s.dieMean
      let p := s.pAvg
      let r : RiseRec := ⟨ms, p, s.power.lo.getD p, max p s.power.hi, s.power.raised⟩
      let old := s.thm.hist[39]?
      let rising := match old with
        | some o => (List.range 9).any fun d => s.inService d && risesFast r o d
        | none => false
      let still := match old with
        | some o => steady (r :: s.thm.hist.take 39) o
        | none => false
      let s1 := { s with thm := { s.thm with hist := (r :: s.thm.hist).take 40, rising, sum := [], num := [] }
                         power := { s.power with lo := none, hi := 0, raised := false } }
      let s2 := s1.each (List.range 8) fun t s => match ms.getD t none with | some v => s.cycleStep t v | none => s
      if rising && still && decide (5 ≤ s.stage) then s2.floorCause 1 else s2

/-- The cycle counts of all tiles, as a CYCLES record carries them (17 R411; log entry 9). -/
def State.cyclePayload (s : State) : List Nat :=
  let c (i : Nat) : Nat := min 65535 (if i < 8 then s.fld (P.thmT i) F.THM_T_CYC20_count else s.fld (P.thmT (i - 8)) F.THM_T_CYC40_count)
  (List.range 8).map fun i => c (2 * i) + 2 ^ 16 * c (2 * i + 1)

def State.cycleRecord (s : State) : State := s.trailPut 0x05 0x0A 0 s.cyclePayload

/-- CYCLE_SNAPSHOT. -/
def execCycleSnapshot (s : State) : Host.Outcome State Fault Refusal := .next (if s.aoUp && !s.thm.tripped then s.cycleRecord else s)

/-! Cooling shutdown (R389). -/

/-- COOLING_SHUTDOWN: a coolant cause is still there 2 s after floor entry. A hub that has lost its clock sends no HALT. -/
def execCoolingShutdown (s : State) : Host.Outcome State Fault Refusal :=
  .next <|
    let c := s.fld (P.thm 0) F.THM_STS_cause
    if s.inShutdown || s.stuck || s.hubOff || c % 4 = 0 then s
    else
      let s1 := (((s.setFlag (P.thm 0) F.THM_STS_shutdown true).event (P.thm 0) 2).thermalRec 2 [2, c]).cycleRecord
      if s1.devFailed then s1
      else s1.each ((List.range 512).filter s1.skOn) fun k s =>
        (if s.skState k = 4 ∨ s.skState k = 5 then s else s.setSkState k 4).skControl k 2 |>.skPfcOn k

/-- Completion entries and messages that wait are sent: messages a coalescing queue still owes, and those a function holds that can be sent. -/
def State.flushCompletions (s : State) : State :=
  let s1 := s.each ((List.range 1024).filter fun i => (s.queue (i / 8) (i % 8)).unsignalled != 0) fun i s => s.cqSignal (i / 8) (i % 8)
  s1.each s1.fns fun e s => s.each (List.range 32) fun v s => s.pendingSend e.1 v

/-- COOLING_SHUTDOWN_ABSORB: what still runs ends ABORTED, links go down, the hub and the tiles turn off. -/
def execCoolingShutdownAbsorb (s : State) : Host.Outcome State Fault Refusal :=
  .next <|
    if !s.inShutdown || s.hubOff || s.stuck then s
    else if s.devFailed then (s.each (List.range 4) fun p s => s.portDown p).dark
    else
      let s1 := s.endJobs (s.jobsWhere fun _ => true) 8 6
      let s2 := s1.each ((List.range 64).filter fun i => (s1.vc i).run.isSome) fun i s => s.vcDone i 8 6 0
      (s2.flushCompletions.each (List.range 4) fun p s => s.portDown p).dark

/-! Writes. -/

/-- A write of THM_CFG (R373). -/
def State.thmCfg (s : State) (rq : Requester) (v : Nat) : State :=
  let pg := P.thm 0
  let a := bits v 0 7
  let c := min 105 (max 85 a)
  if s.flag pg F.PG_LOCK_locked then
    if a = s.fld pg F.THM_CFG_t_throttle then s else s.countErr pg 0x03 (rqCode rq) (accessAddr rq pg 0x044)
  else
    let s1 := s.setFld pg F.THM_CFG_t_throttle c
    if c = a then s1 else s1.countErr pg 0x40 (rqCode rq) (accessAddr rq pg 0x044)

/-- THM_CFG_WRITE. -/
def execThmCfgWrite (rq : Requester) (v : Word) (s : State) : Host.Outcome State Fault Refusal :=
  .next (s.privWrite rq (P.thm 0) 0x044 fun s => s.thmCfg rq v.toNat)

/-- ENERGY_TABLE_CLEAR. -/
def execEnergyTableClear (rq : Requester) (s : State) : Host.Outcome State Fault Refusal :=
  .next (s.privWrite rq (P.disp 5) 0x04C fun s => { s with etab := [] })

end Sys2Proof.Machine
end

