-- ==== Sys2Proof/Machine/Forecast.lean ====
section
/-! DEFINITION. The power forecast (16 R379-R381): energy tags, the simulation of waiting work, the record. Energies are in nJ, times in ns, powers in µW. -/
namespace Sys2Proof.Machine

/-- The energy tag of a RUN: energy and duration, at least 10 µs. -/
def State.runTag (s : State) (n : Nat) (d : Desc) : Nat × Nat :=
  if bitOf d.flags 2 then (d.energy * 10000, max 10000 (d.duration * 1000))
  else match s.etFind n d.model with
    | some k => ((s.et k).energy * 10000, max 10000 ((s.et k).duration * 10000))
    | none =>
      let t := max 1 (s.fld (P.disp 4) F.DISP_FC_CFG_default_us) * 10000
      (d.runWidth * s.fld (P.disp 4) F.DISP_FC_CFG_default_mw * t / 1000, t)

/-- The power of a tag. -/
def tagPower (t : Nat × Nat) : Nat := t.1 * 1000000 / t.2

/-- Power drawn from one time to another, counted from now. -/
structure FcSpan where
  power : Nat
  from' : Nat
  till : Nat

/-- The simulation of a partition: the tenant the round robin stands at with its credit, the queue each tenant was last served from, what waits by tenant and queue, when each logical core is free, and the spans so far. -/
structure FcSim where
  tenant : Nat
  credit : Nat
  rr : Tab Nat
  waits : List (Nat × Nat × List Desc)
  free : List (Nat × Nat)
  spans : List FcSpan

/-- The power and remaining time of the running job k. -/
def State.runSpan (s : State) (k : Nat) : FcSpan :=
  let j := s.job k
  let tag := match (s.queue j.tn j.q).fetched.find? (·.order == k) with
    | some d => s.runTag j.tn d
    | none => (0, 10000)
  ⟨tagPower tag, 0, max (tag.2 - (s.now - j.start)) 1000000⟩

/-- The running jobs. -/
def State.running (s : State) : List Nat := s.jobsWhere fun _ => true

/-- When each online logical core of partition p is free. -/
def State.freeTimes (s : State) (p : Nat) : List (Nat × Nat) :=
  ((s.partClusters p).flatMap fun cl => ((List.range 7).map (7 * cl + ·)).filter s.online).map fun g =>
    (g, match (s.core (s.physOf g)).job with | some k => (s.runSpan k).till | none => 0)

/-- RUNs fetched and not started, of the tenants of partition p. -/
def State.waitingRuns (s : State) (p : Nat) : List (Nat × Nat × List Desc) :=
  ((s.tenantsOf p).flatMap fun n => (List.range 8).map fun q => (n, q, (s.queue n q).fetched.filter fun d => d.kind == 1 && d.st == .waiting)).filter fun e => !e.2.2.isEmpty

/-- The earliest time at which w cores of one cluster are free, and those cores. -/
def earliest (free : List (Nat × Nat)) (w : Nat) : Option (Nat × List Nat) :=
  let cls := (free.map fun e => e.1 / 7).eraseDups
  let opts := cls.filterMap fun cl =>
    let l := ((free.filter fun e => e.1 / 7 == cl).mergeSort fun a b => decide (a.2 ≤ b.2)).take w
    if l.length < w then none else some ((l.getLast?.map (·.2)).getD 0, l.map (·.1))
  match opts with
  | [] => none
  | o :: os => some (os.foldl (fun b x => if x.1 < b.1 then x else b) o)

/-- The next RUN in the order of R142, and the simulation without it. -/
def State.fcNext (s : State) (v : FcSim) : Option (Nat × Desc × FcSim) :=
  let ts := (v.waits.map (·.1)).eraseDups
  let choice : Option (Nat × Nat) :=
    if ts.contains v.tenant && v.credit != 0 then some (v.tenant, v.credit - 1)
    else (match ts.find? (fun n => decide (v.tenant < n)) with | some n => some n | none => ts.head?).map fun n =>
      (n, max 1 (s.fld (P.disp 1) (F.DISP_TN_BIND_weight n)) - 1)
  match choice with
  | none => none
  | some (n, c) =>
    let prio (q : Nat) : Nat := qf s n q F.Q_SQ_CFG_priority
    let last := Tab.get nat0 v.rr n
    let qs := ((List.range 8).map fun i => (last + 1 + i) % 8).filter fun q => v.waits.any fun e => e.1 == n && e.2.1 == q
    let top := qs.foldl (fun b q => max b (prio q)) 0
    match qs.find? fun q => prio q == top with
    | none => none
    | some q =>
      match v.waits.find? fun e => e.1 == n && e.2.1 == q with
      | some (_, _, d :: rest) =>
        let others := v.waits.filter fun e => !(e.1 == n && e.2.1 == q)
        let waits := if rest.isEmpty then others else
          (v.waits.map fun e => if e.1 == n && e.2.1 == q then (n, q, rest) else e)
        some (n, d, { v with tenant := n, credit := c, rr := Tab.set nat0 v.rr n q, waits })
      | _ => none

/-- Start `fuel` more RUNs. -/
def State.fcRun (s : State) : Nat → FcSim → List FcSpan
  | 0, v => v.spans
  | fuel + 1, v =>
    match s.fcNext v with
    | none => v.spans
    | some (n, d, v) =>
      match earliest v.free d.runWidth with
      | none => s.fcRun fuel v
      | some (at', gs) =>
        let tag := s.runTag n d
        s.fcRun fuel { v with free := v.free.map fun e => if gs.contains e.1 then (e.1, at' + tag.2) else e
                              spans := ⟨tagPower tag, at', at' + tag.2⟩ :: v.spans }

/-- The work of partition p that waits. -/
def State.fcPart (s : State) (p : Nat) : List FcSpan :=
  if s.dispPaused p then []
  else
    let w := s.waitingRuns p
    let v := s.dsp p
    s.fcRun (w.foldl (fun n e => n + e.2.2.length) 0) ⟨v.tenant, v.credit, v.rr, w, s.freeTimes p, []⟩

/-- Energy of spans in 10 ms from `t0`, in µW · ns. -/
def spanEnergy (l : List FcSpan) (t0 : Nat) : Nat :=
  (l.map fun e => e.power * (min e.till (t0 + 10000000) - max e.from' t0)).sum

/-- B, P̄ and the eight windows in W. -/
def State.forecastValues (s : State) : List Nat :=
  let p := if s.power.n10 = 0 then 0 else s.power.sum10 * 1000 / s.power.n10
  let w (v : Nat) : Nat := min 65535 (v / 1000000)
  if !s.ready then w p :: w p :: List.replicate 8 (w p)
  else
    let run := s.running.map s.runSpan
    let b := p - (run.map (·.power)).sum
    let all := run ++ (List.range 8).flatMap s.fcPart
    w b :: w p :: (List.range 8).map fun i => w (b + spanEnergy all (10000000 * i) / 10000000)

/-- A bit of the record's flags. -/
def flagBit (i : Nat) (v : Bool) : Nat := if v then 2 ^ i else 0

/-- The 32-byte record of R381. -/
def State.forecastRecord (s : State) (seq : Nat) (fc : List Nat) : List Byte :=
  let any (st : Nat) : Bool := (List.range 8).any fun t => s.thmState t == st
  let flags := flagBit 0 (s.flag (P.thm 0) F.THM_STS_floor) + flagBit 1 s.inShutdown + flagBit 2 (any 1) + flagBit 3 (any 2) +
    flagBit 4 (s.flag (P.thm 1) (F.THM_EXT_broken 0)) + flagBit 5 (s.flag (P.thm 1) (F.THM_EXT_broken 1)) + flagBit 6 (!s.ready)
  let low := (List.range 8).foldl (fun b t => b + flagBit t (s.flag (P.thm 0) F.THM_STS_floor || decide (s.thmReq t < s.maxOpp))) 0
  leBytes 2 seq ++ leBytes 1 flags ++ leBytes 1 low ++ leBytes 4 (s.ptpStamp / 1000000) ++ leBytes 2 (fc.getD 1 0) ++
    ((List.range 8).flatMap fun i => leBytes 2 (fc.getD (2 + i) 0)) ++ leBytes 2 (s.fld (P.thm 0) F.THM_MARGIN_margin) ++
    leBytes 2 (s.extWord 0) ++ leBytes 2 (s.extWord 1)

/-- FORECAST_PUBLISH: every 10 ms, while the hub runs. -/
def execForecastPublish (s : State) : Host.Outcome State Fault Refusal :=
  .next <|
    if s.hubDead || s.stuck then s
    else
      let fc := s.forecastValues
      let seq := (s.fld (P.disp 4) F.DISP_FC_SEQ_value + 1) % 65536
      let s1 := ({ s with thm := { s.thm with fc }, power := { s.power with sum10 := 0, n10 := 0 } }.setFld (P.disp 4) F.DISP_FC_SEQ_value seq).event (P.disp 4) 0
      if s1.mgt.evSub = 0 then s1 else s1.emit (.forecast s1.mgt.evSub (s1.forecastRecord seq fc))

end Sys2Proof.Machine
end

