-- ==== Sys2Proof/Machine/Mgmt.lean ====
section
/-! DEFINITION. Management (17): the envelope of a Finrum Management Command with its kept responses (R396, R399), the unsigned commands (R397), signed commands (R398, R126, R344, R404), debug unlock (R414), fuse writes, MCTP control and addresses (R394). -/
namespace Sys2Proof.Machine

/-! The envelope. -/

/-- Management answers: VDD_AO and VAO_IO are up. -/
def State.mgtUp (s : State) : Bool := s.aoUp && !bitOf s.power.rails 5

/-- What a command answers (status and data) and what it then does. -/
structure FmcAns where
  status : Nat
  data : List Nat
  act : State → State

/-- A status alone. -/
def FmcAns.only (n : Nat) : FmcAns := ⟨n, [], id⟩

/-- Send a response and keep it with its request (R399): the last 16 of the source, none for request ID 0. -/
def State.fmcSend (s : State) (f : Fmc) (cmd : Nat) (body : List Nat) (a : FmcAns) : State :=
  let k := (srcKey f.src)
  let id := f.id.toNat
  let s1 := s.emit (.fmc k cmd id a.status a.data)
  if cmd < 3 ∨ id = 0 then s1
  else { s1 with mgt := { s1.mgt with kept := Tab.set kept0 s1.mgt.kept k ((⟨id, cmd, body, a.status, a.data⟩ :: Tab.get kept0 s1.mgt.kept k).take 16) } }

/-- The kept pair with the ID of a request. -/
def State.fmcKept (s : State) (f : Fmc) (cmd : Nat) : Option FmcKept :=
  if cmd < 3 ∨ f.id.toNat = 0 then none else (Tab.get kept0 s.mgt.kept (srcKey f.src)).find? fun e => e.id == f.id.toNat

/-- A command: a request with a kept ID is answered from the cache, or is INVALID with another body; a message that finds the MGT compartments full is answered BUSY; else it runs. -/
def State.fmcRun (s : State) (f : Fmc) (cmd : Nat) (body : List Nat) (k : State → FmcAns) : State :=
  if !s.mgtUp then s
  else match s.fmcKept f cmd with
    | some e =>
      if e.cmd = cmd ∧ e.body = body then (s.satFld P.mgt F.MGT_CNT_cached 1).emit (.fmc (srcKey f.src) cmd e.id e.status e.data)
      else s.emit (.fmc (srcKey f.src) cmd e.id 2 [])
    | none =>
      if f.src.full then s.fmcSend f cmd body (FmcAns.only 1)
      else let a := k s; a.act (s.fmcSend f cmd body a)

def State.setNonce (s : State) (k : Nat) (v : Option (List Byte)) : State := { s with mgt := { s.mgt with nonces := Tab.set nonce0 s.mgt.nonces k v } }
def State.setDbgNonce (s : State) (k : Nat) (v : Option (List Byte)) : State := { s with mgt := { s.mgt with dbgNonces := Tab.set nonce0 s.mgt.dbgNonces k v } }

/-- A random nonce: bytes the spec leaves open. -/
def State.freshNonce (s : State) : List Byte := (List.range 48).map fun i => Config.freeByte s.fresh i

/-- A SECURITY record (R411). -/
def State.secRecord (s : State) (sev : Nat) (payload : List Nat) : State := s.trailPut 0x09 0x09 sev payload

/-- An authentication failure is counted on the MGT page (R416). -/
def State.authFail (s : State) (code : Nat) : State := ((s.countErr P.mgt code 0x88 0).satFld P.mgt F.MGT_CNT_auth_fail 1).event P.mgt 1

/-! Commands without a signature (R397). -/

/-- GET_NONCE. -/
def execGetNonce (f : Fmc) (s : State) : Host.Outcome State Fault Refusal :=
  .next <| s.fmcRun f 0x01 [] fun s =>
    let n := s.freshNonce
    ⟨0, n.map (·.toNat), fun s => (s.setNonce (srcKey f.src) (some n)).tick⟩

/-- NONCE_EXPIRY: 60 s have passed. -/
def execNonceExpiry (src : MctpSrc) (s : State) : Host.Outcome State Fault Refusal := .next (s.setNonce (srcKey src) none)

/-- TRAIL_READ: raw slots, up to 32, none past the last slot. -/
def execTrailRead (f : Fmc) (slot : Fin 4096) (n : Fin 64) (s : State) : Host.Outcome State Fault Refusal :=
  .next <| s.fmcRun f 0x04 [slot, n] fun s =>
    ⟨0, (List.range (min (min n.val 32) (4096 - slot.val))).flatMap fun i => s.trailRaw (slot + i), id⟩

/-- DEV_RESET: STATE in cooling shutdown, and where no warm reset runs. -/
def execDevReset (f : Fmc) (s : State) : Host.Outcome State Fault Refusal :=
  .next <| s.fmcRun f 0x05 [] fun s => if s.inShutdown || s.stuck then FmcAns.only 6 else ⟨0, [], State.warmReset⟩

/-- The shutdown ends: steps 2 to 12 run, once the supplies that the board may have removed are back (16 R389; 15 R367). -/
def State.leaveShutdown (s : State) : State :=
  if s.power.rails % 16 = 0 then s.rerun else s.setFlag (P.thm 0) F.THM_STS_shutdown false

/-- RESTART: leaves a completed cooling shutdown by steps 2 to 12 (R389). -/
def execRestart (f : Fmc) (s : State) : Host.Outcome State Fault Refusal :=
  .next <| s.fmcRun f 0x06 [] fun s => if s.inShutdown && s.hubOff && !s.stuck then ⟨0, [], State.leaveShutdown⟩ else FmcAns.only 6

/-- EVENT_SUB. -/
def execEventSub (f : Fmc) (eid : Fin 256) (s : State) : Host.Outcome State Fault Refusal :=
  .next <| s.fmcRun f 0x07 [eid] fun _ => ⟨0, [], fun s => { s with mgt := { s.mgt with evSub := eid } }⟩

/-! Signed commands (R398). -/

/-- What a request's signature covers (R398): the header (version, command, two reserved bytes, request ID), the body a byte a field (log entry 11), nonce, slot and key. -/
def signedMsg (f : Fmc) (cmd : Nat) (body : List Nat) (g : Signed) : List Byte :=
  leBytes 1 1 ++ leBytes 1 cmd ++ leBytes 2 0 ++ leBytes 4 f.id.toNat ++ body.flatMap (leBytes 1) ++ g.nonce ++ leBytes 1 g.slot ++ g.key

/-- The trailer as part of a request's body. -/
def signedWords (g : Signed) : List Nat := g.slot.val :: (g.nonce ++ g.key ++ g.sig).map (·.toNat)

/-- Check 3 of R79 for a key slot. -/
def State.keyGood (s : State) (slot : Nat) (key : List Byte) : Bool :=
  decide (Config.sha384 key = Tab.get Config.fusedKey s.board.keys slot) && !bitOf s.board.revoked slot

/-- The order of R398: a running fuse write, the nonce, the key, the signature, which consumes the nonce; then the command. -/
def State.signed (s : State) (src : MctpSrc) (msg : List Byte) (g : Signed) (k : State → FmcAns) : FmcAns :=
  if s.board.fuseWrite.isSome then FmcAns.only 1
  else if Tab.get nonce0 s.mgt.nonces (srcKey src) ≠ some g.nonce then ⟨5, [], fun s => s.authFail 0x41⟩
  else if !s.keyGood g.slot g.key then ⟨4, [], fun s => s.authFail 0x40⟩
  else if !Config.ecdsaP384 g.key (Config.sha384 msg) g.sig then ⟨4, [], fun s => (s.setNonce (srcKey src) none).authFail 0x40⟩
  else
    let a := k s
    if a.status = 0 then ⟨0, a.data, fun s => (a.act (s.setNonce (srcKey src) none)).event P.mgt 0⟩
    else ⟨a.status, a.data, fun s => s.setNonce (srcKey src) none⟩

def State.fmcSigned (s : State) (f : Fmc) (cmd : Nat) (body : List Nat) (g : Signed) (k : State → FmcAns) : State :=
  s.fmcRun f cmd (body ++ signedWords g) fun s => s.signed f.src (signedMsg f cmd body g) g k

/-- Vectors of the owner that blocks route to (03 R68). -/
def State.routedVec (s : State) (v : Nat) : Bool :=
  (List.range 64).any fun k => s.flag (P.hub 1) (F.HUB_INT_ROUTE_to_owner k) && s.fld (P.hub 1) (F.HUB_INT_ROUTE_vector k) == v

/-- Ownership moves to port p (06 R126): the accesses accepted from the old owner complete first, its aperture writes and a FREE that runs (R151); then pending routed interrupts go with it. -/
def State.ownerMove (s : State) (p : Nat) : State :=
  let o := s.owner
  let s := (s.landClient o).clearDone
  let vs := (List.range 32).filter fun v => s.routedVec v && bitOf (s.fn o).pba v
  let s1 := s.each vs fun v s => s.setFn o { s.fn o with pba := putBit (s.fn o).pba v false }
  let s2 := s1.each vs fun v s => s.setFn p { s.fn p with pba := putBit (s.fn p).pba v true }
  ((s2.setFld (P.hub 0) F.HUB_OWNER_owner_port p).satFld (P.hub 0) F.HUB_OWNER_transfers 1).secRecord 0 [0, p]

/-- OWNER_TRANSFER: to the current owner it changes nothing (R415). -/
def execOwnerTransfer (f : Fmc) (g : Signed) (port : Nat) (s : State) : Host.Outcome State Fault Refusal :=
  .next <| s.fmcSigned f 0x10 [port] g fun s =>
    if 4 ≤ port then FmcAns.only 2
    else if port = s.owner then FmcAns.only 0
    else ⟨0, [], fun s => s.ownerMove port⟩

/-- A substitution is in the field map and waits for its cluster's reset (14 R344). -/
def State.substitute (s : State) (fact : FieldFact) : State :=
  if s.boot.facts.any (·.same fact) then s
  else { s with subs := s.subs ++ [fact] }.addFact fact

/-- FIELD_SUBST: REFUSED where the field map is full. -/
def execFieldSubst (f : Fmc) (g : Signed) (tile cluster p : Nat) (s : State) : Host.Outcome State Fault Refusal :=
  .next <| s.fmcSigned f 0x11 [tile, cluster, p] g fun s =>
    if 8 ≤ tile ∨ 8 ≤ cluster ∨ 8 ≤ p then FmcAns.only 2
    else if 1024 ≤ s.fieldMap.length then FmcAns.only 7
    else ⟨0, [], fun s => s.substitute ⟨tile, 0, cluster, p, 1⟩⟩

/-- The field-map region is erased. -/
def State.mapErase (s : State) : State :=
  ({ s with trail := { s.trail with slots := Tab.clear s.trail.slots 0 1024 } }.setFld P.trl F.TRL_STS_fmap_cnt 0).secRecord 0 [3]

/-- FIELD_MAP_CLEAR: the mapping in force stays until the next device warm reset. -/
def execFieldMapClear (f : Fmc) (g : Signed) (s : State) : Host.Outcome State Fault Refusal :=
  .next <| s.fmcSigned f 0x12 [] g fun _ => ⟨0, [], State.mapErase⟩

/-- A fuse write starts (R404). -/
def State.fuseStart (s : State) (kind v : Nat) : State := { s with board := { s.board with fuseWrite := some (kind, v) } }

/-- SVN_COMMIT: up to the security version of the running stage-1 image, at most 64 fuses. -/
def execSvnCommit (f : Fmc) (g : Signed) (s : State) : Host.Outcome State Fault Refusal :=
  .next <| s.fmcSigned f 0x13 [] g fun s =>
    match s.boot.stage1 with
    | none => FmcAns.only 6
    | some a => ⟨0, [], fun s => s.fuseStart 1 (max s.board.svn (min 64 a.secVersion))⟩

/-- A slot that must not be revoked: of a running image, or the last one. -/
def State.keyNeeded (s : State) (k : Nat) : Bool :=
  (match s.boot.stage1 with | some a => a.keySlot == k | none => false) || (match s.boot.payload with | some a => a.keySlot == k | none => false) ||
  (List.range 4).all fun j => j == k || bitOf s.board.revoked j

/-- KEY_REVOKE. -/
def execKeyRevoke (f : Fmc) (g : Signed) (slot : Nat) (s : State) : Host.Outcome State Fault Refusal :=
  .next <| s.fmcSigned f 0x14 [slot] g fun s =>
    if 4 ≤ slot then FmcAns.only 2
    else if s.keyNeeded slot then FmcAns.only 7
    else ⟨0, [], fun s => s.fuseStart 2 slot⟩

/-- FUSE_WRITE_DONE: the fuses are blown, with a Trail record. -/
def execFuseWriteDone (s : State) : Host.Outcome State Fault Refusal :=
  .next (match s.board.fuseWrite with
    | none => s
    | some (1, v) => { s with board := { s.board with fuseWrite := none, svn := v } }.secRecord 0 [1, v]
    | some (_, k) => { s with board := { s.board with fuseWrite := none, revoked := putBit s.board.revoked k true } }.secRecord 0 [2, k])

/-! Debug (R414). -/

/-- The device ID. -/
def deviceIdBytes : List Byte := (List.range 16).map Config.deviceId

/-- DEBUG_CHALLENGE: a nonce and the device ID. -/
def execDebugChallenge (f : Fmc) (s : State) : Host.Outcome State Fault Refusal :=
  .next <| s.fmcRun f 0x15 [] fun s =>
    let n := s.freshNonce
    ⟨0, n.map (·.toNat) ++ deviceIdBytes.map (·.toNat), fun s => (s.setDbgNonce (srcKey f.src) (some n)).tick⟩

/-- Scopes open (R414). -/
def State.unlockScopes (s : State) (scope : Nat) : State :=
  ((s.setFld P.mgt F.MGT_SEC_unlocked (s.fld P.mgt F.MGT_SEC_unlocked ||| scope % 8)).event P.mgt 2).secRecord 1 [4, scope % 8]

/-- An unlock is out of place: a tenant is ENABLED or an IDE stream Secure. -/
def State.unlockBarred (s : State) : Bool := ((List.range 128).any fun n => s.tnState n == 2) || s.mgt.ide.any fun e => e.2 == 2

/-- What the signature of an unlock token covers: device ID, nonce, scope word. -/
def tokenMsg (k : DebugToken) : List Byte := k.device ++ k.nonce ++ leBytes 4 k.scope.toNat

/-- A token of this device whose key has the fused debug key hash. -/
def State.tokenKey (s : State) (k : DebugToken) : Bool :=
  decide (k.device = deviceIdBytes) && decide (Config.sha384 k.key = Tab.get Config.fusedKey s.board.keys 4)

/-- DEBUG_UNLOCK. The key that made the signature comes with the token (DEDUCED, log entry 11: the device holds its hash alone). -/
def execDebugUnlock (f : Fmc) (device nonce : List Byte) (scope : Word) (key sig : List Byte) (s : State) : Host.Outcome State Fault Refusal :=
  let k : DebugToken := ⟨device, nonce, scope, key, sig⟩
  .next <| s.fmcRun f 0x16 (k.scope.toNat :: (k.device ++ k.nonce ++ k.key ++ k.sig).map (·.toNat)) fun s =>
    if s.unlockBarred then FmcAns.only 6
    else if Tab.get nonce0 s.mgt.dbgNonces (srcKey f.src) ≠ some k.nonce then ⟨5, [], fun s => s.authFail 0x41⟩
    else if !s.tokenKey k then ⟨4, [], fun s => s.authFail 0x40⟩
    else if !Config.ecdsaP384 k.key (Config.sha384 (tokenMsg k)) k.sig then ⟨4, [], fun s => (s.setDbgNonce (srcKey f.src) none).authFail 0x40⟩
    else ⟨0, [], fun s => (s.setDbgNonce (srcKey f.src) none).unlockScopes k.scope.toNat⟩

/-! MCTP and bus addresses (R394, R395; PRESUMED DSP0236, log entry 11). -/

/-- MCTP_CONTROL: Set Endpoint ID (0 and 255 are no EIDs), Get Endpoint ID, and queries. -/
def execMctpControl (src : MctpSrc) (op : MctpOp) (s : State) : Host.Outcome State Fault Refusal :=
  .next <|
    if !s.mgtUp then s
    else
      let fl := if src.smb then F.MGT_STS_eid_smb else F.MGT_STS_eid_i3c
      match op with
      | .setEid e =>
        if e.val = 0 ∨ e.val = 255 then s.emit (.mctp (srcKey src) [2])
        else (s.setFld P.mgt fl e).emit (.mctp (srcKey src) [0, e])
      | .getEid => s.emit (.mctp (srcKey src) [0, s.fld P.mgt fl])
      | .query => s.emit (.mctp (srcKey src) [0])

/-- The address that the MGT_ADDR straps give: the static address on I3C, and the address on SMBus, which has no ARP (R394). -/
def State.busAddr (s : State) : Nat := 0x4C + s.board.mgtAddr

/-- I3C_ADDRESS_ASSIGN: ENTDAA, or SETDASA from the device's static address. -/
def execI3cAddressAssign (a : I3cAssign) (s : State) : Host.Outcome State Fault Refusal :=
  .next <|
    let mine := match a.static with | some b => b.toNat == s.busAddr | none => true
    if s.mgtUp && mine then s.setFld P.mgt F.MGT_STS_i3c_da a.da.toNat else s

end Sys2Proof.Machine
end

