-- ==== Sys2Proof/Machine/Security.lean ====
section
/-! DEFINITION. PLDM monitoring and firmware update (17 R399, R400, R402), the management push (R403), SPDM and IDE (R405-R408), the TAP (R413). -/
namespace Sys2Proof.Machine

/-! PLDM. -/

/-- A PLDM answer: completion code, data, and what the request then does. -/
structure PldmAns where
  code : Nat
  data : List Nat
  act : State → State

/-- A request: one that repeats the source's last Instance ID and content gets the previous response (R399); one that finds the MGT compartments full answers ERROR_NOT_READY (R395). -/
def State.pldmRun (s : State) (src : MctpSrc) (inst : Nat) (body : List Nat) (k : State → PldmAns) : State :=
  if !s.mgtUp then s
  else
    let fresh : State :=
      let a := k s
      let s1 := { s with mgt := { s.mgt with pldm := Tab.set pldm0 s.mgt.pldm (srcKey src) (some ⟨inst, body, a.code, a.data⟩) } }
      a.act (s1.emit (.pldm (srcKey src) a.code a.data))
    if src.full then s.emit (.pldm (srcKey src) 4 [])
    else match Tab.get pldm0 s.mgt.pldm (srcKey src) with
    | some e => if e.inst = inst ∧ e.body = body then s.emit (.pldm (srcKey src) e.code e.data) else fresh
    | none => fresh

/-- State 0 normal, 1 throttling, 2 hot, 3 floor, 4 shutdown, 5 tripped. -/
def State.thermalState (s : State) : Nat :=
  let any (st : Nat) : Bool := (List.range 8).any fun t => s.thmState t == st
  if s.thm.tripped then 5 else if s.inShutdown then 4 else if s.flag (P.thm 0) F.THM_STS_floor then 3
  else if any 2 then 2 else if any 1 then 1 else 0

/-- The reading of PLDM sensor `id` (R400): none for no such sensor, some none where it is unavailable. -/
def State.pldmSensor (s : State) (id : Nat) : Option (Option Int) :=
  let tile (o : Option Int) (t : Nat) : Option Int := if s.fenced t then none else o
  let n (v : Nat) : Option (Option Int) := some (some (v : Int))
  if id = 1 then some s.devMax
  else if id = 2 then some s.margin
  else if id = 3 then n (s.pAvg / 1000)
  else if id = 4 then n (s.pSust / 1000)
  else if 5 ≤ id ∧ id ≤ 12 then n (s.thm.fc.getD (id - 3) 0)
  else if id = 13 then n (s.thm.fc.getD 1 0)
  else if id = 14 ∨ id = 15 then
    some (if s.flag (P.thm 1) (F.THM_EXT_broken (id - 14)) then none else some (sgn 12 (s.fld (P.thm 1) (F.THM_EXT_temp (id - 14)))))
  else if 16 ≤ id ∧ id ≤ 23 then some (tile (maxOf (s.logicOf (id - 16))) (id - 16))
  else if 24 ≤ id ∧ id ≤ 31 then some (tile (maxOf (s.dramOf (id - 24))) (id - 24))
  else if 32 ≤ id ∧ id ≤ 39 then some (tile (some (s.fld (P.pwrT (id - 32)) F.PWR_T_STS_opp : Nat)) (id - 32))
  else if id = 40 then n s.thermalState
  else none

/-- The thresholds of a PDR: upperWarning, upperCritical, upperFatal in 0.25 °C for a temperature sensor. -/
def State.pdr (s : State) (id : Nat) : List Nat :=
  let t := (s.fld (P.thm 0) F.THM_CFG_t_throttle) * 4
  if id = 1 ∨ (16 ≤ id ∧ id ≤ 23) then [id, t, 4 * s.fld (P.thm 0) F.THM_CFG_t_hot, 4 * s.fld (P.thm 0) F.THM_CFG_trip_logic]
  else if 24 ≤ id ∧ id ≤ 31 then [id, t, 4 * s.fld (P.thm 0) F.THM_CFG_t_hot, 4 * s.fld (P.thm 0) F.THM_CFG_trip_dram]
  else [id]

/-- PLDM_MONITOR_REQUEST; an unknown sensor or record has the completion code of DSP0248 (PRESUMED, log entry 11). -/
def execPldmMonitorRequest (src : MctpSrc) (inst : Nat) (op : PldmOp) (s : State) : Host.Outcome State Fault Refusal :=
  .next (match op with
    | .readSensor id => s.pldmRun src inst [2, 0x11, id] fun s =>
        match s.pldmSensor id with
        | none => ⟨0x80, [], fun s => s⟩
        | some none => ⟨0, [2, 0], fun s => s⟩
        | some (some v) => ⟨0, [0, unsgn 16 v], fun s => s⟩
    | .getPdr id => s.pldmRun src inst [2, 0x51, id] fun s => if 1 ≤ id ∧ id ≤ 40 then ⟨0, s.pdr id, fun s => s⟩ else ⟨0x82, [], fun s => s⟩)

/-! Firmware update (R402). -/

/-- The flash slot that was not accepted at boot. -/
def State.spareSlot (s : State) : Nat := 1 - s.fld P.boot F.BOOT_STS_slot

def State.setUpdate (s : State) (u : Option Update) : State := { s with mgt := { s.mgt with update := u } }

/-- The update in progress, or a new one. -/
def State.updateNow (s : State) : Update := s.mgt.update.getD ⟨0, [], none, none⟩

/-- The device may update its flash. -/
def State.canUpdate (s : State) : Bool := s.board.bootSrc != 1 && s.mgt.flash

/-- A component starts from its first chunk; a verdict on an earlier copy of it is gone. -/
def State.updateStart (s : State) (comp : Nat) : State :=
  let u := s.updateNow
  (s.setUpdate (some ⟨comp, [], if comp = 1 then none else u.v1, if comp = 2 then none else u.v2⟩)).emit (.flashRequest comp 0)

/-- PLDM_UPDATE_COMPONENT: data 0 will be updated, 1 will not. -/
def execPldmUpdateComponent (src : MctpSrc) (inst comp : Nat) (s : State) : Host.Outcome State Fault Refusal :=
  .next <| s.pldmRun src inst [5, 0x14, comp] fun s =>
    if !s.ready then ⟨4, [], fun s => s⟩
    else if !s.canUpdate || (comp != 1 && comp != 2) then ⟨0, [1], fun s => s⟩
    else ⟨0, [0], fun s => s.updateStart comp⟩

/-- PLDM_FIRMWARE_DATA: the chunk goes to the slot not accepted at boot; a full chunk is followed by the next request. -/
def execPldmFirmwareData (data : List Byte) (s : State) : Host.Outcome State Fault Refusal :=
  .next (match s.mgt.update with
    | none => s
    | some u =>
      if !s.mgtUp || !s.ready || u.comp = 0 then s
      else
        let got := u.data ++ data.take 4096
        let s1 := (s.emit (.flashWrite s.spareSlot u.comp u.data.length (data.take 4096))).setUpdate (some { u with data := got })
        if data.length < 4096 then s1 else s1.emit (.flashRequest u.comp got.length))

/-- PLDM_VERIFY_COMPLETE: the component written passes or fails checks 1 to 6 of R79, taken over its bytes as the flash gives them back: those written, unless it failed; the result is 0 or 1. -/
def execPldmVerifyComplete (back : Option (List Byte)) (s : State) : Host.Outcome State Fault Refusal :=
  .next (match s.mgt.update with
    | none => s
    | some u =>
      if !s.mgtUp || !s.ready || u.comp = 0 then s
      else
        let img := Image.parse (back.getD u.data)
        let ok := (img.refusal u.comp (s.fld P.boot F.BOOT_STRAP_pkg_build) s.board.revoked s.board.svn s.board.keys fun i =>
          match img.sections[i]? with | some x => img.body x | none => []).isNone
        let v := if ok then some img.fwVersion else none
        (s.setUpdate (some ⟨0, [], if u.comp = 1 then v else u.v1, if u.comp = 2 then v else u.v2⟩)).emit (.pldm 0 0 [u.comp, b2n (!ok)]))

/-- Both components are verified, of one major.minor. -/
def Update.complete (u : Update) : Bool :=
  match u.v1, u.v2 with
  | some a, some b => a / 65536 == b / 65536
  | _, _ => false

/-- The boot directory is rewritten with the new preferred slot. -/
def State.activate (s : State) : State := ((s.setUpdate none).emit (.flashDir s.spareSlot)).secRecord 0 [6, s.spareSlot]

/-- PLDM_ACTIVATE_FIRMWARE; without two verified components of one version it is refused (code of DSP0267, PRESUMED, log entry 11). -/
def execPldmActivateFirmware (src : MctpSrc) (inst : Nat) (s : State) : Host.Outcome State Fault Refusal :=
  .next <| s.pldmRun src inst [5, 0x1A] fun s =>
    if !s.ready then ⟨4, [], fun s => s⟩
    else match s.mgt.update with
      | none => ⟨0x80, [], fun s => s⟩
      | some u => if u.complete then ⟨0, [], State.activate⟩ else ⟨0x85, [], fun s => s⟩

/-- MANAGEMENT_PUSH (R403): it starts while the ROM waits and no owner push runs, else it is refused (R415); it ends with the medium read. -/
def execManagementPush (m : Option Medium) (s : State) : Host.Outcome State Fault Refusal :=
  .next <|
    if !s.mgtUp || s.hubDead then s
    else match m with
      | none =>
        if s.flag P.boot F.BOOT_STS_wait_push && !s.flag P.boot F.BOOT_PUSH_CTL_go && !s.flag P.boot F.BOOT_PUSH_CTL_busy then
          (s.setFlag P.boot F.BOOT_STS_wait_push false).setFlag P.boot F.BOOT_PUSH_CTL_busy true
        else s.emit .pushBusy
      | some md => if s.flag P.boot F.BOOT_PUSH_CTL_busy then s.pushDone md 2 else s

/-! SPDM (R405, R406). -/

/-- The number of a responder: a port's DOE, or 4 for MCTP. -/
def respNo (r : Responder) : Nat := match r with | .doe p => p.val | .mctp _ => 4

/-- A responder can be reached: MCTP from always-on logic, DOE over a live link whose configuration space answers. -/
def State.respUp (s : State) (r : Responder) : Bool :=
  match r with
  | .mctp _ => s.mgtUp
  | .doe p => s.linkUp p && !s.hubDead && (s.port p).cfgReady

/-- A request to a responder that does not answer: over DOE, whose mailbox is in configuration space, it completes with Completer Abort once a clock of the hub is lost (01 R24). -/
def State.respDown (s : State) (r : Responder) : State :=
  match r with
  | .doe p => if s.linkUp p && s.devFailed then s.emit (.configAbort p) else s
  | .mctp _ => s

/-- The message found the MGT compartments full. -/
def respFull (r : Responder) : Bool := match r with | .doe _ => false | .mctp f => f

def State.sessions (s : State) (k : Nat) : Nat := Tab.get nat0 s.mgt.sessions k

/-- MGT_STS.sessions counts those over MCTP. -/
def State.setSessions (s : State) (k n : Nat) : State :=
  let s1 := { s with mgt := { s.mgt with sessions := Tab.set nat0 s.mgt.sessions k n } }
  if k = 4 then s1.setFld P.mgt F.MGT_STS_sessions n else s1

/-- The digest of an accepted image, or of none. -/
def digestOf (a : Option Accepted) : List Byte := match a with | some m => m.digest | none => List.replicate 48 0

/-- What measurement i answers on responder k (R406). Digests are SHA-384 of what the rule names: the images' bytes, the published itinerary, the partition plan section, the field-map records (log entry 11); the hub ROM's is a constant of the part. -/
def State.measure (s : State) (k i : Nat) : List Nat :=
  let bytes (l : List Byte) : List Nat := l.map (·.toNat)
  match i with
  | 1 => (List.range 12).map (Config.measurement 1)
  | 2 => bytes (digestOf s.boot.stage1)
  | 3 => bytes (digestOf s.boot.payload)
  | 4 =>
    let a := s.fld P.boot F.BOOT_ITIN_value
    if s.fld P.boot F.BOOT_ITIN_GEN_value = 0 then List.replicate 48 0
    else bytes (Config.sha384 (s.hmp.rdN a (Itinerary.size (s.hmp.rdN a 0x40))))
  | 5 => [s.fld P.boot F.BOOT_REV_variant, s.board.svn, s.board.revoked]
  | 6 => match s.boot.plan with | some l => bytes (Config.sha384 l) | none => List.replicate 48 0
  | 7 => bytes s.boot.mapDigest
  | 8 => [s.fld P.mgt F.MGT_SEC_jtag_lock, s.fld P.mgt F.MGT_SEC_unlocked]
  | _ =>
    if k < 4 then [b2n (s.owner == k), s.fld (P.hpt k) F.HPT_CTL_cxl_en] ++ (List.range 5).map fun j => b2n (s.ideState k j == 2)
    else []

/-- The certificate chain of slot 0 (R405). -/
def State.certs (s : State) : List Byte := Config.certChain (digestOf s.boot.stage1)

/-- An answer that the responder signs. -/
def signedAns (l : List Nat) : List Nat := l ++ (Config.spdmSign l).map (·.toNat)

/-- Capability flags of the profile (R405; the bits are those of DSP0274, PRESUMED, log entry 11): CERT, CHAL, MEAS with signature, ENCRYPT, MAC, KEY_EX, HBEAT. -/
def spdmCaps : Nat := 2 + 4 + 16 + 64 + 128 + 512 + 8192

/-- SPDM_REQUEST (R405, R406): Busy before the end of step 4, or where MGT is full; codes of DSP0274 (PRESUMED, log entry 11). -/
def execSpdmRequest (r : Responder) (op : SpdmOp) (s : State) : Host.Outcome State Fault Refusal :=
  .next <|
    let k := respNo r
    let n := s.sessions k
    let ans (l : List Nat) : State := s.emit (.spdm k true l)
    let err (c : Nat) : State := s.emit (.spdm k false [c])
    if !s.respUp r then s.respDown r
    else if s.stage < 5 || respFull r then err 3
    else match op with
      | .version => ans [0x13]
      | .capabilities => ans [spdmCaps]
      | .algorithms => ans [0x80, 2, 0x10, 2, 1]
      | .digests => ans ((Config.sha384 s.certs).map (·.toNat))
      | .certificate slot => if slot.val = 0 then ans (s.certs.map (·.toNat)) else err 1
      | .challenge slot => if slot.val = 0 then ans (signedAns ((Config.sha384 s.certs).map (·.toNat))) else err 1
      | .keyExchange => if n < 4 then (s.setSessions k (n + 1)).emit (.spdm k true [n + 1]) else err 0x0A
      | .heartbeat => if n = 0 then err 4 else ans []
      | .endSession => if n = 0 then err 4 else (s.setSessions k (n - 1)).emit (.spdm k true [n - 1])
      | .measure i =>
        if i.val = 0 then ans [9]
        else if 9 < i.val then err 1
        else ans (signedAns (s.measure k i))
      | .pskExchange | .setCertificate => err 7

/-! IDE (R407, R408). -/

def State.setIde (s : State) (port i v : Nat) : State := { s with mgt := { s.mgt with ide := Tab.set nat0 s.mgt.ide (5 * port + i) v } }

/-- IDE_KM_REQUEST: over a session of the port's DOE, in flit mode. Stopping a stream leaves its keys programmed (DESIGN CHOICE, log entry 12). -/
def execIdeKmRequest (port : Fin 4) (stream : Fin 5) (op : IdeOp) (s : State) : Host.Outcome State Fault Refusal :=
  .next <|
    let v := s.ideState port stream
    let ok := s.sessions port != 0 && s.flag (P.hpt port) F.HPT_LINK_STS_flit
    let dst : Option Nat := match op with
      | .keyProg => if v = 2 then none else some 1
      | .setGo => if v = 0 then none else some 2
      | .setStop => if v = 2 then some 1 else none
    if !s.respUp (.doe port) then s.respDown (.doe port)
    else match dst, ok with
      | some w, true => (s.setIde port stream w).emit (.ideKm port stream true)
      | _, _ => s.emit (.ideKm port stream false)

/-- IDE_INSECURE: a stream that was Secure; its port loses its keys and its link. -/
def execIdeInsecure (port : Fin 4) (stream : Fin 5) (s : State) : Host.Outcome State Fault Refusal :=
  .next <|
    if s.ideState port stream ≠ 2 then s
    else
      let s1 := (s.secRecord 2 [5, port, stream]).event P.mgt 3
      { s1 with mgt := { s1.mgt with ide := Tab.clear s1.mgt.ide (5 * port.val) 5 } }.portDown port

/-! The TAP (R413, 18 R426). -/

/-- An EXTEST instruction. -/
def isExtest (i : TapInstr) : Bool := i == .extest || i == .extestPulse || i == .extestTrain

/-- The instruction the TAP selects for a request: one that needs a scope that is not unlocked selects BYPASS. -/
def State.tapPick (s : State) (i : TapInstr) : TapInstr :=
  match i with
  | .other k => if bitOf (s.fld P.mgt F.MGT_SEC_unlocked) k then i else .bypass
  | _ => i

/-- The TAP holds instruction i: EXTEST takes every host link down and holds all logic but the always-on in reset; leaving it lets a device warm reset follow. -/
def State.tapSet (s : State) (i : TapInstr) : State :=
  let s1 := { s with mgt := { s.mgt with tap := i } }
  if isExtest i then
    let s2 := if s.mgt.extest then s1 else (s1.each (List.range 4) fun p s => s.portDown p).dark
    { s2 with mgt := { s2.mgt with extest := true } }
  else { s1 with mgt := { s1.mgt with extest := false } }

/-- TAP_INSTRUCTION. -/
def execTapInstruction (i : TapInstr) (s : State) : Host.Outcome State Fault Refusal :=
  .next (if s.mgtUp then s.tapSet (s.tapPick i) else s)

/-- TAP_RESET: TRST_N selects IDCODE. -/
def execTapReset (s : State) : Host.Outcome State Fault Refusal := .next (s.tapSet .idcode)

end Sys2Proof.Machine
end

