-- ==== Sys2Proof/Machine/RegView.lean ====
section
/-! DEFINITION. Register reads (03 R50-R53, R56-R64, R69): the common header of a page, the fields whose value follows other state, snapshots of 64-bit counters, and the read of a dword and of a request. -/
namespace Sys2Proof.Machine

/-- The field at `off` and `lo` is `f`. -/
def Fld.at (f : Fld) (off lo : Nat) : Bool := f.off == off && f.lo == lo

/-- A bit map of the numbers below `n` that satisfy `p`. -/
def bitMap (n : Nat) (p : Nat → Bool) : Nat := (List.range n).foldl (fun a i => if p i then a + 2 ^ i else a) 0

/-! The interrupt summary tree (03 R68). A page that does not serve shows no int_pending (R69). -/

/-- The pages that are int_pending. -/
def State.pendingPages (s : State) : List Nat :=
  ((s.regs.filter fun e => e.1 / 32 % 4096 == 0x014).map (·.1 / 131072)).filter fun pg => s.pagePending pg && !s.unavailable pg

/-- HUB_INT_SUM.pend: bit b − 1 for block type b. -/
def State.intSum (s : State) : Nat :=
  let bs := (s.pendingPages.filter fun pg => (pageTenant pg).isNone).filterMap fun pg => (pageInfo pg).map (·.block)
  bitMap 28 fun i => bs.contains (i + 1)

def State.intTile (s : State) : Nat :=
  let ts := s.pendingPages.filterMap pageTile
  bitMap 8 fun t => ts.contains t

/-- The cluster of a page, where it lies in one. -/
def pageClu (pg : Nat) : Option Nat :=
  match pageTile pg with
  | some t =>
    let o := (pg - 0x1000) % 0x800
    if 0x100 ≤ o ∧ o < 0x500 then some (8 * t + (o - 0x100) / 0x80) else none
  | none => none

def State.tileIntClu (s : State) (t : Nat) : Nat :=
  let cs := s.pendingPages.filterMap pageClu
  bitMap 8 fun c => cs.contains (8 * t + c)

/-- A page pends in the summaries. -/
def State.shownPending (s : State) (pg : Nat) : Bool := s.pagePending pg && !s.unavailable pg

/-- Bit 8p + k of the core summary of cluster cl. -/
def State.cluIntCore (s : State) (cl : Nat) : Nat := bitMap 64 fun i => decide (i % 8 < 7) && s.shownPending (P.corePg (8 * cl + i / 8) (i % 8))

/-! Fields that follow other state, by layout. `none` where the field is stored. -/

def State.viewHub (s : State) (i : PageInfo) (off lo : Nat) : Option Nat :=
  let p := i.page - 8
  match i.layout with
  | .hub0 =>
    if F.HUB_BOOT_SUM_boot.at off lo then some (s.bootSts % 2 ^ 20)
    else if F.HUB_OWNER_owner_link_up.at off lo then some (b2n (s.linkUp s.owner)) else none
  | .hub1 => if F.HUB_INT_SUM_pend.at off lo then some s.intSum else if F.HUB_INT_TILE_tile.at off lo then some s.intTile else none
  | .pt =>
    if F.PT_STS_cores_online.at off lo then some (if s.ptState p = 0 then 0 else (s.onlineOf p).length)
    else if F.PT_STS_tenants.at off lo then some (s.tenantsOf p).length
    else if F.PT_MEM_poolcap_mib.at off lo then some ((s.pm p).poolcap / 2 ^ 20)
    else if F.PT_MEM_d_slots.at off lo then some (s.pm p).d
    else if F.PT_SET_n.at off lo then some (s.pm p).set.length
    else if F.PT_SET_fenced.at off lo then some (bitMap 8 fun t => s.fenced t && s.ptOnTile p t)
    else none
  | .boot => if F.BOOT_STS_cores_online.at off lo then some s.verified else none
  | _ => none

def State.viewHmp (s : State) (i : PageInfo) (off lo : Nat) : Option Nat :=
  match i.layout with
  | .hmpMap =>
    let c := s.comp (512 * (i.page - 4) + (off - 0x040) / 4)
    some <| match lo with
      | 0 => c.state
      | 2 => c.use
      | 6 => c.part
      | 9 => c.tn
      | 16 => b2n c.tv
      | 17 => b2n c.bound
      | 18 => b2n c.clearing
      | _ => if c.tv then c.slot else 0
  | _ => none

def State.viewDisp (s : State) (i : PageInfo) (off lo : Nat) : Option Nat :=
  let n := i.inst
  match i.layout with
  | .disp0 =>
    if F.DISP_STS_enabled.at off lo then some ((List.range 128).filter fun n => s.tnState n == 2).length
    else if F.DISP_STS_paused.at off lo then some (if s.flag (P.thm 0) F.THM_STS_floor || s.inShutdown then 255 else s.fld (P.disp 0) F.DISP_STS_paused)
    else none
  | .disp2 =>
    let e := s.res (s.fld (P.disp 2) F.DISP_RES_IDX_index)
    if F.DISP_RES_ENT_model_id.at off lo then some e.model
    else if F.DISP_RES_ENT_tenant.at off lo then some e.tn
    else if F.DISP_RES_ENT_valid.at off lo then some (b2n e.valid)
    else if F.DISP_RES_ENT_copies.at off lo then some (min 255 e.cores.length)
    else none
  | .disp5 =>
    let e := s.et (s.fld (P.disp 5) F.DISP_ET_IDX_index)
    if F.DISP_ET_KEY_model_id.at off lo then some e.model
    else if F.DISP_ET_KEY_tenant.at off lo then some e.tn
    else if F.DISP_ET_KEY_valid.at off lo then some (b2n e.valid)
    else if F.DISP_ET_KEY_n.at off lo then some e.n
    else if F.DISP_ET_VAL_energy.at off lo then some (min 65535 e.energy)
    else if F.DISP_ET_VAL_duration.at off lo then some (min 65535 e.duration)
    else none
  | .tn0 =>
    if F.TN_STS_partition.at off lo then some (if s.tnState n = 0 then 0 else s.tnPart n)
    else if F.TN_STS_port.at off lo then some (if s.tnState n = 0 then 0 else s.tnPort n)
    else if F.TN_CANCEL_RES_busy.at off lo then some (b2n (s.ten n).cancel.isSome)
    else none
  | .queue =>
    let q := i.page - 1
    if F.Q_STS_fence_wait.at off lo then
      some (match s.startHead n q with | some d => b2n (d.kind == 2 && !s.fenceDone n q d) | none => 0)
    else if F.Q_STS_cq_full.at off lo then some (b2n ((s.qState n q == 1 || s.qState n q == 3) && s.cqFull n q))
    else if F.Q_STS_in_flight.at off lo then some (s.queue n q).fetched.length
    else none
  | .tn9 =>
    let p := s.tnPart n
    if off ≠ 0x050 then none
    else if !s.bound n then some 0
    else if F.KPM_TQ_POOL_state.at off lo then some (s.poolState p)
    else if F.KPM_TQ_POOL_head_dim.at off lo then some (s.fld (P.kpm 1) (F.KPM_POOL_CFG_head_dim p))
    else if F.KPM_TQ_POOL_frame_log2.at off lo then some (s.fld (P.kpm 1) (F.KPM_POOL_CFG_frame_log2 p))
    else some (s.fld (P.kpm 1) (F.KPM_POOL_STS_free p))
  | _ => none

def State.viewAux (s : State) (i : PageInfo) (off lo : Nat) : Option Nat :=
  match i.layout with
  | .stp0 => if F.STP_PTP_LO_ns.at off lo then some (s.ptpNow % 2 ^ 32) else if F.STP_PTP_HI_ns.at off lo then some (s.ptpNow / 2 ^ 32) else none
  | .hpc =>
    if F.HPC_STS_companion.at off lo then some (b2n (decide (4 ≤ i.inst)))
    else if F.HPC_STS_state.at off lo then some (if i.inst < 4 then 2 else s.hpcState i.inst)
    else none
  | .mgt =>
    if F.MGT_SEC_svn_min.at off lo then some s.board.svn
    else if F.MGT_SEC_revoked.at off lo then some s.board.revoked else none
  | .thm0 =>
    if F.THM_STS_throttled.at off lo then some (bitMap 8 fun t => s.thmState t == 1 || s.thmState t == 2)
    else if F.THM_STS_floor_ms.at off lo then
      some (match s.thm.floorAt with | some t => min 4095 ((s.now - t) / 1000000) | none => 0)
    else none
  | .thm1 => if F.THM_COOL_CFG_pin_ok.at off lo then some (b2n s.thm.pinLow) else none
  | .pwrTile =>
    if F.PWR_T_STS_target.at off lo then some (s.oppTarget i.inst).1
    else if F.PWR_T_STS_limiter.at off lo then some (s.oppTarget i.inst).2 else none
  | _ => none

def State.viewTile (s : State) (i : PageInfo) (off lo : Nat) : Option Nat :=
  match i.layout with
  | .tile =>
    let t := i.inst
    if F.TILE_INT_SUM_cluster.at off lo then some (s.tileIntClu t)
    else if F.TILE_INT_SUM_tile_pg.at off lo then some (b2n (s.shownPending (P.tile t)))
    else if F.TILE_INT_SUM_thm.at off lo then some (b2n (s.shownPending (P.thmT t)))
    else if F.TILE_INT_SUM_pwr.at off lo then some (b2n (s.shownPending (P.pwrT t)))
    else if F.TILE_INT_SUM_lnk.at off lo then some (bitMap 4 fun d => s.shownPending (P.lnk t d))
    else if F.TILE_INT_SUM_ser.at off lo then some (b2n (s.shownPending (P.serTile t)))
    else none
  | .clu =>
    let cl := i.inst
    if F.CLU_PHYS_slice_ok.at off lo then some (bitMap 8 fun p => s.sliceServes (8 * cl + p))
    else if F.CLU_INT_SUM0_core_pg.at off lo then some (s.cluIntCore cl % 2 ^ 32)
    else if F.CLU_INT_SUM1_core_pg.at off lo then some (s.cluIntCore cl / 2 ^ 32)
    else if F.CLU_INT_SUM2_clu.at off lo then some (b2n (s.shownPending (P.clu cl)))
    else if F.CLU_INT_SUM2_kvw.at off lo then some (b2n (s.shownPending (P.kvw cl)))
    else if F.CLU_INT_SUM2_atu.at off lo then some (b2n (s.shownPending (P.atu cl)))
    else if F.CLU_INT_SUM2_scb.at off lo then some (b2n (s.shownPending (P.scbC cl)))
    else none
  | _ => none

/-- The command at the head of a port queue runs, and is an ATTN or not. -/
def State.atuRuns (s : State) (x : Nat) (attn : Bool) : Bool :=
  match (s.core x).atuq with | o :: _ => o.executed && ((o.kind == 0) == attn) | [] => false

/-- An ATTN waits in the port queue of core x. -/
def State.attnWaits (s : State) (x : Nat) : Nat := ((s.core x).atuq.filter fun o => o.kind == 0 && !o.executed).length

/-- Count of the set bits of a mask. -/
def popCount (m : Dword) : Nat := (threadsOf m).length

def State.viewCore (s : State) (i : PageInfo) (off lo : Nat) : Option Nat :=
  let x := i.inst
  let xs := (List.range 8).map (8 * x + ·)
  let c := s.core x
  match i.layout with
  | .kvw => if F.KVW_STS_active.at off lo then some (xs.filter fun y => s.atuRuns y false).length else none
  | .atu =>
    if F.ATU_STS_busy.at off lo then some (b2n (xs.any fun y => s.atuRuns y true))
    else if F.ATU_STS_core.at off lo then some (((xs.find? fun y => s.atuRuns y true).getD 0) % 8)
    else if F.ATU_STS_waiting.at off lo then some (min 56 (xs.map s.attnWaits).sum)
    else none
  | .core =>
    let live := s.coreSt x == 2 || s.coreSt x == 4
    if F.CORE_STS_lcore.at off lo then some (match s.logicalOf x with | some g => g % 7 | none => 7)
    else if F.CORE_STS_partition.at off lo then some ((s.cluPart (x / 8)).getD 0)
    else if F.CORE_PC_pc.at off lo then some (if live then c.pc else 0)
    else if F.CORE_PC_valid.at off lo then some (b2n live)
    else if F.CORE_TOK_busy.at off lo then some (bitMap 16 fun t => c.getT t != 0)
    else if F.CORE_TOK_mxe_q.at off lo then some c.mxeq.length
    else if F.CORE_TOK_mov_q.at off lo then some c.movq.length
    else if F.CORE_TOK_atu_q.at off lo then some c.atuq.length
    else none
  | .mxe =>
    let run := s.enginesRun x && !c.mxeq.isEmpty
    if F.MXE_STS_busy.at off lo then some (b2n run)
    else if F.MXE_STS_class.at off lo then some (match c.mxeq with | o :: _ => if run && o.kind == 0 then mxClass o.fmtA else 0 | [] => 0)
    else none
  | .tgu =>
    if F.TGU_STS_mask_depth.at off lo then some c.stack.length
    else if F.TGU_STS_active_cnt.at off lo then some (popCount c.active)
    else if F.TGU_STS_fpstat.at off lo then some c.fpstat
    else none
  | .mov =>
    if F.MOV_STS_active.at off lo then some c.movAct.length
    else if F.MOV_STS_queued.at off lo then some c.movq.length else none
  | .sto => if F.STO_STS_spare.at off lo then some (b2n (s.isSpare x)) else none
  | _ => none

/-- SLC_STS.role (09): 0 near region of the core above or of another window's own, 1 idle near region, 2 stand-in, 3 in no hash set. -/
def State.sliceRole (s : State) (x : Nat) : Nat :=
  if s.inNoSet x then 3
  else if s.near.any fun e => e.2 == Backing.standin x then 2
  else if (s.windowOf x).isSome then 0 else 1

def State.viewSlice (s : State) (i : PageInfo) (off lo : Nat) : Option Nat :=
  let x := i.inst
  let part := s.cluPart (x / 8)
  let m := s.pm (part.getD 0)
  let member := part.isSome && m.set.contains x
  let near : Option Backing := (s.logicalOf x).map s.backing
  let used (b : Tab Bool) : Nat := (b.filter fun e => e.1 / 32768 == x && e.2).length
  match i.layout with
  | .slc =>
    if F.SLC_STS_band.at off lo then some (s.sliceBand x)
    else if F.SLC_STS_hot.at off lo then some (b2n (s.dramHot (x / 64)))
    else if F.SLC_STS_role.at off lo then some (s.sliceRole x)
    else if F.SLC_SET_partition.at off lo then some (part.getD 0)
    else if F.SLC_SET_in_set.at off lo then some (b2n member)
    else if F.SLC_SET_index.at off lo then some (if member then m.set.idxOf x else 0)
    else if F.SLC_SET_size.at off lo then some (if part.isSome then m.set.length else 0)
    else if F.SLC_SET_near_size.at off lo then some (if part.isSome then m.z / 2 ^ 24 else 0)
    else if F.SLC_NEAR_backing.at off lo then
      some (match near with | some (.standin _) => 1 | some (.slot _) => 2 | some .unbacked => 3 | _ => 0)
    else if F.SLC_NEAR_standin.at off lo then some (match near with | some (.standin y) => y | _ => 0)
    else if F.SLC_NEAR_slot.at off lo then some (match near with | some (.slot k) => k | _ => 0)
    else if F.SLC_NEAR_valid.at off lo then some (b2n near.isSome)
    else if F.SLC_STANDIN_g.at off lo then some (((s.near.find? fun e => e.2 == Backing.standin x).map (·.1)).getD 0)
    else if F.SLC_STANDIN_valid.at off lo then some (b2n (s.near.any fun e => e.2 == Backing.standin x))
    else if F.SLC_GVM_valid_granules.at off lo then some (used s.slices.valid)
    else if F.SLC_GVM_lost_granules.at off lo then some (min 65535 (used s.slices.lost))
    else if F.SLC_DRAM_T_temp.at off lo then
      some (match maxOf (s.dramOf (x / 64)) with | some v => unsgn 8 (v / 4) | none => 0)
    else if F.SLC_DRAM_T_valid.at off lo then some (b2n !(s.dramOf (x / 64)).isEmpty)
    else if F.SLC_DRAM_T_ue_lines.at off lo then some (Tab.get list0 s.ueWin x).length
    else none
  | .scbP => if F.SCB_P_STS_running.at off lo then some (b2n (s.sliceServes x)) else none
  | _ => none

/-- The value of a field whose register follows other state. -/
def State.live (s : State) (i : PageInfo) (off lo : Nat) : Option Nat :=
  match i.layout with
  | .hub0 | .hub1 | .pt | .boot => s.viewHub i off lo
  | .hmpMap => s.viewHmp i off lo
  | .disp0 | .disp2 | .disp5 | .tn0 | .queue | .tn9 => s.viewDisp i off lo
  | .stp0 | .hpc | .mgt | .thm0 | .thm1 | .pwrTile => s.viewAux i off lo
  | .tile | .clu => s.viewTile i off lo
  | .slc | .scbP => s.viewSlice i off lo
  | .kvw | .atu | .core | .mxe | .tgu | .mov | .sto => s.viewCore i off lo
  | _ => none

/-- What a field reads as. -/
def State.fieldVal (s : State) (pg : Nat) (i : PageInfo) (f : Fld) : Nat :=
  match s.live i f.off f.lo with
  | some v => v % 2 ^ f.len
  | none => s.fld pg f

/-! A dword. -/

/-- Access of a row for a requester of a view. -/
def FldRow.acc (r : FldRow) (tenant : Bool) : Acc := if tenant then r.ten else r.priv

/-- A field without read access reads 0 (R58; WO). -/
def Acc.reads : Acc → Bool
  | .none | .wo => false
  | _ => true

/-- The fields of a row that lie in the register at `off`. -/
def FldRow.flds (r : FldRow) (off : Nat) : List Fld := (List.range r.bcnt).map fun u => ⟨off, r.lo + r.bstride * u, r.len⟩

/-- The rows of a layout at an offset. HUB_INT_ROUTE has none for the reserved codes 0x0E and 0x0F. -/
def Layout.at (l : Layout) (off : Nat) : List FldRow :=
  if l = .hub1 ∧ (off = 0x074 ∨ off = 0x078) then [] else l.rows.filter (·.atOff off)

/-- A block register as a requester of a view reads it. -/
def State.blockVal (s : State) (pg : Nat) (i : PageInfo) (off : Nat) (tenant : Bool) : Nat :=
  ((i.layout.at off).map fun r =>
    if (r.acc tenant).reads then ((r.flds off).map fun f => s.fieldVal pg i f * 2 ^ f.lo).sum else 0).sum

/-- The events a page's PG_INT_STS defines besides bit 31, as each block's chapter lists them. -/
def Layout.events : Layout → Nat
  | .hub2 | .disp4 | .stp0 | .tn10 | .tn11 | .kvw | .atu | .mov | .sto => 1
  | .kpm0 | .stpPort | .vce0 | .vce1 | .hpc | .trl | .queue | .tn9 | .clu => 3
  | .pt | .hmp0 | .hpt | .pwrHub | .tn0 | .core => 7
  | .boot | .stpCtx | .mgt | .thm0 | .thm1 | .thmTile | .pwrTile | .slc => 15
  | .scbH | .scbC | .scbP => 0x1F
  | .lnk => 0x3F
  | .ser => 0x7F
  | _ => 0

/-- The defined bits of PG_INT_STS, PG_INT_EN and PG_INT_FORCE. -/
def Layout.intMask (l : Layout) : Nat := l.events + 2 ^ 31

/-- PG_CAP.block_cap (05, 07, 09). -/
def Layout.cap : Layout → Nat
  | .hmp0 => 0x1000
  | .mxe => 0x3F
  | .slc => 0x80
  | _ => 0

/-- PG_CAP.err_addr: the pages with a block error code that captures an address (DEDUCED, log entry 13). -/
def Layout.errAddr : Layout → Bool
  | .hub2 | .pt | .hmp0 | .disp1 | .tn11 | .queue | .kpm1 | .stpCtx | .vce0 | .vce1 | .hpc | .thm0 | .thm1 | .pwrHub | .pwrTile | .scbH | .scbC | .scbP |
    .core | .sto | .slc => true
  | _ => false

/-- PG_CAP.lockable. -/
def Layout.lockable (l : Layout) : Bool := l.rows.any fun r => r.priv == .rwl || r.ten == .rwl

/-- A header register (R50-R53). -/
def State.header (s : State) (pg : Nat) (i : PageInfo) (off : Nat) (tenant : Bool) : Nat :=
  match off with
  | 0x000 => pgId pg
  | 0x004 => 0x100
  | 0x008 => i.layout.cap + 2 ^ 29 * b2n i.layout.errAddr + 2 ^ 30 * b2n (i.layout.events != 0) + 2 ^ 31 * b2n i.layout.lockable
  | 0x010 => 2 ^ 28 * b2n (s.pagePending pg) + s.pgAvail pg
  | 0x014 => s.fld pg F.PG_INT_STS
  | 0x018 => s.fld pg F.PG_INT_EN
  | 0x020 => s.fld pg F.PG_ERR_CNT
  | 0x024 => s.fld pg F.PG_ERR_FIRST_code + 2 ^ 8 * s.fld pg F.PG_ERR_FIRST_requester + 2 ^ 16 * s.fld pg F.PG_ERR_FIRST_valid
  | 0x028 => s.fld pg F.PG_ERR_ADDR_LO
  | 0x02C => s.fld pg F.PG_ERR_ADDR_HI
  | 0x030 => s.pgView pg tenant
  | 0x034 => if tenant then 0 else s.fld pg F.PG_LOCK_locked
  | _ => 0

/-- The offset of the high half of a 64-bit counter whose low half stands at the offset below it. -/
def Layout.snapHi : Layout → Option Nat
  | .stp0 | .mxe | .tgu => some 0x048
  | .pwrHub => some 0x054
  | .pwrTile | .atu => some 0x050
  | .mov => some 0x04C
  | .slc => some 0x060
  | _ => none

/-- Reading DISP_FC_SEQ copies the forecast last formed into the page. -/
def State.fcSnap (s : State) : State :=
  let fc := s.thm.fc
  ((s.setFld (P.disp 4) F.DISP_FC_BASE_value (fc.getD 0 0)).setFld (P.disp 4) F.DISP_FC_BASE_value2 (fc.getD 1 0)).each (List.range 8) fun w s =>
    s.setFld (P.disp 4) (F.DISP_FC_WIN_value w) (fc.getD (2 + w) 0)

/-- A register of a page that serves, and what the read changes: a low half captures its high half. -/
def State.readReg (s : State) (pg : Nat) (i : PageInfo) (off : Nat) (tenant : Bool) : Nat × State :=
  if off < 0x040 then (s.header pg i off tenant, s)
  else
    let v := s.blockVal pg i off tenant
    match i.layout.snapHi with
    | some h =>
      if off = h then (Tab.get nat0 s.snaps (pg * 4096 + h), s)
      else if off + 4 = h then (v, { s with snaps := Tab.set nat0 s.snaps (pg * 4096 + h) (s.blockVal pg i h tenant) })
      else (v, s)
    | none => if i.layout = .disp4 ∧ off = 0x044 then (v, s.fcSnap) else (v, s)

/-- A dword of the register space: reserved pages read 0 (R60). -/
def State.readDword (s : State) (pg off : Nat) (tenant : Bool) : Nat × State :=
  match pageInfo pg with
  | none => (0, s)
  | some i => if s.unavailable pg then (s.substitute0 pg off tenant, s) else s.readReg pg i off tenant

/-- `n` dwords of a page in ascending order (R64). -/
def State.readDwords (s : State) (pg off : Nat) (tenant : Bool) : Nat → List Nat × State
  | 0 => ([], s)
  | n + 1 =>
    let r := s.readDword pg off tenant
    let t := r.2.readDwords pg (off + 4) tenant n
    (r.1 :: t.1, t.2)

/-- A request of 1 to 16 dwords that lies within one page (R64). A byte address names its dword. -/
def spanOk (addr n : Nat) : Bool := decide (1 ≤ n) && decide (n ≤ 16) && decide (addr / 4 % 1024 + n ≤ 1024)

/-- The dwords of a read, answered to the requester with code `rq`. -/
def State.answerRead (s : State) (rq : Nat) (addr n : Nat) (tenant : Bool) : State :=
  let r := s.readDwords (addr / 4096) (addr / 4 % 1024 * 4) tenant n
  r.2.emit (.regData rq r.1)

/-- A read of the privileged view; one of a page of a tile that changes its operating point is held (R66). -/
def State.privRead (s : State) (rq : Requester) (addr n : Nat) : State :=
  if s.tileBusy (addr / 4096) then s.hold (addr / 4096) (.read rq addr n)
  else s.answerRead (rqCode rq) addr n false

/-- A read by a requester: its answer, and what the read changes (R56, R63, R64). A non-owner physical function reads a copy of HUB page 0. -/
def State.readReq (s : State) (rq : Requester) (addr n : Nat) : State :=
  if !spanOk addr n then s.emit (.abort (rqCode rq))
  else match rq with
    | .tenant k => if addr < 0x10000 then s.answerRead k (0x400000 + 0x10000 * k + addr) n true else s
    | .pf p =>
      if addr ≥ 2 ^ 27 then s
      else if p.val ≠ s.owner ∧ addr / 4096 ≠ 0 then s.emit (.regData (rqCode rq) (List.replicate n 0))
      else s.privRead rq addr n
    | _ => s.privRead rq addr n

/-- A read by a requester that does not reach the device: after the loss of a hub clock every host read is aborted (01 R24); with no power, no link or no decoding there is no answer. -/
def State.readLost (s : State) (rq : Requester) : State :=
  match rq with
  | .tenant _ => if s.devFailed && s.aoUp then s.emit (.abort (rqCode rq)) else s
  | .pf _ => if s.devFailed && s.aoUp then s.emit (.abort (rqCode rq)) else s
  | _ => s

/-- A read by a requester. -/
def State.readFrom (s : State) (rq : Requester) (addr n : Nat) : State :=
  if s.reach rq then s.readReq rq addr n else s.readLost rq

/-- REGISTER_READ. BAR2 of a virtual function that no tenant is bound to reads 0 (06 R123). -/
def execRegisterRead (src : RegSrc) (addr : BitVec 28) (n : Nat) (s : State) : Host.Outcome State Fault Refusal :=
  .next <|
    match src with
    | .req rq => s.readFrom rq addr.toNat n
    | .vf p v =>
      match s.vfTenant p v with
      | some m => s.readFrom (.tenant m) addr.toNat n
      | none =>
        if s.devFailed && s.aoUp then s.emit (.abort (0x100 + fnNum (.vf p v)))
        else if s.vfReach (fnNum (.vf p v)) then s.emit (.regData (0x100 + fnNum (.vf p v)) (List.replicate n 0)) else s

end Sys2Proof.Machine
end

