-- ==== Sys2Proof/Machine/RegHooks.lean ====
section
/-! DEFINITION. Register writes (03 R50, R53, R55-R60, R64, R67, R69): header registers, fields by their access codes, the registers whose write has an effect of its own, and the write of a request. -/
namespace Sys2Proof.Machine

/-! Header registers. -/

/-- PG_CTL.err_rearm; on a KVW or ATU page it frees the fault capture as well (10). -/
def State.errRearm (s : State) (pg : Nat) : State :=
  let s1 := s.setFlag pg F.PG_ERR_FIRST_valid false
  match pageInfo pg with
  | some i =>
    if i.layout = .kvw then s1.setFlag pg F.KVW_FAULT_valid false
    else if i.layout = .atu then s1.setFlag pg F.ATU_FAULT_valid false else s1
  | none => s1

/-- PG_CTL.err_clr. -/
def State.errClr (s : State) (pg : Nat) : State := s.setFld pg F.PG_ERR_CNT 0

/-- PG_CTL. -/
def State.ctlWrite (s : State) (pg v : Nat) : State :=
  let s1 := if bitOf v 30 then s.errRearm pg else s
  if bitOf v 31 then s1.errClr pg else s1

/-- PG_INT_STS: the written bits clear, and the page raises its interrupt again if it still pends (R67). -/
def State.intClear (s : State) (pg mask v : Nat) : State :=
  let x := s.fld pg F.PG_INT_STS
  let s1 := s.setFld pg F.PG_INT_STS (x - (x &&& v &&& mask))
  if s1.pagePending pg then s1.raiseInt pg else s1

/-- PG_INT_EN: int_pending may rise. -/
def State.intEnable (s : State) (pg mask v : Nat) : State :=
  let s1 := s.setFld pg F.PG_INT_EN (v &&& mask)
  if !s.pagePending pg && s1.pagePending pg then s1.raiseInt pg else s1

/-- A write of a header register; `priv` is false for a tenant, who writes neither PG_INT_FORCE nor PG_LOCK. -/
def State.headerWrite (s : State) (pg : Nat) (i : PageInfo) (off v : Nat) (priv : Bool) : State :=
  let mask := i.layout.intMask
  match off with
  | 0x00C => s.ctlWrite pg v
  | 0x014 => s.intClear pg mask v
  | 0x018 => s.intEnable pg mask v
  | 0x01C => if priv then s.setInts pg (v &&& mask) else s
  | 0x034 => if priv && bitOf v 0 then s.setFlag pg F.PG_LOCK_locked true else s
  | _ => s

/-- The defined bits of a header register that no tenant may write. -/
def headerFixed (l : Layout) (off : Nat) : Nat :=
  match off with
  | 0x000 => 2 ^ 29 - 1
  | 0x004 => 0xFFFF
  | 0x008 => 0xFFFFFF + 7 * 2 ^ 29
  | 0x010 => 2 ^ 32 - 1
  | 0x01C => l.intMask
  | 0x020 => 0xFFFF
  | 0x024 => 0x1FFFF
  | 0x028 => 2 ^ 32 - 1
  | 0x02C => 2 ^ 32 - 1
  | 0x030 => 0x7FFF
  | 0x034 => 1
  | _ => 0

/-! Fields by their access codes. -/

/-- Bits that a register's table calls reserved inside a field. -/
def Layout.keep (l : Layout) (off v : Nat) : Nat :=
  match l with
  | .hpc => if off = 0x048 then v / 2 * 2 else v
  | .queue => if off = 0x04C then v / 4096 * 4096 else v
  | .kpm1 => if off % 32 = 4 then v / 4096 * 4096 else if off % 32 = 8 then v % 65536 else v
  | .scbP => if off = 0x050 then v - 2 * bits v 1 3 else v
  | _ => v

/-- The fields of a register with their rows. -/
def Layout.fldsAt (l : Layout) (off : Nat) : List (FldRow × Fld) := (l.at off).flatMap fun r => (r.flds off).map fun f => (r, f)

/-- A dword's bits of a field. -/
def Fld.of (f : Fld) (v : Nat) : Nat := bits v f.lo f.len

/-- A dword changes an RWL field while the page is locked. -/
def State.lockHits (s : State) (pg : Nat) (i : PageInfo) (off v : Nat) : Bool :=
  s.flag pg F.PG_LOCK_locked && (i.layout.fldsAt off).any fun e => e.1.priv == .rwl && s.fld pg e.2 != e.2.of v

/-- RW and W1C fields take the dword, RWL fields while the page is not locked; a locked change is counted once per dword (R59). -/
def State.fieldsWrite (s : State) (rq : Requester) (pg : Nat) (i : PageInfo) (off v : Nat) : State :=
  let locked := s.flag pg F.PG_LOCK_locked
  let s1 := if s.lockHits pg i off v then s.countErr pg 0x03 (rqCode rq) (accessAddr rq pg off) else s
  s1.each (i.layout.fldsAt off) fun e s =>
    match e.1.priv with
    | .rw => s.setFld pg e.2 (e.2.of v)
    | .rwl => if locked then s else s.setFld pg e.2 (e.2.of v)
    | .w1c => s.setFld pg e.2 (s.fld pg e.2 - (s.fld pg e.2 &&& e.2.of v))
    | _ => s

/-- Configuration that keeps its value while `live`: a change is counted with `code`. -/
def State.liveWrite (s : State) (rq : Requester) (pg : Nat) (i : PageInfo) (off v code : Nat) (live : Bool) : State :=
  if !live then s.fieldsWrite rq pg i off v
  else if (i.layout.fldsAt off).all fun e => s.fld pg e.2 == e.2.of v then s
  else s.countErr pg code (rqCode rq) (accessAddr rq pg off)

/-- A write of a configuration register of a stream context or codec session: while it is enabled the fields keep their values, and the write counts whatever it carries (11 R285, 12 R305; log entry 75). -/
def State.keepWrite (s : State) (rq : Requester) (pg : Nat) (i : PageInfo) (off v code : Nat) (live : Bool) : State :=
  if !live then s.fieldsWrite rq pg i off v else s.countErr pg code (rqCode rq) (accessAddr rq pg off)

/-! Registers whose write has an effect of its own. `none` where it has not. -/

def State.hookHub (s : State) (rq : Requester) (pg : Nat) (i : PageInfo) (off v : Nat) : Option State :=
  let p := i.page - 8
  match i.layout with
  | .hub2 =>
    if off = 0x040 then some (s.hubRstWrite rq (bits v 0 3) (bits v 3 9) (bitOf v 31))
    else if off = 0x04C then some (s.devReset rq (bits v 0 16)) else none
  | .pt =>
    if off = 0x040 ∨ off = 0x044 ∨ off = 0x048 then some (s.liveWrite rq pg i off v 0x42 (s.ptState p != 0 && s.ptState p != 4))
    else if off = 0x04C then some (s.ptCmdWrite p (bits v 0 2) (bitOf v 31)) else none
  | .boot => if off = 0x064 then some (if bitOf v 0 then s.pushGo else s) else none
  | .hmp3 => if off = 0x048 then some (s.allocWrite rq (bits v 0 2) (bitOf v 31)) else none
  | .disp1 => if 0x040 ≤ off ∧ off < 0x240 then some (s.bindWrite rq ((off - 0x040) / 4) v) else none
  | .disp5 => if off = 0x04C then some (if bitOf v 0 then { s with etab := [] } else s) else none
  | .kpm1 =>
    let k := (off - 0x040) / 32
    if off < 0x040 ∨ 0x140 ≤ off then none
    else if off % 32 = 0 then some (s.poolCfgWrite rq k (BitVec.ofNat 32 v))
    else if off % 32 = 4 ∨ off % 32 = 8 ∨ off % 32 = 12 then some (s.liveWrite rq pg i off v 0x40 (s.poolState k != 0))
    else none
  | _ => none

/-- LNK_CTL: fields take their values, then the link follows force_down and enable, and the commands run. -/
def State.lnkCtl (s : State) (rq : Requester) (pg : Nat) (i : PageInfo) (v : Nat) : State :=
  let k := i.inst
  let force := s.fld pg F.LNK_CTL_force_down
  let en := s.fld pg F.LNK_CTL_enable
  let s1 := if s.flag pg F.PG_LOCK_locked then s.fieldsWrite rq pg i 0x040 v
    else
      let s2 := (s.setFld pg F.LNK_CTL_replay_limit (bits v 4 4)).setFld pg F.LNK_CTL_ack_timer (bits v 8 8)
      let s3 := if force = bits v 2 1 then s2 else s2.lnkForceWrite rq k (bitOf v 2)
      if en = bits v 0 1 then s3 else s3.lnkEnableWrite rq k (bitOf v 0)
  let s4 := if bitOf v 3 then s1.lnkCntClear (k / 4) (k % 4) else s1
  if bitOf v 1 then s4.lnkRetrainWrite k else s4

/-- SER_CTL. -/
def State.serCtl (s : State) (rq : Requester) (pg : Nat) (i : PageInfo) (v : Nat) : State :=
  let t := i.inst
  let s1 := if s.flag pg F.PG_LOCK_locked then s.fieldsWrite rq pg i 0x040 v
    else
      let s2 := ((s.setFld pg F.SER_CTL_allow_half (bits v 3 1)).setFld pg F.SER_CTL_replay_limit (bits v 4 4)).setFld pg F.SER_CTL_fec_thresh (bits v 8 16)
      if s.fld pg F.SER_CTL_enable = bits v 0 1 then s2 else s2.serEnableWrite rq pg t (bitOf v 0)
  let s3 := if bitOf v 2 then s1.serCntClear pg else s1
  if bitOf v 1 then s3.lnkRetrainWrite ((if i.page = 1 then 40 else 32) + t) else s3

/-- resume_pct as it is stored (11): 0 stores 1, 50 to 63 store 49. -/
def resumePct (v : Nat) : Nat := v - 2 ^ 24 * bits v 24 6 + 2 ^ 24 * min 49 (max 1 (bits v 24 6))

def State.hookAux (s : State) (rq : Requester) (pg : Nat) (i : PageInfo) (off v : Nat) : Option State :=
  match i.layout with
  | .lnk => if off = 0x040 then some (s.lnkCtl rq pg i v) else none
  | .ser => if off = 0x040 then some (s.serCtl rq pg i v) else none
  | .stpPort =>
    if off = 0x040 then
      let s1 := s.fieldsWrite rq pg i off v
      some (if s.flag pg F.STP_PORT_CTL_enable && !s1.flag pg F.STP_PORT_CTL_enable then s1.ethDown (i.page - 1) else s1)
    else none
  | .stpCtx =>
    if off < 0x100 ∨ 0xD00 ≤ off then none
    else
      let k := 64 * (i.page - 4) + (off - 0x100) / 48
      match (off - 0x100) % 48 with
      | 0 => some (s.skBindWrite rq k v)
      | 4 => some (s.keepWrite rq pg i off v 0x42 (s.skOn k))
      | 8 => some (s.keepWrite rq pg i off v 0x42 (s.skOn k))
      | 12 => some (s.keepWrite rq pg i off (resumePct v) 0x42 (s.skOn k))
      | _ => none
  | .vce0 =>
    if off = 0x044 then
      let s1 := if bitOf v 0 then s.vceBist rq i.inst else s
      some (if bitOf v 1 then s1.vceReset i.inst else s1)
    else none
  | .vce1 =>
    if off < 0x100 ∨ 0x300 ≤ off then none
    else
      let k := 16 * i.inst + (off - 0x100) / 32
      match (off - 0x100) % 32 with
      | 0 => some (s.vcBindWrite rq k v)
      | 4 => some (s.keepWrite rq pg i off v 0x41 (s.vcOn k))
      | 8 => some (s.keepWrite rq pg i off v 0x41 (s.vcOn k))
      | 12 => some (s.keepWrite rq pg i off v 0x41 (s.vcOn k))
      | _ => none
  | .hpc =>
    let h := i.inst
    if off = 0x044 then some (s.hpcGrant rq h v)
    else if off = 0x048 then
      some (if s.hpcBusy h then s.countErr pg 0x41 (rqCode rq) (accessAddr rq pg off) else s.fieldsWrite rq pg i off v)
    else if off = 0x04C then
      let s1 := if bitOf v 0 then s.hpcStart h else s
      some (if bitOf v 1 then s1.hpcStop h 4 else s1)
    else none
  | _ => none

/-- The memory instance of an SCB page. -/
def scbOf (i : PageInfo) : ScbId :=
  match i.layout with
  | .scbP => if h : i.inst < 512 then .slice ⟨i.inst, h⟩ else .hamper
  | .scbC => if h : i.inst < 64 then .cluster ⟨i.inst, h⟩ else .hamper
  | _ => .hamper

/-- SLC_CTL: a change of the lowest band may change the slice's band; force_fail fails the slice with cause 5. -/
def State.slcCtl (s : State) (rq : Requester) (pg : Nat) (i : PageInfo) (v : Nat) : State :=
  let x := i.inst
  let s1 := s.fieldsWrite rq pg i 0x054 v
  let s2 := if s.sliceBand x = s1.sliceBand x then s1 else s1.event pg 1
  if bitOf v 8 then s2.sliceFail x 5 else s2

def State.hookPower (s : State) (rq : Requester) (pg : Nat) (i : PageInfo) (off v : Nat) : Option State :=
  match i.layout with
  | .trl => if off = 0x04C then some (s.trlIndex (bits v 0 12)) else none
  | .thm0 => if off = 0x044 then some (s.thmCfg rq v) else none
  | .thm1 =>
    if off = 0x040 then
      let s1 := (s.fieldsWrite rq pg i off v).okSync
      some (if bitOf v 1 then s1.thmRelease rq else s1)
    else none
  | .pwrHub => if off = 0x044 then some (s.pwrLimit rq v) else none
  | .pwrTile => if off = 0x044 then some (s.pwrReq rq i.inst v) else none
  | .scbH =>
    if off = 0x04C then some (s.ceCfgWrite rq .hamper v)
    else if off = 0x050 && bitOf v 0 then some (s.bistStart rq .hamper v) else none
  | .scbC | .scbP =>
    if off = 0x04C then some (s.ceCfgWrite rq (scbOf i) v)
    else if off = 0x050 then some (s.bistWrite rq (scbOf i) v) else none
  | .slc => if off = 0x054 then some (s.slcCtl rq pg i v) else none
  | .kvw => if off = 0x050 then some (if bitOf v 0 then s.labRemove i.inst fun _ => true else s) else none
  | .sto => if off = 0x044 then some (s.spareWrite rq i.inst v) else none
  | _ => none

def State.hookTenant (s : State) (rq : Requester) (pg : Nat) (i : PageInfo) (off v : Nat) : Option State :=
  let n := i.inst
  let q := i.page - 1
  match i.layout with
  | .tn0 =>
    if off = 0x044 then some (if bitOf v 0 then s.tnTrigger n false else s)
    else if (off = 0x048 ∨ off = 0x04C) ∧ s.tnState n = 3 then some s
    else if off = 0x04C then some (if bitOf v 31 then s.cancel n (bits v 0 3) (bitOf v 3) else s.fieldsWrite rq pg i off v)
    else none
  | .queue =>
    let on := s.flag pg F.Q_SQ_CFG_enable
    if off = 0x040 then some (s.sqCfgWrite rq n q v)
    else if off = 0x044 then some (s.doorbell rq n q (v % 65536))
    else if off = 0x058 then some (s.cqHeadWrite rq n q (v % 65536))
    else if off = 0x04C ∨ off = 0x050 ∨ off = 0x05C then some (s.liveWrite rq pg i off v 0x43 on)
    else if off = 0x054 then
      let s1 := (s.setFld pg F.Q_CQ_CFG_coal_cnt (bits v 8 8)).setFld pg F.Q_CQ_CFG_coal_us (bits v 16 8)
      let s2 := if !on then s1.setFld pg F.Q_CQ_CFG_log2_size (bits v 0 4)
        else if s.fld pg F.Q_CQ_CFG_log2_size = bits v 0 4 then s1 else s1.countErr pg 0x43 (rqCode rq) (accessAddr rq pg off)
      some (s2.coalCheck n q)
    else none
  | .tn10 => if off = 0x044 then some (if bitOf v 0 then s.flogClear n else s) else none
  | .tn11 => if off = 0x050 then some (s.slotQuery n (bits v 0 12)) else none
  | _ => none

/-- The effect of a register's write where it has one of its own. -/
def State.hook (s : State) (rq : Requester) (pg : Nat) (i : PageInfo) (off v : Nat) : Option State :=
  match i.layout with
  | .hub2 | .pt | .boot | .hmp3 | .disp1 | .disp5 | .kpm1 => s.hookHub rq pg i off v
  | .lnk | .ser | .stpPort | .stpCtx | .vce0 | .vce1 | .hpc => s.hookAux rq pg i off v
  | .trl | .thm0 | .thm1 | .pwrHub | .pwrTile | .scbH | .scbC | .scbP | .slc | .kvw | .sto => s.hookPower rq pg i off v
  | .tn0 | .queue | .tn10 | .tn11 => s.hookTenant rq pg i off v
  | _ => none

/-- A dword reaches a register of a page that serves. -/
def State.regWrite (s : State) (rq : Requester) (pg : Nat) (i : PageInfo) (off v : Nat) (priv : Bool) : State :=
  if off < 0x040 then s.headerWrite pg i off v priv
  else
    let w := i.layout.keep off v
    match s.hook rq pg i off w with
    | some t => t
    | none => s.fieldsWrite rq pg i off w

/-! The tenant view (R58). -/

/-- A tenant may write a field of this access code. -/
def Acc.tenWrites (a : Acc) (locked : Bool) : Bool :=
  match a with
  | .rw | .w1s | .w1c | .wo => true
  | .rwl => !locked
  | _ => false

/-- A tenant's dword differs in a field it may not write from what it would read there. -/
def State.denied (s : State) (pg : Nat) (i : PageInfo) (off v : Nat) : Bool :=
  if off < 0x040 then
    let m := headerFixed i.layout off
    (v &&& m) != ((if off = 0x01C then 0 else s.header pg i off true) &&& m)
  else
    let locked := s.flag pg F.PG_LOCK_locked
    (i.layout.fldsAt off).any fun e => !e.1.ten.tenWrites locked && e.2.of v != (if e.1.ten.reads then s.fieldVal pg i e.2 else 0)

/-- The dword with the fields a tenant may not write at their present values, so that nothing of them changes. -/
def State.tenMerge (s : State) (pg : Nat) (i : PageInfo) (off v : Nat) : Nat :=
  let locked := s.flag pg F.PG_LOCK_locked
  ((i.layout.fldsAt off).map fun e =>
    2 ^ e.2.lo * (if e.1.ten.tenWrites locked then e.2.of v else match e.1.priv with | .rw | .rwl => s.fld pg e.2 | _ => 0)).sum

/-- A tenant's dword at its page (R58): a denied field is counted once per dword, the others apply. -/
def State.tenDword (s : State) (rq : Requester) (n pg : Nat) (i : PageInfo) (off v : Nat) : State :=
  let s1 := if s.denied pg i off v then s.tenErr n pg 0x01 (rqCode rq) (accessAddr rq pg off) else s
  s1.regWrite rq pg i off (if off < 0x040 then v else s.tenMerge pg i off v) false

/-! Requests. -/

/-- An error of a request at a page: on the page, or, where the page is reserved, on HUB page 0; a tenant's errors stand on its own pages and in its fault log (R55, R70). -/
def State.reqErr (s : State) (rq : Requester) (pg off code : Nat) (own : Bool) : State :=
  match rq with
  | .tenant n => s.tenErr n (if own && (pageInfo pg).isSome then pg else P.ten n 0) code (rqCode rq) (accessAddr rq pg off)
  | _ => s.countErr (if own && (pageInfo pg).isSome then pg else P.hub 0) code (rqCode rq) (accessAddr rq pg off)

/-- A dword of a write (R55, R58, R59, R64, R69). A dword whose byte enables are not all set is SIZE, also at a reserved page, where HUB page 0 or the tenant's page 0 counts it (R55).
DESIGN CHOICE (log entry 26): R64 and R69 both claim such a dword at a page that does not serve; it counts UNAVAILABLE. A request that crosses its page or exceeds 16 dwords is never split into dwords and counts SIZE on that page, served or not. -/
def State.writeDword (s : State) (rq : Requester) (pg off : Nat) (w : RegDword) : State :=
  match pageInfo pg with
  | none => s.reqErr rq pg off (if w.be ≠ 15 then 0x04 else 0x02) false
  | some i =>
    let out := s.unavailable pg
    match rq with
    | .tenant n =>
      if out || s.tnState n == 3 then s
      else if w.be ≠ 15 then s.reqErr rq pg off 0x04 true
      else s.tenDword rq n pg i off w.val.toNat
    | _ =>
      if out then s.reqErr rq pg off 0x05 false
      else if w.be ≠ 15 then s.reqErr rq pg off 0x04 true
      else s.regWrite rq pg i off w.val.toNat true

/-- The dwords of a write, one at a time in ascending order. -/
def State.writeDwords (s : State) (rq : Requester) (pg off : Nat) : List RegDword → State
  | [] => s
  | w :: ws => (s.writeDword rq pg off w).writeDwords rq pg (off + 4) ws

/-- The page of an address in the requester's view: BAR2 for a tenant, else the privileged view. -/
def reqPage (rq : Requester) (addr : Nat) : Nat :=
  match rq with
  | .tenant n => P.ten n (addr / 4096)
  | _ => addr / 4096

/-- The BAR, or the view, of a requester holds the address. -/
def reqInside (rq : Requester) (addr : Nat) : Bool :=
  match rq with
  | .tenant _ => decide (addr < 0x10000)
  | _ => decide (addr < 2 ^ 27)

/-- The port a poisoned write arrived through. -/
def State.rqPort (s : State) (rq : Requester) : Option Nat :=
  match rq with
  | .tenant n => some (s.tnPort n)
  | .pf p => some p
  | _ => none

/-- A write by a requester that reaches the device: every write of a non-owner physical function is NOT_OWNER (R56); a request that crosses a page or exceeds 16 dwords is dropped and counted once as SIZE (R64); one to a page of a tile that changes its operating point is held (R66). -/
def State.writeReq (s : State) (rq : Requester) (addr : Nat) (ws : List RegDword) : State :=
  let pg := reqPage rq addr
  let off := addr / 4 % 1024 * 4
  let quiet := match rq with | .tenant n => s.tnState n == 3 || !s.ready | _ => false
  let alien := match rq with | .pf p => decide (p.val ≠ s.owner) | _ => false
  if ws.isEmpty || !reqInside rq addr || quiet then s
  else if alien then s.countErr (P.hub 0) 0x06 (rqCode rq) (addr / 4 * 4)
  else if !spanOk addr ws.length then s.reqErr rq pg off 0x04 true
  else if s.tileBusy pg then s.hold pg (.write rq addr ws)
  else s.writeDwords rq pg off ws

/-- A write by a requester, after the earlier aperture writes of its port (05 R114): a poisoned one is dropped, with its AER record (13 R322). -/
def State.writeFrom (s : State) (rq : Requester) (addr : Nat) (ws : List RegDword) (ep : Bool) : State :=
  if !s.reach rq then s
  else if ep then (match s.rqPort rq with | some p => (s.landFor rq).emit (.aer p) | none => s)
  else (s.landFor rq).writeReq rq addr ws

/-- REGISTER_WRITE. BAR2 of a virtual function that no tenant is bound to drops writes (06 R123). -/
def execRegisterWrite (src : RegSrc) (addr : BitVec 28) (ws : List RegDword) (ep : Bool) (s : State) : Host.Outcome State Fault Refusal :=
  .next <|
    match src with
    | .req rq => s.writeFrom rq addr.toNat ws ep
    | .vf p v => match s.vfTenant p v with | some m => s.writeFrom (.tenant m) addr.toNat ws ep | none => s

/-- A whole dword. -/
def fullDword (v : Word) : List RegDword := [⟨15, v⟩]

/-- The address of a register of page `pg` in the requester's view; a tenant names its pages 0 to 15. -/
def State.oneDword (s : State) (rq : Requester) (pg : BitVec 16) (off : Nat) (v : Word) : State :=
  if s.reach rq then (s.landFor rq).writeReq rq (pg.toNat * 4096 + off) (fullDword v) else s

/-- ERR_REARM. -/
def execErrRearm (rq : Requester) (pg : BitVec 16) (s : State) : Host.Outcome State Fault Refusal := .next (s.oneDword rq pg 0x00C 0x40000000#32)

/-- ERR_CLR. -/
def execErrClr (rq : Requester) (pg : BitVec 16) (s : State) : Host.Outcome State Fault Refusal := .next (s.oneDword rq pg 0x00C 0x80000000#32)

/-- INT_STS_CLEAR. -/
def execIntStsClear (rq : Requester) (pg : BitVec 16) (v : Word) (s : State) : Host.Outcome State Fault Refusal := .next (s.oneDword rq pg 0x014 v)

/-- INT_FORCE. -/
def execIntForce (rq : Requester) (pg : BitVec 16) (v : Word) (s : State) : Host.Outcome State Fault Refusal := .next (s.oneDword rq pg 0x01C v)

/-- PAGE_LOCK. -/
def execPageLock (rq : Requester) (pg : BitVec 16) (s : State) : Host.Outcome State Fault Refusal := .next (s.oneDword rq pg 0x034 1#32)

/-! The management mailbox (17 R396, R397): requester code 0x88. -/

/-- The words of a register write as a request body. -/
def regBody (ws : List RegDword) : List Nat := ws.flatMap fun w => [w.be.toNat, w.val.toNat]

/-- A request of the mailbox stays within a page of the privileged view. -/
def fmcSpan (addr n : Nat) : Bool := spanOk addr n && decide (addr < 2 ^ 27)

/-- The read of REG_READ. -/
def State.fmcRead (s : State) (f : Fmc) (a n : Nat) : State :=
  s.fmcRun f 0x02 [a, n] fun s =>
    if !fmcSpan a n then FmcAns.only 2
    else ⟨0, (s.readDwords (a / 4096) (a / 4 % 1024 * 4) false n).1, fun s => (s.readDwords (a / 4096) (a / 4 % 1024 * 4) false n).2⟩

/-- REG_READ; one of a page of a tile that changes its operating point is held (03 R66). -/
def execRegRead (f : Fmc) (addr : BitVec 28) (n : Nat) (s : State) : Host.Outcome State Fault Refusal :=
  .next <| if s.mgtUp && !f.src.full && fmcSpan addr.toNat n && s.tileBusy (addr.toNat / 4096) then s.hold (addr.toNat / 4096) (.mailbox f addr.toNat n)
    else s.fmcRead f addr.toNat n

/-- REG_WRITE. A request R64 does not perform is INVALID; one that crosses a page is counted as R64 has it. -/
def execRegWrite (f : Fmc) (addr : BitVec 28) (ws : List RegDword) (s : State) : Host.Outcome State Fault Refusal :=
  .next <| s.fmcRun f 0x03 (addr.toNat :: regBody ws) fun _ =>
    ⟨if fmcSpan addr.toNat ws.length then 0 else 2, [], fun s => s.writeReq .mgt addr.toNat ws⟩

end Sys2Proof.Machine
end

