-- ==== Sys2Proof/Machine/Held.lean ====
section
/-! DEFINITION. The new operating point of a tile (15 R358): the accesses to the tile's registers that were held meanwhile take effect in order (03 R66). -/
namespace Sys2Proof.Machine

/-- A held write of a register at its page: dropped without counting where the page has become unavailable (03 R69). -/
def State.heldWrite (s : State) (pg : Nat) (k : State → State) : State := if s.unavailable pg then s else k s

/-- A held access takes effect. -/
def State.heldRun (s : State) (c : Held) : State :=
  match c with
  | .read rq addr n => s.answerRead (rqCode rq) addr n false
  | .mailbox f addr n => s.fmcRead f addr n
  | .write rq addr ws => s.heldWrite (addr / 4096) fun s => s.writeDwords rq (addr / 4096) (addr / 4 % 1024 * 4) ws
  | .retrain k => s.heldWrite (endPg k) fun s => s.lnkRetrainWrite k
  | .forceDown rq k v => s.heldWrite (endPg k) fun s => s.lnkForceWrite rq k v
  | .enable rq k v => s.heldWrite (endPg k) fun s => s.lnkEnableWrite rq k v
  | .serEnable rq t v => s.heldWrite (P.serTile t) fun s => s.serEnableWrite rq (P.serTile t) t v
  | .lnkClear t d => s.heldWrite (P.lnk t d) fun s => s.lnkCntClear t d
  | .serClear t => s.heldWrite (P.serTile t) fun s => s.serCntClear (P.serTile t)
  | .spare rq x v => s.heldWrite (P.sto x) fun s => s.spareWrite rq x v
  | .forceFail x => s.heldWrite (P.slc x) fun s => s.sliceFail x 5
  | .walkerFlush cl => s.heldWrite (P.kvw cl) fun s => s.labRemove cl fun _ => true
  | .ceWindow rq m v => s.heldWrite (scbPg m) fun s => s.ceCfgWrite rq m v
  | .selfTest rq m v => s.heldWrite (scbPg m) fun s => s.bistWrite rq m v
  | .point rq t v => s.heldWrite (P.pwrT t) fun s => s.pwrReq rq t v

/-- The accesses held for tile t take effect, oldest first, once it changes no more. -/
def State.heldRelease (s : State) (t : Nat) : State :=
  if s.flag (P.pwrT t) F.PWR_T_STS_busy then s
  else { s with held := Tab.set held0 s.held t [] }.each (Tab.get held0 s.held t) fun c s => s.heldRun c

/-- PLL_LOCKED. -/
def execPllLocked (t : Fin 8) (s : State) : Host.Outcome State Fault Refusal := .next ((s.pllLock t).heldRelease t)

/-- VDD_T_REACHED. -/
def execVddTReached (t : Fin 8) (s : State) : Host.Outcome State Fault Refusal := .next ((s.vddReach t).heldRelease t)

end Sys2Proof.Machine
end

