-- ==== Sys2Proof/Machine/Routing.lean ====
section
/-! DEFINITION. The end of a route change (02 R37). -/
namespace Sys2Proof.Machine

/-- A mover operation of a core of tile t that is in progress, so that its requests are out, reaches slice memory of tile u. -/
def State.requestsOut (s : State) (t u : Nat) : Bool :=
  (List.range 64).any fun i => (s.core (64 * t + i)).movAct.any fun o => s.movTouches (64 * t + i) o u

/-- ROUTE_SWITCH_RESUME: the source goes on, on the new route, once its requests on the old one are answered or absorbed. -/
def execRouteSwitchResume (t u : Fin 8) (s : State) : Host.Outcome State Fault Refusal :=
  .next <|
    match Tab.get hold0 s.routeHold (8 * t + u) with
    | some r => if s.requestsOut t u then s else (s.setHold t u none).setFld (P.serTile t) (F.SER_ROUTE_route u) r
    | none => s

end Sys2Proof.Machine
end

