-- ==== Sys2Proof/Machine/SliceRows.lean ====
section
/-! DEFINITION. Commands of a slice controller (09 R227-R238): requests with error correction, failures, refresh and the error window. -/
namespace Sys2Proof.Machine

/-- A request must lie inside one line. -/
def inLine (a n : Nat) : Bool := decide (0 < n) && decide (a % 64 + n ≤ 64)

/-- A read: data and poison, counted as bytes moved in DRAM. -/
def State.sliceReadOut (s : State) (x a n : Nat) (buf : Bool) : State :=
  let r := s.sliceRead x a n
  (s.sliceReadCount x a n).emit (.sliceData x r.1 (r.2 || buf))

/-- An atomic on `w` bytes: it answers the old value; a poisoned word, or one on a slice that serves nothing, stays as it is (R234; 08 R214). -/
def State.sliceAtomic (s : State) (x a w : Nat) (buf : Bool) (f : Nat → Option Nat) : State :=
  let old := s.sliceRead x a w
  let s1 := (s.sliceReadCount x a w).emit (.sliceData x old.1 (old.2 || buf))
  if old.2 || buf then s1
  else match f (leNat old.1) with
    | some v => s1.sliceWrite x a (leBytes w v) false
    | none => s1

/-- Whether a request reads its line: a write of a whole line does not (13 R315). -/
def sliceOpReads (op : SliceOp) : Bool := match op with | .write d _ => d.length != 64 | _ => true

/-- SLICE_REQUEST (R227, R228, R231, R234, R237). A write of part of a line whose read meets an uncorrectable error is lost (13 R315). -/
def execSliceRequest (x : Fin 512) (addr : BitVec 27) (op : SliceOp) (ecc : EccIn) (s : State) : Host.Outcome State Fault Refusal :=
  .next <|
    let a := addr.toNat
    let s1 := s.sliceEcc x a (sliceOpReads op) ecc
    let buf := ecc == .buffer
    if s.fenced (x / 64) then s
    else match op with
      | .read n => if inLine a n then s1.sliceReadOut x a n buf else s
      | .write d p =>
        if !inLine a d.length then s
        else if ecc == .uncorrectable && s.sliceServes x && s.lineDecoded x a (sliceOpReads op) then s1
        else s1.sliceWrite x a d (p || buf)
      | .atomic k v =>
        let w := if k = 2 then 8 else 4
        if a % w = 0 then s1.sliceAtomic x a w buf fun o => some (mvaOp k o (v.toNat % 2 ^ (8 * w))) else s
      | .cas c v => if a % 8 = 0 then s1.sliceAtomic x a 8 buf fun o => if o = c.toNat then some v.toNat else none else s

/-- SLICE_BOND_ERROR: an error that persists after three retries (R236). -/
def execSliceBondError (x : Fin 512) (s : State) : Host.Outcome State Fault Refusal := .next (s.sliceFail x 3)

/-- SLICE_CALIBRATION (R230): a calibration within margin changes nothing. -/
def execSliceCalibration (x : Fin 512) (ok : Bool) (s : State) : Host.Outcome State Fault Refusal :=
  .next (if ok then s else s.sliceFail x 4)

/-- SLC_FORCE_FAIL. -/
def execSlcForceFail (rq : Requester) (x : Fin 512) (s : State) : Host.Outcome State Fault Refusal :=
  .next <| s.tileWrite rq (P.slc x) 0x054 (.forceFail x) fun s => s.sliceFail x 5

/-- SLICE_REFRESH (R229): a refresh moves no data and takes time only. -/
def execSliceRefresh (_x : Fin 512) (s : State) : Host.Outcome State Fault Refusal :=
  .next s

/-- UE_WINDOW_END (R236): the count of distinct lines restarts. -/
def execUeWindowEnd (x : Fin 512) (s : State) : Host.Outcome State Fault Refusal :=
  .next { s with ueWin := Tab.set list0 s.ueWin x [] }

end Sys2Proof.Machine
end

