-- ==== Sys2Proof/Machine/Vector.lean ====
section
/-! DEFINITION. Per-thread Peken instructions (07 R165, R173, R174, R176, classes 0x4 to 0x8): integer, floating point, compares, predicates, VLD and VST, cross-lane. -/
namespace Sys2Proof.Machine

def formVvv : Form := { d := .v, a := .v, b := .v, guarded := true, tgu := true }
def formVv : Form := { d := .v, a := .v, guarded := true, tgu := true }
def formPvv (ms : List Nat) : Form := { d := .p, a := .v, b := .v, mods := ms, guarded := true, tgu := true }
def formPpp : Form := { d := .p, a := .p, b := .p }

/-- Per-thread shift counts use bits 4:0. -/
def sh5 (b : Word) : Nat := b.toNat % 32

/-- vd = va op vb in the acting threads. -/
def State.vecI (s : State) (x : Nat) (i : Pk) (op : Word → Word → Word) : State :=
  s.pekenReg x i formVvv fun c => c.mapV i fun t => op (c.getV i.a t) (c.getV i.b t)

/-- Write vd and collect the flags of the acting threads. -/
def Core.mapF (c : Core) (i : Pk) (f : Nat → Word × Nat) : Core :=
  (threadsOf (c.acting i)).foldl (fun k t => { k.setV i.d t (f t).1 with fpstat := k.fpstat ||| (f t).2 }) c

/-- vd = va op vb, binary32. -/
def State.vecF2 (s : State) (x : Nat) (i : Pk) (op : Nat → Word → Word → Word × Nat) : State :=
  s.pekenReg x i formVvv fun c => c.mapF i fun t => op c.fpmode (c.getV i.a t) (c.getV i.b t)

/-- vd = op va, binary32. -/
def State.vecF1 (s : State) (x : Nat) (i : Pk) (ms : List Nat) (op : Nat → Word → Word × Nat) : State :=
  s.pekenReg x i { formVv with mods := ms } fun c => c.mapF i fun t => op c.fpmode (c.getV i.a t)

/-- pd = pa op pb, not masked. -/
def State.predOp (s : State) (x : Nat) (i : Pk) (op : Dword → Dword → Dword) : State :=
  s.pekenReg x i formPpp fun c => c.setP i.d (op (c.getP i.a) (c.getP i.b))

def execPkVadd (x : Fin 512) (i : Pk) (s : State) : Host.Outcome State Fault Refusal :=
  .next (s.vecI x i (· + ·))
def execPkVsub (x : Fin 512) (i : Pk) (s : State) : Host.Outcome State Fault Refusal :=
  .next (s.vecI x i (· - ·))
def execPkVmul (x : Fin 512) (i : Pk) (s : State) : Host.Outcome State Fault Refusal :=
  .next (s.vecI x i (· * ·))
def execPkVmulhu (x : Fin 512) (i : Pk) (s : State) : Host.Outcome State Fault Refusal :=
  .next (s.vecI x i (fun a b => BitVec.ofNat 32 (a.toNat * b.toNat / 2 ^ 32)))
def execPkVand (x : Fin 512) (i : Pk) (s : State) : Host.Outcome State Fault Refusal :=
  .next (s.vecI x i (· &&& ·))
def execPkVor (x : Fin 512) (i : Pk) (s : State) : Host.Outcome State Fault Refusal :=
  .next (s.vecI x i (· ||| ·))
def execPkVxor (x : Fin 512) (i : Pk) (s : State) : Host.Outcome State Fault Refusal :=
  .next (s.vecI x i (· ^^^ ·))
def execPkVshl (x : Fin 512) (i : Pk) (s : State) : Host.Outcome State Fault Refusal :=
  .next (s.vecI x i (fun a b => a <<< sh5 b))
def execPkVshr (x : Fin 512) (i : Pk) (s : State) : Host.Outcome State Fault Refusal :=
  .next (s.vecI x i (fun a b => a >>> sh5 b))
def execPkVsra (x : Fin 512) (i : Pk) (s : State) : Host.Outcome State Fault Refusal :=
  .next (s.vecI x i (fun a b => a.sshiftRight (sh5 b)))
def execPkVmin (x : Fin 512) (i : Pk) (s : State) : Host.Outcome State Fault Refusal :=
  .next (s.vecI x i (fun a b => if a.slt b then a else b))
def execPkVmax (x : Fin 512) (i : Pk) (s : State) : Host.Outcome State Fault Refusal :=
  .next (s.vecI x i (fun a b => if a.slt b then b else a))
def execPkVminu (x : Fin 512) (i : Pk) (s : State) : Host.Outcome State Fault Refusal :=
  .next (s.vecI x i (fun a b => if a.ult b then a else b))
def execPkVmaxu (x : Fin 512) (i : Pk) (s : State) : Host.Outcome State Fault Refusal :=
  .next (s.vecI x i (fun a b => if a.ult b then b else a))
/-- VSEL: vd = p[mod] ? va : vb. -/
def execPkVsel (x : Fin 512) (i : Pk) (s : State) : Host.Outcome State Fault Refusal :=
  .next (s.pekenReg x i { formVvv with mods := [0, 1, 2, 3, 4, 5, 6, 7] } fun c =>
    c.mapV i fun t => if (c.getP i.mod.val).getLsbD t then c.getV i.a t else c.getV i.b t)
def execPkVmad (x : Fin 512) (i : Pk) (s : State) : Host.Outcome State Fault Refusal :=
  .next (s.pekenReg x i { formVvv with c := .v } fun c =>
    c.mapV i fun t => c.getV i.a t * c.getV i.b t + c.getV i.c t)
def execPkVfadd (x : Fin 512) (i : Pk) (s : State) : Host.Outcome State Fault Refusal :=
  .next (s.vecF2 x i f32Add)
def execPkVfsub (x : Fin 512) (i : Pk) (s : State) : Host.Outcome State Fault Refusal :=
  .next (s.vecF2 x i f32Sub)
def execPkVfmul (x : Fin 512) (i : Pk) (s : State) : Host.Outcome State Fault Refusal :=
  .next (s.vecF2 x i f32Mul)
def execPkVfmin (x : Fin 512) (i : Pk) (s : State) : Host.Outcome State Fault Refusal :=
  .next (s.vecF2 x i f32Min)
def execPkVfmax (x : Fin 512) (i : Pk) (s : State) : Host.Outcome State Fault Refusal :=
  .next (s.vecF2 x i f32Max)
def execPkVfma (x : Fin 512) (i : Pk) (s : State) : Host.Outcome State Fault Refusal :=
  .next (s.pekenReg x i { formVvv with c := .v } fun c =>
    c.mapF i fun t => f32Fma c.fpmode (c.getV i.a t) (c.getV i.b t) (c.getV i.c t))
def execPkVfrcp (x : Fin 512) (i : Pk) (s : State) : Host.Outcome State Fault Refusal :=
  .next (s.vecF1 x i [0] f32Rcp)
def execPkVfrsq (x : Fin 512) (i : Pk) (s : State) : Host.Outcome State Fault Refusal :=
  .next (s.vecF1 x i [0] f32Rsq)
def execPkVfexp2 (x : Fin 512) (i : Pk) (s : State) : Host.Outcome State Fault Refusal :=
  .next (s.vecF1 x i [0] f32Exp2)
def execPkVflog2 (x : Fin 512) (i : Pk) (s : State) : Host.Outcome State Fault Refusal :=
  .next (s.vecF1 x i [0] f32Log2)
/-- VFSGN: mod 0 abs, 1 negate, 2 sign of vb, which the other codes do not use. -/
def execPkVfsgn (x : Fin 512) (i : Pk) (s : State) : Host.Outcome State Fault Refusal :=
  .next (s.pekenReg x i { formVvv with b := if i.mod = 2 then .v else .no, mods := [0, 1, 2] } fun c =>
    c.mapV i fun t => f32Sgn c.fpmode i.mod.val (c.getV i.a t) (c.getV i.b t))
def execPkVcvt (x : Fin 512) (i : Pk) (s : State) : Host.Outcome State Fault Refusal :=
  .next (s.vecF1 x i (List.range 12) fun fm a => f32Cvt fm i.mod.val a)
def execPkVfrnd (x : Fin 512) (i : Pk) (s : State) : Host.Outcome State Fault Refusal :=
  .next (s.vecF1 x i [0, 1, 2, 3] fun fm a => f32Rnd fm i.mod.val a)

/-- The conditions of VICMP. -/
def icmp (m : Nat) (a b : Word) : Bool :=
  match m with
  | 0 => a == b
  | 1 => a != b
  | 2 => a.slt b
  | 3 => !b.slt a
  | 4 => a.ult b
  | _ => !b.ult a

/-- VICMP; the predicate bits of the threads that do not act become 0. -/
def execPkVicmp (x : Fin 512) (i : Pk) (s : State) : Host.Outcome State Fault Refusal :=
  .next (s.pekenReg x i (formPvv [0, 1, 2, 3, 4, 5]) fun c =>
    c.setP i.d (maskOf (c.acting i) fun t => icmp i.mod.val (c.getV i.a t) (c.getV i.b t)))

/-- VFCMP. -/
def execPkVfcmp (x : Fin 512) (i : Pk) (s : State) : Host.Outcome State Fault Refusal :=
  .next (s.pekenReg x i (formPvv [0, 1, 2, 3, 4]) fun c =>
    let r (t : Nat) : Bool × Nat := f32Cmp c.fpmode i.mod.val (c.getV i.a t) (c.getV i.b t)
    { c.setP i.d (maskOf (c.acting i) fun t => (r t).1) with
      fpstat := (threadsOf (c.acting i)).foldl (fun f t => f ||| (r t).2) c.fpstat })

/-! Predicates. -/

def execPkPand (x : Fin 512) (i : Pk) (s : State) : Host.Outcome State Fault Refusal :=
  .next (s.predOp x i (· &&& ·))
def execPkPor (x : Fin 512) (i : Pk) (s : State) : Host.Outcome State Fault Refusal :=
  .next (s.predOp x i (· ||| ·))
def execPkPxor (x : Fin 512) (i : Pk) (s : State) : Host.Outcome State Fault Refusal :=
  .next (s.predOp x i (· ^^^ ·))
def execPkPandn (x : Fin 512) (i : Pk) (s : State) : Host.Outcome State Fault Refusal :=
  .next (s.predOp x i (fun a b => a &&& ~~~ b))

/-- Number of ones. -/
def popcount (m : Dword) : Nat := (threadsOf m).length

def execPkPany (x : Fin 512) (i : Pk) (s : State) : Host.Outcome State Fault Refusal :=
  .next (s.pekenReg x i { d := .s, a := .p } fun c => c.setS i.d (b2d ((c.getP i.a &&& c.active) != 0)))
def execPkPcnt (x : Fin 512) (i : Pk) (s : State) : Host.Outcome State Fault Refusal :=
  .next (s.pekenReg x i { d := .s, a := .p } fun c => c.setS i.d (BitVec.ofNat 64 (popcount (c.getP i.a &&& c.active))))
def execPkPtos (x : Fin 512) (i : Pk) (s : State) : Host.Outcome State Fault Refusal :=
  .next (s.pekenReg x i { d := .s, a := .p } fun c => c.setS i.d (c.getP i.a))
def execPkStop (x : Fin 512) (i : Pk) (s : State) : Host.Outcome State Fault Refusal :=
  .next (s.pekenReg x i { d := .p, a := .s } fun c => c.setP i.d (c.getS i.a))

/-! VLD and VST (R160, R176; 08 R197). -/

/-- The address of thread t: sa + vb[t] + imm24. -/
def vAddr (c : Core) (i : Pk) (t : Nat) : Nat := (c.getS i.a + (c.getV i.b t).zeroExtend 64 + Pk.simm24 i).toNat

/-- The first fault among the acting threads, lowest thread first. -/
def State.vFault (s : State) (x : Nat) (c : Core) (i : Pk) (n : Nat) (write : Bool) : Option (Nat × Nat) :=
  (threadsOf (c.acting i)).findSome? fun t => (s.accessFault x .vector (vAddr c i t) n n write).map (·, vAddr c i t)

/-- The own-store key of a store address. -/
def State.vKey (s : State) (x addr : Nat) : Nat :=
  match s.locate x addr with
  | .store y o => stoKey y o
  | .spare y o => stoKey y o
  | _ => 0

/-- Each quarter counts the distinct lines it names in other cores' stores (08, STO_REMOTE; DEDUCED from R197). -/
def State.vRemote (s : State) (x : Nat) (c : Core) (i : Pk) : State :=
  s.each [0, 1, 2, 3] fun q s =>
    let lines := (((threadsOf (c.acting i)).filter (· / 16 == q)).map fun t => s.vKey x (vAddr c i t) / 64).eraseDups
    s.each (lines.filter (· / 16384 != x)) fun l s => s.countRemote x (l / 16384)

/-- VLD: poison of any thread is consumed; otherwise every acting thread loads. -/
def execPkVld (x : Fin 512) (i : Pk) (s : State) : Host.Outcome State Fault Refusal :=
  .next (s.peken x i { d := .v, a := .s, b := .v, imm := true, mods := [0, 1, 2, 4, 5], guarded := true, tgu := true } fun s c =>
    let n := 2 ^ (i.mod.val % 4)
    match s.vFault x c i n false with
    | some e => .fault e.1 0 e.2
    | none =>
      let key (t : Nat) : Nat := s.vKey x (vAddr c i t)
      let bad := (threadsOf (c.acting i)).find? fun t => s.stores.linePoison (key t / 64)
      let go (t : State) : Act :=
        .next ((t.vRemote x c i).setCore x (c.mapV i fun t => (loadExt (s.stores.rdN (key t) n) (decide (4 ≤ i.mod.val))).truncate 32))
      match bad with
      | some t => if c.job.isSome then .poison (s.poisonSpace x (vAddr c i t)) (vAddr c i t) else go (s.event (P.core x) 2)
      | none => go s)

/-- The threads in the order their stores apply: the free choice of which is last. -/
def vstOrder (m : Dword) : List Nat :=
  let k := Config.vstLast % 64
  threadsOf (m &&& (-1#64 <<< (k + 1))) ++ threadsOf (m &&& ~~~(-1#64 <<< (k + 1)))

/-- VST. -/
def execPkVst (x : Fin 512) (i : Pk) (s : State) : Host.Outcome State Fault Refusal :=
  .next (s.peken x i { d := .v, a := .s, b := .v, imm := true, mods := [0, 1, 2], guarded := true, tgu := true } fun s c =>
    let n := 2 ^ i.mod.val
    match s.vFault x c i n true with
    | some e => .fault e.1 0 e.2
    | none =>
      .next ((s.vRemote x c i).each (vstOrder (c.acting i)) fun t s =>
        { s with stores := s.stores.wr (s.vKey x (vAddr c i t)) (leBytes n (c.getV i.d t).toNat) false }))

/-! Cross-lane (R173). -/

/-- VSHFL. -/
def execPkVshfl (x : Fin 512) (i : Pk) (s : State) : Host.Outcome State Fault Refusal :=
  .next (s.pekenReg x i formVvv fun c => c.mapV i fun t => c.getV i.a ((c.getV i.b t).toNat % 64))

/-- The identity an inactive thread contributes, by the mod codes of VRED. -/
def redIdentity (m : Nat) : Word :=
  match m with
  | 0 => 0
  | 1 => 0x7FFFFFFF
  | 2 => 0x80000000
  | 3 => f32Zero true
  | 4 => f32Inf false
  | _ => f32Inf true

/-- The combining operation of VRED and VSCAN. -/
def redOp (fm m : Nat) (a b : Word) : Word × Nat :=
  match m with
  | 0 => (a + b, 0)
  | 1 => (if a.slt b then a else b, 0)
  | 2 => (if a.slt b then b else a, 0)
  | 3 => f32Add fm a b
  | 4 => f32Min fm a b
  | _ => f32Max fm a b

/-- The 64 leaves of a reduction. -/
def redLeaves (c : Core) (i : Pk) : List (Word × Nat) :=
  (List.range 64).map fun t => (if (c.acting i).getLsbD t then c.getV i.a t else redIdentity i.mod.val, 0)

/-- VRED. -/
def execPkVred (x : Fin 512) (i : Pk) (s : State) : Host.Outcome State Fault Refusal :=
  .next (s.pekenReg x i { d := .s, a := .v, mods := [0, 1, 2, 3, 4, 5], guarded := true, tgu := true } fun c =>
    let r := treeFold (withFlags (redOp c.fpmode i.mod.val)) (0, 0) 6 (redLeaves c i)
    { c.setS i.d (r.1.zeroExtend 64) with fpstat := c.fpstat ||| r.2 })

/-- VSCAN: the inclusive prefix, in the nodes of the same tree. -/
def execPkVscan (x : Fin 512) (i : Pk) (s : State) : Host.Outcome State Fault Refusal :=
  .next (s.pekenReg x i { formVv with mods := [0, 3] } fun c =>
    c.mapF i fun t => blockPrefix (withFlags (redOp c.fpmode i.mod.val)) (0, 0) 6 (t + 1) (redLeaves c i) none)

/-- VBCAST. -/
def execPkVbcast (x : Fin 512) (i : Pk) (s : State) : Host.Outcome State Fault Refusal :=
  .next (s.pekenReg x i { d := .v, a := .s, guarded := true, tgu := true } fun c => c.mapV i fun _ => (c.getS i.a).truncate 32)

/-- VTID. -/
def execPkVtid (x : Fin 512) (i : Pk) (s : State) : Host.Outcome State Fault Refusal :=
  .next (s.pekenReg x i { d := .v, guarded := true, tgu := true } fun c => c.mapV i fun t => BitVec.ofNat 32 t)

/-- VEXT. -/
def execPkVext (x : Fin 512) (i : Pk) (s : State) : Host.Outcome State Fault Refusal :=
  .next (s.pekenReg x i { d := .s, a := .v, b := .s, tgu := true } fun c =>
    c.setS i.d ((c.getV i.a ((c.getS i.b).toNat % 64)).zeroExtend 64))

/-- VINS, whatever the active mask. -/
def execPkVins (x : Fin 512) (i : Pk) (s : State) : Host.Outcome State Fault Refusal :=
  .next (s.pekenReg x i { d := .v, a := .s, b := .s, tgu := true } fun c =>
    c.setV i.d ((c.getS i.b).toNat % 64) ((c.getS i.a).truncate 32))

end Sys2Proof.Machine
end

