-- ==== Sys2Proof/Machine/Dispatch.lean ====
section
/-! DEFINITION. One arm per constructor of Instr: a direct call of the command's meaning, or a rejection by name. -/
namespace Sys2Proof.Machine

def exec (i : Instr) (s : State) : Host.Outcome State Fault Refusal :=
  match i with
  | .coldPowerOn => Sys2Proof.Machine.execColdPowerOn s
  | .bringupStepEnd j => Sys2Proof.Machine.execBringupStepEnd j s
  | .bootWatchdogExpiry w => Sys2Proof.Machine.execBootWatchdogExpiry w s
  | .bootConfigSpaceReady port => Sys2Proof.Machine.execBootConfigSpaceReady port s
  | .configRequest fn op => Sys2Proof.Machine.execConfigRequest fn op s
  | .bootPushGo rq => Sys2Proof.Machine.execBootPushGo rq s
  | .bootPushReadDone m => Sys2Proof.Machine.execBootPushReadDone m s
  | .coreBootFetch x first second => Sys2Proof.Machine.execCoreBootFetch x first second s
  | .sliceTrainingDone x ok => Sys2Proof.Machine.execSliceTrainingDone x ok s
  | .linkTraining l r => Sys2Proof.Machine.execLinkTraining l r s
  | .bridgeBurstReceive t d b => Sys2Proof.Machine.execBridgeBurstReceive t d b s
  | .bundleFlitReceive t hub f => Sys2Proof.Machine.execBundleFlitReceive t hub f s
  | .ackNakReceive e w => Sys2Proof.Machine.execAckNakReceive e w s
  | .replayTimerExpiry e => Sys2Proof.Machine.execReplayTimerExpiry e s
  | .replayLimitReached e => Sys2Proof.Machine.execReplayLimitReached e s
  | .fecThresholdExceeded t hub => Sys2Proof.Machine.execFecThresholdExceeded t hub s
  | .keepAliveSend e => Sys2Proof.Machine.execKeepAliveSend e s
  | .linkWatchdogExpiry e => Sys2Proof.Machine.execLinkWatchdogExpiry e s
  | .dclkLossReport x => Sys2Proof.Machine.execDclkLossReport x s
  | .linkDrainDone l => Sys2Proof.Machine.execLinkDrainDone l s
  | .linkRetrainDone l r => Sys2Proof.Machine.execLinkRetrainDone l r s
  | .linkRetrainTimeout l => Sys2Proof.Machine.execLinkRetrainTimeout l s
  | .lnkRetrain rq t d => Sys2Proof.Machine.execLnkRetrain rq t d s
  | .lnkForceDown rq t d v => Sys2Proof.Machine.execLnkForceDown rq t d v s
  | .lnkEnable rq t d v => Sys2Proof.Machine.execLnkEnable rq t d v s
  | .lnkClrCnt rq t d => Sys2Proof.Machine.execLnkClrCnt rq t d s
  | .serRetrain rq t hub => Sys2Proof.Machine.execSerRetrain rq t hub s
  | .serEnable rq t hub v => Sys2Proof.Machine.execSerEnable rq t hub v s
  | .serClrCnt rq t hub => Sys2Proof.Machine.execSerClrCnt rq t hub s
  | .routeSwitchResume t u => Sys2Proof.Machine.execRouteSwitchResume t u s
  | .tileLost t c => Sys2Proof.Machine.execTileLost t c s
  | .vclkLoss => Sys2Proof.Machine.execVclkLoss s
  | .hubClockLoss c => Sys2Proof.Machine.execHubClockLoss c s
  | .refclkLoss port => Sys2Proof.Machine.execRefclkLoss port s
  | .registerWrite src addr ws ep => Sys2Proof.Machine.execRegisterWrite src addr ws ep s
  | .errRearm rq pg => Sys2Proof.Machine.execErrRearm rq pg s
  | .errClr rq pg => Sys2Proof.Machine.execErrClr rq pg s
  | .intStsClear rq pg v => Sys2Proof.Machine.execIntStsClear rq pg v s
  | .intForce rq pg v => Sys2Proof.Machine.execIntForce rq pg v s
  | .pageLock rq pg => Sys2Proof.Machine.execPageLock rq pg s
  | .msixPendingSend fn vec => Sys2Proof.Machine.execMsixPendingSend fn vec s
  | .apertureWrite src off data ep => Sys2Proof.Machine.execApertureWrite src off data ep s
  | .apertureRead src off r => Sys2Proof.Machine.execApertureRead src off r s
  | .hamperWriteLand => Sys2Proof.Machine.execHamperWriteLand s
  | .tileHamperRequest x boot addr wr len => Sys2Proof.Machine.execTileHamperRequest x boot addr wr len s
  | .hmpAlloc rq => Sys2Proof.Machine.execHmpAlloc rq s
  | .hmpFree rq => Sys2Proof.Machine.execHmpFree rq s
  | .hamperClearDone => Sys2Proof.Machine.execHamperClearDone s
  | .hmpTqQuery rq n slot => Sys2Proof.Machine.execHmpTqQuery rq n slot s
  | .doorbell rq n q v => Sys2Proof.Machine.execDoorbell rq n q v s
  | .cqHeadWrite rq n q v => Sys2Proof.Machine.execCqHeadWrite rq n q v s
  | .descriptorFetch n q => Sys2Proof.Machine.execDescriptorFetch n q s
  | .dispatch p => Sys2Proof.Machine.execDispatch p s
  | .jobRun p => Sys2Proof.Machine.execJobRun p s
  | .jobFence n q => Sys2Proof.Machine.execJobFence n q s
  | .jobNop n q => Sys2Proof.Machine.execJobNop n q s
  | .jobLoad p => Sys2Proof.Machine.execJobLoad p s
  | .jobUnload p => Sys2Proof.Machine.execJobUnload p s
  | .jobCopy p xlate => Sys2Proof.Machine.execJobCopy p xlate s
  | .copyHostCompletion n q j off c => Sys2Proof.Machine.execCopyHostCompletion n q j off c s
  | .copyCompletionTimeout n q j => Sys2Proof.Machine.execCopyCompletionTimeout n q j s
  | .modelLoad x => Sys2Proof.Machine.execModelLoad x s
  | .cqCoalTimerExpiry n q => Sys2Proof.Machine.execCqCoalTimerExpiry n q s
  | .cqWriteFail n q => Sys2Proof.Machine.execCqWriteFail n q s
  | .tenantCancel rq n q all => Sys2Proof.Machine.execTenantCancel rq n q all s
  | .queueEnable rq n q cfg => Sys2Proof.Machine.execQueueEnable rq n q cfg s
  | .queueDisable rq n q cfg => Sys2Proof.Machine.execQueueDisable rq n q cfg s
  | .tenantBindWrite rq n v => Sys2Proof.Machine.execTenantBindWrite rq n v s
  | .tenantResetCmd rq n => Sys2Proof.Machine.execTenantResetCmd rq n s
  | .tenantReset n => Sys2Proof.Machine.execTenantReset n s
  | .tenantResetReport n => Sys2Proof.Machine.execTenantResetReport n s
  | .functionLevelReset fn => Sys2Proof.Machine.execFunctionLevelReset fn s
  | .vfEnableClear port => Sys2Proof.Machine.execVfEnableClear port s
  | .perstAssert port => Sys2Proof.Machine.execPerstAssert port s
  | .perstDeassert port => Sys2Proof.Machine.execPerstDeassert port s
  | .hostLinkDown port => Sys2Proof.Machine.execHostLinkDown port s
  | .hostLinkUp port rate width flit cxl => Sys2Proof.Machine.execHostLinkUp port rate width flit cxl s
  | .d3hotEnter port => Sys2Proof.Machine.execD3hotEnter port s
  | .d0Return port => Sys2Proof.Machine.execD0Return port s
  | .cxlMemAccess port off op => Sys2Proof.Machine.execCxlMemAccess port off op s
  | .pkNop x j => Sys2Proof.Machine.execPkNop x j s
  | .pkBr x j => Sys2Proof.Machine.execPkBr x j s
  | .pkBrc x j => Sys2Proof.Machine.execPkBrc x j s
  | .pkCall x j => Sys2Proof.Machine.execPkCall x j s
  | .pkJr x j => Sys2Proof.Machine.execPkJr x j s
  | .pkIf x j => Sys2Proof.Machine.execPkIf x j s
  | .pkElse x j => Sys2Proof.Machine.execPkElse x j s
  | .pkEndif x j => Sys2Proof.Machine.execPkEndif x j s
  | .pkLoop x j => Sys2Proof.Machine.execPkLoop x j s
  | .pkBrk x j => Sys2Proof.Machine.execPkBrk x j s
  | .pkEndloop x j => Sys2Proof.Machine.execPkEndloop x j s
  | .pkBrnone x j => Sys2Proof.Machine.execPkBrnone x j s
  | .pkTrap x j => Sys2Proof.Machine.execPkTrap x j s
  | .pkAdd x j => Sys2Proof.Machine.execPkAdd x j s
  | .pkSub x j => Sys2Proof.Machine.execPkSub x j s
  | .pkAnd x j => Sys2Proof.Machine.execPkAnd x j s
  | .pkOr x j => Sys2Proof.Machine.execPkOr x j s
  | .pkXor x j => Sys2Proof.Machine.execPkXor x j s
  | .pkShl x j => Sys2Proof.Machine.execPkShl x j s
  | .pkShr x j => Sys2Proof.Machine.execPkShr x j s
  | .pkSra x j => Sys2Proof.Machine.execPkSra x j s
  | .pkMul x j => Sys2Proof.Machine.execPkMul x j s
  | .pkMulhu x j => Sys2Proof.Machine.execPkMulhu x j s
  | .pkMin x j => Sys2Proof.Machine.execPkMin x j s
  | .pkMax x j => Sys2Proof.Machine.execPkMax x j s
  | .pkMinu x j => Sys2Proof.Machine.execPkMinu x j s
  | .pkMaxu x j => Sys2Proof.Machine.execPkMaxu x j s
  | .pkSlt x j => Sys2Proof.Machine.execPkSlt x j s
  | .pkSltu x j => Sys2Proof.Machine.execPkSltu x j s
  | .pkAddi x j => Sys2Proof.Machine.execPkAddi x j s
  | .pkAndi x j => Sys2Proof.Machine.execPkAndi x j s
  | .pkOri x j => Sys2Proof.Machine.execPkOri x j s
  | .pkXori x j => Sys2Proof.Machine.execPkXori x j s
  | .pkShli x j => Sys2Proof.Machine.execPkShli x j s
  | .pkShri x j => Sys2Proof.Machine.execPkShri x j s
  | .pkSrai x j => Sys2Proof.Machine.execPkSrai x j s
  | .pkLui x j => Sys2Proof.Machine.execPkLui x j s
  | .pkSlti x j => Sys2Proof.Machine.execPkSlti x j s
  | .pkCsrr x j => Sys2Proof.Machine.execPkCsrr x j s
  | .pkCsrw x j => Sys2Proof.Machine.execPkCsrw x j s
  | .pkLds x j => Sys2Proof.Machine.execPkLds x j s
  | .pkSts x j => Sys2Proof.Machine.execPkSts x j s
  | .pkVadd x j => Sys2Proof.Machine.execPkVadd x j s
  | .pkVsub x j => Sys2Proof.Machine.execPkVsub x j s
  | .pkVmul x j => Sys2Proof.Machine.execPkVmul x j s
  | .pkVmulhu x j => Sys2Proof.Machine.execPkVmulhu x j s
  | .pkVand x j => Sys2Proof.Machine.execPkVand x j s
  | .pkVor x j => Sys2Proof.Machine.execPkVor x j s
  | .pkVxor x j => Sys2Proof.Machine.execPkVxor x j s
  | .pkVshl x j => Sys2Proof.Machine.execPkVshl x j s
  | .pkVshr x j => Sys2Proof.Machine.execPkVshr x j s
  | .pkVsra x j => Sys2Proof.Machine.execPkVsra x j s
  | .pkVmin x j => Sys2Proof.Machine.execPkVmin x j s
  | .pkVmax x j => Sys2Proof.Machine.execPkVmax x j s
  | .pkVminu x j => Sys2Proof.Machine.execPkVminu x j s
  | .pkVmaxu x j => Sys2Proof.Machine.execPkVmaxu x j s
  | .pkVsel x j => Sys2Proof.Machine.execPkVsel x j s
  | .pkVmad x j => Sys2Proof.Machine.execPkVmad x j s
  | .pkVfadd x j => Sys2Proof.Machine.execPkVfadd x j s
  | .pkVfsub x j => Sys2Proof.Machine.execPkVfsub x j s
  | .pkVfmul x j => Sys2Proof.Machine.execPkVfmul x j s
  | .pkVfma x j => Sys2Proof.Machine.execPkVfma x j s
  | .pkVfmin x j => Sys2Proof.Machine.execPkVfmin x j s
  | .pkVfmax x j => Sys2Proof.Machine.execPkVfmax x j s
  | .pkVfrcp x j => Sys2Proof.Machine.execPkVfrcp x j s
  | .pkVfrsq x j => Sys2Proof.Machine.execPkVfrsq x j s
  | .pkVfexp2 x j => Sys2Proof.Machine.execPkVfexp2 x j s
  | .pkVflog2 x j => Sys2Proof.Machine.execPkVflog2 x j s
  | .pkVfsgn x j => Sys2Proof.Machine.execPkVfsgn x j s
  | .pkVcvt x j => Sys2Proof.Machine.execPkVcvt x j s
  | .pkVfrnd x j => Sys2Proof.Machine.execPkVfrnd x j s
  | .pkVicmp x j => Sys2Proof.Machine.execPkVicmp x j s
  | .pkVfcmp x j => Sys2Proof.Machine.execPkVfcmp x j s
  | .pkPand x j => Sys2Proof.Machine.execPkPand x j s
  | .pkPor x j => Sys2Proof.Machine.execPkPor x j s
  | .pkPxor x j => Sys2Proof.Machine.execPkPxor x j s
  | .pkPandn x j => Sys2Proof.Machine.execPkPandn x j s
  | .pkPany x j => Sys2Proof.Machine.execPkPany x j s
  | .pkPcnt x j => Sys2Proof.Machine.execPkPcnt x j s
  | .pkPtos x j => Sys2Proof.Machine.execPkPtos x j s
  | .pkStop x j => Sys2Proof.Machine.execPkStop x j s
  | .pkVld x j => Sys2Proof.Machine.execPkVld x j s
  | .pkVst x j => Sys2Proof.Machine.execPkVst x j s
  | .pkVshfl x j => Sys2Proof.Machine.execPkVshfl x j s
  | .pkVred x j => Sys2Proof.Machine.execPkVred x j s
  | .pkVscan x j => Sys2Proof.Machine.execPkVscan x j s
  | .pkVbcast x j => Sys2Proof.Machine.execPkVbcast x j s
  | .pkVtid x j => Sys2Proof.Machine.execPkVtid x j s
  | .pkVext x j => Sys2Proof.Machine.execPkVext x j s
  | .pkVins x j => Sys2Proof.Machine.execPkVins x j s
  | .pkMma x j => Sys2Proof.Machine.execPkMma x j s
  | .pkMscl x j => Sys2Proof.Machine.execPkMscl x j s
  | .pkMcvt x j => Sys2Proof.Machine.execPkMcvt x j s
  | .mxeOpComplete x => Sys2Proof.Machine.execMxeOpComplete x s
  | .pkMvl x j => Sys2Proof.Machine.execPkMvl x j s
  | .pkMvs x j => Sys2Proof.Machine.execPkMvs x j s
  | .pkMvg x j => Sys2Proof.Machine.execPkMvg x j s
  | .pkMvt x j => Sys2Proof.Machine.execPkMvt x j s
  | .pkMva x j => Sys2Proof.Machine.execPkMva x j s
  | .pkMcas x j => Sys2Proof.Machine.execPkMcas x j s
  | .moverOpStart x => Sys2Proof.Machine.execMoverOpStart x s
  | .moverOpComplete x k => Sys2Proof.Machine.execMoverOpComplete x k s
  | .pkAttn x j => Sys2Proof.Machine.execPkAttn x j s
  | .pkKvapp x j => Sys2Proof.Machine.execPkKvapp x j s
  | .pkKvop x j => Sys2Proof.Machine.execPkKvop x j s
  | .pkWait x j => Sys2Proof.Machine.execPkWait x j s
  | .pkWaita x j => Sys2Proof.Machine.execPkWaita x j s
  | .pkBar x j => Sys2Proof.Machine.execPkBar x j s
  | .pkMfence x j => Sys2Proof.Machine.execPkMfence x j s
  | .pkToks x j => Sys2Proof.Machine.execPkToks x j s
  | .pkRezq x j => Sys2Proof.Machine.execPkRezq x j s
  | .pkRezinv x j => Sys2Proof.Machine.execPkRezinv x j s
  | .pkJend x j => Sys2Proof.Machine.execPkJend x j s
  | .pkIdle x j => Sys2Proof.Machine.execPkIdle x j s
  | .rankEnd x energy => Sys2Proof.Machine.execRankEnd x energy s
  | .jobStop x => Sys2Proof.Machine.execJobStop x s
  | .hpcGrantWrite rq h v => Sys2Proof.Machine.execHpcGrantWrite rq h v s
  | .hpcStart rq h => Sys2Proof.Machine.execHpcStart rq h s
  | .hpcStop rq h => Sys2Proof.Machine.execHpcStop rq h s
  | .companionEcall h a7 a0 => Sys2Proof.Machine.execCompanionEcall h a7 a0 s
  | .companionException h c tval => Sys2Proof.Machine.execCompanionException h c tval s
  | .companionStopped h => Sys2Proof.Machine.execCompanionStopped h s
  | .spareAssignWrite rq x v => Sys2Proof.Machine.execSpareAssignWrite rq x v s
  | .spareAssignTakeEffect x => Sys2Proof.Machine.execSpareAssignTakeEffect x s
  | .sliceRequest x addr op ecc => Sys2Proof.Machine.execSliceRequest x addr op ecc s
  | .sliceBondError x => Sys2Proof.Machine.execSliceBondError x s
  | .sliceCalibration x ok => Sys2Proof.Machine.execSliceCalibration x ok s
  | .slcForceFail rq x => Sys2Proof.Machine.execSlcForceFail rq x s
  | .sliceRefresh x => Sys2Proof.Machine.execSliceRefresh x s
  | .refreshBandFall t => Sys2Proof.Machine.execRefreshBandFall t s
  | .kvopAlloc x => Sys2Proof.Machine.execKvopAlloc x s
  | .kvopIncref x => Sys2Proof.Machine.execKvopIncref x s
  | .kvopDecref x => Sys2Proof.Machine.execKvopDecref x s
  | .kvopFork x => Sys2Proof.Machine.execKvopFork x s
  | .kvopRelease x => Sys2Proof.Machine.execKvopRelease x s
  | .kvopInval x => Sys2Proof.Machine.execKvopInval x s
  | .kvopQuery x => Sys2Proof.Machine.execKvopQuery x s
  | .kvappExecute x => Sys2Proof.Machine.execKvappExecute x s
  | .attnExecute x => Sys2Proof.Machine.execAttnExecute x s
  | .kpmReclaimSweep n => Sys2Proof.Machine.execKpmReclaimSweep n s
  | .poolEnable rq p v => Sys2Proof.Machine.execPoolEnable rq p v s
  | .poolDisable rq p v => Sys2Proof.Machine.execPoolDisable rq p v s
  | .poolInitDone p => Sys2Proof.Machine.execPoolInitDone p s
  | .kvwFlush rq cl => Sys2Proof.Machine.execKvwFlush rq cl s
  | .datagramReceive n f => Sys2Proof.Machine.execDatagramReceive n f s
  | .streamHeadRead k => Sys2Proof.Machine.execStreamHeadRead k s
  | .sequenceGapTimeout k => Sys2Proof.Machine.execSequenceGapTimeout k s
  | .haltRepeat k => Sys2Proof.Machine.execHaltRepeat k s
  | .easeRepeat k => Sys2Proof.Machine.execEaseRepeat k s
  | .pfcRefresh n prio => Sys2Proof.Machine.execPfcRefresh n prio s
  | .pfcReceive n prio time => Sys2Proof.Machine.execPfcReceive n prio time s
  | .arpNsRequest n ns target => Sys2Proof.Machine.execArpNsRequest n ns target s
  | .ptpMessage n m => Sys2Proof.Machine.execPtpMessage n m s
  | .ethernetLinkDown n => Sys2Proof.Machine.execEthernetLinkDown n s
  | .ethernetLinkUp n => Sys2Proof.Machine.execEthernetLinkUp n s
  | .streamEnable rq k v => Sys2Proof.Machine.execStreamEnable rq k v s
  | .streamDisable rq k v => Sys2Proof.Machine.execStreamDisable rq k v s
  | .vceProducerPoll j => Sys2Proof.Machine.execVceProducerPoll j s
  | .vceEncode j => Sys2Proof.Machine.execVceEncode j s
  | .vceDecode j => Sys2Proof.Machine.execVceDecode j s
  | .encodePassDone j len qp => Sys2Proof.Machine.execEncodePassDone j len qp s
  | .vceSessionEnable rq j v => Sys2Proof.Machine.execVceSessionEnable rq j v s
  | .vceSessionDisable rq j v => Sys2Proof.Machine.execVceSessionDisable rq j v s
  | .vceBist rq n => Sys2Proof.Machine.execVceBist rq n s
  | .vceBistDone n pass => Sys2Proof.Machine.execVceBistDone n pass s
  | .vceEngineReset rq n => Sys2Proof.Machine.execVceEngineReset rq n s
  | .vceEngineFault n => Sys2Proof.Machine.execVceEngineFault n s
  | .vceOutputHeadRead j => Sys2Proof.Machine.execVceOutputHeadRead j s
  | .idleScrubLine cl ecc => Sys2Proof.Machine.execIdleScrubLine cl ecc s
  | .scrubLapLimit cl => Sys2Proof.Machine.execScrubLapLimit cl s
  | .patrolScrubStep x ecc => Sys2Proof.Machine.execPatrolScrubStep x ecc s
  | .ceWindowEnd m => Sys2Proof.Machine.execCeWindowEnd m s
  | .ceWindowWrite rq m v => Sys2Proof.Machine.execCeWindowWrite rq m v s
  | .memorySelfTest rq m v => Sys2Proof.Machine.execMemorySelfTest rq m v s
  | .selfTestDone m pass => Sys2Proof.Machine.execSelfTestDone m pass s
  | .faultLogClear rq n => Sys2Proof.Machine.execFaultLogClear rq n s
  | .coreReset rq target => Sys2Proof.Machine.execCoreReset rq target s
  | .clusterReset rq target => Sys2Proof.Machine.execClusterReset rq target s
  | .tileReset rq target => Sys2Proof.Machine.execTileReset rq target s
  | .partitionBuild rq p => Sys2Proof.Machine.execPartitionBuild rq p s
  | .partitionReset rq p => Sys2Proof.Machine.execPartitionReset rq p s
  | .partitionDissolve rq p => Sys2Proof.Machine.execPartitionDissolve rq p s
  | .resetAbsorbPoint scope target => Sys2Proof.Machine.execResetAbsorbPoint scope target s
  | .resetRestore scope target => Sys2Proof.Machine.execResetRestore scope target s
  | .deviceWarmReset rq key => Sys2Proof.Machine.execDeviceWarmReset rq key s
  | .oppChangeStart t => Sys2Proof.Machine.execOppChangeStart t s
  | .pllLocked t => Sys2Proof.Machine.execPllLocked t s
  | .vddTReached t => Sys2Proof.Machine.execVddTReached t s
  | .powerSample j => Sys2Proof.Machine.execPowerSample j s
  | .fastClampRelease t => Sys2Proof.Machine.execFastClampRelease t s
  | .powerLoopTick => Sys2Proof.Machine.execPowerLoopTick s
  | .pwrLimitWrite rq v => Sys2Proof.Machine.execPwrLimitWrite rq v s
  | .pwrTReqWrite rq t v => Sys2Proof.Machine.execPwrTReqWrite rq t v s
  | .domainRampStart t => Sys2Proof.Machine.execDomainRampStart t s
  | .rampStageDwell t dom => Sys2Proof.Machine.execRampStageDwell t dom s
  | .virtualRail90 t dom => Sys2Proof.Machine.execVirtualRail90 t dom s
  | .domainShort t dom rail => Sys2Proof.Machine.execDomainShort t dom rail s
  | .regulatorFault t under => Sys2Proof.Machine.execRegulatorFault t under s
  | .vinCoreLow => Sys2Proof.Machine.execVinCoreLow s
  | .vinCoreRestored => Sys2Proof.Machine.execVinCoreRestored s
  | .railLoss r => Sys2Proof.Machine.execRailLoss r s
  | .vddAoLoss => Sys2Proof.Machine.execVddAoLoss s
  | .thermalConversion die rs => Sys2Proof.Machine.execThermalConversion die rs s
  | .throttleStep t => Sys2Proof.Machine.execThrottleStep t s
  | .throttleReleaseStep t => Sys2Proof.Machine.execThrottleReleaseStep t s
  | .samplingBandDrop die => Sys2Proof.Machine.execSamplingBandDrop die s
  | .extNtcConversion k valid temp => Sys2Proof.Machine.execExtNtcConversion k valid temp s
  | .coolantOkHigh => Sys2Proof.Machine.execCoolantOkHigh s
  | .coolantOkRestored => Sys2Proof.Machine.execCoolantOkRestored s
  | .riseEvaluation => Sys2Proof.Machine.execRiseEvaluation s
  | .hubTHotRestored => Sys2Proof.Machine.execHubTHotRestored s
  | .floorRelease rq => Sys2Proof.Machine.execFloorRelease rq s
  | .coolingShutdown => Sys2Proof.Machine.execCoolingShutdown s
  | .coolingShutdownAbsorb => Sys2Proof.Machine.execCoolingShutdownAbsorb s
  | .thmCfgWrite rq v => Sys2Proof.Machine.execThmCfgWrite rq v s
  | .forecastPublish => Sys2Proof.Machine.execForecastPublish s
  | .cycleSnapshot => Sys2Proof.Machine.execCycleSnapshot s
  | .energyTableClear rq => Sys2Proof.Machine.execEnergyTableClear rq s
  | .mctpControl src op => Sys2Proof.Machine.execMctpControl src op s
  | .getNonce f => Sys2Proof.Machine.execGetNonce f s
  | .regRead f addr n => Sys2Proof.Machine.execRegRead f addr n s
  | .regWrite f addr ws => Sys2Proof.Machine.execRegWrite f addr ws s
  | .trailRead f slot n => Sys2Proof.Machine.execTrailRead f slot n s
  | .devReset f => Sys2Proof.Machine.execDevReset f s
  | .restart f => Sys2Proof.Machine.execRestart f s
  | .eventSub f eid => Sys2Proof.Machine.execEventSub f eid s
  | .ownerTransfer f g port => Sys2Proof.Machine.execOwnerTransfer f g port s
  | .fieldSubst f g tile cluster p => Sys2Proof.Machine.execFieldSubst f g tile cluster p s
  | .fieldMapClear f g => Sys2Proof.Machine.execFieldMapClear f g s
  | .svnCommit f g => Sys2Proof.Machine.execSvnCommit f g s
  | .keyRevoke f g slot => Sys2Proof.Machine.execKeyRevoke f g slot s
  | .debugChallenge f => Sys2Proof.Machine.execDebugChallenge f s
  | .debugUnlock f device nonce scope key sig => Sys2Proof.Machine.execDebugUnlock f device nonce scope key sig s
  | .nonceExpiry src => Sys2Proof.Machine.execNonceExpiry src s
  | .fuseWriteDone => Sys2Proof.Machine.execFuseWriteDone s
  | .pldmMonitorRequest src inst op => Sys2Proof.Machine.execPldmMonitorRequest src inst op s
  | .pldmUpdateComponent src inst comp => Sys2Proof.Machine.execPldmUpdateComponent src inst comp s
  | .pldmFirmwareData data => Sys2Proof.Machine.execPldmFirmwareData data s
  | .pldmVerifyComplete back => Sys2Proof.Machine.execPldmVerifyComplete back s
  | .pldmActivateFirmware src inst => Sys2Proof.Machine.execPldmActivateFirmware src inst s
  | .managementPush m => Sys2Proof.Machine.execManagementPush m s
  | .spdmRequest r op => Sys2Proof.Machine.execSpdmRequest r op s
  | .ideKmRequest port stream op => Sys2Proof.Machine.execIdeKmRequest port stream op s
  | .ideInsecure port stream => Sys2Proof.Machine.execIdeInsecure port stream s
  | .trailRecordCommit => Sys2Proof.Machine.execTrailRecordCommit s
  | .trlIdxWrite rq v => Sys2Proof.Machine.execTrlIdxWrite rq v s
  | .tapInstruction j => Sys2Proof.Machine.execTapInstruction j s
  | .resumeRepeat k => Sys2Proof.Machine.execResumeRepeat k s
  | .vceDecodeDone j r => Sys2Proof.Machine.execVceDecodeDone j r s
  | .atuCommandDone x => Sys2Proof.Machine.execAtuCommandDone x s
  | .ackIntervalTimer e => Sys2Proof.Machine.execAckIntervalTimer e s
  | .railRestored r => Sys2Proof.Machine.execRailRestored r s
  | .ueWindowEnd x => Sys2Proof.Machine.execUeWindowEnd x s
  | .registerRead src addr n => Sys2Proof.Machine.execRegisterRead src addr n s
  | .i3cAddressAssign a => Sys2Proof.Machine.execI3cAddressAssign a s
  | .tapReset => Sys2Proof.Machine.execTapReset s
  | .pfcPauseExpiry n prio => Sys2Proof.Machine.execPfcPauseExpiry n prio s

end Sys2Proof.Machine
end

