-- ==== Sys2Proof/Machine/Step.lean ====
section
/-! DEFINITION. The step: the command at the front of the queue runs on the state with the queue's rest; with an empty queue time passes. -/
namespace Sys2Proof.Machine

/-- Nothing is commanded: the block idles, and an amount of time passes that the spec does not fix, at least 1 ns (log entry 1). -/
def State.idle (s : State) : State := { s with now := s.now + 1 + Config.freeNat s.fresh, fresh := s.fresh + 1 }

/-- One step. -/
def step (s : State) : Host.Outcome State Fault Refusal :=
  match s.pending with
  | [] => .next s.idle
  | c :: rest => exec c { s with pending := rest }

/-- `s` with the command that a word spells at the front of its queue. -/
def State.withFetchWord (s : State) (nbits w : Nat) : State :=
  match decodeTableWord nbits w with
  | some c => { s with pending := c :: s.pending }
  | none => s

end Sys2Proof.Machine
end

