-- ==== Sys2Proof/Laws/State.lean ====
section
/-! SUPPORT. One lemma per field of the state and per update, so that no proof unfolds a record update. -/
namespace Sys2Proof.Machine

section setFld

variable (s : State) (pg : Nat) (f : Fld) (v : Nat)

@[simp] theorem State.setFld_now : (s.setFld pg f v).now = s.now := rfl
@[simp] theorem State.setFld_pending : (s.setFld pg f v).pending = s.pending := rfl
@[simp] theorem State.setFld_fresh : (s.setFld pg f v).fresh = s.fresh := rfl
@[simp] theorem State.setFld_regs : (s.setFld pg f v).regs = Tab.set resetFld s.regs (fkey pg f) (v % 2 ^ f.len) := rfl
@[simp] theorem State.setFld_outs : (s.setFld pg f v).outs = s.outs := rfl
@[simp] theorem State.setFld_fns : (s.setFld pg f v).fns = s.fns := rfl
@[simp] theorem State.setFld_ports : (s.setFld pg f v).ports = s.ports := rfl
@[simp] theorem State.setFld_ends : (s.setFld pg f v).ends = s.ends := rfl
@[simp] theorem State.setFld_routeHold : (s.setFld pg f v).routeHold = s.routeHold := rfl
@[simp] theorem State.setFld_trail : (s.setFld pg f v).trail = s.trail := rfl
@[simp] theorem State.setFld_board : (s.setFld pg f v).board = s.board := rfl
@[simp] theorem State.setFld_boot : (s.setFld pg f v).boot = s.boot := rfl
@[simp] theorem State.setFld_vclkLost : (s.setFld pg f v).vclkLost = s.vclkLost := rfl
@[simp] theorem State.setFld_devFailed : (s.setFld pg f v).devFailed = s.devFailed := rfl
@[simp] theorem State.setFld_hubOff : (s.setFld pg f v).hubOff = s.hubOff := rfl
@[simp] theorem State.setFld_hmp : (s.setFld pg f v).hmp = s.hmp := rfl
@[simp] theorem State.setFld_cmap : (s.setFld pg f v).cmap = s.cmap := rfl
@[simp] theorem State.setFld_hmpPend : (s.setFld pg f v).hmpPend = s.hmpPend := rfl
@[simp] theorem State.setFld_hmpClr : (s.setFld pg f v).hmpClr = s.hmpClr := rfl
@[simp] theorem State.setFld_tens : (s.setFld pg f v).tens = s.tens := rfl
@[simp] theorem State.setFld_queues : (s.setFld pg f v).queues = s.queues := rfl
@[simp] theorem State.setFld_order : (s.setFld pg f v).order = s.order := rfl
@[simp] theorem State.setFld_resid : (s.setFld pg f v).resid = s.resid := rfl
@[simp] theorem State.setFld_disps : (s.setFld pg f v).disps = s.disps := rfl
@[simp] theorem State.setFld_rsts : (s.setFld pg f v).rsts = s.rsts := rfl
@[simp] theorem State.setFld_cores : (s.setFld pg f v).cores = s.cores := rfl
@[simp] theorem State.setFld_jobs : (s.setFld pg f v).jobs = s.jobs := rfl
@[simp] theorem State.setFld_stores : (s.setFld pg f v).stores = s.stores := rfl
@[simp] theorem State.setFld_aoUp : (s.setFld pg f v).aoUp = s.aoUp := rfl
@[simp] theorem State.setFld_power : (s.setFld pg f v).power = s.power := rfl
@[simp] theorem State.setFld_thm : (s.setFld pg f v).thm = s.thm := rfl
@[simp] theorem State.setFld_mgt : (s.setFld pg f v).mgt = s.mgt := rfl
@[simp] theorem State.setFld_snaps : (s.setFld pg f v).snaps = s.snaps := rfl
@[simp] theorem State.setFld_slices : (s.setFld pg f v).slices = s.slices := rfl
@[simp] theorem State.setFld_pmem : (s.setFld pg f v).pmem = s.pmem := rfl
@[simp] theorem State.setFld_near : (s.setFld pg f v).near = s.near := rfl
@[simp] theorem State.setFld_ueWin : (s.setFld pg f v).ueWin = s.ueWin := rfl
@[simp] theorem State.setFld_ueSeen : (s.setFld pg f v).ueSeen = s.ueSeen := rfl
@[simp] theorem State.setFld_loads : (s.setFld pg f v).loads = s.loads := rfl
@[simp] theorem State.setFld_etab : (s.setFld pg f v).etab = s.etab := rfl
@[simp] theorem State.setFld_etClock : (s.setFld pg f v).etClock = s.etClock := rfl
@[simp] theorem State.setFld_hpcCause : (s.setFld pg f v).hpcCause = s.hpcCause := rfl
@[simp] theorem State.setFld_sparePend : (s.setFld pg f v).sparePend = s.sparePend := rfl
@[simp] theorem State.setFld_ptpOff : (s.setFld pg f v).ptpOff = s.ptpOff := rfl
@[simp] theorem State.setFld_held : (s.setFld pg f v).held = s.held := rfl
@[simp] theorem State.setFld_hubRst : (s.setFld pg f v).hubRst = s.hubRst := rfl
@[simp] theorem State.setFld_hpcResv : (s.setFld pg f v).hpcResv = s.hpcResv := rfl
@[simp] theorem State.setFld_transit : (s.setFld pg f v).transit = s.transit := rfl
@[simp] theorem State.setFld_ideSent : (s.setFld pg f v).ideSent = s.ideSent := rfl
@[simp] theorem State.setFld_bistCore : (s.setFld pg f v).bistCore = s.bistCore := rfl
@[simp] theorem State.setFld_bands : (s.setFld pg f v).bands = s.bands := rfl
@[simp] theorem State.setFld_labs : (s.setFld pg f v).labs = s.labs := rfl
@[simp] theorem State.setFld_kvFree : (s.setFld pg f v).kvFree = s.kvFree := rfl
@[simp] theorem State.setFld_kvQuar : (s.setFld pg f v).kvQuar = s.kvQuar := rfl
@[simp] theorem State.setFld_kvOwned : (s.setFld pg f v).kvOwned = s.kvOwned := rfl
@[simp] theorem State.setFld_kvUndef : (s.setFld pg f v).kvUndef = s.kvUndef := rfl
@[simp] theorem State.setFld_kvWins : (s.setFld pg f v).kvWins = s.kvWins := rfl
@[simp] theorem State.setFld_atuLast : (s.setFld pg f v).atuLast = s.atuLast := rfl
@[simp] theorem State.setFld_sks : (s.setFld pg f v).sks = s.sks := rfl
@[simp] theorem State.setFld_eths : (s.setFld pg f v).eths = s.eths := rfl
@[simp] theorem State.setFld_vcs : (s.setFld pg f v).vcs = s.vcs := rfl
@[simp] theorem State.setFld_vcLast : (s.setFld pg f v).vcLast = s.vcLast := rfl
@[simp] theorem State.setFld_scrubPos : (s.setFld pg f v).scrubPos = s.scrubPos := rfl
@[simp] theorem State.setFld_scrubStart : (s.setFld pg f v).scrubStart = s.scrubStart := rfl
@[simp] theorem State.setFld_ceStart : (s.setFld pg f v).ceStart = s.ceStart := rfl
@[simp] theorem State.setFld_subs : (s.setFld pg f v).subs = s.subs := rfl
@[simp] theorem State.setFld_ramps : (s.setFld pg f v).ramps = s.ramps := rfl
@[simp] theorem State.setFld_ptPend : (s.setFld pg f v).ptPend = s.ptPend := rfl

end setFld

section emit

variable (s : State) (o : Out)

@[simp] theorem State.emit_now : (s.emit o).now = s.now := rfl
@[simp] theorem State.emit_pending : (s.emit o).pending = s.pending := rfl
@[simp] theorem State.emit_fresh : (s.emit o).fresh = s.fresh := rfl
@[simp] theorem State.emit_regs : (s.emit o).regs = s.regs := rfl
@[simp] theorem State.emit_outs : (s.emit o).outs = o :: s.outs := rfl
@[simp] theorem State.emit_fns : (s.emit o).fns = s.fns := rfl
@[simp] theorem State.emit_ports : (s.emit o).ports = s.ports := rfl
@[simp] theorem State.emit_ends : (s.emit o).ends = s.ends := rfl
@[simp] theorem State.emit_routeHold : (s.emit o).routeHold = s.routeHold := rfl
@[simp] theorem State.emit_trail : (s.emit o).trail = s.trail := rfl
@[simp] theorem State.emit_board : (s.emit o).board = s.board := rfl
@[simp] theorem State.emit_boot : (s.emit o).boot = s.boot := rfl
@[simp] theorem State.emit_vclkLost : (s.emit o).vclkLost = s.vclkLost := rfl
@[simp] theorem State.emit_devFailed : (s.emit o).devFailed = s.devFailed := rfl
@[simp] theorem State.emit_hubOff : (s.emit o).hubOff = s.hubOff := rfl
@[simp] theorem State.emit_hmp : (s.emit o).hmp = s.hmp := rfl
@[simp] theorem State.emit_cmap : (s.emit o).cmap = s.cmap := rfl
@[simp] theorem State.emit_hmpPend : (s.emit o).hmpPend = s.hmpPend := rfl
@[simp] theorem State.emit_hmpClr : (s.emit o).hmpClr = s.hmpClr := rfl
@[simp] theorem State.emit_tens : (s.emit o).tens = s.tens := rfl
@[simp] theorem State.emit_queues : (s.emit o).queues = s.queues := rfl
@[simp] theorem State.emit_order : (s.emit o).order = s.order := rfl
@[simp] theorem State.emit_resid : (s.emit o).resid = s.resid := rfl
@[simp] theorem State.emit_disps : (s.emit o).disps = s.disps := rfl
@[simp] theorem State.emit_rsts : (s.emit o).rsts = s.rsts := rfl
@[simp] theorem State.emit_cores : (s.emit o).cores = s.cores := rfl
@[simp] theorem State.emit_jobs : (s.emit o).jobs = s.jobs := rfl
@[simp] theorem State.emit_stores : (s.emit o).stores = s.stores := rfl
@[simp] theorem State.emit_aoUp : (s.emit o).aoUp = s.aoUp := rfl
@[simp] theorem State.emit_power : (s.emit o).power = s.power := rfl
@[simp] theorem State.emit_thm : (s.emit o).thm = s.thm := rfl
@[simp] theorem State.emit_mgt : (s.emit o).mgt = s.mgt := rfl
@[simp] theorem State.emit_snaps : (s.emit o).snaps = s.snaps := rfl
@[simp] theorem State.emit_slices : (s.emit o).slices = s.slices := rfl
@[simp] theorem State.emit_pmem : (s.emit o).pmem = s.pmem := rfl
@[simp] theorem State.emit_near : (s.emit o).near = s.near := rfl
@[simp] theorem State.emit_ueWin : (s.emit o).ueWin = s.ueWin := rfl
@[simp] theorem State.emit_ueSeen : (s.emit o).ueSeen = s.ueSeen := rfl
@[simp] theorem State.emit_loads : (s.emit o).loads = s.loads := rfl
@[simp] theorem State.emit_etab : (s.emit o).etab = s.etab := rfl
@[simp] theorem State.emit_etClock : (s.emit o).etClock = s.etClock := rfl
@[simp] theorem State.emit_hpcCause : (s.emit o).hpcCause = s.hpcCause := rfl
@[simp] theorem State.emit_sparePend : (s.emit o).sparePend = s.sparePend := rfl
@[simp] theorem State.emit_ptpOff : (s.emit o).ptpOff = s.ptpOff := rfl
@[simp] theorem State.emit_held : (s.emit o).held = s.held := rfl
@[simp] theorem State.emit_hubRst : (s.emit o).hubRst = s.hubRst := rfl
@[simp] theorem State.emit_hpcResv : (s.emit o).hpcResv = s.hpcResv := rfl
@[simp] theorem State.emit_transit : (s.emit o).transit = s.transit ||| o.passes := rfl
@[simp] theorem State.emit_ideSent : (s.emit o).ideSent = s.ideNote o ++ s.ideSent := rfl
@[simp] theorem State.emit_bistCore : (s.emit o).bistCore = s.bistCore := rfl
@[simp] theorem State.emit_bands : (s.emit o).bands = s.bands := rfl
@[simp] theorem State.emit_labs : (s.emit o).labs = s.labs := rfl
@[simp] theorem State.emit_kvFree : (s.emit o).kvFree = s.kvFree := rfl
@[simp] theorem State.emit_kvQuar : (s.emit o).kvQuar = s.kvQuar := rfl
@[simp] theorem State.emit_kvOwned : (s.emit o).kvOwned = s.kvOwned := rfl
@[simp] theorem State.emit_kvUndef : (s.emit o).kvUndef = s.kvUndef := rfl
@[simp] theorem State.emit_kvWins : (s.emit o).kvWins = s.kvWins := rfl
@[simp] theorem State.emit_atuLast : (s.emit o).atuLast = s.atuLast := rfl
@[simp] theorem State.emit_sks : (s.emit o).sks = s.sks := rfl
@[simp] theorem State.emit_eths : (s.emit o).eths = s.eths := rfl
@[simp] theorem State.emit_vcs : (s.emit o).vcs = s.vcs := rfl
@[simp] theorem State.emit_vcLast : (s.emit o).vcLast = s.vcLast := rfl
@[simp] theorem State.emit_scrubPos : (s.emit o).scrubPos = s.scrubPos := rfl
@[simp] theorem State.emit_scrubStart : (s.emit o).scrubStart = s.scrubStart := rfl
@[simp] theorem State.emit_ceStart : (s.emit o).ceStart = s.ceStart := rfl
@[simp] theorem State.emit_subs : (s.emit o).subs = s.subs := rfl
@[simp] theorem State.emit_ramps : (s.emit o).ramps = s.ramps := rfl
@[simp] theorem State.emit_ptPend : (s.emit o).ptPend = s.ptPend := rfl

end emit

section tick

variable (s : State) 

@[simp] theorem State.tick_now : (s.tick).now = s.now := rfl
@[simp] theorem State.tick_pending : (s.tick).pending = s.pending := rfl
@[simp] theorem State.tick_fresh : (s.tick).fresh = s.fresh + 1 := rfl
@[simp] theorem State.tick_regs : (s.tick).regs = s.regs := rfl
@[simp] theorem State.tick_outs : (s.tick).outs = s.outs := rfl
@[simp] theorem State.tick_fns : (s.tick).fns = s.fns := rfl
@[simp] theorem State.tick_ports : (s.tick).ports = s.ports := rfl
@[simp] theorem State.tick_ends : (s.tick).ends = s.ends := rfl
@[simp] theorem State.tick_routeHold : (s.tick).routeHold = s.routeHold := rfl
@[simp] theorem State.tick_trail : (s.tick).trail = s.trail := rfl
@[simp] theorem State.tick_board : (s.tick).board = s.board := rfl
@[simp] theorem State.tick_boot : (s.tick).boot = s.boot := rfl
@[simp] theorem State.tick_vclkLost : (s.tick).vclkLost = s.vclkLost := rfl
@[simp] theorem State.tick_devFailed : (s.tick).devFailed = s.devFailed := rfl
@[simp] theorem State.tick_hubOff : (s.tick).hubOff = s.hubOff := rfl
@[simp] theorem State.tick_hmp : (s.tick).hmp = s.hmp := rfl
@[simp] theorem State.tick_cmap : (s.tick).cmap = s.cmap := rfl
@[simp] theorem State.tick_hmpPend : (s.tick).hmpPend = s.hmpPend := rfl
@[simp] theorem State.tick_hmpClr : (s.tick).hmpClr = s.hmpClr := rfl
@[simp] theorem State.tick_tens : (s.tick).tens = s.tens := rfl
@[simp] theorem State.tick_queues : (s.tick).queues = s.queues := rfl
@[simp] theorem State.tick_order : (s.tick).order = s.order := rfl
@[simp] theorem State.tick_resid : (s.tick).resid = s.resid := rfl
@[simp] theorem State.tick_disps : (s.tick).disps = s.disps := rfl
@[simp] theorem State.tick_rsts : (s.tick).rsts = s.rsts := rfl
@[simp] theorem State.tick_cores : (s.tick).cores = s.cores := rfl
@[simp] theorem State.tick_jobs : (s.tick).jobs = s.jobs := rfl
@[simp] theorem State.tick_stores : (s.tick).stores = s.stores := rfl
@[simp] theorem State.tick_aoUp : (s.tick).aoUp = s.aoUp := rfl
@[simp] theorem State.tick_power : (s.tick).power = s.power := rfl
@[simp] theorem State.tick_thm : (s.tick).thm = s.thm := rfl
@[simp] theorem State.tick_mgt : (s.tick).mgt = s.mgt := rfl
@[simp] theorem State.tick_snaps : (s.tick).snaps = s.snaps := rfl
@[simp] theorem State.tick_slices : (s.tick).slices = s.slices := rfl
@[simp] theorem State.tick_pmem : (s.tick).pmem = s.pmem := rfl
@[simp] theorem State.tick_near : (s.tick).near = s.near := rfl
@[simp] theorem State.tick_ueWin : (s.tick).ueWin = s.ueWin := rfl
@[simp] theorem State.tick_ueSeen : (s.tick).ueSeen = s.ueSeen := rfl
@[simp] theorem State.tick_loads : (s.tick).loads = s.loads := rfl
@[simp] theorem State.tick_etab : (s.tick).etab = s.etab := rfl
@[simp] theorem State.tick_etClock : (s.tick).etClock = s.etClock := rfl
@[simp] theorem State.tick_hpcCause : (s.tick).hpcCause = s.hpcCause := rfl
@[simp] theorem State.tick_sparePend : (s.tick).sparePend = s.sparePend := rfl
@[simp] theorem State.tick_ptpOff : (s.tick).ptpOff = s.ptpOff := rfl
@[simp] theorem State.tick_held : (s.tick).held = s.held := rfl
@[simp] theorem State.tick_hubRst : (s.tick).hubRst = s.hubRst := rfl
@[simp] theorem State.tick_hpcResv : (s.tick).hpcResv = s.hpcResv := rfl
@[simp] theorem State.tick_transit : (s.tick).transit = s.transit := rfl
@[simp] theorem State.tick_ideSent : (s.tick).ideSent = s.ideSent := rfl
@[simp] theorem State.tick_bistCore : (s.tick).bistCore = s.bistCore := rfl
@[simp] theorem State.tick_bands : (s.tick).bands = s.bands := rfl
@[simp] theorem State.tick_labs : (s.tick).labs = s.labs := rfl
@[simp] theorem State.tick_kvFree : (s.tick).kvFree = s.kvFree := rfl
@[simp] theorem State.tick_kvQuar : (s.tick).kvQuar = s.kvQuar := rfl
@[simp] theorem State.tick_kvOwned : (s.tick).kvOwned = s.kvOwned := rfl
@[simp] theorem State.tick_kvUndef : (s.tick).kvUndef = s.kvUndef := rfl
@[simp] theorem State.tick_kvWins : (s.tick).kvWins = s.kvWins := rfl
@[simp] theorem State.tick_atuLast : (s.tick).atuLast = s.atuLast := rfl
@[simp] theorem State.tick_sks : (s.tick).sks = s.sks := rfl
@[simp] theorem State.tick_eths : (s.tick).eths = s.eths := rfl
@[simp] theorem State.tick_vcs : (s.tick).vcs = s.vcs := rfl
@[simp] theorem State.tick_vcLast : (s.tick).vcLast = s.vcLast := rfl
@[simp] theorem State.tick_scrubPos : (s.tick).scrubPos = s.scrubPos := rfl
@[simp] theorem State.tick_scrubStart : (s.tick).scrubStart = s.scrubStart := rfl
@[simp] theorem State.tick_ceStart : (s.tick).ceStart = s.ceStart := rfl
@[simp] theorem State.tick_subs : (s.tick).subs = s.subs := rfl
@[simp] theorem State.tick_ramps : (s.tick).ramps = s.ramps := rfl
@[simp] theorem State.tick_ptPend : (s.tick).ptPend = s.ptPend := rfl

end tick

section setFn

variable (s : State) (k : Nat) (v : FnSt)

@[simp] theorem State.setFn_now : (s.setFn k v).now = s.now := rfl
@[simp] theorem State.setFn_pending : (s.setFn k v).pending = s.pending := rfl
@[simp] theorem State.setFn_fresh : (s.setFn k v).fresh = s.fresh := rfl
@[simp] theorem State.setFn_regs : (s.setFn k v).regs = s.regs := rfl
@[simp] theorem State.setFn_outs : (s.setFn k v).outs = s.outs := rfl
@[simp] theorem State.setFn_ports : (s.setFn k v).ports = s.ports := rfl
@[simp] theorem State.setFn_ends : (s.setFn k v).ends = s.ends := rfl
@[simp] theorem State.setFn_routeHold : (s.setFn k v).routeHold = s.routeHold := rfl
@[simp] theorem State.setFn_trail : (s.setFn k v).trail = s.trail := rfl
@[simp] theorem State.setFn_board : (s.setFn k v).board = s.board := rfl
@[simp] theorem State.setFn_boot : (s.setFn k v).boot = s.boot := rfl
@[simp] theorem State.setFn_vclkLost : (s.setFn k v).vclkLost = s.vclkLost := rfl
@[simp] theorem State.setFn_devFailed : (s.setFn k v).devFailed = s.devFailed := rfl
@[simp] theorem State.setFn_hubOff : (s.setFn k v).hubOff = s.hubOff := rfl
@[simp] theorem State.setFn_hmp : (s.setFn k v).hmp = s.hmp := rfl
@[simp] theorem State.setFn_cmap : (s.setFn k v).cmap = s.cmap := rfl
@[simp] theorem State.setFn_hmpPend : (s.setFn k v).hmpPend = s.hmpPend := rfl
@[simp] theorem State.setFn_hmpClr : (s.setFn k v).hmpClr = s.hmpClr := rfl
@[simp] theorem State.setFn_tens : (s.setFn k v).tens = s.tens := rfl
@[simp] theorem State.setFn_queues : (s.setFn k v).queues = s.queues := rfl
@[simp] theorem State.setFn_order : (s.setFn k v).order = s.order := rfl
@[simp] theorem State.setFn_resid : (s.setFn k v).resid = s.resid := rfl
@[simp] theorem State.setFn_disps : (s.setFn k v).disps = s.disps := rfl
@[simp] theorem State.setFn_rsts : (s.setFn k v).rsts = s.rsts := rfl
@[simp] theorem State.setFn_cores : (s.setFn k v).cores = s.cores := rfl
@[simp] theorem State.setFn_jobs : (s.setFn k v).jobs = s.jobs := rfl
@[simp] theorem State.setFn_stores : (s.setFn k v).stores = s.stores := rfl
@[simp] theorem State.setFn_aoUp : (s.setFn k v).aoUp = s.aoUp := rfl
@[simp] theorem State.setFn_power : (s.setFn k v).power = s.power := rfl
@[simp] theorem State.setFn_thm : (s.setFn k v).thm = s.thm := rfl
@[simp] theorem State.setFn_mgt : (s.setFn k v).mgt = s.mgt := rfl
@[simp] theorem State.setFn_snaps : (s.setFn k v).snaps = s.snaps := rfl
@[simp] theorem State.setFn_slices : (s.setFn k v).slices = s.slices := rfl
@[simp] theorem State.setFn_pmem : (s.setFn k v).pmem = s.pmem := rfl
@[simp] theorem State.setFn_near : (s.setFn k v).near = s.near := rfl
@[simp] theorem State.setFn_ueWin : (s.setFn k v).ueWin = s.ueWin := rfl
@[simp] theorem State.setFn_ueSeen : (s.setFn k v).ueSeen = s.ueSeen := rfl
@[simp] theorem State.setFn_loads : (s.setFn k v).loads = s.loads := rfl
@[simp] theorem State.setFn_etab : (s.setFn k v).etab = s.etab := rfl
@[simp] theorem State.setFn_etClock : (s.setFn k v).etClock = s.etClock := rfl
@[simp] theorem State.setFn_hpcCause : (s.setFn k v).hpcCause = s.hpcCause := rfl
@[simp] theorem State.setFn_sparePend : (s.setFn k v).sparePend = s.sparePend := rfl
@[simp] theorem State.setFn_ptpOff : (s.setFn k v).ptpOff = s.ptpOff := rfl
@[simp] theorem State.setFn_held : (s.setFn k v).held = s.held := rfl
@[simp] theorem State.setFn_hubRst : (s.setFn k v).hubRst = s.hubRst := rfl
@[simp] theorem State.setFn_hpcResv : (s.setFn k v).hpcResv = s.hpcResv := rfl
@[simp] theorem State.setFn_transit : (s.setFn k v).transit = s.transit := rfl
@[simp] theorem State.setFn_ideSent : (s.setFn k v).ideSent = s.ideSent := rfl
@[simp] theorem State.setFn_bistCore : (s.setFn k v).bistCore = s.bistCore := rfl
@[simp] theorem State.setFn_bands : (s.setFn k v).bands = s.bands := rfl
@[simp] theorem State.setFn_labs : (s.setFn k v).labs = s.labs := rfl
@[simp] theorem State.setFn_kvFree : (s.setFn k v).kvFree = s.kvFree := rfl
@[simp] theorem State.setFn_kvQuar : (s.setFn k v).kvQuar = s.kvQuar := rfl
@[simp] theorem State.setFn_kvOwned : (s.setFn k v).kvOwned = s.kvOwned := rfl
@[simp] theorem State.setFn_kvUndef : (s.setFn k v).kvUndef = s.kvUndef := rfl
@[simp] theorem State.setFn_kvWins : (s.setFn k v).kvWins = s.kvWins := rfl
@[simp] theorem State.setFn_atuLast : (s.setFn k v).atuLast = s.atuLast := rfl
@[simp] theorem State.setFn_sks : (s.setFn k v).sks = s.sks := rfl
@[simp] theorem State.setFn_eths : (s.setFn k v).eths = s.eths := rfl
@[simp] theorem State.setFn_vcs : (s.setFn k v).vcs = s.vcs := rfl
@[simp] theorem State.setFn_vcLast : (s.setFn k v).vcLast = s.vcLast := rfl
@[simp] theorem State.setFn_scrubPos : (s.setFn k v).scrubPos = s.scrubPos := rfl
@[simp] theorem State.setFn_scrubStart : (s.setFn k v).scrubStart = s.scrubStart := rfl
@[simp] theorem State.setFn_ceStart : (s.setFn k v).ceStart = s.ceStart := rfl
@[simp] theorem State.setFn_subs : (s.setFn k v).subs = s.subs := rfl
@[simp] theorem State.setFn_ramps : (s.setFn k v).ramps = s.ramps := rfl
@[simp] theorem State.setFn_ptPend : (s.setFn k v).ptPend = s.ptPend := rfl

end setFn

section setPort

variable (s : State) (k : Nat) (v : Port)

@[simp] theorem State.setPort_now : (s.setPort k v).now = s.now := rfl
@[simp] theorem State.setPort_pending : (s.setPort k v).pending = s.pending := rfl
@[simp] theorem State.setPort_fresh : (s.setPort k v).fresh = s.fresh := rfl
@[simp] theorem State.setPort_regs : (s.setPort k v).regs = s.regs := rfl
@[simp] theorem State.setPort_outs : (s.setPort k v).outs = s.outs := rfl
@[simp] theorem State.setPort_fns : (s.setPort k v).fns = s.fns := rfl
@[simp] theorem State.setPort_ends : (s.setPort k v).ends = s.ends := rfl
@[simp] theorem State.setPort_routeHold : (s.setPort k v).routeHold = s.routeHold := rfl
@[simp] theorem State.setPort_trail : (s.setPort k v).trail = s.trail := rfl
@[simp] theorem State.setPort_board : (s.setPort k v).board = s.board := rfl
@[simp] theorem State.setPort_boot : (s.setPort k v).boot = s.boot := rfl
@[simp] theorem State.setPort_vclkLost : (s.setPort k v).vclkLost = s.vclkLost := rfl
@[simp] theorem State.setPort_devFailed : (s.setPort k v).devFailed = s.devFailed := rfl
@[simp] theorem State.setPort_hubOff : (s.setPort k v).hubOff = s.hubOff := rfl
@[simp] theorem State.setPort_hmp : (s.setPort k v).hmp = s.hmp := rfl
@[simp] theorem State.setPort_cmap : (s.setPort k v).cmap = s.cmap := rfl
@[simp] theorem State.setPort_hmpPend : (s.setPort k v).hmpPend = s.hmpPend := rfl
@[simp] theorem State.setPort_hmpClr : (s.setPort k v).hmpClr = s.hmpClr := rfl
@[simp] theorem State.setPort_tens : (s.setPort k v).tens = s.tens := rfl
@[simp] theorem State.setPort_queues : (s.setPort k v).queues = s.queues := rfl
@[simp] theorem State.setPort_order : (s.setPort k v).order = s.order := rfl
@[simp] theorem State.setPort_resid : (s.setPort k v).resid = s.resid := rfl
@[simp] theorem State.setPort_disps : (s.setPort k v).disps = s.disps := rfl
@[simp] theorem State.setPort_rsts : (s.setPort k v).rsts = s.rsts := rfl
@[simp] theorem State.setPort_cores : (s.setPort k v).cores = s.cores := rfl
@[simp] theorem State.setPort_jobs : (s.setPort k v).jobs = s.jobs := rfl
@[simp] theorem State.setPort_stores : (s.setPort k v).stores = s.stores := rfl
@[simp] theorem State.setPort_aoUp : (s.setPort k v).aoUp = s.aoUp := rfl
@[simp] theorem State.setPort_power : (s.setPort k v).power = s.power := rfl
@[simp] theorem State.setPort_thm : (s.setPort k v).thm = s.thm := rfl
@[simp] theorem State.setPort_mgt : (s.setPort k v).mgt = s.mgt := rfl
@[simp] theorem State.setPort_snaps : (s.setPort k v).snaps = s.snaps := rfl
@[simp] theorem State.setPort_slices : (s.setPort k v).slices = s.slices := rfl
@[simp] theorem State.setPort_pmem : (s.setPort k v).pmem = s.pmem := rfl
@[simp] theorem State.setPort_near : (s.setPort k v).near = s.near := rfl
@[simp] theorem State.setPort_ueWin : (s.setPort k v).ueWin = s.ueWin := rfl
@[simp] theorem State.setPort_ueSeen : (s.setPort k v).ueSeen = s.ueSeen := rfl
@[simp] theorem State.setPort_loads : (s.setPort k v).loads = s.loads := rfl
@[simp] theorem State.setPort_etab : (s.setPort k v).etab = s.etab := rfl
@[simp] theorem State.setPort_etClock : (s.setPort k v).etClock = s.etClock := rfl
@[simp] theorem State.setPort_hpcCause : (s.setPort k v).hpcCause = s.hpcCause := rfl
@[simp] theorem State.setPort_sparePend : (s.setPort k v).sparePend = s.sparePend := rfl
@[simp] theorem State.setPort_ptpOff : (s.setPort k v).ptpOff = s.ptpOff := rfl
@[simp] theorem State.setPort_held : (s.setPort k v).held = s.held := rfl
@[simp] theorem State.setPort_hubRst : (s.setPort k v).hubRst = s.hubRst := rfl
@[simp] theorem State.setPort_hpcResv : (s.setPort k v).hpcResv = s.hpcResv := rfl
@[simp] theorem State.setPort_transit : (s.setPort k v).transit = s.transit := rfl
@[simp] theorem State.setPort_ideSent : (s.setPort k v).ideSent = s.ideSent := rfl
@[simp] theorem State.setPort_bistCore : (s.setPort k v).bistCore = s.bistCore := rfl
@[simp] theorem State.setPort_bands : (s.setPort k v).bands = s.bands := rfl
@[simp] theorem State.setPort_labs : (s.setPort k v).labs = s.labs := rfl
@[simp] theorem State.setPort_kvFree : (s.setPort k v).kvFree = s.kvFree := rfl
@[simp] theorem State.setPort_kvQuar : (s.setPort k v).kvQuar = s.kvQuar := rfl
@[simp] theorem State.setPort_kvOwned : (s.setPort k v).kvOwned = s.kvOwned := rfl
@[simp] theorem State.setPort_kvUndef : (s.setPort k v).kvUndef = s.kvUndef := rfl
@[simp] theorem State.setPort_kvWins : (s.setPort k v).kvWins = s.kvWins := rfl
@[simp] theorem State.setPort_atuLast : (s.setPort k v).atuLast = s.atuLast := rfl
@[simp] theorem State.setPort_sks : (s.setPort k v).sks = s.sks := rfl
@[simp] theorem State.setPort_eths : (s.setPort k v).eths = s.eths := rfl
@[simp] theorem State.setPort_vcs : (s.setPort k v).vcs = s.vcs := rfl
@[simp] theorem State.setPort_vcLast : (s.setPort k v).vcLast = s.vcLast := rfl
@[simp] theorem State.setPort_scrubPos : (s.setPort k v).scrubPos = s.scrubPos := rfl
@[simp] theorem State.setPort_scrubStart : (s.setPort k v).scrubStart = s.scrubStart := rfl
@[simp] theorem State.setPort_ceStart : (s.setPort k v).ceStart = s.ceStart := rfl
@[simp] theorem State.setPort_subs : (s.setPort k v).subs = s.subs := rfl
@[simp] theorem State.setPort_ramps : (s.setPort k v).ramps = s.ramps := rfl
@[simp] theorem State.setPort_ptPend : (s.setPort k v).ptPend = s.ptPend := rfl

end setPort

section setLend

variable (s : State) (k : Nat) (v : LinkEnd)

@[simp] theorem State.setLend_now : (s.setLend k v).now = s.now := rfl
@[simp] theorem State.setLend_pending : (s.setLend k v).pending = s.pending := rfl
@[simp] theorem State.setLend_fresh : (s.setLend k v).fresh = s.fresh := rfl
@[simp] theorem State.setLend_regs : (s.setLend k v).regs = s.regs := rfl
@[simp] theorem State.setLend_outs : (s.setLend k v).outs = s.outs := rfl
@[simp] theorem State.setLend_fns : (s.setLend k v).fns = s.fns := rfl
@[simp] theorem State.setLend_ports : (s.setLend k v).ports = s.ports := rfl
@[simp] theorem State.setLend_routeHold : (s.setLend k v).routeHold = s.routeHold := rfl
@[simp] theorem State.setLend_trail : (s.setLend k v).trail = s.trail := rfl
@[simp] theorem State.setLend_board : (s.setLend k v).board = s.board := rfl
@[simp] theorem State.setLend_boot : (s.setLend k v).boot = s.boot := rfl
@[simp] theorem State.setLend_vclkLost : (s.setLend k v).vclkLost = s.vclkLost := rfl
@[simp] theorem State.setLend_devFailed : (s.setLend k v).devFailed = s.devFailed := rfl
@[simp] theorem State.setLend_hubOff : (s.setLend k v).hubOff = s.hubOff := rfl
@[simp] theorem State.setLend_hmp : (s.setLend k v).hmp = s.hmp := rfl
@[simp] theorem State.setLend_cmap : (s.setLend k v).cmap = s.cmap := rfl
@[simp] theorem State.setLend_hmpPend : (s.setLend k v).hmpPend = s.hmpPend := rfl
@[simp] theorem State.setLend_hmpClr : (s.setLend k v).hmpClr = s.hmpClr := rfl
@[simp] theorem State.setLend_tens : (s.setLend k v).tens = s.tens := rfl
@[simp] theorem State.setLend_queues : (s.setLend k v).queues = s.queues := rfl
@[simp] theorem State.setLend_order : (s.setLend k v).order = s.order := rfl
@[simp] theorem State.setLend_resid : (s.setLend k v).resid = s.resid := rfl
@[simp] theorem State.setLend_disps : (s.setLend k v).disps = s.disps := rfl
@[simp] theorem State.setLend_rsts : (s.setLend k v).rsts = s.rsts := rfl
@[simp] theorem State.setLend_cores : (s.setLend k v).cores = s.cores := rfl
@[simp] theorem State.setLend_jobs : (s.setLend k v).jobs = s.jobs := rfl
@[simp] theorem State.setLend_stores : (s.setLend k v).stores = s.stores := rfl
@[simp] theorem State.setLend_aoUp : (s.setLend k v).aoUp = s.aoUp := rfl
@[simp] theorem State.setLend_power : (s.setLend k v).power = s.power := rfl
@[simp] theorem State.setLend_thm : (s.setLend k v).thm = s.thm := rfl
@[simp] theorem State.setLend_mgt : (s.setLend k v).mgt = s.mgt := rfl
@[simp] theorem State.setLend_snaps : (s.setLend k v).snaps = s.snaps := rfl
@[simp] theorem State.setLend_slices : (s.setLend k v).slices = s.slices := rfl
@[simp] theorem State.setLend_pmem : (s.setLend k v).pmem = s.pmem := rfl
@[simp] theorem State.setLend_near : (s.setLend k v).near = s.near := rfl
@[simp] theorem State.setLend_ueWin : (s.setLend k v).ueWin = s.ueWin := rfl
@[simp] theorem State.setLend_ueSeen : (s.setLend k v).ueSeen = s.ueSeen := rfl
@[simp] theorem State.setLend_loads : (s.setLend k v).loads = s.loads := rfl
@[simp] theorem State.setLend_etab : (s.setLend k v).etab = s.etab := rfl
@[simp] theorem State.setLend_etClock : (s.setLend k v).etClock = s.etClock := rfl
@[simp] theorem State.setLend_hpcCause : (s.setLend k v).hpcCause = s.hpcCause := rfl
@[simp] theorem State.setLend_sparePend : (s.setLend k v).sparePend = s.sparePend := rfl
@[simp] theorem State.setLend_ptpOff : (s.setLend k v).ptpOff = s.ptpOff := rfl
@[simp] theorem State.setLend_held : (s.setLend k v).held = s.held := rfl
@[simp] theorem State.setLend_hubRst : (s.setLend k v).hubRst = s.hubRst := rfl
@[simp] theorem State.setLend_hpcResv : (s.setLend k v).hpcResv = s.hpcResv := rfl
@[simp] theorem State.setLend_transit : (s.setLend k v).transit = s.transit := rfl
@[simp] theorem State.setLend_ideSent : (s.setLend k v).ideSent = s.ideSent := rfl
@[simp] theorem State.setLend_bistCore : (s.setLend k v).bistCore = s.bistCore := rfl
@[simp] theorem State.setLend_bands : (s.setLend k v).bands = s.bands := rfl
@[simp] theorem State.setLend_labs : (s.setLend k v).labs = s.labs := rfl
@[simp] theorem State.setLend_kvFree : (s.setLend k v).kvFree = s.kvFree := rfl
@[simp] theorem State.setLend_kvQuar : (s.setLend k v).kvQuar = s.kvQuar := rfl
@[simp] theorem State.setLend_kvOwned : (s.setLend k v).kvOwned = s.kvOwned := rfl
@[simp] theorem State.setLend_kvUndef : (s.setLend k v).kvUndef = s.kvUndef := rfl
@[simp] theorem State.setLend_kvWins : (s.setLend k v).kvWins = s.kvWins := rfl
@[simp] theorem State.setLend_atuLast : (s.setLend k v).atuLast = s.atuLast := rfl
@[simp] theorem State.setLend_sks : (s.setLend k v).sks = s.sks := rfl
@[simp] theorem State.setLend_eths : (s.setLend k v).eths = s.eths := rfl
@[simp] theorem State.setLend_vcs : (s.setLend k v).vcs = s.vcs := rfl
@[simp] theorem State.setLend_vcLast : (s.setLend k v).vcLast = s.vcLast := rfl
@[simp] theorem State.setLend_scrubPos : (s.setLend k v).scrubPos = s.scrubPos := rfl
@[simp] theorem State.setLend_scrubStart : (s.setLend k v).scrubStart = s.scrubStart := rfl
@[simp] theorem State.setLend_ceStart : (s.setLend k v).ceStart = s.ceStart := rfl
@[simp] theorem State.setLend_subs : (s.setLend k v).subs = s.subs := rfl
@[simp] theorem State.setLend_ramps : (s.setLend k v).ramps = s.ramps := rfl
@[simp] theorem State.setLend_ptPend : (s.setLend k v).ptPend = s.ptPend := rfl

end setLend

section setTen

variable (s : State) (k : Nat) (v : TenSt)

@[simp] theorem State.setTen_now : (s.setTen k v).now = s.now := rfl
@[simp] theorem State.setTen_pending : (s.setTen k v).pending = s.pending := rfl
@[simp] theorem State.setTen_fresh : (s.setTen k v).fresh = s.fresh := rfl
@[simp] theorem State.setTen_regs : (s.setTen k v).regs = s.regs := rfl
@[simp] theorem State.setTen_outs : (s.setTen k v).outs = s.outs := rfl
@[simp] theorem State.setTen_fns : (s.setTen k v).fns = s.fns := rfl
@[simp] theorem State.setTen_ports : (s.setTen k v).ports = s.ports := rfl
@[simp] theorem State.setTen_ends : (s.setTen k v).ends = s.ends := rfl
@[simp] theorem State.setTen_routeHold : (s.setTen k v).routeHold = s.routeHold := rfl
@[simp] theorem State.setTen_trail : (s.setTen k v).trail = s.trail := rfl
@[simp] theorem State.setTen_board : (s.setTen k v).board = s.board := rfl
@[simp] theorem State.setTen_boot : (s.setTen k v).boot = s.boot := rfl
@[simp] theorem State.setTen_vclkLost : (s.setTen k v).vclkLost = s.vclkLost := rfl
@[simp] theorem State.setTen_devFailed : (s.setTen k v).devFailed = s.devFailed := rfl
@[simp] theorem State.setTen_hubOff : (s.setTen k v).hubOff = s.hubOff := rfl
@[simp] theorem State.setTen_hmp : (s.setTen k v).hmp = s.hmp := rfl
@[simp] theorem State.setTen_cmap : (s.setTen k v).cmap = s.cmap := rfl
@[simp] theorem State.setTen_hmpPend : (s.setTen k v).hmpPend = s.hmpPend := rfl
@[simp] theorem State.setTen_hmpClr : (s.setTen k v).hmpClr = s.hmpClr := rfl
@[simp] theorem State.setTen_queues : (s.setTen k v).queues = s.queues := rfl
@[simp] theorem State.setTen_order : (s.setTen k v).order = s.order := rfl
@[simp] theorem State.setTen_resid : (s.setTen k v).resid = s.resid := rfl
@[simp] theorem State.setTen_disps : (s.setTen k v).disps = s.disps := rfl
@[simp] theorem State.setTen_rsts : (s.setTen k v).rsts = s.rsts := rfl
@[simp] theorem State.setTen_cores : (s.setTen k v).cores = s.cores := rfl
@[simp] theorem State.setTen_jobs : (s.setTen k v).jobs = s.jobs := rfl
@[simp] theorem State.setTen_stores : (s.setTen k v).stores = s.stores := rfl
@[simp] theorem State.setTen_aoUp : (s.setTen k v).aoUp = s.aoUp := rfl
@[simp] theorem State.setTen_power : (s.setTen k v).power = s.power := rfl
@[simp] theorem State.setTen_thm : (s.setTen k v).thm = s.thm := rfl
@[simp] theorem State.setTen_mgt : (s.setTen k v).mgt = s.mgt := rfl
@[simp] theorem State.setTen_snaps : (s.setTen k v).snaps = s.snaps := rfl
@[simp] theorem State.setTen_slices : (s.setTen k v).slices = s.slices := rfl
@[simp] theorem State.setTen_pmem : (s.setTen k v).pmem = s.pmem := rfl
@[simp] theorem State.setTen_near : (s.setTen k v).near = s.near := rfl
@[simp] theorem State.setTen_ueWin : (s.setTen k v).ueWin = s.ueWin := rfl
@[simp] theorem State.setTen_ueSeen : (s.setTen k v).ueSeen = s.ueSeen := rfl
@[simp] theorem State.setTen_loads : (s.setTen k v).loads = s.loads := rfl
@[simp] theorem State.setTen_etab : (s.setTen k v).etab = s.etab := rfl
@[simp] theorem State.setTen_etClock : (s.setTen k v).etClock = s.etClock := rfl
@[simp] theorem State.setTen_hpcCause : (s.setTen k v).hpcCause = s.hpcCause := rfl
@[simp] theorem State.setTen_sparePend : (s.setTen k v).sparePend = s.sparePend := rfl
@[simp] theorem State.setTen_ptpOff : (s.setTen k v).ptpOff = s.ptpOff := rfl
@[simp] theorem State.setTen_held : (s.setTen k v).held = s.held := rfl
@[simp] theorem State.setTen_hubRst : (s.setTen k v).hubRst = s.hubRst := rfl
@[simp] theorem State.setTen_hpcResv : (s.setTen k v).hpcResv = s.hpcResv := rfl
@[simp] theorem State.setTen_transit : (s.setTen k v).transit = s.transit := rfl
@[simp] theorem State.setTen_ideSent : (s.setTen k v).ideSent = s.ideSent := rfl
@[simp] theorem State.setTen_bistCore : (s.setTen k v).bistCore = s.bistCore := rfl
@[simp] theorem State.setTen_bands : (s.setTen k v).bands = s.bands := rfl
@[simp] theorem State.setTen_labs : (s.setTen k v).labs = s.labs := rfl
@[simp] theorem State.setTen_kvFree : (s.setTen k v).kvFree = s.kvFree := rfl
@[simp] theorem State.setTen_kvQuar : (s.setTen k v).kvQuar = s.kvQuar := rfl
@[simp] theorem State.setTen_kvOwned : (s.setTen k v).kvOwned = s.kvOwned := rfl
@[simp] theorem State.setTen_kvUndef : (s.setTen k v).kvUndef = s.kvUndef := rfl
@[simp] theorem State.setTen_kvWins : (s.setTen k v).kvWins = s.kvWins := rfl
@[simp] theorem State.setTen_atuLast : (s.setTen k v).atuLast = s.atuLast := rfl
@[simp] theorem State.setTen_sks : (s.setTen k v).sks = s.sks := rfl
@[simp] theorem State.setTen_eths : (s.setTen k v).eths = s.eths := rfl
@[simp] theorem State.setTen_vcs : (s.setTen k v).vcs = s.vcs := rfl
@[simp] theorem State.setTen_vcLast : (s.setTen k v).vcLast = s.vcLast := rfl
@[simp] theorem State.setTen_scrubPos : (s.setTen k v).scrubPos = s.scrubPos := rfl
@[simp] theorem State.setTen_scrubStart : (s.setTen k v).scrubStart = s.scrubStart := rfl
@[simp] theorem State.setTen_ceStart : (s.setTen k v).ceStart = s.ceStart := rfl
@[simp] theorem State.setTen_subs : (s.setTen k v).subs = s.subs := rfl
@[simp] theorem State.setTen_ramps : (s.setTen k v).ramps = s.ramps := rfl
@[simp] theorem State.setTen_ptPend : (s.setTen k v).ptPend = s.ptPend := rfl

end setTen

section setQueue

variable (s : State) (n q : Nat) (v : QueueSt)

@[simp] theorem State.setQueue_now : (s.setQueue n q v).now = s.now := rfl
@[simp] theorem State.setQueue_pending : (s.setQueue n q v).pending = s.pending := rfl
@[simp] theorem State.setQueue_fresh : (s.setQueue n q v).fresh = s.fresh := rfl
@[simp] theorem State.setQueue_regs : (s.setQueue n q v).regs = s.regs := rfl
@[simp] theorem State.setQueue_outs : (s.setQueue n q v).outs = s.outs := rfl
@[simp] theorem State.setQueue_fns : (s.setQueue n q v).fns = s.fns := rfl
@[simp] theorem State.setQueue_ports : (s.setQueue n q v).ports = s.ports := rfl
@[simp] theorem State.setQueue_ends : (s.setQueue n q v).ends = s.ends := rfl
@[simp] theorem State.setQueue_routeHold : (s.setQueue n q v).routeHold = s.routeHold := rfl
@[simp] theorem State.setQueue_trail : (s.setQueue n q v).trail = s.trail := rfl
@[simp] theorem State.setQueue_board : (s.setQueue n q v).board = s.board := rfl
@[simp] theorem State.setQueue_boot : (s.setQueue n q v).boot = s.boot := rfl
@[simp] theorem State.setQueue_vclkLost : (s.setQueue n q v).vclkLost = s.vclkLost := rfl
@[simp] theorem State.setQueue_devFailed : (s.setQueue n q v).devFailed = s.devFailed := rfl
@[simp] theorem State.setQueue_hubOff : (s.setQueue n q v).hubOff = s.hubOff := rfl
@[simp] theorem State.setQueue_hmp : (s.setQueue n q v).hmp = s.hmp := rfl
@[simp] theorem State.setQueue_cmap : (s.setQueue n q v).cmap = s.cmap := rfl
@[simp] theorem State.setQueue_hmpPend : (s.setQueue n q v).hmpPend = s.hmpPend := rfl
@[simp] theorem State.setQueue_hmpClr : (s.setQueue n q v).hmpClr = s.hmpClr := rfl
@[simp] theorem State.setQueue_tens : (s.setQueue n q v).tens = s.tens := rfl
@[simp] theorem State.setQueue_order : (s.setQueue n q v).order = s.order := rfl
@[simp] theorem State.setQueue_resid : (s.setQueue n q v).resid = s.resid := rfl
@[simp] theorem State.setQueue_disps : (s.setQueue n q v).disps = s.disps := rfl
@[simp] theorem State.setQueue_rsts : (s.setQueue n q v).rsts = s.rsts := rfl
@[simp] theorem State.setQueue_cores : (s.setQueue n q v).cores = s.cores := rfl
@[simp] theorem State.setQueue_jobs : (s.setQueue n q v).jobs = s.jobs := rfl
@[simp] theorem State.setQueue_stores : (s.setQueue n q v).stores = s.stores := rfl
@[simp] theorem State.setQueue_aoUp : (s.setQueue n q v).aoUp = s.aoUp := rfl
@[simp] theorem State.setQueue_power : (s.setQueue n q v).power = s.power := rfl
@[simp] theorem State.setQueue_thm : (s.setQueue n q v).thm = s.thm := rfl
@[simp] theorem State.setQueue_mgt : (s.setQueue n q v).mgt = s.mgt := rfl
@[simp] theorem State.setQueue_snaps : (s.setQueue n q v).snaps = s.snaps := rfl
@[simp] theorem State.setQueue_slices : (s.setQueue n q v).slices = s.slices := rfl
@[simp] theorem State.setQueue_pmem : (s.setQueue n q v).pmem = s.pmem := rfl
@[simp] theorem State.setQueue_near : (s.setQueue n q v).near = s.near := rfl
@[simp] theorem State.setQueue_ueWin : (s.setQueue n q v).ueWin = s.ueWin := rfl
@[simp] theorem State.setQueue_ueSeen : (s.setQueue n q v).ueSeen = s.ueSeen := rfl
@[simp] theorem State.setQueue_loads : (s.setQueue n q v).loads = s.loads := rfl
@[simp] theorem State.setQueue_etab : (s.setQueue n q v).etab = s.etab := rfl
@[simp] theorem State.setQueue_etClock : (s.setQueue n q v).etClock = s.etClock := rfl
@[simp] theorem State.setQueue_hpcCause : (s.setQueue n q v).hpcCause = s.hpcCause := rfl
@[simp] theorem State.setQueue_sparePend : (s.setQueue n q v).sparePend = s.sparePend := rfl
@[simp] theorem State.setQueue_ptpOff : (s.setQueue n q v).ptpOff = s.ptpOff := rfl
@[simp] theorem State.setQueue_held : (s.setQueue n q v).held = s.held := rfl
@[simp] theorem State.setQueue_hubRst : (s.setQueue n q v).hubRst = s.hubRst := rfl
@[simp] theorem State.setQueue_hpcResv : (s.setQueue n q v).hpcResv = s.hpcResv := rfl
@[simp] theorem State.setQueue_transit : (s.setQueue n q v).transit = s.transit := rfl
@[simp] theorem State.setQueue_ideSent : (s.setQueue n q v).ideSent = s.ideSent := rfl
@[simp] theorem State.setQueue_bistCore : (s.setQueue n q v).bistCore = s.bistCore := rfl
@[simp] theorem State.setQueue_bands : (s.setQueue n q v).bands = s.bands := rfl
@[simp] theorem State.setQueue_labs : (s.setQueue n q v).labs = s.labs := rfl
@[simp] theorem State.setQueue_kvFree : (s.setQueue n q v).kvFree = s.kvFree := rfl
@[simp] theorem State.setQueue_kvQuar : (s.setQueue n q v).kvQuar = s.kvQuar := rfl
@[simp] theorem State.setQueue_kvOwned : (s.setQueue n q v).kvOwned = s.kvOwned := rfl
@[simp] theorem State.setQueue_kvUndef : (s.setQueue n q v).kvUndef = s.kvUndef := rfl
@[simp] theorem State.setQueue_kvWins : (s.setQueue n q v).kvWins = s.kvWins := rfl
@[simp] theorem State.setQueue_atuLast : (s.setQueue n q v).atuLast = s.atuLast := rfl
@[simp] theorem State.setQueue_sks : (s.setQueue n q v).sks = s.sks := rfl
@[simp] theorem State.setQueue_eths : (s.setQueue n q v).eths = s.eths := rfl
@[simp] theorem State.setQueue_vcs : (s.setQueue n q v).vcs = s.vcs := rfl
@[simp] theorem State.setQueue_vcLast : (s.setQueue n q v).vcLast = s.vcLast := rfl
@[simp] theorem State.setQueue_scrubPos : (s.setQueue n q v).scrubPos = s.scrubPos := rfl
@[simp] theorem State.setQueue_scrubStart : (s.setQueue n q v).scrubStart = s.scrubStart := rfl
@[simp] theorem State.setQueue_ceStart : (s.setQueue n q v).ceStart = s.ceStart := rfl
@[simp] theorem State.setQueue_subs : (s.setQueue n q v).subs = s.subs := rfl
@[simp] theorem State.setQueue_ramps : (s.setQueue n q v).ramps = s.ramps := rfl
@[simp] theorem State.setQueue_ptPend : (s.setQueue n q v).ptPend = s.ptPend := rfl

end setQueue

section setRes

variable (s : State) (k : Nat) (v : Resid)

@[simp] theorem State.setRes_now : (s.setRes k v).now = s.now := rfl
@[simp] theorem State.setRes_pending : (s.setRes k v).pending = s.pending := rfl
@[simp] theorem State.setRes_fresh : (s.setRes k v).fresh = s.fresh := rfl
@[simp] theorem State.setRes_regs : (s.setRes k v).regs = s.regs := rfl
@[simp] theorem State.setRes_outs : (s.setRes k v).outs = s.outs := rfl
@[simp] theorem State.setRes_fns : (s.setRes k v).fns = s.fns := rfl
@[simp] theorem State.setRes_ports : (s.setRes k v).ports = s.ports := rfl
@[simp] theorem State.setRes_ends : (s.setRes k v).ends = s.ends := rfl
@[simp] theorem State.setRes_routeHold : (s.setRes k v).routeHold = s.routeHold := rfl
@[simp] theorem State.setRes_trail : (s.setRes k v).trail = s.trail := rfl
@[simp] theorem State.setRes_board : (s.setRes k v).board = s.board := rfl
@[simp] theorem State.setRes_boot : (s.setRes k v).boot = s.boot := rfl
@[simp] theorem State.setRes_vclkLost : (s.setRes k v).vclkLost = s.vclkLost := rfl
@[simp] theorem State.setRes_devFailed : (s.setRes k v).devFailed = s.devFailed := rfl
@[simp] theorem State.setRes_hubOff : (s.setRes k v).hubOff = s.hubOff := rfl
@[simp] theorem State.setRes_hmp : (s.setRes k v).hmp = s.hmp := rfl
@[simp] theorem State.setRes_cmap : (s.setRes k v).cmap = s.cmap := rfl
@[simp] theorem State.setRes_hmpPend : (s.setRes k v).hmpPend = s.hmpPend := rfl
@[simp] theorem State.setRes_hmpClr : (s.setRes k v).hmpClr = s.hmpClr := rfl
@[simp] theorem State.setRes_tens : (s.setRes k v).tens = s.tens := rfl
@[simp] theorem State.setRes_queues : (s.setRes k v).queues = s.queues := rfl
@[simp] theorem State.setRes_order : (s.setRes k v).order = s.order := rfl
@[simp] theorem State.setRes_disps : (s.setRes k v).disps = s.disps := rfl
@[simp] theorem State.setRes_rsts : (s.setRes k v).rsts = s.rsts := rfl
@[simp] theorem State.setRes_cores : (s.setRes k v).cores = s.cores := rfl
@[simp] theorem State.setRes_jobs : (s.setRes k v).jobs = s.jobs := rfl
@[simp] theorem State.setRes_stores : (s.setRes k v).stores = s.stores := rfl
@[simp] theorem State.setRes_aoUp : (s.setRes k v).aoUp = s.aoUp := rfl
@[simp] theorem State.setRes_power : (s.setRes k v).power = s.power := rfl
@[simp] theorem State.setRes_thm : (s.setRes k v).thm = s.thm := rfl
@[simp] theorem State.setRes_mgt : (s.setRes k v).mgt = s.mgt := rfl
@[simp] theorem State.setRes_snaps : (s.setRes k v).snaps = s.snaps := rfl
@[simp] theorem State.setRes_slices : (s.setRes k v).slices = s.slices := rfl
@[simp] theorem State.setRes_pmem : (s.setRes k v).pmem = s.pmem := rfl
@[simp] theorem State.setRes_near : (s.setRes k v).near = s.near := rfl
@[simp] theorem State.setRes_ueWin : (s.setRes k v).ueWin = s.ueWin := rfl
@[simp] theorem State.setRes_ueSeen : (s.setRes k v).ueSeen = s.ueSeen := rfl
@[simp] theorem State.setRes_loads : (s.setRes k v).loads = s.loads := rfl
@[simp] theorem State.setRes_etab : (s.setRes k v).etab = s.etab := rfl
@[simp] theorem State.setRes_etClock : (s.setRes k v).etClock = s.etClock := rfl
@[simp] theorem State.setRes_hpcCause : (s.setRes k v).hpcCause = s.hpcCause := rfl
@[simp] theorem State.setRes_sparePend : (s.setRes k v).sparePend = s.sparePend := rfl
@[simp] theorem State.setRes_ptpOff : (s.setRes k v).ptpOff = s.ptpOff := rfl
@[simp] theorem State.setRes_held : (s.setRes k v).held = s.held := rfl
@[simp] theorem State.setRes_hubRst : (s.setRes k v).hubRst = s.hubRst := rfl
@[simp] theorem State.setRes_hpcResv : (s.setRes k v).hpcResv = s.hpcResv := rfl
@[simp] theorem State.setRes_transit : (s.setRes k v).transit = s.transit := rfl
@[simp] theorem State.setRes_ideSent : (s.setRes k v).ideSent = s.ideSent := rfl
@[simp] theorem State.setRes_bistCore : (s.setRes k v).bistCore = s.bistCore := rfl
@[simp] theorem State.setRes_bands : (s.setRes k v).bands = s.bands := rfl
@[simp] theorem State.setRes_labs : (s.setRes k v).labs = s.labs := rfl
@[simp] theorem State.setRes_kvFree : (s.setRes k v).kvFree = s.kvFree := rfl
@[simp] theorem State.setRes_kvQuar : (s.setRes k v).kvQuar = s.kvQuar := rfl
@[simp] theorem State.setRes_kvOwned : (s.setRes k v).kvOwned = s.kvOwned := rfl
@[simp] theorem State.setRes_kvUndef : (s.setRes k v).kvUndef = s.kvUndef := rfl
@[simp] theorem State.setRes_kvWins : (s.setRes k v).kvWins = s.kvWins := rfl
@[simp] theorem State.setRes_atuLast : (s.setRes k v).atuLast = s.atuLast := rfl
@[simp] theorem State.setRes_sks : (s.setRes k v).sks = s.sks := rfl
@[simp] theorem State.setRes_eths : (s.setRes k v).eths = s.eths := rfl
@[simp] theorem State.setRes_vcs : (s.setRes k v).vcs = s.vcs := rfl
@[simp] theorem State.setRes_vcLast : (s.setRes k v).vcLast = s.vcLast := rfl
@[simp] theorem State.setRes_scrubPos : (s.setRes k v).scrubPos = s.scrubPos := rfl
@[simp] theorem State.setRes_scrubStart : (s.setRes k v).scrubStart = s.scrubStart := rfl
@[simp] theorem State.setRes_ceStart : (s.setRes k v).ceStart = s.ceStart := rfl
@[simp] theorem State.setRes_subs : (s.setRes k v).subs = s.subs := rfl
@[simp] theorem State.setRes_ramps : (s.setRes k v).ramps = s.ramps := rfl
@[simp] theorem State.setRes_ptPend : (s.setRes k v).ptPend = s.ptPend := rfl

end setRes

section setDsp

variable (s : State) (k : Nat) (v : DispSt)

@[simp] theorem State.setDsp_now : (s.setDsp k v).now = s.now := rfl
@[simp] theorem State.setDsp_pending : (s.setDsp k v).pending = s.pending := rfl
@[simp] theorem State.setDsp_fresh : (s.setDsp k v).fresh = s.fresh := rfl
@[simp] theorem State.setDsp_regs : (s.setDsp k v).regs = s.regs := rfl
@[simp] theorem State.setDsp_outs : (s.setDsp k v).outs = s.outs := rfl
@[simp] theorem State.setDsp_fns : (s.setDsp k v).fns = s.fns := rfl
@[simp] theorem State.setDsp_ports : (s.setDsp k v).ports = s.ports := rfl
@[simp] theorem State.setDsp_ends : (s.setDsp k v).ends = s.ends := rfl
@[simp] theorem State.setDsp_routeHold : (s.setDsp k v).routeHold = s.routeHold := rfl
@[simp] theorem State.setDsp_trail : (s.setDsp k v).trail = s.trail := rfl
@[simp] theorem State.setDsp_board : (s.setDsp k v).board = s.board := rfl
@[simp] theorem State.setDsp_boot : (s.setDsp k v).boot = s.boot := rfl
@[simp] theorem State.setDsp_vclkLost : (s.setDsp k v).vclkLost = s.vclkLost := rfl
@[simp] theorem State.setDsp_devFailed : (s.setDsp k v).devFailed = s.devFailed := rfl
@[simp] theorem State.setDsp_hubOff : (s.setDsp k v).hubOff = s.hubOff := rfl
@[simp] theorem State.setDsp_hmp : (s.setDsp k v).hmp = s.hmp := rfl
@[simp] theorem State.setDsp_cmap : (s.setDsp k v).cmap = s.cmap := rfl
@[simp] theorem State.setDsp_hmpPend : (s.setDsp k v).hmpPend = s.hmpPend := rfl
@[simp] theorem State.setDsp_hmpClr : (s.setDsp k v).hmpClr = s.hmpClr := rfl
@[simp] theorem State.setDsp_tens : (s.setDsp k v).tens = s.tens := rfl
@[simp] theorem State.setDsp_queues : (s.setDsp k v).queues = s.queues := rfl
@[simp] theorem State.setDsp_order : (s.setDsp k v).order = s.order := rfl
@[simp] theorem State.setDsp_resid : (s.setDsp k v).resid = s.resid := rfl
@[simp] theorem State.setDsp_rsts : (s.setDsp k v).rsts = s.rsts := rfl
@[simp] theorem State.setDsp_cores : (s.setDsp k v).cores = s.cores := rfl
@[simp] theorem State.setDsp_jobs : (s.setDsp k v).jobs = s.jobs := rfl
@[simp] theorem State.setDsp_stores : (s.setDsp k v).stores = s.stores := rfl
@[simp] theorem State.setDsp_aoUp : (s.setDsp k v).aoUp = s.aoUp := rfl
@[simp] theorem State.setDsp_power : (s.setDsp k v).power = s.power := rfl
@[simp] theorem State.setDsp_thm : (s.setDsp k v).thm = s.thm := rfl
@[simp] theorem State.setDsp_mgt : (s.setDsp k v).mgt = s.mgt := rfl
@[simp] theorem State.setDsp_snaps : (s.setDsp k v).snaps = s.snaps := rfl
@[simp] theorem State.setDsp_slices : (s.setDsp k v).slices = s.slices := rfl
@[simp] theorem State.setDsp_pmem : (s.setDsp k v).pmem = s.pmem := rfl
@[simp] theorem State.setDsp_near : (s.setDsp k v).near = s.near := rfl
@[simp] theorem State.setDsp_ueWin : (s.setDsp k v).ueWin = s.ueWin := rfl
@[simp] theorem State.setDsp_ueSeen : (s.setDsp k v).ueSeen = s.ueSeen := rfl
@[simp] theorem State.setDsp_loads : (s.setDsp k v).loads = s.loads := rfl
@[simp] theorem State.setDsp_etab : (s.setDsp k v).etab = s.etab := rfl
@[simp] theorem State.setDsp_etClock : (s.setDsp k v).etClock = s.etClock := rfl
@[simp] theorem State.setDsp_hpcCause : (s.setDsp k v).hpcCause = s.hpcCause := rfl
@[simp] theorem State.setDsp_sparePend : (s.setDsp k v).sparePend = s.sparePend := rfl
@[simp] theorem State.setDsp_ptpOff : (s.setDsp k v).ptpOff = s.ptpOff := rfl
@[simp] theorem State.setDsp_held : (s.setDsp k v).held = s.held := rfl
@[simp] theorem State.setDsp_hubRst : (s.setDsp k v).hubRst = s.hubRst := rfl
@[simp] theorem State.setDsp_hpcResv : (s.setDsp k v).hpcResv = s.hpcResv := rfl
@[simp] theorem State.setDsp_transit : (s.setDsp k v).transit = s.transit := rfl
@[simp] theorem State.setDsp_ideSent : (s.setDsp k v).ideSent = s.ideSent := rfl
@[simp] theorem State.setDsp_bistCore : (s.setDsp k v).bistCore = s.bistCore := rfl
@[simp] theorem State.setDsp_bands : (s.setDsp k v).bands = s.bands := rfl
@[simp] theorem State.setDsp_labs : (s.setDsp k v).labs = s.labs := rfl
@[simp] theorem State.setDsp_kvFree : (s.setDsp k v).kvFree = s.kvFree := rfl
@[simp] theorem State.setDsp_kvQuar : (s.setDsp k v).kvQuar = s.kvQuar := rfl
@[simp] theorem State.setDsp_kvOwned : (s.setDsp k v).kvOwned = s.kvOwned := rfl
@[simp] theorem State.setDsp_kvUndef : (s.setDsp k v).kvUndef = s.kvUndef := rfl
@[simp] theorem State.setDsp_kvWins : (s.setDsp k v).kvWins = s.kvWins := rfl
@[simp] theorem State.setDsp_atuLast : (s.setDsp k v).atuLast = s.atuLast := rfl
@[simp] theorem State.setDsp_sks : (s.setDsp k v).sks = s.sks := rfl
@[simp] theorem State.setDsp_eths : (s.setDsp k v).eths = s.eths := rfl
@[simp] theorem State.setDsp_vcs : (s.setDsp k v).vcs = s.vcs := rfl
@[simp] theorem State.setDsp_vcLast : (s.setDsp k v).vcLast = s.vcLast := rfl
@[simp] theorem State.setDsp_scrubPos : (s.setDsp k v).scrubPos = s.scrubPos := rfl
@[simp] theorem State.setDsp_scrubStart : (s.setDsp k v).scrubStart = s.scrubStart := rfl
@[simp] theorem State.setDsp_ceStart : (s.setDsp k v).ceStart = s.ceStart := rfl
@[simp] theorem State.setDsp_subs : (s.setDsp k v).subs = s.subs := rfl
@[simp] theorem State.setDsp_ramps : (s.setDsp k v).ramps = s.ramps := rfl
@[simp] theorem State.setDsp_ptPend : (s.setDsp k v).ptPend = s.ptPend := rfl

end setDsp

section setCore

variable (s : State) (x : Nat) (v : Core)

@[simp] theorem State.setCore_now : (s.setCore x v).now = s.now := rfl
@[simp] theorem State.setCore_pending : (s.setCore x v).pending = s.pending := rfl
@[simp] theorem State.setCore_fresh : (s.setCore x v).fresh = s.fresh := rfl
@[simp] theorem State.setCore_regs : (s.setCore x v).regs = s.regs := rfl
@[simp] theorem State.setCore_outs : (s.setCore x v).outs = s.outs := rfl
@[simp] theorem State.setCore_fns : (s.setCore x v).fns = s.fns := rfl
@[simp] theorem State.setCore_ports : (s.setCore x v).ports = s.ports := rfl
@[simp] theorem State.setCore_ends : (s.setCore x v).ends = s.ends := rfl
@[simp] theorem State.setCore_routeHold : (s.setCore x v).routeHold = s.routeHold := rfl
@[simp] theorem State.setCore_trail : (s.setCore x v).trail = s.trail := rfl
@[simp] theorem State.setCore_board : (s.setCore x v).board = s.board := rfl
@[simp] theorem State.setCore_boot : (s.setCore x v).boot = s.boot := rfl
@[simp] theorem State.setCore_vclkLost : (s.setCore x v).vclkLost = s.vclkLost := rfl
@[simp] theorem State.setCore_devFailed : (s.setCore x v).devFailed = s.devFailed := rfl
@[simp] theorem State.setCore_hubOff : (s.setCore x v).hubOff = s.hubOff := rfl
@[simp] theorem State.setCore_hmp : (s.setCore x v).hmp = s.hmp := rfl
@[simp] theorem State.setCore_cmap : (s.setCore x v).cmap = s.cmap := rfl
@[simp] theorem State.setCore_hmpPend : (s.setCore x v).hmpPend = s.hmpPend := rfl
@[simp] theorem State.setCore_hmpClr : (s.setCore x v).hmpClr = s.hmpClr := rfl
@[simp] theorem State.setCore_tens : (s.setCore x v).tens = s.tens := rfl
@[simp] theorem State.setCore_queues : (s.setCore x v).queues = s.queues := rfl
@[simp] theorem State.setCore_order : (s.setCore x v).order = s.order := rfl
@[simp] theorem State.setCore_resid : (s.setCore x v).resid = s.resid := rfl
@[simp] theorem State.setCore_disps : (s.setCore x v).disps = s.disps := rfl
@[simp] theorem State.setCore_rsts : (s.setCore x v).rsts = s.rsts := rfl
@[simp] theorem State.setCore_jobs : (s.setCore x v).jobs = s.jobs := rfl
@[simp] theorem State.setCore_stores : (s.setCore x v).stores = s.stores := rfl
@[simp] theorem State.setCore_aoUp : (s.setCore x v).aoUp = s.aoUp := rfl
@[simp] theorem State.setCore_power : (s.setCore x v).power = s.power := rfl
@[simp] theorem State.setCore_thm : (s.setCore x v).thm = s.thm := rfl
@[simp] theorem State.setCore_mgt : (s.setCore x v).mgt = s.mgt := rfl
@[simp] theorem State.setCore_snaps : (s.setCore x v).snaps = s.snaps := rfl
@[simp] theorem State.setCore_slices : (s.setCore x v).slices = s.slices := rfl
@[simp] theorem State.setCore_pmem : (s.setCore x v).pmem = s.pmem := rfl
@[simp] theorem State.setCore_near : (s.setCore x v).near = s.near := rfl
@[simp] theorem State.setCore_ueWin : (s.setCore x v).ueWin = s.ueWin := rfl
@[simp] theorem State.setCore_ueSeen : (s.setCore x v).ueSeen = s.ueSeen := rfl
@[simp] theorem State.setCore_loads : (s.setCore x v).loads = s.loads := rfl
@[simp] theorem State.setCore_etab : (s.setCore x v).etab = s.etab := rfl
@[simp] theorem State.setCore_etClock : (s.setCore x v).etClock = s.etClock := rfl
@[simp] theorem State.setCore_hpcCause : (s.setCore x v).hpcCause = s.hpcCause := rfl
@[simp] theorem State.setCore_sparePend : (s.setCore x v).sparePend = s.sparePend := rfl
@[simp] theorem State.setCore_ptpOff : (s.setCore x v).ptpOff = s.ptpOff := rfl
@[simp] theorem State.setCore_held : (s.setCore x v).held = s.held := rfl
@[simp] theorem State.setCore_hubRst : (s.setCore x v).hubRst = s.hubRst := rfl
@[simp] theorem State.setCore_hpcResv : (s.setCore x v).hpcResv = s.hpcResv := rfl
@[simp] theorem State.setCore_transit : (s.setCore x v).transit = s.transit := rfl
@[simp] theorem State.setCore_ideSent : (s.setCore x v).ideSent = s.ideSent := rfl
@[simp] theorem State.setCore_bistCore : (s.setCore x v).bistCore = s.bistCore := rfl
@[simp] theorem State.setCore_bands : (s.setCore x v).bands = s.bands := rfl
@[simp] theorem State.setCore_labs : (s.setCore x v).labs = s.labs := rfl
@[simp] theorem State.setCore_kvFree : (s.setCore x v).kvFree = s.kvFree := rfl
@[simp] theorem State.setCore_kvQuar : (s.setCore x v).kvQuar = s.kvQuar := rfl
@[simp] theorem State.setCore_kvOwned : (s.setCore x v).kvOwned = s.kvOwned := rfl
@[simp] theorem State.setCore_kvUndef : (s.setCore x v).kvUndef = s.kvUndef := rfl
@[simp] theorem State.setCore_kvWins : (s.setCore x v).kvWins = s.kvWins := rfl
@[simp] theorem State.setCore_atuLast : (s.setCore x v).atuLast = s.atuLast := rfl
@[simp] theorem State.setCore_sks : (s.setCore x v).sks = s.sks := rfl
@[simp] theorem State.setCore_eths : (s.setCore x v).eths = s.eths := rfl
@[simp] theorem State.setCore_vcs : (s.setCore x v).vcs = s.vcs := rfl
@[simp] theorem State.setCore_vcLast : (s.setCore x v).vcLast = s.vcLast := rfl
@[simp] theorem State.setCore_scrubPos : (s.setCore x v).scrubPos = s.scrubPos := rfl
@[simp] theorem State.setCore_scrubStart : (s.setCore x v).scrubStart = s.scrubStart := rfl
@[simp] theorem State.setCore_ceStart : (s.setCore x v).ceStart = s.ceStart := rfl
@[simp] theorem State.setCore_subs : (s.setCore x v).subs = s.subs := rfl
@[simp] theorem State.setCore_ramps : (s.setCore x v).ramps = s.ramps := rfl
@[simp] theorem State.setCore_ptPend : (s.setCore x v).ptPend = s.ptPend := rfl

end setCore

section setPm

variable (s : State) (p : Nat) (v : PartMem)

@[simp] theorem State.setPm_now : (s.setPm p v).now = s.now := rfl
@[simp] theorem State.setPm_pending : (s.setPm p v).pending = s.pending := rfl
@[simp] theorem State.setPm_fresh : (s.setPm p v).fresh = s.fresh := rfl
@[simp] theorem State.setPm_regs : (s.setPm p v).regs = s.regs := rfl
@[simp] theorem State.setPm_outs : (s.setPm p v).outs = s.outs := rfl
@[simp] theorem State.setPm_fns : (s.setPm p v).fns = s.fns := rfl
@[simp] theorem State.setPm_ports : (s.setPm p v).ports = s.ports := rfl
@[simp] theorem State.setPm_ends : (s.setPm p v).ends = s.ends := rfl
@[simp] theorem State.setPm_routeHold : (s.setPm p v).routeHold = s.routeHold := rfl
@[simp] theorem State.setPm_trail : (s.setPm p v).trail = s.trail := rfl
@[simp] theorem State.setPm_board : (s.setPm p v).board = s.board := rfl
@[simp] theorem State.setPm_boot : (s.setPm p v).boot = s.boot := rfl
@[simp] theorem State.setPm_vclkLost : (s.setPm p v).vclkLost = s.vclkLost := rfl
@[simp] theorem State.setPm_devFailed : (s.setPm p v).devFailed = s.devFailed := rfl
@[simp] theorem State.setPm_hubOff : (s.setPm p v).hubOff = s.hubOff := rfl
@[simp] theorem State.setPm_hmp : (s.setPm p v).hmp = s.hmp := rfl
@[simp] theorem State.setPm_cmap : (s.setPm p v).cmap = s.cmap := rfl
@[simp] theorem State.setPm_hmpPend : (s.setPm p v).hmpPend = s.hmpPend := rfl
@[simp] theorem State.setPm_hmpClr : (s.setPm p v).hmpClr = s.hmpClr := rfl
@[simp] theorem State.setPm_tens : (s.setPm p v).tens = s.tens := rfl
@[simp] theorem State.setPm_queues : (s.setPm p v).queues = s.queues := rfl
@[simp] theorem State.setPm_order : (s.setPm p v).order = s.order := rfl
@[simp] theorem State.setPm_resid : (s.setPm p v).resid = s.resid := rfl
@[simp] theorem State.setPm_disps : (s.setPm p v).disps = s.disps := rfl
@[simp] theorem State.setPm_rsts : (s.setPm p v).rsts = s.rsts := rfl
@[simp] theorem State.setPm_cores : (s.setPm p v).cores = s.cores := rfl
@[simp] theorem State.setPm_jobs : (s.setPm p v).jobs = s.jobs := rfl
@[simp] theorem State.setPm_stores : (s.setPm p v).stores = s.stores := rfl
@[simp] theorem State.setPm_aoUp : (s.setPm p v).aoUp = s.aoUp := rfl
@[simp] theorem State.setPm_power : (s.setPm p v).power = s.power := rfl
@[simp] theorem State.setPm_thm : (s.setPm p v).thm = s.thm := rfl
@[simp] theorem State.setPm_mgt : (s.setPm p v).mgt = s.mgt := rfl
@[simp] theorem State.setPm_snaps : (s.setPm p v).snaps = s.snaps := rfl
@[simp] theorem State.setPm_slices : (s.setPm p v).slices = s.slices := rfl
@[simp] theorem State.setPm_near : (s.setPm p v).near = s.near := rfl
@[simp] theorem State.setPm_ueWin : (s.setPm p v).ueWin = s.ueWin := rfl
@[simp] theorem State.setPm_ueSeen : (s.setPm p v).ueSeen = s.ueSeen := rfl
@[simp] theorem State.setPm_loads : (s.setPm p v).loads = s.loads := rfl
@[simp] theorem State.setPm_etab : (s.setPm p v).etab = s.etab := rfl
@[simp] theorem State.setPm_etClock : (s.setPm p v).etClock = s.etClock := rfl
@[simp] theorem State.setPm_hpcCause : (s.setPm p v).hpcCause = s.hpcCause := rfl
@[simp] theorem State.setPm_sparePend : (s.setPm p v).sparePend = s.sparePend := rfl
@[simp] theorem State.setPm_ptpOff : (s.setPm p v).ptpOff = s.ptpOff := rfl
@[simp] theorem State.setPm_held : (s.setPm p v).held = s.held := rfl
@[simp] theorem State.setPm_hubRst : (s.setPm p v).hubRst = s.hubRst := rfl
@[simp] theorem State.setPm_hpcResv : (s.setPm p v).hpcResv = s.hpcResv := rfl
@[simp] theorem State.setPm_transit : (s.setPm p v).transit = s.transit := rfl
@[simp] theorem State.setPm_ideSent : (s.setPm p v).ideSent = s.ideSent := rfl
@[simp] theorem State.setPm_bistCore : (s.setPm p v).bistCore = s.bistCore := rfl
@[simp] theorem State.setPm_bands : (s.setPm p v).bands = s.bands := rfl
@[simp] theorem State.setPm_labs : (s.setPm p v).labs = s.labs := rfl
@[simp] theorem State.setPm_kvFree : (s.setPm p v).kvFree = s.kvFree := rfl
@[simp] theorem State.setPm_kvQuar : (s.setPm p v).kvQuar = s.kvQuar := rfl
@[simp] theorem State.setPm_kvOwned : (s.setPm p v).kvOwned = s.kvOwned := rfl
@[simp] theorem State.setPm_kvUndef : (s.setPm p v).kvUndef = s.kvUndef := rfl
@[simp] theorem State.setPm_kvWins : (s.setPm p v).kvWins = s.kvWins := rfl
@[simp] theorem State.setPm_atuLast : (s.setPm p v).atuLast = s.atuLast := rfl
@[simp] theorem State.setPm_sks : (s.setPm p v).sks = s.sks := rfl
@[simp] theorem State.setPm_eths : (s.setPm p v).eths = s.eths := rfl
@[simp] theorem State.setPm_vcs : (s.setPm p v).vcs = s.vcs := rfl
@[simp] theorem State.setPm_vcLast : (s.setPm p v).vcLast = s.vcLast := rfl
@[simp] theorem State.setPm_scrubPos : (s.setPm p v).scrubPos = s.scrubPos := rfl
@[simp] theorem State.setPm_scrubStart : (s.setPm p v).scrubStart = s.scrubStart := rfl
@[simp] theorem State.setPm_ceStart : (s.setPm p v).ceStart = s.ceStart := rfl
@[simp] theorem State.setPm_subs : (s.setPm p v).subs = s.subs := rfl
@[simp] theorem State.setPm_ramps : (s.setPm p v).ramps = s.ramps := rfl
@[simp] theorem State.setPm_ptPend : (s.setPm p v).ptPend = s.ptPend := rfl

end setPm

section setBacking

variable (s : State) (g : Nat) (v : Backing)

@[simp] theorem State.setBacking_now : (s.setBacking g v).now = s.now := rfl
@[simp] theorem State.setBacking_pending : (s.setBacking g v).pending = s.pending := rfl
@[simp] theorem State.setBacking_fresh : (s.setBacking g v).fresh = s.fresh := rfl
@[simp] theorem State.setBacking_regs : (s.setBacking g v).regs = s.regs := rfl
@[simp] theorem State.setBacking_outs : (s.setBacking g v).outs = s.outs := rfl
@[simp] theorem State.setBacking_fns : (s.setBacking g v).fns = s.fns := rfl
@[simp] theorem State.setBacking_ports : (s.setBacking g v).ports = s.ports := rfl
@[simp] theorem State.setBacking_ends : (s.setBacking g v).ends = s.ends := rfl
@[simp] theorem State.setBacking_routeHold : (s.setBacking g v).routeHold = s.routeHold := rfl
@[simp] theorem State.setBacking_trail : (s.setBacking g v).trail = s.trail := rfl
@[simp] theorem State.setBacking_board : (s.setBacking g v).board = s.board := rfl
@[simp] theorem State.setBacking_boot : (s.setBacking g v).boot = s.boot := rfl
@[simp] theorem State.setBacking_vclkLost : (s.setBacking g v).vclkLost = s.vclkLost := rfl
@[simp] theorem State.setBacking_devFailed : (s.setBacking g v).devFailed = s.devFailed := rfl
@[simp] theorem State.setBacking_hubOff : (s.setBacking g v).hubOff = s.hubOff := rfl
@[simp] theorem State.setBacking_hmp : (s.setBacking g v).hmp = s.hmp := rfl
@[simp] theorem State.setBacking_cmap : (s.setBacking g v).cmap = s.cmap := rfl
@[simp] theorem State.setBacking_hmpPend : (s.setBacking g v).hmpPend = s.hmpPend := rfl
@[simp] theorem State.setBacking_hmpClr : (s.setBacking g v).hmpClr = s.hmpClr := rfl
@[simp] theorem State.setBacking_tens : (s.setBacking g v).tens = s.tens := rfl
@[simp] theorem State.setBacking_queues : (s.setBacking g v).queues = s.queues := rfl
@[simp] theorem State.setBacking_order : (s.setBacking g v).order = s.order := rfl
@[simp] theorem State.setBacking_resid : (s.setBacking g v).resid = s.resid := rfl
@[simp] theorem State.setBacking_disps : (s.setBacking g v).disps = s.disps := rfl
@[simp] theorem State.setBacking_rsts : (s.setBacking g v).rsts = s.rsts := rfl
@[simp] theorem State.setBacking_cores : (s.setBacking g v).cores = s.cores := rfl
@[simp] theorem State.setBacking_jobs : (s.setBacking g v).jobs = s.jobs := rfl
@[simp] theorem State.setBacking_stores : (s.setBacking g v).stores = s.stores := rfl
@[simp] theorem State.setBacking_aoUp : (s.setBacking g v).aoUp = s.aoUp := rfl
@[simp] theorem State.setBacking_power : (s.setBacking g v).power = s.power := rfl
@[simp] theorem State.setBacking_thm : (s.setBacking g v).thm = s.thm := rfl
@[simp] theorem State.setBacking_mgt : (s.setBacking g v).mgt = s.mgt := rfl
@[simp] theorem State.setBacking_snaps : (s.setBacking g v).snaps = s.snaps := rfl
@[simp] theorem State.setBacking_slices : (s.setBacking g v).slices = s.slices := rfl
@[simp] theorem State.setBacking_pmem : (s.setBacking g v).pmem = s.pmem := rfl
@[simp] theorem State.setBacking_ueWin : (s.setBacking g v).ueWin = s.ueWin := rfl
@[simp] theorem State.setBacking_ueSeen : (s.setBacking g v).ueSeen = s.ueSeen := rfl
@[simp] theorem State.setBacking_loads : (s.setBacking g v).loads = s.loads := rfl
@[simp] theorem State.setBacking_etab : (s.setBacking g v).etab = s.etab := rfl
@[simp] theorem State.setBacking_etClock : (s.setBacking g v).etClock = s.etClock := rfl
@[simp] theorem State.setBacking_hpcCause : (s.setBacking g v).hpcCause = s.hpcCause := rfl
@[simp] theorem State.setBacking_sparePend : (s.setBacking g v).sparePend = s.sparePend := rfl
@[simp] theorem State.setBacking_ptpOff : (s.setBacking g v).ptpOff = s.ptpOff := rfl
@[simp] theorem State.setBacking_held : (s.setBacking g v).held = s.held := rfl
@[simp] theorem State.setBacking_hubRst : (s.setBacking g v).hubRst = s.hubRst := rfl
@[simp] theorem State.setBacking_hpcResv : (s.setBacking g v).hpcResv = s.hpcResv := rfl
@[simp] theorem State.setBacking_transit : (s.setBacking g v).transit = s.transit := rfl
@[simp] theorem State.setBacking_ideSent : (s.setBacking g v).ideSent = s.ideSent := rfl
@[simp] theorem State.setBacking_bistCore : (s.setBacking g v).bistCore = s.bistCore := rfl
@[simp] theorem State.setBacking_bands : (s.setBacking g v).bands = s.bands := rfl
@[simp] theorem State.setBacking_labs : (s.setBacking g v).labs = s.labs := rfl
@[simp] theorem State.setBacking_kvFree : (s.setBacking g v).kvFree = s.kvFree := rfl
@[simp] theorem State.setBacking_kvQuar : (s.setBacking g v).kvQuar = s.kvQuar := rfl
@[simp] theorem State.setBacking_kvOwned : (s.setBacking g v).kvOwned = s.kvOwned := rfl
@[simp] theorem State.setBacking_kvUndef : (s.setBacking g v).kvUndef = s.kvUndef := rfl
@[simp] theorem State.setBacking_kvWins : (s.setBacking g v).kvWins = s.kvWins := rfl
@[simp] theorem State.setBacking_atuLast : (s.setBacking g v).atuLast = s.atuLast := rfl
@[simp] theorem State.setBacking_sks : (s.setBacking g v).sks = s.sks := rfl
@[simp] theorem State.setBacking_eths : (s.setBacking g v).eths = s.eths := rfl
@[simp] theorem State.setBacking_vcs : (s.setBacking g v).vcs = s.vcs := rfl
@[simp] theorem State.setBacking_vcLast : (s.setBacking g v).vcLast = s.vcLast := rfl
@[simp] theorem State.setBacking_scrubPos : (s.setBacking g v).scrubPos = s.scrubPos := rfl
@[simp] theorem State.setBacking_scrubStart : (s.setBacking g v).scrubStart = s.scrubStart := rfl
@[simp] theorem State.setBacking_ceStart : (s.setBacking g v).ceStart = s.ceStart := rfl
@[simp] theorem State.setBacking_subs : (s.setBacking g v).subs = s.subs := rfl
@[simp] theorem State.setBacking_ramps : (s.setBacking g v).ramps = s.ramps := rfl
@[simp] theorem State.setBacking_ptPend : (s.setBacking g v).ptPend = s.ptPend := rfl

end setBacking

section setComp

variable (s : State) (c : Nat) (v : Comp)

@[simp] theorem State.setComp_now : (s.setComp c v).now = s.now := rfl
@[simp] theorem State.setComp_pending : (s.setComp c v).pending = s.pending := rfl
@[simp] theorem State.setComp_fresh : (s.setComp c v).fresh = s.fresh := rfl
@[simp] theorem State.setComp_regs : (s.setComp c v).regs = s.regs := rfl
@[simp] theorem State.setComp_outs : (s.setComp c v).outs = s.outs := rfl
@[simp] theorem State.setComp_fns : (s.setComp c v).fns = s.fns := rfl
@[simp] theorem State.setComp_ports : (s.setComp c v).ports = s.ports := rfl
@[simp] theorem State.setComp_ends : (s.setComp c v).ends = s.ends := rfl
@[simp] theorem State.setComp_routeHold : (s.setComp c v).routeHold = s.routeHold := rfl
@[simp] theorem State.setComp_trail : (s.setComp c v).trail = s.trail := rfl
@[simp] theorem State.setComp_board : (s.setComp c v).board = s.board := rfl
@[simp] theorem State.setComp_boot : (s.setComp c v).boot = s.boot := rfl
@[simp] theorem State.setComp_vclkLost : (s.setComp c v).vclkLost = s.vclkLost := rfl
@[simp] theorem State.setComp_devFailed : (s.setComp c v).devFailed = s.devFailed := rfl
@[simp] theorem State.setComp_hubOff : (s.setComp c v).hubOff = s.hubOff := rfl
@[simp] theorem State.setComp_hmp : (s.setComp c v).hmp = s.hmp := rfl
@[simp] theorem State.setComp_hmpPend : (s.setComp c v).hmpPend = s.hmpPend := rfl
@[simp] theorem State.setComp_hmpClr : (s.setComp c v).hmpClr = s.hmpClr := rfl
@[simp] theorem State.setComp_tens : (s.setComp c v).tens = s.tens := rfl
@[simp] theorem State.setComp_queues : (s.setComp c v).queues = s.queues := rfl
@[simp] theorem State.setComp_order : (s.setComp c v).order = s.order := rfl
@[simp] theorem State.setComp_resid : (s.setComp c v).resid = s.resid := rfl
@[simp] theorem State.setComp_disps : (s.setComp c v).disps = s.disps := rfl
@[simp] theorem State.setComp_rsts : (s.setComp c v).rsts = s.rsts := rfl
@[simp] theorem State.setComp_cores : (s.setComp c v).cores = s.cores := rfl
@[simp] theorem State.setComp_jobs : (s.setComp c v).jobs = s.jobs := rfl
@[simp] theorem State.setComp_stores : (s.setComp c v).stores = s.stores := rfl
@[simp] theorem State.setComp_aoUp : (s.setComp c v).aoUp = s.aoUp := rfl
@[simp] theorem State.setComp_power : (s.setComp c v).power = s.power := rfl
@[simp] theorem State.setComp_thm : (s.setComp c v).thm = s.thm := rfl
@[simp] theorem State.setComp_mgt : (s.setComp c v).mgt = s.mgt := rfl
@[simp] theorem State.setComp_snaps : (s.setComp c v).snaps = s.snaps := rfl
@[simp] theorem State.setComp_slices : (s.setComp c v).slices = s.slices := rfl
@[simp] theorem State.setComp_pmem : (s.setComp c v).pmem = s.pmem := rfl
@[simp] theorem State.setComp_near : (s.setComp c v).near = s.near := rfl
@[simp] theorem State.setComp_ueWin : (s.setComp c v).ueWin = s.ueWin := rfl
@[simp] theorem State.setComp_ueSeen : (s.setComp c v).ueSeen = s.ueSeen := rfl
@[simp] theorem State.setComp_loads : (s.setComp c v).loads = s.loads := rfl
@[simp] theorem State.setComp_etab : (s.setComp c v).etab = s.etab := rfl
@[simp] theorem State.setComp_etClock : (s.setComp c v).etClock = s.etClock := rfl
@[simp] theorem State.setComp_hpcCause : (s.setComp c v).hpcCause = s.hpcCause := rfl
@[simp] theorem State.setComp_sparePend : (s.setComp c v).sparePend = s.sparePend := rfl
@[simp] theorem State.setComp_ptpOff : (s.setComp c v).ptpOff = s.ptpOff := rfl
@[simp] theorem State.setComp_held : (s.setComp c v).held = s.held := rfl
@[simp] theorem State.setComp_hubRst : (s.setComp c v).hubRst = s.hubRst := rfl
@[simp] theorem State.setComp_hpcResv : (s.setComp c v).hpcResv = s.hpcResv := rfl
@[simp] theorem State.setComp_transit : (s.setComp c v).transit = s.transit := rfl
@[simp] theorem State.setComp_ideSent : (s.setComp c v).ideSent = s.ideSent := rfl
@[simp] theorem State.setComp_bistCore : (s.setComp c v).bistCore = s.bistCore := rfl
@[simp] theorem State.setComp_bands : (s.setComp c v).bands = s.bands := rfl
@[simp] theorem State.setComp_labs : (s.setComp c v).labs = s.labs := rfl
@[simp] theorem State.setComp_kvFree : (s.setComp c v).kvFree = s.kvFree := rfl
@[simp] theorem State.setComp_kvQuar : (s.setComp c v).kvQuar = s.kvQuar := rfl
@[simp] theorem State.setComp_kvOwned : (s.setComp c v).kvOwned = s.kvOwned := rfl
@[simp] theorem State.setComp_kvUndef : (s.setComp c v).kvUndef = s.kvUndef := rfl
@[simp] theorem State.setComp_kvWins : (s.setComp c v).kvWins = s.kvWins := rfl
@[simp] theorem State.setComp_atuLast : (s.setComp c v).atuLast = s.atuLast := rfl
@[simp] theorem State.setComp_sks : (s.setComp c v).sks = s.sks := rfl
@[simp] theorem State.setComp_eths : (s.setComp c v).eths = s.eths := rfl
@[simp] theorem State.setComp_vcs : (s.setComp c v).vcs = s.vcs := rfl
@[simp] theorem State.setComp_vcLast : (s.setComp c v).vcLast = s.vcLast := rfl
@[simp] theorem State.setComp_scrubPos : (s.setComp c v).scrubPos = s.scrubPos := rfl
@[simp] theorem State.setComp_scrubStart : (s.setComp c v).scrubStart = s.scrubStart := rfl
@[simp] theorem State.setComp_ceStart : (s.setComp c v).ceStart = s.ceStart := rfl
@[simp] theorem State.setComp_subs : (s.setComp c v).subs = s.subs := rfl
@[simp] theorem State.setComp_ramps : (s.setComp c v).ramps = s.ramps := rfl
@[simp] theorem State.setComp_ptPend : (s.setComp c v).ptPend = s.ptPend := rfl

end setComp

section setJob

variable (s : State) (k : Nat) (v : Job)

@[simp] theorem State.setJob_now : (s.setJob k v).now = s.now := rfl
@[simp] theorem State.setJob_pending : (s.setJob k v).pending = s.pending := rfl
@[simp] theorem State.setJob_fresh : (s.setJob k v).fresh = s.fresh := rfl
@[simp] theorem State.setJob_regs : (s.setJob k v).regs = s.regs := rfl
@[simp] theorem State.setJob_outs : (s.setJob k v).outs = s.outs := rfl
@[simp] theorem State.setJob_fns : (s.setJob k v).fns = s.fns := rfl
@[simp] theorem State.setJob_ports : (s.setJob k v).ports = s.ports := rfl
@[simp] theorem State.setJob_ends : (s.setJob k v).ends = s.ends := rfl
@[simp] theorem State.setJob_routeHold : (s.setJob k v).routeHold = s.routeHold := rfl
@[simp] theorem State.setJob_trail : (s.setJob k v).trail = s.trail := rfl
@[simp] theorem State.setJob_board : (s.setJob k v).board = s.board := rfl
@[simp] theorem State.setJob_boot : (s.setJob k v).boot = s.boot := rfl
@[simp] theorem State.setJob_vclkLost : (s.setJob k v).vclkLost = s.vclkLost := rfl
@[simp] theorem State.setJob_devFailed : (s.setJob k v).devFailed = s.devFailed := rfl
@[simp] theorem State.setJob_hubOff : (s.setJob k v).hubOff = s.hubOff := rfl
@[simp] theorem State.setJob_hmp : (s.setJob k v).hmp = s.hmp := rfl
@[simp] theorem State.setJob_cmap : (s.setJob k v).cmap = s.cmap := rfl
@[simp] theorem State.setJob_hmpPend : (s.setJob k v).hmpPend = s.hmpPend := rfl
@[simp] theorem State.setJob_hmpClr : (s.setJob k v).hmpClr = s.hmpClr := rfl
@[simp] theorem State.setJob_tens : (s.setJob k v).tens = s.tens := rfl
@[simp] theorem State.setJob_queues : (s.setJob k v).queues = s.queues := rfl
@[simp] theorem State.setJob_order : (s.setJob k v).order = s.order := rfl
@[simp] theorem State.setJob_resid : (s.setJob k v).resid = s.resid := rfl
@[simp] theorem State.setJob_disps : (s.setJob k v).disps = s.disps := rfl
@[simp] theorem State.setJob_rsts : (s.setJob k v).rsts = s.rsts := rfl
@[simp] theorem State.setJob_cores : (s.setJob k v).cores = s.cores := rfl
@[simp] theorem State.setJob_stores : (s.setJob k v).stores = s.stores := rfl
@[simp] theorem State.setJob_aoUp : (s.setJob k v).aoUp = s.aoUp := rfl
@[simp] theorem State.setJob_power : (s.setJob k v).power = s.power := rfl
@[simp] theorem State.setJob_thm : (s.setJob k v).thm = s.thm := rfl
@[simp] theorem State.setJob_mgt : (s.setJob k v).mgt = s.mgt := rfl
@[simp] theorem State.setJob_snaps : (s.setJob k v).snaps = s.snaps := rfl
@[simp] theorem State.setJob_slices : (s.setJob k v).slices = s.slices := rfl
@[simp] theorem State.setJob_pmem : (s.setJob k v).pmem = s.pmem := rfl
@[simp] theorem State.setJob_near : (s.setJob k v).near = s.near := rfl
@[simp] theorem State.setJob_ueWin : (s.setJob k v).ueWin = s.ueWin := rfl
@[simp] theorem State.setJob_ueSeen : (s.setJob k v).ueSeen = s.ueSeen := rfl
@[simp] theorem State.setJob_loads : (s.setJob k v).loads = s.loads := rfl
@[simp] theorem State.setJob_etab : (s.setJob k v).etab = s.etab := rfl
@[simp] theorem State.setJob_etClock : (s.setJob k v).etClock = s.etClock := rfl
@[simp] theorem State.setJob_hpcCause : (s.setJob k v).hpcCause = s.hpcCause := rfl
@[simp] theorem State.setJob_sparePend : (s.setJob k v).sparePend = s.sparePend := rfl
@[simp] theorem State.setJob_ptpOff : (s.setJob k v).ptpOff = s.ptpOff := rfl
@[simp] theorem State.setJob_held : (s.setJob k v).held = s.held := rfl
@[simp] theorem State.setJob_hubRst : (s.setJob k v).hubRst = s.hubRst := rfl
@[simp] theorem State.setJob_hpcResv : (s.setJob k v).hpcResv = s.hpcResv := rfl
@[simp] theorem State.setJob_transit : (s.setJob k v).transit = s.transit := rfl
@[simp] theorem State.setJob_ideSent : (s.setJob k v).ideSent = s.ideSent := rfl
@[simp] theorem State.setJob_bistCore : (s.setJob k v).bistCore = s.bistCore := rfl
@[simp] theorem State.setJob_bands : (s.setJob k v).bands = s.bands := rfl
@[simp] theorem State.setJob_labs : (s.setJob k v).labs = s.labs := rfl
@[simp] theorem State.setJob_kvFree : (s.setJob k v).kvFree = s.kvFree := rfl
@[simp] theorem State.setJob_kvQuar : (s.setJob k v).kvQuar = s.kvQuar := rfl
@[simp] theorem State.setJob_kvOwned : (s.setJob k v).kvOwned = s.kvOwned := rfl
@[simp] theorem State.setJob_kvUndef : (s.setJob k v).kvUndef = s.kvUndef := rfl
@[simp] theorem State.setJob_kvWins : (s.setJob k v).kvWins = s.kvWins := rfl
@[simp] theorem State.setJob_atuLast : (s.setJob k v).atuLast = s.atuLast := rfl
@[simp] theorem State.setJob_sks : (s.setJob k v).sks = s.sks := rfl
@[simp] theorem State.setJob_eths : (s.setJob k v).eths = s.eths := rfl
@[simp] theorem State.setJob_vcs : (s.setJob k v).vcs = s.vcs := rfl
@[simp] theorem State.setJob_vcLast : (s.setJob k v).vcLast = s.vcLast := rfl
@[simp] theorem State.setJob_scrubPos : (s.setJob k v).scrubPos = s.scrubPos := rfl
@[simp] theorem State.setJob_scrubStart : (s.setJob k v).scrubStart = s.scrubStart := rfl
@[simp] theorem State.setJob_ceStart : (s.setJob k v).ceStart = s.ceStart := rfl
@[simp] theorem State.setJob_subs : (s.setJob k v).subs = s.subs := rfl
@[simp] theorem State.setJob_ramps : (s.setJob k v).ramps = s.ramps := rfl
@[simp] theorem State.setJob_ptPend : (s.setJob k v).ptPend = s.ptPend := rfl

end setJob

section setEt

variable (s : State) (k : Nat) (v : EtEntry)

@[simp] theorem State.setEt_now : (s.setEt k v).now = s.now := rfl
@[simp] theorem State.setEt_pending : (s.setEt k v).pending = s.pending := rfl
@[simp] theorem State.setEt_fresh : (s.setEt k v).fresh = s.fresh := rfl
@[simp] theorem State.setEt_regs : (s.setEt k v).regs = s.regs := rfl
@[simp] theorem State.setEt_outs : (s.setEt k v).outs = s.outs := rfl
@[simp] theorem State.setEt_fns : (s.setEt k v).fns = s.fns := rfl
@[simp] theorem State.setEt_ports : (s.setEt k v).ports = s.ports := rfl
@[simp] theorem State.setEt_ends : (s.setEt k v).ends = s.ends := rfl
@[simp] theorem State.setEt_routeHold : (s.setEt k v).routeHold = s.routeHold := rfl
@[simp] theorem State.setEt_trail : (s.setEt k v).trail = s.trail := rfl
@[simp] theorem State.setEt_board : (s.setEt k v).board = s.board := rfl
@[simp] theorem State.setEt_boot : (s.setEt k v).boot = s.boot := rfl
@[simp] theorem State.setEt_vclkLost : (s.setEt k v).vclkLost = s.vclkLost := rfl
@[simp] theorem State.setEt_devFailed : (s.setEt k v).devFailed = s.devFailed := rfl
@[simp] theorem State.setEt_hubOff : (s.setEt k v).hubOff = s.hubOff := rfl
@[simp] theorem State.setEt_hmp : (s.setEt k v).hmp = s.hmp := rfl
@[simp] theorem State.setEt_cmap : (s.setEt k v).cmap = s.cmap := rfl
@[simp] theorem State.setEt_hmpPend : (s.setEt k v).hmpPend = s.hmpPend := rfl
@[simp] theorem State.setEt_hmpClr : (s.setEt k v).hmpClr = s.hmpClr := rfl
@[simp] theorem State.setEt_tens : (s.setEt k v).tens = s.tens := rfl
@[simp] theorem State.setEt_queues : (s.setEt k v).queues = s.queues := rfl
@[simp] theorem State.setEt_order : (s.setEt k v).order = s.order := rfl
@[simp] theorem State.setEt_resid : (s.setEt k v).resid = s.resid := rfl
@[simp] theorem State.setEt_disps : (s.setEt k v).disps = s.disps := rfl
@[simp] theorem State.setEt_rsts : (s.setEt k v).rsts = s.rsts := rfl
@[simp] theorem State.setEt_cores : (s.setEt k v).cores = s.cores := rfl
@[simp] theorem State.setEt_jobs : (s.setEt k v).jobs = s.jobs := rfl
@[simp] theorem State.setEt_stores : (s.setEt k v).stores = s.stores := rfl
@[simp] theorem State.setEt_aoUp : (s.setEt k v).aoUp = s.aoUp := rfl
@[simp] theorem State.setEt_power : (s.setEt k v).power = s.power := rfl
@[simp] theorem State.setEt_thm : (s.setEt k v).thm = s.thm := rfl
@[simp] theorem State.setEt_mgt : (s.setEt k v).mgt = s.mgt := rfl
@[simp] theorem State.setEt_snaps : (s.setEt k v).snaps = s.snaps := rfl
@[simp] theorem State.setEt_slices : (s.setEt k v).slices = s.slices := rfl
@[simp] theorem State.setEt_pmem : (s.setEt k v).pmem = s.pmem := rfl
@[simp] theorem State.setEt_near : (s.setEt k v).near = s.near := rfl
@[simp] theorem State.setEt_ueWin : (s.setEt k v).ueWin = s.ueWin := rfl
@[simp] theorem State.setEt_ueSeen : (s.setEt k v).ueSeen = s.ueSeen := rfl
@[simp] theorem State.setEt_loads : (s.setEt k v).loads = s.loads := rfl
@[simp] theorem State.setEt_etClock : (s.setEt k v).etClock = s.etClock := rfl
@[simp] theorem State.setEt_hpcCause : (s.setEt k v).hpcCause = s.hpcCause := rfl
@[simp] theorem State.setEt_sparePend : (s.setEt k v).sparePend = s.sparePend := rfl
@[simp] theorem State.setEt_ptpOff : (s.setEt k v).ptpOff = s.ptpOff := rfl
@[simp] theorem State.setEt_held : (s.setEt k v).held = s.held := rfl
@[simp] theorem State.setEt_hubRst : (s.setEt k v).hubRst = s.hubRst := rfl
@[simp] theorem State.setEt_hpcResv : (s.setEt k v).hpcResv = s.hpcResv := rfl
@[simp] theorem State.setEt_transit : (s.setEt k v).transit = s.transit := rfl
@[simp] theorem State.setEt_ideSent : (s.setEt k v).ideSent = s.ideSent := rfl
@[simp] theorem State.setEt_bistCore : (s.setEt k v).bistCore = s.bistCore := rfl
@[simp] theorem State.setEt_bands : (s.setEt k v).bands = s.bands := rfl
@[simp] theorem State.setEt_labs : (s.setEt k v).labs = s.labs := rfl
@[simp] theorem State.setEt_kvFree : (s.setEt k v).kvFree = s.kvFree := rfl
@[simp] theorem State.setEt_kvQuar : (s.setEt k v).kvQuar = s.kvQuar := rfl
@[simp] theorem State.setEt_kvOwned : (s.setEt k v).kvOwned = s.kvOwned := rfl
@[simp] theorem State.setEt_kvUndef : (s.setEt k v).kvUndef = s.kvUndef := rfl
@[simp] theorem State.setEt_kvWins : (s.setEt k v).kvWins = s.kvWins := rfl
@[simp] theorem State.setEt_atuLast : (s.setEt k v).atuLast = s.atuLast := rfl
@[simp] theorem State.setEt_sks : (s.setEt k v).sks = s.sks := rfl
@[simp] theorem State.setEt_eths : (s.setEt k v).eths = s.eths := rfl
@[simp] theorem State.setEt_vcs : (s.setEt k v).vcs = s.vcs := rfl
@[simp] theorem State.setEt_vcLast : (s.setEt k v).vcLast = s.vcLast := rfl
@[simp] theorem State.setEt_scrubPos : (s.setEt k v).scrubPos = s.scrubPos := rfl
@[simp] theorem State.setEt_scrubStart : (s.setEt k v).scrubStart = s.scrubStart := rfl
@[simp] theorem State.setEt_ceStart : (s.setEt k v).ceStart = s.ceStart := rfl
@[simp] theorem State.setEt_subs : (s.setEt k v).subs = s.subs := rfl
@[simp] theorem State.setEt_ramps : (s.setEt k v).ramps = s.ramps := rfl
@[simp] theorem State.setEt_ptPend : (s.setEt k v).ptPend = s.ptPend := rfl

end setEt

section setLoads

variable (s : State) (x : Nat) (l : List LoadOp)

@[simp] theorem State.setLoads_now : (s.setLoads x l).now = s.now := rfl
@[simp] theorem State.setLoads_pending : (s.setLoads x l).pending = s.pending := rfl
@[simp] theorem State.setLoads_fresh : (s.setLoads x l).fresh = s.fresh := rfl
@[simp] theorem State.setLoads_regs : (s.setLoads x l).regs = s.regs := rfl
@[simp] theorem State.setLoads_outs : (s.setLoads x l).outs = s.outs := rfl
@[simp] theorem State.setLoads_fns : (s.setLoads x l).fns = s.fns := rfl
@[simp] theorem State.setLoads_ports : (s.setLoads x l).ports = s.ports := rfl
@[simp] theorem State.setLoads_ends : (s.setLoads x l).ends = s.ends := rfl
@[simp] theorem State.setLoads_routeHold : (s.setLoads x l).routeHold = s.routeHold := rfl
@[simp] theorem State.setLoads_trail : (s.setLoads x l).trail = s.trail := rfl
@[simp] theorem State.setLoads_board : (s.setLoads x l).board = s.board := rfl
@[simp] theorem State.setLoads_boot : (s.setLoads x l).boot = s.boot := rfl
@[simp] theorem State.setLoads_vclkLost : (s.setLoads x l).vclkLost = s.vclkLost := rfl
@[simp] theorem State.setLoads_devFailed : (s.setLoads x l).devFailed = s.devFailed := rfl
@[simp] theorem State.setLoads_hubOff : (s.setLoads x l).hubOff = s.hubOff := rfl
@[simp] theorem State.setLoads_hmp : (s.setLoads x l).hmp = s.hmp := rfl
@[simp] theorem State.setLoads_cmap : (s.setLoads x l).cmap = s.cmap := rfl
@[simp] theorem State.setLoads_hmpPend : (s.setLoads x l).hmpPend = s.hmpPend := rfl
@[simp] theorem State.setLoads_hmpClr : (s.setLoads x l).hmpClr = s.hmpClr := rfl
@[simp] theorem State.setLoads_tens : (s.setLoads x l).tens = s.tens := rfl
@[simp] theorem State.setLoads_queues : (s.setLoads x l).queues = s.queues := rfl
@[simp] theorem State.setLoads_order : (s.setLoads x l).order = s.order := rfl
@[simp] theorem State.setLoads_resid : (s.setLoads x l).resid = s.resid := rfl
@[simp] theorem State.setLoads_disps : (s.setLoads x l).disps = s.disps := rfl
@[simp] theorem State.setLoads_rsts : (s.setLoads x l).rsts = s.rsts := rfl
@[simp] theorem State.setLoads_cores : (s.setLoads x l).cores = s.cores := rfl
@[simp] theorem State.setLoads_jobs : (s.setLoads x l).jobs = s.jobs := rfl
@[simp] theorem State.setLoads_stores : (s.setLoads x l).stores = s.stores := rfl
@[simp] theorem State.setLoads_aoUp : (s.setLoads x l).aoUp = s.aoUp := rfl
@[simp] theorem State.setLoads_power : (s.setLoads x l).power = s.power := rfl
@[simp] theorem State.setLoads_thm : (s.setLoads x l).thm = s.thm := rfl
@[simp] theorem State.setLoads_mgt : (s.setLoads x l).mgt = s.mgt := rfl
@[simp] theorem State.setLoads_snaps : (s.setLoads x l).snaps = s.snaps := rfl
@[simp] theorem State.setLoads_slices : (s.setLoads x l).slices = s.slices := rfl
@[simp] theorem State.setLoads_pmem : (s.setLoads x l).pmem = s.pmem := rfl
@[simp] theorem State.setLoads_near : (s.setLoads x l).near = s.near := rfl
@[simp] theorem State.setLoads_ueWin : (s.setLoads x l).ueWin = s.ueWin := rfl
@[simp] theorem State.setLoads_ueSeen : (s.setLoads x l).ueSeen = s.ueSeen := rfl
@[simp] theorem State.setLoads_etab : (s.setLoads x l).etab = s.etab := rfl
@[simp] theorem State.setLoads_etClock : (s.setLoads x l).etClock = s.etClock := rfl
@[simp] theorem State.setLoads_hpcCause : (s.setLoads x l).hpcCause = s.hpcCause := rfl
@[simp] theorem State.setLoads_sparePend : (s.setLoads x l).sparePend = s.sparePend := rfl
@[simp] theorem State.setLoads_ptpOff : (s.setLoads x l).ptpOff = s.ptpOff := rfl
@[simp] theorem State.setLoads_held : (s.setLoads x l).held = s.held := rfl
@[simp] theorem State.setLoads_hubRst : (s.setLoads x l).hubRst = s.hubRst := rfl
@[simp] theorem State.setLoads_hpcResv : (s.setLoads x l).hpcResv = s.hpcResv := rfl
@[simp] theorem State.setLoads_transit : (s.setLoads x l).transit = s.transit := rfl
@[simp] theorem State.setLoads_ideSent : (s.setLoads x l).ideSent = s.ideSent := rfl
@[simp] theorem State.setLoads_bistCore : (s.setLoads x l).bistCore = s.bistCore := rfl
@[simp] theorem State.setLoads_bands : (s.setLoads x l).bands = s.bands := rfl
@[simp] theorem State.setLoads_labs : (s.setLoads x l).labs = s.labs := rfl
@[simp] theorem State.setLoads_kvFree : (s.setLoads x l).kvFree = s.kvFree := rfl
@[simp] theorem State.setLoads_kvQuar : (s.setLoads x l).kvQuar = s.kvQuar := rfl
@[simp] theorem State.setLoads_kvOwned : (s.setLoads x l).kvOwned = s.kvOwned := rfl
@[simp] theorem State.setLoads_kvUndef : (s.setLoads x l).kvUndef = s.kvUndef := rfl
@[simp] theorem State.setLoads_kvWins : (s.setLoads x l).kvWins = s.kvWins := rfl
@[simp] theorem State.setLoads_atuLast : (s.setLoads x l).atuLast = s.atuLast := rfl
@[simp] theorem State.setLoads_sks : (s.setLoads x l).sks = s.sks := rfl
@[simp] theorem State.setLoads_eths : (s.setLoads x l).eths = s.eths := rfl
@[simp] theorem State.setLoads_vcs : (s.setLoads x l).vcs = s.vcs := rfl
@[simp] theorem State.setLoads_vcLast : (s.setLoads x l).vcLast = s.vcLast := rfl
@[simp] theorem State.setLoads_scrubPos : (s.setLoads x l).scrubPos = s.scrubPos := rfl
@[simp] theorem State.setLoads_scrubStart : (s.setLoads x l).scrubStart = s.scrubStart := rfl
@[simp] theorem State.setLoads_ceStart : (s.setLoads x l).ceStart = s.ceStart := rfl
@[simp] theorem State.setLoads_subs : (s.setLoads x l).subs = s.subs := rfl
@[simp] theorem State.setLoads_ramps : (s.setLoads x l).ramps = s.ramps := rfl
@[simp] theorem State.setLoads_ptPend : (s.setLoads x l).ptPend = s.ptPend := rfl

end setLoads

section setHold

variable (s : State) (t u : Nat) (v : Option Nat)

@[simp] theorem State.setHold_now : (s.setHold t u v).now = s.now := rfl
@[simp] theorem State.setHold_pending : (s.setHold t u v).pending = s.pending := rfl
@[simp] theorem State.setHold_fresh : (s.setHold t u v).fresh = s.fresh := rfl
@[simp] theorem State.setHold_regs : (s.setHold t u v).regs = s.regs := rfl
@[simp] theorem State.setHold_outs : (s.setHold t u v).outs = s.outs := rfl
@[simp] theorem State.setHold_fns : (s.setHold t u v).fns = s.fns := rfl
@[simp] theorem State.setHold_ports : (s.setHold t u v).ports = s.ports := rfl
@[simp] theorem State.setHold_ends : (s.setHold t u v).ends = s.ends := rfl
@[simp] theorem State.setHold_trail : (s.setHold t u v).trail = s.trail := rfl
@[simp] theorem State.setHold_board : (s.setHold t u v).board = s.board := rfl
@[simp] theorem State.setHold_boot : (s.setHold t u v).boot = s.boot := rfl
@[simp] theorem State.setHold_vclkLost : (s.setHold t u v).vclkLost = s.vclkLost := rfl
@[simp] theorem State.setHold_devFailed : (s.setHold t u v).devFailed = s.devFailed := rfl
@[simp] theorem State.setHold_hubOff : (s.setHold t u v).hubOff = s.hubOff := rfl
@[simp] theorem State.setHold_hmp : (s.setHold t u v).hmp = s.hmp := rfl
@[simp] theorem State.setHold_cmap : (s.setHold t u v).cmap = s.cmap := rfl
@[simp] theorem State.setHold_hmpPend : (s.setHold t u v).hmpPend = s.hmpPend := rfl
@[simp] theorem State.setHold_hmpClr : (s.setHold t u v).hmpClr = s.hmpClr := rfl
@[simp] theorem State.setHold_tens : (s.setHold t u v).tens = s.tens := rfl
@[simp] theorem State.setHold_queues : (s.setHold t u v).queues = s.queues := rfl
@[simp] theorem State.setHold_order : (s.setHold t u v).order = s.order := rfl
@[simp] theorem State.setHold_resid : (s.setHold t u v).resid = s.resid := rfl
@[simp] theorem State.setHold_disps : (s.setHold t u v).disps = s.disps := rfl
@[simp] theorem State.setHold_rsts : (s.setHold t u v).rsts = s.rsts := rfl
@[simp] theorem State.setHold_cores : (s.setHold t u v).cores = s.cores := rfl
@[simp] theorem State.setHold_jobs : (s.setHold t u v).jobs = s.jobs := rfl
@[simp] theorem State.setHold_stores : (s.setHold t u v).stores = s.stores := rfl
@[simp] theorem State.setHold_aoUp : (s.setHold t u v).aoUp = s.aoUp := rfl
@[simp] theorem State.setHold_power : (s.setHold t u v).power = s.power := rfl
@[simp] theorem State.setHold_thm : (s.setHold t u v).thm = s.thm := rfl
@[simp] theorem State.setHold_mgt : (s.setHold t u v).mgt = s.mgt := rfl
@[simp] theorem State.setHold_snaps : (s.setHold t u v).snaps = s.snaps := rfl
@[simp] theorem State.setHold_slices : (s.setHold t u v).slices = s.slices := rfl
@[simp] theorem State.setHold_pmem : (s.setHold t u v).pmem = s.pmem := rfl
@[simp] theorem State.setHold_near : (s.setHold t u v).near = s.near := rfl
@[simp] theorem State.setHold_ueWin : (s.setHold t u v).ueWin = s.ueWin := rfl
@[simp] theorem State.setHold_ueSeen : (s.setHold t u v).ueSeen = s.ueSeen := rfl
@[simp] theorem State.setHold_loads : (s.setHold t u v).loads = s.loads := rfl
@[simp] theorem State.setHold_etab : (s.setHold t u v).etab = s.etab := rfl
@[simp] theorem State.setHold_etClock : (s.setHold t u v).etClock = s.etClock := rfl
@[simp] theorem State.setHold_hpcCause : (s.setHold t u v).hpcCause = s.hpcCause := rfl
@[simp] theorem State.setHold_sparePend : (s.setHold t u v).sparePend = s.sparePend := rfl
@[simp] theorem State.setHold_ptpOff : (s.setHold t u v).ptpOff = s.ptpOff := rfl
@[simp] theorem State.setHold_held : (s.setHold t u v).held = s.held := rfl
@[simp] theorem State.setHold_hubRst : (s.setHold t u v).hubRst = s.hubRst := rfl
@[simp] theorem State.setHold_hpcResv : (s.setHold t u v).hpcResv = s.hpcResv := rfl
@[simp] theorem State.setHold_transit : (s.setHold t u v).transit = s.transit := rfl
@[simp] theorem State.setHold_ideSent : (s.setHold t u v).ideSent = s.ideSent := rfl
@[simp] theorem State.setHold_bistCore : (s.setHold t u v).bistCore = s.bistCore := rfl
@[simp] theorem State.setHold_bands : (s.setHold t u v).bands = s.bands := rfl
@[simp] theorem State.setHold_labs : (s.setHold t u v).labs = s.labs := rfl
@[simp] theorem State.setHold_kvFree : (s.setHold t u v).kvFree = s.kvFree := rfl
@[simp] theorem State.setHold_kvQuar : (s.setHold t u v).kvQuar = s.kvQuar := rfl
@[simp] theorem State.setHold_kvOwned : (s.setHold t u v).kvOwned = s.kvOwned := rfl
@[simp] theorem State.setHold_kvUndef : (s.setHold t u v).kvUndef = s.kvUndef := rfl
@[simp] theorem State.setHold_kvWins : (s.setHold t u v).kvWins = s.kvWins := rfl
@[simp] theorem State.setHold_atuLast : (s.setHold t u v).atuLast = s.atuLast := rfl
@[simp] theorem State.setHold_sks : (s.setHold t u v).sks = s.sks := rfl
@[simp] theorem State.setHold_eths : (s.setHold t u v).eths = s.eths := rfl
@[simp] theorem State.setHold_vcs : (s.setHold t u v).vcs = s.vcs := rfl
@[simp] theorem State.setHold_vcLast : (s.setHold t u v).vcLast = s.vcLast := rfl
@[simp] theorem State.setHold_scrubPos : (s.setHold t u v).scrubPos = s.scrubPos := rfl
@[simp] theorem State.setHold_scrubStart : (s.setHold t u v).scrubStart = s.scrubStart := rfl
@[simp] theorem State.setHold_ceStart : (s.setHold t u v).ceStart = s.ceStart := rfl
@[simp] theorem State.setHold_subs : (s.setHold t u v).subs = s.subs := rfl
@[simp] theorem State.setHold_ramps : (s.setHold t u v).ramps = s.ramps := rfl
@[simp] theorem State.setHold_ptPend : (s.setHold t u v).ptPend = s.ptPend := rfl

end setHold

section setSk

variable (s : State) (k : Nat) (v : SkSt)

@[simp] theorem State.setSk_now : (s.setSk k v).now = s.now := rfl
@[simp] theorem State.setSk_pending : (s.setSk k v).pending = s.pending := rfl
@[simp] theorem State.setSk_fresh : (s.setSk k v).fresh = s.fresh := rfl
@[simp] theorem State.setSk_regs : (s.setSk k v).regs = s.regs := rfl
@[simp] theorem State.setSk_outs : (s.setSk k v).outs = s.outs := rfl
@[simp] theorem State.setSk_fns : (s.setSk k v).fns = s.fns := rfl
@[simp] theorem State.setSk_ports : (s.setSk k v).ports = s.ports := rfl
@[simp] theorem State.setSk_ends : (s.setSk k v).ends = s.ends := rfl
@[simp] theorem State.setSk_routeHold : (s.setSk k v).routeHold = s.routeHold := rfl
@[simp] theorem State.setSk_trail : (s.setSk k v).trail = s.trail := rfl
@[simp] theorem State.setSk_board : (s.setSk k v).board = s.board := rfl
@[simp] theorem State.setSk_boot : (s.setSk k v).boot = s.boot := rfl
@[simp] theorem State.setSk_vclkLost : (s.setSk k v).vclkLost = s.vclkLost := rfl
@[simp] theorem State.setSk_devFailed : (s.setSk k v).devFailed = s.devFailed := rfl
@[simp] theorem State.setSk_hubOff : (s.setSk k v).hubOff = s.hubOff := rfl
@[simp] theorem State.setSk_hmp : (s.setSk k v).hmp = s.hmp := rfl
@[simp] theorem State.setSk_cmap : (s.setSk k v).cmap = s.cmap := rfl
@[simp] theorem State.setSk_hmpPend : (s.setSk k v).hmpPend = s.hmpPend := rfl
@[simp] theorem State.setSk_hmpClr : (s.setSk k v).hmpClr = s.hmpClr := rfl
@[simp] theorem State.setSk_tens : (s.setSk k v).tens = s.tens := rfl
@[simp] theorem State.setSk_queues : (s.setSk k v).queues = s.queues := rfl
@[simp] theorem State.setSk_order : (s.setSk k v).order = s.order := rfl
@[simp] theorem State.setSk_resid : (s.setSk k v).resid = s.resid := rfl
@[simp] theorem State.setSk_disps : (s.setSk k v).disps = s.disps := rfl
@[simp] theorem State.setSk_rsts : (s.setSk k v).rsts = s.rsts := rfl
@[simp] theorem State.setSk_cores : (s.setSk k v).cores = s.cores := rfl
@[simp] theorem State.setSk_jobs : (s.setSk k v).jobs = s.jobs := rfl
@[simp] theorem State.setSk_stores : (s.setSk k v).stores = s.stores := rfl
@[simp] theorem State.setSk_aoUp : (s.setSk k v).aoUp = s.aoUp := rfl
@[simp] theorem State.setSk_power : (s.setSk k v).power = s.power := rfl
@[simp] theorem State.setSk_thm : (s.setSk k v).thm = s.thm := rfl
@[simp] theorem State.setSk_mgt : (s.setSk k v).mgt = s.mgt := rfl
@[simp] theorem State.setSk_snaps : (s.setSk k v).snaps = s.snaps := rfl
@[simp] theorem State.setSk_slices : (s.setSk k v).slices = s.slices := rfl
@[simp] theorem State.setSk_pmem : (s.setSk k v).pmem = s.pmem := rfl
@[simp] theorem State.setSk_near : (s.setSk k v).near = s.near := rfl
@[simp] theorem State.setSk_ueWin : (s.setSk k v).ueWin = s.ueWin := rfl
@[simp] theorem State.setSk_ueSeen : (s.setSk k v).ueSeen = s.ueSeen := rfl
@[simp] theorem State.setSk_loads : (s.setSk k v).loads = s.loads := rfl
@[simp] theorem State.setSk_etab : (s.setSk k v).etab = s.etab := rfl
@[simp] theorem State.setSk_etClock : (s.setSk k v).etClock = s.etClock := rfl
@[simp] theorem State.setSk_hpcCause : (s.setSk k v).hpcCause = s.hpcCause := rfl
@[simp] theorem State.setSk_sparePend : (s.setSk k v).sparePend = s.sparePend := rfl
@[simp] theorem State.setSk_ptpOff : (s.setSk k v).ptpOff = s.ptpOff := rfl
@[simp] theorem State.setSk_held : (s.setSk k v).held = s.held := rfl
@[simp] theorem State.setSk_hubRst : (s.setSk k v).hubRst = s.hubRst := rfl
@[simp] theorem State.setSk_hpcResv : (s.setSk k v).hpcResv = s.hpcResv := rfl
@[simp] theorem State.setSk_transit : (s.setSk k v).transit = s.transit := rfl
@[simp] theorem State.setSk_ideSent : (s.setSk k v).ideSent = s.ideSent := rfl
@[simp] theorem State.setSk_bistCore : (s.setSk k v).bistCore = s.bistCore := rfl
@[simp] theorem State.setSk_bands : (s.setSk k v).bands = s.bands := rfl
@[simp] theorem State.setSk_labs : (s.setSk k v).labs = s.labs := rfl
@[simp] theorem State.setSk_kvFree : (s.setSk k v).kvFree = s.kvFree := rfl
@[simp] theorem State.setSk_kvQuar : (s.setSk k v).kvQuar = s.kvQuar := rfl
@[simp] theorem State.setSk_kvOwned : (s.setSk k v).kvOwned = s.kvOwned := rfl
@[simp] theorem State.setSk_kvUndef : (s.setSk k v).kvUndef = s.kvUndef := rfl
@[simp] theorem State.setSk_kvWins : (s.setSk k v).kvWins = s.kvWins := rfl
@[simp] theorem State.setSk_atuLast : (s.setSk k v).atuLast = s.atuLast := rfl
@[simp] theorem State.setSk_eths : (s.setSk k v).eths = s.eths := rfl
@[simp] theorem State.setSk_vcs : (s.setSk k v).vcs = s.vcs := rfl
@[simp] theorem State.setSk_vcLast : (s.setSk k v).vcLast = s.vcLast := rfl
@[simp] theorem State.setSk_scrubPos : (s.setSk k v).scrubPos = s.scrubPos := rfl
@[simp] theorem State.setSk_scrubStart : (s.setSk k v).scrubStart = s.scrubStart := rfl
@[simp] theorem State.setSk_ceStart : (s.setSk k v).ceStart = s.ceStart := rfl
@[simp] theorem State.setSk_subs : (s.setSk k v).subs = s.subs := rfl
@[simp] theorem State.setSk_ramps : (s.setSk k v).ramps = s.ramps := rfl
@[simp] theorem State.setSk_ptPend : (s.setSk k v).ptPend = s.ptPend := rfl

end setSk

section setEth

variable (s : State) (n : Nat) (v : EthPort)

@[simp] theorem State.setEth_now : (s.setEth n v).now = s.now := rfl
@[simp] theorem State.setEth_pending : (s.setEth n v).pending = s.pending := rfl
@[simp] theorem State.setEth_fresh : (s.setEth n v).fresh = s.fresh := rfl
@[simp] theorem State.setEth_regs : (s.setEth n v).regs = s.regs := rfl
@[simp] theorem State.setEth_outs : (s.setEth n v).outs = s.outs := rfl
@[simp] theorem State.setEth_fns : (s.setEth n v).fns = s.fns := rfl
@[simp] theorem State.setEth_ports : (s.setEth n v).ports = s.ports := rfl
@[simp] theorem State.setEth_ends : (s.setEth n v).ends = s.ends := rfl
@[simp] theorem State.setEth_routeHold : (s.setEth n v).routeHold = s.routeHold := rfl
@[simp] theorem State.setEth_trail : (s.setEth n v).trail = s.trail := rfl
@[simp] theorem State.setEth_board : (s.setEth n v).board = s.board := rfl
@[simp] theorem State.setEth_boot : (s.setEth n v).boot = s.boot := rfl
@[simp] theorem State.setEth_vclkLost : (s.setEth n v).vclkLost = s.vclkLost := rfl
@[simp] theorem State.setEth_devFailed : (s.setEth n v).devFailed = s.devFailed := rfl
@[simp] theorem State.setEth_hubOff : (s.setEth n v).hubOff = s.hubOff := rfl
@[simp] theorem State.setEth_hmp : (s.setEth n v).hmp = s.hmp := rfl
@[simp] theorem State.setEth_cmap : (s.setEth n v).cmap = s.cmap := rfl
@[simp] theorem State.setEth_hmpPend : (s.setEth n v).hmpPend = s.hmpPend := rfl
@[simp] theorem State.setEth_hmpClr : (s.setEth n v).hmpClr = s.hmpClr := rfl
@[simp] theorem State.setEth_tens : (s.setEth n v).tens = s.tens := rfl
@[simp] theorem State.setEth_queues : (s.setEth n v).queues = s.queues := rfl
@[simp] theorem State.setEth_order : (s.setEth n v).order = s.order := rfl
@[simp] theorem State.setEth_resid : (s.setEth n v).resid = s.resid := rfl
@[simp] theorem State.setEth_disps : (s.setEth n v).disps = s.disps := rfl
@[simp] theorem State.setEth_rsts : (s.setEth n v).rsts = s.rsts := rfl
@[simp] theorem State.setEth_cores : (s.setEth n v).cores = s.cores := rfl
@[simp] theorem State.setEth_jobs : (s.setEth n v).jobs = s.jobs := rfl
@[simp] theorem State.setEth_stores : (s.setEth n v).stores = s.stores := rfl
@[simp] theorem State.setEth_aoUp : (s.setEth n v).aoUp = s.aoUp := rfl
@[simp] theorem State.setEth_power : (s.setEth n v).power = s.power := rfl
@[simp] theorem State.setEth_thm : (s.setEth n v).thm = s.thm := rfl
@[simp] theorem State.setEth_mgt : (s.setEth n v).mgt = s.mgt := rfl
@[simp] theorem State.setEth_snaps : (s.setEth n v).snaps = s.snaps := rfl
@[simp] theorem State.setEth_slices : (s.setEth n v).slices = s.slices := rfl
@[simp] theorem State.setEth_pmem : (s.setEth n v).pmem = s.pmem := rfl
@[simp] theorem State.setEth_near : (s.setEth n v).near = s.near := rfl
@[simp] theorem State.setEth_ueWin : (s.setEth n v).ueWin = s.ueWin := rfl
@[simp] theorem State.setEth_ueSeen : (s.setEth n v).ueSeen = s.ueSeen := rfl
@[simp] theorem State.setEth_loads : (s.setEth n v).loads = s.loads := rfl
@[simp] theorem State.setEth_etab : (s.setEth n v).etab = s.etab := rfl
@[simp] theorem State.setEth_etClock : (s.setEth n v).etClock = s.etClock := rfl
@[simp] theorem State.setEth_hpcCause : (s.setEth n v).hpcCause = s.hpcCause := rfl
@[simp] theorem State.setEth_sparePend : (s.setEth n v).sparePend = s.sparePend := rfl
@[simp] theorem State.setEth_ptpOff : (s.setEth n v).ptpOff = s.ptpOff := rfl
@[simp] theorem State.setEth_held : (s.setEth n v).held = s.held := rfl
@[simp] theorem State.setEth_hubRst : (s.setEth n v).hubRst = s.hubRst := rfl
@[simp] theorem State.setEth_hpcResv : (s.setEth n v).hpcResv = s.hpcResv := rfl
@[simp] theorem State.setEth_transit : (s.setEth n v).transit = s.transit := rfl
@[simp] theorem State.setEth_ideSent : (s.setEth n v).ideSent = s.ideSent := rfl
@[simp] theorem State.setEth_bistCore : (s.setEth n v).bistCore = s.bistCore := rfl
@[simp] theorem State.setEth_bands : (s.setEth n v).bands = s.bands := rfl
@[simp] theorem State.setEth_labs : (s.setEth n v).labs = s.labs := rfl
@[simp] theorem State.setEth_kvFree : (s.setEth n v).kvFree = s.kvFree := rfl
@[simp] theorem State.setEth_kvQuar : (s.setEth n v).kvQuar = s.kvQuar := rfl
@[simp] theorem State.setEth_kvOwned : (s.setEth n v).kvOwned = s.kvOwned := rfl
@[simp] theorem State.setEth_kvUndef : (s.setEth n v).kvUndef = s.kvUndef := rfl
@[simp] theorem State.setEth_kvWins : (s.setEth n v).kvWins = s.kvWins := rfl
@[simp] theorem State.setEth_atuLast : (s.setEth n v).atuLast = s.atuLast := rfl
@[simp] theorem State.setEth_sks : (s.setEth n v).sks = s.sks := rfl
@[simp] theorem State.setEth_vcs : (s.setEth n v).vcs = s.vcs := rfl
@[simp] theorem State.setEth_vcLast : (s.setEth n v).vcLast = s.vcLast := rfl
@[simp] theorem State.setEth_scrubPos : (s.setEth n v).scrubPos = s.scrubPos := rfl
@[simp] theorem State.setEth_scrubStart : (s.setEth n v).scrubStart = s.scrubStart := rfl
@[simp] theorem State.setEth_ceStart : (s.setEth n v).ceStart = s.ceStart := rfl
@[simp] theorem State.setEth_subs : (s.setEth n v).subs = s.subs := rfl
@[simp] theorem State.setEth_ramps : (s.setEth n v).ramps = s.ramps := rfl
@[simp] theorem State.setEth_ptPend : (s.setEth n v).ptPend = s.ptPend := rfl

end setEth

section setVc

variable (s : State) (i : Nat) (v : VcSt)

@[simp] theorem State.setVc_now : (s.setVc i v).now = s.now := rfl
@[simp] theorem State.setVc_pending : (s.setVc i v).pending = s.pending := rfl
@[simp] theorem State.setVc_fresh : (s.setVc i v).fresh = s.fresh := rfl
@[simp] theorem State.setVc_regs : (s.setVc i v).regs = s.regs := rfl
@[simp] theorem State.setVc_outs : (s.setVc i v).outs = s.outs := rfl
@[simp] theorem State.setVc_fns : (s.setVc i v).fns = s.fns := rfl
@[simp] theorem State.setVc_ports : (s.setVc i v).ports = s.ports := rfl
@[simp] theorem State.setVc_ends : (s.setVc i v).ends = s.ends := rfl
@[simp] theorem State.setVc_routeHold : (s.setVc i v).routeHold = s.routeHold := rfl
@[simp] theorem State.setVc_trail : (s.setVc i v).trail = s.trail := rfl
@[simp] theorem State.setVc_board : (s.setVc i v).board = s.board := rfl
@[simp] theorem State.setVc_boot : (s.setVc i v).boot = s.boot := rfl
@[simp] theorem State.setVc_vclkLost : (s.setVc i v).vclkLost = s.vclkLost := rfl
@[simp] theorem State.setVc_devFailed : (s.setVc i v).devFailed = s.devFailed := rfl
@[simp] theorem State.setVc_hubOff : (s.setVc i v).hubOff = s.hubOff := rfl
@[simp] theorem State.setVc_hmp : (s.setVc i v).hmp = s.hmp := rfl
@[simp] theorem State.setVc_cmap : (s.setVc i v).cmap = s.cmap := rfl
@[simp] theorem State.setVc_hmpPend : (s.setVc i v).hmpPend = s.hmpPend := rfl
@[simp] theorem State.setVc_hmpClr : (s.setVc i v).hmpClr = s.hmpClr := rfl
@[simp] theorem State.setVc_tens : (s.setVc i v).tens = s.tens := rfl
@[simp] theorem State.setVc_queues : (s.setVc i v).queues = s.queues := rfl
@[simp] theorem State.setVc_order : (s.setVc i v).order = s.order := rfl
@[simp] theorem State.setVc_resid : (s.setVc i v).resid = s.resid := rfl
@[simp] theorem State.setVc_disps : (s.setVc i v).disps = s.disps := rfl
@[simp] theorem State.setVc_rsts : (s.setVc i v).rsts = s.rsts := rfl
@[simp] theorem State.setVc_cores : (s.setVc i v).cores = s.cores := rfl
@[simp] theorem State.setVc_jobs : (s.setVc i v).jobs = s.jobs := rfl
@[simp] theorem State.setVc_stores : (s.setVc i v).stores = s.stores := rfl
@[simp] theorem State.setVc_aoUp : (s.setVc i v).aoUp = s.aoUp := rfl
@[simp] theorem State.setVc_power : (s.setVc i v).power = s.power := rfl
@[simp] theorem State.setVc_thm : (s.setVc i v).thm = s.thm := rfl
@[simp] theorem State.setVc_mgt : (s.setVc i v).mgt = s.mgt := rfl
@[simp] theorem State.setVc_snaps : (s.setVc i v).snaps = s.snaps := rfl
@[simp] theorem State.setVc_slices : (s.setVc i v).slices = s.slices := rfl
@[simp] theorem State.setVc_pmem : (s.setVc i v).pmem = s.pmem := rfl
@[simp] theorem State.setVc_near : (s.setVc i v).near = s.near := rfl
@[simp] theorem State.setVc_ueWin : (s.setVc i v).ueWin = s.ueWin := rfl
@[simp] theorem State.setVc_ueSeen : (s.setVc i v).ueSeen = s.ueSeen := rfl
@[simp] theorem State.setVc_loads : (s.setVc i v).loads = s.loads := rfl
@[simp] theorem State.setVc_etab : (s.setVc i v).etab = s.etab := rfl
@[simp] theorem State.setVc_etClock : (s.setVc i v).etClock = s.etClock := rfl
@[simp] theorem State.setVc_hpcCause : (s.setVc i v).hpcCause = s.hpcCause := rfl
@[simp] theorem State.setVc_sparePend : (s.setVc i v).sparePend = s.sparePend := rfl
@[simp] theorem State.setVc_ptpOff : (s.setVc i v).ptpOff = s.ptpOff := rfl
@[simp] theorem State.setVc_held : (s.setVc i v).held = s.held := rfl
@[simp] theorem State.setVc_hubRst : (s.setVc i v).hubRst = s.hubRst := rfl
@[simp] theorem State.setVc_hpcResv : (s.setVc i v).hpcResv = s.hpcResv := rfl
@[simp] theorem State.setVc_transit : (s.setVc i v).transit = s.transit := rfl
@[simp] theorem State.setVc_ideSent : (s.setVc i v).ideSent = s.ideSent := rfl
@[simp] theorem State.setVc_bistCore : (s.setVc i v).bistCore = s.bistCore := rfl
@[simp] theorem State.setVc_bands : (s.setVc i v).bands = s.bands := rfl
@[simp] theorem State.setVc_labs : (s.setVc i v).labs = s.labs := rfl
@[simp] theorem State.setVc_kvFree : (s.setVc i v).kvFree = s.kvFree := rfl
@[simp] theorem State.setVc_kvQuar : (s.setVc i v).kvQuar = s.kvQuar := rfl
@[simp] theorem State.setVc_kvOwned : (s.setVc i v).kvOwned = s.kvOwned := rfl
@[simp] theorem State.setVc_kvUndef : (s.setVc i v).kvUndef = s.kvUndef := rfl
@[simp] theorem State.setVc_kvWins : (s.setVc i v).kvWins = s.kvWins := rfl
@[simp] theorem State.setVc_atuLast : (s.setVc i v).atuLast = s.atuLast := rfl
@[simp] theorem State.setVc_sks : (s.setVc i v).sks = s.sks := rfl
@[simp] theorem State.setVc_eths : (s.setVc i v).eths = s.eths := rfl
@[simp] theorem State.setVc_vcLast : (s.setVc i v).vcLast = s.vcLast := rfl
@[simp] theorem State.setVc_scrubPos : (s.setVc i v).scrubPos = s.scrubPos := rfl
@[simp] theorem State.setVc_scrubStart : (s.setVc i v).scrubStart = s.scrubStart := rfl
@[simp] theorem State.setVc_ceStart : (s.setVc i v).ceStart = s.ceStart := rfl
@[simp] theorem State.setVc_subs : (s.setVc i v).subs = s.subs := rfl
@[simp] theorem State.setVc_ramps : (s.setVc i v).ramps = s.ramps := rfl
@[simp] theorem State.setVc_ptPend : (s.setVc i v).ptPend = s.ptPend := rfl

end setVc

end Sys2Proof.Machine
end

