-- ==== Sys2Proof/Laws/Tab.lean ====
section
/-! SUPPORT. The laws of `Tab`: read after write, and every operation keeps the canonical form. -/
namespace Sys2Proof.Machine

variable {V : Type}

@[simp] theorem Tab.get_nil (d : Nat → V) (k : Nat) : Tab.get d [] k = d k := rfl

theorem Tab.get_ins_self (d : Nat → V) (m : Tab V) (k : Nat) (v : V) :
    Tab.get d (Tab.ins k v m) k = v := by
  induction m with
  | nil => simp [Tab.ins, Tab.get]
  | cons e m ih =>
    obtain ⟨j, w⟩ := e
    by_cases h1 : k < j
    · simp [Tab.ins, h1, Tab.get]
    · by_cases h2 : k = j
      · subst h2; simp [Tab.ins, Tab.get]
      · simp [Tab.ins, h1, h2, Tab.get, ih]

theorem Tab.get_ins_ne (d : Nat → V) (m : Tab V) (k j : Nat) (v : V) (h : j ≠ k) :
    Tab.get d (Tab.ins k v m) j = Tab.get d m j := by
  induction m with
  | nil => simp [Tab.ins, Tab.get, h]
  | cons e m ih =>
    obtain ⟨i, w⟩ := e
    by_cases h1 : k < i
    · simp [Tab.ins, h1, Tab.get, h]
    · by_cases h2 : k = i
      · subst h2; simp [Tab.ins, Tab.get, h]
      · simp only [Tab.ins, h1, h2, if_false, Tab.get]
        by_cases h3 : j = i <;> simp [h3, ih]

theorem Tab.get_del_self (d : Nat → V) (m : Tab V) (k : Nat) : Tab.get d (Tab.del k m) k = d k := by
  induction m with
  | nil => rfl
  | cons e m ih =>
    obtain ⟨j, w⟩ := e
    by_cases h : k = j
    · simp [Tab.del, h] at ih ⊢; exact ih
    · simp [Tab.del, h, Tab.get, ih]

theorem Tab.get_del_ne (d : Nat → V) (m : Tab V) (k j : Nat) (h : j ≠ k) :
    Tab.get d (Tab.del k m) j = Tab.get d m j := by
  induction m with
  | nil => rfl
  | cons e m ih =>
    obtain ⟨i, w⟩ := e
    by_cases h1 : k = i
    · subst h1; simp [Tab.del, Tab.get, h, ih]
    · by_cases h2 : j = i <;> simp [Tab.del, h1, Tab.get, h2, ih]


@[simp] theorem Tab.get_set_self [DecidableEq V] (d : Nat → V) (m : Tab V) (k : Nat) (v : V) :
    Tab.get d (Tab.set d m k v) k = v := by
  unfold Tab.set
  split
  · rename_i h; rw [Tab.get_del_self, h]
  · exact Tab.get_ins_self d m k v

theorem Tab.get_set_ne [DecidableEq V] (d : Nat → V) (m : Tab V) (k j : Nat) (v : V) (h : j ≠ k) :
    Tab.get d (Tab.set d m k v) j = Tab.get d m j := by
  unfold Tab.set
  split
  · exact Tab.get_del_ne d m k j h
  · exact Tab.get_ins_ne d m k j v h

theorem Tab.get_set [DecidableEq V] (d : Nat → V) (m : Tab V) (k j : Nat) (v : V) :
    Tab.get d (Tab.set d m k v) j = if j = k then v else Tab.get d m j := by
  by_cases h : j = k
  · subst h; simp
  · simp [h, Tab.get_set_ne d m k j v h]

theorem Tab.get_filter (d : Nat → V) (m : Tab V) (p : Nat → Bool) (k : Nat) :
    Tab.get d (m.filter fun e => p e.1) k = if p k then Tab.get d m k else d k := by
  induction m with
  | nil => simp
  | cons e m ih =>
    obtain ⟨j, w⟩ := e
    by_cases hj : k = j
    · subst hj
      by_cases hp : p k <;> simp [hp, Tab.get]
      simpa [hp] using ih
    · by_cases hp : p j <;> simp [hp, Tab.get, hj, ih]

theorem Tab.get_clear (d : Nat → V) (m : Tab V) (lo n k : Nat) :
    Tab.get d (Tab.clear m lo n) k = if lo ≤ k ∧ k < lo + n then d k else Tab.get d m k := by
  have := Tab.get_filter d m (fun j => decide (j < lo ∨ lo + n ≤ j)) k
  unfold Tab.clear
  rw [this]
  by_cases h : lo ≤ k ∧ k < lo + n
  · have h' : ¬ (k < lo ∨ lo + n ≤ k) := by omega
    simp [h, h']
  · have h' : k < lo ∨ lo + n ≤ k := by omega
    simp [h, h']

theorem Tab.get_clearIf (d : Nat → V) (m : Tab V) (p : Nat → Bool) (k : Nat) :
    Tab.get d (Tab.clearIf m p) k = if p k then d k else Tab.get d m k := by
  have := Tab.get_filter d m (fun j => !(p j)) k
  unfold Tab.clearIf
  rw [this]
  by_cases h : p k <;> simp [h]

/-! The canonical form. -/

/-- Rising keys said pairwise. -/
theorem Tab.rising_iff (m : Tab V) : Tab.rising m = true ↔ m.Pairwise (fun a b => a.1 < b.1) := by
  induction m with
  | nil => simp [Tab.rising]
  | cons e m ih =>
    cases m with
    | nil => simp [Tab.rising]
    | cons f m =>
      obtain ⟨j, v⟩ := e; obtain ⟨k, w⟩ := f
      simp only [Tab.rising, Bool.and_eq_true, decide_eq_true_eq, ih]
      constructor
      · rintro ⟨h1, h2⟩
        refine List.pairwise_cons.2 ⟨?_, h2⟩
        intro a ha
        rcases List.mem_cons.1 ha with rfl | ha
        · exact h1
        · exact Nat.lt_trans h1 ((List.pairwise_cons.1 h2).1 a ha)
      · intro h
        have h' := List.pairwise_cons.1 h
        exact ⟨h'.1 (k, w) (by simp), h'.2⟩

theorem Tab.wf_iff [DecidableEq V] (d : Nat → V) (m : Tab V) :
    Tab.wf d m = true ↔ m.Pairwise (fun a b => a.1 < b.1) ∧ ∀ e ∈ m, e.2 ≠ d e.1 := by
  simp [Tab.wf, Tab.rising_iff]

theorem Tab.mem_ins (k : Nat) (v : V) (m : Tab V) (e : Nat × V) (h : e ∈ Tab.ins k v m) :
    e = (k, v) ∨ e ∈ m := by
  induction m with
  | nil => simp [Tab.ins] at h; exact .inl h
  | cons f m ih =>
    obtain ⟨j, w⟩ := f
    by_cases h1 : k < j
    · simp [Tab.ins, h1] at h; rcases h with h | h | h <;> simp_all
    · by_cases h2 : k = j
      · simp [Tab.ins, h2] at h; rcases h with h | h <;> simp_all
      · simp [Tab.ins, h1, h2] at h
        rcases h with h | h
        · simp [h]
        · rcases ih h with h | h <;> simp [h]

theorem Tab.mem_del (k : Nat) (m : Tab V) (e : Nat × V) (h : e ∈ Tab.del k m) : e ∈ m := by
  induction m with
  | nil => simp [Tab.del] at h
  | cons f m ih =>
    obtain ⟨j, w⟩ := f
    by_cases h1 : k = j
    · simp [Tab.del, h1] at h ih; simp [ih h]
    · simp [Tab.del, h1] at h
      rcases h with h | h
      · simp [h]
      · simp [ih h]

theorem Tab.pairwise_ins (k : Nat) (v : V) (m : Tab V) (h : m.Pairwise (fun a b => a.1 < b.1)) :
    (Tab.ins k v m).Pairwise (fun a b => a.1 < b.1) := by
  induction m with
  | nil => simp [Tab.ins]
  | cons f m ih =>
    obtain ⟨j, w⟩ := f
    have h' := List.pairwise_cons.1 h
    by_cases h1 : k < j
    · simp only [Tab.ins, h1, if_true]
      refine List.pairwise_cons.2 ⟨?_, h⟩
      intro a ha
      rcases List.mem_cons.1 ha with rfl | ha
      · exact h1
      · exact Nat.lt_trans h1 (h'.1 a ha)
    · by_cases h2 : k = j
      · subst h2
        simp only [Tab.ins, Nat.lt_irrefl, if_false, if_true]
        exact List.pairwise_cons.2 ⟨h'.1, h'.2⟩
      · simp only [Tab.ins, h1, h2, if_false]
        refine List.pairwise_cons.2 ⟨?_, ih h'.2⟩
        intro a ha
        rcases Tab.mem_ins k v m a ha with rfl | ha
        · show j < k; omega
        · exact h'.1 a ha

theorem Tab.pairwise_del (k : Nat) (m : Tab V) (h : m.Pairwise (fun a b => a.1 < b.1)) :
    (Tab.del k m).Pairwise (fun a b => a.1 < b.1) := by
  induction m with
  | nil => simp [Tab.del]
  | cons f m ih =>
    obtain ⟨j, w⟩ := f
    have h' := List.pairwise_cons.1 h
    by_cases h1 : k = j
    · simpa [Tab.del, h1] using ih h'.2
    · simp only [Tab.del, h1, if_false]
      exact List.pairwise_cons.2 ⟨fun a ha => h'.1 a (Tab.mem_del k m a ha), ih h'.2⟩

theorem Tab.wf_set [DecidableEq V] (d : Nat → V) (m : Tab V) (k : Nat) (v : V) (h : Tab.wf d m = true) :
    Tab.wf d (Tab.set d m k v) = true := by
  rw [Tab.wf_iff] at h ⊢
  unfold Tab.set
  split
  · exact ⟨Tab.pairwise_del k m h.1, fun e he => h.2 e (Tab.mem_del k m e he)⟩
  · rename_i hv
    refine ⟨Tab.pairwise_ins k v m h.1, fun e he => ?_⟩
    rcases Tab.mem_ins k v m e he with rfl | he
    · exact hv
    · exact h.2 e he

theorem Tab.wf_filter [DecidableEq V] (d : Nat → V) (m : Tab V) (p : Nat × V → Bool) (h : Tab.wf d m = true) :
    Tab.wf d (m.filter p) = true := by
  rw [Tab.wf_iff] at h ⊢
  exact ⟨h.1.filter p, fun e he => h.2 e (List.mem_filter.1 he).1⟩

theorem Tab.wf_clear [DecidableEq V] (d : Nat → V) (m : Tab V) (lo n : Nat) (h : Tab.wf d m = true) :
    Tab.wf d (Tab.clear m lo n) = true := Tab.wf_filter d m _ h

theorem Tab.wf_clearIf [DecidableEq V] (d : Nat → V) (m : Tab V) (p : Nat → Bool) (h : Tab.wf d m = true) :
    Tab.wf d (Tab.clearIf m p) = true := Tab.wf_filter d m _ h

end Sys2Proof.Machine
end

