-- ==== Sys2Proof/Laws/Regs.lean ====
section
/-! SUPPORT. Reading a register field or a keyed part after an update, and what the shared operations (events, errors, Trail records, messages) can do. -/
namespace Sys2Proof.Machine

/-! Reading after an update of the same table. -/

theorem State.fld_setFld (s : State) (pg : Nat) (f : Fld) (v : Nat) (p' : Nat) (f' : Fld) :
    (s.setFld pg f v).fld p' f' = if fkey p' f' = fkey pg f then v % 2 ^ f.len else s.fld p' f' := Tab.get_set _ _ _ _ _

@[simp] theorem State.fld_setFld_self (s : State) (pg : Nat) (f : Fld) (v : Nat) : (s.setFld pg f v).fld pg f = v % 2 ^ f.len :=
  Tab.get_set_self _ _ _ _

theorem State.fld_setFld_ne (s : State) (pg : Nat) (f : Fld) (v : Nat) (p' : Nat) (f' : Fld) (h : fkey p' f' ≠ fkey pg f) :
    (s.setFld pg f v).fld p' f' = s.fld p' f' := Tab.get_set_ne _ _ _ _ _ h

/-- Two fields share a key only where page, offset and low bit agree. -/
theorem fkey_inj (p p' : Nat) (f f' : Fld) (h1 : f.off < 4096) (h2 : f'.off < 4096) (h3 : f.lo < 32) (h4 : f'.lo < 32) :
    fkey p f = fkey p' f' ↔ p = p' ∧ f.off = f'.off ∧ f.lo = f'.lo := by
  unfold fkey; omega

theorem State.fn_setFn (s : State) (k : Nat) (v : FnSt) (j : Nat) : (s.setFn k v).fn j = if j = k then v else s.fn j := Tab.get_set _ _ _ _ _
@[simp] theorem State.fn_setFn_self (s : State) (k : Nat) (v : FnSt) : (s.setFn k v).fn k = v := Tab.get_set_self _ _ _ _
theorem State.port_setPort (s : State) (k : Nat) (v : Port) (j : Nat) : (s.setPort k v).port j = if j = k then v else s.port j := Tab.get_set _ _ _ _ _
@[simp] theorem State.port_setPort_self (s : State) (k : Nat) (v : Port) : (s.setPort k v).port k = v := Tab.get_set_self _ _ _ _
theorem State.lend_setLend (s : State) (k : Nat) (v : LinkEnd) (j : Nat) : (s.setLend k v).lend j = if j = k then v else s.lend j := Tab.get_set _ _ _ _ _
@[simp] theorem State.lend_setLend_self (s : State) (k : Nat) (v : LinkEnd) : (s.setLend k v).lend k = v := Tab.get_set_self _ _ _ _
theorem State.ten_setTen (s : State) (k : Nat) (v : TenSt) (j : Nat) : (s.setTen k v).ten j = if j = k then v else s.ten j := Tab.get_set _ _ _ _ _
@[simp] theorem State.ten_setTen_self (s : State) (k : Nat) (v : TenSt) : (s.setTen k v).ten k = v := Tab.get_set_self _ _ _ _
theorem State.res_setRes (s : State) (k : Nat) (v : Resid) (j : Nat) : (s.setRes k v).res j = if j = k then v else s.res j := Tab.get_set _ _ _ _ _
@[simp] theorem State.res_setRes_self (s : State) (k : Nat) (v : Resid) : (s.setRes k v).res k = v := Tab.get_set_self _ _ _ _
theorem State.dsp_setDsp (s : State) (k : Nat) (v : DispSt) (j : Nat) : (s.setDsp k v).dsp j = if j = k then v else s.dsp j := Tab.get_set _ _ _ _ _
@[simp] theorem State.dsp_setDsp_self (s : State) (k : Nat) (v : DispSt) : (s.setDsp k v).dsp k = v := Tab.get_set_self _ _ _ _
theorem State.core_setCore (s : State) (k : Nat) (v : Core) (j : Nat) : (s.setCore k v).core j = if j = k then v else s.core j := Tab.get_set _ _ _ _ _
@[simp] theorem State.core_setCore_self (s : State) (k : Nat) (v : Core) : (s.setCore k v).core k = v := Tab.get_set_self _ _ _ _
theorem State.job_setJob (s : State) (k : Nat) (v : Job) (j : Nat) : (s.setJob k v).job j = if j = k then v else s.job j := Tab.get_set _ _ _ _ _
@[simp] theorem State.job_setJob_self (s : State) (k : Nat) (v : Job) : (s.setJob k v).job k = v := Tab.get_set_self _ _ _ _
theorem State.pm_setPm (s : State) (k : Nat) (v : PartMem) (j : Nat) : (s.setPm k v).pm j = if j = k then v else s.pm j := Tab.get_set _ _ _ _ _
@[simp] theorem State.pm_setPm_self (s : State) (k : Nat) (v : PartMem) : (s.setPm k v).pm k = v := Tab.get_set_self _ _ _ _
theorem State.backing_setBacking (s : State) (k : Nat) (v : Backing) (j : Nat) : (s.setBacking k v).backing j = if j = k then v else s.backing j := Tab.get_set _ _ _ _ _
@[simp] theorem State.backing_setBacking_self (s : State) (k : Nat) (v : Backing) : (s.setBacking k v).backing k = v := Tab.get_set_self _ _ _ _
theorem State.comp_setComp (s : State) (k : Nat) (v : Comp) (j : Nat) : (s.setComp k v).comp j = if j = k then v else s.comp j := Tab.get_set _ _ _ _ _
@[simp] theorem State.comp_setComp_self (s : State) (k : Nat) (v : Comp) : (s.setComp k v).comp k = v := Tab.get_set_self _ _ _ _
theorem State.sk_setSk (s : State) (k : Nat) (v : SkSt) (j : Nat) : (s.setSk k v).sk j = if j = k then v else s.sk j := Tab.get_set _ _ _ _ _
@[simp] theorem State.sk_setSk_self (s : State) (k : Nat) (v : SkSt) : (s.setSk k v).sk k = v := Tab.get_set_self _ _ _ _
theorem State.eth_setEth (s : State) (k : Nat) (v : EthPort) (j : Nat) : (s.setEth k v).eth j = if j = k then v else s.eth j := Tab.get_set _ _ _ _ _
@[simp] theorem State.eth_setEth_self (s : State) (k : Nat) (v : EthPort) : (s.setEth k v).eth k = v := Tab.get_set_self _ _ _ _
theorem State.vc_setVc (s : State) (k : Nat) (v : VcSt) (j : Nat) : (s.setVc k v).vc j = if j = k then v else s.vc j := Tab.get_set _ _ _ _ _
@[simp] theorem State.vc_setVc_self (s : State) (k : Nat) (v : VcSt) : (s.setVc k v).vc k = v := Tab.get_set_self _ _ _ _
theorem State.queue_setQueue (s : State) (n q : Nat) (v : QueueSt) (m r : Nat) :
    (s.setQueue n q v).queue m r = if 8 * m + r = 8 * n + q then v else s.queue m r := Tab.get_set _ _ _ _ _
@[simp] theorem State.queue_setQueue_self (s : State) (n q : Nat) (v : QueueSt) : (s.setQueue n q v).queue n q = v := Tab.get_set_self _ _ _ _

/-! Reading after an update of another table. -/

section setFld

variable (s : State) (pg : Nat) (f : Fld) (v : Nat)

@[simp] theorem State.fn_setFld (j : Nat) : (s.setFld pg f v).fn j = s.fn j := rfl
@[simp] theorem State.port_setFld (j : Nat) : (s.setFld pg f v).port j = s.port j := rfl
@[simp] theorem State.lend_setFld (j : Nat) : (s.setFld pg f v).lend j = s.lend j := rfl
@[simp] theorem State.ten_setFld (j : Nat) : (s.setFld pg f v).ten j = s.ten j := rfl
@[simp] theorem State.queue_setFld (m r : Nat) : (s.setFld pg f v).queue m r = s.queue m r := rfl
@[simp] theorem State.res_setFld (j : Nat) : (s.setFld pg f v).res j = s.res j := rfl
@[simp] theorem State.dsp_setFld (j : Nat) : (s.setFld pg f v).dsp j = s.dsp j := rfl
@[simp] theorem State.core_setFld (j : Nat) : (s.setFld pg f v).core j = s.core j := rfl
@[simp] theorem State.job_setFld (j : Nat) : (s.setFld pg f v).job j = s.job j := rfl
@[simp] theorem State.pm_setFld (j : Nat) : (s.setFld pg f v).pm j = s.pm j := rfl
@[simp] theorem State.backing_setFld (j : Nat) : (s.setFld pg f v).backing j = s.backing j := rfl
@[simp] theorem State.comp_setFld (j : Nat) : (s.setFld pg f v).comp j = s.comp j := rfl
@[simp] theorem State.sk_setFld (j : Nat) : (s.setFld pg f v).sk j = s.sk j := rfl
@[simp] theorem State.eth_setFld (j : Nat) : (s.setFld pg f v).eth j = s.eth j := rfl
@[simp] theorem State.vc_setFld (j : Nat) : (s.setFld pg f v).vc j = s.vc j := rfl

end setFld

section emit

variable (s : State) (o : Out)

@[simp] theorem State.fld_emit (p' : Nat) (f' : Fld) : (s.emit o).fld p' f' = s.fld p' f' := rfl
@[simp] theorem State.fn_emit (j : Nat) : (s.emit o).fn j = s.fn j := rfl
@[simp] theorem State.port_emit (j : Nat) : (s.emit o).port j = s.port j := rfl
@[simp] theorem State.lend_emit (j : Nat) : (s.emit o).lend j = s.lend j := rfl
@[simp] theorem State.ten_emit (j : Nat) : (s.emit o).ten j = s.ten j := rfl
@[simp] theorem State.queue_emit (m r : Nat) : (s.emit o).queue m r = s.queue m r := rfl
@[simp] theorem State.res_emit (j : Nat) : (s.emit o).res j = s.res j := rfl
@[simp] theorem State.dsp_emit (j : Nat) : (s.emit o).dsp j = s.dsp j := rfl
@[simp] theorem State.core_emit (j : Nat) : (s.emit o).core j = s.core j := rfl
@[simp] theorem State.job_emit (j : Nat) : (s.emit o).job j = s.job j := rfl
@[simp] theorem State.pm_emit (j : Nat) : (s.emit o).pm j = s.pm j := rfl
@[simp] theorem State.backing_emit (j : Nat) : (s.emit o).backing j = s.backing j := rfl
@[simp] theorem State.comp_emit (j : Nat) : (s.emit o).comp j = s.comp j := rfl
@[simp] theorem State.sk_emit (j : Nat) : (s.emit o).sk j = s.sk j := rfl
@[simp] theorem State.eth_emit (j : Nat) : (s.emit o).eth j = s.eth j := rfl
@[simp] theorem State.vc_emit (j : Nat) : (s.emit o).vc j = s.vc j := rfl

end emit

section tick

variable (s : State) 

@[simp] theorem State.fld_tick (p' : Nat) (f' : Fld) : (s.tick).fld p' f' = s.fld p' f' := rfl
@[simp] theorem State.fn_tick (j : Nat) : (s.tick).fn j = s.fn j := rfl
@[simp] theorem State.port_tick (j : Nat) : (s.tick).port j = s.port j := rfl
@[simp] theorem State.lend_tick (j : Nat) : (s.tick).lend j = s.lend j := rfl
@[simp] theorem State.ten_tick (j : Nat) : (s.tick).ten j = s.ten j := rfl
@[simp] theorem State.queue_tick (m r : Nat) : (s.tick).queue m r = s.queue m r := rfl
@[simp] theorem State.res_tick (j : Nat) : (s.tick).res j = s.res j := rfl
@[simp] theorem State.dsp_tick (j : Nat) : (s.tick).dsp j = s.dsp j := rfl
@[simp] theorem State.core_tick (j : Nat) : (s.tick).core j = s.core j := rfl
@[simp] theorem State.job_tick (j : Nat) : (s.tick).job j = s.job j := rfl
@[simp] theorem State.pm_tick (j : Nat) : (s.tick).pm j = s.pm j := rfl
@[simp] theorem State.backing_tick (j : Nat) : (s.tick).backing j = s.backing j := rfl
@[simp] theorem State.comp_tick (j : Nat) : (s.tick).comp j = s.comp j := rfl
@[simp] theorem State.sk_tick (j : Nat) : (s.tick).sk j = s.sk j := rfl
@[simp] theorem State.eth_tick (j : Nat) : (s.tick).eth j = s.eth j := rfl
@[simp] theorem State.vc_tick (j : Nat) : (s.tick).vc j = s.vc j := rfl

end tick

section setFn

variable (s : State) (k : Nat) (v : FnSt)

@[simp] theorem State.fld_setFn (p' : Nat) (f' : Fld) : (s.setFn k v).fld p' f' = s.fld p' f' := rfl
@[simp] theorem State.port_setFn (j : Nat) : (s.setFn k v).port j = s.port j := rfl
@[simp] theorem State.lend_setFn (j : Nat) : (s.setFn k v).lend j = s.lend j := rfl
@[simp] theorem State.ten_setFn (j : Nat) : (s.setFn k v).ten j = s.ten j := rfl
@[simp] theorem State.queue_setFn (m r : Nat) : (s.setFn k v).queue m r = s.queue m r := rfl
@[simp] theorem State.res_setFn (j : Nat) : (s.setFn k v).res j = s.res j := rfl
@[simp] theorem State.dsp_setFn (j : Nat) : (s.setFn k v).dsp j = s.dsp j := rfl
@[simp] theorem State.core_setFn (j : Nat) : (s.setFn k v).core j = s.core j := rfl
@[simp] theorem State.job_setFn (j : Nat) : (s.setFn k v).job j = s.job j := rfl
@[simp] theorem State.pm_setFn (j : Nat) : (s.setFn k v).pm j = s.pm j := rfl
@[simp] theorem State.backing_setFn (j : Nat) : (s.setFn k v).backing j = s.backing j := rfl
@[simp] theorem State.comp_setFn (j : Nat) : (s.setFn k v).comp j = s.comp j := rfl
@[simp] theorem State.sk_setFn (j : Nat) : (s.setFn k v).sk j = s.sk j := rfl
@[simp] theorem State.eth_setFn (j : Nat) : (s.setFn k v).eth j = s.eth j := rfl
@[simp] theorem State.vc_setFn (j : Nat) : (s.setFn k v).vc j = s.vc j := rfl

end setFn

section setPort

variable (s : State) (k : Nat) (v : Port)

@[simp] theorem State.fld_setPort (p' : Nat) (f' : Fld) : (s.setPort k v).fld p' f' = s.fld p' f' := rfl
@[simp] theorem State.fn_setPort (j : Nat) : (s.setPort k v).fn j = s.fn j := rfl
@[simp] theorem State.lend_setPort (j : Nat) : (s.setPort k v).lend j = s.lend j := rfl
@[simp] theorem State.ten_setPort (j : Nat) : (s.setPort k v).ten j = s.ten j := rfl
@[simp] theorem State.queue_setPort (m r : Nat) : (s.setPort k v).queue m r = s.queue m r := rfl
@[simp] theorem State.res_setPort (j : Nat) : (s.setPort k v).res j = s.res j := rfl
@[simp] theorem State.dsp_setPort (j : Nat) : (s.setPort k v).dsp j = s.dsp j := rfl
@[simp] theorem State.core_setPort (j : Nat) : (s.setPort k v).core j = s.core j := rfl
@[simp] theorem State.job_setPort (j : Nat) : (s.setPort k v).job j = s.job j := rfl
@[simp] theorem State.pm_setPort (j : Nat) : (s.setPort k v).pm j = s.pm j := rfl
@[simp] theorem State.backing_setPort (j : Nat) : (s.setPort k v).backing j = s.backing j := rfl
@[simp] theorem State.comp_setPort (j : Nat) : (s.setPort k v).comp j = s.comp j := rfl
@[simp] theorem State.sk_setPort (j : Nat) : (s.setPort k v).sk j = s.sk j := rfl
@[simp] theorem State.eth_setPort (j : Nat) : (s.setPort k v).eth j = s.eth j := rfl
@[simp] theorem State.vc_setPort (j : Nat) : (s.setPort k v).vc j = s.vc j := rfl

end setPort

section setLend

variable (s : State) (k : Nat) (v : LinkEnd)

@[simp] theorem State.fld_setLend (p' : Nat) (f' : Fld) : (s.setLend k v).fld p' f' = s.fld p' f' := rfl
@[simp] theorem State.fn_setLend (j : Nat) : (s.setLend k v).fn j = s.fn j := rfl
@[simp] theorem State.port_setLend (j : Nat) : (s.setLend k v).port j = s.port j := rfl
@[simp] theorem State.ten_setLend (j : Nat) : (s.setLend k v).ten j = s.ten j := rfl
@[simp] theorem State.queue_setLend (m r : Nat) : (s.setLend k v).queue m r = s.queue m r := rfl
@[simp] theorem State.res_setLend (j : Nat) : (s.setLend k v).res j = s.res j := rfl
@[simp] theorem State.dsp_setLend (j : Nat) : (s.setLend k v).dsp j = s.dsp j := rfl
@[simp] theorem State.core_setLend (j : Nat) : (s.setLend k v).core j = s.core j := rfl
@[simp] theorem State.job_setLend (j : Nat) : (s.setLend k v).job j = s.job j := rfl
@[simp] theorem State.pm_setLend (j : Nat) : (s.setLend k v).pm j = s.pm j := rfl
@[simp] theorem State.backing_setLend (j : Nat) : (s.setLend k v).backing j = s.backing j := rfl
@[simp] theorem State.comp_setLend (j : Nat) : (s.setLend k v).comp j = s.comp j := rfl
@[simp] theorem State.sk_setLend (j : Nat) : (s.setLend k v).sk j = s.sk j := rfl
@[simp] theorem State.eth_setLend (j : Nat) : (s.setLend k v).eth j = s.eth j := rfl
@[simp] theorem State.vc_setLend (j : Nat) : (s.setLend k v).vc j = s.vc j := rfl

end setLend

section setTen

variable (s : State) (k : Nat) (v : TenSt)

@[simp] theorem State.fld_setTen (p' : Nat) (f' : Fld) : (s.setTen k v).fld p' f' = s.fld p' f' := rfl
@[simp] theorem State.fn_setTen (j : Nat) : (s.setTen k v).fn j = s.fn j := rfl
@[simp] theorem State.port_setTen (j : Nat) : (s.setTen k v).port j = s.port j := rfl
@[simp] theorem State.lend_setTen (j : Nat) : (s.setTen k v).lend j = s.lend j := rfl
@[simp] theorem State.queue_setTen (m r : Nat) : (s.setTen k v).queue m r = s.queue m r := rfl
@[simp] theorem State.res_setTen (j : Nat) : (s.setTen k v).res j = s.res j := rfl
@[simp] theorem State.dsp_setTen (j : Nat) : (s.setTen k v).dsp j = s.dsp j := rfl
@[simp] theorem State.core_setTen (j : Nat) : (s.setTen k v).core j = s.core j := rfl
@[simp] theorem State.job_setTen (j : Nat) : (s.setTen k v).job j = s.job j := rfl
@[simp] theorem State.pm_setTen (j : Nat) : (s.setTen k v).pm j = s.pm j := rfl
@[simp] theorem State.backing_setTen (j : Nat) : (s.setTen k v).backing j = s.backing j := rfl
@[simp] theorem State.comp_setTen (j : Nat) : (s.setTen k v).comp j = s.comp j := rfl
@[simp] theorem State.sk_setTen (j : Nat) : (s.setTen k v).sk j = s.sk j := rfl
@[simp] theorem State.eth_setTen (j : Nat) : (s.setTen k v).eth j = s.eth j := rfl
@[simp] theorem State.vc_setTen (j : Nat) : (s.setTen k v).vc j = s.vc j := rfl

end setTen

section setQueue

variable (s : State) (n q : Nat) (v : QueueSt)

@[simp] theorem State.fld_setQueue (p' : Nat) (f' : Fld) : (s.setQueue n q v).fld p' f' = s.fld p' f' := rfl
@[simp] theorem State.fn_setQueue (j : Nat) : (s.setQueue n q v).fn j = s.fn j := rfl
@[simp] theorem State.port_setQueue (j : Nat) : (s.setQueue n q v).port j = s.port j := rfl
@[simp] theorem State.lend_setQueue (j : Nat) : (s.setQueue n q v).lend j = s.lend j := rfl
@[simp] theorem State.ten_setQueue (j : Nat) : (s.setQueue n q v).ten j = s.ten j := rfl
@[simp] theorem State.res_setQueue (j : Nat) : (s.setQueue n q v).res j = s.res j := rfl
@[simp] theorem State.dsp_setQueue (j : Nat) : (s.setQueue n q v).dsp j = s.dsp j := rfl
@[simp] theorem State.core_setQueue (j : Nat) : (s.setQueue n q v).core j = s.core j := rfl
@[simp] theorem State.job_setQueue (j : Nat) : (s.setQueue n q v).job j = s.job j := rfl
@[simp] theorem State.pm_setQueue (j : Nat) : (s.setQueue n q v).pm j = s.pm j := rfl
@[simp] theorem State.backing_setQueue (j : Nat) : (s.setQueue n q v).backing j = s.backing j := rfl
@[simp] theorem State.comp_setQueue (j : Nat) : (s.setQueue n q v).comp j = s.comp j := rfl
@[simp] theorem State.sk_setQueue (j : Nat) : (s.setQueue n q v).sk j = s.sk j := rfl
@[simp] theorem State.eth_setQueue (j : Nat) : (s.setQueue n q v).eth j = s.eth j := rfl
@[simp] theorem State.vc_setQueue (j : Nat) : (s.setQueue n q v).vc j = s.vc j := rfl

end setQueue

section setRes

variable (s : State) (k : Nat) (v : Resid)

@[simp] theorem State.fld_setRes (p' : Nat) (f' : Fld) : (s.setRes k v).fld p' f' = s.fld p' f' := rfl
@[simp] theorem State.fn_setRes (j : Nat) : (s.setRes k v).fn j = s.fn j := rfl
@[simp] theorem State.port_setRes (j : Nat) : (s.setRes k v).port j = s.port j := rfl
@[simp] theorem State.lend_setRes (j : Nat) : (s.setRes k v).lend j = s.lend j := rfl
@[simp] theorem State.ten_setRes (j : Nat) : (s.setRes k v).ten j = s.ten j := rfl
@[simp] theorem State.queue_setRes (m r : Nat) : (s.setRes k v).queue m r = s.queue m r := rfl
@[simp] theorem State.dsp_setRes (j : Nat) : (s.setRes k v).dsp j = s.dsp j := rfl
@[simp] theorem State.core_setRes (j : Nat) : (s.setRes k v).core j = s.core j := rfl
@[simp] theorem State.job_setRes (j : Nat) : (s.setRes k v).job j = s.job j := rfl
@[simp] theorem State.pm_setRes (j : Nat) : (s.setRes k v).pm j = s.pm j := rfl
@[simp] theorem State.backing_setRes (j : Nat) : (s.setRes k v).backing j = s.backing j := rfl
@[simp] theorem State.comp_setRes (j : Nat) : (s.setRes k v).comp j = s.comp j := rfl
@[simp] theorem State.sk_setRes (j : Nat) : (s.setRes k v).sk j = s.sk j := rfl
@[simp] theorem State.eth_setRes (j : Nat) : (s.setRes k v).eth j = s.eth j := rfl
@[simp] theorem State.vc_setRes (j : Nat) : (s.setRes k v).vc j = s.vc j := rfl

end setRes

section setDsp

variable (s : State) (k : Nat) (v : DispSt)

@[simp] theorem State.fld_setDsp (p' : Nat) (f' : Fld) : (s.setDsp k v).fld p' f' = s.fld p' f' := rfl
@[simp] theorem State.fn_setDsp (j : Nat) : (s.setDsp k v).fn j = s.fn j := rfl
@[simp] theorem State.port_setDsp (j : Nat) : (s.setDsp k v).port j = s.port j := rfl
@[simp] theorem State.lend_setDsp (j : Nat) : (s.setDsp k v).lend j = s.lend j := rfl
@[simp] theorem State.ten_setDsp (j : Nat) : (s.setDsp k v).ten j = s.ten j := rfl
@[simp] theorem State.queue_setDsp (m r : Nat) : (s.setDsp k v).queue m r = s.queue m r := rfl
@[simp] theorem State.res_setDsp (j : Nat) : (s.setDsp k v).res j = s.res j := rfl
@[simp] theorem State.core_setDsp (j : Nat) : (s.setDsp k v).core j = s.core j := rfl
@[simp] theorem State.job_setDsp (j : Nat) : (s.setDsp k v).job j = s.job j := rfl
@[simp] theorem State.pm_setDsp (j : Nat) : (s.setDsp k v).pm j = s.pm j := rfl
@[simp] theorem State.backing_setDsp (j : Nat) : (s.setDsp k v).backing j = s.backing j := rfl
@[simp] theorem State.comp_setDsp (j : Nat) : (s.setDsp k v).comp j = s.comp j := rfl
@[simp] theorem State.sk_setDsp (j : Nat) : (s.setDsp k v).sk j = s.sk j := rfl
@[simp] theorem State.eth_setDsp (j : Nat) : (s.setDsp k v).eth j = s.eth j := rfl
@[simp] theorem State.vc_setDsp (j : Nat) : (s.setDsp k v).vc j = s.vc j := rfl

end setDsp

section setCore

variable (s : State) (x : Nat) (v : Core)

@[simp] theorem State.fld_setCore (p' : Nat) (f' : Fld) : (s.setCore x v).fld p' f' = s.fld p' f' := rfl
@[simp] theorem State.fn_setCore (j : Nat) : (s.setCore x v).fn j = s.fn j := rfl
@[simp] theorem State.port_setCore (j : Nat) : (s.setCore x v).port j = s.port j := rfl
@[simp] theorem State.lend_setCore (j : Nat) : (s.setCore x v).lend j = s.lend j := rfl
@[simp] theorem State.ten_setCore (j : Nat) : (s.setCore x v).ten j = s.ten j := rfl
@[simp] theorem State.queue_setCore (m r : Nat) : (s.setCore x v).queue m r = s.queue m r := rfl
@[simp] theorem State.res_setCore (j : Nat) : (s.setCore x v).res j = s.res j := rfl
@[simp] theorem State.dsp_setCore (j : Nat) : (s.setCore x v).dsp j = s.dsp j := rfl
@[simp] theorem State.job_setCore (j : Nat) : (s.setCore x v).job j = s.job j := rfl
@[simp] theorem State.pm_setCore (j : Nat) : (s.setCore x v).pm j = s.pm j := rfl
@[simp] theorem State.backing_setCore (j : Nat) : (s.setCore x v).backing j = s.backing j := rfl
@[simp] theorem State.comp_setCore (j : Nat) : (s.setCore x v).comp j = s.comp j := rfl
@[simp] theorem State.sk_setCore (j : Nat) : (s.setCore x v).sk j = s.sk j := rfl
@[simp] theorem State.eth_setCore (j : Nat) : (s.setCore x v).eth j = s.eth j := rfl
@[simp] theorem State.vc_setCore (j : Nat) : (s.setCore x v).vc j = s.vc j := rfl

end setCore

section setPm

variable (s : State) (p : Nat) (v : PartMem)

@[simp] theorem State.fld_setPm (p' : Nat) (f' : Fld) : (s.setPm p v).fld p' f' = s.fld p' f' := rfl
@[simp] theorem State.fn_setPm (j : Nat) : (s.setPm p v).fn j = s.fn j := rfl
@[simp] theorem State.port_setPm (j : Nat) : (s.setPm p v).port j = s.port j := rfl
@[simp] theorem State.lend_setPm (j : Nat) : (s.setPm p v).lend j = s.lend j := rfl
@[simp] theorem State.ten_setPm (j : Nat) : (s.setPm p v).ten j = s.ten j := rfl
@[simp] theorem State.queue_setPm (m r : Nat) : (s.setPm p v).queue m r = s.queue m r := rfl
@[simp] theorem State.res_setPm (j : Nat) : (s.setPm p v).res j = s.res j := rfl
@[simp] theorem State.dsp_setPm (j : Nat) : (s.setPm p v).dsp j = s.dsp j := rfl
@[simp] theorem State.core_setPm (j : Nat) : (s.setPm p v).core j = s.core j := rfl
@[simp] theorem State.job_setPm (j : Nat) : (s.setPm p v).job j = s.job j := rfl
@[simp] theorem State.backing_setPm (j : Nat) : (s.setPm p v).backing j = s.backing j := rfl
@[simp] theorem State.comp_setPm (j : Nat) : (s.setPm p v).comp j = s.comp j := rfl
@[simp] theorem State.sk_setPm (j : Nat) : (s.setPm p v).sk j = s.sk j := rfl
@[simp] theorem State.eth_setPm (j : Nat) : (s.setPm p v).eth j = s.eth j := rfl
@[simp] theorem State.vc_setPm (j : Nat) : (s.setPm p v).vc j = s.vc j := rfl

end setPm

section setBacking

variable (s : State) (g : Nat) (v : Backing)

@[simp] theorem State.fld_setBacking (p' : Nat) (f' : Fld) : (s.setBacking g v).fld p' f' = s.fld p' f' := rfl
@[simp] theorem State.fn_setBacking (j : Nat) : (s.setBacking g v).fn j = s.fn j := rfl
@[simp] theorem State.port_setBacking (j : Nat) : (s.setBacking g v).port j = s.port j := rfl
@[simp] theorem State.lend_setBacking (j : Nat) : (s.setBacking g v).lend j = s.lend j := rfl
@[simp] theorem State.ten_setBacking (j : Nat) : (s.setBacking g v).ten j = s.ten j := rfl
@[simp] theorem State.queue_setBacking (m r : Nat) : (s.setBacking g v).queue m r = s.queue m r := rfl
@[simp] theorem State.res_setBacking (j : Nat) : (s.setBacking g v).res j = s.res j := rfl
@[simp] theorem State.dsp_setBacking (j : Nat) : (s.setBacking g v).dsp j = s.dsp j := rfl
@[simp] theorem State.core_setBacking (j : Nat) : (s.setBacking g v).core j = s.core j := rfl
@[simp] theorem State.job_setBacking (j : Nat) : (s.setBacking g v).job j = s.job j := rfl
@[simp] theorem State.pm_setBacking (j : Nat) : (s.setBacking g v).pm j = s.pm j := rfl
@[simp] theorem State.comp_setBacking (j : Nat) : (s.setBacking g v).comp j = s.comp j := rfl
@[simp] theorem State.sk_setBacking (j : Nat) : (s.setBacking g v).sk j = s.sk j := rfl
@[simp] theorem State.eth_setBacking (j : Nat) : (s.setBacking g v).eth j = s.eth j := rfl
@[simp] theorem State.vc_setBacking (j : Nat) : (s.setBacking g v).vc j = s.vc j := rfl

end setBacking

section setComp

variable (s : State) (c : Nat) (v : Comp)

@[simp] theorem State.fld_setComp (p' : Nat) (f' : Fld) : (s.setComp c v).fld p' f' = s.fld p' f' := rfl
@[simp] theorem State.fn_setComp (j : Nat) : (s.setComp c v).fn j = s.fn j := rfl
@[simp] theorem State.port_setComp (j : Nat) : (s.setComp c v).port j = s.port j := rfl
@[simp] theorem State.lend_setComp (j : Nat) : (s.setComp c v).lend j = s.lend j := rfl
@[simp] theorem State.ten_setComp (j : Nat) : (s.setComp c v).ten j = s.ten j := rfl
@[simp] theorem State.queue_setComp (m r : Nat) : (s.setComp c v).queue m r = s.queue m r := rfl
@[simp] theorem State.res_setComp (j : Nat) : (s.setComp c v).res j = s.res j := rfl
@[simp] theorem State.dsp_setComp (j : Nat) : (s.setComp c v).dsp j = s.dsp j := rfl
@[simp] theorem State.core_setComp (j : Nat) : (s.setComp c v).core j = s.core j := rfl
@[simp] theorem State.job_setComp (j : Nat) : (s.setComp c v).job j = s.job j := rfl
@[simp] theorem State.pm_setComp (j : Nat) : (s.setComp c v).pm j = s.pm j := rfl
@[simp] theorem State.backing_setComp (j : Nat) : (s.setComp c v).backing j = s.backing j := rfl
@[simp] theorem State.sk_setComp (j : Nat) : (s.setComp c v).sk j = s.sk j := rfl
@[simp] theorem State.eth_setComp (j : Nat) : (s.setComp c v).eth j = s.eth j := rfl
@[simp] theorem State.vc_setComp (j : Nat) : (s.setComp c v).vc j = s.vc j := rfl

end setComp

section setJob

variable (s : State) (k : Nat) (v : Job)

@[simp] theorem State.fld_setJob (p' : Nat) (f' : Fld) : (s.setJob k v).fld p' f' = s.fld p' f' := rfl
@[simp] theorem State.fn_setJob (j : Nat) : (s.setJob k v).fn j = s.fn j := rfl
@[simp] theorem State.port_setJob (j : Nat) : (s.setJob k v).port j = s.port j := rfl
@[simp] theorem State.lend_setJob (j : Nat) : (s.setJob k v).lend j = s.lend j := rfl
@[simp] theorem State.ten_setJob (j : Nat) : (s.setJob k v).ten j = s.ten j := rfl
@[simp] theorem State.queue_setJob (m r : Nat) : (s.setJob k v).queue m r = s.queue m r := rfl
@[simp] theorem State.res_setJob (j : Nat) : (s.setJob k v).res j = s.res j := rfl
@[simp] theorem State.dsp_setJob (j : Nat) : (s.setJob k v).dsp j = s.dsp j := rfl
@[simp] theorem State.core_setJob (j : Nat) : (s.setJob k v).core j = s.core j := rfl
@[simp] theorem State.pm_setJob (j : Nat) : (s.setJob k v).pm j = s.pm j := rfl
@[simp] theorem State.backing_setJob (j : Nat) : (s.setJob k v).backing j = s.backing j := rfl
@[simp] theorem State.comp_setJob (j : Nat) : (s.setJob k v).comp j = s.comp j := rfl
@[simp] theorem State.sk_setJob (j : Nat) : (s.setJob k v).sk j = s.sk j := rfl
@[simp] theorem State.eth_setJob (j : Nat) : (s.setJob k v).eth j = s.eth j := rfl
@[simp] theorem State.vc_setJob (j : Nat) : (s.setJob k v).vc j = s.vc j := rfl

end setJob

section setEt

variable (s : State) (k : Nat) (v : EtEntry)

@[simp] theorem State.fld_setEt (p' : Nat) (f' : Fld) : (s.setEt k v).fld p' f' = s.fld p' f' := rfl
@[simp] theorem State.fn_setEt (j : Nat) : (s.setEt k v).fn j = s.fn j := rfl
@[simp] theorem State.port_setEt (j : Nat) : (s.setEt k v).port j = s.port j := rfl
@[simp] theorem State.lend_setEt (j : Nat) : (s.setEt k v).lend j = s.lend j := rfl
@[simp] theorem State.ten_setEt (j : Nat) : (s.setEt k v).ten j = s.ten j := rfl
@[simp] theorem State.queue_setEt (m r : Nat) : (s.setEt k v).queue m r = s.queue m r := rfl
@[simp] theorem State.res_setEt (j : Nat) : (s.setEt k v).res j = s.res j := rfl
@[simp] theorem State.dsp_setEt (j : Nat) : (s.setEt k v).dsp j = s.dsp j := rfl
@[simp] theorem State.core_setEt (j : Nat) : (s.setEt k v).core j = s.core j := rfl
@[simp] theorem State.job_setEt (j : Nat) : (s.setEt k v).job j = s.job j := rfl
@[simp] theorem State.pm_setEt (j : Nat) : (s.setEt k v).pm j = s.pm j := rfl
@[simp] theorem State.backing_setEt (j : Nat) : (s.setEt k v).backing j = s.backing j := rfl
@[simp] theorem State.comp_setEt (j : Nat) : (s.setEt k v).comp j = s.comp j := rfl
@[simp] theorem State.sk_setEt (j : Nat) : (s.setEt k v).sk j = s.sk j := rfl
@[simp] theorem State.eth_setEt (j : Nat) : (s.setEt k v).eth j = s.eth j := rfl
@[simp] theorem State.vc_setEt (j : Nat) : (s.setEt k v).vc j = s.vc j := rfl

end setEt

section setLoads

variable (s : State) (x : Nat) (l : List LoadOp)

@[simp] theorem State.fld_setLoads (p' : Nat) (f' : Fld) : (s.setLoads x l).fld p' f' = s.fld p' f' := rfl
@[simp] theorem State.fn_setLoads (j : Nat) : (s.setLoads x l).fn j = s.fn j := rfl
@[simp] theorem State.port_setLoads (j : Nat) : (s.setLoads x l).port j = s.port j := rfl
@[simp] theorem State.lend_setLoads (j : Nat) : (s.setLoads x l).lend j = s.lend j := rfl
@[simp] theorem State.ten_setLoads (j : Nat) : (s.setLoads x l).ten j = s.ten j := rfl
@[simp] theorem State.queue_setLoads (m r : Nat) : (s.setLoads x l).queue m r = s.queue m r := rfl
@[simp] theorem State.res_setLoads (j : Nat) : (s.setLoads x l).res j = s.res j := rfl
@[simp] theorem State.dsp_setLoads (j : Nat) : (s.setLoads x l).dsp j = s.dsp j := rfl
@[simp] theorem State.core_setLoads (j : Nat) : (s.setLoads x l).core j = s.core j := rfl
@[simp] theorem State.job_setLoads (j : Nat) : (s.setLoads x l).job j = s.job j := rfl
@[simp] theorem State.pm_setLoads (j : Nat) : (s.setLoads x l).pm j = s.pm j := rfl
@[simp] theorem State.backing_setLoads (j : Nat) : (s.setLoads x l).backing j = s.backing j := rfl
@[simp] theorem State.comp_setLoads (j : Nat) : (s.setLoads x l).comp j = s.comp j := rfl
@[simp] theorem State.sk_setLoads (j : Nat) : (s.setLoads x l).sk j = s.sk j := rfl
@[simp] theorem State.eth_setLoads (j : Nat) : (s.setLoads x l).eth j = s.eth j := rfl
@[simp] theorem State.vc_setLoads (j : Nat) : (s.setLoads x l).vc j = s.vc j := rfl

end setLoads

section setHold

variable (s : State) (t u : Nat) (v : Option Nat)

@[simp] theorem State.fld_setHold (p' : Nat) (f' : Fld) : (s.setHold t u v).fld p' f' = s.fld p' f' := rfl
@[simp] theorem State.fn_setHold (j : Nat) : (s.setHold t u v).fn j = s.fn j := rfl
@[simp] theorem State.port_setHold (j : Nat) : (s.setHold t u v).port j = s.port j := rfl
@[simp] theorem State.lend_setHold (j : Nat) : (s.setHold t u v).lend j = s.lend j := rfl
@[simp] theorem State.ten_setHold (j : Nat) : (s.setHold t u v).ten j = s.ten j := rfl
@[simp] theorem State.queue_setHold (m r : Nat) : (s.setHold t u v).queue m r = s.queue m r := rfl
@[simp] theorem State.res_setHold (j : Nat) : (s.setHold t u v).res j = s.res j := rfl
@[simp] theorem State.dsp_setHold (j : Nat) : (s.setHold t u v).dsp j = s.dsp j := rfl
@[simp] theorem State.core_setHold (j : Nat) : (s.setHold t u v).core j = s.core j := rfl
@[simp] theorem State.job_setHold (j : Nat) : (s.setHold t u v).job j = s.job j := rfl
@[simp] theorem State.pm_setHold (j : Nat) : (s.setHold t u v).pm j = s.pm j := rfl
@[simp] theorem State.backing_setHold (j : Nat) : (s.setHold t u v).backing j = s.backing j := rfl
@[simp] theorem State.comp_setHold (j : Nat) : (s.setHold t u v).comp j = s.comp j := rfl
@[simp] theorem State.sk_setHold (j : Nat) : (s.setHold t u v).sk j = s.sk j := rfl
@[simp] theorem State.eth_setHold (j : Nat) : (s.setHold t u v).eth j = s.eth j := rfl
@[simp] theorem State.vc_setHold (j : Nat) : (s.setHold t u v).vc j = s.vc j := rfl

end setHold

section setSk

variable (s : State) (k : Nat) (v : SkSt)

@[simp] theorem State.fld_setSk (p' : Nat) (f' : Fld) : (s.setSk k v).fld p' f' = s.fld p' f' := rfl
@[simp] theorem State.fn_setSk (j : Nat) : (s.setSk k v).fn j = s.fn j := rfl
@[simp] theorem State.port_setSk (j : Nat) : (s.setSk k v).port j = s.port j := rfl
@[simp] theorem State.lend_setSk (j : Nat) : (s.setSk k v).lend j = s.lend j := rfl
@[simp] theorem State.ten_setSk (j : Nat) : (s.setSk k v).ten j = s.ten j := rfl
@[simp] theorem State.queue_setSk (m r : Nat) : (s.setSk k v).queue m r = s.queue m r := rfl
@[simp] theorem State.res_setSk (j : Nat) : (s.setSk k v).res j = s.res j := rfl
@[simp] theorem State.dsp_setSk (j : Nat) : (s.setSk k v).dsp j = s.dsp j := rfl
@[simp] theorem State.core_setSk (j : Nat) : (s.setSk k v).core j = s.core j := rfl
@[simp] theorem State.job_setSk (j : Nat) : (s.setSk k v).job j = s.job j := rfl
@[simp] theorem State.pm_setSk (j : Nat) : (s.setSk k v).pm j = s.pm j := rfl
@[simp] theorem State.backing_setSk (j : Nat) : (s.setSk k v).backing j = s.backing j := rfl
@[simp] theorem State.comp_setSk (j : Nat) : (s.setSk k v).comp j = s.comp j := rfl
@[simp] theorem State.eth_setSk (j : Nat) : (s.setSk k v).eth j = s.eth j := rfl
@[simp] theorem State.vc_setSk (j : Nat) : (s.setSk k v).vc j = s.vc j := rfl

end setSk

section setEth

variable (s : State) (n : Nat) (v : EthPort)

@[simp] theorem State.fld_setEth (p' : Nat) (f' : Fld) : (s.setEth n v).fld p' f' = s.fld p' f' := rfl
@[simp] theorem State.fn_setEth (j : Nat) : (s.setEth n v).fn j = s.fn j := rfl
@[simp] theorem State.port_setEth (j : Nat) : (s.setEth n v).port j = s.port j := rfl
@[simp] theorem State.lend_setEth (j : Nat) : (s.setEth n v).lend j = s.lend j := rfl
@[simp] theorem State.ten_setEth (j : Nat) : (s.setEth n v).ten j = s.ten j := rfl
@[simp] theorem State.queue_setEth (m r : Nat) : (s.setEth n v).queue m r = s.queue m r := rfl
@[simp] theorem State.res_setEth (j : Nat) : (s.setEth n v).res j = s.res j := rfl
@[simp] theorem State.dsp_setEth (j : Nat) : (s.setEth n v).dsp j = s.dsp j := rfl
@[simp] theorem State.core_setEth (j : Nat) : (s.setEth n v).core j = s.core j := rfl
@[simp] theorem State.job_setEth (j : Nat) : (s.setEth n v).job j = s.job j := rfl
@[simp] theorem State.pm_setEth (j : Nat) : (s.setEth n v).pm j = s.pm j := rfl
@[simp] theorem State.backing_setEth (j : Nat) : (s.setEth n v).backing j = s.backing j := rfl
@[simp] theorem State.comp_setEth (j : Nat) : (s.setEth n v).comp j = s.comp j := rfl
@[simp] theorem State.sk_setEth (j : Nat) : (s.setEth n v).sk j = s.sk j := rfl
@[simp] theorem State.vc_setEth (j : Nat) : (s.setEth n v).vc j = s.vc j := rfl

end setEth

section setVc

variable (s : State) (i : Nat) (v : VcSt)

@[simp] theorem State.fld_setVc (p' : Nat) (f' : Fld) : (s.setVc i v).fld p' f' = s.fld p' f' := rfl
@[simp] theorem State.fn_setVc (j : Nat) : (s.setVc i v).fn j = s.fn j := rfl
@[simp] theorem State.port_setVc (j : Nat) : (s.setVc i v).port j = s.port j := rfl
@[simp] theorem State.lend_setVc (j : Nat) : (s.setVc i v).lend j = s.lend j := rfl
@[simp] theorem State.ten_setVc (j : Nat) : (s.setVc i v).ten j = s.ten j := rfl
@[simp] theorem State.queue_setVc (m r : Nat) : (s.setVc i v).queue m r = s.queue m r := rfl
@[simp] theorem State.res_setVc (j : Nat) : (s.setVc i v).res j = s.res j := rfl
@[simp] theorem State.dsp_setVc (j : Nat) : (s.setVc i v).dsp j = s.dsp j := rfl
@[simp] theorem State.core_setVc (j : Nat) : (s.setVc i v).core j = s.core j := rfl
@[simp] theorem State.job_setVc (j : Nat) : (s.setVc i v).job j = s.job j := rfl
@[simp] theorem State.pm_setVc (j : Nat) : (s.setVc i v).pm j = s.pm j := rfl
@[simp] theorem State.backing_setVc (j : Nat) : (s.setVc i v).backing j = s.backing j := rfl
@[simp] theorem State.comp_setVc (j : Nat) : (s.setVc i v).comp j = s.comp j := rfl
@[simp] theorem State.sk_setVc (j : Nat) : (s.setVc i v).sk j = s.sk j := rfl
@[simp] theorem State.eth_setVc (j : Nat) : (s.setVc i v).eth j = s.eth j := rfl

end setVc

/-! Messages and events. -/

/-- All that a message can change: the function's MSI-X state, what was sent, and with it the marks of TRANSIT and of the IDE streams used. -/
theorem State.msix_eq (s : State) (k v : Nat) :
    s.msix k v = { s with
      fns := (s.msix k v).fns, outs := (s.msix k v).outs
      transit := (s.msix k v).transit, ideSent := (s.msix k v).ideSent } := by
  unfold State.msix; split <;> rfl

theorem State.raiseInt_eq (s : State) (pg : Nat) :
    s.raiseInt pg = { s with
      fns := (s.raiseInt pg).fns, outs := (s.raiseInt pg).outs
      transit := (s.raiseInt pg).transit, ideSent := (s.raiseInt pg).ideSent } := by
  unfold State.raiseInt
  split
  · split
    · exact State.msix_eq _ _ _
    · rfl
  · split
    · rfl
    · dsimp only
      split <;> split <;> first | rfl | exact State.msix_eq _ _ _ | (rw [State.msix_eq]; rfl)

/-- All that events can change: the page's PG_INT_STS, MSI-X state and what was sent. -/
theorem State.setInts_eq (s : State) (pg mask : Nat) :
    s.setInts pg mask = { s with
      regs := (s.setFld pg F.PG_INT_STS (s.fld pg F.PG_INT_STS ||| mask)).regs
      fns := (s.setInts pg mask).fns, outs := (s.setInts pg mask).outs
      transit := (s.setInts pg mask).transit, ideSent := (s.setInts pg mask).ideSent } := by
  unfold State.setInts
  dsimp only
  split
  · rw [State.raiseInt_eq]; rfl
  · rfl

theorem State.event_eq (s : State) (pg bit : Nat) :
    s.event pg bit = { s with
      regs := (s.setFld pg F.PG_INT_STS (s.fld pg F.PG_INT_STS ||| 2 ^ bit)).regs
      fns := (s.event pg bit).fns, outs := (s.event pg bit).outs
      transit := (s.event pg bit).transit, ideSent := (s.event pg bit).ideSent } := State.setInts_eq s pg (2 ^ bit)

theorem State.fld_event (s : State) (pg bit p' : Nat) (f' : Fld) :
    (s.event pg bit).fld p' f' =
      if fkey p' f' = fkey pg F.PG_INT_STS then (s.fld pg F.PG_INT_STS ||| 2 ^ bit) % 2 ^ 32 else s.fld p' f' := by
  rw [State.event_eq]; exact State.fld_setFld _ _ _ _ _ _

@[simp] theorem State.fld_event_self (s : State) (pg bit : Nat) :
    (s.event pg bit).fld pg F.PG_INT_STS = (s.fld pg F.PG_INT_STS ||| 2 ^ bit) % 2 ^ 32 := by
  rw [State.fld_event, if_pos rfl]

theorem State.fld_event_ne (s : State) (pg bit p' : Nat) (f' : Fld) (h : fkey p' f' ≠ fkey pg F.PG_INT_STS) :
    (s.event pg bit).fld p' f' = s.fld p' f' := by
  rw [State.fld_event, if_neg h]

@[simp] theorem State.event_now (s : State) (pg bit : Nat) : (s.event pg bit).now = s.now := by rw [State.event_eq]
@[simp] theorem State.event_pending (s : State) (pg bit : Nat) : (s.event pg bit).pending = s.pending := by rw [State.event_eq]
@[simp] theorem State.event_fresh (s : State) (pg bit : Nat) : (s.event pg bit).fresh = s.fresh := by rw [State.event_eq]
@[simp] theorem State.event_ports (s : State) (pg bit : Nat) : (s.event pg bit).ports = s.ports := by rw [State.event_eq]
@[simp] theorem State.event_ends (s : State) (pg bit : Nat) : (s.event pg bit).ends = s.ends := by rw [State.event_eq]
@[simp] theorem State.event_routeHold (s : State) (pg bit : Nat) : (s.event pg bit).routeHold = s.routeHold := by rw [State.event_eq]
@[simp] theorem State.event_trail (s : State) (pg bit : Nat) : (s.event pg bit).trail = s.trail := by rw [State.event_eq]
@[simp] theorem State.event_board (s : State) (pg bit : Nat) : (s.event pg bit).board = s.board := by rw [State.event_eq]
@[simp] theorem State.event_boot (s : State) (pg bit : Nat) : (s.event pg bit).boot = s.boot := by rw [State.event_eq]
@[simp] theorem State.event_vclkLost (s : State) (pg bit : Nat) : (s.event pg bit).vclkLost = s.vclkLost := by rw [State.event_eq]
@[simp] theorem State.event_devFailed (s : State) (pg bit : Nat) : (s.event pg bit).devFailed = s.devFailed := by rw [State.event_eq]
@[simp] theorem State.event_hubOff (s : State) (pg bit : Nat) : (s.event pg bit).hubOff = s.hubOff := by rw [State.event_eq]
@[simp] theorem State.event_hmp (s : State) (pg bit : Nat) : (s.event pg bit).hmp = s.hmp := by rw [State.event_eq]
@[simp] theorem State.event_cmap (s : State) (pg bit : Nat) : (s.event pg bit).cmap = s.cmap := by rw [State.event_eq]
@[simp] theorem State.event_hmpPend (s : State) (pg bit : Nat) : (s.event pg bit).hmpPend = s.hmpPend := by rw [State.event_eq]
@[simp] theorem State.event_hmpClr (s : State) (pg bit : Nat) : (s.event pg bit).hmpClr = s.hmpClr := by rw [State.event_eq]
@[simp] theorem State.event_tens (s : State) (pg bit : Nat) : (s.event pg bit).tens = s.tens := by rw [State.event_eq]
@[simp] theorem State.event_queues (s : State) (pg bit : Nat) : (s.event pg bit).queues = s.queues := by rw [State.event_eq]
@[simp] theorem State.event_order (s : State) (pg bit : Nat) : (s.event pg bit).order = s.order := by rw [State.event_eq]
@[simp] theorem State.event_resid (s : State) (pg bit : Nat) : (s.event pg bit).resid = s.resid := by rw [State.event_eq]
@[simp] theorem State.event_disps (s : State) (pg bit : Nat) : (s.event pg bit).disps = s.disps := by rw [State.event_eq]
@[simp] theorem State.event_rsts (s : State) (pg bit : Nat) : (s.event pg bit).rsts = s.rsts := by rw [State.event_eq]
@[simp] theorem State.event_cores (s : State) (pg bit : Nat) : (s.event pg bit).cores = s.cores := by rw [State.event_eq]
@[simp] theorem State.event_jobs (s : State) (pg bit : Nat) : (s.event pg bit).jobs = s.jobs := by rw [State.event_eq]
@[simp] theorem State.event_stores (s : State) (pg bit : Nat) : (s.event pg bit).stores = s.stores := by rw [State.event_eq]
@[simp] theorem State.event_aoUp (s : State) (pg bit : Nat) : (s.event pg bit).aoUp = s.aoUp := by rw [State.event_eq]
@[simp] theorem State.event_power (s : State) (pg bit : Nat) : (s.event pg bit).power = s.power := by rw [State.event_eq]
@[simp] theorem State.event_thm (s : State) (pg bit : Nat) : (s.event pg bit).thm = s.thm := by rw [State.event_eq]
@[simp] theorem State.event_mgt (s : State) (pg bit : Nat) : (s.event pg bit).mgt = s.mgt := by rw [State.event_eq]
@[simp] theorem State.event_snaps (s : State) (pg bit : Nat) : (s.event pg bit).snaps = s.snaps := by rw [State.event_eq]
@[simp] theorem State.event_slices (s : State) (pg bit : Nat) : (s.event pg bit).slices = s.slices := by rw [State.event_eq]
@[simp] theorem State.event_pmem (s : State) (pg bit : Nat) : (s.event pg bit).pmem = s.pmem := by rw [State.event_eq]
@[simp] theorem State.event_near (s : State) (pg bit : Nat) : (s.event pg bit).near = s.near := by rw [State.event_eq]
@[simp] theorem State.event_ueWin (s : State) (pg bit : Nat) : (s.event pg bit).ueWin = s.ueWin := by rw [State.event_eq]
@[simp] theorem State.event_ueSeen (s : State) (pg bit : Nat) : (s.event pg bit).ueSeen = s.ueSeen := by rw [State.event_eq]
@[simp] theorem State.event_loads (s : State) (pg bit : Nat) : (s.event pg bit).loads = s.loads := by rw [State.event_eq]
@[simp] theorem State.event_etab (s : State) (pg bit : Nat) : (s.event pg bit).etab = s.etab := by rw [State.event_eq]
@[simp] theorem State.event_etClock (s : State) (pg bit : Nat) : (s.event pg bit).etClock = s.etClock := by rw [State.event_eq]
@[simp] theorem State.event_hpcCause (s : State) (pg bit : Nat) : (s.event pg bit).hpcCause = s.hpcCause := by rw [State.event_eq]
@[simp] theorem State.event_sparePend (s : State) (pg bit : Nat) : (s.event pg bit).sparePend = s.sparePend := by rw [State.event_eq]
@[simp] theorem State.event_ptpOff (s : State) (pg bit : Nat) : (s.event pg bit).ptpOff = s.ptpOff := by rw [State.event_eq]
@[simp] theorem State.event_held (s : State) (pg bit : Nat) : (s.event pg bit).held = s.held := by rw [State.event_eq]
@[simp] theorem State.event_hubRst (s : State) (pg bit : Nat) : (s.event pg bit).hubRst = s.hubRst := by rw [State.event_eq]
@[simp] theorem State.event_hpcResv (s : State) (pg bit : Nat) : (s.event pg bit).hpcResv = s.hpcResv := by rw [State.event_eq]
@[simp] theorem State.event_bistCore (s : State) (pg bit : Nat) : (s.event pg bit).bistCore = s.bistCore := by rw [State.event_eq]
@[simp] theorem State.event_bands (s : State) (pg bit : Nat) : (s.event pg bit).bands = s.bands := by rw [State.event_eq]
@[simp] theorem State.event_labs (s : State) (pg bit : Nat) : (s.event pg bit).labs = s.labs := by rw [State.event_eq]
@[simp] theorem State.event_kvFree (s : State) (pg bit : Nat) : (s.event pg bit).kvFree = s.kvFree := by rw [State.event_eq]
@[simp] theorem State.event_kvQuar (s : State) (pg bit : Nat) : (s.event pg bit).kvQuar = s.kvQuar := by rw [State.event_eq]
@[simp] theorem State.event_kvOwned (s : State) (pg bit : Nat) : (s.event pg bit).kvOwned = s.kvOwned := by rw [State.event_eq]
@[simp] theorem State.event_kvUndef (s : State) (pg bit : Nat) : (s.event pg bit).kvUndef = s.kvUndef := by rw [State.event_eq]
@[simp] theorem State.event_kvWins (s : State) (pg bit : Nat) : (s.event pg bit).kvWins = s.kvWins := by rw [State.event_eq]
@[simp] theorem State.event_atuLast (s : State) (pg bit : Nat) : (s.event pg bit).atuLast = s.atuLast := by rw [State.event_eq]
@[simp] theorem State.event_sks (s : State) (pg bit : Nat) : (s.event pg bit).sks = s.sks := by rw [State.event_eq]
@[simp] theorem State.event_eths (s : State) (pg bit : Nat) : (s.event pg bit).eths = s.eths := by rw [State.event_eq]
@[simp] theorem State.event_vcs (s : State) (pg bit : Nat) : (s.event pg bit).vcs = s.vcs := by rw [State.event_eq]
@[simp] theorem State.event_vcLast (s : State) (pg bit : Nat) : (s.event pg bit).vcLast = s.vcLast := by rw [State.event_eq]
@[simp] theorem State.event_scrubPos (s : State) (pg bit : Nat) : (s.event pg bit).scrubPos = s.scrubPos := by rw [State.event_eq]
@[simp] theorem State.event_scrubStart (s : State) (pg bit : Nat) : (s.event pg bit).scrubStart = s.scrubStart := by rw [State.event_eq]
@[simp] theorem State.event_ceStart (s : State) (pg bit : Nat) : (s.event pg bit).ceStart = s.ceStart := by rw [State.event_eq]
@[simp] theorem State.event_subs (s : State) (pg bit : Nat) : (s.event pg bit).subs = s.subs := by rw [State.event_eq]
@[simp] theorem State.event_ramps (s : State) (pg bit : Nat) : (s.event pg bit).ramps = s.ramps := by rw [State.event_eq]
@[simp] theorem State.event_ptPend (s : State) (pg bit : Nat) : (s.event pg bit).ptPend = s.ptPend := by rw [State.event_eq]
@[simp] theorem State.port_event (s : State) (pg bit : Nat) (j : Nat) : (s.event pg bit).port j = s.port j := by rw [State.event_eq]; rfl
@[simp] theorem State.lend_event (s : State) (pg bit : Nat) (j : Nat) : (s.event pg bit).lend j = s.lend j := by rw [State.event_eq]; rfl
@[simp] theorem State.ten_event (s : State) (pg bit : Nat) (j : Nat) : (s.event pg bit).ten j = s.ten j := by rw [State.event_eq]; rfl
@[simp] theorem State.queue_event (s : State) (pg bit : Nat) (m r : Nat) : (s.event pg bit).queue m r = s.queue m r := by rw [State.event_eq]; rfl
@[simp] theorem State.res_event (s : State) (pg bit : Nat) (j : Nat) : (s.event pg bit).res j = s.res j := by rw [State.event_eq]; rfl
@[simp] theorem State.dsp_event (s : State) (pg bit : Nat) (j : Nat) : (s.event pg bit).dsp j = s.dsp j := by rw [State.event_eq]; rfl
@[simp] theorem State.core_event (s : State) (pg bit : Nat) (j : Nat) : (s.event pg bit).core j = s.core j := by rw [State.event_eq]; rfl
@[simp] theorem State.job_event (s : State) (pg bit : Nat) (j : Nat) : (s.event pg bit).job j = s.job j := by rw [State.event_eq]; rfl
@[simp] theorem State.pm_event (s : State) (pg bit : Nat) (j : Nat) : (s.event pg bit).pm j = s.pm j := by rw [State.event_eq]; rfl
@[simp] theorem State.backing_event (s : State) (pg bit : Nat) (j : Nat) : (s.event pg bit).backing j = s.backing j := by rw [State.event_eq]; rfl
@[simp] theorem State.comp_event (s : State) (pg bit : Nat) (j : Nat) : (s.event pg bit).comp j = s.comp j := by rw [State.event_eq]; rfl
@[simp] theorem State.sk_event (s : State) (pg bit : Nat) (j : Nat) : (s.event pg bit).sk j = s.sk j := by rw [State.event_eq]; rfl
@[simp] theorem State.eth_event (s : State) (pg bit : Nat) (j : Nat) : (s.event pg bit).eth j = s.eth j := by rw [State.event_eq]; rfl
@[simp] theorem State.vc_event (s : State) (pg bit : Nat) (j : Nat) : (s.event pg bit).vc j = s.vc j := by rw [State.event_eq]; rfl

/-! Errors and Trail records. -/

/-- `t` is `s` but for registers, MSI-X state and what was sent. -/
def State.RegsOnly (s t : State) : Prop := ∃ r f o x i, t = { s with regs := r, fns := f, outs := o, transit := x, ideSent := i }

theorem State.RegsOnly.trans {s t u : State} (h1 : s.RegsOnly t) (h2 : t.RegsOnly u) : s.RegsOnly u := by
  obtain ⟨_, _, _, _, _, rfl⟩ := h1
  obtain ⟨r, f, o, x, i, rfl⟩ := h2
  exact ⟨r, f, o, x, i, rfl⟩

theorem State.RegsOnly.setFld (s : State) (pg : Nat) (f : Fld) (v : Nat) : s.RegsOnly (s.setFld pg f v) := ⟨_, s.fns, s.outs, s.transit, s.ideSent, rfl⟩

theorem State.RegsOnly.event (s : State) (pg bit : Nat) : s.RegsOnly (s.event pg bit) := ⟨_, _, _, _, _, State.event_eq s pg bit⟩

/-- All that counting an error can change: registers, MSI-X state and what was sent. -/
theorem State.countErr_only (s : State) (pg code rq addr : Nat) : s.RegsOnly (s.countErr pg code rq addr) := by
  unfold State.countErr
  refine .trans ?_ (.event _ _ _)
  have h := State.RegsOnly.setFld s pg F.PG_ERR_CNT (satAdd F.PG_ERR_CNT.len (s.fld pg F.PG_ERR_CNT) 1)
  split
  · exact h
  · exact h.trans ((((State.RegsOnly.setFld _ _ _ _).trans (.setFld _ _ _ _)).trans (.setFld _ _ _ _)).trans
      ((State.RegsOnly.setFld _ _ _ _).trans (.setFld _ _ _ _)))

@[simp] theorem State.countErr_now (s : State) (pg code rq addr : Nat) : (s.countErr pg code rq addr).now = s.now := by obtain ⟨_, _, _, _, _, h⟩ := State.countErr_only s pg code rq addr; rw [h]
@[simp] theorem State.countErr_pending (s : State) (pg code rq addr : Nat) : (s.countErr pg code rq addr).pending = s.pending := by obtain ⟨_, _, _, _, _, h⟩ := State.countErr_only s pg code rq addr; rw [h]
@[simp] theorem State.countErr_fresh (s : State) (pg code rq addr : Nat) : (s.countErr pg code rq addr).fresh = s.fresh := by obtain ⟨_, _, _, _, _, h⟩ := State.countErr_only s pg code rq addr; rw [h]
@[simp] theorem State.countErr_ports (s : State) (pg code rq addr : Nat) : (s.countErr pg code rq addr).ports = s.ports := by obtain ⟨_, _, _, _, _, h⟩ := State.countErr_only s pg code rq addr; rw [h]
@[simp] theorem State.countErr_ends (s : State) (pg code rq addr : Nat) : (s.countErr pg code rq addr).ends = s.ends := by obtain ⟨_, _, _, _, _, h⟩ := State.countErr_only s pg code rq addr; rw [h]
@[simp] theorem State.countErr_routeHold (s : State) (pg code rq addr : Nat) : (s.countErr pg code rq addr).routeHold = s.routeHold := by obtain ⟨_, _, _, _, _, h⟩ := State.countErr_only s pg code rq addr; rw [h]
@[simp] theorem State.countErr_trail (s : State) (pg code rq addr : Nat) : (s.countErr pg code rq addr).trail = s.trail := by obtain ⟨_, _, _, _, _, h⟩ := State.countErr_only s pg code rq addr; rw [h]
@[simp] theorem State.countErr_board (s : State) (pg code rq addr : Nat) : (s.countErr pg code rq addr).board = s.board := by obtain ⟨_, _, _, _, _, h⟩ := State.countErr_only s pg code rq addr; rw [h]
@[simp] theorem State.countErr_boot (s : State) (pg code rq addr : Nat) : (s.countErr pg code rq addr).boot = s.boot := by obtain ⟨_, _, _, _, _, h⟩ := State.countErr_only s pg code rq addr; rw [h]
@[simp] theorem State.countErr_vclkLost (s : State) (pg code rq addr : Nat) : (s.countErr pg code rq addr).vclkLost = s.vclkLost := by obtain ⟨_, _, _, _, _, h⟩ := State.countErr_only s pg code rq addr; rw [h]
@[simp] theorem State.countErr_devFailed (s : State) (pg code rq addr : Nat) : (s.countErr pg code rq addr).devFailed = s.devFailed := by obtain ⟨_, _, _, _, _, h⟩ := State.countErr_only s pg code rq addr; rw [h]
@[simp] theorem State.countErr_hubOff (s : State) (pg code rq addr : Nat) : (s.countErr pg code rq addr).hubOff = s.hubOff := by obtain ⟨_, _, _, _, _, h⟩ := State.countErr_only s pg code rq addr; rw [h]
@[simp] theorem State.countErr_hmp (s : State) (pg code rq addr : Nat) : (s.countErr pg code rq addr).hmp = s.hmp := by obtain ⟨_, _, _, _, _, h⟩ := State.countErr_only s pg code rq addr; rw [h]
@[simp] theorem State.countErr_cmap (s : State) (pg code rq addr : Nat) : (s.countErr pg code rq addr).cmap = s.cmap := by obtain ⟨_, _, _, _, _, h⟩ := State.countErr_only s pg code rq addr; rw [h]
@[simp] theorem State.countErr_hmpPend (s : State) (pg code rq addr : Nat) : (s.countErr pg code rq addr).hmpPend = s.hmpPend := by obtain ⟨_, _, _, _, _, h⟩ := State.countErr_only s pg code rq addr; rw [h]
@[simp] theorem State.countErr_hmpClr (s : State) (pg code rq addr : Nat) : (s.countErr pg code rq addr).hmpClr = s.hmpClr := by obtain ⟨_, _, _, _, _, h⟩ := State.countErr_only s pg code rq addr; rw [h]
@[simp] theorem State.countErr_tens (s : State) (pg code rq addr : Nat) : (s.countErr pg code rq addr).tens = s.tens := by obtain ⟨_, _, _, _, _, h⟩ := State.countErr_only s pg code rq addr; rw [h]
@[simp] theorem State.countErr_queues (s : State) (pg code rq addr : Nat) : (s.countErr pg code rq addr).queues = s.queues := by obtain ⟨_, _, _, _, _, h⟩ := State.countErr_only s pg code rq addr; rw [h]
@[simp] theorem State.countErr_order (s : State) (pg code rq addr : Nat) : (s.countErr pg code rq addr).order = s.order := by obtain ⟨_, _, _, _, _, h⟩ := State.countErr_only s pg code rq addr; rw [h]
@[simp] theorem State.countErr_resid (s : State) (pg code rq addr : Nat) : (s.countErr pg code rq addr).resid = s.resid := by obtain ⟨_, _, _, _, _, h⟩ := State.countErr_only s pg code rq addr; rw [h]
@[simp] theorem State.countErr_disps (s : State) (pg code rq addr : Nat) : (s.countErr pg code rq addr).disps = s.disps := by obtain ⟨_, _, _, _, _, h⟩ := State.countErr_only s pg code rq addr; rw [h]
@[simp] theorem State.countErr_rsts (s : State) (pg code rq addr : Nat) : (s.countErr pg code rq addr).rsts = s.rsts := by obtain ⟨_, _, _, _, _, h⟩ := State.countErr_only s pg code rq addr; rw [h]
@[simp] theorem State.countErr_cores (s : State) (pg code rq addr : Nat) : (s.countErr pg code rq addr).cores = s.cores := by obtain ⟨_, _, _, _, _, h⟩ := State.countErr_only s pg code rq addr; rw [h]
@[simp] theorem State.countErr_jobs (s : State) (pg code rq addr : Nat) : (s.countErr pg code rq addr).jobs = s.jobs := by obtain ⟨_, _, _, _, _, h⟩ := State.countErr_only s pg code rq addr; rw [h]
@[simp] theorem State.countErr_stores (s : State) (pg code rq addr : Nat) : (s.countErr pg code rq addr).stores = s.stores := by obtain ⟨_, _, _, _, _, h⟩ := State.countErr_only s pg code rq addr; rw [h]
@[simp] theorem State.countErr_aoUp (s : State) (pg code rq addr : Nat) : (s.countErr pg code rq addr).aoUp = s.aoUp := by obtain ⟨_, _, _, _, _, h⟩ := State.countErr_only s pg code rq addr; rw [h]
@[simp] theorem State.countErr_power (s : State) (pg code rq addr : Nat) : (s.countErr pg code rq addr).power = s.power := by obtain ⟨_, _, _, _, _, h⟩ := State.countErr_only s pg code rq addr; rw [h]
@[simp] theorem State.countErr_thm (s : State) (pg code rq addr : Nat) : (s.countErr pg code rq addr).thm = s.thm := by obtain ⟨_, _, _, _, _, h⟩ := State.countErr_only s pg code rq addr; rw [h]
@[simp] theorem State.countErr_mgt (s : State) (pg code rq addr : Nat) : (s.countErr pg code rq addr).mgt = s.mgt := by obtain ⟨_, _, _, _, _, h⟩ := State.countErr_only s pg code rq addr; rw [h]
@[simp] theorem State.countErr_snaps (s : State) (pg code rq addr : Nat) : (s.countErr pg code rq addr).snaps = s.snaps := by obtain ⟨_, _, _, _, _, h⟩ := State.countErr_only s pg code rq addr; rw [h]
@[simp] theorem State.countErr_slices (s : State) (pg code rq addr : Nat) : (s.countErr pg code rq addr).slices = s.slices := by obtain ⟨_, _, _, _, _, h⟩ := State.countErr_only s pg code rq addr; rw [h]
@[simp] theorem State.countErr_pmem (s : State) (pg code rq addr : Nat) : (s.countErr pg code rq addr).pmem = s.pmem := by obtain ⟨_, _, _, _, _, h⟩ := State.countErr_only s pg code rq addr; rw [h]
@[simp] theorem State.countErr_near (s : State) (pg code rq addr : Nat) : (s.countErr pg code rq addr).near = s.near := by obtain ⟨_, _, _, _, _, h⟩ := State.countErr_only s pg code rq addr; rw [h]
@[simp] theorem State.countErr_ueWin (s : State) (pg code rq addr : Nat) : (s.countErr pg code rq addr).ueWin = s.ueWin := by obtain ⟨_, _, _, _, _, h⟩ := State.countErr_only s pg code rq addr; rw [h]
@[simp] theorem State.countErr_ueSeen (s : State) (pg code rq addr : Nat) : (s.countErr pg code rq addr).ueSeen = s.ueSeen := by obtain ⟨_, _, _, _, _, h⟩ := State.countErr_only s pg code rq addr; rw [h]
@[simp] theorem State.countErr_loads (s : State) (pg code rq addr : Nat) : (s.countErr pg code rq addr).loads = s.loads := by obtain ⟨_, _, _, _, _, h⟩ := State.countErr_only s pg code rq addr; rw [h]
@[simp] theorem State.countErr_etab (s : State) (pg code rq addr : Nat) : (s.countErr pg code rq addr).etab = s.etab := by obtain ⟨_, _, _, _, _, h⟩ := State.countErr_only s pg code rq addr; rw [h]
@[simp] theorem State.countErr_etClock (s : State) (pg code rq addr : Nat) : (s.countErr pg code rq addr).etClock = s.etClock := by obtain ⟨_, _, _, _, _, h⟩ := State.countErr_only s pg code rq addr; rw [h]
@[simp] theorem State.countErr_hpcCause (s : State) (pg code rq addr : Nat) : (s.countErr pg code rq addr).hpcCause = s.hpcCause := by obtain ⟨_, _, _, _, _, h⟩ := State.countErr_only s pg code rq addr; rw [h]
@[simp] theorem State.countErr_sparePend (s : State) (pg code rq addr : Nat) : (s.countErr pg code rq addr).sparePend = s.sparePend := by obtain ⟨_, _, _, _, _, h⟩ := State.countErr_only s pg code rq addr; rw [h]
@[simp] theorem State.countErr_ptpOff (s : State) (pg code rq addr : Nat) : (s.countErr pg code rq addr).ptpOff = s.ptpOff := by obtain ⟨_, _, _, _, _, h⟩ := State.countErr_only s pg code rq addr; rw [h]
@[simp] theorem State.countErr_held (s : State) (pg code rq addr : Nat) : (s.countErr pg code rq addr).held = s.held := by obtain ⟨_, _, _, _, _, h⟩ := State.countErr_only s pg code rq addr; rw [h]
@[simp] theorem State.countErr_hubRst (s : State) (pg code rq addr : Nat) : (s.countErr pg code rq addr).hubRst = s.hubRst := by obtain ⟨_, _, _, _, _, h⟩ := State.countErr_only s pg code rq addr; rw [h]
@[simp] theorem State.countErr_hpcResv (s : State) (pg code rq addr : Nat) : (s.countErr pg code rq addr).hpcResv = s.hpcResv := by obtain ⟨_, _, _, _, _, h⟩ := State.countErr_only s pg code rq addr; rw [h]
@[simp] theorem State.countErr_bistCore (s : State) (pg code rq addr : Nat) : (s.countErr pg code rq addr).bistCore = s.bistCore := by obtain ⟨_, _, _, _, _, h⟩ := State.countErr_only s pg code rq addr; rw [h]
@[simp] theorem State.countErr_bands (s : State) (pg code rq addr : Nat) : (s.countErr pg code rq addr).bands = s.bands := by obtain ⟨_, _, _, _, _, h⟩ := State.countErr_only s pg code rq addr; rw [h]
@[simp] theorem State.countErr_labs (s : State) (pg code rq addr : Nat) : (s.countErr pg code rq addr).labs = s.labs := by obtain ⟨_, _, _, _, _, h⟩ := State.countErr_only s pg code rq addr; rw [h]
@[simp] theorem State.countErr_kvFree (s : State) (pg code rq addr : Nat) : (s.countErr pg code rq addr).kvFree = s.kvFree := by obtain ⟨_, _, _, _, _, h⟩ := State.countErr_only s pg code rq addr; rw [h]
@[simp] theorem State.countErr_kvQuar (s : State) (pg code rq addr : Nat) : (s.countErr pg code rq addr).kvQuar = s.kvQuar := by obtain ⟨_, _, _, _, _, h⟩ := State.countErr_only s pg code rq addr; rw [h]
@[simp] theorem State.countErr_kvOwned (s : State) (pg code rq addr : Nat) : (s.countErr pg code rq addr).kvOwned = s.kvOwned := by obtain ⟨_, _, _, _, _, h⟩ := State.countErr_only s pg code rq addr; rw [h]
@[simp] theorem State.countErr_kvUndef (s : State) (pg code rq addr : Nat) : (s.countErr pg code rq addr).kvUndef = s.kvUndef := by obtain ⟨_, _, _, _, _, h⟩ := State.countErr_only s pg code rq addr; rw [h]
@[simp] theorem State.countErr_kvWins (s : State) (pg code rq addr : Nat) : (s.countErr pg code rq addr).kvWins = s.kvWins := by obtain ⟨_, _, _, _, _, h⟩ := State.countErr_only s pg code rq addr; rw [h]
@[simp] theorem State.countErr_atuLast (s : State) (pg code rq addr : Nat) : (s.countErr pg code rq addr).atuLast = s.atuLast := by obtain ⟨_, _, _, _, _, h⟩ := State.countErr_only s pg code rq addr; rw [h]
@[simp] theorem State.countErr_sks (s : State) (pg code rq addr : Nat) : (s.countErr pg code rq addr).sks = s.sks := by obtain ⟨_, _, _, _, _, h⟩ := State.countErr_only s pg code rq addr; rw [h]
@[simp] theorem State.countErr_eths (s : State) (pg code rq addr : Nat) : (s.countErr pg code rq addr).eths = s.eths := by obtain ⟨_, _, _, _, _, h⟩ := State.countErr_only s pg code rq addr; rw [h]
@[simp] theorem State.countErr_vcs (s : State) (pg code rq addr : Nat) : (s.countErr pg code rq addr).vcs = s.vcs := by obtain ⟨_, _, _, _, _, h⟩ := State.countErr_only s pg code rq addr; rw [h]
@[simp] theorem State.countErr_vcLast (s : State) (pg code rq addr : Nat) : (s.countErr pg code rq addr).vcLast = s.vcLast := by obtain ⟨_, _, _, _, _, h⟩ := State.countErr_only s pg code rq addr; rw [h]
@[simp] theorem State.countErr_scrubPos (s : State) (pg code rq addr : Nat) : (s.countErr pg code rq addr).scrubPos = s.scrubPos := by obtain ⟨_, _, _, _, _, h⟩ := State.countErr_only s pg code rq addr; rw [h]
@[simp] theorem State.countErr_scrubStart (s : State) (pg code rq addr : Nat) : (s.countErr pg code rq addr).scrubStart = s.scrubStart := by obtain ⟨_, _, _, _, _, h⟩ := State.countErr_only s pg code rq addr; rw [h]
@[simp] theorem State.countErr_ceStart (s : State) (pg code rq addr : Nat) : (s.countErr pg code rq addr).ceStart = s.ceStart := by obtain ⟨_, _, _, _, _, h⟩ := State.countErr_only s pg code rq addr; rw [h]
@[simp] theorem State.countErr_subs (s : State) (pg code rq addr : Nat) : (s.countErr pg code rq addr).subs = s.subs := by obtain ⟨_, _, _, _, _, h⟩ := State.countErr_only s pg code rq addr; rw [h]
@[simp] theorem State.countErr_ramps (s : State) (pg code rq addr : Nat) : (s.countErr pg code rq addr).ramps = s.ramps := by obtain ⟨_, _, _, _, _, h⟩ := State.countErr_only s pg code rq addr; rw [h]
@[simp] theorem State.countErr_ptPend (s : State) (pg code rq addr : Nat) : (s.countErr pg code rq addr).ptPend = s.ptPend := by obtain ⟨_, _, _, _, _, h⟩ := State.countErr_only s pg code rq addr; rw [h]
@[simp] theorem State.port_countErr (s : State) (pg code rq addr : Nat) (j : Nat) : (s.countErr pg code rq addr).port j = s.port j := by obtain ⟨_, _, _, _, _, h⟩ := State.countErr_only s pg code rq addr; rw [h]; rfl
@[simp] theorem State.lend_countErr (s : State) (pg code rq addr : Nat) (j : Nat) : (s.countErr pg code rq addr).lend j = s.lend j := by obtain ⟨_, _, _, _, _, h⟩ := State.countErr_only s pg code rq addr; rw [h]; rfl
@[simp] theorem State.ten_countErr (s : State) (pg code rq addr : Nat) (j : Nat) : (s.countErr pg code rq addr).ten j = s.ten j := by obtain ⟨_, _, _, _, _, h⟩ := State.countErr_only s pg code rq addr; rw [h]; rfl
@[simp] theorem State.queue_countErr (s : State) (pg code rq addr : Nat) (m r : Nat) : (s.countErr pg code rq addr).queue m r = s.queue m r := by obtain ⟨_, _, _, _, _, h⟩ := State.countErr_only s pg code rq addr; rw [h]; rfl
@[simp] theorem State.res_countErr (s : State) (pg code rq addr : Nat) (j : Nat) : (s.countErr pg code rq addr).res j = s.res j := by obtain ⟨_, _, _, _, _, h⟩ := State.countErr_only s pg code rq addr; rw [h]; rfl
@[simp] theorem State.dsp_countErr (s : State) (pg code rq addr : Nat) (j : Nat) : (s.countErr pg code rq addr).dsp j = s.dsp j := by obtain ⟨_, _, _, _, _, h⟩ := State.countErr_only s pg code rq addr; rw [h]; rfl
@[simp] theorem State.core_countErr (s : State) (pg code rq addr : Nat) (j : Nat) : (s.countErr pg code rq addr).core j = s.core j := by obtain ⟨_, _, _, _, _, h⟩ := State.countErr_only s pg code rq addr; rw [h]; rfl
@[simp] theorem State.job_countErr (s : State) (pg code rq addr : Nat) (j : Nat) : (s.countErr pg code rq addr).job j = s.job j := by obtain ⟨_, _, _, _, _, h⟩ := State.countErr_only s pg code rq addr; rw [h]; rfl
@[simp] theorem State.pm_countErr (s : State) (pg code rq addr : Nat) (j : Nat) : (s.countErr pg code rq addr).pm j = s.pm j := by obtain ⟨_, _, _, _, _, h⟩ := State.countErr_only s pg code rq addr; rw [h]; rfl
@[simp] theorem State.backing_countErr (s : State) (pg code rq addr : Nat) (j : Nat) : (s.countErr pg code rq addr).backing j = s.backing j := by obtain ⟨_, _, _, _, _, h⟩ := State.countErr_only s pg code rq addr; rw [h]; rfl
@[simp] theorem State.comp_countErr (s : State) (pg code rq addr : Nat) (j : Nat) : (s.countErr pg code rq addr).comp j = s.comp j := by obtain ⟨_, _, _, _, _, h⟩ := State.countErr_only s pg code rq addr; rw [h]; rfl
@[simp] theorem State.sk_countErr (s : State) (pg code rq addr : Nat) (j : Nat) : (s.countErr pg code rq addr).sk j = s.sk j := by obtain ⟨_, _, _, _, _, h⟩ := State.countErr_only s pg code rq addr; rw [h]; rfl
@[simp] theorem State.eth_countErr (s : State) (pg code rq addr : Nat) (j : Nat) : (s.countErr pg code rq addr).eth j = s.eth j := by obtain ⟨_, _, _, _, _, h⟩ := State.countErr_only s pg code rq addr; rw [h]; rfl
@[simp] theorem State.vc_countErr (s : State) (pg code rq addr : Nat) (j : Nat) : (s.countErr pg code rq addr).vc j = s.vc j := by obtain ⟨_, _, _, _, _, h⟩ := State.countErr_only s pg code rq addr; rw [h]; rfl

/-- The keys of a page that counting an error there can change. -/
def errKeys (pg : Nat) : List Nat :=
  [fkey pg F.PG_INT_STS, fkey pg F.PG_ERR_CNT, fkey pg F.PG_ERR_FIRST_valid, fkey pg F.PG_ERR_FIRST_code, fkey pg F.PG_ERR_FIRST_requester,
   fkey pg F.PG_ERR_ADDR_LO, fkey pg F.PG_ERR_ADDR_HI]

theorem State.fld_countErr_ne (s : State) (pg code rq addr p' : Nat) (f' : Fld) (h : fkey p' f' ∉ errKeys pg) :
    (s.countErr pg code rq addr).fld p' f' = s.fld p' f' := by
  simp only [errKeys, List.mem_cons, List.not_mem_nil, or_false, not_or] at h
  obtain ⟨h1, h2, h3, h4, h5, h6, h7⟩ := h
  unfold State.countErr
  dsimp only
  rw [State.fld_event_ne _ _ _ _ _ h1]
  split
  · exact State.fld_setFld_ne _ _ _ _ _ _ h2
  · simp only [State.setFld64, State.setFlag, State.satFld]
    rw [State.fld_setFld_ne _ _ _ _ _ _ h7, State.fld_setFld_ne _ _ _ _ _ _ h6, State.fld_setFld_ne _ _ _ _ _ _ h3,
      State.fld_setFld_ne _ _ _ _ _ _ h5, State.fld_setFld_ne _ _ _ _ _ _ h4, State.fld_setFld_ne _ _ _ _ _ _ h2]

/-- All that a Trail record can change: the Trail, registers of page TRL, MSI-X state and what was sent. -/
theorem State.trailPut_eq (s : State) (typ block sev : Nat) (payload : List Nat) :
    s.trailPut typ block sev payload = { s with
      regs := (s.trailPut typ block sev payload).regs, fns := (s.trailPut typ block sev payload).fns
      outs := (s.trailPut typ block sev payload).outs, transit := (s.trailPut typ block sev payload).transit
      ideSent := (s.trailPut typ block sev payload).ideSent, trail := (s.trailPut typ block sev payload).trail } := by
  unfold State.trailPut
  split
  · rfl
  · rw [State.event_eq]; rfl

@[simp] theorem State.trailPut_now (s : State) (typ block sev : Nat) (payload : List Nat) : (s.trailPut typ block sev payload).now = s.now := by rw [State.trailPut_eq]
@[simp] theorem State.trailPut_pending (s : State) (typ block sev : Nat) (payload : List Nat) : (s.trailPut typ block sev payload).pending = s.pending := by rw [State.trailPut_eq]
@[simp] theorem State.trailPut_fresh (s : State) (typ block sev : Nat) (payload : List Nat) : (s.trailPut typ block sev payload).fresh = s.fresh := by rw [State.trailPut_eq]
@[simp] theorem State.trailPut_ports (s : State) (typ block sev : Nat) (payload : List Nat) : (s.trailPut typ block sev payload).ports = s.ports := by rw [State.trailPut_eq]
@[simp] theorem State.trailPut_ends (s : State) (typ block sev : Nat) (payload : List Nat) : (s.trailPut typ block sev payload).ends = s.ends := by rw [State.trailPut_eq]
@[simp] theorem State.trailPut_routeHold (s : State) (typ block sev : Nat) (payload : List Nat) : (s.trailPut typ block sev payload).routeHold = s.routeHold := by rw [State.trailPut_eq]
@[simp] theorem State.trailPut_board (s : State) (typ block sev : Nat) (payload : List Nat) : (s.trailPut typ block sev payload).board = s.board := by rw [State.trailPut_eq]
@[simp] theorem State.trailPut_boot (s : State) (typ block sev : Nat) (payload : List Nat) : (s.trailPut typ block sev payload).boot = s.boot := by rw [State.trailPut_eq]
@[simp] theorem State.trailPut_vclkLost (s : State) (typ block sev : Nat) (payload : List Nat) : (s.trailPut typ block sev payload).vclkLost = s.vclkLost := by rw [State.trailPut_eq]
@[simp] theorem State.trailPut_devFailed (s : State) (typ block sev : Nat) (payload : List Nat) : (s.trailPut typ block sev payload).devFailed = s.devFailed := by rw [State.trailPut_eq]
@[simp] theorem State.trailPut_hubOff (s : State) (typ block sev : Nat) (payload : List Nat) : (s.trailPut typ block sev payload).hubOff = s.hubOff := by rw [State.trailPut_eq]
@[simp] theorem State.trailPut_hmp (s : State) (typ block sev : Nat) (payload : List Nat) : (s.trailPut typ block sev payload).hmp = s.hmp := by rw [State.trailPut_eq]
@[simp] theorem State.trailPut_cmap (s : State) (typ block sev : Nat) (payload : List Nat) : (s.trailPut typ block sev payload).cmap = s.cmap := by rw [State.trailPut_eq]
@[simp] theorem State.trailPut_hmpPend (s : State) (typ block sev : Nat) (payload : List Nat) : (s.trailPut typ block sev payload).hmpPend = s.hmpPend := by rw [State.trailPut_eq]
@[simp] theorem State.trailPut_hmpClr (s : State) (typ block sev : Nat) (payload : List Nat) : (s.trailPut typ block sev payload).hmpClr = s.hmpClr := by rw [State.trailPut_eq]
@[simp] theorem State.trailPut_tens (s : State) (typ block sev : Nat) (payload : List Nat) : (s.trailPut typ block sev payload).tens = s.tens := by rw [State.trailPut_eq]
@[simp] theorem State.trailPut_queues (s : State) (typ block sev : Nat) (payload : List Nat) : (s.trailPut typ block sev payload).queues = s.queues := by rw [State.trailPut_eq]
@[simp] theorem State.trailPut_order (s : State) (typ block sev : Nat) (payload : List Nat) : (s.trailPut typ block sev payload).order = s.order := by rw [State.trailPut_eq]
@[simp] theorem State.trailPut_resid (s : State) (typ block sev : Nat) (payload : List Nat) : (s.trailPut typ block sev payload).resid = s.resid := by rw [State.trailPut_eq]
@[simp] theorem State.trailPut_disps (s : State) (typ block sev : Nat) (payload : List Nat) : (s.trailPut typ block sev payload).disps = s.disps := by rw [State.trailPut_eq]
@[simp] theorem State.trailPut_rsts (s : State) (typ block sev : Nat) (payload : List Nat) : (s.trailPut typ block sev payload).rsts = s.rsts := by rw [State.trailPut_eq]
@[simp] theorem State.trailPut_cores (s : State) (typ block sev : Nat) (payload : List Nat) : (s.trailPut typ block sev payload).cores = s.cores := by rw [State.trailPut_eq]
@[simp] theorem State.trailPut_jobs (s : State) (typ block sev : Nat) (payload : List Nat) : (s.trailPut typ block sev payload).jobs = s.jobs := by rw [State.trailPut_eq]
@[simp] theorem State.trailPut_stores (s : State) (typ block sev : Nat) (payload : List Nat) : (s.trailPut typ block sev payload).stores = s.stores := by rw [State.trailPut_eq]
@[simp] theorem State.trailPut_aoUp (s : State) (typ block sev : Nat) (payload : List Nat) : (s.trailPut typ block sev payload).aoUp = s.aoUp := by rw [State.trailPut_eq]
@[simp] theorem State.trailPut_power (s : State) (typ block sev : Nat) (payload : List Nat) : (s.trailPut typ block sev payload).power = s.power := by rw [State.trailPut_eq]
@[simp] theorem State.trailPut_thm (s : State) (typ block sev : Nat) (payload : List Nat) : (s.trailPut typ block sev payload).thm = s.thm := by rw [State.trailPut_eq]
@[simp] theorem State.trailPut_mgt (s : State) (typ block sev : Nat) (payload : List Nat) : (s.trailPut typ block sev payload).mgt = s.mgt := by rw [State.trailPut_eq]
@[simp] theorem State.trailPut_snaps (s : State) (typ block sev : Nat) (payload : List Nat) : (s.trailPut typ block sev payload).snaps = s.snaps := by rw [State.trailPut_eq]
@[simp] theorem State.trailPut_slices (s : State) (typ block sev : Nat) (payload : List Nat) : (s.trailPut typ block sev payload).slices = s.slices := by rw [State.trailPut_eq]
@[simp] theorem State.trailPut_pmem (s : State) (typ block sev : Nat) (payload : List Nat) : (s.trailPut typ block sev payload).pmem = s.pmem := by rw [State.trailPut_eq]
@[simp] theorem State.trailPut_near (s : State) (typ block sev : Nat) (payload : List Nat) : (s.trailPut typ block sev payload).near = s.near := by rw [State.trailPut_eq]
@[simp] theorem State.trailPut_ueWin (s : State) (typ block sev : Nat) (payload : List Nat) : (s.trailPut typ block sev payload).ueWin = s.ueWin := by rw [State.trailPut_eq]
@[simp] theorem State.trailPut_ueSeen (s : State) (typ block sev : Nat) (payload : List Nat) : (s.trailPut typ block sev payload).ueSeen = s.ueSeen := by rw [State.trailPut_eq]
@[simp] theorem State.trailPut_loads (s : State) (typ block sev : Nat) (payload : List Nat) : (s.trailPut typ block sev payload).loads = s.loads := by rw [State.trailPut_eq]
@[simp] theorem State.trailPut_etab (s : State) (typ block sev : Nat) (payload : List Nat) : (s.trailPut typ block sev payload).etab = s.etab := by rw [State.trailPut_eq]
@[simp] theorem State.trailPut_etClock (s : State) (typ block sev : Nat) (payload : List Nat) : (s.trailPut typ block sev payload).etClock = s.etClock := by rw [State.trailPut_eq]
@[simp] theorem State.trailPut_hpcCause (s : State) (typ block sev : Nat) (payload : List Nat) : (s.trailPut typ block sev payload).hpcCause = s.hpcCause := by rw [State.trailPut_eq]
@[simp] theorem State.trailPut_sparePend (s : State) (typ block sev : Nat) (payload : List Nat) : (s.trailPut typ block sev payload).sparePend = s.sparePend := by rw [State.trailPut_eq]
@[simp] theorem State.trailPut_ptpOff (s : State) (typ block sev : Nat) (payload : List Nat) : (s.trailPut typ block sev payload).ptpOff = s.ptpOff := by rw [State.trailPut_eq]
@[simp] theorem State.trailPut_held (s : State) (typ block sev : Nat) (payload : List Nat) : (s.trailPut typ block sev payload).held = s.held := by rw [State.trailPut_eq]
@[simp] theorem State.trailPut_hubRst (s : State) (typ block sev : Nat) (payload : List Nat) : (s.trailPut typ block sev payload).hubRst = s.hubRst := by rw [State.trailPut_eq]
@[simp] theorem State.trailPut_hpcResv (s : State) (typ block sev : Nat) (payload : List Nat) : (s.trailPut typ block sev payload).hpcResv = s.hpcResv := by rw [State.trailPut_eq]
@[simp] theorem State.trailPut_bistCore (s : State) (typ block sev : Nat) (payload : List Nat) : (s.trailPut typ block sev payload).bistCore = s.bistCore := by rw [State.trailPut_eq]
@[simp] theorem State.trailPut_bands (s : State) (typ block sev : Nat) (payload : List Nat) : (s.trailPut typ block sev payload).bands = s.bands := by rw [State.trailPut_eq]
@[simp] theorem State.trailPut_labs (s : State) (typ block sev : Nat) (payload : List Nat) : (s.trailPut typ block sev payload).labs = s.labs := by rw [State.trailPut_eq]
@[simp] theorem State.trailPut_kvFree (s : State) (typ block sev : Nat) (payload : List Nat) : (s.trailPut typ block sev payload).kvFree = s.kvFree := by rw [State.trailPut_eq]
@[simp] theorem State.trailPut_kvQuar (s : State) (typ block sev : Nat) (payload : List Nat) : (s.trailPut typ block sev payload).kvQuar = s.kvQuar := by rw [State.trailPut_eq]
@[simp] theorem State.trailPut_kvOwned (s : State) (typ block sev : Nat) (payload : List Nat) : (s.trailPut typ block sev payload).kvOwned = s.kvOwned := by rw [State.trailPut_eq]
@[simp] theorem State.trailPut_kvUndef (s : State) (typ block sev : Nat) (payload : List Nat) : (s.trailPut typ block sev payload).kvUndef = s.kvUndef := by rw [State.trailPut_eq]
@[simp] theorem State.trailPut_kvWins (s : State) (typ block sev : Nat) (payload : List Nat) : (s.trailPut typ block sev payload).kvWins = s.kvWins := by rw [State.trailPut_eq]
@[simp] theorem State.trailPut_atuLast (s : State) (typ block sev : Nat) (payload : List Nat) : (s.trailPut typ block sev payload).atuLast = s.atuLast := by rw [State.trailPut_eq]
@[simp] theorem State.trailPut_sks (s : State) (typ block sev : Nat) (payload : List Nat) : (s.trailPut typ block sev payload).sks = s.sks := by rw [State.trailPut_eq]
@[simp] theorem State.trailPut_eths (s : State) (typ block sev : Nat) (payload : List Nat) : (s.trailPut typ block sev payload).eths = s.eths := by rw [State.trailPut_eq]
@[simp] theorem State.trailPut_vcs (s : State) (typ block sev : Nat) (payload : List Nat) : (s.trailPut typ block sev payload).vcs = s.vcs := by rw [State.trailPut_eq]
@[simp] theorem State.trailPut_vcLast (s : State) (typ block sev : Nat) (payload : List Nat) : (s.trailPut typ block sev payload).vcLast = s.vcLast := by rw [State.trailPut_eq]
@[simp] theorem State.trailPut_scrubPos (s : State) (typ block sev : Nat) (payload : List Nat) : (s.trailPut typ block sev payload).scrubPos = s.scrubPos := by rw [State.trailPut_eq]
@[simp] theorem State.trailPut_scrubStart (s : State) (typ block sev : Nat) (payload : List Nat) : (s.trailPut typ block sev payload).scrubStart = s.scrubStart := by rw [State.trailPut_eq]
@[simp] theorem State.trailPut_ceStart (s : State) (typ block sev : Nat) (payload : List Nat) : (s.trailPut typ block sev payload).ceStart = s.ceStart := by rw [State.trailPut_eq]
@[simp] theorem State.trailPut_subs (s : State) (typ block sev : Nat) (payload : List Nat) : (s.trailPut typ block sev payload).subs = s.subs := by rw [State.trailPut_eq]
@[simp] theorem State.trailPut_ramps (s : State) (typ block sev : Nat) (payload : List Nat) : (s.trailPut typ block sev payload).ramps = s.ramps := by rw [State.trailPut_eq]
@[simp] theorem State.trailPut_ptPend (s : State) (typ block sev : Nat) (payload : List Nat) : (s.trailPut typ block sev payload).ptPend = s.ptPend := by rw [State.trailPut_eq]
@[simp] theorem State.port_trailPut (s : State) (typ block sev : Nat) (payload : List Nat) (j : Nat) : (s.trailPut typ block sev payload).port j = s.port j := by rw [State.trailPut_eq]; rfl
@[simp] theorem State.lend_trailPut (s : State) (typ block sev : Nat) (payload : List Nat) (j : Nat) : (s.trailPut typ block sev payload).lend j = s.lend j := by rw [State.trailPut_eq]; rfl
@[simp] theorem State.ten_trailPut (s : State) (typ block sev : Nat) (payload : List Nat) (j : Nat) : (s.trailPut typ block sev payload).ten j = s.ten j := by rw [State.trailPut_eq]; rfl
@[simp] theorem State.queue_trailPut (s : State) (typ block sev : Nat) (payload : List Nat) (m r : Nat) : (s.trailPut typ block sev payload).queue m r = s.queue m r := by rw [State.trailPut_eq]; rfl
@[simp] theorem State.res_trailPut (s : State) (typ block sev : Nat) (payload : List Nat) (j : Nat) : (s.trailPut typ block sev payload).res j = s.res j := by rw [State.trailPut_eq]; rfl
@[simp] theorem State.dsp_trailPut (s : State) (typ block sev : Nat) (payload : List Nat) (j : Nat) : (s.trailPut typ block sev payload).dsp j = s.dsp j := by rw [State.trailPut_eq]; rfl
@[simp] theorem State.core_trailPut (s : State) (typ block sev : Nat) (payload : List Nat) (j : Nat) : (s.trailPut typ block sev payload).core j = s.core j := by rw [State.trailPut_eq]; rfl
@[simp] theorem State.job_trailPut (s : State) (typ block sev : Nat) (payload : List Nat) (j : Nat) : (s.trailPut typ block sev payload).job j = s.job j := by rw [State.trailPut_eq]; rfl
@[simp] theorem State.pm_trailPut (s : State) (typ block sev : Nat) (payload : List Nat) (j : Nat) : (s.trailPut typ block sev payload).pm j = s.pm j := by rw [State.trailPut_eq]; rfl
@[simp] theorem State.backing_trailPut (s : State) (typ block sev : Nat) (payload : List Nat) (j : Nat) : (s.trailPut typ block sev payload).backing j = s.backing j := by rw [State.trailPut_eq]; rfl
@[simp] theorem State.comp_trailPut (s : State) (typ block sev : Nat) (payload : List Nat) (j : Nat) : (s.trailPut typ block sev payload).comp j = s.comp j := by rw [State.trailPut_eq]; rfl
@[simp] theorem State.sk_trailPut (s : State) (typ block sev : Nat) (payload : List Nat) (j : Nat) : (s.trailPut typ block sev payload).sk j = s.sk j := by rw [State.trailPut_eq]; rfl
@[simp] theorem State.eth_trailPut (s : State) (typ block sev : Nat) (payload : List Nat) (j : Nat) : (s.trailPut typ block sev payload).eth j = s.eth j := by rw [State.trailPut_eq]; rfl
@[simp] theorem State.vc_trailPut (s : State) (typ block sev : Nat) (payload : List Nat) (j : Nat) : (s.trailPut typ block sev payload).vc j = s.vc j := by rw [State.trailPut_eq]; rfl

theorem State.fld_trailPut_ne (s : State) (typ block sev : Nat) (payload : List Nat) (p' : Nat) (f' : Fld)
    (h1 : fkey p' f' ≠ fkey P.trl F.TRL_STS_busy) (h2 : fkey p' f' ≠ fkey P.trl F.TRL_STS_dropped) (h3 : fkey p' f' ≠ fkey P.trl F.PG_INT_STS) :
    (s.trailPut typ block sev payload).fld p' f' = s.fld p' f' := by
  unfold State.trailPut
  split
  · exact State.fld_setFld_ne _ _ _ _ _ _ h1
  · rw [State.fld_event_ne _ _ _ _ _ h3]; exact State.fld_setFld_ne _ _ _ _ _ _ h2

/-- A fold over a list keeps what every update keeps. -/
theorem State.each_keeps {α : Type} (P : State → Prop) (s : State) (l : List α) (f : α → State → State)
    (hf : ∀ x ∈ l, ∀ s, P s → P (f x s)) (h : P s) : P (s.each l f) := by
  unfold State.each
  induction l generalizing s with
  | nil => exact h
  | cons x l ih => exact ih _ (fun y hy => hf y (List.mem_cons_of_mem _ hy)) (hf x (List.mem_cons_self ..) s h)

@[simp] theorem State.each_nil {α : Type} (s : State) (f : α → State → State) : s.each [] f = s := rfl
@[simp] theorem State.each_cons {α : Type} (s : State) (x : α) (l : List α) (f : α → State → State) :
    s.each (x :: l) f = (f x s).each l f := rfl

end Sys2Proof.Machine
end

