-- ==== Sys2Proof/Laws/Cores.lean ====
section
/-! SUPPORT. Core registers after a write, the masked writes of per-thread instructions, and what one instruction of a Peken core leaves. -/
namespace Sys2Proof.Machine

/-! Register files. -/

@[simp] theorem Core.getS_zero (c : Core) : c.getS 0 = 0 := rfl
@[simp] theorem Core.getP_zero (c : Core) : c.getP 0 = -1 := rfl
@[simp] theorem Core.setS_zero (c : Core) (v : Dword) : c.setS 0 v = c := rfl
@[simp] theorem Core.setP_zero (c : Core) (v : Dword) : c.setP 0 v = c := rfl

theorem Core.getS_setS (c : Core) (d : Nat) (v : Dword) (r : Nat) :
    (c.setS d v).getS r = if r = d ∧ d ≠ 0 then v else c.getS r := by
  unfold Core.setS Core.getS
  by_cases hd : d = 0
  · simp [hd]
  · by_cases hr : r = 0
    · subst hr; simp [hd]; omega
    · simp [hd, hr, Tab.get_set]

theorem Core.getP_setP (c : Core) (d : Nat) (v : Dword) (r : Nat) :
    (c.setP d v).getP r = if r = d ∧ d ≠ 0 then v else c.getP r := by
  unfold Core.setP Core.getP
  by_cases hd : d = 0
  · simp [hd]
  · by_cases hr : r = 0
    · subst hr; simp [hd]; omega
    · simp [hd, hr, Tab.get_set]

theorem Core.getV_setV (c : Core) (d t : Nat) (v : Word) (r u : Nat) :
    (c.setV d t v).getV r u = if 64 * r + u = 64 * d + t then v else c.getV r u := Tab.get_set _ _ _ _ _

/-- All that a scalar write can change. -/
theorem Core.setS_eq (c : Core) (d : Nat) (v : Dword) : c.setS d v = { c with s := (c.setS d v).s } := by
  unfold Core.setS; split <;> rfl

theorem Core.setP_eq (c : Core) (d : Nat) (v : Dword) : c.setP d v = { c with p := (c.setP d v).p } := by
  unfold Core.setP; split <;> rfl

theorem mem_threadsOf (m : Dword) (t : Nat) : t ∈ threadsOf m ↔ t < 64 ∧ m.getLsbD t = true := by
  simp [threadsOf]

/-- Folding thread writes of one register over distinct threads. -/
theorem getV_foldl_setV (d : Nat) (f : Nat → Word) (l : List Nat) (hl : ∀ t ∈ l, t < 64) (c : Core) (r u : Nat) (hu : u < 64) :
    (l.foldl (fun k t => k.setV d t (f t)) c).getV r u = if r = d ∧ u ∈ l then f u else c.getV r u := by
  induction l generalizing c with
  | nil => simp
  | cons t l ih =>
    have ht := hl t (by simp)
    simp only [List.foldl_cons]
    rw [ih (fun t h => hl t (List.mem_cons_of_mem _ h)), Core.getV_setV]
    by_cases h1 : r = d
    · subst h1
      by_cases h2 : u = t
      · subst h2; by_cases h3 : u ∈ l <;> simp [h3]
      · have h4 : ¬ (64 * r + u = 64 * r + t) := by omega
        by_cases h3 : u ∈ l <;> simp [h2, h3]
    · have h4 : ¬ (64 * r + u = 64 * d + t) := by omega
      simp [h1, h4]

/-- A per-thread write: the acting threads of vd take their value, every other thread and register keeps its own. -/
theorem Core.getV_mapV (c : Core) (i : Pk) (f : Nat → Word) (r t : Nat) (ht : t < 64) :
    (c.mapV i f).getV r t = if r = i.d.val ∧ (c.acting i).getLsbD t = true then f t else c.getV r t := by
  unfold Core.mapV
  rw [getV_foldl_setV _ _ _ (fun t h => ((mem_threadsOf _ _).1 h).1) _ _ _ ht]
  simp [mem_threadsOf, ht]

/-- All that a per-thread write can change. -/
theorem Core.mapV_eq (c : Core) (i : Pk) (f : Nat → Word) : c.mapV i f = { c with v := (c.mapV i f).v } := by
  have : ∀ (l : List Nat) (k : Core), l.foldl (fun k t => k.setV i.d t (f t)) k =
      { k with v := (l.foldl (fun k t => k.setV i.d t (f t)) k).v } := by
    intro l
    induction l with
    | nil => intro k; rfl
    | cons t l ih => intro k; rw [List.foldl_cons, ih]; rfl
  exact this _ _

theorem Core.mapF_v (c : Core) (i : Pk) (f : Nat → Word × Nat) :
    c.mapF i f = { c.mapV i (fun t => (f t).1) with
      fpstat := (threadsOf (c.acting i)).foldl (fun k t => k ||| (f t).2) c.fpstat } := by
  have : ∀ (l : List Nat) (k : Core), l.foldl (fun (k : Core) t => { k.setV i.d t (f t).1 with fpstat := k.fpstat ||| (f t).2 }) k =
      { l.foldl (fun (k : Core) t => k.setV i.d t (f t).1) k with fpstat := l.foldl (fun k t => k ||| (f t).2) k.fpstat } := by
    intro l
    induction l with
    | nil => intro k; rfl
    | cons t l ih =>
      intro k
      rw [List.foldl_cons, ih, List.foldl_cons, List.foldl_cons]
      have hv : ∀ (l : List Nat) (k : Core) (z : Nat), l.foldl (fun (k : Core) t => k.setV i.d t (f t).1) { k with fpstat := z } =
          { l.foldl (fun (k : Core) t => k.setV i.d t (f t).1) k with fpstat := z } := by
        intro l
        induction l with
        | nil => intros; rfl
        | cons t l ih => intro k z; rw [List.foldl_cons, List.foldl_cons]; exact ih (k.setV i.d t (f t).1) z
      rw [hv]
  exact this _ _

/-! One instruction. -/

theorem State.act_next (s : State) (x pc : Nat) (t : State) :
    s.act x pc (.next t) = t.setCore x { t.core x with pc := pcAdd pc 8 } := rfl
theorem State.act_jump (s : State) (x pc : Nat) (t : State) (p : Nat) :
    s.act x pc (.jump t p) = t.setCore x { t.core x with pc := p % 2 ^ 19 } := rfl
@[simp] theorem State.act_hold (s : State) (x pc : Nat) : s.act x pc .hold = s := rfl
@[simp] theorem State.act_block (s : State) (x pc : Nat) (t : State) : s.act x pc (.block t) = t := rfl
@[simp] theorem State.act_fault (s : State) (x pc c h a : Nat) : s.act x pc (.fault c h a) = s.coreFault x c 0 h a pc := rfl

end Sys2Proof.Machine
end

