-- ==== Sys2Proof/Safety.lean ====
section
/-! DEFINITION. What claims say of a run: a command completes with a result, a privileged write is granted, what stays as it was, and the invariant of every state. -/
namespace Sys2Proof.Machine

/-- Command `c` runs in state `s` to a next state of which `P` holds. -/
def Completes (c : Instr) (s : State) (P : State → Prop) : Prop := ∃ t, exec c s = .next t ∧ P t

/-- A step that neither faults nor refuses. -/
def State.advances (s : State) : Prop := ∃ t, step s = .next t

/-- No aperture write that host port `k` sent still waits (05 R114). -/
def State.portClear (s : State) (k : Nat) : Bool := s.hmpPend.all fun w => w.client != k

/-- A write by `rq` of a privileged register of page `pg` has its effect at once: only where the page serves accesses and its tile is not changing its operating point, from a physical function only the owner port's and after its earlier aperture writes, and never from a tenant (03 R55, R56, R66, R69; 05 R114). -/
def State.grants (s : State) (rq : Requester) (pg : Nat) : Bool :=
  s.reach rq && !s.unavailable pg && !s.tileBusy pg &&
    (match rq with
      | .tenant _ => false
      | .pf p => p.val == s.owner && s.portClear p
      | _ => true)

/-- A write by `rq` of a register of tenant `n`'s window page `k` has its effect: from the tenant itself when the device is ready, its functions answer, no reset of it runs and no earlier aperture write of its port waits, else as for a privileged register (03 R59, R63, R69). -/
def State.grantsTen (s : State) (rq : Requester) (n k : Nat) : Bool :=
  match rq with
  | .tenant m => m.val == n && s.ready && s.reach (.tenant m) && s.tnState n != 3 && s.portClear (s.tnPort n)
  | _ => s.grants rq (P.ten n k)

/-! Peken cores. -/

/-- Core `x` fetches and runs an instruction of form `f` with no fetch fault and no reserved field (07 R158, R160, R162, R165, R175). -/
def State.issues (s : State) (x : Nat) (i : Pk) (f : Form) : Bool :=
  s.executes x && (s.fetchStop x (s.core x).pc).isNone && !f.bad i

/-- Command `c` leaves core `x` with the registers `k`, and everything else of the state as it was. -/
def Retires (c : Instr) (s : State) (x : Nat) (k : Core) : Prop :=
  Completes c s fun t => t.core x = k ∧ (∀ y, y ≠ x → t.core y = s.core y) ∧ ∃ m, t = { s with cores := m }

/-- The same for an instruction of the per-thread unit, whose issue counter rises by one (07, TGU_ISSUE). -/
def RetiresTgu (c : Instr) (s : State) (x : Nat) (k : Core) : Prop :=
  Completes c s fun t => t.core x = k ∧ (∀ y, y ≠ x → t.core y = s.core y) ∧
    t.fld64 (P.tgu x) F.TGU_ISSUE_LO_count F.TGU_ISSUE_HI_count =
      (s.fld64 (P.tgu x) F.TGU_ISSUE_LO_count F.TGU_ISSUE_HI_count + 1) % 2 ^ 64 ∧
    (∀ pg f, fkey pg f ∉ [fkey (P.tgu x) F.TGU_ISSUE_LO_count, fkey (P.tgu x) F.TGU_ISSUE_HI_count] → t.fld pg f = s.fld pg f) ∧
    ∃ m r, t = { s with cores := m, regs := r }

/-- The core at the next instruction (07 R176: instructions are 8 bytes). -/
def Core.step (c : Core) : Core := { c with pc := pcAdd c.pc 8 }

/-- The core at the next instruction, with scalar register `d` written; s0 ignores the write (07 R162). -/
def Core.stepS (c : Core) (d : Nat) (v : Dword) : Core := (c.setS d v).step

/-- The core after an engine accepts its instruction: the token rises by one, the PC moves on. -/
def Core.issued (c : Core) (i : Pk) : Core := (c.setT i.token (c.getT i.token + 1)).step

/-- Command `c` writes `f t` to thread t of vd in each acting thread, and no other thread or register; the PC moves on. -/
def WritesV (c : Instr) (s : State) (x : Nat) (i : Pk) (f : Nat → Word) : Prop :=
  ∃ k, RetiresTgu c s x k ∧ k = { (s.core x).step with v := k.v } ∧
    ∀ r t, t < 64 → k.getV r t = if r = i.d.val ∧ ((s.core x).acting i).getLsbD t = true then f t else (s.core x).getV r t

/-- The same for values that come with FPSTAT flags, which accumulate over the acting threads (07 R174). -/
def WritesF (c : Instr) (s : State) (x : Nat) (i : Pk) (f : Nat → Word × Nat) : Prop :=
  ∃ k, RetiresTgu c s x k ∧ k = { (s.core x).step with v := k.v, fpstat := k.fpstat } ∧
    (∀ r t, t < 64 → k.getV r t = if r = i.d.val ∧ ((s.core x).acting i).getLsbD t = true then (f t).1 else (s.core x).getV r t) ∧
    ∀ b, k.fpstat.testBit b = true ↔ (s.core x).fpstat.testBit b = true ∨ ∃ t, t < 64 ∧ ((s.core x).acting i).getLsbD t = true ∧ (f t).2.testBit b = true

/-- A KVOP command ends as its gate and its operation say (10 R252-R254): an answer of the gate counts and is recorded; an error ends it; an applied operation enters the window, and its record carries status OK and the result. -/
def KvopEnds (c : Instr) (s : State) (x : Nat) (o : AtuOp) (p n ep v : Nat) (windowed : Bool) (op : Except KvErr (State × Nat))
    (more : State → List Byte) : Prop :=
  (∀ g, s.kvGate p n ep v windowed = some g → exec c s = .next ((s.kvCount n g.1).kvRecord x o g.1 g.2 0 v [])) ∧
  (s.kvGate p n ep v windowed = none →
    (∀ e, op = .error e → exec c s = .next (s.kvEnd x o p v e)) ∧
    ∀ t r, op = .ok (t, r) → exec c s = .next ((if windowed then t.setKvWin n ((t.kvWin n).record v r) else t).kvRecord x o 0 r 0 v (more t)))

/-- The instructions of the Peken table, each with the fields its word uses (07 R175, R176). -/
def pkForms (x : Fin 512) (i : Pk) : List (Instr × Form) :=
  [Instr.pkNop x i, .pkElse x i, .pkEndif x i, .pkLoop x i, .pkWaita x i, .pkRezinv x i, .pkIdle x i].map (·, ({} : Form)) ++
  [Instr.pkBr x i, .pkEndloop x i, .pkBrnone x i, .pkTrap x i, .pkWait x i, .pkBar x i].map (·, ({ imm := true } : Form)) ++
  [Instr.pkBrc x i].map (·, ({ a := .s, imm := true, mods := [0, 1, 2, 3, 4, 5] } : Form)) ++
  [Instr.pkCall x i, .pkCsrr x i, .pkToks x i].map (·, ({ d := .s, imm := true } : Form)) ++
  [Instr.pkJr x i, .pkJend x i].map (·, ({ a := .s } : Form)) ++
  [Instr.pkIf x i, .pkBrk x i].map (·, ({ guarded := true } : Form)) ++
  [Instr.pkAdd x i, .pkSub x i, .pkAnd x i, .pkOr x i, .pkXor x i, .pkShl x i, .pkShr x i, .pkSra x i, .pkMul x i, .pkMulhu x i, .pkMin x i, .pkMax x
    i, .pkMinu x i, .pkMaxu x i, .pkSlt x i, .pkSltu x i].map (·, (formSss : Form)) ++
  [Instr.pkAddi x i, .pkAndi x i, .pkOri x i, .pkXori x i, .pkShli x i, .pkShri x i, .pkSrai x i, .pkLui x i, .pkSlti x i].map (·, (formSsi : Form)) ++
  [Instr.pkCsrw x i].map (·, ({ a := .s, imm := true } : Form)) ++
  [Instr.pkLds x i].map (·, ({ d := .s, a := .s, imm := true, mods := [0, 1, 2, 3, 4, 5, 6, 7] } : Form)) ++
  [Instr.pkSts x i].map (·, ({ d := .s, a := .s, imm := true, mods := [0, 1, 2, 3] } : Form)) ++
  [Instr.pkVadd x i, .pkVsub x i, .pkVmul x i, .pkVmulhu x i, .pkVand x i, .pkVor x i, .pkVxor x i, .pkVshl x i, .pkVshr x i, .pkVsra x i, .pkVmin x
    i, .pkVmax x i, .pkVminu x i, .pkVmaxu x i, .pkVfadd x i, .pkVfsub x i, .pkVfmul x i, .pkVfmin x i, .pkVfmax x i, .pkVshfl x i].map (·, (formVvv :
    Form)) ++
  [Instr.pkVsel x i].map (·, ({ formVvv with mods := [0, 1, 2, 3, 4, 5, 6, 7] } : Form)) ++
  [Instr.pkVmad x i, .pkVfma x i].map (·, ({ formVvv with c := .v } : Form)) ++
  [Instr.pkVfrcp x i, .pkVfrsq x i, .pkVfexp2 x i, .pkVflog2 x i].map (·, (formVv : Form)) ++
  [Instr.pkVfsgn x i].map (·, ({ formVvv with b := if i.mod = 2 then .v else .no, mods := [0, 1, 2] } : Form)) ++
  [Instr.pkVcvt x i].map (·, ({ formVv with mods := List.range 12 } : Form)) ++
  [Instr.pkVfrnd x i].map (·, ({ formVv with mods := [0, 1, 2, 3] } : Form)) ++
  [Instr.pkVicmp x i].map (·, ((formPvv [0, 1, 2, 3, 4, 5]) : Form)) ++
  [Instr.pkVfcmp x i].map (·, ((formPvv [0, 1, 2, 3, 4]) : Form)) ++
  [Instr.pkPand x i, .pkPor x i, .pkPxor x i, .pkPandn x i].map (·, (formPpp : Form)) ++
  [Instr.pkPany x i, .pkPcnt x i, .pkPtos x i].map (·, ({ d := .s, a := .p } : Form)) ++
  [Instr.pkStop x i].map (·, ({ d := .p, a := .s } : Form)) ++
  [Instr.pkVld x i].map (·, ({ d := .v, a := .s, b := .v, imm := true, mods := [0, 1, 2, 4, 5], guarded := true, tgu := true } : Form)) ++
  [Instr.pkVst x i].map (·, ({ d := .v, a := .s, b := .v, imm := true, mods := [0, 1, 2], guarded := true, tgu := true } : Form)) ++
  [Instr.pkVred x i].map (·, ({ d := .s, a := .v, mods := [0, 1, 2, 3, 4, 5], guarded := true, tgu := true } : Form)) ++
  [Instr.pkVscan x i].map (·, ({ formVv with mods := [0, 3] } : Form)) ++
  [Instr.pkVbcast x i].map (·, ({ d := .v, a := .s, guarded := true, tgu := true } : Form)) ++
  [Instr.pkVtid x i].map (·, ({ d := .v, guarded := true, tgu := true } : Form)) ++
  [Instr.pkVext x i].map (·, ({ d := .s, a := .v, b := .s, tgu := true } : Form)) ++
  [Instr.pkVins x i].map (·, ({ d := .v, a := .s, b := .s, tgu := true } : Form)) ++
  [Instr.pkMma x i].map (·, ({ d := .s, a := .s, b := .s, c := .s, mods := [0, 1, 2, 3, 4, 5], mod2s := [0, 1, 2, 3, 4, 5], flags := 3, engine := true
    } : Form)) ++
  [Instr.pkMscl x i].map (·, ({ a := .s, b := .s, engine := true } : Form)) ++
  [Instr.pkMcvt x i].map (·, ({ d := .s, a := .s, b := .s, c := .s, mods := [0, 1, 2, 3, 4, 5, 6], flags := 3, engine := true } : Form)) ++
  [Instr.pkMvl x i].map (·, ({ d := .s, a := .s, b := .s, flags := 1, engine := true } : Form)) ++
  [Instr.pkMvs x i, .pkMvg x i, .pkMvt x i, .pkMva x i].map (·, ({ a := .s, flags := 1, engine := true } : Form)) ++
  [Instr.pkMcas x i].map (·, ({ d := .s, a := .s, b := .s, c := .s, flags := 1, engine := true } : Form)) ++
  [Instr.pkAttn x i].map (·, ({ d := .v, a := .s, b := .v, c := .v, engine := true } : Form)) ++
  [Instr.pkKvapp x i, .pkKvop x i].map (·, ({ d := .s, a := .s, b := .v, c := .v, engine := true } : Form)) ++
  [Instr.pkMfence x i].map (·, ({ mods := [0, 1] } : Form)) ++
  [Instr.pkRezq x i].map (·, ({ d := .s } : Form))

/-! Management. -/

/-- A management command is answered by running it: always-on logic is up, no response to its request ID is kept, and a compartment was free (17 R395, R396, R399). -/
def State.takes (s : State) (f : Fmc) (cmd : Nat) : Bool := s.mgtUp && (s.fmcKept f cmd).isNone && !f.src.full

/-- Command `c` answers a management command `cmd` with a status and data, and the state after it has `P` (17 R396). -/
def Replies (c : Instr) (s : State) (f : Fmc) (cmd status : Nat) (data : List Nat) (P : State → Prop) : Prop :=
  Completes c s fun t => .fmc (srcKey f.src) cmd f.id.toNat status data ∈ t.outs ∧ P t

/-- A signed command passes: the nonce of its source, a key with the fused hash of its slot that is not revoked, and that key's signature of the request (17 R398). -/
def State.authentic (s : State) (f : Fmc) (cmd : Nat) (body : List Nat) (g : Signed) : Bool :=
  (Tab.get nonce0 s.mgt.nonces (srcKey f.src) == some g.nonce) && s.keyGood g.slot g.key &&
    Config.ecdsaP384 g.key (Config.sha384 (signedMsg f cmd body g)) g.sig

/-- A PLDM request that finds room and does not repeat the last one of its source (17 R395, R399). -/
def State.pldmNew (s : State) (src : MctpSrc) (inst : Nat) (body : List Nat) : Bool :=
  s.mgtUp && !src.full && (match Tab.get pldm0 s.mgt.pldm (srcKey src) with | some e => e.inst != inst || e.body != body | none => true)

/-! Streams and pictures. -/

/-- A frame passes the checks of port n up to its stream: link, FCS and length, plain UDP to the port's own addresses with a good checksum, and a KSF header (11 R271, R273). -/
def State.ethTakes (s : State) (n : Nat) (f : EthFrame) : Bool :=
  let v6 := s.flag (P.stp (1 + n)) F.STP_PORT_CTL_ipv6
  s.ethUp n && f.kind == .udp && f.fcsOk && decide (64 ≤ f.macLen) && decide (f.macLen ≤ 9238) && f.plain && (f.ipv6 == v6) && (f.dstMac.toNat == s.ethMac n) &&
  (f.dstIp.toNat == s.ethIp n v6) && (f.checksum != some false) && (!f.ipv6 || f.checksum.isSome) &&
  (f.dstUdp.toNat == s.fld (P.stp (1 + n)) F.STP_PORT_ADDR_udp) && decide (24 ≤ f.udp.length)

/-- A control datagram of stream k goes on the wire at once: the link is up and its priority is not paused (11 R271, R280). -/
def State.skSends (s : State) (k : Nat) : Bool :=
  s.ethUp (s.skPort k) && !bitOf (s.eth (s.skPort k)).paused (s.fld (P.stp (1 + s.skPort k)) F.STP_PORT_CTL_ctl_prio)

/-- A completion entry of queue q of tenant n goes to the host at once (06 R128, R153). -/
def State.entryGoes (s : State) (n q : Nat) : Bool := s.writesEntries n q && s.mayRequest n && !(s.port (s.tnPort n)).d3

/-- The commands that may change a byte of the Hamper, the on-chip stores or the slices. -/
def mayStore : Instr → Bool
  | .coldPowerOn | .bringupStepEnd .. | .bootWatchdogExpiry .. | .configRequest .. | .bootPushReadDone .. | .coreBootFetch .. | .linkTraining ..
  | .linkDrainDone .. | .linkRetrainDone .. | .linkRetrainTimeout .. | .lnkForceDown .. | .lnkEnable .. | .serEnable .. | .tileLost .. | .vclkLoss
  | .refclkLoss .. | .registerWrite .. | .errRearm .. | .errClr .. | .intStsClear .. | .intForce .. | .pageLock .. | .hamperWriteLand
  | .tileHamperRequest .. | .hmpAlloc .. | .hmpFree .. | .jobUnload .. | .copyHostCompletion .. | .modelLoad .. | .tenantBindWrite ..
  | .tenantResetCmd .. | .tenantReset .. | .functionLevelReset .. | .vfEnableClear .. | .perstAssert .. | .perstDeassert .. | .hostLinkDown ..
  | .cxlMemAccess .. | .pkSts .. | .pkVst .. | .mxeOpComplete .. | .moverOpComplete .. | .rankEnd .. | .jobStop .. | .spareAssignTakeEffect ..
  | .sliceRequest .. | .sliceBondError .. | .sliceCalibration .. | .slcForceFail .. | .kvopAlloc .. | .kvopIncref .. | .kvopDecref .. | .kvopFork ..
  | .kvopRelease .. | .kvopInval .. | .kvopQuery .. | .kvappExecute .. | .attnExecute .. | .kpmReclaimSweep .. | .poolInitDone ..
  | .datagramReceive .. | .streamHeadRead .. | .sequenceGapTimeout .. | .streamEnable .. | .streamDisable .. | .vceProducerPoll .. | .vceEncode ..
  | .vceDecode .. | .encodePassDone .. | .vceSessionEnable .. | .vceSessionDisable .. | .vceEngineFault .. | .vceOutputHeadRead .. | .idleScrubLine ..
  | .patrolScrubStep .. | .selfTestDone .. | .coreReset .. | .clusterReset .. | .tileReset .. | .partitionBuild .. | .partitionReset ..
  | .partitionDissolve .. | .resetAbsorbPoint .. | .resetRestore .. | .deviceWarmReset .. | .domainShort .. | .regulatorFault .. | .vinCoreLow
  | .vinCoreRestored | .railLoss .. | .vddAoLoss | .thermalConversion .. | .coolingShutdown | .coolingShutdownAbsorb | .regWrite .. | .devReset ..
  | .restart .. | .managementPush .. | .ideInsecure .. | .tapInstruction .. | .vceDecodeDone .. | .railRestored .. | .tapReset | .apertureWrite ..
  | .jobLoad .. | .pllLocked .. | .vddTReached .. => true
  | _ => false

/-- The commands of `mayStore`'s rest that let aperture writes land: a register access or an aperture read of a host port, before which the writes land that the port sent earlier, and a change of owner (05 R114; 06 R126). -/
def mayLand : Instr → Bool
  | .lnkClrCnt .. | .serClrCnt .. | .hmpTqQuery .. | .cqHeadWrite .. | .tenantCancel .. | .queueEnable .. | .queueDisable .. | .hpcGrantWrite ..
  | .hpcStart .. | .hpcStop .. | .spareAssignWrite .. | .poolEnable .. | .poolDisable .. | .kvwFlush .. | .vceBist .. | .vceEngineReset ..
  | .ceWindowWrite .. | .memorySelfTest .. | .faultLogClear .. | .pwrLimitWrite .. | .pwrTReqWrite .. | .floorRelease .. | .thmCfgWrite ..
  | .energyTableClear .. | .ownerTransfer .. | .trlIdxWrite .. | .bootPushGo .. | .lnkRetrain .. | .serRetrain .. | .apertureRead .. | .doorbell .. => true
  | _ => false

/-- The Trail's slots are those of `s`, but for the slot of a record that was being written when VDD_AO was lost (16 R386). -/
def State.sameSlots (s t : State) : Prop :=
  ∀ k, (∀ r l, s.trail.queue = r :: l → k ≠ s.trailSlot (s.numbered r)) → Tab.get slot0 t.trail.slots k = Tab.get slot0 s.trail.slots k

/-- Every byte of the three memories reads as before: the Hamper, the on-chip stores, the slices. -/
def State.sameBytes (s t : State) : Prop :=
  (∀ a, t.hmp.rd a = s.hmp.rd a) ∧ (∀ a, t.stores.rd a = s.stores.rd a) ∧ ∀ k, t.slices.rd k = s.slices.rd k

/-- Every register field but those whose keys `ks` lists reads as before. -/
def State.sameRegs (s t : State) (ks : List Nat) : Prop :=
  ∀ pg f, fkey pg f ∉ ks → t.fld pg f = s.fld pg f

/-- HUB_RST_CMD has taken the reset `r`: the command's fields, busy, and the record of the reset (14 R341). -/
def RstAccepted (s t : State) (r : Rst) : Prop :=
  t.fld (P.hub 2) F.HUB_RST_CMD_scope = r.scope ∧ t.fld (P.hub 2) F.HUB_RST_CMD_target = r.target ∧ t.flag (P.hub 2) F.HUB_RST_CMD_go = true ∧
  t.flag (P.hub 2) F.HUB_RST_STS_busy = true ∧ r ∈ t.rsts ∧ s.sameBytes t

/-- The invariant of every state: the queue is `q`, and the register file and the memories are in canonical form. -/
def State.Ok (q : List Instr) (s : State) : Prop :=
  s.pending = q ∧ Tab.wf resetFld s.regs = true ∧ s.hmp.wf = true ∧ s.stores.wf = true ∧ s.slices.wf = true

/-- The canonical form of the register file and the memories. -/
def State.Canonical (s : State) : Prop := s.Ok s.pending

end Sys2Proof.Machine
end

