-- ==== Sys2Proof/Certificates/Slice0/Obligations.lean ====
section
/-! DEFINITION. The statements for the provers. -/
section
open Sys2Proof Sys2Proof.Machine

/-- A step with command `c` at the front of the queue is `c` on the state with the queue's rest. -/
def Obligations.StepRunsFrontCommand : Prop :=
  ∀ (c : Instr) (rest : List Instr) (s : State), s.pending = c :: rest → step s = exec c { s with pending := rest }

/-- With nothing commanded a step only lets time pass, by an amount the spec does not fix (log entry 1, the model's choice). -/
def Obligations.EmptyQueueTimePasses : Prop :=
  ∀ s : State, s.pending = [] → ∃ d, 1 ≤ d ∧ step s = .next { s with now := s.now + d, fresh := s.fresh + 1 }

/-- Every command runs to a next state: none ends in a fault or a refusal, since the spec gives every row its effect. -/
def Obligations.EveryCommandCompletes : Prop :=
  ∀ (c : Instr) (s : State), Completes c s fun _ => True

/-- What reset leaves where the spec says so: no page enabled for interrupts or locked (03 R72), every tenant unbound at epoch 1 with its queues disabled and its counts 0 (06 R130, R154), every pool OFF (10 R269), every companion core FREE with no grant (07 R192), every codec session and stream context OFF (11 R287, 12), every partition EMPTY (14), memories that read 0 (13 R314); and the canonical form with an empty queue. -/
def Obligations.ResetValues : Prop :=
  State.reset.pending = [] ∧ State.reset.Canonical ∧
  (∀ pg, State.reset.fld pg F.PG_INT_EN = 0 ∧ State.reset.flag pg F.PG_LOCK_locked = false ∧ State.reset.fld pg F.PG_INT_STS = 0 ∧
    State.reset.fld pg F.PG_ERR_CNT = 0) ∧
  (∀ n, n < 128 → State.reset.epoch n = 1 ∧ State.reset.tnState n = 0 ∧ State.reset.bound n = false ∧
    ∀ q, q < 8 → State.reset.qState n q = 0 ∧ State.reset.sqHead n q = 0 ∧ State.reset.sqTail n q = 0 ∧ State.reset.cqHead n q = 0 ∧
      State.reset.cqTail n q = 0) ∧
  (∀ p, p < 8 → State.reset.ptState p = 0 ∧ State.reset.poolState p = 0) ∧
  (∀ h, h < 16 → State.reset.hpcState h = 0 ∧ State.reset.hpcGranted h = false) ∧
  (∀ k, k < 512 → State.reset.skState k = 0) ∧ (∀ i, i < 64 → State.reset.vcState i = 0) ∧ (∀ e, e < 4 → State.reset.engine e = 0) ∧
  (∀ a, State.reset.hmp.rd a = 0 ∧ State.reset.stores.rd a = 0 ∧ State.reset.slices.rd a = 0)

/-- The invariant of every step: a command leaves the queue, the register file and the memories in canonical form, from every state that has them so. -/
def Obligations.StepKeepsCanonicalForm : Prop :=
  (∀ (c : Instr) (q : List Instr) (s t : State), s.Ok q → exec c s = .next t → t.Ok q) ∧
  (∀ s t : State, s.Canonical → step s = .next t → t.Canonical ∧ t.pending = s.pending.tail)

/-- The frame of memory: a command that is not one of `mayStore` leaves every byte of the Hamper, of the on-chip stores and of the slices as it was; a register command of a host port (`mayLand`) may besides let that port's aperture writes that came before it land (05 R114). -/
def Obligations.OtherCommandsKeepMemory : Prop :=
  ∀ (c : Instr) (s t : State), mayStore c = false → exec c s = .next t →
    (mayLand c = false → s.sameBytes t) ∧ (mayLand c = true → s.sameBytes t ∨ ∃ k, (s.landClient k).sameBytes t)

/-- R51: no two pages of the privileged view carry the same PG_ID value. -/
def Obligations.PageIdsDiffer : Prop :=
  ∀ (a b : Nat) (i j : PageInfo), pageInfo a = some i → pageInfo b = some j → pgId a = pgId b → a = b

/-- R63: page k of tenant n's window is reached at BAR2 offset k·0x1000 and at its privileged offset, it is one page of registers for both, and its PG_ID says so. -/
def Obligations.TenantWindowHasTwoAddresses : Prop :=
  ∀ (n : Fin 128) (k o : Nat), k < 16 → o < 0x1000 →
    (∀ rq : Requester, (∀ m, rq ≠ .tenant m) →
      reqPage (.tenant n) (k * 0x1000 + o) = reqPage rq (0x400000 + n * 0x10000 + k * 0x1000 + o)) ∧
    (∀ rq : Requester, (∀ m, rq ≠ .tenant m) → reqInside (.tenant n) (k * 0x1000 + o) = true ∧
      reqInside rq (0x400000 + n * 0x10000 + k * 0x1000 + o) = true) ∧
    (∀ i, pageInfo (reqPage (.tenant n) (k * 0x1000)) = some i → i.page = k ∧ i.tenantPage = true ∧ i.inst = n ∧
      bitOf (pgId (reqPage (.tenant n) (k * 0x1000))) 28 = true ∧ bits (pgId (reqPage (.tenant n) (k * 0x1000))) 16 12 = n)

/-- R45: an ACTIVE link whose flit has been replayed as often as replay_limit says drains to retrain, at both of its ends. -/
def Obligations.ReplayLimitRetrains : Prop :=
  ∀ (s : State) (e : LinkEndId) (k : Nat), k = endKey e → s.eState k = 3 → 1 ≤ s.eget k F.LNK_CTL_replay_limit F.SER_CTL_replay_limit →
    s.eget k F.LNK_CTL_replay_limit F.SER_CTL_replay_limit ≤ (s.lend k).replays →
    Completes (.replayLimitReached e) s fun t => t.eState k = 4 ∧ (t.lend k).drainRetrain = true ∧ (t.lend k).replay = (s.lend k).replay ∧
      ∀ f, farEnd k = some f → t.eState f = 4 ∧ (t.lend f).drainRetrain = true

/-- R188: what a RUNNING companion core ignores, and the stop that has no effect. -/
def Obligations.RunningCompanionIgnoresWrites : Prop :=
  ∀ (s : State) (rq : Requester) (h : Fin 16) (w : Word) (addr : BitVec 28), 4 ≤ h.val → s.grants rq (P.hpc h) = true → addr.toNat = P.hpc h * 4096 + 0x048 →
    (s.hpcState h = 2 →
      exec (.hpcGrantWrite rq h w) s = .next (s.countErr (P.hpc h) 0x41 (rqCode rq) (accessAddr rq (P.hpc h) 0x044)) ∧
      exec (.registerWrite (.req rq) addr [⟨15, w⟩] false) s = .next (s.countErr (P.hpc h) 0x41 (rqCode rq) addr.toNat) ∧
      exec (.hpcStart rq h) s = .next s) ∧
    (s.hpcState h ≠ 2 → exec (.hpcStop rq h) s = .next s)

/-- Every Peken instruction (R158, R160, R161, R165, R175, R322): a core that does not execute ignores it; an instruction outside the W-store, off an 8-byte boundary, in a protected range or in a poisoned line of a job stops at its fetch; one whose unused fields are not 0 or whose register numbers are out of range is RESERVED_FIELD. -/
def Obligations.FetchAndFieldTraps : Prop :=
  ∀ (x : Fin 512) (i : Pk) (s : State) (pc : Nat), pc = (s.core x).pc → ∀ e ∈ pkForms x i,
    (s.executes x = false → exec e.1 s = .next s) ∧
    (s.executes x = true →
      (0x80000 < pc + 8 → exec e.1 s = .next (s.coreFault x 0x04 0 0 pc pc)) ∧
      (pc + 8 ≤ 0x80000 → pc % 8 ≠ 0 → exec e.1 s = .next (s.coreFault x 0x03 0 0 pc pc)) ∧
      (pc + 8 ≤ 0x80000 → pc % 8 = 0 → s.storeProtected x pc 8 false = true → exec e.1 s = .next (s.coreFault x 0x05 0 0 pc pc)) ∧
      (pc + 8 ≤ 0x80000 → pc % 8 = 0 → s.storeProtected x pc 8 false = false → (s.coreJob x).isSome = true →
        s.stores.linePoison (stoKey x pc / 64) = true → exec e.1 s = .next (s.corePoison x 0x12 1 0 pc)) ∧
      (s.fetchStop x pc = none → e.2.bad i = true → exec e.1 s = .next (s.coreFault x 0x02 0 0 0 pc)))

/-- The register-register scalar instructions of R176: the result of each, and nothing else but the PC. The scalar instructions with an immediate, which is sign-extended to 64 bits. -/
def Obligations.ScalarResults : Prop :=
  (∀ (x : Fin 512) (i : Pk) (s : State), s.issues x i formSss = true →
    ∀ a b : Dword, a = (s.core x).getS i.a → b = (s.core x).getS i.b →
    Retires (.pkAdd x i) s x ((s.core x).stepS i.d (a + b)) ∧
    Retires (.pkSub x i) s x ((s.core x).stepS i.d (a - b)) ∧
    Retires (.pkAnd x i) s x ((s.core x).stepS i.d (a &&& b)) ∧
    Retires (.pkOr x i) s x ((s.core x).stepS i.d (a ||| b)) ∧
    Retires (.pkXor x i) s x ((s.core x).stepS i.d (a ^^^ b)) ∧
    Retires (.pkShl x i) s x ((s.core x).stepS i.d (a <<< (b.toNat % 64))) ∧
    Retires (.pkShr x i) s x ((s.core x).stepS i.d (a >>> (b.toNat % 64))) ∧
    Retires (.pkSra x i) s x ((s.core x).stepS i.d (a.sshiftRight (b.toNat % 64))) ∧
    Retires (.pkMul x i) s x ((s.core x).stepS i.d (a * b)) ∧
    Retires (.pkMulhu x i) s x ((s.core x).stepS i.d (BitVec.ofNat 64 (a.toNat * b.toNat / 2 ^ 64))) ∧
    Retires (.pkMin x i) s x ((s.core x).stepS i.d (if a.toInt < b.toInt then a else b)) ∧
    Retires (.pkMax x i) s x ((s.core x).stepS i.d (if a.toInt < b.toInt then b else a)) ∧
    Retires (.pkMinu x i) s x ((s.core x).stepS i.d (if a.toNat < b.toNat then a else b)) ∧
    Retires (.pkMaxu x i) s x ((s.core x).stepS i.d (if a.toNat < b.toNat then b else a)) ∧
    Retires (.pkSlt x i) s x ((s.core x).stepS i.d (if a.toInt < b.toInt then 1 else 0)) ∧
    Retires (.pkSltu x i) s x ((s.core x).stepS i.d (if a.toNat < b.toNat then 1 else 0))) ∧
  (∀ (x : Fin 512) (i : Pk) (s : State), s.issues x i formSsi = true →
    ∀ a b : Dword, a = (s.core x).getS i.a → b = i.imm.signExtend 64 →
    Retires (.pkAddi x i) s x ((s.core x).stepS i.d (a + b)) ∧
    Retires (.pkAndi x i) s x ((s.core x).stepS i.d (a &&& b)) ∧
    Retires (.pkOri x i) s x ((s.core x).stepS i.d (a ||| b)) ∧
    Retires (.pkXori x i) s x ((s.core x).stepS i.d (a ^^^ b)) ∧
    Retires (.pkShli x i) s x ((s.core x).stepS i.d (a <<< (b.toNat % 64))) ∧
    Retires (.pkShri x i) s x ((s.core x).stepS i.d (a >>> (b.toNat % 64))) ∧
    Retires (.pkSrai x i) s x ((s.core x).stepS i.d (a.sshiftRight (b.toNat % 64))) ∧
    Retires (.pkLui x i) s x ((s.core x).stepS i.d ((i.imm.zeroExtend 64 <<< 32) ||| (a &&& 0xFFFFFFFF))) ∧
    Retires (.pkSlti x i) s x ((s.core x).stepS i.d (if a.toInt < b.toInt then 1 else 0)))

/-- Special registers (R164): what CSRR reads by number (CYCLE is a value the spec leaves to timing), what CSRW writes, and ILLEGAL_OPCODE at every other number. -/
def Obligations.SpecialRegisterAccess : Prop :=
  ∀ (x : Fin 512) (i : Pk) (s : State),
    (s.issues x i { d := .s, imm := true } = true →
      (i.imm.toNat = 0 → Completes (.pkCsrr x i) s fun t =>
        (∃ v, t.core x = (s.core x).stepS i.d v) ∧ (∀ y : Nat, y ≠ x → t.core y = s.core y) ∧ ∃ m, t = { s with cores := m, fresh := s.fresh + 1 }) ∧
      (i.imm.toNat = 1 → Retires (.pkCsrr x i) s x ((s.core x).stepS i.d (BitVec.ofNat 64 s.ptpNow))) ∧
      (i.imm.toNat = 2 → Retires (.pkCsrr x i) s x ((s.core x).stepS i.d (BitVec.ofNat 64 (s.gOf x)))) ∧
      (i.imm.toNat = 3 → Retires (.pkCsrr x i) s x ((s.core x).stepS i.d
        (BitVec.ofNat 64 (match s.coreJob x with | some j => j.rankOf x | none => 0)))) ∧
      (i.imm.toNat = 4 → Retires (.pkCsrr x i) s x ((s.core x).stepS i.d
        (BitVec.ofNat 64 (match s.coreJob x with | some j => j.ranks.length | none => 0)))) ∧
      (i.imm.toNat = 5 → Retires (.pkCsrr x i) s x ((s.core x).stepS i.d (BitVec.ofNat 64 (s.core x).fpstat))) ∧
      (i.imm.toNat = 6 → Retires (.pkCsrr x i) s x ((s.core x).stepS i.d (BitVec.ofNat 64 (s.core x).fpmode))) ∧
      (i.imm.toNat = 7 → Retires (.pkCsrr x i) s x ((s.core x).stepS i.d (if s.nearPooled x then 1 else 0))) ∧
      (i.imm.toNat = 8 → Retires (.pkCsrr x i) s x ((s.core x).stepS i.d (BitVec.ofNat 64 (s.poolcapOf x)))) ∧
      (9 ≤ i.imm.toNat → exec (.pkCsrr x i) s = .next (s.coreFault x 0x01 0 0 0 (s.core x).pc))) ∧
    (s.issues x i { a := .s, imm := true } = true →
      (i.imm.toNat = 5 → Retires (.pkCsrw x i) s x { (s.core x).step with fpstat := ((s.core x).getS i.a).toNat % 32 }) ∧
      (i.imm.toNat = 6 → Retires (.pkCsrw x i) s x { (s.core x).step with fpmode := ((s.core x).getS i.a).toNat % 8 }) ∧
      (i.imm.toNat ≠ 5 → i.imm.toNat ≠ 6 → exec (.pkCsrw x i) s = .next (s.coreFault x 0x01 0 0 0 (s.core x).pc)))

/-- LDS and STS (R160, R176): the loaded value, extended by its mod code; the stored bytes and no other byte; own-store addresses spelled out, with what poison does (R322), the access faults in their order, and an access held back while traffic to the tile it reaches is moved to another route (02 R37). -/
def Obligations.ScalarLoadStore : Prop :=
  ∀ (x : Fin 512) (i : Pk) (s : State) (addr : Nat), addr = ((s.core x).getS i.a + i.imm.signExtend 64).toNat →
    (s.issues x i { d := .s, a := .s, imm := true, mods := [0, 1, 2, 3, 4, 5, 6, 7] } = true →
      ∀ n, n = 2 ^ (i.mod.val % 4) →
      (∀ code, s.accessFault x .scalar addr n n false = some code →
        exec (.pkLds x i) s = .next (s.coreFault x code 0 0 addr (s.core x).pc)) ∧
      (s.accessFault x .scalar addr n n false = none → s.accHeld x addr = true → exec (.pkLds x i) s = .next s) ∧
      (s.accessFault x .scalar addr n n false = none → s.accHeld x addr = false → (s.memRead x addr n).2.1 = false →
        Completes (.pkLds x i) s fun t =>
          t.core x = (s.core x).stepS i.d (loadExt (s.memRead x addr n).1 (decide (4 ≤ i.mod.val))) ∧
          (∀ y : Nat, y ≠ x → t.core y = s.core y) ∧ ∃ m r f, t = { s with cores := m, regs := r, fresh := f }) ∧
      (s.accessFault x .scalar addr n n false = none → s.accHeld x addr = false → (s.memRead x addr n).2.1 = true → (s.core x).job.isSome = true →
        exec (.pkLds x i) s = .next (s.corePoison x 0x12 1 (s.poisonSpace x addr) addr)) ∧
      (s.accessFault x .scalar addr n n false = none → s.accHeld x addr = false → addr < storeTop → s.stores.linePoison (stoKey x addr / 64) = false →
        Retires (.pkLds x i) s x
          ((s.core x).stepS i.d (loadExt (s.stores.rdN (stoKey x addr) n) (decide (4 ≤ i.mod.val)))))) ∧
    (s.issues x i { d := .s, a := .s, imm := true, mods := [0, 1, 2, 3] } = true →
      ∀ n, n = 2 ^ i.mod.val →
      (∀ code, s.accessFault x .scalar addr n n true = some code →
        exec (.pkSts x i) s = .next (s.coreFault x code 0 0 addr (s.core x).pc)) ∧
      (s.accessFault x .scalar addr n n true = none → s.accHeld x addr = true → exec (.pkSts x i) s = .next s) ∧
      (s.accessFault x .scalar addr n n true = none → s.accHeld x addr = false → ∀ w, w = s.memWrite x addr (leBytes n ((s.core x).getS i.d).toNat) false →
        exec (.pkSts x i) s = .next (w.setCore x (w.core x).step)) ∧
      (s.accessFault x .scalar addr n n true = none → s.accHeld x addr = false → addr < storeTop → Completes (.pkSts x i) s fun t =>
        t.core x = (s.core x).step ∧ (∀ y : Nat, y ≠ x → t.core y = s.core y) ∧ t.hmp = s.hmp ∧ t.slices = s.slices ∧ t.regs = s.regs ∧
        (∀ k, k < n → t.stores.rd (stoKey x addr + k) = BitVec.ofNat 8 (((s.core x).getS i.d).toNat / 256 ^ k)) ∧
        (∀ a, a < stoKey x addr ∨ stoKey x addr + n ≤ a → t.stores.rd a = s.stores.rd a)))

/-- Branches, calls, fences and tokens: where the PC goes, what CALL and TOKS write, and that WAIT and WAITA stay while a named token is not 0. -/
def Obligations.ControlResults : Prop :=
  ∀ (x : Fin 512) (i : Pk) (s : State) (c : Core) (target : Nat), c = s.core x → target = pcAdd c.pc (8 * i.imm.toInt) →
    (s.issues x i {} = true → Retires (.pkNop x i) s x c.step) ∧
    (s.issues x i { mods := [0, 1] } = true → Retires (.pkMfence x i) s x c.step) ∧
    (s.issues x i { imm := true } = true → Retires (.pkBr x i) s x { c with pc := target }) ∧
    (s.issues x i { a := .s, imm := true, mods := [0, 1, 2, 3, 4, 5] } = true →
      ∀ a, a = (c.getS i.a).toInt → ∀ taken : Prop,
        (taken ↔ (i.mod.val = 0 ∧ a = 0) ∨ (i.mod.val = 1 ∧ a ≠ 0) ∨ (i.mod.val = 2 ∧ a < 0) ∨ (i.mod.val = 3 ∧ 0 ≤ a) ∨
          (i.mod.val = 4 ∧ 0 < a) ∨ (i.mod.val = 5 ∧ a ≤ 0)) →
        (taken → Retires (.pkBrc x i) s x { c with pc := target }) ∧ (¬ taken → Retires (.pkBrc x i) s x c.step)) ∧
    (s.issues x i { d := .s, imm := true } = true →
      Retires (.pkCall x i) s x { c.setS i.d (BitVec.ofNat 64 (c.pc + 8)) with pc := target }) ∧
    (s.issues x i { a := .s } = true → Retires (.pkJr x i) s x { c with pc := (c.getS i.a).toNat % 2 ^ 19 }) ∧
    (s.issues x i { imm := true } = true →
      (c.active = 0 → Retires (.pkBrnone x i) s x { c with pc := target }) ∧ (c.active ≠ 0 → Retires (.pkBrnone x i) s x c.step)) ∧
    (s.issues x i { d := .s, imm := true } = true →
      Retires (.pkToks x i) s x (c.stepS i.d (BitVec.ofNat 64 (c.getT (i.imm.toNat % 16))))) ∧
    (s.issues x i { imm := true } = true →
      ((∀ k, k < 16 → i.imm.getLsbD k = true → c.getT k = 0) → Retires (.pkWait x i) s x c.step) ∧
      ((∃ k, k < 16 ∧ i.imm.getLsbD k = true ∧ c.getT k ≠ 0) → exec (.pkWait x i) s = .next s)) ∧
    (s.issues x i {} = true →
      ((∀ k, k < 16 → c.getT k = 0) → Retires (.pkWaita x i) s x c.step) ∧
      ((∃ k, k < 16 ∧ c.getT k ≠ 0) → exec (.pkWaita x i) s = .next s)) ∧
    (s.issues x i { imm := true } = true →
      exec (.pkTrap x i) s = .next (s.coreFault x 0x0A 0 (i.imm.toNat % 256) (i.imm.toNat % 256) c.pc))

/-- Divergence (R166): what IF, ELSE, ENDIF, LOOP, BRK and ENDLOOP do to the mask stack and the active mask, and MASK_STACK where they cannot. -/
def Obligations.DivergenceResults : Prop :=
  ∀ (x : Fin 512) (i : Pk) (s : State) (c : Core) (g : Dword), c = s.core x →
    g = (if i.pn then ~~~ c.getP i.pg else c.getP i.pg) →
    (s.issues x i { guarded := true } = true →
      (c.stack.length < 32 → Retires (.pkIf x i) s x
        { c.step with stack := ⟨.ifk, c.active, c.active &&& g, false⟩ :: c.stack, active := c.active &&& g }) ∧
      (32 ≤ c.stack.length → exec (.pkIf x i) s = .next (s.coreFault x 0x07 0 0 0 c.pc))) ∧
    (s.issues x i {} = true →
      (∀ e r, c.stack = e :: r → e.kind = .ifk → e.els = false → Retires (.pkElse x i) s x
        { c.step with stack := { e with els := true } :: r, active := e.outer &&& ~~~ e.taken }) ∧
      (∀ e r, c.stack = e :: r → e.kind = .loopk ∨ e.els = true → exec (.pkElse x i) s = .next (s.coreFault x 0x07 0 0 0 c.pc)) ∧
      (∀ e r, c.stack = e :: r → e.kind = .ifk → Retires (.pkEndif x i) s x { c.step with stack := r, active := e.outer }) ∧
      (∀ e r, c.stack = e :: r → e.kind = .loopk → exec (.pkEndif x i) s = .next (s.coreFault x 0x07 0 0 0 c.pc)) ∧
      (c.stack = [] → exec (.pkElse x i) s = .next (s.coreFault x 0x07 0 0 0 c.pc) ∧
        exec (.pkEndif x i) s = .next (s.coreFault x 0x07 0 0 0 c.pc)) ∧
      (c.stack.length < 32 → Retires (.pkLoop x i) s x { c.step with stack := ⟨.loopk, c.active, 0, false⟩ :: c.stack }) ∧
      (32 ≤ c.stack.length → exec (.pkLoop x i) s = .next (s.coreFault x 0x07 0 0 0 c.pc))) ∧
    (s.issues x i { guarded := true } = true →
      (∀ top e r, c.stack = top ++ e :: r → (∀ f ∈ top, f.kind = .ifk) → e.kind = .loopk → Retires (.pkBrk x i) s x
        { c.step with
          stack := (top.map fun f => { f with outer := f.outer &&& ~~~ (c.active &&& g), taken := f.taken &&& ~~~ (c.active &&& g) }) ++ e :: r
          active := c.active &&& ~~~ g }) ∧
      ((∀ f ∈ c.stack, f.kind = .ifk) → exec (.pkBrk x i) s = .next (s.coreFault x 0x07 0 0 0 c.pc))) ∧
    (s.issues x i { imm := true } = true →
      (∀ e r, c.stack = e :: r → e.kind = .loopk → c.active ≠ 0 → Retires (.pkEndloop x i) s x { c with pc := pcAdd c.pc (8 * i.imm.toInt) }) ∧
      (∀ e r, c.stack = e :: r → e.kind = .loopk → c.active = 0 → Retires (.pkEndloop x i) s x { c.step with stack := r, active := e.outer }) ∧
      ((c.stack = [] ∨ ∃ e r, c.stack = e :: r ∧ e.kind = .ifk) → exec (.pkEndloop x i) s = .next (s.coreFault x 0x07 0 0 0 c.pc)))

/-- The per-thread integer instructions: what each acting thread of vd receives; every other thread and register keeps its value. -/
def Obligations.VectorIntegerResults : Prop :=
  ∀ (x : Fin 512) (i : Pk) (s : State) (c : Core) (a b : Nat → Word),
    c = s.core x → (∀ t, a t = c.getV i.a t) → (∀ t, b t = c.getV i.b t) →
    (s.issues x i formVvv = true →
      WritesV (.pkVadd x i) s x i (fun t => a t + b t) ∧
      WritesV (.pkVsub x i) s x i (fun t => a t - b t) ∧
      WritesV (.pkVmul x i) s x i (fun t => a t * b t) ∧
      WritesV (.pkVmulhu x i) s x i (fun t => BitVec.ofNat 32 ((a t).toNat * (b t).toNat / 2 ^ 32)) ∧
      WritesV (.pkVand x i) s x i (fun t => a t &&& b t) ∧
      WritesV (.pkVor x i) s x i (fun t => a t ||| b t) ∧
      WritesV (.pkVxor x i) s x i (fun t => a t ^^^ b t) ∧
      WritesV (.pkVshl x i) s x i (fun t => a t <<< ((b t).toNat % 32)) ∧
      WritesV (.pkVshr x i) s x i (fun t => a t >>> ((b t).toNat % 32)) ∧
      WritesV (.pkVsra x i) s x i (fun t => (a t).sshiftRight ((b t).toNat % 32)) ∧
      WritesV (.pkVmin x i) s x i (fun t => if (a t).toInt < (b t).toInt then a t else b t) ∧
      WritesV (.pkVmax x i) s x i (fun t => if (a t).toInt < (b t).toInt then b t else a t) ∧
      WritesV (.pkVminu x i) s x i (fun t => if (a t).toNat < (b t).toNat then a t else b t) ∧
      WritesV (.pkVmaxu x i) s x i (fun t => if (a t).toNat < (b t).toNat then b t else a t)) ∧
    (s.issues x i { formVvv with mods := [0, 1, 2, 3, 4, 5, 6, 7] } = true →
      WritesV (.pkVsel x i) s x i (fun t => if (c.getP i.mod.val).getLsbD t = true then a t else b t)) ∧
    (s.issues x i { formVvv with c := .v } = true →
      WritesV (.pkVmad x i) s x i (fun t => a t * b t + c.getV i.c t))

/-- The per-thread floating-point instructions: each acting thread receives the value of the operation, and FPSTAT gains every flag that an acting thread raises. -/
def Obligations.VectorFloatResults : Prop :=
  ∀ (x : Fin 512) (i : Pk) (s : State) (c : Core) (a b : Nat → Word) (fm : Nat),
    c = s.core x → (∀ t, a t = c.getV i.a t) → (∀ t, b t = c.getV i.b t) → fm = c.fpmode →
    (s.issues x i formVvv = true →
      WritesF (.pkVfadd x i) s x i (fun t => f32Add fm (a t) (b t)) ∧
      WritesF (.pkVfsub x i) s x i (fun t => f32Sub fm (a t) (b t)) ∧
      WritesF (.pkVfmul x i) s x i (fun t => f32Mul fm (a t) (b t)) ∧
      WritesF (.pkVfmin x i) s x i (fun t => f32Min fm (a t) (b t)) ∧
      WritesF (.pkVfmax x i) s x i (fun t => f32Max fm (a t) (b t))) ∧
    (s.issues x i { formVvv with c := .v } = true →
      WritesF (.pkVfma x i) s x i (fun t => f32Fma fm (a t) (b t) (c.getV i.c t))) ∧
    (s.issues x i formVv = true →
      WritesF (.pkVfrcp x i) s x i (fun t => f32Rcp fm (a t)) ∧
      WritesF (.pkVfrsq x i) s x i (fun t => f32Rsq fm (a t)) ∧
      WritesF (.pkVfexp2 x i) s x i (fun t => f32Exp2 fm (a t)) ∧
      WritesF (.pkVflog2 x i) s x i (fun t => f32Log2 fm (a t))) ∧
    (s.issues x i { formVvv with b := if i.mod = 2 then .v else .no, mods := [0, 1, 2] } = true →
      WritesV (.pkVfsgn x i) s x i (fun t => f32Sgn fm i.mod.val (a t) (b t))) ∧
    (s.issues x i { formVv with mods := List.range 12 } = true →
      WritesF (.pkVcvt x i) s x i (fun t => f32Cvt fm i.mod.val (a t))) ∧
    (s.issues x i { formVv with mods := [0, 1, 2, 3] } = true →
      WritesF (.pkVfrnd x i) s x i (fun t => f32Rnd fm i.mod.val (a t)))

/-- Compares and predicates: a compare writes 0 in every thread that does not act, and the predicate instructions take no mask; p0 and s0 ignore writes. Cross-lane instructions (R173): shuffle, broadcast, thread numbers, one lane out and in, reductions and prefixes with the identity of inactive threads. -/
def Obligations.PredicateAndCrossLane : Prop :=
  (∀ (x : Fin 512) (i : Pk) (s : State) (c : Core), c = s.core x →
    (s.issues x i (formPvv [0, 1, 2, 3, 4, 5]) = true → ∀ a b : Nat → Word, (∀ t, a t = c.getV i.a t) → (∀ t, b t = c.getV i.b t) →
      ∃ m : Dword, RetiresTgu (.pkVicmp x i) s x (c.setP i.d m).step ∧
        ∀ t, t < 64 → (m.getLsbD t = true ↔ (c.acting i).getLsbD t = true ∧
          ((i.mod.val = 0 ∧ a t = b t) ∨ (i.mod.val = 1 ∧ a t ≠ b t) ∨ (i.mod.val = 2 ∧ (a t).toInt < (b t).toInt) ∨
           (i.mod.val = 3 ∧ (a t).toInt ≤ (b t).toInt) ∨ (i.mod.val = 4 ∧ (a t).toNat < (b t).toNat) ∨
           (i.mod.val = 5 ∧ (a t).toNat ≤ (b t).toNat)))) ∧
    (s.issues x i (formPvv [0, 1, 2, 3, 4]) = true → ∀ r : Nat → Bool × Nat,
      (∀ t, r t = f32Cmp c.fpmode i.mod.val (c.getV i.a t) (c.getV i.b t)) →
      ∃ (m : Dword) (fl : Nat), RetiresTgu (.pkVfcmp x i) s x { (c.setP i.d m).step with fpstat := fl } ∧
        (∀ t, t < 64 → (m.getLsbD t = true ↔ (c.acting i).getLsbD t = true ∧ (r t).1 = true)) ∧
        ∀ k, fl.testBit k = true ↔ c.fpstat.testBit k = true ∨ ∃ t, t < 64 ∧ (c.acting i).getLsbD t = true ∧ (r t).2.testBit k = true) ∧
    (s.issues x i formPpp = true → ∀ a b : Dword, a = c.getP i.a → b = c.getP i.b →
      Retires (.pkPand x i) s x (c.setP i.d (a &&& b)).step ∧
      Retires (.pkPor x i) s x (c.setP i.d (a ||| b)).step ∧
      Retires (.pkPxor x i) s x (c.setP i.d (a ^^^ b)).step ∧
      Retires (.pkPandn x i) s x (c.setP i.d (a &&& ~~~ b)).step) ∧
    (s.issues x i { d := .s, a := .p } = true → ∀ m : Dword, m = c.getP i.a &&& c.active →
      Retires (.pkPany x i) s x (c.stepS i.d (if m = 0 then 0 else 1)) ∧
      Retires (.pkPcnt x i) s x (c.stepS i.d (BitVec.ofNat 64 ((List.range 64).filter fun t => m.getLsbD t).length)) ∧
      Retires (.pkPtos x i) s x (c.stepS i.d (c.getP i.a))) ∧
    (s.issues x i { d := .p, a := .s } = true → Retires (.pkStop x i) s x (c.setP i.d (c.getS i.a)).step)) ∧
  (∀ (x : Fin 512) (i : Pk) (s : State) (c : Core), c = s.core x →
    (s.issues x i formVvv = true → WritesV (.pkVshfl x i) s x i (fun t => c.getV i.a ((c.getV i.b t).toNat % 64))) ∧
    (s.issues x i { d := .v, a := .s, guarded := true, tgu := true } = true →
      WritesV (.pkVbcast x i) s x i (fun _ => (c.getS i.a).setWidth 32)) ∧
    (s.issues x i { d := .v, guarded := true, tgu := true } = true → WritesV (.pkVtid x i) s x i (fun t => BitVec.ofNat 32 t)) ∧
    (s.issues x i { d := .s, a := .v, b := .s, tgu := true } = true →
      RetiresTgu (.pkVext x i) s x (c.stepS i.d ((c.getV i.a ((c.getS i.b).toNat % 64)).setWidth 64))) ∧
    (s.issues x i { d := .v, a := .s, b := .s, tgu := true } = true →
      RetiresTgu (.pkVins x i) s x (c.setV i.d ((c.getS i.b).toNat % 64) ((c.getS i.a).setWidth 32)).step) ∧
    (s.issues x i { d := .s, a := .v, mods := [0, 1, 2, 3, 4, 5], guarded := true, tgu := true } = true →
      ∀ r, r = treeFold (withFlags (redOp c.fpmode i.mod.val)) (0, 0) 6 (redLeaves c i) →
      RetiresTgu (.pkVred x i) s x { c.stepS i.d (r.1.setWidth 64) with fpstat := c.fpstat ||| r.2 } ∧
      (i.mod.val = 0 → r = (BitVec.ofNat 32 ((threadsOf (c.acting i)).map fun t => (c.getV i.a t).toNat).sum, 0))) ∧
    (s.issues x i { formVv with mods := [0, 3] } = true →
      WritesF (.pkVscan x i) s x i (fun t => blockPrefix (withFlags (redOp c.fpmode i.mod.val)) (0, 0) 6 (t + 1) (redLeaves c i) none) ∧
      (i.mod.val = 0 → WritesF (.pkVscan x i) s x i
        (fun t => (BitVec.ofNat 32 (((threadsOf (c.acting i)).filter (· ≤ t)).map fun u => (c.getV i.a u).toNat).sum, 0)))))

/-- VLD and VST (R160, R189, R322): the lowest faulting thread decides; a poisoned line stops a job; else each acting thread loads its own bytes, and stores leave every byte that no acting thread names. -/
def Obligations.VectorLoadStore : Prop :=
  ∀ (x : Fin 512) (i : Pk) (s : State) (c : Core) (addr : Nat → Nat), c = s.core x →
    (∀ t, addr t = (c.getS i.a + (c.getV i.b t).setWidth 64 + (i.imm.setWidth 24).signExtend 64).toNat) →
    (s.issues x i { d := .v, a := .s, b := .v, imm := true, mods := [0, 1, 2, 4, 5], guarded := true, tgu := true } = true →
      ∀ n, n = 2 ^ (i.mod.val % 4) →
      (∀ t code, t < 64 → (c.acting i).getLsbD t = true → s.accessFault x .vector (addr t) n n false = some code →
        (∀ u, u < t → (c.acting i).getLsbD u = true → s.accessFault x .vector (addr u) n n false = none) →
        exec (.pkVld x i) s = .next (s.coreFault x code 0 0 (addr t) c.pc)) ∧
      ((∀ t, t < 64 → (c.acting i).getLsbD t = true → s.accessFault x .vector (addr t) n n false = none ∧
          s.stores.linePoison (s.vKey x (addr t) / 64) = false) →
        Completes (.pkVld x i) s fun t => (∃ v, t.core x = { c.step with v := v }) ∧ (∀ y : Nat, y ≠ x → t.core y = s.core y) ∧
          (∀ r u, u < 64 → (t.core x).getV r u = if r = i.d.val ∧ (c.acting i).getLsbD u = true
            then (loadExt (s.stores.rdN (s.vKey x (addr u)) n) (decide (4 ≤ i.mod.val))).setWidth 32 else c.getV r u) ∧
          ∃ m r, t = { s with cores := m, regs := r }) ∧
      (c.job.isSome = true → (∀ t, t < 64 → (c.acting i).getLsbD t = true → s.accessFault x .vector (addr t) n n false = none) →
        ∀ t, t < 64 → (c.acting i).getLsbD t = true → s.stores.linePoison (s.vKey x (addr t) / 64) = true →
        (∀ u, u < t → (c.acting i).getLsbD u = true → s.stores.linePoison (s.vKey x (addr u) / 64) = false) →
        exec (.pkVld x i) s = .next (s.corePoison x 0x12 1 (s.poisonSpace x (addr t)) (addr t)))) ∧
    (s.issues x i { d := .v, a := .s, b := .v, imm := true, mods := [0, 1, 2], guarded := true, tgu := true } = true →
      ∀ n, n = 2 ^ i.mod.val →
      (∀ t code, t < 64 → (c.acting i).getLsbD t = true → s.accessFault x .vector (addr t) n n true = some code →
        (∀ u, u < t → (c.acting i).getLsbD u = true → s.accessFault x .vector (addr u) n n true = none) →
        exec (.pkVst x i) s = .next (s.coreFault x code 0 0 (addr t) c.pc)) ∧
      ((∀ t, t < 64 → (c.acting i).getLsbD t = true → s.accessFault x .vector (addr t) n n true = none) →
        Completes (.pkVst x i) s fun t => t.core x = c.step ∧ (∀ y : Nat, y ≠ x → t.core y = s.core y) ∧
          t.hmp = s.hmp ∧ t.slices = s.slices ∧
          (∀ a, (∀ u, u < 64 → (c.acting i).getLsbD u = true → a < s.vKey x (addr u) ∨ s.vKey x (addr u) + n ≤ a) → t.stores.rd a = s.stores.rd a) ∧
          (∀ u k, u < 64 → (c.acting i).getLsbD u = true → k < n →
            (∀ w, w < 64 → w ≠ u → (c.acting i).getLsbD w = true →
              s.vKey x (addr u) + k < s.vKey x (addr w) ∨ s.vKey x (addr w) + n ≤ s.vKey x (addr u) + k) →
            t.stores.rd (s.vKey x (addr u) + k) = BitVec.ofNat 8 ((c.getV i.d u).toNat / 256 ^ k))))

/-- What a rank does to its job (R164, R177): barriers, residency queries, and its end. The end of a rank (R177, R184) and of its job: RANK_END needs JEND and no token outstanding, JOB_STOP a stopping job; the job ends when no rank is left. -/
def Obligations.RankResults : Prop :=
  (∀ (x : Fin 512) (i : Pk) (s : State) (c : Core), c = s.core x →
    (s.issues x i { imm := true } = true →
      (c.job = none → Retires (.pkBar x i) s x c.step) ∧
      (∀ k j b, c.job = some k → j = s.job k → b = i.imm.toNat % 4 →
        ((∃ y ∈ j.ranks, ∃ b', (s.core y).wait = .barrier b') → (∀ y ∈ j.ranks, ∀ b', (s.core y).wait = .barrier b' → b' ≠ b) →
          exec (.pkBar x i) s = .next (s.coreFault x 0x09 0 0 0 c.pc)) ∧
        ((∀ y ∈ j.ranks, ∀ b', (s.core y).wait = .barrier b' → b' = b) →
          ((∃ y ∈ j.ranks, y ≠ x ∧ (s.core y).wait = .run) → Retires (.pkBar x i) s x { c with wait := .barrier b }) ∧
          (x.val ∈ j.ranks → j.ranks.Nodup → (∀ y ∈ j.ranks, y ≠ x → (s.core y).wait ≠ .run) →
            Completes (.pkBar x i) s fun t => t.core x = c.step ∧
              (∀ y ∈ j.ranks, y ≠ x → t.core y = if (s.core y).wait = .barrier b then { (s.core y).step with wait := .run } else s.core y) ∧
              (∀ y, y ∉ j.ranks → t.core y = s.core y) ∧ ∃ m, t = { s with cores := m })))) ∧
    (s.issues x i { a := .s } = true →
      (c.job = none → exec (.pkJend x i) s = .next (s.coreFault x 0x01 0 0 0 c.pc)) ∧
      (∀ k j, c.job = some k → j = s.job k → (∃ y ∈ j.ranks, y ≠ x ∧ (s.core y).wait = .run) →
        Retires (.pkJend x i) s x { c with wait := .jend, result := if j.rankOf x = 0 then (c.getS i.a).toNat % 2 ^ 32 else c.result })) ∧
    (s.issues x i {} = true →
      (c.job = none → Completes (.pkIdle x i) s fun t => t.core x = c.step ∧ t.coreSt x = 3 ∧ (∀ y : Nat, y ≠ x → t.core y = s.core y) ∧
        s.sameRegs t [fkey (P.core x) F.CORE_STS_state]) ∧
      (c.job ≠ none → exec (.pkIdle x i) s = .next (s.coreFault x 0x01 0 0 0 c.pc)) ∧
      (s.jobRange x = none → Retires (.pkRezinv x i) s x c.step) ∧
      (∀ k, s.jobRange x = some k → Completes (.pkRezinv x i) s fun t => t.core x = c.step ∧ t.rezValid x k = false ∧
        t.flag (P.core x) F.CORE_STS_rezinv = true ∧ s.sameBytes t)) ∧
    (s.issues x i { d := .s } = true →
      (s.jobRange x = none → Retires (.pkRezq x i) s x (c.stepS i.d 0)) ∧
      (∀ k, s.jobRange x = some k → Retires (.pkRezq x i) s x (c.stepS i.d (BitVec.ofNat 64 (s.rezBase x k + 2 ^ 32 * s.rezLen x k)))))) ∧
  (∀ (x : Fin 512) (e : Nat) (s : State) (c : Core) (k : Nat) (j : Job), c = s.core x → c.job = some k → j = s.job k →
    (c.wait = .jend → j.stopping = false → (∀ n, n < 16 → c.getT n = 0) →
      ((∀ y ∈ j.ranks, y = x ∨ (s.core y).wait = .ended) →
        ∀ u, u = (s.setCore x { c with wait := .ended }).setJob k { j with energy := j.energy + e } → exec (.rankEnd x e) s = .next (u.jobEnd k)) ∧
      ((∃ y ∈ j.ranks, y ≠ x ∧ (s.core y).wait ≠ .ended) → Completes (.rankEnd x e) s fun t =>
        t.core x = { c with wait := .ended } ∧ t.job k = { j with energy := j.energy + e } ∧ (∀ y : Nat, y ≠ x → t.core y = s.core y) ∧
        s.sameRegs t [] ∧ s.sameBytes t)) ∧
    (c.wait ≠ .jend ∨ j.stopping = true ∨ (∃ n, n < 16 ∧ c.getT n ≠ 0) → exec (.rankEnd x e) s = .next s) ∧
    (j.stopping = true → c.wait ≠ .ended → c.movAct = [] → (∀ o q, c.atuq = o :: q → o.kind ≠ 0 ∨ o.executed = false) → (∃ y ∈ j.ranks, y ≠ x ∧ (s.core y).wait ≠ .ended) →
      Completes (.jobStop x) s fun t =>
        t.core x = { c with mxeq := [], movq := [], movAct := [], atuq := [], tok := [], wait := .ended } ∧ t.coreSt x = 5 ∧
        (∀ y : Nat, y ≠ x → t.core y = s.core y) ∧ s.sameRegs t [fkey (P.core x) F.CORE_STS_state] ∧ s.sameBytes t) ∧
    (j.stopping = false ∨ c.wait = .ended → exec (.jobStop x) s = .next s))

/-- Issue to the matrix engine, the mover and the ATU port: what enters the queue and that the token rises; an instruction with fields its engine refuses is ENGINE_DESC. Issue waits, with no other effect, while the queue is full or the token stands at 255 (R167). -/
def Obligations.EngineIssue : Prop :=
  (∀ (x : Fin 512) (i : Pk) (s : State) (c : Core) (sd sa sb sc : Nat), c = s.core x →
    sd = (c.getS i.d).toNat → sa = (c.getS i.a).toNat → sb = (c.getS i.b).toNat → sc = (c.getS i.c).toNat → c.getT i.token < 255 →
    (s.issues x i { d := .s, a := .s, b := .s, c := .s, mods := [0, 1, 2, 3, 4, 5], mod2s := [0, 1, 2, 3, 4, 5], flags := 3, engine := true } = true →
      ∀ o : MxeOp, o = ⟨0, i.token, c.pc, sd, sa, sb, sc, i.mod, i.mod2, i.flags.toNat, c.sclA, c.sclB⟩ → c.mxeq.length < 16 →
      (o.mmaOk = false → exec (.pkMma x i) s = .next (s.coreFault x 0x08 0 0 0 c.pc)) ∧
      (o.mmaOk = true → (∀ r ∈ o.reads, s.mxProtected x r.1 r.2 false = false) →
        Retires (.pkMma x i) s x { c.issued i with mxeq := c.mxeq ++ [o] })) ∧
    (s.issues x i { a := .s, b := .s, engine := true } = true → c.mxeq.length < 16 →
      Retires (.pkMscl x i) s x
        { c.issued i with mxeq := c.mxeq ++ [⟨1, i.token, c.pc, 0, sa, sb, 0, 0, 0, 0, 0, 0⟩], sclA := sa, sclB := sb }) ∧
    (s.issues x i { d := .s, a := .s, b := .s, c := .s, mods := [0, 1, 2, 3, 4, 5, 6], flags := 3, engine := true } = true →
      ∀ o : MxeOp, o = ⟨2, i.token, c.pc, sd, sa, sb, sc, i.mod, 0, i.flags.toNat, 0, 0⟩ → c.mxeq.length < 16 →
      (o.mcvtOk = false → exec (.pkMcvt x i) s = .next (s.coreFault x 0x08 0 0 0 c.pc)) ∧
      (o.mcvtOk = true → (∀ r ∈ o.mcvtOps, mcvtPlace r.1 r.2.1 r.2.2.2 = none ∧ s.mxProtected x r.1 r.2.1 r.2.2.1 = false) →
        Retires (.pkMcvt x i) s x { c.issued i with mxeq := c.mxeq ++ [o] })) ∧
    (s.issues x i { d := .s, a := .s, b := .s, flags := 1, engine := true } = true → c.movq.length < 32 →
      (sb ≤ 0x4000000 → Retires (.pkMvl x i) s x { c.issued i with movq := c.movq ++ [⟨0, i.token, c.pc, sd, sa, sb, sc, [], i.flags.toNat⟩] }) ∧
      (0x4000000 < sb → exec (.pkMvl x i) s = .next (s.coreFault x 0x08 0 0 0 c.pc))) ∧
    (s.issues x i { d := .s, a := .s, b := .s, c := .s, flags := 1, engine := true } = true → c.movq.length < 32 →
      Retires (.pkMcas x i) s x { c.issued i with movq := c.movq ++ [⟨5, i.token, c.pc, sd, sa, sb, sc, [], i.flags.toNat⟩] }) ∧
    (s.issues x i { a := .s, flags := 1, engine := true } = true → c.movq.length < 32 →
      ∀ d, d = s.stores.rdN (stoKey x sa) 64 → sa + 64 ≤ storeTop → s.storeProtected x sa 64 false = false →
      (s.stores.poisoned (stoKey x sa) 64 && c.job.isSome) = false →
      (mvsOk d = true → Retires (.pkMvs x i) s x { c.issued i with movq := c.movq ++ [⟨1, i.token, c.pc, 0, sa, 0, 0, d, i.flags.toNat⟩] }) ∧
      (mvxOk false d = true → Retires (.pkMvg x i) s x { c.issued i with movq := c.movq ++ [⟨2, i.token, c.pc, 0, sa, 0, 0, d, i.flags.toNat⟩] }) ∧
      (mvxOk false d = true → Retires (.pkMvt x i) s x { c.issued i with movq := c.movq ++ [⟨3, i.token, c.pc, 0, sa, 0, 0, d, i.flags.toNat⟩] }) ∧
      (mvxOk true d = true → Retires (.pkMva x i) s x { c.issued i with movq := c.movq ++ [⟨4, i.token, c.pc, 0, sa, 0, 0, d, i.flags.toNat⟩] }) ∧
      (mvsOk d = false → exec (.pkMvs x i) s = .next (s.coreFault x 0x08 0 0 0 c.pc))) ∧
    (c.atuq.length < 8 → i.b = 0 → i.c = 0 →
      (s.issues x i { d := .v, a := .s, b := .v, c := .v, engine := true } = true → ∀ b, b = s.stores.rdN (stoKey x sa) 64 →
        i.d = 0 → sa + 64 ≤ storeTop → s.storeProtected x sa 64 false = false → (s.stores.poisoned (stoKey x sa) 64 && c.job.isSome) = false →
        (attnOk b = true → Retires (.pkAttn x i) s x { c.issued i with atuq := c.atuq ++ [⟨0, i.token, c.pc, b, 0, false⟩] }) ∧
        (attnOk b = false → exec (.pkAttn x i) s = .next (s.coreFault x 0x08 0 0 0 c.pc))) ∧
      (s.issues x i { d := .s, a := .s, b := .v, c := .v, engine := true } = true → s.storeProtected x sa 64 false = false →
        s.storeProtected x sa 32 false = false → (s.stores.poisoned (stoKey x sa) 64 && c.job.isSome) = false →
        (s.stores.poisoned (stoKey x sa) 32 && c.job.isSome) = false →
        (∀ b, b = s.stores.rdN (stoKey x sa) 64 → sa + 64 ≤ storeTop → kvappOk b = true → recOk sd 16 = true →
          Retires (.pkKvapp x i) s x { c.issued i with atuq := c.atuq ++ [⟨1, i.token, c.pc, b, sd, false⟩] }) ∧
        (∀ b, b = s.stores.rdN (stoKey x sa) 32 → sa + 32 ≤ storeTop → kvopOk b = true → recOk sd (if dNum b 0 1 = 7 then 48 else 16) = true →
          Retires (.pkKvop x i) s x { c.issued i with atuq := c.atuq ++ [⟨2, i.token, c.pc, b, sd, false⟩] })))) ∧
  (∀ (x : Fin 512) (i : Pk) (s : State) (c : Core), c = s.core x →
    (s.issues x i { a := .s, b := .s, engine := true } = true → 16 ≤ c.mxeq.length ∨ 255 ≤ c.getT i.token → exec (.pkMscl x i) s = .next s) ∧
    (s.issues x i { d := .s, a := .s, b := .s, c := .s, mods := [0, 1, 2, 3, 4, 5], mod2s := [0, 1, 2, 3, 4, 5], flags := 3, engine := true } = true →
      16 ≤ c.mxeq.length ∨ 255 ≤ c.getT i.token → exec (.pkMma x i) s = .next s) ∧
    (s.issues x i { d := .s, a := .s, b := .s, flags := 1, engine := true } = true → 32 ≤ c.movq.length ∨ 255 ≤ c.getT i.token →
      exec (.pkMvl x i) s = .next s) ∧
    (s.issues x i { d := .v, a := .s, b := .v, c := .v, engine := true } = true → 8 ≤ c.atuq.length ∨ 255 ≤ c.getT i.token →
      exec (.pkAttn x i) s = .next s))

/-- The completion of engine operations: the matrix engine writes C, or the scales and codes of an MCVT, and nothing else in the stores; the mover starts in order, at most four, and nothing towards a tile whose route changes (02 R37); a copy inside two lines moves the bytes and the poison; the token falls. -/
def Obligations.EngineCompletionResults : Prop :=
  ∀ (x : Fin 512) (s : State) (c : Core), c = s.core x → s.enginesRun x = true →
    (∀ o q, c.mxeq = o :: q → (∀ r ∈ o.sources, s.stores.firstPoison (stoKey x r.1) r.2 = none) →
      ∀ c', c' = { c with mxeq := q }.setT o.token (c.getT o.token - 1) →
      (o.kind = 0 → Completes (.mxeOpComplete x) s fun t =>
        t.core x = c' ∧ (∀ y : Nat, y ≠ x → t.core y = s.core y) ∧ t.stores = s.stores.wr (stoKey x o.sd) (s.mmaC x o) false ∧
        t.hmp = s.hmp ∧ t.slices = s.slices ∧
        s.sameRegs t [fkey (P.mxe x) F.MXE_BUSY_LO_cycles, fkey (P.mxe x) F.MXE_BUSY_HI_cycles]) ∧
      (o.kind = 1 → Completes (.mxeOpComplete x) s fun t => t.core x = c' ∧ (∀ y : Nat, y ≠ x → t.core y = s.core y) ∧ ∃ m, t = { s with cores := m }) ∧
      (o.kind = 2 → bitOf o.flags 0 = false → Completes (.mxeOpComplete x) s fun t =>
        t.core x = c' ∧ (∀ y : Nat, y ≠ x → t.core y = s.core y) ∧ t.stores = s.stores.wr (stoKey x o.sd)
          (mxPack o.fmtA ((List.range (shM o.shape * shN o.shape)).map fun e => mxStore o.fmtA (bitOf o.flags 1) (s.mcvtIn x o e))) false ∧
        ∃ m b, t = { s with cores := m, stores := b })) ∧
    (c.mxeq = [] → exec (.mxeOpComplete x) s = .next s) ∧
    (c.movAct.length < 4 →
      (∀ o q, c.movq = o :: q → bitOf o.flags 0 = false ∨ c.movAct = [] →
        (List.range 8).any (fun u => s.routeHeld (x.val / 64) u && s.movTouches x o u) = false →
        Completes (.moverOpStart x) s fun t => t = s.setCore x { c with movq := q, movAct := c.movAct ++ [o] }) ∧
      (∀ o q, c.movq = o :: q → bitOf o.flags 0 = true → c.movAct ≠ [] → exec (.moverOpStart x) s = .next s) ∧
      (∀ o q, c.movq = o :: q → (∃ u, u < 8 ∧ s.routeHeld (x.val / 64) u = true ∧ s.movTouches x o u = true) →
        exec (.moverOpStart x) s = .next s)) ∧
    (4 ≤ c.movAct.length → exec (.moverOpStart x) s = .next s) ∧
    (∀ (k : Fin 4) (o : MovOp), c.movAct[k.val]? = some o → o.kind = 0 → 0 < o.sb →
      o.sa % 64 + o.sb ≤ 64 → o.sd % 64 + o.sb ≤ 64 → o.sa + o.sb ≤ storeTop → o.sd + o.sb ≤ storeTop → (o.sa + o.sb ≤ o.sd ∨ o.sd + o.sb ≤ o.sa) →
      s.movFault x o.sa o.sb 1 false = none → s.movFault x o.sd o.sb 1 true = none →
      Completes (.moverOpComplete x k) s fun t =>
        t.core x = { c with movAct := c.movAct.eraseIdx k }.setT o.token (c.getT o.token - 1) ∧ (∀ y : Nat, y ≠ x → t.core y = s.core y) ∧
        t.stores = s.stores.wr (stoKey x o.sd) (s.stores.rdN (stoKey x o.sa) o.sb) (s.stores.linePoison (stoKey x o.sa / 64)) ∧
        t.hmp = s.hmp ∧ t.slices = s.slices ∧
        t.fld64 (P.mov x) F.MOV_BYTES_LO_bytes F.MOV_BYTES_HI_bytes = (s.fld64 (P.mov x) F.MOV_BYTES_LO_bytes F.MOV_BYTES_HI_bytes + o.sb) % 2 ^ 64 ∧
        s.sameRegs t [fkey (P.mov x) F.MOV_BYTES_LO_bytes, fkey (P.mov x) F.MOV_BYTES_HI_bytes]) ∧
    (∀ (k : Fin 4), c.movAct[k.val]? = none → exec (.moverOpComplete x k) s = .next s)

/-- A KVOP at the head of a core's port queue: what its record says and what the state becomes, from the gate and the operation of its block. -/
def Obligations.KvopResults : Prop :=
  ∀ (x : Fin 512) (s : State) (o : AtuOp) (p n ep v : Nat) (b : List Byte), s.atuHead x 2 = some o → s.jobPlace x = some (p, n, ep) →
    b = o.blk → v = dNum b 4 4 →
    (dNum b 0 1 = 1 → KvopEnds (.kvopAlloc x) s x o p n ep v true (s.kvAlloc p n (dNum b 1 1) v) fun _ => []) ∧
    (dNum b 0 1 = 2 → KvopEnds (.kvopIncref x) s x o p n ep v true (s.kvRef p n (dNum b 0x18 4) v true) fun _ => []) ∧
    (dNum b 0 1 = 3 → KvopEnds (.kvopDecref x) s x o p n ep v true (s.kvRef p n (dNum b 0x18 4) v false) fun _ => []) ∧
    (dNum b 0 1 = 4 → KvopEnds (.kvopFork x) s x o p n ep v true
      (s.kvFork p n (dNum b 8 8) (dNum b 0x10 8) (dNum b 0x18 4) (dNum b 0x1C 4) v) fun _ => []) ∧
    (dNum b 0 1 = 5 → KvopEnds (.kvopRelease x) s x o p n ep v true (s.kvRelease p n (dNum b 8 8) (dNum b 0x18 4) (dNum b 0x1C 4) v) fun _ => []) ∧
    (dNum b 0 1 = 6 → KvopEnds (.kvopInval x) s x o p n ep v false (.ok (s.labRemovePart p (fun e => e.root == dNum b 8 8), 0)) fun _ => []) ∧
    (dNum b 0 1 = 7 → ∀ k d, k = dNum b 0x18 4 → s.kvNamed p k n 6 = .ok d →
      KvopEnds (.kvopQuery x) s x o p n ep v false (.ok (s, k)) fun _ => d.bytes)

/-- The page operations: the order of the answers before an operation is looked at, the page that ALLOC takes, and the refcount changes, with their statuses. -/
def Obligations.KvPageOperations : Prop :=
  ∀ (s : State) (p n ep v fmt k : Nat) (w : Bool),
    (ep ≠ s.epoch n → s.kvGate p n ep v w = some (3, 0)) ∧
    (ep = s.epoch n → s.poolState p ≠ 2 → s.kvGate p n ep v w = some (12, 0)) ∧
    (ep = s.epoch n → s.poolState p = 2 →
      s.kvGate p n ep v false = none ∧
      (seqAbove v (s.kvWin n).h = true → s.kvGate p n ep v true = none) ∧
      (seqAbove v (s.kvWin n).h = false → 64 ≤ seqDist (s.kvWin n).h v → s.kvGate p n ep v true = some (2, 0)) ∧
      (∀ r, seqAbove v (s.kvWin n).h = false → seqDist (s.kvWin n).h v < 64 → (s.kvWin n).done.find? (fun e => e.1 == v) = some (v, r) →
        s.kvGate p n ep v true = some (1, r))) ∧
    ((s.kvPool p).fits fmt = false → s.kvAlloc p n fmt v = .error ⟨10, none, 0⟩) ∧
    ((s.kvPool p).fits fmt = true →
      (s.kvFreeList p = [] → s.kvAlloc p n fmt v = .error ⟨4, none, 0⟩) ∧
      (∀ h r, s.kvFreeList p = h :: r →
        (s.fld (P.ten n 9) F.KPM_TQ_LIMIT_limit ≤ s.kvUsed n → s.kvAlloc p n fmt v = .error ⟨5, none, 0⟩) ∧
        (∀ d, s.kvUsed n < s.fld (P.ten n 9) F.KPM_TQ_LIMIT_limit → s.kvDesc p h = .ok d →
          ∃ t, s.kvAlloc p n fmt v = .ok (t, h) ∧ t.kvFreeList p = r ∧ t.ownedIn p n = s.ownedIn p n + 1 ∧
            (∀ q m, (q, m) ≠ (p, n) → q < 8 → p < 8 → m < 128 → n < 128 → t.ownedIn q m = s.ownedIn q m) ∧ t.stores = s.stores ∧ t.hmp = s.hmp))) ∧
    (∀ d, s.kvNamed p k n 8 = .ok d →
      (d.rc < 65535 → ∃ t, s.kvRef p n k v true = .ok (t, d.rc + 1) ∧ t = s.setKvDesc p k { d with rc := d.rc + 1, opseq := v }) ∧
      (65535 ≤ d.rc → s.kvRef p n k v true = .error ⟨7, none, 0⟩) ∧
      (d.rc = 0 → s.kvRef p n k v false = .error ⟨8, none, 0⟩) ∧
      (2 ≤ d.rc → s.kvRef p n k v false = .ok (s.setKvDesc p k { d with rc := d.rc - 1, opseq := v }, d.rc - 1)) ∧
      (d.rc = 1 → ∃ t, s.kvRef p n k v false = .ok (t, 0) ∧ t.kvFreeList p = k :: s.kvFreeList p ∧ t.ownedIn p n = s.ownedIn p n - 1))

/-- KVAPP, ATTN and the end of a port command: the statuses before an append, an append that needs no page, an attention over its translated pages, and the token that falls when a command that has run leaves the queue. -/
def Obligations.AttentionResults : Prop :=
  ∀ (x : Fin 512) (s : State) (o : AtuOp) (p n ep : Nat) (b : List Byte), b = o.blk → s.jobPlace x = some (p, n, ep) →
    (s.atuHead x 1 = some o → ∀ v fmt pos cnt sf, v = dNum b 0x18 4 → fmt = dNum b 0xF 1 → pos = dNum b 8 4 → cnt = dNum b 0xC 2 → sf = dNum b 0xE 1 →
      (s.poolState p ≠ 2 → exec (.kvappExecute x) s = .next (s.kvRecord x o 12 0 0 v [])) ∧
      (s.poolState p = 2 → kvDim (dNum b 0x1C 1) ≠ (s.kvPool p).d ∨ (s.kvPool p).fits fmt = false →
        exec (.kvappExecute x) s = .next (s.kvRecord x o 10 0 0 v [])) ∧
      (s.poolState p = 2 → kvDim (dNum b 0x1C 1) = (s.kvPool p).d → (s.kvPool p).fits fmt = true →
        ∀ idxs, idxs = (List.range ((pos + cnt - 1) / 64 - pos / 64 + 1)).map (pos / 64 + ·) →
        (∀ e u, s.kvTranslateAll (x / 8) p n (dNum b 0 8) idxs = (.error e, u) → exec (.kvappExecute x) s = .next (u.kvEnd x o p v e)) ∧
        (∀ refs u, s.kvTranslateAll (x / 8) p n (dNum b 0 8) idxs = (.ok refs, u) →
          (∀ r ∈ refs, ∃ k d, r.page = some (k, d) ∧ d.fmt = fmt ∧ d.rc ≤ 1 ∧ u.kvPageGone x p k fmt = none) →
          ∀ len ks vs, len = cnt * (s.kvPool p).d → ks = u.aElems x (dNum b 0x10 4) sf len → vs = u.aElems x (dNum b 0x14 4) sf len →
          u.stores.firstPoison (stoKey x (0x80000 + dNum b 0x10 4)) (len * srcBytes sf) = none →
          u.stores.firstPoison (stoKey x (0x80000 + dNum b 0x14 4)) (len * srcBytes sf) = none →
          ((∃ e ∈ ks ++ vs, e.isNan = true ∨ e.isInf = true) → exec (.kvappExecute x) s = .next (u.kvRecord x o 13 0 0 v [])) ∧
          ((∀ e ∈ ks ++ vs, e.isNan = false ∧ e.isInf = false) → ∀ k d r m, refs = [r] → r = ⟨m, some (k, d)⟩ →
            ∀ w, w = u.kvStore p k m fmt pos cnt ks vs → ∀ e, w.kvDesc p k = .ok e →
            exec (.kvappExecute x) s = .next (w.kvRecord x o 0 k e.vt v []))))) ∧
    (s.atuHead x 0 = some o → s.attnNext (x / 8) = some x.val →
      ∀ u, u = { s with atuLast := Tab.set nat0 s.atuLast (x.val / 8) (x.val % 8) } →
      (s.poolState p ≠ 2 → exec (.attnExecute x) s = .next (u.atuFail x o 0x0C 6 0)) ∧
      (s.poolState p = 2 → kvDim (dNum b 0x2A 1) = (s.kvPool p).d → bitOf (dNum b 0x2D 1) 2 = false →
        u.stores.firstPoison (stoKey x (0x80000 + dNum b 0x10 4)) (dNum b 0x28 1 * dNum b 0x29 1 * kvDim (dNum b 0x2A 1) * qBytes (dNum b 0x2B 1)) = none →
        ∀ idxs, idxs = ((List.range ((dNum b 8 4 + 63) / 64)).filter fun i => !(u.aSeen x b i).isEmpty) →
        ∀ refs w pages, u.kvTranslateAll (x / 8) p n (dNum b 0 8) idxs = (.ok refs, w) → w.attnPages p (w.aSeen x b) refs = .ok pages →
          bitOf (dNum b 0x2E 2) 0 = false →
          exec (.attnExecute x) s = .next
            (((w.attnCount p (w.aSeen x b) refs).ownWrite x (0x80000 + dNum b 0x14 4) (w.attnRows x b (kvDim (dNum b 0x2A 1)) pages).1).atuRan x))) ∧
    (∀ c q, c = s.core x → s.enginesRun x = true → c.atuq = o :: q →
      (o.executed = false → exec (.atuCommandDone x) s = .next s) ∧
      (o.executed = true → o.kind ≠ 0 →
        Completes (.atuCommandDone x) s fun t => t.core x = { c with atuq := q }.setT o.token (c.getT o.token - 1) ∧
          (∀ y : Nat, y ≠ x → t.core y = s.core y) ∧ ∃ m, t = { s with cores := m }))

/-- Pools and reclaim: enabling starts initialisation or ends in CFG_ERROR, initialisation ends READY with every page free, disabling empties the pool, and the sweep and the flush end as R264 and R249 say. -/
def Obligations.PoolResults : Prop :=
  ∀ (s : State) (p : Fin 8) (n : Fin 128) (cl : Fin 64) (rq : Requester) (v : Word),
    (s.grants rq (P.kpm 1) = true → bitOf v.toNat 0 = true → s.poolState p = 0 → s.flag (P.kpm 1) (F.KPM_POOL_CFG_enable p) = false →
      Completes (.poolEnable rq p v) s fun t =>
        t.fld (P.kpm 1) (F.KPM_POOL_CFG_head_dim p) = bits v.toNat 1 2 ∧ t.fld (P.kpm 1) (F.KPM_POOL_CFG_frame_log2 p) = bits v.toNat 4 3 ∧
        t.flag (P.kpm 1) (F.KPM_POOL_CFG_enable p) = true ∧ (t.poolState p = 1 ∨ t.poolState p = 3) ∧ t.kvFreeList p = []) ∧
    (s.grants rq (P.kpm 1) = true → bitOf v.toNat 0 = false → s.flag (P.kpm 1) (F.KPM_POOL_CFG_enable p) = true →
      s.poolState p = 1 ∨ s.poolState p = 2 ∨ s.poolState p = 3 →
      Completes (.poolDisable rq p v) s fun t =>
        t.poolState p = 0 ∧ t.flag (P.kpm 1) (F.KPM_POOL_CFG_enable p) = false ∧ t.kvFreeList p = [] ∧ t.kvQuarList p = []) ∧
    (s.poolState p = 1 → Completes (.poolInitDone p) s fun t =>
      t.poolState p = 2 ∧ (t.kvFreeList p).Perm (List.range (s.kvPool p).pages) ∧ t.stores = s.stores ∧ t.hmp = s.hmp) ∧
    (s.poolState p ≠ 1 → exec (.poolInitDone p) s = .next s) ∧
    (s.flag (P.ten n 9) F.KPM_TQ_RECLAIM_sweeping = true → Completes (.kpmReclaimSweep n) s fun t =>
      t.fld (P.ten n 9) F.KPM_TQ_RECLAIM_pending = 0 ∧ t.flag (P.ten n 9) F.KPM_TQ_RECLAIM_sweeping = false ∧ t.stores = s.stores) ∧
    (s.flag (P.ten n 9) F.KPM_TQ_RECLAIM_sweeping = false → exec (.kpmReclaimSweep n) s = .next s) ∧
    (s.grants rq (P.kvw cl) = true → Completes (.kvwFlush rq cl) s fun t => t.lab cl = [] ∧
      t.fld (P.kvw cl) F.KVW_STS_lab_valid = 0 ∧ (∀ k : Nat, k ≠ cl → t.lab k = s.lab k) ∧ s.sameBytes t)

/-- The ends of bring-up steps (R73, R74, R97): what step 2 samples and how it stops boot, the refusals of steps 6 and 9, and the steps that only move on when their wait is over. Watchdogs, pushed boot (a read that waits while the owner port is in D3hot, 06 R128, and one whose image is accepted), and the ports' configuration space (R87, R89, R91). -/
def Obligations.BringupAndPush : Prop :=
  (∀ (s : State), s.flag P.boot F.BOOT_STS_failed = false →
    (∀ (o b : Fin 4) (si : BitVec 4) (bu : BitVec 6) (cm : BitVec 8) (me ma : BitVec 2), s.stage = 2 → ∀ v, v = s.board.variantOk →
      (si = 8 → bu = 1 → b ≠ 3 → v = true → Completes (.bringupStepEnd (.straps o b si bu cm me ma)) s fun t =>
        t.stage = 4 ∧ t.owner = o ∧ t.fld P.boot F.BOOT_STRAP_owner_port = o ∧ t.fld P.boot F.BOOT_STRAP_boot_src = b ∧
        t.fld P.boot F.BOOT_STRAP_hub_site = 8 ∧ t.fld P.boot F.BOOT_STRAP_pkg_build = 1 ∧
        (t.flag P.boot F.BOOT_STS_wait_push = true ↔ b = 1 ∨ s.flag P.boot F.BOOT_STS_wait_push = true)) ∧
      (si ≠ 8 ∨ bu ≠ 1 ∨ b = 3 ∨ v = false → Completes (.bringupStepEnd (.straps o b si bu cm me ma)) s fun t =>
        t.flag P.boot F.BOOT_STS_failed = true ∧ t.stage = 2 ∧ t.fld P.boot F.BOOT_ERR_step = 2 ∧
        t.fld P.boot F.BOOT_ERR_code = (if si ≠ 8 ∨ bu ≠ 1 then 1 else if b = 3 then 2 else 3) ∧
        t.fld P.boot F.BOOT_ERR_detail = (if si ≠ 8 then 3 else if bu ≠ 1 then 5 else if b = 3 then 3 else 0))) ∧
    (s.stage = 6 → s.fusesDone = true → s.bridgesDone = true → Completes (.bringupStepEnd (.fuses none)) s fun t => t = s.setStage 7) ∧
    (s.stage = 6 → s.fusesDone = true → s.bridgesDone = false → exec (.bringupStepEnd (.fuses none)) s = .next s) ∧
    (∀ u, s.stage = 6 → s.fusesDone = false → Completes (.bringupStepEnd (.fuses (some u))) s fun t =>
      t.flag P.boot F.BOOT_STS_failed = true ∧ t.stage = 6 ∧ t.fld P.boot F.BOOT_ERR_code = 0x0B ∧ t.fld P.boot F.BOOT_ERR_detail = u) ∧
    (s.stage = 8 →
      ((∀ x, x < 512 → s.sliceState x ≠ 0 ∨ s.fenced (x / 64) = true) →
        ∀ n, n = ((List.range 512).filter fun x => s.sliceServes x && !s.fenced (x / 64)).length →
        Completes (.bringupStepEnd .slices) s fun t => t.stage = 9 ∧ t.fld P.boot F.BOOT_MEM_slices_good = n ∧
          t.fld P.boot F.BOOT_MEM_capacity_mib = 128 * n ∧ s.sameBytes t) ∧
      ((∃ x, x < 512 ∧ s.sliceState x = 0 ∧ s.fenced (x / 64) = false) → exec (.bringupStepEnd .slices) s = .next s)) ∧
    (∀ u, s.stage = 9 → Completes (.bringupStepEnd (.hamper (some u))) s fun t =>
      t.flag P.boot F.BOOT_STS_failed = true ∧ t.stage = 9 ∧ t.fld P.boot F.BOOT_ERR_code = 0x0C ∧ t.fld P.boot F.BOOT_ERR_detail = u) ∧
    (s.stage = 9 → Completes (.bringupStepEnd (.hamper none)) s fun t => t.stage = 10 ∧
      (∀ c, c < 4096 → (t.comp c).state = (if c < 512 then 1 else if c < 4024 then 0 else 3)) ∧
      (∀ a, 0x2000000 ≤ a → t.hmp.rd a = 0) ∧ t.stores = s.stores ∧ t.slices = s.slices) ∧
    (s.stage = 11 → (∀ x, x < 512 → s.coreSt x ≠ 1 ∨ s.fenced (x / 64) = true) →
      Completes (.bringupStepEnd .cores) s fun t => t = s.setStage 12)) ∧
  (∀ (s : State) (rq : Requester) (port : Fin 4) (m : Medium),
    (s.flag P.boot F.BOOT_STS_failed = false → s.ready = false → s.stage = 2 ∨ s.stage = 12 →
      Completes (.bootWatchdogExpiry (if s.stage = 2 then .step2 else .step12)) s fun t =>
        t.flag P.boot F.BOOT_STS_failed = true ∧ t.fld P.boot F.BOOT_ERR_code = 0x10 ∧ t.fld P.boot F.BOOT_ERR_detail = s.stage ∧ t.stage = s.stage) ∧
    (s.flag P.boot F.BOOT_STS_failed = false → s.ready = false → s.stage = 4 → s.flag P.boot F.BOOT_PUSH_CTL_go = true →
      Completes (.bootWatchdogExpiry .push) s fun t =>
        t.flag P.boot F.BOOT_PUSH_CTL_go = false ∧ t.flag P.boot F.BOOT_PUSH_CTL_busy = false ∧ t.flag P.boot F.BOOT_STS_wait_push = true ∧
        t.fld P.boot F.BOOT_ERR_code = 0x10 ∧ t.fld P.boot F.BOOT_ERR_detail = 4 ∧ t.stage = 4) ∧
    (∀ w, s.flag P.boot F.BOOT_STS_failed = true ∨ s.ready = true → exec (.bootWatchdogExpiry w) s = .next s) ∧
    (s.linkUp port = true → 4 ≤ s.stage ∨ s.flag P.boot F.BOOT_STS_failed = true →
      Completes (.bootConfigSpaceReady port) s fun t => t = s.setPort port { s.port port with cfgReady := true }) ∧
    (s.linkUp port = false ∨ (s.stage < 4 ∧ s.flag P.boot F.BOOT_STS_failed = false) → exec (.bootConfigSpaceReady port) s = .next s) ∧
    (s.grants rq P.boot = true → s.flag P.boot F.BOOT_PUSH_CTL_busy = false → s.flag P.boot F.BOOT_STS_wait_push = true →
      ∀ n, n = s.fld P.boot F.BOOT_PUSH_LEN_len →
      (n ≤ 0x4000000 → (s.port s.owner).d3 = true → Completes (.bootPushGo rq) s fun t =>
        t.flag P.boot F.BOOT_PUSH_CTL_go = true ∧ t.flag P.boot F.BOOT_STS_wait_push = false ∧ t.boot.pushHeld = true ∧ t.outs = s.outs ∧ s.sameBytes t) ∧
      (n ≤ 0x4000000 → (s.port s.owner).d3 = false → Completes (.bootPushGo rq) s fun t =>
        t.flag P.boot F.BOOT_PUSH_CTL_go = true ∧ t.flag P.boot F.BOOT_STS_wait_push = false ∧ t.boot.pushHeld = false ∧
        t.outs = .dmaRead s.owner none (s.fld64 P.boot F.BOOT_PUSH_ADDR_LO_addr F.BOOT_PUSH_ADDR_HI_addr / 4096 * 4096) n :: s.outs ∧ s.sameBytes t) ∧
      (0x4000000 < n → Completes (.bootPushGo rq) s fun t =>
        t.fld P.boot F.BOOT_ERR_code = 5 ∧ t.fld P.boot F.BOOT_ERR_detail = 1 ∧ t.flag P.boot F.BOOT_STS_wait_push = true)) ∧
    (s.grants rq P.boot = true → s.flag P.boot F.BOOT_STS_wait_push = false → exec (.bootPushGo rq) s = .next s) ∧
    (s.flag P.boot F.BOOT_PUSH_CTL_go = true → s.boot.pushHeld = false → s.stage < 10 →
      ∀ s1 k im u, s1 = (s.setFlag P.boot F.BOOT_PUSH_CTL_go false).setFlag P.boot F.BOOT_PUSH_CTL_busy false →
      s1.pickImage 1 (stage1s (m.take (s.fld P.boot F.BOOT_PUSH_LEN_len))) = (u, [], some (k, im)) → k < 2 → im.fwVersion < 2 ^ 32 →
      Completes (.bootPushReadDone m) s fun t =>
        t.flag P.boot F.BOOT_PUSH_CTL_go = false ∧ t.flag P.boot F.BOOT_PUSH_CTL_busy = false ∧ t.stage = 5 ∧ t.fld P.boot F.BOOT_STS_slot = k ∧
        t.fld P.boot F.BOOT_STS_src = 1 ∧ t.fld P.boot F.BOOT_FW_VER_fw_version = im.fwVersion) ∧
    (s.flag P.boot F.BOOT_PUSH_CTL_go = false ∨ s.boot.pushHeld = true → exec (.bootPushReadDone m) s = .next s))

/-- A core's boot fetch (R84), a slice's training (R94, 09 R240), power cycles and the device warm reset (14 R343, 18 R421, R423). -/
def Obligations.BootUnitsResults : Prop :=
  ∀ (s : State) (x : Fin 512) (rq : Requester),
    (∀ g it r first second, s.coreSt x = 1 → s.dom (x / 64) (72 + x % 64) = 3 → s.fenced (x / 64) = false →
      s.logicalOf x = some g → s.itin = some it → it.ruleOf g = some r →
      (∀ i d, (it.picked r)[i]? = some d → (first.getD i false = true ∨ second.getD i false = true) ∧ s.imageGood d = true) →
      Completes (.coreBootFetch x first second) s fun t =>
        t.coreSt x = 2 ∧ t.core x = { Core.reset with active := -1, pc := r.entry } ∧ t.hmp = s.hmp ∧ t.slices = s.slices) ∧
    (∀ first second, s.coreSt x ≠ 1 → exec (.coreBootFetch x first second) s = .next s) ∧
    (s.sliceState x = 0 → s.fenced (x / 64) = false → 8 ≤ s.stage → s.flag P.boot F.BOOT_STS_failed = false →
      (Completes (.sliceTrainingDone x true) s fun t => t.sliceState x = 1 ∧ (∀ y : Nat, y < 512 → y ≠ x → t.sliceState y = s.sliceState y) ∧ s.sameBytes t) ∧
      (Completes (.sliceTrainingDone x false) s fun t => t.sliceState x = 4 ∧ t.fld (P.slc x) F.SLC_STS_fail_cause = 1 ∧
        x.val ∈ t.boot.trainFail ∧ s.sameBytes t)) ∧
    (s.sliceState x ≠ 0 → ∀ ok, exec (.sliceTrainingDone x ok) s = .next s) ∧
    (Completes .coldPowerOn s fun t => t.aoUp = true ∧ t.hubOff = false ∧ s.sameSlots t ∧ t.ready = false ∧ t.stage = 2 ∧
      t.fld P.trl F.TRL_BOOTCNT_value = (s.fld P.trl F.TRL_BOOTCNT_value + 2) % 2 ^ 32 ∧ (∀ y, t.core y = Core.reset) ∧ (∀ a, t.hmp.rd a = 0)) ∧
    (s.aoUp = true → Completes .vddAoLoss s fun t => t.aoUp = false ∧ t.hubOff = true ∧ s.sameSlots t ∧ t.trail.queue = [] ∧
      (∀ y, t.core y = Core.reset) ∧ (∀ a, t.hmp.rd a = 0)) ∧
    (s.aoUp = false → exec .vddAoLoss s = .next s) ∧
    (s.grants rq (P.hub 2) = true →
      (s.inShutdown = false → s.stuck = false → Completes (.deviceWarmReset rq 0xA5C3) s fun t =>
        t.ready = false ∧ t.stage = 2 ∧ t.fld P.trl F.TRL_BOOTCNT_value = (s.fld P.trl F.TRL_BOOTCNT_value + 1) % 2 ^ 32 ∧
        t.trail.slots = s.trail.slots ∧ (∀ y, t.core y = Core.reset) ∧ (∀ a, t.hmp.rd a = 0)) ∧
      (∀ key : BitVec 16, key ≠ 0xA5C3 → exec (.deviceWarmReset rq key) s = .next (s.countErr (P.hub 2) 0x41 (rqCode rq) (accessAddr rq (P.hub 2) 0x04C))))

/-- Configuration requests, port links, PERST_N and D3hot. Function resets, pending messages, CXL.mem and the loss of clocks. -/
def Obligations.HostPortsAndFunctions : Prop :=
  (∀ (s : State) (p : Fin 4) (fn : FnId) (k : Nat), k = fnNum fn →
    (s.linkUp (fnPort k) = true →
      (s.devFailed = true → ∀ op, exec (.configRequest fn op) s = .next (s.emit (.configAbort k))) ∧
      (s.devFailed = false → (s.port (fnPort k)).cfgReady = false → ∀ op, exec (.configRequest fn op) s = .next (s.emit (.config k true))) ∧
      (s.devFailed = false → (s.port (fnPort k)).cfgReady = true → k < 4 ∨ (k - 4) % 64 < (s.port (fnPort k)).numVfs →
        (∀ r, exec (.configRequest fn (.read r)) s = .next ((s.emit (.cfgData k (s.configRead k r))).emit (.config k false))) ∧
        ∀ v, exec (.configRequest fn (.memEnable v)) s = .next ((s.setFn k { s.fn k with memEn := v }).emit (.config k false)) ∧
          exec (.configRequest fn (.busMaster v)) s = .next ((s.setFn k { s.fn k with bme := v }).emit (.config k false)) ∧
          exec (.configRequest fn (.msixEnable v)) s = .next ((s.setFn k { s.fn k with msixEn := v }).emit (.config k false)))) ∧
    (s.linkUp (fnPort k) = false → ∀ op, exec (.configRequest fn op) s = .next s) ∧
    (s.linkUp p = false → 3 ≤ s.stage ∨ s.flag P.boot F.BOOT_STS_failed = true → s.flag (P.hpt p) F.HPT_LINK_STS_perst = false →
      bitOf (s.fld (P.hub 0) F.HUB_STRAP_EXT_port_clk_bad) p = false → s.devFailed = false → s.hubOff = false →
      ∀ (r : Fin 6) (w : Fin 17) (fl cx : Bool), w = 1 ∨ w = 2 ∨ w = 4 ∨ w = 8 ∨ w = 16 → Completes (.hostLinkUp p r w fl cx) s fun t =>
        t.linkUp p = true ∧ t.fld (P.hpt p) F.HPT_LINK_STS_rate = r + 1 ∧ t.fld (P.hpt p) F.HPT_LINK_STS_width = w ∧
        t.flag (P.hpt p) F.HPT_LINK_STS_flit = fl ∧ t.flag (P.hpt p) F.HPT_LINK_STS_cxl = (cx && s.flag (P.hpt p) F.HPT_CTL_cxl_en) ∧ s.sameBytes t) ∧
    (∀ (r : Fin 6) (w : Fin 17) (fl cx : Bool), s.linkUp p = true ∨ (w ≠ 1 ∧ w ≠ 2 ∧ w ≠ 4 ∧ w ≠ 8 ∧ w ≠ 16) → exec (.hostLinkUp p r w fl cx) s = .next s) ∧
    (s.linkUp p = true → s.tenantsOnPort p = [] →
      ∀ c, c = Instr.hostLinkDown p ∨ c = Instr.refclkLoss p → Completes c s fun t =>
        t.linkUp p = false ∧ (t.port p).cfgReady = false ∧ (t.port p).d3 = false ∧ (t.port p).cxlWin = none ∧ (t.port p).numVfs = 0 ∧
        t.decodes p = false ∧ (∀ q : Nat, q < 4 → q ≠ p → t.port q = s.port q)) ∧
    (s.linkUp p = false → exec (.hostLinkDown p) s = .next s ∧ exec (.refclkLoss p) s = .next s) ∧
    (s.flag (P.hpt p) F.HPT_LINK_STS_perst = false → s.tenantsOnPort p = [] → Completes (.perstAssert p) s fun t =>
      t.flag (P.hpt p) F.HPT_LINK_STS_perst = true ∧ (t.port p).perst = true ∧ t.linkUp p = false ∧ (t.port p).numVfs = 0 ∧
      (t.port p).cfgReady = false ∧ t.fn p = { FnSt.reset with pba := (s.fn p).pba } ∧ t.hmpPend = [] ∧
      (∀ a, t.hmp.rd a = if (4024 + 16 * p.val) * 65536 ≤ a ∧ a < (4040 + 16 * p.val) * 65536 then 0 else s.landAll.hmp.rd a) ∧
      t.stores = s.stores ∧ t.slices = s.slices) ∧
    (s.flag (P.hpt p) F.HPT_LINK_STS_perst = true → (s.port p).railBad = false → Completes (.perstDeassert p) s fun t =>
      t.flag (P.hpt p) F.HPT_LINK_STS_perst = false ∧ (t.port p).perst = false ∧ s.sameRegs t [fkey (P.hpt p) F.HPT_LINK_STS_perst] ∧ s.sameBytes t) ∧
    (s.flag (P.hpt p) F.HPT_LINK_STS_perst = true → (s.port p).railBad = true → Completes (.perstDeassert p) s fun t =>
      t.flag (P.hpt p) F.HPT_LINK_STS_perst = true ∧ s.sameRegs t []) ∧
    (s.linkUp p = true → s.devFailed = true → exec (.d3hotEnter p) s = .next (s.emit (.configAbort p)) ∧
      exec (.d0Return p) s = .next (s.emit (.configAbort p)) ∧ exec (.vfEnableClear p) s = .next (s.emit (.configAbort p)) ∧
      exec (.functionLevelReset (.pf p)) s = .next (s.emit (.configAbort p))) ∧
    (s.linkUp p = true → s.devFailed = false → Completes (.d3hotEnter p) s fun t => t = s.setPort p { s.port p with d3 := true }) ∧
    (s.linkUp p = false → exec (.d3hotEnter p) s = .next s) ∧
    (s.devFailed = false → (s.port p).d3 = true → s.tenantsOnPort p = [] → s.boot.pushHeld = false → Completes (.d0Return p) s fun t => t = s.setPort p { s.port p with d3 := false }) ∧
    (s.devFailed = false → (s.port p).d3 = true → s.tenantsOnPort p = [] → s.owner = p → s.boot.pushHeld = true →
      s.flag P.boot F.BOOT_PUSH_CTL_go = true → Completes (.d0Return p) s fun t => (t.port p).d3 = false ∧ t.boot.pushHeld = false ∧
        t.outs = .dmaRead p none (s.fld64 P.boot F.BOOT_PUSH_ADDR_LO_addr F.BOOT_PUSH_ADDR_HI_addr / 4096 * 4096)
          (s.fld P.boot F.BOOT_PUSH_LEN_len) :: s.outs ∧ s.sameBytes t) ∧
    (s.devFailed = false → (s.port p).d3 = false → exec (.d0Return p) s = .next s)) ∧
  (∀ (s : State) (p : Fin 4) (v : Fin 64),
    (s.devFailed = false → s.tenantsOnPort p = [] →
      (s.linkUp p = true → (s.port p).numVfs = 0 → Completes (.functionLevelReset (.pf p)) s fun t =>
        t = (s.fnReset p).setPort p { s.port p with d3 := false }) ∧
      (s.linkUp p = true → (s.port p).numVfs ≠ 0 → Completes (.functionLevelReset (.pf p)) s fun t =>
        t.fn p = { FnSt.reset with pba := (s.fn p).pba } ∧ t.port p = { s.port p with d3 := false, numVfs := 0 } ∧
        (∀ u : Nat, u < 64 → t.fn (4 + 64 * p + u) = { FnSt.reset with pba := (s.fn (4 + 64 * p + u)).pba }) ∧ s.sameRegs t [] ∧ s.sameBytes t) ∧
      ((s.port p).numVfs ≠ 0 → Completes (.vfEnableClear p) s fun t =>
        t.port p = { s.port p with numVfs := 0 } ∧ (∀ u : Nat, u < 64 → t.fn (4 + 64 * p + u) = { FnSt.reset with pba := (s.fn (4 + 64 * p + u)).pba }) ∧
        s.sameRegs t [] ∧ s.sameBytes t)) ∧
    (s.devFailed = false → (s.port p).numVfs = 0 → exec (.vfEnableClear p) s = .next s) ∧
    (s.devFailed = false → s.linkUp p = true → v.val < (s.port p).numVfs → (∀ n, n < 128 → s.bound n = true → s.tnFn n ≠ fnNum (.vf p v)) →
      Completes (.functionLevelReset (.vf p v)) s fun t => t = s.fnReset (fnNum (.vf p v))) ∧
    (s.devFailed = false → s.linkUp p = true → (s.port p).numVfs ≤ v.val → exec (.functionLevelReset (.vf p v)) s = .next s) ∧
    (∀ (fn : FnId) (vec : Fin 32) k, k = fnNum fn →
      (bitOf (s.fn k).pba vec = true → s.deliverable k vec = true → s.srcPending k vec = true → Completes (.msixPendingSend fn vec) s fun t =>
        t.outs = .msix k vec :: s.outs ∧ bitOf (t.fn k).pba vec = false ∧ s.sameRegs t [] ∧ s.sameBytes t) ∧
      (bitOf (s.fn k).pba vec = false ∨ s.deliverable k vec = false → exec (.msixPendingSend fn vec) s = .next s)) ∧
    (s.linkUp p = true → s.devFailed = true → s.hubOff = false → (s.port p).d3 = false → ∀ off,
      exec (.cxlMemAccess p off .read) s = .next (s.emit (.abort (0x80 + p.val))) ∧ ∀ data ep, exec (.cxlMemAccess p off (.write data ep)) s = .next s) ∧
    (s.linkUp p = true → s.devFailed = false → s.hubOff = false → (s.port p).d3 = false →
      ∀ q b n (off : BitVec 37) o, (s.port p).cxlWin = some (q, b, n) → o = off.toNat / 64 * 64 → o < n →
      (s.ptState q ≠ 3 → ∀ r, r = s.placeRead (s.poolPlace q (b + o)) 64 → 
        exec (.cxlMemAccess p off .read) s = .next ((s.placeCount (s.poolPlace q (b + o)) 64).emit (.cxl p r.1 r.2))) ∧
      (s.ptState q = 3 → exec (.cxlMemAccess p off .read) s = .next (s.emit (.cxl p (List.replicate 64 0) true)) ∧
        ∀ data ep, exec (.cxlMemAccess p off (.write data ep)) s = .next s) ∧
      (∀ data ep x a, s.ptState q ≠ 3 → s.poolPlace q (b + o) = .dram x a → s.fenced (x / 64) = false → s.sliceServes x = true →
        Completes (.cxlMemAccess p off (.write data ep)) s fun t => t.slices = s.slices.write (skey x a) data ep ∧ t.hmp = s.hmp ∧ t.stores = s.stores ∧
          bitOf t.transit p = true)) ∧
    (s.vclkLost = false → (∀ i, i < 64 → s.vcOn i = false) → Completes .vclkLoss s fun t => t.vclkLost = true ∧ (∀ n, n < 4 → t.engine n = 3) ∧ s.sameBytes t) ∧
    (s.vclkLost = true → exec .vclkLoss s = .next s) ∧
    (∀ c, s.devFailed = false → s.trail.queue.length < 16 → Completes (.hubClockLoss c) s fun t => t.devFailed = true ∧
      t.trail.queue.length = s.trail.queue.length + 1 ∧ s.sameBytes t ∧ s.sameRegs t [fkey P.trl F.TRL_STS_busy]) ∧
    (∀ c, s.devFailed = true → exec (.hubClockLoss c) s = .next s))

/-- Training and retrains: a run that fails leaves both ends DOWN for good, one that works makes them ACTIVE with fresh sequences (and sends on what waits at their tiles); a retrain drains first. No partition runs on the device where a bridge link changes state, since a lost route would fault it. -/
def Obligations.LinkStateResults : Prop :=
  ∀ (s : State) (t : Fin 8) (d : Fin 4) (k e : Nat), k = 4 * t + d → farEnd k = some e → (∀ p, p < 8 → s.ptState p ≠ 2 ∧ s.ptState p ≠ 3) →
    ∀ idle : Prop, (idle ↔ ∀ y, y < 32 → y / 4 = k / 4 ∨ y / 4 = e / 4 → (s.lend y).rxq = []) →
    (∀ r : TrainIn, s.eState k = 1 ∨ s.eState k = 2 → (s.lend k).failed = false → s.mayTrain k = true → s.trainTime k = true →
      (r.deskewOk = false → Completes (.linkTraining (.bridge t d) r) s fun u => u.eState k = 1 ∧ u.eState e = 1 ∧
        (u.lend k).failed = true ∧ (u.lend e).failed = true) ∧
      (r.deskewOk = true → s.fld (endPg k) F.LNK_WIRE_MAP_tx_spares_used + r.badTx ≤ 32 → s.fld (endPg k) F.LNK_WIRE_MAP_rx_spares_used + r.badRx ≤ 32 →
        r.site.toNat = e / 4 → r.siteBack.toNat = k / 4 → Completes (.linkTraining (.bridge t d) r) s fun u => u.eState k = 3 ∧ u.eState e = 3 ∧
          (idle → u.txSeq k = 0 ∧ u.rxExp k = 0 ∧ u.txSeq e = 0 ∧ u.rxExp e = 0 ∧ ∀ y, y = k ∨ y = e → (u.lend y).replay = [] ∧
            (u.lend y).replays = 0 ∧ (u.lend y).pendA = none ∧ (u.lend y).lastAcc = none ∧ (u.lend y).failed = false ∧ (u.lend y).credit = [32, 32, 32]))) ∧
    (∀ r : TrainIn, (s.eState k ≠ 1 ∧ s.eState k ≠ 2) ∨ (s.lend k).failed = true ∨ s.mayTrain k = false ∨ s.trainTime k = false →
      exec (.linkTraining (.bridge t d) r) s = .next s) ∧
    (s.eState k = 4 → (s.lend k).replay = [] → (s.lend e).replay = [] →
      ((s.lend k).drainRetrain = true → (s.lend e).drainRetrain = true →
        Completes (.linkDrainDone (.bridge t d)) s fun u => u.eState k = 5 ∧ u.eState e = 5) ∧
      ((s.lend k).drainRetrain = false → Completes (.linkDrainDone (.bridge t d)) s fun u => u.eState k = 1 ∧ u.eState e = 1)) ∧
    (s.eState k = 4 → (s.lend k).replay ≠ [] ∨ (s.lend e).replay ≠ [] → exec (.linkDrainDone (.bridge t d)) s = .next s) ∧
    (∀ r : TrainIn, s.eState k = 5 → r.deskewOk = true → s.fld (endPg k) F.LNK_WIRE_MAP_tx_spares_used + r.badTx ≤ 32 →
      s.fld (endPg k) F.LNK_WIRE_MAP_rx_spares_used + r.badRx ≤ 32 →
      Completes (.linkRetrainDone (.bridge t d) r) s fun u => u.eState k = 3 ∧ u.eState e = 3 ∧ (idle → u.txSeq k = 0 ∧ u.rxExp k = 0)) ∧
    (∀ r : TrainIn, s.eState k = 5 → r.deskewOk = false → exec (.linkRetrainDone (.bridge t d) r) s = .next s) ∧
    ((s.eState k = 4 ∧ (s.lend k).drainRetrain = true) ∨ s.eState k = 5 → Completes (.linkRetrainTimeout (.bridge t d)) s fun u =>
      u.eState k = 1 ∧ u.eState e = 1 ∧ u.fld (endPg k) F.LNK_CTL_retrain = 0 ∧ (u.lend k).failed = true) ∧
    (s.eState k = 4 → (s.lend k).drainRetrain = false → exec (.linkRetrainTimeout (.bridge t d)) s = .next s) ∧
    (s.eState k = 3 → max 1 (s.fld (endPg k) F.LNK_CTL_replay_limit) ≤ (s.lend k).replays →
      Completes (.replayLimitReached (.bridge t d)) s fun u => u.eState k = 4 ∧ u.eState e = 4 ∧ (u.lend k).drainRetrain = true ∧ (u.lend k).replay = (s.lend k).replay) ∧
    ((s.lend k).replays < max 1 (s.fld (endPg k) F.LNK_CTL_replay_limit) → exec (.replayLimitReached (.bridge t d)) s = .next s)

/-- A bundle's training, FEC retrain and loss (R27, R40, R46). -/
def Obligations.BundleStateResults : Prop :=
  ∀ (s : State) (t : Fin 8),
    (∀ r : TrainIn, s.eState (32 + t) = 1 ∨ s.eState (32 + t) = 2 → (s.lend (32 + t)).failed = false → s.mayTrain (32 + t) = true →
      s.trainTime (32 + t) = true →
      (r.deskewOk = false → (s.lend (32 + t)).tries < 2 → Completes (.linkTraining (.bundle t) r) s fun u =>
        u.eState (32 + t) = 1 ∧ (u.lend (32 + t)).tries = (s.lend (32 + t)).tries + 1) ∧
      (r.deskewOk = false → (s.lend (32 + t)).tries = 2 → s.ready = false → (∀ p, p < 8 → s.ptState p ≠ 2 ∧ s.ptState p ≠ 3) →
        s.findRst 4 t = none → Completes (.linkTraining (.bundle t) r) s fun u =>
          u.fenced t = true ∧ u.fld P.boot F.BOOT_ERR_code = 0x0A ∧ u.fld P.boot F.BOOT_ERR_detail = t) ∧
      (r.deskewOk = true → r.lanesTx = 0xFFFF → r.lanesRx = 0xFFFF → ∀ id, id = s.tileIdent t r →
      (s.strapCode t id.1 id.2 = 0 → Completes (.linkTraining (.bundle t) r) s fun u =>
        u.eState (32 + t) = 3 ∧ u.eState (40 + t) = 3 ∧ u.flag (P.tile t) F.TILE_STS_trained = true ∧
        u.fld (P.serHub t) F.SER_STRAP_site_id = id.1 ∧ u.fld (P.serTile t) F.SER_STRAP_pkg_build = id.2 ∧
        u.flag (P.serTile t) F.SER_STS_tx_half = false ∧ u.txSeq (32 + t) = 0 ∧ u.rxExp (40 + t) = 0) ∧
      (∀ c, s.strapCode t id.1 id.2 = c → c ≠ 0 → s.ready = false → Completes (.linkTraining (.bundle t) r) s fun u =>
        u.eState (32 + t) = 1 ∧ u.fld (P.serHub t) F.SER_STRAP_conflict = c ∧ u.flag P.boot F.BOOT_STS_failed = true ∧
        u.fld P.boot F.BOOT_ERR_code = 1 ∧ u.fld P.boot F.BOOT_ERR_detail = c))) ∧
    (∀ (hub : Bool) k, k = (if hub then 40 else 32) + t.val → s.eState k = 3 → s.fld (endPg k) F.SER_CTL_fec_thresh < (s.lend k).fecSum →
      s.now < (s.lend k).fecAt + 1000000 → Completes (.fecThresholdExceeded t hub) s fun u =>
      u.eState (32 + t) = 4 ∧ u.eState (40 + t) = 4 ∧ (u.lend (32 + t)).drainRetrain = true ∧ s.sameBytes u) ∧
    (∀ (hub : Bool) k, k = (if hub then 40 else 32) + t.val →
      s.eState k ≠ 3 ∨ (s.lend k).fecSum ≤ s.fld (endPg k) F.SER_CTL_fec_thresh ∨ (s.lend k).fecAt + 1000000 ≤ s.now →
      exec (.fecThresholdExceeded t hub) s = .next s) ∧
    (∀ c, s.fenced t = false → s.ptsOnTile t = [] → s.findRst 4 t = none → (∀ p, p < 8 → s.ptState p ≠ 2 ∧ s.ptState p ≠ 3) →
      Completes (.tileLost t c) s fun u => u.fenced t = true ∧ u.eState (32 + t) = 6 ∧ u.flag (P.pwrT t) F.PWR_T_STS_reg_on = false ∧
        ∀ cl, cl / 8 = t.val → u.fld (P.clu cl) F.CLU_MAP_online = 0) ∧
    (∀ c, s.fenced t = true → exec (.tileLost t c) s = .next s) ∧
    (∀ (rq : Requester) (hub : Bool) pg, pg = (if hub then P.serHub t else P.serTile t) → s.grants rq pg = true →
      (s.flag pg F.PG_LOCK_locked = false → Completes (.serEnable rq t hub true) s fun u => u = s.setFld pg F.SER_CTL_enable 1) ∧
      (s.flag pg F.PG_LOCK_locked = true → s.fld pg F.SER_CTL_enable ≠ 1 →
        exec (.serEnable rq t hub true) s = .next (s.countErr pg 0x03 (rqCode rq) (accessAddr rq pg 0x040))) ∧
      (s.flag pg F.PG_LOCK_locked = false → exec (.serEnable rq t hub false) s = .next ((s.setFld pg F.SER_CTL_enable 0).tileLost t .disabled)))

/-- Reception, acknowledgement and replay (R29-R35): what a burst, a flit, an acknowledgement and the timers leave and send. Control writes of the links and the switch of a route (R37, R39, R40, R49; 03 R59). -/
def Obligations.LinkTrafficAndControl : Prop :=
  (∀ (s : State) (t : Fin 8) (d : Fin 4),
    (∀ k, k = 4 * t.val + d.val → s.carries k = true →
      (∀ b : Burst, b.bv = true → b.hm = false → (s.lend k).pendA = none → Completes (.bridgeBurstReceive t d b) s fun u =>
        u = s.setLend k { s.lend k with pendA := some b }) ∧
      (∀ (a b : Burst) q vc, b.bv = true → b.hm = true → (s.lend k).pendA = some a → a.seq = b.seq → q = a.seq.toNat → q = s.rxExp k → vc = a.vc.toNat →
        burstCrc (a.data ++ b.data) q vc = 2 ^ 16 * a.crcHalf.toNat + b.crcHalf.toNat → s.rxRoom k vc = true → (s.lend k).accSince < 7 →
        (a.dst = t → Completes (.bridgeBurstReceive t d b) s fun u =>
          u.outs = .credit k vc :: .deliver k vc (a.data ++ b.data) :: s.outs ∧ u.rxExp k = (q + 1) % 256 ∧
          (u.lend k).pendA = none ∧ (u.lend k).lastAcc = some q ∧ (u.lend k).accSince = (s.lend k).accSince + 1 ∧ s.sameBytes u) ∧
        (∀ e, a.dst ≠ t → (∀ y, y < 32 → y / 4 = k / 4 → (s.lend y).rxq = []) → fwdEnd k ⟨vc, a.src, a.dst, a.data ++ b.data⟩ = some e → e ≠ k →
          s.canSend e vc = true → Completes (.bridgeBurstReceive t d b) s fun u =>
            u.outs = .credit k vc :: .flit e (s.txSeq e) :: s.outs ∧ u.rxExp k = (q + 1) % 256 ∧ u.txSeq e = (s.txSeq e + 1) % 256 ∧
            (u.lend e).replay = (s.lend e).replay ++ [⟨s.txSeq e, vc, a.data ++ b.data⟩] ∧ (u.lend k).rxq = [] ∧ s.sameBytes u)) ∧
      (∀ (a b : Burst), b.bv = true → b.hm = true → (s.lend k).pendA = some a → a.seq ≠ b.seq →
        exec (.bridgeBurstReceive t d b) s = .next (s.halfErr k)) ∧
      (∀ b : Burst, b.bv = true → b.hm = true → (s.lend k).pendA = none → exec (.bridgeBurstReceive t d b) s = .next (s.halfErr k)) ∧
      (∀ b : Burst, b.bv = false → exec (.bridgeBurstReceive t d b) s = .next s)) ∧
    (∀ (hub : Bool) k (f : BundleFlit), k = (if hub then 40 else 32) + t.val → s.carries k = true →
      (flitFixable f = false → exec (.bundleFlitReceive t hub f) s =
        .next (((s.fecCount k 0).satFld (endPg k) F.SER_CNT_fec_uncorr 1).serCrcErr k)) ∧
      (∀ h, h = leAt (flitBytes f) 0 4 → flitFixable f = true →
        linkCrc (byteBits (slice (flitBytes f) 0 232)) ≠ leAt (flitBytes f) 232 4 ∨ 7 ≤ bits h 0 4 →
        exec (.bundleFlitReceive t hub f) s = .next ((s.fecCount k (flitCorrected f)).serCrcErr k)) ∧
      (∀ h, h = leAt (flitBytes f) 0 4 → flitFixable f = true →
        linkCrc (byteBits (slice (flitBytes f) 0 232)) = leAt (flitBytes f) 232 4 → bits h 0 4 < 7 → bits h 24 2 = 0 →
        bits h 4 10 = s.rxExp k → (s.lend k).accSince < 7 → Completes (.bundleFlitReceive t hub f) s fun u =>
          u.outs = .deliver k (bits h 0 4) (slice (flitBytes f) 4 228) :: s.outs ∧ u.rxExp k = (s.rxExp k + 1) % 1024)) ∧
    (∀ (e : LinkEndId) k, k = endKey e → s.carries k = true →
      (∀ w : AckWord, w.parityOk = true → isSer k = true ∨ (∀ y, y / 4 = k / 4 → (s.lend y).rxq = []) →
        ∀ i, (s.lend k).replay.findIdx? (fun f => f.seq == w.seq % seqMod k) = some i →
        (w.typ = .nak → Completes (.ackNakReceive e w) s fun u => (u.lend k).replay = (s.lend k).replay.drop i ∧
          u.outs = (((s.lend k).replay.drop i).map fun f => Out.flit k f.seq).reverse ++ s.outs ∧ (∀ j, j ≠ k → u.lend j = s.lend j)) ∧
        (w.typ = .ack → Completes (.ackNakReceive e w) s fun u => (u.lend k).replay = (s.lend k).replay.drop (i + 1) ∧ (u.lend k).replays = 0 ∧ u.outs = s.outs ∧
          (∀ j, j ≠ k → u.lend j = s.lend j))) ∧
      (∀ w : AckWord, w.typ = .none → isSer k = true → exec (.ackNakReceive e w) s = .next s) ∧
      (∀ w : AckWord, w.parityOk = false → exec (.ackNakReceive e w) s = .next s) ∧
      ((s.lend k).replay ≠ [] → Completes (.replayTimerExpiry e) s fun u => (u.lend k).replay = (s.lend k).replay ∧
        (u.lend k).replays = (s.lend k).replays + 1 ∧ u.outs = ((s.lend k).replay.map fun f => Out.flit k f.seq).reverse ++ s.outs) ∧
      (∀ q, (s.lend k).lastAcc = some q → (s.lend k).accSince ≠ 0 → Completes (.ackIntervalTimer e) s fun u =>
        u.outs = .ack k false q :: s.outs ∧ (u.lend k).accSince = 0) ∧
      ((s.lend k).accSince = 0 → exec (.ackIntervalTimer e) s = .next s) ∧
      (k < 32 → exec (.keepAliveSend e) s = .next (s.emit (.keepAlive k))) ∧
      (32 ≤ k → s.eState k = 3 → (s.lend k).replay.length < 256 → Completes (.keepAliveSend e) s fun u =>
        u.outs = .keepAlive k :: .flit k (s.txSeq k) :: s.outs ∧ u.txSeq k = (s.txSeq k + 1) % 1024 ∧
        (u.lend k).replay = (s.lend k).replay ++ [⟨s.txSeq k, 0, []⟩]) ∧
      (32 ≤ k → s.eState k ≠ 3 ∨ 256 ≤ (s.lend k).replay.length → exec (.keepAliveSend e) s = .next s) ∧
      (Completes (.linkWatchdogExpiry e) s fun u => .clockLoss (farTile k) ∈ u.outs ∧ s.sameBytes u)) ∧
    (∀ (e : LinkEndId), s.carries (endKey e) = false → exec (.keepAliveSend e) s = .next s ∧ exec (.replayTimerExpiry e) s = .next s) ∧
    (∀ x : Fin 512, Completes (.dclkLossReport x) s fun u => .clockLoss (x / 64) ∈ u.outs ∧ s.sameBytes u)) ∧
  (∀ (s : State) (t : Fin 8) (d : Fin 4) (rq : Requester) (k pg : Nat), k = 4 * t + d → pg = P.lnk t d →
    (s.grants rq pg = true →
      (∀ e, farEnd k = some e → s.eState k = 3 → Completes (.lnkRetrain rq t d) s fun u =>
        u.eState k = 4 ∧ u.eState e = 4 ∧ u.fld pg F.LNK_CTL_retrain = 1 ∧ (u.lend k).drainRetrain = true ∧ s.sameBytes u) ∧
      (s.eState k = 4 ∨ s.eState k = 5 → exec (.lnkRetrain rq t d) s = .next (s.setFld pg F.LNK_CTL_retrain 1)) ∧
      (s.flag pg F.PG_LOCK_locked = false →
        (∀ e, farEnd k = some e → s.eState k = 3 → Completes (.lnkForceDown rq t d true) s fun u =>
          u.fld pg F.LNK_CTL_force_down = 1 ∧ u.eState k = 4 ∧ u.eState e = 4 ∧ (u.lend k).drainRetrain = false) ∧
        (exec (.lnkForceDown rq t d false) s = .next (s.setFld pg F.LNK_CTL_force_down 0)) ∧
        (s.eState k ≠ 1 → exec (.lnkEnable rq t d true) s = .next (s.setFld pg F.LNK_CTL_enable 1)) ∧
        (∀ u, u = s.setFld pg F.LNK_CTL_enable 1 → s.eState k = 1 → u.mayTrain k = true → (s.lend k).failed = false → Completes (.lnkEnable rq t d true) s fun v =>
          v.fld pg F.LNK_CTL_enable = 1 ∧ v.eState k = 2)) ∧
      (s.flag pg F.PG_LOCK_locked = true → ∀ v : Bool, s.fld pg F.LNK_CTL_force_down ≠ b2n v →
        exec (.lnkForceDown rq t d v) s = .next (s.countErr pg 0x03 (rqCode rq) (accessAddr rq pg 0x040))) ∧
      (Completes (.lnkClrCnt rq t d) s fun u =>
        u.fld pg F.LNK_CNT0_replay_cnt = 0 ∧ u.fld pg F.LNK_CNT0_crc_err_cnt = 0 ∧ u.fld pg F.LNK_CNT1_half_err_cnt = 0 ∧ u.fld pg F.LNK_CNT1_dup_drop_cnt = 0 ∧
        s.sameRegs u [fkey pg F.LNK_CNT0_replay_cnt, fkey pg F.LNK_CNT0_crc_err_cnt, fkey pg F.LNK_CNT1_half_err_cnt, fkey pg F.LNK_CNT1_dup_drop_cnt])) ∧
    (∀ (hub : Bool) sp, sp = (if hub then P.serHub t else P.serTile t) → s.grants rq sp = true →
      (s.eState ((if hub then 40 else 32) + t) = 3 → Completes (.serRetrain rq t hub) s fun u =>
        u.eState (32 + t) = 4 ∧ u.eState (40 + t) = 4 ∧ u.fld sp F.SER_CTL_retrain = 1) ∧
      (Completes (.serClrCnt rq t hub) s fun u =>
        u.fld sp F.SER_CNT_fec_corr = 0 ∧ u.fld sp F.SER_CNT_fec_uncorr = 0 ∧ u.fld sp F.SER_CNT_replay_cnt = 0 ∧
        s.sameRegs u [fkey sp F.SER_CNT_fec_corr, fkey sp F.SER_CNT_fec_uncorr, fkey sp F.SER_CNT_replay_cnt])) ∧
    (∀ v : Fin 8, (∀ r, Tab.get hold0 s.routeHold (8 * t + v) = some r → r < 16 → s.requestsOut t v = false → Completes (.routeSwitchResume t v) s fun u =>
        u.routeNow t v = r ∧ Tab.get hold0 u.routeHold (8 * t + v) = none ∧ s.sameRegs u [fkey (P.serTile t) (F.SER_ROUTE_route v)]) ∧
      (Tab.get hold0 s.routeHold (8 * t + v) = none ∨ s.requestsOut t v = true → exec (.routeSwitchResume t v) s = .next s)))

/-- HUB_RST_CMD and the phases of a core reset: what the command records, refusals, a busy command and one in a cooling shutdown (16 R384), the absorb point, the restart, the release with its result. -/
def Obligations.ResetResults : Prop :=
  ∀ (s : State) (rq : Requester) (target : Fin 512) (x : Nat), x = s.physOf target →
    (s.grants rq (P.hub 2) = true → ∀ r : Nat → Rst, (∀ k, r k = ⟨k, target, s.now, false, false, false, 0, false⟩) →
      (s.inShutdown = true → ∀ c, c = Instr.coreReset rq target ∨ c = Instr.clusterReset rq target ∨ c = Instr.tileReset rq target → exec c s = .next s) ∧
      (s.inShutdown = false → s.flag (P.hub 2) F.HUB_RST_CMD_go = true →
        ∀ c, c = Instr.coreReset rq target ∨ c = Instr.clusterReset rq target ∨ c = Instr.tileReset rq target →
          exec c s = .next (s.countErr (P.hub 2) 0x40 (rqCode rq) (accessAddr rq (P.hub 2) 0x040))) ∧
      (s.inShutdown = false → s.flag (P.hub 2) F.HUB_RST_CMD_go = false →
        (target.val < 448 → s.online target = true → (∀ a ∈ s.rsts, s.rstCovers a (r 1) = false) → s.jobsWhere (fun j => j.ranks.contains x) = [] →
          Completes (.coreReset rq target) s fun t => RstAccepted s t (r 1) ∧ (s.coreSt x = 1 ∨ s.coreSt x = 2 ∨ s.coreSt x = 3 → t.coreSt x = 0)) ∧
        (448 ≤ target.val ∨ s.online target = false → Completes (.coreReset rq target) s fun t =>
          t.fld (P.hub 2) F.HUB_RST_STS_result = 1 ∧ t.flag (P.hub 2) F.HUB_RST_CMD_go = false ∧ t.rsts = s.rsts ∧ s.sameBytes t) ∧
        (target.val < 64 → s.fenced (target / 8) = false → (∀ a ∈ s.rsts, s.rstCovers a (r 2) = false) →
          s.jobsWhere (fun j => j.ranks.any (· / 8 == target.val)) = [] → Completes (.clusterReset rq target) s fun t => RstAccepted s t (r 2) ∧
            ∀ y, y / 8 = target.val → (s.coreSt y = 1 ∨ s.coreSt y = 2 ∨ s.coreSt y = 3) → t.coreSt y = 0) ∧
        (target.val < 8 → (∀ a ∈ s.rsts, s.rstCovers a (r 4) = false) → s.ptsOnTile target = [] →
          Completes (.tileReset rq target) s fun t => RstAccepted s t (r 4)))) ∧
    (∀ r, s.findRst 1 target = some r → r.absorbed = false → s.jobsWhere (fun j => j.ranks.contains x) = [] →
      Completes (.resetAbsorbPoint 1 target) s fun t => t.core x = Core.reset ∧ t.coreSt x = 0 ∧ (∃ r' ∈ t.rsts, r'.scope = 1 ∧ r'.target = target ∧ r'.absorbed = true) ∧
        ∀ o, o < 0x100000 → t.stores.rd (stoKey x o) = 0) ∧
    (∀ (k : Fin 8) r, s.findRst k target = some r → r.absorbed = true → exec (.resetAbsorbPoint k target) s = .next s) ∧
    (∀ r, s.findRst 1 target = some r → r.absorbed = true → r.rebuilt = false → (s.logicalOf x).isSome = true →
      Completes (.resetRestore 1 target) s fun t => t.coreSt x = 1 ∧ { r with rebuilt := true } ∈ t.rsts) ∧
    (∀ r, s.findRst 1 target = some r → r.absorbed = true → r.rebuilt = true → s.coreSt x ≠ 1 → s.flag (P.hub 2) F.HUB_RST_CMD_go = true →
      s.hubRst = (1, target.val) →
      Completes (.resetRestore 1 target) s fun t => r ∉ t.rsts ∧ t.flag (P.hub 2) F.HUB_RST_CMD_go = false ∧ t.flag (P.hub 2) F.HUB_RST_STS_busy = false ∧
        t.fld (P.hub 2) F.HUB_RST_STS_result = 0 ∧ t.fld (P.hub 2) F.HUB_RST_LAST_scope = 1) ∧
    (∀ k : Fin 8, s.findRst k target = none → exec (.resetAbsorbPoint k target) s = .next s ∧ exec (.resetRestore k target) s = .next s)

/-- PT_CMD (R332, R333, R340): BUILD runs the checks and then the layout, RESET quiesces, DISSOLVE needs an empty partition; an operation in the wrong state answers STATE, one during another changes its result alone, and a cooling shutdown ignores a reset (16 R384). -/
def Obligations.PartitionResults : Prop :=
  ∀ (s : State) (rq : Requester) (p : Fin 8), s.grants rq (P.pt p) = true →
    (s.flag (P.pt p) F.PT_CMD_go = true → ∀ c, c = Instr.partitionBuild rq p ∨ c = Instr.partitionReset rq p ∨ c = Instr.partitionDissolve rq p →
      exec c s = .next (s.setFld (P.pt p) F.PT_STS_result 4)) ∧
    (s.flag (P.pt p) F.PT_CMD_go = false →
      (s.ptState p ≠ 0 → Completes (.partitionBuild rq p) s fun t => t.fld (P.pt p) F.PT_STS_result = 4 ∧ t.flag (P.pt p) F.PT_CMD_go = false ∧
        t.ptState p = s.ptState p ∧ s.sameBytes t) ∧
      (s.ptState p = 0 → ∀ r, s.ptCheck p = some r → Completes (.partitionBuild rq p) s fun t => t.fld (P.pt p) F.PT_STS_result = r ∧
        t.flag (P.pt p) F.PT_CMD_go = false ∧ t.ptState p = 0 ∧ s.sameBytes t) ∧
      (s.ptState p = 0 → s.ptCheck p = none → ∀ u, u = (((s.setFld (P.pt p) F.PT_CMD_op 1).setFlag (P.pt p) F.PT_CMD_go true).setPtState p 1) →
        (u.ptTested p = true → exec (.partitionBuild rq p) s = .next u) ∧
        (∀ w, u.ptTested p = false → u.ptCheck p = none → u.rebuild p true false = (w, true) → Completes (.partitionBuild rq p) s fun t =>
          t.ptState p = 2 ∧ t.fld (P.pt p) F.PT_STS_result = 0 ∧ t.flag (P.pt p) F.PT_CMD_go = false ∧ t.pm p = w.pm p)) ∧
      (s.inShutdown = true → exec (.partitionReset rq p) s = .next (s.setFld (P.pt p) F.PT_CMD_op 2)) ∧
      (s.inShutdown = false → s.ptState p = 2 → (∀ a ∈ s.rsts, s.rstCovers a ⟨3, p, s.now, false, false, false, 0, false⟩ = false) → s.tenantsOf p = [] →
        s.jobsWhere (fun j => j.part == p.val) = [] → (∀ h, h < 16 → s.hpcGranted h = false) →
        Completes (.partitionReset rq p) s fun t => t.ptState p = 3 ∧ t.flag (P.pt p) F.PT_CMD_go = true ∧
          bitOf (t.fld (P.disp 0) F.DISP_STS_paused) p = true ∧ ⟨3, p, s.now, false, false, false, 0, false⟩ ∈ t.rsts) ∧
      (s.inShutdown = false → s.ptState p = 0 ∨ s.ptState p = 1 → Completes (.partitionReset rq p) s fun t => t.fld (P.pt p) F.PT_STS_result = 4 ∧
        t.flag (P.pt p) F.PT_CMD_go = false ∧ t.ptState p = s.ptState p ∧ t.rsts = s.rsts) ∧
      (s.ptState p = 2 ∨ s.ptState p = 4 →
        (s.mayDissolve p = true → Completes (.partitionDissolve rq p) s fun t => t.ptState p = 0 ∧ t.fld (P.pt p) F.PT_STS_result = 0 ∧
          t.flag (P.pt p) F.PT_CMD_go = false ∧ t.fld (P.hmp 2) (F.HMP_PT_BUDGET_budget p) = 0 ∧ t.pm p = PartMem.none) ∧
        (s.mayDissolve p = false → Completes (.partitionDissolve rq p) s fun t => t.ptState p = s.ptState p ∧ t.fld (P.pt p) F.PT_STS_result = 5 ∧
          t.flag (P.pt p) F.PT_CMD_go = false ∧ t.pm p = s.pm p ∧ s.sameBytes t)))

/-- Doorbells, head writes, the coalescing timer, a failed completion write, and the configuration of a queue pair. Fetching a descriptor, and the descriptors that only complete (R136, R140): the head moves, a good descriptor waits, a fence or a NOP at the head of its queue completes with an entry that carries its tag and status OK. -/
def Obligations.QueuesAndDescriptors : Prop :=
  (∀ (s : State) (rq : Requester) (n : Fin 128) (q : Fin 8) (pg : Nat), pg = P.queue n q →
    (s.grantsTen rq n (q.val + 1) = true →
      (∀ v : BitVec 16, s.takesBells n q = true → ∀ d, d = sub16 v.toNat (s.sqTail n q) →
        (1 ≤ d → d ≤ s.sqFree n q → Completes (.doorbell rq n q v) s fun t => t.sqTail n q = v.toNat ∧ t.sqHead n q = s.sqHead n q ∧ t.stores = s.stores) ∧
        (d = 0 → Completes (.doorbell rq n q v) s fun t => t.sqTail n q = s.sqTail n q)) ∧
      (∀ v, s.takesBells n q = false → exec (.doorbell rq n q v) s = .next s) ∧
      (∀ v : BitVec 16, s.qState n q = 1 ∨ s.qState n q = 3 → s.tnState n ≠ 3 → ∀ d, d = sub16 v.toNat (s.cqHead n q) → d ≤ s.cqOut n q →
        (d = 0 → exec (.cqHeadWrite rq n q v) s = .next s) ∧
        (1 ≤ d → (s.queue n q).heldReport = [] → (s.queue n q).ended = [] → (s.ten n).cancel = none →
          exec (.cqHeadWrite rq n q v) s = .next (s.setFld pg F.Q_CQ_HEAD_count v.toNat))) ∧
      (∀ (cfg : Word) u, s.flag pg F.Q_SQ_CFG_enable = false →
        u = (((((s.setFld pg F.Q_SQ_CFG_priority (bits cfg.toNat 5 2)).setFld pg F.Q_SQ_CFG_log2_size (bits cfg.toNat 1 4)).setFld pg
          F.Q_SQ_CFG_ordered (bits cfg.toNat 7 1)).setFld pg F.Q_SQ_CFG_dup_en (bits cfg.toNat 8 1)).setFld pg F.Q_SQ_CFG_base (bits cfg.toNat 11 17)).setFlag pg
          F.Q_SQ_CFG_enable true →
        Completes (.queueEnable rq n q cfg) s fun t => t.flag pg F.Q_SQ_CFG_enable = true ∧ t.fld pg F.Q_SQ_CFG_base = bits cfg.toNat 11 17 ∧
          t.fld pg F.Q_SQ_CFG_log2_size = bits cfg.toNat 1 4 ∧ t.qState n q = if u.queueOk n q then 1 else 2) ∧
      (∀ cfg, Completes (.queueDisable rq n q cfg) s fun t =>
        t.flag pg F.Q_SQ_CFG_enable = false ∧ t.qState n q = 0 ∧ (t.queue n q).window = [] ∧ s.sameBytes t)) ∧
    ((s.queue n q).unsignalled ≠ 0 → qf s n q F.Q_CQ_CFG_coal_us ≠ 0 → (s.port (s.tnPort n)).d3 = false →
      Completes (.cqCoalTimerExpiry n q) s fun t => (t.queue n q).unsignalled = 0 ∧ (t.queue n q).coalStart = none ∧ s.sameRegs t [] ∧
        (if s.deliverable (s.tnFn n) q then t.outs = .msix (s.tnFn n) q :: s.outs else bitOf (t.fn (s.tnFn n)).pba q = true ∧ t.outs = s.outs)) ∧
    ((s.queue n q).unsignalled = 0 ∨ qf s n q F.Q_CQ_CFG_coal_us = 0 → exec (.cqCoalTimerExpiry n q) s = .next s) ∧
    (s.qState n q ≠ 2 → s.cqOut n q ≠ 0 → Completes (.cqWriteFail n q) s fun t => t.qState n q = 3 ∧ t.cqTail n q = (s.cqTail n q + 65535) % 65536 ∧
      (∀ d ∈ (t.queue n q).fetched, d.st = .running)) ∧
    (s.qState n q = 2 ∨ s.cqOut n q = 0 → exec (.cqWriteFail n q) s = .next s)) ∧
  (∀ (s : State) (n : Fin 128) (q : Fin 8),
    (s.mayFetch n q = true → (s.queue n q).fetched.length < 64 → (s.ten n).cancel = none → ∀ i off b d, i = s.sqHead n q →
      off = qf s n q F.Q_SQ_CFG_base * 2048 + i % s.sqSize n q * 128 → b = s.apRead n off 128 → d = parseDesc b i s.order (s.epoch n) →
      s.apPoison n off 128 = none → s.descFaults n d (dfield b 9 1) = [] → s.isDup n q d = false →
      Completes (.descriptorFetch n q) s fun t => t.sqHead n q = (i + 1) % 65536 ∧ t.order = s.order + 1 ∧
        (t.queue n q).fetched = (s.queue n q).fetched ++ [d] ∧ t.outs = s.outs ∧ s.sameBytes t) ∧
    (s.mayFetch n q = false ∨ 64 ≤ (s.queue n q).fetched.length → exec (.descriptorFetch n q) s = .next s) ∧
    (∀ d, s.startHead n q = some d → s.writesEntries n q = true → s.mayRequest n = true → (s.ten n).cancel = none →
      (d.kind = 2 → s.fenceDone n q d = true → Completes (.jobFence n q) s fun t =>
        (t.queue n q).fetched = (s.queue n q).fetched.filter (·.num != d.num) ∧
        ∃ a e, .cqEntry n q (s.cqTail n q) (s.tnFn n) (s.qPasid n q) a (CqEntry.bytes e) false ∈ t.outs ∧ e.tag = d.tag ∧ e.status = 0 ∧ e.sqHead = s.sqHead n q) ∧
      (d.kind = 2 → s.fenceDone n q d = false → exec (.jobFence n q) s = .next s) ∧
      (d.kind = 3 → Completes (.jobNop n q) s fun t =>
        (t.queue n q).fetched = (s.queue n q).fetched.filter (·.num != d.num) ∧ t.cqTail n q = (s.cqTail n q + 1) % 65536 ∧
        ∃ a e, .cqEntry n q (s.cqTail n q) (s.tnFn n) (s.qPasid n q) a (CqEntry.bytes e) false ∈ t.outs ∧ e.tag = d.tag ∧ e.status = 0)) ∧
    (s.startHead n q = none → exec (.jobFence n q) s = .next s ∧ exec (.jobNop n q) s = .next s))

/-- Cancels (one that is busy ignores the next, R149), bindings and the phases of a tenant reset (R129, R130, R141, R435; 14 R342). -/
def Obligations.TenantResults : Prop :=
  ∀ (s : State) (rq : Requester) (n : Fin 128) (q : Fin 8),
    (s.grantsTen rq n 0 = true →
      (s.tnState n ≠ 3 → (s.ten n).cancel = none → ∀ ds, ds = (s.queue n q).fetched.filter (fun d => d.tag == s.fld (P.ten n 0) F.TN_CANCEL_TAG_tag &&
          match d.st with | .ended _ _ => false | _ => true) →
        (ds.length < 4096 → Completes (.tenantCancel rq n q false) s fun t => t.fld (P.ten n 0) F.TN_CANCEL_RES_found = ds.length) ∧
        (ds = [] → Completes (.tenantCancel rq n q false) s fun t => t.queues = s.queues ∧ t.jobs = s.jobs ∧ s.sameBytes t ∧
          (t.ten n).cancel = none ∧ bitOf (t.fld (P.ten n 0) F.PG_INT_STS) 2 = true)) ∧
      (s.tnState n = 3 ∨ (s.ten n).cancel ≠ none → ∀ all, exec (.tenantCancel rq n q all) s = .next s) ∧
      (s.bound n = true → s.inShutdown = false → s.tnInReset n = false → s.tnState n ≠ 4 → Completes (.tenantResetCmd rq n) s fun t =>
        t.rsts = ⟨5, n, s.now, false, false, false, 0, false⟩ :: s.rsts ∧ t.tnState n = 3 ∧
        t.epoch n = (if (s.epoch n + 1) % 65536 = 0 then 1 else (s.epoch n + 1) % 65536) ∧ t.flag (P.ten n 0) F.TN_CTL_reset = true) ∧
      (s.bound n = false ∨ s.inShutdown = true → exec (.tenantResetCmd rq n) s = .next s)) ∧
    (s.grants rq (P.disp 1) = true → ∀ (w : Word) v, v = w.toNat →
      (s.tnState n ≠ 3 → s.bound n = false → bitOf (s.bindVal n) 16 = false → bitOf v 15 = true →
        (∀ m : Nat, m < 128 → m ≠ n → (s.bound m = true → s.bindVal m % 256 ≠ v % 256) ∧
          ∀ b, (s.ten m).pendBind = some b → bitOf b 15 = true → b % 256 ≠ v % 256) → Completes (.tenantBindWrite rq n w) s fun t =>
          t.bound n = true ∧ t.tnPort n = bits v 6 2 ∧ t.tnFn n = 4 + 64 * bits v 6 2 + bits v 0 6 ∧ t.tnPart n = bits v 8 3 ∧
          t.tnState n = (if s.ptState (bits v 8 3) = 4 then 4 else if bitOf v 16 then 2 else 1) ∧
          ∀ m : Nat, m < 128 → m ≠ n → t.bound m = s.bound m ∧ t.tnFn m = s.tnFn m) ∧
      (s.tnState n ≠ 3 → s.bound n = false → bitOf (s.bindVal n) 16 = false → bitOf v 15 = true →
        (∃ m : Nat, m < 128 ∧ m ≠ n ∧ ((s.bound m = true ∧ s.bindVal m % 256 = v % 256) ∨
          ∃ b, (s.ten m).pendBind = some b ∧ bitOf b 15 = true ∧ b % 256 = v % 256)) →
        exec (.tenantBindWrite rq n w) s = .next (s.countErr (P.disp 1) 0x45 (rqCode rq) (accessAddr rq (P.disp 1) (F.DISP_TN_BIND_vf n).off)))) ∧
    (∀ r, s.findRst 5 n = some r →
      (r.absorbed = false → Completes (.tenantReset n) s fun t => (t.ten n).absorbed = true) ∧
      (r.absorbed = true → exec (.tenantReset n) s = .next s) ∧
      (r.absorbed = true → (s.ten n).pendBind = none → Completes (.tenantResetReport n) s fun t =>
        t.flag (P.ten n 0) F.TN_CTL_reset = false ∧ t.fld (P.hub 2) F.HUB_RST_LAST_scope = r.scope ∧ t.ten n = TenSt.reset) ∧
      (r.absorbed = false → exec (.tenantResetReport n) s = .next s))

/-- Dispatch and the jobs it starts (R142-R144, R150): the pick, a RUN that cannot start, the registers of a job's ranks (07 R163), LOAD and UNLOAD, and a RUN that first loads its model. The registers of a rank at job start (07 R163) and the status of its core: every rank of the job starts at the model's entry with its rank, its arguments and all its threads active. -/
def Obligations.DispatchAndJobStart : Prop :=
  (∀ (s : State) (p : Fin 8) (u : State), u = s.setDsp p { s.dsp p with pick := none } →
    (s.dispPaused p = true → exec (.dispatch p) s = .next s) ∧
    (s.dispPaused p = false →
      ((∀ n, n < 128 → s.bound n = true → s.tnPart n = p → ∀ q, q < 8 → s.dispReady p n q = false) → exec (.dispatch p) s = .next u) ∧
      (∀ q, (s.dsp p).tenant < 128 → s.bound (s.dsp p).tenant = true → s.tnPart (s.dsp p).tenant = p → (s.dsp p).credit ≠ 0 →
        (∃ r, r < 8 ∧ s.dispReady p (s.dsp p).tenant r = true) →
        s.pickQueue p (s.dsp p).tenant (Tab.get nat0 (s.dsp p).rr (s.dsp p).tenant) = some q →
        Completes (.dispatch p) s fun t => (t.dsp p).pick = some ((s.dsp p).tenant, q) ∧ (t.dsp p).credit = (s.dsp p).credit - 1 ∧
          (t.dsp p).tenant = (s.dsp p).tenant ∧ s.sameRegs t [] ∧ s.sameBytes t)) ∧
    (∀ n q d, (s.dsp p).pick = some (n, q) → s.dispPaused p = false → s.startHead n q = some d →
      (d.kind = 1 →
        (u.runPlan p n d.model d.runWidth d.clu = .absent → exec (.jobRun p) s = .next (u.completeUnstarted n q d 6 0)) ∧
        (u.runPlan p n d.model d.runWidth d.clu = .noCapacity → exec (.jobRun p) s = .next (u.completeUnstarted n q d 0x0B 0)) ∧
        (u.runPlan p n d.model d.runWidth d.clu = .wait → exec (.jobRun p) s = .next u) ∧
        (∀ k cl xs, u.runPlan p n d.model d.runWidth d.clu = .load k cl xs →
          exec (.jobRun p) s = .next ((u.setDesc n q { d with loaded := true, clu := some cl }).addLoads k xs none)) ∧
        (∀ k gs w, u.runPlan p n d.model d.runWidth d.clu = .start k →
          (u.rotaPick p d.runWidth fun g => u.idleCore g && (u.res k).cores.contains (u.physOf g)) = (some gs, w) →
          exec (.jobRun p) s = .next (w.jobStart n q p d k gs))) ∧
      (d.kind ≠ 1 → exec (.jobRun p) s = .next s) ∧
      (d.kind = 4 → ∀ k, u.resFind n d.model = some k →
        ((u.res k).wOff ≠ d.area.getD 2 0 ∨ (u.res k).len ≠ d.area.getD 1 0 ∨ (u.res k).entry ≠ d.area.getD 3 0 →
          exec (.jobLoad p) s = .next (u.completeUnstarted n q d 5 0x18)) ∧
        ((u.res k).wOff = d.area.getD 2 0 → (u.res k).len = d.area.getD 1 0 → (u.res k).entry = d.area.getD 3 0 →
          exec (.jobLoad p) s = .next ((u.setRes k { u.res k with image := d.area.getD 0 0 }).loadOn p n q d k))) ∧
      (d.kind = 4 → u.resFind n d.model = none → ∀ k, u.resFree = some k → exec (.jobLoad p) s = .next
        ((u.setRes k ⟨true, n, d.model, d.area.getD 0 0, d.area.getD 1 0, d.area.getD 2 0, d.area.getD 3 0, [], false, []⟩).loadOn p n q d k)) ∧
      (d.kind = 5 → u.mayUnload n d.model = false → exec (.jobUnload p) s = .next u) ∧
      (d.kind = 5 → u.mayUnload n d.model = true →
        (u.resFind n d.model = none → exec (.jobUnload p) s = .next (u.completeUnstarted n q d 6 0)) ∧
        (∀ k, u.resFind n d.model = some k → exec (.jobUnload p) s = .next ((u.resRemove k).completeUnstarted n q d 0 0)))) ∧
    ((s.dsp p).pick = none ∨ s.dispPaused p = true → exec (.jobRun p) s = .next s ∧ exec (.jobLoad p) s = .next s ∧ exec (.jobUnload p) s = .next s ∧
      ∀ b, exec (.jobCopy p b) s = .next s)) ∧
  (∀ (s : State) (n q p : Nat) (d : Desc) (k : Nat) (gs gl : List Nat) (r g : Nat), gl = gs.mergeSort (· ≤ ·) → (gl.map s.physOf).Nodup → gl[r]? = some g →
    n < 128 → q < 8 → p < 8 → gs.length ≤ 7 → ∀ t c, t = s.jobStart n q p d k gs → c = t.core (s.physOf g) →
      c.pc = (s.res k).wOff + (s.res k).entry ∧ c.active = BitVec.allOnes 64 ∧ c.stack = [] ∧ c.wait = .run ∧ c.job = some d.order ∧ c.fpstat = 0 ∧ c.fpmode = 0 ∧
      c.getS 1 = BitVec.ofNat 64 (r + 256 * gs.length + 2 ^ 16 * g + 2 ^ 32 * q) ∧ c.getS 2 = BitVec.ofNat 64 (s.res k).wOff ∧
      c.getS 3 = BitVec.ofNat 64 (n + 256 * p + 2 ^ 16 * d.epoch) ∧
      (∀ i, i < 16 → c.getS (16 + i) = (d.args.getD i 0).setWidth 64) ∧ (∀ i, 4 ≤ i → i < 16 → c.getS i = 0) ∧ (∀ i u, c.getV i u = 0) ∧
      t.coreSt (s.physOf g) = 4 ∧ t.fld (P.core (s.physOf g)) F.CORE_STS_rank = r ∧ t.fld (P.core (s.physOf g)) F.CORE_STS_tenant = n ∧
      t.hmp = s.hmp ∧ t.stores = s.stores ∧ t.slices = s.slices)

/-- Starts that complete (R142-R144, R150): the dispatcher picks the one head that is ready, a RUN starts its ranks, a LOAD makes its entry and the copies it waits for, an UNLOAD removes its entry and ends OK. Copies and model loads (R131, R133, R153; 08 R200, R201): refusals of a COPY, the read or the writes it issues, the host's answers, and a load that ends. -/
def Obligations.CopyLoadResults : Prop :=
  ∀ (s : State),
    (∀ (p : Fin 8) n q, s.dispPaused p = false → n < 128 → q < 8 → s.bound n = true → s.tnPart n = p → s.dispReady p n q = true →
      (∀ m r, m < 128 → r < 8 → s.bound m = true → s.tnPart m = p → s.dispReady p m r = true → m = n ∧ r = q) → Completes (.dispatch p) s fun t =>
        (t.dsp p).pick = some (n, q) ∧ (t.dsp p).tenant = n ∧ s.sameRegs t [] ∧ s.sameBytes t) ∧
    (∀ (p : Fin 8) n q d (u : State), u = s.setDsp p { s.dsp p with pick := none } → (s.dsp p).pick = some (n, q) → s.dispPaused p = false →
      s.startHead n q = some d →
      (d.kind = 1 → ∀ k gs w, u.runPlan p n d.model d.runWidth d.clu = .start k →
        (u.rotaPick p d.runWidth fun g => u.idleCore g && (u.res k).cores.contains (u.physOf g)) = (some gs, w) → (gs.map s.physOf).Nodup →
        Completes (.jobRun p) s fun t => (t.dsp p).pick = none ∧ (t.job d.order).tn = n ∧ (t.job d.order).model = d.model ∧ s.sameBytes t ∧
          ∀ g ∈ gs, t.coreSt (s.physOf g) = 4 ∧ (t.core (s.physOf g)).wait = .run ∧ (t.core (s.physOf g)).job = some d.order ∧
            (t.core (s.physOf g)).pc = (s.res k).wOff + (s.res k).entry) ∧
      (d.kind = 4 → u.resFind n d.model = none → d.area.getD 4 0 ≠ 0 → ∀ k e v cands, u.resFree = some k →
        e = ⟨true, n, d.model, d.area.getD 0 0, d.area.getD 1 0, d.area.getD 2 0, d.area.getD 3 0, [], false, []⟩ → v = u.setRes k e →
        cands = (v.loadCands p e k).take (d.area.getD 4 0) → cands ≠ [] →
        Completes (.jobLoad p) s fun t => (t.dsp p).pick = none ∧ t.res k = e ∧ s.sameBytes t ∧
          ∀ g ∈ cands, (⟨k, some (n, q, d.num)⟩ : LoadOp) ∈ t.loadsOf (s.physOf g)) ∧
      (d.kind = 5 → u.mayUnload n d.model = true → s.entryGoes n q = true → (s.ten n).cancel = none → ∀ k, u.resFind n d.model = some k →
        Completes (.jobUnload p) s fun t => (t.dsp p).pick = none ∧ t.res k = Resid.none ∧
          (t.queue n q).fetched = (s.queue n q).fetched.filter (·.num != d.num) ∧
          ∃ a e, .cqEntry n q (s.cqTail n q) (s.tnFn n) (s.qPasid n q) a (CqEntry.bytes e) false ∈ t.outs ∧ e.tag = d.tag ∧ e.status = 0)) ∧
    (∀ (p : Fin 8) n q d (u : State), u = s.setDsp p { s.dsp p with pick := none } → (s.dsp p).pick = some (n, q) → s.dispPaused p = false →
      s.startHead n q = some d → d.kind = 6 → ∀ e w, e = { d with st := .running, started := s.now } → w = u.startDesc n q e →
      ((s.fn (s.tnFn n)).bme = false → ∀ x, exec (.jobCopy p x) s = .next (w.complete n q e ⟨0x0C, 0x11, 0xFFFF, 0, 0⟩)) ∧
      ((s.fn (s.tnFn n)).bme = true → exec (.jobCopy p false) s = .next (w.complete n q e ⟨0x0C, 0x10, 0xFFFF, 0, 0⟩)) ∧
      ((s.fn (s.tnFn n)).bme = true → bitOf d.flags 4 = false → exec (.jobCopy p true) s = .next
        (w.emit (.dmaRead (s.tnFn n) (s.qPasid n q) (d.area.getD 0 0) (d.area.getD 2 0)))) ∧
      ((s.fn (s.tnFn n)).bme = true → bitOf d.flags 4 = true → d.poison = none → w.apPoison n (d.area.getD 1 0) (d.area.getD 2 0) = none →
        exec (.jobCopy p true) s = .next ((w.each (segs 64 (d.area.getD 1 0) (d.area.getD 2 0)) fun g v =>
          v.emit (.dmaWrite (s.tnFn n) (v.qPasid n q) (d.area.getD 0 0 + (g.1 - d.area.getD 1 0)) (v.apRead n g.1 g.2) (v.apPoison n g.1 g.2).isSome)).complete
            n q { e with moved := d.area.getD 2 0 } ⟨0, 0, 0xFFFF, 0, d.area.getD 2 0⟩))) ∧
    (∀ (n : Fin 128) (q : Fin 8) (i : BitVec 16) d, s.descOf n q i.toNat = some d → d.kind = 6 → d.st = .running →
      (∀ off, exec (.copyHostCompletion n q i off .unsupported) s = .next (s.complete n q d ⟨0x0C, 1, 0xFFFF, 0, d.moved⟩) ∧
        exec (.copyHostCompletion n q i off .abort) s = .next (s.complete n q d ⟨0x0C, 4, 0xFFFF, 0, d.moved⟩) ∧
        exec (.copyHostCompletion n q i off .translation) s = .next (s.complete n q d ⟨0x0C, 0x10, 0xFFFF, 0, d.moved⟩)) ∧
      (∀ off data a, off.toNat + data.length < d.area.getD 2 0 → d.moved + data.length < d.area.getD 2 0 → data ≠ [] →
        (d.area.getD 1 0 + off.toNat) % 64 + data.length ≤ 64 → s.apAddr n (d.area.getD 1 0 + off.toNat) = some a →
        Completes (.copyHostCompletion n q i off (.success data false)) s fun t => t.hmp = s.hmp.wr a data false ∧
          t.stores = s.stores ∧ t.slices = s.slices ∧ s.sameRegs t [] ∧ t.outs = s.outs ∧
          t.descOf n q i.toNat = some { d with moved := d.moved + data.length }) ∧
      (∀ off data m, d.poison = none → off.toNat + data.length ≤ d.area.getD 2 0 → m = d.moved + data.length → d.area.getD 2 0 ≤ m →
        exec (.copyHostCompletion n q i off (.success data false)) s = .next
          ((s.copyLand n (d.area.getD 1 0 + off.toNat) data false).complete n q { d with moved := m } ⟨0, 0, 0xFFFF, 0, m⟩)) ∧
      (exec (.copyCompletionTimeout n q i) s = .next (s.complete n q d ⟨0x0C, 0x12, 0xFFFF, 0, d.moved⟩))) ∧
    (∀ (n : Fin 128) (q : Fin 8) (i : BitVec 16), s.descOf n q i.toNat = none → exec (.copyCompletionTimeout n q i) s = .next s) ∧
    (∀ (x : Fin 512) l ls p e, s.loadsOf x = l :: ls → s.coreSt x = 3 → e = s.res l.res → s.tnState e.tn ≠ 3 → s.cluPart (x / 8) = some p → s.dispPaused p = false →
      e.valid = true → ∀ u, u = (s.setLoads x ls).setFlag (P.mov x) F.MOV_STS_loading (!ls.isEmpty) → u.fwBlocks x e = false → x.val ∉ e.cores →
      ∀ w, w = ((u.makeRoom x e).copyImage x e).rezSet x e → l.desc = none →
      Completes (.modelLoad x) s fun t => (t.res l.res).cores = (w.res l.res).cores ++ [x.val] ∧ t.loadsOf x = ls ∧ t.stores = w.stores) ∧
    (∀ x : Fin 512, s.loadsOf x = [] ∨ s.coreSt x ≠ 3 → exec (.modelLoad x) s = .next s)

/-- A register write of one whole dword (R55, R58, R59, R63, R64): RW fields take the dword, RWL fields while the page is not locked, W1C fields lose the written bits, every other field keeps its value; the requests that change nothing but a count; a write of a host port that comes after its aperture writes, and an access of a page whose tile changes its operating point (R66). A register read of one dword (R50, R56, R60, R64, R69): what a page that serves answers, what one that does not answers, what a reserved page and a page of another port's answer, and the requests that are aborted. -/
def Obligations.RegisterReadAndWrite : Prop :=
  (∀ (s : State) (rq : Requester) (pg off : Nat) (i : PageInfo) (addr : BitVec 28) (w : Word), pageInfo pg = some i → off % 4 = 0 → off < 4096 →
    (s.grants rq pg = true → addr.toNat = pg * 4096 + off → addr.toNat < 2 ^ 27 →
      (0x040 ≤ off → s.hook rq pg i off (i.layout.keep off w.toNat) = none →
        (s.lockHits pg i off (i.layout.keep off w.toNat) = false → Completes (.registerWrite (.req rq) addr [⟨15, w⟩] false) s fun t =>
          (∀ e ∈ i.layout.fldsAt off, t.fld pg e.2 = match e.1.priv with
            | .rw => e.2.of (i.layout.keep off w.toNat) % 2 ^ e.2.len
            | .rwl => if s.flag pg F.PG_LOCK_locked then s.fld pg e.2 else e.2.of (i.layout.keep off w.toNat) % 2 ^ e.2.len
            | .w1c => (s.fld pg e.2 - (s.fld pg e.2 &&& e.2.of (i.layout.keep off w.toNat))) % 2 ^ e.2.len
            | _ => s.fld pg e.2) ∧
          s.sameRegs t ((i.layout.fldsAt off).map fun e => fkey pg e.2) ∧ ∃ r, t = { s with regs := r }) ∧
        (s.lockHits pg i off (i.layout.keep off w.toNat) = true → Completes (.registerWrite (.req rq) addr [⟨15, w⟩] false) s fun t =>
          (∀ e ∈ i.layout.fldsAt off, e.1.priv = .rwl → t.fld pg e.2 = s.fld pg e.2) ∧
          t.fld pg F.PG_ERR_CNT = min 65535 (s.fld pg F.PG_ERR_CNT + 1) ∧ bitOf (t.fld pg F.PG_INT_STS) 31 = true ∧
          (s.flag pg F.PG_ERR_FIRST_valid = false → t.fld pg F.PG_ERR_FIRST_code = 0x03 ∧ t.fld pg F.PG_ERR_FIRST_requester = rqCode rq))) ∧
      (∀ t, s.hook rq pg i off (i.layout.keep off w.toNat) = some t → 0x040 ≤ off → exec (.registerWrite (.req rq) addr [⟨15, w⟩] false) s = .next t) ∧
      (∀ be : BitVec 4, be ≠ 15 → exec (.registerWrite (.req rq) addr [⟨be, w⟩] false) s = .next (s.countErr pg 0x04 (rqCode rq) addr.toNat)) ∧
      exec (.registerWrite (.req rq) addr (List.replicate 17 ⟨15, w⟩) false) s = .next (s.countErr pg 0x04 (rqCode rq) addr.toNat)) ∧
    (∀ p : Fin 4, s.reach (.pf p) = true → p.val ≠ s.owner → s.portClear p = true → addr.toNat < 2 ^ 27 → addr.toNat % 4 = 0 →
      exec (.registerWrite (.req (.pf p)) addr [⟨15, w⟩] false) s = .next (s.countErr (P.hub 0) 0x06 (0x80 + p.val) addr.toNat)) ∧
    (∀ (n : Fin 128) k, k < 16 → pg = P.ten n k → addr.toNat = k * 4096 + off → s.grantsTen (.tenant n) n k = true → s.unavailable pg = false →
      0x040 ≤ off → (∀ e ∈ i.layout.fldsAt off, e.1.ten = .ro ∧ e.1.priv = .ro ∧ e.2.of w.toNat = s.fieldVal pg i e.2) →
      (∀ v, s.hook (.tenant n) pg i off v = none) → Completes (.registerWrite (.req (.tenant n)) addr [⟨15, w⟩] false) s fun t => s.sameRegs t []) ∧
    (s.reach rq = false → ∀ ws ep, exec (.registerWrite (.req rq) addr ws ep) s = .next s) ∧
    (s.reach rq = true → ∀ ws ep, exec (.registerWrite (.req rq) addr ws ep) s = exec (.registerWrite (.req rq) addr ws ep) (s.landFor rq)) ∧
    (s.reach rq = true → s.tileBusy pg = true → (∀ n, rq ≠ .tenant n) → (∀ p : Fin 4, rq = .pf p → p.val = s.owner ∧ s.portClear p = true) →
      addr.toNat = pg * 4096 + off → addr.toNat < 2 ^ 27 →
      exec (.registerWrite (.req rq) addr [⟨15, w⟩] false) s = .next (s.hold pg (.write rq addr.toNat [⟨15, w⟩])) ∧
      exec (.registerRead (.req rq) addr 1) s = .next (s.hold pg (.read rq addr.toNat 1))) ∧
    (∀ p : Fin 4, s.reach (.pf p) = true → s.portClear p = true → ∀ ws, exec (.registerWrite (.req (.pf p)) addr ws true) s = .next (s.emit (.aer p)))) ∧
  (∀ (s : State) (rq : Requester) (pg off : Nat) (addr : BitVec 28), off % 4 = 0 → off < 4096 → addr.toNat = pg * 4096 + off → addr.toNat < 2 ^ 27 →
    ((rq = .mgt ∨ rq = .fw ∨ ∃ p : Fin 4, rq = .pf p ∧ p.val = s.owner) → s.reach rq = true →
      (∀ i, pageInfo pg = some i → s.unavailable pg = false → s.tileBusy pg = false →
        (0x040 ≤ off → Completes (.registerRead (.req rq) addr 1) s fun t => ∃ v, t.outs.head? = some (.regData (rqCode rq) [v]) ∧ s.sameBytes t ∧
          (i.layout.snapHi ≠ some off → v = s.blockVal pg i off false) ∧ (i.layout.snapHi = some off → v = Tab.get nat0 s.snaps (pg * 4096 + off)) ∧
          (i.layout.snapHi = some (off + 4) → Tab.get nat0 t.snaps (pg * 4096 + off + 4) = s.blockVal pg i (off + 4) false)) ∧
        (off = 0x000 → exec (.registerRead (.req rq) addr 1) s = .next (s.emit (.regData (rqCode rq) [pgId pg]))) ∧
        (off = 0x004 → exec (.registerRead (.req rq) addr 1) s = .next (s.emit (.regData (rqCode rq) [0x100]))) ∧
        (off = 0x020 → exec (.registerRead (.req rq) addr 1) s = .next (s.emit (.regData (rqCode rq) [s.fld pg F.PG_ERR_CNT]))) ∧
        (off = 0x00C ∨ off = 0x01C → exec (.registerRead (.req rq) addr 1) s = .next (s.emit (.regData (rqCode rq) [0])))) ∧
      (∀ i, pageInfo pg = some i → s.unavailable pg = true →
        (off = 0x000 → exec (.registerRead (.req rq) addr 1) s = .next (s.emit (.regData (rqCode rq) [pgId pg]))) ∧
        (off ≠ 0 → off ≠ 4 → off ≠ 0x10 → off ≠ 0x30 → exec (.registerRead (.req rq) addr 1) s = .next (s.emit (.regData (rqCode rq) [0])))) ∧
      (pageInfo pg = none → exec (.registerRead (.req rq) addr 1) s = .next (s.emit (.regData (rqCode rq) [0]))) ∧
      (∀ n, n = 0 ∨ 16 < n → exec (.registerRead (.req rq) addr n) s = .next (s.emit (.abort (rqCode rq))))) ∧
    (∀ p : Fin 4, s.reach (.pf p) = true → p.val ≠ s.owner → pg ≠ 0 →
      exec (.registerRead (.req (.pf p)) addr 1) s = .next (s.emit (.regData (0x80 + p.val) [0]))) ∧
    (∀ n : Fin 128, s.reach (.tenant n) = true → pg < 16 → 0x400 ≤ P.ten n pg → pageInfo (P.ten n pg) = none →
      exec (.registerRead (.req (.tenant n)) addr 1) s = .next (s.emit (.regData n.val [0]))) ∧
    (s.devFailed = true → s.aoUp = true → ∀ p : Fin 4, exec (.registerRead (.req (.pf p)) addr 1) s = .next (s.emit (.abort (0x80 + p.val)))))

/-- The header's commands on a page (R50, R53, R59, R67): the fault capture is armed again, the error count goes to 0, written event bits clear, forced bits set, and a locked page stays locked; what a tenant may do of them. -/
def Obligations.PageHeaderCommands : Prop :=
  ∀ (s : State) (rq : Requester) (pg : BitVec 16) (i : PageInfo) (v : Word),
    (s.grants rq pg.toNat = true → pageInfo pg.toNat = some i → pg.toNat < 0x8000 →
      (Completes (.errRearm rq pg) s fun t => t.flag pg.toNat F.PG_ERR_FIRST_valid = false ∧
        s.sameRegs t [fkey pg.toNat F.PG_ERR_FIRST_valid, fkey pg.toNat F.KVW_FAULT_valid, fkey pg.toNat F.ATU_FAULT_valid] ∧
        (i.layout = .kvw → t.flag pg.toNat F.KVW_FAULT_valid = false) ∧ (i.layout = .atu → t.flag pg.toNat F.ATU_FAULT_valid = false) ∧ ∃ r, t = { s with regs := r }) ∧
      exec (.errClr rq pg) s = .next (s.setFld pg.toNat F.PG_ERR_CNT 0) ∧
      (Completes (.intStsClear rq pg v) s fun t => s.sameRegs t [fkey pg.toNat F.PG_INT_STS] ∧
        ∀ b, b < 32 → bitOf (t.fld pg.toNat F.PG_INT_STS) b = (bitOf (s.fld pg.toNat F.PG_INT_STS) b && !(bitOf v.toNat b && bitOf i.layout.intMask b))) ∧
      (Completes (.intForce rq pg v) s fun t => s.sameRegs t [fkey pg.toNat F.PG_INT_STS] ∧
        ∀ b, b < 32 → bitOf (t.fld pg.toNat F.PG_INT_STS) b = (bitOf (s.fld pg.toNat F.PG_INT_STS) b || (bitOf v.toNat b && bitOf i.layout.intMask b))) ∧
      exec (.pageLock rq pg) s = .next (s.setFlag pg.toNat F.PG_LOCK_locked true)) ∧
    (∀ n : Fin 128, s.grantsTen (.tenant n) n pg.toNat = true → pg.toNat < 16 → pageInfo (P.ten n pg.toNat) = some i → s.unavailable (P.ten n pg.toNat) = false →
      exec (.errClr (.tenant n) pg) s = .next (s.setFld (P.ten n pg.toNat) F.PG_ERR_CNT 0) ∧
      (v &&& BitVec.ofNat 32 i.layout.intMask ≠ 0 → exec (.intForce (.tenant n) pg v) s =
        .next (s.tenErr n (P.ten n pg.toNat) 0x01 n (pg.toNat * 4096 + 0x01C)))) ∧
    (∀ p : Fin 4, s.reach (.pf p) = true → p.val ≠ s.owner → s.portClear p = true → pg.toNat < 0x8000 →
      exec (.errClr (.pf p) pg) s = .next (s.countErr (P.hub 0) 0x06 (0x80 + p.val) (pg.toNat * 4096 + 0x00C)) ∧
      exec (.pageLock (.pf p) pg) s = .next (s.countErr (P.hub 0) 0x06 (0x80 + p.val) (pg.toNat * 4096 + 0x034)))

/-- Aperture accesses that stay within one compartment (R105-R107, R436), the landing of an accepted write (R113), and tile requests (R108). Requests of a core at the Hamper (R108, R118): served in compartments of its partition, the boot ROM reads the firmware region, another partition's address is counted. -/
def Obligations.HamperRequests : Prop :=
  (∀ (s : State) (n : Fin 128) (p : Fin 4) (rid : BitVec 16) (off : BitVec 28) (data : List Byte) (len : Nat),
    (∀ w ws, s.hmpPend = w :: ws → Completes .hamperWriteLand s fun t => t.hmpPend = ws ∧ t.stores = s.stores ∧ t.slices = s.slices ∧ t.regs = s.regs ∧
      ∀ a, t.hmp.rd a = if w.addr ≤ a ∧ a < w.addr + w.data.length then w.data.getD (a - w.addr) 0 else s.hmp.rd a) ∧
    (s.hmpPend = [] → exec .hamperWriteLand s = .next s) ∧
    (s.reach (.tenant n) = true → s.ready = true → s.tnState n ≠ 3 → s.tnState n ≠ 4 → 0 < data.length → off.toNat % 65536 + data.length ≤ 65536 →
      (∀ c, s.slotComp n (off.toNat / 65536) = some c → (s.isPeer n rid.toNat = true → (s.comp c).use = 6) →
        s.workAt (c * 65536 + off.toNat % 65536) = none →
        exec (.apertureWrite (.tenant n rid) off data false) s =
          .next { s with hmpPend := s.hmpPend ++ [⟨s.tnPort n, c * 65536 + off.toNat % 65536, data, false⟩] }) ∧
      (∀ c, s.slotComp n (off.toNat / 65536) = some c → s.isPeer n rid.toNat = true → (s.comp c).use ≠ 6 →
        exec (.apertureWrite (.tenant n rid) off data false) s = .next (s.tenErr n (P.ten n 11) 0x41 0xFF off.toNat)) ∧
      (s.slotComp n (off.toNat / 65536) = none → s.isPeer n rid.toNat = false →
        exec (.apertureWrite (.tenant n rid) off data false) s = .next (s.tenErr n (P.ten n 11) 0x40 0xFF off.toNat))) ∧
    (s.reach (.pf p) = true → s.ready = true → 0 < data.length → off.toNat % 65536 + data.length ≤ 65536 →
      (p.val = s.owner → (s.comp (off.toNat / 65536)).clearing = false →
        ((s.comp (off.toNat / 65536)).state = 2 → exec (.apertureWrite (.pf p) off data false) s =
          .next { s with hmpPend := s.hmpPend ++ [⟨p, off.toNat, data, false⟩] }) ∧
        ((s.comp (off.toNat / 65536)).state = 0 → exec (.apertureWrite (.pf p) off data false) s = .next (s.countErr (P.hmp 0) 0x40 0xFF off.toNat)) ∧
        ((s.comp (off.toNat / 65536)).state = 1 ∨ (s.comp (off.toNat / 65536)).state = 3 →
          exec (.apertureWrite (.pf p) off data false) s = .next (s.countErr (P.hmp 0) 0x43 0xFF off.toNat))) ∧
      (p.val ≠ s.owner → exec (.apertureWrite (.pf p) off data false) s = .next (s.countErr (P.hub 0) 0x06 0xFF off.toNat))) ∧
    (s.reach (.tenant n) = true → s.tnState n ≠ 3 → 0 < len → off.toNat % 65536 + len ≤ 65536 → s.ready = true →
      (∀ c a m, s.slotComp n (off.toNat / 65536) = some c → a = c * 65536 + off.toNat % 65536 → m = (s.landClient (s.tnPort n)).hmp →
        (∀ k, k < len → m.linePoison ((a + k) / 64) = false) → s.workAt a = none → Completes (.apertureRead (.tenant n rid) off ⟨len, false⟩) s fun t =>
          t = (s.landClient (s.tnPort n)).tick.emit (.aperture (s.tnFn n) off.toNat (m.rdN a len) false)) ∧
      (s.slotComp n (off.toNat / 65536) = none → Completes (.apertureRead (.tenant n rid) off ⟨len, false⟩) s fun t =>
        t.outs.head? = some (.aperture (s.tnFn n) off.toNat (List.replicate len 0) false) ∧
        t.fld (P.ten n 11) F.PG_ERR_CNT = min 65535 (s.fld (P.ten n 11) F.PG_ERR_CNT + 1))) ∧
    (s.reach (.tenant n) = true → exec (.apertureRead (.tenant n rid) off ⟨len, true⟩) s = .next (s.emit (.unsupported (s.tnFn n)))) ∧
    (s.reach (.tenant n) = true → s.ready = false → exec (.apertureRead (.tenant n rid) off ⟨len, false⟩) s =
      .next (s.emit (.aperture (s.tnFn n) off.toNat (List.replicate len 0) false))) ∧
    (s.devFailed = true → ∀ at', exec (.apertureRead (.tenant n rid) off ⟨len, at'⟩) s = .next (s.emit (.abort n)))) ∧
  (∀ (s : State) (x : Fin 512) (addr : BitVec 28) (c len : Nat), c = addr.toNat / 65536 → s.fenced (x / 64) = false → 0 < len →
    addr.toNat % 64 + len ≤ 64 →
    ((s.comp c).state = 2 → s.cluPart (x / 8) = some (s.comp c).part → (s.comp c).clearing = false →
      (∀ data : List Byte, data.length = len → Completes (.tileHamperRequest x false addr (some data) 0) s fun t =>
        t.stores = s.stores ∧ t.slices = s.slices ∧ t.regs = s.regs ∧ t.outs = s.outs ∧
        ∀ a, t.hmp.rd a = if addr.toNat ≤ a ∧ a < addr.toNat + len then data.getD (a - addr.toNat) 0 else s.hmp.rd a) ∧
      exec (.tileHamperRequest x false addr none len) s =
        .next (s.emit (.tileData x (s.hmp.rdN addr.toNat len) (s.hmp.linePoison (addr.toNat / 64))))) ∧
    ((s.comp c).state = 1 → exec (.tileHamperRequest x true addr none len) s =
      .next (s.emit (.tileData x (s.hmp.rdN addr.toNat len) (s.hmp.poisoned addr.toNat len)))) ∧
    ((s.comp c).state ≠ 1 → exec (.tileHamperRequest x true addr none len) s = .next s) ∧
    (s.cluPart (x / 8) ≠ some (s.comp c).part → s.coreJob x = none → Completes (.tileHamperRequest x false addr none len) s fun t =>
      t = s.crossPartCount addr.toNat ∧ t.fld (P.hmp 0) F.PG_ERR_CNT = min 65535 (s.fld (P.hmp 0) F.PG_ERR_CNT + 1) ∧ s.sameBytes t))

/-- A compartment's lines over the banks (R100); allocation, release and the end of a clear (R109-R111, R121), and a quota query. -/
def Obligations.HamperAllocation : Prop :=
  (∀ c b, c < 4096 → b < 64 → ((List.range 1024).filter fun l => hmpBank (c * 65536 + 64 * l) == b).length = 16) ∧
  ∀ (s : State) (rq : Requester) (n : Fin 128) (slot : BitVec 12) (a : AllocArgs), a = s.allocArgs → a.part < 8 →
    (s.grants rq (P.hmp 3) = true → s.flag (P.hmp 3) F.HMP_ALLOC_RES_busy = false →
      (s.allocCheck a = none → Completes (.hmpAlloc rq) s fun t =>
        (∀ i, i < a.count → t.comp (a.first + i) = ⟨2, a.use, a.part, if a.tv then a.tn else 0, a.tv, false, false, if a.tv then a.slot + i else 0⟩) ∧
        (∀ c, c < a.first ∨ a.first + a.count ≤ c → t.comp c = s.comp c) ∧
        t.fld (P.hmp 3) F.HMP_ALLOC_RES_result = 0 ∧ t.flag (P.hmp 3) F.HMP_ALLOC_RES_busy = false ∧ s.sameBytes t) ∧
      (∀ r w, s.allocCheck a = some (r, w) → Completes (.hmpAlloc rq) s fun t =>
        t.fld (P.hmp 3) F.HMP_ALLOC_RES_result = r ∧ t.fld (P.hmp 3) F.HMP_ALLOC_RES_where = w % 4096 ∧ t.cmap = s.cmap ∧ s.sameBytes t) ∧
      (s.freeCheck a = none → Completes (.hmpFree rq) s fun t => t.hmpClr = some (a.first, a.count) ∧ t.hmpPend = [] ∧
        t.flag (P.hmp 3) F.HMP_ALLOC_RES_busy = true ∧
        (∀ c, t.comp c = if a.first ≤ c ∧ c < a.first + a.count then { s.comp c with clearing := true } else s.comp c) ∧
        (∀ k, a.first * 65536 ≤ k → k < (a.first + a.count) * 65536 → t.hmp.rd k = 0) ∧
        (s.hmpPend = [] → ∀ k, k < a.first * 65536 ∨ (a.first + a.count) * 65536 ≤ k → t.hmp.rd k = s.hmp.rd k)) ∧
      (∀ r w, s.freeCheck a = some (r, w) → Completes (.hmpFree rq) s fun t =>
        t.fld (P.hmp 3) F.HMP_ALLOC_RES_result = r ∧ t.fld (P.hmp 3) F.HMP_ALLOC_RES_where = w % 4096 ∧ t.cmap = s.cmap ∧ s.sameBytes t)) ∧
    (s.grants rq (P.hmp 3) = true → s.flag (P.hmp 3) F.HMP_ALLOC_RES_busy = true → ∀ u, u = s.countErr (P.hmp 0) 0x45 (rqCode rq) (accessAddr rq (P.hmp 3) 0x048) →
      exec (.hmpAlloc rq) s = .next u ∧ exec (.hmpFree rq) s = .next u) ∧
    (∀ f k, s.hmpClr = some (f, k) → Completes .hamperClearDone s fun t => t.hmpClr = none ∧
      (∀ c, t.comp c = if f ≤ c ∧ c < f + k then Comp.free else s.comp c) ∧
      t.flag (P.hmp 3) F.HMP_ALLOC_RES_busy = false ∧ t.fld (P.hmp 3) F.HMP_ALLOC_RES_result = 0 ∧ s.sameBytes t) ∧
    (s.hmpClr = none → exec .hamperClearDone s = .next s) ∧
    (s.grantsTen rq n 11 = true →
      (∀ c, s.slotComp n slot.toNat = some c → Completes (.hmpTqQuery rq n slot) s fun t =>
        t.flag (P.ten n 11) F.HMP_TQ_QUERY_RES_mapped = true ∧ t.fld (P.ten n 11) F.HMP_TQ_QUERY_RES_use = (s.comp c).use % 16 ∧
        t.flag (P.ten n 11) F.HMP_TQ_QUERY_RES_bound = (s.comp c).bound ∧ t.fld (P.ten n 11) F.HMP_TQ_QUERY_slot = slot.toNat) ∧
      (s.slotComp n slot.toNat = none → Completes (.hmpTqQuery rq n slot) s fun t =>
        t.flag (P.ten n 11) F.HMP_TQ_QUERY_RES_mapped = false ∧ t.fld (P.ten n 11) F.HMP_TQ_QUERY_RES_run = 0))

/-- The Trail (R409, R410, R412): the oldest queued record takes the next sequence number and its region's next slot; a read names a slot and shows its dwords. -/
def Obligations.TrailResults : Prop :=
  ∀ (s : State) (rq : Requester) (v : Word),
    (∀ r q, s.trail.queue = r :: q → s.trail.lost = 0 → ∀ u k, u = { r with seq := nextSeq (s.fld P.trl F.TRL_SEQ_value) } →
      k = (match r.region (s.fld P.trl F.TRL_STS_fmap_cnt) with
        | .map => s.fld P.trl F.TRL_STS_fmap_cnt | .snapshot => s.trail.snapNext | .log => max 1088 (s.fld P.trl F.TRL_STS_next_slot)) →
      Completes .trailRecordCommit s fun t => t.trail.queue = q ∧ Tab.get slot0 t.trail.slots k = some u ∧
        (∀ j, j ≠ k → Tab.get slot0 t.trail.slots j = Tab.get slot0 s.trail.slots j) ∧ t.fld P.trl F.TRL_SEQ_value = u.seq ∧ s.sameBytes t) ∧
    (∀ r q, s.trail.queue = r :: q → s.trail.lost ≠ 0 → q.length < 16 → Completes .trailRecordCommit s fun t =>
      t.trail.lost = 0 ∧ ∃ l, t.trail.queue = q ++ [l] ∧ l.typ = 0x0B ∧ l.payload = [s.trail.lost]) ∧
    (s.trail.queue = [] → exec .trailRecordCommit s = .next s) ∧
    (s.grants rq P.trl = true → Completes (.trlIdxWrite rq v) s fun t => t.fld P.trl F.TRL_IDX_slot = v.toNat % 4096 ∧
      ∀ i, i < 16 → t.fld P.trl (F.TRL_REC_dword i) = (s.trailRaw (v.toNat % 4096)).getD i 0 % 2 ^ 32)

/-- The commands of the mailbox that carry no signature (R396, R397, R399, R343, R389), the nonce's expiry, and the bus addresses (R394). -/
def Obligations.MailboxResults : Prop :=
  ∀ (s : State) (f : Fmc) (addr : BitVec 28) (n : Nat) (ws : List RegDword) (slot : Fin 4096) (k : Fin 64) (eid : Fin 256) (m : MctpSrc),
    (s.takes f 2 = true →
      (fmcSpan addr.toNat n = true → s.tileBusy (addr.toNat / 4096) = false → Replies (.regRead f addr n) s f 2 0
        (s.readDwords (addr.toNat / 4096) (addr.toNat / 4 % 1024 * 4) false n).1 fun t => s.sameBytes t) ∧
      (fmcSpan addr.toNat n = true → s.tileBusy (addr.toNat / 4096) = true →
        exec (.regRead f addr n) s = .next (s.hold (addr.toNat / 4096) (.mailbox f addr.toNat n))) ∧
      (fmcSpan addr.toNat n = false → Replies (.regRead f addr n) s f 2 2 [] fun t => s.sameRegs t [])) ∧
    (s.takes f 3 = true →
      (∀ pg off i w, pageInfo pg = some i → s.grants .mgt pg = true → off % 4 = 0 → 0x040 ≤ off → off < 4096 → addr.toNat = pg * 4096 + off →
        addr.toNat < 2 ^ 27 → (∀ u, u = s.fmcSend f 3 (addr.toNat :: regBody [⟨15, w⟩]) ⟨0, [], id⟩ →
          u.hook .mgt pg i off (i.layout.keep off w.toNat) = none) → s.lockHits pg i off (i.layout.keep off w.toNat) = false →
        Replies (.regWrite f addr [⟨15, w⟩]) s f 3 0 [] fun t => s.sameBytes t ∧ s.sameRegs t ((i.layout.fldsAt off).map fun e => fkey pg e.2) ∧
          ∀ e ∈ i.layout.fldsAt off, t.fld pg e.2 = match e.1.priv with
            | .rw => e.2.of (i.layout.keep off w.toNat) % 2 ^ e.2.len
            | .rwl => if s.flag pg F.PG_LOCK_locked then s.fld pg e.2 else e.2.of (i.layout.keep off w.toNat) % 2 ^ e.2.len
            | .w1c => (s.fld pg e.2 - (s.fld pg e.2 &&& e.2.of (i.layout.keep off w.toNat))) % 2 ^ e.2.len
            | _ => s.fld pg e.2) ∧
      (fmcSpan addr.toNat ws.length = false → ws = [] ∨ 2 ^ 27 ≤ addr.toNat → Replies (.regWrite f addr ws) s f 3 2 [] fun t =>
        s.sameRegs t [] ∧ s.sameBytes t) ∧
      (∃ u, (∃ mg o tr ids, u = { s with mgt := mg, outs := o, transit := tr, ideSent := ids }) ∧
        .fmc (srcKey f.src) 3 f.id.toNat (if fmcSpan addr.toNat ws.length then 0 else 2) [] ∈ u.outs ∧
        exec (.regWrite f addr ws) s = exec (.registerWrite (.req .mgt) addr ws false) u)) ∧
    (s.takes f 1 = true → Completes (.getNonce f) s fun t => ∃ nc, nc.length = 48 ∧ Tab.get nonce0 t.mgt.nonces (srcKey f.src) = some nc ∧
      .fmc (srcKey f.src) 1 f.id.toNat 0 (nc.map (·.toNat)) ∈ t.outs ∧ t.regs = s.regs) ∧
    (Completes (.nonceExpiry m) s fun t => Tab.get nonce0 t.mgt.nonces (srcKey m) = none ∧ t.regs = s.regs ∧
      ∀ j, j ≠ srcKey m → Tab.get nonce0 t.mgt.nonces j = Tab.get nonce0 s.mgt.nonces j) ∧
    (s.takes f 4 = true → Replies (.trailRead f slot k) s f 4 0
      ((List.range (min (min k.val 32) (4096 - slot.val))).flatMap fun i => s.trailRaw (slot + i)) fun t => t.trail = s.trail ∧ t.regs = s.regs) ∧
    (∀ e, s.mgtUp = true → s.fmcKept f 4 = some e → ∀ u, u = s.satFld P.mgt F.MGT_CNT_cached 1 →
      (e.cmd = 4 → e.body = [slot.val, k.val] → exec (.trailRead f slot k) s = .next (u.emit (.fmc (srcKey f.src) 4 e.id e.status e.data))) ∧
      (e.cmd ≠ 4 ∨ e.body ≠ [slot.val, k.val] → exec (.trailRead f slot k) s = .next (s.emit (.fmc (srcKey f.src) 4 e.id 2 [])))) ∧
    (s.takes f 5 = true →
      (s.inShutdown = false → s.stuck = false → Replies (.devReset f) s f 5 0 [] fun t => t.ready = false ∧ t.stage = 2 ∧
        t.trail.slots = s.trail.slots ∧ t.fld P.trl F.TRL_BOOTCNT_value = (s.fld P.trl F.TRL_BOOTCNT_value + 1) % 2 ^ 32) ∧
      (s.inShutdown = true → Replies (.devReset f) s f 5 6 [] fun t => t.regs = s.regs)) ∧
    (s.takes f 6 = true →
      (s.inShutdown = true → s.hubOff = true → s.stuck = false → s.power.rails % 16 = 0 → Replies (.restart f) s f 6 0 [] fun t => t.hubOff = false ∧ t.stage = 2 ∧
        t.inShutdown = false ∧ t.trail.slots = s.trail.slots ∧ t.fld P.trl F.TRL_BOOTCNT_value = (s.fld P.trl F.TRL_BOOTCNT_value + 1) % 2 ^ 32) ∧
      (s.inShutdown = false → Replies (.restart f) s f 6 6 [] fun t => t.regs = s.regs)) ∧
    (s.takes f 7 = true → Replies (.eventSub f eid) s f 7 0 [] fun t => t.mgt.evSub = eid ∧ t.regs = s.regs) ∧
    (s.mgtUp = true →
      (∀ e : Fin 256, 0 < e.val → e.val < 255 → exec (.mctpControl m (.setEid e)) s =
        .next ((s.setFld P.mgt (if m.smb then F.MGT_STS_eid_smb else F.MGT_STS_eid_i3c) e).emit (.mctp (srcKey m) [0, e]))) ∧
      exec (.mctpControl m .getEid) s =
        .next (s.emit (.mctp (srcKey m) [0, s.fld P.mgt (if m.smb then F.MGT_STS_eid_smb else F.MGT_STS_eid_i3c)])) ∧
      ∀ (st : Option (BitVec 7)) (da : BitVec 7),
        ((∀ a, st = some a → a.toNat = s.busAddr) → exec (.i3cAddressAssign ⟨st, da⟩) s = .next (s.setFld P.mgt F.MGT_STS_i3c_da da.toNat)) ∧
        ((∃ a, st = some a ∧ a.toNat ≠ s.busAddr) → exec (.i3cAddressAssign ⟨st, da⟩) s = .next s)) ∧
    (f.src.full = true → s.mgtUp = true → s.fmcKept f 7 = none → Replies (.eventSub f eid) s f 7 1 [] fun t => t.regs = s.regs)

/-- Signed commands (R398, R126, R344, R404): their effects, what refuses them, and the end of a fuse write. -/
def Obligations.SignedCommandResults : Prop :=
  ∀ (s : State) (f : Fmc) (g : Signed) (port : Fin 4) (ti cl p : Fin 8) (slot : Fin 4),
    (s.board.fuseWrite = none →
      (s.authentic f 0x10 [port.val] g = true → s.takes f 0x10 = true → Replies (.ownerTransfer f g port) s f 0x10 0 [] fun t => t.owner = port ∧ Tab.get nonce0 t.mgt.nonces (srcKey f.src) = none ∧
        (port.val ≠ s.owner → t.fld (P.hub 0) F.HUB_OWNER_transfers = min 255 (s.fld (P.hub 0) F.HUB_OWNER_transfers + 1)) ∧
        (port.val = s.owner → t.fld (P.hub 0) F.HUB_OWNER_transfers = s.fld (P.hub 0) F.HUB_OWNER_transfers)) ∧
      (s.authentic f 0x11 [ti.val, cl.val, p.val] g = true → s.takes f 0x11 = true → s.fieldMap.length < 1024 → Replies (.fieldSubst f g ti cl p) s f 0x11 0 [] fun t =>
        t.boot.facts.any (·.same ⟨ti, 0, cl, p, 1⟩) = true ∧ Tab.get nonce0 t.mgt.nonces (srcKey f.src) = none ∧ s.sameBytes t ∧
        (s.boot.facts.any (·.same ⟨ti, 0, cl, p, 1⟩) = false → t.boot.facts = s.boot.facts ++ [⟨ti, 0, cl, p, 1⟩] ∧ t.subs = s.subs ++ [⟨ti, 0, cl, p, 1⟩])) ∧
      (s.authentic f 0x11 [ti.val, cl.val, p.val] g = true → s.takes f 0x11 = true → 1024 ≤ s.fieldMap.length → Replies (.fieldSubst f g ti cl p) s f 0x11 7 [] fun t => t.boot = s.boot) ∧
      (s.authentic f 0x12 [] g = true → s.takes f 0x12 = true → Replies (.fieldMapClear f g) s f 0x12 0 [] fun t => t.boot.facts = s.boot.facts ∧ t.fld P.trl F.TRL_STS_fmap_cnt = 0 ∧
        ∀ j, Tab.get slot0 t.trail.slots j = if j < 1024 then none else Tab.get slot0 s.trail.slots j) ∧
      (s.authentic f 0x13 [] g = true → s.takes f 0x13 = true →
        (∀ a, s.boot.stage1 = some a → Replies (.svnCommit f g) s f 0x13 0 [] fun t =>
          t.board.fuseWrite = some (1, max s.board.svn (min 64 a.secVersion)) ∧ t.board.svn = s.board.svn) ∧
        (s.boot.stage1 = none → Replies (.svnCommit f g) s f 0x13 6 [] fun t => t.board = s.board)) ∧
      (s.authentic f 0x14 [slot.val] g = true → s.takes f 0x14 = true →
        (s.keyNeeded slot = false → Replies (.keyRevoke f g slot) s f 0x14 0 [] fun t =>
          t.board.fuseWrite = some (2, slot.val) ∧ t.board.revoked = s.board.revoked) ∧
        (s.keyNeeded slot = true → Replies (.keyRevoke f g slot) s f 0x14 7 [] fun t => t.board = s.board))) ∧
    (s.board.fuseWrite = none → ∀ c : Instr × Nat × List Nat, ∀ big : Nat, c ∈ [(Instr.ownerTransfer f g (4 + big), 0x10, [4 + big]),
        (.fieldSubst f g (8 + big) cl p, 0x11, [8 + big, cl.val, p.val]), (.keyRevoke f g (4 + big), 0x14, [4 + big])] →
      s.authentic f c.2.1 c.2.2 g = true → s.takes f c.2.1 = true → Replies c.1 s f c.2.1 2 [] fun t =>
        t.board = s.board ∧ t.owner = s.owner ∧ t.boot = s.boot ∧ Tab.get nonce0 t.mgt.nonces (srcKey f.src) = none) ∧
    (∀ c : Instr × Nat × List Nat, c ∈ [(Instr.ownerTransfer f g port, 0x10, [port.val]), (.fieldSubst f g ti cl p, 0x11, [ti.val, cl.val, p.val]),
        (.fieldMapClear f g, 0x12, []), (.svnCommit f g, 0x13, []), (.keyRevoke f g slot, 0x14, [slot.val])] → s.takes f c.2.1 = true →
      (s.board.fuseWrite ≠ none → Replies c.1 s f c.2.1 1 [] fun t => t.board = s.board ∧ t.owner = s.owner ∧ t.trail = s.trail) ∧
      (s.board.fuseWrite = none → Tab.get nonce0 s.mgt.nonces (srcKey f.src) ≠ some g.nonce → Replies c.1 s f c.2.1 5 [] fun t =>
        t.board = s.board ∧ t.owner = s.owner ∧ t.trail = s.trail ∧ t.fld P.mgt F.PG_ERR_CNT = min 65535 (s.fld P.mgt F.PG_ERR_CNT + 1)) ∧
      (s.board.fuseWrite = none → Tab.get nonce0 s.mgt.nonces (srcKey f.src) = some g.nonce → s.keyGood g.slot g.key = false →
        Replies c.1 s f c.2.1 4 [] fun t => t.board = s.board ∧ t.owner = s.owner ∧ t.trail = s.trail) ∧
      (s.board.fuseWrite = none → Tab.get nonce0 s.mgt.nonces (srcKey f.src) = some g.nonce → s.keyGood g.slot g.key = true →
        Config.ecdsaP384 g.key (Config.sha384 (signedMsg f c.2.1 c.2.2 g)) g.sig = false →
        Replies c.1 s f c.2.1 4 [] fun t => t.board = s.board ∧ t.owner = s.owner ∧ Tab.get nonce0 t.mgt.nonces (srcKey f.src) = none)) ∧
    (∀ v, s.board.fuseWrite = some (1, v) → Completes .fuseWriteDone s fun t => t.board = { s.board with svn := v, fuseWrite := none } ∧ s.sameBytes t) ∧
    (∀ v : Nat, v < 4 → s.board.fuseWrite = some (2, v) → Completes .fuseWriteDone s fun t => t.board.fuseWrite = none ∧ t.board.svn = s.board.svn ∧
      ∀ b, b < 4 → bitOf t.board.revoked b = (bitOf s.board.revoked b || b == v)) ∧
    (s.board.fuseWrite = none → exec .fuseWriteDone s = .next s)

/-- Debug unlock (R414) and the TAP (R413): a challenge, the scopes that open, what refuses them, and what the selected instruction does. SPDM (R405, R406) and IDE (R407, R408): sessions, measurements, keys and streams, and a stream that turns insecure. -/
def Obligations.DebugAndSecureChannels : Prop :=
  (∀ (s : State) (f : Fmc) (k : DebugToken) (sc : Fin 3),
    (s.takes f 0x15 = true → Completes (.debugChallenge f) s fun t => ∃ c, c.length = 48 ∧ Tab.get nonce0 t.mgt.dbgNonces (srcKey f.src) = some c ∧
      .fmc (srcKey f.src) 0x15 f.id.toNat 0 (c.map (·.toNat) ++ deviceIdBytes.map (·.toNat)) ∈ t.outs) ∧
    (s.takes f 0x16 = true → s.unlockBarred = false →
      (Tab.get nonce0 s.mgt.dbgNonces (srcKey f.src) = some k.nonce → s.tokenKey k = true →
        Config.ecdsaP384 k.key (Config.sha384 (tokenMsg k)) k.sig = true → Replies (.debugUnlock f k.device k.nonce k.scope k.key k.sig) s f 0x16 0 [] fun t =>
        (∀ b, b < 3 → bitOf (t.fld P.mgt F.MGT_SEC_unlocked) b = (bitOf (s.fld P.mgt F.MGT_SEC_unlocked) b || bitOf k.scope.toNat b)) ∧
        Tab.get nonce0 t.mgt.dbgNonces (srcKey f.src) = none) ∧
      (Tab.get nonce0 s.mgt.dbgNonces (srcKey f.src) ≠ some k.nonce → Replies (.debugUnlock f k.device k.nonce k.scope k.key k.sig) s f 0x16 5 [] fun t =>
        t.fld P.mgt F.MGT_SEC_unlocked = s.fld P.mgt F.MGT_SEC_unlocked) ∧
      (Tab.get nonce0 s.mgt.dbgNonces (srcKey f.src) = some k.nonce →
        s.tokenKey k = false ∨ Config.ecdsaP384 k.key (Config.sha384 (tokenMsg k)) k.sig = false →
        Replies (.debugUnlock f k.device k.nonce k.scope k.key k.sig) s f 0x16 4 [] fun t => t.fld P.mgt F.MGT_SEC_unlocked = s.fld P.mgt F.MGT_SEC_unlocked)) ∧
    (s.takes f 0x16 = true → s.unlockBarred = true → Replies (.debugUnlock f k.device k.nonce k.scope k.key k.sig) s f 0x16 6 [] fun t => t.regs = s.regs) ∧
    (s.mgtUp = true →
      (∀ i ∈ [TapInstr.idcode, .bypass, .sample, .preload], exec (.tapInstruction i) s = .next { s with mgt := { s.mgt with tap := i, extest := false } }) ∧
      exec (.tapInstruction (.other sc)) s =
        .next { s with mgt := { s.mgt with tap := if bitOf (s.fld P.mgt F.MGT_SEC_unlocked) sc then .other sc else .bypass, extest := false } } ∧
      (s.mgt.extest = false → Completes (.tapInstruction .extest) s fun t => t.mgt.extest = true ∧ t.hubOff = true ∧
        (∀ p, p < 4 → t.linkUp p = false) ∧ (∀ x, t.core x = Core.reset) ∧ ((∀ p, p < 4 → s.linkUp p = false) → t.mgt.tap = .extest))) ∧
    exec .tapReset s = .next { s with mgt := { s.mgt with tap := .idcode, extest := false } }) ∧
  (∀ (s : State) (r : Responder) (port : Fin 4) (stream : Fin 5) (i : Fin 16),
    (s.respUp r = true → 5 ≤ s.stage → respFull r = false → ∀ k n, k = respNo r → n = s.sessions k →
      (n < 4 → Completes (.spdmRequest r .keyExchange) s fun t => t.sessions k = n + 1 ∧ t.outs = .spdm k true [n + 1] :: s.outs ∧
        ∀ j, j ≠ k → t.sessions j = s.sessions j) ∧
      (4 ≤ n → exec (.spdmRequest r .keyExchange) s = .next (s.emit (.spdm k false [0x0A]))) ∧
      (0 < n → Completes (.spdmRequest r .endSession) s fun t => t.sessions k = n - 1 ∧ t.outs = .spdm k true [n - 1] :: s.outs) ∧
      (i.val = 0 → exec (.spdmRequest r (.measure i)) s = .next (s.emit (.spdm k true [9]))) ∧
      (i.val = 8 → Completes (.spdmRequest r (.measure i)) s fun t =>
        t.outs = .spdm k true (signedAns [s.fld P.mgt F.MGT_SEC_jtag_lock, s.fld P.mgt F.MGT_SEC_unlocked]) :: s.outs ∧ t.regs = s.regs)) ∧
    (s.respUp r = true → s.stage < 5 ∨ respFull r = true → ∀ op, exec (.spdmRequest r op) s = .next (s.emit (.spdm (respNo r) false [3]))) ∧
    (s.respUp (.doe port) = true → s.sessions port ≠ 0 → s.flag (P.hpt port) F.HPT_LINK_STS_flit = true →
      (s.ideState port stream ≠ 2 → Completes (.ideKmRequest port stream .keyProg) s fun t => t.ideState port stream = 1 ∧ t.outs = .ideKm port stream true :: s.outs ∧
        t.regs = s.regs ∧ ∀ (q : Fin 4) (j : Fin 5), q ≠ port ∨ j ≠ stream → t.ideState q j = s.ideState q j) ∧
      (s.ideState port stream ≠ 0 → Completes (.ideKmRequest port stream .setGo) s fun t => t.ideState port stream = 2 ∧ t.outs = .ideKm port stream true :: s.outs) ∧
      (s.ideState port stream = 0 → exec (.ideKmRequest port stream .setGo) s = .next (s.emit (.ideKm port stream false))) ∧
      (s.ideState port stream = 2 → Completes (.ideKmRequest port stream .setStop) s fun t => t.ideState port stream = 1)) ∧
    (s.respUp (.doe port) = true → s.sessions port = 0 ∨ s.flag (P.hpt port) F.HPT_LINK_STS_flit = false →
      ∀ op, exec (.ideKmRequest port stream op) s = .next (s.emit (.ideKm port stream false))) ∧
    (s.ideState port stream = 2 → s.linkUp port = true → s.tenantsOnPort port = [] → s.owner ≠ port → Completes (.ideInsecure port stream) s fun t =>
      t.linkUp port = false ∧ (∀ j, j < 5 → t.ideState port j = 0) ∧ t.sessions port = 0 ∧ bitOf (t.fld P.mgt F.PG_INT_STS) 3 = true) ∧
    (s.ideState port stream ≠ 2 → exec (.ideInsecure port stream) s = .next s))

/-- PLDM monitoring and firmware update (R399, R400, R402), and the management push (R403). -/
def Obligations.PldmResults : Prop :=
  ∀ (s : State) (src : MctpSrc) (inst id comp : Nat) (data : List Byte) (md : Medium),
    (s.pldmNew src inst [2, 0x11, id] = true → Completes (.pldmMonitorRequest src inst (.readSensor id)) s fun t => t.regs = s.regs ∧ t.outs = .pldm (srcKey src)
      (match s.pldmSensor id with | none => 0x80 | _ => 0) (match s.pldmSensor id with | none => [] | some none => [2, 0] | some (some v) => [0, unsgn 16 v]) :: s.outs) ∧
    (∀ e, s.mgtUp = true → src.full = false → Tab.get pldm0 s.mgt.pldm (srcKey src) = some e → e.inst = inst → e.body = [2, 0x11, id] →
      exec (.pldmMonitorRequest src inst (.readSensor id)) s = .next (s.emit (.pldm (srcKey src) e.code e.data))) ∧
    (s.pldmNew src inst [5, 0x14, comp] = true → s.ready = true →
      (s.canUpdate = true → comp = 1 ∨ comp = 2 → Completes (.pldmUpdateComponent src inst comp) s fun t =>
        t.outs = .flashRequest comp 0 :: .pldm (srcKey src) 0 [0] :: s.outs ∧ t.regs = s.regs ∧
        ∃ u, t.mgt.update = some u ∧ u.comp = comp ∧ u.data = [] ∧ (comp = 1 → u.v1 = none) ∧ (comp = 2 → u.v2 = none)) ∧
      (s.canUpdate = false → Completes (.pldmUpdateComponent src inst comp) s fun t => t.mgt.update = s.mgt.update ∧ .pldm (srcKey src) 0 [1] ∈ t.outs)) ∧
    (∀ u, s.mgt.update = some u → u.comp ≠ 0 → s.mgtUp = true → s.ready = true →
      (data.length = 4096 → Completes (.pldmFirmwareData data) s fun t => t.mgt.update = some { u with data := u.data ++ data } ∧
        t.outs = .flashRequest u.comp (u.data.length + 4096) :: .flashWrite s.spareSlot u.comp u.data.length data :: s.outs ∧ t.regs = s.regs) ∧
      (data.length < 4096 → Completes (.pldmFirmwareData data) s fun t => t.mgt.update = some { u with data := u.data ++ data } ∧
        t.outs = .flashWrite s.spareSlot u.comp u.data.length data :: s.outs ∧ t.regs = s.regs) ∧
      ∀ back img bad, img = Image.parse (Option.getD back u.data) →
        bad = img.refusal u.comp (s.fld P.boot F.BOOT_STRAP_pkg_build) s.board.revoked s.board.svn s.board.keys
          (fun i => match img.sections[i]? with | some x => img.body x | none => []) →
        Completes (.pldmVerifyComplete back) s fun t => t.regs = s.regs ∧ t.outs = .pldm 0 0 [u.comp, b2n bad.isSome] :: s.outs ∧
          ∃ w, t.mgt.update = some w ∧ w.comp = 0 ∧ (u.comp = 1 → w.v1 = (if bad.isNone then some img.fwVersion else none) ∧ w.v2 = u.v2) ∧
            (u.comp = 2 → w.v2 = (if bad.isNone then some img.fwVersion else none) ∧ w.v1 = u.v1)) ∧
    (s.mgt.update = none → exec (.pldmFirmwareData data) s = .next s ∧ ∀ back, exec (.pldmVerifyComplete back) s = .next s) ∧
    (s.pldmNew src inst [5, 0x1A] = true → s.ready = true → ∀ u a b, s.mgt.update = some u → u.v1 = some a → u.v2 = some b →
      (a / 65536 = b / 65536 → Completes (.pldmActivateFirmware src inst) s fun t => t.mgt.update = none ∧ .flashDir s.spareSlot ∈ t.outs ∧
        .pldm (srcKey src) 0 [] ∈ t.outs ∧ s.sameBytes t) ∧
      (a / 65536 ≠ b / 65536 → Completes (.pldmActivateFirmware src inst) s fun t => t.mgt.update = some u ∧ .pldm (srcKey src) 0x85 [] ∈ t.outs)) ∧
    (s.mgtUp = true → s.hubDead = false →
      (s.flag P.boot F.BOOT_STS_wait_push = true → s.flag P.boot F.BOOT_PUSH_CTL_go = false → s.flag P.boot F.BOOT_PUSH_CTL_busy = false →
        exec (.managementPush none) s = .next ((s.setFlag P.boot F.BOOT_STS_wait_push false).setFlag P.boot F.BOOT_PUSH_CTL_busy true)) ∧
      (s.flag P.boot F.BOOT_STS_wait_push = false → exec (.managementPush none) s = .next (s.emit .pushBusy)) ∧
      (s.flag P.boot F.BOOT_PUSH_CTL_busy = true → s.stage < 10 →
        ∀ s1 k im u, s1 = (s.setFlag P.boot F.BOOT_PUSH_CTL_go false).setFlag P.boot F.BOOT_PUSH_CTL_busy false →
        s1.pickImage 1 (stage1s md) = (u, [], some (k, im)) → k < 2 → im.fwVersion < 2 ^ 32 →
        Completes (.managementPush (some md)) s fun t => t.flag P.boot F.BOOT_PUSH_CTL_busy = false ∧ t.stage = 5 ∧ t.fld P.boot F.BOOT_STS_slot = k ∧
          t.fld P.boot F.BOOT_STS_src = 2 ∧ t.fld P.boot F.BOOT_FW_VER_fw_version = im.fwVersion))

/-- Grants, start, stop and the ends of a companion program. An assignment of spare stores and when it takes effect (08 R215-R217). -/
def Obligations.CompanionsAndSpares : Prop :=
  (∀ (s : State) (rq : Requester) (h : Fin 16) (w : Word) (a7 a0 tval : Dword) (c : CompanionCause), 4 ≤ h.val →
    (s.grants rq (P.hpc h) = true → ∀ p n, p = bits w.toNat 0 3 → n = bits w.toNat 3 7 →
      (s.hpcBusy h = false → bitOf w.toNat 10 = true → s.hpcShared p h = true → s.bound n = true → s.tnPart n = p →
        Completes (.hpcGrantWrite rq h w) s fun t => t.hpcState h = 1 ∧ t.hpcTenant h = n ∧ t.fld (P.hpc h) F.HPC_GRANT_partition = p ∧
          t.hpcGranted h = true ∧ s.sameRegs t [fkey (P.hpc h) F.HPC_STS_state, fkey (P.hpc h) F.HPC_GRANT_partition, fkey (P.hpc h) F.HPC_GRANT_tenant,
            fkey (P.hpc h) F.HPC_GRANT_valid]) ∧
      (s.hpcBusy h = false → bitOf w.toNat 10 = false → Completes (.hpcGrantWrite rq h w) s fun t => t.hpcState h = 0 ∧ t.hpcGranted h = false) ∧
      (s.hpcBusy h = true → exec (.hpcGrantWrite rq h w) s = .next (s.countErr (P.hpc h) 0x41 (rqCode rq) (accessAddr rq (P.hpc h) 0x044))) ∧
      (s.hpcBusy h = false → bitOf w.toNat 10 = true → s.hpcShared p h = false ∨ s.bound n = false ∨ s.tnPart n ≠ p →
        exec (.hpcGrantWrite rq h w) s = .next (s.countErr (P.hpc h) 0x40 (rqCode rq) (accessAddr rq (P.hpc h) 0x044))) ∧
      (s.hpcGranted h = true → s.hpcState h = 1 ∨ s.hpcState h = 3 ∨ s.hpcState h = 4 → Completes (.hpcStart rq h) s fun t =>
        t.hpcState h = 2 ∧ t.flag (P.hpc h) F.HPC_EXIT_valid = false ∧ s.sameRegs t [fkey (P.hpc h) F.HPC_STS_state, fkey (P.hpc h) F.HPC_EXIT_valid]) ∧
      (s.hpcGranted h = false → exec (.hpcStart rq h) s = .next s) ∧
      (s.hpcState h = 2 → Completes (.hpcStop rq h) s fun t => t.hpcState h = 5 ∧ Tab.get nat0 t.hpcCause h = 4 ∧ s.sameRegs t [fkey (P.hpc h) F.HPC_STS_state]) ∧
      (s.hpcState h ≠ 2 → exec (.hpcStop rq h) s = .next s)) ∧
    (s.hpcState h = 2 →
      (Completes (.companionEcall h 0 a0) s fun t => t.hpcState h = 3 ∧ t.fld (P.hpc h) F.HPC_EXIT_code = a0.toNat % 65536 ∧
        t.fld (P.hpc h) F.HPC_EXIT_cause = 0 ∧ t.flag (P.hpc h) F.HPC_EXIT_valid = true ∧ bitOf (t.fld (P.hpc h) F.PG_INT_STS) 0 = true ∧ s.sameBytes t) ∧
      (a7 ≠ 0 → Completes (.companionEcall h a7 a0) s fun t => t.hpcState h = 4 ∧ t.fld (P.hpc h) F.HPC_EXIT_cause = 7 ∧
        bitOf (t.fld (P.hpc h) F.PG_INT_STS) 1 = true) ∧
      (Completes (.companionException h c tval) s fun t => t.hpcState h = 4 ∧ t.fld (P.hpc h) F.HPC_EXIT_cause = causeCode c ∧
        t.fld64 (P.hpc h) F.HPC_TVAL_LO_tval F.HPC_TVAL_HI_tval = tval.toNat ∧ t.flag (P.hpc h) F.HPC_EXIT_valid = true ∧
        (s.hpcTenant h < 128 → t.fld (P.ten (s.hpcTenant h) 10) F.FL_TAIL_count = (s.fld (P.ten (s.hpcTenant h) 10) F.FL_TAIL_count + 1) % 2 ^ 32))) ∧
    (s.hpcState h ≠ 2 → exec (.companionEcall h a7 a0) s = .next s ∧ exec (.companionException h c tval) s = .next s) ∧
    (s.hpcState h = 5 →
      (Tab.get nat0 s.hpcCause h ≠ 6 → Completes (.companionStopped h) s fun t => t.hpcState h = 3 ∧
        t.fld (P.hpc h) F.HPC_EXIT_cause = Tab.get nat0 s.hpcCause h % 256 ∧ t.hpcGranted h = s.hpcGranted h ∧ Tab.get nat0 t.hpcCause h = 0) ∧
      (Tab.get nat0 s.hpcCause h = 6 → Completes (.companionStopped h) s fun t => t.hpcState h = 0 ∧ t.hpcGranted h = false)) ∧
    (s.hpcState h ≠ 5 → exec (.companionStopped h) s = .next s)) ∧
  (∀ (s : State) (rq : Requester) (x : Fin 512) (w : Word),
    (s.grants rq (P.sto x) = true →
      (s.isSpare x = true → (∀ k, k < 3 → bitOf (spareVal w.toNat k) 7 = true →
          s.bound (spareVal w.toNat k % 128) = true ∧ s.cluPart (x / 8) = some (s.tnPart (spareVal w.toNat k % 128))) →
        Completes (.spareAssignWrite rq x w) s fun t => t.sparePending x = some (w.toNat % 2 ^ 24) ∧ t.flag (P.sto x) F.STO_STS_assign_pending = true ∧
          s.sameRegs t [fkey (P.sto x) F.STO_STS_assign_pending] ∧ ∀ y, y ≠ x.val → t.sparePending y = s.sparePending y) ∧
      (s.isSpare x = false → exec (.spareAssignWrite rq x w) s = .next (s.countErr (P.sto x) 0x40 (rqCode rq) (accessAddr rq (P.sto x) 0x044)))) ∧
    (∀ v, s.sparePending x = some v → v < 2 ^ 24 → s.storesTested x = false →
      (∀ k, k < 3 → s.spareNow x k ≠ spareVal v k → s.spareNow x k < 128 ∨ s.tenantRuns (s.spareNow x k % 128) (x / 8) = false) →
      Completes (.spareAssignTakeEffect x) s fun t => t.sparePending x = none ∧ t.flag (P.sto x) F.STO_STS_assign_pending = false ∧
        (∀ k, k < 3 → t.spareNow x k = spareVal v k) ∧ t.hmp = s.hmp ∧ t.slices = s.slices ∧
        (∀ k, k < 3 → s.spareNow x k ≠ spareVal v k → ∀ a, stoKey x (storeBase k) ≤ a → a < stoKey x (storeBase k) + storeLen k → t.stores.rd a = 0) ∧
        ∀ a, (∀ k, k < 3 → s.spareNow x k ≠ spareVal v k → a < stoKey x (storeBase k) ∨ stoKey x (storeBase k) + storeLen k ≤ a) →
          t.stores.rd a = s.stores.rd a) ∧
    (s.sparePending x = none → exec (.spareAssignTakeEffect x) s = .next s) ∧
    (s.storesTested x = true → exec (.spareAssignTakeEffect x) s = .next s))

/-- Requests inside one line of a slice that serves (R227, R228, R231, R234; 13 R315: a write of a whole line reads nothing, and a write of part of a line whose read meets an uncorrectable error is lost), of a slice that has failed (R237), and on a fenced tile. The failures of a slice (R230, R236), the refresh that only takes time (R229), the window of uncorrectable lines, and a fenced tile's slices. -/
def Obligations.SliceResults : Prop :=
  (∀ (s : State) (x : Fin 512) (addr : BitVec 27) (n : Nat) (data : List Byte) (poison : Bool) (k : Fin 4) (v cmp swap : Dword) (a w : Nat),
    a = skey x addr.toNat → w = (if k.val = 2 then 8 else 4) → s.fenced (x / 64) = false →
    (s.sliceServes x = true →
      (0 < n → addr.toNat % 64 + n ≤ 64 → Completes (.sliceRequest x addr (.read n) .clean) s fun t =>
        t.outs = .sliceData x (if s.slices.isValid a && !s.slices.isLost a then (List.range n).map (fun i => s.slices.rd (a + i)) else List.replicate n 0)
          (s.slices.isLost a || (s.slices.isValid a && Tab.get bit0 s.slices.poison (a / 64))) :: s.outs ∧ s.sameBytes t ∧
        s.sameRegs t [fkey (P.slc x) F.SLC_BYTES_LO_bytes, fkey (P.slc x) F.SLC_BYTES_HI_bytes]) ∧
      (0 < n → addr.toNat % 64 + n ≤ 64 → s.slices.isValid a = true → s.slices.isLost a = false → ∀ e, e = .uncorrectable ∨ e = .buffer →
        Completes (.sliceRequest x addr (.read n) e) s fun t => (∃ d, t.outs.head? = some (.sliceData x d true)) ∧
          t.fld (P.scbP x) F.SCB_CE_CNT_ue_lines = if e = .buffer ∨ Tab.get bit0 s.slices.poison (a / 64) = true then
            s.fld (P.scbP x) F.SCB_CE_CNT_ue_lines else min 65535 (s.fld (P.scbP x) F.SCB_CE_CNT_ue_lines + 1)) ∧
      (0 < data.length → addr.toNat % 64 + data.length ≤ 64 → s.slices.isLost a = false → Completes (.sliceRequest x addr (.write data poison) .clean) s fun t =>
        (∀ b, t.slices.rd b = if a ≤ b ∧ b < a + data.length then data.getD (b - a) 0 else s.slices.rd b) ∧ t.slices.isValid a = true ∧
        t.slices.isLost a = false ∧ t.hmp = s.hmp ∧ t.stores = s.stores ∧ t.outs = s.outs ∧
        (poison = true → Tab.get bit0 t.slices.poison (a / 64) = true)) ∧
      (data.length = 64 → addr.toNat % 64 = 0 → ∀ e, e = .corrected ∨ e = .uncorrectable →
        exec (.sliceRequest x addr (.write data poison) e) s = exec (.sliceRequest x addr (.write data poison) .clean) s) ∧
      (0 < data.length → data.length < 64 → addr.toNat % 64 + data.length ≤ 64 → s.slices.isValid a = true → s.slices.isLost a = false →
        Tab.get bit0 s.slices.poison (a / 64) = false → s.cluPart (x / 8) = none → Completes (.sliceRequest x addr (.write data poison) .uncorrectable) s fun t =>
          t.slices.bytes = s.slices.bytes ∧ Tab.get bit0 t.slices.poison (a / 64) = true ∧ t.hmp = s.hmp ∧ t.stores = s.stores) ∧
      (0 < data.length → addr.toNat % 64 + data.length ≤ 64 → s.slices.isLost a = true → Completes (.sliceRequest x addr (.write data poison) .clean) s fun t =>
        (∀ b, t.slices.rd b = if a ≤ b ∧ b < a + data.length then data.getD (b - a) 0 else if b / 4096 = a / 4096 then 0 else s.slices.rd b) ∧
        t.slices.isValid a = true ∧ t.slices.isLost a = false ∧
        (∀ l, l / 64 = a / 4096 → l ≠ a / 64 → Tab.get bit0 t.slices.poison l = true) ∧ t.hmp = s.hmp ∧ t.stores = s.stores) ∧
      (addr.toNat % w = 0 → s.slices.isLost a = false → (s.sliceRead x addr.toNat w).2 = false → Completes (.sliceRequest x addr (.atomic k v) .clean) s fun t =>
        t.outs = .sliceData x (s.sliceRead x addr.toNat w).1 false :: s.outs ∧
        ∀ b, t.slices.rd b = if a ≤ b ∧ b < a + w then
          (leBytes w (mvaOp k (leNat (s.sliceRead x addr.toNat w).1) (v.toNat % 2 ^ (8 * w)))).getD (b - a) 0 else s.slices.rd b) ∧
      (addr.toNat % 8 = 0 → s.slices.isLost a = false → (s.sliceRead x addr.toNat 8).2 = false → Completes (.sliceRequest x addr (.cas cmp swap) .clean) s fun t =>
        t.outs = .sliceData x (s.sliceRead x addr.toNat 8).1 false :: s.outs ∧
        ∀ b, t.slices.rd b = if leNat (s.sliceRead x addr.toNat 8).1 = cmp.toNat ∧ a ≤ b ∧ b < a + 8 then (leBytes 8 swap.toNat).getD (b - a) 0
          else s.slices.rd b)) ∧
    (s.sliceState x = 3 → 0 < data.length → addr.toNat % 64 + data.length ≤ 64 →
      exec (.sliceRequest x addr (.write data poison) .clean) s = .next (s.countErr (P.slc x) 0x40 0xFF addr.toNat) ∧
      exec (.sliceRequest x addr (.read 1) .clean) s = .next (s.emit (.sliceData x [0] true)))) ∧
  (∀ (s : State) (x : Fin 512) (rq : Requester),
    (s.sliceServes x = true → ∀ c : Instr × Nat, c ∈ [(Instr.sliceBondError x, 3), (.sliceCalibration x false, 4)] →
      Completes c.1 s fun t => t.sliceState x = 3 ∧ t.fld (P.slc x) F.SLC_STS_fail_cause = c.2 ∧ bitOf (t.fld (P.slc x) F.PG_INT_STS) 0 = true ∧
        (∀ y : Nat, y ≠ x → t.sliceState y = s.sliceState y) ∧ t.hmp = s.hmp ∧ t.stores = s.stores ∧ (s.cluPart (x / 8) = none → s.sameBytes t)) ∧
    (s.sliceServes x = true → s.grants rq (P.slc x) = true → Completes (.slcForceFail rq x) s fun t => t.sliceState x = 3 ∧
      t.fld (P.slc x) F.SLC_STS_fail_cause = 5 ∧ (s.cluPart (x / 8) = none → s.sameBytes t)) ∧
    (s.sliceServes x = false → exec (.sliceBondError x) s = .next s ∧ exec (.sliceCalibration x false) s = .next s ∧
      (s.grants rq (P.slc x) = true → exec (.slcForceFail rq x) s = .next s)) ∧
    exec (.sliceCalibration x true) s = .next s ∧ exec (.sliceRefresh x) s = .next s ∧
    (Completes (.ueWindowEnd x) s fun t => Tab.get list0 t.ueWin x = [] ∧ (∀ y : Nat, y ≠ x → Tab.get list0 t.ueWin y = Tab.get list0 s.ueWin y) ∧
      ∃ m, t = { s with ueWin := m }) ∧
    (s.fenced (x / 64) = true → ∀ addr op e, exec (.sliceRequest x addr op e) s = .next s))

/-- Scrubbers (R317, R318) and the windows of corrected errors (R321). Memory self-tests (R328) and the tenant fault log's clear (R330). -/
def Obligations.ScrubAndSelfTest : Prop :=
  (∀ (s : State) (cl : Option (Fin 64)) (x : Fin 512) (m : ScbId) (rq : Requester) (w : Word) (ecc : EccIn),
    (s.ready = true → s.flag (idlePg cl) F.SCB_I_CTL_enable = true → s.unavailable (idlePg cl) = false →
      (∀ l l' ls, s.scrubLines cl (Tab.get nat0 s.scrubPos (idlePg cl)) = l :: l' :: ls → Completes (.idleScrubLine cl ecc) s fun t =>
        Tab.get nat0 t.scrubPos (idlePg cl) = scrubIdx cl l + 1 ∧ s.sameBytes t ∧ (ecc = .clean → t.regs = s.regs) ∧
        (ecc = .corrected → (if cl.isSome then s.stores.linePoison l else s.hmp.linePoison l) = false →
          t.fld (idlePg cl) F.SCB_CE_CNT_window_ce = min 65535 (s.fld (idlePg cl) F.SCB_CE_CNT_window_ce + 1)) ∧
        (ecc = .uncorrectable → (if cl.isSome then t.stores.linePoison l else t.hmp.linePoison l) = true)) ∧
      (s.scrubLines cl (Tab.get nat0 s.scrubPos (idlePg cl)) = [] → Completes (.idleScrubLine cl ecc) s fun t =>
        Tab.get nat0 t.scrubPos (idlePg cl) = 0 ∧ t.flag (idlePg cl) F.SCB_I_LAP_incomplete = false ∧ bitOf (t.fld (idlePg cl) F.PG_INT_STS) 0 = true ∧
        Tab.get nat0 t.scrubStart (idlePg cl) = s.now ∧ s.sameBytes t)) ∧
    (s.ready = true → s.flag (idlePg cl) F.SCB_I_CTL_enable = true → s.flag (idlePg cl) F.SCB_I_LAP_incomplete = false →
      Completes (.scrubLapLimit cl) s fun t => t.flag (idlePg cl) F.SCB_I_LAP_incomplete = true ∧
        t.fld (idlePg cl) F.SCB_I_LAP_laps_late = min 32767 (s.fld (idlePg cl) F.SCB_I_LAP_laps_late + 1) ∧ bitOf (t.fld (idlePg cl) F.PG_INT_STS) 1 = true) ∧
    (s.ready = false → exec (.scrubLapLimit cl) s = .next s ∧ exec (.idleScrubLine cl ecc) s = .next s ∧ exec (.patrolScrubStep x ecc) s = .next s) ∧
    (s.ready = true → s.flag (P.scbP x) F.SCB_P_CTL_enable = true → s.sliceServes x = true → s.fenced (x / 64) = false → ∀ l, l = Tab.get nat0 s.scrubPos (P.scbP x) →
      (l + 1 < sliceLines → Completes (.patrolScrubStep x .clean) s fun t => Tab.get nat0 t.scrubPos (P.scbP x) = l + 1 ∧
        t.fld (P.scbP x) F.SCB_P_STS_pct = 100 * (l + 1) / sliceLines ∧ s.sameRegs t [fkey (P.scbP x) F.SCB_P_STS_pct] ∧ s.sameBytes t) ∧
      (l + 1 = sliceLines → Completes (.patrolScrubStep x .clean) s fun t => Tab.get nat0 t.scrubPos (P.scbP x) = 0 ∧
        t.fld (P.scbP x) F.SCB_P_STS_passes = min 65535 (s.fld (P.scbP x) F.SCB_P_STS_passes + 1) ∧ t.fld (P.scbP x) F.SCB_P_STS_pct = 0)) ∧
    (Completes (.ceWindowEnd m) s fun t => t.fld (scbPg m) F.SCB_CE_CNT_window_ce = 0 ∧ Tab.get nat0 t.ceStart (scbPg m) = s.now ∧
      s.sameRegs t [fkey (scbPg m) F.SCB_CE_CNT_window_ce] ∧ s.sameBytes t) ∧
    (s.grants rq (scbPg m) = true →
      (s.flag (scbPg m) F.PG_LOCK_locked = false → Completes (.ceWindowWrite rq m w) s fun t =>
        t.fld (scbPg m) F.SCB_CE_CFG_ce_thresh = bits w.toNat 0 16 ∧ t.fld (scbPg m) F.SCB_CE_CFG_ce_window_h = bits w.toNat 16 8 ∧ s.sameBytes t) ∧
      (s.flag (scbPg m) F.PG_LOCK_locked = true → s.fld (scbPg m) F.SCB_CE_CFG_ce_thresh ≠ bits w.toNat 0 16 →
        exec (.ceWindowWrite rq m w) s = .next (s.countErr (scbPg m) 0x03 (rqCode rq) (accessAddr rq (scbPg m) 0x04C))))) ∧
  (∀ (s : State) (x : Fin 512) (cl : Fin 64) (n : Fin 128) (rq : Requester) (w : Word),
    (s.grants rq (P.scbP x) = true → bitOf w.toNat 0 = true → s.flag (P.scbP x) F.SCB_BIST_start = false →
      (s.sliceState x = 4 ∨ (s.sliceState x = 1 ∧ s.inNoSet x = true) →
        exec (.memorySelfTest rq (.slice x) w) s = .next (s.setFlag (P.scbP x) F.SCB_BIST_start true)) ∧
      (s.sliceState x ≠ 4 → s.sliceState x ≠ 1 ∨ s.inNoSet x = false → Completes (.memorySelfTest rq (.slice x) w) s fun t =>
        t.fld (P.scbP x) F.SCB_BIST_refused = min 255 (s.fld (P.scbP x) F.SCB_BIST_refused + 1) ∧ t.flag (P.scbP x) F.SCB_BIST_start = false ∧ s.sameBytes t)) ∧
    (s.grants rq (P.scbC cl) = true → bitOf w.toNat 0 = true → s.flag (P.scbC cl) F.SCB_BIST_start = false → ∀ p, p = bits w.toNat 1 3 →
      s.isSpare (8 * cl.val + p) = true → (∀ k, k < 3 → s.spareNow (8 * cl.val + p) k < 128) → Completes (.memorySelfTest rq (.cluster cl) w) s fun t =>
        t.flag (P.scbC cl) F.SCB_BIST_start = true ∧ t.fld (P.scbC cl) F.SCB_BIST_target = p ∧ Tab.get spare0 t.bistCore cl = some p ∧ s.sameBytes t) ∧
    (s.grants rq P.scbH = true → bitOf w.toNat 0 = true →
      exec (.memorySelfTest rq .hamper w) s = .next (s.countErr P.scbH 0x42 (rqCode rq) (accessAddr rq P.scbH 0x050))) ∧
    ((∀ p, p < 8 → s.ptState p ≠ 1) →
      (∀ pass, s.flag (P.scbP x) F.SCB_BIST_start = true → Completes (.selfTestDone (.slice x) pass) s fun t =>
        t.flag (P.scbP x) F.SCB_BIST_start = false ∧ t.flag (P.scbP x) F.SCB_BIST_done = true ∧ t.flag (P.scbP x) F.SCB_BIST_pass = pass ∧ t.hmp = s.hmp ∧
        t.stores = s.stores ∧ ∀ b, t.slices.rd b = if skey x 0 ≤ b ∧ b < skey x 0 + sliceSize then 0 else s.slices.rd b) ∧
      (∀ pass p, s.flag (P.scbC cl) F.SCB_BIST_start = true → Tab.get spare0 s.bistCore cl = some p → Completes (.selfTestDone (.cluster cl) pass) s fun t =>
        t.flag (P.scbC cl) F.SCB_BIST_start = false ∧ t.flag (P.scbC cl) F.SCB_BIST_pass = pass ∧ t.slices = s.slices ∧
        ∀ b, t.stores.rd b = if stoKey (8 * cl.val + p) 0 ≤ b ∧ b < stoKey (8 * cl.val + p) 0 + 0x100000 then 0 else s.stores.rd b)) ∧
    (∀ m pass, s.flag (scbPg m) F.SCB_BIST_start = false → exec (.selfTestDone m pass) s = .next s) ∧
    (s.grants rq (P.ten n 10) = true → Completes (.faultLogClear rq n) s fun t => t.fld (P.ten n 10) F.FL_TAIL_count = 0 ∧
      (∀ i, i < 512 → t.fld (P.ten n 10) (F.FL_ENTRY_dword i) = 0) ∧ s.sameBytes t ∧ ∀ k, k < 128 → k ≠ n.val →
        t.fld (P.ten k 10) F.FL_TAIL_count = s.fld (P.ten k 10) F.FL_TAIL_count))

/-- Datagrams (R271-R279): frames a port refuses are counted, and a datagram that continues the open frame of an enabled stream in order moves the window, lands in the ring and publishes nothing while its frame is short. Releases, gaps and repeats (R277, R279, R280). -/
def Obligations.DatagramsAndFlow : Prop :=
  (∀ (s : State) (n : Fin 2) (f : EthFrame), s.ethUp n = true →
    (f.fcsOk = false ∨ f.macLen < 64 ∨ 9238 < f.macLen → exec (.datagramReceive n f) s = .next (s.satFld (P.stp (1 + n)) F.STP_PORT_CNT0_fcs 1)) ∧
    (s.ethTakes n f = true →
      (s.skMatch n f = none → exec (.datagramReceive n f) s = .next (s.satFld (P.stp (1 + n)) F.STP_PORT_CNT0_no_stream 1)) ∧
      (∀ k, s.skMatch n f = some k →
        (s.skState k = 5 → exec (.datagramReceive n f) s = .next s) ∧
        (s.skState k ≠ 5 → s.skBad k f.udp = true → exec (.datagramReceive n f) s =
          .next ((s.satFld (P.stp (1 + n)) F.STP_PORT_CNT1_malformed 1).satSkf k F.STP_SK_CNT3_malformed)) ∧
        (s.skState k = 2 ∨ s.skState k = 3 ∨ s.skState k = 4 → s.skBad k f.udp = false → bitOf (beNum f.udp 1 1) 1 = false →
          ∀ q off data v fr, q = beNum f.udp 4 4 → off = beNum f.udp 12 4 → data = f.udp.drop 24 → v = s.sk k → v.est = true → v.seen = [] →
          s.skf k F.STP_SK_EXPECT_value = q → v.frames = [fr] → fr.dbl = false → fr.id = beNum f.udp 8 4 → beNum f.udp 16 4 ≤ s.skMax k →
          fr.got + data.length < fr.len → (∀ r ∈ fr.ranges, off + data.length ≤ r.1 ∨ r.1 + r.2 ≤ off) →
          Completes (.datagramReceive n f) s fun t => t.skf k F.STP_SK_EXPECT_value = (q + 1) % 2 ^ 32 ∧ (t.sk k).tail = v.tail ∧ (t.sk k).seen = [] ∧
            (∃ g, (t.sk k).frames = [g] ∧ g.id = fr.id ∧ g.b = fr.b ∧ g.got = fr.got + data.length ∧ g.ranges = fr.ranges ++ [(off, data.length)]) ∧
            t.hmp = ((s.skMove k q [q] 0).skPutData k (fr.b + off) data).hmp ∧ t.outs = s.outs ∧ t.stores = s.stores ∧ t.slices = s.slices)))) ∧
  (∀ (s : State) (k : Fin 512),
    (∀ v a h d, v = s.sk k → a = s.skIndex k + 0x40 → s.apPoison (s.skTenant k) a 4 = none → h = leNat (s.apRead (s.skTenant k) a 4) →
      d = (h + 2 ^ 32 - v.head % 2 ^ 32) % 2 ^ 32 →
      (s.skState k = 2 → 0 < d → d ≤ v.tail - v.head → 2 * (v.live.drop d).sum < s.skA k → (v.live.drop d).length < 512 →
        Completes (.streamHeadRead k) s fun t => t.sk k = { v with head := v.head + d, live := v.live.drop d } ∧
          t.skf k F.STP_SK_FILL_value = (v.live.drop d).sum % 2 ^ 32 ∧ s.sameBytes t ∧ t.outs = s.outs) ∧
      (s.skOn k = true → s.skState k ≠ 5 → d = 0 → exec (.streamHeadRead k) s = .next s) ∧
      (s.skOn k = true → s.skState k ≠ 5 → 0 < d → v.tail - v.head < d → Completes (.streamHeadRead k) s fun t => t.sk k = v ∧ s.sameBytes t ∧
        t.fld (P.stream k) F.PG_ERR_CNT = min 65535 (s.fld (P.stream k) F.PG_ERR_CNT + 1))) ∧
    (s.skOn k = true → s.skState k ≠ 5 → (s.sk k).est = true → (s.sk k).seen ≠ [] → (s.sk k).frames = [] → ∀ e, e = s.skf k F.STP_SK_EXPECT_value →
      (s.sk k).seen.contains ((e + 1) % 2 ^ 32) = false → Completes (.sequenceGapTimeout k) s fun t => t.skf k F.STP_SK_EXPECT_value = (e + 1) % 2 ^ 32 ∧
        t.skf k F.STP_SK_CNT1_lost = min 65535 (s.skf k F.STP_SK_CNT1_lost + 1) ∧ (t.sk k).lost = (s.sk k).lost + 1 ∧ s.sameBytes t) ∧
    (s.skOn k = false ∨ (s.sk k).seen = [] → exec (.sequenceGapTimeout k) s = .next s) ∧
    (s.skSends k = true → ∀ c : Instr, (c = .haltRepeat k ∧ (s.skState k = 4 ∨ s.skState k = 5)) ∨ (c = .easeRepeat k ∧ s.skState k = 3) →
      Completes c s fun t => t = s.emit (.ksf (s.skPort k) k (s.skf k F.STP_SK_BIND_peer) (s.skBytes ⟨k, (s.sk k).cur.1, true, (s.sk k).cur.2⟩))) ∧
    (s.skState k ≠ 3 → exec (.easeRepeat k) s = .next s) ∧
    (s.skState k ≠ 4 → s.skState k ≠ 5 → exec (.haltRepeat k) s = .next s) ∧
    (∀ q c, (s.sk k).resume = some (q, c) → s.skOn k = true → s.skSends k = true → Completes (.resumeRepeat k) s fun t =>
      (t.sk k).resume = (if c ≤ 1 then none else some (q, c - 1)) ∧ t.regs = s.regs ∧
      t.outs = .ksf (s.skPort k) k (s.skf k F.STP_SK_BIND_peer) (s.skBytes ⟨k, 3, true, q⟩) :: s.outs) ∧
    ((s.sk k).resume = none → exec (.resumeRepeat k) s = .next s))

/-- The ports (R271, R280, R285, R287): pauses, refreshes, neighbour requests, PTP and the link. Enabling and disabling a stream context (R285, R286). -/
def Obligations.StreamPortsAndContexts : Prop :=
  (∀ (s : State) (n m : Fin 2) (prio : Fin 8) (time : BitVec 16) (ns : Bool) (a : BitVec 128) (pm : PtpIn),
    (s.ethUp n = true →
      (s.skPausing n prio ≠ [] → exec (.pfcRefresh n prio) s = .next (s.emit (.pfc n prio 0xFFFF))) ∧
      (s.skPausing n prio = [] → exec (.pfcRefresh n prio) s = .next s) ∧
      (time ≠ 0 → Completes (.pfcReceive n prio time) s fun t => bitOf (t.eth n).paused prio = true ∧ t.regs = s.regs ∧ t.outs = s.outs) ∧
      (Completes (.pfcReceive n prio 0) s fun t => bitOf (t.eth n).paused prio = false ∧ t.regs = s.regs ∧
        (s.fld (P.stp (1 + n)) F.STP_PORT_CTL_ctl_prio = prio → (t.eth n).held = [] ∧ t.outs.length = s.outs.length + (s.eth n).held.length)) ∧
      (a.toNat = s.ethIp n ns → exec (.arpNsRequest n ns a) s = .next (s.emit (.neighbour n ns a.toNat))) ∧
      (a.toNat ≠ s.ethIp n ns → exec (.arpNsRequest n ns a) s = .next (s.satFld (P.stp (1 + n)) F.STP_PORT_CNT1_other 1)) ∧
      (Completes (.ptpMessage n pm) s fun t => t.flag (P.stp 0) F.STP_STS_ptp_locked = pm.locked ∧ s.sameBytes t ∧
        (∀ v, pm.time = some v → t.ptpNow = v.toNat) ∧ (pm.time = none → t.ptpOff = s.ptpOff) ∧
        t.outs = (if pm.delayReq then .delayReq n t.ptpNow :: s.outs else s.outs) ∧
        (s.flag (P.stp 0) F.STP_STS_ptp_locked ≠ pm.locked → bitOf (t.fld (P.stp 0) F.PG_INT_STS) 0 = true)) ∧
      (Completes (.ethernetLinkDown n) s fun t => t.ethUp n = false ∧ (m ≠ n → t.ethUp m = s.ethUp m) ∧ t.eth n = EthPort.reset ∧
        bitOf (t.fld (P.stp (1 + n)) F.PG_INT_STS) 1 = true ∧ s.sameBytes t)) ∧
    (bitOf (s.eth n).paused prio = true → Completes (.pfcPauseExpiry n prio) s fun t => bitOf (t.eth n).paused prio = false ∧ t.regs = s.regs) ∧
    (bitOf (s.eth n).paused prio = false → exec (.pfcPauseExpiry n prio) s = .next s) ∧
    (s.ethUp n = false → exec (.ethernetLinkDown n) s = .next s ∧ exec (.pfcReceive n prio time) s = .next s ∧ exec (.pfcRefresh n prio) s = .next s ∧
      exec (.arpNsRequest n ns a) s = .next s ∧ exec (.ptpMessage n pm) s = .next s) ∧
    (s.ready = true → s.ethUp n = false → s.flag (P.stp (1 + n)) F.STP_PORT_CTL_enable = true → s.ethMac n ≠ 0 → s.devFailed = false → s.hubOff = false →
      Completes (.ethernetLinkUp n) s fun t => t.ethUp n = true ∧ (m ≠ n → t.ethUp m = s.ethUp m) ∧ bitOf (t.fld (P.stp (1 + n)) F.PG_INT_STS) 0 = true ∧
        s.sameBytes t) ∧
    (s.ethMac n = 0 → exec (.ethernetLinkUp n) s = .next s)) ∧
  (∀ (s : State) (rq : Requester) (k : Fin 512) (w : Word), s.grants rq (P.stream k) = true →
    (bitOf w.toNat 31 = true → s.skOn k = false → ∀ u, u = (s.each [F.STP_SK_BIND_stream_id, F.STP_SK_BIND_port, F.STP_SK_BIND_peer, F.STP_SK_BIND_tenant,
        F.STP_SK_BIND_pfc] fun g s => s.setSkf k g (bits w.toNat (g 0).lo (g 0).len)).setSkf k F.STP_SK_BIND_enable 1 →
      (∀ cs, u.skCheck k = some cs → Completes (.streamEnable rq k w) s fun t => t.skState k = 1 ∧ t.skf k F.STP_SK_EXPECT_value = 0 ∧
        t.skf k F.STP_SK_BIND_tenant = bits w.toNat 23 7 ∧ (∀ c ∈ cs, (t.comp c).bound = true) ∧ (t.sk k).gen = (s.sk k).gen + 1 ∧
        (t.sk k).cur = (3, (s.sk k).ctl) ∧ (t.sk k).frames = []) ∧
      (u.skCheck k = none → Completes (.streamEnable rq k w) s fun t => t.skState k = 6 ∧ t.cmap = s.cmap ∧ bitOf (t.fld (P.stream k) F.PG_INT_STS) 2 = true ∧
        t.fld (P.stream k) F.PG_ERR_CNT = min 65535 (s.fld (P.stream k) F.PG_ERR_CNT + 1))) ∧
    (bitOf w.toNat 31 = false → Completes (.streamDisable rq k w) s fun t => t.skState k = 0 ∧ t.skf k F.STP_SK_BIND_enable = 0 ∧
      t.stores = s.stores ∧ t.slices = s.slices ∧
      (s.skOn k = true → (t.sk k).frames = [] ∧ (t.sk k).live = [] ∧ (t.sk k).est = false ∧ (t.sk k).resume = none)) ∧
    (bitOf w.toNat 31 = false → exec (.streamEnable rq k w) s = .next s) ∧
    (bitOf w.toNat 31 = true → exec (.streamDisable rq k w) s = .next s))

/-- Sessions (R290, R293, R305, R307, R310): an enable that passes its checks makes the session READY with the parameter block it read, a refused one says why, a disable of an idle session turns it OFF. Engines (R308, R309): self-test, its end, the reset of a failed engine, a fault. -/
def Obligations.CodecSessionsAndEngines : Prop :=
  (∀ (s : State) (rq : Requester) (i : Fin 64) (w : Word), s.grants rq (vcPg i) = true →
    (bitOf w.toNat 31 = true → s.vcOn i = false → ∀ u v, u = (s.each vcLive fun g s => s.setVcf i g (bits w.toNat (g 0).lo (g 0).len)).setVcf i F.VCE_SS_BIND_enable 1 →
      v = { VcSt.reset with par := u.apRead (u.vcTenant i) (u.vcCtl i) 256, gen := (s.vc i).gen,
                            cancel := leNat (u.apRead (u.vcTenant i) (u.vcCtl i + 0x144) 1) } →
      (u.vcRefuse i v = none → Completes (.vceSessionEnable rq i w) s fun t => t.vcState i = 1 ∧ (t.vc i).par = v.par ∧ (t.vc i).gen = (s.vc i).gen + 1 ∧
        (t.vc i).run = none ∧ (t.vc i).c = 0 ∧ t.vcf i F.VCE_SS_CNT_recoded = 0 ∧ t.vcf i F.VCE_SS_STS_cause = 0 ∧ t.vcTenant i = u.vcTenant i ∧
        (v.encodes = true → v.constQp = false → (t.vc i).b = v.b0)) ∧
      (∀ c d, u.vcRefuse i v = some (c, d) → Completes (.vceSessionEnable rq i w) s fun t => t.vcState i = 4 ∧ t.vcf i F.VCE_SS_STS_cause = c % 32 ∧
        t.vcf i F.VCE_SS_STS_detail = d % 256 ∧ t.cmap = s.cmap ∧ s.sameBytes t ∧ bitOf (t.fld (vcPg i) F.PG_INT_STS) 0 = true)) ∧
    (bitOf w.toNat 31 = false → s.vcOn i = false → Completes (.vceSessionDisable rq i w) s fun t => t.vcState i = 0 ∧ s.sameBytes t) ∧
    (bitOf w.toNat 31 = false → s.vcState i = 1 ∨ s.vcState i = 5 → (s.vc i).run = none → (s.vc i).ended = [] → (s.vc i).c = (s.vc i).vis →
      Completes (.vceSessionDisable rq i w) s fun t => t.vcState i = 0 ∧ (t.vc i).run = none ∧ t.stores = s.stores ∧ t.slices = s.slices) ∧
    (bitOf w.toNat 31 = false → exec (.vceSessionEnable rq i w) s = .next s) ∧
    (bitOf w.toNat 31 = true → exec (.vceSessionDisable rq i w) s = .next s)) ∧
  (∀ (s : State) (rq : Requester) (n : Fin 4) (pass : Bool),
    (s.grants rq (P.vce n 0) = true →
      (s.engine n = 0 ∨ s.engine n = 4 → (∀ i, i < 64 → s.vcOn i = true → bitOf (s.vcMask i) n = false) →
        Completes (.vceBist rq n) s fun t => t.engine n = 2 ∧ t.flag (P.vce n 0) F.VCE_CTL_bist = true ∧
          s.sameRegs t [fkey (P.vce n 0) F.VCE_STS_state, fkey (P.vce n 0) F.VCE_CTL_bist] ∧ s.sameBytes t) ∧
      (s.engine n = 1 ∨ s.engine n = 2 ∨ s.engine n = 3 → Completes (.vceBist rq n) s fun t => t.engine n = s.engine n ∧
        t.fld (P.vce n 0) F.VCE_BIST_refused = min 255 (s.fld (P.vce n 0) F.VCE_BIST_refused + 1) ∧
        t.fld (P.vce n 0) F.PG_ERR_CNT = min 65535 (s.fld (P.vce n 0) F.PG_ERR_CNT + 1)) ∧
      (s.engine n = 3 → s.vclkLost = false → exec (.vceEngineReset rq n) s = .next (s.setFld (P.vce n 0) F.VCE_STS_state 0)) ∧
      (s.engine n ≠ 3 ∨ s.vclkLost = true → exec (.vceEngineReset rq n) s = .next s)) ∧
    (s.engine n = 2 → Completes (.vceBistDone n pass) s fun t => t.engine n = (if pass then 0 else 4) ∧ t.flag (P.vce n 0) F.VCE_CTL_bist = false ∧
      t.flag (P.vce n 0) F.VCE_BIST_done = true ∧ t.flag (P.vce n 0) F.VCE_BIST_pass = pass ∧ bitOf (t.fld (P.vce n 0) F.PG_INT_STS) 0 = true) ∧
    (s.engine n ≠ 2 → exec (.vceBistDone n pass) s = .next s) ∧
    (s.engine n ≠ 3 → (∀ i, i < 64 → s.vcOn i = true → bitOf (s.vcMask i) n = false) → Completes (.vceEngineFault n) s fun t => t.engine n = 3 ∧
      bitOf (t.fld (P.vce n 0) F.PG_INT_STS) 1 = true ∧ (∀ m, m < 4 → m ≠ n.val → t.engine m = s.engine m) ∧ s.sameBytes t) ∧
    (s.engine n = 3 → exec (.vceEngineFault n) s = .next s))

/-- Commands (R294-R296, R306): what a poll makes visible, the start of a picture on every engine of the session, and the entry of a command that fails its checks. -/
def Obligations.CodecCommandResults : Prop :=
  ∀ (s : State) (i : Fin 64) (v : VcSt), v = s.vc i →
    (s.vcState i = 1 ∨ s.vcState i = 2 → s.tnState (s.vcTenant i) ≠ 3 → v.ended = [] → ∀ a p d, a = s.vcCtl i + 0x140 →
      s.apPoison (s.vcTenant i) a 8 = none → p = leNat (s.apRead (s.vcTenant i) a 4) → leNat (s.apRead (s.vcTenant i) (a + 4) 1) = v.cancel →
      d = (p + 2 ^ 32 - v.c) % 2 ^ 32 → v.prod ≠ some p →
      (d ≤ 256 → Completes (.vceProducerPoll i) s fun t => (t.vc i).prod = some p ∧ (t.vc i).c = v.c ∧
        (t.vc i).vis = (if (v.vis + 2 ^ 32 - v.c) % 2 ^ 32 < d then p else v.vis) ∧ t.outs = s.outs) ∧
      (256 < d → Completes (.vceProducerPoll i) s fun t => (t.vc i).prod = some p ∧ (t.vc i).vis = v.vis ∧
        t.fld (vcPg i) F.PG_ERR_CNT = min 65535 (s.fld (vcPg i) F.PG_ERR_CNT + 1) ∧ s.sameBytes t)) ∧
    (s.vcTurn (s.vcMask i) = some i.val → ∀ cmd c, cmd = s.vcCmd i v.c → c = (if v.encodes then Instr.vceEncode i else .vceDecode i) →
      (s.vcCmdBad i cmd = none → Completes c s fun t => (t.vc i).c = (v.c + 1) % 2 ^ 32 ∧ t.vcState i = 2 ∧ Tab.get nat0 t.vcLast (s.vcMask i) = i ∧
        (∃ r, (t.vc i).run = some r ∧ r.cmd = cmd ∧ r.start = s.now ∧ r.twice = false ∧ r.intra = (v.encodes && v.intraNow cmd)) ∧
        (∀ e, e < 4 → bitOf (s.vcMask i) e = true → t.engine e = 1 ∧ t.fld (P.vce e 0) F.VCE_STS_session = i) ∧
        (t.queue (s.vcTenant i) (s.vcQueue i)).reserved = (s.queue (s.vcTenant i) (s.vcQueue i)).reserved + 1) ∧
      (∀ o, s.vcCmdBad i cmd = some o → s.entryGoes (s.vcTenant i) (s.vcQueue i) = true → Completes c s fun t =>
        (t.vc i).c = (v.c + 1) % 2 ^ 32 ∧ (t.vc i).run = v.run ∧ ∃ j fn pa a e, .cqEntry (s.vcTenant i) (s.vcQueue i) j fn pa a (CqEntry.bytes e) false ∈ t.outs ∧
          e.status = 5 ∧ e.detail = o ∧ e.tag = dfield cmd 0 4)) ∧
    (s.vcTurn (s.vcMask i) ≠ some i.val → exec (.vceEncode i) s = .next s ∧ exec (.vceDecode i) s = .next s) ∧
    (v.encodes = true → exec (.vceDecode i) s = .next s) ∧
    (v.encodes = false → exec (.vceEncode i) s = .next s)

/-- The ends of passes and pictures (R300-R304, R309). -/
def Obligations.CodecPictureResults : Prop :=
  ∀ (s : State) (i : Fin 64) (v : VcSt) (r : VcRun) (len : Nat) (qp : Fin 256) (dec : DecIn), v = s.vc i → v.run = some r →
    (v.encodes = true → v.stall = none → r.inPoison = none →
      (v.constQp = false → v.b < v.bytes len → r.twice = false → Completes (.encodePassDone i len qp) s fun t => (t.vc i).run = some { r with twice := true } ∧
        (t.vc i).recodes = v.recodes + 1 ∧ t.vcf i F.VCE_SS_CNT_recoded = min 65535 (s.vcf i F.VCE_SS_CNT_recoded + 1) ∧ (t.vc i).b = v.b ∧ t.outs = s.outs) ∧
      (v.constQp = true → s.vcPlace i len = none → Completes (.encodePassDone i len qp) s fun t => (t.vc i).run = some r ∧
        (t.vc i).stall = some ⟨len, if r.intra || r.refPoison.isSome then 0 else 1, v.p 0x13 1, 0, 0, 0⟩ ∧ s.sameBytes t ∧ t.regs = s.regs) ∧
      (v.constQp = true → r.refPoison = none → v.ended = [] → s.vcState i = 2 → s.entryGoes (s.vcTenant i) (s.vcQueue i) = true → ∀ o, s.vcPlace i len = some o →
        Completes (.encodePassDone i len qp) s fun t => (t.vc i).run = none ∧ (t.vc i).tail = (v.tail + 1) % 2 ^ 32 ∧ (t.vc i).pics = v.pics + 1 ∧
          (t.vc i).live = v.live ++ [(o, (len + 63) / 64 * 64)] ∧ (t.vc i).wpos = o + (len + 63) / 64 * 64 ∧ t.vcState i = 1 ∧
          (∀ e, e < 4 → bitOf (s.vcMask i) e = true → t.engine e ≠ 1) ∧
          ∃ j fn pa a e, .cqEntry (s.vcTenant i) (s.vcQueue i) j fn pa a (CqEntry.bytes e) false ∈ t.outs ∧ e.status = 0 ∧ e.result = len ∧ e.tag = dfield r.cmd 0 4)) ∧
    (v.encodes = false → exec (.encodePassDone i len qp) s = .next s) ∧
    (v.encodes = true → exec (.vceDecodeDone i dec) s = .next s) ∧
    (v.encodes = false → r.inPoison = none → s.vcRefPoison i ((List.range (v.p 0x14 1 + 1)).filter fun j => bitOf dec.refs.toNat j) = none → v.ended = [] →
      s.vcState i = 2 → s.entryGoes (s.vcTenant i) (s.vcQueue i) = true →
      (dec.exceeded = none → Completes (.vceDecodeDone i dec) s fun t => (t.vc i).run = none ∧ t.vcState i = 1 ∧
        (t.vc i).seq = (if dec.newSeq then (v.seq + 1) % 2 ^ 14 else v.seq) ∧
        ∃ j fn pa a e, .cqEntry (s.vcTenant i) (s.vcQueue i) j fn pa a (CqEntry.bytes e) false ∈ t.outs ∧ e.status = 0 ∧ e.tag = dfield r.cmd 0 4 ∧
          e.result = dec.poc.toNat + 2 ^ 16 * (if dec.newSeq then (v.seq + 1) % 2 ^ 14 else v.seq) + (if dec.concealed then 2 ^ 30 else 0) +
            (if dec.noPicture then 2 ^ 31 else 0)) ∧
      (∀ o, dec.exceeded = some o → Completes (.vceDecodeDone i dec) s fun t => (t.vc i).run = none ∧ (t.vc i).seq = v.seq ∧
        ∃ j fn pa a e, .cqEntry (s.vcTenant i) (s.vcQueue i) j fn pa a (CqEntry.bytes e) false ∈ t.outs ∧ e.status = 5 ∧ e.detail = 0x100 + o.val)) ∧
    (∀ a h d, s.vcOn i = true → v.encodes = true → s.tnState (s.vcTenant i) ≠ 3 → a = s.vcOut i + 0x40 → s.apPoison (s.vcTenant i) a 4 = none →
      h = leNat (s.apRead (s.vcTenant i) a 4) → d = (h + 2 ^ 32 - v.head) % 2 ^ 32 →
      (0 < d → d ≤ v.live.length → v.stall = none → Completes (.vceOutputHeadRead i) s fun t =>
        t.vc i = { v with head := h, live := v.live.drop d } ∧ s.sameBytes t ∧ t.regs = s.regs) ∧
      (d = 0 → exec (.vceOutputHeadRead i) s = .next s) ∧
      (v.live.length < d → Completes (.vceOutputHeadRead i) s fun t => t.vc i = v ∧ t.fld (vcPg i) F.PG_ERR_CNT = min 65535 (s.fld (vcPg i) F.PG_ERR_CNT + 1))) ∧
    (s.vcOn i = false → exec (.vceOutputHeadRead i) s = .next s)

/-- Operating points and limits (R353-R355, R358): a change starts, goes on at the lock and at the voltage, and ends, and with it the access that waited for it runs (03 R66); the writes of a request and of the power limits. Power domains (R356, R357, R360, R366): a queued domain starts its ramp, its stages close in order, the last needs the rail, and a short takes the domain out. -/
def Obligations.OperatingPointsAndDomains : Prop :=
  (∀ (s : State) (ti : Fin 8) (rq : Requester) (w : Word) (c : OppChg), c = s.chg ti →
    (s.regOn ti = true → (s.oppTarget ti).1 ≠ (if c.active then c.goal else s.fld (P.pwrT ti) F.PWR_T_STS_opp) → Completes (.oppChangeStart ti) s fun t =>
      t.chg ti = ⟨true, s.freqOpp ti, (s.oppTarget ti).1, false, false⟩ ∧ t.flag (P.pwrT ti) F.PWR_T_STS_busy = true ∧
      s.sameRegs t [fkey (P.pwrT ti) F.PWR_T_STS_busy] ∧ (∀ j : Nat, j ≠ ti → t.chg j = s.chg j) ∧ s.sameBytes t) ∧
    (s.regOn ti = false ∨ (s.oppTarget ti).1 = (if c.active then c.goal else s.fld (P.pwrT ti) F.PWR_T_STS_opp) → exec (.oppChangeStart ti) s = .next s) ∧
    (c.active = true → Tab.get held0 s.held ti = [] →
      (c.freq < c.goal → c.vdd = false → Completes (.pllLocked ti) s fun t => t.chg ti = { c with locked := true } ∧ t.regs = s.regs) ∧
      (c.freq < c.goal → c.vdd = true → Completes (.pllLocked ti) s fun t => t.chg ti = OppChg.none ∧ t.fld (P.pwrT ti) F.PWR_T_STS_opp = c.goal % 32 ∧
        t.flag (P.pwrT ti) F.PWR_T_STS_busy = false ∧ t.power.raised = true ∧ bitOf (t.fld (P.pwrT ti) F.PG_INT_STS) 0 = true) ∧
      (c.goal ≤ c.freq → c.vdd = false → Completes (.pllLocked ti) s fun t => t.chg ti = { c with locked := true, freq := c.goal } ∧ t.regs = s.regs) ∧
      (c.goal = c.freq → s.vddHeld ti = false → Completes (.vddTReached ti) s fun t => t.chg ti = OppChg.none ∧ t.fld (P.pwrT ti) F.PWR_T_STS_opp = c.goal % 32 ∧
        t.fld (P.pwrT ti) F.PWR_T_STS_vdd_mv = vddOf ti c.goal % 1024 ∧ t.flag (P.pwrT ti) F.PWR_T_STS_busy = false) ∧
      (c.goal < c.freq → exec (.vddTReached ti) s = .next s)) ∧
    (c.active = false → s.held = [] ∨ s.flag (P.pwrT ti) F.PWR_T_STS_busy = true → exec (.pllLocked ti) s = .next s ∧ exec (.vddTReached ti) s = .next s) ∧
    (∀ h, c.active = true → c.freq < c.goal → c.vdd = true → Tab.get held0 s.held ti = [h] →
      ∀ u, u = { s.pllLock ti with held := Tab.set held0 s.held ti [] } → exec (.pllLocked ti) s = .next (u.heldRun h)) ∧
    (s.grants rq (P.pwrT ti) = true → Completes (.pwrTReqWrite rq ti w) s fun t => t.fld (P.pwrT ti) F.PWR_T_REQ_opp_req = min (bits w.toNat 0 5) s.maxOpp ∧
      (bits w.toNat 0 5 ≤ s.maxOpp → t.outs = s.outs ∧ s.sameRegs t [fkey (P.pwrT ti) F.PWR_T_REQ_opp_req]) ∧
      (s.maxOpp < bits w.toNat 0 5 → t.fld (P.pwrT ti) F.PG_ERR_CNT = min 65535 (s.fld (P.pwrT ti) F.PG_ERR_CNT + 1))) ∧
    (s.grants rq P.pwr = true → s.flag P.pwr F.PG_LOCK_locked = false → Completes (.pwrLimitWrite rq w) s fun t =>
      t.fld P.pwr F.PWR_LIMIT_p_sust = min (bits w.toNat 0 8) (s.fld P.boot F.BOOT_VARIANT_p_sust) ∧
      t.fld P.pwr F.PWR_LIMIT_p_peak = min (bits w.toNat 8 8) (s.fld P.boot F.BOOT_VARIANT_p_peak) ∧ s.sameBytes t) ∧
    (s.grants rq P.pwr = true → s.flag P.pwr F.PG_LOCK_locked = true → s.fld P.pwr F.PWR_LIMIT_p_sust ≠ bits w.toNat 0 8 →
      exec (.pwrLimitWrite rq w) s = .next (s.countErr P.pwr 0x03 (rqCode rq) (accessAddr rq P.pwr 0x044)))) ∧
  (∀ (s : State) (ti : Fin 8) (i : Fin 136) (rail : Bool),
    (∀ j, ((List.range 136).filter fun k => s.dom ti k == 2).length < s.rampSlots ti → j < 136 → s.dom ti j = 1 → j < 8 ∨ s.dom ti (domClu j) = 3 →
      (∀ k, k < j → s.dom ti k ≠ 1 ∨ (8 ≤ k ∧ s.dom ti (domClu k) ≠ 3)) → Completes (.domainRampStart ti) s fun t => t.dom ti j = 2 ∧ t.ramp ti j = 1 ∧
        (∀ k, k < 136 → k ≠ j → t.dom ti k = s.dom ti k ∧ t.ramp ti k = s.ramp ti k) ∧ s.sameBytes t) ∧
    (s.rampSlots ti ≤ ((List.range 136).filter fun k => s.dom ti k == 2).length → exec (.domainRampStart ti) s = .next s) ∧
    (s.dom ti i = 2 →
      (s.ramp ti i % 8 < 3 → Completes (.rampStageDwell ti i) s fun t => t.ramp ti i = s.ramp ti i + 1 ∧ t.regs = s.regs) ∧
      (s.ramp ti i % 8 = 3 → bitOf (s.ramp ti i) 3 = true → Completes (.rampStageDwell ti i) s fun t => t.ramp ti i = 12 ∧ t.regs = s.regs) ∧
      (s.ramp ti i % 8 = 3 → bitOf (s.ramp ti i) 3 = false → Completes (.rampStageDwell ti i) s fun t => t.ramp ti i = 19 ∧ t.regs = s.regs) ∧
      (s.ramp ti i % 8 = 4 → Completes (.rampStageDwell ti i) s fun t => t.dom ti i = 3 ∧ t.ramp ti i = 0) ∧
      (bitOf (s.ramp ti i) 4 = true → Completes (.virtualRail90 ti i) s fun t => t.ramp ti i = 12 ∧ t.regs = s.regs) ∧
      (bitOf (s.ramp ti i) 4 = false → bitOf (s.ramp ti i) 3 = false → Completes (.virtualRail90 ti i) s fun t => t.ramp ti i = s.ramp ti i + 8 ∧ t.regs = s.regs) ∧
      (∃ u : State, ∃ f : FieldFact, exec (.domainShort ti i rail) s = .next ((u.addFact f).applyFact f) ∧ u.dom ti i = 4 ∧ u.ramp ti i = 0 ∧
        f.tile = ti ∧ f.cluster = domClu i ∧ f.kind = (if domType i = 0 then 2 else 0) ∧ f.cause = 3 ∧ (domType i ≠ 0 → f.p = domP i) ∧
        u.fld (P.pwrT ti) F.PWR_T_SHORT_cluster = domClu i ∧ u.fld (P.pwrT ti) F.PWR_T_SHORT_type = domType i ∧
        u.flag (P.pwrT ti) F.PWR_T_SHORT_cause = rail ∧ u.flag (P.pwrT ti) F.PWR_T_SHORT_valid = true ∧ s.sameBytes u ∧
        bitOf (u.fld (P.pwrT ti) F.PG_INT_STS) 1 = true)) ∧
    (s.dom ti i ≠ 2 → exec (.rampStageDwell ti i) s = .next s ∧ exec (.virtualRail90 ti i) s = .next s ∧ exec (.domainShort ti i rail) s = .next s))

/-- Samples, the power loop, which waits while a fast clamp of the package holds, and the fast clamps (R361-R364). Regulators and board rails (R367; 18 R423): a regulator fault loses its tile, a supply that fails leaves only always-on logic, the last one back starts bring-up, VDD_IO asserts PERST_N, VAO_IO stops the device. -/
def Obligations.PowerAndSupply : Prop :=
  (∀ (s : State) (i : PowerIn) (ti : Fin 8),
    (s.aoUp = true → s.thm.tripped = false → Completes (.powerSample i) s fun t =>
      t.power.samples = (⟨packageMw i, i.vinMv, i.vinMa, i.dramMa, i.serMa, i.tileMa⟩ :: s.power.samples).take 100 ∧
      t.power.energy = s.power.energy + packageMw i ∧ t.power.n10 = s.power.n10 + 1 ∧ t.power.sum10 = s.power.sum10 + packageMw i ∧
      t.fld P.pwr F.PWR_PKG_p_w = min 4095 (t.pAvg / 1000) ∧ t.power.bucket = min s.bucketCap (s.power.bucket + t.pAvg - s.pSust) ∧
      t.flag P.pwr F.PWR_STS_vin_ok = decide (1746 ≤ i.vinMv ∧ i.vinMv ≤ 1854) ∧ s.sameBytes t) ∧
    (s.aoUp = false ∨ s.thm.tripped = true → exec (.powerSample i) s = .next s) ∧
    (∀ e c p k, e = s.power.bucket → c = s.bucketCap → p = s.pAvg → k = s.fld P.pwr F.PWR_STS_cap → k < 32 → s.flag P.pwr F.PWR_STS_clamp = false →
      (9 * c ≤ 10 * e → s.pSust < p → Completes .powerLoopTick s fun t => t.fld P.pwr F.PWR_STS_cap = k - 1 ∧ t.flag P.pwr F.PWR_STS_limiting = decide (k - 1 < s.maxOpp) ∧
        (k = s.maxOpp → 0 < k → bitOf (t.fld P.pwr F.PG_INT_STS) 0 = true) ∧ s.sameBytes t) ∧
      (10 * e < 9 * c → 2 * e ≤ c → 100 * p ≤ 97 * s.pSust → Completes .powerLoopTick s fun t => t.fld P.pwr F.PWR_STS_cap = min s.maxOpp (k + 1) % 32) ∧
      (10 * e < 9 * c → c < 2 * e ∨ 97 * s.pSust < 100 * p → exec .powerLoopTick s = .next s)) ∧
    (s.flag P.pwr F.PWR_STS_clamp = true → exec .powerLoopTick s = .next s) ∧
    (Completes (.fastClampRelease (some ti)) s fun t => t.ownClamp ti = false ∧ t.flag (P.pwrT ti) F.PWR_T_STS_clamp = s.flag P.pwr F.PWR_STS_clamp ∧
      (∀ j : Nat, j ≠ ti → t.ownClamp j = s.ownClamp j) ∧ s.sameRegs t [fkey (P.pwrT ti) F.PWR_T_STS_clamp] ∧ s.sameBytes t) ∧
    (Completes (.fastClampRelease none) s fun t => t.flag P.pwr F.PWR_STS_clamp = false ∧
      (∀ j, j < 8 → t.flag (P.pwrT j) F.PWR_T_STS_clamp = s.ownClamp j ∧ t.ownClamp j = s.ownClamp j) ∧ s.sameBytes t)) ∧
  (∀ (s : State) (ti : Fin 8) (under : Bool),
    (s.regOn ti = true → (∃ u, exec (.regulatorFault ti under) s = exec (.tileLost ti .regulator) u ∧ u.regOn ti = false ∧ u.fenced ti = s.fenced ti ∧
      u.fld (P.pwrT ti) F.PWR_T_STS_opp = 0 ∧ u.fld (P.pwrT ti) F.PWR_T_STS_vdd_mv = 0 ∧ u.chg ti = OppChg.none ∧ s.sameBytes u ∧
      bitOf (u.fld (P.pwrT ti) F.PG_INT_STS) 3 = true)) ∧
    (s.regOn ti = true → (∀ p, p < 8 → s.ptState p = 0) → s.findRst 4 ti = none → Completes (.regulatorFault ti under) s fun t =>
      t.fenced ti = true ∧ t.regOn ti = false ∧ t.fld (P.pwrT ti) F.PWR_T_STS_opp = 0 ∧ t.fld (P.pwrT ti) F.PWR_T_STS_vdd_mv = 0 ∧
      t.chg ti = OppChg.none ∧ bitOf (t.fld (P.pwrT ti) F.PG_INT_STS) 3 = true ∧ (s.fenced ti = false → ∀ y, y < 8 → t.fld (P.clu (8 * ti + y)) F.CLU_MAP_online = 0) ∧
      (s.trail.queue = [] → ∃ r q, t.trail.queue = r :: q ∧ r.typ = 6 ∧ r.payload = [1, ti.val, b2n under])) ∧
    (s.regOn ti = false → exec (.regulatorFault ti under) s = .next s) ∧
    (s.hubOff = false → s.stuck = false → ∀ c : Instr × Nat, c ∈ [(Instr.vinCoreLow, 0), (.railLoss .vddDram, 1), (.railLoss .vppDram, 2), (.railLoss .vddSer, 3)] →
      Completes c.1 s fun t => t.hubOff = true ∧ bitOf t.power.rails c.2 = true ∧ t.trail.slots = s.trail.slots ∧ (∀ x, t.core x = Core.reset) ∧
        (∀ a, t.hmp.rd a = 0) ∧ (∀ p, p < 4 → t.linkUp p = false) ∧
        (s.trail.queue.length < 16 → ∃ r, t.trail.queue = s.trail.queue ++ [r] ∧ r.typ = 0x06 ∧ r.payload = [2, c.2])) ∧
    (s.stuck = false → s.hubOff = true → s.inShutdown = false →
      ∀ c : Instr × Nat, c ∈ [(Instr.vinCoreRestored, 0), (.railRestored .vddDram, 1), (.railRestored .vppDram, 2), (.railRestored .vddSer, 3)] →
      bitOf s.power.rails c.2 = true →
        (s.power.rails % 16 = 2 ^ c.2 → Completes c.1 s fun t => t.hubOff = false ∧ t.stage = 2 ∧ t.ready = false ∧ bitOf t.power.rails c.2 = false ∧
          t.trail.slots = s.trail.slots ∧ t.fld P.trl F.TRL_BOOTCNT_value = (s.fld P.trl F.TRL_BOOTCNT_value + 1) % 2 ^ 32) ∧
        (s.power.rails % 16 ≠ 2 ^ c.2 → Completes c.1 s fun t => bitOf t.power.rails c.2 = false ∧ t.regs = s.regs ∧ t.hubOff = true)) ∧
    (bitOf s.power.rails 0 = false → exec .vinCoreRestored s = .next s) ∧
    ((∀ p, p < 4 → s.linkUp p = false) →
      (Completes (.railLoss .vddIo) s fun t => bitOf t.power.rails 4 = true ∧
        ∀ p, p < 4 → (t.port p).railBad = true ∧ t.flag (P.hpt p) F.HPT_LINK_STS_perst = true ∧ t.linkUp p = false) ∧
      ((∀ p, p < 4 → (s.port p).perst = false) → Completes (.railRestored .vddIo) s fun t => bitOf t.power.rails 4 = false ∧
        ∀ p, p < 4 → (t.port p).railBad = false ∧ t.flag (P.hpt p) F.HPT_LINK_STS_perst = false)) ∧
    (Completes (.railLoss .vaoIo) s fun t => t.hubOff = true ∧ t.thm.tripped = true ∧ t.thm.tripPin = false ∧ bitOf t.power.rails 5 = true ∧
      t.board.fuseWrite = none ∧ (s.trail.queue = [] → t.trail.slots = s.trail.slots ∧ t.trail.queue = []) ∧ ∀ x, t.core x = Core.reset) ∧
    (Completes (.railRestored .vaoIo) s fun t => bitOf t.power.rails 5 = false ∧ t.regs = s.regs ∧ t.thm = s.thm ∧ t.hubOff = s.hubOff))

/-- A conversion in which every sensor of a die answers v (R371, R376, R385): all sensors read v, a reading of 108 °C or more takes a tile to HOT with request 0, one at both trip thresholds trips the device. Steps of a tile's thermal request and of the bands (R372, R376; 09 R229), and the rise evaluation (R387, R382). -/
def Obligations.ThermalResults : Prop :=
  (∀ (s : State) (d : Fin 9) (v : BitVec 11) (x : Int), x = sgn 11 v.toNat → -160 ≤ x → x ≤ 600 → s.aoUp = true → s.thm.tripped = false →
    (∀ k, k < sensorCount d → s.flag (thmPage d) (sensorValid d k) = true ∨ (Tab.get sens0 s.thm.sens (32 * d + k)).seen = false) →
    (x < 4 * (s.fld (P.thm 0) F.THM_CFG_trip_logic : Int) → x < 4 * (s.fld (P.thm 0) F.THM_CFG_trip_dram : Int) →
      Completes (.thermalConversion d (List.replicate (sensorCount d) ⟨true, v⟩)) s fun t => t.thm.tripped = false ∧ s.sameBytes t ∧
        (∀ k, k < sensorCount d → t.sensor d k = some x ∧ Tab.get sens0 t.thm.sens (32 * d + k) = ⟨true, 0⟩) ∧
        (∀ e k, e < 9 → e ≠ d.val → k < sensorCount e → t.sensor e k = s.sensor e k) ∧
        (d.val < 8 → t.fld (P.thmT d) F.THM_T_STS_logic_max = v.toNat ∧ t.fld (P.thmT d) F.THM_T_MEAN_valid_logic = 20 ∧
          t.fld (P.thmT d) F.THM_T_MEAN_valid_dram = 8 ∧ (432 ≤ x → t.thmReq d = 0 ∧ t.thmState d = 2))) ∧
    (4 * (s.fld (P.thm 0) F.THM_CFG_trip_logic : Int) ≤ x → 4 * (s.fld (P.thm 0) F.THM_CFG_trip_dram : Int) ≤ x →
      Completes (.thermalConversion d (List.replicate (sensorCount d) ⟨true, v⟩)) s fun t => t.thm.tripped = true ∧ t.thm.tripPin = true ∧ t.hubOff = true ∧
        (∀ y, t.core y = Core.reset) ∧ ∀ p, p < 4 → t.linkUp p = false)) ∧
  (∀ (s : State) (ti : Fin 8) (d : Fin 9),
    (s.thmState ti = 1 → s.mustThrottle ti = true → s.thmReq ti < 32 → Completes (.throttleStep ti) s fun t => t.thmReq ti = s.thmReq ti - 1 ∧
      s.sameRegs t [fkey (P.thmT ti) F.THM_T_STS_req] ∧ s.sameBytes t) ∧
    (s.thmState ti ≠ 1 ∨ s.mustThrottle ti = false → exec (.throttleStep ti) s = .next s) ∧
    (s.thmState ti < 2 → s.mayRelease ti = true → s.maxOpp < 32 → Completes (.throttleReleaseStep ti) s fun t => t.thmReq ti = min s.maxOpp (s.thmReq ti + 1) ∧
      (s.maxOpp ≤ s.thmReq ti + 1 → t.thmState ti = 0) ∧ (s.thmReq ti + 1 < s.maxOpp → t.thmState ti = s.thmState ti) ∧ s.sameBytes t) ∧
    (2 ≤ s.thmState ti ∨ s.mayRelease ti = false → exec (.throttleReleaseStep ti) s = .next s) ∧
    (∀ b, b = s.band d → b < 4 →
      (0 < b → s.bandMet d b 7 = false → Completes (.samplingBandDrop d) s fun t => t.band d = b - 1 ∧ (∀ e, e < 9 → e ≠ d.val → t.band e = s.band e) ∧ s.sameBytes t) ∧
      (b = 0 ∨ s.bandMet d b 7 = true → exec (.samplingBandDrop d) s = .next s)) ∧
    (∀ b, b = s.refreshBand ti →
      (0 < b → s.dramOf ti ≠ [] → (∀ v ∈ s.dramOf ti, v ≤ degC (if b = 2 then 92 else 82)) → Completes (.refreshBandFall ti) s fun t =>
        t.refreshBand ti = b - 1 ∧ (∀ e : Nat, e ≠ ti → t.refreshBand e = s.refreshBand e) ∧ s.sameBytes t) ∧
      (b = 0 ∨ s.dramOf ti = [] ∨ (∃ v ∈ s.dramOf ti, degC (if b = 2 then 92 else 82) < v) → exec (.refreshBandFall ti) s = .next s)) ∧
    (s.aoUp = true → s.thm.tripped = false → Completes .riseEvaluation s fun t => t.thm.sum = [] ∧ t.thm.num = [] ∧ t.power.lo = none ∧ t.power.hi = 0 ∧
      t.power.raised = false ∧ (∃ r, t.thm.hist = (r :: s.thm.hist).take 40 ∧ r.p = s.pAvg ∧ r.m = (List.range 9).map s.dieMean) ∧
      (s.thm.hist.length < 40 → t.thm.rising = false) ∧ s.sameBytes t) ∧
    (s.aoUp = false ∨ s.thm.tripped = true → exec .riseEvaluation s = .next s))

/-- Coolant channels, the emergency floor and its causes (R374, R387, R388; 18 R430). Cooling shutdown (R389), its absorb point, the snapshots and the forecast (R379-R382), and the writes of the throttle temperature and of the energy table. -/
def Obligations.CoolingResults : Prop :=
  (∀ (s : State) (rq : Requester) (k : Fin 2) (temp : Int),
    (s.aoUp = true → s.thm.tripped = false →
      (∀ v, v = max (-200) (min 1200 temp) → s.flag (P.thm 1) (F.THM_EXT_broken k) = false → Completes (.extNtcConversion k true temp) s fun t =>
        t.fld (P.thm 1) (F.THM_EXT_temp k) = unsgn 12 v ∧ t.flag (P.thm 1) (F.THM_EXT_stale k) = false ∧ Tab.get nat0 t.thm.ext k = 0 ∧ s.sameBytes t ∧
        (10 * (s.fld (P.thm 1) (if k.val = 0 then F.THM_EXT_CFG_alarm_in else F.THM_EXT_CFG_alarm_out) : Int) ≤ v →
          sgn 12 (s.fld (P.thm 1) (F.THM_EXT_temp k)) < 10 * (s.fld (P.thm 1) (if k.val = 0 then F.THM_EXT_CFG_alarm_in else F.THM_EXT_CFG_alarm_out) : Int) →
          bitOf (t.fld (P.thm 1) F.PG_INT_STS) (2 + k) = true)) ∧
      (s.flag (P.thm 1) (F.THM_EXT_broken k) = false → Completes (.extNtcConversion k false temp) s fun t =>
        t.fld (P.thm 1) (F.THM_EXT_temp k) = s.fld (P.thm 1) (F.THM_EXT_temp k) ∧ t.flag (P.thm 1) (F.THM_EXT_stale k) = true ∧
        t.fld (P.thm 1) (F.THM_EXT_invalid_cnt k) = min 255 (s.fld (P.thm 1) (F.THM_EXT_invalid_cnt k) + 1) ∧
        t.flag (P.thm 1) (F.THM_EXT_broken k) = decide (Tab.get nat0 s.thm.ext k ≠ 0))) ∧
    (s.aoUp = false ∨ s.thm.tripped = true → ∀ ok, exec (.extNtcConversion k ok temp) s = .next s) ∧
    (s.okEn = true → s.inShutdown = false → s.stuck = false → s.hubOff = false → Completes .coolantOkHigh s fun t => t.thm.pinLow = false ∧
      t.flag (P.thm 0) F.THM_STS_floor = true ∧ bitOf (t.fld (P.thm 0) F.THM_STS_cause) 0 = true ∧
      (s.flag (P.thm 0) F.THM_STS_floor = false → t.thm.floorAt = some s.now ∧ bitOf (t.fld (P.thm 0) F.PG_INT_STS) 0 = true) ∧ s.sameBytes t) ∧
    (s.okEn = false → exec .coolantOkHigh s = .next { s with thm := { s.thm with pinLow := false } }) ∧
    (Completes .coolantOkRestored s fun t => t.thm.pinLow = true ∧ bitOf (t.fld (P.thm 0) F.THM_STS_cause) 0 = false ∧ s.sameBytes t ∧
      (s.fld (P.thm 0) F.THM_STS_cause = 1 → t.flag (P.thm 0) F.THM_STS_floor = false ∧ t.thm.floorAt = none)) ∧
    ((∀ v ∈ s.allOf 8, v ≤ 420) → Completes .hubTHotRestored s fun t => bitOf (t.fld (P.thm 0) F.THM_STS_cause) 2 = false ∧ s.sameBytes t ∧
      (s.fld (P.thm 0) F.THM_STS_cause = 4 → t.flag (P.thm 0) F.THM_STS_floor = false ∧ t.thm.floorAt = none)) ∧
    ((∃ v ∈ s.allOf 8, 420 < v) → exec .hubTHotRestored s = .next s) ∧
    (s.grants rq (P.thm 1) = true →
      (s.inShutdown = false → s.thm.rising = false → s.thm.pinLow = true ∨ s.okEn = false → Completes (.floorRelease rq) s fun t =>
        bitOf (t.fld (P.thm 0) F.THM_STS_cause) 1 = false ∧ s.sameBytes t ∧
        (s.fld (P.thm 0) F.THM_STS_cause = 2 → t.flag (P.thm 0) F.THM_STS_floor = false ∧ t.thm.floorAt = none)) ∧
      (s.inShutdown = true ∨ s.thm.rising = true ∨ (s.thm.pinLow = false ∧ s.okEn = true) →
        exec (.floorRelease rq) s = .next (s.countErr (P.thm 1) 0x41 (rqCode rq) (accessAddr rq (P.thm 1) 0x040))))) ∧
  (∀ (s : State) (rq : Requester) (w : Word),
    (s.inShutdown = false → s.stuck = false → s.hubOff = false → s.fld (P.thm 0) F.THM_STS_cause % 4 ≠ 0 → (∀ k, k < 512 → s.skOn k = false) →
      Completes .coolingShutdown s fun t => t.inShutdown = true ∧ bitOf (t.fld (P.thm 0) F.PG_INT_STS) 2 = true ∧ s.sameBytes t ∧
        (s.trail.queue.length < 15 → ∃ a b, t.trail.queue = s.trail.queue ++ [a, b] ∧ a.typ = 4 ∧ b.typ = 5)) ∧
    (s.inShutdown = true ∨ s.fld (P.thm 0) F.THM_STS_cause % 4 = 0 → exec .coolingShutdown s = .next s) ∧
    (s.inShutdown = true → s.hubOff = false → s.stuck = false → Completes .coolingShutdownAbsorb s fun t => t.hubOff = true ∧
      (∀ x, t.core x = Core.reset) ∧ (∀ a, t.hmp.rd a = 0) ∧ ∀ p, p < 4 → t.linkUp p = false) ∧
    (s.inShutdown = false → exec .coolingShutdownAbsorb s = .next s) ∧
    (s.aoUp = true → s.thm.tripped = false → s.trail.queue.length < 16 → Completes .cycleSnapshot s fun t => s.sameBytes t ∧
      ∃ r, t.trail.queue = s.trail.queue ++ [r] ∧ r.typ = 5 ∧ r.payload = s.cyclePayload) ∧
    (s.aoUp = false ∨ s.thm.tripped = true → exec .cycleSnapshot s = .next s) ∧
    (s.hubDead = false → s.stuck = false → Completes .forecastPublish s fun t => t.thm.fc = s.forecastValues ∧ t.power.sum10 = 0 ∧ t.power.n10 = 0 ∧
      t.fld (P.disp 4) F.DISP_FC_SEQ_value = (s.fld (P.disp 4) F.DISP_FC_SEQ_value + 1) % 65536 ∧ bitOf (t.fld (P.disp 4) F.PG_INT_STS) 0 = true ∧
      s.sameBytes t ∧ (s.mgt.evSub ≠ 0 → ∃ rec', .forecast s.mgt.evSub rec' ∈ t.outs)) ∧
    (s.hubDead = true → exec .forecastPublish s = .next s) ∧
    (s.grants rq (P.thm 0) = true → s.flag (P.thm 0) F.PG_LOCK_locked = false → Completes (.thmCfgWrite rq w) s fun t =>
      t.fld (P.thm 0) F.THM_CFG_t_throttle = min 105 (max 85 (bits w.toNat 0 7)) ∧ s.sameBytes t ∧
      (85 ≤ bits w.toNat 0 7 → bits w.toNat 0 7 ≤ 105 → s.sameRegs t [fkey (P.thm 0) F.THM_CFG_t_throttle])) ∧
    (s.grants rq (P.thm 0) = true → s.flag (P.thm 0) F.PG_LOCK_locked = true → bits w.toNat 0 7 ≠ s.fld (P.thm 0) F.THM_CFG_t_throttle →
      exec (.thmCfgWrite rq w) s = .next (s.countErr (P.thm 0) 0x03 (rqCode rq) (accessAddr rq (P.thm 0) 0x044))) ∧
    (s.grants rq (P.disp 5) = true → Completes (.energyTableClear rq) s fun t => t.etab = [] ∧ s.sameBytes t ∧ t.regs = s.regs))

end
end

