-- ==== Sys2Proof/Laws/Mem.lean ====
section
/-! SUPPORT. The laws of the addressed memories: every operation of a line memory and of the slices keeps the canonical form, and a write is read back where it landed and leaves every other byte alone. -/
namespace Sys2Proof.Machine

variable {α : Type}

theorem wf_foldl {V : Type} [DecidableEq V] (d : Nat → V) (f : Tab V → α → Tab V)
    (hf : ∀ m x, Tab.wf d m = true → Tab.wf d (f m x) = true) (l : List α) (m : Tab V) (h : Tab.wf d m = true) :
    Tab.wf d (l.foldl f m) = true := by
  induction l generalizing m with
  | nil => exact h
  | cons x l ih => exact ih _ (hf _ _ h)

theorem wf_wrBytes (b : Tab Byte) (a : Nat) (xs : List Byte) (h : Tab.wf byte0 b = true) :
    Tab.wf byte0 (wrBytes b a xs) = true := by
  induction xs generalizing b a with
  | nil => exact h
  | cons x xs ih => exact ih _ _ (Tab.wf_set _ _ _ _ h)

theorem Mem.wf_iff (m : Mem) :
    m.wf = true ↔ Tab.wf byte0 m.bytes = true ∧ Tab.wf bit0 m.valid = true ∧ Tab.wf bit0 m.poison = true := by
  simp [Mem.wf, and_assoc]

theorem Mem.wf_empty : Mem.empty.wf = true := rfl

theorem Mem.wf_wr (m : Mem) (a : Nat) (bs : List Byte) (ep : Bool) (h : m.wf = true) : (m.wr a bs ep).wf = true := by
  obtain ⟨h1, h2, h3⟩ := (Mem.wf_iff m).1 h
  refine (Mem.wf_iff _).2 ⟨wf_wrBytes _ _ _ h1, wf_foldl _ _ (fun m x hm => Tab.wf_set _ _ _ _ hm) _ _ h2,
    wf_foldl _ _ (fun m x hm => ?_) _ _ h3⟩
  split
  · exact Tab.wf_set _ _ _ _ hm
  · split
    · exact Tab.wf_set _ _ _ _ hm
    · exact hm

theorem Mem.wf_clear (m : Mem) (a n : Nat) (h : m.wf = true) : (m.clear a n).wf = true := by
  obtain ⟨h1, h2, h3⟩ := (Mem.wf_iff m).1 h
  exact (Mem.wf_iff _).2 ⟨Tab.wf_clear _ _ _ _ h1, Tab.wf_clear _ _ _ _ h2, Tab.wf_clear _ _ _ _ h3⟩

theorem Mem.wf_setPoison (m : Mem) (l : Nat) (h : m.wf = true) : (m.setPoison l).wf = true := by
  obtain ⟨h1, h2, h3⟩ := (Mem.wf_iff m).1 h
  exact (Mem.wf_iff _).2 ⟨h1, Tab.wf_set _ _ l true h2, Tab.wf_set _ _ l true h3⟩

theorem SMem.wf_iff (m : SMem) :
    m.wf = true ↔ Tab.wf byte0 m.bytes = true ∧ Tab.wf bit0 m.valid = true ∧ Tab.wf bit0 m.lost = true ∧
      Tab.wf bit0 m.poison = true := by
  simp [SMem.wf, and_assoc]

theorem SMem.wf_empty : SMem.empty.wf = true := rfl

theorem wf_poisonGranule (p : Tab Bool) (g : Nat) (h : Tab.wf bit0 p = true) : Tab.wf bit0 (poisonGranule p g) = true :=
  wf_foldl _ _ (fun _ _ hm => Tab.wf_set _ _ _ _ hm) _ _ h

theorem SMem.wf_write (m : SMem) (k : Nat) (bs : List Byte) (ep : Bool) (h : m.wf = true) : (m.write k bs ep).wf = true := by
  obtain ⟨h1, h2, h3, h4⟩ := (SMem.wf_iff m).1 h
  have h5 : Tab.wf bit0 (if m.isLost k = true then poisonGranule m.poison (k / 4096) else m.poison) = true := by
    split
    · exact wf_poisonGranule _ _ h4
    · exact h4
  have h0 : Tab.wf byte0 (if m.isLost k = true then m.bytes.clear (4096 * (k / 4096)) 4096 else m.bytes) = true := by
    split
    · exact Tab.wf_clear _ _ _ _ h1
    · exact h1
  refine (SMem.wf_iff _).2 ⟨wf_wrBytes _ k bs h0, Tab.wf_set _ _ (k / 4096) true h2, Tab.wf_set _ _ (k / 4096) false h3, ?_⟩
  unfold SMem.write
  dsimp only
  generalize (if m.isLost k = true then poisonGranule m.poison (k / 4096) else m.poison) = p at h5 ⊢
  split
  · exact Tab.wf_set _ _ _ _ h5
  · split
    · exact Tab.wf_set _ _ _ _ h5
    · exact h5

theorem SMem.wf_clear (m : SMem) (g n : Nat) (h : m.wf = true) : (m.clear g n).wf = true := by
  obtain ⟨h1, h2, h3, h4⟩ := (SMem.wf_iff m).1 h
  exact (SMem.wf_iff _).2 ⟨Tab.wf_clear _ _ _ _ h1, Tab.wf_clear _ _ _ _ h2, Tab.wf_clear _ _ _ _ h3, Tab.wf_clear _ _ _ _ h4⟩

theorem SMem.wf_clearLost (m : SMem) (g n : Nat) (h : m.wf = true) : (m.clearLost g n).wf = true := by
  obtain ⟨h1, h2, h3, h4⟩ := (SMem.wf_iff m).1 h
  exact (SMem.wf_iff _).2 ⟨h1, h2, Tab.wf_clear _ _ _ _ h3, h4⟩

theorem SMem.wf_markLost (m : SMem) (gs : List Nat) (h : m.wf = true) : (m.markLost gs).wf = true := by
  obtain ⟨h1, h2, h3, h4⟩ := (SMem.wf_iff m).1 h
  exact (SMem.wf_iff _).2 ⟨h1, h2, wf_foldl _ _ (fun _ _ hm => Tab.wf_set _ _ _ _ hm) _ _ h3, h4⟩

theorem SMem.wf_markBoth (m : SMem) (gs : List Nat) (h : m.wf = true) : (m.markBoth gs).wf = true := by
  obtain ⟨h1, h2, h3, h4⟩ := (SMem.wf_iff m).1 h
  exact (SMem.wf_iff _).2 ⟨h1, wf_foldl _ _ (fun _ _ hm => Tab.wf_set _ _ _ _ hm) _ _ h2,
    wf_foldl _ _ (fun _ _ hm => Tab.wf_set _ _ _ _ hm) _ _ h3, h4⟩

theorem SMem.wf_setPoison (m : SMem) (k : Nat) (h : m.wf = true) :
    SMem.wf { m with poison := Tab.set bit0 m.poison k true } = true := by
  obtain ⟨h1, h2, h3, h4⟩ := (SMem.wf_iff m).1 h
  exact (SMem.wf_iff _).2 ⟨h1, h2, h3, Tab.wf_set _ _ k true h4⟩

theorem Mem.wf_fold (f : Mem → α → Mem) (l : List α) (m : Mem) (hf : ∀ (m : Mem) (x : α), m.wf = true → (f m x).wf = true)
    (h : m.wf = true) : (l.foldl f m).wf = true := by
  induction l generalizing m with
  | nil => exact h
  | cons x l ih => exact ih _ (hf _ _ h)

theorem SMem.wf_fold (f : SMem → α → SMem) (l : List α) (m : SMem) (hf : ∀ (m : SMem) (x : α), m.wf = true → (f m x).wf = true)
    (h : m.wf = true) : (l.foldl f m).wf = true := by
  induction l generalizing m with
  | nil => exact h
  | cons x l ih => exact ih _ (hf _ _ h)

theorem Mem.wf_land (m : Mem) (w : HmpWr) (h : m.wf = true) : (m.land w).wf = true := Mem.wf_wr _ _ _ _ h

/-! Read after write. -/

theorem get_wrBytes (b : Tab Byte) (a : Nat) (xs : List Byte) (k : Nat) :
    Tab.get byte0 (wrBytes b a xs) k =
      if h : a ≤ k ∧ k < a + xs.length then xs[k - a]'(by omega) else Tab.get byte0 b k := by
  induction xs generalizing b a with
  | nil =>
    have : ¬ (a ≤ k ∧ k < a + ([] : List Byte).length) := by
      simp only [List.length_nil]; omega
    rw [dif_neg this]; rfl
  | cons x xs ih =>
    simp only [wrBytes, ih, Tab.get_set]
    by_cases h1 : a + 1 ≤ k ∧ k < a + 1 + xs.length
    · have h2 : a ≤ k ∧ k < a + (x :: xs).length := by simp; omega
      have h3 : k - a = (k - (a + 1)) + 1 := by omega
      simp only [h1, h2, dite_true, and_self, h3, List.getElem_cons_succ]
    · by_cases h4 : k = a
      · subst h4
        simp
      · have h2 : ¬ (a ≤ k ∧ k < a + (x :: xs).length) := by simp; omega
        simp only [h1, h2, dite_false, h4, if_false]

/-- A byte after a write: the byte written there, else the byte that was there. -/
theorem Mem.rd_wr (m : Mem) (a : Nat) (bs : List Byte) (ep : Bool) (k : Nat) :
    (m.wr a bs ep).rd k = if h : a ≤ k ∧ k < a + bs.length then bs[k - a]'(by omega) else m.rd k :=
  get_wrBytes m.bytes a bs k

theorem Mem.rd_wr_other (m : Mem) (a : Nat) (bs : List Byte) (ep : Bool) (k : Nat) (h : k < a ∨ a + bs.length ≤ k) :
    (m.wr a bs ep).rd k = m.rd k := by
  rw [Mem.rd_wr, dif_neg (by omega)]

theorem Mem.rd_clear (m : Mem) (a n k : Nat) :
    (m.clear a n).rd k = if a ≤ k ∧ k < a + n then 0 else m.rd k := Tab.get_clear _ _ _ _ _

@[simp] theorem Mem.rd_setPoison (m : Mem) (l k : Nat) : (m.setPoison l).rd k = m.rd k := rfl

/-- A write reads back; the rest of a lost granule that it enters reads 0, poisoned (09 R228); any other byte is as it was. -/
theorem SMem.rd_write (m : SMem) (a : Nat) (bs : List Byte) (ep : Bool) (k : Nat) :
    (m.write a bs ep).rd k =
      if h : a ≤ k ∧ k < a + bs.length then bs[k - a]'(by omega)
      else if m.isLost a = true ∧ k / 4096 = a / 4096 then 0 else m.rd k := by
  refine (get_wrBytes _ a bs k).trans ?_
  by_cases h : a ≤ k ∧ k < a + bs.length
  · rw [dif_pos h, dif_pos h]
  · rw [dif_neg h, dif_neg h]
    by_cases hl : m.isLost a = true
    · have e : (4096 * (a / 4096) ≤ k ∧ k < 4096 * (a / 4096) + 4096) ↔ (m.isLost a = true ∧ k / 4096 = a / 4096) := by
        constructor
        · intro _; exact ⟨hl, by omega⟩
        · intro _; omega
      rw [if_pos hl, Tab.get_clear, if_congr e rfl rfl]; rfl
    · rw [if_neg hl, if_neg (fun c => hl c.1)]; rfl

theorem SMem.rd_write_other (m : SMem) (a : Nat) (bs : List Byte) (ep : Bool) (k : Nat) (h : k < a ∨ a + bs.length ≤ k)
    (hl : m.isLost a = false ∨ k / 4096 ≠ a / 4096) : (m.write a bs ep).rd k = m.rd k := by
  rw [SMem.rd_write, dif_neg (by omega), if_neg]
  rcases hl with hl | hl
  · simp [hl]
  · exact fun c => hl c.2

theorem SMem.rd_clear (m : SMem) (g n k : Nat) :
    (m.clear g n).rd k = if 4096 * g ≤ k ∧ k < 4096 * g + 4096 * n then 0 else m.rd k := Tab.get_clear _ _ _ _ _

@[simp] theorem SMem.rd_markLost (m : SMem) (gs : List Nat) (k : Nat) : (m.markLost gs).rd k = m.rd k := rfl
@[simp] theorem SMem.rd_markBoth (m : SMem) (gs : List Nat) (k : Nat) : (m.markBoth gs).rd k = m.rd k := rfl
@[simp] theorem SMem.rd_clearLost (m : SMem) (g n k : Nat) : (m.clearLost g n).rd k = m.rd k := rfl

end Sys2Proof.Machine
end

