-- ==== Sys2Proof/Laws/MemBase.lean ====
section
/-! SUPPORT. Which functions change no byte of the Hamper, the on-chip stores and the slices: the shared operations, the Hamper, the slices and the cores' memory accesses. One lemma per function. -/
namespace Sys2Proof.Machine

/-- The three memories of `s` are these. -/
def State.Mems (mm : Mem × Mem × SMem) (s : State) : Prop := s.hmp = mm.1 ∧ s.stores = mm.2.1 ∧ s.slices = mm.2.2

theorem mem_mk {mm : Mem × Mem × SMem} {s : State} {now pending held transit ideSent ptpOff hubRst hpcResv fresh regs outs fns ports ends routeHold trail board boot vclkLost devFailed hubOff cmap hmpPend hmpClr tens queues order resid disps rsts cores jobs aoUp power thm mgt snaps pmem near ueWin ueSeen loads etab etClock hpcCause sparePend bistCore bands labs kvFree kvQuar kvOwned kvUndef kvWins atuLast sks eths vcs vcLast scrubPos scrubStart ceStart subs ramps ptPend} (h : s.Mems mm) : State.Mems mm { now := now, held := held, transit := transit, ideSent := ideSent, ptpOff := ptpOff, hubRst := hubRst, hpcResv := hpcResv, pending := pending, fresh := fresh, regs := regs, outs := outs, fns := fns, ports := ports, ends := ends, routeHold := routeHold, trail := trail, board := board, boot := boot, vclkLost := vclkLost, devFailed := devFailed, hubOff := hubOff, hmp := s.hmp, cmap := cmap, hmpPend := hmpPend, hmpClr := hmpClr, tens := tens, queues := queues, order := order, resid := resid, disps := disps, rsts := rsts, cores := cores, jobs := jobs, stores := s.stores, aoUp := aoUp, power := power, thm := thm, mgt := mgt, snaps := snaps, slices := s.slices, pmem := pmem, near := near, ueWin := ueWin, ueSeen := ueSeen, loads := loads, etab := etab, etClock := etClock, hpcCause := hpcCause, sparePend := sparePend, bistCore := bistCore, bands := bands, labs := labs, kvFree := kvFree, kvQuar := kvQuar, kvOwned := kvOwned, kvUndef := kvUndef, kvWins := kvWins, atuLast := atuLast, sks := sks, eths := eths, vcs := vcs, vcLast := vcLast, scrubPos := scrubPos, scrubStart := scrubStart, ceStart := ceStart, subs := subs, ramps := ramps, ptPend := ptPend } := h

theorem State.setFld_mem {mm : Mem × Mem × SMem} (s : State) (pg : Nat) (f : Fld) (v : Nat) (h : s.Mems mm) : (s.setFld pg f v).Mems mm := h

theorem mem_ite {mm : Mem × Mem × SMem} {a b : State} {c : Prop} [Decidable c] (h1 : a.Mems mm) (h2 : b.Mems mm) : (if c then a else b).Mems mm := by
  split <;> assumption

theorem mem_ite_fst {mm : Mem × Mem × SMem} {β : Type} {a b : State × β} {c : Prop} [Decidable c] (h1 : a.1.Mems mm) (h2 : b.1.Mems mm) :
    (if c then a else b).1.Mems mm := by
  split <;> assumption
/-- What an optional state is, where it is there. -/
def OptMem (mm : Mem × Mem × SMem) (o : Option State) : Prop := ∀ t, o = some t → t.Mems mm
theorem mem_snd {mm : Mem × Mem × SMem} {β : Type} {X : β × State} {a : β} {s : State} (e : X = (a, s)) (h : X.2.Mems mm) : s.Mems mm := by
  rw [e] at h; exact h
theorem mem_fst {mm : Mem × Mem × SMem} {β : Type} {X : State × β} {a : β} {s : State} (e : X = (s, a)) (h : X.1.Mems mm) : s.Mems mm := by
  rw [e] at h; exact h
theorem mem_some {mm : Mem × Mem × SMem} {X : Option State} {s : State} (e : X = some s) (h : OptMem mm X) : s.Mems mm := h s e
theorem some_mem {mm : Mem × Mem × SMem} {s : State} (h : s.Mems mm) : OptMem mm (some s) := by
  intro t e; cases e; exact h
theorem none_mem {mm : Mem × Mem × SMem} : OptMem mm none := by
  intro t e; cases e

/-- What an instruction leaves, where it leaves a state. -/
def ActMem (mm : Mem × Mem × SMem) : Act → Prop
  | .next t => t.Mems mm
  | .jump t _ => t.Mems mm
  | .block t => t.Mems mm
  | _ => True
theorem act_hold_mem {mm : Mem × Mem × SMem} : ActMem mm .hold := True.intro
theorem act_fault_mem {mm : Mem × Mem × SMem} {a b c : Nat} : ActMem mm (.fault a b c) := True.intro
theorem act_poison_mem {mm : Mem × Mem × SMem} {a b : Nat} : ActMem mm (.poison a b) := True.intro
theorem act_of_eq_mem {mm : Mem × Mem × SMem} {X a : Act} (e : X = a) (h : ActMem mm X) : ActMem mm a := e ▸ h
theorem act_of_next_mem {mm : Mem × Mem × SMem} {X : Act} {t : State} (e : X = .next t) (h : ActMem mm X) : t.Mems mm := by
  subst e; exact h
theorem act_next_mem {mm : Mem × Mem × SMem} {s : State} (h : s.Mems mm) : ActMem mm (.next s) := h
theorem act_jump_mem {mm : Mem × Mem × SMem} {s : State} {pc : Nat} (h : s.Mems mm) : ActMem mm (.jump s pc) := h
theorem act_block_mem {mm : Mem × Mem × SMem} {s : State} (h : s.Mems mm) : ActMem mm (.block s) := h
theorem fetchStop_mem {mm : Mem × Mem × SMem} {s : State} {x pc : Nat} {a : Act} (h : s.fetchStop x pc = some a) : ActMem mm a := by
  unfold State.fetchStop at h
  repeat' split at h
  all_goals first | (cases h; exact True.intro) | cases h

/-- What a KPM operation leaves, where it succeeds. -/
def KvMem (mm : Mem × Mem × SMem) : Except KvErr (State × Nat) → Prop
  | .ok r => r.1.Mems mm
  | .error _ => True
theorem kv_err_mem {mm : Mem × Mem × SMem} {e : KvErr} : KvMem mm (.error e) := True.intro
theorem kv_mem_mem {mm : Mem × Mem × SMem} {r : State × Nat} (h : r.1.Mems mm) : KvMem mm (.ok r) := h

/-- What answering a management request leaves. -/
def FmcMem (mm : Mem × Mem × SMem) (a : FmcAns) : Prop := ∀ s : State, s.Mems mm → (a.act s).Mems mm
theorem fmc_mk_mem {mm : Mem × Mem × SMem} {n : Nat} {d : List Nat} {k : State → State} (h : ∀ s : State, s.Mems mm → (k s).Mems mm) : FmcMem mm ⟨n, d, k⟩ := h
theorem fmc_only_mem {mm : Mem × Mem × SMem} {n : Nat} : FmcMem mm (FmcAns.only n) := fun _ h => h
theorem fmc_only_act_mem {mm : Mem × Mem × SMem} {n : Nat} {s : State} (h : s.Mems mm) : ((FmcAns.only n).act s).Mems mm := h
theorem fmc_ite_mem {mm : Mem × Mem × SMem} {a b : FmcAns} {c : Prop} [Decidable c] (h1 : FmcMem mm a) (h2 : FmcMem mm b) : FmcMem mm (if c then a else b) := by
  split <;> assumption
theorem id_mem {mm : Mem × Mem × SMem} {s : State} (h : s.Mems mm) : (id s).Mems mm := h
def PldmMem (mm : Mem × Mem × SMem) (a : PldmAns) : Prop := ∀ s : State, s.Mems mm → (a.act s).Mems mm
theorem pldm_mk_mem {mm : Mem × Mem × SMem} {n : Nat} {d : List Nat} {k : State → State} (h : ∀ s : State, s.Mems mm → (k s).Mems mm) : PldmMem mm ⟨n, d, k⟩ := h
theorem pldm_ite_mem {mm : Mem × Mem × SMem} {a b : PldmAns} {c : Prop} [Decidable c] (h1 : PldmMem mm a) (h2 : PldmMem mm b) : PldmMem mm (if c then a else b) := by
  split <;> assumption

/-- What an outcome leaves, where it is a next state. -/
def OutMem (mm : Mem × Mem × SMem) (o : Host.Outcome State Fault Refusal) : Prop := ∀ t, o = .next t → t.Mems mm

theorem next_mem {mm : Mem × Mem × SMem} {s : State} (h : s.Mems mm) : OutMem mm (.next s) := by
  intro t e; cases e; exact h

theorem foldl_mem {mm : Mem × Mem × SMem} {α : Type} {s : State} {l : List α} {f : State → α → State}
    (hf : ∀ (s : State) x, s.Mems mm → (f s x).Mems mm) (h : s.Mems mm) : (l.foldl f s).Mems mm := by
  induction l generalizing s with
  | nil => exact h
  | cons x l ih => exact ih (hf _ _ h)

theorem each_mem {mm : Mem × Mem × SMem} {α : Type} {s : State} {l : List α} {f : α → State → State}
    (hf : ∀ x (s : State), s.Mems mm → (f x s).Mems mm) (h : s.Mems mm) : (s.each l f).Mems mm := by
  unfold State.each
  induction l generalizing s with
  | nil => exact h
  | cons x l ih => exact ih (hf _ _ h)

/-! Ops. -/

theorem State.setFlag_mem {mm : Mem × Mem × SMem} (s : State) (pg : Nat) (f : Fld) (v : Bool) (hmm : s.Mems mm) : (State.setFlag s pg f v).Mems mm := by
  unfold State.setFlag
  try dsimp only
  repeat' first | with_reducible assumption | with_reducible intro _ | with_reducible apply State.setFld_mem

theorem State.satFld_mem {mm : Mem × Mem × SMem} (s : State) (pg : Nat) (f : Fld) (n : Nat) (hmm : s.Mems mm) : (State.satFld s pg f n).Mems mm := by
  unfold State.satFld
  try dsimp only
  repeat' first | with_reducible assumption | with_reducible intro _ | with_reducible apply State.setFld_mem

theorem State.addFld_mem {mm : Mem × Mem × SMem} (s : State) (pg : Nat) (f : Fld) (n : Nat) (hmm : s.Mems mm) : (State.addFld s pg f n).Mems mm := by
  unfold State.addFld
  try dsimp only
  repeat' first | with_reducible assumption | with_reducible intro _ | with_reducible apply State.setFld_mem

theorem State.setBit_mem {mm : Mem × Mem × SMem} (s : State) (pg : Nat) (f : Fld) (i : Nat) (v : Bool) (hmm : s.Mems mm) : (State.setBit s pg f i v).Mems mm := by
  unfold State.setBit
  try dsimp only
  repeat' first | with_reducible assumption | with_reducible intro _ | with_reducible apply State.setFld_mem

theorem State.setFld64_mem {mm : Mem × Mem × SMem} (s : State) (pg : Nat) (lo hi : Fld) (v : Nat) (hmm : s.Mems mm) : (State.setFld64 s pg lo hi v).Mems mm := by
  unfold State.setFld64
  try dsimp only
  repeat' first | with_reducible assumption | with_reducible intro _ | with_reducible apply State.setFld_mem

theorem State.emit_mem {mm : Mem × Mem × SMem} (s : State) (o : Out) (hmm : s.Mems mm) : (State.emit s o).Mems mm := by
  unfold State.emit
  try dsimp only
  repeat' first | with_reducible assumption | with_reducible intro _ | with_reducible apply mem_ite | (fail_if_no_progress with_reducible apply mem_mk)

theorem State.tick_mem {mm : Mem × Mem × SMem} (s : State) (hmm : s.Mems mm) : (State.tick s).Mems mm := by
  unfold State.tick
  try dsimp only
  repeat' first | with_reducible assumption | with_reducible intro _ | with_reducible apply mem_ite | (fail_if_no_progress with_reducible apply mem_mk)

theorem State.setFn_mem {mm : Mem × Mem × SMem} (s : State) (k : Nat) (v : FnSt) (hmm : s.Mems mm) : (State.setFn s k v).Mems mm := by
  unfold State.setFn
  try dsimp only
  repeat' first | with_reducible assumption | with_reducible intro _ | with_reducible apply mem_ite | (fail_if_no_progress with_reducible apply mem_mk)

theorem State.setPort_mem {mm : Mem × Mem × SMem} (s : State) (k : Nat) (v : Port) (hmm : s.Mems mm) : (State.setPort s k v).Mems mm := by
  unfold State.setPort
  try dsimp only
  repeat' first | with_reducible assumption | with_reducible intro _ | with_reducible apply mem_ite | (fail_if_no_progress with_reducible apply mem_mk)

theorem State.setLend_mem {mm : Mem × Mem × SMem} (s : State) (k : Nat) (v : LinkEnd) (hmm : s.Mems mm) : (State.setLend s k v).Mems mm := by
  unfold State.setLend
  try dsimp only
  repeat' first | with_reducible assumption | with_reducible intro _ | with_reducible apply mem_ite | (fail_if_no_progress with_reducible apply mem_mk)

theorem State.setTen_mem {mm : Mem × Mem × SMem} (s : State) (k : Nat) (v : TenSt) (hmm : s.Mems mm) : (State.setTen s k v).Mems mm := by
  unfold State.setTen
  try dsimp only
  repeat' first | with_reducible assumption | with_reducible intro _ | with_reducible apply mem_ite | (fail_if_no_progress with_reducible apply mem_mk)

theorem State.setQueue_mem {mm : Mem × Mem × SMem} (s : State) (n q : Nat) (v : QueueSt) (hmm : s.Mems mm) : (State.setQueue s n q v).Mems mm := by
  unfold State.setQueue
  try dsimp only
  repeat' first | with_reducible assumption | with_reducible intro _ | with_reducible apply mem_ite | (fail_if_no_progress with_reducible apply mem_mk)

theorem State.setRes_mem {mm : Mem × Mem × SMem} (s : State) (k : Nat) (v : Resid) (hmm : s.Mems mm) : (State.setRes s k v).Mems mm := by
  unfold State.setRes
  try dsimp only
  repeat' first | with_reducible assumption | with_reducible intro _ | with_reducible apply mem_ite | (fail_if_no_progress with_reducible apply mem_mk)

theorem State.setDsp_mem {mm : Mem × Mem × SMem} (s : State) (k : Nat) (v : DispSt) (hmm : s.Mems mm) : (State.setDsp s k v).Mems mm := by
  unfold State.setDsp
  try dsimp only
  repeat' first | with_reducible assumption | with_reducible intro _ | with_reducible apply mem_ite | (fail_if_no_progress with_reducible apply mem_mk)

theorem State.setCore_mem {mm : Mem × Mem × SMem} (s : State) (x : Nat) (v : Core) (hmm : s.Mems mm) : (State.setCore s x v).Mems mm := by
  unfold State.setCore
  try dsimp only
  repeat' first | with_reducible assumption | with_reducible intro _ | with_reducible apply mem_ite | (fail_if_no_progress with_reducible apply mem_mk)

theorem State.setComp_mem {mm : Mem × Mem × SMem} (s : State) (c : Nat) (v : Comp) (hmm : s.Mems mm) : (State.setComp s c v).Mems mm := by
  unfold State.setComp
  try dsimp only
  repeat' first | with_reducible assumption | with_reducible intro _ | with_reducible apply mem_ite | (fail_if_no_progress with_reducible apply mem_mk)

theorem State.setJob_mem {mm : Mem × Mem × SMem} (s : State) (k : Nat) (v : Job) (hmm : s.Mems mm) : (State.setJob s k v).Mems mm := by
  unfold State.setJob
  try dsimp only
  repeat' first | with_reducible assumption | with_reducible intro _ | with_reducible apply mem_ite | (fail_if_no_progress with_reducible apply mem_mk)

theorem State.msix_mem {mm : Mem × Mem × SMem} (s : State) (k v : Nat) (hmm : s.Mems mm) : (State.msix s k v).Mems mm := by
  unfold State.msix
  try dsimp only
  repeat' first | with_reducible assumption | with_reducible intro _ | with_reducible apply State.emit_mem | with_reducible apply State.setFn_mem | with_reducible apply mem_ite

theorem State.raiseInt_mem {mm : Mem × Mem × SMem} (s : State) (pg : Nat) (hmm : s.Mems mm) : (State.raiseInt s pg).Mems mm := by
  unfold State.raiseInt
  try dsimp only
  repeat' first | with_reducible assumption | with_reducible intro _ | with_reducible apply State.emit_mem | with_reducible apply State.msix_mem | with_reducible apply mem_ite | (fail_if_no_progress with_reducible apply mem_mk) | with_reducible apply each_mem | with_reducible apply next_mem | with_reducible refine mem_snd (by with_reducible assumption) ?_ | with_reducible refine mem_fst (by with_reducible assumption) ?_ | with_reducible refine mem_some (by with_reducible assumption) ?_ | with_reducible apply foldl_mem | split

theorem State.setInts_mem {mm : Mem × Mem × SMem} (s : State) (pg mask : Nat) (hmm : s.Mems mm) : (State.setInts s pg mask).Mems mm := by
  unfold State.setInts
  try dsimp only
  repeat' first | with_reducible assumption | with_reducible intro _ | with_reducible apply State.setFld_mem | with_reducible apply State.raiseInt_mem | with_reducible apply mem_ite

theorem State.event_mem {mm : Mem × Mem × SMem} (s : State) (pg bit : Nat) (hmm : s.Mems mm) : (State.event s pg bit).Mems mm := by
  unfold State.event
  try dsimp only
  repeat' first | with_reducible assumption | with_reducible intro _ | with_reducible apply State.setInts_mem

theorem State.countErr_mem {mm : Mem × Mem × SMem} (s : State) (pg code rq addr : Nat) (hmm : s.Mems mm) : (State.countErr s pg code rq addr).Mems mm := by
  unfold State.countErr
  try dsimp only
  repeat' first | with_reducible assumption | with_reducible intro _ | with_reducible apply State.setFld_mem | with_reducible apply State.setFlag_mem | with_reducible apply State.satFld_mem | with_reducible apply State.setFld64_mem | with_reducible apply State.event_mem | with_reducible apply mem_ite

theorem State.flog_mem {mm : Mem × Mem × SMem} (s : State) (n kind block code detail addr : Nat) (hmm : s.Mems mm) : (State.flog s n kind block code detail addr).Mems mm := by
  unfold State.flog
  try dsimp only
  repeat' first | with_reducible assumption | with_reducible intro _ | with_reducible apply State.setFld_mem | with_reducible apply State.addFld_mem | with_reducible apply State.each_mem | with_reducible apply State.event_mem | with_reducible apply mem_ite | (fail_if_no_progress with_reducible apply mem_mk) | with_reducible apply each_mem

theorem State.tenErr_mem {mm : Mem × Mem × SMem} (s : State) (n pg code rq addr : Nat) (hmm : s.Mems mm) : (State.tenErr s n pg code rq addr).Mems mm := by
  unfold State.tenErr
  try dsimp only
  repeat' first | with_reducible assumption | with_reducible intro _ | with_reducible apply State.countErr_mem | with_reducible apply State.flog_mem

theorem State.trailPut_mem {mm : Mem × Mem × SMem} (s : State) (typ block sev : Nat) (payload : List Nat) (hmm : s.Mems mm) : (State.trailPut s typ block sev payload).Mems mm := by
  unfold State.trailPut
  try dsimp only
  repeat' first | with_reducible assumption | with_reducible intro _ | with_reducible apply State.setFlag_mem | with_reducible apply State.satFld_mem | with_reducible apply State.event_mem | with_reducible apply mem_ite | (fail_if_no_progress with_reducible apply mem_mk)

theorem State.hubLost_mem {mm : Mem × Mem × SMem} (s : State) (clock : Nat) (hmm : s.Mems mm) : (State.hubLost s clock).Mems mm := by
  unfold State.hubLost
  try dsimp only
  repeat' first | with_reducible assumption | with_reducible intro _ | with_reducible apply State.trailPut_mem | with_reducible apply mem_ite | (fail_if_no_progress with_reducible apply mem_mk)

theorem State.addFact_mem {mm : Mem × Mem × SMem} (s : State) (f : FieldFact) (hmm : s.Mems mm) : (State.addFact s f).Mems mm := by
  unfold State.addFact
  try dsimp only
  repeat' first | with_reducible assumption | with_reducible intro _ | with_reducible apply State.trailPut_mem | with_reducible apply mem_ite | (fail_if_no_progress with_reducible apply mem_mk)

theorem State.hold_mem {mm : Mem × Mem × SMem} (s : State) (pg : Nat) (c : Held) (hmm : s.Mems mm) : (State.hold s pg c).Mems mm := by
  unfold State.hold
  try dsimp only
  repeat' first | with_reducible assumption | with_reducible intro _ | with_reducible apply mem_ite | (fail_if_no_progress with_reducible apply mem_mk) | with_reducible apply each_mem | with_reducible refine mem_snd (by with_reducible assumption) ?_ | with_reducible refine mem_fst (by with_reducible assumption) ?_ | with_reducible refine mem_some (by with_reducible assumption) ?_ | with_reducible apply foldl_mem | split

theorem State.pageWrite_mem {mm : Mem × Mem × SMem} (s : State) (rq : Requester) (pg off : Nat) (k : State → State) (hmm : s.Mems mm) (hk : ∀ s : State, s.Mems mm → (k s).Mems mm) : (State.pageWrite s rq pg off k).Mems mm := by
  unfold State.pageWrite
  try dsimp only
  repeat' first | with_reducible assumption | with_reducible intro _ | with_reducible apply hk | with_reducible apply State.countErr_mem | with_reducible apply mem_ite

theorem State.privApply_mem {mm : Mem × Mem × SMem} (s : State) (rq : Requester) (pg off : Nat) (k : State → State) (hmm : s.Mems mm) (hk : ∀ s : State, s.Mems mm → (k s).Mems mm) : (State.privApply s rq pg off k).Mems mm := by
  unfold State.privApply
  try dsimp only
  repeat' first | with_reducible assumption | with_reducible intro _ | with_reducible apply hk | with_reducible apply State.pageWrite_mem | with_reducible apply State.countErr_mem | with_reducible apply mem_ite | (fail_if_no_progress with_reducible apply mem_mk) | with_reducible apply each_mem | with_reducible refine mem_snd (by with_reducible assumption) ?_ | with_reducible refine mem_fst (by with_reducible assumption) ?_ | with_reducible refine mem_some (by with_reducible assumption) ?_ | with_reducible apply foldl_mem | split

theorem State.tenApply_mem {mm : Mem × Mem × SMem} (s : State) (m : Fin 128) (n : Nat) (f : State → State) (hmm : s.Mems mm) (hf : ∀ s : State, s.Mems mm → (f s).Mems mm) : (State.tenApply s m n f).Mems mm := by
  unfold State.tenApply
  try dsimp only
  repeat' first | with_reducible assumption | with_reducible intro _ | with_reducible apply hf | with_reducible apply mem_ite

theorem State.tenRegErr_mem {mm : Mem × Mem × SMem} (s : State) (rq : Requester) (n k off code : Nat) (hmm : s.Mems mm) : (State.tenRegErr s rq n k off code).Mems mm := by
  unfold State.tenRegErr
  try dsimp only
  repeat' first | with_reducible assumption | with_reducible intro _ | with_reducible apply State.tenErr_mem

/-! Hamper. -/

theorem State.bindComps_mem {mm : Mem × Mem × SMem} (s : State) (cs : List Nat) (v : Bool) (hmm : s.Mems mm) : (State.bindComps s cs v).Mems mm := by
  unfold State.bindComps
  try dsimp only
  repeat' first | with_reducible assumption | with_reducible intro _ | with_reducible apply State.each_mem | with_reducible apply State.setComp_mem | with_reducible apply mem_ite | (fail_if_no_progress with_reducible apply mem_mk) | with_reducible apply each_mem

theorem State.tenApRead_mem {mm : Mem × Mem × SMem} (s : State) (n off len : Nat) (hmm : s.Mems mm) : (State.tenApRead s n off len).Mems mm := by
  unfold State.tenApRead
  try dsimp only
  repeat' first | with_reducible assumption | with_reducible intro _ | with_reducible apply State.tenErr_mem | with_reducible apply State.flog_mem | with_reducible apply State.tick_mem | with_reducible apply State.emit_mem | with_reducible apply mem_ite | (fail_if_no_progress with_reducible apply mem_mk) | with_reducible apply each_mem | with_reducible refine mem_snd (by with_reducible assumption) ?_ | with_reducible refine mem_fst (by with_reducible assumption) ?_ | with_reducible refine mem_some (by with_reducible assumption) ?_ | with_reducible apply foldl_mem | split

theorem State.ownApRead_mem {mm : Mem × Mem × SMem} (s : State) (p off len : Nat) (hmm : s.Mems mm) : (State.ownApRead s p off len).Mems mm := by
  unfold State.ownApRead
  try dsimp only
  repeat' first | with_reducible assumption | with_reducible intro _ | with_reducible apply State.countErr_mem | with_reducible apply State.tick_mem | with_reducible apply State.emit_mem | with_reducible apply mem_ite | (fail_if_no_progress with_reducible apply mem_mk) | with_reducible apply each_mem | with_reducible refine mem_snd (by with_reducible assumption) ?_ | with_reducible refine mem_fst (by with_reducible assumption) ?_ | with_reducible refine mem_some (by with_reducible assumption) ?_ | with_reducible apply foldl_mem | split

theorem State.setFree_mem {mm : Mem × Mem × SMem} (s : State) (n : Nat) (hmm : s.Mems mm) : (State.setFree s n).Mems mm := by
  unfold State.setFree
  try dsimp only
  repeat' first | with_reducible assumption | with_reducible intro _ | with_reducible apply State.setFld_mem | with_reducible apply State.event_mem | with_reducible apply mem_ite

theorem State.allocEnd_mem {mm : Mem × Mem × SMem} (s : State) (result at' : Nat) (hmm : s.Mems mm) : (State.allocEnd s result at').Mems mm := by
  unfold State.allocEnd
  try dsimp only
  repeat' first | with_reducible assumption | with_reducible intro _ | with_reducible apply State.setFld_mem | with_reducible apply State.setFlag_mem | with_reducible apply State.event_mem

theorem State.freeComp_mem {mm : Mem × Mem × SMem} (s : State) (c : Nat) (hmm : s.Mems mm) : (State.freeComp s c).Mems mm := by
  unfold State.freeComp
  try dsimp only
  repeat' first | with_reducible assumption | with_reducible intro _ | with_reducible apply State.setFld_mem | with_reducible apply State.setComp_mem | with_reducible apply State.setFree_mem | with_reducible apply mem_ite

theorem State.clearDone_mem {mm : Mem × Mem × SMem} (s : State) (hmm : s.Mems mm) : (State.clearDone s).Mems mm := by
  unfold State.clearDone
  try dsimp only
  repeat' first | with_reducible assumption | with_reducible intro _ | with_reducible apply State.freeComp_mem | with_reducible apply State.allocEnd_mem | with_reducible apply State.event_mem | with_reducible apply State.each_mem | with_reducible apply mem_ite | (fail_if_no_progress with_reducible apply mem_mk) | with_reducible apply each_mem | with_reducible refine mem_snd (by with_reducible assumption) ?_ | with_reducible refine mem_fst (by with_reducible assumption) ?_ | with_reducible refine mem_some (by with_reducible assumption) ?_ | with_reducible apply foldl_mem | split

theorem execHamperClearDone_mem {mm : Mem × Mem × SMem} (s : State) (hmm : s.Mems mm) : OutMem mm (execHamperClearDone s) := by
  unfold execHamperClearDone
  try dsimp only
  repeat' first | with_reducible assumption | with_reducible intro _ | with_reducible apply State.clearDone_mem | with_reducible apply mem_ite | (fail_if_no_progress with_reducible apply mem_mk) | with_reducible apply each_mem | with_reducible apply next_mem

theorem State.slotQuery_mem {mm : Mem × Mem × SMem} (s : State) (n slot : Nat) (hmm : s.Mems mm) : (State.slotQuery s n slot).Mems mm := by
  unfold State.slotQuery
  try dsimp only
  repeat' first | with_reducible assumption | with_reducible intro _ | with_reducible apply State.setFld_mem | with_reducible apply State.setFlag_mem | with_reducible apply mem_ite | (fail_if_no_progress with_reducible apply mem_mk) | with_reducible apply each_mem | with_reducible apply next_mem | with_reducible refine mem_snd (by with_reducible assumption) ?_ | with_reducible refine mem_fst (by with_reducible assumption) ?_ | with_reducible refine mem_some (by with_reducible assumption) ?_ | with_reducible apply foldl_mem | split

/-! Queues. -/

theorem State.cqSignal_mem {mm : Mem × Mem × SMem} (s : State) (n q : Nat) (hmm : s.Mems mm) : (State.cqSignal s n q).Mems mm := by
  unfold State.cqSignal
  try dsimp only
  repeat' first | with_reducible assumption | with_reducible intro _ | with_reducible apply State.setQueue_mem | with_reducible apply State.msix_mem | with_reducible apply mem_ite

theorem State.cqNotify_mem {mm : Mem × Mem × SMem} (s : State) (n q : Nat) (irqNow : Bool) (hmm : s.Mems mm) : (State.cqNotify s n q irqNow).Mems mm := by
  unfold State.cqNotify
  try dsimp only
  repeat' first | with_reducible assumption | with_reducible intro _ | with_reducible apply State.setQueue_mem | with_reducible apply State.cqSignal_mem | with_reducible apply mem_ite

theorem State.cqPut_mem {mm : Mem × Mem × SMem} (s : State) (n q : Nat) (e : CqEntry) (irqNow : Bool) (hmm : s.Mems mm) : (State.cqPut s n q e irqNow).Mems mm := by
  unfold State.cqPut
  try dsimp only
  repeat' first | with_reducible assumption | with_reducible intro _ | with_reducible apply State.cqNotify_mem | with_reducible apply State.emit_mem | with_reducible apply State.setFlag_mem | with_reducible apply State.setFld_mem

theorem State.dropWaiting_mem {mm : Mem × Mem × SMem} (s : State) (n q : Nat) (hmm : s.Mems mm) : (State.dropWaiting s n q).Mems mm := by
  unfold State.dropWaiting
  try dsimp only
  repeat' first | with_reducible assumption | with_reducible intro _ | with_reducible apply State.setQueue_mem

theorem State.cqError_mem {mm : Mem × Mem × SMem} (s : State) (n q : Nat) (hmm : s.Mems mm) : (State.cqError s n q).Mems mm := by
  unfold State.cqError
  try dsimp only
  repeat' first | with_reducible assumption | with_reducible intro _ | with_reducible apply State.setFld_mem | with_reducible apply State.event_mem | with_reducible apply State.tenErr_mem | with_reducible apply State.dropWaiting_mem

theorem State.cqWrite_mem {mm : Mem × Mem × SMem} (s : State) (n q : Nat) (e : CqEntry) (irqNow : Bool) (hmm : s.Mems mm) : (State.cqWrite s n q e irqNow).Mems mm := by
  unfold State.cqWrite
  try dsimp only
  repeat' first | with_reducible assumption | with_reducible intro _ | with_reducible apply State.setQueue_mem | with_reducible apply State.cqPut_mem | with_reducible apply State.cqError_mem | with_reducible apply mem_ite

theorem State.cancelEnd_mem {mm : Mem × Mem × SMem} (s : State) (n : Nat) (hmm : s.Mems mm) : (State.cancelEnd s n).Mems mm := by
  unfold State.cancelEnd
  try dsimp only
  repeat' first | with_reducible assumption | with_reducible intro _ | with_reducible apply State.event_mem | with_reducible apply State.setTen_mem | with_reducible apply mem_ite | (fail_if_no_progress with_reducible apply mem_mk) | with_reducible apply each_mem | with_reducible refine mem_snd (by with_reducible assumption) ?_ | with_reducible refine mem_fst (by with_reducible assumption) ?_ | with_reducible refine mem_some (by with_reducible assumption) ?_ | with_reducible apply foldl_mem | split

theorem State.cancelNote_mem {mm : Mem × Mem × SMem} (s : State) (n q num : Nat) (hmm : s.Mems mm) : (State.cancelNote s n q num).Mems mm := by
  unfold State.cancelNote
  try dsimp only
  repeat' first | with_reducible assumption | with_reducible intro _ | with_reducible apply State.cancelEnd_mem | with_reducible apply State.setTen_mem | with_reducible apply mem_ite | (fail_if_no_progress with_reducible apply mem_mk) | with_reducible apply each_mem | with_reducible refine mem_snd (by with_reducible assumption) ?_ | with_reducible refine mem_fst (by with_reducible assumption) ?_ | with_reducible refine mem_some (by with_reducible assumption) ?_ | with_reducible apply foldl_mem | split

theorem State.complete_mem {mm : Mem × Mem × SMem} (s : State) (n q : Nat) (d : Desc) (r : Done) (hmm : s.Mems mm) : (State.complete s n q d r).Mems mm := by
  unfold State.complete
  try dsimp only
  repeat' first | with_reducible assumption | with_reducible intro _ | with_reducible apply State.cancelNote_mem | with_reducible apply State.cqWrite_mem | with_reducible apply State.setQueue_mem | with_reducible apply mem_ite

theorem State.completeUnstarted_mem {mm : Mem × Mem × SMem} (s : State) (n q : Nat) (d : Desc) (status detail : Nat) (hmm : s.Mems mm) : (State.completeUnstarted s n q d status detail).Mems mm := by
  unfold State.completeUnstarted
  try dsimp only
  repeat' first | with_reducible assumption | with_reducible intro _ | with_reducible apply State.complete_mem | with_reducible apply State.setQueue_mem | with_reducible apply mem_ite

theorem State.flushEnded_mem {mm : Mem × Mem × SMem} (s : State) (n q fuel : Nat) (h : s.Mems mm) : (s.flushEnded n q fuel).Mems mm := by
  induction fuel generalizing s with
  | zero => exact h
  | succ k ih =>
    unfold State.flushEnded
    repeat' first | with_reducible assumption | with_reducible intro _ | with_reducible apply ih | with_reducible apply State.complete_mem | with_reducible apply State.setQueue_mem | with_reducible apply mem_ite | (fail_if_no_progress with_reducible apply mem_mk) | with_reducible apply each_mem | with_reducible refine mem_snd (by with_reducible assumption) ?_ | with_reducible refine mem_fst (by with_reducible assumption) ?_ | with_reducible refine mem_some (by with_reducible assumption) ?_ | with_reducible apply foldl_mem | split

theorem State.putReport_mem {mm : Mem × Mem × SMem} (s : State) (n q : Nat) (hmm : s.Mems mm) : (State.putReport s n q).Mems mm := by
  unfold State.putReport
  try dsimp only
  repeat' first | with_reducible assumption | with_reducible intro _ | with_reducible apply State.cqWrite_mem | with_reducible apply State.setQueue_mem | with_reducible apply mem_ite

theorem State.flushReport_mem {mm : Mem × Mem × SMem} (s : State) (n q : Nat) (hmm : s.Mems mm) : (State.flushReport s n q).Mems mm := by
  unfold State.flushReport
  try dsimp only
  repeat' first | with_reducible assumption | with_reducible intro _ | with_reducible apply State.cqWrite_mem | with_reducible apply State.setQueue_mem | with_reducible apply State.each_mem | with_reducible apply mem_ite | (fail_if_no_progress with_reducible apply mem_mk) | with_reducible apply each_mem

theorem State.doorbell_mem {mm : Mem × Mem × SMem} (s : State) (rq : Requester) (n q v : Nat) (hmm : s.Mems mm) : (State.doorbell s rq n q v).Mems mm := by
  unfold State.doorbell
  try dsimp only
  repeat' first | with_reducible assumption | with_reducible intro _ | with_reducible apply State.tenRegErr_mem | with_reducible apply State.satFld_mem | with_reducible apply State.setFld_mem | with_reducible apply mem_ite | (fail_if_no_progress with_reducible apply mem_mk) | with_reducible apply each_mem | with_reducible refine mem_snd (by with_reducible assumption) ?_ | with_reducible refine mem_fst (by with_reducible assumption) ?_ | with_reducible refine mem_some (by with_reducible assumption) ?_ | with_reducible apply foldl_mem | split

theorem State.fetchOne_mem {mm : Mem × Mem × SMem} (s : State) (n q : Nat) (hmm : s.Mems mm) : (State.fetchOne s n q).Mems mm := by
  unfold State.fetchOne
  try dsimp only
  repeat' first | with_reducible assumption | with_reducible intro _ | with_reducible apply State.setFld_mem | with_reducible apply State.setQueue_mem | with_reducible apply State.flog_mem | with_reducible apply State.completeUnstarted_mem | with_reducible apply mem_ite | (fail_if_no_progress with_reducible apply mem_mk) | with_reducible apply each_mem | with_reducible apply next_mem | with_reducible refine mem_snd (by with_reducible assumption) ?_ | with_reducible refine mem_fst (by with_reducible assumption) ?_ | with_reducible refine mem_some (by with_reducible assumption) ?_ | with_reducible apply foldl_mem | split

theorem State.startDesc_mem {mm : Mem × Mem × SMem} (s : State) (n q : Nat) (d : Desc) (hmm : s.Mems mm) : (State.startDesc s n q d).Mems mm := by
  unfold State.startDesc
  try dsimp only
  repeat' first | with_reducible assumption | with_reducible intro _ | with_reducible apply State.setQueue_mem

theorem State.setDesc_mem {mm : Mem × Mem × SMem} (s : State) (n q : Nat) (d : Desc) (hmm : s.Mems mm) : (State.setDesc s n q d).Mems mm := by
  unfold State.setDesc
  try dsimp only
  repeat' first | with_reducible assumption | with_reducible intro _ | with_reducible apply State.setQueue_mem

theorem execJobFence_mem {mm : Mem × Mem × SMem} (n : Fin 128) (q : Fin 8) (s : State) (hmm : s.Mems mm) : OutMem mm (execJobFence n q s) := by
  unfold execJobFence
  try dsimp only
  repeat' first | with_reducible assumption | with_reducible intro _ | with_reducible apply State.completeUnstarted_mem | with_reducible apply mem_ite | (fail_if_no_progress with_reducible apply mem_mk) | with_reducible apply each_mem | with_reducible apply next_mem | with_reducible refine mem_snd (by with_reducible assumption) ?_ | with_reducible refine mem_fst (by with_reducible assumption) ?_ | with_reducible refine mem_some (by with_reducible assumption) ?_ | with_reducible apply foldl_mem | split

theorem execJobNop_mem {mm : Mem × Mem × SMem} (n : Fin 128) (q : Fin 8) (s : State) (hmm : s.Mems mm) : OutMem mm (execJobNop n q s) := by
  unfold execJobNop
  try dsimp only
  repeat' first | with_reducible assumption | with_reducible intro _ | with_reducible apply State.completeUnstarted_mem | with_reducible apply mem_ite | (fail_if_no_progress with_reducible apply mem_mk) | with_reducible apply each_mem | with_reducible apply next_mem | with_reducible refine mem_snd (by with_reducible assumption) ?_ | with_reducible refine mem_fst (by with_reducible assumption) ?_ | with_reducible refine mem_some (by with_reducible assumption) ?_ | with_reducible apply foldl_mem | split

theorem execCqCoalTimerExpiry_mem {mm : Mem × Mem × SMem} (n : Fin 128) (q : Fin 8) (s : State) (hmm : s.Mems mm) : OutMem mm (execCqCoalTimerExpiry n q s) := by
  unfold execCqCoalTimerExpiry
  try dsimp only
  repeat' first | with_reducible assumption | with_reducible intro _ | with_reducible apply State.cqSignal_mem | with_reducible apply mem_ite | (fail_if_no_progress with_reducible apply mem_mk) | with_reducible apply each_mem | with_reducible apply next_mem

theorem execCqWriteFail_mem {mm : Mem × Mem × SMem} (n : Fin 128) (q : Fin 8) (s : State) (hmm : s.Mems mm) : OutMem mm (execCqWriteFail n q s) := by
  unfold execCqWriteFail
  try dsimp only
  repeat' first | with_reducible assumption | with_reducible intro _ | with_reducible apply State.cqError_mem | with_reducible apply State.setFlag_mem | with_reducible apply State.setFld_mem | with_reducible apply mem_ite | (fail_if_no_progress with_reducible apply mem_mk) | with_reducible apply each_mem | with_reducible apply next_mem

theorem State.queueOn_mem {mm : Mem × Mem × SMem} (s : State) (rq : Requester) (n q : Nat) (hmm : s.Mems mm) : (State.queueOn s rq n q).Mems mm := by
  unfold State.queueOn
  try dsimp only
  repeat' first | with_reducible assumption | with_reducible intro _ | with_reducible apply State.setFld_mem | with_reducible apply State.setFlag_mem | with_reducible apply State.event_mem | with_reducible apply State.tenRegErr_mem | with_reducible apply State.bindComps_mem | with_reducible apply mem_ite

theorem State.queueOff_mem {mm : Mem × Mem × SMem} (s : State) (n q : Nat) (hmm : s.Mems mm) : (State.queueOff s n q).Mems mm := by
  unfold State.queueOff
  try dsimp only
  repeat' first | with_reducible assumption | with_reducible intro _ | with_reducible apply State.cancelEnd_mem | with_reducible apply State.bindComps_mem | with_reducible apply State.setQueue_mem | with_reducible apply State.setFld_mem | with_reducible apply mem_ite

theorem State.sqCfgWrite_mem {mm : Mem × Mem × SMem} (s : State) (rq : Requester) (n q v : Nat) (hmm : s.Mems mm) : (State.sqCfgWrite s rq n q v).Mems mm := by
  unfold State.sqCfgWrite
  try dsimp only
  repeat' first | with_reducible assumption | with_reducible intro _ | with_reducible apply State.setFld_mem | with_reducible apply State.setFlag_mem | with_reducible apply State.countErr_mem | with_reducible apply State.queueOn_mem | with_reducible apply State.queueOff_mem | with_reducible apply mem_ite

theorem State.stopJob_mem {mm : Mem × Mem × SMem} (s : State) (order : Nat) (verdict : Nat × Nat × Nat) (hmm : s.Mems mm) : (State.stopJob s order verdict).Mems mm := by
  unfold State.stopJob
  try dsimp only
  repeat' first | with_reducible assumption | with_reducible intro _ | with_reducible apply State.setJob_mem | with_reducible apply mem_ite

theorem State.dropLoads_mem {mm : Mem × Mem × SMem} (s : State) (n q num : Nat) (hmm : s.Mems mm) : (State.dropLoads s n q num).Mems mm := by
  unfold State.dropLoads
  try dsimp only
  repeat' first | with_reducible assumption | with_reducible intro _ | with_reducible apply mem_ite | (fail_if_no_progress with_reducible apply mem_mk)

theorem State.cancelDesc_mem {mm : Mem × Mem × SMem} (s : State) (n q : Nat) (d : Desc) (hmm : s.Mems mm) : (State.cancelDesc s n q d).Mems mm := by
  unfold State.cancelDesc
  try dsimp only
  repeat' first | with_reducible assumption | with_reducible intro _ | with_reducible apply State.complete_mem | with_reducible apply State.completeUnstarted_mem | with_reducible apply State.stopJob_mem | with_reducible apply State.dropLoads_mem | with_reducible apply mem_ite | (fail_if_no_progress with_reducible apply mem_mk) | with_reducible apply each_mem | with_reducible apply next_mem | with_reducible refine mem_snd (by with_reducible assumption) ?_ | with_reducible refine mem_fst (by with_reducible assumption) ?_ | with_reducible refine mem_some (by with_reducible assumption) ?_ | with_reducible apply foldl_mem | split

theorem State.cancelFetch_mem {mm : Mem × Mem × SMem} (s : State) (n q : Nat) (a0 : Nat) (hmm : s.Mems mm) : (State.cancelFetch s n q a0).Mems mm := by
  induction a0 generalizing s with
  | zero => unfold State.cancelFetch; first | exact hmm
  | succ k ih =>
    unfold State.cancelFetch
    try dsimp only
    repeat' first | with_reducible assumption | with_reducible intro _ | with_reducible apply ih | with_reducible apply State.cancelDesc_mem | with_reducible apply State.fetchOne_mem | with_reducible apply State.setTen_mem | with_reducible apply State.addFld_mem | with_reducible apply mem_ite | (fail_if_no_progress with_reducible apply mem_mk) | with_reducible apply each_mem | with_reducible refine mem_snd (by with_reducible assumption) ?_ | with_reducible refine mem_fst (by with_reducible assumption) ?_ | with_reducible refine mem_some (by with_reducible assumption) ?_ | with_reducible apply foldl_mem | split

theorem State.cancelMore_mem {mm : Mem × Mem × SMem} (s : State) (n q : Nat) (hmm : s.Mems mm) : (State.cancelMore s n q).Mems mm := by
  unfold State.cancelMore
  try dsimp only
  repeat' first | with_reducible assumption | with_reducible intro _ | with_reducible apply State.cancelFetch_mem | with_reducible apply State.cancelEnd_mem

theorem State.cancel_mem {mm : Mem × Mem × SMem} (s : State) (n q : Nat) (all : Bool) (hmm : s.Mems mm) : (State.cancel s n q all).Mems mm := by
  unfold State.cancel
  try dsimp only
  repeat' first | with_reducible assumption | with_reducible intro _ | with_reducible apply State.cancelMore_mem | with_reducible apply State.cancelDesc_mem | with_reducible apply State.setTen_mem | with_reducible apply State.each_mem | with_reducible apply State.setFlag_mem | with_reducible apply State.setFld_mem | with_reducible apply mem_ite | (fail_if_no_progress with_reducible apply mem_mk) | with_reducible apply each_mem

theorem execDescriptorFetch_mem {mm : Mem × Mem × SMem} (n : Fin 128) (q : Fin 8) (s : State) (hmm : s.Mems mm) : OutMem mm (execDescriptorFetch n q s) := by
  unfold execDescriptorFetch
  try dsimp only
  repeat' first | with_reducible assumption | with_reducible intro _ | with_reducible apply State.cancelMore_mem | with_reducible apply State.fetchOne_mem | with_reducible apply mem_ite | (fail_if_no_progress with_reducible apply mem_mk) | with_reducible apply each_mem | with_reducible apply next_mem | with_reducible refine mem_snd (by with_reducible assumption) ?_ | with_reducible refine mem_fst (by with_reducible assumption) ?_ | with_reducible refine mem_some (by with_reducible assumption) ?_ | with_reducible apply foldl_mem | split

theorem State.cqHeadWrite_mem {mm : Mem × Mem × SMem} (s : State) (rq : Requester) (n q v : Nat) (hmm : s.Mems mm) : (State.cqHeadWrite s rq n q v).Mems mm := by
  unfold State.cqHeadWrite
  try dsimp only
  repeat' first | with_reducible assumption | with_reducible intro _ | with_reducible apply State.cancelMore_mem | with_reducible apply State.flushReport_mem | with_reducible apply State.flushEnded_mem | with_reducible apply State.tenRegErr_mem | with_reducible apply State.setFld_mem | with_reducible apply mem_ite | (fail_if_no_progress with_reducible apply mem_mk) | with_reducible apply each_mem | with_reducible refine mem_snd (by with_reducible assumption) ?_ | with_reducible refine mem_fst (by with_reducible assumption) ?_ | with_reducible refine mem_some (by with_reducible assumption) ?_ | with_reducible apply foldl_mem | split

/-! Companions. -/

theorem State.hpcFree_mem {mm : Mem × Mem × SMem} (s : State) (h : Nat) (hmm : s.Mems mm) : (State.hpcFree s h).Mems mm := by
  unfold State.hpcFree
  try dsimp only
  repeat' first | with_reducible assumption | with_reducible intro _ | with_reducible apply State.setFld_mem | with_reducible apply State.setFlag_mem

theorem State.hpcGrant_mem {mm : Mem × Mem × SMem} (s : State) (rq : Requester) (h w : Nat) (hmm : s.Mems mm) : (State.hpcGrant s rq h w).Mems mm := by
  unfold State.hpcGrant
  try dsimp only
  repeat' first | with_reducible assumption | with_reducible intro _ | with_reducible apply State.setFld_mem | with_reducible apply State.setFlag_mem | with_reducible apply State.countErr_mem | with_reducible apply mem_ite

theorem State.hpcStart_mem {mm : Mem × Mem × SMem} (s : State) (h : Nat) (hmm : s.Mems mm) : (State.hpcStart s h).Mems mm := by
  unfold State.hpcStart
  try dsimp only
  repeat' first | with_reducible assumption | with_reducible intro _ | with_reducible apply State.setFlag_mem | with_reducible apply State.setFld_mem | with_reducible apply mem_ite | (fail_if_no_progress with_reducible apply mem_mk)

theorem State.hpcStop_mem {mm : Mem × Mem × SMem} (s : State) (h cause : Nat) (hmm : s.Mems mm) : (State.hpcStop s h cause).Mems mm := by
  unfold State.hpcStop
  try dsimp only
  repeat' first | with_reducible assumption | with_reducible intro _ | with_reducible apply State.setFld_mem | with_reducible apply mem_ite | (fail_if_no_progress with_reducible apply mem_mk)

theorem State.hpcEnd_mem {mm : Mem × Mem × SMem} (s : State) (h st code cause tval : Nat) (hmm : s.Mems mm) : (State.hpcEnd s h st code cause tval).Mems mm := by
  unfold State.hpcEnd
  try dsimp only
  repeat' first | with_reducible assumption | with_reducible intro _ | with_reducible apply State.setFld_mem | with_reducible apply State.setFlag_mem | with_reducible apply State.setFld64_mem | with_reducible apply State.event_mem

theorem execCompanionEcall_mem {mm : Mem × Mem × SMem} (h : Fin 16) (a7 a0 : Dword) (s : State) (hmm : s.Mems mm) : OutMem mm (execCompanionEcall h a7 a0 s) := by
  unfold execCompanionEcall
  try dsimp only
  repeat' first | with_reducible assumption | with_reducible intro _ | with_reducible apply State.flog_mem | with_reducible apply State.hpcEnd_mem | with_reducible apply mem_ite | (fail_if_no_progress with_reducible apply mem_mk) | with_reducible apply each_mem | with_reducible apply next_mem

theorem State.hpcFault_mem {mm : Mem × Mem × SMem} (s : State) (h : Nat) (c : CompanionCause) (tval : Nat) (hmm : s.Mems mm) : (State.hpcFault s h c tval).Mems mm := by
  unfold State.hpcFault
  try dsimp only
  repeat' first | with_reducible assumption | with_reducible intro _ | with_reducible apply State.hpcEnd_mem | with_reducible apply State.flog_mem | with_reducible apply mem_ite

theorem execCompanionException_mem {mm : Mem × Mem × SMem} (h : Fin 16) (c : CompanionCause) (tval : Dword) (s : State) (hmm : s.Mems mm) : OutMem mm (execCompanionException h c tval s) := by
  unfold execCompanionException
  try dsimp only
  repeat' first | with_reducible assumption | with_reducible intro _ | with_reducible apply State.hpcFault_mem | with_reducible apply State.hubLost_mem | with_reducible apply mem_ite | (fail_if_no_progress with_reducible apply mem_mk) | with_reducible apply each_mem | with_reducible apply next_mem

theorem State.hpcStopped_mem {mm : Mem × Mem × SMem} (s : State) (h : Nat) (hmm : s.Mems mm) : (State.hpcStopped s h).Mems mm := by
  unfold State.hpcStopped
  try dsimp only
  repeat' first | with_reducible assumption | with_reducible intro _ | with_reducible apply State.hpcFree_mem | with_reducible apply State.hpcEnd_mem | with_reducible apply mem_ite | (fail_if_no_progress with_reducible apply mem_mk)

theorem execCompanionStopped_mem {mm : Mem × Mem × SMem} (h : Fin 16) (s : State) (hmm : s.Mems mm) : OutMem mm (execCompanionStopped h s) := by
  unfold execCompanionStopped
  try dsimp only
  repeat' first | with_reducible assumption | with_reducible intro _ | with_reducible apply State.hpcStopped_mem | with_reducible apply mem_ite | (fail_if_no_progress with_reducible apply mem_mk) | with_reducible apply each_mem | with_reducible apply next_mem

/-! Slices. -/

theorem State.setSliceState_mem {mm : Mem × Mem × SMem} (s : State) (x st cause : Nat) (hmm : s.Mems mm) : (State.setSliceState s x st cause).Mems mm := by
  unfold State.setSliceState
  try dsimp only
  repeat' first | with_reducible assumption | with_reducible intro _ | with_reducible apply State.trailPut_mem | with_reducible apply State.event_mem | with_reducible apply State.setFld_mem | with_reducible apply mem_ite

theorem State.sliceBytes_mem {mm : Mem × Mem × SMem} (s : State) (x n : Nat) (hmm : s.Mems mm) : (State.sliceBytes s x n).Mems mm := by
  unfold State.sliceBytes
  try dsimp only
  repeat' first | with_reducible assumption | with_reducible intro _ | with_reducible apply State.setFld64_mem

theorem State.sliceReadCount_mem {mm : Mem × Mem × SMem} (s : State) (x a n : Nat) (hmm : s.Mems mm) : (State.sliceReadCount s x a n).Mems mm := by
  unfold State.sliceReadCount
  try dsimp only
  repeat' first | with_reducible assumption | with_reducible intro _ | with_reducible apply State.sliceBytes_mem | with_reducible apply mem_ite

theorem State.placeCount_mem {mm : Mem × Mem × SMem} (s : State) (pl : Place) (n : Nat) (hmm : s.Mems mm) : (State.placeCount s pl n).Mems mm := by
  unfold State.placeCount
  split
  · exact State.sliceReadCount_mem _ _ _ _ hmm
  · exact hmm

theorem State.sliceCross_mem {mm : Mem × Mem × SMem} (s : State) (x : Nat) (hmm : s.Mems mm) : (State.sliceCross s x).Mems mm := by
  unfold State.sliceCross
  try dsimp only
  repeat' first | with_reducible assumption | with_reducible intro _ | with_reducible apply State.setSliceState_mem | with_reducible apply State.event_mem | with_reducible apply mem_ite

/-! Operands. -/

theorem State.countRemote_mem {mm : Mem × Mem × SMem} (s : State) (x y : Nat) (hmm : s.Mems mm) : (State.countRemote s x y).Mems mm := by
  unfold State.countRemote
  try dsimp only
  repeat' first | with_reducible assumption | with_reducible intro _ | with_reducible apply State.addFld_mem | with_reducible apply mem_ite

theorem State.hmpRead_mem {mm : Mem × Mem × SMem} (s : State) (a n : Nat) (hmm : s.Mems mm) : (State.hmpRead s a n).2.2.Mems mm := by
  unfold State.hmpRead
  try dsimp only
  repeat' first | with_reducible assumption | with_reducible intro _ | with_reducible apply State.tick_mem | with_reducible apply mem_ite | (fail_if_no_progress with_reducible apply mem_mk) | with_reducible apply each_mem | with_reducible apply mem_ite_fst | with_reducible refine mem_snd (by with_reducible assumption) ?_ | with_reducible refine mem_fst (by with_reducible assumption) ?_ | with_reducible refine mem_some (by with_reducible assumption) ?_ | with_reducible apply foldl_mem | split

theorem State.memRead_mem {mm : Mem × Mem × SMem} (s : State) (x addr n : Nat) (h : s.Mems mm) : (s.memRead x addr n).2.2.Mems mm := by
  unfold State.memRead
  dsimp only
  repeat' first | with_reducible assumption | with_reducible intro _ | with_reducible apply State.hmpRead_mem | with_reducible apply State.countRemote_mem | with_reducible apply State.sliceReadCount_mem | with_reducible apply State.placeCount_mem | (refine State.placeCount_mem _ _ _ ?_; assumption) | with_reducible apply mem_ite | (fail_if_no_progress with_reducible apply mem_mk) | with_reducible apply each_mem | with_reducible apply mem_ite_fst | with_reducible refine mem_snd (by with_reducible assumption) ?_ | with_reducible refine mem_fst (by with_reducible assumption) ?_ | with_reducible refine mem_some (by with_reducible assumption) ?_ | with_reducible apply foldl_mem | split

/-! Apertures. -/

theorem State.hpcGot_mem {mm : Mem × Mem × SMem} (s : State) (h va : Nat) (poison : Bool) (next : State → State) (hmm : s.Mems mm) (hnext : ∀ s : State, s.Mems mm → (next s).Mems mm) : (State.hpcGot s h va poison next).Mems mm := by
  unfold State.hpcGot
  try dsimp only
  repeat' first | with_reducible assumption | with_reducible intro _ | with_reducible apply hnext | with_reducible apply State.hpcFault_mem | with_reducible apply mem_ite

theorem State.hpcRead_mem {mm : Mem × Mem × SMem} (s : State) (h va : Nat) (k : HpcKind) (len : Nat) (hmm : s.Mems mm) : (State.hpcRead s h va k len).Mems mm := by
  unfold State.hpcRead
  try dsimp only
  repeat' first | with_reducible assumption | with_reducible intro _ | with_reducible apply State.hpcGot_mem | with_reducible apply State.hmpRead_mem | with_reducible apply State.sliceReadCount_mem | with_reducible apply State.placeCount_mem | (refine State.placeCount_mem _ _ _ ?_; assumption) | with_reducible apply State.hpcFault_mem | with_reducible apply State.emit_mem | with_reducible apply mem_ite | (fail_if_no_progress with_reducible apply mem_mk) | with_reducible apply each_mem | with_reducible refine mem_snd (by with_reducible assumption) ?_ | with_reducible refine mem_fst (by with_reducible assumption) ?_ | with_reducible refine mem_some (by with_reducible assumption) ?_ | with_reducible apply foldl_mem | split

end Sys2Proof.Machine
end

