-- ==== Sys2Proof/Laws/MemCores.lean ====
section
/-! SUPPORT. Which functions change no byte of the Hamper, the on-chip stores and the slices: queues, jobs, the Peken cores, the movers, the KV pools and the slice commands. One lemma per function. -/
namespace Sys2Proof.Machine

/-! Jobs. -/

theorem State.etDrop_mem {mm : Mem × Mem × SMem} (s : State) (n : Nat) (hmm : s.Mems mm) : (State.etDrop s n).Mems mm := by
  unfold State.etDrop
  try dsimp only
  repeat' first | with_reducible assumption | with_reducible intro _ | with_reducible apply mem_ite | (fail_if_no_progress with_reducible apply mem_mk)

theorem State.rezDrop_mem {mm : Mem × Mem × SMem} (s : State) (x k : Nat) (hmm : s.Mems mm) : (State.rezDrop s x k).Mems mm := by
  unfold State.rezDrop
  try dsimp only
  repeat' first | with_reducible assumption | with_reducible intro _ | with_reducible apply State.setFld_mem | with_reducible apply State.setFlag_mem

theorem State.setLoads_mem {mm : Mem × Mem × SMem} (s : State) (x : Nat) (l : List LoadOp) (hmm : s.Mems mm) : (State.setLoads s x l).Mems mm := by
  unfold State.setLoads
  try dsimp only
  repeat' first | with_reducible assumption | with_reducible intro _ | with_reducible apply mem_ite | (fail_if_no_progress with_reducible apply mem_mk)

theorem State.rotaPick_mem {mm : Mem × Mem × SMem} (s : State) (p w : Nat) (elig : Nat → Bool) (hmm : s.Mems mm) : (State.rotaPick s p w elig).2.Mems mm := by
  unfold State.rotaPick
  try dsimp only
  repeat' first | with_reducible assumption | with_reducible intro _ | with_reducible apply State.setFld_mem | with_reducible apply State.satFld_mem | with_reducible apply mem_ite | (fail_if_no_progress with_reducible apply mem_mk) | with_reducible apply each_mem | with_reducible apply next_mem | with_reducible refine mem_snd (by with_reducible assumption) ?_ | with_reducible refine mem_fst (by with_reducible assumption) ?_ | with_reducible refine mem_some (by with_reducible assumption) ?_ | with_reducible apply foldl_mem | split

theorem State.setVerdict_mem {mm : Mem × Mem × SMem} (s : State) (x status detail : Nat) (hmm : s.Mems mm) : (State.setVerdict s x status detail).Mems mm := by
  unfold State.setVerdict
  try dsimp only
  repeat' first | with_reducible assumption | with_reducible intro _ | with_reducible apply State.setJob_mem | with_reducible apply mem_ite | (fail_if_no_progress with_reducible apply mem_mk) | with_reducible apply each_mem | with_reducible apply next_mem | with_reducible refine mem_snd (by with_reducible assumption) ?_ | with_reducible refine mem_fst (by with_reducible assumption) ?_ | with_reducible refine mem_some (by with_reducible assumption) ?_ | with_reducible apply foldl_mem | split

theorem State.coreFault_mem {mm : Mem × Mem × SMem} (s : State) (x code src hi addr pc : Nat) (hmm : s.Mems mm) : (State.coreFault s x code src hi addr pc).Mems mm := by
  unfold State.coreFault
  try dsimp only
  repeat' first | with_reducible assumption | with_reducible intro _ | with_reducible apply State.setFld_mem | with_reducible apply State.setFlag_mem | with_reducible apply State.setFld64_mem | with_reducible apply State.setInts_mem | with_reducible apply State.countErr_mem | with_reducible apply State.flog_mem | with_reducible apply State.setVerdict_mem | with_reducible apply mem_ite | (fail_if_no_progress with_reducible apply mem_mk) | with_reducible apply each_mem | with_reducible apply next_mem | with_reducible refine mem_snd (by with_reducible assumption) ?_ | with_reducible refine mem_fst (by with_reducible assumption) ?_ | with_reducible refine mem_some (by with_reducible assumption) ?_ | with_reducible apply foldl_mem | split

theorem State.corePoison_mem {mm : Mem × Mem × SMem} (s : State) (x block consumer space addr : Nat) (hmm : s.Mems mm) : (State.corePoison s x block consumer space addr).Mems mm := by
  unfold State.corePoison
  try dsimp only
  repeat' first | with_reducible assumption | with_reducible intro _ | with_reducible apply State.event_mem | with_reducible apply State.flog_mem | with_reducible apply State.setVerdict_mem | with_reducible apply mem_ite | (fail_if_no_progress with_reducible apply mem_mk) | with_reducible apply each_mem | with_reducible apply next_mem | with_reducible refine mem_snd (by with_reducible assumption) ?_ | with_reducible refine mem_fst (by with_reducible assumption) ?_ | with_reducible refine mem_some (by with_reducible assumption) ?_ | with_reducible apply foldl_mem | split

theorem State.jobRegs_mem {mm : Mem × Mem × SMem} (s : State) (x : Nat) (j : Job) (rank tag : Nat) (hmm : s.Mems mm) : (State.jobRegs s x j rank tag).Mems mm := by
  unfold State.jobRegs
  try dsimp only
  repeat' first | with_reducible assumption | with_reducible intro _ | with_reducible apply State.setFld_mem | with_reducible apply State.setFlag_mem

theorem State.jobStart_mem {mm : Mem × Mem × SMem} (s : State) (n q p : Nat) (d : Desc) (k : Nat) (gs : List Nat) (hmm : s.Mems mm) : (State.jobStart s n q p d k gs).Mems mm := by
  unfold State.jobStart
  try dsimp only
  repeat' first | with_reducible assumption | with_reducible intro _ | with_reducible apply State.jobRegs_mem | with_reducible apply State.setDesc_mem | with_reducible apply State.startDesc_mem | with_reducible apply State.setJob_mem | with_reducible apply State.setCore_mem | with_reducible apply State.setRes_mem | with_reducible apply State.each_mem | with_reducible apply mem_ite | (fail_if_no_progress with_reducible apply mem_mk) | with_reducible apply each_mem

theorem execDispatch_mem {mm : Mem × Mem × SMem} (p : Fin 8) (s : State) (hmm : s.Mems mm) : OutMem mm (execDispatch p s) := by
  unfold execDispatch
  try dsimp only
  repeat' first | with_reducible assumption | with_reducible intro _ | with_reducible apply State.setDsp_mem | with_reducible apply mem_ite | (fail_if_no_progress with_reducible apply mem_mk) | with_reducible apply each_mem | with_reducible apply next_mem | with_reducible refine mem_snd (by with_reducible assumption) ?_ | with_reducible refine mem_fst (by with_reducible assumption) ?_ | with_reducible refine mem_some (by with_reducible assumption) ?_ | with_reducible apply foldl_mem | split

theorem State.onPick_mem {mm : Mem × Mem × SMem} (s : State) (p kind : Nat) (f : Nat → Nat → Desc → State → State) (hmm : s.Mems mm) (hf : ∀ x0 x1 x2 (s : State), s.Mems mm → (f x0 x1 x2 s).Mems mm) : (State.onPick s p kind f).Mems mm := by
  unfold State.onPick
  try dsimp only
  repeat' first | with_reducible assumption | with_reducible intro _ | with_reducible apply State.setDsp_mem | with_reducible apply hf | with_reducible apply mem_ite | (fail_if_no_progress with_reducible apply mem_mk) | with_reducible apply each_mem | with_reducible apply next_mem | with_reducible refine mem_snd (by with_reducible assumption) ?_ | with_reducible refine mem_fst (by with_reducible assumption) ?_ | with_reducible refine mem_some (by with_reducible assumption) ?_ | with_reducible apply foldl_mem | split

theorem State.addLoads_mem {mm : Mem × Mem × SMem} (s : State) (k : Nat) (xs : List Nat) (desc : Option (Nat × Nat × Nat)) (hmm : s.Mems mm) : (State.addLoads s k xs desc).Mems mm := by
  unfold State.addLoads
  try dsimp only
  repeat' first | with_reducible assumption | with_reducible intro _ | with_reducible apply State.setFlag_mem | with_reducible apply State.each_mem | with_reducible apply State.setLoads_mem | with_reducible apply mem_ite | (fail_if_no_progress with_reducible apply mem_mk) | with_reducible apply each_mem

theorem execJobRun_mem {mm : Mem × Mem × SMem} (p : Fin 8) (s : State) (hmm : s.Mems mm) : OutMem mm (execJobRun p s) := by
  unfold execJobRun
  try dsimp only
  repeat' first | with_reducible assumption | with_reducible intro _ | with_reducible apply State.addLoads_mem | with_reducible apply State.onPick_mem | with_reducible apply State.jobStart_mem | with_reducible apply State.rotaPick_mem | with_reducible apply State.setDesc_mem | with_reducible apply State.completeUnstarted_mem | with_reducible apply mem_ite | (fail_if_no_progress with_reducible apply mem_mk) | with_reducible apply each_mem | with_reducible apply next_mem | with_reducible refine mem_snd (by with_reducible assumption) ?_ | with_reducible refine mem_fst (by with_reducible assumption) ?_ | with_reducible refine mem_some (by with_reducible assumption) ?_ | with_reducible apply foldl_mem | split

theorem State.copyPoison_mem {mm : Mem × Mem × SMem} (s : State) (n q : Nat) (d : Desc) (space addr : Nat) (hmm : s.Mems mm) : (State.copyPoison s n q d space addr).1.Mems mm := by
  unfold State.copyPoison
  try dsimp only
  repeat' first | with_reducible assumption | with_reducible intro _ | with_reducible apply State.flog_mem | with_reducible apply State.setDesc_mem | with_reducible apply mem_ite | (fail_if_no_progress with_reducible apply mem_mk) | with_reducible apply each_mem | with_reducible apply next_mem | with_reducible refine mem_snd (by with_reducible assumption) ?_ | with_reducible refine mem_fst (by with_reducible assumption) ?_ | with_reducible refine mem_some (by with_reducible assumption) ?_ | with_reducible apply foldl_mem | split

theorem State.copyEnd_mem {mm : Mem × Mem × SMem} (s : State) (n q : Nat) (d : Desc) (hmm : s.Mems mm) : (State.copyEnd s n q d).Mems mm := by
  unfold State.copyEnd
  try dsimp only
  repeat' first | with_reducible assumption | with_reducible intro _ | with_reducible apply State.complete_mem | with_reducible apply mem_ite | (fail_if_no_progress with_reducible apply mem_mk) | with_reducible apply each_mem | with_reducible apply next_mem | with_reducible refine mem_snd (by with_reducible assumption) ?_ | with_reducible refine mem_fst (by with_reducible assumption) ?_ | with_reducible refine mem_some (by with_reducible assumption) ?_ | with_reducible apply foldl_mem | split

theorem execJobCopy_mem {mm : Mem × Mem × SMem} (p : Fin 8) (xlate : Bool) (s : State) (hmm : s.Mems mm) : OutMem mm (execJobCopy p xlate s) := by
  unfold execJobCopy
  try dsimp only
  repeat' first | with_reducible assumption | with_reducible intro _ | with_reducible apply State.emit_mem | with_reducible apply State.each_mem | with_reducible apply State.complete_mem | with_reducible apply State.startDesc_mem | with_reducible apply State.onPick_mem | with_reducible apply State.copyPoison_mem | with_reducible apply State.copyEnd_mem | with_reducible apply mem_ite | (fail_if_no_progress with_reducible apply mem_mk) | with_reducible apply each_mem | with_reducible apply next_mem | with_reducible refine mem_snd (by with_reducible assumption) ?_ | with_reducible refine mem_fst (by with_reducible assumption) ?_ | with_reducible refine mem_some (by with_reducible assumption) ?_ | with_reducible apply foldl_mem | split

theorem execCopyCompletionTimeout_mem {mm : Mem × Mem × SMem} (n : Fin 128) (q : Fin 8) (i : BitVec 16) (s : State) (hmm : s.Mems mm) : OutMem mm (execCopyCompletionTimeout n q i s) := by
  unfold execCopyCompletionTimeout
  try dsimp only
  repeat' first | with_reducible assumption | with_reducible intro _ | with_reducible apply State.complete_mem | with_reducible apply mem_ite | (fail_if_no_progress with_reducible apply mem_mk) | with_reducible apply each_mem | with_reducible apply next_mem | with_reducible refine mem_snd (by with_reducible assumption) ?_ | with_reducible refine mem_fst (by with_reducible assumption) ?_ | with_reducible refine mem_some (by with_reducible assumption) ?_ | with_reducible apply foldl_mem | split

/-! Peken. -/

theorem State.act_mem {mm : Mem × Mem × SMem} (s : State) (x pc : Nat) (a : Act) (h : s.Mems mm) (ha : ActMem mm a) : (s.act x pc a).Mems mm := by
  unfold State.act
  split
  · exact h
  · exact State.coreFault_mem _ _ _ _ _ _ _ h
  · exact State.corePoison_mem _ _ _ _ _ _ h
  · exact State.setCore_mem _ _ _ ha
  · exact State.setCore_mem _ _ _ ha
  · exact ha

theorem State.tguCount_mem {mm : Mem × Mem × SMem} (s : State) (x : Nat) (hmm : s.Mems mm) : (State.tguCount s x).Mems mm := by
  unfold State.tguCount
  try dsimp only
  repeat' first | with_reducible assumption | with_reducible intro _ | with_reducible apply State.setFld64_mem

theorem State.peken_mem {mm : Mem × Mem × SMem} (s : State) (x : Nat) (i : Pk) (f : Form) (body : State → Core → Act) (h : s.Mems mm)
    (hb : ∀ (s : State) c, s.Mems mm → ActMem mm (body s c)) : (s.peken x i f body).Mems mm := by
  unfold State.peken
  split
  · exact h
  · dsimp only
    split
    · rename_i a ha; exact State.act_mem _ _ _ _ h (fetchStop_mem ha)
    · split
      · exact State.act_mem _ _ _ _ h trivial
      · apply State.act_mem _ _ _ _ h
        have := hb s (s.core x) h
        split
        · rename_i t ht
          rw [ht] at this
          split
          · exact State.tguCount_mem _ _ this
          · exact this
        · exact this

theorem State.pekenReg_mem {mm : Mem × Mem × SMem} (s : State) (x : Nat) (i : Pk) (f : Form) (g : Core → Core) (hmm : s.Mems mm) : (State.pekenReg s x i f g).Mems mm := by
  unfold State.pekenReg
  try dsimp only
  repeat' first | with_reducible assumption | with_reducible intro _ | with_reducible apply State.setCore_mem | with_reducible apply State.peken_mem | with_reducible apply mem_ite | (fail_if_no_progress with_reducible apply mem_mk) | with_reducible apply each_mem | with_reducible apply next_mem | with_reducible apply act_hold_mem | with_reducible apply act_fault_mem | with_reducible apply act_poison_mem | with_reducible refine act_of_eq_mem (by with_reducible assumption) ?_ | with_reducible refine act_of_next_mem (by with_reducible assumption) ?_ | with_reducible apply act_next_mem

/-! Scalar. -/

theorem State.aluR_mem {mm : Mem × Mem × SMem} (s : State) (x : Nat) (i : Pk) (op : Dword → Dword → Dword) (hmm : s.Mems mm) : (State.aluR s x i op).Mems mm := by
  unfold State.aluR
  try dsimp only
  repeat' first | with_reducible assumption | with_reducible intro _ | with_reducible apply State.pekenReg_mem

theorem State.aluI_mem {mm : Mem × Mem × SMem} (s : State) (x : Nat) (i : Pk) (op : Dword → Dword → Dword) (hmm : s.Mems mm) : (State.aluI s x i op).Mems mm := by
  unfold State.aluI
  try dsimp only
  repeat' first | with_reducible assumption | with_reducible intro _ | with_reducible apply State.pekenReg_mem

theorem execPkAdd_mem {mm : Mem × Mem × SMem} (x : Fin 512) (i : Pk) (s : State) (hmm : s.Mems mm) : OutMem mm (execPkAdd x i s) := by
  unfold execPkAdd
  try dsimp only
  repeat' first | with_reducible assumption | with_reducible intro _ | with_reducible apply State.aluR_mem | with_reducible apply mem_ite | (fail_if_no_progress with_reducible apply mem_mk) | with_reducible apply each_mem | with_reducible apply next_mem

theorem execPkSub_mem {mm : Mem × Mem × SMem} (x : Fin 512) (i : Pk) (s : State) (hmm : s.Mems mm) : OutMem mm (execPkSub x i s) := by
  unfold execPkSub
  try dsimp only
  repeat' first | with_reducible assumption | with_reducible intro _ | with_reducible apply State.aluR_mem | with_reducible apply mem_ite | (fail_if_no_progress with_reducible apply mem_mk) | with_reducible apply each_mem | with_reducible apply next_mem

theorem execPkAnd_mem {mm : Mem × Mem × SMem} (x : Fin 512) (i : Pk) (s : State) (hmm : s.Mems mm) : OutMem mm (execPkAnd x i s) := by
  unfold execPkAnd
  try dsimp only
  repeat' first | with_reducible assumption | with_reducible intro _ | with_reducible apply State.aluR_mem | with_reducible apply mem_ite | (fail_if_no_progress with_reducible apply mem_mk) | with_reducible apply each_mem | with_reducible apply next_mem

theorem execPkOr_mem {mm : Mem × Mem × SMem} (x : Fin 512) (i : Pk) (s : State) (hmm : s.Mems mm) : OutMem mm (execPkOr x i s) := by
  unfold execPkOr
  try dsimp only
  repeat' first | with_reducible assumption | with_reducible intro _ | with_reducible apply State.aluR_mem | with_reducible apply mem_ite | (fail_if_no_progress with_reducible apply mem_mk) | with_reducible apply each_mem | with_reducible apply next_mem

theorem execPkXor_mem {mm : Mem × Mem × SMem} (x : Fin 512) (i : Pk) (s : State) (hmm : s.Mems mm) : OutMem mm (execPkXor x i s) := by
  unfold execPkXor
  try dsimp only
  repeat' first | with_reducible assumption | with_reducible intro _ | with_reducible apply State.aluR_mem | with_reducible apply mem_ite | (fail_if_no_progress with_reducible apply mem_mk) | with_reducible apply each_mem | with_reducible apply next_mem

theorem execPkShl_mem {mm : Mem × Mem × SMem} (x : Fin 512) (i : Pk) (s : State) (hmm : s.Mems mm) : OutMem mm (execPkShl x i s) := by
  unfold execPkShl
  try dsimp only
  repeat' first | with_reducible assumption | with_reducible intro _ | with_reducible apply State.aluR_mem | with_reducible apply mem_ite | (fail_if_no_progress with_reducible apply mem_mk) | with_reducible apply each_mem | with_reducible apply next_mem

theorem execPkShr_mem {mm : Mem × Mem × SMem} (x : Fin 512) (i : Pk) (s : State) (hmm : s.Mems mm) : OutMem mm (execPkShr x i s) := by
  unfold execPkShr
  try dsimp only
  repeat' first | with_reducible assumption | with_reducible intro _ | with_reducible apply State.aluR_mem | with_reducible apply mem_ite | (fail_if_no_progress with_reducible apply mem_mk) | with_reducible apply each_mem | with_reducible apply next_mem

theorem execPkSra_mem {mm : Mem × Mem × SMem} (x : Fin 512) (i : Pk) (s : State) (hmm : s.Mems mm) : OutMem mm (execPkSra x i s) := by
  unfold execPkSra
  try dsimp only
  repeat' first | with_reducible assumption | with_reducible intro _ | with_reducible apply State.aluR_mem | with_reducible apply mem_ite | (fail_if_no_progress with_reducible apply mem_mk) | with_reducible apply each_mem | with_reducible apply next_mem

theorem execPkMul_mem {mm : Mem × Mem × SMem} (x : Fin 512) (i : Pk) (s : State) (hmm : s.Mems mm) : OutMem mm (execPkMul x i s) := by
  unfold execPkMul
  try dsimp only
  repeat' first | with_reducible assumption | with_reducible intro _ | with_reducible apply State.aluR_mem | with_reducible apply mem_ite | (fail_if_no_progress with_reducible apply mem_mk) | with_reducible apply each_mem | with_reducible apply next_mem

theorem execPkMulhu_mem {mm : Mem × Mem × SMem} (x : Fin 512) (i : Pk) (s : State) (hmm : s.Mems mm) : OutMem mm (execPkMulhu x i s) := by
  unfold execPkMulhu
  try dsimp only
  repeat' first | with_reducible assumption | with_reducible intro _ | with_reducible apply State.aluR_mem | with_reducible apply mem_ite | (fail_if_no_progress with_reducible apply mem_mk) | with_reducible apply each_mem | with_reducible apply next_mem

theorem execPkMin_mem {mm : Mem × Mem × SMem} (x : Fin 512) (i : Pk) (s : State) (hmm : s.Mems mm) : OutMem mm (execPkMin x i s) := by
  unfold execPkMin
  try dsimp only
  repeat' first | with_reducible assumption | with_reducible intro _ | with_reducible apply State.aluR_mem | with_reducible apply mem_ite | (fail_if_no_progress with_reducible apply mem_mk) | with_reducible apply each_mem | with_reducible apply next_mem

theorem execPkMax_mem {mm : Mem × Mem × SMem} (x : Fin 512) (i : Pk) (s : State) (hmm : s.Mems mm) : OutMem mm (execPkMax x i s) := by
  unfold execPkMax
  try dsimp only
  repeat' first | with_reducible assumption | with_reducible intro _ | with_reducible apply State.aluR_mem | with_reducible apply mem_ite | (fail_if_no_progress with_reducible apply mem_mk) | with_reducible apply each_mem | with_reducible apply next_mem

theorem execPkMinu_mem {mm : Mem × Mem × SMem} (x : Fin 512) (i : Pk) (s : State) (hmm : s.Mems mm) : OutMem mm (execPkMinu x i s) := by
  unfold execPkMinu
  try dsimp only
  repeat' first | with_reducible assumption | with_reducible intro _ | with_reducible apply State.aluR_mem | with_reducible apply mem_ite | (fail_if_no_progress with_reducible apply mem_mk) | with_reducible apply each_mem | with_reducible apply next_mem

theorem execPkMaxu_mem {mm : Mem × Mem × SMem} (x : Fin 512) (i : Pk) (s : State) (hmm : s.Mems mm) : OutMem mm (execPkMaxu x i s) := by
  unfold execPkMaxu
  try dsimp only
  repeat' first | with_reducible assumption | with_reducible intro _ | with_reducible apply State.aluR_mem | with_reducible apply mem_ite | (fail_if_no_progress with_reducible apply mem_mk) | with_reducible apply each_mem | with_reducible apply next_mem

theorem execPkSlt_mem {mm : Mem × Mem × SMem} (x : Fin 512) (i : Pk) (s : State) (hmm : s.Mems mm) : OutMem mm (execPkSlt x i s) := by
  unfold execPkSlt
  try dsimp only
  repeat' first | with_reducible assumption | with_reducible intro _ | with_reducible apply State.aluR_mem | with_reducible apply mem_ite | (fail_if_no_progress with_reducible apply mem_mk) | with_reducible apply each_mem | with_reducible apply next_mem

theorem execPkSltu_mem {mm : Mem × Mem × SMem} (x : Fin 512) (i : Pk) (s : State) (hmm : s.Mems mm) : OutMem mm (execPkSltu x i s) := by
  unfold execPkSltu
  try dsimp only
  repeat' first | with_reducible assumption | with_reducible intro _ | with_reducible apply State.aluR_mem | with_reducible apply mem_ite | (fail_if_no_progress with_reducible apply mem_mk) | with_reducible apply each_mem | with_reducible apply next_mem

theorem execPkAddi_mem {mm : Mem × Mem × SMem} (x : Fin 512) (i : Pk) (s : State) (hmm : s.Mems mm) : OutMem mm (execPkAddi x i s) := by
  unfold execPkAddi
  try dsimp only
  repeat' first | with_reducible assumption | with_reducible intro _ | with_reducible apply State.aluI_mem | with_reducible apply mem_ite | (fail_if_no_progress with_reducible apply mem_mk) | with_reducible apply each_mem | with_reducible apply next_mem

theorem execPkAndi_mem {mm : Mem × Mem × SMem} (x : Fin 512) (i : Pk) (s : State) (hmm : s.Mems mm) : OutMem mm (execPkAndi x i s) := by
  unfold execPkAndi
  try dsimp only
  repeat' first | with_reducible assumption | with_reducible intro _ | with_reducible apply State.aluI_mem | with_reducible apply mem_ite | (fail_if_no_progress with_reducible apply mem_mk) | with_reducible apply each_mem | with_reducible apply next_mem

theorem execPkOri_mem {mm : Mem × Mem × SMem} (x : Fin 512) (i : Pk) (s : State) (hmm : s.Mems mm) : OutMem mm (execPkOri x i s) := by
  unfold execPkOri
  try dsimp only
  repeat' first | with_reducible assumption | with_reducible intro _ | with_reducible apply State.aluI_mem | with_reducible apply mem_ite | (fail_if_no_progress with_reducible apply mem_mk) | with_reducible apply each_mem | with_reducible apply next_mem

theorem execPkXori_mem {mm : Mem × Mem × SMem} (x : Fin 512) (i : Pk) (s : State) (hmm : s.Mems mm) : OutMem mm (execPkXori x i s) := by
  unfold execPkXori
  try dsimp only
  repeat' first | with_reducible assumption | with_reducible intro _ | with_reducible apply State.aluI_mem | with_reducible apply mem_ite | (fail_if_no_progress with_reducible apply mem_mk) | with_reducible apply each_mem | with_reducible apply next_mem

theorem execPkShli_mem {mm : Mem × Mem × SMem} (x : Fin 512) (i : Pk) (s : State) (hmm : s.Mems mm) : OutMem mm (execPkShli x i s) := by
  unfold execPkShli
  try dsimp only
  repeat' first | with_reducible assumption | with_reducible intro _ | with_reducible apply State.aluI_mem | with_reducible apply mem_ite | (fail_if_no_progress with_reducible apply mem_mk) | with_reducible apply each_mem | with_reducible apply next_mem

theorem execPkShri_mem {mm : Mem × Mem × SMem} (x : Fin 512) (i : Pk) (s : State) (hmm : s.Mems mm) : OutMem mm (execPkShri x i s) := by
  unfold execPkShri
  try dsimp only
  repeat' first | with_reducible assumption | with_reducible intro _ | with_reducible apply State.aluI_mem | with_reducible apply mem_ite | (fail_if_no_progress with_reducible apply mem_mk) | with_reducible apply each_mem | with_reducible apply next_mem

theorem execPkSrai_mem {mm : Mem × Mem × SMem} (x : Fin 512) (i : Pk) (s : State) (hmm : s.Mems mm) : OutMem mm (execPkSrai x i s) := by
  unfold execPkSrai
  try dsimp only
  repeat' first | with_reducible assumption | with_reducible intro _ | with_reducible apply State.aluI_mem | with_reducible apply mem_ite | (fail_if_no_progress with_reducible apply mem_mk) | with_reducible apply each_mem | with_reducible apply next_mem

theorem execPkLui_mem {mm : Mem × Mem × SMem} (x : Fin 512) (i : Pk) (s : State) (hmm : s.Mems mm) : OutMem mm (execPkLui x i s) := by
  unfold execPkLui
  try dsimp only
  repeat' first | with_reducible assumption | with_reducible intro _ | with_reducible apply State.aluI_mem | with_reducible apply mem_ite | (fail_if_no_progress with_reducible apply mem_mk) | with_reducible apply each_mem | with_reducible apply next_mem

theorem execPkSlti_mem {mm : Mem × Mem × SMem} (x : Fin 512) (i : Pk) (s : State) (hmm : s.Mems mm) : OutMem mm (execPkSlti x i s) := by
  unfold execPkSlti
  try dsimp only
  repeat' first | with_reducible assumption | with_reducible intro _ | with_reducible apply State.aluI_mem | with_reducible apply mem_ite | (fail_if_no_progress with_reducible apply mem_mk) | with_reducible apply each_mem | with_reducible apply next_mem

theorem execPkCsrr_mem {mm : Mem × Mem × SMem} (x : Fin 512) (i : Pk) (s : State) (hmm : s.Mems mm) : OutMem mm (execPkCsrr x i s) := by
  unfold execPkCsrr
  try dsimp only
  repeat' first | with_reducible assumption | with_reducible intro _ | with_reducible apply State.tick_mem | with_reducible apply State.setCore_mem | with_reducible apply State.peken_mem | with_reducible apply mem_ite | (fail_if_no_progress with_reducible apply mem_mk) | with_reducible apply each_mem | with_reducible apply next_mem | with_reducible apply act_hold_mem | with_reducible apply act_fault_mem | with_reducible apply act_poison_mem | with_reducible refine act_of_eq_mem (by with_reducible assumption) ?_ | with_reducible refine act_of_next_mem (by with_reducible assumption) ?_ | with_reducible apply act_next_mem | with_reducible apply act_jump_mem | with_reducible apply act_block_mem | with_reducible refine mem_snd (by with_reducible assumption) ?_ | with_reducible refine mem_fst (by with_reducible assumption) ?_ | with_reducible refine mem_some (by with_reducible assumption) ?_ | with_reducible apply foldl_mem | split

theorem execPkCsrw_mem {mm : Mem × Mem × SMem} (x : Fin 512) (i : Pk) (s : State) (hmm : s.Mems mm) : OutMem mm (execPkCsrw x i s) := by
  unfold execPkCsrw
  try dsimp only
  repeat' first | with_reducible assumption | with_reducible intro _ | with_reducible apply State.setCore_mem | with_reducible apply State.peken_mem | with_reducible apply mem_ite | (fail_if_no_progress with_reducible apply mem_mk) | with_reducible apply each_mem | with_reducible apply next_mem | with_reducible apply act_hold_mem | with_reducible apply act_fault_mem | with_reducible apply act_poison_mem | with_reducible refine act_of_eq_mem (by with_reducible assumption) ?_ | with_reducible refine act_of_next_mem (by with_reducible assumption) ?_ | with_reducible apply act_next_mem | with_reducible apply act_jump_mem | with_reducible apply act_block_mem | with_reducible refine mem_snd (by with_reducible assumption) ?_ | with_reducible refine mem_fst (by with_reducible assumption) ?_ | with_reducible refine mem_some (by with_reducible assumption) ?_ | with_reducible apply foldl_mem | split

theorem execPkLds_mem {mm : Mem × Mem × SMem} (x : Fin 512) (i : Pk) (s : State) (hmm : s.Mems mm) : OutMem mm (execPkLds x i s) := by
  unfold execPkLds
  try dsimp only
  repeat' first | with_reducible assumption | with_reducible intro _ | with_reducible apply State.peken_mem | with_reducible apply State.memRead_mem | with_reducible apply State.event_mem | with_reducible apply State.setCore_mem | with_reducible apply mem_ite | (fail_if_no_progress with_reducible apply mem_mk) | with_reducible apply each_mem | with_reducible apply next_mem | with_reducible apply act_hold_mem | with_reducible apply act_fault_mem | with_reducible apply act_poison_mem | with_reducible refine act_of_eq_mem (by with_reducible assumption) ?_ | with_reducible refine act_of_next_mem (by with_reducible assumption) ?_ | with_reducible apply act_next_mem | with_reducible apply act_jump_mem | with_reducible apply act_block_mem | with_reducible refine mem_snd (by with_reducible assumption) ?_ | with_reducible refine mem_fst (by with_reducible assumption) ?_ | with_reducible refine mem_some (by with_reducible assumption) ?_ | with_reducible apply foldl_mem | split

/-! Control. -/

theorem execPkNop_mem {mm : Mem × Mem × SMem} (x : Fin 512) (i : Pk) (s : State) (hmm : s.Mems mm) : OutMem mm (execPkNop x i s) := by
  unfold execPkNop
  try dsimp only
  repeat' first | with_reducible assumption | with_reducible intro _ | with_reducible apply State.pekenReg_mem | with_reducible apply mem_ite | (fail_if_no_progress with_reducible apply mem_mk) | with_reducible apply each_mem | with_reducible apply next_mem

theorem execPkBr_mem {mm : Mem × Mem × SMem} (x : Fin 512) (i : Pk) (s : State) (hmm : s.Mems mm) : OutMem mm (execPkBr x i s) := by
  unfold execPkBr
  try dsimp only
  repeat' first | with_reducible assumption | with_reducible intro _ | with_reducible apply State.peken_mem | with_reducible apply mem_ite | (fail_if_no_progress with_reducible apply mem_mk) | with_reducible apply each_mem | with_reducible apply next_mem | with_reducible apply act_hold_mem | with_reducible apply act_fault_mem | with_reducible apply act_poison_mem | with_reducible refine act_of_eq_mem (by with_reducible assumption) ?_ | with_reducible refine act_of_next_mem (by with_reducible assumption) ?_ | with_reducible apply act_next_mem | with_reducible apply act_jump_mem

theorem execPkBrc_mem {mm : Mem × Mem × SMem} (x : Fin 512) (i : Pk) (s : State) (hmm : s.Mems mm) : OutMem mm (execPkBrc x i s) := by
  unfold execPkBrc
  try dsimp only
  repeat' first | with_reducible assumption | with_reducible intro _ | with_reducible apply State.peken_mem | with_reducible apply mem_ite | (fail_if_no_progress with_reducible apply mem_mk) | with_reducible apply each_mem | with_reducible apply next_mem | with_reducible apply act_hold_mem | with_reducible apply act_fault_mem | with_reducible apply act_poison_mem | with_reducible refine act_of_eq_mem (by with_reducible assumption) ?_ | with_reducible refine act_of_next_mem (by with_reducible assumption) ?_ | with_reducible apply act_next_mem | with_reducible apply act_jump_mem | with_reducible apply act_block_mem | with_reducible refine mem_snd (by with_reducible assumption) ?_ | with_reducible refine mem_fst (by with_reducible assumption) ?_ | with_reducible refine mem_some (by with_reducible assumption) ?_ | with_reducible apply foldl_mem | split

theorem execPkCall_mem {mm : Mem × Mem × SMem} (x : Fin 512) (i : Pk) (s : State) (hmm : s.Mems mm) : OutMem mm (execPkCall x i s) := by
  unfold execPkCall
  try dsimp only
  repeat' first | with_reducible assumption | with_reducible intro _ | with_reducible apply State.peken_mem | with_reducible apply State.setCore_mem | with_reducible apply mem_ite | (fail_if_no_progress with_reducible apply mem_mk) | with_reducible apply each_mem | with_reducible apply next_mem | with_reducible apply act_hold_mem | with_reducible apply act_fault_mem | with_reducible apply act_poison_mem | with_reducible refine act_of_eq_mem (by with_reducible assumption) ?_ | with_reducible refine act_of_next_mem (by with_reducible assumption) ?_ | with_reducible apply act_next_mem | with_reducible apply act_jump_mem

theorem execPkJr_mem {mm : Mem × Mem × SMem} (x : Fin 512) (i : Pk) (s : State) (hmm : s.Mems mm) : OutMem mm (execPkJr x i s) := by
  unfold execPkJr
  try dsimp only
  repeat' first | with_reducible assumption | with_reducible intro _ | with_reducible apply State.peken_mem | with_reducible apply mem_ite | (fail_if_no_progress with_reducible apply mem_mk) | with_reducible apply each_mem | with_reducible apply next_mem | with_reducible apply act_hold_mem | with_reducible apply act_fault_mem | with_reducible apply act_poison_mem | with_reducible refine act_of_eq_mem (by with_reducible assumption) ?_ | with_reducible refine act_of_next_mem (by with_reducible assumption) ?_ | with_reducible apply act_next_mem | with_reducible apply act_jump_mem

theorem maskFault_mem {mm : Mem × Mem × SMem}  : ActMem mm (maskFault ) := by
  unfold maskFault
  try dsimp only
  repeat' first | with_reducible assumption | with_reducible intro _ | with_reducible apply mem_ite | (fail_if_no_progress with_reducible apply mem_mk) | with_reducible apply each_mem | with_reducible apply next_mem | with_reducible apply act_hold_mem | with_reducible apply act_fault_mem

theorem State.pushMask_mem {mm : Mem × Mem × SMem} (s : State) (x : Nat) (c : Core) (e : MaskEntry) (active : Dword) (hmm : s.Mems mm) : ActMem mm (State.pushMask s x c e active) := by
  unfold State.pushMask
  try dsimp only
  repeat' first | with_reducible assumption | with_reducible intro _ | with_reducible apply State.setCore_mem | with_reducible apply maskFault_mem | with_reducible apply mem_ite | (fail_if_no_progress with_reducible apply mem_mk) | with_reducible apply each_mem | with_reducible apply next_mem | with_reducible apply act_hold_mem | with_reducible apply act_fault_mem | with_reducible apply act_poison_mem | with_reducible refine act_of_eq_mem (by with_reducible assumption) ?_ | with_reducible refine act_of_next_mem (by with_reducible assumption) ?_ | with_reducible apply act_next_mem | with_reducible apply act_jump_mem | with_reducible apply act_block_mem | with_reducible refine mem_snd (by with_reducible assumption) ?_ | with_reducible refine mem_fst (by with_reducible assumption) ?_ | with_reducible refine mem_some (by with_reducible assumption) ?_ | with_reducible apply foldl_mem | split

theorem execPkIf_mem {mm : Mem × Mem × SMem} (x : Fin 512) (i : Pk) (s : State) (hmm : s.Mems mm) : OutMem mm (execPkIf x i s) := by
  unfold execPkIf
  try dsimp only
  repeat' first | with_reducible assumption | with_reducible intro _ | with_reducible apply State.peken_mem | with_reducible apply State.pushMask_mem | with_reducible apply mem_ite | (fail_if_no_progress with_reducible apply mem_mk) | with_reducible apply each_mem | with_reducible apply next_mem

theorem execPkElse_mem {mm : Mem × Mem × SMem} (x : Fin 512) (i : Pk) (s : State) (hmm : s.Mems mm) : OutMem mm (execPkElse x i s) := by
  unfold execPkElse
  try dsimp only
  repeat' first | with_reducible assumption | with_reducible intro _ | with_reducible apply State.setCore_mem | with_reducible apply State.peken_mem | with_reducible apply maskFault_mem | with_reducible apply mem_ite | (fail_if_no_progress with_reducible apply mem_mk) | with_reducible apply each_mem | with_reducible apply next_mem | with_reducible apply act_hold_mem | with_reducible apply act_fault_mem | with_reducible apply act_poison_mem | with_reducible refine act_of_eq_mem (by with_reducible assumption) ?_ | with_reducible refine act_of_next_mem (by with_reducible assumption) ?_ | with_reducible apply act_next_mem | with_reducible apply act_jump_mem | with_reducible apply act_block_mem | with_reducible refine mem_snd (by with_reducible assumption) ?_ | with_reducible refine mem_fst (by with_reducible assumption) ?_ | with_reducible refine mem_some (by with_reducible assumption) ?_ | with_reducible apply foldl_mem | split

theorem execPkEndif_mem {mm : Mem × Mem × SMem} (x : Fin 512) (i : Pk) (s : State) (hmm : s.Mems mm) : OutMem mm (execPkEndif x i s) := by
  unfold execPkEndif
  try dsimp only
  repeat' first | with_reducible assumption | with_reducible intro _ | with_reducible apply State.setCore_mem | with_reducible apply State.peken_mem | with_reducible apply maskFault_mem | with_reducible apply mem_ite | (fail_if_no_progress with_reducible apply mem_mk) | with_reducible apply each_mem | with_reducible apply next_mem | with_reducible apply act_hold_mem | with_reducible apply act_fault_mem | with_reducible apply act_poison_mem | with_reducible refine act_of_eq_mem (by with_reducible assumption) ?_ | with_reducible refine act_of_next_mem (by with_reducible assumption) ?_ | with_reducible apply act_next_mem | with_reducible apply act_jump_mem | with_reducible apply act_block_mem | with_reducible refine mem_snd (by with_reducible assumption) ?_ | with_reducible refine mem_fst (by with_reducible assumption) ?_ | with_reducible refine mem_some (by with_reducible assumption) ?_ | with_reducible apply foldl_mem | split

theorem execPkLoop_mem {mm : Mem × Mem × SMem} (x : Fin 512) (i : Pk) (s : State) (hmm : s.Mems mm) : OutMem mm (execPkLoop x i s) := by
  unfold execPkLoop
  try dsimp only
  repeat' first | with_reducible assumption | with_reducible intro _ | with_reducible apply State.peken_mem | with_reducible apply State.pushMask_mem | with_reducible apply mem_ite | (fail_if_no_progress with_reducible apply mem_mk) | with_reducible apply each_mem | with_reducible apply next_mem

theorem execPkBrk_mem {mm : Mem × Mem × SMem} (x : Fin 512) (i : Pk) (s : State) (hmm : s.Mems mm) : OutMem mm (execPkBrk x i s) := by
  unfold execPkBrk
  try dsimp only
  repeat' first | with_reducible assumption | with_reducible intro _ | with_reducible apply State.setCore_mem | with_reducible apply State.peken_mem | with_reducible apply maskFault_mem | with_reducible apply mem_ite | (fail_if_no_progress with_reducible apply mem_mk) | with_reducible apply each_mem | with_reducible apply next_mem | with_reducible apply act_hold_mem | with_reducible apply act_fault_mem | with_reducible apply act_poison_mem | with_reducible refine act_of_eq_mem (by with_reducible assumption) ?_ | with_reducible refine act_of_next_mem (by with_reducible assumption) ?_ | with_reducible apply act_next_mem | with_reducible apply act_jump_mem | with_reducible apply act_block_mem | with_reducible refine mem_snd (by with_reducible assumption) ?_ | with_reducible refine mem_fst (by with_reducible assumption) ?_ | with_reducible refine mem_some (by with_reducible assumption) ?_ | with_reducible apply foldl_mem | split

theorem execPkEndloop_mem {mm : Mem × Mem × SMem} (x : Fin 512) (i : Pk) (s : State) (hmm : s.Mems mm) : OutMem mm (execPkEndloop x i s) := by
  unfold execPkEndloop
  try dsimp only
  repeat' first | with_reducible assumption | with_reducible intro _ | with_reducible apply State.setCore_mem | with_reducible apply State.peken_mem | with_reducible apply maskFault_mem | with_reducible apply mem_ite | (fail_if_no_progress with_reducible apply mem_mk) | with_reducible apply each_mem | with_reducible apply next_mem | with_reducible apply act_hold_mem | with_reducible apply act_fault_mem | with_reducible apply act_poison_mem | with_reducible refine act_of_eq_mem (by with_reducible assumption) ?_ | with_reducible refine act_of_next_mem (by with_reducible assumption) ?_ | with_reducible apply act_next_mem | with_reducible apply act_jump_mem | with_reducible apply act_block_mem | with_reducible refine mem_snd (by with_reducible assumption) ?_ | with_reducible refine mem_fst (by with_reducible assumption) ?_ | with_reducible refine mem_some (by with_reducible assumption) ?_ | with_reducible apply foldl_mem | split

theorem execPkBrnone_mem {mm : Mem × Mem × SMem} (x : Fin 512) (i : Pk) (s : State) (hmm : s.Mems mm) : OutMem mm (execPkBrnone x i s) := by
  unfold execPkBrnone
  try dsimp only
  repeat' first | with_reducible assumption | with_reducible intro _ | with_reducible apply State.peken_mem | with_reducible apply mem_ite | (fail_if_no_progress with_reducible apply mem_mk) | with_reducible apply each_mem | with_reducible apply next_mem | with_reducible apply act_hold_mem | with_reducible apply act_fault_mem | with_reducible apply act_poison_mem | with_reducible refine act_of_eq_mem (by with_reducible assumption) ?_ | with_reducible refine act_of_next_mem (by with_reducible assumption) ?_ | with_reducible apply act_next_mem | with_reducible apply act_jump_mem | with_reducible apply act_block_mem | with_reducible refine mem_snd (by with_reducible assumption) ?_ | with_reducible refine mem_fst (by with_reducible assumption) ?_ | with_reducible refine mem_some (by with_reducible assumption) ?_ | with_reducible apply foldl_mem | split

theorem execPkTrap_mem {mm : Mem × Mem × SMem} (x : Fin 512) (i : Pk) (s : State) (hmm : s.Mems mm) : OutMem mm (execPkTrap x i s) := by
  unfold execPkTrap
  try dsimp only
  repeat' first | with_reducible assumption | with_reducible intro _ | with_reducible apply State.peken_mem | with_reducible apply mem_ite | (fail_if_no_progress with_reducible apply mem_mk) | with_reducible apply each_mem | with_reducible apply next_mem | with_reducible apply act_hold_mem | with_reducible apply act_fault_mem

theorem execPkWait_mem {mm : Mem × Mem × SMem} (x : Fin 512) (i : Pk) (s : State) (hmm : s.Mems mm) : OutMem mm (execPkWait x i s) := by
  unfold execPkWait
  try dsimp only
  repeat' first | with_reducible assumption | with_reducible intro _ | with_reducible apply State.peken_mem | with_reducible apply mem_ite | (fail_if_no_progress with_reducible apply mem_mk) | with_reducible apply each_mem | with_reducible apply next_mem | with_reducible apply act_hold_mem | with_reducible apply act_fault_mem | with_reducible apply act_poison_mem | with_reducible refine act_of_eq_mem (by with_reducible assumption) ?_ | with_reducible refine act_of_next_mem (by with_reducible assumption) ?_ | with_reducible apply act_next_mem | with_reducible apply act_jump_mem | with_reducible apply act_block_mem | with_reducible refine mem_snd (by with_reducible assumption) ?_ | with_reducible refine mem_fst (by with_reducible assumption) ?_ | with_reducible refine mem_some (by with_reducible assumption) ?_ | with_reducible apply foldl_mem | split

theorem execPkWaita_mem {mm : Mem × Mem × SMem} (x : Fin 512) (i : Pk) (s : State) (hmm : s.Mems mm) : OutMem mm (execPkWaita x i s) := by
  unfold execPkWaita
  try dsimp only
  repeat' first | with_reducible assumption | with_reducible intro _ | with_reducible apply State.peken_mem | with_reducible apply mem_ite | (fail_if_no_progress with_reducible apply mem_mk) | with_reducible apply each_mem | with_reducible apply next_mem | with_reducible apply act_hold_mem | with_reducible apply act_fault_mem | with_reducible apply act_poison_mem | with_reducible refine act_of_eq_mem (by with_reducible assumption) ?_ | with_reducible refine act_of_next_mem (by with_reducible assumption) ?_ | with_reducible apply act_next_mem | with_reducible apply act_jump_mem | with_reducible apply act_block_mem | with_reducible refine mem_snd (by with_reducible assumption) ?_ | with_reducible refine mem_fst (by with_reducible assumption) ?_ | with_reducible refine mem_some (by with_reducible assumption) ?_ | with_reducible apply foldl_mem | split

theorem State.barrierRelease_mem {mm : Mem × Mem × SMem} (s : State) (j : Job) (hmm : s.Mems mm) : (State.barrierRelease s j).Mems mm := by
  unfold State.barrierRelease
  try dsimp only
  repeat' first | with_reducible assumption | with_reducible intro _ | with_reducible apply State.each_mem | with_reducible apply State.setCore_mem | with_reducible apply mem_ite | (fail_if_no_progress with_reducible apply mem_mk) | with_reducible apply each_mem | with_reducible apply next_mem | with_reducible refine mem_snd (by with_reducible assumption) ?_ | with_reducible refine mem_fst (by with_reducible assumption) ?_ | with_reducible refine mem_some (by with_reducible assumption) ?_ | with_reducible apply foldl_mem | split

theorem execPkBar_mem {mm : Mem × Mem × SMem} (x : Fin 512) (i : Pk) (s : State) (hmm : s.Mems mm) : OutMem mm (execPkBar x i s) := by
  unfold execPkBar
  try dsimp only
  repeat' first | with_reducible assumption | with_reducible intro _ | with_reducible apply State.setCore_mem | with_reducible apply State.peken_mem | with_reducible apply State.barrierRelease_mem | with_reducible apply mem_ite | (fail_if_no_progress with_reducible apply mem_mk) | with_reducible apply each_mem | with_reducible apply next_mem | with_reducible apply act_hold_mem | with_reducible apply act_fault_mem | with_reducible apply act_poison_mem | with_reducible refine act_of_eq_mem (by with_reducible assumption) ?_ | with_reducible refine act_of_next_mem (by with_reducible assumption) ?_ | with_reducible apply act_next_mem | with_reducible apply act_jump_mem | with_reducible apply act_block_mem | with_reducible refine mem_snd (by with_reducible assumption) ?_ | with_reducible refine mem_fst (by with_reducible assumption) ?_ | with_reducible refine mem_some (by with_reducible assumption) ?_ | with_reducible apply foldl_mem | split

theorem execPkMfence_mem {mm : Mem × Mem × SMem} (x : Fin 512) (i : Pk) (s : State) (hmm : s.Mems mm) : OutMem mm (execPkMfence x i s) := by
  unfold execPkMfence
  try dsimp only
  repeat' first | with_reducible assumption | with_reducible intro _ | with_reducible apply State.pekenReg_mem | with_reducible apply mem_ite | (fail_if_no_progress with_reducible apply mem_mk) | with_reducible apply each_mem | with_reducible apply next_mem

theorem execPkToks_mem {mm : Mem × Mem × SMem} (x : Fin 512) (i : Pk) (s : State) (hmm : s.Mems mm) : OutMem mm (execPkToks x i s) := by
  unfold execPkToks
  try dsimp only
  repeat' first | with_reducible assumption | with_reducible intro _ | with_reducible apply State.pekenReg_mem | with_reducible apply mem_ite | (fail_if_no_progress with_reducible apply mem_mk) | with_reducible apply each_mem | with_reducible apply next_mem

theorem execPkRezq_mem {mm : Mem × Mem × SMem} (x : Fin 512) (i : Pk) (s : State) (hmm : s.Mems mm) : OutMem mm (execPkRezq x i s) := by
  unfold execPkRezq
  try dsimp only
  repeat' first | with_reducible assumption | with_reducible intro _ | with_reducible apply State.setCore_mem | with_reducible apply State.peken_mem | with_reducible apply mem_ite | (fail_if_no_progress with_reducible apply mem_mk) | with_reducible apply each_mem | with_reducible apply next_mem | with_reducible apply act_hold_mem | with_reducible apply act_fault_mem | with_reducible apply act_poison_mem | with_reducible refine act_of_eq_mem (by with_reducible assumption) ?_ | with_reducible refine act_of_next_mem (by with_reducible assumption) ?_ | with_reducible apply act_next_mem

theorem execPkRezinv_mem {mm : Mem × Mem × SMem} (x : Fin 512) (i : Pk) (s : State) (hmm : s.Mems mm) : OutMem mm (execPkRezinv x i s) := by
  unfold execPkRezinv
  try dsimp only
  repeat' first | with_reducible assumption | with_reducible intro _ | with_reducible apply State.setFlag_mem | with_reducible apply State.rezDrop_mem | with_reducible apply State.peken_mem | with_reducible apply mem_ite | (fail_if_no_progress with_reducible apply mem_mk) | with_reducible apply each_mem | with_reducible apply next_mem | with_reducible apply act_hold_mem | with_reducible apply act_fault_mem | with_reducible apply act_poison_mem | with_reducible refine act_of_eq_mem (by with_reducible assumption) ?_ | with_reducible refine act_of_next_mem (by with_reducible assumption) ?_ | with_reducible apply act_next_mem | with_reducible apply act_jump_mem | with_reducible apply act_block_mem | with_reducible refine mem_snd (by with_reducible assumption) ?_ | with_reducible refine mem_fst (by with_reducible assumption) ?_ | with_reducible refine mem_some (by with_reducible assumption) ?_ | with_reducible apply foldl_mem | split

theorem execPkJend_mem {mm : Mem × Mem × SMem} (x : Fin 512) (i : Pk) (s : State) (hmm : s.Mems mm) : OutMem mm (execPkJend x i s) := by
  unfold execPkJend
  try dsimp only
  repeat' first | with_reducible assumption | with_reducible intro _ | with_reducible apply State.setCore_mem | with_reducible apply State.peken_mem | with_reducible apply State.barrierRelease_mem | with_reducible apply mem_ite | (fail_if_no_progress with_reducible apply mem_mk) | with_reducible apply each_mem | with_reducible apply next_mem | with_reducible apply act_hold_mem | with_reducible apply act_fault_mem | with_reducible apply act_poison_mem | with_reducible refine act_of_eq_mem (by with_reducible assumption) ?_ | with_reducible refine act_of_next_mem (by with_reducible assumption) ?_ | with_reducible apply act_next_mem | with_reducible apply act_jump_mem | with_reducible apply act_block_mem | with_reducible refine mem_snd (by with_reducible assumption) ?_ | with_reducible refine mem_fst (by with_reducible assumption) ?_ | with_reducible refine mem_some (by with_reducible assumption) ?_ | with_reducible apply foldl_mem | split

theorem execPkIdle_mem {mm : Mem × Mem × SMem} (x : Fin 512) (i : Pk) (s : State) (hmm : s.Mems mm) : OutMem mm (execPkIdle x i s) := by
  unfold execPkIdle
  try dsimp only
  repeat' first | with_reducible assumption | with_reducible intro _ | with_reducible apply State.setFld_mem | with_reducible apply State.peken_mem | with_reducible apply mem_ite | (fail_if_no_progress with_reducible apply mem_mk) | with_reducible apply each_mem | with_reducible apply next_mem | with_reducible apply act_hold_mem | with_reducible apply act_fault_mem | with_reducible apply act_poison_mem | with_reducible refine act_of_eq_mem (by with_reducible assumption) ?_ | with_reducible refine act_of_next_mem (by with_reducible assumption) ?_ | with_reducible apply act_next_mem | with_reducible apply act_jump_mem | with_reducible apply act_block_mem | with_reducible refine mem_snd (by with_reducible assumption) ?_ | with_reducible refine mem_fst (by with_reducible assumption) ?_ | with_reducible refine mem_some (by with_reducible assumption) ?_ | with_reducible apply foldl_mem | split

/-! Engines. -/

theorem State.issue_mem {mm : Mem × Mem × SMem} (s : State) (x : Nat) (c : Core) (i : Pk) (queued depth : Nat) (put : Core → Core) (hmm : s.Mems mm) : ActMem mm (State.issue s x c i queued depth put) := by
  unfold State.issue
  try dsimp only
  repeat' first | with_reducible assumption | with_reducible intro _ | with_reducible apply State.setCore_mem | with_reducible apply mem_ite | (fail_if_no_progress with_reducible apply mem_mk) | with_reducible apply each_mem | with_reducible apply next_mem | with_reducible apply act_hold_mem | with_reducible apply act_fault_mem | with_reducible apply act_poison_mem | with_reducible refine act_of_eq_mem (by with_reducible assumption) ?_ | with_reducible refine act_of_next_mem (by with_reducible assumption) ?_ | with_reducible apply act_next_mem | with_reducible apply act_jump_mem | with_reducible apply act_block_mem | with_reducible refine mem_snd (by with_reducible assumption) ?_ | with_reducible refine mem_fst (by with_reducible assumption) ?_ | with_reducible refine mem_some (by with_reducible assumption) ?_ | with_reducible apply foldl_mem | split

theorem State.tokenFall_mem {mm : Mem × Mem × SMem} (s : State) (x t : Nat) (hmm : s.Mems mm) : (State.tokenFall s x t).Mems mm := by
  unfold State.tokenFall
  try dsimp only
  repeat' first | with_reducible assumption | with_reducible intro _ | with_reducible apply State.setCore_mem

theorem engineDesc_mem {mm : Mem × Mem × SMem}  : ActMem mm (engineDesc ) := by
  unfold engineDesc
  try dsimp only
  repeat' first | with_reducible assumption | with_reducible intro _ | with_reducible apply mem_ite | (fail_if_no_progress with_reducible apply mem_mk) | with_reducible apply each_mem | with_reducible apply next_mem | with_reducible apply act_hold_mem | with_reducible apply act_fault_mem

theorem State.mxGuard_mem {mm : Mem × Mem × SMem} (s : State) (x : Nat) (ops : List (Nat × Nat × Bool)) (ok : Act) (hmm : ActMem mm ok) : ActMem mm (State.mxGuard s x ops ok) := by
  unfold State.mxGuard
  try dsimp only
  repeat' first | with_reducible assumption | with_reducible intro _ | with_reducible apply mem_ite | (fail_if_no_progress with_reducible apply mem_mk) | with_reducible apply each_mem | with_reducible apply next_mem | with_reducible apply act_hold_mem | with_reducible apply act_fault_mem | with_reducible apply act_poison_mem | with_reducible refine act_of_eq_mem (by with_reducible assumption) ?_ | with_reducible refine act_of_next_mem (by with_reducible assumption) ?_ | with_reducible apply act_next_mem | with_reducible apply act_jump_mem | with_reducible apply act_block_mem | with_reducible refine mem_snd (by with_reducible assumption) ?_ | with_reducible refine mem_fst (by with_reducible assumption) ?_ | with_reducible refine mem_some (by with_reducible assumption) ?_ | with_reducible apply foldl_mem | split

theorem execPkMma_mem {mm : Mem × Mem × SMem} (x : Fin 512) (i : Pk) (s : State) (hmm : s.Mems mm) : OutMem mm (execPkMma x i s) := by
  unfold execPkMma
  try dsimp only
  repeat' first | with_reducible assumption | with_reducible intro _ | with_reducible apply State.peken_mem | with_reducible apply State.issue_mem | with_reducible apply engineDesc_mem | with_reducible apply State.mxGuard_mem | with_reducible apply mem_ite | (fail_if_no_progress with_reducible apply mem_mk) | with_reducible apply each_mem | with_reducible apply next_mem | with_reducible apply act_hold_mem | with_reducible apply act_fault_mem | with_reducible apply act_poison_mem | with_reducible refine act_of_eq_mem (by with_reducible assumption) ?_ | with_reducible refine act_of_next_mem (by with_reducible assumption) ?_ | with_reducible apply act_next_mem | with_reducible apply act_jump_mem | with_reducible apply act_block_mem | with_reducible refine mem_snd (by with_reducible assumption) ?_ | with_reducible refine mem_fst (by with_reducible assumption) ?_ | with_reducible refine mem_some (by with_reducible assumption) ?_ | with_reducible apply foldl_mem | split

theorem execPkMscl_mem {mm : Mem × Mem × SMem} (x : Fin 512) (i : Pk) (s : State) (hmm : s.Mems mm) : OutMem mm (execPkMscl x i s) := by
  unfold execPkMscl
  try dsimp only
  repeat' first | with_reducible assumption | with_reducible intro _ | with_reducible apply State.peken_mem | with_reducible apply State.issue_mem | with_reducible apply mem_ite | (fail_if_no_progress with_reducible apply mem_mk) | with_reducible apply each_mem | with_reducible apply next_mem

theorem execPkMcvt_mem {mm : Mem × Mem × SMem} (x : Fin 512) (i : Pk) (s : State) (hmm : s.Mems mm) : OutMem mm (execPkMcvt x i s) := by
  unfold execPkMcvt
  try dsimp only
  repeat' first | with_reducible assumption | with_reducible intro _ | with_reducible apply State.peken_mem | with_reducible apply State.issue_mem | with_reducible apply engineDesc_mem | with_reducible apply State.mxGuard_mem | with_reducible apply mem_ite | (fail_if_no_progress with_reducible apply mem_mk) | with_reducible apply each_mem | with_reducible apply next_mem | with_reducible apply act_hold_mem | with_reducible apply act_fault_mem | with_reducible apply act_poison_mem | with_reducible refine act_of_eq_mem (by with_reducible assumption) ?_ | with_reducible refine act_of_next_mem (by with_reducible assumption) ?_ | with_reducible apply act_next_mem | with_reducible apply act_jump_mem | with_reducible apply act_block_mem | with_reducible refine mem_snd (by with_reducible assumption) ?_ | with_reducible refine mem_fst (by with_reducible assumption) ?_ | with_reducible refine mem_some (by with_reducible assumption) ?_ | with_reducible apply foldl_mem | split

/-! Movers. -/

theorem State.movIssue_mem {mm : Mem × Mem × SMem} (s : State) (x : Nat) (c : Core) (i : Pk) (o : MovOp) (hmm : s.Mems mm) : ActMem mm (State.movIssue s x c i o) := by
  unfold State.movIssue
  try dsimp only
  repeat' first | with_reducible assumption | with_reducible intro _ | with_reducible apply State.issue_mem

theorem execPkMvl_mem {mm : Mem × Mem × SMem} (x : Fin 512) (i : Pk) (s : State) (hmm : s.Mems mm) : OutMem mm (execPkMvl x i s) := by
  unfold execPkMvl
  try dsimp only
  repeat' first | with_reducible assumption | with_reducible intro _ | with_reducible apply State.peken_mem | with_reducible apply engineDesc_mem | with_reducible apply State.movIssue_mem | with_reducible apply mem_ite | (fail_if_no_progress with_reducible apply mem_mk) | with_reducible apply each_mem | with_reducible apply next_mem | with_reducible apply act_hold_mem | with_reducible apply act_fault_mem | with_reducible apply act_poison_mem | with_reducible refine act_of_eq_mem (by with_reducible assumption) ?_ | with_reducible refine act_of_next_mem (by with_reducible assumption) ?_ | with_reducible apply act_next_mem | with_reducible apply act_jump_mem | with_reducible apply act_block_mem | with_reducible refine mem_snd (by with_reducible assumption) ?_ | with_reducible refine mem_fst (by with_reducible assumption) ?_ | with_reducible refine mem_some (by with_reducible assumption) ?_ | with_reducible apply foldl_mem | split

theorem State.movDesc_mem {mm : Mem × Mem × SMem} (s : State) (x : Nat) (i : Pk) (kind : Nat) (ok : List Byte → Bool) (hmm : s.Mems mm) : (State.movDesc s x i kind ok).Mems mm := by
  unfold State.movDesc
  try dsimp only
  repeat' first | with_reducible assumption | with_reducible intro _ | with_reducible apply State.movIssue_mem | with_reducible apply engineDesc_mem | with_reducible apply State.peken_mem | with_reducible apply State.corePoison_mem | with_reducible apply mem_ite | (fail_if_no_progress with_reducible apply mem_mk) | with_reducible apply each_mem | with_reducible apply act_hold_mem | with_reducible apply act_fault_mem | with_reducible apply act_poison_mem | with_reducible refine act_of_eq_mem (by with_reducible assumption) ?_ | with_reducible refine act_of_next_mem (by with_reducible assumption) ?_ | with_reducible apply act_next_mem | with_reducible apply act_jump_mem | with_reducible apply act_block_mem | with_reducible refine mem_snd (by with_reducible assumption) ?_ | with_reducible refine mem_fst (by with_reducible assumption) ?_ | with_reducible refine mem_some (by with_reducible assumption) ?_ | with_reducible apply foldl_mem | split

theorem execPkMvs_mem {mm : Mem × Mem × SMem} (x : Fin 512) (i : Pk) (s : State) (hmm : s.Mems mm) : OutMem mm (execPkMvs x i s) := by
  unfold execPkMvs
  try dsimp only
  repeat' first | with_reducible assumption | with_reducible intro _ | with_reducible apply State.movDesc_mem | with_reducible apply mem_ite | (fail_if_no_progress with_reducible apply mem_mk) | with_reducible apply each_mem | with_reducible apply next_mem

theorem execPkMvg_mem {mm : Mem × Mem × SMem} (x : Fin 512) (i : Pk) (s : State) (hmm : s.Mems mm) : OutMem mm (execPkMvg x i s) := by
  unfold execPkMvg
  try dsimp only
  repeat' first | with_reducible assumption | with_reducible intro _ | with_reducible apply State.movDesc_mem | with_reducible apply mem_ite | (fail_if_no_progress with_reducible apply mem_mk) | with_reducible apply each_mem | with_reducible apply next_mem

theorem execPkMvt_mem {mm : Mem × Mem × SMem} (x : Fin 512) (i : Pk) (s : State) (hmm : s.Mems mm) : OutMem mm (execPkMvt x i s) := by
  unfold execPkMvt
  try dsimp only
  repeat' first | with_reducible assumption | with_reducible intro _ | with_reducible apply State.movDesc_mem | with_reducible apply mem_ite | (fail_if_no_progress with_reducible apply mem_mk) | with_reducible apply each_mem | with_reducible apply next_mem

theorem execPkMva_mem {mm : Mem × Mem × SMem} (x : Fin 512) (i : Pk) (s : State) (hmm : s.Mems mm) : OutMem mm (execPkMva x i s) := by
  unfold execPkMva
  try dsimp only
  repeat' first | with_reducible assumption | with_reducible intro _ | with_reducible apply State.movDesc_mem | with_reducible apply mem_ite | (fail_if_no_progress with_reducible apply mem_mk) | with_reducible apply each_mem | with_reducible apply next_mem

theorem execPkMcas_mem {mm : Mem × Mem × SMem} (x : Fin 512) (i : Pk) (s : State) (hmm : s.Mems mm) : OutMem mm (execPkMcas x i s) := by
  unfold execPkMcas
  try dsimp only
  repeat' first | with_reducible assumption | with_reducible intro _ | with_reducible apply State.peken_mem | with_reducible apply State.movIssue_mem | with_reducible apply mem_ite | (fail_if_no_progress with_reducible apply mem_mk) | with_reducible apply each_mem | with_reducible apply next_mem

theorem execMoverOpStart_mem {mm : Mem × Mem × SMem} (x : Fin 512) (s : State) (hmm : s.Mems mm) : OutMem mm (execMoverOpStart x s) := by
  unfold execMoverOpStart
  try dsimp only
  repeat' first | with_reducible assumption | with_reducible intro _ | with_reducible apply State.setCore_mem | with_reducible apply mem_ite | (fail_if_no_progress with_reducible apply mem_mk) | with_reducible apply each_mem | with_reducible apply next_mem | with_reducible refine mem_snd (by with_reducible assumption) ?_ | with_reducible refine mem_fst (by with_reducible assumption) ?_ | with_reducible refine mem_some (by with_reducible assumption) ?_ | with_reducible apply foldl_mem | split

/-! Kpm. -/

theorem State.setPoolState_mem {mm : Mem × Mem × SMem} (s : State) (p st : Nat) (hmm : s.Mems mm) : (State.setPoolState s p st).Mems mm := by
  unfold State.setPoolState
  try dsimp only
  repeat' first | with_reducible assumption | with_reducible intro _ | with_reducible apply State.setFld_mem | with_reducible apply State.setBit_mem | with_reducible apply State.event_mem | with_reducible apply mem_ite

theorem State.setKvQuar_mem {mm : Mem × Mem × SMem} (s : State) (p : Nat) (l : List Nat) (hmm : s.Mems mm) : (State.setKvQuar s p l).Mems mm := by
  unfold State.setKvQuar
  try dsimp only
  repeat' first | with_reducible assumption | with_reducible intro _ | with_reducible apply State.setFld_mem | with_reducible apply mem_ite | (fail_if_no_progress with_reducible apply mem_mk)

theorem State.setOwned_mem {mm : Mem × Mem × SMem} (s : State) (p n v : Nat) (hmm : s.Mems mm) : (State.setOwned s p n v).Mems mm := by
  unfold State.setOwned
  try dsimp only
  repeat' first | with_reducible assumption | with_reducible intro _ | with_reducible apply State.setFld_mem | with_reducible apply State.event_mem | with_reducible apply mem_ite | (fail_if_no_progress with_reducible apply mem_mk)

theorem State.setLab_mem {mm : Mem × Mem × SMem} (s : State) (cl : Nat) (l : List LabEnt) (hmm : s.Mems mm) : (State.setLab s cl l).Mems mm := by
  unfold State.setLab
  try dsimp only
  repeat' first | with_reducible assumption | with_reducible intro _ | with_reducible apply State.setFld_mem | with_reducible apply mem_ite | (fail_if_no_progress with_reducible apply mem_mk)

theorem State.labRemove_mem {mm : Mem × Mem × SMem} (s : State) (cl : Nat) (p : LabEnt → Bool) (hmm : s.Mems mm) : (State.labRemove s cl p).Mems mm := by
  unfold State.labRemove
  try dsimp only
  repeat' first | with_reducible assumption | with_reducible intro _ | with_reducible apply State.addFld_mem | with_reducible apply State.setLab_mem

theorem State.labRemovePart_mem {mm : Mem × Mem × SMem} (s : State) (p : Nat) (f : LabEnt → Bool) (hmm : s.Mems mm) : (State.labRemovePart s p f).Mems mm := by
  unfold State.labRemovePart
  try dsimp only
  repeat' first | with_reducible assumption | with_reducible intro _ | with_reducible apply State.each_mem | with_reducible apply State.labRemove_mem | with_reducible apply mem_ite | (fail_if_no_progress with_reducible apply mem_mk) | with_reducible apply each_mem

theorem State.poolEmpty_mem {mm : Mem × Mem × SMem} (s : State) (p : Nat) (hmm : s.Mems mm) : (State.poolEmpty s p).Mems mm := by
  unfold State.poolEmpty
  try dsimp only
  repeat' first | with_reducible assumption | with_reducible intro _ | with_reducible apply State.setFld_mem | with_reducible apply State.each_mem | with_reducible apply State.setKvQuar_mem | with_reducible apply State.setOwned_mem | with_reducible apply mem_ite | (fail_if_no_progress with_reducible apply mem_mk) | with_reducible apply each_mem

theorem State.poolStart_mem {mm : Mem × Mem × SMem} (s : State) (p : Nat) (hmm : s.Mems mm) : (State.poolStart s p).Mems mm := by
  unfold State.poolStart
  try dsimp only
  repeat' first | with_reducible assumption | with_reducible intro _ | with_reducible apply State.setPoolState_mem | with_reducible apply State.poolEmpty_mem

theorem State.labFlushPart_mem {mm : Mem × Mem × SMem} (s : State) (p : Nat) (hmm : s.Mems mm) : (State.labFlushPart s p).Mems mm := by
  unfold State.labFlushPart
  try dsimp only
  repeat' first | with_reducible assumption | with_reducible intro _ | with_reducible apply State.labRemovePart_mem

theorem State.poolCfgWrite_mem {mm : Mem × Mem × SMem} (s : State) (rq : Requester) (p : Nat) (v : Word) (hmm : s.Mems mm) : (State.poolCfgWrite s rq p v).Mems mm := by
  unfold State.poolCfgWrite
  try dsimp only
  repeat' first | with_reducible assumption | with_reducible intro _ | with_reducible apply State.setFld_mem | with_reducible apply State.setFlag_mem | with_reducible apply State.countErr_mem | with_reducible apply State.setPoolState_mem | with_reducible apply State.poolEmpty_mem | with_reducible apply State.poolStart_mem | with_reducible apply State.labFlushPart_mem | with_reducible apply mem_ite

/-! Kv. -/

theorem State.atuIssue_mem {mm : Mem × Mem × SMem} (s : State) (x : Nat) (i : Pk) (kind len : Nat) (ok : List Byte → Nat → Bool) (hmm : s.Mems mm) : (State.atuIssue s x i kind len ok).Mems mm := by
  unfold State.atuIssue
  try dsimp only
  repeat' first | with_reducible assumption | with_reducible intro _ | with_reducible apply State.corePoison_mem | with_reducible apply State.peken_mem | with_reducible apply State.issue_mem | with_reducible apply engineDesc_mem | with_reducible apply mem_ite | (fail_if_no_progress with_reducible apply mem_mk) | with_reducible apply each_mem | with_reducible apply next_mem | with_reducible apply act_hold_mem | with_reducible apply act_fault_mem | with_reducible apply act_poison_mem | with_reducible refine act_of_eq_mem (by with_reducible assumption) ?_ | with_reducible refine act_of_next_mem (by with_reducible assumption) ?_ | with_reducible apply act_next_mem | with_reducible apply act_jump_mem | with_reducible apply act_block_mem | with_reducible refine mem_snd (by with_reducible assumption) ?_ | with_reducible refine mem_fst (by with_reducible assumption) ?_ | with_reducible refine mem_some (by with_reducible assumption) ?_ | with_reducible apply foldl_mem | split

theorem execPkAttn_mem {mm : Mem × Mem × SMem} (x : Fin 512) (i : Pk) (s : State) (hmm : s.Mems mm) : OutMem mm (execPkAttn x i s) := by
  unfold execPkAttn
  try dsimp only
  repeat' first | with_reducible assumption | with_reducible intro _ | with_reducible apply State.atuIssue_mem | with_reducible apply mem_ite | (fail_if_no_progress with_reducible apply mem_mk) | with_reducible apply each_mem | with_reducible apply next_mem

theorem execPkKvapp_mem {mm : Mem × Mem × SMem} (x : Fin 512) (i : Pk) (s : State) (hmm : s.Mems mm) : OutMem mm (execPkKvapp x i s) := by
  unfold execPkKvapp
  try dsimp only
  repeat' first | with_reducible assumption | with_reducible intro _ | with_reducible apply State.atuIssue_mem | with_reducible apply mem_ite | (fail_if_no_progress with_reducible apply mem_mk) | with_reducible apply each_mem | with_reducible apply next_mem

theorem execPkKvop_mem {mm : Mem × Mem × SMem} (x : Fin 512) (i : Pk) (s : State) (hmm : s.Mems mm) : OutMem mm (execPkKvop x i s) := by
  unfold execPkKvop
  try dsimp only
  repeat' first | with_reducible assumption | with_reducible intro _ | with_reducible apply State.atuIssue_mem | with_reducible apply mem_ite | (fail_if_no_progress with_reducible apply mem_mk) | with_reducible apply each_mem | with_reducible apply next_mem

theorem State.atuPop_mem {mm : Mem × Mem × SMem} (s : State) (x : Nat) (o : AtuOp) (hmm : s.Mems mm) : (State.atuPop s x o).Mems mm := by
  unfold State.atuPop
  try dsimp only
  repeat' first | with_reducible assumption | with_reducible intro _ | with_reducible apply State.setCore_mem | with_reducible apply State.tokenFall_mem

theorem execAtuCommandDone_mem {mm : Mem × Mem × SMem} (x : Fin 512) (s : State) (hmm : s.Mems mm) : OutMem mm (execAtuCommandDone x s) := by
  unfold execAtuCommandDone
  try dsimp only
  repeat' first | with_reducible assumption | with_reducible intro _ | with_reducible apply State.addFld_mem | with_reducible apply State.setFld64_mem | with_reducible apply State.tick_mem | with_reducible apply State.atuPop_mem | with_reducible apply mem_ite | (fail_if_no_progress with_reducible apply mem_mk) | with_reducible apply each_mem | with_reducible apply next_mem | with_reducible refine mem_snd (by with_reducible assumption) ?_ | with_reducible refine mem_fst (by with_reducible assumption) ?_ | with_reducible refine mem_some (by with_reducible assumption) ?_ | with_reducible apply foldl_mem | split

/-! Spares. -/

theorem State.setSparePending_mem {mm : Mem × Mem × SMem} (s : State) (y : Nat) (v : Option Nat) (hmm : s.Mems mm) : (State.setSparePending s y v).Mems mm := by
  unfold State.setSparePending
  try dsimp only
  repeat' first | with_reducible assumption | with_reducible intro _ | with_reducible apply State.setFlag_mem | with_reducible apply mem_ite | (fail_if_no_progress with_reducible apply mem_mk)

theorem State.spareWrite_mem {mm : Mem × Mem × SMem} (s : State) (rq : Requester) (x v : Nat) (hmm : s.Mems mm) : (State.spareWrite s rq x v).Mems mm := by
  unfold State.spareWrite
  try dsimp only
  repeat' first | with_reducible assumption | with_reducible intro _ | with_reducible apply State.countErr_mem | with_reducible apply State.setSparePending_mem | with_reducible apply mem_ite

/-! SliceRows. -/

theorem execSliceRefresh_mem {mm : Mem × Mem × SMem} (_x : Fin 512) (s : State) (hmm : s.Mems mm) : OutMem mm (execSliceRefresh _x s) := by
  unfold execSliceRefresh
  try dsimp only
  repeat' first | with_reducible assumption | with_reducible intro _ | with_reducible apply mem_ite | (fail_if_no_progress with_reducible apply mem_mk) | with_reducible apply each_mem | with_reducible apply next_mem

theorem execUeWindowEnd_mem {mm : Mem × Mem × SMem} (x : Fin 512) (s : State) (hmm : s.Mems mm) : OutMem mm (execUeWindowEnd x s) := by
  unfold execUeWindowEnd
  try dsimp only
  repeat' first | with_reducible assumption | with_reducible intro _ | with_reducible apply mem_ite | (fail_if_no_progress with_reducible apply mem_mk) | with_reducible apply each_mem | with_reducible apply next_mem

/-! Vector. -/

theorem State.vecI_mem {mm : Mem × Mem × SMem} (s : State) (x : Nat) (i : Pk) (op : Word → Word → Word) (hmm : s.Mems mm) : (State.vecI s x i op).Mems mm := by
  unfold State.vecI
  try dsimp only
  repeat' first | with_reducible assumption | with_reducible intro _ | with_reducible apply State.pekenReg_mem

theorem State.vecF2_mem {mm : Mem × Mem × SMem} (s : State) (x : Nat) (i : Pk) (op : Nat → Word → Word → Word × Nat) (hmm : s.Mems mm) : (State.vecF2 s x i op).Mems mm := by
  unfold State.vecF2
  try dsimp only
  repeat' first | with_reducible assumption | with_reducible intro _ | with_reducible apply State.pekenReg_mem

theorem State.vecF1_mem {mm : Mem × Mem × SMem} (s : State) (x : Nat) (i : Pk) (ms : List Nat) (op : Nat → Word → Word × Nat) (hmm : s.Mems mm) : (State.vecF1 s x i ms op).Mems mm := by
  unfold State.vecF1
  try dsimp only
  repeat' first | with_reducible assumption | with_reducible intro _ | with_reducible apply State.pekenReg_mem

theorem State.predOp_mem {mm : Mem × Mem × SMem} (s : State) (x : Nat) (i : Pk) (op : Dword → Dword → Dword) (hmm : s.Mems mm) : (State.predOp s x i op).Mems mm := by
  unfold State.predOp
  try dsimp only
  repeat' first | with_reducible assumption | with_reducible intro _ | with_reducible apply State.pekenReg_mem

theorem execPkVadd_mem {mm : Mem × Mem × SMem} (x : Fin 512) (i : Pk) (s : State) (hmm : s.Mems mm) : OutMem mm (execPkVadd x i s) := by
  unfold execPkVadd
  try dsimp only
  repeat' first | with_reducible assumption | with_reducible intro _ | with_reducible apply State.vecI_mem | with_reducible apply mem_ite | (fail_if_no_progress with_reducible apply mem_mk) | with_reducible apply each_mem | with_reducible apply next_mem

theorem execPkVsub_mem {mm : Mem × Mem × SMem} (x : Fin 512) (i : Pk) (s : State) (hmm : s.Mems mm) : OutMem mm (execPkVsub x i s) := by
  unfold execPkVsub
  try dsimp only
  repeat' first | with_reducible assumption | with_reducible intro _ | with_reducible apply State.vecI_mem | with_reducible apply mem_ite | (fail_if_no_progress with_reducible apply mem_mk) | with_reducible apply each_mem | with_reducible apply next_mem

theorem execPkVmul_mem {mm : Mem × Mem × SMem} (x : Fin 512) (i : Pk) (s : State) (hmm : s.Mems mm) : OutMem mm (execPkVmul x i s) := by
  unfold execPkVmul
  try dsimp only
  repeat' first | with_reducible assumption | with_reducible intro _ | with_reducible apply State.vecI_mem | with_reducible apply mem_ite | (fail_if_no_progress with_reducible apply mem_mk) | with_reducible apply each_mem | with_reducible apply next_mem

theorem execPkVmulhu_mem {mm : Mem × Mem × SMem} (x : Fin 512) (i : Pk) (s : State) (hmm : s.Mems mm) : OutMem mm (execPkVmulhu x i s) := by
  unfold execPkVmulhu
  try dsimp only
  repeat' first | with_reducible assumption | with_reducible intro _ | with_reducible apply State.vecI_mem | with_reducible apply mem_ite | (fail_if_no_progress with_reducible apply mem_mk) | with_reducible apply each_mem | with_reducible apply next_mem

theorem execPkVand_mem {mm : Mem × Mem × SMem} (x : Fin 512) (i : Pk) (s : State) (hmm : s.Mems mm) : OutMem mm (execPkVand x i s) := by
  unfold execPkVand
  try dsimp only
  repeat' first | with_reducible assumption | with_reducible intro _ | with_reducible apply State.vecI_mem | with_reducible apply mem_ite | (fail_if_no_progress with_reducible apply mem_mk) | with_reducible apply each_mem | with_reducible apply next_mem

theorem execPkVor_mem {mm : Mem × Mem × SMem} (x : Fin 512) (i : Pk) (s : State) (hmm : s.Mems mm) : OutMem mm (execPkVor x i s) := by
  unfold execPkVor
  try dsimp only
  repeat' first | with_reducible assumption | with_reducible intro _ | with_reducible apply State.vecI_mem | with_reducible apply mem_ite | (fail_if_no_progress with_reducible apply mem_mk) | with_reducible apply each_mem | with_reducible apply next_mem

theorem execPkVxor_mem {mm : Mem × Mem × SMem} (x : Fin 512) (i : Pk) (s : State) (hmm : s.Mems mm) : OutMem mm (execPkVxor x i s) := by
  unfold execPkVxor
  try dsimp only
  repeat' first | with_reducible assumption | with_reducible intro _ | with_reducible apply State.vecI_mem | with_reducible apply mem_ite | (fail_if_no_progress with_reducible apply mem_mk) | with_reducible apply each_mem | with_reducible apply next_mem

theorem execPkVshl_mem {mm : Mem × Mem × SMem} (x : Fin 512) (i : Pk) (s : State) (hmm : s.Mems mm) : OutMem mm (execPkVshl x i s) := by
  unfold execPkVshl
  try dsimp only
  repeat' first | with_reducible assumption | with_reducible intro _ | with_reducible apply State.vecI_mem | with_reducible apply mem_ite | (fail_if_no_progress with_reducible apply mem_mk) | with_reducible apply each_mem | with_reducible apply next_mem

theorem execPkVshr_mem {mm : Mem × Mem × SMem} (x : Fin 512) (i : Pk) (s : State) (hmm : s.Mems mm) : OutMem mm (execPkVshr x i s) := by
  unfold execPkVshr
  try dsimp only
  repeat' first | with_reducible assumption | with_reducible intro _ | with_reducible apply State.vecI_mem | with_reducible apply mem_ite | (fail_if_no_progress with_reducible apply mem_mk) | with_reducible apply each_mem | with_reducible apply next_mem

theorem execPkVsra_mem {mm : Mem × Mem × SMem} (x : Fin 512) (i : Pk) (s : State) (hmm : s.Mems mm) : OutMem mm (execPkVsra x i s) := by
  unfold execPkVsra
  try dsimp only
  repeat' first | with_reducible assumption | with_reducible intro _ | with_reducible apply State.vecI_mem | with_reducible apply mem_ite | (fail_if_no_progress with_reducible apply mem_mk) | with_reducible apply each_mem | with_reducible apply next_mem

theorem execPkVmin_mem {mm : Mem × Mem × SMem} (x : Fin 512) (i : Pk) (s : State) (hmm : s.Mems mm) : OutMem mm (execPkVmin x i s) := by
  unfold execPkVmin
  try dsimp only
  repeat' first | with_reducible assumption | with_reducible intro _ | with_reducible apply State.vecI_mem | with_reducible apply mem_ite | (fail_if_no_progress with_reducible apply mem_mk) | with_reducible apply each_mem | with_reducible apply next_mem

theorem execPkVmax_mem {mm : Mem × Mem × SMem} (x : Fin 512) (i : Pk) (s : State) (hmm : s.Mems mm) : OutMem mm (execPkVmax x i s) := by
  unfold execPkVmax
  try dsimp only
  repeat' first | with_reducible assumption | with_reducible intro _ | with_reducible apply State.vecI_mem | with_reducible apply mem_ite | (fail_if_no_progress with_reducible apply mem_mk) | with_reducible apply each_mem | with_reducible apply next_mem

theorem execPkVminu_mem {mm : Mem × Mem × SMem} (x : Fin 512) (i : Pk) (s : State) (hmm : s.Mems mm) : OutMem mm (execPkVminu x i s) := by
  unfold execPkVminu
  try dsimp only
  repeat' first | with_reducible assumption | with_reducible intro _ | with_reducible apply State.vecI_mem | with_reducible apply mem_ite | (fail_if_no_progress with_reducible apply mem_mk) | with_reducible apply each_mem | with_reducible apply next_mem

theorem execPkVmaxu_mem {mm : Mem × Mem × SMem} (x : Fin 512) (i : Pk) (s : State) (hmm : s.Mems mm) : OutMem mm (execPkVmaxu x i s) := by
  unfold execPkVmaxu
  try dsimp only
  repeat' first | with_reducible assumption | with_reducible intro _ | with_reducible apply State.vecI_mem | with_reducible apply mem_ite | (fail_if_no_progress with_reducible apply mem_mk) | with_reducible apply each_mem | with_reducible apply next_mem

theorem execPkVsel_mem {mm : Mem × Mem × SMem} (x : Fin 512) (i : Pk) (s : State) (hmm : s.Mems mm) : OutMem mm (execPkVsel x i s) := by
  unfold execPkVsel
  try dsimp only
  repeat' first | with_reducible assumption | with_reducible intro _ | with_reducible apply State.pekenReg_mem | with_reducible apply mem_ite | (fail_if_no_progress with_reducible apply mem_mk) | with_reducible apply each_mem | with_reducible apply next_mem

theorem execPkVmad_mem {mm : Mem × Mem × SMem} (x : Fin 512) (i : Pk) (s : State) (hmm : s.Mems mm) : OutMem mm (execPkVmad x i s) := by
  unfold execPkVmad
  try dsimp only
  repeat' first | with_reducible assumption | with_reducible intro _ | with_reducible apply State.pekenReg_mem | with_reducible apply mem_ite | (fail_if_no_progress with_reducible apply mem_mk) | with_reducible apply each_mem | with_reducible apply next_mem

theorem execPkVfadd_mem {mm : Mem × Mem × SMem} (x : Fin 512) (i : Pk) (s : State) (hmm : s.Mems mm) : OutMem mm (execPkVfadd x i s) := by
  unfold execPkVfadd
  try dsimp only
  repeat' first | with_reducible assumption | with_reducible intro _ | with_reducible apply State.vecF2_mem | with_reducible apply mem_ite | (fail_if_no_progress with_reducible apply mem_mk) | with_reducible apply each_mem | with_reducible apply next_mem

theorem execPkVfsub_mem {mm : Mem × Mem × SMem} (x : Fin 512) (i : Pk) (s : State) (hmm : s.Mems mm) : OutMem mm (execPkVfsub x i s) := by
  unfold execPkVfsub
  try dsimp only
  repeat' first | with_reducible assumption | with_reducible intro _ | with_reducible apply State.vecF2_mem | with_reducible apply mem_ite | (fail_if_no_progress with_reducible apply mem_mk) | with_reducible apply each_mem | with_reducible apply next_mem

theorem execPkVfmul_mem {mm : Mem × Mem × SMem} (x : Fin 512) (i : Pk) (s : State) (hmm : s.Mems mm) : OutMem mm (execPkVfmul x i s) := by
  unfold execPkVfmul
  try dsimp only
  repeat' first | with_reducible assumption | with_reducible intro _ | with_reducible apply State.vecF2_mem | with_reducible apply mem_ite | (fail_if_no_progress with_reducible apply mem_mk) | with_reducible apply each_mem | with_reducible apply next_mem

theorem execPkVfmin_mem {mm : Mem × Mem × SMem} (x : Fin 512) (i : Pk) (s : State) (hmm : s.Mems mm) : OutMem mm (execPkVfmin x i s) := by
  unfold execPkVfmin
  try dsimp only
  repeat' first | with_reducible assumption | with_reducible intro _ | with_reducible apply State.vecF2_mem | with_reducible apply mem_ite | (fail_if_no_progress with_reducible apply mem_mk) | with_reducible apply each_mem | with_reducible apply next_mem

theorem execPkVfmax_mem {mm : Mem × Mem × SMem} (x : Fin 512) (i : Pk) (s : State) (hmm : s.Mems mm) : OutMem mm (execPkVfmax x i s) := by
  unfold execPkVfmax
  try dsimp only
  repeat' first | with_reducible assumption | with_reducible intro _ | with_reducible apply State.vecF2_mem | with_reducible apply mem_ite | (fail_if_no_progress with_reducible apply mem_mk) | with_reducible apply each_mem | with_reducible apply next_mem

theorem execPkVfma_mem {mm : Mem × Mem × SMem} (x : Fin 512) (i : Pk) (s : State) (hmm : s.Mems mm) : OutMem mm (execPkVfma x i s) := by
  unfold execPkVfma
  try dsimp only
  repeat' first | with_reducible assumption | with_reducible intro _ | with_reducible apply State.pekenReg_mem | with_reducible apply mem_ite | (fail_if_no_progress with_reducible apply mem_mk) | with_reducible apply each_mem | with_reducible apply next_mem

theorem execPkVfrcp_mem {mm : Mem × Mem × SMem} (x : Fin 512) (i : Pk) (s : State) (hmm : s.Mems mm) : OutMem mm (execPkVfrcp x i s) := by
  unfold execPkVfrcp
  try dsimp only
  repeat' first | with_reducible assumption | with_reducible intro _ | with_reducible apply State.vecF1_mem | with_reducible apply mem_ite | (fail_if_no_progress with_reducible apply mem_mk) | with_reducible apply each_mem | with_reducible apply next_mem

theorem execPkVfrsq_mem {mm : Mem × Mem × SMem} (x : Fin 512) (i : Pk) (s : State) (hmm : s.Mems mm) : OutMem mm (execPkVfrsq x i s) := by
  unfold execPkVfrsq
  try dsimp only
  repeat' first | with_reducible assumption | with_reducible intro _ | with_reducible apply State.vecF1_mem | with_reducible apply mem_ite | (fail_if_no_progress with_reducible apply mem_mk) | with_reducible apply each_mem | with_reducible apply next_mem

theorem execPkVfexp2_mem {mm : Mem × Mem × SMem} (x : Fin 512) (i : Pk) (s : State) (hmm : s.Mems mm) : OutMem mm (execPkVfexp2 x i s) := by
  unfold execPkVfexp2
  try dsimp only
  repeat' first | with_reducible assumption | with_reducible intro _ | with_reducible apply State.vecF1_mem | with_reducible apply mem_ite | (fail_if_no_progress with_reducible apply mem_mk) | with_reducible apply each_mem | with_reducible apply next_mem

theorem execPkVflog2_mem {mm : Mem × Mem × SMem} (x : Fin 512) (i : Pk) (s : State) (hmm : s.Mems mm) : OutMem mm (execPkVflog2 x i s) := by
  unfold execPkVflog2
  try dsimp only
  repeat' first | with_reducible assumption | with_reducible intro _ | with_reducible apply State.vecF1_mem | with_reducible apply mem_ite | (fail_if_no_progress with_reducible apply mem_mk) | with_reducible apply each_mem | with_reducible apply next_mem

theorem execPkVfsgn_mem {mm : Mem × Mem × SMem} (x : Fin 512) (i : Pk) (s : State) (hmm : s.Mems mm) : OutMem mm (execPkVfsgn x i s) := by
  unfold execPkVfsgn
  try dsimp only
  repeat' first | with_reducible assumption | with_reducible intro _ | with_reducible apply State.pekenReg_mem | with_reducible apply mem_ite | (fail_if_no_progress with_reducible apply mem_mk) | with_reducible apply each_mem | with_reducible apply next_mem

theorem execPkVcvt_mem {mm : Mem × Mem × SMem} (x : Fin 512) (i : Pk) (s : State) (hmm : s.Mems mm) : OutMem mm (execPkVcvt x i s) := by
  unfold execPkVcvt
  try dsimp only
  repeat' first | with_reducible assumption | with_reducible intro _ | with_reducible apply State.vecF1_mem | with_reducible apply mem_ite | (fail_if_no_progress with_reducible apply mem_mk) | with_reducible apply each_mem | with_reducible apply next_mem

theorem execPkVfrnd_mem {mm : Mem × Mem × SMem} (x : Fin 512) (i : Pk) (s : State) (hmm : s.Mems mm) : OutMem mm (execPkVfrnd x i s) := by
  unfold execPkVfrnd
  try dsimp only
  repeat' first | with_reducible assumption | with_reducible intro _ | with_reducible apply State.vecF1_mem | with_reducible apply mem_ite | (fail_if_no_progress with_reducible apply mem_mk) | with_reducible apply each_mem | with_reducible apply next_mem

theorem execPkVicmp_mem {mm : Mem × Mem × SMem} (x : Fin 512) (i : Pk) (s : State) (hmm : s.Mems mm) : OutMem mm (execPkVicmp x i s) := by
  unfold execPkVicmp
  try dsimp only
  repeat' first | with_reducible assumption | with_reducible intro _ | with_reducible apply State.pekenReg_mem | with_reducible apply mem_ite | (fail_if_no_progress with_reducible apply mem_mk) | with_reducible apply each_mem | with_reducible apply next_mem

theorem execPkVfcmp_mem {mm : Mem × Mem × SMem} (x : Fin 512) (i : Pk) (s : State) (hmm : s.Mems mm) : OutMem mm (execPkVfcmp x i s) := by
  unfold execPkVfcmp
  try dsimp only
  repeat' first | with_reducible assumption | with_reducible intro _ | with_reducible apply State.pekenReg_mem | with_reducible apply mem_ite | (fail_if_no_progress with_reducible apply mem_mk) | with_reducible apply each_mem | with_reducible apply next_mem

theorem execPkPand_mem {mm : Mem × Mem × SMem} (x : Fin 512) (i : Pk) (s : State) (hmm : s.Mems mm) : OutMem mm (execPkPand x i s) := by
  unfold execPkPand
  try dsimp only
  repeat' first | with_reducible assumption | with_reducible intro _ | with_reducible apply State.predOp_mem | with_reducible apply mem_ite | (fail_if_no_progress with_reducible apply mem_mk) | with_reducible apply each_mem | with_reducible apply next_mem

theorem execPkPor_mem {mm : Mem × Mem × SMem} (x : Fin 512) (i : Pk) (s : State) (hmm : s.Mems mm) : OutMem mm (execPkPor x i s) := by
  unfold execPkPor
  try dsimp only
  repeat' first | with_reducible assumption | with_reducible intro _ | with_reducible apply State.predOp_mem | with_reducible apply mem_ite | (fail_if_no_progress with_reducible apply mem_mk) | with_reducible apply each_mem | with_reducible apply next_mem

theorem execPkPxor_mem {mm : Mem × Mem × SMem} (x : Fin 512) (i : Pk) (s : State) (hmm : s.Mems mm) : OutMem mm (execPkPxor x i s) := by
  unfold execPkPxor
  try dsimp only
  repeat' first | with_reducible assumption | with_reducible intro _ | with_reducible apply State.predOp_mem | with_reducible apply mem_ite | (fail_if_no_progress with_reducible apply mem_mk) | with_reducible apply each_mem | with_reducible apply next_mem

theorem execPkPandn_mem {mm : Mem × Mem × SMem} (x : Fin 512) (i : Pk) (s : State) (hmm : s.Mems mm) : OutMem mm (execPkPandn x i s) := by
  unfold execPkPandn
  try dsimp only
  repeat' first | with_reducible assumption | with_reducible intro _ | with_reducible apply State.predOp_mem | with_reducible apply mem_ite | (fail_if_no_progress with_reducible apply mem_mk) | with_reducible apply each_mem | with_reducible apply next_mem

theorem execPkPany_mem {mm : Mem × Mem × SMem} (x : Fin 512) (i : Pk) (s : State) (hmm : s.Mems mm) : OutMem mm (execPkPany x i s) := by
  unfold execPkPany
  try dsimp only
  repeat' first | with_reducible assumption | with_reducible intro _ | with_reducible apply State.pekenReg_mem | with_reducible apply mem_ite | (fail_if_no_progress with_reducible apply mem_mk) | with_reducible apply each_mem | with_reducible apply next_mem

theorem execPkPcnt_mem {mm : Mem × Mem × SMem} (x : Fin 512) (i : Pk) (s : State) (hmm : s.Mems mm) : OutMem mm (execPkPcnt x i s) := by
  unfold execPkPcnt
  try dsimp only
  repeat' first | with_reducible assumption | with_reducible intro _ | with_reducible apply State.pekenReg_mem | with_reducible apply mem_ite | (fail_if_no_progress with_reducible apply mem_mk) | with_reducible apply each_mem | with_reducible apply next_mem

theorem execPkPtos_mem {mm : Mem × Mem × SMem} (x : Fin 512) (i : Pk) (s : State) (hmm : s.Mems mm) : OutMem mm (execPkPtos x i s) := by
  unfold execPkPtos
  try dsimp only
  repeat' first | with_reducible assumption | with_reducible intro _ | with_reducible apply State.pekenReg_mem | with_reducible apply mem_ite | (fail_if_no_progress with_reducible apply mem_mk) | with_reducible apply each_mem | with_reducible apply next_mem

theorem execPkStop_mem {mm : Mem × Mem × SMem} (x : Fin 512) (i : Pk) (s : State) (hmm : s.Mems mm) : OutMem mm (execPkStop x i s) := by
  unfold execPkStop
  try dsimp only
  repeat' first | with_reducible assumption | with_reducible intro _ | with_reducible apply State.pekenReg_mem | with_reducible apply mem_ite | (fail_if_no_progress with_reducible apply mem_mk) | with_reducible apply each_mem | with_reducible apply next_mem

theorem State.vRemote_mem {mm : Mem × Mem × SMem} (s : State) (x : Nat) (c : Core) (i : Pk) (hmm : s.Mems mm) : (State.vRemote s x c i).Mems mm := by
  unfold State.vRemote
  try dsimp only
  repeat' first | with_reducible assumption | with_reducible intro _ | with_reducible apply State.each_mem | with_reducible apply State.countRemote_mem | with_reducible apply mem_ite | (fail_if_no_progress with_reducible apply mem_mk) | with_reducible apply each_mem

theorem execPkVld_mem {mm : Mem × Mem × SMem} (x : Fin 512) (i : Pk) (s : State) (hmm : s.Mems mm) : OutMem mm (execPkVld x i s) := by
  unfold execPkVld
  try dsimp only
  repeat' first | with_reducible assumption | with_reducible intro _ | with_reducible apply State.setCore_mem | with_reducible apply State.event_mem | with_reducible apply State.peken_mem | with_reducible apply State.vRemote_mem | with_reducible apply mem_ite | (fail_if_no_progress with_reducible apply mem_mk) | with_reducible apply each_mem | with_reducible apply next_mem | with_reducible apply act_hold_mem | with_reducible apply act_fault_mem | with_reducible apply act_poison_mem | with_reducible refine act_of_eq_mem (by with_reducible assumption) ?_ | with_reducible refine act_of_next_mem (by with_reducible assumption) ?_ | with_reducible apply act_next_mem | with_reducible apply act_jump_mem | with_reducible apply act_block_mem | with_reducible refine mem_snd (by with_reducible assumption) ?_ | with_reducible refine mem_fst (by with_reducible assumption) ?_ | with_reducible refine mem_some (by with_reducible assumption) ?_ | with_reducible apply foldl_mem | split

theorem execPkVshfl_mem {mm : Mem × Mem × SMem} (x : Fin 512) (i : Pk) (s : State) (hmm : s.Mems mm) : OutMem mm (execPkVshfl x i s) := by
  unfold execPkVshfl
  try dsimp only
  repeat' first | with_reducible assumption | with_reducible intro _ | with_reducible apply State.pekenReg_mem | with_reducible apply mem_ite | (fail_if_no_progress with_reducible apply mem_mk) | with_reducible apply each_mem | with_reducible apply next_mem

theorem execPkVred_mem {mm : Mem × Mem × SMem} (x : Fin 512) (i : Pk) (s : State) (hmm : s.Mems mm) : OutMem mm (execPkVred x i s) := by
  unfold execPkVred
  try dsimp only
  repeat' first | with_reducible assumption | with_reducible intro _ | with_reducible apply State.pekenReg_mem | with_reducible apply mem_ite | (fail_if_no_progress with_reducible apply mem_mk) | with_reducible apply each_mem | with_reducible apply next_mem

theorem execPkVscan_mem {mm : Mem × Mem × SMem} (x : Fin 512) (i : Pk) (s : State) (hmm : s.Mems mm) : OutMem mm (execPkVscan x i s) := by
  unfold execPkVscan
  try dsimp only
  repeat' first | with_reducible assumption | with_reducible intro _ | with_reducible apply State.pekenReg_mem | with_reducible apply mem_ite | (fail_if_no_progress with_reducible apply mem_mk) | with_reducible apply each_mem | with_reducible apply next_mem

theorem execPkVbcast_mem {mm : Mem × Mem × SMem} (x : Fin 512) (i : Pk) (s : State) (hmm : s.Mems mm) : OutMem mm (execPkVbcast x i s) := by
  unfold execPkVbcast
  try dsimp only
  repeat' first | with_reducible assumption | with_reducible intro _ | with_reducible apply State.pekenReg_mem | with_reducible apply mem_ite | (fail_if_no_progress with_reducible apply mem_mk) | with_reducible apply each_mem | with_reducible apply next_mem

theorem execPkVtid_mem {mm : Mem × Mem × SMem} (x : Fin 512) (i : Pk) (s : State) (hmm : s.Mems mm) : OutMem mm (execPkVtid x i s) := by
  unfold execPkVtid
  try dsimp only
  repeat' first | with_reducible assumption | with_reducible intro _ | with_reducible apply State.pekenReg_mem | with_reducible apply mem_ite | (fail_if_no_progress with_reducible apply mem_mk) | with_reducible apply each_mem | with_reducible apply next_mem

theorem execPkVext_mem {mm : Mem × Mem × SMem} (x : Fin 512) (i : Pk) (s : State) (hmm : s.Mems mm) : OutMem mm (execPkVext x i s) := by
  unfold execPkVext
  try dsimp only
  repeat' first | with_reducible assumption | with_reducible intro _ | with_reducible apply State.pekenReg_mem | with_reducible apply mem_ite | (fail_if_no_progress with_reducible apply mem_mk) | with_reducible apply each_mem | with_reducible apply next_mem

theorem execPkVins_mem {mm : Mem × Mem × SMem} (x : Fin 512) (i : Pk) (s : State) (hmm : s.Mems mm) : OutMem mm (execPkVins x i s) := by
  unfold execPkVins
  try dsimp only
  repeat' first | with_reducible assumption | with_reducible intro _ | with_reducible apply State.pekenReg_mem | with_reducible apply mem_ite | (fail_if_no_progress with_reducible apply mem_mk) | with_reducible apply each_mem | with_reducible apply next_mem

end Sys2Proof.Machine
end

