-- ==== Sys2Proof/Laws/MemBlocks.lean ====
section
/-! SUPPORT. Which functions change no byte of the Hamper, the on-chip stores and the slices: streams, codec, companions, mapping, partitions, integrity, tenants, links, resets, bring-up, host ports, the Trail. One lemma per function. -/
namespace Sys2Proof.Machine

/-! Trail. -/

theorem State.trailWrite_mem {mm : Mem × Mem × SMem} (s : State) (r : TrailRec) (hmm : s.Mems mm) : (State.trailWrite s r).Mems mm := by
  unfold State.trailWrite
  try dsimp only
  repeat' first | with_reducible assumption | with_reducible intro _ | with_reducible apply State.event_mem | with_reducible apply State.setFld_mem | with_reducible apply mem_ite | (fail_if_no_progress with_reducible apply mem_mk) | with_reducible apply each_mem | with_reducible refine mem_snd (by with_reducible assumption) ?_ | with_reducible refine mem_fst (by with_reducible assumption) ?_ | with_reducible refine mem_some (by with_reducible assumption) ?_ | with_reducible apply foldl_mem | split

theorem State.trailCommit_mem {mm : Mem × Mem × SMem} (s : State) (hmm : s.Mems mm) : (State.trailCommit s).Mems mm := by
  unfold State.trailCommit
  try dsimp only
  repeat' first | with_reducible assumption | with_reducible intro _ | with_reducible apply State.setFlag_mem | with_reducible apply State.trailPut_mem | with_reducible apply State.trailWrite_mem | with_reducible apply mem_ite | (fail_if_no_progress with_reducible apply mem_mk) | with_reducible apply each_mem | with_reducible apply next_mem | with_reducible refine mem_snd (by with_reducible assumption) ?_ | with_reducible refine mem_fst (by with_reducible assumption) ?_ | with_reducible refine mem_some (by with_reducible assumption) ?_ | with_reducible apply foldl_mem | split

theorem execTrailRecordCommit_mem {mm : Mem × Mem × SMem} (s : State) (hmm : s.Mems mm) : OutMem mm (execTrailRecordCommit s) := by
  unfold execTrailRecordCommit
  try dsimp only
  repeat' first | with_reducible assumption | with_reducible intro _ | with_reducible apply State.trailCommit_mem | with_reducible apply mem_ite | (fail_if_no_progress with_reducible apply mem_mk) | with_reducible apply each_mem | with_reducible apply next_mem

theorem State.trlIndex_mem {mm : Mem × Mem × SMem} (s : State) (slot : Nat) (hmm : s.Mems mm) : (State.trlIndex s slot).Mems mm := by
  unfold State.trlIndex
  try dsimp only
  repeat' first | with_reducible assumption | with_reducible intro _ | with_reducible apply State.setFld_mem | with_reducible apply State.each_mem | with_reducible apply mem_ite | (fail_if_no_progress with_reducible apply mem_mk) | with_reducible apply each_mem

/-! Streams. -/

theorem State.setSk_mem {mm : Mem × Mem × SMem} (s : State) (k : Nat) (v : SkSt) (hmm : s.Mems mm) : (State.setSk s k v).Mems mm := by
  unfold State.setSk
  try dsimp only
  repeat' first | with_reducible assumption | with_reducible intro _ | with_reducible apply mem_ite | (fail_if_no_progress with_reducible apply mem_mk)

theorem State.setEth_mem {mm : Mem × Mem × SMem} (s : State) (n : Nat) (v : EthPort) (hmm : s.Mems mm) : (State.setEth s n v).Mems mm := by
  unfold State.setEth
  try dsimp only
  repeat' first | with_reducible assumption | with_reducible intro _ | with_reducible apply mem_ite | (fail_if_no_progress with_reducible apply mem_mk)

theorem State.skEmit_mem {mm : Mem × Mem × SMem} (s : State) (m : SkSend) (hmm : s.Mems mm) : (State.skEmit s m).Mems mm := by
  unfold State.skEmit
  try dsimp only
  repeat' first | with_reducible assumption | with_reducible intro _ | with_reducible apply State.emit_mem

theorem State.skTransmit_mem {mm : Mem × Mem × SMem} (s : State) (m : SkSend) (hmm : s.Mems mm) : (State.skTransmit s m).Mems mm := by
  unfold State.skTransmit
  try dsimp only
  repeat' first | with_reducible assumption | with_reducible intro _ | with_reducible apply State.setEth_mem | with_reducible apply State.skEmit_mem | with_reducible apply mem_ite

theorem State.skRepeat_mem {mm : Mem × Mem × SMem} (s : State) (k : Nat) (hmm : s.Mems mm) : (State.skRepeat s k).Mems mm := by
  unfold State.skRepeat
  try dsimp only
  repeat' first | with_reducible assumption | with_reducible intro _ | with_reducible apply State.skTransmit_mem

theorem execHaltRepeat_mem {mm : Mem × Mem × SMem} (k : Fin 512) (s : State) (hmm : s.Mems mm) : OutMem mm (execHaltRepeat k s) := by
  unfold execHaltRepeat
  try dsimp only
  repeat' first | with_reducible assumption | with_reducible intro _ | with_reducible apply State.skRepeat_mem | with_reducible apply mem_ite | (fail_if_no_progress with_reducible apply mem_mk) | with_reducible apply each_mem | with_reducible apply next_mem

theorem execEaseRepeat_mem {mm : Mem × Mem × SMem} (k : Fin 512) (s : State) (hmm : s.Mems mm) : OutMem mm (execEaseRepeat k s) := by
  unfold execEaseRepeat
  try dsimp only
  repeat' first | with_reducible assumption | with_reducible intro _ | with_reducible apply State.skRepeat_mem | with_reducible apply mem_ite | (fail_if_no_progress with_reducible apply mem_mk) | with_reducible apply each_mem | with_reducible apply next_mem

theorem execResumeRepeat_mem {mm : Mem × Mem × SMem} (k : Fin 512) (s : State) (hmm : s.Mems mm) : OutMem mm (execResumeRepeat k s) := by
  unfold execResumeRepeat
  try dsimp only
  repeat' first | with_reducible assumption | with_reducible intro _ | with_reducible apply State.setSk_mem | with_reducible apply State.skTransmit_mem | with_reducible apply mem_ite | (fail_if_no_progress with_reducible apply mem_mk) | with_reducible apply each_mem | with_reducible apply next_mem | with_reducible refine mem_snd (by with_reducible assumption) ?_ | with_reducible refine mem_fst (by with_reducible assumption) ?_ | with_reducible refine mem_some (by with_reducible assumption) ?_ | with_reducible apply foldl_mem | split

theorem execPfcRefresh_mem {mm : Mem × Mem × SMem} (n : Fin 2) (prio : Fin 8) (s : State) (hmm : s.Mems mm) : OutMem mm (execPfcRefresh n prio s) := by
  unfold execPfcRefresh
  try dsimp only
  repeat' first | with_reducible assumption | with_reducible intro _ | with_reducible apply State.emit_mem | with_reducible apply mem_ite | (fail_if_no_progress with_reducible apply mem_mk) | with_reducible apply each_mem | with_reducible apply next_mem

theorem State.ethResume_mem {mm : Mem × Mem × SMem} (s : State) (n prio : Nat) (hmm : s.Mems mm) : (State.ethResume s n prio).Mems mm := by
  unfold State.ethResume
  try dsimp only
  repeat' first | with_reducible assumption | with_reducible intro _ | with_reducible apply State.each_mem | with_reducible apply State.setEth_mem | with_reducible apply State.skEmit_mem | with_reducible apply mem_ite | (fail_if_no_progress with_reducible apply mem_mk) | with_reducible apply each_mem

theorem execPfcReceive_mem {mm : Mem × Mem × SMem} (n : Fin 2) (prio : Fin 8) (time : BitVec 16) (s : State) (hmm : s.Mems mm) : OutMem mm (execPfcReceive n prio time s) := by
  unfold execPfcReceive
  try dsimp only
  repeat' first | with_reducible assumption | with_reducible intro _ | with_reducible apply State.setEth_mem | with_reducible apply State.ethResume_mem | with_reducible apply mem_ite | (fail_if_no_progress with_reducible apply mem_mk) | with_reducible apply each_mem | with_reducible apply next_mem

theorem execPfcPauseExpiry_mem {mm : Mem × Mem × SMem} (n : Fin 2) (prio : Fin 8) (s : State) (hmm : s.Mems mm) : OutMem mm (execPfcPauseExpiry n prio s) := by
  unfold execPfcPauseExpiry
  try dsimp only
  repeat' first | with_reducible assumption | with_reducible intro _ | with_reducible apply State.ethResume_mem | with_reducible apply mem_ite | (fail_if_no_progress with_reducible apply mem_mk) | with_reducible apply each_mem | with_reducible apply next_mem

theorem execArpNsRequest_mem {mm : Mem × Mem × SMem} (n : Fin 2) (ns : Bool) (target : BitVec 128) (s : State) (hmm : s.Mems mm) : OutMem mm (execArpNsRequest n ns target s) := by
  unfold execArpNsRequest
  try dsimp only
  repeat' first | with_reducible assumption | with_reducible intro _ | with_reducible apply State.satFld_mem | with_reducible apply State.emit_mem | with_reducible apply mem_ite | (fail_if_no_progress with_reducible apply mem_mk) | with_reducible apply each_mem | with_reducible apply next_mem

theorem execPtpMessage_mem {mm : Mem × Mem × SMem} (n : Fin 2) (m : PtpIn) (s : State) (hmm : s.Mems mm) : OutMem mm (execPtpMessage n m s) := by
  unfold execPtpMessage
  try dsimp only
  repeat' first | with_reducible assumption | with_reducible intro _ | with_reducible apply State.event_mem | with_reducible apply State.emit_mem | with_reducible apply State.setFlag_mem | with_reducible apply mem_ite | (fail_if_no_progress with_reducible apply mem_mk) | with_reducible apply each_mem | with_reducible apply next_mem | with_reducible refine mem_snd (by with_reducible assumption) ?_ | with_reducible refine mem_fst (by with_reducible assumption) ?_ | with_reducible refine mem_some (by with_reducible assumption) ?_ | with_reducible apply foldl_mem | split

theorem State.ethDown_mem {mm : Mem × Mem × SMem} (s : State) (n : Nat) (hmm : s.Mems mm) : (State.ethDown s n).Mems mm := by
  unfold State.ethDown
  try dsimp only
  repeat' first | with_reducible assumption | with_reducible intro _ | with_reducible apply State.setEth_mem | with_reducible apply State.event_mem | with_reducible apply State.setBit_mem | with_reducible apply mem_ite

theorem execEthernetLinkDown_mem {mm : Mem × Mem × SMem} (n : Fin 2) (s : State) (hmm : s.Mems mm) : OutMem mm (execEthernetLinkDown n s) := by
  unfold execEthernetLinkDown
  try dsimp only
  repeat' first | with_reducible assumption | with_reducible intro _ | with_reducible apply State.ethDown_mem | with_reducible apply mem_ite | (fail_if_no_progress with_reducible apply mem_mk) | with_reducible apply each_mem | with_reducible apply next_mem

theorem execEthernetLinkUp_mem {mm : Mem × Mem × SMem} (n : Fin 2) (s : State) (hmm : s.Mems mm) : OutMem mm (execEthernetLinkUp n s) := by
  unfold execEthernetLinkUp
  try dsimp only
  repeat' first | with_reducible assumption | with_reducible intro _ | with_reducible apply State.skRepeat_mem | with_reducible apply State.event_mem | with_reducible apply State.each_mem | with_reducible apply State.setBit_mem | with_reducible apply mem_ite | (fail_if_no_progress with_reducible apply mem_mk) | with_reducible apply each_mem | with_reducible apply next_mem

/-! Codec. -/

theorem State.setEngine_mem {mm : Mem × Mem × SMem} (s : State) (n st : Nat) (hmm : s.Mems mm) : (State.setEngine s n st).Mems mm := by
  unfold State.setEngine
  try dsimp only
  repeat' first | with_reducible assumption | with_reducible intro _ | with_reducible apply State.setFld_mem

theorem State.vceBist_mem {mm : Mem × Mem × SMem} (s : State) (rq : Requester) (n : Nat) (hmm : s.Mems mm) : (State.vceBist s rq n).Mems mm := by
  unfold State.vceBist
  try dsimp only
  repeat' first | with_reducible assumption | with_reducible intro _ | with_reducible apply State.setFlag_mem | with_reducible apply State.satFld_mem | with_reducible apply State.countErr_mem | with_reducible apply State.setEngine_mem | with_reducible apply mem_ite

theorem execVceBistDone_mem {mm : Mem × Mem × SMem} (n : Fin 4) (pass : Bool) (s : State) (hmm : s.Mems mm) : OutMem mm (execVceBistDone n pass s) := by
  unfold execVceBistDone
  try dsimp only
  repeat' first | with_reducible assumption | with_reducible intro _ | with_reducible apply State.setFlag_mem | with_reducible apply State.event_mem | with_reducible apply State.setEngine_mem | with_reducible apply mem_ite | (fail_if_no_progress with_reducible apply mem_mk) | with_reducible apply each_mem | with_reducible apply next_mem

theorem State.vceReset_mem {mm : Mem × Mem × SMem} (s : State) (n : Nat) (hmm : s.Mems mm) : (State.vceReset s n).Mems mm := by
  unfold State.vceReset
  try dsimp only
  repeat' first | with_reducible assumption | with_reducible intro _ | with_reducible apply State.setEngine_mem | with_reducible apply mem_ite

/-! Mapping. -/

theorem State.bootTrail_mem {mm : Mem × Mem × SMem} (s : State) (sev : Nat) (hmm : s.Mems mm) : (State.bootTrail s sev).Mems mm := by
  unfold State.bootTrail
  try dsimp only
  repeat' first | with_reducible assumption | with_reducible intro _ | with_reducible apply State.trailPut_mem

theorem State.bootErr_mem {mm : Mem × Mem × SMem} (s : State) (code detail step : Nat) (hmm : s.Mems mm) : (State.bootErr s code detail step).Mems mm := by
  unfold State.bootErr
  try dsimp only
  repeat' first | with_reducible assumption | with_reducible intro _ | with_reducible apply State.bootTrail_mem | with_reducible apply State.setFld_mem

theorem State.setDom_mem {mm : Mem × Mem × SMem} (s : State) (t i v : Nat) (hmm : s.Mems mm) : (State.setDom s t i v).Mems mm := by
  unfold State.setDom
  try dsimp only
  repeat' first | with_reducible assumption | with_reducible intro _ | with_reducible apply State.setFld_mem

theorem State.setRamp_mem {mm : Mem × Mem × SMem} (s : State) (t i v : Nat) (hmm : s.Mems mm) : (State.setRamp s t i v).Mems mm := by
  unfold State.setRamp
  try dsimp only
  repeat' first | with_reducible assumption | with_reducible intro _ | with_reducible apply mem_ite | (fail_if_no_progress with_reducible apply mem_mk)

theorem execDomainRampStart_mem {mm : Mem × Mem × SMem} (t : Fin 8) (s : State) (hmm : s.Mems mm) : OutMem mm (execDomainRampStart t s) := by
  unfold execDomainRampStart
  try dsimp only
  repeat' first | with_reducible assumption | with_reducible intro _ | with_reducible apply State.setDom_mem | with_reducible apply State.setRamp_mem | with_reducible apply mem_ite | (fail_if_no_progress with_reducible apply mem_mk) | with_reducible apply each_mem | with_reducible apply next_mem | with_reducible refine mem_snd (by with_reducible assumption) ?_ | with_reducible refine mem_fst (by with_reducible assumption) ?_ | with_reducible refine mem_some (by with_reducible assumption) ?_ | with_reducible apply foldl_mem | split

theorem execRampStageDwell_mem {mm : Mem × Mem × SMem} (t : Fin 8) (dom : Fin 136) (s : State) (hmm : s.Mems mm) : OutMem mm (execRampStageDwell t dom s) := by
  unfold execRampStageDwell
  try dsimp only
  repeat' first | with_reducible assumption | with_reducible intro _ | with_reducible apply State.setDom_mem | with_reducible apply State.setRamp_mem | with_reducible apply mem_ite | (fail_if_no_progress with_reducible apply mem_mk) | with_reducible apply each_mem | with_reducible apply next_mem | with_reducible refine mem_snd (by with_reducible assumption) ?_ | with_reducible refine mem_fst (by with_reducible assumption) ?_ | with_reducible refine mem_some (by with_reducible assumption) ?_ | with_reducible apply foldl_mem | split

theorem execVirtualRail90_mem {mm : Mem × Mem × SMem} (t : Fin 8) (dom : Fin 136) (s : State) (hmm : s.Mems mm) : OutMem mm (execVirtualRail90 t dom s) := by
  unfold execVirtualRail90
  try dsimp only
  repeat' first | with_reducible assumption | with_reducible intro _ | with_reducible apply State.setRamp_mem | with_reducible apply mem_ite | (fail_if_no_progress with_reducible apply mem_mk) | with_reducible apply each_mem | with_reducible apply next_mem

/-! Integrity. -/

theorem execScrubLapLimit_mem {mm : Mem × Mem × SMem} (cl : Option (Fin 64)) (s : State) (hmm : s.Mems mm) : OutMem mm (execScrubLapLimit cl s) := by
  unfold execScrubLapLimit
  try dsimp only
  repeat' first | with_reducible assumption | with_reducible intro _ | with_reducible apply State.setFlag_mem | with_reducible apply State.satFld_mem | with_reducible apply State.event_mem | with_reducible apply mem_ite | (fail_if_no_progress with_reducible apply mem_mk) | with_reducible apply each_mem | with_reducible apply next_mem

theorem State.ceWindowEnd_mem {mm : Mem × Mem × SMem} (s : State) (pg : Nat) (hmm : s.Mems mm) : (State.ceWindowEnd s pg).Mems mm := by
  unfold State.ceWindowEnd
  try dsimp only
  repeat' first | with_reducible assumption | with_reducible intro _ | with_reducible apply State.setFld_mem | with_reducible apply mem_ite | (fail_if_no_progress with_reducible apply mem_mk)

theorem execCeWindowEnd_mem {mm : Mem × Mem × SMem} (m : ScbId) (s : State) (hmm : s.Mems mm) : OutMem mm (execCeWindowEnd m s) := by
  unfold execCeWindowEnd
  try dsimp only
  repeat' first | with_reducible assumption | with_reducible intro _ | with_reducible apply State.ceWindowEnd_mem | with_reducible apply mem_ite | (fail_if_no_progress with_reducible apply mem_mk) | with_reducible apply each_mem | with_reducible apply next_mem

theorem State.ceCross_mem {mm : Mem × Mem × SMem} (s : State) (m : ScbId) (hmm : s.Mems mm) : (State.ceCross s m).Mems mm := by
  unfold State.ceCross
  try dsimp only
  repeat' first | with_reducible assumption | with_reducible intro _ | with_reducible apply State.sliceCross_mem | with_reducible apply State.event_mem | with_reducible apply mem_ite | (fail_if_no_progress with_reducible apply mem_mk) | with_reducible apply each_mem | with_reducible refine mem_snd (by with_reducible assumption) ?_ | with_reducible refine mem_fst (by with_reducible assumption) ?_ | with_reducible refine mem_some (by with_reducible assumption) ?_ | with_reducible apply foldl_mem | split

theorem State.ceCfgWrite_mem {mm : Mem × Mem × SMem} (s : State) (rq : Requester) (m : ScbId) (v : Nat) (hmm : s.Mems mm) : (State.ceCfgWrite s rq m v).Mems mm := by
  unfold State.ceCfgWrite
  try dsimp only
  repeat' first | with_reducible assumption | with_reducible intro _ | with_reducible apply State.ceCross_mem | with_reducible apply State.ceWindowEnd_mem | with_reducible apply State.countErr_mem | with_reducible apply State.setFld_mem | with_reducible apply mem_ite

theorem State.bistRefuse_mem {mm : Mem × Mem × SMem} (s : State) (rq : Requester) (pg : Nat) (page : Bool) (hmm : s.Mems mm) : (State.bistRefuse s rq pg page).Mems mm := by
  unfold State.bistRefuse
  try dsimp only
  repeat' first | with_reducible assumption | with_reducible intro _ | with_reducible apply State.satFld_mem | with_reducible apply State.event_mem | with_reducible apply State.countErr_mem | with_reducible apply mem_ite

theorem State.bistStart_mem {mm : Mem × Mem × SMem} (s : State) (rq : Requester) (m : ScbId) (v : Nat) (hmm : s.Mems mm) : (State.bistStart s rq m v).Mems mm := by
  unfold State.bistStart
  try dsimp only
  repeat' first | with_reducible assumption | with_reducible intro _ | with_reducible apply State.bistRefuse_mem | with_reducible apply State.setFlag_mem | with_reducible apply State.setFld_mem | with_reducible apply mem_ite | (fail_if_no_progress with_reducible apply mem_mk) | with_reducible apply each_mem | with_reducible refine mem_snd (by with_reducible assumption) ?_ | with_reducible refine mem_fst (by with_reducible assumption) ?_ | with_reducible refine mem_some (by with_reducible assumption) ?_ | with_reducible apply foldl_mem | split

theorem State.bistWrite_mem {mm : Mem × Mem × SMem} (s : State) (rq : Requester) (m : ScbId) (v : Nat) (hmm : s.Mems mm) : (State.bistWrite s rq m v).Mems mm := by
  unfold State.bistWrite
  try dsimp only
  repeat' first | with_reducible assumption | with_reducible intro _ | with_reducible apply State.bistStart_mem | with_reducible apply State.setFld_mem | with_reducible apply mem_ite | (fail_if_no_progress with_reducible apply mem_mk) | with_reducible apply each_mem | with_reducible refine mem_snd (by with_reducible assumption) ?_ | with_reducible refine mem_fst (by with_reducible assumption) ?_ | with_reducible refine mem_some (by with_reducible assumption) ?_ | with_reducible apply foldl_mem | split

theorem State.flogClear_mem {mm : Mem × Mem × SMem} (s : State) (n : Nat) (hmm : s.Mems mm) : (State.flogClear s n).Mems mm := by
  unfold State.flogClear
  try dsimp only
  repeat' first | with_reducible assumption | with_reducible intro _ | with_reducible apply State.setFld_mem | with_reducible apply State.each_mem | with_reducible apply mem_ite | (fail_if_no_progress with_reducible apply mem_mk) | with_reducible apply each_mem

/-! Tenants. -/

theorem State.setTnState_mem {mm : Mem × Mem × SMem} (s : State) (n v : Nat) (hmm : s.Mems mm) : (State.setTnState s n v).Mems mm := by
  unfold State.setTnState
  try dsimp only
  repeat' first | with_reducible assumption | with_reducible intro _ | with_reducible apply State.setFld_mem

theorem State.bindApply_mem {mm : Mem × Mem × SMem} (s : State) (n v : Nat) (hmm : s.Mems mm) : (State.bindApply s n v).Mems mm := by
  unfold State.bindApply
  try dsimp only
  repeat' first | with_reducible assumption | with_reducible intro _ | with_reducible apply State.setFld_mem | with_reducible apply State.etDrop_mem | with_reducible apply State.flogClear_mem | with_reducible apply State.setTnState_mem | with_reducible apply mem_ite

theorem State.tnFinish_mem {mm : Mem × Mem × SMem} (s : State) (n : Nat) (hmm : s.Mems mm) : (State.tnFinish s n).Mems mm := by
  unfold State.tnFinish
  try dsimp only
  repeat' first | with_reducible assumption | with_reducible intro _ | with_reducible apply State.bindApply_mem | with_reducible apply State.setTnState_mem | with_reducible apply State.putReport_mem | with_reducible apply State.event_mem | with_reducible apply State.setTen_mem | with_reducible apply State.each_mem | with_reducible apply State.setFlag_mem | with_reducible apply mem_ite | (fail_if_no_progress with_reducible apply mem_mk) | with_reducible apply each_mem | with_reducible refine mem_snd (by with_reducible assumption) ?_ | with_reducible refine mem_fst (by with_reducible assumption) ?_ | with_reducible refine mem_some (by with_reducible assumption) ?_ | with_reducible apply foldl_mem | split

theorem State.rstLast_mem {mm : Mem × Mem × SMem} (s : State) (r : Rst) (hmm : s.Mems mm) : (State.rstLast s r).Mems mm := by
  unfold State.rstLast
  try dsimp only
  repeat' first | with_reducible assumption | with_reducible intro _ | with_reducible apply State.setFld_mem | with_reducible apply State.setFlag_mem

theorem State.tnRelease_mem {mm : Mem × Mem × SMem} (s : State) (n : Nat) (hmm : s.Mems mm) : (State.tnRelease s n).Mems mm := by
  unfold State.tnRelease
  try dsimp only
  repeat' first | with_reducible assumption | with_reducible intro _ | with_reducible apply State.rstLast_mem | with_reducible apply State.tnFinish_mem | with_reducible apply mem_ite | (fail_if_no_progress with_reducible apply mem_mk) | with_reducible apply each_mem | with_reducible refine mem_snd (by with_reducible assumption) ?_ | with_reducible refine mem_fst (by with_reducible assumption) ?_ | with_reducible refine mem_some (by with_reducible assumption) ?_ | with_reducible apply foldl_mem | split

theorem execTenantResetReport_mem {mm : Mem × Mem × SMem} (n : Fin 128) (s : State) (hmm : s.Mems mm) : OutMem mm (execTenantResetReport n s) := by
  unfold execTenantResetReport
  try dsimp only
  repeat' first | with_reducible assumption | with_reducible intro _ | with_reducible apply State.tnRelease_mem | with_reducible apply mem_ite | (fail_if_no_progress with_reducible apply mem_mk) | with_reducible apply each_mem | with_reducible apply next_mem

/-! Links. -/

theorem State.eset_mem {mm : Mem × Mem × SMem} (s : State) (k : Nat) (lnk ser : Fld) (v : Nat) (hmm : s.Mems mm) : (State.eset s k lnk ser v).Mems mm := by
  unfold State.eset
  try dsimp only
  repeat' first | with_reducible assumption | with_reducible intro _ | with_reducible apply State.setFld_mem

theorem State.setReplay_mem {mm : Mem × Mem × SMem} (s : State) (k : Nat) (l : List TxFlit) (replays : Nat) (hmm : s.Mems mm) : (State.setReplay s k l replays).Mems mm := by
  unfold State.setReplay
  try dsimp only
  repeat' first | with_reducible assumption | with_reducible intro _ | with_reducible apply State.setFld_mem | with_reducible apply State.setLend_mem | with_reducible apply mem_ite

theorem State.endClear_mem {mm : Mem × Mem × SMem} (s : State) (k : Nat) (hmm : s.Mems mm) : (State.endClear s k).Mems mm := by
  unfold State.endClear
  try dsimp only
  repeat' first | with_reducible assumption | with_reducible intro _ | with_reducible apply State.setReplay_mem | with_reducible apply State.eset_mem | with_reducible apply State.setLend_mem

theorem State.setRetrain_mem {mm : Mem × Mem × SMem} (s : State) (k : Nat) (v : Bool) (hmm : s.Mems mm) : (State.setRetrain s k v).Mems mm := by
  unfold State.setRetrain
  try dsimp only
  repeat' first | with_reducible assumption | with_reducible intro _ | with_reducible apply State.eset_mem

theorem State.linkSet_mem {mm : Mem × Mem × SMem} (s : State) (k v : Nat) (hmm : s.Mems mm) : (State.linkSet s k v).Mems mm := by
  unfold State.linkSet
  try dsimp only
  repeat' first | with_reducible assumption | with_reducible intro _ | with_reducible apply State.setRetrain_mem | with_reducible apply State.endClear_mem | with_reducible apply State.eset_mem | with_reducible apply State.event_mem | with_reducible apply State.each_mem | with_reducible apply mem_ite | (fail_if_no_progress with_reducible apply mem_mk) | with_reducible apply each_mem

theorem State.setHold_mem {mm : Mem × Mem × SMem} (s : State) (t u : Nat) (v : Option Nat) (hmm : s.Mems mm) : (State.setHold s t u v).Mems mm := by
  unfold State.setHold
  try dsimp only
  repeat' first | with_reducible assumption | with_reducible intro _ | with_reducible apply mem_ite | (fail_if_no_progress with_reducible apply mem_mk)

theorem State.setFailed_mem {mm : Mem × Mem × SMem} (s : State) (k : Nat) (v : Bool) (hmm : s.Mems mm) : (State.setFailed s k v).Mems mm := by
  unfold State.setFailed
  try dsimp only
  repeat' first | with_reducible assumption | with_reducible intro _ | with_reducible apply State.setLend_mem | with_reducible apply State.each_mem | with_reducible apply mem_ite | (fail_if_no_progress with_reducible apply mem_mk) | with_reducible apply each_mem

theorem State.sendNak_mem {mm : Mem × Mem × SMem} (s : State) (k : Nat) (hmm : s.Mems mm) : (State.sendNak s k).Mems mm := by
  unfold State.sendNak
  try dsimp only
  repeat' first | with_reducible assumption | with_reducible intro _ | with_reducible apply State.emit_mem | with_reducible apply State.setLend_mem | with_reducible apply mem_ite

theorem State.sendAck_mem {mm : Mem × Mem × SMem} (s : State) (k : Nat) (hmm : s.Mems mm) : (State.sendAck s k).Mems mm := by
  unfold State.sendAck
  try dsimp only
  repeat' first | with_reducible assumption | with_reducible intro _ | with_reducible apply State.emit_mem | with_reducible apply State.setLend_mem | with_reducible apply mem_ite | (fail_if_no_progress with_reducible apply mem_mk) | with_reducible apply each_mem | with_reducible apply next_mem | with_reducible refine mem_snd (by with_reducible assumption) ?_ | with_reducible refine mem_fst (by with_reducible assumption) ?_ | with_reducible refine mem_some (by with_reducible assumption) ?_ | with_reducible apply foldl_mem | split

theorem State.setCredits_mem {mm : Mem × Mem × SMem} (s : State) (k vc n : Nat) (hmm : s.Mems mm) : (State.setCredits s k vc n).Mems mm := by
  unfold State.setCredits
  try dsimp only
  repeat' first | with_reducible assumption | with_reducible intro _ | with_reducible apply State.setLend_mem

theorem State.sendFlit_mem {mm : Mem × Mem × SMem} (s : State) (k vc : Nat) (data : List Byte) (hmm : s.Mems mm) : (State.sendFlit s k vc data).Mems mm := by
  unfold State.sendFlit
  try dsimp only
  repeat' first | with_reducible assumption | with_reducible intro _ | with_reducible apply State.setCredits_mem | with_reducible apply State.setReplay_mem | with_reducible apply State.eset_mem | with_reducible apply State.emit_mem | with_reducible apply mem_ite

theorem State.fwdFlits_mem {mm : Mem × Mem × SMem} (s : State) (k : Nat) (stuck : List Nat) (l : List RxFlit) (h : s.Mems mm) :
    (s.fwdFlits k stuck l).1.Mems mm := by
  induction l generalizing s stuck with
  | nil => exact h
  | cons f l ih =>
    unfold State.fwdFlits
    split
    · exact ih _ _ h
    · refine mem_ite_fst (ih _ _ ?_) (ih _ _ h)
      exact State.emit_mem _ _ (State.sendFlit_mem _ _ _ _ h)

theorem State.forward_mem {mm : Mem × Mem × SMem} (s : State) (k : Nat) (hmm : s.Mems mm) : (State.forward s k).Mems mm := by
  unfold State.forward
  try dsimp only
  repeat' first | with_reducible assumption | with_reducible intro _ | with_reducible apply State.fwdFlits_mem | with_reducible apply State.setLend_mem | with_reducible apply State.each_mem | with_reducible apply mem_ite | (fail_if_no_progress with_reducible apply mem_mk) | with_reducible apply each_mem

theorem State.flitOut_mem {mm : Mem × Mem × SMem} (s : State) (k ch src dst : Nat) (data : List Byte) (hmm : s.Mems mm) : (State.flitOut s k ch src dst data).Mems mm := by
  unfold State.flitOut
  try dsimp only
  repeat' first | with_reducible assumption | with_reducible intro _ | with_reducible apply State.forward_mem | with_reducible apply State.setLend_mem | with_reducible apply State.emit_mem | with_reducible apply mem_ite

theorem State.flitIn_mem {mm : Mem × Mem × SMem} (s : State) (k seq ch src dst : Nat) (data : List Byte) (hmm : s.Mems mm) : (State.flitIn s k seq ch src dst data).Mems mm := by
  unfold State.flitIn
  try dsimp only
  repeat' first | with_reducible assumption | with_reducible intro _ | with_reducible apply State.flitOut_mem | with_reducible apply State.sendAck_mem | with_reducible apply State.eset_mem | with_reducible apply State.setLend_mem | with_reducible apply State.satFld_mem | with_reducible apply mem_ite

theorem State.halfErr_mem {mm : Mem × Mem × SMem} (s : State) (k : Nat) (hmm : s.Mems mm) : (State.halfErr s k).Mems mm := by
  unfold State.halfErr
  try dsimp only
  repeat' first | with_reducible assumption | with_reducible intro _ | with_reducible apply State.satFld_mem | with_reducible apply State.setLend_mem | with_reducible apply State.sendNak_mem

theorem execBridgeBurstReceive_mem {mm : Mem × Mem × SMem} (t : Fin 8) (d : Fin 4) (b : Burst) (s : State) (hmm : s.Mems mm) : OutMem mm (execBridgeBurstReceive t d b s) := by
  unfold execBridgeBurstReceive
  try dsimp only
  repeat' first | with_reducible assumption | with_reducible intro _ | with_reducible apply State.halfErr_mem | with_reducible apply State.flitIn_mem | with_reducible apply State.sendNak_mem | with_reducible apply State.setLend_mem | with_reducible apply State.satFld_mem | with_reducible apply mem_ite | (fail_if_no_progress with_reducible apply mem_mk) | with_reducible apply each_mem | with_reducible apply next_mem | with_reducible refine mem_snd (by with_reducible assumption) ?_ | with_reducible refine mem_fst (by with_reducible assumption) ?_ | with_reducible refine mem_some (by with_reducible assumption) ?_ | with_reducible apply foldl_mem | split

theorem State.replayAll_mem {mm : Mem × Mem × SMem} (s : State) (k : Nat) (hmm : s.Mems mm) : (State.replayAll s k).Mems mm := by
  unfold State.replayAll
  try dsimp only
  repeat' first | with_reducible assumption | with_reducible intro _ | with_reducible apply State.satFld_mem | with_reducible apply State.emit_mem | with_reducible apply State.each_mem | with_reducible apply State.setReplay_mem | with_reducible apply mem_ite | (fail_if_no_progress with_reducible apply mem_mk) | with_reducible apply each_mem | with_reducible apply next_mem | with_reducible refine mem_snd (by with_reducible assumption) ?_ | with_reducible refine mem_fst (by with_reducible assumption) ?_ | with_reducible refine mem_some (by with_reducible assumption) ?_ | with_reducible apply foldl_mem | split

theorem State.ackIn_mem {mm : Mem × Mem × SMem} (s : State) (k : Nat) (nak : Bool) (seq : Nat) (hmm : s.Mems mm) : (State.ackIn s k nak seq).Mems mm := by
  unfold State.ackIn
  try dsimp only
  repeat' first | with_reducible assumption | with_reducible intro _ | with_reducible apply State.setReplay_mem | with_reducible apply State.replayAll_mem | with_reducible apply mem_ite | (fail_if_no_progress with_reducible apply mem_mk) | with_reducible apply each_mem | with_reducible apply next_mem | with_reducible refine mem_snd (by with_reducible assumption) ?_ | with_reducible refine mem_fst (by with_reducible assumption) ?_ | with_reducible refine mem_some (by with_reducible assumption) ?_ | with_reducible apply foldl_mem | split

theorem State.creditsIn_mem {mm : Mem × Mem × SMem} (s : State) (k : Nat) (ns : List Nat) (hmm : s.Mems mm) : (State.creditsIn s k ns).Mems mm := by
  unfold State.creditsIn
  try dsimp only
  repeat' first | with_reducible assumption | with_reducible intro _ | with_reducible apply State.setCredits_mem | with_reducible apply State.each_mem | with_reducible apply mem_ite | (fail_if_no_progress with_reducible apply mem_mk) | with_reducible apply each_mem

theorem execAckNakReceive_mem {mm : Mem × Mem × SMem} (e : LinkEndId) (w : AckWord) (s : State) (hmm : s.Mems mm) : OutMem mm (execAckNakReceive e w s) := by
  unfold execAckNakReceive
  try dsimp only
  repeat' first | with_reducible assumption | with_reducible intro _ | with_reducible apply State.creditsIn_mem | with_reducible apply State.ackIn_mem | with_reducible apply State.forward_mem | with_reducible apply mem_ite | (fail_if_no_progress with_reducible apply mem_mk) | with_reducible apply each_mem | with_reducible apply next_mem | with_reducible refine mem_snd (by with_reducible assumption) ?_ | with_reducible refine mem_fst (by with_reducible assumption) ?_ | with_reducible refine mem_some (by with_reducible assumption) ?_ | with_reducible apply foldl_mem | split

theorem State.fecCount_mem {mm : Mem × Mem × SMem} (s : State) (k n : Nat) (hmm : s.Mems mm) : (State.fecCount s k n).Mems mm := by
  unfold State.fecCount
  try dsimp only
  repeat' first | with_reducible assumption | with_reducible intro _ | with_reducible apply State.setLend_mem | with_reducible apply State.satFld_mem

theorem State.serCrcErr_mem {mm : Mem × Mem × SMem} (s : State) (k : Nat) (hmm : s.Mems mm) : (State.serCrcErr s k).Mems mm := by
  unfold State.serCrcErr
  try dsimp only
  repeat' first | with_reducible assumption | with_reducible intro _ | with_reducible apply State.sendNak_mem | with_reducible apply State.setLend_mem

theorem execBundleFlitReceive_mem {mm : Mem × Mem × SMem} (t : Fin 8) (hub : Bool) (f : BundleFlit) (s : State) (hmm : s.Mems mm) : OutMem mm (execBundleFlitReceive t hub f s) := by
  unfold execBundleFlitReceive
  try dsimp only
  repeat' first | with_reducible assumption | with_reducible intro _ | with_reducible apply State.serCrcErr_mem | with_reducible apply State.fecCount_mem | with_reducible apply State.ackIn_mem | with_reducible apply State.flitIn_mem | with_reducible apply State.setCredits_mem | with_reducible apply State.satFld_mem | with_reducible apply mem_ite | (fail_if_no_progress with_reducible apply mem_mk) | with_reducible apply each_mem | with_reducible apply next_mem | with_reducible refine mem_snd (by with_reducible assumption) ?_ | with_reducible refine mem_fst (by with_reducible assumption) ?_ | with_reducible refine mem_some (by with_reducible assumption) ?_ | with_reducible apply foldl_mem | split

theorem execReplayTimerExpiry_mem {mm : Mem × Mem × SMem} (e : LinkEndId) (s : State) (hmm : s.Mems mm) : OutMem mm (execReplayTimerExpiry e s) := by
  unfold execReplayTimerExpiry
  try dsimp only
  repeat' first | with_reducible assumption | with_reducible intro _ | with_reducible apply State.replayAll_mem | with_reducible apply mem_ite | (fail_if_no_progress with_reducible apply mem_mk) | with_reducible apply each_mem | with_reducible apply next_mem

theorem execAckIntervalTimer_mem {mm : Mem × Mem × SMem} (e : LinkEndId) (s : State) (hmm : s.Mems mm) : OutMem mm (execAckIntervalTimer e s) := by
  unfold execAckIntervalTimer
  try dsimp only
  repeat' first | with_reducible assumption | with_reducible intro _ | with_reducible apply State.sendAck_mem | with_reducible apply mem_ite | (fail_if_no_progress with_reducible apply mem_mk) | with_reducible apply each_mem | with_reducible apply next_mem

theorem execKeepAliveSend_mem {mm : Mem × Mem × SMem} (e : LinkEndId) (s : State) (hmm : s.Mems mm) : OutMem mm (execKeepAliveSend e s) := by
  unfold execKeepAliveSend
  try dsimp only
  repeat' first | with_reducible assumption | with_reducible intro _ | with_reducible apply State.sendFlit_mem | with_reducible apply State.emit_mem | with_reducible apply mem_ite | (fail_if_no_progress with_reducible apply mem_mk) | with_reducible apply each_mem | with_reducible apply next_mem

theorem State.retrain_mem {mm : Mem × Mem × SMem} (s : State) (k : Nat) (hmm : s.Mems mm) : (State.retrain s k).Mems mm := by
  unfold State.retrain
  try dsimp only
  repeat' first | with_reducible assumption | with_reducible intro _ | with_reducible apply State.linkSet_mem | with_reducible apply State.setLend_mem | with_reducible apply State.each_mem | with_reducible apply mem_ite | (fail_if_no_progress with_reducible apply mem_mk) | with_reducible apply each_mem

theorem State.retrainAsked_mem {mm : Mem × Mem × SMem} (s : State) (k : Nat) (hmm : s.Mems mm) : (State.retrainAsked s k).Mems mm := by
  unfold State.retrainAsked
  try dsimp only
  repeat' first | with_reducible assumption | with_reducible intro _ | with_reducible apply State.retrain_mem | with_reducible apply State.setFailed_mem | with_reducible apply State.linkSet_mem | with_reducible apply mem_ite

theorem execReplayLimitReached_mem {mm : Mem × Mem × SMem} (e : LinkEndId) (s : State) (hmm : s.Mems mm) : OutMem mm (execReplayLimitReached e s) := by
  unfold execReplayLimitReached
  try dsimp only
  repeat' first | with_reducible assumption | with_reducible intro _ | with_reducible apply State.retrain_mem | with_reducible apply State.event_mem | with_reducible apply mem_ite | (fail_if_no_progress with_reducible apply mem_mk) | with_reducible apply each_mem | with_reducible apply next_mem

theorem execFecThresholdExceeded_mem {mm : Mem × Mem × SMem} (t : Fin 8) (hub : Bool) (s : State) (hmm : s.Mems mm) : OutMem mm (execFecThresholdExceeded t hub s) := by
  unfold execFecThresholdExceeded
  try dsimp only
  repeat' first | with_reducible assumption | with_reducible intro _ | with_reducible apply State.retrain_mem | with_reducible apply mem_ite | (fail_if_no_progress with_reducible apply mem_mk) | with_reducible apply each_mem | with_reducible apply next_mem

theorem State.clockLost_mem {mm : Mem × Mem × SMem} (s : State) (pg block t : Nat) (hmm : s.Mems mm) : (State.clockLost s pg block t).Mems mm := by
  unfold State.clockLost
  try dsimp only
  repeat' first | with_reducible assumption | with_reducible intro _ | with_reducible apply State.emit_mem | with_reducible apply State.event_mem | with_reducible apply State.trailPut_mem

theorem execLinkWatchdogExpiry_mem {mm : Mem × Mem × SMem} (e : LinkEndId) (s : State) (hmm : s.Mems mm) : OutMem mm (execLinkWatchdogExpiry e s) := by
  unfold execLinkWatchdogExpiry
  try dsimp only
  repeat' first | with_reducible assumption | with_reducible intro _ | with_reducible apply State.clockLost_mem | with_reducible apply mem_ite | (fail_if_no_progress with_reducible apply mem_mk) | with_reducible apply each_mem | with_reducible apply next_mem

theorem execDclkLossReport_mem {mm : Mem × Mem × SMem} (x : Fin 512) (s : State) (hmm : s.Mems mm) : OutMem mm (execDclkLossReport x s) := by
  unfold execDclkLossReport
  try dsimp only
  repeat' first | with_reducible assumption | with_reducible intro _ | with_reducible apply State.emit_mem | with_reducible apply State.trailPut_mem | with_reducible apply mem_ite | (fail_if_no_progress with_reducible apply mem_mk) | with_reducible apply each_mem | with_reducible apply next_mem

theorem State.lnkRetrainWrite_mem {mm : Mem × Mem × SMem} (s : State) (k : Nat) (hmm : s.Mems mm) : (State.lnkRetrainWrite s k).Mems mm := by
  unfold State.lnkRetrainWrite
  try dsimp only
  repeat' first | with_reducible assumption | with_reducible intro _ | with_reducible apply State.retrainAsked_mem | with_reducible apply State.setRetrain_mem | with_reducible apply mem_ite

theorem State.lnkCntClear_mem {mm : Mem × Mem × SMem} (s : State) (t d : Nat) (hmm : s.Mems mm) : (State.lnkCntClear s t d).Mems mm := by
  unfold State.lnkCntClear
  try dsimp only
  repeat' first | with_reducible assumption | with_reducible intro _ | with_reducible apply State.setFld_mem | with_reducible apply State.each_mem | with_reducible apply mem_ite | (fail_if_no_progress with_reducible apply mem_mk) | with_reducible apply each_mem

theorem State.serCntClear_mem {mm : Mem × Mem × SMem} (s : State) (pg : Nat) (hmm : s.Mems mm) : (State.serCntClear s pg).Mems mm := by
  unfold State.serCntClear
  try dsimp only
  repeat' first | with_reducible assumption | with_reducible intro _ | with_reducible apply State.setFld_mem | with_reducible apply State.each_mem | with_reducible apply mem_ite | (fail_if_no_progress with_reducible apply mem_mk) | with_reducible apply each_mem

/-! Boot. -/

theorem State.sliceTrained_mem {mm : Mem × Mem × SMem} (s : State) (x : Nat) (ok : Bool) (hmm : s.Mems mm) : (State.sliceTrained s x ok).Mems mm := by
  unfold State.sliceTrained
  try dsimp only
  repeat' first | with_reducible assumption | with_reducible intro _ | with_reducible apply State.setSliceState_mem | with_reducible apply State.addFact_mem | with_reducible apply mem_ite | (fail_if_no_progress with_reducible apply mem_mk)

theorem execSliceTrainingDone_mem {mm : Mem × Mem × SMem} (x : Fin 512) (ok : Bool) (s : State) (hmm : s.Mems mm) : OutMem mm (execSliceTrainingDone x ok s) := by
  unfold execSliceTrainingDone
  try dsimp only
  repeat' first | with_reducible assumption | with_reducible intro _ | with_reducible apply State.sliceTrained_mem | with_reducible apply mem_ite | (fail_if_no_progress with_reducible apply mem_mk) | with_reducible apply each_mem | with_reducible apply next_mem

theorem execBootConfigSpaceReady_mem {mm : Mem × Mem × SMem} (port : Fin 4) (s : State) (hmm : s.Mems mm) : OutMem mm (execBootConfigSpaceReady port s) := by
  unfold execBootConfigSpaceReady
  try dsimp only
  repeat' first | with_reducible assumption | with_reducible intro _ | with_reducible apply State.setPort_mem | with_reducible apply mem_ite | (fail_if_no_progress with_reducible apply mem_mk) | with_reducible apply each_mem | with_reducible apply next_mem

theorem State.pushIssue_mem {mm : Mem × Mem × SMem} (s : State) (hmm : s.Mems mm) : (State.pushIssue s).Mems mm := by
  unfold State.pushIssue
  try dsimp only
  repeat' first | with_reducible assumption | with_reducible intro _ | with_reducible apply State.emit_mem | with_reducible apply mem_ite | (fail_if_no_progress with_reducible apply mem_mk)

theorem State.pushGo_mem {mm : Mem × Mem × SMem} (s : State) (hmm : s.Mems mm) : (State.pushGo s).Mems mm := by
  unfold State.pushGo
  try dsimp only
  repeat' first | with_reducible assumption | with_reducible intro _ | with_reducible apply State.pushIssue_mem | with_reducible apply State.bootErr_mem | with_reducible apply State.setFlag_mem | with_reducible apply mem_ite | (fail_if_no_progress with_reducible apply mem_mk)

/-! HostPorts. -/

theorem execHostLinkUp_mem {mm : Mem × Mem × SMem} (port : Fin 4) (rate : Fin 6) (width : Fin 17) (flit cxl : Bool) (s : State) (hmm : s.Mems mm) : OutMem mm (execHostLinkUp port rate width flit cxl s) := by
  unfold execHostLinkUp
  try dsimp only
  repeat' first | with_reducible assumption | with_reducible intro _ | with_reducible apply State.event_mem | with_reducible apply State.setPort_mem | with_reducible apply State.setFlag_mem | with_reducible apply State.setFld_mem | with_reducible apply mem_ite | (fail_if_no_progress with_reducible apply mem_mk) | with_reducible apply each_mem | with_reducible apply next_mem

theorem execD3hotEnter_mem {mm : Mem × Mem × SMem} (port : Fin 4) (s : State) (hmm : s.Mems mm) : OutMem mm (execD3hotEnter port s) := by
  unfold execD3hotEnter
  try dsimp only
  repeat' first | with_reducible assumption | with_reducible intro _ | with_reducible apply State.setPort_mem | with_reducible apply State.emit_mem | with_reducible apply mem_ite | (fail_if_no_progress with_reducible apply mem_mk) | with_reducible apply each_mem | with_reducible apply next_mem

theorem State.releaseHeld_mem {mm : Mem × Mem × SMem} (s : State) (n q : Nat) (hmm : s.Mems mm) : (State.releaseHeld s n q).Mems mm := by
  unfold State.releaseHeld
  try dsimp only
  repeat' first | with_reducible assumption | with_reducible intro _ | with_reducible apply State.cqWrite_mem | with_reducible apply State.cqSignal_mem | with_reducible apply State.setQueue_mem | with_reducible apply State.each_mem | with_reducible apply mem_ite | (fail_if_no_progress with_reducible apply mem_mk) | with_reducible apply each_mem

theorem execD0Return_mem {mm : Mem × Mem × SMem} (port : Fin 4) (s : State) (hmm : s.Mems mm) : OutMem mm (execD0Return port s) := by
  unfold execD0Return
  try dsimp only
  repeat' first | with_reducible assumption | with_reducible intro _ | with_reducible apply State.releaseHeld_mem | with_reducible apply State.pushIssue_mem | with_reducible apply State.setPort_mem | with_reducible apply State.each_mem | with_reducible apply State.emit_mem | with_reducible apply mem_ite | (fail_if_no_progress with_reducible apply mem_mk) | with_reducible apply each_mem | with_reducible apply next_mem

theorem State.pendingSend_mem {mm : Mem × Mem × SMem} (s : State) (k vec : Nat) (hmm : s.Mems mm) : (State.pendingSend s k vec).Mems mm := by
  unfold State.pendingSend
  try dsimp only
  repeat' first | with_reducible assumption | with_reducible intro _ | with_reducible apply State.setFn_mem | with_reducible apply State.emit_mem | with_reducible apply mem_ite

theorem execMsixPendingSend_mem {mm : Mem × Mem × SMem} (fn : FnId) (vec : Fin 32) (s : State) (hmm : s.Mems mm) : OutMem mm (execMsixPendingSend fn vec s) := by
  unfold execMsixPendingSend
  try dsimp only
  repeat' first | with_reducible assumption | with_reducible intro _ | with_reducible apply State.pendingSend_mem | with_reducible apply mem_ite | (fail_if_no_progress with_reducible apply mem_mk) | with_reducible apply each_mem | with_reducible apply next_mem

theorem execHubClockLoss_mem {mm : Mem × Mem × SMem} (c : HubClock) (s : State) (hmm : s.Mems mm) : OutMem mm (execHubClockLoss c s) := by
  unfold execHubClockLoss
  try dsimp only
  repeat' first | with_reducible assumption | with_reducible intro _ | with_reducible apply State.hubLost_mem | with_reducible apply mem_ite | (fail_if_no_progress with_reducible apply mem_mk) | with_reducible apply each_mem | with_reducible apply next_mem

/-! Routing. -/

theorem execRouteSwitchResume_mem {mm : Mem × Mem × SMem} (t u : Fin 8) (s : State) (hmm : s.Mems mm) : OutMem mm (execRouteSwitchResume t u s) := by
  unfold execRouteSwitchResume
  try dsimp only
  repeat' first | with_reducible assumption | with_reducible intro _ | with_reducible apply State.setHold_mem | with_reducible apply State.setFld_mem | with_reducible apply mem_ite | (fail_if_no_progress with_reducible apply mem_mk) | with_reducible apply each_mem | with_reducible apply next_mem | with_reducible refine mem_snd (by with_reducible assumption) ?_ | with_reducible refine mem_fst (by with_reducible assumption) ?_ | with_reducible refine mem_some (by with_reducible assumption) ?_ | with_reducible apply foldl_mem | split

end Sys2Proof.Machine
end

