-- ==== Sys2Proof/Laws/MemPower.lean ====
section
/-! SUPPORT. Which functions change no byte of the Hamper, the on-chip stores and the slices: power, temperature, management, security and register accesses. One lemma per function. -/
namespace Sys2Proof.Machine

/-! Power. -/

theorem State.setChg_mem {mm : Mem × Mem × SMem} (s : State) (t : Nat) (v : OppChg) (hmm : s.Mems mm) : (State.setChg s t v).Mems mm := by
  unfold State.setChg
  try dsimp only
  repeat' first | with_reducible assumption | with_reducible intro _ | with_reducible apply mem_ite | (fail_if_no_progress with_reducible apply mem_mk)

theorem execOppChangeStart_mem {mm : Mem × Mem × SMem} (t : Fin 8) (s : State) (hmm : s.Mems mm) : OutMem mm (execOppChangeStart t s) := by
  unfold execOppChangeStart
  try dsimp only
  repeat' first | with_reducible assumption | with_reducible intro _ | with_reducible apply State.setFlag_mem | with_reducible apply State.setChg_mem | with_reducible apply mem_ite | (fail_if_no_progress with_reducible apply mem_mk) | with_reducible apply each_mem | with_reducible apply next_mem

theorem State.pkgTelemetry_mem {mm : Mem × Mem × SMem} (s : State) (hmm : s.Mems mm) : (State.pkgTelemetry s).Mems mm := by
  unfold State.pkgTelemetry
  try dsimp only
  repeat' first | with_reducible assumption | with_reducible intro _ | with_reducible apply State.setFld64_mem | with_reducible apply State.setFld_mem

theorem State.tileTelemetry_mem {mm : Mem × Mem × SMem} (s : State) (t : Nat) (hmm : s.Mems mm) : (State.tileTelemetry s t).Mems mm := by
  unfold State.tileTelemetry
  try dsimp only
  repeat' first | with_reducible assumption | with_reducible intro _ | with_reducible apply State.setFld_mem | with_reducible apply State.setFld64_mem | with_reducible apply mem_ite | (fail_if_no_progress with_reducible apply mem_mk)

theorem State.clampSync_mem {mm : Mem × Mem × SMem} (s : State) (t : Nat) (hmm : s.Mems mm) : (State.clampSync s t).Mems mm := by
  unfold State.clampSync
  try dsimp only
  repeat' first | with_reducible assumption | with_reducible intro _ | with_reducible apply State.setFlag_mem

theorem State.setOwnClamp_mem {mm : Mem × Mem × SMem} (s : State) (t : Nat) (v : Bool) (hmm : s.Mems mm) : (State.setOwnClamp s t v).Mems mm := by
  unfold State.setOwnClamp
  try dsimp only
  repeat' first | with_reducible assumption | with_reducible intro _ | with_reducible apply State.clampSync_mem | with_reducible apply mem_ite | (fail_if_no_progress with_reducible apply mem_mk)

theorem State.setAllClamp_mem {mm : Mem × Mem × SMem} (s : State) (v : Bool) (hmm : s.Mems mm) : (State.setAllClamp s v).Mems mm := by
  unfold State.setAllClamp
  try dsimp only
  repeat' first | with_reducible assumption | with_reducible intro _ | with_reducible apply State.setFlag_mem | with_reducible apply State.each_mem | with_reducible apply State.clampSync_mem | with_reducible apply mem_ite | (fail_if_no_progress with_reducible apply mem_mk) | with_reducible apply each_mem

theorem execFastClampRelease_mem {mm : Mem × Mem × SMem} (t : Option (Fin 8)) (s : State) (hmm : s.Mems mm) : OutMem mm (execFastClampRelease t s) := by
  unfold execFastClampRelease
  try dsimp only
  repeat' first | with_reducible assumption | with_reducible intro _ | with_reducible apply State.setOwnClamp_mem | with_reducible apply State.setAllClamp_mem | with_reducible apply mem_ite | (fail_if_no_progress with_reducible apply mem_mk) | with_reducible apply each_mem | with_reducible apply next_mem | with_reducible refine mem_snd (by with_reducible assumption) ?_ | with_reducible refine mem_fst (by with_reducible assumption) ?_ | with_reducible refine mem_some (by with_reducible assumption) ?_ | with_reducible apply foldl_mem | split

theorem State.setCap_mem {mm : Mem × Mem × SMem} (s : State) (v : Nat) (hmm : s.Mems mm) : (State.setCap s v).Mems mm := by
  unfold State.setCap
  try dsimp only
  repeat' first | with_reducible assumption | with_reducible intro _ | with_reducible apply State.setFld_mem | with_reducible apply State.setFlag_mem | with_reducible apply State.event_mem | with_reducible apply mem_ite

theorem execPowerLoopTick_mem {mm : Mem × Mem × SMem} (s : State) (hmm : s.Mems mm) : OutMem mm (execPowerLoopTick s) := by
  unfold execPowerLoopTick
  try dsimp only
  repeat' first | with_reducible assumption | with_reducible intro _ | with_reducible apply State.setCap_mem | with_reducible apply mem_ite | (fail_if_no_progress with_reducible apply mem_mk) | with_reducible apply each_mem | with_reducible apply next_mem

theorem State.clampAll_mem {mm : Mem × Mem × SMem} (s : State) (hmm : s.Mems mm) : (State.clampAll s).Mems mm := by
  unfold State.clampAll
  try dsimp only
  repeat' first | with_reducible assumption | with_reducible intro _ | with_reducible apply State.event_mem | with_reducible apply State.setAllClamp_mem | with_reducible apply State.setCap_mem | with_reducible apply mem_ite

theorem State.setTileCap_mem {mm : Mem × Mem × SMem} (s : State) (t v : Nat) (hmm : s.Mems mm) : (State.setTileCap s t v).Mems mm := by
  unfold State.setTileCap
  try dsimp only
  repeat' first | with_reducible assumption | with_reducible intro _ | with_reducible apply mem_ite | (fail_if_no_progress with_reducible apply mem_mk)

theorem State.setAt_mem {mm : Mem × Mem × SMem} (s : State) (low : Bool) (t v : Nat) (hmm : s.Mems mm) : (State.setAt s low t v).Mems mm := by
  unfold State.setAt
  try dsimp only
  repeat' first | with_reducible assumption | with_reducible intro _ | with_reducible apply mem_ite | (fail_if_no_progress with_reducible apply mem_mk)

theorem State.capTile_mem {mm : Mem × Mem × SMem} (s : State) (t : Nat) (hmm : s.Mems mm) : (State.capTile s t).Mems mm := by
  unfold State.capTile
  try dsimp only
  repeat' first | with_reducible assumption | with_reducible intro _ | with_reducible apply State.event_mem | with_reducible apply State.setOwnClamp_mem | with_reducible apply State.setTileCap_mem | with_reducible apply State.setAt_mem | with_reducible apply mem_ite

theorem execPowerSample_mem {mm : Mem × Mem × SMem} (i : PowerIn) (s : State) (hmm : s.Mems mm) : OutMem mm (execPowerSample i s) := by
  unfold execPowerSample
  try dsimp only
  repeat' first | with_reducible assumption | with_reducible intro _ | with_reducible apply State.setFlag_mem | with_reducible apply State.each_mem | with_reducible apply State.event_mem | with_reducible apply State.pkgTelemetry_mem | with_reducible apply State.tileTelemetry_mem | with_reducible apply State.clampAll_mem | with_reducible apply State.capTile_mem | with_reducible apply mem_ite | (fail_if_no_progress with_reducible apply mem_mk) | with_reducible apply each_mem | with_reducible apply next_mem

theorem State.pwrLimit_mem {mm : Mem × Mem × SMem} (s : State) (rq : Requester) (v : Nat) (hmm : s.Mems mm) : (State.pwrLimit s rq v).Mems mm := by
  unfold State.pwrLimit
  try dsimp only
  repeat' first | with_reducible assumption | with_reducible intro _ | with_reducible apply State.setFld_mem | with_reducible apply State.countErr_mem | with_reducible apply mem_ite

theorem State.pwrReq_mem {mm : Mem × Mem × SMem} (s : State) (rq : Requester) (t v : Nat) (hmm : s.Mems mm) : (State.pwrReq s rq t v).Mems mm := by
  unfold State.pwrReq
  try dsimp only
  repeat' first | with_reducible assumption | with_reducible intro _ | with_reducible apply State.setFld_mem | with_reducible apply State.countErr_mem | with_reducible apply mem_ite

/-! Thermal. -/

theorem State.thermalRec_mem {mm : Mem × Mem × SMem} (s : State) (sev : Nat) (payload : List Nat) (hmm : s.Mems mm) : (State.thermalRec s sev payload).Mems mm := by
  unfold State.thermalRec
  try dsimp only
  repeat' first | with_reducible assumption | with_reducible intro _ | with_reducible apply State.trailPut_mem

theorem State.setBand_mem {mm : Mem × Mem × SMem} (s : State) (d b : Nat) (hmm : s.Mems mm) : (State.setBand s d b).Mems mm := by
  unfold State.setBand
  try dsimp only
  repeat' first | with_reducible assumption | with_reducible intro _ | with_reducible apply State.setFld_mem | with_reducible apply State.event_mem | with_reducible apply mem_ite

theorem execSamplingBandDrop_mem {mm : Mem × Mem × SMem} (die : Fin 9) (s : State) (hmm : s.Mems mm) : OutMem mm (execSamplingBandDrop die s) := by
  unfold execSamplingBandDrop
  try dsimp only
  repeat' first | with_reducible assumption | with_reducible intro _ | with_reducible apply State.setBand_mem | with_reducible apply mem_ite | (fail_if_no_progress with_reducible apply mem_mk) | with_reducible apply each_mem | with_reducible apply next_mem

theorem State.setRefresh_mem {mm : Mem × Mem × SMem} (s : State) (t b : Nat) (hmm : s.Mems mm) : (State.setRefresh s t b).Mems mm := by
  unfold State.setRefresh
  try dsimp only
  repeat' first | with_reducible assumption | with_reducible intro _ | with_reducible apply State.each_mem | with_reducible apply State.event_mem | with_reducible apply mem_ite | (fail_if_no_progress with_reducible apply mem_mk) | with_reducible apply each_mem

theorem execRefreshBandFall_mem {mm : Mem × Mem × SMem} (t : Fin 8) (s : State) (hmm : s.Mems mm) : OutMem mm (execRefreshBandFall t s) := by
  unfold execRefreshBandFall
  try dsimp only
  repeat' first | with_reducible assumption | with_reducible intro _ | with_reducible apply State.setRefresh_mem | with_reducible apply mem_ite | (fail_if_no_progress with_reducible apply mem_mk) | with_reducible apply each_mem | with_reducible apply next_mem

theorem State.setReq_mem {mm : Mem × Mem × SMem} (s : State) (t v : Nat) (hmm : s.Mems mm) : (State.setReq s t v).Mems mm := by
  unfold State.setReq
  try dsimp only
  repeat' first | with_reducible assumption | with_reducible intro _ | with_reducible apply State.setFld_mem

theorem State.setThmState_mem {mm : Mem × Mem × SMem} (s : State) (t v : Nat) (hmm : s.Mems mm) : (State.setThmState s t v).Mems mm := by
  unfold State.setThmState
  try dsimp only
  repeat' first | with_reducible assumption | with_reducible intro _ | with_reducible apply State.setFld_mem

theorem execThrottleStep_mem {mm : Mem × Mem × SMem} (t : Fin 8) (s : State) (hmm : s.Mems mm) : OutMem mm (execThrottleStep t s) := by
  unfold execThrottleStep
  try dsimp only
  repeat' first | with_reducible assumption | with_reducible intro _ | with_reducible apply State.setReq_mem | with_reducible apply mem_ite | (fail_if_no_progress with_reducible apply mem_mk) | with_reducible apply each_mem | with_reducible apply next_mem

theorem execThrottleReleaseStep_mem {mm : Mem × Mem × SMem} (t : Fin 8) (s : State) (hmm : s.Mems mm) : OutMem mm (execThrottleReleaseStep t s) := by
  unfold execThrottleReleaseStep
  try dsimp only
  repeat' first | with_reducible assumption | with_reducible intro _ | with_reducible apply State.setReq_mem | with_reducible apply State.setThmState_mem | with_reducible apply mem_ite | (fail_if_no_progress with_reducible apply mem_mk) | with_reducible apply each_mem | with_reducible apply next_mem

theorem State.floorCause_mem {mm : Mem × Mem × SMem} (s : State) (i : Nat) (hmm : s.Mems mm) : (State.floorCause s i).Mems mm := by
  unfold State.floorCause
  try dsimp only
  repeat' first | with_reducible assumption | with_reducible intro _ | with_reducible apply State.thermalRec_mem | with_reducible apply State.event_mem | with_reducible apply State.setFlag_mem | with_reducible apply State.setFld_mem | with_reducible apply mem_ite | (fail_if_no_progress with_reducible apply mem_mk)

theorem State.floorRestore_mem {mm : Mem × Mem × SMem} (s : State) (i : Nat) (hmm : s.Mems mm) : (State.floorRestore s i).Mems mm := by
  unfold State.floorRestore
  try dsimp only
  repeat' first | with_reducible assumption | with_reducible intro _ | with_reducible apply State.setFld_mem | with_reducible apply State.setFlag_mem | with_reducible apply State.event_mem | with_reducible apply State.thermalRec_mem | with_reducible apply mem_ite | (fail_if_no_progress with_reducible apply mem_mk)

theorem execCoolantOkHigh_mem {mm : Mem × Mem × SMem} (s : State) (hmm : s.Mems mm) : OutMem mm (execCoolantOkHigh s) := by
  unfold execCoolantOkHigh
  try dsimp only
  repeat' first | with_reducible assumption | with_reducible intro _ | with_reducible apply State.floorCause_mem | with_reducible apply mem_ite | (fail_if_no_progress with_reducible apply mem_mk) | with_reducible apply each_mem | with_reducible apply next_mem

theorem execCoolantOkRestored_mem {mm : Mem × Mem × SMem} (s : State) (hmm : s.Mems mm) : OutMem mm (execCoolantOkRestored s) := by
  unfold execCoolantOkRestored
  try dsimp only
  repeat' first | with_reducible assumption | with_reducible intro _ | with_reducible apply State.floorRestore_mem | with_reducible apply mem_ite | (fail_if_no_progress with_reducible apply mem_mk) | with_reducible apply each_mem | with_reducible apply next_mem

theorem execHubTHotRestored_mem {mm : Mem × Mem × SMem} (s : State) (hmm : s.Mems mm) : OutMem mm (execHubTHotRestored s) := by
  unfold execHubTHotRestored
  try dsimp only
  repeat' first | with_reducible assumption | with_reducible intro _ | with_reducible apply State.floorRestore_mem | with_reducible apply mem_ite | (fail_if_no_progress with_reducible apply mem_mk) | with_reducible apply each_mem | with_reducible apply next_mem

theorem State.thmRelease_mem {mm : Mem × Mem × SMem} (s : State) (rq : Requester) (hmm : s.Mems mm) : (State.thmRelease s rq).Mems mm := by
  unfold State.thmRelease
  try dsimp only
  repeat' first | with_reducible assumption | with_reducible intro _ | with_reducible apply State.countErr_mem | with_reducible apply State.floorRestore_mem | with_reducible apply mem_ite

theorem execExtNtcConversion_mem {mm : Mem × Mem × SMem} (k : Fin 2) (valid : Bool) (temp : Int) (s : State) (hmm : s.Mems mm) : OutMem mm (execExtNtcConversion k valid temp s) := by
  unfold execExtNtcConversion
  try dsimp only
  repeat' first | with_reducible assumption | with_reducible intro _ | with_reducible apply State.setFld_mem | with_reducible apply State.setFlag_mem | with_reducible apply State.satFld_mem | with_reducible apply State.event_mem | with_reducible apply State.thermalRec_mem | with_reducible apply mem_ite | (fail_if_no_progress with_reducible apply mem_mk) | with_reducible apply each_mem | with_reducible apply next_mem

theorem State.cycleStep_mem {mm : Mem × Mem × SMem} (s : State) (t : Nat) (v : Int) (hmm : s.Mems mm) : (State.cycleStep s t v).Mems mm := by
  unfold State.cycleStep
  try dsimp only
  repeat' first | with_reducible assumption | with_reducible intro _ | with_reducible apply State.satFld_mem | with_reducible apply mem_ite | (fail_if_no_progress with_reducible apply mem_mk)

theorem execRiseEvaluation_mem {mm : Mem × Mem × SMem} (s : State) (hmm : s.Mems mm) : OutMem mm (execRiseEvaluation s) := by
  unfold execRiseEvaluation
  try dsimp only
  repeat' first | with_reducible assumption | with_reducible intro _ | with_reducible apply State.each_mem | with_reducible apply State.floorCause_mem | with_reducible apply State.cycleStep_mem | with_reducible apply mem_ite | (fail_if_no_progress with_reducible apply mem_mk) | with_reducible apply each_mem | with_reducible apply next_mem | with_reducible refine mem_snd (by with_reducible assumption) ?_ | with_reducible refine mem_fst (by with_reducible assumption) ?_ | with_reducible refine mem_some (by with_reducible assumption) ?_ | with_reducible apply foldl_mem | split

theorem State.cycleRecord_mem {mm : Mem × Mem × SMem} (s : State) (hmm : s.Mems mm) : (State.cycleRecord s).Mems mm := by
  unfold State.cycleRecord
  try dsimp only
  repeat' first | with_reducible assumption | with_reducible intro _ | with_reducible apply State.trailPut_mem

theorem execCycleSnapshot_mem {mm : Mem × Mem × SMem} (s : State) (hmm : s.Mems mm) : OutMem mm (execCycleSnapshot s) := by
  unfold execCycleSnapshot
  try dsimp only
  repeat' first | with_reducible assumption | with_reducible intro _ | with_reducible apply State.cycleRecord_mem | with_reducible apply mem_ite | (fail_if_no_progress with_reducible apply mem_mk) | with_reducible apply each_mem | with_reducible apply next_mem

theorem State.thmCfg_mem {mm : Mem × Mem × SMem} (s : State) (rq : Requester) (v : Nat) (hmm : s.Mems mm) : (State.thmCfg s rq v).Mems mm := by
  unfold State.thmCfg
  try dsimp only
  repeat' first | with_reducible assumption | with_reducible intro _ | with_reducible apply State.setFld_mem | with_reducible apply State.countErr_mem | with_reducible apply mem_ite

/-! Forecast. -/

theorem execForecastPublish_mem {mm : Mem × Mem × SMem} (s : State) (hmm : s.Mems mm) : OutMem mm (execForecastPublish s) := by
  unfold execForecastPublish
  try dsimp only
  repeat' first | with_reducible assumption | with_reducible intro _ | with_reducible apply State.setFld_mem | with_reducible apply State.emit_mem | with_reducible apply State.event_mem | with_reducible apply mem_ite | (fail_if_no_progress with_reducible apply mem_mk) | with_reducible apply each_mem | with_reducible apply next_mem

/-! Mgmt. -/

theorem FmcAns.only_mem {mm : Mem × Mem × SMem} (n : Nat) : FmcMem mm (FmcAns.only n) := by
  unfold FmcAns.only
  try dsimp only
  repeat' first | with_reducible assumption | with_reducible intro _ | with_reducible apply mem_ite | (fail_if_no_progress with_reducible apply mem_mk) | with_reducible apply each_mem | with_reducible apply next_mem | with_reducible apply fmc_mk_mem | with_reducible apply fmc_only_mem | with_reducible apply fmc_only_act_mem | with_reducible apply fmc_ite_mem | with_reducible apply pldm_mk_mem | with_reducible apply pldm_ite_mem | with_reducible apply id_mem

theorem State.fmcSend_mem {mm : Mem × Mem × SMem} (s : State) (f : Fmc) (cmd : Nat) (body : List Nat) (a : FmcAns) (hmm : s.Mems mm) : (State.fmcSend s f cmd body a).Mems mm := by
  unfold State.fmcSend
  try dsimp only
  repeat' first | with_reducible assumption | with_reducible intro _ | with_reducible apply State.emit_mem | with_reducible apply mem_ite | (fail_if_no_progress with_reducible apply mem_mk)

theorem State.fmcRun_mem {mm : Mem × Mem × SMem} (s : State) (f : Fmc) (cmd : Nat) (body : List Nat) (k : State → FmcAns) (h : s.Mems mm)
    (hk : ∀ s : State, s.Mems mm → FmcMem mm (k s)) : (s.fmcRun f cmd body k).Mems mm := by
  unfold State.fmcRun
  split
  · exact h
  · split
    · split
      · exact State.emit_mem _ _ (State.satFld_mem _ _ _ _ h)
      · exact State.emit_mem _ _ h
    · split
      · exact State.fmcSend_mem _ _ _ _ _ h
      · exact hk s h _ (State.fmcSend_mem _ _ _ _ _ h)

theorem State.setNonce_mem {mm : Mem × Mem × SMem} (s : State) (k : Nat) (v : Option (List Byte)) (hmm : s.Mems mm) : (State.setNonce s k v).Mems mm := by
  unfold State.setNonce
  try dsimp only
  repeat' first | with_reducible assumption | with_reducible intro _ | with_reducible apply mem_ite | (fail_if_no_progress with_reducible apply mem_mk)

theorem State.setDbgNonce_mem {mm : Mem × Mem × SMem} (s : State) (k : Nat) (v : Option (List Byte)) (hmm : s.Mems mm) : (State.setDbgNonce s k v).Mems mm := by
  unfold State.setDbgNonce
  try dsimp only
  repeat' first | with_reducible assumption | with_reducible intro _ | with_reducible apply mem_ite | (fail_if_no_progress with_reducible apply mem_mk)

theorem State.secRecord_mem {mm : Mem × Mem × SMem} (s : State) (sev : Nat) (payload : List Nat) (hmm : s.Mems mm) : (State.secRecord s sev payload).Mems mm := by
  unfold State.secRecord
  try dsimp only
  repeat' first | with_reducible assumption | with_reducible intro _ | with_reducible apply State.trailPut_mem

theorem State.authFail_mem {mm : Mem × Mem × SMem} (s : State) (code : Nat) (hmm : s.Mems mm) : (State.authFail s code).Mems mm := by
  unfold State.authFail
  try dsimp only
  repeat' first | with_reducible assumption | with_reducible intro _ | with_reducible apply State.satFld_mem | with_reducible apply State.event_mem | with_reducible apply State.countErr_mem

theorem execGetNonce_mem {mm : Mem × Mem × SMem} (f : Fmc) (s : State) (hmm : s.Mems mm) : OutMem mm (execGetNonce f s) := by
  unfold execGetNonce
  try dsimp only
  repeat' first | with_reducible assumption | with_reducible intro _ | with_reducible apply State.tick_mem | with_reducible apply State.fmcRun_mem | with_reducible apply State.setNonce_mem | with_reducible apply mem_ite | (fail_if_no_progress with_reducible apply mem_mk) | with_reducible apply each_mem | with_reducible apply next_mem | with_reducible apply fmc_mk_mem

theorem execNonceExpiry_mem {mm : Mem × Mem × SMem} (src : MctpSrc) (s : State) (hmm : s.Mems mm) : OutMem mm (execNonceExpiry src s) := by
  unfold execNonceExpiry
  try dsimp only
  repeat' first | with_reducible assumption | with_reducible intro _ | with_reducible apply State.setNonce_mem | with_reducible apply mem_ite | (fail_if_no_progress with_reducible apply mem_mk) | with_reducible apply each_mem | with_reducible apply next_mem

theorem execTrailRead_mem {mm : Mem × Mem × SMem} (f : Fmc) (slot : Fin 4096) (n : Fin 64) (s : State) (hmm : s.Mems mm) : OutMem mm (execTrailRead f slot n s) := by
  unfold execTrailRead
  try dsimp only
  repeat' first | with_reducible assumption | with_reducible intro _ | with_reducible apply State.fmcRun_mem | with_reducible apply mem_ite | (fail_if_no_progress with_reducible apply mem_mk) | with_reducible apply each_mem | with_reducible apply next_mem | with_reducible apply fmc_mk_mem | with_reducible apply fmc_only_mem | with_reducible apply fmc_only_act_mem | with_reducible apply fmc_ite_mem | with_reducible apply pldm_mk_mem | with_reducible apply pldm_ite_mem | with_reducible apply id_mem

theorem execEventSub_mem {mm : Mem × Mem × SMem} (f : Fmc) (eid : Fin 256) (s : State) (hmm : s.Mems mm) : OutMem mm (execEventSub f eid s) := by
  unfold execEventSub
  try dsimp only
  repeat' first | with_reducible assumption | with_reducible intro _ | with_reducible apply State.fmcRun_mem | with_reducible apply mem_ite | (fail_if_no_progress with_reducible apply mem_mk) | with_reducible apply each_mem | with_reducible apply next_mem | with_reducible apply fmc_mk_mem

theorem State.signed_mem {mm : Mem × Mem × SMem} (s : State) (src : MctpSrc) (msg : List Byte) (g : Signed) (k : State → FmcAns) (h : s.Mems mm)
    (hk : ∀ s : State, s.Mems mm → FmcMem mm (k s)) : FmcMem mm (s.signed src msg g k) := by
  unfold State.signed
  dsimp only
  repeat' apply fmc_ite_mem
  · exact fmc_only_mem
  · exact fmc_mk_mem fun _ h => State.authFail_mem _ _ h
  · exact fmc_mk_mem fun _ h => State.authFail_mem _ _ h
  · exact fmc_mk_mem fun _ h => State.authFail_mem _ _ (State.setNonce_mem _ _ _ h)
  · exact fmc_mk_mem fun _ h1 => State.event_mem _ _ _ (hk s h _ (State.setNonce_mem _ _ _ h1))
  · exact fmc_mk_mem fun _ h => State.setNonce_mem _ _ _ h

theorem State.fmcSigned_mem {mm : Mem × Mem × SMem} (s : State) (f : Fmc) (cmd : Nat) (body : List Nat) (g : Signed) (k : State → FmcAns) (h : s.Mems mm)
    (hk : ∀ s : State, s.Mems mm → FmcMem mm (k s)) : (s.fmcSigned f cmd body g k).Mems mm :=
  State.fmcRun_mem _ _ _ _ _ h fun _ h => State.signed_mem _ _ _ _ _ h hk

theorem State.substitute_mem {mm : Mem × Mem × SMem} (s : State) (fact : FieldFact) (hmm : s.Mems mm) : (State.substitute s fact).Mems mm := by
  unfold State.substitute
  try dsimp only
  repeat' first | with_reducible assumption | with_reducible intro _ | with_reducible apply State.addFact_mem | with_reducible apply mem_ite | (fail_if_no_progress with_reducible apply mem_mk)

theorem execFieldSubst_mem {mm : Mem × Mem × SMem} (f : Fmc) (g : Signed) (tile cluster p : Nat) (s : State) (hmm : s.Mems mm) : OutMem mm (execFieldSubst f g tile cluster p s) := by
  unfold execFieldSubst
  try dsimp only
  repeat' first | with_reducible assumption | with_reducible intro _ | with_reducible apply FmcAns.only_mem | with_reducible apply State.fmcSigned_mem | with_reducible apply State.substitute_mem | with_reducible apply mem_ite | (fail_if_no_progress with_reducible apply mem_mk) | with_reducible apply each_mem | with_reducible apply next_mem | with_reducible apply fmc_mk_mem | with_reducible apply fmc_only_mem | with_reducible apply fmc_only_act_mem | with_reducible apply fmc_ite_mem | with_reducible apply pldm_mk_mem | with_reducible apply pldm_ite_mem | with_reducible apply id_mem | with_reducible refine mem_snd (by with_reducible assumption) ?_ | with_reducible refine mem_fst (by with_reducible assumption) ?_ | with_reducible refine mem_some (by with_reducible assumption) ?_ | with_reducible apply foldl_mem | split

theorem State.mapErase_mem {mm : Mem × Mem × SMem} (s : State) (hmm : s.Mems mm) : (State.mapErase s).Mems mm := by
  unfold State.mapErase
  try dsimp only
  repeat' first | with_reducible assumption | with_reducible intro _ | with_reducible apply State.setFld_mem | with_reducible apply State.secRecord_mem | with_reducible apply mem_ite | (fail_if_no_progress with_reducible apply mem_mk)

theorem execFieldMapClear_mem {mm : Mem × Mem × SMem} (f : Fmc) (g : Signed) (s : State) (hmm : s.Mems mm) : OutMem mm (execFieldMapClear f g s) := by
  unfold execFieldMapClear
  try dsimp only
  repeat' first | with_reducible assumption | with_reducible intro _ | with_reducible apply State.fmcSigned_mem | with_reducible apply State.mapErase_mem | with_reducible apply mem_ite | (fail_if_no_progress with_reducible apply mem_mk) | with_reducible apply each_mem | with_reducible apply next_mem | with_reducible apply fmc_mk_mem

theorem State.fuseStart_mem {mm : Mem × Mem × SMem} (s : State) (kind v : Nat) (hmm : s.Mems mm) : (State.fuseStart s kind v).Mems mm := by
  unfold State.fuseStart
  try dsimp only
  repeat' first | with_reducible assumption | with_reducible intro _ | with_reducible apply mem_ite | (fail_if_no_progress with_reducible apply mem_mk)

theorem execSvnCommit_mem {mm : Mem × Mem × SMem} (f : Fmc) (g : Signed) (s : State) (hmm : s.Mems mm) : OutMem mm (execSvnCommit f g s) := by
  unfold execSvnCommit
  try dsimp only
  repeat' first | with_reducible assumption | with_reducible intro _ | with_reducible apply FmcAns.only_mem | with_reducible apply State.fmcSigned_mem | with_reducible apply State.fuseStart_mem | with_reducible apply mem_ite | (fail_if_no_progress with_reducible apply mem_mk) | with_reducible apply each_mem | with_reducible apply next_mem | with_reducible apply fmc_mk_mem | with_reducible apply fmc_only_mem | with_reducible apply fmc_only_act_mem | with_reducible apply fmc_ite_mem | with_reducible apply pldm_mk_mem | with_reducible apply pldm_ite_mem | with_reducible apply id_mem | with_reducible refine mem_snd (by with_reducible assumption) ?_ | with_reducible refine mem_fst (by with_reducible assumption) ?_ | with_reducible refine mem_some (by with_reducible assumption) ?_ | with_reducible apply foldl_mem | split

theorem execKeyRevoke_mem {mm : Mem × Mem × SMem} (f : Fmc) (g : Signed) (slot : Nat) (s : State) (hmm : s.Mems mm) : OutMem mm (execKeyRevoke f g slot s) := by
  unfold execKeyRevoke
  try dsimp only
  repeat' first | with_reducible assumption | with_reducible intro _ | with_reducible apply FmcAns.only_mem | with_reducible apply State.fmcSigned_mem | with_reducible apply State.fuseStart_mem | with_reducible apply mem_ite | (fail_if_no_progress with_reducible apply mem_mk) | with_reducible apply each_mem | with_reducible apply next_mem | with_reducible apply fmc_mk_mem | with_reducible apply fmc_only_mem | with_reducible apply fmc_only_act_mem | with_reducible apply fmc_ite_mem | with_reducible apply pldm_mk_mem | with_reducible apply pldm_ite_mem | with_reducible apply id_mem | with_reducible refine mem_snd (by with_reducible assumption) ?_ | with_reducible refine mem_fst (by with_reducible assumption) ?_ | with_reducible refine mem_some (by with_reducible assumption) ?_ | with_reducible apply foldl_mem | split

theorem execFuseWriteDone_mem {mm : Mem × Mem × SMem} (s : State) (hmm : s.Mems mm) : OutMem mm (execFuseWriteDone s) := by
  unfold execFuseWriteDone
  try dsimp only
  repeat' first | with_reducible assumption | with_reducible intro _ | with_reducible apply State.secRecord_mem | with_reducible apply mem_ite | (fail_if_no_progress with_reducible apply mem_mk) | with_reducible apply each_mem | with_reducible apply next_mem | with_reducible refine mem_snd (by with_reducible assumption) ?_ | with_reducible refine mem_fst (by with_reducible assumption) ?_ | with_reducible refine mem_some (by with_reducible assumption) ?_ | with_reducible apply foldl_mem | split

theorem execDebugChallenge_mem {mm : Mem × Mem × SMem} (f : Fmc) (s : State) (hmm : s.Mems mm) : OutMem mm (execDebugChallenge f s) := by
  unfold execDebugChallenge
  try dsimp only
  repeat' first | with_reducible assumption | with_reducible intro _ | with_reducible apply State.setDbgNonce_mem | with_reducible apply State.fmcRun_mem | with_reducible apply State.tick_mem | with_reducible apply mem_ite | (fail_if_no_progress with_reducible apply mem_mk) | with_reducible apply each_mem | with_reducible apply next_mem | with_reducible apply fmc_mk_mem

theorem State.unlockScopes_mem {mm : Mem × Mem × SMem} (s : State) (scope : Nat) (hmm : s.Mems mm) : (State.unlockScopes s scope).Mems mm := by
  unfold State.unlockScopes
  try dsimp only
  repeat' first | with_reducible assumption | with_reducible intro _ | with_reducible apply State.setFld_mem | with_reducible apply State.event_mem | with_reducible apply State.secRecord_mem

theorem execDebugUnlock_mem {mm : Mem × Mem × SMem} (f : Fmc) (device nonce : List Byte) (scope : Word) (key sig : List Byte) (s : State) (hmm : s.Mems mm) : OutMem mm (execDebugUnlock f device nonce scope key sig s) := by
  unfold execDebugUnlock
  try dsimp only
  repeat' first | with_reducible assumption | with_reducible intro _ | with_reducible apply State.unlockScopes_mem | with_reducible apply State.authFail_mem | with_reducible apply State.setDbgNonce_mem | with_reducible apply State.fmcRun_mem | with_reducible apply FmcAns.only_mem | with_reducible apply mem_ite | (fail_if_no_progress with_reducible apply mem_mk) | with_reducible apply each_mem | with_reducible apply next_mem | with_reducible apply fmc_mk_mem | with_reducible apply fmc_only_mem | with_reducible apply fmc_only_act_mem | with_reducible apply fmc_ite_mem | with_reducible apply id_mem | with_reducible refine mem_snd (by with_reducible assumption) ?_ | with_reducible refine mem_fst (by with_reducible assumption) ?_ | with_reducible refine mem_some (by with_reducible assumption) ?_ | with_reducible apply foldl_mem | split

theorem execMctpControl_mem {mm : Mem × Mem × SMem} (src : MctpSrc) (op : MctpOp) (s : State) (hmm : s.Mems mm) : OutMem mm (execMctpControl src op s) := by
  unfold execMctpControl
  try dsimp only
  repeat' first | with_reducible assumption | with_reducible intro _ | with_reducible apply State.setFld_mem | with_reducible apply State.emit_mem | with_reducible apply mem_ite | (fail_if_no_progress with_reducible apply mem_mk) | with_reducible apply each_mem | with_reducible apply next_mem | with_reducible refine mem_snd (by with_reducible assumption) ?_ | with_reducible refine mem_fst (by with_reducible assumption) ?_ | with_reducible refine mem_some (by with_reducible assumption) ?_ | with_reducible apply foldl_mem | split

theorem execI3cAddressAssign_mem {mm : Mem × Mem × SMem} (a : I3cAssign) (s : State) (hmm : s.Mems mm) : OutMem mm (execI3cAddressAssign a s) := by
  unfold execI3cAddressAssign
  try dsimp only
  repeat' first | with_reducible assumption | with_reducible intro _ | with_reducible apply State.setFld_mem | with_reducible apply mem_ite | (fail_if_no_progress with_reducible apply mem_mk) | with_reducible apply each_mem | with_reducible apply next_mem

/-! Security. -/

theorem State.pldmRun_mem {mm : Mem × Mem × SMem} (s : State) (src : MctpSrc) (inst : Nat) (body : List Nat) (k : State → PldmAns) (h : s.Mems mm)
    (hk : ∀ s : State, s.Mems mm → PldmMem mm (k s)) : (s.pldmRun src inst body k).Mems mm := by
  have hf : ((k s).act (State.emit { s with mgt := { s.mgt with pldm := Tab.set pldm0 s.mgt.pldm (srcKey src) (some ⟨inst, body, (k s).code, (k s).data⟩) } }
      (.pldm (srcKey src) (k s).code (k s).data))).Mems mm := hk s h _ (State.emit_mem _ _ (mem_mk h))
  unfold State.pldmRun
  split
  · exact h
  · refine mem_ite (State.emit_mem _ _ h) ?_
    split
    · split
      · exact State.emit_mem _ _ h
      · exact hf
    · exact hf

theorem execPldmMonitorRequest_mem {mm : Mem × Mem × SMem} (src : MctpSrc) (inst : Nat) (op : PldmOp) (s : State) (hmm : s.Mems mm) : OutMem mm (execPldmMonitorRequest src inst op s) := by
  unfold execPldmMonitorRequest
  try dsimp only
  repeat' first | with_reducible assumption | with_reducible intro _ | with_reducible apply State.pldmRun_mem | with_reducible apply mem_ite | (fail_if_no_progress with_reducible apply mem_mk) | with_reducible apply each_mem | with_reducible apply next_mem | with_reducible apply fmc_mk_mem | with_reducible apply fmc_only_mem | with_reducible apply fmc_only_act_mem | with_reducible apply fmc_ite_mem | with_reducible apply pldm_mk_mem | with_reducible apply pldm_ite_mem | with_reducible apply id_mem | with_reducible refine mem_snd (by with_reducible assumption) ?_ | with_reducible refine mem_fst (by with_reducible assumption) ?_ | with_reducible refine mem_some (by with_reducible assumption) ?_ | with_reducible apply foldl_mem | split

theorem State.setUpdate_mem {mm : Mem × Mem × SMem} (s : State) (u : Option Update) (hmm : s.Mems mm) : (State.setUpdate s u).Mems mm := by
  unfold State.setUpdate
  try dsimp only
  repeat' first | with_reducible assumption | with_reducible intro _ | with_reducible apply mem_ite | (fail_if_no_progress with_reducible apply mem_mk)

theorem State.updateStart_mem {mm : Mem × Mem × SMem} (s : State) (comp : Nat) (hmm : s.Mems mm) : (State.updateStart s comp).Mems mm := by
  unfold State.updateStart
  try dsimp only
  repeat' first | with_reducible assumption | with_reducible intro _ | with_reducible apply State.setUpdate_mem | with_reducible apply State.emit_mem

theorem execPldmUpdateComponent_mem {mm : Mem × Mem × SMem} (src : MctpSrc) (inst comp : Nat) (s : State) (hmm : s.Mems mm) : OutMem mm (execPldmUpdateComponent src inst comp s) := by
  unfold execPldmUpdateComponent
  try dsimp only
  repeat' first | with_reducible assumption | with_reducible intro _ | with_reducible apply State.pldmRun_mem | with_reducible apply State.updateStart_mem | with_reducible apply mem_ite | (fail_if_no_progress with_reducible apply mem_mk) | with_reducible apply each_mem | with_reducible apply next_mem | with_reducible apply fmc_mk_mem | with_reducible apply fmc_only_mem | with_reducible apply fmc_only_act_mem | with_reducible apply fmc_ite_mem | with_reducible apply pldm_mk_mem | with_reducible apply pldm_ite_mem | with_reducible apply id_mem | with_reducible refine mem_snd (by with_reducible assumption) ?_ | with_reducible refine mem_fst (by with_reducible assumption) ?_ | with_reducible refine mem_some (by with_reducible assumption) ?_ | with_reducible apply foldl_mem | split

theorem execPldmFirmwareData_mem {mm : Mem × Mem × SMem} (data : List Byte) (s : State) (hmm : s.Mems mm) : OutMem mm (execPldmFirmwareData data s) := by
  unfold execPldmFirmwareData
  try dsimp only
  repeat' first | with_reducible assumption | with_reducible intro _ | with_reducible apply State.setUpdate_mem | with_reducible apply State.emit_mem | with_reducible apply mem_ite | (fail_if_no_progress with_reducible apply mem_mk) | with_reducible apply each_mem | with_reducible apply next_mem | with_reducible refine mem_snd (by with_reducible assumption) ?_ | with_reducible refine mem_fst (by with_reducible assumption) ?_ | with_reducible refine mem_some (by with_reducible assumption) ?_ | with_reducible apply foldl_mem | split

theorem execPldmVerifyComplete_mem {mm : Mem × Mem × SMem} (back : Option (List Byte)) (s : State) (hmm : s.Mems mm) : OutMem mm (execPldmVerifyComplete back s) := by
  unfold execPldmVerifyComplete
  try dsimp only
  repeat' first | with_reducible assumption | with_reducible intro _ | with_reducible apply State.setUpdate_mem | with_reducible apply State.emit_mem | with_reducible apply mem_ite | (fail_if_no_progress with_reducible apply mem_mk) | with_reducible apply each_mem | with_reducible apply next_mem | with_reducible refine mem_snd (by with_reducible assumption) ?_ | with_reducible refine mem_fst (by with_reducible assumption) ?_ | with_reducible refine mem_some (by with_reducible assumption) ?_ | with_reducible apply foldl_mem | split

theorem State.activate_mem {mm : Mem × Mem × SMem} (s : State) (hmm : s.Mems mm) : (State.activate s).Mems mm := by
  unfold State.activate
  try dsimp only
  repeat' first | with_reducible assumption | with_reducible intro _ | with_reducible apply State.emit_mem | with_reducible apply State.secRecord_mem | with_reducible apply State.setUpdate_mem

theorem execPldmActivateFirmware_mem {mm : Mem × Mem × SMem} (src : MctpSrc) (inst : Nat) (s : State) (hmm : s.Mems mm) : OutMem mm (execPldmActivateFirmware src inst s) := by
  unfold execPldmActivateFirmware
  try dsimp only
  repeat' first | with_reducible assumption | with_reducible intro _ | with_reducible apply State.complete_mem | with_reducible apply State.pldmRun_mem | with_reducible apply State.activate_mem | with_reducible apply mem_ite | (fail_if_no_progress with_reducible apply mem_mk) | with_reducible apply each_mem | with_reducible apply next_mem | with_reducible apply fmc_mk_mem | with_reducible apply fmc_only_mem | with_reducible apply fmc_only_act_mem | with_reducible apply fmc_ite_mem | with_reducible apply pldm_mk_mem | with_reducible apply pldm_ite_mem | with_reducible apply id_mem | with_reducible refine mem_snd (by with_reducible assumption) ?_ | with_reducible refine mem_fst (by with_reducible assumption) ?_ | with_reducible refine mem_some (by with_reducible assumption) ?_ | with_reducible apply foldl_mem | split

theorem State.respDown_mem {mm : Mem × Mem × SMem} (s : State) (r : Responder) (hmm : s.Mems mm) : (State.respDown s r).Mems mm := by
  unfold State.respDown
  try dsimp only
  repeat' first | with_reducible assumption | with_reducible intro _ | with_reducible apply State.emit_mem | with_reducible apply mem_ite | (fail_if_no_progress with_reducible apply mem_mk) | with_reducible apply each_mem | with_reducible refine mem_snd (by with_reducible assumption) ?_ | with_reducible refine mem_fst (by with_reducible assumption) ?_ | with_reducible refine mem_some (by with_reducible assumption) ?_ | with_reducible apply foldl_mem | split

theorem State.setSessions_mem {mm : Mem × Mem × SMem} (s : State) (k n : Nat) (hmm : s.Mems mm) : (State.setSessions s k n).Mems mm := by
  unfold State.setSessions
  try dsimp only
  repeat' first | with_reducible assumption | with_reducible intro _ | with_reducible apply State.setFld_mem | with_reducible apply mem_ite | (fail_if_no_progress with_reducible apply mem_mk)

theorem execSpdmRequest_mem {mm : Mem × Mem × SMem} (r : Responder) (op : SpdmOp) (s : State) (hmm : s.Mems mm) : OutMem mm (execSpdmRequest r op s) := by
  unfold execSpdmRequest
  try dsimp only
  repeat' first | with_reducible assumption | with_reducible intro _ | with_reducible apply State.setSessions_mem | with_reducible apply State.respDown_mem | with_reducible apply State.emit_mem | with_reducible apply mem_ite | (fail_if_no_progress with_reducible apply mem_mk) | with_reducible apply each_mem | with_reducible apply next_mem | with_reducible refine mem_snd (by with_reducible assumption) ?_ | with_reducible refine mem_fst (by with_reducible assumption) ?_ | with_reducible refine mem_some (by with_reducible assumption) ?_ | with_reducible apply foldl_mem | split

theorem State.setIde_mem {mm : Mem × Mem × SMem} (s : State) (port i v : Nat) (hmm : s.Mems mm) : (State.setIde s port i v).Mems mm := by
  unfold State.setIde
  try dsimp only
  repeat' first | with_reducible assumption | with_reducible intro _ | with_reducible apply mem_ite | (fail_if_no_progress with_reducible apply mem_mk)

theorem execIdeKmRequest_mem {mm : Mem × Mem × SMem} (port : Fin 4) (stream : Fin 5) (op : IdeOp) (s : State) (hmm : s.Mems mm) : OutMem mm (execIdeKmRequest port stream op s) := by
  unfold execIdeKmRequest
  try dsimp only
  repeat' first | with_reducible assumption | with_reducible intro _ | with_reducible apply State.setIde_mem | with_reducible apply State.respDown_mem | with_reducible apply State.emit_mem | with_reducible apply mem_ite | (fail_if_no_progress with_reducible apply mem_mk) | with_reducible apply each_mem | with_reducible apply next_mem | with_reducible refine mem_snd (by with_reducible assumption) ?_ | with_reducible refine mem_fst (by with_reducible assumption) ?_ | with_reducible refine mem_some (by with_reducible assumption) ?_ | with_reducible apply foldl_mem | split

/-! RegView. -/

theorem State.fcSnap_mem {mm : Mem × Mem × SMem} (s : State) (hmm : s.Mems mm) : (State.fcSnap s).Mems mm := by
  unfold State.fcSnap
  try dsimp only
  repeat' first | with_reducible assumption | with_reducible intro _ | with_reducible apply State.setFld_mem | with_reducible apply State.each_mem | with_reducible apply mem_ite | (fail_if_no_progress with_reducible apply mem_mk) | with_reducible apply each_mem

theorem State.readReg_mem {mm : Mem × Mem × SMem} (s : State) (pg : Nat) (i : PageInfo) (off : Nat) (tenant : Bool) (hmm : s.Mems mm) : (State.readReg s pg i off tenant).2.Mems mm := by
  unfold State.readReg
  try dsimp only
  repeat' first | with_reducible assumption | with_reducible intro _ | with_reducible apply State.fcSnap_mem | with_reducible apply mem_ite | (fail_if_no_progress with_reducible apply mem_mk) | with_reducible apply each_mem | with_reducible apply next_mem | with_reducible refine mem_snd (by with_reducible assumption) ?_ | with_reducible refine mem_fst (by with_reducible assumption) ?_ | with_reducible refine mem_some (by with_reducible assumption) ?_ | with_reducible apply foldl_mem | split

theorem State.readDword_mem {mm : Mem × Mem × SMem} (s : State) (pg off : Nat) (tenant : Bool) (hmm : s.Mems mm) : (State.readDword s pg off tenant).2.Mems mm := by
  unfold State.readDword
  try dsimp only
  repeat' first | with_reducible assumption | with_reducible intro _ | with_reducible apply State.readReg_mem | with_reducible apply mem_ite | (fail_if_no_progress with_reducible apply mem_mk) | with_reducible apply each_mem | with_reducible apply next_mem | with_reducible refine mem_snd (by with_reducible assumption) ?_ | with_reducible refine mem_fst (by with_reducible assumption) ?_ | with_reducible refine mem_some (by with_reducible assumption) ?_ | with_reducible apply foldl_mem | split

theorem State.readDwords_mem {mm : Mem × Mem × SMem} (s : State) (pg off : Nat) (tenant : Bool) (n : Nat) (h : s.Mems mm) :
    (s.readDwords pg off tenant n).2.Mems mm := by
  induction n generalizing s off with
  | zero => exact h
  | succ k ih => exact ih _ _ (State.readDword_mem _ _ _ _ h)

theorem State.answerRead_mem {mm : Mem × Mem × SMem} (s : State) (rq : Nat) (addr n : Nat) (tenant : Bool) (hmm : s.Mems mm) : (State.answerRead s rq addr n tenant).Mems mm := by
  unfold State.answerRead
  try dsimp only
  repeat' first | with_reducible assumption | with_reducible intro _ | with_reducible apply State.readDwords_mem | with_reducible apply State.emit_mem

theorem State.privRead_mem {mm : Mem × Mem × SMem} (s : State) (rq : Requester) (addr n : Nat) (hmm : s.Mems mm) : (State.privRead s rq addr n).Mems mm := by
  unfold State.privRead
  try dsimp only
  repeat' first | with_reducible assumption | with_reducible intro _ | with_reducible apply State.answerRead_mem | with_reducible apply State.hold_mem | with_reducible apply mem_ite

theorem State.readReq_mem {mm : Mem × Mem × SMem} (s : State) (rq : Requester) (addr n : Nat) (hmm : s.Mems mm) : (State.readReq s rq addr n).Mems mm := by
  unfold State.readReq
  try dsimp only
  repeat' first | with_reducible assumption | with_reducible intro _ | with_reducible apply State.privRead_mem | with_reducible apply State.answerRead_mem | with_reducible apply State.emit_mem | with_reducible apply mem_ite | (fail_if_no_progress with_reducible apply mem_mk) | with_reducible apply each_mem | with_reducible refine mem_snd (by with_reducible assumption) ?_ | with_reducible refine mem_fst (by with_reducible assumption) ?_ | with_reducible refine mem_some (by with_reducible assumption) ?_ | with_reducible apply foldl_mem | split

theorem State.readLost_mem {mm : Mem × Mem × SMem} (s : State) (rq : Requester) (hmm : s.Mems mm) : (State.readLost s rq).Mems mm := by
  unfold State.readLost
  try dsimp only
  repeat' first | with_reducible assumption | with_reducible intro _ | with_reducible apply State.emit_mem | with_reducible apply mem_ite | (fail_if_no_progress with_reducible apply mem_mk) | with_reducible apply each_mem | with_reducible apply next_mem | with_reducible refine mem_snd (by with_reducible assumption) ?_ | with_reducible refine mem_fst (by with_reducible assumption) ?_ | with_reducible refine mem_some (by with_reducible assumption) ?_ | with_reducible apply foldl_mem | split

theorem State.readFrom_mem {mm : Mem × Mem × SMem} (s : State) (rq : Requester) (addr n : Nat) (hmm : s.Mems mm) : (State.readFrom s rq addr n).Mems mm := by
  unfold State.readFrom
  try dsimp only
  repeat' first | with_reducible assumption | with_reducible intro _ | with_reducible apply State.readLost_mem | with_reducible apply State.readReq_mem | with_reducible apply mem_ite

theorem execRegisterRead_mem {mm : Mem × Mem × SMem} (src : RegSrc) (addr : BitVec 28) (n : Nat) (s : State) (hmm : s.Mems mm) : OutMem mm (execRegisterRead src addr n s) := by
  unfold execRegisterRead
  try dsimp only
  repeat' first | with_reducible assumption | with_reducible intro _ | with_reducible apply State.readFrom_mem | with_reducible apply State.emit_mem | with_reducible apply mem_ite | (fail_if_no_progress with_reducible apply mem_mk) | with_reducible apply each_mem | with_reducible apply next_mem | with_reducible refine mem_snd (by with_reducible assumption) ?_ | with_reducible refine mem_fst (by with_reducible assumption) ?_ | with_reducible refine mem_some (by with_reducible assumption) ?_ | with_reducible apply foldl_mem | split

/-! RegHooks. -/

theorem State.fmcRead_mem {mm : Mem × Mem × SMem} (s : State) (f : Fmc) (a n : Nat) (hmm : s.Mems mm) : (State.fmcRead s f a n).Mems mm := by
  unfold State.fmcRead
  try dsimp only
  repeat' first | with_reducible assumption | with_reducible intro _ | with_reducible apply State.readDwords_mem | with_reducible apply State.fmcRun_mem | with_reducible apply FmcAns.only_mem | with_reducible apply mem_ite | (fail_if_no_progress with_reducible apply mem_mk) | with_reducible apply each_mem | with_reducible apply fmc_mk_mem | with_reducible apply fmc_only_mem | with_reducible apply fmc_only_act_mem | with_reducible apply fmc_ite_mem | with_reducible apply id_mem | with_reducible refine mem_snd (by with_reducible assumption) ?_ | with_reducible refine mem_fst (by with_reducible assumption) ?_ | with_reducible refine mem_some (by with_reducible assumption) ?_ | with_reducible apply foldl_mem | split

theorem execRegRead_mem {mm : Mem × Mem × SMem} (f : Fmc) (addr : BitVec 28) (n : Nat) (s : State) (hmm : s.Mems mm) : OutMem mm (execRegRead f addr n s) := by
  unfold execRegRead
  try dsimp only
  repeat' first | with_reducible assumption | with_reducible intro _ | with_reducible apply State.fmcRead_mem | with_reducible apply State.hold_mem | with_reducible apply mem_ite | (fail_if_no_progress with_reducible apply mem_mk) | with_reducible apply each_mem | with_reducible apply next_mem

end Sys2Proof.Machine
end

