-- ==== Sys2Proof/Laws/MemLand.lean ====
section
/-! SUPPORT. The commands of `mayLand`: they change no byte but those that the waiting aperture writes of one host port bring (05 R114; 06 R126). One lemma per command. -/
namespace Sys2Proof.Machine

/-- The three memories. -/
def State.mems (s : State) : Mem × Mem × SMem := (s.hmp, s.stores, s.slices)

/-- `t` has the memories of `s`, or those that `s` has once the waiting writes of one port have landed. -/
def State.LandMem (s t : State) : Prop := t.Mems s.mems ∨ ∃ k, t.Mems (s.landClient k).mems

def OutLand (s : State) (o : Host.Outcome State Fault Refusal) : Prop := ∀ t, o = .next t → s.LandMem t

theorem State.mems_self (s : State) : s.Mems s.mems := ⟨rfl, rfl, rfl⟩

theorem next_land {s t : State} (h : s.LandMem t) : OutLand s (.next t) := by
  intro u e; cases e; exact h

theorem State.land_refl (s : State) : s.LandMem s := .inl s.mems_self

theorem State.landMem_ite {s a b : State} {c : Prop} [Decidable c] (h1 : s.LandMem a) (h2 : s.LandMem b) : s.LandMem (if c then a else b) := by
  split <;> assumption

/-- What runs after a requester's port has landed its writes. -/
theorem State.landFor_land (s : State) (rq : Requester) (k : State → State) (hk : ∀ mm (u : State), u.Mems mm → (k u).Mems mm) :
    s.LandMem (k (s.landFor rq)) := by
  cases rq
  all_goals first
    | exact .inl (hk _ _ s.mems_self)
    | exact .inr ⟨_, hk _ _ (State.mems_self _)⟩

theorem State.landClient_land (s : State) (n : Nat) (k : State → State) (hk : ∀ mm (u : State), u.Mems mm → (k u).Mems mm) :
    s.LandMem (k (s.landClient n)) := .inr ⟨n, hk _ _ (State.mems_self _)⟩

theorem State.privWrite_land (s : State) (rq : Requester) (pg off : Nat) (k : State → State)
    (hk : ∀ mm (u : State), u.Mems mm → (k u).Mems mm) : s.LandMem (s.privWrite rq pg off k) :=
  State.landMem_ite (s.landFor_land rq (·.privApply rq pg off k) fun mm u h => State.privApply_mem u rq pg off k h (hk mm)) s.land_refl

theorem State.tileWrite_land (s : State) (rq : Requester) (pg off : Nat) (c : Held) (k : State → State)
    (hk : ∀ mm (u : State), u.Mems mm → (k u).Mems mm) : s.LandMem (s.tileWrite rq pg off c k) :=
  State.privWrite_land s rq pg off _ fun mm u h => mem_ite (State.hold_mem u pg c h) (hk mm u h)

theorem State.tenWrite_land (s : State) (rq : Requester) (n k off : Nat) (f : State → State)
    (hf : ∀ mm (u : State), u.Mems mm → (f u).Mems mm) : s.LandMem (s.tenWrite rq n k off f) := by
  cases rq with
  | tenant m => exact State.landMem_ite (.inr ⟨_, State.tenApply_mem _ m n f (State.mems_self _) (hf _)⟩) s.land_refl
  | _ => exact State.privWrite_land s _ _ _ f hf

theorem execBootPushGo_land (rq : Requester) (s : State) : OutLand s (execBootPushGo rq s) := by
  unfold execBootPushGo
  try dsimp only
  refine next_land (State.privWrite_land _ _ _ _ _ fun mm u h => ?_)
  repeat' first | with_reducible assumption | with_reducible intro _ | with_reducible apply State.pushGo_mem

theorem execLnkRetrain_land (rq : Requester) (t : Fin 8) (d : Fin 4) (s : State) : OutLand s (execLnkRetrain rq t d s) := by
  unfold execLnkRetrain
  try dsimp only
  refine next_land (State.tileWrite_land _ _ _ _ _ _ fun mm u h => ?_)
  repeat' first | with_reducible assumption | with_reducible intro _ | with_reducible apply State.lnkRetrainWrite_mem

theorem execLnkClrCnt_land (rq : Requester) (t : Fin 8) (d : Fin 4) (s : State) : OutLand s (execLnkClrCnt rq t d s) := by
  unfold execLnkClrCnt
  try dsimp only
  refine next_land (State.tileWrite_land _ _ _ _ _ _ fun mm u h => ?_)
  repeat' first | with_reducible assumption | with_reducible intro _ | with_reducible apply State.lnkCntClear_mem

theorem execSerRetrain_land (rq : Requester) (t : Fin 8) (hub : Bool) (s : State) : OutLand s (execSerRetrain rq t hub s) := by
  unfold execSerRetrain
  try dsimp only
  refine next_land (State.tileWrite_land _ _ _ _ _ _ fun mm u h => ?_)
  repeat' first | with_reducible assumption | with_reducible intro _ | with_reducible apply State.lnkRetrainWrite_mem

theorem execSerClrCnt_land (rq : Requester) (t : Fin 8) (hub : Bool) (s : State) : OutLand s (execSerClrCnt rq t hub s) := by
  unfold execSerClrCnt
  try dsimp only
  refine next_land (State.tileWrite_land _ _ _ _ _ _ fun mm u h => ?_)
  repeat' first | with_reducible assumption | with_reducible intro _ | with_reducible apply State.serCntClear_mem

theorem State.apReadFrom_land (s : State) (n : Fin 128) (off len : Nat) (atomic : Bool) : s.LandMem (s.apReadFrom n off len atomic) := by
  have he : ∀ o, s.LandMem (s.emit o) := fun o => .inl (State.emit_mem _ _ s.mems_self)
  exact State.landMem_ite (he _) (State.landMem_ite s.land_refl (State.landMem_ite (he _) (State.landMem_ite (he _)
    (s.landClient_land _ (·.tenApRead n off len) fun _ u h => State.tenApRead_mem u _ _ _ h))))

theorem execApertureRead_land (src : ApSrc) (off : BitVec 28) (r : ApRead) (s : State) :
    OutLand s (execApertureRead src off r s) := by
  have he : ∀ o, s.LandMem (s.emit o) := fun o => .inl (State.emit_mem _ _ s.mems_self)
  refine next_land ?_
  cases src with
  | tenant n rid => exact s.apReadFrom_land n _ _ _
  | vf p v rid =>
    dsimp only
    split
    · exact s.apReadFrom_land _ _ _ _
    · exact State.landMem_ite (he _) (State.landMem_ite s.land_refl (State.landMem_ite (he _) (he _)))
  | hpc h va k => exact .inl (State.hpcRead_mem _ _ _ _ _ s.mems_self)
  | pf p =>
    exact State.landMem_ite (he _) (State.landMem_ite s.land_refl (State.landMem_ite (he _) (State.landMem_ite (he _)
      (s.landClient_land _ (·.ownApRead p off.toNat r.len) fun _ u h => State.ownApRead_mem u _ _ _ h))))

theorem execHmpTqQuery_land (rq : Requester) (n : Fin 128) (slot : BitVec 12) (s : State) : OutLand s (execHmpTqQuery rq n slot s) := by
  unfold execHmpTqQuery
  try dsimp only
  refine next_land (State.tenWrite_land _ _ _ _ _ _ fun mm u h => ?_)
  repeat' first | with_reducible assumption | with_reducible intro _ | with_reducible apply State.slotQuery_mem

theorem execDoorbell_land (rq : Requester) (n : Fin 128) (q : Fin 8) (v : BitVec 16) (s : State) : OutLand s (execDoorbell rq n q v s) := by
  unfold execDoorbell
  try dsimp only
  refine next_land (State.tenWrite_land _ _ _ _ _ _ fun mm u h => ?_)
  repeat' first | with_reducible assumption | with_reducible intro _ | with_reducible apply State.doorbell_mem

theorem execCqHeadWrite_land (rq : Requester) (n : Fin 128) (q : Fin 8) (v : BitVec 16) (s : State) : OutLand s (execCqHeadWrite rq n q v s) := by
  unfold execCqHeadWrite
  try dsimp only
  refine next_land (State.tenWrite_land _ _ _ _ _ _ fun mm u h => ?_)
  repeat' first | with_reducible assumption | with_reducible intro _ | with_reducible apply State.cqHeadWrite_mem

theorem execTenantCancel_land (rq : Requester) (n : Fin 128) (q : Fin 8) (all : Bool) (s : State) : OutLand s (execTenantCancel rq n q all s) := by
  unfold execTenantCancel
  try dsimp only
  refine next_land (State.tenWrite_land _ _ _ _ _ _ fun mm u h => ?_)
  repeat' first | with_reducible assumption | with_reducible intro _ | with_reducible apply State.cancel_mem

theorem execQueueEnable_land (rq : Requester) (n : Fin 128) (q : Fin 8) (cfg : Word) (s : State) : OutLand s (execQueueEnable rq n q cfg s) := by
  unfold execQueueEnable
  try dsimp only
  refine next_land (State.tenWrite_land _ _ _ _ _ _ fun mm u h => ?_)
  repeat' first | with_reducible assumption | with_reducible intro _ | with_reducible apply State.sqCfgWrite_mem

theorem execQueueDisable_land (rq : Requester) (n : Fin 128) (q : Fin 8) (cfg : Word) (s : State) : OutLand s (execQueueDisable rq n q cfg s) := by
  unfold execQueueDisable
  try dsimp only
  refine next_land (State.tenWrite_land _ _ _ _ _ _ fun mm u h => ?_)
  repeat' first | with_reducible assumption | with_reducible intro _ | with_reducible apply State.sqCfgWrite_mem

theorem execHpcGrantWrite_land (rq : Requester) (h : Fin 16) (v : Word) (s : State) : OutLand s (execHpcGrantWrite rq h v s) := by
  unfold execHpcGrantWrite
  try dsimp only
  refine next_land (State.privWrite_land _ _ _ _ _ fun mm u h => ?_)
  repeat' first | with_reducible assumption | with_reducible intro _ | with_reducible apply State.hpcGrant_mem

theorem execHpcStart_land (rq : Requester) (h : Fin 16) (s : State) : OutLand s (execHpcStart rq h s) := by
  unfold execHpcStart
  try dsimp only
  refine next_land (State.privWrite_land _ _ _ _ _ fun mm u h => ?_)
  repeat' first | with_reducible assumption | with_reducible intro _ | with_reducible apply State.hpcStart_mem

theorem execHpcStop_land (rq : Requester) (h : Fin 16) (s : State) : OutLand s (execHpcStop rq h s) := by
  unfold execHpcStop
  try dsimp only
  refine next_land (State.privWrite_land _ _ _ _ _ fun mm u h => ?_)
  repeat' first | with_reducible assumption | with_reducible intro _ | with_reducible apply State.hpcStop_mem

theorem execSpareAssignWrite_land (rq : Requester) (x : Fin 512) (v : Word) (s : State) : OutLand s (execSpareAssignWrite rq x v s) := by
  unfold execSpareAssignWrite
  try dsimp only
  refine next_land (State.tileWrite_land _ _ _ _ _ _ fun mm u h => ?_)
  repeat' first | with_reducible assumption | with_reducible intro _ | with_reducible apply State.spareWrite_mem

theorem execPoolEnable_land (rq : Requester) (p : Fin 8) (v : Word) (s : State) : OutLand s (execPoolEnable rq p v s) := by
  unfold execPoolEnable
  try dsimp only
  apply next_land; split
  all_goals first | exact s.land_refl | refine State.privWrite_land _ _ _ _ _ fun mm u h => ?_
  repeat' first | with_reducible assumption | with_reducible intro _ | with_reducible apply State.poolCfgWrite_mem

theorem execPoolDisable_land (rq : Requester) (p : Fin 8) (v : Word) (s : State) : OutLand s (execPoolDisable rq p v s) := by
  unfold execPoolDisable
  try dsimp only
  apply next_land; split
  all_goals first | exact s.land_refl | refine State.privWrite_land _ _ _ _ _ fun mm u h => ?_
  repeat' first | with_reducible assumption | with_reducible intro _ | with_reducible apply State.poolCfgWrite_mem

theorem execKvwFlush_land (rq : Requester) (cl : Fin 64) (s : State) : OutLand s (execKvwFlush rq cl s) := by
  unfold execKvwFlush
  try dsimp only
  refine next_land (State.tileWrite_land _ _ _ _ _ _ fun mm u h => ?_)
  repeat' first | with_reducible assumption | with_reducible intro _ | with_reducible apply State.labRemove_mem

theorem execVceBist_land (rq : Requester) (n : Fin 4) (s : State) : OutLand s (execVceBist rq n s) := by
  unfold execVceBist
  try dsimp only
  refine next_land (State.privWrite_land _ _ _ _ _ fun mm u h => ?_)
  repeat' first | with_reducible assumption | with_reducible intro _ | with_reducible apply State.vceBist_mem

theorem execVceEngineReset_land (rq : Requester) (n : Fin 4) (s : State) : OutLand s (execVceEngineReset rq n s) := by
  unfold execVceEngineReset
  try dsimp only
  refine next_land (State.privWrite_land _ _ _ _ _ fun mm u h => ?_)
  repeat' first | with_reducible assumption | with_reducible intro _ | with_reducible apply State.vceReset_mem

theorem execCeWindowWrite_land (rq : Requester) (m : ScbId) (v : Word) (s : State) : OutLand s (execCeWindowWrite rq m v s) := by
  unfold execCeWindowWrite
  try dsimp only
  refine next_land (State.tileWrite_land _ _ _ _ _ _ fun mm u h => ?_)
  repeat' first | with_reducible assumption | with_reducible intro _ | with_reducible apply State.ceCfgWrite_mem

theorem execMemorySelfTest_land (rq : Requester) (m : ScbId) (v : Word) (s : State) : OutLand s (execMemorySelfTest rq m v s) := by
  unfold execMemorySelfTest
  try dsimp only
  refine next_land (State.tileWrite_land _ _ _ _ _ _ fun mm u h => ?_)
  repeat' first | with_reducible assumption | with_reducible intro _ | with_reducible apply State.bistWrite_mem

theorem execFaultLogClear_land (rq : Requester) (n : Fin 128) (s : State) : OutLand s (execFaultLogClear rq n s) := by
  unfold execFaultLogClear
  try dsimp only
  refine next_land (State.privWrite_land _ _ _ _ _ fun mm u h => ?_)
  repeat' first | with_reducible assumption | with_reducible intro _ | with_reducible apply State.flogClear_mem

theorem execPwrLimitWrite_land (rq : Requester) (v : Word) (s : State) : OutLand s (execPwrLimitWrite rq v s) := by
  unfold execPwrLimitWrite
  try dsimp only
  refine next_land (State.privWrite_land _ _ _ _ _ fun mm u h => ?_)
  repeat' first | with_reducible assumption | with_reducible intro _ | with_reducible apply State.pwrLimit_mem

theorem execPwrTReqWrite_land (rq : Requester) (t : Fin 8) (v : Word) (s : State) : OutLand s (execPwrTReqWrite rq t v s) := by
  unfold execPwrTReqWrite
  try dsimp only
  refine next_land (State.tileWrite_land _ _ _ _ _ _ fun mm u h => ?_)
  repeat' first | with_reducible assumption | with_reducible intro _ | with_reducible apply State.pwrReq_mem

theorem execFloorRelease_land (rq : Requester) (s : State) : OutLand s (execFloorRelease rq s) := by
  unfold execFloorRelease
  try dsimp only
  refine next_land (State.privWrite_land _ _ _ _ _ fun mm u h => ?_)
  repeat' first | with_reducible assumption | with_reducible intro _ | with_reducible apply State.thmRelease_mem

theorem execThmCfgWrite_land (rq : Requester) (v : Word) (s : State) : OutLand s (execThmCfgWrite rq v s) := by
  unfold execThmCfgWrite
  try dsimp only
  refine next_land (State.privWrite_land _ _ _ _ _ fun mm u h => ?_)
  repeat' first | with_reducible assumption | with_reducible intro _ | with_reducible apply State.thmCfg_mem

theorem execEnergyTableClear_land (rq : Requester) (s : State) : OutLand s (execEnergyTableClear rq s) := by
  unfold execEnergyTableClear
  try dsimp only
  refine next_land (State.privWrite_land _ _ _ _ _ fun mm u h => ?_)
  repeat' first | with_reducible assumption | with_reducible intro _ | with_reducible apply mem_ite | (fail_if_no_progress with_reducible apply mem_mk)

/-- A change of owner lands the old owner's writes, whatever the marks of the command before it. -/
theorem State.ownerMove_land (s u : State) (p : Nat) (hm : u.Mems s.mems) (ho : u.owner = s.owner) (hp : u.hmpPend = s.hmpPend) :
    s.LandMem (u.ownerMove p) := by
  have h1 : (u.landClient u.owner).Mems (s.landClient s.owner).mems := by
    obtain ⟨h1, h2, h3⟩ := hm
    refine ⟨?_, h2, h3⟩
    change List.foldl Mem.land u.hmp _ = List.foldl Mem.land s.hmp _
    rw [h1, ho, hp]; rfl
  refine .inr ⟨s.owner, ?_⟩
  unfold State.ownerMove
  dsimp only
  generalize u.landClient u.owner = w at h1 ⊢
  repeat' first | with_reducible assumption | with_reducible intro _ | with_reducible apply State.secRecord_mem | with_reducible apply State.satFld_mem | with_reducible apply State.setFld_mem | with_reducible apply State.setFn_mem | with_reducible apply each_mem | with_reducible apply State.clearDone_mem

theorem execTrlIdxWrite_land (rq : Requester) (v : Word) (s : State) : OutLand s (execTrlIdxWrite rq v s) := by
  unfold execTrlIdxWrite
  try dsimp only
  refine next_land (State.privWrite_land _ _ _ _ _ fun mm u h => ?_)
  repeat' first | with_reducible assumption | with_reducible intro _ | with_reducible apply State.trlIndex_mem

/-- What answering a management command keeps of the state that the command found. -/
theorem State.fmcSend_same (s : State) (f : Fmc) (cmd : Nat) (body : List Nat) (a : FmcAns) :
    (s.fmcSend f cmd body a).Mems s.mems ∧ (s.fmcSend f cmd body a).owner = s.owner ∧ (s.fmcSend f cmd body a).hmpPend = s.hmpPend := by
  unfold State.fmcSend
  dsimp only
  split <;> exact ⟨⟨rfl, rfl, rfl⟩, rfl, rfl⟩

/-- The answer of OWNER_TRANSFER acts on a state that has the memories, the owner and the waiting writes of the one it was computed in. -/
theorem State.ownerSigned_land (s u : State) (src : MctpSrc) (msg : List Byte) (g : Signed) (port : Nat)
    (h1 : u.Mems s.mems) (h2 : u.owner = s.owner) (h3 : u.hmpPend = s.hmpPend) :
    s.LandMem ((s.signed src msg g fun s => if 4 ≤ port then FmcAns.only 2 else if port = s.owner then FmcAns.only 0
      else ⟨0, [], fun s => s.ownerMove port⟩).act u) := by
  have hn := State.setNonce_mem u (srcKey src) none h1
  unfold State.signed
  dsimp only
  split
  · exact .inl h1
  split
  · exact .inl (State.authFail_mem _ _ h1)
  split
  · exact .inl (State.authFail_mem _ _ h1)
  split
  · exact .inl (State.authFail_mem _ _ hn)
  by_cases hp : 4 ≤ port
  · rw [if_pos hp]; exact .inl hn
  rw [if_neg hp]
  by_cases hq : port = s.owner
  · rw [if_pos hq]; exact .inl (State.event_mem _ _ _ hn)
  rw [if_neg hq]
  rcases State.ownerMove_land s (u.setNonce (srcKey src) none) port hn h2 h3 with h | ⟨k, h⟩
  · exact .inl (State.event_mem _ _ _ h)
  · exact .inr ⟨k, State.event_mem _ _ _ h⟩

theorem execOwnerTransfer_land (f : Fmc) (g : Signed) (port : Nat) (s : State) : OutLand s (execOwnerTransfer f g port s) := by
  refine next_land ?_
  have he : ∀ {u : State} (o : Out), u.Mems s.mems → s.LandMem (u.emit o) := fun o h => .inl (State.emit_mem _ _ h)
  unfold State.fmcSigned State.fmcRun
  split
  · exact s.land_refl
  split
  · exact State.landMem_ite (he _ (State.satFld_mem _ _ _ _ s.mems_self)) (he _ s.mems_self)
  split
  · exact .inl (s.fmcSend_same _ _ _ _).1
  · exact s.ownerSigned_land _ _ _ _ _ (s.fmcSend_same _ _ _ _).1 (s.fmcSend_same _ _ _ _).2.1 (s.fmcSend_same _ _ _ _).2.2

end Sys2Proof.Machine
end

