-- ==== Sys2Proof/Laws/OkBase.lean ====
section
/-! SUPPORT. Canonical form and queue: the shared operations, the Hamper, the slices and the cores' memory accesses keep them, one lemma per function. -/
namespace Sys2Proof.Machine
theorem ok_hmp_wr {pq : List Instr} {s : State} {now held transit ideSent ptpOff hubRst hpcResv fresh outs fns ports ends routeHold trail board boot vclkLost devFailed hubOff cmap hmpPend hmpClr tens queues order resid disps rsts cores jobs aoUp power thm mgt snaps pmem near ueWin ueSeen loads etab etClock hpcCause sparePend bistCore bands labs kvFree kvQuar kvOwned kvUndef kvWins atuLast sks eths vcs vcLast scrubPos scrubStart ceStart subs ramps ptPend} {a bs ep} (h : s.Ok pq) : State.Ok pq { now := now, held := held, transit := transit, ideSent := ideSent, ptpOff := ptpOff, hubRst := hubRst, hpcResv := hpcResv, pending := s.pending, fresh := fresh, regs := s.regs, outs := outs, fns := fns, ports := ports, ends := ends, routeHold := routeHold, trail := trail, board := board, boot := boot, vclkLost := vclkLost, devFailed := devFailed, hubOff := hubOff, hmp := s.hmp.wr a bs ep, cmap := cmap, hmpPend := hmpPend, hmpClr := hmpClr, tens := tens, queues := queues, order := order, resid := resid, disps := disps, rsts := rsts, cores := cores, jobs := jobs, stores := s.stores, aoUp := aoUp, power := power, thm := thm, mgt := mgt, snaps := snaps, slices := s.slices, pmem := pmem, near := near, ueWin := ueWin, ueSeen := ueSeen, loads := loads, etab := etab, etClock := etClock, hpcCause := hpcCause, sparePend := sparePend, bistCore := bistCore, bands := bands, labs := labs, kvFree := kvFree, kvQuar := kvQuar, kvOwned := kvOwned, kvUndef := kvUndef, kvWins := kvWins, atuLast := atuLast, sks := sks, eths := eths, vcs := vcs, vcLast := vcLast, scrubPos := scrubPos, scrubStart := scrubStart, ceStart := ceStart, subs := subs, ramps := ramps, ptPend := ptPend } :=
  ⟨h.1, h.2.1, Mem.wf_wr _ _ _ _ h.2.2.1, h.2.2.2⟩

theorem ok_hmp_clear {pq : List Instr} {s : State} {now held transit ideSent ptpOff hubRst hpcResv fresh outs fns ports ends routeHold trail board boot vclkLost devFailed hubOff cmap hmpPend hmpClr tens queues order resid disps rsts cores jobs aoUp power thm mgt snaps pmem near ueWin ueSeen loads etab etClock hpcCause sparePend bistCore bands labs kvFree kvQuar kvOwned kvUndef kvWins atuLast sks eths vcs vcLast scrubPos scrubStart ceStart subs ramps ptPend} {a n} (h : s.Ok pq) : State.Ok pq { now := now, held := held, transit := transit, ideSent := ideSent, ptpOff := ptpOff, hubRst := hubRst, hpcResv := hpcResv, pending := s.pending, fresh := fresh, regs := s.regs, outs := outs, fns := fns, ports := ports, ends := ends, routeHold := routeHold, trail := trail, board := board, boot := boot, vclkLost := vclkLost, devFailed := devFailed, hubOff := hubOff, hmp := s.hmp.clear a n, cmap := cmap, hmpPend := hmpPend, hmpClr := hmpClr, tens := tens, queues := queues, order := order, resid := resid, disps := disps, rsts := rsts, cores := cores, jobs := jobs, stores := s.stores, aoUp := aoUp, power := power, thm := thm, mgt := mgt, snaps := snaps, slices := s.slices, pmem := pmem, near := near, ueWin := ueWin, ueSeen := ueSeen, loads := loads, etab := etab, etClock := etClock, hpcCause := hpcCause, sparePend := sparePend, bistCore := bistCore, bands := bands, labs := labs, kvFree := kvFree, kvQuar := kvQuar, kvOwned := kvOwned, kvUndef := kvUndef, kvWins := kvWins, atuLast := atuLast, sks := sks, eths := eths, vcs := vcs, vcLast := vcLast, scrubPos := scrubPos, scrubStart := scrubStart, ceStart := ceStart, subs := subs, ramps := ramps, ptPend := ptPend } :=
  ⟨h.1, h.2.1, Mem.wf_clear _ _ _ h.2.2.1, h.2.2.2⟩

theorem ok_hmp_poison {pq : List Instr} {s : State} {now held transit ideSent ptpOff hubRst hpcResv fresh outs fns ports ends routeHold trail board boot vclkLost devFailed hubOff cmap hmpPend hmpClr tens queues order resid disps rsts cores jobs aoUp power thm mgt snaps pmem near ueWin ueSeen loads etab etClock hpcCause sparePend bistCore bands labs kvFree kvQuar kvOwned kvUndef kvWins atuLast sks eths vcs vcLast scrubPos scrubStart ceStart subs ramps ptPend} {a} (h : s.Ok pq) : State.Ok pq { now := now, held := held, transit := transit, ideSent := ideSent, ptpOff := ptpOff, hubRst := hubRst, hpcResv := hpcResv, pending := s.pending, fresh := fresh, regs := s.regs, outs := outs, fns := fns, ports := ports, ends := ends, routeHold := routeHold, trail := trail, board := board, boot := boot, vclkLost := vclkLost, devFailed := devFailed, hubOff := hubOff, hmp := s.hmp.setPoison a, cmap := cmap, hmpPend := hmpPend, hmpClr := hmpClr, tens := tens, queues := queues, order := order, resid := resid, disps := disps, rsts := rsts, cores := cores, jobs := jobs, stores := s.stores, aoUp := aoUp, power := power, thm := thm, mgt := mgt, snaps := snaps, slices := s.slices, pmem := pmem, near := near, ueWin := ueWin, ueSeen := ueSeen, loads := loads, etab := etab, etClock := etClock, hpcCause := hpcCause, sparePend := sparePend, bistCore := bistCore, bands := bands, labs := labs, kvFree := kvFree, kvQuar := kvQuar, kvOwned := kvOwned, kvUndef := kvUndef, kvWins := kvWins, atuLast := atuLast, sks := sks, eths := eths, vcs := vcs, vcLast := vcLast, scrubPos := scrubPos, scrubStart := scrubStart, ceStart := ceStart, subs := subs, ramps := ramps, ptPend := ptPend } :=
  ⟨h.1, h.2.1, Mem.wf_setPoison _ _ h.2.2.1, h.2.2.2⟩

theorem ok_stores_wr {pq : List Instr} {s : State} {now held transit ideSent ptpOff hubRst hpcResv fresh outs fns ports ends routeHold trail board boot vclkLost devFailed hubOff cmap hmpPend hmpClr tens queues order resid disps rsts cores jobs aoUp power thm mgt snaps pmem near ueWin ueSeen loads etab etClock hpcCause sparePend bistCore bands labs kvFree kvQuar kvOwned kvUndef kvWins atuLast sks eths vcs vcLast scrubPos scrubStart ceStart subs ramps ptPend} {a bs ep} (h : s.Ok pq) : State.Ok pq { now := now, held := held, transit := transit, ideSent := ideSent, ptpOff := ptpOff, hubRst := hubRst, hpcResv := hpcResv, pending := s.pending, fresh := fresh, regs := s.regs, outs := outs, fns := fns, ports := ports, ends := ends, routeHold := routeHold, trail := trail, board := board, boot := boot, vclkLost := vclkLost, devFailed := devFailed, hubOff := hubOff, hmp := s.hmp, cmap := cmap, hmpPend := hmpPend, hmpClr := hmpClr, tens := tens, queues := queues, order := order, resid := resid, disps := disps, rsts := rsts, cores := cores, jobs := jobs, stores := s.stores.wr a bs ep, aoUp := aoUp, power := power, thm := thm, mgt := mgt, snaps := snaps, slices := s.slices, pmem := pmem, near := near, ueWin := ueWin, ueSeen := ueSeen, loads := loads, etab := etab, etClock := etClock, hpcCause := hpcCause, sparePend := sparePend, bistCore := bistCore, bands := bands, labs := labs, kvFree := kvFree, kvQuar := kvQuar, kvOwned := kvOwned, kvUndef := kvUndef, kvWins := kvWins, atuLast := atuLast, sks := sks, eths := eths, vcs := vcs, vcLast := vcLast, scrubPos := scrubPos, scrubStart := scrubStart, ceStart := ceStart, subs := subs, ramps := ramps, ptPend := ptPend } :=
  ⟨h.1, h.2.1, h.2.2.1, Mem.wf_wr _ _ _ _ h.2.2.2.1, h.2.2.2.2⟩

theorem ok_stores_clear {pq : List Instr} {s : State} {now held transit ideSent ptpOff hubRst hpcResv fresh outs fns ports ends routeHold trail board boot vclkLost devFailed hubOff cmap hmpPend hmpClr tens queues order resid disps rsts cores jobs aoUp power thm mgt snaps pmem near ueWin ueSeen loads etab etClock hpcCause sparePend bistCore bands labs kvFree kvQuar kvOwned kvUndef kvWins atuLast sks eths vcs vcLast scrubPos scrubStart ceStart subs ramps ptPend} {a n} (h : s.Ok pq) : State.Ok pq { now := now, held := held, transit := transit, ideSent := ideSent, ptpOff := ptpOff, hubRst := hubRst, hpcResv := hpcResv, pending := s.pending, fresh := fresh, regs := s.regs, outs := outs, fns := fns, ports := ports, ends := ends, routeHold := routeHold, trail := trail, board := board, boot := boot, vclkLost := vclkLost, devFailed := devFailed, hubOff := hubOff, hmp := s.hmp, cmap := cmap, hmpPend := hmpPend, hmpClr := hmpClr, tens := tens, queues := queues, order := order, resid := resid, disps := disps, rsts := rsts, cores := cores, jobs := jobs, stores := s.stores.clear a n, aoUp := aoUp, power := power, thm := thm, mgt := mgt, snaps := snaps, slices := s.slices, pmem := pmem, near := near, ueWin := ueWin, ueSeen := ueSeen, loads := loads, etab := etab, etClock := etClock, hpcCause := hpcCause, sparePend := sparePend, bistCore := bistCore, bands := bands, labs := labs, kvFree := kvFree, kvQuar := kvQuar, kvOwned := kvOwned, kvUndef := kvUndef, kvWins := kvWins, atuLast := atuLast, sks := sks, eths := eths, vcs := vcs, vcLast := vcLast, scrubPos := scrubPos, scrubStart := scrubStart, ceStart := ceStart, subs := subs, ramps := ramps, ptPend := ptPend } :=
  ⟨h.1, h.2.1, h.2.2.1, Mem.wf_clear _ _ _ h.2.2.2.1, h.2.2.2.2⟩

theorem ok_stores_poison {pq : List Instr} {s : State} {now held transit ideSent ptpOff hubRst hpcResv fresh outs fns ports ends routeHold trail board boot vclkLost devFailed hubOff cmap hmpPend hmpClr tens queues order resid disps rsts cores jobs aoUp power thm mgt snaps pmem near ueWin ueSeen loads etab etClock hpcCause sparePend bistCore bands labs kvFree kvQuar kvOwned kvUndef kvWins atuLast sks eths vcs vcLast scrubPos scrubStart ceStart subs ramps ptPend} {a} (h : s.Ok pq) : State.Ok pq { now := now, held := held, transit := transit, ideSent := ideSent, ptpOff := ptpOff, hubRst := hubRst, hpcResv := hpcResv, pending := s.pending, fresh := fresh, regs := s.regs, outs := outs, fns := fns, ports := ports, ends := ends, routeHold := routeHold, trail := trail, board := board, boot := boot, vclkLost := vclkLost, devFailed := devFailed, hubOff := hubOff, hmp := s.hmp, cmap := cmap, hmpPend := hmpPend, hmpClr := hmpClr, tens := tens, queues := queues, order := order, resid := resid, disps := disps, rsts := rsts, cores := cores, jobs := jobs, stores := s.stores.setPoison a, aoUp := aoUp, power := power, thm := thm, mgt := mgt, snaps := snaps, slices := s.slices, pmem := pmem, near := near, ueWin := ueWin, ueSeen := ueSeen, loads := loads, etab := etab, etClock := etClock, hpcCause := hpcCause, sparePend := sparePend, bistCore := bistCore, bands := bands, labs := labs, kvFree := kvFree, kvQuar := kvQuar, kvOwned := kvOwned, kvUndef := kvUndef, kvWins := kvWins, atuLast := atuLast, sks := sks, eths := eths, vcs := vcs, vcLast := vcLast, scrubPos := scrubPos, scrubStart := scrubStart, ceStart := ceStart, subs := subs, ramps := ramps, ptPend := ptPend } :=
  ⟨h.1, h.2.1, h.2.2.1, Mem.wf_setPoison _ _ h.2.2.2.1, h.2.2.2.2⟩

theorem ok_slices_write {pq : List Instr} {s : State} {now held transit ideSent ptpOff hubRst hpcResv fresh outs fns ports ends routeHold trail board boot vclkLost devFailed hubOff cmap hmpPend hmpClr tens queues order resid disps rsts cores jobs aoUp power thm mgt snaps pmem near ueWin ueSeen loads etab etClock hpcCause sparePend bistCore bands labs kvFree kvQuar kvOwned kvUndef kvWins atuLast sks eths vcs vcLast scrubPos scrubStart ceStart subs ramps ptPend} {a bs ep} (h : s.Ok pq) : State.Ok pq { now := now, held := held, transit := transit, ideSent := ideSent, ptpOff := ptpOff, hubRst := hubRst, hpcResv := hpcResv, pending := s.pending, fresh := fresh, regs := s.regs, outs := outs, fns := fns, ports := ports, ends := ends, routeHold := routeHold, trail := trail, board := board, boot := boot, vclkLost := vclkLost, devFailed := devFailed, hubOff := hubOff, hmp := s.hmp, cmap := cmap, hmpPend := hmpPend, hmpClr := hmpClr, tens := tens, queues := queues, order := order, resid := resid, disps := disps, rsts := rsts, cores := cores, jobs := jobs, stores := s.stores, aoUp := aoUp, power := power, thm := thm, mgt := mgt, snaps := snaps, slices := s.slices.write a bs ep, pmem := pmem, near := near, ueWin := ueWin, ueSeen := ueSeen, loads := loads, etab := etab, etClock := etClock, hpcCause := hpcCause, sparePend := sparePend, bistCore := bistCore, bands := bands, labs := labs, kvFree := kvFree, kvQuar := kvQuar, kvOwned := kvOwned, kvUndef := kvUndef, kvWins := kvWins, atuLast := atuLast, sks := sks, eths := eths, vcs := vcs, vcLast := vcLast, scrubPos := scrubPos, scrubStart := scrubStart, ceStart := ceStart, subs := subs, ramps := ramps, ptPend := ptPend } :=
  ⟨h.1, h.2.1, h.2.2.1, h.2.2.2.1, SMem.wf_write _ _ _ _ h.2.2.2.2⟩

theorem ok_slices_clear {pq : List Instr} {s : State} {now held transit ideSent ptpOff hubRst hpcResv fresh outs fns ports ends routeHold trail board boot vclkLost devFailed hubOff cmap hmpPend hmpClr tens queues order resid disps rsts cores jobs aoUp power thm mgt snaps pmem near ueWin ueSeen loads etab etClock hpcCause sparePend bistCore bands labs kvFree kvQuar kvOwned kvUndef kvWins atuLast sks eths vcs vcLast scrubPos scrubStart ceStart subs ramps ptPend} {a n} (h : s.Ok pq) : State.Ok pq { now := now, held := held, transit := transit, ideSent := ideSent, ptpOff := ptpOff, hubRst := hubRst, hpcResv := hpcResv, pending := s.pending, fresh := fresh, regs := s.regs, outs := outs, fns := fns, ports := ports, ends := ends, routeHold := routeHold, trail := trail, board := board, boot := boot, vclkLost := vclkLost, devFailed := devFailed, hubOff := hubOff, hmp := s.hmp, cmap := cmap, hmpPend := hmpPend, hmpClr := hmpClr, tens := tens, queues := queues, order := order, resid := resid, disps := disps, rsts := rsts, cores := cores, jobs := jobs, stores := s.stores, aoUp := aoUp, power := power, thm := thm, mgt := mgt, snaps := snaps, slices := s.slices.clear a n, pmem := pmem, near := near, ueWin := ueWin, ueSeen := ueSeen, loads := loads, etab := etab, etClock := etClock, hpcCause := hpcCause, sparePend := sparePend, bistCore := bistCore, bands := bands, labs := labs, kvFree := kvFree, kvQuar := kvQuar, kvOwned := kvOwned, kvUndef := kvUndef, kvWins := kvWins, atuLast := atuLast, sks := sks, eths := eths, vcs := vcs, vcLast := vcLast, scrubPos := scrubPos, scrubStart := scrubStart, ceStart := ceStart, subs := subs, ramps := ramps, ptPend := ptPend } :=
  ⟨h.1, h.2.1, h.2.2.1, h.2.2.2.1, SMem.wf_clear _ _ _ h.2.2.2.2⟩

theorem ok_slices_pois {pq : List Instr} {s : State} {now held transit ideSent ptpOff hubRst hpcResv fresh outs fns ports ends routeHold trail board boot vclkLost devFailed hubOff cmap hmpPend hmpClr tens queues order resid disps rsts cores jobs aoUp power thm mgt snaps pmem near ueWin ueSeen loads etab etClock hpcCause sparePend bistCore bands labs kvFree kvQuar kvOwned kvUndef kvWins atuLast sks eths vcs vcLast scrubPos scrubStart ceStart subs ramps ptPend} {a} (h : s.Ok pq) : State.Ok pq { now := now, held := held, transit := transit, ideSent := ideSent, ptpOff := ptpOff, hubRst := hubRst, hpcResv := hpcResv, pending := s.pending, fresh := fresh, regs := s.regs, outs := outs, fns := fns, ports := ports, ends := ends, routeHold := routeHold, trail := trail, board := board, boot := boot, vclkLost := vclkLost, devFailed := devFailed, hubOff := hubOff, hmp := s.hmp, cmap := cmap, hmpPend := hmpPend, hmpClr := hmpClr, tens := tens, queues := queues, order := order, resid := resid, disps := disps, rsts := rsts, cores := cores, jobs := jobs, stores := s.stores, aoUp := aoUp, power := power, thm := thm, mgt := mgt, snaps := snaps, slices := { s.slices with poison := Tab.set bit0 s.slices.poison a true }, pmem := pmem, near := near, ueWin := ueWin, ueSeen := ueSeen, loads := loads, etab := etab, etClock := etClock, hpcCause := hpcCause, sparePend := sparePend, bistCore := bistCore, bands := bands, labs := labs, kvFree := kvFree, kvQuar := kvQuar, kvOwned := kvOwned, kvUndef := kvUndef, kvWins := kvWins, atuLast := atuLast, sks := sks, eths := eths, vcs := vcs, vcLast := vcLast, scrubPos := scrubPos, scrubStart := scrubStart, ceStart := ceStart, subs := subs, ramps := ramps, ptPend := ptPend } :=
  ⟨h.1, h.2.1, h.2.2.1, h.2.2.2.1, SMem.wf_setPoison _ _ h.2.2.2.2⟩

theorem ok_slices_markBoth {pq : List Instr} {s : State} {now held transit ideSent ptpOff hubRst hpcResv fresh outs fns ports ends routeHold trail board boot vclkLost devFailed hubOff cmap hmpPend hmpClr tens queues order resid disps rsts cores jobs aoUp power thm mgt snaps pmem near ueWin ueSeen loads etab etClock hpcCause sparePend bistCore bands labs kvFree kvQuar kvOwned kvUndef kvWins atuLast sks eths vcs vcLast scrubPos scrubStart ceStart subs ramps ptPend} {a} (h : s.Ok pq) : State.Ok pq { now := now, held := held, transit := transit, ideSent := ideSent, ptpOff := ptpOff, hubRst := hubRst, hpcResv := hpcResv, pending := s.pending, fresh := fresh, regs := s.regs, outs := outs, fns := fns, ports := ports, ends := ends, routeHold := routeHold, trail := trail, board := board, boot := boot, vclkLost := vclkLost, devFailed := devFailed, hubOff := hubOff, hmp := s.hmp, cmap := cmap, hmpPend := hmpPend, hmpClr := hmpClr, tens := tens, queues := queues, order := order, resid := resid, disps := disps, rsts := rsts, cores := cores, jobs := jobs, stores := s.stores, aoUp := aoUp, power := power, thm := thm, mgt := mgt, snaps := snaps, slices := s.slices.markBoth a, pmem := pmem, near := near, ueWin := ueWin, ueSeen := ueSeen, loads := loads, etab := etab, etClock := etClock, hpcCause := hpcCause, sparePend := sparePend, bistCore := bistCore, bands := bands, labs := labs, kvFree := kvFree, kvQuar := kvQuar, kvOwned := kvOwned, kvUndef := kvUndef, kvWins := kvWins, atuLast := atuLast, sks := sks, eths := eths, vcs := vcs, vcLast := vcLast, scrubPos := scrubPos, scrubStart := scrubStart, ceStart := ceStart, subs := subs, ramps := ramps, ptPend := ptPend } :=
  ⟨h.1, h.2.1, h.2.2.1, h.2.2.2.1, SMem.wf_markBoth _ _ h.2.2.2.2⟩

theorem ok_hmp_fold {α : Type} {pq : List Instr} {s : State} {now held transit ideSent ptpOff hubRst hpcResv fresh outs fns ports ends routeHold trail board boot vclkLost devFailed hubOff cmap hmpPend hmpClr tens queues order resid disps rsts cores jobs aoUp power thm mgt snaps pmem near ueWin ueSeen loads etab etClock hpcCause sparePend bistCore bands labs kvFree kvQuar kvOwned kvUndef kvWins atuLast sks eths vcs vcLast scrubPos scrubStart ceStart subs ramps ptPend} {l : List α} {g : Mem → α → Mem}
    (hg : ∀ (m : Mem) x, m.wf = true → (g m x).wf = true) (h : s.Ok pq) : State.Ok pq { now := now, held := held, transit := transit, ideSent := ideSent, ptpOff := ptpOff, hubRst := hubRst, hpcResv := hpcResv, pending := s.pending, fresh := fresh, regs := s.regs, outs := outs, fns := fns, ports := ports, ends := ends, routeHold := routeHold, trail := trail, board := board, boot := boot, vclkLost := vclkLost, devFailed := devFailed, hubOff := hubOff, hmp := l.foldl g s.hmp, cmap := cmap, hmpPend := hmpPend, hmpClr := hmpClr, tens := tens, queues := queues, order := order, resid := resid, disps := disps, rsts := rsts, cores := cores, jobs := jobs, stores := s.stores, aoUp := aoUp, power := power, thm := thm, mgt := mgt, snaps := snaps, slices := s.slices, pmem := pmem, near := near, ueWin := ueWin, ueSeen := ueSeen, loads := loads, etab := etab, etClock := etClock, hpcCause := hpcCause, sparePend := sparePend, bistCore := bistCore, bands := bands, labs := labs, kvFree := kvFree, kvQuar := kvQuar, kvOwned := kvOwned, kvUndef := kvUndef, kvWins := kvWins, atuLast := atuLast, sks := sks, eths := eths, vcs := vcs, vcLast := vcLast, scrubPos := scrubPos, scrubStart := scrubStart, ceStart := ceStart, subs := subs, ramps := ramps, ptPend := ptPend } :=
  ⟨h.1, h.2.1, Mem.wf_fold _ _ _ hg h.2.2.1, h.2.2.2⟩

theorem ok_slices_fold {α : Type} {pq : List Instr} {s : State} {now held transit ideSent ptpOff hubRst hpcResv fresh outs fns ports ends routeHold trail board boot vclkLost devFailed hubOff cmap hmpPend hmpClr tens queues order resid disps rsts cores jobs aoUp power thm mgt snaps pmem near ueWin ueSeen loads etab etClock hpcCause sparePend bistCore bands labs kvFree kvQuar kvOwned kvUndef kvWins atuLast sks eths vcs vcLast scrubPos scrubStart ceStart subs ramps ptPend} {l : List α} {g : SMem → α → SMem}
    (hg : ∀ (m : SMem) x, m.wf = true → (g m x).wf = true) (h : s.Ok pq) : State.Ok pq { now := now, held := held, transit := transit, ideSent := ideSent, ptpOff := ptpOff, hubRst := hubRst, hpcResv := hpcResv, pending := s.pending, fresh := fresh, regs := s.regs, outs := outs, fns := fns, ports := ports, ends := ends, routeHold := routeHold, trail := trail, board := board, boot := boot, vclkLost := vclkLost, devFailed := devFailed, hubOff := hubOff, hmp := s.hmp, cmap := cmap, hmpPend := hmpPend, hmpClr := hmpClr, tens := tens, queues := queues, order := order, resid := resid, disps := disps, rsts := rsts, cores := cores, jobs := jobs, stores := s.stores, aoUp := aoUp, power := power, thm := thm, mgt := mgt, snaps := snaps, slices := l.foldl g s.slices, pmem := pmem, near := near, ueWin := ueWin, ueSeen := ueSeen, loads := loads, etab := etab, etClock := etClock, hpcCause := hpcCause, sparePend := sparePend, bistCore := bistCore, bands := bands, labs := labs, kvFree := kvFree, kvQuar := kvQuar, kvOwned := kvOwned, kvUndef := kvUndef, kvWins := kvWins, atuLast := atuLast, sks := sks, eths := eths, vcs := vcs, vcLast := vcLast, scrubPos := scrubPos, scrubStart := scrubStart, ceStart := ceStart, subs := subs, ramps := ramps, ptPend := ptPend } :=
  ⟨h.1, h.2.1, h.2.2.1, h.2.2.2.1, SMem.wf_fold _ _ _ hg h.2.2.2.2⟩


theorem ok_mk {pq : List Instr} {s : State} {now held transit ideSent ptpOff hubRst hpcResv fresh outs fns ports ends routeHold trail board boot vclkLost devFailed hubOff cmap hmpPend hmpClr tens queues order resid disps rsts cores jobs aoUp power thm mgt snaps pmem near ueWin ueSeen loads etab etClock hpcCause sparePend bistCore bands labs kvFree kvQuar kvOwned kvUndef kvWins atuLast sks eths vcs vcLast scrubPos scrubStart ceStart subs ramps ptPend} (h : s.Ok pq) : State.Ok pq { now := now, held := held, transit := transit, ideSent := ideSent, ptpOff := ptpOff, hubRst := hubRst, hpcResv := hpcResv, pending := s.pending, fresh := fresh, regs := s.regs, outs := outs, fns := fns, ports := ports, ends := ends, routeHold := routeHold, trail := trail, board := board, boot := boot, vclkLost := vclkLost, devFailed := devFailed, hubOff := hubOff, hmp := s.hmp, cmap := cmap, hmpPend := hmpPend, hmpClr := hmpClr, tens := tens, queues := queues, order := order, resid := resid, disps := disps, rsts := rsts, cores := cores, jobs := jobs, stores := s.stores, aoUp := aoUp, power := power, thm := thm, mgt := mgt, snaps := snaps, slices := s.slices, pmem := pmem, near := near, ueWin := ueWin, ueSeen := ueSeen, loads := loads, etab := etab, etClock := etClock, hpcCause := hpcCause, sparePend := sparePend, bistCore := bistCore, bands := bands, labs := labs, kvFree := kvFree, kvQuar := kvQuar, kvOwned := kvOwned, kvUndef := kvUndef, kvWins := kvWins, atuLast := atuLast, sks := sks, eths := eths, vcs := vcs, vcLast := vcLast, scrubPos := scrubPos, scrubStart := scrubStart, ceStart := ceStart, subs := subs, ramps := ramps, ptPend := ptPend } := h

theorem ok_hmp {pq : List Instr} {s : State} (h : s.Ok pq) : s.hmp.wf = true := h.2.2.1
theorem ok_stores {pq : List Instr} {s : State} (h : s.Ok pq) : s.stores.wf = true := h.2.2.2.1
theorem ok_slices {pq : List Instr} {s : State} (h : s.Ok pq) : s.slices.wf = true := h.2.2.2.2
theorem ok_ite {pq : List Instr} {a b : State} {c : Prop} [Decidable c] (h1 : a.Ok pq) (h2 : b.Ok pq) : (if c then a else b).Ok pq := by
  split <;> assumption

theorem ok_ite_fst {pq : List Instr} {β : Type} {a b : State × β} {c : Prop} [Decidable c] (h1 : a.1.Ok pq) (h2 : b.1.Ok pq) :
    (if c then a else b).1.Ok pq := by
  split <;> assumption
theorem SMem.wf_ite {a b : SMem} {c : Prop} [Decidable c] (h1 : a.wf = true) (h2 : b.wf = true) :
    SMem.wf (if c then a else b) = true := by
  split <;> assumption

/-- What an optional state is, where it is there. -/
def OptOk (pq : List Instr) (o : Option State) : Prop := ∀ t, o = some t → t.Ok pq
theorem ok_snd {pq : List Instr} {β : Type} {X : β × State} {a : β} {s : State} (e : X = (a, s)) (h : X.2.Ok pq) : s.Ok pq := by
  rw [e] at h; exact h
theorem ok_fst {pq : List Instr} {β : Type} {X : State × β} {a : β} {s : State} (e : X = (s, a)) (h : X.1.Ok pq) : s.Ok pq := by
  rw [e] at h; exact h
theorem ok_some {pq : List Instr} {X : Option State} {s : State} (e : X = some s) (h : OptOk pq X) : s.Ok pq := h s e
theorem some_ok {pq : List Instr} {s : State} (h : s.Ok pq) : OptOk pq (some s) := by
  intro t e; cases e; exact h
theorem none_ok {pq : List Instr} : OptOk pq none := by
  intro t e; cases e

/-- What an instruction leaves, where it leaves a state. -/
def ActOk (pq : List Instr) : Act → Prop
  | .next t => t.Ok pq
  | .jump t _ => t.Ok pq
  | .block t => t.Ok pq
  | _ => True
theorem act_hold_ok {pq : List Instr} : ActOk pq .hold := True.intro
theorem act_fault_ok {pq : List Instr} {a b c : Nat} : ActOk pq (.fault a b c) := True.intro
theorem act_poison_ok {pq : List Instr} {a b : Nat} : ActOk pq (.poison a b) := True.intro
theorem act_of_eq {pq : List Instr} {X a : Act} (e : X = a) (h : ActOk pq X) : ActOk pq a := e ▸ h
theorem act_of_next {pq : List Instr} {X : Act} {t : State} (e : X = .next t) (h : ActOk pq X) : t.Ok pq := by
  subst e; exact h
theorem act_next_ok {pq : List Instr} {s : State} (h : s.Ok pq) : ActOk pq (.next s) := h
theorem act_jump_ok {pq : List Instr} {s : State} {pc : Nat} (h : s.Ok pq) : ActOk pq (.jump s pc) := h
theorem act_block_ok {pq : List Instr} {s : State} (h : s.Ok pq) : ActOk pq (.block s) := h
theorem fetchStop_ok {pq : List Instr} {s : State} {x pc : Nat} {a : Act} (h : s.fetchStop x pc = some a) : ActOk pq a := by
  unfold State.fetchStop at h
  repeat' split at h
  all_goals first | (cases h; exact True.intro) | cases h

/-- What a KPM operation leaves, where it succeeds. -/
def KvOk (pq : List Instr) : Except KvErr (State × Nat) → Prop
  | .ok r => r.1.Ok pq
  | .error _ => True
theorem kv_err_ok {pq : List Instr} {e : KvErr} : KvOk pq (.error e) := True.intro
theorem kv_ok_ok {pq : List Instr} {r : State × Nat} (h : r.1.Ok pq) : KvOk pq (.ok r) := h

theorem Mem.wf_clearLines (m : Mem) (p : Nat → Bool) (h : m.wf = true) : (m.clearLines p).wf = true := by
  obtain ⟨h1, h2, h3⟩ := (Mem.wf_iff m).1 h
  exact (Mem.wf_iff _).2 ⟨Tab.wf_clearIf _ _ (fun a => p (a / 64)) h1, Tab.wf_clearIf _ _ _ h2, Tab.wf_clearIf _ _ _ h3⟩

/-- What answering a management request leaves. -/
def FmcOk (pq : List Instr) (a : FmcAns) : Prop := ∀ s : State, s.Ok pq → (a.act s).Ok pq
theorem fmc_mk_ok {pq : List Instr} {n : Nat} {d : List Nat} {k : State → State} (h : ∀ s : State, s.Ok pq → (k s).Ok pq) : FmcOk pq ⟨n, d, k⟩ := h
theorem fmc_only_ok {pq : List Instr} {n : Nat} : FmcOk pq (FmcAns.only n) := fun _ h => h
theorem fmc_only_act {pq : List Instr} {n : Nat} {s : State} (h : s.Ok pq) : ((FmcAns.only n).act s).Ok pq := h
theorem fmc_ite {pq : List Instr} {a b : FmcAns} {c : Prop} [Decidable c] (h1 : FmcOk pq a) (h2 : FmcOk pq b) : FmcOk pq (if c then a else b) := by
  split <;> assumption
theorem id_ok {pq : List Instr} {s : State} (h : s.Ok pq) : (id s).Ok pq := h
def PldmOk (pq : List Instr) (a : PldmAns) : Prop := ∀ s : State, s.Ok pq → (a.act s).Ok pq
theorem pldm_mk_ok {pq : List Instr} {n : Nat} {d : List Nat} {k : State → State} (h : ∀ s : State, s.Ok pq → (k s).Ok pq) : PldmOk pq ⟨n, d, k⟩ := h
theorem pldm_ite {pq : List Instr} {a b : PldmAns} {c : Prop} [Decidable c] (h1 : PldmOk pq a) (h2 : PldmOk pq b) : PldmOk pq (if c then a else b) := by
  split <;> assumption

/-- What an outcome leaves, where it is a next state. -/
def OutOk (pq : List Instr) (o : Host.Outcome State Fault Refusal) : Prop := ∀ t, o = .next t → t.Ok pq

theorem next_ok {pq : List Instr} {s : State} (h : s.Ok pq) : OutOk pq (.next s) := by
  intro t e; cases e; exact h

theorem foldl_ok {pq : List Instr} {α : Type} {s : State} {l : List α} {f : State → α → State}
    (hf : ∀ (s : State) x, s.Ok pq → (f s x).Ok pq) (h : s.Ok pq) : (l.foldl f s).Ok pq := by
  induction l generalizing s with
  | nil => exact h
  | cons x l ih => exact ih (hf _ _ h)

theorem each_ok {pq : List Instr} {α : Type} {s : State} {l : List α} {f : α → State → State}
    (hf : ∀ x (s : State), s.Ok pq → (f x s).Ok pq) (h : s.Ok pq) : (s.each l f).Ok pq := by
  unfold State.each
  induction l generalizing s with
  | nil => exact h
  | cons x l ih => exact ih (hf _ _ h)

theorem State.setFld_ok {pq : List Instr} (s : State) (pg : Nat) (f : Fld) (v : Nat) (h : s.Ok pq) : (s.setFld pg f v).Ok pq :=
  ⟨h.1, Tab.wf_set _ _ _ _ h.2.1, h.2.2⟩

/-! Ops. -/

theorem State.setFlag_ok {pq : List Instr} (s : State) (pg : Nat) (f : Fld) (v : Bool) (hok : s.Ok pq) : (State.setFlag s pg f v).Ok pq := by
  unfold State.setFlag
  try dsimp only
  repeat' first | with_reducible assumption | with_reducible intro _ | with_reducible apply State.setFld_ok

theorem State.satFld_ok {pq : List Instr} (s : State) (pg : Nat) (f : Fld) (n : Nat) (hok : s.Ok pq) : (State.satFld s pg f n).Ok pq := by
  unfold State.satFld
  try dsimp only
  repeat' first | with_reducible assumption | with_reducible intro _ | with_reducible apply State.setFld_ok

theorem State.addFld_ok {pq : List Instr} (s : State) (pg : Nat) (f : Fld) (n : Nat) (hok : s.Ok pq) : (State.addFld s pg f n).Ok pq := by
  unfold State.addFld
  try dsimp only
  repeat' first | with_reducible assumption | with_reducible intro _ | with_reducible apply State.setFld_ok

theorem State.rstFld_ok {pq : List Instr} (s : State) (pg : Nat) (f : Fld) (hok : s.Ok pq) : (State.rstFld s pg f).Ok pq := by
  unfold State.rstFld
  try dsimp only
  repeat' first | with_reducible assumption | with_reducible intro _ | with_reducible apply State.setFld_ok

theorem State.setBit_ok {pq : List Instr} (s : State) (pg : Nat) (f : Fld) (i : Nat) (v : Bool) (hok : s.Ok pq) : (State.setBit s pg f i v).Ok pq := by
  unfold State.setBit
  try dsimp only
  repeat' first | with_reducible assumption | with_reducible intro _ | with_reducible apply State.setFld_ok

theorem State.setFld64_ok {pq : List Instr} (s : State) (pg : Nat) (lo hi : Fld) (v : Nat) (hok : s.Ok pq) : (State.setFld64 s pg lo hi v).Ok pq := by
  unfold State.setFld64
  try dsimp only
  repeat' first | with_reducible assumption | with_reducible intro _ | with_reducible apply State.setFld_ok

theorem State.emit_ok {pq : List Instr} (s : State) (o : Out) (hok : s.Ok pq) : (State.emit s o).Ok pq := by
  unfold State.emit
  try dsimp only
  repeat' first | with_reducible assumption | with_reducible intro _ | with_reducible apply ok_ite | (fail_if_no_progress with_reducible apply ok_mk)

theorem State.tick_ok {pq : List Instr} (s : State) (hok : s.Ok pq) : (State.tick s).Ok pq := by
  unfold State.tick
  try dsimp only
  repeat' first | with_reducible assumption | with_reducible intro _ | with_reducible apply ok_ite | (fail_if_no_progress with_reducible apply ok_mk)

theorem State.setFn_ok {pq : List Instr} (s : State) (k : Nat) (v : FnSt) (hok : s.Ok pq) : (State.setFn s k v).Ok pq := by
  unfold State.setFn
  try dsimp only
  repeat' first | with_reducible assumption | with_reducible intro _ | with_reducible apply ok_ite | (fail_if_no_progress with_reducible apply ok_mk)

theorem State.setPort_ok {pq : List Instr} (s : State) (k : Nat) (v : Port) (hok : s.Ok pq) : (State.setPort s k v).Ok pq := by
  unfold State.setPort
  try dsimp only
  repeat' first | with_reducible assumption | with_reducible intro _ | with_reducible apply ok_ite | (fail_if_no_progress with_reducible apply ok_mk)

theorem State.setLend_ok {pq : List Instr} (s : State) (k : Nat) (v : LinkEnd) (hok : s.Ok pq) : (State.setLend s k v).Ok pq := by
  unfold State.setLend
  try dsimp only
  repeat' first | with_reducible assumption | with_reducible intro _ | with_reducible apply ok_ite | (fail_if_no_progress with_reducible apply ok_mk)

theorem State.setTen_ok {pq : List Instr} (s : State) (k : Nat) (v : TenSt) (hok : s.Ok pq) : (State.setTen s k v).Ok pq := by
  unfold State.setTen
  try dsimp only
  repeat' first | with_reducible assumption | with_reducible intro _ | with_reducible apply ok_ite | (fail_if_no_progress with_reducible apply ok_mk)

theorem State.setQueue_ok {pq : List Instr} (s : State) (n q : Nat) (v : QueueSt) (hok : s.Ok pq) : (State.setQueue s n q v).Ok pq := by
  unfold State.setQueue
  try dsimp only
  repeat' first | with_reducible assumption | with_reducible intro _ | with_reducible apply ok_ite | (fail_if_no_progress with_reducible apply ok_mk)

theorem State.setRes_ok {pq : List Instr} (s : State) (k : Nat) (v : Resid) (hok : s.Ok pq) : (State.setRes s k v).Ok pq := by
  unfold State.setRes
  try dsimp only
  repeat' first | with_reducible assumption | with_reducible intro _ | with_reducible apply ok_ite | (fail_if_no_progress with_reducible apply ok_mk)

theorem State.setDsp_ok {pq : List Instr} (s : State) (k : Nat) (v : DispSt) (hok : s.Ok pq) : (State.setDsp s k v).Ok pq := by
  unfold State.setDsp
  try dsimp only
  repeat' first | with_reducible assumption | with_reducible intro _ | with_reducible apply ok_ite | (fail_if_no_progress with_reducible apply ok_mk)

theorem State.setCore_ok {pq : List Instr} (s : State) (x : Nat) (v : Core) (hok : s.Ok pq) : (State.setCore s x v).Ok pq := by
  unfold State.setCore
  try dsimp only
  repeat' first | with_reducible assumption | with_reducible intro _ | with_reducible apply ok_ite | (fail_if_no_progress with_reducible apply ok_mk)

theorem State.setPm_ok {pq : List Instr} (s : State) (p : Nat) (v : PartMem) (hok : s.Ok pq) : (State.setPm s p v).Ok pq := by
  unfold State.setPm
  try dsimp only
  repeat' first | with_reducible assumption | with_reducible intro _ | with_reducible apply ok_ite | (fail_if_no_progress with_reducible apply ok_mk)

theorem State.setBacking_ok {pq : List Instr} (s : State) (g : Nat) (v : Backing) (hok : s.Ok pq) : (State.setBacking s g v).Ok pq := by
  unfold State.setBacking
  try dsimp only
  repeat' first | with_reducible assumption | with_reducible intro _ | with_reducible apply ok_ite | (fail_if_no_progress with_reducible apply ok_mk)

theorem State.setComp_ok {pq : List Instr} (s : State) (c : Nat) (v : Comp) (hok : s.Ok pq) : (State.setComp s c v).Ok pq := by
  unfold State.setComp
  try dsimp only
  repeat' first | with_reducible assumption | with_reducible intro _ | with_reducible apply ok_ite | (fail_if_no_progress with_reducible apply ok_mk)

theorem State.setJob_ok {pq : List Instr} (s : State) (k : Nat) (v : Job) (hok : s.Ok pq) : (State.setJob s k v).Ok pq := by
  unfold State.setJob
  try dsimp only
  repeat' first | with_reducible assumption | with_reducible intro _ | with_reducible apply ok_ite | (fail_if_no_progress with_reducible apply ok_mk)

theorem State.msix_ok {pq : List Instr} (s : State) (k v : Nat) (hok : s.Ok pq) : (State.msix s k v).Ok pq := by
  unfold State.msix
  try dsimp only
  repeat' first | with_reducible assumption | with_reducible intro _ | with_reducible apply State.emit_ok | with_reducible apply State.setFn_ok | with_reducible apply ok_ite

theorem State.raiseInt_ok {pq : List Instr} (s : State) (pg : Nat) (hok : s.Ok pq) : (State.raiseInt s pg).Ok pq := by
  unfold State.raiseInt
  try dsimp only
  repeat' first | with_reducible assumption | with_reducible intro _ | with_reducible apply State.emit_ok | with_reducible apply State.msix_ok | with_reducible apply ok_ite | (fail_if_no_progress with_reducible apply ok_mk) | with_reducible apply each_ok | with_reducible apply next_ok | with_reducible refine ok_snd (by with_reducible assumption) ?_ | with_reducible refine ok_fst (by with_reducible assumption) ?_ | with_reducible refine ok_some (by with_reducible assumption) ?_ | with_reducible apply foldl_ok | split

theorem State.setInts_ok {pq : List Instr} (s : State) (pg mask : Nat) (hok : s.Ok pq) : (State.setInts s pg mask).Ok pq := by
  unfold State.setInts
  try dsimp only
  repeat' first | with_reducible assumption | with_reducible intro _ | with_reducible apply State.setFld_ok | with_reducible apply State.raiseInt_ok | with_reducible apply ok_ite

theorem State.event_ok {pq : List Instr} (s : State) (pg bit : Nat) (hok : s.Ok pq) : (State.event s pg bit).Ok pq := by
  unfold State.event
  try dsimp only
  repeat' first | with_reducible assumption | with_reducible intro _ | with_reducible apply State.setInts_ok

theorem State.countErr_ok {pq : List Instr} (s : State) (pg code rq addr : Nat) (hok : s.Ok pq) : (State.countErr s pg code rq addr).Ok pq := by
  unfold State.countErr
  try dsimp only
  repeat' first | with_reducible assumption | with_reducible intro _ | with_reducible apply State.setFld_ok | with_reducible apply State.setFlag_ok | with_reducible apply State.satFld_ok | with_reducible apply State.setFld64_ok | with_reducible apply State.event_ok | with_reducible apply ok_ite

theorem State.hdrReset_ok {pq : List Instr} (s : State) (pg : Nat) (hok : s.Ok pq) : (State.hdrReset s pg).Ok pq := by
  unfold State.hdrReset
  try dsimp only
  repeat' first | with_reducible assumption | with_reducible intro _ | with_reducible apply State.each_ok | with_reducible apply State.rstFld_ok | with_reducible apply ok_ite | (fail_if_no_progress with_reducible apply ok_mk) | with_reducible apply each_ok

theorem State.hdrResets_ok {pq : List Instr} (s : State) (pgs : List Nat) (hok : s.Ok pq) : (State.hdrResets s pgs).Ok pq := by
  unfold State.hdrResets
  try dsimp only
  repeat' first | with_reducible assumption | with_reducible intro _ | with_reducible apply State.hdrReset_ok | with_reducible apply State.each_ok | with_reducible apply ok_ite | (fail_if_no_progress with_reducible apply ok_mk) | with_reducible apply each_ok

theorem State.flog_ok {pq : List Instr} (s : State) (n kind block code detail addr : Nat) (hok : s.Ok pq) : (State.flog s n kind block code detail addr).Ok pq := by
  unfold State.flog
  try dsimp only
  repeat' first | with_reducible assumption | with_reducible intro _ | with_reducible apply State.setFld_ok | with_reducible apply State.addFld_ok | with_reducible apply State.each_ok | with_reducible apply State.event_ok | with_reducible apply ok_ite | (fail_if_no_progress with_reducible apply ok_mk) | with_reducible apply each_ok

theorem State.tenErr_ok {pq : List Instr} (s : State) (n pg code rq addr : Nat) (hok : s.Ok pq) : (State.tenErr s n pg code rq addr).Ok pq := by
  unfold State.tenErr
  try dsimp only
  repeat' first | with_reducible assumption | with_reducible intro _ | with_reducible apply State.countErr_ok | with_reducible apply State.flog_ok

theorem State.trailPut_ok {pq : List Instr} (s : State) (typ block sev : Nat) (payload : List Nat) (hok : s.Ok pq) : (State.trailPut s typ block sev payload).Ok pq := by
  unfold State.trailPut
  try dsimp only
  repeat' first | with_reducible assumption | with_reducible intro _ | with_reducible apply State.setFlag_ok | with_reducible apply State.satFld_ok | with_reducible apply State.event_ok | with_reducible apply ok_ite | (fail_if_no_progress with_reducible apply ok_mk)

theorem State.hubLost_ok {pq : List Instr} (s : State) (clock : Nat) (hok : s.Ok pq) : (State.hubLost s clock).Ok pq := by
  unfold State.hubLost
  try dsimp only
  repeat' first | with_reducible assumption | with_reducible intro _ | with_reducible apply State.trailPut_ok | with_reducible apply ok_ite | (fail_if_no_progress with_reducible apply ok_mk)

theorem State.addFact_ok {pq : List Instr} (s : State) (f : FieldFact) (hok : s.Ok pq) : (State.addFact s f).Ok pq := by
  unfold State.addFact
  try dsimp only
  repeat' first | with_reducible assumption | with_reducible intro _ | with_reducible apply State.trailPut_ok | with_reducible apply ok_ite | (fail_if_no_progress with_reducible apply ok_mk)

theorem State.hold_ok {pq : List Instr} (s : State) (pg : Nat) (c : Held) (hok : s.Ok pq) : (State.hold s pg c).Ok pq := by
  unfold State.hold
  try dsimp only
  repeat' first | with_reducible assumption | with_reducible intro _ | with_reducible apply ok_ite | (fail_if_no_progress with_reducible apply ok_mk) | with_reducible apply each_ok | with_reducible refine ok_snd (by with_reducible assumption) ?_ | with_reducible refine ok_fst (by with_reducible assumption) ?_ | with_reducible refine ok_some (by with_reducible assumption) ?_ | with_reducible apply foldl_ok | split

theorem State.heldDrop_ok {pq : List Instr} (s : State) (c : Held) (hok : s.Ok pq) : (State.heldDrop s c).Ok pq := by
  unfold State.heldDrop
  try dsimp only
  repeat' first | with_reducible assumption | with_reducible intro _ | with_reducible apply State.emit_ok | with_reducible apply ok_ite | (fail_if_no_progress with_reducible apply ok_mk) | with_reducible apply each_ok | with_reducible refine ok_snd (by with_reducible assumption) ?_ | with_reducible refine ok_fst (by with_reducible assumption) ?_ | with_reducible refine ok_some (by with_reducible assumption) ?_ | with_reducible apply foldl_ok | split

theorem State.heldLost_ok {pq : List Instr} (s : State) (t : Nat) (hok : s.Ok pq) : (State.heldLost s t).Ok pq := by
  unfold State.heldLost
  try dsimp only
  repeat' first | with_reducible assumption | with_reducible intro _ | with_reducible apply State.heldDrop_ok | with_reducible apply State.each_ok | with_reducible apply ok_ite | (fail_if_no_progress with_reducible apply ok_mk) | with_reducible apply each_ok

theorem State.landClient_ok {pq : List Instr} (s : State) (k : Nat) (hok : s.Ok pq) : (State.landClient s k).Ok pq := by
  unfold State.landClient
  try dsimp only
  repeat' first | with_reducible assumption | with_reducible intro _ | with_reducible apply ok_ite | (fail_if_no_progress with_reducible apply ok_mk) | with_reducible apply ok_hmp_wr | with_reducible apply ok_hmp_clear | with_reducible apply ok_hmp_poison | with_reducible apply ok_stores_wr | with_reducible apply ok_stores_clear | with_reducible apply ok_stores_poison | with_reducible apply ok_slices_write | with_reducible apply ok_slices_clear | with_reducible apply ok_slices_pois | with_reducible apply ok_slices_markBoth | with_reducible apply ok_hmp_fold | with_reducible apply Mem.wf_clear | with_reducible apply Mem.wf_wr | with_reducible apply Mem.wf_land

theorem State.landFor_ok {pq : List Instr} (s : State) (rq : Requester) (hok : s.Ok pq) : (State.landFor s rq).Ok pq := by
  unfold State.landFor
  try dsimp only
  repeat' first | with_reducible assumption | with_reducible intro _ | with_reducible apply State.landClient_ok | with_reducible apply ok_ite | (fail_if_no_progress with_reducible apply ok_mk) | with_reducible apply each_ok | with_reducible refine ok_snd (by with_reducible assumption) ?_ | with_reducible refine ok_fst (by with_reducible assumption) ?_ | with_reducible refine ok_some (by with_reducible assumption) ?_ | with_reducible apply foldl_ok | split

theorem State.pageWrite_ok {pq : List Instr} (s : State) (rq : Requester) (pg off : Nat) (k : State → State) (hok : s.Ok pq) (hk : ∀ s : State, s.Ok pq → (k s).Ok pq) : (State.pageWrite s rq pg off k).Ok pq := by
  unfold State.pageWrite
  try dsimp only
  repeat' first | with_reducible assumption | with_reducible intro _ | with_reducible apply hk | with_reducible apply State.countErr_ok | with_reducible apply ok_ite

theorem State.privApply_ok {pq : List Instr} (s : State) (rq : Requester) (pg off : Nat) (k : State → State) (hok : s.Ok pq) (hk : ∀ s : State, s.Ok pq → (k s).Ok pq) : (State.privApply s rq pg off k).Ok pq := by
  unfold State.privApply
  try dsimp only
  repeat' first | with_reducible assumption | with_reducible intro _ | with_reducible apply hk | with_reducible apply State.pageWrite_ok | with_reducible apply State.countErr_ok | with_reducible apply ok_ite | (fail_if_no_progress with_reducible apply ok_mk) | with_reducible apply each_ok | with_reducible refine ok_snd (by with_reducible assumption) ?_ | with_reducible refine ok_fst (by with_reducible assumption) ?_ | with_reducible refine ok_some (by with_reducible assumption) ?_ | with_reducible apply foldl_ok | split

theorem State.privWrite_ok {pq : List Instr} (s : State) (rq : Requester) (pg off : Nat) (k : State → State) (hok : s.Ok pq) (hk : ∀ s : State, s.Ok pq → (k s).Ok pq) : (State.privWrite s rq pg off k).Ok pq := by
  unfold State.privWrite
  try dsimp only
  repeat' first | with_reducible assumption | with_reducible intro _ | with_reducible apply hk | with_reducible apply State.privApply_ok | with_reducible apply State.landFor_ok | with_reducible apply ok_ite

theorem State.tileWrite_ok {pq : List Instr} (s : State) (rq : Requester) (pg off : Nat) (c : Held) (k : State → State) (hok : s.Ok pq) (hk : ∀ s : State, s.Ok pq → (k s).Ok pq) : (State.tileWrite s rq pg off c k).Ok pq := by
  unfold State.tileWrite
  try dsimp only
  repeat' first | with_reducible assumption | with_reducible intro _ | with_reducible apply hk | with_reducible apply State.privWrite_ok | with_reducible apply State.hold_ok | with_reducible apply ok_ite

theorem State.rwlWrite_ok {pq : List Instr} (s : State) (rq : Requester) (pg : Nat) (f : Fld) (v : Nat) (k : State → State) (hok : s.Ok pq) (hk : ∀ s : State, s.Ok pq → (k s).Ok pq) : (State.rwlWrite s rq pg f v k).Ok pq := by
  unfold State.rwlWrite
  try dsimp only
  repeat' first | with_reducible assumption | with_reducible intro _ | with_reducible apply State.setFld_ok | with_reducible apply State.countErr_ok | with_reducible apply hk | with_reducible apply ok_ite

theorem State.tenApply_ok {pq : List Instr} (s : State) (m : Fin 128) (n : Nat) (f : State → State) (hok : s.Ok pq) (hf : ∀ s : State, s.Ok pq → (f s).Ok pq) : (State.tenApply s m n f).Ok pq := by
  unfold State.tenApply
  try dsimp only
  repeat' first | with_reducible assumption | with_reducible intro _ | with_reducible apply hf | with_reducible apply ok_ite

theorem State.tenWrite_ok {pq : List Instr} (s : State) (rq : Requester) (n k off : Nat) (f : State → State) (hok : s.Ok pq) (hf : ∀ s : State, s.Ok pq → (f s).Ok pq) : (State.tenWrite s rq n k off f).Ok pq := by
  unfold State.tenWrite
  try dsimp only
  repeat' first | with_reducible assumption | with_reducible intro _ | with_reducible apply hf | with_reducible apply State.tenApply_ok | with_reducible apply State.privWrite_ok | with_reducible apply State.landFor_ok | with_reducible apply ok_ite | (fail_if_no_progress with_reducible apply ok_mk) | with_reducible apply each_ok | with_reducible refine ok_snd (by with_reducible assumption) ?_ | with_reducible refine ok_fst (by with_reducible assumption) ?_ | with_reducible refine ok_some (by with_reducible assumption) ?_ | with_reducible apply foldl_ok | split

theorem State.tenRegErr_ok {pq : List Instr} (s : State) (rq : Requester) (n k off code : Nat) (hok : s.Ok pq) : (State.tenRegErr s rq n k off code).Ok pq := by
  unfold State.tenRegErr
  try dsimp only
  repeat' first | with_reducible assumption | with_reducible intro _ | with_reducible apply State.tenErr_ok

/-! Hamper. -/

theorem State.landAll_ok {pq : List Instr} (s : State) (hok : s.Ok pq) : (State.landAll s).Ok pq := by
  unfold State.landAll
  try dsimp only
  repeat' first | with_reducible assumption | with_reducible intro _ | with_reducible apply ok_ite | (fail_if_no_progress with_reducible apply ok_mk) | with_reducible apply ok_hmp_wr | with_reducible apply ok_hmp_clear | with_reducible apply ok_hmp_poison | with_reducible apply ok_stores_wr | with_reducible apply ok_stores_clear | with_reducible apply ok_stores_poison | with_reducible apply ok_slices_write | with_reducible apply ok_slices_clear | with_reducible apply ok_slices_pois | with_reducible apply ok_slices_markBoth | with_reducible apply ok_hmp_fold | with_reducible apply Mem.wf_clear | with_reducible apply Mem.wf_wr | with_reducible apply Mem.wf_land

theorem State.hmpAccept_ok {pq : List Instr} (s : State) (w : HmpWr) (hok : s.Ok pq) : (State.hmpAccept s w).Ok pq := by
  unfold State.hmpAccept
  try dsimp only
  repeat' first | with_reducible assumption | with_reducible intro _ | with_reducible apply ok_ite | (fail_if_no_progress with_reducible apply ok_mk)

theorem State.hmpClearComps_ok {pq : List Instr} (s : State) (cs : List Nat) (hok : s.Ok pq) : (State.hmpClearComps s cs).Ok pq := by
  unfold State.hmpClearComps
  try dsimp only
  repeat' first | with_reducible assumption | with_reducible intro _ | with_reducible apply ok_ite | (fail_if_no_progress with_reducible apply ok_mk) | with_reducible apply ok_hmp_wr | with_reducible apply ok_hmp_clear | with_reducible apply ok_hmp_poison | with_reducible apply ok_stores_wr | with_reducible apply ok_stores_clear | with_reducible apply ok_stores_poison | with_reducible apply ok_slices_write | with_reducible apply ok_slices_clear | with_reducible apply ok_slices_pois | with_reducible apply ok_slices_markBoth | with_reducible apply ok_hmp_fold | with_reducible apply Mem.wf_clear

theorem State.bindComps_ok {pq : List Instr} (s : State) (cs : List Nat) (v : Bool) (hok : s.Ok pq) : (State.bindComps s cs v).Ok pq := by
  unfold State.bindComps
  try dsimp only
  repeat' first | with_reducible assumption | with_reducible intro _ | with_reducible apply State.each_ok | with_reducible apply State.setComp_ok | with_reducible apply ok_ite | (fail_if_no_progress with_reducible apply ok_mk) | with_reducible apply each_ok

theorem State.hmpTenantClear_ok {pq : List Instr} (s : State) (n : Nat) (hok : s.Ok pq) : (State.hmpTenantClear s n).Ok pq := by
  unfold State.hmpTenantClear
  try dsimp only
  repeat' first | with_reducible assumption | with_reducible intro _ | with_reducible apply State.landAll_ok | with_reducible apply State.hmpClearComps_ok | with_reducible apply State.bindComps_ok

theorem State.hmpPartClear_ok {pq : List Instr} (s : State) (p : Nat) (hok : s.Ok pq) : (State.hmpPartClear s p).Ok pq := by
  unfold State.hmpPartClear
  try dsimp only
  repeat' first | with_reducible assumption | with_reducible intro _ | with_reducible apply State.landAll_ok | with_reducible apply State.hmpClearComps_ok

theorem State.hmpTransitClear_ok {pq : List Instr} (s : State) (n : Nat) (hok : s.Ok pq) : (State.hmpTransitClear s n).Ok pq := by
  unfold State.hmpTransitClear
  try dsimp only
  repeat' first | with_reducible assumption | with_reducible intro _ | with_reducible apply State.hmpClearComps_ok | with_reducible apply State.landAll_ok | with_reducible apply ok_ite | (fail_if_no_progress with_reducible apply ok_mk)

theorem execHamperWriteLand_ok {pq : List Instr} (s : State) (h : s.Ok pq) : OutOk pq (execHamperWriteLand s) := by
  unfold execHamperWriteLand
  split
  · exact next_ok h
  · exact next_ok ⟨h.1, h.2.1, Mem.wf_land _ _ (ok_hmp h), h.2.2.2⟩

theorem putPieces_ok {pq : List Instr} (s : State) (client off : Nat) (data : List Byte) (ep : Bool) (ok : List (Nat × Nat × Nat)) (hok : s.Ok pq) : (putPieces s client off data ep ok).Ok pq := by
  unfold putPieces
  try dsimp only
  repeat' first | with_reducible assumption | with_reducible intro _ | with_reducible apply State.each_ok | with_reducible apply State.hmpAccept_ok | with_reducible apply ok_ite | (fail_if_no_progress with_reducible apply ok_mk) | with_reducible apply each_ok

theorem State.poisonIn_ok {pq : List Instr} (s : State) (port rq : Nat) (ok : List (Nat × Nat × Nat)) (hok : s.Ok pq) : (State.poisonIn s port rq ok).Ok pq := by
  unfold State.poisonIn
  try dsimp only
  repeat' first | with_reducible assumption | with_reducible intro _ | with_reducible apply State.emit_ok | with_reducible apply State.countErr_ok | with_reducible apply ok_ite | (fail_if_no_progress with_reducible apply ok_mk) | with_reducible apply each_ok | with_reducible apply next_ok | with_reducible refine ok_snd (by with_reducible assumption) ?_ | with_reducible refine ok_fst (by with_reducible assumption) ?_ | with_reducible refine ok_some (by with_reducible assumption) ?_ | with_reducible apply foldl_ok | split

theorem State.setVc_ok {pq : List Instr} (s : State) (i : Nat) (v : VcSt) (hok : s.Ok pq) : (State.setVc s i v).Ok pq := by
  unfold State.setVc
  try dsimp only
  repeat' first | with_reducible assumption | with_reducible intro _ | with_reducible apply ok_ite | (fail_if_no_progress with_reducible apply ok_mk)

theorem State.setVcf_ok {pq : List Instr} (s : State) (i : Nat) (f : Nat → Fld) (v : Nat) (hok : s.Ok pq) : (State.setVcf s i f v).Ok pq := by
  unfold State.setVcf
  try dsimp only
  repeat' first | with_reducible assumption | with_reducible intro _ | with_reducible apply State.setFld_ok

theorem State.vcTouch_ok {pq : List Instr} (s : State) (a : Nat) (hok : s.Ok pq) : (State.vcTouch s a).Ok pq := by
  unfold State.vcTouch
  try dsimp only
  repeat' first | with_reducible assumption | with_reducible intro _ | with_reducible apply State.setVc_ok | with_reducible apply ok_ite | (fail_if_no_progress with_reducible apply ok_mk) | with_reducible apply each_ok | with_reducible refine ok_snd (by with_reducible assumption) ?_ | with_reducible refine ok_fst (by with_reducible assumption) ?_ | with_reducible refine ok_some (by with_reducible assumption) ?_ | with_reducible apply foldl_ok | split

theorem State.tenApWrite_ok {pq : List Instr} (s : State) (n rid off : Nat) (data : List Byte) (ep : Bool) (hok : s.Ok pq) : (State.tenApWrite s n rid off data ep).Ok pq := by
  unfold State.tenApWrite
  try dsimp only
  repeat' first | with_reducible assumption | with_reducible intro _ | with_reducible apply State.vcTouch_ok | with_reducible apply State.poisonIn_ok | with_reducible apply putPieces_ok | with_reducible apply State.tenErr_ok | with_reducible apply State.flog_ok | with_reducible apply State.each_ok | with_reducible apply ok_ite | (fail_if_no_progress with_reducible apply ok_mk) | with_reducible apply each_ok | with_reducible refine ok_snd (by with_reducible assumption) ?_ | with_reducible refine ok_fst (by with_reducible assumption) ?_ | with_reducible refine ok_some (by with_reducible assumption) ?_ | with_reducible apply foldl_ok | split

theorem State.ownApWrite_ok {pq : List Instr} (s : State) (p off : Nat) (data : List Byte) (ep : Bool) (hok : s.Ok pq) : (State.ownApWrite s p off data ep).Ok pq := by
  unfold State.ownApWrite
  try dsimp only
  repeat' first | with_reducible assumption | with_reducible intro _ | with_reducible apply State.poisonIn_ok | with_reducible apply putPieces_ok | with_reducible apply State.countErr_ok | with_reducible apply State.each_ok | with_reducible apply ok_ite | (fail_if_no_progress with_reducible apply ok_mk) | with_reducible apply each_ok

theorem State.apWriteFrom_ok {pq : List Instr} (s : State) (n : Fin 128) (rid off : Nat) (data : List Byte) (ep : Bool) (hok : s.Ok pq) : (State.apWriteFrom s n rid off data ep).Ok pq := by
  unfold State.apWriteFrom
  try dsimp only
  repeat' first | with_reducible assumption | with_reducible intro _ | with_reducible apply State.tenApWrite_ok | with_reducible apply ok_ite

theorem State.tenApRead_ok {pq : List Instr} (s : State) (n off len : Nat) (hok : s.Ok pq) : (State.tenApRead s n off len).Ok pq := by
  unfold State.tenApRead
  try dsimp only
  repeat' first | with_reducible assumption | with_reducible intro _ | with_reducible apply State.tenErr_ok | with_reducible apply State.flog_ok | with_reducible apply State.tick_ok | with_reducible apply State.emit_ok | with_reducible apply ok_ite | (fail_if_no_progress with_reducible apply ok_mk) | with_reducible apply each_ok | with_reducible refine ok_snd (by with_reducible assumption) ?_ | with_reducible refine ok_fst (by with_reducible assumption) ?_ | with_reducible refine ok_some (by with_reducible assumption) ?_ | with_reducible apply foldl_ok | split

theorem State.ownApRead_ok {pq : List Instr} (s : State) (p off len : Nat) (hok : s.Ok pq) : (State.ownApRead s p off len).Ok pq := by
  unfold State.ownApRead
  try dsimp only
  repeat' first | with_reducible assumption | with_reducible intro _ | with_reducible apply State.countErr_ok | with_reducible apply State.tick_ok | with_reducible apply State.emit_ok | with_reducible apply ok_ite | (fail_if_no_progress with_reducible apply ok_mk) | with_reducible apply each_ok | with_reducible refine ok_snd (by with_reducible assumption) ?_ | with_reducible refine ok_fst (by with_reducible assumption) ?_ | with_reducible refine ok_some (by with_reducible assumption) ?_ | with_reducible apply foldl_ok | split

theorem State.apReadFrom_ok {pq : List Instr} (s : State) (n : Fin 128) (off len : Nat) (atomic : Bool) (hok : s.Ok pq) : (State.apReadFrom s n off len atomic).Ok pq := by
  unfold State.apReadFrom
  try dsimp only
  repeat' first | with_reducible assumption | with_reducible intro _ | with_reducible apply State.tenApRead_ok | with_reducible apply State.landClient_ok | with_reducible apply State.emit_ok | with_reducible apply ok_ite

theorem State.setFree_ok {pq : List Instr} (s : State) (n : Nat) (hok : s.Ok pq) : (State.setFree s n).Ok pq := by
  unfold State.setFree
  try dsimp only
  repeat' first | with_reducible assumption | with_reducible intro _ | with_reducible apply State.setFld_ok | with_reducible apply State.event_ok | with_reducible apply ok_ite

theorem State.allocEnd_ok {pq : List Instr} (s : State) (result at' : Nat) (hok : s.Ok pq) : (State.allocEnd s result at').Ok pq := by
  unfold State.allocEnd
  try dsimp only
  repeat' first | with_reducible assumption | with_reducible intro _ | with_reducible apply State.setFld_ok | with_reducible apply State.setFlag_ok | with_reducible apply State.event_ok

theorem State.assignComps_ok {pq : List Instr} (s : State) (a : AllocArgs) (hok : s.Ok pq) : (State.assignComps s a).Ok pq := by
  unfold State.assignComps
  try dsimp only
  repeat' first | with_reducible assumption | with_reducible intro _ | with_reducible apply State.each_ok | with_reducible apply State.setComp_ok | with_reducible apply ok_ite | (fail_if_no_progress with_reducible apply ok_mk) | with_reducible apply each_ok

theorem State.allocRun_ok {pq : List Instr} (s : State) (hok : s.Ok pq) : (State.allocRun s).Ok pq := by
  unfold State.allocRun
  try dsimp only
  repeat' first | with_reducible assumption | with_reducible intro _ | with_reducible apply State.setFld_ok | with_reducible apply State.event_ok | with_reducible apply State.setFree_ok | with_reducible apply State.allocEnd_ok | with_reducible apply State.assignComps_ok | with_reducible apply ok_ite | (fail_if_no_progress with_reducible apply ok_mk) | with_reducible apply each_ok | with_reducible apply next_ok | with_reducible refine ok_snd (by with_reducible assumption) ?_ | with_reducible refine ok_fst (by with_reducible assumption) ?_ | with_reducible refine ok_some (by with_reducible assumption) ?_ | with_reducible apply foldl_ok | split

theorem State.leave_ok {pq : List Instr} (s : State) (a : AllocArgs) (hok : s.Ok pq) : (State.leave s a).Ok pq := by
  unfold State.leave
  try dsimp only
  repeat' first | with_reducible assumption | with_reducible intro _ | with_reducible apply ok_ite | (fail_if_no_progress with_reducible apply ok_mk)

theorem State.freeRun_ok {pq : List Instr} (s : State) (hok : s.Ok pq) : (State.freeRun s).Ok pq := by
  unfold State.freeRun
  try dsimp only
  repeat' first | with_reducible assumption | with_reducible intro _ | with_reducible apply State.leave_ok | with_reducible apply State.allocEnd_ok | with_reducible apply State.hmpClearComps_ok | with_reducible apply State.landAll_ok | with_reducible apply State.setComp_ok | with_reducible apply State.each_ok | with_reducible apply State.setFlag_ok | with_reducible apply ok_ite | (fail_if_no_progress with_reducible apply ok_mk) | with_reducible apply each_ok | with_reducible refine ok_snd (by with_reducible assumption) ?_ | with_reducible refine ok_fst (by with_reducible assumption) ?_ | with_reducible refine ok_some (by with_reducible assumption) ?_ | with_reducible apply foldl_ok | split

theorem State.allocWrite_ok {pq : List Instr} (s : State) (rq : Requester) (op : Nat) (go : Bool) (hok : s.Ok pq) : (State.allocWrite s rq op go).Ok pq := by
  unfold State.allocWrite
  try dsimp only
  repeat' first | with_reducible assumption | with_reducible intro _ | with_reducible apply State.setFld_ok | with_reducible apply State.countErr_ok | with_reducible apply State.allocEnd_ok | with_reducible apply State.allocRun_ok | with_reducible apply State.freeRun_ok | with_reducible apply ok_ite | (fail_if_no_progress with_reducible apply ok_mk) | with_reducible apply each_ok | with_reducible apply next_ok | with_reducible refine ok_snd (by with_reducible assumption) ?_ | with_reducible refine ok_fst (by with_reducible assumption) ?_ | with_reducible refine ok_some (by with_reducible assumption) ?_ | with_reducible apply foldl_ok | split

theorem execHmpAlloc_ok {pq : List Instr} (rq : Requester) (s : State) (hok : s.Ok pq) : OutOk pq (execHmpAlloc rq s) := by
  unfold execHmpAlloc
  try dsimp only
  repeat' first | with_reducible assumption | with_reducible intro _ | with_reducible apply State.privWrite_ok | with_reducible apply State.allocWrite_ok | with_reducible apply ok_ite | (fail_if_no_progress with_reducible apply ok_mk) | with_reducible apply each_ok | with_reducible apply next_ok

theorem execHmpFree_ok {pq : List Instr} (rq : Requester) (s : State) (hok : s.Ok pq) : OutOk pq (execHmpFree rq s) := by
  unfold execHmpFree
  try dsimp only
  repeat' first | with_reducible assumption | with_reducible intro _ | with_reducible apply State.privWrite_ok | with_reducible apply State.allocWrite_ok | with_reducible apply ok_ite | (fail_if_no_progress with_reducible apply ok_mk) | with_reducible apply each_ok | with_reducible apply next_ok

theorem State.freeComp_ok {pq : List Instr} (s : State) (c : Nat) (hok : s.Ok pq) : (State.freeComp s c).Ok pq := by
  unfold State.freeComp
  try dsimp only
  repeat' first | with_reducible assumption | with_reducible intro _ | with_reducible apply State.setFld_ok | with_reducible apply State.setComp_ok | with_reducible apply State.setFree_ok | with_reducible apply ok_ite

theorem State.clearDone_ok {pq : List Instr} (s : State) (hok : s.Ok pq) : (State.clearDone s).Ok pq := by
  unfold State.clearDone
  try dsimp only
  repeat' first | with_reducible assumption | with_reducible intro _ | with_reducible apply State.freeComp_ok | with_reducible apply State.allocEnd_ok | with_reducible apply State.event_ok | with_reducible apply State.each_ok | with_reducible apply ok_ite | (fail_if_no_progress with_reducible apply ok_mk) | with_reducible apply each_ok | with_reducible refine ok_snd (by with_reducible assumption) ?_ | with_reducible refine ok_fst (by with_reducible assumption) ?_ | with_reducible refine ok_some (by with_reducible assumption) ?_ | with_reducible apply foldl_ok | split

theorem execHamperClearDone_ok {pq : List Instr} (s : State) (hok : s.Ok pq) : OutOk pq (execHamperClearDone s) := by
  unfold execHamperClearDone
  try dsimp only
  repeat' first | with_reducible assumption | with_reducible intro _ | with_reducible apply State.clearDone_ok | with_reducible apply ok_ite | (fail_if_no_progress with_reducible apply ok_mk) | with_reducible apply each_ok | with_reducible apply next_ok

theorem State.slotQuery_ok {pq : List Instr} (s : State) (n slot : Nat) (hok : s.Ok pq) : (State.slotQuery s n slot).Ok pq := by
  unfold State.slotQuery
  try dsimp only
  repeat' first | with_reducible assumption | with_reducible intro _ | with_reducible apply State.setFld_ok | with_reducible apply State.setFlag_ok | with_reducible apply ok_ite | (fail_if_no_progress with_reducible apply ok_mk) | with_reducible apply each_ok | with_reducible apply next_ok | with_reducible refine ok_snd (by with_reducible assumption) ?_ | with_reducible refine ok_fst (by with_reducible assumption) ?_ | with_reducible refine ok_some (by with_reducible assumption) ?_ | with_reducible apply foldl_ok | split

theorem execHmpTqQuery_ok {pq : List Instr} (rq : Requester) (n : Fin 128) (slot : BitVec 12) (s : State) (hok : s.Ok pq) : OutOk pq (execHmpTqQuery rq n slot s) := by
  unfold execHmpTqQuery
  try dsimp only
  repeat' first | with_reducible assumption | with_reducible intro _ | with_reducible apply State.tenWrite_ok | with_reducible apply State.slotQuery_ok | with_reducible apply ok_ite | (fail_if_no_progress with_reducible apply ok_mk) | with_reducible apply each_ok | with_reducible apply next_ok

theorem State.hmpInit_ok {pq : List Instr} (s : State) (fw : Nat) (h : s.Ok pq) : (s.hmpInit fw).Ok pq := by
  obtain ⟨a, b, c⟩ := (Mem.wf_iff _).1 (ok_hmp h)
  unfold State.hmpInit
  apply each_ok (fun _ s h => State.setFld_ok _ _ _ _ (State.setFld_ok _ _ _ _ h))
  apply each_ok (fun _ s h => State.setFld_ok _ _ _ _ (State.setFld_ok _ _ _ _ h))
  apply State.setFld_ok; apply State.setFld_ok
  exact ⟨h.1, h.2.1, (Mem.wf_iff _).2 ⟨Tab.wf_filter _ _ _ a, Tab.wf_filter _ _ _ b, Tab.wf_filter _ _ _ c⟩, h.2.2.2⟩

theorem State.hmpShrink_ok {pq : List Instr} (s : State) (fw : Nat) (hok : s.Ok pq) : (State.hmpShrink s fw).Ok pq := by
  unfold State.hmpShrink
  try dsimp only
  repeat' first | with_reducible assumption | with_reducible intro _ | with_reducible apply State.setFld_ok | with_reducible apply State.each_ok | with_reducible apply State.setComp_ok | with_reducible apply State.hmpClearComps_ok | with_reducible apply ok_ite | (fail_if_no_progress with_reducible apply ok_mk) | with_reducible apply each_ok

/-! Queues. -/

theorem State.cqSignal_ok {pq : List Instr} (s : State) (n q : Nat) (hok : s.Ok pq) : (State.cqSignal s n q).Ok pq := by
  unfold State.cqSignal
  try dsimp only
  repeat' first | with_reducible assumption | with_reducible intro _ | with_reducible apply State.setQueue_ok | with_reducible apply State.msix_ok | with_reducible apply ok_ite

theorem State.cqNotify_ok {pq : List Instr} (s : State) (n q : Nat) (irqNow : Bool) (hok : s.Ok pq) : (State.cqNotify s n q irqNow).Ok pq := by
  unfold State.cqNotify
  try dsimp only
  repeat' first | with_reducible assumption | with_reducible intro _ | with_reducible apply State.setQueue_ok | with_reducible apply State.cqSignal_ok | with_reducible apply ok_ite

theorem State.coalCheck_ok {pq : List Instr} (s : State) (n q : Nat) (hok : s.Ok pq) : (State.coalCheck s n q).Ok pq := by
  unfold State.coalCheck
  try dsimp only
  repeat' first | with_reducible assumption | with_reducible intro _ | with_reducible apply State.cqSignal_ok | with_reducible apply ok_ite

theorem State.cqPut_ok {pq : List Instr} (s : State) (n q : Nat) (e : CqEntry) (irqNow : Bool) (hok : s.Ok pq) : (State.cqPut s n q e irqNow).Ok pq := by
  unfold State.cqPut
  try dsimp only
  repeat' first | with_reducible assumption | with_reducible intro _ | with_reducible apply State.cqNotify_ok | with_reducible apply State.emit_ok | with_reducible apply State.setFlag_ok | with_reducible apply State.setFld_ok

theorem State.dropWaiting_ok {pq : List Instr} (s : State) (n q : Nat) (hok : s.Ok pq) : (State.dropWaiting s n q).Ok pq := by
  unfold State.dropWaiting
  try dsimp only
  repeat' first | with_reducible assumption | with_reducible intro _ | with_reducible apply State.setQueue_ok

theorem State.cqError_ok {pq : List Instr} (s : State) (n q : Nat) (hok : s.Ok pq) : (State.cqError s n q).Ok pq := by
  unfold State.cqError
  try dsimp only
  repeat' first | with_reducible assumption | with_reducible intro _ | with_reducible apply State.setFld_ok | with_reducible apply State.event_ok | with_reducible apply State.tenErr_ok | with_reducible apply State.dropWaiting_ok

theorem State.cqWrite_ok {pq : List Instr} (s : State) (n q : Nat) (e : CqEntry) (irqNow : Bool) (hok : s.Ok pq) : (State.cqWrite s n q e irqNow).Ok pq := by
  unfold State.cqWrite
  try dsimp only
  repeat' first | with_reducible assumption | with_reducible intro _ | with_reducible apply State.setQueue_ok | with_reducible apply State.cqPut_ok | with_reducible apply State.cqError_ok | with_reducible apply ok_ite

theorem State.cancelEnd_ok {pq : List Instr} (s : State) (n : Nat) (hok : s.Ok pq) : (State.cancelEnd s n).Ok pq := by
  unfold State.cancelEnd
  try dsimp only
  repeat' first | with_reducible assumption | with_reducible intro _ | with_reducible apply State.event_ok | with_reducible apply State.setTen_ok | with_reducible apply ok_ite | (fail_if_no_progress with_reducible apply ok_mk) | with_reducible apply each_ok | with_reducible refine ok_snd (by with_reducible assumption) ?_ | with_reducible refine ok_fst (by with_reducible assumption) ?_ | with_reducible refine ok_some (by with_reducible assumption) ?_ | with_reducible apply foldl_ok | split

theorem State.cancelNote_ok {pq : List Instr} (s : State) (n q num : Nat) (hok : s.Ok pq) : (State.cancelNote s n q num).Ok pq := by
  unfold State.cancelNote
  try dsimp only
  repeat' first | with_reducible assumption | with_reducible intro _ | with_reducible apply State.cancelEnd_ok | with_reducible apply State.setTen_ok | with_reducible apply ok_ite | (fail_if_no_progress with_reducible apply ok_mk) | with_reducible apply each_ok | with_reducible refine ok_snd (by with_reducible assumption) ?_ | with_reducible refine ok_fst (by with_reducible assumption) ?_ | with_reducible refine ok_some (by with_reducible assumption) ?_ | with_reducible apply foldl_ok | split

theorem State.complete_ok {pq : List Instr} (s : State) (n q : Nat) (d : Desc) (r : Done) (hok : s.Ok pq) : (State.complete s n q d r).Ok pq := by
  unfold State.complete
  try dsimp only
  repeat' first | with_reducible assumption | with_reducible intro _ | with_reducible apply State.cancelNote_ok | with_reducible apply State.cqWrite_ok | with_reducible apply State.setQueue_ok | with_reducible apply ok_ite

theorem State.completeUnstarted_ok {pq : List Instr} (s : State) (n q : Nat) (d : Desc) (status detail : Nat) (hok : s.Ok pq) : (State.completeUnstarted s n q d status detail).Ok pq := by
  unfold State.completeUnstarted
  try dsimp only
  repeat' first | with_reducible assumption | with_reducible intro _ | with_reducible apply State.complete_ok | with_reducible apply State.setQueue_ok | with_reducible apply ok_ite

theorem State.flushEnded_ok {pq : List Instr} (s : State) (n q fuel : Nat) (h : s.Ok pq) : (s.flushEnded n q fuel).Ok pq := by
  induction fuel generalizing s with
  | zero => exact h
  | succ k ih =>
    unfold State.flushEnded
    repeat' first | with_reducible assumption | with_reducible intro _ | with_reducible apply ih | with_reducible apply State.complete_ok | with_reducible apply State.setQueue_ok | with_reducible apply ok_ite | (fail_if_no_progress with_reducible apply ok_mk) | with_reducible apply each_ok | with_reducible refine ok_snd (by with_reducible assumption) ?_ | with_reducible refine ok_fst (by with_reducible assumption) ?_ | with_reducible refine ok_some (by with_reducible assumption) ?_ | with_reducible apply foldl_ok | split

theorem State.putReport_ok {pq : List Instr} (s : State) (n q : Nat) (hok : s.Ok pq) : (State.putReport s n q).Ok pq := by
  unfold State.putReport
  try dsimp only
  repeat' first | with_reducible assumption | with_reducible intro _ | with_reducible apply State.cqWrite_ok | with_reducible apply State.setQueue_ok | with_reducible apply ok_ite

theorem State.flushReport_ok {pq : List Instr} (s : State) (n q : Nat) (hok : s.Ok pq) : (State.flushReport s n q).Ok pq := by
  unfold State.flushReport
  try dsimp only
  repeat' first | with_reducible assumption | with_reducible intro _ | with_reducible apply State.cqWrite_ok | with_reducible apply State.setQueue_ok | with_reducible apply State.each_ok | with_reducible apply ok_ite | (fail_if_no_progress with_reducible apply ok_mk) | with_reducible apply each_ok

theorem State.doorbell_ok {pq : List Instr} (s : State) (rq : Requester) (n q v : Nat) (hok : s.Ok pq) : (State.doorbell s rq n q v).Ok pq := by
  unfold State.doorbell
  try dsimp only
  repeat' first | with_reducible assumption | with_reducible intro _ | with_reducible apply State.tenRegErr_ok | with_reducible apply State.satFld_ok | with_reducible apply State.setFld_ok | with_reducible apply ok_ite | (fail_if_no_progress with_reducible apply ok_mk) | with_reducible apply each_ok | with_reducible refine ok_snd (by with_reducible assumption) ?_ | with_reducible refine ok_fst (by with_reducible assumption) ?_ | with_reducible refine ok_some (by with_reducible assumption) ?_ | with_reducible apply foldl_ok | split

theorem execDoorbell_ok {pq : List Instr} (rq : Requester) (n : Fin 128) (q : Fin 8) (v : BitVec 16) (s : State) (hok : s.Ok pq) : OutOk pq (execDoorbell rq n q v s) := by
  unfold execDoorbell
  try dsimp only
  repeat' first | with_reducible assumption | with_reducible intro _ | with_reducible apply State.tenWrite_ok | with_reducible apply State.doorbell_ok | with_reducible apply ok_ite | (fail_if_no_progress with_reducible apply ok_mk) | with_reducible apply each_ok | with_reducible apply next_ok

theorem State.fetchOne_ok {pq : List Instr} (s : State) (n q : Nat) (hok : s.Ok pq) : (State.fetchOne s n q).Ok pq := by
  unfold State.fetchOne
  try dsimp only
  repeat' first | with_reducible assumption | with_reducible intro _ | with_reducible apply State.setFld_ok | with_reducible apply State.setQueue_ok | with_reducible apply State.flog_ok | with_reducible apply State.completeUnstarted_ok | with_reducible apply ok_ite | (fail_if_no_progress with_reducible apply ok_mk) | with_reducible apply each_ok | with_reducible apply next_ok | with_reducible refine ok_snd (by with_reducible assumption) ?_ | with_reducible refine ok_fst (by with_reducible assumption) ?_ | with_reducible refine ok_some (by with_reducible assumption) ?_ | with_reducible apply foldl_ok | split

theorem State.startDesc_ok {pq : List Instr} (s : State) (n q : Nat) (d : Desc) (hok : s.Ok pq) : (State.startDesc s n q d).Ok pq := by
  unfold State.startDesc
  try dsimp only
  repeat' first | with_reducible assumption | with_reducible intro _ | with_reducible apply State.setQueue_ok

theorem State.setDesc_ok {pq : List Instr} (s : State) (n q : Nat) (d : Desc) (hok : s.Ok pq) : (State.setDesc s n q d).Ok pq := by
  unfold State.setDesc
  try dsimp only
  repeat' first | with_reducible assumption | with_reducible intro _ | with_reducible apply State.setQueue_ok

theorem execJobFence_ok {pq : List Instr} (n : Fin 128) (q : Fin 8) (s : State) (hok : s.Ok pq) : OutOk pq (execJobFence n q s) := by
  unfold execJobFence
  try dsimp only
  repeat' first | with_reducible assumption | with_reducible intro _ | with_reducible apply State.completeUnstarted_ok | with_reducible apply ok_ite | (fail_if_no_progress with_reducible apply ok_mk) | with_reducible apply each_ok | with_reducible apply next_ok | with_reducible refine ok_snd (by with_reducible assumption) ?_ | with_reducible refine ok_fst (by with_reducible assumption) ?_ | with_reducible refine ok_some (by with_reducible assumption) ?_ | with_reducible apply foldl_ok | split

theorem execJobNop_ok {pq : List Instr} (n : Fin 128) (q : Fin 8) (s : State) (hok : s.Ok pq) : OutOk pq (execJobNop n q s) := by
  unfold execJobNop
  try dsimp only
  repeat' first | with_reducible assumption | with_reducible intro _ | with_reducible apply State.completeUnstarted_ok | with_reducible apply ok_ite | (fail_if_no_progress with_reducible apply ok_mk) | with_reducible apply each_ok | with_reducible apply next_ok | with_reducible refine ok_snd (by with_reducible assumption) ?_ | with_reducible refine ok_fst (by with_reducible assumption) ?_ | with_reducible refine ok_some (by with_reducible assumption) ?_ | with_reducible apply foldl_ok | split

theorem execCqCoalTimerExpiry_ok {pq : List Instr} (n : Fin 128) (q : Fin 8) (s : State) (hok : s.Ok pq) : OutOk pq (execCqCoalTimerExpiry n q s) := by
  unfold execCqCoalTimerExpiry
  try dsimp only
  repeat' first | with_reducible assumption | with_reducible intro _ | with_reducible apply State.cqSignal_ok | with_reducible apply ok_ite | (fail_if_no_progress with_reducible apply ok_mk) | with_reducible apply each_ok | with_reducible apply next_ok

theorem execCqWriteFail_ok {pq : List Instr} (n : Fin 128) (q : Fin 8) (s : State) (hok : s.Ok pq) : OutOk pq (execCqWriteFail n q s) := by
  unfold execCqWriteFail
  try dsimp only
  repeat' first | with_reducible assumption | with_reducible intro _ | with_reducible apply State.cqError_ok | with_reducible apply State.setFlag_ok | with_reducible apply State.setFld_ok | with_reducible apply ok_ite | (fail_if_no_progress with_reducible apply ok_mk) | with_reducible apply each_ok | with_reducible apply next_ok

theorem State.queueOn_ok {pq : List Instr} (s : State) (rq : Requester) (n q : Nat) (hok : s.Ok pq) : (State.queueOn s rq n q).Ok pq := by
  unfold State.queueOn
  try dsimp only
  repeat' first | with_reducible assumption | with_reducible intro _ | with_reducible apply State.setFld_ok | with_reducible apply State.setFlag_ok | with_reducible apply State.event_ok | with_reducible apply State.tenRegErr_ok | with_reducible apply State.bindComps_ok | with_reducible apply ok_ite

theorem State.queueOff_ok {pq : List Instr} (s : State) (n q : Nat) (hok : s.Ok pq) : (State.queueOff s n q).Ok pq := by
  unfold State.queueOff
  try dsimp only
  repeat' first | with_reducible assumption | with_reducible intro _ | with_reducible apply State.cancelEnd_ok | with_reducible apply State.bindComps_ok | with_reducible apply State.setQueue_ok | with_reducible apply State.setFld_ok | with_reducible apply ok_ite

theorem State.sqCfgWrite_ok {pq : List Instr} (s : State) (rq : Requester) (n q v : Nat) (hok : s.Ok pq) : (State.sqCfgWrite s rq n q v).Ok pq := by
  unfold State.sqCfgWrite
  try dsimp only
  repeat' first | with_reducible assumption | with_reducible intro _ | with_reducible apply State.setFld_ok | with_reducible apply State.setFlag_ok | with_reducible apply State.countErr_ok | with_reducible apply State.queueOn_ok | with_reducible apply State.queueOff_ok | with_reducible apply ok_ite

theorem execQueueEnable_ok {pq : List Instr} (rq : Requester) (n : Fin 128) (q : Fin 8) (cfg : Word) (s : State) (hok : s.Ok pq) : OutOk pq (execQueueEnable rq n q cfg s) := by
  unfold execQueueEnable
  try dsimp only
  repeat' first | with_reducible assumption | with_reducible intro _ | with_reducible apply State.tenWrite_ok | with_reducible apply State.sqCfgWrite_ok | with_reducible apply ok_ite | (fail_if_no_progress with_reducible apply ok_mk) | with_reducible apply each_ok | with_reducible apply next_ok

theorem execQueueDisable_ok {pq : List Instr} (rq : Requester) (n : Fin 128) (q : Fin 8) (cfg : Word) (s : State) (hok : s.Ok pq) : OutOk pq (execQueueDisable rq n q cfg s) := by
  unfold execQueueDisable
  try dsimp only
  repeat' first | with_reducible assumption | with_reducible intro _ | with_reducible apply State.tenWrite_ok | with_reducible apply State.sqCfgWrite_ok | with_reducible apply ok_ite | (fail_if_no_progress with_reducible apply ok_mk) | with_reducible apply each_ok | with_reducible apply next_ok

theorem State.stopJob_ok {pq : List Instr} (s : State) (order : Nat) (verdict : Nat × Nat × Nat) (hok : s.Ok pq) : (State.stopJob s order verdict).Ok pq := by
  unfold State.stopJob
  try dsimp only
  repeat' first | with_reducible assumption | with_reducible intro _ | with_reducible apply State.setJob_ok | with_reducible apply ok_ite

theorem State.dropLoads_ok {pq : List Instr} (s : State) (n q num : Nat) (hok : s.Ok pq) : (State.dropLoads s n q num).Ok pq := by
  unfold State.dropLoads
  try dsimp only
  repeat' first | with_reducible assumption | with_reducible intro _ | with_reducible apply ok_ite | (fail_if_no_progress with_reducible apply ok_mk)

theorem State.cancelDesc_ok {pq : List Instr} (s : State) (n q : Nat) (d : Desc) (hok : s.Ok pq) : (State.cancelDesc s n q d).Ok pq := by
  unfold State.cancelDesc
  try dsimp only
  repeat' first | with_reducible assumption | with_reducible intro _ | with_reducible apply State.complete_ok | with_reducible apply State.completeUnstarted_ok | with_reducible apply State.stopJob_ok | with_reducible apply State.dropLoads_ok | with_reducible apply ok_ite | (fail_if_no_progress with_reducible apply ok_mk) | with_reducible apply each_ok | with_reducible apply next_ok | with_reducible refine ok_snd (by with_reducible assumption) ?_ | with_reducible refine ok_fst (by with_reducible assumption) ?_ | with_reducible refine ok_some (by with_reducible assumption) ?_ | with_reducible apply foldl_ok | split

theorem State.cancelFetch_ok {pq : List Instr} (s : State) (n q : Nat) (a0 : Nat) (hok : s.Ok pq) : (State.cancelFetch s n q a0).Ok pq := by
  induction a0 generalizing s with
  | zero => unfold State.cancelFetch; first | exact hok
  | succ k ih =>
    unfold State.cancelFetch
    try dsimp only
    repeat' first | with_reducible assumption | with_reducible intro _ | with_reducible apply ih | with_reducible apply State.cancelDesc_ok | with_reducible apply State.fetchOne_ok | with_reducible apply State.setTen_ok | with_reducible apply State.addFld_ok | with_reducible apply ok_ite | (fail_if_no_progress with_reducible apply ok_mk) | with_reducible apply each_ok | with_reducible refine ok_snd (by with_reducible assumption) ?_ | with_reducible refine ok_fst (by with_reducible assumption) ?_ | with_reducible refine ok_some (by with_reducible assumption) ?_ | with_reducible apply foldl_ok | split

theorem State.cancelMore_ok {pq : List Instr} (s : State) (n q : Nat) (hok : s.Ok pq) : (State.cancelMore s n q).Ok pq := by
  unfold State.cancelMore
  try dsimp only
  repeat' first | with_reducible assumption | with_reducible intro _ | with_reducible apply State.cancelFetch_ok | with_reducible apply State.cancelEnd_ok

theorem State.cancel_ok {pq : List Instr} (s : State) (n q : Nat) (all : Bool) (hok : s.Ok pq) : (State.cancel s n q all).Ok pq := by
  unfold State.cancel
  try dsimp only
  repeat' first | with_reducible assumption | with_reducible intro _ | with_reducible apply State.cancelMore_ok | with_reducible apply State.cancelDesc_ok | with_reducible apply State.setTen_ok | with_reducible apply State.each_ok | with_reducible apply State.setFlag_ok | with_reducible apply State.setFld_ok | with_reducible apply ok_ite | (fail_if_no_progress with_reducible apply ok_mk) | with_reducible apply each_ok

theorem execTenantCancel_ok {pq : List Instr} (rq : Requester) (n : Fin 128) (q : Fin 8) (all : Bool) (s : State) (hok : s.Ok pq) : OutOk pq (execTenantCancel rq n q all s) := by
  unfold execTenantCancel
  try dsimp only
  repeat' first | with_reducible assumption | with_reducible intro _ | with_reducible apply State.tenWrite_ok | with_reducible apply State.cancel_ok | with_reducible apply ok_ite | (fail_if_no_progress with_reducible apply ok_mk) | with_reducible apply each_ok | with_reducible apply next_ok

theorem execDescriptorFetch_ok {pq : List Instr} (n : Fin 128) (q : Fin 8) (s : State) (hok : s.Ok pq) : OutOk pq (execDescriptorFetch n q s) := by
  unfold execDescriptorFetch
  try dsimp only
  repeat' first | with_reducible assumption | with_reducible intro _ | with_reducible apply State.cancelMore_ok | with_reducible apply State.fetchOne_ok | with_reducible apply ok_ite | (fail_if_no_progress with_reducible apply ok_mk) | with_reducible apply each_ok | with_reducible apply next_ok | with_reducible refine ok_snd (by with_reducible assumption) ?_ | with_reducible refine ok_fst (by with_reducible assumption) ?_ | with_reducible refine ok_some (by with_reducible assumption) ?_ | with_reducible apply foldl_ok | split

theorem State.cqHeadWrite_ok {pq : List Instr} (s : State) (rq : Requester) (n q v : Nat) (hok : s.Ok pq) : (State.cqHeadWrite s rq n q v).Ok pq := by
  unfold State.cqHeadWrite
  try dsimp only
  repeat' first | with_reducible assumption | with_reducible intro _ | with_reducible apply State.cancelMore_ok | with_reducible apply State.flushReport_ok | with_reducible apply State.flushEnded_ok | with_reducible apply State.tenRegErr_ok | with_reducible apply State.setFld_ok | with_reducible apply ok_ite | (fail_if_no_progress with_reducible apply ok_mk) | with_reducible apply each_ok | with_reducible refine ok_snd (by with_reducible assumption) ?_ | with_reducible refine ok_fst (by with_reducible assumption) ?_ | with_reducible refine ok_some (by with_reducible assumption) ?_ | with_reducible apply foldl_ok | split

theorem execCqHeadWrite_ok {pq : List Instr} (rq : Requester) (n : Fin 128) (q : Fin 8) (v : BitVec 16) (s : State) (hok : s.Ok pq) : OutOk pq (execCqHeadWrite rq n q v s) := by
  unfold execCqHeadWrite
  try dsimp only
  repeat' first | with_reducible assumption | with_reducible intro _ | with_reducible apply State.tenWrite_ok | with_reducible apply State.cqHeadWrite_ok | with_reducible apply ok_ite | (fail_if_no_progress with_reducible apply ok_mk) | with_reducible apply each_ok | with_reducible apply next_ok

/-! Companions. -/

theorem State.hpcFree_ok {pq : List Instr} (s : State) (h : Nat) (hok : s.Ok pq) : (State.hpcFree s h).Ok pq := by
  unfold State.hpcFree
  try dsimp only
  repeat' first | with_reducible assumption | with_reducible intro _ | with_reducible apply State.setFld_ok | with_reducible apply State.setFlag_ok

theorem State.hpcGrant_ok {pq : List Instr} (s : State) (rq : Requester) (h w : Nat) (hok : s.Ok pq) : (State.hpcGrant s rq h w).Ok pq := by
  unfold State.hpcGrant
  try dsimp only
  repeat' first | with_reducible assumption | with_reducible intro _ | with_reducible apply State.setFld_ok | with_reducible apply State.setFlag_ok | with_reducible apply State.countErr_ok | with_reducible apply ok_ite

theorem execHpcGrantWrite_ok {pq : List Instr} (rq : Requester) (h : Fin 16) (v : Word) (s : State) (hok : s.Ok pq) : OutOk pq (execHpcGrantWrite rq h v s) := by
  unfold execHpcGrantWrite
  try dsimp only
  repeat' first | with_reducible assumption | with_reducible intro _ | with_reducible apply State.privWrite_ok | with_reducible apply State.hpcGrant_ok | with_reducible apply ok_ite | (fail_if_no_progress with_reducible apply ok_mk) | with_reducible apply each_ok | with_reducible apply next_ok

theorem State.hpcStart_ok {pq : List Instr} (s : State) (h : Nat) (hok : s.Ok pq) : (State.hpcStart s h).Ok pq := by
  unfold State.hpcStart
  try dsimp only
  repeat' first | with_reducible assumption | with_reducible intro _ | with_reducible apply State.setFlag_ok | with_reducible apply State.setFld_ok | with_reducible apply ok_ite | (fail_if_no_progress with_reducible apply ok_mk)

theorem execHpcStart_ok {pq : List Instr} (rq : Requester) (h : Fin 16) (s : State) (hok : s.Ok pq) : OutOk pq (execHpcStart rq h s) := by
  unfold execHpcStart
  try dsimp only
  repeat' first | with_reducible assumption | with_reducible intro _ | with_reducible apply State.privWrite_ok | with_reducible apply State.hpcStart_ok | with_reducible apply ok_ite | (fail_if_no_progress with_reducible apply ok_mk) | with_reducible apply each_ok | with_reducible apply next_ok

theorem State.hpcStop_ok {pq : List Instr} (s : State) (h cause : Nat) (hok : s.Ok pq) : (State.hpcStop s h cause).Ok pq := by
  unfold State.hpcStop
  try dsimp only
  repeat' first | with_reducible assumption | with_reducible intro _ | with_reducible apply State.setFld_ok | with_reducible apply ok_ite | (fail_if_no_progress with_reducible apply ok_mk)

theorem execHpcStop_ok {pq : List Instr} (rq : Requester) (h : Fin 16) (s : State) (hok : s.Ok pq) : OutOk pq (execHpcStop rq h s) := by
  unfold execHpcStop
  try dsimp only
  repeat' first | with_reducible assumption | with_reducible intro _ | with_reducible apply State.privWrite_ok | with_reducible apply State.hpcStop_ok | with_reducible apply ok_ite | (fail_if_no_progress with_reducible apply ok_mk) | with_reducible apply each_ok | with_reducible apply next_ok

theorem State.hpcEnd_ok {pq : List Instr} (s : State) (h st code cause tval : Nat) (hok : s.Ok pq) : (State.hpcEnd s h st code cause tval).Ok pq := by
  unfold State.hpcEnd
  try dsimp only
  repeat' first | with_reducible assumption | with_reducible intro _ | with_reducible apply State.setFld_ok | with_reducible apply State.setFlag_ok | with_reducible apply State.setFld64_ok | with_reducible apply State.event_ok

theorem execCompanionEcall_ok {pq : List Instr} (h : Fin 16) (a7 a0 : Dword) (s : State) (hok : s.Ok pq) : OutOk pq (execCompanionEcall h a7 a0 s) := by
  unfold execCompanionEcall
  try dsimp only
  repeat' first | with_reducible assumption | with_reducible intro _ | with_reducible apply State.flog_ok | with_reducible apply State.hpcEnd_ok | with_reducible apply ok_ite | (fail_if_no_progress with_reducible apply ok_mk) | with_reducible apply each_ok | with_reducible apply next_ok

theorem State.hpcFault_ok {pq : List Instr} (s : State) (h : Nat) (c : CompanionCause) (tval : Nat) (hok : s.Ok pq) : (State.hpcFault s h c tval).Ok pq := by
  unfold State.hpcFault
  try dsimp only
  repeat' first | with_reducible assumption | with_reducible intro _ | with_reducible apply State.hpcEnd_ok | with_reducible apply State.flog_ok | with_reducible apply ok_ite

theorem execCompanionException_ok {pq : List Instr} (h : Fin 16) (c : CompanionCause) (tval : Dword) (s : State) (hok : s.Ok pq) : OutOk pq (execCompanionException h c tval s) := by
  unfold execCompanionException
  try dsimp only
  repeat' first | with_reducible assumption | with_reducible intro _ | with_reducible apply State.hpcFault_ok | with_reducible apply State.hubLost_ok | with_reducible apply ok_ite | (fail_if_no_progress with_reducible apply ok_mk) | with_reducible apply each_ok | with_reducible apply next_ok

theorem State.hpcStopped_ok {pq : List Instr} (s : State) (h : Nat) (hok : s.Ok pq) : (State.hpcStopped s h).Ok pq := by
  unfold State.hpcStopped
  try dsimp only
  repeat' first | with_reducible assumption | with_reducible intro _ | with_reducible apply State.hpcFree_ok | with_reducible apply State.hpcEnd_ok | with_reducible apply ok_ite | (fail_if_no_progress with_reducible apply ok_mk)

theorem execCompanionStopped_ok {pq : List Instr} (h : Fin 16) (s : State) (hok : s.Ok pq) : OutOk pq (execCompanionStopped h s) := by
  unfold execCompanionStopped
  try dsimp only
  repeat' first | with_reducible assumption | with_reducible intro _ | with_reducible apply State.hpcStopped_ok | with_reducible apply ok_ite | (fail_if_no_progress with_reducible apply ok_mk) | with_reducible apply each_ok | with_reducible apply next_ok

/-! Slices. -/

theorem State.setSliceState_ok {pq : List Instr} (s : State) (x st cause : Nat) (hok : s.Ok pq) : (State.setSliceState s x st cause).Ok pq := by
  unfold State.setSliceState
  try dsimp only
  repeat' first | with_reducible assumption | with_reducible intro _ | with_reducible apply State.trailPut_ok | with_reducible apply State.event_ok | with_reducible apply State.setFld_ok | with_reducible apply ok_ite

theorem State.scbCe_ok {pq : List Instr} (s : State) (pg : Nat) (hok : s.Ok pq) : (State.scbCe s pg).1.Ok pq := by
  unfold State.scbCe
  try dsimp only
  repeat' first | with_reducible assumption | with_reducible intro _ | with_reducible apply State.satFld_ok

theorem State.sramCe_ok {pq : List Instr} (s : State) (pg : Nat) (hok : s.Ok pq) : (State.sramCe s pg).Ok pq := by
  unfold State.sramCe
  try dsimp only
  repeat' first | with_reducible assumption | with_reducible intro _ | with_reducible apply State.scbCe_ok | with_reducible apply State.event_ok | with_reducible apply ok_ite

theorem State.scbUe_ok {pq : List Instr} (s : State) (pg lo hi : Nat) (hok : s.Ok pq) : (State.scbUe s pg lo hi).Ok pq := by
  unfold State.scbUe
  try dsimp only
  repeat' first | with_reducible assumption | with_reducible intro _ | with_reducible apply State.satFld_ok | with_reducible apply State.event_ok | with_reducible apply State.countErr_ok | with_reducible apply State.trailPut_ok | with_reducible apply ok_ite | (fail_if_no_progress with_reducible apply ok_mk)

theorem State.sliceBytes_ok {pq : List Instr} (s : State) (x n : Nat) (hok : s.Ok pq) : (State.sliceBytes s x n).Ok pq := by
  unfold State.sliceBytes
  try dsimp only
  repeat' first | with_reducible assumption | with_reducible intro _ | with_reducible apply State.setFld64_ok

theorem State.sliceReadCount_ok {pq : List Instr} (s : State) (x a n : Nat) (hok : s.Ok pq) : (State.sliceReadCount s x a n).Ok pq := by
  unfold State.sliceReadCount
  try dsimp only
  repeat' first | with_reducible assumption | with_reducible intro _ | with_reducible apply State.sliceBytes_ok | with_reducible apply ok_ite

theorem State.placeCount_ok {pq : List Instr} (s : State) (pl : Place) (n : Nat) (hok : s.Ok pq) : (State.placeCount s pl n).Ok pq := by
  unfold State.placeCount
  split
  · exact State.sliceReadCount_ok _ _ _ _ hok
  · exact hok

theorem State.sliceWrite_ok {pq : List Instr} (s : State) (x a : Nat) (bs : List Byte) (ep : Bool) (hok : s.Ok pq) : (State.sliceWrite s x a bs ep).Ok pq := by
  unfold State.sliceWrite
  try dsimp only
  repeat' first | with_reducible assumption | with_reducible intro _ | with_reducible apply State.countErr_ok | with_reducible apply State.sliceBytes_ok | with_reducible apply ok_ite | (fail_if_no_progress with_reducible apply ok_mk) | with_reducible apply ok_hmp_wr | with_reducible apply ok_hmp_clear | with_reducible apply ok_hmp_poison | with_reducible apply ok_stores_wr | with_reducible apply ok_stores_clear | with_reducible apply ok_stores_poison | with_reducible apply ok_slices_write

theorem State.placeWrite_ok {pq : List Instr} (s : State) (g : Nat) (pl : Place) (bs : List Byte) (ep : Bool) (hok : s.Ok pq) : (State.placeWrite s g pl bs ep).Ok pq := by
  unfold State.placeWrite
  try dsimp only
  repeat' first | with_reducible assumption | with_reducible intro _ | with_reducible apply State.countErr_ok | with_reducible apply State.sliceWrite_ok | with_reducible apply ok_ite | (fail_if_no_progress with_reducible apply ok_mk) | with_reducible apply each_ok | with_reducible apply next_ok | with_reducible refine ok_snd (by with_reducible assumption) ?_ | with_reducible refine ok_fst (by with_reducible assumption) ?_ | with_reducible refine ok_some (by with_reducible assumption) ?_ | with_reducible apply foldl_ok | split

theorem State.relocate_ok {pq : List Instr} (s : State) (p g x : Nat) (h : s.Ok pq) : (s.relocate p g x).Ok pq := by
  unfold State.relocate
  apply State.event_ok
  split
  · apply State.setBacking_ok
    exact ⟨h.1, h.2.1, h.2.2.1, h.2.2.2.1, SMem.wf_markLost _ _ (SMem.wf_clear _ _ _ (ok_slices h))⟩
  · exact State.setBacking_ok _ _ _ h

theorem State.sliceFail_ok {pq : List Instr} (s : State) (x cause : Nat) (hok : s.Ok pq) : (State.sliceFail s x cause).Ok pq := by
  unfold State.sliceFail
  try dsimp only
  repeat' first | with_reducible assumption | with_reducible intro _ | with_reducible apply State.setSliceState_ok | with_reducible apply State.relocate_ok | with_reducible apply ok_ite | (fail_if_no_progress with_reducible apply ok_mk) | with_reducible apply each_ok | with_reducible apply next_ok | with_reducible refine ok_snd (by with_reducible assumption) ?_ | with_reducible refine ok_fst (by with_reducible assumption) ?_ | with_reducible refine ok_some (by with_reducible assumption) ?_ | with_reducible apply foldl_ok | split

theorem State.sliceUe_ok {pq : List Instr} (s : State) (x a : Nat) (hok : s.Ok pq) : (State.sliceUe s x a).Ok pq := by
  unfold State.sliceUe
  try dsimp only
  repeat' first | with_reducible assumption | with_reducible intro _ | with_reducible apply State.scbUe_ok | with_reducible apply State.sliceFail_ok | with_reducible apply ok_ite | (fail_if_no_progress with_reducible apply ok_mk) | with_reducible apply ok_hmp_wr | with_reducible apply ok_hmp_clear | with_reducible apply ok_hmp_poison | with_reducible apply ok_stores_wr | with_reducible apply ok_stores_clear | with_reducible apply ok_stores_poison | with_reducible apply ok_slices_write | with_reducible apply ok_slices_clear | with_reducible apply ok_slices_pois

theorem State.sliceCross_ok {pq : List Instr} (s : State) (x : Nat) (hok : s.Ok pq) : (State.sliceCross s x).Ok pq := by
  unfold State.sliceCross
  try dsimp only
  repeat' first | with_reducible assumption | with_reducible intro _ | with_reducible apply State.setSliceState_ok | with_reducible apply State.event_ok | with_reducible apply ok_ite

theorem State.sliceCe_ok {pq : List Instr} (s : State) (x : Nat) (hok : s.Ok pq) : (State.sliceCe s x).Ok pq := by
  unfold State.sliceCe
  try dsimp only
  repeat' first | with_reducible assumption | with_reducible intro _ | with_reducible apply State.sliceCross_ok | with_reducible apply State.scbCe_ok | with_reducible apply ok_ite

theorem State.mapOut_ok {pq : List Instr} (s : State) (p : Nat) (hok : s.Ok pq) : (State.mapOut s p).Ok pq := by
  unfold State.mapOut
  try dsimp only
  repeat' first | with_reducible assumption | with_reducible intro _ | with_reducible apply State.each_ok | with_reducible apply State.addFact_ok | with_reducible apply State.setSliceState_ok | with_reducible apply ok_ite | (fail_if_no_progress with_reducible apply ok_mk) | with_reducible apply each_ok

theorem State.nearReset_ok {pq : List Instr} (s : State) (p : Nat) (hok : s.Ok pq) : (State.nearReset s p).Ok pq := by
  unfold State.nearReset
  try dsimp only
  repeat' first | with_reducible assumption | with_reducible intro _ | with_reducible apply State.each_ok | with_reducible apply State.setBacking_ok | with_reducible apply ok_ite | (fail_if_no_progress with_reducible apply ok_mk) | with_reducible apply each_ok

theorem SMem.wf_slotClear (m : SMem) (l : PartMem) (k : Nat) (h : m.wf = true) : (m.slotClear l k).wf = true := by
  unfold SMem.slotClear
  refine SMem.wf_fold _ _ _ (fun m i hm => ?_) (SMem.wf_fold _ _ _ (fun m x hm => SMem.wf_clear _ _ _ hm) h)
  split
  · obtain ⟨h1, h2, h3, h4⟩ := (SMem.wf_iff m).1 hm
    exact (SMem.wf_iff _).2 ⟨Tab.wf_clear _ _ _ _ h1, h2, h3, Tab.wf_clear _ _ _ _ h4⟩
  · exact hm

theorem ok_slices_set {pq : List Instr} {s : State} (m : SMem) (h : s.Ok pq) (hm : m.wf = true) : State.Ok pq { s with slices := m } :=
  ⟨h.1, h.2.1, h.2.2.1, h.2.2.2.1, hm⟩

theorem State.rebuild_ok {pq : List Instr} (s : State) (p : Nat) (build wipe : Bool) (h : s.Ok pq) :
    (s.rebuild p build wipe).1.Ok pq := by
  have h := State.mapOut_ok s p h
  unfold State.rebuild
  generalize s.mapOut p = s at h ⊢
  refine ok_ite_fst h ?_
  apply each_ok (fun _ s h => State.setBacking_ok _ _ _ h)
  apply State.nearReset_ok
  apply State.setPm_ok
  apply ok_slices_set _ h
  refine SMem.wf_fold _ _ _ (fun m x hm => SMem.wf_slotClear _ _ _ hm) (SMem.wf_fold _ _ _ (fun m x hm => ?_) (ok_slices h))
  exact SMem.wf_ite (SMem.wf_clear _ _ _ hm) (SMem.wf_clearLost _ _ _ (SMem.wf_ite (SMem.wf_clear _ _ _
    (SMem.wf_ite (SMem.wf_clear _ _ _ hm) hm)) (SMem.wf_ite (SMem.wf_clear _ _ _ hm) hm)))

/-! Operands. -/

theorem State.countRemote_ok {pq : List Instr} (s : State) (x y : Nat) (hok : s.Ok pq) : (State.countRemote s x y).Ok pq := by
  unfold State.countRemote
  try dsimp only
  repeat' first | with_reducible assumption | with_reducible intro _ | with_reducible apply State.addFld_ok | with_reducible apply ok_ite

theorem State.hmpRead_ok {pq : List Instr} (s : State) (a n : Nat) (hok : s.Ok pq) : (State.hmpRead s a n).2.2.Ok pq := by
  unfold State.hmpRead
  try dsimp only
  repeat' first | with_reducible assumption | with_reducible intro _ | with_reducible apply State.tick_ok | with_reducible apply ok_ite | (fail_if_no_progress with_reducible apply ok_mk) | with_reducible apply each_ok | with_reducible apply ok_ite_fst | with_reducible refine ok_snd (by with_reducible assumption) ?_ | with_reducible refine ok_fst (by with_reducible assumption) ?_ | with_reducible refine ok_some (by with_reducible assumption) ?_ | with_reducible apply foldl_ok | split

theorem State.memRead_ok {pq : List Instr} (s : State) (x addr n : Nat) (h : s.Ok pq) : (s.memRead x addr n).2.2.Ok pq := by
  unfold State.memRead
  dsimp only
  repeat' first | with_reducible assumption | with_reducible intro _ | with_reducible apply State.hmpRead_ok | with_reducible apply State.countRemote_ok | with_reducible apply State.sliceReadCount_ok | with_reducible apply State.placeCount_ok | (refine State.placeCount_ok _ _ _ ?_; assumption) | with_reducible apply ok_ite | (fail_if_no_progress with_reducible apply ok_mk) | with_reducible apply each_ok | with_reducible apply ok_ite_fst | with_reducible refine ok_snd (by with_reducible assumption) ?_ | with_reducible refine ok_fst (by with_reducible assumption) ?_ | with_reducible refine ok_some (by with_reducible assumption) ?_ | with_reducible apply foldl_ok | split

theorem State.kvTouch_ok {pq : List Instr} (s : State) (p o n : Nat) (hok : s.Ok pq) : (State.kvTouch s p o n).Ok pq := by
  unfold State.kvTouch
  try dsimp only
  repeat' first | with_reducible assumption | with_reducible intro _ | with_reducible apply ok_ite | (fail_if_no_progress with_reducible apply ok_mk)

theorem State.memWrite_ok {pq : List Instr} (s : State) (x addr : Nat) (bs : List Byte) (ep : Bool) (hok : s.Ok pq) : (State.memWrite s x addr bs ep).Ok pq := by
  unfold State.memWrite
  try dsimp only
  repeat' first | with_reducible assumption | with_reducible intro _ | with_reducible apply State.kvTouch_ok | with_reducible apply State.countRemote_ok | with_reducible apply State.placeWrite_ok | with_reducible apply State.vcTouch_ok | with_reducible apply ok_ite | (fail_if_no_progress with_reducible apply ok_mk) | with_reducible apply ok_hmp_wr | with_reducible apply ok_hmp_clear | with_reducible apply ok_hmp_poison | with_reducible apply ok_stores_wr | with_reducible apply ok_stores_clear | with_reducible apply ok_stores_poison | with_reducible apply ok_slices_write | with_reducible apply ok_slices_clear | with_reducible apply ok_slices_pois | with_reducible apply ok_slices_markBoth | with_reducible apply ok_hmp_fold | with_reducible apply Mem.wf_clear | with_reducible apply Mem.wf_wr | with_reducible apply Mem.wf_land | with_reducible apply each_ok | with_reducible refine ok_snd (by with_reducible assumption) ?_ | with_reducible refine ok_fst (by with_reducible assumption) ?_ | with_reducible refine ok_some (by with_reducible assumption) ?_ | with_reducible apply foldl_ok | split

/-! Apertures. -/

theorem State.hpcGot_ok {pq : List Instr} (s : State) (h va : Nat) (poison : Bool) (next : State → State) (hok : s.Ok pq) (hnext : ∀ s : State, s.Ok pq → (next s).Ok pq) : (State.hpcGot s h va poison next).Ok pq := by
  unfold State.hpcGot
  try dsimp only
  repeat' first | with_reducible assumption | with_reducible intro _ | with_reducible apply hnext | with_reducible apply State.hpcFault_ok | with_reducible apply ok_ite

theorem State.hpcRead_ok {pq : List Instr} (s : State) (h va : Nat) (k : HpcKind) (len : Nat) (hok : s.Ok pq) : (State.hpcRead s h va k len).Ok pq := by
  unfold State.hpcRead
  try dsimp only
  repeat' first | with_reducible assumption | with_reducible intro _ | with_reducible apply State.hpcGot_ok | with_reducible apply State.hmpRead_ok | with_reducible apply State.sliceReadCount_ok | with_reducible apply State.placeCount_ok | (refine State.placeCount_ok _ _ _ ?_; assumption) | with_reducible apply State.hpcFault_ok | with_reducible apply State.emit_ok | with_reducible apply ok_ite | (fail_if_no_progress with_reducible apply ok_mk) | with_reducible apply each_ok | with_reducible refine ok_snd (by with_reducible assumption) ?_ | with_reducible refine ok_fst (by with_reducible assumption) ?_ | with_reducible refine ok_some (by with_reducible assumption) ?_ | with_reducible apply foldl_ok | split

theorem State.hpcPut_ok {pq : List Instr} (s : State) (a : Nat) (bs : List Byte) (hok : s.Ok pq) : (State.hpcPut s a bs).Ok pq := by
  unfold State.hpcPut
  try dsimp only
  repeat' first | with_reducible assumption | with_reducible intro _ | with_reducible apply State.vcTouch_ok | with_reducible apply ok_ite | (fail_if_no_progress with_reducible apply ok_mk) | with_reducible apply ok_hmp_wr

theorem State.hpcStore_ok {pq : List Instr} (s : State) (h va a : Nat) (k : HpcKind) (data : List Byte) (hok : s.Ok pq) : (State.hpcStore s h va a k data).Ok pq := by
  unfold State.hpcStore
  try dsimp only
  repeat' first | with_reducible assumption | with_reducible intro _ | with_reducible apply State.hpcPut_ok | with_reducible apply State.hpcGot_ok | with_reducible apply State.hmpRead_ok | with_reducible apply State.tick_ok | with_reducible apply State.emit_ok | with_reducible apply ok_ite | (fail_if_no_progress with_reducible apply ok_mk) | with_reducible apply each_ok | with_reducible refine ok_snd (by with_reducible assumption) ?_ | with_reducible refine ok_fst (by with_reducible assumption) ?_ | with_reducible refine ok_some (by with_reducible assumption) ?_ | with_reducible apply foldl_ok | split

theorem State.hpcWrite_ok {pq : List Instr} (s : State) (h va : Nat) (k : HpcKind) (data : List Byte) (hok : s.Ok pq) : (State.hpcWrite s h va k data).Ok pq := by
  unfold State.hpcWrite
  try dsimp only
  repeat' first | with_reducible assumption | with_reducible intro _ | with_reducible apply State.hpcStore_ok | with_reducible apply State.kvTouch_ok | with_reducible apply State.placeWrite_ok | with_reducible apply State.hpcFault_ok | with_reducible apply State.emit_ok | with_reducible apply ok_ite | (fail_if_no_progress with_reducible apply ok_mk) | with_reducible apply each_ok | with_reducible refine ok_snd (by with_reducible assumption) ?_ | with_reducible refine ok_fst (by with_reducible assumption) ?_ | with_reducible refine ok_some (by with_reducible assumption) ?_ | with_reducible apply foldl_ok | split

theorem execApertureWrite_ok {pq : List Instr} (src : ApSrc) (off : BitVec 28) (data : List Byte) (ep : Bool) (s : State) (hok : s.Ok pq) : OutOk pq (execApertureWrite src off data ep s) := by
  unfold execApertureWrite
  try dsimp only
  repeat' first | with_reducible assumption | with_reducible intro _ | with_reducible apply State.hpcWrite_ok | with_reducible apply State.apWriteFrom_ok | with_reducible apply State.ownApWrite_ok | with_reducible apply State.countErr_ok | with_reducible apply ok_ite | (fail_if_no_progress with_reducible apply ok_mk) | with_reducible apply each_ok | with_reducible apply next_ok | with_reducible refine ok_snd (by with_reducible assumption) ?_ | with_reducible refine ok_fst (by with_reducible assumption) ?_ | with_reducible refine ok_some (by with_reducible assumption) ?_ | with_reducible apply foldl_ok | split

theorem execApertureRead_ok {pq : List Instr} (src : ApSrc) (off : BitVec 28) (r : ApRead) (s : State) (hok : s.Ok pq) : OutOk pq (execApertureRead src off r s) := by
  unfold execApertureRead
  try dsimp only
  repeat' first | with_reducible assumption | with_reducible intro _ | with_reducible apply State.hpcRead_ok | with_reducible apply State.apReadFrom_ok | with_reducible apply State.ownApRead_ok | with_reducible apply State.landClient_ok | with_reducible apply State.emit_ok | with_reducible apply ok_ite | (fail_if_no_progress with_reducible apply ok_mk) | with_reducible apply each_ok | with_reducible apply next_ok | with_reducible refine ok_snd (by with_reducible assumption) ?_ | with_reducible refine ok_fst (by with_reducible assumption) ?_ | with_reducible refine ok_some (by with_reducible assumption) ?_ | with_reducible apply foldl_ok | split

end Sys2Proof.Machine
end

