-- ==== Sys2Proof/Laws/OkCores.lean ====
section
/-! SUPPORT. Canonical form and queue: queues, jobs, the Peken cores, the movers, the KV pools and the slice commands keep them, one lemma per function. -/
namespace Sys2Proof.Machine

/-! Jobs. -/

theorem State.clearScratch_ok {pq : List Instr} (s : State) (x : Nat) (h : s.Ok pq) : (s.clearScratch x).Ok pq :=
  ⟨h.1, h.2.1, h.2.2.1, Mem.wf_clearLines _ _ h.2.2.2.1, h.2.2.2.2⟩

theorem State.clearStores_ok {pq : List Instr} (s : State) (x : Nat) (hok : s.Ok pq) : (State.clearStores s x).Ok pq := by
  unfold State.clearStores
  try dsimp only
  repeat' first | with_reducible assumption | with_reducible intro _ | with_reducible apply ok_ite | (fail_if_no_progress with_reducible apply ok_mk) | with_reducible apply ok_hmp_wr | with_reducible apply ok_hmp_clear | with_reducible apply ok_hmp_poison | with_reducible apply ok_stores_wr | with_reducible apply ok_stores_clear

theorem State.clearStoreAt_ok {pq : List Instr} (s : State) (y o n : Nat) (hok : s.Ok pq) : (State.clearStoreAt s y o n).Ok pq := by
  unfold State.clearStoreAt
  try dsimp only
  repeat' first | with_reducible assumption | with_reducible intro _ | with_reducible apply ok_ite | (fail_if_no_progress with_reducible apply ok_mk) | with_reducible apply ok_hmp_wr | with_reducible apply ok_hmp_clear | with_reducible apply ok_hmp_poison | with_reducible apply ok_stores_wr | with_reducible apply ok_stores_clear

theorem State.setEt_ok {pq : List Instr} (s : State) (k : Nat) (v : EtEntry) (hok : s.Ok pq) : (State.setEt s k v).Ok pq := by
  unfold State.setEt
  try dsimp only
  repeat' first | with_reducible assumption | with_reducible intro _ | with_reducible apply ok_ite | (fail_if_no_progress with_reducible apply ok_mk)

theorem State.etLearn_ok {pq : List Instr} (s : State) (n model energy us : Nat) (hok : s.Ok pq) : (State.etLearn s n model energy us).Ok pq := by
  unfold State.etLearn
  try dsimp only
  repeat' first | with_reducible assumption | with_reducible intro _ | with_reducible apply State.setEt_ok | with_reducible apply ok_ite | (fail_if_no_progress with_reducible apply ok_mk) | with_reducible apply each_ok | with_reducible apply next_ok | with_reducible refine ok_snd (by with_reducible assumption) ?_ | with_reducible refine ok_fst (by with_reducible assumption) ?_ | with_reducible refine ok_some (by with_reducible assumption) ?_ | with_reducible apply foldl_ok | split

theorem State.etDrop_ok {pq : List Instr} (s : State) (n : Nat) (hok : s.Ok pq) : (State.etDrop s n).Ok pq := by
  unfold State.etDrop
  try dsimp only
  repeat' first | with_reducible assumption | with_reducible intro _ | with_reducible apply ok_ite | (fail_if_no_progress with_reducible apply ok_mk)

theorem State.resDropCore_ok {pq : List Instr} (s : State) (k x : Nat) (hok : s.Ok pq) : (State.resDropCore s k x).Ok pq := by
  unfold State.resDropCore
  try dsimp only
  repeat' first | with_reducible assumption | with_reducible intro _ | with_reducible apply State.setRes_ok

theorem State.rezDrop_ok {pq : List Instr} (s : State) (x k : Nat) (hok : s.Ok pq) : (State.rezDrop s x k).Ok pq := by
  unfold State.rezDrop
  try dsimp only
  repeat' first | with_reducible assumption | with_reducible intro _ | with_reducible apply State.setFld_ok | with_reducible apply State.setFlag_ok

theorem State.evict_ok {pq : List Instr} (s : State) (x k : Nat) (hok : s.Ok pq) : (State.evict s x k).Ok pq := by
  unfold State.evict
  try dsimp only
  repeat' first | with_reducible assumption | with_reducible intro _ | with_reducible apply State.clearStoreAt_ok | with_reducible apply State.resDropCore_ok | with_reducible apply State.rezDrop_ok | with_reducible apply ok_ite | (fail_if_no_progress with_reducible apply ok_mk) | with_reducible apply each_ok | with_reducible apply next_ok | with_reducible refine ok_snd (by with_reducible assumption) ?_ | with_reducible refine ok_fst (by with_reducible assumption) ?_ | with_reducible refine ok_some (by with_reducible assumption) ?_ | with_reducible apply foldl_ok | split

theorem State.dropResLoads_ok {pq : List Instr} (s : State) (k : Nat) (hok : s.Ok pq) : (State.dropResLoads s k).Ok pq := by
  unfold State.dropResLoads
  try dsimp only
  repeat' first | with_reducible assumption | with_reducible intro _ | with_reducible apply ok_ite | (fail_if_no_progress with_reducible apply ok_mk)

theorem State.resRemove_ok {pq : List Instr} (s : State) (k : Nat) (hok : s.Ok pq) : (State.resRemove s k).Ok pq := by
  unfold State.resRemove
  try dsimp only
  repeat' first | with_reducible assumption | with_reducible intro _ | with_reducible apply State.dropResLoads_ok | with_reducible apply State.rezDrop_ok | with_reducible apply State.clearStoreAt_ok | with_reducible apply State.setRes_ok | with_reducible apply State.each_ok | with_reducible apply ok_ite | (fail_if_no_progress with_reducible apply ok_mk) | with_reducible apply each_ok | with_reducible refine ok_snd (by with_reducible assumption) ?_ | with_reducible refine ok_fst (by with_reducible assumption) ?_ | with_reducible refine ok_some (by with_reducible assumption) ?_ | with_reducible apply foldl_ok | split

theorem State.resRemoveTenant_ok {pq : List Instr} (s : State) (n : Nat) (hok : s.Ok pq) : (State.resRemoveTenant s n).Ok pq := by
  unfold State.resRemoveTenant
  try dsimp only
  repeat' first | with_reducible assumption | with_reducible intro _ | with_reducible apply State.each_ok | with_reducible apply State.resRemove_ok | with_reducible apply ok_ite | (fail_if_no_progress with_reducible apply ok_mk) | with_reducible apply each_ok

theorem State.resLoseCore_ok {pq : List Instr} (s : State) (x : Nat) (hok : s.Ok pq) : (State.resLoseCore s x).Ok pq := by
  unfold State.resLoseCore
  try dsimp only
  repeat' first | with_reducible assumption | with_reducible intro _ | with_reducible apply State.each_ok | with_reducible apply State.resDropCore_ok | with_reducible apply ok_ite | (fail_if_no_progress with_reducible apply ok_mk) | with_reducible apply each_ok

theorem State.setLoads_ok {pq : List Instr} (s : State) (x : Nat) (l : List LoadOp) (hok : s.Ok pq) : (State.setLoads s x l).Ok pq := by
  unfold State.setLoads
  try dsimp only
  repeat' first | with_reducible assumption | with_reducible intro _ | with_reducible apply ok_ite | (fail_if_no_progress with_reducible apply ok_mk)

theorem State.rotaPick_ok {pq : List Instr} (s : State) (p w : Nat) (elig : Nat → Bool) (hok : s.Ok pq) : (State.rotaPick s p w elig).2.Ok pq := by
  unfold State.rotaPick
  try dsimp only
  repeat' first | with_reducible assumption | with_reducible intro _ | with_reducible apply State.setFld_ok | with_reducible apply State.satFld_ok | with_reducible apply ok_ite | (fail_if_no_progress with_reducible apply ok_mk) | with_reducible apply each_ok | with_reducible apply next_ok | with_reducible refine ok_snd (by with_reducible assumption) ?_ | with_reducible refine ok_fst (by with_reducible assumption) ?_ | with_reducible refine ok_some (by with_reducible assumption) ?_ | with_reducible apply foldl_ok | split

theorem State.setVerdict_ok {pq : List Instr} (s : State) (x status detail : Nat) (hok : s.Ok pq) : (State.setVerdict s x status detail).Ok pq := by
  unfold State.setVerdict
  try dsimp only
  repeat' first | with_reducible assumption | with_reducible intro _ | with_reducible apply State.setJob_ok | with_reducible apply ok_ite | (fail_if_no_progress with_reducible apply ok_mk) | with_reducible apply each_ok | with_reducible apply next_ok | with_reducible refine ok_snd (by with_reducible assumption) ?_ | with_reducible refine ok_fst (by with_reducible assumption) ?_ | with_reducible refine ok_some (by with_reducible assumption) ?_ | with_reducible apply foldl_ok | split

theorem State.coreFault_ok {pq : List Instr} (s : State) (x code src hi addr pc : Nat) (hok : s.Ok pq) : (State.coreFault s x code src hi addr pc).Ok pq := by
  unfold State.coreFault
  try dsimp only
  repeat' first | with_reducible assumption | with_reducible intro _ | with_reducible apply State.setFld_ok | with_reducible apply State.setFlag_ok | with_reducible apply State.setFld64_ok | with_reducible apply State.setInts_ok | with_reducible apply State.countErr_ok | with_reducible apply State.flog_ok | with_reducible apply State.setVerdict_ok | with_reducible apply ok_ite | (fail_if_no_progress with_reducible apply ok_mk) | with_reducible apply each_ok | with_reducible apply next_ok | with_reducible refine ok_snd (by with_reducible assumption) ?_ | with_reducible refine ok_fst (by with_reducible assumption) ?_ | with_reducible refine ok_some (by with_reducible assumption) ?_ | with_reducible apply foldl_ok | split

theorem State.corePoison_ok {pq : List Instr} (s : State) (x block consumer space addr : Nat) (hok : s.Ok pq) : (State.corePoison s x block consumer space addr).Ok pq := by
  unfold State.corePoison
  try dsimp only
  repeat' first | with_reducible assumption | with_reducible intro _ | with_reducible apply State.event_ok | with_reducible apply State.flog_ok | with_reducible apply State.setVerdict_ok | with_reducible apply ok_ite | (fail_if_no_progress with_reducible apply ok_mk) | with_reducible apply each_ok | with_reducible apply next_ok | with_reducible refine ok_snd (by with_reducible assumption) ?_ | with_reducible refine ok_fst (by with_reducible assumption) ?_ | with_reducible refine ok_some (by with_reducible assumption) ?_ | with_reducible apply foldl_ok | split

theorem State.jobRegs_ok {pq : List Instr} (s : State) (x : Nat) (j : Job) (rank tag : Nat) (hok : s.Ok pq) : (State.jobRegs s x j rank tag).Ok pq := by
  unfold State.jobRegs
  try dsimp only
  repeat' first | with_reducible assumption | with_reducible intro _ | with_reducible apply State.setFld_ok | with_reducible apply State.setFlag_ok

theorem State.jobStart_ok {pq : List Instr} (s : State) (n q p : Nat) (d : Desc) (k : Nat) (gs : List Nat) (hok : s.Ok pq) : (State.jobStart s n q p d k gs).Ok pq := by
  unfold State.jobStart
  try dsimp only
  repeat' first | with_reducible assumption | with_reducible intro _ | with_reducible apply State.jobRegs_ok | with_reducible apply State.setDesc_ok | with_reducible apply State.startDesc_ok | with_reducible apply State.setJob_ok | with_reducible apply State.setCore_ok | with_reducible apply State.setRes_ok | with_reducible apply State.each_ok | with_reducible apply ok_ite | (fail_if_no_progress with_reducible apply ok_mk) | with_reducible apply each_ok

theorem State.coreToIdle_ok {pq : List Instr} (s : State) (x : Nat) (j : Job) (hok : s.Ok pq) : (State.coreToIdle s x j).Ok pq := by
  unfold State.coreToIdle
  try dsimp only
  repeat' first | with_reducible assumption | with_reducible intro _ | with_reducible apply State.setFld_ok | with_reducible apply State.setFlag_ok | with_reducible apply State.addFld_ok | with_reducible apply State.setCore_ok | with_reducible apply State.clearScratch_ok | with_reducible apply State.resDropCore_ok | with_reducible apply ok_ite | (fail_if_no_progress with_reducible apply ok_mk) | with_reducible apply each_ok | with_reducible apply next_ok | with_reducible refine ok_snd (by with_reducible assumption) ?_ | with_reducible refine ok_fst (by with_reducible assumption) ?_ | with_reducible refine ok_some (by with_reducible assumption) ?_ | with_reducible apply foldl_ok | split

theorem State.jobEnd_ok {pq : List Instr} (s : State) (k : Nat) (hok : s.Ok pq) : (State.jobEnd s k).Ok pq := by
  unfold State.jobEnd
  try dsimp only
  repeat' first | with_reducible assumption | with_reducible intro _ | with_reducible apply State.each_ok | with_reducible apply State.setJob_ok | with_reducible apply State.complete_ok | with_reducible apply State.etLearn_ok | with_reducible apply State.coreToIdle_ok | with_reducible apply ok_ite | (fail_if_no_progress with_reducible apply ok_mk) | with_reducible apply each_ok | with_reducible apply next_ok | with_reducible refine ok_snd (by with_reducible assumption) ?_ | with_reducible refine ok_fst (by with_reducible assumption) ?_ | with_reducible refine ok_some (by with_reducible assumption) ?_ | with_reducible apply foldl_ok | split

theorem State.jobCheck_ok {pq : List Instr} (s : State) (k : Nat) (hok : s.Ok pq) : (State.jobCheck s k).Ok pq := by
  unfold State.jobCheck
  try dsimp only
  repeat' first | with_reducible assumption | with_reducible intro _ | with_reducible apply State.jobEnd_ok | with_reducible apply ok_ite

theorem execDispatch_ok {pq : List Instr} (p : Fin 8) (s : State) (hok : s.Ok pq) : OutOk pq (execDispatch p s) := by
  unfold execDispatch
  try dsimp only
  repeat' first | with_reducible assumption | with_reducible intro _ | with_reducible apply State.setDsp_ok | with_reducible apply ok_ite | (fail_if_no_progress with_reducible apply ok_mk) | with_reducible apply each_ok | with_reducible apply next_ok | with_reducible refine ok_snd (by with_reducible assumption) ?_ | with_reducible refine ok_fst (by with_reducible assumption) ?_ | with_reducible refine ok_some (by with_reducible assumption) ?_ | with_reducible apply foldl_ok | split

theorem State.onPick_ok {pq : List Instr} (s : State) (p kind : Nat) (f : Nat → Nat → Desc → State → State) (hok : s.Ok pq) (hf : ∀ x0 x1 x2 (s : State), s.Ok pq → (f x0 x1 x2 s).Ok pq) : (State.onPick s p kind f).Ok pq := by
  unfold State.onPick
  try dsimp only
  repeat' first | with_reducible assumption | with_reducible intro _ | with_reducible apply State.setDsp_ok | with_reducible apply hf | with_reducible apply ok_ite | (fail_if_no_progress with_reducible apply ok_mk) | with_reducible apply each_ok | with_reducible apply next_ok | with_reducible refine ok_snd (by with_reducible assumption) ?_ | with_reducible refine ok_fst (by with_reducible assumption) ?_ | with_reducible refine ok_some (by with_reducible assumption) ?_ | with_reducible apply foldl_ok | split

theorem State.addLoads_ok {pq : List Instr} (s : State) (k : Nat) (xs : List Nat) (desc : Option (Nat × Nat × Nat)) (hok : s.Ok pq) : (State.addLoads s k xs desc).Ok pq := by
  unfold State.addLoads
  try dsimp only
  repeat' first | with_reducible assumption | with_reducible intro _ | with_reducible apply State.setFlag_ok | with_reducible apply State.each_ok | with_reducible apply State.setLoads_ok | with_reducible apply ok_ite | (fail_if_no_progress with_reducible apply ok_mk) | with_reducible apply each_ok

theorem execJobRun_ok {pq : List Instr} (p : Fin 8) (s : State) (hok : s.Ok pq) : OutOk pq (execJobRun p s) := by
  unfold execJobRun
  try dsimp only
  repeat' first | with_reducible assumption | with_reducible intro _ | with_reducible apply State.addLoads_ok | with_reducible apply State.onPick_ok | with_reducible apply State.jobStart_ok | with_reducible apply State.rotaPick_ok | with_reducible apply State.setDesc_ok | with_reducible apply State.completeUnstarted_ok | with_reducible apply ok_ite | (fail_if_no_progress with_reducible apply ok_mk) | with_reducible apply each_ok | with_reducible apply next_ok | with_reducible refine ok_snd (by with_reducible assumption) ?_ | with_reducible refine ok_fst (by with_reducible assumption) ?_ | with_reducible refine ok_some (by with_reducible assumption) ?_ | with_reducible apply foldl_ok | split

theorem State.loadOn_ok {pq : List Instr} (s : State) (p n q : Nat) (d : Desc) (k : Nat) (hok : s.Ok pq) : (State.loadOn s p n q d k).Ok pq := by
  unfold State.loadOn
  try dsimp only
  repeat' first | with_reducible assumption | with_reducible intro _ | with_reducible apply State.addLoads_ok | with_reducible apply State.resRemove_ok | with_reducible apply State.startDesc_ok | with_reducible apply State.completeUnstarted_ok | with_reducible apply State.complete_ok | with_reducible apply State.setFld_ok | with_reducible apply ok_ite

theorem execJobLoad_ok {pq : List Instr} (p : Fin 8) (s : State) (hok : s.Ok pq) : OutOk pq (execJobLoad p s) := by
  unfold execJobLoad
  try dsimp only
  repeat' first | with_reducible assumption | with_reducible intro _ | with_reducible apply State.loadOn_ok | with_reducible apply State.onPick_ok | with_reducible apply State.completeUnstarted_ok | with_reducible apply State.setRes_ok | with_reducible apply ok_ite | (fail_if_no_progress with_reducible apply ok_mk) | with_reducible apply each_ok | with_reducible apply next_ok | with_reducible refine ok_snd (by with_reducible assumption) ?_ | with_reducible refine ok_fst (by with_reducible assumption) ?_ | with_reducible refine ok_some (by with_reducible assumption) ?_ | with_reducible apply foldl_ok | split

theorem execJobUnload_ok {pq : List Instr} (p : Fin 8) (s : State) (hok : s.Ok pq) : OutOk pq (execJobUnload p s) := by
  unfold execJobUnload
  try dsimp only
  repeat' first | with_reducible assumption | with_reducible intro _ | with_reducible apply State.onPick_ok | with_reducible apply State.resRemove_ok | with_reducible apply State.completeUnstarted_ok | with_reducible apply ok_ite | (fail_if_no_progress with_reducible apply ok_mk) | with_reducible apply each_ok | with_reducible apply next_ok | with_reducible refine ok_snd (by with_reducible assumption) ?_ | with_reducible refine ok_fst (by with_reducible assumption) ?_ | with_reducible refine ok_some (by with_reducible assumption) ?_ | with_reducible apply foldl_ok | split

theorem State.makeRoom_ok {pq : List Instr} (s : State) (x : Nat) (e : Resid) (hok : s.Ok pq) : (State.makeRoom s x e).Ok pq := by
  unfold State.makeRoom
  try dsimp only
  repeat' first | with_reducible assumption | with_reducible intro _ | with_reducible apply State.each_ok | with_reducible apply State.evict_ok | with_reducible apply ok_ite | (fail_if_no_progress with_reducible apply ok_mk) | with_reducible apply each_ok | with_reducible apply next_ok | with_reducible refine ok_snd (by with_reducible assumption) ?_ | with_reducible refine ok_fst (by with_reducible assumption) ?_ | with_reducible refine ok_some (by with_reducible assumption) ?_ | with_reducible apply foldl_ok | split

theorem State.copyImage_ok {pq : List Instr} (s : State) (x : Nat) (e : Resid) (hok : s.Ok pq) : (State.copyImage s x e).Ok pq := by
  unfold State.copyImage
  try dsimp only
  repeat' first | with_reducible assumption | with_reducible intro _ | with_reducible apply State.each_ok | with_reducible apply ok_ite | (fail_if_no_progress with_reducible apply ok_mk) | with_reducible apply ok_hmp_wr | with_reducible apply ok_hmp_clear | with_reducible apply ok_hmp_poison | with_reducible apply ok_stores_wr | with_reducible apply ok_stores_clear | with_reducible apply ok_stores_poison | with_reducible apply ok_slices_write | with_reducible apply ok_slices_clear | with_reducible apply ok_slices_pois | with_reducible apply ok_slices_markBoth | with_reducible apply ok_hmp_fold | with_reducible apply Mem.wf_clear | with_reducible apply Mem.wf_wr | with_reducible apply Mem.wf_land | with_reducible apply each_ok

theorem State.rezSet_ok {pq : List Instr} (s : State) (x : Nat) (e : Resid) (hok : s.Ok pq) : (State.rezSet s x e).Ok pq := by
  unfold State.rezSet
  try dsimp only
  repeat' first | with_reducible assumption | with_reducible intro _ | with_reducible apply State.setFld_ok | with_reducible apply State.setFlag_ok | with_reducible apply ok_ite | (fail_if_no_progress with_reducible apply ok_mk) | with_reducible apply each_ok | with_reducible apply next_ok | with_reducible refine ok_snd (by with_reducible assumption) ?_ | with_reducible refine ok_fst (by with_reducible assumption) ?_ | with_reducible refine ok_some (by with_reducible assumption) ?_ | with_reducible apply foldl_ok | split

theorem State.loadCheck_ok {pq : List Instr} (s : State) (k : Nat) (desc : Option (Nat × Nat × Nat)) (hok : s.Ok pq) : (State.loadCheck s k desc).Ok pq := by
  unfold State.loadCheck
  try dsimp only
  repeat' first | with_reducible assumption | with_reducible intro _ | with_reducible apply State.complete_ok | with_reducible apply ok_ite | (fail_if_no_progress with_reducible apply ok_mk) | with_reducible apply each_ok | with_reducible apply next_ok | with_reducible refine ok_snd (by with_reducible assumption) ?_ | with_reducible refine ok_fst (by with_reducible assumption) ?_ | with_reducible refine ok_some (by with_reducible assumption) ?_ | with_reducible apply foldl_ok | split

theorem execModelLoad_ok {pq : List Instr} (x : Fin 512) (s : State) (hok : s.Ok pq) : OutOk pq (execModelLoad x s) := by
  unfold execModelLoad
  try dsimp only
  repeat' first | with_reducible assumption | with_reducible intro _ | with_reducible apply State.setFlag_ok | with_reducible apply State.setFld64_ok | with_reducible apply State.setRes_ok | with_reducible apply State.setLoads_ok | with_reducible apply State.makeRoom_ok | with_reducible apply State.copyImage_ok | with_reducible apply State.rezSet_ok | with_reducible apply State.loadCheck_ok | with_reducible apply ok_ite | (fail_if_no_progress with_reducible apply ok_mk) | with_reducible apply each_ok | with_reducible apply next_ok | with_reducible refine ok_snd (by with_reducible assumption) ?_ | with_reducible refine ok_fst (by with_reducible assumption) ?_ | with_reducible refine ok_some (by with_reducible assumption) ?_ | with_reducible apply foldl_ok | split

theorem State.copyPoison_ok {pq : List Instr} (s : State) (n q : Nat) (d : Desc) (space addr : Nat) (hok : s.Ok pq) : (State.copyPoison s n q d space addr).1.Ok pq := by
  unfold State.copyPoison
  try dsimp only
  repeat' first | with_reducible assumption | with_reducible intro _ | with_reducible apply State.flog_ok | with_reducible apply State.setDesc_ok | with_reducible apply ok_ite | (fail_if_no_progress with_reducible apply ok_mk) | with_reducible apply each_ok | with_reducible apply next_ok | with_reducible refine ok_snd (by with_reducible assumption) ?_ | with_reducible refine ok_fst (by with_reducible assumption) ?_ | with_reducible refine ok_some (by with_reducible assumption) ?_ | with_reducible apply foldl_ok | split

theorem State.copyEnd_ok {pq : List Instr} (s : State) (n q : Nat) (d : Desc) (hok : s.Ok pq) : (State.copyEnd s n q d).Ok pq := by
  unfold State.copyEnd
  try dsimp only
  repeat' first | with_reducible assumption | with_reducible intro _ | with_reducible apply State.complete_ok | with_reducible apply ok_ite | (fail_if_no_progress with_reducible apply ok_mk) | with_reducible apply each_ok | with_reducible apply next_ok | with_reducible refine ok_snd (by with_reducible assumption) ?_ | with_reducible refine ok_fst (by with_reducible assumption) ?_ | with_reducible refine ok_some (by with_reducible assumption) ?_ | with_reducible apply foldl_ok | split

theorem execJobCopy_ok {pq : List Instr} (p : Fin 8) (xlate : Bool) (s : State) (hok : s.Ok pq) : OutOk pq (execJobCopy p xlate s) := by
  unfold execJobCopy
  try dsimp only
  repeat' first | with_reducible assumption | with_reducible intro _ | with_reducible apply State.emit_ok | with_reducible apply State.each_ok | with_reducible apply State.complete_ok | with_reducible apply State.startDesc_ok | with_reducible apply State.onPick_ok | with_reducible apply State.copyPoison_ok | with_reducible apply State.copyEnd_ok | with_reducible apply ok_ite | (fail_if_no_progress with_reducible apply ok_mk) | with_reducible apply each_ok | with_reducible apply next_ok | with_reducible refine ok_snd (by with_reducible assumption) ?_ | with_reducible refine ok_fst (by with_reducible assumption) ?_ | with_reducible refine ok_some (by with_reducible assumption) ?_ | with_reducible apply foldl_ok | split

theorem State.copyLand_ok {pq : List Instr} (s : State) (n o : Nat) (data : List Byte) (ep : Bool) (hok : s.Ok pq) : (State.copyLand s n o data ep).Ok pq := by
  unfold State.copyLand
  try dsimp only
  repeat' first | with_reducible assumption | with_reducible intro _ | with_reducible apply State.each_ok | with_reducible apply ok_ite | (fail_if_no_progress with_reducible apply ok_mk) | with_reducible apply ok_hmp_wr | with_reducible apply ok_hmp_clear | with_reducible apply ok_hmp_poison | with_reducible apply ok_stores_wr | with_reducible apply ok_stores_clear | with_reducible apply ok_stores_poison | with_reducible apply ok_slices_write | with_reducible apply ok_slices_clear | with_reducible apply ok_slices_pois | with_reducible apply ok_slices_markBoth | with_reducible apply ok_hmp_fold | with_reducible apply Mem.wf_clear | with_reducible apply Mem.wf_wr | with_reducible apply Mem.wf_land | with_reducible apply each_ok | with_reducible apply next_ok | with_reducible refine ok_snd (by with_reducible assumption) ?_ | with_reducible refine ok_fst (by with_reducible assumption) ?_ | with_reducible refine ok_some (by with_reducible assumption) ?_ | with_reducible apply foldl_ok | split

theorem execCopyHostCompletion_ok {pq : List Instr} (n : Fin 128) (q : Fin 8) (i : BitVec 16) (off : BitVec 25) (c : HostCpl) (s : State) (hok : s.Ok pq) : OutOk pq (execCopyHostCompletion n q i off c s) := by
  unfold execCopyHostCompletion
  try dsimp only
  repeat' first | with_reducible assumption | with_reducible intro _ | with_reducible apply State.complete_ok | with_reducible apply State.setDesc_ok | with_reducible apply State.copyPoison_ok | with_reducible apply State.copyEnd_ok | with_reducible apply State.copyLand_ok | with_reducible apply ok_ite | (fail_if_no_progress with_reducible apply ok_mk) | with_reducible apply each_ok | with_reducible apply next_ok | with_reducible refine ok_snd (by with_reducible assumption) ?_ | with_reducible refine ok_fst (by with_reducible assumption) ?_ | with_reducible refine ok_some (by with_reducible assumption) ?_ | with_reducible apply foldl_ok | split

theorem execCopyCompletionTimeout_ok {pq : List Instr} (n : Fin 128) (q : Fin 8) (i : BitVec 16) (s : State) (hok : s.Ok pq) : OutOk pq (execCopyCompletionTimeout n q i s) := by
  unfold execCopyCompletionTimeout
  try dsimp only
  repeat' first | with_reducible assumption | with_reducible intro _ | with_reducible apply State.complete_ok | with_reducible apply ok_ite | (fail_if_no_progress with_reducible apply ok_mk) | with_reducible apply each_ok | with_reducible apply next_ok | with_reducible refine ok_snd (by with_reducible assumption) ?_ | with_reducible refine ok_fst (by with_reducible assumption) ?_ | with_reducible refine ok_some (by with_reducible assumption) ?_ | with_reducible apply foldl_ok | split

/-! Peken. -/

theorem State.act_ok {pq : List Instr} (s : State) (x pc : Nat) (a : Act) (h : s.Ok pq) (ha : ActOk pq a) : (s.act x pc a).Ok pq := by
  unfold State.act
  split
  · exact h
  · exact State.coreFault_ok _ _ _ _ _ _ _ h
  · exact State.corePoison_ok _ _ _ _ _ _ h
  · exact State.setCore_ok _ _ _ ha
  · exact State.setCore_ok _ _ _ ha
  · exact ha

theorem State.tguCount_ok {pq : List Instr} (s : State) (x : Nat) (hok : s.Ok pq) : (State.tguCount s x).Ok pq := by
  unfold State.tguCount
  try dsimp only
  repeat' first | with_reducible assumption | with_reducible intro _ | with_reducible apply State.setFld64_ok

theorem State.peken_ok {pq : List Instr} (s : State) (x : Nat) (i : Pk) (f : Form) (body : State → Core → Act) (h : s.Ok pq)
    (hb : ∀ (s : State) c, s.Ok pq → ActOk pq (body s c)) : (s.peken x i f body).Ok pq := by
  unfold State.peken
  split
  · exact h
  · dsimp only
    split
    · rename_i a ha; exact State.act_ok _ _ _ _ h (fetchStop_ok ha)
    · split
      · exact State.act_ok _ _ _ _ h trivial
      · apply State.act_ok _ _ _ _ h
        have := hb s (s.core x) h
        split
        · rename_i t ht
          rw [ht] at this
          split
          · exact State.tguCount_ok _ _ this
          · exact this
        · exact this

theorem State.pekenReg_ok {pq : List Instr} (s : State) (x : Nat) (i : Pk) (f : Form) (g : Core → Core) (hok : s.Ok pq) : (State.pekenReg s x i f g).Ok pq := by
  unfold State.pekenReg
  try dsimp only
  repeat' first | with_reducible assumption | with_reducible intro _ | with_reducible apply State.setCore_ok | with_reducible apply State.peken_ok | with_reducible apply ok_ite | (fail_if_no_progress with_reducible apply ok_mk) | with_reducible apply each_ok | with_reducible apply next_ok | with_reducible apply act_hold_ok | with_reducible apply act_fault_ok | with_reducible apply act_poison_ok | with_reducible refine act_of_eq (by with_reducible assumption) ?_ | with_reducible refine act_of_next (by with_reducible assumption) ?_ | with_reducible apply act_next_ok

/-! Scalar. -/

theorem State.aluR_ok {pq : List Instr} (s : State) (x : Nat) (i : Pk) (op : Dword → Dword → Dword) (hok : s.Ok pq) : (State.aluR s x i op).Ok pq := by
  unfold State.aluR
  try dsimp only
  repeat' first | with_reducible assumption | with_reducible intro _ | with_reducible apply State.pekenReg_ok

theorem State.aluI_ok {pq : List Instr} (s : State) (x : Nat) (i : Pk) (op : Dword → Dword → Dword) (hok : s.Ok pq) : (State.aluI s x i op).Ok pq := by
  unfold State.aluI
  try dsimp only
  repeat' first | with_reducible assumption | with_reducible intro _ | with_reducible apply State.pekenReg_ok

theorem execPkAdd_ok {pq : List Instr} (x : Fin 512) (i : Pk) (s : State) (hok : s.Ok pq) : OutOk pq (execPkAdd x i s) := by
  unfold execPkAdd
  try dsimp only
  repeat' first | with_reducible assumption | with_reducible intro _ | with_reducible apply State.aluR_ok | with_reducible apply ok_ite | (fail_if_no_progress with_reducible apply ok_mk) | with_reducible apply each_ok | with_reducible apply next_ok

theorem execPkSub_ok {pq : List Instr} (x : Fin 512) (i : Pk) (s : State) (hok : s.Ok pq) : OutOk pq (execPkSub x i s) := by
  unfold execPkSub
  try dsimp only
  repeat' first | with_reducible assumption | with_reducible intro _ | with_reducible apply State.aluR_ok | with_reducible apply ok_ite | (fail_if_no_progress with_reducible apply ok_mk) | with_reducible apply each_ok | with_reducible apply next_ok

theorem execPkAnd_ok {pq : List Instr} (x : Fin 512) (i : Pk) (s : State) (hok : s.Ok pq) : OutOk pq (execPkAnd x i s) := by
  unfold execPkAnd
  try dsimp only
  repeat' first | with_reducible assumption | with_reducible intro _ | with_reducible apply State.aluR_ok | with_reducible apply ok_ite | (fail_if_no_progress with_reducible apply ok_mk) | with_reducible apply each_ok | with_reducible apply next_ok

theorem execPkOr_ok {pq : List Instr} (x : Fin 512) (i : Pk) (s : State) (hok : s.Ok pq) : OutOk pq (execPkOr x i s) := by
  unfold execPkOr
  try dsimp only
  repeat' first | with_reducible assumption | with_reducible intro _ | with_reducible apply State.aluR_ok | with_reducible apply ok_ite | (fail_if_no_progress with_reducible apply ok_mk) | with_reducible apply each_ok | with_reducible apply next_ok

theorem execPkXor_ok {pq : List Instr} (x : Fin 512) (i : Pk) (s : State) (hok : s.Ok pq) : OutOk pq (execPkXor x i s) := by
  unfold execPkXor
  try dsimp only
  repeat' first | with_reducible assumption | with_reducible intro _ | with_reducible apply State.aluR_ok | with_reducible apply ok_ite | (fail_if_no_progress with_reducible apply ok_mk) | with_reducible apply each_ok | with_reducible apply next_ok

theorem execPkShl_ok {pq : List Instr} (x : Fin 512) (i : Pk) (s : State) (hok : s.Ok pq) : OutOk pq (execPkShl x i s) := by
  unfold execPkShl
  try dsimp only
  repeat' first | with_reducible assumption | with_reducible intro _ | with_reducible apply State.aluR_ok | with_reducible apply ok_ite | (fail_if_no_progress with_reducible apply ok_mk) | with_reducible apply each_ok | with_reducible apply next_ok

theorem execPkShr_ok {pq : List Instr} (x : Fin 512) (i : Pk) (s : State) (hok : s.Ok pq) : OutOk pq (execPkShr x i s) := by
  unfold execPkShr
  try dsimp only
  repeat' first | with_reducible assumption | with_reducible intro _ | with_reducible apply State.aluR_ok | with_reducible apply ok_ite | (fail_if_no_progress with_reducible apply ok_mk) | with_reducible apply each_ok | with_reducible apply next_ok

theorem execPkSra_ok {pq : List Instr} (x : Fin 512) (i : Pk) (s : State) (hok : s.Ok pq) : OutOk pq (execPkSra x i s) := by
  unfold execPkSra
  try dsimp only
  repeat' first | with_reducible assumption | with_reducible intro _ | with_reducible apply State.aluR_ok | with_reducible apply ok_ite | (fail_if_no_progress with_reducible apply ok_mk) | with_reducible apply each_ok | with_reducible apply next_ok

theorem execPkMul_ok {pq : List Instr} (x : Fin 512) (i : Pk) (s : State) (hok : s.Ok pq) : OutOk pq (execPkMul x i s) := by
  unfold execPkMul
  try dsimp only
  repeat' first | with_reducible assumption | with_reducible intro _ | with_reducible apply State.aluR_ok | with_reducible apply ok_ite | (fail_if_no_progress with_reducible apply ok_mk) | with_reducible apply each_ok | with_reducible apply next_ok

theorem execPkMulhu_ok {pq : List Instr} (x : Fin 512) (i : Pk) (s : State) (hok : s.Ok pq) : OutOk pq (execPkMulhu x i s) := by
  unfold execPkMulhu
  try dsimp only
  repeat' first | with_reducible assumption | with_reducible intro _ | with_reducible apply State.aluR_ok | with_reducible apply ok_ite | (fail_if_no_progress with_reducible apply ok_mk) | with_reducible apply each_ok | with_reducible apply next_ok

theorem execPkMin_ok {pq : List Instr} (x : Fin 512) (i : Pk) (s : State) (hok : s.Ok pq) : OutOk pq (execPkMin x i s) := by
  unfold execPkMin
  try dsimp only
  repeat' first | with_reducible assumption | with_reducible intro _ | with_reducible apply State.aluR_ok | with_reducible apply ok_ite | (fail_if_no_progress with_reducible apply ok_mk) | with_reducible apply each_ok | with_reducible apply next_ok

theorem execPkMax_ok {pq : List Instr} (x : Fin 512) (i : Pk) (s : State) (hok : s.Ok pq) : OutOk pq (execPkMax x i s) := by
  unfold execPkMax
  try dsimp only
  repeat' first | with_reducible assumption | with_reducible intro _ | with_reducible apply State.aluR_ok | with_reducible apply ok_ite | (fail_if_no_progress with_reducible apply ok_mk) | with_reducible apply each_ok | with_reducible apply next_ok

theorem execPkMinu_ok {pq : List Instr} (x : Fin 512) (i : Pk) (s : State) (hok : s.Ok pq) : OutOk pq (execPkMinu x i s) := by
  unfold execPkMinu
  try dsimp only
  repeat' first | with_reducible assumption | with_reducible intro _ | with_reducible apply State.aluR_ok | with_reducible apply ok_ite | (fail_if_no_progress with_reducible apply ok_mk) | with_reducible apply each_ok | with_reducible apply next_ok

theorem execPkMaxu_ok {pq : List Instr} (x : Fin 512) (i : Pk) (s : State) (hok : s.Ok pq) : OutOk pq (execPkMaxu x i s) := by
  unfold execPkMaxu
  try dsimp only
  repeat' first | with_reducible assumption | with_reducible intro _ | with_reducible apply State.aluR_ok | with_reducible apply ok_ite | (fail_if_no_progress with_reducible apply ok_mk) | with_reducible apply each_ok | with_reducible apply next_ok

theorem execPkSlt_ok {pq : List Instr} (x : Fin 512) (i : Pk) (s : State) (hok : s.Ok pq) : OutOk pq (execPkSlt x i s) := by
  unfold execPkSlt
  try dsimp only
  repeat' first | with_reducible assumption | with_reducible intro _ | with_reducible apply State.aluR_ok | with_reducible apply ok_ite | (fail_if_no_progress with_reducible apply ok_mk) | with_reducible apply each_ok | with_reducible apply next_ok

theorem execPkSltu_ok {pq : List Instr} (x : Fin 512) (i : Pk) (s : State) (hok : s.Ok pq) : OutOk pq (execPkSltu x i s) := by
  unfold execPkSltu
  try dsimp only
  repeat' first | with_reducible assumption | with_reducible intro _ | with_reducible apply State.aluR_ok | with_reducible apply ok_ite | (fail_if_no_progress with_reducible apply ok_mk) | with_reducible apply each_ok | with_reducible apply next_ok

theorem execPkAddi_ok {pq : List Instr} (x : Fin 512) (i : Pk) (s : State) (hok : s.Ok pq) : OutOk pq (execPkAddi x i s) := by
  unfold execPkAddi
  try dsimp only
  repeat' first | with_reducible assumption | with_reducible intro _ | with_reducible apply State.aluI_ok | with_reducible apply ok_ite | (fail_if_no_progress with_reducible apply ok_mk) | with_reducible apply each_ok | with_reducible apply next_ok

theorem execPkAndi_ok {pq : List Instr} (x : Fin 512) (i : Pk) (s : State) (hok : s.Ok pq) : OutOk pq (execPkAndi x i s) := by
  unfold execPkAndi
  try dsimp only
  repeat' first | with_reducible assumption | with_reducible intro _ | with_reducible apply State.aluI_ok | with_reducible apply ok_ite | (fail_if_no_progress with_reducible apply ok_mk) | with_reducible apply each_ok | with_reducible apply next_ok

theorem execPkOri_ok {pq : List Instr} (x : Fin 512) (i : Pk) (s : State) (hok : s.Ok pq) : OutOk pq (execPkOri x i s) := by
  unfold execPkOri
  try dsimp only
  repeat' first | with_reducible assumption | with_reducible intro _ | with_reducible apply State.aluI_ok | with_reducible apply ok_ite | (fail_if_no_progress with_reducible apply ok_mk) | with_reducible apply each_ok | with_reducible apply next_ok

theorem execPkXori_ok {pq : List Instr} (x : Fin 512) (i : Pk) (s : State) (hok : s.Ok pq) : OutOk pq (execPkXori x i s) := by
  unfold execPkXori
  try dsimp only
  repeat' first | with_reducible assumption | with_reducible intro _ | with_reducible apply State.aluI_ok | with_reducible apply ok_ite | (fail_if_no_progress with_reducible apply ok_mk) | with_reducible apply each_ok | with_reducible apply next_ok

theorem execPkShli_ok {pq : List Instr} (x : Fin 512) (i : Pk) (s : State) (hok : s.Ok pq) : OutOk pq (execPkShli x i s) := by
  unfold execPkShli
  try dsimp only
  repeat' first | with_reducible assumption | with_reducible intro _ | with_reducible apply State.aluI_ok | with_reducible apply ok_ite | (fail_if_no_progress with_reducible apply ok_mk) | with_reducible apply each_ok | with_reducible apply next_ok

theorem execPkShri_ok {pq : List Instr} (x : Fin 512) (i : Pk) (s : State) (hok : s.Ok pq) : OutOk pq (execPkShri x i s) := by
  unfold execPkShri
  try dsimp only
  repeat' first | with_reducible assumption | with_reducible intro _ | with_reducible apply State.aluI_ok | with_reducible apply ok_ite | (fail_if_no_progress with_reducible apply ok_mk) | with_reducible apply each_ok | with_reducible apply next_ok

theorem execPkSrai_ok {pq : List Instr} (x : Fin 512) (i : Pk) (s : State) (hok : s.Ok pq) : OutOk pq (execPkSrai x i s) := by
  unfold execPkSrai
  try dsimp only
  repeat' first | with_reducible assumption | with_reducible intro _ | with_reducible apply State.aluI_ok | with_reducible apply ok_ite | (fail_if_no_progress with_reducible apply ok_mk) | with_reducible apply each_ok | with_reducible apply next_ok

theorem execPkLui_ok {pq : List Instr} (x : Fin 512) (i : Pk) (s : State) (hok : s.Ok pq) : OutOk pq (execPkLui x i s) := by
  unfold execPkLui
  try dsimp only
  repeat' first | with_reducible assumption | with_reducible intro _ | with_reducible apply State.aluI_ok | with_reducible apply ok_ite | (fail_if_no_progress with_reducible apply ok_mk) | with_reducible apply each_ok | with_reducible apply next_ok

theorem execPkSlti_ok {pq : List Instr} (x : Fin 512) (i : Pk) (s : State) (hok : s.Ok pq) : OutOk pq (execPkSlti x i s) := by
  unfold execPkSlti
  try dsimp only
  repeat' first | with_reducible assumption | with_reducible intro _ | with_reducible apply State.aluI_ok | with_reducible apply ok_ite | (fail_if_no_progress with_reducible apply ok_mk) | with_reducible apply each_ok | with_reducible apply next_ok

theorem execPkCsrr_ok {pq : List Instr} (x : Fin 512) (i : Pk) (s : State) (hok : s.Ok pq) : OutOk pq (execPkCsrr x i s) := by
  unfold execPkCsrr
  try dsimp only
  repeat' first | with_reducible assumption | with_reducible intro _ | with_reducible apply State.tick_ok | with_reducible apply State.setCore_ok | with_reducible apply State.peken_ok | with_reducible apply ok_ite | (fail_if_no_progress with_reducible apply ok_mk) | with_reducible apply each_ok | with_reducible apply next_ok | with_reducible apply act_hold_ok | with_reducible apply act_fault_ok | with_reducible apply act_poison_ok | with_reducible refine act_of_eq (by with_reducible assumption) ?_ | with_reducible refine act_of_next (by with_reducible assumption) ?_ | with_reducible apply act_next_ok | with_reducible apply act_jump_ok | with_reducible apply act_block_ok | with_reducible refine ok_snd (by with_reducible assumption) ?_ | with_reducible refine ok_fst (by with_reducible assumption) ?_ | with_reducible refine ok_some (by with_reducible assumption) ?_ | with_reducible apply foldl_ok | split

theorem execPkCsrw_ok {pq : List Instr} (x : Fin 512) (i : Pk) (s : State) (hok : s.Ok pq) : OutOk pq (execPkCsrw x i s) := by
  unfold execPkCsrw
  try dsimp only
  repeat' first | with_reducible assumption | with_reducible intro _ | with_reducible apply State.setCore_ok | with_reducible apply State.peken_ok | with_reducible apply ok_ite | (fail_if_no_progress with_reducible apply ok_mk) | with_reducible apply each_ok | with_reducible apply next_ok | with_reducible apply act_hold_ok | with_reducible apply act_fault_ok | with_reducible apply act_poison_ok | with_reducible refine act_of_eq (by with_reducible assumption) ?_ | with_reducible refine act_of_next (by with_reducible assumption) ?_ | with_reducible apply act_next_ok | with_reducible apply act_jump_ok | with_reducible apply act_block_ok | with_reducible refine ok_snd (by with_reducible assumption) ?_ | with_reducible refine ok_fst (by with_reducible assumption) ?_ | with_reducible refine ok_some (by with_reducible assumption) ?_ | with_reducible apply foldl_ok | split

theorem execPkLds_ok {pq : List Instr} (x : Fin 512) (i : Pk) (s : State) (hok : s.Ok pq) : OutOk pq (execPkLds x i s) := by
  unfold execPkLds
  try dsimp only
  repeat' first | with_reducible assumption | with_reducible intro _ | with_reducible apply State.peken_ok | with_reducible apply State.memRead_ok | with_reducible apply State.event_ok | with_reducible apply State.setCore_ok | with_reducible apply ok_ite | (fail_if_no_progress with_reducible apply ok_mk) | with_reducible apply each_ok | with_reducible apply next_ok | with_reducible apply act_hold_ok | with_reducible apply act_fault_ok | with_reducible apply act_poison_ok | with_reducible refine act_of_eq (by with_reducible assumption) ?_ | with_reducible refine act_of_next (by with_reducible assumption) ?_ | with_reducible apply act_next_ok | with_reducible apply act_jump_ok | with_reducible apply act_block_ok | with_reducible refine ok_snd (by with_reducible assumption) ?_ | with_reducible refine ok_fst (by with_reducible assumption) ?_ | with_reducible refine ok_some (by with_reducible assumption) ?_ | with_reducible apply foldl_ok | split

theorem execPkSts_ok {pq : List Instr} (x : Fin 512) (i : Pk) (s : State) (hok : s.Ok pq) : OutOk pq (execPkSts x i s) := by
  unfold execPkSts
  try dsimp only
  repeat' first | with_reducible assumption | with_reducible intro _ | with_reducible apply State.peken_ok | with_reducible apply State.memWrite_ok | with_reducible apply ok_ite | (fail_if_no_progress with_reducible apply ok_mk) | with_reducible apply each_ok | with_reducible apply next_ok | with_reducible apply act_hold_ok | with_reducible apply act_fault_ok | with_reducible apply act_poison_ok | with_reducible refine act_of_eq (by with_reducible assumption) ?_ | with_reducible refine act_of_next (by with_reducible assumption) ?_ | with_reducible apply act_next_ok | with_reducible apply act_jump_ok | with_reducible apply act_block_ok | with_reducible refine ok_snd (by with_reducible assumption) ?_ | with_reducible refine ok_fst (by with_reducible assumption) ?_ | with_reducible refine ok_some (by with_reducible assumption) ?_ | with_reducible apply foldl_ok | split

/-! Control. -/

theorem execPkNop_ok {pq : List Instr} (x : Fin 512) (i : Pk) (s : State) (hok : s.Ok pq) : OutOk pq (execPkNop x i s) := by
  unfold execPkNop
  try dsimp only
  repeat' first | with_reducible assumption | with_reducible intro _ | with_reducible apply State.pekenReg_ok | with_reducible apply ok_ite | (fail_if_no_progress with_reducible apply ok_mk) | with_reducible apply each_ok | with_reducible apply next_ok

theorem execPkBr_ok {pq : List Instr} (x : Fin 512) (i : Pk) (s : State) (hok : s.Ok pq) : OutOk pq (execPkBr x i s) := by
  unfold execPkBr
  try dsimp only
  repeat' first | with_reducible assumption | with_reducible intro _ | with_reducible apply State.peken_ok | with_reducible apply ok_ite | (fail_if_no_progress with_reducible apply ok_mk) | with_reducible apply each_ok | with_reducible apply next_ok | with_reducible apply act_hold_ok | with_reducible apply act_fault_ok | with_reducible apply act_poison_ok | with_reducible refine act_of_eq (by with_reducible assumption) ?_ | with_reducible refine act_of_next (by with_reducible assumption) ?_ | with_reducible apply act_next_ok | with_reducible apply act_jump_ok

theorem execPkBrc_ok {pq : List Instr} (x : Fin 512) (i : Pk) (s : State) (hok : s.Ok pq) : OutOk pq (execPkBrc x i s) := by
  unfold execPkBrc
  try dsimp only
  repeat' first | with_reducible assumption | with_reducible intro _ | with_reducible apply State.peken_ok | with_reducible apply ok_ite | (fail_if_no_progress with_reducible apply ok_mk) | with_reducible apply each_ok | with_reducible apply next_ok | with_reducible apply act_hold_ok | with_reducible apply act_fault_ok | with_reducible apply act_poison_ok | with_reducible refine act_of_eq (by with_reducible assumption) ?_ | with_reducible refine act_of_next (by with_reducible assumption) ?_ | with_reducible apply act_next_ok | with_reducible apply act_jump_ok | with_reducible apply act_block_ok | with_reducible refine ok_snd (by with_reducible assumption) ?_ | with_reducible refine ok_fst (by with_reducible assumption) ?_ | with_reducible refine ok_some (by with_reducible assumption) ?_ | with_reducible apply foldl_ok | split

theorem execPkCall_ok {pq : List Instr} (x : Fin 512) (i : Pk) (s : State) (hok : s.Ok pq) : OutOk pq (execPkCall x i s) := by
  unfold execPkCall
  try dsimp only
  repeat' first | with_reducible assumption | with_reducible intro _ | with_reducible apply State.peken_ok | with_reducible apply State.setCore_ok | with_reducible apply ok_ite | (fail_if_no_progress with_reducible apply ok_mk) | with_reducible apply each_ok | with_reducible apply next_ok | with_reducible apply act_hold_ok | with_reducible apply act_fault_ok | with_reducible apply act_poison_ok | with_reducible refine act_of_eq (by with_reducible assumption) ?_ | with_reducible refine act_of_next (by with_reducible assumption) ?_ | with_reducible apply act_next_ok | with_reducible apply act_jump_ok

theorem execPkJr_ok {pq : List Instr} (x : Fin 512) (i : Pk) (s : State) (hok : s.Ok pq) : OutOk pq (execPkJr x i s) := by
  unfold execPkJr
  try dsimp only
  repeat' first | with_reducible assumption | with_reducible intro _ | with_reducible apply State.peken_ok | with_reducible apply ok_ite | (fail_if_no_progress with_reducible apply ok_mk) | with_reducible apply each_ok | with_reducible apply next_ok | with_reducible apply act_hold_ok | with_reducible apply act_fault_ok | with_reducible apply act_poison_ok | with_reducible refine act_of_eq (by with_reducible assumption) ?_ | with_reducible refine act_of_next (by with_reducible assumption) ?_ | with_reducible apply act_next_ok | with_reducible apply act_jump_ok

theorem maskFault_ok {pq : List Instr}  : ActOk pq (maskFault ) := by
  unfold maskFault
  try dsimp only
  repeat' first | with_reducible assumption | with_reducible intro _ | with_reducible apply ok_ite | (fail_if_no_progress with_reducible apply ok_mk) | with_reducible apply each_ok | with_reducible apply next_ok | with_reducible apply act_hold_ok | with_reducible apply act_fault_ok

theorem State.pushMask_ok {pq : List Instr} (s : State) (x : Nat) (c : Core) (e : MaskEntry) (active : Dword) (hok : s.Ok pq) : ActOk pq (State.pushMask s x c e active) := by
  unfold State.pushMask
  try dsimp only
  repeat' first | with_reducible assumption | with_reducible intro _ | with_reducible apply State.setCore_ok | with_reducible apply maskFault_ok | with_reducible apply ok_ite | (fail_if_no_progress with_reducible apply ok_mk) | with_reducible apply each_ok | with_reducible apply next_ok | with_reducible apply act_hold_ok | with_reducible apply act_fault_ok | with_reducible apply act_poison_ok | with_reducible refine act_of_eq (by with_reducible assumption) ?_ | with_reducible refine act_of_next (by with_reducible assumption) ?_ | with_reducible apply act_next_ok | with_reducible apply act_jump_ok | with_reducible apply act_block_ok | with_reducible refine ok_snd (by with_reducible assumption) ?_ | with_reducible refine ok_fst (by with_reducible assumption) ?_ | with_reducible refine ok_some (by with_reducible assumption) ?_ | with_reducible apply foldl_ok | split

theorem execPkIf_ok {pq : List Instr} (x : Fin 512) (i : Pk) (s : State) (hok : s.Ok pq) : OutOk pq (execPkIf x i s) := by
  unfold execPkIf
  try dsimp only
  repeat' first | with_reducible assumption | with_reducible intro _ | with_reducible apply State.peken_ok | with_reducible apply State.pushMask_ok | with_reducible apply ok_ite | (fail_if_no_progress with_reducible apply ok_mk) | with_reducible apply each_ok | with_reducible apply next_ok

theorem execPkElse_ok {pq : List Instr} (x : Fin 512) (i : Pk) (s : State) (hok : s.Ok pq) : OutOk pq (execPkElse x i s) := by
  unfold execPkElse
  try dsimp only
  repeat' first | with_reducible assumption | with_reducible intro _ | with_reducible apply State.setCore_ok | with_reducible apply State.peken_ok | with_reducible apply maskFault_ok | with_reducible apply ok_ite | (fail_if_no_progress with_reducible apply ok_mk) | with_reducible apply each_ok | with_reducible apply next_ok | with_reducible apply act_hold_ok | with_reducible apply act_fault_ok | with_reducible apply act_poison_ok | with_reducible refine act_of_eq (by with_reducible assumption) ?_ | with_reducible refine act_of_next (by with_reducible assumption) ?_ | with_reducible apply act_next_ok | with_reducible apply act_jump_ok | with_reducible apply act_block_ok | with_reducible refine ok_snd (by with_reducible assumption) ?_ | with_reducible refine ok_fst (by with_reducible assumption) ?_ | with_reducible refine ok_some (by with_reducible assumption) ?_ | with_reducible apply foldl_ok | split

theorem execPkEndif_ok {pq : List Instr} (x : Fin 512) (i : Pk) (s : State) (hok : s.Ok pq) : OutOk pq (execPkEndif x i s) := by
  unfold execPkEndif
  try dsimp only
  repeat' first | with_reducible assumption | with_reducible intro _ | with_reducible apply State.setCore_ok | with_reducible apply State.peken_ok | with_reducible apply maskFault_ok | with_reducible apply ok_ite | (fail_if_no_progress with_reducible apply ok_mk) | with_reducible apply each_ok | with_reducible apply next_ok | with_reducible apply act_hold_ok | with_reducible apply act_fault_ok | with_reducible apply act_poison_ok | with_reducible refine act_of_eq (by with_reducible assumption) ?_ | with_reducible refine act_of_next (by with_reducible assumption) ?_ | with_reducible apply act_next_ok | with_reducible apply act_jump_ok | with_reducible apply act_block_ok | with_reducible refine ok_snd (by with_reducible assumption) ?_ | with_reducible refine ok_fst (by with_reducible assumption) ?_ | with_reducible refine ok_some (by with_reducible assumption) ?_ | with_reducible apply foldl_ok | split

theorem execPkLoop_ok {pq : List Instr} (x : Fin 512) (i : Pk) (s : State) (hok : s.Ok pq) : OutOk pq (execPkLoop x i s) := by
  unfold execPkLoop
  try dsimp only
  repeat' first | with_reducible assumption | with_reducible intro _ | with_reducible apply State.peken_ok | with_reducible apply State.pushMask_ok | with_reducible apply ok_ite | (fail_if_no_progress with_reducible apply ok_mk) | with_reducible apply each_ok | with_reducible apply next_ok

theorem execPkBrk_ok {pq : List Instr} (x : Fin 512) (i : Pk) (s : State) (hok : s.Ok pq) : OutOk pq (execPkBrk x i s) := by
  unfold execPkBrk
  try dsimp only
  repeat' first | with_reducible assumption | with_reducible intro _ | with_reducible apply State.setCore_ok | with_reducible apply State.peken_ok | with_reducible apply maskFault_ok | with_reducible apply ok_ite | (fail_if_no_progress with_reducible apply ok_mk) | with_reducible apply each_ok | with_reducible apply next_ok | with_reducible apply act_hold_ok | with_reducible apply act_fault_ok | with_reducible apply act_poison_ok | with_reducible refine act_of_eq (by with_reducible assumption) ?_ | with_reducible refine act_of_next (by with_reducible assumption) ?_ | with_reducible apply act_next_ok | with_reducible apply act_jump_ok | with_reducible apply act_block_ok | with_reducible refine ok_snd (by with_reducible assumption) ?_ | with_reducible refine ok_fst (by with_reducible assumption) ?_ | with_reducible refine ok_some (by with_reducible assumption) ?_ | with_reducible apply foldl_ok | split

theorem execPkEndloop_ok {pq : List Instr} (x : Fin 512) (i : Pk) (s : State) (hok : s.Ok pq) : OutOk pq (execPkEndloop x i s) := by
  unfold execPkEndloop
  try dsimp only
  repeat' first | with_reducible assumption | with_reducible intro _ | with_reducible apply State.setCore_ok | with_reducible apply State.peken_ok | with_reducible apply maskFault_ok | with_reducible apply ok_ite | (fail_if_no_progress with_reducible apply ok_mk) | with_reducible apply each_ok | with_reducible apply next_ok | with_reducible apply act_hold_ok | with_reducible apply act_fault_ok | with_reducible apply act_poison_ok | with_reducible refine act_of_eq (by with_reducible assumption) ?_ | with_reducible refine act_of_next (by with_reducible assumption) ?_ | with_reducible apply act_next_ok | with_reducible apply act_jump_ok | with_reducible apply act_block_ok | with_reducible refine ok_snd (by with_reducible assumption) ?_ | with_reducible refine ok_fst (by with_reducible assumption) ?_ | with_reducible refine ok_some (by with_reducible assumption) ?_ | with_reducible apply foldl_ok | split

theorem execPkBrnone_ok {pq : List Instr} (x : Fin 512) (i : Pk) (s : State) (hok : s.Ok pq) : OutOk pq (execPkBrnone x i s) := by
  unfold execPkBrnone
  try dsimp only
  repeat' first | with_reducible assumption | with_reducible intro _ | with_reducible apply State.peken_ok | with_reducible apply ok_ite | (fail_if_no_progress with_reducible apply ok_mk) | with_reducible apply each_ok | with_reducible apply next_ok | with_reducible apply act_hold_ok | with_reducible apply act_fault_ok | with_reducible apply act_poison_ok | with_reducible refine act_of_eq (by with_reducible assumption) ?_ | with_reducible refine act_of_next (by with_reducible assumption) ?_ | with_reducible apply act_next_ok | with_reducible apply act_jump_ok | with_reducible apply act_block_ok | with_reducible refine ok_snd (by with_reducible assumption) ?_ | with_reducible refine ok_fst (by with_reducible assumption) ?_ | with_reducible refine ok_some (by with_reducible assumption) ?_ | with_reducible apply foldl_ok | split

theorem execPkTrap_ok {pq : List Instr} (x : Fin 512) (i : Pk) (s : State) (hok : s.Ok pq) : OutOk pq (execPkTrap x i s) := by
  unfold execPkTrap
  try dsimp only
  repeat' first | with_reducible assumption | with_reducible intro _ | with_reducible apply State.peken_ok | with_reducible apply ok_ite | (fail_if_no_progress with_reducible apply ok_mk) | with_reducible apply each_ok | with_reducible apply next_ok | with_reducible apply act_hold_ok | with_reducible apply act_fault_ok

theorem execPkWait_ok {pq : List Instr} (x : Fin 512) (i : Pk) (s : State) (hok : s.Ok pq) : OutOk pq (execPkWait x i s) := by
  unfold execPkWait
  try dsimp only
  repeat' first | with_reducible assumption | with_reducible intro _ | with_reducible apply State.peken_ok | with_reducible apply ok_ite | (fail_if_no_progress with_reducible apply ok_mk) | with_reducible apply each_ok | with_reducible apply next_ok | with_reducible apply act_hold_ok | with_reducible apply act_fault_ok | with_reducible apply act_poison_ok | with_reducible refine act_of_eq (by with_reducible assumption) ?_ | with_reducible refine act_of_next (by with_reducible assumption) ?_ | with_reducible apply act_next_ok | with_reducible apply act_jump_ok | with_reducible apply act_block_ok | with_reducible refine ok_snd (by with_reducible assumption) ?_ | with_reducible refine ok_fst (by with_reducible assumption) ?_ | with_reducible refine ok_some (by with_reducible assumption) ?_ | with_reducible apply foldl_ok | split

theorem execPkWaita_ok {pq : List Instr} (x : Fin 512) (i : Pk) (s : State) (hok : s.Ok pq) : OutOk pq (execPkWaita x i s) := by
  unfold execPkWaita
  try dsimp only
  repeat' first | with_reducible assumption | with_reducible intro _ | with_reducible apply State.peken_ok | with_reducible apply ok_ite | (fail_if_no_progress with_reducible apply ok_mk) | with_reducible apply each_ok | with_reducible apply next_ok | with_reducible apply act_hold_ok | with_reducible apply act_fault_ok | with_reducible apply act_poison_ok | with_reducible refine act_of_eq (by with_reducible assumption) ?_ | with_reducible refine act_of_next (by with_reducible assumption) ?_ | with_reducible apply act_next_ok | with_reducible apply act_jump_ok | with_reducible apply act_block_ok | with_reducible refine ok_snd (by with_reducible assumption) ?_ | with_reducible refine ok_fst (by with_reducible assumption) ?_ | with_reducible refine ok_some (by with_reducible assumption) ?_ | with_reducible apply foldl_ok | split

theorem State.barrierRelease_ok {pq : List Instr} (s : State) (j : Job) (hok : s.Ok pq) : (State.barrierRelease s j).Ok pq := by
  unfold State.barrierRelease
  try dsimp only
  repeat' first | with_reducible assumption | with_reducible intro _ | with_reducible apply State.each_ok | with_reducible apply State.setCore_ok | with_reducible apply ok_ite | (fail_if_no_progress with_reducible apply ok_mk) | with_reducible apply each_ok | with_reducible apply next_ok | with_reducible refine ok_snd (by with_reducible assumption) ?_ | with_reducible refine ok_fst (by with_reducible assumption) ?_ | with_reducible refine ok_some (by with_reducible assumption) ?_ | with_reducible apply foldl_ok | split

theorem execPkBar_ok {pq : List Instr} (x : Fin 512) (i : Pk) (s : State) (hok : s.Ok pq) : OutOk pq (execPkBar x i s) := by
  unfold execPkBar
  try dsimp only
  repeat' first | with_reducible assumption | with_reducible intro _ | with_reducible apply State.setCore_ok | with_reducible apply State.peken_ok | with_reducible apply State.barrierRelease_ok | with_reducible apply ok_ite | (fail_if_no_progress with_reducible apply ok_mk) | with_reducible apply each_ok | with_reducible apply next_ok | with_reducible apply act_hold_ok | with_reducible apply act_fault_ok | with_reducible apply act_poison_ok | with_reducible refine act_of_eq (by with_reducible assumption) ?_ | with_reducible refine act_of_next (by with_reducible assumption) ?_ | with_reducible apply act_next_ok | with_reducible apply act_jump_ok | with_reducible apply act_block_ok | with_reducible refine ok_snd (by with_reducible assumption) ?_ | with_reducible refine ok_fst (by with_reducible assumption) ?_ | with_reducible refine ok_some (by with_reducible assumption) ?_ | with_reducible apply foldl_ok | split

theorem execPkMfence_ok {pq : List Instr} (x : Fin 512) (i : Pk) (s : State) (hok : s.Ok pq) : OutOk pq (execPkMfence x i s) := by
  unfold execPkMfence
  try dsimp only
  repeat' first | with_reducible assumption | with_reducible intro _ | with_reducible apply State.pekenReg_ok | with_reducible apply ok_ite | (fail_if_no_progress with_reducible apply ok_mk) | with_reducible apply each_ok | with_reducible apply next_ok

theorem execPkToks_ok {pq : List Instr} (x : Fin 512) (i : Pk) (s : State) (hok : s.Ok pq) : OutOk pq (execPkToks x i s) := by
  unfold execPkToks
  try dsimp only
  repeat' first | with_reducible assumption | with_reducible intro _ | with_reducible apply State.pekenReg_ok | with_reducible apply ok_ite | (fail_if_no_progress with_reducible apply ok_mk) | with_reducible apply each_ok | with_reducible apply next_ok

theorem execPkRezq_ok {pq : List Instr} (x : Fin 512) (i : Pk) (s : State) (hok : s.Ok pq) : OutOk pq (execPkRezq x i s) := by
  unfold execPkRezq
  try dsimp only
  repeat' first | with_reducible assumption | with_reducible intro _ | with_reducible apply State.setCore_ok | with_reducible apply State.peken_ok | with_reducible apply ok_ite | (fail_if_no_progress with_reducible apply ok_mk) | with_reducible apply each_ok | with_reducible apply next_ok | with_reducible apply act_hold_ok | with_reducible apply act_fault_ok | with_reducible apply act_poison_ok | with_reducible refine act_of_eq (by with_reducible assumption) ?_ | with_reducible refine act_of_next (by with_reducible assumption) ?_ | with_reducible apply act_next_ok

theorem execPkRezinv_ok {pq : List Instr} (x : Fin 512) (i : Pk) (s : State) (hok : s.Ok pq) : OutOk pq (execPkRezinv x i s) := by
  unfold execPkRezinv
  try dsimp only
  repeat' first | with_reducible assumption | with_reducible intro _ | with_reducible apply State.setFlag_ok | with_reducible apply State.rezDrop_ok | with_reducible apply State.peken_ok | with_reducible apply ok_ite | (fail_if_no_progress with_reducible apply ok_mk) | with_reducible apply each_ok | with_reducible apply next_ok | with_reducible apply act_hold_ok | with_reducible apply act_fault_ok | with_reducible apply act_poison_ok | with_reducible refine act_of_eq (by with_reducible assumption) ?_ | with_reducible refine act_of_next (by with_reducible assumption) ?_ | with_reducible apply act_next_ok | with_reducible apply act_jump_ok | with_reducible apply act_block_ok | with_reducible refine ok_snd (by with_reducible assumption) ?_ | with_reducible refine ok_fst (by with_reducible assumption) ?_ | with_reducible refine ok_some (by with_reducible assumption) ?_ | with_reducible apply foldl_ok | split

theorem execPkJend_ok {pq : List Instr} (x : Fin 512) (i : Pk) (s : State) (hok : s.Ok pq) : OutOk pq (execPkJend x i s) := by
  unfold execPkJend
  try dsimp only
  repeat' first | with_reducible assumption | with_reducible intro _ | with_reducible apply State.setCore_ok | with_reducible apply State.peken_ok | with_reducible apply State.barrierRelease_ok | with_reducible apply ok_ite | (fail_if_no_progress with_reducible apply ok_mk) | with_reducible apply each_ok | with_reducible apply next_ok | with_reducible apply act_hold_ok | with_reducible apply act_fault_ok | with_reducible apply act_poison_ok | with_reducible refine act_of_eq (by with_reducible assumption) ?_ | with_reducible refine act_of_next (by with_reducible assumption) ?_ | with_reducible apply act_next_ok | with_reducible apply act_jump_ok | with_reducible apply act_block_ok | with_reducible refine ok_snd (by with_reducible assumption) ?_ | with_reducible refine ok_fst (by with_reducible assumption) ?_ | with_reducible refine ok_some (by with_reducible assumption) ?_ | with_reducible apply foldl_ok | split

theorem execPkIdle_ok {pq : List Instr} (x : Fin 512) (i : Pk) (s : State) (hok : s.Ok pq) : OutOk pq (execPkIdle x i s) := by
  unfold execPkIdle
  try dsimp only
  repeat' first | with_reducible assumption | with_reducible intro _ | with_reducible apply State.setFld_ok | with_reducible apply State.peken_ok | with_reducible apply ok_ite | (fail_if_no_progress with_reducible apply ok_mk) | with_reducible apply each_ok | with_reducible apply next_ok | with_reducible apply act_hold_ok | with_reducible apply act_fault_ok | with_reducible apply act_poison_ok | with_reducible refine act_of_eq (by with_reducible assumption) ?_ | with_reducible refine act_of_next (by with_reducible assumption) ?_ | with_reducible apply act_next_ok | with_reducible apply act_jump_ok | with_reducible apply act_block_ok | with_reducible refine ok_snd (by with_reducible assumption) ?_ | with_reducible refine ok_fst (by with_reducible assumption) ?_ | with_reducible refine ok_some (by with_reducible assumption) ?_ | with_reducible apply foldl_ok | split

theorem execRankEnd_ok {pq : List Instr} (x : Fin 512) (energy : Nat) (s : State) (hok : s.Ok pq) : OutOk pq (execRankEnd x energy s) := by
  unfold execRankEnd
  try dsimp only
  repeat' first | with_reducible assumption | with_reducible intro _ | with_reducible apply State.setCore_ok | with_reducible apply State.setJob_ok | with_reducible apply State.jobCheck_ok | with_reducible apply ok_ite | (fail_if_no_progress with_reducible apply ok_mk) | with_reducible apply each_ok | with_reducible apply next_ok | with_reducible refine ok_snd (by with_reducible assumption) ?_ | with_reducible refine ok_fst (by with_reducible assumption) ?_ | with_reducible refine ok_some (by with_reducible assumption) ?_ | with_reducible apply foldl_ok | split

/-! Engines. -/

theorem State.issue_ok {pq : List Instr} (s : State) (x : Nat) (c : Core) (i : Pk) (queued depth : Nat) (put : Core → Core) (hok : s.Ok pq) : ActOk pq (State.issue s x c i queued depth put) := by
  unfold State.issue
  try dsimp only
  repeat' first | with_reducible assumption | with_reducible intro _ | with_reducible apply State.setCore_ok | with_reducible apply ok_ite | (fail_if_no_progress with_reducible apply ok_mk) | with_reducible apply each_ok | with_reducible apply next_ok | with_reducible apply act_hold_ok | with_reducible apply act_fault_ok | with_reducible apply act_poison_ok | with_reducible refine act_of_eq (by with_reducible assumption) ?_ | with_reducible refine act_of_next (by with_reducible assumption) ?_ | with_reducible apply act_next_ok | with_reducible apply act_jump_ok | with_reducible apply act_block_ok | with_reducible refine ok_snd (by with_reducible assumption) ?_ | with_reducible refine ok_fst (by with_reducible assumption) ?_ | with_reducible refine ok_some (by with_reducible assumption) ?_ | with_reducible apply foldl_ok | split

theorem State.tokenFall_ok {pq : List Instr} (s : State) (x t : Nat) (hok : s.Ok pq) : (State.tokenFall s x t).Ok pq := by
  unfold State.tokenFall
  try dsimp only
  repeat' first | with_reducible assumption | with_reducible intro _ | with_reducible apply State.setCore_ok

theorem engineDesc_ok {pq : List Instr}  : ActOk pq (engineDesc ) := by
  unfold engineDesc
  try dsimp only
  repeat' first | with_reducible assumption | with_reducible intro _ | with_reducible apply ok_ite | (fail_if_no_progress with_reducible apply ok_mk) | with_reducible apply each_ok | with_reducible apply next_ok | with_reducible apply act_hold_ok | with_reducible apply act_fault_ok

theorem State.mxGuard_ok {pq : List Instr} (s : State) (x : Nat) (ops : List (Nat × Nat × Bool)) (ok : Act) (hok : ActOk pq ok) : ActOk pq (State.mxGuard s x ops ok) := by
  unfold State.mxGuard
  try dsimp only
  repeat' first | with_reducible assumption | with_reducible intro _ | with_reducible apply ok_ite | (fail_if_no_progress with_reducible apply ok_mk) | with_reducible apply each_ok | with_reducible apply next_ok | with_reducible apply act_hold_ok | with_reducible apply act_fault_ok | with_reducible apply act_poison_ok | with_reducible refine act_of_eq (by with_reducible assumption) ?_ | with_reducible refine act_of_next (by with_reducible assumption) ?_ | with_reducible apply act_next_ok | with_reducible apply act_jump_ok | with_reducible apply act_block_ok | with_reducible refine ok_snd (by with_reducible assumption) ?_ | with_reducible refine ok_fst (by with_reducible assumption) ?_ | with_reducible refine ok_some (by with_reducible assumption) ?_ | with_reducible apply foldl_ok | split

theorem execPkMma_ok {pq : List Instr} (x : Fin 512) (i : Pk) (s : State) (hok : s.Ok pq) : OutOk pq (execPkMma x i s) := by
  unfold execPkMma
  try dsimp only
  repeat' first | with_reducible assumption | with_reducible intro _ | with_reducible apply State.peken_ok | with_reducible apply State.issue_ok | with_reducible apply engineDesc_ok | with_reducible apply State.mxGuard_ok | with_reducible apply ok_ite | (fail_if_no_progress with_reducible apply ok_mk) | with_reducible apply each_ok | with_reducible apply next_ok | with_reducible apply act_hold_ok | with_reducible apply act_fault_ok | with_reducible apply act_poison_ok | with_reducible refine act_of_eq (by with_reducible assumption) ?_ | with_reducible refine act_of_next (by with_reducible assumption) ?_ | with_reducible apply act_next_ok | with_reducible apply act_jump_ok | with_reducible apply act_block_ok | with_reducible refine ok_snd (by with_reducible assumption) ?_ | with_reducible refine ok_fst (by with_reducible assumption) ?_ | with_reducible refine ok_some (by with_reducible assumption) ?_ | with_reducible apply foldl_ok | split

theorem execPkMscl_ok {pq : List Instr} (x : Fin 512) (i : Pk) (s : State) (hok : s.Ok pq) : OutOk pq (execPkMscl x i s) := by
  unfold execPkMscl
  try dsimp only
  repeat' first | with_reducible assumption | with_reducible intro _ | with_reducible apply State.peken_ok | with_reducible apply State.issue_ok | with_reducible apply ok_ite | (fail_if_no_progress with_reducible apply ok_mk) | with_reducible apply each_ok | with_reducible apply next_ok

theorem execPkMcvt_ok {pq : List Instr} (x : Fin 512) (i : Pk) (s : State) (hok : s.Ok pq) : OutOk pq (execPkMcvt x i s) := by
  unfold execPkMcvt
  try dsimp only
  repeat' first | with_reducible assumption | with_reducible intro _ | with_reducible apply State.peken_ok | with_reducible apply State.issue_ok | with_reducible apply engineDesc_ok | with_reducible apply State.mxGuard_ok | with_reducible apply ok_ite | (fail_if_no_progress with_reducible apply ok_mk) | with_reducible apply each_ok | with_reducible apply next_ok | with_reducible apply act_hold_ok | with_reducible apply act_fault_ok | with_reducible apply act_poison_ok | with_reducible refine act_of_eq (by with_reducible assumption) ?_ | with_reducible refine act_of_next (by with_reducible assumption) ?_ | with_reducible apply act_next_ok | with_reducible apply act_jump_ok | with_reducible apply act_block_ok | with_reducible refine ok_snd (by with_reducible assumption) ?_ | with_reducible refine ok_fst (by with_reducible assumption) ?_ | with_reducible refine ok_some (by with_reducible assumption) ?_ | with_reducible apply foldl_ok | split

theorem State.ownWrite_ok {pq : List Instr} (s : State) (x a : Nat) (bs : List Byte) (hok : s.Ok pq) : (State.ownWrite s x a bs).Ok pq := by
  unfold State.ownWrite
  try dsimp only
  repeat' first | with_reducible assumption | with_reducible intro _ | with_reducible apply ok_ite | (fail_if_no_progress with_reducible apply ok_mk) | with_reducible apply ok_hmp_wr | with_reducible apply ok_hmp_clear | with_reducible apply ok_hmp_poison | with_reducible apply ok_stores_wr

theorem State.mxeEffect_ok {pq : List Instr} (s : State) (x : Nat) (o : MxeOp) (hok : s.Ok pq) : (State.mxeEffect s x o).Ok pq := by
  unfold State.mxeEffect
  try dsimp only
  repeat' first | with_reducible assumption | with_reducible intro _ | with_reducible apply State.setFld64_ok | with_reducible apply State.ownWrite_ok | with_reducible apply ok_ite | (fail_if_no_progress with_reducible apply ok_mk) | with_reducible apply each_ok | with_reducible apply next_ok | with_reducible refine ok_snd (by with_reducible assumption) ?_ | with_reducible refine ok_fst (by with_reducible assumption) ?_ | with_reducible refine ok_some (by with_reducible assumption) ?_ | with_reducible apply foldl_ok | split

theorem execMxeOpComplete_ok {pq : List Instr} (x : Fin 512) (s : State) (hok : s.Ok pq) : OutOk pq (execMxeOpComplete x s) := by
  unfold execMxeOpComplete
  try dsimp only
  repeat' first | with_reducible assumption | with_reducible intro _ | with_reducible apply State.setCore_ok | with_reducible apply State.corePoison_ok | with_reducible apply State.tokenFall_ok | with_reducible apply State.mxeEffect_ok | with_reducible apply ok_ite | (fail_if_no_progress with_reducible apply ok_mk) | with_reducible apply each_ok | with_reducible apply next_ok | with_reducible refine ok_snd (by with_reducible assumption) ?_ | with_reducible refine ok_fst (by with_reducible assumption) ?_ | with_reducible refine ok_some (by with_reducible assumption) ?_ | with_reducible apply foldl_ok | split

/-! Movers. -/

theorem State.movIssue_ok {pq : List Instr} (s : State) (x : Nat) (c : Core) (i : Pk) (o : MovOp) (hok : s.Ok pq) : ActOk pq (State.movIssue s x c i o) := by
  unfold State.movIssue
  try dsimp only
  repeat' first | with_reducible assumption | with_reducible intro _ | with_reducible apply State.issue_ok

theorem execPkMvl_ok {pq : List Instr} (x : Fin 512) (i : Pk) (s : State) (hok : s.Ok pq) : OutOk pq (execPkMvl x i s) := by
  unfold execPkMvl
  try dsimp only
  repeat' first | with_reducible assumption | with_reducible intro _ | with_reducible apply State.peken_ok | with_reducible apply engineDesc_ok | with_reducible apply State.movIssue_ok | with_reducible apply ok_ite | (fail_if_no_progress with_reducible apply ok_mk) | with_reducible apply each_ok | with_reducible apply next_ok | with_reducible apply act_hold_ok | with_reducible apply act_fault_ok | with_reducible apply act_poison_ok | with_reducible refine act_of_eq (by with_reducible assumption) ?_ | with_reducible refine act_of_next (by with_reducible assumption) ?_ | with_reducible apply act_next_ok | with_reducible apply act_jump_ok | with_reducible apply act_block_ok | with_reducible refine ok_snd (by with_reducible assumption) ?_ | with_reducible refine ok_fst (by with_reducible assumption) ?_ | with_reducible refine ok_some (by with_reducible assumption) ?_ | with_reducible apply foldl_ok | split

theorem State.movDesc_ok {pq : List Instr} (s : State) (x : Nat) (i : Pk) (kind : Nat) (ok : List Byte → Bool) (hok : s.Ok pq) : (State.movDesc s x i kind ok).Ok pq := by
  unfold State.movDesc
  try dsimp only
  repeat' first | with_reducible assumption | with_reducible intro _ | with_reducible apply State.movIssue_ok | with_reducible apply engineDesc_ok | with_reducible apply State.peken_ok | with_reducible apply State.corePoison_ok | with_reducible apply ok_ite | (fail_if_no_progress with_reducible apply ok_mk) | with_reducible apply each_ok | with_reducible apply act_hold_ok | with_reducible apply act_fault_ok | with_reducible apply act_poison_ok | with_reducible refine act_of_eq (by with_reducible assumption) ?_ | with_reducible refine act_of_next (by with_reducible assumption) ?_ | with_reducible apply act_next_ok | with_reducible apply act_jump_ok | with_reducible apply act_block_ok | with_reducible refine ok_snd (by with_reducible assumption) ?_ | with_reducible refine ok_fst (by with_reducible assumption) ?_ | with_reducible refine ok_some (by with_reducible assumption) ?_ | with_reducible apply foldl_ok | split

theorem execPkMvs_ok {pq : List Instr} (x : Fin 512) (i : Pk) (s : State) (hok : s.Ok pq) : OutOk pq (execPkMvs x i s) := by
  unfold execPkMvs
  try dsimp only
  repeat' first | with_reducible assumption | with_reducible intro _ | with_reducible apply State.movDesc_ok | with_reducible apply ok_ite | (fail_if_no_progress with_reducible apply ok_mk) | with_reducible apply each_ok | with_reducible apply next_ok

theorem execPkMvg_ok {pq : List Instr} (x : Fin 512) (i : Pk) (s : State) (hok : s.Ok pq) : OutOk pq (execPkMvg x i s) := by
  unfold execPkMvg
  try dsimp only
  repeat' first | with_reducible assumption | with_reducible intro _ | with_reducible apply State.movDesc_ok | with_reducible apply ok_ite | (fail_if_no_progress with_reducible apply ok_mk) | with_reducible apply each_ok | with_reducible apply next_ok

theorem execPkMvt_ok {pq : List Instr} (x : Fin 512) (i : Pk) (s : State) (hok : s.Ok pq) : OutOk pq (execPkMvt x i s) := by
  unfold execPkMvt
  try dsimp only
  repeat' first | with_reducible assumption | with_reducible intro _ | with_reducible apply State.movDesc_ok | with_reducible apply ok_ite | (fail_if_no_progress with_reducible apply ok_mk) | with_reducible apply each_ok | with_reducible apply next_ok

theorem execPkMva_ok {pq : List Instr} (x : Fin 512) (i : Pk) (s : State) (hok : s.Ok pq) : OutOk pq (execPkMva x i s) := by
  unfold execPkMva
  try dsimp only
  repeat' first | with_reducible assumption | with_reducible intro _ | with_reducible apply State.movDesc_ok | with_reducible apply ok_ite | (fail_if_no_progress with_reducible apply ok_mk) | with_reducible apply each_ok | with_reducible apply next_ok

theorem execPkMcas_ok {pq : List Instr} (x : Fin 512) (i : Pk) (s : State) (hok : s.Ok pq) : OutOk pq (execPkMcas x i s) := by
  unfold execPkMcas
  try dsimp only
  repeat' first | with_reducible assumption | with_reducible intro _ | with_reducible apply State.peken_ok | with_reducible apply State.movIssue_ok | with_reducible apply ok_ite | (fail_if_no_progress with_reducible apply ok_mk) | with_reducible apply each_ok | with_reducible apply next_ok

theorem State.readCount_ok {pq : List Instr} (s : State) (x a n : Nat) (hok : s.Ok pq) : (State.readCount s x a n).Ok pq := by
  unfold State.readCount
  try dsimp only
  repeat' first | with_reducible assumption | with_reducible intro _ | with_reducible apply State.memRead_ok | with_reducible apply State.each_ok | with_reducible apply ok_ite | (fail_if_no_progress with_reducible apply ok_mk) | with_reducible apply each_ok

theorem State.movBytes_ok {pq : List Instr} (s : State) (x n : Nat) (hok : s.Ok pq) : (State.movBytes s x n).Ok pq := by
  unfold State.movBytes
  try dsimp only
  repeat' first | with_reducible assumption | with_reducible intro _ | with_reducible apply State.setFld64_ok

theorem State.doPiece_ok {pq : List Instr} (s0 : State) (x : Nat) (m : MovIn) (acc : State × Tab Bool) (p : Piece)
    (h : acc.1.Ok pq) : (s0.doPiece x m acc p).1.Ok pq := by
  unfold State.doPiece
  dsimp only
  apply State.movBytes_ok; apply State.memWrite_ok
  split
  · exact State.readCount_ok _ _ _ _ h
  · exact h

theorem State.doPieces_ok {pq : List Instr} (s : State) (x : Nat) (o : MovOp) (ps : List Piece) (take : Nat → Bool) (h : s.Ok pq) :
    (s.doPieces x o ps take).Ok pq := by
  unfold State.doPieces
  have : ∀ (l : List Piece) (acc : State × Tab Bool), acc.1.Ok pq →
      (l.foldl (fun acc p => s.doPiece x (s.movIn x o (ps.flatMap Piece.source)) acc p) acc).1.Ok pq := by
    intro l
    induction l with
    | nil => exact fun _ h => h
    | cons p l ih => exact fun acc h => ih _ (State.doPiece_ok _ _ _ _ _ h)
  exact this _ _ h

theorem State.scramble_ok {pq : List Instr} (s : State) (x : Nat) (ps : List Piece) (hok : s.Ok pq) : (State.scramble s x ps).Ok pq := by
  unfold State.scramble
  try dsimp only
  repeat' first | with_reducible assumption | with_reducible intro _ | with_reducible apply State.each_ok | with_reducible apply State.tick_ok | with_reducible apply State.memWrite_ok | with_reducible apply ok_ite | (fail_if_no_progress with_reducible apply ok_mk) | with_reducible apply each_ok

theorem State.mvaWord_ok {pq : List Instr} (s : State) (x op : Nat) (m : MovIn) (u : Nat × Nat) (hok : s.Ok pq) : (State.mvaWord s x op m u).Ok pq := by
  unfold State.mvaWord
  try dsimp only
  repeat' first | with_reducible assumption | with_reducible intro _ | with_reducible apply State.movBytes_ok | with_reducible apply State.memWrite_ok | with_reducible apply State.memRead_ok | with_reducible apply ok_ite

theorem State.ticks_ok {pq : List Instr} (s : State) (n : Nat) (hok : s.Ok pq) : (State.ticks s n).Ok pq := by
  unfold State.ticks
  try dsimp only
  repeat' first | with_reducible assumption | with_reducible intro _ | with_reducible apply ok_ite | (fail_if_no_progress with_reducible apply ok_mk)

theorem State.movSkipped_ok {pq : List Instr} (s : State) (x n : Nat) (hok : s.Ok pq) : (State.movSkipped s x n).Ok pq := by
  unfold State.movSkipped
  try dsimp only
  repeat' first | with_reducible assumption | with_reducible intro _ | with_reducible apply State.satFld_ok

theorem State.runMva_ok {pq : List Instr} (s : State) (x : Nat) (o : MovOp) (take : Nat → Bool) (hok : s.Ok pq) : (State.runMva s x o take).1.Ok pq := by
  unfold State.runMva
  try dsimp only
  repeat' first | with_reducible assumption | with_reducible intro _ | with_reducible apply State.movSkipped_ok | with_reducible apply State.ticks_ok | with_reducible apply State.mvaWord_ok | with_reducible apply ok_ite | (fail_if_no_progress with_reducible apply ok_mk) | with_reducible apply each_ok | with_reducible apply ok_ite_fst | with_reducible refine ok_snd (by with_reducible assumption) ?_ | with_reducible refine ok_fst (by with_reducible assumption) ?_ | with_reducible refine ok_some (by with_reducible assumption) ?_ | with_reducible apply foldl_ok

theorem State.runMcas_ok {pq : List Instr} (s : State) (x : Nat) (o : MovOp) (hok : s.Ok pq) : (State.runMcas s x o).1.Ok pq := by
  unfold State.runMcas
  try dsimp only
  repeat' first | with_reducible assumption | with_reducible intro _ | with_reducible apply State.memRead_ok | with_reducible apply State.memWrite_ok | with_reducible apply State.movBytes_ok | with_reducible apply ok_ite | (fail_if_no_progress with_reducible apply ok_mk) | with_reducible apply each_ok | with_reducible apply next_ok | with_reducible refine ok_snd (by with_reducible assumption) ?_ | with_reducible refine ok_fst (by with_reducible assumption) ?_ | with_reducible refine ok_some (by with_reducible assumption) ?_ | with_reducible apply foldl_ok | split

theorem State.runMov_ok {pq : List Instr} (s : State) (x : Nat) (o : MovOp) (take : Nat → Bool) (hok : s.Ok pq) : (State.runMov s x o take).1.Ok pq := by
  unfold State.runMov
  try dsimp only
  repeat' first | with_reducible assumption | with_reducible intro _ | with_reducible apply State.runMcas_ok | with_reducible apply State.runMva_ok | with_reducible apply State.movSkipped_ok | with_reducible apply State.scramble_ok | with_reducible apply State.doPieces_ok | with_reducible apply ok_ite | (fail_if_no_progress with_reducible apply ok_mk) | with_reducible apply each_ok | with_reducible apply ok_ite_fst | with_reducible refine ok_snd (by with_reducible assumption) ?_ | with_reducible refine ok_fst (by with_reducible assumption) ?_ | with_reducible refine ok_some (by with_reducible assumption) ?_ | with_reducible apply foldl_ok | split

theorem execMoverOpStart_ok {pq : List Instr} (x : Fin 512) (s : State) (hok : s.Ok pq) : OutOk pq (execMoverOpStart x s) := by
  unfold execMoverOpStart
  try dsimp only
  repeat' first | with_reducible assumption | with_reducible intro _ | with_reducible apply State.setCore_ok | with_reducible apply ok_ite | (fail_if_no_progress with_reducible apply ok_mk) | with_reducible apply each_ok | with_reducible apply next_ok | with_reducible refine ok_snd (by with_reducible assumption) ?_ | with_reducible refine ok_fst (by with_reducible assumption) ?_ | with_reducible refine ok_some (by with_reducible assumption) ?_ | with_reducible apply foldl_ok | split

theorem State.crossPartCount_ok {pq : List Instr} (s : State) (a : Nat) (hok : s.Ok pq) : (State.crossPartCount s a).Ok pq := by
  unfold State.crossPartCount
  try dsimp only
  repeat' first | with_reducible assumption | with_reducible intro _ | with_reducible apply State.event_ok | with_reducible apply State.countErr_ok

theorem State.movFail_ok {pq : List Instr} (s : State) (x : Nat) (o : MovOp) (code sub addr : Nat) (hok : s.Ok pq) : (State.movFail s x o code sub addr).Ok pq := by
  unfold State.movFail
  try dsimp only
  repeat' first | with_reducible assumption | with_reducible intro _ | with_reducible apply State.setFld_ok | with_reducible apply State.setFlag_ok | with_reducible apply State.event_ok | with_reducible apply State.coreFault_ok | with_reducible apply State.crossPartCount_ok | with_reducible apply ok_ite

theorem execMoverOpComplete_ok {pq : List Instr} (x : Fin 512) (k : Fin 4) (s : State) (hok : s.Ok pq) : OutOk pq (execMoverOpComplete x k s) := by
  unfold execMoverOpComplete
  try dsimp only
  repeat' first | with_reducible assumption | with_reducible intro _ | with_reducible apply State.setCore_ok | with_reducible apply State.corePoison_ok | with_reducible apply State.tokenFall_ok | with_reducible apply State.runMov_ok | with_reducible apply State.movFail_ok | with_reducible apply ok_ite | (fail_if_no_progress with_reducible apply ok_mk) | with_reducible apply each_ok | with_reducible apply next_ok | with_reducible refine ok_snd (by with_reducible assumption) ?_ | with_reducible refine ok_fst (by with_reducible assumption) ?_ | with_reducible refine ok_some (by with_reducible assumption) ?_ | with_reducible apply foldl_ok | split

theorem execTileHamperRequest_ok {pq : List Instr} (x : Fin 512) (boot : Bool) (addr : BitVec 28) (wr : Option (List Byte)) (len : Nat) (s : State) (hok : s.Ok pq) : OutOk pq (execTileHamperRequest x boot addr wr len s) := by
  unfold execTileHamperRequest
  try dsimp only
  repeat' first | with_reducible assumption | with_reducible intro _ | with_reducible apply State.crossPartCount_ok | with_reducible apply State.coreFault_ok | with_reducible apply State.each_ok | with_reducible apply State.emit_ok | with_reducible apply ok_ite | (fail_if_no_progress with_reducible apply ok_mk) | with_reducible apply ok_hmp_wr | with_reducible apply ok_hmp_clear | with_reducible apply ok_hmp_poison | with_reducible apply ok_stores_wr | with_reducible apply ok_stores_clear | with_reducible apply ok_stores_poison | with_reducible apply ok_slices_write | with_reducible apply ok_slices_clear | with_reducible apply ok_slices_pois | with_reducible apply ok_slices_markBoth | with_reducible apply ok_hmp_fold | with_reducible apply Mem.wf_clear | with_reducible apply Mem.wf_wr | with_reducible apply Mem.wf_land | with_reducible apply each_ok | with_reducible apply next_ok | with_reducible refine ok_snd (by with_reducible assumption) ?_ | with_reducible refine ok_fst (by with_reducible assumption) ?_ | with_reducible refine ok_some (by with_reducible assumption) ?_ | with_reducible apply foldl_ok | split

/-! Kpm. -/

theorem State.setPoolState_ok {pq : List Instr} (s : State) (p st : Nat) (hok : s.Ok pq) : (State.setPoolState s p st).Ok pq := by
  unfold State.setPoolState
  try dsimp only
  repeat' first | with_reducible assumption | with_reducible intro _ | with_reducible apply State.setFld_ok | with_reducible apply State.setBit_ok | with_reducible apply State.event_ok | with_reducible apply ok_ite

theorem State.setKvFree_ok {pq : List Instr} (s : State) (p : Nat) (l : List Nat) (hok : s.Ok pq) : (State.setKvFree s p l).Ok pq := by
  unfold State.setKvFree
  try dsimp only
  repeat' first | with_reducible assumption | with_reducible intro _ | with_reducible apply State.setFld_ok | with_reducible apply State.event_ok | with_reducible apply ok_ite | (fail_if_no_progress with_reducible apply ok_mk)

theorem State.setKvQuar_ok {pq : List Instr} (s : State) (p : Nat) (l : List Nat) (hok : s.Ok pq) : (State.setKvQuar s p l).Ok pq := by
  unfold State.setKvQuar
  try dsimp only
  repeat' first | with_reducible assumption | with_reducible intro _ | with_reducible apply State.setFld_ok | with_reducible apply ok_ite | (fail_if_no_progress with_reducible apply ok_mk)

theorem State.setOwned_ok {pq : List Instr} (s : State) (p n v : Nat) (hok : s.Ok pq) : (State.setOwned s p n v).Ok pq := by
  unfold State.setOwned
  try dsimp only
  repeat' first | with_reducible assumption | with_reducible intro _ | with_reducible apply State.setFld_ok | with_reducible apply State.event_ok | with_reducible apply ok_ite | (fail_if_no_progress with_reducible apply ok_mk)

theorem State.pWrite_ok {pq : List Instr} (s : State) (p o : Nat) (bs : List Byte) (hok : s.Ok pq) : (State.pWrite s p o bs).Ok pq := by
  unfold State.pWrite
  try dsimp only
  repeat' first | with_reducible assumption | with_reducible intro _ | with_reducible apply State.each_ok | with_reducible apply State.placeWrite_ok | with_reducible apply ok_ite | (fail_if_no_progress with_reducible apply ok_mk) | with_reducible apply each_ok

theorem State.pCount_ok {pq : List Instr} (s : State) (p o n : Nat) (hok : s.Ok pq) : (State.pCount s p o n).Ok pq := by
  unfold State.pCount
  exact each_ok (fun _ _ h => State.placeCount_ok _ _ _ h) hok

theorem State.pCopy_ok {pq : List Instr} (s : State) (p src dst n : Nat) (hok : s.Ok pq) : (State.pCopy s p src dst n).Ok pq := by
  unfold State.pCopy
  try dsimp only
  repeat' first | with_reducible assumption | with_reducible intro _ | with_reducible apply State.each_ok | with_reducible apply State.placeWrite_ok | with_reducible apply State.placeCount_ok | with_reducible apply ok_ite | (fail_if_no_progress with_reducible apply ok_mk) | with_reducible apply each_ok

theorem State.setKvDesc_ok {pq : List Instr} (s : State) (p k : Nat) (d : KvDesc) (hok : s.Ok pq) : (State.setKvDesc s p k d).Ok pq := by
  unfold State.setKvDesc
  try dsimp only
  repeat' first | with_reducible assumption | with_reducible intro _ | with_reducible apply State.pWrite_ok

theorem State.kvQuarantine_ok {pq : List Instr} (s : State) (p k : Nat) (hok : s.Ok pq) : (State.kvQuarantine s p k).Ok pq := by
  unfold State.kvQuarantine
  try dsimp only
  repeat' first | with_reducible assumption | with_reducible intro _ | with_reducible apply State.setKvFree_ok | with_reducible apply State.setKvQuar_ok | with_reducible apply State.pWrite_ok | with_reducible apply ok_ite

theorem State.kvFailed_ok {pq : List Instr} (s : State) (p : Nat) (e : KvErr) (hok : s.Ok pq) : (State.kvFailed s p e).Ok pq := by
  unfold State.kvFailed
  try dsimp only
  repeat' first | with_reducible assumption | with_reducible intro _ | with_reducible apply State.kvQuarantine_ok | with_reducible apply ok_ite | (fail_if_no_progress with_reducible apply ok_mk) | with_reducible apply each_ok | with_reducible apply next_ok | with_reducible refine ok_snd (by with_reducible assumption) ?_ | with_reducible refine ok_fst (by with_reducible assumption) ?_ | with_reducible refine ok_some (by with_reducible assumption) ?_ | with_reducible apply foldl_ok | split

theorem State.kvTake_ok {pq : List Instr} (s : State) (p n fmt v : Nat) (hok : s.Ok pq) : (State.kvTake s p n fmt v).2.Ok pq := by
  unfold State.kvTake
  try dsimp only
  repeat' first | with_reducible assumption | with_reducible intro _ | with_reducible apply State.setKvFree_ok | with_reducible apply State.setOwned_ok | with_reducible apply State.setKvDesc_ok | with_reducible apply ok_ite | (fail_if_no_progress with_reducible apply ok_mk) | with_reducible apply each_ok | with_reducible apply next_ok | with_reducible refine ok_snd (by with_reducible assumption) ?_ | with_reducible refine ok_fst (by with_reducible assumption) ?_ | with_reducible refine ok_some (by with_reducible assumption) ?_ | with_reducible apply foldl_ok | split

theorem State.kvSetRc_ok {pq : List Instr} (s : State) (p k rc v : Nat) (d : KvDesc) (hok : s.Ok pq) : (State.kvSetRc s p k rc v d).Ok pq := by
  unfold State.kvSetRc
  try dsimp only
  repeat' first | with_reducible assumption | with_reducible intro _ | with_reducible apply State.tick_ok | with_reducible apply State.setKvFree_ok | with_reducible apply State.setOwned_ok | with_reducible apply State.setKvDesc_ok | with_reducible apply ok_ite

theorem State.setLab_ok {pq : List Instr} (s : State) (cl : Nat) (l : List LabEnt) (hok : s.Ok pq) : (State.setLab s cl l).Ok pq := by
  unfold State.setLab
  try dsimp only
  repeat' first | with_reducible assumption | with_reducible intro _ | with_reducible apply State.setFld_ok | with_reducible apply ok_ite | (fail_if_no_progress with_reducible apply ok_mk)

theorem State.labRemove_ok {pq : List Instr} (s : State) (cl : Nat) (p : LabEnt → Bool) (hok : s.Ok pq) : (State.labRemove s cl p).Ok pq := by
  unfold State.labRemove
  try dsimp only
  repeat' first | with_reducible assumption | with_reducible intro _ | with_reducible apply State.addFld_ok | with_reducible apply State.setLab_ok

theorem State.labRemovePart_ok {pq : List Instr} (s : State) (p : Nat) (f : LabEnt → Bool) (hok : s.Ok pq) : (State.labRemovePart s p f).Ok pq := by
  unfold State.labRemovePart
  try dsimp only
  repeat' first | with_reducible assumption | with_reducible intro _ | with_reducible apply State.each_ok | with_reducible apply State.labRemove_ok | with_reducible apply ok_ite | (fail_if_no_progress with_reducible apply ok_mk) | with_reducible apply each_ok

theorem State.labTouch_ok {pq : List Instr} (s : State) (cl : Nat) (e : LabEnt) (hok : s.Ok pq) : (State.labTouch s cl e).Ok pq := by
  unfold State.labTouch
  try dsimp only
  repeat' first | with_reducible assumption | with_reducible intro _ | with_reducible apply State.setLab_ok

theorem State.labFill_ok {pq : List Instr} (s : State) (cl : Nat) (e : LabEnt) (hok : s.Ok pq) : (State.labFill s cl e).Ok pq := by
  unfold State.labFill
  try dsimp only
  repeat' first | with_reducible assumption | with_reducible intro _ | with_reducible apply State.setLab_ok

theorem State.kvWriteL2_ok {pq : List Instr} (s : State) (p root i l2 v : Nat) (hok : s.Ok pq) : (State.kvWriteL2 s p root i l2 v).Ok pq := by
  unfold State.kvWriteL2
  try dsimp only
  repeat' first | with_reducible assumption | with_reducible intro _ | with_reducible apply State.pWrite_ok | with_reducible apply State.labRemovePart_ok

theorem State.setKvWin_ok {pq : List Instr} (s : State) (n : Nat) (w : KvWin) (hok : s.Ok pq) : (State.setKvWin s n w).Ok pq := by
  unfold State.setKvWin
  try dsimp only
  repeat' first | with_reducible assumption | with_reducible intro _ | with_reducible apply State.setFld_ok | with_reducible apply ok_ite | (fail_if_no_progress with_reducible apply ok_mk)

theorem State.kvCount_ok {pq : List Instr} (s : State) (n st : Nat) (hok : s.Ok pq) : (State.kvCount s n st).Ok pq := by
  unfold State.kvCount
  try dsimp only
  repeat' first | with_reducible assumption | with_reducible intro _ | with_reducible apply State.satFld_ok | with_reducible apply ok_ite

theorem State.kpmOp_ok {pq : List Instr} (s : State) (p n ep v : Nat) (windowed : Bool) (op : State → Except KvErr (State × Nat))
    (h : s.Ok pq) (ho : ∀ s : State, s.Ok pq → KvOk pq (op s)) (r : Nat × Nat × State) (hr : s.kpmOp p n ep v windowed op = .ok r) :
    r.2.2.Ok pq := by
  unfold State.kpmOp at hr
  split at hr
  · cases hr; exact State.kvCount_ok _ _ _ h
  · have := ho s h
    split at hr
    · cases hr
    · rename_i e; rw [e] at this; cases hr
      dsimp only
      split
      · exact State.setKvWin_ok _ _ _ this
      · exact this

theorem State.kvAlloc_ok {pq : List Instr} (s : State) (p n fmt v : Nat) (hok : s.Ok pq) : KvOk pq (State.kvAlloc s p n fmt v) := by
  unfold State.kvAlloc
  try dsimp only
  repeat' first | with_reducible assumption | with_reducible intro _ | with_reducible apply State.kvTake_ok | with_reducible apply ok_ite | (fail_if_no_progress with_reducible apply ok_mk) | with_reducible apply each_ok | with_reducible apply next_ok | with_reducible apply kv_err_ok | with_reducible apply kv_ok_ok | with_reducible refine ok_snd (by with_reducible assumption) ?_ | with_reducible refine ok_fst (by with_reducible assumption) ?_ | with_reducible refine ok_some (by with_reducible assumption) ?_ | with_reducible apply foldl_ok | split

theorem State.kvRef_ok {pq : List Instr} (s : State) (p n k v : Nat) (inc : Bool) (hok : s.Ok pq) : KvOk pq (State.kvRef s p n k v inc) := by
  unfold State.kvRef
  try dsimp only
  repeat' first | with_reducible assumption | with_reducible intro _ | with_reducible apply State.kvSetRc_ok | with_reducible apply ok_ite | (fail_if_no_progress with_reducible apply ok_mk) | with_reducible apply each_ok | with_reducible apply next_ok | with_reducible apply kv_err_ok | with_reducible apply kv_ok_ok | with_reducible refine ok_snd (by with_reducible assumption) ?_ | with_reducible refine ok_fst (by with_reducible assumption) ?_ | with_reducible refine ok_some (by with_reducible assumption) ?_ | with_reducible apply foldl_ok | split

theorem State.kvBump_ok {pq : List Instr} (s : State) (p : Nat) (ks : List Nat) (v : Nat) (up : Bool) (hok : s.Ok pq) : (State.kvBump s p ks v up).Ok pq := by
  unfold State.kvBump
  try dsimp only
  repeat' first | with_reducible assumption | with_reducible intro _ | with_reducible apply State.each_ok | with_reducible apply State.kvSetRc_ok | with_reducible apply ok_ite | (fail_if_no_progress with_reducible apply ok_mk) | with_reducible apply each_ok | with_reducible apply next_ok | with_reducible refine ok_snd (by with_reducible assumption) ?_ | with_reducible refine ok_fst (by with_reducible assumption) ?_ | with_reducible refine ok_some (by with_reducible assumption) ?_ | with_reducible apply foldl_ok | split

theorem State.kvFork_ok {pq : List Instr} (s : State) (p n root root2 first count v : Nat) (hok : s.Ok pq) : KvOk pq (State.kvFork s p n root root2 first count v) := by
  unfold State.kvFork
  try dsimp only
  repeat' first | with_reducible assumption | with_reducible intro _ | with_reducible apply State.each_ok | with_reducible apply State.kvWriteL2_ok | with_reducible apply State.kvBump_ok | with_reducible apply ok_ite | (fail_if_no_progress with_reducible apply ok_mk) | with_reducible apply each_ok | with_reducible apply next_ok | with_reducible apply kv_err_ok | with_reducible apply kv_ok_ok | with_reducible refine ok_snd (by with_reducible assumption) ?_ | with_reducible refine ok_fst (by with_reducible assumption) ?_ | with_reducible refine ok_some (by with_reducible assumption) ?_ | with_reducible apply foldl_ok | split

theorem State.kvRelease_ok {pq : List Instr} (s : State) (p n root first count v : Nat) (hok : s.Ok pq) : KvOk pq (State.kvRelease s p n root first count v) := by
  unfold State.kvRelease
  try dsimp only
  repeat' first | with_reducible assumption | with_reducible intro _ | with_reducible apply State.each_ok | with_reducible apply State.kvWriteL2_ok | with_reducible apply State.kvBump_ok | with_reducible apply ok_ite | (fail_if_no_progress with_reducible apply ok_mk) | with_reducible apply each_ok | with_reducible apply next_ok | with_reducible apply kv_err_ok | with_reducible apply kv_ok_ok | with_reducible refine ok_snd (by with_reducible assumption) ?_ | with_reducible refine ok_fst (by with_reducible assumption) ?_ | with_reducible refine ok_some (by with_reducible assumption) ?_ | with_reducible apply foldl_ok | split

theorem State.poolEmpty_ok {pq : List Instr} (s : State) (p : Nat) (hok : s.Ok pq) : (State.poolEmpty s p).Ok pq := by
  unfold State.poolEmpty
  try dsimp only
  repeat' first | with_reducible assumption | with_reducible intro _ | with_reducible apply State.setFld_ok | with_reducible apply State.each_ok | with_reducible apply State.setKvQuar_ok | with_reducible apply State.setOwned_ok | with_reducible apply ok_ite | (fail_if_no_progress with_reducible apply ok_mk) | with_reducible apply each_ok

theorem State.poolStart_ok {pq : List Instr} (s : State) (p : Nat) (hok : s.Ok pq) : (State.poolStart s p).Ok pq := by
  unfold State.poolStart
  try dsimp only
  repeat' first | with_reducible assumption | with_reducible intro _ | with_reducible apply State.setPoolState_ok | with_reducible apply State.poolEmpty_ok

theorem State.labFlushPart_ok {pq : List Instr} (s : State) (p : Nat) (hok : s.Ok pq) : (State.labFlushPart s p).Ok pq := by
  unfold State.labFlushPart
  try dsimp only
  repeat' first | with_reducible assumption | with_reducible intro _ | with_reducible apply State.labRemovePart_ok

theorem State.poolCfgWrite_ok {pq : List Instr} (s : State) (rq : Requester) (p : Nat) (v : Word) (hok : s.Ok pq) : (State.poolCfgWrite s rq p v).Ok pq := by
  unfold State.poolCfgWrite
  try dsimp only
  repeat' first | with_reducible assumption | with_reducible intro _ | with_reducible apply State.setFld_ok | with_reducible apply State.setFlag_ok | with_reducible apply State.countErr_ok | with_reducible apply State.setPoolState_ok | with_reducible apply State.poolEmpty_ok | with_reducible apply State.poolStart_ok | with_reducible apply State.labFlushPart_ok | with_reducible apply ok_ite

theorem execPoolEnable_ok {pq : List Instr} (rq : Requester) (p : Fin 8) (v : Word) (s : State) (hok : s.Ok pq) : OutOk pq (execPoolEnable rq p v s) := by
  unfold execPoolEnable
  try dsimp only
  repeat' first | with_reducible assumption | with_reducible intro _ | with_reducible apply State.privWrite_ok | with_reducible apply State.poolCfgWrite_ok | with_reducible apply ok_ite | (fail_if_no_progress with_reducible apply ok_mk) | with_reducible apply each_ok | with_reducible apply next_ok

theorem execPoolDisable_ok {pq : List Instr} (rq : Requester) (p : Fin 8) (v : Word) (s : State) (hok : s.Ok pq) : OutOk pq (execPoolDisable rq p v s) := by
  unfold execPoolDisable
  try dsimp only
  repeat' first | with_reducible assumption | with_reducible intro _ | with_reducible apply State.privWrite_ok | with_reducible apply State.poolCfgWrite_ok | with_reducible apply ok_ite | (fail_if_no_progress with_reducible apply ok_mk) | with_reducible apply each_ok | with_reducible apply next_ok

theorem State.poolWrite_ok {pq : List Instr} (s : State) (p : Nat) (l : List Nat) (h : s.Ok pq) : (s.poolWrite p l).Ok pq := by
  induction l generalizing s with
  | nil => exact h
  | cons k r ih => exact ih _ (State.setKvDesc_ok _ _ _ _ h)

theorem execPoolInitDone_ok {pq : List Instr} (p : Fin 8) (s : State) (hok : s.Ok pq) : OutOk pq (execPoolInitDone p s) := by
  unfold execPoolInitDone
  try dsimp only
  repeat' first | with_reducible assumption | with_reducible intro _ | with_reducible apply State.tick_ok | with_reducible apply State.ticks_ok | with_reducible apply State.setPoolState_ok | with_reducible apply State.setKvFree_ok | with_reducible apply State.poolWrite_ok | with_reducible apply ok_ite | (fail_if_no_progress with_reducible apply ok_mk) | with_reducible apply each_ok | with_reducible apply next_ok

theorem execKpmReclaimSweep_ok {pq : List Instr} (n : Fin 128) (s : State) (hok : s.Ok pq) : OutOk pq (execKpmReclaimSweep n s) := by
  unfold execKpmReclaimSweep
  try dsimp only
  repeat' first | with_reducible assumption | with_reducible intro _ | with_reducible apply State.setFld_ok | with_reducible apply State.setFlag_ok | with_reducible apply State.each_ok | with_reducible apply State.event_ok | with_reducible apply State.kvSetRc_ok | with_reducible apply ok_ite | (fail_if_no_progress with_reducible apply ok_mk) | with_reducible apply each_ok | with_reducible apply next_ok

theorem execKvwFlush_ok {pq : List Instr} (rq : Requester) (cl : Fin 64) (s : State) (hok : s.Ok pq) : OutOk pq (execKvwFlush rq cl s) := by
  unfold execKvwFlush
  try dsimp only
  repeat' first | with_reducible assumption | with_reducible intro _ | with_reducible apply State.labRemove_ok | with_reducible apply State.tileWrite_ok | with_reducible apply ok_ite | (fail_if_no_progress with_reducible apply ok_mk) | with_reducible apply each_ok | with_reducible apply next_ok

theorem State.kvTenantReset_ok {pq : List Instr} (s : State) (n : Nat) (sweep : Bool) (hok : s.Ok pq) : (State.kvTenantReset s n sweep).Ok pq := by
  unfold State.kvTenantReset
  try dsimp only
  repeat' first | with_reducible assumption | with_reducible intro _ | with_reducible apply State.setKvWin_ok | with_reducible apply State.labRemove_ok | with_reducible apply State.each_ok | with_reducible apply State.setFlag_ok | with_reducible apply State.setFld_ok | with_reducible apply ok_ite | (fail_if_no_progress with_reducible apply ok_mk) | with_reducible apply each_ok

theorem State.kvPartReset_ok {pq : List Instr} (s : State) (p : Nat) (hok : s.Ok pq) : (State.kvPartReset s p).Ok pq := by
  unfold State.kvPartReset
  try dsimp only
  repeat' first | with_reducible assumption | with_reducible intro _ | with_reducible apply State.setPoolState_ok | with_reducible apply State.labFlushPart_ok | with_reducible apply ok_ite

theorem State.kvPartRestore_ok {pq : List Instr} (s : State) (p : Nat) (hok : s.Ok pq) : (State.kvPartRestore s p).Ok pq := by
  unfold State.kvPartRestore
  try dsimp only
  repeat' first | with_reducible assumption | with_reducible intro _ | with_reducible apply State.setPoolState_ok | with_reducible apply State.poolEmpty_ok | with_reducible apply State.poolStart_ok | with_reducible apply ok_ite

theorem State.kvFault_ok {pq : List Instr} (s : State) (p : Nat) (hok : s.Ok pq) : (State.kvFault s p).Ok pq := by
  unfold State.kvFault
  try dsimp only
  repeat' first | with_reducible assumption | with_reducible intro _ | with_reducible apply State.setPoolState_ok | with_reducible apply ok_ite

/-! Kv. -/

theorem State.atuIssue_ok {pq : List Instr} (s : State) (x : Nat) (i : Pk) (kind len : Nat) (ok : List Byte → Nat → Bool) (hok : s.Ok pq) : (State.atuIssue s x i kind len ok).Ok pq := by
  unfold State.atuIssue
  try dsimp only
  repeat' first | with_reducible assumption | with_reducible intro _ | with_reducible apply State.corePoison_ok | with_reducible apply State.peken_ok | with_reducible apply State.issue_ok | with_reducible apply engineDesc_ok | with_reducible apply ok_ite | (fail_if_no_progress with_reducible apply ok_mk) | with_reducible apply each_ok | with_reducible apply next_ok | with_reducible apply act_hold_ok | with_reducible apply act_fault_ok | with_reducible apply act_poison_ok | with_reducible refine act_of_eq (by with_reducible assumption) ?_ | with_reducible refine act_of_next (by with_reducible assumption) ?_ | with_reducible apply act_next_ok | with_reducible apply act_jump_ok | with_reducible apply act_block_ok | with_reducible refine ok_snd (by with_reducible assumption) ?_ | with_reducible refine ok_fst (by with_reducible assumption) ?_ | with_reducible refine ok_some (by with_reducible assumption) ?_ | with_reducible apply foldl_ok | split

theorem execPkAttn_ok {pq : List Instr} (x : Fin 512) (i : Pk) (s : State) (hok : s.Ok pq) : OutOk pq (execPkAttn x i s) := by
  unfold execPkAttn
  try dsimp only
  repeat' first | with_reducible assumption | with_reducible intro _ | with_reducible apply State.atuIssue_ok | with_reducible apply ok_ite | (fail_if_no_progress with_reducible apply ok_mk) | with_reducible apply each_ok | with_reducible apply next_ok

theorem execPkKvapp_ok {pq : List Instr} (x : Fin 512) (i : Pk) (s : State) (hok : s.Ok pq) : OutOk pq (execPkKvapp x i s) := by
  unfold execPkKvapp
  try dsimp only
  repeat' first | with_reducible assumption | with_reducible intro _ | with_reducible apply State.atuIssue_ok | with_reducible apply ok_ite | (fail_if_no_progress with_reducible apply ok_mk) | with_reducible apply each_ok | with_reducible apply next_ok

theorem execPkKvop_ok {pq : List Instr} (x : Fin 512) (i : Pk) (s : State) (hok : s.Ok pq) : OutOk pq (execPkKvop x i s) := by
  unfold execPkKvop
  try dsimp only
  repeat' first | with_reducible assumption | with_reducible intro _ | with_reducible apply State.atuIssue_ok | with_reducible apply ok_ite | (fail_if_no_progress with_reducible apply ok_mk) | with_reducible apply each_ok | with_reducible apply next_ok

theorem State.atuRan_ok {pq : List Instr} (s : State) (x : Nat) (hok : s.Ok pq) : (State.atuRan s x).Ok pq := by
  unfold State.atuRan
  try dsimp only
  repeat' first | with_reducible assumption | with_reducible intro _ | with_reducible apply State.setCore_ok

theorem State.atuPop_ok {pq : List Instr} (s : State) (x : Nat) (o : AtuOp) (hok : s.Ok pq) : (State.atuPop s x o).Ok pq := by
  unfold State.atuPop
  try dsimp only
  repeat' first | with_reducible assumption | with_reducible intro _ | with_reducible apply State.setCore_ok | with_reducible apply State.tokenFall_ok

theorem State.atuFail_ok {pq : List Instr} (s : State) (x : Nat) (o : AtuOp) (code sub addr : Nat) (hok : s.Ok pq) : (State.atuFail s x o code sub addr).Ok pq := by
  unfold State.atuFail
  try dsimp only
  repeat' first | with_reducible assumption | with_reducible intro _ | with_reducible apply State.setFld_ok | with_reducible apply State.setFlag_ok | with_reducible apply State.event_ok | with_reducible apply State.coreFault_ok | with_reducible apply State.atuPop_ok | with_reducible apply ok_ite

theorem State.atuPoison_ok {pq : List Instr} (s : State) (x : Nat) (o : AtuOp) (space addr : Nat) (hok : s.Ok pq) : (State.atuPoison s x o space addr).Ok pq := by
  unfold State.atuPoison
  try dsimp only
  repeat' first | with_reducible assumption | with_reducible intro _ | with_reducible apply State.corePoison_ok | with_reducible apply State.atuPop_ok

theorem State.kvRecord_ok {pq : List Instr} (s : State) (x : Nat) (o : AtuOp) (st res valid v : Nat) (more : List Byte) (hok : s.Ok pq) : (State.kvRecord s x o st res valid v more).Ok pq := by
  unfold State.kvRecord
  try dsimp only
  repeat' first | with_reducible assumption | with_reducible intro _ | with_reducible apply State.ownWrite_ok | with_reducible apply State.atuRan_ok

theorem State.kvEnd_ok {pq : List Instr} (s : State) (x : Nat) (o : AtuOp) (p v : Nat) (e : KvErr) (hok : s.Ok pq) : (State.kvEnd s x o p v e).Ok pq := by
  unfold State.kvEnd
  try dsimp only
  repeat' first | with_reducible assumption | with_reducible intro _ | with_reducible apply State.kvRecord_ok | with_reducible apply State.atuFail_ok | with_reducible apply State.kvFailed_ok | with_reducible apply ok_ite

theorem State.kvop_ok {pq : List Instr} (s : State) (x op : Nat) (windowed : Bool)
    (f : Nat → Nat → List Byte → Nat → State → Except KvErr (State × Nat)) (more : Nat → List Byte → State → List Byte)
    (h : s.Ok pq) (hf : ∀ p n b v (s : State), s.Ok pq → KvOk pq (f p n b v s)) : (s.kvop x op windowed f more).Ok pq := by
  unfold State.kvop
  split
  · exact h
  · dsimp only
    split
    · exact h
    · split
      · exact State.kvRecord_ok _ _ _ _ _ _ _ _ h
      · split
        · exact State.kvEnd_ok _ _ _ _ _ _ h
        · rename_i e; exact State.kvRecord_ok _ _ _ _ _ _ _ _ (State.kpmOp_ok _ _ _ _ _ _ _ h (hf _ _ _ _) _ e)

theorem execKvopAlloc_ok {pq : List Instr} (x : Fin 512) (s : State) (hok : s.Ok pq) : OutOk pq (execKvopAlloc x s) := by
  unfold execKvopAlloc
  try dsimp only
  repeat' first | with_reducible assumption | with_reducible intro _ | with_reducible apply State.kvAlloc_ok | with_reducible apply State.kvop_ok | with_reducible apply ok_ite | (fail_if_no_progress with_reducible apply ok_mk) | with_reducible apply each_ok | with_reducible apply next_ok

theorem execKvopIncref_ok {pq : List Instr} (x : Fin 512) (s : State) (hok : s.Ok pq) : OutOk pq (execKvopIncref x s) := by
  unfold execKvopIncref
  try dsimp only
  repeat' first | with_reducible assumption | with_reducible intro _ | with_reducible apply State.kvRef_ok | with_reducible apply State.kvop_ok | with_reducible apply ok_ite | (fail_if_no_progress with_reducible apply ok_mk) | with_reducible apply each_ok | with_reducible apply next_ok

theorem execKvopDecref_ok {pq : List Instr} (x : Fin 512) (s : State) (hok : s.Ok pq) : OutOk pq (execKvopDecref x s) := by
  unfold execKvopDecref
  try dsimp only
  repeat' first | with_reducible assumption | with_reducible intro _ | with_reducible apply State.kvRef_ok | with_reducible apply State.kvop_ok | with_reducible apply ok_ite | (fail_if_no_progress with_reducible apply ok_mk) | with_reducible apply each_ok | with_reducible apply next_ok

theorem execKvopFork_ok {pq : List Instr} (x : Fin 512) (s : State) (hok : s.Ok pq) : OutOk pq (execKvopFork x s) := by
  unfold execKvopFork
  try dsimp only
  repeat' first | with_reducible assumption | with_reducible intro _ | with_reducible apply State.kvFork_ok | with_reducible apply State.kvop_ok | with_reducible apply ok_ite | (fail_if_no_progress with_reducible apply ok_mk) | with_reducible apply each_ok | with_reducible apply next_ok

theorem execKvopRelease_ok {pq : List Instr} (x : Fin 512) (s : State) (hok : s.Ok pq) : OutOk pq (execKvopRelease x s) := by
  unfold execKvopRelease
  try dsimp only
  repeat' first | with_reducible assumption | with_reducible intro _ | with_reducible apply State.kvRelease_ok | with_reducible apply State.kvop_ok | with_reducible apply ok_ite | (fail_if_no_progress with_reducible apply ok_mk) | with_reducible apply each_ok | with_reducible apply next_ok

theorem execKvopInval_ok {pq : List Instr} (x : Fin 512) (s : State) (hok : s.Ok pq) : OutOk pq (execKvopInval x s) := by
  unfold execKvopInval
  try dsimp only
  repeat' first | with_reducible assumption | with_reducible intro _ | with_reducible apply State.labRemovePart_ok | with_reducible apply State.kvop_ok | with_reducible apply ok_ite | (fail_if_no_progress with_reducible apply ok_mk) | with_reducible apply each_ok | with_reducible apply next_ok | with_reducible apply kv_err_ok | with_reducible apply kv_ok_ok

theorem execKvopQuery_ok {pq : List Instr} (x : Fin 512) (s : State) (hok : s.Ok pq) : OutOk pq (execKvopQuery x s) := by
  unfold execKvopQuery
  try dsimp only
  repeat' first | with_reducible assumption | with_reducible intro _ | with_reducible apply State.kvop_ok | with_reducible apply ok_ite | (fail_if_no_progress with_reducible apply ok_mk) | with_reducible apply each_ok | with_reducible apply next_ok | with_reducible apply kv_err_ok | with_reducible apply kv_ok_ok | with_reducible refine ok_snd (by with_reducible assumption) ?_ | with_reducible refine ok_fst (by with_reducible assumption) ?_ | with_reducible refine ok_some (by with_reducible assumption) ?_ | with_reducible apply foldl_ok | split

theorem State.kvTranslate_ok {pq : List Instr} (s : State) (cl p n root i : Nat) (hok : s.Ok pq) : (State.kvTranslate s cl p n root i).2.Ok pq := by
  unfold State.kvTranslate
  try dsimp only
  repeat' first | with_reducible assumption | with_reducible intro _ | with_reducible apply State.addFld_ok | with_reducible apply State.labTouch_ok | with_reducible apply State.labFill_ok | with_reducible apply ok_ite | (fail_if_no_progress with_reducible apply ok_mk) | with_reducible apply each_ok | with_reducible apply next_ok | with_reducible apply kv_err_ok | with_reducible apply kv_ok_ok | with_reducible refine ok_snd (by with_reducible assumption) ?_ | with_reducible refine ok_fst (by with_reducible assumption) ?_ | with_reducible refine ok_some (by with_reducible assumption) ?_ | with_reducible apply foldl_ok | split

theorem State.kvTranslateAll_ok {pq : List Instr} (s : State) (cl p n root : Nat) (l : List Nat) (h : s.Ok pq) :
    (s.kvTranslateAll cl p n root l).2.Ok pq := by
  induction l generalizing s with
  | nil => exact h
  | cons i is ih =>
    unfold State.kvTranslateAll
    have h1 := State.kvTranslate_ok s cl p n root i h
    split
    · rename_i e; rw [e] at h1; exact h1
    · rename_i e; rw [e] at h1
      have h2 := ih _ h1
      split
      · rename_i e2; rw [e2] at h2; exact h2
      · rename_i e2; rw [e2] at h2; exact h2

theorem State.kvRaise_ok {pq : List Instr} (s : State) (p k v : Nat) (hok : s.Ok pq) : (State.kvRaise s p k v).Ok pq := by
  unfold State.kvRaise
  try dsimp only
  repeat' first | with_reducible assumption | with_reducible intro _ | with_reducible apply State.pWrite_ok | with_reducible apply ok_ite | (fail_if_no_progress with_reducible apply ok_mk) | with_reducible apply each_ok | with_reducible apply next_ok | with_reducible refine ok_snd (by with_reducible assumption) ?_ | with_reducible refine ok_fst (by with_reducible assumption) ?_ | with_reducible refine ok_some (by with_reducible assumption) ?_ | with_reducible apply foldl_ok | split

theorem State.kvCopy_ok {pq : List Instr} (s : State) (p src dst fmt vt : Nat) (hok : s.Ok pq) : (State.kvCopy s p src dst fmt vt).Ok pq := by
  unfold State.kvCopy
  try dsimp only
  repeat' first | with_reducible assumption | with_reducible intro _ | with_reducible apply State.pWrite_ok | with_reducible apply State.pCopy_ok

theorem State.kvStore_ok {pq : List Instr} (s : State) (p k i fmt pos n : Nat) (ks vs : List Fp) (hok : s.Ok pq) : (State.kvStore s p k i fmt pos n ks vs).Ok pq := by
  unfold State.kvStore
  try dsimp only
  repeat' first | with_reducible assumption | with_reducible intro _ | with_reducible apply State.pWrite_ok | with_reducible apply State.kvRaise_ok

theorem State.kvAppOp_ok {pq : List Instr} (s : State) (p n fmt v : Nat) (refs : List KvRef) (last : Nat) (st : State) (h : st.Ok pq) :
    KvOk pq (s.kvAppOp p n fmt v refs last st) := by
  unfold State.kvAppOp
  dsimp only
  repeat' first | exact trivial | split
  exact State.kvBump_ok _ _ _ _ _ (foldl_ok (fun s _ h => State.kvTake_ok _ _ _ _ _ h) h)

theorem State.kvRepoint_ok {pq : List Instr} (s : State) (p root fmt : Nat) (t : KvRef × Nat) (hok : s.Ok pq) : (State.kvRepoint s p root fmt t).Ok pq := by
  unfold State.kvRepoint
  try dsimp only
  repeat' first | with_reducible assumption | with_reducible intro _ | with_reducible apply State.kvWriteL2_ok | with_reducible apply State.kvCopy_ok | with_reducible apply ok_ite | (fail_if_no_progress with_reducible apply ok_mk) | with_reducible apply each_ok | with_reducible apply next_ok | with_reducible refine ok_snd (by with_reducible assumption) ?_ | with_reducible refine ok_fst (by with_reducible assumption) ?_ | with_reducible refine ok_some (by with_reducible assumption) ?_ | with_reducible apply foldl_ok | split

theorem State.kvAppWrite_ok {pq : List Instr} (s : State) (x : Nat) (o : AtuOp) (p : Nat) (ks vs : List Fp) (ts : List (KvRef × Nat)) (hok : s.Ok pq) : (State.kvAppWrite s x o p ks vs ts).Ok pq := by
  unfold State.kvAppWrite
  try dsimp only
  repeat' first | with_reducible assumption | with_reducible intro _ | with_reducible apply State.kvRepoint_ok | with_reducible apply State.kvStore_ok | with_reducible apply State.kvRecord_ok | with_reducible apply State.each_ok | with_reducible apply ok_ite | (fail_if_no_progress with_reducible apply ok_mk) | with_reducible apply each_ok

theorem State.kvAppDup_ok {pq : List Instr} (s : State) (x : Nat) (o : AtuOp) (p n res : Nat) (refs : List KvRef) (ks vs : List Fp) (hok : s.Ok pq) : (State.kvAppDup s x o p n res refs ks vs).Ok pq := by
  unfold State.kvAppDup
  try dsimp only
  repeat' first | with_reducible assumption | with_reducible intro _ | with_reducible apply State.kvAppWrite_ok | with_reducible apply State.kvRecord_ok | with_reducible apply State.atuFail_ok | with_reducible apply ok_ite | (fail_if_no_progress with_reducible apply ok_mk) | with_reducible apply each_ok | with_reducible refine ok_snd (by with_reducible assumption) ?_ | with_reducible refine ok_fst (by with_reducible assumption) ?_ | with_reducible refine ok_some (by with_reducible assumption) ?_ | with_reducible apply foldl_ok | split

theorem State.kvAppend_ok {pq : List Instr} (s : State) (x : Nat) (o : AtuOp) (p n ep : Nat) (refs : List KvRef) (ks vs : List Fp)
    (h : s.Ok pq) : (s.kvAppend x o p n ep refs ks vs).Ok pq := by
  unfold State.kvAppend
  dsimp only
  repeat' first | with_reducible assumption | with_reducible intro _ | with_reducible apply State.kvRepoint_ok | with_reducible apply State.kvStore_ok | (with_reducible apply each_ok) | exact State.kpmOp_ok _ _ _ _ _ _ _ h (fun s hs => State.kvAppOp_ok _ _ _ _ _ _ _ _ hs) _ (by assumption) | with_reducible apply State.kvAppDup_ok | with_reducible apply State.kvAppWrite_ok | with_reducible apply State.kvAppOp_ok | with_reducible apply State.kvEnd_ok | with_reducible apply State.kvRecord_ok | with_reducible apply State.atuFail_ok | with_reducible apply State.kpmOp_ok | with_reducible apply ok_ite | (fail_if_no_progress with_reducible apply ok_mk) | with_reducible apply each_ok | with_reducible refine ok_snd (by with_reducible assumption) ?_ | with_reducible refine ok_fst (by with_reducible assumption) ?_ | with_reducible refine ok_some (by with_reducible assumption) ?_ | with_reducible apply foldl_ok | split

theorem execKvappExecute_ok {pq : List Instr} (x : Fin 512) (s : State) (hok : s.Ok pq) : OutOk pq (execKvappExecute x s) := by
  unfold execKvappExecute
  try dsimp only
  repeat' first | with_reducible assumption | with_reducible intro _ | with_reducible apply State.atuPoison_ok | with_reducible apply State.kvRecord_ok | with_reducible apply State.kvEnd_ok | with_reducible apply State.kvTranslateAll_ok | with_reducible apply State.kvAppend_ok | with_reducible apply ok_ite | (fail_if_no_progress with_reducible apply ok_mk) | with_reducible apply each_ok | with_reducible apply next_ok | with_reducible refine ok_snd (by with_reducible assumption) ?_ | with_reducible refine ok_fst (by with_reducible assumption) ?_ | with_reducible refine ok_some (by with_reducible assumption) ?_ | with_reducible apply foldl_ok | split

theorem execAtuCommandDone_ok {pq : List Instr} (x : Fin 512) (s : State) (hok : s.Ok pq) : OutOk pq (execAtuCommandDone x s) := by
  unfold execAtuCommandDone
  try dsimp only
  repeat' first | with_reducible assumption | with_reducible intro _ | with_reducible apply State.addFld_ok | with_reducible apply State.setFld64_ok | with_reducible apply State.tick_ok | with_reducible apply State.atuPop_ok | with_reducible apply ok_ite | (fail_if_no_progress with_reducible apply ok_mk) | with_reducible apply each_ok | with_reducible apply next_ok | with_reducible refine ok_snd (by with_reducible assumption) ?_ | with_reducible refine ok_fst (by with_reducible assumption) ?_ | with_reducible refine ok_some (by with_reducible assumption) ?_ | with_reducible apply foldl_ok | split

/-! Attn. -/

theorem State.attnEnd_ok {pq : List Instr} (s : State) (x : Nat) (o : AtuOp) (p : Nat) (e : KvErr) (hok : s.Ok pq) : (State.attnEnd s x o p e).Ok pq := by
  unfold State.attnEnd
  try dsimp only
  repeat' first | with_reducible assumption | with_reducible intro _ | with_reducible apply State.kvFailed_ok | with_reducible apply State.atuFail_ok | with_reducible apply State.atuPoison_ok | with_reducible apply ok_ite

theorem State.attnCount_ok {pq : List Instr} (s : State) (p : Nat) (seen : Nat → List Nat) (refs : List KvRef) (hok : s.Ok pq) : (State.attnCount s p seen refs).Ok pq := by
  unfold State.attnCount
  try dsimp only
  repeat' first | with_reducible assumption | with_reducible intro _ | with_reducible apply State.pCount_ok | with_reducible apply State.each_ok | with_reducible apply each_ok | split

theorem execAttnExecute_ok {pq : List Instr} (x : Fin 512) (s : State) (hok : s.Ok pq) : OutOk pq (execAttnExecute x s) := by
  unfold execAttnExecute
  try dsimp only
  repeat' first | with_reducible assumption | with_reducible intro _ | with_reducible apply State.ownWrite_ok | with_reducible apply State.attnCount_ok | with_reducible apply State.atuRan_ok | with_reducible apply State.atuFail_ok | with_reducible apply State.atuPoison_ok | with_reducible apply State.kvTranslateAll_ok | with_reducible apply State.attnEnd_ok | with_reducible apply ok_ite | (fail_if_no_progress with_reducible apply ok_mk) | with_reducible apply each_ok | with_reducible apply next_ok | with_reducible refine ok_snd (by with_reducible assumption) ?_ | with_reducible refine ok_fst (by with_reducible assumption) ?_ | with_reducible refine ok_some (by with_reducible assumption) ?_ | with_reducible apply foldl_ok | split

theorem State.attnAbandon_ok {pq : List Instr} (s : State) (x : Nat) (hok : s.Ok pq) : (State.attnAbandon s x).Ok pq := by
  unfold State.attnAbandon
  try dsimp only
  repeat' first | with_reducible assumption | with_reducible intro _ | with_reducible apply State.ticks_ok | with_reducible apply State.ownWrite_ok | with_reducible apply ok_ite | (fail_if_no_progress with_reducible apply ok_mk) | with_reducible apply each_ok | with_reducible refine ok_snd (by with_reducible assumption) ?_ | with_reducible refine ok_fst (by with_reducible assumption) ?_ | with_reducible refine ok_some (by with_reducible assumption) ?_ | with_reducible apply foldl_ok | split

theorem execJobStop_ok {pq : List Instr} (x : Fin 512) (s : State) (hok : s.Ok pq) : OutOk pq (execJobStop x s) := by
  unfold execJobStop
  try dsimp only
  repeat' first | with_reducible assumption | with_reducible intro _ | with_reducible apply State.attnAbandon_ok | with_reducible apply State.runMov_ok | with_reducible apply State.ticks_ok | with_reducible apply State.jobCheck_ok | with_reducible apply State.setCore_ok | with_reducible apply State.each_ok | with_reducible apply State.setFld_ok | with_reducible apply ok_ite | (fail_if_no_progress with_reducible apply ok_mk) | with_reducible apply each_ok | with_reducible apply next_ok | with_reducible refine ok_snd (by with_reducible assumption) ?_ | with_reducible refine ok_fst (by with_reducible assumption) ?_ | with_reducible refine ok_some (by with_reducible assumption) ?_ | with_reducible apply foldl_ok | split

/-! Spares. -/

theorem State.setSparePending_ok {pq : List Instr} (s : State) (y : Nat) (v : Option Nat) (hok : s.Ok pq) : (State.setSparePending s y v).Ok pq := by
  unfold State.setSparePending
  try dsimp only
  repeat' first | with_reducible assumption | with_reducible intro _ | with_reducible apply State.setFlag_ok | with_reducible apply ok_ite | (fail_if_no_progress with_reducible apply ok_mk)

theorem State.clearSpare_ok {pq : List Instr} (s : State) (y k : Nat) (hok : s.Ok pq) : (State.clearSpare s y k).Ok pq := by
  unfold State.clearSpare
  try dsimp only
  repeat' first | with_reducible assumption | with_reducible intro _ | with_reducible apply State.clearStoreAt_ok

theorem State.spareWrite_ok {pq : List Instr} (s : State) (rq : Requester) (x v : Nat) (hok : s.Ok pq) : (State.spareWrite s rq x v).Ok pq := by
  unfold State.spareWrite
  try dsimp only
  repeat' first | with_reducible assumption | with_reducible intro _ | with_reducible apply State.countErr_ok | with_reducible apply State.setSparePending_ok | with_reducible apply ok_ite

theorem execSpareAssignWrite_ok {pq : List Instr} (rq : Requester) (x : Fin 512) (v : Word) (s : State) (hok : s.Ok pq) : OutOk pq (execSpareAssignWrite rq x v s) := by
  unfold execSpareAssignWrite
  try dsimp only
  repeat' first | with_reducible assumption | with_reducible intro _ | with_reducible apply State.spareWrite_ok | with_reducible apply State.tileWrite_ok | with_reducible apply ok_ite | (fail_if_no_progress with_reducible apply ok_mk) | with_reducible apply each_ok | with_reducible apply next_ok

theorem execSpareAssignTakeEffect_ok {pq : List Instr} (x : Fin 512) (s : State) (hok : s.Ok pq) : OutOk pq (execSpareAssignTakeEffect x s) := by
  unfold execSpareAssignTakeEffect
  try dsimp only
  repeat' first | with_reducible assumption | with_reducible intro _ | with_reducible apply State.setFld_ok | with_reducible apply State.each_ok | with_reducible apply State.event_ok | with_reducible apply State.setSparePending_ok | with_reducible apply State.clearSpare_ok | with_reducible apply ok_ite | (fail_if_no_progress with_reducible apply ok_mk) | with_reducible apply each_ok | with_reducible apply next_ok | with_reducible refine ok_snd (by with_reducible assumption) ?_ | with_reducible refine ok_fst (by with_reducible assumption) ?_ | with_reducible refine ok_some (by with_reducible assumption) ?_ | with_reducible apply foldl_ok | split

theorem State.spareClearTenant_ok {pq : List Instr} (s : State) (n : Nat) (hok : s.Ok pq) : (State.spareClearTenant s n).Ok pq := by
  unfold State.spareClearTenant
  try dsimp only
  repeat' first | with_reducible assumption | with_reducible intro _ | with_reducible apply State.each_ok | with_reducible apply State.clearSpare_ok | with_reducible apply ok_ite | (fail_if_no_progress with_reducible apply ok_mk) | with_reducible apply each_ok

theorem State.spareUnassign_ok {pq : List Instr} (s : State) (y : Nat) (hok : s.Ok pq) : (State.spareUnassign s y).Ok pq := by
  unfold State.spareUnassign
  try dsimp only
  repeat' first | with_reducible assumption | with_reducible intro _ | with_reducible apply State.setFld_ok | with_reducible apply State.each_ok | with_reducible apply State.setSparePending_ok | with_reducible apply ok_ite | (fail_if_no_progress with_reducible apply ok_mk) | with_reducible apply each_ok

/-! SliceRows. -/

theorem State.sliceMapUe_ok {pq : List Instr} (s : State) (x a : Nat) (hok : s.Ok pq) : (State.sliceMapUe s x a).Ok pq := by
  unfold State.sliceMapUe
  try dsimp only
  repeat' first | with_reducible assumption | with_reducible intro _ | with_reducible apply State.scbUe_ok | with_reducible apply ok_ite | (fail_if_no_progress with_reducible apply ok_mk) | with_reducible apply ok_hmp_wr | with_reducible apply ok_hmp_clear | with_reducible apply ok_hmp_poison | with_reducible apply ok_stores_wr | with_reducible apply ok_stores_clear | with_reducible apply ok_stores_poison | with_reducible apply ok_slices_write | with_reducible apply ok_slices_clear | with_reducible apply ok_slices_pois | with_reducible apply ok_slices_markBoth

theorem State.sliceEcc_ok {pq : List Instr} (s : State) (x a : Nat) (reads : Bool) (e : EccIn) (hok : s.Ok pq) : (State.sliceEcc s x a reads e).Ok pq := by
  unfold State.sliceEcc
  try dsimp only
  repeat' first | with_reducible assumption | with_reducible intro _ | with_reducible apply State.sliceUe_ok | with_reducible apply State.sliceCe_ok | with_reducible apply State.sliceMapUe_ok | with_reducible apply ok_ite | (fail_if_no_progress with_reducible apply ok_mk) | with_reducible apply each_ok | with_reducible apply next_ok | with_reducible refine ok_snd (by with_reducible assumption) ?_ | with_reducible refine ok_fst (by with_reducible assumption) ?_ | with_reducible refine ok_some (by with_reducible assumption) ?_ | with_reducible apply foldl_ok | split

theorem State.sliceReadOut_ok {pq : List Instr} (s : State) (x a n : Nat) (buf : Bool) (hok : s.Ok pq) : (State.sliceReadOut s x a n buf).Ok pq := by
  unfold State.sliceReadOut
  try dsimp only
  repeat' first | with_reducible assumption | with_reducible intro _ | with_reducible apply State.emit_ok | with_reducible apply State.sliceReadCount_ok

theorem State.sliceAtomic_ok {pq : List Instr} (s : State) (x a w : Nat) (buf : Bool) (f : Nat → Option Nat) (hok : s.Ok pq) : (State.sliceAtomic s x a w buf f).Ok pq := by
  unfold State.sliceAtomic
  try dsimp only
  repeat' first | with_reducible assumption | with_reducible intro _ | with_reducible apply State.emit_ok | with_reducible apply State.sliceReadCount_ok | with_reducible apply State.sliceWrite_ok | with_reducible apply ok_ite | (fail_if_no_progress with_reducible apply ok_mk) | with_reducible apply each_ok | with_reducible apply next_ok | with_reducible refine ok_snd (by with_reducible assumption) ?_ | with_reducible refine ok_fst (by with_reducible assumption) ?_ | with_reducible refine ok_some (by with_reducible assumption) ?_ | with_reducible apply foldl_ok | split

theorem execSliceRequest_ok {pq : List Instr} (x : Fin 512) (addr : BitVec 27) (op : SliceOp) (ecc : EccIn) (s : State) (hok : s.Ok pq) : OutOk pq (execSliceRequest x addr op ecc s) := by
  unfold execSliceRequest
  try dsimp only
  repeat' first | with_reducible assumption | with_reducible intro _ | with_reducible apply State.sliceWrite_ok | with_reducible apply State.sliceEcc_ok | with_reducible apply State.sliceReadOut_ok | with_reducible apply State.sliceAtomic_ok | with_reducible apply ok_ite | (fail_if_no_progress with_reducible apply ok_mk) | with_reducible apply each_ok | with_reducible apply next_ok | with_reducible refine ok_snd (by with_reducible assumption) ?_ | with_reducible refine ok_fst (by with_reducible assumption) ?_ | with_reducible refine ok_some (by with_reducible assumption) ?_ | with_reducible apply foldl_ok | split

theorem execSliceBondError_ok {pq : List Instr} (x : Fin 512) (s : State) (hok : s.Ok pq) : OutOk pq (execSliceBondError x s) := by
  unfold execSliceBondError
  try dsimp only
  repeat' first | with_reducible assumption | with_reducible intro _ | with_reducible apply State.sliceFail_ok | with_reducible apply ok_ite | (fail_if_no_progress with_reducible apply ok_mk) | with_reducible apply each_ok | with_reducible apply next_ok

theorem execSliceCalibration_ok {pq : List Instr} (x : Fin 512) (ok : Bool) (s : State) (hok : s.Ok pq) : OutOk pq (execSliceCalibration x ok s) := by
  unfold execSliceCalibration
  try dsimp only
  repeat' first | with_reducible assumption | with_reducible intro _ | with_reducible apply State.sliceFail_ok | with_reducible apply ok_ite | (fail_if_no_progress with_reducible apply ok_mk) | with_reducible apply each_ok | with_reducible apply next_ok

theorem execSlcForceFail_ok {pq : List Instr} (rq : Requester) (x : Fin 512) (s : State) (hok : s.Ok pq) : OutOk pq (execSlcForceFail rq x s) := by
  unfold execSlcForceFail
  try dsimp only
  repeat' first | with_reducible assumption | with_reducible intro _ | with_reducible apply State.sliceFail_ok | with_reducible apply State.tileWrite_ok | with_reducible apply ok_ite | (fail_if_no_progress with_reducible apply ok_mk) | with_reducible apply each_ok | with_reducible apply next_ok

theorem execSliceRefresh_ok {pq : List Instr} (_x : Fin 512) (s : State) (hok : s.Ok pq) : OutOk pq (execSliceRefresh _x s) := by
  unfold execSliceRefresh
  try dsimp only
  repeat' first | with_reducible assumption | with_reducible intro _ | with_reducible apply ok_ite | (fail_if_no_progress with_reducible apply ok_mk) | with_reducible apply each_ok | with_reducible apply next_ok

theorem execUeWindowEnd_ok {pq : List Instr} (x : Fin 512) (s : State) (hok : s.Ok pq) : OutOk pq (execUeWindowEnd x s) := by
  unfold execUeWindowEnd
  try dsimp only
  repeat' first | with_reducible assumption | with_reducible intro _ | with_reducible apply ok_ite | (fail_if_no_progress with_reducible apply ok_mk) | with_reducible apply each_ok | with_reducible apply next_ok

/-! Vector. -/

theorem State.vecI_ok {pq : List Instr} (s : State) (x : Nat) (i : Pk) (op : Word → Word → Word) (hok : s.Ok pq) : (State.vecI s x i op).Ok pq := by
  unfold State.vecI
  try dsimp only
  repeat' first | with_reducible assumption | with_reducible intro _ | with_reducible apply State.pekenReg_ok

theorem State.vecF2_ok {pq : List Instr} (s : State) (x : Nat) (i : Pk) (op : Nat → Word → Word → Word × Nat) (hok : s.Ok pq) : (State.vecF2 s x i op).Ok pq := by
  unfold State.vecF2
  try dsimp only
  repeat' first | with_reducible assumption | with_reducible intro _ | with_reducible apply State.pekenReg_ok

theorem State.vecF1_ok {pq : List Instr} (s : State) (x : Nat) (i : Pk) (ms : List Nat) (op : Nat → Word → Word × Nat) (hok : s.Ok pq) : (State.vecF1 s x i ms op).Ok pq := by
  unfold State.vecF1
  try dsimp only
  repeat' first | with_reducible assumption | with_reducible intro _ | with_reducible apply State.pekenReg_ok

theorem State.predOp_ok {pq : List Instr} (s : State) (x : Nat) (i : Pk) (op : Dword → Dword → Dword) (hok : s.Ok pq) : (State.predOp s x i op).Ok pq := by
  unfold State.predOp
  try dsimp only
  repeat' first | with_reducible assumption | with_reducible intro _ | with_reducible apply State.pekenReg_ok

theorem execPkVadd_ok {pq : List Instr} (x : Fin 512) (i : Pk) (s : State) (hok : s.Ok pq) : OutOk pq (execPkVadd x i s) := by
  unfold execPkVadd
  try dsimp only
  repeat' first | with_reducible assumption | with_reducible intro _ | with_reducible apply State.vecI_ok | with_reducible apply ok_ite | (fail_if_no_progress with_reducible apply ok_mk) | with_reducible apply each_ok | with_reducible apply next_ok

theorem execPkVsub_ok {pq : List Instr} (x : Fin 512) (i : Pk) (s : State) (hok : s.Ok pq) : OutOk pq (execPkVsub x i s) := by
  unfold execPkVsub
  try dsimp only
  repeat' first | with_reducible assumption | with_reducible intro _ | with_reducible apply State.vecI_ok | with_reducible apply ok_ite | (fail_if_no_progress with_reducible apply ok_mk) | with_reducible apply each_ok | with_reducible apply next_ok

theorem execPkVmul_ok {pq : List Instr} (x : Fin 512) (i : Pk) (s : State) (hok : s.Ok pq) : OutOk pq (execPkVmul x i s) := by
  unfold execPkVmul
  try dsimp only
  repeat' first | with_reducible assumption | with_reducible intro _ | with_reducible apply State.vecI_ok | with_reducible apply ok_ite | (fail_if_no_progress with_reducible apply ok_mk) | with_reducible apply each_ok | with_reducible apply next_ok

theorem execPkVmulhu_ok {pq : List Instr} (x : Fin 512) (i : Pk) (s : State) (hok : s.Ok pq) : OutOk pq (execPkVmulhu x i s) := by
  unfold execPkVmulhu
  try dsimp only
  repeat' first | with_reducible assumption | with_reducible intro _ | with_reducible apply State.vecI_ok | with_reducible apply ok_ite | (fail_if_no_progress with_reducible apply ok_mk) | with_reducible apply each_ok | with_reducible apply next_ok

theorem execPkVand_ok {pq : List Instr} (x : Fin 512) (i : Pk) (s : State) (hok : s.Ok pq) : OutOk pq (execPkVand x i s) := by
  unfold execPkVand
  try dsimp only
  repeat' first | with_reducible assumption | with_reducible intro _ | with_reducible apply State.vecI_ok | with_reducible apply ok_ite | (fail_if_no_progress with_reducible apply ok_mk) | with_reducible apply each_ok | with_reducible apply next_ok

theorem execPkVor_ok {pq : List Instr} (x : Fin 512) (i : Pk) (s : State) (hok : s.Ok pq) : OutOk pq (execPkVor x i s) := by
  unfold execPkVor
  try dsimp only
  repeat' first | with_reducible assumption | with_reducible intro _ | with_reducible apply State.vecI_ok | with_reducible apply ok_ite | (fail_if_no_progress with_reducible apply ok_mk) | with_reducible apply each_ok | with_reducible apply next_ok

theorem execPkVxor_ok {pq : List Instr} (x : Fin 512) (i : Pk) (s : State) (hok : s.Ok pq) : OutOk pq (execPkVxor x i s) := by
  unfold execPkVxor
  try dsimp only
  repeat' first | with_reducible assumption | with_reducible intro _ | with_reducible apply State.vecI_ok | with_reducible apply ok_ite | (fail_if_no_progress with_reducible apply ok_mk) | with_reducible apply each_ok | with_reducible apply next_ok

theorem execPkVshl_ok {pq : List Instr} (x : Fin 512) (i : Pk) (s : State) (hok : s.Ok pq) : OutOk pq (execPkVshl x i s) := by
  unfold execPkVshl
  try dsimp only
  repeat' first | with_reducible assumption | with_reducible intro _ | with_reducible apply State.vecI_ok | with_reducible apply ok_ite | (fail_if_no_progress with_reducible apply ok_mk) | with_reducible apply each_ok | with_reducible apply next_ok

theorem execPkVshr_ok {pq : List Instr} (x : Fin 512) (i : Pk) (s : State) (hok : s.Ok pq) : OutOk pq (execPkVshr x i s) := by
  unfold execPkVshr
  try dsimp only
  repeat' first | with_reducible assumption | with_reducible intro _ | with_reducible apply State.vecI_ok | with_reducible apply ok_ite | (fail_if_no_progress with_reducible apply ok_mk) | with_reducible apply each_ok | with_reducible apply next_ok

theorem execPkVsra_ok {pq : List Instr} (x : Fin 512) (i : Pk) (s : State) (hok : s.Ok pq) : OutOk pq (execPkVsra x i s) := by
  unfold execPkVsra
  try dsimp only
  repeat' first | with_reducible assumption | with_reducible intro _ | with_reducible apply State.vecI_ok | with_reducible apply ok_ite | (fail_if_no_progress with_reducible apply ok_mk) | with_reducible apply each_ok | with_reducible apply next_ok

theorem execPkVmin_ok {pq : List Instr} (x : Fin 512) (i : Pk) (s : State) (hok : s.Ok pq) : OutOk pq (execPkVmin x i s) := by
  unfold execPkVmin
  try dsimp only
  repeat' first | with_reducible assumption | with_reducible intro _ | with_reducible apply State.vecI_ok | with_reducible apply ok_ite | (fail_if_no_progress with_reducible apply ok_mk) | with_reducible apply each_ok | with_reducible apply next_ok

theorem execPkVmax_ok {pq : List Instr} (x : Fin 512) (i : Pk) (s : State) (hok : s.Ok pq) : OutOk pq (execPkVmax x i s) := by
  unfold execPkVmax
  try dsimp only
  repeat' first | with_reducible assumption | with_reducible intro _ | with_reducible apply State.vecI_ok | with_reducible apply ok_ite | (fail_if_no_progress with_reducible apply ok_mk) | with_reducible apply each_ok | with_reducible apply next_ok

theorem execPkVminu_ok {pq : List Instr} (x : Fin 512) (i : Pk) (s : State) (hok : s.Ok pq) : OutOk pq (execPkVminu x i s) := by
  unfold execPkVminu
  try dsimp only
  repeat' first | with_reducible assumption | with_reducible intro _ | with_reducible apply State.vecI_ok | with_reducible apply ok_ite | (fail_if_no_progress with_reducible apply ok_mk) | with_reducible apply each_ok | with_reducible apply next_ok

theorem execPkVmaxu_ok {pq : List Instr} (x : Fin 512) (i : Pk) (s : State) (hok : s.Ok pq) : OutOk pq (execPkVmaxu x i s) := by
  unfold execPkVmaxu
  try dsimp only
  repeat' first | with_reducible assumption | with_reducible intro _ | with_reducible apply State.vecI_ok | with_reducible apply ok_ite | (fail_if_no_progress with_reducible apply ok_mk) | with_reducible apply each_ok | with_reducible apply next_ok

theorem execPkVsel_ok {pq : List Instr} (x : Fin 512) (i : Pk) (s : State) (hok : s.Ok pq) : OutOk pq (execPkVsel x i s) := by
  unfold execPkVsel
  try dsimp only
  repeat' first | with_reducible assumption | with_reducible intro _ | with_reducible apply State.pekenReg_ok | with_reducible apply ok_ite | (fail_if_no_progress with_reducible apply ok_mk) | with_reducible apply each_ok | with_reducible apply next_ok

theorem execPkVmad_ok {pq : List Instr} (x : Fin 512) (i : Pk) (s : State) (hok : s.Ok pq) : OutOk pq (execPkVmad x i s) := by
  unfold execPkVmad
  try dsimp only
  repeat' first | with_reducible assumption | with_reducible intro _ | with_reducible apply State.pekenReg_ok | with_reducible apply ok_ite | (fail_if_no_progress with_reducible apply ok_mk) | with_reducible apply each_ok | with_reducible apply next_ok

theorem execPkVfadd_ok {pq : List Instr} (x : Fin 512) (i : Pk) (s : State) (hok : s.Ok pq) : OutOk pq (execPkVfadd x i s) := by
  unfold execPkVfadd
  try dsimp only
  repeat' first | with_reducible assumption | with_reducible intro _ | with_reducible apply State.vecF2_ok | with_reducible apply ok_ite | (fail_if_no_progress with_reducible apply ok_mk) | with_reducible apply each_ok | with_reducible apply next_ok

theorem execPkVfsub_ok {pq : List Instr} (x : Fin 512) (i : Pk) (s : State) (hok : s.Ok pq) : OutOk pq (execPkVfsub x i s) := by
  unfold execPkVfsub
  try dsimp only
  repeat' first | with_reducible assumption | with_reducible intro _ | with_reducible apply State.vecF2_ok | with_reducible apply ok_ite | (fail_if_no_progress with_reducible apply ok_mk) | with_reducible apply each_ok | with_reducible apply next_ok

theorem execPkVfmul_ok {pq : List Instr} (x : Fin 512) (i : Pk) (s : State) (hok : s.Ok pq) : OutOk pq (execPkVfmul x i s) := by
  unfold execPkVfmul
  try dsimp only
  repeat' first | with_reducible assumption | with_reducible intro _ | with_reducible apply State.vecF2_ok | with_reducible apply ok_ite | (fail_if_no_progress with_reducible apply ok_mk) | with_reducible apply each_ok | with_reducible apply next_ok

theorem execPkVfmin_ok {pq : List Instr} (x : Fin 512) (i : Pk) (s : State) (hok : s.Ok pq) : OutOk pq (execPkVfmin x i s) := by
  unfold execPkVfmin
  try dsimp only
  repeat' first | with_reducible assumption | with_reducible intro _ | with_reducible apply State.vecF2_ok | with_reducible apply ok_ite | (fail_if_no_progress with_reducible apply ok_mk) | with_reducible apply each_ok | with_reducible apply next_ok

theorem execPkVfmax_ok {pq : List Instr} (x : Fin 512) (i : Pk) (s : State) (hok : s.Ok pq) : OutOk pq (execPkVfmax x i s) := by
  unfold execPkVfmax
  try dsimp only
  repeat' first | with_reducible assumption | with_reducible intro _ | with_reducible apply State.vecF2_ok | with_reducible apply ok_ite | (fail_if_no_progress with_reducible apply ok_mk) | with_reducible apply each_ok | with_reducible apply next_ok

theorem execPkVfma_ok {pq : List Instr} (x : Fin 512) (i : Pk) (s : State) (hok : s.Ok pq) : OutOk pq (execPkVfma x i s) := by
  unfold execPkVfma
  try dsimp only
  repeat' first | with_reducible assumption | with_reducible intro _ | with_reducible apply State.pekenReg_ok | with_reducible apply ok_ite | (fail_if_no_progress with_reducible apply ok_mk) | with_reducible apply each_ok | with_reducible apply next_ok

theorem execPkVfrcp_ok {pq : List Instr} (x : Fin 512) (i : Pk) (s : State) (hok : s.Ok pq) : OutOk pq (execPkVfrcp x i s) := by
  unfold execPkVfrcp
  try dsimp only
  repeat' first | with_reducible assumption | with_reducible intro _ | with_reducible apply State.vecF1_ok | with_reducible apply ok_ite | (fail_if_no_progress with_reducible apply ok_mk) | with_reducible apply each_ok | with_reducible apply next_ok

theorem execPkVfrsq_ok {pq : List Instr} (x : Fin 512) (i : Pk) (s : State) (hok : s.Ok pq) : OutOk pq (execPkVfrsq x i s) := by
  unfold execPkVfrsq
  try dsimp only
  repeat' first | with_reducible assumption | with_reducible intro _ | with_reducible apply State.vecF1_ok | with_reducible apply ok_ite | (fail_if_no_progress with_reducible apply ok_mk) | with_reducible apply each_ok | with_reducible apply next_ok

theorem execPkVfexp2_ok {pq : List Instr} (x : Fin 512) (i : Pk) (s : State) (hok : s.Ok pq) : OutOk pq (execPkVfexp2 x i s) := by
  unfold execPkVfexp2
  try dsimp only
  repeat' first | with_reducible assumption | with_reducible intro _ | with_reducible apply State.vecF1_ok | with_reducible apply ok_ite | (fail_if_no_progress with_reducible apply ok_mk) | with_reducible apply each_ok | with_reducible apply next_ok

theorem execPkVflog2_ok {pq : List Instr} (x : Fin 512) (i : Pk) (s : State) (hok : s.Ok pq) : OutOk pq (execPkVflog2 x i s) := by
  unfold execPkVflog2
  try dsimp only
  repeat' first | with_reducible assumption | with_reducible intro _ | with_reducible apply State.vecF1_ok | with_reducible apply ok_ite | (fail_if_no_progress with_reducible apply ok_mk) | with_reducible apply each_ok | with_reducible apply next_ok

theorem execPkVfsgn_ok {pq : List Instr} (x : Fin 512) (i : Pk) (s : State) (hok : s.Ok pq) : OutOk pq (execPkVfsgn x i s) := by
  unfold execPkVfsgn
  try dsimp only
  repeat' first | with_reducible assumption | with_reducible intro _ | with_reducible apply State.pekenReg_ok | with_reducible apply ok_ite | (fail_if_no_progress with_reducible apply ok_mk) | with_reducible apply each_ok | with_reducible apply next_ok

theorem execPkVcvt_ok {pq : List Instr} (x : Fin 512) (i : Pk) (s : State) (hok : s.Ok pq) : OutOk pq (execPkVcvt x i s) := by
  unfold execPkVcvt
  try dsimp only
  repeat' first | with_reducible assumption | with_reducible intro _ | with_reducible apply State.vecF1_ok | with_reducible apply ok_ite | (fail_if_no_progress with_reducible apply ok_mk) | with_reducible apply each_ok | with_reducible apply next_ok

theorem execPkVfrnd_ok {pq : List Instr} (x : Fin 512) (i : Pk) (s : State) (hok : s.Ok pq) : OutOk pq (execPkVfrnd x i s) := by
  unfold execPkVfrnd
  try dsimp only
  repeat' first | with_reducible assumption | with_reducible intro _ | with_reducible apply State.vecF1_ok | with_reducible apply ok_ite | (fail_if_no_progress with_reducible apply ok_mk) | with_reducible apply each_ok | with_reducible apply next_ok

theorem execPkVicmp_ok {pq : List Instr} (x : Fin 512) (i : Pk) (s : State) (hok : s.Ok pq) : OutOk pq (execPkVicmp x i s) := by
  unfold execPkVicmp
  try dsimp only
  repeat' first | with_reducible assumption | with_reducible intro _ | with_reducible apply State.pekenReg_ok | with_reducible apply ok_ite | (fail_if_no_progress with_reducible apply ok_mk) | with_reducible apply each_ok | with_reducible apply next_ok

theorem execPkVfcmp_ok {pq : List Instr} (x : Fin 512) (i : Pk) (s : State) (hok : s.Ok pq) : OutOk pq (execPkVfcmp x i s) := by
  unfold execPkVfcmp
  try dsimp only
  repeat' first | with_reducible assumption | with_reducible intro _ | with_reducible apply State.pekenReg_ok | with_reducible apply ok_ite | (fail_if_no_progress with_reducible apply ok_mk) | with_reducible apply each_ok | with_reducible apply next_ok

theorem execPkPand_ok {pq : List Instr} (x : Fin 512) (i : Pk) (s : State) (hok : s.Ok pq) : OutOk pq (execPkPand x i s) := by
  unfold execPkPand
  try dsimp only
  repeat' first | with_reducible assumption | with_reducible intro _ | with_reducible apply State.predOp_ok | with_reducible apply ok_ite | (fail_if_no_progress with_reducible apply ok_mk) | with_reducible apply each_ok | with_reducible apply next_ok

theorem execPkPor_ok {pq : List Instr} (x : Fin 512) (i : Pk) (s : State) (hok : s.Ok pq) : OutOk pq (execPkPor x i s) := by
  unfold execPkPor
  try dsimp only
  repeat' first | with_reducible assumption | with_reducible intro _ | with_reducible apply State.predOp_ok | with_reducible apply ok_ite | (fail_if_no_progress with_reducible apply ok_mk) | with_reducible apply each_ok | with_reducible apply next_ok

theorem execPkPxor_ok {pq : List Instr} (x : Fin 512) (i : Pk) (s : State) (hok : s.Ok pq) : OutOk pq (execPkPxor x i s) := by
  unfold execPkPxor
  try dsimp only
  repeat' first | with_reducible assumption | with_reducible intro _ | with_reducible apply State.predOp_ok | with_reducible apply ok_ite | (fail_if_no_progress with_reducible apply ok_mk) | with_reducible apply each_ok | with_reducible apply next_ok

theorem execPkPandn_ok {pq : List Instr} (x : Fin 512) (i : Pk) (s : State) (hok : s.Ok pq) : OutOk pq (execPkPandn x i s) := by
  unfold execPkPandn
  try dsimp only
  repeat' first | with_reducible assumption | with_reducible intro _ | with_reducible apply State.predOp_ok | with_reducible apply ok_ite | (fail_if_no_progress with_reducible apply ok_mk) | with_reducible apply each_ok | with_reducible apply next_ok

theorem execPkPany_ok {pq : List Instr} (x : Fin 512) (i : Pk) (s : State) (hok : s.Ok pq) : OutOk pq (execPkPany x i s) := by
  unfold execPkPany
  try dsimp only
  repeat' first | with_reducible assumption | with_reducible intro _ | with_reducible apply State.pekenReg_ok | with_reducible apply ok_ite | (fail_if_no_progress with_reducible apply ok_mk) | with_reducible apply each_ok | with_reducible apply next_ok

theorem execPkPcnt_ok {pq : List Instr} (x : Fin 512) (i : Pk) (s : State) (hok : s.Ok pq) : OutOk pq (execPkPcnt x i s) := by
  unfold execPkPcnt
  try dsimp only
  repeat' first | with_reducible assumption | with_reducible intro _ | with_reducible apply State.pekenReg_ok | with_reducible apply ok_ite | (fail_if_no_progress with_reducible apply ok_mk) | with_reducible apply each_ok | with_reducible apply next_ok

theorem execPkPtos_ok {pq : List Instr} (x : Fin 512) (i : Pk) (s : State) (hok : s.Ok pq) : OutOk pq (execPkPtos x i s) := by
  unfold execPkPtos
  try dsimp only
  repeat' first | with_reducible assumption | with_reducible intro _ | with_reducible apply State.pekenReg_ok | with_reducible apply ok_ite | (fail_if_no_progress with_reducible apply ok_mk) | with_reducible apply each_ok | with_reducible apply next_ok

theorem execPkStop_ok {pq : List Instr} (x : Fin 512) (i : Pk) (s : State) (hok : s.Ok pq) : OutOk pq (execPkStop x i s) := by
  unfold execPkStop
  try dsimp only
  repeat' first | with_reducible assumption | with_reducible intro _ | with_reducible apply State.pekenReg_ok | with_reducible apply ok_ite | (fail_if_no_progress with_reducible apply ok_mk) | with_reducible apply each_ok | with_reducible apply next_ok

theorem State.vRemote_ok {pq : List Instr} (s : State) (x : Nat) (c : Core) (i : Pk) (hok : s.Ok pq) : (State.vRemote s x c i).Ok pq := by
  unfold State.vRemote
  try dsimp only
  repeat' first | with_reducible assumption | with_reducible intro _ | with_reducible apply State.each_ok | with_reducible apply State.countRemote_ok | with_reducible apply ok_ite | (fail_if_no_progress with_reducible apply ok_mk) | with_reducible apply each_ok

theorem execPkVld_ok {pq : List Instr} (x : Fin 512) (i : Pk) (s : State) (hok : s.Ok pq) : OutOk pq (execPkVld x i s) := by
  unfold execPkVld
  try dsimp only
  repeat' first | with_reducible assumption | with_reducible intro _ | with_reducible apply State.setCore_ok | with_reducible apply State.event_ok | with_reducible apply State.peken_ok | with_reducible apply State.vRemote_ok | with_reducible apply ok_ite | (fail_if_no_progress with_reducible apply ok_mk) | with_reducible apply each_ok | with_reducible apply next_ok | with_reducible apply act_hold_ok | with_reducible apply act_fault_ok | with_reducible apply act_poison_ok | with_reducible refine act_of_eq (by with_reducible assumption) ?_ | with_reducible refine act_of_next (by with_reducible assumption) ?_ | with_reducible apply act_next_ok | with_reducible apply act_jump_ok | with_reducible apply act_block_ok | with_reducible refine ok_snd (by with_reducible assumption) ?_ | with_reducible refine ok_fst (by with_reducible assumption) ?_ | with_reducible refine ok_some (by with_reducible assumption) ?_ | with_reducible apply foldl_ok | split

theorem execPkVst_ok {pq : List Instr} (x : Fin 512) (i : Pk) (s : State) (hok : s.Ok pq) : OutOk pq (execPkVst x i s) := by
  unfold execPkVst
  try dsimp only
  repeat' first | with_reducible assumption | with_reducible intro _ | with_reducible apply State.each_ok | with_reducible apply State.peken_ok | with_reducible apply State.vRemote_ok | with_reducible apply ok_ite | (fail_if_no_progress with_reducible apply ok_mk) | with_reducible apply ok_hmp_wr | with_reducible apply ok_hmp_clear | with_reducible apply ok_hmp_poison | with_reducible apply ok_stores_wr | with_reducible apply ok_stores_clear | with_reducible apply ok_stores_poison | with_reducible apply ok_slices_write | with_reducible apply ok_slices_clear | with_reducible apply ok_slices_pois | with_reducible apply ok_slices_markBoth | with_reducible apply ok_hmp_fold | with_reducible apply Mem.wf_clear | with_reducible apply Mem.wf_wr | with_reducible apply Mem.wf_land | with_reducible apply each_ok | with_reducible apply next_ok | with_reducible apply act_hold_ok | with_reducible apply act_fault_ok | with_reducible apply act_poison_ok | with_reducible refine act_of_eq (by with_reducible assumption) ?_ | with_reducible refine act_of_next (by with_reducible assumption) ?_ | with_reducible apply act_next_ok | with_reducible apply act_jump_ok | with_reducible apply act_block_ok | with_reducible refine ok_snd (by with_reducible assumption) ?_ | with_reducible refine ok_fst (by with_reducible assumption) ?_ | with_reducible refine ok_some (by with_reducible assumption) ?_ | with_reducible apply foldl_ok | split

theorem execPkVshfl_ok {pq : List Instr} (x : Fin 512) (i : Pk) (s : State) (hok : s.Ok pq) : OutOk pq (execPkVshfl x i s) := by
  unfold execPkVshfl
  try dsimp only
  repeat' first | with_reducible assumption | with_reducible intro _ | with_reducible apply State.pekenReg_ok | with_reducible apply ok_ite | (fail_if_no_progress with_reducible apply ok_mk) | with_reducible apply each_ok | with_reducible apply next_ok

theorem execPkVred_ok {pq : List Instr} (x : Fin 512) (i : Pk) (s : State) (hok : s.Ok pq) : OutOk pq (execPkVred x i s) := by
  unfold execPkVred
  try dsimp only
  repeat' first | with_reducible assumption | with_reducible intro _ | with_reducible apply State.pekenReg_ok | with_reducible apply ok_ite | (fail_if_no_progress with_reducible apply ok_mk) | with_reducible apply each_ok | with_reducible apply next_ok

theorem execPkVscan_ok {pq : List Instr} (x : Fin 512) (i : Pk) (s : State) (hok : s.Ok pq) : OutOk pq (execPkVscan x i s) := by
  unfold execPkVscan
  try dsimp only
  repeat' first | with_reducible assumption | with_reducible intro _ | with_reducible apply State.pekenReg_ok | with_reducible apply ok_ite | (fail_if_no_progress with_reducible apply ok_mk) | with_reducible apply each_ok | with_reducible apply next_ok

theorem execPkVbcast_ok {pq : List Instr} (x : Fin 512) (i : Pk) (s : State) (hok : s.Ok pq) : OutOk pq (execPkVbcast x i s) := by
  unfold execPkVbcast
  try dsimp only
  repeat' first | with_reducible assumption | with_reducible intro _ | with_reducible apply State.pekenReg_ok | with_reducible apply ok_ite | (fail_if_no_progress with_reducible apply ok_mk) | with_reducible apply each_ok | with_reducible apply next_ok

theorem execPkVtid_ok {pq : List Instr} (x : Fin 512) (i : Pk) (s : State) (hok : s.Ok pq) : OutOk pq (execPkVtid x i s) := by
  unfold execPkVtid
  try dsimp only
  repeat' first | with_reducible assumption | with_reducible intro _ | with_reducible apply State.pekenReg_ok | with_reducible apply ok_ite | (fail_if_no_progress with_reducible apply ok_mk) | with_reducible apply each_ok | with_reducible apply next_ok

theorem execPkVext_ok {pq : List Instr} (x : Fin 512) (i : Pk) (s : State) (hok : s.Ok pq) : OutOk pq (execPkVext x i s) := by
  unfold execPkVext
  try dsimp only
  repeat' first | with_reducible assumption | with_reducible intro _ | with_reducible apply State.pekenReg_ok | with_reducible apply ok_ite | (fail_if_no_progress with_reducible apply ok_mk) | with_reducible apply each_ok | with_reducible apply next_ok

theorem execPkVins_ok {pq : List Instr} (x : Fin 512) (i : Pk) (s : State) (hok : s.Ok pq) : OutOk pq (execPkVins x i s) := by
  unfold execPkVins
  try dsimp only
  repeat' first | with_reducible assumption | with_reducible intro _ | with_reducible apply State.pekenReg_ok | with_reducible apply ok_ite | (fail_if_no_progress with_reducible apply ok_mk) | with_reducible apply each_ok | with_reducible apply next_ok

end Sys2Proof.Machine
end

