-- ==== Sys2Proof/Laws/OkBlocks.lean ====
section
/-! SUPPORT. Canonical form and queue: streams, codec, companions, mapping, partitions, integrity, tenants, links, resets, bring-up, host ports, the Trail keep them, one lemma per function. -/
namespace Sys2Proof.Machine

/-! Trail. -/

theorem State.trailWrite_ok {pq : List Instr} (s : State) (r : TrailRec) (hok : s.Ok pq) : (State.trailWrite s r).Ok pq := by
  unfold State.trailWrite
  try dsimp only
  repeat' first | with_reducible assumption | with_reducible intro _ | with_reducible apply State.event_ok | with_reducible apply State.setFld_ok | with_reducible apply ok_ite | (fail_if_no_progress with_reducible apply ok_mk) | with_reducible apply each_ok | with_reducible refine ok_snd (by with_reducible assumption) ?_ | with_reducible refine ok_fst (by with_reducible assumption) ?_ | with_reducible refine ok_some (by with_reducible assumption) ?_ | with_reducible apply foldl_ok | split

theorem State.trailTear_ok {pq : List Instr} (s : State) (hok : s.Ok pq) : (State.trailTear s).Ok pq := by
  unfold State.trailTear
  try dsimp only
  repeat' first | with_reducible assumption | with_reducible intro _ | with_reducible apply State.tick_ok | with_reducible apply ok_ite | (fail_if_no_progress with_reducible apply ok_mk) | with_reducible apply each_ok | with_reducible refine ok_snd (by with_reducible assumption) ?_ | with_reducible refine ok_fst (by with_reducible assumption) ?_ | with_reducible refine ok_some (by with_reducible assumption) ?_ | with_reducible apply foldl_ok | split

theorem State.trailCommit_ok {pq : List Instr} (s : State) (hok : s.Ok pq) : (State.trailCommit s).Ok pq := by
  unfold State.trailCommit
  try dsimp only
  repeat' first | with_reducible assumption | with_reducible intro _ | with_reducible apply State.setFlag_ok | with_reducible apply State.trailPut_ok | with_reducible apply State.trailWrite_ok | with_reducible apply ok_ite | (fail_if_no_progress with_reducible apply ok_mk) | with_reducible apply each_ok | with_reducible apply next_ok | with_reducible refine ok_snd (by with_reducible assumption) ?_ | with_reducible refine ok_fst (by with_reducible assumption) ?_ | with_reducible refine ok_some (by with_reducible assumption) ?_ | with_reducible apply foldl_ok | split

theorem execTrailRecordCommit_ok {pq : List Instr} (s : State) (hok : s.Ok pq) : OutOk pq (execTrailRecordCommit s) := by
  unfold execTrailRecordCommit
  try dsimp only
  repeat' first | with_reducible assumption | with_reducible intro _ | with_reducible apply State.trailCommit_ok | with_reducible apply ok_ite | (fail_if_no_progress with_reducible apply ok_mk) | with_reducible apply each_ok | with_reducible apply next_ok

theorem State.trlIndex_ok {pq : List Instr} (s : State) (slot : Nat) (hok : s.Ok pq) : (State.trlIndex s slot).Ok pq := by
  unfold State.trlIndex
  try dsimp only
  repeat' first | with_reducible assumption | with_reducible intro _ | with_reducible apply State.setFld_ok | with_reducible apply State.each_ok | with_reducible apply ok_ite | (fail_if_no_progress with_reducible apply ok_mk) | with_reducible apply each_ok

theorem execTrlIdxWrite_ok {pq : List Instr} (rq : Requester) (v : Word) (s : State) (hok : s.Ok pq) : OutOk pq (execTrlIdxWrite rq v s) := by
  unfold execTrlIdxWrite
  try dsimp only
  repeat' first | with_reducible assumption | with_reducible intro _ | with_reducible apply State.privWrite_ok | with_reducible apply State.trlIndex_ok | with_reducible apply ok_ite | (fail_if_no_progress with_reducible apply ok_mk) | with_reducible apply each_ok | with_reducible apply next_ok

/-! Streams. -/

theorem State.setSk_ok {pq : List Instr} (s : State) (k : Nat) (v : SkSt) (hok : s.Ok pq) : (State.setSk s k v).Ok pq := by
  unfold State.setSk
  try dsimp only
  repeat' first | with_reducible assumption | with_reducible intro _ | with_reducible apply ok_ite | (fail_if_no_progress with_reducible apply ok_mk)

theorem State.setEth_ok {pq : List Instr} (s : State) (n : Nat) (v : EthPort) (hok : s.Ok pq) : (State.setEth s n v).Ok pq := by
  unfold State.setEth
  try dsimp only
  repeat' first | with_reducible assumption | with_reducible intro _ | with_reducible apply ok_ite | (fail_if_no_progress with_reducible apply ok_mk)

theorem State.setSkf_ok {pq : List Instr} (s : State) (k : Nat) (f : Nat → Fld) (v : Nat) (hok : s.Ok pq) : (State.setSkf s k f v).Ok pq := by
  unfold State.setSkf
  try dsimp only
  repeat' first | with_reducible assumption | with_reducible intro _ | with_reducible apply State.setFld_ok

theorem State.satSkf_ok {pq : List Instr} (s : State) (k : Nat) (f : Nat → Fld) (hok : s.Ok pq) : (State.satSkf s k f).Ok pq := by
  unfold State.satSkf
  try dsimp only
  repeat' first | with_reducible assumption | with_reducible intro _ | with_reducible apply State.satFld_ok

theorem State.skPut_ok {pq : List Instr} (s : State) (k off : Nat) (bs : List Byte) (hok : s.Ok pq) : (State.skPut s k off bs).Ok pq := by
  unfold State.skPut
  try dsimp only
  repeat' first | with_reducible assumption | with_reducible intro _ | with_reducible apply State.each_ok | with_reducible apply ok_ite | (fail_if_no_progress with_reducible apply ok_mk) | with_reducible apply ok_hmp_wr | with_reducible apply ok_hmp_clear | with_reducible apply ok_hmp_poison | with_reducible apply ok_stores_wr | with_reducible apply ok_stores_clear | with_reducible apply ok_stores_poison | with_reducible apply ok_slices_write | with_reducible apply ok_slices_clear | with_reducible apply ok_slices_pois | with_reducible apply ok_slices_markBoth | with_reducible apply ok_hmp_fold | with_reducible apply Mem.wf_clear | with_reducible apply Mem.wf_wr | with_reducible apply Mem.wf_land | with_reducible apply each_ok | with_reducible apply next_ok | with_reducible refine ok_snd (by with_reducible assumption) ?_ | with_reducible refine ok_fst (by with_reducible assumption) ?_ | with_reducible refine ok_some (by with_reducible assumption) ?_ | with_reducible apply foldl_ok | split

theorem State.skPutData_ok {pq : List Instr} (s : State) (k b : Nat) (bs : List Byte) (hok : s.Ok pq) : (State.skPutData s k b bs).Ok pq := by
  unfold State.skPutData
  try dsimp only
  repeat' first | with_reducible assumption | with_reducible intro _ | with_reducible apply State.each_ok | with_reducible apply State.skPut_ok | with_reducible apply ok_ite | (fail_if_no_progress with_reducible apply ok_mk) | with_reducible apply each_ok

theorem State.skControlLine_ok {pq : List Instr} (s : State) (k : Nat) (hok : s.Ok pq) : (State.skControlLine s k).Ok pq := by
  unfold State.skControlLine
  try dsimp only
  repeat' first | with_reducible assumption | with_reducible intro _ | with_reducible apply State.skPut_ok

theorem State.skRegs_ok {pq : List Instr} (s : State) (k : Nat) (hok : s.Ok pq) : (State.skRegs s k).Ok pq := by
  unfold State.skRegs
  try dsimp only
  repeat' first | with_reducible assumption | with_reducible intro _ | with_reducible apply State.setSkf_ok

theorem State.setSkState_ok {pq : List Instr} (s : State) (k st : Nat) (hok : s.Ok pq) : (State.setSkState s k st).Ok pq := by
  unfold State.setSkState
  try dsimp only
  repeat' first | with_reducible assumption | with_reducible intro _ | with_reducible apply State.setFld_ok | with_reducible apply State.setSkf_ok | with_reducible apply State.skControlLine_ok | with_reducible apply ok_ite

theorem State.skEmit_ok {pq : List Instr} (s : State) (m : SkSend) (hok : s.Ok pq) : (State.skEmit s m).Ok pq := by
  unfold State.skEmit
  try dsimp only
  repeat' first | with_reducible assumption | with_reducible intro _ | with_reducible apply State.emit_ok

theorem State.skTransmit_ok {pq : List Instr} (s : State) (m : SkSend) (hok : s.Ok pq) : (State.skTransmit s m).Ok pq := by
  unfold State.skTransmit
  try dsimp only
  repeat' first | with_reducible assumption | with_reducible intro _ | with_reducible apply State.setEth_ok | with_reducible apply State.skEmit_ok | with_reducible apply ok_ite

theorem State.skControl_ok {pq : List Instr} (s : State) (k typ : Nat) (hok : s.Ok pq) : (State.skControl s k typ).Ok pq := by
  unfold State.skControl
  try dsimp only
  repeat' first | with_reducible assumption | with_reducible intro _ | with_reducible apply State.setSk_ok | with_reducible apply State.skTransmit_ok

theorem State.skRepeat_ok {pq : List Instr} (s : State) (k : Nat) (hok : s.Ok pq) : (State.skRepeat s k).Ok pq := by
  unfold State.skRepeat
  try dsimp only
  repeat' first | with_reducible assumption | with_reducible intro _ | with_reducible apply State.skTransmit_ok

theorem State.skPfcOn_ok {pq : List Instr} (s : State) (k : Nat) (hok : s.Ok pq) : (State.skPfcOn s k).Ok pq := by
  unfold State.skPfcOn
  try dsimp only
  repeat' first | with_reducible assumption | with_reducible intro _ | with_reducible apply State.emit_ok | with_reducible apply ok_ite

theorem State.skPfcOff_ok {pq : List Instr} (s : State) (k : Nat) (hok : s.Ok pq) : (State.skPfcOff s k).Ok pq := by
  unfold State.skPfcOff
  try dsimp only
  repeat' first | with_reducible assumption | with_reducible intro _ | with_reducible apply State.emit_ok | with_reducible apply ok_ite

theorem State.skPublish_ok {pq : List Instr} (s : State) (k : Nat) (f : SkFrame) (hok : s.Ok pq) : (State.skPublish s k f).Ok pq := by
  unfold State.skPublish
  try dsimp only
  repeat' first | with_reducible assumption | with_reducible intro _ | with_reducible apply State.each_ok | with_reducible apply State.tick_ok | with_reducible apply State.event_ok | with_reducible apply State.setSk_ok | with_reducible apply State.satSkf_ok | with_reducible apply State.skPut_ok | with_reducible apply State.skPutData_ok | with_reducible apply State.skControlLine_ok | with_reducible apply ok_ite | (fail_if_no_progress with_reducible apply ok_mk) | with_reducible apply each_ok

theorem State.skPublishN_ok {pq : List Instr} (s : State) (k n : Nat) (hok : s.Ok pq) : (State.skPublishN s k n).Ok pq := by
  unfold State.skPublishN
  try dsimp only
  repeat' first | with_reducible assumption | with_reducible intro _ | with_reducible apply State.setSk_ok | with_reducible apply State.skRegs_ok | with_reducible apply State.skPublish_ok | with_reducible apply ok_ite | (fail_if_no_progress with_reducible apply ok_mk) | with_reducible apply each_ok | with_reducible apply next_ok | with_reducible refine ok_snd (by with_reducible assumption) ?_ | with_reducible refine ok_fst (by with_reducible assumption) ?_ | with_reducible refine ok_some (by with_reducible assumption) ?_ | with_reducible apply foldl_ok

theorem State.skFlush_ok {pq : List Instr} (s : State) (k : Nat) (hok : s.Ok pq) : (State.skFlush s k).Ok pq := by
  unfold State.skFlush
  try dsimp only
  repeat' first | with_reducible assumption | with_reducible intro _ | with_reducible apply State.skPublishN_ok

theorem State.skClose_ok {pq : List Instr} (s : State) (k : Nat) (hok : s.Ok pq) : (State.skClose s k).Ok pq := by
  unfold State.skClose
  try dsimp only
  repeat' first | with_reducible assumption | with_reducible intro _ | with_reducible apply State.skPublishN_ok | with_reducible apply State.skFlush_ok

theorem State.skMove_ok {pq : List Instr} (s : State) (k e : Nat) (l : List Nat) (lost : Nat) (hok : s.Ok pq) : (State.skMove s k e l lost).Ok pq := by
  unfold State.skMove
  try dsimp only
  repeat' first | with_reducible assumption | with_reducible intro _ | with_reducible apply State.satFld_ok | with_reducible apply State.setSk_ok | with_reducible apply State.setSkf_ok

theorem State.skSeq_ok {pq : List Instr} (s : State) (k q : Nat) (hok : s.Ok pq) : (State.skSeq s k q).1.Ok pq := by
  unfold State.skSeq
  try dsimp only
  repeat' first | with_reducible assumption | with_reducible intro _ | with_reducible apply State.setSk_ok | with_reducible apply State.satSkf_ok | with_reducible apply State.skMove_ok | with_reducible apply ok_ite | (fail_if_no_progress with_reducible apply ok_mk) | with_reducible apply each_ok | with_reducible apply next_ok | with_reducible refine ok_snd (by with_reducible assumption) ?_ | with_reducible refine ok_fst (by with_reducible assumption) ?_ | with_reducible refine ok_some (by with_reducible assumption) ?_ | with_reducible apply foldl_ok | split

theorem State.skEase_ok {pq : List Instr} (s : State) (k : Nat) (hok : s.Ok pq) : (State.skEase s k).Ok pq := by
  unfold State.skEase
  try dsimp only
  repeat' first | with_reducible assumption | with_reducible intro _ | with_reducible apply State.setSkState_ok | with_reducible apply State.skControl_ok | with_reducible apply ok_ite

theorem State.skResume_ok {pq : List Instr} (s : State) (k : Nat) (hok : s.Ok pq) : (State.skResume s k).Ok pq := by
  unfold State.skResume
  try dsimp only
  repeat' first | with_reducible assumption | with_reducible intro _ | with_reducible apply State.setSkState_ok | with_reducible apply State.skControl_ok | with_reducible apply State.skPfcOff_ok | with_reducible apply ok_ite

theorem State.skHalt_ok {pq : List Instr} (s : State) (k r : Nat) (hok : s.Ok pq) : (State.skHalt s k r).Ok pq := by
  unfold State.skHalt
  try dsimp only
  repeat' first | with_reducible assumption | with_reducible intro _ | with_reducible apply State.satFld_ok | with_reducible apply State.event_ok | with_reducible apply State.setSkf_ok | with_reducible apply State.satSkf_ok | with_reducible apply State.setSkState_ok | with_reducible apply State.skControl_ok | with_reducible apply State.skPfcOn_ok | with_reducible apply ok_ite

theorem State.skHead_ok {pq : List Instr} (s : State) (k : Nat) (hok : s.Ok pq) : (State.skHead s k).Ok pq := by
  unfold State.skHead
  try dsimp only
  repeat' first | with_reducible assumption | with_reducible intro _ | with_reducible apply State.countErr_ok | with_reducible apply State.flog_ok | with_reducible apply State.setSk_ok | with_reducible apply State.skRegs_ok | with_reducible apply State.skEase_ok | with_reducible apply State.skResume_ok | with_reducible apply ok_ite | (fail_if_no_progress with_reducible apply ok_mk) | with_reducible apply each_ok | with_reducible apply next_ok | with_reducible refine ok_snd (by with_reducible assumption) ?_ | with_reducible refine ok_fst (by with_reducible assumption) ?_ | with_reducible refine ok_some (by with_reducible assumption) ?_ | with_reducible apply foldl_ok | split

theorem State.skPlace_ok {pq : List Instr} (s : State) (k id off q : Nat) (data : List Byte) (hok : s.Ok pq) : (State.skPlace s k id off q data).Ok pq := by
  unfold State.skPlace
  try dsimp only
  repeat' first | with_reducible assumption | with_reducible intro _ | with_reducible apply State.skPutData_ok | with_reducible apply State.setSk_ok | with_reducible apply State.tick_ok | with_reducible apply ok_ite | (fail_if_no_progress with_reducible apply ok_mk) | with_reducible apply each_ok | with_reducible refine ok_snd (by with_reducible assumption) ?_ | with_reducible refine ok_fst (by with_reducible assumption) ?_ | with_reducible refine ok_some (by with_reducible assumption) ?_ | with_reducible apply foldl_ok | split

theorem State.skOpen_ok {pq : List Instr} (s : State) (k id len q : Nat) (hok : s.Ok pq) : (State.skOpen s k id len q).1.Ok pq := by
  unfold State.skOpen
  try dsimp only
  repeat' first | with_reducible assumption | with_reducible intro _ | with_reducible apply State.skHead_ok | with_reducible apply State.skHalt_ok | with_reducible apply State.skResume_ok | with_reducible apply State.skEase_ok | with_reducible apply State.skFlush_ok | with_reducible apply State.skPublishN_ok | with_reducible apply State.skRegs_ok | with_reducible apply State.skControlLine_ok | with_reducible apply State.satSkf_ok | with_reducible apply State.setSk_ok | with_reducible apply State.flog_ok | with_reducible apply State.countErr_ok | with_reducible apply State.event_ok | with_reducible apply ok_ite | (fail_if_no_progress with_reducible apply ok_mk) | with_reducible apply each_ok | with_reducible apply ok_ite_fst

theorem State.skMalformed_ok {pq : List Instr} (s : State) (n k : Nat) (hok : s.Ok pq) : (State.skMalformed s n k).Ok pq := by
  unfold State.skMalformed
  try dsimp only
  repeat' first | with_reducible assumption | with_reducible intro _ | with_reducible apply State.satSkf_ok | with_reducible apply State.satFld_ok

theorem State.skDatagram_ok {pq : List Instr} (s : State) (k : Nat) (u : List Byte) (hok : s.Ok pq) : (State.skDatagram s k u).Ok pq := by
  unfold State.skDatagram
  try dsimp only
  repeat' first | with_reducible assumption | with_reducible intro _ | with_reducible apply State.skMalformed_ok | with_reducible apply State.skOpen_ok | with_reducible apply State.skPlace_ok | with_reducible apply State.skSeq_ok | with_reducible apply State.skClose_ok | with_reducible apply State.skFlush_ok | with_reducible apply State.skPublishN_ok | with_reducible apply State.setSkState_ok | with_reducible apply State.skRegs_ok | with_reducible apply State.satSkf_ok | with_reducible apply State.setSk_ok | with_reducible apply ok_ite

theorem execDatagramReceive_ok {pq : List Instr} (n : Fin 2) (f : EthFrame) (s : State) (hok : s.Ok pq) : OutOk pq (execDatagramReceive n f s) := by
  unfold execDatagramReceive
  try dsimp only
  repeat' first | with_reducible assumption | with_reducible intro _ | with_reducible apply State.skDatagram_ok | with_reducible apply State.skMalformed_ok | with_reducible apply State.satFld_ok | with_reducible apply ok_ite | (fail_if_no_progress with_reducible apply ok_mk) | with_reducible apply each_ok | with_reducible apply next_ok | with_reducible refine ok_snd (by with_reducible assumption) ?_ | with_reducible refine ok_fst (by with_reducible assumption) ?_ | with_reducible refine ok_some (by with_reducible assumption) ?_ | with_reducible apply foldl_ok | split

theorem execStreamHeadRead_ok {pq : List Instr} (k : Fin 512) (s : State) (hok : s.Ok pq) : OutOk pq (execStreamHeadRead k s) := by
  unfold execStreamHeadRead
  try dsimp only
  repeat' first | with_reducible assumption | with_reducible intro _ | with_reducible apply State.skHead_ok | with_reducible apply ok_ite | (fail_if_no_progress with_reducible apply ok_mk) | with_reducible apply each_ok | with_reducible apply next_ok

theorem execSequenceGapTimeout_ok {pq : List Instr} (k : Fin 512) (s : State) (hok : s.Ok pq) : OutOk pq (execSequenceGapTimeout k s) := by
  unfold execSequenceGapTimeout
  try dsimp only
  repeat' first | with_reducible assumption | with_reducible intro _ | with_reducible apply State.skRegs_ok | with_reducible apply State.skClose_ok | with_reducible apply State.skMove_ok | with_reducible apply ok_ite | (fail_if_no_progress with_reducible apply ok_mk) | with_reducible apply each_ok | with_reducible apply next_ok

theorem execHaltRepeat_ok {pq : List Instr} (k : Fin 512) (s : State) (hok : s.Ok pq) : OutOk pq (execHaltRepeat k s) := by
  unfold execHaltRepeat
  try dsimp only
  repeat' first | with_reducible assumption | with_reducible intro _ | with_reducible apply State.skRepeat_ok | with_reducible apply ok_ite | (fail_if_no_progress with_reducible apply ok_mk) | with_reducible apply each_ok | with_reducible apply next_ok

theorem execEaseRepeat_ok {pq : List Instr} (k : Fin 512) (s : State) (hok : s.Ok pq) : OutOk pq (execEaseRepeat k s) := by
  unfold execEaseRepeat
  try dsimp only
  repeat' first | with_reducible assumption | with_reducible intro _ | with_reducible apply State.skRepeat_ok | with_reducible apply ok_ite | (fail_if_no_progress with_reducible apply ok_mk) | with_reducible apply each_ok | with_reducible apply next_ok

theorem execResumeRepeat_ok {pq : List Instr} (k : Fin 512) (s : State) (hok : s.Ok pq) : OutOk pq (execResumeRepeat k s) := by
  unfold execResumeRepeat
  try dsimp only
  repeat' first | with_reducible assumption | with_reducible intro _ | with_reducible apply State.setSk_ok | with_reducible apply State.skTransmit_ok | with_reducible apply ok_ite | (fail_if_no_progress with_reducible apply ok_mk) | with_reducible apply each_ok | with_reducible apply next_ok | with_reducible refine ok_snd (by with_reducible assumption) ?_ | with_reducible refine ok_fst (by with_reducible assumption) ?_ | with_reducible refine ok_some (by with_reducible assumption) ?_ | with_reducible apply foldl_ok | split

theorem execPfcRefresh_ok {pq : List Instr} (n : Fin 2) (prio : Fin 8) (s : State) (hok : s.Ok pq) : OutOk pq (execPfcRefresh n prio s) := by
  unfold execPfcRefresh
  try dsimp only
  repeat' first | with_reducible assumption | with_reducible intro _ | with_reducible apply State.emit_ok | with_reducible apply ok_ite | (fail_if_no_progress with_reducible apply ok_mk) | with_reducible apply each_ok | with_reducible apply next_ok

theorem State.ethResume_ok {pq : List Instr} (s : State) (n prio : Nat) (hok : s.Ok pq) : (State.ethResume s n prio).Ok pq := by
  unfold State.ethResume
  try dsimp only
  repeat' first | with_reducible assumption | with_reducible intro _ | with_reducible apply State.each_ok | with_reducible apply State.setEth_ok | with_reducible apply State.skEmit_ok | with_reducible apply ok_ite | (fail_if_no_progress with_reducible apply ok_mk) | with_reducible apply each_ok

theorem execPfcReceive_ok {pq : List Instr} (n : Fin 2) (prio : Fin 8) (time : BitVec 16) (s : State) (hok : s.Ok pq) : OutOk pq (execPfcReceive n prio time s) := by
  unfold execPfcReceive
  try dsimp only
  repeat' first | with_reducible assumption | with_reducible intro _ | with_reducible apply State.setEth_ok | with_reducible apply State.ethResume_ok | with_reducible apply ok_ite | (fail_if_no_progress with_reducible apply ok_mk) | with_reducible apply each_ok | with_reducible apply next_ok

theorem execPfcPauseExpiry_ok {pq : List Instr} (n : Fin 2) (prio : Fin 8) (s : State) (hok : s.Ok pq) : OutOk pq (execPfcPauseExpiry n prio s) := by
  unfold execPfcPauseExpiry
  try dsimp only
  repeat' first | with_reducible assumption | with_reducible intro _ | with_reducible apply State.ethResume_ok | with_reducible apply ok_ite | (fail_if_no_progress with_reducible apply ok_mk) | with_reducible apply each_ok | with_reducible apply next_ok

theorem execArpNsRequest_ok {pq : List Instr} (n : Fin 2) (ns : Bool) (target : BitVec 128) (s : State) (hok : s.Ok pq) : OutOk pq (execArpNsRequest n ns target s) := by
  unfold execArpNsRequest
  try dsimp only
  repeat' first | with_reducible assumption | with_reducible intro _ | with_reducible apply State.satFld_ok | with_reducible apply State.emit_ok | with_reducible apply ok_ite | (fail_if_no_progress with_reducible apply ok_mk) | with_reducible apply each_ok | with_reducible apply next_ok

theorem execPtpMessage_ok {pq : List Instr} (n : Fin 2) (m : PtpIn) (s : State) (hok : s.Ok pq) : OutOk pq (execPtpMessage n m s) := by
  unfold execPtpMessage
  try dsimp only
  repeat' first | with_reducible assumption | with_reducible intro _ | with_reducible apply State.event_ok | with_reducible apply State.emit_ok | with_reducible apply State.setFlag_ok | with_reducible apply ok_ite | (fail_if_no_progress with_reducible apply ok_mk) | with_reducible apply each_ok | with_reducible apply next_ok | with_reducible refine ok_snd (by with_reducible assumption) ?_ | with_reducible refine ok_fst (by with_reducible assumption) ?_ | with_reducible refine ok_some (by with_reducible assumption) ?_ | with_reducible apply foldl_ok | split

theorem State.ethDown_ok {pq : List Instr} (s : State) (n : Nat) (hok : s.Ok pq) : (State.ethDown s n).Ok pq := by
  unfold State.ethDown
  try dsimp only
  repeat' first | with_reducible assumption | with_reducible intro _ | with_reducible apply State.setBit_ok | with_reducible apply State.event_ok | with_reducible apply State.setEth_ok | with_reducible apply ok_ite

theorem execEthernetLinkDown_ok {pq : List Instr} (n : Fin 2) (s : State) (hok : s.Ok pq) : OutOk pq (execEthernetLinkDown n s) := by
  unfold execEthernetLinkDown
  try dsimp only
  repeat' first | with_reducible assumption | with_reducible intro _ | with_reducible apply State.ethDown_ok | with_reducible apply ok_ite | (fail_if_no_progress with_reducible apply ok_mk) | with_reducible apply each_ok | with_reducible apply next_ok

theorem execEthernetLinkUp_ok {pq : List Instr} (n : Fin 2) (s : State) (hok : s.Ok pq) : OutOk pq (execEthernetLinkUp n s) := by
  unfold execEthernetLinkUp
  try dsimp only
  repeat' first | with_reducible assumption | with_reducible intro _ | with_reducible apply State.skRepeat_ok | with_reducible apply State.event_ok | with_reducible apply State.each_ok | with_reducible apply State.setBit_ok | with_reducible apply ok_ite | (fail_if_no_progress with_reducible apply ok_mk) | with_reducible apply each_ok | with_reducible apply next_ok

theorem State.skEnable_ok {pq : List Instr} (s : State) (rq : Requester) (k : Nat) (hok : s.Ok pq) : (State.skEnable s rq k).Ok pq := by
  unfold State.skEnable
  try dsimp only
  repeat' first | with_reducible assumption | with_reducible intro _ | with_reducible apply State.skControl_ok | with_reducible apply State.setSkState_ok | with_reducible apply State.skRegs_ok | with_reducible apply State.setSkf_ok | with_reducible apply State.setSk_ok | with_reducible apply State.bindComps_ok | with_reducible apply State.countErr_ok | with_reducible apply State.event_ok | with_reducible apply State.each_ok | with_reducible apply ok_ite | (fail_if_no_progress with_reducible apply ok_mk) | with_reducible apply each_ok | with_reducible refine ok_snd (by with_reducible assumption) ?_ | with_reducible refine ok_fst (by with_reducible assumption) ?_ | with_reducible refine ok_some (by with_reducible assumption) ?_ | with_reducible apply foldl_ok | split

theorem State.skDisable_ok {pq : List Instr} (s : State) (k : Nat) (hok : s.Ok pq) : (State.skDisable s k).Ok pq := by
  unfold State.skDisable
  try dsimp only
  repeat' first | with_reducible assumption | with_reducible intro _ | with_reducible apply State.bindComps_ok | with_reducible apply State.setSk_ok | with_reducible apply State.setSkf_ok | with_reducible apply State.skRegs_ok | with_reducible apply State.setSkState_ok | with_reducible apply State.skPfcOff_ok | with_reducible apply ok_ite

theorem State.skBindWrite_ok {pq : List Instr} (s : State) (rq : Requester) (k : Nat) (w : Nat) (hok : s.Ok pq) : (State.skBindWrite s rq k w).Ok pq := by
  unfold State.skBindWrite
  try dsimp only
  repeat' first | with_reducible assumption | with_reducible intro _ | with_reducible apply State.skDisable_ok | with_reducible apply State.skEnable_ok | with_reducible apply State.setSkf_ok | with_reducible apply State.countErr_ok | with_reducible apply State.each_ok | with_reducible apply ok_ite | (fail_if_no_progress with_reducible apply ok_mk) | with_reducible apply each_ok

theorem execStreamEnable_ok {pq : List Instr} (rq : Requester) (k : Fin 512) (v : Word) (s : State) (hok : s.Ok pq) : OutOk pq (execStreamEnable rq k v s) := by
  unfold execStreamEnable
  try dsimp only
  repeat' first | with_reducible assumption | with_reducible intro _ | with_reducible apply State.privWrite_ok | with_reducible apply State.skBindWrite_ok | with_reducible apply ok_ite | (fail_if_no_progress with_reducible apply ok_mk) | with_reducible apply each_ok | with_reducible apply next_ok

theorem execStreamDisable_ok {pq : List Instr} (rq : Requester) (k : Fin 512) (v : Word) (s : State) (hok : s.Ok pq) : OutOk pq (execStreamDisable rq k v s) := by
  unfold execStreamDisable
  try dsimp only
  repeat' first | with_reducible assumption | with_reducible intro _ | with_reducible apply State.privWrite_ok | with_reducible apply State.skBindWrite_ok | with_reducible apply ok_ite | (fail_if_no_progress with_reducible apply ok_mk) | with_reducible apply each_ok | with_reducible apply next_ok

theorem State.skTenantStart_ok {pq : List Instr} (s : State) (n : Nat) (hok : s.Ok pq) : (State.skTenantStart s n).Ok pq := by
  unfold State.skTenantStart
  try dsimp only
  repeat' first | with_reducible assumption | with_reducible intro _ | with_reducible apply State.each_ok | with_reducible apply State.setSkState_ok | with_reducible apply State.skControl_ok | with_reducible apply State.skPfcOn_ok | with_reducible apply ok_ite | (fail_if_no_progress with_reducible apply ok_mk) | with_reducible apply each_ok

theorem State.skTenantAbsorb_ok {pq : List Instr} (s : State) (n : Nat) (hok : s.Ok pq) : (State.skTenantAbsorb s n).Ok pq := by
  unfold State.skTenantAbsorb
  try dsimp only
  repeat' first | with_reducible assumption | with_reducible intro _ | with_reducible apply State.each_ok | with_reducible apply State.setSkf_ok | with_reducible apply State.skDisable_ok | with_reducible apply ok_ite | (fail_if_no_progress with_reducible apply ok_mk) | with_reducible apply each_ok

/-! Codec. -/

theorem State.setEngine_ok {pq : List Instr} (s : State) (n st : Nat) (hok : s.Ok pq) : (State.setEngine s n st).Ok pq := by
  unfold State.setEngine
  try dsimp only
  repeat' first | with_reducible assumption | with_reducible intro _ | with_reducible apply State.setFld_ok

theorem State.vcPut_ok {pq : List Instr} (s : State) (i off : Nat) (bs : List Byte) (ep : Bool) (hok : s.Ok pq) : (State.vcPut s i off bs ep).Ok pq := by
  unfold State.vcPut
  try dsimp only
  repeat' first | with_reducible assumption | with_reducible intro _ | with_reducible apply State.each_ok | with_reducible apply ok_ite | (fail_if_no_progress with_reducible apply ok_mk) | with_reducible apply ok_hmp_wr | with_reducible apply ok_hmp_clear | with_reducible apply ok_hmp_poison | with_reducible apply ok_stores_wr | with_reducible apply ok_stores_clear | with_reducible apply ok_stores_poison | with_reducible apply ok_slices_write | with_reducible apply ok_slices_clear | with_reducible apply ok_slices_pois | with_reducible apply ok_slices_markBoth | with_reducible apply ok_hmp_fold | with_reducible apply Mem.wf_clear | with_reducible apply Mem.wf_wr | with_reducible apply Mem.wf_land | with_reducible apply each_ok | with_reducible apply next_ok | with_reducible refine ok_snd (by with_reducible assumption) ?_ | with_reducible refine ok_fst (by with_reducible assumption) ?_ | with_reducible refine ok_some (by with_reducible assumption) ?_ | with_reducible apply foldl_ok | split

theorem State.vcControlLine_ok {pq : List Instr} (s : State) (i : Nat) (hok : s.Ok pq) : (State.vcControlLine s i).Ok pq := by
  unfold State.vcControlLine
  try dsimp only
  repeat' first | with_reducible assumption | with_reducible intro _ | with_reducible apply State.cancel_ok | with_reducible apply State.setVcf_ok | with_reducible apply State.vcPut_ok

theorem State.setVcState_ok {pq : List Instr} (s : State) (i st : Nat) (hok : s.Ok pq) : (State.setVcState s i st).Ok pq := by
  unfold State.setVcState
  try dsimp only
  repeat' first | with_reducible assumption | with_reducible intro _ | with_reducible apply State.setVcf_ok | with_reducible apply State.vcControlLine_ok

theorem State.vcLoads_ok {pq : List Instr} (s : State) (hok : s.Ok pq) : (State.vcLoads s).Ok pq := by
  unfold State.vcLoads
  try dsimp only
  repeat' first | with_reducible assumption | with_reducible intro _ | with_reducible apply State.setFld_ok | with_reducible apply State.each_ok | with_reducible apply ok_ite | (fail_if_no_progress with_reducible apply ok_mk) | with_reducible apply each_ok

theorem State.vcEntry_ok {pq : List Instr} (s : State) (i : Nat) (cmd : List Byte) (st dt res us : Nat) (hok : s.Ok pq) : (State.vcEntry s i cmd st dt res us).Ok pq := by
  unfold State.vcEntry
  try dsimp only
  repeat' first | with_reducible assumption | with_reducible intro _ | with_reducible apply State.cqWrite_ok | with_reducible apply ok_ite

theorem State.vcReserve_ok {pq : List Instr} (s : State) (i : Nat) (up : Bool) (hok : s.Ok pq) : (State.vcReserve s i up).Ok pq := by
  unfold State.vcReserve
  try dsimp only
  repeat' first | with_reducible assumption | with_reducible intro _ | with_reducible apply State.setQueue_ok

theorem State.vcOff_ok {pq : List Instr} (s : State) (i : Nat) (hok : s.Ok pq) : (State.vcOff s i).Ok pq := by
  unfold State.vcOff
  try dsimp only
  repeat' first | with_reducible assumption | with_reducible intro _ | with_reducible apply State.bindComps_ok | with_reducible apply State.setVc_ok | with_reducible apply State.setVcState_ok | with_reducible apply State.vcLoads_ok

theorem State.vcFlush_ok {pq : List Instr} (s : State) (i fuel : Nat) (h : s.Ok pq) : (s.vcFlush i fuel).Ok pq := by
  induction fuel generalizing s with
  | zero => exact h
  | succ k ih =>
    unfold State.vcFlush
    repeat' first | with_reducible assumption | with_reducible apply ih | with_reducible apply State.vcOff_ok | with_reducible apply State.vcControlLine_ok | with_reducible apply State.vcEntry_ok | with_reducible apply State.setVc_ok | split

theorem State.vcCancel_ok {pq : List Instr} (s : State) (i : Nat) (hok : s.Ok pq) : (State.vcCancel s i).Ok pq := by
  unfold State.vcCancel
  try dsimp only
  repeat' first | with_reducible assumption | with_reducible intro _ | with_reducible apply State.setVc_ok | with_reducible apply State.vcControlLine_ok | with_reducible apply State.vcFlush_ok

theorem execVceProducerPoll_ok {pq : List Instr} (i : Fin 64) (s : State) (hok : s.Ok pq) : OutOk pq (execVceProducerPoll i s) := by
  unfold execVceProducerPoll
  try dsimp only
  repeat' first | with_reducible assumption | with_reducible intro _ | with_reducible apply State.countErr_ok | with_reducible apply State.flog_ok | with_reducible apply State.cancel_ok | with_reducible apply State.setVc_ok | with_reducible apply State.vcControlLine_ok | with_reducible apply State.vcFlush_ok | with_reducible apply State.vcCancel_ok | with_reducible apply ok_ite | (fail_if_no_progress with_reducible apply ok_mk) | with_reducible apply each_ok | with_reducible apply next_ok

theorem State.vcStart_ok {pq : List Instr} (s : State) (i : Nat) (hok : s.Ok pq) : (State.vcStart s i).Ok pq := by
  unfold State.vcStart
  try dsimp only
  repeat' first | with_reducible assumption | with_reducible intro _ | with_reducible apply State.setFld_ok | with_reducible apply State.each_ok | with_reducible apply State.setVc_ok | with_reducible apply State.setEngine_ok | with_reducible apply State.vcControlLine_ok | with_reducible apply State.setVcState_ok | with_reducible apply State.vcEntry_ok | with_reducible apply State.vcReserve_ok | with_reducible apply ok_ite | (fail_if_no_progress with_reducible apply ok_mk) | with_reducible apply each_ok | with_reducible apply next_ok | with_reducible refine ok_snd (by with_reducible assumption) ?_ | with_reducible refine ok_fst (by with_reducible assumption) ?_ | with_reducible refine ok_some (by with_reducible assumption) ?_ | with_reducible apply foldl_ok | split

theorem execVceEncode_ok {pq : List Instr} (i : Fin 64) (s : State) (hok : s.Ok pq) : OutOk pq (execVceEncode i s) := by
  unfold execVceEncode
  try dsimp only
  repeat' first | with_reducible assumption | with_reducible intro _ | with_reducible apply State.vcStart_ok | with_reducible apply ok_ite | (fail_if_no_progress with_reducible apply ok_mk) | with_reducible apply each_ok | with_reducible apply next_ok

theorem execVceDecode_ok {pq : List Instr} (i : Fin 64) (s : State) (hok : s.Ok pq) : OutOk pq (execVceDecode i s) := by
  unfold execVceDecode
  try dsimp only
  repeat' first | with_reducible assumption | with_reducible intro _ | with_reducible apply State.vcStart_ok | with_reducible apply ok_ite | (fail_if_no_progress with_reducible apply ok_mk) | with_reducible apply each_ok | with_reducible apply next_ok

theorem State.vcDone_ok {pq : List Instr} (s : State) (i st dt res : Nat) (hok : s.Ok pq) : (State.vcDone s i st dt res).Ok pq := by
  unfold State.vcDone
  try dsimp only
  repeat' first | with_reducible assumption | with_reducible intro _ | with_reducible apply State.setFld_ok | with_reducible apply State.each_ok | with_reducible apply State.setVc_ok | with_reducible apply State.setEngine_ok | with_reducible apply State.vcControlLine_ok | with_reducible apply State.setVcState_ok | with_reducible apply State.vcEntry_ok | with_reducible apply State.vcReserve_ok | with_reducible apply State.vcFlush_ok | with_reducible apply ok_ite | (fail_if_no_progress with_reducible apply ok_mk) | with_reducible apply each_ok | with_reducible apply next_ok | with_reducible refine ok_snd (by with_reducible assumption) ?_ | with_reducible refine ok_fst (by with_reducible assumption) ?_ | with_reducible refine ok_some (by with_reducible assumption) ?_ | with_reducible apply foldl_ok | split

theorem State.vcPoison_ok {pq : List Instr} (s : State) (i off : Nat) (hok : s.Ok pq) : (State.vcPoison s i off).Ok pq := by
  unfold State.vcPoison
  try dsimp only
  repeat' first | with_reducible assumption | with_reducible intro _ | with_reducible apply State.flog_ok

theorem State.vcPublish_ok {pq : List Instr} (s : State) (i : Nat) (u : VcPub) (hok : s.Ok pq) : (State.vcPublish s i u).Ok pq := by
  unfold State.vcPublish
  try dsimp only
  repeat' first | with_reducible assumption | with_reducible intro _ | with_reducible apply State.vcPoison_ok | with_reducible apply State.vcDone_ok | with_reducible apply State.vcPut_ok | with_reducible apply State.setVc_ok | with_reducible apply State.tick_ok | with_reducible apply ok_ite | (fail_if_no_progress with_reducible apply ok_mk) | with_reducible apply each_ok | with_reducible refine ok_snd (by with_reducible assumption) ?_ | with_reducible refine ok_fst (by with_reducible assumption) ?_ | with_reducible refine ok_some (by with_reducible assumption) ?_ | with_reducible apply foldl_ok | split

theorem State.vcFinal_ok {pq : List Instr} (s : State) (i len typ qp flags : Nat) (hok : s.Ok pq) : (State.vcFinal s i len typ qp flags).Ok pq := by
  unfold State.vcFinal
  try dsimp only
  repeat' first | with_reducible assumption | with_reducible intro _ | with_reducible apply State.setVc_ok | with_reducible apply State.vcPublish_ok | with_reducible apply ok_ite

theorem State.vcSubstitute_ok {pq : List Instr} (s : State) (i : Nat) (intra : Bool) (flags : Nat) (hok : s.Ok pq) : (State.vcSubstitute s i intra flags).Ok pq := by
  unfold State.vcSubstitute
  try dsimp only
  repeat' first | with_reducible assumption | with_reducible intro _ | with_reducible apply State.vcFinal_ok | with_reducible apply State.setVc_ok | with_reducible apply State.satFld_ok

theorem execEncodePassDone_ok {pq : List Instr} (i : Fin 64) (len : Nat) (qp : Fin 256) (s : State) (hok : s.Ok pq) : OutOk pq (execEncodePassDone i len qp s) := by
  unfold execEncodePassDone
  try dsimp only
  repeat' first | with_reducible assumption | with_reducible intro _ | with_reducible apply State.satFld_ok | with_reducible apply State.setVc_ok | with_reducible apply State.vcControlLine_ok | with_reducible apply State.vcFinal_ok | with_reducible apply State.vcSubstitute_ok | with_reducible apply ok_ite | (fail_if_no_progress with_reducible apply ok_mk) | with_reducible apply each_ok | with_reducible apply next_ok | with_reducible refine ok_snd (by with_reducible assumption) ?_ | with_reducible refine ok_fst (by with_reducible assumption) ?_ | with_reducible refine ok_some (by with_reducible assumption) ?_ | with_reducible apply foldl_ok | split

theorem execVceOutputHeadRead_ok {pq : List Instr} (i : Fin 64) (s : State) (hok : s.Ok pq) : OutOk pq (execVceOutputHeadRead i s) := by
  unfold execVceOutputHeadRead
  try dsimp only
  repeat' first | with_reducible assumption | with_reducible intro _ | with_reducible apply State.countErr_ok | with_reducible apply State.flog_ok | with_reducible apply State.setVc_ok | with_reducible apply State.vcPublish_ok | with_reducible apply ok_ite | (fail_if_no_progress with_reducible apply ok_mk) | with_reducible apply each_ok | with_reducible apply next_ok | with_reducible refine ok_snd (by with_reducible assumption) ?_ | with_reducible refine ok_fst (by with_reducible assumption) ?_ | with_reducible refine ok_some (by with_reducible assumption) ?_ | with_reducible apply foldl_ok | split

theorem State.vcFill_ok {pq : List Instr} (s : State) (i off n : Nat) (b : Nat → Byte) (ep : Bool) (hok : s.Ok pq) : (State.vcFill s i off n b ep).Ok pq := by
  unfold State.vcFill
  try dsimp only
  repeat' first | with_reducible assumption | with_reducible intro _ | with_reducible apply State.vcPut_ok

theorem execVceDecodeDone_ok {pq : List Instr} (i : Fin 64) (r : DecIn) (s : State) (hok : s.Ok pq) : OutOk pq (execVceDecodeDone i r s) := by
  unfold execVceDecodeDone
  try dsimp only
  repeat' first | with_reducible assumption | with_reducible intro _ | with_reducible apply State.vcFill_ok | with_reducible apply State.vcPoison_ok | with_reducible apply State.vcDone_ok | with_reducible apply State.vcPut_ok | with_reducible apply State.setVc_ok | with_reducible apply State.tick_ok | with_reducible apply State.emit_ok | with_reducible apply ok_ite | (fail_if_no_progress with_reducible apply ok_mk) | with_reducible apply each_ok | with_reducible apply next_ok | with_reducible refine ok_snd (by with_reducible assumption) ?_ | with_reducible refine ok_fst (by with_reducible assumption) ?_ | with_reducible refine ok_some (by with_reducible assumption) ?_ | with_reducible apply foldl_ok | split

theorem State.vcEnable_ok {pq : List Instr} (s : State) (rq : Requester) (i : Nat) (hok : s.Ok pq) : (State.vcEnable s rq i).Ok pq := by
  unfold State.vcEnable
  try dsimp only
  repeat' first | with_reducible assumption | with_reducible intro _ | with_reducible apply State.vcLoads_ok | with_reducible apply State.setVcState_ok | with_reducible apply State.setVcf_ok | with_reducible apply State.setVc_ok | with_reducible apply State.bindComps_ok | with_reducible apply State.countErr_ok | with_reducible apply State.event_ok | with_reducible apply State.each_ok | with_reducible apply ok_ite | (fail_if_no_progress with_reducible apply ok_mk) | with_reducible apply each_ok | with_reducible refine ok_snd (by with_reducible assumption) ?_ | with_reducible refine ok_fst (by with_reducible assumption) ?_ | with_reducible refine ok_some (by with_reducible assumption) ?_ | with_reducible apply foldl_ok | split

theorem State.vcDisable_ok {pq : List Instr} (s : State) (i : Nat) (hok : s.Ok pq) : (State.vcDisable s i).Ok pq := by
  unfold State.vcDisable
  try dsimp only
  repeat' first | with_reducible assumption | with_reducible intro _ | with_reducible apply State.setVcf_ok | with_reducible apply State.setVcState_ok | with_reducible apply State.vcOff_ok | with_reducible apply State.vcFlush_ok | with_reducible apply State.vcCancel_ok | with_reducible apply ok_ite

theorem State.vcBindWrite_ok {pq : List Instr} (s : State) (rq : Requester) (i w : Nat) (hok : s.Ok pq) : (State.vcBindWrite s rq i w).Ok pq := by
  unfold State.vcBindWrite
  try dsimp only
  repeat' first | with_reducible assumption | with_reducible intro _ | with_reducible apply State.vcDisable_ok | with_reducible apply State.vcEnable_ok | with_reducible apply State.setVcf_ok | with_reducible apply State.countErr_ok | with_reducible apply State.each_ok | with_reducible apply ok_ite | (fail_if_no_progress with_reducible apply ok_mk) | with_reducible apply each_ok

theorem execVceSessionEnable_ok {pq : List Instr} (rq : Requester) (i : Fin 64) (v : Word) (s : State) (hok : s.Ok pq) : OutOk pq (execVceSessionEnable rq i v s) := by
  unfold execVceSessionEnable
  try dsimp only
  repeat' first | with_reducible assumption | with_reducible intro _ | with_reducible apply State.privWrite_ok | with_reducible apply State.vcBindWrite_ok | with_reducible apply ok_ite | (fail_if_no_progress with_reducible apply ok_mk) | with_reducible apply each_ok | with_reducible apply next_ok

theorem execVceSessionDisable_ok {pq : List Instr} (rq : Requester) (i : Fin 64) (v : Word) (s : State) (hok : s.Ok pq) : OutOk pq (execVceSessionDisable rq i v s) := by
  unfold execVceSessionDisable
  try dsimp only
  repeat' first | with_reducible assumption | with_reducible intro _ | with_reducible apply State.privWrite_ok | with_reducible apply State.vcBindWrite_ok | with_reducible apply ok_ite | (fail_if_no_progress with_reducible apply ok_mk) | with_reducible apply each_ok | with_reducible apply next_ok

theorem State.vceBist_ok {pq : List Instr} (s : State) (rq : Requester) (n : Nat) (hok : s.Ok pq) : (State.vceBist s rq n).Ok pq := by
  unfold State.vceBist
  try dsimp only
  repeat' first | with_reducible assumption | with_reducible intro _ | with_reducible apply State.setFlag_ok | with_reducible apply State.satFld_ok | with_reducible apply State.countErr_ok | with_reducible apply State.setEngine_ok | with_reducible apply ok_ite

theorem execVceBist_ok {pq : List Instr} (rq : Requester) (n : Fin 4) (s : State) (hok : s.Ok pq) : OutOk pq (execVceBist rq n s) := by
  unfold execVceBist
  try dsimp only
  repeat' first | with_reducible assumption | with_reducible intro _ | with_reducible apply State.privWrite_ok | with_reducible apply State.vceBist_ok | with_reducible apply ok_ite | (fail_if_no_progress with_reducible apply ok_mk) | with_reducible apply each_ok | with_reducible apply next_ok

theorem execVceBistDone_ok {pq : List Instr} (n : Fin 4) (pass : Bool) (s : State) (hok : s.Ok pq) : OutOk pq (execVceBistDone n pass s) := by
  unfold execVceBistDone
  try dsimp only
  repeat' first | with_reducible assumption | with_reducible intro _ | with_reducible apply State.setFlag_ok | with_reducible apply State.event_ok | with_reducible apply State.setEngine_ok | with_reducible apply ok_ite | (fail_if_no_progress with_reducible apply ok_mk) | with_reducible apply each_ok | with_reducible apply next_ok

theorem State.vceReset_ok {pq : List Instr} (s : State) (n : Nat) (hok : s.Ok pq) : (State.vceReset s n).Ok pq := by
  unfold State.vceReset
  try dsimp only
  repeat' first | with_reducible assumption | with_reducible intro _ | with_reducible apply State.setEngine_ok | with_reducible apply ok_ite

theorem execVceEngineReset_ok {pq : List Instr} (rq : Requester) (n : Fin 4) (s : State) (hok : s.Ok pq) : OutOk pq (execVceEngineReset rq n s) := by
  unfold execVceEngineReset
  try dsimp only
  repeat' first | with_reducible assumption | with_reducible intro _ | with_reducible apply State.privWrite_ok | with_reducible apply State.vceReset_ok | with_reducible apply ok_ite | (fail_if_no_progress with_reducible apply ok_mk) | with_reducible apply each_ok | with_reducible apply next_ok

theorem State.vceFail_ok {pq : List Instr} (s : State) (n : Nat) (hok : s.Ok pq) : (State.vceFail s n).Ok pq := by
  unfold State.vceFail
  try dsimp only
  repeat' first | with_reducible assumption | with_reducible intro _ | with_reducible apply State.setFlag_ok | with_reducible apply State.each_ok | with_reducible apply State.event_ok | with_reducible apply State.setEngine_ok | with_reducible apply State.setVcState_ok | with_reducible apply State.vcCancel_ok | with_reducible apply State.vcDone_ok | with_reducible apply ok_ite | (fail_if_no_progress with_reducible apply ok_mk) | with_reducible apply each_ok

theorem execVceEngineFault_ok {pq : List Instr} (n : Fin 4) (s : State) (hok : s.Ok pq) : OutOk pq (execVceEngineFault n s) := by
  unfold execVceEngineFault
  try dsimp only
  repeat' first | with_reducible assumption | with_reducible intro _ | with_reducible apply State.vceFail_ok | with_reducible apply ok_ite | (fail_if_no_progress with_reducible apply ok_mk) | with_reducible apply each_ok | with_reducible apply next_ok

theorem State.vcTenantStart_ok {pq : List Instr} (s : State) (n : Nat) (hok : s.Ok pq) : (State.vcTenantStart s n).Ok pq := by
  unfold State.vcTenantStart
  try dsimp only
  repeat' first | with_reducible assumption | with_reducible intro _ | with_reducible apply State.setFld_ok | with_reducible apply State.each_ok | with_reducible apply State.setVc_ok | with_reducible apply State.setVcf_ok | with_reducible apply State.setEngine_ok | with_reducible apply State.vcReserve_ok | with_reducible apply ok_ite | (fail_if_no_progress with_reducible apply ok_mk) | with_reducible apply each_ok

theorem State.vcTenantAbsorb_ok {pq : List Instr} (s : State) (n : Nat) (hok : s.Ok pq) : (State.vcTenantAbsorb s n).Ok pq := by
  unfold State.vcTenantAbsorb
  try dsimp only
  repeat' first | with_reducible assumption | with_reducible intro _ | with_reducible apply State.each_ok | with_reducible apply State.setVcf_ok | with_reducible apply State.vcOff_ok | with_reducible apply ok_ite | (fail_if_no_progress with_reducible apply ok_mk) | with_reducible apply each_ok

/-! Mapping. -/

theorem State.fuseLoad_ok {pq : List Instr} (s : State) (hok : s.Ok pq) : (State.fuseLoad s).Ok pq := by
  unfold State.fuseLoad
  try dsimp only
  repeat' first | with_reducible assumption | with_reducible intro _ | with_reducible apply State.each_ok | with_reducible apply State.setFld_ok | with_reducible apply ok_ite | (fail_if_no_progress with_reducible apply ok_mk) | with_reducible apply each_ok

theorem State.bootTrail_ok {pq : List Instr} (s : State) (sev : Nat) (hok : s.Ok pq) : (State.bootTrail s sev).Ok pq := by
  unfold State.bootTrail
  try dsimp only
  repeat' first | with_reducible assumption | with_reducible intro _ | with_reducible apply State.trailPut_ok

theorem State.bootErr_ok {pq : List Instr} (s : State) (code detail step : Nat) (hok : s.Ok pq) : (State.bootErr s code detail step).Ok pq := by
  unfold State.bootErr
  try dsimp only
  repeat' first | with_reducible assumption | with_reducible intro _ | with_reducible apply State.setFld_ok | with_reducible apply State.bootTrail_ok

theorem State.setDom_ok {pq : List Instr} (s : State) (t i v : Nat) (hok : s.Ok pq) : (State.setDom s t i v).Ok pq := by
  unfold State.setDom
  try dsimp only
  repeat' first | with_reducible assumption | with_reducible intro _ | with_reducible apply State.setFld_ok

theorem State.setRamp_ok {pq : List Instr} (s : State) (t i v : Nat) (hok : s.Ok pq) : (State.setRamp s t i v).Ok pq := by
  unfold State.setRamp
  try dsimp only
  repeat' first | with_reducible assumption | with_reducible intro _ | with_reducible apply ok_ite | (fail_if_no_progress with_reducible apply ok_mk)

theorem State.domSync_ok {pq : List Instr} (s : State) (t : Nat) (hok : s.Ok pq) : (State.domSync s t).Ok pq := by
  unfold State.domSync
  try dsimp only
  repeat' first | with_reducible assumption | with_reducible intro _ | with_reducible apply State.each_ok | with_reducible apply State.setDom_ok | with_reducible apply State.setRamp_ok | with_reducible apply ok_ite | (fail_if_no_progress with_reducible apply ok_mk) | with_reducible apply each_ok

theorem execDomainRampStart_ok {pq : List Instr} (t : Fin 8) (s : State) (hok : s.Ok pq) : OutOk pq (execDomainRampStart t s) := by
  unfold execDomainRampStart
  try dsimp only
  repeat' first | with_reducible assumption | with_reducible intro _ | with_reducible apply State.setDom_ok | with_reducible apply State.setRamp_ok | with_reducible apply ok_ite | (fail_if_no_progress with_reducible apply ok_mk) | with_reducible apply each_ok | with_reducible apply next_ok | with_reducible refine ok_snd (by with_reducible assumption) ?_ | with_reducible refine ok_fst (by with_reducible assumption) ?_ | with_reducible refine ok_some (by with_reducible assumption) ?_ | with_reducible apply foldl_ok | split

theorem execRampStageDwell_ok {pq : List Instr} (t : Fin 8) (dom : Fin 136) (s : State) (hok : s.Ok pq) : OutOk pq (execRampStageDwell t dom s) := by
  unfold execRampStageDwell
  try dsimp only
  repeat' first | with_reducible assumption | with_reducible intro _ | with_reducible apply State.setDom_ok | with_reducible apply State.setRamp_ok | with_reducible apply ok_ite | (fail_if_no_progress with_reducible apply ok_mk) | with_reducible apply each_ok | with_reducible apply next_ok | with_reducible refine ok_snd (by with_reducible assumption) ?_ | with_reducible refine ok_fst (by with_reducible assumption) ?_ | with_reducible refine ok_some (by with_reducible assumption) ?_ | with_reducible apply foldl_ok | split

theorem execVirtualRail90_ok {pq : List Instr} (t : Fin 8) (dom : Fin 136) (s : State) (hok : s.Ok pq) : OutOk pq (execVirtualRail90 t dom s) := by
  unfold execVirtualRail90
  try dsimp only
  repeat' first | with_reducible assumption | with_reducible intro _ | with_reducible apply State.setRamp_ok | with_reducible apply ok_ite | (fail_if_no_progress with_reducible apply ok_mk) | with_reducible apply each_ok | with_reducible apply next_ok

theorem State.setCluMap_ok {pq : List Instr} (s : State) (cl : Nat) (m : CluMap) (hok : s.Ok pq) : (State.setCluMap s cl m).Ok pq := by
  unfold State.setCluMap
  try dsimp only
  repeat' first | with_reducible assumption | with_reducible intro _ | with_reducible apply State.setFld_ok | with_reducible apply State.setFlag_ok | with_reducible apply State.each_ok | with_reducible apply ok_ite | (fail_if_no_progress with_reducible apply ok_mk) | with_reducible apply each_ok

theorem State.mapTile_ok {pq : List Instr} (s : State) (t : Nat) (hok : s.Ok pq) : (State.mapTile s t).Ok pq := by
  unfold State.mapTile
  try dsimp only
  repeat' first | with_reducible assumption | with_reducible intro _ | with_reducible apply State.each_ok | with_reducible apply State.setCluMap_ok | with_reducible apply ok_ite | (fail_if_no_progress with_reducible apply ok_mk) | with_reducible apply each_ok

theorem State.tileCount_ok {pq : List Instr} (s : State) (t : Nat) (hok : s.Ok pq) : (State.tileCount s t).Ok pq := by
  unfold State.tileCount
  try dsimp only
  repeat' first | with_reducible assumption | with_reducible intro _ | with_reducible apply State.setFld_ok

theorem State.coreWipe_ok {pq : List Instr} (s : State) (x : Nat) (hok : s.Ok pq) : (State.coreWipe s x).Ok pq := by
  unfold State.coreWipe
  try dsimp only
  repeat' first | with_reducible assumption | with_reducible intro _ | with_reducible apply State.setFld_ok | with_reducible apply State.setFlag_ok | with_reducible apply State.each_ok | with_reducible apply State.setCore_ok | with_reducible apply State.clearStores_ok | with_reducible apply State.rezDrop_ok | with_reducible apply State.resLoseCore_ok | with_reducible apply State.setLoads_ok | with_reducible apply State.loadCheck_ok | with_reducible apply ok_ite | (fail_if_no_progress with_reducible apply ok_mk) | with_reducible apply each_ok

theorem State.coreBoot_ok {pq : List Instr} (s : State) (x : Nat) (hok : s.Ok pq) : (State.coreBoot s x).Ok pq := by
  unfold State.coreBoot
  try dsimp only
  repeat' first | with_reducible assumption | with_reducible intro _ | with_reducible apply State.setFld_ok | with_reducible apply ok_ite

theorem State.takeoverNear_ok {pq : List Instr} (s : State) (g y : Nat) (hok : s.Ok pq) : (State.takeoverNear s g y).Ok pq := by
  unfold State.takeoverNear
  try dsimp only
  repeat' first | with_reducible assumption | with_reducible intro _ | with_reducible apply State.setBacking_ok | with_reducible apply ok_ite | (fail_if_no_progress with_reducible apply ok_mk) | with_reducible apply ok_hmp_wr | with_reducible apply ok_hmp_clear | with_reducible apply ok_hmp_poison | with_reducible apply ok_stores_wr | with_reducible apply ok_stores_clear | with_reducible apply ok_stores_poison | with_reducible apply ok_slices_write | with_reducible apply ok_slices_clear | with_reducible apply ok_slices_pois | with_reducible apply ok_slices_markBoth | with_reducible apply ok_hmp_fold | with_reducible apply Mem.wf_clear | with_reducible apply Mem.wf_wr | with_reducible apply Mem.wf_land | with_reducible apply each_ok | with_reducible apply next_ok | with_reducible refine ok_snd (by with_reducible assumption) ?_ | with_reducible refine ok_fst (by with_reducible assumption) ?_ | with_reducible refine ok_some (by with_reducible assumption) ?_ | with_reducible apply foldl_ok | split

theorem State.offlineNote_ok {pq : List Instr} (s : State) (cl g : Nat) (hok : s.Ok pq) : (State.offlineNote s cl g).Ok pq := by
  unfold State.offlineNote
  try dsimp only
  repeat' first | with_reducible assumption | with_reducible intro _ | with_reducible apply State.event_ok | with_reducible apply State.bootErr_ok | with_reducible apply ok_ite | (fail_if_no_progress with_reducible apply ok_mk)

theorem State.markCore_ok {pq : List Instr} (s : State) (x : Nat) (hok : s.Ok pq) : (State.markCore s x).Ok pq := by
  unfold State.markCore
  try dsimp only
  repeat' first | with_reducible assumption | with_reducible intro _ | with_reducible apply State.setBacking_ok | with_reducible apply State.event_ok | with_reducible apply State.clearStores_ok | with_reducible apply State.spareUnassign_ok | with_reducible apply State.domSync_ok | with_reducible apply State.setCluMap_ok | with_reducible apply State.coreWipe_ok | with_reducible apply State.coreBoot_ok | with_reducible apply State.takeoverNear_ok | with_reducible apply State.offlineNote_ok | with_reducible apply ok_ite | (fail_if_no_progress with_reducible apply ok_mk) | with_reducible apply each_ok | with_reducible apply next_ok | with_reducible refine ok_snd (by with_reducible assumption) ?_ | with_reducible refine ok_fst (by with_reducible assumption) ?_ | with_reducible refine ok_some (by with_reducible assumption) ?_ | with_reducible apply foldl_ok | split

theorem State.markCluster_ok {pq : List Instr} (s : State) (cl : Nat) (hok : s.Ok pq) : (State.markCluster s cl).Ok pq := by
  unfold State.markCluster
  try dsimp only
  repeat' first | with_reducible assumption | with_reducible intro _ | with_reducible apply State.each_ok | with_reducible apply State.setBacking_ok | with_reducible apply State.spareUnassign_ok | with_reducible apply State.domSync_ok | with_reducible apply State.setCluMap_ok | with_reducible apply State.coreWipe_ok | with_reducible apply State.offlineNote_ok | with_reducible apply ok_ite | (fail_if_no_progress with_reducible apply ok_mk) | with_reducible apply each_ok | with_reducible apply next_ok | with_reducible refine ok_snd (by with_reducible assumption) ?_ | with_reducible refine ok_fst (by with_reducible assumption) ?_ | with_reducible refine ok_some (by with_reducible assumption) ?_ | with_reducible apply foldl_ok | split

theorem State.applyFact_ok {pq : List Instr} (s : State) (f : FieldFact) (hok : s.Ok pq) : (State.applyFact s f).Ok pq := by
  unfold State.applyFact
  try dsimp only
  repeat' first | with_reducible assumption | with_reducible intro _ | with_reducible apply State.markCore_ok | with_reducible apply State.markCluster_ok | with_reducible apply ok_ite | (fail_if_no_progress with_reducible apply ok_mk) | with_reducible apply each_ok | with_reducible apply next_ok | with_reducible refine ok_snd (by with_reducible assumption) ?_ | with_reducible refine ok_fst (by with_reducible assumption) ?_ | with_reducible refine ok_some (by with_reducible assumption) ?_ | with_reducible apply foldl_ok | split

theorem execDomainShort_ok {pq : List Instr} (t : Fin 8) (dom : Fin 136) (rail : Bool) (s : State) (hok : s.Ok pq) : OutOk pq (execDomainShort t dom rail s) := by
  unfold execDomainShort
  try dsimp only
  repeat' first | with_reducible assumption | with_reducible intro _ | with_reducible apply State.setFld_ok | with_reducible apply State.setFlag_ok | with_reducible apply State.event_ok | with_reducible apply State.trailPut_ok | with_reducible apply State.addFact_ok | with_reducible apply State.setDom_ok | with_reducible apply State.setRamp_ok | with_reducible apply State.applyFact_ok | with_reducible apply ok_ite | (fail_if_no_progress with_reducible apply ok_mk) | with_reducible apply each_ok | with_reducible apply next_ok

theorem State.subsApply_ok {pq : List Instr} (s : State) (cl : Nat) (hok : s.Ok pq) : (State.subsApply s cl).Ok pq := by
  unfold State.subsApply
  try dsimp only
  repeat' first | with_reducible assumption | with_reducible intro _ | with_reducible apply State.each_ok | with_reducible apply State.applyFact_ok | with_reducible apply ok_ite | (fail_if_no_progress with_reducible apply ok_mk) | with_reducible apply each_ok

/-! Partitions. -/

theorem State.setPtState_ok {pq : List Instr} (s : State) (p v : Nat) (hok : s.Ok pq) : (State.setPtState s p v).Ok pq := by
  unfold State.setPtState
  try dsimp only
  repeat' first | with_reducible assumption | with_reducible intro _ | with_reducible apply State.setFld_ok

theorem State.setPaused_ok {pq : List Instr} (s : State) (p : Nat) (v : Bool) (hok : s.Ok pq) : (State.setPaused s p v).Ok pq := by
  unfold State.setPaused
  try dsimp only
  repeat' first | with_reducible assumption | with_reducible intro _ | with_reducible apply State.setBit_ok

theorem State.ptCmdEnd_ok {pq : List Instr} (s : State) (p result : Nat) (hok : s.Ok pq) : (State.ptCmdEnd s p result).Ok pq := by
  unfold State.ptCmdEnd
  try dsimp only
  repeat' first | with_reducible assumption | with_reducible intro _ | with_reducible apply State.setFld_ok | with_reducible apply State.setFlag_ok | with_reducible apply State.event_ok

theorem State.buildTry_ok {pq : List Instr} (s : State) (p : Nat) (hok : s.Ok pq) : (State.buildTry s p).Ok pq := by
  unfold State.buildTry
  try dsimp only
  repeat' first | with_reducible assumption | with_reducible intro _ | with_reducible apply State.rebuild_ok | with_reducible apply State.setPtState_ok | with_reducible apply State.ptCmdEnd_ok | with_reducible apply ok_ite | (fail_if_no_progress with_reducible apply ok_mk) | with_reducible apply each_ok | with_reducible apply next_ok | with_reducible refine ok_snd (by with_reducible assumption) ?_ | with_reducible refine ok_fst (by with_reducible assumption) ?_ | with_reducible refine ok_some (by with_reducible assumption) ?_ | with_reducible apply foldl_ok | split

theorem State.buildStart_ok {pq : List Instr} (s : State) (p : Nat) (hok : s.Ok pq) : (State.buildStart s p).Ok pq := by
  unfold State.buildStart
  try dsimp only
  repeat' first | with_reducible assumption | with_reducible intro _ | with_reducible apply State.setPtState_ok | with_reducible apply State.ptCmdEnd_ok | with_reducible apply State.buildTry_ok | with_reducible apply ok_ite | (fail_if_no_progress with_reducible apply ok_mk) | with_reducible apply each_ok | with_reducible apply next_ok | with_reducible refine ok_snd (by with_reducible assumption) ?_ | with_reducible refine ok_fst (by with_reducible assumption) ?_ | with_reducible refine ok_some (by with_reducible assumption) ?_ | with_reducible apply foldl_ok | split

theorem State.ptUngrant_ok {pq : List Instr} (s : State) (p cause : Nat) (hok : s.Ok pq) : (State.ptUngrant s p cause).Ok pq := by
  unfold State.ptUngrant
  try dsimp only
  repeat' first | with_reducible assumption | with_reducible intro _ | with_reducible apply State.each_ok | with_reducible apply State.hpcFree_ok | with_reducible apply State.hpcStop_ok | with_reducible apply ok_ite | (fail_if_no_progress with_reducible apply ok_mk) | with_reducible apply each_ok

theorem State.ptUnspare_ok {pq : List Instr} (s : State) (p : Nat) (hok : s.Ok pq) : (State.ptUnspare s p).Ok pq := by
  unfold State.ptUnspare
  try dsimp only
  repeat' first | with_reducible assumption | with_reducible intro _ | with_reducible apply State.each_ok | with_reducible apply State.clearStores_ok | with_reducible apply State.spareUnassign_ok | with_reducible apply ok_ite | (fail_if_no_progress with_reducible apply ok_mk) | with_reducible apply each_ok

theorem State.ptDrop_ok {pq : List Instr} (s : State) (p : Nat) (hok : s.Ok pq) : (State.ptDrop s p).Ok pq := by
  unfold State.ptDrop
  try dsimp only
  repeat' first | with_reducible assumption | with_reducible intro _ | with_reducible apply State.setFld_ok | with_reducible apply State.setPm_ok | with_reducible apply State.nearReset_ok | with_reducible apply State.setPtState_ok | with_reducible apply State.setPaused_ok | with_reducible apply State.ptUngrant_ok | with_reducible apply State.ptUnspare_ok

/-! Integrity. -/

theorem State.lapEnd_ok {pq : List Instr} (s : State) (pg : Nat) (hok : s.Ok pq) : (State.lapEnd s pg).Ok pq := by
  unfold State.lapEnd
  try dsimp only
  repeat' first | with_reducible assumption | with_reducible intro _ | with_reducible apply State.setFld_ok | with_reducible apply State.setFlag_ok | with_reducible apply State.event_ok | with_reducible apply ok_ite | (fail_if_no_progress with_reducible apply ok_mk)

theorem State.sramEcc_ok {pq : List Instr} (s : State) (cl : Option (Fin 64)) (l : Nat) (e : EccIn) (hok : s.Ok pq) : (State.sramEcc s cl l e).Ok pq := by
  unfold State.sramEcc
  try dsimp only
  repeat' first | with_reducible assumption | with_reducible intro _ | with_reducible apply State.scbUe_ok | with_reducible apply State.sramCe_ok | with_reducible apply ok_ite | (fail_if_no_progress with_reducible apply ok_mk) | with_reducible apply ok_hmp_wr | with_reducible apply ok_hmp_clear | with_reducible apply ok_hmp_poison | with_reducible apply ok_stores_wr | with_reducible apply ok_stores_clear | with_reducible apply ok_stores_poison | with_reducible apply ok_slices_write | with_reducible apply ok_slices_clear | with_reducible apply ok_slices_pois | with_reducible apply ok_slices_markBoth | with_reducible apply ok_hmp_fold | with_reducible apply Mem.wf_clear | with_reducible apply Mem.wf_wr | with_reducible apply Mem.wf_land | with_reducible apply each_ok | with_reducible refine ok_snd (by with_reducible assumption) ?_ | with_reducible refine ok_fst (by with_reducible assumption) ?_ | with_reducible refine ok_some (by with_reducible assumption) ?_ | with_reducible apply foldl_ok | split

theorem execIdleScrubLine_ok {pq : List Instr} (cl : Option (Fin 64)) (ecc : EccIn) (s : State) (hok : s.Ok pq) : OutOk pq (execIdleScrubLine cl ecc s) := by
  unfold execIdleScrubLine
  try dsimp only
  repeat' first | with_reducible assumption | with_reducible intro _ | with_reducible apply State.lapEnd_ok | with_reducible apply State.sramEcc_ok | with_reducible apply ok_ite | (fail_if_no_progress with_reducible apply ok_mk) | with_reducible apply each_ok | with_reducible apply next_ok | with_reducible refine ok_snd (by with_reducible assumption) ?_ | with_reducible refine ok_fst (by with_reducible assumption) ?_ | with_reducible refine ok_some (by with_reducible assumption) ?_ | with_reducible apply foldl_ok | split

theorem execScrubLapLimit_ok {pq : List Instr} (cl : Option (Fin 64)) (s : State) (hok : s.Ok pq) : OutOk pq (execScrubLapLimit cl s) := by
  unfold execScrubLapLimit
  try dsimp only
  repeat' first | with_reducible assumption | with_reducible intro _ | with_reducible apply State.setFlag_ok | with_reducible apply State.satFld_ok | with_reducible apply State.event_ok | with_reducible apply ok_ite | (fail_if_no_progress with_reducible apply ok_mk) | with_reducible apply each_ok | with_reducible apply next_ok

theorem execPatrolScrubStep_ok {pq : List Instr} (x : Fin 512) (ecc : EccIn) (s : State) (hok : s.Ok pq) : OutOk pq (execPatrolScrubStep x ecc s) := by
  unfold execPatrolScrubStep
  try dsimp only
  repeat' first | with_reducible assumption | with_reducible intro _ | with_reducible apply State.setFld_ok | with_reducible apply State.satFld_ok | with_reducible apply State.event_ok | with_reducible apply State.sliceEcc_ok | with_reducible apply ok_ite | (fail_if_no_progress with_reducible apply ok_mk) | with_reducible apply each_ok | with_reducible apply next_ok | with_reducible refine ok_snd (by with_reducible assumption) ?_ | with_reducible refine ok_fst (by with_reducible assumption) ?_ | with_reducible refine ok_some (by with_reducible assumption) ?_ | with_reducible apply foldl_ok | split

theorem State.ceWindowEnd_ok {pq : List Instr} (s : State) (pg : Nat) (hok : s.Ok pq) : (State.ceWindowEnd s pg).Ok pq := by
  unfold State.ceWindowEnd
  try dsimp only
  repeat' first | with_reducible assumption | with_reducible intro _ | with_reducible apply State.setFld_ok | with_reducible apply ok_ite | (fail_if_no_progress with_reducible apply ok_mk)

theorem execCeWindowEnd_ok {pq : List Instr} (m : ScbId) (s : State) (hok : s.Ok pq) : OutOk pq (execCeWindowEnd m s) := by
  unfold execCeWindowEnd
  try dsimp only
  repeat' first | with_reducible assumption | with_reducible intro _ | with_reducible apply State.ceWindowEnd_ok | with_reducible apply ok_ite | (fail_if_no_progress with_reducible apply ok_mk) | with_reducible apply each_ok | with_reducible apply next_ok

theorem State.ceCross_ok {pq : List Instr} (s : State) (m : ScbId) (hok : s.Ok pq) : (State.ceCross s m).Ok pq := by
  unfold State.ceCross
  try dsimp only
  repeat' first | with_reducible assumption | with_reducible intro _ | with_reducible apply State.sliceCross_ok | with_reducible apply State.event_ok | with_reducible apply ok_ite | (fail_if_no_progress with_reducible apply ok_mk) | with_reducible apply each_ok | with_reducible refine ok_snd (by with_reducible assumption) ?_ | with_reducible refine ok_fst (by with_reducible assumption) ?_ | with_reducible refine ok_some (by with_reducible assumption) ?_ | with_reducible apply foldl_ok | split

theorem State.ceCfgWrite_ok {pq : List Instr} (s : State) (rq : Requester) (m : ScbId) (v : Nat) (hok : s.Ok pq) : (State.ceCfgWrite s rq m v).Ok pq := by
  unfold State.ceCfgWrite
  try dsimp only
  repeat' first | with_reducible assumption | with_reducible intro _ | with_reducible apply State.ceCross_ok | with_reducible apply State.ceWindowEnd_ok | with_reducible apply State.countErr_ok | with_reducible apply State.setFld_ok | with_reducible apply ok_ite

theorem execCeWindowWrite_ok {pq : List Instr} (rq : Requester) (m : ScbId) (v : Word) (s : State) (hok : s.Ok pq) : OutOk pq (execCeWindowWrite rq m v s) := by
  unfold execCeWindowWrite
  try dsimp only
  repeat' first | with_reducible assumption | with_reducible intro _ | with_reducible apply State.ceCfgWrite_ok | with_reducible apply State.tileWrite_ok | with_reducible apply ok_ite | (fail_if_no_progress with_reducible apply ok_mk) | with_reducible apply each_ok | with_reducible apply next_ok

theorem State.bistRefuse_ok {pq : List Instr} (s : State) (rq : Requester) (pg : Nat) (page : Bool) (hok : s.Ok pq) : (State.bistRefuse s rq pg page).Ok pq := by
  unfold State.bistRefuse
  try dsimp only
  repeat' first | with_reducible assumption | with_reducible intro _ | with_reducible apply State.satFld_ok | with_reducible apply State.event_ok | with_reducible apply State.countErr_ok | with_reducible apply ok_ite

theorem State.bistStart_ok {pq : List Instr} (s : State) (rq : Requester) (m : ScbId) (v : Nat) (hok : s.Ok pq) : (State.bistStart s rq m v).Ok pq := by
  unfold State.bistStart
  try dsimp only
  repeat' first | with_reducible assumption | with_reducible intro _ | with_reducible apply State.bistRefuse_ok | with_reducible apply State.setFlag_ok | with_reducible apply State.setFld_ok | with_reducible apply ok_ite | (fail_if_no_progress with_reducible apply ok_mk) | with_reducible apply each_ok | with_reducible refine ok_snd (by with_reducible assumption) ?_ | with_reducible refine ok_fst (by with_reducible assumption) ?_ | with_reducible refine ok_some (by with_reducible assumption) ?_ | with_reducible apply foldl_ok | split

theorem State.bistWrite_ok {pq : List Instr} (s : State) (rq : Requester) (m : ScbId) (v : Nat) (hok : s.Ok pq) : (State.bistWrite s rq m v).Ok pq := by
  unfold State.bistWrite
  try dsimp only
  repeat' first | with_reducible assumption | with_reducible intro _ | with_reducible apply State.bistStart_ok | with_reducible apply State.setFld_ok | with_reducible apply ok_ite | (fail_if_no_progress with_reducible apply ok_mk) | with_reducible apply each_ok | with_reducible refine ok_snd (by with_reducible assumption) ?_ | with_reducible refine ok_fst (by with_reducible assumption) ?_ | with_reducible refine ok_some (by with_reducible assumption) ?_ | with_reducible apply foldl_ok | split

theorem execMemorySelfTest_ok {pq : List Instr} (rq : Requester) (m : ScbId) (v : Word) (s : State) (hok : s.Ok pq) : OutOk pq (execMemorySelfTest rq m v s) := by
  unfold execMemorySelfTest
  try dsimp only
  repeat' first | with_reducible assumption | with_reducible intro _ | with_reducible apply State.bistWrite_ok | with_reducible apply State.tileWrite_ok | with_reducible apply ok_ite | (fail_if_no_progress with_reducible apply ok_mk) | with_reducible apply each_ok | with_reducible apply next_ok

theorem execSelfTestDone_ok {pq : List Instr} (m : ScbId) (pass : Bool) (s : State) (hok : s.Ok pq) : OutOk pq (execSelfTestDone m pass s) := by
  unfold execSelfTestDone
  try dsimp only
  repeat' first | with_reducible assumption | with_reducible intro _ | with_reducible apply State.setFlag_ok | with_reducible apply State.each_ok | with_reducible apply State.event_ok | with_reducible apply State.trailPut_ok | with_reducible apply State.clearStores_ok | with_reducible apply State.buildTry_ok | with_reducible apply ok_ite | (fail_if_no_progress with_reducible apply ok_mk) | with_reducible apply ok_hmp_wr | with_reducible apply ok_hmp_clear | with_reducible apply ok_hmp_poison | with_reducible apply ok_stores_wr | with_reducible apply ok_stores_clear | with_reducible apply ok_stores_poison | with_reducible apply ok_slices_write | with_reducible apply ok_slices_clear | with_reducible apply ok_slices_pois | with_reducible apply ok_slices_markBoth | with_reducible apply ok_hmp_fold | with_reducible apply Mem.wf_clear | with_reducible apply Mem.wf_wr | with_reducible apply Mem.wf_land | with_reducible apply each_ok | with_reducible apply next_ok | with_reducible refine ok_snd (by with_reducible assumption) ?_ | with_reducible refine ok_fst (by with_reducible assumption) ?_ | with_reducible refine ok_some (by with_reducible assumption) ?_ | with_reducible apply foldl_ok | split

theorem State.flogClear_ok {pq : List Instr} (s : State) (n : Nat) (hok : s.Ok pq) : (State.flogClear s n).Ok pq := by
  unfold State.flogClear
  try dsimp only
  repeat' first | with_reducible assumption | with_reducible intro _ | with_reducible apply State.setFld_ok | with_reducible apply State.each_ok | with_reducible apply ok_ite | (fail_if_no_progress with_reducible apply ok_mk) | with_reducible apply each_ok

theorem execFaultLogClear_ok {pq : List Instr} (rq : Requester) (n : Fin 128) (s : State) (hok : s.Ok pq) : OutOk pq (execFaultLogClear rq n s) := by
  unfold execFaultLogClear
  try dsimp only
  repeat' first | with_reducible assumption | with_reducible intro _ | with_reducible apply State.privWrite_ok | with_reducible apply State.flogClear_ok | with_reducible apply ok_ite | (fail_if_no_progress with_reducible apply ok_mk) | with_reducible apply each_ok | with_reducible apply next_ok

/-! Tenants. -/

theorem State.setTnState_ok {pq : List Instr} (s : State) (n v : Nat) (hok : s.Ok pq) : (State.setTnState s n v).Ok pq := by
  unfold State.setTnState
  try dsimp only
  repeat' first | with_reducible assumption | with_reducible intro _ | with_reducible apply State.setFld_ok

theorem State.bindApply_ok {pq : List Instr} (s : State) (n v : Nat) (hok : s.Ok pq) : (State.bindApply s n v).Ok pq := by
  unfold State.bindApply
  try dsimp only
  repeat' first | with_reducible assumption | with_reducible intro _ | with_reducible apply State.setFld_ok | with_reducible apply State.etDrop_ok | with_reducible apply State.flogClear_ok | with_reducible apply State.setTnState_ok | with_reducible apply ok_ite

theorem State.stopJobs_ok {pq : List Instr} (s : State) (ks : List Nat) (status detail : Nat) (hok : s.Ok pq) : (State.stopJobs s ks status detail).Ok pq := by
  unfold State.stopJobs
  try dsimp only
  repeat' first | with_reducible assumption | with_reducible intro _ | with_reducible apply State.each_ok | with_reducible apply State.stopJob_ok | with_reducible apply ok_ite | (fail_if_no_progress with_reducible apply ok_mk) | with_reducible apply each_ok

theorem State.endJobs_ok {pq : List Instr} (s : State) (ks : List Nat) (status detail : Nat) (hok : s.Ok pq) : (State.endJobs s ks status detail).Ok pq := by
  unfold State.endJobs
  try dsimp only
  repeat' first | with_reducible assumption | with_reducible intro _ | with_reducible apply State.each_ok | with_reducible apply State.stopJob_ok | with_reducible apply State.jobEnd_ok | with_reducible apply ok_ite | (fail_if_no_progress with_reducible apply ok_mk) | with_reducible apply each_ok

theorem State.tnQuiesce_ok {pq : List Instr} (s : State) (n scope : Nat) (function : Bool) (hok : s.Ok pq) : (State.tnQuiesce s n scope function).Ok pq := by
  unfold State.tnQuiesce
  try dsimp only
  repeat' first | with_reducible assumption | with_reducible intro _ | with_reducible apply State.setFld_ok | with_reducible apply State.setFlag_ok | with_reducible apply State.each_ok | with_reducible apply State.setTen_ok | with_reducible apply State.skTenantStart_ok | with_reducible apply State.vcTenantStart_ok | with_reducible apply State.hpcStop_ok | with_reducible apply State.setTnState_ok | with_reducible apply State.stopJobs_ok | with_reducible apply ok_ite | (fail_if_no_progress with_reducible apply ok_mk) | with_reducible apply each_ok

theorem State.queueAbsorb_ok {pq : List Instr} (s : State) (n q scope : Nat) (hok : s.Ok pq) : (State.queueAbsorb s n q scope).Ok pq := by
  unfold State.queueAbsorb
  try dsimp only
  repeat' first | with_reducible assumption | with_reducible intro _ | with_reducible apply State.dropLoads_ok | with_reducible apply State.complete_ok | with_reducible apply State.setQueue_ok | with_reducible apply State.each_ok | with_reducible apply State.setFld_ok | with_reducible apply ok_ite | (fail_if_no_progress with_reducible apply ok_mk) | with_reducible apply each_ok

theorem State.queueForget_ok {pq : List Instr} (s : State) (n q : Nat) (hok : s.Ok pq) : (State.queueForget s n q).Ok pq := by
  unfold State.queueForget
  try dsimp only
  repeat' first | with_reducible assumption | with_reducible intro _ | with_reducible apply State.setFld_ok | with_reducible apply State.each_ok | with_reducible apply State.setQueue_ok | with_reducible apply ok_ite | (fail_if_no_progress with_reducible apply ok_mk) | with_reducible apply each_ok

theorem State.tnAbsorb_ok {pq : List Instr} (s : State) (n : Nat) (sweep : Bool) (hok : s.Ok pq) : (State.tnAbsorb s n sweep).Ok pq := by
  unfold State.tnAbsorb
  try dsimp only
  repeat' first | with_reducible assumption | with_reducible intro _ | with_reducible apply State.queueForget_ok | with_reducible apply State.queueAbsorb_ok | with_reducible apply State.endJobs_ok | with_reducible apply State.vcTenantAbsorb_ok | with_reducible apply State.skTenantAbsorb_ok | with_reducible apply State.spareClearTenant_ok | with_reducible apply State.kvTenantReset_ok | with_reducible apply State.resRemoveTenant_ok | with_reducible apply State.hpcStopped_ok | with_reducible apply State.hmpTenantClear_ok | with_reducible apply State.bindComps_ok | with_reducible apply State.hdrResets_ok | with_reducible apply State.setTen_ok | with_reducible apply State.each_ok | with_reducible apply ok_ite | (fail_if_no_progress with_reducible apply ok_mk) | with_reducible apply each_ok

theorem State.tnFinish_ok {pq : List Instr} (s : State) (n : Nat) (hok : s.Ok pq) : (State.tnFinish s n).Ok pq := by
  unfold State.tnFinish
  try dsimp only
  repeat' first | with_reducible assumption | with_reducible intro _ | with_reducible apply State.bindApply_ok | with_reducible apply State.setTnState_ok | with_reducible apply State.putReport_ok | with_reducible apply State.event_ok | with_reducible apply State.setTen_ok | with_reducible apply State.each_ok | with_reducible apply State.setFlag_ok | with_reducible apply ok_ite | (fail_if_no_progress with_reducible apply ok_mk) | with_reducible apply each_ok | with_reducible refine ok_snd (by with_reducible assumption) ?_ | with_reducible refine ok_fst (by with_reducible assumption) ?_ | with_reducible refine ok_some (by with_reducible assumption) ?_ | with_reducible apply foldl_ok | split

theorem State.rstLast_ok {pq : List Instr} (s : State) (r : Rst) (hok : s.Ok pq) : (State.rstLast s r).Ok pq := by
  unfold State.rstLast
  try dsimp only
  repeat' first | with_reducible assumption | with_reducible intro _ | with_reducible apply State.setFld_ok | with_reducible apply State.setFlag_ok

theorem State.setRst_ok {pq : List Instr} (s : State) (r r' : Rst) (hok : s.Ok pq) : (State.setRst s r r').Ok pq := by
  unfold State.setRst
  try dsimp only
  repeat' first | with_reducible assumption | with_reducible intro _ | with_reducible apply ok_ite | (fail_if_no_progress with_reducible apply ok_mk)

theorem State.tnTrigger_ok {pq : List Instr} (s : State) (n : Nat) (function : Bool) (hok : s.Ok pq) : (State.tnTrigger s n function).Ok pq := by
  unfold State.tnTrigger
  try dsimp only
  repeat' first | with_reducible assumption | with_reducible intro _ | with_reducible apply State.queueForget_ok | with_reducible apply State.tnQuiesce_ok | with_reducible apply State.setTen_ok | with_reducible apply State.each_ok | with_reducible apply State.setFlag_ok | with_reducible apply ok_ite | (fail_if_no_progress with_reducible apply ok_mk) | with_reducible apply each_ok

theorem execTenantResetCmd_ok {pq : List Instr} (rq : Requester) (n : Fin 128) (s : State) (hok : s.Ok pq) : OutOk pq (execTenantResetCmd rq n s) := by
  unfold execTenantResetCmd
  try dsimp only
  repeat' first | with_reducible assumption | with_reducible intro _ | with_reducible apply State.tenWrite_ok | with_reducible apply State.tnTrigger_ok | with_reducible apply ok_ite | (fail_if_no_progress with_reducible apply ok_mk) | with_reducible apply each_ok | with_reducible apply next_ok

theorem State.tnAbsorbPoint_ok {pq : List Instr} (s : State) (n : Nat) (hok : s.Ok pq) : (State.tnAbsorbPoint s n).Ok pq := by
  unfold State.tnAbsorbPoint
  try dsimp only
  repeat' first | with_reducible assumption | with_reducible intro _ | with_reducible apply State.tnAbsorb_ok | with_reducible apply State.setRst_ok | with_reducible apply ok_ite | (fail_if_no_progress with_reducible apply ok_mk) | with_reducible apply each_ok | with_reducible apply next_ok | with_reducible refine ok_snd (by with_reducible assumption) ?_ | with_reducible refine ok_fst (by with_reducible assumption) ?_ | with_reducible refine ok_some (by with_reducible assumption) ?_ | with_reducible apply foldl_ok | split

theorem execTenantReset_ok {pq : List Instr} (n : Fin 128) (s : State) (hok : s.Ok pq) : OutOk pq (execTenantReset n s) := by
  unfold execTenantReset
  try dsimp only
  repeat' first | with_reducible assumption | with_reducible intro _ | with_reducible apply State.tnAbsorbPoint_ok | with_reducible apply ok_ite | (fail_if_no_progress with_reducible apply ok_mk) | with_reducible apply each_ok | with_reducible apply next_ok

theorem State.tnRelease_ok {pq : List Instr} (s : State) (n : Nat) (hok : s.Ok pq) : (State.tnRelease s n).Ok pq := by
  unfold State.tnRelease
  try dsimp only
  repeat' first | with_reducible assumption | with_reducible intro _ | with_reducible apply State.tnFinish_ok | with_reducible apply State.rstLast_ok | with_reducible apply ok_ite | (fail_if_no_progress with_reducible apply ok_mk) | with_reducible apply each_ok | with_reducible apply next_ok | with_reducible refine ok_snd (by with_reducible assumption) ?_ | with_reducible refine ok_fst (by with_reducible assumption) ?_ | with_reducible refine ok_some (by with_reducible assumption) ?_ | with_reducible apply foldl_ok | split

theorem execTenantResetReport_ok {pq : List Instr} (n : Fin 128) (s : State) (hok : s.Ok pq) : OutOk pq (execTenantResetReport n s) := by
  unfold execTenantResetReport
  try dsimp only
  repeat' first | with_reducible assumption | with_reducible intro _ | with_reducible apply State.tnRelease_ok | with_reducible apply ok_ite | (fail_if_no_progress with_reducible apply ok_mk) | with_reducible apply each_ok | with_reducible apply next_ok

theorem State.bindWrite_ok {pq : List Instr} (s : State) (rq : Requester) (n : Nat) (w : Nat) (hok : s.Ok pq) : (State.bindWrite s rq n w).Ok pq := by
  unfold State.bindWrite
  try dsimp only
  repeat' first | with_reducible assumption | with_reducible intro _ | with_reducible apply State.tnTrigger_ok | with_reducible apply State.bindApply_ok | with_reducible apply State.setTnState_ok | with_reducible apply State.countErr_ok | with_reducible apply State.setTen_ok | with_reducible apply State.setFld_ok | with_reducible apply ok_ite

theorem execTenantBindWrite_ok {pq : List Instr} (rq : Requester) (n : Fin 128) (v : Word) (s : State) (hok : s.Ok pq) : OutOk pq (execTenantBindWrite rq n v s) := by
  unfold execTenantBindWrite
  try dsimp only
  repeat' first | with_reducible assumption | with_reducible intro _ | with_reducible apply State.privWrite_ok | with_reducible apply State.bindWrite_ok | with_reducible apply ok_ite | (fail_if_no_progress with_reducible apply ok_mk) | with_reducible apply each_ok | with_reducible apply next_ok

theorem State.ptFault_ok {pq : List Instr} (s : State) (p code : Nat) (hok : s.Ok pq) : (State.ptFault s p code).Ok pq := by
  unfold State.ptFault
  try dsimp only
  repeat' first | with_reducible assumption | with_reducible intro _ | with_reducible apply State.setFld_ok | with_reducible apply State.each_ok | with_reducible apply State.event_ok | with_reducible apply State.trailPut_ok | with_reducible apply State.dropWaiting_ok | with_reducible apply State.complete_ok | with_reducible apply State.dropLoads_ok | with_reducible apply State.kvFault_ok | with_reducible apply State.setPtState_ok | with_reducible apply State.setPaused_ok | with_reducible apply State.setTnState_ok | with_reducible apply State.stopJobs_ok | with_reducible apply State.endJobs_ok | with_reducible apply ok_ite | (fail_if_no_progress with_reducible apply ok_mk) | with_reducible apply each_ok

theorem State.hubRstEnd_ok {pq : List Instr} (s : State) (r : Rst) (hok : s.Ok pq) : (State.hubRstEnd s r).Ok pq := by
  unfold State.hubRstEnd
  try dsimp only
  repeat' first | with_reducible assumption | with_reducible intro _ | with_reducible apply State.event_ok | with_reducible apply State.setFlag_ok | with_reducible apply State.setFld_ok | with_reducible apply ok_ite

theorem State.rstDrop_ok {pq : List Instr} (s : State) (r : Rst) (hok : s.Ok pq) : (State.rstDrop s r).Ok pq := by
  unfold State.rstDrop
  try dsimp only
  repeat' first | with_reducible assumption | with_reducible intro _ | with_reducible apply State.hubRstEnd_ok | with_reducible apply ok_ite | (fail_if_no_progress with_reducible apply ok_mk)

theorem State.ptResetCmdEnd_ok {pq : List Instr} (s : State) (p result : Nat) (hok : s.Ok pq) : (State.ptResetCmdEnd s p result).Ok pq := by
  unfold State.ptResetCmdEnd
  try dsimp only
  repeat' first | with_reducible assumption | with_reducible intro _ | with_reducible apply State.ptCmdEnd_ok | with_reducible apply ok_ite

theorem State.ptRstFault_ok {pq : List Instr} (s : State) (p code result : Nat) (hok : s.Ok pq) : (State.ptRstFault s p code result).Ok pq := by
  unfold State.ptRstFault
  try dsimp only
  repeat' first | with_reducible assumption | with_reducible intro _ | with_reducible apply State.each_ok | with_reducible apply State.ptFault_ok | with_reducible apply State.rstDrop_ok | with_reducible apply State.ptResetCmdEnd_ok | with_reducible apply ok_ite | (fail_if_no_progress with_reducible apply ok_mk) | with_reducible apply each_ok

theorem State.ptFaultEvent_ok {pq : List Instr} (s : State) (p code : Nat) (hok : s.Ok pq) : (State.ptFaultEvent s p code).Ok pq := by
  unfold State.ptFaultEvent
  try dsimp only
  repeat' first | with_reducible assumption | with_reducible intro _ | with_reducible apply State.ptFault_ok | with_reducible apply State.ptRstFault_ok | with_reducible apply ok_ite | (fail_if_no_progress with_reducible apply ok_mk) | with_reducible apply each_ok | with_reducible apply next_ok | with_reducible refine ok_snd (by with_reducible assumption) ?_ | with_reducible refine ok_fst (by with_reducible assumption) ?_ | with_reducible refine ok_some (by with_reducible assumption) ?_ | with_reducible apply foldl_ok | split

/-! Links. -/

theorem State.eset_ok {pq : List Instr} (s : State) (k : Nat) (lnk ser : Fld) (v : Nat) (hok : s.Ok pq) : (State.eset s k lnk ser v).Ok pq := by
  unfold State.eset
  try dsimp only
  repeat' first | with_reducible assumption | with_reducible intro _ | with_reducible apply State.setFld_ok

theorem State.setReplay_ok {pq : List Instr} (s : State) (k : Nat) (l : List TxFlit) (replays : Nat) (hok : s.Ok pq) : (State.setReplay s k l replays).Ok pq := by
  unfold State.setReplay
  try dsimp only
  repeat' first | with_reducible assumption | with_reducible intro _ | with_reducible apply State.setFld_ok | with_reducible apply State.setLend_ok | with_reducible apply ok_ite

theorem State.endClear_ok {pq : List Instr} (s : State) (k : Nat) (hok : s.Ok pq) : (State.endClear s k).Ok pq := by
  unfold State.endClear
  try dsimp only
  repeat' first | with_reducible assumption | with_reducible intro _ | with_reducible apply State.setReplay_ok | with_reducible apply State.eset_ok | with_reducible apply State.setLend_ok

theorem State.setRetrain_ok {pq : List Instr} (s : State) (k : Nat) (v : Bool) (hok : s.Ok pq) : (State.setRetrain s k v).Ok pq := by
  unfold State.setRetrain
  try dsimp only
  repeat' first | with_reducible assumption | with_reducible intro _ | with_reducible apply State.eset_ok

theorem State.linkSet_ok {pq : List Instr} (s : State) (k v : Nat) (hok : s.Ok pq) : (State.linkSet s k v).Ok pq := by
  unfold State.linkSet
  try dsimp only
  repeat' first | with_reducible assumption | with_reducible intro _ | with_reducible apply State.each_ok | with_reducible apply State.event_ok | with_reducible apply State.eset_ok | with_reducible apply State.endClear_ok | with_reducible apply State.setRetrain_ok | with_reducible apply ok_ite | (fail_if_no_progress with_reducible apply ok_mk) | with_reducible apply each_ok

theorem State.setHold_ok {pq : List Instr} (s : State) (t u : Nat) (v : Option Nat) (hok : s.Ok pq) : (State.setHold s t u v).Ok pq := by
  unfold State.setHold
  try dsimp only
  repeat' first | with_reducible assumption | with_reducible intro _ | with_reducible apply ok_ite | (fail_if_no_progress with_reducible apply ok_mk)

theorem State.reachCheck_ok {pq : List Instr} (s : State) (hok : s.Ok pq) : (State.reachCheck s).Ok pq := by
  unfold State.reachCheck
  try dsimp only
  repeat' first | with_reducible assumption | with_reducible intro _ | with_reducible apply State.each_ok | with_reducible apply State.ptFaultEvent_ok | with_reducible apply ok_ite | (fail_if_no_progress with_reducible apply ok_mk) | with_reducible apply each_ok

theorem State.reroute_ok {pq : List Instr} (s : State) (hok : s.Ok pq) : (State.reroute s).Ok pq := by
  unfold State.reroute
  try dsimp only
  repeat' first | with_reducible assumption | with_reducible intro _ | with_reducible apply State.each_ok | with_reducible apply State.setHold_ok | with_reducible apply State.reachCheck_ok | with_reducible apply ok_ite | (fail_if_no_progress with_reducible apply ok_mk) | with_reducible apply each_ok

theorem State.routesReset_ok {pq : List Instr} (s : State) (hok : s.Ok pq) : (State.routesReset s).Ok pq := by
  unfold State.routesReset
  try dsimp only
  repeat' first | with_reducible assumption | with_reducible intro _ | with_reducible apply State.setFld_ok | with_reducible apply State.each_ok | with_reducible apply ok_ite | (fail_if_no_progress with_reducible apply ok_mk) | with_reducible apply each_ok

theorem State.bridgeDown_ok {pq : List Instr} (s : State) (k : Nat) (hok : s.Ok pq) : (State.bridgeDown s k).Ok pq := by
  unfold State.bridgeDown
  try dsimp only
  repeat' first | with_reducible assumption | with_reducible intro _ | with_reducible apply State.trailPut_ok | with_reducible apply State.linkSet_ok | with_reducible apply State.reroute_ok

theorem State.setFailed_ok {pq : List Instr} (s : State) (k : Nat) (v : Bool) (hok : s.Ok pq) : (State.setFailed s k v).Ok pq := by
  unfold State.setFailed
  try dsimp only
  repeat' first | with_reducible assumption | with_reducible intro _ | with_reducible apply State.setLend_ok | with_reducible apply State.each_ok | with_reducible apply ok_ite | (fail_if_no_progress with_reducible apply ok_mk) | with_reducible apply each_ok

theorem State.retrainEnd_ok {pq : List Instr} (s : State) (k bit : Nat) (hok : s.Ok pq) : (State.retrainEnd s k bit).Ok pq := by
  unfold State.retrainEnd
  try dsimp only
  repeat' first | with_reducible assumption | with_reducible intro _ | with_reducible apply State.setRetrain_ok | with_reducible apply State.event_ok | with_reducible apply State.each_ok | with_reducible apply ok_ite | (fail_if_no_progress with_reducible apply ok_mk) | with_reducible apply each_ok

theorem State.bridgeFail_ok {pq : List Instr} (s : State) (k : Nat) (hok : s.Ok pq) : (State.bridgeFail s k).Ok pq := by
  unfold State.bridgeFail
  try dsimp only
  repeat' first | with_reducible assumption | with_reducible intro _ | with_reducible apply State.setFailed_ok | with_reducible apply State.bridgeDown_ok

theorem State.trainPhy_ok {pq : List Instr} (s : State) (k : Nat) (r : TrainIn) (hok : s.Ok pq) : OptOk pq (State.trainPhy s k r) := by
  unfold State.trainPhy
  try dsimp only
  repeat' first | with_reducible assumption | with_reducible intro _ | with_reducible apply State.setFld_ok | with_reducible apply State.setFlag_ok | with_reducible apply State.event_ok | with_reducible apply ok_ite | (fail_if_no_progress with_reducible apply ok_mk) | with_reducible apply each_ok | with_reducible apply next_ok | with_reducible apply some_ok | with_reducible apply none_ok | with_reducible refine ok_snd (by with_reducible assumption) ?_ | with_reducible refine ok_fst (by with_reducible assumption) ?_ | with_reducible refine ok_some (by with_reducible assumption) ?_ | with_reducible apply foldl_ok | split

theorem State.bootFail_ok {pq : List Instr} (s : State) (code detail : Nat) (hok : s.Ok pq) : (State.bootFail s code detail).Ok pq := by
  unfold State.bootFail
  try dsimp only
  repeat' first | with_reducible assumption | with_reducible intro _ | with_reducible apply State.setFld_ok | with_reducible apply State.setFlag_ok | with_reducible apply State.event_ok | with_reducible apply State.bootErr_ok

theorem State.strapConflict_ok {pq : List Instr} (s : State) (k t code : Nat) (hok : s.Ok pq) : (State.strapConflict s k t code).Ok pq := by
  unfold State.strapConflict
  try dsimp only
  repeat' first | with_reducible assumption | with_reducible intro _ | with_reducible apply State.setFld_ok | with_reducible apply State.each_ok | with_reducible apply State.event_ok | with_reducible apply State.trailPut_ok | with_reducible apply State.linkSet_ok | with_reducible apply State.bootFail_ok | with_reducible apply ok_ite | (fail_if_no_progress with_reducible apply ok_mk) | with_reducible apply each_ok

theorem State.sendNak_ok {pq : List Instr} (s : State) (k : Nat) (hok : s.Ok pq) : (State.sendNak s k).Ok pq := by
  unfold State.sendNak
  try dsimp only
  repeat' first | with_reducible assumption | with_reducible intro _ | with_reducible apply State.emit_ok | with_reducible apply State.setLend_ok | with_reducible apply ok_ite

theorem State.sendAck_ok {pq : List Instr} (s : State) (k : Nat) (hok : s.Ok pq) : (State.sendAck s k).Ok pq := by
  unfold State.sendAck
  try dsimp only
  repeat' first | with_reducible assumption | with_reducible intro _ | with_reducible apply State.emit_ok | with_reducible apply State.setLend_ok | with_reducible apply ok_ite | (fail_if_no_progress with_reducible apply ok_mk) | with_reducible apply each_ok | with_reducible apply next_ok | with_reducible refine ok_snd (by with_reducible assumption) ?_ | with_reducible refine ok_fst (by with_reducible assumption) ?_ | with_reducible refine ok_some (by with_reducible assumption) ?_ | with_reducible apply foldl_ok | split

theorem State.setCredits_ok {pq : List Instr} (s : State) (k vc n : Nat) (hok : s.Ok pq) : (State.setCredits s k vc n).Ok pq := by
  unfold State.setCredits
  try dsimp only
  repeat' first | with_reducible assumption | with_reducible intro _ | with_reducible apply State.setLend_ok

theorem State.sendFlit_ok {pq : List Instr} (s : State) (k vc : Nat) (data : List Byte) (hok : s.Ok pq) : (State.sendFlit s k vc data).Ok pq := by
  unfold State.sendFlit
  try dsimp only
  repeat' first | with_reducible assumption | with_reducible intro _ | with_reducible apply State.setCredits_ok | with_reducible apply State.setReplay_ok | with_reducible apply State.eset_ok | with_reducible apply State.emit_ok | with_reducible apply ok_ite

theorem State.fwdFlits_ok {pq : List Instr} (s : State) (k : Nat) (stuck : List Nat) (l : List RxFlit) (h : s.Ok pq) :
    (s.fwdFlits k stuck l).1.Ok pq := by
  induction l generalizing s stuck with
  | nil => exact h
  | cons f l ih =>
    unfold State.fwdFlits
    split
    · exact ih _ _ h
    · refine ok_ite_fst (ih _ _ ?_) (ih _ _ h)
      exact State.emit_ok _ _ (State.sendFlit_ok _ _ _ _ h)

theorem State.forward_ok {pq : List Instr} (s : State) (k : Nat) (hok : s.Ok pq) : (State.forward s k).Ok pq := by
  unfold State.forward
  try dsimp only
  repeat' first | with_reducible assumption | with_reducible intro _ | with_reducible apply State.fwdFlits_ok | with_reducible apply State.setLend_ok | with_reducible apply State.each_ok | with_reducible apply ok_ite | (fail_if_no_progress with_reducible apply ok_mk) | with_reducible apply each_ok

theorem State.flitOut_ok {pq : List Instr} (s : State) (k ch src dst : Nat) (data : List Byte) (hok : s.Ok pq) : (State.flitOut s k ch src dst data).Ok pq := by
  unfold State.flitOut
  try dsimp only
  repeat' first | with_reducible assumption | with_reducible intro _ | with_reducible apply State.forward_ok | with_reducible apply State.setLend_ok | with_reducible apply State.emit_ok | with_reducible apply ok_ite

theorem State.flitIn_ok {pq : List Instr} (s : State) (k seq ch src dst : Nat) (data : List Byte) (hok : s.Ok pq) : (State.flitIn s k seq ch src dst data).Ok pq := by
  unfold State.flitIn
  try dsimp only
  repeat' first | with_reducible assumption | with_reducible intro _ | with_reducible apply State.flitOut_ok | with_reducible apply State.sendAck_ok | with_reducible apply State.eset_ok | with_reducible apply State.setLend_ok | with_reducible apply State.satFld_ok | with_reducible apply ok_ite

theorem State.halfErr_ok {pq : List Instr} (s : State) (k : Nat) (hok : s.Ok pq) : (State.halfErr s k).Ok pq := by
  unfold State.halfErr
  try dsimp only
  repeat' first | with_reducible assumption | with_reducible intro _ | with_reducible apply State.satFld_ok | with_reducible apply State.setLend_ok | with_reducible apply State.sendNak_ok

theorem execBridgeBurstReceive_ok {pq : List Instr} (t : Fin 8) (d : Fin 4) (b : Burst) (s : State) (hok : s.Ok pq) : OutOk pq (execBridgeBurstReceive t d b s) := by
  unfold execBridgeBurstReceive
  try dsimp only
  repeat' first | with_reducible assumption | with_reducible intro _ | with_reducible apply State.halfErr_ok | with_reducible apply State.flitIn_ok | with_reducible apply State.sendNak_ok | with_reducible apply State.setLend_ok | with_reducible apply State.satFld_ok | with_reducible apply ok_ite | (fail_if_no_progress with_reducible apply ok_mk) | with_reducible apply each_ok | with_reducible apply next_ok | with_reducible refine ok_snd (by with_reducible assumption) ?_ | with_reducible refine ok_fst (by with_reducible assumption) ?_ | with_reducible refine ok_some (by with_reducible assumption) ?_ | with_reducible apply foldl_ok | split

theorem State.replayAll_ok {pq : List Instr} (s : State) (k : Nat) (hok : s.Ok pq) : (State.replayAll s k).Ok pq := by
  unfold State.replayAll
  try dsimp only
  repeat' first | with_reducible assumption | with_reducible intro _ | with_reducible apply State.satFld_ok | with_reducible apply State.emit_ok | with_reducible apply State.each_ok | with_reducible apply State.setReplay_ok | with_reducible apply ok_ite | (fail_if_no_progress with_reducible apply ok_mk) | with_reducible apply each_ok | with_reducible apply next_ok | with_reducible refine ok_snd (by with_reducible assumption) ?_ | with_reducible refine ok_fst (by with_reducible assumption) ?_ | with_reducible refine ok_some (by with_reducible assumption) ?_ | with_reducible apply foldl_ok | split

theorem State.ackIn_ok {pq : List Instr} (s : State) (k : Nat) (nak : Bool) (seq : Nat) (hok : s.Ok pq) : (State.ackIn s k nak seq).Ok pq := by
  unfold State.ackIn
  try dsimp only
  repeat' first | with_reducible assumption | with_reducible intro _ | with_reducible apply State.setReplay_ok | with_reducible apply State.replayAll_ok | with_reducible apply ok_ite | (fail_if_no_progress with_reducible apply ok_mk) | with_reducible apply each_ok | with_reducible apply next_ok | with_reducible refine ok_snd (by with_reducible assumption) ?_ | with_reducible refine ok_fst (by with_reducible assumption) ?_ | with_reducible refine ok_some (by with_reducible assumption) ?_ | with_reducible apply foldl_ok | split

theorem State.creditsIn_ok {pq : List Instr} (s : State) (k : Nat) (ns : List Nat) (hok : s.Ok pq) : (State.creditsIn s k ns).Ok pq := by
  unfold State.creditsIn
  try dsimp only
  repeat' first | with_reducible assumption | with_reducible intro _ | with_reducible apply State.setCredits_ok | with_reducible apply State.each_ok | with_reducible apply ok_ite | (fail_if_no_progress with_reducible apply ok_mk) | with_reducible apply each_ok

theorem execAckNakReceive_ok {pq : List Instr} (e : LinkEndId) (w : AckWord) (s : State) (hok : s.Ok pq) : OutOk pq (execAckNakReceive e w s) := by
  unfold execAckNakReceive
  try dsimp only
  repeat' first | with_reducible assumption | with_reducible intro _ | with_reducible apply State.creditsIn_ok | with_reducible apply State.ackIn_ok | with_reducible apply State.forward_ok | with_reducible apply ok_ite | (fail_if_no_progress with_reducible apply ok_mk) | with_reducible apply each_ok | with_reducible apply next_ok | with_reducible refine ok_snd (by with_reducible assumption) ?_ | with_reducible refine ok_fst (by with_reducible assumption) ?_ | with_reducible refine ok_some (by with_reducible assumption) ?_ | with_reducible apply foldl_ok | split

theorem State.fecCount_ok {pq : List Instr} (s : State) (k n : Nat) (hok : s.Ok pq) : (State.fecCount s k n).Ok pq := by
  unfold State.fecCount
  try dsimp only
  repeat' first | with_reducible assumption | with_reducible intro _ | with_reducible apply State.setLend_ok | with_reducible apply State.satFld_ok

theorem State.serCrcErr_ok {pq : List Instr} (s : State) (k : Nat) (hok : s.Ok pq) : (State.serCrcErr s k).Ok pq := by
  unfold State.serCrcErr
  try dsimp only
  repeat' first | with_reducible assumption | with_reducible intro _ | with_reducible apply State.sendNak_ok | with_reducible apply State.setLend_ok

theorem execBundleFlitReceive_ok {pq : List Instr} (t : Fin 8) (hub : Bool) (f : BundleFlit) (s : State) (hok : s.Ok pq) : OutOk pq (execBundleFlitReceive t hub f s) := by
  unfold execBundleFlitReceive
  try dsimp only
  repeat' first | with_reducible assumption | with_reducible intro _ | with_reducible apply State.serCrcErr_ok | with_reducible apply State.fecCount_ok | with_reducible apply State.ackIn_ok | with_reducible apply State.flitIn_ok | with_reducible apply State.setCredits_ok | with_reducible apply State.satFld_ok | with_reducible apply ok_ite | (fail_if_no_progress with_reducible apply ok_mk) | with_reducible apply each_ok | with_reducible apply next_ok | with_reducible refine ok_snd (by with_reducible assumption) ?_ | with_reducible refine ok_fst (by with_reducible assumption) ?_ | with_reducible refine ok_some (by with_reducible assumption) ?_ | with_reducible apply foldl_ok | split

theorem execReplayTimerExpiry_ok {pq : List Instr} (e : LinkEndId) (s : State) (hok : s.Ok pq) : OutOk pq (execReplayTimerExpiry e s) := by
  unfold execReplayTimerExpiry
  try dsimp only
  repeat' first | with_reducible assumption | with_reducible intro _ | with_reducible apply State.replayAll_ok | with_reducible apply ok_ite | (fail_if_no_progress with_reducible apply ok_mk) | with_reducible apply each_ok | with_reducible apply next_ok

theorem execAckIntervalTimer_ok {pq : List Instr} (e : LinkEndId) (s : State) (hok : s.Ok pq) : OutOk pq (execAckIntervalTimer e s) := by
  unfold execAckIntervalTimer
  try dsimp only
  repeat' first | with_reducible assumption | with_reducible intro _ | with_reducible apply State.sendAck_ok | with_reducible apply ok_ite | (fail_if_no_progress with_reducible apply ok_mk) | with_reducible apply each_ok | with_reducible apply next_ok

theorem execKeepAliveSend_ok {pq : List Instr} (e : LinkEndId) (s : State) (hok : s.Ok pq) : OutOk pq (execKeepAliveSend e s) := by
  unfold execKeepAliveSend
  try dsimp only
  repeat' first | with_reducible assumption | with_reducible intro _ | with_reducible apply State.sendFlit_ok | with_reducible apply State.emit_ok | with_reducible apply ok_ite | (fail_if_no_progress with_reducible apply ok_mk) | with_reducible apply each_ok | with_reducible apply next_ok

theorem State.linkActive_ok {pq : List Instr} (s : State) (k : Nat) (hok : s.Ok pq) : (State.linkActive s k).Ok pq := by
  unfold State.linkActive
  try dsimp only
  repeat' first | with_reducible assumption | with_reducible intro _ | with_reducible apply State.forward_ok | with_reducible apply State.retrainEnd_ok | with_reducible apply State.reroute_ok | with_reducible apply State.linkSet_ok | with_reducible apply State.endClear_ok | with_reducible apply State.setLend_ok | with_reducible apply State.each_ok | with_reducible apply ok_ite | (fail_if_no_progress with_reducible apply ok_mk) | with_reducible apply each_ok

theorem State.putIdent_ok {pq : List Instr} (s : State) (pg : Nat) (v : Nat × Nat) (hok : s.Ok pq) : (State.putIdent s pg v).Ok pq := by
  unfold State.putIdent
  try dsimp only
  repeat' first | with_reducible assumption | with_reducible intro _ | with_reducible apply State.setFlag_ok | with_reducible apply State.setFld_ok

theorem State.bundleIdent_ok {pq : List Instr} (s : State) (t : Nat) (r : TrainIn) (hok : s.Ok pq) : (State.bundleIdent s t r).Ok pq := by
  unfold State.bundleIdent
  try dsimp only
  repeat' first | with_reducible assumption | with_reducible intro _ | with_reducible apply State.putIdent_ok | with_reducible apply State.linkActive_ok | with_reducible apply State.strapConflict_ok | with_reducible apply State.setFlag_ok | with_reducible apply ok_ite

theorem State.bridgeIdent_ok {pq : List Instr} (s : State) (k : Nat) (r : TrainIn) (hok : s.Ok pq) : (State.bridgeIdent s k r).Ok pq := by
  unfold State.bridgeIdent
  try dsimp only
  repeat' first | with_reducible assumption | with_reducible intro _ | with_reducible apply State.linkActive_ok | with_reducible apply State.strapConflict_ok | with_reducible apply State.event_ok | with_reducible apply State.each_ok | with_reducible apply State.setFld_ok | with_reducible apply ok_ite | (fail_if_no_progress with_reducible apply ok_mk) | with_reducible apply each_ok | with_reducible refine ok_snd (by with_reducible assumption) ?_ | with_reducible refine ok_fst (by with_reducible assumption) ?_ | with_reducible refine ok_some (by with_reducible assumption) ?_ | with_reducible apply foldl_ok | split

theorem State.trainFailed_ok {pq : List Instr} (s : State) (k : Nat) (hok : s.Ok pq) : (State.trainFailed s k).Ok pq := by
  unfold State.trainFailed
  try dsimp only
  repeat' first | with_reducible assumption | with_reducible intro _ | with_reducible apply State.retrainEnd_ok | with_reducible apply State.setFailed_ok | with_reducible apply State.linkSet_ok

theorem State.retrain_ok {pq : List Instr} (s : State) (k : Nat) (hok : s.Ok pq) : (State.retrain s k).Ok pq := by
  unfold State.retrain
  try dsimp only
  repeat' first | with_reducible assumption | with_reducible intro _ | with_reducible apply State.linkSet_ok | with_reducible apply State.setLend_ok | with_reducible apply State.each_ok | with_reducible apply ok_ite | (fail_if_no_progress with_reducible apply ok_mk) | with_reducible apply each_ok

theorem State.retrainAsked_ok {pq : List Instr} (s : State) (k : Nat) (hok : s.Ok pq) : (State.retrainAsked s k).Ok pq := by
  unfold State.retrainAsked
  try dsimp only
  repeat' first | with_reducible assumption | with_reducible intro _ | with_reducible apply State.retrain_ok | with_reducible apply State.setFailed_ok | with_reducible apply State.linkSet_ok | with_reducible apply ok_ite

theorem State.drainDown_ok {pq : List Instr} (s : State) (k : Nat) (hok : s.Ok pq) : (State.drainDown s k).Ok pq := by
  unfold State.drainDown
  try dsimp only
  repeat' first | with_reducible assumption | with_reducible intro _ | with_reducible apply State.each_ok | with_reducible apply State.setLend_ok | with_reducible apply State.linkSet_ok | with_reducible apply State.bridgeDown_ok | with_reducible apply ok_ite | (fail_if_no_progress with_reducible apply ok_mk) | with_reducible apply each_ok | with_reducible apply next_ok | with_reducible refine ok_snd (by with_reducible assumption) ?_ | with_reducible refine ok_fst (by with_reducible assumption) ?_ | with_reducible refine ok_some (by with_reducible assumption) ?_ | with_reducible apply foldl_ok | split

theorem State.drainForReset_ok {pq : List Instr} (s : State) (k : Nat) (hok : s.Ok pq) : (State.drainForReset s k).Ok pq := by
  unfold State.drainForReset
  try dsimp only
  repeat' first | with_reducible assumption | with_reducible intro _ | with_reducible apply State.linkSet_ok | with_reducible apply State.setRetrain_ok | with_reducible apply State.setLend_ok | with_reducible apply State.each_ok | with_reducible apply ok_ite | (fail_if_no_progress with_reducible apply ok_mk) | with_reducible apply each_ok | with_reducible refine ok_snd (by with_reducible assumption) ?_ | with_reducible refine ok_fst (by with_reducible assumption) ?_ | with_reducible refine ok_some (by with_reducible assumption) ?_ | with_reducible apply foldl_ok | split

theorem execReplayLimitReached_ok {pq : List Instr} (e : LinkEndId) (s : State) (hok : s.Ok pq) : OutOk pq (execReplayLimitReached e s) := by
  unfold execReplayLimitReached
  try dsimp only
  repeat' first | with_reducible assumption | with_reducible intro _ | with_reducible apply State.event_ok | with_reducible apply State.retrain_ok | with_reducible apply ok_ite | (fail_if_no_progress with_reducible apply ok_mk) | with_reducible apply each_ok | with_reducible apply next_ok

theorem execFecThresholdExceeded_ok {pq : List Instr} (t : Fin 8) (hub : Bool) (s : State) (hok : s.Ok pq) : OutOk pq (execFecThresholdExceeded t hub s) := by
  unfold execFecThresholdExceeded
  try dsimp only
  repeat' first | with_reducible assumption | with_reducible intro _ | with_reducible apply State.retrain_ok | with_reducible apply ok_ite | (fail_if_no_progress with_reducible apply ok_mk) | with_reducible apply each_ok | with_reducible apply next_ok

theorem execLinkDrainDone_ok {pq : List Instr} (l : LinkId) (s : State) (hok : s.Ok pq) : OutOk pq (execLinkDrainDone l s) := by
  unfold execLinkDrainDone
  try dsimp only
  repeat' first | with_reducible assumption | with_reducible intro _ | with_reducible apply State.bridgeDown_ok | with_reducible apply State.reroute_ok | with_reducible apply State.linkSet_ok | with_reducible apply State.endClear_ok | with_reducible apply State.each_ok | with_reducible apply ok_ite | (fail_if_no_progress with_reducible apply ok_mk) | with_reducible apply each_ok | with_reducible apply next_ok

theorem execLinkRetrainDone_ok {pq : List Instr} (l : LinkId) (r : TrainIn) (s : State) (hok : s.Ok pq) : OutOk pq (execLinkRetrainDone l r s) := by
  unfold execLinkRetrainDone
  try dsimp only
  repeat' first | with_reducible assumption | with_reducible intro _ | with_reducible apply State.each_ok | with_reducible apply State.event_ok | with_reducible apply State.trainPhy_ok | with_reducible apply State.linkActive_ok | with_reducible apply ok_ite | (fail_if_no_progress with_reducible apply ok_mk) | with_reducible apply each_ok | with_reducible apply next_ok | with_reducible refine ok_snd (by with_reducible assumption) ?_ | with_reducible refine ok_fst (by with_reducible assumption) ?_ | with_reducible refine ok_some (by with_reducible assumption) ?_ | with_reducible apply foldl_ok | split

theorem State.clockLost_ok {pq : List Instr} (s : State) (pg block t : Nat) (hok : s.Ok pq) : (State.clockLost s pg block t).Ok pq := by
  unfold State.clockLost
  try dsimp only
  repeat' first | with_reducible assumption | with_reducible intro _ | with_reducible apply State.emit_ok | with_reducible apply State.event_ok | with_reducible apply State.trailPut_ok

theorem execLinkWatchdogExpiry_ok {pq : List Instr} (e : LinkEndId) (s : State) (hok : s.Ok pq) : OutOk pq (execLinkWatchdogExpiry e s) := by
  unfold execLinkWatchdogExpiry
  try dsimp only
  repeat' first | with_reducible assumption | with_reducible intro _ | with_reducible apply State.clockLost_ok | with_reducible apply ok_ite | (fail_if_no_progress with_reducible apply ok_mk) | with_reducible apply each_ok | with_reducible apply next_ok

theorem execDclkLossReport_ok {pq : List Instr} (x : Fin 512) (s : State) (hok : s.Ok pq) : OutOk pq (execDclkLossReport x s) := by
  unfold execDclkLossReport
  try dsimp only
  repeat' first | with_reducible assumption | with_reducible intro _ | with_reducible apply State.emit_ok | with_reducible apply State.trailPut_ok | with_reducible apply ok_ite | (fail_if_no_progress with_reducible apply ok_mk) | with_reducible apply each_ok | with_reducible apply next_ok

theorem State.lnkRetrainWrite_ok {pq : List Instr} (s : State) (k : Nat) (hok : s.Ok pq) : (State.lnkRetrainWrite s k).Ok pq := by
  unfold State.lnkRetrainWrite
  try dsimp only
  repeat' first | with_reducible assumption | with_reducible intro _ | with_reducible apply State.retrainAsked_ok | with_reducible apply State.setRetrain_ok | with_reducible apply ok_ite

theorem execLnkRetrain_ok {pq : List Instr} (rq : Requester) (t : Fin 8) (d : Fin 4) (s : State) (hok : s.Ok pq) : OutOk pq (execLnkRetrain rq t d s) := by
  unfold execLnkRetrain
  try dsimp only
  repeat' first | with_reducible assumption | with_reducible intro _ | with_reducible apply State.lnkRetrainWrite_ok | with_reducible apply State.tileWrite_ok | with_reducible apply ok_ite | (fail_if_no_progress with_reducible apply ok_mk) | with_reducible apply each_ok | with_reducible apply next_ok

theorem execSerRetrain_ok {pq : List Instr} (rq : Requester) (t : Fin 8) (hub : Bool) (s : State) (hok : s.Ok pq) : OutOk pq (execSerRetrain rq t hub s) := by
  unfold execSerRetrain
  try dsimp only
  repeat' first | with_reducible assumption | with_reducible intro _ | with_reducible apply State.lnkRetrainWrite_ok | with_reducible apply State.tileWrite_ok | with_reducible apply ok_ite | (fail_if_no_progress with_reducible apply ok_mk) | with_reducible apply each_ok | with_reducible apply next_ok

theorem State.lnkForceWrite_ok {pq : List Instr} (s : State) (rq : Requester) (k : Nat) (v : Bool) (hok : s.Ok pq) : (State.lnkForceWrite s rq k v).Ok pq := by
  unfold State.lnkForceWrite
  try dsimp only
  repeat' first | with_reducible assumption | with_reducible intro _ | with_reducible apply State.rwlWrite_ok | with_reducible apply State.drainDown_ok | with_reducible apply ok_ite

theorem execLnkForceDown_ok {pq : List Instr} (rq : Requester) (t : Fin 8) (d : Fin 4) (v : Bool) (s : State) (hok : s.Ok pq) : OutOk pq (execLnkForceDown rq t d v s) := by
  unfold execLnkForceDown
  try dsimp only
  repeat' first | with_reducible assumption | with_reducible intro _ | with_reducible apply State.lnkForceWrite_ok | with_reducible apply State.tileWrite_ok | with_reducible apply ok_ite | (fail_if_no_progress with_reducible apply ok_mk) | with_reducible apply each_ok | with_reducible apply next_ok

theorem State.lnkEnableWrite_ok {pq : List Instr} (s : State) (rq : Requester) (k : Nat) (v : Bool) (hok : s.Ok pq) : (State.lnkEnableWrite s rq k v).Ok pq := by
  unfold State.lnkEnableWrite
  try dsimp only
  repeat' first | with_reducible assumption | with_reducible intro _ | with_reducible apply State.drainDown_ok | with_reducible apply State.linkSet_ok | with_reducible apply State.rwlWrite_ok | with_reducible apply ok_ite

theorem execLnkEnable_ok {pq : List Instr} (rq : Requester) (t : Fin 8) (d : Fin 4) (v : Bool) (s : State) (hok : s.Ok pq) : OutOk pq (execLnkEnable rq t d v s) := by
  unfold execLnkEnable
  try dsimp only
  repeat' first | with_reducible assumption | with_reducible intro _ | with_reducible apply State.lnkEnableWrite_ok | with_reducible apply State.tileWrite_ok | with_reducible apply ok_ite | (fail_if_no_progress with_reducible apply ok_mk) | with_reducible apply each_ok | with_reducible apply next_ok

theorem State.lnkCntClear_ok {pq : List Instr} (s : State) (t d : Nat) (hok : s.Ok pq) : (State.lnkCntClear s t d).Ok pq := by
  unfold State.lnkCntClear
  try dsimp only
  repeat' first | with_reducible assumption | with_reducible intro _ | with_reducible apply State.setFld_ok | with_reducible apply State.each_ok | with_reducible apply ok_ite | (fail_if_no_progress with_reducible apply ok_mk) | with_reducible apply each_ok

theorem execLnkClrCnt_ok {pq : List Instr} (rq : Requester) (t : Fin 8) (d : Fin 4) (s : State) (hok : s.Ok pq) : OutOk pq (execLnkClrCnt rq t d s) := by
  unfold execLnkClrCnt
  try dsimp only
  repeat' first | with_reducible assumption | with_reducible intro _ | with_reducible apply State.lnkCntClear_ok | with_reducible apply State.tileWrite_ok | with_reducible apply ok_ite | (fail_if_no_progress with_reducible apply ok_mk) | with_reducible apply each_ok | with_reducible apply next_ok

theorem State.serCntClear_ok {pq : List Instr} (s : State) (pg : Nat) (hok : s.Ok pq) : (State.serCntClear s pg).Ok pq := by
  unfold State.serCntClear
  try dsimp only
  repeat' first | with_reducible assumption | with_reducible intro _ | with_reducible apply State.setFld_ok | with_reducible apply State.each_ok | with_reducible apply ok_ite | (fail_if_no_progress with_reducible apply ok_mk) | with_reducible apply each_ok

theorem execSerClrCnt_ok {pq : List Instr} (rq : Requester) (t : Fin 8) (hub : Bool) (s : State) (hok : s.Ok pq) : OutOk pq (execSerClrCnt rq t hub s) := by
  unfold execSerClrCnt
  try dsimp only
  repeat' first | with_reducible assumption | with_reducible intro _ | with_reducible apply State.serCntClear_ok | with_reducible apply State.tileWrite_ok | with_reducible apply ok_ite | (fail_if_no_progress with_reducible apply ok_mk) | with_reducible apply each_ok | with_reducible apply next_ok

/-! Resets. -/

theorem State.coreHalt_ok {pq : List Instr} (s : State) (x : Nat) (hok : s.Ok pq) : (State.coreHalt s x).Ok pq := by
  unfold State.coreHalt
  try dsimp only
  repeat' first | with_reducible assumption | with_reducible intro _ | with_reducible apply State.setFld_ok | with_reducible apply ok_ite

theorem State.cluHalt_ok {pq : List Instr} (s : State) (cl : Nat) (hok : s.Ok pq) : (State.cluHalt s cl).Ok pq := by
  unfold State.cluHalt
  try dsimp only
  repeat' first | with_reducible assumption | with_reducible intro _ | with_reducible apply State.each_ok | with_reducible apply State.coreHalt_ok | with_reducible apply ok_ite | (fail_if_no_progress with_reducible apply ok_mk) | with_reducible apply each_ok

theorem State.ptQuiesce_ok {pq : List Instr} (s : State) (p scope : Nat) (hok : s.Ok pq) : (State.ptQuiesce s p scope).Ok pq := by
  unfold State.ptQuiesce
  try dsimp only
  repeat' first | with_reducible assumption | with_reducible intro _ | with_reducible apply State.each_ok | with_reducible apply State.hpcStop_ok | with_reducible apply State.setPtState_ok | with_reducible apply State.setPaused_ok | with_reducible apply State.stopJobs_ok | with_reducible apply State.tnQuiesce_ok | with_reducible apply State.cluHalt_ok | with_reducible apply ok_ite | (fail_if_no_progress with_reducible apply ok_mk) | with_reducible apply each_ok

theorem State.rstQuiesce_ok {pq : List Instr} (s : State) (r : Rst) (hok : s.Ok pq) : (State.rstQuiesce s r).Ok pq := by
  unfold State.rstQuiesce
  try dsimp only
  repeat' first | with_reducible assumption | with_reducible intro _ | with_reducible apply State.ptQuiesce_ok | with_reducible apply State.cluHalt_ok | with_reducible apply State.coreHalt_ok | with_reducible apply State.drainForReset_ok | with_reducible apply State.stopJobs_ok | with_reducible apply State.each_ok | with_reducible apply ok_ite | (fail_if_no_progress with_reducible apply ok_mk) | with_reducible apply each_ok | with_reducible refine ok_snd (by with_reducible assumption) ?_ | with_reducible refine ok_fst (by with_reducible assumption) ?_ | with_reducible refine ok_some (by with_reducible assumption) ?_ | with_reducible apply foldl_ok | split

theorem State.rstStart_ok {pq : List Instr} (s : State) (scope target : Nat) (hok : s.Ok pq) : (State.rstStart s scope target).Ok pq := by
  unfold State.rstStart
  try dsimp only
  repeat' first | with_reducible assumption | with_reducible intro _ | with_reducible apply State.rstQuiesce_ok | with_reducible apply ok_ite | (fail_if_no_progress with_reducible apply ok_mk)

theorem State.coreAbsorb_ok {pq : List Instr} (s : State) (x code : Nat) (hok : s.Ok pq) : (State.coreAbsorb s x code).Ok pq := by
  unfold State.coreAbsorb
  try dsimp only
  repeat' first | with_reducible assumption | with_reducible intro _ | with_reducible apply State.endJobs_ok | with_reducible apply State.coreWipe_ok | with_reducible apply State.hdrResets_ok

theorem State.cluAbsorb_ok {pq : List Instr} (s : State) (cl code : Nat) (hok : s.Ok pq) : (State.cluAbsorb s cl code).Ok pq := by
  unfold State.cluAbsorb
  try dsimp only
  repeat' first | with_reducible assumption | with_reducible intro _ | with_reducible apply State.coreAbsorb_ok | with_reducible apply State.labRemove_ok | with_reducible apply State.hdrResets_ok | with_reducible apply State.each_ok | with_reducible apply ok_ite | (fail_if_no_progress with_reducible apply ok_mk) | with_reducible apply each_ok

theorem State.ptAbsorb_ok {pq : List Instr} (s : State) (p code : Nat) (hok : s.Ok pq) : (State.ptAbsorb s p code).Ok pq := by
  unfold State.ptAbsorb
  try dsimp only
  repeat' first | with_reducible assumption | with_reducible intro _ | with_reducible apply State.each_ok | with_reducible apply State.hmpPartClear_ok | with_reducible apply State.kvPartReset_ok | with_reducible apply State.hpcStopped_ok | with_reducible apply State.ptUngrant_ok | with_reducible apply State.ptUnspare_ok | with_reducible apply State.endJobs_ok | with_reducible apply State.tnAbsorb_ok | with_reducible apply State.ptRstFault_ok | with_reducible apply State.cluAbsorb_ok | with_reducible apply ok_ite | (fail_if_no_progress with_reducible apply ok_mk) | with_reducible apply each_ok | with_reducible apply next_ok | with_reducible refine ok_snd (by with_reducible assumption) ?_ | with_reducible refine ok_fst (by with_reducible assumption) ?_ | with_reducible refine ok_some (by with_reducible assumption) ?_ | with_reducible apply foldl_ok | split

theorem State.tileSlices_ok {pq : List Instr} (s : State) (t : Nat) (hok : s.Ok pq) : (State.tileSlices s t).Ok pq := by
  unfold State.tileSlices
  try dsimp only
  repeat' first | with_reducible assumption | with_reducible intro _ | with_reducible apply State.setSliceState_ok | with_reducible apply State.each_ok | with_reducible apply ok_ite | (fail_if_no_progress with_reducible apply ok_mk) | with_reducible apply ok_hmp_wr | with_reducible apply ok_hmp_clear | with_reducible apply ok_hmp_poison | with_reducible apply ok_stores_wr | with_reducible apply ok_stores_clear | with_reducible apply ok_stores_poison | with_reducible apply ok_slices_write | with_reducible apply ok_slices_clear | with_reducible apply ok_slices_pois | with_reducible apply ok_slices_markBoth | with_reducible apply ok_hmp_fold | with_reducible apply Mem.wf_clear | with_reducible apply Mem.wf_wr | with_reducible apply Mem.wf_land | with_reducible apply each_ok

theorem State.regulatorOn_ok {pq : List Instr} (s : State) (t : Nat) (hok : s.Ok pq) : (State.regulatorOn s t).Ok pq := by
  unfold State.regulatorOn
  try dsimp only
  repeat' first | with_reducible assumption | with_reducible intro _ | with_reducible apply State.setFld_ok | with_reducible apply State.setFlag_ok | with_reducible apply State.domSync_ok | with_reducible apply ok_ite

theorem State.tileBuffers_ok {pq : List Instr} (s : State) (t : Nat) (hok : s.Ok pq) : (State.tileBuffers s t).Ok pq := by
  unfold State.tileBuffers
  try dsimp only
  repeat' first | with_reducible assumption | with_reducible intro _ | with_reducible apply State.setLend_ok | with_reducible apply State.each_ok | with_reducible apply ok_ite | (fail_if_no_progress with_reducible apply ok_mk) | with_reducible apply each_ok

theorem State.tileAbsorb_ok {pq : List Instr} (s : State) (t : Nat) (hok : s.Ok pq) : (State.tileAbsorb s t).Ok pq := by
  unfold State.tileAbsorb
  try dsimp only
  repeat' first | with_reducible assumption | with_reducible intro _ | with_reducible apply State.tileBuffers_ok | with_reducible apply State.regulatorOn_ok | with_reducible apply State.tileSlices_ok | with_reducible apply State.ptAbsorb_ok | with_reducible apply State.cluAbsorb_ok | with_reducible apply State.setFailed_ok | with_reducible apply State.reroute_ok | with_reducible apply State.linkSet_ok | with_reducible apply State.hdrResets_ok | with_reducible apply State.each_ok | with_reducible apply State.setFlag_ok | with_reducible apply ok_ite | (fail_if_no_progress with_reducible apply ok_mk) | with_reducible apply each_ok

theorem State.rstAbsorb_ok {pq : List Instr} (s : State) (r : Rst) (hok : s.Ok pq) : (State.rstAbsorb s r).Ok pq := by
  unfold State.rstAbsorb
  try dsimp only
  repeat' first | with_reducible assumption | with_reducible intro _ | with_reducible apply State.each_ok | with_reducible apply State.clearStores_ok | with_reducible apply State.tnAbsorb_ok | with_reducible apply State.setRst_ok | with_reducible apply State.coreAbsorb_ok | with_reducible apply State.cluAbsorb_ok | with_reducible apply State.ptAbsorb_ok | with_reducible apply State.tileAbsorb_ok | with_reducible apply ok_ite | (fail_if_no_progress with_reducible apply ok_mk) | with_reducible apply each_ok | with_reducible apply next_ok | with_reducible refine ok_snd (by with_reducible assumption) ?_ | with_reducible refine ok_fst (by with_reducible assumption) ?_ | with_reducible refine ok_some (by with_reducible assumption) ?_ | with_reducible apply foldl_ok | split

theorem execResetAbsorbPoint_ok {pq : List Instr} (scope : Fin 8) (target : Fin 512) (s : State) (hok : s.Ok pq) : OutOk pq (execResetAbsorbPoint scope target s) := by
  unfold execResetAbsorbPoint
  try dsimp only
  repeat' first | with_reducible assumption | with_reducible intro _ | with_reducible apply State.rstAbsorb_ok | with_reducible apply ok_ite | (fail_if_no_progress with_reducible apply ok_mk) | with_reducible apply each_ok | with_reducible apply next_ok | with_reducible refine ok_snd (by with_reducible assumption) ?_ | with_reducible refine ok_fst (by with_reducible assumption) ?_ | with_reducible refine ok_some (by with_reducible assumption) ?_ | with_reducible apply foldl_ok | split

theorem State.rstEnd_ok {pq : List Instr} (s : State) (r : Rst) (hok : s.Ok pq) : (State.rstEnd s r).Ok pq := by
  unfold State.rstEnd
  try dsimp only
  repeat' first | with_reducible assumption | with_reducible intro _ | with_reducible apply State.rstLast_ok | with_reducible apply State.rstDrop_ok

theorem State.ptFinish_ok {pq : List Instr} (s : State) (p : Nat) (hok : s.Ok pq) : (State.ptFinish s p).Ok pq := by
  unfold State.ptFinish
  try dsimp only
  repeat' first | with_reducible assumption | with_reducible intro _ | with_reducible apply State.setFld_ok | with_reducible apply State.each_ok | with_reducible apply State.event_ok | with_reducible apply State.setPtState_ok | with_reducible apply State.setPaused_ok | with_reducible apply State.setTnState_ok | with_reducible apply State.tnFinish_ok | with_reducible apply State.ptResetCmdEnd_ok | with_reducible apply ok_ite | (fail_if_no_progress with_reducible apply ok_mk) | with_reducible apply each_ok

theorem State.ptRebuild_ok {pq : List Instr} (s : State) (p : Nat) (wipe : Bool) (hok : s.Ok pq) : (State.ptRebuild s p wipe).Ok pq := by
  unfold State.ptRebuild
  try dsimp only
  repeat' first | with_reducible assumption | with_reducible intro _ | with_reducible apply State.each_ok | with_reducible apply State.rebuild_ok | with_reducible apply State.kvPartRestore_ok | with_reducible apply State.coreBoot_ok | with_reducible apply State.ptRstFault_ok | with_reducible apply ok_ite | (fail_if_no_progress with_reducible apply ok_mk) | with_reducible apply each_ok | with_reducible apply next_ok | with_reducible refine ok_snd (by with_reducible assumption) ?_ | with_reducible refine ok_fst (by with_reducible assumption) ?_ | with_reducible refine ok_some (by with_reducible assumption) ?_ | with_reducible apply foldl_ok | split

theorem State.rstRebuild_ok {pq : List Instr} (s : State) (r : Rst) (hok : s.Ok pq) : (State.rstRebuild s r).Ok pq := by
  unfold State.rstRebuild
  try dsimp only
  repeat' first | with_reducible assumption | with_reducible intro _ | with_reducible apply State.setFlag_ok | with_reducible apply State.each_ok | with_reducible apply State.domSync_ok | with_reducible apply State.mapTile_ok | with_reducible apply State.tileCount_ok | with_reducible apply State.coreBoot_ok | with_reducible apply State.subsApply_ok | with_reducible apply State.setRst_ok | with_reducible apply State.ptRebuild_ok | with_reducible apply ok_ite | (fail_if_no_progress with_reducible apply ok_mk) | with_reducible apply each_ok | with_reducible apply next_ok | with_reducible refine ok_snd (by with_reducible assumption) ?_ | with_reducible refine ok_fst (by with_reducible assumption) ?_ | with_reducible refine ok_some (by with_reducible assumption) ?_ | with_reducible apply foldl_ok | split

theorem State.rstRelease_ok {pq : List Instr} (s : State) (r : Rst) (hok : s.Ok pq) : (State.rstRelease s r).Ok pq := by
  unfold State.rstRelease
  try dsimp only
  repeat' first | with_reducible assumption | with_reducible intro _ | with_reducible apply State.each_ok | with_reducible apply State.tileCount_ok | with_reducible apply State.rstDrop_ok | with_reducible apply State.rstEnd_ok | with_reducible apply State.ptFinish_ok | with_reducible apply ok_ite | (fail_if_no_progress with_reducible apply ok_mk) | with_reducible apply each_ok | with_reducible apply next_ok | with_reducible refine ok_snd (by with_reducible assumption) ?_ | with_reducible refine ok_fst (by with_reducible assumption) ?_ | with_reducible refine ok_some (by with_reducible assumption) ?_ | with_reducible apply foldl_ok | split

theorem State.rstRestore_ok {pq : List Instr} (s : State) (r : Rst) (hok : s.Ok pq) : (State.rstRestore s r).Ok pq := by
  unfold State.rstRestore
  try dsimp only
  repeat' first | with_reducible assumption | with_reducible intro _ | with_reducible apply State.tnRelease_ok | with_reducible apply State.rstRebuild_ok | with_reducible apply State.rstRelease_ok | with_reducible apply ok_ite | (fail_if_no_progress with_reducible apply ok_mk) | with_reducible apply each_ok | with_reducible apply next_ok | with_reducible refine ok_snd (by with_reducible assumption) ?_ | with_reducible refine ok_fst (by with_reducible assumption) ?_ | with_reducible refine ok_some (by with_reducible assumption) ?_ | with_reducible apply foldl_ok | split

theorem execResetRestore_ok {pq : List Instr} (scope : Fin 8) (target : Fin 512) (s : State) (hok : s.Ok pq) : OutOk pq (execResetRestore scope target s) := by
  unfold execResetRestore
  try dsimp only
  repeat' first | with_reducible assumption | with_reducible intro _ | with_reducible apply State.rstRestore_ok | with_reducible apply ok_ite | (fail_if_no_progress with_reducible apply ok_mk) | with_reducible apply each_ok | with_reducible apply next_ok | with_reducible refine ok_snd (by with_reducible assumption) ?_ | with_reducible refine ok_fst (by with_reducible assumption) ?_ | with_reducible refine ok_some (by with_reducible assumption) ?_ | with_reducible apply foldl_ok | split

theorem State.hubRstWrite_ok {pq : List Instr} (s : State) (rq : Requester) (scope target : Nat) (go : Bool) (hok : s.Ok pq) : (State.hubRstWrite s rq scope target go).Ok pq := by
  unfold State.hubRstWrite
  try dsimp only
  repeat' first | with_reducible assumption | with_reducible intro _ | with_reducible apply State.rstStart_ok | with_reducible apply State.countErr_ok | with_reducible apply State.setFlag_ok | with_reducible apply State.setFld_ok | with_reducible apply ok_ite | (fail_if_no_progress with_reducible apply ok_mk)

theorem execCoreReset_ok {pq : List Instr} (rq : Requester) (target : Fin 512) (s : State) (hok : s.Ok pq) : OutOk pq (execCoreReset rq target s) := by
  unfold execCoreReset
  try dsimp only
  repeat' first | with_reducible assumption | with_reducible intro _ | with_reducible apply State.privWrite_ok | with_reducible apply State.hubRstWrite_ok | with_reducible apply ok_ite | (fail_if_no_progress with_reducible apply ok_mk) | with_reducible apply each_ok | with_reducible apply next_ok

theorem execClusterReset_ok {pq : List Instr} (rq : Requester) (target : Fin 512) (s : State) (hok : s.Ok pq) : OutOk pq (execClusterReset rq target s) := by
  unfold execClusterReset
  try dsimp only
  repeat' first | with_reducible assumption | with_reducible intro _ | with_reducible apply State.privWrite_ok | with_reducible apply State.hubRstWrite_ok | with_reducible apply ok_ite | (fail_if_no_progress with_reducible apply ok_mk) | with_reducible apply each_ok | with_reducible apply next_ok

theorem execTileReset_ok {pq : List Instr} (rq : Requester) (target : Fin 512) (s : State) (hok : s.Ok pq) : OutOk pq (execTileReset rq target s) := by
  unfold execTileReset
  try dsimp only
  repeat' first | with_reducible assumption | with_reducible intro _ | with_reducible apply State.privWrite_ok | with_reducible apply State.hubRstWrite_ok | with_reducible apply ok_ite | (fail_if_no_progress with_reducible apply ok_mk) | with_reducible apply each_ok | with_reducible apply next_ok

theorem State.ptCmdWrite_ok {pq : List Instr} (s : State) (p op : Nat) (go : Bool) (hok : s.Ok pq) : (State.ptCmdWrite s p op go).Ok pq := by
  unfold State.ptCmdWrite
  try dsimp only
  repeat' first | with_reducible assumption | with_reducible intro _ | with_reducible apply State.rstStart_ok | with_reducible apply State.ptDrop_ok | with_reducible apply State.buildStart_ok | with_reducible apply State.ptCmdEnd_ok | with_reducible apply State.setFlag_ok | with_reducible apply State.setFld_ok | with_reducible apply ok_ite | (fail_if_no_progress with_reducible apply ok_mk) | with_reducible apply each_ok | with_reducible refine ok_snd (by with_reducible assumption) ?_ | with_reducible refine ok_fst (by with_reducible assumption) ?_ | with_reducible refine ok_some (by with_reducible assumption) ?_ | with_reducible apply foldl_ok | split

theorem execPartitionBuild_ok {pq : List Instr} (rq : Requester) (p : Fin 8) (s : State) (hok : s.Ok pq) : OutOk pq (execPartitionBuild rq p s) := by
  unfold execPartitionBuild
  try dsimp only
  repeat' first | with_reducible assumption | with_reducible intro _ | with_reducible apply State.privWrite_ok | with_reducible apply State.ptCmdWrite_ok | with_reducible apply ok_ite | (fail_if_no_progress with_reducible apply ok_mk) | with_reducible apply each_ok | with_reducible apply next_ok

theorem execPartitionReset_ok {pq : List Instr} (rq : Requester) (p : Fin 8) (s : State) (hok : s.Ok pq) : OutOk pq (execPartitionReset rq p s) := by
  unfold execPartitionReset
  try dsimp only
  repeat' first | with_reducible assumption | with_reducible intro _ | with_reducible apply State.privWrite_ok | with_reducible apply State.ptCmdWrite_ok | with_reducible apply ok_ite | (fail_if_no_progress with_reducible apply ok_mk) | with_reducible apply each_ok | with_reducible apply next_ok

theorem execPartitionDissolve_ok {pq : List Instr} (rq : Requester) (p : Fin 8) (s : State) (hok : s.Ok pq) : OutOk pq (execPartitionDissolve rq p s) := by
  unfold execPartitionDissolve
  try dsimp only
  repeat' first | with_reducible assumption | with_reducible intro _ | with_reducible apply State.privWrite_ok | with_reducible apply State.ptCmdWrite_ok | with_reducible apply ok_ite | (fail_if_no_progress with_reducible apply ok_mk) | with_reducible apply each_ok | with_reducible apply next_ok

theorem State.regulatorOff_ok {pq : List Instr} (s : State) (t : Nat) (hok : s.Ok pq) : (State.regulatorOff s t).Ok pq := by
  unfold State.regulatorOff
  try dsimp only
  repeat' first | with_reducible assumption | with_reducible intro _ | with_reducible apply State.setFld_ok | with_reducible apply State.setFlag_ok | with_reducible apply State.domSync_ok | with_reducible apply ok_ite | (fail_if_no_progress with_reducible apply ok_mk)

theorem State.tileRstLost_ok {pq : List Instr} (s : State) (t : Nat) (hok : s.Ok pq) : (State.tileRstLost s t).Ok pq := by
  unfold State.tileRstLost
  try dsimp only
  repeat' first | with_reducible assumption | with_reducible intro _ | with_reducible apply State.each_ok | with_reducible apply State.setRst_ok | with_reducible apply State.ptRstFault_ok | with_reducible apply State.ptAbsorb_ok | with_reducible apply State.rstEnd_ok | with_reducible apply ok_ite | (fail_if_no_progress with_reducible apply ok_mk) | with_reducible apply each_ok | with_reducible apply next_ok | with_reducible refine ok_snd (by with_reducible assumption) ?_ | with_reducible refine ok_fst (by with_reducible assumption) ?_ | with_reducible refine ok_some (by with_reducible assumption) ?_ | with_reducible apply foldl_ok | split

theorem State.tileLost_ok {pq : List Instr} (s : State) (t : Nat) (cause : LostCause) (hok : s.Ok pq) : (State.tileLost s t cause).Ok pq := by
  unfold State.tileLost
  try dsimp only
  repeat' first | with_reducible assumption | with_reducible intro _ | with_reducible apply State.tileRstLost_ok | with_reducible apply State.regulatorOff_ok | with_reducible apply State.tileBuffers_ok | with_reducible apply State.reroute_ok | with_reducible apply State.linkSet_ok | with_reducible apply State.ptFaultEvent_ok | with_reducible apply State.coreWipe_ok | with_reducible apply State.heldLost_ok | with_reducible apply State.trailPut_ok | with_reducible apply State.each_ok | with_reducible apply State.satFld_ok | with_reducible apply State.setFld_ok | with_reducible apply ok_ite | (fail_if_no_progress with_reducible apply ok_mk) | with_reducible apply each_ok

theorem execTileLost_ok {pq : List Instr} (t : Fin 8) (c : LostCause) (s : State) (hok : s.Ok pq) : OutOk pq (execTileLost t c s) := by
  unfold execTileLost
  try dsimp only
  repeat' first | with_reducible assumption | with_reducible intro _ | with_reducible apply State.tileLost_ok | with_reducible apply ok_ite | (fail_if_no_progress with_reducible apply ok_mk) | with_reducible apply each_ok | with_reducible apply next_ok

theorem execLinkRetrainTimeout_ok {pq : List Instr} (l : LinkId) (s : State) (hok : s.Ok pq) : OutOk pq (execLinkRetrainTimeout l s) := by
  unfold execLinkRetrainTimeout
  try dsimp only
  repeat' first | with_reducible assumption | with_reducible intro _ | with_reducible apply State.tileLost_ok | with_reducible apply State.bridgeFail_ok | with_reducible apply State.setRetrain_ok | with_reducible apply State.event_ok | with_reducible apply State.each_ok | with_reducible apply ok_ite | (fail_if_no_progress with_reducible apply ok_mk) | with_reducible apply each_ok | with_reducible apply next_ok

theorem State.serEnableWrite_ok {pq : List Instr} (s : State) (rq : Requester) (pg t : Nat) (v : Bool) (hok : s.Ok pq) : (State.serEnableWrite s rq pg t v).Ok pq := by
  unfold State.serEnableWrite
  try dsimp only
  repeat' first | with_reducible assumption | with_reducible intro _ | with_reducible apply State.rwlWrite_ok | with_reducible apply State.tileLost_ok | with_reducible apply ok_ite

theorem execSerEnable_ok {pq : List Instr} (rq : Requester) (t : Fin 8) (hub : Bool) (v : Bool) (s : State) (hok : s.Ok pq) : OutOk pq (execSerEnable rq t hub v s) := by
  unfold execSerEnable
  try dsimp only
  repeat' first | with_reducible assumption | with_reducible intro _ | with_reducible apply State.serEnableWrite_ok | with_reducible apply State.tileWrite_ok | with_reducible apply ok_ite | (fail_if_no_progress with_reducible apply ok_mk) | with_reducible apply each_ok | with_reducible apply next_ok

/-! Boot. -/

theorem State.loadImage_ok {pq : List Instr} (s : State) (typ : Nat) (m : Image) (hok : s.Ok pq) : (State.loadImage s typ m).Ok pq := by
  unfold State.loadImage
  try dsimp only
  repeat' first | with_reducible assumption | with_reducible intro _ | with_reducible apply ok_ite | (fail_if_no_progress with_reducible apply ok_mk) | with_reducible apply ok_hmp_wr

theorem State.pickImage_ok {pq : List Instr} (s : State) (typ : Nat) (l : List (Nat × Option Image)) (h : s.Ok pq) :
    (s.pickImage typ l).1.Ok pq := by
  induction l generalizing s with
  | nil => exact h
  | cons x l ih =>
    obtain ⟨k, _ | m⟩ := x
    · exact ih _ h
    · have h1 := State.loadImage_ok s typ m h
      unfold State.pickImage
      dsimp only
      split
      · exact h1
      · exact ih _ h1

theorem State.noteErrs_ok {pq : List Instr} (s : State) (es : List (Nat × Nat)) (hok : s.Ok pq) : (State.noteErrs s es).Ok pq := by
  unfold State.noteErrs
  try dsimp only
  repeat' first | with_reducible assumption | with_reducible intro _ | with_reducible apply State.each_ok | with_reducible apply State.bootErr_ok | with_reducible apply ok_ite | (fail_if_no_progress with_reducible apply ok_mk) | with_reducible apply each_ok

theorem State.failErrs_ok {pq : List Instr} (s : State) (es : List (Nat × Nat)) (hok : s.Ok pq) : (State.failErrs s es).Ok pq := by
  unfold State.failErrs
  try dsimp only
  repeat' first | with_reducible assumption | with_reducible intro _ | with_reducible apply State.bootFail_ok | with_reducible apply State.noteErrs_ok | with_reducible apply ok_ite | (fail_if_no_progress with_reducible apply ok_mk) | with_reducible apply each_ok | with_reducible apply next_ok | with_reducible refine ok_snd (by with_reducible assumption) ?_ | with_reducible refine ok_fst (by with_reducible assumption) ?_ | with_reducible refine ok_some (by with_reducible assumption) ?_ | with_reducible apply foldl_ok | split

theorem State.waitPush_ok {pq : List Instr} (s : State) (hok : s.Ok pq) : (State.waitPush s).Ok pq := by
  unfold State.waitPush
  try dsimp only
  repeat' first | with_reducible assumption | with_reducible intro _ | with_reducible apply State.setFlag_ok | with_reducible apply State.event_ok

theorem State.setStage_ok {pq : List Instr} (s : State) (n : Nat) (hok : s.Ok pq) : (State.setStage s n).Ok pq := by
  unfold State.setStage
  try dsimp only
  repeat' first | with_reducible assumption | with_reducible intro _ | with_reducible apply State.setFld_ok

theorem State.stage4_ok {pq : List Instr} (s : State) (hok : s.Ok pq) : (State.stage4 s).Ok pq := by
  unfold State.stage4
  try dsimp only
  repeat' first | with_reducible assumption | with_reducible intro _ | with_reducible apply State.waitPush_ok | with_reducible apply State.setStage_ok | with_reducible apply ok_ite

theorem State.stage5_ok {pq : List Instr} (s : State) (hok : s.Ok pq) : (State.stage5 s).Ok pq := by
  unfold State.stage5
  try dsimp only
  repeat' first | with_reducible assumption | with_reducible intro _ | with_reducible apply State.each_ok | with_reducible apply State.mapTile_ok | with_reducible apply State.regulatorOn_ok | with_reducible apply State.setStage_ok | with_reducible apply ok_ite | (fail_if_no_progress with_reducible apply ok_mk) | with_reducible apply each_ok

theorem State.acceptStage1_ok {pq : List Instr} (s : State) (k src : Nat) (md : Medium) (m : Image) (hok : s.Ok pq) : (State.acceptStage1 s k src md m).Ok pq := by
  unfold State.acceptStage1
  try dsimp only
  repeat' first | with_reducible assumption | with_reducible intro _ | with_reducible apply State.stage5_ok | with_reducible apply State.setFld_ok | with_reducible apply ok_ite | (fail_if_no_progress with_reducible apply ok_mk)

theorem State.noImage_ok {pq : List Instr} (s : State) (push : Bool) (es : List (Nat × Nat)) (hok : s.Ok pq) : (State.noImage s push es).Ok pq := by
  unfold State.noImage
  try dsimp only
  repeat' first | with_reducible assumption | with_reducible intro _ | with_reducible apply State.waitPush_ok | with_reducible apply State.failErrs_ok | with_reducible apply State.noteErrs_ok | with_reducible apply ok_ite

theorem State.mediumRead_ok {pq : List Instr} (s : State) (md : Medium) (src : Nat) (hok : s.Ok pq) : (State.mediumRead s md src).Ok pq := by
  unfold State.mediumRead
  try dsimp only
  repeat' first | with_reducible assumption | with_reducible intro _ | with_reducible apply State.noImage_ok | with_reducible apply State.acceptStage1_ok | with_reducible apply State.noteErrs_ok | with_reducible apply State.pickImage_ok | with_reducible apply ok_ite | (fail_if_no_progress with_reducible apply ok_mk) | with_reducible apply each_ok | with_reducible refine ok_snd (by with_reducible assumption) ?_ | with_reducible refine ok_fst (by with_reducible assumption) ?_ | with_reducible refine ok_some (by with_reducible assumption) ?_ | with_reducible apply foldl_ok | split

theorem State.hubConflict_ok {pq : List Instr} (s : State) (code : Nat) (hok : s.Ok pq) : (State.hubConflict s code).Ok pq := by
  unfold State.hubConflict
  try dsimp only
  repeat' first | with_reducible assumption | with_reducible intro _ | with_reducible apply State.each_ok | with_reducible apply State.setFld_ok | with_reducible apply ok_ite | (fail_if_no_progress with_reducible apply ok_mk) | with_reducible apply each_ok

theorem State.step2_ok {pq : List Instr} (s : State) (owner src site build mode media mgt : Nat) (hok : s.Ok pq) : (State.step2 s owner src site build mode media mgt).Ok pq := by
  unfold State.step2
  try dsimp only
  repeat' first | with_reducible assumption | with_reducible intro _ | with_reducible apply State.hubConflict_ok | with_reducible apply State.stage4_ok | with_reducible apply State.bootFail_ok | with_reducible apply State.fuseLoad_ok | with_reducible apply State.trailPut_ok | with_reducible apply State.setFld_ok | with_reducible apply ok_ite | (fail_if_no_progress with_reducible apply ok_mk)

theorem State.rampsEnd_ok {pq : List Instr} (s : State) (t : Nat) (hok : s.Ok pq) : (State.rampsEnd s t).Ok pq := by
  unfold State.rampsEnd
  try dsimp only
  repeat' first | with_reducible assumption | with_reducible intro _ | with_reducible apply State.each_ok | with_reducible apply State.setDom_ok | with_reducible apply State.setRamp_ok | with_reducible apply ok_ite | (fail_if_no_progress with_reducible apply ok_mk) | with_reducible apply each_ok

theorem State.step6_ok {pq : List Instr} (s : State) (hok : s.Ok pq) : (State.step6 s).Ok pq := by
  unfold State.step6
  try dsimp only
  repeat' first | with_reducible assumption | with_reducible intro _ | with_reducible apply State.setStage_ok | with_reducible apply State.mapTile_ok | with_reducible apply State.each_ok | with_reducible apply State.setFlag_ok | with_reducible apply ok_ite | (fail_if_no_progress with_reducible apply ok_mk) | with_reducible apply each_ok

theorem State.step7_ok {pq : List Instr} (s : State) (hok : s.Ok pq) : (State.step7 s).Ok pq := by
  unfold State.step7
  try dsimp only
  repeat' first | with_reducible assumption | with_reducible intro _ | with_reducible apply State.setStage_ok | with_reducible apply State.mapTile_ok | with_reducible apply State.domSync_ok | with_reducible apply State.setSliceState_ok | with_reducible apply State.each_ok | with_reducible apply ok_ite | (fail_if_no_progress with_reducible apply ok_mk) | with_reducible apply each_ok

theorem State.bootMem_ok {pq : List Instr} (s : State) (hok : s.Ok pq) : (State.bootMem s).Ok pq := by
  unfold State.bootMem
  try dsimp only
  repeat' first | with_reducible assumption | with_reducible intro _ | with_reducible apply State.setFld_ok

theorem State.sliceTrained_ok {pq : List Instr} (s : State) (x : Nat) (ok : Bool) (hok : s.Ok pq) : (State.sliceTrained s x ok).Ok pq := by
  unfold State.sliceTrained
  try dsimp only
  repeat' first | with_reducible assumption | with_reducible intro _ | with_reducible apply State.setSliceState_ok | with_reducible apply State.addFact_ok | with_reducible apply ok_ite | (fail_if_no_progress with_reducible apply ok_mk)

theorem execSliceTrainingDone_ok {pq : List Instr} (x : Fin 512) (ok : Bool) (s : State) (hok : s.Ok pq) : OutOk pq (execSliceTrainingDone x ok s) := by
  unfold execSliceTrainingDone
  try dsimp only
  repeat' first | with_reducible assumption | with_reducible intro _ | with_reducible apply State.sliceTrained_ok | with_reducible apply ok_ite | (fail_if_no_progress with_reducible apply ok_mk) | with_reducible apply each_ok | with_reducible apply next_ok

theorem State.step10_ok {pq : List Instr} (s : State) (hok : s.Ok pq) : (State.step10 s).Ok pq := by
  unfold State.step10
  try dsimp only
  repeat' first | with_reducible assumption | with_reducible intro _ | with_reducible apply State.noImage_ok | with_reducible apply State.setStage_ok | with_reducible apply State.noteErrs_ok | with_reducible apply State.pickImage_ok | with_reducible apply State.bootFail_ok | with_reducible apply State.coreBoot_ok | with_reducible apply State.each_ok | with_reducible apply State.setFld_ok | with_reducible apply ok_ite | (fail_if_no_progress with_reducible apply ok_mk) | with_reducible apply ok_hmp_wr | with_reducible apply ok_hmp_clear | with_reducible apply ok_hmp_poison | with_reducible apply ok_stores_wr | with_reducible apply ok_stores_clear | with_reducible apply ok_stores_poison | with_reducible apply ok_slices_write | with_reducible apply ok_slices_clear | with_reducible apply ok_slices_pois | with_reducible apply ok_slices_markBoth | with_reducible apply ok_hmp_fold | with_reducible apply Mem.wf_clear | with_reducible apply Mem.wf_wr | with_reducible apply Mem.wf_land | with_reducible apply each_ok | with_reducible refine ok_snd (by with_reducible assumption) ?_ | with_reducible refine ok_fst (by with_reducible assumption) ?_ | with_reducible refine ok_some (by with_reducible assumption) ?_ | with_reducible apply foldl_ok | split

theorem State.putImage_ok {pq : List Instr} (s : State) (x : Nat) (d : ItinDesc) (hok : s.Ok pq) : (State.putImage s x d).Ok pq := by
  unfold State.putImage
  try dsimp only
  repeat' first | with_reducible assumption | with_reducible intro _ | with_reducible apply State.each_ok | with_reducible apply State.setFld64_ok | with_reducible apply State.setFlag_ok | with_reducible apply State.setFld_ok | with_reducible apply ok_ite | (fail_if_no_progress with_reducible apply ok_mk) | with_reducible apply ok_hmp_wr | with_reducible apply ok_hmp_clear | with_reducible apply ok_hmp_poison | with_reducible apply ok_stores_wr | with_reducible apply ok_stores_clear | with_reducible apply ok_stores_poison | with_reducible apply ok_slices_write | with_reducible apply ok_slices_clear | with_reducible apply ok_slices_pois | with_reducible apply ok_slices_markBoth | with_reducible apply ok_hmp_fold | with_reducible apply Mem.wf_clear | with_reducible apply Mem.wf_wr | with_reducible apply Mem.wf_land | with_reducible apply each_ok | with_reducible refine ok_snd (by with_reducible assumption) ?_ | with_reducible refine ok_fst (by with_reducible assumption) ?_ | with_reducible refine ok_some (by with_reducible assumption) ?_ | with_reducible apply foldl_ok | split

theorem State.fetchFail_ok {pq : List Instr} (s : State) (x : Nat) (hok : s.Ok pq) : (State.fetchFail s x).Ok pq := by
  unfold State.fetchFail
  try dsimp only
  repeat' first | with_reducible assumption | with_reducible intro _ | with_reducible apply State.addFact_ok | with_reducible apply State.markCore_ok

theorem execCoreBootFetch_ok {pq : List Instr} (x : Fin 512) (first second : List Bool) (s : State) (hok : s.Ok pq) : OutOk pq (execCoreBootFetch x first second s) := by
  unfold execCoreBootFetch
  try dsimp only
  repeat' first | with_reducible assumption | with_reducible intro _ | with_reducible apply State.fetchFail_ok | with_reducible apply State.putImage_ok | with_reducible apply State.setCore_ok | with_reducible apply State.each_ok | with_reducible apply State.setFld_ok | with_reducible apply ok_ite | (fail_if_no_progress with_reducible apply ok_mk) | with_reducible apply each_ok | with_reducible apply next_ok | with_reducible refine ok_snd (by with_reducible assumption) ?_ | with_reducible refine ok_fst (by with_reducible assumption) ?_ | with_reducible refine ok_some (by with_reducible assumption) ?_ | with_reducible apply foldl_ok | split

theorem State.planPart_ok {pq : List Instr} (s : State) (e : PlanPart) (hok : s.Ok pq) : OptOk pq (State.planPart s e) := by
  unfold State.planPart
  try dsimp only
  repeat' first | with_reducible assumption | with_reducible intro _ | with_reducible apply State.setPtState_ok | with_reducible apply State.rebuild_ok | with_reducible apply State.setFld64_ok | with_reducible apply State.setFld_ok | with_reducible apply ok_ite | (fail_if_no_progress with_reducible apply ok_mk) | with_reducible apply each_ok | with_reducible apply some_ok | with_reducible apply none_ok | with_reducible refine ok_snd (by with_reducible assumption) ?_ | with_reducible refine ok_fst (by with_reducible assumption) ?_ | with_reducible refine ok_some (by with_reducible assumption) ?_ | with_reducible apply foldl_ok | split

theorem State.planParts_ok {pq : List Instr} (s : State) (l : List PlanPart) (h : s.Ok pq) : OptOk pq (s.planParts l) := by
  induction l generalizing s with
  | nil => exact some_ok h
  | cons e l ih =>
    unfold State.planParts
    split
    · rename_i e; exact ih _ (State.planPart_ok _ _ h _ e)
    · exact none_ok

theorem State.planApply_ok {pq : List Instr} (s : State) (pl : Plan) (h : s.Ok pq) : OptOk pq (s.planApply pl) := by
  unfold State.planApply
  split
  · exact none_ok
  · cases e : s.planParts pl.parts with
    | none => exact none_ok
    | some s1 =>
      apply some_ok
      apply each_ok (fun _ _ h => State.bindApply_ok _ _ _ (State.setFld_ok _ _ _ _ h))
      exact each_ok (fun _ _ h => State.setFld_ok _ _ _ _ h) (State.planParts_ok _ _ h _ e)

theorem State.bootReady_ok {pq : List Instr} (s : State) (hok : s.Ok pq) : (State.bootReady s).Ok pq := by
  unfold State.bootReady
  try dsimp only
  repeat' first | with_reducible assumption | with_reducible intro _ | with_reducible apply State.setFld_ok | with_reducible apply State.setFlag_ok | with_reducible apply State.each_ok | with_reducible apply State.setInts_ok | with_reducible apply State.hmpShrink_ok | with_reducible apply State.bootTrail_ok | with_reducible apply State.tileCount_ok | with_reducible apply State.setStage_ok | with_reducible apply ok_ite | (fail_if_no_progress with_reducible apply ok_mk) | with_reducible apply each_ok

theorem State.step12_ok {pq : List Instr} (s : State) (hok : s.Ok pq) : (State.step12 s).Ok pq := by
  unfold State.step12
  try dsimp only
  repeat' first | with_reducible assumption | with_reducible intro _ | with_reducible apply State.bootReady_ok | with_reducible apply State.planApply_ok | with_reducible apply State.bootErr_ok | with_reducible apply ok_ite | (fail_if_no_progress with_reducible apply ok_mk) | with_reducible apply each_ok | with_reducible refine ok_snd (by with_reducible assumption) ?_ | with_reducible refine ok_fst (by with_reducible assumption) ?_ | with_reducible refine ok_some (by with_reducible assumption) ?_ | with_reducible apply foldl_ok | split

theorem State.bundleFailed_ok {pq : List Instr} (s : State) (t : Nat) (hok : s.Ok pq) : (State.bundleFailed s t).Ok pq := by
  unfold State.bundleFailed
  try dsimp only
  repeat' first | with_reducible assumption | with_reducible intro _ | with_reducible apply State.tileLost_ok | with_reducible apply State.bootFail_ok | with_reducible apply State.retrainEnd_ok | with_reducible apply State.linkSet_ok | with_reducible apply State.bootErr_ok | with_reducible apply State.setLend_ok | with_reducible apply ok_ite

theorem execLinkTraining_ok {pq : List Instr} (l : LinkId) (r : TrainIn) (s : State) (hok : s.Ok pq) : OutOk pq (execLinkTraining l r s) := by
  unfold execLinkTraining
  try dsimp only
  repeat' first | with_reducible assumption | with_reducible intro _ | with_reducible apply State.bundleFailed_ok | with_reducible apply State.trainFailed_ok | with_reducible apply State.bridgeIdent_ok | with_reducible apply State.bundleIdent_ok | with_reducible apply State.putIdent_ok | with_reducible apply State.trainPhy_ok | with_reducible apply ok_ite | (fail_if_no_progress with_reducible apply ok_mk) | with_reducible apply each_ok | with_reducible apply next_ok | with_reducible refine ok_snd (by with_reducible assumption) ?_ | with_reducible refine ok_fst (by with_reducible assumption) ?_ | with_reducible refine ok_some (by with_reducible assumption) ?_ | with_reducible apply foldl_ok | split

theorem State.stepEnd_ok {pq : List Instr} (s : State) (i : StepIn) (hok : s.Ok pq) : (State.stepEnd s i).Ok pq := by
  unfold State.stepEnd
  try dsimp only
  repeat' first | with_reducible assumption | with_reducible intro _ | with_reducible apply State.step12_ok | with_reducible apply State.step10_ok | with_reducible apply State.bootMem_ok | with_reducible apply State.step7_ok | with_reducible apply State.step6_ok | with_reducible apply State.rampsEnd_ok | with_reducible apply State.step2_ok | with_reducible apply State.mediumRead_ok | with_reducible apply State.noImage_ok | with_reducible apply State.setStage_ok | with_reducible apply State.bootFail_ok | with_reducible apply State.hmpInit_ok | with_reducible apply State.each_ok | with_reducible apply State.setFld_ok | with_reducible apply ok_ite | (fail_if_no_progress with_reducible apply ok_mk) | with_reducible apply each_ok | with_reducible refine ok_snd (by with_reducible assumption) ?_ | with_reducible refine ok_fst (by with_reducible assumption) ?_ | with_reducible refine ok_some (by with_reducible assumption) ?_ | with_reducible apply foldl_ok | split

theorem execBringupStepEnd_ok {pq : List Instr} (i : StepIn) (s : State) (hok : s.Ok pq) : OutOk pq (execBringupStepEnd i s) := by
  unfold execBringupStepEnd
  try dsimp only
  repeat' first | with_reducible assumption | with_reducible intro _ | with_reducible apply State.stepEnd_ok | with_reducible apply ok_ite | (fail_if_no_progress with_reducible apply ok_mk) | with_reducible apply each_ok | with_reducible apply next_ok

theorem execBootConfigSpaceReady_ok {pq : List Instr} (port : Fin 4) (s : State) (hok : s.Ok pq) : OutOk pq (execBootConfigSpaceReady port s) := by
  unfold execBootConfigSpaceReady
  try dsimp only
  repeat' first | with_reducible assumption | with_reducible intro _ | with_reducible apply State.setPort_ok | with_reducible apply ok_ite | (fail_if_no_progress with_reducible apply ok_mk) | with_reducible apply each_ok | with_reducible apply next_ok

theorem State.pushIssue_ok {pq : List Instr} (s : State) (hok : s.Ok pq) : (State.pushIssue s).Ok pq := by
  unfold State.pushIssue
  try dsimp only
  repeat' first | with_reducible assumption | with_reducible intro _ | with_reducible apply State.emit_ok | with_reducible apply ok_ite | (fail_if_no_progress with_reducible apply ok_mk)

theorem State.pushGo_ok {pq : List Instr} (s : State) (hok : s.Ok pq) : (State.pushGo s).Ok pq := by
  unfold State.pushGo
  try dsimp only
  repeat' first | with_reducible assumption | with_reducible intro _ | with_reducible apply State.pushIssue_ok | with_reducible apply State.bootErr_ok | with_reducible apply State.setFlag_ok | with_reducible apply ok_ite | (fail_if_no_progress with_reducible apply ok_mk)

theorem execBootPushGo_ok {pq : List Instr} (rq : Requester) (s : State) (hok : s.Ok pq) : OutOk pq (execBootPushGo rq s) := by
  unfold execBootPushGo
  try dsimp only
  repeat' first | with_reducible assumption | with_reducible intro _ | with_reducible apply State.privWrite_ok | with_reducible apply State.pushGo_ok | with_reducible apply ok_ite | (fail_if_no_progress with_reducible apply ok_mk) | with_reducible apply each_ok | with_reducible apply next_ok

theorem State.pushDone_ok {pq : List Instr} (s : State) (md : Medium) (src : Nat) (hok : s.Ok pq) : (State.pushDone s md src).Ok pq := by
  unfold State.pushDone
  try dsimp only
  repeat' first | with_reducible assumption | with_reducible intro _ | with_reducible apply State.mediumRead_ok | with_reducible apply State.setFlag_ok | with_reducible apply State.setFld_ok | with_reducible apply ok_ite | (fail_if_no_progress with_reducible apply ok_mk)

theorem execBootPushReadDone_ok {pq : List Instr} (m : Medium) (s : State) (hok : s.Ok pq) : OutOk pq (execBootPushReadDone m s) := by
  unfold execBootPushReadDone
  try dsimp only
  repeat' first | with_reducible assumption | with_reducible intro _ | with_reducible apply State.pushDone_ok | with_reducible apply ok_ite | (fail_if_no_progress with_reducible apply ok_mk) | with_reducible apply each_ok | with_reducible apply next_ok

theorem State.pushAbort_ok {pq : List Instr} (s : State) (hok : s.Ok pq) : (State.pushAbort s).Ok pq := by
  unfold State.pushAbort
  try dsimp only
  repeat' first | with_reducible assumption | with_reducible intro _ | with_reducible apply State.waitPush_ok | with_reducible apply State.setFlag_ok | with_reducible apply ok_ite | (fail_if_no_progress with_reducible apply ok_mk)

theorem State.spiWatch_ok {pq : List Instr} (s : State) (flash : Option Medium) (hok : s.Ok pq) : (State.spiWatch s flash).Ok pq := by
  unfold State.spiWatch
  try dsimp only
  repeat' first | with_reducible assumption | with_reducible intro _ | with_reducible apply State.acceptStage1_ok | with_reducible apply State.waitPush_ok | with_reducible apply State.noteErrs_ok | with_reducible apply State.pickImage_ok | with_reducible apply State.bootFail_ok | with_reducible apply State.bootErr_ok | with_reducible apply ok_ite | (fail_if_no_progress with_reducible apply ok_mk) | with_reducible apply each_ok | with_reducible refine ok_snd (by with_reducible assumption) ?_ | with_reducible refine ok_fst (by with_reducible assumption) ?_ | with_reducible refine ok_some (by with_reducible assumption) ?_ | with_reducible apply foldl_ok | split

theorem State.payloadWatch_ok {pq : List Instr} (s : State) (hok : s.Ok pq) : (State.payloadWatch s).Ok pq := by
  unfold State.payloadWatch
  try dsimp only
  repeat' first | with_reducible assumption | with_reducible intro _ | with_reducible apply State.bootFail_ok | with_reducible apply State.bootErr_ok | with_reducible apply ok_ite | (fail_if_no_progress with_reducible apply ok_mk)

theorem execBootWatchdogExpiry_ok {pq : List Instr} (w : BootWatch) (s : State) (hok : s.Ok pq) : OutOk pq (execBootWatchdogExpiry w s) := by
  unfold execBootWatchdogExpiry
  try dsimp only
  repeat' first | with_reducible assumption | with_reducible intro _ | with_reducible apply State.payloadWatch_ok | with_reducible apply State.spiWatch_ok | with_reducible apply State.pushAbort_ok | with_reducible apply State.bundleFailed_ok | with_reducible apply State.fetchFail_ok | with_reducible apply State.sliceTrained_ok | with_reducible apply State.trainFailed_ok | with_reducible apply State.bootFail_ok | with_reducible apply State.bootErr_ok | with_reducible apply ok_ite | (fail_if_no_progress with_reducible apply ok_mk) | with_reducible apply each_ok | with_reducible apply next_ok | with_reducible refine ok_snd (by with_reducible assumption) ?_ | with_reducible refine ok_fst (by with_reducible assumption) ?_ | with_reducible refine ok_some (by with_reducible assumption) ?_ | with_reducible apply foldl_ok | split

/-! HostPorts. -/

theorem State.fnReset_ok {pq : List Instr} (s : State) (k : Nat) (hok : s.Ok pq) : (State.fnReset s k).Ok pq := by
  unfold State.fnReset
  try dsimp only
  repeat' first | with_reducible assumption | with_reducible intro _ | with_reducible apply State.setFn_ok

theorem State.vfClear_ok {pq : List Instr} (s : State) (p : Nat) (hok : s.Ok pq) : (State.vfClear s p).Ok pq := by
  unfold State.vfClear
  try dsimp only
  repeat' first | with_reducible assumption | with_reducible intro _ | with_reducible apply State.each_ok | with_reducible apply State.setPort_ok | with_reducible apply State.tnTrigger_ok | with_reducible apply State.fnReset_ok | with_reducible apply ok_ite | (fail_if_no_progress with_reducible apply ok_mk) | with_reducible apply each_ok

theorem execFunctionLevelReset_ok {pq : List Instr} (fn : FnId) (s : State) (hok : s.Ok pq) : OutOk pq (execFunctionLevelReset fn s) := by
  unfold execFunctionLevelReset
  try dsimp only
  repeat' first | with_reducible assumption | with_reducible intro _ | with_reducible apply State.vfClear_ok | with_reducible apply State.fnReset_ok | with_reducible apply State.tnTrigger_ok | with_reducible apply State.setPort_ok | with_reducible apply State.each_ok | with_reducible apply State.emit_ok | with_reducible apply ok_ite | (fail_if_no_progress with_reducible apply ok_mk) | with_reducible apply each_ok | with_reducible apply next_ok | with_reducible refine ok_snd (by with_reducible assumption) ?_ | with_reducible refine ok_fst (by with_reducible assumption) ?_ | with_reducible refine ok_some (by with_reducible assumption) ?_ | with_reducible apply foldl_ok | split

theorem execVfEnableClear_ok {pq : List Instr} (port : Fin 4) (s : State) (hok : s.Ok pq) : OutOk pq (execVfEnableClear port s) := by
  unfold execVfEnableClear
  try dsimp only
  repeat' first | with_reducible assumption | with_reducible intro _ | with_reducible apply State.vfClear_ok | with_reducible apply State.emit_ok | with_reducible apply ok_ite | (fail_if_no_progress with_reducible apply ok_mk) | with_reducible apply each_ok | with_reducible apply next_ok

theorem State.portReset_ok {pq : List Instr} (s : State) (p : Nat) (hok : s.Ok pq) : (State.portReset s p).Ok pq := by
  unfold State.portReset
  try dsimp only
  repeat' first | with_reducible assumption | with_reducible intro _ | with_reducible apply State.setPort_ok | with_reducible apply State.hmpTransitClear_ok | with_reducible apply State.pushAbort_ok | with_reducible apply State.fnReset_ok | with_reducible apply State.vfClear_ok | with_reducible apply ok_ite | (fail_if_no_progress with_reducible apply ok_mk)

theorem State.portDown_ok {pq : List Instr} (s : State) (p : Nat) (hok : s.Ok pq) : (State.portDown s p).Ok pq := by
  unfold State.portDown
  try dsimp only
  repeat' first | with_reducible assumption | with_reducible intro _ | with_reducible apply State.setFld_ok | with_reducible apply State.setFlag_ok | with_reducible apply State.event_ok | with_reducible apply State.portReset_ok | with_reducible apply ok_ite

theorem execHostLinkDown_ok {pq : List Instr} (port : Fin 4) (s : State) (hok : s.Ok pq) : OutOk pq (execHostLinkDown port s) := by
  unfold execHostLinkDown
  try dsimp only
  repeat' first | with_reducible assumption | with_reducible intro _ | with_reducible apply State.portDown_ok | with_reducible apply ok_ite | (fail_if_no_progress with_reducible apply ok_mk) | with_reducible apply each_ok | with_reducible apply next_ok

theorem execRefclkLoss_ok {pq : List Instr} (port : Fin 4) (s : State) (hok : s.Ok pq) : OutOk pq (execRefclkLoss port s) := by
  unfold execRefclkLoss
  try dsimp only
  repeat' first | with_reducible assumption | with_reducible intro _ | with_reducible apply State.portDown_ok | with_reducible apply ok_ite | (fail_if_no_progress with_reducible apply ok_mk) | with_reducible apply each_ok | with_reducible apply next_ok

theorem State.perstSync_ok {pq : List Instr} (s : State) (p : Nat) (hok : s.Ok pq) : (State.perstSync s p).Ok pq := by
  unfold State.perstSync
  try dsimp only
  repeat' first | with_reducible assumption | with_reducible intro _ | with_reducible apply State.portDown_ok | with_reducible apply State.portReset_ok | with_reducible apply State.event_ok | with_reducible apply State.setFlag_ok | with_reducible apply ok_ite

theorem execPerstAssert_ok {pq : List Instr} (port : Fin 4) (s : State) (hok : s.Ok pq) : OutOk pq (execPerstAssert port s) := by
  unfold execPerstAssert
  try dsimp only
  repeat' first | with_reducible assumption | with_reducible intro _ | with_reducible apply State.setPort_ok | with_reducible apply State.perstSync_ok | with_reducible apply ok_ite | (fail_if_no_progress with_reducible apply ok_mk) | with_reducible apply each_ok | with_reducible apply next_ok

theorem execPerstDeassert_ok {pq : List Instr} (port : Fin 4) (s : State) (hok : s.Ok pq) : OutOk pq (execPerstDeassert port s) := by
  unfold execPerstDeassert
  try dsimp only
  repeat' first | with_reducible assumption | with_reducible intro _ | with_reducible apply State.setPort_ok | with_reducible apply State.perstSync_ok | with_reducible apply ok_ite | (fail_if_no_progress with_reducible apply ok_mk) | with_reducible apply each_ok | with_reducible apply next_ok

theorem execHostLinkUp_ok {pq : List Instr} (port : Fin 4) (rate : Fin 6) (width : Fin 17) (flit cxl : Bool) (s : State) (hok : s.Ok pq) : OutOk pq (execHostLinkUp port rate width flit cxl s) := by
  unfold execHostLinkUp
  try dsimp only
  repeat' first | with_reducible assumption | with_reducible intro _ | with_reducible apply State.event_ok | with_reducible apply State.setPort_ok | with_reducible apply State.setFlag_ok | with_reducible apply State.setFld_ok | with_reducible apply ok_ite | (fail_if_no_progress with_reducible apply ok_mk) | with_reducible apply each_ok | with_reducible apply next_ok

theorem execD3hotEnter_ok {pq : List Instr} (port : Fin 4) (s : State) (hok : s.Ok pq) : OutOk pq (execD3hotEnter port s) := by
  unfold execD3hotEnter
  try dsimp only
  repeat' first | with_reducible assumption | with_reducible intro _ | with_reducible apply State.setPort_ok | with_reducible apply State.emit_ok | with_reducible apply ok_ite | (fail_if_no_progress with_reducible apply ok_mk) | with_reducible apply each_ok | with_reducible apply next_ok

theorem State.releaseHeld_ok {pq : List Instr} (s : State) (n q : Nat) (hok : s.Ok pq) : (State.releaseHeld s n q).Ok pq := by
  unfold State.releaseHeld
  try dsimp only
  repeat' first | with_reducible assumption | with_reducible intro _ | with_reducible apply State.cqWrite_ok | with_reducible apply State.cqSignal_ok | with_reducible apply State.setQueue_ok | with_reducible apply State.each_ok | with_reducible apply ok_ite | (fail_if_no_progress with_reducible apply ok_mk) | with_reducible apply each_ok

theorem execD0Return_ok {pq : List Instr} (port : Fin 4) (s : State) (hok : s.Ok pq) : OutOk pq (execD0Return port s) := by
  unfold execD0Return
  try dsimp only
  repeat' first | with_reducible assumption | with_reducible intro _ | with_reducible apply State.releaseHeld_ok | with_reducible apply State.pushIssue_ok | with_reducible apply State.setPort_ok | with_reducible apply State.each_ok | with_reducible apply State.emit_ok | with_reducible apply ok_ite | (fail_if_no_progress with_reducible apply ok_mk) | with_reducible apply each_ok | with_reducible apply next_ok

theorem State.configOp_ok {pq : List Instr} (s : State) (k : Nat) (op : ConfigOp) (hok : s.Ok pq) : (State.configOp s k op).Ok pq := by
  unfold State.configOp
  try dsimp only
  repeat' first | with_reducible assumption | with_reducible intro _ | with_reducible apply State.vfClear_ok | with_reducible apply State.setPort_ok | with_reducible apply State.setFn_ok | with_reducible apply State.emit_ok | with_reducible apply ok_ite | (fail_if_no_progress with_reducible apply ok_mk) | with_reducible apply each_ok | with_reducible refine ok_snd (by with_reducible assumption) ?_ | with_reducible refine ok_fst (by with_reducible assumption) ?_ | with_reducible refine ok_some (by with_reducible assumption) ?_ | with_reducible apply foldl_ok | split

theorem execConfigRequest_ok {pq : List Instr} (fn : FnId) (op : ConfigOp) (s : State) (hok : s.Ok pq) : OutOk pq (execConfigRequest fn op s) := by
  unfold execConfigRequest
  try dsimp only
  repeat' first | with_reducible assumption | with_reducible intro _ | with_reducible apply State.emit_ok | with_reducible apply State.configOp_ok | with_reducible apply ok_ite | (fail_if_no_progress with_reducible apply ok_mk) | with_reducible apply each_ok | with_reducible apply next_ok

theorem State.pendingSend_ok {pq : List Instr} (s : State) (k vec : Nat) (hok : s.Ok pq) : (State.pendingSend s k vec).Ok pq := by
  unfold State.pendingSend
  try dsimp only
  repeat' first | with_reducible assumption | with_reducible intro _ | with_reducible apply State.setFn_ok | with_reducible apply State.emit_ok | with_reducible apply ok_ite

theorem execMsixPendingSend_ok {pq : List Instr} (fn : FnId) (vec : Fin 32) (s : State) (hok : s.Ok pq) : OutOk pq (execMsixPendingSend fn vec s) := by
  unfold execMsixPendingSend
  try dsimp only
  repeat' first | with_reducible assumption | with_reducible intro _ | with_reducible apply State.pendingSend_ok | with_reducible apply ok_ite | (fail_if_no_progress with_reducible apply ok_mk) | with_reducible apply each_ok | with_reducible apply next_ok

theorem execCxlMemAccess_ok {pq : List Instr} (port : Fin 4) (off : BitVec 37) (op : CxlOp) (s : State) (hok : s.Ok pq) : OutOk pq (execCxlMemAccess port off op s) := by
  unfold execCxlMemAccess
  try dsimp only
  repeat' first | with_reducible assumption | with_reducible intro _ | with_reducible apply State.placeWrite_ok | with_reducible apply State.placeCount_ok | with_reducible apply State.emit_ok | with_reducible apply ok_ite | (fail_if_no_progress with_reducible apply ok_mk) | with_reducible apply each_ok | with_reducible apply next_ok | with_reducible refine ok_snd (by with_reducible assumption) ?_ | with_reducible refine ok_fst (by with_reducible assumption) ?_ | with_reducible refine ok_some (by with_reducible assumption) ?_ | with_reducible apply foldl_ok | split

theorem execVclkLoss_ok {pq : List Instr} (s : State) (hok : s.Ok pq) : OutOk pq (execVclkLoss s) := by
  unfold execVclkLoss
  try dsimp only
  repeat' first | with_reducible assumption | with_reducible intro _ | with_reducible apply State.each_ok | with_reducible apply State.vceFail_ok | with_reducible apply ok_ite | (fail_if_no_progress with_reducible apply ok_mk) | with_reducible apply each_ok | with_reducible apply next_ok

theorem execHubClockLoss_ok {pq : List Instr} (c : HubClock) (s : State) (hok : s.Ok pq) : OutOk pq (execHubClockLoss c s) := by
  unfold execHubClockLoss
  try dsimp only
  repeat' first | with_reducible assumption | with_reducible intro _ | with_reducible apply State.hubLost_ok | with_reducible apply ok_ite | (fail_if_no_progress with_reducible apply ok_mk) | with_reducible apply each_ok | with_reducible apply next_ok

/-! Restart. -/

theorem State.keepRegs_ok {pq : List Instr} (s t : State) (keep : Nat → Nat → Bool) (h : s.Ok pq) (h1 : t.Ok pq) : (s.keepRegs t keep).Ok pq :=
  ⟨h1.1, Tab.wf_filter _ _ _ h.2.1, h1.2.2⟩

theorem State.bareState_ok {pq : List Instr} (s : State) (h : s.Ok pq) : s.bareState.Ok pq := ⟨h.1, rfl, rfl, rfl, rfl⟩

theorem State.pinSync_ok {pq : List Instr} (s : State) (hok : s.Ok pq) : (State.pinSync s).Ok pq := by
  unfold State.pinSync
  try dsimp only
  repeat' first | with_reducible assumption | with_reducible intro _ | with_reducible apply State.setFlag_ok | with_reducible apply State.each_ok | with_reducible apply ok_ite | (fail_if_no_progress with_reducible apply ok_mk) | with_reducible apply each_ok

theorem State.bootCount_ok {pq : List Instr} (s : State) (n : Nat) (hok : s.Ok pq) : (State.bootCount s n).Ok pq := by
  unfold State.bootCount
  try dsimp only
  repeat' first | with_reducible assumption | with_reducible intro _ | with_reducible apply State.addFld_ok

theorem State.rerun_ok {pq : List Instr} (s : State) (hok : s.Ok pq) : (State.rerun s).Ok pq := by
  unfold State.rerun
  try dsimp only
  repeat' first | with_reducible assumption | with_reducible intro _ | with_reducible apply State.bootCount_ok | with_reducible apply State.pinSync_ok | with_reducible apply State.bareState_ok | with_reducible apply State.keepRegs_ok | with_reducible apply State.fuseLoad_ok | with_reducible apply ok_ite | (fail_if_no_progress with_reducible apply ok_mk)

theorem State.warmReset_ok {pq : List Instr} (s : State) (hok : s.Ok pq) : (State.warmReset s).Ok pq := by
  unfold State.warmReset
  try dsimp only
  repeat' first | with_reducible assumption | with_reducible intro _ | with_reducible apply State.trailPut_ok | with_reducible apply State.rerun_ok | with_reducible apply ok_ite

theorem State.dark_ok {pq : List Instr} (s : State) (hok : s.Ok pq) : (State.dark s).Ok pq := by
  unfold State.dark
  try dsimp only
  repeat' first | with_reducible assumption | with_reducible intro _ | with_reducible apply State.keepRegs_ok | with_reducible apply State.bareState_ok | with_reducible apply ok_ite | (fail_if_no_progress with_reducible apply ok_mk)

theorem State.devReset_ok {pq : List Instr} (s : State) (rq : Requester) (key : Nat) (hok : s.Ok pq) : (State.devReset s rq key).Ok pq := by
  unfold State.devReset
  try dsimp only
  repeat' first | with_reducible assumption | with_reducible intro _ | with_reducible apply State.countErr_ok | with_reducible apply State.warmReset_ok | with_reducible apply ok_ite

theorem execDeviceWarmReset_ok {pq : List Instr} (rq : Requester) (key : BitVec 16) (s : State) (hok : s.Ok pq) : OutOk pq (execDeviceWarmReset rq key s) := by
  unfold execDeviceWarmReset
  try dsimp only
  repeat' first | with_reducible assumption | with_reducible intro _ | with_reducible apply State.privWrite_ok | with_reducible apply State.devReset_ok | with_reducible apply ok_ite | (fail_if_no_progress with_reducible apply ok_mk) | with_reducible apply each_ok | with_reducible apply next_ok

theorem State.powerOff_ok {pq : List Instr} (s : State) (hok : s.Ok pq) : (State.powerOff s).Ok pq := by
  unfold State.powerOff
  try dsimp only
  repeat' first | with_reducible assumption | with_reducible intro _ | with_reducible apply State.bareState_ok | with_reducible apply State.keepRegs_ok | with_reducible apply State.trailTear_ok | with_reducible apply ok_ite | (fail_if_no_progress with_reducible apply ok_mk)

theorem State.powerOn_ok {pq : List Instr} (s : State) (hok : s.Ok pq) : (State.powerOn s).Ok pq := by
  unfold State.powerOn
  try dsimp only
  repeat' first | with_reducible assumption | with_reducible intro _ | with_reducible apply State.powerOff_ok | with_reducible apply State.bootCount_ok | with_reducible apply State.pinSync_ok | with_reducible apply State.fuseLoad_ok | with_reducible apply State.each_ok | with_reducible apply State.setFld_ok | with_reducible apply ok_ite | (fail_if_no_progress with_reducible apply ok_mk) | with_reducible apply each_ok | with_reducible refine ok_snd (by with_reducible assumption) ?_ | with_reducible refine ok_fst (by with_reducible assumption) ?_ | with_reducible refine ok_some (by with_reducible assumption) ?_ | with_reducible apply foldl_ok | split

theorem execColdPowerOn_ok {pq : List Instr} (s : State) (hok : s.Ok pq) : OutOk pq (execColdPowerOn s) := by
  unfold execColdPowerOn
  try dsimp only
  repeat' first | with_reducible assumption | with_reducible intro _ | with_reducible apply State.powerOn_ok | with_reducible apply ok_ite | (fail_if_no_progress with_reducible apply ok_mk) | with_reducible apply each_ok | with_reducible apply next_ok

theorem execVddAoLoss_ok {pq : List Instr} (s : State) (hok : s.Ok pq) : OutOk pq (execVddAoLoss s) := by
  unfold execVddAoLoss
  try dsimp only
  repeat' first | with_reducible assumption | with_reducible intro _ | with_reducible apply State.powerOff_ok | with_reducible apply ok_ite | (fail_if_no_progress with_reducible apply ok_mk) | with_reducible apply each_ok | with_reducible apply next_ok

/-! Routing. -/

theorem execRouteSwitchResume_ok {pq : List Instr} (t u : Fin 8) (s : State) (hok : s.Ok pq) : OutOk pq (execRouteSwitchResume t u s) := by
  unfold execRouteSwitchResume
  try dsimp only
  repeat' first | with_reducible assumption | with_reducible intro _ | with_reducible apply State.setHold_ok | with_reducible apply State.setFld_ok | with_reducible apply ok_ite | (fail_if_no_progress with_reducible apply ok_mk) | with_reducible apply each_ok | with_reducible apply next_ok | with_reducible refine ok_snd (by with_reducible assumption) ?_ | with_reducible refine ok_fst (by with_reducible assumption) ?_ | with_reducible refine ok_some (by with_reducible assumption) ?_ | with_reducible apply foldl_ok | split

end Sys2Proof.Machine
end

