-- ==== Sys2Proof/Laws/OkPower.lean ====
section
/-! SUPPORT. Canonical form and queue: power, temperature, management, security and register accesses keep them, one lemma per function. -/
namespace Sys2Proof.Machine

/-! Power. -/

theorem State.setChg_ok {pq : List Instr} (s : State) (t : Nat) (v : OppChg) (hok : s.Ok pq) : (State.setChg s t v).Ok pq := by
  unfold State.setChg
  try dsimp only
  repeat' first | with_reducible assumption | with_reducible intro _ | with_reducible apply ok_ite | (fail_if_no_progress with_reducible apply ok_mk)

theorem execOppChangeStart_ok {pq : List Instr} (t : Fin 8) (s : State) (hok : s.Ok pq) : OutOk pq (execOppChangeStart t s) := by
  unfold execOppChangeStart
  try dsimp only
  repeat' first | with_reducible assumption | with_reducible intro _ | with_reducible apply State.setFlag_ok | with_reducible apply State.setChg_ok | with_reducible apply ok_ite | (fail_if_no_progress with_reducible apply ok_mk) | with_reducible apply each_ok | with_reducible apply next_ok

theorem State.chgStep_ok {pq : List Instr} (s : State) (t : Nat) (hok : s.Ok pq) : (State.chgStep s t).Ok pq := by
  unfold State.chgStep
  try dsimp only
  repeat' first | with_reducible assumption | with_reducible intro _ | with_reducible apply State.setFld_ok | with_reducible apply State.setFlag_ok | with_reducible apply State.event_ok | with_reducible apply State.setChg_ok | with_reducible apply ok_ite | (fail_if_no_progress with_reducible apply ok_mk)

theorem State.pllLock_ok {pq : List Instr} (s : State) (t : Nat) (hok : s.Ok pq) : (State.pllLock s t).Ok pq := by
  unfold State.pllLock
  try dsimp only
  repeat' first | with_reducible assumption | with_reducible intro _ | with_reducible apply State.chgStep_ok | with_reducible apply State.setChg_ok | with_reducible apply ok_ite

theorem State.vddReach_ok {pq : List Instr} (s : State) (t : Nat) (hok : s.Ok pq) : (State.vddReach s t).Ok pq := by
  unfold State.vddReach
  try dsimp only
  repeat' first | with_reducible assumption | with_reducible intro _ | with_reducible apply State.chgStep_ok | with_reducible apply State.setChg_ok | with_reducible apply State.setFld_ok | with_reducible apply ok_ite

theorem State.pkgTelemetry_ok {pq : List Instr} (s : State) (hok : s.Ok pq) : (State.pkgTelemetry s).Ok pq := by
  unfold State.pkgTelemetry
  try dsimp only
  repeat' first | with_reducible assumption | with_reducible intro _ | with_reducible apply State.setFld64_ok | with_reducible apply State.setFld_ok

theorem State.tileTelemetry_ok {pq : List Instr} (s : State) (t : Nat) (hok : s.Ok pq) : (State.tileTelemetry s t).Ok pq := by
  unfold State.tileTelemetry
  try dsimp only
  repeat' first | with_reducible assumption | with_reducible intro _ | with_reducible apply State.setFld_ok | with_reducible apply State.setFld64_ok | with_reducible apply ok_ite | (fail_if_no_progress with_reducible apply ok_mk)

theorem State.clampSync_ok {pq : List Instr} (s : State) (t : Nat) (hok : s.Ok pq) : (State.clampSync s t).Ok pq := by
  unfold State.clampSync
  try dsimp only
  repeat' first | with_reducible assumption | with_reducible intro _ | with_reducible apply State.setFlag_ok

theorem State.setOwnClamp_ok {pq : List Instr} (s : State) (t : Nat) (v : Bool) (hok : s.Ok pq) : (State.setOwnClamp s t v).Ok pq := by
  unfold State.setOwnClamp
  try dsimp only
  repeat' first | with_reducible assumption | with_reducible intro _ | with_reducible apply State.clampSync_ok | with_reducible apply ok_ite | (fail_if_no_progress with_reducible apply ok_mk)

theorem State.setAllClamp_ok {pq : List Instr} (s : State) (v : Bool) (hok : s.Ok pq) : (State.setAllClamp s v).Ok pq := by
  unfold State.setAllClamp
  try dsimp only
  repeat' first | with_reducible assumption | with_reducible intro _ | with_reducible apply State.setFlag_ok | with_reducible apply State.each_ok | with_reducible apply State.clampSync_ok | with_reducible apply ok_ite | (fail_if_no_progress with_reducible apply ok_mk) | with_reducible apply each_ok

theorem execFastClampRelease_ok {pq : List Instr} (t : Option (Fin 8)) (s : State) (hok : s.Ok pq) : OutOk pq (execFastClampRelease t s) := by
  unfold execFastClampRelease
  try dsimp only
  repeat' first | with_reducible assumption | with_reducible intro _ | with_reducible apply State.setOwnClamp_ok | with_reducible apply State.setAllClamp_ok | with_reducible apply ok_ite | (fail_if_no_progress with_reducible apply ok_mk) | with_reducible apply each_ok | with_reducible apply next_ok | with_reducible refine ok_snd (by with_reducible assumption) ?_ | with_reducible refine ok_fst (by with_reducible assumption) ?_ | with_reducible refine ok_some (by with_reducible assumption) ?_ | with_reducible apply foldl_ok | split

theorem State.setCap_ok {pq : List Instr} (s : State) (v : Nat) (hok : s.Ok pq) : (State.setCap s v).Ok pq := by
  unfold State.setCap
  try dsimp only
  repeat' first | with_reducible assumption | with_reducible intro _ | with_reducible apply State.setFld_ok | with_reducible apply State.setFlag_ok | with_reducible apply State.event_ok | with_reducible apply ok_ite

theorem execPowerLoopTick_ok {pq : List Instr} (s : State) (hok : s.Ok pq) : OutOk pq (execPowerLoopTick s) := by
  unfold execPowerLoopTick
  try dsimp only
  repeat' first | with_reducible assumption | with_reducible intro _ | with_reducible apply State.setCap_ok | with_reducible apply ok_ite | (fail_if_no_progress with_reducible apply ok_mk) | with_reducible apply each_ok | with_reducible apply next_ok

theorem State.clampAll_ok {pq : List Instr} (s : State) (hok : s.Ok pq) : (State.clampAll s).Ok pq := by
  unfold State.clampAll
  try dsimp only
  repeat' first | with_reducible assumption | with_reducible intro _ | with_reducible apply State.event_ok | with_reducible apply State.setAllClamp_ok | with_reducible apply State.setCap_ok | with_reducible apply ok_ite

theorem State.setTileCap_ok {pq : List Instr} (s : State) (t v : Nat) (hok : s.Ok pq) : (State.setTileCap s t v).Ok pq := by
  unfold State.setTileCap
  try dsimp only
  repeat' first | with_reducible assumption | with_reducible intro _ | with_reducible apply ok_ite | (fail_if_no_progress with_reducible apply ok_mk)

theorem State.setAt_ok {pq : List Instr} (s : State) (low : Bool) (t v : Nat) (hok : s.Ok pq) : (State.setAt s low t v).Ok pq := by
  unfold State.setAt
  try dsimp only
  repeat' first | with_reducible assumption | with_reducible intro _ | with_reducible apply ok_ite | (fail_if_no_progress with_reducible apply ok_mk)

theorem State.capTile_ok {pq : List Instr} (s : State) (t : Nat) (hok : s.Ok pq) : (State.capTile s t).Ok pq := by
  unfold State.capTile
  try dsimp only
  repeat' first | with_reducible assumption | with_reducible intro _ | with_reducible apply State.event_ok | with_reducible apply State.setOwnClamp_ok | with_reducible apply State.setTileCap_ok | with_reducible apply State.setAt_ok | with_reducible apply ok_ite

theorem execPowerSample_ok {pq : List Instr} (i : PowerIn) (s : State) (hok : s.Ok pq) : OutOk pq (execPowerSample i s) := by
  unfold execPowerSample
  try dsimp only
  repeat' first | with_reducible assumption | with_reducible intro _ | with_reducible apply State.setFlag_ok | with_reducible apply State.each_ok | with_reducible apply State.event_ok | with_reducible apply State.pkgTelemetry_ok | with_reducible apply State.tileTelemetry_ok | with_reducible apply State.clampAll_ok | with_reducible apply State.capTile_ok | with_reducible apply ok_ite | (fail_if_no_progress with_reducible apply ok_mk) | with_reducible apply each_ok | with_reducible apply next_ok

theorem State.pwrLimit_ok {pq : List Instr} (s : State) (rq : Requester) (v : Nat) (hok : s.Ok pq) : (State.pwrLimit s rq v).Ok pq := by
  unfold State.pwrLimit
  try dsimp only
  repeat' first | with_reducible assumption | with_reducible intro _ | with_reducible apply State.setFld_ok | with_reducible apply State.countErr_ok | with_reducible apply ok_ite

theorem execPwrLimitWrite_ok {pq : List Instr} (rq : Requester) (v : Word) (s : State) (hok : s.Ok pq) : OutOk pq (execPwrLimitWrite rq v s) := by
  unfold execPwrLimitWrite
  try dsimp only
  repeat' first | with_reducible assumption | with_reducible intro _ | with_reducible apply State.privWrite_ok | with_reducible apply State.pwrLimit_ok | with_reducible apply ok_ite | (fail_if_no_progress with_reducible apply ok_mk) | with_reducible apply each_ok | with_reducible apply next_ok

theorem State.pwrReq_ok {pq : List Instr} (s : State) (rq : Requester) (t v : Nat) (hok : s.Ok pq) : (State.pwrReq s rq t v).Ok pq := by
  unfold State.pwrReq
  try dsimp only
  repeat' first | with_reducible assumption | with_reducible intro _ | with_reducible apply State.setFld_ok | with_reducible apply State.countErr_ok | with_reducible apply ok_ite

theorem execPwrTReqWrite_ok {pq : List Instr} (rq : Requester) (t : Fin 8) (v : Word) (s : State) (hok : s.Ok pq) : OutOk pq (execPwrTReqWrite rq t v s) := by
  unfold execPwrTReqWrite
  try dsimp only
  repeat' first | with_reducible assumption | with_reducible intro _ | with_reducible apply State.pwrReq_ok | with_reducible apply State.tileWrite_ok | with_reducible apply ok_ite | (fail_if_no_progress with_reducible apply ok_mk) | with_reducible apply each_ok | with_reducible apply next_ok

theorem execRegulatorFault_ok {pq : List Instr} (t : Fin 8) (under : Bool) (s : State) (hok : s.Ok pq) : OutOk pq (execRegulatorFault t under s) := by
  unfold execRegulatorFault
  try dsimp only
  repeat' first | with_reducible assumption | with_reducible intro _ | with_reducible apply State.event_ok | with_reducible apply State.trailPut_ok | with_reducible apply State.regulatorOff_ok | with_reducible apply State.tileLost_ok | with_reducible apply ok_ite | (fail_if_no_progress with_reducible apply ok_mk) | with_reducible apply each_ok | with_reducible apply next_ok

theorem State.setRail_ok {pq : List Instr} (s : State) (i : Nat) (bad : Bool) (hok : s.Ok pq) : (State.setRail s i bad).Ok pq := by
  unfold State.setRail
  try dsimp only
  repeat' first | with_reducible assumption | with_reducible intro _ | with_reducible apply ok_ite | (fail_if_no_progress with_reducible apply ok_mk)

theorem State.supplyLost_ok {pq : List Instr} (s : State) (i : Nat) (hok : s.Ok pq) : (State.supplyLost s i).Ok pq := by
  unfold State.supplyLost
  try dsimp only
  repeat' first | with_reducible assumption | with_reducible intro _ | with_reducible apply State.setFlag_ok | with_reducible apply State.event_ok | with_reducible apply State.trailPut_ok | with_reducible apply State.dark_ok | with_reducible apply State.setRail_ok | with_reducible apply ok_ite

theorem State.supplyBack_ok {pq : List Instr} (s : State) (i : Nat) (hok : s.Ok pq) : (State.supplyBack s i).Ok pq := by
  unfold State.supplyBack
  try dsimp only
  repeat' first | with_reducible assumption | with_reducible intro _ | with_reducible apply State.rerun_ok | with_reducible apply State.setRail_ok | with_reducible apply ok_ite

theorem execVinCoreLow_ok {pq : List Instr} (s : State) (hok : s.Ok pq) : OutOk pq (execVinCoreLow s) := by
  unfold execVinCoreLow
  try dsimp only
  repeat' first | with_reducible assumption | with_reducible intro _ | with_reducible apply State.supplyLost_ok | with_reducible apply ok_ite | (fail_if_no_progress with_reducible apply ok_mk) | with_reducible apply each_ok | with_reducible apply next_ok

theorem execVinCoreRestored_ok {pq : List Instr} (s : State) (hok : s.Ok pq) : OutOk pq (execVinCoreRestored s) := by
  unfold execVinCoreRestored
  try dsimp only
  repeat' first | with_reducible assumption | with_reducible intro _ | with_reducible apply State.supplyBack_ok | with_reducible apply ok_ite | (fail_if_no_progress with_reducible apply ok_mk) | with_reducible apply each_ok | with_reducible apply next_ok

theorem State.ioRail_ok {pq : List Instr} (s : State) (bad : Bool) (hok : s.Ok pq) : (State.ioRail s bad).Ok pq := by
  unfold State.ioRail
  try dsimp only
  repeat' first | with_reducible assumption | with_reducible intro _ | with_reducible apply State.each_ok | with_reducible apply State.setPort_ok | with_reducible apply State.perstSync_ok | with_reducible apply State.setRail_ok | with_reducible apply ok_ite | (fail_if_no_progress with_reducible apply ok_mk) | with_reducible apply each_ok

theorem State.tripTrail_ok {pq : List Instr} (s : State) (hok : s.Ok pq) : (State.tripTrail s).Ok pq := by
  unfold State.tripTrail
  try dsimp only
  repeat' first | with_reducible assumption | with_reducible intro _ | with_reducible apply State.trailCommit_ok | with_reducible apply ok_ite | (fail_if_no_progress with_reducible apply ok_mk)

theorem execRailLoss_ok {pq : List Instr} (r : Rail) (s : State) (hok : s.Ok pq) : OutOk pq (execRailLoss r s) := by
  unfold execRailLoss
  try dsimp only
  repeat' first | with_reducible assumption | with_reducible intro _ | with_reducible apply State.tripTrail_ok | with_reducible apply State.ioRail_ok | with_reducible apply State.supplyLost_ok | with_reducible apply State.setRail_ok | with_reducible apply State.dark_ok | with_reducible apply ok_ite | (fail_if_no_progress with_reducible apply ok_mk) | with_reducible apply each_ok | with_reducible apply next_ok | with_reducible refine ok_snd (by with_reducible assumption) ?_ | with_reducible refine ok_fst (by with_reducible assumption) ?_ | with_reducible refine ok_some (by with_reducible assumption) ?_ | with_reducible apply foldl_ok | split

theorem execRailRestored_ok {pq : List Instr} (r : Rail) (s : State) (hok : s.Ok pq) : OutOk pq (execRailRestored r s) := by
  unfold execRailRestored
  try dsimp only
  repeat' first | with_reducible assumption | with_reducible intro _ | with_reducible apply State.setRail_ok | with_reducible apply State.supplyBack_ok | with_reducible apply State.ioRail_ok | with_reducible apply ok_ite | (fail_if_no_progress with_reducible apply ok_mk) | with_reducible apply each_ok | with_reducible apply next_ok | with_reducible refine ok_snd (by with_reducible assumption) ?_ | with_reducible refine ok_fst (by with_reducible assumption) ?_ | with_reducible refine ok_some (by with_reducible assumption) ?_ | with_reducible apply foldl_ok | split

/-! Thermal. -/

theorem State.showReading_ok {pq : List Instr} (s : State) (pg : Nat) (f : Fld) (o : Option Int) (hok : s.Ok pq) : (State.showReading s pg f o).Ok pq := by
  unfold State.showReading
  try dsimp only
  repeat' first | with_reducible assumption | with_reducible intro _ | with_reducible apply State.setFld_ok | with_reducible apply State.tick_ok | with_reducible apply ok_ite | (fail_if_no_progress with_reducible apply ok_mk) | with_reducible apply each_ok | with_reducible apply next_ok | with_reducible refine ok_snd (by with_reducible assumption) ?_ | with_reducible refine ok_fst (by with_reducible assumption) ?_ | with_reducible refine ok_some (by with_reducible assumption) ?_ | with_reducible apply foldl_ok | split

theorem State.thermalRec_ok {pq : List Instr} (s : State) (sev : Nat) (payload : List Nat) (hok : s.Ok pq) : (State.thermalRec s sev payload).Ok pq := by
  unfold State.thermalRec
  try dsimp only
  repeat' first | with_reducible assumption | with_reducible intro _ | with_reducible apply State.trailPut_ok

theorem State.sensorStep_ok {pq : List Instr} (s : State) (d k : Nat) (r : SensorIn) (hok : s.Ok pq) : (State.sensorStep s d k r).Ok pq := by
  unfold State.sensorStep
  try dsimp only
  repeat' first | with_reducible assumption | with_reducible intro _ | with_reducible apply State.setFld_ok | with_reducible apply State.setFlag_ok | with_reducible apply State.event_ok | with_reducible apply State.thermalRec_ok | with_reducible apply ok_ite | (fail_if_no_progress with_reducible apply ok_mk)

theorem State.setBand_ok {pq : List Instr} (s : State) (d b : Nat) (hok : s.Ok pq) : (State.setBand s d b).Ok pq := by
  unfold State.setBand
  try dsimp only
  repeat' first | with_reducible assumption | with_reducible intro _ | with_reducible apply State.setFld_ok | with_reducible apply State.event_ok | with_reducible apply ok_ite

theorem State.bandUp_ok {pq : List Instr} (s : State) (d : Nat) (hok : s.Ok pq) : (State.bandUp s d).Ok pq := by
  unfold State.bandUp
  try dsimp only
  repeat' first | with_reducible assumption | with_reducible intro _ | with_reducible apply State.setBand_ok | with_reducible apply ok_ite

theorem execSamplingBandDrop_ok {pq : List Instr} (die : Fin 9) (s : State) (hok : s.Ok pq) : OutOk pq (execSamplingBandDrop die s) := by
  unfold execSamplingBandDrop
  try dsimp only
  repeat' first | with_reducible assumption | with_reducible intro _ | with_reducible apply State.setBand_ok | with_reducible apply ok_ite | (fail_if_no_progress with_reducible apply ok_mk) | with_reducible apply each_ok | with_reducible apply next_ok

theorem State.setRefresh_ok {pq : List Instr} (s : State) (t b : Nat) (hok : s.Ok pq) : (State.setRefresh s t b).Ok pq := by
  unfold State.setRefresh
  try dsimp only
  repeat' first | with_reducible assumption | with_reducible intro _ | with_reducible apply State.each_ok | with_reducible apply State.event_ok | with_reducible apply ok_ite | (fail_if_no_progress with_reducible apply ok_mk) | with_reducible apply each_ok

theorem State.refreshUp_ok {pq : List Instr} (s : State) (t : Nat) (hok : s.Ok pq) : (State.refreshUp s t).Ok pq := by
  unfold State.refreshUp
  try dsimp only
  repeat' first | with_reducible assumption | with_reducible intro _ | with_reducible apply State.setRefresh_ok

theorem State.hotEnter_ok {pq : List Instr} (s : State) (d : Nat) (was : Bool) (hok : s.Ok pq) : (State.hotEnter s d was).Ok pq := by
  unfold State.hotEnter
  try dsimp only
  repeat' first | with_reducible assumption | with_reducible intro _ | with_reducible apply State.each_ok | with_reducible apply State.event_ok | with_reducible apply ok_ite | (fail_if_no_progress with_reducible apply ok_mk) | with_reducible apply each_ok

theorem execRefreshBandFall_ok {pq : List Instr} (t : Fin 8) (s : State) (hok : s.Ok pq) : OutOk pq (execRefreshBandFall t s) := by
  unfold execRefreshBandFall
  try dsimp only
  repeat' first | with_reducible assumption | with_reducible intro _ | with_reducible apply State.setRefresh_ok | with_reducible apply ok_ite | (fail_if_no_progress with_reducible apply ok_mk) | with_reducible apply each_ok | with_reducible apply next_ok

theorem State.setReq_ok {pq : List Instr} (s : State) (t v : Nat) (hok : s.Ok pq) : (State.setReq s t v).Ok pq := by
  unfold State.setReq
  try dsimp only
  repeat' first | with_reducible assumption | with_reducible intro _ | with_reducible apply State.setFld_ok

theorem State.setThmState_ok {pq : List Instr} (s : State) (t v : Nat) (hok : s.Ok pq) : (State.setThmState s t v).Ok pq := by
  unfold State.setThmState
  try dsimp only
  repeat' first | with_reducible assumption | with_reducible intro _ | with_reducible apply State.setFld_ok

theorem State.setCond_ok {pq : List Instr} (s : State) (t : Nat) (v : Bool) (hok : s.Ok pq) : (State.setCond s t v).Ok pq := by
  unfold State.setCond
  try dsimp only
  repeat' first | with_reducible assumption | with_reducible intro _ | with_reducible apply ok_ite | (fail_if_no_progress with_reducible apply ok_mk)

theorem State.throttling_ok {pq : List Instr} (s : State) (t : Nat) (hok : s.Ok pq) : (State.throttling s t).Ok pq := by
  unfold State.throttling
  try dsimp only
  repeat' first | with_reducible assumption | with_reducible intro _ | with_reducible apply State.event_ok | with_reducible apply State.setThmState_ok | with_reducible apply ok_ite

theorem State.enterHot_ok {pq : List Instr} (s : State) (t : Nat) (hok : s.Ok pq) : (State.enterHot s t).Ok pq := by
  unfold State.enterHot
  try dsimp only
  repeat' first | with_reducible assumption | with_reducible intro _ | with_reducible apply State.event_ok | with_reducible apply State.thermalRec_ok | with_reducible apply State.setThmState_ok | with_reducible apply ok_ite | (fail_if_no_progress with_reducible apply ok_mk)

theorem State.requestStep_ok {pq : List Instr} (s : State) (t : Nat) (hok : s.Ok pq) : (State.requestStep s t).Ok pq := by
  unfold State.requestStep
  try dsimp only
  repeat' first | with_reducible assumption | with_reducible intro _ | with_reducible apply State.setReq_ok | with_reducible apply State.setThmState_ok | with_reducible apply State.setCond_ok | with_reducible apply State.throttling_ok | with_reducible apply State.enterHot_ok | with_reducible apply ok_ite

theorem execThrottleStep_ok {pq : List Instr} (t : Fin 8) (s : State) (hok : s.Ok pq) : OutOk pq (execThrottleStep t s) := by
  unfold execThrottleStep
  try dsimp only
  repeat' first | with_reducible assumption | with_reducible intro _ | with_reducible apply State.setReq_ok | with_reducible apply ok_ite | (fail_if_no_progress with_reducible apply ok_mk) | with_reducible apply each_ok | with_reducible apply next_ok

theorem execThrottleReleaseStep_ok {pq : List Instr} (t : Fin 8) (s : State) (hok : s.Ok pq) : OutOk pq (execThrottleReleaseStep t s) := by
  unfold execThrottleReleaseStep
  try dsimp only
  repeat' first | with_reducible assumption | with_reducible intro _ | with_reducible apply State.setReq_ok | with_reducible apply State.setThmState_ok | with_reducible apply ok_ite | (fail_if_no_progress with_reducible apply ok_mk) | with_reducible apply each_ok | with_reducible apply next_ok

theorem State.tempEvents_ok {pq : List Instr} (s : State) (before : List (Nat × Nat)) (hok : s.Ok pq) : (State.tempEvents s before).Ok pq := by
  unfold State.tempEvents
  try dsimp only
  repeat' first | with_reducible assumption | with_reducible intro _ | with_reducible apply State.emit_ok | with_reducible apply State.each_ok | with_reducible apply ok_ite | (fail_if_no_progress with_reducible apply ok_mk) | with_reducible apply each_ok

theorem State.marginStep_ok {pq : List Instr} (s : State) (hok : s.Ok pq) : (State.marginStep s).Ok pq := by
  unfold State.marginStep
  try dsimp only
  repeat' first | with_reducible assumption | with_reducible intro _ | with_reducible apply State.event_ok | with_reducible apply State.showReading_ok | with_reducible apply ok_ite

theorem State.tileReadings_ok {pq : List Instr} (s : State) (t : Nat) (hok : s.Ok pq) : (State.tileReadings s t).Ok pq := by
  unfold State.tileReadings
  try dsimp only
  repeat' first | with_reducible assumption | with_reducible intro _ | with_reducible apply State.setFld_ok | with_reducible apply State.showReading_ok

theorem State.sampleMax_ok {pq : List Instr} (s : State) (d : Nat) (hok : s.Ok pq) : (State.sampleMax s d).Ok pq := by
  unfold State.sampleMax
  try dsimp only
  repeat' first | with_reducible assumption | with_reducible intro _ | with_reducible apply ok_ite | (fail_if_no_progress with_reducible apply ok_mk) | with_reducible apply each_ok | with_reducible apply next_ok | with_reducible refine ok_snd (by with_reducible assumption) ?_ | with_reducible refine ok_fst (by with_reducible assumption) ?_ | with_reducible refine ok_some (by with_reducible assumption) ?_ | with_reducible apply foldl_ok | split

theorem State.floorCause_ok {pq : List Instr} (s : State) (i : Nat) (hok : s.Ok pq) : (State.floorCause s i).Ok pq := by
  unfold State.floorCause
  try dsimp only
  repeat' first | with_reducible assumption | with_reducible intro _ | with_reducible apply State.thermalRec_ok | with_reducible apply State.event_ok | with_reducible apply State.setFlag_ok | with_reducible apply State.setFld_ok | with_reducible apply ok_ite | (fail_if_no_progress with_reducible apply ok_mk)

theorem State.floorRestore_ok {pq : List Instr} (s : State) (i : Nat) (hok : s.Ok pq) : (State.floorRestore s i).Ok pq := by
  unfold State.floorRestore
  try dsimp only
  repeat' first | with_reducible assumption | with_reducible intro _ | with_reducible apply State.setFld_ok | with_reducible apply State.setFlag_ok | with_reducible apply State.event_ok | with_reducible apply State.thermalRec_ok | with_reducible apply ok_ite | (fail_if_no_progress with_reducible apply ok_mk)

theorem State.okSync_ok {pq : List Instr} (s : State) (hok : s.Ok pq) : (State.okSync s).Ok pq := by
  unfold State.okSync
  try dsimp only
  repeat' first | with_reducible assumption | with_reducible intro _ | with_reducible apply State.floorCause_ok | with_reducible apply ok_ite

theorem execCoolantOkHigh_ok {pq : List Instr} (s : State) (hok : s.Ok pq) : OutOk pq (execCoolantOkHigh s) := by
  unfold execCoolantOkHigh
  try dsimp only
  repeat' first | with_reducible assumption | with_reducible intro _ | with_reducible apply State.floorCause_ok | with_reducible apply ok_ite | (fail_if_no_progress with_reducible apply ok_mk) | with_reducible apply each_ok | with_reducible apply next_ok

theorem execCoolantOkRestored_ok {pq : List Instr} (s : State) (hok : s.Ok pq) : OutOk pq (execCoolantOkRestored s) := by
  unfold execCoolantOkRestored
  try dsimp only
  repeat' first | with_reducible assumption | with_reducible intro _ | with_reducible apply State.floorRestore_ok | with_reducible apply ok_ite | (fail_if_no_progress with_reducible apply ok_mk) | with_reducible apply each_ok | with_reducible apply next_ok

theorem execHubTHotRestored_ok {pq : List Instr} (s : State) (hok : s.Ok pq) : OutOk pq (execHubTHotRestored s) := by
  unfold execHubTHotRestored
  try dsimp only
  repeat' first | with_reducible assumption | with_reducible intro _ | with_reducible apply State.floorRestore_ok | with_reducible apply ok_ite | (fail_if_no_progress with_reducible apply ok_mk) | with_reducible apply each_ok | with_reducible apply next_ok

theorem State.thmRelease_ok {pq : List Instr} (s : State) (rq : Requester) (hok : s.Ok pq) : (State.thmRelease s rq).Ok pq := by
  unfold State.thmRelease
  try dsimp only
  repeat' first | with_reducible assumption | with_reducible intro _ | with_reducible apply State.countErr_ok | with_reducible apply State.floorRestore_ok | with_reducible apply ok_ite

theorem execFloorRelease_ok {pq : List Instr} (rq : Requester) (s : State) (hok : s.Ok pq) : OutOk pq (execFloorRelease rq s) := by
  unfold execFloorRelease
  try dsimp only
  repeat' first | with_reducible assumption | with_reducible intro _ | with_reducible apply State.privWrite_ok | with_reducible apply State.thmRelease_ok | with_reducible apply ok_ite | (fail_if_no_progress with_reducible apply ok_mk) | with_reducible apply each_ok | with_reducible apply next_ok

theorem State.trip_ok {pq : List Instr} (s : State) (d k : Nat) (v : Int) (hok : s.Ok pq) : (State.trip s d k v).Ok pq := by
  unfold State.trip
  try dsimp only
  repeat' first | with_reducible assumption | with_reducible intro _ | with_reducible apply State.tripTrail_ok | with_reducible apply State.dark_ok | with_reducible apply State.trailWrite_ok | with_reducible apply ok_ite | (fail_if_no_progress with_reducible apply ok_mk)

theorem State.dieActs_ok {pq : List Instr} (s : State) (d : Nat) (hok : s.Ok pq) : (State.dieActs s d).Ok pq := by
  unfold State.dieActs
  try dsimp only
  repeat' first | with_reducible assumption | with_reducible intro _ | with_reducible apply State.refreshUp_ok | with_reducible apply State.requestStep_ok | with_reducible apply State.tileReadings_ok | with_reducible apply State.floorCause_ok | with_reducible apply ok_ite

theorem execThermalConversion_ok {pq : List Instr} (die : Fin 9) (rs : List SensorIn) (s : State) (hok : s.Ok pq) : OutOk pq (execThermalConversion die rs s) := by
  unfold execThermalConversion
  try dsimp only
  repeat' first | with_reducible assumption | with_reducible intro _ | with_reducible apply State.each_ok | with_reducible apply State.sensorStep_ok | with_reducible apply State.bandUp_ok | with_reducible apply State.hotEnter_ok | with_reducible apply State.tempEvents_ok | with_reducible apply State.marginStep_ok | with_reducible apply State.sampleMax_ok | with_reducible apply State.trip_ok | with_reducible apply State.dieActs_ok | with_reducible apply ok_ite | (fail_if_no_progress with_reducible apply ok_mk) | with_reducible apply each_ok | with_reducible apply next_ok | with_reducible refine ok_snd (by with_reducible assumption) ?_ | with_reducible refine ok_fst (by with_reducible assumption) ?_ | with_reducible refine ok_some (by with_reducible assumption) ?_ | with_reducible apply foldl_ok | split

theorem execExtNtcConversion_ok {pq : List Instr} (k : Fin 2) (valid : Bool) (temp : Int) (s : State) (hok : s.Ok pq) : OutOk pq (execExtNtcConversion k valid temp s) := by
  unfold execExtNtcConversion
  try dsimp only
  repeat' first | with_reducible assumption | with_reducible intro _ | with_reducible apply State.setFld_ok | with_reducible apply State.setFlag_ok | with_reducible apply State.satFld_ok | with_reducible apply State.event_ok | with_reducible apply State.thermalRec_ok | with_reducible apply ok_ite | (fail_if_no_progress with_reducible apply ok_mk) | with_reducible apply each_ok | with_reducible apply next_ok

theorem State.cycleStep_ok {pq : List Instr} (s : State) (t : Nat) (v : Int) (hok : s.Ok pq) : (State.cycleStep s t v).Ok pq := by
  unfold State.cycleStep
  try dsimp only
  repeat' first | with_reducible assumption | with_reducible intro _ | with_reducible apply State.satFld_ok | with_reducible apply ok_ite | (fail_if_no_progress with_reducible apply ok_mk)

theorem execRiseEvaluation_ok {pq : List Instr} (s : State) (hok : s.Ok pq) : OutOk pq (execRiseEvaluation s) := by
  unfold execRiseEvaluation
  try dsimp only
  repeat' first | with_reducible assumption | with_reducible intro _ | with_reducible apply State.each_ok | with_reducible apply State.floorCause_ok | with_reducible apply State.cycleStep_ok | with_reducible apply ok_ite | (fail_if_no_progress with_reducible apply ok_mk) | with_reducible apply each_ok | with_reducible apply next_ok | with_reducible refine ok_snd (by with_reducible assumption) ?_ | with_reducible refine ok_fst (by with_reducible assumption) ?_ | with_reducible refine ok_some (by with_reducible assumption) ?_ | with_reducible apply foldl_ok | split

theorem State.cycleRecord_ok {pq : List Instr} (s : State) (hok : s.Ok pq) : (State.cycleRecord s).Ok pq := by
  unfold State.cycleRecord
  try dsimp only
  repeat' first | with_reducible assumption | with_reducible intro _ | with_reducible apply State.trailPut_ok

theorem execCycleSnapshot_ok {pq : List Instr} (s : State) (hok : s.Ok pq) : OutOk pq (execCycleSnapshot s) := by
  unfold execCycleSnapshot
  try dsimp only
  repeat' first | with_reducible assumption | with_reducible intro _ | with_reducible apply State.cycleRecord_ok | with_reducible apply ok_ite | (fail_if_no_progress with_reducible apply ok_mk) | with_reducible apply each_ok | with_reducible apply next_ok

theorem execCoolingShutdown_ok {pq : List Instr} (s : State) (hok : s.Ok pq) : OutOk pq (execCoolingShutdown s) := by
  unfold execCoolingShutdown
  try dsimp only
  repeat' first | with_reducible assumption | with_reducible intro _ | with_reducible apply State.cycleRecord_ok | with_reducible apply State.thermalRec_ok | with_reducible apply State.skPfcOn_ok | with_reducible apply State.skControl_ok | with_reducible apply State.setSkState_ok | with_reducible apply State.event_ok | with_reducible apply State.each_ok | with_reducible apply State.setFlag_ok | with_reducible apply ok_ite | (fail_if_no_progress with_reducible apply ok_mk) | with_reducible apply each_ok | with_reducible apply next_ok

theorem State.flushCompletions_ok {pq : List Instr} (s : State) (hok : s.Ok pq) : (State.flushCompletions s).Ok pq := by
  unfold State.flushCompletions
  try dsimp only
  repeat' first | with_reducible assumption | with_reducible intro _ | with_reducible apply State.pendingSend_ok | with_reducible apply State.cqSignal_ok | with_reducible apply State.each_ok | with_reducible apply ok_ite | (fail_if_no_progress with_reducible apply ok_mk) | with_reducible apply each_ok

theorem execCoolingShutdownAbsorb_ok {pq : List Instr} (s : State) (hok : s.Ok pq) : OutOk pq (execCoolingShutdownAbsorb s) := by
  unfold execCoolingShutdownAbsorb
  try dsimp only
  repeat' first | with_reducible assumption | with_reducible intro _ | with_reducible apply State.flushCompletions_ok | with_reducible apply State.dark_ok | with_reducible apply State.portDown_ok | with_reducible apply State.endJobs_ok | with_reducible apply State.vcDone_ok | with_reducible apply State.each_ok | with_reducible apply ok_ite | (fail_if_no_progress with_reducible apply ok_mk) | with_reducible apply each_ok | with_reducible apply next_ok

theorem State.thmCfg_ok {pq : List Instr} (s : State) (rq : Requester) (v : Nat) (hok : s.Ok pq) : (State.thmCfg s rq v).Ok pq := by
  unfold State.thmCfg
  try dsimp only
  repeat' first | with_reducible assumption | with_reducible intro _ | with_reducible apply State.setFld_ok | with_reducible apply State.countErr_ok | with_reducible apply ok_ite

theorem execThmCfgWrite_ok {pq : List Instr} (rq : Requester) (v : Word) (s : State) (hok : s.Ok pq) : OutOk pq (execThmCfgWrite rq v s) := by
  unfold execThmCfgWrite
  try dsimp only
  repeat' first | with_reducible assumption | with_reducible intro _ | with_reducible apply State.privWrite_ok | with_reducible apply State.thmCfg_ok | with_reducible apply ok_ite | (fail_if_no_progress with_reducible apply ok_mk) | with_reducible apply each_ok | with_reducible apply next_ok

theorem execEnergyTableClear_ok {pq : List Instr} (rq : Requester) (s : State) (hok : s.Ok pq) : OutOk pq (execEnergyTableClear rq s) := by
  unfold execEnergyTableClear
  try dsimp only
  repeat' first | with_reducible assumption | with_reducible intro _ | with_reducible apply State.privWrite_ok | with_reducible apply ok_ite | (fail_if_no_progress with_reducible apply ok_mk) | with_reducible apply each_ok | with_reducible apply next_ok

/-! Forecast. -/

theorem execForecastPublish_ok {pq : List Instr} (s : State) (hok : s.Ok pq) : OutOk pq (execForecastPublish s) := by
  unfold execForecastPublish
  try dsimp only
  repeat' first | with_reducible assumption | with_reducible intro _ | with_reducible apply State.setFld_ok | with_reducible apply State.emit_ok | with_reducible apply State.event_ok | with_reducible apply ok_ite | (fail_if_no_progress with_reducible apply ok_mk) | with_reducible apply each_ok | with_reducible apply next_ok

/-! Mgmt. -/

theorem FmcAns.only_ok {pq : List Instr} (n : Nat) : FmcOk pq (FmcAns.only n) := by
  unfold FmcAns.only
  try dsimp only
  repeat' first | with_reducible assumption | with_reducible intro _ | with_reducible apply ok_ite | (fail_if_no_progress with_reducible apply ok_mk) | with_reducible apply each_ok | with_reducible apply next_ok | with_reducible apply fmc_mk_ok | with_reducible apply fmc_only_ok | with_reducible apply fmc_only_act | with_reducible apply fmc_ite | with_reducible apply pldm_mk_ok | with_reducible apply pldm_ite | with_reducible apply id_ok

theorem State.fmcSend_ok {pq : List Instr} (s : State) (f : Fmc) (cmd : Nat) (body : List Nat) (a : FmcAns) (hok : s.Ok pq) : (State.fmcSend s f cmd body a).Ok pq := by
  unfold State.fmcSend
  try dsimp only
  repeat' first | with_reducible assumption | with_reducible intro _ | with_reducible apply State.emit_ok | with_reducible apply ok_ite | (fail_if_no_progress with_reducible apply ok_mk)

theorem State.fmcRun_ok {pq : List Instr} (s : State) (f : Fmc) (cmd : Nat) (body : List Nat) (k : State → FmcAns) (h : s.Ok pq)
    (hk : ∀ s : State, s.Ok pq → FmcOk pq (k s)) : (s.fmcRun f cmd body k).Ok pq := by
  unfold State.fmcRun
  split
  · exact h
  · split
    · split
      · exact State.emit_ok _ _ (State.satFld_ok _ _ _ _ h)
      · exact State.emit_ok _ _ h
    · split
      · exact State.fmcSend_ok _ _ _ _ _ h
      · exact hk s h _ (State.fmcSend_ok _ _ _ _ _ h)

theorem State.setNonce_ok {pq : List Instr} (s : State) (k : Nat) (v : Option (List Byte)) (hok : s.Ok pq) : (State.setNonce s k v).Ok pq := by
  unfold State.setNonce
  try dsimp only
  repeat' first | with_reducible assumption | with_reducible intro _ | with_reducible apply ok_ite | (fail_if_no_progress with_reducible apply ok_mk)

theorem State.setDbgNonce_ok {pq : List Instr} (s : State) (k : Nat) (v : Option (List Byte)) (hok : s.Ok pq) : (State.setDbgNonce s k v).Ok pq := by
  unfold State.setDbgNonce
  try dsimp only
  repeat' first | with_reducible assumption | with_reducible intro _ | with_reducible apply ok_ite | (fail_if_no_progress with_reducible apply ok_mk)

theorem State.secRecord_ok {pq : List Instr} (s : State) (sev : Nat) (payload : List Nat) (hok : s.Ok pq) : (State.secRecord s sev payload).Ok pq := by
  unfold State.secRecord
  try dsimp only
  repeat' first | with_reducible assumption | with_reducible intro _ | with_reducible apply State.trailPut_ok

theorem State.authFail_ok {pq : List Instr} (s : State) (code : Nat) (hok : s.Ok pq) : (State.authFail s code).Ok pq := by
  unfold State.authFail
  try dsimp only
  repeat' first | with_reducible assumption | with_reducible intro _ | with_reducible apply State.satFld_ok | with_reducible apply State.event_ok | with_reducible apply State.countErr_ok

theorem execGetNonce_ok {pq : List Instr} (f : Fmc) (s : State) (hok : s.Ok pq) : OutOk pq (execGetNonce f s) := by
  unfold execGetNonce
  try dsimp only
  repeat' first | with_reducible assumption | with_reducible intro _ | with_reducible apply State.tick_ok | with_reducible apply State.fmcRun_ok | with_reducible apply State.setNonce_ok | with_reducible apply ok_ite | (fail_if_no_progress with_reducible apply ok_mk) | with_reducible apply each_ok | with_reducible apply next_ok | with_reducible apply fmc_mk_ok

theorem execNonceExpiry_ok {pq : List Instr} (src : MctpSrc) (s : State) (hok : s.Ok pq) : OutOk pq (execNonceExpiry src s) := by
  unfold execNonceExpiry
  try dsimp only
  repeat' first | with_reducible assumption | with_reducible intro _ | with_reducible apply State.setNonce_ok | with_reducible apply ok_ite | (fail_if_no_progress with_reducible apply ok_mk) | with_reducible apply each_ok | with_reducible apply next_ok

theorem execTrailRead_ok {pq : List Instr} (f : Fmc) (slot : Fin 4096) (n : Fin 64) (s : State) (hok : s.Ok pq) : OutOk pq (execTrailRead f slot n s) := by
  unfold execTrailRead
  try dsimp only
  repeat' first | with_reducible assumption | with_reducible intro _ | with_reducible apply State.fmcRun_ok | with_reducible apply ok_ite | (fail_if_no_progress with_reducible apply ok_mk) | with_reducible apply each_ok | with_reducible apply next_ok | with_reducible apply fmc_mk_ok | with_reducible apply fmc_only_ok | with_reducible apply fmc_only_act | with_reducible apply fmc_ite | with_reducible apply pldm_mk_ok | with_reducible apply pldm_ite | with_reducible apply id_ok

theorem execDevReset_ok {pq : List Instr} (f : Fmc) (s : State) (hok : s.Ok pq) : OutOk pq (execDevReset f s) := by
  unfold execDevReset
  try dsimp only
  repeat' first | with_reducible assumption | with_reducible intro _ | with_reducible apply State.warmReset_ok | with_reducible apply FmcAns.only_ok | with_reducible apply State.fmcRun_ok | with_reducible apply ok_ite | (fail_if_no_progress with_reducible apply ok_mk) | with_reducible apply each_ok | with_reducible apply next_ok | with_reducible apply fmc_mk_ok | with_reducible apply fmc_only_ok | with_reducible apply fmc_only_act | with_reducible apply fmc_ite | with_reducible apply pldm_mk_ok | with_reducible apply pldm_ite | with_reducible apply id_ok | with_reducible refine ok_snd (by with_reducible assumption) ?_ | with_reducible refine ok_fst (by with_reducible assumption) ?_ | with_reducible refine ok_some (by with_reducible assumption) ?_ | with_reducible apply foldl_ok | split

theorem State.leaveShutdown_ok {pq : List Instr} (s : State) (hok : s.Ok pq) : (State.leaveShutdown s).Ok pq := by
  unfold State.leaveShutdown
  try dsimp only
  repeat' first | with_reducible assumption | with_reducible intro _ | with_reducible apply State.rerun_ok | with_reducible apply State.setFlag_ok | with_reducible apply ok_ite

theorem execRestart_ok {pq : List Instr} (f : Fmc) (s : State) (hok : s.Ok pq) : OutOk pq (execRestart f s) := by
  unfold execRestart
  try dsimp only
  repeat' first | with_reducible assumption | with_reducible intro _ | with_reducible apply State.leaveShutdown_ok | with_reducible apply State.fmcRun_ok | with_reducible apply FmcAns.only_ok | with_reducible apply ok_ite | (fail_if_no_progress with_reducible apply ok_mk) | with_reducible apply each_ok | with_reducible apply next_ok | with_reducible apply fmc_mk_ok | with_reducible apply fmc_only_ok | with_reducible apply fmc_only_act | with_reducible apply fmc_ite | with_reducible apply id_ok | with_reducible refine ok_snd (by with_reducible assumption) ?_ | with_reducible refine ok_fst (by with_reducible assumption) ?_ | with_reducible refine ok_some (by with_reducible assumption) ?_ | with_reducible apply foldl_ok | split

theorem execEventSub_ok {pq : List Instr} (f : Fmc) (eid : Fin 256) (s : State) (hok : s.Ok pq) : OutOk pq (execEventSub f eid s) := by
  unfold execEventSub
  try dsimp only
  repeat' first | with_reducible assumption | with_reducible intro _ | with_reducible apply State.fmcRun_ok | with_reducible apply ok_ite | (fail_if_no_progress with_reducible apply ok_mk) | with_reducible apply each_ok | with_reducible apply next_ok | with_reducible apply fmc_mk_ok

theorem State.signed_ok {pq : List Instr} (s : State) (src : MctpSrc) (msg : List Byte) (g : Signed) (k : State → FmcAns) (h : s.Ok pq)
    (hk : ∀ s : State, s.Ok pq → FmcOk pq (k s)) : FmcOk pq (s.signed src msg g k) := by
  unfold State.signed
  dsimp only
  repeat' apply fmc_ite
  · exact fmc_only_ok
  · exact fmc_mk_ok fun _ h => State.authFail_ok _ _ h
  · exact fmc_mk_ok fun _ h => State.authFail_ok _ _ h
  · exact fmc_mk_ok fun _ h => State.authFail_ok _ _ (State.setNonce_ok _ _ _ h)
  · exact fmc_mk_ok fun _ h1 => State.event_ok _ _ _ (hk s h _ (State.setNonce_ok _ _ _ h1))
  · exact fmc_mk_ok fun _ h => State.setNonce_ok _ _ _ h

theorem State.fmcSigned_ok {pq : List Instr} (s : State) (f : Fmc) (cmd : Nat) (body : List Nat) (g : Signed) (k : State → FmcAns) (h : s.Ok pq)
    (hk : ∀ s : State, s.Ok pq → FmcOk pq (k s)) : (s.fmcSigned f cmd body g k).Ok pq :=
  State.fmcRun_ok _ _ _ _ _ h fun _ h => State.signed_ok _ _ _ _ _ h hk

theorem State.ownerMove_ok {pq : List Instr} (s : State) (p : Nat) (hok : s.Ok pq) : (State.ownerMove s p).Ok pq := by
  unfold State.ownerMove
  try dsimp only
  repeat' first | with_reducible assumption | with_reducible intro _ | with_reducible apply State.secRecord_ok | with_reducible apply State.clearDone_ok | with_reducible apply State.landClient_ok | with_reducible apply State.setFn_ok | with_reducible apply State.each_ok | with_reducible apply State.satFld_ok | with_reducible apply State.setFld_ok | with_reducible apply ok_ite | (fail_if_no_progress with_reducible apply ok_mk) | with_reducible apply each_ok

theorem execOwnerTransfer_ok {pq : List Instr} (f : Fmc) (g : Signed) (port : Nat) (s : State) (hok : s.Ok pq) : OutOk pq (execOwnerTransfer f g port s) := by
  unfold execOwnerTransfer
  try dsimp only
  repeat' first | with_reducible assumption | with_reducible intro _ | with_reducible apply FmcAns.only_ok | with_reducible apply State.fmcSigned_ok | with_reducible apply State.ownerMove_ok | with_reducible apply ok_ite | (fail_if_no_progress with_reducible apply ok_mk) | with_reducible apply each_ok | with_reducible apply next_ok | with_reducible apply fmc_mk_ok | with_reducible apply fmc_only_ok | with_reducible apply fmc_only_act | with_reducible apply fmc_ite | with_reducible apply pldm_mk_ok | with_reducible apply pldm_ite | with_reducible apply id_ok | with_reducible refine ok_snd (by with_reducible assumption) ?_ | with_reducible refine ok_fst (by with_reducible assumption) ?_ | with_reducible refine ok_some (by with_reducible assumption) ?_ | with_reducible apply foldl_ok | split

theorem State.substitute_ok {pq : List Instr} (s : State) (fact : FieldFact) (hok : s.Ok pq) : (State.substitute s fact).Ok pq := by
  unfold State.substitute
  try dsimp only
  repeat' first | with_reducible assumption | with_reducible intro _ | with_reducible apply State.addFact_ok | with_reducible apply ok_ite | (fail_if_no_progress with_reducible apply ok_mk)

theorem execFieldSubst_ok {pq : List Instr} (f : Fmc) (g : Signed) (tile cluster p : Nat) (s : State) (hok : s.Ok pq) : OutOk pq (execFieldSubst f g tile cluster p s) := by
  unfold execFieldSubst
  try dsimp only
  repeat' first | with_reducible assumption | with_reducible intro _ | with_reducible apply FmcAns.only_ok | with_reducible apply State.fmcSigned_ok | with_reducible apply State.substitute_ok | with_reducible apply ok_ite | (fail_if_no_progress with_reducible apply ok_mk) | with_reducible apply each_ok | with_reducible apply next_ok | with_reducible apply fmc_mk_ok | with_reducible apply fmc_only_ok | with_reducible apply fmc_only_act | with_reducible apply fmc_ite | with_reducible apply pldm_mk_ok | with_reducible apply pldm_ite | with_reducible apply id_ok | with_reducible refine ok_snd (by with_reducible assumption) ?_ | with_reducible refine ok_fst (by with_reducible assumption) ?_ | with_reducible refine ok_some (by with_reducible assumption) ?_ | with_reducible apply foldl_ok | split

theorem State.mapErase_ok {pq : List Instr} (s : State) (hok : s.Ok pq) : (State.mapErase s).Ok pq := by
  unfold State.mapErase
  try dsimp only
  repeat' first | with_reducible assumption | with_reducible intro _ | with_reducible apply State.setFld_ok | with_reducible apply State.secRecord_ok | with_reducible apply ok_ite | (fail_if_no_progress with_reducible apply ok_mk)

theorem execFieldMapClear_ok {pq : List Instr} (f : Fmc) (g : Signed) (s : State) (hok : s.Ok pq) : OutOk pq (execFieldMapClear f g s) := by
  unfold execFieldMapClear
  try dsimp only
  repeat' first | with_reducible assumption | with_reducible intro _ | with_reducible apply State.fmcSigned_ok | with_reducible apply State.mapErase_ok | with_reducible apply ok_ite | (fail_if_no_progress with_reducible apply ok_mk) | with_reducible apply each_ok | with_reducible apply next_ok | with_reducible apply fmc_mk_ok

theorem State.fuseStart_ok {pq : List Instr} (s : State) (kind v : Nat) (hok : s.Ok pq) : (State.fuseStart s kind v).Ok pq := by
  unfold State.fuseStart
  try dsimp only
  repeat' first | with_reducible assumption | with_reducible intro _ | with_reducible apply ok_ite | (fail_if_no_progress with_reducible apply ok_mk)

theorem execSvnCommit_ok {pq : List Instr} (f : Fmc) (g : Signed) (s : State) (hok : s.Ok pq) : OutOk pq (execSvnCommit f g s) := by
  unfold execSvnCommit
  try dsimp only
  repeat' first | with_reducible assumption | with_reducible intro _ | with_reducible apply FmcAns.only_ok | with_reducible apply State.fmcSigned_ok | with_reducible apply State.fuseStart_ok | with_reducible apply ok_ite | (fail_if_no_progress with_reducible apply ok_mk) | with_reducible apply each_ok | with_reducible apply next_ok | with_reducible apply fmc_mk_ok | with_reducible apply fmc_only_ok | with_reducible apply fmc_only_act | with_reducible apply fmc_ite | with_reducible apply pldm_mk_ok | with_reducible apply pldm_ite | with_reducible apply id_ok | with_reducible refine ok_snd (by with_reducible assumption) ?_ | with_reducible refine ok_fst (by with_reducible assumption) ?_ | with_reducible refine ok_some (by with_reducible assumption) ?_ | with_reducible apply foldl_ok | split

theorem execKeyRevoke_ok {pq : List Instr} (f : Fmc) (g : Signed) (slot : Nat) (s : State) (hok : s.Ok pq) : OutOk pq (execKeyRevoke f g slot s) := by
  unfold execKeyRevoke
  try dsimp only
  repeat' first | with_reducible assumption | with_reducible intro _ | with_reducible apply FmcAns.only_ok | with_reducible apply State.fmcSigned_ok | with_reducible apply State.fuseStart_ok | with_reducible apply ok_ite | (fail_if_no_progress with_reducible apply ok_mk) | with_reducible apply each_ok | with_reducible apply next_ok | with_reducible apply fmc_mk_ok | with_reducible apply fmc_only_ok | with_reducible apply fmc_only_act | with_reducible apply fmc_ite | with_reducible apply pldm_mk_ok | with_reducible apply pldm_ite | with_reducible apply id_ok | with_reducible refine ok_snd (by with_reducible assumption) ?_ | with_reducible refine ok_fst (by with_reducible assumption) ?_ | with_reducible refine ok_some (by with_reducible assumption) ?_ | with_reducible apply foldl_ok | split

theorem execFuseWriteDone_ok {pq : List Instr} (s : State) (hok : s.Ok pq) : OutOk pq (execFuseWriteDone s) := by
  unfold execFuseWriteDone
  try dsimp only
  repeat' first | with_reducible assumption | with_reducible intro _ | with_reducible apply State.secRecord_ok | with_reducible apply ok_ite | (fail_if_no_progress with_reducible apply ok_mk) | with_reducible apply each_ok | with_reducible apply next_ok | with_reducible refine ok_snd (by with_reducible assumption) ?_ | with_reducible refine ok_fst (by with_reducible assumption) ?_ | with_reducible refine ok_some (by with_reducible assumption) ?_ | with_reducible apply foldl_ok | split

theorem execDebugChallenge_ok {pq : List Instr} (f : Fmc) (s : State) (hok : s.Ok pq) : OutOk pq (execDebugChallenge f s) := by
  unfold execDebugChallenge
  try dsimp only
  repeat' first | with_reducible assumption | with_reducible intro _ | with_reducible apply State.setDbgNonce_ok | with_reducible apply State.fmcRun_ok | with_reducible apply State.tick_ok | with_reducible apply ok_ite | (fail_if_no_progress with_reducible apply ok_mk) | with_reducible apply each_ok | with_reducible apply next_ok | with_reducible apply fmc_mk_ok

theorem State.unlockScopes_ok {pq : List Instr} (s : State) (scope : Nat) (hok : s.Ok pq) : (State.unlockScopes s scope).Ok pq := by
  unfold State.unlockScopes
  try dsimp only
  repeat' first | with_reducible assumption | with_reducible intro _ | with_reducible apply State.setFld_ok | with_reducible apply State.event_ok | with_reducible apply State.secRecord_ok

theorem execDebugUnlock_ok {pq : List Instr} (f : Fmc) (device nonce : List Byte) (scope : Word) (key sig : List Byte) (s : State) (hok : s.Ok pq) : OutOk pq (execDebugUnlock f device nonce scope key sig s) := by
  unfold execDebugUnlock
  try dsimp only
  repeat' first | with_reducible assumption | with_reducible intro _ | with_reducible apply State.unlockScopes_ok | with_reducible apply State.authFail_ok | with_reducible apply State.setDbgNonce_ok | with_reducible apply State.fmcRun_ok | with_reducible apply FmcAns.only_ok | with_reducible apply ok_ite | (fail_if_no_progress with_reducible apply ok_mk) | with_reducible apply each_ok | with_reducible apply next_ok | with_reducible apply fmc_mk_ok | with_reducible apply fmc_only_ok | with_reducible apply fmc_only_act | with_reducible apply fmc_ite | with_reducible apply id_ok | with_reducible refine ok_snd (by with_reducible assumption) ?_ | with_reducible refine ok_fst (by with_reducible assumption) ?_ | with_reducible refine ok_some (by with_reducible assumption) ?_ | with_reducible apply foldl_ok | split

theorem execMctpControl_ok {pq : List Instr} (src : MctpSrc) (op : MctpOp) (s : State) (hok : s.Ok pq) : OutOk pq (execMctpControl src op s) := by
  unfold execMctpControl
  try dsimp only
  repeat' first | with_reducible assumption | with_reducible intro _ | with_reducible apply State.setFld_ok | with_reducible apply State.emit_ok | with_reducible apply ok_ite | (fail_if_no_progress with_reducible apply ok_mk) | with_reducible apply each_ok | with_reducible apply next_ok | with_reducible refine ok_snd (by with_reducible assumption) ?_ | with_reducible refine ok_fst (by with_reducible assumption) ?_ | with_reducible refine ok_some (by with_reducible assumption) ?_ | with_reducible apply foldl_ok | split

theorem execI3cAddressAssign_ok {pq : List Instr} (a : I3cAssign) (s : State) (hok : s.Ok pq) : OutOk pq (execI3cAddressAssign a s) := by
  unfold execI3cAddressAssign
  try dsimp only
  repeat' first | with_reducible assumption | with_reducible intro _ | with_reducible apply State.setFld_ok | with_reducible apply ok_ite | (fail_if_no_progress with_reducible apply ok_mk) | with_reducible apply each_ok | with_reducible apply next_ok

/-! Security. -/

theorem State.pldmRun_ok {pq : List Instr} (s : State) (src : MctpSrc) (inst : Nat) (body : List Nat) (k : State → PldmAns) (h : s.Ok pq)
    (hk : ∀ s : State, s.Ok pq → PldmOk pq (k s)) : (s.pldmRun src inst body k).Ok pq := by
  have hf : ((k s).act (State.emit { s with mgt := { s.mgt with pldm := Tab.set pldm0 s.mgt.pldm (srcKey src) (some ⟨inst, body, (k s).code, (k s).data⟩) } }
      (.pldm (srcKey src) (k s).code (k s).data))).Ok pq := hk s h _ (State.emit_ok _ _ (ok_mk h))
  unfold State.pldmRun
  split
  · exact h
  · refine ok_ite (State.emit_ok _ _ h) ?_
    split
    · split
      · exact State.emit_ok _ _ h
      · exact hf
    · exact hf

theorem execPldmMonitorRequest_ok {pq : List Instr} (src : MctpSrc) (inst : Nat) (op : PldmOp) (s : State) (hok : s.Ok pq) : OutOk pq (execPldmMonitorRequest src inst op s) := by
  unfold execPldmMonitorRequest
  try dsimp only
  repeat' first | with_reducible assumption | with_reducible intro _ | with_reducible apply State.pldmRun_ok | with_reducible apply ok_ite | (fail_if_no_progress with_reducible apply ok_mk) | with_reducible apply each_ok | with_reducible apply next_ok | with_reducible apply fmc_mk_ok | with_reducible apply fmc_only_ok | with_reducible apply fmc_only_act | with_reducible apply fmc_ite | with_reducible apply pldm_mk_ok | with_reducible apply pldm_ite | with_reducible apply id_ok | with_reducible refine ok_snd (by with_reducible assumption) ?_ | with_reducible refine ok_fst (by with_reducible assumption) ?_ | with_reducible refine ok_some (by with_reducible assumption) ?_ | with_reducible apply foldl_ok | split

theorem State.setUpdate_ok {pq : List Instr} (s : State) (u : Option Update) (hok : s.Ok pq) : (State.setUpdate s u).Ok pq := by
  unfold State.setUpdate
  try dsimp only
  repeat' first | with_reducible assumption | with_reducible intro _ | with_reducible apply ok_ite | (fail_if_no_progress with_reducible apply ok_mk)

theorem State.updateStart_ok {pq : List Instr} (s : State) (comp : Nat) (hok : s.Ok pq) : (State.updateStart s comp).Ok pq := by
  unfold State.updateStart
  try dsimp only
  repeat' first | with_reducible assumption | with_reducible intro _ | with_reducible apply State.setUpdate_ok | with_reducible apply State.emit_ok

theorem execPldmUpdateComponent_ok {pq : List Instr} (src : MctpSrc) (inst comp : Nat) (s : State) (hok : s.Ok pq) : OutOk pq (execPldmUpdateComponent src inst comp s) := by
  unfold execPldmUpdateComponent
  try dsimp only
  repeat' first | with_reducible assumption | with_reducible intro _ | with_reducible apply State.pldmRun_ok | with_reducible apply State.updateStart_ok | with_reducible apply ok_ite | (fail_if_no_progress with_reducible apply ok_mk) | with_reducible apply each_ok | with_reducible apply next_ok | with_reducible apply fmc_mk_ok | with_reducible apply fmc_only_ok | with_reducible apply fmc_only_act | with_reducible apply fmc_ite | with_reducible apply pldm_mk_ok | with_reducible apply pldm_ite | with_reducible apply id_ok | with_reducible refine ok_snd (by with_reducible assumption) ?_ | with_reducible refine ok_fst (by with_reducible assumption) ?_ | with_reducible refine ok_some (by with_reducible assumption) ?_ | with_reducible apply foldl_ok | split

theorem execPldmFirmwareData_ok {pq : List Instr} (data : List Byte) (s : State) (hok : s.Ok pq) : OutOk pq (execPldmFirmwareData data s) := by
  unfold execPldmFirmwareData
  try dsimp only
  repeat' first | with_reducible assumption | with_reducible intro _ | with_reducible apply State.setUpdate_ok | with_reducible apply State.emit_ok | with_reducible apply ok_ite | (fail_if_no_progress with_reducible apply ok_mk) | with_reducible apply each_ok | with_reducible apply next_ok | with_reducible refine ok_snd (by with_reducible assumption) ?_ | with_reducible refine ok_fst (by with_reducible assumption) ?_ | with_reducible refine ok_some (by with_reducible assumption) ?_ | with_reducible apply foldl_ok | split

theorem execPldmVerifyComplete_ok {pq : List Instr} (back : Option (List Byte)) (s : State) (hok : s.Ok pq) : OutOk pq (execPldmVerifyComplete back s) := by
  unfold execPldmVerifyComplete
  try dsimp only
  repeat' first | with_reducible assumption | with_reducible intro _ | with_reducible apply State.setUpdate_ok | with_reducible apply State.emit_ok | with_reducible apply ok_ite | (fail_if_no_progress with_reducible apply ok_mk) | with_reducible apply each_ok | with_reducible apply next_ok | with_reducible refine ok_snd (by with_reducible assumption) ?_ | with_reducible refine ok_fst (by with_reducible assumption) ?_ | with_reducible refine ok_some (by with_reducible assumption) ?_ | with_reducible apply foldl_ok | split

theorem State.activate_ok {pq : List Instr} (s : State) (hok : s.Ok pq) : (State.activate s).Ok pq := by
  unfold State.activate
  try dsimp only
  repeat' first | with_reducible assumption | with_reducible intro _ | with_reducible apply State.emit_ok | with_reducible apply State.secRecord_ok | with_reducible apply State.setUpdate_ok

theorem execPldmActivateFirmware_ok {pq : List Instr} (src : MctpSrc) (inst : Nat) (s : State) (hok : s.Ok pq) : OutOk pq (execPldmActivateFirmware src inst s) := by
  unfold execPldmActivateFirmware
  try dsimp only
  repeat' first | with_reducible assumption | with_reducible intro _ | with_reducible apply State.complete_ok | with_reducible apply State.pldmRun_ok | with_reducible apply State.activate_ok | with_reducible apply ok_ite | (fail_if_no_progress with_reducible apply ok_mk) | with_reducible apply each_ok | with_reducible apply next_ok | with_reducible apply fmc_mk_ok | with_reducible apply fmc_only_ok | with_reducible apply fmc_only_act | with_reducible apply fmc_ite | with_reducible apply pldm_mk_ok | with_reducible apply pldm_ite | with_reducible apply id_ok | with_reducible refine ok_snd (by with_reducible assumption) ?_ | with_reducible refine ok_fst (by with_reducible assumption) ?_ | with_reducible refine ok_some (by with_reducible assumption) ?_ | with_reducible apply foldl_ok | split

theorem execManagementPush_ok {pq : List Instr} (m : Option Medium) (s : State) (hok : s.Ok pq) : OutOk pq (execManagementPush m s) := by
  unfold execManagementPush
  try dsimp only
  repeat' first | with_reducible assumption | with_reducible intro _ | with_reducible apply State.pushDone_ok | with_reducible apply State.emit_ok | with_reducible apply State.setFlag_ok | with_reducible apply ok_ite | (fail_if_no_progress with_reducible apply ok_mk) | with_reducible apply each_ok | with_reducible apply next_ok | with_reducible refine ok_snd (by with_reducible assumption) ?_ | with_reducible refine ok_fst (by with_reducible assumption) ?_ | with_reducible refine ok_some (by with_reducible assumption) ?_ | with_reducible apply foldl_ok | split

theorem State.respDown_ok {pq : List Instr} (s : State) (r : Responder) (hok : s.Ok pq) : (State.respDown s r).Ok pq := by
  unfold State.respDown
  try dsimp only
  repeat' first | with_reducible assumption | with_reducible intro _ | with_reducible apply State.emit_ok | with_reducible apply ok_ite | (fail_if_no_progress with_reducible apply ok_mk) | with_reducible apply each_ok | with_reducible refine ok_snd (by with_reducible assumption) ?_ | with_reducible refine ok_fst (by with_reducible assumption) ?_ | with_reducible refine ok_some (by with_reducible assumption) ?_ | with_reducible apply foldl_ok | split

theorem State.setSessions_ok {pq : List Instr} (s : State) (k n : Nat) (hok : s.Ok pq) : (State.setSessions s k n).Ok pq := by
  unfold State.setSessions
  try dsimp only
  repeat' first | with_reducible assumption | with_reducible intro _ | with_reducible apply State.setFld_ok | with_reducible apply ok_ite | (fail_if_no_progress with_reducible apply ok_mk)

theorem execSpdmRequest_ok {pq : List Instr} (r : Responder) (op : SpdmOp) (s : State) (hok : s.Ok pq) : OutOk pq (execSpdmRequest r op s) := by
  unfold execSpdmRequest
  try dsimp only
  repeat' first | with_reducible assumption | with_reducible intro _ | with_reducible apply State.setSessions_ok | with_reducible apply State.respDown_ok | with_reducible apply State.emit_ok | with_reducible apply ok_ite | (fail_if_no_progress with_reducible apply ok_mk) | with_reducible apply each_ok | with_reducible apply next_ok | with_reducible refine ok_snd (by with_reducible assumption) ?_ | with_reducible refine ok_fst (by with_reducible assumption) ?_ | with_reducible refine ok_some (by with_reducible assumption) ?_ | with_reducible apply foldl_ok | split

theorem State.setIde_ok {pq : List Instr} (s : State) (port i v : Nat) (hok : s.Ok pq) : (State.setIde s port i v).Ok pq := by
  unfold State.setIde
  try dsimp only
  repeat' first | with_reducible assumption | with_reducible intro _ | with_reducible apply ok_ite | (fail_if_no_progress with_reducible apply ok_mk)

theorem execIdeKmRequest_ok {pq : List Instr} (port : Fin 4) (stream : Fin 5) (op : IdeOp) (s : State) (hok : s.Ok pq) : OutOk pq (execIdeKmRequest port stream op s) := by
  unfold execIdeKmRequest
  try dsimp only
  repeat' first | with_reducible assumption | with_reducible intro _ | with_reducible apply State.setIde_ok | with_reducible apply State.respDown_ok | with_reducible apply State.emit_ok | with_reducible apply ok_ite | (fail_if_no_progress with_reducible apply ok_mk) | with_reducible apply each_ok | with_reducible apply next_ok | with_reducible refine ok_snd (by with_reducible assumption) ?_ | with_reducible refine ok_fst (by with_reducible assumption) ?_ | with_reducible refine ok_some (by with_reducible assumption) ?_ | with_reducible apply foldl_ok | split

theorem execIdeInsecure_ok {pq : List Instr} (port : Fin 4) (stream : Fin 5) (s : State) (hok : s.Ok pq) : OutOk pq (execIdeInsecure port stream s) := by
  unfold execIdeInsecure
  try dsimp only
  repeat' first | with_reducible assumption | with_reducible intro _ | with_reducible apply State.event_ok | with_reducible apply State.portDown_ok | with_reducible apply State.secRecord_ok | with_reducible apply ok_ite | (fail_if_no_progress with_reducible apply ok_mk) | with_reducible apply each_ok | with_reducible apply next_ok

theorem State.tapSet_ok {pq : List Instr} (s : State) (i : TapInstr) (hok : s.Ok pq) : (State.tapSet s i).Ok pq := by
  unfold State.tapSet
  try dsimp only
  repeat' first | with_reducible assumption | with_reducible intro _ | with_reducible apply State.each_ok | with_reducible apply State.portDown_ok | with_reducible apply State.dark_ok | with_reducible apply ok_ite | (fail_if_no_progress with_reducible apply ok_mk) | with_reducible apply each_ok

theorem execTapInstruction_ok {pq : List Instr} (i : TapInstr) (s : State) (hok : s.Ok pq) : OutOk pq (execTapInstruction i s) := by
  unfold execTapInstruction
  try dsimp only
  repeat' first | with_reducible assumption | with_reducible intro _ | with_reducible apply State.tapSet_ok | with_reducible apply ok_ite | (fail_if_no_progress with_reducible apply ok_mk) | with_reducible apply each_ok | with_reducible apply next_ok

theorem execTapReset_ok {pq : List Instr} (s : State) (hok : s.Ok pq) : OutOk pq (execTapReset s) := by
  unfold execTapReset
  try dsimp only
  repeat' first | with_reducible assumption | with_reducible intro _ | with_reducible apply State.tapSet_ok | with_reducible apply ok_ite | (fail_if_no_progress with_reducible apply ok_mk) | with_reducible apply each_ok | with_reducible apply next_ok

/-! RegView. -/

theorem State.fcSnap_ok {pq : List Instr} (s : State) (hok : s.Ok pq) : (State.fcSnap s).Ok pq := by
  unfold State.fcSnap
  try dsimp only
  repeat' first | with_reducible assumption | with_reducible intro _ | with_reducible apply State.setFld_ok | with_reducible apply State.each_ok | with_reducible apply ok_ite | (fail_if_no_progress with_reducible apply ok_mk) | with_reducible apply each_ok

theorem State.readReg_ok {pq : List Instr} (s : State) (pg : Nat) (i : PageInfo) (off : Nat) (tenant : Bool) (hok : s.Ok pq) : (State.readReg s pg i off tenant).2.Ok pq := by
  unfold State.readReg
  try dsimp only
  repeat' first | with_reducible assumption | with_reducible intro _ | with_reducible apply State.fcSnap_ok | with_reducible apply ok_ite | (fail_if_no_progress with_reducible apply ok_mk) | with_reducible apply each_ok | with_reducible apply next_ok | with_reducible refine ok_snd (by with_reducible assumption) ?_ | with_reducible refine ok_fst (by with_reducible assumption) ?_ | with_reducible refine ok_some (by with_reducible assumption) ?_ | with_reducible apply foldl_ok | split

theorem State.readDword_ok {pq : List Instr} (s : State) (pg off : Nat) (tenant : Bool) (hok : s.Ok pq) : (State.readDword s pg off tenant).2.Ok pq := by
  unfold State.readDword
  try dsimp only
  repeat' first | with_reducible assumption | with_reducible intro _ | with_reducible apply State.readReg_ok | with_reducible apply ok_ite | (fail_if_no_progress with_reducible apply ok_mk) | with_reducible apply each_ok | with_reducible apply next_ok | with_reducible refine ok_snd (by with_reducible assumption) ?_ | with_reducible refine ok_fst (by with_reducible assumption) ?_ | with_reducible refine ok_some (by with_reducible assumption) ?_ | with_reducible apply foldl_ok | split

theorem State.readDwords_ok {pq : List Instr} (s : State) (pg off : Nat) (tenant : Bool) (n : Nat) (h : s.Ok pq) :
    (s.readDwords pg off tenant n).2.Ok pq := by
  induction n generalizing s off with
  | zero => exact h
  | succ k ih => exact ih _ _ (State.readDword_ok _ _ _ _ h)

theorem State.answerRead_ok {pq : List Instr} (s : State) (rq : Nat) (addr n : Nat) (tenant : Bool) (hok : s.Ok pq) : (State.answerRead s rq addr n tenant).Ok pq := by
  unfold State.answerRead
  try dsimp only
  repeat' first | with_reducible assumption | with_reducible intro _ | with_reducible apply State.readDwords_ok | with_reducible apply State.emit_ok

theorem State.privRead_ok {pq : List Instr} (s : State) (rq : Requester) (addr n : Nat) (hok : s.Ok pq) : (State.privRead s rq addr n).Ok pq := by
  unfold State.privRead
  try dsimp only
  repeat' first | with_reducible assumption | with_reducible intro _ | with_reducible apply State.answerRead_ok | with_reducible apply State.hold_ok | with_reducible apply ok_ite

theorem State.readReq_ok {pq : List Instr} (s : State) (rq : Requester) (addr n : Nat) (hok : s.Ok pq) : (State.readReq s rq addr n).Ok pq := by
  unfold State.readReq
  try dsimp only
  repeat' first | with_reducible assumption | with_reducible intro _ | with_reducible apply State.privRead_ok | with_reducible apply State.answerRead_ok | with_reducible apply State.emit_ok | with_reducible apply ok_ite | (fail_if_no_progress with_reducible apply ok_mk) | with_reducible apply each_ok | with_reducible refine ok_snd (by with_reducible assumption) ?_ | with_reducible refine ok_fst (by with_reducible assumption) ?_ | with_reducible refine ok_some (by with_reducible assumption) ?_ | with_reducible apply foldl_ok | split

theorem State.readLost_ok {pq : List Instr} (s : State) (rq : Requester) (hok : s.Ok pq) : (State.readLost s rq).Ok pq := by
  unfold State.readLost
  try dsimp only
  repeat' first | with_reducible assumption | with_reducible intro _ | with_reducible apply State.emit_ok | with_reducible apply ok_ite | (fail_if_no_progress with_reducible apply ok_mk) | with_reducible apply each_ok | with_reducible apply next_ok | with_reducible refine ok_snd (by with_reducible assumption) ?_ | with_reducible refine ok_fst (by with_reducible assumption) ?_ | with_reducible refine ok_some (by with_reducible assumption) ?_ | with_reducible apply foldl_ok | split

theorem State.readFrom_ok {pq : List Instr} (s : State) (rq : Requester) (addr n : Nat) (hok : s.Ok pq) : (State.readFrom s rq addr n).Ok pq := by
  unfold State.readFrom
  try dsimp only
  repeat' first | with_reducible assumption | with_reducible intro _ | with_reducible apply State.readLost_ok | with_reducible apply State.readReq_ok | with_reducible apply ok_ite

theorem execRegisterRead_ok {pq : List Instr} (src : RegSrc) (addr : BitVec 28) (n : Nat) (s : State) (hok : s.Ok pq) : OutOk pq (execRegisterRead src addr n s) := by
  unfold execRegisterRead
  try dsimp only
  repeat' first | with_reducible assumption | with_reducible intro _ | with_reducible apply State.readFrom_ok | with_reducible apply State.emit_ok | with_reducible apply ok_ite | (fail_if_no_progress with_reducible apply ok_mk) | with_reducible apply each_ok | with_reducible apply next_ok | with_reducible refine ok_snd (by with_reducible assumption) ?_ | with_reducible refine ok_fst (by with_reducible assumption) ?_ | with_reducible refine ok_some (by with_reducible assumption) ?_ | with_reducible apply foldl_ok | split

/-! RegHooks. -/

theorem State.errRearm_ok {pq : List Instr} (s : State) (pg : Nat) (hok : s.Ok pq) : (State.errRearm s pg).Ok pq := by
  unfold State.errRearm
  try dsimp only
  repeat' first | with_reducible assumption | with_reducible intro _ | with_reducible apply State.setFlag_ok | with_reducible apply ok_ite | (fail_if_no_progress with_reducible apply ok_mk) | with_reducible apply each_ok | with_reducible apply next_ok | with_reducible refine ok_snd (by with_reducible assumption) ?_ | with_reducible refine ok_fst (by with_reducible assumption) ?_ | with_reducible refine ok_some (by with_reducible assumption) ?_ | with_reducible apply foldl_ok | split

theorem State.errClr_ok {pq : List Instr} (s : State) (pg : Nat) (hok : s.Ok pq) : (State.errClr s pg).Ok pq := by
  unfold State.errClr
  try dsimp only
  repeat' first | with_reducible assumption | with_reducible intro _ | with_reducible apply State.setFld_ok

theorem State.ctlWrite_ok {pq : List Instr} (s : State) (pg v : Nat) (hok : s.Ok pq) : (State.ctlWrite s pg v).Ok pq := by
  unfold State.ctlWrite
  try dsimp only
  repeat' first | with_reducible assumption | with_reducible intro _ | with_reducible apply State.errRearm_ok | with_reducible apply State.errClr_ok | with_reducible apply ok_ite

theorem State.intClear_ok {pq : List Instr} (s : State) (pg mask v : Nat) (hok : s.Ok pq) : (State.intClear s pg mask v).Ok pq := by
  unfold State.intClear
  try dsimp only
  repeat' first | with_reducible assumption | with_reducible intro _ | with_reducible apply State.setFld_ok | with_reducible apply State.raiseInt_ok | with_reducible apply ok_ite

theorem State.intEnable_ok {pq : List Instr} (s : State) (pg mask v : Nat) (hok : s.Ok pq) : (State.intEnable s pg mask v).Ok pq := by
  unfold State.intEnable
  try dsimp only
  repeat' first | with_reducible assumption | with_reducible intro _ | with_reducible apply State.setFld_ok | with_reducible apply State.raiseInt_ok | with_reducible apply ok_ite

theorem State.headerWrite_ok {pq : List Instr} (s : State) (pg : Nat) (i : PageInfo) (off v : Nat) (priv : Bool) (hok : s.Ok pq) : (State.headerWrite s pg i off v priv).Ok pq := by
  unfold State.headerWrite
  try dsimp only
  repeat' first | with_reducible assumption | with_reducible intro _ | with_reducible apply State.setFlag_ok | with_reducible apply State.setInts_ok | with_reducible apply State.ctlWrite_ok | with_reducible apply State.intClear_ok | with_reducible apply State.intEnable_ok | with_reducible apply ok_ite | (fail_if_no_progress with_reducible apply ok_mk) | with_reducible apply each_ok | with_reducible apply next_ok | with_reducible refine ok_snd (by with_reducible assumption) ?_ | with_reducible refine ok_fst (by with_reducible assumption) ?_ | with_reducible refine ok_some (by with_reducible assumption) ?_ | with_reducible apply foldl_ok | split

theorem State.fieldsWrite_ok {pq : List Instr} (s : State) (rq : Requester) (pg : Nat) (i : PageInfo) (off v : Nat) (hok : s.Ok pq) : (State.fieldsWrite s rq pg i off v).Ok pq := by
  unfold State.fieldsWrite
  try dsimp only
  repeat' first | with_reducible assumption | with_reducible intro _ | with_reducible apply State.setFld_ok | with_reducible apply State.each_ok | with_reducible apply State.countErr_ok | with_reducible apply ok_ite | (fail_if_no_progress with_reducible apply ok_mk) | with_reducible apply each_ok | with_reducible apply next_ok | with_reducible refine ok_snd (by with_reducible assumption) ?_ | with_reducible refine ok_fst (by with_reducible assumption) ?_ | with_reducible refine ok_some (by with_reducible assumption) ?_ | with_reducible apply foldl_ok | split

theorem State.liveWrite_ok {pq : List Instr} (s : State) (rq : Requester) (pg : Nat) (i : PageInfo) (off v code : Nat) (live : Bool) (hok : s.Ok pq) : (State.liveWrite s rq pg i off v code live).Ok pq := by
  unfold State.liveWrite
  try dsimp only
  repeat' first | with_reducible assumption | with_reducible intro _ | with_reducible apply State.countErr_ok | with_reducible apply State.fieldsWrite_ok | with_reducible apply ok_ite

theorem State.keepWrite_ok {pq : List Instr} (s : State) (rq : Requester) (pg : Nat) (i : PageInfo) (off v code : Nat) (live : Bool) (hok : s.Ok pq) : (State.keepWrite s rq pg i off v code live).Ok pq := by
  unfold State.keepWrite
  try dsimp only
  repeat' first | with_reducible assumption | with_reducible intro _ | with_reducible apply State.fieldsWrite_ok | with_reducible apply State.countErr_ok | with_reducible apply ok_ite

theorem State.hookHub_ok {pq : List Instr} (s : State) (rq : Requester) (pg : Nat) (i : PageInfo) (off v : Nat) (hok : s.Ok pq) : OptOk pq (State.hookHub s rq pg i off v) := by
  unfold State.hookHub
  try dsimp only
  repeat' first | with_reducible assumption | with_reducible intro _ | with_reducible apply State.allocWrite_ok | with_reducible apply State.poolCfgWrite_ok | with_reducible apply State.bindWrite_ok | with_reducible apply State.hubRstWrite_ok | with_reducible apply State.ptCmdWrite_ok | with_reducible apply State.pushGo_ok | with_reducible apply State.devReset_ok | with_reducible apply State.liveWrite_ok | with_reducible apply ok_ite | (fail_if_no_progress with_reducible apply ok_mk) | with_reducible apply each_ok | with_reducible apply next_ok | with_reducible apply some_ok | with_reducible apply none_ok | with_reducible refine ok_snd (by with_reducible assumption) ?_ | with_reducible refine ok_fst (by with_reducible assumption) ?_ | with_reducible refine ok_some (by with_reducible assumption) ?_ | with_reducible apply foldl_ok | split

theorem State.lnkCtl_ok {pq : List Instr} (s : State) (rq : Requester) (pg : Nat) (i : PageInfo) (v : Nat) (hok : s.Ok pq) : (State.lnkCtl s rq pg i v).Ok pq := by
  unfold State.lnkCtl
  try dsimp only
  repeat' first | with_reducible assumption | with_reducible intro _ | with_reducible apply State.setFld_ok | with_reducible apply State.lnkRetrainWrite_ok | with_reducible apply State.lnkForceWrite_ok | with_reducible apply State.lnkEnableWrite_ok | with_reducible apply State.lnkCntClear_ok | with_reducible apply State.fieldsWrite_ok | with_reducible apply ok_ite

theorem State.serCtl_ok {pq : List Instr} (s : State) (rq : Requester) (pg : Nat) (i : PageInfo) (v : Nat) (hok : s.Ok pq) : (State.serCtl s rq pg i v).Ok pq := by
  unfold State.serCtl
  try dsimp only
  repeat' first | with_reducible assumption | with_reducible intro _ | with_reducible apply State.setFld_ok | with_reducible apply State.lnkRetrainWrite_ok | with_reducible apply State.serCntClear_ok | with_reducible apply State.serEnableWrite_ok | with_reducible apply State.fieldsWrite_ok | with_reducible apply ok_ite

theorem State.hookAux_ok {pq : List Instr} (s : State) (rq : Requester) (pg : Nat) (i : PageInfo) (off v : Nat) (hok : s.Ok pq) : OptOk pq (State.hookAux s rq pg i off v) := by
  unfold State.hookAux
  try dsimp only
  repeat' first | with_reducible assumption | with_reducible intro _ | with_reducible apply State.serCtl_ok | with_reducible apply State.lnkCtl_ok | with_reducible apply State.keepWrite_ok | with_reducible apply State.fieldsWrite_ok | with_reducible apply State.vceReset_ok | with_reducible apply State.vceBist_ok | with_reducible apply State.vcBindWrite_ok | with_reducible apply State.skBindWrite_ok | with_reducible apply State.ethDown_ok | with_reducible apply State.hpcStop_ok | with_reducible apply State.hpcStart_ok | with_reducible apply State.hpcGrant_ok | with_reducible apply State.countErr_ok | with_reducible apply ok_ite | (fail_if_no_progress with_reducible apply ok_mk) | with_reducible apply each_ok | with_reducible apply some_ok | with_reducible apply none_ok | with_reducible refine ok_snd (by with_reducible assumption) ?_ | with_reducible refine ok_fst (by with_reducible assumption) ?_ | with_reducible refine ok_some (by with_reducible assumption) ?_ | with_reducible apply foldl_ok | split

theorem State.slcCtl_ok {pq : List Instr} (s : State) (rq : Requester) (pg : Nat) (i : PageInfo) (v : Nat) (hok : s.Ok pq) : (State.slcCtl s rq pg i v).Ok pq := by
  unfold State.slcCtl
  try dsimp only
  repeat' first | with_reducible assumption | with_reducible intro _ | with_reducible apply State.event_ok | with_reducible apply State.sliceFail_ok | with_reducible apply State.fieldsWrite_ok | with_reducible apply ok_ite

theorem State.hookPower_ok {pq : List Instr} (s : State) (rq : Requester) (pg : Nat) (i : PageInfo) (off v : Nat) (hok : s.Ok pq) : OptOk pq (State.hookPower s rq pg i off v) := by
  unfold State.hookPower
  try dsimp only
  repeat' first | with_reducible assumption | with_reducible intro _ | with_reducible apply State.slcCtl_ok | with_reducible apply State.fieldsWrite_ok | with_reducible apply State.thmCfg_ok | with_reducible apply State.thmRelease_ok | with_reducible apply State.okSync_ok | with_reducible apply State.pwrReq_ok | with_reducible apply State.pwrLimit_ok | with_reducible apply State.bistWrite_ok | with_reducible apply State.bistStart_ok | with_reducible apply State.ceCfgWrite_ok | with_reducible apply State.spareWrite_ok | with_reducible apply State.trlIndex_ok | with_reducible apply State.labRemove_ok | with_reducible apply ok_ite | (fail_if_no_progress with_reducible apply ok_mk) | with_reducible apply each_ok | with_reducible apply some_ok | with_reducible apply none_ok | with_reducible refine ok_snd (by with_reducible assumption) ?_ | with_reducible refine ok_fst (by with_reducible assumption) ?_ | with_reducible refine ok_some (by with_reducible assumption) ?_ | with_reducible apply foldl_ok | split

theorem State.hookTenant_ok {pq : List Instr} (s : State) (rq : Requester) (pg : Nat) (i : PageInfo) (off v : Nat) (hok : s.Ok pq) : OptOk pq (State.hookTenant s rq pg i off v) := by
  unfold State.hookTenant
  try dsimp only
  repeat' first | with_reducible assumption | with_reducible intro _ | with_reducible apply State.liveWrite_ok | with_reducible apply State.fieldsWrite_ok | with_reducible apply State.tnTrigger_ok | with_reducible apply State.flogClear_ok | with_reducible apply State.cqHeadWrite_ok | with_reducible apply State.cancel_ok | with_reducible apply State.sqCfgWrite_ok | with_reducible apply State.doorbell_ok | with_reducible apply State.coalCheck_ok | with_reducible apply State.slotQuery_ok | with_reducible apply State.countErr_ok | with_reducible apply State.setFld_ok | with_reducible apply ok_ite | (fail_if_no_progress with_reducible apply ok_mk) | with_reducible apply each_ok | with_reducible apply some_ok | with_reducible apply none_ok | with_reducible refine ok_snd (by with_reducible assumption) ?_ | with_reducible refine ok_fst (by with_reducible assumption) ?_ | with_reducible refine ok_some (by with_reducible assumption) ?_ | with_reducible apply foldl_ok | split

theorem State.hook_ok {pq : List Instr} (s : State) (rq : Requester) (pg : Nat) (i : PageInfo) (off v : Nat) (hok : s.Ok pq) : OptOk pq (State.hook s rq pg i off v) := by
  unfold State.hook
  try dsimp only
  repeat' first | with_reducible assumption | with_reducible intro _ | with_reducible apply State.hookHub_ok | with_reducible apply State.hookAux_ok | with_reducible apply State.hookPower_ok | with_reducible apply State.hookTenant_ok | with_reducible apply ok_ite | (fail_if_no_progress with_reducible apply ok_mk) | with_reducible apply each_ok | with_reducible apply next_ok | with_reducible apply some_ok | with_reducible apply none_ok | with_reducible refine ok_snd (by with_reducible assumption) ?_ | with_reducible refine ok_fst (by with_reducible assumption) ?_ | with_reducible refine ok_some (by with_reducible assumption) ?_ | with_reducible apply foldl_ok | split

theorem State.regWrite_ok {pq : List Instr} (s : State) (rq : Requester) (pg : Nat) (i : PageInfo) (off v : Nat) (priv : Bool) (hok : s.Ok pq) : (State.regWrite s rq pg i off v priv).Ok pq := by
  unfold State.regWrite
  try dsimp only
  repeat' first | with_reducible assumption | with_reducible intro _ | with_reducible apply State.headerWrite_ok | with_reducible apply State.fieldsWrite_ok | with_reducible apply State.hook_ok | with_reducible apply ok_ite | (fail_if_no_progress with_reducible apply ok_mk) | with_reducible apply each_ok | with_reducible apply next_ok | with_reducible refine ok_snd (by with_reducible assumption) ?_ | with_reducible refine ok_fst (by with_reducible assumption) ?_ | with_reducible refine ok_some (by with_reducible assumption) ?_ | with_reducible apply foldl_ok | split

theorem State.tenDword_ok {pq : List Instr} (s : State) (rq : Requester) (n pg : Nat) (i : PageInfo) (off v : Nat) (hok : s.Ok pq) : (State.tenDword s rq n pg i off v).Ok pq := by
  unfold State.tenDword
  try dsimp only
  repeat' first | with_reducible assumption | with_reducible intro _ | with_reducible apply State.tenErr_ok | with_reducible apply State.regWrite_ok | with_reducible apply ok_ite

theorem State.reqErr_ok {pq : List Instr} (s : State) (rq : Requester) (pg off code : Nat) (own : Bool) (hok : s.Ok pq) : (State.reqErr s rq pg off code own).Ok pq := by
  unfold State.reqErr
  try dsimp only
  repeat' first | with_reducible assumption | with_reducible intro _ | with_reducible apply State.countErr_ok | with_reducible apply State.tenErr_ok | with_reducible apply ok_ite | (fail_if_no_progress with_reducible apply ok_mk) | with_reducible apply each_ok | with_reducible apply next_ok | with_reducible refine ok_snd (by with_reducible assumption) ?_ | with_reducible refine ok_fst (by with_reducible assumption) ?_ | with_reducible refine ok_some (by with_reducible assumption) ?_ | with_reducible apply foldl_ok | split

theorem State.writeDword_ok {pq : List Instr} (s : State) (rq : Requester) (pg off : Nat) (w : RegDword) (hok : s.Ok pq) : (State.writeDword s rq pg off w).Ok pq := by
  unfold State.writeDword
  try dsimp only
  repeat' first | with_reducible assumption | with_reducible intro _ | with_reducible apply State.reqErr_ok | with_reducible apply State.tenDword_ok | with_reducible apply State.regWrite_ok | with_reducible apply ok_ite | (fail_if_no_progress with_reducible apply ok_mk) | with_reducible apply each_ok | with_reducible refine ok_snd (by with_reducible assumption) ?_ | with_reducible refine ok_fst (by with_reducible assumption) ?_ | with_reducible refine ok_some (by with_reducible assumption) ?_ | with_reducible apply foldl_ok | split

theorem State.writeDwords_ok {pq : List Instr} (s : State) (rq : Requester) (pg off : Nat) (ws : List RegDword) (h : s.Ok pq) :
    (s.writeDwords rq pg off ws).Ok pq := by
  induction ws generalizing s off with
  | nil => exact h
  | cons w ws ih => exact ih _ _ (State.writeDword_ok _ _ _ _ _ h)

theorem State.writeReq_ok {pq : List Instr} (s : State) (rq : Requester) (addr : Nat) (ws : List RegDword) (hok : s.Ok pq) : (State.writeReq s rq addr ws).Ok pq := by
  unfold State.writeReq
  try dsimp only
  repeat' first | with_reducible assumption | with_reducible intro _ | with_reducible apply State.writeDwords_ok | with_reducible apply State.reqErr_ok | with_reducible apply State.hold_ok | with_reducible apply State.countErr_ok | with_reducible apply ok_ite

theorem State.writeFrom_ok {pq : List Instr} (s : State) (rq : Requester) (addr : Nat) (ws : List RegDword) (ep : Bool) (hok : s.Ok pq) : (State.writeFrom s rq addr ws ep).Ok pq := by
  unfold State.writeFrom
  try dsimp only
  repeat' first | with_reducible assumption | with_reducible intro _ | with_reducible apply State.writeReq_ok | with_reducible apply State.landFor_ok | with_reducible apply State.emit_ok | with_reducible apply ok_ite | (fail_if_no_progress with_reducible apply ok_mk) | with_reducible apply each_ok | with_reducible refine ok_snd (by with_reducible assumption) ?_ | with_reducible refine ok_fst (by with_reducible assumption) ?_ | with_reducible refine ok_some (by with_reducible assumption) ?_ | with_reducible apply foldl_ok | split

theorem execRegisterWrite_ok {pq : List Instr} (src : RegSrc) (addr : BitVec 28) (ws : List RegDword) (ep : Bool) (s : State) (hok : s.Ok pq) : OutOk pq (execRegisterWrite src addr ws ep s) := by
  unfold execRegisterWrite
  try dsimp only
  repeat' first | with_reducible assumption | with_reducible intro _ | with_reducible apply State.writeFrom_ok | with_reducible apply ok_ite | (fail_if_no_progress with_reducible apply ok_mk) | with_reducible apply each_ok | with_reducible apply next_ok | with_reducible refine ok_snd (by with_reducible assumption) ?_ | with_reducible refine ok_fst (by with_reducible assumption) ?_ | with_reducible refine ok_some (by with_reducible assumption) ?_ | with_reducible apply foldl_ok | split

theorem State.oneDword_ok {pq : List Instr} (s : State) (rq : Requester) (pg : BitVec 16) (off : Nat) (v : Word) (hok : s.Ok pq) : (State.oneDword s rq pg off v).Ok pq := by
  unfold State.oneDword
  try dsimp only
  repeat' first | with_reducible assumption | with_reducible intro _ | with_reducible apply State.writeReq_ok | with_reducible apply State.landFor_ok | with_reducible apply ok_ite

theorem execErrRearm_ok {pq : List Instr} (rq : Requester) (pg : BitVec 16) (s : State) (hok : s.Ok pq) : OutOk pq (execErrRearm rq pg s) := by
  unfold execErrRearm
  try dsimp only
  repeat' first | with_reducible assumption | with_reducible intro _ | with_reducible apply State.oneDword_ok | with_reducible apply ok_ite | (fail_if_no_progress with_reducible apply ok_mk) | with_reducible apply each_ok | with_reducible apply next_ok

theorem execErrClr_ok {pq : List Instr} (rq : Requester) (pg : BitVec 16) (s : State) (hok : s.Ok pq) : OutOk pq (execErrClr rq pg s) := by
  unfold execErrClr
  try dsimp only
  repeat' first | with_reducible assumption | with_reducible intro _ | with_reducible apply State.oneDword_ok | with_reducible apply ok_ite | (fail_if_no_progress with_reducible apply ok_mk) | with_reducible apply each_ok | with_reducible apply next_ok

theorem execIntStsClear_ok {pq : List Instr} (rq : Requester) (pg : BitVec 16) (v : Word) (s : State) (hok : s.Ok pq) : OutOk pq (execIntStsClear rq pg v s) := by
  unfold execIntStsClear
  try dsimp only
  repeat' first | with_reducible assumption | with_reducible intro _ | with_reducible apply State.oneDword_ok | with_reducible apply ok_ite | (fail_if_no_progress with_reducible apply ok_mk) | with_reducible apply each_ok | with_reducible apply next_ok

theorem execIntForce_ok {pq : List Instr} (rq : Requester) (pg : BitVec 16) (v : Word) (s : State) (hok : s.Ok pq) : OutOk pq (execIntForce rq pg v s) := by
  unfold execIntForce
  try dsimp only
  repeat' first | with_reducible assumption | with_reducible intro _ | with_reducible apply State.oneDword_ok | with_reducible apply ok_ite | (fail_if_no_progress with_reducible apply ok_mk) | with_reducible apply each_ok | with_reducible apply next_ok

theorem execPageLock_ok {pq : List Instr} (rq : Requester) (pg : BitVec 16) (s : State) (hok : s.Ok pq) : OutOk pq (execPageLock rq pg s) := by
  unfold execPageLock
  try dsimp only
  repeat' first | with_reducible assumption | with_reducible intro _ | with_reducible apply State.oneDword_ok | with_reducible apply ok_ite | (fail_if_no_progress with_reducible apply ok_mk) | with_reducible apply each_ok | with_reducible apply next_ok

theorem State.fmcRead_ok {pq : List Instr} (s : State) (f : Fmc) (a n : Nat) (hok : s.Ok pq) : (State.fmcRead s f a n).Ok pq := by
  unfold State.fmcRead
  try dsimp only
  repeat' first | with_reducible assumption | with_reducible intro _ | with_reducible apply State.readDwords_ok | with_reducible apply State.fmcRun_ok | with_reducible apply FmcAns.only_ok | with_reducible apply ok_ite | (fail_if_no_progress with_reducible apply ok_mk) | with_reducible apply each_ok | with_reducible apply fmc_mk_ok | with_reducible apply fmc_only_ok | with_reducible apply fmc_only_act | with_reducible apply fmc_ite | with_reducible apply id_ok | with_reducible refine ok_snd (by with_reducible assumption) ?_ | with_reducible refine ok_fst (by with_reducible assumption) ?_ | with_reducible refine ok_some (by with_reducible assumption) ?_ | with_reducible apply foldl_ok | split

theorem execRegRead_ok {pq : List Instr} (f : Fmc) (addr : BitVec 28) (n : Nat) (s : State) (hok : s.Ok pq) : OutOk pq (execRegRead f addr n s) := by
  unfold execRegRead
  try dsimp only
  repeat' first | with_reducible assumption | with_reducible intro _ | with_reducible apply State.fmcRead_ok | with_reducible apply State.hold_ok | with_reducible apply ok_ite | (fail_if_no_progress with_reducible apply ok_mk) | with_reducible apply each_ok | with_reducible apply next_ok

theorem execRegWrite_ok {pq : List Instr} (f : Fmc) (addr : BitVec 28) (ws : List RegDword) (s : State) (hok : s.Ok pq) : OutOk pq (execRegWrite f addr ws s) := by
  unfold execRegWrite
  try dsimp only
  repeat' first | with_reducible assumption | with_reducible intro _ | with_reducible apply State.fmcRun_ok | with_reducible apply State.writeReq_ok | with_reducible apply ok_ite | (fail_if_no_progress with_reducible apply ok_mk) | with_reducible apply each_ok | with_reducible apply next_ok | with_reducible apply fmc_mk_ok

/-! Held. -/

theorem State.heldWrite_ok {pq : List Instr} (s : State) (pg : Nat) (k : State → State) (hok : s.Ok pq) (hk : ∀ s : State, s.Ok pq → (k s).Ok pq) : (State.heldWrite s pg k).Ok pq := by
  unfold State.heldWrite
  try dsimp only
  repeat' first | with_reducible assumption | with_reducible intro _ | with_reducible apply hk | with_reducible apply ok_ite

theorem State.heldRun_ok {pq : List Instr} (s : State) (c : Held) (hok : s.Ok pq) : (State.heldRun s c).Ok pq := by
  unfold State.heldRun
  try dsimp only
  repeat' first | with_reducible assumption | with_reducible intro _ | with_reducible apply State.heldWrite_ok | with_reducible apply State.fmcRead_ok | with_reducible apply State.writeDwords_ok | with_reducible apply State.answerRead_ok | with_reducible apply State.pwrReq_ok | with_reducible apply State.serEnableWrite_ok | with_reducible apply State.serCntClear_ok | with_reducible apply State.lnkCntClear_ok | with_reducible apply State.lnkEnableWrite_ok | with_reducible apply State.lnkForceWrite_ok | with_reducible apply State.lnkRetrainWrite_ok | with_reducible apply State.bistWrite_ok | with_reducible apply State.ceCfgWrite_ok | with_reducible apply State.spareWrite_ok | with_reducible apply State.labRemove_ok | with_reducible apply State.sliceFail_ok | with_reducible apply ok_ite | (fail_if_no_progress with_reducible apply ok_mk) | with_reducible apply each_ok | with_reducible refine ok_snd (by with_reducible assumption) ?_ | with_reducible refine ok_fst (by with_reducible assumption) ?_ | with_reducible refine ok_some (by with_reducible assumption) ?_ | with_reducible apply foldl_ok | split

theorem State.heldRelease_ok {pq : List Instr} (s : State) (t : Nat) (hok : s.Ok pq) : (State.heldRelease s t).Ok pq := by
  unfold State.heldRelease
  try dsimp only
  repeat' first | with_reducible assumption | with_reducible intro _ | with_reducible apply State.heldRun_ok | with_reducible apply State.each_ok | with_reducible apply ok_ite | (fail_if_no_progress with_reducible apply ok_mk) | with_reducible apply each_ok

theorem execPllLocked_ok {pq : List Instr} (t : Fin 8) (s : State) (hok : s.Ok pq) : OutOk pq (execPllLocked t s) := by
  unfold execPllLocked
  try dsimp only
  repeat' first | with_reducible assumption | with_reducible intro _ | with_reducible apply State.heldRelease_ok | with_reducible apply State.pllLock_ok | with_reducible apply ok_ite | (fail_if_no_progress with_reducible apply ok_mk) | with_reducible apply each_ok | with_reducible apply next_ok

theorem execVddTReached_ok {pq : List Instr} (t : Fin 8) (s : State) (hok : s.Ok pq) : OutOk pq (execVddTReached t s) := by
  unfold execVddTReached
  try dsimp only
  repeat' first | with_reducible assumption | with_reducible intro _ | with_reducible apply State.heldRelease_ok | with_reducible apply State.vddReach_ok | with_reducible apply ok_ite | (fail_if_no_progress with_reducible apply ok_mk) | with_reducible apply each_ok | with_reducible apply next_ok

end Sys2Proof.Machine
end

