-- ==== Sys2Proof/WellFormed.lean ====
section
/-! DEFINITION. Well-formed commands: those whose operands something outside the block can really send. Each check has a name; `Instr.wf` says which commands it is for. A command's meaning is given for every operand, well-formed or not. -/
namespace Sys2Proof

/-- The formats of a Peken word (07 R175). -/
inductive PkFmt where
  | r | i | b | m | x
deriving DecidableEq, Repr

/-- The fields that a word of the format does not have are 0 (07 R175). -/
def Pk.ok (p : Pk) (f : PkFmt) : Bool :=
  match f with
  | .r => p.imm == 0 && p.token == 0 && p.mod2 == 0 && p.flags == 0
  | .i => p.b == 0 && p.c == 0 && p.token == 0 && p.mod2 == 0 && p.flags == 0
  | .b => p.b == 0 && p.c == 0 && p.token == 0 && p.mod2 == 0 && p.flags == 0
  | .m => p.c == 0 && decide (p.imm.toNat < 2 ^ 24) && p.token == 0 && p.mod2 == 0 && p.flags == 0
  | .x => p.imm == 0 && !p.rsv

/-- A burst carries 256 data bytes (02 R29). -/
def Burst.ok (b : Burst) : Bool := b.data.length == 256

/-- A bundle flit has 256 bytes (02 R33). -/
def BundleFlit.ok (f : BundleFlit) : Bool := f.recv.length == 256 && f.near.length == 256

/-- A reverse word returns credits for three channels (02 R29). -/
def AckWord.ok (w : AckWord) : Bool := w.credits.length == 3

/-- How many sequences a link end counts through (02 R30, R33). -/
def LinkEndId.seqs : LinkEndId → Nat
  | .bridge _ _ => 256
  | _ => 1024

/-- A bridge port has 2,222 outgoing and as many incoming wires at most (02): the wires that fail are fewer than 4,096. -/
def TrainIn.ok (r : TrainIn) (l : LinkId) : Bool :=
  match l with
  | .bridge _ _ => decide (r.badTx < 4096) && decide (r.badRx < 4096)
  | .bundle _ => true

/-- An access of `n` bytes, not none, within a window of 2^w bytes. -/
def spanIn (w off n : Nat) : Bool := decide (1 ≤ n) && decide (off + n ≤ 2 ^ w)

/-- An access of a companion program: 1, 2, 4 or 8 bytes, aligned, outside the register window (whose accesses are register reads and writes of the tenant); LR, SC and AMOs of 4 or 8 bytes. -/
def ApSrc.ok (src : ApSrc) (off len : Nat) (plain : Bool) : Bool :=
  match src with
  | .hpc _ va k =>
    let al := decide (len = 1 ∨ len = 2 ∨ len = 4 ∨ len = 8) && decide (va.toNat % len = 0)
    let window := decide (0xC000000000 ≤ va.toNat ∧ va.toNat < 0xC00000C000)
    let wide := match k with | .plain => true | .fetch => decide (len ≤ 4) | _ => decide (4 ≤ len)
    off == 0 && plain && al && wide && !window
  | _ => true

/-- A CXL.mem write carries a line (06 R125). -/
def CxlOp.ok : CxlOp → Bool
  | .read => true
  | .write d _ => d.length == 64

/-- A slice access has 1 to 4,096 bytes. -/
def SliceOp.ok : SliceOp → Bool
  | .read n => decide (1 ≤ n) && decide (n ≤ 4096)
  | .write d _ => decide (1 ≤ d.length) && decide (d.length ≤ 4096)
  | _ => true

/-- A Completion with data carries 1 to 4,096 bytes. -/
def HostCpl.ok : HostCpl → Bool
  | .success d _ => decide (1 ≤ d.length) && decide (d.length ≤ 4096)
  | _ => true

/-- A selective IDE stream has two address association blocks (17 R407). -/
def ConfigOp.ok (op : ConfigOp) : Bool := match op with | .ideAssoc _ bs _ => decide (bs.length ≤ 2) | _ => true

/-- A nonce has 48 bytes (17 R398). -/
def Signed.ok (g : Signed) : Bool := g.nonce.length == 48 && g.key.length == 96 && g.sig.length == 96

/-- A debug unlock token: 16 bytes of device ID, 48 of nonce, 96 each of key and signature (17 R414). -/
def DebugToken.ok (k : DebugToken) : Bool := k.device.length == 16 && k.nonce.length == 48 && k.key.length == 96 && k.sig.length == 96

/-- A command is well-formed. -/
def Instr.wf : Instr → Bool
  | .coldPowerOn => true
  | .bringupStepEnd _ => true
  | .bootWatchdogExpiry _ => true
  | .bootConfigSpaceReady _ => true
  | .configRequest _ op => op.ok
  | .bootPushGo _ => true
  | .bootPushReadDone _ => true
  | .coreBootFetch _ _ _ => true
  | .sliceTrainingDone _ _ => true
  | .linkTraining l r => r.ok l
  | .bridgeBurstReceive _ _ b => b.ok
  | .bundleFlitReceive _ _ f => f.ok
  | .ackNakReceive e w => decide (w.seq < e.seqs) && w.ok
  | .replayTimerExpiry _ => true
  | .replayLimitReached _ => true
  | .fecThresholdExceeded _ _ => true
  | .keepAliveSend _ => true
  | .linkWatchdogExpiry _ => true
  | .dclkLossReport _ => true
  | .linkDrainDone _ => true
  | .linkRetrainDone l r => r.ok l
  | .linkRetrainTimeout _ => true
  | .lnkRetrain _ _ _ => true
  | .lnkForceDown _ _ _ _ => true
  | .lnkEnable _ _ _ _ => true
  | .lnkClrCnt _ _ _ => true
  | .serRetrain _ _ _ => true
  | .serEnable _ _ _ _ => true
  | .serClrCnt _ _ _ => true
  | .routeSwitchResume _ _ => true
  | .tileLost _ _ => true
  | .vclkLoss => true
  | .hubClockLoss _ => true
  | .refclkLoss _ => true
  | .registerWrite _ _ ws _ => decide (ws.length ≤ 1024)
  | .errRearm _ _ => true
  | .errClr _ _ => true
  | .intStsClear _ _ _ => true
  | .intForce _ _ _ => true
  | .pageLock _ _ => true
  | .msixPendingSend _ _ => true
  | .apertureWrite src off data ep => src.ok off.toNat data.length (!ep) && spanIn 28 off.toNat data.length
  | .apertureRead src off r => src.ok off.toNat r.len (!r.atomic) && spanIn 28 off.toNat r.len
  | .hamperWriteLand => true
  | .tileHamperRequest _ _ _ wr len => decide (1 ≤ (match wr with | some d => d.length | none => len))
  | .hmpAlloc _ => true
  | .hmpFree _ => true
  | .hamperClearDone => true
  | .hmpTqQuery _ _ _ => true
  | .doorbell _ _ _ _ => true
  | .cqHeadWrite _ _ _ _ => true
  | .descriptorFetch _ _ => true
  | .dispatch _ => true
  | .jobRun _ => true
  | .jobFence _ _ => true
  | .jobNop _ _ => true
  | .jobLoad _ => true
  | .jobUnload _ => true
  | .jobCopy _ _ => true
  | .copyHostCompletion _ _ _ _ c => c.ok
  | .copyCompletionTimeout _ _ _ => true
  | .modelLoad _ => true
  | .cqCoalTimerExpiry _ _ => true
  | .cqWriteFail _ _ => true
  | .tenantCancel _ _ _ _ => true
  | .queueEnable _ _ _ _ => true
  | .queueDisable _ _ _ _ => true
  | .tenantBindWrite _ _ _ => true
  | .tenantResetCmd _ _ => true
  | .tenantReset _ => true
  | .tenantResetReport _ => true
  | .functionLevelReset _ => true
  | .vfEnableClear _ => true
  | .perstAssert _ => true
  | .perstDeassert _ => true
  | .hostLinkDown _ => true
  | .hostLinkUp _ _ _ _ _ => true
  | .d3hotEnter _ => true
  | .d0Return _ => true
  | .cxlMemAccess _ _ op => op.ok
  | .pkNop _ i => i.ok .r
  | .pkBr _ i => i.ok .b
  | .pkBrc _ i => i.ok .b
  | .pkCall _ i => i.ok .b
  | .pkJr _ i => i.ok .r
  | .pkIf _ i => i.ok .r
  | .pkElse _ i => i.ok .r
  | .pkEndif _ i => i.ok .r
  | .pkLoop _ i => i.ok .r
  | .pkBrk _ i => i.ok .r
  | .pkEndloop _ i => i.ok .b
  | .pkBrnone _ i => i.ok .b
  | .pkTrap _ i => i.ok .i
  | .pkAdd _ i => i.ok .r
  | .pkSub _ i => i.ok .r
  | .pkAnd _ i => i.ok .r
  | .pkOr _ i => i.ok .r
  | .pkXor _ i => i.ok .r
  | .pkShl _ i => i.ok .r
  | .pkShr _ i => i.ok .r
  | .pkSra _ i => i.ok .r
  | .pkMul _ i => i.ok .r
  | .pkMulhu _ i => i.ok .r
  | .pkMin _ i => i.ok .r
  | .pkMax _ i => i.ok .r
  | .pkMinu _ i => i.ok .r
  | .pkMaxu _ i => i.ok .r
  | .pkSlt _ i => i.ok .r
  | .pkSltu _ i => i.ok .r
  | .pkAddi _ i => i.ok .i
  | .pkAndi _ i => i.ok .i
  | .pkOri _ i => i.ok .i
  | .pkXori _ i => i.ok .i
  | .pkShli _ i => i.ok .i
  | .pkShri _ i => i.ok .i
  | .pkSrai _ i => i.ok .i
  | .pkLui _ i => i.ok .i
  | .pkSlti _ i => i.ok .i
  | .pkCsrr _ i => i.ok .i
  | .pkCsrw _ i => i.ok .i
  | .pkLds _ i => i.ok .i
  | .pkSts _ i => i.ok .i
  | .pkVadd _ i => i.ok .r
  | .pkVsub _ i => i.ok .r
  | .pkVmul _ i => i.ok .r
  | .pkVmulhu _ i => i.ok .r
  | .pkVand _ i => i.ok .r
  | .pkVor _ i => i.ok .r
  | .pkVxor _ i => i.ok .r
  | .pkVshl _ i => i.ok .r
  | .pkVshr _ i => i.ok .r
  | .pkVsra _ i => i.ok .r
  | .pkVmin _ i => i.ok .r
  | .pkVmax _ i => i.ok .r
  | .pkVminu _ i => i.ok .r
  | .pkVmaxu _ i => i.ok .r
  | .pkVsel _ i => i.ok .r
  | .pkVmad _ i => i.ok .r
  | .pkVfadd _ i => i.ok .r
  | .pkVfsub _ i => i.ok .r
  | .pkVfmul _ i => i.ok .r
  | .pkVfma _ i => i.ok .r
  | .pkVfmin _ i => i.ok .r
  | .pkVfmax _ i => i.ok .r
  | .pkVfrcp _ i => i.ok .r
  | .pkVfrsq _ i => i.ok .r
  | .pkVfexp2 _ i => i.ok .r
  | .pkVflog2 _ i => i.ok .r
  | .pkVfsgn _ i => i.ok .r
  | .pkVcvt _ i => i.ok .r
  | .pkVfrnd _ i => i.ok .r
  | .pkVicmp _ i => i.ok .r
  | .pkVfcmp _ i => i.ok .r
  | .pkPand _ i => i.ok .r
  | .pkPor _ i => i.ok .r
  | .pkPxor _ i => i.ok .r
  | .pkPandn _ i => i.ok .r
  | .pkPany _ i => i.ok .r
  | .pkPcnt _ i => i.ok .r
  | .pkPtos _ i => i.ok .r
  | .pkStop _ i => i.ok .r
  | .pkVld _ i => i.ok .m
  | .pkVst _ i => i.ok .m
  | .pkVshfl _ i => i.ok .r
  | .pkVred _ i => i.ok .r
  | .pkVscan _ i => i.ok .r
  | .pkVbcast _ i => i.ok .r
  | .pkVtid _ i => i.ok .r
  | .pkVext _ i => i.ok .r
  | .pkVins _ i => i.ok .r
  | .pkMma _ i => i.ok .x
  | .pkMscl _ i => i.ok .x
  | .pkMcvt _ i => i.ok .x
  | .mxeOpComplete _ => true
  | .pkMvl _ i => i.ok .x
  | .pkMvs _ i => i.ok .x
  | .pkMvg _ i => i.ok .x
  | .pkMvt _ i => i.ok .x
  | .pkMva _ i => i.ok .x
  | .pkMcas _ i => i.ok .x
  | .moverOpStart _ => true
  | .moverOpComplete _ _ => true
  | .pkAttn _ i => i.ok .x
  | .pkKvapp _ i => i.ok .x
  | .pkKvop _ i => i.ok .x
  | .pkWait _ i => i.ok .i
  | .pkWaita _ i => i.ok .r
  | .pkBar _ i => i.ok .i
  | .pkMfence _ i => i.ok .r
  | .pkToks _ i => i.ok .i
  | .pkRezq _ i => i.ok .r
  | .pkRezinv _ i => i.ok .r
  | .pkJend _ i => i.ok .r
  | .pkIdle _ i => i.ok .r
  | .rankEnd _ _ => true
  | .jobStop _ => true
  | .hpcGrantWrite _ _ _ => true
  | .hpcStart _ _ => true
  | .hpcStop _ _ => true
  | .companionEcall _ _ _ => true
  | .companionException _ _ _ => true
  | .companionStopped _ => true
  | .spareAssignWrite _ _ _ => true
  | .spareAssignTakeEffect _ => true
  | .sliceRequest _ _ op _ => op.ok
  | .sliceBondError _ => true
  | .sliceCalibration _ _ => true
  | .slcForceFail _ _ => true
  | .sliceRefresh _ => true
  | .refreshBandFall _ => true
  | .kvopAlloc _ => true
  | .kvopIncref _ => true
  | .kvopDecref _ => true
  | .kvopFork _ => true
  | .kvopRelease _ => true
  | .kvopInval _ => true
  | .kvopQuery _ => true
  | .kvappExecute _ => true
  | .attnExecute _ => true
  | .kpmReclaimSweep _ => true
  | .poolEnable _ _ _ => true
  | .poolDisable _ _ _ => true
  | .poolInitDone _ => true
  | .kvwFlush _ _ => true
  | .datagramReceive _ f => f.kind != .udp || (decide (8 ≤ f.udp.length) && decide (f.udp.length < 65536))
  | .streamHeadRead _ => true
  | .sequenceGapTimeout _ => true
  | .haltRepeat _ => true
  | .easeRepeat _ => true
  | .pfcRefresh _ _ => true
  | .pfcReceive _ _ _ => true
  | .arpNsRequest _ _ _ => true
  | .ptpMessage _ _ => true
  | .ethernetLinkDown _ => true
  | .ethernetLinkUp _ => true
  | .streamEnable _ _ _ => true
  | .streamDisable _ _ _ => true
  | .vceProducerPoll _ => true
  | .vceEncode _ => true
  | .vceDecode _ => true
  | .encodePassDone _ len _ => decide (len < 2 ^ 32)
  | .vceSessionEnable _ _ _ => true
  | .vceSessionDisable _ _ _ => true
  | .vceBist _ _ => true
  | .vceBistDone _ _ => true
  | .vceEngineReset _ _ => true
  | .vceEngineFault _ => true
  | .vceOutputHeadRead _ => true
  | .idleScrubLine _ _ => true
  | .scrubLapLimit _ => true
  | .patrolScrubStep _ _ => true
  | .ceWindowEnd _ => true
  | .ceWindowWrite _ _ _ => true
  | .memorySelfTest _ _ _ => true
  | .selfTestDone _ _ => true
  | .faultLogClear _ _ => true
  | .coreReset _ _ => true
  | .clusterReset _ _ => true
  | .tileReset _ _ => true
  | .partitionBuild _ _ => true
  | .partitionReset _ _ => true
  | .partitionDissolve _ _ => true
  | .resetAbsorbPoint _ _ => true
  | .resetRestore _ _ => true
  | .deviceWarmReset _ _ => true
  | .oppChangeStart _ => true
  | .pllLocked _ => true
  | .vddTReached _ => true
  | .powerSample i => i.tileMa.length == 8
  | .fastClampRelease _ => true
  | .powerLoopTick => true
  | .pwrLimitWrite _ _ => true
  | .pwrTReqWrite _ _ _ => true
  | .domainRampStart _ => true
  | .rampStageDwell _ _ => true
  | .virtualRail90 _ _ => true
  | .domainShort _ _ _ => true
  | .regulatorFault _ _ => true
  | .vinCoreLow => true
  | .vinCoreRestored => true
  | .railLoss _ => true
  | .vddAoLoss => true
  | .thermalConversion die rs => rs.length == (if die.val < 8 then 28 else 8)
  | .throttleStep _ => true
  | .throttleReleaseStep _ => true
  | .samplingBandDrop _ => true
  | .extNtcConversion _ _ temp => decide (-2048 ≤ temp) && decide (temp < 2048)
  | .coolantOkHigh => true
  | .coolantOkRestored => true
  | .riseEvaluation => true
  | .hubTHotRestored => true
  | .floorRelease _ => true
  | .coolingShutdown => true
  | .coolingShutdownAbsorb => true
  | .thmCfgWrite _ _ => true
  | .forecastPublish => true
  | .cycleSnapshot => true
  | .energyTableClear _ => true
  | .mctpControl _ _ => true
  | .getNonce _ => true
  | .regRead _ _ n => decide (n < 2 ^ 32)
  | .regWrite _ _ ws => decide (ws.length ≤ 1024)
  | .trailRead _ _ _ => true
  | .devReset _ => true
  | .restart _ => true
  | .eventSub _ _ => true
  | .ownerTransfer _ g _ => g.ok
  | .fieldSubst _ g _ _ _ => g.ok
  | .fieldMapClear _ g => g.ok
  | .svnCommit _ g => g.ok
  | .keyRevoke _ g _ => g.ok
  | .debugChallenge _ => true
  | .debugUnlock _ device nonce scope key sig => (DebugToken.mk device nonce scope key sig).ok
  | .nonceExpiry _ => true
  | .fuseWriteDone => true
  | .pldmMonitorRequest _ inst _ => decide (inst < 32)
  | .pldmUpdateComponent _ inst _ => decide (inst < 32)
  | .pldmFirmwareData data => decide (data.length ≤ 4096)
  | .pldmVerifyComplete _ => true
  | .pldmActivateFirmware _ inst => decide (inst < 32)
  | .managementPush _ => true
  | .spdmRequest _ _ => true
  | .ideKmRequest _ _ _ => true
  | .ideInsecure _ _ => true
  | .trailRecordCommit => true
  | .trlIdxWrite _ _ => true
  | .tapInstruction _ => true
  | .resumeRepeat _ => true
  | .vceDecodeDone _ _ => true
  | .atuCommandDone _ => true
  | .ackIntervalTimer _ => true
  | .railRestored _ => true
  | .ueWindowEnd _ => true
  | .registerRead _ _ n => decide (n ≤ 1024)
  | .i3cAddressAssign _ => true
  | .tapReset => true
  | .pfcPauseExpiry _ _ => true

end Sys2Proof
end

