-- ==== Sys2Proof/Tests/Slice0.lean ====
section
/-! SUPPORT. The model's own tests: for each statement with hypotheses a witness of every set of hypotheses it uses (`witness_…`), the checks of WellFormed, and single steps whose results the spec gives (`test_…`). -/
section
set_option Elab.async false
set_option linter.all false
open Sys2Proof Sys2Proof.Machine
namespace Sys2Proof.Tests

/-! States for the witnesses and tests. -/

/-- `s` with fields set. -/
def put (l : List (Nat × Fld × Nat)) (s : State) : State := l.foldl (fun s e => s.setFld e.1 e.2.1 e.2.2) s
/-- An instruction word that names registers, a mod code and an immediate. -/
def regs (d a b c : Fin 64) (mod : Fin 16 := 0) (imm : Word := 0) : Pk := ⟨0, false, d, a, b, c, mod, imm, 0, 0, 0, false⟩
/-- A word with the guard p1, or its complement. -/
def guarded (i : Pk) (n : Bool) : Pk := { i with pg := 1, pn := n }
/-- Core 0 in MONITOR as `c`. -/
def monC (c : Core) : State := (put [(P.core 0, F.CORE_STS_state, 2)] State.reset).setCore 0 c
/-- A core with every thread active, s5 = 2^64 - 1, s6 = 2, s7 at the P-store, p1 = 5, v1 and v2 in threads 0 and 63. -/
def coreA : Core :=
  ((((((({ Core.reset with active := -1 }.setS 5 (-1)).setS 6 2).setS 7 0x80040).setP 1 5).setV 1 0 7).setV 1 63 (-1)).setV 2 63 9)
def mon : State := monC coreA
def monActive (a : Dword) : State := monC { coreA with active := a }
def monTok : State := monC (coreA.setT 2 3)
def monStack (a : Dword) (l : List MaskEntry) : State := monC { coreA with active := a, stack := l }
def ifE : MaskEntry := ⟨.ifk, 15, 5, false⟩
def elseE : MaskEntry := ⟨.ifk, 15, 5, true⟩
def loopE : MaskEntry := ⟨.loopk, 15, 0, false⟩
/-- Cores 0 and 1 run ranks 0 and 1 of a job of tenant 1's model 7, resident at W-store 0x1000, in partition 0. -/
def jobC (c : Core) : State :=
  let s := put [(P.core 0, F.CORE_STS_state, 4), (P.core 1, F.CORE_STS_state, 4), (P.pt 0, F.PT_STS_state, 2), (P.pt 0, F.PT_CLU_LO_mask, 1),
    (P.core 0, F.CORE_REZ_OWN_valid 0, 1), (P.core 0, F.CORE_REZ_OWN_tenant 0, 1), (P.core 0, F.CORE_REZ_OWN_model_id 0, 7),
    (P.core 0, F.CORE_REZ_BASE_base 0, 0x1000), (P.core 0, F.CORE_REZ_LEN_len 0, 0x1000)] State.reset
  ((s.setCore 0 { c with job := some 1 }).setCore 1 { coreA with job := some 1, pc := 0x1000 }).setJob 1
    { Job.none with tn := 1, model := 7, ranks := [0, 1], wbase := 0x1000, wlen := 0x1000 }
def run : State := jobC { coreA with pc := 0x1000 }
/-- Line 1 of core 0's P-store is poisoned. -/
def poisP (s : State) : State := { s with stores := s.stores.setPoison (stoKey 0 0x80040 / 64) }
/-- The job's ranks 0 and 1 wait as given; the core is idle of engines. -/
def waits (a b : Wait) : State :=
  let s := jobC { coreA with pc := 0x1000, wait := a }
  s.setCore 1 { s.core 1 with wait := b }
def stopJob (s : State) : State := s.setJob 1 { s.job 1 with stopping := true }
/-- An instruction word of an engine with a token and flags. -/
def eng (d a b c : Fin 64) (tok : Fin 16) (mod mod2 : Fin 16 := 0) (fl : BitVec 16 := 0) : Pk := ⟨0, false, d, a, b, c, mod, 0, tok, mod2, fl, false⟩
/-- `n` bytes, 0 but where listed. -/
def blk (n : Nat) (l : List (Nat × Byte)) : List Byte := (List.range n).map fun i => ((l.find? (·.1 == i)).map (·.2)).getD 0
/-- A core with engine operands: s1 in the P-store, s2 in the A-store, s3 in the W-store, s4 the shape 16 x 16 x 32. -/
def coreE : Core := (((coreA.setS 1 0xC0000).setS 2 0x80000).setS 3 0x2000).setS 4 0x201010
/-- Core 0 as `c` in MONITOR with `bs` at the start of its A-store. -/
def monE (c : Core) (bs : List Byte) : State := let s := monC c
  { s with stores := s.stores.wr (stoKey 0 0x80000) bs false }
def mvsB : List Byte := blk 64 [(0x10, 1), (0x14, 1), (0x28, 1), (0x2A, 1)]
def mvxB : List Byte := blk 64 [(0x18, 1), (0x1C, 4)]
def attnB : List Byte := blk 64 [(0x28, 1), (0x29, 1)]
def kvappB : List Byte := blk 64 [(0xC, 1)]
def kvopB (op : Byte) : List Byte := blk 32 [(0, op), (0x1C, 1)]
def mxeFull : Core := { coreE with mxeq := List.replicate 16 ⟨1, 0, 0, 0, 0, 0, 0, 0, 0, 0, 0, 0⟩ }
def movFull : Core := { coreE with movq := List.replicate 32 ⟨0, 0, 0, 0, 0, 2, 0, [], 0⟩ }
def atuFull : Core := { coreE with atuq := List.replicate 8 ⟨0, 0, 0, attnB, 0, false⟩ }
/-- Core 0 with `o` at the head of its matrix queue, or the mover operation `m` waiting or started. -/
def mxHead (o : MxeOp) : State := monE { (coreE.setT 3 1) with mxeq := [o] } []
def movHead (m : MovOp) (act : List MovOp) : State := monE { coreE with movq := [m], movAct := act } []
def movOp (fl : Nat) : MovOp := ⟨0, 2, 0, 0xC0040, 0x80000, 4, 0, [], fl⟩
/-- Partition 0's pool is READY: 4 pages of 8 KiB frames for d = 64, page 0 held by tenant 1 with refcount `rc` (and mapped at index 0 of the root 0x100000), `free` free; core 0's port holds `o`. -/
def kvS (rc : Nat) (free : List Nat) (kind : Nat) (b : List Byte) : State :=
  let s := put [(P.slc 0, F.SLC_STS_state, 1), (P.kpm 1, F.KPM_POOL_STS_state 0, 2), (P.kpm 1, F.KPM_POOL_CFG_enable 0, 1), (P.kpm 1, F.KPM_POOL_CFG_frame_log2 0, 3),
    (P.kpm 1, F.KPM_POOL_PAGES_pages 0, 4), (P.ten 1 9, F.KPM_TQ_LIMIT_limit, 4)]
    (jobC { coreE with pc := 0x1000, atuq := [⟨kind, 3, 0x1000, b, 0x80100, false⟩] })
  let s := { s.setPm 0 ⟨[0], 0, 0⟩ with kvFree := [(0, free)], kvOwned := [(1, 1)] }
  ((s.setKvDesc 0 0 ⟨0x8000, rc, 1, 1, 0, 1, 1, 0, 0⟩).pWrite 0 0x100000 (leBytes 8 0x100201)).pWrite 0 0x100200 (leBytes 4 0x80000000)
def kvW (s : State) : State := s.setKvWin 1 ⟨5, [(5, 2)]⟩
def kvoff (s : State) : State := s.setFld (P.kpm 1) (F.KPM_POOL_STS_state 0) 0
/-- A KVAPP of one position at 0 under the root 0x100000. -/
def appB (d fmt : Byte) : List Byte := blk 64 [(2, 0x10), (0xC, 1), (0xF, fmt), (0x18, 1), (0x1C, d), (0x11, 0x10), (0x15, 0x20)]
/-- An ATTN of one row over one page. -/
def attB : List Byte := blk 64 [(2, 0x10), (8, 1), (0x11, 0x10), (0x15, 0x20), (0x28, 1), (0x29, 1)]
def inf0 (s : State) : State := { s with stores := s.stores.wr (stoKey 0 0x81000) [0, 0, 0x80, 0x7F] false }
def opB (op : Byte) : List Byte := blk 32 [(0, op), (4, 1), (0x0A, 0x10), (0x12, 0x20), (0x1C, 1)]
def ranQ : State := jobC { (coreA.setT 3 1) with pc := 0x1000, atuq := [⟨2, 3, 0x1000, opB 1, 0x80100, true⟩] }
def kvQ (s : State) : State := s.setFld (P.ten 1 9) F.KPM_TQ_LIMIT_limit 1
/-- Bring-up at step `n`, with fields set. -/
def stage (n : Nat) (l : List (Nat × Fld × Nat) := []) : State := put ((P.boot, F.BOOT_STS_stage, n) :: l) State.reset
/-- Every tile fenced. -/
def fences : List (Nat × Fld × Nat) := (List.range 8).map fun t => (P.serHub t, F.SER_STS_state, 6)
/-- A 96-byte key that slot 0 of the part is fused for. -/
def key1 : List Byte := List.replicate 96 7
def sig1 : List Byte := List.replicate 96 9
def fusedS (s : State) : State := { s with board := { s.board with keys := [(0, Config.sha384 key1)] } }
/-- What the itinerary at compartment 0 holds: one image of 64 bytes at Hamper offset 0x10000 for every core, entry 0x40. -/
def itinB : List Byte := blk 144 [(0, 0x49), (1, 0x54), (2, 0x49), (3, 0x4E), (4, 1), (6, 1), (7, 1), (0x40, 1), (0x46, 1), (0x4C, 64), (0x80, 255), (0x81, 255), (0x82, 127), (0x84, 1), (0x88, 0x40)]
/-- Core 0 in FETCH, powered, logical core 0, with an itinerary. -/
def fetching : State :=
  let s := stage 11 [(P.core 0, F.CORE_STS_state, 1), (P.pwrT 0, domFld 72, 3), (P.clu 0, F.CLU_MAP_online, 1), (P.boot, F.BOOT_ITIN_GEN_value, 1)]
  { s with hmp := s.hmp.wr 0 itinB false }

/-- Host port `p`'s link up, with fields set. -/
def up (p : Nat) (l : List (Nat × Fld × Nat) := []) : State := put ((P.hpt p, F.HPT_LINK_STS_rate, 1) :: l) State.reset
def cfgUp (p : Nat) : State := (up p).setPort p { Port.reset with cfgReady := true, numVfs := 2 }
def failed (s : State) : State := { s with devFailed := true }
def perstS : State := put [(P.hpt 0, F.HPT_LINK_STS_perst, 1)] State.reset
/-- Port 0 serves 4 KiB of partition 0's pool as a CXL.mem window; partition 0's memory is slice 0, in state `n`. -/
def cxlS (n : Nat) : State :=
  let s := ((up 0 [(P.slc 0, F.SLC_STS_state, 1), (P.pt 0, F.PT_STS_state, n)]).setPort 0 { Port.reset with cxlWin := some (0, 0, 0x1000) }).setPm 0 ⟨[0], 0, 0⟩
  { s with slices := s.slices.write (skey 0 0) (List.replicate 64 7) false }

/-- The link between tile 0's east and tile 1's west port in state `st`, at bring-up step 6 with its fuse maps applied, enabled, with fields set. -/
def lk (st : Nat) (l : List (Nat × Fld × Nat) := []) : State :=
  put ([(P.lnk 0 0, F.LNK_STS_state, st), (P.lnk 1 1, F.LNK_STS_state, st), (P.lnk 0 0, F.LNK_CTL_enable, 1), (P.lnk 1 1, F.LNK_CTL_enable, 1), (P.tile 0, F.TILE_STS_fuse_ok, 1), (P.tile 1, F.TILE_STS_fuse_ok, 1)] ++ l) (stage 6)
/-- Tile 0's bundle in state `st`, at bring-up step 6, enabled. -/
def sr (st : Nat) (l : List (Nat × Fld × Nat) := []) : State :=
  put ([(P.serHub 0, F.SER_STS_state, st), (P.serTile 0, F.SER_STS_state, st), (P.serHub 0, F.SER_CTL_enable, 1), (P.serTile 0, F.SER_CTL_enable, 1),
    (P.boot, F.BOOT_STRAP_hub_site, 8), (P.boot, F.BOOT_STRAP_pkg_build, 1)] ++ l) (stage 6)
def train1 (ok : Bool) : TrainIn := ⟨ok, 0, 0, -1, -1, 1, 1, 0⟩
def train0 (site : BitVec 4) : TrainIn := ⟨true, 0, 0, -1, -1, site, 1, 0⟩
def flit0 : TxFlit := ⟨0, 0, [1]⟩
def ends (s : State) (k : Nat) (e : LinkEnd) : State := s.setLend k e
/-- The halves of a flit of sequence 0, channel 0, from tile `a` to tile `b`. -/
def bst (bv hm : Bool) (seq : BitVec 8 := 0) (a b : Fin 8 := 0) : Burst :=
  ⟨bv, hm, seq, BitVec.ofNat 16 (burstCrc [1, 2] 0 0 / 2 ^ (if hm then 0 else 16)), 0, [if hm then 2 else 1], a, b⟩
/-- The A half of a flit to tile `b` has come. -/
def halfA (s : State) (b : Fin 8 := 0) : State := ends s 0 { LinkEnd.reset with pendA := some (bst true false 0 1 b) }
/-- A flit of type 3, sequence 0; its CRC, or one that is wrong, follows its 232 bytes. -/
def noFlit : BundleFlit := ⟨List.replicate 12 1, List.replicate 12 0⟩
def bflit (c : Nat) : BundleFlit := let b := blk 232 [(0, 3)] ++ leBytes 4 c ++ List.replicate 20 0; ⟨b, b⟩
def flitCrc : Nat := linkCrc (byteBits (blk 232 [(0, 3)]))

/-- A ready machine with resets `l` in progress, HUB_RST_CMD's go bit with its target and scope, and fields set. -/
def rstS (l : List Rst) (f : List (Nat × Fld × Nat) := []) : State := { put ((P.boot, F.BOOT_STS_ready, 1) :: f) State.reset with rsts := l }
def goBit : List (Nat × Fld × Nat) := [(P.hub 2, F.HUB_RST_CMD_go, 1), (P.hub 2, F.HUB_RST_CMD_scope, 1)]
/-- Core 0 is logical core 0 in the monitor. -/
def on0 : List (Nat × Fld × Nat) := [(P.clu 0, F.CLU_MAP_online, 1), (P.core 0, F.CORE_STS_state, 2)]
def rst1 (a b : Bool) : Rst := ⟨1, 0, 0, a, b, false, 0, false⟩
/-- Partition 0 of cluster 0 in state `st`: logical core 0 online, slices 0 to 3 serving, near windows of 16 MiB. -/
def pt0 (st : Nat) (l : List (Nat × Fld × Nat) := []) : State :=
  put ([(P.boot, F.BOOT_STS_ready, 1), (P.pt 0, F.PT_STS_state, st), (P.pt 0, F.PT_CLU_LO_mask, 1), (P.pt 0, F.PT_CFG_near_size, 1), (P.slc 0, F.SLC_STS_state, 1), (P.slc 1, F.SLC_STS_state, 1),
    (P.slc 2, F.SLC_STS_state, 1), (P.slc 3, F.SLC_STS_state, 1)] ++ on0 ++ l) State.reset

/-- The reset of scope `k` of target `g` triggered at time 0. -/
def rstNew (g : Nat) : Nat → Rst := fun k => ⟨k, g, 0, false, false, false, 0, false⟩

/-- A descriptor of tenant 1: tag 0x55, model 7. -/
def dsc (kind : Nat) (st : DescSt := .waiting) (area : List Nat := []) (flags : Nat := 0) : Desc :=
  ⟨0, 0, 0x55, kind, flags, 7, 1, 0, 0, 0xC0, area, [1, 2], 1, st, false, 0, none, 0, none⟩
/-- A ready device: tenant 1 is bound to function 4 of port 0 and enabled, partition 0 of cluster 0 runs with core 0 online and idle, queue 0 of 16 slots holds `ds`, compartments 600 (queue) and 601 (staging) are the tenant's slots 0 and 1. -/
def tenS (l : List (Nat × Fld × Nat)) (ds : List Desc) : State :=
  let s := put ([(P.boot, F.BOOT_STS_ready, 1), (P.hpt 0, F.HPT_LINK_STS_rate, 1), (P.disp 1, F.DISP_TN_BIND_valid 1, 1), (P.disp 1, F.DISP_TN_BIND_enable 1, 1),
    (P.disp 1, F.DISP_TN_BIND_weight 1, 1), (P.ten 1 0, F.TN_STS_state, 2), (P.queue 1 0, F.Q_SQ_CFG_enable, 1), (P.queue 1 0, F.Q_SQ_CFG_log2_size, 4),
    (P.queue 1 0, F.Q_CQ_CFG_log2_size, 4), (P.queue 1 0, F.Q_STS_state, 1), (P.pt 0, F.PT_STS_state, 2), (P.pt 0, F.PT_CLU_LO_mask, 1),
    (P.clu 0, F.CLU_MAP_online, 1), (P.core 0, F.CORE_STS_state, 3)] ++ l) State.reset
  let s := ((s.setPort 0 { Port.reset with cfgReady := true, numVfs := 2 }).setFn 4 ⟨true, true, true, false, 0xFF, 0, []⟩).setQueue 1 0 { QueueSt.reset with fetched := ds }
  (s.setComp 600 ⟨2, 1, 0, 1, true, true, false, 0⟩).setComp 601 ⟨2, 0, 0, 1, true, false, false, 1⟩
/-- The dispatcher of partition 0 has picked queue 0 of tenant 1. -/
def pick (s : State) : State := s.setDsp 0 ⟨1, 1, [], some (1, 0)⟩
def resS (cores : List Nat) (s : State) : State := s.setRes 0 ⟨true, 1, 7, 0x10000, 64, 0x1000, 0, cores, false, []⟩
def boundAt (n : Nat) (l : List (Nat × Fld × Nat)) : State := tenS ([(P.disp 1, F.DISP_TN_BIND_valid n, 1), (P.disp 1, F.DISP_TN_BIND_vf n, 1)] ++ l) []
def rst5 (a : Bool) (s : State) : State := { s.setFld (P.ten 1 0) F.TN_STS_state 3 with rsts := [⟨5, 1, 0, a, false, false, 0, false⟩] }
def bme0 (s : State) : State := s.setFn 4 ⟨true, false, true, false, 0xFF, 0, []⟩

def memEn (k : Nat) (s : State) : State := s.setFn k ⟨true, true, true, false, 0xFF, 0, []⟩
/-- A ready device; physical functions 0 and 1 answer. -/
def rdy : State := memEn 1 (memEn 0 (tenS [(P.hpt 1, F.HPT_LINK_STS_rate, 1)] []))
def lockS (pg : Nat) : State := put [(pg, F.PG_LOCK_locked, 1)] rdy

def pend1 : State := { rdy with hmpPend := [⟨0, 600 * 65536, [1, 2], false⟩] }
def peer (s : State) : State := put [(P.ten 1 11, F.HMP_TQ_LAND_CTL_enable, 1), (P.ten 1 11, F.HMP_TQ_LAND_RID_mask, 0xFFFF), (P.ten 1 11, F.HMP_TQ_LAND_RID_rid, 5)] s
/-- rdy where compartment 100 belongs to the firmware. -/
def fwComp : State := rdy.setComp 100 ⟨1, 0, 0, 0, false, false, false, 0⟩
/-- The arguments of ALLOC or FREE: compartments from 602, or from 601, `c` of them, for tenant 1. -/
def args (first c use slot : Nat) (l : List (Nat × Fld × Nat)) : State :=
  put ([(P.hmp 3, F.HMP_ALLOC_ARG0_first, first), (P.hmp 3, F.HMP_ALLOC_ARG0_count, c), (P.hmp 3, F.HMP_ALLOC_ARG1_tenant, 1), (P.hmp 3, F.HMP_ALLOC_ARG1_tenant_valid, 1),
    (P.hmp 3, F.HMP_ALLOC_ARG1_use, use), (P.hmp 3, F.HMP_ALLOC_ARG1_slot, slot), (P.hmp 2, F.HMP_PT_BUDGET_budget 0, 8), (P.ten 1 11, F.HMP_TQ_LIMIT_limit, 8)] ++ l) rdy
def tr0 (typ : Nat) : TrailRec := ⟨0, typ, 1, 0, 0, 0, 0, [1]⟩
def trS (l : List TrailRec) (lost : Nat) : State := { State.reset with trail := { Trail.reset with queue := l, lost } }

def mgt0 (m : Mgt) (l : List (Nat × Fld × Nat) := []) : State := { put l rdy with mgt := m }
def src1 : MctpSrc := ⟨false, 9, false⟩
def fmc1 : Fmc := ⟨src1, 77⟩
def fmcFull : Fmc := ⟨⟨false, 9, true⟩, 77⟩
def nonce1 : List Byte := List.replicate 48 3
def signed1 (n : Byte) : Signed := ⟨List.replicate 48 n, 0, key1, sig1⟩
/-- Source 9 holds a nonce and a debug challenge. -/
def auth : State := mgt0 { Mgt.reset with nonces := Tab.set nonce0 [] 9 (some nonce1), dbgNonces := Tab.set nonce0 [] 9 (some nonce1) }
def stage1S (k : Nat) (s : State) : State := { s with boot := { s.boot with stage1 := some ⟨1, 3, k, 0x180, []⟩ } }
def fuseS (w : Option (Nat × Nat)) (s : State) : State := { s with board := { s.board with fuseWrite := w } }
/-- A field map of 1024 facts. -/
def fullMap (s : State) : State :=
  { s with trail := { s.trail with slots := (List.range 1024).map fun k => (k, some ⟨k, 2, 0, 0, 0, 0, 0, [0, k, 0, 0, 1]⟩) } }
def shut (off : Bool) : State := { put [(P.thm 0, F.THM_STS_shutdown, 1)] rdy with hubOff := off }
def upd (comp : Nat) (a b : Option Nat) : State := mgt0 { Mgt.reset with flash := true, update := some ⟨comp, [], a, b⟩ }
/-- A session with port 1's responder, whose streams have state `n`. -/
def ideS (port n se : Nat) : State :=
  mgt0 { Mgt.reset with ide := Tab.set nat0 [] (5 * port) n, sessions := Tab.set nat0 (Tab.set nat0 [] 4 se) port se }
    [(P.boot, F.BOOT_STS_stage, 12), (P.hpt 1, F.HPT_LINK_STS_flit, 1), (P.hpt 0, F.HPT_LINK_STS_flit, 1)]
def cfgR (s : State) : State := s.setPort 1 { Port.reset with cfgReady := true }

def hpcS (l : List (Nat × Fld × Nat)) (cause : Nat := 0) : State :=
  { put ([(P.pt 0, F.PT_CFG_companion, 0xFFF)] ++ l) rdy with hpcCause := Tab.set nat0 [] 15 cause }
/-- Physical core 7 is cluster 0's spare. -/
def spare (l : List (Nat × Fld × Nat) := []) : State := put ([(P.clu 0, F.CLU_MAP_spare_valid, 1), (P.clu 0, F.CLU_MAP_spare_phys, 7)] ++ l) rdy
def spareP (v : Option Nat) (s : State) : State := { s.setSparePending 7 v with stores := s.stores.wr (stoKey 7 0) [9] false }
def bistC (s : State) : State := { s.setFlag (P.scbC 0) F.SCB_BIST_start true with bistCore := Tab.set spare0 [] 0 (some 7) }
/-- Slice 1 serves and holds 5 at its first eight bytes. -/
def slc1 (l : List (Nat × Fld × Nat) := []) : State :=
  let s := put ((P.slc 1, F.SLC_STS_state, 1) :: l) rdy
  { s with slices := s.slices.write (skey 1 0) [5, 0, 0, 0, 0, 0, 0, 0] false }
def scrubS (pos : Nat) (l : List (Nat × Fld × Nat)) : State :=
  let s := slc1 ([(P.scbH, F.SCB_I_CTL_enable, 1), (P.scbP 1, F.SCB_P_CTL_enable, 1)] ++ l)
  { s with hmp := (Mem.empty.wr 0x2000000 [1] false).wr 0x2000040 [2] false, scrubPos := Tab.set nat0 (Tab.set nat0 [] (P.scbP 1) pos) P.scbH pos }

/-- A stream port that is up, with MAC 1 and IPv4 2, UDP port 7; stream context 0 has stream ID 5, state `st`, a ring of an index and two data compartments at slots 5 to 7, frames to 64 KiB. -/
def skS (st : Nat) (v : SkSt) (l : List (Nat × Fld × Nat) := []) : State :=
  let s := put ([(P.stp 0, F.STP_STS_link_up, 1), (P.stp 1, F.STP_PORT_MAC_LO_value, 1), (P.stp 1, F.STP_PORT_IP4_value, 2), (P.stp 1, F.STP_PORT_ADDR_udp, 7),
    (P.stream 0, F.STP_SK_BIND_stream_id 0, 5), (P.stream 0, F.STP_SK_BIND_tenant 0, 1), (P.stream 0, F.STP_SK_STS_state 0, st), (P.stream 0, F.STP_SK_RING_slot 0, 5),
    (P.stream 0, F.STP_SK_RING_count 0, 3), (P.stream 0, F.STP_SK_LIMIT_max_frame 0, 1), (P.stream 0, F.STP_SK_EXPECT_value 0, 9),
    (P.stp 3, F.STP_PEER_CTL_valid 0, 1)] ++ l) rdy
  ((((s.setSk 0 v).setComp 605 ⟨2, 2, 0, 1, true, false, false, 5⟩).setComp 606 ⟨2, 2, 0, 1, true, false, false, 6⟩).setComp 607 ⟨2, 2, 0, 1, true, false, false, 7⟩)
/-- A frame of 100 bytes with ID 3 at data offset 0, 10 bytes received. -/
def fr0 : SkFrame := ⟨0, 3, 100, 0, 10, 0, false, 8, 8, false, false, false, [(0, 10)]⟩
def sk1 : SkSt := { SkSt.reset with gen := 1, opened := 1, est := true, frames := [fr0], live := [128], rt := 128 }
/-- A datagram of stream `id`, sequence 9, frame 3, with 4 bytes at offset 10. -/
def ksf (id : Byte) : List Byte := [0x10, 0, 0, id, 0, 0, 0, 9, 0, 0, 0, 3, 0, 0, 0, 10, 0, 0, 0, 100, 0, 4, 0, 0, 1, 2, 3, 4]
def frame1 (ok : Bool) (u : List Byte) : EthFrame := ⟨.udp, ok, 74, 1, false, true, 2, 9, 9, 7, none, u⟩
def headS (s : State) (h : Byte) : State := { s with hmp := s.hmp.wr (605 * 65536 + 0x40) [h, 0, 0, 0] false }
def paused0 (s : State) : State := s.setEth 0 ⟨1, [⟨0, 1, false, 0⟩]⟩
/-- A parameter block of 64 x 64 pictures at constant QP, one reference: encode (0) or decode (1). -/
def parB (m : Byte) : List Byte := blk 256 [(1, m), (8, 64), (0xA, 64), (0xC, 64), (0xE, 64), (0x13, 20), (0x14, 1), (0x28, 30), (0x2C, 1)]
/-- Session 0 of tenant 1 on engine 0 in state `st`, its block at slot 4's compartment 604, buffers at slots 8 to 10. -/
def vcS (st : Nat) (m : Byte) (v : VcSt) (cmd : List Byte) (prod : Nat) (l : List (Nat × Fld × Nat) := []) : State :=
  let s := put ([(P.vce 0 1, F.VCE_SS_BIND_tenant 0, 1), (P.vce 0 1, F.VCE_SS_BIND_engines 0, 1), (P.vce 0 1, F.VCE_SS_STS_state 0, st), (P.vce 0 1, F.VCE_SS_CTLSLOT_slot 0, 4),
    (P.vce 0 1, F.VCE_SS_OUT_slot 0, 8), (P.vce 0 1, F.VCE_SS_OUT_count 0, 2), (P.vce 0 1, F.VCE_SS_WORK_slot 0, 10), (P.vce 0 1, F.VCE_SS_WORK_count 0, 1)] ++ l) rdy
  let s := (((s.setVc 0 { v with par := parB m }).setComp 604 ⟨2, 4, 0, 1, true, false, false, 4⟩).setComp 608 ⟨2, 5, 0, 1, true, false, false, 8⟩)
  let s := ((s.setComp 609 ⟨2, 5, 0, 1, true, false, false, 9⟩).setComp 610 ⟨2, 5, 0, 1, true, false, false, 10⟩)
  { s with hmp := ((s.hmp.wr (604 * 65536) (parB m) false).wr (604 * 65536 + 0x140) (leBytes 4 prod) false).wr (604 * 65536 + 0x1000) cmd false }
/-- A picture command: encode (1) or decode (2) from slot 1. -/
def picB (k : Byte) : List Byte := blk 64 [(0, 0x55), (4, k), (0x1A, 1), (0x1C, if k = 2 then 64 else 0), (0x22, if k = 2 then 9 else 0), (0x24, 64)]
def run1 (k : Byte) : VcRun := ⟨picB k, 0, none, none, false, true⟩
def dec1 (e : Option (Fin 256)) : DecIn := ⟨4, true, false, false, e, 0, 0, []⟩
/-- The parameter block at rate control, with the guard exceeded by any byte. -/
def rateS : State := (vcS 2 0 VcSt.reset (picB 1) 0).setVc 0 { VcSt.reset with par := blk 256 [(1, 0), (0x10, 1), (8, 64), (0xA, 64), (0xC, 64), (0xE, 64), (0x14, 1), (0x28, 30), (0x2C, 1)], run := some (run1 1) }

/-- The context with a coast of one compartment at slot 11, off. -/
def skOff : State := (skS 0 SkSt.reset [(P.stream 0, F.STP_SK_LIMIT_budget_kib 0, 0), (P.stream 0, F.STP_SK_COAST_slot 0, 11), (P.stream 0, F.STP_SK_COAST_count 0, 1)]).setComp 611 ⟨2, 3, 0, 1, true, false, false, 11⟩

def headS2 (s : State) (h : Byte) : State := { s with hmp := s.hmp.wr (608 * 65536 + 0x40) [h, 0, 0, 0] false }

/-- Tile 0 with its regulator on and a change `c` of its point, requests at point 20. -/
def oppS (c : OppChg) (l : List (Nat × Fld × Nat) := []) : State :=
  (put ([(P.pwrT 0, F.PWR_T_STS_reg_on, 1), (P.thmT 0, F.THM_T_STS_req, 20), (P.pwrT 0, F.PWR_T_REQ_opp_req, 20), (P.pwr, F.PWR_STS_cap, 20)] ++ l) rdy).setChg 0 c
def domS (d i st : Nat) (r : Nat) (l : List (Nat × Fld × Nat) := []) : State := (put ([(P.pwrT d, domFld i, st)] ++ l) rdy).setRamp d i r
/-- 100 power samples of `mw` with bucket `b`. -/
def pwrS (mw b cap : Nat) : State :=
  let s := put [(P.pwr, F.PWR_STS_cap, cap), (P.pwr, F.PWR_LIMIT_p_sust, 1), (P.pwr, F.PWR_LIMIT_p_peak, 2)] rdy
  { s with power := { s.power with samples := List.replicate 10 ⟨mw, 1800, 10, 1, 1, [1]⟩, bucket := b } }
def offS (rails : Nat) : State := { State.reset with hubOff := true, power := { Power.reset with rails } }
def pin1 : PowerIn := ⟨1745, 100, List.replicate 8 5, 10, 10⟩
/-- Every sensor of tile 0 reads `v` (in 0.25 °C, 11 bits). -/
def thmS (v : Nat) (l : List (Nat × Fld × Nat)) : State :=
  put (((List.range 28).flatMap fun k => [(P.thmT 0, F.THM_T_SENSOR_valid k, 1), (P.thmT 0, F.THM_T_SENSOR_temp k, v)]) ++ l) rdy
def bandS (b : Nat) (s : State) : State := { s with bands := Tab.set nat0 [] 0 b }
def tripS (s : State) : State := { s with thm := { s.thm with tripped := true } }
def hubHot : State := put ((List.range 16).flatMap fun k => [(P.thm 0, F.THM_HUB_T_valid k, 1), (P.thm 0, F.THM_HUB_T_temp k, 421)]) rdy

/-- The job's core at an instruction in another tenant's model range. -/
def protS : State := put [(P.core 0, F.CORE_REZ_OWN_valid 1, 1), (P.core 0, F.CORE_REZ_OWN_tenant 1, 2), (P.core 0, F.CORE_REZ_BASE_base 1, 0x2000), (P.core 0, F.CORE_REZ_LEN_len 1, 0x1000)]
  (jobC { coreA with pc := 0x2000 })
/-- The job's core at an instruction in a poisoned line. -/
def poisI : State := { jobC { coreA with pc := 0x1000 } with stores := Mem.empty.wr (stoKey 0 0x1000) [1] true }

/-- A ready machine whose K domain of cluster 0 is on. -/
def onK (l : List (Nat × Fld × Nat) := []) : State := put ((P.pwrT 0, domFld 0, 3) :: l) rdy
/-- The tile 0 of a ready machine changes its operating point. -/
def busy0 (l : List (Nat × Fld × Nat) := []) : State := put ((P.pwrT 0, F.PWR_T_STS_busy, 1) :: l) rdy
/-- Every bridge link failed to train, and every tile has applied its fuse maps. -/
def bridges (ok : Nat) : State :=
  let s := stage 6 ((List.range 8).map fun t => (P.tile t, F.TILE_STS_fuse_ok, ok))
  s.each (List.range 32) fun k s => s.setLend k { LinkEnd.reset with failed := true }
/-- The route from tile 0 to tile 0 waits for its switch. -/
def holdR (s : State) : State := { s with routeHold := [(0, some 3)] }
def rdyF : List (Nat × Fld × Nat) := [(P.boot, F.BOOT_STS_ready, 1)]
/-- A token for scope 0. -/
def tok1 (n : Byte) (g : List Byte) : DebugToken := ⟨deviceIdBytes, List.replicate 48 n, 1, key1, g⟩
def dbgS (s : State) : State := { s with board := { s.board with keys := [(4, Config.sha384 key1)] } }

/-! Helpers of the witnesses. -/

theorem barriers {s : State} {l : List Nat} {P : Nat → Bool}
    (h : (l.all fun y => match (s.core y).wait with | .barrier b => P b | _ => true) = true) :
    ∀ y ∈ l, ∀ b, (s.core y).wait = .barrier b → P b = true := by
  intro y hy b e
  have := List.all_eq_true.1 h y hy
  simpa [e] using this
/-- Core 0 loads from its partition's pool, which lies on tile 0; the route there waits for its switch. -/
def heldP : State := holdR ((put [(P.slc 0, F.SLC_STS_state, 1)] (jobC { coreA.setS 7 0x10000000000 with pc := 0x1000 })).setPm 0 ⟨[0], 0, 0⟩)
/-- A mover operation from the pool over that route. -/
def movOpP : MovOp := ⟨0, 2, 0, 0xC0040, 0x10000000000, 4, 0, [], 0⟩
def movHeld : State := holdR ((put [(P.slc 0, F.SLC_STS_state, 1), (P.pt 0, F.PT_STS_state, 2), (P.pt 0, F.PT_CLU_LO_mask, 1)] (movHead movOpP [])).setPm 0 ⟨[0], 0, 0⟩)
/-- The dispatcher of partition 0 has taken its pick. -/
def taken0 (s : State) : State := s.setDsp 0 { s.dsp 0 with pick := none }
/-- A request of source 9 that the holder of `key1` signs with `sign`. -/
def signedBy (sign : List Byte → List Byte) (cmd : Nat) (body : List Nat) : Signed :=
  ⟨nonce1, 0, key1, sign (Config.sha384 (signedMsg fmc1 cmd body ⟨nonce1, 0, key1, []⟩))⟩
def tokBy (sign : List Byte → List Byte) : DebugToken := tok1 3 (sign (Config.sha384 (tokenMsg (tok1 3 []))))
/-- A bundle flit of a reserved type. -/
def rflit : BundleFlit := let b := blk 256 [(0, 15)]; ⟨b, b⟩
/-- Source 9 holds a nonce and a debug challenge, and no tenant is enabled. -/
def idleAuth : State := auth.setFld (P.ten 1 0) F.TN_STS_state 1

theorem crc_shift_lt (c : Nat) (b : Bool) : crcShift c b < 2 ^ 32 := by
  unfold crcShift
  split
  · exact Nat.xor_lt_two_pow (Nat.mod_lt _ (by decide)) (by decide)
  · exact Nat.mod_lt _ (by decide)
theorem link_crc_lt (l : List Bool) : linkCrc l < 2 ^ 32 := by
  have h : ∀ (l : List Bool) c, c < 2 ^ 32 → l.foldl crcShift c < 2 ^ 32 := by
    intro l; induction l with
    | nil => exact fun c h => h
    | cons b l ih => exact fun c _ => ih _ (crc_shift_lt c b)
  have f : ∀ (v : Nat) (l : List Nat) r k, r < 2 ^ k → l.foldl (fun r i => 2 * r + b2n (bitOf v i)) r < 2 ^ (k + l.length) := by
    intro v l; induction l with
    | nil => exact fun r k h => h
    | cons i l ih =>
      intro r k h
      have := ih (2 * r + b2n (bitOf v i)) (k + 1) (by rw [Nat.pow_succ]; unfold b2n; split <;> omega)
      simpa [Nat.add_comm, Nat.add_left_comm] using this
  have r : ∀ v, reflect32 v < 2 ^ 32 := fun v => f v (List.range 32) 0 0 (by decide)
  unfold linkCrc
  refine Nat.xor_lt_two_pow ?_ (Nat.mod_lt _ (by decide))
  split
  · exact r _
  · exact h _ _ (Nat.mod_lt _ (by decide))
/-- The halves of `bst` carry the flit's CRC. -/
theorem crc_burst : burstCrc [1, 2] 0 0 = 2 ^ 16 * (bst true false).crcHalf.toNat + (bst true true).crcHalf.toNat := by
  have h : burstCrc [1, 2] 0 0 < 2 ^ 32 := link_crc_lt _
  simp only [bst, BitVec.toNat_ofNat]
  norm_num
  omega
theorem le_four (y : Nat) (h : y < 2 ^ 32) : leNat (leBytes 4 y) = y := by
  simp [leNat, leBytes, List.range, List.range.loop]; omega
/-- The flit `bflit flitCrc` carries its CRC. -/
theorem crc_flit : linkCrc (byteBits (slice (flitBytes (bflit flitCrc)) 0 232)) = leAt (flitBytes (bflit flitCrc)) 232 4 := by
  have e : flitBytes (bflit flitCrc) = blk 232 [(0, 3)] ++ leBytes 4 flitCrc ++ List.replicate 20 0 := by simp [flitBytes, bflit]
  have a : slice (flitBytes (bflit flitCrc)) 0 232 = blk 232 [(0, 3)] := by simp [e, slice, blk]
  have b : slice (flitBytes (bflit flitCrc)) 232 4 = leBytes 4 flitCrc := by simp [e, slice, blk, leBytes]
  rw [leAt, a, b]; exact (le_four _ (link_crc_lt _)).symm
theorem flit_fix : flitFixable (bflit flitCrc) = true := by
  have z : ∀ l : List Byte, ((l.zip l).filter fun e => e.1 != e.2) = [] := by
    intro l; induction l with
    | nil => rfl
    | cons a l ih => simpa using ih
  have f : ∀ b j, fecDiff ⟨b, b⟩ j = 0 := fun b j => by simp only [fecDiff, z, List.length_nil]
  simp [flitFixable, bflit, f]
theorem flit_head : leAt (flitBytes (bflit flitCrc)) 0 4 = 3 := by
  have e : flitBytes (bflit flitCrc) = blk 232 [(0, 3)] ++ (leBytes 4 flitCrc ++ List.replicate 20 0) := by simp [flitBytes, bflit]
  have a : slice (flitBytes (bflit flitCrc)) 0 4 = slice (blk 232 [(0, 3)]) 0 4 := by
    rw [e, slice, slice, List.drop_zero, List.drop_zero, List.take_append_of_le_length (by decide +kernel)]
  rw [leAt, a]; decide +kernel
theorem key_good (s : State) (h : s.board.keys = [(0, Config.sha384 key1)]) (r : bitOf s.board.revoked 0 = false) : s.keyGood 0 key1 = true := by
  simp [State.keyGood, h, r, Tab.get]
theorem key_revoked (s : State) (k : Nat) (key : List Byte) (r : bitOf s.board.revoked k = true) : s.keyGood k key = false := by
  simp [State.keyGood, r]
theorem signed_by {s : State} {sign : List Byte → List Byte} (hv : ∀ d, Config.ecdsaP384 key1 d (sign d) = true)
    (n : Tab.get nonce0 s.mgt.nonces (srcKey fmc1.src) = some nonce1) (h : s.board.keys = [(0, Config.sha384 key1)])
    (r : bitOf s.board.revoked 0 = false) (cmd : Nat) (body : List Nat) : s.authentic fmc1 cmd body (signedBy sign cmd body) = true := by
  have g : s.keyGood (signedBy sign cmd body).slot.val (signedBy sign cmd body).key = true := key_good s h r
  have e : Config.ecdsaP384 (signedBy sign cmd body).key (Config.sha384 (signedMsg fmc1 cmd body (signedBy sign cmd body))) (signedBy sign cmd body).sig = true :=
    hv _
  unfold State.authentic; rw [g, e, n]; simp [signedBy]
theorem token_key (s : State) (g : List Byte) (h : s.board.keys = [(4, Config.sha384 key1)]) : s.tokenKey (tok1 3 g) = true := by
  simp [State.tokenKey, tok1, h, Tab.get]
/-- The read of a pushed image waits: the owner's port is in D3hot. -/
def heldPush : State :=
  let s := (stage 4 [(P.boot, F.BOOT_PUSH_CTL_go, 1)]).setPort 0 { Port.reset with d3 := true }
  { s with boot := { s.boot with pushHeld := true } }
theorem token_by (sign : List Byte → List Byte) : (dbgS idleAuth).tokenKey (tokBy sign) = true := token_key _ _ rfl
theorem token_sig {sign : List Byte → List Byte} {v : Bool} (h : ∀ d, Config.ecdsaP384 key1 d (sign d) = v) :
    Config.ecdsaP384 (tokBy sign).key (Config.sha384 (tokenMsg (tokBy sign))) (tokBy sign).sig = v := h _
theorem signed_sig {sign : List Byte → List Byte} {v : Bool} (h : ∀ d, Config.ecdsaP384 key1 d (sign d) = v) (cmd : Nat) (body : List Nat) :
    Config.ecdsaP384 (signedBy sign cmd body).key (Config.sha384 (signedMsg fmc1 cmd body (signedBy sign cmd body))) (signedBy sign cmd body).sig = v := h _
/-- Queue `q` of tenant `n` is the only one whose head may start. -/
theorem only_ready {s : State} {p n q : Nat} (h : ((List.range 128).all fun m => (List.range 8).all fun r => !s.bound m || !s.dispReady p m r || (m == n && r == q)) = true)
    (m r : Nat) (hm : m < 128) (hr : r < 8) (hb : s.bound m = true) (_ : s.tnPart m = p) (hd : s.dispReady p m r = true) : m = n ∧ r = q := by
  have := List.all_eq_true.1 (List.all_eq_true.1 h m (List.mem_range.2 hm)) r (List.mem_range.2 hr)
  simpa [hb, hd] using this

/-! The witnesses. -/

/-- The hypotheses of `Obligations.StepRunsFrontCommand` are met. -/
theorem witness_StepRunsFrontCommand :
    ∃ (c : Instr) (rest : List Instr) (s : Machine.State), s.pending = c :: rest :=
  ⟨.coldPowerOn, [], { State.reset with pending := [.coldPowerOn] }, by decide +kernel⟩

/-- The hypotheses of `Obligations.EmptyQueueTimePasses` are met. -/
theorem witness_EmptyQueueTimePasses :
    ∃ (s : Machine.State), s.pending = [] :=
  ⟨State.reset, by decide +kernel⟩

/-- The hypotheses of `Obligations.ResetValues` are met. -/
theorem witness_ResetValues :
    ∃ (e : ℕ) (i : ℕ) (k : ℕ) (h : ℕ) (p : ℕ) (n : ℕ) (q : ℕ), n < 128 ∧ q < 8 ∧ p < 8 ∧ h < 16 ∧ k < 512 ∧ i < 64 ∧ e < 4 :=
  ⟨0, 0, 0, 0, 0, 0, 0, by decide +kernel⟩

/-- The hypotheses of `Obligations.PageIdsDiffer` are met. -/
theorem witness_PageIdsDiffer :
    ∃ (a : ℕ) (b : ℕ) (i : PageInfo) (j : PageInfo), pageInfo a = some i ∧ pageInfo b = some j ∧ pgId a = pgId b :=
  ⟨0x60, 0x60, { layout := Layout.hpt, block := 8, page := 0, inst := 0, tenantPage := false }, { layout := Layout.hpt, block := 8, page := 0, inst := 0, tenantPage := false }, by decide +kernel⟩

/-- The hypotheses of `Obligations.TenantWindowHasTwoAddresses` are met. -/
theorem witness_TenantWindowHasTwoAddresses :
    ∃ (n : Fin 128) (k : ℕ) (o : ℕ) (i : PageInfo) (rq : Requester), k < 16 ∧ o < 4096 ∧ (∀ (m : Fin 128), rq ≠ Requester.tenant m) ∧ pageInfo (reqPage (Requester.tenant n) (k * 4096)) = some i :=
  ⟨127, 0, 0xFFF, { layout := Layout.tn0, block := 3, page := 0, inst := 127, tenantPage := true }, .fw, by decide +kernel⟩

/-- The hypotheses of `Obligations.ReplayLimitRetrains` are met. -/
theorem witness_ReplayLimitRetrains :
    ∃ (s : Machine.State) (e : LinkEndId) (k : ℕ), k = endKey e ∧ s.eState k = 3 ∧ 1 ≤ s.eget k F.LNK_CTL_replay_limit F.SER_CTL_replay_limit ∧ s.eget k F.LNK_CTL_replay_limit F.SER_CTL_replay_limit ≤ (s.lend k).replays :=
  ⟨ends (lk 3 [(P.lnk 0 0, F.LNK_CTL_replay_limit, 8)]) 0 { LinkEnd.reset with replay := [flit0], replays := 8 }, .bridge 0 0, _, rfl, by decide +kernel⟩

/-- The hypotheses of `Obligations.RunningCompanionIgnoresWrites` are met. -/
theorem witness_RunningCompanionIgnoresWrites :
    (∃ (s : Machine.State) (rq : Requester) (h : Fin 16) (addr : BitVec 28), 4 ≤ ↑h ∧ s.grants rq (P.hpc ↑h) = true ∧ addr.toNat = P.hpc ↑h * 4096 + 72 ∧ s.hpcState ↑h ≠ 2) ∧
    (∃ (s : Machine.State) (rq : Requester) (h : Fin 16) (addr : BitVec 28), 4 ≤ ↑h ∧ s.grants rq (P.hpc ↑h) = true ∧ addr.toNat = P.hpc ↑h * 4096 + 72 ∧ s.hpcState ↑h = 2) :=
  ⟨⟨hpcS [], .fw, 15, 0x9F048, by decide +kernel⟩,
   ⟨hpcS [(P.hpc 15, F.HPC_STS_state, 2)], .fw, 15, 0x9F048, by decide +kernel⟩⟩

/-- The hypotheses of `Obligations.ScalarResults` are met. -/
theorem witness_ScalarResults :
    (∃ (x : Fin 512) (i : Pk) (s : Machine.State) (a : Dword) (b : Dword), a = (s.core ↑x).getS ↑i.a ∧ b = (s.core ↑x).getS ↑i.b ∧ s.issues (↑x) i formSss = true) ∧
    (∃ (x : Fin 512) (i : Pk) (s : Machine.State) (a : Dword) (b : Dword), a = (s.core ↑x).getS ↑i.a ∧ b = BitVec.signExtend 64 i.imm ∧ s.issues (↑x) i formSsi = true) :=
  ⟨⟨0, regs 5 5 6 0, mon, _, _, rfl, rfl, by decide +kernel⟩,
   ⟨0, regs 5 5 0 0 0 (-1), mon, _, _, rfl, rfl, by decide +kernel⟩⟩

/-- The hypotheses of `Obligations.SpecialRegisterAccess` (part 1) are met. -/
theorem witness_SpecialRegisterAccess_1 :
    (∃ (x : Fin 512) (i : Pk) (s : Machine.State), s.issues (↑x) i { a := RegUse.s, imm := true } = true ∧ BitVec.toNat i.imm ≠ 5 ∧ BitVec.toNat i.imm ≠ 6) ∧
    (∃ (x : Fin 512) (i : Pk) (s : Machine.State), s.issues (↑x) i { d := RegUse.s, imm := true } = true ∧ BitVec.toNat i.imm = 0) ∧
    (∃ (x : Fin 512) (i : Pk) (s : Machine.State), s.issues (↑x) i { d := RegUse.s, imm := true } = true ∧ BitVec.toNat i.imm = 1) ∧
    (∃ (x : Fin 512) (i : Pk) (s : Machine.State), s.issues (↑x) i { d := RegUse.s, imm := true } = true ∧ BitVec.toNat i.imm = 2) ∧
    (∃ (x : Fin 512) (i : Pk) (s : Machine.State), s.issues (↑x) i { d := RegUse.s, imm := true } = true ∧ BitVec.toNat i.imm = 3) ∧
    (∃ (x : Fin 512) (i : Pk) (s : Machine.State), s.issues (↑x) i { d := RegUse.s, imm := true } = true ∧ BitVec.toNat i.imm = 4) :=
  ⟨⟨0, regs 0 5 0 0 0 0, run, by decide +kernel⟩,
   ⟨0, regs 5 0 0 0 0 0, run, by decide +kernel⟩,
   ⟨0, regs 5 0 0 0 0 1, run, by decide +kernel⟩,
   ⟨0, regs 5 0 0 0 0 2, run, by decide +kernel⟩,
   ⟨0, regs 5 0 0 0 0 3, run, by decide +kernel⟩,
   ⟨0, regs 5 0 0 0 0 4, run, by decide +kernel⟩⟩

/-- The hypotheses of `Obligations.SpecialRegisterAccess` (part 2) are met. -/
theorem witness_SpecialRegisterAccess_2 :
    (∃ (x : Fin 512) (i : Pk) (s : Machine.State), s.issues (↑x) i { d := RegUse.s, imm := true } = true ∧ BitVec.toNat i.imm = 5) ∧
    (∃ (x : Fin 512) (i : Pk) (s : Machine.State), s.issues (↑x) i { d := RegUse.s, imm := true } = true ∧ BitVec.toNat i.imm = 6) ∧
    (∃ (x : Fin 512) (i : Pk) (s : Machine.State), s.issues (↑x) i { d := RegUse.s, imm := true } = true ∧ BitVec.toNat i.imm = 7) ∧
    (∃ (x : Fin 512) (i : Pk) (s : Machine.State), s.issues (↑x) i { d := RegUse.s, imm := true } = true ∧ BitVec.toNat i.imm = 8) ∧
    (∃ (x : Fin 512) (i : Pk) (s : Machine.State), s.issues (↑x) i { d := RegUse.s, imm := true } = true ∧ 9 ≤ BitVec.toNat i.imm) ∧
    (∃ (x : Fin 512) (i : Pk) (s : Machine.State), s.issues (↑x) i { a := RegUse.s, imm := true } = true ∧ BitVec.toNat i.imm = 5) :=
  ⟨⟨0, regs 5 0 0 0 0 5, run, by decide +kernel⟩,
   ⟨0, regs 5 0 0 0 0 6, run, by decide +kernel⟩,
   ⟨0, regs 5 0 0 0 0 7, run, by decide +kernel⟩,
   ⟨0, regs 5 0 0 0 0 8, run, by decide +kernel⟩,
   ⟨0, regs 5 0 0 0 0 9, run, by decide +kernel⟩,
   ⟨0, regs 0 5 0 0 0 5, run, by decide +kernel⟩⟩

/-- The hypotheses of `Obligations.SpecialRegisterAccess` (part 3) are met. -/
theorem witness_SpecialRegisterAccess_3 :
    ∃ (x : Fin 512) (i : Pk) (s : Machine.State), s.issues (↑x) i { a := RegUse.s, imm := true } = true ∧ BitVec.toNat i.imm = 6 :=
  ⟨0, regs 0 5 0 0 0 6, run, by decide +kernel⟩

/-- The hypotheses of `Obligations.ScalarLoadStore` (part 1) are met. -/
theorem witness_ScalarLoadStore_1 :
    (∃ (x : Fin 512) (i : Pk) (s : Machine.State) (addr : ℕ) (n : ℕ), addr = BitVec.toNat ((s.core ↑x).getS ↑i.a + BitVec.signExtend 64 i.imm) ∧ n = 2 ^ (i.mod.val % 4) ∧ s.issues (↑x) i { d := RegUse.s, a := RegUse.s, mods := [0, 1, 2, 3, 4, 5, 6, 7], imm := true } = true ∧ s.accessFault (↑x) Access.scalar addr n n false = none ∧ s.accHeld (↑x) addr = false ∧ (s.memRead (↑x) addr n).2.1 = false ∧ addr < storeTop ∧ s.stores.linePoison (stoKey (↑x) addr / 64) = false) ∧
    (∃ (x : Fin 512) (i : Pk) (s : Machine.State) (addr : ℕ) (n : ℕ) (w : Machine.State), addr = BitVec.toNat ((s.core ↑x).getS ↑i.a + BitVec.signExtend 64 i.imm) ∧ n = 2 ^ i.mod.val ∧ w = s.memWrite (↑x) addr (leBytes n (BitVec.toNat ((s.core ↑x).getS ↑i.d))) false ∧ s.issues (↑x) i { d := RegUse.s, a := RegUse.s, mods := [0, 1, 2, 3], imm := true } = true ∧ s.accessFault (↑x) Access.scalar addr n n true = none ∧ s.accHeld (↑x) addr = false ∧ addr < storeTop) ∧
    (∃ (x : Fin 512) (i : Pk) (s : Machine.State) (addr : ℕ) (n : ℕ), addr = BitVec.toNat ((s.core ↑x).getS ↑i.a + BitVec.signExtend 64 i.imm) ∧ n = 2 ^ (i.mod.val % 4) ∧ s.issues (↑x) i { d := RegUse.s, a := RegUse.s, mods := [0, 1, 2, 3, 4, 5, 6, 7], imm := true } = true ∧ s.accessFault (↑x) Access.scalar addr n n false = none ∧ s.accHeld (↑x) addr = false ∧ (s.memRead (↑x) addr n).2.1 = true ∧ (s.core ↑x).job.isSome = true) ∧
    (∃ (x : Fin 512) (i : Pk) (s : Machine.State) (addr : ℕ) (n : ℕ) (code : ℕ), addr = BitVec.toNat ((s.core ↑x).getS ↑i.a + BitVec.signExtend 64 i.imm) ∧ n = 2 ^ (i.mod.val % 4) ∧ s.issues (↑x) i { d := RegUse.s, a := RegUse.s, mods := [0, 1, 2, 3, 4, 5, 6, 7], imm := true } = true ∧ s.accessFault (↑x) Access.scalar addr n n false = some code) ∧
    (∃ (x : Fin 512) (i : Pk) (s : Machine.State) (addr : ℕ) (n : ℕ) (code : ℕ), addr = BitVec.toNat ((s.core ↑x).getS ↑i.a + BitVec.signExtend 64 i.imm) ∧ n = 2 ^ i.mod.val ∧ s.issues (↑x) i { d := RegUse.s, a := RegUse.s, mods := [0, 1, 2, 3], imm := true } = true ∧ s.accessFault (↑x) Access.scalar addr n n true = some code) ∧
    (∃ (x : Fin 512) (i : Pk) (s : Machine.State) (addr : ℕ) (n : ℕ), addr = BitVec.toNat ((s.core ↑x).getS ↑i.a + BitVec.signExtend 64 i.imm) ∧ n = 2 ^ (i.mod.val % 4) ∧ s.issues (↑x) i { d := RegUse.s, a := RegUse.s, mods := [0, 1, 2, 3, 4, 5, 6, 7], imm := true } = true ∧ s.accessFault (↑x) Access.scalar addr n n false = none ∧ s.accHeld (↑x) addr = true) :=
  ⟨⟨0, regs 5 7 0 0 7 (-8), mon, _, _, rfl, rfl, by decide +kernel⟩,
   ⟨0, regs 6 7 0 0 3 8, mon, _, _, _, rfl, rfl, rfl, by decide +kernel⟩,
   ⟨0, regs 5 7 0 0 4, poisP run, _, _, rfl, rfl, by decide +kernel⟩,
   ⟨0, regs 5 7 0 0 3 1, mon, _, _, 3, rfl, rfl, by decide +kernel⟩,
   ⟨0, regs 5 7 0 0 3 1, mon, _, _, 3, rfl, rfl, by decide +kernel⟩,
   ⟨0, regs 5 7 0 0 3, heldP, _, _, rfl, rfl, by decide +kernel⟩⟩

/-- The hypotheses of `Obligations.ScalarLoadStore` (part 2) are met. -/
theorem witness_ScalarLoadStore_2 :
    ∃ (x : Fin 512) (i : Pk) (s : Machine.State) (addr : ℕ) (n : ℕ), addr = BitVec.toNat ((s.core ↑x).getS ↑i.a + BitVec.signExtend 64 i.imm) ∧ n = 2 ^ i.mod.val ∧ s.issues (↑x) i { d := RegUse.s, a := RegUse.s, mods := [0, 1, 2, 3], imm := true } = true ∧ s.accessFault (↑x) Access.scalar addr n n true = none ∧ s.accHeld (↑x) addr = true :=
  ⟨0, regs 5 7 0 0 3, heldP, _, _, rfl, rfl, by decide +kernel⟩

/-- The hypotheses of `Obligations.ControlResults` are met. -/
theorem witness_ControlResults :
    (∃ (x : Fin 512) (i : Pk) (s : Machine.State) (c : Core) (target : ℕ) (a : ℤ) (taken : Prop), c = s.core ↑x ∧ target = pcAdd c.pc (8 * BitVec.toInt i.imm) ∧ a = BitVec.toInt (c.getS ↑i.a) ∧ (taken ↔ i.mod.val = 0 ∧ a = 0 ∨ i.mod.val = 1 ∧ a ≠ 0 ∨ i.mod.val = 2 ∧ a < 0 ∨ i.mod.val = 3 ∧ 0 ≤ a ∨ i.mod.val = 4 ∧ 0 < a ∨ i.mod.val = 5 ∧ a ≤ 0) ∧ s.issues (↑x) i { } = true ∧ s.issues (↑x) i { mods := [0, 1] } = true ∧ s.issues (↑x) i { imm := true } = true ∧ s.issues (↑x) i { a := RegUse.s, mods := [0, 1, 2, 3, 4, 5], imm := true } = true ∧ taken ∧ s.issues (↑x) i { d := RegUse.s, imm := true } = true ∧ s.issues (↑x) i { a := RegUse.s } = true ∧ c.active ≠ 0 ∧ (∀ k < 16, BitVec.getLsbD i.imm k = true → c.getT k = 0) ∧ (∀ k < 16, c.getT k = 0)) ∧
    (∃ (x : Fin 512) (i : Pk) (s : Machine.State) (c : Core) (target : ℕ) (a : ℤ) (taken : Prop), c = s.core ↑x ∧ target = pcAdd c.pc (8 * BitVec.toInt i.imm) ∧ a = BitVec.toInt (c.getS ↑i.a) ∧ (taken ↔ i.mod.val = 0 ∧ a = 0 ∨ i.mod.val = 1 ∧ a ≠ 0 ∨ i.mod.val = 2 ∧ a < 0 ∨ i.mod.val = 3 ∧ 0 ≤ a ∨ i.mod.val = 4 ∧ 0 < a ∨ i.mod.val = 5 ∧ a ≤ 0) ∧ s.issues (↑x) i { a := RegUse.s, mods := [0, 1, 2, 3, 4, 5], imm := true } = true ∧ (¬taken)) ∧
    (∃ (x : Fin 512) (i : Pk) (s : Machine.State) (c : Core) (target : ℕ), c = s.core ↑x ∧ target = pcAdd c.pc (8 * BitVec.toInt i.imm) ∧ s.issues (↑x) i { imm := true } = true ∧ c.active = 0) ∧
    (∃ (x : Fin 512) (i : Pk) (s : Machine.State) (c : Core) (target : ℕ), c = s.core ↑x ∧ target = pcAdd c.pc (8 * BitVec.toInt i.imm) ∧ s.issues (↑x) i { } = true ∧ (∃ k < 16, c.getT k ≠ 0)) ∧
    (∃ (x : Fin 512) (i : Pk) (s : Machine.State) (c : Core) (target : ℕ), c = s.core ↑x ∧ target = pcAdd c.pc (8 * BitVec.toInt i.imm) ∧ s.issues (↑x) i { imm := true } = true ∧ (∃ k < 16, BitVec.getLsbD i.imm k = true ∧ c.getT k ≠ 0)) :=
  ⟨⟨0, regs 0 0 0 0, mon, _, _, _, _, rfl, rfl, rfl, Iff.rfl, by decide +kernel⟩,
   ⟨0, regs 0 0 0 0 1, mon, _, _, _, _, rfl, rfl, rfl, Iff.rfl, by decide +kernel⟩,
   ⟨0, regs 0 0 0 0, monActive 0, _, _, rfl, rfl, by decide +kernel⟩,
   ⟨0, regs 0 0 0 0, monTok, _, _, rfl, rfl, by decide +kernel⟩,
   ⟨0, regs 0 0 0 0 0 5, monTok, _, _, rfl, rfl, by decide +kernel⟩⟩

/-- The hypotheses of `Obligations.DivergenceResults` are met. -/
theorem witness_DivergenceResults :
    (∃ (x : Fin 512) (i : Pk) (s : Machine.State) (c : Core) (g : Dword) (top : List MaskEntry) (e : MaskEntry) (r : List MaskEntry), c = s.core ↑x ∧ (g = if i.pn = true then ~~~c.getP ↑i.pg else c.getP ↑i.pg) ∧ s.issues (↑x) i { guarded := true } = true ∧ c.stack.length < 32 ∧ s.issues (↑x) i { } = true ∧ c.stack = e :: r ∧ (e.kind = MaskKind.loopk ∨ e.els = true) ∧ e.kind = MaskKind.loopk ∧ c.stack = top ++ e :: r ∧ (∀ f ∈ top, f.kind = MaskKind.ifk) ∧ s.issues (↑x) i { imm := true } = true ∧ c.active ≠ 0) ∧
    (∃ (x : Fin 512) (i : Pk) (s : Machine.State) (c : Core) (g : Dword) (e : MaskEntry) (r : List MaskEntry), c = s.core ↑x ∧ (g = if i.pn = true then ~~~c.getP ↑i.pg else c.getP ↑i.pg) ∧ s.issues (↑x) i { } = true ∧ c.stack = e :: r ∧ e.kind = MaskKind.ifk ∧ e.els = false ∧ s.issues (↑x) i { guarded := true } = true ∧ (∀ f ∈ c.stack, f.kind = MaskKind.ifk)) ∧
    (∃ (x : Fin 512) (i : Pk) (s : Machine.State) (c : Core) (g : Dword), c = s.core ↑x ∧ (g = if i.pn = true then ~~~c.getP ↑i.pg else c.getP ↑i.pg) ∧ s.issues (↑x) i { guarded := true } = true ∧ 32 ≤ c.stack.length ∧ s.issues (↑x) i { } = true) ∧
    (∃ (x : Fin 512) (i : Pk) (s : Machine.State) (c : Core) (g : Dword), c = s.core ↑x ∧ (g = if i.pn = true then ~~~c.getP ↑i.pg else c.getP ↑i.pg) ∧ (c.stack = [] ∨ ∃ e r, c.stack = e :: r ∧ e.kind = MaskKind.ifk) ∧ s.issues (↑x) i { } = true ∧ c.stack = [] ∧ s.issues (↑x) i { imm := true } = true) ∧
    (∃ (x : Fin 512) (i : Pk) (s : Machine.State) (c : Core) (g : Dword) (e : MaskEntry) (r : List MaskEntry), c = s.core ↑x ∧ (g = if i.pn = true then ~~~c.getP ↑i.pg else c.getP ↑i.pg) ∧ s.issues (↑x) i { imm := true } = true ∧ c.stack = e :: r ∧ e.kind = MaskKind.loopk ∧ c.active = 0) :=
  ⟨⟨0, regs 0 0 0 0, monStack (-1) [loopE], _, _, [], { kind := MaskKind.loopk, outer := 0x000000000000000f#64, taken := 0x0000000000000000#64, els := false }, [], rfl, rfl, by decide +kernel⟩,
   ⟨0, regs 0 0 0 0, monStack (-1) [ifE], _, _, { kind := MaskKind.ifk, outer := 0x000000000000000f#64, taken := 0x0000000000000005#64, els := false }, [], rfl, rfl, by decide +kernel⟩,
   ⟨0, regs 0 0 0 0, monStack 5 (List.replicate 32 elseE), _, _, rfl, rfl, by decide +kernel⟩,
   ⟨0, regs 0 0 0 0, mon, _, _, rfl, rfl, .inl (by decide +kernel), by decide +kernel⟩,
   ⟨0, regs 0 0 0 0, monStack 0 [loopE], _, _, { kind := MaskKind.loopk, outer := 0x000000000000000f#64, taken := 0x0000000000000000#64, els := false }, [], rfl, rfl, by decide +kernel⟩⟩

/-- The hypotheses of `Obligations.VectorIntegerResults` are met. -/
theorem witness_VectorIntegerResults :
    ∃ (x : Fin 512) (i : Pk) (s : Machine.State) (c : Core) (a : ℕ → Word) (b : ℕ → Word), c = s.core ↑x ∧ (∀ (t : ℕ), a t = c.getV (↑i.a) t) ∧ (∀ (t : ℕ), b t = c.getV (↑i.b) t) ∧ s.issues (↑x) i formVvv = true ∧ (s.issues (↑x) i
    (have __src := formVvv;
    { __src with mods := [0, 1, 2, 3, 4, 5, 6, 7] }) =
  true) ∧ (s.issues (↑x) i
    (have __src := formVvv;
    { __src with c := RegUse.v }) =
  true) :=
  ⟨0, guarded (regs 1 1 2 0) true, mon, _, fun t => (mon.core ↑0).getV (↑(guarded (regs 1 1 2 0) true).a) t, fun t => (mon.core ↑0).getV (↑(guarded (regs 1 1 2 0) true).b) t, rfl, fun _ => rfl, fun _ => rfl, by decide +kernel⟩

/-- The hypotheses of `Obligations.VectorFloatResults` are met. -/
theorem witness_VectorFloatResults :
    ∃ (x : Fin 512) (i : Pk) (s : Machine.State) (c : Core) (a : ℕ → Word) (b : ℕ → Word) (fm : ℕ), c = s.core ↑x ∧ fm = c.fpmode ∧ (∀ (t : ℕ), a t = c.getV (↑i.a) t) ∧ (∀ (t : ℕ), b t = c.getV (↑i.b) t) ∧ s.issues (↑x) i formVvv = true ∧ (s.issues (↑x) i
    (have __src := formVvv;
    { __src with c := RegUse.v }) =
  true) ∧ s.issues (↑x) i formVv = true ∧ (s.issues (↑x) i
    (have __src := formVvv;
    { __src with b := if i.mod = 2 then RegUse.v else RegUse.no, mods := [0, 1, 2] }) =
  true) ∧ (s.issues (↑x) i
    (have __src := formVv;
    { __src with mods := List.range 12 }) =
  true) ∧ (s.issues (↑x) i
    (have __src := formVv;
    { __src with mods := [0, 1, 2, 3] }) =
  true) :=
  ⟨0, regs 1 1 0 0, mon, _, fun t => (mon.core ↑0).getV (↑(regs 1 1 0 0).a) t, fun t => (mon.core ↑0).getV (↑(regs 1 1 0 0).b) t, _, rfl, rfl, fun _ => rfl, fun _ => rfl, by decide +kernel⟩

/-- The hypotheses of `Obligations.PredicateAndCrossLane` are met. -/
theorem witness_PredicateAndCrossLane :
    (∃ (x : Fin 512) (i : Pk) (s : Machine.State) (c : Core) (r : Word × ℕ) (m : Dword) (a : Dword) (b : Dword), c = s.core ↑x ∧ r = treeFold (withFlags (redOp c.fpmode i.mod.val)) (0, 0) 6 (redLeaves c i) ∧ (m = c.getP ↑i.a &&& c.active) ∧ a = c.getP ↑i.a ∧ b = c.getP ↑i.b ∧ s.issues (↑x) i formPpp = true ∧ s.issues (↑x) i { d := RegUse.s, a := RegUse.p } = true ∧ s.issues (↑x) i { d := RegUse.p, a := RegUse.s } = true ∧ s.issues (↑x) i formVvv = true ∧ s.issues (↑x) i { d := RegUse.v, a := RegUse.s, guarded := true, tgu := true } = true ∧ s.issues (↑x) i { d := RegUse.v, guarded := true, tgu := true } = true ∧ s.issues (↑x) i { d := RegUse.s, a := RegUse.v, b := RegUse.s, tgu := true } = true ∧ s.issues (↑x) i { d := RegUse.v, a := RegUse.s, b := RegUse.s, tgu := true } = true ∧ s.issues (↑x) i { d := RegUse.s, a := RegUse.v, mods := [0, 1, 2, 3, 4, 5], guarded := true, tgu := true } = true ∧ i.mod.val = 0 ∧ (s.issues (↑x) i
    (have __src := formVv;
    { __src with mods := [0, 3] }) =
  true)) ∧
    (∃ (x : Fin 512) (i : Pk) (s : Machine.State) (c : Core) (r : ℕ → Bool × ℕ) (a : ℕ → Word) (b : ℕ → Word), c = s.core ↑x ∧ (∀ (t : ℕ), a t = c.getV (↑i.a) t) ∧ (∀ (t : ℕ), b t = c.getV (↑i.b) t) ∧ (∀ (t : ℕ), r t = f32Cmp c.fpmode (i.mod.val) (c.getV (↑i.a) t) (c.getV (↑i.b) t)) ∧ s.issues (↑x) i (formPvv [0, 1, 2, 3, 4, 5]) = true ∧ s.issues (↑x) i (formPvv [0, 1, 2, 3, 4]) = true) :=
  ⟨⟨0, regs 1 0 0 0, mon, _, _, _, _, _, rfl, rfl, rfl, rfl, rfl, by decide +kernel⟩,
   ⟨0, guarded (regs 1 1 2 0 1) true, mon, _, fun t => f32Cmp (mon.core ↑0).fpmode (↑(guarded (regs 1 1 2 0 1) true).mod) ((mon.core ↑0).getV (↑(guarded (regs 1 1 2 0 1) true).a) t) ((mon.core ↑0).getV (↑(guarded (regs 1 1 2 0 1) true).b) t), fun t => (mon.core ↑0).getV (↑(guarded (regs 1 1 2 0 1) true).a) t, fun t => (mon.core ↑0).getV (↑(guarded (regs 1 1 2 0 1) true).b) t, rfl, fun _ => rfl, fun _ => rfl, fun _ => rfl, by decide +kernel⟩⟩

/-- The hypotheses of `Obligations.VectorLoadStore` are met. -/
theorem witness_VectorLoadStore :
    (∃ (x : Fin 512) (i : Pk) (s : Machine.State) (c : Core) (addr : ℕ → ℕ) (n : ℕ) (t : ℕ), c = s.core ↑x ∧ n = 2 ^ (i.mod.val % 4) ∧ (∀ (t : ℕ), addr t = BitVec.toNat (c.getS ↑i.a + BitVec.setWidth 64 (c.getV (↑i.b) t) + BitVec.signExtend 64 (BitVec.setWidth 24 i.imm))) ∧ s.issues (↑x) i { d := RegUse.v, a := RegUse.s, b := RegUse.v, mods := [0, 1, 2, 4, 5], imm := true, guarded := true, tgu := true } = true ∧ c.job.isSome = true ∧ (∀ t < 64, BitVec.getLsbD (c.acting i) t = true → s.accessFault (↑x) Access.vector (addr t) n n false = none) ∧ t < 64 ∧ BitVec.getLsbD (c.acting i) t = true ∧ s.stores.linePoison (s.vKey (↑x) (addr t) / 64) = true ∧ (∀ u < t, BitVec.getLsbD (c.acting i) u = true → s.stores.linePoison (s.vKey (↑x) (addr u) / 64) = false)) ∧
    (∃ (x : Fin 512) (i : Pk) (s : Machine.State) (c : Core) (addr : ℕ → ℕ) (n : ℕ), c = s.core ↑x ∧ n = 2 ^ i.mod.val ∧ (∀ (t : ℕ), addr t = BitVec.toNat (c.getS ↑i.a + BitVec.setWidth 64 (c.getV (↑i.b) t) + BitVec.signExtend 64 (BitVec.setWidth 24 i.imm))) ∧ s.issues (↑x) i { d := RegUse.v, a := RegUse.s, b := RegUse.v, mods := [0, 1, 2], imm := true, guarded := true, tgu := true } = true ∧ (∀ t < 64, BitVec.getLsbD (c.acting i) t = true → s.accessFault (↑x) Access.vector (addr t) n n true = none)) ∧
    (∃ (x : Fin 512) (i : Pk) (s : Machine.State) (c : Core) (addr : ℕ → ℕ) (n : ℕ) (t : ℕ) (code : ℕ), c = s.core ↑x ∧ n = 2 ^ (i.mod.val % 4) ∧ (∀ (t : ℕ), addr t = BitVec.toNat (c.getS ↑i.a + BitVec.setWidth 64 (c.getV (↑i.b) t) + BitVec.signExtend 64 (BitVec.setWidth 24 i.imm))) ∧ s.issues (↑x) i { d := RegUse.v, a := RegUse.s, b := RegUse.v, mods := [0, 1, 2, 4, 5], imm := true, guarded := true, tgu := true } = true ∧ t < 64 ∧ BitVec.getLsbD (c.acting i) t = true ∧ s.accessFault (↑x) Access.vector (addr t) n n false = some code ∧ (∀ u < t, BitVec.getLsbD (c.acting i) u = true → s.accessFault (↑x) Access.vector (addr u) n n false = none)) ∧
    (∃ (x : Fin 512) (i : Pk) (s : Machine.State) (c : Core) (addr : ℕ → ℕ) (n : ℕ) (t : ℕ) (code : ℕ), c = s.core ↑x ∧ n = 2 ^ i.mod.val ∧ (∀ (t : ℕ), addr t = BitVec.toNat (c.getS ↑i.a + BitVec.setWidth 64 (c.getV (↑i.b) t) + BitVec.signExtend 64 (BitVec.setWidth 24 i.imm))) ∧ s.issues (↑x) i { d := RegUse.v, a := RegUse.s, b := RegUse.v, mods := [0, 1, 2], imm := true, guarded := true, tgu := true } = true ∧ t < 64 ∧ BitVec.getLsbD (c.acting i) t = true ∧ s.accessFault (↑x) Access.vector (addr t) n n true = some code ∧ (∀ u < t, BitVec.getLsbD (c.acting i) u = true → s.accessFault (↑x) Access.vector (addr u) n n true = none)) ∧
    (∃ (x : Fin 512) (i : Pk) (s : Machine.State) (c : Core) (addr : ℕ → ℕ) (n : ℕ), c = s.core ↑x ∧ n = 2 ^ (i.mod.val % 4) ∧ (∀ (t : ℕ), addr t = BitVec.toNat (c.getS ↑i.a + BitVec.setWidth 64 (c.getV (↑i.b) t) + BitVec.signExtend 64 (BitVec.setWidth 24 i.imm))) ∧ s.issues (↑x) i { d := RegUse.v, a := RegUse.s, b := RegUse.v, mods := [0, 1, 2, 4, 5], imm := true, guarded := true, tgu := true } = true ∧ (∀ t < 64, BitVec.getLsbD (c.acting i) t = true → s.accessFault (↑x) Access.vector (addr t) n n false = none ∧ s.stores.linePoison (s.vKey (↑x) (addr t) / 64) = false)) :=
  ⟨⟨0, regs 1 7 3 0 2, poisP run, _, fun t => BitVec.toNat (((poisP run).core ↑0).getS ↑(regs 1 7 3 0 2).a + BitVec.setWidth 64 (((poisP run).core ↑0).getV (↑(regs 1 7 3 0 2).b) t) + BitVec.signExtend 64 (BitVec.setWidth 24 (regs 1 7 3 0 2).imm)), _, 0, rfl, rfl, fun _ => rfl, by decide +kernel⟩,
   ⟨0, regs 1 7 3 0 2, poisP run, _, fun t => BitVec.toNat (((poisP run).core ↑0).getS ↑(regs 1 7 3 0 2).a + BitVec.setWidth 64 (((poisP run).core ↑0).getV (↑(regs 1 7 3 0 2).b) t) + BitVec.signExtend 64 (BitVec.setWidth 24 (regs 1 7 3 0 2).imm)), _, rfl, rfl, fun _ => rfl, by decide +kernel⟩,
   ⟨0, regs 1 7 3 0 1 1, mon, _, fun t => BitVec.toNat ((mon.core ↑0).getS ↑(regs 1 7 3 0 1 1).a + BitVec.setWidth 64 ((mon.core ↑0).getV (↑(regs 1 7 3 0 1 1).b) t) + BitVec.signExtend 64 (BitVec.setWidth 24 (regs 1 7 3 0 1 1).imm)), _, 0, 3, rfl, rfl, fun _ => rfl, by decide +kernel⟩,
   ⟨0, regs 1 7 3 0 1 1, mon, _, fun t => BitVec.toNat ((mon.core ↑0).getS ↑(regs 1 7 3 0 1 1).a + BitVec.setWidth 64 ((mon.core ↑0).getV (↑(regs 1 7 3 0 1 1).b) t) + BitVec.signExtend 64 (BitVec.setWidth 24 (regs 1 7 3 0 1 1).imm)), _, 0, 3, rfl, rfl, fun _ => rfl, by decide +kernel⟩,
   ⟨0, regs 1 7 3 0 2, mon, _, fun t => BitVec.toNat ((mon.core ↑0).getS ↑(regs 1 7 3 0 2).a + BitVec.setWidth 64 ((mon.core ↑0).getV (↑(regs 1 7 3 0 2).b) t) + BitVec.signExtend 64 (BitVec.setWidth 24 (regs 1 7 3 0 2).imm)), _, rfl, rfl, fun _ => rfl, by decide +kernel⟩⟩

/-- The hypotheses of `Obligations.RankResults` (part 1) are met. -/
theorem witness_RankResults_1 :
    (∃ (x : Fin 512) (i : Pk) (s : Machine.State) (c : Core), c = s.core ↑x ∧ s.issues (↑x) i { imm := true } = true ∧ c.job = none ∧ s.issues (↑x) i { a := RegUse.s } = true ∧ s.issues (↑x) i { } = true ∧ s.jobRange ↑x = none ∧ s.issues (↑x) i { d := RegUse.s } = true) ∧
    (∃ (x : Fin 512) (i : Pk) (s : Machine.State) (c : Core) (k : ℕ) (j : Job) (b : ℕ), c = s.core ↑x ∧ j = s.job k ∧ b = BitVec.toNat i.imm % 4 ∧ (∀ y ∈ j.ranks, ∀ (b' : ℕ), (s.core y).wait = Wait.barrier b' → b' = b) ∧ s.issues (↑x) i { imm := true } = true ∧ c.job = some k ∧ (∃ y ∈ j.ranks, y ≠ ↑x ∧ (s.core y).wait = Wait.run) ∧ s.issues (↑x) i { a := RegUse.s } = true ∧ s.issues (↑x) i { } = true ∧ c.job ≠ none ∧ (c.wait ≠ Wait.jend ∨ j.stopping = true ∨ ∃ n < 16, c.getT n ≠ 0) ∧ (j.stopping = false ∨ c.wait = Wait.ended)) ∧
    (∃ (x : Fin 512) (i : Pk) (s : Machine.State) (c : Core) (k : ℕ), c = s.core ↑x ∧ s.issues (↑x) i { } = true ∧ s.jobRange ↑x = some k ∧ s.issues (↑x) i { d := RegUse.s } = true) ∧
    (∃ (x : Fin 512) (e : ℕ) (s : Machine.State) (c : Core) (k : ℕ) (j : Job) (u : Machine.State), c = s.core ↑x ∧ j = s.job k ∧ u = (s.setCore ↑x { c with wait := Wait.ended }).setJob k { j with energy := j.energy + e } ∧ c.job = some k ∧ c.wait = Wait.jend ∧ j.stopping = false ∧ (∀ n < 16, c.getT n = 0) ∧ (∀ y ∈ j.ranks, y = ↑x ∨ (s.core y).wait = Wait.ended)) ∧
    (∃ (x : Fin 512) (s : Machine.State) (c : Core) (k : ℕ) (j : Job), c = s.core ↑x ∧ j = s.job k ∧ c.job = some k ∧ c.wait = Wait.jend ∧ j.stopping = false ∧ (∀ n < 16, c.getT n = 0) ∧ (∃ y ∈ j.ranks, y ≠ ↑x ∧ (s.core y).wait ≠ Wait.ended)) ∧
    (∃ (x : Fin 512) (i : Pk) (s : Machine.State) (c : Core) (k : ℕ) (j : Job) (b : ℕ), c = s.core ↑x ∧ j = s.job k ∧ (∃ y ∈ j.ranks, ∃ b', (s.core y).wait = Wait.barrier b') ∧ (∀ y ∈ j.ranks, ∀ (b' : ℕ), (s.core y).wait = Wait.barrier b' → b' ≠ b) ∧ s.issues (↑x) i { imm := true } = true ∧ c.job = some k ∧ b = BitVec.toNat i.imm % 4) :=
  ⟨⟨0, regs 0 0 0 0, mon, _, rfl, by decide +kernel⟩,
   ⟨0, regs 0 0 0 0, run, _, 1, _, _, rfl, rfl, rfl, fun y h b' e => of_decide_eq_true (barriers (P := fun b => decide (b = BitVec.toNat (regs 0 0 0 0).imm % 4)) (by decide +kernel) y h b' e), by decide +kernel⟩,
   ⟨0, regs 0 0 0 0, run, _, 0, rfl, by decide +kernel⟩,
   ⟨0, 0, waits .jend .ended, _, 1, _, _, rfl, rfl, rfl, by decide +kernel⟩,
   ⟨0, waits .jend .run, _, 1, _, rfl, rfl, by decide +kernel⟩,
   ⟨0, regs 0 0 0 0, waits .run (.barrier 1), _, 1, _, 0, rfl, rfl, ⟨1, by decide +kernel, 1, by decide +kernel⟩, fun y h b' e => of_decide_eq_true (barriers (P := fun b => decide (b ≠ BitVec.toNat (regs 0 0 0 0).imm % 4)) (by decide +kernel) y h b' e), by decide +kernel⟩⟩

/-- The hypotheses of `Obligations.RankResults` (part 2) are met. -/
theorem witness_RankResults_2 :
    (∃ (x : Fin 512) (i : Pk) (s : Machine.State) (c : Core) (k : ℕ) (j : Job) (b : ℕ), c = s.core ↑x ∧ j = s.job k ∧ b = BitVec.toNat i.imm % 4 ∧ (∀ y ∈ j.ranks, ∀ (b' : ℕ), (s.core y).wait = Wait.barrier b' → b' = b) ∧ s.issues (↑x) i { imm := true } = true ∧ c.job = some k ∧ (↑x ∈ j.ranks) ∧ j.ranks.Nodup ∧ (∀ y ∈ j.ranks, y ≠ ↑x → (s.core y).wait ≠ Wait.run)) ∧
    (∃ (x : Fin 512) (s : Machine.State) (c : Core) (k : ℕ) (j : Job), c = s.core ↑x ∧ j = s.job k ∧ (∀ (o : AtuOp) (q : List AtuOp), c.atuq = o :: q → o.kind ≠ 0 ∨ o.executed = false) ∧ c.job = some k ∧ j.stopping = true ∧ c.wait ≠ Wait.ended ∧ c.movAct = [] ∧ (∃ y ∈ j.ranks, y ≠ ↑x ∧ (s.core y).wait ≠ Wait.ended)) :=
  ⟨⟨0, regs 0 0 0 0, waits .run (.barrier 0), _, 1, _, _, rfl, rfl, rfl, fun y h b' e => of_decide_eq_true (barriers (P := fun b => decide (b = BitVec.toNat (regs 0 0 0 0).imm % 4)) (by decide +kernel) y h b' e), by decide +kernel⟩,
   ⟨0, stopJob (waits .run .run), _, 1, _, rfl, rfl, fun o q h => absurd ((show ((stopJob (waits .run .run)).core ((0 : Fin 512) : Nat)).atuq = [] by decide +kernel).symm.trans h) (by simp), by decide +kernel⟩⟩

/-- The hypotheses of `Obligations.EngineIssue` (part 1) are met. -/
theorem witness_EngineIssue_1 :
    (∃ (x : Fin 512) (i : Pk) (s : Machine.State) (c : Core) (sd : ℕ) (sa : ℕ) (sb : ℕ) (sc : ℕ) (b : List Byte) (d : List Byte) (o : MxeOp), c = s.core ↑x ∧ sd = BitVec.toNat (c.getS ↑i.d) ∧ sa = BitVec.toNat (c.getS ↑i.a) ∧ sb = BitVec.toNat (c.getS ↑i.b) ∧ sc = BitVec.toNat (c.getS ↑i.c) ∧ b = s.stores.rdN (stoKey (↑x) sa) 64 ∧ d = s.stores.rdN (stoKey (↑x) sa) 64 ∧ o = { c with kind := 0, token := ↑i.token, sd := sd, sa := sa, sb := sb, shape := sc, fmtA := i.mod.val, fmtB := ↑i.mod2, flags := i.flags.toNat } ∧ c.getT ↑i.token < 255 ∧ s.issues (↑x) i { d := RegUse.s, a := RegUse.s, b := RegUse.s, c := RegUse.s, mods := [0, 1, 2, 3, 4, 5], mod2s := [0, 1, 2, 3, 4, 5], flags := 3, engine := true } = true ∧ c.mxeq.length < 16 ∧ o.mmaOk = false ∧ s.issues (↑x) i { a := RegUse.s, b := RegUse.s, engine := true } = true ∧ s.issues (↑x) i { d := RegUse.s, a := RegUse.s, b := RegUse.s, flags := 1, engine := true } = true ∧ c.movq.length < 32 ∧ sb ≤ 67108864 ∧ s.issues (↑x) i { d := RegUse.s, a := RegUse.s, b := RegUse.s, c := RegUse.s, flags := 1, engine := true } = true ∧ s.issues (↑x) i { a := RegUse.s, flags := 1, engine := true } = true ∧ sa + 64 ≤ storeTop ∧ s.storeProtected (↑x) sa 64 false = false ∧ ((s.stores.poisoned (stoKey (↑x) sa) 64 && c.job.isSome) = false) ∧ mvxOk false d = true ∧ mvxOk true d = true ∧ mvsOk d = false ∧ c.atuq.length < 8 ∧ i.b = 0 ∧ i.c = 0 ∧ s.issues (↑x) i { d := RegUse.v, a := RegUse.s, b := RegUse.v, c := RegUse.v, engine := true } = true ∧ i.d = 0 ∧ attnOk b = false) ∧
    (∃ (x : Fin 512) (i : Pk) (s : Machine.State) (c : Core), c = s.core ↑x ∧ s.issues (↑x) i { a := RegUse.s, b := RegUse.s, engine := true } = true ∧ (16 ≤ c.mxeq.length ∨ 255 ≤ c.getT ↑i.token) ∧ s.issues (↑x) i { d := RegUse.s, a := RegUse.s, b := RegUse.s, c := RegUse.s, mods := [0, 1, 2, 3, 4, 5], mod2s := [0, 1, 2, 3, 4, 5], flags := 3, engine := true } = true) ∧
    (∃ (x : Fin 512) (i : Pk) (s : Machine.State) (c : Core) (sd : ℕ) (sa : ℕ) (sb : ℕ) (sc : ℕ) (b : List Byte), c = s.core ↑x ∧ sd = BitVec.toNat (c.getS ↑i.d) ∧ sa = BitVec.toNat (c.getS ↑i.a) ∧ sb = BitVec.toNat (c.getS ↑i.b) ∧ sc = BitVec.toNat (c.getS ↑i.c) ∧ b = s.stores.rdN (stoKey (↑x) sa) 64 ∧ c.getT ↑i.token < 255 ∧ c.atuq.length < 8 ∧ i.b = 0 ∧ i.c = 0 ∧ s.issues (↑x) i { d := RegUse.s, a := RegUse.s, b := RegUse.v, c := RegUse.v, engine := true } = true ∧ s.storeProtected (↑x) sa 64 false = false ∧ s.storeProtected (↑x) sa 32 false = false ∧ ((s.stores.poisoned (stoKey (↑x) sa) 64 && c.job.isSome) = false) ∧ ((s.stores.poisoned (stoKey (↑x) sa) 32 && c.job.isSome) = false) ∧ sa + 64 ≤ storeTop ∧ kvappOk b = true ∧ recOk sd 16 = true) ∧
    (∃ (x : Fin 512) (i : Pk) (s : Machine.State) (c : Core) (sd : ℕ) (sa : ℕ) (sb : ℕ) (sc : ℕ) (b : List Byte), c = s.core ↑x ∧ sd = BitVec.toNat (c.getS ↑i.d) ∧ sa = BitVec.toNat (c.getS ↑i.a) ∧ sb = BitVec.toNat (c.getS ↑i.b) ∧ sc = BitVec.toNat (c.getS ↑i.c) ∧ b = s.stores.rdN (stoKey (↑x) sa) 32 ∧ c.getT ↑i.token < 255 ∧ c.atuq.length < 8 ∧ i.b = 0 ∧ i.c = 0 ∧ s.issues (↑x) i { d := RegUse.s, a := RegUse.s, b := RegUse.v, c := RegUse.v, engine := true } = true ∧ s.storeProtected (↑x) sa 64 false = false ∧ s.storeProtected (↑x) sa 32 false = false ∧ ((s.stores.poisoned (stoKey (↑x) sa) 64 && c.job.isSome) = false) ∧ ((s.stores.poisoned (stoKey (↑x) sa) 32 && c.job.isSome) = false) ∧ sa + 32 ≤ storeTop ∧ kvopOk b = true ∧ (recOk sd (if dNum b 0 1 = 7 then 48 else 16) = true)) ∧
    (∃ (x : Fin 512) (i : Pk) (s : Machine.State) (c : Core) (sd : ℕ) (sa : ℕ) (sb : ℕ) (sc : ℕ) (d : List Byte), c = s.core ↑x ∧ sd = BitVec.toNat (c.getS ↑i.d) ∧ sa = BitVec.toNat (c.getS ↑i.a) ∧ sb = BitVec.toNat (c.getS ↑i.b) ∧ sc = BitVec.toNat (c.getS ↑i.c) ∧ d = s.stores.rdN (stoKey (↑x) sa) 64 ∧ c.getT ↑i.token < 255 ∧ s.issues (↑x) i { a := RegUse.s, flags := 1, engine := true } = true ∧ c.movq.length < 32 ∧ sa + 64 ≤ storeTop ∧ s.storeProtected (↑x) sa 64 false = false ∧ ((s.stores.poisoned (stoKey (↑x) sa) 64 && c.job.isSome) = false) ∧ mvsOk d = true) ∧
    (∃ (x : Fin 512) (i : Pk) (s : Machine.State) (c : Core) (sd : ℕ) (sa : ℕ) (sb : ℕ) (sc : ℕ) (b : List Byte), c = s.core ↑x ∧ sd = BitVec.toNat (c.getS ↑i.d) ∧ sa = BitVec.toNat (c.getS ↑i.a) ∧ sb = BitVec.toNat (c.getS ↑i.b) ∧ sc = BitVec.toNat (c.getS ↑i.c) ∧ b = s.stores.rdN (stoKey (↑x) sa) 64 ∧ c.getT ↑i.token < 255 ∧ c.atuq.length < 8 ∧ i.b = 0 ∧ i.c = 0 ∧ s.issues (↑x) i { d := RegUse.v, a := RegUse.s, b := RegUse.v, c := RegUse.v, engine := true } = true ∧ i.d = 0 ∧ sa + 64 ≤ storeTop ∧ s.storeProtected (↑x) sa 64 false = false ∧ ((s.stores.poisoned (stoKey (↑x) sa) 64 && c.job.isSome) = false) ∧ attnOk b = true) :=
  ⟨⟨0, eng 0 2 0 0 5, monE coreE mvxB, _, _, _, _, _, _, _, _, rfl, rfl, rfl, rfl, rfl, rfl, rfl, rfl, by decide +kernel⟩,
   ⟨0, eng 0 2 3 0 5, monC mxeFull, _, rfl, by decide +kernel⟩,
   ⟨0, eng 2 2 0 0 5, monE coreE kvappB, _, _, _, _, _, _, rfl, rfl, rfl, rfl, rfl, rfl, by decide +kernel⟩,
   ⟨0, eng 2 2 0 0 5, monE coreE (kvopB 7), _, _, _, _, _, _, rfl, rfl, rfl, rfl, rfl, rfl, by decide +kernel⟩,
   ⟨0, eng 0 2 0 0 5, monE coreE mvsB, _, _, _, _, _, _, rfl, rfl, rfl, rfl, rfl, rfl, by decide +kernel⟩,
   ⟨0, eng 0 2 0 0 5, monE coreE attnB, _, _, _, _, _, _, rfl, rfl, rfl, rfl, rfl, rfl, by decide +kernel⟩⟩

/-- The hypotheses of `Obligations.EngineIssue` (part 2) are met. -/
theorem witness_EngineIssue_2 :
    (∃ (x : Fin 512) (i : Pk) (s : Machine.State) (c : Core) (sd : ℕ) (sa : ℕ) (sb : ℕ) (sc : ℕ) (o : MxeOp), c = s.core ↑x ∧ sd = BitVec.toNat (c.getS ↑i.d) ∧ sa = BitVec.toNat (c.getS ↑i.a) ∧ sb = BitVec.toNat (c.getS ↑i.b) ∧ sc = BitVec.toNat (c.getS ↑i.c) ∧ o = { c with kind := 0, token := ↑i.token, sd := sd, sa := sa, sb := sb, shape := sc, fmtA := i.mod.val, fmtB := ↑i.mod2, flags := i.flags.toNat } ∧ c.getT ↑i.token < 255 ∧ s.issues (↑x) i { d := RegUse.s, a := RegUse.s, b := RegUse.s, c := RegUse.s, mods := [0, 1, 2, 3, 4, 5], mod2s := [0, 1, 2, 3, 4, 5], flags := 3, engine := true } = true ∧ c.mxeq.length < 16 ∧ o.mmaOk = true ∧ (∀ r ∈ o.reads, s.mxProtected (↑x) r.1 r.2 false = false)) ∧
    (∃ (x : Fin 512) (i : Pk) (s : Machine.State) (c : Core) (sd : ℕ) (sa : ℕ) (sb : ℕ) (sc : ℕ) (o : MxeOp), c = s.core ↑x ∧ sd = BitVec.toNat (c.getS ↑i.d) ∧ sa = BitVec.toNat (c.getS ↑i.a) ∧ sb = BitVec.toNat (c.getS ↑i.b) ∧ sc = BitVec.toNat (c.getS ↑i.c) ∧ o = { kind := 2, token := ↑i.token, pc := c.pc, sd := sd, sa := sa, sb := sb, shape := sc, fmtA := i.mod.val, fmtB := 0, flags := i.flags.toNat, sclA := 0, sclB := 0 } ∧ c.getT ↑i.token < 255 ∧ s.issues (↑x) i { d := RegUse.s, a := RegUse.s, b := RegUse.s, c := RegUse.s, mods := [0, 1, 2, 3, 4, 5, 6], flags := 3, engine := true } = true ∧ c.mxeq.length < 16 ∧ o.mcvtOk = false) ∧
    (∃ (x : Fin 512) (i : Pk) (s : Machine.State) (c : Core) (sd : ℕ) (sa : ℕ) (sb : ℕ) (sc : ℕ) (o : MxeOp), c = s.core ↑x ∧ sd = BitVec.toNat (c.getS ↑i.d) ∧ sa = BitVec.toNat (c.getS ↑i.a) ∧ sb = BitVec.toNat (c.getS ↑i.b) ∧ sc = BitVec.toNat (c.getS ↑i.c) ∧ o = { kind := 2, token := ↑i.token, pc := c.pc, sd := sd, sa := sa, sb := sb, shape := sc, fmtA := i.mod.val, fmtB := 0, flags := i.flags.toNat, sclA := 0, sclB := 0 } ∧ c.getT ↑i.token < 255 ∧ s.issues (↑x) i { d := RegUse.s, a := RegUse.s, b := RegUse.s, c := RegUse.s, mods := [0, 1, 2, 3, 4, 5, 6], flags := 3, engine := true } = true ∧ c.mxeq.length < 16 ∧ o.mcvtOk = true ∧ (∀ r ∈ o.mcvtOps, mcvtPlace r.1 r.2.1 r.2.2.2 = none ∧ s.mxProtected (↑x) r.1 r.2.1 r.2.2.1 = false)) ∧
    (∃ (x : Fin 512) (i : Pk) (s : Machine.State) (c : Core) (sd : ℕ) (sa : ℕ) (sb : ℕ) (sc : ℕ), c = s.core ↑x ∧ sd = BitVec.toNat (c.getS ↑i.d) ∧ sa = BitVec.toNat (c.getS ↑i.a) ∧ sb = BitVec.toNat (c.getS ↑i.b) ∧ sc = BitVec.toNat (c.getS ↑i.c) ∧ c.getT ↑i.token < 255 ∧ s.issues (↑x) i { d := RegUse.s, a := RegUse.s, b := RegUse.s, flags := 1, engine := true } = true ∧ c.movq.length < 32 ∧ 67108864 < sb) ∧
    (∃ (x : Fin 512) (i : Pk) (s : Machine.State) (c : Core), c = s.core ↑x ∧ s.issues (↑x) i { d := RegUse.s, a := RegUse.s, b := RegUse.s, flags := 1, engine := true } = true ∧ (32 ≤ c.movq.length ∨ 255 ≤ c.getT ↑i.token)) ∧
    (∃ (x : Fin 512) (i : Pk) (s : Machine.State) (c : Core), c = s.core ↑x ∧ s.issues (↑x) i { d := RegUse.v, a := RegUse.s, b := RegUse.v, c := RegUse.v, engine := true } = true ∧ (8 ≤ c.atuq.length ∨ 255 ≤ c.getT ↑i.token)) :=
  ⟨⟨0, eng 1 2 3 4 5 0 0 1, monE coreE [], _, _, _, _, _, _, rfl, rfl, rfl, rfl, rfl, rfl, by decide +kernel⟩,
   ⟨0, eng 1 2 3 4 5 0 0 1, monE coreE [], _, _, _, _, _, _, rfl, rfl, rfl, rfl, rfl, rfl, by decide +kernel⟩,
   ⟨0, eng 2 1 0 4 5, monE coreE [], _, _, _, _, _, _, rfl, rfl, rfl, rfl, rfl, rfl, by decide +kernel⟩,
   ⟨0, eng 1 2 5 0 5, monE coreE [], _, _, _, _, _, rfl, rfl, rfl, rfl, rfl, by decide +kernel⟩,
   ⟨0, eng 0 2 3 0 5, monC movFull, _, rfl, by decide +kernel⟩,
   ⟨0, eng 0 2 3 0 5, monC atuFull, _, rfl, by decide +kernel⟩⟩

/-- The hypotheses of `Obligations.EngineCompletionResults` (part 1) are met. -/
theorem witness_EngineCompletionResults_1 :
    (∃ (x : Fin 512) (s : Machine.State) (c : Core) (k : Fin 4) (o : MovOp) (q : List MovOp), c = s.core ↑x ∧ s.enginesRun ↑x = true ∧ c.mxeq = [] ∧ c.movAct.length < 4 ∧ c.movq = o :: q ∧ (bitOf o.flags 0 = false ∨ c.movAct = []) ∧ (((List.range 8).any fun u => s.routeHeld (↑x / 64) u && s.movTouches (↑x) o u) = false) ∧ c.movAct[↑k]? = none) ∧
    (∃ (x : Fin 512) (s : Machine.State) (c : Core) (k : Fin 4) (o : MovOp), c = s.core ↑x ∧ s.enginesRun ↑x = true ∧ c.movAct[↑k]? = some o ∧ o.kind = 0 ∧ 0 < o.sb ∧ o.sa % 64 + o.sb ≤ 64 ∧ o.sd % 64 + o.sb ≤ 64 ∧ o.sa + o.sb ≤ storeTop ∧ o.sd + o.sb ≤ storeTop ∧ (o.sa + o.sb ≤ o.sd ∨ o.sd + o.sb ≤ o.sa) ∧ s.movFault (↑x) o.sa o.sb 1 false = none ∧ s.movFault (↑x) o.sd o.sb 1 true = none) ∧
    (∃ (x : Fin 512) (s : Machine.State) (c : Core) (o : MxeOp) (q : List MxeOp) (c' : Core), c = s.core ↑x ∧ c' = { c with mxeq := q }.setT o.token (c.getT o.token - 1) ∧ s.enginesRun ↑x = true ∧ c.mxeq = o :: q ∧ (∀ r ∈ o.sources, s.stores.firstPoison (stoKey (↑x) r.1) r.2 = none) ∧ o.kind = 2 ∧ bitOf o.flags 0 = false) ∧
    (∃ (x : Fin 512) (s : Machine.State) (c : Core) (o : MovOp) (q : List MovOp), c = s.core ↑x ∧ s.enginesRun ↑x = true ∧ c.movAct.length < 4 ∧ c.movq = o :: q ∧ bitOf o.flags 0 = true ∧ c.movAct ≠ []) ∧
    (∃ (x : Fin 512) (s : Machine.State) (c : Core) (o : MxeOp) (q : List MxeOp) (c' : Core), c = s.core ↑x ∧ c' = { c with mxeq := q }.setT o.token (c.getT o.token - 1) ∧ s.enginesRun ↑x = true ∧ c.mxeq = o :: q ∧ (∀ r ∈ o.sources, s.stores.firstPoison (stoKey (↑x) r.1) r.2 = none) ∧ o.kind = 0) ∧
    (∃ (x : Fin 512) (s : Machine.State) (c : Core) (o : MxeOp) (q : List MxeOp) (c' : Core), c = s.core ↑x ∧ c' = { c with mxeq := q }.setT o.token (c.getT o.token - 1) ∧ s.enginesRun ↑x = true ∧ c.mxeq = o :: q ∧ (∀ r ∈ o.sources, s.stores.firstPoison (stoKey (↑x) r.1) r.2 = none) ∧ o.kind = 1) :=
  ⟨⟨0, movHead (movOp 1) [], _, 0, { kind := 0, token := 2, pc := 0, sd := 786496, sa := 524288, sb := 4, sc := 0, desc := [], flags := 1 }, [], rfl, by decide +kernel⟩,
   ⟨0, movHead (movOp 1) [movOp 0], _, 0, { kind := 0, token := 2, pc := 0, sd := 786496, sa := 524288, sb := 4, sc := 0, desc := [], flags := 0 }, rfl, by decide +kernel⟩,
   ⟨0, mxHead ⟨2, 3, 0, 0x80000, 0xC0000, 0, 0x201010, 0, 0, 0, 0, 0⟩, _, { kind := 2, token := 3, pc := 0, sd := 524288, sa := 786432, sb := 0, shape := 2101264, fmtA := 0, fmtB := 0, flags := 0, sclA := 0, sclB := 0 }, [], _, rfl, rfl, by decide +kernel⟩,
   ⟨0, movHead (movOp 1) [movOp 0], _, { kind := 0, token := 2, pc := 0, sd := 786496, sa := 524288, sb := 4, sc := 0, desc := [], flags := 1 }, [], rfl, by decide +kernel⟩,
   ⟨0, mxHead ⟨0, 3, 0, 0xC0000, 0x80000, 0x2000, 0x201010, 0, 0, 1, 0, 0⟩, _, { kind := 0, token := 3, pc := 0, sd := 786432, sa := 524288, sb := 8192, shape := 2101264, fmtA := 0, fmtB := 0, flags := 1, sclA := 0, sclB := 0 }, [], _, rfl, rfl, by decide +kernel⟩,
   ⟨0, mxHead ⟨1, 3, 0, 0, 0, 0, 0, 0, 0, 0, 0, 0⟩, _, { kind := 1, token := 3, pc := 0, sd := 0, sa := 0, sb := 0, shape := 0, fmtA := 0, fmtB := 0, flags := 0, sclA := 0, sclB := 0 }, [], _, rfl, rfl, by decide +kernel⟩⟩

/-- The hypotheses of `Obligations.EngineCompletionResults` (part 2) are met. -/
theorem witness_EngineCompletionResults_2 :
    (∃ (x : Fin 512) (s : Machine.State) (c : Core), c = s.core ↑x ∧ s.enginesRun ↑x = true ∧ 4 ≤ c.movAct.length) ∧
    (∃ (x : Fin 512) (s : Machine.State) (c : Core) (o : MovOp) (q : List MovOp), c = s.core ↑x ∧ s.enginesRun ↑x = true ∧ c.movAct.length < 4 ∧ c.movq = o :: q ∧ (∃ u < 8, s.routeHeld (↑x / 64) u = true ∧ s.movTouches (↑x) o u = true)) :=
  ⟨⟨0, movHead (movOp 0) (List.replicate 4 (movOp 0)), _, rfl, by decide +kernel⟩,
   ⟨0, movHeld, _, movOpP, [], rfl, by decide +kernel⟩⟩

/-- The hypotheses of `Obligations.KvopResults` (part 1) are met. -/
theorem witness_KvopResults_1 :
    (∃ (x : Fin 512) (s : Machine.State) (o : AtuOp) (p : ℕ) (n : ℕ) (ep : ℕ) (v : ℕ) (b : List Byte) (k : ℕ) (d : KvDesc), b = o.blk ∧ k = dNum b 24 4 ∧ s.atuHead (↑x) 2 = some o ∧ s.jobPlace ↑x = some (p, n, ep) ∧ v = dNum b 4 4 ∧ dNum b 0 1 = 7 ∧ s.kvNamed p k n 6 = Except.ok d) ∧
    (∃ (x : Fin 512) (s : Machine.State) (o : AtuOp) (p : ℕ) (n : ℕ) (ep : ℕ) (v : ℕ) (b : List Byte), b = o.blk ∧ s.atuHead (↑x) 2 = some o ∧ s.jobPlace ↑x = some (p, n, ep) ∧ v = dNum b 4 4 ∧ dNum b 0 1 = 1) ∧
    (∃ (x : Fin 512) (s : Machine.State) (o : AtuOp) (p : ℕ) (n : ℕ) (ep : ℕ) (v : ℕ) (b : List Byte), b = o.blk ∧ s.atuHead (↑x) 2 = some o ∧ s.jobPlace ↑x = some (p, n, ep) ∧ v = dNum b 4 4 ∧ dNum b 0 1 = 2) ∧
    (∃ (x : Fin 512) (s : Machine.State) (o : AtuOp) (p : ℕ) (n : ℕ) (ep : ℕ) (v : ℕ) (b : List Byte), b = o.blk ∧ s.atuHead (↑x) 2 = some o ∧ s.jobPlace ↑x = some (p, n, ep) ∧ v = dNum b 4 4 ∧ dNum b 0 1 = 3) ∧
    (∃ (x : Fin 512) (s : Machine.State) (o : AtuOp) (p : ℕ) (n : ℕ) (ep : ℕ) (v : ℕ) (b : List Byte), b = o.blk ∧ s.atuHead (↑x) 2 = some o ∧ s.jobPlace ↑x = some (p, n, ep) ∧ v = dNum b 4 4 ∧ dNum b 0 1 = 4) ∧
    (∃ (x : Fin 512) (s : Machine.State) (o : AtuOp) (p : ℕ) (n : ℕ) (ep : ℕ) (v : ℕ) (b : List Byte), b = o.blk ∧ s.atuHead (↑x) 2 = some o ∧ s.jobPlace ↑x = some (p, n, ep) ∧ v = dNum b 4 4 ∧ dNum b 0 1 = 5) :=
  ⟨⟨0, kvS 1 [1,2,3] 2 (opB 7), (((kvS 1 [1, 2, 3] 2 (opB 7)).atuHead (↑0) 2).get (by decide +kernel)), 0, 1, 1, 1, _, _, { frame := 32768, rc := 1, epoch := 1, vt := 1, fmt := 0, owner := 1, flags := 1, next := 0, opseq := 0 }, rfl, rfl, by decide +kernel⟩,
   ⟨0, kvS 1 [1,2,3] 2 (opB 1), (((kvS 1 [1, 2, 3] 2 (opB 1)).atuHead (↑0) 2).get (by decide +kernel)), 0, 1, 1, 1, _, rfl, by decide +kernel⟩,
   ⟨0, kvS 1 [1,2,3] 2 (opB 2), (((kvS 1 [1, 2, 3] 2 (opB 2)).atuHead (↑0) 2).get (by decide +kernel)), 0, 1, 1, 1, _, rfl, by decide +kernel⟩,
   ⟨0, kvS 2 [1,2,3] 2 (opB 3), (((kvS 2 [1, 2, 3] 2 (opB 3)).atuHead (↑0) 2).get (by decide +kernel)), 0, 1, 1, 1, _, rfl, by decide +kernel⟩,
   ⟨0, kvS 1 [1,2,3] 2 (opB 4), (((kvS 1 [1, 2, 3] 2 (opB 4)).atuHead (↑0) 2).get (by decide +kernel)), 0, 1, 1, 1, _, rfl, by decide +kernel⟩,
   ⟨0, kvS 1 [1,2,3] 2 (opB 5), (((kvS 1 [1, 2, 3] 2 (opB 5)).atuHead (↑0) 2).get (by decide +kernel)), 0, 1, 1, 1, _, rfl, by decide +kernel⟩⟩

/-- The hypotheses of `Obligations.KvopResults` (part 2) are met. -/
theorem witness_KvopResults_2 :
    ∃ (x : Fin 512) (s : Machine.State) (o : AtuOp) (p : ℕ) (n : ℕ) (ep : ℕ) (v : ℕ) (b : List Byte), b = o.blk ∧ s.atuHead (↑x) 2 = some o ∧ s.jobPlace ↑x = some (p, n, ep) ∧ v = dNum b 4 4 ∧ dNum b 0 1 = 6 :=
  ⟨0, kvS 1 [1,2,3] 2 (opB 6), (((kvS 1 [1, 2, 3] 2 (opB 6)).atuHead (↑0) 2).get (by decide +kernel)), 0, 1, 1, 1, _, rfl, by decide +kernel⟩

/-- The hypotheses of `Obligations.KvPageOperations` (part 1) are met. -/
theorem witness_KvPageOperations_1 :
    (∃ (s : Machine.State) (p : ℕ) (n : ℕ) (ep : ℕ) (v : ℕ) (fmt : ℕ) (k : ℕ) (d : KvDesc), ep = s.epoch n ∧ s.poolState p = 2 ∧ seqAbove v (s.kvWin n).h = true ∧ (s.kvPool p).fits fmt = false ∧ s.kvNamed p k n 8 = Except.ok d ∧ d.rc < 65535 ∧ d.rc = 1) ∧
    (∃ (s : Machine.State) (p : ℕ) (n : ℕ) (ep : ℕ) (k : ℕ) (d : KvDesc), ep ≠ s.epoch n ∧ s.kvNamed p k n 8 = Except.ok d ∧ 65535 ≤ d.rc ∧ 2 ≤ d.rc) ∧
    (∃ (s : Machine.State) (p : ℕ) (n : ℕ) (ep : ℕ) (v : ℕ) (fmt : ℕ) (h : ℕ) (r : List ℕ) (d : KvDesc), ep = s.epoch n ∧ s.poolState p = 2 ∧ seqAbove v (s.kvWin n).h = false ∧ 64 ≤ seqDist (s.kvWin n).h v ∧ (s.kvPool p).fits fmt = true ∧ s.kvFreeList p = h :: r ∧ s.kvUsed n < s.fld (P.ten n 9) F.KPM_TQ_LIMIT_limit ∧ s.kvDesc p h = Except.ok d) ∧
    (∃ (s : Machine.State) (p : ℕ) (n : ℕ) (ep : ℕ) (v : ℕ) (r : ℕ), ep = s.epoch n ∧ s.poolState p = 2 ∧ seqAbove v (s.kvWin n).h = false ∧ seqDist (s.kvWin n).h v < 64 ∧ (List.find? (fun e => e.1 == v) (s.kvWin n).done = some (v, r))) ∧
    (∃ (s : Machine.State) (p : ℕ) (n : ℕ) (fmt : ℕ) (h : ℕ) (r : List ℕ), (s.kvPool p).fits fmt = true ∧ s.kvFreeList p = h :: r ∧ s.fld (P.ten n 9) F.KPM_TQ_LIMIT_limit ≤ s.kvUsed n) ∧
    (∃ (s : Machine.State) (p : ℕ) (n : ℕ) (ep : ℕ), ep = s.epoch n ∧ s.poolState p ≠ 2) :=
  ⟨⟨kvS 1 [1,2,3] 2 (opB 1), 0, 1, 1, 1, 3, 0, { frame := 32768, rc := 1, epoch := 1, vt := 1, fmt := 0, owner := 1, flags := 1, next := 0, opseq := 0 }, by decide +kernel⟩,
   ⟨kvS 65535 [1] 2 (opB 1), 0, 1, 0, 0, { frame := 32768, rc := 65535, epoch := 1, vt := 1, fmt := 0, owner := 1, flags := 1, next := 0, opseq := 0 }, by decide +kernel⟩,
   ⟨kvS 1 [1,2,3] 2 (opB 1), 0, 1, 1, 4294967200, 0, 1, [2, 3], { frame := 0, rc := 0, epoch := 0, vt := 0, fmt := 0, owner := 0, flags := 0, next := 0, opseq := 0 }, by decide +kernel⟩,
   ⟨kvW (kvS 1 [1,2,3] 2 (opB 1)), 0, 1, 1, 5, 2, by decide +kernel⟩,
   ⟨kvQ (kvS 1 [1] 2 (opB 1)), 0, 1, 0, 1, [], by decide +kernel⟩,
   ⟨kvoff (kvS 1 [1,2,3] 2 (opB 1)), 0, 1, 1, by decide +kernel⟩⟩

/-- The hypotheses of `Obligations.KvPageOperations` (part 2) are met. -/
theorem witness_KvPageOperations_2 :
    (∃ (s : Machine.State) (p : ℕ) (fmt : ℕ), (s.kvPool p).fits fmt = true ∧ s.kvFreeList p = []) ∧
    (∃ (s : Machine.State) (p : ℕ) (n : ℕ) (k : ℕ) (d : KvDesc), s.kvNamed p k n 8 = Except.ok d ∧ d.rc = 0) :=
  ⟨⟨kvS 1 [] 2 (opB 1), 0, 0, by decide +kernel⟩,
   ⟨kvS 0 [1] 2 (opB 1), 0, 1, 0, { frame := 32768, rc := 0, epoch := 1, vt := 1, fmt := 0, owner := 1, flags := 1, next := 0, opseq := 0 }, by decide +kernel⟩⟩

/-- The hypotheses of `Obligations.AttentionResults` (part 1) are met. -/
theorem witness_AttentionResults_1 :
    (∃ (x : Fin 512) (s : Machine.State) (o : AtuOp) (p : ℕ) (n : ℕ) (ep : ℕ) (b : List Byte) (c : Core) (q : List AtuOp) (v : ℕ) (fmt : ℕ) (pos : ℕ) (cnt : ℕ) (sf : ℕ) (idxs : List ℕ) (refs : List KvRef) (u : Machine.State) (len : ℕ) (ks : List Fp) (vs : List Fp) (k : ℕ) (d : KvDesc) (r : KvRef) (m : ℕ) (w : Machine.State) (e : KvDesc), b = o.blk ∧ c = s.core ↑x ∧ v = dNum b 24 4 ∧ cnt = dNum b 12 2 ∧ (idxs = List.map (fun x => pos / 64 + x) (List.range ((pos + cnt - 1) / 64 - pos / 64 + 1))) ∧ len = cnt * (s.kvPool p).d ∧ ks = u.aElems (↑x) (dNum b 16 4) sf len ∧ vs = u.aElems (↑x) (dNum b 20 4) sf len ∧ w = u.kvStore p k m fmt pos cnt ks vs ∧ (∀ r ∈ refs, ∃ k d, r.page = some (k, d) ∧ d.fmt = fmt ∧ d.rc ≤ 1 ∧ u.kvPageGone (↑x) p k fmt = none) ∧ s.jobPlace ↑x = some (p, n, ep) ∧ s.atuHead (↑x) 1 = some o ∧ fmt = dNum b 15 1 ∧ pos = dNum b 8 4 ∧ sf = dNum b 14 1 ∧ s.poolState p = 2 ∧ kvDim (dNum b 28 1) = (s.kvPool p).d ∧ (s.kvPool p).fits fmt = true ∧ s.kvTranslateAll (↑x / 8) p n (dNum b 0 8) idxs = (Except.ok refs, u) ∧ u.stores.firstPoison (stoKey (↑x) (524288 + dNum b 16 4)) (len * srcBytes sf) = none ∧ u.stores.firstPoison (stoKey (↑x) (524288 + dNum b 20 4)) (len * srcBytes sf) = none ∧ (∀ e ∈ ks ++ vs, e.isNan = false ∧ e.isInf = false) ∧ refs = [r] ∧ r = { idx := m, page := some (k, d) } ∧ w.kvDesc p k = Except.ok e ∧ s.enginesRun ↑x = true ∧ c.atuq = o :: q ∧ o.executed = false) ∧
    (∃ (x : Fin 512) (s : Machine.State) (o : AtuOp) (p : ℕ) (n : ℕ) (ep : ℕ) (b : List Byte) (v : ℕ) (fmt : ℕ) (pos : ℕ) (cnt : ℕ) (sf : ℕ) (idxs : List ℕ) (e : KvErr) (u : Machine.State), b = o.blk ∧ cnt = dNum b 12 2 ∧ (idxs = List.map (fun x => pos / 64 + x) (List.range ((pos + cnt - 1) / 64 - pos / 64 + 1))) ∧ s.jobPlace ↑x = some (p, n, ep) ∧ s.atuHead (↑x) 1 = some o ∧ v = dNum b 24 4 ∧ fmt = dNum b 15 1 ∧ pos = dNum b 8 4 ∧ sf = dNum b 14 1 ∧ s.poolState p = 2 ∧ kvDim (dNum b 28 1) = (s.kvPool p).d ∧ (s.kvPool p).fits fmt = true ∧ s.kvTranslateAll (↑x / 8) p n (dNum b 0 8) idxs = (Except.error e, u)) ∧
    (∃ (x : Fin 512) (s : Machine.State) (o : AtuOp) (p : ℕ) (n : ℕ) (ep : ℕ) (b : List Byte) (v : ℕ) (fmt : ℕ) (pos : ℕ) (cnt : ℕ) (sf : ℕ), b = o.blk ∧ v = dNum b 24 4 ∧ cnt = dNum b 12 2 ∧ s.jobPlace ↑x = some (p, n, ep) ∧ s.atuHead (↑x) 1 = some o ∧ fmt = dNum b 15 1 ∧ pos = dNum b 8 4 ∧ sf = dNum b 14 1 ∧ s.poolState p = 2 ∧ (kvDim (dNum b 28 1) ≠ (s.kvPool p).d ∨ (s.kvPool p).fits fmt = false)) ∧
    (∃ (x : Fin 512) (s : Machine.State) (o : AtuOp) (p : ℕ) (n : ℕ) (ep : ℕ) (b : List Byte) (c : Core) (q : List AtuOp), b = o.blk ∧ c = s.core ↑x ∧ s.jobPlace ↑x = some (p, n, ep) ∧ s.enginesRun ↑x = true ∧ c.atuq = o :: q ∧ o.executed = true ∧ o.kind ≠ 0) ∧
    (∃ (x : Fin 512) (s : Machine.State) (o : AtuOp) (p : ℕ) (n : ℕ) (ep : ℕ) (b : List Byte) (v : ℕ) (fmt : ℕ) (pos : ℕ) (cnt : ℕ) (sf : ℕ), b = o.blk ∧ v = dNum b 24 4 ∧ fmt = dNum b 15 1 ∧ pos = dNum b 8 4 ∧ cnt = dNum b 12 2 ∧ sf = dNum b 14 1 ∧ s.jobPlace ↑x = some (p, n, ep) ∧ s.atuHead (↑x) 1 = some o ∧ s.poolState p ≠ 2) ∧
    (∃ (x : Fin 512) (s : Machine.State) (o : AtuOp) (p : ℕ) (n : ℕ) (ep : ℕ) (b : List Byte) (u : Machine.State), b = o.blk ∧ u = { s with atuLast := Tab.set nat0 s.atuLast (↑x / 8) (↑x % 8) } ∧ s.jobPlace ↑x = some (p, n, ep) ∧ s.atuHead (↑x) 0 = some o ∧ s.attnNext (↑x / 8) = some ↑x ∧ s.poolState p ≠ 2) :=
  ⟨⟨0, kvS 1 [1,2,3] 1 (appB 0 0), (((kvS 1 [1, 2, 3] 1 (appB 0 0)).atuHead (↑0) 1).get (by decide +kernel)), 0, 1, 1, _, _, [], _, 0, 0, _, 0, _, [{ idx := 0, page := some (0, { frame := 32768, rc := 1, epoch := 1, vt := 1, fmt := 0, owner := 1, flags := 1, next := 0, opseq := 0 }) }], ((kvS 1 [1, 2, 3] 1 (appB 0 0)).kvTranslateAll (↑0 / 8) 0 1 (dNum (((kvS 1 [1, 2, 3] 1 (appB 0 0)).atuHead (↑0) 1).get (by decide +kernel)).blk 0 8) (List.map (fun x => 0 / 64 + x) (List.range ((0 + 1 - 1) / 64 - 0 / 64 + 1)))).2, _, _, _, 0, ⟨0x8000, 1, 1, 1, 0, 1, 1, 0, 0⟩, { idx := 0, page := some (0, { frame := 32768, rc := 1, epoch := 1, vt := 1, fmt := 0, owner := 1, flags := 1, next := 0, opseq := 0 }) }, 0, _, { frame := 32768, rc := 1, epoch := 1, vt := 1, fmt := 0, owner := 1, flags := 1, next := 0, opseq := 0 }, rfl, rfl, rfl, rfl, rfl, rfl, rfl, rfl, rfl, List.forall_mem_singleton.2 ⟨0, ⟨0x8000, 1, 1, 1, 0, 1, 1, 0, 0⟩, rfl, by decide +kernel⟩, by decide +kernel⟩,
   ⟨0, kvS 1 [1,2,3] 1 (blk 64 [(0xC, 1)]), (((kvS 1 [1, 2, 3] 1 (blk 64 [(12, 1)])).atuHead (↑0) 1).get (by decide +kernel)), 0, 1, 1, _, 0, 0, 0, _, 0, _, { st := 9, quar := none, off := 0 }, ((kvS 1 [1, 2, 3] 1 (blk 64 [(12, 1)])).kvTranslateAll (↑0 / 8) 0 1 (dNum (((kvS 1 [1, 2, 3] 1 (blk 64 [(12, 1)])).atuHead (↑0) 1).get (by decide +kernel)).blk 0 8) (List.map (fun x => 0 / 64 + x) (List.range ((0 + 1 - 1) / 64 - 0 / 64 + 1)))).2, rfl, rfl, rfl, by decide +kernel⟩,
   ⟨0, kvS 1 [1,2,3] 1 (appB 1 0), (((kvS 1 [1, 2, 3] 1 (appB 1 0)).atuHead (↑0) 1).get (by decide +kernel)), 0, 1, 1, _, _, 0, 0, _, 0, rfl, rfl, rfl, by decide +kernel⟩,
   ⟨0, ranQ, ⟨2, 3, 0x1000, opB 1, 0x80100, true⟩, 0, 1, 1, _, _, [], rfl, rfl, by decide +kernel⟩,
   ⟨0, kvoff (kvS 1 [1,2,3] 1 (appB 0 0)), (((kvoff (kvS 1 [1, 2, 3] 1 (appB 0 0))).atuHead (↑0) 1).get (by decide +kernel)), 0, 1, 1, _, _, _, _, _, _, rfl, rfl, rfl, rfl, rfl, rfl, by decide +kernel⟩,
   ⟨0, kvoff (kvS 1 [1,2,3] 0 attB), (((kvoff (kvS 1 [1, 2, 3] 0 attB)).atuHead (↑0) 0).get (by decide +kernel)), 0, 1, 1, _, _, rfl, rfl, by decide +kernel⟩⟩

/-- The hypotheses of `Obligations.AttentionResults` (part 2) are met. -/
theorem witness_AttentionResults_2 :
    ∃ (x : Fin 512) (s : Machine.State) (o : AtuOp) (p : ℕ) (n : ℕ) (ep : ℕ) (b : List Byte) (v : ℕ) (fmt : ℕ) (pos : ℕ) (cnt : ℕ) (sf : ℕ) (idxs : List ℕ) (refs : List KvRef) (u : Machine.State) (len : ℕ) (ks : List Fp) (vs : List Fp), b = o.blk ∧ v = dNum b 24 4 ∧ cnt = dNum b 12 2 ∧ (idxs = List.map (fun x => pos / 64 + x) (List.range ((pos + cnt - 1) / 64 - pos / 64 + 1))) ∧ len = cnt * (s.kvPool p).d ∧ ks = u.aElems (↑x) (dNum b 16 4) sf len ∧ vs = u.aElems (↑x) (dNum b 20 4) sf len ∧ (∀ r ∈ refs, ∃ k d, r.page = some (k, d) ∧ d.fmt = fmt ∧ d.rc ≤ 1 ∧ u.kvPageGone (↑x) p k fmt = none) ∧ s.jobPlace ↑x = some (p, n, ep) ∧ s.atuHead (↑x) 1 = some o ∧ fmt = dNum b 15 1 ∧ pos = dNum b 8 4 ∧ sf = dNum b 14 1 ∧ s.poolState p = 2 ∧ kvDim (dNum b 28 1) = (s.kvPool p).d ∧ (s.kvPool p).fits fmt = true ∧ s.kvTranslateAll (↑x / 8) p n (dNum b 0 8) idxs = (Except.ok refs, u) ∧ u.stores.firstPoison (stoKey (↑x) (524288 + dNum b 16 4)) (len * srcBytes sf) = none ∧ u.stores.firstPoison (stoKey (↑x) (524288 + dNum b 20 4)) (len * srcBytes sf) = none ∧ (∃ e ∈ ks ++ vs, e.isNan = true ∨ e.isInf = true) :=
  ⟨0, inf0 (kvS 1 [1,2,3] 1 (appB 0 0)), (((inf0 (kvS 1 [1, 2, 3] 1 (appB 0 0))).atuHead (↑0) 1).get (by decide +kernel)), 0, 1, 1, _, _, 0, 0, _, 0, _, [{ idx := 0, page := some (0, { frame := 32768, rc := 1, epoch := 1, vt := 1, fmt := 0, owner := 1, flags := 1, next := 0, opseq := 0 }) }], ((inf0 (kvS 1 [1, 2, 3] 1 (appB 0 0))).kvTranslateAll (↑0 / 8) 0 1 (dNum (((inf0 (kvS 1 [1, 2, 3] 1 (appB 0 0))).atuHead (↑0) 1).get (by decide +kernel)).blk 0 8) (List.map (fun x => 0 / 64 + x) (List.range ((0 + 1 - 1) / 64 - 0 / 64 + 1)))).2, _, _, _, rfl, rfl, rfl, rfl, rfl, rfl, rfl, List.forall_mem_singleton.2 ⟨0, ⟨0x8000, 1, 1, 1, 0, 1, 1, 0, 0⟩, rfl, by decide +kernel⟩, by decide +kernel⟩

/-- The hypotheses of `Obligations.PoolResults` are met. -/
theorem witness_PoolResults :
    (∃ (s : Machine.State) (p : Fin 8) (n : Fin 128) (rq : Requester) (v : Word), s.grants rq (P.kpm 1) = true ∧ bitOf (BitVec.toNat v) 0 = true ∧ s.poolState ↑p = 0 ∧ s.flag (P.kpm 1) (F.KPM_POOL_CFG_enable ↑p) = false ∧ s.poolState ↑p ≠ 1 ∧ s.flag (P.ten (↑n) 9) F.KPM_TQ_RECLAIM_sweeping = false) ∧
    (∃ (s : Machine.State) (p : Fin 8) (n : Fin 128), s.poolState ↑p = 1 ∧ s.flag (P.ten (↑n) 9) F.KPM_TQ_RECLAIM_sweeping = true) ∧
    (∃ (s : Machine.State) (p : Fin 8) (rq : Requester) (v : Word), s.grants rq (P.kpm 1) = true ∧ bitOf (BitVec.toNat v) 0 = false ∧ s.flag (P.kpm 1) (F.KPM_POOL_CFG_enable ↑p) = true ∧ (s.poolState ↑p = 1 ∨ s.poolState ↑p = 2 ∨ s.poolState ↑p = 3)) ∧
    (∃ (s : Machine.State) (cl : Fin 64) (rq : Requester), s.grants rq (P.kvw ↑cl) = true) :=
  ⟨⟨rdy, 0, 0, .fw, 1, by decide +kernel⟩,
   ⟨put [(P.kpm 1, F.KPM_POOL_CFG_enable 0, 1), (P.kpm 1, F.KPM_POOL_STS_state 0, 1), (P.ten 1 9, F.KPM_TQ_RECLAIM_sweeping, 1)] State.reset, 0, 1, by decide +kernel⟩,
   ⟨put [(P.kpm 1, F.KPM_POOL_STS_state 0, 2), (P.kpm 1, F.KPM_POOL_CFG_enable 0, 1)] rdy, 0, .fw, 0, by decide +kernel⟩,
   ⟨onK, 0, .fw, by decide +kernel⟩⟩

/-- The hypotheses of `Obligations.BringupAndPush` (part 1) are met. -/
theorem witness_BringupAndPush_1 :
    (∃ (s : Machine.State) (rq : Requester) (port : Fin 4) (b : Fin 4) (si : BitVec 4) (bu : BitVec 6) (v : Bool), s.flag P.boot F.BOOT_STS_failed = false ∧ s.stage = 2 ∧ v = s.board.variantOk ∧ si = 8 ∧ bu = 1 ∧ b ≠ 3 ∧ v = true ∧ s.ready = false ∧ (s.stage = 2 ∨ s.stage = 12) ∧ (s.linkUp ↑port = false ∨ s.stage < 4 ∧ s.flag P.boot F.BOOT_STS_failed = false) ∧ s.grants rq P.boot = true ∧ s.flag P.boot F.BOOT_STS_wait_push = false ∧ (s.flag P.boot F.BOOT_PUSH_CTL_go = false ∨ s.boot.pushHeld = true)) ∧
    (∃ (s : Machine.State) (b : Fin 4) (si : BitVec 4) (bu : BitVec 6) (v : Bool), s.flag P.boot F.BOOT_STS_failed = false ∧ s.stage = 2 ∧ v = s.board.variantOk ∧ (si ≠ 8 ∨ bu ≠ 1 ∨ b = 3 ∨ v = false)) ∧
    (∃ (s : Machine.State) (n : ℕ), (n = (List.filter (fun x => s.sliceServes x && !s.fenced (x / 64)) (List.range 512)).length) ∧ s.flag P.boot F.BOOT_STS_failed = false ∧ s.stage = 8 ∧ (∀ x < 512, s.sliceState x ≠ 0 ∨ s.fenced (x / 64) = true)) ∧
    (∃ (s : Machine.State), s.flag P.boot F.BOOT_STS_failed = false ∧ s.stage = 8 ∧ (∃ x < 512, s.sliceState x = 0 ∧ s.fenced (x / 64) = false)) ∧
    (∃ (s : Machine.State), s.flag P.boot F.BOOT_STS_failed = false ∧ s.stage = 11 ∧ (∀ x < 512, s.coreSt x ≠ 1 ∨ s.fenced (x / 64) = true)) ∧
    (∃ (s : Machine.State), s.flag P.boot F.BOOT_STS_failed = false ∧ s.stage = 6 ∧ s.fusesDone = false) :=
  ⟨⟨stage 2, .fw, 0, 0, 8, 1, true, by decide +kernel⟩,
   ⟨stage 2, 0, 9, 1, true, by decide +kernel⟩,
   ⟨stage 8 fences, _, rfl, by decide +kernel⟩,
   ⟨stage 8, by decide +kernel⟩,
   ⟨stage 11, by decide +kernel⟩,
   ⟨stage 6, by decide +kernel⟩⟩

/-- The hypotheses of `Obligations.BringupAndPush` (part 2) are met. -/
theorem witness_BringupAndPush_2 :
    (∃ (s : Machine.State), s.flag P.boot F.BOOT_STS_failed = false ∧ s.stage = 9) ∧
    (∃ (s : Machine.State) (rq : Requester) (n : ℕ), n = s.fld P.boot F.BOOT_PUSH_LEN_len ∧ s.grants rq P.boot = true ∧ s.flag P.boot F.BOOT_PUSH_CTL_busy = false ∧ s.flag P.boot F.BOOT_STS_wait_push = true ∧ n ≤ 67108864 ∧ (s.port s.owner).d3 = false) ∧
    (∃ (s : Machine.State) (rq : Requester) (n : ℕ), n = s.fld P.boot F.BOOT_PUSH_LEN_len ∧ s.grants rq P.boot = true ∧ s.flag P.boot F.BOOT_PUSH_CTL_busy = false ∧ s.flag P.boot F.BOOT_STS_wait_push = true ∧ 67108864 < n) ∧
    (∃ (s : Machine.State) (port : Fin 4), s.linkUp ↑port = true ∧ (4 ≤ s.stage ∨ s.flag P.boot F.BOOT_STS_failed = true)) ∧
    (∃ (s : Machine.State), (s.flag P.boot F.BOOT_STS_failed = true ∨ s.ready = true)) ∧
    (∃ (s : Machine.State), s.flag P.boot F.BOOT_STS_failed = false ∧ s.stage = 6 ∧ s.fusesDone = true ∧ s.bridgesDone = true) :=
  ⟨⟨stage 9, by decide +kernel⟩,
   ⟨stage 4 [(P.boot, F.BOOT_STS_wait_push, 1), (P.boot, F.BOOT_PUSH_LEN_len, 0x4000000)], .fw, _, rfl, by decide +kernel⟩,
   ⟨stage 4 [(P.boot, F.BOOT_STS_wait_push, 1), (P.boot, F.BOOT_PUSH_LEN_len, 0x4000001)], .fw, _, rfl, by decide +kernel⟩,
   ⟨stage 4 [(P.hpt 0, F.HPT_LINK_STS_rate, 1)], 0, by decide +kernel⟩,
   ⟨stage 2 [(P.boot, F.BOOT_STS_failed, 1)], by decide +kernel⟩,
   ⟨bridges 1, by decide +kernel⟩⟩

/-- The hypotheses of `Obligations.BringupAndPush` (part 3) are met. -/
theorem witness_BringupAndPush_3 :
    (∃ (s : Machine.State), s.flag P.boot F.BOOT_STS_failed = false ∧ s.stage = 6 ∧ s.fusesDone = true ∧ s.bridgesDone = false) ∧
    (∃ (s : Machine.State), s.flag P.boot F.BOOT_STS_failed = false ∧ s.ready = false ∧ s.stage = 4 ∧ s.flag P.boot F.BOOT_PUSH_CTL_go = true) ∧
    (∃ (s : Machine.State) (rq : Requester) (n : ℕ), n = s.fld P.boot F.BOOT_PUSH_LEN_len ∧ s.grants rq P.boot = true ∧ s.flag P.boot F.BOOT_PUSH_CTL_busy = false ∧ s.flag P.boot F.BOOT_STS_wait_push = true ∧ n ≤ 67108864 ∧ (s.port s.owner).d3 = true) :=
  ⟨⟨lk 1 ((List.range 8).map fun t => (P.tile t, F.TILE_STS_fuse_ok, 1)), by decide +kernel⟩,
   ⟨stage 4 [(P.boot, F.BOOT_PUSH_CTL_go, 1)], by decide +kernel⟩,
   ⟨(stage 4 [(P.boot, F.BOOT_STS_wait_push, 1)]).setPort 0 { Port.reset with d3 := true }, .fw, _, rfl, by decide +kernel⟩⟩

/-- The hypotheses of `Obligations.BootUnitsResults` are met. -/
theorem witness_BootUnitsResults :
    (∃ (s : Machine.State) (x : Fin 512) (rq : Requester) (key : BitVec 16), s.coreSt ↑x ≠ 1 ∧ s.aoUp = true ∧ s.grants rq (P.hub 2) = true ∧ s.inShutdown = false ∧ s.stuck = false ∧ key ≠ 42435) ∧
    (∃ (s : Machine.State) (x : Fin 512), s.sliceState ↑x = 0 ∧ s.fenced (↑x / 64) = false ∧ 8 ≤ s.stage ∧ s.flag P.boot F.BOOT_STS_failed = false) ∧
    (∃ (s : Machine.State) (x : Fin 512), s.sliceState ↑x ≠ 0) ∧
    (∃ (s : Machine.State), s.aoUp = false) :=
  ⟨⟨rdy, 0, .fw, 1, by decide +kernel⟩,
   ⟨fetching, 0, by decide +kernel⟩,
   ⟨stage 9 [(P.slc 0, F.SLC_STS_state, 1)], 0, by decide +kernel⟩,
   ⟨{ State.reset with aoUp := false}, by decide +kernel⟩⟩

/-- The hypotheses of `Obligations.HostPortsAndFunctions` (part 1) are met. -/
theorem witness_HostPortsAndFunctions_1 :
    (∃ (s : Machine.State) (p : Fin 4) (v : Fin 64) (q : ℕ) (b : ℕ) (n : ℕ) (off : BitVec 37) (o : ℕ) (x : ℕ) (a : ℕ) (fn : FnId) (vec : Fin 32) (k : ℕ) (w : Fin 17), o = off.toNat / 64 * 64 ∧ k = fnNum fn ∧ s.linkUp (fnPort k) = true ∧ s.devFailed = false ∧ (s.port (fnPort k)).cfgReady = false ∧ (s.linkUp ↑p = true ∨ w ≠ 1 ∧ w ≠ 2 ∧ w ≠ 4 ∧ w ≠ 8 ∧ w ≠ 16) ∧ s.flag (P.hpt ↑p) F.HPT_LINK_STS_perst = false ∧ s.tenantsOnPort ↑p = [] ∧ s.linkUp ↑p = true ∧ (s.port ↑p).d3 = false ∧ (s.port ↑p).numVfs = 0 ∧ (s.port ↑p).numVfs ≤ ↑v ∧ (bitOf (s.fn k).pba ↑vec = false ∨ s.deliverable k ↑vec = false) ∧ s.hubOff = false ∧ (s.port ↑p).cxlWin = some (q, b, n) ∧ o < n ∧ s.ptState q ≠ 3 ∧ s.poolPlace q (b + o) = Place.dram x a ∧ s.fenced (x / 64) = false ∧ s.sliceServes x = true ∧ s.vclkLost = false ∧ (∀ i < 64, s.vcOn i = false) ∧ s.trail.queue.length < 16) ∧
    (∃ (s : Machine.State) (p : Fin 4) (v : Fin 64) (fn : FnId) (k : ℕ), k = fnNum fn ∧ s.linkUp (fnPort k) = true ∧ s.devFailed = false ∧ (s.port (fnPort k)).cfgReady = true ∧ (k < 4 ∨ (k - 4) % 64 < (s.port (fnPort k)).numVfs) ∧ s.tenantsOnPort ↑p = [] ∧ s.linkUp ↑p = true ∧ (s.port ↑p).numVfs ≠ 0 ∧ ↑v < (s.port ↑p).numVfs ∧ (∀ n < 128, s.bound n = true → s.tnFn n ≠ fnNum (FnId.vf p v))) ∧
    (∃ (s : Machine.State) (p : Fin 4) (fn : FnId) (k : ℕ), k = fnNum fn ∧ s.linkUp (fnPort k) = true ∧ s.devFailed = true ∧ s.linkUp ↑p = true ∧ s.hubOff = false ∧ (s.port ↑p).d3 = false) ∧
    (∃ (s : Machine.State) (p : Fin 4) (fn : FnId) (k : ℕ), k = fnNum fn ∧ s.linkUp (fnPort k) = false ∧ s.linkUp ↑p = false ∧ s.flag (P.hpt ↑p) F.HPT_LINK_STS_perst = true ∧ (s.port ↑p).railBad = false) ∧
    (∃ (s : Machine.State) (p : Fin 4) (fn : FnId) (k : ℕ) (c : Instr), k = fnNum fn ∧ s.linkUp ↑p = true ∧ s.tenantsOnPort ↑p = [] ∧ (c = Instr.hostLinkDown p ∨ c = Instr.refclkLoss p)) ∧
    (∃ (s : Machine.State) (p : Fin 4) (fn : FnId) (k : ℕ), k = fnNum fn ∧ s.flag (P.hpt ↑p) F.HPT_LINK_STS_perst = true ∧ (s.port ↑p).railBad = true) :=
  ⟨⟨cxlS 2, 0, 0, 0, 0, 4096, 0x0000000000#37, _, 0, 0, .pf 0, 0, _, 0, rfl, rfl, by decide +kernel⟩,
   ⟨cfgUp 0, 0, 0, .pf 0, _, rfl, by decide +kernel⟩,
   ⟨failed (up 0), 0, .pf 0, _, rfl, by decide +kernel⟩,
   ⟨perstS, 0, .pf 0, _, rfl, by decide +kernel⟩,
   ⟨up 0, 0, .pf 0, _, .hostLinkDown 0, rfl, by decide +kernel⟩,
   ⟨perstS.setPort 0 { Port.reset with perst := true, railBad := true }, 0, .pf 0, _, rfl, by decide +kernel⟩⟩

/-- The hypotheses of `Obligations.HostPortsAndFunctions` (part 2) are met. -/
theorem witness_HostPortsAndFunctions_2 :
    (∃ (s : Machine.State) (p : Fin 4) (fn : FnId) (k : ℕ), k = fnNum fn ∧ s.devFailed = false ∧ (s.port ↑p).d3 = true ∧ s.tenantsOnPort ↑p = [] ∧ s.boot.pushHeld = false) ∧
    (∃ (s : Machine.State) (p : Fin 4) (q : ℕ) (b : ℕ) (n : ℕ) (off : BitVec 37) (o : ℕ) (r : List Byte × Bool), o = off.toNat / 64 * 64 ∧ r = s.placeRead (s.poolPlace q (b + o)) 64 ∧ s.linkUp ↑p = true ∧ s.devFailed = false ∧ s.hubOff = false ∧ (s.port ↑p).d3 = false ∧ (s.port ↑p).cxlWin = some (q, b, n) ∧ o < n ∧ s.ptState q ≠ 3) ∧
    (∃ (s : Machine.State) (p : Fin 4) (q : ℕ) (b : ℕ) (n : ℕ) (off : BitVec 37) (o : ℕ), o = off.toNat / 64 * 64 ∧ s.linkUp ↑p = true ∧ s.devFailed = false ∧ s.hubOff = false ∧ (s.port ↑p).d3 = false ∧ (s.port ↑p).cxlWin = some (q, b, n) ∧ o < n ∧ s.ptState q = 3) ∧
    (∃ (s : Machine.State), s.vclkLost = true) ∧
    (∃ (s : Machine.State) (p : Fin 4) (fn : FnId) (k : ℕ), k = fnNum fn ∧ s.devFailed = false ∧ (s.port ↑p).d3 = true ∧ s.tenantsOnPort ↑p = [] ∧ s.owner = ↑p ∧ s.boot.pushHeld = true ∧ s.flag P.boot F.BOOT_PUSH_CTL_go = true) ∧
    (∃ (s : Machine.State) (fn : FnId) (vec : Fin 32) (k : ℕ), k = fnNum fn ∧ bitOf (s.fn k).pba ↑vec = true ∧ s.deliverable k ↑vec = true ∧ s.srcPending k ↑vec = true) :=
  ⟨⟨(up 0).setPort 0 { Port.reset with d3 := true }, 0, .pf 0, _, rfl, by decide +kernel⟩,
   ⟨cxlS 2, 0, 0, 0, 4096, 0x0000000000#37, _, _, rfl, rfl, by decide +kernel⟩,
   ⟨cxlS 3, 0, 0, 0, 4096, 0x0000000000#37, _, rfl, by decide +kernel⟩,
   ⟨{ State.reset with vclkLost := true }, by decide +kernel⟩,
   ⟨heldPush, 0, .pf 0, _, rfl, by decide +kernel⟩,
   ⟨(tenS [(P.queue 1 3, F.Q_CQ_TAIL_count, 1)] []).setFn 4 ⟨true, true, true, false, 0xFF, 8, []⟩, .vf 0 0, 3, _, rfl, by decide +kernel⟩⟩

/-- The hypotheses of `Obligations.HostPortsAndFunctions` (part 3) are met. -/
theorem witness_HostPortsAndFunctions_3 :
    ∃ (s : Machine.State) (p : Fin 4) (fn : FnId) (k : ℕ) (w : Fin 17), k = fnNum fn ∧ s.linkUp ↑p = false ∧ (3 ≤ s.stage ∨ s.flag P.boot F.BOOT_STS_failed = true) ∧ s.flag (P.hpt ↑p) F.HPT_LINK_STS_perst = false ∧ bitOf (s.fld (P.hub 0) F.HUB_STRAP_EXT_port_clk_bad) ↑p = false ∧ s.devFailed = false ∧ s.hubOff = false ∧ (w = 1 ∨ w = 2 ∨ w = 4 ∨ w = 8 ∨ w = 16) :=
  ⟨stage 3, 0, .pf 0, _, 1, rfl, by decide +kernel⟩

/-- The hypotheses of `Obligations.LinkStateResults` (part 1) are met. -/
theorem witness_LinkStateResults_1 :
    (∃ (s : Machine.State) (t : Fin 8) (d : Fin 4) (k : ℕ) (e : ℕ) (idle : Prop), k = 4 * ↑t + ↑d ∧ (idle ↔ ∀ y < 32, y / 4 = k / 4 ∨ y / 4 = e / 4 → (s.lend y).rxq = []) ∧ farEnd k = some e ∧ (∀ p < 8, s.ptState p ≠ 2 ∧ s.ptState p ≠ 3) ∧ (s.eState k ≠ 1 ∧ s.eState k ≠ 2 ∨ (s.lend k).failed = true ∨ s.mayTrain k = false ∨ s.trainTime k = false) ∧ s.eState k = 4 ∧ (s.lend k).replay = [] ∧ (s.lend e).replay = [] ∧ (s.lend k).drainRetrain = true ∧ (s.lend e).drainRetrain = true ∧ (s.eState k = 4 ∧ (s.lend k).drainRetrain = true ∨ s.eState k = 5) ∧ (s.lend k).replays < max 1 (s.fld (endPg k) F.LNK_CTL_replay_limit)) ∧
    (∃ (s : Machine.State) (t : Fin 8) (d : Fin 4) (k : ℕ) (e : ℕ) (idle : Prop), k = 4 * ↑t + ↑d ∧ (idle ↔ ∀ y < 32, y / 4 = k / 4 ∨ y / 4 = e / 4 → (s.lend y).rxq = []) ∧ farEnd k = some e ∧ (∀ p < 8, s.ptState p ≠ 2 ∧ s.ptState p ≠ 3) ∧ s.eState k = 4 ∧ (s.lend k).replay = [] ∧ (s.lend e).replay = [] ∧ (s.lend k).drainRetrain = false) ∧
    (∃ (s : Machine.State) (t : Fin 8) (d : Fin 4) (k : ℕ) (e : ℕ) (idle : Prop) (r : TrainIn), k = 4 * ↑t + ↑d ∧ (idle ↔ ∀ y < 32, y / 4 = k / 4 ∨ y / 4 = e / 4 → (s.lend y).rxq = []) ∧ farEnd k = some e ∧ (∀ p < 8, s.ptState p ≠ 2 ∧ s.ptState p ≠ 3) ∧ (s.eState k = 1 ∨ s.eState k = 2) ∧ (s.lend k).failed = false ∧ s.mayTrain k = true ∧ s.trainTime k = true ∧ r.deskewOk = true ∧ s.fld (endPg k) F.LNK_WIRE_MAP_tx_spares_used + r.badTx ≤ 32 ∧ s.fld (endPg k) F.LNK_WIRE_MAP_rx_spares_used + r.badRx ≤ 32 ∧ r.site.toNat = e / 4 ∧ r.siteBack.toNat = k / 4) ∧
    (∃ (s : Machine.State) (t : Fin 8) (d : Fin 4) (k : ℕ) (e : ℕ) (idle : Prop) (r : TrainIn), k = 4 * ↑t + ↑d ∧ (idle ↔ ∀ y < 32, y / 4 = k / 4 ∨ y / 4 = e / 4 → (s.lend y).rxq = []) ∧ farEnd k = some e ∧ (∀ p < 8, s.ptState p ≠ 2 ∧ s.ptState p ≠ 3) ∧ (s.eState k = 1 ∨ s.eState k = 2) ∧ (s.lend k).failed = false ∧ s.mayTrain k = true ∧ s.trainTime k = true ∧ r.deskewOk = false) ∧
    (∃ (s : Machine.State) (t : Fin 8) (d : Fin 4) (k : ℕ) (e : ℕ) (idle : Prop) (r : TrainIn), k = 4 * ↑t + ↑d ∧ (idle ↔ ∀ y < 32, y / 4 = k / 4 ∨ y / 4 = e / 4 → (s.lend y).rxq = []) ∧ farEnd k = some e ∧ (∀ p < 8, s.ptState p ≠ 2 ∧ s.ptState p ≠ 3) ∧ s.eState k = 5 ∧ r.deskewOk = true ∧ s.fld (endPg k) F.LNK_WIRE_MAP_tx_spares_used + r.badTx ≤ 32 ∧ s.fld (endPg k) F.LNK_WIRE_MAP_rx_spares_used + r.badRx ≤ 32) ∧
    (∃ (s : Machine.State) (t : Fin 8) (d : Fin 4) (k : ℕ) (e : ℕ) (idle : Prop), k = 4 * ↑t + ↑d ∧ (idle ↔ ∀ y < 32, y / 4 = k / 4 ∨ y / 4 = e / 4 → (s.lend y).rxq = []) ∧ farEnd k = some e ∧ (∀ p < 8, s.ptState p ≠ 2 ∧ s.ptState p ≠ 3) ∧ s.eState k = 4 ∧ ((s.lend k).replay ≠ [] ∨ (s.lend e).replay ≠ [])) :=
  ⟨⟨lk 4, 0, 0, _, 5, _, rfl, Iff.rfl, by decide +kernel⟩,
   ⟨ends (lk 4) 0 { LinkEnd.reset with drainRetrain := false }, 0, 0, _, 5, _, rfl, Iff.rfl, by decide +kernel⟩,
   ⟨lk 1, 0, 0, _, 5, _, train1 true, rfl, Iff.rfl, by decide +kernel⟩,
   ⟨lk 1, 0, 0, _, 5, _, train1 false, rfl, Iff.rfl, by decide +kernel⟩,
   ⟨lk 5, 0, 0, _, 5, _, train1 true, rfl, Iff.rfl, by decide +kernel⟩,
   ⟨ends (lk 4) 0 { LinkEnd.reset with replay := [flit0] }, 0, 0, _, 5, _, rfl, Iff.rfl, by decide +kernel⟩⟩

/-- The hypotheses of `Obligations.LinkStateResults` (part 2) are met. -/
theorem witness_LinkStateResults_2 :
    (∃ (s : Machine.State) (t : Fin 8) (d : Fin 4) (k : ℕ) (e : ℕ) (idle : Prop) (r : TrainIn), k = 4 * ↑t + ↑d ∧ (idle ↔ ∀ y < 32, y / 4 = k / 4 ∨ y / 4 = e / 4 → (s.lend y).rxq = []) ∧ farEnd k = some e ∧ (∀ p < 8, s.ptState p ≠ 2 ∧ s.ptState p ≠ 3) ∧ s.eState k = 5 ∧ r.deskewOk = false) ∧
    (∃ (s : Machine.State) (t : Fin 8) (d : Fin 4) (k : ℕ) (e : ℕ) (idle : Prop), k = 4 * ↑t + ↑d ∧ (idle ↔ ∀ y < 32, y / 4 = k / 4 ∨ y / 4 = e / 4 → (s.lend y).rxq = []) ∧ farEnd k = some e ∧ (∀ p < 8, s.ptState p ≠ 2 ∧ s.ptState p ≠ 3) ∧ s.eState k = 3 ∧ max 1 (s.fld (endPg k) F.LNK_CTL_replay_limit) ≤ (s.lend k).replays) :=
  ⟨⟨lk 5, 0, 0, _, 5, _, train1 false, rfl, Iff.rfl, by decide +kernel⟩,
   ⟨ends (lk 3) 0 { LinkEnd.reset with replay := [flit0], replays := 8 }, 0, 0, _, 5, _, rfl, Iff.rfl, by decide +kernel⟩⟩

/-- The hypotheses of `Obligations.BundleStateResults` (part 1) are met. -/
theorem witness_BundleStateResults_1 :
    (∃ (s : Machine.State) (t : Fin 8) (hub : Bool) (k : ℕ) (r : TrainIn) (id : ℕ × ℕ), (k = (if hub = true then 40 else 32) + ↑t) ∧ id = s.tileIdent (↑t) r ∧ (s.eState (32 + ↑t) = 1 ∨ s.eState (32 + ↑t) = 2) ∧ (s.lend (32 + ↑t)).failed = false ∧ s.mayTrain (32 + ↑t) = true ∧ s.trainTime (32 + ↑t) = true ∧ r.deskewOk = true ∧ r.lanesTx = 65535 ∧ r.lanesRx = 65535 ∧ s.strapCode (↑t) id.1 id.2 = 0 ∧ (s.eState k ≠ 3 ∨ (s.lend k).fecSum ≤ s.fld (endPg k) F.SER_CTL_fec_thresh ∨ (s.lend k).fecAt + 1000000 ≤ s.now) ∧ s.fenced ↑t = false ∧ s.ptsOnTile ↑t = [] ∧ s.findRst 4 ↑t = none ∧ (∀ p < 8, s.ptState p ≠ 2 ∧ s.ptState p ≠ 3)) ∧
    (∃ (s : Machine.State) (t : Fin 8) (r : TrainIn) (id : ℕ × ℕ) (c : ℕ), id = s.tileIdent (↑t) r ∧ s.strapCode (↑t) id.1 id.2 = c ∧ (s.eState (32 + ↑t) = 1 ∨ s.eState (32 + ↑t) = 2) ∧ (s.lend (32 + ↑t)).failed = false ∧ s.mayTrain (32 + ↑t) = true ∧ s.trainTime (32 + ↑t) = true ∧ r.deskewOk = true ∧ r.lanesTx = 65535 ∧ r.lanesRx = 65535 ∧ c ≠ 0 ∧ s.ready = false) ∧
    (∃ (s : Machine.State) (t : Fin 8), s.fenced ↑t = true) ∧
    (∃ (s : Machine.State) (t : Fin 8) (r : TrainIn), (s.eState (32 + ↑t) = 1 ∨ s.eState (32 + ↑t) = 2) ∧ (s.lend (32 + ↑t)).failed = false ∧ s.mayTrain (32 + ↑t) = true ∧ s.trainTime (32 + ↑t) = true ∧ r.deskewOk = false ∧ (s.lend (32 + ↑t)).tries < 2) ∧
    (∃ (s : Machine.State) (t : Fin 8) (r : TrainIn), (s.eState (32 + ↑t) = 1 ∨ s.eState (32 + ↑t) = 2) ∧ (s.lend (32 + ↑t)).failed = false ∧ s.mayTrain (32 + ↑t) = true ∧ s.trainTime (32 + ↑t) = true ∧ r.deskewOk = false ∧ (s.lend (32 + ↑t)).tries = 2 ∧ s.ready = false ∧ (∀ p < 8, s.ptState p ≠ 2 ∧ s.ptState p ≠ 3) ∧ s.findRst 4 ↑t = none) ∧
    (∃ (s : Machine.State) (t : Fin 8) (hub : Bool) (k : ℕ), (k = (if hub = true then 40 else 32) + ↑t) ∧ s.eState k = 3 ∧ s.fld (endPg k) F.SER_CTL_fec_thresh < (s.lend k).fecSum ∧ s.now < (s.lend k).fecAt + 1000000) :=
  ⟨⟨sr 1, 0, false, _, train0 0, _, rfl, rfl, by decide +kernel⟩,
   ⟨sr 1, 0, train0 8, _, _, rfl, rfl, by decide +kernel⟩,
   ⟨sr 6, 0, by decide +kernel⟩,
   ⟨sr 1, 0, train1 false, by decide +kernel⟩,
   ⟨ends (sr 1) 32 { LinkEnd.reset with tries := 2 }, 0, train1 false, by decide +kernel⟩,
   ⟨ends (sr 3) 32 { LinkEnd.reset with fecSum := 100000 }, 0, false, _, rfl, by decide +kernel⟩⟩

/-- The hypotheses of `Obligations.BundleStateResults` (part 2) are met. -/
theorem witness_BundleStateResults_2 :
    (∃ (s : Machine.State) (t : Fin 8) (rq : Requester) (hub : Bool) (pg : ℕ), (pg = if hub = true then P.serHub ↑t else P.serTile ↑t) ∧ s.grants rq pg = true ∧ s.flag pg F.PG_LOCK_locked = false) ∧
    (∃ (s : Machine.State) (t : Fin 8) (rq : Requester) (hub : Bool) (pg : ℕ), (pg = if hub = true then P.serHub ↑t else P.serTile ↑t) ∧ s.grants rq pg = true ∧ s.flag pg F.PG_LOCK_locked = true ∧ s.fld pg F.SER_CTL_enable ≠ 1) :=
  ⟨⟨sr 3 rdyF, 0, .fw, false, _, rfl, by decide +kernel⟩,
   ⟨sr 3 [(P.boot, F.BOOT_STS_ready, 1), (P.serTile 0, F.PG_LOCK_locked, 1), (P.serTile 0, F.SER_CTL_enable, 0)], 0, .fw, false, _, rfl, by decide +kernel⟩⟩

/-- The hypotheses of `Obligations.LinkTrafficAndControl` (part 1) are met. -/
theorem witness_LinkTrafficAndControl_1 :
    (∃ (s : Machine.State) (t : Fin 8) (d : Fin 4) (rq : Requester) (k : ℕ) (pg : ℕ) (v : Fin 8) (hub : Bool) (sp : ℕ) (e : ℕ), k = 4 * ↑t + ↑d ∧ pg = P.lnk ↑t ↑d ∧ (sp = if hub = true then P.serHub ↑t else P.serTile ↑t) ∧ s.grants rq pg = true ∧ farEnd k = some e ∧ s.eState k = 3 ∧ s.flag pg F.PG_LOCK_locked = false ∧ s.eState k ≠ 1 ∧ s.grants rq sp = true ∧ (Tab.get hold0 s.routeHold (8 * ↑t + ↑v) = none ∨ s.requestsOut ↑t ↑v = true)) ∧
    (∃ (s : Machine.State) (e : LinkEndId) (k : ℕ) (w : AckWord) (i : ℕ), k = endKey e ∧ (isSer k = true ∨ ∀ (y : ℕ), y / 4 = k / 4 → (s.lend y).rxq = []) ∧ s.carries k = true ∧ w.parityOk = true ∧ (List.findIdx? (fun f => f.seq == w.seq % seqMod k) (s.lend k).replay = some i) ∧ w.typ = AckType.nak ∧ (s.lend k).replay ≠ [] ∧ (s.lend k).accSince = 0 ∧ 32 ≤ k ∧ s.eState k = 3 ∧ (s.lend k).replay.length < 256) ∧
    (∃ (s : Machine.State) (t : Fin 8) (d : Fin 4) (rq : Requester) (k : ℕ) (pg : ℕ) (hub : Bool) (sp : ℕ) (u : Machine.State) (e : LinkEndId), k = 4 * ↑t + ↑d ∧ pg = P.lnk ↑t ↑d ∧ (sp = if hub = true then P.serHub ↑t else P.serTile ↑t) ∧ u = s.setFld pg F.LNK_CTL_enable 1 ∧ s.carries (endKey e) = false ∧ s.grants rq pg = true ∧ s.flag pg F.PG_LOCK_locked = false ∧ s.eState k = 1 ∧ u.mayTrain k = true ∧ (s.lend k).failed = false ∧ s.grants rq sp = true ∧ (s.eState ((if hub = true then 40 else 32) + ↑t) = 3)) ∧
    (∃ (s : Machine.State) (e : LinkEndId) (k : ℕ) (q : ℕ), k = endKey e ∧ s.carries k = true ∧ (s.lend k).lastAcc = some q ∧ (s.lend k).accSince ≠ 0 ∧ k < 32) ∧
    (∃ (s : Machine.State) (t : Fin 8) (d : Fin 4) (k : ℕ) (b : Burst), k = 4 * ↑t + ↑d ∧ s.carries k = true ∧ b.bv = true ∧ b.hm = false ∧ (s.lend k).pendA = none) ∧
    (∃ (s : Machine.State) (t : Fin 8) (d : Fin 4) (k : ℕ) (b : Burst), k = 4 * ↑t + ↑d ∧ s.carries k = true ∧ b.bv = true ∧ b.hm = true ∧ (s.lend k).pendA = none) :=
  ⟨⟨lk 3 rdyF, 0, 0, .fw, _, _, 0, false, _, 5, rfl, rfl, rfl, by decide +kernel⟩,
   ⟨ends (sr 3) 40 { LinkEnd.reset with replay := [flit0] }, .bundleHub 0, _, ⟨.nak, 0, [], true⟩, 0, rfl, .inl (by decide +kernel), by decide +kernel⟩,
   ⟨sr 3 rdyF, 0, 0, .fw, _, _, true, _, _, .bridge 0 0, rfl, rfl, rfl, rfl, by decide +kernel⟩,
   ⟨ends (lk 3) 0 { LinkEnd.reset with replay := [flit0], accSince := 6, lastAcc := some 5 }, .bridge 0 0, _, 5, rfl, by decide +kernel⟩,
   ⟨lk 3, 0, 0, _, bst true false, rfl, by decide +kernel⟩,
   ⟨lk 3, 0, 0, _, bst true true, rfl, by decide +kernel⟩⟩

/-- The hypotheses of `Obligations.LinkTrafficAndControl` (part 2) are met. -/
theorem witness_LinkTrafficAndControl_2 :
    (∃ (s : Machine.State) (t : Fin 8) (d : Fin 4) (k : ℕ) (b : Burst), k = 4 * ↑t + ↑d ∧ s.carries k = true ∧ b.bv = false) ∧
    (∃ (s : Machine.State) (t : Fin 8) (d : Fin 4) (k : ℕ) (pg : ℕ) (v : Fin 8) (r : ℕ), k = 4 * ↑t + ↑d ∧ pg = P.lnk ↑t ↑d ∧ Tab.get hold0 s.routeHold (8 * ↑t + ↑v) = some r ∧ r < 16 ∧ s.requestsOut ↑t ↑v = false) ∧
    (∃ (s : Machine.State) (t : Fin 8) (d : Fin 4) (k : ℕ) (a : Burst) (b : Burst) (q : ℕ) (vc : ℕ), k = 4 * ↑t + ↑d ∧ q = a.seq.toNat ∧ vc = a.vc.toNat ∧ (s.lend k).pendA = some a ∧ burstCrc (a.data ++ b.data) q vc = 2 ^ 16 * a.crcHalf.toNat + b.crcHalf.toNat ∧ s.carries k = true ∧ b.bv = true ∧ b.hm = true ∧ a.seq = b.seq ∧ q = s.rxExp k ∧ s.rxRoom k vc = true ∧ (s.lend k).accSince < 7 ∧ a.dst = t) ∧
    (∃ (s : Machine.State) (t : Fin 8) (d : Fin 4) (k : ℕ) (a : Burst) (b : Burst) (q : ℕ) (vc : ℕ) (e : ℕ), k = 4 * ↑t + ↑d ∧ q = a.seq.toNat ∧ vc = a.vc.toNat ∧ (s.lend k).pendA = some a ∧ burstCrc (a.data ++ b.data) q vc = 2 ^ 16 * a.crcHalf.toNat + b.crcHalf.toNat ∧ s.carries k = true ∧ b.bv = true ∧ b.hm = true ∧ a.seq = b.seq ∧ q = s.rxExp k ∧ s.rxRoom k vc = true ∧ (s.lend k).accSince < 7 ∧ a.dst ≠ t ∧ (∀ y < 32, y / 4 = k / 4 → (s.lend y).rxq = []) ∧ fwdEnd k { ↑a with vc := vc, data := a.data ++ b.data } = some e ∧ e ≠ k ∧ s.canSend e vc = true) ∧
    (∃ (s : Machine.State) (t : Fin 8) (d : Fin 4) (k : ℕ) (a : Burst) (b : Burst), k = 4 * ↑t + ↑d ∧ (s.lend k).pendA = some a ∧ s.carries k = true ∧ b.bv = true ∧ b.hm = true ∧ a.seq ≠ b.seq) ∧
    (∃ (s : Machine.State) (t : Fin 8) (hub : Bool) (k : ℕ) (f : BundleFlit), (k = (if hub = true then 40 else 32) + ↑t) ∧ s.carries k = true ∧ flitFixable f = false) :=
  ⟨⟨lk 3, 0, 0, _, bst false true, rfl, by decide +kernel⟩,
   ⟨{ lk 3 with routeHold := Tab.set hold0 [] 1 (some 15) }, 0, 0, _, _, 1, 15, rfl, rfl, by decide +kernel⟩,
   ⟨halfA (lk 3), 0, 0, _, bst true false 0 1, bst true true, _, _, rfl, rfl, rfl, rfl, crc_burst, by decide +kernel⟩,
   ⟨halfA (lk 3 [(P.lnk 0 3, F.LNK_STS_state, 3)]) 4, 0, 0, _, bst true false 0 1 4, bst true true, _, _, 3, rfl, rfl, rfl, rfl, crc_burst, by decide +kernel⟩,
   ⟨halfA (lk 3), 0, 0, _, bst true false 0 1, bst true true 1, rfl, rfl, by decide +kernel⟩,
   ⟨sr 3, 0, false, _, noFlit, rfl, by decide +kernel⟩⟩

/-- The hypotheses of `Obligations.LinkTrafficAndControl` (part 3) are met. -/
theorem witness_LinkTrafficAndControl_3 :
    (∃ (s : Machine.State) (t : Fin 8) (hub : Bool) (k : ℕ) (f : BundleFlit) (h : ℕ), (k = (if hub = true then 40 else 32) + ↑t) ∧ h = leAt (flitBytes f) 0 4 ∧ (linkCrc (byteBits (slice (flitBytes f) 0 232)) ≠ leAt (flitBytes f) 232 4 ∨ 7 ≤ bits h 0 4) ∧ s.carries k = true ∧ flitFixable f = true) ∧
    (∃ (s : Machine.State) (t : Fin 8) (hub : Bool) (k : ℕ) (f : BundleFlit) (h : ℕ), (k = (if hub = true then 40 else 32) + ↑t) ∧ h = leAt (flitBytes f) 0 4 ∧ flitFixable f = true ∧ linkCrc (byteBits (slice (flitBytes f) 0 232)) = leAt (flitBytes f) 232 4 ∧ bits h 0 4 < 7 ∧ bits h 24 2 = 0 ∧ bits h 4 10 = s.rxExp k ∧ s.carries k = true ∧ (s.lend k).accSince < 7) ∧
    (∃ (s : Machine.State) (e : LinkEndId) (k : ℕ) (w : AckWord) (i : ℕ), k = endKey e ∧ (isSer k = true ∨ ∀ (y : ℕ), y / 4 = k / 4 → (s.lend y).rxq = []) ∧ s.carries k = true ∧ w.parityOk = true ∧ (List.findIdx? (fun f => f.seq == w.seq % seqMod k) (s.lend k).replay = some i) ∧ w.typ = AckType.ack) ∧
    (∃ (s : Machine.State) (e : LinkEndId) (k : ℕ) (w : AckWord), k = endKey e ∧ s.carries k = true ∧ w.typ = AckType.none ∧ isSer k = true) ∧
    (∃ (s : Machine.State) (e : LinkEndId) (k : ℕ) (w : AckWord), k = endKey e ∧ s.carries k = true ∧ w.parityOk = false) ∧
    (∃ (s : Machine.State) (e : LinkEndId) (k : ℕ), k = endKey e ∧ s.carries k = true ∧ 32 ≤ k ∧ (s.eState k ≠ 3 ∨ 256 ≤ (s.lend k).replay.length)) :=
  ⟨⟨sr 3, 0, false, _, rflit, _, rfl, rfl, .inr (by decide +kernel), by decide +kernel⟩,
   ⟨sr 3, 0, true, _, bflit flitCrc, _, rfl, rfl, flit_fix, crc_flit, by rw [flit_head]; decide +kernel, by rw [flit_head]; decide +kernel, by rw [flit_head]; decide +kernel, by decide +kernel⟩,
   ⟨ends (sr 3) 40 { LinkEnd.reset with replay := [flit0] }, .bundleHub 0, _, ⟨.ack, 0, [], true⟩, 0, rfl, .inl (by decide +kernel), by decide +kernel⟩,
   ⟨sr 3, .bundleHub 0, _, ⟨.none, 0, [], true⟩, rfl, by decide +kernel⟩,
   ⟨sr 3, .bundleHub 0, _, ⟨.ack, 0, [], false⟩, rfl, by decide +kernel⟩,
   ⟨sr 4, .bundleHub 0, _, rfl, by decide +kernel⟩⟩

/-- The hypotheses of `Obligations.LinkTrafficAndControl` (part 4) are met. -/
theorem witness_LinkTrafficAndControl_4 :
    (∃ (s : Machine.State) (t : Fin 8) (d : Fin 4) (rq : Requester) (k : ℕ) (pg : ℕ), k = 4 * ↑t + ↑d ∧ pg = P.lnk ↑t ↑d ∧ s.grants rq pg = true ∧ (s.eState k = 4 ∨ s.eState k = 5)) ∧
    (∃ (s : Machine.State) (t : Fin 8) (d : Fin 4) (rq : Requester) (k : ℕ) (pg : ℕ) (v : Bool), k = 4 * ↑t + ↑d ∧ pg = P.lnk ↑t ↑d ∧ s.grants rq pg = true ∧ s.flag pg F.PG_LOCK_locked = true ∧ s.fld pg F.LNK_CTL_force_down ≠ b2n v) :=
  ⟨⟨lk 4 rdyF, 0, 0, .fw, _, _, rfl, rfl, by decide +kernel⟩,
   ⟨lk 3 [(P.boot, F.BOOT_STS_ready, 1), (P.lnk 0 0, F.PG_LOCK_locked, 1)], 0, 0, .fw, _, _, true, rfl, rfl, by decide +kernel⟩⟩

/-- The hypotheses of `Obligations.ResetResults` (part 1) are met. -/
theorem witness_ResetResults_1 :
    (∃ (s : Machine.State) (rq : Requester) (target : Fin 512) (x : ℕ) (k : Fin 8) (r : ℕ → Rst), (∀ (k : ℕ), r k = { scope := k, target := ↑target, start := s.now, absorbed := false, rebuilt := false, sub := false, drainUs := 0, limitHit := false }) ∧ x = s.physOf ↑target ∧ s.grants rq (P.hub 2) = true ∧ s.inShutdown = false ∧ s.flag (P.hub 2) F.HUB_RST_CMD_go = false ∧ ↑target < 448 ∧ s.online ↑target = true ∧ (∀ a ∈ s.rsts, s.rstCovers a (r 1) = false) ∧ ((s.jobsWhere fun j => j.ranks.contains x) = []) ∧ ↑target < 64 ∧ s.fenced (↑target / 8) = false ∧ (∀ a ∈ s.rsts, s.rstCovers a (r 2) = false) ∧ ((s.jobsWhere fun j => j.ranks.any fun x => x / 8 == ↑target) = []) ∧ ↑target < 8 ∧ (∀ a ∈ s.rsts, s.rstCovers a (r 4) = false) ∧ s.ptsOnTile ↑target = [] ∧ s.findRst ↑k ↑target = none) ∧
    (∃ (s : Machine.State) (target : Fin 512) (x : ℕ) (k : Fin 8) (r : Rst), x = s.physOf ↑target ∧ s.findRst ↑k ↑target = some r ∧ r.absorbed = true ∧ s.findRst 1 ↑target = some r ∧ r.rebuilt = false ∧ (s.logicalOf x).isSome = true) ∧
    (∃ (s : Machine.State) (rq : Requester) (target : Fin 512) (x : ℕ) (r : ℕ → Rst) (c : Instr), (∀ (k : ℕ), r k = { scope := k, target := ↑target, start := s.now, absorbed := false, rebuilt := false, sub := false, drainUs := 0, limitHit := false }) ∧ x = s.physOf ↑target ∧ s.grants rq (P.hub 2) = true ∧ s.inShutdown = false ∧ s.flag (P.hub 2) F.HUB_RST_CMD_go = true ∧ (c = Instr.coreReset rq target ∨ c = Instr.clusterReset rq target ∨ c = Instr.tileReset rq target)) ∧
    (∃ (s : Machine.State) (rq : Requester) (target : Fin 512) (x : ℕ) (r : ℕ → Rst), x = s.physOf ↑target ∧ (∀ (k : ℕ), r k = { scope := k, target := ↑target, start := s.now, absorbed := false, rebuilt := false, sub := false, drainUs := 0, limitHit := false }) ∧ s.grants rq (P.hub 2) = true ∧ s.inShutdown = false ∧ s.flag (P.hub 2) F.HUB_RST_CMD_go = false ∧ (448 ≤ ↑target ∨ s.online ↑target = false)) ∧
    (∃ (s : Machine.State) (target : Fin 512) (x : ℕ) (r : Rst), x = s.physOf ↑target ∧ s.findRst 1 ↑target = some r ∧ r.absorbed = false ∧ ((s.jobsWhere fun j => j.ranks.contains x) = [])) ∧
    (∃ (s : Machine.State) (rq : Requester) (target : Fin 512) (x : ℕ) (r : ℕ → Rst) (c : Instr), x = s.physOf ↑target ∧ (∀ (k : ℕ), r k = { scope := k, target := ↑target, start := s.now, absorbed := false, rebuilt := false, sub := false, drainUs := 0, limitHit := false }) ∧ s.grants rq (P.hub 2) = true ∧ s.inShutdown = true ∧ (c = Instr.coreReset rq target ∨ c = Instr.clusterReset rq target ∨ c = Instr.tileReset rq target)) :=
  ⟨⟨rstS [] on0, .fw, 0, 0, 1, fun k => { scope := k, target := ↑0, start := (rstS [] on0).now, absorbed := false, rebuilt := false, sub := false, drainUs := 0, limitHit := false }, fun _ => rfl, by decide +kernel⟩,
   ⟨rstS [rst1 true false] on0, 0, 0, 1, { scope := 1, target := 0, start := 0, absorbed := true, rebuilt := false, sub := false, drainUs := 0, limitHit := false }, by decide +kernel⟩,
   ⟨rstS [] goBit, .fw, 0, 0, fun k => { scope := k, target := ↑0, start := (rstS [] goBit).now, absorbed := false, rebuilt := false, sub := false, drainUs := 0, limitHit := false }, .coreReset .fw 0, fun _ => rfl, by decide +kernel⟩,
   ⟨rstS [] on0, .fw, 7, _, fun k => { scope := k, target := ↑7, start := (rstS [] on0).now, absorbed := false, rebuilt := false, sub := false, drainUs := 0, limitHit := false }, rfl, fun _ => rfl, by decide +kernel⟩,
   ⟨rstS [rst1 false false] on0, 0, 0, { scope := 1, target := 0, start := 0, absorbed := false, rebuilt := false, sub := false, drainUs := 0, limitHit := false }, by decide +kernel⟩,
   ⟨rstS [] [(P.thm 0, F.THM_STS_shutdown, 1)], .fw, 0, _, rstNew 0, .coreReset .fw 0, rfl, fun _ => rfl, by decide +kernel⟩⟩

/-- The hypotheses of `Obligations.ResetResults` (part 2) are met. -/
theorem witness_ResetResults_2 :
    ∃ (s : Machine.State) (target : Fin 512) (x : ℕ) (r : Rst), x = s.physOf ↑target ∧ s.findRst 1 ↑target = some r ∧ r.absorbed = true ∧ r.rebuilt = true ∧ s.coreSt x ≠ 1 ∧ s.flag (P.hub 2) F.HUB_RST_CMD_go = true ∧ s.hubRst = (1, ↑target) :=
  ⟨{ rstS [rst1 true true] goBit with hubRst := (1, 0) }, 0, _, rst1 true true, rfl, by decide +kernel⟩

/-- The hypotheses of `Obligations.PartitionResults` (part 1) are met. -/
theorem witness_PartitionResults_1 :
    (∃ (s : Machine.State) (rq : Requester) (p : Fin 8), s.grants rq (P.pt ↑p) = true ∧ s.flag (P.pt ↑p) F.PT_CMD_go = false ∧ s.ptState ↑p ≠ 0 ∧ s.inShutdown = false ∧ s.ptState ↑p = 2 ∧ (∀ a ∈ s.rsts, s.rstCovers a { scope := 3, target := ↑p, start := s.now, absorbed := false, rebuilt := false, sub := false, drainUs := 0, limitHit := false } = false) ∧ s.tenantsOf ↑p = [] ∧ ((s.jobsWhere fun j => j.part == ↑p) = []) ∧ (∀ h < 16, s.hpcGranted h = false) ∧ (s.ptState ↑p = 2 ∨ s.ptState ↑p = 4) ∧ s.mayDissolve ↑p = true) ∧
    (∃ (s : Machine.State) (rq : Requester) (p : Fin 8) (u : Machine.State) (w : Machine.State), u = ((s.setFld (P.pt ↑p) F.PT_CMD_op 1).setFlag (P.pt ↑p) F.PT_CMD_go true).setPtState (↑p) 1 ∧ s.grants rq (P.pt ↑p) = true ∧ s.flag (P.pt ↑p) F.PT_CMD_go = false ∧ s.ptState ↑p = 0 ∧ s.ptCheck ↑p = none ∧ u.ptTested ↑p = false ∧ u.ptCheck ↑p = none ∧ u.rebuild (↑p) true false = (w, true) ∧ s.inShutdown = false ∧ (s.ptState ↑p = 0 ∨ s.ptState ↑p = 1)) ∧
    (∃ (s : Machine.State) (rq : Requester) (p : Fin 8) (u : Machine.State), u = ((s.setFld (P.pt ↑p) F.PT_CMD_op 1).setFlag (P.pt ↑p) F.PT_CMD_go true).setPtState (↑p) 1 ∧ s.grants rq (P.pt ↑p) = true ∧ s.flag (P.pt ↑p) F.PT_CMD_go = false ∧ s.ptState ↑p = 0 ∧ s.ptCheck ↑p = none ∧ u.ptTested ↑p = true) ∧
    (∃ (s : Machine.State) (rq : Requester) (p : Fin 8), s.grants rq (P.pt ↑p) = true ∧ s.flag (P.pt ↑p) F.PT_CMD_go = false ∧ (s.ptState ↑p = 2 ∨ s.ptState ↑p = 4) ∧ s.mayDissolve ↑p = false) ∧
    (∃ (s : Machine.State) (rq : Requester) (p : Fin 8) (c : Instr), s.grants rq (P.pt ↑p) = true ∧ s.flag (P.pt ↑p) F.PT_CMD_go = true ∧ (c = Instr.partitionBuild rq p ∨ c = Instr.partitionReset rq p ∨ c = Instr.partitionDissolve rq p)) ∧
    (∃ (s : Machine.State) (rq : Requester) (p : Fin 8), s.grants rq (P.pt ↑p) = true ∧ s.flag (P.pt ↑p) F.PT_CMD_go = false ∧ s.inShutdown = true) :=
  ⟨⟨pt0 2, .fw, 0, by decide +kernel⟩,
   ⟨pt0 0, .fw, 0, _, (((((pt0 0).setFld (P.pt ↑0) F.PT_CMD_op 1).setFlag (P.pt ↑0) F.PT_CMD_go true).setPtState (↑0) 1).rebuild (↑0) true false).1, rfl, by decide +kernel⟩,
   ⟨pt0 0 [(P.scbP 0, F.SCB_BIST_start, 1)], .fw, 0, _, rfl, by decide +kernel⟩,
   ⟨pt0 4 [(P.disp 1, F.DISP_TN_BIND_valid 1, 1)], .fw, 0, by decide +kernel⟩,
   ⟨pt0 0 [(P.pt 0, F.PT_CMD_go, 1)], .fw, 0, .partitionBuild .fw 0, by decide +kernel⟩,
   ⟨pt0 2 [(P.thm 0, F.THM_STS_shutdown, 1)], .fw, 0, by decide +kernel⟩⟩

/-- The hypotheses of `Obligations.PartitionResults` (part 2) are met. -/
theorem witness_PartitionResults_2 :
    ∃ (s : Machine.State) (rq : Requester) (p : Fin 8) (r : ℕ), s.grants rq (P.pt ↑p) = true ∧ s.flag (P.pt ↑p) F.PT_CMD_go = false ∧ s.ptState ↑p = 0 ∧ s.ptCheck ↑p = some r :=
  ⟨put rdyF State.reset, .fw, 0, 1, by decide +kernel⟩

/-- The hypotheses of `Obligations.QueuesAndDescriptors` (part 1) are met. -/
theorem witness_QueuesAndDescriptors_1 :
    (∃ (s : Machine.State) (rq : Requester) (n : Fin 128) (q : Fin 8) (pg : ℕ) (cfg : Word) (u : Machine.State), pg = P.queue ↑n ↑q ∧ u = (((((s.setFld pg F.Q_SQ_CFG_priority (bits (BitVec.toNat cfg) 5 2)).setFld pg F.Q_SQ_CFG_log2_size (bits (BitVec.toNat cfg) 1 4)).setFld pg F.Q_SQ_CFG_ordered (bits (BitVec.toNat cfg) 7 1)).setFld pg F.Q_SQ_CFG_dup_en (bits (BitVec.toNat cfg) 8 1)).setFld pg F.Q_SQ_CFG_base (bits (BitVec.toNat cfg) 11 17)).setFlag pg F.Q_SQ_CFG_enable true ∧ s.grantsTen rq (↑n) (↑q + 1) = true ∧ s.takesBells ↑n ↑q = false ∧ s.flag pg F.Q_SQ_CFG_enable = false ∧ ((s.queue ↑n ↑q).unsignalled = 0 ∨ qf s (↑n) (↑q) F.Q_CQ_CFG_coal_us = 0) ∧ (s.qState ↑n ↑q = 2 ∨ s.cqOut ↑n ↑q = 0) ∧ (s.mayFetch ↑n ↑q = false ∨ 64 ≤ (s.queue ↑n ↑q).fetched.length) ∧ s.startHead ↑n ↑q = none) ∧
    (∃ (s : Machine.State) (rq : Requester) (n : Fin 128) (q : Fin 8) (pg : ℕ) (v : BitVec 16) (d : ℕ), pg = P.queue ↑n ↑q ∧ d = sub16 v.toNat (s.sqTail ↑n ↑q) ∧ s.grantsTen rq (↑n) (↑q + 1) = true ∧ s.takesBells ↑n ↑q = true ∧ 1 ≤ d ∧ d ≤ s.sqFree ↑n ↑q ∧ s.qState ↑n ↑q ≠ 2 ∧ s.cqOut ↑n ↑q ≠ 0) ∧
    (∃ (s : Machine.State) (rq : Requester) (n : Fin 128) (q : Fin 8) (pg : ℕ) (v : BitVec 16) (d : ℕ), pg = P.queue ↑n ↑q ∧ d = sub16 v.toNat (s.sqTail ↑n ↑q) ∧ s.grantsTen rq (↑n) (↑q + 1) = true ∧ s.takesBells ↑n ↑q = true ∧ d = 0 ∧ (s.queue ↑n ↑q).unsignalled ≠ 0 ∧ qf s (↑n) (↑q) F.Q_CQ_CFG_coal_us ≠ 0 ∧ (s.port (s.tnPort ↑n)).d3 = false) ∧
    (∃ (s : Machine.State) (rq : Requester) (n : Fin 128) (q : Fin 8) (pg : ℕ) (v : BitVec 16) (d : ℕ), pg = P.queue ↑n ↑q ∧ d = sub16 v.toNat (s.cqHead ↑n ↑q) ∧ s.grantsTen rq (↑n) (↑q + 1) = true ∧ (s.qState ↑n ↑q = 1 ∨ s.qState ↑n ↑q = 3) ∧ s.tnState ↑n ≠ 3 ∧ d ≤ s.cqOut ↑n ↑q ∧ 1 ≤ d ∧ (s.queue ↑n ↑q).heldReport = [] ∧ (s.queue ↑n ↑q).ended = [] ∧ (s.ten ↑n).cancel = none) ∧
    (∃ (s : Machine.State) (rq : Requester) (n : Fin 128) (q : Fin 8) (pg : ℕ) (v : BitVec 16) (d : ℕ), pg = P.queue ↑n ↑q ∧ d = sub16 v.toNat (s.cqHead ↑n ↑q) ∧ s.grantsTen rq (↑n) (↑q + 1) = true ∧ (s.qState ↑n ↑q = 1 ∨ s.qState ↑n ↑q = 3) ∧ s.tnState ↑n ≠ 3 ∧ d ≤ s.cqOut ↑n ↑q ∧ d = 0) ∧
    (∃ (s : Machine.State) (n : Fin 128) (q : Fin 8) (i : ℕ) (off : ℕ) (b : List Byte) (d : Desc), i = s.sqHead ↑n ↑q ∧ off = qf s (↑n) (↑q) F.Q_SQ_CFG_base * 2048 + i % s.sqSize ↑n ↑q * 128 ∧ b = s.apRead (↑n) off 128 ∧ d = parseDesc b i s.order (s.epoch ↑n) ∧ s.mayFetch ↑n ↑q = true ∧ (s.queue ↑n ↑q).fetched.length < 64 ∧ (s.ten ↑n).cancel = none ∧ s.apPoison (↑n) off 128 = none ∧ s.descFaults (↑n) d (dfield b 9 1) = [] ∧ s.isDup (↑n) (↑q) d = false) :=
  ⟨⟨tenS [(P.queue 1 0, F.Q_SQ_CFG_enable, 0), (P.queue 1 0, F.Q_STS_state, 0)] [], .fw, 1, 0, _, 0, _, rfl, rfl, by decide +kernel⟩,
   ⟨tenS [(P.queue 1 0, F.Q_CQ_TAIL_count, 1)] [], .fw, 1, 0, _, 1, _, rfl, rfl, by decide +kernel⟩,
   ⟨(tenS [(P.queue 1 0, F.Q_CQ_CFG_coal_us, 5)] []).setQueue 1 0 { QueueSt.reset with unsignalled := 1 }, .fw, 1, 0, _, 0, _, rfl, rfl, by decide +kernel⟩,
   ⟨tenS [(P.queue 1 0, F.Q_CQ_TAIL_count, 1)] [], .fw, 1, 0, _, 1, _, rfl, rfl, by decide +kernel⟩,
   ⟨tenS [] [], .fw, 1, 0, _, 0, _, rfl, rfl, by decide +kernel⟩,
   ⟨{ tenS [(P.queue 1 0, F.Q_SQ_TAIL_count, 1)] [] with hmp := Mem.empty.wr (600 * 65536) (blk 128 [(4, 3), (9, 1)]) false }, 1, 0, _, _, _, _, rfl, rfl, rfl, rfl, by decide +kernel⟩⟩

/-- The hypotheses of `Obligations.QueuesAndDescriptors` (part 2) are met. -/
theorem witness_QueuesAndDescriptors_2 :
    (∃ (s : Machine.State) (n : Fin 128) (q : Fin 8) (d : Desc), s.startHead ↑n ↑q = some d ∧ s.writesEntries ↑n ↑q = true ∧ s.mayRequest ↑n = true ∧ (s.ten ↑n).cancel = none ∧ d.kind = 2 ∧ s.fenceDone (↑n) (↑q) d = true) ∧
    (∃ (s : Machine.State) (n : Fin 128) (q : Fin 8) (d : Desc), s.startHead ↑n ↑q = some d ∧ s.writesEntries ↑n ↑q = true ∧ s.mayRequest ↑n = true ∧ (s.ten ↑n).cancel = none ∧ d.kind = 2 ∧ s.fenceDone (↑n) (↑q) d = false) ∧
    (∃ (s : Machine.State) (n : Fin 128) (q : Fin 8) (d : Desc), s.startHead ↑n ↑q = some d ∧ s.writesEntries ↑n ↑q = true ∧ s.mayRequest ↑n = true ∧ (s.ten ↑n).cancel = none ∧ d.kind = 3) :=
  ⟨⟨tenS [] [dsc 2], 1, 0, (dsc 2 .waiting [] 0), by decide +kernel⟩,
   ⟨tenS [] [dsc 2 .running, { dsc 2 with num := 1, order := 1 }], 1, 0, { dsc 2 .waiting [] 0 with num := 1, order := 1 }, by decide +kernel⟩,
   ⟨tenS [] [dsc 3], 1, 0, (dsc 3 .waiting [] 0), by decide +kernel⟩⟩

/-- The hypotheses of `Obligations.TenantResults` are met. -/
theorem witness_TenantResults :
    (∃ (s : Machine.State) (rq : Requester) (n : Fin 128) (q : Fin 8) (w : Word) (v : ℕ) (ds : List Desc), v = BitVec.toNat w ∧ (ds =
  List.filter
    (fun d =>
      d.tag == s.fld (P.ten (↑n) 0) F.TN_CANCEL_TAG_tag &&
        match d.st with
        | DescSt.ended status detail => false
        | x => true)
    (s.queue ↑n ↑q).fetched) ∧ s.grantsTen rq (↑n) 0 = true ∧ s.tnState ↑n ≠ 3 ∧ (s.ten ↑n).cancel = none ∧ ds.length < 4096 ∧ ds = [] ∧ (s.bound ↑n = false ∨ s.inShutdown = true) ∧ s.grants rq (P.disp 1) = true ∧ s.bound ↑n = false ∧ bitOf (s.bindVal ↑n) 16 = false ∧ bitOf v 15 = true ∧ (∃ m < 128, m ≠ ↑n ∧ (s.bound m = true ∧ s.bindVal m % 256 = v % 256 ∨ ∃ b, (s.ten m).pendBind = some b ∧ bitOf b 15 = true ∧ b % 256 = v % 256))) ∧
    (∃ (s : Machine.State) (rq : Requester) (n : Fin 128) (r : Rst), s.grantsTen rq (↑n) 0 = true ∧ (s.tnState ↑n = 3 ∨ (s.ten ↑n).cancel ≠ none) ∧ s.findRst 5 ↑n = some r ∧ r.absorbed = true ∧ (s.ten ↑n).pendBind = none) ∧
    (∃ (s : Machine.State) (rq : Requester) (n : Fin 128), s.grantsTen rq (↑n) 0 = true ∧ s.bound ↑n = true ∧ s.inShutdown = false ∧ s.tnInReset ↑n = false ∧ s.tnState ↑n ≠ 4) ∧
    (∃ (s : Machine.State) (n : Fin 128) (r : Rst), s.findRst 5 ↑n = some r ∧ r.absorbed = false) ∧
    (∃ (s : Machine.State) (rq : Requester) (n : Fin 128) (w : Word) (v : ℕ), v = BitVec.toNat w ∧ s.grants rq (P.disp 1) = true ∧ s.tnState ↑n ≠ 3 ∧ s.bound ↑n = false ∧ bitOf (s.bindVal ↑n) 16 = false ∧ bitOf v 15 = true ∧ (∀ m < 128, m ≠ ↑n → (s.bound m = true → s.bindVal m % 256 ≠ v % 256) ∧ ∀ (b : ℕ), (s.ten m).pendBind = some b → bitOf b 15 = true → b % 256 ≠ v % 256)) :=
  ⟨⟨boundAt 2 [(P.disp 1, F.DISP_TN_BIND_valid 1, 0), (P.disp 1, F.DISP_TN_BIND_enable 1, 0)], .fw, 1, 0, 0x8001, _, _, rfl, rfl, by decide +kernel⟩,
   ⟨rst5 true (tenS [] []), .fw, 1, { scope := 5, target := 1, start := 0, absorbed := true, rebuilt := false, sub := false, drainUs := 0, limitHit := false }, by decide +kernel⟩,
   ⟨tenS [] [dsc 1], .fw, 1, by decide +kernel⟩,
   ⟨rst5 false (tenS [] []), 1, { scope := 5, target := 1, start := 0, absorbed := false, rebuilt := false, sub := false, drainUs := 0, limitHit := false }, by decide +kernel⟩,
   ⟨put rdyF State.reset, .fw, 1, 0x8000, _, rfl, by decide +kernel⟩⟩

/-- The hypotheses of `Obligations.DispatchAndJobStart` (part 1) are met. -/
theorem witness_DispatchAndJobStart_1 :
    (∃ (s : Machine.State) (p : Fin 8) (u : Machine.State) (n : ℕ) (q : ℕ) (d : Desc) (k : ℕ), (u =
  s.setDsp (↑p)
    (have __src := s.dsp ↑p;
    { __src with pick := none })) ∧ s.dispPaused ↑p = false ∧ (s.dsp ↑p).tenant < 128 ∧ s.bound (s.dsp ↑p).tenant = true ∧ s.tnPart (s.dsp ↑p).tenant = ↑p ∧ (s.dsp ↑p).credit ≠ 0 ∧ (∃ r < 8, s.dispReady (↑p) (s.dsp ↑p).tenant r = true) ∧ s.pickQueue (↑p) (s.dsp ↑p).tenant (Tab.get nat0 (s.dsp ↑p).rr (s.dsp ↑p).tenant) = some q ∧ (s.dsp ↑p).pick = some (n, q) ∧ s.startHead n q = some d ∧ d.kind ≠ 1 ∧ d.kind = 4 ∧ u.resFind n d.model = some k ∧ (u.res k).wOff = d.area.getD 2 0 ∧ (u.res k).len = d.area.getD 1 0 ∧ (u.res k).entry = d.area.getD 3 0) ∧
    (∃ (s : Machine.State) (p : Fin 8) (u : Machine.State) (n : ℕ) (q : ℕ) (d : Desc), (u =
  s.setDsp (↑p)
    (have __src := s.dsp ↑p;
    { __src with pick := none })) ∧ s.dispPaused ↑p = false ∧ (∀ n < 128, s.bound n = true → s.tnPart n = ↑p → ∀ q < 8, s.dispReady (↑p) n q = false) ∧ (s.dsp ↑p).pick = some (n, q) ∧ s.startHead n q = some d ∧ d.kind = 1 ∧ u.runPlan (↑p) n d.model d.runWidth d.clu = RunPlan.wait) ∧
    (∃ (s : Machine.State) (p : Fin 8) (u : Machine.State), (u =
  s.setDsp (↑p)
    (have __src := s.dsp ↑p;
    { __src with pick := none })) ∧ s.dispPaused ↑p = true ∧ ((s.dsp ↑p).pick = none ∨ s.dispPaused ↑p = true)) ∧
    (∃ (s : Machine.State) (n : ℕ) (q : ℕ) (p : ℕ) (d : Desc) (k : ℕ) (gs : List ℕ) (gl : List ℕ) (r : ℕ) (g : ℕ) (t : Machine.State) (c : Core) (i : ℕ), (gl = gs.mergeSort fun x1 x2 => decide (x1 ≤ x2)) ∧ t = s.jobStart n q p d k gs ∧ c = t.core (s.physOf g) ∧ (List.map s.physOf gl).Nodup ∧ gl[r]? = some g ∧ n < 128 ∧ q < 8 ∧ p < 8 ∧ gs.length ≤ 7 ∧ i < 16 ∧ 4 ≤ i) ∧
    (∃ (s : Machine.State) (p : Fin 8) (u : Machine.State) (n : ℕ) (q : ℕ) (d : Desc) (k : ℕ) (gs : List ℕ) (w : Machine.State), (u =
  s.setDsp (↑p)
    (have __src := s.dsp ↑p;
    { __src with pick := none })) ∧ (s.dsp ↑p).pick = some (n, q) ∧ s.dispPaused ↑p = false ∧ s.startHead n q = some d ∧ d.kind = 1 ∧ u.runPlan (↑p) n d.model d.runWidth d.clu = RunPlan.start k ∧ ((u.rotaPick (↑p) d.runWidth fun g => u.idleCore g && (u.res k).cores.contains (u.physOf g)) = (some gs, w))) ∧
    (∃ (s : Machine.State) (p : Fin 8) (u : Machine.State) (n : ℕ) (q : ℕ) (d : Desc) (k : ℕ), (u =
  s.setDsp (↑p)
    (have __src := s.dsp ↑p;
    { __src with pick := none })) ∧ (s.dsp ↑p).pick = some (n, q) ∧ s.dispPaused ↑p = false ∧ s.startHead n q = some d ∧ d.kind = 4 ∧ u.resFind n d.model = some k ∧ ((u.res k).wOff ≠ d.area.getD 2 0 ∨ (u.res k).len ≠ d.area.getD 1 0 ∨ (u.res k).entry ≠ d.area.getD 3 0)) :=
  ⟨⟨pick (resS [0] (tenS [] [dsc 4 .waiting [0x10000, 64, 0x1000, 0, 0]])), 0, _, 1, 0, (dsc 4 .waiting [65536, 64, 4096, 0, 0] 0), 0, rfl, by decide +kernel⟩,
   ⟨pick (resS [0] (tenS [(P.core 0, F.CORE_STS_state, 4)] [dsc 1])), 0, _, 1, 0, (dsc 1 .waiting [] 0), rfl, by decide +kernel⟩,
   ⟨State.reset, 0, _, rfl, by decide +kernel⟩,
   ⟨resS [0] (tenS [] [dsc 1]), 1, 0, 0, dsc 1, 0, [0], _, 0, 0, _, _, 4, rfl, rfl, rfl, by decide +kernel⟩,
   ⟨pick (resS [0] (tenS [] [dsc 1])), 0, _, 1, 0, (dsc 1 .waiting [] 0), 0, [0], (((pick (resS [0] (tenS [] [dsc 1]))).setDsp (↑0) (have __src := (pick (resS [0] (tenS [] [dsc 1]))).dsp ↑0; { tenant := __src.tenant, credit := __src.credit, rr := __src.rr, pick := none })).rotaPick (↑0) (((pick (resS [0] (tenS [] [dsc 1]))).startHead 1 0).get (by decide +kernel)).runWidth fun g => ((pick (resS [0] (tenS [] [dsc 1]))).setDsp (↑0) (have __src := (pick (resS [0] (tenS [] [dsc 1]))).dsp ↑0; { tenant := __src.tenant, credit := __src.credit, rr := __src.rr, pick := none })).idleCore g && (((pick (resS [0] (tenS [] [dsc 1]))).setDsp (↑0) (have __src := (pick (resS [0] (tenS [] [dsc 1]))).dsp ↑0; { tenant := __src.tenant, credit := __src.credit, rr := __src.rr, pick := none })).res 0).cores.contains (((pick (resS [0] (tenS [] [dsc 1]))).setDsp (↑0) (have __src := (pick (resS [0] (tenS [] [dsc 1]))).dsp ↑0; { tenant := __src.tenant, credit := __src.credit, rr := __src.rr, pick := none })).physOf g)).2, rfl, by decide +kernel⟩,
   ⟨pick (resS [0] (tenS [] [dsc 4 .waiting [0x10000, 64, 0x2000, 0, 0]])), 0, _, 1, 0, (dsc 4 .waiting [65536, 64, 8192, 0, 0] 0), 0, rfl, by decide +kernel⟩⟩

/-- The hypotheses of `Obligations.DispatchAndJobStart` (part 2) are met. -/
theorem witness_DispatchAndJobStart_2 :
    (∃ (s : Machine.State) (p : Fin 8) (u : Machine.State) (n : ℕ) (q : ℕ) (d : Desc) (k : ℕ), (u =
  s.setDsp (↑p)
    (have __src := s.dsp ↑p;
    { __src with pick := none })) ∧ (s.dsp ↑p).pick = some (n, q) ∧ s.dispPaused ↑p = false ∧ s.startHead n q = some d ∧ d.kind = 4 ∧ u.resFind n d.model = none ∧ u.resFree = some k) ∧
    (∃ (s : Machine.State) (p : Fin 8) (u : Machine.State) (n : ℕ) (q : ℕ) (d : Desc) (k : ℕ), (u =
  s.setDsp (↑p)
    (have __src := s.dsp ↑p;
    { __src with pick := none })) ∧ (s.dsp ↑p).pick = some (n, q) ∧ s.dispPaused ↑p = false ∧ s.startHead n q = some d ∧ d.kind = 5 ∧ u.mayUnload n d.model = true ∧ u.resFind n d.model = some k) ∧
    (∃ (s : Machine.State) (p : Fin 8) (u : Machine.State) (n : ℕ) (q : ℕ) (d : Desc), (u =
  s.setDsp (↑p)
    (have __src := s.dsp ↑p;
    { __src with pick := none })) ∧ (s.dsp ↑p).pick = some (n, q) ∧ s.dispPaused ↑p = false ∧ s.startHead n q = some d ∧ d.kind = 1 ∧ u.runPlan (↑p) n d.model d.runWidth d.clu = RunPlan.noCapacity) ∧
    (∃ (s : Machine.State) (p : Fin 8) (u : Machine.State) (n : ℕ) (q : ℕ) (d : Desc) (k : ℕ) (cl : ℕ) (xs : List ℕ), (u =
  s.setDsp (↑p)
    (have __src := s.dsp ↑p;
    { __src with pick := none })) ∧ (s.dsp ↑p).pick = some (n, q) ∧ s.dispPaused ↑p = false ∧ s.startHead n q = some d ∧ d.kind = 1 ∧ u.runPlan (↑p) n d.model d.runWidth d.clu = RunPlan.load k cl xs) ∧
    (∃ (s : Machine.State) (p : Fin 8) (u : Machine.State) (n : ℕ) (q : ℕ) (d : Desc), (u =
  s.setDsp (↑p)
    (have __src := s.dsp ↑p;
    { __src with pick := none })) ∧ (s.dsp ↑p).pick = some (n, q) ∧ s.dispPaused ↑p = false ∧ s.startHead n q = some d ∧ d.kind = 1 ∧ u.runPlan (↑p) n d.model d.runWidth d.clu = RunPlan.absent) ∧
    (∃ (s : Machine.State) (p : Fin 8) (u : Machine.State) (n : ℕ) (q : ℕ) (d : Desc), (u =
  s.setDsp (↑p)
    (have __src := s.dsp ↑p;
    { __src with pick := none })) ∧ (s.dsp ↑p).pick = some (n, q) ∧ s.dispPaused ↑p = false ∧ s.startHead n q = some d ∧ d.kind = 5 ∧ u.mayUnload n d.model = true ∧ u.resFind n d.model = none) :=
  ⟨⟨pick (tenS [] [dsc 4 .waiting [0x10000, 64, 0x2000, 0, 0]]), 0, _, 1, 0, (dsc 4 .waiting [65536, 64, 8192, 0, 0] 0), 0, rfl, by decide +kernel⟩,
   ⟨pick (resS [0] (tenS [] [dsc 5])), 0, _, 1, 0, (dsc 5 .waiting [] 0), 0, rfl, by decide +kernel⟩,
   ⟨pick (resS [0] (tenS [] [{ dsc 1 with width := 2 }])), 0, _, 1, 0, { dsc 1 .waiting [] 0 with width := 2 }, rfl, by decide +kernel⟩,
   ⟨pick (resS [] (tenS [] [dsc 1])), 0, _, 1, 0, (dsc 1 .waiting [] 0), 0, 0, [0], rfl, by decide +kernel⟩,
   ⟨pick (tenS [] [dsc 1]), 0, _, 1, 0, (dsc 1 .waiting [] 0), rfl, by decide +kernel⟩,
   ⟨pick (tenS [] [dsc 5]), 0, _, 1, 0, (dsc 5 .waiting [] 0), rfl, by decide +kernel⟩⟩

/-- The hypotheses of `Obligations.DispatchAndJobStart` (part 3) are met. -/
theorem witness_DispatchAndJobStart_3 :
    ∃ (s : Machine.State) (p : Fin 8) (u : Machine.State) (n : ℕ) (q : ℕ) (d : Desc), (u =
  s.setDsp (↑p)
    (have __src := s.dsp ↑p;
    { __src with pick := none })) ∧ (s.dsp ↑p).pick = some (n, q) ∧ s.dispPaused ↑p = false ∧ s.startHead n q = some d ∧ d.kind = 5 ∧ u.mayUnload n d.model = false :=
  ⟨(pick (resS [0] (tenS [] [dsc 5]))).setJob 9 { Job.none with tn := 1, model := 7, ranks := [0] }, 0, _, 1, 0, dsc 5, rfl, by decide +kernel⟩

/-- The hypotheses of `Obligations.CopyLoadResults` (part 1) are met. -/
theorem witness_CopyLoadResults_1 :
    (∃ (s : Machine.State) (x : Fin 512) (p : Fin 8) (n : ℕ) (q : ℕ) (d : Desc) (u : Machine.State) (e : Desc) (w : Machine.State), (u =
  s.setDsp (↑p)
    (have __src := s.dsp ↑p;
    { __src with pick := none })) ∧ e = { d with st := DescSt.running, started := s.now } ∧ w = u.startDesc n q e ∧ (s.dsp ↑p).pick = some (n, q) ∧ s.dispPaused ↑p = false ∧ s.startHead n q = some d ∧ d.kind = 6 ∧ (s.fn (s.tnFn n)).bme = true ∧ bitOf d.flags 4 = true ∧ d.poison = none ∧ w.apPoison n (d.area.getD 1 0) (d.area.getD 2 0) = none ∧ (s.loadsOf ↑x = [] ∨ s.coreSt ↑x ≠ 3)) ∧
    (∃ (s : Machine.State) (x : Fin 512) (l : LoadOp) (ls : List LoadOp) (p : ℕ) (e : Resid) (u : Machine.State) (w : Machine.State) (n : Fin 128) (q : Fin 8) (i : BitVec 16), e = s.res l.res ∧ u = (s.setLoads (↑x) ls).setFlag (P.mov ↑x) F.MOV_STS_loading !ls.isEmpty ∧ w = ((u.makeRoom (↑x) e).copyImage (↑x) e).rezSet (↑x) e ∧ s.descOf (↑n) (↑q) i.toNat = none ∧ s.loadsOf ↑x = l :: ls ∧ s.coreSt ↑x = 3 ∧ s.tnState e.tn ≠ 3 ∧ s.cluPart (↑x / 8) = some p ∧ s.dispPaused p = false ∧ e.valid = true ∧ u.fwBlocks (↑x) e = false ∧ ↑x ∉ e.cores ∧ l.desc = none) ∧
    (∃ (s : Machine.State) (n : Fin 128) (q : Fin 8) (i : BitVec 16) (d : Desc) (off : BitVec 25) (data : List Byte) (a : ℕ), s.descOf (↑n) (↑q) i.toNat = some d ∧ d.kind = 6 ∧ d.st = DescSt.running ∧ off.toNat + data.length < d.area.getD 2 0 ∧ d.moved + data.length < d.area.getD 2 0 ∧ data ≠ [] ∧ (d.area.getD 1 0 + off.toNat) % 64 + data.length ≤ 64 ∧ s.apAddr (↑n) (d.area.getD 1 0 + off.toNat) = some a) ∧
    (∃ (s : Machine.State) (n : Fin 128) (q : Fin 8) (i : BitVec 16) (d : Desc) (off : BitVec 25) (data : List Byte) (m : ℕ), m = d.moved + data.length ∧ s.descOf (↑n) (↑q) i.toNat = some d ∧ d.kind = 6 ∧ d.st = DescSt.running ∧ d.poison = none ∧ off.toNat + data.length ≤ d.area.getD 2 0 ∧ d.area.getD 2 0 ≤ m) ∧
    (∃ (s : Machine.State) (p : Fin 8) (n : ℕ) (q : ℕ) (d : Desc) (u : Machine.State) (e : Desc) (w : Machine.State), (u =
  s.setDsp (↑p)
    (have __src := s.dsp ↑p;
    { __src with pick := none })) ∧ e = { d with st := DescSt.running, started := s.now } ∧ w = u.startDesc n q e ∧ (s.dsp ↑p).pick = some (n, q) ∧ s.dispPaused ↑p = false ∧ s.startHead n q = some d ∧ d.kind = 6 ∧ (s.fn (s.tnFn n)).bme = true ∧ bitOf d.flags 4 = false) ∧
    (∃ (s : Machine.State) (p : Fin 8) (n : ℕ) (q : ℕ) (d : Desc) (u : Machine.State) (e : Desc) (w : Machine.State), (u =
  s.setDsp (↑p)
    (have __src := s.dsp ↑p;
    { __src with pick := none })) ∧ e = { d with st := DescSt.running, started := s.now } ∧ w = u.startDesc n q e ∧ (s.dsp ↑p).pick = some (n, q) ∧ s.dispPaused ↑p = false ∧ s.startHead n q = some d ∧ d.kind = 6 ∧ (s.fn (s.tnFn n)).bme = false) :=
  ⟨⟨pick (tenS [] [dsc 6 .waiting [0x1000, 0x10000, 64] 0x10]), 0, 0, 1, 0, (dsc 6 .waiting [4096, 65536, 64] 16), _, _, _, rfl, rfl, rfl, by decide +kernel⟩,
   ⟨(resS [] (tenS [] [])).setLoads 0 [⟨0, none⟩], 0, { res := 0, desc := none }, [], 0, _, _, _, 0, 0, 0, rfl, rfl, rfl, by decide +kernel⟩,
   ⟨tenS [] [dsc 6 .running [0x1000, 0x10000, 64]], 1, 0, 0, (dsc 6 .running [4096, 65536, 64] 0), 0, [1, 2], 39387136, by decide +kernel⟩,
   ⟨tenS [] [dsc 6 .running [0x1000, 0x10000, 64]], 1, 0, 0, (dsc 6 .running [4096, 65536, 64] 0), 0, List.replicate 64 3, _, rfl, by decide +kernel⟩,
   ⟨pick (tenS [] [dsc 6 .waiting [0x1000, 0x10000, 64]]), 0, 1, 0, (dsc 6 .waiting [4096, 65536, 64] 0), _, _, _, rfl, rfl, rfl, by decide +kernel⟩,
   ⟨pick (bme0 (tenS [] [dsc 6 .waiting [0x1000, 0x10000, 64]])), 0, 1, 0, (dsc 6 .waiting [4096, 65536, 64] 0), _, _, _, rfl, rfl, rfl, by decide +kernel⟩⟩

/-- The hypotheses of `Obligations.CopyLoadResults` (part 2) are met. -/
theorem witness_CopyLoadResults_2 :
    (∃ (s : Machine.State) (p : Fin 8) (n : ℕ) (q : ℕ), (∀ (m r : ℕ), m < 128 → r < 8 → s.bound m = true → s.tnPart m = ↑p → s.dispReady (↑p) m r = true → m = n ∧ r = q) ∧ s.dispPaused ↑p = false ∧ n < 128 ∧ q < 8 ∧ s.bound n = true ∧ s.tnPart n = ↑p ∧ s.dispReady (↑p) n q = true) ∧
    (∃ (s : Machine.State) (p : Fin 8) (n : ℕ) (q : ℕ) (d : Desc) (u : Machine.State) (k : ℕ) (gs : List ℕ) (w : Machine.State), (u =
  s.setDsp (↑p)
    (have __src := s.dsp ↑p;
    { __src with pick := none })) ∧ (s.dsp ↑p).pick = some (n, q) ∧ s.dispPaused ↑p = false ∧ s.startHead n q = some d ∧ d.kind = 1 ∧ u.runPlan (↑p) n d.model d.runWidth d.clu = RunPlan.start k ∧ ((u.rotaPick (↑p) d.runWidth fun g => u.idleCore g && (u.res k).cores.contains (u.physOf g)) = (some gs, w)) ∧ (List.map s.physOf gs).Nodup) ∧
    (∃ (s : Machine.State) (p : Fin 8) (n : ℕ) (q : ℕ) (d : Desc) (u : Machine.State) (k : ℕ) (e : Resid) (v : Machine.State) (cands : List ℕ), (u =
  s.setDsp (↑p)
    (have __src := s.dsp ↑p;
    { __src with pick := none })) ∧ e = { valid := true, tn := n, model := d.model, image := d.area.getD 0 0, len := d.area.getD 1 0, wOff := d.area.getD 2 0, entry := d.area.getD 3 0, cores := [], loadedNext := false, lastRun := [] } ∧ v = u.setRes k e ∧ cands = List.take (d.area.getD 4 0) (v.loadCands (↑p) e k) ∧ (s.dsp ↑p).pick = some (n, q) ∧ s.dispPaused ↑p = false ∧ s.startHead n q = some d ∧ d.kind = 4 ∧ u.resFind n d.model = none ∧ d.area.getD 4 0 ≠ 0 ∧ u.resFree = some k ∧ cands ≠ []) ∧
    (∃ (s : Machine.State) (p : Fin 8) (n : ℕ) (q : ℕ) (d : Desc) (u : Machine.State) (k : ℕ), (u =
  s.setDsp (↑p)
    (have __src := s.dsp ↑p;
    { __src with pick := none })) ∧ (s.dsp ↑p).pick = some (n, q) ∧ s.dispPaused ↑p = false ∧ s.startHead n q = some d ∧ d.kind = 5 ∧ u.mayUnload n d.model = true ∧ s.entryGoes n q = true ∧ (s.ten n).cancel = none ∧ u.resFind n d.model = some k) :=
  ⟨⟨resS [0] (tenS [] [dsc 1]), 0, 1, 0, only_ready (by decide +kernel), by decide +kernel⟩,
   ⟨pick (resS [0] (tenS [] [dsc 1])), 0, 1, 0, dsc 1, _, 0, [0], ((taken0 (pick (resS [0] (tenS [] [dsc 1])))).rotaPick 0 (dsc 1).runWidth fun g => (taken0 (pick (resS [0] (tenS [] [dsc 1])))).idleCore g && ((taken0 (pick (resS [0] (tenS [] [dsc 1])))).res 0).cores.contains ((taken0 (pick (resS [0] (tenS [] [dsc 1])))).physOf g)).2, rfl, by decide +kernel⟩,
   ⟨pick (tenS [] [dsc 4 .waiting [0x10000, 64, 0x1000, 0, 1]]), 0, 1, 0, dsc 4 .waiting [0x10000, 64, 0x1000, 0, 1], _, 0, _, _, _, rfl, rfl, rfl, rfl, by decide +kernel⟩,
   ⟨pick (resS [0] (tenS [] [dsc 5])), 0, 1, 0, dsc 5, _, 0, rfl, by decide +kernel⟩⟩

/-- The hypotheses of `Obligations.RegisterReadAndWrite` (part 1) are met. -/
theorem witness_RegisterReadAndWrite_1 :
    (∃ (s : Machine.State) (rq : Requester) (pg : ℕ) (off : ℕ) (i : PageInfo) (addr : BitVec 28) (n : ℕ) (w : Word) (p : Fin 4) (be : BitVec 4), pageInfo pg = some i ∧ off % 4 = 0 ∧ off < 4096 ∧ s.grants rq pg = true ∧ addr.toNat = pg * 4096 + off ∧ addr.toNat < 2 ^ 27 ∧ 64 ≤ off ∧ s.hook rq pg i off (i.layout.keep off (BitVec.toNat w)) = none ∧ s.lockHits pg i off (i.layout.keep off (BitVec.toNat w)) = false ∧ be ≠ 15 ∧ s.reach (Requester.pf p) = true ∧ ↑p ≠ s.owner ∧ s.portClear ↑p = true ∧ addr.toNat % 4 = 0 ∧ s.reach rq = true ∧ (rq = Requester.mgt ∨ rq = Requester.fw ∨ ∃ p, rq = Requester.pf p ∧ ↑p = s.owner) ∧ s.unavailable pg = false ∧ s.tileBusy pg = false ∧ (n = 0 ∨ 16 < n) ∧ pg ≠ 0) ∧
    (∃ (s : Machine.State) (pg : ℕ) (off : ℕ) (i : PageInfo) (addr : BitVec 28) (w : Word) (n : Fin 128) (k : ℕ), (∀ (v : ℕ), s.hook (Requester.tenant n) pg i off v = none) ∧ pageInfo pg = some i ∧ off % 4 = 0 ∧ off < 4096 ∧ k < 16 ∧ pg = P.ten (↑n) k ∧ addr.toNat = k * 4096 + off ∧ s.grantsTen (Requester.tenant n) (↑n) k = true ∧ s.unavailable pg = false ∧ 64 ≤ off ∧ (∀ e ∈ i.layout.fldsAt off, e.1.ten = Acc.ro ∧ e.1.priv = Acc.ro ∧ e.2.of (BitVec.toNat w) = s.fieldVal pg i e.2)) ∧
    (∃ (s : Machine.State) (rq : Requester) (pg : ℕ) (off : ℕ) (addr : BitVec 28) (i : PageInfo), off % 4 = 0 ∧ off < 4096 ∧ addr.toNat = pg * 4096 + off ∧ addr.toNat < 2 ^ 27 ∧ (rq = Requester.mgt ∨ rq = Requester.fw ∨ ∃ p, rq = Requester.pf p ∧ ↑p = s.owner) ∧ s.reach rq = true ∧ pageInfo pg = some i ∧ s.unavailable pg = true ∧ off ≠ 0 ∧ off ≠ 4 ∧ off ≠ 16 ∧ off ≠ 48) ∧
    (∃ (s : Machine.State) (rq : Requester) (pg : ℕ) (off : ℕ) (i : PageInfo) (addr : BitVec 28) (w : Word), pageInfo pg = some i ∧ off % 4 = 0 ∧ off < 4096 ∧ s.grants rq pg = true ∧ addr.toNat = pg * 4096 + off ∧ addr.toNat < 2 ^ 27 ∧ 64 ≤ off ∧ s.hook rq pg i off (i.layout.keep off (BitVec.toNat w)) = none ∧ s.lockHits pg i off (i.layout.keep off (BitVec.toNat w)) = true) ∧
    (∃ (s : Machine.State) (rq : Requester) (pg : ℕ) (off : ℕ) (i : PageInfo) (addr : BitVec 28) (w : Word) (t : Machine.State), pageInfo pg = some i ∧ off % 4 = 0 ∧ off < 4096 ∧ s.grants rq pg = true ∧ addr.toNat = pg * 4096 + off ∧ addr.toNat < 2 ^ 27 ∧ s.hook rq pg i off (i.layout.keep off (BitVec.toNat w)) = some t ∧ 64 ≤ off) ∧
    (∃ (s : Machine.State) (rq : Requester) (pg : ℕ) (off : ℕ) (i : PageInfo), pageInfo pg = some i ∧ off % 4 = 0 ∧ off < 4096 ∧ s.reach rq = false) :=
  ⟨⟨rdy, .fw, 0x60, 0x044, { layout := Layout.hpt, block := 8, page := 0, inst := 0, tenantPage := false }, 0x60044, 0, 0, 1, 0, by decide +kernel⟩,
   ⟨rdy, 0x419, 0x044, { layout := Layout.tn9, block := 5, page := 9, inst := 1, tenantPage := true }, 0x9044, 0, 1, 9, fun _ => rfl, by decide +kernel⟩,
   ⟨State.reset, .fw, 0x60, 0x044, 0x60044, { layout := Layout.hpt, block := 8, page := 0, inst := 0, tenantPage := false }, by decide +kernel⟩,
   ⟨lockS 0x60, .fw, 0x60, 0x044, { layout := Layout.hpt, block := 8, page := 0, inst := 0, tenantPage := false }, 0x60044, 0xF, by decide +kernel⟩,
   ⟨rdy, .fw, 0xB0, 0x04C, { layout := Layout.trl, block := 12, page := 0, inst := 0, tenantPage := false }, 0xB004C, 0xF, ((rdy.hook Requester.fw 176 (⟨.trl, 12, 0, 0, false⟩ : PageInfo) 76 ((⟨.trl, 12, 0, 0, false⟩ : PageInfo).layout.keep 76 (BitVec.toNat (0xF : Word)))).get (by decide +kernel)), by decide +kernel⟩,
   ⟨State.reset, .tenant 5, 0x60, 0x044, { layout := Layout.hpt, block := 8, page := 0, inst := 0, tenantPage := false }, by decide +kernel⟩⟩

/-- The hypotheses of `Obligations.RegisterReadAndWrite` (part 2) are met. -/
theorem witness_RegisterReadAndWrite_2 :
    (∃ (s : Machine.State) (rq : Requester) (pg : ℕ) (off : ℕ) (addr : BitVec 28) (i : PageInfo), off % 4 = 0 ∧ off < 4096 ∧ addr.toNat = pg * 4096 + off ∧ addr.toNat < 2 ^ 27 ∧ (rq = Requester.mgt ∨ rq = Requester.fw ∨ ∃ p, rq = Requester.pf p ∧ ↑p = s.owner) ∧ s.reach rq = true ∧ pageInfo pg = some i ∧ s.unavailable pg = true ∧ off = 0) ∧
    (∃ (s : Machine.State) (rq : Requester) (pg : ℕ) (off : ℕ) (addr : BitVec 28) (i : PageInfo), off % 4 = 0 ∧ off < 4096 ∧ addr.toNat = pg * 4096 + off ∧ addr.toNat < 2 ^ 27 ∧ (rq = Requester.mgt ∨ rq = Requester.fw ∨ ∃ p, rq = Requester.pf p ∧ ↑p = s.owner) ∧ s.reach rq = true ∧ pageInfo pg = some i ∧ s.unavailable pg = false ∧ s.tileBusy pg = false ∧ off = 0) ∧
    (∃ (s : Machine.State) (rq : Requester) (pg : ℕ) (off : ℕ) (addr : BitVec 28) (i : PageInfo), off % 4 = 0 ∧ off < 4096 ∧ addr.toNat = pg * 4096 + off ∧ addr.toNat < 2 ^ 27 ∧ (rq = Requester.mgt ∨ rq = Requester.fw ∨ ∃ p, rq = Requester.pf p ∧ ↑p = s.owner) ∧ s.reach rq = true ∧ pageInfo pg = some i ∧ s.unavailable pg = false ∧ s.tileBusy pg = false ∧ off = 4) ∧
    (∃ (s : Machine.State) (rq : Requester) (pg : ℕ) (off : ℕ) (addr : BitVec 28) (i : PageInfo), off % 4 = 0 ∧ off < 4096 ∧ addr.toNat = pg * 4096 + off ∧ addr.toNat < 2 ^ 27 ∧ (rq = Requester.mgt ∨ rq = Requester.fw ∨ ∃ p, rq = Requester.pf p ∧ ↑p = s.owner) ∧ s.reach rq = true ∧ pageInfo pg = some i ∧ s.unavailable pg = false ∧ s.tileBusy pg = false ∧ off = 32) ∧
    (∃ (s : Machine.State) (rq : Requester) (pg : ℕ) (off : ℕ) (addr : BitVec 28) (i : PageInfo), off % 4 = 0 ∧ off < 4096 ∧ addr.toNat = pg * 4096 + off ∧ addr.toNat < 2 ^ 27 ∧ (rq = Requester.mgt ∨ rq = Requester.fw ∨ ∃ p, rq = Requester.pf p ∧ ↑p = s.owner) ∧ s.reach rq = true ∧ pageInfo pg = some i ∧ s.unavailable pg = false ∧ s.tileBusy pg = false ∧ (off = 12 ∨ off = 28)) ∧
    (∃ (s : Machine.State) (pg : ℕ) (off : ℕ) (addr : BitVec 28) (n : Fin 128), off % 4 = 0 ∧ off < 4096 ∧ addr.toNat = pg * 4096 + off ∧ addr.toNat < 2 ^ 27 ∧ s.reach (Requester.tenant n) = true ∧ pg < 16 ∧ 1024 ≤ P.ten (↑n) pg ∧ pageInfo (P.ten (↑n) pg) = none) :=
  ⟨⟨State.reset, .fw, 0x60, 0, 0x60000, { layout := Layout.hpt, block := 8, page := 0, inst := 0, tenantPage := false }, by decide +kernel⟩,
   ⟨rdy, .fw, 0x60, 0, 0x60000, { layout := Layout.hpt, block := 8, page := 0, inst := 0, tenantPage := false }, by decide +kernel⟩,
   ⟨rdy, .fw, 0x60, 4, 0x60004, { layout := Layout.hpt, block := 8, page := 0, inst := 0, tenantPage := false }, by decide +kernel⟩,
   ⟨rdy, .fw, 0x60, 0x20, 0x60020, { layout := Layout.hpt, block := 8, page := 0, inst := 0, tenantPage := false }, by decide +kernel⟩,
   ⟨rdy, .fw, 0x60, 0xC, 0x6000C, { layout := Layout.hpt, block := 8, page := 0, inst := 0, tenantPage := false }, by decide +kernel⟩,
   ⟨rdy, 15, 0, 0xF000, 1, by decide +kernel⟩⟩

/-- The hypotheses of `Obligations.RegisterReadAndWrite` (part 3) are met. -/
theorem witness_RegisterReadAndWrite_3 :
    (∃ (s : Machine.State) (rq : Requester) (pg : ℕ) (off : ℕ) (addr : BitVec 28), off % 4 = 0 ∧ off < 4096 ∧ addr.toNat = pg * 4096 + off ∧ addr.toNat < 2 ^ 27 ∧ (rq = Requester.mgt ∨ rq = Requester.fw ∨ ∃ p, rq = Requester.pf p ∧ ↑p = s.owner) ∧ s.reach rq = true ∧ pageInfo pg = none) ∧
    (∃ (s : Machine.State) (pg : ℕ) (off : ℕ) (addr : BitVec 28), off % 4 = 0 ∧ off < 4096 ∧ addr.toNat = pg * 4096 + off ∧ addr.toNat < 2 ^ 27 ∧ s.devFailed = true ∧ s.aoUp = true) ∧
    (∃ (s : Machine.State) (rq : Requester) (pg : ℕ) (off : ℕ) (i : PageInfo) (addr : BitVec 28), pageInfo pg = some i ∧ off % 4 = 0 ∧ off < 4096 ∧ s.reach rq = true ∧ s.tileBusy pg = true ∧ (∀ (n : Fin 128), rq ≠ Requester.tenant n) ∧ (∀ (p : Fin 4), rq = Requester.pf p → ↑p = s.owner ∧ s.portClear ↑p = true) ∧ addr.toNat = pg * 4096 + off ∧ addr.toNat < 2 ^ 27) :=
  ⟨⟨State.reset, .fw, 17, 0, 0x11000, by decide +kernel⟩,
   ⟨failed rdy, 0x60, 0, 0x60000, by decide +kernel⟩,
   ⟨busy0, .fw, P.lnk 0 0, 0x40, (pageInfo (P.lnk 0 0)).get (by decide +kernel), BitVec.ofNat 28 (P.lnk 0 0 * 4096 + 0x40), by decide +kernel⟩⟩

/-- The hypotheses of `Obligations.PageHeaderCommands` are met. -/
theorem witness_PageHeaderCommands :
    (∃ (s : Machine.State) (pg : BitVec 16) (i : PageInfo) (v : Word) (n : Fin 128), s.grantsTen (Requester.tenant n) (↑n) pg.toNat = true ∧ pg.toNat < 16 ∧ pageInfo (P.ten (↑n) pg.toNat) = some i ∧ s.unavailable (P.ten (↑n) pg.toNat) = false ∧ (v &&& BitVec.ofNat 32 i.layout.intMask ≠ 0)) ∧
    (∃ (s : Machine.State) (rq : Requester) (pg : BitVec 16) (i : PageInfo) (p : Fin 4), s.grants rq pg.toNat = true ∧ pageInfo pg.toNat = some i ∧ pg.toNat < 32768 ∧ s.reach (Requester.pf p) = true ∧ ↑p ≠ s.owner ∧ s.portClear ↑p = true) :=
  ⟨⟨rdy, 11, ⟨.tn11, 2, 11, 1, true⟩, 3, 1, by decide +kernel⟩,
   ⟨rdy, .fw, 0x60, { layout := Layout.hpt, block := 8, page := 0, inst := 0, tenantPage := false }, 1, by decide +kernel⟩⟩

/-- The hypotheses of `Obligations.HamperRequests` (part 1) are met. -/
theorem witness_HamperRequests_1 :
    (∃ (s : Machine.State) (n : Fin 128) (p : Fin 4) (rid : BitVec 16) (off : BitVec 28) (data : List Byte) (len : ℕ) (c : ℕ) (a : ℕ) (m : Mem) (w : HmpWr) (ws : List HmpWr), a = c * 65536 + off.toNat % 65536 ∧ m = (s.landClient (s.tnPort ↑n)).hmp ∧ s.hmpPend = w :: ws ∧ s.reach (Requester.tenant n) = true ∧ s.ready = true ∧ s.tnState ↑n ≠ 3 ∧ s.tnState ↑n ≠ 4 ∧ 0 < data.length ∧ off.toNat % 65536 + data.length ≤ 65536 ∧ s.slotComp (↑n) (off.toNat / 65536) = some c ∧ (s.isPeer (↑n) rid.toNat = true → (s.comp c).use = 6) ∧ s.workAt (c * 65536 + off.toNat % 65536) = none ∧ s.reach (Requester.pf p) = true ∧ ↑p = s.owner ∧ (s.comp (off.toNat / 65536)).clearing = false ∧ (s.comp (off.toNat / 65536)).state = 0 ∧ 0 < len ∧ off.toNat % 65536 + len ≤ 65536 ∧ (∀ k < len, m.linePoison ((a + k) / 64) = false) ∧ s.workAt a = none) ∧
    (∃ (s : Machine.State) (x : Fin 512) (addr : BitVec 28) (c : ℕ) (data : List Byte) (len : ℕ), c = addr.toNat / 65536 ∧ s.hmpPend = [] ∧ s.fenced (↑x / 64) = false ∧ 0 < len ∧ addr.toNat % 64 + len ≤ 64 ∧ (s.comp c).state = 2 ∧ s.cluPart (↑x / 8) = some (s.comp c).part ∧ (s.comp c).clearing = false ∧ data.length = len ∧ (s.comp c).state ≠ 1) ∧
    (∃ (s : Machine.State) (n : Fin 128) (rid : BitVec 16) (off : BitVec 28) (data : List Byte) (len : ℕ), s.reach (Requester.tenant n) = true ∧ s.ready = true ∧ s.tnState ↑n ≠ 3 ∧ s.tnState ↑n ≠ 4 ∧ 0 < data.length ∧ off.toNat % 65536 + data.length ≤ 65536 ∧ s.slotComp (↑n) (off.toNat / 65536) = none ∧ s.isPeer (↑n) rid.toNat = false ∧ 0 < len ∧ off.toNat % 65536 + len ≤ 65536) ∧
    (∃ (s : Machine.State) (n : Fin 128) (rid : BitVec 16) (off : BitVec 28) (data : List Byte) (c : ℕ), s.reach (Requester.tenant n) = true ∧ s.ready = true ∧ s.tnState ↑n ≠ 3 ∧ s.tnState ↑n ≠ 4 ∧ 0 < data.length ∧ off.toNat % 65536 + data.length ≤ 65536 ∧ s.slotComp (↑n) (off.toNat / 65536) = some c ∧ s.isPeer (↑n) rid.toNat = true ∧ (s.comp c).use ≠ 6) ∧
    (∃ (s : Machine.State) (p : Fin 4) (off : BitVec 28) (data : List Byte), s.reach (Requester.pf p) = true ∧ s.ready = true ∧ 0 < data.length ∧ off.toNat % 65536 + data.length ≤ 65536 ∧ ↑p = s.owner ∧ (s.comp (off.toNat / 65536)).clearing = false ∧ (s.comp (off.toNat / 65536)).state = 2) ∧
    (∃ (s : Machine.State) (p : Fin 4) (off : BitVec 28) (data : List Byte), s.reach (Requester.pf p) = true ∧ s.ready = true ∧ 0 < data.length ∧ off.toNat % 65536 + data.length ≤ 65536 ∧ ↑p = s.owner ∧ (s.comp (off.toNat / 65536)).clearing = false ∧ ((s.comp (off.toNat / 65536)).state = 1 ∨ (s.comp (off.toNat / 65536)).state = 3)) :=
  ⟨⟨pend1, 1, 0, 0, 0xFFFF, [7], 1, 600, _, _, { client := 0, addr := 39321600, data := [0x01#8, 0x02#8], ep := false }, [], rfl, rfl, by decide +kernel⟩,
   ⟨rdy, 0, 0x258003F, _, [9], 1, rfl, by decide +kernel⟩,
   ⟨pend1, 1, 0, 0x20000, [7], 1, by decide +kernel⟩,
   ⟨peer rdy, 1, 5, 0xFFFF, [7], 600, by decide +kernel⟩,
   ⟨pend1, 0, 0x2580000, [7], by decide +kernel⟩,
   ⟨fwComp, 0, 0x640000, [7], by decide +kernel⟩⟩

/-- The hypotheses of `Obligations.HamperRequests` (part 2) are met. -/
theorem witness_HamperRequests_2 :
    (∃ (s : Machine.State) (p : Fin 4) (off : BitVec 28) (data : List Byte), s.reach (Requester.pf p) = true ∧ s.ready = true ∧ 0 < data.length ∧ off.toNat % 65536 + data.length ≤ 65536 ∧ ↑p ≠ s.owner) ∧
    (∃ (s : Machine.State) (n : Fin 128), s.reach (Requester.tenant n) = true ∧ s.ready = false) ∧
    (∃ (s : Machine.State), s.devFailed = true) ∧
    (∃ (s : Machine.State) (x : Fin 512) (addr : BitVec 28) (c : ℕ) (len : ℕ), c = addr.toNat / 65536 ∧ s.fenced (↑x / 64) = false ∧ 0 < len ∧ addr.toNat % 64 + len ≤ 64 ∧ s.cluPart (↑x / 8) ≠ some (s.comp c).part ∧ s.coreJob ↑x = none) ∧
    (∃ (s : Machine.State) (x : Fin 512) (addr : BitVec 28) (c : ℕ) (len : ℕ), c = addr.toNat / 65536 ∧ s.fenced (↑x / 64) = false ∧ 0 < len ∧ addr.toNat % 64 + len ≤ 64 ∧ (s.comp c).state = 1) :=
  ⟨⟨pend1, 1, 0xFFFF, [7], by decide +kernel⟩,
   ⟨tenS [(P.boot, F.BOOT_STS_ready, 0)] [], 1, by decide +kernel⟩,
   ⟨failed rdy, by decide +kernel⟩,
   ⟨rdy, 8, 0x258003F, _, 1, rfl, by decide +kernel⟩,
   ⟨fwComp, 0, 0x640000, _, 1, rfl, by decide +kernel⟩⟩

/-- The hypotheses of `Obligations.HamperAllocation` are met. -/
theorem witness_HamperAllocation :
    (∃ (s : Machine.State) (rq : Requester) (n : Fin 128) (slot : BitVec 12) (a : AllocArgs) (r : ℕ) (w : ℕ) (c : ℕ) (b : ℕ), a = s.allocArgs ∧ c < 4096 ∧ b < 64 ∧ a.part < 8 ∧ s.grants rq (P.hmp 3) = true ∧ s.flag (P.hmp 3) F.HMP_ALLOC_RES_busy = false ∧ s.allocCheck a = none ∧ s.freeCheck a = some (r, w) ∧ s.hmpClr = none ∧ s.grantsTen rq (↑n) 11 = true ∧ s.slotComp (↑n) slot.toNat = some c) ∧
    (∃ (s : Machine.State) (rq : Requester) (n : Fin 128) (slot : BitVec 12) (a : AllocArgs) (r : ℕ) (w : ℕ), a = s.allocArgs ∧ a.part < 8 ∧ s.grants rq (P.hmp 3) = true ∧ s.flag (P.hmp 3) F.HMP_ALLOC_RES_busy = false ∧ s.allocCheck a = some (r, w) ∧ s.freeCheck a = none ∧ s.grantsTen rq (↑n) 11 = true ∧ s.slotComp (↑n) slot.toNat = none) ∧
    (∃ (s : Machine.State) (rq : Requester) (a : AllocArgs) (u : Machine.State), a = s.allocArgs ∧ u = s.countErr (P.hmp 0) 69 (rqCode rq) (accessAddr rq (P.hmp 3) 72) ∧ a.part < 8 ∧ s.grants rq (P.hmp 3) = true ∧ s.flag (P.hmp 3) F.HMP_ALLOC_RES_busy = true) ∧
    (∃ (s : Machine.State) (a : AllocArgs) (f : ℕ) (k : ℕ), a = s.allocArgs ∧ a.part < 8 ∧ s.hmpClr = some (f, k)) :=
  ⟨⟨args 602 2 1 2 [], .fw, 1, 1, _, 4, 602, 601, 0, rfl, by decide +kernel⟩,
   ⟨args 601 1 1 2 [], .fw, 0, 0, _, 4, 601, rfl, by decide +kernel⟩,
   ⟨args 602 2 1 2 [(P.hmp 3, F.HMP_ALLOC_RES_busy, 1)], .fw, _, _, rfl, rfl, by decide +kernel⟩,
   ⟨{ args 601 1 1 2 [] with hmpClr := some (601, 1) }, _, 601, 1, rfl, by decide +kernel⟩⟩

/-- The hypotheses of `Obligations.TrailResults` are met. -/
theorem witness_TrailResults :
    (∃ (s : Machine.State) (rq : Requester), s.trail.queue = [] ∧ s.grants rq P.trl = true) ∧
    (∃ (s : Machine.State) (r : TrailRec) (q : List TrailRec), s.trail.queue = r :: q ∧ s.trail.lost ≠ 0 ∧ q.length < 16) ∧
    (∃ (s : Machine.State) (r : TrailRec) (q : List TrailRec) (u : TrailRec) (k : ℕ), u = { r with seq := nextSeq (s.fld P.trl F.TRL_SEQ_value) } ∧ (k =
  match r.region (s.fld P.trl F.TRL_STS_fmap_cnt) with
  | Region.map => s.fld P.trl F.TRL_STS_fmap_cnt
  | Region.snapshot => s.trail.snapNext
  | Region.log => max 1088 (s.fld P.trl F.TRL_STS_next_slot)) ∧ s.trail.queue = r :: q ∧ s.trail.lost = 0) :=
  ⟨⟨rdy, .fw, by decide +kernel⟩,
   ⟨trS [tr0 4] 3, { seq := 0, typ := 4, block := 1, sev := 0, ptp := 0, boot := 0, ms := 0, payload := [1] }, [], by decide +kernel⟩,
   ⟨trS [tr0 5, tr0 2] 0, { seq := 0, typ := 5, block := 1, sev := 0, ptp := 0, boot := 0, ms := 0, payload := [1] }, [{ seq := 0, typ := 2, block := 1, sev := 0, ptp := 0, boot := 0, ms := 0, payload := [1] }], _, _, rfl, rfl, by decide +kernel⟩⟩

/-- The hypotheses of `Obligations.MailboxResults` (part 1) are met. -/
theorem witness_MailboxResults_1 :
    (∃ (s : Machine.State) (f : Fmc) (addr : BitVec 28) (n : ℕ) (ws : List RegDword) (st : Option (BitVec 7)) (e : Fin 256), s.takes f 2 = true ∧ fmcSpan addr.toNat n = true ∧ s.tileBusy (addr.toNat / 4096) = false ∧ s.takes f 3 = true ∧ fmcSpan addr.toNat ws.length = false ∧ (ws = [] ∨ 2 ^ 27 ≤ addr.toNat) ∧ s.takes f 1 = true ∧ s.takes f 4 = true ∧ s.takes f 5 = true ∧ s.inShutdown = false ∧ s.stuck = false ∧ s.takes f 6 = true ∧ s.takes f 7 = true ∧ s.mgtUp = true ∧ 0 < ↑e ∧ ↑e < 255 ∧ (∀ (a : BitVec 7), st = some a → a.toNat = s.busAddr)) ∧
    (∃ (s : Machine.State) (f : Fmc) (addr : BitVec 28) (n : ℕ), s.takes f 2 = true ∧ fmcSpan addr.toNat n = false ∧ s.takes f 5 = true ∧ s.inShutdown = true ∧ s.takes f 6 = true ∧ s.hubOff = true ∧ s.stuck = false ∧ s.power.rails % 16 = 0) ∧
    (∃ (s : Machine.State) (f : Fmc) (slot : Fin 4096) (k : Fin 64) (e : FmcKept) (u : Machine.State), u = s.satFld P.mgt F.MGT_CNT_cached 1 ∧ s.mgtUp = true ∧ s.fmcKept f 4 = some e ∧ e.cmd = 4 ∧ e.body = [↑slot, ↑k]) ∧
    (∃ (s : Machine.State) (f : Fmc), f.src.full = true ∧ s.mgtUp = true ∧ s.fmcKept f 7 = none) ∧
    (∃ (s : Machine.State) (f : Fmc) (slot : Fin 4096) (k : Fin 64) (e : FmcKept) (u : Machine.State), u = s.satFld P.mgt F.MGT_CNT_cached 1 ∧ s.mgtUp = true ∧ s.fmcKept f 4 = some e ∧ (e.cmd ≠ 4 ∨ e.body ≠ [↑slot, ↑k])) ∧
    (∃ (s : Machine.State) (f : Fmc) (addr : BitVec 28) (n : ℕ), s.takes f 2 = true ∧ fmcSpan addr.toNat n = true ∧ s.tileBusy (addr.toNat / 4096) = true) :=
  ⟨⟨rdy, fmc1, 0x60044, 1, [], none, 8, by decide +kernel⟩,
   ⟨shut true, fmc1, 0, 0, by decide +kernel⟩,
   ⟨mgt0 { Mgt.reset with kept := Tab.set kept0 [] 9 [⟨77, 4, [4095, 1], 0, [5]⟩] }, fmc1, 4095, 1, { id := 77, cmd := 4, body := [4095, 1], status := 0, data := [5] }, _, rfl, by decide +kernel⟩,
   ⟨rdy, fmcFull, by decide +kernel⟩,
   ⟨mgt0 { Mgt.reset with kept := Tab.set kept0 [] 9 [⟨77, 4, [4095, 1], 0, [5]⟩] }, fmc1, 1, 1, { id := 77, cmd := 4, body := [4095, 1], status := 0, data := [5] }, _, rfl, by decide +kernel⟩,
   ⟨busy0, fmc1, BitVec.ofNat 28 (P.lnk 0 0 * 4096 + 0x40), 1, by decide +kernel⟩⟩

/-- The hypotheses of `Obligations.MailboxResults` (part 2) are met. -/
theorem witness_MailboxResults_2 :
    (∃ (s : Machine.State) (f : Fmc) (addr : BitVec 28) (pg : ℕ) (off : ℕ) (i : PageInfo) (w : Word), (∀ (u : Machine.State), u = s.fmcSend f 3 (addr.toNat :: regBody [{ be := 15, val := w }]) { status := 0, data := [], act := id } → u.hook Requester.mgt pg i off (i.layout.keep off (BitVec.toNat w)) = none) ∧ s.takes f 3 = true ∧ pageInfo pg = some i ∧ s.grants Requester.mgt pg = true ∧ off % 4 = 0 ∧ 64 ≤ off ∧ off < 4096 ∧ addr.toNat = pg * 4096 + off ∧ addr.toNat < 2 ^ 27 ∧ s.lockHits pg i off (i.layout.keep off (BitVec.toNat w)) = false) ∧
    (∃ (s : Machine.State) (st : Option (BitVec 7)), s.mgtUp = true ∧ (∃ a, st = some a ∧ a.toNat ≠ s.busAddr)) :=
  ⟨⟨rdy, fmc1, 0x60044, 0x60, 0x44, ⟨.hpt, 8, 0, 0, false⟩, 1, fun u h => by subst h; decide +kernel, by decide +kernel⟩,
   ⟨rdy, some 1, by decide +kernel⟩⟩

/-- The hypotheses of `Obligations.SignedCommandResults` (part 1) are met (a signer of `key1` and a forger are given: what the signature scheme answers is no fact of the model). -/
theorem witness_SignedCommandResults_1 (sign : List Byte → List Byte) (hv : ∀ d, Config.ecdsaP384 key1 d (sign d) = true) :
    (∃ (s : Machine.State) (f : Fmc) (g : Signed) (port : Fin 4), s.authentic f 16 [↑port] g = true ∧ s.board.fuseWrite = none ∧ s.takes f 16 = true) ∧
    (∃ (s : Machine.State) (v : ℕ), s.board.fuseWrite = some (1, v)) ∧
    (∃ (s : Machine.State) (v : ℕ), v < 4 ∧ s.board.fuseWrite = some (2, v)) ∧
    (∃ (s : Machine.State) (f : Fmc) (g : Signed) (ti : Fin 8) (cl : Fin 8) (p : Fin 8), s.authentic f 17 [↑ti, ↑cl, ↑p] g = true ∧ s.board.fuseWrite = none ∧ s.takes f 17 = true ∧ s.fieldMap.length < 1024) ∧
    (∃ (s : Machine.State) (f : Fmc) (g : Signed) (ti : Fin 8) (cl : Fin 8) (p : Fin 8), s.authentic f 17 [↑ti, ↑cl, ↑p] g = true ∧ s.board.fuseWrite = none ∧ s.takes f 17 = true ∧ 1024 ≤ s.fieldMap.length) ∧
    (∃ (s : Machine.State) (f : Fmc) (g : Signed), s.authentic f 18 [] g = true ∧ s.board.fuseWrite = none ∧ s.takes f 18 = true) :=
  ⟨⟨fusedS auth, fmc1, signedBy sign 16 [1], 1, signed_by (s := fusedS auth) hv (by decide +kernel) rfl (by decide +kernel) 16 [1], by decide +kernel⟩,
   ⟨fuseS (some (1, 5)) auth, 5, by decide +kernel⟩,
   ⟨fuseS (some (2, 3)) auth, 3, by decide +kernel⟩,
   ⟨fusedS auth, fmc1, signedBy sign 17 [1, 2, 3], 1, 2, 3, signed_by (s := fusedS auth) hv (by decide +kernel) rfl (by decide +kernel) 17 [1, 2, 3], by decide +kernel⟩,
   ⟨fullMap (fusedS auth), fmc1, signedBy sign 17 [1, 2, 3], 1, 2, 3, signed_by (s := fullMap (fusedS auth)) hv (by decide +kernel) rfl (by decide +kernel) 17 [1, 2, 3], by decide +kernel⟩,
   ⟨fusedS auth, fmc1, signedBy sign 18 [], signed_by (s := fusedS auth) hv (by decide +kernel) rfl (by decide +kernel) 18 [], by decide +kernel⟩⟩

/-- The hypotheses of `Obligations.SignedCommandResults` (part 2) are met (a signer of `key1` and a forger are given: what the signature scheme answers is no fact of the model). -/
theorem witness_SignedCommandResults_2 (sign : List Byte → List Byte) (hv : ∀ d, Config.ecdsaP384 key1 d (sign d) = true) :
    (∃ (s : Machine.State) (f : Fmc) (g : Signed) (a : Accepted), s.authentic f 19 [] g = true ∧ s.board.fuseWrite = none ∧ s.takes f 19 = true ∧ s.boot.stage1 = some a) ∧
    (∃ (s : Machine.State) (f : Fmc) (g : Signed), s.authentic f 19 [] g = true ∧ s.board.fuseWrite = none ∧ s.takes f 19 = true ∧ s.boot.stage1 = none) ∧
    (∃ (s : Machine.State) (f : Fmc) (g : Signed) (slot : Fin 4), s.authentic f 20 [↑slot] g = true ∧ s.board.fuseWrite = none ∧ s.takes f 20 = true ∧ s.keyNeeded ↑slot = false) ∧
    (∃ (s : Machine.State) (f : Fmc) (g : Signed) (slot : Fin 4), s.authentic f 20 [↑slot] g = true ∧ s.board.fuseWrite = none ∧ s.takes f 20 = true ∧ s.keyNeeded ↑slot = true) ∧
    (∃ (s : Machine.State) (f : Fmc) (g : Signed) (cl : Fin 8) (p : Fin 8) (c : Instr × ℕ × List ℕ) (big : ℕ), (c ∈ [(Instr.ownerTransfer f g (4 + big), 16, [4 + big]), (Instr.fieldSubst f g (8 + big) ↑cl ↑p, 17, [8 + big, ↑cl, ↑p]), (Instr.keyRevoke f g (4 + big), 20, [4 + big])]) ∧ s.authentic f c.2.1 c.2.2 g = true ∧ s.board.fuseWrite = none ∧ s.takes f c.2.1 = true) ∧
    (∃ (s : Machine.State) (f : Fmc) (g : Signed) (port : Fin 4) (ti : Fin 8) (cl : Fin 8) (p : Fin 8) (slot : Fin 4) (c : Instr × ℕ × List ℕ), (c ∈ [(Instr.ownerTransfer f g ↑port, 16, [↑port]), (Instr.fieldSubst f g ↑ti ↑cl ↑p, 17, [↑ti, ↑cl, ↑p]), (Instr.fieldMapClear f g, 18, []), (Instr.svnCommit f g, 19, []), (Instr.keyRevoke f g ↑slot, 20, [↑slot])]) ∧ s.takes f c.2.1 = true ∧ s.board.fuseWrite ≠ none) :=
  ⟨⟨stage1S 1 (fusedS auth), fmc1, signedBy sign 19 [], ⟨1, 3, 1, 0x180, []⟩, signed_by (s := stage1S 1 (fusedS auth)) hv (by decide +kernel) rfl (by decide +kernel) 19 [], by decide +kernel⟩,
   ⟨fusedS auth, fmc1, signedBy sign 19 [], signed_by (s := fusedS auth) hv (by decide +kernel) rfl (by decide +kernel) 19 [], by decide +kernel⟩,
   ⟨fusedS auth, fmc1, signedBy sign 20 [2], 2, signed_by (s := fusedS auth) hv (by decide +kernel) rfl (by decide +kernel) 20 [2], by decide +kernel⟩,
   ⟨stage1S 0 (fusedS auth), fmc1, signedBy sign 20 [0], 0, signed_by (s := stage1S 0 (fusedS auth)) hv (by decide +kernel) rfl (by decide +kernel) 20 [0], by decide +kernel⟩,
   ⟨fusedS auth, fmc1, signedBy sign 16 [4], 0, 0, (.ownerTransfer fmc1 (signedBy sign 16 [4]) 4, 16, [4]), 0, List.Mem.head _, signed_by (s := fusedS auth) hv (by decide +kernel) rfl (by decide +kernel) 16 [4], by decide +kernel,
     (by decide +kernel : (fusedS auth).takes fmc1 16 = true)⟩,
   ⟨fuseS (some (1, 5)) auth, fmc1, signed1 3, 0, 0, 0, 0, 0, (.ownerTransfer fmc1 (signed1 3) 0, 16, [0]), by decide +kernel⟩⟩

/-- The hypotheses of `Obligations.SignedCommandResults` (part 3) are met (a signer of `key1` and a forger are given: what the signature scheme answers is no fact of the model). -/
theorem witness_SignedCommandResults_3 (bad : List Byte → List Byte) (hb : ∀ d, Config.ecdsaP384 key1 d (bad d) = false) :
    (∃ (s : Machine.State) (f : Fmc) (g : Signed) (port : Fin 4) (ti : Fin 8) (cl : Fin 8) (p : Fin 8) (slot : Fin 4) (c : Instr × ℕ × List ℕ), (c ∈ [(Instr.ownerTransfer f g ↑port, 16, [↑port]), (Instr.fieldSubst f g ↑ti ↑cl ↑p, 17, [↑ti, ↑cl, ↑p]), (Instr.fieldMapClear f g, 18, []), (Instr.svnCommit f g, 19, []), (Instr.keyRevoke f g ↑slot, 20, [↑slot])]) ∧ s.takes f c.2.1 = true ∧ s.board.fuseWrite = none ∧ Tab.get nonce0 s.mgt.nonces (srcKey f.src) ≠ some g.nonce) ∧
    (∃ (s : Machine.State) (f : Fmc) (g : Signed) (port : Fin 4) (ti : Fin 8) (cl : Fin 8) (p : Fin 8) (slot : Fin 4) (c : Instr × ℕ × List ℕ), s.keyGood (↑g.slot) g.key = false ∧ (c ∈ [(Instr.ownerTransfer f g ↑port, 16, [↑port]), (Instr.fieldSubst f g ↑ti ↑cl ↑p, 17, [↑ti, ↑cl, ↑p]), (Instr.fieldMapClear f g, 18, []), (Instr.svnCommit f g, 19, []), (Instr.keyRevoke f g ↑slot, 20, [↑slot])]) ∧ s.takes f c.2.1 = true ∧ s.board.fuseWrite = none ∧ Tab.get nonce0 s.mgt.nonces (srcKey f.src) = some g.nonce) ∧
    (∃ (s : Machine.State) (f : Fmc) (g : Signed) (port : Fin 4) (ti : Fin 8) (cl : Fin 8) (p : Fin 8) (slot : Fin 4) (c : Instr × ℕ × List ℕ), (c ∈ [(Instr.ownerTransfer f g ↑port, 16, [↑port]), (Instr.fieldSubst f g ↑ti ↑cl ↑p, 17, [↑ti, ↑cl, ↑p]), (Instr.fieldMapClear f g, 18, []), (Instr.svnCommit f g, 19, []), (Instr.keyRevoke f g ↑slot, 20, [↑slot])]) ∧ s.keyGood (↑g.slot) g.key = true ∧ Config.ecdsaP384 g.key (Config.sha384 (signedMsg f c.2.1 c.2.2 g)) g.sig = false ∧ s.takes f c.2.1 = true ∧ s.board.fuseWrite = none ∧ Tab.get nonce0 s.mgt.nonces (srcKey f.src) = some g.nonce) :=
  ⟨⟨rdy, fmc1, signed1 3, 0, 0, 0, 0, 0, (.ownerTransfer fmc1 (signed1 3) 0, 16, [0]), by decide +kernel⟩,
   ⟨{ auth with board := { auth.board with revoked := 1 } }, fmc1, signed1 3, 0, 0, 0, 0, 0, (.ownerTransfer fmc1 (signed1 3) 0, 16, [0]), key_revoked _ _ _ (by decide +kernel), by decide +kernel⟩,
   ⟨fusedS auth, fmc1, signedBy bad 16 [0], 0, 0, 0, 0, 0, (.ownerTransfer fmc1 (signedBy bad 16 [0]) 0, 16, [0]), List.Mem.head _, key_good _ rfl (by decide +kernel), signed_sig hb 16 [0],
     (by decide +kernel : (fusedS auth).takes fmc1 16 = true), by decide +kernel,
     (by decide +kernel : Tab.get nonce0 (fusedS auth).mgt.nonces (srcKey fmc1.src) = some nonce1)⟩⟩

/-- The hypotheses of `Obligations.DebugAndSecureChannels` (part 1) are met (a signer of `key1` and a forger are given: what the signature scheme answers is no fact of the model). -/
theorem witness_DebugAndSecureChannels_1 (sign : List Byte → List Byte) (hv : ∀ d, Config.ecdsaP384 key1 d (sign d) = true) (bad : List Byte → List Byte) (hb : ∀ d, Config.ecdsaP384 key1 d (bad d) = false) :
    (∃ (s : Machine.State) (port : Fin 4) (stream : Fin 5) (f : Fmc), s.takes f 21 = true ∧ s.takes f 22 = true ∧ s.unlockBarred = true ∧ s.mgtUp = true ∧ s.mgt.extest = false ∧ s.respUp (Responder.doe port) = true ∧ (s.sessions ↑port = 0 ∨ s.flag (P.hpt ↑port) F.HPT_LINK_STS_flit = false) ∧ s.ideState ↑port ↑stream ≠ 2) ∧
    (∃ (s : Machine.State) (f : Fmc) (k : DebugToken) (i : TapInstr), s.takes f 22 = true ∧ s.unlockBarred = false ∧ Tab.get nonce0 s.mgt.dbgNonces (srcKey f.src) ≠ some k.nonce ∧ s.mgtUp = true ∧ (i ∈ [TapInstr.idcode, TapInstr.bypass, TapInstr.sample, TapInstr.preload])) ∧
    (∃ (s : Machine.State) (r : Responder) (port : Fin 4) (stream : Fin 5) (i : Fin 16) (k : ℕ) (n : ℕ), k = respNo r ∧ n = s.sessions k ∧ s.respUp r = true ∧ 5 ≤ s.stage ∧ respFull r = false ∧ n < 4 ∧ 0 < n ∧ ↑i = 0 ∧ s.respUp (Responder.doe port) = true ∧ s.sessions ↑port ≠ 0 ∧ s.flag (P.hpt ↑port) F.HPT_LINK_STS_flit = true ∧ s.ideState ↑port ↑stream ≠ 0 ∧ s.ideState ↑port ↑stream = 2 ∧ s.linkUp ↑port = true ∧ s.tenantsOnPort ↑port = [] ∧ s.owner ≠ ↑port) ∧
    (∃ (s : Machine.State) (port : Fin 4) (stream : Fin 5), s.respUp (Responder.doe port) = true ∧ s.sessions ↑port ≠ 0 ∧ s.flag (P.hpt ↑port) F.HPT_LINK_STS_flit = true ∧ s.ideState ↑port ↑stream ≠ 2 ∧ s.ideState ↑port ↑stream = 0) ∧
    (∃ (s : Machine.State) (f : Fmc) (k : DebugToken), s.tokenKey k = true ∧ Config.ecdsaP384 k.key (Config.sha384 (tokenMsg k)) k.sig = true ∧ s.takes f 22 = true ∧ s.unlockBarred = false ∧ Tab.get nonce0 s.mgt.dbgNonces (srcKey f.src) = some k.nonce) ∧
    (∃ (s : Machine.State) (f : Fmc) (k : DebugToken), (s.tokenKey k = false ∨ Config.ecdsaP384 k.key (Config.sha384 (tokenMsg k)) k.sig = false) ∧ s.takes f 22 = true ∧ s.unlockBarred = false ∧ Tab.get nonce0 s.mgt.dbgNonces (srcKey f.src) = some k.nonce) :=
  ⟨⟨ideS 1 0 0, 0, 0, fmc1, by decide +kernel⟩,
   ⟨rdy.setFld (P.ten 1 0) F.TN_STS_state 1, fmc1, tok1 3 sig1, .idcode, by decide +kernel⟩,
   ⟨cfgR (ideS 1 2 1), .doe 1, 1, 0, 0, _, _, rfl, rfl, by decide +kernel⟩,
   ⟨cfgR (ideS 1 0 1), 1, 0, by decide +kernel⟩,
   ⟨dbgS idleAuth, fmc1, tokBy sign, token_by sign, token_sig hv, by decide +kernel, by decide +kernel,
     (by decide +kernel : Tab.get nonce0 (dbgS idleAuth).mgt.dbgNonces (srcKey fmc1.src) = some nonce1)⟩,
   ⟨dbgS idleAuth, fmc1, tokBy bad, .inr (token_sig hb), by decide +kernel, by decide +kernel,
     (by decide +kernel : Tab.get nonce0 (dbgS idleAuth).mgt.dbgNonces (srcKey fmc1.src) = some nonce1)⟩⟩

/-- The hypotheses of `Obligations.DebugAndSecureChannels` (part 2) are met. -/
theorem witness_DebugAndSecureChannels_2 :
    (∃ (s : Machine.State) (r : Responder) (i : Fin 16) (k : ℕ) (n : ℕ), k = respNo r ∧ n = s.sessions k ∧ s.respUp r = true ∧ 5 ≤ s.stage ∧ respFull r = false ∧ ↑i = 8) ∧
    (∃ (s : Machine.State) (r : Responder) (k : ℕ) (n : ℕ), k = respNo r ∧ n = s.sessions k ∧ s.respUp r = true ∧ 5 ≤ s.stage ∧ respFull r = false ∧ 4 ≤ n) ∧
    (∃ (s : Machine.State) (r : Responder), s.respUp r = true ∧ (s.stage < 5 ∨ respFull r = true)) :=
  ⟨⟨ideS 1 0 0, .mctp false, 8, _, _, rfl, rfl, by decide +kernel⟩,
   ⟨ideS 1 0 4, .mctp false, _, _, rfl, rfl, by decide +kernel⟩,
   ⟨cfgR (stage 2), .mctp false, by decide +kernel⟩⟩

/-- The hypotheses of `Obligations.PldmResults` (part 1) are met (a signer of `key1` and a forger are given: what the signature scheme answers is no fact of the model). -/
theorem witness_PldmResults_1 (bad : List Byte → List Byte) (hb : ∀ d, Config.ecdsaP384 key1 d (bad d) = false) :
    (∃ (s : Machine.State) (src : MctpSrc) (inst : ℕ) (id : ℕ) (comp : ℕ), s.pldmNew src inst [2, 17, id] = true ∧ s.pldmNew src inst [5, 20, comp] = true ∧ s.ready = true ∧ s.canUpdate = true ∧ (comp = 1 ∨ comp = 2) ∧ s.mgt.update = none ∧ s.mgtUp = true ∧ s.hubDead = false ∧ s.flag P.boot F.BOOT_STS_wait_push = false) ∧
    (∃ (s : Machine.State) (src : MctpSrc) (inst : ℕ) (id : ℕ) (comp : ℕ) (e : PldmKept), s.mgtUp = true ∧ src.full = false ∧ Tab.get pldm0 s.mgt.pldm (srcKey src) = some e ∧ e.inst = inst ∧ e.body = [2, 17, id] ∧ s.pldmNew src inst [5, 20, comp] = true ∧ s.ready = true ∧ s.canUpdate = false) ∧
    (∃ (s : Machine.State) (data : List Byte) (u : Update) (back : Option (List Byte)) (img : Image) (bad : Option (ℕ × ℕ)), img = Image.parse (Option.getD back u.data) ∧ (bad =
  img.refusal u.comp (s.fld P.boot F.BOOT_STRAP_pkg_build) s.board.revoked s.board.svn s.board.keys fun i =>
    match img.sections[i]? with
    | some x => img.body x
    | none => []) ∧ s.mgt.update = some u ∧ u.comp ≠ 0 ∧ s.mgtUp = true ∧ s.ready = true ∧ data.length < 4096) ∧
    (∃ (s : Machine.State), s.mgtUp = true ∧ s.hubDead = false ∧ s.flag P.boot F.BOOT_STS_wait_push = true ∧ s.flag P.boot F.BOOT_PUSH_CTL_go = false ∧ s.flag P.boot F.BOOT_PUSH_CTL_busy = false) ∧
    (∃ (s : Machine.State) (src : MctpSrc) (inst : ℕ) (u : Update) (a : ℕ) (b : ℕ), s.pldmNew src inst [5, 26] = true ∧ s.ready = true ∧ s.mgt.update = some u ∧ u.v1 = some a ∧ u.v2 = some b ∧ a / 65536 = b / 65536) ∧
    (∃ (s : Machine.State) (src : MctpSrc) (inst : ℕ) (u : Update) (a : ℕ) (b : ℕ), s.pldmNew src inst [5, 26] = true ∧ s.ready = true ∧ s.mgt.update = some u ∧ u.v1 = some a ∧ u.v2 = some b ∧ a / 65536 ≠ b / 65536) :=
  ⟨⟨mgt0 { Mgt.reset with flash := true }, src1, 1, 0, 1, by decide +kernel⟩,
   ⟨mgt0 { Mgt.reset with pldm := Tab.set pldm0 [] 9 (some ⟨1, [2, 0x11, 14], 0, [3]⟩) }, src1, 1, 14, 0, { inst := 1, body := [2, 17, 14], code := 0, data := [3] }, by decide +kernel⟩,
   ⟨upd 1 none none, [1], ⟨1, [], none, none⟩, none, _, _, rfl, rfl, by decide +kernel⟩,
   ⟨stage 4 [(P.boot, F.BOOT_STS_wait_push, 1)], by decide +kernel⟩,
   ⟨upd 0 (some 0x10001) (some 0x10002), src1, 1, ⟨0, [], some 65537, some 65538⟩, 65537, 65538, by decide +kernel⟩,
   ⟨upd 0 (some 0x10001) (some 0x20002), src1, 1, ⟨0, [], some 65537, some 131074⟩, 65537, 131074, by decide +kernel⟩⟩

/-- The hypotheses of `Obligations.PldmResults` (part 2) are met. -/
theorem witness_PldmResults_2 :
    ∃ (s : Machine.State) (data : List Byte) (u : Update), s.mgt.update = some u ∧ u.comp ≠ 0 ∧ s.mgtUp = true ∧ s.ready = true ∧ data.length = 4096 :=
  ⟨upd 1 none none, List.replicate 4096 1, ⟨1, [], none, none⟩, by decide +kernel⟩

/-- The hypotheses of `Obligations.CompanionsAndSpares` (part 1) are met. -/
theorem witness_CompanionsAndSpares_1 :
    (∃ (s : Machine.State) (rq : Requester) (x : Fin 512) (h : Fin 16) (w : Word) (a7 : Dword) (p : ℕ) (n : ℕ), p = bits (BitVec.toNat w) 0 3 ∧ n = bits (BitVec.toNat w) 3 7 ∧ 4 ≤ ↑h ∧ s.grants rq (P.hpc ↑h) = true ∧ s.hpcBusy ↑h = true ∧ s.hpcGranted ↑h = false ∧ s.hpcState ↑h = 2 ∧ a7 ≠ 0 ∧ s.hpcState ↑h ≠ 5 ∧ s.grants rq (P.sto ↑x) = true ∧ s.isSpare ↑x = false ∧ s.sparePending ↑x = none) ∧
    (∃ (s : Machine.State) (rq : Requester) (h : Fin 16) (w : Word) (p : ℕ) (n : ℕ), p = bits (BitVec.toNat w) 0 3 ∧ n = bits (BitVec.toNat w) 3 7 ∧ 4 ≤ ↑h ∧ s.grants rq (P.hpc ↑h) = true ∧ s.hpcBusy ↑h = false ∧ bitOf (BitVec.toNat w) 10 = false ∧ s.hpcGranted ↑h = true ∧ (s.hpcState ↑h = 1 ∨ s.hpcState ↑h = 3 ∨ s.hpcState ↑h = 4) ∧ s.hpcState ↑h ≠ 2) ∧
    (∃ (s : Machine.State) (rq : Requester) (x : Fin 512) (w : Word) (v : ℕ), s.grants rq (P.sto ↑x) = true ∧ s.isSpare ↑x = true ∧ (∀ k < 3, bitOf (spareVal (BitVec.toNat w) k) 7 = true → s.bound (spareVal (BitVec.toNat w) k % 128) = true ∧ s.cluPart (↑x / 8) = some (s.tnPart (spareVal (BitVec.toNat w) k % 128))) ∧ s.sparePending ↑x = some v ∧ v < 2 ^ 24 ∧ s.storesTested ↑x = false ∧ (∀ k < 3, s.spareNow (↑x) k ≠ spareVal v k → s.spareNow (↑x) k < 128 ∨ s.tenantRuns (s.spareNow (↑x) k % 128) (↑x / 8) = false)) ∧
    (∃ (s : Machine.State) (rq : Requester) (h : Fin 16) (w : Word) (p : ℕ) (n : ℕ), p = bits (BitVec.toNat w) 0 3 ∧ n = bits (BitVec.toNat w) 3 7 ∧ 4 ≤ ↑h ∧ s.grants rq (P.hpc ↑h) = true ∧ s.hpcBusy ↑h = false ∧ bitOf (BitVec.toNat w) 10 = true ∧ s.hpcShared p ↑h = true ∧ s.bound n = true ∧ s.tnPart n = p) ∧
    (∃ (s : Machine.State) (rq : Requester) (h : Fin 16) (w : Word) (p : ℕ) (n : ℕ), p = bits (BitVec.toNat w) 0 3 ∧ n = bits (BitVec.toNat w) 3 7 ∧ 4 ≤ ↑h ∧ s.grants rq (P.hpc ↑h) = true ∧ s.hpcBusy ↑h = false ∧ bitOf (BitVec.toNat w) 10 = true ∧ (s.hpcShared p ↑h = false ∨ s.bound n = false ∨ s.tnPart n ≠ p)) ∧
    (∃ (s : Machine.State) (h : Fin 16), 4 ≤ ↑h ∧ s.hpcState ↑h = 5 ∧ Tab.get nat0 s.hpcCause ↑h ≠ 6) :=
  ⟨⟨hpcS [(P.hpc 15, F.HPC_STS_state, 2)], .fw, 0, 15, 0, 1, _, _, rfl, rfl, by decide +kernel⟩,
   ⟨hpcS [(P.hpc 15, F.HPC_GRANT_valid, 1), (P.hpc 15, F.HPC_STS_state, 1)], .fw, 15, 0, _, _, rfl, rfl, by decide +kernel⟩,
   ⟨spareP (some 0x81) spare, .fw, 7, 0, 129, by decide +kernel⟩,
   ⟨hpcS [], .fw, 15, 0x408, _, _, rfl, rfl, by decide +kernel⟩,
   ⟨hpcS [], .fw, 15, 0x410, _, _, rfl, rfl, by decide +kernel⟩,
   ⟨hpcS [(P.hpc 15, F.HPC_STS_state, 5)] 4, 15, by decide +kernel⟩⟩

/-- The hypotheses of `Obligations.CompanionsAndSpares` (part 2) are met. -/
theorem witness_CompanionsAndSpares_2 :
    (∃ (s : Machine.State) (h : Fin 16), 4 ≤ ↑h ∧ s.hpcState ↑h = 5 ∧ Tab.get nat0 s.hpcCause ↑h = 6) ∧
    (∃ (s : Machine.State) (x : Fin 512), s.storesTested ↑x = true) :=
  ⟨⟨hpcS [(P.hpc 15, F.HPC_STS_state, 5)] 6, 15, by decide +kernel⟩,
   ⟨bistC spare, 7, by decide +kernel⟩⟩

/-- The hypotheses of `Obligations.SliceResults` are met. -/
theorem witness_SliceResults :
    (∃ (s : Machine.State) (x : Fin 512) (rq : Requester) (addr : BitVec 27) (n : ℕ) (data : List Byte) (k : Fin 4) (a : ℕ) (w : ℕ) (e : EccIn), a = skey (↑x) addr.toNat ∧ (w = if ↑k = 2 then 8 else 4) ∧ s.fenced (↑x / 64) = false ∧ s.sliceServes ↑x = true ∧ 0 < n ∧ addr.toNat % 64 + n ≤ 64 ∧ s.slices.isValid a = true ∧ s.slices.isLost a = false ∧ (e = EccIn.uncorrectable ∨ e = EccIn.buffer) ∧ 0 < data.length ∧ addr.toNat % 64 + data.length ≤ 64 ∧ addr.toNat % w = 0 ∧ (s.sliceRead (↑x) addr.toNat w).2 = false ∧ addr.toNat % 8 = 0 ∧ (s.sliceRead (↑x) addr.toNat 8).2 = false ∧ s.grants rq (P.slc ↑x) = true) ∧
    (∃ (s : Machine.State) (x : Fin 512) (rq : Requester) (addr : BitVec 27) (data : List Byte) (k : Fin 4) (a : ℕ) (w : ℕ), a = skey (↑x) addr.toNat ∧ (w = if ↑k = 2 then 8 else 4) ∧ s.fenced (↑x / 64) = false ∧ s.sliceState ↑x = 3 ∧ 0 < data.length ∧ addr.toNat % 64 + data.length ≤ 64 ∧ s.sliceServes ↑x = false ∧ s.grants rq (P.slc ↑x) = true) ∧
    (∃ (s : Machine.State) (x : Fin 512) (c : Instr × ℕ), s.sliceServes ↑x = true ∧ (c ∈ [(Instr.sliceBondError x, 3), (Instr.sliceCalibration x false, 4)])) ∧
    (∃ (s : Machine.State) (x : Fin 512), s.fenced (↑x / 64) = true) ∧
    (∃ (s : Machine.State) (x : Fin 512) (addr : BitVec 27) (data : List Byte) (k : Fin 4) (a : ℕ) (w : ℕ), a = skey (↑x) addr.toNat ∧ (w = if ↑k = 2 then 8 else 4) ∧ s.fenced (↑x / 64) = false ∧ s.sliceServes ↑x = true ∧ 0 < data.length ∧ addr.toNat % 64 + data.length ≤ 64 ∧ s.slices.isLost a = true) ∧
    (∃ (s : Machine.State) (x : Fin 512) (addr : BitVec 27) (data : List Byte) (k : Fin 4) (a : ℕ) (w : ℕ) (e : EccIn), a = skey (↑x) addr.toNat ∧ (w = if ↑k = 2 then 8 else 4) ∧ s.fenced (↑x / 64) = false ∧ s.sliceServes ↑x = true ∧ data.length = 64 ∧ addr.toNat % 64 = 0 ∧ (e = .corrected ∨ e = .uncorrectable)) ∧
    (∃ (s : Machine.State) (x : Fin 512) (addr : BitVec 27) (data : List Byte) (k : Fin 4) (a : ℕ) (w : ℕ), a = skey (↑x) addr.toNat ∧ (w = if ↑k = 2 then 8 else 4) ∧ s.fenced (↑x / 64) = false ∧ s.sliceServes ↑x = true ∧ 0 < data.length ∧ data.length < 64 ∧ addr.toNat % 64 + data.length ≤ 64 ∧ s.slices.isValid a = true ∧ s.slices.isLost a = false ∧ Tab.get bit0 s.slices.poison (a / 64) = false ∧ s.cluPart (↑x / 8) = none) :=
  ⟨⟨slc1, 1, .fw, 0, 8, [9], 2, _, 8, .uncorrectable, rfl, by decide +kernel⟩,
   ⟨slc1 [(P.slc 1, F.SLC_STS_state, 3)], 1, .fw, 0, [9], 2, _, 8, rfl, by decide +kernel⟩,
   ⟨slc1, 1, (.sliceBondError 1, 3), by decide +kernel⟩,
   ⟨(slc1 [(P.serHub 0, F.SER_STS_state, 6)]), 1, by decide +kernel⟩,
   ⟨{ slc1 with slices := { slc1.slices with lost := [(32768, true)] } }, 1, 0, [1, 2], 0, _, _, rfl, rfl, by decide +kernel⟩,
   ⟨slc1, 1, 64, List.replicate 64 7, 2, _, 8, .corrected, rfl, by decide +kernel⟩,
   ⟨slc1 [(P.pt 0, F.PT_STS_state, 0)], 1, 0, [9], 2, _, 8, rfl, by decide +kernel⟩⟩

/-- The hypotheses of `Obligations.ScrubAndSelfTest` (part 1) are met. -/
theorem witness_ScrubAndSelfTest_1 :
    (∃ (s : Machine.State) (x : Fin 512) (cl : Fin 64) (n : Fin 128) (rq : Requester) (w : Word) (m : ScbId) (p : ℕ), p = bits (BitVec.toNat w) 1 3 ∧ s.grants rq (P.scbP ↑x) = true ∧ bitOf (BitVec.toNat w) 0 = true ∧ s.flag (P.scbP ↑x) F.SCB_BIST_start = false ∧ s.sliceState ↑x ≠ 4 ∧ (s.sliceState ↑x ≠ 1 ∨ s.inNoSet ↑x = false) ∧ s.grants rq (P.scbC ↑cl) = true ∧ s.flag (P.scbC ↑cl) F.SCB_BIST_start = false ∧ s.isSpare (8 * ↑cl + p) = true ∧ (∀ k < 3, s.spareNow (8 * ↑cl + p) k < 128) ∧ s.grants rq P.scbH = true ∧ s.flag (scbPg m) F.SCB_BIST_start = false ∧ s.grants rq (P.ten (↑n) 10) = true) ∧
    (∃ (s : Machine.State) (cl : Option (Fin 64)) (x : Fin 512) (m : ScbId) (rq : Requester) (l : ℕ), l = Tab.get nat0 s.scrubPos (P.scbP ↑x) ∧ s.ready = true ∧ s.flag (idlePg cl) F.SCB_I_CTL_enable = true ∧ s.unavailable (idlePg cl) = false ∧ s.scrubLines cl (Tab.get nat0 s.scrubPos (idlePg cl)) = [] ∧ s.flag (idlePg cl) F.SCB_I_LAP_incomplete = false ∧ s.flag (P.scbP ↑x) F.SCB_P_CTL_enable = true ∧ s.sliceServes ↑x = true ∧ s.fenced (↑x / 64) = false ∧ l + 1 = sliceLines ∧ s.grants rq (scbPg m) = true ∧ s.flag (scbPg m) F.PG_LOCK_locked = false) ∧
    (∃ (s : Machine.State) (x : Fin 512) (l : ℕ), l = Tab.get nat0 s.scrubPos (P.scbP ↑x) ∧ s.ready = true ∧ s.flag (P.scbP ↑x) F.SCB_P_CTL_enable = true ∧ s.sliceServes ↑x = true ∧ s.fenced (↑x / 64) = false ∧ l + 1 < sliceLines) ∧
    (∃ (s : Machine.State) (cl : Option (Fin 64)) (l : ℕ) (l' : ℕ) (ls : List ℕ), s.ready = true ∧ s.flag (idlePg cl) F.SCB_I_CTL_enable = true ∧ s.unavailable (idlePg cl) = false ∧ s.scrubLines cl (Tab.get nat0 s.scrubPos (idlePg cl)) = l :: l' :: ls) ∧
    (∃ (s : Machine.State) (m : ScbId) (rq : Requester) (w : Word), s.grants rq (scbPg m) = true ∧ s.flag (scbPg m) F.PG_LOCK_locked = true ∧ s.fld (scbPg m) F.SCB_CE_CFG_ce_thresh ≠ bits (BitVec.toNat w) 0 16) ∧
    (∃ (s : Machine.State), s.ready = false) :=
  ⟨⟨put [(P.pwrT 0, domFld 0, 3)] spare, 0, 0, 0, .fw, 0x0F, .slice 1, _, rfl, by decide +kernel⟩,
   ⟨scrubS (sliceLines - 1) [], none, 1, .slice 1, .fw, _, rfl, by decide +kernel⟩,
   ⟨scrubS 0 [], 1, _, rfl, by decide +kernel⟩,
   ⟨scrubS 0 [], none, 524288, 524289, [], by decide +kernel⟩,
   ⟨scrubS 0 [(P.scbP 1, F.PG_LOCK_locked, 1)], .slice 1, .fw, 0x20003, by decide +kernel⟩,
   ⟨stage 2, by decide +kernel⟩⟩

/-- The hypotheses of `Obligations.ScrubAndSelfTest` (part 2) are met. -/
theorem witness_ScrubAndSelfTest_2 :
    (∃ (s : Machine.State) (x : Fin 512) (rq : Requester) (w : Word), s.grants rq (P.scbP ↑x) = true ∧ bitOf (BitVec.toNat w) 0 = true ∧ s.flag (P.scbP ↑x) F.SCB_BIST_start = false ∧ (s.sliceState ↑x = 4 ∨ s.sliceState ↑x = 1 ∧ s.inNoSet ↑x = true)) ∧
    (∃ (s : Machine.State) (cl : Fin 64) (p : ℕ), (∀ p < 8, s.ptState p ≠ 1) ∧ s.flag (P.scbC ↑cl) F.SCB_BIST_start = true ∧ Tab.get spare0 s.bistCore ↑cl = some p) ∧
    (∃ (s : Machine.State) (x : Fin 512), (∀ p < 8, s.ptState p ≠ 1) ∧ s.flag (P.scbP ↑x) F.SCB_BIST_start = true) :=
  ⟨⟨slc1, 1, .fw, 0xF, by decide +kernel⟩,
   ⟨bistC spare, 0, 7, by decide +kernel⟩,
   ⟨slc1 [(P.scbP 1, F.SCB_BIST_start, 1)], 1, by decide +kernel⟩⟩

/-- The hypotheses of `Obligations.DatagramsAndFlow` (part 1) are met. -/
theorem witness_DatagramsAndFlow_1 :
    (∃ (s : Machine.State) (k : Fin 512) (v : SkSt) (a : ℕ) (h : ℕ) (d : ℕ) (n : Fin 2) (f : EthFrame), v = s.sk ↑k ∧ a = s.skIndex ↑k + 64 ∧ h = leNat (s.apRead (s.skTenant ↑k) a 4) ∧ d = (h + 2 ^ 32 - v.head % 2 ^ 32) % 2 ^ 32 ∧ s.ethUp ↑n = true ∧ s.ethTakes (↑n) f = true ∧ s.skMatch (↑n) f = none ∧ s.apPoison (s.skTenant ↑k) a 4 = none ∧ s.skOn ↑k = true ∧ s.skState ↑k ≠ 5 ∧ d = 0 ∧ (s.skOn ↑k = false ∨ (s.sk ↑k).seen = []) ∧ s.skState ↑k ≠ 3 ∧ s.skState ↑k ≠ 4 ∧ (s.sk ↑k).resume = none) ∧
    (∃ (s : Machine.State) (n : Fin 2) (f : EthFrame) (k : ℕ) (q : ℕ) (off : ℕ) (data : List Byte) (v : SkSt) (fr : SkFrame), q = beNum f.udp 4 4 ∧ off = beNum f.udp 12 4 ∧ data = List.drop 24 f.udp ∧ v = s.sk k ∧ s.ethUp ↑n = true ∧ s.ethTakes (↑n) f = true ∧ s.skMatch (↑n) f = some k ∧ (s.skState k = 2 ∨ s.skState k = 3 ∨ s.skState k = 4) ∧ s.skBad k f.udp = false ∧ bitOf (beNum f.udp 1 1) 1 = false ∧ v.est = true ∧ v.seen = [] ∧ s.skf k F.STP_SK_EXPECT_value = q ∧ v.frames = [fr] ∧ fr.dbl = false ∧ fr.id = beNum f.udp 8 4 ∧ beNum f.udp 16 4 ≤ s.skMax k ∧ fr.got + data.length < fr.len ∧ (∀ r ∈ fr.ranges, off + data.length ≤ r.1 ∨ r.1 + r.2 ≤ off)) ∧
    (∃ (s : Machine.State) (n : Fin 2) (f : EthFrame) (k : ℕ), s.ethUp ↑n = true ∧ s.ethTakes (↑n) f = true ∧ s.skMatch (↑n) f = some k ∧ s.skState k ≠ 5 ∧ s.skBad k f.udp = true) ∧
    (∃ (s : Machine.State) (n : Fin 2) (f : EthFrame) (k : ℕ), s.ethUp ↑n = true ∧ s.ethTakes (↑n) f = true ∧ s.skMatch (↑n) f = some k ∧ s.skState k = 5) ∧
    (∃ (s : Machine.State) (n : Fin 2) (f : EthFrame), s.ethUp ↑n = true ∧ (f.fcsOk = false ∨ f.macLen < 64 ∨ 9238 < f.macLen)) ∧
    (∃ (s : Machine.State) (k : Fin 512) (v : SkSt) (a : ℕ) (h : ℕ) (d : ℕ), v = s.sk ↑k ∧ a = s.skIndex ↑k + 64 ∧ h = leNat (s.apRead (s.skTenant ↑k) a 4) ∧ d = (h + 2 ^ 32 - v.head % 2 ^ 32) % 2 ^ 32 ∧ s.apPoison (s.skTenant ↑k) a 4 = none ∧ s.skState ↑k = 2 ∧ 0 < d ∧ d ≤ v.tail - v.head ∧ 2 * (List.drop d v.live).sum < s.skA ↑k ∧ (List.drop d v.live).length < 512) :=
  ⟨⟨skS 2 sk1, 0, _, _, _, _, 0, frame1 true (ksf 6), rfl, rfl, rfl, rfl, by decide +kernel⟩,
   ⟨skS 2 sk1, 0, frame1 true (ksf 5), 0, _, _, _, _, { n := 0, id := 3, len := 100, b := 0, got := 10, time := 0, locked := false, lo := 8, hi := 8, coast := false, reord := false, dbl := false, ranges := [(0, 10)] }, rfl, rfl, rfl, rfl, by decide +kernel⟩,
   ⟨skS 2 sk1, 0, frame1 true (List.take 24 (ksf 5)), 0, by decide +kernel⟩,
   ⟨skS 5 sk1, 0, frame1 true (ksf 5), 0, by decide +kernel⟩,
   ⟨skS 2 sk1, 0, frame1 false [], by decide +kernel⟩,
   ⟨headS (skS 2 { sk1 with tail := 1, frames := [] }) 1, 0, _, _, _, _, rfl, rfl, rfl, rfl, by decide +kernel⟩⟩

/-- The hypotheses of `Obligations.DatagramsAndFlow` (part 2) are met. -/
theorem witness_DatagramsAndFlow_2 :
    (∃ (s : Machine.State) (k : Fin 512) (v : SkSt) (a : ℕ) (h : ℕ) (d : ℕ), v = s.sk ↑k ∧ a = s.skIndex ↑k + 64 ∧ h = leNat (s.apRead (s.skTenant ↑k) a 4) ∧ d = (h + 2 ^ 32 - v.head % 2 ^ 32) % 2 ^ 32 ∧ s.apPoison (s.skTenant ↑k) a 4 = none ∧ s.skOn ↑k = true ∧ s.skState ↑k ≠ 5 ∧ 0 < d ∧ v.tail - v.head < d) ∧
    (∃ (s : Machine.State) (k : Fin 512) (e : ℕ), s.skOn ↑k = true ∧ s.skState ↑k ≠ 5 ∧ (s.sk ↑k).est = true ∧ (s.sk ↑k).seen ≠ [] ∧ (s.sk ↑k).frames = [] ∧ e = s.skf (↑k) F.STP_SK_EXPECT_value ∧ (s.sk ↑k).seen.contains ((e + 1) % 2 ^ 32) = false) ∧
    (∃ (s : Machine.State) (k : Fin 512) (q : ℕ) (c : ℕ), (s.sk ↑k).resume = some (q, c) ∧ s.skOn ↑k = true ∧ s.skSends ↑k = true) ∧
    (∃ (s : Machine.State) (k : Fin 512) (c : Instr), s.skSends ↑k = true ∧ (c = Instr.haltRepeat k ∧ (s.skState ↑k = 4 ∨ s.skState ↑k = 5) ∨ c = Instr.easeRepeat k ∧ s.skState ↑k = 3)) :=
  ⟨⟨headS (skS 2 sk1) 1, 0, _, _, _, _, rfl, rfl, rfl, rfl, by decide +kernel⟩,
   ⟨skS 2 { sk1 with seen := [12], frames := [] }, 0, 9, by decide +kernel⟩,
   ⟨skS 4 { sk1 with resume := some (4, 2) }, 0, 4, 2, by decide +kernel⟩,
   ⟨skS 4 { sk1 with resume := some (4, 2) }, 0, .haltRepeat 0, by decide +kernel⟩⟩

/-- The hypotheses of `Obligations.StreamPortsAndContexts` are met. -/
theorem witness_StreamPortsAndContexts :
    (∃ (s : Machine.State) (rq : Requester) (k : Fin 512) (w : Word) (n : Fin 2) (prio : Fin 8) (time : BitVec 16) (ns : Bool) (a : BitVec 128), s.ethUp ↑n = true ∧ s.skPausing ↑n ↑prio ≠ [] ∧ time ≠ 0 ∧ a.toNat = s.ethIp (↑n) ns ∧ bitOf (s.eth ↑n).paused ↑prio = false ∧ s.grants rq (P.stream ↑k) = true ∧ bitOf (BitVec.toNat w) 31 = false) ∧
    (∃ (s : Machine.State) (rq : Requester) (k : Fin 512) (w : Word) (u : Machine.State) (cs : List ℕ) (n : Fin 2) (prio : Fin 8) (ns : Bool) (a : BitVec 128), (u = (s.each [F.STP_SK_BIND_stream_id, F.STP_SK_BIND_port, F.STP_SK_BIND_peer, F.STP_SK_BIND_tenant, F.STP_SK_BIND_pfc] fun g s => s.setSkf (↑k) g (bits (BitVec.toNat w) (g 0).lo (g 0).len)).setSkf (↑k) F.STP_SK_BIND_enable 1) ∧ s.ethUp ↑n = true ∧ s.skPausing ↑n ↑prio = [] ∧ a.toNat ≠ s.ethIp (↑n) ns ∧ s.grants rq (P.stream ↑k) = true ∧ bitOf (BitVec.toNat w) 31 = true ∧ s.skOn ↑k = false ∧ u.skCheck ↑k = some cs) ∧
    (∃ (s : Machine.State) (n : Fin 2), s.ethUp ↑n = false ∧ s.ready = true ∧ s.flag (P.stp (1 + ↑n)) F.STP_PORT_CTL_enable = true ∧ s.ethMac ↑n ≠ 0 ∧ s.devFailed = false ∧ s.hubOff = false) ∧
    (∃ (s : Machine.State) (n : Fin 2) (prio : Fin 8), bitOf (s.eth ↑n).paused ↑prio = true) ∧
    (∃ (s : Machine.State) (n : Fin 2), s.ethMac ↑n = 0) ∧
    (∃ (s : Machine.State) (rq : Requester) (k : Fin 512) (w : Word) (u : Machine.State), (u = (s.each [F.STP_SK_BIND_stream_id, F.STP_SK_BIND_port, F.STP_SK_BIND_peer, F.STP_SK_BIND_tenant, F.STP_SK_BIND_pfc] fun g s => s.setSkf (↑k) g (bits (BitVec.toNat w) (g 0).lo (g 0).len)).setSkf (↑k) F.STP_SK_BIND_enable 1) ∧ s.grants rq (P.stream ↑k) = true ∧ bitOf (BitVec.toNat w) 31 = true ∧ s.skOn ↑k = false ∧ u.skCheck ↑k = none) :=
  ⟨⟨skS 4 sk1 [(P.stream 0, F.STP_SK_BIND_pfc 0, 1)], .fw, 0, 0, 0, 0, 1, false, 2, by decide +kernel⟩,
   ⟨skOff, .fw, 0, 0x80800005, _, [605, 606, 607, 611], 0, 0, false, 0, rfl, by decide +kernel⟩,
   ⟨skS 2 sk1 [(P.stp 0, F.STP_STS_link_up, 0), (P.stp 1, F.STP_PORT_CTL_enable, 1)], 0, by decide +kernel⟩,
   ⟨paused0 (skS 2 sk1), 0, 0, by decide +kernel⟩,
   ⟨State.reset, 0, by decide +kernel⟩,
   ⟨skOff, .fw, 0, 0x80000005, _, rfl, by decide +kernel⟩⟩

/-- The hypotheses of `Obligations.CodecSessionsAndEngines` are met. -/
theorem witness_CodecSessionsAndEngines :
    (∃ (s : Machine.State) (rq : Requester) (n : Fin 4) (i : Fin 64) (w : Word) (u : Machine.State) (v : VcSt), (u = (s.each vcLive fun g s => s.setVcf (↑i) g (bits (BitVec.toNat w) (g 0).lo (g 0).len)).setVcf (↑i) F.VCE_SS_BIND_enable 1) ∧ (v =
  have __src := VcSt.reset;
  { __src with par := u.apRead (u.vcTenant ↑i) (u.vcCtl ↑i) 256, cancel := leNat (u.apRead (u.vcTenant ↑i) (u.vcCtl ↑i + 324) 1), gen := (s.vc ↑i).gen }) ∧ s.grants rq (vcPg ↑i) = true ∧ bitOf (BitVec.toNat w) 31 = true ∧ s.vcOn ↑i = false ∧ u.vcRefuse (↑i) v = none ∧ s.grants rq (P.vce (↑n) 0) = true ∧ (s.engine ↑n = 0 ∨ s.engine ↑n = 4) ∧ (∀ i < 64, s.vcOn i = true → bitOf (s.vcMask i) ↑n = false) ∧ (s.engine ↑n ≠ 3 ∨ s.vclkLost = true) ∧ s.engine ↑n ≠ 2 ∧ s.engine ↑n ≠ 3) ∧
    (∃ (s : Machine.State) (rq : Requester) (n : Fin 4) (i : Fin 64) (w : Word), s.grants rq (vcPg ↑i) = true ∧ bitOf (BitVec.toNat w) 31 = false ∧ s.vcOn ↑i = false ∧ s.grants rq (P.vce (↑n) 0) = true ∧ (s.engine ↑n = 1 ∨ s.engine ↑n = 2 ∨ s.engine ↑n = 3) ∧ s.engine ↑n = 3 ∧ s.vclkLost = false) ∧
    (∃ (s : Machine.State) (rq : Requester) (i : Fin 64) (w : Word) (u : Machine.State) (v : VcSt) (c : ℕ) (d : ℕ), (u = (s.each vcLive fun g s => s.setVcf (↑i) g (bits (BitVec.toNat w) (g 0).lo (g 0).len)).setVcf (↑i) F.VCE_SS_BIND_enable 1) ∧ (v =
  have __src := VcSt.reset;
  { __src with par := u.apRead (u.vcTenant ↑i) (u.vcCtl ↑i) 256, cancel := leNat (u.apRead (u.vcTenant ↑i) (u.vcCtl ↑i + 324) 1), gen := (s.vc ↑i).gen }) ∧ s.grants rq (vcPg ↑i) = true ∧ bitOf (BitVec.toNat w) 31 = true ∧ s.vcOn ↑i = false ∧ u.vcRefuse (↑i) v = some (c, d)) ∧
    (∃ (s : Machine.State) (rq : Requester) (i : Fin 64) (w : Word), s.grants rq (vcPg ↑i) = true ∧ bitOf (BitVec.toNat w) 31 = false ∧ (s.vcState ↑i = 1 ∨ s.vcState ↑i = 5) ∧ (s.vc ↑i).run = none ∧ (s.vc ↑i).ended = [] ∧ (s.vc ↑i).c = (s.vc ↑i).vis) ∧
    (∃ (s : Machine.State) (n : Fin 4), s.engine ↑n = 2) :=
  ⟨⟨vcS 0 0 VcSt.reset (picB 1) 0, .fw, 0, 0, 0x80000401, _, _, rfl, rfl, by decide +kernel⟩,
   ⟨put [(P.vce 3 0, F.VCE_STS_state, 3)] rdy, .fw, 3, 0, 0, by decide +kernel⟩,
   ⟨vcS 0 0 VcSt.reset (picB 1) 0, .fw, 0, 0x80000C01, _, _, 3, 5, rfl, rfl, by decide +kernel⟩,
   ⟨vcS 1 0 VcSt.reset (picB 1) 0, .fw, 0, 0x401, by decide +kernel⟩,
   ⟨put [(P.vce 3 0, F.VCE_STS_state, 2)] rdy, 3, by decide +kernel⟩⟩

/-- The hypotheses of `Obligations.CodecCommandResults` are met. -/
theorem witness_CodecCommandResults :
    (∃ (s : Machine.State) (i : Fin 64) (v : VcSt) (a : ℕ) (p : ℕ) (d : ℕ), v = s.vc ↑i ∧ a = s.vcCtl ↑i + 320 ∧ p = leNat (s.apRead (s.vcTenant ↑i) a 4) ∧ d = (p + 2 ^ 32 - v.c) % 2 ^ 32 ∧ (s.vcState ↑i = 1 ∨ s.vcState ↑i = 2) ∧ s.tnState (s.vcTenant ↑i) ≠ 3 ∧ v.ended = [] ∧ s.apPoison (s.vcTenant ↑i) a 8 = none ∧ leNat (s.apRead (s.vcTenant ↑i) (a + 4) 1) = v.cancel ∧ v.prod ≠ some p ∧ d ≤ 256 ∧ s.vcTurn (s.vcMask ↑i) ≠ some ↑i ∧ v.encodes = true) ∧
    (∃ (s : Machine.State) (i : Fin 64) (v : VcSt) (cmd : List Byte) (c : Instr), v = s.vc ↑i ∧ cmd = s.vcCmd (↑i) v.c ∧ (c = if v.encodes = true then Instr.vceEncode i else Instr.vceDecode i) ∧ s.vcTurn (s.vcMask ↑i) = some ↑i ∧ s.vcCmdBad (↑i) cmd = none ∧ v.encodes = false) ∧
    (∃ (s : Machine.State) (i : Fin 64) (v : VcSt) (a : ℕ) (p : ℕ) (d : ℕ), v = s.vc ↑i ∧ a = s.vcCtl ↑i + 320 ∧ p = leNat (s.apRead (s.vcTenant ↑i) a 4) ∧ d = (p + 2 ^ 32 - v.c) % 2 ^ 32 ∧ (s.vcState ↑i = 1 ∨ s.vcState ↑i = 2) ∧ s.tnState (s.vcTenant ↑i) ≠ 3 ∧ v.ended = [] ∧ s.apPoison (s.vcTenant ↑i) a 8 = none ∧ leNat (s.apRead (s.vcTenant ↑i) (a + 4) 1) = v.cancel ∧ v.prod ≠ some p ∧ 256 < d) ∧
    (∃ (s : Machine.State) (i : Fin 64) (v : VcSt) (cmd : List Byte) (c : Instr) (o : ℕ), v = s.vc ↑i ∧ cmd = s.vcCmd (↑i) v.c ∧ (c = if v.encodes = true then Instr.vceEncode i else Instr.vceDecode i) ∧ s.vcTurn (s.vcMask ↑i) = some ↑i ∧ s.vcCmdBad (↑i) cmd = some o ∧ s.entryGoes (s.vcTenant ↑i) (s.vcQueue ↑i) = true) :=
  ⟨⟨vcS 1 0 VcSt.reset (picB 1) 256, 0, _, _, _, _, rfl, rfl, rfl, rfl, by decide +kernel⟩,
   ⟨vcS 1 1 { VcSt.reset with vis := 1 } (picB 2) 1, 0, _, _, _, rfl, rfl, rfl, by decide +kernel⟩,
   ⟨vcS 1 0 VcSt.reset (picB 1) 257, 0, _, _, _, _, rfl, rfl, rfl, rfl, by decide +kernel⟩,
   ⟨vcS 1 0 { VcSt.reset with vis := 1 } (picB 2) 1, 0, _, _, _, 4, rfl, rfl, rfl, by decide +kernel⟩⟩

/-- The hypotheses of `Obligations.CodecPictureResults` (part 1) are met. -/
theorem witness_CodecPictureResults_1 :
    (∃ (s : Machine.State) (i : Fin 64) (v : VcSt) (r : VcRun) (len : ℕ) (a : ℕ) (h : ℕ) (d : ℕ), v = s.vc ↑i ∧ a = s.vcOut ↑i + 64 ∧ h = leNat (s.apRead (s.vcTenant ↑i) a 4) ∧ d = (h + 2 ^ 32 - v.head) % 2 ^ 32 ∧ v.run = some r ∧ v.encodes = true ∧ v.stall = none ∧ r.inPoison = none ∧ v.constQp = false ∧ v.b < v.bytes len ∧ r.twice = false ∧ s.vcOn ↑i = true ∧ s.tnState (s.vcTenant ↑i) ≠ 3 ∧ s.apPoison (s.vcTenant ↑i) a 4 = none ∧ d = 0) ∧
    (∃ (s : Machine.State) (i : Fin 64) (v : VcSt) (r : VcRun) (len : ℕ) (a : ℕ) (h : ℕ) (d : ℕ) (o : ℕ), v = s.vc ↑i ∧ a = s.vcOut ↑i + 64 ∧ h = leNat (s.apRead (s.vcTenant ↑i) a 4) ∧ d = (h + 2 ^ 32 - v.head) % 2 ^ 32 ∧ v.run = some r ∧ v.encodes = true ∧ v.stall = none ∧ r.inPoison = none ∧ v.constQp = true ∧ r.refPoison = none ∧ v.ended = [] ∧ s.vcState ↑i = 2 ∧ s.entryGoes (s.vcTenant ↑i) (s.vcQueue ↑i) = true ∧ s.vcPlace (↑i) len = some o ∧ s.vcOn ↑i = true ∧ s.tnState (s.vcTenant ↑i) ≠ 3 ∧ s.apPoison (s.vcTenant ↑i) a 4 = none ∧ 0 < d ∧ d ≤ v.live.length) ∧
    (∃ (s : Machine.State) (i : Fin 64) (v : VcSt) (r : VcRun) (dec : DecIn), v = s.vc ↑i ∧ v.run = some r ∧ v.encodes = false ∧ r.inPoison = none ∧ (s.vcRefPoison (↑i) (List.filter (fun j => bitOf dec.refs.toNat j) (List.range (v.p 20 1 + 1))) = none) ∧ v.ended = [] ∧ s.vcState ↑i = 2 ∧ s.entryGoes (s.vcTenant ↑i) (s.vcQueue ↑i) = true ∧ dec.exceeded = none) ∧
    (∃ (s : Machine.State) (i : Fin 64) (v : VcSt) (r : VcRun) (a : ℕ) (h : ℕ) (d : ℕ), v = s.vc ↑i ∧ a = s.vcOut ↑i + 64 ∧ h = leNat (s.apRead (s.vcTenant ↑i) a 4) ∧ d = (h + 2 ^ 32 - v.head) % 2 ^ 32 ∧ v.run = some r ∧ s.vcOn ↑i = true ∧ v.encodes = true ∧ s.tnState (s.vcTenant ↑i) ≠ 3 ∧ s.apPoison (s.vcTenant ↑i) a 4 = none ∧ v.live.length < d) ∧
    (∃ (s : Machine.State) (i : Fin 64) (v : VcSt) (r : VcRun) (dec : DecIn) (o : Fin 256), v = s.vc ↑i ∧ v.run = some r ∧ v.encodes = false ∧ r.inPoison = none ∧ (s.vcRefPoison (↑i) (List.filter (fun j => bitOf dec.refs.toNat j) (List.range (v.p 20 1 + 1))) = none) ∧ v.ended = [] ∧ s.vcState ↑i = 2 ∧ s.entryGoes (s.vcTenant ↑i) (s.vcQueue ↑i) = true ∧ dec.exceeded = some o) ∧
    (∃ (s : Machine.State) (i : Fin 64) (v : VcSt) (r : VcRun) (len : ℕ), v = s.vc ↑i ∧ v.run = some r ∧ v.encodes = true ∧ v.stall = none ∧ r.inPoison = none ∧ v.constQp = true ∧ s.vcPlace (↑i) len = none) :=
  ⟨⟨rateS, 0, _, ((rateS.vc ↑0).run.get (by decide +kernel)), 100, _, _, _, rfl, rfl, rfl, rfl, by decide +kernel⟩,
   ⟨headS2 (vcS 2 0 { VcSt.reset with run := some (run1 1), live := [(0, 64)] } (picB 1) 0) 1, 0, _, run1 1, 0, _, _, _, 0, rfl, rfl, rfl, rfl, by decide +kernel⟩,
   ⟨vcS 2 1 { VcSt.reset with run := some (run1 2) } (picB 2) 0, 0, _, run1 2, dec1 none, rfl, by decide +kernel⟩,
   ⟨headS2 (vcS 2 0 { VcSt.reset with run := some (run1 1), live := [(0, 64)] } (picB 1) 0) 2, 0, _, run1 1, _, _, _, rfl, rfl, rfl, rfl, by decide +kernel⟩,
   ⟨vcS 2 1 { VcSt.reset with run := some (run1 2) } (picB 2) 0, 0, _, run1 2, dec1 (some 3), 3, rfl, by decide +kernel⟩,
   ⟨vcS 2 0 { VcSt.reset with run := some (run1 1) } (picB 1) 0, 0, _, run1 1, 65537, rfl, by decide +kernel⟩⟩

/-- The hypotheses of `Obligations.CodecPictureResults` (part 2) are met. -/
theorem witness_CodecPictureResults_2 :
    ∃ (s : Machine.State) (i : Fin 64) (v : VcSt) (r : VcRun), v = s.vc ↑i ∧ v.run = some r ∧ s.vcOn ↑i = false :=
  ⟨vcS 0 0 { VcSt.reset with run := some (run1 1) } (picB 1) 0, 0, _, run1 1, rfl, by decide +kernel⟩

/-- The hypotheses of `Obligations.OperatingPointsAndDomains` (part 1) are met. -/
theorem witness_OperatingPointsAndDomains_1 :
    (∃ (s : Machine.State) (ti : Fin 8) (i : Fin 136) (rq : Requester) (c : OppChg), c = s.chg ↑ti ∧ (s.regOn ↑ti = false ∨ (s.oppTarget ↑ti).1 = if c.active = true then c.goal else s.fld (P.pwrT ↑ti) F.PWR_T_STS_opp) ∧ c.active = false ∧ (s.held = [] ∨ s.flag (P.pwrT ↑ti) F.PWR_T_STS_busy = true) ∧ s.grants rq (P.pwrT ↑ti) = true ∧ s.grants rq P.pwr = true ∧ s.flag P.pwr F.PG_LOCK_locked = false ∧ s.dom ↑ti ↑i = 2 ∧ s.ramp ↑ti ↑i % 8 < 3 ∧ bitOf (s.ramp ↑ti ↑i) 4 = false ∧ bitOf (s.ramp ↑ti ↑i) 3 = false) ∧
    (∃ (s : Machine.State) (ti : Fin 8) (i : Fin 136) (c : OppChg), c = s.chg ↑ti ∧ s.regOn ↑ti = true ∧ ((s.oppTarget ↑ti).1 ≠ if c.active = true then c.goal else s.fld (P.pwrT ↑ti) F.PWR_T_STS_opp) ∧ c.active = true ∧ Tab.get held0 s.held ↑ti = [] ∧ c.goal ≤ c.freq ∧ c.vdd = false ∧ c.goal = c.freq ∧ s.vddHeld ↑ti = false ∧ s.dom ↑ti ↑i ≠ 2) ∧
    (∃ (s : Machine.State) (ti : Fin 8) (i : Fin 136), s.dom ↑ti ↑i = 2 ∧ s.ramp ↑ti ↑i % 8 = 3 ∧ bitOf (s.ramp ↑ti ↑i) 3 = false ∧ bitOf (s.ramp ↑ti ↑i) 4 = true) ∧
    (∃ (s : Machine.State) (ti : Fin 8) (c : OppChg), c = s.chg ↑ti ∧ c.active = true ∧ Tab.get held0 s.held ↑ti = [] ∧ c.freq < c.goal ∧ c.vdd = false) ∧
    (∃ (s : Machine.State) (ti : Fin 8) (c : OppChg), c = s.chg ↑ti ∧ c.active = true ∧ Tab.get held0 s.held ↑ti = [] ∧ c.freq < c.goal ∧ c.vdd = true) ∧
    (∃ (s : Machine.State) (ti : Fin 8) (c : OppChg), c = s.chg ↑ti ∧ c.active = true ∧ Tab.get held0 s.held ↑ti = [] ∧ c.goal < c.freq) :=
  ⟨⟨domS 0 5 2 1, 0, 5, .fw, _, rfl, by decide +kernel⟩,
   ⟨oppS ⟨true, 5, 5, false, false⟩, 0, 0, _, rfl, by decide +kernel⟩,
   ⟨domS 0 135 2 19, 0, 135, by decide +kernel⟩,
   ⟨oppS ⟨true, 3, 5, false, false⟩, 0, _, rfl, by decide +kernel⟩,
   ⟨oppS ⟨true, 3, 5, false, true⟩, 0, _, rfl, by decide +kernel⟩,
   ⟨oppS ⟨true, 5, 3, true, false⟩, 0, _, rfl, by decide +kernel⟩⟩

/-- The hypotheses of `Obligations.OperatingPointsAndDomains` (part 2) are met. -/
theorem witness_OperatingPointsAndDomains_2 :
    (∃ (s : Machine.State) (ti : Fin 8) (rq : Requester) (w : Word) (c : OppChg), c = s.chg ↑ti ∧ s.grants rq P.pwr = true ∧ s.flag P.pwr F.PG_LOCK_locked = true ∧ s.fld P.pwr F.PWR_LIMIT_p_sust ≠ bits (BitVec.toNat w) 0 8) ∧
    (∃ (s : Machine.State) (ti : Fin 8) (j : ℕ), ((List.filter (fun k => s.dom (↑ti) k == 2) (List.range 136)).length < s.rampSlots ↑ti) ∧ j < 136 ∧ s.dom (↑ti) j = 1 ∧ (j < 8 ∨ s.dom (↑ti) (domClu j) = 3) ∧ (∀ k < j, s.dom (↑ti) k ≠ 1 ∨ 8 ≤ k ∧ s.dom (↑ti) (domClu k) ≠ 3)) ∧
    (∃ (s : Machine.State) (ti : Fin 8) (i : Fin 136), s.dom ↑ti ↑i = 2 ∧ s.ramp ↑ti ↑i % 8 = 3 ∧ bitOf (s.ramp ↑ti ↑i) 3 = true) ∧
    (∃ (s : Machine.State) (ti : Fin 8) (i : Fin 136), s.dom ↑ti ↑i = 2 ∧ s.ramp ↑ti ↑i % 8 = 4) ∧
    (∃ (s : Machine.State) (ti : Fin 8), (s.rampSlots ↑ti ≤ (List.filter (fun k => s.dom (↑ti) k == 2) (List.range 136)).length)) ∧
    (∃ (s : Machine.State) (ti : Fin 8) (c : OppChg) (h : Held) (u : Machine.State), c = s.chg ↑ti ∧ (u =
  have __src := s.pllLock ↑ti;
  { __src with held := Tab.set held0 s.held ↑ti [] }) ∧ c.active = true ∧ c.freq < c.goal ∧ c.vdd = true ∧ Tab.get held0 s.held ↑ti = [h]) :=
  ⟨⟨oppS OppChg.none [(P.pwr, F.PG_LOCK_locked, 1)], 0, .fw, 31, _, rfl, by decide +kernel⟩,
   ⟨domS 0 5 1 0, 0, 5, by decide +kernel⟩,
   ⟨domS 0 135 2 11, 0, 135, by decide +kernel⟩,
   ⟨domS 0 135 2 4, 0, 135, by decide +kernel⟩,
   ⟨domS 0 5 2 1 ((List.range 4).map fun k => (P.pwrT 0, domFld (10 + k), 2)), 0, by decide +kernel⟩,
   ⟨{ oppS ⟨true, 3, 5, false, true⟩ with held := [(0, [.retrain 0])] }, 0, _, .retrain 0, _, rfl, rfl, by decide +kernel⟩⟩

/-- The hypotheses of `Obligations.PowerAndSupply` (part 1) are met. -/
theorem witness_PowerAndSupply_1 :
    (∃ (s : Machine.State) (ti : Fin 8) (e : ℕ) (c : ℕ) (p : ℕ) (k : ℕ), e = s.power.bucket ∧ c = s.bucketCap ∧ p = s.pAvg ∧ k = s.fld P.pwr F.PWR_STS_cap ∧ s.aoUp = true ∧ s.thm.tripped = false ∧ k < 32 ∧ s.flag P.pwr F.PWR_STS_clamp = false ∧ 10 * e < 9 * c ∧ 2 * e ≤ c ∧ 100 * p ≤ 97 * s.pSust ∧ s.regOn ↑ti = true ∧ (∀ p < 8, s.ptState p = 0) ∧ s.findRst 4 ↑ti = none ∧ bitOf s.power.rails 0 = false ∧ (∀ p < 4, s.linkUp p = false) ∧ (∀ p < 4, (s.port p).perst = false)) ∧
    (∃ (s : Machine.State) (ti : Fin 8) (e : ℕ) (c : ℕ) (p : ℕ) (k : ℕ), e = s.power.bucket ∧ c = s.bucketCap ∧ p = s.pAvg ∧ k = s.fld P.pwr F.PWR_STS_cap ∧ k < 32 ∧ s.flag P.pwr F.PWR_STS_clamp = false ∧ 9 * c ≤ 10 * e ∧ s.pSust < p ∧ s.regOn ↑ti = false) ∧
    (∃ (s : Machine.State) (e : ℕ) (c : ℕ) (p : ℕ) (k : ℕ), e = s.power.bucket ∧ c = s.bucketCap ∧ p = s.pAvg ∧ k = s.fld P.pwr F.PWR_STS_cap ∧ k < 32 ∧ s.flag P.pwr F.PWR_STS_clamp = false ∧ 10 * e < 9 * c ∧ (c < 2 * e ∨ 97 * s.pSust < 100 * p)) ∧
    (∃ (s : Machine.State), (s.aoUp = false ∨ s.thm.tripped = true)) ∧
    (∃ (s : Machine.State) (c : Instr × ℕ), s.stuck = false ∧ s.hubOff = true ∧ s.inShutdown = false ∧ (c ∈ [(Instr.vinCoreRestored, 0), (Instr.railRestored Rail.vddDram, 1), (Instr.railRestored Rail.vppDram, 2), (Instr.railRestored Rail.vddSer, 3)]) ∧ bitOf s.power.rails c.2 = true ∧ s.power.rails % 16 = 2 ^ c.2) ∧
    (∃ (s : Machine.State) (c : Instr × ℕ), s.stuck = false ∧ s.hubOff = true ∧ s.inShutdown = false ∧ (c ∈ [(Instr.vinCoreRestored, 0), (Instr.railRestored Rail.vddDram, 1), (Instr.railRestored Rail.vppDram, 2), (Instr.railRestored Rail.vddSer, 3)]) ∧ bitOf s.power.rails c.2 = true ∧ s.power.rails % 16 ≠ 2 ^ c.2) ∧
    (∃ (s : Machine.State), s.flag P.pwr F.PWR_STS_clamp = true) :=
  ⟨⟨put [(P.pwrT 0, F.PWR_T_STS_reg_on, 1)] State.reset, 0, _, _, _, _, rfl, rfl, rfl, rfl, by decide +kernel⟩,
   ⟨pwrS 20000 9000000 3, 0, _, _, _, _, rfl, rfl, rfl, rfl, by decide +kernel⟩,
   ⟨pwrS 10000 0 3, _, _, _, _, rfl, rfl, rfl, rfl, by decide +kernel⟩,
   ⟨tripS rdy, by decide +kernel⟩,
   ⟨offS 1, (.vinCoreRestored, 0), by decide +kernel⟩,
   ⟨offS 3, (.vinCoreRestored, 0), by decide +kernel⟩,
   ⟨put [(P.pwr, F.PWR_STS_clamp, 1)] rdy, by decide +kernel⟩⟩

/-- The hypotheses of `Obligations.PowerAndSupply` (part 2) are met. -/
theorem witness_PowerAndSupply_2 :
    ∃ (s : Machine.State) (c : Instr × ℕ), s.hubOff = false ∧ s.stuck = false ∧ (c ∈ [(Instr.vinCoreLow, 0), (Instr.railLoss Rail.vddDram, 1), (Instr.railLoss Rail.vppDram, 2), (Instr.railLoss Rail.vddSer, 3)]) :=
  ⟨oppS OppChg.none, (.vinCoreLow, 0), by decide +kernel⟩

/-- The hypotheses of `Obligations.ThermalResults` are met. -/
theorem witness_ThermalResults :
    (∃ (s : Machine.State) (ti : Fin 8) (d : Fin 9) (b : ℕ) (v : BitVec 11) (x : ℤ), b = s.band ↑d ∧ x = sgn 11 v.toNat ∧ -160 ≤ x ∧ x ≤ 600 ∧ s.aoUp = true ∧ s.thm.tripped = false ∧ (∀ k < sensorCount ↑d, s.flag (thmPage ↑d) (sensorValid (↑d) k) = true ∨ (Tab.get sens0 s.thm.sens (32 * ↑d + k)).seen = false) ∧ x < 4 * ↑(s.fld (P.thm 0) F.THM_CFG_trip_logic) ∧ x < 4 * ↑(s.fld (P.thm 0) F.THM_CFG_trip_dram) ∧ (s.thmState ↑ti ≠ 1 ∨ s.mustThrottle ↑ti = false) ∧ (2 ≤ s.thmState ↑ti ∨ s.mayRelease ↑ti = false) ∧ b < 4 ∧ (b = 0 ∨ s.bandMet (↑d) b 7 = true)) ∧
    (∃ (s : Machine.State) (ti : Fin 8) (d : Fin 9) (b : ℕ) (v : BitVec 11) (x : ℤ), b = s.refreshBand ↑ti ∧ x = sgn 11 v.toNat ∧ -160 ≤ x ∧ x ≤ 600 ∧ s.aoUp = true ∧ s.thm.tripped = false ∧ (∀ k < sensorCount ↑d, s.flag (thmPage ↑d) (sensorValid (↑d) k) = true ∨ (Tab.get sens0 s.thm.sens (32 * ↑d + k)).seen = false) ∧ 4 * ↑(s.fld (P.thm 0) F.THM_CFG_trip_logic) ≤ x ∧ 4 * ↑(s.fld (P.thm 0) F.THM_CFG_trip_dram) ≤ x ∧ (b = 0 ∨ s.dramOf ↑ti = [] ∨ ∃ v ∈ s.dramOf ↑ti, degC (if b = 2 then 92 else 82) < v)) ∧
    (∃ (s : Machine.State) (ti : Fin 8) (d : Fin 9) (b : ℕ), b = s.band ↑d ∧ s.thmState ↑ti < 2 ∧ s.mayRelease ↑ti = true ∧ s.maxOpp < 32 ∧ b < 4 ∧ 0 < b ∧ s.bandMet (↑d) b 7 = false) ∧
    (∃ (s : Machine.State) (ti : Fin 8) (b : ℕ), b = s.refreshBand ↑ti ∧ 0 < b ∧ s.dramOf ↑ti ≠ [] ∧ (∀ v ∈ s.dramOf ↑ti, v ≤ degC (if b = 2 then 92 else 82))) ∧
    (∃ (s : Machine.State) (ti : Fin 8), s.thmState ↑ti = 1 ∧ s.mustThrottle ↑ti = true ∧ s.thmReq ↑ti < 32) ∧
    (∃ (s : Machine.State), (s.aoUp = false ∨ s.thm.tripped = true)) :=
  ⟨⟨rdy, 0, 0, _, 1900, _, rfl, rfl, by decide +kernel⟩,
   ⟨rdy, 0, 0, _, 520, _, rfl, rfl, by decide +kernel⟩,
   ⟨thmS 300 [(P.thmT 0, F.THM_T_STS_band, 2)], 0, 0, _, rfl, by decide +kernel⟩,
   ⟨bandS 2 (thmS 368 []), 0, _, rfl, by decide +kernel⟩,
   ⟨thmS 440 [(P.thmT 0, F.THM_T_STS_state, 1), (P.thmT 0, F.THM_T_STS_req, 1)], 0, by decide +kernel⟩,
   ⟨tripS rdy, by decide +kernel⟩⟩

/-- The hypotheses of `Obligations.CoolingResults` (part 1) are met. -/
theorem witness_CoolingResults_1 :
    (∃ (s : Machine.State) (rq : Requester) (k : Fin 2) (temp : ℤ) (v : ℤ), v = max (-200) (min 1200 temp) ∧ s.aoUp = true ∧ s.thm.tripped = false ∧ s.flag (P.thm 1) (F.THM_EXT_broken ↑k) = false ∧ s.okEn = false ∧ (∀ v ∈ s.allOf 8, v ≤ 420) ∧ s.grants rq (P.thm 1) = true ∧ s.inShutdown = false ∧ s.thm.rising = false ∧ (s.thm.pinLow = true ∨ s.okEn = false) ∧ (s.inShutdown = true ∨ s.fld (P.thm 0) F.THM_STS_cause % 4 = 0) ∧ s.trail.queue.length < 16 ∧ s.hubDead = false ∧ s.stuck = false ∧ s.grants rq (P.thm 0) = true ∧ s.flag (P.thm 0) F.PG_LOCK_locked = false ∧ s.grants rq (P.disp 5) = true) ∧
    (∃ (s : Machine.State) (rq : Requester), s.okEn = true ∧ s.inShutdown = false ∧ s.stuck = false ∧ s.hubOff = false ∧ s.grants rq (P.thm 1) = true ∧ (s.inShutdown = true ∨ s.thm.rising = true ∨ s.thm.pinLow = false ∧ s.okEn = true)) ∧
    (∃ (s : Machine.State), (s.aoUp = false ∨ s.thm.tripped = true)) ∧
    (∃ (s : Machine.State), (∃ v ∈ s.allOf 8, 420 < v)) ∧
    (∃ (s : Machine.State), s.inShutdown = false ∧ s.stuck = false ∧ s.hubOff = false ∧ s.fld (P.thm 0) F.THM_STS_cause % 4 ≠ 0 ∧ (∀ k < 512, s.skOn k = false)) ∧
    (∃ (s : Machine.State), s.inShutdown = true ∧ s.hubOff = false ∧ s.stuck = false) :=
  ⟨⟨rdy, .fw, 1, 100, _, rfl, by decide +kernel⟩,
   ⟨put [(P.thm 1, F.THM_COOL_CFG_ok_en, 1)] rdy, .fw, by decide +kernel⟩,
   ⟨tripS rdy, by decide +kernel⟩,
   ⟨hubHot, by decide +kernel⟩,
   ⟨put [(P.thm 0, F.THM_STS_cause, 1)] rdy, by decide +kernel⟩,
   ⟨shut false, by decide +kernel⟩⟩

/-- The hypotheses of `Obligations.CoolingResults` (part 2) are met. -/
theorem witness_CoolingResults_2 :
    (∃ (s : Machine.State) (rq : Requester) (w : Word), s.grants rq (P.thm 0) = true ∧ s.flag (P.thm 0) F.PG_LOCK_locked = true ∧ bits (BitVec.toNat w) 0 7 ≠ s.fld (P.thm 0) F.THM_CFG_t_throttle) ∧
    (∃ (s : Machine.State), s.hubDead = true) :=
  ⟨⟨lockS (P.thm 0), .fw, 84, by decide +kernel⟩,
   ⟨failed rdy, by decide +kernel⟩⟩

/-- The hypotheses of `Obligations.AttentionResults` for an attention over its translated pages are met. -/
theorem witness_AttentionRead : ∃ (x : Fin 512) (s : State) (o : AtuOp) (b : List Byte) (u w : State) (idxs : List Nat) (refs : List KvRef) (pages : _),
    u = { s with atuLast := Tab.set nat0 s.atuLast (x.val / 8) (x.val % 8) } ∧
    idxs = ((List.range ((dNum b 8 4 + 63) / 64)).filter fun i => !(u.aSeen x b i).isEmpty) ∧
    u.kvTranslateAll (x / 8) 0 1 (dNum b 0 8) idxs = (.ok refs, w) ∧ w.attnPages 0 (w.aSeen x b) refs = .ok pages ∧
    b = o.blk ∧ s.jobPlace x = some (0, 1, 1) ∧ s.atuHead x 0 = some o ∧ s.attnNext (x / 8) = some x.val ∧ s.poolState 0 = 2 ∧
    kvDim (dNum b 0x2A 1) = (s.kvPool 0).d ∧ bitOf (dNum b 0x2D 1) 2 = false ∧
    u.stores.firstPoison (stoKey x (0x80000 + dNum b 0x10 4)) (dNum b 0x28 1 * dNum b 0x29 1 * kvDim (dNum b 0x2A 1) * qBytes (dNum b 0x2B 1)) = none ∧
    bitOf (dNum b 0x2E 2) 0 = false :=
  ⟨0, kvS 1 [1, 2, 3] 0 attB, ⟨0, 3, 0x1000, attB, 0x80100, false⟩, attB, _, _, _, [⟨0, some (0, ⟨0x8000, 1, 1, 1, 0, 1, 1, 0, 0⟩)⟩], _,
    rfl, rfl, Prod.ext (by decide +kernel) rfl, rfl, rfl, by decide +kernel⟩

/-- The hypotheses of `Obligations.FetchAndFieldTraps`, of each clause, are met. -/
theorem witness_FetchAndFieldTraps :
    (∃ (x : Fin 512) (i : Pk) (s : State) (e : Instr × Form), e ∈ pkForms x i ∧ s.executes x = false) ∧
    (∃ (x : Fin 512) (i : Pk) (s : State) (e : Instr × Form), e ∈ pkForms x i ∧ s.executes x = true ∧ 0x80000 < (s.core x).pc + 8) ∧
    (∃ (x : Fin 512) (i : Pk) (s : State) (e : Instr × Form), e ∈ pkForms x i ∧ s.executes x = true ∧ (s.core x).pc + 8 ≤ 0x80000 ∧ (s.core x).pc % 8 ≠ 0) ∧
    (∃ (x : Fin 512) (i : Pk) (s : State) (e : Instr × Form), e ∈ pkForms x i ∧ s.executes x = true ∧ (s.core x).pc + 8 ≤ 0x80000 ∧ (s.core x).pc % 8 = 0 ∧
      s.storeProtected x (s.core x).pc 8 false = true) ∧
    (∃ (x : Fin 512) (i : Pk) (s : State) (e : Instr × Form), e ∈ pkForms x i ∧ s.executes x = true ∧ (s.core x).pc + 8 ≤ 0x80000 ∧ (s.core x).pc % 8 = 0 ∧
      s.storeProtected x (s.core x).pc 8 false = false ∧ (s.coreJob x).isSome = true ∧ s.stores.linePoison (stoKey x (s.core x).pc / 64) = true) ∧
    (∃ (x : Fin 512) (i : Pk) (s : State) (e : Instr × Form), e ∈ pkForms x i ∧ s.executes x = true ∧ s.fetchStop x (s.core x).pc = none ∧ e.2.bad i = true) :=
  have h : ∀ i, (Instr.pkNop 0 i, ({} : Form)) ∈ pkForms 0 i := fun i => by
    unfold pkForms; repeat apply List.mem_append_left
    exact List.Mem.head _
  ⟨⟨0, regs 0 0 0 0, State.reset, _, h _, by decide +kernel⟩,
   ⟨0, regs 0 0 0 0, monC { coreA with pc := 0x7FFFC }, _, h _, by decide +kernel⟩,
   ⟨0, regs 0 0 0 0, monC { coreA with pc := 4 }, _, h _, by decide +kernel⟩,
   ⟨0, regs 0 0 0 0, protS, _, h _, by decide +kernel⟩,
   ⟨0, regs 0 0 0 0, poisI, _, h _, by decide +kernel⟩,
   ⟨0, { regs 0 0 0 0 with rsv := true }, monC { coreA with pc := 0x1000 }, _, h _, by decide +kernel⟩⟩

/-- The hypotheses of `Obligations.StepKeepsCanonicalForm` and of `Obligations.OtherCommandsKeepMemory` are met. -/
theorem witness_StepKeepsCanonicalForm :
    (∃ (c : Instr) (q : List Instr) (s t : State), s.Ok q ∧ exec c s = .next t) ∧ (∃ s t : State, s.Canonical ∧ step s = .next t) :=
  have h : State.reset.Ok [] := ⟨rfl, by decide +kernel, by decide +kernel, by decide +kernel, by decide +kernel⟩
  ⟨⟨.coldPowerOn, [], State.reset, _, h, rfl⟩, ⟨State.reset, _, h, rfl⟩⟩
theorem witness_OtherCommandsKeepMemory :
    (∃ (c : Instr) (s t : State), mayStore c = false ∧ exec c s = .next t ∧ mayLand c = false) ∧
    (∃ (c : Instr) (s t : State), mayStore c = false ∧ exec c s = .next t ∧ mayLand c = true) :=
  ⟨⟨.pkNop 0 (regs 0 0 0 0), State.reset, _, rfl, rfl, rfl⟩, ⟨.cqHeadWrite .fw 1 0 0, tenS [] [], _, rfl, rfl, rfl⟩⟩

/-! An accepted image. SHA-384 and ECDSA P-384 are opaque in the model, so two facts about them are hypotheses here; both are true of the functions the names stand for (the numbers are a digest, a public key and a signature of them). -/

/-- The SHA-384 digest of 64 zero bytes. -/
def zeroDigest : List Byte := leBytes 48 0xbedeb6978ebaba4a4c8869036162440c1b287320bce48f3c8b381a70c3f2133ad2c099709326686c637c453b8daa16c5
/-- A P-384 public key, X before Y, most significant byte first. -/
def imgKey : List Byte := leBytes 96 0x3cabc9df9ddc151a81191e01df65ec950910ae87db19d00a73e480b43b21d23ca548d13b0ad56a3268932cf7f36f6a0183dc188cb22be578c7f795e3431754632b601b264c9f8fad0808a7721c12ae18f6355bc90e850f3987b55e919560f9fb
/-- Its signature, r before s, of `imgSigned`. -/
def imgSig : List Byte := leBytes 96 0xd71a9dfdf3ab9f478be03bedcfbbbbbb38ec084788c815f551fc623f7cd28c0e6ae95d849fdf6823859f078cd63e2db523155360d05c2214398e65518b714f5f6bd7cc61a4a5939abd26bb3ac0192e3c0e462440e1bbe69605aafa2bf859a8fd
/-- A stage-1 image of fw_version 7 for PKG_BUILD 1: header, section table (one critical section of 64 bytes) and body. -/
def imgHead : List Byte :=
  leBytes 4 0x4F444854 ++ leBytes 2 1 ++ leBytes 2 1 ++ leBytes 4 0x180 ++ leBytes 4 7 ++ leBytes 4 0 ++ leBytes 2 1 ++ leBytes 2 0 ++ leBytes 4 0x101 ++
    List.replicate 36 0 ++ imgKey
def imgTable : List Byte := leBytes 2 1 ++ leBytes 2 1 ++ leBytes 4 0x140 ++ leBytes 4 0x40 ++ leBytes 4 0 ++ zeroDigest
def imgSigned : List Byte := imgHead ++ List.replicate 96 0 ++ imgTable
def imgRaw : List Byte := imgHead ++ imgSig ++ imgTable ++ List.replicate 64 0
def img : Image := Image.parse imgRaw
/-- A medium with that image as stage-1 A and none as stage-1 B. -/
def imgDir : List Byte := leBytes 4 0x5244424B ++ leBytes 4 1 ++ leBytes 4 0x1000 ++ leBytes 4 0x180 ++ List.replicate 24 0
def imgMedium : Medium := imgDir ++ (leBytes 4 (linkCrc (byteBits imgDir)) ++ (List.replicate 4052 0 ++ imgRaw))
/-- Bring-up at step 4 of a part that is fused for the key, a push of the medium under way. -/
def pushing : State :=
  let s := stage 4 [(P.boot, F.BOOT_PUSH_CTL_go, 1), (P.boot, F.BOOT_PUSH_CTL_busy, 1), (P.boot, F.BOOT_PUSH_LEN_len, 0x1180), (P.boot, F.BOOT_STRAP_pkg_build, 1)]
  { s with board := { s.board with keys := [(0, Config.sha384 imgKey)] } }
def pushed : State := (pushing.setFlag P.boot F.BOOT_PUSH_CTL_go false).setFlag P.boot F.BOOT_PUSH_CTL_busy false

theorem img_dir : dirOk imgMedium = true := by
  have a : slice imgMedium 0 0x28 = imgDir := by
    rw [slice, imgMedium, List.drop_zero, List.take_append_of_le_length (by decide +kernel)]; decide +kernel
  have b : slice imgMedium 0x28 4 = leBytes 4 (linkCrc (byteBits imgDir)) := by
    rw [slice, imgMedium, List.drop_append_of_le_length (by decide +kernel), show imgDir.drop 0x28 = [] by decide +kernel, List.nil_append,
      List.take_append_of_le_length (by simp [leBytes])]
    simp [leBytes]
  have c : ∀ n, n ≤ 4 → ∀ o, o ≤ 4 → slice imgMedium o n = slice imgDir o n := fun n hn o ho => by
    rw [slice, slice, imgMedium, List.drop_append_of_le_length (by rw [show imgDir.length = 40 by decide +kernel]; omega),
      List.take_append_of_le_length (by rw [List.length_drop, show imgDir.length = 40 by decide +kernel]; omega)]
  rw [dirOk, leAt, leAt, leAt, a, b, c 4 (by decide) 0 (by decide), c 2 (by decide) 4 (by decide), le_four _ (link_crc_lt _)]
  simp [show leNat (slice imgDir 0 4) = 0x5244424B by decide +kernel, show leNat (slice imgDir 4 2) = 1 by decide +kernel]
theorem img_stage1s : stage1s imgMedium = [(0, some img), (1, none)] := by
  have c : ∀ n o, o + n ≤ 0x28 → slice imgMedium o n = slice imgDir o n := fun n o h => by
    rw [slice, slice, imgMedium, List.drop_append_of_le_length (by rw [show imgDir.length = 40 by decide +kernel]; omega),
      List.take_append_of_le_length (by rw [List.length_drop, show imgDir.length = 40 by decide +kernel]; omega)]
  have r : slice imgMedium 0x1000 0x180 = imgRaw := by
    have e : imgMedium = (imgDir ++ (leBytes 4 (linkCrc (byteBits imgDir)) ++ List.replicate 4052 0)) ++ imgRaw := by rw [imgMedium, List.append_assoc, List.append_assoc]
    have n : (imgDir ++ (leBytes 4 (linkCrc (byteBits imgDir)) ++ List.replicate 4052 0)).length = 0x1000 := by
      simp only [List.length_append, List.length_replicate, show imgDir.length = 40 by decide +kernel, leBytes, List.length_cons, List.length_nil]
    rw [slice, e, List.drop_append_of_le_length (le_of_eq n.symm), ← n, List.drop_length, List.nil_append]; decide +kernel
  have k : ∀ n o, o + n ≤ 0x28 → leAt imgMedium o n = leAt imgDir o n := fun n o h => by rw [leAt, leAt, c n o h]
  simp only [stage1s, img_dir, imageAt, k 4 0x08 (by decide), k 4 (0x08 + 4) (by decide), k 4 0x10 (by decide), k 4 (0x10 + 4) (by decide), k 1 0x06 (by decide),
    show leAt imgDir 0x08 4 / 4096 * 4096 = 0x1000 by decide +kernel, show leAt imgDir (0x08 + 4) 4 = 0x180 by decide +kernel,
    show leAt imgDir (0x10 + 4) 4 = 0 by decide +kernel, show leAt imgDir 0x06 1 = 0 by decide +kernel, r]
  rfl
/-- The image is accepted by a part that is fused for its key. -/
theorem img_picked (hd : Config.sha384 (List.replicate 64 0) = zeroDigest) (hs : Config.ecdsaP384 imgKey (Config.sha384 imgSigned) imgSig = true) :
    pushed.pickImage 1 (stage1s imgMedium) = (pushed.loadImage 1 img, [], some (0, img)) := by
  have body : (pushed.loadImage 1 img).sectionBytes 1 img 0 = List.replicate 64 0 := by decide +kernel
  have key : Config.sha384 img.key = Tab.get Config.fusedKey (pushed.loadImage 1 img).board.keys img.keySlot := by
    rw [show img.key = imgKey by decide +kernel, show img.keySlot = 0 by decide +kernel]; rfl
  have sig : Config.ecdsaP384 img.key img.signed img.sig = true := by
    rw [show img.key = imgKey by decide +kernel, show img.sig = imgSig by decide +kernel, Image.signed,
      show slice img.raw 0 0xA0 ++ List.replicate 0x60 0 ++ slice img.raw 0x100 (64 * img.count) = imgSigned by decide +kernel]
    exact hs
  have ok : (pushed.loadImage 1 img).refusal 1 img = none := by
    rw [State.refusal, Image.refusal, show img.formed 1 = true by decide +kernel,
      show img.fits ((pushed.loadImage 1 img).fld P.boot F.BOOT_STRAP_pkg_build) = true by decide +kernel, sig,
      show img.sections.length = 1 by decide +kernel]
    simp only [key, show bitOf (pushed.loadImage 1 img).board.revoked img.keySlot = false by decide +kernel,
      show ¬img.secVersion < (pushed.loadImage 1 img).board.svn by decide +kernel, List.range, List.range.loop, List.find?, body, hd,
      show img.sections[0]? = some ⟨1, true, 0x140, 0x40, zeroDigest⟩ by decide +kernel]
    simp
  rw [img_stage1s, State.pickImage, ok]

/-- The hypotheses of `Obligations.BringupAndPush` for a pushed image that is accepted, and those of `Obligations.PldmResults` for one that arrives over MCTP, are met. -/
theorem witness_AcceptedPush (hd : Config.sha384 (List.replicate 64 0) = zeroDigest) (hs : Config.ecdsaP384 imgKey (Config.sha384 imgSigned) imgSig = true) :
    (∃ (s : State) (m : Medium) (s1 u : State) (k : Nat) (im : Image), s1 = (s.setFlag P.boot F.BOOT_PUSH_CTL_go false).setFlag P.boot F.BOOT_PUSH_CTL_busy false ∧
      s1.pickImage 1 (stage1s (List.take (s.fld P.boot F.BOOT_PUSH_LEN_len) m)) = (u, [], some (k, im)) ∧
      s.flag P.boot F.BOOT_PUSH_CTL_go = true ∧ s.boot.pushHeld = false ∧ s.stage < 10 ∧ k < 2 ∧ im.fwVersion < 2 ^ 32) ∧
    (∃ (s : State) (md : Medium) (s1 u : State) (k : Nat) (im : Image), s1 = (s.setFlag P.boot F.BOOT_PUSH_CTL_go false).setFlag P.boot F.BOOT_PUSH_CTL_busy false ∧
      s1.pickImage 1 (stage1s md) = (u, [], some (k, im)) ∧
      s.mgtUp = true ∧ s.hubDead = false ∧ s.flag P.boot F.BOOT_PUSH_CTL_busy = true ∧ s.stage < 10 ∧ k < 2 ∧ im.fwVersion < 2 ^ 32) :=
  have h := img_picked hd hs
  have e : List.take (pushing.fld P.boot F.BOOT_PUSH_LEN_len) imgMedium = imgMedium := by
    rw [show pushing.fld P.boot F.BOOT_PUSH_LEN_len = 0x1180 by decide +kernel]
    refine List.take_of_length_le ?_
    simp only [imgMedium, List.length_append, List.length_replicate, show imgDir.length = 40 by decide +kernel, show imgRaw.length = 0x180 by decide +kernel, leBytes,
      List.length_cons, List.length_nil]
    decide
  ⟨⟨pushing, imgMedium, pushed, _, 0, img, rfl, by rw [e]; exact h, by decide +kernel⟩, ⟨pushing, imgMedium, pushed, _, 0, img, rfl, h, by decide +kernel⟩⟩

/-- An itinerary as `itinB`, its image's digest that of the 64 zero bytes at Hamper offset 0x10000. -/
def itinD : List Byte := itinB.take 0x50 ++ zeroDigest ++ itinB.drop 0x80
def fetchingD : State := { fetching with hmp := fetching.hmp.wr 0 itinD false }
def descD : ItinDesc := descAt itinD 0
/-- The hypotheses of `Obligations.BootUnitsResults` for a core whose images verify are met. -/
theorem witness_CoreImages (hd : Config.sha384 (List.replicate 64 0) = zeroDigest) :
    ∃ (x : Fin 512) (s : State) (g : Nat) (it : Itinerary) (r : ItinRule) (first second : List Bool), (∀ (i : Nat) (d : ItinDesc), (it.picked r)[i]? = some d →
        (first.getD i false = true ∨ second.getD i false = true) ∧ s.imageGood d = true) ∧
      s.coreSt x = 1 ∧ s.dom (x / 64) (72 + x % 64) = 3 ∧ s.fenced (x / 64) = false ∧ s.logicalOf x = some g ∧ s.itin = some it ∧ it.ruleOf g = some r := by
  have p : (Itinerary.parse itinD).picked (ruleAt itinD 1 0) = [descD] := by decide +kernel
  have good : fetchingD.imageGood descD = true := by
    rw [State.imageGood, show fetchingD.hmp.poisoned descD.hamperOff descD.len = false by decide +kernel,
      show fetchingD.hmp.rdN descD.hamperOff descD.len = List.replicate 64 0 by decide +kernel, hd, show descD.digest = zeroDigest by decide +kernel]
    simp
  refine ⟨0, fetchingD, 0, Itinerary.parse itinD, ruleAt itinD 1 0, [true], [], ?_, by decide +kernel⟩
  intro i d h
  rw [p] at h
  cases i with
  | zero => cases h; exact ⟨.inl rfl, good⟩
  | succ i => cases h

/-! Every check of WellFormed refuses a command. -/

theorem test_wf_link_wires : (Instr.linkTraining (.bridge 0 0) { train1 true with badTx := 4096 }).wf = false := by decide +kernel
theorem test_wf_retrain_wires : (Instr.linkRetrainDone (.bridge 0 0) { train1 true with badRx := 4096 }).wf = false := by decide +kernel
theorem test_wf_burst : (Instr.bridgeBurstReceive 0 0 (bst true true)).wf = false := by decide +kernel
theorem test_wf_bundle_flit : (Instr.bundleFlitReceive 0 true { bflit 0 with recv := [] }).wf = false := by decide +kernel
theorem test_wf_ack : (Instr.ackNakReceive (.bridge 0 0) ⟨.ack, 256, [0, 0, 0], true⟩).wf = false ∧ (Instr.ackNakReceive (.bundleHub 0) ⟨.ack, 256, [0, 0, 0], true⟩).wf = true ∧
    (Instr.ackNakReceive (.bundleHub 0) ⟨.ack, 0, [0, 0], true⟩).wf = false := by
  decide +kernel
theorem test_wf_register_access : (Instr.registerWrite (.req .fw) 0 (List.replicate 1025 ⟨15, 0⟩) false).wf = false := by decide +kernel
theorem test_wf_aperture : (Instr.apertureWrite (.pf 0) 0 [] false).wf = false ∧ (Instr.apertureRead (.pf 0) (-1) ⟨2, false⟩).wf = false := by decide +kernel
/-- 07 R179: a companion program's access is aligned and at most 8 bytes, an AMO has 4 or 8. -/
theorem test_wf_companion : (Instr.apertureRead (.hpc 4 0x1004 .plain) 0 ⟨8, false⟩).wf = false ∧ (Instr.apertureRead (.hpc 4 0x1008 .plain) 0 ⟨8, false⟩).wf = true ∧
    (Instr.apertureRead (.hpc 4 0xC000000000 .plain) 0 ⟨4, false⟩).wf = false ∧ (Instr.apertureRead (.hpc 4 0x1008 .reserved) 0 ⟨2, false⟩).wf = false := by decide +kernel
theorem test_wf_assoc (p k : Fin 4) : (Instr.configRequest (.pf p) (.ideAssoc k [(0, 0), (0, 0), (0, 0)] none)).wf = false := by simp [Instr.wf, ConfigOp.ok]
theorem test_wf_tile_request : (Instr.tileHamperRequest 0 false 0 none 0).wf = false := by decide +kernel
theorem test_wf_completion : (Instr.copyHostCompletion 0 0 0 0 (.success [] false)).wf = false := by decide +kernel
theorem test_wf_cxl : (Instr.cxlMemAccess 0 0 (.write [] false)).wf = false := by decide +kernel
theorem test_wf_formats : (Instr.pkAdd 0 { regs 1 2 3 0 with imm := 1 }).wf = false ∧ (Instr.pkAddi 0 { regs 1 2 3 0 with imm := 1 }).wf = false ∧
    (Instr.pkBr 0 { regs 0 0 0 0 with token := 1 }).wf = false ∧ (Instr.pkVld 0 { regs 1 2 3 0 with imm := 0x1000000 }).wf = false ∧
    (Instr.pkMma 0 { regs 1 2 3 0 with rsv := true }).wf = false := by decide +kernel
theorem test_wf_slice : (Instr.sliceRequest 0 0 (.read 0) .clean).wf = false := by decide +kernel
theorem test_wf_datagram (f : EthFrame) (k : f.kind = .udp) (h : f.udp = []) : (Instr.datagramReceive 0 f).wf = false := by simp [Instr.wf, k, h]
theorem test_wf_encode : (Instr.encodePassDone 0 (2 ^ 32) 0).wf = false := by decide +kernel
theorem test_wf_power : (Instr.powerSample { pin1 with tileMa := [] }).wf = false := by decide +kernel
theorem test_wf_conversion : (Instr.thermalConversion 0 []).wf = false ∧ (Instr.extNtcConversion 0 true 2048).wf = false := by decide +kernel
theorem test_wf_fmc (f : Fmc) : (Instr.regRead f 0 (2 ^ 32)).wf = false ∧ (Instr.regWrite f 0 (List.replicate 1025 ⟨15, 0⟩)).wf = false := by
  simp only [Instr.wf, List.length_replicate]; decide
theorem test_wf_nonce (f : Fmc) (g : Signed) (h : g.nonce = []) : (Instr.ownerTransfer f g 0).wf = false ∧ (Instr.fieldSubst f g 0 0 0).wf = false ∧
    (Instr.fieldMapClear f g).wf = false ∧ (Instr.svnCommit f g).wf = false ∧ (Instr.keyRevoke f g 0).wf = false ∧
    (Instr.debugUnlock f deviceIdBytes [] 3 key1 sig1).wf = false := by simp [Instr.wf, Signed.ok, DebugToken.ok, h]
theorem test_wf_pldm (m : MctpSrc) (op : PldmOp) : (Instr.pldmMonitorRequest m 32 op).wf = false ∧ (Instr.pldmUpdateComponent m 32 0).wf = false ∧
    (Instr.pldmActivateFirmware m 32).wf = false := by simp [Instr.wf]
theorem test_wf_firmware_data : (Instr.pldmFirmwareData (List.replicate 4097 0)).wf = false := by decide +kernel

/-! Worked examples of the spec. -/

/-- 03: PG_ID of core P6 of cluster 3 of tile 5, of tenant 9's queue 0 page, of tile 2's W port. -/
theorem test_page_ids : pgId 0x3AF5 = 0x015E0017 ∧ pgId (reqPage .fw 0x491000) = 0x10090103 ∧ pgId (reqPage (.tenant 9) 0x1000) = 0x10090103 ∧
    pgId 0x2011 = 0x0009001A := by decide +kernel
/-- 00 R12: logical core 305 is T5, C3, L4. -/
theorem test_logical_core : (put [(P.clu 43, F.CLU_MAP_online, 16), (P.clu 43, F.CLU_MAP_phys 4, 6)] State.reset).logicalOf (64 * 5 + 8 * 3 + 6) = some 305 := by
  decide +kernel
/-- The opcode table gives no row bits: no word is a command. -/
theorem test_no_words (nbits w : Nat) : decodeTableWord nbits w = none := rfl
theorem test_reset_queue : State.reset.pending = [] := rfl
/-- 07 R176: ADD wraps at 64 bits, and writes nothing to s0. -/
theorem test_add : (match exec (.pkAdd 0 (regs 1 5 6 0)) mon with | .next t => (t.core 0).getS 1 == 1 | _ => false) = true ∧
    (match exec (.pkAdd 0 (regs 0 5 6 0)) mon with | .next t => (t.core 0).getS 0 == 0 && (t.core 0).pc == 8 | _ => false) = true := by decide +kernel

end Sys2Proof.Tests
end
end

section
/-! Retrains of links (02 R40, R45): what the ends of a link hold after they take a state and after they note that DRAIN leads to a retrain. -/
namespace Sys2Proof.Machine

/-! The state field of an end. -/

/-- Bridges and bundles keep the state of an end at the same place of its page. -/
theorem eFld_state (k : Nat) : eFld k F.LNK_STS_state F.SER_STS_state = F.LNK_STS_state := ite_self _

theorem State.eState_eq_fld (s : State) (k : Nat) : s.eState k = s.fld (endPg k) F.LNK_STS_state := by
  rw [State.eState, State.eget, eFld_state]

/-- Two ends that share a register page share the state, so no claim on page numbers is needed. -/
theorem State.eState_eset_state (s : State) (k v j : Nat) :
    (s.eset k F.LNK_STS_state F.SER_STS_state v).eState j =
      if fkey (endPg j) F.LNK_STS_state = fkey (endPg k) F.LNK_STS_state then v % 16 else s.eState j := by
  simp only [State.eState_eq_fld, State.eset, eFld_state]
  exact State.fld_setFld _ _ _ _ _ _

@[simp] theorem State.lend_eset (s : State) (k : Nat) (lnk ser : Fld) (v j : Nat) : (s.eset k lnk ser v).lend j = s.lend j := rfl

/-- An event writes PG_INT_STS alone of the registers, which is not a link's state. -/
@[simp] theorem State.eState_event (s : State) (pg bit j : Nat) : (s.event pg bit).eState j = s.eState j := by
  simp only [State.eState_eq_fld]
  refine State.fld_event_ne _ _ _ _ _ fun hkey => ?_
  have hoff := ((fkey_inj _ _ F.LNK_STS_state F.PG_INT_STS (by decide) (by decide) (by decide) (by decide)).1 hkey).2.1
  exact absurd hoff (by decide)

/-! The ends of a link take a state. -/

/-- Every end of a list takes a state. -/
def State.endsTake (s : State) (l : List Nat) (v : Nat) : State := s.each l fun e s => s.eset e F.LNK_STS_state F.SER_STS_state v

theorem State.eState_endsTake_of_eq (s : State) (l : List Nat) (v j : Nat) (h : s.eState j = v % 16) : (s.endsTake l v).eState j = v % 16 := by
  refine State.each_keeps (fun t => t.eState j = v % 16) s l _ (fun e _ t ht => ?_) h
  rw [State.eState_eset_state, ht, ite_self]

theorem State.eState_endsTake (s : State) (l : List Nat) (v j : Nat) (h : j ∈ l) : (s.endsTake l v).eState j = v % 16 := by
  induction l generalizing s with
  | nil => cases h
  | cons e l ih =>
    rcases List.mem_cons.1 h with rfl | hl
    · exact State.eState_endsTake_of_eq _ l v j (by rw [State.eState_eset_state, if_pos rfl])
    · exact ih _ hl

theorem State.lend_endsTake (s : State) (l : List Nat) (v j : Nat) : (s.endsTake l v).lend j = s.lend j :=
  State.each_keeps (fun t => t.lend j = s.lend j) s l _ (fun _ _ _ ht => (State.lend_eset ..).trans ht) rfl

/-- R39: only DOWN and FENCED clear the ends of a link; any other state is written and nothing else. -/
theorem State.linkSet_of_keeps (s : State) (k v : Nat) (hdown : v ≠ 1) (hfenced : v ≠ 6) :
    s.linkSet k v = s.endsTake (k :: (farEnd k).toList) v := by
  simp only [State.linkSet, State.endsTake, hdown, hfenced, or_self, if_false]

/-! DRAIN leads to a retrain. -/

/-- The ends of a list note whether DRAIN leads to a retrain. -/
def State.endsNoteRetrain (s : State) (l : List Nat) (b : Bool) : State := s.each l fun e s => s.setLend e { s.lend e with drainRetrain := b }

theorem State.lend_endsNoteRetrain (s : State) (l : List Nat) (b : Bool) (j : Nat) :
    (s.endsNoteRetrain l b).lend j = if j ∈ l then { s.lend j with drainRetrain := b } else s.lend j := by
  induction l generalizing s with
  | nil => rfl
  | cons e l ih =>
    have hstep : s.endsNoteRetrain (e :: l) b = (s.setLend e { s.lend e with drainRetrain := b }).endsNoteRetrain l b := rfl
    rw [hstep, ih, State.lend_setLend]
    by_cases hje : j = e
    · subst hje; simp
    · simp [hje]

/-! The retrain of an ACTIVE link. -/

theorem State.retrain_of_active (s : State) (k : Nat) (h : s.eState k = 3) :
    s.retrain k = (s.endsNoteRetrain (k :: (farEnd k).toList) true).endsTake (k :: (farEnd k).toList) 4 := by
  rw [State.retrain, if_pos h, State.linkSet_of_keeps _ _ _ (by decide) (by decide), State.endsNoteRetrain]

theorem State.eState_retrain (s : State) (k j : Nat) (h : s.eState k = 3) (hj : j ∈ k :: (farEnd k).toList) : (s.retrain k).eState j = 4 := by
  rw [State.retrain_of_active s k h]
  exact State.eState_endsTake _ _ 4 j hj

theorem State.lend_retrain (s : State) (k j : Nat) (h : s.eState k = 3) (hj : j ∈ k :: (farEnd k).toList) :
    (s.retrain k).lend j = { s.lend j with drainRetrain := true } := by
  rw [State.retrain_of_active s k h, State.lend_endsTake, State.lend_endsNoteRetrain, if_pos hj]

/-- R45, R49: an ACTIVE link whose oldest flit was replayed as often as the limit says raises event 0 and retrains. -/
theorem exec_replayLimitReached_of_due (e : LinkEndId) (s : State) (hactive : s.eState (endKey e) = 3)
    (hdue : max 1 (s.eget (endKey e) F.LNK_CTL_replay_limit F.SER_CTL_replay_limit) ≤ (s.lend (endKey e)).replays) :
    exec (.replayLimitReached e) s = .next ((s.event (endPg (endKey e)) 0).retrain (endKey e)) :=
  congrArg Host.Outcome.next (if_pos ⟨hactive, hdue⟩)

/-- Settles O9: the event leaves the link ACTIVE, so the retrain takes both of its ends to DRAIN and changes nothing else of what they hold. -/
theorem replayLimitRetrains : Obligations.ReplayLimitRetrains := by
  unfold Obligations.ReplayLimitRetrains
  rintro s e k rfl hactive hlimit hreplays
  have hactive' : (s.event (endPg (endKey e)) 0).eState (endKey e) = 3 := by rw [State.eState_event, hactive]
  have hnear : endKey e ∈ endKey e :: (farEnd (endKey e)).toList := List.mem_cons_self
  refine ⟨_, exec_replayLimitReached_of_due e s hactive (max_le (hlimit.trans hreplays) hreplays),
    State.eState_retrain _ _ _ hactive' hnear, ?_, ?_, fun f hf => ?_⟩
  · rw [State.lend_retrain _ _ _ hactive' hnear]
  · rw [State.lend_retrain _ _ _ hactive' hnear, State.lend_event]
  · have hfar : f ∈ endKey e :: (farEnd (endKey e)).toList := List.mem_cons_of_mem _ (Option.mem_toList.2 hf)
    exact ⟨State.eState_retrain _ _ _ hactive' hfar, by rw [State.lend_retrain _ _ _ hactive' hfar]⟩

end Sys2Proof.Machine
end

section
/-! Register pages and their PG_ID (03 R51, R63): a PG_ID names its page, and a tenant's window stands in the privileged view. -/
namespace Sys2Proof.Machine

/-! The fields of a PG_ID. -/

/-- The PG_ID fields of a page fit the register's fields (03 R50). -/
structure PageInfo.Fits (i : PageInfo) : Prop where
  block : i.block < 2 ^ 8
  page : i.page < 2 ^ 8
  inst : i.inst < 2 ^ 12

/-- The page number that the PG_ID fields of a page name: the address map of 03 R60 to R63, read from identity to place. -/
def PageInfo.home (i : PageInfo) : Nat :=
  if i.tenantPage then P.ten i.inst i.page
  else match i.block with
    | 0x01 => P.hub i.page
    | 0x02 => P.hmp i.page
    | 0x03 => P.disp i.page
    | 0x04 => P.hpc i.inst
    | 0x05 => P.kpm i.page
    | 0x06 => P.vce i.inst i.page
    | 0x07 => P.stp i.page
    | 0x08 => P.hpt i.inst
    | 0x09 => P.mgt
    | 0x0A => if i.inst = 8 then P.thm i.page else P.thmT i.inst
    | 0x0B => if i.inst = 8 then P.pwr else P.pwrT i.inst
    | 0x0C => P.trl
    | 0x0D => P.boot
    | 0x10 => P.tile i.inst
    | 0x11 => P.clu i.inst
    | 0x12 => P.core i.inst
    | 0x13 => P.mxe i.inst
    | 0x14 => P.tgu i.inst
    | 0x15 => P.mov i.inst
    | 0x16 => P.sto i.inst
    | 0x17 => P.slc i.inst
    | 0x18 => P.atu i.inst
    | 0x19 => P.kvw i.inst
    | 0x1A => P.lnk (i.inst / 4) (i.inst % 4)
    | 0x1B => if i.page = 1 then P.serHub i.inst else P.serTile i.inst
    | _ => match i.page with
      | 0 => P.scbP i.inst
      | 1 => P.scbC i.inst
      | _ => P.scbH

theorem PageInfo.home_congr {i j : PageInfo} (hblock : i.block = j.block) (hpage : i.page = j.page) (hinst : i.inst = j.inst)
    (htenant : i.tenantPage = j.tenantPage) : i.home = j.home := by
  rw [PageInfo.home, PageInfo.home, hblock, hpage, hinst, htenant]

/-- What stands at page number `pg` has PG_ID fields that fit and that name `pg`. -/
structure PageInfo.StandsAt (i : PageInfo) (pg : Nat) : Prop where
  fits : i.Fits
  home : i.home = pg

/-! What stands in each region of the map has fields that name its place. -/

/-- The hub windows are a table of 240 page numbers, which is read off row by row. -/
theorem hubPage_standsAt : ∀ pg < 0xF0, ∀ i, hubPage pg = some i → i.StandsAt pg := by
  have hrows : ∀ pg < 0xF0, ∀ i ∈ hubPage pg, (i.block < 2 ^ 8 ∧ i.page < 2 ^ 8 ∧ i.inst < 2 ^ 12) ∧ i.home = pg := by decide +kernel
  intro pg hpg i hi
  obtain ⟨⟨hblock, hpage, hinst⟩, hhome⟩ := hrows pg hpg i hi
  exact ⟨⟨hblock, hpage, hinst⟩, hhome⟩

theorem tenantPage_fields {n k : Nat} {i : PageInfo} (h : tenantPage n k = some i) :
    i.block < 2 ^ 8 ∧ i.page = k ∧ i.inst = n ∧ i.tenantPage = true := by
  unfold tenantPage at h
  split at h
  case h_5 =>
    obtain ⟨-, hi⟩ := Option.ite_none_right_eq_some.1 h
    cases hi
    simp
  all_goals
    cases h
    simp

theorem tenantPage_standsAt {n k : Nat} {i : PageInfo} (hn : n < 128) (hk : k < 16) (h : tenantPage n k = some i) : i.StandsAt (P.ten n k) := by
  obtain ⟨hblock, rfl, rfl, htenant⟩ := tenantPage_fields h
  exact ⟨⟨hblock, by omega, by omega⟩, by rw [PageInfo.home, if_pos htenant]⟩

/-- The first page of a cluster, from its tile and its number in the tile. -/
theorem P.clu_of_tile (t c : Nat) (hc : c < 8) : P.clu (8 * t + c) = 0x1000 + 0x800 * t + 0x100 + 0x80 * c := by
  unfold P.clu
  omega

/-- A page of a core, from its cluster and the core's number in the cluster. -/
theorem P.corePg_of_cluster (cl p k : Nat) (hp : p < 8) : P.corePg (8 * cl + p) k = P.clu cl + 0x40 + 8 * p + k := by
  have hcl : (8 * cl + p) / 8 = cl := by omega
  have hmod : (8 * cl + p) % 8 = p := by omega
  rw [P.corePg, hcl, hmod]

/-- The pages of a tile lie in three regions: its own, those of a cluster and those of a core. -/
theorem tilePage_standsAt {t o : Nat} {i : PageInfo} (ht : t < 8) (ho : o < 0x800) (h : tilePage t o = some i) :
    i.StandsAt (0x1000 + 0x800 * t + o) := by
  have hnotHub : t ≠ 8 := by omega
  unfold tilePage at h
  split at h
  case isTrue hown =>
    split_ifs at h
    all_goals
      cases h
      refine ⟨⟨by simp, by simp, by simp; omega⟩, ?_⟩
      simp [PageInfo.home, P.tile, P.thmT, P.pwrT, P.lnk, P.serTile, hnotHub]
      omega
  split at h
  case isFalse => cases h
  have hclu := P.clu_of_tile t ((o - 0x100) / 0x80) (by omega)
  dsimp only at h
  split at h
  case isTrue hcluster =>
    split at h
    all_goals cases h
    all_goals
      refine ⟨⟨by simp, by simp, by simp; omega⟩, ?_⟩
      simp [PageInfo.home, P.kvw, P.atu, P.scbC, hclu]
      omega
  case isFalse hcore =>
    have hcorePg := fun k => P.corePg_of_cluster (8 * t + (o - 0x100) / 0x80) (((o - 0x100) % 0x80 - 0x40) / 8) k (by omega)
    split at h
    all_goals cases h
    all_goals
      refine ⟨⟨by simp, by simp, by simp; omega⟩, ?_⟩
      simp [PageInfo.home, P.core, P.mxe, P.tgu, P.mov, P.sto, P.slc, P.scbP, hcorePg, hclu]
      omega

theorem pageInfo_standsAt {pg : Nat} {i : PageInfo} (h : pageInfo pg = some i) : i.StandsAt pg := by
  unfold pageInfo at h
  split at h
  next hhub => exact hubPage_standsAt pg hhub i h
  split at h
  next htenant =>
    have hpg : P.ten ((pg - 0x400) / 16) ((pg - 0x400) % 16) = pg := by unfold P.ten; omega
    exact hpg ▸ tenantPage_standsAt (by omega) (by omega) h
  split at h
  next htile =>
    have hpg : 0x1000 + 0x800 * ((pg - 0x1000) / 0x800) + (pg - 0x1000) % 0x800 = pg := by omega
    exact hpg ▸ tilePage_standsAt (by omega) (by omega) h
  next => cases h

/-! A PG_ID gives its fields back. -/

theorem pgId_of_pageInfo {pg : Nat} {i : PageInfo} (h : pageInfo pg = some i) :
    pgId pg = i.block + 2 ^ 8 * i.page + 2 ^ 16 * i.inst + 2 ^ 28 * b2n i.tenantPage := by
  rw [pgId, h]

theorem bits_pgId_block {pg : Nat} {i : PageInfo} (h : pageInfo pg = some i) : bits (pgId pg) 0 8 = i.block := by
  obtain ⟨hblock, hpage, hinst⟩ := (pageInfo_standsAt h).fits
  rw [pgId_of_pageInfo h, bits]
  omega

theorem bits_pgId_page {pg : Nat} {i : PageInfo} (h : pageInfo pg = some i) : bits (pgId pg) 8 8 = i.page := by
  obtain ⟨hblock, hpage, hinst⟩ := (pageInfo_standsAt h).fits
  rw [pgId_of_pageInfo h, bits]
  omega

theorem bits_pgId_inst {pg : Nat} {i : PageInfo} (h : pageInfo pg = some i) : bits (pgId pg) 16 12 = i.inst := by
  obtain ⟨hblock, hpage, hinst⟩ := (pageInfo_standsAt h).fits
  rw [pgId_of_pageInfo h, bits]
  omega

theorem bitOf_pgId_tenantPage {pg : Nat} {i : PageInfo} (h : pageInfo pg = some i) : bitOf (pgId pg) 28 = i.tenantPage := by
  obtain ⟨hblock, hpage, hinst⟩ := (pageInfo_standsAt h).fits
  have hfield : (i.block + 2 ^ 8 * i.page + 2 ^ 16 * i.inst + 2 ^ 28 * b2n i.tenantPage) / 2 ^ 28 % 2 = b2n i.tenantPage % 2 := by omega
  rw [pgId_of_pageInfo h, bitOf, hfield]
  cases i.tenantPage <;> rfl

/-- Settles O7: a PG_ID gives back the fields of its page, and the fields name the page. -/
theorem pageIdsDiffer : Obligations.PageIdsDiffer := by
  unfold Obligations.PageIdsDiffer
  intro a b i j ha hb hid
  have hblock : i.block = j.block := by rw [← bits_pgId_block ha, hid, bits_pgId_block hb]
  have hpage : i.page = j.page := by rw [← bits_pgId_page ha, hid, bits_pgId_page hb]
  have hinst : i.inst = j.inst := by rw [← bits_pgId_inst ha, hid, bits_pgId_inst hb]
  have htenant : i.tenantPage = j.tenantPage := by rw [← bitOf_pgId_tenantPage ha, hid, bitOf_pgId_tenantPage hb]
  calc a = i.home := (pageInfo_standsAt ha).home.symm
    _ = j.home := PageInfo.home_congr hblock hpage hinst htenant
    _ = b := (pageInfo_standsAt hb).home

/-! A tenant's window. -/

/-- The pages of a tenant's window stand in the privileged view. -/
theorem pageInfo_ten (n k : Nat) (hn : n < 128) (hk : k < 16) : pageInfo (P.ten n k) = tenantPage n k := by
  have hge : 0x400 ≤ P.ten n k := by unfold P.ten; omega
  have hlt : P.ten n k < 0xC00 := by unfold P.ten; omega
  have hn' : (P.ten n k - 0x400) / 16 = n := by unfold P.ten; omega
  have hk' : (P.ten n k - 0x400) % 16 = k := by unfold P.ten; omega
  rw [pageInfo, if_neg (by omega), if_pos ⟨hge, hlt⟩, hn', hk']

/-- Every requester but a tenant addresses the privileged view. -/
theorem reqPage_privileged {rq : Requester} (hrq : ∀ m, rq ≠ .tenant m) (addr : Nat) : reqPage rq addr = addr / 4096 := by
  cases rq with
  | tenant m => exact absurd rfl (hrq m)
  | _ => rfl

theorem reqInside_privileged {rq : Requester} (hrq : ∀ m, rq ≠ .tenant m) (addr : Nat) : reqInside rq addr = decide (addr < 2 ^ 27) := by
  cases rq with
  | tenant m => exact absurd rfl (hrq m)
  | _ => rfl

theorem reqInside_tenant (n : Fin 128) (addr : Nat) : reqInside (.tenant n) addr = decide (addr < 0x10000) := rfl

/-- An offset in page `k` of BAR2 reaches page `k` of the tenant's window. -/
theorem reqPage_tenant (n : Fin 128) (k o : Nat) (ho : o < 0x1000) : reqPage (.tenant n) (k * 0x1000 + o) = P.ten n k := by
  have hk : (k * 0x1000 + o) / 4096 = k := by omega
  rw [reqPage, hk]

/-- The privileged offset of page `k` of tenant `n`'s window reaches the same page. -/
theorem reqPage_tenantAlias {rq : Requester} (hrq : ∀ m, rq ≠ .tenant m) (n k o : Nat) (ho : o < 0x1000) :
    reqPage rq (0x400000 + n * 0x10000 + k * 0x1000 + o) = P.ten n k := by
  rw [reqPage_privileged hrq, P.ten]
  omega

/-- Settles O8: both addresses reach page `k` of the window, whose PG_ID carries the tenant's number. -/
theorem tenantWindowHasTwoAddresses : Obligations.TenantWindowHasTwoAddresses := by
  unfold Obligations.TenantWindowHasTwoAddresses
  intro n k o hk ho
  refine ⟨fun rq hrq => ?_, fun rq hrq => ⟨?_, ?_⟩, fun i hi => ?_⟩
  · rw [reqPage_tenant n k o ho, reqPage_tenantAlias hrq n k o ho]
  · rw [reqInside_tenant, decide_eq_true_iff]
    omega
  · rw [reqInside_privileged hrq, decide_eq_true_iff]
    omega
  · have hpg : reqPage (.tenant n) (k * 0x1000) = P.ten n k := by
      rw [← Nat.add_zero (k * 0x1000), reqPage_tenant n k 0 (by decide)]
    rw [hpg] at hi ⊢
    obtain ⟨-, hpage, hinst, htenant⟩ := tenantPage_fields ((pageInfo_ten n k n.isLt hk).symm.trans hi)
    exact ⟨hpage, htenant, hinst, (bitOf_pgId_tenantPage hi).trans htenant, (bits_pgId_inst hi).trans hinst⟩

end Sys2Proof.Machine
end

section
/-! Granted register writes (03 R55, R56, R66, R69; 05 R114) and the companion cores' registers (07 R188): a granted write has its effect at once, and a RUNNING core refuses the writes of its grant and entry. -/
namespace Sys2Proof.Machine

/-! A granted write has its effect at once. -/

/-- Landing the writes of a port that has none waiting changes nothing. -/
theorem State.landClient_of_portClear {s : State} {k : Nat} (h : s.portClear k = true) : s.landClient k = s := by
  rw [State.portClear, List.all_eq_true] at h
  have hnone : s.hmpPend.filter (·.client == k) = [] :=
    List.filter_eq_nil_iff.2 fun w hw => by simpa using h w hw
  rw [State.landClient, List.filter_eq_self.2 h, hnone]
  rfl

/-- What a grant says, requester by requester: tenants get none, and a physical function is the owner's. -/
theorem State.grants_iff (s : State) (rq : Requester) (pg : Nat) :
    s.grants rq pg = true ↔ s.reach rq = true ∧ s.unavailable pg = false ∧ s.tileBusy pg = false ∧
      (∀ n, rq ≠ .tenant n) ∧ ∀ p, rq = .pf p → p.val = s.owner ∧ s.portClear p = true := by
  cases rq <;> simp [State.grants, and_assoc]

section Granted
variable {s : State} {rq : Requester} {pg : Nat} (h : s.grants rq pg = true)
include h

theorem State.landFor_of_grants : s.landFor rq = s := by
  obtain ⟨-, -, -, htenant, hpf⟩ := (s.grants_iff rq pg).1 h
  cases rq with
  | tenant n => exact absurd rfl (htenant n)
  | pf p => exact State.landClient_of_portClear (hpf p rfl).2
  | mgt => rfl
  | fw => rfl

theorem State.privWrite_of_grants (off : Nat) (k : State → State) : s.privWrite rq pg off k = k s := by
  obtain ⟨hreach, havail, -, htenant, hpf⟩ := (s.grants_iff rq pg).1 h
  have hserved : s.pageWrite rq pg off k = k s := by simp [State.pageWrite, havail]
  rw [State.privWrite, if_pos hreach, State.landFor_of_grants h]
  cases rq with
  | tenant n => exact absurd rfl (htenant n)
  | pf p => exact (if_neg (not_not_intro (hpf p rfl).1)).trans hserved
  | mgt => exact hserved
  | fw => exact hserved

theorem accessAddr_of_grants (off : Nat) : accessAddr rq pg off = pg * 4096 + off := by
  obtain ⟨-, -, -, htenant, -⟩ := (s.grants_iff rq pg).1 h
  cases rq with
  | tenant n => exact absurd rfl (htenant n)
  | _ => rfl

/-- A whole dword reaches the register it is for. -/
theorem State.writeDword_of_grants {i : PageInfo} (hi : pageInfo pg = some i) (off : Nat) (w : Word) :
    s.writeDword rq pg off ⟨15, w⟩ = s.regWrite rq pg i off w.toNat true := by
  obtain ⟨-, havail, -, htenant, -⟩ := (s.grants_iff rq pg).1 h
  cases rq with
  | tenant n => exact absurd rfl (htenant n)
  | _ => simp [State.writeDword, hi, havail]

/-- A request of one dword inside the privileged view reaches its page. -/
theorem State.writeReq_of_grants (addr : Nat) (haddr : addr < 2 ^ 27) (hpg : addr / 4096 = pg) (d : RegDword) :
    s.writeReq rq addr [d] = s.writeDword rq pg (addr / 4 % 1024 * 4) d := by
  obtain ⟨-, -, htile, htenant, hpf⟩ := (s.grants_iff rq pg).1 h
  have hinside : reqInside rq addr = true := by rw [reqInside_privileged htenant, decide_eq_true haddr]
  have hpage : reqPage rq addr = pg := by rw [reqPage_privileged htenant, hpg]
  have hspan : spanOk addr 1 = true := by
    simp only [spanOk, Bool.and_eq_true, decide_eq_true_eq]
    omega
  cases rq with
  | tenant n => exact absurd rfl (htenant n)
  | pf p => simp [State.writeReq, State.writeDwords, hinside, hpage, hspan, htile, (hpf p rfl).1]
  | _ => simp [State.writeReq, State.writeDwords, hinside, hpage, hspan, htile]

theorem exec_registerWrite_of_grants {i : PageInfo} (hi : pageInfo pg = some i) (addr : BitVec 28) (haddr : addr.toNat < 2 ^ 27)
    (hpg : addr.toNat / 4096 = pg) (w : Word) :
    exec (.registerWrite (.req rq) addr [⟨15, w⟩] false) s =
      .next (s.regWrite rq pg i (addr.toNat / 4 % 1024 * 4) w.toNat true) := by
  obtain ⟨hreach, -⟩ := (s.grants_iff rq pg).1 h
  refine congrArg Host.Outcome.next ?_
  calc s.writeFrom rq addr.toNat [⟨15, w⟩] false
    _ = (s.landFor rq).writeReq rq addr.toNat [⟨15, w⟩] := by simp [State.writeFrom, hreach]
    _ = s.writeDword rq pg (addr.toNat / 4 % 1024 * 4) ⟨15, w⟩ := by
      rw [State.landFor_of_grants h, State.writeReq_of_grants h _ haddr hpg]
    _ = s.regWrite rq pg i (addr.toNat / 4 % 1024 * 4) w.toNat true := State.writeDword_of_grants h hi _ w

end Granted

/-! The registers of a companion core. -/

theorem pageInfo_hpc (h : Fin 16) : pageInfo (P.hpc h) = some ⟨.hpc, 0x04, 0, h, false⟩ := by
  revert h
  decide

theorem State.hpcBusy_of_running {s : State} {h : Nat} (hrun : s.hpcState h = 2) : s.hpcBusy h = true := by
  rw [State.hpcBusy, hrun]
  rfl

/-- R188: the grant of a core with a program on it stays, and the write counts HPC_BUSY. -/
theorem State.hpcGrant_of_busy (s : State) (rq : Requester) (h w : Nat) (hh : 4 ≤ h) (hbusy : s.hpcBusy h = true) :
    s.hpcGrant rq h w = s.countErr (P.hpc h) 0x41 (rqCode rq) (accessAddr rq (P.hpc h) 0x044) :=
  (if_neg (Nat.not_lt.2 hh)).trans (if_pos hbusy)

/-- R188: the entry of a core with a program on it stays too, whatever the dword. -/
theorem State.regWrite_hpcEntry_of_busy (s : State) (rq : Requester) (h : Fin 16) (w : Nat) (hbusy : s.hpcBusy h = true) :
    s.regWrite rq (P.hpc h) ⟨.hpc, 0x04, 0, h, false⟩ 0x048 w true =
      s.countErr (P.hpc h) 0x41 (rqCode rq) (accessAddr rq (P.hpc h) 0x048) := by
  simp [State.regWrite, State.hook, State.hookAux, hbusy]

theorem State.hpcStart_of_running (s : State) (h : Nat) (hrun : s.hpcState h = 2) : s.hpcStart h = s :=
  if_neg fun ⟨_, _, hstate⟩ => by omega

theorem State.hpcStop_of_notRunning (s : State) (h cause : Nat) (hrun : s.hpcState h ≠ 2) : s.hpcStop h cause = s :=
  if_neg fun ⟨_, hstate⟩ => hrun hstate

section Granted
variable {s : State} {rq : Requester} {h : Fin 16} (hgr : s.grants rq (P.hpc h) = true)
include hgr

theorem exec_hpcGrantWrite_of_grants (w : Word) : exec (.hpcGrantWrite rq h w) s = .next (s.hpcGrant rq h w.toNat) :=
  congrArg Host.Outcome.next (State.privWrite_of_grants hgr _ _)

theorem exec_hpcStart_of_grants : exec (.hpcStart rq h) s = .next (s.hpcStart h) :=
  congrArg Host.Outcome.next (State.privWrite_of_grants hgr _ _)

theorem exec_hpcStop_of_grants : exec (.hpcStop rq h) s = .next (s.hpcStop h 4) :=
  congrArg Host.Outcome.next (State.privWrite_of_grants hgr _ _)

/-- A granted dword at the entry register of a core reaches it. -/
theorem exec_hpcEntryWrite_of_grants (addr : BitVec 28) (haddr : addr.toNat = P.hpc h * 4096 + 0x048) (w : Word) :
    exec (.registerWrite (.req rq) addr [⟨15, w⟩] false) s =
      .next (s.regWrite rq (P.hpc h) ⟨.hpc, 0x04, 0, h, false⟩ 0x048 w.toNat true) := by
  have hpage : addr.toNat / 4096 = P.hpc h := by omega
  have hoff : addr.toNat / 4 % 1024 * 4 = 0x048 := by omega
  have hview : addr.toNat < 2 ^ 27 := by
    rw [haddr, P.hpc]
    omega
  rw [exec_registerWrite_of_grants hgr (pageInfo_hpc h) addr hview hpage, hoff]

end Granted

/-- Settles O10: each of the four writes is granted, so it reaches its register, where RUNNING decides what it does. -/
theorem runningCompanionIgnoresWrites : Obligations.RunningCompanionIgnoresWrites := by
  unfold Obligations.RunningCompanionIgnoresWrites
  intro s rq h w addr hh hgr haddr
  refine ⟨fun hrun => ⟨?grant, ?entry, ?start⟩, fun hrun => ?stop⟩
  case grant => rw [exec_hpcGrantWrite_of_grants hgr, State.hpcGrant_of_busy s rq h _ hh (State.hpcBusy_of_running hrun)]
  case entry =>
    rw [exec_hpcEntryWrite_of_grants hgr addr haddr, State.regWrite_hpcEntry_of_busy s rq h _ (State.hpcBusy_of_running hrun),
      accessAddr_of_grants hgr, haddr]
  case start => rw [exec_hpcStart_of_grants hgr, State.hpcStart_of_running s h hrun]
  case stop => rw [exec_hpcStop_of_grants hgr, State.hpcStop_of_notRunning s h 4 hrun]

end Sys2Proof.Machine
end

section
/-! The step: the command at the front of the queue, the empty queue (01), and the invariant that every command keeps. -/
namespace Sys2Proof.Machine

/-- Every command answers a next state: each meaning is one, and the landing of an aperture write is one on both of its branches. -/
theorem exec_next (c : Instr) (s : State) : ∃ t, exec c s = .next t := by
  cases c with
  | hamperWriteLand =>
    show ∃ t, execHamperWriteLand s = .next t
    unfold execHamperWriteLand
    split <;> exact ⟨_, rfl⟩
  | _ => exact ⟨_, rfl⟩

/-- Every command keeps the canonical form and the queue, one row per command. -/
theorem exec_ok {q : List Instr} {s : State} (hok : s.Ok q) (c : Instr) : OutOk q (exec c s) :=
  match c with
  | .coldPowerOn => execColdPowerOn_ok s hok
  | .bringupStepEnd j => execBringupStepEnd_ok j s hok
  | .bootWatchdogExpiry w => execBootWatchdogExpiry_ok w s hok
  | .bootConfigSpaceReady port => execBootConfigSpaceReady_ok port s hok
  | .configRequest fn op => execConfigRequest_ok fn op s hok
  | .bootPushGo rq => execBootPushGo_ok rq s hok
  | .bootPushReadDone m => execBootPushReadDone_ok m s hok
  | .coreBootFetch x first second => execCoreBootFetch_ok x first second s hok
  | .sliceTrainingDone x ok => execSliceTrainingDone_ok x ok s hok
  | .linkTraining l r => execLinkTraining_ok l r s hok
  | .bridgeBurstReceive t d b => execBridgeBurstReceive_ok t d b s hok
  | .bundleFlitReceive t hub f => execBundleFlitReceive_ok t hub f s hok
  | .ackNakReceive e w => execAckNakReceive_ok e w s hok
  | .replayTimerExpiry e => execReplayTimerExpiry_ok e s hok
  | .replayLimitReached e => execReplayLimitReached_ok e s hok
  | .fecThresholdExceeded t hub => execFecThresholdExceeded_ok t hub s hok
  | .keepAliveSend e => execKeepAliveSend_ok e s hok
  | .linkWatchdogExpiry e => execLinkWatchdogExpiry_ok e s hok
  | .dclkLossReport x => execDclkLossReport_ok x s hok
  | .linkDrainDone l => execLinkDrainDone_ok l s hok
  | .linkRetrainDone l r => execLinkRetrainDone_ok l r s hok
  | .linkRetrainTimeout l => execLinkRetrainTimeout_ok l s hok
  | .lnkRetrain rq t d => execLnkRetrain_ok rq t d s hok
  | .lnkForceDown rq t d v => execLnkForceDown_ok rq t d v s hok
  | .lnkEnable rq t d v => execLnkEnable_ok rq t d v s hok
  | .lnkClrCnt rq t d => execLnkClrCnt_ok rq t d s hok
  | .serRetrain rq t hub => execSerRetrain_ok rq t hub s hok
  | .serEnable rq t hub v => execSerEnable_ok rq t hub v s hok
  | .serClrCnt rq t hub => execSerClrCnt_ok rq t hub s hok
  | .routeSwitchResume t u => execRouteSwitchResume_ok t u s hok
  | .tileLost t c => execTileLost_ok t c s hok
  | .vclkLoss => execVclkLoss_ok s hok
  | .hubClockLoss c => execHubClockLoss_ok c s hok
  | .refclkLoss port => execRefclkLoss_ok port s hok
  | .registerWrite src addr ws ep => execRegisterWrite_ok src addr ws ep s hok
  | .errRearm rq pg => execErrRearm_ok rq pg s hok
  | .errClr rq pg => execErrClr_ok rq pg s hok
  | .intStsClear rq pg v => execIntStsClear_ok rq pg v s hok
  | .intForce rq pg v => execIntForce_ok rq pg v s hok
  | .pageLock rq pg => execPageLock_ok rq pg s hok
  | .msixPendingSend fn vec => execMsixPendingSend_ok fn vec s hok
  | .apertureWrite src off data ep => execApertureWrite_ok src off data ep s hok
  | .apertureRead src off r => execApertureRead_ok src off r s hok
  | .hamperWriteLand => execHamperWriteLand_ok s hok
  | .tileHamperRequest x boot addr wr len => execTileHamperRequest_ok x boot addr wr len s hok
  | .hmpAlloc rq => execHmpAlloc_ok rq s hok
  | .hmpFree rq => execHmpFree_ok rq s hok
  | .hamperClearDone => execHamperClearDone_ok s hok
  | .hmpTqQuery rq n slot => execHmpTqQuery_ok rq n slot s hok
  | .doorbell rq n q v => execDoorbell_ok rq n q v s hok
  | .cqHeadWrite rq n q v => execCqHeadWrite_ok rq n q v s hok
  | .descriptorFetch n q => execDescriptorFetch_ok n q s hok
  | .dispatch p => execDispatch_ok p s hok
  | .jobRun p => execJobRun_ok p s hok
  | .jobFence n q => execJobFence_ok n q s hok
  | .jobNop n q => execJobNop_ok n q s hok
  | .jobLoad p => execJobLoad_ok p s hok
  | .jobUnload p => execJobUnload_ok p s hok
  | .jobCopy p xlate => execJobCopy_ok p xlate s hok
  | .copyHostCompletion n q j off c => execCopyHostCompletion_ok n q j off c s hok
  | .copyCompletionTimeout n q j => execCopyCompletionTimeout_ok n q j s hok
  | .modelLoad x => execModelLoad_ok x s hok
  | .cqCoalTimerExpiry n q => execCqCoalTimerExpiry_ok n q s hok
  | .cqWriteFail n q => execCqWriteFail_ok n q s hok
  | .tenantCancel rq n q all => execTenantCancel_ok rq n q all s hok
  | .queueEnable rq n q cfg => execQueueEnable_ok rq n q cfg s hok
  | .queueDisable rq n q cfg => execQueueDisable_ok rq n q cfg s hok
  | .tenantBindWrite rq n v => execTenantBindWrite_ok rq n v s hok
  | .tenantResetCmd rq n => execTenantResetCmd_ok rq n s hok
  | .tenantReset n => execTenantReset_ok n s hok
  | .tenantResetReport n => execTenantResetReport_ok n s hok
  | .functionLevelReset fn => execFunctionLevelReset_ok fn s hok
  | .vfEnableClear port => execVfEnableClear_ok port s hok
  | .perstAssert port => execPerstAssert_ok port s hok
  | .perstDeassert port => execPerstDeassert_ok port s hok
  | .hostLinkDown port => execHostLinkDown_ok port s hok
  | .hostLinkUp port rate width flit cxl => execHostLinkUp_ok port rate width flit cxl s hok
  | .d3hotEnter port => execD3hotEnter_ok port s hok
  | .d0Return port => execD0Return_ok port s hok
  | .cxlMemAccess port off op => execCxlMemAccess_ok port off op s hok
  | .pkNop x j => execPkNop_ok x j s hok
  | .pkBr x j => execPkBr_ok x j s hok
  | .pkBrc x j => execPkBrc_ok x j s hok
  | .pkCall x j => execPkCall_ok x j s hok
  | .pkJr x j => execPkJr_ok x j s hok
  | .pkIf x j => execPkIf_ok x j s hok
  | .pkElse x j => execPkElse_ok x j s hok
  | .pkEndif x j => execPkEndif_ok x j s hok
  | .pkLoop x j => execPkLoop_ok x j s hok
  | .pkBrk x j => execPkBrk_ok x j s hok
  | .pkEndloop x j => execPkEndloop_ok x j s hok
  | .pkBrnone x j => execPkBrnone_ok x j s hok
  | .pkTrap x j => execPkTrap_ok x j s hok
  | .pkAdd x j => execPkAdd_ok x j s hok
  | .pkSub x j => execPkSub_ok x j s hok
  | .pkAnd x j => execPkAnd_ok x j s hok
  | .pkOr x j => execPkOr_ok x j s hok
  | .pkXor x j => execPkXor_ok x j s hok
  | .pkShl x j => execPkShl_ok x j s hok
  | .pkShr x j => execPkShr_ok x j s hok
  | .pkSra x j => execPkSra_ok x j s hok
  | .pkMul x j => execPkMul_ok x j s hok
  | .pkMulhu x j => execPkMulhu_ok x j s hok
  | .pkMin x j => execPkMin_ok x j s hok
  | .pkMax x j => execPkMax_ok x j s hok
  | .pkMinu x j => execPkMinu_ok x j s hok
  | .pkMaxu x j => execPkMaxu_ok x j s hok
  | .pkSlt x j => execPkSlt_ok x j s hok
  | .pkSltu x j => execPkSltu_ok x j s hok
  | .pkAddi x j => execPkAddi_ok x j s hok
  | .pkAndi x j => execPkAndi_ok x j s hok
  | .pkOri x j => execPkOri_ok x j s hok
  | .pkXori x j => execPkXori_ok x j s hok
  | .pkShli x j => execPkShli_ok x j s hok
  | .pkShri x j => execPkShri_ok x j s hok
  | .pkSrai x j => execPkSrai_ok x j s hok
  | .pkLui x j => execPkLui_ok x j s hok
  | .pkSlti x j => execPkSlti_ok x j s hok
  | .pkCsrr x j => execPkCsrr_ok x j s hok
  | .pkCsrw x j => execPkCsrw_ok x j s hok
  | .pkLds x j => execPkLds_ok x j s hok
  | .pkSts x j => execPkSts_ok x j s hok
  | .pkVadd x j => execPkVadd_ok x j s hok
  | .pkVsub x j => execPkVsub_ok x j s hok
  | .pkVmul x j => execPkVmul_ok x j s hok
  | .pkVmulhu x j => execPkVmulhu_ok x j s hok
  | .pkVand x j => execPkVand_ok x j s hok
  | .pkVor x j => execPkVor_ok x j s hok
  | .pkVxor x j => execPkVxor_ok x j s hok
  | .pkVshl x j => execPkVshl_ok x j s hok
  | .pkVshr x j => execPkVshr_ok x j s hok
  | .pkVsra x j => execPkVsra_ok x j s hok
  | .pkVmin x j => execPkVmin_ok x j s hok
  | .pkVmax x j => execPkVmax_ok x j s hok
  | .pkVminu x j => execPkVminu_ok x j s hok
  | .pkVmaxu x j => execPkVmaxu_ok x j s hok
  | .pkVsel x j => execPkVsel_ok x j s hok
  | .pkVmad x j => execPkVmad_ok x j s hok
  | .pkVfadd x j => execPkVfadd_ok x j s hok
  | .pkVfsub x j => execPkVfsub_ok x j s hok
  | .pkVfmul x j => execPkVfmul_ok x j s hok
  | .pkVfma x j => execPkVfma_ok x j s hok
  | .pkVfmin x j => execPkVfmin_ok x j s hok
  | .pkVfmax x j => execPkVfmax_ok x j s hok
  | .pkVfrcp x j => execPkVfrcp_ok x j s hok
  | .pkVfrsq x j => execPkVfrsq_ok x j s hok
  | .pkVfexp2 x j => execPkVfexp2_ok x j s hok
  | .pkVflog2 x j => execPkVflog2_ok x j s hok
  | .pkVfsgn x j => execPkVfsgn_ok x j s hok
  | .pkVcvt x j => execPkVcvt_ok x j s hok
  | .pkVfrnd x j => execPkVfrnd_ok x j s hok
  | .pkVicmp x j => execPkVicmp_ok x j s hok
  | .pkVfcmp x j => execPkVfcmp_ok x j s hok
  | .pkPand x j => execPkPand_ok x j s hok
  | .pkPor x j => execPkPor_ok x j s hok
  | .pkPxor x j => execPkPxor_ok x j s hok
  | .pkPandn x j => execPkPandn_ok x j s hok
  | .pkPany x j => execPkPany_ok x j s hok
  | .pkPcnt x j => execPkPcnt_ok x j s hok
  | .pkPtos x j => execPkPtos_ok x j s hok
  | .pkStop x j => execPkStop_ok x j s hok
  | .pkVld x j => execPkVld_ok x j s hok
  | .pkVst x j => execPkVst_ok x j s hok
  | .pkVshfl x j => execPkVshfl_ok x j s hok
  | .pkVred x j => execPkVred_ok x j s hok
  | .pkVscan x j => execPkVscan_ok x j s hok
  | .pkVbcast x j => execPkVbcast_ok x j s hok
  | .pkVtid x j => execPkVtid_ok x j s hok
  | .pkVext x j => execPkVext_ok x j s hok
  | .pkVins x j => execPkVins_ok x j s hok
  | .pkMma x j => execPkMma_ok x j s hok
  | .pkMscl x j => execPkMscl_ok x j s hok
  | .pkMcvt x j => execPkMcvt_ok x j s hok
  | .mxeOpComplete x => execMxeOpComplete_ok x s hok
  | .pkMvl x j => execPkMvl_ok x j s hok
  | .pkMvs x j => execPkMvs_ok x j s hok
  | .pkMvg x j => execPkMvg_ok x j s hok
  | .pkMvt x j => execPkMvt_ok x j s hok
  | .pkMva x j => execPkMva_ok x j s hok
  | .pkMcas x j => execPkMcas_ok x j s hok
  | .moverOpStart x => execMoverOpStart_ok x s hok
  | .moverOpComplete x k => execMoverOpComplete_ok x k s hok
  | .pkAttn x j => execPkAttn_ok x j s hok
  | .pkKvapp x j => execPkKvapp_ok x j s hok
  | .pkKvop x j => execPkKvop_ok x j s hok
  | .pkWait x j => execPkWait_ok x j s hok
  | .pkWaita x j => execPkWaita_ok x j s hok
  | .pkBar x j => execPkBar_ok x j s hok
  | .pkMfence x j => execPkMfence_ok x j s hok
  | .pkToks x j => execPkToks_ok x j s hok
  | .pkRezq x j => execPkRezq_ok x j s hok
  | .pkRezinv x j => execPkRezinv_ok x j s hok
  | .pkJend x j => execPkJend_ok x j s hok
  | .pkIdle x j => execPkIdle_ok x j s hok
  | .rankEnd x energy => execRankEnd_ok x energy s hok
  | .jobStop x => execJobStop_ok x s hok
  | .hpcGrantWrite rq h v => execHpcGrantWrite_ok rq h v s hok
  | .hpcStart rq h => execHpcStart_ok rq h s hok
  | .hpcStop rq h => execHpcStop_ok rq h s hok
  | .companionEcall h a7 a0 => execCompanionEcall_ok h a7 a0 s hok
  | .companionException h c tval => execCompanionException_ok h c tval s hok
  | .companionStopped h => execCompanionStopped_ok h s hok
  | .spareAssignWrite rq x v => execSpareAssignWrite_ok rq x v s hok
  | .spareAssignTakeEffect x => execSpareAssignTakeEffect_ok x s hok
  | .sliceRequest x addr op ecc => execSliceRequest_ok x addr op ecc s hok
  | .sliceBondError x => execSliceBondError_ok x s hok
  | .sliceCalibration x ok => execSliceCalibration_ok x ok s hok
  | .slcForceFail rq x => execSlcForceFail_ok rq x s hok
  | .sliceRefresh x => execSliceRefresh_ok x s hok
  | .refreshBandFall t => execRefreshBandFall_ok t s hok
  | .kvopAlloc x => execKvopAlloc_ok x s hok
  | .kvopIncref x => execKvopIncref_ok x s hok
  | .kvopDecref x => execKvopDecref_ok x s hok
  | .kvopFork x => execKvopFork_ok x s hok
  | .kvopRelease x => execKvopRelease_ok x s hok
  | .kvopInval x => execKvopInval_ok x s hok
  | .kvopQuery x => execKvopQuery_ok x s hok
  | .kvappExecute x => execKvappExecute_ok x s hok
  | .attnExecute x => execAttnExecute_ok x s hok
  | .kpmReclaimSweep n => execKpmReclaimSweep_ok n s hok
  | .poolEnable rq p v => execPoolEnable_ok rq p v s hok
  | .poolDisable rq p v => execPoolDisable_ok rq p v s hok
  | .poolInitDone p => execPoolInitDone_ok p s hok
  | .kvwFlush rq cl => execKvwFlush_ok rq cl s hok
  | .datagramReceive n f => execDatagramReceive_ok n f s hok
  | .streamHeadRead k => execStreamHeadRead_ok k s hok
  | .sequenceGapTimeout k => execSequenceGapTimeout_ok k s hok
  | .haltRepeat k => execHaltRepeat_ok k s hok
  | .easeRepeat k => execEaseRepeat_ok k s hok
  | .pfcRefresh n prio => execPfcRefresh_ok n prio s hok
  | .pfcReceive n prio time => execPfcReceive_ok n prio time s hok
  | .arpNsRequest n ns target => execArpNsRequest_ok n ns target s hok
  | .ptpMessage n m => execPtpMessage_ok n m s hok
  | .ethernetLinkDown n => execEthernetLinkDown_ok n s hok
  | .ethernetLinkUp n => execEthernetLinkUp_ok n s hok
  | .streamEnable rq k v => execStreamEnable_ok rq k v s hok
  | .streamDisable rq k v => execStreamDisable_ok rq k v s hok
  | .vceProducerPoll j => execVceProducerPoll_ok j s hok
  | .vceEncode j => execVceEncode_ok j s hok
  | .vceDecode j => execVceDecode_ok j s hok
  | .encodePassDone j len qp => execEncodePassDone_ok j len qp s hok
  | .vceSessionEnable rq j v => execVceSessionEnable_ok rq j v s hok
  | .vceSessionDisable rq j v => execVceSessionDisable_ok rq j v s hok
  | .vceBist rq n => execVceBist_ok rq n s hok
  | .vceBistDone n pass => execVceBistDone_ok n pass s hok
  | .vceEngineReset rq n => execVceEngineReset_ok rq n s hok
  | .vceEngineFault n => execVceEngineFault_ok n s hok
  | .vceOutputHeadRead j => execVceOutputHeadRead_ok j s hok
  | .idleScrubLine cl ecc => execIdleScrubLine_ok cl ecc s hok
  | .scrubLapLimit cl => execScrubLapLimit_ok cl s hok
  | .patrolScrubStep x ecc => execPatrolScrubStep_ok x ecc s hok
  | .ceWindowEnd m => execCeWindowEnd_ok m s hok
  | .ceWindowWrite rq m v => execCeWindowWrite_ok rq m v s hok
  | .memorySelfTest rq m v => execMemorySelfTest_ok rq m v s hok
  | .selfTestDone m pass => execSelfTestDone_ok m pass s hok
  | .faultLogClear rq n => execFaultLogClear_ok rq n s hok
  | .coreReset rq target => execCoreReset_ok rq target s hok
  | .clusterReset rq target => execClusterReset_ok rq target s hok
  | .tileReset rq target => execTileReset_ok rq target s hok
  | .partitionBuild rq p => execPartitionBuild_ok rq p s hok
  | .partitionReset rq p => execPartitionReset_ok rq p s hok
  | .partitionDissolve rq p => execPartitionDissolve_ok rq p s hok
  | .resetAbsorbPoint scope target => execResetAbsorbPoint_ok scope target s hok
  | .resetRestore scope target => execResetRestore_ok scope target s hok
  | .deviceWarmReset rq key => execDeviceWarmReset_ok rq key s hok
  | .oppChangeStart t => execOppChangeStart_ok t s hok
  | .pllLocked t => execPllLocked_ok t s hok
  | .vddTReached t => execVddTReached_ok t s hok
  | .powerSample j => execPowerSample_ok j s hok
  | .fastClampRelease t => execFastClampRelease_ok t s hok
  | .powerLoopTick => execPowerLoopTick_ok s hok
  | .pwrLimitWrite rq v => execPwrLimitWrite_ok rq v s hok
  | .pwrTReqWrite rq t v => execPwrTReqWrite_ok rq t v s hok
  | .domainRampStart t => execDomainRampStart_ok t s hok
  | .rampStageDwell t dom => execRampStageDwell_ok t dom s hok
  | .virtualRail90 t dom => execVirtualRail90_ok t dom s hok
  | .domainShort t dom rail => execDomainShort_ok t dom rail s hok
  | .regulatorFault t under => execRegulatorFault_ok t under s hok
  | .vinCoreLow => execVinCoreLow_ok s hok
  | .vinCoreRestored => execVinCoreRestored_ok s hok
  | .railLoss r => execRailLoss_ok r s hok
  | .vddAoLoss => execVddAoLoss_ok s hok
  | .thermalConversion die rs => execThermalConversion_ok die rs s hok
  | .throttleStep t => execThrottleStep_ok t s hok
  | .throttleReleaseStep t => execThrottleReleaseStep_ok t s hok
  | .samplingBandDrop die => execSamplingBandDrop_ok die s hok
  | .extNtcConversion k valid temp => execExtNtcConversion_ok k valid temp s hok
  | .coolantOkHigh => execCoolantOkHigh_ok s hok
  | .coolantOkRestored => execCoolantOkRestored_ok s hok
  | .riseEvaluation => execRiseEvaluation_ok s hok
  | .hubTHotRestored => execHubTHotRestored_ok s hok
  | .floorRelease rq => execFloorRelease_ok rq s hok
  | .coolingShutdown => execCoolingShutdown_ok s hok
  | .coolingShutdownAbsorb => execCoolingShutdownAbsorb_ok s hok
  | .thmCfgWrite rq v => execThmCfgWrite_ok rq v s hok
  | .forecastPublish => execForecastPublish_ok s hok
  | .cycleSnapshot => execCycleSnapshot_ok s hok
  | .energyTableClear rq => execEnergyTableClear_ok rq s hok
  | .mctpControl src op => execMctpControl_ok src op s hok
  | .getNonce f => execGetNonce_ok f s hok
  | .regRead f addr n => execRegRead_ok f addr n s hok
  | .regWrite f addr ws => execRegWrite_ok f addr ws s hok
  | .trailRead f slot n => execTrailRead_ok f slot n s hok
  | .devReset f => execDevReset_ok f s hok
  | .restart f => execRestart_ok f s hok
  | .eventSub f eid => execEventSub_ok f eid s hok
  | .ownerTransfer f g port => execOwnerTransfer_ok f g port s hok
  | .fieldSubst f g tile cluster p => execFieldSubst_ok f g tile cluster p s hok
  | .fieldMapClear f g => execFieldMapClear_ok f g s hok
  | .svnCommit f g => execSvnCommit_ok f g s hok
  | .keyRevoke f g slot => execKeyRevoke_ok f g slot s hok
  | .debugChallenge f => execDebugChallenge_ok f s hok
  | .debugUnlock f device nonce scope key sig => execDebugUnlock_ok f device nonce scope key sig s hok
  | .nonceExpiry src => execNonceExpiry_ok src s hok
  | .fuseWriteDone => execFuseWriteDone_ok s hok
  | .pldmMonitorRequest src inst op => execPldmMonitorRequest_ok src inst op s hok
  | .pldmUpdateComponent src inst comp => execPldmUpdateComponent_ok src inst comp s hok
  | .pldmFirmwareData data => execPldmFirmwareData_ok data s hok
  | .pldmVerifyComplete back => execPldmVerifyComplete_ok back s hok
  | .pldmActivateFirmware src inst => execPldmActivateFirmware_ok src inst s hok
  | .managementPush m => execManagementPush_ok m s hok
  | .spdmRequest r op => execSpdmRequest_ok r op s hok
  | .ideKmRequest port stream op => execIdeKmRequest_ok port stream op s hok
  | .ideInsecure port stream => execIdeInsecure_ok port stream s hok
  | .trailRecordCommit => execTrailRecordCommit_ok s hok
  | .trlIdxWrite rq v => execTrlIdxWrite_ok rq v s hok
  | .tapInstruction j => execTapInstruction_ok j s hok
  | .resumeRepeat k => execResumeRepeat_ok k s hok
  | .vceDecodeDone j r => execVceDecodeDone_ok j r s hok
  | .atuCommandDone x => execAtuCommandDone_ok x s hok
  | .ackIntervalTimer e => execAckIntervalTimer_ok e s hok
  | .railRestored r => execRailRestored_ok r s hok
  | .ueWindowEnd x => execUeWindowEnd_ok x s hok
  | .registerRead src addr n => execRegisterRead_ok src addr n s hok
  | .i3cAddressAssign a => execI3cAddressAssign_ok a s hok
  | .tapReset => execTapReset_ok s hok
  | .pfcPauseExpiry n prio => execPfcPauseExpiry_ok n prio s hok

theorem step_of_cons {c : Instr} {rest : List Instr} {s : State} (h : s.pending = c :: rest) : step s = exec c { s with pending := rest } := by
  rw [step, h]

theorem step_of_nil {s : State} (h : s.pending = []) : step s = .next s.idle := by
  rw [step, h]

/-- Settles O1: the step takes the command at the front. -/
theorem stepRunsFrontCommand : Obligations.StepRunsFrontCommand := by
  unfold Obligations.StepRunsFrontCommand
  exact fun _ _ _ => step_of_cons

/-- Settles O2: the idle time is 1 ns and the free amount of this step. -/
theorem emptyQueueTimePasses : Obligations.EmptyQueueTimePasses := by
  unfold Obligations.EmptyQueueTimePasses
  intro s h
  exact ⟨1 + Config.freeNat s.fresh, by omega, by rw [step_of_nil h, State.idle, Nat.add_assoc]⟩

/-- Settles O3: no meaning ends in a fault or a refusal. -/
theorem everyCommandCompletes : Obligations.EveryCommandCompletes := by
  unfold Obligations.EveryCommandCompletes
  intro c s
  obtain ⟨t, ht⟩ := exec_next c s
  exact ⟨t, ht, trivial⟩

/-- A step keeps the canonical form and takes one command off the queue. -/
theorem step_ok {s t : State} (h : s.Canonical) (ht : step s = .next t) : t.Ok s.pending.tail := by
  obtain ⟨-, hregs, hhmp, hstores, hslices⟩ := h
  cases hp : s.pending with
  | nil =>
    rw [step_of_nil hp] at ht
    cases ht
    exact ⟨hp, hregs, hhmp, hstores, hslices⟩
  | cons c rest =>
    rw [step_of_cons hp] at ht
    exact exec_ok (s := { s with pending := rest }) ⟨rfl, hregs, hhmp, hstores, hslices⟩ c t ht

/-- Settles O5: each command keeps the invariant, and a step is the front command on the rest of the queue. -/
theorem stepKeepsCanonicalForm : Obligations.StepKeepsCanonicalForm := by
  unfold Obligations.StepKeepsCanonicalForm
  refine ⟨fun c q s t h ht => exec_ok h c t ht, fun s t h ht => ?_⟩
  have hok := step_ok h ht
  have hpending := hok.1
  exact ⟨by rw [State.Canonical, hpending]; exact hok, hpending⟩

end Sys2Proof.Machine
end

section
/-! One Peken instruction (07 R158, R160, R165, R175): what stops it before it acts, and what it leaves once its body has answered. -/
namespace Sys2Proof.Machine

/-! Before the body. -/

theorem State.peken_of_not_executes {s : State} {x : Nat} (h : s.executes x = false) (i : Pk) (f : Form) (body : State → Core → Act) :
    s.peken x i f body = s := by
  simp [State.peken, h]

theorem State.peken_of_fetchStop {s : State} {x : Nat} {a : Act} (h : s.executes x = true) (ha : s.fetchStop x (s.core x).pc = some a) (i : Pk)
    (f : Form) (body : State → Core → Act) : s.peken x i f body = s.act x (s.core x).pc a := by
  simp [State.peken, h, ha]

theorem State.peken_of_bad {s : State} {x : Nat} {i : Pk} {f : Form} (h : s.executes x = true) (hfetch : s.fetchStop x (s.core x).pc = none)
    (hbad : f.bad i = true) (body : State → Core → Act) : s.peken x i f body = s.coreFault x 0x02 0 0 0 (s.core x).pc := by
  simp [State.peken, h, hfetch, hbad]

/-- Command `c` runs through the fetch and field checks of the form `f`. -/
def PekenRow (x : Fin 512) (i : Pk) (c : Instr) (f : Form) : Prop := ∀ s, ∃ body, exec c s = .next (s.peken x i f body)

section PekenRow
variable {x : Fin 512} {i : Pk} {c : Instr} {f : Form}

theorem PekenRow.of_peken {body : State → Core → Act} (h : ∀ s, exec c s = .next (s.peken x i f body)) : PekenRow x i c f := fun s => ⟨_, h s⟩
theorem PekenRow.of_pekenReg {g : Core → Core} (h : ∀ s, exec c s = .next (s.pekenReg x i f g)) : PekenRow x i c f := .of_peken h
theorem PekenRow.of_aluR {op : Dword → Dword → Dword} (h : ∀ s, exec c s = .next (s.aluR x i op)) : PekenRow x i c formSss := .of_pekenReg h
theorem PekenRow.of_aluI {op : Dword → Dword → Dword} (h : ∀ s, exec c s = .next (s.aluI x i op)) : PekenRow x i c formSsi := .of_pekenReg h
theorem PekenRow.of_vecI {op : Word → Word → Word} (h : ∀ s, exec c s = .next (s.vecI x i op)) : PekenRow x i c formVvv := .of_pekenReg h
theorem PekenRow.of_vecF2 {op : Nat → Word → Word → Word × Nat} (h : ∀ s, exec c s = .next (s.vecF2 x i op)) : PekenRow x i c formVvv := .of_pekenReg h
theorem PekenRow.of_vecF1 {ms : List Nat} {op : Nat → Word → Word × Nat} (h : ∀ s, exec c s = .next (s.vecF1 x i ms op)) :
    PekenRow x i c { formVv with mods := ms } := .of_pekenReg h
theorem PekenRow.of_predOp {op : Dword → Dword → Dword} (h : ∀ s, exec c s = .next (s.predOp x i op)) : PekenRow x i c formPpp := .of_pekenReg h
theorem PekenRow.of_movDesc {kind : Nat} {ok : List Byte → Bool} (h : ∀ s, exec c s = .next (s.movDesc x i kind ok)) :
    PekenRow x i c { a := .s, flags := 1, engine := true } := .of_peken h
theorem PekenRow.of_atuIssue {kind len : Nat} {ok : List Byte → Nat → Bool} (h : ∀ s, exec c s = .next (s.atuIssue x i kind len ok)) :
    PekenRow x i c { d := if kind = 0 then .v else .s, a := .s, b := .v, c := .v, engine := true } := .of_peken h

end PekenRow

theorem pekenRow_of_mem_pkForms (x : Fin 512) (i : Pk) : ∀ e ∈ pkForms x i, PekenRow x i e.1 e.2 := by
  unfold pkForms
  repeat' refine List.forall_mem_append.2 ⟨?_, ?_⟩
  all_goals refine List.forall_mem_map.2 ?_
  all_goals simp only [List.forall_mem_cons, List.not_mem_nil, false_implies, implies_true, and_true]
  · exact ⟨.of_pekenReg fun _ => rfl, .of_peken fun _ => rfl, .of_peken fun _ => rfl, .of_peken fun _ => rfl, .of_peken fun _ => rfl, .of_peken fun _ => rfl, .of_peken fun _ => rfl⟩
  · and_intros <;> exact .of_peken fun _ => rfl
  · exact .of_peken fun _ => rfl
  · exact ⟨.of_peken fun _ => rfl, .of_peken fun _ => rfl, .of_pekenReg fun _ => rfl⟩
  · and_intros <;> exact .of_peken fun _ => rfl
  · and_intros <;> exact .of_peken fun _ => rfl
  · and_intros <;> exact .of_aluR fun _ => rfl
  · and_intros <;> exact .of_aluI fun _ => rfl
  · exact .of_peken fun _ => rfl
  · exact .of_peken fun _ => rfl
  · exact .of_peken fun _ => rfl
  · exact ⟨.of_vecI fun _ => rfl, .of_vecI fun _ => rfl, .of_vecI fun _ => rfl, .of_vecI fun _ => rfl, .of_vecI fun _ => rfl, .of_vecI fun _ => rfl, .of_vecI fun _ => rfl, .of_vecI fun _ => rfl, .of_vecI fun _ => rfl, .of_vecI fun _ => rfl, .of_vecI fun _ => rfl, .of_vecI fun _ => rfl, .of_vecI fun _ => rfl, .of_vecI fun _ => rfl, .of_vecF2 fun _ => rfl, .of_vecF2 fun _ => rfl, .of_vecF2 fun _ => rfl, .of_vecF2 fun _ => rfl, .of_vecF2 fun _ => rfl, .of_pekenReg fun _ => rfl⟩
  · exact .of_pekenReg fun _ => rfl
  · and_intros <;> exact .of_pekenReg fun _ => rfl
  · and_intros <;> exact .of_vecF1 fun _ => rfl
  · exact .of_pekenReg fun _ => rfl
  · exact .of_vecF1 fun _ => rfl
  · exact .of_vecF1 fun _ => rfl
  · exact .of_pekenReg fun _ => rfl
  · exact .of_pekenReg fun _ => rfl
  · and_intros <;> exact .of_predOp fun _ => rfl
  · and_intros <;> exact .of_pekenReg fun _ => rfl
  · exact .of_pekenReg fun _ => rfl
  · exact .of_peken fun _ => rfl
  · exact .of_peken fun _ => rfl
  · exact .of_pekenReg fun _ => rfl
  · exact .of_pekenReg fun _ => rfl
  · exact .of_pekenReg fun _ => rfl
  · exact .of_pekenReg fun _ => rfl
  · exact .of_pekenReg fun _ => rfl
  · exact .of_pekenReg fun _ => rfl
  · exact .of_peken fun _ => rfl
  · exact .of_peken fun _ => rfl
  · exact .of_peken fun _ => rfl
  · exact .of_peken fun _ => rfl
  · and_intros <;> exact .of_movDesc fun _ => rfl
  · exact .of_peken fun _ => rfl
  · exact .of_atuIssue (kind := 0) fun _ => rfl
  · exact ⟨.of_atuIssue (kind := 1) fun _ => rfl, .of_atuIssue (kind := 2) fun _ => rfl⟩
  · exact .of_pekenReg fun _ => rfl
  · exact .of_peken fun _ => rfl

/-- Settles O11: the checks stand before the body of every instruction, in the order of the statement. -/
theorem fetchAndFieldTraps : Obligations.FetchAndFieldTraps := by
  unfold Obligations.FetchAndFieldTraps
  rintro x i s pc rfl e he
  obtain ⟨body, hexec⟩ := pekenRow_of_mem_pkForms x i e he s
  simp only [hexec, Host.Outcome.next.injEq]
  refine ⟨fun h => State.peken_of_not_executes h i _ body, fun h => ⟨fun hout => ?_, fun hin hodd => ?_, fun hin halign hprot => ?_,
    fun hin halign hprot hjob hpoison => ?_, fun hfetch hbad => State.peken_of_bad h hfetch hbad body⟩⟩
  · rw [State.peken_of_fetchStop h (if_pos hout)]
    rfl
  · rw [State.peken_of_fetchStop h (a := .fault 0x03 0 _) (by rw [State.fetchStop, if_neg (by omega), if_pos hodd])]
    rfl
  · rw [State.peken_of_fetchStop h (a := .fault 0x05 0 _) (by rw [State.fetchStop, if_neg (by omega), if_neg (by omega), if_pos hprot])]
    rfl
  · have hstop : s.fetchStop x (s.core x).pc = some (.poison 0 (s.core x).pc) := by
      rw [State.fetchStop, if_neg (by omega), if_neg (by omega), if_neg (by simp [hprot]), if_pos (by simp [hjob, hpoison])]
    rw [State.peken_of_fetchStop h hstop]
    rfl

/-! The body's answer. -/

section Issued
variable {s : State} {x : Nat} {i : Pk} {f : Form} (h : s.issues x i f = true)
include h

theorem State.peken_of_issues (body : State → Core → Act) :
    s.peken x i f body = s.act x (s.core x).pc (match body s (s.core x) with
      | .next t => if f.tgu then Act.next (t.tguCount x) else .next t
      | a => a) := by
  simp only [State.issues, Bool.and_eq_true, Option.isNone_iff_eq_none, Bool.not_eq_true'] at h
  obtain ⟨⟨hexec, hfetch⟩, hgood⟩ := h
  simp only [State.peken, hexec, hfetch, hgood, Bool.not_true, Bool.false_eq_true, if_false] <;> rfl

/-- An instruction outside the per-thread unit does what its body says. -/
theorem State.peken_scalar (hf : f.tgu = false) (body : State → Core → Act) :
    s.peken x i f body = s.act x (s.core x).pc (body s (s.core x)) := by
  rw [State.peken_of_issues h]
  cases body s (s.core x) <;> simp [hf]

theorem State.peken_next {body : State → Core → Act} {t : State} (hf : f.tgu = false) (hb : body s (s.core x) = .next t) :
    s.peken x i f body = t.setCore x { t.core x with pc := pcAdd (s.core x).pc 8 } := by
  rw [State.peken_scalar h hf, hb, State.act_next]

theorem State.peken_jump {body : State → Core → Act} {t : State} {pc : Nat} (hb : body s (s.core x) = .jump t pc) :
    s.peken x i f body = t.setCore x { t.core x with pc := pc % 2 ^ 19 } := by
  rw [State.peken_of_issues h, hb, State.act_jump]

theorem State.peken_hold {body : State → Core → Act} (hb : body s (s.core x) = .hold) : s.peken x i f body = s := by
  rw [State.peken_of_issues h, hb, State.act_hold]

theorem State.peken_block {body : State → Core → Act} {t : State} (hb : body s (s.core x) = .block t) : s.peken x i f body = t := by
  rw [State.peken_of_issues h, hb, State.act_block]

theorem State.peken_fault {body : State → Core → Act} {code hi addr : Nat} (hb : body s (s.core x) = .fault code hi addr) :
    s.peken x i f body = s.coreFault x code 0 hi addr (s.core x).pc := by
  rw [State.peken_of_issues h, hb, State.act_fault]

theorem State.peken_poison {body : State → Core → Act} {space addr : Nat} (hb : body s (s.core x) = .poison space addr) :
    s.peken x i f body = s.corePoison x 0x12 1 space addr := by
  rw [State.peken_of_issues h, hb]
  rfl

theorem State.peken_next_tgu {body : State → Core → Act} {t : State} (hf : f.tgu = true) (hb : body s (s.core x) = .next t) :
    s.peken x i f body = (t.tguCount x).setCore x { t.core x with pc := pcAdd (s.core x).pc 8 } := by
  rw [State.peken_of_issues h, hb]
  simp only [hf, if_true, State.act_next]
  rfl

end Issued

/-! Retiring. -/

/-- A state that differs only in the registers of core `x` is what an instruction retires to. -/
theorem retires_setCore {c : Instr} {s : State} {x : Nat} {k : Core} (h : exec c s = .next (s.setCore x k)) : Retires c s x k :=
  ⟨_, h, State.core_setCore_self _ _ _, fun y hy => by rw [State.core_setCore, if_neg hy], _, rfl⟩

theorem State.setCore_setCore (s : State) (x : Nat) (j k : Core) : ∃ m, (s.setCore x j).setCore x k = { s with cores := m } := ⟨_, rfl⟩

/-- The second of two writes of a core's registers is what it holds. -/
theorem retires_setCore_setCore {c : Instr} {s : State} {x : Nat} {j k : Core} (h : exec c s = .next ((s.setCore x j).setCore x k)) :
    Retires c s x k :=
  ⟨_, h, State.core_setCore_self _ _ _, fun y hy => by rw [State.core_setCore, if_neg hy, State.core_setCore, if_neg hy], _, rfl⟩

section Issued
variable {c : Instr} {s : State} {x : Nat} {i : Pk} {f : Form} (h : s.issues x i f = true)
include h

theorem retires_next {body : State → Core → Act} {j k : Core} (hx : exec c s = .next (s.peken x i f body)) (hf : f.tgu = false)
    (hb : body s (s.core x) = .next (s.setCore x j)) (hk : { j with pc := pcAdd (s.core x).pc 8 } = k) : Retires c s x k := by
  rw [State.peken_next h hf hb, State.core_setCore_self, hk] at hx
  exact retires_setCore_setCore hx

theorem retires_next_same {body : State → Core → Act} (hx : exec c s = .next (s.peken x i f body)) (hf : f.tgu = false)
    (hb : body s (s.core x) = .next s) : Retires c s x (s.core x).step := by
  rw [State.peken_next h hf hb] at hx
  exact retires_setCore hx

theorem retires_jump {body : State → Core → Act} {k : Core} {pc : Nat} (hx : exec c s = .next (s.peken x i f body))
    (hb : body s (s.core x) = .jump (s.setCore x k) pc) : Retires c s x { k with pc := pc % 2 ^ 19 } := by
  rw [State.peken_jump h hb, State.core_setCore_self] at hx
  exact retires_setCore_setCore hx

theorem retires_jump_same {body : State → Core → Act} {pc : Nat} (hx : exec c s = .next (s.peken x i f body))
    (hb : body s (s.core x) = .jump s pc) : Retires c s x { s.core x with pc := pc % 2 ^ 19 } := by
  rw [State.peken_jump h hb] at hx
  exact retires_setCore hx

theorem retires_block {body : State → Core → Act} {k : Core} (hx : exec c s = .next (s.peken x i f body))
    (hb : body s (s.core x) = .block (s.setCore x k)) : Retires c s x k := by
  rw [State.peken_block h hb] at hx
  exact retires_setCore hx

theorem exec_act_next {body : State → Core → Act} {t : State} (hx : exec c s = .next (s.peken x i f body)) (hf : f.tgu = false)
    (hb : body s (s.core x) = .next t) : exec c s = .next (t.setCore x { t.core x with pc := pcAdd (s.core x).pc 8 }) := by
  rw [hx, State.peken_next h hf hb]

theorem exec_act_block {body : State → Core → Act} {t : State} (hx : exec c s = .next (s.peken x i f body))
    (hb : body s (s.core x) = .block t) : exec c s = .next t := by
  rw [hx, State.peken_block h hb]

theorem exec_act_poison {body : State → Core → Act} {space addr : Nat} (hx : exec c s = .next (s.peken x i f body))
    (hb : body s (s.core x) = .poison space addr) : exec c s = .next (s.corePoison x 0x12 1 space addr) := by
  rw [hx, State.peken_poison h hb]

theorem exec_fault {body : State → Core → Act} {code hi addr : Nat} (hx : exec c s = .next (s.peken x i f body))
    (hb : body s (s.core x) = .fault code hi addr) : exec c s = .next (s.coreFault x code 0 hi addr (s.core x).pc) := by
  rw [hx, State.peken_fault h hb]

theorem exec_hold {body : State → Core → Act} (hx : exec c s = .next (s.peken x i f body)) (hb : body s (s.core x) = .hold) :
    exec c s = .next s := by
  rw [hx, State.peken_hold h hb]

end Issued

/-! What a register write leaves of a core. -/

@[simp] theorem Core.setS_pc (c : Core) (d : Nat) (v : Dword) : (c.setS d v).pc = c.pc := by rw [Core.setS_eq]
@[simp] theorem Core.setP_pc (c : Core) (d : Nat) (v : Dword) : (c.setP d v).pc = c.pc := by rw [Core.setP_eq]
@[simp] theorem Core.mapV_pc (c : Core) (i : Pk) (f : Nat → Word) : (c.mapV i f).pc = c.pc := by rw [Core.mapV_eq]
@[simp] theorem Core.mapF_pc (c : Core) (i : Pk) (f : Nat → Word × Nat) : (c.mapF i f).pc = c.pc := by rw [Core.mapF_v]; simp

/-- The core after a body that left its PC alone. -/
theorem Core.step_eq {c k : Core} (h : k.pc = c.pc) : k.step = { k with pc := pcAdd c.pc 8 } := by rw [Core.step, h]

end Sys2Proof.Machine
end

section
/-! Register fields that do not meet: fields of different places in a page, pages that differ, the header and the block's own registers; and what a state keeps of registers and bytes. -/
namespace Sys2Proof.Machine

/-! Keys. -/

/-- Two fields of a page at different places. -/
def Fld.apart (f g : Fld) : Bool :=
  decide (f.off < 4096) && decide (g.off < 4096) && decide (f.lo < 32) && decide (g.lo < 32) && (f.off != g.off || f.lo != g.lo)

/-- A field lies in the block's own registers, behind the header. -/
def Fld.own (f : Fld) : Bool := decide (0x040 ≤ f.off) && decide (f.off < 4096) && decide (f.lo < 32)

/-- A field lies inside its page. -/
def Fld.inside (f : Fld) : Bool := decide (f.off < 4096) && decide (f.lo < 32)

theorem fkey_ne_of_apart {f g : Fld} (h : f.apart g = true) (p q : Nat) : fkey p f ≠ fkey q g := by
  simp only [Fld.apart, Bool.and_eq_true, Bool.or_eq_true, decide_eq_true_eq, bne_iff_ne] at h
  unfold fkey
  omega

theorem fkey_ne_of_page {f g : Fld} {p q : Nat} (hpq : p ≠ q) (hf : f.inside = true) (hg : g.inside = true) : fkey p f ≠ fkey q g := by
  simp only [Fld.inside, Bool.and_eq_true, decide_eq_true_eq] at hf hg
  unfold fkey
  omega

theorem Fld.apart_of_own {f g : Fld} (hf : f.own = true) (hg : g.off < 0x040) (hlo : g.lo < 32) : f.apart g = true := by
  simp only [Fld.own, Fld.apart, Bool.and_eq_true, Bool.or_eq_true, decide_eq_true_eq, bne_iff_ne] at hf ⊢
  omega

/-! One field after an update of another. -/

section
variable (s : State) {f g : Fld} (p q v : Nat)

theorem State.fld_setFld_apart (h : f.apart g = true) : (s.setFld q g v).fld p f = s.fld p f :=
  State.fld_setFld_ne _ _ _ _ _ _ (fkey_ne_of_apart h p q)

theorem State.fld_setFld_page (h : p ≠ q) (hf : f.inside = true) (hg : g.inside = true) : (s.setFld q g v).fld p f = s.fld p f :=
  State.fld_setFld_ne _ _ _ _ _ _ (fkey_ne_of_page h hf hg)

theorem State.fld_setFld_of_lt (h : v < 2 ^ f.len) : (s.setFld p f v).fld p f = v := by
  rw [State.fld_setFld_self, Nat.mod_eq_of_lt h]

theorem State.fld_setFlag_apart (h : f.apart g = true) (b : Bool) : (s.setFlag q g b).fld p f = s.fld p f := State.fld_setFld_apart s p q _ h

theorem State.flag_setFlag_apart (h : f.apart g = true) (b : Bool) : (s.setFlag q g b).flag p f = s.flag p f := by
  rw [State.flag, State.fld_setFlag_apart s p q h, State.flag]

theorem State.flag_setFld_apart (h : f.apart g = true) : (s.setFld q g v).flag p f = s.flag p f := by
  rw [State.flag, State.fld_setFld_apart s p q v h, State.flag]

theorem State.fld_setFlag_self (h : 0 < f.len) (b : Bool) : (s.setFlag p f b).fld p f = b2n b := by
  have hpow : 2 ^ 1 ≤ 2 ^ f.len := Nat.pow_le_pow_right (by decide) h
  refine State.fld_setFld_of_lt s p _ ?_
  cases b
  · exact Nat.two_pow_pos _
  · show 1 < 2 ^ f.len
    omega

theorem State.flag_setFlag_self (h : 0 < f.len) (b : Bool) : (s.setFlag p f b).flag p f = b := by
  rw [State.flag, State.fld_setFlag_self s p h]
  cases b <;> rfl

theorem State.fld_event_apart (h : f.apart F.PG_INT_STS = true) (bit : Nat) : (s.event q bit).fld p f = s.fld p f :=
  State.fld_event_ne _ _ _ _ _ (fkey_ne_of_apart h p q)

theorem State.flag_event_apart (h : f.apart F.PG_INT_STS = true) (bit : Nat) : (s.event q bit).flag p f = s.flag p f := by
  rw [State.flag, State.fld_event_apart s p q h, State.flag]

/-- Counting an error changes header fields alone. -/
theorem State.fld_countErr_own (h : f.own = true) (code rq addr : Nat) : (s.countErr q code rq addr).fld p f = s.fld p f := by
  refine State.fld_countErr_ne _ _ _ _ _ _ _ ?_
  simp only [errKeys, List.mem_cons, List.not_mem_nil, or_false, not_or]
  exact ⟨fkey_ne_of_apart (Fld.apart_of_own h (by decide) (by decide)) _ _, fkey_ne_of_apart (Fld.apart_of_own h (by decide) (by decide)) _ _,
    fkey_ne_of_apart (Fld.apart_of_own h (by decide) (by decide)) _ _, fkey_ne_of_apart (Fld.apart_of_own h (by decide) (by decide)) _ _,
    fkey_ne_of_apart (Fld.apart_of_own h (by decide) (by decide)) _ _, fkey_ne_of_apart (Fld.apart_of_own h (by decide) (by decide)) _ _,
    fkey_ne_of_apart (Fld.apart_of_own h (by decide) (by decide)) _ _⟩

theorem State.flag_countErr_own (h : f.own = true) (code rq addr : Nat) : (s.countErr q code rq addr).flag p f = s.flag p f := by
  rw [State.flag, State.fld_countErr_own s p q h, State.flag]

end

/-- A 64-bit counter in two registers takes any value below 2 ^ 64. -/
theorem State.fld64_setFld64 (s : State) (pg : Nat) {lo hi : Fld} (h : lo.apart hi = true) (hlo : lo.len = 32) (hhi : hi.len = 32) (v : Nat) :
    (s.setFld64 pg lo hi v).fld64 pg lo hi = v % 2 ^ 64 := by
  rw [State.fld64, State.setFld64, State.fld_setFld_apart _ _ _ _ h, State.fld_setFld_self, State.fld_setFld_self, hlo, hhi]
  omega

/-! What stays. -/

theorem State.sameRegs.refl (s : State) (ks : List Nat) : s.sameRegs s ks := fun _ _ _ => rfl

theorem State.sameRegs_of_regs {s t : State} (h : t.regs = s.regs) (ks : List Nat) : s.sameRegs t ks := fun pg f _ => by
  rw [State.fld, State.fld, h]

theorem State.sameRegs.trans {s t u : State} {ks : List Nat} (h1 : s.sameRegs t ks) (h2 : t.sameRegs u ks) : s.sameRegs u ks :=
  fun pg f hk => (h2 pg f hk).trans (h1 pg f hk)

theorem State.sameRegs.mono {s t : State} {ks ls : List Nat} (h : s.sameRegs t ks) (hsub : ks ⊆ ls) : s.sameRegs t ls :=
  fun pg f hk => h pg f fun hm => hk (hsub hm)

theorem State.sameRegs.setFld {s t : State} {ks : List Nat} (h : s.sameRegs t ks) {pg : Nat} {f : Fld} (hk : fkey pg f ∈ ks) (v : Nat) :
    s.sameRegs (t.setFld pg f v) ks := fun pg' f' hk' => by
  rw [State.fld_setFld_ne t pg f v pg' f' fun e => hk' (by rwa [e]), h pg' f' hk']

theorem State.sameRegs.event {s t : State} {ks : List Nat} (h : s.sameRegs t ks) {pg : Nat} (hk : fkey pg F.PG_INT_STS ∈ ks) (bit : Nat) :
    s.sameRegs (t.event pg bit) ks := fun pg' f' hk' => by
  rw [State.fld_event_ne t pg bit pg' f' fun e => hk' (by rwa [e]), h pg' f' hk']

/-- A field whose key is not among those that changed. -/
theorem State.sameRegs.flag {s t : State} {ks : List Nat} (h : s.sameRegs t ks) {pg : Nat} {f : Fld} (hk : fkey pg f ∉ ks) : t.flag pg f = s.flag pg f := by
  rw [State.flag, h pg f hk, State.flag]

theorem State.sameBytes.refl (s : State) : s.sameBytes s := ⟨fun _ => rfl, fun _ => rfl, fun _ => rfl⟩

theorem State.sameBytes.trans {s t u : State} (h1 : s.sameBytes t) (h2 : t.sameBytes u) : s.sameBytes u :=
  ⟨fun a => (h2.1 a).trans (h1.1 a), fun a => (h2.2.1 a).trans (h1.2.1 a), fun k => (h2.2.2 k).trans (h1.2.2 k)⟩

theorem State.sameBytes_of_eq {s t : State} (h : t.hmp = s.hmp) (h' : t.stores = s.stores) (h'' : t.slices = s.slices) : s.sameBytes t := by
  refine ⟨fun a => ?_, fun a => ?_, fun k => ?_⟩
  · rw [h]
  · rw [h']
  · rw [h'']

/-- The three memories of a state, as the lemmas of the frame of memory name them. -/
def State.memsOf (s : State) : Mem × Mem × SMem := (s.hmp, s.stores, s.slices)

theorem State.mems_memsOf (s : State) : s.Mems s.memsOf := ⟨rfl, rfl, rfl⟩

/-- A state with the memories of `s` has its bytes. -/
theorem State.sameBytes_of_mems {s t : State} (h : t.Mems s.memsOf) : s.sameBytes t := State.sameBytes_of_eq h.1 h.2.1 h.2.2

/-! States that differ in registers and messages alone. -/

section RegsOnly
variable {s t : State} (h : s.RegsOnly t)
include h

theorem State.RegsOnly.core (x : Nat) : t.core x = s.core x := by
  obtain ⟨_, _, _, _, _, rfl⟩ := h
  rfl

theorem State.RegsOnly.sameBytes : s.sameBytes t := by
  obtain ⟨_, _, _, _, _, rfl⟩ := h
  exact .refl s

end RegsOnly

theorem State.RegsOnly.refl (s : State) : s.RegsOnly s := ⟨_, _, _, _, _, rfl⟩

end Sys2Proof.Machine
end

section
/-! The scalar, control and divergence instructions (07 R158, R164, R166-R168, R173, R176). -/
namespace Sys2Proof.Machine

/-! Instructions that only change their core's registers. -/

section Issued
variable {c : Instr} {s : State} {x : Nat} {i : Pk} {f : Form} (h : s.issues x i f = true)
include h

theorem retires_pekenReg {g : Core → Core} {k : Core} (hx : exec c s = .next (s.pekenReg x i f g)) (hf : f.tgu = false)
    (hk : g (s.core x) = k) (hpc : k.pc = (s.core x).pc) : Retires c s x k.step := by
  subst hk
  rw [Core.step_eq hpc]
  exact retires_next h hx hf rfl rfl

end Issued

/-- Format R: `v` is what the operation makes of the two source registers. -/
theorem retires_aluR {c : Instr} {s : State} {x : Nat} {i : Pk} (h : s.issues x i formSss = true) {op : Dword → Dword → Dword} {v : Dword}
    (hx : exec c s = .next (s.aluR x i op)) (hv : op ((s.core x).getS i.a) ((s.core x).getS i.b) = v) :
    Retires c s x ((s.core x).stepS i.d v) := by
  subst hv
  exact retires_pekenReg h hx rfl rfl (Core.setS_pc _ _ _)

/-- Format I: `v` is what the operation makes of the source register and the sign-extended immediate. -/
theorem retires_aluI {c : Instr} {s : State} {x : Nat} {i : Pk} (h : s.issues x i formSsi = true) {op : Dword → Dword → Dword} {v : Dword}
    (hx : exec c s = .next (s.aluI x i op)) (hv : op ((s.core x).getS i.a) (i.imm.signExtend 64) = v) :
    Retires c s x ((s.core x).stepS i.d v) := by
  subst hv
  exact retires_pekenReg h hx rfl rfl (Core.setS_pc _ _ _)

theorem b2d_eq (b : Bool) : b2d b = if b = true then 1 else 0 := rfl

theorem slt_iff {w : Nat} (a b : BitVec w) : a.slt b = true ↔ a.toInt < b.toInt := by simp [BitVec.slt]

theorem ult_iff {w : Nat} (a b : BitVec w) : a.ult b = true ↔ a.toNat < b.toNat := by simp [BitVec.ult]

/-- LUI shifts the sign of the immediate out. -/
theorem signExtend_shiftLeft_32 (v : BitVec 32) : v.signExtend 64 <<< 32 = v.zeroExtend 64 <<< 32 := by
  ext j hj
  by_cases hlow : j < 32
  · simp [hlow]
  · have hhigh : j - 32 < 32 := by omega
    simp [BitVec.getElem_signExtend, hlow, hhigh]

/-- Settles O12: each form is the shared ALU shape with its operation. -/
theorem scalarResults : Obligations.ScalarResults := by
  unfold Obligations.ScalarResults
  refine ⟨fun x i s h a b ha hb => ?_, fun x i s h a b ha hb => ?_⟩
  all_goals subst ha hb
  · refine ⟨retires_aluR h rfl rfl, retires_aluR h rfl rfl, retires_aluR h rfl rfl, retires_aluR h rfl rfl, retires_aluR h rfl rfl,
      retires_aluR h rfl rfl, retires_aluR h rfl rfl, retires_aluR h rfl rfl, retires_aluR h rfl rfl, retires_aluR h rfl rfl,
      retires_aluR h rfl ?min, retires_aluR h rfl ?max, retires_aluR h rfl ?minu, retires_aluR h rfl ?maxu, retires_aluR h rfl ?slt,
      retires_aluR h rfl ?sltu⟩
    all_goals simp only [b2d_eq, slt_iff, ult_iff]
  · refine ⟨retires_aluI h rfl rfl, retires_aluI h rfl rfl, retires_aluI h rfl rfl, retires_aluI h rfl rfl, retires_aluI h rfl rfl,
      retires_aluI h rfl rfl, retires_aluI h rfl rfl, retires_aluI h rfl ?lui, retires_aluI h rfl ?slti⟩
    case lui => rw [signExtend_shiftLeft_32]
    case slti => simp only [b2d_eq, slt_iff]

/-! Special registers (07 R164). -/

theorem State.csr_of_ge (s : State) (x : Nat) (c : Core) {n : Nat} (h : 9 ≤ n) : s.csr x c n = none := by
  obtain ⟨k, rfl⟩ := Nat.exists_eq_add_of_le h
  rw [Nat.add_comm]
  rfl

section
variable {s : State} {x : Fin 512} {i : Pk}

/-- CSRR of a special register other than CYCLE. -/
theorem retires_csrr (h : s.issues x i { d := .s, imm := true } = true) {n : Nat} {v : Dword} (hn : i.imm.toNat = n + 1)
    (hv : s.csr x (s.core x) (n + 1) = some v) : Retires (.pkCsrr x i) s x ((s.core x).stepS i.d v) := by
  have hne : i.imm ≠ 0 := fun e => by simp [e] at hn
  rw [Core.stepS, Core.step_eq (Core.setS_pc _ _ _)]
  exact retires_next h rfl rfl (by simp only [hn, hv, if_neg hne]) rfl

/-- CSRR of CYCLE takes a free value. -/
theorem completes_csrr_cycle (h : s.issues x i { d := .s, imm := true } = true) (hn : i.imm.toNat = 0) :
    Completes (.pkCsrr x i) s fun t => (∃ v, t.core x = (s.core x).stepS i.d v) ∧ (∀ y : Nat, y ≠ x → t.core y = s.core y) ∧
      ∃ m, t = { s with cores := m, fresh := s.fresh + 1 } := by
  have hzero : i.imm = 0 := BitVec.eq_of_toNat_eq hn
  refine ⟨_, exec_act_next (t := s.tick.setCore x ((s.core x).setS i.d (BitVec.ofNat 64 (Config.freeNat s.fresh)))) h rfl rfl
    (by simp only [hzero, if_true]; rfl), ⟨BitVec.ofNat 64 (Config.freeNat s.fresh), ?_⟩, fun y hy => ?_, _, rfl⟩
  · rw [State.core_setCore_self, State.core_setCore_self, Core.stepS, Core.step_eq (Core.setS_pc _ _ _)]
  · rw [State.core_setCore, if_neg hy, State.core_setCore, if_neg hy]
    rfl

theorem exec_csrr_illegal (h : s.issues x i { d := .s, imm := true } = true) (hn : 9 ≤ i.imm.toNat) :
    exec (.pkCsrr x i) s = .next (s.coreFault x 0x01 0 0 0 (s.core x).pc) :=
  exec_fault h rfl (by simp only [State.csr_of_ge s x _ hn])

end

/-- Settles O13: each number of R164 is one case of the model's table. -/
theorem specialRegisterAccess : Obligations.SpecialRegisterAccess := by
  unfold Obligations.SpecialRegisterAccess
  intro x i s
  refine ⟨fun h => ⟨completes_csrr_cycle h, fun hn => retires_csrr h hn rfl, fun hn => retires_csrr h hn rfl, fun hn => retires_csrr h hn rfl,
    fun hn => retires_csrr h hn rfl, fun hn => retires_csrr h hn rfl, fun hn => retires_csrr h hn rfl, fun hn => retires_csrr h hn rfl,
    fun hn => retires_csrr h hn rfl, exec_csrr_illegal h⟩, fun h => ⟨fun hn => ?fpstat, fun hn => ?fpmode, fun h5 h6 => ?illegal⟩⟩
  case fpstat =>
    have hi : i.imm = 5 := BitVec.eq_of_toNat_eq hn
    exact retires_next h rfl rfl (by simp only [hi, if_true]; rfl) rfl
  case fpmode =>
    have hi : i.imm = 6 := BitVec.eq_of_toNat_eq hn
    exact retires_next h rfl rfl (by simp only [hi, if_true]; rfl) rfl
  case illegal =>
    have hi5 : i.imm ≠ 5 := fun e => h5 (by rw [e]; rfl)
    have hi6 : i.imm ≠ 6 := fun e => h6 (by rw [e]; rfl)
    exact exec_fault h rfl (by simp only [if_neg hi5, if_neg hi6])

/-! Branches, calls, waits and tokens. -/

theorem sgn_toNat {w : Nat} (hw : 0 < w) (v : BitVec w) : sgn w v.toNat = v.toInt := by
  have hv := v.isLt
  have hpow : 2 ^ w = 2 * 2 ^ (w - 1) := by
    rw [← Nat.pow_succ', Nat.succ_eq_add_one, Nat.sub_add_cancel hw]
  rw [sgn, Nat.mod_eq_of_lt hv, BitVec.toInt]
  split
  · split
    · rfl
    · omega
  · split
    · omega
    · push_cast
      rfl

theorem unsgn_lt (w : Nat) (i : Int) : unsgn w i < 2 ^ w := by
  have hpow : 0 < 2 ^ w := Nat.two_pow_pos w
  unfold unsgn
  omega

theorem pcAdd_mod (pc : Nat) (off : Int) : pcAdd pc off % 2 ^ 19 = pcAdd pc off := Nat.mod_eq_of_lt (unsgn_lt 19 _)

theorem brTarget_eq (c : Core) (i : Pk) : brTarget c i = pcAdd c.pc (8 * i.imm.toInt) := by
  rw [brTarget, sgn_toNat (by decide)]

theorem brTarget_mod (c : Core) (i : Pk) : brTarget c i % 2 ^ 19 = pcAdd c.pc (8 * i.imm.toInt) := by
  rw [brTarget_eq, pcAdd_mod]

/-- The six conditions of BRC. -/
theorem brcCond_iff {m : Nat} (hm : m ≤ 5) (a : Dword) : brcCond m a = true ↔
    (m = 0 ∧ a.toInt = 0) ∨ (m = 1 ∧ a.toInt ≠ 0) ∨ (m = 2 ∧ a.toInt < 0) ∨ (m = 3 ∧ 0 ≤ a.toInt) ∨ (m = 4 ∧ 0 < a.toInt) ∨ (m = 5 ∧ a.toInt ≤ 0) := by
  have hz : a.toInt = 0 ↔ a = 0 := by rw [← BitVec.toInt_inj]; rfl
  have h0 : (0#64).toInt = 0 := rfl
  have hslt : (!a.slt 0#64) = true ↔ 0 ≤ a.toInt := by rw [Bool.not_eq_true', ← Bool.not_eq_true, slt_iff, h0, not_lt]
  have hsgt : (!(0#64).slt a) = true ↔ a.toInt ≤ 0 := by rw [Bool.not_eq_true', ← Bool.not_eq_true, slt_iff, h0, not_lt]
  interval_cases m <;> simp [brcCond, slt_iff, hz, hslt, hsgt]

theorem getLsbD_eq_bitOf {w : Nat} (v : BitVec w) (k : Nat) : bitOf v.toNat k = v.getLsbD k := by
  rw [bitOf, BitVec.getLsbD, Nat.testBit_eq_decide_div_mod_eq, Bool.beq_eq_decide_eq]

/-- Settles O15: each instruction is one act on the state as it stands, and what its condition decides is which act. -/
theorem controlResults : Obligations.ControlResults := by
  unfold Obligations.ControlResults
  rintro x i s c target rfl rfl
  refine ⟨fun h => retires_pekenReg h rfl rfl rfl rfl, fun h => retires_pekenReg h rfl rfl rfl rfl, fun h => ?br, fun h a ha taken htaken => ?brc, fun h => ?call,
    fun h => retires_jump_same h rfl rfl, fun h => ⟨fun hz => ?brnoneTaken, fun hnz => ?brnoneNext⟩, fun h => retires_pekenReg h rfl rfl rfl (Core.setS_pc _ _ _),
    fun h => ⟨fun hall => ?wait, fun hsome => ?waitHold⟩, fun h => ⟨fun hall => ?waita, fun hsome => ?waitaHold⟩, fun h => exec_fault h rfl rfl⟩
  case br =>
    rw [← brTarget_mod]
    exact retires_jump_same h rfl rfl
  case brc =>
    have hmod : i.mod.val ≤ 5 := by
      simp only [State.issues, Form.bad, Bool.and_eq_true, Bool.not_eq_true', Bool.or_eq_false_iff] at h
      simp at h
      omega
    subst ha
    rw [← brcCond_iff hmod] at htaken
    refine ⟨fun ht => ?_, fun hn => ?_⟩
    · rw [← brTarget_mod]
      exact retires_jump_same h rfl (if_pos (htaken.1 ht))
    · exact retires_next_same h rfl rfl (if_neg fun e => hn (htaken.2 e))
  case call =>
    rw [← brTarget_mod]
    exact retires_jump h rfl rfl
  case brnoneTaken =>
    rw [← brTarget_mod]
    exact retires_jump_same h rfl (if_pos hz)
  case brnoneNext => exact retires_next_same h rfl rfl (if_neg hnz)
  case wait =>
    refine retires_next_same h rfl rfl (if_pos ?_)
    simp only [List.all_eq_true, List.mem_range, Bool.or_eq_true, Bool.not_eq_true', beq_iff_eq, getLsbD_eq_bitOf]
    intro k hk
    by_cases hb : i.imm.getLsbD k = true
    · exact .inr (hall k hk hb)
    · exact .inl (by simpa using hb)
  case waitHold =>
    obtain ⟨k, hk, hb, ht⟩ := hsome
    refine exec_hold h rfl (if_neg fun hall => ?_)
    have hk' := List.all_eq_true.1 hall k (List.mem_range.2 hk)
    simp [getLsbD_eq_bitOf, hb, ht] at hk'
  case waita =>
    refine retires_next_same h rfl rfl (if_pos ?_)
    simpa [List.all_eq_true] using hall
  case waitaHold =>
    obtain ⟨k, hk, ht⟩ := hsome
    refine exec_hold h rfl (if_neg fun hall => ?_)
    have hk' := List.all_eq_true.1 hall k (List.mem_range.2 hk)
    simp [ht] at hk'

/-! Divergence (07 R166). -/

/-- BRK takes its threads off every IF entry above the innermost LOOP entry. -/
theorem breakStack_of_loop (gone : Dword) (top : List MaskEntry) (e : MaskEntry) (r : List MaskEntry) (htop : ∀ f ∈ top, f.kind = .ifk)
    (he : e.kind = .loopk) : breakStack gone (top ++ e :: r) =
      some ((top.map fun f => { f with outer := f.outer &&& ~~~ gone, taken := f.taken &&& ~~~ gone }) ++ e :: r) := by
  induction top with
  | nil => simp [breakStack, he]
  | cons f top ih =>
    obtain ⟨hf, htop⟩ := List.forall_mem_cons.1 htop
    simp [breakStack, hf, ih htop]

/-- Without a LOOP entry BRK finds no loop. -/
theorem breakStack_of_noLoop (gone : Dword) (st : List MaskEntry) (h : ∀ f ∈ st, f.kind = .ifk) : breakStack gone st = none := by
  induction st with
  | nil => rfl
  | cons f st ih =>
    obtain ⟨hf, hst⟩ := List.forall_mem_cons.1 h
    simp [breakStack, hf, ih hst]

/-- Settles O16: what each instruction does is decided by the depth of the mask stack and its top entry. -/
theorem divergenceResults : Obligations.DivergenceResults := by
  unfold Obligations.DivergenceResults
  rintro x i s c g rfl rfl
  refine ⟨fun h => ⟨fun hroom => ?ifPush, fun hfull => ?ifFull⟩, fun h => ⟨fun e r hst hk hels => ?elseOpen, fun e r hst hk => ?elseShut,
    fun e r hst hk => ?endif, fun e r hst hk => ?endifLoop, fun hst => ⟨?elseEmpty, ?endifEmpty⟩, fun hroom => ?loopPush, fun hfull => ?loopFull⟩,
    fun h => ⟨fun top e r hst htop he => ?brk, fun hst => ?brkNone⟩,
    fun h => ⟨fun e r hst hk hact => ?again, fun e r hst hk hact => ?leave, fun hst => ?endloopFault⟩⟩
  case ifPush => exact retires_next h rfl rfl (if_neg (Nat.not_le.2 hroom)) rfl
  case ifFull => exact exec_fault h rfl (if_pos hfull)
  case elseOpen =>
    obtain ⟨kind, outer, taken, els⟩ := e
    subst hk hels
    exact retires_next h rfl rfl (by simp only [hst, Bool.not_false, and_self, if_true]; rfl) rfl
  case elseShut =>
    have hno : ¬ (e.kind = .ifk ∧ (!e.els) = true) := by
      rintro ⟨hif, hopen⟩
      simp [hif] at hk
      simp [hk] at hopen
    exact exec_fault h rfl (by simp only [hst, if_neg hno]; rfl)
  case endif => exact retires_next h rfl rfl (by simp only [hst, hk, if_true]; rfl) rfl
  case endifLoop => exact exec_fault h rfl (by simp only [hst, hk]; rfl)
  case elseEmpty => exact exec_fault h rfl (by simp only [hst]; rfl)
  case endifEmpty => exact exec_fault h rfl (by simp only [hst]; rfl)
  case loopPush => exact retires_next h rfl rfl (if_neg (Nat.not_le.2 hroom)) rfl
  case loopFull => exact exec_fault h rfl (if_pos hfull)
  case brk =>
    refine retires_next h rfl rfl (by simp only [hst, breakStack_of_loop _ top e r htop he]; rfl) ?_
    rfl
  case brkNone => exact exec_fault h rfl (by simp only [breakStack_of_noLoop _ _ hst]; rfl)
  case again =>
    rw [← brTarget_mod]
    exact retires_jump_same h rfl (by simp only [hst, hk, if_true, if_pos hact])
  case leave => exact retires_next h rfl rfl (by simp only [hst, hk, if_true, if_neg (not_not_intro hact)]; rfl) rfl
  case endloopFault =>
    obtain hst | ⟨e, r, hst, hk⟩ := hst
    · exact exec_fault h rfl (by simp only [hst]; rfl)
    · exact exec_fault h rfl (by simp only [hst, hk]; rfl)

end Sys2Proof.Machine
end

section
/-! What the accesses of a core leave (07 R159, R160): bytes of a number, and the parts of the state that reads and writes keep. -/
namespace Sys2Proof.Machine

/-! Bytes of a number. -/

@[simp] theorem length_leBytes (n v : Nat) : (leBytes n v).length = n := by
  induction n generalizing v with
  | zero => rfl
  | succ n ih => rw [leBytes, List.length_cons, ih]

theorem getElem_leBytes (n v k : Nat) (h : k < (leBytes n v).length) : (leBytes n v)[k] = BitVec.ofNat 8 (v / 256 ^ k) := by
  induction n generalizing v k with
  | zero => simp [leBytes] at h
  | succ n ih =>
    cases k with
    | zero => simp [leBytes]
    | succ k =>
      simp only [leBytes, List.getElem_cons_succ]
      rw [ih, Nat.div_div_eq_div_mul, Nat.pow_succ']

@[simp] theorem length_rdN (m : Mem) (a n : Nat) : (m.rdN a n).length = n := by simp [Mem.rdN]

/-- The bytes of a number after they are stored. -/
theorem Mem.rd_wr_leBytes (m : Mem) (a n v : Nat) (ep : Bool) {k : Nat} (h : k < n) :
    (m.wr a (leBytes n v) ep).rd (a + k) = BitVec.ofNat 8 (v / 256 ^ k) := by
  rw [Mem.rd_wr, dif_pos (by rw [length_leBytes]; omega), getElem_leBytes, Nat.add_sub_cancel_left]

/-! Reads. -/

@[simp] theorem State.countRemote_same (s : State) (x : Nat) : s.countRemote x x = s := if_pos rfl

/-- Counting an access to another core's stores changes registers alone. -/
theorem State.countRemote_eq (s : State) (x y : Nat) : ∃ r, s.countRemote x y = { s with regs := r } := by
  unfold State.countRemote
  split
  · exact ⟨_, rfl⟩
  · exact ⟨_, rfl⟩

theorem State.placeCount_eq (s : State) (pl : Place) (n : Nat) : ∃ r, s.placeCount pl n = { s with regs := r } := by
  unfold State.placeCount State.sliceReadCount
  split
  · split
    · exact ⟨_, rfl⟩
    · exact ⟨_, rfl⟩
  · exact ⟨_, rfl⟩

theorem State.hmpRead_eq (s : State) (a n : Nat) : ∃ f, (s.hmpRead a n).2.2 = { s with fresh := f } := by
  unfold State.hmpRead
  split
  · exact ⟨_, rfl⟩
  · exact ⟨_, rfl⟩

/-- A read of a core leaves everything but counters, and takes free values. -/
theorem State.memRead_eq (s : State) (x addr n : Nat) : ∃ r f, (s.memRead x addr n).2.2 = { s with regs := r, fresh := f } := by
  have hhmp : ∀ a, ∃ r f, (s.hmpRead a n).2.2 = { s with regs := r, fresh := f } := fun a => by
    obtain ⟨f, hf⟩ := s.hmpRead_eq a n
    exact ⟨_, f, hf⟩
  have hplace : ∀ pl, ∃ r f, s.placeCount pl n = { s with regs := r, fresh := f } := fun pl => by
    obtain ⟨r, hr⟩ := s.placeCount_eq pl n
    exact ⟨r, _, hr⟩
  have hremote : ∀ y, ∃ r f, s.countRemote x y = { s with regs := r, fresh := f } := fun y => by
    obtain ⟨r, hr⟩ := s.countRemote_eq x y
    exact ⟨r, _, hr⟩
  have hsame : ∃ r f, s = { s with regs := r, fresh := f } := ⟨_, _, rfl⟩
  unfold State.memRead
  split
  · exact hremote _
  · exact hremote _
  · exact hplace _
  · exact hplace _
  · split
    · split
      · exact hhmp _
      · exact hsame
    · exact hsame
  · split
    · exact hsame
    · exact hhmp _
  · exact hsame

theorem State.locate_own (s : State) (x : Nat) {addr : Nat} (h : addr < storeTop) : s.locate x addr = .store x addr := if_pos h

theorem State.memRead_own (s : State) (x n : Nat) {addr : Nat} (h : addr < storeTop) :
    s.memRead x addr n = (s.stores.rdN (stoKey x addr) n, s.stores.linePoison (stoKey x addr / 64), s) := by
  simp only [State.memRead, State.locate_own s x h, State.countRemote_same]

theorem State.memWrite_own (s : State) (x : Nat) {addr : Nat} (h : addr < storeTop) (bs : List Byte) (ep : Bool) :
    s.memWrite x addr bs ep = { s with stores := s.stores.wr (stoKey x addr) bs ep } := by
  simp only [State.memWrite, State.locate_own s x h, State.countRemote_same]

/-! Writes. -/

theorem State.sliceWrite_cores (s : State) (x a : Nat) (bs : List Byte) (ep : Bool) : (s.sliceWrite x a bs ep).cores = s.cores := by
  unfold State.sliceWrite
  split
  · rfl
  · split
    · rfl
    · split
      · exact State.countErr_cores _ _ _ _ _
      · rfl

theorem State.placeWrite_cores (s : State) (g : Nat) (pl : Place) (bs : List Byte) (ep : Bool) : (s.placeWrite g pl bs ep).cores = s.cores := by
  unfold State.placeWrite
  split
  · exact State.sliceWrite_cores _ _ _ _ _
  · exact State.countErr_cores _ _ _ _ _
  · rfl

theorem State.kvTouch_cores (s : State) (p o n : Nat) : (s.kvTouch p o n).cores = s.cores := by
  unfold State.kvTouch
  dsimp only
  split
  · rfl
  · rfl

theorem State.vcTouch_cores (s : State) (a : Nat) : (s.vcTouch a).cores = s.cores := by
  unfold State.vcTouch
  split
  · rfl
  · rfl

theorem State.countRemote_cores (s : State) (x y : Nat) : (s.countRemote x y).cores = s.cores := by
  obtain ⟨r, hr⟩ := s.countRemote_eq x y
  rw [hr]

/-- A write of a core leaves the cores' registers. -/
theorem State.memWrite_cores (s : State) (x addr : Nat) (bs : List Byte) (ep : Bool) : (s.memWrite x addr bs ep).cores = s.cores := by
  unfold State.memWrite
  split
  · exact State.countRemote_cores _ _ _
  · exact State.countRemote_cores _ _ _
  · exact State.placeWrite_cores _ _ _ _ _
  · rw [State.kvTouch_cores]
    exact State.placeWrite_cores _ _ _ _ _
  · split
    · split
      · exact State.vcTouch_cores _ _
      · rfl
    · rfl
  · split
    · rfl
    · exact State.vcTouch_cores _ _
  · rfl

theorem State.core_memWrite (s : State) (x addr : Nat) (bs : List Byte) (ep : Bool) (y : Nat) : (s.memWrite x addr bs ep).core y = s.core y := by
  rw [State.core, State.memWrite_cores, State.core]

/-! LDS and STS. -/

/-- Settles O14: the checks of an access, then the read or the write of its bytes. -/
theorem scalarLoadStore : Obligations.ScalarLoadStore := by
  unfold Obligations.ScalarLoadStore
  rintro x i s addr rfl
  refine ⟨fun h n hn => ?_, fun h n hn => ?_⟩
  all_goals subst hn
  · refine ⟨fun code hcode => ?fault, fun hok hheld => ?held, fun hok hgo hclean => ?load, fun hok hgo hbad hjob => ?poison,
      fun hok hgo hown hclean => ?own⟩
    case fault => exact exec_fault h rfl (by simp only [lsAddr, Pk.simm, hcode])
    case held => exact exec_hold h rfl (by simp only [lsAddr, Pk.simm, hok, hheld, if_true])
    case load =>
      obtain ⟨r, f, hr⟩ := s.memRead_eq x ((s.core x).getS i.a + i.imm.signExtend 64).toNat (2 ^ (i.mod.val % 4))
      have hexec := exec_act_next (c := .pkLds x i) h rfl rfl (t := { s with regs := r, fresh := f }.setCore x ((s.core x).setS i.d
        (loadExt (s.memRead x ((s.core x).getS i.a + i.imm.signExtend 64).toNat (2 ^ (i.mod.val % 4))).1 (decide (4 ≤ i.mod.val)))))
        (by simp only [lsAddr, Pk.simm, hok, hgo, hclean, hr, Bool.false_and, Bool.false_eq_true, if_false])
      refine ⟨_, hexec, ?_, fun y hy => ?_, _, _, _, rfl⟩
      · rw [State.core_setCore_self, State.core_setCore_self, Core.stepS, Core.step_eq (Core.setS_pc _ _ _)]
      · rw [State.core_setCore, if_neg hy, State.core_setCore, if_neg hy]
        rfl
    case poison => exact exec_act_poison h rfl (by simp only [lsAddr, Pk.simm, hok, hgo, hbad, hjob, Bool.and_self, Bool.false_eq_true, if_false, if_true])
    case own =>
      refine retires_next h rfl rfl (j := (s.core x).setS i.d _) ?_ (Core.step_eq (Core.setS_pc _ _ _)).symm
      simp only [lsAddr, Pk.simm, hok, hgo, State.memRead_own s x _ hown, hclean, Bool.false_and, Bool.false_eq_true, if_false]
  · refine ⟨fun code hcode => ?fault, fun hok hheld => ?held, fun hok hgo w hw => ?store, fun hok hgo hown => ?own⟩
    case fault => exact exec_fault h rfl (by simp only [lsAddr, Pk.simm, hcode])
    case held => exact exec_hold h rfl (by simp only [lsAddr, Pk.simm, hok, hheld, if_true])
    case store =>
      have hexec := exec_act_next (c := .pkSts x i) (t := w) h rfl rfl
        (by simp only [lsAddr, Pk.simm, hok, hgo, Bool.false_eq_true, if_false, hw])
      have hcore : w.core x = s.core x := by rw [hw, State.core_memWrite]
      rw [hexec, hcore, Core.step]
    case own =>
      have hexec := exec_act_next (c := .pkSts x i) h rfl rfl
        (by simp only [lsAddr, Pk.simm, hok, hgo, Bool.false_eq_true, if_false, State.memWrite_own s x hown]; rfl)
      refine ⟨_, hexec, State.core_setCore_self _ _ _, fun y hy => ?_, rfl, rfl, rfl, fun k hk => Mem.rd_wr_leBytes _ _ _ _ _ hk, fun a ha => ?_⟩
      · rw [State.core_setCore, if_neg hy]
        rfl
      · exact Mem.rd_wr_other _ _ _ _ _ (by rwa [length_leBytes])

end Sys2Proof.Machine
end

section
/-! The per-thread instructions (07 R165, R173, R174, R176): integer, floating point, compares, predicates, cross-lane, VLD and VST. -/
namespace Sys2Proof.Machine

/-! One instruction of the per-thread unit. -/

/-- Counting the issue changes the two registers of the counter. -/
theorem State.fld64_tguCount (s : State) (x : Nat) :
    (s.tguCount x).fld64 (P.tgu x) F.TGU_ISSUE_LO_count F.TGU_ISSUE_HI_count =
      (s.fld64 (P.tgu x) F.TGU_ISSUE_LO_count F.TGU_ISSUE_HI_count + 1) % 2 ^ 64 :=
  State.fld64_setFld64 _ _ (by decide) rfl rfl _

theorem State.sameRegs_tguCount (s : State) (x : Nat) :
    s.sameRegs (s.tguCount x) [fkey (P.tgu x) F.TGU_ISSUE_LO_count, fkey (P.tgu x) F.TGU_ISSUE_HI_count] :=
  ((State.sameRegs.refl s _).setFld (by simp) _).setFld (by simp) _

theorem State.tguCount_eq (s : State) (x : Nat) : ∃ r, s.tguCount x = { s with regs := r } := by
  unfold State.tguCount State.setFld64 State.setFld
  exact ⟨_, rfl⟩

theorem State.core_tguCount (s : State) (x y : Nat) : (s.tguCount x).core y = s.core y := by
  obtain ⟨r, hr⟩ := s.tguCount_eq x
  rw [hr]
  rfl

section Issued
variable {c : Instr} {s : State} {x : Nat} {i : Pk} {f : Form} (h : s.issues x i f = true)
include h

theorem exec_act_next_tgu {body : State → Core → Act} {t : State} (hx : exec c s = .next (s.peken x i f body)) (hf : f.tgu = true)
    (hb : body s (s.core x) = .next t) : exec c s = .next ((t.tguCount x).setCore x { t.core x with pc := pcAdd (s.core x).pc 8 }) := by
  rw [hx, State.peken_next_tgu h hf hb]

/-- An instruction of the per-thread unit that only changes its core's registers. -/
theorem retiresTgu_pekenReg {g : Core → Core} {k : Core} (hx : exec c s = .next (s.pekenReg x i f g)) (hf : f.tgu = true)
    (hk : g (s.core x) = k) (hpc : k.pc = (s.core x).pc) : RetiresTgu c s x k.step := by
  subst hk
  have hcount := State.fld64_tguCount (s.setCore x (g (s.core x))) x
  have hregs := State.sameRegs_tguCount (s.setCore x (g (s.core x))) x
  refine ⟨_, exec_act_next_tgu h hx hf rfl, ?_, fun y hy => ?_, hcount, hregs, ?_⟩
  · rw [State.core_setCore_self, State.core_setCore_self, Core.step_eq hpc]
  · rw [State.core_setCore, if_neg hy]
    rw [State.core_tguCount, State.core_setCore, if_neg hy]
  · obtain ⟨r, hr⟩ := State.tguCount_eq (s.setCore x (g (s.core x))) x
    exact ⟨_, r, by rw [hr]; rfl⟩

/-- One that writes a register of its acting threads. -/
theorem writesV_pekenReg {g : Core → Core} {v w : Nat → Word} (hx : exec c s = .next (s.pekenReg x i f g)) (hf : f.tgu = true)
    (hg : g (s.core x) = (s.core x).mapV i v) (hv : ∀ t, v t = w t) : WritesV c s x i w := by
  obtain rfl : v = w := funext hv
  refine ⟨_, retiresTgu_pekenReg h hx hf hg (Core.mapV_pc _ _ _), ?_, fun r t ht => Core.getV_mapV _ _ _ _ _ ht⟩
  rw [Core.mapV_eq]
  rfl

end Issued

/-! Flags. -/

theorem testBit_foldl_or (l : List Nat) (g : Nat → Nat) (n b : Nat) :
    (l.foldl (fun k t => k ||| g t) n).testBit b = true ↔ n.testBit b = true ∨ ∃ t ∈ l, (g t).testBit b = true := by
  induction l generalizing n with
  | nil => simp
  | cons t l ih => simp [ih, or_assoc]

theorem testBit_flags (m : Dword) (g : Nat → Nat) (n b : Nat) : ((threadsOf m).foldl (fun k t => k ||| g t) n).testBit b = true ↔
    n.testBit b = true ∨ ∃ t, t < 64 ∧ m.getLsbD t = true ∧ (g t).testBit b = true := by
  simp only [testBit_foldl_or, mem_threadsOf, and_assoc]

section Issued
variable {c : Instr} {s : State} {x : Nat} {i : Pk} {f : Form} (h : s.issues x i f = true)
include h

/-- One that writes a register of its acting threads and raises flags. -/
theorem writesF_pekenReg {g : Core → Core} {v w : Nat → Word × Nat} (hx : exec c s = .next (s.pekenReg x i f g)) (hf : f.tgu = true)
    (hg : g (s.core x) = (s.core x).mapF i v) (hv : ∀ t, v t = w t) : WritesF c s x i w := by
  obtain rfl : v = w := funext hv
  refine ⟨_, retiresTgu_pekenReg h hx hf hg (Core.mapF_pc _ _ _), ?_, fun r t ht => ?_, fun b => ?_⟩
  · rw [Core.mapF_v, Core.mapV_eq]
    rfl
  · rw [Core.mapF_v]
    exact Core.getV_mapV _ _ _ _ _ ht
  · rw [Core.mapF_v]
    exact testBit_flags _ (fun t => (v t).2) _ _

end Issued

/-! Integer. -/

theorem writesV_vecI {c : Instr} {s : State} {x : Nat} {i : Pk} (h : s.issues x i formVvv = true) {op : Word → Word → Word} {w : Nat → Word}
    (hx : exec c s = .next (s.vecI x i op)) (hw : ∀ t, op ((s.core x).getV i.a t) ((s.core x).getV i.b t) = w t) : WritesV c s x i w :=
  writesV_pekenReg h hx rfl rfl hw

/-- Settles O17: each form is the shared per-thread shape with its operation. -/
theorem vectorIntegerResults : Obligations.VectorIntegerResults := by
  unfold Obligations.VectorIntegerResults
  rintro x i s c a b rfl ha hb
  obtain rfl : a = fun t => (s.core x).getV i.a t := funext ha
  obtain rfl : b = fun t => (s.core x).getV i.b t := funext hb
  refine ⟨fun h => ?_, fun h => writesV_pekenReg h rfl rfl rfl fun _ => rfl, fun h => writesV_pekenReg h rfl rfl rfl fun _ => rfl⟩
  refine ⟨writesV_vecI h rfl fun _ => rfl, writesV_vecI h rfl fun _ => rfl, writesV_vecI h rfl fun _ => rfl, writesV_vecI h rfl fun _ => rfl,
    writesV_vecI h rfl fun _ => rfl, writesV_vecI h rfl fun _ => rfl, writesV_vecI h rfl fun _ => rfl, writesV_vecI h rfl fun _ => rfl,
    writesV_vecI h rfl fun _ => rfl, writesV_vecI h rfl fun _ => rfl, writesV_vecI h rfl fun t => ?_, writesV_vecI h rfl fun t => ?_,
    writesV_vecI h rfl fun t => ?_, writesV_vecI h rfl fun t => ?_⟩
  all_goals simp only [slt_iff, ult_iff]

/-! Floating point. -/

theorem writesF_vecF2 {c : Instr} {s : State} {x : Nat} {i : Pk} (h : s.issues x i formVvv = true) {op : Nat → Word → Word → Word × Nat}
    {w : Nat → Word × Nat} (hx : exec c s = .next (s.vecF2 x i op))
    (hw : ∀ t, op (s.core x).fpmode ((s.core x).getV i.a t) ((s.core x).getV i.b t) = w t) : WritesF c s x i w :=
  writesF_pekenReg h hx rfl rfl hw

theorem writesF_vecF1 {c : Instr} {s : State} {x : Nat} {i : Pk} {ms : List Nat} (h : s.issues x i { formVv with mods := ms } = true)
    {op : Nat → Word → Word × Nat} {w : Nat → Word × Nat} (hx : exec c s = .next (s.vecF1 x i ms op))
    (hw : ∀ t, op (s.core x).fpmode ((s.core x).getV i.a t) = w t) : WritesF c s x i w :=
  writesF_pekenReg h hx rfl rfl hw

/-- Settles O18: each form is the shared floating-point shape with its operation. -/
theorem vectorFloatResults : Obligations.VectorFloatResults := by
  unfold Obligations.VectorFloatResults
  rintro x i s c a b fm rfl ha hb rfl
  obtain rfl : a = fun t => (s.core x).getV i.a t := funext ha
  obtain rfl : b = fun t => (s.core x).getV i.b t := funext hb
  exact ⟨fun h => ⟨writesF_vecF2 h rfl fun _ => rfl, writesF_vecF2 h rfl fun _ => rfl, writesF_vecF2 h rfl fun _ => rfl,
      writesF_vecF2 h rfl fun _ => rfl, writesF_vecF2 h rfl fun _ => rfl⟩,
    fun h => writesF_pekenReg h rfl rfl rfl fun _ => rfl,
    fun h => ⟨writesF_vecF1 h rfl fun _ => rfl, writesF_vecF1 h rfl fun _ => rfl, writesF_vecF1 h rfl fun _ => rfl,
      writesF_vecF1 h rfl fun _ => rfl⟩,
    fun h => writesV_pekenReg h rfl rfl rfl fun _ => rfl, fun h => writesF_vecF1 h rfl fun _ => rfl, fun h => writesF_vecF1 h rfl fun _ => rfl⟩

end Sys2Proof.Machine
end

section
/-! Compares, predicates and cross-lane instructions (07 R173, R174, R176). -/
namespace Sys2Proof.Machine

/-! Masks. -/

theorem getLsbD_foldl_or_bit (g : Nat → Bool) (l : List Nat) (a : Dword) (t : Nat) (ht : t < 64) :
    (l.foldl (fun (a : Dword) u => if g u then a ||| (1#64 <<< u) else a) a).getLsbD t = (a.getLsbD t || (l.contains t && g t)) := by
  induction l generalizing a with
  | nil => simp
  | cons u l ih =>
    rw [List.foldl_cons, ih, List.contains_cons]
    by_cases hu : u = t
    · subst hu
      cases hg : g u <;> simp [ht]
    · have hbit : (1#64 <<< u).getLsbD t = false := by
        rw [BitVec.getLsbD_shiftLeft, BitVec.getLsbD_one]
        simp
        omega
      have hne : (t == u) = false := by simpa using Ne.symm hu
      cases g u <;> simp [hne, hbit]

theorem getLsbD_maskOf (m : Dword) (f : Nat → Bool) (t : Nat) (ht : t < 64) : (maskOf m f).getLsbD t = (m.getLsbD t && f t) := by
  rw [maskOf, getLsbD_foldl_or_bit _ _ _ _ ht]
  simp [ht]

theorem icmp_iff {m : Nat} (hm : m ∈ [0, 1, 2, 3, 4, 5]) (a b : Word) : icmp m a b = true ↔
    (m = 0 ∧ a = b) ∨ (m = 1 ∧ a ≠ b) ∨ (m = 2 ∧ a.toInt < b.toInt) ∨ (m = 3 ∧ a.toInt ≤ b.toInt) ∨
      (m = 4 ∧ a.toNat < b.toNat) ∨ (m = 5 ∧ a.toNat ≤ b.toNat) := by
  simp only [List.mem_cons, List.not_mem_nil, or_false] at hm
  rcases hm with rfl | rfl | rfl | rfl | rfl | rfl
  all_goals simp [icmp, slt_iff, ult_iff, ← Bool.not_eq_true]

/-- The modifier of an instruction that passes its field checks is one that its form has. -/
theorem Form.mem_mods_of_issues {s : State} {x : Nat} {i : Pk} {f : Form} (h : s.issues x i f = true) : i.mod.val ∈ f.mods := by
  simp only [State.issues, Bool.and_eq_true, Bool.not_eq_true'] at h
  have hgood := h.2
  simp only [Form.bad, Bool.or_eq_false_iff, Bool.not_eq_false'] at hgood
  simpa using hgood.1.1.1.1.1.2

/-! Reductions. -/

/-- The recursion of a running reduction: the largest aligned block that it holds whole joins what stands before it. -/
theorem blockPrefix_succ {α : Type} (f : α → α → α) (z : α) (k n : Nat) (l : List α) (acc : Option α) : blockPrefix f z (k + 1) n l acc =
    if 2 ^ (k + 1) ≤ n then
      if n = 2 ^ (k + 1) then acc.elim (treeFold f z (k + 1) (l.take (2 ^ (k + 1)))) (f · (treeFold f z (k + 1) (l.take (2 ^ (k + 1)))))
      else blockPrefix f z k (n - 2 ^ (k + 1)) (l.drop (2 ^ (k + 1)))
        (some (acc.elim (treeFold f z (k + 1) (l.take (2 ^ (k + 1)))) (f · (treeFold f z (k + 1) (l.take (2 ^ (k + 1)))))))
    else blockPrefix f z k n l acc := by
  cases acc <;> rfl

section Tree
variable {α β : Type} {f : α → α → α} {g : β → β → β} {e : β → α} (he : ∀ a b, f (e a) (e b) = e (g a b))
include he

theorem pairUp_map : ∀ l : List β, pairUp f (l.map e) = (pairUp g l).map e
  | [] => rfl
  | [_] => rfl
  | a :: b :: l => by simp only [List.map_cons, pairUp, he, pairUp_map l]

theorem treeFold_map (n : Nat) (z : β) (l : List β) : treeFold f (e z) n (l.map e) = e (treeFold g z n l) := by
  induction n generalizing l with
  | zero => cases l <;> rfl
  | succ n ih => rw [treeFold, pairUp_map he, ih, treeFold]

theorem blockPrefix_map (k n : Nat) (z : β) (l : List β) (acc : Option β) :
    blockPrefix f (e z) k n (l.map e) (acc.map e) = e (blockPrefix g z k n l acc) := by
  induction k generalizing n l acc with
  | zero => cases acc <;> cases l <;> simp [blockPrefix, he]
  | succ k ih =>
    have hnode : (acc.map e).elim (treeFold f (e z) (k + 1) ((l.map e).take (2 ^ (k + 1)))) (f · (treeFold f (e z) (k + 1) ((l.map e).take (2 ^ (k + 1))))) =
        e (acc.elim (treeFold g z (k + 1) (l.take (2 ^ (k + 1)))) (g · (treeFold g z (k + 1) (l.take (2 ^ (k + 1)))))) := by
      rw [← List.map_take, treeFold_map he]
      cases acc
      · rfl
      · exact he _ _
    rw [blockPrefix_succ, blockPrefix_succ, hnode, ← List.map_drop]
    split
    · split
      · rfl
      · exact ih _ _ (some _)
    · exact ih _ _ _

end Tree

theorem sum_pairUp : ∀ l : List Nat, (pairUp (· + ·) l).sum = l.sum
  | [] => rfl
  | [_] => rfl
  | a :: b :: l => by simp only [pairUp, List.sum_cons, sum_pairUp l]; omega

theorem length_pairUp : ∀ l : List Nat, (pairUp (· + ·) l).length = (l.length + 1) / 2
  | [] => rfl
  | [_] => by simp [pairUp]
  | a :: b :: l => by simp only [pairUp, List.length_cons, length_pairUp l]; omega

theorem treeFold_add (n : Nat) (l : List Nat) (h : l.length ≤ 2 ^ n) : treeFold (· + ·) 0 n l = l.sum := by
  induction n generalizing l with
  | zero =>
    match l, h with
    | [], _ => rfl
    | [a], _ => simp [treeFold]
  | succ n ih =>
    rw [treeFold, ih, sum_pairUp]
    rw [length_pairUp]
    omega

theorem blockPrefix_add (k n : Nat) (l : List Nat) (acc : Option Nat) (h0 : 0 < n) (hn : n < 2 ^ (k + 1)) :
    blockPrefix (· + ·) 0 k n l acc = acc.getD 0 + (l.take n).sum := by
  induction k generalizing n l acc with
  | zero =>
    obtain rfl : n = 1 := by omega
    cases acc <;> cases l <;> simp [blockPrefix]
  | succ k ih =>
    have hnode : acc.elim (treeFold (· + ·) 0 (k + 1) (l.take (2 ^ (k + 1)))) (· + treeFold (· + ·) 0 (k + 1) (l.take (2 ^ (k + 1)))) =
        acc.getD 0 + (l.take (2 ^ (k + 1))).sum := by
      rw [treeFold_add _ _ (by simp)]
      cases acc <;> simp
    rw [blockPrefix_succ, hnode]
    split
    case isTrue hle =>
      split
      case isTrue heq => rw [heq]
      case isFalse hne =>
        have htake : l.take n = l.take (2 ^ (k + 1)) ++ (l.drop (2 ^ (k + 1))).take (n - 2 ^ (k + 1)) := by
          rw [← List.take_add]
          congr 1
          omega
        rw [ih _ _ _ (by omega) (by omega), Option.getD_some, Nat.add_assoc, htake, List.sum_append]
    case isFalse hgt => exact ih _ _ _ h0 (by omega)

theorem sum_map_ite_zero (p : Nat → Bool) (g : Nat → Nat) (l : List Nat) :
    (l.map fun t => if p t = true then g t else 0).sum = ((l.filter p).map g).sum := by
  induction l with
  | nil => rfl
  | cons t l ih => cases hp : p t <;> simp [hp, ih]

/-- A sum as an integer reduction carries it. -/
def sumLeaf (n : Nat) : Word × Nat := (BitVec.ofNat 32 n, 0)

theorem withFlags_sumLeaf (fm a b : Nat) : withFlags (redOp fm 0) (sumLeaf a) (sumLeaf b) = sumLeaf (a + b) := by
  simp [withFlags, redOp, sumLeaf, BitVec.ofNat_add]

theorem redLeaves_sum {c : Core} {i : Pk} (hm : i.mod.val = 0) : redLeaves c i =
    ((List.range 64).map fun t => if (c.acting i).getLsbD t = true then (c.getV i.a t).toNat else 0).map sumLeaf := by
  rw [redLeaves, List.map_map]
  refine List.map_congr_left fun t _ => ?_
  simp only [Function.comp, sumLeaf, hm, redIdentity]
  split <;> simp

/-- An integer reduction adds what the acting threads hold. -/
theorem treeFold_redLeaves {c : Core} {i : Pk} (hm : i.mod.val = 0) (fm : Nat) :
    treeFold (withFlags (redOp fm i.mod.val)) (0, 0) 6 (redLeaves c i) =
      (BitVec.ofNat 32 ((threadsOf (c.acting i)).map fun t => (c.getV i.a t).toNat).sum, 0) := by
  rw [redLeaves_sum hm, hm]
  refine (treeFold_map (withFlags_sumLeaf fm) 6 0 _).trans ?_
  rw [treeFold_add _ _ (by simp), sum_map_ite_zero]
  rfl

/-- An integer running sum adds what the acting threads up to `t` hold. -/
theorem blockPrefix_redLeaves {c : Core} {i : Pk} (hm : i.mod.val = 0) (fm : Nat) {t : Nat} (ht : t < 64) :
    blockPrefix (withFlags (redOp fm i.mod.val)) (0, 0) 6 (t + 1) (redLeaves c i) none =
      (BitVec.ofNat 32 (((threadsOf (c.acting i)).filter (· ≤ t)).map fun u => (c.getV i.a u).toNat).sum, 0) := by
  have htake : (List.range 64).take (t + 1) = (List.range 64).filter (· ≤ t) := by
    rw [List.take_range, Nat.min_eq_left (by omega)]
    have hsplit : List.range 64 = List.range (t + 1) ++ (List.range (63 - t)).map (t + 1 + ·) := by
      rw [← List.range_add]
      congr 1
      omega
    rw [hsplit, List.filter_append, List.filter_eq_self.2 (fun a ha => by have := List.mem_range.1 ha; simp; omega),
      List.filter_eq_nil_iff.2 (fun a ha => by obtain ⟨b, _, rfl⟩ := List.mem_map.1 ha; simp; omega), List.append_nil]
  rw [redLeaves_sum hm, hm]
  refine (blockPrefix_map (withFlags_sumLeaf fm) 6 (t + 1) 0 _ none).trans ?_
  rw [blockPrefix_add _ _ _ _ (by omega) (by omega), ← List.map_take, htake, sum_map_ite_zero, threadsOf, List.filter_filter, List.filter_filter]
  simp only [Option.getD_none, Nat.zero_add, sumLeaf, Bool.and_comm]

/-- Values matter at the threads alone. -/
theorem WritesF.congr {c : Instr} {s : State} {x : Nat} {i : Pk} {v w : Nat → Word × Nat} (h : WritesF c s x i v) (hv : ∀ t, t < 64 → v t = w t) :
    WritesF c s x i w := by
  obtain ⟨k, hret, hk, hval, hflag⟩ := h
  refine ⟨k, hret, hk, fun r t ht => ?_, fun b => ?_⟩
  · rw [hval r t ht, hv t ht]
  · rw [hflag b]
    exact or_congr_right (exists_congr fun t => and_congr_right fun ht => by rw [hv t ht])

/-- Settles O19: the predicate forms, then the cross-lane forms. -/
theorem predicateAndCrossLane : Obligations.PredicateAndCrossLane := by
  unfold Obligations.PredicateAndCrossLane
  refine ⟨fun x i s c hc => ?_, fun x i s c hc => ?_⟩
  all_goals subst hc
  · refine ⟨fun h a b ha hb => ?vicmp, fun h r hr => ?vfcmp, fun h a b ha hb => ?logic, fun h m hm => ?scalar, fun h => ?ptos⟩
    case vicmp =>
      refine ⟨_, retiresTgu_pekenReg h rfl rfl rfl (Core.setP_pc _ _ _), fun t ht => ?_⟩
      rw [getLsbD_maskOf _ _ _ ht, Bool.and_eq_true, icmp_iff (Form.mem_mods_of_issues h), ← ha, ← hb]
    case vfcmp =>
      refine ⟨maskOf ((s.core x).acting i) fun t => (r t).1, (threadsOf ((s.core x).acting i)).foldl (fun f t => f ||| (r t).2) (s.core x).fpstat,
        retiresTgu_pekenReg (k := { (s.core x).setP i.d (maskOf ((s.core x).acting i) fun t => (r t).1) with
          fpstat := (threadsOf ((s.core x).acting i)).foldl (fun f t => f ||| (r t).2) (s.core x).fpstat }) h rfl rfl ?_ (Core.setP_pc _ _ _),
        fun t ht => ?_, fun k => ?_⟩
      · obtain rfl := funext hr
        rfl
      · rw [getLsbD_maskOf _ _ _ ht, Bool.and_eq_true]
      · exact testBit_flags _ _ _ _
    case logic =>
      subst ha hb
      exact ⟨retires_pekenReg h rfl rfl rfl (Core.setP_pc _ _ _), retires_pekenReg h rfl rfl rfl (Core.setP_pc _ _ _),
        retires_pekenReg h rfl rfl rfl (Core.setP_pc _ _ _), retires_pekenReg h rfl rfl rfl (Core.setP_pc _ _ _)⟩
    case scalar =>
      subst hm
      refine ⟨retires_pekenReg h rfl rfl ?_ (Core.setS_pc _ _ _), retires_pekenReg h rfl rfl rfl (Core.setS_pc _ _ _),
        retires_pekenReg h rfl rfl rfl (Core.setS_pc _ _ _)⟩
      congr 1
      rw [b2d_eq]
      simp
    case ptos => exact retires_pekenReg h rfl rfl rfl (Core.setP_pc _ _ _)
  · refine ⟨fun h => writesV_pekenReg h rfl rfl rfl fun _ => rfl, fun h => writesV_pekenReg h rfl rfl rfl fun _ => rfl,
      fun h => writesV_pekenReg h rfl rfl rfl fun _ => rfl, fun h => retiresTgu_pekenReg h rfl rfl rfl (Core.setS_pc _ _ _),
      fun h => retiresTgu_pekenReg h rfl rfl rfl rfl, fun h r hr => ⟨?_, fun hm => hr.trans (treeFold_redLeaves hm _)⟩, fun h => ?_⟩
    · refine retiresTgu_pekenReg (k := { (s.core x).setS i.d (r.1.setWidth 64) with fpstat := (s.core x).fpstat ||| r.2 }) h rfl rfl ?_
        (Core.setS_pc _ _ _)
      rw [hr]
    · have hscan := writesF_pekenReg (c := .pkVscan x i) h rfl rfl rfl fun _ => rfl
      exact ⟨hscan, fun hm => hscan.congr fun t ht => blockPrefix_redLeaves hm _ ht⟩

end Sys2Proof.Machine
end

section
/-! VLD and VST (07 R160, R176, R189; 13 R322). -/
namespace Sys2Proof.Machine

/-! The lowest thread of a mask. -/

theorem threadsOf_eq_append (m : Dword) {t : Nat} (ht : t < 64) (hm : m.getLsbD t = true) :
    ∃ l, threadsOf m = ((List.range t).filter fun u => m.getLsbD u) ++ t :: l := by
  refine ⟨((List.range (63 - t)).map (t + 1 + ·)).filter fun u => m.getLsbD u, ?_⟩
  have hsplit : List.range 64 = List.range t ++ t :: (List.range (63 - t)).map (t + 1 + ·) := by
    have h64 : 64 = t + 1 + (63 - t) := by omega
    rw [congrArg List.range h64, List.range_add, List.range_succ, List.append_assoc]
    rfl
  rw [threadsOf, hsplit, List.filter_append, List.filter_cons_of_pos hm]

theorem findSome_threadsOf {β : Type} {m : Dword} {f : Nat → Option β} {t : Nat} {b : β} (ht : t < 64) (hm : m.getLsbD t = true)
    (hf : f t = some b) (hlow : ∀ u, u < t → m.getLsbD u = true → f u = none) : (threadsOf m).findSome? f = some b := by
  obtain ⟨l, hl⟩ := threadsOf_eq_append m ht hm
  have hnone : ((List.range t).filter fun u => m.getLsbD u).findSome? f = none := by
    simp only [List.findSome?_eq_none_iff, List.mem_filter, List.mem_range]
    exact fun u hu => hlow u hu.1 hu.2
  rw [hl, List.findSome?_append, hnone, List.findSome?_cons, hf]
  rfl

theorem find_threadsOf {m : Dword} {p : Nat → Bool} {t : Nat} (ht : t < 64) (hm : m.getLsbD t = true) (hp : p t = true)
    (hlow : ∀ u, u < t → m.getLsbD u = true → p u = false) : (threadsOf m).find? p = some t := by
  obtain ⟨l, hl⟩ := threadsOf_eq_append m ht hm
  have hnone : ((List.range t).filter fun u => m.getLsbD u).find? p = none := by
    simp only [List.find?_eq_none, List.mem_filter, List.mem_range, Bool.not_eq_true]
    exact fun u hu => hlow u hu.1 hu.2
  rw [hl, List.find?_append, hnone, List.find?_cons, hp]
  rfl

theorem State.vFault_eq_some {s : State} {x : Nat} {c : Core} {i : Pk} {n : Nat} {w : Bool} {t code : Nat} (ht : t < 64)
    (hm : (c.acting i).getLsbD t = true) (hf : s.accessFault x .vector (vAddr c i t) n n w = some code)
    (hlow : ∀ u, u < t → (c.acting i).getLsbD u = true → s.accessFault x .vector (vAddr c i u) n n w = none) :
    s.vFault x c i n w = some (code, vAddr c i t) :=
  findSome_threadsOf ht hm (by rw [hf]; rfl) fun u hu hmu => by rw [hlow u hu hmu]; rfl

theorem State.vFault_eq_none {s : State} {x : Nat} {c : Core} {i : Pk} {n : Nat} {w : Bool}
    (h : ∀ t, t < 64 → (c.acting i).getLsbD t = true → s.accessFault x .vector (vAddr c i t) n n w = none) : s.vFault x c i n w = none := by
  simp only [State.vFault, List.findSome?_eq_none_iff, mem_threadsOf, Option.map_eq_none_iff]
  exact fun t ht => h t ht.1 ht.2

/-! Counting the lines of other cores. -/

theorem State.locate_congr {s t : State} {x : Nat} (hjob : t.coreJob x = s.coreJob x) (hspare : t.spareOf (x / 8) = s.spareOf (x / 8)) (a : Nat) :
    t.locate x a = s.locate x a := by
  simp only [State.locate, hjob, hspare]

/-- Counted accesses: the state but for counters, with every address where it was. -/
def State.Counted (s : State) (x : Nat) (t : State) : Prop := (∃ r, t = { s with regs := r }) ∧ t.spareOf (x / 8) = s.spareOf (x / 8)

theorem State.Counted.refl (s : State) (x : Nat) : s.Counted x s := ⟨⟨_, rfl⟩, rfl⟩

theorem State.Counted.countRemote {s t : State} {x : Nat} (h : s.Counted x t) (y : Nat) : s.Counted x (t.countRemote x y) := by
  obtain ⟨⟨r, rfl⟩, hspare⟩ := h
  unfold State.countRemote
  split
  · exact ⟨⟨r, rfl⟩, hspare⟩
  · refine ⟨⟨_, rfl⟩, Eq.trans ?_ hspare⟩
    have hvalid : F.CLU_MAP_spare_valid.apart F.STO_REMOTE_lines = true := by decide
    have hphys : F.CLU_MAP_spare_phys.apart F.STO_REMOTE_lines = true := by decide
    simp only [State.spareOf, State.addFld, State.flag_setFld_apart _ _ _ _ hvalid, State.fld_setFld_apart _ _ _ _ hphys]

theorem State.Counted.each {α : Type} {s t : State} {x : Nat} {l : List α} {g : α → State → State} (hg : ∀ a u, s.Counted x u → s.Counted x (g a u))
    (h : s.Counted x t) : s.Counted x (t.each l g) := by
  induction l generalizing t with
  | nil => exact h
  | cons a l ih => exact ih (hg a t h)

theorem State.vRemote_counted (s : State) (x : Nat) (c : Core) (i : Pk) : s.Counted x (s.vRemote x c i) :=
  State.Counted.each (fun _ _ hu => State.Counted.each (fun _ _ hv => hv.countRemote _) hu) (State.Counted.refl s x)

/-! Stores of several threads. -/

/-- The bytes of several writes of `n` bytes, in their order. -/
def Mem.wrs (m : Mem) (l : List Nat) (key : Nat → Nat) (n : Nat) (v : Nat → Nat) : Mem :=
  l.foldl (fun m t => m.wr (key t) (leBytes n (v t)) false) m

theorem Mem.rd_wrs_other (l : List Nat) (key : Nat → Nat) (n : Nat) (v : Nat → Nat) (a : Nat) (h : ∀ t ∈ l, a < key t ∨ key t + n ≤ a) (m : Mem) :
    (m.wrs l key n v).rd a = m.rd a := by
  induction l generalizing m with
  | nil => rfl
  | cons t l ih =>
    refine (ih (fun u hu => h u (List.mem_cons_of_mem _ hu)) _).trans (Mem.rd_wr_other _ _ _ _ _ ?_)
    rw [length_leBytes]
    exact h t (by simp)

theorem Mem.rd_wrs {l : List Nat} {key : Nat → Nat} {n : Nat} {v : Nat → Nat} {u k : Nat} (hu : u ∈ l) (hk : k < n)
    (h : ∀ t ∈ l, t ≠ u → key u + k < key t ∨ key t + n ≤ key u + k) (m : Mem) :
    (m.wrs l key n v).rd (key u + k) = BitVec.ofNat 8 (v u / 256 ^ k) := by
  induction l generalizing m with
  | nil => simp at hu
  | cons t l ih =>
    by_cases hl : u ∈ l
    · exact ih hl (fun t ht => h t (List.mem_cons_of_mem _ ht)) _
    · obtain rfl : u = t := by simpa [hl] using hu
      refine (Mem.rd_wrs_other l key n v _ (fun t ht => h t (List.mem_cons_of_mem _ ht) ?_) _).trans (Mem.rd_wr_leBytes _ _ _ _ _ hk)
      rintro rfl
      exact hl ht

theorem mem_vstOrder (m : Dword) (t : Nat) : t ∈ vstOrder m ↔ t < 64 ∧ m.getLsbD t = true := by
  simp only [vstOrder, List.mem_append, mem_threadsOf, BitVec.getLsbD_and, BitVec.getLsbD_not, Bool.and_eq_true, Bool.not_eq_true']
  by_cases ht : t < 64
  · cases (-1#64 <<< (Config.vstLast % 64 + 1)).getLsbD t <;> simp [ht]
  · simp [ht]

/-- The writes of VST, one thread at a time. -/
theorem State.each_vst {s t : State} {x : Nat} (c : Core) (i : Pk) (n : Nat) (ht : s.Counted x t) (l : List Nat) :
    t.each l (fun u s => { s with stores := s.stores.wr (s.vKey x (vAddr c i u)) (leBytes n (c.getV i.d u).toNat) false }) =
      { t with stores := t.stores.wrs l (fun u => s.vKey x (vAddr c i u)) n fun u => (c.getV i.d u).toNat } := by
  obtain ⟨⟨r, rfl⟩, hspare⟩ := ht
  have hkey : ∀ (b : Mem) (a : Nat), { s with regs := r, stores := b }.vKey x a = s.vKey x a := fun b a => by
    have hloc : { s with regs := r, stores := b }.locate x a = s.locate x a := State.locate_congr (s := s) (x := x) (t := { s with regs := r, stores := b }) rfl hspare a
    unfold State.vKey
    rw [hloc]
  suffices h : ∀ b : Mem, { s with regs := r, stores := b }.each l
      (fun u s => { s with stores := s.stores.wr (s.vKey x (vAddr c i u)) (leBytes n (c.getV i.d u).toNat) false }) =
      { s with regs := r, stores := b.wrs l (fun u => s.vKey x (vAddr c i u)) n fun u => (c.getV i.d u).toNat } from h s.stores
  induction l with
  | nil => exact fun b => rfl
  | cons u l ih =>
    intro b
    rw [State.each_cons, hkey, ih]
    rfl

theorem Core.mapV_step (c : Core) (i : Pk) (f : Nat → Word) : ∃ v, { c.mapV i f with pc := pcAdd c.pc 8 } = { c.step with v := v } :=
  ⟨(c.mapV i f).v, by rw [Core.mapV_eq]; rfl⟩

/-- Settles O20: the lowest faulting thread, then the poison, then the threads' own accesses. -/
theorem vectorLoadStore : Obligations.VectorLoadStore := by
  unfold Obligations.VectorLoadStore
  rintro x i s c addr rfl ha
  obtain rfl : addr = vAddr (s.core x) i := funext ha
  refine ⟨fun h n hn => ⟨fun t code ht hm hcode hlow => ?_, fun hok => ?load, fun hjob hok t ht hm hbad hlow => ?poison⟩,
    fun h n hn => ⟨fun t code ht hm hcode hlow => ?_, fun hok => ?store⟩⟩
  all_goals subst hn
  case refine_1 => exact exec_fault h rfl (by simp only [State.vFault_eq_some ht hm hcode hlow])
  case refine_2 => exact exec_fault h rfl (by simp only [State.vFault_eq_some ht hm hcode hlow])
  case load =>
    have hfault := State.vFault_eq_none fun t ht hm => (hok t ht hm).1
    have hclean : (threadsOf ((s.core x).acting i)).find? (fun t => s.stores.linePoison (s.vKey x (vAddr (s.core x) i t) / 64)) = none := by
      simp only [List.find?_eq_none, mem_threadsOf, Bool.not_eq_true]
      exact fun t ht => (hok t ht.1 ht.2).2
    obtain ⟨⟨r, hr⟩, -⟩ := s.vRemote_counted x (s.core x) i
    have hexec := exec_act_next_tgu (c := .pkVld x i) h rfl rfl (by simp only [hfault, hclean, hr]; rfl)
    obtain ⟨r', hr'⟩ := State.tguCount_eq (({ s with regs := r } : State).setCore x ((s.core x).mapV i fun t =>
      (loadExt (s.stores.rdN (s.vKey x (vAddr (s.core x) i t)) (2 ^ (i.mod.val % 4))) (decide (4 ≤ i.mod.val))).truncate 32)) x
    rw [State.core_setCore_self, hr'] at hexec
    refine ⟨_, hexec, ?_, fun y hy => ?_, fun r u hu => ?_, _, _, rfl⟩
    · rw [State.core_setCore_self]
      exact Core.mapV_step _ _ _
    · rw [State.core_setCore, if_neg hy]
      exact (State.core_setCore _ _ _ _).trans (if_neg hy)
    · rw [State.core_setCore_self]
      exact Core.getV_mapV _ _ _ _ _ hu
  case poison =>
    have hfault := State.vFault_eq_none fun t ht hm => hok t ht hm
    have hfind := find_threadsOf (p := fun t => s.stores.linePoison (s.vKey x (vAddr (s.core x) i t) / 64)) ht hm hbad hlow
    exact exec_act_poison h rfl (by simp only [hfault, hfind, hjob, if_true])
  case store =>
    have hfault := State.vFault_eq_none fun t ht hm => hok t ht hm
    have hexec := exec_act_next_tgu (c := .pkVst x i) h rfl rfl
      (by simp only [hfault]; rw [State.each_vst (s.core x) i _ (s.vRemote_counted x (s.core x) i)])
    obtain ⟨⟨r, hr⟩, -⟩ := s.vRemote_counted x (s.core x) i
    rw [hr] at hexec
    obtain ⟨r', hr'⟩ := State.tguCount_eq { s with regs := r, stores := (s.stores.wrs (vstOrder ((s.core x).acting i))
      (fun u => s.vKey x (vAddr (s.core x) i u)) (2 ^ i.mod.val) fun u => ((s.core x).getV i.d u).toNat) } x
    dsimp only at hexec
    rw [hr'] at hexec
    refine ⟨_, hexec, State.core_setCore_self _ _ _, fun y hy => ?_, rfl, rfl, fun a hout => ?_, fun u k hu hm hk hother => ?_⟩
    · rw [State.core_setCore, if_neg hy]
      rfl
    · refine Mem.rd_wrs_other _ _ _ _ _ (fun t ht => ?_) _
      obtain ⟨ht, hm⟩ := (mem_vstOrder _ _).1 ht
      exact hout t ht hm
    · refine Mem.rd_wrs ((mem_vstOrder _ _).2 ⟨hu, hm⟩) hk (fun t ht hne => ?_) _
      obtain ⟨ht, hm⟩ := (mem_vstOrder _ _).1 ht
      exact hother t ht hne hm

end Sys2Proof.Machine
end

section
/-! Barriers, residency and the end of a rank (07 R161, R164, R177, R184). -/
namespace Sys2Proof.Machine

/-! Barriers. -/

theorem State.coreJob_of_job {s : State} {x k : Nat} (h : (s.core x).job = some k) : s.coreJob x = some (s.job k) := by rw [State.coreJob, h]; rfl
theorem State.coreJob_of_none {s : State} {x : Nat} (h : (s.core x).job = none) : s.coreJob x = none := by rw [State.coreJob, h]; rfl

/-- No barrier is held open by a rank that waits at another. -/
theorem State.barrierOf_eq {s : State} {j : Job} {b : Nat} (h : ∀ y ∈ j.ranks, ∀ b', (s.core y).wait = .barrier b' → b' = b) :
    s.barrierOf j = none ∨ s.barrierOf j = some b := by
  cases hb : s.barrierOf j with
  | none => exact .inl rfl
  | some b' =>
    obtain ⟨y, hy, hw⟩ := List.exists_of_findSome?_eq_some hb
    split at hw
    · next c hc =>
      obtain rfl : c = b' := by simpa using hw
      exact .inr (by rw [h y hy _ hc])
    · simp at hw

theorem State.barrierOf_ne {s : State} {j : Job} {b : Nat} (hex : ∃ y ∈ j.ranks, ∃ b', (s.core y).wait = .barrier b')
    (h : ∀ y ∈ j.ranks, ∀ b', (s.core y).wait = .barrier b' → b' ≠ b) : ∃ b', s.barrierOf j = some b' ∧ b' ≠ b := by
  cases hb : s.barrierOf j with
  | none =>
    obtain ⟨y, hy, b', hw⟩ := hex
    have := List.findSome?_eq_none_iff.1 hb y hy
    simp [hw] at this
  | some b' =>
    obtain ⟨y, hy, hw⟩ := List.exists_of_findSome?_eq_some hb
    split at hw
    · next c hc =>
      obtain rfl : c = b' := by simpa using hw
      exact ⟨_, rfl, h y hy _ hc⟩
    · simp at hw

/-- A rank that still runs holds the barrier. -/
theorem State.barrierRelease_of_run {s : State} {j : Job} {y : Nat} (hy : y ∈ j.ranks) (h : (s.core y).wait = .run) : s.barrierRelease j = s := by
  unfold State.barrierRelease
  refine if_neg fun hall => ?_
  have := List.all_eq_true.1 hall y hy
  simp [h] at this

/-- A rank released from its barrier. -/
def Core.released (c : Core) : Core := match c.wait with
  | .barrier _ => { c with wait := .run, pc := pcAdd c.pc 8 }
  | _ => c

theorem Core.released_of_barrier {c : Core} {b : Nat} (h : c.wait = .barrier b) : c.released = { c.step with wait := .run } := by
  rw [Core.released, h]; rfl
theorem Core.released_of_jend {c : Core} (h : c.wait = .jend) : c.released = c := by rw [Core.released, h]
theorem Core.released_of_ended {c : Core} (h : c.wait = .ended) : c.released = c := by rw [Core.released, h]

/-- The release of one rank. -/
def State.releaseRank (y : Nat) (s : State) : State := match (s.core y).wait with
  | .barrier _ => s.setCore y (s.core y).released
  | _ => s

theorem State.core_releaseRank (s : State) (y z : Nat) : (s.releaseRank y).core z = if z = y then (s.core y).released else s.core z := by
  unfold State.releaseRank
  cases hw : (s.core y).wait
  case barrier b => exact State.core_setCore _ _ _ _
  all_goals
    dsimp only
    split
    · next hz => rw [hz, Core.released, hw]
    · rfl

theorem State.releaseRank_eq (s : State) (y : Nat) : ∃ m, s.releaseRank y = { s with cores := m } := by
  unfold State.releaseRank
  split
  · exact ⟨_, rfl⟩
  · exact ⟨_, rfl⟩

theorem State.each_releaseRank {l : List Nat} (hnd : l.Nodup) (s : State) :
    (∀ y, (s.each l State.releaseRank).core y = if y ∈ l then (s.core y).released else s.core y) ∧
      ∃ m, s.each l State.releaseRank = { s with cores := m } := by
  induction l generalizing s with
  | nil => exact ⟨fun y => by simp, _, rfl⟩
  | cons x l ih =>
    obtain ⟨hx, hl⟩ := List.nodup_cons.1 hnd
    obtain ⟨hcore, m, hm⟩ := ih hl (s.releaseRank x)
    obtain ⟨m', hm'⟩ := s.releaseRank_eq x
    refine ⟨fun y => ?_, m, ?_⟩
    · rw [State.each_cons, hcore, State.core_releaseRank]
      by_cases hy : y = x
      · subst hy
        simp [hx]
      · simp [hy]
    · rw [State.each_cons, hm, hm']

/-- Where no rank runs, every rank at the barrier is released. -/
theorem State.barrierRelease_of_waiting {s : State} {j : Job} (h : ∀ y ∈ j.ranks, (s.core y).wait ≠ .run) :
    s.barrierRelease j = s.each j.ranks State.releaseRank := by
  unfold State.barrierRelease
  rw [if_pos]
  · refine congrArg (s.each j.ranks) (funext fun y => funext fun u => ?_)
    unfold State.releaseRank
    cases hw : (u.core y).wait
    case barrier b => rw [Core.released_of_barrier hw]; rfl
    all_goals rfl
  · refine List.all_eq_true.2 fun y hy => ?_
    have hrun := h y hy
    split
    · contradiction
    · rfl

/-! The end of a rank. -/

theorem State.jobCheck_of_ended {s : State} {k : Nat} (h : ∀ y ∈ (s.job k).ranks, (s.core y).wait = .ended) : s.jobCheck k = s.jobEnd k :=
  if_pos (List.all_eq_true.2 fun y hy => by rw [h y hy]; rfl)

theorem State.jobCheck_of_left {s : State} {k : Nat} (h : ∃ y ∈ (s.job k).ranks, (s.core y).wait ≠ .ended) : s.jobCheck k = s := by
  obtain ⟨y, hy, hw⟩ := h
  exact if_neg fun hall => hw (by simpa using List.all_eq_true.1 hall y hy)

theorem State.wait_of_issues {s : State} {x : Nat} {i : Pk} {f : Form} (h : s.issues x i f = true) : (s.core x).wait = .run := by
  simp only [State.issues, State.executes, Bool.and_eq_true, beq_iff_eq] at h
  exact h.1.1.1.2

/-- A barrier that the last running rank reaches releases every rank that waits at it. -/
theorem completes_barrierRelease {c : Instr} {s : State} {x b : Nat} {j : Job} (hrun : (s.core x).wait = .run) (hx : x ∈ j.ranks)
    (hnd : j.ranks.Nodup) (hwait : ∀ y ∈ j.ranks, y ≠ x → (s.core y).wait ≠ .run)
    (heq : ∀ y ∈ j.ranks, ∀ b', (s.core y).wait = .barrier b' → b' = b)
    (hexec : exec c s = .next ((s.setCore x { s.core x with wait := .barrier b }).barrierRelease j)) :
    Completes c s fun t => t.core x = (s.core x).step ∧
      (∀ y ∈ j.ranks, y ≠ x → t.core y = if (s.core y).wait = .barrier b then { (s.core y).step with wait := .run } else s.core y) ∧
      (∀ y, y ∉ j.ranks → t.core y = s.core y) ∧ ∃ m, t = { s with cores := m } := by
  have hother : ∀ y, y ≠ x → (s.setCore x { s.core x with wait := .barrier b }).core y = s.core y := fun y hy => by
    rw [State.core_setCore, if_neg hy]
  rw [State.barrierRelease_of_waiting fun y hy => by
    by_cases hyx : y = x
    · subst hyx
      rw [State.core_setCore_self]
      simp
    · rw [hother y hyx]
      exact hwait y hy hyx] at hexec
  obtain ⟨hcore, m, hm⟩ := State.each_releaseRank hnd (s.setCore x { s.core x with wait := .barrier b })
  refine ⟨_, hexec, ?_, fun y hy hyx => ?_, fun y hy => ?_, m, hm⟩
  · rw [hcore, if_pos hx, State.core_setCore_self, Core.released_of_barrier rfl, ← hrun]
    rfl
  · rw [hcore, if_pos hy, hother y hyx]
    cases hw : (s.core y).wait with
    | run => exact absurd hw (hwait y hy hyx)
    | barrier b' =>
      obtain rfl := heq y hy b' hw
      rw [if_pos rfl, Core.released_of_barrier hw]
    | jend => rw [Core.released_of_jend hw, if_neg (by simp)]
    | ended => rw [Core.released_of_ended hw, if_neg (by simp)]
  · rw [hcore, if_neg hy, hother y fun h => hy (h ▸ hx)]

section Issued
variable {s : State} {x : Fin 512} {i : Pk}

/-- IDLE outside a job. -/
theorem completes_idle (h : s.issues x i {} = true) (hj : (s.core x).job = none) : Completes (.pkIdle x i) s fun t =>
    t.core x = (s.core x).step ∧ t.coreSt x = 3 ∧ (∀ y : Nat, y ≠ x → t.core y = s.core y) ∧ s.sameRegs t [fkey (P.core x) F.CORE_STS_state] := by
  have hexec := exec_act_next (c := .pkIdle x i) (t := s.setFld (P.core x) F.CORE_STS_state 3) h rfl rfl (by simp only [State.coreJob_of_none hj]; rfl)
  refine ⟨_, hexec, ?_, ?_, fun y hy => ?_, ?_⟩
  · exact State.core_setCore_self _ _ _
  · exact State.fld_setFld_of_lt s (P.core x) (f := F.CORE_STS_state) (v := 3) (by decide)
  · exact (State.core_setCore _ _ _ _).trans (if_neg hy)
  · exact (State.sameRegs.refl s _).setFld (by simp) 3

/-- Giving up a range takes its valid bit. -/
theorem State.rezValid_rezDrop (s : State) (x : Nat) {k : Nat} (hk : k < 8) : (s.rezDrop x k).rezValid x k = false := by
  have hfw : ∀ k < 8, (F.CORE_REZ_OWN_valid k).apart (F.CORE_REZ_OWN_fw k) = true := by decide
  have htn : ∀ k < 8, (F.CORE_REZ_OWN_valid k).apart (F.CORE_REZ_OWN_tenant k) = true := by decide
  have hmodel : ∀ k < 8, (F.CORE_REZ_OWN_valid k).apart (F.CORE_REZ_OWN_model_id k) = true := by decide
  have hlen : ∀ k < 8, (F.CORE_REZ_OWN_valid k).apart (F.CORE_REZ_LEN_len k) = true := by decide
  have hbase : ∀ k < 8, (F.CORE_REZ_OWN_valid k).apart (F.CORE_REZ_BASE_base k) = true := by decide
  rw [State.rezValid, State.rezDrop, State.flag_setFlag_apart _ _ _ (hfw k hk), State.flag_setFld_apart _ _ _ _ (htn k hk),
    State.flag_setFld_apart _ _ _ _ (hmodel k hk), State.flag_setFld_apart _ _ _ _ (hlen k hk), State.flag_setFld_apart _ _ _ _ (hbase k hk),
    State.flag_setFlag_self _ _ Nat.one_pos]

theorem State.core_rezDrop (s : State) (x k y : Nat) : (s.rezDrop x k).core y = s.core y := by simp [State.rezDrop, State.setFlag]

theorem State.jobRange_lt {s : State} {x k : Nat} (h : s.jobRange x = some k) : k < 8 := by
  unfold State.jobRange at h
  split at h
  · exact List.mem_range.1 (List.mem_of_find?_eq_some h)
  · simp at h

/-- REZINV of the range `k` of the job. -/
theorem completes_rezinv (h : s.issues x i {} = true) {k : Nat} (hr : s.jobRange x = some k) : Completes (.pkRezinv x i) s fun t =>
    t.core x = (s.core x).step ∧ t.rezValid x k = false ∧ t.flag (P.core x) F.CORE_STS_rezinv = true ∧ s.sameBytes t := by
  have hexec := exec_act_next (c := .pkRezinv x i) (t := (s.rezDrop x k).setFlag (P.core x) F.CORE_STS_rezinv true) h rfl rfl (by simp only [hr])
  have hapart : ∀ k < 8, (F.CORE_REZ_OWN_valid k).apart F.CORE_STS_rezinv = true := by decide
  refine ⟨_, hexec, ?_, ?_, ?_, ?_⟩
  · rw [State.core_setCore_self, State.setFlag, State.core_setFld, State.core_rezDrop]
    rfl
  · rw [State.rezValid, State.flag, State.fld_setCore, State.fld_setFlag_apart _ _ _ (hapart k (State.jobRange_lt hr))]
    exact State.rezValid_rezDrop s x (State.jobRange_lt hr)
  · rw [State.flag, State.fld_setCore, State.fld_setFlag_self _ _ (by decide)]
    rfl
  · exact State.sameBytes_of_mems (State.setCore_mem _ _ _ (State.setFlag_mem _ _ _ _ (State.rezDrop_mem _ _ _ s.mems_memsOf)))

end Issued

/-! The ends. -/

/-- A rank after JOB_STOP: its queues and tokens gone. -/
def Core.stopped (c : Core) : Core := { c with mxeq := [], movq := [], movAct := [], atuq := [], tok := [], wait := .ended }

section Ends
variable {s : State} {x : Fin 512} {k : Nat} (hj : (s.core x).job = some k)
include hj

theorem exec_rankEnd (e : Nat) : exec (.rankEnd x e) s = .next
    (if (s.core x).wait == .jend && !(s.job k).stopping && (List.range 16).all fun t => (s.core x).getT t == 0 then
      ((s.setCore x { s.core x with wait := .ended }).setJob k { s.job k with energy := (s.job k).energy + e }).jobCheck k
    else s) := by
  show Host.Outcome.next _ = _
  simp only [hj]

theorem exec_rankEnd_of_due (hw : (s.core x).wait = .jend) (hs : (s.job k).stopping = false) (ht : ∀ n, n < 16 → (s.core x).getT n = 0) (e : Nat) :
    exec (.rankEnd x e) s =
      .next (((s.setCore x { s.core x with wait := .ended }).setJob k { s.job k with energy := (s.job k).energy + e }).jobCheck k) := by
  rw [exec_rankEnd hj, if_pos]
  simpa [hw, hs] using ht

theorem exec_rankEnd_of_not_due (h : (s.core x).wait ≠ .jend ∨ (s.job k).stopping = true ∨ ∃ n, n < 16 ∧ (s.core x).getT n ≠ 0) (e : Nat) :
    exec (.rankEnd x e) s = .next s := by
  rw [exec_rankEnd hj, if_neg]
  simp only [Bool.and_eq_true, beq_iff_eq, Bool.not_eq_true', List.all_eq_true, List.mem_range]
  rintro ⟨⟨hw, hs⟩, ht⟩
  rcases h with h | h | ⟨n, hn, h⟩
  · exact h hw
  · simp [hs] at h
  · exact h (ht n hn)

theorem exec_jobStop_of_not_due (h : (s.job k).stopping = false ∨ (s.core x).wait = .ended) : exec (.jobStop x) s = .next s := by
  show Host.Outcome.next _ = _
  simp only [hj]
  rw [if_pos]
  simpa using h

/-- The stop of a rank with nothing in progress. -/
theorem exec_jobStop_of_idle (hs : (s.job k).stopping = true) (hw : (s.core x).wait ≠ .ended) (hmov : (s.core x).movAct = [])
    (hatu : ∀ o q, (s.core x).atuq = o :: q → o.kind ≠ 0 ∨ o.executed = false) : exec (.jobStop x) s = .next
      (((s.setCore x (s.core x).stopped).setFld (P.core x) F.CORE_STS_state 5).jobCheck k) := by
  have hab : s.attnAbandon x = s := by
    unfold State.attnAbandon
    split
    · next o q hq =>
      rw [if_neg]
      rcases hatu o q hq with h | h
      · simp [h]
      · simp [h]
    · rfl
  show Host.Outcome.next _ = _
  simp only [hj, hab, hmov, State.each_nil]
  rw [if_neg (by simp [hs, hw]), Core.stopped, hj]

end Ends

/-- Settles O21: barriers and residency of a running rank, then the ends of a rank. -/
theorem rankResults : Obligations.RankResults := by
  unfold Obligations.RankResults
  refine ⟨?running, ?ending⟩
  case running =>
    rintro x i s c rfl
    refine ⟨fun h => ⟨fun hj => ?_, fun k j b hj hjk hb => ⟨fun hex hne => ?_, fun heq => ⟨fun hrun => ?_, fun hx hnd hwait => ?_⟩⟩⟩,
      fun h => ⟨fun hj => ?_, fun k j hj hjk hex => ?_⟩, fun h => ⟨completes_idle h, fun hj => ?_, fun hr => ?_, fun k hr => completes_rezinv h hr⟩,
      fun h => ⟨fun hr => ?_, fun k hr => ?_⟩⟩
    · exact retires_next_same h rfl rfl (by simp only [State.coreJob_of_none hj])
    · obtain ⟨b', hb', hne'⟩ := State.barrierOf_ne hex hne
      subst hjk hb
      exact exec_fault h rfl (by simp only [State.coreJob_of_job hj, hb', if_neg hne'])
    · obtain ⟨y, hy, hyx, hw⟩ := hrun
      refine retires_block h rfl ?_
      subst hjk hb
      rcases State.barrierOf_eq heq with hn | hn
      all_goals
        simp only [State.coreJob_of_job hj, hn, if_true]
        rw [State.barrierRelease_of_run hy (by rw [State.core_setCore, if_neg hyx, hw])]
    · refine completes_barrierRelease (State.wait_of_issues h) hx hnd hwait heq (exec_act_block h rfl ?_)
      subst hjk hb
      rcases State.barrierOf_eq heq with hn | hn
      all_goals simp only [State.coreJob_of_job hj, hn, if_true]
    · exact exec_fault h rfl (by simp only [State.coreJob_of_none hj])
    · obtain ⟨y, hy, hyx, hw⟩ := hex
      refine retires_block h rfl ?_
      subst hjk
      simp only [State.coreJob_of_job hj]
      rw [State.barrierRelease_of_run hy (by rw [State.core_setCore, if_neg hyx, hw])]
      split <;> rfl
    · obtain ⟨k, hk⟩ := Option.ne_none_iff_exists'.1 hj
      exact exec_fault h rfl (by simp only [State.coreJob_of_job hk]; rfl)
    · exact retires_next_same h rfl rfl (by simp only [hr])
    · exact retires_next h rfl rfl (by simp only [hr]) (Core.step_eq (Core.setS_pc _ _ _)).symm
    · exact retires_next h rfl rfl (by simp only [hr]) (Core.step_eq (Core.setS_pc _ _ _)).symm
  case ending =>
    rintro x e s c k j rfl hj rfl
    refine ⟨fun hw hs ht => ⟨fun hall u hu => ?_, fun hex => ?_⟩, fun h => exec_rankEnd_of_not_due hj h e, fun hs hw hmov hatu hex => ?_,
      fun h => exec_jobStop_of_not_due hj h⟩
    · rw [exec_rankEnd_of_due hj hw hs ht, ← hu, State.jobCheck_of_ended]
      intro y hy
      rw [hu, State.job_setJob_self] at hy
      rw [hu, State.core_setJob, State.core_setCore]
      split
      · rfl
      · next hne => exact (hall y hy).resolve_left hne
    · obtain ⟨y, hy, hne, hwy⟩ := hex
      have hleft := exec_rankEnd_of_due hj hw hs ht e
      rw [State.jobCheck_of_left ⟨y, by rwa [State.job_setJob_self], by rwa [State.core_setJob, State.core_setCore, if_neg hne]⟩] at hleft
      refine ⟨_, hleft, ?_, State.job_setJob_self _ _ _, fun z hz => ?_, State.sameRegs_of_regs rfl _, State.sameBytes_of_eq rfl rfl rfl⟩
      · rw [State.core_setJob, State.core_setCore_self]
      · rw [State.core_setJob, State.core_setCore, if_neg hz]
    · obtain ⟨y, hy, hne, hwy⟩ := hex
      have hleft := exec_jobStop_of_idle hj hs hw hmov hatu
      rw [State.jobCheck_of_left (s := (s.setCore x (s.core x).stopped).setFld (P.core x) F.CORE_STS_state 5)
        ⟨y, hy, by rwa [State.core_setFld, State.core_setCore, if_neg hne]⟩] at hleft
      refine ⟨_, hleft, ?_, State.fld_setFld_of_lt _ _ _ (by decide), fun z hz => ?_, ?_, State.sameBytes_of_eq rfl rfl rfl⟩
      · rw [State.core_setFld, State.core_setCore_self]
        rfl
      · rw [State.core_setFld, State.core_setCore, if_neg hz]
      · exact (State.sameRegs_of_regs rfl _).setFld (by simp) 5

end Sys2Proof.Machine
end

section
/-! Issue to the matrix engine, the mover and the ATU port (07 R167, R170, R172; 08 R202; 10 R253-R257). -/
namespace Sys2Proof.Machine

/-! A place in the queue. -/

section
variable {s : State} {x : Nat} {c : Core} {i : Pk} {queued depth : Nat} {put : Core → Core}

theorem State.issue_next (hq : queued < depth) (ht : c.getT i.token < 255) :
    s.issue x c i queued depth put = .next (s.setCore x (put (c.setT i.token (c.getT i.token + 1)))) := if_neg (by omega)

theorem State.issue_hold (h : depth ≤ queued ∨ 255 ≤ c.getT i.token) : s.issue x c i queued depth put = .hold := if_pos h

end

theorem State.mxGuard_of_open {s : State} {x : Nat} {ops : List (Nat × Nat × Bool)} {ok : Act}
    (h : ∀ o ∈ ops, s.mxProtected x o.1 o.2.1 o.2.2 = false) : s.mxGuard x ops ok = ok := by
  unfold State.mxGuard
  rw [List.find?_eq_none.2 fun o ho => by rw [h o ho]; simp]

section Issued
variable {s : State} {x : Fin 512} {i : Pk} (ht : (s.core x).getT i.token < 255)
include ht

/-! The matrix engine. -/

theorem pkMma_issue {o : MxeOp}
    (h : s.issues x i { d := .s, a := .s, b := .s, c := .s, mods := [0, 1, 2, 3, 4, 5], mod2s := [0, 1, 2, 3, 4, 5], flags := 3, engine := true } = true)
    (ho : o = ⟨0, i.token, (s.core x).pc, ((s.core x).getS i.d).toNat, ((s.core x).getS i.a).toNat, ((s.core x).getS i.b).toNat,
      ((s.core x).getS i.c).toNat, i.mod, i.mod2, i.flags.toNat, (s.core x).sclA, (s.core x).sclB⟩)
    (hq : (s.core x).mxeq.length < 16) :
    (o.mmaOk = false → exec (.pkMma x i) s = .next (s.coreFault x 0x08 0 0 0 (s.core x).pc)) ∧
    (o.mmaOk = true → (∀ r ∈ o.reads, s.mxProtected x r.1 r.2 false = false) →
      Retires (.pkMma x i) s x { (s.core x).issued i with mxeq := (s.core x).mxeq ++ [o] }) := by
  subst ho
  refine ⟨fun hbad => exec_fault h rfl ?_, fun hok hopen => ?_⟩
  · simp only [State.issue_next hq ht, hbad]
    rfl
  · refine retires_next h rfl rfl (j := { (s.core x).setT i.token ((s.core x).getT i.token + 1) with mxeq := (s.core x).mxeq ++ [_] }) ?_ rfl
    simp only [State.issue_next hq ht, hok]
    refine State.mxGuard_of_open fun o ho => ?_
    obtain ⟨r, hr, rfl⟩ := List.mem_map.1 ho
    exact hopen r hr

theorem pkMcvt_issue {o : MxeOp}
    (h : s.issues x i { d := .s, a := .s, b := .s, c := .s, mods := [0, 1, 2, 3, 4, 5, 6], flags := 3, engine := true } = true)
    (ho : o = ⟨2, i.token, (s.core x).pc, ((s.core x).getS i.d).toNat, ((s.core x).getS i.a).toNat, ((s.core x).getS i.b).toNat,
      ((s.core x).getS i.c).toNat, i.mod, 0, i.flags.toNat, 0, 0⟩)
    (hq : (s.core x).mxeq.length < 16) :
    (o.mcvtOk = false → exec (.pkMcvt x i) s = .next (s.coreFault x 0x08 0 0 0 (s.core x).pc)) ∧
    (o.mcvtOk = true → (∀ r ∈ o.mcvtOps, mcvtPlace r.1 r.2.1 r.2.2.2 = none ∧ s.mxProtected x r.1 r.2.1 r.2.2.1 = false) →
      Retires (.pkMcvt x i) s x { (s.core x).issued i with mxeq := (s.core x).mxeq ++ [o] }) := by
  subst ho
  refine ⟨fun hbad => exec_fault h rfl ?_, fun hok hopen => ?_⟩
  · simp only [State.issue_next hq ht, hbad]
    rfl
  · refine retires_next h rfl rfl (j := { (s.core x).setT i.token ((s.core x).getT i.token + 1) with mxeq := (s.core x).mxeq ++ [_] }) ?_ rfl
    have hplace := List.findSome?_eq_none_iff.2 fun r hr => Option.map_eq_none_iff (f := fun e => (e, r.1)).2 (hopen r hr).1
    simp only [State.issue_next hq ht, hok]
    rw [hplace]
    refine State.mxGuard_of_open fun o ho => ?_
    obtain ⟨r, hr, rfl⟩ := List.mem_map.1 ho
    exact (hopen r hr).2

/-! The mover and the ATU port. -/

/-- An instruction of the mover with a descriptor that passes its checks. -/
theorem movDesc_issue {c : Instr} {kind : Nat} {ok : List Byte → Bool} (hx : exec c s = .next (s.movDesc x i kind ok))
    (h : s.issues x i { a := .s, flags := 1, engine := true } = true) (hq : (s.core x).movq.length < 32)
    (htop : ((s.core x).getS i.a).toNat + 64 ≤ storeTop) (hopen : s.storeProtected x ((s.core x).getS i.a).toNat 64 false = false)
    (hclean : (s.stores.poisoned (stoKey x ((s.core x).getS i.a).toNat) 64 && (s.core x).job.isSome) = false) :
    (ok (s.stores.rdN (stoKey x ((s.core x).getS i.a).toNat) 64) = true → Retires c s x { (s.core x).issued i with movq := (s.core x).movq ++
      [⟨kind, i.token, (s.core x).pc, 0, ((s.core x).getS i.a).toNat, 0, 0, s.stores.rdN (stoKey x ((s.core x).getS i.a).toNat) 64, i.flags.toNat⟩] }) ∧
    (ok (s.stores.rdN (stoKey x ((s.core x).getS i.a).toNat) 64) = false → exec c s = .next (s.coreFault x 0x08 0 0 0 (s.core x).pc)) := by
  refine ⟨fun hok => ?_, fun hbad => exec_fault h hx ?_⟩
  · refine retires_next h hx rfl (j := { (s.core x).setT i.token ((s.core x).getT i.token + 1) with movq := (s.core x).movq ++ [_] }) ?_ rfl
    simp only [State.movIssue, State.issue_next hq ht, if_neg (Nat.not_lt.2 htop), hopen, hclean, hok]
    rfl
  · simp only [State.movIssue, State.issue_next hq ht, if_neg (Nat.not_lt.2 htop), hopen, hclean, hbad]
    rfl

/-- An instruction of the ATU port with a block that passes its checks, and one whose block is refused. -/
theorem atuIssue_issue {c : Instr} {kind len : Nat} {ok : List Byte → Nat → Bool} (hx : exec c s = .next (s.atuIssue x i kind len ok))
    (h : s.issues x i { d := if kind = 0 then .v else .s, a := .s, b := .v, c := .v, engine := true } = true)
    (hq : (s.core x).atuq.length < 8) (hb : i.b = 0) (hc : i.c = 0) (hd : kind = 0 → i.d = 0)
    (htop : ((s.core x).getS i.a).toNat + len ≤ storeTop) (hopen : s.storeProtected x ((s.core x).getS i.a).toNat len false = false)
    (hclean : (s.stores.poisoned (stoKey x ((s.core x).getS i.a).toNat) len && (s.core x).job.isSome) = false) :
    (ok (s.stores.rdN (stoKey x ((s.core x).getS i.a).toNat) len) ((s.core x).getS i.d).toNat = true →
      Retires c s x { (s.core x).issued i with atuq := (s.core x).atuq ++ [⟨kind, i.token, (s.core x).pc,
        s.stores.rdN (stoKey x ((s.core x).getS i.a).toNat) len, if kind = 0 then 0 else ((s.core x).getS i.d).toNat, false⟩] }) ∧
    (ok (s.stores.rdN (stoKey x ((s.core x).getS i.a).toNat) len) ((s.core x).getS i.d).toNat = false →
      exec c s = .next (s.coreFault x 0x08 0 0 0 (s.core x).pc)) := by
  have hfields : (i.b != 0 || i.c != 0 || (kind == 0 && i.d != 0)) = false := by
    by_cases hk : kind = 0
    · simp [hb, hc, hd hk]
    · simp [hb, hc, hk]
  refine ⟨fun hok => ?_, fun hbad => exec_fault h hx ?_⟩
  · refine retires_next h hx rfl (j := { (s.core x).setT i.token ((s.core x).getT i.token + 1) with atuq := (s.core x).atuq ++ [_] }) ?_ rfl
    simp only [State.issue_next hq ht, hfields, if_neg (Nat.not_lt.2 htop), hopen, hclean, hok]
    rfl
  · simp only [State.issue_next hq ht, hfields, if_neg (Nat.not_lt.2 htop), hopen, hclean, hbad]
    rfl

end Issued

/-- Settles O22: each issue takes its place in the queue, once its engine's checks pass. -/
theorem engineIssue : Obligations.EngineIssue := by
  unfold Obligations.EngineIssue
  refine ⟨?issued, ?held⟩
  case issued =>
    rintro x i s c sd sa sb sc rfl rfl rfl rfl rfl ht
    refine ⟨fun h o ho hq => pkMma_issue ht h ho hq, fun h hq => ?_, fun h o ho hq => pkMcvt_issue ht h ho hq, fun h hq => ⟨fun hlen => ?_, fun hlen => ?_⟩,
      fun h hq => ?_, fun h hq d hd htop hopen hclean => ?_, fun hq hb hc => ⟨fun h b hblk hd htop hopen hclean => ?_,
        fun h hopen64 hopen32 hclean64 hclean32 => ⟨fun b hblk htop hok hrec => ?_, fun b hblk htop hok hrec => ?_⟩⟩⟩
    · exact retires_next h rfl rfl (j := { (s.core x).setT i.token ((s.core x).getT i.token + 1) with
        mxeq := (s.core x).mxeq ++ [_], sclA := _, sclB := _ }) (State.issue_next hq ht) rfl
    · refine retires_next h rfl rfl (j := { (s.core x).setT i.token ((s.core x).getT i.token + 1) with movq := (s.core x).movq ++ [_] }) ?_ rfl
      simp only [State.movIssue, State.issue_next hq ht, if_neg (Nat.not_lt.2 hlen)]
      rfl
    · refine exec_fault h rfl ?_
      simp only [State.movIssue, State.issue_next hq ht, if_pos hlen]
      rfl
    · exact retires_next h rfl rfl (j := { (s.core x).setT i.token ((s.core x).getT i.token + 1) with movq := (s.core x).movq ++ [_] })
        (State.issue_next hq ht) rfl
    · subst hd
      have hdesc := fun {c : Instr} {kind : Nat} {ok : List Byte → Bool} (hx : exec c s = .next (s.movDesc x i kind ok)) =>
        movDesc_issue ht hx h hq htop hopen hclean
      exact ⟨(hdesc rfl).1, (hdesc rfl).1, (hdesc rfl).1, (hdesc rfl).1, (hdesc rfl).2⟩
    · subst hblk
      exact atuIssue_issue (kind := 0) (len := 64) (ok := fun b _ => attnOk b) ht rfl h hq hb hc (fun _ => hd) htop hopen hclean
    · subst hblk
      refine (atuIssue_issue (kind := 1) (len := 64) (ok := fun b r => kvappOk b && recOk r 16) ht rfl h hq hb hc (by simp) htop hopen64 hclean64).1 ?_
      simp [hok, hrec]
    · subst hblk
      refine (atuIssue_issue (kind := 2) (len := 32) (ok := fun b r => kvopOk b && recOk r (if dNum b 0 1 = 7 then 48 else 16)) ht rfl h hq hb hc
        (by simp) htop hopen32 hclean32).1 ?_
      simp [hok, hrec]
  case held =>
    rintro x i s c rfl
    refine ⟨fun h hfull => exec_hold h rfl ?_, fun h hfull => exec_hold h rfl ?_, fun h hfull => exec_hold h rfl ?_,
      fun h hfull => exec_hold (body := _) h (rfl : _ = Host.Outcome.next (s.atuIssue x i 0 64 fun b _ => attnOk b)) ?_⟩
    · exact State.issue_hold hfull
    · simp only [State.issue_hold hfull]
    · simp only [State.movIssue, State.issue_hold hfull]
    · simp only [State.issue_hold hfull]

end Sys2Proof.Machine
end

section
/-! Completion of engine operations (07 R167, R171, R172; 08 R202-R206; 02 R37). -/
namespace Sys2Proof.Machine

/-! The matrix engine. -/

theorem State.mmaC_congr {s t : State} (h : t.stores = s.stores) (x : Nat) (o : MxeOp) : t.mmaC x o = s.mmaC x o := by
  unfold State.mmaC State.mxOut State.mxBlock State.mxCode
  simp only [h]

theorem State.mcvtIn_congr {s t : State} (h : t.stores = s.stores) (x : Nat) (o : MxeOp) (e : Nat) : t.mcvtIn x o e = s.mcvtIn x o e := by
  unfold State.mcvtIn
  rw [h]

theorem State.tokenFall_of_core {s : State} {x : Nat} {k : Core} (h : s.core x = k) (t : Nat) :
    s.tokenFall x t = s.setCore x (k.setT t (k.getT t - 1)) := by rw [State.tokenFall, h]

section Running
variable {x : Fin 512} {s : State} (hrun : s.enginesRun x = true)
include hrun

/-- The operation at the head of the queue, with no poison in what it reads. -/
theorem exec_mxeOpComplete {o : MxeOp} {q : List MxeOp} (hq : (s.core x).mxeq = o :: q)
    (hclean : ∀ r ∈ o.sources, s.stores.firstPoison (stoKey x r.1) r.2 = none) :
    exec (.mxeOpComplete x) s = .next (((s.setCore x { s.core x with mxeq := q }).mxeEffect x o).tokenFall x o.token) := by
  show Host.Outcome.next _ = _
  simp only [hrun, hq, Bool.not_true, Bool.false_eq_true, if_false, List.findSome?_eq_none_iff.2 hclean]

theorem exec_mxeOpComplete_of_nil (hq : (s.core x).mxeq = []) : exec (.mxeOpComplete x) s = .next s := by
  show Host.Outcome.next _ = _
  simp only [hrun, hq, Bool.not_true, Bool.false_eq_true, if_false]

/-- What the completion of an MMA leaves. -/
theorem completes_mma {o : MxeOp} {q : List MxeOp} (hq : (s.core x).mxeq = o :: q)
    (hclean : ∀ r ∈ o.sources, s.stores.firstPoison (stoKey x r.1) r.2 = none) (hkind : o.kind = 0) : Completes (.mxeOpComplete x) s fun t =>
    t.core x = { s.core x with mxeq := q }.setT o.token ((s.core x).getT o.token - 1) ∧ (∀ y : Nat, y ≠ x → t.core y = s.core y) ∧
      t.stores = s.stores.wr (stoKey x o.sd) (s.mmaC x o) false ∧ t.hmp = s.hmp ∧ t.slices = s.slices ∧
      s.sameRegs t [fkey (P.mxe x) F.MXE_BUSY_LO_cycles, fkey (P.mxe x) F.MXE_BUSY_HI_cycles] := by
  have hexec := exec_mxeOpComplete hrun hq hclean
  simp only [State.mxeEffect, hkind, State.ownWrite, State.setFld64, State.setCore_stores, State.mmaC_congr (s := s) (t := s.setCore x _) rfl] at hexec
  have hcore : ∀ (u : State) (b : Mem) (v w y : Nat), (({ u with stores := b }.setFld (P.mxe x) F.MXE_BUSY_LO_cycles v).setFld (P.mxe x)
      F.MXE_BUSY_HI_cycles w).core y = u.core y := fun _ _ _ _ _ => rfl
  rw [State.tokenFall_of_core (by rw [hcore, State.core_setCore_self])] at hexec
  refine ⟨_, hexec, State.core_setCore_self _ _ _, fun y hy => ?_, rfl, rfl, rfl, ?_⟩
  · rw [State.core_setCore, if_neg hy, hcore, State.core_setCore, if_neg hy]
  · exact ((State.sameRegs_of_regs rfl _).setFld (by simp) _).setFld (by simp) _

theorem completes_mscl {o : MxeOp} {q : List MxeOp} (hq : (s.core x).mxeq = o :: q)
    (hclean : ∀ r ∈ o.sources, s.stores.firstPoison (stoKey x r.1) r.2 = none) (hkind : o.kind = 1) : Completes (.mxeOpComplete x) s fun t =>
    t.core x = { s.core x with mxeq := q }.setT o.token ((s.core x).getT o.token - 1) ∧ (∀ y : Nat, y ≠ x → t.core y = s.core y) ∧
      ∃ m, t = { s with cores := m } := by
  have hexec := exec_mxeOpComplete hrun hq hclean
  simp only [State.mxeEffect, hkind] at hexec
  rw [State.tokenFall_of_core (State.core_setCore_self _ _ _)] at hexec
  refine ⟨_, hexec, State.core_setCore_self _ _ _, fun y hy => ?_, _, rfl⟩
  rw [State.core_setCore, if_neg hy, State.core_setCore, if_neg hy]

theorem completes_mcvt {o : MxeOp} {q : List MxeOp} (hq : (s.core x).mxeq = o :: q)
    (hclean : ∀ r ∈ o.sources, s.stores.firstPoison (stoKey x r.1) r.2 = none) (hkind : o.kind = 2) (hscale : bitOf o.flags 0 = false) :
    Completes (.mxeOpComplete x) s fun t =>
      t.core x = { s.core x with mxeq := q }.setT o.token ((s.core x).getT o.token - 1) ∧ (∀ y : Nat, y ≠ x → t.core y = s.core y) ∧
      t.stores = s.stores.wr (stoKey x o.sd)
        (mxPack o.fmtA ((List.range (shM o.shape * shN o.shape)).map fun e => mxStore o.fmtA (bitOf o.flags 1) (s.mcvtIn x o e))) false ∧
      ∃ m b, t = { s with cores := m, stores := b } := by
  have hexec := exec_mxeOpComplete hrun hq hclean
  simp only [State.mxeEffect, hkind, hscale, State.ownWrite, State.mcvtCode, State.mcvtIn_congr (s := s) (t := s.setCore x _) rfl,
    Bool.false_eq_true, if_false, State.setCore_stores] at hexec
  have hcore : ∀ (u : State) (b : Mem) (y : Nat), { u with stores := b }.core y = u.core y := fun _ _ _ => rfl
  rw [State.tokenFall_of_core (by rw [hcore, State.core_setCore_self])] at hexec
  refine ⟨_, hexec, State.core_setCore_self _ _ _, fun y hy => ?_, rfl, _, _, rfl⟩
  rw [State.core_setCore, if_neg hy, hcore, State.core_setCore, if_neg hy]

/-! The mover's start. -/

theorem exec_moverOpStart {o : MovOp} {q : List MovOp} (hlen : (s.core x).movAct.length < 4) (hq : (s.core x).movq = o :: q) :
    exec (.moverOpStart x) s = .next
      (if bitOf o.flags 0 && !(s.core x).movAct.isEmpty then s
       else if (List.range 8).any (fun u => s.routeHeld (x.val / 64) u && s.movTouches x o u) then s
       else s.setCore x { s.core x with movq := q, movAct := (s.core x).movAct ++ [o] }) := by
  show Host.Outcome.next _ = _
  have hfree : decide (4 ≤ (s.core x).movAct.length) = false := by simpa using hlen
  simp only [hrun, hfree, hq, Bool.not_true, Bool.or_self, Bool.false_eq_true, if_false]

end Running

theorem exec_moverOpStart_of_full {x : Fin 512} {s : State} (hlen : 4 ≤ (s.core x).movAct.length) : exec (.moverOpStart x) s = .next s := by
  show Host.Outcome.next _ = _
  rw [if_pos (by simp [hlen])]

/-! One line of a copy. -/

theorem segs_of_one_line {a n : Nat} (hn : 0 < n) (h : a % 64 + n ≤ 64) : segs 64 a n = [(a, n)] := by
  have hlast : (a + n - 1) / 64 - a / 64 + 1 = 1 := by omega
  have hlo : max a ((a / 64 + 0) * 64) = a := by omega
  have hlen : min (a + n) ((a / 64 + 0 + 1) * 64) - a = n := by omega
  rw [segs, if_neg (by omega), hlast]
  simp only [List.range_one, List.map_cons, List.map_nil, hlo, hlen]

/-- Accesses to a core's own stores fault on protection alone. -/
theorem State.movFault_own (s : State) (x : Nat) {a n : Nat} (hn : 0 < n) (htop : a + n ≤ storeTop) (w : Bool) :
    s.movFault x a n 1 w = if s.storeProtected x a n w then some (0x05, 0) else none := by
  have hlo : s.locate x a = .store x a := State.locate_own s x (by omega)
  have hhi : s.locate x (a + n - 1) = .store x (a + n - 1) := State.locate_own s x (by omega)
  have hplace : s.placeOf x a = .unmapped := by rw [State.placeOf, hlo]
  unfold State.movFault State.accessFault
  simp only [State.mapped, State.crossPart, State.accGone, hlo, hhi, hplace, Nat.mod_one]
  cases s.storeProtected x a n w
  · rfl
  · rfl

theorem State.storeProtected_setCore {s : State} {x : Nat} {k : Core} (hk : k.job = (s.core x).job) {a : Nat} (ha : a < storeTop) (n : Nat) (w : Bool) :
    (s.setCore x k).storeProtected x a n w = s.storeProtected x a n w := by
  have hjob : (s.setCore x k).coreJob x = s.coreJob x := by rw [State.coreJob, State.core_setCore_self, hk]; rfl
  unfold State.storeProtected
  rw [State.locate_own _ x ha, State.locate_own _ x ha]
  simp only [hjob]
  rfl

theorem State.movFault_setCore {s : State} {x : Nat} {k : Core} (hk : k.job = (s.core x).job) {a n : Nat} (hn : 0 < n) (htop : a + n ≤ storeTop)
    (w : Bool) : (s.setCore x k).movFault x a n 1 w = s.movFault x a n 1 w := by
  rw [State.movFault_own _ _ hn htop, State.movFault_own _ _ hn htop, State.storeProtected_setCore hk (by omega)]

theorem State.memReadX_own (s : State) (x : Nat) {a n : Nat} (hn : 0 < n) (hline : a % 64 + n ≤ 64) (htop : a + n ≤ storeTop) :
    s.memReadX x a n = (s.stores.rdN (stoKey x a) n, s.stores.linePoison (stoKey x a / 64)) := by
  rw [State.memReadX, segs_of_one_line hn hline]
  simp [State.memRead_own s x n (show a < storeTop by omega)]

theorem State.physKey_own (s : State) (x : Nat) {a : Nat} (h : a < storeTop) : s.physKey x a = some (stoKey x a) := by
  rw [State.physKey, State.locate_own s x h]

/-- New bytes that no source holds are stored as they are. -/
theorem MovIn.store_of_not_read (m : MovIn) (k0 : Nat → Option Nat) (el a : Nat) (old new : List Byte)
    (h : ∀ i, i < new.length → m.reads (k0 (a + i)) = false) : m.store k0 [] el a old new = new := by
  unfold MovIn.store
  refine List.ext_getElem (by simp) fun i h1 h2 => ?_
  simp only [List.getElem_map, List.getElem_zipIdx, Nat.zero_add]
  rw [h i h2, if_neg (by simp), if_neg]
  cases k0 (a + i) <;> simp [Tab.get, bit0]

theorem State.pieceFault_of_one_line {s : State} {x a d n : Nat} (hn : 0 < n) (hsrc : a % 64 + n ≤ 64) (hr : s.movFault x a n 1 false = none)
    (hw : s.movFault x d n 1 true = none) : s.pieceFault x ⟨0, some a, d, n⟩ = none := by
  simp [State.pieceFault, State.readFault, segs_of_one_line hn hsrc, hr, hw]

section Copy
variable {s : State} {x : Nat} {o : MovOp} (hn : 0 < o.sb) (hsa : o.sa + o.sb ≤ storeTop) (hsd : o.sd + o.sb ≤ storeTop)
include hn hsa hsd

/-- A linear copy inside one line is one piece. -/
theorem State.movPieces_of_one_line (hdst : o.sd % 64 + o.sb ≤ 64) (hkind : o.kind = 0) : s.movPieces x o = ([⟨0, some o.sa, o.sd, o.sb⟩], .ok) := by
  have hd : o.sd % 2 ^ 64 = o.sd := Nat.mod_eq_of_lt (by unfold storeTop at hsd; omega)
  have ha : o.sa % 2 ^ 64 = o.sa := Nat.mod_eq_of_lt (by unfold storeTop at hsa; omega)
  simp only [State.movPieces, hkind, pieces, hd, segs_of_one_line hn hdst, List.map_cons, List.map_nil, Option.map_some, Nat.sub_self, Nat.add_zero, ha]

theorem State.doPieces_of_one_line (hsrc : o.sa % 64 + o.sb ≤ 64) (hdis : o.sa + o.sb ≤ o.sd ∨ o.sd + o.sb ≤ o.sa) :
    s.doPieces x o [⟨0, some o.sa, o.sd, o.sb⟩] (fun _ => true) =
      { s with stores := s.stores.wr (stoKey x o.sd) (s.stores.rdN (stoKey x o.sa) o.sb) (s.stores.linePoison (stoKey x o.sa / 64)) }.movBytes x o.sb := by
  have hread : s.readCount x o.sa o.sb = s := by
    rw [State.readCount, segs_of_one_line hn hsrc, State.each_cons, State.memRead_own s x _ (by omega)]
    rfl
  have hin : (s.movIn x o [(o.sa, o.sb)]).srcs = [(stoKey x o.sa, o.sb)] := by
    simp [State.movIn, segs_of_one_line hn hsrc, State.physKey_own s x (show o.sa < storeTop by omega)]
  have hstore : ∀ el old, (s.movIn x o [(o.sa, o.sb)]).store (s.physKey x) [] el o.sd old (s.stores.rdN (stoKey x o.sa) o.sb) =
      s.stores.rdN (stoKey x o.sa) o.sb := fun el old =>
    MovIn.store_of_not_read _ _ _ _ _ _ fun i hi => by
      rw [length_rdN] at hi
      rw [State.physKey_own s x (by omega), MovIn.reads, hin]
      simp only [List.any_cons, List.any_nil, Bool.or_false, stoKey]
      by_cases hlo : o.sa ≤ o.sd + i
      · exact Bool.and_eq_false_imp.2 fun _ => decide_eq_false (by omega)
      · exact Bool.and_eq_false_imp.2 fun h => absurd (of_decide_eq_true h) (by omega)
  simp only [State.doPieces, List.filter_cons, List.filter_nil, if_true, List.foldl_cons, List.foldl_nil, State.doPiece, List.flatMap_cons, List.flatMap_nil,
    Piece.source, List.append_nil, hread, State.memReadX_own s x hn hsrc hsa, hstore, State.memWrite_own s x (show o.sd < storeTop by omega)]

/-- A copy inside two lines of a core's own stores. -/
theorem State.runMov_of_one_line (hsrc : o.sa % 64 + o.sb ≤ 64) (hdst : o.sd % 64 + o.sb ≤ 64) (hkind : o.kind = 0) (hdis : o.sa + o.sb ≤ o.sd ∨ o.sd + o.sb ≤ o.sa)
    (hr : s.movFault x o.sa o.sb 1 false = none) (hw : s.movFault x o.sd o.sb 1 true = none) : s.runMov x o (fun _ => true) =
      ({ s with stores := s.stores.wr (stoKey x o.sd) (s.stores.rdN (stoKey x o.sa) o.sb) (s.stores.linePoison (stoKey x o.sa / 64)) }.movBytes x o.sb, .ok) := by
  have hp := State.movPieces_of_one_line (s := s) (x := x) hn hsa hsd hdst hkind
  have hfault := State.pieceFault_of_one_line hn hsrc hr hw
  have hdo := State.doPieces_of_one_line (s := s) (x := x) hn hsa hsd hsrc hdis
  unfold State.runMov
  simp only [hkind, hp, List.findSome?_cons, List.findSome?_nil, hfault, hdo]
  rfl

end Copy

theorem State.movBytes_eq (s : State) (x n : Nat) : ∃ r, s.movBytes x n = { s with regs := r } := by
  unfold State.movBytes State.setFld64 State.setFld
  exact ⟨_, rfl⟩

theorem State.fld64_movBytes (s : State) (x n : Nat) : (s.movBytes x n).fld64 (P.mov x) F.MOV_BYTES_LO_bytes F.MOV_BYTES_HI_bytes =
    (s.fld64 (P.mov x) F.MOV_BYTES_LO_bytes F.MOV_BYTES_HI_bytes + n) % 2 ^ 64 :=
  State.fld64_setFld64 _ _ (by decide) rfl rfl _

/-- The completion of such a copy: the bytes, the poison of their line, the count of bytes written, and the token. -/
theorem completes_copy {x : Fin 512} {s : State} (hrun : s.enginesRun x = true) {k : Fin 4} {o : MovOp} (hk : (s.core x).movAct[k.val]? = some o)
    (hkind : o.kind = 0) (hn : 0 < o.sb) (hsrc : o.sa % 64 + o.sb ≤ 64) (hdst : o.sd % 64 + o.sb ≤ 64) (hsa : o.sa + o.sb ≤ storeTop)
    (hsd : o.sd + o.sb ≤ storeTop) (hdis : o.sa + o.sb ≤ o.sd ∨ o.sd + o.sb ≤ o.sa) (hr : s.movFault x o.sa o.sb 1 false = none)
    (hw : s.movFault x o.sd o.sb 1 true = none) : Completes (.moverOpComplete x k) s fun t =>
      t.core x = { s.core x with movAct := (s.core x).movAct.eraseIdx k }.setT o.token ((s.core x).getT o.token - 1) ∧
      (∀ y : Nat, y ≠ x → t.core y = s.core y) ∧
      t.stores = s.stores.wr (stoKey x o.sd) (s.stores.rdN (stoKey x o.sa) o.sb) (s.stores.linePoison (stoKey x o.sa / 64)) ∧
      t.hmp = s.hmp ∧ t.slices = s.slices ∧
      t.fld64 (P.mov x) F.MOV_BYTES_LO_bytes F.MOV_BYTES_HI_bytes = (s.fld64 (P.mov x) F.MOV_BYTES_LO_bytes F.MOV_BYTES_HI_bytes + o.sb) % 2 ^ 64 ∧
      s.sameRegs t [fkey (P.mov x) F.MOV_BYTES_LO_bytes, fkey (P.mov x) F.MOV_BYTES_HI_bytes] := by
  have hkeep : ∀ {a : Nat} {w : Bool}, a + o.sb ≤ storeTop → s.movFault x a o.sb 1 w = none →
      (s.setCore x { s.core x with movAct := (s.core x).movAct.eraseIdx k }).movFault x a o.sb 1 w = none := fun {a w} ha hf =>
    (State.movFault_setCore (by exact rfl) hn ha w).trans hf
  have hmov := State.runMov_of_one_line hn hsa hsd hsrc hdst hkind hdis (hkeep hsa hr) (hkeep hsd hw)
  have hexec : exec (.moverOpComplete x k) s = .next (State.tokenFall (State.movBytes
      { s.setCore x { s.core x with movAct := (s.core x).movAct.eraseIdx k } with
        stores := s.stores.wr (stoKey x o.sd) (s.stores.rdN (stoKey x o.sa) o.sb) (s.stores.linePoison (stoKey x o.sa / 64)) } x o.sb) x o.token) := by
    show Host.Outcome.next _ = _
    simp only [hrun, hk, Bool.not_true, Bool.false_eq_true, if_false, hmov]
    rfl
  obtain ⟨r, hr'⟩ := State.movBytes_eq { s.setCore x { s.core x with movAct := (s.core x).movAct.eraseIdx k } with
    stores := s.stores.wr (stoKey x o.sd) (s.stores.rdN (stoKey x o.sa) o.sb) (s.stores.linePoison (stoKey x o.sa / 64)) } x o.sb
  have hcore : ∀ y, (State.movBytes { s.setCore x { s.core x with movAct := (s.core x).movAct.eraseIdx k } with
      stores := s.stores.wr (stoKey x o.sd) (s.stores.rdN (stoKey x o.sa) o.sb) (s.stores.linePoison (stoKey x o.sa / 64)) } x o.sb).core y =
      (s.setCore x { s.core x with movAct := (s.core x).movAct.eraseIdx k }).core y := fun y => by
    rw [hr']
    rfl
  rw [State.tokenFall_of_core (by rw [hcore, State.core_setCore_self])] at hexec
  refine ⟨_, hexec, State.core_setCore_self _ _ _, fun y hy => ?_, ?_, ?_, ?_, ?_, ?_⟩
  · rw [State.core_setCore, if_neg hy, hcore, State.core_setCore, if_neg hy]
  · rw [State.setCore_stores, hr']
  · rw [State.setCore_hmp, hr']
    rfl
  · rw [State.setCore_slices, hr']
    rfl
  · rw [State.fld64, State.fld_setCore, State.fld_setCore, ← State.fld64]
    exact State.fld64_movBytes _ _ _
  · exact ((State.sameRegs_of_regs rfl _).setFld (by simp) _).setFld (by simp) _

/-- Settles O23: what each engine does with its oldest operation, or with operation `k` in progress. -/
theorem engineCompletionResults : Obligations.EngineCompletionResults := by
  unfold Obligations.EngineCompletionResults
  rintro x s c rfl hrun
  refine ⟨fun o q hq hclean c' hc' => ?_, exec_mxeOpComplete_of_nil hrun, fun hlen => ⟨fun o q hq hord hroute => ?_, fun o q hq hord hbusy => ?_,
    fun o q hq hroute => ?_⟩, exec_moverOpStart_of_full, fun k o hk hkind hn hsrc hdst hsa hsd hdis hr hw => ?_, fun k hk => ?_⟩
  · subst hc'
    exact ⟨completes_mma hrun hq hclean, completes_mscl hrun hq hclean, completes_mcvt hrun hq hclean⟩
  · have hfree : (bitOf o.flags 0 && !(s.core x).movAct.isEmpty) = false := by
      rcases hord with h | h <;> simp [h]
    refine ⟨_, ?_, rfl⟩
    rw [exec_moverOpStart hrun hlen hq, hfree, hroute]
    rfl
  · have hheld : (bitOf o.flags 0 && !(s.core x).movAct.isEmpty) = true := by simpa [hord] using hbusy
    rw [exec_moverOpStart hrun hlen hq, if_pos hheld]
  · obtain ⟨u, hu, hheld, htouch⟩ := hroute
    have hany : (List.range 8).any (fun u => s.routeHeld (x.val / 64) u && s.movTouches x o u) = true :=
      List.any_eq_true.2 ⟨u, List.mem_range.2 hu, by simp [hheld, htouch]⟩
    rw [exec_moverOpStart hrun hlen hq, hany]
    split <;> rfl
  · exact completes_copy hrun hk hkind hn hsrc hdst hsa hsd hdis hr hw
  · show Host.Outcome.next _ = _
    simp only [hrun, hk, Bool.not_true, Bool.false_eq_true, if_false]

end Sys2Proof.Machine
end

section
/-! The page manager and the port commands of the attention units (10 R245-R255, R259-R261, R264-R269). -/
namespace Sys2Proof.Machine

/-! KVOP. -/

/-- An answer of the gate is not OK. -/
theorem State.kvGate_ne_ok {s : State} {p n ep v : Nat} {w : Bool} {g : Nat × Nat} (h : s.kvGate p n ep v w = some g) : g.1 ≠ kvOk := by
  unfold State.kvGate at h
  dsimp only at h
  split at h
  · obtain rfl := (Option.some.inj h).symm
    decide
  · split at h
    · obtain rfl := (Option.some.inj h).symm
      decide
    · split at h
      · simp at h
      · split at h
        · simp at h
        · split at h
          · obtain ⟨e, -, rfl⟩ := Option.map_eq_some_iff.1 h
            exact Nat.one_ne_zero
          · obtain rfl := (Option.some.inj h).symm
            decide

/-- A KVOP that its core's port runs ends as the gate and its operation say. -/
theorem kvopEnds_of_kvop {c : Instr} {s : State} {x : Fin 512} {o : AtuOp} {p n ep k : Nat} {w : Bool}
    {f : Nat → Nat → List Byte → Nat → State → Except KvErr (State × Nat)} {more : Nat → List Byte → State → List Byte} {more' : State → List Byte}
    (hhead : s.atuHead x 2 = some o) (hplace : s.jobPlace x = some (p, n, ep)) (hop : dNum o.blk 0 1 = k)
    (hx : exec c s = .next (s.kvop x k w f more))
    (hmore : ∀ t r, f p n o.blk (dNum o.blk 4 4) s = .ok (t, r) →
      more p o.blk (if w then t.setKvWin n ((t.kvWin n).record (dNum o.blk 4 4) r) else t) = more' t) :
    KvopEnds c s x o p n ep (dNum o.blk 4 4) w (f p n o.blk (dNum o.blk 4 4) s) more' := by
  have hrun : s.kvop x k w f more = match s.kpmOp p n ep (dNum o.blk 4 4) w (f p n o.blk (dNum o.blk 4 4)) with
      | .error e => s.kvEnd x o p (dNum o.blk 4 4) e
      | .ok r => r.2.2.kvRecord x o r.1 r.2.1 0 (dNum o.blk 4 4) (if r.1 = kvOk then more p o.blk r.2.2 else []) := by
    simp only [State.kvop, hhead, hplace, hop, ne_eq, not_true_eq_false, if_false] <;> rfl
  rw [hrun] at hx
  refine ⟨fun g hg => ?_, fun hg => ⟨fun e he => ?_, fun t r ht => ?_⟩⟩
  · rw [hx]
    simp only [State.kpmOp, hg, if_neg (State.kvGate_ne_ok hg)]
  · rw [hx]
    simp only [State.kpmOp, hg, he]
  · rw [hx]
    simp only [State.kpmOp, hg, ht, if_true, hmore t r ht]
    rfl

theorem State.kvDesc_of_kvNamed {s : State} {p k n free : Nat} {d : KvDesc} (h : s.kvNamed p k n free = .ok d) : s.kvDesc p k = .ok d := by
  unfold State.kvNamed at h
  split at h
  · simp at h
  · next e he =>
    rw [he]
    split at h
    · simp at h
    · split at h
      · exact h
      · simp at h

/-- Settles O24: each operation is the shared KVOP with its function. -/
theorem kvopResults : Obligations.KvopResults := by
  unfold Obligations.KvopResults
  rintro x s o p n ep v b hhead hplace rfl rfl
  refine ⟨fun h => ?_, fun h => ?_, fun h => ?_, fun h => ?_, fun h => ?_, fun h => ?_, fun h k d hk hd => ?_⟩
  · exact kvopEnds_of_kvop (f := fun p n b v s => s.kvAlloc p n (dNum b 1 1) v) (more := noMore) hhead hplace h rfl fun _ _ _ => rfl
  · exact kvopEnds_of_kvop (f := fun p n b v s => s.kvRef p n (dNum b 0x18 4) v true) (more := noMore) hhead hplace h rfl fun _ _ _ => rfl
  · exact kvopEnds_of_kvop (f := fun p n b v s => s.kvRef p n (dNum b 0x18 4) v false) (more := noMore) hhead hplace h rfl fun _ _ _ => rfl
  · exact kvopEnds_of_kvop (f := fun p n b v s => s.kvFork p n (dNum b 8 8) (dNum b 0x10 8) (dNum b 0x18 4) (dNum b 0x1C 4) v) (more := noMore)
      hhead hplace h rfl fun _ _ _ => rfl
  · exact kvopEnds_of_kvop (f := fun p n b v s => s.kvRelease p n (dNum b 8 8) (dNum b 0x18 4) (dNum b 0x1C 4) v) (more := noMore)
      hhead hplace h rfl fun _ _ _ => rfl
  · exact kvopEnds_of_kvop (f := fun p _ b _ s => .ok (s.labRemovePart p (fun e => e.root == dNum b 8 8), 0)) (more := noMore) hhead hplace h rfl
      fun _ _ _ => rfl
  · subst hk
    have hquery : (match s.kvNamed p (dNum o.blk 0x18 4) n kvNotOwner with
        | .ok _ => Except.ok (s, dNum o.blk 0x18 4) | .error e => .error e) = .ok (s, dNum o.blk 0x18 4) := by
      rw [show s.kvNamed p (dNum o.blk 0x18 4) n kvNotOwner = .ok d from hd]
    have hends := kvopEnds_of_kvop (c := .kvopQuery x) (more' := fun _ => d.bytes)
      (f := fun p n b _ s => match s.kvNamed p (dNum b 0x18 4) n kvNotOwner with | .ok _ => .ok (s, dNum b 0x18 4) | .error e => .error e)
      (more := fun p b s => match s.kvDesc p (dNum b 0x18 4) with | .ok d => d.bytes | .error _ => []) hhead hplace h rfl fun t r ht => by
        obtain ⟨rfl, -⟩ := Prod.mk.inj (Except.ok.inj (hquery.symm.trans ht))
        simp only [Bool.false_eq_true, if_false, State.kvDesc_of_kvNamed hd]
    rw [hquery] at hends
    exact hends

/-! What the manager's updates leave. -/

/-- `t` is `s` but for slices, registers, MSI-X state and what was sent. -/
def State.SlicesOnly (s t : State) : Prop := ∃ m r f o x i, t = { s with slices := m, regs := r, fns := f, outs := o, transit := x, ideSent := i }

theorem State.SlicesOnly.refl (s : State) : s.SlicesOnly s := ⟨_, _, _, _, _, _, rfl⟩

theorem State.SlicesOnly.trans {s t u : State} (h1 : s.SlicesOnly t) (h2 : t.SlicesOnly u) : s.SlicesOnly u := by
  obtain ⟨_, _, _, _, _, _, rfl⟩ := h1
  obtain ⟨m, r, f, o, x, i, rfl⟩ := h2
  exact ⟨m, r, f, o, x, i, rfl⟩

theorem State.RegsOnly.slicesOnly {s t : State} (h : s.RegsOnly t) : s.SlicesOnly t := by
  obtain ⟨r, f, o, x, i, rfl⟩ := h
  exact ⟨_, r, f, o, x, i, rfl⟩

theorem State.SlicesOnly.each {α : Type} {s : State} {l : List α} {g : α → State → State} (hg : ∀ a (u : State), u.SlicesOnly (g a u)) : s.SlicesOnly (s.each l g) := by
  induction l generalizing s with
  | nil => exact .refl s
  | cons a l ih => exact (hg a s).trans ih

theorem State.sliceBytes_only (s : State) (x n : Nat) : s.RegsOnly (s.sliceBytes x n) :=
  (State.RegsOnly.setFld _ _ _ _).trans (.setFld _ _ _ _)

theorem State.sliceWrite_only (s : State) (x a : Nat) (bs : List Byte) (ep : Bool) : s.SlicesOnly (s.sliceWrite x a bs ep) := by
  unfold State.sliceWrite
  split
  · exact .refl s
  · split
    · exact State.SlicesOnly.trans (t := { s with slices := s.slices.write (skey x a) bs ep }) ⟨_, _, _, _, _, _, rfl⟩ (State.sliceBytes_only _ _ _).slicesOnly
    · split
      · exact (State.countErr_only _ _ _ _ _).slicesOnly
      · exact .refl s

theorem State.placeWrite_only (s : State) (g : Nat) (pl : Place) (bs : List Byte) (ep : Bool) : s.SlicesOnly (s.placeWrite g pl bs ep) := by
  cases pl with
  | dram x a => exact s.sliceWrite_only x a bs ep
  | unbacked => exact (State.countErr_only _ _ _ _ _).slicesOnly
  | unmapped => exact .refl s

theorem State.pWrite_only (s : State) (p o : Nat) (bs : List Byte) : s.SlicesOnly (s.pWrite p o bs) :=
  .each fun _ u => u.placeWrite_only _ _ _ _

/-- A change of the free list: the list, its count, and an event where it becomes empty. -/
theorem State.setKvFree_only (s : State) (p : Nat) (l : List Nat) : { s with kvFree := Tab.set list0 s.kvFree p l }.RegsOnly (s.setKvFree p l) := by
  unfold State.setKvFree
  dsimp only
  split
  · exact .trans (.setFld _ _ _ _) (.event _ _ _)
  · exact .setFld _ _ _ _

theorem State.setOwned_only (s : State) (p n v : Nat) : { s with kvOwned := Tab.set nat0 s.kvOwned (128 * p + n) v }.RegsOnly (s.setOwned p n v) := by
  unfold State.setOwned
  dsimp only
  split
  · exact .trans (.setFld _ _ _ _) (.event _ _ _)
  · exact .setFld _ _ _ _

/-- What the page manager's own tables hold: the lists and the ownership counts. -/
structure State.SameKv (s t : State) : Prop where
  free : t.kvFree = s.kvFree
  quar : t.kvQuar = s.kvQuar
  owned : t.kvOwned = s.kvOwned
  stores : t.stores = s.stores
  hmp : t.hmp = s.hmp

theorem State.SlicesOnly.sameKv {s t : State} (h : s.SlicesOnly t) : s.SameKv t := by
  obtain ⟨_, _, _, _, _, _, rfl⟩ := h
  exact ⟨rfl, rfl, rfl, rfl, rfl⟩

theorem State.RegsOnly.sameKv {s t : State} (h : s.RegsOnly t) : s.SameKv t := h.slicesOnly.sameKv

theorem State.kvFreeList_setKvFree (s : State) (p : Nat) (l : List Nat) : (s.setKvFree p l).kvFreeList p = l := by
  rw [State.kvFreeList, (s.setKvFree_only p l).sameKv.free]
  exact Tab.get_set_self _ _ _ _

theorem State.ownedIn_setOwned (s : State) (p n v q m : Nat) : (s.setOwned p n v).ownedIn q m = if 128 * q + m = 128 * p + n then v else s.ownedIn q m := by
  rw [State.ownedIn, (s.setOwned_only p n v).sameKv.owned]
  exact Tab.get_set _ _ _ _ _

theorem State.kvFreeList_setOwned (s : State) (p n v q : Nat) : (s.setOwned p n v).kvFreeList q = s.kvFreeList q := by
  rw [State.kvFreeList, (s.setOwned_only p n v).sameKv.free, State.kvFreeList]

theorem State.ownedIn_setKvFree (s : State) (p : Nat) (l : List Nat) (q m : Nat) : (s.setKvFree p l).ownedIn q m = s.ownedIn q m := by
  rw [State.ownedIn, (s.setKvFree_only p l).sameKv.owned, State.ownedIn]

theorem State.stores_setKvFree (s : State) (p : Nat) (l : List Nat) : (s.setKvFree p l).stores = s.stores := by rw [(s.setKvFree_only p l).sameKv.stores]
theorem State.hmp_setKvFree (s : State) (p : Nat) (l : List Nat) : (s.setKvFree p l).hmp = s.hmp := by rw [(s.setKvFree_only p l).sameKv.hmp]
theorem State.stores_setOwned (s : State) (p n v : Nat) : (s.setOwned p n v).stores = s.stores := by rw [(s.setOwned_only p n v).sameKv.stores]
theorem State.hmp_setOwned (s : State) (p n v : Nat) : (s.setOwned p n v).hmp = s.hmp := by rw [(s.setOwned_only p n v).sameKv.hmp]

theorem State.SameKv.ownedIn {s t : State} (h : s.SameKv t) (q m : Nat) : t.ownedIn q m = s.ownedIn q m := by
  rw [State.ownedIn, h.owned, State.ownedIn]

theorem State.SameKv.kvFreeList {s t : State} (h : s.SameKv t) (q : Nat) : t.kvFreeList q = s.kvFreeList q := by
  rw [State.kvFreeList, h.free, State.kvFreeList]

theorem State.setKvDesc_sameKv (s : State) (p k : Nat) (d : KvDesc) : s.SameKv (s.setKvDesc p k d) := (s.pWrite_only _ _ _).sameKv

/-! The page operations. -/

/-- ALLOC takes the head of the free list, and the tenant owns one page more. -/
theorem State.kvTake_of_cons {s : State} {p n fmt v h : Nat} {r : List Nat} (hl : s.kvFreeList p = h :: r) :
    (s.kvTake p n fmt v).1 = h ∧ (s.kvTake p n fmt v).2.kvFreeList p = r ∧ (s.kvTake p n fmt v).2.ownedIn p n = s.ownedIn p n + 1 ∧
      (∀ q m, 128 * q + m ≠ 128 * p + n → (s.kvTake p n fmt v).2.ownedIn q m = s.ownedIn q m) ∧ (s.kvTake p n fmt v).2.stores = s.stores ∧
      (s.kvTake p n fmt v).2.hmp = s.hmp := by
  obtain ⟨d, hd⟩ : ∃ d, s.kvTake p n fmt v = (h, ((s.setKvDesc p h d).setKvFree p r).setOwned p n (s.ownedIn p n + 1)) := by
    refine ⟨⟨(s.kvPool p).frameOf h, 1, s.epoch n, 0, fmt, n, 1, 0, v⟩, ?_⟩
    simp only [State.kvTake, hl]
  have hdesc := s.setKvDesc_sameKv p h d
  rw [hd]
  refine ⟨rfl, ?_, ?_, fun q m hqm => ?_, ?_, ?_⟩
  · rw [State.kvFreeList_setOwned, State.kvFreeList_setKvFree]
  · rw [State.ownedIn_setOwned, if_pos rfl]
  · rw [State.ownedIn_setOwned, if_neg hqm, State.ownedIn_setKvFree, hdesc.ownedIn]
  · rw [State.stores_setOwned, State.stores_setKvFree, hdesc.stores]
  · rw [State.hmp_setOwned, State.hmp_setKvFree, hdesc.hmp]

/-- The last reference of a page that is not quarantined puts it at the head of the free list. -/
theorem State.kvSetRc_zero {s : State} {p k v : Nat} {d : KvDesc} (hq : (s.kvQuarList p).contains k = false) :
    (s.kvSetRc p k 0 v d).kvFreeList p = k :: s.kvFreeList p ∧ (s.kvSetRc p k 0 v d).ownedIn p d.owner = s.ownedIn p d.owner - 1 := by
  obtain ⟨e, he⟩ : ∃ e, s.kvSetRc p k 0 v d = ((s.tick.setKvDesc p k e).setOwned p d.owner ((s.tick.setKvDesc p k e).ownedIn p d.owner - 1)).setKvFree p
      (k :: s.kvFreeList p) := by
    unfold State.kvSetRc
    simp only [if_true, hq, Bool.false_eq_true, if_false]
    exact ⟨{ d with rc := 0, flags := _, next := _, opseq := v }, rfl⟩
  have hdesc := s.tick.setKvDesc_sameKv p k e
  rw [he]
  refine ⟨State.kvFreeList_setKvFree _ _ _, ?_⟩
  rw [State.ownedIn_setKvFree, State.ownedIn_setOwned, if_pos rfl, hdesc.ownedIn]
  rfl

theorem State.kvUsable_of_kvNamed {s : State} {p k n free : Nat} {d : KvDesc} (h : s.kvNamed p k n free = .ok d) :
    (s.kvQuarList p).contains k = false ∧ d.owner = n := by
  unfold State.kvNamed at h
  split at h
  · simp at h
  · split at h
    · simp at h
    · split at h
      · next husable =>
        obtain rfl := Except.ok.inj h
        simp only [State.kvUsable, Bool.and_eq_true, Bool.not_eq_true', beq_iff_eq] at husable
        obtain ⟨⟨⟨-, hq⟩, ho⟩, -⟩ := husable
        exact ⟨hq, ho⟩
      · simp at h

/-- Settles O25: the gate, ALLOC by the free list, and the references by their count. -/
theorem kvPageOperations : Obligations.KvPageOperations := by
  unfold Obligations.KvPageOperations
  intro s p n ep v fmt k w
  refine ⟨fun hep => if_pos hep, fun hep hst => ?_, fun hep hst => ⟨?_, fun hab => ?_, fun hab hfar => ?_, fun r hab hnear hfind => ?_⟩, fun hfit => ?_,
    fun hfit => ⟨fun hl => ?_, fun h r hl => ⟨fun hquota => ?_, fun d hquota hd => ?_⟩⟩,
    fun d hd => ⟨fun hrc => ?_, fun hrc => ?_, fun hrc => ?_, fun hrc => ?_, fun hrc => ?_⟩⟩
  · rw [State.kvGate, if_neg (not_not.2 hep), if_pos hst]
    rfl
  · rw [State.kvGate, if_neg (not_not.2 hep), if_neg (not_not.2 hst)]
    rfl
  · simp [State.kvGate, hep, hst, hab]
  · simp [State.kvGate, hep, hst, hab, Nat.not_lt.2 hfar, kvStale]
  · simp [State.kvGate, hep, hst, hab, hnear, hfind, kvDup]
  · simp [State.kvAlloc, hfit, kvFormat]
  · simp [State.kvAlloc, hfit, hl, kvEmpty]
  · simp [State.kvAlloc, hfit, hl, hquota, kvQuota]
  · obtain ⟨hpage, hfree, hown, hother, hstores, hhmp⟩ := State.kvTake_of_cons (n := n) (fmt := fmt) (v := v) hl
    refine ⟨(s.kvTake p n fmt v).2, ?_, hfree, hown, fun q m hne hq hp hm hn => hother q m fun heq => hne ?_, hstores, hhmp⟩
    · simp only [State.kvAlloc, hfit, hl, hd, if_neg (Nat.not_le.2 hquota), hpage]
      rfl
    · exact Prod.ext (by omega) (by omega)
  · refine ⟨_, ?_, rfl⟩
    have hnz : d.rc + 1 ≠ 0 := by omega
    simp only [State.kvRef, kvUnderflow, hd, if_true, if_neg (Nat.not_le.2 hrc), State.kvSetRc, if_neg hnz]
  · simp only [State.kvRef, kvUnderflow, hd, if_true, if_pos hrc, kvSaturated]
  · simp only [State.kvRef, kvUnderflow, hd, hrc, Bool.false_eq_true, if_true, if_false]
  · have hnz : d.rc ≠ 0 := by omega
    have hpos : d.rc - 1 ≠ 0 := by omega
    simp only [State.kvRef, kvUnderflow, hd, hnz, Bool.false_eq_true, if_false, State.kvSetRc, hpos]
  · obtain ⟨hq, rfl⟩ := State.kvUsable_of_kvNamed hd
    obtain ⟨hfree, hown⟩ := State.kvSetRc_zero (v := v) (d := d) hq
    refine ⟨s.kvSetRc p k 0 v d, ?_, hfree, hown⟩
    simp [State.kvRef, kvUnderflow, hd, hrc]

end Sys2Proof.Machine
end

section
/-! KVAPP, ATTN and the end of a port command (10 R255-R260). -/
namespace Sys2Proof.Machine

section Append
variable {x : Fin 512} {s : State} {o : AtuOp} {p n ep : Nat} (hhead : s.atuHead x 1 = some o) (hplace : s.jobPlace x = some (p, n, ep))
include hhead hplace

theorem exec_kvappExecute_of_pool_off (hst : s.poolState p ≠ 2) :
    exec (.kvappExecute x) s = .next (s.kvRecord x o 12 0 0 (dNum o.blk 0x18 4) []) := by
  show Host.Outcome.next _ = _
  simp only [hhead, hplace, ne_eq, hst, not_false_eq_true, if_true]
  rfl

theorem exec_kvappExecute_of_format (hst : s.poolState p = 2)
    (hfmt : kvDim (dNum o.blk 0x1C 1) ≠ (s.kvPool p).d ∨ (s.kvPool p).fits (dNum o.blk 0xF 1) = false) :
    exec (.kvappExecute x) s = .next (s.kvRecord x o 10 0 0 (dNum o.blk 0x18 4) []) := by
  show Host.Outcome.next _ = _
  simp only [hhead, hplace, ne_eq, hst, not_true_eq_false, if_false]
  rw [if_pos (by simpa using hfmt)]
  rfl

/-- A KVAPP that its pool takes goes on with the translation of its indices. -/
theorem exec_kvappExecute (hst : s.poolState p = 2) (hdim : kvDim (dNum o.blk 0x1C 1) = (s.kvPool p).d) (hfit : (s.kvPool p).fits (dNum o.blk 0xF 1) = true)
    {idxs : List Nat}
    (hidx : idxs = (List.range ((dNum o.blk 8 4 + dNum o.blk 0xC 2 - 1) / 64 - dNum o.blk 8 4 / 64 + 1)).map (dNum o.blk 8 4 / 64 + ·)) :
    (∀ e u, s.kvTranslateAll (x / 8) p n (dNum o.blk 0 8) idxs = (.error e, u) →
      exec (.kvappExecute x) s = .next (u.kvEnd x o p (dNum o.blk 0x18 4) e)) ∧
    (∀ refs u, s.kvTranslateAll (x / 8) p n (dNum o.blk 0 8) idxs = (.ok refs, u) →
      (∀ r ∈ refs, ∀ e, r.page = some e → e.2.fmt = dNum o.blk 0xF 1) →
      u.stores.firstPoison (stoKey x (0x80000 + dNum o.blk 0x10 4)) (dNum o.blk 0xC 2 * (s.kvPool p).d * srcBytes (dNum o.blk 0xE 1)) = none →
      u.stores.firstPoison (stoKey x (0x80000 + dNum o.blk 0x14 4)) (dNum o.blk 0xC 2 * (s.kvPool p).d * srcBytes (dNum o.blk 0xE 1)) = none →
      exec (.kvappExecute x) s = .next
        (if (u.aElems x (dNum o.blk 0x10 4) (dNum o.blk 0xE 1) (dNum o.blk 0xC 2 * (s.kvPool p).d) ++
            u.aElems x (dNum o.blk 0x14 4) (dNum o.blk 0xE 1) (dNum o.blk 0xC 2 * (s.kvPool p).d)).any fun e => e.isNan || e.isInf
         then u.kvRecord x o 13 0 0 (dNum o.blk 0x18 4) []
         else u.kvAppend x o p n ep refs (u.aElems x (dNum o.blk 0x10 4) (dNum o.blk 0xE 1) (dNum o.blk 0xC 2 * (s.kvPool p).d))
           (u.aElems x (dNum o.blk 0x14 4) (dNum o.blk 0xE 1) (dNum o.blk 0xC 2 * (s.kvPool p).d)))) := by
  subst hidx
  refine ⟨fun e u ht => ?_, fun refs u ht hfmts hk hv => ?_⟩
  · show Host.Outcome.next _ = _
    simp only [hhead, hplace, ne_eq, hst, hdim, hfit, not_true_eq_false, if_false, Bool.not_true, Bool.or_false, decide_false, Bool.false_eq_true, ht]
  · show Host.Outcome.next _ = _
    simp only [hhead, hplace, ne_eq, hst, hdim, hfit, not_true_eq_false, if_false, Bool.not_true, Bool.or_false, decide_false, Bool.false_eq_true, ht]
    rw [if_neg]
    · simp only [hk, hv]
      rfl
    · intro hany
      obtain ⟨r, hr, hne⟩ := List.any_eq_true.1 hany
      cases he : r.page with
      | none => simp [he] at hne
      | some e => simp [he, hfmts r hr e he] at hne

end Append

/-- An append to a page that the tenant writes in place. -/
theorem State.kvAppend_of_owned {s w : State} {x : Nat} {o : AtuOp} {p n ep k m : Nat} {d e : KvDesc} {ks vs : List Fp} (hrc : d.rc ≤ 1)
    (hgone : s.kvPageGone x p k (dNum o.blk 0xF 1) = none) (hw : w = s.kvStore p k m (dNum o.blk 0xF 1) (dNum o.blk 8 4) (dNum o.blk 0xC 2) ks vs)
    (he : w.kvDesc p k = .ok e) :
    s.kvAppend x o p n ep [⟨m, some (k, d)⟩] ks vs = w.kvRecord x o 0 k e.vt (dNum o.blk 0x18 4) [] := by
  have hneeds : KvRef.needs ⟨m, some (k, d)⟩ = false := decide_eq_false (show ¬ 1 < d.rc by omega)
  unfold State.kvAppend State.kvAppWrite
  simp only [kvTargets, List.filter_cons, hneeds, Bool.false_eq_true, if_false, List.findSome?_cons, List.findSome?_nil, hgone, List.any_cons, List.any_nil,
    Bool.or_self, Bool.not_false, if_true, State.each_cons, State.each_nil, State.kvRepoint]
  simp [← hw, he, kvOk]

theorem Mem.firstPoison_zero (m : Mem) (a : Nat) : m.firstPoison a 0 = none := rfl

/-- Settles O26: the checks of KVAPP and ATTN in their order, the append in place, and the end of a command. -/
theorem attentionResults : Obligations.AttentionResults := by
  unfold Obligations.AttentionResults
  rintro x s o p n ep b rfl hplace
  refine ⟨?kvapp, ?attn, ?done⟩
  case kvapp =>
    rintro hhead v fmt pos cnt sf rfl rfl rfl rfl rfl
    refine ⟨exec_kvappExecute_of_pool_off hhead hplace, exec_kvappExecute_of_format hhead hplace, fun hst hdim hfit idxs hidx => ?_⟩
    obtain ⟨herr, hok⟩ := exec_kvappExecute hhead hplace hst hdim hfit hidx
    refine ⟨herr, fun refs u ht hrefs len ks vs hlen hks hvs hk hv => ?_⟩
    subst hlen hks hvs
    have hexec := hok refs u ht (fun r hr e he => by
      obtain ⟨k, d, hpage, hfmt, -⟩ := hrefs r hr
      obtain rfl := Option.some.inj (hpage.symm.trans he)
      exact hfmt) hk hv
    refine ⟨fun hbad => ?_, fun hgood k d r m hr hrm w hw e he => ?_⟩
    · obtain ⟨e, he, hb⟩ := hbad
      rw [hexec, if_pos (List.any_eq_true.2 ⟨e, he, by simpa using hb⟩)]
    · subst hr hrm
      obtain ⟨k', d', hpage, -, hrc, hgone⟩ := hrefs _ (List.mem_singleton.2 rfl)
      obtain ⟨rfl, rfl⟩ := Prod.mk.inj (Option.some.inj hpage)
      rw [hexec, if_neg, State.kvAppend_of_owned hrc hgone hw he]
      intro hany
      obtain ⟨e, he, hb⟩ := List.any_eq_true.1 hany
      simp [hgood e he] at hb
  case attn =>
    intro hhead hnext u hu
    have huplace : u.jobPlace x = some (p, n, ep) := by rw [hu]; exact hplace
    have hustate : u.poolState p = s.poolState p := by rw [hu]; rfl
    have hupool : u.kvPool p = s.kvPool p := by rw [hu]; rfl
    refine ⟨fun hst => ?_, fun hst hdim hbit hq idxs hidx refs w pages ht hpages hrec => ?_⟩
    · show Host.Outcome.next _ = _
      simp only [hhead, hnext, ne_eq, not_true_eq_false, if_false, ← hu, huplace, hustate, hst, not_false_eq_true, if_true]
    · subst hidx
      rw [show u.stores = s.stores by rw [hu]] at hq
      show Host.Outcome.next _ = _
      simp only [hhead, hnext, ne_eq, not_true_eq_false, if_false, ← hu, huplace, hustate, hst, hupool, hdim, hbit, Bool.false_eq_true,
        Mem.firstPoison_zero]
      simp only [← hdim, hq, ht, hpages, hrec, Bool.false_eq_true, if_false, Option.orElse_none]
  case done =>
    rintro c q rfl hrun hq
    refine ⟨fun hex => ?_, fun hex hkind => ?_⟩
    · show Host.Outcome.next _ = _
      simp only [hrun, hq, hex, Bool.not_true, Bool.not_false, Bool.false_eq_true, if_false, if_true]
    · have hexec : exec (.atuCommandDone x) s = .next (s.atuPop x o) := by
        show Host.Outcome.next _ = _
        simp only [hrun, hq, hex, hkind, Bool.not_true, Bool.false_eq_true, if_false]
      rw [State.atuPop, State.tokenFall_of_core (State.core_setCore_self _ _ _), hq] at hexec
      refine ⟨_, hexec, State.core_setCore_self _ _ _, fun y hy => ?_, _, rfl⟩
      rw [State.core_setCore, if_neg hy, State.core_setCore, if_neg hy]

end Sys2Proof.Machine
end

section
/-! Pools and reclaim (10 R249, R264, R265, R269). -/
namespace Sys2Proof.Machine

/-! Fields. -/

theorem bits_lt (v lo len : Nat) : bits v lo len < 2 ^ len := Nat.mod_lt _ (Nat.two_pow_pos _)

theorem Fld.inside_of_own {f : Fld} (h : f.own = true) : f.inside = true := by
  simp only [Fld.own, Fld.inside, Bool.and_eq_true, decide_eq_true_eq] at h ⊢
  exact ⟨h.1.2, h.2⟩

/-- An event changes a field of the header alone. -/
theorem State.fld_event_own {f : Fld} (hf : f.own = true) (s : State) (pg q bit : Nat) : (s.event q bit).fld pg f = s.fld pg f :=
  State.fld_event_apart _ _ _ (Fld.apart_of_own hf (by decide) (by decide)) _

theorem State.fld_setFld_own {f g : Fld} (hf : f.own = true) (hg : g.own = true) {pg q : Nat} (h : pg ≠ q) (s : State) (v : Nat) :
    (s.setFld q g v).fld pg f = s.fld pg f := State.fld_setFld_page _ _ _ _ h (Fld.inside_of_own hf) (Fld.inside_of_own hg)

section Pool
variable {f : Fld} {pg : Nat} (hf : f.own = true)
include hf

theorem State.fld_setOwned {n : Nat} (hpg : pg ≠ P.ten n 9) (s : State) (p v : Nat) : (s.setOwned p n v).fld pg f = s.fld pg f := by
  have hset : ∀ (u : State) w, (u.setFld (P.ten n 9) F.KPM_TQ_USED_used w).fld pg f = u.fld pg f := fun u w =>
    State.fld_setFld_own hf (by decide) hpg u w
  unfold State.setOwned
  dsimp only
  split
  · rw [State.fld_event_own hf, hset]
    rfl
  · rw [hset]
    rfl

theorem State.fld_setKvFree {p : Nat} (h : f.apart (F.KPM_POOL_STS_free p) = true) (s : State) (l : List Nat) : (s.setKvFree p l).fld pg f = s.fld pg f := by
  unfold State.setKvFree
  dsimp only
  split
  · rw [State.fld_event_own hf, State.fld_setFld_apart _ _ _ _ h]
    rfl
  · rw [State.fld_setFld_apart _ _ _ _ h]
    rfl

theorem State.fld_poolEmpty {p : Nat} (hpg : ∀ n, pg ≠ P.ten n 9) (hfree : f.apart (F.KPM_POOL_STS_free p) = true)
    (hquar : f.apart (F.KPM_POOL_QUAR_quarantined p) = true) (s : State) : (s.poolEmpty p).fld pg f = s.fld pg f := by
  have heach := State.each_keeps (fun u => u.fld pg f = s.fld pg f) s (List.range 128)
    (fun n s => if s.ownedIn p n = 0 then s else s.setOwned p n 0)
    (fun n _ u hu => by
      split
      · exact hu
      · rw [State.fld_setOwned hf (hpg n), hu]) rfl
  unfold State.poolEmpty State.setKvQuar
  dsimp only
  have hlists : ∀ (u : State) a b, { u with kvFree := a, kvUndef := b }.fld pg f = u.fld pg f := fun _ _ _ => rfl
  have hquars : ∀ (u : State) a, { u with kvQuar := a }.fld pg f = u.fld pg f := fun _ _ => rfl
  rw [State.fld_setFld_apart _ _ _ _ hquar, hquars, State.fld_setFld_apart _ _ _ _ hfree, hlists, heach]

theorem State.fld_setPoolState {p : Nat} (hpg : pg ≠ P.kpm 0) (h : f.apart (F.KPM_POOL_STS_state p) = true) (s : State) (st : Nat) :
    (s.setPoolState p st).fld pg f = s.fld pg f := by
  unfold State.setPoolState State.setBit
  dsimp only
  split
  · rfl
  · rw [State.fld_event_own hf, State.fld_setFld_own hf (by decide) hpg, State.fld_setFld_own hf (by decide) hpg, State.fld_setFld_apart _ _ _ _ h]

end Pool

theorem State.poolState_setPoolState {p st : Nat} (hp : p < 8) (hst : st < 8) (s : State) : (s.setPoolState p st).poolState p = st := by
  have hown : ∀ p < 8, (F.KPM_POOL_STS_state p).own = true := by decide
  unfold State.setPoolState State.setBit
  split
  · assumption
  · rw [State.poolState, State.fld_event_own (hown p hp), State.fld_setFld_own (hown p hp) (by decide) (by decide),
      State.fld_setFld_own (hown p hp) (by decide) (by decide), State.fld_setFld_of_lt _ _ _ hst]

/-! The manager's tables. -/

theorem State.SameKv.refl (s : State) : s.SameKv s := ⟨rfl, rfl, rfl, rfl, rfl⟩

theorem State.SameKv.trans {s t u : State} (h1 : s.SameKv t) (h2 : t.SameKv u) : s.SameKv u :=
  ⟨h2.free.trans h1.free, h2.quar.trans h1.quar, h2.owned.trans h1.owned, h2.stores.trans h1.stores, h2.hmp.trans h1.hmp⟩

theorem State.setPoolState_only (s : State) (p st : Nat) : s.RegsOnly (s.setPoolState p st) := by
  unfold State.setPoolState State.setBit
  split
  · exact .refl s
  · exact (((State.RegsOnly.setFld _ _ _ _).trans (.setFld _ _ _ _)).trans (.setFld _ _ _ _)).trans (.event _ _ _)

theorem State.kvFreeList_setKvQuar (s : State) (p q : Nat) (l : List Nat) : (s.setKvQuar p l).kvFreeList q = s.kvFreeList q := rfl
theorem State.kvQuarList_setKvQuar (s : State) (p : Nat) (l : List Nat) : (s.setKvQuar p l).kvQuarList p = l := Tab.get_set_self _ _ _ _
theorem State.kvFreeList_setFld (s : State) (pg : Nat) (f : Fld) (v p : Nat) : (s.setFld pg f v).kvFreeList p = s.kvFreeList p := rfl

/-- An emptied pool has no free page. -/
theorem State.kvFreeList_poolEmpty (s : State) (p : Nat) : (s.poolEmpty p).kvFreeList p = [] := by
  unfold State.poolEmpty
  dsimp only
  have hempty : ∀ (u : State) b, { u with kvFree := Tab.set list0 u.kvFree p [], kvUndef := b }.kvFreeList p = [] := fun _ _ => by
    rw [State.kvFreeList, Tab.get_set_self]
  rw [State.kvFreeList_setKvQuar, State.kvFreeList_setFld, hempty]

/-- An emptied pool has no page in quarantine. -/
theorem State.kvQuarList_poolEmpty (s : State) (p : Nat) : (s.poolEmpty p).kvQuarList p = [] := by
  unfold State.poolEmpty
  exact State.kvQuarList_setKvQuar _ _ _

theorem State.labRemove_sameKv (s : State) (cl : Nat) (g : LabEnt → Bool) : s.SameKv (s.labRemove cl g) := ⟨rfl, rfl, rfl, rfl, rfl⟩

theorem State.labFlushPart_sameKv (s : State) (p : Nat) : s.SameKv (s.labFlushPart p) :=
  State.each_keeps (fun u => s.SameKv u) s _ _ (fun _ _ u hu => hu.trans (u.labRemove_sameKv _ _)) (.refl s)

theorem State.fld_labFlushPart {f : Fld} {pg : Nat} (hf : f.own = true) (hpg : ∀ cl, pg ≠ P.kvw cl) (s : State) (p : Nat) :
    (s.labFlushPart p).fld pg f = s.fld pg f :=
  State.each_keeps (fun u => u.fld pg f = s.fld pg f) s _ _ (fun cl _ u hu => by
    rw [State.labRemove, State.addFld, State.fld_setFld_own hf (by decide) (hpg cl), ← hu]
    exact State.fld_setFld_own hf (by decide) (hpg cl) _ _) rfl

/-! Settling. -/

theorem State.kvQuarList_of_only {s t : State} (h : s.RegsOnly t) (p : Nat) : t.kvQuarList p = s.kvQuarList p := by
  rw [State.kvQuarList, h.sameKv.quar, State.kvQuarList]

theorem State.SameKv.kvQuarList {s t : State} (h : s.SameKv t) (p : Nat) : t.kvQuarList p = s.kvQuarList p := by
  rw [State.kvQuarList, h.quar, State.kvQuarList]

theorem P.kpm_ne_ten (n : Nat) : P.kpm 1 ≠ P.ten n 9 := by simp only [P.kpm, P.ten]; omega
theorem P.kpm_ne_kvw (cl : Nat) : P.kpm 1 ≠ P.kvw cl := by simp only [P.kpm, P.kvw, P.clu]; omega

/-- What a pool's configuration registers keep while it is emptied and its state changes. -/
theorem State.fld_poolEmpty_setPoolState {f : Fld} (hf : f.own = true) {p : Nat} (hfree : f.apart (F.KPM_POOL_STS_free p) = true)
    (hquar : f.apart (F.KPM_POOL_QUAR_quarantined p) = true) (hst : f.apart (F.KPM_POOL_STS_state p) = true) (s : State) (st : Nat) :
    ((s.poolEmpty p).setPoolState p st).fld (P.kpm 1) f = s.fld (P.kpm 1) f := by
  rw [State.fld_setPoolState hf (by decide) hst, State.fld_poolEmpty hf (fun n => P.kpm_ne_ten n) hfree hquar]

theorem completes_poolEnable {s : State} {p : Fin 8} {rq : Requester} {v : Word} (hg : s.grants rq (P.kpm 1) = true) (hv : bitOf v.toNat 0 = true)
    (hst : s.poolState p = 0) (hoff : s.flag (P.kpm 1) (F.KPM_POOL_CFG_enable p) = false) : Completes (.poolEnable rq p v) s fun t =>
    t.fld (P.kpm 1) (F.KPM_POOL_CFG_head_dim p) = bits v.toNat 1 2 ∧ t.fld (P.kpm 1) (F.KPM_POOL_CFG_frame_log2 p) = bits v.toNat 4 3 ∧
      t.flag (P.kpm 1) (F.KPM_POOL_CFG_enable p) = true ∧ (t.poolState p = 1 ∨ t.poolState p = 3) ∧ t.kvFreeList p = [] := by
  obtain ⟨st, hlt, hok, hstart⟩ : ∃ st, st < 8 ∧ (st = 1 ∨ st = 3) ∧ exec (.poolEnable rq p v) s = .next
      (((((s.setFld (P.kpm 1) (F.KPM_POOL_CFG_head_dim p) (bits v.toNat 1 2)).setFld (P.kpm 1) (F.KPM_POOL_CFG_frame_log2 p) (bits v.toNat 4 3)).setFlag
        (P.kpm 1) (F.KPM_POOL_CFG_enable p) true).poolEmpty p).setPoolState p st) := by
    have hexec : exec (.poolEnable rq p v) s = .next (s.poolCfgWrite rq p v) := by
      show Host.Outcome.next _ = _
      rw [if_pos hv, State.privWrite_of_grants hg]
    rw [hexec]
    simp only [State.poolCfgWrite, hst, hv, hoff, State.poolStart, bne_self_eq_false, Bool.false_eq_true, if_false, if_true, Bool.not_false, beq_self_eq_true,
      Bool.and_self]
    split
    · exact ⟨1, by decide, .inl rfl, rfl⟩
    · exact ⟨3, by decide, .inr rfl, rfl⟩
  have henable : ∀ p < 8, (F.KPM_POOL_CFG_enable p).own = true ∧ (F.KPM_POOL_CFG_enable p).apart (F.KPM_POOL_STS_free p) = true ∧
      (F.KPM_POOL_CFG_enable p).apart (F.KPM_POOL_QUAR_quarantined p) = true ∧ (F.KPM_POOL_CFG_enable p).apart (F.KPM_POOL_STS_state p) = true := by
    decide
  have hhead : ∀ p < 8, (F.KPM_POOL_CFG_head_dim p).own = true ∧ (F.KPM_POOL_CFG_head_dim p).apart (F.KPM_POOL_STS_free p) = true ∧
      (F.KPM_POOL_CFG_head_dim p).apart (F.KPM_POOL_QUAR_quarantined p) = true ∧ (F.KPM_POOL_CFG_head_dim p).apart (F.KPM_POOL_STS_state p) = true ∧
      (F.KPM_POOL_CFG_head_dim p).apart (F.KPM_POOL_CFG_enable p) = true ∧ (F.KPM_POOL_CFG_head_dim p).apart (F.KPM_POOL_CFG_frame_log2 p) = true := by
    decide
  have hframe : ∀ p < 8, (F.KPM_POOL_CFG_frame_log2 p).own = true ∧ (F.KPM_POOL_CFG_frame_log2 p).apart (F.KPM_POOL_STS_free p) = true ∧
      (F.KPM_POOL_CFG_frame_log2 p).apart (F.KPM_POOL_QUAR_quarantined p) = true ∧
      (F.KPM_POOL_CFG_frame_log2 p).apart (F.KPM_POOL_STS_state p) = true ∧ (F.KPM_POOL_CFG_frame_log2 p).apart (F.KPM_POOL_CFG_enable p) = true := by
    decide
  refine ⟨_, hstart, ?_, ?_, ?_, ?_, ?_⟩
  · obtain ⟨ho, h1, h2, h3, h4, h5⟩ := hhead p p.isLt
    rw [State.fld_poolEmpty_setPoolState ho h1 h2 h3, State.fld_setFlag_apart _ _ _ h4, State.fld_setFld_apart _ _ _ _ h5]
    exact State.fld_setFld_of_lt _ _ _ (bits_lt _ _ _)
  · obtain ⟨ho, h1, h2, h3, h4⟩ := hframe p p.isLt
    rw [State.fld_poolEmpty_setPoolState ho h1 h2 h3, State.fld_setFlag_apart _ _ _ h4]
    exact State.fld_setFld_of_lt _ _ _ (bits_lt _ _ _)
  · obtain ⟨ho, h1, h2, h3⟩ := henable p p.isLt
    rw [State.flag, State.fld_poolEmpty_setPoolState ho h1 h2 h3, State.fld_setFlag_self _ _ Nat.one_pos]
    rfl
  · rwa [State.poolState_setPoolState p.isLt hlt]
  · rw [(State.setPoolState_only _ _ _).sameKv.kvFreeList, State.kvFreeList_poolEmpty]

theorem completes_poolDisable {s : State} {p : Fin 8} {rq : Requester} {v : Word} (hg : s.grants rq (P.kpm 1) = true) (hv : bitOf v.toNat 0 = false)
    (hon : s.flag (P.kpm 1) (F.KPM_POOL_CFG_enable p) = true) (hst : s.poolState p = 1 ∨ s.poolState p = 2 ∨ s.poolState p = 3) :
    Completes (.poolDisable rq p v) s fun t =>
      t.poolState p = 0 ∧ t.flag (P.kpm 1) (F.KPM_POOL_CFG_enable p) = false ∧ t.kvFreeList p = [] ∧ t.kvQuarList p = [] := by
  obtain ⟨u, hstop⟩ : ∃ u : State, exec (.poolDisable rq p v) s = .next
      ((((u.setFlag (P.kpm 1) (F.KPM_POOL_CFG_enable p) false).poolEmpty p).setPoolState p 0).labFlushPart p) := by
    have hexec : exec (.poolDisable rq p v) s = .next (s.poolCfgWrite rq p v) := by
      show Host.Outcome.next _ = _
      rw [if_neg (by simp [hv]), State.privWrite_of_grants hg]
    have hend : (s.poolState p != 4 && s.poolState p != 5) = true := by
      rcases hst with h | h | h <;> simp [h]
    rw [hexec]
    simp only [State.poolCfgWrite, hv, hon, Bool.true_and, hend, if_true, Bool.false_eq_true, if_false]
    exact ⟨_, rfl⟩
  have henable : ∀ p < 8, (F.KPM_POOL_CFG_enable p).own = true ∧ (F.KPM_POOL_CFG_enable p).apart (F.KPM_POOL_STS_free p) = true ∧
      (F.KPM_POOL_CFG_enable p).apart (F.KPM_POOL_QUAR_quarantined p) = true ∧ (F.KPM_POOL_CFG_enable p).apart (F.KPM_POOL_STS_state p) = true := by
    decide
  have hstate : ∀ p < 8, (F.KPM_POOL_STS_state p).own = true := by decide
  refine ⟨_, hstop, ?_, ?_, ?_, ?_⟩
  · rw [State.poolState, State.fld_labFlushPart (hstate p p.isLt) P.kpm_ne_kvw]
    exact State.poolState_setPoolState p.isLt (by decide) _
  · obtain ⟨ho, h1, h2, h3⟩ := henable p p.isLt
    rw [State.flag, State.fld_labFlushPart ho P.kpm_ne_kvw, State.fld_poolEmpty_setPoolState ho h1 h2 h3, State.fld_setFlag_self _ _ Nat.one_pos]
    rfl
  · rw [(State.labFlushPart_sameKv _ _).kvFreeList, (State.setPoolState_only _ _ _).sameKv.kvFreeList, State.kvFreeList_poolEmpty]
  · rw [(State.labFlushPart_sameKv _ _).kvQuarList, (State.setPoolState_only _ _ _).sameKv.kvQuarList, State.kvQuarList_poolEmpty]

/-! Initialisation, the sweep and the flush. -/

theorem freeOrder_perm {α : Type} (seed : Nat) (l : List α) : (freeOrder seed l).Perm l := by
  have hsort := (List.mergeSort_perm (l.zipIdx.map fun e => (Config.freeNat (seed + e.2), e.1)) fun a b => decide (a.1 ≤ b.1)).map (·.2)
  refine hsort.trans (List.Perm.of_eq ?_)
  rw [List.map_map]
  exact List.zipIdx_map_fst 0 l

theorem State.poolWrite_only (s : State) (p : Nat) (l : List Nat) : s.SlicesOnly (s.poolWrite p l) := by
  induction l generalizing s with
  | nil => exact .refl s
  | cons k r ih => exact (s.pWrite_only _ _ _).trans (ih _)

theorem completes_poolInitDone {s : State} {p : Fin 8} (hst : s.poolState p = 1) : Completes (.poolInitDone p) s fun t =>
    t.poolState p = 2 ∧ (t.kvFreeList p).Perm (List.range (s.kvPool p).pages) ∧ t.stores = s.stores ∧ t.hmp = s.hmp := by
  have hexec : exec (.poolInitDone p) s = .next ((((((s.ticks (freeOrder s.fresh (List.range (s.kvPool p).pages)).length).poolWrite p
      (freeOrder s.fresh (List.range (s.kvPool p).pages))).tick).setKvFree p (freeOrder s.fresh (List.range (s.kvPool p).pages))).setPoolState p 2)) := by
    show Host.Outcome.next _ = _
    rw [if_neg (by simp [hst])]
  have hwrite := (State.poolWrite_only (s.ticks (freeOrder s.fresh (List.range (s.kvPool p).pages)).length) p
    (freeOrder s.fresh (List.range (s.kvPool p).pages))).sameKv
  refine ⟨_, hexec, State.poolState_setPoolState p.isLt (by decide) _, ?_, ?_, ?_⟩
  · rw [(State.setPoolState_only _ _ _).sameKv.kvFreeList, State.kvFreeList_setKvFree]
    exact freeOrder_perm _ _
  · rw [(State.setPoolState_only _ _ _).sameKv.stores, State.stores_setKvFree, State.tick_stores, hwrite.stores]
    rfl
  · rw [(State.setPoolState_only _ _ _).sameKv.hmp, State.hmp_setKvFree, State.tick_hmp, hwrite.hmp]
    rfl

/-- Returning a page leaves the own stores. -/
theorem State.kvSetRc_stores (s : State) (p k rc v : Nat) (d : KvDesc) : (s.kvSetRc p k rc v d).stores = s.stores := by
  unfold State.kvSetRc
  dsimp only
  split
  · split
    · rw [State.stores_setOwned, (State.setKvDesc_sameKv _ _ _ _).stores, State.tick_stores]
    · rw [State.stores_setKvFree, State.stores_setOwned, (State.setKvDesc_sameKv _ _ _ _).stores, State.tick_stores]
  · exact (State.setKvDesc_sameKv _ _ _ _).stores

theorem completes_kpmReclaimSweep {s : State} {n : Fin 128} (h : s.flag (P.ten n 9) F.KPM_TQ_RECLAIM_sweeping = true) :
    Completes (.kpmReclaimSweep n) s fun t => t.fld (P.ten n 9) F.KPM_TQ_RECLAIM_pending = 0 ∧
      t.flag (P.ten n 9) F.KPM_TQ_RECLAIM_sweeping = false ∧ t.stores = s.stores := by
  obtain ⟨u, hu, hexec⟩ : ∃ u : State, u.stores = s.stores ∧ exec (.kpmReclaimSweep n) s = .next
      (((u.setFld (P.ten n 9) F.KPM_TQ_RECLAIM_pending 0).setFlag (P.ten n 9) F.KPM_TQ_RECLAIM_sweeping false).event (P.ten n 9) 1) := by
    refine ⟨_, ?_, by
      show Host.Outcome.next _ = _
      rw [if_neg (by simp [h])]⟩
    refine State.each_keeps (fun u => u.stores = s.stores) s _ _ (fun p _ u hu => ?_) rfl
    refine State.each_keeps (fun u => u.stores = s.stores) u _ _ (fun e _ w hw => ?_) hu
    rw [State.kvSetRc_stores, hw]
  refine ⟨_, hexec, ?_, ?_, ?_⟩
  · rw [State.fld_event_own (by decide), State.fld_setFlag_apart _ _ _ (by decide), State.fld_setFld_of_lt _ _ _ (by decide)]
  · rw [State.flag, State.fld_event_own (by decide), State.fld_setFlag_self _ _ (by decide)]
    rfl
  · rw [State.event_stores, State.setFlag, State.setFld_stores, State.setFld_stores, hu]

theorem State.tileWrite_of_grants {s : State} {rq : Requester} {pg : Nat} (h : s.grants rq pg = true) (off : Nat) (c : Held) (k : State → State) :
    s.tileWrite rq pg off c k = k s := by
  obtain ⟨-, -, hbusy, -, -⟩ := (s.grants_iff rq pg).1 h
  rw [State.tileWrite, State.privWrite_of_grants h, hbusy]
  rfl

theorem State.lab_setLab (s : State) (cl : Nat) (l : List LabEnt) (k : Nat) : (s.setLab cl l).lab k = if k = cl then l else s.lab k :=
  show Tab.get lab0 (Tab.set lab0 s.labs cl l) k = _ from Tab.get_set _ _ _ _ _

theorem State.lab_addFld (s : State) (pg : Nat) (f : Fld) (n k : Nat) : (s.addFld pg f n).lab k = s.lab k := rfl

theorem completes_kvwFlush {s : State} {rq : Requester} {cl : Fin 64} (hg : s.grants rq (P.kvw cl) = true) : Completes (.kvwFlush rq cl) s fun t =>
    t.lab cl = [] ∧ t.fld (P.kvw cl) F.KVW_STS_lab_valid = 0 ∧ (∀ k : Nat, k ≠ cl → t.lab k = s.lab k) ∧ s.sameBytes t := by
  have hnil : (s.lab cl).filter (fun e => !(fun _ => true) e) = [] := List.filter_eq_nil_iff.2 fun _ _ => by simp
  have hexec : exec (.kvwFlush rq cl) s = .next (s.labRemove cl fun _ => true) := by
    show Host.Outcome.next _ = _
    rw [State.tileWrite_of_grants hg]
  rw [State.labRemove, hnil] at hexec
  refine ⟨_, hexec, ?_, ?_, fun k hk => ?_, State.sameBytes_of_eq rfl rfl rfl⟩
  · rw [State.lab_addFld, State.lab_setLab, if_pos rfl]
  · rw [State.addFld, State.fld_setFld_apart _ _ _ _ (by decide)]
    exact State.fld_setFld_of_lt _ _ _ (by decide)
  · rw [State.lab_addFld, State.lab_setLab, if_neg hk]

/-- Settles O27: a configuration write in each direction, the end of initialisation, the sweep and the flush. -/
theorem poolResults : Obligations.PoolResults := by
  unfold Obligations.PoolResults
  intro s p n cl rq v
  refine ⟨completes_poolEnable, completes_poolDisable, completes_poolInitDone, fun h => ?_, completes_kpmReclaimSweep, fun h => ?_, completes_kvwFlush⟩
  · show Host.Outcome.next _ = _
    rw [if_pos h]
  · show Host.Outcome.next _ = _
    rw [if_pos (by simp [h])]

end Sys2Proof.Machine
end

section
/-! The Trail (17 R409, R410, R412), and fields written one after another. -/
namespace Sys2Proof.Machine

/-! Fields written one after another. -/

theorem State.each_append {α : Type} (s : State) (l m : List α) (g : α → State → State) : s.each (l ++ m) g = (s.each l g).each m g :=
  List.foldl_append

section
variable {α : Type} {pg : Nat} {f : α → Fld} {v : α → Nat}

/-- A field that none of the writes touches. -/
theorem State.fld_each_setFld_other {g : Fld} {q : Nat} (l : List α) (h : ∀ a ∈ l, fkey q g ≠ fkey pg (f a)) (s : State) :
    (s.each l fun a s => s.setFld pg (f a) (v a)).fld q g = s.fld q g := by
  induction l generalizing s with
  | nil => rfl
  | cons a l ih =>
    rw [State.each_cons, ih (fun b hb => h b (List.mem_cons_of_mem _ hb)), State.fld_setFld_ne _ _ _ _ _ _ (h a (by simp))]

end

/-- The field of number `j` of a run of writes to distinct fields. -/
theorem State.fld_each_range_setFld {pg n j : Nat} {f : Nat → Fld} {v : Nat → Nat} (hj : j < n) (h : ∀ i < n, i ≠ j → fkey pg (f j) ≠ fkey pg (f i))
    (s : State) : (s.each (List.range n) fun i s => s.setFld pg (f i) (v i)).fld pg (f j) = v j % 2 ^ (f j).len := by
  induction n with
  | zero => omega
  | succ n ih =>
    rw [List.range_succ, State.each_append, State.each_cons, State.each_nil]
    by_cases hjn : j = n
    · rw [← hjn, State.fld_setFld_self]
    · rw [State.fld_setFld_ne _ _ _ _ _ _ (h n (by omega) (Ne.symm hjn)), ih (by omega) fun i hi => h i (by omega)]

theorem State.sameRegs_each {α : Type} {s t : State} {ks : List Nat} {l : List α} {g : α → State → State} (ht : s.sameRegs t ks)
    (hg : ∀ a ∈ l, ∀ u, s.sameRegs u ks → s.sameRegs (g a u) ks) : s.sameRegs (t.each l g) ks :=
  State.each_keeps (fun u => s.sameRegs u ks) t l g hg ht

/-! The Trail. -/

theorem nextSeq_lt (n : Nat) : nextSeq n < 2 ^ 32 := by
  unfold nextSeq
  split
  · decide
  · exact Nat.mod_lt _ (by decide)

section
variable (s : State) (r : TrailRec)

theorem State.trailWrite_queue : (s.trailWrite r).trail.queue = s.trail.queue := by
  unfold State.trailWrite
  dsimp only
  split <;> simp

theorem State.trailWrite_lost : (s.trailWrite r).trail.lost = s.trail.lost := by
  unfold State.trailWrite
  dsimp only
  split <;> simp

theorem State.trailWrite_slots : (s.trailWrite r).trail.slots = Tab.set slot0 s.trail.slots (s.trailSlot r) (some (s.numbered r)) := by
  unfold State.trailWrite
  dsimp only
  split <;> simp <;> rfl

theorem State.trailWrite_seq : (s.trailWrite r).fld P.trl F.TRL_SEQ_value = nextSeq (s.fld P.trl F.TRL_SEQ_value) := by
  have hwith : ∀ (u : State) a, { u with trail := a }.fld P.trl F.TRL_SEQ_value = u.fld P.trl F.TRL_SEQ_value := fun _ _ => rfl
  have hseq : ((s.setFld P.trl F.TRL_SEQ_value (nextSeq (s.fld P.trl F.TRL_SEQ_value))).event P.trl 0).fld P.trl F.TRL_SEQ_value =
      nextSeq (s.fld P.trl F.TRL_SEQ_value) := by
    rw [State.fld_event_apart _ _ _ (by decide), State.fld_setFld_of_lt _ _ _ (nextSeq_lt _)]
  unfold State.trailWrite
  dsimp only [State.numbered]
  split
  · rw [State.fld_setFld_apart _ _ _ _ (by decide), hwith, hseq]
  · rw [hwith, hwith, hseq]
  · rw [State.fld_setFld_apart _ _ _ _ (by decide), hwith, hseq]

end

section
variable {s : State} {r : TrailRec} {q : List TrailRec} (hq : s.trail.queue = r :: q)
include hq

/-- The write of the oldest record with none lost. -/
theorem State.trailCommit_of_cons (hlost : s.trail.lost = 0) :
    s.trailCommit = ({ s with trail := { s.trail with queue := q } }.trailWrite r).setFlag P.trl F.TRL_STS_busy (!q.isEmpty) := by
  simp only [State.trailCommit, hq, State.trailWrite_lost, State.trailWrite_queue, hlost, if_true]

/-- A LOST record takes the place that the write frees. -/
theorem State.trailCommit_of_lost (hlost : s.trail.lost ≠ 0) (hlen : q.length < 16) :
    s.trailCommit.trail.lost = 0 ∧ ∃ l, s.trailCommit.trail.queue = q ++ [l] ∧ l.typ = 0x0B ∧ l.payload = [s.trail.lost] := by
  simp only [State.trailCommit, hq, State.trailWrite_lost, if_neg hlost, State.trailPut, State.trailWrite_queue, if_pos hlen, State.setFlag, State.setFld_trail,
    true_and]
  exact ⟨_, rfl, rfl, rfl⟩

end

theorem exec_trailRecordCommit (s : State) : exec .trailRecordCommit s = .next s.trailCommit := rfl

/-- Settles O44: the write of the oldest record, the LOST record that follows, and the read of a slot. -/
theorem trailResults : Obligations.TrailResults := by
  unfold Obligations.TrailResults
  intro s rq v
  refine ⟨fun r q hq hlost u k hu hk => ?_, fun r q hq hlost hlen => ⟨_, exec_trailRecordCommit s, State.trailCommit_of_lost hq hlost hlen⟩, fun hq => ?_,
    fun hg => ?_⟩
  · have hslots := State.trailWrite_slots { s with trail := { s.trail with queue := q } } r
    have hslot : State.trailSlot { s with trail := { s.trail with queue := q } } r = k := by
      rw [hk]
      rfl
    rw [hslot] at hslots
    refine ⟨_, exec_trailRecordCommit s, ?_, ?_, fun j hj => ?_, ?_, State.sameBytes_of_mems (State.trailCommit_mem s s.mems_memsOf)⟩
    all_goals rw [State.trailCommit_of_cons hq hlost]
    · rw [State.setFlag, State.setFld_trail, State.trailWrite_queue]
    · rw [State.setFlag, State.setFld_trail, hslots, Tab.get_set_self, hu]
      rfl
    · rw [State.setFlag, State.setFld_trail, hslots, Tab.get_set, if_neg hj]
    · rw [State.fld_setFlag_apart _ _ _ (by decide), State.trailWrite_seq, hu]
      rfl
  · rw [exec_trailRecordCommit, State.trailCommit, hq]
  · have hexec : exec (.trlIdxWrite rq v) s = .next (s.trlIndex v.toNat) := by
      show Host.Outcome.next _ = _
      rw [State.privWrite_of_grants hg]
    refine ⟨_, hexec, ?_, fun i hi => ?_⟩
    · have hother : ∀ i < 16, F.TRL_IDX_slot.apart (F.TRL_REC_dword i) = true := by decide
      unfold State.trlIndex
      dsimp only
      rw [State.fld_each_setFld_other _ fun i hi => fkey_ne_of_apart (hother i (List.mem_range.1 hi)) _ _, State.fld_setFld_self]
      rfl
    · have hother : ∀ i < 16, ∀ j < 16, j ≠ i → (F.TRL_REC_dword i).apart (F.TRL_REC_dword j) = true := by decide
      unfold State.trlIndex
      dsimp only
      rw [State.fld_each_range_setFld hi fun j hj hne => fkey_ne_of_apart (hother i hi j hj hne) _ _]
      rfl

end Sys2Proof.Machine
end

section
/-! Companion cores (07 R178-R180, R188, R192) and spare stores (08 R215-R217). -/
namespace Sys2Proof.Machine

/-! Events and the fault log. -/

theorem State.fld_event_page {f : Fld} {pg q : Nat} (h : pg ≠ q) (hf : f.inside = true) (s : State) (bit : Nat) : (s.event q bit).fld pg f = s.fld pg f :=
  State.fld_event_ne _ _ _ _ _ (fkey_ne_of_page h hf (by decide))

theorem State.fld_setFld64_apart {f lo hi : Fld} (hlo : f.apart lo = true) (hhi : f.apart hi = true) (s : State) (pg q v : Nat) :
    (s.setFld64 q lo hi v).fld pg f = s.fld pg f := by
  rw [State.setFld64, State.fld_setFld_apart _ _ _ _ hhi, State.fld_setFld_apart _ _ _ _ hlo]

theorem bitOf_eq_testBit (v i : Nat) : bitOf v i = v.testBit i := by
  rw [Nat.testBit_eq_decide_div_mod_eq]
  rfl

/-- An event sets its bit. -/
theorem State.bit_event (s : State) (pg : Nat) {bit : Nat} (h : bit < 32) : bitOf ((s.event pg bit).fld pg F.PG_INT_STS) bit = true := by
  rw [State.fld_event_self, bitOf_eq_testBit, Nat.testBit_mod_two_pow, Nat.testBit_or, Nat.testBit_two_pow_self]
  simp [h]

/-- An entry of a fault log changes fields of the log's page alone. -/
theorem State.fld_flog_page {f : Fld} {pg n : Nat} (h : pg ≠ P.ten n 10) (hf : f.inside = true) (s : State) (kind block code detail addr : Nat) :
    (s.flog n kind block code detail addr).fld pg f = s.fld pg f := by
  have hentry : ∀ k i, i < 8 → (F.FL_ENTRY_dword (8 * (k % 64) + i)).inside = true := fun k i hi => by
    simp only [Fld.inside, Bool.and_eq_true, decide_eq_true_eq]
    exact ⟨show 2048 + 4 * (8 * (k % 64) + i) < 4096 by omega, show 0 < 32 by decide⟩
  rw [State.flog]
  rw [State.fld_event_page h hf, State.addFld, State.fld_setFld_page _ _ _ _ h hf (by decide),
    State.fld_each_setFld_other _ fun i hi => fkey_ne_of_page h hf (hentry _ i (List.mem_range.1 hi))]

/-- An entry counts in the log's tail. -/
theorem State.flTail_flog (s : State) (n kind block code detail addr : Nat) :
    (s.flog n kind block code detail addr).fld (P.ten n 10) F.FL_TAIL_count = (s.fld (P.ten n 10) F.FL_TAIL_count + 1) % 2 ^ 32 := by
  have hentry : ∀ k i, i < 8 → F.FL_TAIL_count.apart (F.FL_ENTRY_dword (8 * (k % 64) + i)) = true := fun k i hi => by
    simp only [Fld.apart, Bool.and_eq_true, Bool.or_eq_true, decide_eq_true_eq, bne_iff_ne]
    simp only [F.FL_ENTRY_dword, F.FL_TAIL_count]
    omega
  rw [State.flog]
  rw [State.fld_event_apart _ _ _ (by decide), State.addFld, State.fld_setFld_self,
    State.fld_each_setFld_other _ fun i hi => fkey_ne_of_apart (hentry _ i (List.mem_range.1 hi)) _ _]
  rfl

/-! Companion cores. -/

section Hpc
variable (s : State) (h : Nat)

/-- A grant that holds, or is withdrawn. -/
def State.hpcGrantPut (w : Nat) (v : Bool) : State :=
  (((s.setFld (P.hpc h) F.HPC_GRANT_partition (bits w 0 3)).setFld (P.hpc h) F.HPC_GRANT_tenant (bits w 3 7)).setFlag (P.hpc h)
    F.HPC_GRANT_valid v).setFld (P.hpc h) F.HPC_STS_state (b2n v)

theorem State.hpcGrantPut_fields (w : Nat) (v : Bool) : (s.hpcGrantPut h w v).hpcState h = b2n v ∧ (s.hpcGrantPut h w v).hpcTenant h = bits w 3 7 ∧
    (s.hpcGrantPut h w v).fld (P.hpc h) F.HPC_GRANT_partition = bits w 0 3 ∧ (s.hpcGrantPut h w v).hpcGranted h = v := by
  rw [State.hpcState, State.hpcTenant, State.hpcGranted, State.hpcGrantPut]
  have hv : b2n v < 2 ^ 3 := by cases v <;> decide
  refine ⟨State.fld_setFld_of_lt _ _ _ hv, ?_, ?_, ?_⟩
  · rw [State.fld_setFld_apart _ _ _ _ (by decide), State.fld_setFlag_apart _ _ _ (by decide)]
    exact State.fld_setFld_of_lt _ _ _ (bits_lt _ _ _)
  · rw [State.fld_setFld_apart _ _ _ _ (by decide), State.fld_setFlag_apart _ _ _ (by decide), State.fld_setFld_apart _ _ _ _ (by decide)]
    exact State.fld_setFld_of_lt _ _ _ (bits_lt _ _ _)
  · rw [State.flag_setFld_apart _ _ _ _ (by decide), State.flag_setFlag_self _ _ (by decide)]

/-- The fields of the end of a program. -/
theorem State.hpcEnd_fields {st code cause tval : Nat} (hst : st < 8) (hcode : code < 2 ^ 16) (hcause : cause < 2 ^ 8) :
    (s.hpcEnd h st code cause tval).hpcState h = st ∧ (s.hpcEnd h st code cause tval).fld (P.hpc h) F.HPC_EXIT_code = code ∧
      (s.hpcEnd h st code cause tval).fld (P.hpc h) F.HPC_EXIT_cause = cause ∧ (s.hpcEnd h st code cause tval).flag (P.hpc h) F.HPC_EXIT_valid = true := by
  rw [State.hpcState, State.hpcEnd]
  simp (disch := decide) only [State.flag, State.setFld64, State.fld_event_apart, State.fld_setFld_apart, State.fld_setFlag_apart,
    State.fld_setFlag_self, State.fld_setFld_self]
  exact ⟨Nat.mod_eq_of_lt hst, Nat.mod_eq_of_lt hcode, Nat.mod_eq_of_lt hcause, rfl⟩

theorem State.hpcEnd_tval (st code cause : Nat) {tval : Nat} (ht : tval < 2 ^ 64) :
    (s.hpcEnd h st code cause tval).fld64 (P.hpc h) F.HPC_TVAL_LO_tval F.HPC_TVAL_HI_tval = tval := by
  have hlo := State.fld64_setFld64 ((((s.setFld (P.hpc h) F.HPC_STS_state st).setFld (P.hpc h) F.HPC_EXIT_code code).setFld (P.hpc h) F.HPC_EXIT_cause cause).setFlag
    (P.hpc h) F.HPC_EXIT_valid true) (P.hpc h) (lo := F.HPC_TVAL_LO_tval) (hi := F.HPC_TVAL_HI_tval) (by decide) rfl rfl tval
  rw [Nat.mod_eq_of_lt ht] at hlo
  refine Eq.trans ?_ hlo
  rw [State.hpcEnd, State.fld64, State.fld_event_apart _ _ _ (by decide), State.fld_event_apart _ _ _ (by decide)]
  rfl

theorem State.hpcEnd_bit (st code cause tval : Nat) :
    bitOf ((s.hpcEnd h st code cause tval).fld (P.hpc h) F.PG_INT_STS) (if st = 4 then 1 else 0) = true := by
  rw [State.hpcEnd]
  exact State.bit_event _ _ (by split <;> decide)

theorem State.hpcEnd_granted (st code cause tval : Nat) : (s.hpcEnd h st code cause tval).hpcGranted h = s.hpcGranted h := by
  rw [State.hpcGranted, State.hpcEnd]
  simp (disch := decide) only [State.flag, State.setFld64, State.fld_event_apart, State.fld_setFld_apart, State.fld_setFlag_apart, State.hpcGranted]

/-- The end of a program leaves every field of another page. -/
theorem State.fld_hpcEnd_page {f : Fld} {pg : Nat} (hpg : pg ≠ P.hpc h) (hf : f.inside = true) (st code cause tval : Nat) :
    (s.hpcEnd h st code cause tval).fld pg f = s.fld pg f := by
  rw [State.hpcEnd]
  rw [State.fld_event_page hpg hf, State.setFld64, State.fld_setFld_page _ _ _ _ hpg hf (by decide), State.fld_setFld_page _ _ _ _ hpg hf (by decide),
    State.setFlag, State.fld_setFld_page _ _ _ _ hpg hf (by decide), State.fld_setFld_page _ _ _ _ hpg hf (by decide),
    State.fld_setFld_page _ _ _ _ hpg hf (by decide), State.fld_setFld_page _ _ _ _ hpg hf (by decide)]

end Hpc

theorem P.hpc_ne_ten (h : Fin 16) (n k : Nat) : P.hpc h ≠ P.ten n k := by
  rw [P.hpc, P.ten]
  omega

/-- The end of a running program by an exception: its fields, and the entry in its tenant's fault log. -/
def HpcFaulted (s : State) (h : Fin 16) (cause tval : Nat) (t : State) : Prop :=
  t.hpcState h = 4 ∧ t.fld (P.hpc h) F.HPC_EXIT_cause = cause ∧ t.fld64 (P.hpc h) F.HPC_TVAL_LO_tval F.HPC_TVAL_HI_tval = tval ∧
    t.flag (P.hpc h) F.HPC_EXIT_valid = true ∧ bitOf (t.fld (P.hpc h) F.PG_INT_STS) 1 = true ∧
    t.fld (P.ten (s.hpcTenant h) 10) F.FL_TAIL_count = (s.fld (P.ten (s.hpcTenant h) 10) F.FL_TAIL_count + 1) % 2 ^ 32

theorem hpcFaulted_flog (s : State) (h : Fin 16) {cause tval : Nat} (hc : cause < 2 ^ 8) (ht : tval < 2 ^ 64) (kind block code detail addr : Nat) :
    HpcFaulted s h cause tval ((s.hpcEnd h 4 0 cause tval).flog (s.hpcTenant h) kind block code detail addr) := by
  obtain ⟨hst, -, hcause, hvalid⟩ := s.hpcEnd_fields h (st := 4) (code := 0) (tval := tval) (by decide) (by decide) hc
  have hne := P.hpc_ne_ten h (s.hpcTenant h) 10
  have hflog : ∀ {f : Fld}, f.inside = true → ∀ u : State, (u.flog (s.hpcTenant h) kind block code detail addr).fld (P.hpc h) f = u.fld (P.hpc h) f :=
    fun hf u => State.fld_flog_page hne hf u _ _ _ _ _
  refine ⟨?_, ?_, ?_, ?_, ?_, ?_⟩
  · rw [State.hpcState, hflog (by decide)]
    exact hst
  · rw [hflog (by decide), hcause]
  · rw [State.fld64, hflog (by decide), hflog (by decide)]
    exact s.hpcEnd_tval h _ _ _ ht
  · rw [State.flag, hflog (by decide)]
    exact hvalid
  · rw [hflog (by decide)]
    exact s.hpcEnd_bit h 4 _ _ _
  · rw [State.flTail_flog, State.fld_hpcEnd_page _ _ (Ne.symm hne) (by decide)]

theorem causeCode_lt (c : CompanionCause) : causeCode c < 2 ^ 8 := by cases c <;> decide

/-- What a companion's exception leaves. -/
theorem hpcFaulted_hpcFault {s : State} {h : Fin 16} (hh : 4 ≤ h.val) (hrun : s.hpcState h = 2) (c : CompanionCause) {tval : Nat} (ht : tval < 2 ^ 64) :
    HpcFaulted s h (causeCode c) tval (s.hpcFault h c tval) := by
  have hcond : ¬(h.val < 4 ∨ s.hpcState h ≠ 2) := by omega
  rw [State.hpcFault, if_neg hcond]
  dsimp only
  split
  · exact hpcFaulted_flog s h (causeCode_lt c) ht _ _ _ _ _
  · exact hpcFaulted_flog s h (causeCode_lt c) ht _ _ _ _ _

section Program
variable (s : State) {h : Fin 16} (hh : 4 ≤ h.val)
include hh

theorem exec_companionEcall (a7 a0 : Dword) : exec (.companionEcall h a7 a0) s = .next (if s.hpcState h ≠ 2 then s
    else if a7 = 0 then s.hpcEnd h 3 (a0.toNat % 65536) 0 0 else (s.hpcEnd h 4 0 7 0).flog (s.hpcTenant h) 4 0x04 7 h 0) := by
  have hiff : (h.val < 4 ∨ s.hpcState h ≠ 2) ↔ s.hpcState h ≠ 2 := or_iff_right (by omega)
  show Host.Outcome.next _ = _
  simp only [hiff]

theorem exec_companionException (c : CompanionCause) (tval : Dword) : exec (.companionException h c tval) s = .next (s.hpcFault h c tval.toNat) := by
  show Host.Outcome.next _ = _
  rw [if_neg (by omega)]

theorem State.hpcGrant_eq (rq : Requester) (w : Nat) (hbusy : s.hpcBusy h = false) : s.hpcGrant rq h w =
    if bitOf w 10 then if !s.hpcShared (bits w 0 3) h || !s.bound (bits w 3 7) || s.tnPart (bits w 3 7) != bits w 0 3
      then s.countErr (P.hpc h) 0x40 (rqCode rq) (accessAddr rq (P.hpc h) 0x044) else s.hpcGrantPut h w true
    else s.hpcGrantPut h w false := by
  unfold State.hpcGrant
  dsimp only
  rw [if_neg (by omega), hbusy]
  rfl

end Program

/-- HPC_START of a granted core that runs no program. -/
theorem completes_hpcStart {s : State} {rq : Requester} {h : Fin 16} (hh : 4 ≤ h.val) (hg : s.grants rq (P.hpc h) = true) (hgr : s.hpcGranted h = true)
    (hst : s.hpcState h = 1 ∨ s.hpcState h = 3 ∨ s.hpcState h = 4) : Completes (.hpcStart rq h) s fun t =>
      t.hpcState h = 2 ∧ t.flag (P.hpc h) F.HPC_EXIT_valid = false ∧ s.sameRegs t [fkey (P.hpc h) F.HPC_STS_state, fkey (P.hpc h) F.HPC_EXIT_valid] := by
  refine ⟨_, exec_hpcStart_of_grants hg, ?_⟩
  rw [State.hpcStart, if_pos ⟨hh, hgr, hst⟩]
  refine ⟨?_, State.flag_setFlag_self _ _ (by decide) _, ?_⟩
  · rw [State.hpcState, State.fld_setFlag_apart _ _ _ (by decide), State.fld_setFld_of_lt _ _ _ (by decide)]
  · exact ((State.sameRegs_of_regs rfl _).setFld (by simp) _).setFld (by simp) _

/-- HPC_STOP of a running program. -/
theorem completes_hpcStop {s : State} {rq : Requester} {h : Fin 16} (hh : 4 ≤ h.val) (hg : s.grants rq (P.hpc h) = true) (hrun : s.hpcState h = 2) :
    Completes (.hpcStop rq h) s fun t => t.hpcState h = 5 ∧ Tab.get nat0 t.hpcCause h = 4 ∧ s.sameRegs t [fkey (P.hpc h) F.HPC_STS_state] := by
  refine ⟨_, exec_hpcStop_of_grants hg, ?_⟩
  rw [State.hpcStop, if_pos ⟨hh, hrun⟩]
  have hcause : Tab.get nat0 (Tab.set nat0 s.hpcCause h 4) h = 4 := Tab.get_set_self _ _ _ _
  exact ⟨State.fld_setFld_of_lt _ _ _ (by decide), hcause, (State.sameRegs_of_regs rfl _).setFld (by simp) _⟩

/-- The end of a stopping program. -/
theorem hpcStopped_fields {s : State} {h : Nat} (hst : s.hpcState h = 5) (hcause : Tab.get nat0 s.hpcCause h ≠ 6) :
    (s.hpcStopped h).hpcState h = 3 ∧ (s.hpcStopped h).fld (P.hpc h) F.HPC_EXIT_cause = Tab.get nat0 s.hpcCause h % 256 ∧
      (s.hpcStopped h).hpcGranted h = s.hpcGranted h ∧ Tab.get nat0 (s.hpcStopped h).hpcCause h = 0 := by
  simp only [State.hpcStopped, hst, ne_eq, not_true_eq_false, if_false, if_neg hcause]
  generalize hu : { s with hpcCause := Tab.set nat0 s.hpcCause h 0 } = u
  have hgr : u.hpcGranted h = s.hpcGranted h := by
    rw [← hu]
    rfl
  refine ⟨?_, ?_, (State.hpcEnd_granted _ _ _ _ _ _).trans hgr, ?_⟩
  · rw [State.hpcState, State.hpcEnd]
    simp (disch := decide) only [State.setFld64, State.fld_event_apart, State.fld_setFld_apart, State.fld_setFlag_apart, State.fld_setFld_self]
    rfl
  · rw [State.hpcEnd]
    simp (disch := decide) only [State.setFld64, State.fld_event_apart, State.fld_setFld_apart, State.fld_setFlag_apart, State.fld_setFld_self]
    rfl
  · have hkeep : (u.hpcEnd h 3 0 (Tab.get nat0 s.hpcCause h) 0).hpcCause = u.hpcCause := by
      rw [State.hpcEnd, State.event_hpcCause]
      rfl
    rw [hkeep, ← hu]
    exact Tab.get_set_self nat0 s.hpcCause h 0

/-- The end of a program stopped by its partition's reset or dissolution takes the grant away. -/
theorem hpcStopped_freed {s : State} {h : Nat} (hst : s.hpcState h = 5) (hcause : Tab.get nat0 s.hpcCause h = 6) :
    (s.hpcStopped h).hpcState h = 0 ∧ (s.hpcStopped h).hpcGranted h = false := by
  simp only [State.hpcStopped, hst, ne_eq, not_true_eq_false, if_false, hcause, if_true, State.hpcFree]
  refine ⟨State.fld_setFld_of_lt _ _ _ (by decide), ?_⟩
  rw [State.hpcGranted, State.flag_setFld_apart _ _ _ _ (by decide), State.flag_setFlag_self _ _ (by decide)]

/-! Spare stores. -/

section Spare
variable (x v : Nat)

/-- One store takes its new assignment and is cleared. -/
def State.spareTake (k : Nat) (s : State) : State :=
  ((s.setFld (P.sto x) (spareTnFld k) (spareVal v k % 128)).setFld (P.sto x) (spareOkFld k) (spareVal v k / 128)).clearSpare x k

theorem spareVal_lt (k : Nat) : spareVal v k < 256 := bits_lt _ _ _

theorem spareFlds_apart : ∀ j < 3, ∀ k < 3, (spareTnFld j).apart (spareOkFld k) = true ∧ (spareOkFld k).apart (spareTnFld j) = true ∧
    (j ≠ k → (spareTnFld j).apart (spareTnFld k) = true ∧ (spareOkFld j).apart (spareOkFld k) = true) := by decide

theorem State.spareNow_spareTake (s : State) {j k : Nat} (hj : j < 3) (hk : k < 3) :
    (s.spareTake x v k).spareNow x j = if j = k then spareVal v j else s.spareNow x j := by
  have hclear : ∀ (u : State) f, (u.clearSpare x k).fld (P.sto x) f = u.fld (P.sto x) f := fun _ _ => rfl
  have htn : (spareTnFld k).len = 7 := by
    have h : ∀ k < 3, (spareTnFld k).len = 7 := by decide
    exact h k hk
  have hok : (spareOkFld k).len = 1 := by
    have h : ∀ k < 3, (spareOkFld k).len = 1 := by decide
    exact h k hk
  obtain ⟨-, hokTn, -⟩ := spareFlds_apart k hk j hj
  obtain ⟨htnOk, -, hne⟩ := spareFlds_apart j hj k hk
  rw [State.spareTake, State.spareNow, hclear, hclear, State.fld_setFld_apart _ _ _ _ htnOk]
  split
  · next heq =>
    subst heq
    have := spareVal_lt v j
    rw [State.fld_setFld_self, State.fld_setFld_self, htn, hok]
    omega
  · next hjk =>
    obtain ⟨htt, hoo⟩ := hne hjk
    rw [State.fld_setFld_apart _ _ _ _ htt, State.fld_setFld_apart _ _ _ _ hoo, State.fld_setFld_apart _ _ _ _ hokTn, State.spareNow]

/-- The new assignments of a list of stores. -/
theorem State.spareNow_each_spareTake {l : List Nat} (hl : ∀ k ∈ l, k < 3) (s : State) {j : Nat} (hj : j < 3) :
    (s.each l (State.spareTake x v)).spareNow x j = if j ∈ l then spareVal v j else s.spareNow x j := by
  induction l generalizing s with
  | nil => simp
  | cons k l ih =>
    rw [State.each_cons, ih (fun i hi => hl i (List.mem_cons_of_mem _ hi)), State.spareNow_spareTake x v s hj (hl k (List.mem_cons_self ..))]
    by_cases hjl : j ∈ l <;> by_cases hjk : j = k <;> simp [hjl, hjk]

/-- The bytes that the new assignments of a list of stores clear. -/
theorem State.stores_each_spareTake (l : List Nat) (s : State) (a : Nat) : (s.each l (State.spareTake x v)).stores.rd a =
    if ∃ k ∈ l, stoKey x (storeBase k) ≤ a ∧ a < stoKey x (storeBase k) + storeLen k then 0 else s.stores.rd a := by
  induction l generalizing s with
  | nil => simp
  | cons k l ih =>
    have htake : (s.spareTake x v k).stores.rd a = if stoKey x (storeBase k) ≤ a ∧ a < stoKey x (storeBase k) + storeLen k then 0 else s.stores.rd a :=
      Mem.rd_clear _ _ _ _
    rw [State.each_cons, ih, htake]
    simp only [List.exists_mem_cons_iff]
    split <;> split <;> simp_all

theorem State.each_spareTake_keeps (l : List Nat) (s : State) :
    (s.each l (State.spareTake x v)).hmp = s.hmp ∧ (s.each l (State.spareTake x v)).slices = s.slices :=
  State.each_keeps (fun u => u.hmp = s.hmp ∧ u.slices = s.slices) s l _ (fun _ _ _ hu => hu) ⟨rfl, rfl⟩

/-- The fields of the assignments are kept by the end of the pending change. -/
theorem State.spareNow_taken (s : State) {k : Nat} (hk : k < 3) : ((s.setSparePending x none).event (P.sto x) 0).spareNow x k = s.spareNow x k := by
  have hfld : ∀ f : Fld, f.own = true → f.apart F.STO_STS_assign_pending = true → ((s.setSparePending x none).event (P.sto x) 0).fld (P.sto x) f = s.fld (P.sto x) f :=
    fun f hf h => by
      rw [State.fld_event_own hf, State.setSparePending, State.fld_setFlag_apart _ _ _ h]
      rfl
  have hall : ∀ k < 3, (spareTnFld k).own = true ∧ (spareTnFld k).apart F.STO_STS_assign_pending = true ∧ (spareOkFld k).own = true ∧
      (spareOkFld k).apart F.STO_STS_assign_pending = true := by decide
  obtain ⟨ht, ht', ho, ho'⟩ := hall k hk
  rw [State.spareNow, hfld _ ht ht', hfld _ ho ho', State.spareNow]

end Spare

theorem State.sparePending_setSparePending (s : State) (x y : Nat) (v : Option Nat) :
    (s.setSparePending x v).sparePending y = if y = x then v else s.sparePending y := by
  rw [State.sparePending, State.setSparePending, State.setFlag, State.setFld_sparePend, Tab.get_set, State.sparePending]

/-- The stores whose assignment a pending change alters. -/
def State.spareChanged (s : State) (x v : Nat) : List Nat := [0, 1, 2].filter fun k => s.spareNow x k != spareVal v k

theorem State.mem_spareChanged (s : State) (x v k : Nat) : k ∈ s.spareChanged x v ↔ k < 3 ∧ s.spareNow x k ≠ spareVal v k := by
  rw [State.spareChanged, List.mem_filter, bne_iff_ne]
  have : k ∈ [0, 1, 2] ↔ k < 3 := by
    simp only [List.mem_cons, List.not_mem_nil, or_false]
    omega
  rw [this]

/-- A pending change that nothing holds back takes effect. -/
theorem exec_spareAssignTakeEffect {s : State} {x : Fin 512} {v : Nat} (hv : s.sparePending x = some v) (htest : s.storesTested x = false)
    (hrun : ∀ k, k < 3 → s.spareNow x k ≠ spareVal v k → s.spareNow x k < 128 ∨ s.tenantRuns (s.spareNow x k % 128) (x / 8) = false) :
    exec (.spareAssignTakeEffect x) s = .next (((s.each (s.spareChanged x v) (State.spareTake x v)).setSparePending x none).event (P.sto x) 0) := by
  have hheld : ((s.spareChanged x v).any fun k => decide (128 ≤ s.spareNow x k) && s.tenantRuns (s.spareNow x k % 128) (x / 8)) = false := by
    rw [List.any_eq_false]
    intro k hk
    obtain ⟨hk3, hne⟩ := (s.mem_spareChanged x v k).1 hk
    rcases hrun k hk3 hne with hfree | hidle
    · simp [Nat.not_le.2 hfree]
    · simp [hidle]
  show Host.Outcome.next _ = _
  rw [hv]
  dsimp only
  rw [State.spareChanged] at hheld
  rw [hheld, htest]
  rfl

theorem spareAssignTakeEffect {s : State} {x : Fin 512} {v : Nat} (hv : s.sparePending x = some v) (htest : s.storesTested x = false)
    (hrun : ∀ k, k < 3 → s.spareNow x k ≠ spareVal v k → s.spareNow x k < 128 ∨ s.tenantRuns (s.spareNow x k % 128) (x / 8) = false) :
    Completes (.spareAssignTakeEffect x) s fun t => t.sparePending x = none ∧ t.flag (P.sto x) F.STO_STS_assign_pending = false ∧
      (∀ k, k < 3 → t.spareNow x k = spareVal v k) ∧ t.hmp = s.hmp ∧ t.slices = s.slices ∧
      (∀ k, k < 3 → s.spareNow x k ≠ spareVal v k → ∀ a, stoKey x (storeBase k) ≤ a → a < stoKey x (storeBase k) + storeLen k → t.stores.rd a = 0) ∧
      ∀ a, (∀ k, k < 3 → s.spareNow x k ≠ spareVal v k → a < stoKey x (storeBase k) ∨ stoKey x (storeBase k) + storeLen k ≤ a) →
        t.stores.rd a = s.stores.rd a := by
  have hmem := s.mem_spareChanged x v
  have hnow := fun k (hk : k < 3) => State.spareNow_each_spareTake x v (fun j hj => ((hmem j).1 hj).1) s hk
  have hrd := State.stores_each_spareTake x v (s.spareChanged x v) s
  obtain ⟨hhmp, hslices⟩ := State.each_spareTake_keeps x v (s.spareChanged x v) s
  refine ⟨_, exec_spareAssignTakeEffect hv htest hrun, ?_⟩
  generalize s.each (s.spareChanged x v) (State.spareTake x v) = u at hnow hrd hhmp hslices
  refine ⟨?_, ?_, fun k hk => ?_, ?_, ?_, fun k hk hne a hlo hhi => ?_, fun a ha => ?_⟩
  · rw [State.sparePending, State.event_sparePend, ← State.sparePending, State.sparePending_setSparePending, if_pos rfl]
  · rw [State.flag_event_apart _ _ _ (by decide)]
    exact State.flag_setFlag_self _ _ (by decide) _
  · rw [State.spareNow_taken x _ hk, hnow k hk]
    split
    · rfl
    · next hno =>
      by_contra hne
      exact hno ((hmem k).2 ⟨hk, hne⟩)
  · rw [State.event_hmp]
    exact hhmp
  · rw [State.event_slices]
    exact hslices
  · rw [State.event_stores]
    exact (hrd a).trans (if_pos ⟨k, (hmem k).2 ⟨hk, hne⟩, hlo, hhi⟩)
  · rw [State.event_stores]
    refine (hrd a).trans (if_neg ?_)
    rintro ⟨k, hk, hlo, hhi⟩
    obtain ⟨hk3, hne⟩ := (hmem k).1 hk
    have := ha k hk3 hne
    omega

/-- A pending assignment whose stores are valid for their tenants. -/
theorem spareAssignWrite_pending {s : State} {rq : Requester} {x : Fin 512} {w : Word} (hg : s.grants rq (P.sto x) = true) (hx : s.isSpare x = true)
    (hgood : ∀ k, k < 3 → bitOf (spareVal w.toNat k) 7 = true →
      s.bound (spareVal w.toNat k % 128) = true ∧ s.cluPart (x / 8) = some (s.tnPart (spareVal w.toNat k % 128))) :
    Completes (.spareAssignWrite rq x w) s fun t => t.sparePending x = some (w.toNat % 2 ^ 24) ∧ t.flag (P.sto x) F.STO_STS_assign_pending = true ∧
      s.sameRegs t [fkey (P.sto x) F.STO_STS_assign_pending] ∧ ∀ y, y ≠ x.val → t.sparePending y = s.sparePending y := by
  have hbad : ∀ k, k < 3 → (bitOf (spareVal w.toNat k) 7 &&
      !(s.bound (spareVal w.toNat k % 128) && s.cluPart (x / 8) == some (s.tnPart (spareVal w.toNat k % 128)))) = false := fun k hk => by
    cases hv : bitOf (spareVal w.toNat k) 7
    · rfl
    · obtain ⟨hb, hp⟩ := hgood k hk hv
      rw [hb, hp]
      simp
  have hexec : exec (.spareAssignWrite rq x w) s = .next (s.setSparePending x (some (w.toNat % 2 ^ 24))) := by
    show Host.Outcome.next _ = _
    rw [State.tileWrite_of_grants hg, State.spareWrite]
    simp only [hx, hbad 0 (by decide), hbad 1 (by decide), hbad 2 (by decide), Bool.not_true, Bool.or_self, Bool.false_eq_true, if_false]
  exact ⟨_, hexec, (State.sparePending_setSparePending _ _ _ _).trans (if_pos rfl), State.flag_setFlag_self _ _ (by decide) _, (State.sameRegs_of_regs rfl _).setFld (by simp) _,
    fun y hy => (State.sparePending_setSparePending _ _ _ _).trans (if_neg hy)⟩

/-- Settles O49: the grant of a companion core and the ends of its program; the pending assignment of a spare's stores, and the stores it clears. -/
theorem companionsAndSpares : Obligations.CompanionsAndSpares := by
  unfold Obligations.CompanionsAndSpares
  refine ⟨fun s rq h w a7 a0 tval c hh => ⟨?grants, fun hrun => ⟨?exit, fun ha7 => ?ecall, ?exception⟩, fun hrun => ?idle,
    fun hstop => ⟨fun hc => ⟨_, rfl, hpcStopped_fields hstop hc⟩, fun hc => ⟨_, rfl, hpcStopped_freed hstop hc⟩⟩,
    fun hstop => congrArg Host.Outcome.next (if_pos hstop)⟩, fun s rq x w => ⟨fun hg => ⟨spareAssignWrite_pending hg, fun hx => ?notSpare⟩,
    fun v hv _ htest hrun => spareAssignTakeEffect hv htest hrun, fun hv => ?notPending, fun htest => ?tested⟩⟩
  case grants =>
    rintro hg _ _ rfl rfl
    have hgrant : ∀ v, s.hpcBusy h = false → s.hpcGrant rq h w.toNat = s.hpcGrantPut h w.toNat v →
        exec (.hpcGrantWrite rq h w) s = .next (s.hpcGrantPut h w.toNat v) := fun v _ heq => by
      rw [exec_hpcGrantWrite_of_grants hg, heq]
    refine ⟨fun hbusy hv hshare hbound hpart => ?_, fun hbusy hv => ?_, fun hbusy => ?_, fun hbusy hv hbad => ?_,
      completes_hpcStart hh hg, fun hno => ?_, completes_hpcStop hh hg, fun hrun => ?_⟩
    · obtain ⟨hst, htn, hp, hgr⟩ := s.hpcGrantPut_fields h w.toNat true
      refine ⟨_, hgrant true hbusy ?_, hst, htn, hp, hgr, ?_⟩
      · rw [State.hpcGrant_eq s hh rq _ hbusy, hv, hshare, hbound, hpart]
        simp
      · exact ((((State.sameRegs.refl s _).setFld (by simp) _).setFld (by simp) _).setFld (by simp) _).setFld (by simp) _
    · obtain ⟨hst, -, -, hgr⟩ := s.hpcGrantPut_fields h w.toNat false
      refine ⟨_, hgrant false hbusy ?_, hst, hgr⟩
      rw [State.hpcGrant_eq s hh rq _ hbusy, hv]
      rfl
    · rw [exec_hpcGrantWrite_of_grants hg, State.hpcGrant_of_busy s rq h _ hh hbusy]
    · have hcond : (!s.hpcShared (bits w.toNat 0 3) h || !s.bound (bits w.toNat 3 7) || s.tnPart (bits w.toNat 3 7) != bits w.toNat 0 3) = true := by
        rcases hbad with hbad | hbad | hbad <;> simp [hbad]
      rw [exec_hpcGrantWrite_of_grants hg, State.hpcGrant_eq s hh rq _ hbusy, if_pos hv, if_pos hcond]
    · rw [exec_hpcStart_of_grants hg, State.hpcStart, if_neg]
      rintro ⟨-, hyes, -⟩
      exact absurd hyes (by rw [hno]; decide)
    · rw [exec_hpcStop_of_grants hg, State.hpcStop_of_notRunning s h 4 hrun]
  case exit =>
    obtain ⟨hst, hcode, hcause, hvalid⟩ := s.hpcEnd_fields h (st := 3) (code := a0.toNat % 65536) (cause := 0) (tval := 0) (by decide)
      (Nat.mod_lt _ (by decide)) (by decide)
    refine ⟨s.hpcEnd h 3 (a0.toNat % 65536) 0 0, ?_, hst, hcode, hcause, hvalid, s.hpcEnd_bit h 3 _ _ _,
      State.sameBytes_of_mems (State.hpcEnd_mem s h _ _ _ _ s.mems_memsOf)⟩
    rw [exec_companionEcall s hh, if_neg (not_not.2 hrun), if_pos rfl]
  case ecall =>
    obtain ⟨hst, hcause, -, -, hbit, -⟩ := hpcFaulted_flog s h (cause := 7) (tval := 0) (by decide) (by decide) 4 0x04 7 h 0
    refine ⟨_, ?_, hst, hcause, hbit⟩
    rw [exec_companionEcall s hh, if_neg (not_not.2 hrun), if_neg ha7]
  case exception =>
    obtain ⟨hst, hcause, htval, hvalid, -, htail⟩ := hpcFaulted_hpcFault hh hrun c tval.isLt
    exact ⟨_, exec_companionException s hh c tval, hst, hcause, htval, hvalid, fun _ => htail⟩
  case idle =>
    rw [exec_companionEcall s hh, exec_companionException s hh, State.hpcFault, if_pos hrun, if_pos (.inr hrun)]
    exact ⟨rfl, rfl⟩
  case notSpare =>
    show Host.Outcome.next _ = _
    rw [State.tileWrite_of_grants hg, State.spareWrite, hx]
    rfl
  case notPending =>
    show Host.Outcome.next _ = _
    rw [hv]
  case tested =>
    show Host.Outcome.next _ = _
    split
    · rfl
    · dsimp only
      rw [htest, Bool.or_true, if_pos rfl]

end Sys2Proof.Machine
end

section
/-! What Trail records, counted errors and saturating counters leave; the pages of a core. -/
namespace Sys2Proof.Machine

/-! Registers, messages and the Trail. -/

/-- `t` is `s` but for registers, MSI-X state, what was sent and the Trail. -/
def State.NotesOnly (s t : State) : Prop := ∃ r f o x i l, t = { s with regs := r, fns := f, outs := o, transit := x, ideSent := i, trail := l }

theorem State.RegsOnly.notes {s t : State} (h : s.RegsOnly t) : s.NotesOnly t := by
  obtain ⟨r, f, o, x, i, rfl⟩ := h
  exact ⟨r, f, o, x, i, _, rfl⟩

theorem State.NotesOnly.refl (s : State) : s.NotesOnly s := (State.RegsOnly.refl s).notes

theorem State.NotesOnly.trans {s t u : State} (h1 : s.NotesOnly t) (h2 : t.NotesOnly u) : s.NotesOnly u := by
  obtain ⟨_, _, _, _, _, _, rfl⟩ := h1
  obtain ⟨r, f, o, x, i, l, rfl⟩ := h2
  exact ⟨r, f, o, x, i, l, rfl⟩

theorem State.NotesOnly.each {α : Type} {s t : State} (h : s.NotesOnly t) {l : List α} {g : α → State → State} (hg : ∀ a ∈ l, ∀ u : State, u.NotesOnly (g a u)) :
    s.NotesOnly (t.each l g) :=
  State.each_keeps (fun u => s.NotesOnly u) t l g (fun a ha u hu => hu.trans (hg a ha u)) h

section
variable {s t : State} (h : s.NotesOnly t)
include h

theorem State.NotesOnly.mems : t.hmp = s.hmp ∧ t.stores = s.stores ∧ t.slices = s.slices := by
  obtain ⟨_, _, _, _, _, _, rfl⟩ := h
  exact ⟨rfl, rfl, rfl⟩

theorem State.NotesOnly.sameBytes : s.sameBytes t := by
  obtain ⟨h1, h2, h3⟩ := h.mems
  exact State.sameBytes_of_eq h1 h2 h3

end

theorem State.trailPut_notes (s : State) (typ block sev : Nat) (payload : List Nat) : s.NotesOnly (s.trailPut typ block sev payload) :=
  ⟨_, _, _, _, _, _, State.trailPut_eq s typ block sev payload⟩

/-! Fields of other pages. -/

section
variable {f : Fld} {pg q : Nat} (hpg : pg ≠ q) (hf : f.inside = true)
include hpg hf

theorem State.fld_setFlag_page {g : Fld} (hg : g.inside = true) (s : State) (b : Bool) : (s.setFlag q g b).fld pg f = s.fld pg f :=
  State.fld_setFld_page _ _ _ _ hpg hf hg

theorem State.fld_satFld_page {g : Fld} (hg : g.inside = true) (s : State) (n : Nat) : (s.satFld q g n).fld pg f = s.fld pg f :=
  State.fld_setFld_page _ _ _ _ hpg hf hg

theorem State.fld_countErr_page (s : State) (code rq addr : Nat) : (s.countErr q code rq addr).fld pg f = s.fld pg f := by
  refine State.fld_countErr_ne _ _ _ _ _ _ _ ?_
  simp only [errKeys, List.mem_cons, List.not_mem_nil, or_false, not_or]
  exact ⟨fkey_ne_of_page hpg hf (by decide), fkey_ne_of_page hpg hf (by decide), fkey_ne_of_page hpg hf (by decide), fkey_ne_of_page hpg hf (by decide),
    fkey_ne_of_page hpg hf (by decide), fkey_ne_of_page hpg hf (by decide), fkey_ne_of_page hpg hf (by decide)⟩

end

/-- A Trail record changes fields of the Trail's page alone. -/
theorem State.fld_trailPut_page {f : Fld} {pg : Nat} (hpg : pg ≠ P.trl) (hf : f.inside = true) (s : State) (typ block sev : Nat) (payload : List Nat) :
    (s.trailPut typ block sev payload).fld pg f = s.fld pg f := by
  unfold State.trailPut
  split
  · exact State.fld_setFlag_page hpg hf (by decide) _ _
  · rw [State.fld_event_page hpg hf, State.fld_satFld_page hpg hf (by decide)]
    rfl

theorem State.flag_of_fld {s t : State} {pg : Nat} {f : Fld} (h : t.fld pg f = s.fld pg f) : t.flag pg f = s.flag pg f := by
  rw [State.flag, h, State.flag]

/-! Saturating counters. -/

theorem satAdd_lt (w v n : Nat) : satAdd w v n < 2 ^ w := lt_of_le_of_lt (Nat.min_le_left _ _) (Nat.sub_lt (Nat.two_pow_pos _) Nat.one_pos)

theorem State.fld_satFld_self (s : State) (pg : Nat) (f : Fld) (n : Nat) : (s.satFld pg f n).fld pg f = satAdd f.len (s.fld pg f) n :=
  State.fld_setFld_of_lt _ _ _ (satAdd_lt _ _ _)

theorem State.fld_satFld_apart {f g : Fld} (h : f.apart g = true) (s : State) (p q n : Nat) : (s.satFld q g n).fld p f = s.fld p f :=
  State.fld_setFld_apart _ _ _ _ h

/-! Event bits. -/

/-- An event leaves the bits that are set. -/
theorem State.bit_event_of_bit {s : State} {pg i : Nat} (h : bitOf (s.fld pg F.PG_INT_STS) i = true) (hi : i < 32) (q bit : Nat) :
    bitOf ((s.event q bit).fld pg F.PG_INT_STS) i = true := by
  rw [State.fld_event]
  split
  · next hkey =>
    have hpg : pg = q := by
      simp only [fkey] at hkey
      omega
    rw [← hpg, bitOf_eq_testBit, Nat.testBit_mod_two_pow, Nat.testBit_or, ← bitOf_eq_testBit, h]
    simp [hi]
  · exact h

/-! The pages of a physical core. -/

theorem P.corePg_inj {x y j k : Nat} (hj : j < 8) (hk : k < 8) (h : P.corePg x j = P.corePg y k) : x = y ∧ j = k := by
  simp only [P.corePg, P.clu] at h
  omega

theorem P.slc_ne_trl (x : Nat) : P.slc x ≠ P.trl := by simp only [P.slc, P.corePg, P.clu, P.trl]; omega
theorem P.slc_ne {x y : Nat} (h : x ≠ y) : P.slc x ≠ P.slc y := fun he => h (P.corePg_inj (by decide) (by decide) he).1
theorem P.slc_ne_scbP (x y : Nat) : P.slc x ≠ P.scbP y := fun he => absurd (P.corePg_inj (by decide) (by decide) he).2 (by decide)
theorem P.scbP_ne_trl (x : Nat) : P.scbP x ≠ P.trl := by simp only [P.scbP, P.corePg, P.clu, P.trl]; omega

end Sys2Proof.Machine
end

section
/-! Memory slices (09 R227-R237; 13 R315, R319). -/
namespace Sys2Proof.Machine

/-! The memory of the slices. -/

section
variable (m : SMem) (a : Nat) (bs : List Byte) (ep : Bool)

theorem SMem.rd_write_getD (k : Nat) : (m.write a bs ep).rd k =
    if a ≤ k ∧ k < a + bs.length then bs.getD (k - a) 0 else if m.isLost a = true ∧ k / 4096 = a / 4096 then 0 else m.rd k := by
  rw [SMem.rd_write]
  split
  · rw [List.getD_eq_getElem]
  · rfl

theorem SMem.isValid_write : (m.write a bs ep).isValid a = true := by
  rw [SMem.isValid, SMem.write, Tab.get_set_self]

theorem SMem.isLost_write : (m.write a bs ep).isLost a = false := by
  rw [SMem.isLost, SMem.write, Tab.get_set_self]

theorem SMem.poison_write : Tab.get bit0 (m.write a bs true).poison (a / 64) = true := by
  simp only [SMem.write, if_true]
  exact Tab.get_set_self _ _ _ _

theorem get_foldl_range_set (p : Tab Bool) (lo n l : Nat) :
    Tab.get bit0 ((List.range n).foldl (fun p i => Tab.set bit0 p (lo + i) true) p) l = if lo ≤ l ∧ l < lo + n then true else Tab.get bit0 p l := by
  induction n with
  | zero => rw [if_neg (by omega)]; rfl
  | succ n ih =>
    rw [List.range_succ, List.foldl_append, List.foldl_cons, List.foldl_nil, Tab.get_set, ih]
    by_cases hl : l = lo + n
    · rw [if_pos hl, if_pos (by omega)]
    · rw [if_neg hl]
      exact if_congr (by omega) rfl rfl

/-- The other lines of a lost granule are poisoned by a write into it. -/
theorem SMem.poison_write_of_lost (hlost : m.isLost a = true) {l : Nat} (hl : l / 64 = a / 4096) (hne : l ≠ a / 64) :
    Tab.get bit0 (m.write a bs ep).poison l = true := by
  have hgran : Tab.get bit0 (poisonGranule m.poison (a / 4096)) l = true := by
    rw [poisonGranule, get_foldl_range_set, if_pos (by omega)]
  simp only [SMem.write, hlost, if_true]
  split
  · rw [Tab.get_set, if_neg hne, hgran]
  · split
    · rw [Tab.get_set, if_neg hne, hgran]
    · exact hgran

end

/-! Slices that fail. -/

theorem State.cluPart_congr {s t : State} (h : ∀ p < 8, ∀ f : Fld, f.own = true → t.fld (P.pt p) f = s.fld (P.pt p) f) (cl : Nat) : t.cluPart cl = s.cluPart cl := by
  have hst : ∀ p ∈ List.range 8, t.ptState p = s.ptState p := fun p hp => h p (List.mem_range.1 hp) _ (by decide)
  have hmask : ∀ p ∈ List.range 8, t.inMask p cl = s.inMask p cl := fun p hp => by
    rw [State.inMask, State.inMask, State.fld64, h p (List.mem_range.1 hp) _ (by decide), h p (List.mem_range.1 hp) _ (by decide), State.fld64]
  rw [State.cluPart, State.cluPart, List.find?_congr fun p hp => by rw [hst p hp, hmask p hp], List.find?_congr (p₁ := fun p => t.ptState p == 4 && t.inMask p cl)
    fun p hp => by rw [hst p hp, hmask p hp]]

theorem State.sliceServes_iff (s : State) (x : Nat) : s.sliceServes x = true ↔ s.sliceState x = 1 ∨ s.sliceState x = 2 := by
  rw [State.sliceServes, Bool.or_eq_true, beq_iff_eq, beq_iff_eq]

theorem State.sliceServes_congr {s t : State} {x : Nat} (h : t.sliceState x = s.sliceState x) : t.sliceServes x = s.sliceServes x := by
  rw [State.sliceServes, h, State.sliceServes]

section
variable {x cause : Nat}

theorem State.setSliceState_notes (s : State) (x st cause : Nat) : s.NotesOnly (s.setSliceState x st cause) := by
  unfold State.setSliceState
  dsimp only
  split
  · exact ((State.RegsOnly.setFld _ _ _ _).trans (.setFld _ _ _ _)).notes
  · exact (((State.RegsOnly.setFld _ _ _ _).trans (.setFld _ _ _ _)).trans (.event _ _ _)).notes.trans (State.trailPut_notes _ _ _ _ _)

/-- A slice's new state, its cause, and the event of the change. -/
theorem State.setSliceState_fields (s : State) {st : Nat} (hst : st < 8) (hc : cause < 16) (hne : s.sliceState x ≠ st) :
    (s.setSliceState x st cause).sliceState x = st ∧ (s.setSliceState x st cause).fld (P.slc x) F.SLC_STS_fail_cause = cause ∧
      bitOf ((s.setSliceState x st cause).fld (P.slc x) F.PG_INT_STS) 0 = true := by
  have hput : ∀ {f : Fld}, f.inside = true → ∀ (u : State) a b c d, (u.trailPut a b c d).fld (P.slc x) f = u.fld (P.slc x) f :=
    fun hf u a b c d => State.fld_trailPut_page (P.slc_ne_trl x) hf u a b c d
  unfold State.setSliceState
  dsimp only
  rw [if_neg hne]
  refine ⟨?_, ?_, ?_⟩
  · rw [State.sliceState, hput (by decide), State.fld_event_own (by decide), State.fld_setFld_apart _ _ _ _ (by decide), State.fld_setFld_of_lt _ _ _ hst]
  · rw [hput (by decide), State.fld_event_own (by decide), State.fld_setFld_of_lt _ _ _ hc]
  · rw [hput (by decide)]
    exact State.bit_event _ _ (by decide)

theorem State.fld_setSliceState_page {f : Fld} {pg : Nat} (hpg : pg ≠ P.slc x) (htrl : pg ≠ P.trl) (hf : f.inside = true) (s : State) (st : Nat) :
    (s.setSliceState x st cause).fld pg f = s.fld pg f := by
  unfold State.setSliceState
  dsimp only
  split
  · rw [State.fld_setFld_page _ _ _ _ hpg hf (by decide), State.fld_setFld_page _ _ _ _ hpg hf (by decide)]
  · rw [State.fld_trailPut_page htrl hf, State.fld_event_page hpg hf, State.fld_setFld_page _ _ _ _ hpg hf (by decide),
      State.fld_setFld_page _ _ _ _ hpg hf (by decide)]

/-- A relocation leaves every register field behind the header. -/
theorem State.fld_relocate {f : Fld} (hf : f.own = true) (s : State) (p g x pg : Nat) : (s.relocate p g x).fld pg f = s.fld pg f := by
  unfold State.relocate
  dsimp only
  rw [State.fld_event_own hf]
  split <;> rfl

theorem State.relocate_keeps (s : State) (p g x : Nat) : (s.relocate p g x).hmp = s.hmp ∧ (s.relocate p g x).stores = s.stores := by
  unfold State.relocate
  dsimp only
  rw [State.event_hmp, State.event_stores]
  split <;> exact ⟨rfl, rfl⟩

theorem State.bit_relocate {s : State} {pg i : Nat} (h : bitOf (s.fld pg F.PG_INT_STS) i = true) (hi : i < 32) (p g x : Nat) :
    bitOf ((s.relocate p g x).fld pg F.PG_INT_STS) i = true := by
  unfold State.relocate
  dsimp only
  refine State.bit_event_of_bit ?_ hi _ _
  split <;> exact h

/-- A serving slice that fails: its state changes, and a window may take another backing. -/
theorem State.sliceFail_cases {s : State} (hs : s.sliceServes x = true) (cause : Nat) : s.sliceFail x cause = s.setSliceState x 3 cause ∨
    ∃ p g, s.cluPart (x / 8) = some p ∧ s.sliceFail x cause = (s.setSliceState x 3 cause).relocate p g x := by
  rw [State.sliceFail, if_pos hs]
  dsimp only
  split
  · next p hp =>
    split
    · split
      · next g _ => exact .inr ⟨p, g, hp, rfl⟩
      · exact .inl rfl
    · exact .inl rfl
  · exact .inl rfl

theorem State.sliceFail_of_idle {s : State} (hs : s.sliceServes x = false) (cause : Nat) : s.sliceFail x cause = s := by
  rw [State.sliceFail, hs]
  rfl

/-- The states of a failed slice and of the others. -/
structure SliceFailed (s : State) (x cause : Nat) (t : State) : Prop where
  state : t.sliceState x = 3
  cause : t.fld (P.slc x) F.SLC_STS_fail_cause = cause
  event : bitOf (t.fld (P.slc x) F.PG_INT_STS) 0 = true
  others : ∀ pg, pg ≠ P.slc x → pg ≠ P.trl → ∀ f : Fld, f.own = true → t.fld pg f = s.fld pg f
  hmp : t.hmp = s.hmp
  stores : t.stores = s.stores
  slices : s.cluPart (x / 8) = none → t.slices = s.slices

theorem sliceFailed_sliceFail {s : State} (hs : s.sliceServes x = true) (hc : cause < 16) : SliceFailed s x cause (s.sliceFail x cause) := by
  have hne : s.sliceState x ≠ 3 := by
    have := (s.sliceServes_iff x).1 hs
    omega
  obtain ⟨hst, hcause, hev⟩ := s.setSliceState_fields (st := 3) (by decide) hc hne
  obtain ⟨hhmp, hstores, hslices⟩ := (s.setSliceState_notes x 3 cause).mems
  have hothers : ∀ pg, pg ≠ P.slc x → pg ≠ P.trl → ∀ f : Fld, f.own = true → (s.setSliceState x 3 cause).fld pg f = s.fld pg f :=
    fun pg h1 h2 f hf => State.fld_setSliceState_page h1 h2 (Fld.inside_of_own hf) s 3
  rcases State.sliceFail_cases hs cause with heq | ⟨p, g, hp, heq⟩
  · rw [heq]
    exact ⟨hst, hcause, hev, hothers, hhmp, hstores, fun _ => hslices⟩
  · rw [heq]
    obtain ⟨hh, hs'⟩ := (s.setSliceState x 3 cause).relocate_keeps p g x
    refine ⟨?_, ?_, State.bit_relocate hev (by decide) _ _ _, fun pg h1 h2 f hf => ?_, hh.trans hhmp, hs'.trans hstores, fun hno => ?_⟩
    · rw [State.sliceState, State.fld_relocate (by decide)]
      exact hst
    · rw [State.fld_relocate (by decide), hcause]
    · rw [State.fld_relocate hf, hothers pg h1 h2 f hf]
    · rw [hp] at hno
      cases hno

theorem SliceFailed.sliceState {s t : State} (h : SliceFailed s x cause t) {y : Nat} (hy : y ≠ x) : t.sliceState y = s.sliceState y :=
  h.others _ (P.slc_ne hy) (P.slc_ne_trl y) _ (by decide)

/-- No slice serves after its failure. -/
theorem State.sliceServes_sliceFail (s : State) (hc : cause < 16) : (s.sliceFail x cause).sliceServes x = false := by
  cases hs : s.sliceServes x
  · rw [State.sliceFail_of_idle hs, hs]
  · rw [State.sliceServes, (sliceFailed_sliceFail hs hc).state]
    rfl

end

/-! Uncorrectable errors. -/

section
variable (s : State) (pg lo hi : Nat)

/-- What the count of an uncorrectable line leaves. -/
theorem State.scbUe_notes : ∃ u, { s with ueSeen := u }.NotesOnly (s.scbUe pg lo hi) := by
  have hev : s.RegsOnly (((s.countErr pg 0x40 0xFF (lo + 2 ^ 32 * hi)).satFld pg F.SCB_CE_CNT_ue_lines 1).event pg 2) :=
    ((State.countErr_only _ _ _ _ _).trans (.setFld _ _ _ _)).trans (.event _ _ _)
  unfold State.scbUe
  dsimp only
  split
  · exact ⟨s.ueSeen, hev.notes⟩
  · generalize ((s.countErr pg 0x40 0xFF (lo + 2 ^ 32 * hi)).satFld pg F.SCB_CE_CNT_ue_lines 1).event pg 2 = u at hev
    obtain ⟨_, _, _, _, _, rfl⟩ := hev
    exact ⟨_, State.NotesOnly.trans ⟨_, _, _, _, _, _, rfl⟩ (State.trailPut_notes _ _ _ _ _)⟩

theorem State.fld_scbUe_page {f : Fld} {q : Nat} (hpg : q ≠ pg) (htrl : q ≠ P.trl) (hf : f.own = true) : (s.scbUe pg lo hi).fld q f = s.fld q f := by
  have hin := Fld.inside_of_own hf
  have hwith : ∀ (u : State) a, { u with ueSeen := a }.fld q f = u.fld q f := fun _ _ => rfl
  unfold State.scbUe
  dsimp only
  split
  · rw [State.fld_event_own hf, State.fld_satFld_page hpg hin (by decide), State.fld_countErr_own _ _ _ hf]
  · rw [State.fld_trailPut_page htrl hin, hwith, State.fld_event_own hf, State.fld_satFld_page hpg hin (by decide), State.fld_countErr_own _ _ _ hf]

theorem State.ueLines_scbUe (htrl : pg ≠ P.trl) :
    (s.scbUe pg lo hi).fld pg F.SCB_CE_CNT_ue_lines = min 65535 (s.fld pg F.SCB_CE_CNT_ue_lines + 1) := by
  have hwith : ∀ (u : State) a, { u with ueSeen := a }.fld pg F.SCB_CE_CNT_ue_lines = u.fld pg F.SCB_CE_CNT_ue_lines := fun _ _ => rfl
  have hcount : (((s.countErr pg 0x40 0xFF (lo + 2 ^ 32 * hi)).satFld pg F.SCB_CE_CNT_ue_lines 1).event pg 2).fld pg F.SCB_CE_CNT_ue_lines =
      min 65535 (s.fld pg F.SCB_CE_CNT_ue_lines + 1) := by
    rw [State.fld_event_own (by decide), State.fld_satFld_self, State.fld_countErr_own _ _ _ (by decide)]
    rfl
  unfold State.scbUe
  dsimp only
  split
  · exact hcount
  · rw [State.fld_trailPut_page htrl (by decide), hwith, hcount]

end

/-- The memory of the slices with one line poisoned. -/
def SMem.poisonLine (m : SMem) (l : Nat) : SMem := { m with poison := Tab.set bit0 m.poison l true }

/-- The state of an uncorrectable error in a line, before its slice may fail. -/
structure UeCounted (s : State) (x a : Nat) (u : State) : Prop where
  slices : u.slices = s.slices.poisonLine (x * 2097152 + a / 64)
  hmp : u.hmp = s.hmp
  stores : u.stores = s.stores
  lines : u.fld (P.scbP x) F.SCB_CE_CNT_ue_lines = min 65535 (s.fld (P.scbP x) F.SCB_CE_CNT_ue_lines + 1)
  others : ∀ pg, pg ≠ P.scbP x → pg ≠ P.trl → ∀ f : Fld, f.own = true → u.fld pg f = s.fld pg f

/-- An uncorrectable error is counted, and the slice may fail by it. -/
theorem State.sliceUe_cases (s : State) (x a : Nat) : ∃ u, UeCounted s x a u ∧ (s.sliceUe x a = u ∨ s.sliceUe x a = u.sliceFail x 2) := by
  have hcount : ∀ v : State, v = { s with slices := s.slices.poisonLine (x * 2097152 + a / 64) } → ∀ w,
      UeCounted s x a { v.scbUe (P.scbP x) (a / 64 * 64) 0 with ueWin := w } := fun v hv w => by
    obtain ⟨b, _, _, _, _, _, _, hnotes⟩ := v.scbUe_notes (P.scbP x) (a / 64 * 64) 0
    refine ⟨?_, ?_, ?_, ?_, fun pg h1 h2 f hf => ?_⟩
    · rw [hnotes, hv]
    · rw [hnotes, hv]
    · rw [hnotes, hv]
    · refine (State.ueLines_scbUe v _ _ _ (P.scbP_ne_trl x)).trans ?_
      rw [hv]
      rfl
    · refine (State.fld_scbUe_page v _ _ _ h1 h2 hf).trans ?_
      rw [hv]
      rfl
  unfold State.sliceUe
  dsimp only
  split
  · exact ⟨_, hcount _ rfl ({ s with slices := s.slices.poisonLine (x * 2097152 + a / 64) }.scbUe (P.scbP x) (a / 64 * 64) 0).ueWin, .inl rfl⟩
  · split
    · exact ⟨_, hcount _ rfl _, .inr rfl⟩
    · exact ⟨_, hcount _ rfl _, .inl rfl⟩

/-! Requests. -/

section Serves
variable {s : State} {x : Fin 512} {addr : BitVec 27} (hs : s.sliceServes x = true) (hf : s.fenced (x / 64) = false)
include hs hf

theorem State.sliceRead_of_serves (a n : Nat) : s.sliceRead x a n = s.slices.read (skey x a) n := by
  rw [State.sliceRead, hs, hf]
  rfl

theorem State.sliceWrite_of_serves (a : Nat) (bs : List Byte) (ep : Bool) :
    s.sliceWrite x a bs ep = { s with slices := s.slices.write (skey x a) bs ep }.sliceBytes x bs.length := by
  rw [State.sliceWrite, hf, hs]
  rfl

theorem State.sliceEcc_uncorrectable (a : Nat) (reads : Bool) :
    s.sliceEcc x a reads .uncorrectable = if s.lineDecoded x a reads then s.sliceUe x a else s := by
  unfold State.sliceEcc
  rw [hs, hf]
  rfl

end Serves

theorem State.sliceEcc_of_idle {s : State} {x : Nat} (h : s.sliceServes x = false ∨ s.fenced (x / 64) = true) (a : Nat) (reads : Bool) (e : EccIn) :
    s.sliceEcc x a reads e = s := by
  unfold State.sliceEcc
  rw [if_pos]
  rcases h with h | h <;> simp [h]

theorem State.sliceEcc_buffer (s : State) (x a : Nat) (reads : Bool) : s.sliceEcc x a reads .buffer = s := by
  unfold State.sliceEcc
  split <;> rfl

theorem State.sliceEcc_clean (s : State) (x a : Nat) (reads : Bool) : s.sliceEcc x a reads .clean = s := by
  unfold State.sliceEcc
  split <;> rfl

/-- An access that decodes no line meets no error of it. -/
theorem State.sliceEcc_of_undecoded {s : State} {x a : Nat} {reads : Bool} (h : s.lineDecoded x a reads = false) {e : EccIn} (he : e = .corrected ∨ e = .uncorrectable) :
    s.sliceEcc x a reads e = s := by
  unfold State.sliceEcc
  split
  · rfl
  · rcases he with rfl | rfl <;> simp [h]

theorem State.sliceReadCount_only (s : State) (x a n : Nat) : s.RegsOnly (s.sliceReadCount x a n) := by
  unfold State.sliceReadCount
  split
  · exact s.sliceBytes_only x n
  · exact .refl s

theorem State.sliceReadCount_outs (s : State) (x a n : Nat) : (s.sliceReadCount x a n).outs = s.outs := by
  unfold State.sliceReadCount
  split <;> rfl

theorem State.sliceReadCount_sameRegs (s : State) (x a n : Nat) :
    s.sameRegs (s.sliceReadCount x a n) [fkey (P.slc x) F.SLC_BYTES_LO_bytes, fkey (P.slc x) F.SLC_BYTES_HI_bytes] := by
  unfold State.sliceReadCount
  split
  · exact ((State.sameRegs.refl s _).setFld (by simp) _).setFld (by simp) _
  · exact .refl s _

theorem State.fld_sliceReadCount_page {f : Fld} {pg x : Nat} (hpg : pg ≠ P.slc x) (hf : f.inside = true) (s : State) (a n : Nat) :
    (s.sliceReadCount x a n).fld pg f = s.fld pg f := by
  unfold State.sliceReadCount
  split
  · rw [State.sliceBytes, State.setFld64, State.fld_setFld_page _ _ _ _ hpg hf (by decide), State.fld_setFld_page _ _ _ _ hpg hf (by decide)]
  · rfl

/-- Whether a line of the slices is poisoned for a read of a key. -/
theorem SMem.read_snd (m : SMem) (k n : Nat) : (m.read k n).2 = (m.isLost k || (m.isValid k && Tab.get bit0 m.poison (k / 64))) := by
  unfold SMem.read
  cases m.isLost k <;> cases m.isValid k <;> rfl

theorem SMem.read_fst (m : SMem) (k n : Nat) :
    (m.read k n).1 = if m.isValid k && !m.isLost k then (List.range n).map (fun i => m.rd (k + i)) else List.replicate n 0 := by
  unfold SMem.read
  cases m.isLost k <;> cases m.isValid k <;> rfl

theorem skey_line (x a : Nat) : skey x a / 64 = x * 2097152 + a / 64 := by
  rw [skey, sliceSize]
  omega

theorem inLine_of {a n : Nat} (hn : 0 < n) (h : a % 64 + n ≤ 64) : inLine a n = true := by
  rw [inLine, Bool.and_eq_true, decide_eq_true_eq, decide_eq_true_eq]
  exact ⟨hn, h⟩

section Request
variable {s : State} {x : Fin 512} {addr : BitVec 27} (hf : s.fenced (x / 64) = false)
include hf

theorem exec_sliceRead {n : Nat} (hn : 0 < n) (hl : addr.toNat % 64 + n ≤ 64) (e : EccIn) : exec (.sliceRequest x addr (.read n) e) s =
    .next ((s.sliceEcc x addr.toNat true e).sliceReadOut x addr.toNat n (e == .buffer)) := by
  show Host.Outcome.next _ = _
  rw [hf]
  simp only [inLine_of hn hl, if_true, Bool.false_eq_true, if_false, sliceOpReads]

theorem exec_sliceWrite {data : List Byte} (hn : 0 < data.length) (hl : addr.toNat % 64 + data.length ≤ 64) (poison : Bool) :
    exec (.sliceRequest x addr (.write data poison) .clean) s = .next (s.sliceWrite x addr.toNat data poison) := by
  have hclean : (EccIn.clean == EccIn.uncorrectable) = false := rfl
  have hbuf : (EccIn.clean == EccIn.buffer) = false := rfl
  show Host.Outcome.next _ = _
  rw [hf]
  simp only [inLine_of hn hl, Bool.not_true, Bool.false_eq_true, if_false, hclean, hbuf, Bool.false_and, Bool.or_false, State.sliceEcc_clean]

end Request

/-- What a write into a serving slice leaves of the memories. -/
theorem sliceWrite_keeps {s : State} {x : Fin 512} (hs : s.sliceServes x = true) (hf : s.fenced (x / 64) = false) (a : Nat) (bs : List Byte) (ep : Bool) :
    (s.sliceWrite x a bs ep).slices = s.slices.write (skey x a) bs ep ∧ (s.sliceWrite x a bs ep).hmp = s.hmp ∧
      (s.sliceWrite x a bs ep).stores = s.stores ∧ (s.sliceWrite x a bs ep).outs = s.outs := by
  rw [State.sliceWrite_of_serves hs hf]
  exact ⟨rfl, rfl, rfl, rfl⟩

/-- An atomic on a serving slice answers the old value, and writes what its function gives for it. -/
theorem State.sliceAtomic_of_serves {s : State} {x : Fin 512} {a w : Nat} (hs : s.sliceServes x = true) (hf : s.fenced (x / 64) = false)
    (hclean : (s.sliceRead x a w).2 = false) (hlost : s.slices.isLost (skey x a) = false) (f : Nat → Option Nat) :
    (s.sliceAtomic x a w false f).outs = .sliceData x (s.sliceRead x a w).1 false :: s.outs ∧ ∀ b, (s.sliceAtomic x a w false f).slices.rd b =
      match f (leNat (s.sliceRead x a w).1) with
      | some v => if skey x a ≤ b ∧ b < skey x a + w then (leBytes w v).getD (b - skey x a) 0 else s.slices.rd b
      | none => s.slices.rd b := by
  obtain ⟨-, -, hslices⟩ := (s.sliceReadCount_only x a w).notes.mems
  have houts := s.sliceReadCount_outs x a w
  have hfence : (s.sliceReadCount x a w).fenced (x / 64) = false := by
    rw [State.fenced, State.fld_sliceReadCount_page (by simp only [P.serHub, P.slc, P.corePg, P.clu]; omega) (by decide)]
    exact hf
  have hserve : (s.sliceReadCount x a w).sliceServes x = true := by
    rw [State.sliceServes_congr ?_, hs]
    exact s.sliceReadCount_sameRegs x a w _ _ (by
      simp only [List.mem_cons, List.not_mem_nil, or_false, not_or]
      exact ⟨fkey_ne_of_apart (by decide) _ _, fkey_ne_of_apart (by decide) _ _⟩)
  unfold State.sliceAtomic
  dsimp only
  rw [hclean]
  generalize s.sliceReadCount x a w = u at hslices houts hfence hserve
  simp only [Bool.or_self, Bool.false_eq_true, if_false]
  cases hv : f (leNat (s.sliceRead x a w).1) with
  | none => exact ⟨by rw [State.emit_outs, houts], fun b => by rw [State.emit_slices, hslices]⟩
  | some v =>
    obtain ⟨hsl, -, -, ho⟩ := sliceWrite_keeps (s := u.emit (.sliceData x (s.sliceRead x a w).1 false)) (x := x) hserve hfence a (leBytes w v) false
    dsimp only
    refine ⟨by rw [ho, State.emit_outs, houts], fun b => ?_⟩
    rw [hsl, State.emit_slices, hslices, SMem.rd_write_getD, length_leBytes, hlost]
    simp

/-- A decoded line that answers an uncorrectable error is poisoned, whether its slice fails or not. -/
theorem sliceRead_of_ueCounted {s u : State} {x : Nat} {a n : Nat} (hu : UeCounted s x a u) (hvalid : s.slices.isValid (skey x a) = true) :
    (u.sliceRead x a n).2 = true := by
  rw [State.sliceRead]
  split
  · rw [SMem.read_snd, hu.slices]
    have hline : Tab.get bit0 (s.slices.poisonLine (x * 2097152 + a / 64)).poison (skey x a / 64) = true := by
      rw [skey_line]
      exact Tab.get_set_self bit0 s.slices.poison _ true
    have hval : (s.slices.poisonLine (x * 2097152 + a / 64)).isValid (skey x a) = true := hvalid
    rw [hline, hval]
    simp
  · rfl

/-- The read of a line with an uncorrectable error, and its count. -/
theorem sliceUe_read {s : State} {x a n : Nat} (hvalid : s.slices.isValid (skey x a) = true) : ((s.sliceUe x a).sliceRead x a n).2 = true ∧
    (s.sliceUe x a).fld (P.scbP x) F.SCB_CE_CNT_ue_lines = min 65535 (s.fld (P.scbP x) F.SCB_CE_CNT_ue_lines + 1) := by
  obtain ⟨u, hu, heq | heq⟩ := s.sliceUe_cases x a
  · rw [heq]
    exact ⟨sliceRead_of_ueCounted hu hvalid, hu.lines⟩
  · rw [heq]
    refine ⟨?_, ?_⟩
    · rw [State.sliceRead, State.sliceServes_sliceFail u (by decide)]
      rfl
    · cases hs : u.sliceServes x
      · rw [State.sliceFail_of_idle hs, hu.lines]
      · rw [(sliceFailed_sliceFail hs (by decide)).others _ (Ne.symm (P.slc_ne_scbP x x)) (P.scbP_ne_trl x) _ (by decide), hu.lines]

/-- An uncorrectable error on a slice outside every partition moves no byte. -/
theorem sliceUe_keeps {s : State} {x a : Nat} (hpart : s.cluPart (x / 8) = none) : (s.sliceUe x a).slices = s.slices.poisonLine (x * 2097152 + a / 64) ∧
    (s.sliceUe x a).hmp = s.hmp ∧ (s.sliceUe x a).stores = s.stores := by
  have hpt : ∀ p < 8, P.pt p ≠ P.scbP x ∧ P.pt p ≠ P.trl := fun p hp => by
    simp only [P.pt, P.scbP, P.corePg, P.clu, P.trl]
    omega
  obtain ⟨u, hu, heq | heq⟩ := s.sliceUe_cases x a
  · rw [heq]
    exact ⟨hu.slices, hu.hmp, hu.stores⟩
  · rw [heq]
    cases hs : u.sliceServes x
    · rw [State.sliceFail_of_idle hs]
      exact ⟨hu.slices, hu.hmp, hu.stores⟩
    · have hfail := sliceFailed_sliceFail hs (cause := 2) (by decide)
      have hno : u.cluPart (x / 8) = none := by
        rw [State.cluPart_congr (fun p hp f hf => hu.others _ (hpt p hp).1 (hpt p hp).2 f hf), hpart]
      exact ⟨(hfail.slices hno).trans hu.slices, hfail.hmp.trans hu.hmp, hfail.stores.trans hu.stores⟩

/-- A read with an uncorrectable line, or from a buffer in error, answers poison. -/
theorem completes_sliceRead_error {s : State} {x : Fin 512} (hs : s.sliceServes x = true) (hf : s.fenced (x / 64) = false) {addr : BitVec 27}
    {n : Nat} (hn : 0 < n) (hl : addr.toNat % 64 + n ≤ 64) (hvalid : s.slices.isValid (skey x addr.toNat) = true)
    (hlost : s.slices.isLost (skey x addr.toNat) = false) {e : EccIn} (he : e = .uncorrectable ∨ e = .buffer) :
    Completes (.sliceRequest x addr (.read n) e) s fun t => (∃ d, t.outs.head? = some (.sliceData x d true)) ∧
        t.fld (P.scbP x) F.SCB_CE_CNT_ue_lines = if e = .buffer ∨ Tab.get bit0 s.slices.poison (skey x addr.toNat / 64) = true then
          s.fld (P.scbP x) F.SCB_CE_CNT_ue_lines else min 65535 (s.fld (P.scbP x) F.SCB_CE_CNT_ue_lines + 1) := by
  have hpage : P.scbP x ≠ P.slc x := Ne.symm (P.slc_ne_scbP x x)
  have hout : ∀ (v : State) buf, ((v.sliceRead x addr.toNat n).2 || buf) = true →
      (∃ d, (v.sliceReadOut x addr.toNat n buf).outs.head? = some (.sliceData x d true)) ∧
      (v.sliceReadOut x addr.toNat n buf).fld (P.scbP x) F.SCB_CE_CNT_ue_lines = v.fld (P.scbP x) F.SCB_CE_CNT_ue_lines := fun v buf hp => by
    rw [State.sliceReadOut, hp]
    exact ⟨⟨_, rfl⟩, (State.fld_emit _ _ _ _).trans (State.fld_sliceReadCount_page hpage (by decide) _ _ _)⟩
  refine ⟨_, exec_sliceRead hf hn hl e, ?_⟩
  rcases he with rfl | rfl
  · rw [State.sliceEcc_uncorrectable hs hf, State.lineDecoded, hvalid, hlost]
    cases hp : Tab.get bit0 s.slices.poison (skey x addr.toNat / 64)
    · obtain ⟨hread, hlines⟩ := sliceUe_read (s := s) (n := n) hvalid
      obtain ⟨hhead, hcount⟩ := hout (s.sliceUe x addr.toNat) false (by rw [hread]; rfl)
      exact ⟨hhead, hcount.trans hlines⟩
    · refine hout s false ?_
      rw [State.sliceRead_of_serves hs hf, SMem.read_snd, hvalid, hp]
      simp
  · rw [State.sliceEcc_buffer]
    exact hout s true (Bool.or_true _)

/-- Settles O50: a request reads or writes the memory of its slice by one of four laws, and a failure changes the slice's state alone where no partition runs. -/
theorem sliceResults : Obligations.SliceResults := by
  unfold Obligations.SliceResults
  refine ⟨fun s x addr n data poison k v cmp swap a w ha hw hf => ⟨fun hs => ⟨fun hn hl => ?read, fun hn hl hvalid hlost e he => ?error, fun hn hl hlost => ?write,
    fun hn hl e he => ?whole, fun hn hlt hl hvalid hlost hp hpart => ?part, fun hn hl hlost => ?lost, fun hal hlost hclean => ?atomic,
    fun hal hlost hclean => ?cas⟩, fun hst hn hl => ?failed⟩, fun s x rq => ⟨fun hs c hc => ?fail, fun hs hg => ?force, fun hs => ?idle, rfl, rfl, ?window,
    fun hfence addr op e => ?fenced⟩⟩
  case read =>
    subst ha
    refine ⟨_, exec_sliceRead hf hn hl .clean, ?_⟩
    have hbuf : (EccIn.clean == EccIn.buffer) = false := rfl
    rw [State.sliceEcc_clean, State.sliceReadOut, hbuf, Bool.or_false, State.sliceRead_of_serves hs hf, SMem.read_fst, SMem.read_snd]
    refine ⟨?_, (s.sliceReadCount_only x _ _).sameBytes, s.sliceReadCount_sameRegs x _ _⟩
    rw [State.emit_outs, State.sliceReadCount_outs]
  case error =>
    subst ha
    exact completes_sliceRead_error hs hf hn hl hvalid hlost he
  case write =>
    subst ha
    obtain ⟨hsl, hh, hst, ho⟩ := sliceWrite_keeps hs hf addr.toNat data poison
    refine ⟨_, exec_sliceWrite hf hn hl poison, fun b => ?_, ?_, ?_, hh, hst, ho, fun hp => ?_⟩
    · rw [hsl, SMem.rd_write_getD, hlost]
      simp
    · rw [hsl, SMem.isValid_write]
    · rw [hsl, SMem.isLost_write]
    · rw [hsl, hp, SMem.poison_write]
  case whole =>
    have hreads : sliceOpReads (.write data poison) = false := by
      show (data.length != 64) = false
      rw [hn]
      rfl
    have hdec : s.lineDecoded x addr.toNat (sliceOpReads (.write data poison)) = false := by
      rw [hreads]
      rfl
    have hbuf : (e == EccIn.buffer) = false := by rcases he with rfl | rfl <;> rfl
    have hexec : ∀ e', exec (.sliceRequest x addr (.write data poison) e') s = .next (if !inLine addr.toNat data.length then s
        else if e' == .uncorrectable && s.sliceServes x && s.lineDecoded x addr.toNat (sliceOpReads (.write data poison)) then
          s.sliceEcc x addr.toNat (sliceOpReads (.write data poison)) e'
        else (s.sliceEcc x addr.toNat (sliceOpReads (.write data poison)) e').sliceWrite x addr.toNat data (poison || e' == .buffer)) := fun e' => by
      show Host.Outcome.next _ = _
      rw [hf]
      rfl
    have hclean : (EccIn.clean == EccIn.buffer) = false := rfl
    rw [hexec, hexec, State.sliceEcc_of_undecoded hdec he, State.sliceEcc_clean, hdec, hbuf, hclean]
    simp only [Bool.and_false]
  case part =>
    subst ha
    have hreads : sliceOpReads (.write data poison) = true := by
      show (data.length != 64) = true
      rw [bne_iff_ne]
      omega
    have hdec : s.lineDecoded x addr.toNat true = true := by
      rw [State.lineDecoded, hvalid, hlost, hp]
      rfl
    obtain ⟨hsl, hh, hst⟩ := sliceUe_keeps (a := addr.toNat) hpart
    refine ⟨s.sliceUe x addr.toNat, ?_, ?_, ?_, hh, hst⟩
    · show Host.Outcome.next _ = _
      rw [hf]
      simp only [inLine_of hn hl, hreads, hdec, hs, State.sliceEcc_uncorrectable hs hf, if_true, Bool.not_true, Bool.false_eq_true, if_false,
        beq_self_eq_true, Bool.and_self]
    · rw [hsl]
      rfl
    · rw [hsl, skey_line]
      exact Tab.get_set_self bit0 s.slices.poison _ true
  case lost =>
    subst ha
    obtain ⟨hsl, hh, hst, -⟩ := sliceWrite_keeps hs hf addr.toNat data poison
    refine ⟨_, exec_sliceWrite hf hn hl poison, fun b => ?_, ?_, ?_, fun l hl hne => ?_, hh, hst⟩
    · rw [hsl, SMem.rd_write_getD, hlost]
      simp
    · rw [hsl, SMem.isValid_write]
    · rw [hsl, SMem.isLost_write]
    · rw [hsl, SMem.poison_write_of_lost _ _ _ _ hlost hl hne]
  case atomic =>
    subst ha hw
    have hexec : exec (.sliceRequest x addr (.atomic k v) .clean) s = .next (s.sliceAtomic x addr.toNat (if k.val = 2 then 8 else 4) false fun o =>
        some (mvaOp k o (v.toNat % 2 ^ (8 * if k.val = 2 then 8 else 4)))) := by
      show Host.Outcome.next _ = _
      rw [hf]
      have hk : (k = 2) = (k.val = 2) := propext Fin.ext_iff
      simp only [State.sliceEcc_clean, hk, hal, if_true, Bool.false_eq_true, if_false]
      rfl
    exact ⟨_, hexec, State.sliceAtomic_of_serves hs hf hclean hlost _⟩
  case cas =>
    subst ha
    have hexec : exec (.sliceRequest x addr (.cas cmp swap) .clean) s = .next (s.sliceAtomic x addr.toNat 8 false fun o =>
        if o = cmp.toNat then some swap.toNat else none) := by
      show Host.Outcome.next _ = _
      rw [hf]
      simp only [State.sliceEcc_clean, hal, if_true, Bool.false_eq_true, if_false]
      rfl
    obtain ⟨houts, hrd⟩ := State.sliceAtomic_of_serves hs hf hclean hlost fun o => if o = cmp.toNat then some swap.toNat else none
    refine ⟨_, hexec, houts, fun b => (hrd b).trans ?_⟩
    by_cases heq : leNat (s.sliceRead x addr.toNat 8).1 = cmp.toNat <;> simp [heq]
  case failed =>
    have hs : s.sliceServes x = false := by
      rw [State.sliceServes, hst]
      rfl
    refine ⟨?_, ?_⟩
    · rw [exec_sliceWrite hf hn hl, State.sliceWrite, hf, hs, hst]
      rfl
    · rw [exec_sliceRead hf (by decide) (by omega), State.sliceEcc_clean, State.sliceReadOut, State.sliceReadCount, State.sliceRead, hs]
      rfl
  case fail =>
    have hfail : ∀ cause, cause < 16 → ∀ t, t = s.sliceFail x cause → t.sliceState x = 3 ∧ t.fld (P.slc x) F.SLC_STS_fail_cause = cause ∧
        bitOf (t.fld (P.slc x) F.PG_INT_STS) 0 = true ∧ (∀ y : Nat, y ≠ x → t.sliceState y = s.sliceState y) ∧ t.hmp = s.hmp ∧ t.stores = s.stores ∧
        (s.cluPart (x / 8) = none → s.sameBytes t) := fun cause hlt t ht => by
      have h := sliceFailed_sliceFail hs hlt
      rw [← ht] at h
      exact ⟨h.state, h.cause, h.event, fun y hy => h.sliceState hy, h.hmp, h.stores, fun hno => State.sameBytes_of_eq h.hmp h.stores (h.slices hno)⟩
    simp only [List.mem_cons, List.not_mem_nil, or_false] at hc
    rcases hc with rfl | rfl
    · exact ⟨_, rfl, hfail 3 (by decide) _ rfl⟩
    · exact ⟨_, rfl, hfail 4 (by decide) _ rfl⟩
  case force =>
    have h := sliceFailed_sliceFail hs (cause := 5) (by decide)
    refine ⟨s.sliceFail x 5, ?_, h.state, h.cause, fun hno => State.sameBytes_of_eq h.hmp h.stores (h.slices hno)⟩
    show Host.Outcome.next _ = _
    rw [State.tileWrite_of_grants hg]
  case idle =>
    refine ⟨?_, ?_, fun hg => ?_⟩
    · show Host.Outcome.next _ = _
      rw [State.sliceFail_of_idle hs]
    · show Host.Outcome.next (s.sliceFail x 4) = _
      rw [State.sliceFail_of_idle hs]
    · show Host.Outcome.next _ = _
      rw [State.tileWrite_of_grants hg, State.sliceFail_of_idle hs]
  case window =>
    exact ⟨_, rfl, Tab.get_set_self list0 s.ueWin x [], fun y hy => Tab.get_set_ne list0 s.ueWin x y [] hy, _, rfl⟩
  case fenced =>
    show Host.Outcome.next _ = _
    rw [hfence]
    rfl

end Sys2Proof.Machine
end

section
/-! Scrubbers, windows of corrected errors, memory self-tests and the fault log (13 R316-R321, R328, R330). -/
namespace Sys2Proof.Machine

/-! Pages of the memories. -/

theorem scbPg_ne_trl (m : ScbId) : scbPg m ≠ P.trl := by
  cases m with
  | slice x => exact P.scbP_ne_trl x
  | cluster cl =>
    simp only [scbPg, P.scbC, P.clu, P.trl]
    omega
  | hamper => decide

theorem scbPg_ne_slc (m : ScbId) (x : Nat) : scbPg m ≠ P.slc x := by
  cases m with
  | slice y => exact Ne.symm (P.slc_ne_scbP x y)
  | cluster cl =>
    simp only [scbPg, P.scbC, P.slc, P.corePg, P.clu]
    omega
  | hamper =>
    simp only [scbPg, P.scbH, P.slc, P.corePg, P.clu]
    omega

theorem scbPg_ne_pt (m : ScbId) {p : Nat} (hp : p < 8) : P.pt p ≠ scbPg m := by
  cases m with
  | slice y =>
    simp only [scbPg, P.pt, P.scbP, P.corePg, P.clu]
    omega
  | cluster cl =>
    simp only [scbPg, P.pt, P.scbC, P.clu]
    omega
  | hamper =>
    simp only [scbPg, P.pt, P.scbH]
    omega

theorem State.each_eq_self {α : Type} {s : State} {l : List α} {g : α → State → State} (h : ∀ a ∈ l, g a s = s) : s.each l g = s :=
  State.each_keeps (fun u => u = s) s l g (fun a ha u hu => by rw [hu, h a ha]) rfl

/-! Corrected and uncorrectable lines. -/

section
variable (s : State) (pg : Nat)

theorem State.sramCe_only : s.RegsOnly (s.sramCe pg) := by
  unfold State.sramCe State.scbCe
  dsimp only
  split
  · exact (State.RegsOnly.setFld _ _ _ _).trans (.event _ _ _)
  · exact .setFld _ _ _ _

theorem State.windowCe_sramCe : (s.sramCe pg).fld pg F.SCB_CE_CNT_window_ce = min 65535 (s.fld pg F.SCB_CE_CNT_window_ce + 1) := by
  unfold State.sramCe State.scbCe
  dsimp only
  split
  · rw [State.fld_event_own (by decide), State.fld_satFld_self]
    rfl
  · rw [State.fld_satFld_self]
    rfl

theorem State.scbUe_sameBytes (lo hi : Nat) : s.sameBytes (s.scbUe pg lo hi) := by
  obtain ⟨u, h⟩ := s.scbUe_notes pg lo hi
  exact State.sameBytes_of_eq h.mems.1 h.mems.2.1 h.mems.2.2

theorem State.scbUe_mems (lo hi : Nat) : (s.scbUe pg lo hi).hmp = s.hmp ∧ (s.scbUe pg lo hi).stores = s.stores := by
  obtain ⟨u, h⟩ := s.scbUe_notes pg lo hi
  exact ⟨h.mems.1, h.mems.2.1⟩

/-- The end of a scrubber's lap. -/
theorem State.lapEnd_fields : Tab.get nat0 (s.lapEnd pg).scrubPos pg = 0 ∧ (s.lapEnd pg).flag pg F.SCB_I_LAP_incomplete = false ∧
    bitOf ((s.lapEnd pg).fld pg F.PG_INT_STS) 0 = true ∧ Tab.get nat0 (s.lapEnd pg).scrubStart pg = s.now := by
  have hwith : ∀ (u : State) a b f, { u with scrubPos := a, scrubStart := b }.fld pg f = u.fld pg f := fun _ _ _ _ => rfl
  unfold State.lapEnd
  dsimp only
  refine ⟨Tab.get_set_self _ _ _ _, ?_, ?_, ?_⟩
  · rw [State.flag, hwith, State.fld_event_own (by decide), State.fld_setFlag_self _ _ (by decide)]
    rfl
  · rw [hwith]
    exact State.bit_event _ _ (by decide)
  · rw [Tab.get_set_self, State.event_now]
    rfl

theorem State.lapEnd_sameBytes : s.sameBytes (s.lapEnd pg) := by
  unfold State.lapEnd
  dsimp only
  exact State.sameBytes_of_eq (State.event_hmp _ _ _) (State.event_stores _ _ _) (State.event_slices _ _ _)

end

section
variable (s : State) (cl : Option (Fin 64)) (l : Nat)

/-- The poison of a scrubber's line. -/
def State.sramPoison : Bool := if cl.isSome then s.stores.linePoison l else s.hmp.linePoison l

theorem Mem.linePoison_setPoison (m : Mem) : (m.setPoison l).linePoison l = true := Tab.get_set_self bit0 m.poison l true

theorem State.sramEcc_clean : s.sramEcc cl l .clean = s := by
  cases cl <;> exact ite_self _

theorem State.sramEcc_sameBytes (e : EccIn) : s.sameBytes (s.sramEcc cl l e) := by
  have hpoison : ∀ (u : State) a b c, s.sameBytes u → s.sameBytes (u.scbUe a b c) := fun u a b c h => h.trans (u.scbUe_sameBytes a b c)
  cases cl with
  | none =>
    unfold State.sramEcc
    dsimp only
    split
    · exact .refl s
    · split
      · exact (s.sramCe_only _).sameBytes
      · exact hpoison _ _ _ _ ⟨fun a => Mem.rd_setPoison s.hmp l a, fun _ => rfl, fun _ => rfl⟩
      · exact .refl s
  | some c =>
    unfold State.sramEcc
    dsimp only
    split
    · exact .refl s
    · split
      · exact (s.sramCe_only _).sameBytes
      · exact hpoison _ _ _ _ ⟨fun _ => rfl, fun a => Mem.rd_setPoison s.stores l a, fun _ => rfl⟩
      · exact .refl s

theorem State.windowCe_sramEcc (h : s.sramPoison cl l = false) :
    (s.sramEcc cl l .corrected).fld (idlePg cl) F.SCB_CE_CNT_window_ce = min 65535 (s.fld (idlePg cl) F.SCB_CE_CNT_window_ce + 1) := by
  cases cl with
  | none =>
    have hp : s.hmp.linePoison l = false := h
    simp only [State.sramEcc, hp, Bool.false_eq_true, if_false]
    exact s.windowCe_sramCe _
  | some c =>
    have hp : s.stores.linePoison l = false := h
    simp only [State.sramEcc, hp, Bool.false_eq_true, if_false]
    exact s.windowCe_sramCe _

theorem State.sramPoison_sramEcc : (s.sramEcc cl l .uncorrectable).sramPoison cl l = true := by
  cases cl with
  | none =>
    unfold State.sramEcc
    dsimp only
    split
    · next h => exact h
    · show Mem.linePoison (State.hmp _) l = true
      rw [(State.scbUe_mems _ _ _ _).1]
      exact Mem.linePoison_setPoison l s.hmp
  | some c =>
    unfold State.sramEcc
    dsimp only
    split
    · next h => exact h
    · show Mem.linePoison (State.stores _) l = true
      rw [(State.scbUe_mems _ _ _ _).2]
      exact Mem.linePoison_setPoison l s.stores

end

/-! Windows of corrected errors. -/

/-- A threshold that is reached leaves the configuration of its window. -/
theorem State.fld_ceCross {f : Fld} (hf : f.own = true) (s : State) (m : ScbId) : (s.ceCross m).fld (scbPg m) f = s.fld (scbPg m) f := by
  cases m with
  | slice x =>
    simp only [State.ceCross, State.sliceCross]
    split
    · rw [State.fld_setSliceState_page (scbPg_ne_slc (.slice x) x) (scbPg_ne_trl (.slice x)) (Fld.inside_of_own hf), State.fld_event_own hf]
    · rfl
  | cluster cl => exact State.fld_event_own hf _ _ _ _
  | hamper => exact State.fld_event_own hf _ _ _ _

theorem State.ceCfgWrite_fields {s : State} {rq : Requester} {m : ScbId} {v : Nat} (hlock : s.flag (scbPg m) F.PG_LOCK_locked = false) :
    (s.ceCfgWrite rq m v).fld (scbPg m) F.SCB_CE_CFG_ce_thresh = bits v 0 16 ∧
      (s.ceCfgWrite rq m v).fld (scbPg m) F.SCB_CE_CFG_ce_window_h = bits v 16 8 := by
  have hwith : ∀ (u : State) a f, { u with ceStart := a }.fld (scbPg m) f = u.fld (scbPg m) f := fun _ _ _ => rfl
  have hth : ((s.setFld (scbPg m) F.SCB_CE_CFG_ce_thresh (bits v 0 16)).setFld (scbPg m) F.SCB_CE_CFG_ce_window_h (bits v 16 8)).fld (scbPg m)
      F.SCB_CE_CFG_ce_thresh = bits v 0 16 := by
    rw [State.fld_setFld_apart _ _ _ _ (by decide)]
    exact State.fld_setFld_of_lt _ _ _ (bits_lt _ _ _)
  have hh : ((s.setFld (scbPg m) F.SCB_CE_CFG_ce_thresh (bits v 0 16)).setFld (scbPg m) F.SCB_CE_CFG_ce_window_h (bits v 16 8)).fld (scbPg m)
      F.SCB_CE_CFG_ce_window_h = bits v 16 8 := State.fld_setFld_of_lt _ _ _ (bits_lt _ _ _)
  unfold State.ceCfgWrite
  dsimp only
  rw [hlock]
  simp only [Bool.false_eq_true, if_false]
  split
  · rw [State.ceWindowEnd, hwith, hwith]
    exact ⟨(State.fld_setFld_apart _ _ _ _ (by decide)).trans hth, (State.fld_setFld_apart _ _ _ _ (by decide)).trans hh⟩
  · split
    · rw [State.fld_ceCross (by decide), State.fld_ceCross (by decide)]
      exact ⟨hth, hh⟩
    · exact ⟨hth, hh⟩

/-! Self-tests. -/

theorem State.bistRefuse_fields (s : State) (rq : Requester) (pg : Nat) :
    (s.bistRefuse rq pg true).fld pg F.SCB_BIST_refused = min 255 (s.fld pg F.SCB_BIST_refused + 1) ∧
      (s.bistRefuse rq pg true).flag pg F.SCB_BIST_start = s.flag pg F.SCB_BIST_start := by
  simp only [State.bistRefuse, if_true]
  refine ⟨?_, ?_⟩
  · rw [State.fld_event_own (by decide), State.fld_satFld_self, State.fld_countErr_own _ _ _ (by decide)]
    rfl
  · rw [State.flag, State.fld_event_own (by decide), State.fld_satFld_apart (by decide), State.fld_countErr_own _ _ _ (by decide), State.flag]

/-- The state of a memory whose self-test has ended, before a waiting build goes on. -/
def State.bistEnd (s : State) (pg : Nat) (pass : Bool) (payload : List Nat) : State :=
  let s2 := (((s.setFlag pg F.SCB_BIST_start false).setFlag pg F.SCB_BIST_done true).setFlag pg F.SCB_BIST_pass pass).event pg 3
  if pass then s2 else s2.trailPut 0x08 0x1C 2 payload

section
variable (s : State) (m : ScbId) (pass : Bool) (payload : List Nat)

theorem State.bistEnd_fields : (s.bistEnd (scbPg m) pass payload).flag (scbPg m) F.SCB_BIST_start = false ∧
    (s.bistEnd (scbPg m) pass payload).flag (scbPg m) F.SCB_BIST_done = true ∧ (s.bistEnd (scbPg m) pass payload).flag (scbPg m) F.SCB_BIST_pass = pass := by
  have hend : ∀ f : Fld, f.own = true → (s.bistEnd (scbPg m) pass payload).flag (scbPg m) f =
      (((s.setFlag (scbPg m) F.SCB_BIST_start false).setFlag (scbPg m) F.SCB_BIST_done true).setFlag (scbPg m) F.SCB_BIST_pass pass).flag (scbPg m) f :=
    fun f hf => State.flag_of_fld (by
      unfold State.bistEnd
      dsimp only
      split
      · exact State.fld_event_own hf _ _ _ _
      · rw [State.fld_trailPut_page (scbPg_ne_trl m) (Fld.inside_of_own hf), State.fld_event_own hf])
  rw [hend _ (by decide), hend _ (by decide), hend _ (by decide), State.flag_setFlag_apart _ _ _ (by decide), State.flag_setFlag_apart _ _ _ (by decide),
    State.flag_setFlag_self _ _ (by decide), State.flag_setFlag_apart _ _ _ (by decide), State.flag_setFlag_self _ _ (by decide),
    State.flag_setFlag_self _ _ (by decide)]
  exact ⟨rfl, rfl, rfl⟩

theorem State.bistEnd_notes : s.NotesOnly (s.bistEnd (scbPg m) pass payload) := by
  have hev : s.RegsOnly ((((s.setFlag (scbPg m) F.SCB_BIST_start false).setFlag (scbPg m) F.SCB_BIST_done true).setFlag (scbPg m) F.SCB_BIST_pass pass).event
      (scbPg m) 3) := (((State.RegsOnly.setFld _ _ _ _).trans (.setFld _ _ _ _)).trans (.setFld _ _ _ _)).trans (.event _ _ _)
  unfold State.bistEnd
  dsimp only
  split
  · exact hev.notes
  · exact hev.notes.trans (State.trailPut_notes _ _ _ _ _)

theorem State.ptState_bistEnd {p : Nat} (hp : p < 8) : (s.bistEnd (scbPg m) pass payload).ptState p = s.ptState p := by
  have hne := scbPg_ne_pt m hp
  have htrl : P.pt p ≠ P.trl := by
    simp only [P.pt, P.trl]
    omega
  unfold State.bistEnd
  dsimp only
  rw [State.ptState, State.ptState]
  split
  · rw [State.fld_event_own (by decide), State.fld_setFlag_page hne (by decide) (by decide), State.fld_setFlag_page hne (by decide) (by decide),
      State.fld_setFlag_page hne (by decide) (by decide)]
  · rw [State.fld_trailPut_page htrl (by decide), State.fld_event_own (by decide), State.fld_setFlag_page hne (by decide) (by decide),
      State.fld_setFlag_page hne (by decide) (by decide), State.fld_setFlag_page hne (by decide) (by decide)]

/-- No build waits for the test. -/
theorem State.each_buildTry (h : ∀ p, p < 8 → s.ptState p ≠ 1) :
    (s.bistEnd (scbPg m) pass payload).each (List.range 8) (fun p s => s.buildTry p) = s.bistEnd (scbPg m) pass payload :=
  State.each_eq_self fun p hp => by
    rw [State.buildTry, if_pos]
    rw [Bool.or_eq_true, bne_iff_ne, s.ptState_bistEnd m pass payload (List.mem_range.1 hp)]
    exact .inl (h p (List.mem_range.1 hp))

end

/-! The fault log. -/

theorem F.FL_ENTRY_dword_inside {i : Nat} (hi : i < 512) : (F.FL_ENTRY_dword i).inside = true := by
  simp only [Fld.inside, Bool.and_eq_true, decide_eq_true_eq]
  exact ⟨show 0x800 + 4 * i < 4096 by omega, show 0 < 32 by decide⟩

theorem F.FL_ENTRY_dword_apart {i j : Nat} (hi : i < 512) (hj : j < 512) (hne : i ≠ j) : (F.FL_ENTRY_dword i).apart (F.FL_ENTRY_dword j) = true := by
  simp only [Fld.apart, Bool.and_eq_true, Bool.or_eq_true, decide_eq_true_eq, bne_iff_ne]
  simp only [F.FL_ENTRY_dword]
  omega

theorem F.FL_TAIL_count_apart {i : Nat} (hi : i < 512) : F.FL_TAIL_count.apart (F.FL_ENTRY_dword i) = true := by
  simp only [Fld.apart, Bool.and_eq_true, Bool.or_eq_true, decide_eq_true_eq, bne_iff_ne]
  simp only [F.FL_ENTRY_dword, F.FL_TAIL_count]
  omega

theorem State.flogClear_fields (s : State) (n : Nat) : (s.flogClear n).fld (P.ten n 10) F.FL_TAIL_count = 0 ∧
    (∀ i, i < 512 → (s.flogClear n).fld (P.ten n 10) (F.FL_ENTRY_dword i) = 0) ∧
    ∀ k, k ≠ n → (s.flogClear n).fld (P.ten k 10) F.FL_TAIL_count = s.fld (P.ten k 10) F.FL_TAIL_count := by
  have hpage : ∀ k, k ≠ n → P.ten k 10 ≠ P.ten n 10 := fun k hk => by
    simp only [P.ten]
    omega
  unfold State.flogClear
  refine ⟨?_, fun i hi => ?_, fun k hk => ?_⟩
  · rw [State.fld_each_setFld_other _ fun i hi => fkey_ne_of_apart (F.FL_TAIL_count_apart (List.mem_range.1 hi)) _ _, State.fld_setFld_self]
    rfl
  · rw [State.fld_each_range_setFld hi fun j hj hne => fkey_ne_of_apart (F.FL_ENTRY_dword_apart hi hj (Ne.symm hne)) _ _]
    rfl
  · rw [State.fld_each_setFld_other _ fun i hi => fkey_ne_of_page (hpage k hk) (by decide) (F.FL_ENTRY_dword_inside (List.mem_range.1 hi)),
      State.fld_setFld_page _ _ _ _ (hpage k hk) (by decide) (by decide)]

/-! Commands. -/

section Idle
variable {s : State} {cl : Option (Fin 64)}

/-- The visit of a line that is not the last. -/
theorem exec_idleScrubLine_line (hr : s.ready = true) (hen : s.flag (idlePg cl) F.SCB_I_CTL_enable = true) (hav : s.unavailable (idlePg cl) = false) (ecc : EccIn)
    {l l' : Nat} {ls : List Nat} (hls : s.scrubLines cl (Tab.get nat0 s.scrubPos (idlePg cl)) = l :: l' :: ls) : exec (.idleScrubLine cl ecc) s =
      .next { s.sramEcc cl l ecc with scrubPos := Tab.set nat0 s.scrubPos (idlePg cl) (scrubIdx cl l + 1) } := by
  show Host.Outcome.next _ = _
  simp only [hr, hen, hav, hls]
  rfl

theorem exec_idleScrubLine_lap (hr : s.ready = true) (hen : s.flag (idlePg cl) F.SCB_I_CTL_enable = true) (hav : s.unavailable (idlePg cl) = false) (ecc : EccIn)
    (hls : s.scrubLines cl (Tab.get nat0 s.scrubPos (idlePg cl)) = []) : exec (.idleScrubLine cl ecc) s = .next (s.lapEnd (idlePg cl)) := by
  show Host.Outcome.next _ = _
  simp only [hr, hen, hav, hls]
  rfl

/-- What the visit of a line leaves. -/
theorem idleScrubLine_fields (l : Nat) (ecc : EccIn) {t : State}
    (ht : t = { s.sramEcc cl l ecc with scrubPos := Tab.set nat0 s.scrubPos (idlePg cl) (scrubIdx cl l + 1) }) :
    Tab.get nat0 t.scrubPos (idlePg cl) = scrubIdx cl l + 1 ∧ s.sameBytes t ∧ (ecc = .clean → t.regs = s.regs) ∧
      (ecc = .corrected → s.sramPoison cl l = false →
        t.fld (idlePg cl) F.SCB_CE_CNT_window_ce = min 65535 (s.fld (idlePg cl) F.SCB_CE_CNT_window_ce + 1)) ∧
      (ecc = .uncorrectable → t.sramPoison cl l = true) := by
  subst ht
  refine ⟨Tab.get_set_self nat0 s.scrubPos (idlePg cl) (scrubIdx cl l + 1), ?_, ?_, ?_, ?_⟩
  · exact (s.sramEcc_sameBytes cl l ecc).trans (State.sameBytes_of_eq rfl rfl rfl)
  · rintro rfl
    rw [s.sramEcc_clean cl l]
  · rintro rfl hp
    exact s.windowCe_sramEcc cl l hp
  · rintro rfl
    exact s.sramPoison_sramEcc cl l

end Idle

section Patrol
variable {s : State} {x : Fin 512} (hr : s.ready = true) (hen : s.flag (P.scbP x) F.SCB_P_CTL_enable = true) (hs : s.sliceServes x = true)
  (hf : s.fenced (x / 64) = false)
include hr hen hs hf

/-- A clean line of a patrol scrubber that is not its last. -/
theorem exec_patrolScrubStep (hlt : Tab.get nat0 s.scrubPos (P.scbP x) + 1 < sliceLines) : exec (.patrolScrubStep x .clean) s =
    .next ({ s with scrubPos := Tab.set nat0 s.scrubPos (P.scbP x) (Tab.get nat0 s.scrubPos (P.scbP x) + 1) }.setFld (P.scbP x) F.SCB_P_STS_pct
      (100 * (Tab.get nat0 s.scrubPos (P.scbP x) + 1) / sliceLines)) := by
  show Host.Outcome.next _ = _
  simp only [hr, hen, hs, hf, State.sliceEcc_clean, if_neg (Nat.ne_of_lt hlt)]
  rfl

/-- The last line of a pass. -/
theorem exec_patrolScrubStep_last (hlast : Tab.get nat0 s.scrubPos (P.scbP x) + 1 = sliceLines) : exec (.patrolScrubStep x .clean) s =
    .next ((({ s with scrubPos := Tab.set nat0 s.scrubPos (P.scbP x) 0 }.satFld (P.scbP x) F.SCB_P_STS_passes 1).setFld (P.scbP x) F.SCB_P_STS_pct 0).event
      (P.scbP x) 0) := by
  show Host.Outcome.next _ = _
  simp only [hr, hen, hs, hf, State.sliceEcc_clean, if_pos hlast]
  rfl

end Patrol

theorem memorySelfTest_of_grants {s : State} {rq : Requester} {m : ScbId} {w : Word} (hg : s.grants rq (scbPg m) = true) (hw : bitOf w.toNat 0 = true) :
    exec (.memorySelfTest rq m w) s = .next (s.bistStart rq m w.toNat) := by
  show Host.Outcome.next _ = _
  rw [State.tileWrite_of_grants hg]
  unfold State.bistWrite
  rw [if_pos hw]

theorem State.bistStart_slice (s : State) (rq : Requester) (x : Fin 512) (v : Nat) : s.bistStart rq (.slice x) v =
    if s.flag (P.scbP x) F.SCB_BIST_start then s
    else if s.sliceState x == 4 || (s.sliceState x == 1 && s.inNoSet x) then s.setFlag (P.scbP x) F.SCB_BIST_start true
    else s.bistRefuse rq (P.scbP x) true := rfl

/-- Settles O51: scrubbers, windows, self-tests and the fault log, each by the fields its end writes. -/
theorem scrubAndSelfTest : Obligations.ScrubAndSelfTest := by
  unfold Obligations.ScrubAndSelfTest
  refine ⟨fun s cl x m rq w ecc => ⟨fun hr hen hav => ⟨fun l l' ls hls => ?line, fun hls => ?lap⟩, fun hr hen hinc => ?limit, fun hr => ?notReady,
    fun hr hen hs hf l hl => ⟨fun hlt => ?patrol, fun hlast => ?pass⟩, ?window, fun hg => ⟨fun hlock => ?cfg, fun hlock hne => ?locked⟩⟩,
    fun s x cl n rq w => ⟨fun hg hw hst => ⟨fun hx => ?start, fun h4 h1 => ?refused⟩, fun hg hw hst p hp hsp hfree => ?cluster, fun hg hw => ?hamper,
    fun hpt => ⟨fun pass hst => ?doneSlice, fun pass p hst hp => ?doneCluster⟩, fun m pass hst => ?notStarted, fun hg => ?log⟩⟩
  case line =>
    exact ⟨_, exec_idleScrubLine_line hr hen hav ecc hls, idleScrubLine_fields l ecc rfl⟩
  case lap =>
    obtain ⟨hpos, hinc, hev, hstart⟩ := s.lapEnd_fields (idlePg cl)
    exact ⟨_, exec_idleScrubLine_lap hr hen hav ecc hls, hpos, hinc, hev, hstart, s.lapEnd_sameBytes _⟩
  case limit =>
    refine ⟨((s.setFlag (idlePg cl) F.SCB_I_LAP_incomplete true).satFld (idlePg cl) F.SCB_I_LAP_laps_late 1).event (idlePg cl) 1, ?_, ?_, ?_, ?_⟩
    · show Host.Outcome.next _ = _
      simp only [hr, hen, hinc]
      rfl
    · rw [State.flag, State.fld_event_own (by decide), State.fld_satFld_apart (by decide), State.fld_setFlag_self _ _ (by decide)]
      rfl
    · rw [State.fld_event_own (by decide), State.fld_satFld_self, State.fld_setFlag_apart _ _ _ (by decide)]
      rfl
    · exact State.bit_event _ _ (by decide)
  case notReady =>
    refine ⟨?_, ?_, ?_⟩
    all_goals
      show Host.Outcome.next _ = _
      rw [hr]
      rfl
  case patrol =>
    subst hl
    refine ⟨_, exec_patrolScrubStep hr hen hs hf hlt, ?_, ?_, ?_, ?_⟩
    · exact Tab.get_set_self nat0 s.scrubPos (P.scbP x) (Tab.get nat0 s.scrubPos (P.scbP x) + 1)
    · refine State.fld_setFld_of_lt _ _ _ ?_
      rw [sliceLines] at hlt ⊢
      show _ < 128
      omega
    · exact (State.sameRegs_of_regs rfl _).setFld (by simp) _
    · exact State.sameBytes_of_eq rfl rfl rfl
  case pass =>
    subst hl
    refine ⟨_, exec_patrolScrubStep_last hr hen hs hf hlast, ?_, ?_, ?_⟩
    · rw [State.event_scrubPos]
      exact Tab.get_set_self nat0 s.scrubPos (P.scbP x) 0
    · rw [State.fld_event_own (by decide), State.fld_setFld_apart _ _ _ _ (by decide), State.fld_satFld_self]
      rfl
    · rw [State.fld_event_own (by decide), State.fld_setFld_self]
      rfl
  case window =>
    refine ⟨s.ceWindowEnd (scbPg m), rfl, ?_, Tab.get_set_self nat0 s.ceStart (scbPg m) s.now, (State.sameRegs.refl s _).setFld (by simp) 0, State.sameBytes_of_eq rfl rfl rfl⟩
    exact State.fld_setFld_self s _ _ _
  case cfg =>
    obtain ⟨hth, hh⟩ := State.ceCfgWrite_fields (rq := rq) (v := w.toNat) hlock
    refine ⟨s.ceCfgWrite rq m w.toNat, ?_, hth, hh, State.sameBytes_of_mems (State.ceCfgWrite_mem s rq m _ s.mems_memsOf)⟩
    show Host.Outcome.next _ = _
    rw [State.tileWrite_of_grants hg]
  case locked =>
    have hsame : (s.fld (scbPg m) F.SCB_CE_CFG_ce_thresh == bits w.toNat 0 16) = false := beq_eq_false_iff_ne.2 hne
    show Host.Outcome.next _ = _
    rw [State.tileWrite_of_grants hg]
    unfold State.ceCfgWrite
    simp only [hlock, hsame, Bool.false_and, Bool.false_eq_true, if_true, if_false]
  case start =>
    have hcond : (s.sliceState x == 4 || s.sliceState x == 1 && s.inNoSet x) = true := by
      rw [Bool.or_eq_true, Bool.and_eq_true, beq_iff_eq, beq_iff_eq]
      exact hx
    rw [memorySelfTest_of_grants (m := .slice x) hg hw, State.bistStart_slice, hst, hcond]
    rfl
  case refused =>
    have hcond : (s.sliceState x == 4 || s.sliceState x == 1 && s.inNoSet x) = false := by
      rw [Bool.or_eq_false_iff, Bool.and_eq_false_iff, beq_eq_false_iff_ne, beq_eq_false_iff_ne]
      exact ⟨h4, h1⟩
    obtain ⟨hcount, hstart⟩ := s.bistRefuse_fields rq (P.scbP x)
    refine ⟨s.bistRefuse rq (P.scbP x) true, ?_, hcount, hstart.trans hst, State.sameBytes_of_mems (State.bistRefuse_mem s rq _ _ s.mems_memsOf)⟩
    rw [memorySelfTest_of_grants (m := .slice x) hg hw, State.bistStart_slice, hst, hcond]
    rfl
  case cluster =>
    subst hp
    have hcond : (s.isSpare (8 * cl.val + bits w.toNat 1 3) && [0, 1, 2].all fun k => decide (s.spareNow (8 * cl.val + bits w.toNat 1 3) k < 128)) = true := by
      rw [hsp, Bool.true_and, List.all_eq_true]
      intro k hk
      refine decide_eq_true (hfree k ?_)
      simp only [List.mem_cons, List.not_mem_nil, or_false] at hk
      omega
    have hwith : ∀ (u : State) a f, { u with bistCore := a }.fld (P.scbC cl) f = u.fld (P.scbC cl) f := fun _ _ _ => rfl
    refine ⟨{ (s.setFld (P.scbC cl) F.SCB_BIST_target (bits w.toNat 1 3)).setFlag (P.scbC cl) F.SCB_BIST_start true with
      bistCore := Tab.set spare0 s.bistCore cl (some (bits w.toNat 1 3)) }, ?_, ?_, ?_, ?_, State.sameBytes_of_eq rfl rfl rfl⟩
    · rw [memorySelfTest_of_grants (m := .cluster cl) hg hw]
      simp only [State.bistStart, scbPg, hst, hcond, Bool.false_eq_true, if_false, if_true]
      rfl
    · rw [State.flag, hwith, State.fld_setFlag_self _ _ (by decide)]
      rfl
    · rw [hwith, State.fld_setFlag_apart _ _ _ (by decide)]
      exact State.fld_setFld_of_lt _ _ _ (bits_lt _ _ _)
    · exact Tab.get_set_self spare0 s.bistCore cl (some (bits w.toNat 1 3))
  case hamper =>
    rw [memorySelfTest_of_grants (m := .hamper) hg hw]
    rfl
  case doneSlice =>
    generalize hs1 : { s with slices := s.slices.clear (x.val * 32768) 32768 } = s1
    have hexec : exec (.selfTestDone (.slice x) pass) s = .next ((s1.bistEnd (P.scbP x) pass
        [2, pgId (P.scbP x), s.fld (P.scbP x) F.SCB_BIST_target, 0]).each (List.range 8) fun p s => s.buildTry p) := by
      rw [← hs1]
      show Host.Outcome.next _ = _
      simp only [scbPg, hst]
      rfl
    obtain ⟨hstart, hdone, hpass⟩ := s1.bistEnd_fields (.slice x) pass [2, pgId (P.scbP x), s.fld (P.scbP x) F.SCB_BIST_target, 0]
    obtain ⟨hh, hsto, hsl⟩ := (s1.bistEnd_notes (.slice x) pass [2, pgId (P.scbP x), s.fld (P.scbP x) F.SCB_BIST_target, 0]).mems
    refine ⟨_, hexec.trans (congrArg Host.Outcome.next (s1.each_buildTry (.slice x) pass _ fun p hp => by rw [← hs1]; exact hpt p hp)), ?_⟩
    refine ⟨hstart, hdone, hpass, hh.trans (by rw [← hs1]), hsto.trans (by rw [← hs1]), fun b => ?_⟩
    rw [hsl, ← hs1]
    refine (SMem.rd_clear _ _ _ _).trans (if_congr ?_ rfl rfl)
    rw [skey, sliceSize]
    omega
  case doneCluster =>
    generalize hs1 : { s.clearStores (8 * cl.val + p) with bistCore := Tab.set spare0 s.bistCore cl none } = s1
    have hexec : exec (.selfTestDone (.cluster cl) pass) s = .next ((s1.bistEnd (P.scbC cl) pass
        [2, pgId (P.scbC cl), s.fld (P.scbC cl) F.SCB_BIST_target, 0]).each (List.range 8) fun p s => s.buildTry p) := by
      rw [← hs1]
      show Host.Outcome.next _ = _
      simp only [scbPg, hst, hp]
      rfl
    obtain ⟨hstart, -, hpass⟩ := s1.bistEnd_fields (.cluster cl) pass [2, pgId (P.scbC cl), s.fld (P.scbC cl) F.SCB_BIST_target, 0]
    obtain ⟨-, hsto, hsl⟩ := (s1.bistEnd_notes (.cluster cl) pass [2, pgId (P.scbC cl), s.fld (P.scbC cl) F.SCB_BIST_target, 0]).mems
    refine ⟨_, hexec.trans (congrArg Host.Outcome.next (s1.each_buildTry (.cluster cl) pass _ fun q hq => by rw [← hs1]; exact hpt q hq)), ?_⟩
    refine ⟨hstart, hpass, hsl.trans (by rw [← hs1]; rfl), fun b => ?_⟩
    rw [hsto, ← hs1]
    exact Mem.rd_clear _ _ _ _
  case notStarted =>
    show Host.Outcome.next _ = _
    simp only [hst, Bool.not_false, if_true]
  case log =>
    obtain ⟨htail, hent, hother⟩ := s.flogClear_fields n
    refine ⟨s.flogClear n, ?_, htail, hent, State.sameBytes_of_mems (State.flogClear_mem s n s.mems_memsOf), fun k _ hk => hother k hk⟩
    show Host.Outcome.next _ = _
    rw [State.privWrite_of_grants hg]

end Sys2Proof.Machine
end

section
/-! Streams: windows, frames, flow control (11 R273-R282). -/
namespace Sys2Proof.Machine

/-! Fields of a stream context. -/

section
variable (s : State) (k v : Nat) {f g : Nat → Fld}

theorem State.skf_setSkf_apart (h : ∀ i < 64, (f i).apart (g i) = true) : (s.setSkf k g v).skf k f = s.skf k f :=
  State.fld_setFld_apart _ _ _ _ (h _ (Nat.mod_lt _ (by decide)))

theorem State.skf_setSkf_self : (s.setSkf k f v).skf k f = v % 2 ^ (f (k % 64)).len := State.fld_setFld_self _ _ _ _

theorem State.skf_satFld_apart (h : ∀ i < 64, (f i).apart (g i) = true) (n : Nat) : (s.satFld (P.stream k) (g (k % 64)) n).skf k f = s.skf k f :=
  State.skf_setSkf_apart s k _ h

theorem State.skf_setSk (x : SkSt) : (s.setSk k x).skf k f = s.skf k f := rfl

end

theorem P.stream_ne_stp0 (k : Nat) : P.stp 0 ≠ P.stream k := by
  simp only [P.stp, P.stream]
  omega

/-- A field that the registers of the stream's own state do not meet. -/
def SkApart (f : Nat → Fld) : Prop :=
  ∀ i < 64, (f i).apart (F.STP_SK_FILL_value i) = true ∧ (f i).apart (F.STP_SK_STS_records i) = true ∧ (f i).apart (F.STP_SK_STS_open i) = true

theorem skApart_state : SkApart F.STP_SK_STS_state := by
  unfold SkApart
  decide

theorem skApart_expect : SkApart F.STP_SK_EXPECT_value := by
  unfold SkApart
  decide

theorem skApart_ringCount : SkApart F.STP_SK_RING_count := by
  unfold SkApart
  decide

theorem skApart_coastCount : SkApart F.STP_SK_COAST_count := by
  unfold SkApart
  decide

theorem skApart_lost : SkApart F.STP_SK_CNT1_lost := by
  unfold SkApart
  decide

theorem State.skf_skRegs {f : Nat → Fld} (h : SkApart f) (s : State) (k : Nat) : (s.skRegs k).skf k f = s.skf k f := by
  rw [State.skRegs, State.skf_setSkf_apart _ _ _ fun i hi => (h i hi).2.2, State.skf_setSkf_apart _ _ _ fun i hi => (h i hi).2.1,
    State.skf_setSkf_apart _ _ _ fun i hi => (h i hi).1]

theorem State.skFill_skRegs (s : State) (k : Nat) : (s.skRegs k).skf k F.STP_SK_FILL_value = (s.sk k).fill % 2 ^ 32 := by
  rw [State.skRegs, State.skf_setSkf_apart _ _ _ (by decide), State.skf_setSkf_apart _ _ _ (by decide), State.skf_setSkf_self]
  rfl

/-! States that a stream's bookkeeping leaves as they were. -/

/-- The stream's own state, the fields apart from its own registers, the bytes and what was sent are the same. -/
structure SkQuiet (k : Nat) (s t : State) : Prop where
  sk : t.sk k = s.sk k
  flds : ∀ f : Nat → Fld, SkApart f → t.skf k f = s.skf k f
  hmp : t.hmp = s.hmp
  stores : t.stores = s.stores
  slices : t.slices = s.slices
  outs : t.outs = s.outs

theorem SkQuiet.trans {k : Nat} {s t u : State} (h1 : SkQuiet k s t) (h2 : SkQuiet k t u) : SkQuiet k s u :=
  ⟨h2.sk.trans h1.sk, fun f hf => (h2.flds f hf).trans (h1.flds f hf), h2.hmp.trans h1.hmp, h2.stores.trans h1.stores, h2.slices.trans h1.slices,
    h2.outs.trans h1.outs⟩

theorem skQuiet_skRegs (s : State) (k : Nat) : SkQuiet k s (s.skRegs k) := ⟨rfl, fun _ hf => State.skf_skRegs hf s k, rfl, rfl, rfl, rfl⟩

theorem skQuiet_skPublishN_zero (s : State) (k : Nat) : SkQuiet k s (s.skPublishN k 0) :=
  SkQuiet.trans (t := s.setSk k (s.sk k)) ⟨State.sk_setSk_self _ _ _, fun _ _ => rfl, rfl, rfl, rfl, rfl⟩ (skQuiet_skRegs _ k)

/-- No frame at the head of the stream is complete. -/
def SkSt.short (v : SkSt) : Prop := ∀ f ∈ v.frames, f.got < f.len

theorem skQuiet_skFlush {s : State} {k : Nat} (h : (s.sk k).short) : SkQuiet k s (s.skFlush k) := by
  have hnone : (s.sk k).frames.takeWhile (fun f => decide (f.len ≤ f.got)) = [] := by
    cases hfs : (s.sk k).frames with
    | nil => rfl
    | cons f fs =>
      have := h f (by rw [hfs]; exact List.mem_cons_self ..)
      rw [List.takeWhile_cons_of_neg]
      simpa using this
  rw [State.skFlush, hnone]
  exact skQuiet_skPublishN_zero s k

theorem foldl_range_of_le_one {n : Nat} {g : Nat → Nat → Nat} (hn : n ≤ 1) (hg : g 0 0 = 0) : (List.range n).foldl g 0 = 0 := by
  match n, hn with
  | 0, _ => rfl
  | 1, _ => exact hg

/-- With one open frame at most, closing what the window has passed publishes nothing. -/
theorem skQuiet_skClose {s : State} {k : Nat} (h : (s.sk k).short) (hone : (s.sk k).frames.length ≤ 1) : SkQuiet k s (s.skClose k) := by
  have hpub := skQuiet_skPublishN_zero s k
  rw [State.skClose, foldl_range_of_le_one hone]
  · exact hpub.trans (skQuiet_skFlush (by rw [hpub.sk]; exact h))
  · split
    · exact ite_self 0
    · rfl

/-- The end of a datagram or a gap that publishes nothing. -/
theorem skQuiet_settle {s : State} {k : Nat} (h : (s.sk k).short) (hone : (s.sk k).frames.length ≤ 1) : SkQuiet k s (((s.skFlush k).skClose k).skRegs k) := by
  have hflush := skQuiet_skFlush h
  exact (hflush.trans (skQuiet_skClose (by rw [hflush.sk]; exact h) (by rw [hflush.sk]; exact hone))).trans (skQuiet_skRegs _ k)

/-! The window. -/

section
variable (s : State) (k e : Nat) (l : List Nat) (lost : Nat)

/-- What a move of the window leaves. -/
theorem State.skMove_keeps : (s.skMove k e l lost).hmp = s.hmp ∧ (s.skMove k e l lost).stores = s.stores ∧ (s.skMove k e l lost).slices = s.slices ∧
    (s.skMove k e l lost).outs = s.outs := ⟨rfl, rfl, rfl, rfl⟩

theorem State.sk_skMove : (s.skMove k e l lost).sk k = { s.sk k with seen := (skAdvance 1025 e l).2, est := true, lost := (s.sk k).lost + lost } :=
  State.sk_setSk_self s k _

theorem State.skExpect_skMove : (s.skMove k e l lost).skf k F.STP_SK_EXPECT_value = (skAdvance 1025 e l).1 % 2 ^ 32 := by
  rw [State.skMove]
  dsimp only
  rw [State.skf_satFld_apart _ _ (by decide), State.skf_setSkf_self]
  rfl

theorem State.skLost_skMove : (s.skMove k e l lost).skf k F.STP_SK_CNT1_lost = min 65535 (s.skf k F.STP_SK_CNT1_lost + lost) := by
  rw [State.skMove]
  dsimp only
  refine (State.fld_satFld_self _ _ _ _).trans ?_
  rw [show State.fld _ (P.stream k) (F.STP_SK_CNT1_lost (k % 64)) = s.skf k F.STP_SK_CNT1_lost from
    (State.skf_setSkf_apart (f := F.STP_SK_CNT1_lost) _ _ _ (by decide)).trans (State.skf_setSk s k _)]
  rfl

theorem State.skf_skMove {f : Nat → Fld} (h : ∀ i < 64, (f i).apart (F.STP_SK_EXPECT_value i) = true ∧ (f i).apart (F.STP_SK_CNT1_lost i) = true) :
    (s.skMove k e l lost).skf k f = s.skf k f := by
  rw [State.skMove]
  dsimp only
  rw [State.skf_satFld_apart _ _ fun i hi => (h i hi).2, State.skf_setSkf_apart _ _ _ fun i hi => (h i hi).1, State.skf_setSk]

end

/-- A window of one sequence at E moves past it. -/
theorem skAdvance_one (e : Nat) : skAdvance 1025 e [e] = ((e + 1) % 2 ^ 32, []) := by
  have hnext : skAdvance 1025 e [e] = skAdvance 1024 ((e + 1) % 2 ^ 32) [] := by
    rw [skAdvance, if_pos (by simp)]
    simp
  rw [hnext, skAdvance]
  simp

theorem skAdvance_of_not_mem {e : Nat} {l : List Nat} (h : l.contains e = false) : skAdvance 1025 e l = (e, l) := by
  rw [skAdvance, h]
  rfl

/-! Writes into the ring. -/

theorem State.each_comm {α : Type} {φ : State → State} {g : α → State → State} (h : ∀ a t, g a (φ t) = φ (g a t)) (s : State) (l : List α) :
    (φ s).each l g = φ (s.each l g) := by
  induction l generalizing s with
  | nil => rfl
  | cons a l ih => rw [State.each_cons, State.each_cons, h, ih]

section
variable (s : State) (k : Nat) (x : SkSt)

theorem State.skPut_setSk (off : Nat) (bs : List Byte) : (s.setSk k x).skPut k off bs = (s.skPut k off bs).setSk k x := by
  refine State.each_comm (φ := fun t => t.setSk k x) (fun a t => ?_) s _
  show (match t.apAddr (t.skTenant k) a.1 with | some b => _ | none => _) = State.setSk (match t.apAddr (t.skTenant k) a.1 with | some b => _ | none => _) k x
  cases t.apAddr (t.skTenant k) a.1 <;> rfl

theorem State.skPutData_setSk (b : Nat) (bs : List Byte) : (s.setSk k x).skPutData k b bs = (s.skPutData k b bs).setSk k x := by
  have hrun : ∀ (u : State) c (ds : List Byte), (u.setSk k x).each (segs 65536 c ds.length) (fun g t => t.skPut k (t.skData k g.1) ((ds.drop (g.1 - c)).take g.2)) =
      (u.each (segs 65536 c ds.length) fun g t => t.skPut k (t.skData k g.1) ((ds.drop (g.1 - c)).take g.2)).setSk k x := fun u c ds =>
    State.each_comm (φ := fun t => t.setSk k x) (fun a t => t.skPut_setSk k x _ _) u _
  unfold State.skPutData
  dsimp only
  rw [hrun, hrun]
  rfl

theorem State.skPut_only (off : Nat) (bs : List Byte) : ∃ m, s.skPut k off bs = { s with hmp := m } := by
  refine State.each_keeps (fun u => ∃ m, u = { s with hmp := m }) s _ _ (fun a _ u hu => ?_) ⟨_, rfl⟩
  obtain ⟨m, rfl⟩ := hu
  split
  · exact ⟨_, rfl⟩
  · exact ⟨_, rfl⟩

theorem State.skPutData_only (b : Nat) (bs : List Byte) : ∃ m, s.skPutData k b bs = { s with hmp := m } := by
  have hrun : ∀ (u : State) c (ds : List Byte), (∃ m, u = { s with hmp := m }) →
      ∃ m, u.each (segs 65536 c ds.length) (fun g t => t.skPut k (t.skData k g.1) ((ds.drop (g.1 - c)).take g.2)) = { s with hmp := m } := fun u c ds hu =>
    State.each_keeps (fun u => ∃ m, u = { s with hmp := m }) u _ _ (fun a _ u hu => by
      obtain ⟨m, rfl⟩ := hu
      obtain ⟨m', h⟩ := State.skPut_only { s with hmp := m } k (State.skData { s with hmp := m } k a.1) ((ds.drop (a.1 - c)).take a.2)
      exact ⟨m', h⟩) hu
  exact hrun _ _ _ (hrun _ _ _ ⟨_, rfl⟩)

end

/-! Datagrams of an open frame. -/

/-- The frame once one more range of it has been placed. -/
def SkFrame.placed (f : SkFrame) (off q n : Nat) : SkFrame :=
  { f with got := f.got + n, lo := if f.ranges.isEmpty || seqBelow q f.lo then q else f.lo, hi := if f.ranges.isEmpty || seqBelow f.hi q then q else f.hi,
           reord := f.reord || (!f.ranges.isEmpty && seqBelow q f.hi), dbl := false, ranges := f.ranges ++ [(off, n)] }

/-- A datagram of the only frame, apart from its ranges: its bytes, and the frame with one more range. -/
theorem State.skPlace_of_one {s : State} {k : Nat} {fr : SkFrame} (hfr : (s.sk k).frames = [fr]) (hdbl : fr.dbl = false) (off q : Nat) (data : List Byte)
    (hoff : ∀ r ∈ fr.ranges, off + data.length ≤ r.1 ∨ r.1 + r.2 ≤ off) :
    s.skPlace k fr.id off q data = (s.skPutData k (fr.b + off) data).setSk k { s.sk k with frames := [fr.placed off q data.length] } := by
  have hover : (fr.dbl || fr.ranges.any fun r => decide (r.1 < off + data.length) && decide (off < r.1 + r.2)) = false := by
    rw [hdbl, Bool.false_or, List.any_eq_false]
    intro r hr
    have := hoff r hr
    simp only [Bool.and_eq_true, decide_eq_true_eq, not_and]
    omega
  have hsk : (s.skPutData k (fr.b + off) data).sk k = s.sk k := by
    obtain ⟨m, h⟩ := s.skPutData_only k (fr.b + off) data
    rw [h]
    rfl
  unfold State.skPlace
  simp only [hfr, List.find?_cons_of_pos (l := []) (p := fun g : SkFrame => g.id == fr.id) (beq_self_eq_true fr.id), hover, Bool.false_eq_true, if_false, List.map_cons,
    List.map_nil, if_true, hsk]
  rfl

theorem leNat_lt (l : List Byte) : leNat l < 256 ^ l.length := by
  induction l with
  | nil => decide
  | cons b l ih =>
    have := b.isLt
    rw [leNat, List.length_cons, Nat.pow_succ]
    omega

theorem beNum_lt (b : List Byte) (o n : Nat) : beNum b o n < 256 ^ n :=
  lt_of_lt_of_le (leNat_lt _) (Nat.pow_le_pow_right (by decide) (by rw [List.length_reverse]; exact List.length_take_le _ _))

/-- A datagram in order for an enabled stream whose frame is open: the window moves, the bytes land, and the bookkeeping follows. -/
theorem State.skDatagram_of_open {s : State} {k : Nat} {u : List Byte} {fr : SkFrame} (hst : s.skState k ≠ 1) (hbad : s.skBad k u = false)
    (hrestart : bitOf (beNum u 1 1) 1 = false) (hest : (s.sk k).est = true) (hseen : (s.sk k).seen = [])
    (hexp : s.skf k F.STP_SK_EXPECT_value = beNum u 4 4) (hfr : (s.sk k).frames = [fr]) (hid : fr.id = beNum u 8 4) (hmax : beNum u 16 4 ≤ s.skMax k) :
    ∃ m, (m = s.skMove k (beNum u 4 4) [beNum u 4 4] 0 ∨ m = (s.skMove k (beNum u 4 4) [beNum u 4 4] 0).setSk k
        { (s.skMove k (beNum u 4 4) [beNum u 4 4] 0).sk k with dropId := none }) ∧
      s.skDatagram k u = (((m.skPlace k fr.id (beNum u 12 4) (beNum u 4 4) (u.drop 24)).skFlush k).skClose k).skRegs k := by
  have hseq : s.skSeq k (beNum u 4 4) = (s.skMove k (beNum u 4 4) [beNum u 4 4] 0, true) := by
    simp [State.skSeq, hest, hseen, hexp]
  have hpub : ((s.skMove k (beNum u 4 4) [beNum u 4 4] 0).sk k).pub.contains (beNum u 8 4) = false := by
    rw [State.sk_skMove]
    simp only [State.skBad, Bool.or_eq_false_iff] at hbad
    exact hbad.2
  generalize hM : s.skMove k (beNum u 4 4) [beNum u 4 4] 0 = M at hseq hpub
  have hMst : M.skState k ≠ 1 := by
    rw [← hM, State.skState, State.skf_skMove s k _ _ _ (by decide)]
    exact hst
  have hMfr : (M.sk k).frames = [fr] := by
    rw [← hM, State.sk_skMove]
    exact hfr
  have hMmax : M.skMax k = s.skMax k := by
    rw [← hM, State.skMax, State.skf_skMove s k _ _ _ (by decide), State.skMax]
  have hplace : ∀ m : State, m.skMax k = s.skMax k → (m.sk k).frames = [fr] → ∀ a b : State,
      (if m.skMax k < beNum u 16 4 then a else if (m.sk k).frames.any (·.id == beNum u 8 4) then
        m.skPlace k (beNum u 8 4) (beNum u 12 4) (beNum u 4 4) (u.drop 24) else b) =
      m.skPlace k fr.id (beNum u 12 4) (beNum u 4 4) (u.drop 24) := fun m h1 h2 a b => by
    rw [if_neg (by rw [h1]; omega), h2, hid, if_pos]
    rw [List.any_cons, hid, beq_self_eq_true]
    rfl
  unfold State.skDatagram
  simp only [hrestart, Bool.false_eq_true, if_false, hseq, Bool.not_true, hpub, if_neg hMst]
  split
  · exact ⟨M, .inl rfl, by rw [hplace M hMmax hMfr]⟩
  · exact ⟨_, .inr rfl, by
      rw [hplace (M.setSk k { M.sk k with dropId := none }) hMmax (by rw [State.sk_setSk_self]; exact hMfr)]⟩

/-- The state after a datagram of the only, still short frame. -/
theorem completes_skDatagram {s : State} {n : Fin 2} {f : EthFrame} {k : Nat} {fr : SkFrame}
    (hexec : exec (.datagramReceive n f) s = .next (s.skDatagram k f.udp)) (hst : s.skState k ≠ 1) (hbad : s.skBad k f.udp = false)
    (hrestart : bitOf (beNum f.udp 1 1) 1 = false) (hest : (s.sk k).est = true) (hseen : (s.sk k).seen = [])
    (hexp : s.skf k F.STP_SK_EXPECT_value = beNum f.udp 4 4) (hfr : (s.sk k).frames = [fr]) (hdbl : fr.dbl = false) (hid : fr.id = beNum f.udp 8 4)
    (hmax : beNum f.udp 16 4 ≤ s.skMax k) (hshort : fr.got + (f.udp.drop 24).length < fr.len)
    (hranges : ∀ r ∈ fr.ranges, beNum f.udp 12 4 + (f.udp.drop 24).length ≤ r.1 ∨ r.1 + r.2 ≤ beNum f.udp 12 4) :
    Completes (.datagramReceive n f) s fun t => t.skf k F.STP_SK_EXPECT_value = (beNum f.udp 4 4 + 1) % 2 ^ 32 ∧ (t.sk k).tail = (s.sk k).tail ∧ (t.sk k).seen = [] ∧
      (∃ g, (t.sk k).frames = [g] ∧ g.id = fr.id ∧ g.b = fr.b ∧ g.got = fr.got + (f.udp.drop 24).length ∧
        g.ranges = fr.ranges ++ [(beNum f.udp 12 4, (f.udp.drop 24).length)]) ∧
      t.hmp = ((s.skMove k (beNum f.udp 4 4) [beNum f.udp 4 4] 0).skPutData k (fr.b + beNum f.udp 12 4) (f.udp.drop 24)).hmp ∧ t.outs = s.outs ∧
      t.stores = s.stores ∧ t.slices = s.slices := by
  obtain ⟨m, hm, hdata⟩ := State.skDatagram_of_open hst hbad hrestart hest hseen hexp hfr hid hmax
  generalize hM : s.skMove k (beNum f.udp 4 4) [beNum f.udp 4 4] 0 = M at hm ⊢
  have hMsk : (M.sk k).frames = [fr] ∧ (M.sk k).tail = (s.sk k).tail ∧ (M.sk k).seen = [] := by
    rw [← hM, State.sk_skMove, skAdvance_one]
    exact ⟨hfr, rfl, rfl⟩
  have hMexp : M.skf k F.STP_SK_EXPECT_value = (beNum f.udp 4 4 + 1) % 2 ^ 32 := by
    rw [← hM, State.skExpect_skMove, skAdvance_one, Nat.mod_mod]
  obtain ⟨-, hMsto, hMsl, hMouts⟩ := s.skMove_keeps k (beNum f.udp 4 4) [beNum f.udp 4 4] 0
  rw [hM] at hMsto hMsl hMouts
  have hmeq : (m.sk k).frames = [fr] ∧ (m.sk k).tail = (s.sk k).tail ∧ (m.sk k).seen = [] ∧ m.skf k F.STP_SK_EXPECT_value = (beNum f.udp 4 4 + 1) % 2 ^ 32 ∧
      m.stores = s.stores ∧ m.slices = s.slices ∧ m.outs = s.outs ∧
      (m.skPutData k (fr.b + beNum f.udp 12 4) (f.udp.drop 24)).hmp = (M.skPutData k (fr.b + beNum f.udp 12 4) (f.udp.drop 24)).hmp := by
    obtain ⟨h1, h2, h3⟩ := hMsk
    rcases hm with rfl | rfl
    · exact ⟨h1, h2, h3, hMexp, hMsto, hMsl, hMouts, rfl⟩
    · rw [State.sk_setSk_self, State.skPutData_setSk]
      exact ⟨h1, h2, h3, hMexp, hMsto, hMsl, hMouts, rfl⟩
  obtain ⟨hfr', htail, hseen', hexp', hsto, hsl, houts, hput⟩ := hmeq
  rw [State.skPlace_of_one hfr' hdbl _ _ _ hranges] at hdata
  obtain ⟨h, hput'⟩ := m.skPutData_only k (fr.b + beNum f.udp 12 4) (f.udp.drop 24)
  generalize m.skPutData k (fr.b + beNum f.udp 12 4) (f.udp.drop 24) = p at hdata hput hput'
  have hquiet := skQuiet_settle (s := p.setSk k { m.sk k with frames := [fr.placed (beNum f.udp 12 4) (beNum f.udp 4 4) (f.udp.drop 24).length] }) (k := k)
    (by
      rw [State.sk_setSk_self]
      intro g hg
      rw [List.mem_singleton.1 hg]
      exact hshort)
    (by rw [State.sk_setSk_self]; exact Nat.le_refl 1)
  rw [← hdata] at hquiet
  refine ⟨_, hexec, ?_, ?_, ?_, ?_, ?_, ?_, ?_, ?_⟩
  · rw [hquiet.flds _ skApart_expect, State.skf_setSk, hput']
    exact hexp'
  · rw [hquiet.sk, State.sk_setSk_self]
    exact htail
  · rw [hquiet.sk, State.sk_setSk_self]
    exact hseen'
  · rw [hquiet.sk, State.sk_setSk_self]
    exact ⟨_, rfl, rfl, rfl, rfl, rfl⟩
  · rw [hquiet.hmp, ← hput]
    rfl
  · rw [hquiet.outs, hput']
    exact houts
  · rw [hquiet.stores, hput']
    exact hsto
  · rw [hquiet.slices, hput']
    exact hsl

/-! What a port takes in. -/

/-- A frame that a port takes reaches the match of streams. -/
theorem exec_datagramReceive_of_takes {s : State} {n : Fin 2} {f : EthFrame} (h : s.ethTakes n f = true) : exec (.datagramReceive n f) s =
    .next (match s.skMatch n f with
      | none => s.satFld (P.stp (1 + n)) F.STP_PORT_CNT0_no_stream 1
      | some k => if s.skState k = 5 then s else if s.skBad k f.udp then s.skMalformed n k else s.skDatagram k f.udp) := by
  simp only [State.ethTakes, Bool.and_eq_true, Bool.or_eq_true, Bool.not_eq_true', beq_iff_eq, bne_iff_ne, decide_eq_true_eq, and_assoc] at h
  obtain ⟨hup, hkind, hfcs, hlo, hhi, hplain, hv6, hmac, hip, hsum, hsum6, hudp, hlen⟩ := h
  have hmissing : (f.ipv6 && f.checksum.isNone) = false := by
    rcases hsum6 with h6 | hsome
    · rw [h6]
      rfl
    · rw [Option.isNone_eq_false_iff.2 hsome, Bool.and_false]
  rw [hv6] at hmissing
  have hkinds : ∀ k : EthKind, k ≠ .udp → (f.kind == k) = false := fun k hk => by
    rw [hkind]
    exact beq_eq_false_iff_ne.2 (Ne.symm hk)
  show Host.Outcome.next _ = _
  simp only [hup, hfcs, hkinds .pause (by decide), hkinds .nonIp (by decide), hkinds .otherIp (by decide), hplain, hv6, hmac, hip, hmissing, hudp,
    beq_eq_false_iff_ne.2 hsum, decide_eq_false (Nat.not_lt.2 hlo), decide_eq_false (Nat.not_lt.2 hhi), if_neg (Nat.not_lt.2 hlen), bne_self_eq_false,
    Bool.not_true, Bool.or_self, Bool.false_eq_true, if_false] <;> (cases s.skMatch n f <;> rfl)

/-! Flow control. -/

section
variable {s : State} {k : Nat}

/-- A control datagram that goes on the wire at once. -/
theorem State.skTransmit_of_sends (h : s.skSends k = true) (typ seq : Nat) (rep : Bool) : s.skTransmit ⟨k, typ, rep, seq⟩ =
    s.emit (.ksf (s.skPort k) k (s.skf k F.STP_SK_BIND_peer) (s.skBytes ⟨k, typ, rep, seq⟩)) := by
  simp only [State.skSends, Bool.and_eq_true, Bool.not_eq_true'] at h
  obtain ⟨hup, hpause⟩ := h
  simp only [State.skTransmit, hup, hpause, Bool.not_true, Bool.false_eq_true, if_false]
  rfl

/-- The bytes of a control datagram do not depend on the repeats still to send. -/
theorem State.skBytes_setSk_resume (m : SkSend) (hm : m.k = k) (r : Option (Nat × Nat)) :
    (s.setSk k { s.sk k with resume := r }).skBytes m = s.skBytes m := by
  subst hm
  unfold State.skBytes
  rw [State.sk_setSk_self]
  rfl

/-- A read of the stream's released records. -/
theorem State.skHead_of_read (hp : s.apPoison (s.skTenant k) (s.skIndex k + 0x40) 4 = none) {d : Nat}
    (hd : d = (leNat (s.apRead (s.skTenant k) (s.skIndex k + 0x40) 4) + 2 ^ 32 - (s.sk k).head % 2 ^ 32) % 2 ^ 32) : s.skHead k =
    if d = 0 then s else if (s.sk k).tail - (s.sk k).head < d then (s.countErr (P.stream k) 0x41 0xFF 0).flog (s.skTenant k) 1 0x07 0x41 0 0
    else (((s.setSk k { s.sk k with head := (s.sk k).head + d, live := (s.sk k).live.drop d }).skRegs k).skResume k).skEase k := by
  subst hd
  simp only [State.skHead, hp]

/-- A stream that flows below its levels stays as it is. -/
theorem State.skEase_skResume (hst : s.skState k = 2) (hfill : 2 * (s.sk k).fill < s.skA k) (huse : (s.sk k).inUse < 512) : (s.skResume k).skEase k = s := by
  have hres : s.skResume k = s := by
    unfold State.skResume
    exact if_neg fun h => by omega
  rw [hres]
  unfold State.skEase
  exact if_neg fun h => by omega

end

theorem P.stream_ne_ten (k n j : Nat) (hk : k < 512) : P.stream k ≠ P.ten n j := by
  simp only [P.stream, P.ten]
  omega

theorem State.errCnt_countErr (s : State) (pg code rq addr : Nat) :
    (s.countErr pg code rq addr).fld pg F.PG_ERR_CNT = min 65535 (s.fld pg F.PG_ERR_CNT + 1) := by
  have hcount : (s.satFld pg F.PG_ERR_CNT 1).fld pg F.PG_ERR_CNT = min 65535 (s.fld pg F.PG_ERR_CNT + 1) := State.fld_satFld_self _ _ _ _
  unfold State.countErr
  dsimp only
  rw [State.fld_event_apart _ _ _ (by decide)]
  split
  · exact hcount
  · rw [State.fld_setFld64_apart (by decide) (by decide), State.fld_setFlag_apart _ _ _ (by decide), State.fld_setFld_apart _ _ _ _ (by decide),
      State.fld_setFld_apart _ _ _ _ (by decide), hcount]

theorem State.flog_sks (s : State) (n kind block code detail addr : Nat) : (s.flog n kind block code detail addr).sks = s.sks := by
  unfold State.flog
  dsimp only
  rw [State.event_sks]
  refine State.each_keeps (fun u => u.sks = s.sks) s _ _ (fun _ _ _ hu => hu) rfl

/-- Settles O52: a frame's way through the checks of its port to its stream; one more range of the only frame; and the releases, gaps and repeats of a stream. -/
theorem datagramsAndFlow : Obligations.DatagramsAndFlow := by
  unfold Obligations.DatagramsAndFlow
  refine ⟨fun s n f hup => ⟨fun hbad => ?fcs, fun htakes => ⟨fun hno => ?noStream, fun k hk => ⟨fun hst => ?stopped, fun hst hbad => ?malformed,
    fun hst hbad hrestart q off data v fr hq hoff hdata hv hest hseen hexp hfr hdbl hid hmax hshort hranges => ?datagram⟩⟩⟩,
    fun s k => ⟨fun v a h d hv ha hp hh hd => ⟨fun hst hpos hle hfill huse => ?release, fun hon hst hzero => ?same, fun hon hst hpos hlt => ?outOfRange⟩,
    fun hon hst hest hseen hfr e he hno => ?gap, fun h => ?noGap, fun hs c hc => ?repeated, fun hst => ?noEase,
    fun h4 h5 => ?noHalt, fun q c hr hon hs => ?resume, fun hr => ?noResume⟩⟩
  case fcs =>
    have hcond : (!f.fcsOk || decide (f.macLen < 64) || decide (9238 < f.macLen)) = true := by
      rcases hbad with h | h | h <;> simp [h]
    show Host.Outcome.next _ = _
    simp only [hup, hcond, Bool.not_true, Bool.false_eq_true, if_false, if_true]
  case noStream => rw [exec_datagramReceive_of_takes htakes, hno]
  case stopped =>
    rw [exec_datagramReceive_of_takes htakes, hk]
    exact congrArg Host.Outcome.next (if_pos hst)
  case malformed =>
    rw [exec_datagramReceive_of_takes htakes, hk]
    exact congrArg Host.Outcome.next ((if_neg hst).trans (if_pos hbad))
  case datagram =>
    subst hq hoff hdata hv
    have hexec : exec (.datagramReceive n f) s = .next (s.skDatagram k f.udp) := by
      rw [exec_datagramReceive_of_takes htakes, hk]
      exact congrArg Host.Outcome.next ((if_neg (by omega)).trans (if_neg (by rw [hbad]; decide)))
    exact completes_skDatagram hexec (by omega) hbad hrestart hest hseen hexp hfr hdbl hid hmax hshort hranges
  case release =>
    subst hv ha hh
    have hregs : ∀ f : Nat → Fld, SkApart f → ((s.setSk k { s.sk k with head := (s.sk k).head + d, live := (s.sk k).live.drop d }).skRegs k).skf k f = s.skf k f :=
      fun f hf => State.skf_skRegs hf _ k
    have hFILL := State.skFill_skRegs (s.setSk k { s.sk k with head := (s.sk k).head + d, live := (s.sk k).live.drop d }) k
    have hquiet := skQuiet_skRegs (s.setSk k { s.sk k with head := (s.sk k).head + d, live := (s.sk k).live.drop d }) k
    have hexec : exec (.streamHeadRead k) s = .next (s.skHead k) := by
      show Host.Outcome.next _ = _
      rw [State.skOn, hst]
      rfl
    rw [State.skHead_of_read hp hd, if_neg (by omega), if_neg (by omega)] at hexec
    generalize (s.setSk k { s.sk k with head := (s.sk k).head + d, live := (s.sk k).live.drop d }).skRegs k = u at hregs hexec hFILL hquiet
    have husk : u.sk k = { s.sk k with head := (s.sk k).head + d, live := (s.sk k).live.drop d } := hquiet.sk.trans (State.sk_setSk_self _ _ _)
    have hA : u.skA k = s.skA k := by
      rw [State.skA, State.skDr, hregs _ skApart_ringCount, hregs _ skApart_coastCount, State.skA, State.skDr]
    rw [State.skEase_skResume ((hregs _ skApart_state).trans hst) (by rw [husk, hA]; exact hfill) (by rw [husk]; exact huse)] at hexec
    refine ⟨u, hexec, husk, ?_, State.sameBytes_of_eq hquiet.hmp hquiet.stores hquiet.slices, hquiet.outs⟩
    rw [hFILL, State.sk_setSk_self]
    rfl
  case same =>
    subst hv ha hh
    show Host.Outcome.next _ = _
    rw [hon, bne_iff_ne.2 hst, State.skHead_of_read hp hd, if_pos hzero]
    rfl
  case outOfRange =>
    subst hv ha hh
    have hexec : exec (.streamHeadRead k) s = .next ((s.countErr (P.stream k) 0x41 0xFF 0).flog (s.skTenant k) 1 0x07 0x41 0 0) := by
      have hhead := State.skHead_of_read hp hd
      rw [if_neg (Nat.ne_of_gt hpos), if_pos hlt] at hhead
      rw [← hhead]
      show Host.Outcome.next _ = _
      rw [hon, bne_iff_ne.2 hst]
      rfl
    refine ⟨_, hexec, ?_, State.sameBytes_of_mems (State.flog_mem _ _ _ _ _ _ _ (State.countErr_mem _ _ _ _ _ s.mems_memsOf)), ?_⟩
    · rw [State.sk, State.flog_sks, State.countErr_sks, State.sk]
    · rw [State.fld_flog_page (P.stream_ne_ten _ _ _ k.isLt) (by decide), State.errCnt_countErr]
  case gap =>
    subst he
    generalize hM : s.skMove k ((s.skf k F.STP_SK_EXPECT_value + 1) % 2 ^ 32) (s.sk k).seen 1 = M
    have hexec : exec (.sequenceGapTimeout k) s = .next ((M.skClose k).skRegs k) := by
      have hne : (s.sk k).seen.isEmpty = false := by
        rw [Bool.eq_false_iff, ne_eq, List.isEmpty_iff]
        exact hseen
      show Host.Outcome.next _ = _
      simp only [hon, beq_eq_false_iff_ne.2 hst, hest, hne, Bool.not_true, Bool.or_self, Bool.false_eq_true, if_false, hM]
    have hMfr : (M.sk k).frames = [] := by
      rw [← hM, State.sk_skMove]
      exact hfr
    have hshort : (M.sk k).short := fun f hf => by
      rw [hMfr] at hf
      cases hf
    have hquiet := (skQuiet_skClose hshort (by rw [hMfr]; exact Nat.zero_le 1)).trans (skQuiet_skRegs _ k)
    obtain ⟨hh, hsto, hsl, -⟩ := s.skMove_keeps k ((s.skf k F.STP_SK_EXPECT_value + 1) % 2 ^ 32) (s.sk k).seen 1
    rw [hM] at hh hsto hsl
    refine ⟨_, hexec, ?_, ?_, ?_, State.sameBytes_of_eq (hquiet.hmp.trans hh) (hquiet.stores.trans hsto) (hquiet.slices.trans hsl)⟩
    · rw [hquiet.flds _ skApart_expect, ← hM, State.skExpect_skMove, skAdvance_of_not_mem hno, Nat.mod_mod]
    · rw [hquiet.flds _ skApart_lost, ← hM, State.skLost_skMove]
    · rw [hquiet.sk, ← hM, State.sk_skMove]
  case noGap =>
    have hcond : (!s.skOn k || s.skState k == 5 || !(s.sk k).est || (s.sk k).seen.isEmpty) = true := by
      rcases h with h | h <;> simp [h]
    exact congrArg Host.Outcome.next (if_pos hcond)
  case repeated =>
    have hrep : s.skRepeat k = s.emit (.ksf (s.skPort k) k (s.skf k F.STP_SK_BIND_peer) (s.skBytes ⟨k, (s.sk k).cur.1, true, (s.sk k).cur.2⟩)) :=
      State.skTransmit_of_sends hs _ _ _
    rcases hc with ⟨rfl, hst⟩ | ⟨rfl, hst⟩
    · exact ⟨_, congrArg Host.Outcome.next (if_pos hst), hrep⟩
    · exact ⟨_, congrArg Host.Outcome.next (if_pos hst), hrep⟩
  case noEase => exact congrArg Host.Outcome.next (if_neg hst)
  case noHalt => exact congrArg Host.Outcome.next (if_neg (by omega))
  case resume =>
    have hs' : (s.setSk k { s.sk k with resume := if c ≤ 1 then none else some (q, c - 1) }).skSends k = true := hs
    have hexec : exec (.resumeRepeat k) s = .next ((s.setSk k { s.sk k with resume := if c ≤ 1 then none else some (q, c - 1) }).skTransmit ⟨k, 3, true, q⟩) := by
      show Host.Outcome.next _ = _
      simp only [hr, hon, if_true]
    rw [State.skTransmit_of_sends hs', State.skBytes_setSk_resume ⟨k, 3, true, q⟩ rfl] at hexec
    refine ⟨_, hexec, ?_, rfl, rfl⟩
    exact congrArg SkSt.resume (State.sk_setSk_self s k _)
  case noResume =>
    show Host.Outcome.next _ = _
    simp only [hr]

end Sys2Proof.Machine
end

section
/-! Stream ports (11 R271): a PTP message that changes the lock also raises the page's interrupt. -/
namespace Sys2Proof.Machine

/-- Port 0 is up, PTP is not locked, and the interrupt of its page is enabled and goes to management. -/
def ptpInterruptState : State :=
  { ((State.reset.setFld (P.stp 0) F.STP_STS_link_up 1).setFld (P.stp 0) F.PG_INT_EN 1).setFlag (P.hub 1) (F.HUB_INT_ROUTE_to_mgt 6) true with
    mgt := { Mgt.reset with evSub := 1 } }

/-- A message that locks PTP: no answer, no time. -/
def ptpLock : PtpIn := ⟨false, none, true⟩

theorem ptpInterruptState_ethUp : ptpInterruptState.ethUp 0 = true := by decide

/-- The event of the lock is sent to management. -/
theorem exec_ptpLock_outs : ∃ t, exec (.ptpMessage 0 ptpLock) ptpInterruptState = .next t ∧ t.outs = [.mgtEvent 1 7 1] := ⟨_, rfl, by decide⟩

/-- Refutes O53: a PTP message whose servo locks raises the event of the STP page, and the page's interrupt may then send a message of its own, so what was sent
is more than the Delay_Req. -/
theorem not_streamPortsAndContexts : ¬ Obligations.StreamPortsAndContexts := by
  unfold Obligations.StreamPortsAndContexts
  rintro ⟨hports, -⟩
  obtain ⟨hup, -⟩ := hports ptpInterruptState 0 0 0 0 false 0 ptpLock
  obtain ⟨-, -, -, -, -, -, ⟨t, ht, -, -, -, -, houts, -⟩, -⟩ := hup ptpInterruptState_ethUp
  obtain ⟨t', ht', houts'⟩ := exec_ptpLock_outs
  obtain rfl : t = t' := Host.Outcome.next.inj (ht.symm.trans ht')
  have hnone : t.outs = [] := houts
  rw [houts'] at hnone
  exact absurd hnone (by decide)

end Sys2Proof.Machine
end

section
/-! Codec sessions and engines (12 R290-R293, R305, R307-R310). -/
namespace Sys2Proof.Machine

/-! Fields of a session. -/

section
variable (s : State) (i v : Nat) {f g : Nat → Fld}

theorem State.vcf_setVcf_apart (h : ∀ k < 16, (f k).apart (g k) = true) : (s.setVcf i g v).vcf i f = s.vcf i f :=
  State.fld_setFld_apart _ _ _ _ (h _ (Nat.mod_lt _ (by decide)))

theorem State.vcf_setVcf_self : (s.setVcf i f v).vcf i f = v % 2 ^ (f (i % 16)).len := State.fld_setFld_self _ _ _ _

theorem State.vcf_setVc (j : Nat) (x : VcSt) : (s.setVc j x).vcf i f = s.vcf i f := rfl

theorem State.fld_setVcf_page {h : Fld} {pg : Nat} (hpg : pg ≠ vcPg i) (hh : h.inside = true) (hg : ∀ k < 16, (g k).inside = true) :
    (s.setVcf i g v).fld pg h = s.fld pg h := State.fld_setFld_page _ _ _ _ hpg hh (hg _ (Nat.mod_lt _ (by decide)))

theorem State.vcf_setFld_page {h : Fld} {pg : Nat} (hpg : vcPg i ≠ pg) (hh : h.inside = true) (hf : ∀ k < 16, (f k).inside = true) :
    (s.setFld pg h v).vcf i f = s.vcf i f := State.fld_setFld_page _ _ _ _ hpg (hf _ (Nat.mod_lt _ (by decide))) hh

theorem State.vcf_event (hf : ∀ k < 16, (f k).own = true) (pg bit : Nat) : (s.event pg bit).vcf i f = s.vcf i f :=
  State.fld_event_own (hf _ (Nat.mod_lt _ (by decide))) _ _ _ _

theorem State.vcf_countErr (hf : ∀ k < 16, (f k).own = true) (pg code rq addr : Nat) : (s.countErr pg code rq addr).vcf i f = s.vcf i f :=
  State.fld_countErr_own _ _ _ (hf _ (Nat.mod_lt _ (by decide))) _ _ _

end

theorem vcPg_ne_vce (i n : Nat) : vcPg i ≠ P.vce n 0 := by
  simp only [vcPg, P.vce]
  omega

/-! The control line and the loads. -/

/-- `t` is `s` with another content of the Hamper and another count of pending commands. -/
def VcLine (i : Nat) (s t : State) : Prop := ∃ m v, t = { s with hmp := m }.setVcf i F.VCE_SS_STS_pending v

theorem State.vcPut_only (s : State) (i off : Nat) (bs : List Byte) (ep : Bool) : ∃ m, s.vcPut i off bs ep = { s with hmp := m } := by
  refine State.each_keeps (fun u => ∃ m, u = { s with hmp := m }) s _ _ (fun a _ u hu => ?_) ⟨_, rfl⟩
  obtain ⟨m, rfl⟩ := hu
  split
  · exact ⟨_, rfl⟩
  · exact ⟨_, rfl⟩

theorem vcLine_vcControlLine (s : State) (i : Nat) : VcLine i s (s.vcControlLine i) := by
  unfold State.vcControlLine
  dsimp only
  generalize hbs : leBytes 4 (s.vc i).c ++ leBytes 1 (s.vcState i) ++ leBytes 3 0 ++ leBytes 4 (s.vc i).gen ++ leBytes 4 ((s.vc i).b / (s.vc i).scale) ++
    leBytes 1 (s.vc i).cancel ++ leBytes 3 0 ++ leBytes 4 (s.vc i).skips ++ leBytes 4 (s.vc i).recodes ++ leBytes 4 (s.vc i).fillers ++ leBytes 32 0 = bs
  obtain ⟨m, hm⟩ := s.vcPut_only i (s.vcCtl i + 0x100) bs false
  rw [hm]
  exact ⟨m, _, rfl⟩

section
variable {i : Nat} {s t : State} (h : VcLine i s t)
include h

theorem VcLine.vcf {f : Nat → Fld} (hf : ∀ k < 16, (f k).apart (F.VCE_SS_STS_pending k) = true) : t.vcf i f = s.vcf i f := by
  obtain ⟨m, v, rfl⟩ := h
  exact State.vcf_setVcf_apart _ _ _ hf

theorem VcLine.fld {f : Fld} {pg : Nat} (hpg : pg ≠ vcPg i) (hf : f.inside = true) : t.fld pg f = s.fld pg f := by
  obtain ⟨m, v, rfl⟩ := h
  exact State.fld_setVcf_page _ _ _ hpg hf (by decide)

theorem VcLine.fldHead {f : Fld} (hf : ∀ k < 16, f.apart (F.VCE_SS_STS_pending k) = true) (pg : Nat) : t.fld pg f = s.fld pg f := by
  obtain ⟨m, v, rfl⟩ := h
  exact State.fld_setFld_apart _ _ _ _ (hf _ (Nat.mod_lt _ (by decide)))

theorem VcLine.vc (j : Nat) : t.vc j = s.vc j := by
  obtain ⟨m, v, rfl⟩ := h
  rfl

theorem VcLine.keeps : t.stores = s.stores ∧ t.slices = s.slices ∧ t.outs = s.outs ∧ t.cmap = s.cmap ∧ t.queues = s.queues ∧ t.vcLast = s.vcLast ∧
    t.now = s.now := by
  obtain ⟨m, v, rfl⟩ := h
  exact ⟨rfl, rfl, rfl, rfl, rfl, rfl, rfl⟩

theorem VcLine.vcState : t.vcState i = s.vcState i := h.vcf (by decide)

end

theorem State.vcState_setVcState (s : State) (i : Nat) {st : Nat} (hst : st < 8) : (s.setVcState i st).vcState i = st := by
  rw [State.setVcState, (vcLine_vcControlLine _ i).vcState, State.vcState, State.vcf_setVcf_self]
  exact Nat.mod_eq_of_lt hst

theorem State.vcf_setVcState {f : Nat → Fld} (hf : ∀ k < 16, (f k).apart (F.VCE_SS_STS_pending k) = true ∧ (f k).apart (F.VCE_SS_STS_state k) = true)
    (s : State) (i st : Nat) : (s.setVcState i st).vcf i f = s.vcf i f := by
  rw [State.setVcState, (vcLine_vcControlLine _ i).vcf fun k hk => (hf k hk).1, State.vcf_setVcf_apart _ _ _ fun k hk => (hf k hk).2]

theorem State.vc_setVcState (s : State) (i st j : Nat) : (s.setVcState i st).vc j = s.vc j := (vcLine_vcControlLine _ i).vc j

theorem State.setVcState_keeps (s : State) (i st : Nat) : (s.setVcState i st).stores = s.stores ∧ (s.setVcState i st).slices = s.slices ∧
    (s.setVcState i st).outs = s.outs := by
  obtain ⟨h1, h2, h3, -⟩ := (vcLine_vcControlLine (s.setVcf i F.VCE_SS_STS_state st) i).keeps
  exact ⟨h1, h2, h3⟩

theorem State.vcf_vcLoads {f : Nat → Fld} (hf : ∀ k < 16, (f k).inside = true) (s : State) (i : Nat) : s.vcLoads.vcf i f = s.vcf i f :=
  State.each_keeps (fun u => u.vcf i f = s.vcf i f) s _ _ (fun n _ u hu => (State.vcf_setFld_page u i _ (vcPg_ne_vce i n) (by decide) hf).trans hu) rfl

theorem State.vcLoads_keeps (s : State) : s.vcLoads.vcs = s.vcs ∧ s.vcLoads.stores = s.stores ∧ s.vcLoads.slices = s.slices :=
  State.each_keeps (fun u => u.vcs = s.vcs ∧ u.stores = s.stores ∧ u.slices = s.slices) s _ _ (fun _ _ _ hu => hu) ⟨rfl, rfl, rfl⟩

/-- Binding compartments changes the compartment map alone. -/
theorem State.bindComps_keeps (s : State) (cs : List Nat) (v : Bool) : (s.bindComps cs v).regs = s.regs ∧ (s.bindComps cs v).vcs = s.vcs ∧
    (s.bindComps cs v).stores = s.stores ∧ (s.bindComps cs v).slices = s.slices :=
  State.each_keeps (fun u => u.regs = s.regs ∧ u.vcs = s.vcs ∧ u.stores = s.stores ∧ u.slices = s.slices) s cs _ (fun _ _ _ hu => hu) ⟨rfl, rfl, rfl, rfl⟩

theorem State.vcf_of_regs {s t : State} (h : t.regs = s.regs) (i : Nat) (f : Nat → Fld) : t.vcf i f = s.vcf i f := by
  rw [State.vcf, State.fld, h, State.vcf, State.fld]

/-- A session that turns OFF. -/
theorem State.vcOff_fields (s : State) (i : Nat) : (s.vcOff i).vcState i = 0 ∧ (s.vcOff i).vc i = { s.vc i with run := none, stall := none, ended := [] } ∧ (s.vcOff i).stores = s.stores ∧
    (s.vcOff i).slices = s.slices := by
  rw [State.vcOff]
  dsimp only
  have hst : ((s.setVc i { s.vc i with run := none, stall := none, ended := [] }).setVcState i 0).vcState i = 0 := State.vcState_setVcState _ i (by decide)
  have hrun : ((s.setVc i { s.vc i with run := none, stall := none, ended := [] }).setVcState i 0).vc i =
      { s.vc i with run := none, stall := none, ended := [] } := by
    rw [State.vc_setVcState, State.vc_setVc_self]
  obtain ⟨hsto, hsl, -⟩ := (s.setVc i { s.vc i with run := none, stall := none, ended := [] }).setVcState_keeps i 0
  rw [State.setVc_stores] at hsto
  rw [State.setVc_slices] at hsl
  generalize (s.setVc i { s.vc i with run := none, stall := none, ended := [] }).setVcState i 0 = u at hst hrun hsto hsl
  obtain ⟨hregs, hvcs, hsto', hsl'⟩ := u.bindComps_keeps (u.vcComps i) false
  generalize u.bindComps (u.vcComps i) false = w at hregs hvcs hsto' hsl'
  obtain ⟨hvcs'', hsto'', hsl''⟩ := w.vcLoads_keeps
  refine ⟨?_, ?_, ?_, ?_⟩
  · rw [State.vcState, State.vcf_vcLoads (by decide), State.vcf_of_regs hregs]
    exact hst
  · rw [State.vc, hvcs'', hvcs]
    exact hrun
  · rw [hsto'', hsto', hsto]
  · rw [hsl'', hsl', hsl]

/-! Sessions. -/

theorem bit31_div {w : Nat} (hw : w < 2 ^ 32) (b : Bool) (h : bitOf w 31 = b) : w / 2 ^ 31 = b2n b := by
  subst h
  rw [bitOf]
  have hlt : w / 2 ^ 31 < 2 := by omega
  interval_cases w / 2 ^ 31 <;> rfl

/-- The written fields of a session that is not enabled. -/
def State.vcBound (s : State) (i w : Nat) (b : Bool) : State :=
  (s.each vcLive fun g s => s.setVcf i g (bits w (g 0).lo (g 0).len)).setVcf i F.VCE_SS_BIND_enable (b2n b)

theorem State.vcBindWrite_of_off {s : State} {rq : Requester} {i w : Nat} {b : Bool} (hw : w < 2 ^ 32) (hb : bitOf w 31 = b) (hoff : s.vcOn i = false) :
    s.vcBindWrite rq i w = if b then (s.vcBound i w b).vcEnable rq i else (s.vcBound i w b).vcDisable i := by
  rw [State.vcBindWrite]
  dsimp only
  rw [hoff, hb, bit31_div hw b hb]
  rfl

section Write
variable {s : State} {rq : Requester} {i : Fin 64} {w : Word} (hg : s.grants rq (vcPg i) = true)
include hg

theorem exec_vceSessionEnable_of_grants (hw : bitOf w.toNat 31 = true) : exec (.vceSessionEnable rq i w) s = .next (s.vcBindWrite rq i w.toNat) := by
  show Host.Outcome.next _ = _
  rw [if_pos hw, State.privWrite_of_grants hg]

theorem exec_vceSessionDisable_of_grants (hw : bitOf w.toNat 31 = false) : exec (.vceSessionDisable rq i w) s = .next (s.vcBindWrite rq i w.toNat) := by
  show Host.Outcome.next _ = _
  rw [if_neg (by rw [hw]; decide), State.privWrite_of_grants hg]

end Write

/-- The fresh state of a session that is enabled with parameter block `par`. -/
def State.vcFresh (u : State) (i : Nat) : VcSt :=
  { VcSt.reset with par := u.apRead (u.vcTenant i) (u.vcCtl i) 256, gen := (u.vc i).gen, cancel := leNat (u.apRead (u.vcTenant i) (u.vcCtl i + 0x144) 1) }

/-- The cleared counters of a session that is enabled. -/
theorem State.vcCleared_fields (u : State) (i : Nat) {t : State}
    (ht : t = u.each [F.VCE_SS_STS_cause, F.VCE_SS_STS_detail, F.VCE_SS_CNT_recoded, F.VCE_SS_CNT_substituted] fun f s => s.setVcf i f 0) :
    t.vcf i F.VCE_SS_CNT_recoded = 0 ∧ t.vcf i F.VCE_SS_STS_cause = 0 ∧ t.vcTenant i = u.vcTenant i ∧ t.vcs = u.vcs := by
  subst ht
  simp only [State.each_cons, State.each_nil]
  refine ⟨?_, ?_, ?_, rfl⟩
  · rw [State.vcf_setVcf_apart _ _ _ (by decide), State.vcf_setVcf_self, Nat.zero_mod]
  · rw [State.vcf_setVcf_apart _ _ _ (by decide), State.vcf_setVcf_apart _ _ _ (by decide), State.vcf_setVcf_apart _ _ _ (by decide), State.vcf_setVcf_self,
      Nat.zero_mod]
  · rw [State.vcTenant, State.vcf_setVcf_apart _ _ _ (by decide), State.vcf_setVcf_apart _ _ _ (by decide), State.vcf_setVcf_apart _ _ _ (by decide),
      State.vcf_setVcf_apart _ _ _ (by decide), State.vcTenant]

/-- A session with its compartments bound becomes READY. -/
theorem State.vcReady_fields (s : State) (i : Nat) (cs : List Nat) {t : State} (ht : t = ((s.bindComps cs true).setVcState i 1).vcLoads) :
    t.vcState i = 1 ∧ t.vc i = s.vc i ∧ t.vcf i F.VCE_SS_CNT_recoded = s.vcf i F.VCE_SS_CNT_recoded ∧
      t.vcf i F.VCE_SS_STS_cause = s.vcf i F.VCE_SS_STS_cause ∧ t.vcTenant i = s.vcTenant i := by
  subst ht
  obtain ⟨hregs, hvcs, -, -⟩ := s.bindComps_keeps cs true
  refine ⟨?_, ?_, ?_, ?_, ?_⟩
  · rw [State.vcState, State.vcf_vcLoads (by decide)]
    exact State.vcState_setVcState _ i (by decide)
  · rw [State.vc, (State.vcLoads_keeps _).1, ← State.vc, State.vc_setVcState, State.vc, hvcs, State.vc]
  · rw [State.vcf_vcLoads (by decide), State.vcf_setVcState (by decide), State.vcf_of_regs hregs]
  · rw [State.vcf_vcLoads (by decide), State.vcf_setVcState (by decide), State.vcf_of_regs hregs]
  · rw [State.vcTenant, State.vcf_vcLoads (by decide), State.vcf_setVcState (by decide), State.vcf_of_regs hregs, State.vcTenant]

/-- The state of an enabled session before its first command. -/
def VcSt.started (v : VcSt) (gen : Nat) : VcSt := { v with gen := gen + 1, b := if v.encodes && !v.constQp then v.b0 else 0 }

/-- A session that takes the state `x` and becomes READY. -/
def State.vcReadied (u : State) (i : Nat) (x : VcSt) : State :=
  let s2 := (u.setVc i x).each [F.VCE_SS_STS_cause, F.VCE_SS_STS_detail, F.VCE_SS_CNT_recoded, F.VCE_SS_CNT_substituted] fun f s => s.setVcf i f 0
  ((s2.bindComps (s2.vcComps i) true).setVcState i 1).vcLoads

theorem State.vcEnable_of_ok {u : State} {rq : Requester} {i : Nat} (hok : u.vcRefuse i (u.vcFresh i) = none) :
    u.vcEnable rq i = u.vcReadied i ((u.vcFresh i).started (u.vc i).gen) := by
  rw [State.vcEnable]
  split
  next heq => exact absurd (hok.symm.trans heq) (by simp)
  next => rfl

theorem State.vcReadied_fields (u : State) (i : Nat) (x : VcSt) : (u.vcReadied i x).vcState i = 1 ∧ (u.vcReadied i x).vc i = x ∧
    (u.vcReadied i x).vcf i F.VCE_SS_CNT_recoded = 0 ∧ (u.vcReadied i x).vcf i F.VCE_SS_STS_cause = 0 ∧ (u.vcReadied i x).vcTenant i = u.vcTenant i := by
  obtain ⟨hcnt, hcause, htn, hvcs⟩ := State.vcCleared_fields (u.setVc i x) i rfl
  rw [State.vcReadied]
  generalize (u.setVc i x).each [F.VCE_SS_STS_cause, F.VCE_SS_STS_detail, F.VCE_SS_CNT_recoded, F.VCE_SS_CNT_substituted] (fun f s => s.setVcf i f 0) = w
    at hcnt hcause htn hvcs ⊢
  obtain ⟨h1, h2, h3, h4, h5⟩ := w.vcReady_fields i (w.vcComps i) rfl
  have hvc : w.vc i = x := by
    rw [State.vc, hvcs]
    exact State.vc_setVc_self u i x
  exact ⟨h1, h2.trans hvc, h3.trans hcnt, h4.trans hcause, h5.trans htn⟩

/-- A refused enable. -/
theorem State.vcEnable_refused {u : State} {rq : Requester} {i : Nat} {c d : Nat} (hno : u.vcRefuse i (u.vcFresh i) = some (c, d)) :
    (u.vcEnable rq i).vcState i = 4 ∧ (u.vcEnable rq i).vcf i F.VCE_SS_STS_cause = c % 32 ∧ (u.vcEnable rq i).vcf i F.VCE_SS_STS_detail = d % 256 ∧
      (u.vcEnable rq i).cmap = u.cmap ∧ u.sameBytes (u.vcEnable rq i) ∧ bitOf ((u.vcEnable rq i).fld (vcPg i) F.PG_INT_STS) 0 = true := by
  have heq : u.vcEnable rq i = ((((u.setVcf i F.VCE_SS_STS_state 4).setVcf i F.VCE_SS_STS_cause c).setVcf i F.VCE_SS_STS_detail d).countErr (vcPg i) 0x40 (rqCode rq)
      (accessAddr rq (vcPg i) (0x100 + 32 * (i % 16)))).event (vcPg i) 0 := by
    rw [State.vcEnable]
    split
    next h =>
      obtain ⟨rfl, rfl⟩ : _ ∧ _ := by simpa using h.symm.trans hno
      rfl
    next h => exact absurd (h.symm.trans hno) (by simp)
  rw [heq]
  refine ⟨?_, ?_, ?_, ?_, ?_, State.bit_event _ _ (by decide)⟩
  · rw [State.vcState, State.vcf_event _ _ (by decide), State.vcf_countErr _ _ (by decide), State.vcf_setVcf_apart _ _ _ (by decide),
      State.vcf_setVcf_apart _ _ _ (by decide), State.vcf_setVcf_self]
    rfl
  · rw [State.vcf_event _ _ (by decide), State.vcf_countErr _ _ (by decide), State.vcf_setVcf_apart _ _ _ (by decide), State.vcf_setVcf_self]
    rfl
  · rw [State.vcf_event _ _ (by decide), State.vcf_countErr _ _ (by decide), State.vcf_setVcf_self]
    rfl
  · rw [State.event_cmap, State.countErr_cmap]
    rfl
  · exact (((State.RegsOnly.setFld _ _ _ _).trans (.setFld _ _ _ _)).trans (.setFld _ _ _ _)).trans (State.countErr_only _ _ _ _ _) |>.trans (.event _ _ _)
      |>.sameBytes

/-- A flush with no cancelled command: a stopping session without a running picture goes OFF. -/
theorem State.vcFlush_of_none {s : State} {i : Nat} (h : (s.vc i).ended = []) (n : Nat) :
    s.vcFlush i (n + 1) = if s.vcState i = 3 ∧ (s.vc i).run.isNone then s.vcOff i else s := by
  rw [State.vcFlush, h]

/-- The disable of an idle session. -/
theorem State.vcDisable_idle {s : State} {i : Nat} (hst : s.vcState i = 1 ∨ s.vcState i = 5) (hrun : (s.vc i).run = none) (hend : (s.vc i).ended = [])
    (hc : (s.vc i).c = (s.vc i).vis) : (s.vcDisable i).vcState i = 0 ∧ ((s.vcDisable i).vc i).run = none ∧ (s.vcDisable i).stores = s.stores ∧
      (s.vcDisable i).slices = s.slices := by
  have hon : s.vcOn i = true := by
    rw [State.vcOn]
    rcases hst with h | h <;> rw [h] <;> rfl
  unfold State.vcDisable
  rw [hon]
  rcases hst with h | h
  · have hne : ¬ s.vcState i = 5 := by omega
    rw [if_neg (by decide), if_neg hne]
    have hst3 : (s.setVcState i 3).vcState i = 3 := State.vcState_setVcState _ i (by decide)
    have hvc := s.vc_setVcState i 3 i
    obtain ⟨hsto, hsl, -⟩ := s.setVcState_keeps i 3
    generalize s.setVcState i 3 = u at hst3 hvc hsto hsl
    have hcancel : u.vcCancel i = ((u.setVc i { u.vc i with c := (u.vc i).vis, ended := [] }).vcControlLine i).vcFlush i 600 := by
      have hn : ((u.vc i).vis + 2 ^ 32 - (u.vc i).c) % 2 ^ 32 = 0 := by
        rw [hvc, hc]
        omega
      rw [State.vcCancel]
      dsimp only
      rw [hn, hvc, hend]
      rfl
    have hline := vcLine_vcControlLine (u.setVc i { u.vc i with c := (u.vc i).vis, ended := [] }) i
    rw [hcancel]
    generalize (u.setVc i { u.vc i with c := (u.vc i).vis, ended := [] }).vcControlLine i = w at hline
    have hw : w.vc i = { u.vc i with c := (u.vc i).vis, ended := [] } := (hline.vc i).trans (State.vc_setVc_self _ _ _)
    have hwst : w.vcState i = 3 := by rw [hline.vcState, State.vcState, State.vcf_setVc, ← State.vcState, hst3]
    have hwrun : (w.vc i).run.isNone = true := by
      rw [hw, hvc, hrun]
      rfl
    have hflush : w.vcFlush i 600 = w.vcOff i := by rw [State.vcFlush_of_none (by rw [hw]), if_pos ⟨hwst, hwrun⟩]
    rw [hflush]
    obtain ⟨h0, hr0, hsto0, hsl0⟩ := w.vcOff_fields i
    have hend0 : ((w.vcOff i).vc i).ended = [] := by rw [hr0]
    rw [State.vcFlush_of_none hend0, if_neg (by omega)]
    obtain ⟨hsto1, hsl1, -⟩ := hline.keeps
    rw [State.setVc_stores] at hsto1
    rw [State.setVc_slices] at hsl1
    exact ⟨h0, by rw [hr0], (hsto0.trans hsto1).trans hsto, (hsl0.trans hsl1).trans hsl⟩
  · rw [if_neg (by decide), if_pos h]
    obtain ⟨h0, hr0, hmem⟩ := s.vcOff_fields i
    exact ⟨h0, by rw [hr0], hmem⟩

/-! Engines. -/

section
variable (s : State) (n : Nat)

theorem State.engine_setEngine {st : Nat} (h : st < 8) : (s.setEngine n st).engine n = st := by
  rw [State.engine, State.setEngine, State.fld_setFld_self]
  exact Nat.mod_eq_of_lt h

theorem State.engine_setEngine_other {m : Nat} (h : m ≠ n) (st : Nat) : (s.setEngine n st).engine m = s.engine m :=
  State.fld_setFld_page _ _ _ _ (by simp only [P.vce]; omega) (by decide) (by decide)

theorem State.engine_setFlag {pg : Nat} {f : Fld} (h : F.VCE_STS_state.apart f = true) (b : Bool) : (s.setFlag pg f b).engine n = s.engine n :=
  State.fld_setFlag_apart _ _ _ h _

theorem State.engine_event (pg bit : Nat) : (s.event pg bit).engine n = s.engine n := State.fld_event_own (by decide) _ _ _ _

end

theorem State.vceBist_start {s : State} {n : Nat} {rq : Requester} (h : s.engine n = 0 ∨ s.engine n = 4)
    (hno : ∀ i, i < 64 → s.vcOn i = true → bitOf (s.vcMask i) n = false) :
    s.vceBist rq n = (s.setEngine n 2).setFlag (P.vce n 0) F.VCE_CTL_bist true := by
  have hall : ((List.range 64).any fun i => s.vcOn i && bitOf (s.vcMask i) n) = false := by
    simp only [List.any_eq_false, List.mem_range, Bool.and_eq_true, not_and, Bool.not_eq_true]
    exact hno
  rw [State.vceBist, hall]
  rcases h with h | h <;> rw [h] <;> rfl

theorem State.vceBist_refuse {s : State} {n : Nat} {rq : Requester} (h : s.engine n = 1 ∨ s.engine n = 2 ∨ s.engine n = 3) :
    s.vceBist rq n = (s.satFld (P.vce n 0) F.VCE_BIST_refused 1).countErr (P.vce n 0) 0x43 (rqCode rq) (accessAddr rq (P.vce n 0) 0x044) := by
  rw [State.vceBist]
  rcases h with h | h | h <;> rw [h] <;> rfl

theorem exec_vceBist_of_grants {s : State} {rq : Requester} {n : Fin 4} (h : s.grants rq (P.vce n 0) = true) :
    exec (.vceBist rq n) s = .next (s.vceBist rq n) := by
  show Host.Outcome.next _ = _
  rw [State.privWrite_of_grants h]

theorem exec_vceEngineReset_of_grants {s : State} {rq : Requester} {n : Fin 4} (h : s.grants rq (P.vce n 0) = true) :
    exec (.vceEngineReset rq n) s = .next (s.vceReset n) := by
  show Host.Outcome.next _ = _
  rw [State.privWrite_of_grants h]

/-- The fault of an engine that no session uses. -/
theorem State.vceFail_unused {s : State} {n : Nat} (h : s.engine n ≠ 3) (hno : ∀ i, i < 64 → s.vcOn i = true → bitOf (s.vcMask i) n = false) :
    s.vceFail n = ((s.setEngine n 3).setFlag (P.vce n 0) F.VCE_CTL_bist false).event (P.vce n 0) 1 := by
  have hnil : ((List.range 64).filter fun i => s.vcOn i && s.vcState i != 5 && bitOf (s.vcMask i) n) = [] := by
    simp only [List.filter_eq_nil_iff, List.mem_range, Bool.and_eq_true, not_and, Bool.not_eq_true]
    exact fun i hi hon => hno i hi hon.1
  rw [State.vceFail, if_neg h, hnil]
  rfl

/-- What a self-test leaves: its result, and the flags of the engine. -/
theorem vceBistDone_fields (s : State) (n st : Nat) (hst : st < 8) (pass : Bool) {t : State}
    (ht : t = ((((s.setEngine n st).setFlag (P.vce n 0) F.VCE_CTL_bist false).setFlag (P.vce n 0) F.VCE_BIST_done true).setFlag (P.vce n 0)
      F.VCE_BIST_pass pass).event (P.vce n 0) 0) :
    t.engine n = st ∧ t.flag (P.vce n 0) F.VCE_CTL_bist = false ∧ t.flag (P.vce n 0) F.VCE_BIST_done = true ∧ t.flag (P.vce n 0) F.VCE_BIST_pass = pass ∧
      bitOf (t.fld (P.vce n 0) F.PG_INT_STS) 0 = true := by
  subst ht
  refine ⟨?_, ?_, ?_, ?_, State.bit_event _ _ (by decide)⟩
  · rw [State.engine_event, State.engine_setFlag _ _ (by decide), State.engine_setFlag _ _ (by decide), State.engine_setFlag _ _ (by decide),
      State.engine_setEngine _ _ hst]
  · rw [State.flag, State.fld_event_own (by decide), ← State.flag, State.flag_setFlag_apart _ _ _ (by decide), State.flag_setFlag_apart _ _ _ (by decide), State.flag_setFlag_self _ _ (by decide)]
  · rw [State.flag, State.fld_event_own (by decide), ← State.flag, State.flag_setFlag_apart _ _ _ (by decide), State.flag_setFlag_self _ _ (by decide)]
  · rw [State.flag, State.fld_event_own (by decide), ← State.flag, State.flag_setFlag_self _ _ (by decide)]

/-! The obligation. -/

theorem exec_vceSessionEnable_of_off {s : State} {rq : Requester} {i : Fin 64} {w : Word} (hg : s.grants rq (vcPg i) = true) (hw : bitOf w.toNat 31 = true)
    (hoff : s.vcOn i = false) : exec (.vceSessionEnable rq i w) s = .next ((s.vcBound i w.toNat true).vcEnable rq i) := by
  rw [exec_vceSessionEnable_of_grants hg hw, State.vcBindWrite_of_off w.isLt hw hoff, if_pos rfl]

theorem State.vcBound_only (s : State) (i w : Nat) (b : Bool) : s.RegsOnly (s.vcBound i w b) :=
  (State.each_keeps (fun u => s.RegsOnly u) s vcLive _ (fun _ _ _ hu => hu.trans (.setFld _ _ _ _)) (.refl s)).trans (.setFld _ _ _ _)

theorem State.vcState_vcBound (s : State) (i w : Nat) (b : Bool) : (s.vcBound i w b).vcState i = s.vcState i := by
  rw [State.vcState, State.vcBound, State.vcf_setVcf_apart _ _ _ (by decide), vcLive, State.each_cons, State.each_cons, State.each_cons, State.each_nil,
    State.vcf_setVcf_apart _ _ _ (by decide), State.vcf_setVcf_apart _ _ _ (by decide), State.vcf_setVcf_apart _ _ _ (by decide), State.vcState]

theorem vcFresh_started_fields (u : State) (i gen : Nat) : ((u.vcFresh i).started gen).par = (u.vcFresh i).par ∧ ((u.vcFresh i).started gen).gen = gen + 1 ∧
    ((u.vcFresh i).started gen).run = none ∧ ((u.vcFresh i).started gen).c = 0 ∧
    ((u.vcFresh i).encodes = true → (u.vcFresh i).constQp = false → ((u.vcFresh i).started gen).b = (u.vcFresh i).b0) := by
  refine ⟨rfl, rfl, rfl, rfl, fun he hq => ?_⟩
  simp only [VcSt.started, he, hq]
  rfl

theorem State.RegsOnly.vcs {s t : State} (h : s.RegsOnly t) : t.vcs = s.vcs := by
  obtain ⟨_, _, _, _, _, rfl⟩ := h
  rfl

theorem State.RegsOnly.cmap {s t : State} (h : s.RegsOnly t) : t.cmap = s.cmap := by
  obtain ⟨_, _, _, _, _, rfl⟩ := h
  rfl

/-- The disable of an idle session that is enabled. -/
theorem vcBindWrite_idle {s : State} {rq : Requester} {i w : Nat} (hw : bitOf w 31 = false) (hst : s.vcState i = 1 ∨ s.vcState i = 5) (hrun : (s.vc i).run = none)
    (hend : (s.vc i).ended = []) (hc : (s.vc i).c = (s.vc i).vis) : (s.vcBindWrite rq i w).vcState i = 0 ∧ ((s.vcBindWrite rq i w).vc i).run = none ∧
      (s.vcBindWrite rq i w).stores = s.stores ∧ (s.vcBindWrite rq i w).slices = s.slices := by
  have hon : s.vcOn i = true := by
    rw [State.vcOn]
    rcases hst with h | h <;> rw [h] <;> rfl
  obtain ⟨u, hu, hust, hreg⟩ : ∃ u : State, s.vcBindWrite rq i w = u.vcDisable i ∧ u.vcState i = s.vcState i ∧ s.RegsOnly u := by
    rw [State.vcBindWrite]
    dsimp only
    rw [hon, hw, if_neg Bool.false_ne_true, if_pos rfl]
    generalize (!false && vcLive.all fun f => s.vcf i f == bits w (f 0).lo (f 0).len) = same
    cases same
    · refine ⟨_, rfl, ?_, (State.countErr_only _ _ _ _ _).trans (.setFld _ _ _ _)⟩
      rw [State.vcState, State.vcf_setVcf_apart _ _ _ (by decide), if_neg Bool.false_ne_true, State.vcf_countErr _ _ (by decide), State.vcState]
    · refine ⟨_, rfl, ?_, .setFld _ _ _ _⟩
      rw [State.vcState, State.vcf_setVcf_apart _ _ _ (by decide), if_pos rfl, State.vcState]
  have hvc : u.vc i = s.vc i := by rw [State.vc, hreg.vcs, State.vc]
  obtain ⟨h0, hr, hsto, hsl⟩ := State.vcDisable_idle (s := u) (i := i) (by rw [hust]; exact hst) (by rw [hvc]; exact hrun) (by rw [hvc]; exact hend)
    (by rw [hvc]; exact hc)
  rw [hu]
  obtain ⟨_, _, _, _, _, rfl⟩ := hreg
  exact ⟨h0, hr, hsto, hsl⟩

/-- Settles O54: sessions by the enable, its refusals and the disable of an idle session, engines by the fields that each command writes. -/
theorem codecSessionsAndEngines : Obligations.CodecSessionsAndEngines := by
  unfold Obligations.CodecSessionsAndEngines
  refine ⟨fun s rq i w hg => ⟨fun hw hoff u v hu hv => ?_, fun hw hoff => ?_, fun hw hst hrun hend hc => ?_, fun hw => ?_, fun hw => ?_⟩,
    fun s rq n pass => ⟨fun hg => ⟨fun hst hno => ?_, fun hst => ?_, fun hst hclk => ?_, fun hst => ?_⟩, fun hst => ?_, fun hst => ?_, fun hst hno => ?_, fun hst => ?_⟩⟩
  · have hub : u = s.vcBound i w.toNat true := hu
    have hreg : s.RegsOnly u := hub ▸ s.vcBound_only i w.toNat true
    have hex := exec_vceSessionEnable_of_off hg hw hoff
    rw [← hub] at hex
    have hvc : s.vc i = u.vc i := by rw [State.vc, ← hreg.vcs, State.vc]
    rw [hvc] at hv
    have hv : v = u.vcFresh i := hv
    subst hv
    refine ⟨fun hok => ⟨_, hex, ?_⟩, fun c d hno => ⟨_, hex, ?_⟩⟩
    · rw [State.vcEnable_of_ok hok, hvc]
      obtain ⟨h1, h2, h3, h4, h5⟩ := u.vcReadied_fields i ((u.vcFresh i).started (u.vc i).gen)
      obtain ⟨hpar, hgen, hrun, hc, hb⟩ := vcFresh_started_fields u i (u.vc i).gen
      rw [h2]
      exact ⟨h1, hpar, hgen, hrun, hc, h3, h4, h5, hb⟩
    · obtain ⟨h1, h2, h3, h4, h5, h6⟩ := State.vcEnable_refused (rq := rq) hno
      exact ⟨h1, h2, h3, h4.trans hreg.cmap, hreg.sameBytes.trans h5, h6⟩
  · refine ⟨_, exec_vceSessionDisable_of_grants hg hw, ?_⟩
    have hon : (s.vcBound i w.toNat false).vcOn i = false := by
      rw [State.vcOn, State.vcState_vcBound, ← State.vcOn, hoff]
    rw [State.vcBindWrite_of_off w.isLt hw hoff, if_neg Bool.false_ne_true, State.vcDisable, hon, if_pos (by decide)]
    exact ⟨by rw [State.vcState, State.vcf_setVcf_self]; rfl, ((s.vcBound_only i w.toNat false).trans (.setFld _ _ _ _)).sameBytes⟩
  · exact ⟨_, exec_vceSessionDisable_of_grants hg hw, vcBindWrite_idle hw hst hrun hend hc⟩
  · show Host.Outcome.next _ = _
    rw [if_neg (by rw [hw]; decide)]
  · show Host.Outcome.next _ = _
    rw [if_pos hw]
  · refine ⟨_, (exec_vceBist_of_grants hg).trans (by rw [State.vceBist_start hst hno]), ?_, State.flag_setFlag_self _ _ (by decide) _, ?_, ?_⟩
    · rw [State.engine_setFlag _ _ (by decide), State.engine_setEngine _ _ (by decide)]
    · exact ((State.sameRegs.refl s _).setFld (by simp) _).setFld (by simp) _
    · exact ((State.RegsOnly.setFld _ _ _ _).trans (.setFld _ _ _ _)).sameBytes
  · refine ⟨_, (exec_vceBist_of_grants hg).trans (by rw [State.vceBist_refuse hst]), ?_, ?_, ?_⟩
    · rw [State.engine, State.fld_countErr_own _ _ _ (by decide), State.fld_satFld_apart (by decide), State.engine]
    · rw [State.fld_countErr_own _ _ _ (by decide), State.fld_satFld_self]
      rfl
    · rw [State.errCnt_countErr, State.fld_satFld_apart (by decide)]
  · rw [exec_vceEngineReset_of_grants hg, State.vceReset, if_pos ⟨hst, by rw [hclk]; decide⟩, State.setEngine]
  · rw [exec_vceEngineReset_of_grants hg, State.vceReset, if_neg]
    rintro ⟨h3, hclk⟩
    exact hst.elim (fun h => h h3) hclk
  · obtain ⟨h1, h2⟩ := vceBistDone_fields s n (if pass then 0 else 4) (by cases pass <;> decide) pass rfl
    refine ⟨_, ?_, h1, h2⟩
    exact congrArg Host.Outcome.next (if_neg (not_not.mpr hst))
  · exact congrArg Host.Outcome.next (if_pos hst)
  · refine ⟨_, congrArg Host.Outcome.next (State.vceFail_unused hst hno), ?_, State.bit_event _ _ (by decide), fun m hm hmn => ?_, ?_⟩
    · rw [State.engine_event, State.engine_setFlag _ _ (by decide), State.engine_setEngine _ _ (by decide)]
    · rw [State.engine_event, State.engine_setFlag _ _ (by decide), State.engine_setEngine_other _ _ hmn]
    · exact (((State.RegsOnly.setFld _ _ _ _).trans (.setFld _ _ _ _)).trans (.event _ _ _)).sameBytes
  · exact congrArg Host.Outcome.next (if_pos hst)

end Sys2Proof.Machine
end

section
/-! Completion entries that go to the host (06 R133, R137-R139), and codec commands (12 R294-R296, R306). -/
namespace Sys2Proof.Machine

/-! Completion entries. -/

theorem State.mem_outs_emit {s : State} {o : Out} (h : o ∈ s.outs) (x : Out) : o ∈ (s.emit x).outs := List.mem_cons_of_mem _ h

theorem State.mem_outs_msix {s : State} {o : Out} (h : o ∈ s.outs) (k v : Nat) : o ∈ (s.msix k v).outs := by
  unfold State.msix
  split
  · exact State.mem_outs_emit (s := s.setFn k _) h _
  · exact h

theorem State.mem_outs_cqSignal {s : State} {o : Out} (h : o ∈ s.outs) (n q : Nat) : o ∈ (s.cqSignal n q).outs := by
  unfold State.cqSignal
  dsimp only
  split
  · exact h
  · exact State.mem_outs_msix (s := s.setQueue n q _) h _ _

theorem State.mem_outs_cqNotify {s : State} {o : Out} (h : o ∈ s.outs) (n q : Nat) (irq : Bool) : o ∈ (s.cqNotify n q irq).outs := by
  unfold State.cqNotify
  dsimp only
  split
  · exact State.mem_outs_cqSignal (s := s.setQueue n q _) h _ _
  · exact h

/-- The address of the next entry of a completion ring. -/
def State.cqAddr (s : State) (n q : Nat) : Nat :=
  s.fld64 (P.queue n q) F.Q_CQ_BASE_LO_addr F.Q_CQ_BASE_HI_addr / 4096 * 4096 + s.cqTail n q % 2 ^ qf s n q F.Q_CQ_CFG_log2_size * 32

/-- An entry as the ring takes it: with the queue's head and the phase of its number. -/
def State.cqStamped (s : State) (n q : Nat) (e : CqEntry) : CqEntry :=
  { e with sqHead := s.sqHead n q, phase := s.cqTail n q / 2 ^ qf s n q F.Q_CQ_CFG_log2_size % 2 == 0 }

theorem State.cqPut_sends (s : State) (n q : Nat) (e : CqEntry) (irq : Bool) :
    .cqEntry n q (s.cqTail n q) (s.tnFn n) (s.qPasid n q) (s.cqAddr n q) (s.cqStamped n q e).bytes false ∈ (s.cqPut n q e irq).outs := by
  unfold State.cqPut
  dsimp only
  refine State.mem_outs_cqNotify ?_ _ _ _
  exact List.mem_cons_self

theorem State.cqWrite_of_goes {s : State} {n q : Nat} (h : s.entryGoes n q = true) (e : CqEntry) (irq : Bool) : s.cqWrite n q e irq = s.cqPut n q e irq := by
  simp only [State.entryGoes, Bool.and_eq_true, Bool.not_eq_true'] at h
  obtain ⟨⟨-, hreq⟩, hd3⟩ := h
  rw [State.cqWrite, hd3, hreq]
  rfl

theorem State.writesEntries_of_goes {s : State} {n q : Nat} (h : s.entryGoes n q = true) : s.writesEntries n q = true := by
  simp only [State.entryGoes, Bool.and_eq_true, Bool.not_eq_true'] at h
  exact h.1.1

/-- All that an entry changes: registers, queues, functions and what was sent. -/
def State.QueueOnly (s t : State) : Prop := ∃ r qs f o x i, t = { s with regs := r, queues := qs, fns := f, outs := o, transit := x, ideSent := i }

theorem State.RegsOnly.queueOnly {s t : State} (h : s.RegsOnly t) : s.QueueOnly t := by
  obtain ⟨_, _, _, _, _, rfl⟩ := h
  exact ⟨_, _, _, _, _, _, rfl⟩

theorem State.QueueOnly.refl (s : State) : s.QueueOnly s := (State.RegsOnly.refl s).queueOnly

theorem State.QueueOnly.trans {s t u : State} (h1 : s.QueueOnly t) (h2 : t.QueueOnly u) : s.QueueOnly u := by
  obtain ⟨_, _, _, _, _, _, rfl⟩ := h1
  obtain ⟨_, _, _, _, _, _, rfl⟩ := h2
  exact ⟨_, _, _, _, _, _, rfl⟩

theorem State.QueueOnly.setQueue (s : State) (n q : Nat) (v : QueueSt) : s.QueueOnly (s.setQueue n q v) := ⟨_, _, _, _, _, _, rfl⟩

theorem State.msix_only (s : State) (k v : Nat) : s.RegsOnly (s.msix k v) := ⟨s.regs, _, _, _, _, State.msix_eq s k v⟩

theorem State.cqSignal_only (s : State) (n q : Nat) : s.QueueOnly (s.cqSignal n q) := by
  unfold State.cqSignal
  dsimp only
  split
  · exact .setQueue _ _ _ _
  · exact (State.QueueOnly.setQueue _ _ _ _).trans (State.msix_only _ _ _).queueOnly

theorem State.cqNotify_only (s : State) (n q : Nat) (irq : Bool) : s.QueueOnly (s.cqNotify n q irq) := by
  unfold State.cqNotify
  dsimp only
  split
  · exact (State.QueueOnly.setQueue _ _ _ _).trans (State.cqSignal_only _ _ _)
  · exact .setQueue _ _ _ _

theorem State.cqPut_only (s : State) (n q : Nat) (e : CqEntry) (irq : Bool) : s.QueueOnly (s.cqPut n q e irq) := by
  refine State.QueueOnly.trans ?_ (State.cqNotify_only _ _ _ _)
  exact ⟨_, _, _, _, _, _, rfl⟩

section
variable {s t : State} (h : s.QueueOnly t)
include h

theorem State.QueueOnly.keeps : t.vcs = s.vcs ∧ t.hmp = s.hmp ∧ t.stores = s.stores ∧ t.slices = s.slices ∧ t.now = s.now ∧ t.cmap = s.cmap ∧ t.tens = s.tens ∧
    t.ports = s.ports := by
  obtain ⟨_, _, _, _, _, _, rfl⟩ := h
  exact ⟨rfl, rfl, rfl, rfl, rfl, rfl, rfl, rfl⟩

theorem State.QueueOnly.sameBytes : s.sameBytes t := by
  obtain ⟨_, _, _, _, _, _, rfl⟩ := h
  exact .refl s

theorem State.QueueOnly.vc (i : Nat) : t.vc i = s.vc i := by rw [State.vc, h.keeps.1, State.vc]

end

theorem State.flog_only (s : State) (n kind block code detail addr : Nat) : s.RegsOnly (s.flog n kind block code detail addr) :=
  ((State.each_keeps (fun u => s.RegsOnly u) s _ _ (fun _ _ _ hu => hu.trans (.setFld _ _ _ _)) (.refl s)).trans (.setFld _ _ _ _)).trans (.event _ _ _)

/-- What one element of a list sets, and every other element keeps. -/
theorem State.each_reaches {α : Type} {P : State → Prop} {l : List α} {x : α} (hx : x ∈ l) (f : α → State → State) (hset : ∀ u, P (f x u))
    (hkeep : ∀ y u, P u → P (f y u)) (s : State) : P (s.each l f) := by
  induction l generalizing s with
  | nil => cases hx
  | cons y ys ih =>
    rw [State.each_cons]
    by_cases hxs : x ∈ ys
    · exact ih hxs _
    · obtain rfl : x = y := by
        rcases List.mem_cons.mp hx with h | h
        · exact h
        · exact absurd h hxs
      exact State.each_keeps P _ _ _ (fun z _ u hu => hkeep z u hu) (hset s)

/-! Codec commands. -/

/-- The entry of a codec command. -/
def vcEntryOf (s : State) (i : Nat) (cmd : List Byte) (st dt res us : Nat) : CqEntry :=
  ⟨dfield cmd 0 4, 0, st, false, false, s.epoch (s.vcTenant i), dt, 0xFFFF, 0, s.vcQueue i, dfield cmd 8 8, res, us⟩

theorem State.vcEntry_of_goes {s : State} {i : Nat} (h : s.entryGoes (s.vcTenant i) (s.vcQueue i) = true) (cmd : List Byte) (st dt res us : Nat) :
    s.vcEntry i cmd st dt res us = s.cqPut (s.vcTenant i) (s.vcQueue i) (vcEntryOf s i cmd st dt res us) (bitOf (dfield cmd 5 1) 1) := by
  rw [State.vcEntry, State.writesEntries_of_goes h, if_pos rfl, State.cqWrite_of_goes h, vcEntryOf]

/-- A codec command that completes sends its entry. -/
theorem State.vcEntry_sends {s : State} {i n q : Nat} (hn : s.vcTenant i = n) (hq : s.vcQueue i = q) (h : s.entryGoes n q = true) (cmd : List Byte)
    (st dt res us : Nat) : ∃ j fn pa a e, .cqEntry n q j fn pa a (CqEntry.bytes e) false ∈ (s.vcEntry i cmd st dt res us).outs ∧ e.status = st ∧ e.detail = dt ∧
      e.result = res ∧ e.tag = dfield cmd 0 4 := by
  subst hn hq
  rw [State.vcEntry_of_goes h]
  exact ⟨_, _, _, _, _, State.cqPut_sends _ _ _ _ _, rfl, rfl, rfl, rfl⟩

theorem State.vcEntry_only {s : State} {i : Nat} (h : s.entryGoes (s.vcTenant i) (s.vcQueue i) = true) (cmd : List Byte) (st dt res us : Nat) :
    s.QueueOnly (s.vcEntry i cmd st dt res us) := by
  rw [State.vcEntry_of_goes h]
  exact State.cqPut_only _ _ _ _ _

/-- The check of a command depends on the session's parameter block alone. -/
theorem State.vcCmdBad_congr {s : State} {i : Nat} {x : VcSt} (hp : x.par = (s.vc i).par) (cmd : List Byte) (m : Tab Nat) :
    (({ s with vcLast := m } : State).setVc i x).vcCmdBad i cmd = s.vcCmdBad i cmd := by
  obtain ⟨par, c, vis, prod, cancel, run, stall, ended, gen, b, skips, recodes, fillers, pics, retry, dirty, seq, tail, head, live, wpos⟩ := x
  obtain rfl : par = (s.vc i).par := hp
  rw [State.vcCmdBad, State.vc_setVc_self]
  rfl

/-- The state in which the next command of a session has been taken. -/
def State.vcTaken (s : State) (i : Nat) : State :=
  ({ s with vcLast := Tab.set nat0 s.vcLast (s.vcMask i) i } : State).setVc i { s.vc i with c := ((s.vc i).c + 1) % 2 ^ 32 }

theorem State.vcCmdBad_taken (s : State) (i : Nat) (cmd : List Byte) : (s.vcTaken i).vcCmdBad i cmd = s.vcCmdBad i cmd := by
  rw [State.vcTaken]
  generalize hx : ({ s.vc i with c := ((s.vc i).c + 1) % 2 ^ 32 } : VcSt) = x
  exact State.vcCmdBad_congr (by rw [← hx]) cmd _

/-- The run of the next command. -/
def State.vcRunOf (s : State) (i : Nat) : VcRun :=
  let v := s.vc i
  let cmd := s.vcCmd i v.c
  let len := if v.encodes then vcPic (v.p 6 1) (v.p 0xA 2) (dfield cmd 0x24 4) else dfield cmd 0x1C 4
  let intra := v.encodes && v.intraNow cmd
  ⟨cmd, s.now, s.apPoison (s.vcTenant i) (dfield cmd 0x18 4 % 2 ^ 28) len, if v.encodes && !intra then s.vcRefPoison i v.encRefs else none, false, intra⟩

section Start
variable {s : State} {i : Nat} (hturn : s.vcTurn (s.vcMask i) = some i)
include hturn

/-- A command that fails its checks. -/
theorem State.vcStart_bad {o : Nat} (hbad : s.vcCmdBad i (s.vcCmd i (s.vc i).c) = some o) :
    s.vcStart i = ((s.vcTaken i).vcEntry i (s.vcCmd i (s.vc i).c) 5 o 0 0).vcControlLine i := by
  have hb : (s.vcTaken i).vcCmdBad i (s.vcCmd i (s.vc i).c) = some o := (State.vcCmdBad_taken _ _ _).trans hbad
  rw [State.vcStart, if_neg (not_not.mpr hturn)]
  dsimp only
  split
  next o' h =>
    obtain rfl : o' = o := Option.some.inj (h.symm.trans hb)
    rfl
  next h => exact absurd (h.symm.trans hb) (by simp)

/-- A command that starts. -/
theorem State.vcStart_starts (hok : s.vcCmdBad i (s.vcCmd i (s.vc i).c) = none) :
    s.vcStart i = ((((s.vcTaken i).setVc i { (s.vcTaken i).vc i with run := some (s.vcRunOf i) }).vcReserve i true).each (maskEngines (s.vcMask i)) fun e s =>
      (s.setEngine e 1).setFld (P.vce e 0) F.VCE_STS_session i).setVcState i 2 := by
  have hb : (s.vcTaken i).vcCmdBad i (s.vcCmd i (s.vc i).c) = none := (State.vcCmdBad_taken _ _ _).trans hok
  rw [State.vcStart, if_neg (not_not.mpr hturn)]
  dsimp only
  split
  next h => exact absurd (h.symm.trans hb) (by simp)
  next => rfl

end Start

theorem mem_maskEngines {m e : Nat} : e ∈ maskEngines m ↔ e < 4 ∧ bitOf m e = true := by
  rw [maskEngines, List.mem_filter, List.mem_range]

/-- The engines of a session are ACTIVE on it. -/
theorem vcEngines_on (u : State) (m i : Nat) (hi : i < 64) {e : Nat} (he : e ∈ maskEngines m) {t : State}
    (ht : t = u.each (maskEngines m) fun e s => (s.setEngine e 1).setFld (P.vce e 0) F.VCE_STS_session i) :
    t.engine e = 1 ∧ t.fld (P.vce e 0) F.VCE_STS_session = i := by
  subst ht
  refine State.each_reaches (P := fun t => t.engine e = 1 ∧ t.fld (P.vce e 0) F.VCE_STS_session = i) he _ (fun u => ?_) (fun y u hu => ?_) u
  · refine ⟨?_, ?_⟩
    · rw [State.engine, State.fld_setFld_apart _ _ _ _ (by decide)]
      exact State.engine_setEngine _ _ (by decide)
    · rw [State.fld_setFld_self]
      exact Nat.mod_eq_of_lt hi
  · by_cases hy : y = e
    · subst hy
      refine ⟨?_, ?_⟩
      · rw [State.engine, State.fld_setFld_apart _ _ _ _ (by decide)]
        exact State.engine_setEngine _ _ (by decide)
      · rw [State.fld_setFld_self]
        exact Nat.mod_eq_of_lt hi
    · have hp : P.vce e 0 ≠ P.vce y 0 := by
        simp only [P.vce]
        omega
      refine ⟨?_, ?_⟩
      · rw [State.engine, State.fld_setFld_apart _ _ _ _ (by decide)]
        exact (State.engine_setEngine_other _ _ (Ne.symm hy) _).trans hu.1
      · rw [State.fld_setFld_page _ _ _ _ hp (by decide) (by decide), State.setEngine, State.fld_setFld_apart _ _ _ _ (by decide)]
        exact hu.2

theorem vcEngines_only (u : State) (m i : Nat) : u.RegsOnly (u.each (maskEngines m) fun e s => (s.setEngine e 1).setFld (P.vce e 0) F.VCE_STS_session i) :=
  State.each_keeps (fun t => u.RegsOnly t) u _ _ (fun _ _ _ hu => (hu.trans (.setFld _ _ _ _)).trans (.setFld _ _ _ _)) (.refl u)

/-- What a command that starts leaves. -/
theorem vcStarted_fields (s : State) (i : Nat) (hi : i < 64) (x : VcSt) {t : State}
    (ht : t = ((((s.vcTaken i).setVc i x).vcReserve i true).each (maskEngines (s.vcMask i)) fun e s =>
      (s.setEngine e 1).setFld (P.vce e 0) F.VCE_STS_session i).setVcState i 2) :
    t.vc i = x ∧ t.vcState i = 2 ∧ Tab.get nat0 t.vcLast (s.vcMask i) = i ∧
      (∀ e, e < 4 → bitOf (s.vcMask i) e = true → t.engine e = 1 ∧ t.fld (P.vce e 0) F.VCE_STS_session = i) ∧
      (t.queue (s.vcTenant i) (s.vcQueue i)).reserved = (s.queue (s.vcTenant i) (s.vcQueue i)).reserved + 1 := by
  have hvc : (((s.vcTaken i).setVc i x).vcReserve i true).vc i = x := State.vc_setVc_self _ _ _
  have hlast : (((s.vcTaken i).setVc i x).vcReserve i true).vcLast = Tab.set nat0 s.vcLast (s.vcMask i) i := rfl
  have hres : ((((s.vcTaken i).setVc i x).vcReserve i true).queue (s.vcTenant i) (s.vcQueue i)).reserved =
      (s.queue (s.vcTenant i) (s.vcQueue i)).reserved + 1 := by
    rw [State.vcReserve]
    exact congrArg QueueSt.reserved (State.queue_setQueue_self _ _ _ _)
  generalize ((s.vcTaken i).setVc i x).vcReserve i true = w at ht hvc hlast hres
  have hreg := vcEngines_only w (s.vcMask i) i
  have heng := fun e (he : e ∈ maskEngines (s.vcMask i)) => vcEngines_on w (s.vcMask i) i hi he rfl
  generalize (w.each (maskEngines (s.vcMask i)) fun e s => (s.setEngine e 1).setFld (P.vce e 0) F.VCE_STS_session i) = u at ht hreg heng
  have hline : VcLine i (u.setVcf i F.VCE_SS_STS_state 2) t := ht ▸ vcLine_vcControlLine _ i
  obtain ⟨-, -, -, -, hqueues, hvcl, -⟩ := hline.keeps
  obtain ⟨_, _, _, _, _, rfl⟩ := hreg
  refine ⟨?_, ?_, ?_, fun e he hb => ?_, ?_⟩
  · rw [hline.vc]
    exact hvc
  · rw [hline.vcState, State.vcState, State.vcf_setVcf_self]
    rfl
  · rw [hvcl]
    exact (congrArg (fun l => Tab.get nat0 l (s.vcMask i)) hlast).trans (Tab.get_set_self nat0 s.vcLast _ _)
  · obtain ⟨h1, h2⟩ := heng e (mem_maskEngines.mpr ⟨he, hb⟩)
    have hpg := (vcPg_ne_vce i e).symm
    rw [State.engine, hline.fld hpg (by decide), hline.fld hpg (by decide), State.fld_setVcf_page _ _ _ hpg (by decide) (by decide),
      State.fld_setVcf_page _ _ _ hpg (by decide) (by decide)]
    exact ⟨h1, h2⟩
  · rw [State.queue, hqueues]
    exact hres

/-- What a command that fails its checks leaves. -/
theorem vcBad_fields {s : State} {i : Nat} (hgoes : s.entryGoes (s.vcTenant i) (s.vcQueue i) = true) (cmd : List Byte) (o : Nat) {t : State}
    (ht : t = ((s.vcTaken i).vcEntry i cmd 5 o 0 0).vcControlLine i) :
    t.vc i = { s.vc i with c := ((s.vc i).c + 1) % 2 ^ 32 } ∧ ∃ j fn pa a e, .cqEntry (s.vcTenant i) (s.vcQueue i) j fn pa a (CqEntry.bytes e) false ∈ t.outs ∧
      e.status = 5 ∧ e.detail = o ∧ e.tag = dfield cmd 0 4 := by
  have hgoes' : (s.vcTaken i).entryGoes ((s.vcTaken i).vcTenant i) ((s.vcTaken i).vcQueue i) = true := hgoes
  have honly := State.vcEntry_only hgoes' cmd 5 o 0 0
  obtain ⟨j, fn, pa, a, e, hmem, h5, ho, -, htag⟩ := State.vcEntry_sends (s := s.vcTaken i) rfl rfl hgoes' cmd 5 o 0 0
  have hline : VcLine i ((s.vcTaken i).vcEntry i cmd 5 o 0 0) t := ht ▸ vcLine_vcControlLine _ i
  refine ⟨?_, j, fn, pa, a, e, ?_, h5, ho, htag⟩
  · rw [hline.vc, honly.vc]
    exact State.vc_setVc_self _ _ _
  · rw [hline.keeps.2.2.1]
    exact hmem

/-! Producer polls. -/

/-- A poll that reads a new producer count and no new cancel. -/
theorem exec_vceProducerPoll {s : State} {i : Fin 64} (hst : s.vcState i = 1 ∨ s.vcState i = 2) (htn : s.tnState (s.vcTenant i) ≠ 3)
    (hend : (s.vc i).ended = []) (hpois : s.apPoison (s.vcTenant i) (s.vcCtl i + 0x140) 8 = none)
    (hcan : leNat (s.apRead (s.vcTenant i) (s.vcCtl i + 0x140 + 4) 1) = (s.vc i).cancel) {p d : Nat}
    (hp : p = leNat (s.apRead (s.vcTenant i) (s.vcCtl i + 0x140) 4)) (hd : d = (p + 2 ^ 32 - (s.vc i).c) % 2 ^ 32) (hnew : (s.vc i).prod ≠ some p) :
    exec (.vceProducerPoll i) s = .next (if d ≤ 256 then
      (s.setVc i { s.vc i with prod := some p, vis := if ((s.vc i).vis + 2 ^ 32 - (s.vc i).c) % 2 ^ 32 < d then p else (s.vc i).vis }).vcControlLine i
      else ((s.setVc i { s.vc i with prod := some p }).countErr (vcPg i) 0x42 0xFF 0).flog (s.vcTenant i) 1 0x06 0x42 0 0) := by
  subst hd
  have hflush : s.vcFlush i 600 = s := by
    rw [State.vcFlush_of_none hend, if_neg]
    rintro ⟨h3, -⟩
    omega
  have hgo : (!(s.vcState i == 1 || s.vcState i == 2) || s.tnState (s.vcTenant i) == 3 || (s.apPoison (s.vcTenant i) (s.vcCtl i + 0x140) 8).isSome) = false := by
    rw [hpois, beq_false_of_ne htn]
    rcases hst with h | h <;> rw [h] <;> rfl
  show Host.Outcome.next _ = _
  simp only [hflush, hgo, hcan, ← hp, if_neg hnew, Bool.false_eq_true, if_false, if_true]

theorem State.sameBytes_setVc (s : State) (i : Nat) (x : VcSt) : s.sameBytes (s.setVc i x) := .refl s

/-- A producer count out of range is an error of the page and of the tenant. -/
theorem vcPollError_fields (s : State) (i : Nat) (x : VcSt) {t : State}
    (ht : t = ((s.setVc i x).countErr (vcPg i) 0x42 0xFF 0).flog (s.vcTenant i) 1 0x06 0x42 0 0) :
    t.vc i = x ∧ t.fld (vcPg i) F.PG_ERR_CNT = min 65535 (s.fld (vcPg i) F.PG_ERR_CNT + 1) ∧ s.sameBytes t := by
  have hpg : vcPg i ≠ P.ten (s.vcTenant i) 10 := by
    simp only [vcPg, P.vce, P.ten]
    omega
  have hreg : (s.setVc i x).RegsOnly t := ht ▸ (State.countErr_only _ _ _ _ _).trans (State.flog_only _ _ _ _ _ _ _)
  refine ⟨?_, ?_, (s.sameBytes_setVc i x).trans hreg.sameBytes⟩
  · rw [hreg.queueOnly.vc, State.vc_setVc_self]
  · rw [ht, State.fld_flog_page hpg (by decide), State.errCnt_countErr]
    rfl

/-- Settles O55: a poll, a command that starts and one that fails its checks, each by its equation. -/
theorem codecCommandResults : Obligations.CodecCommandResults := by
  unfold Obligations.CodecCommandResults
  intro s i v hv
  subst hv
  refine ⟨fun hst htn hend a p d ha hpois hp hcan hd hnew => ?_, fun hturn cmd c hcmd hc => ?_, fun hturn => ?_, fun he => ?_, fun he => ?_⟩
  · subst ha
    have hex := exec_vceProducerPoll hst htn hend hpois hcan hp hd hnew
    refine ⟨fun hle => ?_, fun hgt => ?_⟩
    · rw [if_pos hle] at hex
      generalize hx : ({ s.vc i with prod := some p, vis := if ((s.vc i).vis + 2 ^ 32 - (s.vc i).c) % 2 ^ 32 < d then p else (s.vc i).vis } : VcSt) = x at hex
      have hline := vcLine_vcControlLine (s.setVc i x) i
      refine ⟨_, hex, ?_⟩
      beta_reduce
      rw [hline.vc, State.vc_setVc_self, hline.keeps.2.2.1, ← hx]
      exact ⟨rfl, rfl, rfl, rfl⟩
    · rw [if_neg (by omega)] at hex
      obtain ⟨hvc, herr, hbytes⟩ := vcPollError_fields s i { s.vc i with prod := some p } rfl
      refine ⟨_, hex, ?_, ?_, herr, hbytes⟩
      · rw [hvc]
      · rw [hvc]
  · subst hcmd
    have hex : exec c s = .next (s.vcStart i) := by
      rw [hc]
      cases he : (s.vc i).encodes
      · exact congrArg Host.Outcome.next (if_neg (by rw [he]; decide))
      · exact congrArg Host.Outcome.next (if_pos he)
    refine ⟨fun hok => ⟨_, hex, ?_⟩, fun o hbad hgoes => ⟨_, hex, ?_⟩⟩
    · rw [State.vcStart_starts hturn hok]
      obtain ⟨hvc, hst, hlast, heng, hres⟩ := vcStarted_fields s i i.isLt { (s.vcTaken i).vc i with run := some (s.vcRunOf i) } rfl
      have htaken : (s.vcTaken i).vc i = { s.vc i with c := ((s.vc i).c + 1) % 2 ^ 32 } := State.vc_setVc_self _ _ _
      refine ⟨?_, hst, hlast, ⟨s.vcRunOf i, ?_, rfl, rfl, rfl, rfl⟩, heng, hres⟩
      · rw [hvc, htaken]
      · rw [hvc]
    · rw [State.vcStart_bad hturn hbad]
      obtain ⟨hvc, hentry⟩ := vcBad_fields hgoes (s.vcCmd i (s.vc i).c) o rfl
      refine ⟨?_, ?_, hentry⟩
      · rw [hvc]
      · rw [hvc]
  · have hstay : s.vcStart i = s := by rw [State.vcStart, if_pos hturn]
    refine ⟨congrArg Host.Outcome.next ?_, congrArg Host.Outcome.next ?_⟩
    · rw [hstay, ite_self]
    · rw [hstay, ite_self]
  · exact congrArg Host.Outcome.next (if_pos he)
  · exact congrArg Host.Outcome.next (if_neg (by rw [he]; decide))

end Sys2Proof.Machine
end

section
/-! The ends of codec pictures (12 R304, R309): the entry of a session whose tenant number is wider than its field. -/
namespace Sys2Proof.Machine

/-- The state after reset with register values as given, each stored as it is, whatever the width of its field. -/
def State.withRegs (l : List (Nat × Fld × Nat)) : State :=
  { State.reset with regs := l.foldl (fun m e => Tab.set resetFld m (fkey e.1 e.2.1) e.2.2) State.reset.regs }

/-- A decode session runs on engine 0 for a tenant number that its 7-bit field cannot hold. The binding registers of that number lie on the dword of VCE_STS of
engine 0, so that the function of the tenant is another one once the engine is IDLE again. -/
def wideTenantState : State :=
  ((State.withRegs [(P.hpt 0, F.HPT_LINK_STS_rate, 1), (P.disp 1, F.DISP_TN_BIND_valid 64512, 1), (P.vce 0 0, F.VCE_STS_state, 1),
    (P.vce 0 1, F.VCE_SS_BIND_tenant 0, 64512), (P.vce 0 1, F.VCE_SS_BIND_engines 0, 1), (P.vce 0 1, F.VCE_SS_STS_state 0, 2)]).setFn 5
      ⟨true, true, true, false, 0xFF, 0, []⟩).setVc 0 { VcSt.reset with par := [0, 1], run := some ⟨[], 0, none, none, false, false⟩ }

/-- The picture exceeds a limit of the level. -/
def exceedingPicture : DecIn := ⟨0, false, false, false, some 3, 0, 0, []⟩

theorem wideTenantState_meets : (wideTenantState.vc 0).run = some ⟨[], 0, none, none, false, false⟩ ∧ (wideTenantState.vc 0).encodes = false ∧
    wideTenantState.vcRefPoison 0 ((List.range ((wideTenantState.vc 0).p 0x14 1 + 1)).filter fun j => bitOf exceedingPicture.refs.toNat j) = none ∧
    (wideTenantState.vc 0).ended = [] ∧ wideTenantState.vcState 0 = 2 ∧
    wideTenantState.entryGoes (wideTenantState.vcTenant 0) (wideTenantState.vcQueue 0) = true := by decide

/-- The entry is lost: the function that the engine's new state names may not write. -/
theorem exec_wideTenant_outs : ∃ t, exec (.vceDecodeDone 0 exceedingPicture) wideTenantState = .next t ∧ t.outs = [] := ⟨_, rfl, by decide⟩

/-- Refutes O56: in a state whose VCE_SS_BIND.tenant holds more than its 7 bits, the end of the picture changes the binding that the tenant number names, and
the entry that would go to the host before goes nowhere. -/
theorem not_codecPictureResults : ¬ Obligations.CodecPictureResults := by
  unfold Obligations.CodecPictureResults
  intro hall
  obtain ⟨hrun, henc, href, hend, hst, hgoes⟩ := wideTenantState_meets
  obtain ⟨-, -, -, hdec, -⟩ := hall wideTenantState 0 _ _ 0 0 exceedingPicture rfl hrun
  obtain ⟨-, hexc⟩ := hdec henc rfl href hend hst hgoes
  obtain ⟨t, ht, -, -, j, fn, pa, a, e, hmem, -⟩ := hexc 3 rfl
  obtain ⟨t', ht', houts⟩ := exec_wideTenant_outs
  obtain rfl : t = t' := Host.Outcome.next.inj (ht.symm.trans ht')
  rw [houts] at hmem
  cases hmem

end Sys2Proof.Machine
end

section
/-! PERST_N on the owner port (06 R127, 03 R68): the event of the port's page raises a message that the reset functions cannot send. -/
namespace Sys2Proof.Machine

/-- Port 0 is the owner port with its link down; the interrupt of its page is enabled for PERST_N and goes to the owner. -/
def perstInterruptState : State := State.withRegs [(P.hpt 0, F.PG_INT_EN, 4), (P.hub 1, F.HUB_INT_ROUTE_to_owner 7, 1)]

theorem perstInterruptState_meets : perstInterruptState.flag (P.hpt 0) F.HPT_LINK_STS_perst = false ∧ perstInterruptState.tenantsOnPort 0 = [] ∧
    (perstInterruptState.fn 0).pba = 0 := by decide

/-- The message of the event stays pending in function 0. -/
theorem exec_perstInterrupt_pba : ∃ t, exec (.perstAssert 0) perstInterruptState = .next t ∧ (t.fn 0).pba = 1 := ⟨_, rfl, by decide +kernel⟩

/-- Refutes O30: PERST_N raises the event of the port's page, and where that page interrupts the owner function, whose port has just been reset, the message
becomes pending there; the function's pending bits are then not those from before. -/
theorem not_hostPortsAndFunctions : ¬ Obligations.HostPortsAndFunctions := by
  unfold Obligations.HostPortsAndFunctions
  rintro ⟨hports, -⟩
  obtain ⟨hperst, hten, hpba⟩ := perstInterruptState_meets
  obtain ⟨-, -, -, -, -, -, hassert, -⟩ := hports perstInterruptState 0 (.pf 0) _ rfl
  obtain ⟨t, ht, -, -, -, -, -, hfn, -⟩ := hassert hperst hten
  obtain ⟨t', ht', hpba'⟩ := exec_perstInterrupt_pba
  obtain rfl : t = t' := Host.Outcome.next.inj (ht.symm.trans ht')
  have hzero : (t.fn 0).pba = 0 := (congrArg FnSt.pba hfn).trans hpba
  rw [hpba'] at hzero
  exact absurd hzero (by decide)

end Sys2Proof.Machine
end

section
/-! The identity of a bundle (02 R26, R27) whose SER_STRAP holds a SITE_ID wider than its field. -/
namespace Sys2Proof.Machine

/-- Bundle 0 is DOWN at step 5; the tile's SER_STRAP has sampled SITE_ID 16, which its 4-bit field cannot hold. -/
def wideSiteState : State :=
  State.withRegs [(P.boot, F.BOOT_STS_stage, 5), (P.serTile 0, F.SER_STS_state, 1), (P.serTile 0, F.SER_STRAP_valid, 1),
    (P.serTile 0, F.SER_STRAP_site_id, 16), (P.serTile 0, F.SER_STRAP_pkg_build, 1)]

/-- A run of training in which every lane works. -/
def fullTraining : TrainIn := ⟨true, 0, 0, 0xFFFF, 0xFFFF, 0, 1, 0⟩

theorem wideSiteState_meets : wideSiteState.eState 32 = 1 ∧ (wideSiteState.lend 32).failed = false ∧ wideSiteState.mayTrain 32 = true ∧
    wideSiteState.trainTime 32 = true ∧ wideSiteState.ready = false ∧
    wideSiteState.strapCode 0 (wideSiteState.tileIdent 0 fullTraining).1 (wideSiteState.tileIdent 0 fullTraining).2 = 3 := by decide +kernel

/-- The hub checks the SITE_ID that the field keeps, 0, and the bundle comes up. -/
theorem exec_wideSite_state : ∃ t, exec (.linkTraining (.bundle 0) fullTraining) wideSiteState = .next t ∧ t.eState 32 = 3 := ⟨_, rfl, by decide +kernel⟩

/-- Refutes O32: in a state whose SER_STRAP.site_id holds more than its 4 bits, the identity that the hub checks is the stored one cut to the field, not the one
that the tile reports before the run. -/
theorem not_bundleStateResults : ¬ Obligations.BundleStateResults := by
  unfold Obligations.BundleStateResults
  intro hall
  obtain ⟨hdown, hfail, hmay, htime, hready, hcode⟩ := wideSiteState_meets
  obtain ⟨htrain, -⟩ := hall wideSiteState 0
  obtain ⟨-, -, hident⟩ := htrain fullTraining (.inl hdown) hfail hmay htime
  obtain ⟨-, hconflict⟩ := hident rfl rfl rfl _ rfl
  obtain ⟨t, ht, hst, -⟩ := hconflict 3 hcode (by decide) hready
  obtain ⟨t', ht', hst'⟩ := exec_wideSite_state
  obtain rfl : t = t' := Host.Outcome.next.inj (ht.symm.trans ht')
  have hone : t.eState 32 = 1 := hst
  rw [hst'] at hone
  exact absurd hone (by decide)

end Sys2Proof.Machine
end

section
/-! The end of an UNLOAD (06 R144) that the dispatcher has picked for a tenant number outside the tenants. -/
namespace Sys2Proof.Machine

/-- The UNLOAD that waits. -/
def strayUnload : Desc := ⟨0, 0, 0, 5, 0, 7, 0, 0, 0, 0, [], [], 0, .waiting, false, 0, none, 0, none⟩

/-- A tenant number whose binding dword lies on CORE_REZ_BASE of range 0 of core 0. -/
def strayTenant : Nat := 4455432

/-- The dispatcher of partition 0 has picked queue 0 of the stray tenant, whose model core 0 holds in range 0; the base of that range reads as function 1 of port 0. -/
def strayUnloadState : State :=
  (((((State.withRegs [(P.boot, F.BOOT_STS_ready, 1), (P.hpt 0, F.HPT_LINK_STS_rate, 1), (P.disp 1, F.DISP_TN_BIND_valid strayTenant, 1),
    (P.ten strayTenant 0, F.TN_STS_state, 2), (P.queue strayTenant 0, F.Q_CQ_CFG_log2_size, 4), (P.pt 0, F.PT_STS_state, 2),
    (P.core 0, F.CORE_REZ_BASE_base 0, 1), (P.core 0, F.CORE_REZ_OWN_valid 0, 1), (P.core 0, F.CORE_REZ_OWN_tenant 0, strayTenant),
    (P.core 0, F.CORE_REZ_OWN_model_id 0, 7)]).setFn 5 ⟨true, true, true, false, 0xFF, 0, []⟩).setDsp 0 ⟨0, 0, [], some (strayTenant, 0)⟩).setQueue strayTenant 0
      { QueueSt.reset with fetched := [strayUnload] })).setRes 0 ⟨true, strayTenant, 7, 0, 0, 0, 0, [0], false, []⟩

theorem strayUnloadState_meets : (strayUnloadState.dsp 0).pick = some (strayTenant, 0) ∧ strayUnloadState.dispPaused 0 = false ∧
    strayUnloadState.startHead strayTenant 0 = some strayUnload ∧ strayUnloadState.entryGoes strayTenant 0 = true ∧
    (strayUnloadState.ten strayTenant).cancel = none ∧
    (strayUnloadState.setDsp 0 { strayUnloadState.dsp 0 with pick := none }).mayUnload strayTenant 7 = true ∧
    (strayUnloadState.setDsp 0 { strayUnloadState.dsp 0 with pick := none }).resFind strayTenant 7 = some 0 := by decide +kernel

/-- The entry is lost: with the range, the binding names another function. -/
theorem exec_strayUnload_outs : ∃ t, exec (.jobUnload 0) strayUnloadState = .next t ∧ t.outs = [] := ⟨_, rfl, by decide +kernel⟩

/-- Refutes O39: the statement lets the dispatcher's pick name any tenant number. One whose binding dword lies on a model range of a core loses its function when
the UNLOAD gives that range up, and the entry goes nowhere. -/
theorem not_copyLoadResults : ¬ Obligations.CopyLoadResults := by
  unfold Obligations.CopyLoadResults
  intro hall
  obtain ⟨hpick, hpaused, hhead, hgoes, hcancel, hmay, hfind⟩ := strayUnloadState_meets
  obtain ⟨-, hstart, -⟩ := hall strayUnloadState
  obtain ⟨-, -, hunload⟩ := hstart 0 strayTenant 0 strayUnload _ rfl hpick hpaused hhead
  obtain ⟨t, ht, -, -, -, a, e, hmem, -⟩ := hunload rfl hmay hgoes hcancel 0 hfind
  obtain ⟨t', ht', houts⟩ := exec_strayUnload_outs
  obtain rfl : t = t' := Host.Outcome.next.inj (ht.symm.trans ht')
  rw [houts] at hmem
  cases hmem

end Sys2Proof.Machine
end

section
/-! A VDD_T_REACHED of a tile that lowers its operating point (15 R358), with an empty row of held accesses for the tile. -/
namespace Sys2Proof.Machine

/-- Tile 0 goes down from point 1 to point 0 while TCLK still runs at point 1; the table of held accesses lists the tile with no access. -/
def emptyRowState : State :=
  { (State.withRegs []).setChg 0 ⟨true, 1, 0, false, false⟩ with held := [(0, [])] }

theorem emptyRowState_meets : emptyRowState.chg 0 = ⟨true, 1, 0, false, false⟩ ∧ Tab.get held0 emptyRowState.held 0 = [] := by decide +kernel

theorem exec_emptyRow_held : ∃ t, exec (.vddTReached 0) emptyRowState = .next t ∧ t.held = [] := ⟨_, rfl, by decide +kernel⟩

/-- Refutes O57: a lowering whose TCLK has not switched is said to leave the whole state as it is. The release that follows drops the tile's row of held accesses, also
where the row is listed and empty. -/
theorem not_operatingPointsAndDomains : ¬ Obligations.OperatingPointsAndDomains := by
  unfold Obligations.OperatingPointsAndDomains
  intro hall
  obtain ⟨hchg, hrow⟩ := emptyRowState_meets
  obtain ⟨hpoints, -⟩ := hall
  obtain ⟨-, -, hactive, -⟩ := hpoints emptyRowState 0 .fw 0 _ hchg.symm
  obtain ⟨-, -, -, -, hlower⟩ := hactive rfl hrow
  obtain ⟨t, ht, hheld⟩ := exec_emptyRow_held
  obtain rfl : t = emptyRowState := Host.Outcome.next.inj (ht.symm.trans (hlower (by decide)))
  cases hheld

end Sys2Proof.Machine
end

section
/-! What reset leaves (03 R54, R72; 13 R314). -/
namespace Sys2Proof.Machine

/-- The register tables of the layouts begin behind the common header (03 R50). -/
theorem Layout.rows_off (l : Layout) : ∀ r ∈ l.rows, 0x040 ≤ r.off := by
  cases l <;> decide

theorem FldRow.hits_header (r : FldRow) {off : Nat} (lo : Nat) (hr : 0x040 ≤ r.off) (h : off < 0x040) : r.hits off lo = false := by
  have hne : (off == r.off) = false := by rw [beq_eq_false_iff_ne]; omega
  have hle : decide (r.off ≤ off) = false := by rw [decide_eq_false_iff_not]; omega
  unfold FldRow.hits
  split <;> simp [hne, hle]

/-- No table names a field of the common header. -/
theorem Layout.rows_header (l : Layout) {off : Nat} (lo : Nat) (h : off < 0x040) : l.rows.find? (·.hits off lo) = none :=
  List.find?_eq_none.mpr fun r hr => by simp [r.hits_header lo (l.rows_off r hr) h]

/-- The special reset values of 04, 11, 15, 17 and 18 lie behind the header. -/
theorem resetSpecial_header (pg : Nat) {off : Nat} (lo : Nat) (h : off < 0x040) : resetSpecial pg off lo = none := by
  unfold resetSpecial
  have hne : ∀ n, 0x040 ≤ n → off ≠ n := fun n hn => by omega
  simp only [hne 0x040 (by decide), hne 0x044 (by decide), hne 0x048 (by decide), hne 0x04C (by decide), hne 0x050 (by decide), hne 0x054 (by decide),
    show ¬ 0x040 ≤ off by omega, false_and, if_false]
  repeat' split
  all_goals rfl

/-- A header field of any page reads 0 after reset. -/
theorem State.reset_header (pg : Nat) {f : Fld} (hoff : f.off < 0x040) (hlo : f.lo < 32) : State.reset.fld pg f = 0 := by
  have hpg : fkey pg f / 131072 = pg := by unfold fkey; omega
  have ho : fkey pg f / 32 % 4096 = f.off := by unfold fkey; omega
  have hl : fkey pg f % 32 = f.lo := by unfold fkey; omega
  show resetFld (fkey pg f) = 0
  unfold resetFld
  rw [hpg, ho, hl]
  dsimp only
  rw [resetSpecial_header pg f.lo hoff]
  cases pageInfo pg with
  | none => rfl
  | some i => simp only [i.layout.rows_header f.lo hoff]

/-- Every tenant is unbound at epoch 1, its queues are disabled and its counts are 0. -/
theorem reset_tenants : ∀ n, n < 128 → State.reset.epoch n = 1 ∧ State.reset.tnState n = 0 ∧ State.reset.bound n = false ∧
    ∀ q, q < 8 → State.reset.qState n q = 0 ∧ State.reset.sqHead n q = 0 ∧ State.reset.sqTail n q = 0 ∧ State.reset.cqHead n q = 0 ∧
      State.reset.cqTail n q = 0 := by decide +kernel

theorem reset_partitions : ∀ p, p < 8 → State.reset.ptState p = 0 ∧ State.reset.poolState p = 0 := by decide +kernel

theorem reset_companions : ∀ h, h < 16 → State.reset.hpcState h = 0 ∧ State.reset.hpcGranted h = false := by decide +kernel

theorem reset_streams : ∀ k, k < 512 → State.reset.skState k = 0 := by decide +kernel

theorem reset_codecs : (∀ i, i < 64 → State.reset.vcState i = 0) ∧ ∀ e, e < 4 → State.reset.engine e = 0 := by decide +kernel

/-- Settles O4: the header fields by the tables, which begin behind the header, the units one by one. -/
theorem resetValues : Obligations.ResetValues := by
  unfold Obligations.ResetValues
  refine ⟨rfl, by unfold State.Canonical State.Ok; decide, fun pg => ?_, reset_tenants, reset_partitions, reset_companions, reset_streams,
    reset_codecs.1, reset_codecs.2, fun a => ⟨rfl, rfl, rfl⟩⟩
  refine ⟨State.reset_header pg (by decide) (by decide), ?_, State.reset_header pg (by decide) (by decide), State.reset_header pg (by decide) (by decide)⟩
  exact bne_eq_false_iff_eq.mpr (State.reset_header pg (f := F.PG_LOCK_locked) (by decide) (by decide))

end Sys2Proof.Machine
end

section
/-! The state that is left when everything but always-on logic stops (15 R367, 16 R385, R389; 17 R413), and the rerun of steps 2 to 12 (14 R343). -/
namespace Sys2Proof.Machine

/-- A command that keeps the memories keeps every byte. -/
theorem State.sameBytes_of_out {s t : State} {o : Host.Outcome State Fault Refusal} (h : OutMem s.memsOf o) (ht : o = .next t) : s.sameBytes t :=
  State.sameBytes_of_mems (h t ht)

/-! Registers kept through a return to the reset state. -/

theorem fkey_page {f : Fld} (hf : f.inside = true) (pg : Nat) : fkey pg f / 2 ^ 17 = pg ∧ fkey pg f % 2 ^ 17 = fkey 0 f := by
  simp only [Fld.inside, Bool.and_eq_true, decide_eq_true_eq] at hf
  unfold fkey
  omega

theorem State.fld_keepRegs {f : Fld} (hf : f.inside = true) (s t : State) (keep : Nat → Nat → Bool) (pg : Nat) :
    (s.keepRegs t keep).fld pg f = if keep pg (fkey 0 f) then s.fld pg f else State.reset.fld pg f := by
  show Tab.get resetFld (s.regs.filter fun e => keep (e.1 / 2 ^ 17) (e.1 % 2 ^ 17)) (fkey pg f) = _
  rw [Tab.get_filter resetFld s.regs (fun k => keep (k / 2 ^ 17) (k % 2 ^ 17)), (fkey_page hf pg).1, (fkey_page hf pg).2]
  rfl

/-- What `dark` leaves: always-on pages and the thermal cycle counts; everything else is as at reset. -/
theorem State.fld_dark {f : Fld} (hf : f.inside = true) (s : State) (pg : Nat) :
    s.dark.fld pg f = if alwaysOn pg || isCycle pg (fkey 0 f) then s.fld pg f else State.reset.fld pg f := State.fld_keepRegs hf s _ _ pg

theorem State.dark_hubOff (s : State) : s.dark.hubOff = true := rfl
theorem State.dark_core (s : State) (x : Nat) : s.dark.core x = Core.reset := rfl
theorem State.dark_hmp (s : State) (a : Nat) : s.dark.hmp.rd a = 0 := rfl
theorem State.dark_trail (s : State) : s.dark.trail = s.trail := rfl
theorem State.dark_thm (s : State) : s.dark.thm = s.thm := rfl
theorem State.dark_board (s : State) : s.dark.board = s.board := rfl
theorem State.dark_rails (s : State) : s.dark.power.rails = s.power.rails := rfl
theorem State.dark_mgt (s : State) : s.dark.mgt = s.mgt := rfl

theorem portPage_dark : ∀ p, p < 4 → (alwaysOn (P.hpt p) || isCycle (P.hpt p) (fkey 0 F.HPT_LINK_STS_rate)) = false ∧
    State.reset.fld (P.hpt p) F.HPT_LINK_STS_rate = 0 := by decide

/-- Every host link is down. -/
theorem State.dark_linkUp (s : State) {p : Nat} (hp : p < 4) : s.dark.linkUp p = false := by
  obtain ⟨hoff, hzero⟩ := portPage_dark p hp
  rw [State.linkUp, State.flag, State.fld_dark (by decide), hoff, if_neg Bool.false_ne_true, hzero]
  rfl

/-! The rerun. -/

/-- The fields that `rerun` keeps before the boot count rises. -/
def rerunKeeps (pg k : Nat) : Bool := isTrlCount pg k || isCycle pg k || isFloor pg k

/-- The state whose boot count `rerun` raises. -/
def State.rerunBase (s : State) : State :=
  let t := s.bareState
  let t := { t with
    power := { Power.reset with rails := s.power.rails }
    thm := { Thm.reset with floorAt := s.thm.floorAt, pinLow := s.thm.pinLow, cyc := s.thm.cyc }
    mgt := { t.mgt with extest := false } }
  s.keepRegs t rerunKeeps

theorem State.rerun_eq (s : State) : s.rerun = ((s.rerunBase).bootCount 1).fuseLoad.pinSync := rfl

/-- `t` differs from `s` in the register file alone. -/
def State.FldsOnly (s t : State) : Prop := ∃ r, t = { s with regs := r }

theorem State.FldsOnly.refl (s : State) : s.FldsOnly s := ⟨_, rfl⟩

theorem State.FldsOnly.setFld {s t : State} (h : s.FldsOnly t) (pg : Nat) (f : Fld) (v : Nat) : s.FldsOnly (t.setFld pg f v) := by
  obtain ⟨r, rfl⟩ := h
  exact ⟨_, rfl⟩

theorem State.FldsOnly.trans {s t u : State} (h1 : s.FldsOnly t) (h2 : t.FldsOnly u) : s.FldsOnly u := by
  obtain ⟨_, rfl⟩ := h1
  obtain ⟨_, rfl⟩ := h2
  exact ⟨_, rfl⟩

/-- Loading the fuses changes registers alone. -/
theorem State.fuseLoad_only (s : State) : s.FldsOnly s.fuseLoad :=
  State.each_keeps _ _ _ _ (fun _ _ _ h => h.setFld _ _ _)
    ((((((((State.FldsOnly.refl s).setFld _ _ _).setFld _ _ _).setFld _ _ _).setFld _ _ _).setFld _ _ _).setFld _ _ _).setFld _ _ _ |>.setFld _ _ _)

theorem State.pinSync_only (s : State) : s.FldsOnly s.pinSync :=
  State.each_keeps _ _ _ _ (fun _ _ _ h => h.setFld _ _ _) (.refl s)

/-- The fields with a fused reset value, and the ports' pins. -/
def fusedFlds : List Fld :=
  [F.BOOT_REV_variant, F.BOOT_VARIANT_tclk_max_mhz, F.BOOT_VARIANT_p_sust, F.BOOT_VARIANT_p_peak, F.BOOT_VARIANT_peak_ms, F.PWR_LIMIT_p_sust,
    F.PWR_LIMIT_p_peak, F.PWR_STS_cap, F.PWR_T_REQ_opp_req, F.HPT_LINK_STS_perst]

/-- The other fields keep their values. -/
theorem State.fld_fuseLoad_pinSync {f : Fld} (h : ∀ g ∈ fusedFlds, f.apart g = true) (s : State) (pg : Nat) : s.fuseLoad.pinSync.fld pg f = s.fld pg f := by
  simp only [fusedFlds, List.forall_mem_cons] at h
  obtain ⟨hrev, htclk, hs, hp, hms, hls, hlp, hcap, hreq, hperst, -⟩ := h
  have hpins : s.fuseLoad.pinSync.fld pg f = s.fuseLoad.fld pg f :=
    State.each_keeps (fun t => t.fld pg f = s.fuseLoad.fld pg f) _ _ _ (fun _ _ u hu => (State.fld_setFlag_apart _ _ _ hperst _).trans hu) rfl
  rw [hpins]
  refine State.each_keeps (fun t => t.fld pg f = s.fld pg f) _ _ _ (fun _ _ u hu => (State.fld_setFld_apart _ _ _ _ hreq).trans hu) ?_
  simp only [State.fld_setFld_apart _ _ _ _ hrev, State.fld_setFld_apart _ _ _ _ htclk, State.fld_setFld_apart _ _ _ _ hs, State.fld_setFld_apart _ _ _ _ hp,
    State.fld_setFld_apart _ _ _ _ hms, State.fld_setFld_apart _ _ _ _ hls, State.fld_setFld_apart _ _ _ _ hlp, State.fld_setFld_apart _ _ _ _ hcap]

theorem State.rerun_only (s : State) : s.rerunBase.FldsOnly s.rerun := by
  rw [State.rerun_eq]
  exact (((State.FldsOnly.refl _).setFld _ _ _).trans (State.fuseLoad_only _)).trans (State.pinSync_only _)

/-- After a rerun step 2 is in progress, the device is not ready and in no cooling shutdown, and the boot count has risen. -/
theorem State.rerun_boot (s : State) : s.rerun.stage = 2 ∧ s.rerun.ready = false ∧ s.rerun.inShutdown = false ∧
    s.rerun.fld P.trl F.TRL_BOOTCNT_value = (s.fld P.trl F.TRL_BOOTCNT_value + 1) % 2 ^ 32 := by
  have fresh : ∀ (pg : Nat) {f : Fld}, f.inside = true → (∀ g ∈ fusedFlds, f.apart g = true) → f.apart F.TRL_BOOTCNT_value = true → rerunKeeps pg (fkey 0 f) = false →
      s.rerun.fld pg f = State.reset.fld pg f := fun pg f hin hfuse hcnt hkeep => by
    rw [State.rerun_eq, State.fld_fuseLoad_pinSync hfuse, State.bootCount, State.addFld, State.fld_setFld_apart _ _ _ _ hcnt, State.rerunBase,
      State.fld_keepRegs hin, hkeep, if_neg Bool.false_ne_true]
  refine ⟨(fresh P.boot (by decide) (by decide) (by decide) (by decide)).trans (by decide), ?_, ?_, ?_⟩
  · rw [State.ready, State.flag, fresh P.boot (by decide) (by decide) (by decide) (by decide)]
    decide
  · rw [State.inShutdown, State.flag, fresh (P.thm 0) (by decide) (by decide) (by decide) (by decide)]
    decide
  · rw [State.rerun_eq, State.fld_fuseLoad_pinSync (by decide), State.bootCount, State.addFld, State.fld_setFld_self, State.rerunBase,
      State.fld_keepRegs (by decide), if_pos (by decide)]
    rfl

end Sys2Proof.Machine
end

section
/-! Coolant channels, the emergency floor, the cooling shutdown and the forecast (16 R374, R379-R382, R387-R389). -/
namespace Sys2Proof.Machine

/-! Bits. -/

theorem bitOf_putBit_true (x i : Nat) : bitOf (putBit x i true) i = true := by
  rw [putBit, if_pos rfl, bitOf_eq_testBit, Nat.testBit_or, Nat.testBit_two_pow_self, Bool.or_true]

theorem bitOf_putBit_false (x i : Nat) : bitOf (putBit x i false) i = false := by
  rw [putBit, if_neg Bool.false_ne_true]
  split
  · next h =>
    have hodd : x / 2 ^ i % 2 = 1 := by simpa [bitOf] using h
    have hdiv : (x - 2 ^ i) / 2 ^ i = x / 2 ^ i - 1 := by simpa using Nat.sub_mul_div x (2 ^ i) 1
    simp only [bitOf, hdiv]
    have : (x / 2 ^ i - 1) % 2 = 0 := by omega
    simp [this]
  · next h => simpa using h

theorem bitOf_mod {n i : Nat} (h : i < n) (v : Nat) : bitOf (v % 2 ^ n) i = bitOf v i := by
  rw [bitOf_eq_testBit, bitOf_eq_testBit, Nat.testBit_mod_two_pow, decide_eq_true h, Bool.true_and]

/-! The emergency floor (R387, R388). -/

/-- A cause enters the floor where the hub runs and no shutdown does. -/
theorem State.floorCause_facts {s t : State} {i : Nat} (hi : i < 3) (hsd : s.inShutdown = false) (hst : s.stuck = false) (hoff : s.hubOff = false)
    (ht : t = s.floorCause i) : t.flag (P.thm 0) F.THM_STS_floor = true ∧ bitOf (t.fld (P.thm 0) F.THM_STS_cause) i = true ∧ t.thm.pinLow = s.thm.pinLow ∧
      (s.flag (P.thm 0) F.THM_STS_floor = false → t.thm.floorAt = some s.now ∧ bitOf (t.fld (P.thm 0) F.PG_INT_STS) 0 = true) := by
  rw [State.floorCause, hsd, hst, hoff] at ht
  simp only [Bool.or_self, Bool.false_eq_true, if_false] at ht
  have hbit : bitOf (putBit (s.fld (P.thm 0) F.THM_STS_cause) i true % 2 ^ F.THM_STS_cause.len) i = true :=
    (bitOf_mod (n := F.THM_STS_cause.len) hi _).trans (bitOf_putBit_true _ _)
  split at ht
  · next hfloor =>
    subst ht
    refine ⟨(State.flag_setFld_apart _ _ _ _ (by decide)).trans hfloor, ?_, rfl, fun h => absurd (h.symm.trans hfloor) (by decide)⟩
    rw [State.fld_setFld_self]
    exact hbit
  · subst ht
    refine ⟨?_, ?_, by simp [State.thermalRec, State.setFlag], fun _ => ⟨by simp [State.thermalRec, State.setFlag], ?_⟩⟩
    · rw [State.thermalRec, State.flag_of_fld (State.fld_trailPut_page (by decide) (by decide) _ _ _ _ _), State.flag_event_apart _ _ _ (by decide),
        State.flag_setFlag_self _ _ (by decide)]
    · rw [State.thermalRec, State.fld_trailPut_page (by decide) (by decide), State.fld_event_apart _ _ _ (by decide), State.fld_setFlag_apart _ _ _ (by decide)]
      show bitOf ((s.setFld (P.thm 0) F.THM_STS_cause _).fld _ _) i = true
      rw [State.fld_setFld_self]
      exact hbit
    · rw [State.thermalRec, State.fld_trailPut_page (by decide) (by decide)]
      exact State.bit_event _ _ (by decide)

/-- A cause that is restored is gone, and the floor with it where it was the only one. -/
theorem State.floorRestore_facts {s t : State} {i : Nat} (hi : i < 3) (ht : t = s.floorRestore i) : bitOf (t.fld (P.thm 0) F.THM_STS_cause) i = false ∧
    t.thm.pinLow = s.thm.pinLow ∧ (s.fld (P.thm 0) F.THM_STS_cause = 2 ^ i → t.flag (P.thm 0) F.THM_STS_floor = false ∧ t.thm.floorAt = none) := by
  rw [State.floorRestore] at ht
  have hbit : bitOf (putBit (s.fld (P.thm 0) F.THM_STS_cause) i false % 2 ^ F.THM_STS_cause.len) i = false :=
    (bitOf_mod (n := F.THM_STS_cause.len) hi _).trans (bitOf_putBit_false _ _)
  split at ht
  · next hclear =>
    obtain rfl : t = s := ht
    have hclear : bitOf (t.fld (P.thm 0) F.THM_STS_cause) i = false := by simpa using hclear
    refine ⟨hclear, rfl, fun h => ?_⟩
    rw [h, bitOf_eq_testBit, Nat.testBit_two_pow_self] at hclear
    cases hclear
  · dsimp only at ht
    split at ht
    · next hleft =>
      subst ht
      refine ⟨by rw [State.fld_setFld_self]; exact hbit, rfl, fun h => absurd ?_ hleft⟩
      rw [h, putBit, if_neg Bool.false_ne_true, bitOf_eq_testBit, Nat.testBit_two_pow_self, if_pos rfl, Nat.sub_self]
    · subst ht
      refine ⟨?_, by simp [State.thermalRec, State.setFlag], fun _ => ⟨?_, by simp [State.thermalRec, State.setFlag]⟩⟩
      · rw [State.thermalRec, State.fld_trailPut_page (by decide) (by decide), State.fld_event_apart _ _ _ (by decide), State.fld_setFlag_apart _ _ _ (by decide)]
        show bitOf ((s.setFld (P.thm 0) F.THM_STS_cause _).fld _ _) i = false
        rw [State.fld_setFld_self]
        exact hbit
      · rw [State.thermalRec, State.flag_of_fld (State.fld_trailPut_page (by decide) (by decide) _ _ _ _ _), State.flag_event_apart _ _ _ (by decide),
          State.flag_setFlag_self _ _ (by decide)]

theorem State.floorRestore_sameBytes (s : State) (i : Nat) : s.sameBytes (s.floorRestore i) :=
  State.sameBytes_of_mems (State.floorRestore_mem s i s.mems_memsOf)

/-! Coolant channels (R374). -/

theorem ext_apart : ∀ k : Fin 2, (F.THM_EXT_temp k).apart (F.THM_EXT_stale k) = true ∧ (F.THM_EXT_temp k).apart (F.THM_EXT_invalid_cnt k) = true ∧
    (F.THM_EXT_temp k).apart (F.THM_EXT_broken k) = true ∧ (F.THM_EXT_temp k).apart F.PG_INT_STS = true ∧ (F.THM_EXT_stale k).apart (F.THM_EXT_broken k) = true ∧
    (F.THM_EXT_stale k).apart F.PG_INT_STS = true ∧ (F.THM_EXT_invalid_cnt k).apart (F.THM_EXT_stale k) = true ∧
    (F.THM_EXT_invalid_cnt k).apart (F.THM_EXT_broken k) = true ∧ (F.THM_EXT_invalid_cnt k).apart F.PG_INT_STS = true ∧
    (F.THM_EXT_broken k).apart (F.THM_EXT_stale k) = true ∧ (F.THM_EXT_broken k).apart (F.THM_EXT_invalid_cnt k) = true ∧
    (F.THM_EXT_broken k).apart F.PG_INT_STS = true := by decide

theorem ext_inside : ∀ k : Fin 2, (F.THM_EXT_temp k).inside = true ∧ (F.THM_EXT_stale k).inside = true ∧ (F.THM_EXT_invalid_cnt k).inside = true ∧
    (F.THM_EXT_broken k).inside = true := by decide

/-- The alarm level of a coolant channel, in 0.1 °C. -/
def State.extAlarm (s : State) (k : Nat) : Int := 10 * (s.fld (P.thm 1) (if k = 0 then F.THM_EXT_CFG_alarm_in else F.THM_EXT_CFG_alarm_out) : Nat)

/-- Channel k of a good conversion: the reading is fresh and no failed conversion counts. -/
def State.extRead (s : State) (k : Nat) (v : Int) : State :=
  let s1 := (s.setFld (P.thm 1) (F.THM_EXT_temp k) (unsgn 12 v)).setFlag (P.thm 1) (F.THM_EXT_stale k) false
  { s1 with thm := { s1.thm with ext := Tab.set nat0 s1.thm.ext k 0 } }

theorem exec_extNtc_valid {s : State} {k : Fin 2} (temp : Int) (hao : s.aoUp = true) (htrip : s.thm.tripped = false)
    (hb : s.flag (P.thm 1) (F.THM_EXT_broken k) = false) {v : Int} (hv : v = max (-200) (min 1200 temp)) :
    exec (.extNtcConversion k true temp) s =
      .next (if decide (s.extAlarm k ≤ v) && decide (sgn 12 (s.fld (P.thm 1) (F.THM_EXT_temp k)) < s.extAlarm k) then (s.extRead k v).event (P.thm 1) (2 + k)
        else s.extRead k v) := by
  subst hv
  show Host.Outcome.next _ = _
  simp only [hao, htrip, hb, Bool.not_true, Bool.or_self, Bool.false_eq_true, if_false, Bool.false_and, Bool.not_false, Bool.true_or, Bool.true_and,
    Bool.false_or]
  rfl

theorem State.extRead_facts {s t : State} {k : Fin 2} {v : Int} (ht : t = s.extRead k v) : t.fld (P.thm 1) (F.THM_EXT_temp k) = unsgn 12 v ∧
    t.flag (P.thm 1) (F.THM_EXT_stale k) = false ∧ Tab.get nat0 t.thm.ext k = 0 := by
  obtain ⟨hts, -⟩ := ext_apart k
  subst ht
  refine ⟨?_, State.flag_setFlag_self _ _ (by show 0 < 1; decide) _, Tab.get_set_self nat0 s.thm.ext k 0⟩
  show ((s.setFld _ _ _).setFlag _ _ _).fld _ _ = _
  rw [State.fld_setFlag_apart _ _ _ hts, State.fld_setFld_of_lt]
  exact unsgn_lt 12 v

/-- A good conversion of a channel in service. -/
theorem extNtc_valid {s : State} {k : Fin 2} {temp : Int} (hao : s.aoUp = true) (htrip : s.thm.tripped = false) (v : Int)
    (hv : v = max (-200) (min 1200 temp)) (hb : s.flag (P.thm 1) (F.THM_EXT_broken k) = false) : Completes (.extNtcConversion k true temp) s fun t =>
      t.fld (P.thm 1) (F.THM_EXT_temp k) = unsgn 12 v ∧ t.flag (P.thm 1) (F.THM_EXT_stale k) = false ∧ Tab.get nat0 t.thm.ext k = 0 ∧ s.sameBytes t ∧
        (10 * (s.fld (P.thm 1) (if k.val = 0 then F.THM_EXT_CFG_alarm_in else F.THM_EXT_CFG_alarm_out) : Int) ≤ v →
          sgn 12 (s.fld (P.thm 1) (F.THM_EXT_temp k)) < 10 * (s.fld (P.thm 1) (if k.val = 0 then F.THM_EXT_CFG_alarm_in else F.THM_EXT_CFG_alarm_out) : Int) →
          bitOf (t.fld (P.thm 1) F.PG_INT_STS) (2 + k) = true) := by
  obtain ⟨htemp, hstale, hext⟩ := State.extRead_facts (s := s) (k := k) (v := v) rfl
  obtain ⟨-, -, -, hti, -, hsi, -⟩ := ext_apart k
  have hex := exec_extNtc_valid temp hao htrip hb hv
  refine ⟨_, hex, ?_, ?_, ?_, State.sameBytes_of_out (execExtNtcConversion_mem k true temp s s.mems_memsOf) hex, fun hle hlt => ?_⟩
  · split
    · rw [State.fld_event_apart _ _ _ hti, htemp]
    · exact htemp
  · split
    · rw [State.flag_event_apart _ _ _ hsi, hstale]
    · exact hstale
  · split
    · rw [State.event_thm, hext]
    · exact hext
  · rw [if_pos (by rw [Bool.and_eq_true, decide_eq_true_eq, decide_eq_true_eq]; exact ⟨hle, hlt⟩)]
    exact State.bit_event _ _ (by omega)

/-- A failed conversion: the channel's reading is stale and the failure counts. -/
def State.extStale (s : State) (k : Nat) : State := (s.satFld (P.thm 1) (F.THM_EXT_invalid_cnt k) 1).setFlag (P.thm 1) (F.THM_EXT_stale k) true

/-- A failed conversion of a channel in service: the second in a row takes it out. -/
theorem extNtc_invalid {s : State} {k : Fin 2} (temp : Int) (hao : s.aoUp = true) (htrip : s.thm.tripped = false)
    (hb : s.flag (P.thm 1) (F.THM_EXT_broken k) = false) : Completes (.extNtcConversion k false temp) s fun t =>
      t.fld (P.thm 1) (F.THM_EXT_temp k) = s.fld (P.thm 1) (F.THM_EXT_temp k) ∧ t.flag (P.thm 1) (F.THM_EXT_stale k) = true ∧
        t.fld (P.thm 1) (F.THM_EXT_invalid_cnt k) = min 255 (s.fld (P.thm 1) (F.THM_EXT_invalid_cnt k) + 1) ∧
        t.flag (P.thm 1) (F.THM_EXT_broken k) = decide (Tab.get nat0 s.thm.ext k ≠ 0) := by
  obtain ⟨hts, htn, htb, hti, hsb, hsi, hns, hnb, hni, hbs, hbn, hbi⟩ := ext_apart k
  have htemp : (s.extStale k).fld (P.thm 1) (F.THM_EXT_temp k) = s.fld (P.thm 1) (F.THM_EXT_temp k) := by
    rw [State.extStale, State.fld_setFlag_apart _ _ _ hts, State.fld_satFld_apart htn]
  have hstale : (s.extStale k).flag (P.thm 1) (F.THM_EXT_stale k) = true := State.flag_setFlag_self _ _ (by show 0 < 1; decide) _
  have hcnt : (s.extStale k).fld (P.thm 1) (F.THM_EXT_invalid_cnt k) = min 255 (s.fld (P.thm 1) (F.THM_EXT_invalid_cnt k) + 1) := by
    rw [State.extStale, State.fld_setFlag_apart _ _ _ hns, State.fld_satFld_self]
    rfl
  have hbroken : (s.extStale k).flag (P.thm 1) (F.THM_EXT_broken k) = false := by
    refine (State.flag_of_fld ?_).trans hb
    rw [State.extStale, State.fld_setFlag_apart _ _ _ hbs, State.fld_satFld_apart hbn]
  let u := (((s.extStale k).setFlag (P.thm 1) (F.THM_EXT_broken k) true).event (P.thm 1) 0).thermalRec 1 [5, k]
  have hex : exec (.extNtcConversion k false temp) s = .next (if Tab.get nat0 s.thm.ext k = 0 then
      { s.extStale k with thm := { (s.extStale k).thm with ext := Tab.set nat0 (s.extStale k).thm.ext k 1 } }
    else { u with thm := { u.thm with ext := Tab.set nat0 u.thm.ext k 0 } }) := by
    show Host.Outcome.next _ = _
    simp only [hao, htrip, hb, Bool.not_true, Bool.or_self, Bool.false_eq_true, if_false, Bool.not_false, if_true]
    rfl
  by_cases hn : Tab.get nat0 s.thm.ext k = 0
  · rw [if_pos hn] at hex
    refine ⟨_, hex, htemp, hstale, hcnt, ?_⟩
    rw [decide_eq_false (not_not.mpr hn)]
    exact hbroken
  · rw [if_neg hn] at hex
    have hfld : ∀ f : Fld, f.inside = true → f.apart F.PG_INT_STS = true → u.fld (P.thm 1) f =
        ((s.extStale k).setFlag (P.thm 1) (F.THM_EXT_broken k) true).fld (P.thm 1) f := fun f hin hi => by
      show (State.thermalRec _ _ _).fld _ _ = _
      rw [State.thermalRec, State.fld_trailPut_page (by decide) hin, State.fld_event_apart _ _ _ hi]
    have hin : (F.THM_EXT_temp k).inside = true ∧ (F.THM_EXT_stale k).inside = true ∧ (F.THM_EXT_invalid_cnt k).inside = true ∧
        (F.THM_EXT_broken k).inside = true := ext_inside k
    refine ⟨_, hex, ?_, ?_, ?_, ?_⟩
    · exact (hfld _ hin.1 hti).trans ((State.fld_setFlag_apart _ _ _ htb _).trans htemp)
    · exact (State.flag_of_fld ((hfld _ hin.2.1 hsi).trans (State.fld_setFlag_apart _ _ _ hsb _))).trans hstale
    · exact (hfld _ hin.2.2.1 hni).trans ((State.fld_setFlag_apart _ _ _ hnb _).trans hcnt)
    · rw [decide_eq_true hn]
      exact (State.flag_of_fld (hfld _ hin.2.2.2 hbi)).trans (State.flag_setFlag_self _ _ (by show 0 < 1; decide) _)

/-! The causes of the floor. -/

theorem coolantOkHigh_floor {s : State} (hok : s.okEn = true) (hsd : s.inShutdown = false) (hst : s.stuck = false) (hoff : s.hubOff = false) :
    Completes .coolantOkHigh s fun t => t.thm.pinLow = false ∧ t.flag (P.thm 0) F.THM_STS_floor = true ∧ bitOf (t.fld (P.thm 0) F.THM_STS_cause) 0 = true ∧
      (s.flag (P.thm 0) F.THM_STS_floor = false → t.thm.floorAt = some s.now ∧ bitOf (t.fld (P.thm 0) F.PG_INT_STS) 0 = true) ∧ s.sameBytes t := by
  have hex : exec .coolantOkHigh s = .next ({ s with thm := { s.thm with pinLow := false } }.floorCause 0) := congrArg Host.Outcome.next (if_pos hok)
  obtain ⟨hfloor, hcause, hpin, hentered⟩ :=
    State.floorCause_facts (s := { s with thm := { s.thm with pinLow := false } }) (i := 0) (by decide) hsd hst hoff rfl
  exact ⟨_, hex, hpin, hfloor, hcause, hentered, State.sameBytes_of_out (execCoolantOkHigh_mem s s.mems_memsOf) hex⟩

theorem coolantOkRestored_floor (s : State) : Completes .coolantOkRestored s fun t => t.thm.pinLow = true ∧
    bitOf (t.fld (P.thm 0) F.THM_STS_cause) 0 = false ∧ s.sameBytes t ∧
    (s.fld (P.thm 0) F.THM_STS_cause = 1 → t.flag (P.thm 0) F.THM_STS_floor = false ∧ t.thm.floorAt = none) := by
  obtain ⟨hcause, hpin, hends⟩ := State.floorRestore_facts (s := { s with thm := { s.thm with pinLow := true } }) (i := 0) (by decide) rfl
  exact ⟨_, rfl, hpin, hcause, State.sameBytes_of_out (execCoolantOkRestored_mem s s.mems_memsOf) rfl, hends⟩

/-- A hub that has cooled down. -/
theorem hubTHotRestored_floor {s : State} (h : ∀ v ∈ s.allOf 8, v ≤ 420) : Completes .hubTHotRestored s fun t =>
    bitOf (t.fld (P.thm 0) F.THM_STS_cause) 2 = false ∧ s.sameBytes t ∧
    (s.fld (P.thm 0) F.THM_STS_cause = 4 → t.flag (P.thm 0) F.THM_STS_floor = false ∧ t.thm.floorAt = none) := by
  have hcool : ((s.allOf 8).any fun v => decide (degC 105 < v)) = false := by
    rw [List.any_eq_false]
    intro v hv hhot
    have hhot : (420 : Int) < v := of_decide_eq_true hhot
    exact absurd (h v hv) (not_le.mpr hhot)
  have hex : exec .hubTHotRestored s = .next (s.floorRestore 2) := by
    show Host.Outcome.next _ = _
    rw [hcool, if_neg Bool.false_ne_true]
  obtain ⟨hcause, -, hends⟩ := State.floorRestore_facts (s := s) (i := 2) (by decide) rfl
  exact ⟨_, hex, hcause, s.floorRestore_sameBytes 2, hends⟩

theorem exec_hubTHotRestored_hot {s : State} (h : ∃ v ∈ s.allOf 8, 420 < v) : exec .hubTHotRestored s = .next s := by
  obtain ⟨v, hv, hhot⟩ := h
  exact congrArg Host.Outcome.next (if_pos (List.any_eq_true.mpr ⟨v, hv, decide_eq_true hhot⟩))

theorem floorRelease_ends {s : State} {rq : Requester} (hg : s.grants rq (P.thm 1) = true) (hsd : s.inShutdown = false) (hrise : s.thm.rising = false)
    (hpin : s.thm.pinLow = true ∨ s.okEn = false) : Completes (.floorRelease rq) s fun t =>
      bitOf (t.fld (P.thm 0) F.THM_STS_cause) 1 = false ∧ s.sameBytes t ∧
      (s.fld (P.thm 0) F.THM_STS_cause = 2 → t.flag (P.thm 0) F.THM_STS_floor = false ∧ t.thm.floorAt = none) := by
  have hpin : (s.thm.pinLow || !s.okEn) = true := by simpa using hpin
  have hex : exec (.floorRelease rq) s = .next (s.floorRestore 1) := by
    refine congrArg Host.Outcome.next ((State.privWrite_of_grants hg _ _).trans ?_)
    rw [State.thmRelease, hsd, hrise, hpin]
    rfl
  obtain ⟨hcause, -, hends⟩ := State.floorRestore_facts (s := s) (i := 1) (by decide) rfl
  exact ⟨_, hex, hcause, s.floorRestore_sameBytes 1, hends⟩

theorem exec_floorRelease_refused {s : State} {rq : Requester} (hg : s.grants rq (P.thm 1) = true)
    (h : s.inShutdown = true ∨ s.thm.rising = true ∨ (s.thm.pinLow = false ∧ s.okEn = true)) :
    exec (.floorRelease rq) s = .next (s.countErr (P.thm 1) 0x41 (rqCode rq) (accessAddr rq (P.thm 1) 0x040)) := by
  refine congrArg Host.Outcome.next ((State.privWrite_of_grants hg _ _).trans (if_neg ?_))
  obtain h | h | ⟨h, h'⟩ := h
  · simp [h]
  · simp [h]
  · simp [h, h']

/-! Cooling shutdown (R389). -/

/-- The shutdown is on record: the event, its record and the cycle counts. -/
def State.shutdownNoted (s : State) : State :=
  (((s.setFlag (P.thm 0) F.THM_STS_shutdown true).event (P.thm 0) 2).thermalRec 2 [2, s.fld (P.thm 0) F.THM_STS_cause]).cycleRecord

theorem State.fld_shutdownNoted {pg : Nat} {f : Fld} (hpg : pg ≠ P.trl) (hf : f.inside = true) (s : State) :
    s.shutdownNoted.fld pg f = ((s.setFlag (P.thm 0) F.THM_STS_shutdown true).event (P.thm 0) 2).fld pg f := by
  rw [State.shutdownNoted, State.cycleRecord, State.fld_trailPut_page hpg hf, State.thermalRec, State.fld_trailPut_page hpg hf]

/-- A record at a queue with room is the last of the queue. -/
theorem State.trailPut_queue {s : State} (h : s.trail.queue.length < 16) (typ block sev : Nat) (payload : List Nat) :
    ∃ r, (s.trailPut typ block sev payload).trail = { s.trail with queue := s.trail.queue ++ [r] } ∧ r.typ = typ ∧ r.payload = payload := by
  rw [State.trailPut, if_pos h]
  exact ⟨_, rfl, rfl, rfl⟩

theorem State.shutdownNoted_queue {s : State} (h : s.trail.queue.length < 15) :
    ∃ a b, s.shutdownNoted.trail.queue = s.trail.queue ++ [a, b] ∧ a.typ = 4 ∧ b.typ = 5 := by
  let u := (s.setFlag (P.thm 0) F.THM_STS_shutdown true).event (P.thm 0) 2
  have hu : u.trail = s.trail := State.event_trail _ _ _
  obtain ⟨a, ha, hatyp, -⟩ := State.trailPut_queue (s := u) (by rw [hu]; omega) 0x04 0x0A 2 [2, s.fld (P.thm 0) F.THM_STS_cause]
  rw [hu] at ha
  obtain ⟨b, hb, hbtyp, -⟩ := State.trailPut_queue (s := u.trailPut 0x04 0x0A 2 [2, s.fld (P.thm 0) F.THM_STS_cause]) (by rw [ha, List.length_append]; exact Nat.succ_lt_succ h)
    0x05 0x0A 0 (State.cyclePayload (u.trailPut 0x04 0x0A 2 [2, s.fld (P.thm 0) F.THM_STS_cause]))
  refine ⟨a, b, ?_, hatyp, hbtyp⟩
  have hshow : s.shutdownNoted.trail = _ := hb
  rw [hshow, ha, List.append_assoc]
  rfl

theorem skState_inside : ∀ j, j < 64 → (F.STP_SK_STS_state j).inside = true := by decide +kernel

theorem P.stream_ne {k : Nat} (h : k < 512) : P.stream k ≠ P.trl ∧ P.stream k ≠ P.thm 0 := by
  simp only [P.stream, P.trl, P.thm]
  omega

/-- Without a stream in use the shutdown is only put on record. -/
theorem exec_coolingShutdown {s : State} (hsd : s.inShutdown = false) (hst : s.stuck = false) (hoff : s.hubOff = false)
    (hc : s.fld (P.thm 0) F.THM_STS_cause % 4 ≠ 0) (hsk : ∀ k, k < 512 → s.skOn k = false) : exec .coolingShutdown s = .next s.shutdownNoted := by
  have hnone : (List.range 512).filter s.shutdownNoted.skOn = [] := by
    rw [List.filter_eq_nil_iff]
    intro k hk
    obtain ⟨htrl, hthm⟩ := P.stream_ne (List.mem_range.mp hk)
    have hin := skState_inside (k % 64) (Nat.mod_lt _ (by decide))
    have hsame : s.shutdownNoted.skState k = s.skState k := by
      rw [State.skState, State.skf, State.fld_shutdownNoted htrl hin, State.fld_event_page hthm hin, State.fld_setFlag_page hthm hin (by decide)]
      rfl
    rw [State.skOn, hsame]
    simpa [State.skOn] using hsk k (List.mem_range.mp hk)
  show Host.Outcome.next (if s.inShutdown || s.stuck || s.hubOff || decide (s.fld (P.thm 0) F.THM_STS_cause % 4 = 0) then s
    else if s.shutdownNoted.devFailed then s.shutdownNoted else s.shutdownNoted.each ((List.range 512).filter s.shutdownNoted.skOn) _) = _
  rw [hsd, hst, hoff, decide_eq_false hc, hnone]
  exact congrArg Host.Outcome.next (ite_self _)

theorem coolingShutdown_noted {s : State} (hsd : s.inShutdown = false) (hst : s.stuck = false) (hoff : s.hubOff = false)
    (hc : s.fld (P.thm 0) F.THM_STS_cause % 4 ≠ 0) (hsk : ∀ k, k < 512 → s.skOn k = false) : Completes .coolingShutdown s fun t =>
      t.inShutdown = true ∧ bitOf (t.fld (P.thm 0) F.PG_INT_STS) 2 = true ∧ s.sameBytes t ∧
        (s.trail.queue.length < 15 → ∃ a b, t.trail.queue = s.trail.queue ++ [a, b] ∧ a.typ = 4 ∧ b.typ = 5) := by
  refine ⟨_, exec_coolingShutdown hsd hst hoff hc hsk, ?_, ?_, ?_, State.shutdownNoted_queue⟩
  · rw [State.inShutdown, State.flag_of_fld (State.fld_shutdownNoted (by decide) (by decide) s), State.flag_event_apart _ _ _ (by decide)]
    exact State.flag_setFlag_self _ _ (by decide) _
  · rw [State.fld_shutdownNoted (by decide) (by decide)]
    exact State.bit_event _ _ (by decide)
  · exact State.sameBytes_of_mems (State.cycleRecord_mem _ (State.trailPut_mem _ _ _ _ _ (State.event_mem _ _ _ s.mems_memsOf)))

/-- The absorb point leaves the dark state. -/
theorem exec_coolingShutdownAbsorb {s : State} (hsd : s.inShutdown = true) (hoff : s.hubOff = false) (hst : s.stuck = false) :
    ∃ u : State, exec .coolingShutdownAbsorb s = .next u.dark := by
  by_cases hf : s.devFailed
  · refine ⟨_, congrArg Host.Outcome.next ((if_neg ?_).trans (if_pos hf))⟩
    simp [hsd, hoff, hst]
  · refine ⟨_, congrArg Host.Outcome.next ((if_neg ?_).trans (if_neg hf))⟩
    simp [hsd, hoff, hst]

/-! Cycle counts and the forecast (R379-R382). -/

theorem cycleSnapshot_record {s : State} (hao : s.aoUp = true) (htrip : s.thm.tripped = false) (hroom : s.trail.queue.length < 16) :
    Completes .cycleSnapshot s fun t => s.sameBytes t ∧ ∃ r, t.trail.queue = s.trail.queue ++ [r] ∧ r.typ = 5 ∧ r.payload = s.cyclePayload := by
  have hex : exec .cycleSnapshot s = .next s.cycleRecord := congrArg Host.Outcome.next (if_pos (by simp [hao, htrip]))
  obtain ⟨r, hr, htyp, hpay⟩ := State.trailPut_queue hroom 0x05 0x0A 0 s.cyclePayload
  refine ⟨_, hex, State.sameBytes_of_mems (State.cycleRecord_mem s s.mems_memsOf), r, ?_, htyp, hpay⟩
  rw [State.cycleRecord, hr]

/-- The registers and counts of a published forecast. -/
def State.forecastShown (s : State) : State :=
  ({ s with thm := { s.thm with fc := s.forecastValues }, power := { s.power with sum10 := 0, n10 := 0 } }.setFld (P.disp 4) F.DISP_FC_SEQ_value
    ((s.fld (P.disp 4) F.DISP_FC_SEQ_value + 1) % 65536)).event (P.disp 4) 0

theorem State.forecastShown_facts {s t : State} (ht : t = s.forecastShown) : t.thm.fc = s.forecastValues ∧ t.power.sum10 = 0 ∧ t.power.n10 = 0 ∧
    t.fld (P.disp 4) F.DISP_FC_SEQ_value = (s.fld (P.disp 4) F.DISP_FC_SEQ_value + 1) % 65536 ∧ bitOf (t.fld (P.disp 4) F.PG_INT_STS) 0 = true ∧
    t.mgt = s.mgt := by
  subst ht
  refine ⟨by simp [State.forecastShown], by simp [State.forecastShown], by simp [State.forecastShown], ?_, State.bit_event _ _ (by decide),
    by simp [State.forecastShown]⟩
  rw [State.forecastShown, State.fld_event_apart _ _ _ (by decide), State.fld_setFld_self]
  exact Nat.mod_mod _ _

theorem forecastPublish_shown {s : State} (hdead : s.hubDead = false) (hst : s.stuck = false) : Completes .forecastPublish s fun t =>
    t.thm.fc = s.forecastValues ∧ t.power.sum10 = 0 ∧ t.power.n10 = 0 ∧
      t.fld (P.disp 4) F.DISP_FC_SEQ_value = (s.fld (P.disp 4) F.DISP_FC_SEQ_value + 1) % 65536 ∧ bitOf (t.fld (P.disp 4) F.PG_INT_STS) 0 = true ∧
      s.sameBytes t ∧ (s.mgt.evSub ≠ 0 → ∃ rec', .forecast s.mgt.evSub rec' ∈ t.outs) := by
  obtain ⟨hfc, hsum, hn, hseq, hbit, hmgt⟩ := State.forecastShown_facts (s := s) rfl
  have hex : exec .forecastPublish s = .next (if s.forecastShown.mgt.evSub = 0 then s.forecastShown
      else s.forecastShown.emit (.forecast s.forecastShown.mgt.evSub (s.forecastShown.forecastRecord ((s.fld (P.disp 4) F.DISP_FC_SEQ_value + 1) % 65536)
        s.forecastValues))) := congrArg Host.Outcome.next (if_neg (by simp [hdead, hst]))
  have hbytes := State.sameBytes_of_out (execForecastPublish_mem s s.mems_memsOf) hex
  rw [hmgt] at hex hbytes
  by_cases hsub : s.mgt.evSub = 0
  · rw [if_pos hsub] at hex hbytes
    exact ⟨_, hex, hfc, hsum, hn, hseq, hbit, hbytes, fun h => absurd hsub h⟩
  · rw [if_neg hsub] at hex hbytes
    exact ⟨_, hex, hfc, hsum, hn, hseq, hbit, hbytes, fun _ => ⟨_, List.mem_cons_self⟩⟩

/-! Writes (R373). -/

theorem thmCfgWrite_set {s : State} {rq : Requester} {w : Word} (hg : s.grants rq (P.thm 0) = true) (hlock : s.flag (P.thm 0) F.PG_LOCK_locked = false) :
    Completes (.thmCfgWrite rq w) s fun t => t.fld (P.thm 0) F.THM_CFG_t_throttle = min 105 (max 85 (bits w.toNat 0 7)) ∧ s.sameBytes t ∧
      (85 ≤ bits w.toNat 0 7 → bits w.toNat 0 7 ≤ 105 → s.sameRegs t [fkey (P.thm 0) F.THM_CFG_t_throttle]) := by
  have hex : exec (.thmCfgWrite rq w) s = .next (s.thmCfg rq w.toNat) := congrArg Host.Outcome.next (State.privWrite_of_grants hg _ _)
  refine ⟨_, hex, ?_, State.sameBytes_of_mems (State.thmCfg_mem s rq _ s.mems_memsOf), fun hlo hhi => ?_⟩
  · have hset : (s.setFld (P.thm 0) F.THM_CFG_t_throttle (min 105 (max 85 (bits w.toNat 0 7)))).fld (P.thm 0) F.THM_CFG_t_throttle =
        min 105 (max 85 (bits w.toNat 0 7)) := State.fld_setFld_of_lt _ _ _ (lt_of_le_of_lt (Nat.min_le_left _ _) (by decide))
    rw [State.thmCfg, hlock, if_neg Bool.false_ne_true]
    dsimp only
    split
    · exact hset
    · rw [State.fld_countErr_own _ _ _ (by decide)]
      exact hset
  · have hin : min 105 (max 85 (bits w.toNat 0 7)) = bits w.toNat 0 7 := by omega
    rw [State.thmCfg, hlock, if_neg Bool.false_ne_true]
    dsimp only
    rw [if_pos hin]
    exact (State.sameRegs.refl s _).setFld (by simp) _

theorem exec_thmCfgWrite_locked {s : State} {rq : Requester} {w : Word} (hg : s.grants rq (P.thm 0) = true)
    (hlock : s.flag (P.thm 0) F.PG_LOCK_locked = true) (hne : bits w.toNat 0 7 ≠ s.fld (P.thm 0) F.THM_CFG_t_throttle) :
    exec (.thmCfgWrite rq w) s = .next (s.countErr (P.thm 0) 0x03 (rqCode rq) (accessAddr rq (P.thm 0) 0x044)) := by
  refine congrArg Host.Outcome.next ((State.privWrite_of_grants hg _ _).trans ?_)
  rw [State.thmCfg, hlock, if_pos rfl]
  exact if_neg hne

/-- Settles O60, channel by channel, cause by cause. -/
theorem coolingResults : Obligations.CoolingResults := by
  unfold Obligations.CoolingResults
  refine ⟨fun s rq k temp => ⟨fun hao htrip => ⟨extNtc_valid hao htrip, extNtc_invalid temp hao htrip⟩, fun h ok => ?_, coolantOkHigh_floor, fun hok => ?_,
    coolantOkRestored_floor s, hubTHotRestored_floor, exec_hubTHotRestored_hot, fun hg => ⟨floorRelease_ends hg, exec_floorRelease_refused hg⟩⟩,
    fun s rq w => ⟨coolingShutdown_noted, fun h => ?_, fun hsd hoff hst => ?_, fun hsd => ?_, cycleSnapshot_record, fun h => ?_, forecastPublish_shown,
      fun h => ?_, thmCfgWrite_set, exec_thmCfgWrite_locked, fun hg => ?_⟩⟩
  · refine congrArg Host.Outcome.next (if_pos ?_)
    rcases h with h | h <;> simp [h]
  · exact congrArg Host.Outcome.next (if_neg (by simp [hok]))
  · refine congrArg Host.Outcome.next (if_pos ?_)
    rcases h with h | h <;> simp [h]
  · obtain ⟨u, hex⟩ := exec_coolingShutdownAbsorb hsd hoff hst
    exact ⟨_, hex, u.dark_hubOff, u.dark_core, u.dark_hmp, fun p hp => u.dark_linkUp hp⟩
  · exact congrArg Host.Outcome.next (if_pos (by simp [hsd]))
  · refine congrArg Host.Outcome.next (if_neg ?_)
    rcases h with h | h <;> simp [h]
  · exact congrArg Host.Outcome.next (if_pos (by simp [h]))
  · exact ⟨_, congrArg Host.Outcome.next (State.privWrite_of_grants hg _ _), rfl, .refl s, rfl⟩

end Sys2Proof.Machine
end

section
/-! Temperature (16 R371, R372, R376, R385, R387; 09 R229): conversions, thermal requests, bands, and the rise evaluation. -/
namespace Sys2Proof.Machine

/-! What the steps of a conversion write. -/

/-- From `s` to `t` only fields listed in `gs`, on any page, and fields of the Trail's page change; the memories and the sensor histories stay, and no trip
comes or goes. -/
structure State.Shows (gs : List Fld) (s t : State) : Prop where
  fld : ∀ (pg : Nat) (f : Fld), pg ≠ P.trl → f.inside = true → (∀ g ∈ gs, f.apart g = true) → t.fld pg f = s.fld pg f
  sens : t.thm.sens = s.thm.sens
  tripped : t.thm.tripped = s.thm.tripped
  mems : t.memsOf = s.memsOf

section Shows
variable {gs : List Fld} {s t u : State}

theorem State.Shows.refl (gs : List Fld) (s : State) : s.Shows gs s := ⟨fun _ _ _ _ _ => rfl, rfl, rfl, rfl⟩

theorem State.Shows.trans (h1 : s.Shows gs t) (h2 : t.Shows gs u) : s.Shows gs u :=
  ⟨fun pg f hp hi ha => (h2.fld pg f hp hi ha).trans (h1.fld pg f hp hi ha), h2.sens.trans h1.sens, h2.tripped.trans h1.tripped, h2.mems.trans h1.mems⟩

theorem State.Shows.mono {hs : List Fld} (h : s.Shows gs t) (hsub : gs ⊆ hs) : s.Shows hs t :=
  ⟨fun pg f hp hi ha => h.fld pg f hp hi fun g hg => ha g (hsub hg), h.sens, h.tripped, h.mems⟩

theorem State.Shows.setFld (h : s.Shows gs t) {g : Fld} (hg : g ∈ gs) (pg v : Nat) : s.Shows gs (t.setFld pg g v) :=
  ⟨fun p f hp hi ha => (State.fld_setFld_apart _ _ _ _ (ha g hg)).trans (h.fld p f hp hi ha), h.sens, h.tripped, h.mems⟩

theorem State.Shows.event (h : s.Shows gs t) (hg : F.PG_INT_STS ∈ gs) (pg bit : Nat) : s.Shows gs (t.event pg bit) :=
  ⟨fun p f hp hi ha => (State.fld_event_apart _ _ _ (ha _ hg) _).trans (h.fld p f hp hi ha), by rw [State.event_thm, h.sens], by rw [State.event_thm, h.tripped],
    by rw [← h.mems]; simp [State.memsOf]⟩

theorem State.Shows.thermalRec (h : s.Shows gs t) (sev : Nat) (payload : List Nat) : s.Shows gs (t.thermalRec sev payload) := by
  refine ⟨fun p f hp hi ha => ?_, ?_, ?_, ?_⟩
  · rw [State.thermalRec, State.fld_trailPut_page hp hi, h.fld p f hp hi ha]
  · rw [State.thermalRec, State.trailPut_thm, h.sens]
  · rw [State.thermalRec, State.trailPut_thm, h.tripped]
  · rw [← h.mems, State.thermalRec]
    simp [State.memsOf]

/-- A step that leaves the registers and the sensors' part of the thermal state. -/
theorem State.Shows.of_regs (hr : t.regs = s.regs) (hs : t.thm.sens = s.thm.sens) (ht : t.thm.tripped = s.thm.tripped) (hm : t.memsOf = s.memsOf) :
    s.Shows gs t :=
  ⟨fun p f _ _ _ => by rw [State.fld, hr, State.fld], hs, ht, hm⟩

theorem State.Shows.each {α : Type} {l : List α} {f : α → State → State} (h : ∀ a ∈ l, ∀ u : State, u.Shows gs (f a u)) : s.Shows gs (s.each l f) :=
  State.each_keeps (fun u => s.Shows gs u) s l f (fun a ha u hu => hu.trans (h a ha u)) (.refl gs s)

theorem State.Shows.showReading (h : s.Shows gs t) {g : Fld} (hg : g ∈ gs) (pg : Nat) (o : Option Int) : s.Shows gs (t.showReading pg g o) := by
  cases o with
  | some v => exact h.setFld hg pg _
  | none => exact (h.setFld hg pg _).trans (.of_regs rfl rfl rfl rfl)

theorem State.Shows.sameBytes (h : s.Shows gs t) : s.sameBytes t := by
  obtain ⟨hh, hst, hsl⟩ : t.hmp = s.hmp ∧ t.stores = s.stores ∧ t.slices = s.slices := by simpa [State.memsOf] using h.mems
  exact State.sameBytes_of_eq hh hst hsl

theorem State.Shows.ite {c : Prop} [Decidable c] (h1 : s.Shows gs t) (h2 : s.Shows gs u) : s.Shows gs (if c then t else u) := by
  split
  · exact h1
  · exact h2

end Shows

/-- What the sampling bands and the interrupts of a die write. -/
def bandFlds : List Fld := [F.THM_T_STS_band, F.THM_STS_hub_band, F.PG_INT_STS]
/-- What a tile shows of its readings. -/
def readingFlds : List Fld := [F.THM_T_STS_logic_max, F.THM_T_STS_dram_max, F.THM_T_MEAN_mean, F.THM_T_MEAN_valid_logic, F.THM_T_MEAN_valid_dram]
/-- What a tile's request writes. -/
def requestFlds : List Fld := [F.THM_T_STS_state, F.THM_T_STS_req, F.PG_INT_STS]
/-- What the floor writes. -/
def floorFlds : List Fld := [F.THM_STS_cause, F.THM_STS_floor, F.PG_INT_STS]
/-- What a conversion writes once the die has acted. -/
def marginFlds : List Fld := [F.THM_MARGIN_margin, F.THM_MARGIN_dev_max, F.PG_INT_STS]

section Steps
variable (s : State) (d : Nat)

theorem State.setBand_shows (b : Nat) : s.Shows bandFlds (s.setBand d b) := by
  rw [State.setBand]
  split
  · exact .refl _ s
  · split
    · exact ((State.Shows.refl _ s).setFld (by simp [bandFlds]) _ _).event (by simp [bandFlds]) _ _
    · exact (State.Shows.refl _ s).setFld (by simp [bandFlds]) _ _

theorem State.bandUp_shows : s.Shows bandFlds (s.bandUp d) := by
  rw [State.bandUp]
  split
  · exact s.setBand_shows d 2
  · split
    · exact s.setBand_shows d _
    · exact .refl _ s

theorem State.tileReadings_shows : s.Shows readingFlds (s.tileReadings d) :=
  (((((State.Shows.refl _ s).showReading (by simp [readingFlds]) _ _).showReading (by simp [readingFlds]) _ _).showReading (by simp [readingFlds]) _ _).setFld
    (by simp [readingFlds]) _ _).setFld (by simp [readingFlds]) _ _

theorem State.setRefresh_shows (b : Nat) : s.Shows [F.PG_INT_STS] (s.setRefresh d b) := by
  rw [State.setRefresh]
  split
  · exact .refl _ s
  · have h : s.Shows [F.PG_INT_STS] { s with bands := Tab.set nat0 s.bands d b } := .of_regs rfl rfl rfl rfl
    exact h.trans (State.Shows.each fun _ _ u => (State.Shows.refl _ u).event List.mem_cons_self _ _)

/-- HOT is entered, and recorded at most once a minute. -/
theorem State.enterHot_noted : ((s.setThmState d 2).event (P.thmT d) 1).Shows [] (s.enterHot d) := by
  have hnoted : ∀ (u : State) (m : Tab (Option Nat)), u.Shows [] ({ u with thm := { u.thm with hotAt := m } }.thermalRec 2 [7, d]) := fun u m =>
    (State.Shows.of_regs (s := u) (t := { u with thm := { u.thm with hotAt := m } }) rfl rfl rfl rfl).thermalRec _ _
  exact (hnoted _ _).ite (.refl _ _)

theorem State.enterHot_shows : s.Shows requestFlds (s.enterHot d) :=
  (((State.Shows.refl _ s).setFld (by simp [requestFlds]) _ _).event (by simp [requestFlds]) _ _).trans ((s.enterHot_noted d).mono (by simp))

theorem State.throttling_shows : s.Shows requestFlds (s.throttling d) := by
  rw [State.throttling]
  split
  · exact .refl _ s
  · exact ((State.Shows.refl _ s).setFld (by simp [requestFlds]) _ _).event (by simp [requestFlds]) _ _

theorem State.setCond_shows (gs : List Fld) (v : Bool) : s.Shows gs (s.setCond d v) := .of_regs rfl rfl rfl rfl

theorem State.setReq_shows (v : Nat) : s.Shows requestFlds (s.setReq d v) := (State.Shows.refl _ s).setFld (by simp [requestFlds]) _ _

theorem State.requestStep_shows : s.Shows requestFlds (s.requestStep d) := by
  rw [State.requestStep]
  split
  · exact (((State.Shows.refl _ s).setFld (by simp [requestFlds]) _ _).trans (State.setReq_shows _ _ _)).trans (State.setCond_shows _ _ _ _)
  split
  · refine State.Shows.trans (State.Shows.trans ?_ (State.setReq_shows _ _ _)) (State.setCond_shows _ _ _ _)
    split
    · exact .refl _ s
    · exact s.enterHot_shows d
  split
  · exact .refl _ s
  split
  · refine State.Shows.trans (State.Shows.trans ?_ (State.throttling_shows _ _)) (State.setCond_shows _ _ _ _)
    split
    · exact .refl _ s
    · exact s.setReq_shows d _
  · dsimp only
    split
    · exact (s.setCond_shows d _ _).trans (State.throttling_shows _ _)
    · exact s.setCond_shows d _ _

theorem State.floorCause_shows (i : Nat) : s.Shows floorFlds (s.floorCause i) := by
  have h : s.Shows floorFlds (s.setFld (P.thm 0) F.THM_STS_cause (putBit (s.fld (P.thm 0) F.THM_STS_cause) i true)) :=
    (State.Shows.refl _ s).setFld (by simp [floorFlds]) _ _
  have hopen : ∀ (u : State) (a c : Nat), u.Shows floorFlds
      ((({ u with thm := { u.thm with floorAt := some a } }.setFlag (P.thm 0) F.THM_STS_floor true).event (P.thm 0) 0).thermalRec 2 [0, c]) := fun u a c =>
    (((State.Shows.of_regs (s := u) (t := { u with thm := { u.thm with floorAt := some a } }) rfl rfl rfl rfl).setFld (by simp [floorFlds]) _ _).event
      (by simp [floorFlds]) _ _).thermalRec _ _
  exact (State.Shows.refl _ s).ite (h.ite (h.trans (hopen _ _ _)))

theorem State.hotEnter_shows (was : Bool) : s.Shows [F.PG_INT_STS] (s.hotEnter d was) := by
  rw [State.hotEnter]
  split
  · exact .each fun _ _ u => (State.Shows.refl _ u).event (by simp) _ _
  · exact .refl _ s

theorem State.sampleMax_shows (gs : List Fld) : s.Shows gs (s.sampleMax d) := by
  rw [State.sampleMax]
  split
  · exact .refl _ s
  · exact .of_regs rfl rfl rfl rfl

theorem State.marginStep_shows : s.Shows marginFlds s.marginStep := by
  have h : s.Shows marginFlds ((s.showReading (P.thm 0) F.THM_MARGIN_margin s.margin).showReading (P.thm 0) F.THM_MARGIN_dev_max s.devMax) :=
    ((State.Shows.refl _ s).showReading (by simp [marginFlds]) _ _).showReading (by simp [marginFlds]) _ _
  exact (h.event (by simp [marginFlds]) _ _).ite h

theorem State.tempEvents_shows (gs : List Fld) (before : List (Nat × Nat)) : s.Shows gs (s.tempEvents before) := by
  rw [State.tempEvents]
  split
  · exact .refl _ s
  · exact .each fun _ _ u => .of_regs rfl rfl rfl rfl

end Steps

/-- What a conversion does after the die has acted. -/
def State.convTail (s : State) (d : Nat) (was : Bool) (before : List (Nat × Nat)) : State := (((s.hotEnter d was).sampleMax d).marginStep).tempEvents before

theorem State.convTail_shows (s : State) (d : Nat) (was : Bool) (before : List (Nat × Nat)) : s.Shows marginFlds (s.convTail d was before) :=
  ((((s.hotEnter_shows d was).mono (by simp [marginFlds])).trans (State.sampleMax_shows _ d _)).trans (State.marginStep_shows _)).trans (State.tempEvents_shows _ _ _)

end Sys2Proof.Machine
end

section
/-! A conversion in which every sensor of a die answers the same reading (16 R371, R376, R385). -/
namespace Sys2Proof.Machine

theorem sensor_inside : ∀ d, d < 9 → ∀ k, k < sensorCount d → (sensorTemp d k).inside = true ∧ (sensorValid d k).inside = true := by decide +kernel

theorem sensor_len (d k : Nat) : (sensorTemp d k).len = 11 ∧ (sensorValid d k).len = 1 := by
  unfold sensorTemp sensorValid
  split <;> exact ⟨rfl, rfl⟩

/-- The fields of one die's sensors lie apart. -/
theorem sensor_apart {d : Nat} (hd : d < 9) {k : Nat} (hk : k < sensorCount d) : (sensorTemp d k).apart (sensorValid d k) = true ∧
    ∀ j, j < sensorCount d → ((sensorTemp d k).apart (sensorValid d j) = true ∧ (sensorValid d k).apart (sensorTemp d j) = true ∧
      (j ≠ k → (sensorTemp d k).apart (sensorTemp d j) = true ∧ (sensorValid d k).apart (sensorValid d j) = true)) := by
  have hcross : ∀ d, d < 9 → ∀ k, k < sensorCount d → ∀ j, j < sensorCount d →
      (sensorTemp d k).apart (sensorValid d j) = true ∧ (sensorValid d k).apart (sensorTemp d j) = true := by decide +kernel
  have hsame : ∀ d, d < 9 → ∀ k, k < sensorCount d → ∀ j, j < sensorCount d → j ≠ k →
      (sensorTemp d k).apart (sensorTemp d j) = true ∧ (sensorValid d k).apart (sensorValid d j) = true := by decide +kernel
  exact ⟨(hcross d hd k hk k hk).1, fun j hj => ⟨(hcross d hd k hk j hj).1, (hcross d hd k hk j hj).2, hsame d hd k hk j hj⟩⟩

/-- A field that no sensor of die d shows. -/
def sensorFree (d pg : Nat) (f : Fld) : Prop :=
  (pg ≠ thmPage d ∧ f.inside = true) ∨ ∀ k, k < sensorCount d → f.apart (sensorTemp d k) = true ∧ f.apart (sensorValid d k) = true

/-- The first `m` sensors of die d have been read as `v`; the others stand as they were. -/
structure State.SensorsRead (s : State) (d : Nat) (v : BitVec 11) (m : Nat) (t : State) : Prop where
  done : ∀ k, k < m → t.fld (thmPage d) (sensorTemp d k) = v.toNat ∧ t.flag (thmPage d) (sensorValid d k) = true ∧
    Tab.get sens0 t.thm.sens (32 * d + k) = ⟨true, 0⟩
  rest : ∀ k, m ≤ k → k < sensorCount d → t.flag (thmPage d) (sensorValid d k) = s.flag (thmPage d) (sensorValid d k) ∧
    Tab.get sens0 t.thm.sens (32 * d + k) = Tab.get sens0 s.thm.sens (32 * d + k)
  free : ∀ pg f, sensorFree d pg f → t.fld pg f = s.fld pg f
  only : ∃ r n, t = { s with regs := r, thm := { s.thm with sens := n } }

/-- The reading of a sensor that is valid, or was never seen. -/
theorem sensorStep_good {s : State} {d k : Nat} {v : BitVec 11} (hlo : -160 ≤ sgn 11 v.toNat) (hhi : sgn 11 v.toNat ≤ 600)
    (hv : s.flag (thmPage d) (sensorValid d k) = true ∨ (Tab.get sens0 s.thm.sens (32 * d + k)).seen = false) :
    ∃ u, (u = s.setFld (thmPage d) (sensorTemp d k) v.toNat ∧ s.flag (thmPage d) (sensorValid d k) = true ∨
        u = (s.setFld (thmPage d) (sensorTemp d k) v.toNat).setFlag (thmPage d) (sensorValid d k) true) ∧
      s.sensorStep d k ⟨true, v⟩ = { u with thm := { u.thm with sens := Tab.set sens0 u.thm.sens (32 * d + k) ⟨true, 0⟩ } } := by
  by_cases hvalid : s.flag (thmPage d) (sensorValid d k) = true
  · refine ⟨_, .inl ⟨rfl, hvalid⟩, ?_⟩
    simp only [State.sensorStep, decide_eq_true hlo, decide_eq_true hhi, hvalid, Bool.and_self, if_true]
  · have hseen := hv.resolve_left hvalid
    refine ⟨_, .inr rfl, ?_⟩
    simp only [State.sensorStep, decide_eq_true hlo, decide_eq_true hhi, Bool.not_eq_true _ ▸ hvalid, hseen, Bool.and_self, if_true, Bool.false_eq_true,
      if_false, Bool.not_false]

theorem State.SensorsRead.step {s t : State} {d m : Nat} {v : BitVec 11} (h : s.SensorsRead d v m t) (hd : d < 9) (hm : m < sensorCount d)
    (hlo : -160 ≤ sgn 11 v.toNat) (hhi : sgn 11 v.toNat ≤ 600)
    (hv : s.flag (thmPage d) (sensorValid d m) = true ∨ (Tab.get sens0 s.thm.sens (32 * d + m)).seen = false) :
    s.SensorsRead d v (m + 1) (t.sensorStep d m ⟨true, v⟩) := by
  obtain ⟨hflag, hsens⟩ := h.rest m (Nat.le_refl m) hm
  rw [← hflag, ← hsens] at hv
  obtain ⟨u, hu, hstep⟩ := sensorStep_good hlo hhi hv
  obtain ⟨htv, hap⟩ := sensor_apart hd hm
  have hlt : v.toNat < 2 ^ (sensorTemp d m).len := by rw [(sensor_len d m).1]; exact v.isLt
  have hread : u.fld (thmPage d) (sensorTemp d m) = v.toNat ∧ u.flag (thmPage d) (sensorValid d m) = true := by
    rcases hu with ⟨rfl, hval⟩ | rfl
    · exact ⟨State.fld_setFld_of_lt _ _ _ hlt, (State.flag_setFld_apart _ _ _ _ (hap m hm).2.1).trans hval⟩
    · exact ⟨(State.fld_setFlag_apart _ _ _ htv _).trans (State.fld_setFld_of_lt _ _ _ hlt),
        State.flag_setFlag_self _ _ (by rw [(sensor_len d m).2]; exact Nat.one_pos) _⟩
  have hkeep : ∀ pg f, (pg ≠ thmPage d ∧ f.inside = true ∨ f.apart (sensorTemp d m) = true ∧ f.apart (sensorValid d m) = true) → u.fld pg f = t.fld pg f := by
    intro pg f hf
    obtain ⟨hti, hvi⟩ := sensor_inside d hd m hm
    have htemp : (t.setFld (thmPage d) (sensorTemp d m) v.toNat).fld pg f = t.fld pg f := by
      rcases hf with ⟨hne, hin⟩ | ⟨ha, -⟩
      · exact State.fld_setFld_page _ _ _ _ hne hin hti
      · exact State.fld_setFld_apart _ _ _ _ ha
    rcases hu with ⟨rfl, -⟩ | rfl
    · exact htemp
    · rcases hf with ⟨hne, hin⟩ | ⟨-, hb⟩
      · exact (State.fld_setFlag_page hne hin hvi _ _).trans htemp
      · exact (State.fld_setFlag_apart _ _ _ hb _).trans htemp
  have honly : ∃ r, u = { t with regs := r } := by
    rcases hu with ⟨rfl, -⟩ | rfl
    · exact ⟨_, rfl⟩
    · exact ⟨_, rfl⟩
  have hthm : u.thm = t.thm := by
    obtain ⟨_, rfl⟩ := honly
    rfl
  rw [hstep]
  refine ⟨fun k hk => ?_, fun k hmk hk => ?_, fun pg f hf => ?_, ?_⟩
  · by_cases hkm : k = m
    · subst hkm
      exact ⟨hread.1, hread.2, Tab.get_set_self sens0 u.thm.sens (32 * d + k) ⟨true, 0⟩⟩
    · obtain ⟨hval, hflg, hsen⟩ := h.done k (by omega)
      obtain ⟨-, hak⟩ := sensor_apart (k := k) hd (by exact lt_trans (Nat.lt_of_le_of_ne (Nat.lt_succ_iff.mp hk) hkm) hm)
      obtain ⟨htv', hvt', hne⟩ := hak m hm
      obtain ⟨htt, hvv⟩ := hne (by omega)
      refine ⟨(hkeep _ _ (.inr ⟨htt, htv'⟩)).trans hval, (State.flag_of_fld (hkeep _ _ (.inr ⟨hvt', hvv⟩))).trans hflg, ?_⟩
      exact (Tab.get_set_ne sens0 u.thm.sens (32 * d + m) (32 * d + k) ⟨true, 0⟩ (by omega)).trans (by rw [hthm, hsen])
  · obtain ⟨hflg, hsen⟩ := h.rest k (by omega) hk
    obtain ⟨-, hak⟩ := sensor_apart hd hk
    obtain ⟨-, hvt', hne⟩ := hak m hm
    refine ⟨(State.flag_of_fld (hkeep _ _ (.inr ⟨hvt', (hne (by omega)).2⟩))).trans hflg, ?_⟩
    exact (Tab.get_set_ne sens0 u.thm.sens (32 * d + m) (32 * d + k) ⟨true, 0⟩ (by omega)).trans (by rw [hthm, hsen])
  · exact (hkeep pg f (hf.imp_right fun h => h m hm)).trans (h.free pg f hf)
  · obtain ⟨r, n, rfl⟩ := h.only
    obtain ⟨r', rfl⟩ := honly
    exact ⟨_, _, rfl⟩

/-- Every sensor of die d reads as x. -/
def State.AllRead (s : State) (d : Nat) (x : Int) : Prop := ∀ k, k < sensorCount d → s.sensor d k = some x

theorem State.SensorsRead.range {s : State} {d : Nat} {v : BitVec 11} (hd : d < 9) (hlo : -160 ≤ sgn 11 v.toNat) (hhi : sgn 11 v.toNat ≤ 600)
    (hv : ∀ k, k < sensorCount d → s.flag (thmPage d) (sensorValid d k) = true ∨ (Tab.get sens0 s.thm.sens (32 * d + k)).seen = false) {m : Nat}
    (hm : m ≤ sensorCount d) : s.SensorsRead d v m (s.each (List.range m) fun k s => s.sensorStep d k ⟨true, v⟩) := by
  induction m with
  | zero => exact ⟨fun k hk => absurd hk (Nat.not_lt_zero k), fun k _ _ => ⟨rfl, rfl⟩, fun _ _ _ => rfl, _, _, rfl⟩
  | succ m ih =>
    rw [List.range_succ, State.each_append]
    exact (ih (by omega)).step hd hm hlo hhi (hv m hm)

/-- A list of equal entries with their places. -/
theorem zipIdx_replicate {α : Type} (n : Nat) (a : α) : ((List.replicate n a).take n).zipIdx = (List.range n).map fun k => (a, k) := by
  apply List.ext_getElem
  · simp
  · intro i h1 h2
    simp

/-- The sensors of a conversion, one after the other. -/
theorem conv_sensors (s : State) (d n : Nat) (r : SensorIn) : (s.each (((List.replicate n r).take n).zipIdx) fun e s => s.sensorStep d e.2 e.1) =
    s.each (List.range n) fun k s => s.sensorStep d k r := by
  rw [zipIdx_replicate, State.each, List.foldl_map]
  rfl

/-! What equal readings give. -/

theorem State.AllRead.filterMap {s : State} {d : Nat} {x : Int} (h : s.AllRead d x) (f : Nat → Bool) :
    s.readings d f = List.replicate ((List.range (sensorCount d)).filter f).length x := by
  rw [State.readings, ← List.map_const', List.filterMap_congr (g := fun _ => some x), List.filterMap_eq_map']
  exact fun k hk => h k (List.mem_range.mp (List.mem_filter.mp hk).1)

theorem State.AllRead.logicOf {s : State} {d : Nat} {x : Int} (h : s.AllRead d x) (hd : d < 8) : s.logicOf d = List.replicate 20 x := by
  rw [State.logicOf, h.filterMap, sensorCount, if_pos hd]
  rfl

theorem State.AllRead.dramOf {s : State} {d : Nat} {x : Int} (h : s.AllRead d x) (hd : d < 8) : s.dramOf d = List.replicate 8 x := by
  rw [State.dramOf, h.filterMap, sensorCount, if_pos hd]
  rfl

theorem State.AllRead.allOf {s : State} {d : Nat} {x : Int} (h : s.AllRead d x) (hd : d < 8) : s.allOf d = List.replicate 28 x := by
  rw [State.allOf, h.filterMap, sensorCount, if_pos hd]
  rfl

theorem maxOf_replicate (n : Nat) (x : Int) : maxOf (List.replicate (n + 1) x) = some x := by
  rw [List.replicate_succ, maxOf]
  congr 1
  induction n with
  | zero => rfl
  | succ n ih => rw [List.replicate_succ, List.foldl_cons, max_self, ih]

/-- No sensor is at its trip threshold. -/
theorem State.AllRead.tripping_none {s : State} {d : Nat} {x : Int} (h : s.AllRead d x) (hl : x < 4 * (s.fld (P.thm 0) F.THM_CFG_trip_logic : Int))
    (hm : x < 4 * (s.fld (P.thm 0) F.THM_CFG_trip_dram : Int)) : s.tripping d = none := by
  rw [State.tripping, List.findSome?_eq_none_iff]
  intro k hk
  rw [h k (List.mem_range.mp hk)]
  refine if_neg (not_le.mpr ?_)
  split
  · exact hm
  · exact hl

/-- The first sensor is at its trip threshold. -/
theorem State.AllRead.tripping_some {s : State} {d : Nat} {x : Int} (h : s.AllRead d x) (hl : 4 * (s.fld (P.thm 0) F.THM_CFG_trip_logic : Int) ≤ x) :
    s.tripping d = some (0, x) := by
  have hpos : ∃ n, sensorCount d = n + 1 := ⟨sensorCount d - 1, by unfold sensorCount; split <;> rfl⟩
  obtain ⟨n, hn⟩ := hpos
  rw [State.tripping, hn, List.range_succ_eq_map, List.findSome?_cons, h 0 (by omega)]
  simp only [show isDram 0 = false from rfl, Bool.false_eq_true, if_false, degC]
  rw [if_pos hl]

/-- A conversion keeps what the sensors of a die read through steps that write none of their fields. -/
theorem State.Shows.allRead {gs : List Fld} {s t : State} {d : Nat} {x : Int} (h : s.Shows gs t) (hd : d < 9)
    (hgs : ∀ k, k < sensorCount d → ∀ g ∈ gs, (sensorTemp d k).apart g = true ∧ (sensorValid d k).apart g = true) (hr : s.AllRead d x) : t.AllRead d x := by
  intro k hk
  obtain ⟨hti, hvi⟩ := sensor_inside d hd k hk
  have hpg : thmPage d ≠ P.trl := by
    simp only [thmPage, P.thmT, P.thm, P.trl]
    split <;> omega
  rw [← hr k hk, State.sensor, State.sensor, h.fld _ _ hpg hti fun g hg => (hgs k hk g hg).1,
    State.flag_of_fld (h.fld _ _ hpg hvi fun g hg => (hgs k hk g hg).2)]

/-! The whole conversion. -/

/-- What a conversion writes besides the sensors. -/
def convFlds : List Fld := bandFlds ++ readingFlds ++ requestFlds ++ floorFlds ++ marginFlds

theorem convFlds_sensors : ∀ d, d < 9 → ∀ k, k < sensorCount d → ∀ g ∈ convFlds, (sensorTemp d k).apart g = true ∧ (sensorValid d k).apart g = true := by
  decide +kernel

theorem convFlds_covers : bandFlds ⊆ convFlds ∧ readingFlds ⊆ convFlds ∧ [F.PG_INT_STS] ⊆ convFlds ∧ requestFlds ⊆ convFlds ∧ floorFlds ⊆ convFlds ∧
    marginFlds ⊆ convFlds := by decide

theorem State.dieActs_shows (s : State) (d : Nat) : s.Shows convFlds (s.dieActs d) := by
  obtain ⟨-, hread, hint, hreq, hfloor, -⟩ := convFlds_covers
  rw [State.dieActs]
  split
  · exact (((s.tileReadings_shows d).mono hread).trans ((State.setRefresh_shows _ d _).mono hint)).trans ((State.requestStep_shows _ d).mono hreq)
  · exact ((s.floorCause_shows 2).mono hfloor).ite (.refl _ s)

/-- The state of a conversion after its sensors. -/
def State.afterSensors (s : State) (d : Nat) (was : Bool) (before : List (Nat × Nat)) : State := ((s.bandUp d).dieActs d).convTail d was before

theorem State.afterSensors_shows (s : State) (d : Nat) (was : Bool) (before : List (Nat × Nat)) : s.Shows convFlds (s.afterSensors d was before) := by
  obtain ⟨hband, -, -, -, -, hmargin⟩ := convFlds_covers
  exact (((s.bandUp_shows d).mono hband).trans (State.dieActs_shows _ d)).trans ((State.convTail_shows _ d was before).mono hmargin)

theorem exec_thermalConversion {s : State} (d : Fin 9) (v : BitVec 11) (hao : s.aoUp = true) (htrip : s.thm.tripped = false) {r t : State}
    (hr : r = s.each (List.range (sensorCount d)) fun k s => s.sensorStep d k ⟨true, v⟩) (ht : t = r.afterSensors d (s.dramHot d) s.tempLevels) :
    exec (.thermalConversion d (List.replicate (sensorCount d) ⟨true, v⟩)) s =
      .next (match t.tripping d with | some (k, v) => t.trip d k v | none => t) := by
  rw [ht, hr, ← conv_sensors]
  exact congrArg Host.Outcome.next (if_neg (by simp [hao, htrip]))

/-! A tile's readings and its request. -/

theorem unsgn_sgn (v : BitVec 11) : unsgn 11 (sgn 11 v.toNat) = v.toNat := by
  have := v.isLt
  unfold unsgn sgn
  split <;> omega

theorem P.thmT_ne_trl (d : Nat) : P.thmT d ≠ P.trl := by simp only [P.thmT, P.trl]; omega

theorem State.tileReadings_equal {s t : State} {d : Nat} {v : BitVec 11} (hd : d < 8) (h : s.AllRead d (sgn 11 v.toNat)) (ht : t = s.tileReadings d) :
    t.fld (P.thmT d) F.THM_T_STS_logic_max = v.toNat ∧ t.fld (P.thmT d) F.THM_T_MEAN_valid_logic = 20 ∧ t.fld (P.thmT d) F.THM_T_MEAN_valid_dram = 8 := by
  rw [State.tileReadings, h.logicOf hd, h.dramOf hd, maxOf_replicate 19, maxOf_replicate 7, List.length_replicate, List.length_replicate] at ht
  subst ht
  refine ⟨?_, ?_, State.fld_setFld_of_lt _ _ _ (by decide)⟩
  · rw [State.fld_setFld_apart _ _ _ _ (by decide), State.fld_setFld_apart _ _ _ _ (by decide),
      (((State.Shows.refl [F.THM_T_MEAN_mean] _).showReading (by simp) _ _).fld _ _ (P.thmT_ne_trl d) (by decide) (by decide))]
    rw [State.showReading, State.fld_setFld_apart _ _ _ _ (by decide), State.showReading]
    exact (State.fld_setFld_of_lt _ _ _ (unsgn_lt 11 _)).trans (unsgn_sgn v)
  · rw [State.fld_setFld_apart _ _ _ _ (by decide), State.fld_setFld_of_lt _ _ _ (by decide)]

theorem State.enterHot_state (s : State) (d : Nat) : (s.enterHot d).thmState d = 2 := by
  rw [State.thmState, (s.enterHot_noted d).fld _ _ (P.thmT_ne_trl d) (by decide) (by simp), State.fld_event_apart _ _ _ (by decide)]
  exact State.fld_setFld_of_lt _ _ _ (by decide)

/-- A tile with a reading of 108 °C or more asks for point 0, in HOT. -/
theorem State.requestStep_hot {s t : State} {d : Nat} {x : Int} (hd : d < 8) (h : s.AllRead d x) (hx : 432 ≤ x) (ht : t = s.requestStep d) :
    t.thmReq d = 0 ∧ t.thmState d = 2 := by
  have hhot : ((s.allOf d).any fun v => decide (degC 108 ≤ v)) = true := by
    rw [h.allOf hd]
    exact List.any_eq_true.mpr ⟨x, List.mem_replicate.mpr ⟨by decide, rfl⟩, decide_eq_true hx⟩
  rw [State.requestStep, h.logicOf hd, h.dramOf hd, if_neg (by simp), if_pos hhot] at ht
  subst ht
  refine ⟨State.fld_setFld_of_lt _ _ _ (by decide), ?_⟩
  show (State.setReq _ d 0).fld _ _ = 2
  rw [State.setReq, State.fld_setFld_apart _ _ _ _ (by decide)]
  split
  · next h2 => exact h2
  · exact s.enterHot_state d

theorem tileFlds_kept : ∀ f ∈ [F.THM_T_STS_logic_max, F.THM_T_MEAN_valid_logic, F.THM_T_MEAN_valid_dram], f.inside = true ∧
    (∀ g ∈ requestFlds, f.apart g = true) ∧ (∀ g ∈ [F.PG_INT_STS], f.apart g = true) ∧ ∀ g ∈ marginFlds, f.apart g = true := by decide

/-- What a conversion leaves on a tile's page. -/
theorem State.afterSensors_tile {s t : State} {d : Nat} {v : BitVec 11} (hd : d < 8) (h : s.AllRead d (sgn 11 v.toNat)) {was : Bool} {before : List (Nat × Nat)}
    (ht : t = s.afterSensors d was before) : t.fld (P.thmT d) F.THM_T_STS_logic_max = v.toNat ∧ t.fld (P.thmT d) F.THM_T_MEAN_valid_logic = 20 ∧
      t.fld (P.thmT d) F.THM_T_MEAN_valid_dram = 8 ∧ (432 ≤ sgn 11 v.toNat → t.thmReq d = 0 ∧ t.thmState d = 2) := by
  have hd9 : d < 9 := by omega
  have hsens : ∀ k, k < sensorCount d → ∀ gs : List Fld, gs ⊆ convFlds → ∀ g ∈ gs, (sensorTemp d k).apart g = true ∧ (sensorValid d k).apart g = true :=
    fun k hk gs hgs g hg => convFlds_sensors d hd9 k hk g (hgs hg)
  obtain ⟨hband, hread, hint, hreq, -, -⟩ := convFlds_covers
  have h1 := (s.bandUp_shows d).allRead hd9 (fun k hk => hsens k hk _ hband) h
  have h2 := ((s.bandUp d).tileReadings_shows d).allRead hd9 (fun k hk => hsens k hk _ hread) h1
  have hup : ((s.bandUp d).tileReadings d).Shows [F.PG_INT_STS] (((s.bandUp d).tileReadings d).refreshUp d) := State.setRefresh_shows _ d _
  have h3 := hup.allRead hd9 (fun k hk => hsens k hk _ hint) h2
  obtain ⟨hlm, hvl, hvd⟩ := State.tileReadings_equal hd h1 rfl
  have htail := State.convTail_shows ((s.bandUp d).dieActs d) d was before
  rw [← State.afterSensors, ← ht] at htail
  have hacts : (s.bandUp d).dieActs d = (((s.bandUp d).tileReadings d).refreshUp d).requestStep d := if_pos hd
  have hstep := (((s.bandUp d).tileReadings d).refreshUp d).requestStep_shows d
  rw [← hacts] at hstep
  have hkept : ∀ f ∈ [F.THM_T_STS_logic_max, F.THM_T_MEAN_valid_logic, F.THM_T_MEAN_valid_dram],
      t.fld (P.thmT d) f = ((s.bandUp d).tileReadings d).fld (P.thmT d) f := fun f hf => by
    obtain ⟨hin, har, hai, ham⟩ := tileFlds_kept f hf
    rw [htail.fld _ _ (P.thmT_ne_trl d) hin ham, hstep.fld _ _ (P.thmT_ne_trl d) hin har, hup.fld _ _ (P.thmT_ne_trl d) hin hai]
  refine ⟨(hkept _ (by simp)).trans hlm, (hkept _ (by simp)).trans hvl, (hkept _ (by simp)).trans hvd, fun hx => ?_⟩
  obtain ⟨hr0, hs2⟩ := State.requestStep_hot hd h3 hx hacts
  exact ⟨(htail.fld _ _ (P.thmT_ne_trl d) (by decide) (by decide)).trans hr0, (htail.fld _ _ (P.thmT_ne_trl d) (by decide) (by decide)).trans hs2⟩

/-! Conversions without and with a trip. -/

section Conversion
variable {s : State} {d : Fin 9} {v : BitVec 11} {x : Int} (hx : x = sgn 11 v.toNat) (hlo : -160 ≤ x) (hhi : x ≤ 600)
  (hv : ∀ k, k < sensorCount d → s.flag (thmPage d) (sensorValid d k) = true ∨ (Tab.get sens0 s.thm.sens (32 * d + k)).seen = false)
include hx hlo hhi hv

theorem conv_read {r : State} (hr : r = s.each (List.range (sensorCount d)) fun k s => s.sensorStep d k ⟨true, v⟩) :
    s.SensorsRead d v (sensorCount d) r := by
  subst hx hr
  exact State.SensorsRead.range d.isLt hlo hhi hv (Nat.le_refl _)

theorem conv_allRead {r : State} (hr : r = s.each (List.range (sensorCount d)) fun k s => s.sensorStep d k ⟨true, v⟩) : r.AllRead d x := by
  intro k hk
  obtain ⟨hval, hflag, -⟩ := (conv_read hx hlo hhi hv hr).done k hk
  rw [State.sensor, hflag, hval, hx]
  rfl

end Conversion

theorem tripFlds_free : ∀ d, d < 9 → ∀ f ∈ [F.THM_CFG_trip_logic, F.THM_CFG_trip_dram], f.inside = true ∧
    (∀ g ∈ bandFlds ++ requestFlds ++ floorFlds ++ marginFlds, f.apart g = true) ∧
    ∀ k, k < sensorCount d → f.apart (sensorTemp d k) = true ∧ f.apart (sensorValid d k) = true := by decide +kernel

/-- A tile's readings stand on its own page. -/
theorem State.fld_tileReadings_hub {f : Fld} (hf : f.inside = true) (s : State) (d : Nat) : (s.tileReadings d).fld (P.thm 0) f = s.fld (P.thm 0) f := by
  have hpg : P.thm 0 ≠ P.thmT d := by simp only [P.thmT, P.thm]; omega
  have hshow : ∀ (u : State) (g : Fld) (o : Option Int), g.inside = true → (u.showReading (P.thmT d) g o).fld (P.thm 0) f = u.fld (P.thm 0) f := fun u g o hg => by
    cases o with
    | some v => exact State.fld_setFld_page _ _ _ _ hpg hf hg
    | none => exact State.fld_setFld_page _ _ _ _ hpg hf hg
  rw [State.tileReadings, State.fld_setFld_page _ _ _ _ hpg hf (by decide), State.fld_setFld_page _ _ _ _ hpg hf (by decide), hshow _ _ _ (by decide), hshow _ _ _ (by decide),
    hshow _ _ _ (by decide)]

/-- The thresholds of a trip stay through a conversion. -/
theorem State.fld_afterSensors_trip {s : State} {d : Nat} (hd : d < 9) {f : Fld} (hf : f ∈ [F.THM_CFG_trip_logic, F.THM_CFG_trip_dram]) (was : Bool)
    (before : List (Nat × Nat)) : (s.afterSensors d was before).fld (P.thm 0) f = s.fld (P.thm 0) f := by
  obtain ⟨hin, ha, -⟩ := tripFlds_free d hd f hf
  simp only [List.forall_mem_append] at ha
  obtain ⟨⟨⟨hband, hreq⟩, hfloor⟩, hmargin⟩ := ha
  have hint : ∀ g ∈ [F.PG_INT_STS], f.apart g = true := fun g hg => hband g (by simp only [List.mem_singleton] at hg; simp [hg, bandFlds])
  have hacts : ∀ u : State, (u.dieActs d).fld (P.thm 0) f = u.fld (P.thm 0) f := fun u => by
    rw [State.dieActs]
    split
    · rw [(State.requestStep_shows _ d).fld _ _ (by decide) hin hreq, State.refreshUp, (State.setRefresh_shows _ d _).fld _ _ (by decide) hin hint,
        State.fld_tileReadings_hub hin]
    · exact ((u.floorCause_shows 2).ite (.refl _ u)).fld _ _ (by decide) hin hfloor
  rw [State.afterSensors, (State.convTail_shows _ d was before).fld _ _ (by decide) hin hmargin, hacts, (s.bandUp_shows d).fld _ _ (by decide) hin hband]

theorem thmPage_inj : ∀ d, d < 9 → ∀ e, e < 9 → e ≠ d → thmPage e ≠ thmPage d := by decide

theorem thmPage_ne_trl : ∀ d, d < 9 → thmPage d ≠ P.trl := by decide

/-- What the sensors of all dies read after a conversion, before it may trip. -/
theorem conv_ends {s : State} {d : Fin 9} {v : BitVec 11} {x : Int} (hx : x = sgn 11 v.toNat) (hlo : -160 ≤ x) (hhi : x ≤ 600)
    (hv : ∀ k, k < sensorCount d → s.flag (thmPage d) (sensorValid d k) = true ∨ (Tab.get sens0 s.thm.sens (32 * d + k)).seen = false) {r t : State}
    (hr : r = s.each (List.range (sensorCount d)) fun k s => s.sensorStep d k ⟨true, v⟩) (ht : t = r.afterSensors d (s.dramHot d) s.tempLevels) :
    t.AllRead d x ∧ (∀ f ∈ [F.THM_CFG_trip_logic, F.THM_CFG_trip_dram], t.fld (P.thm 0) f = s.fld (P.thm 0) f) ∧ t.thm.tripped = s.thm.tripped ∧ s.sameBytes t ∧
      (∀ k, k < sensorCount d → Tab.get sens0 t.thm.sens (32 * d + k) = ⟨true, 0⟩) ∧
      ∀ e k, e < 9 → e ≠ d.val → k < sensorCount e → t.sensor e k = s.sensor e k := by
  have hread := conv_read hx hlo hhi hv hr
  have hafter := r.afterSensors_shows d (s.dramHot d) s.tempLevels
  rw [← ht] at hafter
  refine ⟨hafter.allRead d.isLt (convFlds_sensors d d.isLt) (conv_allRead hx hlo hhi hv hr), fun f hf => ?_, ?_, ?_, fun k hk => ?_, fun e k he hne hk => ?_⟩
  · rw [ht, State.fld_afterSensors_trip d.isLt hf, hread.free _ _ (.inr (tripFlds_free d d.isLt f hf).2.2)]
  · obtain ⟨_, _, hr'⟩ := hread.only
    rw [hafter.tripped, hr']
  · obtain ⟨_, _, hr'⟩ := hread.only
    exact (State.sameBytes_of_eq (by rw [hr']) (by rw [hr']) (by rw [hr'])).trans hafter.sameBytes
  · rw [hafter.sens]
    exact (hread.done k hk).2.2
  · obtain ⟨hti, hvi⟩ := sensor_inside e he k hk
    have hpg := thmPage_inj d d.isLt e he hne
    have hap := convFlds_sensors e he k hk
    rw [State.sensor, State.sensor, State.flag_of_fld ((hafter.fld _ _ (thmPage_ne_trl e he) hvi fun g hg => (hap g hg).2).trans (hread.free _ _ (.inl ⟨hpg, hvi⟩))),
      hafter.fld _ _ (thmPage_ne_trl e he) hti fun g hg => (hap g hg).1, hread.free _ _ (.inl ⟨hpg, hti⟩)]

theorem thermalConversion_calm {s : State} {d : Fin 9} {v : BitVec 11} {x : Int} (hx : x = sgn 11 v.toNat) (hlo : -160 ≤ x) (hhi : x ≤ 600) (hao : s.aoUp = true)
    (htrip : s.thm.tripped = false)
    (hv : ∀ k, k < sensorCount d → s.flag (thmPage d) (sensorValid d k) = true ∨ (Tab.get sens0 s.thm.sens (32 * d + k)).seen = false)
    (hl : x < 4 * (s.fld (P.thm 0) F.THM_CFG_trip_logic : Int)) (hm : x < 4 * (s.fld (P.thm 0) F.THM_CFG_trip_dram : Int)) :
    Completes (.thermalConversion d (List.replicate (sensorCount d) ⟨true, v⟩)) s fun t => t.thm.tripped = false ∧ s.sameBytes t ∧
        (∀ k, k < sensorCount d → t.sensor d k = some x ∧ Tab.get sens0 t.thm.sens (32 * d + k) = ⟨true, 0⟩) ∧
        (∀ e k, e < 9 → e ≠ d.val → k < sensorCount e → t.sensor e k = s.sensor e k) ∧
        (d.val < 8 → t.fld (P.thmT d) F.THM_T_STS_logic_max = v.toNat ∧ t.fld (P.thmT d) F.THM_T_MEAN_valid_logic = 20 ∧
          t.fld (P.thmT d) F.THM_T_MEAN_valid_dram = 8 ∧ (432 ≤ x → t.thmReq d = 0 ∧ t.thmState d = 2)) := by
  have hex := exec_thermalConversion d v hao htrip rfl rfl
  obtain ⟨hall, hcfg, htr, hbytes, hsens, hother⟩ := conv_ends hx hlo hhi hv rfl rfl
  rw [hall.tripping_none (by rw [hcfg _ (by simp)]; exact hl) (by rw [hcfg _ (by simp)]; exact hm)] at hex
  refine ⟨_, hex, htr.trans htrip, hbytes, fun k hk => ⟨hall k hk, hsens k hk⟩, hother, fun hd => ?_⟩
  have hr := conv_allRead hx hlo hhi hv rfl
  subst hx
  exact State.afterSensors_tile hd hr rfl

theorem State.trip_dark (s : State) (d k : Nat) (v : Int) : (s.trip d k v).thm.tripped = true ∧ (s.trip d k v).thm.tripPin = true ∧ (s.trip d k v).hubOff = true ∧
    (∀ y, (s.trip d k v).core y = Core.reset) ∧ ∀ p, p < 4 → (s.trip d k v).linkUp p = false :=
  ⟨rfl, rfl, rfl, fun _ => rfl, fun _ hp => State.dark_linkUp _ hp⟩

theorem thermalConversion_trip {s : State} {d : Fin 9} {v : BitVec 11} {x : Int} (hx : x = sgn 11 v.toNat) (hlo : -160 ≤ x) (hhi : x ≤ 600) (hao : s.aoUp = true)
    (htrip : s.thm.tripped = false)
    (hv : ∀ k, k < sensorCount d → s.flag (thmPage d) (sensorValid d k) = true ∨ (Tab.get sens0 s.thm.sens (32 * d + k)).seen = false)
    (hl : 4 * (s.fld (P.thm 0) F.THM_CFG_trip_logic : Int) ≤ x) :
    Completes (.thermalConversion d (List.replicate (sensorCount d) ⟨true, v⟩)) s fun t => t.thm.tripped = true ∧ t.thm.tripPin = true ∧ t.hubOff = true ∧
        (∀ y, t.core y = Core.reset) ∧ ∀ p, p < 4 → t.linkUp p = false := by
  have hex := exec_thermalConversion d v hao htrip rfl rfl
  obtain ⟨hall, hcfg, -⟩ := conv_ends hx hlo hhi hv rfl rfl
  rw [hall.tripping_some (by rw [hcfg _ (by simp)]; exact hl)] at hex
  exact ⟨_, hex, State.trip_dark _ _ _ _⟩

end Sys2Proof.Machine
end

section
/-! Thermal requests, sampling and refresh bands, and the rise evaluation (16 R372, R376, R382, R387; 09 R229). -/
namespace Sys2Proof.Machine

section Requests
variable {s : State} {ti : Fin 8}

theorem throttleStep_lower (hst : s.thmState ti = 1) (hmust : s.mustThrottle ti = true) (hreq : s.thmReq ti < 32) : Completes (.throttleStep ti) s fun t =>
    t.thmReq ti = s.thmReq ti - 1 ∧ s.sameRegs t [fkey (P.thmT ti) F.THM_T_STS_req] ∧ s.sameBytes t := by
  have hex : exec (.throttleStep ti) s = .next (s.setReq ti (s.thmReq ti - 1)) := congrArg Host.Outcome.next (if_pos (by simp [hst, hmust]))
  exact ⟨_, hex, State.fld_setFld_of_lt _ _ _ (lt_of_le_of_lt (Nat.sub_le _ _) hreq), (State.sameRegs.refl s _).setFld (by simp) _, .refl s⟩

theorem throttleReleaseStep_raise (hst : s.thmState ti < 2) (hmay : s.mayRelease ti = true) (hmax : s.maxOpp < 32) :
    Completes (.throttleReleaseStep ti) s fun t => t.thmReq ti = min s.maxOpp (s.thmReq ti + 1) ∧
      (s.maxOpp ≤ s.thmReq ti + 1 → t.thmState ti = 0) ∧ (s.thmReq ti + 1 < s.maxOpp → t.thmState ti = s.thmState ti) ∧ s.sameBytes t := by
  have hset : (s.setReq ti (min s.maxOpp (s.thmReq ti + 1))).thmReq ti = min s.maxOpp (s.thmReq ti + 1) :=
    State.fld_setFld_of_lt _ _ _ (lt_of_le_of_lt (Nat.min_le_left _ _) hmax)
  have hex : exec (.throttleReleaseStep ti) s = .next (if min s.maxOpp (s.thmReq ti + 1) = s.maxOpp then
      (s.setReq ti (min s.maxOpp (s.thmReq ti + 1))).setThmState ti 0 else s.setReq ti (min s.maxOpp (s.thmReq ti + 1))) :=
    congrArg Host.Outcome.next (if_neg (by simp [hmay, hst]))
  by_cases htop : min s.maxOpp (s.thmReq ti + 1) = s.maxOpp
  · rw [if_pos htop] at hex
    exact ⟨_, hex, (State.fld_setFld_apart _ _ _ _ (by decide)).trans hset, fun _ => State.fld_setFld_of_lt _ _ _ (by decide), fun h => by omega, .refl s⟩
  · rw [if_neg htop] at hex
    exact ⟨_, hex, hset, fun h => by omega, fun _ => State.fld_setFld_apart _ _ _ _ (by decide), .refl s⟩

end Requests

/-! Sampling bands. -/

/-- The page and field of a die's sampling band. -/
theorem State.band_eq (s : State) (d : Nat) : s.band d = s.fld (thmPage d) (if d < 8 then F.THM_T_STS_band else F.THM_STS_hub_band) := by
  rw [State.band, thmPage]
  split <;> rfl

theorem State.setBand_band {s : State} {d : Fin 9} {b : Nat} (hb : b < 4) (hne : s.band d ≠ b) :
    (s.setBand d b).band d = b ∧ ∀ e, e < 9 → e ≠ d.val → (s.setBand d b).band e = s.band e := by
  rw [State.setBand, if_neg hne]
  have hother : ∀ e, e < 9 → e ≠ d.val → ∀ u : State, (∀ f : Fld, f.inside = true → u.fld (thmPage e) f = s.fld (thmPage e) f) → u.band e = s.band e :=
    fun e _ _ u hu => by
      rw [State.band_eq, State.band_eq]
      exact hu _ (by split <;> decide)
  split
  · next hd =>
    have hpage : thmPage d = P.thmT d := if_pos hd
    refine ⟨?_, fun e he hed => hother e he hed _ fun f hf => ?_⟩
    · rw [State.band, if_pos hd, State.fld_event_apart _ _ _ (by decide)]
      exact State.fld_setFld_of_lt _ _ _ hb
    · have hpg := thmPage_inj d d.isLt e he hed
      rw [hpage] at hpg
      rw [State.fld_event_page hpg hf, State.fld_setFld_page _ _ _ _ hpg hf (by decide)]
  · next hd =>
    have hpage : thmPage d = P.thm 0 := if_neg hd
    refine ⟨?_, fun e he hed => hother e he hed _ fun f hf => ?_⟩
    · rw [State.band, if_neg hd]
      exact State.fld_setFld_of_lt _ _ _ hb
    · have hpg := thmPage_inj d d.isLt e he hed
      rw [hpage] at hpg
      exact State.fld_setFld_page _ _ _ _ hpg hf (by decide)

theorem samplingBandDrop_lower {s : State} {d : Fin 9} {b : Nat} (hb : b = s.band d) (hb4 : b < 4) (hpos : 0 < b) (hmet : s.bandMet d b 7 = false) :
    Completes (.samplingBandDrop d) s fun t => t.band d = b - 1 ∧ (∀ e, e < 9 → e ≠ d.val → t.band e = s.band e) ∧ s.sameBytes t := by
  have hex : exec (.samplingBandDrop d) s = .next (s.setBand d (b - 1)) := by
    show Host.Outcome.next (if s.band d = 0 ∨ s.bandMet d (s.band d) 7 = true then s else s.setBand d (s.band d - 1)) = _
    rw [← hb, if_neg]
    simp only [hmet, Bool.false_eq_true, or_false]
    omega
  obtain ⟨hown, hother⟩ := State.setBand_band (s := s) (d := d) (b := b - 1) (by omega) (by omega)
  exact ⟨_, hex, hown, hother, (s.setBand_shows d _).sameBytes⟩

/-! Refresh bands. -/

theorem State.setRefresh_band {s : State} {t b : Nat} (hne : s.refreshBand t ≠ b) :
    (s.setRefresh t b).refreshBand t = b ∧ ∀ e, e ≠ t → (s.setRefresh t b).refreshBand e = s.refreshBand e := by
  have hbands : (s.setRefresh t b).bands = Tab.set nat0 s.bands t b := by
    rw [State.setRefresh, if_neg hne]
    exact State.each_keeps (fun u => u.bands = Tab.set nat0 s.bands t b) _ _ _ (fun _ _ u hu => by rw [State.event_bands, hu]) rfl
  refine ⟨?_, fun e he => ?_⟩
  · rw [State.refreshBand, hbands]
    exact Tab.get_set_self nat0 s.bands t b
  · rw [State.refreshBand, hbands]
    exact Tab.get_set_ne nat0 s.bands t e b he

section Refresh
variable {s : State} {ti : Fin 8} {b : Nat} (hb : b = s.refreshBand ti)
include hb

theorem exec_refreshBandFall : exec (.refreshBandFall ti) s = .next (if b = 0 || (s.dramOf ti).isEmpty ||
    (s.dramOf ti).any (fun v => decide (degC (if b = 2 then 92 else 82) < v)) then s else s.setRefresh ti (b - 1)) := by
  subst hb
  rfl

theorem refreshBandFall_lower (hpos : 0 < b) (hsome : s.dramOf ti ≠ []) (hcool : ∀ v ∈ s.dramOf ti, v ≤ degC (if b = 2 then 92 else 82)) :
    Completes (.refreshBandFall ti) s fun t => t.refreshBand ti = b - 1 ∧ (∀ e : Nat, e ≠ ti → t.refreshBand e = s.refreshBand e) ∧ s.sameBytes t := by
  have hex := exec_refreshBandFall hb
  rw [if_neg] at hex
  · obtain ⟨hown, hother⟩ := State.setRefresh_band (s := s) (t := ti) (b := b - 1) (by omega)
    exact ⟨_, hex, hown, hother, (State.setRefresh_shows s ti _).sameBytes⟩
  · have hany : ((s.dramOf ti).any fun v => decide (degC (if b = 2 then 92 else 82) < v)) = false := by
      rw [List.any_eq_false]
      exact fun v hv hhot => absurd (hcool v hv) (not_le.mpr (of_decide_eq_true hhot))
    rw [hany, List.isEmpty_eq_false_iff.mpr hsome, decide_eq_false (by omega : ¬ b = 0)]
    decide

theorem exec_refreshBandFall_stays (h : b = 0 ∨ s.dramOf ti = [] ∨ ∃ v ∈ s.dramOf ti, degC (if b = 2 then 92 else 82) < v) :
    exec (.refreshBandFall ti) s = .next s := by
  rw [exec_refreshBandFall hb, if_pos]
  obtain h | h | ⟨v, hv, hhot⟩ := h
  · simp [h]
  · simp [h]
  · rw [Bool.or_eq_true]
    exact .inr (List.any_eq_true.mpr ⟨v, hv, decide_eq_true hhot⟩)

end Refresh

/-! The rise evaluation. -/

/-- The parts of the state that a rise evaluation settles before it looks at the tiles. -/
def State.riseParts (s : State) : Tab Int × Tab Nat × List RiseRec × Bool × Option Nat × Nat × Bool :=
  (s.thm.sum, s.thm.num, s.thm.hist, s.thm.rising, s.power.lo, s.power.hi, s.power.raised)

theorem State.cycleStep_riseParts (s : State) (t : Nat) (v : Int) : (s.cycleStep t v).riseParts = s.riseParts := by
  rw [State.cycleStep]
  dsimp only
  repeat' split
  all_goals rfl

theorem State.floorCause_riseParts (s : State) (i : Nat) : (s.floorCause i).riseParts = s.riseParts := by
  rw [State.floorCause]
  dsimp only
  split
  · rfl
  · split
    · rfl
    · simp [State.riseParts, State.thermalRec, State.setFlag]

theorem State.riseParts_ite {c : Prop} [Decidable c] {p} {a b : State} (ha : a.riseParts = p) (hb : b.riseParts = p) : (if c then a else b).riseParts = p := by
  split
  · exact ha
  · exact hb

/-- The record of a rise evaluation. -/
def State.riseRec (s : State) : RiseRec := ⟨(List.range 9).map s.dieMean, s.pAvg, s.power.lo.getD s.pAvg, max s.pAvg s.power.hi, s.power.raised⟩

/-- A die rises fast against the oldest of 40 records. -/
def State.riseFast (s : State) : Bool :=
  match s.thm.hist[39]? with
  | some o => (List.range 9).any fun d => s.inService d && risesFast s.riseRec o d
  | none => false

/-- The evaluation settled: its record is the newest, the sums of the last millisecond are empty. -/
def State.riseSettled (s : State) : State :=
  { s with thm := { s.thm with hist := (s.riseRec :: s.thm.hist).take 40, rising := s.riseFast, sum := [], num := [] },
           power := { s.power with lo := none, hi := 0, raised := false } }

theorem exec_riseEvaluation {s : State} (hao : s.aoUp = true) (htrip : s.thm.tripped = false) :
    ∃ t, exec .riseEvaluation s = .next t ∧ t.riseParts = s.riseSettled.riseParts := by
  refine ⟨_, congrArg Host.Outcome.next (if_neg (by simp [hao, htrip])), ?_⟩
  have hcycles : ∀ g : Nat → State → State, (∀ t u, (g t u).riseParts = u.riseParts) → (s.riseSettled.each (List.range 8) g).riseParts = s.riseSettled.riseParts :=
    fun g hg => State.each_keeps (fun u => u.riseParts = s.riseSettled.riseParts) _ _ _ (fun t _ u hu => (hg t u).trans hu) rfl
  have htiles := hcycles (fun t u => match ((List.range 9).map s.dieMean).getD t none with | some v => u.cycleStep t v | none => u) fun t u => by
    split
    · exact State.cycleStep_riseParts _ _ _
    · rfl
  exact State.riseParts_ite ((State.floorCause_riseParts _ 1).trans htiles) htiles

theorem riseEvaluation_settles {s : State} (hao : s.aoUp = true) (htrip : s.thm.tripped = false) : Completes .riseEvaluation s fun t =>
    t.thm.sum = [] ∧ t.thm.num = [] ∧ t.power.lo = none ∧ t.power.hi = 0 ∧
      t.power.raised = false ∧ (∃ r, t.thm.hist = (r :: s.thm.hist).take 40 ∧ r.p = s.pAvg ∧ r.m = (List.range 9).map s.dieMean) ∧
      (s.thm.hist.length < 40 → t.thm.rising = false) ∧ s.sameBytes t := by
  obtain ⟨t, hex, hparts⟩ := exec_riseEvaluation hao htrip
  simp only [State.riseParts, Prod.mk.injEq] at hparts
  obtain ⟨hsum, hnum, hhist, hrising, hlo, hhi, hraised⟩ := hparts
  refine ⟨t, hex, hsum, hnum, hlo, hhi, hraised, ⟨s.riseRec, hhist, rfl, rfl⟩, fun hlen => ?_, State.sameBytes_of_out (execRiseEvaluation_mem s s.mems_memsOf) hex⟩
  rw [hrising]
  show s.riseFast = false
  rw [State.riseFast, List.getElem?_eq_none (by omega)]

/-- Settles O59: conversions by what every sensor of the die then reads, the other rows case by case. -/
theorem thermalResults : Obligations.ThermalResults := by
  unfold Obligations.ThermalResults
  refine ⟨fun s d v x hx hlo hhi hao htrip hv => ⟨thermalConversion_calm hx hlo hhi hao htrip hv, fun hl _ => thermalConversion_trip hx hlo hhi hao htrip hv hl⟩,
    fun s ti d => ⟨throttleStep_lower, fun h => ?_, throttleReleaseStep_raise, fun h => ?_,
      fun b hb hb4 => ⟨samplingBandDrop_lower hb hb4, fun h => ?_⟩, fun b hb => ⟨refreshBandFall_lower hb, exec_refreshBandFall_stays hb⟩,
      riseEvaluation_settles, fun h => ?_⟩⟩
  · refine congrArg Host.Outcome.next (if_neg ?_)
    rcases h with h | h <;> simp [h]
  · refine congrArg Host.Outcome.next (if_pos ?_)
    rcases h with h | h <;> simp [h]
  · subst hb
    exact congrArg Host.Outcome.next (if_pos h)
  · refine congrArg Host.Outcome.next (if_pos ?_)
    rcases h with h | h <;> simp [h]

end Sys2Proof.Machine
end

section
/-! The header's commands of a page (03 R50, R53, R55, R56, R58, R59, R67). -/
namespace Sys2Proof.Machine

/-! Bits. -/

/-- The lowest bit of a conjunction. -/
theorem and_mod_two (x m : Nat) : (x &&& m) % 2 = x % 2 * (m % 2) := by
  have hand : (x &&& m) % 2 ^ 1 = x % 2 ^ 1 &&& m % 2 ^ 1 := Nat.and_mod_two_pow
  have hsmall : ∀ a < 2, ∀ b < 2, a &&& b = a * b := by decide
  exact hand.trans (hsmall _ (Nat.mod_lt _ (by decide)) _ (Nat.mod_lt _ (by decide)))

/-- What is left of `x` without the bits of `m`. -/
theorem testBit_sub_and (x m i : Nat) : (x - (x &&& m)).testBit i = (x.testBit i && !m.testBit i) := by
  have hle : x &&& m ≤ x := Nat.and_le_left
  have hodd := and_mod_two x m
  induction i generalizing x m with
  | zero =>
    generalize x &&& m = a at hle hodd
    simp only [Nat.testBit_zero]
    rcases Nat.mod_two_eq_zero_or_one x with hx | hx <;> rcases Nat.mod_two_eq_zero_or_one m with hm | hm <;> simp [hx, hm] at hodd ⊢ <;> omega
  | succ i ih =>
    have hdiv : (x - (x &&& m)) / 2 = x / 2 - (x / 2 &&& m / 2) := by
      rw [← Nat.and_div_two]
      generalize x &&& m = a at hle hodd
      rcases Nat.mod_two_eq_zero_or_one x with hx | hx <;> rcases Nat.mod_two_eq_zero_or_one m with hm | hm <;> simp [hx, hm] at hodd <;> omega
    rw [Nat.testBit_succ, Nat.testBit_succ, Nat.testBit_succ, hdiv, ih _ _ Nat.and_le_left (and_mod_two _ _)]

/-! The request of one header dword. -/

section
variable {s : State} {rq : Requester} {pg : BitVec 16}

/-- A granted header command reaches its page's header. -/
theorem State.oneDword_of_grants (h : s.grants rq pg.toNat = true) {i : PageInfo} (hi : pageInfo pg.toNat = some i) (hpg : pg.toNat < 0x8000) {off : Nat}
    (hoff : off < 0x040) (hal : off / 4 * 4 = off) (v : Word) : s.oneDword rq pg off v = s.headerWrite pg.toNat i off v.toNat true := by
  obtain ⟨hreach, -⟩ := (s.grants_iff rq pg.toNat).1 h
  have hpage : (pg.toNat * 4096 + off) / 4096 = pg.toNat := by omega
  have hplace : (pg.toNat * 4096 + off) / 4 % 1024 * 4 = off := by omega
  rw [State.oneDword, if_pos hreach, State.landFor_of_grants h, fullDword, State.writeReq_of_grants h _ (by omega) hpage, hplace,
    State.writeDword_of_grants h hi, State.regWrite, if_pos hoff]

/-- A header command of a physical function that is not the owner's is NOT_OWNER (03 R56). -/
theorem State.oneDword_not_owner {p : Fin 4} (hreach : s.reach (.pf p) = true) (hown : p.val ≠ s.owner) (hclear : s.portClear p = true)
    (hpg : pg.toNat < 0x8000) {off : Nat} (hoff : off < 0x040) (hal : off / 4 * 4 = off) (v : Word) :
    s.oneDword (.pf p) pg off v = s.countErr (P.hub 0) 0x06 (0x80 + p.val) (pg.toNat * 4096 + off) := by
  have hland : s.landFor (.pf p) = s := State.landClient_of_portClear hclear
  have haddr : (pg.toNat * 4096 + off) / 4 * 4 = pg.toNat * 4096 + off := by omega
  have hinside : decide (pg.toNat * 4096 + off < 2 ^ 27) = true := decide_eq_true (by omega)
  rw [State.oneDword, if_pos hreach, hland, State.writeReq]
  simp only [fullDword, reqInside, hinside, hown, haddr, ne_eq, not_false_eq_true, decide_true, List.isEmpty_cons, Bool.not_true, Bool.or_self,
    Bool.false_eq_true, if_false, if_true]
  rfl

/-- A tenant's header command at a page of its own that serves. -/
theorem State.oneDword_tenant {n : Fin 128} (h : s.grantsTen (.tenant n) n pg.toNat = true) (hpg : pg.toNat < 16) {i : PageInfo}
    (hi : pageInfo (P.ten n pg.toNat) = some i) (hav : s.unavailable (P.ten n pg.toNat) = false) {off : Nat} (hoff : off < 0x040) (hal : off / 4 * 4 = off)
    (v : Word) : s.oneDword (.tenant n) pg off v = s.tenDword (.tenant n) n (P.ten n pg.toNat) i off v.toNat := by
  simp only [State.grantsTen, Bool.and_eq_true, beq_self_eq_true, true_and, bne_iff_ne] at h
  obtain ⟨⟨⟨hready, hreach⟩, hrst⟩, hclear⟩ := h
  have hland : s.landFor (.tenant n) = s := State.landClient_of_portClear hclear
  have hinside : decide (pg.toNat * 4096 + off < 0x10000) = true := decide_eq_true (by omega)
  have hpage : (pg.toNat * 4096 + off) / 4096 = pg.toNat := by omega
  have hplace : (pg.toNat * 4096 + off) / 4 % 1024 * 4 = off := by omega
  have htile : s.tileBusy (P.ten n pg.toNat) = false := by
    have hnone : pageTile (P.ten n pg.toNat) = none := if_neg (by unfold P.ten; omega)
    rw [State.tileBusy, hnone]
  have hspan : spanOk (pg.toNat * 4096 + off) 1 = true := by
    simp only [spanOk, Bool.and_eq_true, decide_eq_true_eq]
    omega
  have hrst' : (s.tnState n == 3) = false := beq_eq_false_iff_ne.2 hrst
  rw [State.oneDword, if_pos hreach, hland, State.writeReq]
  simp [fullDword, reqInside, reqPage, hinside, hpage, hplace, htile, hspan, hready, hrst, State.writeDwords, State.writeDword, hi, hav]

end

/-! What the header commands do. -/

theorem State.intClear_only (s : State) (pg mask v : Nat) :
    ∃ t, s.intClear pg mask v = t ∧ t.regs = (s.setFld pg F.PG_INT_STS (s.fld pg F.PG_INT_STS - (s.fld pg F.PG_INT_STS &&& v &&& mask))).regs := by
  refine ⟨_, rfl, ?_⟩
  unfold State.intClear
  dsimp only
  split
  · rw [State.raiseInt_eq]
  · rfl

theorem State.fld_of_regs {s t : State} (h : t.regs = s.regs) (pg : Nat) (f : Fld) : t.fld pg f = s.fld pg f := by rw [State.fld, State.fld, h]

/-- A field of 32 bits, bit by bit. -/
theorem bitOf_fld_setFld {b : Nat} (hb : b < 32) (s : State) (pg v : Nat) : bitOf ((s.setFld pg F.PG_INT_STS v).fld pg F.PG_INT_STS) b = bitOf v b := by
  rw [State.fld_setFld_self, bitOf_eq_testBit, bitOf_eq_testBit]
  exact (Nat.testBit_mod_two_pow _ _ _).trans (by simp [hb, show F.PG_INT_STS.len = 32 from rfl])

theorem intClear_bits (s : State) (pg mask v : Nat) :
    s.sameRegs (s.intClear pg mask v) [fkey pg F.PG_INT_STS] ∧
    ∀ b, b < 32 → bitOf ((s.intClear pg mask v).fld pg F.PG_INT_STS) b = (bitOf (s.fld pg F.PG_INT_STS) b && !(bitOf v b && bitOf mask b)) := by
  obtain ⟨t, ht, hregs⟩ := State.intClear_only s pg mask v
  rw [ht]
  refine ⟨((State.sameRegs.refl s _).setFld (List.mem_singleton_self _) _).trans (State.sameRegs_of_regs hregs _), fun b hb => ?_⟩
  rw [State.fld_of_regs hregs, bitOf_fld_setFld hb, Nat.and_assoc, bitOf_eq_testBit, testBit_sub_and, Nat.testBit_and]
  simp only [bitOf_eq_testBit]

theorem setInts_bits (s : State) (pg mask v : Nat) :
    s.sameRegs (s.setInts pg (v &&& mask)) [fkey pg F.PG_INT_STS] ∧
    ∀ b, b < 32 → bitOf ((s.setInts pg (v &&& mask)).fld pg F.PG_INT_STS) b = (bitOf (s.fld pg F.PG_INT_STS) b || (bitOf v b && bitOf mask b)) := by
  have hregs : (s.setInts pg (v &&& mask)).regs = (s.setFld pg F.PG_INT_STS (s.fld pg F.PG_INT_STS ||| (v &&& mask))).regs := by rw [State.setInts_eq]
  refine ⟨((State.sameRegs.refl s _).setFld (List.mem_singleton_self _) _).trans (State.sameRegs_of_regs hregs _), fun b hb => ?_⟩
  rw [State.fld_of_regs hregs, bitOf_fld_setFld hb]
  simp only [bitOf_eq_testBit, Nat.testBit_or, Nat.testBit_and]

/-- Arming the fault capture again frees the page's own capture as well, on a KVW or an ATU page. -/
theorem errRearm_shows (s : State) {pg : Nat} {i : PageInfo} (hi : pageInfo pg = some i) :
    (s.errRearm pg).flag pg F.PG_ERR_FIRST_valid = false ∧
    s.sameRegs (s.errRearm pg) [fkey pg F.PG_ERR_FIRST_valid, fkey pg F.KVW_FAULT_valid, fkey pg F.ATU_FAULT_valid] ∧
    (i.layout = .kvw → (s.errRearm pg).flag pg F.KVW_FAULT_valid = false) ∧ (i.layout = .atu → (s.errRearm pg).flag pg F.ATU_FAULT_valid = false) ∧
    ∃ r, s.errRearm pg = { s with regs := r } := by
  have hfirst : (s.setFlag pg F.PG_ERR_FIRST_valid false).flag pg F.PG_ERR_FIRST_valid = false := State.flag_setFlag_self _ _ (by decide) _
  have hbase := (State.sameRegs.refl s [fkey pg F.PG_ERR_FIRST_valid, fkey pg F.KVW_FAULT_valid, fkey pg F.ATU_FAULT_valid]).setFld
    (pg := pg) (f := F.PG_ERR_FIRST_valid) (by simp) (b2n false)
  simp only [State.errRearm, hi]
  split
  · next hkvw =>
    refine ⟨(State.flag_setFlag_apart _ _ _ (by decide) _).trans hfirst, hbase.setFld (by simp) _, fun _ => State.flag_setFlag_self _ _ (by decide) _, fun hatu => ?_, _, rfl⟩
    rw [hkvw] at hatu
    cases hatu
  · next hkvw =>
    split
    · next hatu =>
      exact ⟨(State.flag_setFlag_apart _ _ _ (by decide) _).trans hfirst, hbase.setFld (by simp) _, fun h => absurd h hkvw,
        fun _ => State.flag_setFlag_self _ _ (by decide) _, _, rfl⟩
    · next hatu => exact ⟨hfirst, hbase, fun h => absurd h hkvw, fun h => absurd h hatu, _, rfl⟩

/-- A tenant may write neither PG_INT_FORCE: its command counts TENANT_DENIED and sets nothing (03 R58). -/
theorem tenDword_intForce (s : State) {n : Fin 128} {pg : BitVec 16} (hpg : pg.toNat < 16) (i : PageInfo) {v : Word}
    (hv : v &&& BitVec.ofNat 32 i.layout.intMask ≠ 0) :
    s.tenDword (.tenant n) n (P.ten n pg.toNat) i 0x01C v.toNat = s.tenErr n (P.ten n pg.toNat) 0x01 n (pg.toNat * 4096 + 0x01C) := by
  have hmask : v.toNat &&& i.layout.intMask ≠ 0 := fun h0 => hv <| BitVec.eq_of_toNat_eq <| by
    have hlt : i.layout.intMask < 2 ^ 32 := by
      unfold Layout.intMask Layout.events
      split <;> decide
    rw [BitVec.toNat_and, BitVec.toNat_ofNat, Nat.mod_eq_of_lt hlt, h0]
    rfl
  have hdenied : s.denied (P.ten n pg.toNat) i 0x01C v.toNat = true := by
    show ((v.toNat &&& i.layout.intMask) != (0 &&& i.layout.intMask)) = true
    rw [Nat.zero_and, bne_iff_ne]
    exact hmask
  have haddr : accessAddr (.tenant n) (P.ten n pg.toNat) 0x01C = pg.toNat * 4096 + 0x01C := by
    show (P.ten n pg.toNat - 0x400) % 16 * 4096 + 0x01C = _
    unfold P.ten
    omega
  rw [State.tenDword, hdenied, if_pos rfl, haddr]
  rfl

theorem tenDword_errClr (s : State) (n : Fin 128) (pg : Nat) (i : PageInfo) : s.tenDword (.tenant n) n pg i 0x00C 0x80000000 = s.setFld pg F.PG_ERR_CNT 0 := by
  have hallowed : s.denied pg i 0x00C 0x80000000 = false := by
    show ((0x80000000 &&& 0) != (s.header pg i 0x00C true &&& 0)) = false
    rw [Nat.and_zero, Nat.and_zero]
    rfl
  have hclr : bitOf 0x80000000 31 = true := by decide
  have harm : bitOf 0x80000000 30 = false := by decide
  rw [State.tenDword, hallowed]
  have hctl : s.ctlWrite pg 0x80000000 = s.setFld pg F.PG_ERR_CNT 0 := by
    rw [State.ctlWrite, hclr, harm]
    rfl
  simp only [Bool.false_eq_true, if_false, State.regWrite, State.headerWrite, hctl, Nat.reduceLT, if_true]

/-- Settles O41: a granted command reaches the header of its page, where each has its one effect; a tenant's own page takes the commands that R58 leaves it. -/
theorem pageHeaderCommands : Obligations.PageHeaderCommands := by
  unfold Obligations.PageHeaderCommands
  intro s rq pg i v
  refine ⟨fun hg hi hlt => ⟨?_, ?_, ?_, ?_, ?_⟩, fun n hg hlt hi hav => ⟨?_, fun hv => ?_⟩, fun p hreach hown hclear hlt => ⟨?_, ?_⟩⟩
  · exact ⟨_, congrArg Host.Outcome.next (State.oneDword_of_grants hg hi hlt (by decide) (by decide) _), errRearm_shows s hi⟩
  · exact congrArg Host.Outcome.next (State.oneDword_of_grants hg hi hlt (by decide) (by decide) _)
  · exact ⟨_, congrArg Host.Outcome.next (State.oneDword_of_grants hg hi hlt (by decide) (by decide) _), intClear_bits s _ _ _⟩
  · exact ⟨_, congrArg Host.Outcome.next (State.oneDword_of_grants hg hi hlt (by decide) (by decide) _), setInts_bits s _ _ _⟩
  · exact congrArg Host.Outcome.next (State.oneDword_of_grants hg hi hlt (by decide) (by decide) _)
  · exact congrArg Host.Outcome.next ((State.oneDword_tenant hg hlt hi hav (by decide) (by decide) _).trans (tenDword_errClr s n _ i))
  · exact congrArg Host.Outcome.next ((State.oneDword_tenant hg hlt hi hav (by decide) (by decide) _).trans (tenDword_intForce s hlt i hv))
  · exact congrArg Host.Outcome.next (State.oneDword_not_owner hreach hown hclear hlt (by decide) (by decide) _)
  · exact congrArg Host.Outcome.next (State.oneDword_not_owner hreach hown hclear hlt (by decide) (by decide) _)

end Sys2Proof.Machine
end

section
/-! The fields of a register: they lie at different places, and a write of a dword gives each the value of its access code (03 R58, R59). -/
namespace Sys2Proof.Machine

/-! The fields at one offset. -/

/-- Two rows of a register table have a register in common. -/
def FldRow.meets (r r' : FldRow) : Bool :=
  if r.stride = 0 then r'.atOff r.off else (List.range r.cnt).any fun k => r'.atOff (r.off + r.stride * k)

theorem FldRow.meets_of_atOff {r r' : FldRow} {off : Nat} (h : r.atOff off = true) (h' : r'.atOff off = true) : r.meets r' = true := by
  unfold FldRow.atOff at h
  unfold FldRow.meets
  by_cases hstride : r.stride = 0
  · rw [if_pos hstride, beq_iff_eq] at h
    rw [if_pos hstride, ← h]
    exact h'
  · rw [if_neg hstride] at h
    simp only [Bool.and_eq_true, decide_eq_true_eq, beq_iff_eq] at h
    obtain ⟨⟨hle, hmod⟩, hcnt⟩ := h
    have hmul := Nat.div_add_mod (off - r.off) r.stride
    rw [if_neg hstride]
    refine List.any_eq_true.2 ⟨(off - r.off) / r.stride, List.mem_range.2 hcnt, ?_⟩
    rw [show r.off + r.stride * ((off - r.off) / r.stride) = off by omega]
    exact h'

/-- The first bits of a row's fields in a register. -/
def FldRow.los (r : FldRow) : List Nat := (List.range r.bcnt).map fun u => r.lo + r.bstride * u

/-- The rows' fields do not meet and lie in their register. -/
def rowsApart (rows : List FldRow) : Prop :=
  rows.Pairwise (fun r r' => r.meets r' = true → ∀ a ∈ r.los, a ∉ r'.los) ∧ ∀ r ∈ rows, r.los.Nodup ∧ ∀ a ∈ r.los, a < 32

theorem Layout.rows_apart (l : Layout) : rowsApart l.rows := by
  unfold rowsApart
  cases l <;> decide +kernel

theorem rowsApart.filter {rows : List FldRow} (h : rowsApart rows) (off : Nat) :
    (rows.filter (·.atOff off)).Pairwise fun r r' => ∀ a ∈ r.los, a ∉ r'.los := by
  have hkeep := h.1.filter (·.atOff off)
  refine hkeep.imp_of_mem fun {r r'} hr hr' hmeet => hmeet ?_
  exact FldRow.meets_of_atOff (List.mem_filter.1 hr).2 (List.mem_filter.1 hr').2

theorem Layout.at_sublist (l : Layout) (off : Nat) : (l.at off).Sublist (l.rows.filter (·.atOff off)) := by
  unfold Layout.at
  split
  · exact List.nil_sublist _
  · exact List.Sublist.refl _

theorem FldRow.mem_flds {r : FldRow} {off : Nat} {f : Fld} (h : f ∈ r.flds off) : f.off = off ∧ f.lo ∈ r.los := by
  simp only [FldRow.flds, List.mem_map] at h
  obtain ⟨u, hu, rfl⟩ := h
  exact ⟨rfl, List.mem_map.2 ⟨u, hu, rfl⟩⟩

/-- The fields of a register stand at it, inside it. -/
theorem Layout.fldsAt_inside (l : Layout) {off : Nat} {e : FldRow × Fld} (h : e ∈ l.fldsAt off) : e.2.off = off ∧ e.2.lo < 32 := by
  simp only [Layout.fldsAt, List.mem_flatMap, List.mem_map] at h
  obtain ⟨r, hr, f, hf, rfl⟩ := h
  obtain ⟨hoff, hlo⟩ := FldRow.mem_flds hf
  have hrow : r ∈ l.rows := (List.mem_filter.1 ((l.at_sublist off).subset hr)).1
  exact ⟨hoff, (l.rows_apart.2 r hrow).2 _ hlo⟩

/-- No two fields of a register begin at one bit. -/
theorem Layout.fldsAt_pairwise (l : Layout) (off : Nat) : (l.fldsAt off).Pairwise fun e e' => e.2.lo ≠ e'.2.lo := by
  have hrows := (l.rows_apart.filter off).sublist (l.at_sublist off)
  refine List.pairwise_flatMap.2 ⟨fun r hr => ?_, ?_⟩
  · have hnodup : r.los.Nodup := (l.rows_apart.2 r (List.mem_filter.1 ((l.at_sublist off).subset hr)).1).1
    rw [List.pairwise_map, FldRow.flds, List.pairwise_map]
    exact List.pairwise_map.1 hnodup
  · refine hrows.imp fun {r r'} hapart e he e' he' heq => ?_
    obtain ⟨f, hf, rfl⟩ := List.mem_map.1 he
    obtain ⟨g, hg, rfl⟩ := List.mem_map.1 he'
    obtain ⟨-, hlo⟩ := FldRow.mem_flds hf
    obtain ⟨-, hlo'⟩ := FldRow.mem_flds hg
    exact hapart _ hlo (by rw [show f.lo = g.lo from heq]; exact hlo')

theorem fkey_ne_of_lo {e e' : FldRow × Fld} (he : e.2.lo < 32) (he' : e'.2.lo < 32) (hoff : e.2.off = e'.2.off) (h : e.2.lo ≠ e'.2.lo) (pg : Nat) :
    fkey pg e.2 ≠ fkey pg e'.2 := by
  unfold fkey
  omega

/-- The keys of a register's fields are distinct. -/
theorem Layout.fldsAt_keys (l : Layout) (pg off : Nat) : (l.fldsAt off).Pairwise fun e e' => fkey pg e.2 ≠ fkey pg e'.2 := by
  refine (l.fldsAt_pairwise off).imp_of_mem fun {e e'} he he' h => ?_
  obtain ⟨hoff, hlo⟩ := l.fldsAt_inside he
  obtain ⟨hoff', hlo'⟩ := l.fldsAt_inside he'
  exact fkey_ne_of_lo hlo hlo' (hoff.trans hoff'.symm) h pg

/-- A field of the header is no field of a register of the block. -/
theorem Layout.fldsAt_ne_header (l : Layout) {off : Nat} (hoff : 0x040 ≤ off) (hlt : off < 4096) {e : FldRow × Fld} (he : e ∈ l.fldsAt off) {f : Fld}
    (hf : f.off < 0x040) (hflo : f.lo < 32) (p q : Nat) : fkey p f ≠ fkey q e.2 := by
  obtain ⟨ho, hlo⟩ := l.fldsAt_inside he
  unfold fkey
  omega

/-! The write of a dword. -/

/-- What a field of a given access code holds once the bits `x` were written to it. -/
def Acc.take (a : Acc) (locked : Bool) (len old x : Nat) : Nat :=
  match a with
  | .rw => x % 2 ^ len
  | .rwl => if locked then old else x % 2 ^ len
  | .w1c => (old - (old &&& x)) % 2 ^ len
  | _ => old

/-- The write of one field (R58, R59). -/
def State.fieldTake (locked : Bool) (pg v : Nat) (e : FldRow × Fld) (s : State) : State :=
  match e.1.priv with
  | .rw => s.setFld pg e.2 (e.2.of v)
  | .rwl => if locked then s else s.setFld pg e.2 (e.2.of v)
  | .w1c => s.setFld pg e.2 (s.fld pg e.2 - (s.fld pg e.2 &&& e.2.of v))
  | _ => s

theorem State.fieldsWrite_eq (s : State) (rq : Requester) (pg : Nat) (i : PageInfo) (off v : Nat) :
    s.fieldsWrite rq pg i off v = (if s.lockHits pg i off v then s.countErr pg 0x03 (rqCode rq) (accessAddr rq pg off) else s).each (i.layout.fldsAt off)
      (State.fieldTake (s.flag pg F.PG_LOCK_locked) pg v) := rfl

section
variable (locked : Bool) (pg v : Nat) (e : FldRow × Fld) (s : State)

theorem State.fld_fieldTake_self : (State.fieldTake locked pg v e s).fld pg e.2 = e.1.priv.take locked e.2.len (s.fld pg e.2) (e.2.of v) := by
  unfold State.fieldTake Acc.take
  cases e.1.priv with
  | rw => exact State.fld_setFld_self _ _ _ _
  | rwl =>
    cases locked with
    | true => rfl
    | false => exact State.fld_setFld_self _ _ _ _
  | w1c => exact State.fld_setFld_self _ _ _ _
  | _ => rfl

theorem State.fieldTake_only : s.FldsOnly (State.fieldTake locked pg v e s) := by
  unfold State.fieldTake
  cases e.1.priv with
  | rwl =>
    cases locked with
    | true => exact .refl s
    | false => exact (State.FldsOnly.refl s).setFld _ _ _
  | rw | w1c => exact (State.FldsOnly.refl s).setFld _ _ _
  | _ => exact .refl s

theorem State.fld_fieldTake_ne {p : Nat} {f : Fld} (h : fkey p f ≠ fkey pg e.2) : (State.fieldTake locked pg v e s).fld p f = s.fld p f := by
  unfold State.fieldTake
  cases e.1.priv with
  | rwl =>
    cases locked with
    | true => rfl
    | false => exact State.fld_setFld_ne _ _ _ _ _ _ h
  | rw | w1c => exact State.fld_setFld_ne _ _ _ _ _ _ h
  | _ => rfl

end

section
variable (locked : Bool) (pg v : Nat) {l : List (FldRow × Fld)}

theorem State.fieldTakes_only (s : State) (l : List (FldRow × Fld)) : s.FldsOnly (s.each l (State.fieldTake locked pg v)) :=
  State.each_keeps (fun u => s.FldsOnly u) s l _ (fun e _ u hu => hu.trans (State.fieldTake_only locked pg v e u)) (.refl s)

theorem State.fld_fieldTakes_ne {p : Nat} {f : Fld} (h : ∀ e ∈ l, fkey p f ≠ fkey pg e.2) (s : State) :
    (s.each l (State.fieldTake locked pg v)).fld p f = s.fld p f :=
  State.each_keeps (fun u => u.fld p f = s.fld p f) s l _ (fun e he u hu => (State.fld_fieldTake_ne locked pg v e u (h e he)).trans hu) rfl

/-- Each of the fields takes its own bits. -/
theorem State.fld_fieldTakes (h : l.Pairwise fun e e' => fkey pg e.2 ≠ fkey pg e'.2) (s : State) {e : FldRow × Fld} (he : e ∈ l) :
    (s.each l (State.fieldTake locked pg v)).fld pg e.2 = e.1.priv.take locked e.2.len (s.fld pg e.2) (e.2.of v) := by
  induction l generalizing s with
  | nil => cases he
  | cons a l ih =>
    obtain ⟨hhead, htail⟩ := List.pairwise_cons.1 h
    rw [State.each_cons]
    rcases List.mem_cons.1 he with rfl | hmem
    · rw [State.fld_fieldTakes_ne locked pg v (fun e' he' => hhead e' he'), State.fld_fieldTake_self]
    · rw [ih htail _ hmem, State.fld_fieldTake_ne locked pg v a s fun hk => hhead e hmem hk.symm]

end

/-- A dword that changes no locked field writes the fields of its register, and nothing else. -/
theorem State.fieldsWrite_open {s : State} {pg off v : Nat} {i : PageInfo} (h : s.lockHits pg i off v = false) (rq : Requester) :
    (∀ e ∈ i.layout.fldsAt off, (s.fieldsWrite rq pg i off v).fld pg e.2 =
      e.1.priv.take (s.flag pg F.PG_LOCK_locked) e.2.len (s.fld pg e.2) (e.2.of v)) ∧
    s.sameRegs (s.fieldsWrite rq pg i off v) ((i.layout.fldsAt off).map fun e => fkey pg e.2) ∧ s.FldsOnly (s.fieldsWrite rq pg i off v) := by
  rw [State.fieldsWrite_eq, h]
  simp only [Bool.false_eq_true, if_false]
  refine ⟨fun e he => State.fld_fieldTakes _ pg v (i.layout.fldsAt_keys pg off) s he, fun p f hk => ?_, State.fieldTakes_only _ pg v s _⟩
  exact State.fld_fieldTakes_ne _ pg v (fun e he hkey => hk (List.mem_map.2 ⟨e, he, hkey.symm⟩)) s

end Sys2Proof.Machine
end

section
/-! The management mailbox (17 R396, R397, R399): a request that is taken is answered, kept and carried out; what was sent stays sent. -/
namespace Sys2Proof.Machine

/-! What was sent stays sent. -/

/-- Everything that `s` had sent, `t` has sent. -/
def State.Sends (s t : State) : Prop := s.outs ⊆ t.outs

section
variable {s t u : State}

theorem State.Sends.refl (s : State) : s.Sends s := List.Subset.refl _
theorem State.Sends.trans (h1 : s.Sends t) (h2 : t.Sends u) : s.Sends u := List.Subset.trans h1 h2
theorem State.Sends.of_eq (h : t.outs = s.outs) : s.Sends t := by rw [State.Sends, h]; exact List.Subset.refl _

theorem State.Sends.ite {c : Prop} [Decidable c] (h1 : s.Sends t) (h2 : s.Sends u) : s.Sends (if c then t else u) := by
  split
  · exact h1
  · exact h2

theorem State.Sends.each {α : Type} {l : List α} {g : α → State → State} (h : ∀ a ∈ l, ∀ u : State, u.Sends (g a u)) : s.Sends (s.each l g) :=
  State.each_keeps (fun u => s.Sends u) s l g (fun a ha u hu => hu.trans (h a ha u)) (.refl s)

theorem State.emit_sends (s : State) (o : Out) : s.Sends (s.emit o) := fun _ h => State.mem_outs_emit h o

theorem State.msix_sends (s : State) (k v : Nat) : s.Sends (s.msix k v) := fun _ h => State.mem_outs_msix h k v

theorem State.raiseInt_sends (s : State) (pg : Nat) : s.Sends (s.raiseInt pg) := by
  unfold State.raiseInt
  split
  · exact (s.msix_sends _ _).ite (.refl s)
  · split
    · exact .refl s
    · exact (((s.msix_sends _ _).ite (.refl s)).trans (State.emit_sends _ _)).ite ((s.msix_sends _ _).ite (.refl s))

theorem State.event_sends (s : State) (pg bit : Nat) : s.Sends (s.event pg bit) := by
  have hset : s.Sends (s.setFld pg F.PG_INT_STS (s.fld pg F.PG_INT_STS ||| 2 ^ bit)) := .refl s
  exact (hset.trans (State.raiseInt_sends _ pg)).ite hset

/-- A state that has sent no less and then raises an event. -/
theorem State.Sends.event (h : s.Sends t) (pg bit : Nat) : s.Sends (t.event pg bit) := h.trans (t.event_sends pg bit)

theorem State.Sends.setFld (h : s.Sends t) (pg : Nat) (f : Fld) (v : Nat) : s.Sends (t.setFld pg f v) := h

theorem State.trailPut_sends (s : State) (typ block sev : Nat) (payload : List Nat) : s.Sends (s.trailPut typ block sev payload) := by
  have hlost : s.Sends { s with trail := { s.trail with lost := s.trail.lost + 1 } } := .of_eq rfl
  unfold State.trailPut
  split
  · exact .of_eq rfl
  · exact (hlost.setFld P.trl F.TRL_STS_dropped _).event _ _

theorem State.Sends.trailPut (h : s.Sends t) (typ block sev : Nat) (payload : List Nat) : s.Sends (t.trailPut typ block sev payload) :=
  h.trans (t.trailPut_sends typ block sev payload)

theorem State.countErr_sends (s : State) (pg code rq addr : Nat) : s.Sends (s.countErr pg code rq addr) := by
  have hcount : s.Sends (s.satFld pg F.PG_ERR_CNT 1) := .refl s
  exact (hcount.ite (((((hcount.setFld pg F.PG_ERR_FIRST_code code).setFld pg F.PG_ERR_FIRST_requester rq).setFld pg F.PG_ERR_FIRST_valid (b2n true)).setFld pg
    F.PG_ERR_ADDR_LO addr).setFld pg F.PG_ERR_ADDR_HI (addr / 2 ^ 32))).event pg 31

end

/-! A request that is taken. -/

/-- `u` is `s` with the answer `o` sent and its request kept. -/
def State.Answered (o : Out) (s u : State) : Prop := ∃ K x i, u = { s with mgt := { s.mgt with kept := K }, outs := o :: s.outs, transit := x, ideSent := i }

theorem State.fmcSend_answered (s : State) (f : Fmc) (cmd : Nat) (body : List Nat) (a : FmcAns) :
    s.Answered (.fmc (srcKey f.src) cmd f.id.toNat a.status a.data) (s.fmcSend f cmd body a) := by
  unfold State.fmcSend
  dsimp only
  split
  · exact ⟨_, _, _, rfl⟩
  · exact ⟨_, _, _, rfl⟩

theorem State.fmcRun_of_takes {s : State} {f : Fmc} {cmd : Nat} (h : s.takes f cmd = true) (body : List Nat) (k : State → FmcAns) :
    s.fmcRun f cmd body k = (k s).act (s.fmcSend f cmd body (k s)) := by
  simp only [State.takes, Bool.and_eq_true, Option.isNone_iff_eq_none, Bool.not_eq_true'] at h
  obtain ⟨⟨hup, hkept⟩, hroom⟩ := h
  simp [State.fmcRun, hup, hkept, hroom]

theorem State.mgtUp_of_takes {s : State} {f : Fmc} {cmd : Nat} (h : s.takes f cmd = true) : s.mgtUp = true := by
  simp only [State.takes, Bool.and_eq_true] at h
  exact h.1.1

/-- A request that is taken sends its answer; what it then does starts from the state that has sent it. -/
theorem replies_of_takes {c : Instr} {s : State} {f : Fmc} {cmd : Nat} {body : List Nat} {k : State → FmcAns} {P : State → Prop} {status : Nat}
    {data : List Nat} {act : State → State}
    (hrun : exec c s = .next (s.fmcRun f cmd body k)) (h : s.takes f cmd = true) (hk : k s = ⟨status, data, act⟩)
    (hact : ∀ u, s.Answered (.fmc (srcKey f.src) cmd f.id.toNat status data) u → u.Sends (act u) ∧ P (act u)) :
    Replies c s f cmd status data P := by
  have hans := s.fmcSend_answered f cmd body ⟨status, data, act⟩
  obtain ⟨hsent, hP⟩ := hact _ hans
  refine ⟨act (s.fmcSend f cmd body ⟨status, data, act⟩), by rw [hrun, State.fmcRun_of_takes h, hk], hsent ?_, hP⟩
  obtain ⟨_, _, _, hu⟩ := hans
  rw [hu]
  exact List.mem_cons_self

/-- A request that carries out nothing leaves everything but the mailbox's own state. -/
theorem State.Answered.regs {o : Out} {s u : State} (h : s.Answered o u) : u.regs = s.regs := by
  obtain ⟨_, _, _, rfl⟩ := h
  rfl

theorem State.Answered.sameBytes {o : Out} {s u : State} (h : s.Answered o u) : s.sameBytes u := by
  obtain ⟨_, _, _, rfl⟩ := h
  exact .refl s

theorem State.Answered.sameRegs {o : Out} {s u : State} (h : s.Answered o u) (ks : List Nat) : s.sameRegs u ks := State.sameRegs_of_regs h.regs ks

/-! Register reads and writes through the mailbox. -/

theorem State.readReg_outs (s : State) (pg : Nat) (i : PageInfo) (off : Nat) (tenant : Bool) : (s.readReg pg i off tenant).2.outs = s.outs := by
  have hfc : s.fcSnap.outs = s.outs := State.each_keeps (fun u => u.outs = s.outs) _ _ _ (fun _ _ _ hu => hu) rfl
  unfold State.readReg
  split
  · rfl
  · dsimp only
    split
    · split
      · rfl
      · split <;> rfl
    · split
      · exact hfc
      · rfl

theorem State.readDword_outs (s : State) (pg off : Nat) (tenant : Bool) : (s.readDword pg off tenant).2.outs = s.outs := by
  unfold State.readDword
  split
  · rfl
  · split
    · rfl
    · exact State.readReg_outs _ _ _ _ _

theorem State.readDwords_outs (s : State) (pg off : Nat) (tenant : Bool) (n : Nat) : (s.readDwords pg off tenant n).2.outs = s.outs := by
  induction n generalizing s off with
  | zero => rfl
  | succ n ih => exact (ih _ _).trans (State.readDword_outs s pg off tenant)

theorem State.readDwords_sameBytes (s : State) (pg off : Nat) (tenant : Bool) (n : Nat) : s.sameBytes (s.readDwords pg off tenant n).2 :=
  State.sameBytes_of_mems (State.readDwords_mem s pg off tenant n s.mems_memsOf)

/-- The mailbox's register reads (03 R66; 17 R397). -/
theorem exec_regRead_serves {s : State} {f : Fmc} (h : s.takes f 2 = true) {addr : BitVec 28} {n : Nat} (hspan : fmcSpan addr.toNat n = true)
    (hidle : s.tileBusy (addr.toNat / 4096) = false) :
    Replies (.regRead f addr n) s f 2 0 (s.readDwords (addr.toNat / 4096) (addr.toNat / 4 % 1024 * 4) false n).1 fun t => s.sameBytes t := by
  have hrun : exec (.regRead f addr n) s = .next (s.fmcRead f addr.toNat n) :=
    congrArg Host.Outcome.next (if_neg (by rw [hidle, Bool.and_false]; exact Bool.false_ne_true))
  refine replies_of_takes hrun h (if_neg (by rw [hspan]; exact Bool.false_ne_true)) fun u hu => ⟨.of_eq (State.readDwords_outs _ _ _ _ _), ?_⟩
  exact hu.sameBytes.trans (State.readDwords_sameBytes _ _ _ _ _)

theorem exec_regRead_held {s : State} {f : Fmc} (h : s.takes f 2 = true) {addr : BitVec 28} {n : Nat} (hspan : fmcSpan addr.toNat n = true)
    (hbusy : s.tileBusy (addr.toNat / 4096) = true) :
    exec (.regRead f addr n) s = .next (s.hold (addr.toNat / 4096) (.mailbox f addr.toNat n)) := by
  simp only [State.takes, Bool.and_eq_true, Bool.not_eq_true'] at h
  obtain ⟨⟨hup, -⟩, hroom⟩ := h
  exact congrArg Host.Outcome.next (if_pos (by rw [hup, hroom, hspan, hbusy]; rfl))

theorem exec_regRead_invalid {s : State} {f : Fmc} (h : s.takes f 2 = true) {addr : BitVec 28} {n : Nat} (hspan : fmcSpan addr.toNat n = false) :
    Replies (.regRead f addr n) s f 2 2 [] fun t => s.sameRegs t [] := by
  have hrun : exec (.regRead f addr n) s = .next (s.fmcRead f addr.toNat n) :=
    congrArg Host.Outcome.next (if_neg (by rw [hspan, Bool.and_false, Bool.false_and]; exact Bool.false_ne_true))
  exact replies_of_takes (act := id) hrun h (if_pos (by rw [hspan]; rfl)) fun u hu => ⟨.refl u, hu.sameRegs []⟩

end Sys2Proof.Machine
end

section
/-! Mailbox commands without a signature (17 R396, R397, R399; 14 R343; 16 R389), the nonce's expiry and the bus addresses (R394). -/
namespace Sys2Proof.Machine

/-! Register writes through the mailbox. -/

section
variable {s u : State} {o : Out} (hu : s.Answered o u)
include hu

theorem State.Answered.grants {pg : Nat} (h : s.grants .mgt pg = true) : u.grants .mgt pg = true := by
  obtain ⟨_, _, _, rfl⟩ := hu
  exact h

theorem State.Answered.lockHits (pg : Nat) (i : PageInfo) (off v : Nat) : u.lockHits pg i off v = s.lockHits pg i off v := by
  obtain ⟨_, _, _, rfl⟩ := hu
  rfl

theorem State.Answered.fld (pg : Nat) (f : Fld) : u.fld pg f = s.fld pg f := State.fld_of_regs hu.regs pg f

end

theorem State.FldsOnly.sameBytes {s t : State} (h : s.FldsOnly t) : s.sameBytes t := by
  obtain ⟨_, rfl⟩ := h
  exact .refl s

theorem State.FldsOnly.sends {s t : State} (h : s.FldsOnly t) : s.Sends t := by
  obtain ⟨_, rfl⟩ := h
  exact .refl s

theorem exec_regWrite_run (f : Fmc) (addr : BitVec 28) (ws : List RegDword) (s : State) :
    exec (.regWrite f addr ws) s = .next (s.fmcRun f 0x03 (addr.toNat :: regBody ws) fun _ =>
      ⟨if fmcSpan addr.toNat ws.length then 0 else 2, [], fun s => s.writeReq .mgt addr.toNat ws⟩) := rfl

/-- A register write of one dword whose page serves and whose register has no effect of its own. -/
theorem exec_regWrite_fields {s : State} {f : Fmc} (h : s.takes f 3 = true) {addr : BitVec 28} {pg off : Nat} {i : PageInfo} {w : Word}
    (hi : pageInfo pg = some i) (hg : s.grants .mgt pg = true) (hal : off % 4 = 0) (hlow : 0x040 ≤ off) (hoff : off < 4096)
    (haddr : addr.toNat = pg * 4096 + off) (hlt : addr.toNat < 2 ^ 27)
    (hhook : ∀ u, u = s.fmcSend f 3 (addr.toNat :: regBody [⟨15, w⟩]) ⟨0, [], id⟩ → u.hook .mgt pg i off (i.layout.keep off w.toNat) = none)
    (hlock : s.lockHits pg i off (i.layout.keep off w.toNat) = false) :
    Replies (.regWrite f addr [⟨15, w⟩]) s f 3 0 [] fun t => s.sameBytes t ∧ s.sameRegs t ((i.layout.fldsAt off).map fun e => fkey pg e.2) ∧
      ∀ e ∈ i.layout.fldsAt off, t.fld pg e.2 =
        e.1.priv.take (s.flag pg F.PG_LOCK_locked) e.2.len (s.fld pg e.2) (e.2.of (i.layout.keep off w.toNat)) := by
  have hspan : fmcSpan addr.toNat 1 = true := by
    simp only [fmcSpan, spanOk, Bool.and_eq_true, decide_eq_true_eq]
    omega
  have hans := s.fmcSend_answered f 3 (addr.toNat :: regBody [⟨15, w⟩]) ⟨0, [], id⟩
  have hnone := hhook _ rfl
  have hrun : exec (.regWrite f addr [⟨15, w⟩]) s =
      .next ((s.fmcSend f 3 (addr.toNat :: regBody [⟨15, w⟩]) ⟨0, [], id⟩).writeReq .mgt addr.toNat [⟨15, w⟩]) := by
    rw [exec_regWrite_run, State.fmcRun_of_takes h]
    simp only [List.length_singleton, hspan, if_true]
    rfl
  generalize s.fmcSend f 3 (addr.toNat :: regBody [⟨15, w⟩]) ⟨0, [], id⟩ = u at hans hnone hrun
  have hpage : addr.toNat / 4096 = pg := by omega
  have hplace : addr.toNat / 4 % 1024 * 4 = off := by omega
  have hwrite : u.writeReq .mgt addr.toNat [⟨15, w⟩] = u.fieldsWrite .mgt pg i off (i.layout.keep off w.toNat) := by
    rw [State.writeReq_of_grants (hans.grants hg) _ hlt hpage, hplace, State.writeDword_of_grants (hans.grants hg) hi, State.regWrite,
      if_neg (Nat.not_lt.2 hlow)]
    dsimp only
    rw [hnone]
  rw [hwrite] at hrun
  obtain ⟨htake, hkeep, honly⟩ := State.fieldsWrite_open ((hans.lockHits pg i off _).trans hlock) .mgt
  refine ⟨_, hrun, honly.sends ?_, hans.sameBytes.trans honly.sameBytes, (hans.sameRegs _).trans hkeep, fun e he => ?_⟩
  · obtain ⟨_, _, _, rfl⟩ := hans
    exact List.mem_cons_self
  · rw [htake e he, hans.fld, State.flag, hans.fld]
    rfl

/-- A write that R64 does not perform, of no dword or outside the view, is INVALID and touches nothing. -/
theorem exec_regWrite_invalid {s : State} {f : Fmc} (h : s.takes f 3 = true) {addr : BitVec 28} {ws : List RegDword} (hspan : fmcSpan addr.toNat ws.length = false)
    (hout : ws = [] ∨ 2 ^ 27 ≤ addr.toNat) :
    Replies (.regWrite f addr ws) s f 3 2 [] fun t => s.sameRegs t [] ∧ s.sameBytes t := by
  have hnothing : ∀ u : State, u.writeReq .mgt addr.toNat ws = u := fun u => by
    have hskip : (ws.isEmpty || !reqInside .mgt addr.toNat || false) = true := by
      rcases hout with rfl | hfar
      · rfl
      · have hin : reqInside .mgt addr.toNat = false := decide_eq_false (Nat.not_lt.2 hfar)
        rw [hin, Bool.not_false, Bool.or_true, Bool.true_or]
    exact if_pos hskip
  refine replies_of_takes (act := fun u => u.writeReq .mgt addr.toNat ws) (exec_regWrite_run f addr ws s) h ?_ fun u hu => ?_
  · rw [hspan]
    rfl
  · show u.Sends (u.writeReq .mgt addr.toNat ws) ∧ s.sameRegs (u.writeReq .mgt addr.toNat ws) [] ∧ s.sameBytes (u.writeReq .mgt addr.toNat ws)
    rw [hnothing]
    exact ⟨.refl u, hu.sameRegs [], hu.sameBytes⟩

/-- A mailbox write is the write of the requester MGT, once its answer has gone out. -/
theorem exec_regWrite_as_request {s : State} {f : Fmc} (h : s.takes f 3 = true) (addr : BitVec 28) (ws : List RegDword) :
    ∃ u, (∃ mg o tr ids, u = { s with mgt := mg, outs := o, transit := tr, ideSent := ids }) ∧
      .fmc (srcKey f.src) 3 f.id.toNat (if fmcSpan addr.toNat ws.length then 0 else 2) [] ∈ u.outs ∧
      exec (.regWrite f addr ws) s = exec (.registerWrite (.req .mgt) addr ws false) u := by
  have hao : s.aoUp = true := by
    have hup := State.mgtUp_of_takes h
    rw [State.mgtUp, Bool.and_eq_true] at hup
    exact hup.1
  have hans := s.fmcSend_answered f 3 (addr.toNat :: regBody ws) ⟨if fmcSpan addr.toNat ws.length then 0 else 2, [], fun s => s.writeReq .mgt addr.toNat ws⟩
  have hrun : exec (.regWrite f addr ws) s = .next ((s.fmcSend f 3 (addr.toNat :: regBody ws)
      ⟨if fmcSpan addr.toNat ws.length then 0 else 2, [], fun s => s.writeReq .mgt addr.toNat ws⟩).writeReq .mgt addr.toNat ws) :=
    (exec_regWrite_run f addr ws s).trans (congrArg Host.Outcome.next (State.fmcRun_of_takes h _ _))
  generalize s.fmcSend f 3 (addr.toNat :: regBody ws) _ = u at hans hrun
  obtain ⟨K, x, i, hu⟩ := hans
  have hreach : u.reach .mgt = true := by
    rw [hu]
    exact hao
  refine ⟨u, ⟨_, _, _, _, hu⟩, ?_, hrun.trans (congrArg Host.Outcome.next ?_)⟩
  · rw [hu]
    exact List.mem_cons_self
  · show _ = u.writeFrom .mgt addr.toNat ws false
    rw [State.writeFrom, hreach]
    rfl

/-! Resets by management. -/

theorem State.rerun_sends (s : State) : s.Sends s.rerun := by
  obtain ⟨_, hr⟩ := s.rerun_only
  exact .of_eq (by rw [hr]; rfl)

theorem State.rerun_slots (s : State) : s.rerun.trail.slots = s.trail.slots := by
  obtain ⟨_, hr⟩ := s.rerun_only
  rw [hr]
  rfl

theorem State.rerun_hubOff (s : State) : s.rerun.hubOff = false := by
  obtain ⟨_, hr⟩ := s.rerun_only
  rw [hr]
  rfl

theorem State.trailPut_slots (s : State) (typ block sev : Nat) (payload : List Nat) : (s.trailPut typ block sev payload).trail.slots = s.trail.slots := by
  unfold State.trailPut
  split
  · rfl
  · rw [State.event_trail]
    rfl

/-- A Trail record changes no field but those that tell of the queue. -/
theorem State.fld_trailPut_apart {f : Fld} (hbusy : f.apart F.TRL_STS_busy = true) (hlost : f.apart F.TRL_STS_dropped = true) (hint : f.apart F.PG_INT_STS = true)
    (s : State) (pg typ block sev : Nat) (payload : List Nat) : (s.trailPut typ block sev payload).fld pg f = s.fld pg f := by
  unfold State.trailPut
  split
  · exact State.fld_setFlag_apart _ _ _ hbusy _
  · rw [State.fld_event_apart _ _ _ hint, State.fld_satFld_apart hlost]
    rfl

/-- A warm reset outside a cooling shutdown: the Trail stands, and the boot count rises. -/
theorem State.warmReset_boot {s : State} (hcool : s.inShutdown = false) (hfree : s.stuck = false) :
    s.Sends s.warmReset ∧ s.warmReset.ready = false ∧ s.warmReset.stage = 2 ∧ s.warmReset.trail.slots = s.trail.slots ∧
      s.warmReset.fld P.trl F.TRL_BOOTCNT_value = (s.fld P.trl F.TRL_BOOTCNT_value + 1) % 2 ^ 32 := by
  have hgo : s.warmReset = (s.trailPut 0x0A 0x01 1 [0]).rerun := if_neg (by rw [hcool, hfree]; exact Bool.false_ne_true)
  obtain ⟨hstage, hready, -, hcount⟩ := (s.trailPut 0x0A 0x01 1 [0]).rerun_boot
  rw [hgo]
  exact ⟨(s.trailPut_sends _ _ _ _).trans (State.rerun_sends _), hready, hstage, (State.rerun_slots _).trans (s.trailPut_slots _ _ _ _),
    by rw [hcount, State.fld_trailPut_apart (by decide) (by decide) (by decide)]⟩

section
variable {s u : State} {o : Out} (hu : s.Answered o u)
include hu

theorem State.Answered.inShutdown : u.inShutdown = s.inShutdown := by
  obtain ⟨_, _, _, rfl⟩ := hu
  rfl

theorem State.Answered.stuck : u.stuck = s.stuck := by
  obtain ⟨_, _, _, rfl⟩ := hu
  rfl

theorem State.Answered.trail : u.trail = s.trail := by
  obtain ⟨_, _, _, rfl⟩ := hu
  rfl

theorem State.Answered.rails : u.power.rails = s.power.rails := by
  obtain ⟨_, _, _, rfl⟩ := hu
  rfl

end

theorem exec_devReset_runs {s : State} {f : Fmc} (h : s.takes f 5 = true) (hcool : s.inShutdown = false) (hfree : s.stuck = false) :
    Replies (.devReset f) s f 5 0 [] fun t => t.ready = false ∧ t.stage = 2 ∧ t.trail.slots = s.trail.slots ∧
      t.fld P.trl F.TRL_BOOTCNT_value = (s.fld P.trl F.TRL_BOOTCNT_value + 1) % 2 ^ 32 := by
  refine replies_of_takes (act := State.warmReset) rfl h (if_neg (by rw [hcool, hfree]; exact Bool.false_ne_true)) fun u hu => ?_
  obtain ⟨hsent, hready, hstage, hslots, hcount⟩ := State.warmReset_boot (hu.inShutdown.trans hcool) (hu.stuck.trans hfree)
  exact ⟨hsent, hready, hstage, by rw [hslots, hu.trail], by rw [hcount, hu.fld]⟩

theorem exec_restart_runs {s : State} {f : Fmc} (h : s.takes f 6 = true) (hcool : s.inShutdown = true) (hoff : s.hubOff = true) (hfree : s.stuck = false)
    (hrails : s.power.rails % 16 = 0) :
    Replies (.restart f) s f 6 0 [] fun t => t.hubOff = false ∧ t.stage = 2 ∧ t.inShutdown = false ∧ t.trail.slots = s.trail.slots ∧
      t.fld P.trl F.TRL_BOOTCNT_value = (s.fld P.trl F.TRL_BOOTCNT_value + 1) % 2 ^ 32 := by
  refine replies_of_takes (act := State.leaveShutdown) rfl h (if_pos (by rw [hcool, hoff, hfree]; rfl)) fun u hu => ?_
  have hgo : u.leaveShutdown = u.rerun := if_pos (by rw [hu.rails, hrails])
  obtain ⟨hstage, -, hrun, hcount⟩ := u.rerun_boot
  rw [hgo]
  exact ⟨u.rerun_sends, u.rerun_hubOff, hstage, hrun, by rw [u.rerun_slots, hu.trail], by rw [hcount, hu.fld]⟩

/-! The cached answers. -/

theorem exec_trailRead_kept {s : State} {f : Fmc} {e : FmcKept} (hup : s.mgtUp = true) (hkept : s.fmcKept f 4 = some e) (slot : Fin 4096) (k : Fin 64) :
    (e.cmd = 4 → e.body = [slot.val, k.val] → exec (.trailRead f slot k) s =
      .next ((s.satFld P.mgt F.MGT_CNT_cached 1).emit (.fmc (srcKey f.src) 4 e.id e.status e.data))) ∧
    (e.cmd ≠ 4 ∨ e.body ≠ [slot.val, k.val] → exec (.trailRead f slot k) s = .next (s.emit (.fmc (srcKey f.src) 4 e.id 2 []))) := by
  have hrun : exec (.trailRead f slot k) s = .next (if e.cmd = 4 ∧ e.body = [slot.val, k.val] then
      (s.satFld P.mgt F.MGT_CNT_cached 1).emit (.fmc (srcKey f.src) 4 e.id e.status e.data) else s.emit (.fmc (srcKey f.src) 4 e.id 2 [])) := by
    show Host.Outcome.next (s.fmcRun f 0x04 [slot.val, k.val] _) = _
    simp only [State.fmcRun, hup, hkept, Bool.not_true, Bool.false_eq_true, if_false]
  refine ⟨fun hcmd hbody => hrun.trans (congrArg Host.Outcome.next (if_pos ⟨hcmd, hbody⟩)), fun hother => hrun.trans (congrArg Host.Outcome.next (if_neg ?_))⟩
  rintro ⟨hcmd, hbody⟩
  exact hother.elim (· hcmd) (· hbody)

/-- A message that finds the MGT compartments full is answered BUSY. -/
theorem exec_eventSub_full {s : State} {f : Fmc} (hfull : f.src.full = true) (hup : s.mgtUp = true) (hkept : s.fmcKept f 7 = none) (eid : Fin 256) :
    Replies (.eventSub f eid) s f 7 1 [] fun t => t.regs = s.regs := by
  have hans := s.fmcSend_answered f 7 [eid.val] (FmcAns.only 1)
  refine ⟨s.fmcSend f 7 [eid.val] (FmcAns.only 1), ?_, ?_, hans.regs⟩
  · show Host.Outcome.next (s.fmcRun f 0x07 [eid.val] _) = _
    simp [State.fmcRun, hup, hkept, hfull]
  · obtain ⟨_, _, _, hu⟩ := hans
    rw [hu]
    exact List.mem_cons_self

theorem State.nonce_setNonce (s : State) (k : Nat) (v : Option (List Byte)) : Tab.get nonce0 (s.setNonce k v).mgt.nonces k = v :=
  Tab.get_set_self nonce0 s.mgt.nonces k v

theorem exec_getNonce {s : State} {f : Fmc} (h : s.takes f 1 = true) :
    Completes (.getNonce f) s fun t => ∃ nc, nc.length = 48 ∧ Tab.get nonce0 t.mgt.nonces (srcKey f.src) = some nc ∧
      .fmc (srcKey f.src) 1 f.id.toNat 0 (nc.map (·.toNat)) ∈ t.outs ∧ t.regs = s.regs := by
  have hreply : Replies (.getNonce f) s f 1 0 (s.freshNonce.map (·.toNat)) fun t =>
      Tab.get nonce0 t.mgt.nonces (srcKey f.src) = some s.freshNonce ∧ t.regs = s.regs :=
    replies_of_takes rfl h rfl fun u hu => ⟨.of_eq rfl, u.nonce_setNonce _ _, hu.regs⟩
  obtain ⟨t, ht, hsent, hnonce, hregs⟩ := hreply
  exact ⟨t, ht, _, by simp [State.freshNonce], hnonce, hsent, hregs⟩

/-! MCTP and the bus. -/

theorem exec_mctpControl_setEid {s : State} (hup : s.mgtUp = true) (m : MctpSrc) {e : Fin 256} (hlo : 0 < e.val) (hhi : e.val < 255) :
    exec (.mctpControl m (.setEid e)) s =
      .next ((s.setFld P.mgt (if m.smb then F.MGT_STS_eid_smb else F.MGT_STS_eid_i3c) e).emit (.mctp (srcKey m) [0, e])) := by
  have hgood : ¬(e.val = 0 ∨ e.val = 255) := by omega
  exact congrArg Host.Outcome.next ((if_neg (by rw [hup]; exact Bool.false_ne_true)).trans (if_neg hgood))

theorem exec_mctpControl_getEid {s : State} (hup : s.mgtUp = true) (m : MctpSrc) :
    exec (.mctpControl m .getEid) s =
      .next (s.emit (.mctp (srcKey m) [0, s.fld P.mgt (if m.smb then F.MGT_STS_eid_smb else F.MGT_STS_eid_i3c)])) :=
  congrArg Host.Outcome.next (if_neg (by rw [hup]; exact Bool.false_ne_true))

theorem exec_i3cAddressAssign {s : State} (hup : s.mgtUp = true) (st : Option (BitVec 7)) (da : BitVec 7) :
    ((∀ a, st = some a → a.toNat = s.busAddr) → exec (.i3cAddressAssign ⟨st, da⟩) s = .next (s.setFld P.mgt F.MGT_STS_i3c_da da.toNat)) ∧
    ((∃ a, st = some a ∧ a.toNat ≠ s.busAddr) → exec (.i3cAddressAssign ⟨st, da⟩) s = .next s) := by
  refine ⟨fun hmine => ?_, ?_⟩
  · cases st with
    | none => exact congrArg Host.Outcome.next (if_pos (by rw [hup]; rfl))
    | some a => exact congrArg Host.Outcome.next (if_pos (by rw [hup, Bool.true_and]; exact beq_iff_eq.2 (hmine a rfl)))
  · rintro ⟨a, rfl, hother⟩
    exact congrArg Host.Outcome.next (if_neg (by rw [hup, Bool.true_and]; exact fun h => hother (beq_iff_eq.1 h)))

/-- Settles O45: a command that is taken sends its answer and is then carried out from the state that has sent it. -/
theorem mailboxResults : Obligations.MailboxResults := by
  unfold Obligations.MailboxResults
  intro s f addr n ws slot k eid m
  refine ⟨fun h => ⟨exec_regRead_serves h, exec_regRead_held h, exec_regRead_invalid h⟩,
    fun h => ⟨fun pg off i w hi hg hal hlow hoff haddr hlt hhook hlock => exec_regWrite_fields h hi hg hal hlow hoff haddr hlt hhook hlock,
      exec_regWrite_invalid h, exec_regWrite_as_request h addr ws⟩,
    exec_getNonce, ?_, fun h => ?_, fun e hup hkept u hu => ?_, fun h => ⟨exec_devReset_runs h, fun hcool => ?_⟩,
    fun h => ⟨exec_restart_runs h, fun hcool => ?_⟩, fun h => ?_, fun hup => ⟨fun e => exec_mctpControl_setEid hup m, exec_mctpControl_getEid hup m,
      exec_i3cAddressAssign hup⟩, fun hfull hup hkept => exec_eventSub_full hfull hup hkept eid⟩
  · exact ⟨_, rfl, s.nonce_setNonce _ _, rfl, fun j hj => Tab.get_set_ne nonce0 s.mgt.nonces _ j none hj⟩
  · exact replies_of_takes (act := id) rfl h rfl fun u hu => ⟨.refl u, hu.trail, hu.regs⟩
  · subst hu
    exact exec_trailRead_kept hup hkept slot k
  · exact replies_of_takes (act := id) rfl h (if_pos (by rw [hcool]; rfl)) fun u hu => ⟨.refl u, hu.regs⟩
  · exact replies_of_takes (act := id) rfl h (if_neg (by rw [hcool]; exact Bool.false_ne_true)) fun u hu => ⟨.refl u, hu.regs⟩
  · exact replies_of_takes rfl h rfl fun u hu => ⟨.of_eq rfl, rfl, hu.regs⟩

end Sys2Proof.Machine
end

section
/-! Signed commands (17 R398, R404; 06 R126; 14 R344): what a command that passes does, what refuses one, and the end of a fuse write. -/
namespace Sys2Proof.Machine

/-- `t` is `s` but for the mailbox's own state and what was sent. -/
def State.MgtOnly (s t : State) : Prop := ∃ mg o x i, t = { s with mgt := mg, outs := o, transit := x, ideSent := i }

theorem State.Answered.mgtOnly {s u : State} {o : Out} (h : s.Answered o u) : s.MgtOnly u := by
  obtain ⟨_, _, _, rfl⟩ := h
  exact ⟨_, _, _, _, rfl⟩

theorem State.MgtOnly.setNonce {s u : State} (h : s.MgtOnly u) (k : Nat) (v : Option (List Byte)) : s.MgtOnly (u.setNonce k v) := by
  obtain ⟨_, _, _, _, rfl⟩ := h
  exact ⟨_, _, _, _, rfl⟩

section
variable {s u : State} (h : s.MgtOnly u)
include h

theorem State.MgtOnly.regs : u.regs = s.regs := by
  obtain ⟨_, _, _, _, rfl⟩ := h
  rfl

theorem State.MgtOnly.fld (pg : Nat) (f : Fld) : u.fld pg f = s.fld pg f := State.fld_of_regs h.regs pg f

theorem State.MgtOnly.owner : u.owner = s.owner := h.fld _ _

theorem State.MgtOnly.keeps : u.board = s.board ∧ u.boot = s.boot ∧ u.trail = s.trail ∧ u.subs = s.subs ∧ s.sameBytes u := by
  obtain ⟨_, _, _, _, rfl⟩ := h
  exact ⟨rfl, rfl, rfl, rfl, .refl s⟩

end

/-! The checks of R398. -/

section
variable {s : State} {f : Fmc} {cmd : Nat} {body : List Nat} {g : Signed} {k : State → FmcAns}

theorem State.signed_of_authentic (hidle : s.board.fuseWrite = none) (h : s.authentic f cmd body g = true) :
    s.signed f.src (signedMsg f cmd body g) g k =
      if (k s).status = 0 then ⟨0, (k s).data, fun u => ((k s).act (u.setNonce (srcKey f.src) none)).event P.mgt 0⟩
      else ⟨(k s).status, (k s).data, fun u => u.setNonce (srcKey f.src) none⟩ := by
  simp only [State.authentic, Bool.and_eq_true, beq_iff_eq] at h
  obtain ⟨⟨hnonce, hkey⟩, hsig⟩ := h
  simp only [State.signed, hidle, hnonce, hkey, hsig, Option.isSome_none, Bool.not_true, Bool.false_eq_true, if_false, ne_eq, not_true_eq_false]

variable {c : Instr} {P : State → Prop}

/-- A signed command that passes and succeeds. -/
theorem replies_of_authentic {data : List Nat} {act : State → State} (hrun : exec c s = .next (s.fmcSigned f cmd body g k)) (ht : s.takes f cmd = true)
    (hidle : s.board.fuseWrite = none) (h : s.authentic f cmd body g = true) (hk : k s = ⟨0, data, act⟩)
    (hact : ∀ u, s.MgtOnly u → Tab.get nonce0 u.mgt.nonces (srcKey f.src) = none → u.Sends (act u) ∧ P ((act u).event Machine.P.mgt 0)) :
    Replies c s f cmd 0 data P := by
  refine replies_of_takes (act := fun u => (act (u.setNonce (srcKey f.src) none)).event Machine.P.mgt 0) hrun ht ?_ fun u hu => ?_
  · rw [State.signed_of_authentic hidle h, hk]
    rfl
  · obtain ⟨hsent, hP⟩ := hact _ (hu.mgtOnly.setNonce _ none) (u.nonce_setNonce _ none)
    exact ⟨State.Sends.event hsent _ _, hP⟩

/-- A signed command that passes and is refused: it has used its nonce. -/
theorem replies_of_authentic_refused {st : Nat} (hrun : exec c s = .next (s.fmcSigned f cmd body g k)) (ht : s.takes f cmd = true)
    (hidle : s.board.fuseWrite = none) (h : s.authentic f cmd body g = true) (hk : k s = FmcAns.only st) (hst : st ≠ 0)
    (hP : ∀ u, s.MgtOnly u → Tab.get nonce0 u.mgt.nonces (srcKey f.src) = none → P u) : Replies c s f cmd st [] P := by
  refine replies_of_takes (act := fun u => u.setNonce (srcKey f.src) none) hrun ht ?_ fun u hu => ⟨.of_eq rfl, hP _ (hu.mgtOnly.setNonce _ none) (u.nonce_setNonce _ none)⟩
  rw [State.signed_of_authentic hidle h, hk]
  exact if_neg hst

/-! What refuses a signed command before it runs. -/

theorem State.authFail_keeps (u : State) (code : Nat) : u.Sends (u.authFail code) ∧ (u.authFail code).board = u.board ∧ (u.authFail code).owner = u.owner ∧
    (u.authFail code).trail = u.trail ∧ (u.authFail code).mgt = u.mgt ∧
    (u.authFail code).fld Machine.P.mgt F.PG_ERR_CNT = min 65535 (u.fld Machine.P.mgt F.PG_ERR_CNT + 1) ∧
    (u.authFail code).fld Machine.P.mgt F.MGT_SEC_unlocked = u.fld Machine.P.mgt F.MGT_SEC_unlocked := by
  have hcount := u.countErr_sends Machine.P.mgt code 0x88 0
  refine ⟨State.Sends.event (hcount.setFld _ _ _) _ _, ?_, ?_, ?_, ?_, ?_, ?_⟩
  · simp [State.authFail, State.satFld]
  · rw [State.owner, State.authFail, State.fld_event_apart _ _ _ (by decide), State.fld_satFld_apart (by decide), State.fld_countErr_own _ _ _ (by decide)]
    rfl
  · simp [State.authFail, State.satFld]
  · simp [State.authFail, State.satFld]
  · rw [State.authFail, State.fld_event_apart _ _ _ (by decide), State.fld_satFld_apart (by decide), State.errCnt_countErr]
  · rw [State.authFail, State.fld_event_apart _ _ _ (by decide), State.fld_satFld_apart (by decide), State.fld_countErr_own _ _ _ (by decide)]

theorem replies_of_fuseWrite (hrun : exec c s = .next (s.fmcSigned f cmd body g k)) (ht : s.takes f cmd = true) (hbusy : s.board.fuseWrite ≠ none) :
    Replies c s f cmd 1 [] fun t => t.board = s.board ∧ t.owner = s.owner ∧ t.trail = s.trail := by
  refine replies_of_takes (act := id) hrun ht (if_pos (Option.isSome_iff_ne_none.2 hbusy)) fun u hu => ⟨.refl u, ?_⟩
  obtain ⟨hboard, -, htrail, -⟩ := hu.mgtOnly.keeps
  exact ⟨hboard, hu.mgtOnly.owner, htrail⟩

theorem replies_of_stale_nonce (hrun : exec c s = .next (s.fmcSigned f cmd body g k)) (ht : s.takes f cmd = true) (hidle : s.board.fuseWrite = none)
    (hnonce : Tab.get nonce0 s.mgt.nonces (srcKey f.src) ≠ some g.nonce) :
    Replies c s f cmd 5 [] fun t => t.board = s.board ∧ t.owner = s.owner ∧ t.trail = s.trail ∧
      t.fld Machine.P.mgt F.PG_ERR_CNT = min 65535 (s.fld Machine.P.mgt F.PG_ERR_CNT + 1) := by
  refine replies_of_takes (act := fun u => u.authFail 0x41) hrun ht ?_ fun u hu => ?_
  · simp only [State.signed, hidle, Option.isSome_none, Bool.false_eq_true, if_false, ne_eq, hnonce, not_false_eq_true, if_true]
  · obtain ⟨hboard, -, htrail, -⟩ := hu.mgtOnly.keeps
    obtain ⟨hsent, hb, ho, hl, -, hcnt, -⟩ := u.authFail_keeps 0x41
    exact ⟨hsent, hb.trans hboard, ho.trans hu.mgtOnly.owner, hl.trans htrail, by rw [hcnt, hu.fld]⟩

theorem replies_of_bad_key (hrun : exec c s = .next (s.fmcSigned f cmd body g k)) (ht : s.takes f cmd = true) (hidle : s.board.fuseWrite = none)
    (hnonce : Tab.get nonce0 s.mgt.nonces (srcKey f.src) = some g.nonce) (hkey : s.keyGood g.slot g.key = false) :
    Replies c s f cmd 4 [] fun t => t.board = s.board ∧ t.owner = s.owner ∧ t.trail = s.trail := by
  refine replies_of_takes (act := fun u => u.authFail 0x40) hrun ht ?_ fun u hu => ?_
  · simp only [State.signed, hidle, hnonce, hkey, Option.isSome_none, Bool.false_eq_true, if_false, ne_eq, not_true_eq_false, Bool.not_false, if_true]
  · obtain ⟨hboard, -, htrail, -⟩ := hu.mgtOnly.keeps
    obtain ⟨hsent, hb, ho, hl, -⟩ := u.authFail_keeps 0x40
    exact ⟨hsent, hb.trans hboard, ho.trans hu.mgtOnly.owner, hl.trans htrail⟩

theorem replies_of_bad_signature (hrun : exec c s = .next (s.fmcSigned f cmd body g k)) (ht : s.takes f cmd = true) (hidle : s.board.fuseWrite = none)
    (hnonce : Tab.get nonce0 s.mgt.nonces (srcKey f.src) = some g.nonce) (hkey : s.keyGood g.slot g.key = true)
    (hsig : Config.ecdsaP384 g.key (Config.sha384 (signedMsg f cmd body g)) g.sig = false) :
    Replies c s f cmd 4 [] fun t => t.board = s.board ∧ t.owner = s.owner ∧ Tab.get nonce0 t.mgt.nonces (srcKey f.src) = none := by
  refine replies_of_takes (act := fun u => (u.setNonce (srcKey f.src) none).authFail 0x40) hrun ht ?_ fun u hu => ?_
  · simp only [State.signed, hidle, hnonce, hkey, hsig, Option.isSome_none, Bool.false_eq_true, if_false, ne_eq, not_true_eq_false, Bool.not_true, Bool.not_false, if_true]
  · have hmgt := hu.mgtOnly.setNonce (srcKey f.src) none
    obtain ⟨hboard, -⟩ := hmgt.keeps
    obtain ⟨hsent, hb, ho, -, hm, -⟩ := (u.setNonce (srcKey f.src) none).authFail_keeps 0x40
    exact ⟨State.Sends.trans (.of_eq rfl) hsent, hb.trans hboard, ho.trans hmgt.owner, by rw [hm, u.nonce_setNonce]⟩

end

/-! Ownership moves. -/

/-- What the blocks behind the hub leave: the fields of HUB page 0 but its events, what was sent, and the mailbox. -/
structure State.HubKept (s t : State) : Prop where
  fld : ∀ f : Fld, f.inside = true → f.apart F.PG_INT_STS = true → t.fld (P.hub 0) f = s.fld (P.hub 0) f
  sent : s.Sends t
  mgt : t.mgt = s.mgt

section
variable {s t u : State}

theorem State.HubKept.refl (s : State) : s.HubKept s := ⟨fun _ _ _ => rfl, .refl s, rfl⟩

theorem State.HubKept.trans (h1 : s.HubKept t) (h2 : t.HubKept u) : s.HubKept u :=
  ⟨fun f hf ha => (h2.fld f hf ha).trans (h1.fld f hf ha), h1.sent.trans h2.sent, h2.mgt.trans h1.mgt⟩

theorem State.HubKept.event (h : s.HubKept t) (pg bit : Nat) : s.HubKept (t.event pg bit) :=
  ⟨fun f hf ha => (State.fld_event_apart t _ _ ha bit).trans (h.fld f hf ha), h.sent.event _ _, by rw [State.event_mgt, h.mgt]⟩

theorem State.HubKept.setFld (h : s.HubKept t) {pg : Nat} (hpg : 0 < pg) (g : Fld) (v : Nat) : s.HubKept (t.setFld pg g v) := by
  refine ⟨fun f hf ha => (State.fld_setFld_ne _ _ _ _ _ _ ?_).trans (h.fld f hf ha), h.sent.setFld _ _ _, h.mgt⟩
  simp only [Fld.inside, Bool.and_eq_true, decide_eq_true_eq] at hf
  simp only [fkey, P.hub]
  omega

theorem State.HubKept.of_regs (hr : t.regs = s.regs) (ho : t.outs = s.outs) (hm : t.mgt = s.mgt) : s.HubKept t :=
  ⟨fun f _ _ => State.fld_of_regs hr _ f, .of_eq ho, hm⟩

theorem State.HubKept.each {α : Type} {l : List α} {g : α → State → State} (h : ∀ a ∈ l, ∀ u : State, u.HubKept (g a u)) : s.HubKept (s.each l g) :=
  State.each_keeps (fun u => s.HubKept u) s l g (fun a ha u hu => hu.trans (h a ha u)) (.refl s)

theorem State.HubKept.ite {c : Prop} [Decidable c] (h1 : s.HubKept t) (h2 : s.HubKept u) : s.HubKept (if c then t else u) := by
  split
  · exact h1
  · exact h2

end

theorem P.ten_pos (n k : Nat) : 0 < P.ten n k := by
  unfold P.ten
  omega

theorem State.setFree_kept (s : State) (n : Nat) : s.HubKept (s.setFree n) := by
  have hset : s.HubKept (s.setFld (P.hmp 0) F.HMP_STS_free_cnt n) := (State.HubKept.refl s).setFld (by decide) _ _
  exact (hset.event _ _).ite hset

theorem State.freeComp_kept (s : State) (c : Nat) : s.HubKept (s.freeComp c) := by
  have hfree : s.HubKept (s.setComp c Comp.free) := .of_regs rfl rfl rfl
  have hcount : ∀ n, s.HubKept (((s.setComp c Comp.free).setFld (P.hmp 2) (F.HMP_PT_USED_used (s.comp c).part)
      (s.fld (P.hmp 2) (F.HMP_PT_USED_used (s.comp c).part) - 1)).setFree n) := fun n =>
    (hfree.setFld (by decide) _ _).trans (State.setFree_kept _ n)
  exact ((hcount _).setFld (P.ten_pos _ _) _ _).ite (hcount _)

theorem State.allocEnd_kept (s : State) (r w : Nat) : s.HubKept (s.allocEnd r w) :=
  ((((((State.HubKept.refl s).setFld (by decide) _ _).setFld (by decide) _ _).setFld (by decide) _ _).setFld (by decide) _ _)).event _ _

theorem State.clearDone_kept (s : State) : s.HubKept s.clearDone := by
  unfold State.clearDone
  split
  · exact .refl s
  · have hfree : ∀ l : List Nat, s.HubKept (s.each l fun c s => s.freeComp c) := fun l => .each fun c _ u => u.freeComp_kept c
    exact (((((hfree _).event _ _).ite (hfree _)).trans (State.allocEnd_kept _ 0 0))).trans (.of_regs rfl rfl rfl)

/-- The owner becomes port p; the move is counted and recorded. -/
def State.ownerCount (u : State) (p : Nat) (l : List Nat) : State :=
  ((u.setFld (P.hub 0) F.HUB_OWNER_owner_port p).satFld (P.hub 0) F.HUB_OWNER_transfers 1).secRecord 0 l

theorem State.ownerCount_shows (u : State) {p : Nat} (hp : p < 4) (l : List Nat) :
    u.Sends (u.ownerCount p l) ∧ (u.ownerCount p l).mgt = u.mgt ∧ (u.ownerCount p l).owner = p ∧
      (u.ownerCount p l).fld (P.hub 0) F.HUB_OWNER_transfers = min 255 (u.fld (P.hub 0) F.HUB_OWNER_transfers + 1) := by
  have hsent : u.Sends ((u.setFld (P.hub 0) F.HUB_OWNER_owner_port p).satFld (P.hub 0) F.HUB_OWNER_transfers 1) :=
    ((State.Sends.refl u).setFld _ _ _).setFld _ _ _
  refine ⟨hsent.trailPut _ _ _ _, ?_, ?_, ?_⟩
  · rw [State.ownerCount, State.secRecord, State.trailPut_mgt]
    rfl
  · rw [State.owner, State.ownerCount, State.secRecord, State.fld_trailPut_page (by decide) (by decide), State.fld_satFld_apart (by decide)]
    exact State.fld_setFld_of_lt _ _ _ hp
  · rw [State.ownerCount, State.secRecord, State.fld_trailPut_page (by decide) (by decide), State.fld_satFld_self, State.fld_setFld_apart _ _ _ _ (by decide)]
    rfl

/-- A pending bit of function k takes a value. -/
def State.pendBit (k : Nat) (b : Bool) (v : Nat) (s : State) : State := s.setFn k { s.fn k with pba := putBit (s.fn k).pba v b }

theorem State.pendBits_kept (k : Nat) (b : Bool) (vs : List Nat) (s : State) : s.HubKept (s.each vs (State.pendBit k b)) :=
  .each fun _ _ _ => .of_regs rfl rfl rfl

/-- The pending routed interrupts of the owner (03 R68). -/
def State.routedPending (s : State) (o : Nat) : List Nat := (List.range 32).filter fun v => s.routedVec v && bitOf (s.fn o).pba v

theorem State.ownerMove_eq (s : State) (p : Nat) : s.ownerMove p =
    ((((s.landClient s.owner).clearDone.each ((s.landClient s.owner).clearDone.routedPending s.owner) (State.pendBit s.owner false)).each
      ((s.landClient s.owner).clearDone.routedPending s.owner) (State.pendBit p true)).ownerCount p [0, p]) := rfl

/-- A move of the ownership: the new owner, one transfer more, and the mailbox as it was. -/
theorem State.ownerMove_shows (s : State) {p : Nat} (hp : p < 4) : s.Sends (s.ownerMove p) ∧ (s.ownerMove p).mgt = s.mgt ∧ (s.ownerMove p).owner = p ∧
    (s.ownerMove p).fld (P.hub 0) F.HUB_OWNER_transfers = min 255 (s.fld (P.hub 0) F.HUB_OWNER_transfers + 1) := by
  have hland : s.HubKept (s.landClient s.owner).clearDone :=
    (State.HubKept.of_regs (s := s) (t := s.landClient s.owner) rfl rfl rfl).trans (State.clearDone_kept _)
  have hmoved := (hland.trans (State.pendBits_kept s.owner false ((s.landClient s.owner).clearDone.routedPending s.owner) _)).trans
    (State.pendBits_kept p true ((s.landClient s.owner).clearDone.routedPending s.owner) _)
  rw [State.ownerMove_eq]
  obtain ⟨hsent, hmgt, howner, hcnt⟩ := State.ownerCount_shows _ hp [0, p]
  exact ⟨hmoved.sent.trans hsent, hmgt.trans hmoved.mgt, howner, by rw [hcnt, hmoved.fld _ (by decide) (by decide)]⟩

/-! The commands. -/

/-- What stands after a signed command that passed: its nonce is gone whatever it did. -/
theorem nonce_after_event (u : State) (k : Nat) (h : Tab.get nonce0 u.mgt.nonces k = none) : Tab.get nonce0 (u.event P.mgt 0).mgt.nonces k = none := by
  rw [State.event_mgt, h]

theorem exec_ownerTransfer_passes {s : State} {f : Fmc} {g : Signed} {port : Fin 4} (hidle : s.board.fuseWrite = none)
    (h : s.authentic f 0x10 [port.val] g = true) (ht : s.takes f 0x10 = true) :
    Replies (.ownerTransfer f g port) s f 0x10 0 [] fun t => t.owner = port ∧ Tab.get nonce0 t.mgt.nonces (srcKey f.src) = none ∧
      (port.val ≠ s.owner → t.fld (P.hub 0) F.HUB_OWNER_transfers = min 255 (s.fld (P.hub 0) F.HUB_OWNER_transfers + 1)) ∧
      (port.val = s.owner → t.fld (P.hub 0) F.HUB_OWNER_transfers = s.fld (P.hub 0) F.HUB_OWNER_transfers) := by
  have hrange : ¬ 4 ≤ port.val := Nat.not_le.2 port.isLt
  by_cases hown : port.val = s.owner
  · refine replies_of_authentic (act := id) rfl ht hidle h ((if_neg hrange).trans (if_pos hown)) fun u hu hnonce => ⟨.refl u, ?_⟩
    refine ⟨?_, nonce_after_event u _ hnonce, fun hne => absurd hown hne, fun _ => ?_⟩
    · rw [State.owner, State.fld_event_apart _ _ _ (by decide)]
      exact hu.owner.trans hown.symm
    · rw [State.fld_event_apart _ _ _ (by decide)]
      exact hu.fld _ _
  · refine replies_of_authentic (act := fun u => u.ownerMove port) rfl ht hidle h ((if_neg hrange).trans (if_neg hown)) fun u hu hnonce => ?_
    obtain ⟨hsent, hmgt, howner, hcnt⟩ := u.ownerMove_shows port.isLt
    refine ⟨hsent, ?_, nonce_after_event _ _ (by rw [hmgt, hnonce]), fun _ => ?_, fun he => absurd he hown⟩
    · rw [State.owner, State.fld_event_apart _ _ _ (by decide)]
      exact howner
    · rw [State.fld_event_apart _ _ _ (by decide), hcnt, hu.fld]

theorem State.same_self (f : FieldFact) : f.same f = true := by simp [FieldFact.same]

/-- A substitution joins the facts in effect, once. -/
theorem State.substitute_shows (u : State) (fact : FieldFact) : u.Sends (u.substitute fact) ∧ (u.substitute fact).mgt = u.mgt ∧ u.sameBytes (u.substitute fact) ∧
    (u.substitute fact).boot.facts.any (·.same fact) = true ∧
    (u.boot.facts.any (·.same fact) = false → (u.substitute fact).boot.facts = u.boot.facts ++ [fact] ∧ (u.substitute fact).subs = u.subs ++ [fact]) := by
  unfold State.substitute
  split
  · next hknown => exact ⟨.refl u, rfl, .refl u, hknown, fun hnew => absurd (hknown.symm.trans hnew) (by decide)⟩
  · next hnew =>
    have hnew' : ({ u with subs := u.subs ++ [fact] }).boot.facts.any (·.same fact) = false := Bool.eq_false_iff.2 hnew
    rw [State.addFact, hnew']
    simp only [Bool.false_eq_true, if_false]
    have hsent : u.Sends { u with subs := u.subs ++ [fact], boot := { u.boot with facts := u.boot.facts ++ [fact] } } := .of_eq rfl
    refine ⟨hsent.trailPut _ _ _ _, ?_, ?_, ?_, fun _ => ⟨?_, ?_⟩⟩
    · rw [State.trailPut_mgt]
    · exact State.sameBytes_of_eq (by rw [State.trailPut_hmp]) (by rw [State.trailPut_stores]) (by rw [State.trailPut_slices])
    · rw [State.trailPut_boot]
      simp [State.same_self]
    · rw [State.trailPut_boot]
    · rw [State.trailPut_subs]

theorem exec_fieldSubst_passes {s : State} {f : Fmc} {g : Signed} (ti cl p : Fin 8) (hidle : s.board.fuseWrite = none)
    (h : s.authentic f 0x11 [ti.val, cl.val, p.val] g = true) (ht : s.takes f 0x11 = true) :
    (s.fieldMap.length < 1024 → Replies (.fieldSubst f g ti cl p) s f 0x11 0 [] fun t =>
      t.boot.facts.any (·.same ⟨ti, 0, cl, p, 1⟩) = true ∧ Tab.get nonce0 t.mgt.nonces (srcKey f.src) = none ∧ s.sameBytes t ∧
      (s.boot.facts.any (·.same ⟨ti, 0, cl, p, 1⟩) = false → t.boot.facts = s.boot.facts ++ [⟨ti, 0, cl, p, 1⟩] ∧ t.subs = s.subs ++ [⟨ti, 0, cl, p, 1⟩])) ∧
    (1024 ≤ s.fieldMap.length → Replies (.fieldSubst f g ti cl p) s f 0x11 7 [] fun t => t.boot = s.boot) := by
  have hrange : ¬(8 ≤ ti.val ∨ 8 ≤ cl.val ∨ 8 ≤ p.val) := by omega
  refine ⟨fun hroom => ?_, fun hfull => ?_⟩
  · refine replies_of_authentic (act := fun u => u.substitute ⟨ti, 0, cl, p, 1⟩) rfl ht hidle h ((if_neg hrange).trans (if_neg (Nat.not_le.2 hroom)))
      fun u hu hnonce => ?_
    obtain ⟨hsent, hmgt, hbytes, hin, hnew⟩ := u.substitute_shows ⟨ti, 0, cl, p, 1⟩
    obtain ⟨-, hboot, -, hsubs, hsame⟩ := hu.keeps
    refine ⟨hsent, ?_, nonce_after_event _ _ (by rw [hmgt, hnonce]), hsame.trans (hbytes.trans (State.RegsOnly.event _ _ _).sameBytes), fun hfresh => ?_⟩
    · rw [State.event_boot]
      exact hin
    · rw [State.event_boot, State.event_subs, ← hboot, ← hsubs]
      exact hnew (by rw [hboot]; exact hfresh)
  · exact replies_of_authentic_refused rfl ht hidle h ((if_neg hrange).trans (if_pos hfull)) (by decide) fun u hu _ => hu.keeps.2.1

/-- The field-map region is erased, with a Trail record. -/
theorem State.mapErase_shows (u : State) : u.Sends u.mapErase ∧ u.mapErase.mgt = u.mgt ∧ u.mapErase.boot = u.boot ∧ u.mapErase.fld P.trl F.TRL_STS_fmap_cnt = 0 ∧
    ∀ j, Tab.get slot0 u.mapErase.trail.slots j = if j < 1024 then none else Tab.get slot0 u.trail.slots j := by
  have hsent : u.Sends { u with trail := { u.trail with slots := Tab.clear u.trail.slots 0 1024 } } := .of_eq rfl
  refine ⟨(hsent.setFld P.trl F.TRL_STS_fmap_cnt 0).trailPut _ _ _ _, ?_, ?_, ?_, fun j => ?_⟩
  · rw [State.mapErase, State.secRecord, State.trailPut_mgt]
    rfl
  · rw [State.mapErase, State.secRecord, State.trailPut_boot]
    rfl
  · rw [State.mapErase, State.secRecord, State.fld_trailPut_apart (by decide) (by decide) (by decide)]
    exact State.fld_setFld_of_lt _ _ _ (Nat.two_pow_pos _)
  · rw [State.mapErase, State.secRecord, State.trailPut_slots]
    show Tab.get slot0 (Tab.clear u.trail.slots 0 1024) j = _
    rw [Tab.get_clear]
    simp [slot0]

theorem exec_fieldMapClear_passes {s : State} {f : Fmc} {g : Signed} (hidle : s.board.fuseWrite = none) (h : s.authentic f 0x12 [] g = true)
    (ht : s.takes f 0x12 = true) :
    Replies (.fieldMapClear f g) s f 0x12 0 [] fun t => t.boot.facts = s.boot.facts ∧ t.fld P.trl F.TRL_STS_fmap_cnt = 0 ∧
      ∀ j, Tab.get slot0 t.trail.slots j = if j < 1024 then none else Tab.get slot0 s.trail.slots j := by
  refine replies_of_authentic (act := State.mapErase) rfl ht hidle h rfl fun u hu _ => ?_
  obtain ⟨hsent, -, hboot, hcnt, hslots⟩ := u.mapErase_shows
  obtain ⟨-, hb, htrail, -⟩ := hu.keeps
  refine ⟨hsent, ?_, ?_, fun j => ?_⟩
  · rw [State.event_boot, hboot, hb]
  · rw [State.fld_event_apart _ _ _ (by decide), hcnt]
  · rw [State.event_trail, hslots, htrail]

theorem exec_svnCommit_passes {s : State} {f : Fmc} {g : Signed} (hidle : s.board.fuseWrite = none) (h : s.authentic f 0x13 [] g = true)
    (ht : s.takes f 0x13 = true) :
    (∀ a, s.boot.stage1 = some a → Replies (.svnCommit f g) s f 0x13 0 [] fun t =>
      t.board.fuseWrite = some (1, max s.board.svn (min 64 a.secVersion)) ∧ t.board.svn = s.board.svn) ∧
    (s.boot.stage1 = none → Replies (.svnCommit f g) s f 0x13 6 [] fun t => t.board = s.board) := by
  refine ⟨fun a ha => ?_, fun hnone => ?_⟩
  · refine replies_of_authentic (act := fun u => u.fuseStart 1 (max u.board.svn (min 64 a.secVersion))) rfl ht hidle h (by simp only [ha]) fun u hu _ => ⟨.of_eq rfl, ?_⟩
    rw [State.event_board, State.fuseStart, hu.keeps.1]
    exact ⟨rfl, rfl⟩
  · exact replies_of_authentic_refused rfl ht hidle h (by simp only [hnone]) (by decide) fun u hu _ => hu.keeps.1

theorem exec_keyRevoke_passes {s : State} {f : Fmc} {g : Signed} (slot : Fin 4) (hidle : s.board.fuseWrite = none) (h : s.authentic f 0x14 [slot.val] g = true)
    (ht : s.takes f 0x14 = true) :
    (s.keyNeeded slot = false → Replies (.keyRevoke f g slot) s f 0x14 0 [] fun t =>
      t.board.fuseWrite = some (2, slot.val) ∧ t.board.revoked = s.board.revoked) ∧
    (s.keyNeeded slot = true → Replies (.keyRevoke f g slot) s f 0x14 7 [] fun t => t.board = s.board) := by
  have hrange : ¬ 4 ≤ slot.val := Nat.not_le.2 slot.isLt
  refine ⟨fun hfree => ?_, fun hneed => ?_⟩
  · refine replies_of_authentic (act := fun u => u.fuseStart 2 slot) rfl ht hidle h ((if_neg hrange).trans (if_neg (Bool.eq_false_iff.1 hfree))) fun u hu _ => ⟨.of_eq rfl, ?_⟩
    rw [State.event_board, State.fuseStart, hu.keeps.1]
    exact ⟨rfl, rfl⟩
  · exact replies_of_authentic_refused rfl ht hidle h ((if_neg hrange).trans (if_pos hneed)) (by decide) fun u hu _ => hu.keeps.1

/-- The signed commands run behind the one envelope. -/
theorem signedCommand_runs {f : Fmc} {g : Signed} {port slot : Fin 4} {ti cl p : Fin 8} {c : Instr × Nat × List Nat}
    (hc : c ∈ [(Instr.ownerTransfer f g port, 0x10, [port.val]), (.fieldSubst f g ti cl p, 0x11, [ti.val, cl.val, p.val]),
      (.fieldMapClear f g, 0x12, []), (.svnCommit f g, 0x13, []), (.keyRevoke f g slot, 0x14, [slot.val])]) (s : State) :
    ∃ k, exec c.1 s = .next (s.fmcSigned f c.2.1 c.2.2 g k) := by
  simp only [List.mem_cons, List.not_mem_nil, or_false] at hc
  rcases hc with rfl | rfl | rfl | rfl | rfl
  · exact ⟨_, rfl⟩
  · exact ⟨_, rfl⟩
  · exact ⟨_, rfl⟩
  · exact ⟨_, rfl⟩
  · exact ⟨_, rfl⟩

/-- Arguments out of range are INVALID, and the nonce is used. -/
theorem signedCommand_invalid {s : State} {f : Fmc} {g : Signed} {cl p : Fin 8} {big : Nat} (hidle : s.board.fuseWrite = none) {c : Instr × Nat × List Nat}
    (hc : c ∈ [(Instr.ownerTransfer f g (4 + big), 0x10, [4 + big]), (.fieldSubst f g (8 + big) cl p, 0x11, [8 + big, cl.val, p.val]),
      (.keyRevoke f g (4 + big), 0x14, [4 + big])]) (h : s.authentic f c.2.1 c.2.2 g = true) (ht : s.takes f c.2.1 = true) :
    Replies c.1 s f c.2.1 2 [] fun t => t.board = s.board ∧ t.owner = s.owner ∧ t.boot = s.boot ∧ Tab.get nonce0 t.mgt.nonces (srcKey f.src) = none := by
  have hP : ∀ u, s.MgtOnly u → Tab.get nonce0 u.mgt.nonces (srcKey f.src) = none →
      u.board = s.board ∧ u.owner = s.owner ∧ u.boot = s.boot ∧ Tab.get nonce0 u.mgt.nonces (srcKey f.src) = none := fun u hu hnonce => by
    obtain ⟨hboard, hboot, -⟩ := hu.keeps
    exact ⟨hboard, hu.owner, hboot, hnonce⟩
  simp only [List.mem_cons, List.not_mem_nil, or_false] at hc
  rcases hc with rfl | rfl | rfl
  · exact replies_of_authentic_refused rfl ht hidle h (if_pos (Nat.le_add_right 4 big)) (by decide) hP
  · exact replies_of_authentic_refused rfl ht hidle h (if_pos (.inl (Nat.le_add_right 8 big))) (by decide) hP
  · exact replies_of_authentic_refused rfl ht hidle h (if_pos (Nat.le_add_right 4 big)) (by decide) hP

/-! The end of a fuse write. -/

theorem bitOf_putBit_set (x i b : Nat) : bitOf (putBit x i true) b = (bitOf x b || b == i) := by
  rw [putBit, if_pos rfl, bitOf_eq_testBit, bitOf_eq_testBit, Nat.testBit_or, Nat.testBit_two_pow]
  exact congrArg (x.testBit b || ·) (decide_eq_decide.2 ⟨Eq.symm, Eq.symm⟩)

theorem exec_fuseWriteDone_svn {s : State} {v : Nat} (h : s.board.fuseWrite = some (1, v)) :
    Completes .fuseWriteDone s fun t => t.board = { s.board with svn := v, fuseWrite := none } ∧ s.sameBytes t := by
  have hrun : exec .fuseWriteDone s = .next ({ s with board := { s.board with fuseWrite := none, svn := v } }.secRecord 0 [1, v]) := by
    show Host.Outcome.next _ = _
    simp only [h]
  refine ⟨_, hrun, ?_, ?_⟩
  · rw [State.secRecord, State.trailPut_board]
  · exact State.sameBytes_of_eq (by rw [State.secRecord, State.trailPut_hmp]) (by rw [State.secRecord, State.trailPut_stores])
      (by rw [State.secRecord, State.trailPut_slices])

theorem exec_fuseWriteDone_revoke {s : State} {v : Nat} (h : s.board.fuseWrite = some (2, v)) :
    Completes .fuseWriteDone s fun t => t.board.fuseWrite = none ∧ t.board.svn = s.board.svn ∧
      ∀ b, b < 4 → bitOf t.board.revoked b = (bitOf s.board.revoked b || b == v) := by
  have hrun : exec .fuseWriteDone s =
      .next ({ s with board := { s.board with fuseWrite := none, revoked := putBit s.board.revoked v true } }.secRecord 0 [2, v]) := by
    show Host.Outcome.next _ = _
    simp only [h]
  refine ⟨_, hrun, ?_⟩
  beta_reduce
  rw [State.secRecord, State.trailPut_board]
  exact ⟨rfl, rfl, fun b _ => bitOf_putBit_set _ _ _⟩

/-- Settles O46: the checks of R398 in their order, then the effect of each command from the state that has answered it. -/
theorem signedCommandResults : Obligations.SignedCommandResults := by
  unfold Obligations.SignedCommandResults
  intro s f g port ti cl p slot
  refine ⟨fun hidle => ⟨exec_ownerTransfer_passes hidle, fun h ht => (exec_fieldSubst_passes ti cl p hidle h ht).1,
      fun h ht => (exec_fieldSubst_passes ti cl p hidle h ht).2, exec_fieldMapClear_passes hidle, exec_svnCommit_passes hidle, exec_keyRevoke_passes slot hidle⟩,
    fun hidle c big hc h ht => signedCommand_invalid hidle hc h ht, fun c hc ht => ?_, fun v => exec_fuseWriteDone_svn, fun v _ => exec_fuseWriteDone_revoke, fun hnone => ?_⟩
  · obtain ⟨k, hrun⟩ := signedCommand_runs hc s
    exact ⟨replies_of_fuseWrite hrun ht, replies_of_stale_nonce hrun ht, replies_of_bad_key hrun ht, replies_of_bad_signature hrun ht⟩
  · show Host.Outcome.next _ = _
    simp only [hnone]

end Sys2Proof.Machine
end

section
/-! Debug unlock (17 R414), the TAP (R413), SPDM (R405, R406) and IDE (R407, R408). -/
namespace Sys2Proof.Machine

/-! A host port whose link goes down. -/

/-- The link status of a port whose link goes down, with its event. -/
def State.hptDown (s : State) (p : Nat) : State :=
  ((((s.setFld (P.hpt p) F.HPT_LINK_STS_rate 0).setFld (P.hpt p) F.HPT_LINK_STS_width 0).setFlag (P.hpt p) F.HPT_LINK_STS_flit false).setFlag (P.hpt p)
    F.HPT_LINK_STS_cxl false).event (P.hpt p) 1

theorem State.portDown_eq {s : State} {p : Nat} (h : s.linkUp p = true) : s.portDown p = (s.hptDown p).portReset p :=
  if_neg (by rw [h]; exact Bool.false_ne_true)

theorem State.fld_hptDown_page {f : Fld} {pg p : Nat} (hpg : pg ≠ P.hpt p) (hf : f.inside = true) (s : State) : (s.hptDown p).fld pg f = s.fld pg f := by
  rw [State.hptDown, State.fld_event_page hpg hf, State.fld_setFlag_page hpg hf (by decide), State.fld_setFlag_page hpg hf (by decide),
    State.fld_setFld_page _ _ _ _ hpg hf (by decide), State.fld_setFld_page _ _ _ _ hpg hf (by decide)]

theorem State.hptDown_rate (s : State) (p : Nat) : (s.hptDown p).fld (P.hpt p) F.HPT_LINK_STS_rate = 0 := by
  rw [State.hptDown, State.fld_event_apart _ _ _ (by decide), State.fld_setFlag_apart _ _ _ (by decide), State.fld_setFlag_apart _ _ _ (by decide),
    State.fld_setFld_apart _ _ _ _ (by decide)]
  exact State.fld_setFld_of_lt _ _ _ (Nat.two_pow_pos _)

theorem State.hptDown_mgt (s : State) (p : Nat) : (s.hptDown p).mgt = s.mgt := by
  rw [State.hptDown, State.event_mgt]
  rfl

/-- The fields that bind the tenants lie inside their page. -/
theorem bindFlds_inside {n : Nat} (h : n < 128) : (F.DISP_TN_BIND_valid n).inside = true ∧ (F.DISP_TN_BIND_port n).inside = true := by
  have hoff : (F.DISP_TN_BIND_valid n).off < 4096 := show 0x040 + 4 * n < 4096 by omega
  have hoff' : (F.DISP_TN_BIND_port n).off < 4096 := show 0x040 + 4 * n < 4096 by omega
  have hlo : (F.DISP_TN_BIND_valid n).lo < 32 := show 15 < 32 by decide
  have hlo' : (F.DISP_TN_BIND_port n).lo < 32 := show 6 < 32 by decide
  exact ⟨by rw [Fld.inside, decide_eq_true hoff, decide_eq_true hlo]; rfl, by rw [Fld.inside, decide_eq_true hoff', decide_eq_true hlo']; rfl⟩

/-- The tenants of a port follow the registers of DISP page 1 alone. -/
theorem State.tenantsOnPort_of_fld {s t : State} (h : ∀ f : Fld, f.inside = true → t.fld (P.disp 1) f = s.fld (P.disp 1) f) (p : Nat) :
    t.tenantsOnPort p = s.tenantsOnPort p := by
  refine List.filter_congr fun n hn => ?_
  obtain ⟨hvalid, hport⟩ := bindFlds_inside (List.mem_range.1 hn)
  rw [State.bound, State.flag, State.tnPort, h _ hvalid, h _ hport, State.bound, State.flag, State.tnPort]

theorem P.disp1_ne_hpt {p : Nat} (hp : p < 4) : P.disp 1 ≠ P.hpt p := by
  simp only [P.disp, P.hpt]
  omega

/-- The virtual functions of port p are gone. -/
def State.vfGone (s : State) (p : Nat) : State :=
  (s.setPort p { s.port p with numVfs := 0 }).each (List.range 64) fun v s => s.fnReset (4 + 64 * p + v)

theorem State.vfClear_eq (s : State) (p : Nat) : s.vfClear p = (s.vfGone p).each ((s.vfGone p).tenantsOnPort p) fun n s => s.tnTrigger n true := rfl

theorem State.vfGone_keeps (s : State) (p : Nat) : (s.vfGone p).regs = s.regs ∧ (s.vfGone p).mgt = s.mgt := by
  have hstep : ∀ (k : Nat) (u : State), (u.fnReset k).regs = u.regs ∧ (u.fnReset k).mgt = u.mgt := fun _ _ => ⟨rfl, rfl⟩
  unfold State.vfGone
  refine State.each_keeps (fun u => u.regs = s.regs ∧ u.mgt = s.mgt) _ _ _ (fun v _ u hu => ?_) ⟨rfl, rfl⟩
  obtain ⟨hregs, hmgt⟩ := hstep (4 + 64 * p + v) u
  exact ⟨hregs.trans hu.1, hmgt.trans hu.2⟩

/-- The functions of a port without tenants lose their configuration, and no register changes. -/
theorem State.vfClear_quiet {s : State} {p : Nat} (h : s.tenantsOnPort p = []) : (s.vfClear p).regs = s.regs ∧ (s.vfClear p).mgt = s.mgt := by
  have hnone := (State.tenantsOnPort_of_fld (fun f _ => State.fld_of_regs (s.vfGone_keeps p).1 _ f) p).trans h
  rw [State.vfClear_eq, hnone, State.each_nil]
  exact s.vfGone_keeps p

/-- A port without its configuration, its sessions and its keys. -/
def State.portBare (s : State) (p : Nat) : State :=
  ({ s with mgt := { s.mgt with ide := Tab.clear s.mgt.ide (5 * p) 5, sessions := Tab.clear s.mgt.sessions p 1 } }.setPort p
    { s.port p with cfgReady := false, d3 := false, cxlWin := none }).fnReset p

/-- A push read through port p that runs is given up. -/
def State.pushStops (s : State) (p : Nat) : State := if s.owner = p && s.flag P.boot F.BOOT_PUSH_CTL_go then s.pushAbort else s

theorem State.portReset_eq (s : State) (p : Nat) : s.portReset p = (((s.portBare p).vfClear p).hmpTransitClear p).pushStops p := rfl

theorem State.pushStops_of_ne {s : State} {p : Nat} (h : s.owner ≠ p) : s.pushStops p = s :=
  if_neg (by rw [decide_eq_false h, Bool.false_and]; exact Bool.false_ne_true)

theorem State.hmpTransitClear_keeps (s : State) (p : Nat) : (s.hmpTransitClear p).regs = s.regs ∧ (s.hmpTransitClear p).mgt = s.mgt := by
  unfold State.hmpTransitClear State.hmpClearComps State.landAll
  exact ⟨rfl, rfl⟩

theorem State.portBare_keeps (s : State) (p : Nat) : (s.portBare p).regs = s.regs ∧
    (s.portBare p).mgt = { s.mgt with ide := Tab.clear s.mgt.ide (5 * p) 5, sessions := Tab.clear s.mgt.sessions p 1 } := ⟨rfl, rfl⟩

/-- A reset of a port without tenants that is not the owner's: its DOE sessions and IDE keys are gone, and no register changes. -/
theorem State.portReset_quiet {s : State} {p : Nat} (h : s.tenantsOnPort p = []) (hown : s.owner ≠ p) :
    (s.portReset p).regs = s.regs ∧
    (s.portReset p).mgt = { s.mgt with ide := Tab.clear s.mgt.ide (5 * p) 5, sessions := Tab.clear s.mgt.sessions p 1 } := by
  obtain ⟨hregs, hmgt⟩ := s.portBare_keeps p
  have hnone := (State.tenantsOnPort_of_fld (fun f _ => State.fld_of_regs hregs _ f) p).trans h
  obtain ⟨hregs', hmgt'⟩ := State.vfClear_quiet hnone
  obtain ⟨hregs'', hmgt''⟩ := ((s.portBare p).vfClear p).hmpTransitClear_keeps p
  have hall := hregs''.trans (hregs'.trans hregs)
  rw [State.portReset_eq, State.pushStops_of_ne fun he => hown ((State.fld_of_regs hall _ _).symm.trans he)]
  exact ⟨hall, hmgt''.trans (hmgt'.trans hmgt)⟩

/-- The link of a port without tenants that is not the owner's goes down. -/
theorem State.portDown_quiet {s : State} {p : Nat} (hp : p < 4) (hlink : s.linkUp p = true) (h : s.tenantsOnPort p = []) (hown : s.owner ≠ p) :
    (s.portDown p).regs = (s.hptDown p).regs ∧
    (s.portDown p).mgt = { s.mgt with ide := Tab.clear s.mgt.ide (5 * p) 5, sessions := Tab.clear s.mgt.sessions p 1 } := by
  have hten : (s.hptDown p).tenantsOnPort p = [] :=
    (State.tenantsOnPort_of_fld (fun f hf => State.fld_hptDown_page (P.disp1_ne_hpt hp) hf s) p).trans h
  have hport : P.hub 0 ≠ P.hpt p := by
    simp only [P.hub, P.hpt]
    omega
  have hother : (s.hptDown p).owner ≠ p := by
    rw [State.owner, State.fld_hptDown_page hport (by decide)]
    exact hown
  rw [State.portDown_eq hlink]
  obtain ⟨hregs, hmgt⟩ := State.portReset_quiet hten hother
  exact ⟨hregs, by rw [hmgt, State.hptDown_mgt]⟩

/-! Debug unlock. -/

theorem State.nonce_setDbgNonce (s : State) (k : Nat) (v : Option (List Byte)) : Tab.get nonce0 (s.setDbgNonce k v).mgt.dbgNonces k = v :=
  Tab.get_set_self nonce0 s.mgt.dbgNonces k v

theorem exec_debugChallenge {s : State} {f : Fmc} (h : s.takes f 0x15 = true) :
    Completes (.debugChallenge f) s fun t => ∃ c, c.length = 48 ∧ Tab.get nonce0 t.mgt.dbgNonces (srcKey f.src) = some c ∧
      .fmc (srcKey f.src) 0x15 f.id.toNat 0 (c.map (·.toNat) ++ deviceIdBytes.map (·.toNat)) ∈ t.outs := by
  have hreply : Replies (.debugChallenge f) s f 0x15 0 (s.freshNonce.map (·.toNat) ++ deviceIdBytes.map (·.toNat)) fun t =>
      Tab.get nonce0 t.mgt.dbgNonces (srcKey f.src) = some s.freshNonce :=
    replies_of_takes rfl h rfl fun u _ => ⟨.of_eq rfl, u.nonce_setDbgNonce _ _⟩
  obtain ⟨t, ht, hsent, hnonce⟩ := hreply
  exact ⟨t, ht, _, by simp [State.freshNonce], hnonce, hsent⟩

/-- What a token unlocks. -/
theorem State.unlockScopes_shows (u : State) (scope : Nat) : u.Sends (u.unlockScopes scope) ∧ (u.unlockScopes scope).mgt = u.mgt ∧
    ∀ b, b < 3 → bitOf ((u.unlockScopes scope).fld P.mgt F.MGT_SEC_unlocked) b = (bitOf (u.fld P.mgt F.MGT_SEC_unlocked) b || bitOf scope b) := by
  have hset : u.Sends (u.setFld P.mgt F.MGT_SEC_unlocked (u.fld P.mgt F.MGT_SEC_unlocked ||| scope % 8)) := .refl u
  refine ⟨(hset.event _ _).trailPut _ _ _ _, ?_, fun b hb => ?_⟩
  · rw [State.unlockScopes, State.secRecord, State.trailPut_mgt, State.event_mgt]
    rfl
  · rw [State.unlockScopes, State.secRecord, State.fld_trailPut_page (by decide) (by decide), State.fld_event_apart _ _ _ (by decide), State.fld_setFld_self]
    simp only [bitOf_eq_testBit]
    rw [show F.MGT_SEC_unlocked.len = 3 from rfl, Nat.testBit_mod_two_pow, Nat.testBit_or, show (8 : Nat) = 2 ^ 3 from rfl, Nat.testBit_mod_two_pow]
    simp [hb]

section
variable {s : State} {f : Fmc} {k : DebugToken}

theorem exec_debugUnlock_run (f : Fmc) (k : DebugToken) (s : State) :
    exec (.debugUnlock f k.device k.nonce k.scope k.key k.sig) s =
      .next (s.fmcRun f 0x16 (k.scope.toNat :: (k.device ++ k.nonce ++ k.key ++ k.sig).map (·.toNat)) fun s =>
        if s.unlockBarred then FmcAns.only 6
        else if Tab.get nonce0 s.mgt.dbgNonces (srcKey f.src) ≠ some k.nonce then ⟨5, [], fun s => s.authFail 0x41⟩
        else if !s.tokenKey k then ⟨4, [], fun s => s.authFail 0x40⟩
        else if !Config.ecdsaP384 k.key (Config.sha384 (tokenMsg k)) k.sig then ⟨4, [], fun s => (s.setDbgNonce (srcKey f.src) none).authFail 0x40⟩
        else ⟨0, [], fun s => (s.setDbgNonce (srcKey f.src) none).unlockScopes k.scope.toNat⟩) := rfl

variable (h : s.takes f 0x16 = true) (hfree : s.unlockBarred = false)
include h hfree

theorem exec_debugUnlock_opens (hnonce : Tab.get nonce0 s.mgt.dbgNonces (srcKey f.src) = some k.nonce) (hkey : s.tokenKey k = true)
    (hsig : Config.ecdsaP384 k.key (Config.sha384 (tokenMsg k)) k.sig = true) :
    Replies (.debugUnlock f k.device k.nonce k.scope k.key k.sig) s f 0x16 0 [] fun t =>
      (∀ b, b < 3 → bitOf (t.fld P.mgt F.MGT_SEC_unlocked) b = (bitOf (s.fld P.mgt F.MGT_SEC_unlocked) b || bitOf k.scope.toNat b)) ∧
      Tab.get nonce0 t.mgt.dbgNonces (srcKey f.src) = none := by
  refine replies_of_takes (act := fun u => (u.setDbgNonce (srcKey f.src) none).unlockScopes k.scope.toNat) (exec_debugUnlock_run f k s) h ?_ fun u hu => ?_
  · simp only [hfree, hnonce, hkey, hsig, Bool.false_eq_true, if_false, ne_eq, not_true_eq_false, Bool.not_true]
  · obtain ⟨hsent, hmgt, hbits⟩ := (u.setDbgNonce (srcKey f.src) none).unlockScopes_shows k.scope.toNat
    refine ⟨State.Sends.trans (.of_eq rfl) hsent, fun b hb => ?_, ?_⟩
    · rw [hbits b hb, ← hu.fld]
      rfl
    · rw [hmgt]
      exact u.nonce_setDbgNonce _ none

theorem exec_debugUnlock_stale (hnonce : Tab.get nonce0 s.mgt.dbgNonces (srcKey f.src) ≠ some k.nonce) :
    Replies (.debugUnlock f k.device k.nonce k.scope k.key k.sig) s f 0x16 5 [] fun t => t.fld P.mgt F.MGT_SEC_unlocked = s.fld P.mgt F.MGT_SEC_unlocked := by
  refine replies_of_takes (act := fun u => u.authFail 0x41) (exec_debugUnlock_run f k s) h ?_ fun u hu => ?_
  · simp only [hfree, hnonce, Bool.false_eq_true, if_false, ne_eq, not_false_eq_true, if_true]
  · obtain ⟨hsent, -, -, -, -, -, hlocks⟩ := u.authFail_keeps 0x41
    exact ⟨hsent, hlocks.trans (hu.fld _ _)⟩

theorem exec_debugUnlock_refused (hnonce : Tab.get nonce0 s.mgt.dbgNonces (srcKey f.src) = some k.nonce)
    (hbad : s.tokenKey k = false ∨ Config.ecdsaP384 k.key (Config.sha384 (tokenMsg k)) k.sig = false) :
    Replies (.debugUnlock f k.device k.nonce k.scope k.key k.sig) s f 0x16 4 [] fun t => t.fld P.mgt F.MGT_SEC_unlocked = s.fld P.mgt F.MGT_SEC_unlocked := by
  cases hkey : s.tokenKey k with
  | false =>
    refine replies_of_takes (act := fun u => u.authFail 0x40) (exec_debugUnlock_run f k s) h ?_ fun u hu => ?_
    · simp only [hfree, hnonce, hkey, Bool.false_eq_true, if_false, ne_eq, not_true_eq_false, Bool.not_false, if_true]
    · obtain ⟨hsent, -, -, -, -, -, hlocks⟩ := u.authFail_keeps 0x40
      exact ⟨hsent, hlocks.trans (hu.fld _ _)⟩
  | true =>
    have hsig := hbad.resolve_left (by rw [hkey]; decide)
    refine replies_of_takes (act := fun u => (u.setDbgNonce (srcKey f.src) none).authFail 0x40) (exec_debugUnlock_run f k s) h ?_ fun u hu => ?_
    · simp only [hfree, hnonce, hkey, hsig, Bool.false_eq_true, if_false, ne_eq, not_true_eq_false, Bool.not_true, Bool.not_false, if_true]
    · obtain ⟨hsent, -, -, -, -, -, hlocks⟩ := (u.setDbgNonce (srcKey f.src) none).authFail_keeps 0x40
      exact ⟨State.Sends.trans (.of_eq rfl) hsent, hlocks.trans (hu.fld _ _)⟩

end

/-! The TAP. -/

theorem exec_tapInstruction_plain {s : State} (hup : s.mgtUp = true) {i : TapInstr} (hi : i ∈ [TapInstr.idcode, .bypass, .sample, .preload]) :
    exec (.tapInstruction i) s = .next { s with mgt := { s.mgt with tap := i, extest := false } } := by
  refine congrArg Host.Outcome.next ((if_pos hup).trans ?_)
  simp only [List.mem_cons, List.not_mem_nil, or_false] at hi
  rcases hi with rfl | rfl | rfl | rfl
  · rfl
  · rfl
  · rfl
  · rfl

theorem exec_tapInstruction_scope {s : State} (hup : s.mgtUp = true) (sc : Fin 3) :
    exec (.tapInstruction (.other sc)) s =
      .next { s with mgt := { s.mgt with tap := if bitOf (s.fld P.mgt F.MGT_SEC_unlocked) sc then .other sc else .bypass, extest := false } } := by
  refine congrArg Host.Outcome.next ((if_pos hup).trans ?_)
  show s.tapSet (if bitOf (s.fld P.mgt F.MGT_SEC_unlocked) sc then .other sc else .bypass) = _
  split
  · rfl
  · rfl

/-- Ports whose links are down stay as they are. -/
theorem State.portDowns_of_down {s : State} : ∀ {l : List Nat}, (∀ p ∈ l, s.linkUp p = false) → s.each l (fun p u => u.portDown p) = s
  | [], _ => rfl
  | p :: l, h => by
    obtain ⟨hp, hl⟩ := List.forall_mem_cons.1 h
    have hdown : s.portDown p = s := if_pos (by rw [hp]; rfl)
    rw [State.each_cons, hdown]
    exact State.portDowns_of_down hl

theorem exec_tapInstruction_extest {s : State} (hup : s.mgtUp = true) (hout : s.mgt.extest = false) :
    Completes (.tapInstruction .extest) s fun t => t.mgt.extest = true ∧ t.hubOff = true ∧
      (∀ p, p < 4 → t.linkUp p = false) ∧ (∀ x, t.core x = Core.reset) ∧ ((∀ p, p < 4 → s.linkUp p = false) → t.mgt.tap = .extest) := by
  have hset : ∃ u : State, s.tapSet .extest = { u.dark with mgt := { u.dark.mgt with extest := true } } ∧
      u = { s with mgt := { s.mgt with tap := .extest } }.each (List.range 4) fun p s => s.portDown p := by
    refine ⟨_, ?_, rfl⟩
    rw [State.tapSet, hout]
    rfl
  obtain ⟨u, hset, hu⟩ := hset
  refine ⟨_, congrArg Host.Outcome.next ((if_pos hup).trans hset), rfl, u.dark_hubOff, fun p hp => u.dark_linkUp hp, u.dark_core, fun hdown => ?_⟩
  have hstay := State.portDowns_of_down (s := { s with mgt := { s.mgt with tap := .extest } }) fun p hp => hdown p (List.mem_range.1 hp)
  rw [hu, hstay]
  rfl

/-! SPDM. -/

section
variable {s : State} {r : Responder}

theorem exec_spdmRequest_busy (hup : s.respUp r = true) (h : s.stage < 5 ∨ respFull r = true) (op : SpdmOp) :
    exec (.spdmRequest r op) s = .next (s.emit (.spdm (respNo r) false [3])) := by
  have hbusy : (s.stage < 5 || respFull r) = true := by
    rw [Bool.or_eq_true, decide_eq_true_eq]
    exact h
  exact congrArg Host.Outcome.next ((if_neg (by rw [hup]; exact Bool.false_ne_true)).trans (if_pos hbusy))

/-- The sessions of one responder change. -/
theorem State.sessions_setSessions (s : State) (k n j : Nat) : (s.setSessions k n).sessions j = if j = k then n else s.sessions j := by
  have hset : Tab.get nat0 (Tab.set nat0 s.mgt.sessions k n) j = if j = k then n else Tab.get nat0 s.mgt.sessions j := Tab.get_set nat0 s.mgt.sessions k j n
  unfold State.setSessions
  dsimp only
  split
  · exact hset
  · exact hset

theorem State.setSessions_outs (s : State) (k n : Nat) : (s.setSessions k n).outs = s.outs := by
  unfold State.setSessions
  dsimp only
  split
  · rfl
  · rfl

variable (hup : s.respUp r = true) (hstage : 5 ≤ s.stage) (hroom : respFull r = false)
include hup hstage hroom

theorem respFree : ¬ (!s.respUp r) = true ∧ ¬ (s.stage < 5 || respFull r) = true := by
  rw [hup, hroom, Bool.or_false, decide_eq_true_eq]
  exact ⟨Bool.false_ne_true, Nat.not_lt.2 hstage⟩

theorem exec_spdmRequest_keyExchange :
    (s.sessions (respNo r) < 4 → Completes (.spdmRequest r .keyExchange) s fun t => t.sessions (respNo r) = s.sessions (respNo r) + 1 ∧
      t.outs = .spdm (respNo r) true [s.sessions (respNo r) + 1] :: s.outs ∧ ∀ j, j ≠ respNo r → t.sessions j = s.sessions j) ∧
    (4 ≤ s.sessions (respNo r) → exec (.spdmRequest r .keyExchange) s = .next (s.emit (.spdm (respNo r) false [0x0A]))) := by
  obtain ⟨hanswers, hserves⟩ := respFree hup hstage hroom
  refine ⟨fun hroom4 => ?_, fun hfull => ?_⟩
  · have hset := s.sessions_setSessions (respNo r) (s.sessions (respNo r) + 1)
    refine ⟨_, congrArg Host.Outcome.next ((if_neg hanswers).trans ((if_neg hserves).trans (if_pos hroom4))), ?_, ?_, fun j hj => ?_⟩
    · exact (hset _).trans (if_pos rfl)
    · exact congrArg (List.cons _) (s.setSessions_outs _ _)
    · exact (hset j).trans (if_neg hj)
  · exact congrArg Host.Outcome.next ((if_neg hanswers).trans ((if_neg hserves).trans (if_neg (Nat.not_lt.2 hfull))))

theorem exec_spdmRequest_endSession (h : 0 < s.sessions (respNo r)) :
    Completes (.spdmRequest r .endSession) s fun t => t.sessions (respNo r) = s.sessions (respNo r) - 1 ∧
      t.outs = .spdm (respNo r) true [s.sessions (respNo r) - 1] :: s.outs := by
  obtain ⟨hanswers, hserves⟩ := respFree hup hstage hroom
  refine ⟨_, congrArg Host.Outcome.next ((if_neg hanswers).trans ((if_neg hserves).trans (if_neg (Nat.ne_of_gt h)))), ?_, ?_⟩
  · exact (s.sessions_setSessions _ _ _).trans (if_pos rfl)
  · exact congrArg (List.cons _) (s.setSessions_outs _ _)

theorem exec_spdmRequest_measure (i : Fin 16) :
    (i.val = 0 → exec (.spdmRequest r (.measure i)) s = .next (s.emit (.spdm (respNo r) true [9]))) ∧
    (i.val = 8 → exec (.spdmRequest r (.measure i)) s =
      .next (s.emit (.spdm (respNo r) true (signedAns [s.fld P.mgt F.MGT_SEC_jtag_lock, s.fld P.mgt F.MGT_SEC_unlocked])))) := by
  obtain ⟨hanswers, hserves⟩ := respFree hup hstage hroom
  refine ⟨fun hi => ?_, fun hi => ?_⟩
  · exact congrArg Host.Outcome.next ((if_neg hanswers).trans ((if_neg hserves).trans (if_pos hi)))
  · have hmeasure : s.measure (respNo r) i = [s.fld P.mgt F.MGT_SEC_jtag_lock, s.fld P.mgt F.MGT_SEC_unlocked] := by rw [hi, State.measure]
    rw [← hmeasure]
    exact congrArg Host.Outcome.next ((if_neg hanswers).trans ((if_neg hserves).trans ((if_neg (by omega)).trans (if_neg (by omega)))))

end

/-! IDE. -/

/-- The state of a stream after a key management request, where it may move: 1 keys programmed, 2 Secure. -/
def ideNext (v : Nat) : IdeOp → Option Nat
  | .keyProg => if v = 2 then none else some 1
  | .setGo => if v = 0 then none else some 2
  | .setStop => if v = 2 then some 1 else none

section
variable {s : State} {port : Fin 4} {stream : Fin 5}

theorem State.ideState_setIde (s : State) (p i v : Nat) (q : Fin 4) (j : Fin 5) (hi : i < 5) :
    (s.setIde p i v).ideState q j = if q.val = p ∧ j.val = i then v else s.ideState q j := by
  have hset : Tab.get nat0 (Tab.set nat0 s.mgt.ide (5 * p + i) v) (5 * q + j) = if 5 * q.val + j.val = 5 * p + i then v else Tab.get nat0 s.mgt.ide (5 * q + j) :=
    Tab.get_set nat0 s.mgt.ide _ _ v
  refine hset.trans ?_
  have hkey : 5 * q.val + j.val = 5 * p + i ↔ q.val = p ∧ j.val = i := by omega
  simp only [hkey]
  rfl

variable (hup : s.respUp (.doe port) = true)
include hup

/-- A request moves its stream over an open session in flit mode, where the stream may move, and is refused else. -/
theorem exec_ideKmRequest_eq (op : IdeOp) : exec (.ideKmRequest port stream op) s =
    .next (match (if s.sessions port != 0 && s.flag (P.hpt port) F.HPT_LINK_STS_flit then ideNext (s.ideState port stream) op else none) with
      | some w => (s.setIde port stream w).emit (.ideKm port stream true)
      | none => s.emit (.ideKm port stream false)) := by
  refine congrArg Host.Outcome.next ((if_neg (by rw [hup]; exact Bool.false_ne_true)).trans ?_)
  show (match ideNext (s.ideState port stream) op, (s.sessions port != 0 && s.flag (P.hpt port) F.HPT_LINK_STS_flit) with
    | some w, true => (s.setIde port stream w).emit (.ideKm port stream true)
    | _, _ => s.emit (.ideKm port stream false)) = _
  cases (s.sessions port != 0 && s.flag (P.hpt port) F.HPT_LINK_STS_flit) with
  | false => cases ideNext (s.ideState port stream) op <;> rfl
  | true => cases ideNext (s.ideState port stream) op <;> rfl

theorem exec_ideKmRequest_closed (h : s.sessions port = 0 ∨ s.flag (P.hpt port) F.HPT_LINK_STS_flit = false) (op : IdeOp) :
    exec (.ideKmRequest port stream op) s = .next (s.emit (.ideKm port stream false)) := by
  have hok : (s.sessions port != 0 && s.flag (P.hpt port) F.HPT_LINK_STS_flit) = false := by
    rcases h with h | h
    · rw [h]
      rfl
    · rw [h, Bool.and_false]
  rw [exec_ideKmRequest_eq hup, hok]
  rfl

variable (hsess : s.sessions port ≠ 0) (hflit : s.flag (P.hpt port) F.HPT_LINK_STS_flit = true)
include hsess hflit

theorem exec_ideKmRequest_moves {op : IdeOp} {w : Nat} (h : ideNext (s.ideState port stream) op = some w) :
    exec (.ideKmRequest port stream op) s = .next ((s.setIde port stream w).emit (.ideKm port stream true)) := by
  rw [exec_ideKmRequest_eq hup, hflit, Bool.and_true, if_pos (bne_iff_ne.2 hsess), h]

theorem exec_ideKmRequest_stays {op : IdeOp} (h : ideNext (s.ideState port stream) op = none) :
    exec (.ideKmRequest port stream op) s = .next (s.emit (.ideKm port stream false)) := by
  rw [exec_ideKmRequest_eq hup, hflit, Bool.and_true, if_pos (bne_iff_ne.2 hsess), h]

end

/-- A stream that turns insecure takes its port down with its keys and sessions. -/
theorem exec_ideInsecure_secure {s : State} {port : Fin 4} {stream : Fin 5} (h : s.ideState port stream = 2) (hlink : s.linkUp port = true)
    (hten : s.tenantsOnPort port = []) (hown : s.owner ≠ port) :
    Completes (.ideInsecure port stream) s fun t => t.linkUp port = false ∧ (∀ j, j < 5 → t.ideState port j = 0) ∧ t.sessions port = 0 ∧
      bitOf (t.fld P.mgt F.PG_INT_STS) 3 = true := by
  have hrun : exec (.ideInsecure port stream) s = .next (State.portDown { ((s.secRecord 2 [5, port, stream]).event P.mgt 3) with
      mgt := { ((s.secRecord 2 [5, port, stream]).event P.mgt 3).mgt with
        ide := Tab.clear ((s.secRecord 2 [5, port, stream]).event P.mgt 3).mgt.ide (5 * port.val) 5 } } port) :=
    congrArg Host.Outcome.next (if_neg (not_not_intro h))
  have hbit : bitOf (((s.secRecord 2 [5, port, stream]).event P.mgt 3).fld P.mgt F.PG_INT_STS) 3 = true := State.bit_event _ _ (by decide)
  have hkeep : ∀ {pg : Nat} {f : Fld}, pg ≠ P.trl → pg ≠ P.mgt → f.inside = true →
      ((s.secRecord 2 [5, port, stream]).event P.mgt 3).fld pg f = s.fld pg f := fun htrl hmgt hf => by
    rw [State.fld_event_page hmgt hf, State.secRecord, State.fld_trailPut_page htrl hf]
  generalize (s.secRecord 2 [5, port, stream]).event P.mgt 3 = u at hrun hbit hkeep
  have hhpt : P.hpt port ≠ P.trl ∧ P.hpt port ≠ P.mgt := by
    simp only [P.hpt, P.trl, P.mgt]
    omega
  obtain ⟨hregs, hmgt⟩ := State.portDown_quiet (s := { u with mgt := { u.mgt with ide := Tab.clear u.mgt.ide (5 * port.val) 5 } }) port.isLt
    ((State.flag_of_fld (hkeep hhpt.1 hhpt.2 (by decide))).trans hlink)
    ((State.tenantsOnPort_of_fld (fun f hf => hkeep (by decide) (by decide) hf) port).trans hten)
    (fun he => hown ((hkeep (by decide) (by decide) (by decide)).symm.trans he))
  refine ⟨_, hrun, ?_, fun j hj => ?_, ?_, ?_⟩
  · rw [State.linkUp, State.flag, State.fld_of_regs hregs, State.hptDown_rate]
    rfl
  · rw [State.ideState, hmgt]
    show Tab.get nat0 (Tab.clear (Tab.clear u.mgt.ide (5 * port.val) 5) (5 * port.val) 5) (5 * port + j) = 0
    rw [Tab.get_clear, if_pos (by omega)]
    rfl
  · rw [State.sessions, hmgt]
    show Tab.get nat0 (Tab.clear u.mgt.sessions port 1) port = 0
    rw [Tab.get_clear, if_pos (by omega)]
    rfl
  · rw [State.fld_of_regs hregs, State.fld_hptDown_page hhpt.2.symm (by decide)]
    exact hbit

/-- Settles O47: debug unlock behind the mailbox's envelope, the TAP by instruction, SPDM and IDE by request. -/
theorem debugAndSecureChannels : Obligations.DebugAndSecureChannels := by
  unfold Obligations.DebugAndSecureChannels
  refine ⟨fun s f k sc => ⟨exec_debugChallenge, fun h hfree => ⟨exec_debugUnlock_opens h hfree, exec_debugUnlock_stale h hfree, exec_debugUnlock_refused h hfree⟩,
      fun h hbar => ?_, fun hup => ⟨fun i => exec_tapInstruction_plain hup, exec_tapInstruction_scope hup sc, exec_tapInstruction_extest hup⟩, rfl⟩,
    fun s r port stream i => ⟨fun hup hstage hroom k n hk hn => ?_, fun hup h op => exec_spdmRequest_busy hup h op, fun hup hsess hflit => ⟨fun hv => ?_, fun hv => ?_, fun hv => ?_, fun hv => ?_⟩,
      fun hup h op => exec_ideKmRequest_closed hup h op, exec_ideInsecure_secure, fun hv => congrArg Host.Outcome.next (if_pos hv)⟩⟩
  · exact replies_of_takes (act := id) (exec_debugUnlock_run f k s) h (if_pos hbar) fun u hu => ⟨.refl u, hu.regs⟩
  · subst hk hn
    obtain ⟨hkeys, hfull⟩ := exec_spdmRequest_keyExchange hup hstage hroom
    obtain ⟨hlist, hstate⟩ := exec_spdmRequest_measure hup hstage hroom i
    exact ⟨hkeys, hfull, exec_spdmRequest_endSession hup hstage hroom, hlist, fun hi => ⟨_, hstate hi, rfl, rfl⟩⟩
  · have hset := fun (q : Fin 4) (j : Fin 5) => s.ideState_setIde port stream 1 q j stream.isLt
    refine ⟨_, exec_ideKmRequest_moves hup hsess hflit (if_neg hv), (hset port stream).trans (if_pos ⟨rfl, rfl⟩), rfl, rfl, fun q j hne => (hset q j).trans (if_neg ?_)⟩
    rintro ⟨hq, hj⟩
    exact hne.elim (· (Fin.ext hq)) (· (Fin.ext hj))
  · exact ⟨_, exec_ideKmRequest_moves hup hsess hflit (if_neg hv), (s.ideState_setIde port stream 2 port stream stream.isLt).trans (if_pos ⟨rfl, rfl⟩), rfl⟩
  · exact exec_ideKmRequest_stays hup hsess hflit (if_pos hv)
  · exact ⟨_, exec_ideKmRequest_moves hup hsess hflit (if_pos hv), (s.ideState_setIde port stream 1 port stream stream.isLt).trans (if_pos ⟨rfl, rfl⟩)⟩

end Sys2Proof.Machine
end

section
/-! PLDM monitoring and firmware update (17 R399, R400, R402), and the management push (R403). -/
namespace Sys2Proof.Machine

/-! What a tile's registers leave of the pages below them. -/

/-- Only registers of the tiles' pages differ. -/
def State.TileRegs (s t : State) : Prop := ∀ (pg : Nat) (f : Fld), pg < 0x1000 → f.inside = true → t.fld pg f = s.fld pg f

section
variable {s t u : State}

theorem State.TileRegs.refl (s : State) : s.TileRegs s := fun _ _ _ _ => rfl
theorem State.TileRegs.trans (h1 : s.TileRegs t) (h2 : t.TileRegs u) : s.TileRegs u := fun pg f hp hf => (h2 pg f hp hf).trans (h1 pg f hp hf)
theorem State.TileRegs.of_regs (h : t.regs = s.regs) : s.TileRegs t := fun pg f _ _ => State.fld_of_regs h pg f

theorem State.TileRegs.setFld (h : s.TileRegs t) {q : Nat} (hq : 0x1000 ≤ q) (g : Fld) (v : Nat) : s.TileRegs (t.setFld q g v) := fun pg f hp hf => by
  refine (State.fld_setFld_ne _ _ _ _ _ _ ?_).trans (h pg f hp hf)
  simp only [Fld.inside, Bool.and_eq_true, decide_eq_true_eq] at hf
  unfold fkey
  omega

theorem State.TileRegs.each {α : Type} {l : List α} {g : α → State → State} (h : ∀ a ∈ l, ∀ u : State, u.TileRegs (g a u)) : s.TileRegs (s.each l g) :=
  State.each_keeps (fun u => s.TileRegs u) s l g (fun a ha u hu => hu.trans (h a ha u)) (.refl s)

theorem State.TileRegs.ite {c : Prop} [Decidable c] (h1 : s.TileRegs t) (h2 : s.TileRegs u) : s.TileRegs (if c then t else u) := by
  split
  · exact h1
  · exact h2

end

theorem P.clu_high (cl : Nat) : 0x1000 ≤ P.clu cl := by
  unfold P.clu
  omega

theorem P.pwrT_high (t : Nat) : 0x1000 ≤ P.pwrT t := by
  unfold P.pwrT
  omega

theorem State.setCluMap_tile (s : State) (cl : Nat) (m : CluMap) : s.TileRegs (s.setCluMap cl m) := by
  have hset : ∀ (u : State) (g : Fld) (v : Nat), u.TileRegs (u.setFld (P.clu cl) g v) := fun u g v => (State.TileRegs.refl u).setFld (P.clu_high cl) g v
  exact (((State.TileRegs.each fun l _ u => hset u _ _).setFld (P.clu_high cl) _ _).setFld (P.clu_high cl) _ _ |>.setFld (P.clu_high cl) _ _).trans
    (State.TileRegs.each fun p _ u => hset u _ _)

theorem State.mapTile_tile (s : State) (t : Nat) : s.TileRegs (s.mapTile t) := .each fun _ _ u => u.setCluMap_tile _ _

theorem State.domSync_tile (s : State) (t : Nat) : s.TileRegs (s.domSync t) := by
  refine .each fun i _ u => ?_
  have hset : ∀ v, u.TileRegs (u.setDom t i v) := fun v => (State.TileRegs.refl u).setFld (P.pwrT_high t) _ v
  exact (State.TileRegs.refl u).ite (((hset 1).ite (.refl u)).ite ((hset 0).trans (.of_regs rfl)))

theorem State.regulatorOn_tile (s : State) (t : Nat) : s.TileRegs (s.regulatorOn t) :=
  (State.TileRegs.refl s).ite (((((State.TileRegs.refl s).setFld (P.pwrT_high t) _ _).setFld (P.pwrT_high t) _ _).setFld (P.pwrT_high t) _ _).trans
    (State.domSync_tile _ t))

/-- Step 5 starts with its stage alone among the registers below the tiles'. -/
theorem State.stage5_shows (s : State) : (s.setStage 5).TileRegs s.stage5 := by
  unfold State.stage5
  refine State.TileRegs.trans ?_ (.each fun t _ u => (u.mapTile_tile t).trans (State.regulatorOn_tile _ t))
  exact .of_regs rfl

/-- What an accepted stage-1 image shows (R403, 04 R90). -/
theorem State.acceptStage1_shows (s : State) {k src : Nat} (hk : k < 2) (hsrc : src < 4) (md : Medium) {m : Image} (hv : m.fwVersion < 2 ^ 32) :
    (s.acceptStage1 k src md m).stage = 5 ∧ (s.acceptStage1 k src md m).fld P.boot F.BOOT_STS_slot = k ∧
    (s.acceptStage1 k src md m).fld P.boot F.BOOT_STS_src = src ∧ (s.acceptStage1 k src md m).fld P.boot F.BOOT_FW_VER_fw_version = m.fwVersion ∧
    (s.acceptStage1 k src md m).fld P.boot F.BOOT_PUSH_CTL_busy = s.fld P.boot F.BOOT_PUSH_CTL_busy := by
  have hlow : ∀ {f : Fld}, f.inside = true → (s.acceptStage1 k src md m).fld P.boot f =
      ((((({ s with boot := { s.boot with stage1 := some m.accepted, medium := some md, alt := false } }.setFld P.boot F.BOOT_STS_slot k).setFld P.boot F.BOOT_STS_src src).setFld
        P.boot F.BOOT_FW_VER_fw_version m.fwVersion).setFld P.mgt F.MGT_SEC_run_slot m.keySlot).setStage 5).fld P.boot f := fun hf =>
    State.stage5_shows _ P.boot _ (by decide) hf
  have hpage : P.boot ≠ P.mgt := by decide
  refine ⟨?_, ?_, ?_, ?_, ?_⟩
  · rw [State.stage, hlow (by decide)]
    exact State.fld_setFld_of_lt _ _ _ (by decide)
  · rw [hlow (by decide), State.setStage, State.fld_setFld_apart _ _ _ _ (by decide), State.fld_setFld_page _ _ _ _ hpage (by decide) (by decide),
      State.fld_setFld_apart _ _ _ _ (by decide), State.fld_setFld_apart _ _ _ _ (by decide)]
    exact State.fld_setFld_of_lt _ _ _ hk
  · rw [hlow (by decide), State.setStage, State.fld_setFld_apart _ _ _ _ (by decide), State.fld_setFld_page _ _ _ _ hpage (by decide) (by decide),
      State.fld_setFld_apart _ _ _ _ (by decide)]
    exact State.fld_setFld_of_lt _ _ _ hsrc
  · rw [hlow (by decide), State.setStage, State.fld_setFld_apart _ _ _ _ (by decide), State.fld_setFld_page _ _ _ _ hpage (by decide) (by decide)]
    exact State.fld_setFld_of_lt _ _ _ hv
  · rw [hlow (by decide), State.setStage, State.fld_setFld_apart _ _ _ _ (by decide), State.fld_setFld_page _ _ _ _ hpage (by decide) (by decide),
      State.fld_setFld_apart _ _ _ _ (by decide), State.fld_setFld_apart _ _ _ _ (by decide), State.fld_setFld_apart _ _ _ _ (by decide)]
    rfl

/-- The candidates that are tried lie in the Hamper, and no register changes. -/
theorem State.pickImage_regs (s : State) (typ : Nat) (l : List (Nat × Option Image)) : (s.pickImage typ l).1.regs = s.regs := by
  induction l generalizing s with
  | nil => rfl
  | cons a l ih =>
    obtain ⟨k, m⟩ := a
    cases m with
    | none => exact ih s
    | some m =>
      rw [State.pickImage]
      dsimp only
      split
      · rfl
      · exact (ih _).trans rfl

/-! PLDM requests. -/

section
variable {s : State} {src : MctpSrc} {inst : Nat} {body : List Nat}

/-- A new request is answered, and kept as the last of its source. -/
theorem State.pldmRun_of_new (h : s.pldmNew src inst body = true) (k : State → PldmAns) :
    s.pldmRun src inst body k = (k s).act ({ s with mgt := { s.mgt with pldm := Tab.set pldm0 s.mgt.pldm (srcKey src) (some ⟨inst, body, (k s).code, (k s).data⟩) } }.emit
      (.pldm (srcKey src) (k s).code (k s).data)) := by
  simp only [State.pldmNew, Bool.and_eq_true, Bool.not_eq_true'] at h
  obtain ⟨⟨hup, hroom⟩, hnew⟩ := h
  rw [State.pldmRun, hup, hroom]
  simp only [Bool.not_true, Bool.false_eq_true, if_false]
  split
  · next e he =>
    rw [he] at hnew
    refine if_neg ?_
    rintro ⟨hinst, hbody⟩
    simp [hinst, hbody] at hnew
  · rfl

/-- A request that repeats the last one gets its answer again. -/
theorem State.pldmRun_of_kept {e : PldmKept} (hup : s.mgtUp = true) (hroom : src.full = false) (he : Tab.get pldm0 s.mgt.pldm (srcKey src) = some e)
    (hinst : e.inst = inst) (hbody : e.body = body) (k : State → PldmAns) : s.pldmRun src inst body k = s.emit (.pldm (srcKey src) e.code e.data) := by
  simp [State.pldmRun, hup, hroom, he, hinst, hbody]

end

/-- A new request of a source: kept and answered, from the state `u` onwards. -/
theorem completes_of_pldmNew {c : Instr} {s : State} {src : MctpSrc} {inst : Nat} {body : List Nat} {k : State → PldmAns} {P : State → Prop} {code : Nat}
    {data : List Nat} {act : State → State} (hrun : exec c s = .next (s.pldmRun src inst body k)) (h : s.pldmNew src inst body = true)
    (hk : k s = ⟨code, data, act⟩)
    (hact : ∀ u : State, (∃ K x i, u = { s with mgt := { s.mgt with pldm := K }, outs := .pldm (srcKey src) code data :: s.outs, transit := x, ideSent := i }) → P (act u)) :
    Completes c s P := by
  refine ⟨_, hrun.trans (congrArg Host.Outcome.next (State.pldmRun_of_new h k)), ?_⟩
  rw [hk]
  exact hact _ ⟨_, _, _, rfl⟩

theorem exec_readSensor_new {s : State} {src : MctpSrc} {inst id : Nat} (h : s.pldmNew src inst [2, 0x11, id] = true) :
    Completes (.pldmMonitorRequest src inst (.readSensor id)) s fun t => t.regs = s.regs ∧ t.outs = .pldm (srcKey src)
      (match s.pldmSensor id with | none => 0x80 | _ => 0) (match s.pldmSensor id with | none => [] | some none => [2, 0] | some (some v) => [0, unsgn 16 v]) :: s.outs := by
  cases hsensor : s.pldmSensor id with
  | none =>
    refine completes_of_pldmNew (code := 0x80) (data := []) (act := fun s => s) rfl h (by simp only [hsensor]) ?_
    rintro u ⟨_, _, _, rfl⟩
    exact ⟨rfl, rfl⟩
  | some o =>
    cases o with
    | none =>
      refine completes_of_pldmNew (code := 0) (data := [2, 0]) (act := fun s => s) rfl h (by simp only [hsensor]) ?_
      rintro u ⟨_, _, _, rfl⟩
      exact ⟨rfl, rfl⟩
    | some v =>
      refine completes_of_pldmNew (code := 0) (data := [0, unsgn 16 v]) (act := fun s => s) rfl h (by simp only [hsensor]) ?_
      rintro u ⟨_, _, _, rfl⟩
      exact ⟨rfl, rfl⟩

theorem exec_updateComponent {s : State} {src : MctpSrc} {inst comp : Nat} (h : s.pldmNew src inst [5, 0x14, comp] = true) (hready : s.ready = true) :
    (s.canUpdate = true → comp = 1 ∨ comp = 2 → Completes (.pldmUpdateComponent src inst comp) s fun t =>
      t.outs = .flashRequest comp 0 :: .pldm (srcKey src) 0 [0] :: s.outs ∧ t.regs = s.regs ∧
      ∃ u, t.mgt.update = some u ∧ u.comp = comp ∧ u.data = [] ∧ (comp = 1 → u.v1 = none) ∧ (comp = 2 → u.v2 = none)) ∧
    (s.canUpdate = false → Completes (.pldmUpdateComponent src inst comp) s fun t => t.mgt.update = s.mgt.update ∧ .pldm (srcKey src) 0 [1] ∈ t.outs) := by
  have hgo : ¬ (!s.ready) = true := by
    rw [hready]
    exact Bool.false_ne_true
  refine ⟨fun hcan hcomp => ?_, fun hcannot => ?_⟩
  · have hfits : ¬ (!s.canUpdate || (comp != 1 && comp != 2)) = true := by
      rw [hcan]
      rcases hcomp with rfl | rfl <;> decide
    refine completes_of_pldmNew (act := fun u => u.updateStart comp) rfl h ((if_neg hgo).trans (if_neg hfits)) ?_
    rintro u ⟨_, _, _, rfl⟩
    exact ⟨rfl, rfl, _, rfl, rfl, rfl, fun hc => if_pos hc, fun hc => if_pos hc⟩
  · refine completes_of_pldmNew (act := fun u => u) rfl h ((if_neg hgo).trans (if_pos (by rw [hcannot]; rfl))) ?_
    rintro u ⟨_, _, _, rfl⟩
    exact ⟨rfl, List.mem_cons_self⟩

/-! Firmware data. -/

section
variable {s : State} {u : Update} (hu : s.mgt.update = some u) (hcomp : u.comp ≠ 0) (hup : s.mgtUp = true) (hready : s.ready = true)
include hu hcomp hup hready

theorem exec_firmwareData_eq (data : List Byte) : exec (.pldmFirmwareData data) s =
    .next (if data.length < 4096 then (s.emit (.flashWrite s.spareSlot u.comp u.data.length (data.take 4096))).setUpdate (some { u with data := u.data ++ data.take 4096 })
      else ((s.emit (.flashWrite s.spareSlot u.comp u.data.length (data.take 4096))).setUpdate (some { u with data := u.data ++ data.take 4096 })).emit
        (.flashRequest u.comp (u.data ++ data.take 4096).length)) := by
  show Host.Outcome.next _ = _
  simp only [hu, hup, hready, hcomp, Bool.not_true, Bool.or_self, decide_false, Bool.false_eq_true, if_false]

theorem exec_firmwareData_full {data : List Byte} (h : data.length = 4096) :
    Completes (.pldmFirmwareData data) s fun t => t.mgt.update = some { u with data := u.data ++ data } ∧
      t.outs = .flashRequest u.comp (u.data.length + 4096) :: .flashWrite s.spareSlot u.comp u.data.length data :: s.outs ∧ t.regs = s.regs := by
  have hall : data.take 4096 = data := List.take_of_length_le (Nat.le_of_eq h)
  refine ⟨_, (exec_firmwareData_eq hu hcomp hup hready data).trans (congrArg Host.Outcome.next (if_neg (by omega))), ?_, ?_, rfl⟩
  · rw [hall]
    rfl
  · rw [hall, List.length_append, h]
    rfl

theorem exec_firmwareData_last {data : List Byte} (h : data.length < 4096) :
    Completes (.pldmFirmwareData data) s fun t => t.mgt.update = some { u with data := u.data ++ data } ∧
      t.outs = .flashWrite s.spareSlot u.comp u.data.length data :: s.outs ∧ t.regs = s.regs := by
  have hall : data.take 4096 = data := List.take_of_length_le (Nat.le_of_lt h)
  refine ⟨_, (exec_firmwareData_eq hu hcomp hup hready data).trans (congrArg Host.Outcome.next (if_pos h)), ?_, ?_, rfl⟩
  · rw [hall]
    rfl
  · rw [hall]
    rfl

theorem exec_verifyComplete (back : Option (List Byte)) {img : Image} {bad : Option (Nat × Nat)} (himg : img = Image.parse (Option.getD back u.data))
    (hbad : bad = img.refusal u.comp (s.fld P.boot F.BOOT_STRAP_pkg_build) s.board.revoked s.board.svn s.board.keys
      (fun i => match img.sections[i]? with | some x => img.body x | none => [])) :
    Completes (.pldmVerifyComplete back) s fun t => t.regs = s.regs ∧ t.outs = .pldm 0 0 [u.comp, b2n bad.isSome] :: s.outs ∧
      ∃ w, t.mgt.update = some w ∧ w.comp = 0 ∧ (u.comp = 1 → w.v1 = (if bad.isNone then some img.fwVersion else none) ∧ w.v2 = u.v2) ∧
        (u.comp = 2 → w.v2 = (if bad.isNone then some img.fwVersion else none) ∧ w.v1 = u.v1) := by
  have hrun : exec (.pldmVerifyComplete back) s = .next ((s.setUpdate (some ⟨0, [],
      if u.comp = 1 then (if bad.isNone then some img.fwVersion else none) else u.v1,
      if u.comp = 2 then (if bad.isNone then some img.fwVersion else none) else u.v2⟩)).emit (.pldm 0 0 [u.comp, b2n (!bad.isNone)])) := by
    subst himg hbad
    show Host.Outcome.next _ = _
    simp only [hu, hup, hready, hcomp, Bool.not_true, Bool.or_self, decide_false, Bool.false_eq_true, if_false] <;> rfl
  have hsome : (!bad.isNone) = bad.isSome := by cases bad <;> rfl
  refine ⟨_, hrun, rfl, ?_, _, rfl, rfl, fun hc => ⟨if_pos hc, if_neg (by omega)⟩, fun hc => ⟨if_pos hc, if_neg (by omega)⟩⟩
  rw [hsome]
  rfl

end

/-! Activation. -/

theorem exec_activateFirmware {s : State} {src : MctpSrc} {inst : Nat} (h : s.pldmNew src inst [5, 0x1A] = true) (hready : s.ready = true) {u : Update} {a b : Nat}
    (hu : s.mgt.update = some u) (ha : u.v1 = some a) (hb : u.v2 = some b) :
    (a / 65536 = b / 65536 → Completes (.pldmActivateFirmware src inst) s fun t => t.mgt.update = none ∧ .flashDir s.spareSlot ∈ t.outs ∧
      .pldm (srcKey src) 0 [] ∈ t.outs ∧ s.sameBytes t) ∧
    (a / 65536 ≠ b / 65536 → Completes (.pldmActivateFirmware src inst) s fun t => t.mgt.update = some u ∧ .pldm (srcKey src) 0x85 [] ∈ t.outs) := by
  have hgo : ¬ (!s.ready) = true := by
    rw [hready]
    exact Bool.false_ne_true
  have hcomplete : u.complete = (a / 65536 == b / 65536) := by rw [Update.complete, ha, hb]
  refine ⟨fun heq => ?_, fun hne => ?_⟩
  · refine completes_of_pldmNew (code := 0) (data := []) (act := State.activate) rfl h ((if_neg hgo).trans ?_) ?_
    · simp only [hu, hcomplete, heq, beq_self_eq_true, if_true]
    · rintro v hv
      have hslot : v.spareSlot = s.spareSlot := by
        obtain ⟨_, _, _, rfl⟩ := hv
        rfl
      have hkeep := State.trailPut_sends ((v.setUpdate none).emit (.flashDir v.spareSlot)) 0x09 0x09 0 [6, v.spareSlot]
      refine ⟨?_, ?_, ?_, State.sameBytes_of_eq ?_ ?_ ?_⟩
      · rw [State.activate, State.secRecord, State.trailPut_mgt]
        rfl
      · rw [← hslot]
        exact hkeep List.mem_cons_self
      · obtain ⟨_, _, _, rfl⟩ := hv
        exact hkeep (List.mem_cons_of_mem _ List.mem_cons_self)
      · obtain ⟨_, _, _, rfl⟩ := hv
        rw [State.activate, State.secRecord, State.trailPut_hmp]
        rfl
      · obtain ⟨_, _, _, rfl⟩ := hv
        rw [State.activate, State.secRecord, State.trailPut_stores]
        rfl
      · obtain ⟨_, _, _, rfl⟩ := hv
        rw [State.activate, State.secRecord, State.trailPut_slices]
        rfl
  · refine completes_of_pldmNew (code := 0x85) (data := []) (act := fun s => s) rfl h ((if_neg hgo).trans ?_) ?_
    · simp only [hu, hcomplete, beq_eq_false_iff_ne.2 hne, Bool.false_eq_true, if_false]
    · rintro v ⟨_, _, _, rfl⟩
      exact ⟨hu, List.mem_cons_self⟩

/-! The management push. -/

section
variable {s : State} (hup : s.mgtUp = true) (hlive : s.hubDead = false)
include hup hlive

theorem managementPush_live : ¬ (!s.mgtUp || s.hubDead) = true := by
  rw [hup, hlive]
  exact Bool.false_ne_true

theorem exec_managementPush_start (hwait : s.flag P.boot F.BOOT_STS_wait_push = true) (hgo : s.flag P.boot F.BOOT_PUSH_CTL_go = false)
    (hbusy : s.flag P.boot F.BOOT_PUSH_CTL_busy = false) :
    exec (.managementPush none) s = .next ((s.setFlag P.boot F.BOOT_STS_wait_push false).setFlag P.boot F.BOOT_PUSH_CTL_busy true) :=
  congrArg Host.Outcome.next ((if_neg (managementPush_live hup hlive)).trans (if_pos (by rw [hwait, hgo, hbusy]; rfl)))

theorem exec_managementPush_refused (hwait : s.flag P.boot F.BOOT_STS_wait_push = false) : exec (.managementPush none) s = .next (s.emit .pushBusy) :=
  congrArg Host.Outcome.next ((if_neg (managementPush_live hup hlive)).trans (if_neg (by rw [hwait]; exact Bool.false_ne_true)))

/-- A medium whose stage-1 image is accepted ends the push. -/
theorem exec_managementPush_accepts {md : Medium} (hbusy : s.flag P.boot F.BOOT_PUSH_CTL_busy = true) (hstage : s.stage < 10) {s1 u : State} {k : Nat} {im : Image}
    (hs1 : s1 = (s.setFlag P.boot F.BOOT_PUSH_CTL_go false).setFlag P.boot F.BOOT_PUSH_CTL_busy false)
    (hpick : s1.pickImage 1 (stage1s md) = (u, [], some (k, im))) (hk : k < 2) (hv : im.fwVersion < 2 ^ 32) :
    Completes (.managementPush (some md)) s fun t => t.flag P.boot F.BOOT_PUSH_CTL_busy = false ∧ t.stage = 5 ∧ t.fld P.boot F.BOOT_STS_slot = k ∧
      t.fld P.boot F.BOOT_STS_src = 2 ∧ t.fld P.boot F.BOOT_FW_VER_fw_version = im.fwVersion := by
  have hstage' : s1.stage < 10 := by
    rw [hs1, State.stage, State.fld_setFlag_apart _ _ _ (by decide), State.fld_setFlag_apart _ _ _ (by decide)]
    exact hstage
  have hidle : u.fld P.boot F.BOOT_PUSH_CTL_busy = 0 := by
    have hregs := s1.pickImage_regs 1 (stage1s md)
    rw [hpick] at hregs
    rw [State.fld_of_regs hregs, hs1, State.fld_setFlag_self _ _ (by decide)]
    rfl
  have hread : s.pushDone md 2 = u.acceptStage1 k 2 md im := by
    rw [State.pushDone, ← hs1]
    dsimp only
    rw [if_pos hstage', State.mediumRead, hpick]
    rfl
  obtain ⟨h5, hslot, hsrc, hver, hpush⟩ := u.acceptStage1_shows hk (src := 2) (by decide) md hv
  refine ⟨_, congrArg Host.Outcome.next ((if_neg (managementPush_live hup hlive)).trans ((if_pos hbusy).trans hread)), ?_, h5, hslot, hsrc, hver⟩
  rw [State.flag, hpush, hidle]
  rfl

end

/-- Settles O48: PLDM requests answer once per Instance ID, firmware data goes chunk by chunk to the spare slot, and a push ends with its image accepted. -/
theorem pldmResults : Obligations.PldmResults := by
  unfold Obligations.PldmResults
  intro s src inst id comp data md
  refine ⟨exec_readSensor_new, fun e hup hroom he hinst hbody => ?_, fun h hready => exec_updateComponent h hready,
    fun u hu hcomp hup hready => ⟨exec_firmwareData_full hu hcomp hup hready, exec_firmwareData_last hu hcomp hup hready,
      fun back img bad himg hbad => exec_verifyComplete hu hcomp hup hready back himg hbad⟩, fun hnone => ⟨?_, fun back => ?_⟩,
    fun h hready u a b hu ha hb => exec_activateFirmware h hready hu ha hb,
    fun hup hlive => ⟨exec_managementPush_start hup hlive, exec_managementPush_refused hup hlive,
      fun hbusy hstage s1 k im u hs1 hpick hk hv => exec_managementPush_accepts hup hlive hbusy hstage hs1 hpick hk hv⟩⟩
  · exact congrArg Host.Outcome.next (State.pldmRun_of_kept hup hroom he hinst hbody _)
  · show Host.Outcome.next _ = _
    simp only [hnone]
  · show Host.Outcome.next _ = _
    simp only [hnone]

end Sys2Proof.Machine
end

section
/-! The Hamper's apertures (05 R105-R107, R436), the landing of accepted writes (R113), and tile requests (R108, R118). -/
namespace Sys2Proof.Machine

/-! A range within one unit. -/

theorem segs_of_one_unit {unit off len : Nat} (hlen : 0 < len) (h : off % unit + len ≤ unit) : segs unit off len = [(off, len)] := by
  have hsplit := Nat.div_add_mod off unit
  have hlast : (off + len - 1) / unit = off / unit := by
    refine Nat.div_eq_of_lt_le ?_ ?_
    · rw [Nat.mul_comm]; omega
    · rw [Nat.add_mul, Nat.one_mul, Nat.mul_comm]; omega
  have hlo : (off / unit + 0) * unit ≤ off := by rw [Nat.add_zero, Nat.mul_comm]; omega
  have hhi : off + len ≤ (off / unit + 0 + 1) * unit := by rw [Nat.add_zero, Nat.add_mul, Nat.one_mul, Nat.mul_comm]; omega
  rw [segs, if_neg (Nat.ne_of_gt hlen), hlast, Nat.sub_self]
  show [(max off ((off / unit + 0) * unit), min (off + len) ((off / unit + 0 + 1) * unit) - max off ((off / unit + 0) * unit))] = _
  rw [Nat.max_eq_left hlo, Nat.min_eq_left hhi, Nat.add_sub_cancel_left]

/-- The pieces of a range are inside it. -/
theorem mem_segs {unit off len : Nat} {sg : Nat × Nat} (h : sg ∈ segs unit off len) : off ≤ sg.1 ∧ sg.1 < off + len := by
  unfold segs at h
  split at h
  · cases h
  · next hlen =>
    simp only [List.mem_map, List.mem_range] at h
    obtain ⟨i, hi, rfl⟩ := h
    refine ⟨Nat.le_max_left _ _, ?_⟩
    have hmul := Nat.div_mul_le_self (off + len - 1) unit
    have hfirst : off / unit ≤ (off + len - 1) / unit := Nat.div_le_div_right (by omega)
    have hle : (off / unit + i) * unit ≤ (off + len - 1) / unit * unit := Nat.mul_le_mul_right _ (by omega)
    show max off ((off / unit + i) * unit) < off + len
    omega

/-! Landing. -/

/-- A byte after a write, by its place in the data. -/
theorem Mem.rd_wr_getD (m : Mem) (a : Nat) (bs : List Byte) (ep : Bool) (k : Nat) :
    (m.wr a bs ep).rd k = if a ≤ k ∧ k < a + bs.length then bs.getD (k - a) 0 else m.rd k := by
  rw [Mem.rd_wr]
  split
  · next h => exact (List.getD_eq_getElem bs 0 (by omega)).symm
  · rfl

theorem exec_hamperWriteLand {s : State} {w : HmpWr} {ws : List HmpWr} (h : s.hmpPend = w :: ws) :
    Completes .hamperWriteLand s fun t => t.hmpPend = ws ∧ t.stores = s.stores ∧ t.slices = s.slices ∧ t.regs = s.regs ∧
      ∀ a, t.hmp.rd a = if w.addr ≤ a ∧ a < w.addr + w.data.length then w.data.getD (a - w.addr) 0 else s.hmp.rd a := by
  have hrun : exec .hamperWriteLand s = .next { s with hmp := s.hmp.land w, hmpPend := ws } := by
    show execHamperWriteLand s = _
    rw [execHamperWriteLand, h]
  exact ⟨_, hrun, rfl, rfl, rfl, rfl, fun a => Mem.rd_wr_getD _ _ _ _ _⟩

/-! A tenant's aperture. -/

section
variable {s : State} {n : Fin 128} {rid : BitVec 16} {off : BitVec 28} {data : List Byte}

theorem exec_apertureWrite_tenant (hreach : s.reach (.tenant n) = true) (hready : s.ready = true) (h3 : s.tnState n ≠ 3) (h4 : s.tnState n ≠ 4) (ep : Bool) :
    exec (.apertureWrite (.tenant n rid) off data ep) s = .next (s.tenApWrite n rid.toNat off.toNat data ep) :=
  congrArg Host.Outcome.next (if_pos (by rw [hreach, hready, bne_iff_ne.2 h3, bne_iff_ne.2 h4]; rfl))

/-- The pieces of a write within one compartment slot. -/
theorem State.tenPieces_one (hlen : 0 < data.length) (hone : off.toNat % 65536 + data.length ≤ 65536) (peer : Bool) :
    s.tenPieces n peer off.toNat data.length = (match s.slotComp n (off.toNat / 65536) with
      | some c => if peer && (s.comp c).use != 6 then none else some (off.toNat, data.length, c * 65536 + off.toNat % 65536)
      | none => none : Option (Nat × Nat × Nat)).toList := by
  rw [State.tenPieces, segs_of_one_unit hlen hone, List.filterMap_cons]
  dsimp only
  cases s.slotComp n (off.toNat / 65536) with
  | none => rfl
  | some c =>
    dsimp only
    cases (peer && (s.comp c).use != 6) with
    | true => rfl
    | false => rfl

theorem State.tenApWrite_missed (hlen : 0 < data.length) (hone : off.toNat % 65536 + data.length ≤ 65536)
    (hnone : s.tenPieces n (s.isPeer n rid.toNat) off.toNat data.length = []) :
    s.tenApWrite n rid.toNat off.toNat data false = s.tenErr n (P.ten n 11) (if s.isPeer n rid.toNat then 0x41 else 0x40) 0xFF off.toNat := by
  have hmiss : firstMiss off.toNat data.length [] = some off.toNat := by rw [firstMiss, segs_of_one_unit hlen hone]; rfl
  unfold State.tenApWrite
  dsimp only
  rw [hnone, hmiss]
  rfl

/-- A write within one compartment of the tenant is accepted. -/
theorem State.tenApWrite_accepted (hlen : 0 < data.length) (hone : off.toNat % 65536 + data.length ≤ 65536) {c : Nat}
    (hsome : s.tenPieces n (s.isPeer n rid.toNat) off.toNat data.length = [(off.toNat, data.length, c * 65536 + off.toNat % 65536)])
    (hwork : s.workAt (c * 65536 + off.toNat % 65536) = none) :
    s.tenApWrite n rid.toNat off.toNat data false = { s with hmpPend := s.hmpPend ++ [⟨s.tnPort n, c * 65536 + off.toNat % 65536, data, false⟩] } := by
  have hmiss : firstMiss off.toNat data.length [(off.toNat, data.length, c * 65536 + off.toNat % 65536)] = none := by
    rw [firstMiss, segs_of_one_unit hlen hone]
    simp
  have hall : (data.drop (off.toNat - off.toNat)).take data.length = data := by rw [Nat.sub_self, List.drop_zero, List.take_length]
  have htouch : ∀ u : State, u.workAt (c * 65536 + off.toNat % 65536) = none → u.vcTouch (c * 65536 + off.toNat % 65536) = u := fun u hu => by
    rw [State.vcTouch, hu]
  unfold State.tenApWrite
  dsimp only
  rw [hsome, hmiss]
  show State.vcTouch (s.hmpAccept ⟨s.tnPort n, c * 65536 + off.toNat % 65536, (data.drop (off.toNat - off.toNat)).take data.length, false⟩) _ = _
  rw [hall]
  exact htouch _ hwork

end

/-! The owner aperture. -/

section
variable {s : State} {p : Fin 4} {off : BitVec 28} {data : List Byte}

/-- A write within one compartment that is not being freed, by the compartment's state. -/
theorem State.ownApWrite_one (hlen : 0 < data.length) (hone : off.toNat % 65536 + data.length ≤ 65536)
    (hclr : (s.comp (off.toNat / 65536)).clearing = false) {st : Nat} (hst : (s.comp (off.toNat / 65536)).state = st) :
    s.ownApWrite p off.toNat data false =
      if st = 2 then { s with hmpPend := s.hmpPend ++ [⟨p, off.toNat, data, false⟩] }
      else if st = 0 then s.countErr (P.hmp 0) 0x40 0xFF off.toNat
      else if st = 1 ∨ st = 3 then s.countErr (P.hmp 0) 0x43 0xFF off.toNat else s := by
  have hin : off.toNat / 65536 < 4096 := by
    have := off.isLt
    omega
  rw [State.ownApWrite]
  dsimp only
  rw [segs_of_one_unit hlen hone]
  by_cases h2 : st = 2
  · simp [hin, hclr, hst, h2, putPieces, State.hmpAccept]
  · by_cases h0 : st = 0
    · simp [hin, hclr, hst, h0, putPieces, State.each_cons]
    · by_cases h13 : st = 1 ∨ st = 3
      · have hwp : (st == 1 || st == 3) = true := by simpa using h13
        simp [hin, hclr, hst, h2, h0, h13, hwp, putPieces, State.each_cons]
      · have hwp : (st == 1 || st == 3) = false := by simpa using h13
        simp [hin, hclr, hst, h2, h0, h13, hwp, putPieces]

theorem exec_apertureWrite_owner (hreach : s.reach (.pf p) = true) (hready : s.ready = true) (hown : p.val = s.owner) (ep : Bool) :
    exec (.apertureWrite (.pf p) off data ep) s = .next (s.ownApWrite p off.toNat data ep) :=
  congrArg Host.Outcome.next ((if_neg (by rw [hreach]; exact Bool.false_ne_true)).trans ((if_neg (not_not_intro hown)).trans (if_pos hready)))

theorem exec_apertureWrite_alien (hreach : s.reach (.pf p) = true) (hown : p.val ≠ s.owner) (ep : Bool) :
    exec (.apertureWrite (.pf p) off data ep) s = .next (s.countErr (P.hub 0) 0x06 0xFF off.toNat) :=
  congrArg Host.Outcome.next ((if_neg (by rw [hreach]; exact Bool.false_ne_true)).trans (if_pos hown))

end

/-! Reads of a tenant's aperture. -/

/-- What reaches the device does so past a hub that serves. -/
theorem State.devFailed_of_reach {s : State} {n : Fin 128} (h : s.reach (.tenant n) = true) : s.devFailed = false := by
  simp only [State.reach, State.hubDead, Bool.and_eq_true, Bool.not_eq_true', Bool.or_eq_false_iff] at h
  obtain ⟨⟨⟨hfailed, -⟩, -⟩, -⟩ := h
  exact hfailed

section
variable {s : State} {n : Fin 128} {rid : BitVec 16} {off : BitVec 28} {len : Nat}

theorem exec_apertureRead_serves (hreach : s.reach (.tenant n) = true) (h3 : s.tnState n ≠ 3) (hready : s.ready = true) :
    exec (.apertureRead (.tenant n rid) off ⟨len, false⟩) s = .next ((s.landClient (s.tnPort n)).tenApRead n off.toNat len) := by
  have hserve : ¬ (!s.ready || s.tnState n == 3) = true := by
    rw [hready, beq_eq_false_iff_ne.2 h3]
    exact Bool.false_ne_true
  exact congrArg Host.Outcome.next ((if_neg (by rw [State.devFailed_of_reach hreach]; exact Bool.false_ne_true)).trans
    ((if_neg (by rw [hreach]; exact Bool.false_ne_true)).trans ((if_neg Bool.false_ne_true).trans (if_neg hserve))))

theorem exec_apertureRead_atomic (hreach : s.reach (.tenant n) = true) :
    exec (.apertureRead (.tenant n rid) off ⟨len, true⟩) s = .next (s.emit (.unsupported (s.tnFn n))) :=
  congrArg Host.Outcome.next ((if_neg (by rw [State.devFailed_of_reach hreach]; exact Bool.false_ne_true)).trans
    ((if_neg (by rw [hreach]; exact Bool.false_ne_true)).trans (if_pos rfl)))

theorem exec_apertureRead_before_ready (hreach : s.reach (.tenant n) = true) (hready : s.ready = false) :
    exec (.apertureRead (.tenant n rid) off ⟨len, false⟩) s = .next (s.emit (.aperture (s.tnFn n) off.toNat (List.replicate len 0) false)) :=
  congrArg Host.Outcome.next ((if_neg (by rw [State.devFailed_of_reach hreach]; exact Bool.false_ne_true)).trans
    ((if_neg (by rw [hreach]; exact Bool.false_ne_true)).trans ((if_neg Bool.false_ne_true).trans (if_pos (by rw [hready]; rfl)))))

/-- A read within one compartment with no poisoned line answers its bytes. -/
theorem State.tenApRead_one {u : State} (hlen : 0 < len) (hone : off.toNat % 65536 + len ≤ 65536) {c : Nat} (hslot : u.slotComp n (off.toNat / 65536) = some c)
    (hclean : ∀ k, k < len → u.hmp.linePoison ((c * 65536 + off.toNat % 65536 + k) / 64) = false)
    (hwork : u.workAt (c * 65536 + off.toNat % 65536) = none) :
    u.tenApRead n off.toNat len = u.tick.emit (.aperture (u.tnFn n) off.toNat (u.hmp.rdN (c * 65536 + off.toNat % 65536) len) false) := by
  have haddr : u.apAddr n off.toNat = some (c * 65536 + off.toNat % 65536) := by rw [State.apAddr, hslot]; rfl
  have hdata : u.tenBytes n off.toNat len = u.hmp.rdN (c * 65536 + off.toNat % 65536) len := by
    rw [State.tenBytes, segs_of_one_unit hlen hone]
    simp [haddr, hwork]
  have hmiss : ((segs 65536 off.toNat len).find? fun sg => (u.slotComp n (sg.1 / 65536)).isNone) = none := by
    rw [segs_of_one_unit hlen hone]
    simp [hslot]
  have hpoison : u.apPoison n off.toNat len = none := by
    rw [State.apPoison, List.findSome?_eq_none_iff]
    intro sg hsg
    obtain ⟨hlo, hhi⟩ := mem_segs hsg
    have hplace : u.apAddr n sg.1 = some (c * 65536 + off.toNat % 65536 + (sg.1 - off.toNat)) := by
      rw [State.apAddr, show sg.1 / 65536 = off.toNat / 65536 by omega, hslot]
      refine congrArg some ?_
      show c * 65536 + sg.1 % 65536 = _
      omega
    have hline := hclean (sg.1 - off.toNat) (by omega)
    simp only [hplace, hline, Bool.false_eq_true, if_false]
  unfold State.tenApRead
  dsimp only
  rw [hpoison, hmiss, hdata]

/-- A read behind no compartment of the tenant answers zeros and counts an error. -/
theorem State.tenApRead_none {u : State} (hlen : 0 < len) (hone : off.toNat % 65536 + len ≤ 65536) (hslot : u.slotComp n (off.toNat / 65536) = none) :
    u.tenApRead n off.toNat len = (u.tenErr n (P.ten n 11) 0x40 0xFF off.toNat).tick.emit (.aperture (u.tnFn n) off.toNat (List.replicate len 0) false) := by
  have hdata : u.tenBytes n off.toNat len = List.replicate len 0 := by
    rw [State.tenBytes, segs_of_one_unit hlen hone]
    simp [State.apAddr, hslot]
  have hmiss : ((segs 65536 off.toNat len).find? fun sg => (u.slotComp n (sg.1 / 65536)).isNone) = some (off.toNat, len) := by
    rw [segs_of_one_unit hlen hone]
    simp [hslot]
  have hpoison : u.apPoison n off.toNat len = none := by
    rw [State.apPoison, List.findSome?_eq_none_iff]
    intro sg hsg
    obtain ⟨hlo, hhi⟩ := mem_segs hsg
    have hplace : u.apAddr n sg.1 = none := by
      rw [State.apAddr, show sg.1 / 65536 = off.toNat / 65536 by omega, hslot]
      rfl
    simp only [hplace]
  unfold State.tenApRead
  dsimp only
  rw [hpoison, hmiss, hdata]

/-- An error of a tenant counts on the page it names. -/
theorem State.errCnt_tenErr (s : State) {n pg : Nat} (hpg : pg ≠ P.ten n 10) (code rq addr : Nat) :
    (s.tenErr n pg code rq addr).fld pg F.PG_ERR_CNT = min 65535 (s.fld pg F.PG_ERR_CNT + 1) := by
  rw [State.tenErr, State.fld_flog_page hpg (by decide), State.errCnt_countErr]

end

/-! Tile requests. -/

section
variable {s : State} {x : Fin 512} {addr : BitVec 28} {len : Nat}

/-- A request within one line names one compartment. -/
theorem tileRequest_comps (hlen : 0 < len) (hone : addr.toNat % 64 + len ≤ 64) :
    (List.range ((addr.toNat + len - 1) / 65536 + 1 - addr.toNat / 65536)).map (addr.toNat / 65536 + ·) = [addr.toNat / 65536] := by
  rw [show (addr.toNat + len - 1) / 65536 + 1 - addr.toNat / 65536 = 1 by omega]
  rfl

theorem tileRequest_goes (hfence : s.fenced (x / 64) = false) (hlen : 0 < len) (hone : addr.toNat % 64 + len ≤ 64) :
    ¬ (s.fenced (x / 64) || len == 0 || decide (2 ^ 28 < addr.toNat + len)) = true := by
  have hlt := addr.isLt
  rw [hfence, beq_eq_false_iff_ne.2 (Nat.ne_of_gt hlen), decide_eq_false (by omega)]
  exact Bool.false_ne_true

/-- A core's read of a compartment of its partition. -/
theorem exec_tileRead (hfence : s.fenced (x / 64) = false) (hlen : 0 < len) (hone : addr.toNat % 64 + len ≤ 64) (h2 : (s.comp (addr.toNat / 65536)).state = 2)
    (hpart : s.cluPart (x / 8) = some (s.comp (addr.toNat / 65536)).part) (hclr : (s.comp (addr.toNat / 65536)).clearing = false) :
    exec (.tileHamperRequest x false addr none len) s =
      .next (s.emit (.tileData x (s.hmp.rdN addr.toNat len) (s.hmp.linePoison (addr.toNat / 64)))) := by
  have hin : s.inPart x (addr.toNat / 65536) = true := by rw [State.inPart, h2, hpart]; simp
  refine congrArg Host.Outcome.next ((if_neg (tileRequest_goes hfence hlen hone)).trans ((if_neg Bool.false_ne_true).trans ?_))
  simp only [tileRequest_comps hlen hone, segs_of_one_line hlen hone, hin, hclr, List.all_cons, List.all_nil, Bool.true_or, Bool.and_true, Bool.not_false, if_true,
    List.flatMap_cons, List.flatMap_nil, List.append_nil, List.any_cons, List.any_nil, Bool.or_false, Bool.true_and]

theorem exec_tileWrite (hfence : s.fenced (x / 64) = false) (hone : addr.toNat % 64 + len ≤ 64) (hlen : 0 < len) (h2 : (s.comp (addr.toNat / 65536)).state = 2)
    (hpart : s.cluPart (x / 8) = some (s.comp (addr.toNat / 65536)).part) (hclr : (s.comp (addr.toNat / 65536)).clearing = false) {data : List Byte}
    (hdata : data.length = len) :
    Completes (.tileHamperRequest x false addr (some data) 0) s fun t => t.stores = s.stores ∧ t.slices = s.slices ∧ t.regs = s.regs ∧ t.outs = s.outs ∧
      ∀ a, t.hmp.rd a = if addr.toNat ≤ a ∧ a < addr.toNat + len then data.getD (a - addr.toNat) 0 else s.hmp.rd a := by
  subst hdata
  have hin : s.inPart x (addr.toNat / 65536) = true := by rw [State.inPart, h2, hpart]; simp
  have hrun : exec (.tileHamperRequest x false addr (some data) 0) s = .next { s with hmp := s.hmp.wr addr.toNat data false } := by
    refine congrArg Host.Outcome.next ((if_neg (tileRequest_goes hfence hlen hone)).trans ((if_neg Bool.false_ne_true).trans ?_))
    simp only [tileRequest_comps hlen hone, segs_of_one_line hlen hone, hin, hclr, List.all_cons, List.all_nil, Bool.true_or, Bool.and_true, Bool.not_false, if_true,
      State.each_cons, State.each_nil, Nat.sub_self, List.drop_zero, List.take_length]
  exact ⟨_, hrun, rfl, rfl, rfl, rfl, fun a => Mem.rd_wr_getD _ _ _ _ _⟩

theorem exec_tileBootRead (hfence : s.fenced (x / 64) = false) (hlen : 0 < len) (hone : addr.toNat % 64 + len ≤ 64) :
    exec (.tileHamperRequest x true addr none len) s = .next (if (s.comp (addr.toNat / 65536)).state = 1 then
      s.emit (.tileData x (s.hmp.rdN addr.toNat len) (s.hmp.poisoned addr.toNat len)) else s) := by
  refine congrArg Host.Outcome.next ((if_neg (tileRequest_goes hfence hlen hone)).trans ((if_pos rfl).trans ?_))
  simp only [tileRequest_comps hlen hone, List.all_cons, List.all_nil, Bool.and_true, Option.isNone_none, Bool.true_and, beq_iff_eq]

/-- An address of another partition is counted. -/
theorem exec_tileRequest_alien (hfence : s.fenced (x / 64) = false) (hlen : 0 < len) (hone : addr.toNat % 64 + len ≤ 64)
    (hpart : s.cluPart (x / 8) ≠ some (s.comp (addr.toNat / 65536)).part) (hjob : s.coreJob x = none) :
    Completes (.tileHamperRequest x false addr none len) s fun t =>
      t = s.crossPartCount addr.toNat ∧ t.fld (P.hmp 0) F.PG_ERR_CNT = min 65535 (s.fld (P.hmp 0) F.PG_ERR_CNT + 1) ∧ s.sameBytes t := by
  have hout : s.inPart x (addr.toNat / 65536) = false := by rw [State.inPart, beq_eq_false_iff_ne.2 hpart, Bool.and_false]
  have hleft : s.leftJob x (addr.toNat / 65536) = false := by rw [State.leftJob, hjob]
  have hrun : exec (.tileHamperRequest x false addr none len) s = .next (s.crossPartCount addr.toNat) := by
    refine congrArg Host.Outcome.next ((if_neg (tileRequest_goes hfence hlen hone)).trans ((if_neg Bool.false_ne_true).trans ?_))
    simp only [tileRequest_comps hlen hone, hout, hleft, List.all_cons, List.all_nil, Bool.or_self, Bool.and_true, Bool.false_eq_true, if_false, hjob,
      Option.isSome_none]
  refine ⟨_, hrun, rfl, ?_, State.sameBytes_of_eq ?_ ?_ ?_⟩
  · rw [State.crossPartCount, State.fld_event_apart _ _ _ (by decide), State.errCnt_countErr]
  · simp [State.crossPartCount]
  · simp [State.crossPartCount]
  · simp [State.crossPartCount]

end

/-- Settles O42: a range within one compartment is one piece, and its compartment's state says what becomes of it. -/
theorem hamperRequests : Obligations.HamperRequests := by
  unfold Obligations.HamperRequests
  refine ⟨fun s n p rid off data len => ⟨fun w ws => exec_hamperWriteLand, fun hnone => ?_, fun hreach hready h3 h4 hlen hone => ⟨fun c hslot huse hwork => ?_,
      fun c hslot hpeer huse => ?_, fun hslot hpeer => ?_⟩, fun hreach hready hlen hone => ⟨fun hown hclr => ⟨fun hst => ?_, fun hst => ?_, fun hst => ?_⟩,
      fun hown => exec_apertureWrite_alien hreach hown false⟩, fun hreach h3 hlen hone hready => ⟨fun c a m hslot ha hm hclean hwork => ?_, fun hslot => ?_⟩,
      exec_apertureRead_atomic, fun hreach hready => exec_apertureRead_before_ready hreach hready, fun hfail at' => congrArg Host.Outcome.next (if_pos hfail)⟩,
    fun s x addr c len hc hfence hlen hone => ?_⟩
  · show execHamperWriteLand s = _
    rw [execHamperWriteLand, hnone]
  · have hkeep : ¬ (s.isPeer n rid.toNat && (s.comp c).use != 6) = true := by
      simp only [Bool.and_eq_true, bne_iff_ne, not_and, not_not]
      exact huse
    have hsome := s.tenPieces_one hlen hone (s.isPeer n rid.toNat) (n := n)
    simp only [hslot, if_neg hkeep, Option.toList_some] at hsome
    rw [exec_apertureWrite_tenant hreach hready h3 h4, State.tenApWrite_accepted hlen hone hsome hwork]
  · have hdrop : (s.isPeer n rid.toNat && (s.comp c).use != 6) = true := by rw [hpeer, bne_iff_ne.2 huse]; rfl
    have hnone := s.tenPieces_one hlen hone (s.isPeer n rid.toNat) (n := n)
    simp only [hslot, if_pos hdrop, Option.toList_none] at hnone
    rw [exec_apertureWrite_tenant hreach hready h3 h4, State.tenApWrite_missed hlen hone hnone, if_pos hpeer]
  · have hnone := s.tenPieces_one hlen hone (s.isPeer n rid.toNat) (n := n)
    simp only [hslot, Option.toList_none] at hnone
    rw [exec_apertureWrite_tenant hreach hready h3 h4, State.tenApWrite_missed hlen hone hnone, if_neg (by rw [hpeer]; exact Bool.false_ne_true)]
  · rw [exec_apertureWrite_owner hreach hready hown, State.ownApWrite_one hlen hone hclr hst, if_pos rfl]
  · rw [exec_apertureWrite_owner hreach hready hown, State.ownApWrite_one hlen hone hclr hst, if_neg (by decide), if_pos rfl]
  · rw [exec_apertureWrite_owner hreach hready hown, State.ownApWrite_one hlen hone hclr rfl, if_neg (by omega), if_neg (by omega), if_pos hst]
  · subst ha hm
    exact ⟨_, exec_apertureRead_serves hreach h3 hready, State.tenApRead_one hlen hone hslot hclean hwork⟩
  · refine ⟨_, (exec_apertureRead_serves hreach h3 hready).trans (congrArg Host.Outcome.next (State.tenApRead_none hlen hone hslot)), rfl, ?_⟩
    exact State.errCnt_tenErr _ (by simp [P.ten]) _ _ _
  · subst hc
    refine ⟨fun h2 hpart hclr => ⟨fun data hdata => exec_tileWrite hfence hone hlen h2 hpart hclr hdata, exec_tileRead hfence hlen hone h2 hpart hclr⟩,
      fun h1 => ?_, fun h1 => ?_, exec_tileRequest_alien hfence hlen hone⟩
    · rw [exec_tileBootRead hfence hlen hone, if_pos h1]
    · rw [exec_tileBootRead hfence hlen hone, if_neg h1]

end Sys2Proof.Machine
end

section
/-! The Hamper's banks (05 R100), allocation and release (R109-R111, R116, R121), and a tenant's quota query. -/
namespace Sys2Proof.Machine

/-! A compartment's lines over the banks. -/

/-- What the upper bits of compartment `c`'s addresses add to the bank of line `64 * h + l`. -/
def bankMask (c h : Nat) : Nat := (h + 16 * (c % 4)) ^^^ (c / 4 % 64) ^^^ (c / 256 % 16)

theorem bankMask_lt {c h : Nat} (hh : h < 16) : bankMask c h < 64 :=
  Nat.xor_lt_two_pow (n := 6) (Nat.xor_lt_two_pow (n := 6) (by omega) (by omega)) (by omega)

theorem hmpBank_line {c h l : Nat} (hh : h < 16) (hl : l < 64) :
    hmpBank (c * 65536 + 64 * (64 * h + l)) = l ^^^ bankMask c h := by
  have h6 : bits (c * 65536 + 64 * (64 * h + l)) 6 6 = l := by simp only [bits, Nat.reducePow]; omega
  have h12 : bits (c * 65536 + 64 * (64 * h + l)) 12 6 = h + 16 * (c % 4) := by simp only [bits, Nat.reducePow]; omega
  have h18 : bits (c * 65536 + 64 * (64 * h + l)) 18 6 = c / 4 % 64 := by simp only [bits, Nat.reducePow]; omega
  have h24 : bits (c * 65536 + 64 * (64 * h + l)) 24 4 = c / 256 % 16 := by simp only [bits, Nat.reducePow]; omega
  rw [hmpBank, h6, h12, h18, h24, bankMask, Nat.xor_assoc, Nat.xor_assoc, Nat.xor_assoc]

/-- Of 64 consecutive lines one is in each bank. -/
theorem countP_xor_mask {g b : Nat} (hg : g < 64) (hb : b < 64) : (List.range 64).countP (fun l => l ^^^ g == b) = 1 := by
  have hlt : b ^^^ g < 64 := Nat.xor_lt_two_pow (n := 6) hb hg
  have heq : (fun l => l ^^^ g == b) = fun l => l == b ^^^ g := by
    funext l
    refine Bool.eq_iff_iff.2 ?_
    rw [beq_iff_eq, beq_iff_eq]
    constructor
    · rintro rfl
      rw [Nat.xor_assoc, Nat.xor_self, Nat.xor_zero]
    · rintro rfl
      rw [Nat.xor_assoc, Nat.xor_self, Nat.xor_zero]
  rw [heq]
  exact List.count_eq_one_of_mem List.nodup_range (List.mem_range.2 hlt)

/-- Each bank holds 16 lines of a compartment. -/
theorem length_bank_lines {c b : Nat} (hb : b < 64) :
    ((List.range 1024).filter fun l => hmpBank (c * 65536 + 64 * l) == b).length = 16 := by
  have hrows : List.range 1024 = (List.range 16).flatMap fun h => (List.range 64).map (64 * h + ·) := by decide +kernel
  have hrow : ∀ h ∈ List.range 16, ((fun p => List.countP (fun l => hmpBank (c * 65536 + 64 * l) == b) p) ∘
      fun h => (List.range 64).map (64 * h + ·)) h = 1 := by
    intro h hh
    have hlt := List.mem_range.1 hh
    show List.countP _ ((List.range 64).map (64 * h + ·)) = 1
    rw [List.countP_map, ← countP_xor_mask (bankMask_lt (c := c) hlt) hb]
    exact List.countP_congr fun l hl => by
      show (hmpBank (c * 65536 + 64 * (64 * h + l)) == b) = true ↔ _
      rw [hmpBank_line hlt (List.mem_range.1 hl)]
  rw [← List.countP_eq_length_filter, hrows, List.countP_flatMap, List.map_congr_left hrow]
  decide

/-! What an allocation command reads. -/

/-- The argument registers and the state an allocation command's checks read are other fields than the command's operation. -/
theorem State.fld_setAllocOp_disp (s : State) (op n : Nat) {off lo len : Nat} :
    (s.setFld (P.hmp 3) F.HMP_ALLOC_CMD_op op).fld (P.disp 1) ⟨off + n, lo, len⟩ = s.fld (P.disp 1) ⟨off + n, lo, len⟩ :=
  State.fld_setFld_ne _ _ _ _ _ _ (by simp only [fkey, P.disp, P.hmp, F.HMP_ALLOC_CMD_op]; omega)

section
variable (s : State) (op : Nat)

theorem State.allocArgs_setOp : (s.setFld (P.hmp 3) F.HMP_ALLOC_CMD_op op).allocArgs = s.allocArgs := by
  simp only [State.allocArgs, State.fld_setFld_apart s (P.hmp 3) (P.hmp 3) op (f := F.HMP_ALLOC_ARG0_first) (g := F.HMP_ALLOC_CMD_op) rfl,
    State.fld_setFld_apart s (P.hmp 3) (P.hmp 3) op (f := F.HMP_ALLOC_ARG0_count) (g := F.HMP_ALLOC_CMD_op) rfl,
    State.fld_setFld_apart s (P.hmp 3) (P.hmp 3) op (f := F.HMP_ALLOC_ARG1_partition) (g := F.HMP_ALLOC_CMD_op) rfl,
    State.fld_setFld_apart s (P.hmp 3) (P.hmp 3) op (f := F.HMP_ALLOC_ARG1_tenant) (g := F.HMP_ALLOC_CMD_op) rfl,
    State.fld_setFld_apart s (P.hmp 3) (P.hmp 3) op (f := F.HMP_ALLOC_ARG1_tenant_valid) (g := F.HMP_ALLOC_CMD_op) rfl,
    State.fld_setFld_apart s (P.hmp 3) (P.hmp 3) op (f := F.HMP_ALLOC_ARG1_use) (g := F.HMP_ALLOC_CMD_op) rfl,
    State.fld_setFld_apart s (P.hmp 3) (P.hmp 3) op (f := F.HMP_ALLOC_ARG1_slot) (g := F.HMP_ALLOC_CMD_op) rfl]

theorem State.allocCommon_setOp (k : Nat) (a : AllocArgs) : (s.setFld (P.hmp 3) F.HMP_ALLOC_CMD_op op).allocCommon k a = s.allocCommon k a := by
  have hpt : (s.setFld (P.hmp 3) F.HMP_ALLOC_CMD_op op).fld (P.pt a.part) F.PT_STS_state = s.fld (P.pt a.part) F.PT_STS_state :=
    State.fld_setFld_apart s _ _ _ rfl
  have hbound : (s.setFld (P.hmp 3) F.HMP_ALLOC_CMD_op op).bound a.tn = s.bound a.tn := State.flag_of_fld (State.fld_setAllocOp_disp s op _)
  have hpart : (s.setFld (P.hmp 3) F.HMP_ALLOC_CMD_op op).tnPart a.tn = s.tnPart a.tn := State.fld_setAllocOp_disp s op _
  have hten : (s.setFld (P.hmp 3) F.HMP_ALLOC_CMD_op op).tnState a.tn = s.tnState a.tn := State.fld_setFld_apart s _ _ _ rfl
  rw [State.allocCommon, hpt, hbound, hpart, hten]
  rfl

theorem State.hmp2_setOp {f : Fld} (hf : f.inside = true) : (s.setFld (P.hmp 3) F.HMP_ALLOC_CMD_op op).fld (P.hmp 2) f = s.fld (P.hmp 2) f :=
  State.fld_setFld_page s _ _ _ (by decide) hf rfl

theorem hmpPt_inside {p : Nat} (hp : p < 8) : (F.HMP_PT_USED_used p).inside = true ∧ (F.HMP_PT_BUDGET_budget p).inside = true := by
  have hused : 0x044 + 8 * p < 4096 := by omega
  have hbudget : 0x040 + 8 * p < 4096 := by omega
  simp [Fld.inside, F.HMP_PT_USED_used, F.HMP_PT_BUDGET_budget, hused, hbudget]

theorem State.allocCheck_setOp {a : AllocArgs} (ha : a.part < 8) :
    (s.setFld (P.hmp 3) F.HMP_ALLOC_CMD_op op).allocCheck a = s.allocCheck a := by
  obtain ⟨hused, hbudget⟩ := hmpPt_inside ha
  have htused : (s.setFld (P.hmp 3) F.HMP_ALLOC_CMD_op op).fld (P.ten a.tn 11) F.HMP_TQ_USED_used = s.fld (P.ten a.tn 11) F.HMP_TQ_USED_used :=
    State.fld_setFld_apart s _ _ _ rfl
  have htlimit : (s.setFld (P.hmp 3) F.HMP_ALLOC_CMD_op op).fld (P.ten a.tn 11) F.HMP_TQ_LIMIT_limit = s.fld (P.ten a.tn 11) F.HMP_TQ_LIMIT_limit :=
    State.fld_setFld_apart s _ _ _ rfl
  rw [State.allocCheck, State.allocCheck, State.allocCommon_setOp, State.hmp2_setOp s op hused, State.hmp2_setOp s op hbudget, htused, htlimit]
  rfl

theorem State.freeCheck_setOp (a : AllocArgs) : (s.setFld (P.hmp 3) F.HMP_ALLOC_CMD_op op).freeCheck a = s.freeCheck a := by
  rw [State.freeCheck, State.freeCheck, State.allocCommon_setOp]
  rfl

end

/-! The answers fit their fields. -/

theorem State.allocCommon_le {s : State} {op r : Nat} {a : AllocArgs} (h : s.allocCommon op a = some r) : r ≤ 3 := by
  unfold State.allocCommon at h
  split at h
  · cases h; decide
  · split at h
    · cases h; decide
    · split at h
      · cases h; decide
      · cases h

theorem State.allocCommon_none {s : State} {op : Nat} {a : AllocArgs} (h : s.allocCommon op a = none) : a.first + a.count ≤ 4096 := by
  unfold State.allocCommon at h
  split at h
  · cases h
  · next hlen => omega

theorem State.allocCheck_le {s : State} {r w : Nat} {a : AllocArgs} (h : s.allocCheck a = some (r, w)) : r < 16 := by
  unfold State.allocCheck at h
  split at h
  · next r' hc =>
    cases h
    exact Nat.lt_of_le_of_lt (State.allocCommon_le hc) (by decide)
  · split at h
    · cases h; decide
    · split at h
      · cases h; decide
      · split at h
        · cases h; decide
        · split at h
          · split at h
            · cases h; decide
            · cases h
          · cases h

theorem State.freeCheck_le {s : State} {r w : Nat} {a : AllocArgs} (h : s.freeCheck a = some (r, w)) : r < 16 := by
  unfold State.freeCheck at h
  split at h
  · next r' hc =>
    cases h
    exact Nat.lt_of_le_of_lt (State.allocCommon_le hc) (by decide)
  · split at h
    · cases h; decide
    · split at h
      · cases h; decide
      · cases h

theorem State.freeCheck_none {s : State} {a : AllocArgs} (h : s.freeCheck a = none) : a.first + a.count ≤ 4096 := by
  unfold State.freeCheck at h
  split at h
  · cases h
  · next hc => exact State.allocCommon_none hc

/-! The command's end. -/

/-- What the end of an allocation command leaves. -/
theorem State.allocEnd_spec (s : State) {r : Nat} (hr : r < 16) (w : Nat) :
    (s.allocEnd r w).fld (P.hmp 3) F.HMP_ALLOC_RES_result = r ∧ (s.allocEnd r w).fld (P.hmp 3) F.HMP_ALLOC_RES_where = w % 4096 ∧
      (s.allocEnd r w).flag (P.hmp 3) F.HMP_ALLOC_RES_busy = false ∧ (s.allocEnd r w).cmap = s.cmap ∧ s.sameBytes (s.allocEnd r w) := by
  have hres : (s.allocEnd r w).fld (P.hmp 3) F.HMP_ALLOC_RES_result = r := by
    rw [State.allocEnd, State.fld_event_apart _ _ _ rfl, State.fld_setFld_apart _ _ _ _ rfl, State.fld_setFld_of_lt _ _ _ hr]
  have hwhere : (s.allocEnd r w).fld (P.hmp 3) F.HMP_ALLOC_RES_where = w % 4096 := by
    rw [State.allocEnd, State.fld_event_apart _ _ _ rfl, State.fld_setFld_self]
    rfl
  have hbusy : (s.allocEnd r w).flag (P.hmp 3) F.HMP_ALLOC_RES_busy = false := by
    rw [State.allocEnd, State.flag_event_apart _ _ _ rfl, State.flag_setFld_apart _ _ _ _ rfl, State.flag_setFld_apart _ _ _ _ rfl,
      State.flag_setFlag_self _ _ (by decide)]
  refine ⟨hres, hwhere, hbusy, State.event_cmap _ _ _, ?_⟩
  exact State.RegsOnly.sameBytes ((((State.RegsOnly.setFld _ _ _ _).trans (.setFld _ _ _ _)).trans (.setFld _ _ _ _)).trans (.setFld _ _ _ _) |>.trans (.event _ _ _))

/-! The commands. -/

section
variable {s : State} {rq : Requester} (hg : s.grants rq (P.hmp 3) = true)
include hg

theorem exec_hmpAlloc : exec (.hmpAlloc rq) s = .next (s.allocWrite rq 1 true) :=
  congrArg Host.Outcome.next (State.privWrite_of_grants hg _ _)

theorem exec_hmpFree : exec (.hmpFree rq) s = .next (s.allocWrite rq 2 true) :=
  congrArg Host.Outcome.next (State.privWrite_of_grants hg _ _)

end

section
variable {s : State} (hbusy : s.flag (P.hmp 3) F.HMP_ALLOC_RES_busy = false)
include hbusy

theorem State.allocWrite_alloc (rq : Requester) : s.allocWrite rq 1 true = (s.setFld (P.hmp 3) F.HMP_ALLOC_CMD_op 1).allocRun := by
  rw [State.allocWrite, if_neg (by rw [hbusy]; decide)]
  rfl

theorem State.allocWrite_free (rq : Requester) : s.allocWrite rq 2 true = (s.setFld (P.hmp 3) F.HMP_ALLOC_CMD_op 2).freeRun := by
  rw [State.allocWrite, if_neg (by rw [hbusy]; decide)]
  rfl

end

/-! An allocation. -/

/-- The compartment that an allocation gives place `i` of its range. -/
def AllocArgs.comp (a : AllocArgs) (i : Nat) : Comp := ⟨2, a.use, a.part, if a.tv then a.tn else 0, a.tv, false, false, if a.tv then a.slot + i else 0⟩

theorem State.comp_assign_list (l : List Nat) (a : AllocArgs) (s : State) (c : Nat) :
    (s.each l fun i s => s.setComp (a.first + i) (a.comp i)).comp c =
      if a.first ≤ c ∧ c - a.first ∈ l then a.comp (c - a.first) else s.comp c := by
  induction l generalizing s with
  | nil => simp
  | cons i l ih =>
    rw [State.each_cons, ih, State.comp_setComp]
    by_cases hl : a.first ≤ c ∧ c - a.first ∈ l
    · rw [if_pos hl, if_pos ⟨hl.1, List.mem_cons_of_mem _ hl.2⟩]
    · rw [if_neg hl]
      by_cases hc : c = a.first + i
      · subst hc
        rw [if_pos rfl, Nat.add_sub_cancel_left, if_pos ⟨Nat.le_add_right _ _, List.mem_cons_self⟩]
      · rw [if_neg hc, if_neg]
        rintro ⟨hle, hmem⟩
        rcases List.mem_cons.1 hmem with heq | hmem
        · omega
        · exact hl ⟨hle, hmem⟩

theorem State.comp_assignComps (s : State) (a : AllocArgs) (c : Nat) :
    (s.assignComps a).comp c = if a.first ≤ c ∧ c < a.first + a.count then a.comp (c - a.first) else s.comp c := by
  rw [State.assignComps, show (s.each (List.range a.count) fun i s =>
    s.setComp (a.first + i) ⟨2, a.use, a.part, if a.tv then a.tn else 0, a.tv, false, false, if a.tv then a.slot + i else 0⟩) =
    s.each (List.range a.count) fun i s => s.setComp (a.first + i) (a.comp i) from rfl, State.comp_assign_list]
  refine if_congr ?_ rfl rfl
  rw [List.mem_range]
  omega

theorem State.sameBytes_assignComps (s : State) (a : AllocArgs) : s.sameBytes (s.assignComps a) :=
  State.each_keeps (fun u => s.sameBytes u) s _ _ (fun _ _ u hu => hu.trans (.refl u)) (.refl s)

theorem State.setFree_only (s : State) (n : Nat) : s.RegsOnly (s.setFree n) := by
  unfold State.setFree
  dsimp only
  split
  · exact (State.RegsOnly.setFld _ _ _ _).trans (.event _ _ _)
  · exact .setFld _ _ _ _

/-- What an allocation leaves before its end. -/
def State.allocDone (s : State) (a : AllocArgs) : State :=
  let s2 := ((s.assignComps a).setFld (P.hmp 2) (F.HMP_PT_USED_used a.part) (s.fld (P.hmp 2) (F.HMP_PT_USED_used a.part) + a.count)).setFree
    (s.fld (P.hmp 0) F.HMP_STS_free_cnt - a.count)
  if a.tv then (s2.setFld (P.ten a.tn 11) F.HMP_TQ_USED_used (s.fld (P.ten a.tn 11) F.HMP_TQ_USED_used + a.count)).event (P.ten a.tn 11) 0 else s2

theorem State.allocDone_only (s : State) (a : AllocArgs) : (s.assignComps a).RegsOnly (s.allocDone a) := by
  have hfree := (State.RegsOnly.setFld (s.assignComps a) (P.hmp 2) (F.HMP_PT_USED_used a.part) (s.fld (P.hmp 2) (F.HMP_PT_USED_used a.part) + a.count)).trans
    (State.setFree_only _ (s.fld (P.hmp 0) F.HMP_STS_free_cnt - a.count))
  unfold State.allocDone
  dsimp only
  split
  · exact (hfree.trans (.setFld _ _ _ _)).trans (.event _ _ _)
  · exact hfree

theorem State.allocRun_none {s : State} {a : AllocArgs} (ha : s.allocArgs = a) (h : s.allocCheck a = none) : s.allocRun = (s.allocDone a).allocEnd 0 0 := by
  rw [State.allocRun]
  dsimp only
  rw [ha, h]
  rfl

theorem State.allocRun_some {s : State} {a : AllocArgs} {r w : Nat} (ha : s.allocArgs = a) (h : s.allocCheck a = some (r, w)) : s.allocRun = s.allocEnd r w := by
  rw [State.allocRun]
  dsimp only
  rw [ha, h]

/-! A release. -/

theorem State.freeRun_some {s : State} {a : AllocArgs} {r w : Nat} (ha : s.allocArgs = a) (h : s.freeCheck a = some (r, w)) : s.freeRun = s.allocEnd r w := by
  rw [State.freeRun]
  dsimp only
  rw [ha, h]

/-- The compartments that a release clears are marked. -/
def State.markClearing (s : State) (l : List Nat) : State := s.each l fun c s => s.setComp c { s.comp c with clearing := true }

theorem State.comp_markClearing (l : List Nat) (s : State) (c : Nat) :
    (s.markClearing l).comp c = if c ∈ l then { s.comp c with clearing := true } else s.comp c := by
  induction l generalizing s with
  | nil => rfl
  | cons d l ih =>
    rw [State.markClearing, State.each_cons]
    show (State.markClearing _ l).comp c = _
    rw [ih, State.comp_setComp]
    by_cases hd : c = d
    · subst hd
      simp
    · simp [hd]

theorem State.markClearing_keeps (l : List Nat) (s : State) : (s.markClearing l).hmp = s.hmp ∧ (s.markClearing l).hmpPend = s.hmpPend :=
  State.each_keeps (fun u => u.hmp = s.hmp ∧ u.hmpPend = s.hmpPend) s l _ (fun _ _ _ hu => hu) ⟨rfl, rfl⟩

theorem AllocArgs.mem_comps {a : AllocArgs} {c : Nat} : c ∈ a.comps ↔ a.first ≤ c ∧ c < a.first + a.count := by
  rw [AllocArgs.comps, List.mem_map]
  constructor
  · rintro ⟨i, hi, rfl⟩
    have := List.mem_range.1 hi
    omega
  · rintro ⟨hle, hlt⟩
    exact ⟨c - a.first, List.mem_range.2 (by omega), by omega⟩

/-- A byte after compartments were cleared. -/
theorem Mem.rd_clearComps (l : List Nat) (m : Mem) (k : Nat) :
    (l.foldl (fun m c => m.clear (c * 65536) 65536) m).rd k = if k / 65536 ∈ l then 0 else m.rd k := by
  induction l generalizing m with
  | nil => simp
  | cons c l ih =>
    rw [List.foldl_cons, ih, Mem.rd_clear]
    have hiff : c * 65536 ≤ k ∧ k < c * 65536 + 65536 ↔ k / 65536 = c := by omega
    by_cases hc : k / 65536 = c
    · simp [hiff.2 hc, hc]
    · simp [mt hiff.1 hc, hc]

/-- What a release leaves. -/
def State.freeDone (s : State) (a : AllocArgs) : State :=
  { ((((s.landAll.hmpClearComps a.comps).leave a).markClearing a.comps).setFlag (P.hmp 3) F.HMP_ALLOC_CMD_go true).setFlag (P.hmp 3)
    F.HMP_ALLOC_RES_busy true with hmpClr := some (a.first, a.count) }

theorem State.freeRun_none {s : State} {a : AllocArgs} (ha : s.allocArgs = a) (h : s.freeCheck a = none) : s.freeRun = s.freeDone a := by
  rw [State.freeRun]
  dsimp only
  rw [ha, h]
  rfl

theorem State.freeDone_spec (s : State) (a : AllocArgs) :
    (s.freeDone a).hmpClr = some (a.first, a.count) ∧ (s.freeDone a).hmpPend = [] ∧ (s.freeDone a).flag (P.hmp 3) F.HMP_ALLOC_RES_busy = true ∧
      (∀ c, (s.freeDone a).comp c = if a.first ≤ c ∧ c < a.first + a.count then { s.comp c with clearing := true } else s.comp c) ∧
      (∀ k, a.first * 65536 ≤ k → k < (a.first + a.count) * 65536 → (s.freeDone a).hmp.rd k = 0) ∧
      (s.hmpPend = [] → ∀ k, k < a.first * 65536 ∨ (a.first + a.count) * 65536 ≤ k → (s.freeDone a).hmp.rd k = s.hmp.rd k) := by
  obtain ⟨hhmp, hpend⟩ := State.markClearing_keeps a.comps ((s.landAll.hmpClearComps a.comps).leave a)
  have hrd : ∀ k, (s.freeDone a).hmp.rd k = if k / 65536 ∈ a.comps then 0 else s.landAll.hmp.rd k := fun k =>
    (congrArg (fun m : Mem => m.rd k) hhmp).trans (Mem.rd_clearComps _ _ _)
  refine ⟨rfl, hpend, ?_, fun c => ?_, fun k hlo hhi => ?_, fun hnone k hk => ?_⟩
  · have hset := State.flag_setFlag_self ((((s.landAll.hmpClearComps a.comps).leave a).markClearing a.comps).setFlag (P.hmp 3) F.HMP_ALLOC_CMD_go true)
      (P.hmp 3) (f := F.HMP_ALLOC_RES_busy) (by decide) true
    exact hset
  · refine (State.comp_markClearing a.comps _ c).trans ?_
    exact if_congr AllocArgs.mem_comps rfl rfl
  · rw [hrd, if_pos (AllocArgs.mem_comps.2 (by omega))]
  · rw [hrd, if_neg (fun hmem => by have := AllocArgs.mem_comps.1 hmem; omega), State.landAll, hnone]
    rfl

/-! The end of a clear. -/

theorem State.freeComp_spec (s : State) (c : Nat) : (∀ d, (s.freeComp c).comp d = if d = c then Comp.free else s.comp d) ∧ s.sameBytes (s.freeComp c) := by
  have hregs : (s.setComp c Comp.free).RegsOnly (s.freeComp c) := by
    unfold State.freeComp
    dsimp only
    split
    · exact ((State.RegsOnly.setFld _ _ _ _).trans (State.setFree_only _ _)).trans (.setFld _ _ _ _)
    · exact (State.RegsOnly.setFld _ _ _ _).trans (State.setFree_only _ _)
  have hcmap := hregs.cmap
  refine ⟨fun d => ?_, State.sameBytes.trans (.refl s) hregs.sameBytes⟩
  rw [State.comp, hcmap]
  exact State.comp_setComp s c Comp.free d

theorem State.each_freeComp_spec (l : List Nat) (s : State) :
    (∀ d, (s.each l fun c s => s.freeComp c).comp d = if d ∈ l then Comp.free else s.comp d) ∧ s.sameBytes (s.each l fun c s => s.freeComp c) := by
  induction l generalizing s with
  | nil => exact ⟨fun _ => rfl, .refl s⟩
  | cons c l ih =>
    obtain ⟨hcomp, hbytes⟩ := s.freeComp_spec c
    obtain ⟨hcomps, hrest⟩ := ih (s.freeComp c)
    refine ⟨fun d => ?_, hbytes.trans hrest⟩
    rw [State.each_cons, hcomps, hcomp]
    by_cases hd : d = c <;> simp [hd]

theorem exec_hamperClearDone {s : State} {f k : Nat} (h : s.hmpClr = some (f, k)) : Completes .hamperClearDone s fun t => t.hmpClr = none ∧
    (∀ c, t.comp c = if f ≤ c ∧ c < f + k then Comp.free else s.comp c) ∧
    t.flag (P.hmp 3) F.HMP_ALLOC_RES_busy = false ∧ t.fld (P.hmp 3) F.HMP_ALLOC_RES_result = 0 ∧ s.sameBytes t := by
  obtain ⟨hcomp, hbytes⟩ := State.each_freeComp_spec ((List.range k).map (f + ·)) s
  generalize hu : (s.each ((List.range k).map (f + ·)) fun c s => s.freeComp c) = u at hcomp hbytes
  have hrun : exec .hamperClearDone s =
      .next { (if (s.comp f).tv then u.event (P.ten (s.comp f).tn 11) 0 else u).allocEnd 0 0 with hmpClr := none } := by
    show Host.Outcome.next s.clearDone = _
    rw [State.clearDone, h, ← hu]
  have hev : u.RegsOnly (if (s.comp f).tv then u.event (P.ten (s.comp f).tn 11) 0 else u) := by
    split
    · exact .event _ _ _
    · exact .refl _
  generalize (if (s.comp f).tv then u.event (P.ten (s.comp f).tn 11) 0 else u) = v at hrun hev
  obtain ⟨hres, -, hbusy, hcmap, hend⟩ := v.allocEnd_spec (r := 0) (by decide) 0
  refine ⟨_, hrun, rfl, fun c => ?_, hbusy, hres, ?_⟩
  · refine (congrArg (fun m => Tab.get comp0 m c) (hcmap.trans hev.cmap)).trans ((hcomp c).trans (if_congr ?_ rfl rfl))
    exact AllocArgs.mem_comps (a := ⟨f, k, 0, 0, false, 0, 0⟩)
  · exact (hbytes.trans hev.sameBytes).trans hend

/-! A quota query. -/

theorem exec_hmpTqQuery {s : State} {rq : Requester} {n : Fin 128} (h : s.grantsTen rq n 11 = true) (slot : BitVec 12) :
    exec (.hmpTqQuery rq n slot) s = .next (s.slotQuery n slot.toNat) := by
  refine congrArg Host.Outcome.next ?_
  cases rq with
  | tenant m =>
    simp only [State.grantsTen, Bool.and_eq_true, beq_iff_eq, bne_iff_ne] at h
    obtain ⟨⟨⟨⟨hm, hready⟩, hreach⟩, hstate⟩, hclear⟩ := h
    obtain rfl : m = n := Fin.ext hm
    have hland : s.landFor (.tenant m) = s := State.landClient_of_portClear hclear
    show (if s.reach (.tenant m) = true then (s.landFor (.tenant m)).tenApply m m (fun s => s.slotQuery m slot.toNat) else s) = _
    rw [if_pos hreach, hland, State.tenApply, if_pos (by simp [hready, hstate])]
  | pf p => exact State.privWrite_of_grants h _ _
  | mgt => exact State.privWrite_of_grants h _ _
  | fw => exact State.privWrite_of_grants h _ _

/-- What a quota query leaves besides the run of the slots. -/
theorem State.slotQuery_spec (s : State) (n slot : Nat) (hslot : slot < 4096) :
    (s.slotQuery n slot).fld (P.ten n 11) F.HMP_TQ_QUERY_slot = slot ∧
      (∀ c, s.slotComp n slot = some c → (s.slotQuery n slot).flag (P.ten n 11) F.HMP_TQ_QUERY_RES_mapped = true ∧
        (s.slotQuery n slot).fld (P.ten n 11) F.HMP_TQ_QUERY_RES_use = (s.comp c).use % 16 ∧
        (s.slotQuery n slot).flag (P.ten n 11) F.HMP_TQ_QUERY_RES_bound = (s.comp c).bound) ∧
      (s.slotComp n slot = none → (s.slotQuery n slot).flag (P.ten n 11) F.HMP_TQ_QUERY_RES_mapped = false ∧
        (s.slotQuery n slot).fld (P.ten n 11) F.HMP_TQ_QUERY_RES_run = 0) := by
  have hset : ∀ (b b' : Bool) (v v' : Nat) (t : State),
      t = ((((s.setFld (P.ten n 11) F.HMP_TQ_QUERY_slot slot).setFlag (P.ten n 11) F.HMP_TQ_QUERY_RES_mapped b).setFld (P.ten n 11)
        F.HMP_TQ_QUERY_RES_use v).setFlag (P.ten n 11) F.HMP_TQ_QUERY_RES_bound b').setFld (P.ten n 11) F.HMP_TQ_QUERY_RES_run v' →
      t.fld (P.ten n 11) F.HMP_TQ_QUERY_slot = slot ∧ t.flag (P.ten n 11) F.HMP_TQ_QUERY_RES_mapped = b ∧
        t.fld (P.ten n 11) F.HMP_TQ_QUERY_RES_use = v % 16 ∧ t.flag (P.ten n 11) F.HMP_TQ_QUERY_RES_bound = b' ∧
        t.fld (P.ten n 11) F.HMP_TQ_QUERY_RES_run = v' % 4096 := by
    rintro b b' v v' t rfl
    refine ⟨?_, ?_, ?_, ?_, State.fld_setFld_self _ _ _ _⟩
    · rw [State.fld_setFld_apart _ _ _ _ rfl, State.fld_setFlag_apart _ _ _ rfl, State.fld_setFld_apart _ _ _ _ rfl,
        State.fld_setFlag_apart _ _ _ rfl, State.fld_setFld_of_lt _ _ _ hslot]
    · rw [State.flag_setFld_apart _ _ _ _ rfl, State.flag_setFlag_apart _ _ _ rfl, State.flag_setFld_apart _ _ _ _ rfl,
        State.flag_setFlag_self _ _ (by decide)]
    · rw [State.fld_setFld_apart _ _ _ _ rfl, State.fld_setFlag_apart _ _ _ rfl, State.fld_setFld_self]
      rfl
    · rw [State.flag_setFld_apart _ _ _ _ rfl, State.flag_setFlag_self _ _ (by decide)]
  have hsame : (s.setFld (P.ten n 11) F.HMP_TQ_QUERY_slot slot).slotComp n slot = s.slotComp n slot := rfl
  generalize ht : s.slotQuery n slot = t
  unfold State.slotQuery at ht
  dsimp only at ht
  rw [hsame] at ht
  cases hc : s.slotComp n slot with
  | none =>
    rw [hc] at ht
    obtain ⟨h1, h2, -, -, h5⟩ := hset false false 0 0 t ht.symm
    exact ⟨h1, ⟨fun c h => absurd h (by simp), fun _ => ⟨h2, h5⟩⟩⟩
  | some c =>
    rw [hc] at ht
    obtain ⟨h1, h2, h3, h4, -⟩ := hset true _ _ _ t ht.symm
    exact ⟨h1, ⟨fun d h => Option.some.inj h ▸ ⟨h2, h3, h4⟩, fun h => absurd h (by simp)⟩⟩

/-! The obligation. -/

section
variable {s : State} {rq : Requester} {a : AllocArgs} (hg : s.grants rq (P.hmp 3) = true) (hbusy : s.flag (P.hmp 3) F.HMP_ALLOC_RES_busy = false)
  (ha : a = s.allocArgs)
include hg hbusy ha

theorem completes_hmpAlloc (hpart : a.part < 8) (hc : s.allocCheck a = none) : Completes (.hmpAlloc rq) s fun t =>
    (∀ i, i < a.count → t.comp (a.first + i) = ⟨2, a.use, a.part, if a.tv then a.tn else 0, a.tv, false, false, if a.tv then a.slot + i else 0⟩) ∧
    (∀ c, c < a.first ∨ a.first + a.count ≤ c → t.comp c = s.comp c) ∧
    t.fld (P.hmp 3) F.HMP_ALLOC_RES_result = 0 ∧ t.flag (P.hmp 3) F.HMP_ALLOC_RES_busy = false ∧ s.sameBytes t := by
  have hrun : s.allocWrite rq 1 true = ((s.setFld (P.hmp 3) F.HMP_ALLOC_CMD_op 1).allocDone a).allocEnd 0 0 := by
    rw [State.allocWrite_alloc hbusy, State.allocRun_none ((State.allocArgs_setOp s 1).trans ha.symm) ((State.allocCheck_setOp s 1 hpart).trans hc)]
  have hset : s.sameBytes (s.setFld (P.hmp 3) F.HMP_ALLOC_CMD_op 1) := .refl s
  have hcomps : ∀ c, (s.setFld (P.hmp 3) F.HMP_ALLOC_CMD_op 1).comp c = s.comp c := fun _ => rfl
  generalize s.setFld (P.hmp 3) F.HMP_ALLOC_CMD_op 1 = u at hrun hset hcomps
  obtain ⟨hres, -, hidle, hcmap, hend⟩ := (u.allocDone a).allocEnd_spec (r := 0) (by decide) 0
  have honly := u.allocDone_only a
  have hcomp : ∀ c, ((u.allocDone a).allocEnd 0 0).comp c = if a.first ≤ c ∧ c < a.first + a.count then a.comp (c - a.first) else s.comp c := fun c =>
    (congrArg (fun m => Tab.get comp0 m c) (hcmap.trans honly.cmap)).trans ((u.comp_assignComps a c).trans (by rw [hcomps]))
  refine ⟨_, (exec_hmpAlloc hg).trans (congrArg _ hrun), fun i hi => ?_, fun c hc => ?_, hres, hidle, ?_⟩
  · rw [hcomp, if_pos (by omega), Nat.add_sub_cancel_left]
    rfl
  · rw [hcomp, if_neg (by omega)]
  · exact ((hset.trans (u.sameBytes_assignComps a)).trans honly.sameBytes).trans hend

theorem completes_hmpAlloc_refused (hpart : a.part < 8) {r w : Nat} (hc : s.allocCheck a = some (r, w)) : Completes (.hmpAlloc rq) s fun t =>
    t.fld (P.hmp 3) F.HMP_ALLOC_RES_result = r ∧ t.fld (P.hmp 3) F.HMP_ALLOC_RES_where = w % 4096 ∧ t.cmap = s.cmap ∧ s.sameBytes t := by
  have hrun : s.allocWrite rq 1 true = (s.setFld (P.hmp 3) F.HMP_ALLOC_CMD_op 1).allocEnd r w := by
    rw [State.allocWrite_alloc hbusy, State.allocRun_some ((State.allocArgs_setOp s 1).trans ha.symm) ((State.allocCheck_setOp s 1 hpart).trans hc)]
  obtain ⟨hres, hwhere, -, hcmap, hend⟩ := (s.setFld (P.hmp 3) F.HMP_ALLOC_CMD_op 1).allocEnd_spec (State.allocCheck_le hc) w
  exact ⟨_, (exec_hmpAlloc hg).trans (congrArg _ hrun), hres, hwhere, hcmap, State.sameBytes.trans (.refl s) hend⟩

theorem completes_hmpFree (hc : s.freeCheck a = none) : Completes (.hmpFree rq) s fun t => t.hmpClr = some (a.first, a.count) ∧ t.hmpPend = [] ∧
    t.flag (P.hmp 3) F.HMP_ALLOC_RES_busy = true ∧
    (∀ c, t.comp c = if a.first ≤ c ∧ c < a.first + a.count then { s.comp c with clearing := true } else s.comp c) ∧
    (∀ k, a.first * 65536 ≤ k → k < (a.first + a.count) * 65536 → t.hmp.rd k = 0) ∧
    (s.hmpPend = [] → ∀ k, k < a.first * 65536 ∨ (a.first + a.count) * 65536 ≤ k → t.hmp.rd k = s.hmp.rd k) := by
  have hrun : s.allocWrite rq 2 true = (s.setFld (P.hmp 3) F.HMP_ALLOC_CMD_op 2).freeDone a := by
    rw [State.allocWrite_free hbusy, State.freeRun_none ((State.allocArgs_setOp s 2).trans ha.symm) ((State.freeCheck_setOp s 2 a).trans hc)]
  exact ⟨_, (exec_hmpFree hg).trans (congrArg _ hrun), (s.setFld (P.hmp 3) F.HMP_ALLOC_CMD_op 2).freeDone_spec a⟩

theorem completes_hmpFree_refused {r w : Nat} (hc : s.freeCheck a = some (r, w)) : Completes (.hmpFree rq) s fun t =>
    t.fld (P.hmp 3) F.HMP_ALLOC_RES_result = r ∧ t.fld (P.hmp 3) F.HMP_ALLOC_RES_where = w % 4096 ∧ t.cmap = s.cmap ∧ s.sameBytes t := by
  have hrun : s.allocWrite rq 2 true = (s.setFld (P.hmp 3) F.HMP_ALLOC_CMD_op 2).allocEnd r w := by
    rw [State.allocWrite_free hbusy, State.freeRun_some ((State.allocArgs_setOp s 2).trans ha.symm) ((State.freeCheck_setOp s 2 a).trans hc)]
  obtain ⟨hres, hwhere, -, hcmap, hend⟩ := (s.setFld (P.hmp 3) F.HMP_ALLOC_CMD_op 2).allocEnd_spec (State.freeCheck_le hc) w
  exact ⟨_, (exec_hmpFree hg).trans (congrArg _ hrun), hres, hwhere, hcmap, State.sameBytes.trans (.refl s) hend⟩

end

/-- Settles O43: an allocation command's checks read other fields than the command's own, so its run follows them and gives each compartment its owner;
a release marks and clears its compartments, and the end of the clear frees them. -/
theorem hamperAllocation : Obligations.HamperAllocation := by
  unfold Obligations.HamperAllocation
  refine ⟨fun c b _ hb => length_bank_lines hb, fun s rq n slot a ha hpart => ⟨fun hg hidle => ⟨?_, ?_, ?_, ?_⟩, fun hg hbusy u hu => ?_,
    fun f k h => exec_hamperClearDone h, fun h => ?_, fun h => ⟨fun c hc => ?_, fun hc => ?_⟩⟩⟩
  · exact completes_hmpAlloc hg hidle ha hpart
  · exact fun r w hc => completes_hmpAlloc_refused hg hidle ha hpart hc
  · exact completes_hmpFree hg hidle ha
  · exact fun r w hc => completes_hmpFree_refused hg hidle ha hc
  · have hrefused : ∀ op, s.allocWrite rq op true = u := fun op => by rw [State.allocWrite, if_pos hbusy, hu]
    exact ⟨(exec_hmpAlloc hg).trans (congrArg _ (hrefused 1)), (exec_hmpFree hg).trans (congrArg _ (hrefused 2))⟩
  · refine congrArg Host.Outcome.next ?_
    rw [State.clearDone, h]
  · obtain ⟨hs, hmapped, -⟩ := s.slotQuery_spec n slot.toNat slot.isLt
    obtain ⟨hm, huse, hb⟩ := hmapped c hc
    exact ⟨_, exec_hmpTqQuery h slot, hm, huse, hb, hs⟩
  · obtain ⟨-, -, hnone⟩ := s.slotQuery_spec n slot.toNat slot.isLt
    exact ⟨_, exec_hmpTqQuery h slot, hnone hc⟩

end Sys2Proof.Machine
end

section
/-! Register reads and writes of one dword (03 R50, R55-R60, R63-R66, R69). -/
namespace Sys2Proof.Machine

/-! Requests that stay in their page. -/

section
variable {pg off : Nat} {addr : BitVec 28} (hal : off % 4 = 0) (hoff : off < 4096) (haddr : addr.toNat = pg * 4096 + off)
include hal hoff haddr

/-- The page, the register and the span of a request of one dword. -/
theorem addr_places : addr.toNat / 4096 = pg ∧ addr.toNat / 4 % 1024 * 4 = off ∧ spanOk addr.toNat 1 = true := by
  refine ⟨by omega, by omega, ?_⟩
  simp only [spanOk, Bool.and_eq_true, decide_eq_true_eq]
  omega

end

theorem spanOk_long (addr : Nat) {n : Nat} (h : n = 0 ∨ 16 < n) : spanOk addr n = false := by
  refine Bool.eq_false_iff.2 fun hspan => ?_
  simp only [spanOk, Bool.and_eq_true, decide_eq_true_eq] at hspan
  omega

/-! The first error of a page. -/

theorem rqCode_lt (rq : Requester) : rqCode rq < 256 := by
  cases rq with
  | tenant n => exact Nat.lt_trans n.isLt (by decide)
  | pf p => exact Nat.lt_trans (Nat.add_lt_add_left p.isLt 0x80) (by decide)
  | mgt | fw => decide

/-- The first error is captured with its code and requester (R53). -/
theorem State.errFirst_countErr {s : State} {pg : Nat} (h : s.flag pg F.PG_ERR_FIRST_valid = false) (code rq addr : Nat) :
    (s.countErr pg code rq addr).fld pg F.PG_ERR_FIRST_code = code % 256 ∧ (s.countErr pg code rq addr).fld pg F.PG_ERR_FIRST_requester = rq % 256 := by
  unfold State.countErr
  dsimp only
  rw [h]
  simp only [Bool.false_eq_true, if_false]
  constructor
  · rw [State.fld_event_apart _ _ _ rfl, State.fld_setFld64_apart rfl rfl, State.fld_setFlag_apart _ _ _ rfl, State.fld_setFld_apart _ _ _ _ rfl,
      State.fld_setFld_self]
    rfl
  · rw [State.fld_event_apart _ _ _ rfl, State.fld_setFld64_apart rfl rfl, State.fld_setFlag_apart _ _ _ rfl, State.fld_setFld_self]
    rfl

/-! A register of the block. -/

section
variable {s : State} {rq : Requester} {pg off v : Nat} {i : PageInfo} (hlow : 0x040 ≤ off) (priv : Bool)
include hlow

theorem State.regWrite_of_hook {t : State} (h : s.hook rq pg i off (i.layout.keep off v) = some t) : s.regWrite rq pg i off v priv = t := by
  rw [State.regWrite, if_neg (Nat.not_lt.2 hlow)]
  dsimp only
  rw [h]

theorem State.regWrite_of_no_hook (h : s.hook rq pg i off (i.layout.keep off v) = none) :
    s.regWrite rq pg i off v priv = s.fieldsWrite rq pg i off (i.layout.keep off v) := by
  rw [State.regWrite, if_neg (Nat.not_lt.2 hlow)]
  dsimp only
  rw [h]

end

/-! A granted write. -/

section
variable {s : State} {rq : Requester} {pg off : Nat} {i : PageInfo} {addr : BitVec 28} {w : Word} (hg : s.grants rq pg = true) (hi : pageInfo pg = some i)
  (hal : off % 4 = 0) (hoff : off < 4096) (haddr : addr.toNat = pg * 4096 + off) (hlt : addr.toNat < 2 ^ 27)
include hg hi hal hoff haddr hlt

theorem exec_registerWrite_dword : exec (.registerWrite (.req rq) addr [⟨15, w⟩] false) s = .next (s.regWrite rq pg i off w.toNat true) := by
  obtain ⟨hpg, hplace, -⟩ := addr_places hal hoff haddr
  rw [exec_registerWrite_of_grants hg hi addr hlt hpg w, hplace]

theorem exec_registerWrite_size {be : BitVec 4} (hbe : be ≠ 15) :
    exec (.registerWrite (.req rq) addr [⟨be, w⟩] false) s = .next (s.countErr pg 0x04 (rqCode rq) addr.toNat) := by
  obtain ⟨hpg, hplace, -⟩ := addr_places hal hoff haddr
  obtain ⟨hreach, havail, -, htenant, -⟩ := (s.grants_iff rq pg).1 hg
  have hdword : s.writeDword rq pg off ⟨be, w⟩ = s.countErr pg 0x04 (rqCode rq) addr.toNat := by
    have hown : s.reqErr rq pg off 0x04 true = s.countErr pg 0x04 (rqCode rq) addr.toNat := by
      rw [haddr, ← accessAddr_of_grants hg]
      cases rq with
      | tenant n => exact absurd rfl (htenant n)
      | _ => simp [State.reqErr, hi]
    rw [← hown]
    cases rq with
    | tenant n => exact absurd rfl (htenant n)
    | _ =>
      simp only [State.writeDword, hi, havail, Bool.false_eq_true, if_false]
      exact if_pos hbe
  refine congrArg Host.Outcome.next ?_
  calc s.writeFrom rq addr.toNat [⟨be, w⟩] false
    _ = (s.landFor rq).writeReq rq addr.toNat [⟨be, w⟩] := by simp [State.writeFrom, hreach]
    _ = s.countErr pg 0x04 (rqCode rq) addr.toNat := by
      rw [State.landFor_of_grants hg, State.writeReq_of_grants hg _ hlt hpg, hplace, hdword]

theorem exec_registerWrite_long : exec (.registerWrite (.req rq) addr (List.replicate 17 ⟨15, w⟩) false) s =
    .next (s.countErr pg 0x04 (rqCode rq) addr.toNat) := by
  obtain ⟨hpg, hplace, -⟩ := addr_places hal hoff haddr
  obtain ⟨hreach, -, -, htenant, hpf⟩ := (s.grants_iff rq pg).1 hg
  have hinside : reqInside rq addr.toNat = true := by rw [reqInside_privileged htenant, decide_eq_true hlt]
  have hpage : reqPage rq addr.toNat = pg := by rw [reqPage_privileged htenant, hpg]
  have hspan : spanOk addr.toNat 17 = false := spanOk_long _ (by decide)
  have hown : s.reqErr rq pg off 0x04 true = s.countErr pg 0x04 (rqCode rq) addr.toNat := by
    rw [haddr, ← accessAddr_of_grants hg]
    cases rq with
    | tenant n => exact absurd rfl (htenant n)
    | _ => simp [State.reqErr, hi]
  have hreq : s.writeReq rq addr.toNat (List.replicate 17 ⟨15, w⟩) = s.reqErr rq pg off 0x04 true := by
    cases rq with
    | tenant n => exact absurd rfl (htenant n)
    | pf p => simp [State.writeReq, hinside, hpage, hplace, hspan, (hpf p rfl).1]
    | _ => simp [State.writeReq, hinside, hpage, hplace, hspan]
  refine congrArg Host.Outcome.next ?_
  calc s.writeFrom rq addr.toNat (List.replicate 17 ⟨15, w⟩) false
    _ = (s.landFor rq).writeReq rq addr.toNat (List.replicate 17 ⟨15, w⟩) := by simp [State.writeFrom, hreach]
    _ = s.countErr pg 0x04 (rqCode rq) addr.toNat := by rw [State.landFor_of_grants hg, hreq, hown]

/-- A dword that changes no locked field. -/
theorem completes_registerWrite_open (hlow : 0x040 ≤ off) (hhook : s.hook rq pg i off (i.layout.keep off w.toNat) = none)
    (hlock : s.lockHits pg i off (i.layout.keep off w.toNat) = false) : Completes (.registerWrite (.req rq) addr [⟨15, w⟩] false) s fun t =>
      (∀ e ∈ i.layout.fldsAt off, t.fld pg e.2 =
        e.1.priv.take (s.flag pg F.PG_LOCK_locked) e.2.len (s.fld pg e.2) (e.2.of (i.layout.keep off w.toNat))) ∧
      s.sameRegs t ((i.layout.fldsAt off).map fun e => fkey pg e.2) ∧ ∃ r, t = { s with regs := r } := by
  have hrun := exec_registerWrite_dword (w := w) hg hi hal hoff haddr hlt
  rw [State.regWrite_of_no_hook hlow true hhook] at hrun
  exact ⟨_, hrun, State.fieldsWrite_open hlock rq⟩

/-- A dword that changes a locked field is counted LOCKED (R59). -/
theorem completes_registerWrite_locked (hlow : 0x040 ≤ off) (hhook : s.hook rq pg i off (i.layout.keep off w.toNat) = none)
    (hlock : s.lockHits pg i off (i.layout.keep off w.toNat) = true) : Completes (.registerWrite (.req rq) addr [⟨15, w⟩] false) s fun t =>
      (∀ e ∈ i.layout.fldsAt off, e.1.priv = .rwl → t.fld pg e.2 = s.fld pg e.2) ∧
      t.fld pg F.PG_ERR_CNT = min 65535 (s.fld pg F.PG_ERR_CNT + 1) ∧ bitOf (t.fld pg F.PG_INT_STS) 31 = true ∧
      (s.flag pg F.PG_ERR_FIRST_valid = false → t.fld pg F.PG_ERR_FIRST_code = 0x03 ∧ t.fld pg F.PG_ERR_FIRST_requester = rqCode rq) := by
  have hrun := exec_registerWrite_dword (w := w) hg hi hal hoff haddr hlt
  rw [State.regWrite_of_no_hook hlow true hhook] at hrun
  have hlocked : s.flag pg F.PG_LOCK_locked = true := by
    rw [State.lockHits, Bool.and_eq_true] at hlock
    exact hlock.1
  have hheader : ∀ (u : State) (v : Nat) (f : Fld), f.off < 0x040 → f.lo < 32 →
      (u.each (i.layout.fldsAt off) (State.fieldTake (s.flag pg F.PG_LOCK_locked) pg v)).fld pg f = u.fld pg f := fun u v f hf hlo =>
    State.fld_fieldTakes_ne _ pg v (fun e he => i.layout.fldsAt_ne_header hlow hoff he hf hlo pg pg) u
  rw [State.fieldsWrite_eq, if_pos hlock] at hrun
  refine ⟨_, hrun, fun e he hrwl => ?_, ?_, ?_, fun hvalid => ⟨?_, ?_⟩⟩
  · obtain ⟨ho, hlo⟩ := i.layout.fldsAt_inside he
    have hown : e.2.own = true := by simp [Fld.own, ho, hlow, hoff, hlo]
    rw [State.fld_fieldTakes _ pg _ (i.layout.fldsAt_keys pg off) _ he, hrwl, hlocked]
    exact State.fld_countErr_own _ _ _ hown _ _ _
  · rw [hheader _ _ _ (by decide) (by decide), State.errCnt_countErr]
  · rw [hheader _ _ _ (by decide) (by decide)]
    exact State.bit_event _ _ (by decide)
  · rw [hheader _ _ _ (by decide) (by decide), (State.errFirst_countErr hvalid _ _ _).1]
  · rw [hheader _ _ _ (by decide) (by decide), (State.errFirst_countErr hvalid _ _ _).2]
    exact Nat.mod_eq_of_lt (rqCode_lt rq)

end

/-! Writes that have no effect on a register. -/

theorem exec_registerWrite_not_owner {s : State} {p : Fin 4} {addr : BitVec 28} (hreach : s.reach (.pf p) = true) (hown : p.val ≠ s.owner)
    (hclear : s.portClear p = true) (hlt : addr.toNat < 2 ^ 27) (hal : addr.toNat % 4 = 0) (w : Word) :
    exec (.registerWrite (.req (.pf p)) addr [⟨15, w⟩] false) s = .next (s.countErr (P.hub 0) 0x06 (0x80 + p.val) addr.toNat) := by
  have hland : s.landFor (.pf p) = s := State.landClient_of_portClear hclear
  have haddr : addr.toNat / 4 * 4 = addr.toNat := by omega
  have hinside : reqInside (.pf p) addr.toNat = true := decide_eq_true hlt
  refine congrArg Host.Outcome.next ?_
  calc s.writeFrom (.pf p) addr.toNat [⟨15, w⟩] false
    _ = s.writeReq (.pf p) addr.toNat [⟨15, w⟩] := by simp [State.writeFrom, hreach, hland]
    _ = s.countErr (P.hub 0) 0x06 (0x80 + p.val) addr.toNat := by simp [State.writeReq, hinside, hown, haddr, rqCode]

theorem exec_registerWrite_unreached {s : State} {rq : Requester} (h : s.reach rq = false) (addr : BitVec 28) (ws : List RegDword) (ep : Bool) :
    exec (.registerWrite (.req rq) addr ws ep) s = .next s :=
  congrArg Host.Outcome.next (if_pos (by rw [h]; rfl))

theorem State.landClient_idem (s : State) (k : Nat) : (s.landClient k).landClient k = s.landClient k :=
  State.landClient_of_portClear (by
    rw [State.portClear, List.all_eq_true]
    exact fun w hw => (List.mem_filter.1 hw).2)

theorem State.landFor_idem (s : State) (rq : Requester) : (s.landFor rq).landFor rq = s.landFor rq := by
  cases rq with
  | tenant n => exact s.landClient_idem _
  | pf p => exact s.landClient_idem _
  | mgt | fw => rfl

theorem State.landFor_reach (s : State) (rq : Requester) : (s.landFor rq).reach rq = s.reach rq := by cases rq <;> rfl

/-- A host port's aperture writes land before its register write, whatever that does (05 R114). -/
theorem exec_registerWrite_landed {s : State} {rq : Requester} (h : s.reach rq = true) (addr : BitVec 28) (ws : List RegDword) (ep : Bool) :
    exec (.registerWrite (.req rq) addr ws ep) s = exec (.registerWrite (.req rq) addr ws ep) (s.landFor rq) := by
  have hport : (s.landFor rq).rqPort rq = s.rqPort rq := by cases rq <;> rfl
  refine congrArg Host.Outcome.next ?_
  show s.writeFrom rq addr.toNat ws ep = (s.landFor rq).writeFrom rq addr.toNat ws ep
  cases ep with
  | false => simp only [State.writeFrom, State.landFor_reach, h, State.landFor_idem, Bool.not_true, Bool.false_eq_true, if_false]
  | true =>
    simp only [State.writeFrom, State.landFor_reach, h, State.landFor_idem, hport, Bool.not_true, Bool.false_eq_true, if_false, if_true]
    cases rq <;> rfl

theorem exec_registerWrite_poisoned {s : State} {p : Fin 4} (hreach : s.reach (.pf p) = true) (hclear : s.portClear p = true) (addr : BitVec 28)
    (ws : List RegDword) : exec (.registerWrite (.req (.pf p)) addr ws true) s = .next (s.emit (.aer p)) := by
  have hland : s.landFor (.pf p) = s := State.landClient_of_portClear hclear
  refine congrArg Host.Outcome.next ?_
  show s.writeFrom (.pf p) addr.toNat ws true = _
  simp only [State.writeFrom, hreach, hland, State.rqPort, Bool.not_true, Bool.false_eq_true, if_false, if_true]

/-! A tenant's write of read-only fields. -/

/-- Where every field of a register is read-only, a dword with the values they read as leaves all of them. -/
theorem State.tenDword_readonly {s : State} {rq : Requester} {n pg off v : Nat} {i : PageInfo} (hlow : 0x040 ≤ off)
    (hro : ∀ e ∈ i.layout.fldsAt off, e.1.ten = .ro ∧ e.1.priv = .ro ∧ e.2.of v = s.fieldVal pg i e.2) (hhook : ∀ v, s.hook rq pg i off v = none) :
    s.tenDword rq n pg i off v = s := by
  have hdenied : s.denied pg i off v = false := by
    rw [State.denied, if_neg (Nat.not_lt.2 hlow)]
    refine List.any_eq_false.2 fun e he => ?_
    obtain ⟨hten, -, hval⟩ := hro e he
    simp [hten, hval, Acc.reads]
  rw [State.tenDword, hdenied]
  simp only [Bool.false_eq_true, if_false]
  rw [State.regWrite_of_no_hook hlow false (hhook _), State.fieldsWrite_eq, if_neg]
  · exact State.each_eq_self fun e he => by
      obtain ⟨-, hpriv, -⟩ := hro e he
      rw [State.fieldTake, hpriv]
  · rw [State.lockHits, Bool.and_eq_true, not_and]
    refine fun _ => Bool.eq_false_iff.1 (List.any_eq_false.2 fun e he => ?_)
    obtain ⟨-, hpriv, -⟩ := hro e he
    simp [hpriv]

theorem State.hold_regs (s : State) (pg : Nat) (c : Held) : (s.hold pg c).regs = s.regs := by
  unfold State.hold
  split <;> rfl

theorem completes_registerWrite_tenant {s : State} {n : Fin 128} {k off : Nat} {i : PageInfo} {addr : BitVec 28} {w : Word} (hk : k < 16)
    (hi : pageInfo (P.ten n k) = some i) (hal : off % 4 = 0) (hoff : off < 4096) (haddr : addr.toNat = k * 4096 + off)
    (hg : s.grantsTen (.tenant n) n k = true) (havail : s.unavailable (P.ten n k) = false) (hlow : 0x040 ≤ off)
    (hro : ∀ e ∈ i.layout.fldsAt off, e.1.ten = .ro ∧ e.1.priv = .ro ∧ e.2.of w.toNat = s.fieldVal (P.ten n k) i e.2)
    (hhook : ∀ v, s.hook (.tenant n) (P.ten n k) i off v = none) :
    Completes (.registerWrite (.req (.tenant n)) addr [⟨15, w⟩] false) s fun t => s.sameRegs t [] := by
  simp only [State.grantsTen, Bool.and_eq_true, bne_iff_ne] at hg
  obtain ⟨⟨⟨⟨-, hready⟩, hreach⟩, hstate⟩, hclear⟩ := hg
  obtain ⟨hpg, hplace, hspan⟩ := addr_places hal hoff haddr
  have hland : s.landFor (.tenant n) = s := State.landClient_of_portClear hclear
  have hinside : reqInside (.tenant n) addr.toNat = true := decide_eq_true (by omega)
  have hpage : reqPage (.tenant n) addr.toNat = P.ten n k := congrArg (P.ten n) hpg
  have hquiet : (s.tnState n == 3 || !s.ready) = false := by simp [hready, hstate]
  have hdword : s.writeDword (.tenant n) (P.ten n k) off ⟨15, w⟩ = s := by
    simp only [State.writeDword, hi, havail, beq_eq_false_iff_ne.2 hstate, Bool.or_self, Bool.false_eq_true, if_false]
    exact (if_neg (by decide)).trans (State.tenDword_readonly hlow hro hhook)
  have hrun : exec (.registerWrite (.req (.tenant n)) addr [⟨15, w⟩] false) s =
      .next (if s.tileBusy (P.ten n k) then s.hold (P.ten n k) (.write (.tenant n) addr.toNat [⟨15, w⟩]) else s) := by
    refine congrArg Host.Outcome.next ?_
    calc s.writeFrom (.tenant n) addr.toNat [⟨15, w⟩] false
      _ = s.writeReq (.tenant n) addr.toNat [⟨15, w⟩] := by simp [State.writeFrom, hreach, hland]
      _ = _ := by
        simp [State.writeReq, State.writeDwords, hinside, hpage, hplace, hspan, hquiet]
        exact ite_congr rfl (fun _ => rfl) fun _ => hdword
  refine ⟨_, hrun, ?_⟩
  split
  · exact State.sameRegs_of_regs (State.hold_regs _ _ _) _
  · exact .refl s _

/-- A privileged read in its page, of the management or of the owner port, reads its page. -/
theorem State.readReq_privileged {s : State} {rq : Requester} {addr n : Nat} (hspan : spanOk addr n = true) (hlt : addr < 2 ^ 27)
    (htenant : ∀ n, rq ≠ .tenant n) (hpf : ∀ p : Fin 4, rq = .pf p → p.val = s.owner) : s.readReq rq addr n = s.privRead rq addr n := by
  unfold State.readReq
  rw [hspan]
  simp only [Bool.not_true, Bool.false_eq_true, if_false]
  cases rq with
  | tenant n => exact absurd rfl (htenant n)
  | pf p => exact (if_neg (Nat.not_le.2 hlt)).trans (if_neg fun h => h.1 (hpf p rfl))
  | mgt | fw => rfl

/-! Accesses held while a tile changes its operating point (R66). -/

section
variable {s : State} {rq : Requester} {pg off : Nat} {addr : BitVec 28} {w : Word} (hreach : s.reach rq = true) (hbusy : s.tileBusy pg = true)
  (htenant : ∀ n, rq ≠ .tenant n) (hpf : ∀ p : Fin 4, rq = .pf p → p.val = s.owner ∧ s.portClear p = true) (hal : off % 4 = 0) (hoff : off < 4096)
  (haddr : addr.toNat = pg * 4096 + off) (hlt : addr.toNat < 2 ^ 27)
include hreach hbusy htenant hpf hal hoff haddr hlt

theorem exec_registerWrite_held : exec (.registerWrite (.req rq) addr [⟨15, w⟩] false) s = .next (s.hold pg (.write rq addr.toNat [⟨15, w⟩])) := by
  obtain ⟨hpg, hplace, hspan⟩ := addr_places hal hoff haddr
  have hinside : reqInside rq addr.toNat = true := by rw [reqInside_privileged htenant, decide_eq_true hlt]
  have hpage : reqPage rq addr.toNat = pg := by rw [reqPage_privileged htenant, hpg]
  have hland : s.landFor rq = s := by
    cases rq with
    | tenant n => exact absurd rfl (htenant n)
    | pf p => exact State.landClient_of_portClear (hpf p rfl).2
    | mgt | fw => rfl
  refine congrArg Host.Outcome.next ?_
  calc s.writeFrom rq addr.toNat [⟨15, w⟩] false
    _ = s.writeReq rq addr.toNat [⟨15, w⟩] := by simp [State.writeFrom, hreach, hland]
    _ = s.hold pg (.write rq addr.toNat [⟨15, w⟩]) := by
      cases rq with
      | tenant n => exact absurd rfl (htenant n)
      | pf p => simp [State.writeReq, hinside, hpage, hspan, hbusy, (hpf p rfl).1]
      | _ => simp [State.writeReq, hinside, hpage, hspan, hbusy]

theorem exec_registerRead_held : exec (.registerRead (.req rq) addr 1) s = .next (s.hold pg (.read rq addr.toNat 1)) := by
  obtain ⟨hpg, hplace, hspan⟩ := addr_places hal hoff haddr
  have hpriv : s.privRead rq addr.toNat 1 = s.hold pg (.read rq addr.toNat 1) := by rw [State.privRead, hpg, if_pos hbusy]
  refine congrArg Host.Outcome.next ?_
  rw [← hpriv]
  show s.readFrom rq addr.toNat 1 = _
  rw [State.readFrom, if_pos hreach]
  exact State.readReq_privileged hspan hlt htenant fun p hp => (hpf p hp).1

end

/-! Reads. -/

/-- A privileged read of one dword answers with the dword of its page. -/
theorem exec_registerRead_dword {s : State} {rq : Requester} {pg off : Nat} {addr : BitVec 28} (hal : off % 4 = 0) (hoff : off < 4096)
    (haddr : addr.toNat = pg * 4096 + off) (hlt : addr.toNat < 2 ^ 27) (hrq : rq = .mgt ∨ rq = .fw ∨ ∃ p : Fin 4, rq = .pf p ∧ p.val = s.owner)
    (hreach : s.reach rq = true) (hidle : s.tileBusy pg = false) :
    exec (.registerRead (.req rq) addr 1) s = .next ((s.readDword pg off false).2.emit (.regData (rqCode rq) [(s.readDword pg off false).1])) := by
  obtain ⟨hpg, hplace, hspan⟩ := addr_places hal hoff haddr
  have hpriv : s.privRead rq addr.toNat 1 = (s.readDword pg off false).2.emit (.regData (rqCode rq) [(s.readDword pg off false).1]) := by
    rw [State.privRead, hpg, if_neg (by rw [hidle]; decide), State.answerRead, hpg, hplace]
    rfl
  refine congrArg Host.Outcome.next ?_
  rw [← hpriv]
  show s.readFrom rq addr.toNat 1 = _
  rw [State.readFrom, if_pos hreach]
  refine State.readReq_privileged hspan hlt (fun n hn => ?_) fun p hp => ?_
  · rcases hrq with rfl | rfl | ⟨p, rfl, -⟩ <;> cases hn
  · rcases hrq with rfl | rfl | ⟨q, rfl, hown⟩
    · cases hp
    · cases hp
    · cases hp
      exact hown

theorem State.readDword_block {s : State} {pg off : Nat} {i : PageInfo} (hi : pageInfo pg = some i) (havail : s.unavailable pg = false) (hlow : 0x040 ≤ off) :
    s.sameBytes (s.readDword pg off false).2 ∧
      (i.layout.snapHi ≠ some off → (s.readDword pg off false).1 = s.blockVal pg i off false) ∧
      (i.layout.snapHi = some off → (s.readDword pg off false).1 = Tab.get nat0 s.snaps (pg * 4096 + off)) ∧
      (i.layout.snapHi = some (off + 4) → Tab.get nat0 (s.readDword pg off false).2.snaps (pg * 4096 + off + 4) = s.blockVal pg i (off + 4) false) := by
  have hreg : s.readDword pg off false = s.readReg pg i off false := by
    simp only [State.readDword, hi, havail, Bool.false_eq_true, if_false]
  refine ⟨State.sameBytes_of_mems (State.readDword_mem s pg off false s.mems_memsOf), ?_⟩
  rw [hreg, State.readReg, if_neg (Nat.not_lt.2 hlow)]
  cases hsnap : i.layout.snapHi with
  | none =>
    refine ⟨fun _ => ?_, fun h => absurd h (by simp), fun h => absurd h (by simp)⟩
    dsimp only
    split <;> rfl
  | some h =>
    dsimp only
    by_cases hself : off = h
    · subst hself
      rw [if_pos rfl]
      exact ⟨fun hne => absurd rfl hne, fun _ => rfl, fun hnext => absurd (Option.some.inj hnext) (by omega)⟩
    · rw [if_neg hself]
      by_cases hlowHalf : off + 4 = h
      · subst hlowHalf
        rw [if_pos rfl]
        exact ⟨fun _ => rfl, fun hnext => absurd (Option.some.inj hnext) (by omega), fun _ =>
          (congrArg (Tab.get nat0 _) (Nat.add_assoc _ _ _)).trans (Tab.get_set_self _ _ _ _)⟩
      · rw [if_neg hlowHalf]
        exact ⟨fun _ => rfl, fun hnext => absurd (Option.some.inj hnext).symm hself, fun hnext => absurd (Option.some.inj hnext).symm hlowHalf⟩

theorem State.readDword_header {s : State} {pg off : Nat} {i : PageInfo} (hi : pageInfo pg = some i) (havail : s.unavailable pg = false) (hlow : off < 0x040) :
    s.readDword pg off false = (s.header pg i off false, s) := by
  simp only [State.readDword, hi, havail, Bool.false_eq_true, if_false, State.readReg, if_pos hlow]

theorem State.readDword_unavailable {s : State} {pg off : Nat} {i : PageInfo} (hi : pageInfo pg = some i) (havail : s.unavailable pg = true) (tenant : Bool) :
    s.readDword pg off tenant = (s.substitute0 pg off tenant, s) := by
  simp only [State.readDword, hi, havail, if_true]

theorem State.readDword_reserved {pg : Nat} (h : pageInfo pg = none) (s : State) (off : Nat) (tenant : Bool) : s.readDword pg off tenant = (0, s) := by
  simp only [State.readDword, h]

theorem State.substitute0_else (s : State) (pg : Nat) {off : Nat} (h0 : off ≠ 0) (h4 : off ≠ 4) (h10 : off ≠ 0x10) (h30 : off ≠ 0x30) (tenant : Bool) :
    s.substitute0 pg off tenant = 0 := by
  unfold State.substitute0
  split
  · exact absurd rfl h0
  · exact absurd rfl h4
  · exact absurd rfl h10
  · exact absurd rfl h30
  · rfl

/-- A tile whose page is reserved or does not serve holds no access. -/
theorem State.tileBusy_unserved {s : State} {pg : Nat} (h : pageInfo pg = none ∨ s.unavailable pg = true) : s.tileBusy pg = false := by
  unfold State.tileBusy
  split
  · rcases h with h | h <;> simp [h]
  · rfl

theorem exec_registerRead_reach {s : State} {rq : Requester} (h : s.reach rq = true) (addr : BitVec 28) (n : Nat) :
    exec (.registerRead (.req rq) addr n) s = .next (s.readReq rq addr.toNat n) := congrArg Host.Outcome.next (if_pos h)

theorem exec_registerRead_span {s : State} {rq : Requester} (hreach : s.reach rq = true) (addr : BitVec 28) {n : Nat} (h : n = 0 ∨ 16 < n) :
    exec (.registerRead (.req rq) addr n) s = .next (s.emit (.abort (rqCode rq))) := by
  rw [exec_registerRead_reach hreach]
  exact congrArg Host.Outcome.next (if_pos (by rw [spanOk_long _ h]; rfl))

theorem exec_registerRead_not_owner {s : State} {p : Fin 4} {pg off : Nat} {addr : BitVec 28} (hal : off % 4 = 0) (hoff : off < 4096)
    (haddr : addr.toNat = pg * 4096 + off) (hlt : addr.toNat < 2 ^ 27) (hreach : s.reach (.pf p) = true) (hown : p.val ≠ s.owner) (hpg : pg ≠ 0) :
    exec (.registerRead (.req (.pf p)) addr 1) s = .next (s.emit (.regData (0x80 + p.val) [0])) := by
  obtain ⟨hpage, -, hspan⟩ := addr_places hal hoff haddr
  rw [exec_registerRead_reach hreach]
  simp only [State.readReq, hspan, Bool.not_true, Bool.false_eq_true, if_false]
  rw [if_neg (Nat.not_le.2 hlt), if_pos ⟨hown, by rw [hpage]; exact hpg⟩]
  rfl

theorem exec_registerRead_tenant_reserved {s : State} {n : Fin 128} {pg off : Nat} {addr : BitVec 28} (hal : off % 4 = 0) (hoff : off < 4096)
    (haddr : addr.toNat = pg * 4096 + off) (hreach : s.reach (.tenant n) = true) (hpg : pg < 16) (hres : pageInfo (P.ten n pg) = none) :
    exec (.registerRead (.req (.tenant n)) addr 1) s = .next (s.emit (.regData n.val [0])) := by
  obtain ⟨-, -, hspan⟩ := addr_places hal hoff haddr
  have hpage : (0x400000 + 0x10000 * n.val + addr.toNat) / 4096 = P.ten n pg := by
    unfold P.ten
    omega
  rw [exec_registerRead_reach hreach]
  simp only [State.readReq, hspan, Bool.not_true, Bool.false_eq_true, if_false]
  rw [if_pos (by omega), State.answerRead, hpage]
  simp only [State.readDwords, State.readDword_reserved hres]

theorem exec_registerRead_failed {s : State} (hfail : s.devFailed = true) (hup : s.aoUp = true) (p : Fin 4) (addr : BitVec 28) :
    exec (.registerRead (.req (.pf p)) addr 1) s = .next (s.emit (.abort (0x80 + p.val))) := by
  have hlost : s.reach (.pf p) = false := by simp [State.reach, State.hubDead, hfail]
  refine congrArg Host.Outcome.next ?_
  show s.readFrom (.pf p) addr.toNat 1 = _
  rw [State.readFrom, if_neg (by rw [hlost]; decide)]
  exact if_pos (by rw [hfail, hup]; rfl)

/-- Settles O40: a granted dword reaches its register, whose fields take it by their access codes; requests that reach no register leave all of them;
and a privileged read answers its page's dword. -/
theorem registerReadAndWrite : Obligations.RegisterReadAndWrite := by
  unfold Obligations.RegisterReadAndWrite
  refine ⟨fun s rq pg off i addr w hi hal hoff => ⟨fun hg haddr hlt => ⟨fun hlow hhook => ⟨fun hlock => ?unlocked, fun hlock => ?locked⟩, fun t ht hlow => ?hook,
      fun be hbe => ?size, ?long⟩,
      fun p hreach hown hclear hlt' hal' => exec_registerWrite_not_owner hreach hown hclear hlt' hal' w,
      fun n k hk hpg haddr hg havail hlow hro hhook => ?tenant,
      fun h ws ep => exec_registerWrite_unreached h addr ws ep, fun h ws ep => exec_registerWrite_landed h addr ws ep,
      fun hreach hbusy hten hpf haddr hlt => ?held, fun p hreach hclear ws => exec_registerWrite_poisoned hreach hclear addr ws⟩,
    fun s rq pg off addr hal hoff haddr hlt => ⟨fun hrq hreach => ⟨fun i hi havail hidle => ?serves, fun i hi havail => ?unavailable, fun hi => ?reserved,
      fun n h => exec_registerRead_span hreach addr h⟩,
      fun p hreach hown hpg => exec_registerRead_not_owner hal hoff haddr hlt hreach hown hpg,
      fun n hreach hpg _ hres => exec_registerRead_tenant_reserved hal hoff haddr hreach hpg hres,
      fun hfail hup p => exec_registerRead_failed hfail hup p addr⟩⟩
  case unlocked =>
    obtain ⟨t, hrun, htake, hkeep, honly⟩ := completes_registerWrite_open hg hi hal hoff haddr hlt hlow hhook hlock
    refine ⟨t, hrun, fun e he => (htake e he).trans ?_, hkeep, honly⟩
    cases e.1.priv <;> rfl
  case locked => exact completes_registerWrite_locked hg hi hal hoff haddr hlt hlow hhook hlock
  case hook => rw [exec_registerWrite_dword hg hi hal hoff haddr hlt, State.regWrite_of_hook hlow true ht]
  case size => exact exec_registerWrite_size hg hi hal hoff haddr hlt hbe
  case long => exact exec_registerWrite_long hg hi hal hoff haddr hlt
  case tenant =>
    subst hpg
    exact completes_registerWrite_tenant hk hi hal hoff haddr hg havail hlow hro hhook
  case held =>
    exact ⟨exec_registerWrite_held hreach hbusy hten hpf hal hoff haddr hlt, exec_registerRead_held hreach hbusy hten hpf hal hoff haddr hlt⟩
  case serves =>
    have hrun := exec_registerRead_dword hal hoff haddr hlt hrq hreach hidle
    have hheader : ∀ v, off < 0x040 → s.header pg i off false = v →
        exec (.registerRead (.req rq) addr 1) s = .next (s.emit (.regData (rqCode rq) [v])) := fun v hlow hv => by
      rw [hrun, State.readDword_header hi havail hlow, hv]
    refine ⟨fun hlow => ?_, fun h => ?_, fun h => ?_, fun h => ?_, fun h => ?_⟩
    · obtain ⟨hbytes, hval, hsnap, hcap⟩ := State.readDword_block hi havail hlow
      exact ⟨_, hrun, _, rfl, hbytes, hval, hsnap, hcap⟩
    · subst h
      exact hheader _ (by decide) rfl
    · subst h
      exact hheader _ (by decide) rfl
    · subst h
      exact hheader _ (by decide) rfl
    · rcases h with rfl | rfl
      · exact hheader _ (by decide) rfl
      · exact hheader _ (by decide) rfl
  case unavailable =>
    have hrun := exec_registerRead_dword hal hoff haddr hlt hrq hreach (State.tileBusy_unserved (.inr havail))
    rw [State.readDword_unavailable hi havail] at hrun
    refine ⟨fun h => ?_, fun h0 h4 h10 h30 => ?_⟩
    · subst h
      exact hrun
    · rw [hrun, State.substitute0_else s pg h0 h4 h10 h30]
  case reserved =>
    rw [exec_registerRead_dword hal hoff haddr hlt hrq hreach (State.tileBusy_unserved (.inl hi)), State.readDword_reserved hi]

end Sys2Proof.Machine
end

section
/-! The dispatcher's pick and the jobs it starts (06 R142-R144, R150; 07 R163). -/
namespace Sys2Proof.Machine

/-! The dispatcher acts on its pick. -/

section
variable {s : State} {p kind n q : Nat} {d : Desc} (f : Nat → Nat → Desc → State → State)

theorem State.onPick_idle (h : (s.dsp p).pick = none ∨ s.dispPaused p = true) : s.onPick p kind f = s := by
  unfold State.onPick
  split
  · rfl
  · next hpick =>
    rcases h with h | h
    · rw [h] at hpick
      cases hpick
    · exact if_pos h

section
variable (hpick : (s.dsp p).pick = some (n, q)) (hrun : s.dispPaused p = false) (hhead : s.startHead n q = some d)
include hpick hrun hhead

theorem State.onPick_kind (hkind : d.kind = kind) : s.onPick p kind f = f n q d (s.setDsp p { s.dsp p with pick := none }) := by
  simp only [State.onPick, hpick, hrun, hhead, Bool.false_eq_true, if_false, if_pos hkind]

theorem State.onPick_other_kind (hkind : d.kind ≠ kind) : s.onPick p kind f = s := by
  simp only [State.onPick, hpick, hrun, hhead, Bool.false_eq_true, if_false, if_neg hkind]

end

end

/-! The pick. -/

section
variable {s : State} {p : Fin 8} (hrun : s.dispPaused p = false)
include hrun

theorem exec_dispatch_none (h : ∀ n, n < 128 → s.bound n = true → s.tnPart n = p → ∀ q, q < 8 → s.dispReady p n q = false) :
    exec (.dispatch p) s = .next (s.setDsp p { s.dsp p with pick := none }) := by
  have hts : ((s.tenantsOf p).filter fun n => (List.range 8).any fun q => s.dispReady p n q) = [] := by
    refine List.filter_eq_nil_iff.2 fun n hn => Bool.not_eq_true _ ▸ List.any_eq_false.2 fun q hq => ?_
    simp only [State.tenantsOf, List.mem_filter, List.mem_range, Bool.and_eq_true, beq_iff_eq] at hn
    obtain ⟨hlt, hbound, hpart⟩ := hn
    rw [h n hlt hbound hpart q (List.mem_range.1 hq)]
    decide
  show execDispatch p s = _
  unfold execDispatch
  dsimp only
  rw [hts, hrun]
  rfl

theorem completes_dispatch_credit {q : Nat} (hlt : (s.dsp p).tenant < 128) (hbound : s.bound (s.dsp p).tenant = true) (hpart : s.tnPart (s.dsp p).tenant = p)
    (hcredit : (s.dsp p).credit ≠ 0) (hready : ∃ r, r < 8 ∧ s.dispReady p (s.dsp p).tenant r = true)
    (hq : s.pickQueue p (s.dsp p).tenant (Tab.get nat0 (s.dsp p).rr (s.dsp p).tenant) = some q) : Completes (.dispatch p) s fun t =>
      (t.dsp p).pick = some ((s.dsp p).tenant, q) ∧ (t.dsp p).credit = (s.dsp p).credit - 1 ∧ (t.dsp p).tenant = (s.dsp p).tenant ∧
        s.sameRegs t [] ∧ s.sameBytes t := by
  have hin : (((s.tenantsOf p).filter fun n => (List.range 8).any fun q => s.dispReady p n q).contains (s.dsp p).tenant && (s.dsp p).credit != 0) = true := by
    rw [Bool.and_eq_true]
    refine ⟨List.contains_iff_mem.2 (List.mem_filter.2 ⟨?_, List.any_eq_true.2 ?_⟩), bne_iff_ne.2 hcredit⟩
    · rw [State.tenantsOf, List.mem_filter, Bool.and_eq_true, beq_iff_eq]
      exact ⟨List.mem_range.2 hlt, hbound, hpart⟩
    · obtain ⟨r, hr, hd⟩ := hready
      exact ⟨r, List.mem_range.2 hr, hd⟩
  have hexec : exec (.dispatch p) s = .next (s.setDsp p { s.dsp p with
      credit := (s.dsp p).credit - 1, rr := Tab.set nat0 (s.dsp p).rr (s.dsp p).tenant q, pick := some ((s.dsp p).tenant, q) }) := by
    show execDispatch p s = _
    unfold execDispatch
    dsimp only
    rw [hin, hrun]
    simp only [Bool.false_eq_true, if_false, if_true, hq]
  refine ⟨_, hexec, ?_⟩
  beta_reduce
  rw [State.dsp_setDsp_self]
  exact ⟨rfl, rfl, rfl, State.sameRegs_of_regs rfl _, .refl s⟩

end

/-! RUN, LOAD and UNLOAD at the head of start order. -/

section
variable {s u : State} {p : Fin 8} {n q : Nat} {d : Desc} (hu : u = s.setDsp p { s.dsp p with pick := none }) (hpick : (s.dsp p).pick = some (n, q))
  (hrun : s.dispPaused p = false) (hhead : s.startHead n q = some d)
include hu hpick hrun hhead

/-- What a RUN that is picked meets. -/
theorem exec_jobRun (hkind : d.kind = 1) :
    (u.runPlan p n d.model d.runWidth d.clu = .absent → exec (.jobRun p) s = .next (u.completeUnstarted n q d 6 0)) ∧
    (u.runPlan p n d.model d.runWidth d.clu = .noCapacity → exec (.jobRun p) s = .next (u.completeUnstarted n q d 0x0B 0)) ∧
    (u.runPlan p n d.model d.runWidth d.clu = .wait → exec (.jobRun p) s = .next u) ∧
    (∀ k cl xs, u.runPlan p n d.model d.runWidth d.clu = .load k cl xs →
      exec (.jobRun p) s = .next ((u.setDesc n q { d with loaded := true, clu := some cl }).addLoads k xs none)) ∧
    (∀ k gs w, u.runPlan p n d.model d.runWidth d.clu = .start k →
      (u.rotaPick p d.runWidth fun g => u.idleCore g && (u.res k).cores.contains (u.physOf g)) = (some gs, w) →
      exec (.jobRun p) s = .next (w.jobStart n q p d k gs)) := by
  subst hu
  refine ⟨fun h => ?_, fun h => ?_, fun h => ?_, fun k cl xs h => ?_, fun k gs w h hpk => ?_⟩
  · refine congrArg Host.Outcome.next ((State.onPick_kind _ hpick hrun hhead hkind).trans ?_)
    dsimp only
    rw [h]
  · refine congrArg Host.Outcome.next ((State.onPick_kind _ hpick hrun hhead hkind).trans ?_)
    dsimp only
    rw [h]
  · refine congrArg Host.Outcome.next ((State.onPick_kind _ hpick hrun hhead hkind).trans ?_)
    dsimp only
    rw [h]
  · refine congrArg Host.Outcome.next ((State.onPick_kind _ hpick hrun hhead hkind).trans ?_)
    dsimp only
    rw [h]
  · refine congrArg Host.Outcome.next ((State.onPick_kind _ hpick hrun hhead hkind).trans ?_)
    dsimp only
    rw [h]
    dsimp only
    rw [hpk]

theorem exec_jobLoad_found (hkind : d.kind = 4) {k : Nat} (hk : u.resFind n d.model = some k) :
    ((u.res k).wOff ≠ d.area.getD 2 0 ∨ (u.res k).len ≠ d.area.getD 1 0 ∨ (u.res k).entry ≠ d.area.getD 3 0 →
      exec (.jobLoad p) s = .next (u.completeUnstarted n q d 5 0x18)) ∧
    ((u.res k).wOff = d.area.getD 2 0 → (u.res k).len = d.area.getD 1 0 → (u.res k).entry = d.area.getD 3 0 →
      exec (.jobLoad p) s = .next ((u.setRes k { u.res k with image := d.area.getD 0 0 }).loadOn p n q d k)) := by
  subst hu
  refine ⟨fun h => ?_, fun hoff hlen hentry => ?_⟩
  · refine congrArg Host.Outcome.next ((State.onPick_kind _ hpick hrun hhead hkind).trans ?_)
    dsimp only
    rw [hk]
    exact if_pos h
  · refine congrArg Host.Outcome.next ((State.onPick_kind _ hpick hrun hhead hkind).trans ?_)
    dsimp only
    rw [hk]
    exact if_neg (by rw [hoff, hlen, hentry]; simp)

theorem exec_jobLoad_new (hkind : d.kind = 4) (hnone : u.resFind n d.model = none) {k : Nat} (hk : u.resFree = some k) : exec (.jobLoad p) s = .next
    ((u.setRes k ⟨true, n, d.model, d.area.getD 0 0, d.area.getD 1 0, d.area.getD 2 0, d.area.getD 3 0, [], false, []⟩).loadOn p n q d k) := by
  subst hu
  refine congrArg Host.Outcome.next ((State.onPick_kind _ hpick hrun hhead hkind).trans ?_)
  dsimp only
  rw [hnone]
  dsimp only
  rw [hk]

theorem exec_jobUnload (hkind : d.kind = 5) :
    (u.mayUnload n d.model = false → exec (.jobUnload p) s = .next u) ∧
    (u.mayUnload n d.model = true →
      (u.resFind n d.model = none → exec (.jobUnload p) s = .next (u.completeUnstarted n q d 6 0)) ∧
      (∀ k, u.resFind n d.model = some k → exec (.jobUnload p) s = .next ((u.resRemove k).completeUnstarted n q d 0 0))) := by
  subst hu
  refine ⟨fun h => ?_, fun h => ⟨fun hnone => ?_, fun k hk => ?_⟩⟩
  · refine congrArg Host.Outcome.next ((State.onPick_kind _ hpick hrun hhead hkind).trans ?_)
    exact if_pos (by rw [h]; rfl)
  · refine congrArg Host.Outcome.next ((State.onPick_kind _ hpick hrun hhead hkind).trans ?_)
    dsimp only
    rw [h, hnone]
    rfl
  · refine congrArg Host.Outcome.next ((State.onPick_kind _ hpick hrun hhead hkind).trans ?_)
    dsimp only
    rw [h, hk]
    rfl

end

/-! The registers of a rank at job start. -/

/-- A scalar register after the arguments were written from s16 on. -/
theorem Core.getS_args (f : Nat → Dword) (l : List Nat) (c : Core) (k : Nat) :
    (l.foldl (fun c i => c.setS (16 + i) (f i)) c).getS k = if 16 ≤ k ∧ k - 16 ∈ l then f (k - 16) else c.getS k := by
  induction l generalizing c with
  | nil => simp
  | cons i l ih =>
    rw [List.foldl_cons, ih, Core.getS_setS]
    by_cases hl : 16 ≤ k ∧ k - 16 ∈ l
    · rw [if_pos hl, if_pos ⟨hl.1, List.mem_cons_of_mem _ hl.2⟩]
    · rw [if_neg hl]
      by_cases hk : k = 16 + i
      · subst hk
        simp
      · have hne : ¬ (16 ≤ k ∧ k - 16 ∈ i :: l) := by
          rintro ⟨hle, hmem⟩
          rcases List.mem_cons.1 hmem with heq | hmem
          · omega
          · exact hl ⟨hle, hmem⟩
        rw [if_neg hne, if_neg fun h => hk h.1]

/-- Writing the arguments leaves everything of the core but its scalar registers. -/
theorem Core.args_eq (f : Nat → Dword) (l : List Nat) (c : Core) :
    ∃ t, l.foldl (fun c i => c.setS (16 + i) (f i)) c = { c with s := t } := by
  induction l generalizing c with
  | nil => exact ⟨_, rfl⟩
  | cons i l ih =>
    obtain ⟨t, ht⟩ := ih (c.setS (16 + i) (f i))
    refine ⟨t, ?_⟩
    rw [List.foldl_cons, ht, Core.setS_eq]

/-- The registers of a rank before its arguments. -/
def startBase (j : Job) (rank g epoch entry key : Nat) : Core :=
  (({ Core.reset with active := -1, pc := j.wbase + entry, start := j.start, job := some key }.setS 1
    (BitVec.ofNat 64 (rank + 256 * j.ranks.length + 2 ^ 16 * g + 2 ^ 32 * j.q))).setS 2 (BitVec.ofNat 64 j.wbase)).setS 3
    (BitVec.ofNat 64 (j.tn + 256 * j.part + 2 ^ 16 * epoch))

theorem startCore_eq (j : Job) (rank g epoch entry : Nat) (args : List Word) (key : Nat) : startCore j rank g epoch entry args key =
    (List.range 16).foldl (fun c i => c.setS (16 + i) ((args.getD i 0).setWidth 64)) (startBase j rank g epoch entry key) := rfl

theorem getS_startBase (j : Job) (rank g epoch entry key k : Nat) : (startBase j rank g epoch entry key).getS k =
    if k = 3 then BitVec.ofNat 64 (j.tn + 256 * j.part + 2 ^ 16 * epoch) else if k = 2 then BitVec.ofNat 64 j.wbase
    else if k = 1 then BitVec.ofNat 64 (rank + 256 * j.ranks.length + 2 ^ 16 * g + 2 ^ 32 * j.q) else 0 := by
  have hreset : ∀ r, Core.getS { Core.reset with active := -1, pc := j.wbase + entry, start := j.start, job := some key } r = 0 := fun r => by
    unfold Core.getS
    split <;> rfl
  rw [startBase, Core.getS_setS, Core.getS_setS, Core.getS_setS, hreset]
  simp

/-- R163: a rank starts at the model's entry, with its place, its model, its arguments, and every thread active. -/
theorem startCore_spec (j : Job) (rank g epoch entry : Nat) (args : List Word) (key : Nat) (c : Core) (hc : c = startCore j rank g epoch entry args key) :
    c.pc = j.wbase + entry ∧ c.active = BitVec.allOnes 64 ∧ c.stack = [] ∧ c.wait = .run ∧ c.job = some key ∧ c.fpstat = 0 ∧ c.fpmode = 0 ∧
      c.getS 1 = BitVec.ofNat 64 (rank + 256 * j.ranks.length + 2 ^ 16 * g + 2 ^ 32 * j.q) ∧ c.getS 2 = BitVec.ofNat 64 j.wbase ∧
      c.getS 3 = BitVec.ofNat 64 (j.tn + 256 * j.part + 2 ^ 16 * epoch) ∧
      (∀ i, i < 16 → c.getS (16 + i) = (args.getD i 0).setWidth 64) ∧ (∀ i, 4 ≤ i → i < 16 → c.getS i = 0) ∧ ∀ i u, c.getV i u = 0 := by
  rw [startCore_eq] at hc
  have hgetS : ∀ k, c.getS k = if 16 ≤ k ∧ k - 16 ∈ List.range 16 then (args.getD (k - 16) 0).setWidth 64 else (startBase j rank g epoch entry key).getS k :=
    fun k => by rw [hc, Core.getS_args]
  have hlow : ∀ k, k < 16 → c.getS k = (startBase j rank g epoch entry key).getS k := fun k hk => by rw [hgetS, if_neg (by omega)]
  have hargs : ∀ i, i < 16 → c.getS (16 + i) = (args.getD i 0).setWidth 64 := fun i hi => by
    rw [hgetS, if_pos ⟨Nat.le_add_right _ _, List.mem_range.2 (by omega)⟩, Nat.add_sub_cancel_left]
  obtain ⟨t, ht⟩ := Core.args_eq (fun i => (args.getD i 0).setWidth 64) (List.range 16) (startBase j rank g epoch entry key)
  have hbase : c = { startBase j rank g epoch entry key with s := t } := hc.trans ht
  have hs1 := (hlow 1 (by decide)).trans (getS_startBase j rank g epoch entry key 1)
  have hs2 := (hlow 2 (by decide)).trans (getS_startBase j rank g epoch entry key 2)
  have hs3 := (hlow 3 (by decide)).trans (getS_startBase j rank g epoch entry key 3)
  have hzero : ∀ i, 4 ≤ i → i < 16 → c.getS i = 0 := fun i hi hlt => by
    rw [hlow i hlt, getS_startBase, if_neg (by omega), if_neg (by omega), if_neg (by omega)]
  refine ⟨?_, ?_, ?_, ?_, ?_, ?_, ?_, hs1, hs2, hs3, hargs, hzero, fun i u => ?_⟩ <;> rw [hbase] <;> rfl

/-! The start of a job. -/

/-- The registers of a core whose job starts. -/
theorem State.jobRegs_spec (s : State) (x : Nat) (j : Job) {rank : Nat} (hr : rank < 8) (hn : j.tn < 128) (tag : Nat) :
    (s.jobRegs x j rank tag).fld (P.core x) F.CORE_STS_state = 4 ∧ (s.jobRegs x j rank tag).fld (P.core x) F.CORE_STS_rank = rank ∧
      (s.jobRegs x j rank tag).fld (P.core x) F.CORE_STS_tenant = j.tn := by
  unfold State.jobRegs
  dsimp only
  refine ⟨?_, ?_, ?_⟩
  · rw [State.fld_setFld_apart _ _ _ _ rfl, State.fld_setFlag_apart _ _ _ rfl, State.fld_setFlag_apart _ _ _ rfl, State.fld_setFld_apart _ _ _ _ rfl,
      State.fld_setFld_apart _ _ _ _ rfl, State.fld_setFld_apart _ _ _ _ rfl, State.fld_setFlag_apart _ _ _ rfl, State.fld_setFld_apart _ _ _ _ rfl,
      State.fld_setFld_apart _ _ _ _ rfl, State.fld_setFld_apart _ _ _ _ rfl, State.fld_setFld_self]
    rfl
  · rw [State.fld_setFld_apart _ _ _ _ rfl, State.fld_setFlag_apart _ _ _ rfl, State.fld_setFlag_apart _ _ _ rfl, State.fld_setFld_apart _ _ _ _ rfl,
      State.fld_setFld_apart _ _ _ _ rfl, State.fld_setFld_apart _ _ _ _ rfl, State.fld_setFlag_apart _ _ _ rfl, State.fld_setFld_apart _ _ _ _ rfl,
      State.fld_setFld_apart _ _ _ _ rfl, State.fld_setFld_of_lt _ _ _ hr]
  · rw [State.fld_setFld_apart _ _ _ _ rfl, State.fld_setFlag_apart _ _ _ rfl, State.fld_setFlag_apart _ _ _ rfl, State.fld_setFld_apart _ _ _ _ rfl,
      State.fld_setFld_apart _ _ _ _ rfl, State.fld_setFld_apart _ _ _ _ rfl, State.fld_setFlag_apart _ _ _ rfl, State.fld_setFld_of_lt _ _ _ hn]

theorem State.jobRegs_only (s : State) (x : Nat) (j : Job) (rank tag : Nat) : s.FldsOnly (s.jobRegs x j rank tag) :=
  (((((((((((State.FldsOnly.refl s).setFld _ _ _).setFld _ _ _).setFld _ _ _).setFld _ _ _).setFld _ _ _).setFld _ _ _).setFld _ _ _).setFld _ _ _).setFld
    _ _ _).setFld _ _ _).setFld _ _ _

/-- Another core's registers at a job start. -/
theorem State.jobRegs_other (s : State) {x y : Nat} (hxy : x ≠ y) (j : Job) (rank tag : Nat) {f : Fld} (hf : f.inside = true) :
    (s.jobRegs y j rank tag).fld (P.core x) f = s.fld (P.core x) f := by
  have hcore : P.core x ≠ P.core y := fun h => hxy (P.corePg_inj (by decide) (by decide) h).1
  have hmov : P.core x ≠ P.mov y := fun h => absurd (P.corePg_inj (by decide) (by decide) h).2 (by decide)
  have hsto : P.core x ≠ P.sto y := fun h => absurd (P.corePg_inj (by decide) (by decide) h).2 (by decide)
  unfold State.jobRegs State.setFlag
  dsimp only
  rw [State.fld_setFld_page _ _ _ _ hsto hf rfl, State.fld_setFld_page _ _ _ _ hmov hf rfl, State.fld_setFld_page _ _ _ _ hcore hf rfl,
    State.fld_setFld_page _ _ _ _ hcore hf rfl, State.fld_setFld_page _ _ _ _ hcore hf rfl, State.fld_setFld_page _ _ _ _ hcore hf rfl,
    State.fld_setFld_page _ _ _ _ hcore hf rfl, State.fld_setFld_page _ _ _ _ hcore hf rfl, State.fld_setFld_page _ _ _ _ hcore hf rfl,
    State.fld_setFld_page _ _ _ _ hcore hf rfl, State.fld_setFld_page _ _ _ _ hcore hf rfl]

/-- What one element of a list sets, and every other element of it keeps. -/
theorem State.each_reaches_mem {α : Type} {P : State → Prop} {l : List α} {x : α} (hx : x ∈ l) (f : α → State → State) (hset : ∀ u, P (f x u))
    (hkeep : ∀ y ∈ l, ∀ u, y ≠ x → P u → P (f y u)) (s : State) : P (s.each l f) := by
  induction l generalizing s with
  | nil => cases hx
  | cons y ys ih =>
    rw [State.each_cons]
    by_cases hxs : x ∈ ys
    · exact ih hxs (fun z hz => hkeep z (List.mem_cons_of_mem _ hz)) _
    · obtain rfl : x = y := (List.mem_cons.1 hx).resolve_right hxs
      exact State.each_keeps P _ _ _ (fun z hz u hu => hkeep z (List.mem_cons_of_mem _ hz) u (fun h => hxs (h ▸ hz)) hu) (hset s)

/-- The job that a RUN starts on the cores `gl`. -/
def State.newJob (s : State) (n q p : Nat) (d : Desc) (k : Nat) (gl : List Nat) : Job :=
  { Job.none with tn := n, q, order := d.order, model := d.model, part := p, ranks := gl.map s.physOf, start := s.now,
                  wbase := (s.res k).wOff, wlen := (s.res k).len }

/-- One rank of a job starts. -/
def State.rankStart (j : Job) (gl : List Nat) (d : Desc) (entry r : Nat) (s : State) : State :=
  (s.jobRegs (j.ranks.getD r 0) j r d.tag).setCore (j.ranks.getD r 0) (startCore j r (gl.getD r 0) d.epoch entry d.args d.order)

theorem State.fld_rankStart (j : Job) (gl : List Nat) (d : Desc) (entry r : Nat) (s : State) (pg : Nat) (f : Fld) :
    (State.rankStart j gl d entry r s).fld pg f = (s.jobRegs (j.ranks.getD r 0) j r d.tag).fld pg f := by
  rw [State.rankStart, State.fld_setCore]

/-- The state in which the ranks of a job start. -/
def State.jobReady (s : State) (n q p : Nat) (d : Desc) (k : Nat) (gl : List Nat) : State :=
  let e := s.res k
  let d1 := { d with loaded := d.loaded || e.loadedNext }
  let last := (s.newJob n q p d k gl).ranks.foldl (fun b x => Tab.set nat0 b x (s.runStamp x)) e.lastRun
  (((s.setDesc n q d1).startDesc n q d1).setRes k { e with loadedNext := false, lastRun := last }).setJob d.order (s.newJob n q p d k gl)

theorem State.jobReady_bytes (s : State) (n q p : Nat) (d : Desc) (k : Nat) (gl : List Nat) :
    (s.jobReady n q p d k gl).hmp = s.hmp ∧ (s.jobReady n q p d k gl).stores = s.stores ∧ (s.jobReady n q p d k gl).slices = s.slices := by
  simp only [State.jobReady, State.setDesc, State.startDesc, State.setJob_hmp, State.setRes_hmp, State.setQueue_hmp, State.setJob_stores, State.setRes_stores,
    State.setQueue_stores, State.setJob_slices, State.setRes_slices, State.setQueue_slices, and_self]

theorem State.jobStart_eq (s : State) (n q p : Nat) (d : Desc) (k : Nat) (gs : List Nat) :
    s.jobStart n q p d k gs = (s.jobReady n q p d k (gs.mergeSort (· ≤ ·))).each (List.range (gs.mergeSort (· ≤ ·)).length)
      (State.rankStart (s.newJob n q p d k (gs.mergeSort (· ≤ ·))) (gs.mergeSort (· ≤ ·)) d (s.res k).entry) := rfl

/-- The ranks of a job on different cores each start with their own registers. -/
theorem State.each_rankStart {j : Job} {gl : List Nat} (d : Desc) (entry : Nat) (hranks : j.ranks.Nodup) (hlen : j.ranks.length = gl.length)
    (hn : j.tn < 128) {r : Nat} (hr : r < gl.length) (hr8 : r < 8) (s t : State)
    (ht : t = s.each (List.range gl.length) (State.rankStart j gl d entry)) :
    t.core (j.ranks.getD r 0) = startCore j r (gl.getD r 0) d.epoch entry d.args d.order ∧ t.coreSt (j.ranks.getD r 0) = 4 ∧
      t.fld (P.core (j.ranks.getD r 0)) F.CORE_STS_rank = r ∧ t.fld (P.core (j.ranks.getD r 0)) F.CORE_STS_tenant = j.tn := by
  subst ht
  refine State.each_reaches_mem (P := fun t => t.core (j.ranks.getD r 0) = startCore j r (gl.getD r 0) d.epoch entry d.args d.order ∧
    t.coreSt (j.ranks.getD r 0) = 4 ∧ t.fld (P.core (j.ranks.getD r 0)) F.CORE_STS_rank = r ∧
    t.fld (P.core (j.ranks.getD r 0)) F.CORE_STS_tenant = j.tn) (List.mem_range.2 hr) _ (fun u => ?_) (fun r' hr' u hne hu => ?_) s
  · rw [State.coreSt, State.fld_rankStart, State.fld_rankStart, State.fld_rankStart]
    exact ⟨State.core_setCore_self _ _ _, u.jobRegs_spec _ j hr8 hn d.tag⟩
  · obtain ⟨hcore, hst, hrank, hten⟩ := hu
    have hlt : r' < gl.length := List.mem_range.1 hr'
    have hxy : j.ranks.getD r 0 ≠ j.ranks.getD r' 0 := by
      rw [List.getD_eq_getElem _ 0 (hlen ▸ hr), List.getD_eq_getElem _ 0 (hlen ▸ hlt)]
      exact fun h => hne ((List.Nodup.getElem_inj_iff hranks).1 h).symm
    rw [State.coreSt, State.fld_rankStart, State.fld_rankStart, State.fld_rankStart]
    refine ⟨?_, ?_, ?_, ?_⟩
    · rw [State.rankStart, State.core_setCore, if_neg hxy]
      obtain ⟨regs, hregs⟩ := State.jobRegs_only u (j.ranks.getD r' 0) j r' d.tag
      rw [hregs]
      exact hcore
    · exact (State.jobRegs_other u hxy j r' d.tag rfl).trans hst
    · exact (State.jobRegs_other u hxy j r' d.tag rfl).trans hrank
    · exact (State.jobRegs_other u hxy j r' d.tag rfl).trans hten

theorem State.rankStart_bytes (j : Job) (gl : List Nat) (d : Desc) (entry r : Nat) (s : State) : (State.rankStart j gl d entry r s).hmp = s.hmp ∧
    (State.rankStart j gl d entry r s).stores = s.stores ∧ (State.rankStart j gl d entry r s).slices = s.slices := by
  have hregs : s.FldsOnly (s.jobRegs (j.ranks.getD r 0) j r d.tag) := State.jobRegs_only _ _ _ _ _
  obtain ⟨regs, hregs⟩ := hregs
  rw [State.rankStart, State.setCore_hmp, State.setCore_stores, State.setCore_slices, hregs]
  exact ⟨rfl, rfl, rfl⟩

theorem State.rankStarts_bytes (j : Job) (gl : List Nat) (d : Desc) (entry : Nat) (l : List Nat) (s : State) :
    (s.each l (State.rankStart j gl d entry)).hmp = s.hmp ∧ (s.each l (State.rankStart j gl d entry)).stores = s.stores ∧
      (s.each l (State.rankStart j gl d entry)).slices = s.slices :=
  State.each_keeps (fun u => u.hmp = s.hmp ∧ u.stores = s.stores ∧ u.slices = s.slices) s l _ (fun r _ u hu => ⟨(State.rankStart_bytes j gl d entry r u).1.trans hu.1, (State.rankStart_bytes j gl d entry r u).2.1.trans hu.2.1,
      (State.rankStart_bytes j gl d entry r u).2.2.trans hu.2.2⟩) ⟨rfl, rfl, rfl⟩

/-- R163 for every rank of a job whose cores are different. -/
theorem State.jobStart_rank {s t : State} {n q p : Nat} {d : Desc} {k : Nat} {gs gl : List Nat} {r g : Nat} {c : Core} (hgl : gl = gs.mergeSort (· ≤ ·))
    (hnodup : (gl.map s.physOf).Nodup) (hg : gl[r]? = some g) (hn : n < 128) (hwidth : gs.length ≤ 7) (ht : t = s.jobStart n q p d k gs)
    (hc : c = t.core (s.physOf g)) :
    c = startCore (s.newJob n q p d k gl) r g d.epoch (s.res k).entry d.args d.order ∧ t.coreSt (s.physOf g) = 4 ∧
      t.fld (P.core (s.physOf g)) F.CORE_STS_rank = r ∧ t.fld (P.core (s.physOf g)) F.CORE_STS_tenant = n ∧
      t.hmp = s.hmp ∧ t.stores = s.stores ∧ t.slices = s.slices := by
  have hu := s.jobStart_eq n q p d k gs
  rw [← ht, ← hgl] at hu
  obtain ⟨hhmp, hstores, hslices⟩ := s.jobReady_bytes n q p d k gl
  generalize s.jobReady n q p d k gl = u at hu hhmp hstores hslices
  obtain ⟨hr, hget⟩ := List.getElem?_eq_some_iff.1 hg
  have hlen : gl.length = gs.length := by rw [hgl, List.length_mergeSort]
  have hrank : (s.newJob n q p d k gl).ranks.getD r 0 = s.physOf g := by
    show (gl.map s.physOf).getD r 0 = _
    rw [List.getD_eq_getElem _ 0 (by rw [List.length_map]; exact hr), List.getElem_map, hget]
  have hlogical : gl.getD r 0 = g := (List.getD_eq_getElem gl 0 hr).trans hget
  obtain ⟨hcore, hst, hrk, hten⟩ := State.each_rankStart (j := s.newJob n q p d k gl) d (s.res k).entry hnodup (List.length_map _) hn hr (by omega) u t hu
  obtain ⟨hh, hs, hsl⟩ := State.rankStarts_bytes (s.newJob n q p d k gl) gl d (s.res k).entry (List.range gl.length) u
  rw [hrank] at hcore hst hrk hten
  rw [hlogical] at hcore
  rw [hu]
  exact ⟨hc.trans hcore, hu ▸ hst, hu ▸ hrk, hu ▸ hten, hh.trans hhmp, hs.trans hstores, hsl.trans hslices⟩

/-- Settles O38: the dispatcher's choice, what it meets at the head of start order, and the registers with which each rank of a job starts. -/
theorem dispatchAndJobStart : Obligations.DispatchAndJobStart := by
  unfold Obligations.DispatchAndJobStart
  refine ⟨fun s p u hu => ⟨fun hpause => ?paused, fun hrun => ⟨fun h => ?none, fun q hlt hb hpart hcr hready hq => ?credit⟩,
    fun n q d hpick hrun hhead => ⟨fun hkind => exec_jobRun hu hpick hrun hhead hkind, fun hkind => ?other,
      fun hkind k hk => exec_jobLoad_found hu hpick hrun hhead hkind hk, fun hkind hnone k hk => exec_jobLoad_new hu hpick hrun hhead hkind hnone hk,
      fun hkind => (exec_jobUnload hu hpick hrun hhead hkind).1, fun hkind => (exec_jobUnload hu hpick hrun hhead hkind).2⟩,
    fun hidle => ⟨?_, ?_, ?_, fun b => ?_⟩⟩,
    fun s n q p d k gs gl r g hgl hnodup hg hn _ _ hwidth t c ht hc => ?rank⟩
  case paused => exact congrArg Host.Outcome.next (if_pos hpause)
  case none =>
    rw [hu]
    exact exec_dispatch_none hrun h
  case credit => exact completes_dispatch_credit hrun hlt hb hpart hcr hready hq
  case other => exact congrArg Host.Outcome.next (State.onPick_other_kind _ hpick hrun hhead hkind)
  case rank =>
    obtain ⟨hcore, hst, hrk, hten, hbytes⟩ := State.jobStart_rank hgl hnodup hg hn hwidth ht hc
    obtain ⟨hpc, hact, hstack, hwait, hjob, hfs, hfm, hs1, hs2, hs3, hargs, hzero, hv⟩ := startCore_spec _ _ _ _ _ _ _ c hcore
    have hranks : (s.newJob n q p d k gl).ranks.length = gs.length := (List.length_map _).trans (by rw [hgl, List.length_mergeSort])
    rw [hranks] at hs1
    exact ⟨hpc, hact, hstack, hwait, hjob, hfs, hfm, hs1, hs2, hs3, hargs, hzero, hv, hst, hrk, hten, hbytes⟩
  all_goals exact congrArg Host.Outcome.next (State.onPick_idle _ hidle)

end Sys2Proof.Machine
end

section
/-! Queue pairs: doorbells, head writes, the timer, failed writes, configuration, fetch, FENCE and NOP (06 R131-R140, R147, R153). -/
namespace Sys2Proof.Machine

/-! A tenant register's write. -/

theorem State.tenWrite_of_grants {s : State} {rq : Requester} {n : Fin 128} {k : Nat} (h : s.grantsTen rq n k = true) (off : Nat) (f : State → State) :
    s.tenWrite rq n k off f = f s := by
  cases rq with
  | tenant m =>
    simp only [State.grantsTen, Bool.and_eq_true, beq_iff_eq, bne_iff_ne] at h
    obtain ⟨⟨⟨⟨hm, hready⟩, hreach⟩, hstate⟩, hclear⟩ := h
    obtain rfl : m = n := Fin.ext hm
    have hland : s.landFor (.tenant m) = s := State.landClient_of_portClear hclear
    show (if s.reach (.tenant m) = true then (s.landFor (.tenant m)).tenApply m m f else s) = _
    rw [if_pos hreach, hland, State.tenApply, if_pos (by simp [hready, hstate])]
  | pf p => exact State.privWrite_of_grants h _ _
  | mgt => exact State.privWrite_of_grants h _ _
  | fw => exact State.privWrite_of_grants h _ _

/-! What errors and messages leave. -/

theorem State.RegsOnly.queue {s t : State} (h : s.RegsOnly t) (n q : Nat) : t.queue n q = s.queue n q := by
  obtain ⟨_, _, _, _, _, rfl⟩ := h
  rfl

theorem State.tenErr_only (s : State) (n pg code rq addr : Nat) : s.RegsOnly (s.tenErr n pg code rq addr) :=
  (State.countErr_only _ _ _ _ _).trans (State.flog_only _ _ _ _ _ _ _)

theorem P.queue_ne_flog (n q : Nat) (hq : q < 8) (m : Nat) : P.queue n q ≠ P.ten m 10 := by
  simp only [P.queue, P.ten]
  omega

theorem State.fld_tenErr_queue (s : State) {n q : Nat} (hq : q < 8) {f : Fld} (hf : f.own = true) (m pg code rq addr : Nat) :
    (s.tenErr m pg code rq addr).fld (P.queue n q) f = s.fld (P.queue n q) f := by
  have hin : f.inside = true := by
    simp only [Fld.own, Bool.and_eq_true, decide_eq_true_eq] at hf
    simp only [Fld.inside, Bool.and_eq_true, decide_eq_true_eq]
    exact ⟨hf.1.2, hf.2⟩
  rw [State.tenErr, State.fld_flog_page (P.queue_ne_flog n q hq m) hin, State.fld_countErr_own _ _ _ hf]

/-! Doorbells. -/

theorem countClass_zero (free size : Nat) : countClass 0 free size = 0 := rfl

theorem countClass_accepted {d free : Nat} (h1 : 1 ≤ d) (h : d ≤ free) (size : Nat) : countClass d free size = 1 := by
  rw [countClass, if_neg (by omega), if_pos h]

section
variable {s : State} {rq : Requester} {n q : Nat} (h : s.takesBells n q = true)
include h

theorem State.doorbell_accepted {v : Nat} (h1 : 1 ≤ sub16 v (s.sqTail n q)) (hfree : sub16 v (s.sqTail n q) ≤ s.sqFree n q) :
    s.doorbell rq n q v = s.setFld (P.queue n q) F.Q_SQ_TAIL_count v := by
  simp only [State.doorbell, h, Bool.not_true, Bool.false_eq_true, if_false, countClass_accepted h1 hfree]

theorem State.doorbell_same {v : Nat} (h0 : sub16 v (s.sqTail n q) = 0) : s.doorbell rq n q v = s := by
  simp only [State.doorbell, h, Bool.not_true, Bool.false_eq_true, if_false, h0, countClass_zero]

end

/-! Head writes. -/

theorem State.cancelMore_none {s : State} {n : Nat} (h : (s.ten n).cancel = none) (q : Nat) : s.cancelMore n q = s := by
  have hfetch : ∀ fuel, s.cancelFetch n q fuel = s := fun fuel => by
    cases fuel with
    | zero => rfl
    | succ fuel => rw [State.cancelFetch, h]
  rw [State.cancelMore, hfetch, State.cancelEnd, h]

theorem State.flushReport_none {s : State} {n q : Nat} (h : (s.queue n q).heldReport = []) : s.flushReport n q = s := by
  rw [State.flushReport, h]
  rfl

theorem State.flushEnded_none {s : State} {n q : Nat} (h : (s.queue n q).ended = []) (fuel : Nat) : s.flushEnded n q fuel = s := by
  cases fuel with
  | zero => rfl
  | succ fuel =>
    rw [State.flushEnded, h]
    exact ite_self _

section
variable {s : State} {rq : Requester} {n q v : Nat} (hrun : s.qState n q = 1 ∨ s.qState n q = 3) (hten : s.tnState n ≠ 3)
include hrun hten

theorem State.cqHeadWrite_same (h0 : sub16 v (s.cqHead n q) = 0) : s.cqHeadWrite rq n q v = s := by
  have htakes : ((s.qState n q == 1 || s.qState n q == 3) && s.tnState n != 3) = true := by simp [hrun, hten]
  simp only [State.cqHeadWrite, htakes, Bool.not_true, Bool.false_eq_true, if_false, h0, countClass_zero]

theorem State.cqHeadWrite_returned (h1 : 1 ≤ sub16 v (s.cqHead n q)) (hout : sub16 v (s.cqHead n q) ≤ s.cqOut n q)
    (hreport : (s.queue n q).heldReport = []) (hended : (s.queue n q).ended = []) (hcancel : (s.ten n).cancel = none) :
    s.cqHeadWrite rq n q v = s.setFld (P.queue n q) F.Q_CQ_HEAD_count v := by
  have htakes : ((s.qState n q == 1 || s.qState n q == 3) && s.tnState n != 3) = true := by simp [hrun, hten]
  simp only [State.cqHeadWrite, htakes, Bool.not_true, Bool.false_eq_true, if_false, countClass_accepted h1 hout]
  have hr : (s.setFld (P.queue n q) F.Q_CQ_HEAD_count v).flushReport n q = s.setFld (P.queue n q) F.Q_CQ_HEAD_count v := State.flushReport_none hreport
  have he : (s.setFld (P.queue n q) F.Q_CQ_HEAD_count v).flushEnded n q 128 = s.setFld (P.queue n q) F.Q_CQ_HEAD_count v :=
    State.flushEnded_none (s := s.setFld (P.queue n q) F.Q_CQ_HEAD_count v) hended _
  rw [hr, he]
  exact State.cancelMore_none (s := s.setFld (P.queue n q) F.Q_CQ_HEAD_count v) hcancel q

end

/-! Configuration. -/

theorem bits_or_one (v : Nat) {lo : Nat} (h : 0 < lo) (len : Nat) : bits (v ||| 1) lo len = bits v lo len := by
  obtain ⟨k, rfl⟩ : ∃ k, lo = 1 + k := ⟨lo - 1, by omega⟩
  have hhalf : (v ||| 1) / 2 = v / 2 := by
    rw [Nat.or_div_two]
    exact Nat.or_zero _
  rw [bits, bits, Nat.pow_add, Nat.pow_one, ← Nat.div_div_eq_div_mul, ← Nat.div_div_eq_div_mul, hhalf]

theorem bitOf_or_one (v : Nat) : bitOf (v ||| 1) 0 = true := by
  rw [bitOf_eq_testBit, Nat.testBit_or]
  simp

/-- A queue pair that was off is enabled: its protected fields take the dword. -/
theorem State.sqCfgWrite_enable {s u : State} {rq : Requester} {n q v : Nat} (hoff : s.flag (P.queue n q) F.Q_SQ_CFG_enable = false)
    (hu : u = (((((s.setFld (P.queue n q) F.Q_SQ_CFG_priority (bits v 5 2)).setFld (P.queue n q) F.Q_SQ_CFG_log2_size (bits v 1 4)).setFld (P.queue n q)
      F.Q_SQ_CFG_ordered (bits v 7 1)).setFld (P.queue n q) F.Q_SQ_CFG_dup_en (bits v 8 1)).setFld (P.queue n q) F.Q_SQ_CFG_base (bits v 11 17)).setFlag
      (P.queue n q) F.Q_SQ_CFG_enable true) (hon : bitOf v 0 = true) : s.sqCfgWrite rq n q v = u.queueOn rq n q := by
  subst hu
  unfold State.sqCfgWrite
  dsimp only
  rw [hoff, hon]
  rfl

theorem State.tenRegErr_eq (s : State) (rq : Requester) (n k off code : Nat) :
    s.tenRegErr rq n k off code = s.tenErr n (P.ten n k) code (rqCode rq) (accessAddr rq (P.ten n k) off) := rfl

theorem State.bindComps_regs (s : State) (cs : List Nat) (v : Bool) : (s.bindComps cs v).regs = s.regs :=
  State.each_keeps (fun u => u.regs = s.regs) s cs _ (fun _ _ _ hu => hu) rfl

/-- An enable leaves the configuration, and the queue running or in CFG_ERROR. -/
theorem State.queueOn_spec (s : State) (rq : Requester) {n q : Nat} (hq : q < 8) :
    (s.queueOn rq n q).flag (P.queue n q) F.Q_SQ_CFG_enable = s.flag (P.queue n q) F.Q_SQ_CFG_enable ∧
      (s.queueOn rq n q).fld (P.queue n q) F.Q_SQ_CFG_base = s.fld (P.queue n q) F.Q_SQ_CFG_base ∧
      (s.queueOn rq n q).fld (P.queue n q) F.Q_SQ_CFG_log2_size = s.fld (P.queue n q) F.Q_SQ_CFG_log2_size ∧
      (s.queueOn rq n q).qState n q = if s.queueOk n q then 1 else 2 := by
  unfold State.queueOn State.qState qf
  dsimp only
  by_cases hok : s.queueOk n q = true
  · rw [if_pos hok, if_pos hok]
    have hbind : ∀ f, ((s.setFld (P.queue n q) F.Q_STS_stale_cnt 0).bindComps (s.sqComps n q) true).fld (P.queue n q) f =
        (s.setFld (P.queue n q) F.Q_STS_stale_cnt 0).fld (P.queue n q) f := fun f => State.fld_of_regs (State.bindComps_regs _ _ _) _ _
    have hkeep : ∀ f : Fld, f.apart F.Q_CQ_TAIL_phase = true → f.apart F.Q_STS_state = true → f.apart F.Q_STS_stale_cnt = true → ∀ b,
        ((((s.setFld (P.queue n q) F.Q_STS_stale_cnt 0).bindComps (s.sqComps n q) true).setFld (P.queue n q) F.Q_STS_state 1).setFlag (P.queue n q)
          F.Q_CQ_TAIL_phase b).fld (P.queue n q) f = s.fld (P.queue n q) f := fun f h1 h2 h3 b => by
      rw [State.fld_setFlag_apart _ _ _ h1, State.fld_setFld_apart _ _ _ _ h2, hbind, State.fld_setFld_apart _ _ _ _ h3]
    refine ⟨State.flag_of_fld (hkeep _ rfl rfl rfl _), hkeep _ rfl rfl rfl _, hkeep _ rfl rfl rfl _, ?_⟩
    rw [State.fld_setFlag_apart _ _ _ rfl, State.fld_setFld_self]
    rfl
  · rw [if_neg hok, if_neg hok]
    have hkeep : ∀ f : Fld, f.own = true → f.apart F.PG_INT_STS = true → f.apart F.Q_STS_stale_cnt = true → f.apart F.Q_STS_state = true →
        ((((s.setFld (P.queue n q) F.Q_STS_stale_cnt 0).setFld (P.queue n q) F.Q_STS_state 2).tenRegErr rq n (q + 1) 0x040 0x42).event (P.queue n q) 0).fld
          (P.queue n q) f = s.fld (P.queue n q) f := fun f h1 h2 h3 h4 => by
      rw [State.fld_event_apart _ _ _ h2, State.tenRegErr_eq, State.fld_tenErr_queue _ hq h1, State.fld_setFld_apart _ _ _ _ h4,
        State.fld_setFld_apart _ _ _ _ h3]
    refine ⟨State.flag_of_fld (hkeep _ rfl rfl rfl rfl), hkeep _ rfl rfl rfl rfl, hkeep _ rfl rfl rfl rfl, ?_⟩
    rw [State.fld_event_apart _ _ _ rfl, State.tenRegErr_eq, State.fld_tenErr_queue _ hq rfl, State.fld_setFld_self]
    rfl

theorem exec_queueEnable {s u : State} {rq : Requester} {n : Fin 128} {q : Fin 8} (hg : s.grantsTen rq n (q.val + 1) = true) {cfg : Word}
    (hoff : s.flag (P.queue n q) F.Q_SQ_CFG_enable = false)
    (hu : u = (((((s.setFld (P.queue n q) F.Q_SQ_CFG_priority (bits cfg.toNat 5 2)).setFld (P.queue n q) F.Q_SQ_CFG_log2_size (bits cfg.toNat 1 4)).setFld
      (P.queue n q) F.Q_SQ_CFG_ordered (bits cfg.toNat 7 1)).setFld (P.queue n q) F.Q_SQ_CFG_dup_en (bits cfg.toNat 8 1)).setFld (P.queue n q) F.Q_SQ_CFG_base
      (bits cfg.toNat 11 17)).setFlag (P.queue n q) F.Q_SQ_CFG_enable true) :
    Completes (.queueEnable rq n q cfg) s fun t => t.flag (P.queue n q) F.Q_SQ_CFG_enable = true ∧ t.fld (P.queue n q) F.Q_SQ_CFG_base = bits cfg.toNat 11 17 ∧
      t.fld (P.queue n q) F.Q_SQ_CFG_log2_size = bits cfg.toNat 1 4 ∧ t.qState n q = if u.queueOk n q then 1 else 2 := by
  have hor : (cfg ||| 1#32).toNat = cfg.toNat ||| 1 := BitVec.toNat_or _ _
  have hwrite : s.sqCfgWrite rq n q (cfg ||| 1#32).toNat = u.queueOn rq n q := by
    rw [hor]
    refine State.sqCfgWrite_enable hoff ?_ (bitOf_or_one _)
    rw [hu, bits_or_one _ (by decide), bits_or_one _ (by decide), bits_or_one _ (by decide), bits_or_one _ (by decide), bits_or_one _ (by decide)]
  have hrun : exec (.queueEnable rq n q cfg) s = .next (u.queueOn rq n q) :=
    congrArg Host.Outcome.next ((State.tenWrite_of_grants hg _ _).trans hwrite)
  obtain ⟨hen, hbase, hsize, hst⟩ := u.queueOn_spec rq (n := n) q.isLt
  refine ⟨_, hrun, hen.trans ?_, hbase.trans ?_, hsize.trans ?_, hst⟩
  · rw [hu, State.flag_setFlag_self _ _ (by decide)]
  · rw [hu, State.fld_setFlag_apart _ _ _ rfl, State.fld_setFld_self]
    exact Nat.mod_eq_of_lt (bits_lt _ _ _)
  · rw [hu, State.fld_setFlag_apart _ _ _ rfl, State.fld_setFld_apart _ _ _ _ rfl, State.fld_setFld_apart _ _ _ _ rfl, State.fld_setFld_apart _ _ _ _ rfl,
      State.fld_setFld_self]
    exact Nat.mod_eq_of_lt (bits_lt _ _ _)

/-- The end of a cancel leaves the queues and every field but event bits. -/
theorem State.cancelEnd_keeps (s : State) (n : Nat) : (s.cancelEnd n).queues = s.queues ∧
    ∀ (pg : Nat) (f : Fld), f.apart F.PG_INT_STS = true → (s.cancelEnd n).fld pg f = s.fld pg f := by
  unfold State.cancelEnd
  split
  · dsimp only
    split
    · exact ⟨State.event_queues _ _ _, fun pg f hf => State.fld_event_apart _ _ _ hf _⟩
    · exact ⟨rfl, fun _ _ _ => rfl⟩
  · exact ⟨rfl, fun _ _ _ => rfl⟩

theorem State.queueOff_spec (s : State) (n q : Nat) : (s.queueOff n q).qState n q = 0 ∧ ((s.queueOff n q).queue n q).window = [] := by
  unfold State.queueOff State.qState qf
  dsimp only
  generalize (if (s.fld (P.queue n q) F.Q_STS_state == 1 || s.fld (P.queue n q) F.Q_STS_state == 3) = true then s.bindComps _ false else s) = u
  obtain ⟨hqueues, hfld⟩ := ((u.setQueue n q { u.queue n q with window := [] }).setFld (P.queue n q) F.Q_STS_state 0).cancelEnd_keeps n
  constructor
  · rw [hfld _ _ rfl, State.fld_setFld_self]
    rfl
  · have hqueue := congrArg (fun qs => Tab.get queue0 qs (8 * n + q)) hqueues
    exact congrArg QueueSt.window (hqueue.trans (State.queue_setQueue_self u n q _))

theorem bitOf_and_not_one (cfg : Word) : bitOf (cfg &&& ~~~1#32).toNat 0 = false := by
  have hbit : (cfg &&& ~~~1#32).getLsbD 0 = false := by simp
  rw [bitOf_eq_testBit, BitVec.testBit_toNat, hbit]

theorem exec_queueDisable {s : State} {rq : Requester} {n : Fin 128} {q : Fin 8} (hg : s.grantsTen rq n (q.val + 1) = true) (cfg : Word) :
    Completes (.queueDisable rq n q cfg) s fun t => t.flag (P.queue n q) F.Q_SQ_CFG_enable = false ∧ t.qState n q = 0 ∧ (t.queue n q).window = [] ∧
      s.sameBytes t := by
  have hoff := bitOf_and_not_one cfg
  obtain ⟨u, hu⟩ : ∃ u : State, s.sqCfgWrite rq n q (cfg &&& ~~~1#32).toNat = (u.queueOff n q).setFlag (P.queue n q) F.Q_SQ_CFG_enable false := by
    unfold State.sqCfgWrite
    dsimp only
    rw [hoff]
    exact ⟨_, rfl⟩
  have hrun : exec (.queueDisable rq n q cfg) s = .next ((u.queueOff n q).setFlag (P.queue n q) F.Q_SQ_CFG_enable false) :=
    congrArg Host.Outcome.next ((State.tenWrite_of_grants hg _ _).trans hu)
  have hbytes : s.sameBytes ((u.queueOff n q).setFlag (P.queue n q) F.Q_SQ_CFG_enable false) :=
    State.sameBytes_of_mems (hu ▸ State.sqCfgWrite_mem s rq n q _ s.mems_memsOf)
  obtain ⟨hst, hwin⟩ := u.queueOff_spec n q
  generalize u.queueOff n q = v at hrun hst hwin hbytes
  exact ⟨_, hrun, State.flag_setFlag_self _ _ (by decide) _, (State.fld_setFlag_apart _ _ _ rfl _).trans hst, hwin, hbytes⟩

/-! The coalescing timer and a failed write. -/

theorem exec_cqCoalTimerExpiry {s : State} {n : Fin 128} {q : Fin 8} (hun : (s.queue n q).unsignalled ≠ 0) (hus : qf s n q F.Q_CQ_CFG_coal_us ≠ 0)
    (hd3 : (s.port (s.tnPort n)).d3 = false) : Completes (.cqCoalTimerExpiry n q) s fun t =>
      (t.queue n q).unsignalled = 0 ∧ (t.queue n q).coalStart = none ∧ s.sameRegs t [] ∧
        (if s.deliverable (s.tnFn n) q then t.outs = .msix (s.tnFn n) q :: s.outs else bitOf (t.fn (s.tnFn n)).pba q = true ∧ t.outs = s.outs) := by
  have hcond : ((s.queue n q).unsignalled != 0 && qf s n q F.Q_CQ_CFG_coal_us != 0) = true := by simp [hun, hus]
  have hsignal : s.cqSignal n q =
      (s.setQueue n q { s.queue n q with unsignalled := 0, coalStart := none, heldMsix := false }).msix (s.tnFn n) q := by
    unfold State.cqSignal
    dsimp only
    rw [hd3]
    rfl
  have hrun : exec (.cqCoalTimerExpiry n q) s =
      .next ((s.setQueue n q { s.queue n q with unsignalled := 0, coalStart := none, heldMsix := false }).msix (s.tnFn n) q) :=
    congrArg Host.Outcome.next ((if_pos hcond).trans hsignal)
  have hqueue : ((s.setQueue n q { s.queue n q with unsignalled := 0, coalStart := none, heldMsix := false }).msix (s.tnFn n) q).queue n q =
      { s.queue n q with unsignalled := 0, coalStart := none, heldMsix := false } :=
    ((State.msix_only _ _ _).queue n q).trans (State.queue_setQueue_self s n q _)
  refine ⟨_, hrun, congrArg QueueSt.unsignalled hqueue, congrArg QueueSt.coalStart hqueue, ?_, ?_⟩
  · unfold State.msix
    split
    · exact State.sameRegs_of_regs rfl _
    · exact State.sameRegs_of_regs rfl _
  · unfold State.msix
    have hdel : (s.setQueue n q { s.queue n q with unsignalled := 0, coalStart := none, heldMsix := false }).deliverable (s.tnFn n) q =
        s.deliverable (s.tnFn n) q := rfl
    rw [hdel]
    split
    · rfl
    · refine ⟨?_, rfl⟩
      rw [State.fn_setFn_self]
      exact bitOf_putBit_true _ _

theorem State.cqError_spec (s : State) {n q : Nat} (hq : q < 8) : (s.cqError n q).qState n q = 3 ∧ (s.cqError n q).cqTail n q = s.cqTail n q ∧
    ∀ d ∈ ((s.cqError n q).queue n q).fetched, d.st = .running := by
  have honly : ((s.setFld (P.queue n q) F.Q_STS_state 3).dropWaiting n q).RegsOnly (s.cqError n q) :=
    (State.tenErr_only _ _ _ _ _ _).trans (.event _ _ _)
  refine ⟨?_, ?_, fun d hd => ?_⟩
  · unfold State.cqError State.qState qf
    dsimp only
    rw [State.fld_event_apart _ _ _ rfl, State.fld_tenErr_queue _ hq rfl]
    exact State.fld_setFld_self _ _ _ _
  · unfold State.cqError State.cqTail qf
    dsimp only
    rw [State.fld_event_apart _ _ _ rfl, State.fld_tenErr_queue _ hq rfl]
    exact State.fld_setFld_apart s _ _ _ rfl
  · rw [honly.queue] at hd
    have hfetched : (((s.setFld (P.queue n q) F.Q_STS_state 3).dropWaiting n q).queue n q).fetched = (s.queue n q).fetched.filter fun d => d.st == .running :=
      congrArg QueueSt.fetched (State.queue_setQueue_self _ n q _)
    have hmem : d ∈ (s.queue n q).fetched.filter fun d => d.st == .running := hfetched ▸ hd
    simpa using (List.mem_filter.1 hmem).2

theorem exec_cqWriteFail {s : State} {n : Fin 128} {q : Fin 8} (hst : s.qState n q ≠ 2) (hout : s.cqOut n q ≠ 0) : Completes (.cqWriteFail n q) s fun t =>
    t.qState n q = 3 ∧ t.cqTail n q = (s.cqTail n q + 65535) % 65536 ∧ ∀ d ∈ (t.queue n q).fetched, d.st = .running := by
  obtain ⟨b, hrun⟩ : ∃ b, exec (.cqWriteFail n q) s =
      .next (((s.setFld (P.queue n q) F.Q_CQ_TAIL_count ((s.cqTail n q + 65535) % 65536)).setFlag (P.queue n q) F.Q_CQ_TAIL_phase b).cqError n q) :=
    ⟨_, congrArg Host.Outcome.next (if_pos (by simp [hst, hout]))⟩
  have htail : ((s.setFld (P.queue n q) F.Q_CQ_TAIL_count ((s.cqTail n q + 65535) % 65536)).setFlag (P.queue n q) F.Q_CQ_TAIL_phase b).cqTail n q =
      (s.cqTail n q + 65535) % 65536 := by
    rw [State.cqTail, qf, State.fld_setFlag_apart _ _ _ rfl, State.fld_setFld_self]
    exact Nat.mod_mod _ _
  obtain ⟨h3, hkeep, hfetched⟩ := State.cqError_spec
    ((s.setFld (P.queue n q) F.Q_CQ_TAIL_count ((s.cqTail n q + 65535) % 65536)).setFlag (P.queue n q) F.Q_CQ_TAIL_phase b) (n := n) q.isLt
  exact ⟨_, hrun, h3, hkeep.trans htail, hfetched⟩

/-! Fetch. -/

theorem exec_descriptorFetch {s : State} {n : Fin 128} {q : Fin 8} (hmay : s.mayFetch n q = true) (hlen : (s.queue n q).fetched.length < 64)
    (hcancel : (s.ten n).cancel = none) {i off : Nat} {b : List Byte} {d : Desc} (hi : i = s.sqHead n q)
    (hoff : off = qf s n q F.Q_SQ_CFG_base * 2048 + i % s.sqSize n q * 128) (hb : b = s.apRead n off 128) (hd : d = parseDesc b i s.order (s.epoch n))
    (hpoison : s.apPoison n off 128 = none) (hgood : s.descFaults n d (dfield b 9 1) = []) (hdup : s.isDup n q d = false) :
    Completes (.descriptorFetch n q) s fun t => t.sqHead n q = (i + 1) % 65536 ∧ t.order = s.order + 1 ∧
      (t.queue n q).fetched = (s.queue n q).fetched ++ [d] ∧ t.outs = s.outs ∧ s.sameBytes t := by
  have hcond : (s.mayFetch n q && decide ((s.queue n q).fetched.length < 64)) = true := by simp [hmay, hlen]
  have hfetch : s.fetchOne n q = ({ s.setFld (P.queue n q) F.Q_SQ_HEAD_count (i + 1) with order := s.order + 1 } : State).setQueue n q
      { s.queue n q with fetched := (s.queue n q).fetched ++ [d] } := by
    subst hi hoff hb hd
    unfold State.fetchOne
    dsimp only
    rw [hpoison]
    dsimp only
    rw [hgood, hdup]
    rfl
  have hrun : exec (.descriptorFetch n q) s = .next (({ s.setFld (P.queue n q) F.Q_SQ_HEAD_count (i + 1) with order := s.order + 1 } : State).setQueue n q
      { s.queue n q with fetched := (s.queue n q).fetched ++ [d] }) := by
    refine congrArg Host.Outcome.next ((if_pos hcond).trans ?_)
    rw [hcancel]
    exact hfetch
  refine ⟨_, hrun, ?_, rfl, ?_, rfl, .refl s⟩
  · exact State.fld_setFld_self s _ _ _
  · exact congrArg QueueSt.fetched (State.queue_setQueue_self _ n q _)

theorem exec_descriptorFetch_not {s : State} {n : Fin 128} {q : Fin 8} (h : s.mayFetch n q = false ∨ 64 ≤ (s.queue n q).fetched.length) :
    exec (.descriptorFetch n q) s = .next s := by
  refine congrArg Host.Outcome.next (if_neg ?_)
  rw [Bool.and_eq_true, decide_eq_true_eq]
  rintro ⟨hmay, hlen⟩
  rcases h with h | h
  · rw [h] at hmay
    cases hmay
  · omega

/-! FENCE and NOP. -/

theorem State.fetched_setQueue (s : State) (n q : Nat) (v : QueueSt) : ((s.setQueue n q v).queue n q).fetched = v.fetched := by
  rw [State.queue_setQueue_self]

/-- The queue's descriptors and the tail after an entry. -/
theorem State.cqPut_spec (s : State) (n q : Nat) (e : CqEntry) (irq : Bool) : ((s.cqPut n q e irq).queue n q).fetched = (s.queue n q).fetched ∧
    (s.cqPut n q e irq).cqTail n q = (s.cqTail n q + 1) % 65536 := by
  have hsignal : ∀ u : State, ((u.cqSignal n q).queue n q).fetched = (u.queue n q).fetched ∧ (u.cqSignal n q).regs = u.regs := fun u => by
    unfold State.cqSignal
    dsimp only
    split
    · exact ⟨State.fetched_setQueue u n q _, rfl⟩
    · refine ⟨?_, ?_⟩
      · rw [(State.msix_only _ _ _).queue]
        exact State.fetched_setQueue u n q _
      · unfold State.msix
        split <;> rfl
  have hnotify : ∀ u : State, ((u.cqNotify n q irq).queue n q).fetched = (u.queue n q).fetched ∧ (u.cqNotify n q irq).regs = u.regs := fun u => by
    unfold State.cqNotify
    dsimp only
    split
    · obtain ⟨hf, hr⟩ := hsignal (u.setQueue n q { u.queue n q with
        unsignalled := (u.queue n q).unsignalled + 1
        coalStart := if (u.queue n q).unsignalled = 0 then some u.now else (u.queue n q).coalStart })
      exact ⟨hf.trans (State.fetched_setQueue u n q _), hr⟩
    · exact ⟨State.fetched_setQueue u n q _, rfl⟩
  unfold State.cqPut
  dsimp only
  refine ⟨(hnotify _).1, ?_⟩
  rw [State.cqTail, qf, State.fld_of_regs (hnotify _).2, State.fld_setFlag_apart _ _ _ rfl, State.fld_setFld_self]
  rfl

/-- What lets the head of start order start. -/
theorem State.startHead_ready {s : State} {n q : Nat} {d : Desc} (h : s.startHead n q = some d) :
    (s.port (s.tnPort n)).d3 = false ∧ s.cqFull n q = false ∧ d.st = .waiting := by
  unfold State.startHead at h
  split at h
  · next hcond =>
    simp only [Bool.and_eq_true, Bool.not_eq_true'] at hcond
    obtain ⟨⟨-, hd3⟩, hfull⟩ := hcond
    refine ⟨hd3, hfull, ?_⟩
    split at h
    · next e he =>
      split at h
      · cases h
      · cases h
        simpa using List.find?_some he
    · cases h
  · cases h

/-- The entry of a descriptor that completes without having started. -/
def Desc.okEntry (d : Desc) (q : Nat) : CqEntry := ⟨d.tag, 0, 0, false, d.loaded, d.epoch, 0, 0xFFFF, 0, q, d.cookie, 0, 0⟩

theorem State.completeUnstarted_writes {s : State} {n q : Nat} {d : Desc} (hhead : s.startHead n q = some d) (hent : s.writesEntries n q = true)
    (hreq : s.mayRequest n = true) (hcancel : (s.ten n).cancel = none) (t : State) (ht : t = s.completeUnstarted n q d 0 0) :
    (t.queue n q).fetched = (s.queue n q).fetched.filter (·.num != d.num) ∧ t.cqTail n q = (s.cqTail n q + 1) % 65536 ∧
      ∃ a e, .cqEntry n q (s.cqTail n q) (s.tnFn n) (s.qPasid n q) a (CqEntry.bytes e) false ∈ t.outs ∧ e.tag = d.tag ∧ e.status = 0 ∧
        e.sqHead = s.sqHead n q := by
  obtain ⟨hd3, hfull, hwait⟩ := State.startHead_ready hhead
  have hnot : (s.writesEntries n q && s.cqFull n q) = false := by rw [hfull, Bool.and_false]
  have hrun : (d.st == .running) = false := by rw [hwait]; rfl
  obtain ⟨v, hv, hfetched⟩ : ∃ v : QueueSt, t = (s.setQueue n q v).cqPut n q (d.okEntry q) (bitOf d.flags 1) ∧
      v.fetched = (s.queue n q).fetched.filter (·.num != d.num) := by
    have hgoes : ∀ v, (s.setQueue n q v).cqWrite n q (d.okEntry q) (bitOf d.flags 1) = (s.setQueue n q v).cqPut n q (d.okEntry q) (bitOf d.flags 1) := fun v => by
      rw [State.cqWrite, if_neg (by show ¬ (s.port (s.tnPort n)).d3 = true; rw [hd3]; decide), if_pos (by exact hreq)]
    have hnote : ∀ v, ((s.setQueue n q v).cqPut n q (d.okEntry q) (bitOf d.flags 1)).cancelNote n q d.num =
        (s.setQueue n q v).cqPut n q (d.okEntry q) (bitOf d.flags 1) := fun v => by
      have htens : ((s.setQueue n q v).cqPut n q (d.okEntry q) (bitOf d.flags 1)).tens = s.tens :=
        (State.cqPut_only (s.setQueue n q v) n q (d.okEntry q) (bitOf d.flags 1)).keeps.2.2.2.2.2.2.1
      have hnone : (((s.setQueue n q v).cqPut n q (d.okEntry q) (bitOf d.flags 1)).ten n).cancel = none := by
        rw [State.ten, htens]
        exact hcancel
      rw [State.cancelNote, hnone]
    rw [ht, State.completeUnstarted, hnot]
    simp only [Bool.false_eq_true, if_false]
    unfold State.complete Done.plain
    dsimp only
    rw [hrun, hent]
    simp only [Bool.false_eq_true, if_false, if_true]
    exact ⟨_, (congrArg (fun u => State.cancelNote u n q d.num) (hgoes _)).trans (hnote _), rfl⟩
  subst hv
  obtain ⟨hf, htail⟩ := State.cqPut_spec (s.setQueue n q v) n q (d.okEntry q) (bitOf d.flags 1)
  refine ⟨?_, htail, (s.setQueue n q v).cqAddr n q, (s.setQueue n q v).cqStamped n q (d.okEntry q), ?_, rfl, rfl, rfl⟩
  · rw [hf, State.queue_setQueue_self, hfetched]
  · exact State.cqPut_sends (s.setQueue n q v) n q (d.okEntry q) (bitOf d.flags 1)

section
variable {s : State} {n : Fin 128} {q : Fin 8} {d : Desc}

theorem exec_jobFence_none (h : s.startHead n q = none) : exec (.jobFence n q) s = .next s ∧ exec (.jobNop n q) s = .next s := by
  constructor
  · show execJobFence n q s = _
    rw [execJobFence, h]
  · show execJobNop n q s = _
    rw [execJobNop, h]

section
variable (hhead : s.startHead n q = some d)
include hhead

theorem exec_jobFence_done (hkind : d.kind = 2) (hdone : s.fenceDone n q d = true) : exec (.jobFence n q) s = .next (s.completeUnstarted n q d 0 0) := by
  show execJobFence n q s = _
  rw [execJobFence, hhead]
  exact congrArg Host.Outcome.next (if_pos (by simp [hkind, hdone]))

theorem exec_jobFence_waits (hdone : s.fenceDone n q d = false) : exec (.jobFence n q) s = .next s := by
  show execJobFence n q s = _
  rw [execJobFence, hhead]
  exact congrArg Host.Outcome.next (if_neg (by simp [hdone]))

theorem exec_jobNop (hkind : d.kind = 3) : exec (.jobNop n q) s = .next (s.completeUnstarted n q d 0 0) := by
  show execJobNop n q s = _
  rw [execJobNop, hhead]
  exact congrArg Host.Outcome.next (if_pos hkind)

end

end

/-- Settles O36: the tenant's writes reach its queue page; a descriptor that is good waits in its queue; and a FENCE or a NOP at the head of start order
finds a slot, so its entry goes into the ring at once. -/
theorem queuesAndDescriptors : Obligations.QueuesAndDescriptors := by
  unfold Obligations.QueuesAndDescriptors
  refine ⟨fun s rq n q pg hpg => ⟨fun hg => ⟨fun v htakes d hd => ⟨fun h1 hfree => ?bell, fun h0 => ?again⟩, fun v hoff => ?deaf,
      fun v hrun hten d hd hout => ⟨fun h0 => ?sameHead, fun h1 hreport hended hcancel => ?head⟩, fun cfg u hoff hu => ?enable, fun cfg => ?disable⟩,
      fun hun hus hd3 => exec_cqCoalTimerExpiry hun hus hd3, fun h => ?noTimer, fun hst hout => exec_cqWriteFail hst hout, fun h => ?noFail⟩,
    fun s n q => ⟨fun hmay hlen hcancel i off b d hi hoff hb hd hpoison hgood hdup => exec_descriptorFetch hmay hlen hcancel hi hoff hb hd hpoison hgood hdup,
      fun h => exec_descriptorFetch_not h,
      fun d hhead hent hreq hcancel => ⟨fun hkind hdone => ?fence, fun _ hdone => exec_jobFence_waits hhead hdone, fun hkind => ?nop⟩,
      fun h => exec_jobFence_none h⟩⟩
  case bell =>
    rw [hd] at h1 hfree
    refine ⟨_, congrArg Host.Outcome.next ((State.tenWrite_of_grants hg _ _).trans (State.doorbell_accepted htakes h1 hfree)), ?_, ?_, rfl⟩
    · exact State.fld_setFld_of_lt s _ _ v.isLt
    · exact State.fld_setFld_apart s _ _ _ rfl
  case again =>
    rw [hd] at h0
    exact ⟨_, congrArg Host.Outcome.next ((State.tenWrite_of_grants hg _ _).trans (State.doorbell_same htakes h0)), rfl⟩
  case deaf =>
    refine congrArg Host.Outcome.next ((State.tenWrite_of_grants hg _ _).trans ?_)
    exact if_pos (by rw [hoff]; rfl)
  case sameHead =>
    rw [hd] at h0
    exact congrArg Host.Outcome.next ((State.tenWrite_of_grants hg _ _).trans (State.cqHeadWrite_same hrun hten h0))
  case head =>
    rw [hd] at h1 hout
    rw [hpg]
    exact congrArg Host.Outcome.next ((State.tenWrite_of_grants hg _ _).trans (State.cqHeadWrite_returned hrun hten h1 hout hreport hended hcancel))
  case enable =>
    subst hpg
    exact exec_queueEnable hg hoff hu
  case disable =>
    subst hpg
    exact exec_queueDisable hg cfg
  case noTimer =>
    refine congrArg Host.Outcome.next (if_neg ?_)
    rcases h with h | h <;> simp [h]
  case noFail =>
    refine congrArg Host.Outcome.next (if_neg ?_)
    rcases h with h | h <;> simp [h]
  case fence =>
    obtain ⟨hf, -, a, e, hmem, htag, hst, hhd⟩ := State.completeUnstarted_writes hhead hent hreq hcancel _ rfl
    exact ⟨_, exec_jobFence_done hhead hkind hdone, hf, a, e, hmem, htag, hst, hhd⟩
  case nop =>
    obtain ⟨hf, htail, a, e, hmem, htag, hst, -⟩ := State.completeUnstarted_writes hhead hent hreq hcancel _ rfl
    exact ⟨_, exec_jobNop hhead hkind, hf, htail, a, e, hmem, htag, hst⟩

end Sys2Proof.Machine
end

section
/-! Partitions: PT_CMD and its operations (14 R331-R333, R340; 16 R384). -/
namespace Sys2Proof.Machine

/-! The command's end. -/

theorem State.ptCmdEnd_only (s : State) (p r : Nat) : s.RegsOnly (s.ptCmdEnd p r) :=
  ((State.RegsOnly.setFld _ _ _ _).trans (.setFld _ _ _ _)).trans (.event _ _ _)

theorem State.RegsOnly.pm {s t : State} (h : s.RegsOnly t) (p : Nat) : t.pm p = s.pm p := by
  obtain ⟨_, _, _, _, _, rfl⟩ := h
  rfl

theorem State.fld_ptCmdEnd (s : State) (p r q : Nat) {f : Fld} (h1 : f.apart F.PT_STS_result = true) (h2 : f.apart F.PT_CMD_go = true)
    (h3 : f.apart F.PG_INT_STS = true) : (s.ptCmdEnd p r).fld q f = s.fld q f := by
  rw [State.ptCmdEnd, State.fld_event_apart _ _ _ h3, State.fld_setFlag_apart _ _ _ h2, State.fld_setFld_apart _ _ _ _ h1]

/-- What the end of a PT_CMD command leaves. -/
theorem State.ptCmdEnd_spec (s : State) (p : Nat) {r : Nat} (hr : r < 8) : (s.ptCmdEnd p r).fld (P.pt p) F.PT_STS_result = r ∧
    (s.ptCmdEnd p r).flag (P.pt p) F.PT_CMD_go = false ∧ (s.ptCmdEnd p r).ptState p = s.ptState p := by
  refine ⟨?_, ?_, State.fld_ptCmdEnd s p r _ rfl rfl rfl⟩
  · rw [State.ptCmdEnd, State.fld_event_apart _ _ _ rfl, State.fld_setFlag_apart _ _ _ rfl, State.fld_setFld_of_lt _ _ _ hr]
  · rw [State.ptCmdEnd, State.flag_event_apart _ _ _ rfl, State.flag_setFlag_self _ _ (by decide)]

/-! The start of a command. -/

/-- A PT_CMD command is in progress. -/
def State.ptCmdOn (s : State) (p op : Nat) : State := (s.setFld (P.pt p) F.PT_CMD_op op).setFlag (P.pt p) F.PT_CMD_go true

theorem State.fld_ptCmdOn (s : State) (p op q : Nat) {f : Fld} (h1 : f.apart F.PT_CMD_op = true) (h2 : f.apart F.PT_CMD_go = true) :
    (s.ptCmdOn p op).fld q f = s.fld q f := by
  rw [State.ptCmdOn, State.fld_setFlag_apart _ _ _ h2, State.fld_setFld_apart _ _ _ _ h1]

theorem State.ptCmdOn_only (s : State) (p op : Nat) : s.FldsOnly (s.ptCmdOn p op) :=
  ((State.FldsOnly.refl s).setFld _ _ _).setFld _ _ _

theorem State.inMask_congr {s t : State} {p : Nat} (hlo : t.fld (P.pt p) F.PT_CLU_LO_mask = s.fld (P.pt p) F.PT_CLU_LO_mask)
    (hhi : t.fld (P.pt p) F.PT_CLU_HI_mask = s.fld (P.pt p) F.PT_CLU_HI_mask) (cl : Nat) : t.inMask p cl = s.inMask p cl := by
  rw [State.inMask, State.fld64, hlo, hhi]
  rfl

theorem State.partClusters_congr {s t : State} {p : Nat} (h : ∀ cl, t.inMask p cl = s.inMask p cl) : t.partClusters p = s.partClusters p :=
  List.filter_congr fun cl _ => h cl

/-- A BUILD's checks read no field of the command. -/
theorem State.ptCheck_congr {s t : State} (h : ∀ (q : Nat) (f : Fld), f ∈ [F.PT_CLU_LO_mask, F.PT_CLU_HI_mask, F.PT_CFG_companion, F.PT_STS_state, F.SER_STS_state] →
    t.fld q f = s.fld q f) (p : Nat) : t.ptCheck p = s.ptCheck p := by
  have hmask : ∀ q cl, t.inMask q cl = s.inMask q cl := fun q cl => State.inMask_congr (h _ _ (by simp)) (h _ _ (by simp)) cl
  have hstate : ∀ q, t.ptState q = s.ptState q := fun q => h _ _ (by simp)
  have hcfg : ∀ q, t.fld (P.pt q) F.PT_CFG_companion = s.fld (P.pt q) F.PT_CFG_companion := fun q => h _ _ (by simp)
  have hfenced : ∀ u, t.fenced u = s.fenced u := fun u => by rw [State.fenced, h _ _ (by simp), State.fenced]
  simp only [State.ptCheck, State.partClusters_congr (hmask p), hmask, hstate, hcfg, hfenced]

theorem State.ptCheck_ptCmdOn (s : State) (p op : Nat) : (s.ptCmdOn p op).ptCheck p = s.ptCheck p := by
  refine State.ptCheck_congr (fun q f hf => ?_) p
  simp only [List.mem_cons, List.not_mem_nil, or_false] at hf
  rcases hf with rfl | rfl | rfl | rfl | rfl <;> exact State.fld_ptCmdOn s p op q rfl rfl

theorem State.ptCheck_le {s : State} {p r : Nat} (h : s.ptCheck p = some r) : r < 8 := by
  unfold State.ptCheck at h
  dsimp only at h
  split at h
  · cases h
    decide
  · split at h
    · cases h
      decide
    · cases h

section
variable {s : State} {rq : Requester} {p : Fin 8} (hg : s.grants rq (P.pt p) = true)
include hg

theorem exec_ptCmds : exec (.partitionBuild rq p) s = .next (s.ptCmdWrite p 1 true) ∧ exec (.partitionReset rq p) s = .next (s.ptCmdWrite p 2 true) ∧
    exec (.partitionDissolve rq p) s = .next (s.ptCmdWrite p 3 true) :=
  ⟨congrArg Host.Outcome.next (State.privWrite_of_grants hg _ _), congrArg Host.Outcome.next (State.privWrite_of_grants hg _ _),
    congrArg Host.Outcome.next (State.privWrite_of_grants hg _ _)⟩

end

theorem State.ptCmdWrite_busy {s : State} {p : Nat} (h : s.flag (P.pt p) F.PT_CMD_go = true) (op : Nat) :
    s.ptCmdWrite p op true = s.setFld (P.pt p) F.PT_STS_result 4 := by
  rw [State.ptCmdWrite]
  dsimp only
  rw [if_pos h, if_pos rfl]

section
variable {s : State} {p : Nat} (hgo : s.flag (P.pt p) F.PT_CMD_go = false)
include hgo

theorem State.ptCmdWrite_build_not (h : s.ptState p ≠ 0) : s.ptCmdWrite p 1 true = (s.ptCmdOn p 1).ptCmdEnd p 4 := by
  obtain ⟨k, hk⟩ := Nat.exists_eq_succ_of_ne_zero h
  unfold State.ptCmdWrite
  simp only [hgo, hk]
  rfl

theorem State.ptCmdWrite_build (h : s.ptState p = 0) : s.ptCmdWrite p 1 true = (s.ptCmdOn p 1).buildStart p := by
  unfold State.ptCmdWrite
  simp only [hgo, h]
  rfl

theorem State.ptCmdWrite_reset_shutdown (h : s.inShutdown = true) : s.ptCmdWrite p 2 true = s.setFld (P.pt p) F.PT_CMD_op 2 := by
  unfold State.ptCmdWrite
  simp [hgo, h]

theorem State.ptCmdWrite_reset (h : s.inShutdown = false) (h2 : s.ptState p = 2) : s.ptCmdWrite p 2 true = (s.ptCmdOn p 2).rstStart 3 p := by
  unfold State.ptCmdWrite
  simp only [hgo, h, h2]
  rfl

theorem State.ptCmdWrite_reset_not (h : s.inShutdown = false) (h2 : s.ptState p = 0 ∨ s.ptState p = 1) : s.ptCmdWrite p 2 true = (s.ptCmdOn p 2).ptCmdEnd p 4 := by
  unfold State.ptCmdWrite
  rcases h2 with h2 | h2
  · simp only [hgo, h, h2]
    rfl
  · simp only [hgo, h, h2]
    rfl

theorem State.ptCmdWrite_dissolve (h : s.ptState p = 2 ∨ s.ptState p = 4) : s.ptCmdWrite p 3 true =
    if s.mayDissolve p then ((s.ptCmdOn p 3).ptDrop p).ptCmdEnd p 0 else (s.ptCmdOn p 3).ptCmdEnd p 5 := by
  unfold State.ptCmdWrite
  rcases h with h | h
  · simp only [hgo, h]
    rfl
  · simp only [hgo, h]
    rfl

end

/-! Builds. -/

/-- A partition whose BUILD has passed its checks. -/
theorem State.ptState_setPtState (s : State) (p : Nat) {v : Nat} (hv : v < 8) : (s.setPtState p v).ptState p = v := State.fld_setFld_of_lt _ _ _ hv

theorem State.buildTry_tested {u : State} {p : Nat} (h : u.ptTested p = true) : u.buildTry p = u := by
  rw [State.buildTry, h, Bool.or_true, if_pos rfl]

theorem State.buildTry_built {u w : State} {p : Nat} (h1 : u.ptState p = 1) (ht : u.ptTested p = false) (hc : u.ptCheck p = none)
    (hw : u.rebuild p true false = (w, true)) : u.buildTry p = (w.setPtState p 2).ptCmdEnd p 0 := by
  rw [State.buildTry, h1, ht, hc, hw]
  rfl

theorem completes_buildEnd {s w : State} {c : Instr} {p : Nat} (hrun : exec c s = .next ((w.setPtState p 2).ptCmdEnd p 0)) : Completes c s fun t =>
    t.ptState p = 2 ∧ t.fld (P.pt p) F.PT_STS_result = 0 ∧ t.flag (P.pt p) F.PT_CMD_go = false ∧ t.pm p = w.pm p := by
  obtain ⟨hres, hgo, hst⟩ := (w.setPtState p 2).ptCmdEnd_spec p (r := 0) (by decide)
  exact ⟨_, hrun, hst.trans (w.ptState_setPtState p (by decide)), hres, hgo, ((w.setPtState p 2).ptCmdEnd_only p 0).pm p⟩

/-- A command that ends with result `r` at once changes nothing else. -/
theorem completes_ptCmdEnd {s : State} {c : Instr} {p op r : Nat} (hr : r < 8) (hrun : exec c s = .next ((s.ptCmdOn p op).ptCmdEnd p r)) :
    Completes c s fun t => t.fld (P.pt p) F.PT_STS_result = r ∧ t.flag (P.pt p) F.PT_CMD_go = false ∧ t.ptState p = s.ptState p ∧ t.rsts = s.rsts ∧
      t.pm p = s.pm p ∧ s.sameBytes t := by
  obtain ⟨hres, hgo, hst⟩ := (s.ptCmdOn p op).ptCmdEnd_spec p hr
  have honly := (s.ptCmdOn p op).ptCmdEnd_only p r
  have hon : (s.ptCmdOn p op).ptState p = s.ptState p := State.fld_ptCmdOn s p op _ rfl rfl
  obtain ⟨regs, hregs⟩ := s.ptCmdOn_only p op
  refine ⟨_, hrun, hres, hgo, hst.trans hon, ?_, ?_, ?_⟩
  · obtain ⟨_, _, _, _, _, h⟩ := honly
    rw [h, hregs]
  · obtain ⟨_, _, _, _, _, h⟩ := honly
    rw [h, hregs]
    rfl
  · refine State.sameBytes.trans ?_ honly.sameBytes
    rw [hregs]
    exact .refl s

/-! A dissolution. -/

theorem State.setBit_self (s : State) (pg : Nat) (f : Fld) {i : Nat} (hi : i < f.len) : bitOf ((s.setBit pg f i true).fld pg f) i = true := by
  unfold State.setBit
  dsimp only
  rw [if_pos rfl, State.fld_setFld_self, bitOf_eq_testBit, Nat.testBit_mod_two_pow, Nat.testBit_or, Nat.testBit_two_pow_self]
  simp [hi]

theorem State.pm_ptDrop (v : State) (p : Nat) : (v.ptDrop p).pm p = PartMem.none := by
  unfold State.ptDrop
  dsimp only
  generalize ((v.ptUngrant p 6).ptUnspare p).nearReset p = u
  simp only [State.setPaused, State.setBit, State.setPtState, State.pm_setFld, State.pm_setPm_self]

theorem completes_ptDrop {s v : State} {c : Instr} {p : Nat} (hp : p < 8) (hrun : exec c s = .next ((v.ptDrop p).ptCmdEnd p 0)) : Completes c s fun t =>
    t.ptState p = 0 ∧ t.fld (P.pt p) F.PT_STS_result = 0 ∧ t.flag (P.pt p) F.PT_CMD_go = false ∧ t.fld (P.hmp 2) (F.HMP_PT_BUDGET_budget p) = 0 ∧
      t.pm p = PartMem.none := by
  obtain ⟨hres, hgo, hst⟩ := (v.ptDrop p).ptCmdEnd_spec p (r := 0) (by decide)
  have hbudget : (F.HMP_PT_BUDGET_budget p).inside = true := (hmpPt_inside hp).2
  have hpt : P.hmp 2 ≠ P.pt p := by
    simp only [P.hmp, P.pt]
    omega
  refine ⟨_, hrun, hst.trans ?_, hres, hgo, ?_, ?_⟩
  · unfold State.ptDrop State.ptState State.setPaused State.setBit State.setPtState
    dsimp only
    rw [State.fld_setFld_apart _ _ _ _ rfl, State.fld_setFld_apart _ _ _ _ rfl, State.fld_setFld_self]
    rfl
  · unfold State.ptCmdEnd State.setFlag
    rw [State.fld_event_page (by rw [ne_comm]; exact hpt.symm) hbudget, State.fld_setFld_page _ _ _ _ hpt hbudget rfl, State.fld_setFld_page _ _ _ _ hpt hbudget rfl]
    unfold State.ptDrop State.setPaused State.setBit State.setPtState
    dsimp only
    rw [State.fld_setFld_page _ _ _ _ (by decide) hbudget rfl, State.fld_setFld_page _ _ _ _ hpt hbudget rfl, State.fld_setFld_page _ _ _ _ hpt hbudget rfl,
      State.fld_setFld_self]
    exact Nat.zero_mod _
  · exact (((v.ptDrop p).ptCmdEnd_only p 0).pm p).trans (v.pm_ptDrop p)

/-! A reset's quiesce. -/

theorem P.core_high (x : Nat) : 0x1000 ≤ P.core x := by
  simp only [P.core, P.corePg, P.clu]
  omega

/-- A core that halts keeps every page below the tiles', and the list of resets. -/
theorem State.cluHalt_keeps (s : State) (cl : Nat) : s.TileRegs (s.cluHalt cl) ∧ (s.cluHalt cl).rsts = s.rsts := by
  have hhalt : ∀ (u : State) (x : Nat), u.TileRegs (u.coreHalt x) ∧ (u.coreHalt x).rsts = u.rsts := fun u x => by
    unfold State.coreHalt
    split
    · exact ⟨(State.TileRegs.refl u).setFld (P.core_high x) _ _, rfl⟩
    · exact ⟨.refl u, rfl⟩
  exact State.each_keeps (fun u => s.TileRegs u ∧ u.rsts = s.rsts) s _ _
    (fun p _ u hu => ⟨hu.1.trans (hhalt u _).1, (hhalt u _).2.trans hu.2⟩) ⟨.refl s, rfl⟩

/-- A partition RESETTING, its dispatch paused. -/
def State.ptPaused (s : State) (p : Nat) : State := { (s.setPtState p 3).setPaused p true with ptPend := Tab.set nat0 s.ptPend p 0 }

theorem State.fld_ptPaused (s : State) (p q : Nat) {f : Fld} (h1 : f.apart F.PT_STS_state = true) (h2 : f.apart F.DISP_STS_paused = true) :
    (s.ptPaused p).fld q f = s.fld q f :=
  (State.fld_setFld_apart (s.setPtState p 3) q (P.disp 0) _ h2).trans (State.fld_setFld_apart s q (P.pt p) 3 h1)

theorem dispBind_inside {n : Nat} (hn : n < 128) : (F.DISP_TN_BIND_valid n).inside = true ∧ (F.DISP_TN_BIND_partition n).inside = true := by
  have h : 0x040 + 4 * n < 4096 := by omega
  simp [Fld.inside, F.DISP_TN_BIND_valid, F.DISP_TN_BIND_partition, h]

theorem State.tenantsOf_congr {s t : State} (h : ∀ n, n < 128 → t.fld (P.disp 1) (F.DISP_TN_BIND_valid n) = s.fld (P.disp 1) (F.DISP_TN_BIND_valid n) ∧
    t.fld (P.disp 1) (F.DISP_TN_BIND_partition n) = s.fld (P.disp 1) (F.DISP_TN_BIND_partition n)) (p : Nat) : t.tenantsOf p = s.tenantsOf p := by
  refine List.filter_congr fun n hn => ?_
  obtain ⟨hvalid, hpart⟩ := h n (List.mem_range.1 hn)
  rw [State.bound, State.flag_of_fld hvalid, State.tnPart, hpart]
  rfl

/-- What a partition with no tenant, no job and no companion program leaves at the start of its reset. -/
theorem State.ptQuiesce_idle {s : State} {p : Nat} (hp : p < 8) (scope : Nat) (htn : s.tenantsOf p = []) (hjobs : s.jobsWhere (fun j => j.part == p) = [])
    (hhpc : ∀ h, h < 16 → s.hpcGranted h = false) :
    s.ptQuiesce p scope = (s.ptPaused p).each ((s.ptPaused p).partClusters p) fun cl s => s.cluHalt cl := by
  have hgrants : ((List.range 16).filter fun h => (s.ptPaused p).hpcGranted h && (s.ptPaused p).fld (P.hpc h) F.HPC_GRANT_partition == p) = [] := by
    refine List.filter_eq_nil_iff.2 fun h hh => ?_
    have hkeep : (s.ptPaused p).hpcGranted h = s.hpcGranted h := State.flag_of_fld (State.fld_ptPaused s p _ rfl rfl)
    rw [hkeep, hhpc h (List.mem_range.1 hh)]
    exact Bool.false_ne_true
  have hpt : P.disp 1 ≠ P.pt p := by
    simp only [P.disp, P.pt]
    omega
  have htens : (s.ptPaused p).tenantsOf p = [] := by
    refine (State.tenantsOf_congr (fun n hn => ?_) p).trans htn
    obtain ⟨hv, hpart⟩ := dispBind_inside hn
    have hkeep : ∀ f : Fld, f.inside = true → (s.ptPaused p).fld (P.disp 1) f = s.fld (P.disp 1) f := fun f hf =>
      (State.fld_setFld_page (s.setPtState p 3) (P.disp 1) (P.disp 0) _ (by decide) hf rfl).trans (State.fld_setFld_page s (P.disp 1) (P.pt p) 3 hpt hf rfl)
    exact ⟨hkeep _ hv, hkeep _ hpart⟩
  have hj : (s.ptPaused p).jobsWhere (fun j => j.part == p) = [] := hjobs
  unfold State.ptQuiesce
  dsimp only
  rw [show ({ (s.setPtState p 3).setPaused p true with ptPend := Tab.set nat0 s.ptPend p 0 } : State) = s.ptPaused p from rfl, hgrants, State.each_nil, htens,
    State.each_nil, hj]
  rfl

theorem State.ptQuiesce_keeps {s : State} {p : Nat} (hp : p < 8) (l : List Nat) : ∀ t, t = (s.ptPaused p).each l (fun cl s => s.cluHalt cl) →
    t.ptState p = 3 ∧ bitOf (t.fld (P.disp 0) F.DISP_STS_paused) p = true ∧ t.flag (P.pt p) F.PT_CMD_go = s.flag (P.pt p) F.PT_CMD_go ∧ t.rsts = s.rsts := by
  intro t ht
  have hkeep : (s.ptPaused p).TileRegs t ∧ t.rsts = s.rsts := by
    rw [ht]
    exact State.each_keeps (fun u => (s.ptPaused p).TileRegs u ∧ u.rsts = s.rsts) _ l _
      (fun cl _ u hu => ⟨hu.1.trans (u.cluHalt_keeps cl).1, (u.cluHalt_keeps cl).2.trans hu.2⟩) ⟨.refl _, rfl⟩
  obtain ⟨hregs, hrsts⟩ := hkeep
  have hpt : P.pt p < 0x1000 := by
    simp only [P.pt]
    omega
  refine ⟨?_, ?_, ?_, hrsts⟩
  · refine (hregs _ _ hpt rfl).trans ?_
    exact (State.fld_setFld_apart (s.setPtState p 3) (P.pt p) (P.disp 0) _ rfl).trans (State.fld_setFld_of_lt s (P.pt p) (f := F.PT_STS_state) 3 (by decide))
  · rw [hregs _ _ (by decide) rfl]
    exact State.setBit_self (s.setPtState p 3) (P.disp 0) F.DISP_STS_paused hp
  · exact State.flag_of_fld ((hregs _ _ hpt rfl).trans (State.fld_ptPaused s p _ rfl rfl))

/-- What lets a partition's reset start on its own. -/
theorem State.rstCovers_pt_congr {s t : State} {p : Nat} (h : ∀ cl, t.inMask p cl = s.inMask p cl) (a : Rst) {b : Rst} (hb : b.scope = 3) (hbt : b.target = p) :
    t.rstCovers a b = s.rstCovers a b := by
  simp only [State.rstCovers, hb, hbt, State.ptOnTile, h]

theorem completes_partitionReset {s : State} {c : Instr} {p : Nat} (hp : p < 8) (hrun : exec c s = .next ((s.ptCmdOn p 2).rstStart 3 p))
    (hfree : ∀ a ∈ s.rsts, s.rstCovers a ⟨3, p, s.now, false, false, false, 0, false⟩ = false) (htn : s.tenantsOf p = [])
    (hjobs : s.jobsWhere (fun j => j.part == p) = []) (hhpc : ∀ h, h < 16 → s.hpcGranted h = false) : Completes c s fun t =>
      t.ptState p = 3 ∧ t.flag (P.pt p) F.PT_CMD_go = true ∧ bitOf (t.fld (P.disp 0) F.DISP_STS_paused) p = true ∧
        ⟨3, p, s.now, false, false, false, 0, false⟩ ∈ t.rsts := by
  obtain ⟨regs, hregs⟩ := s.ptCmdOn_only p 2
  have hnow : (s.ptCmdOn p 2).now = s.now := by rw [hregs]
  have hrsts : (s.ptCmdOn p 2).rsts = s.rsts := by rw [hregs]
  have hmask : ∀ cl, (s.ptCmdOn p 2).inMask p cl = s.inMask p cl := fun cl =>
    State.inMask_congr (State.fld_ptCmdOn s p 2 _ rfl rfl) (State.fld_ptCmdOn s p 2 _ rfl rfl) cl
  have hpt : P.disp 1 ≠ P.pt p := by
    simp only [P.disp, P.pt]
    omega
  have htn' : (s.ptCmdOn p 2).tenantsOf p = [] := by
    refine (State.tenantsOf_congr (fun n hn => ?_) p).trans htn
    obtain ⟨hv, hpart⟩ := dispBind_inside hn
    have hkeep : ∀ f : Fld, f.inside = true → (s.ptCmdOn p 2).fld (P.disp 1) f = s.fld (P.disp 1) f := fun f hf =>
      (State.fld_setFld_page (s.setFld (P.pt p) F.PT_CMD_op 2) (P.disp 1) (P.pt p) _ hpt hf rfl).trans
        (State.fld_setFld_page s (P.disp 1) (P.pt p) 2 hpt hf rfl)
    exact ⟨hkeep _ hv, hkeep _ hpart⟩
  have hgo : (s.ptCmdOn p 2).flag (P.pt p) F.PT_CMD_go = true := State.flag_setFlag_self (s.setFld (P.pt p) F.PT_CMD_op 2) _ (f := F.PT_CMD_go) (by decide) _
  have hjobs' : (s.ptCmdOn p 2).jobsWhere (fun j => j.part == p) = [] := by
    rw [hregs]
    exact hjobs
  have hhpc' : ∀ h, h < 16 → (s.ptCmdOn p 2).hpcGranted h = false := fun h hh =>
    (State.flag_of_fld (State.fld_ptCmdOn s p 2 _ rfl rfl)).trans (hhpc h hh)
  have hfree' : ((s.ptCmdOn p 2).rsts.any fun a => (s.ptCmdOn p 2).rstCovers a ⟨3, p, s.now, false, false, false, 0, false⟩) = false := by
    refine List.any_eq_false.2 fun a ha => ?_
    rw [State.rstCovers_pt_congr hmask a rfl rfl, hfree a (hrsts ▸ ha)]
    decide
  generalize s.ptCmdOn p 2 = u at hrun hnow htn' hgo hjobs' hhpc' hfree'
  obtain ⟨rs, hstart⟩ : ∃ rs : List Rst, u.rstStart 3 p =
      ({ u with rsts := rs ++ [⟨3, p, s.now, false, false, false, 0, false⟩] } : State).ptQuiesce p 3 := by
    unfold State.rstStart
    dsimp only
    rw [hnow, hfree']
    exact ⟨_, rfl⟩
  have hquiet : ({ u with rsts := rs ++ [⟨3, p, s.now, false, false, false, 0, false⟩] } : State).ptQuiesce p 3 = _ :=
    State.ptQuiesce_idle hp 3 htn' hjobs' hhpc'
  obtain ⟨hst, hpause, hflag, hlist⟩ := State.ptQuiesce_keeps hp _ _ (hstart.trans hquiet)
  refine ⟨_, hrun, hst, hflag.trans hgo, hpause, ?_⟩
  rw [hlist]
  exact List.mem_append_right _ (List.mem_singleton_self _)

/-! The obligation. -/

/-- Settles O35: a PT_CMD command is taken when none is in progress; each operation is one case of the partition's state, and its end leaves the result. -/
theorem partitionResults : Obligations.PartitionResults := by
  unfold Obligations.PartitionResults
  intro s rq p hg
  obtain ⟨hbuild, hreset, hdissolve⟩ := exec_ptCmds hg
  refine ⟨fun hbusy c hc => ?busy, fun hgo => ⟨fun hst => ?notEmpty, fun hst r hr => ?refused, fun hst hok u hu => ⟨fun htest => ?tested, fun w htest hck hw => ?built⟩,
    fun hsh => ?shutdown, fun hsh hst hfree htn hjobs hhpc => ?reset, fun hsh hst => ?notRunning, fun hst => ⟨fun hmay => ?dissolved, fun hmay => ?kept⟩⟩⟩
  case busy =>
    rcases hc with rfl | rfl | rfl
    · rw [hbuild, State.ptCmdWrite_busy hbusy]
    · rw [hreset, State.ptCmdWrite_busy hbusy]
    · rw [hdissolve, State.ptCmdWrite_busy hbusy]
  case notEmpty =>
    rw [State.ptCmdWrite_build_not hgo hst] at hbuild
    obtain ⟨t, hrun, hres, hflag, hkeep, -, -, hbytes⟩ := completes_ptCmdEnd (by decide) hbuild
    exact ⟨t, hrun, hres, hflag, hkeep, hbytes⟩
  case refused =>
    rw [State.ptCmdWrite_build hgo hst, State.buildStart, State.ptCheck_ptCmdOn, hr] at hbuild
    obtain ⟨t, hrun, hres, hflag, hkeep, -, -, hbytes⟩ := completes_ptCmdEnd (State.ptCheck_le hr) hbuild
    exact ⟨t, hrun, hres, hflag, hkeep.trans hst, hbytes⟩
  case tested =>
    rw [State.ptCmdWrite_build hgo hst, State.buildStart, State.ptCheck_ptCmdOn, hok] at hbuild
    subst hu
    exact hbuild.trans (congrArg _ (State.buildTry_tested htest))
  case built =>
    rw [State.ptCmdWrite_build hgo hst, State.buildStart, State.ptCheck_ptCmdOn, hok] at hbuild
    subst hu
    exact completes_buildEnd (hbuild.trans (congrArg _ (State.buildTry_built (State.ptState_setPtState (s.ptCmdOn p 1) p (by decide)) htest hck hw)))
  case shutdown => rw [hreset, State.ptCmdWrite_reset_shutdown hgo hsh]
  case reset =>
    rw [State.ptCmdWrite_reset hgo hsh hst] at hreset
    exact completes_partitionReset p.isLt hreset hfree htn hjobs hhpc
  case notRunning =>
    rw [State.ptCmdWrite_reset_not hgo hsh hst] at hreset
    obtain ⟨t, hrun, hres, hflag, hkeep, hrsts, -, -⟩ := completes_ptCmdEnd (by decide) hreset
    exact ⟨t, hrun, hres, hflag, hkeep, hrsts⟩
  case dissolved =>
    rw [State.ptCmdWrite_dissolve hgo hst, if_pos hmay] at hdissolve
    exact completes_ptDrop p.isLt hdissolve
  case kept =>
    rw [State.ptCmdWrite_dissolve hgo hst, if_neg (by rw [hmay]; decide)] at hdissolve
    obtain ⟨t, hrun, hres, hflag, hkeep, -, hpm, hbytes⟩ := completes_ptCmdEnd (by decide) hdissolve
    exact ⟨t, hrun, hkeep, hres, hflag, hpm, hbytes⟩

end Sys2Proof.Machine
end

section
/-! HUB_RST_CMD and the phases of a core reset (14 R337-R341, R346; 16 R384). -/
namespace Sys2Proof.Machine

/-! What a quiesce leaves of HUB_RST_CMD, of the list of resets and of the memories. -/

/-- The page of HUB_RST_CMD, the list of resets and the memories are the same. -/
structure State.RstKept (s t : State) : Prop where
  hub : ∀ f : Fld, f.inside = true → t.fld (P.hub 2) f = s.fld (P.hub 2) f
  rsts : t.rsts = s.rsts
  mems : t.hmp = s.hmp ∧ t.stores = s.stores ∧ t.slices = s.slices

section
variable {s t u : State}

theorem State.RstKept.refl (s : State) : s.RstKept s := ⟨fun _ _ => rfl, rfl, rfl, rfl, rfl⟩

theorem State.RstKept.trans (h1 : s.RstKept t) (h2 : t.RstKept u) : s.RstKept u := by
  obtain ⟨hub1, rsts1, hmp1, sto1, sl1⟩ := h1
  obtain ⟨hub2, rsts2, hmp2, sto2, sl2⟩ := h2
  exact ⟨fun f hf => (hub2 f hf).trans (hub1 f hf), rsts2.trans rsts1, hmp2.trans hmp1, sto2.trans sto1, sl2.trans sl1⟩

theorem State.RstKept.setFld (s : State) {q : Nat} (hq : 2 < q) (g : Fld) (v : Nat) : s.RstKept (s.setFld q g v) := by
  refine ⟨fun f hf => State.fld_setFld_ne _ _ _ _ _ _ ?_, rfl, rfl, rfl, rfl⟩
  simp only [Fld.inside, Bool.and_eq_true, decide_eq_true_eq] at hf
  unfold fkey P.hub
  omega

theorem State.RstKept.setLend (s : State) (k : Nat) (v : LinkEnd) : s.RstKept (s.setLend k v) := ⟨fun _ _ => rfl, rfl, rfl, rfl, rfl⟩

theorem State.RstKept.event (s : State) {q : Nat} (hq : 2 < q) (bit : Nat) : s.RstKept (s.event q bit) :=
  ⟨fun f hf => State.fld_event_page (by unfold P.hub; omega) hf s bit, State.event_rsts s q bit, by simp⟩

theorem State.RstKept.each {α : Type} {l : List α} {g : α → State → State} (h : ∀ a ∈ l, ∀ u : State, u.RstKept (g a u)) : s.RstKept (s.each l g) :=
  State.each_keeps (fun u => s.RstKept u) s l g (fun a ha u hu => hu.trans (h a ha u)) (.refl s)

theorem State.RstKept.ite {c : Prop} [Decidable c] (h1 : s.RstKept t) (h2 : s.RstKept u) : s.RstKept (if c then t else u) := by
  split
  · exact h1
  · exact h2

end

theorem State.coreHalt_rstKept (s : State) (x : Nat) : s.RstKept (s.coreHalt x) :=
  (State.RstKept.setFld s (Nat.lt_of_lt_of_le (by decide) (P.core_high x)) _ _).ite (.refl s)

theorem State.cluHalt_rstKept (s : State) (cl : Nat) : s.RstKept (s.cluHalt cl) := .each fun _ _ u => u.coreHalt_rstKept _

/-! The links of a tile that drain. -/

theorem endPg_gt (k : Nat) : 2 < endPg k := by
  unfold endPg P.lnk P.serTile P.serHub
  split
  · omega
  · split <;> omega

theorem State.RstKept.eset (s : State) (k : Nat) (l r : Fld) (v : Nat) : s.RstKept (s.eset k l r v) := .setFld s (endPg_gt k) _ v

theorem State.RstKept.setReplay (s : State) (k : Nat) (l : List TxFlit) (n : Nat) : s.RstKept (s.setReplay k l n) :=
  (State.RstKept.setLend s k _).trans ((State.RstKept.refl _).ite (.setFld _ (endPg_gt k) _ _))

theorem State.endClear_rstKept (s : State) (k : Nat) : s.RstKept (s.endClear k) :=
  (((State.RstKept.setReplay s k [] 0).trans (.setLend _ k _)).trans (.eset _ k _ _ _)).trans (.eset _ k _ _ _)

theorem State.linkSet_rstKept (s : State) (k v : Nat) : s.RstKept (s.linkSet k v) := by
  refine .each fun e _ u => ?_
  have hset := State.RstKept.eset u e F.LNK_STS_state F.SER_STS_state v
  have hclear := (hset.trans (State.endClear_rstKept _ e)).trans (State.RstKept.eset _ e F.LNK_CTL_retrain F.SER_CTL_retrain (b2n false))
  exact (hclear.ite (hclear.trans (.event _ (endPg_gt e) 3))).ite hset

theorem State.drainForReset_rstKept (s : State) (k : Nat) : s.RstKept (s.drainForReset k) := by
  unfold State.drainForReset
  dsimp only
  have hdrain := State.RstKept.each (s := s) (l := k :: (farEnd k).toList)
    (g := fun e s => (s.setRetrain e false).setLend e { s.lend e with drainRetrain := false }) fun e _ u =>
      (State.RstKept.eset u e F.LNK_CTL_retrain F.SER_CTL_retrain (b2n false)).trans (.setLend _ _ _)
  split
  · exact hdrain.trans (State.linkSet_rstKept _ _ _)
  · exact hdrain
  · exact hdrain.trans (State.linkSet_rstKept _ _ _)
  · exact hdrain.trans (State.linkSet_rstKept _ _ _)
  · exact .refl s

/-! The command. -/

/-- HUB_RST_CMD holds a reset and is busy. -/
def State.hubRstOn (s : State) (scope target : Nat) : State :=
  ({ (s.setFld (P.hub 2) F.HUB_RST_CMD_scope scope).setFld (P.hub 2) F.HUB_RST_CMD_target target with hubRst := (scope, target) }.setFlag
    (P.hub 2) F.HUB_RST_CMD_go true).setFlag (P.hub 2) F.HUB_RST_STS_busy true

theorem State.hubRstOn_eq (s : State) (scope target : Nat) : ∃ r, s.hubRstOn scope target = { s with regs := r, hubRst := (scope, target) } := ⟨_, rfl⟩

theorem State.fld_hubRstOn (s : State) (scope target : Nat) {pg : Nat} (hpg : pg ≠ P.hub 2) {f : Fld} (hf : f.inside = true) :
    (s.hubRstOn scope target).fld pg f = s.fld pg f := by
  unfold State.hubRstOn State.setFlag
  rw [State.fld_setFld_page _ _ _ _ hpg hf rfl, State.fld_setFld_page _ _ _ _ hpg hf rfl]
  exact (State.fld_setFld_page (s.setFld (P.hub 2) F.HUB_RST_CMD_scope scope) pg _ target hpg hf rfl).trans (State.fld_setFld_page s pg _ scope hpg hf rfl)

/-- The fields of a command that is taken. -/
theorem State.hubRstOn_spec (s : State) {scope target : Nat} (hscope : scope < 8) (htarget : target < 512) :
    (s.hubRstOn scope target).fld (P.hub 2) F.HUB_RST_CMD_scope = scope ∧ (s.hubRstOn scope target).fld (P.hub 2) F.HUB_RST_CMD_target = target ∧
    (s.hubRstOn scope target).flag (P.hub 2) F.HUB_RST_CMD_go = true ∧ (s.hubRstOn scope target).flag (P.hub 2) F.HUB_RST_STS_busy = true := by
  refine ⟨?_, ?_, ?_, ?_⟩
  · unfold State.hubRstOn
    rw [State.fld_setFlag_apart _ _ _ rfl, State.fld_setFlag_apart _ _ _ rfl]
    exact (State.fld_setFld_apart (s.setFld (P.hub 2) F.HUB_RST_CMD_scope scope) _ _ _ rfl).trans (State.fld_setFld_of_lt s _ scope hscope)
  · unfold State.hubRstOn
    rw [State.fld_setFlag_apart _ _ _ rfl, State.fld_setFlag_apart _ _ _ rfl]
    exact State.fld_setFld_of_lt (s.setFld (P.hub 2) F.HUB_RST_CMD_scope scope) _ (f := F.HUB_RST_CMD_target) target htarget
  · unfold State.hubRstOn
    rw [State.flag_setFlag_apart _ _ _ rfl, State.flag_setFlag_self _ _ (by decide)]
  · unfold State.hubRstOn
    rw [State.flag_setFlag_self _ _ (by decide)]

section
variable {s : State} {rq : Requester} {target : Fin 512} (hg : s.grants rq (P.hub 2) = true)
include hg

theorem exec_resets : exec (.coreReset rq target) s = .next (s.hubRstWrite rq 1 target true) ∧ exec (.clusterReset rq target) s = .next (s.hubRstWrite rq 2 target true) ∧
    exec (.tileReset rq target) s = .next (s.hubRstWrite rq 4 target true) :=
  ⟨congrArg Host.Outcome.next (State.privWrite_of_grants hg _ _), congrArg Host.Outcome.next (State.privWrite_of_grants hg _ _),
    congrArg Host.Outcome.next (State.privWrite_of_grants hg _ _)⟩

end

section
variable {s : State} {rq : Requester} {scope target : Nat}

theorem State.hubRstWrite_shutdown (h : s.inShutdown = true) : s.hubRstWrite rq scope target true = s := by
  unfold State.hubRstWrite
  rw [h]
  rfl

variable (hs : s.inShutdown = false)
include hs

theorem State.hubRstWrite_busy (hgo : s.flag (P.hub 2) F.HUB_RST_CMD_go = true) :
    s.hubRstWrite rq scope target true = s.countErr (P.hub 2) 0x40 (rqCode rq) (accessAddr rq (P.hub 2) 0x040) := by
  unfold State.hubRstWrite
  dsimp only
  rw [hs, hgo]
  rfl

variable (hgo : s.flag (P.hub 2) F.HUB_RST_CMD_go = false)
include hgo

/-- A reset whose target its scope accepts starts; another is refused. -/
theorem State.hubRstWrite_idle : s.hubRstWrite rq scope target true =
    if s.rstTargetOk scope target then (s.hubRstOn scope target).rstStart scope target
    else ((s.setFld (P.hub 2) F.HUB_RST_CMD_scope scope).setFld (P.hub 2) F.HUB_RST_CMD_target target).setFld (P.hub 2) F.HUB_RST_STS_result 1 := by
  unfold State.hubRstWrite
  dsimp only
  rw [hs, hgo]
  rfl

end

/-! The start of a reset. -/

theorem State.ptKept_hubRstOn (s : State) (scope target p : Nat) {f : Fld} (hf : f.inside = true) :
    (s.hubRstOn scope target).fld (P.pt p) f = s.fld (P.pt p) f := by
  refine s.fld_hubRstOn scope target ?_ hf
  unfold P.pt P.hub
  omega

theorem State.inMask_hubRstOn (s : State) (scope target p cl : Nat) : (s.hubRstOn scope target).inMask p cl = s.inMask p cl :=
  State.inMask_congr (s.ptKept_hubRstOn _ _ _ (by decide)) (s.ptKept_hubRstOn _ _ _ (by decide)) cl

theorem State.ptState_hubRstOn (s : State) (scope target p : Nat) : (s.hubRstOn scope target).ptState p = s.ptState p := s.ptKept_hubRstOn _ _ _ (by decide)

theorem State.ptsOnTile_hubRstOn (s : State) (scope target t : Nat) : (s.hubRstOn scope target).ptsOnTile t = s.ptsOnTile t := by
  unfold State.ptsOnTile State.ptOnTile
  simp only [State.ptState_hubRstOn, State.inMask_hubRstOn]

theorem State.rstCovers_hubRstOn (s : State) (scope target : Nat) (a : Rst) {b : Rst} (hb : b.scope = 1 ∨ b.scope = 2 ∨ b.scope = 4) :
    (s.hubRstOn scope target).rstCovers a b = s.rstCovers a b := by
  have hclu : ∀ cl, a.coversClu (s.hubRstOn scope target) cl = a.coversClu s cl := fun cl => by
    unfold Rst.coversClu State.cluPart
    simp only [State.ptState_hubRstOn, State.inMask_hubRstOn]
  unfold State.rstCovers
  rcases hb with hb | hb | hb <;> simp only [hb, hclu]

section
variable {s : State} {scope target : Nat} {r : Rst} (hr : r = ⟨scope, target, s.now, false, false, false, 0, false⟩)
include hr

/-- A reset that no other covers enters the list and quiesces its domain. -/
theorem State.rstStart_alone (hb : scope = 1 ∨ scope = 2 ∨ scope = 4) (hfree : ∀ a ∈ s.rsts, s.rstCovers a r = false) :
    ∃ rs : List Rst, (s.hubRstOn scope target).rstStart scope target = { s.hubRstOn scope target with rsts := rs ++ [r] }.rstQuiesce r := by
  subst hr
  have hany : ((s.hubRstOn scope target).rsts.any fun a => (s.hubRstOn scope target).rstCovers a ⟨scope, target, s.now, false, false, false, 0, false⟩) = false := by
    refine List.any_eq_false.2 fun a ha => ?_
    rw [State.rstCovers_hubRstOn s scope target a hb, hfree a ha]
    decide
  have hnow : (s.hubRstOn scope target).now = s.now := rfl
  unfold State.rstStart
  dsimp only
  rw [hnow, hany]
  exact ⟨_, rfl⟩

theorem rstAccepted_of_kept (hscope : scope < 8) (htarget : target < 512) {rs : List Rst} {t : State}
    (h : ({ s.hubRstOn scope target with rsts := rs ++ [r] } : State).RstKept t) : RstAccepted s t r := by
  obtain ⟨hub, hrsts, hhmp, hsto, hsl⟩ := h
  obtain ⟨h1, h2, h3, h4⟩ := s.hubRstOn_spec hscope htarget
  subst hr
  refine ⟨(hub _ (by decide)).trans h1, (hub _ (by decide)).trans h2, (State.flag_of_fld (hub _ (by decide))).trans h3,
    (State.flag_of_fld (hub _ (by decide))).trans h4, ?_, State.sameBytes_of_eq hhmp hsto hsl⟩
  rw [hrsts]
  exact List.mem_append_right _ (List.mem_singleton_self _)

end

/-! The resets of a core, a cluster and a tile. -/

theorem cluPhys_inside (g : Nat) : (F.CLU_MAP_phys (g % 7)).inside = true := by
  have h : g % 7 < 7 := Nat.mod_lt _ (by decide)
  simp [Fld.inside, F.CLU_MAP_phys]
  omega

theorem State.coreSt_hubRstOn (s : State) (scope target x : Nat) : (s.hubRstOn scope target).coreSt x = s.coreSt x :=
  s.fld_hubRstOn scope target (Nat.ne_of_gt (Nat.lt_of_lt_of_le (by decide) (P.core_high x))) (by decide)

/-- Core x is off, or in a state from which a halt takes it there. -/
def State.haltable (s : State) (x : Nat) : Prop := s.coreSt x = 0 ∨ s.coreSt x = 1 ∨ s.coreSt x = 2 ∨ s.coreSt x = 3

theorem State.coreHalt_self {s : State} {x : Nat} (h : s.haltable x) : (s.coreHalt x).coreSt x = 0 := by
  unfold State.coreHalt
  split
  · exact State.fld_setFld_of_lt _ _ _ (by decide)
  · next hne => exact h.resolve_right hne

theorem State.coreHalt_other (s : State) {x y : Nat} (h : y ≠ x) : (s.coreHalt x).coreSt y = s.coreSt y := by
  have hpg : P.core y ≠ P.core x := fun he => h (P.corePg_inj (by decide) (by decide) he).1
  unfold State.coreHalt
  split
  · exact State.fld_setFld_page _ _ _ _ hpg rfl rfl
  · rfl

/-- Halting some cores takes each of them off. -/
theorem State.each_coreHalt {f : Nat → Nat} {p : Nat} (l : List Nat) (hp : p ∈ l) {s : State} (h : s.haltable (f p)) :
    (s.each l fun q s => s.coreHalt (f q)).coreSt (f p) = 0 := by
  induction l generalizing s with
  | nil => cases hp
  | cons q l ih =>
    rw [State.each_cons]
    by_cases hq : f p = f q
    · have hoff : (s.coreHalt (f q)).coreSt (f p) = 0 := by
        rw [hq] at h ⊢
        exact State.coreHalt_self h
      refine State.each_keeps (fun u => u.coreSt (f p) = 0) _ l _ (fun r _ u hu => ?_) hoff
      by_cases hr : f p = f r
      · rw [hr] at hu ⊢
        exact State.coreHalt_self (.inl hu)
      · exact (u.coreHalt_other hr).trans hu
    · have hmem : p ∈ l := (List.mem_cons.1 hp).resolve_left fun he => hq (congrArg f he)
      refine ih hmem ?_
      unfold State.haltable
      rw [State.coreHalt_other _ hq]
      exact h

theorem State.cluHalt_member {s : State} {y cl : Nat} (hcl : y / 8 = cl) (h : s.haltable y) : (s.cluHalt cl).coreSt y = 0 := by
  have hy : y = 8 * cl + y % 8 := by rw [← hcl, Nat.div_add_mod]
  rw [hy] at h ⊢
  exact State.each_coreHalt (f := fun p => 8 * cl + p) (List.range 8) (List.mem_range.2 (Nat.mod_lt _ (by decide))) h

section
variable {s : State} {c : Instr} {target : Nat} {r : Rst} (htarget : target < 512)
include htarget

theorem completes_coreReset {x : Nat} (hr : r = ⟨1, target, s.now, false, false, false, 0, false⟩) (hrun : exec c s = .next ((s.hubRstOn 1 target).rstStart 1 target))
    (hx : x = s.physOf target) (hfree : ∀ a ∈ s.rsts, s.rstCovers a r = false) (hjobs : s.jobsWhere (fun j => j.ranks.contains x) = []) :
    Completes c s fun t => RstAccepted s t r ∧ (s.coreSt x = 1 ∨ s.coreSt x = 2 ∨ s.coreSt x = 3 → t.coreSt x = 0) := by
  obtain ⟨rs, hstart⟩ := State.rstStart_alone hr (.inl rfl) hfree
  have hphys : ({ s.hubRstOn 1 target with rsts := rs ++ [r] } : State).physOf target = x := by
    rw [hx]
    exact congrArg (8 * (target / 7) + ·) (s.fld_hubRstOn 1 target (Nat.ne_of_gt (Nat.lt_of_lt_of_le (by decide) (P.clu_high _))) (cluPhys_inside _))
  have hquiet : ({ s.hubRstOn 1 target with rsts := rs ++ [r] } : State).rstQuiesce r = ({ s.hubRstOn 1 target with rsts := rs ++ [r] } : State).coreHalt x := by
    have hscope : r.scope = 1 := by rw [hr]
    have htgt : r.target = target := by rw [hr]
    have hnone : ({ s.hubRstOn 1 target with rsts := rs ++ [r] } : State).jobsWhere (fun j => j.ranks.contains x) = [] := hjobs
    unfold State.rstQuiesce
    rw [hscope]
    dsimp only
    rw [htgt, hphys, hnone]
    rfl
  have hsame : ({ s.hubRstOn 1 target with rsts := rs ++ [r] } : State).coreSt x = s.coreSt x := s.coreSt_hubRstOn 1 target x
  refine ⟨_, hrun.trans (congrArg _ (hstart.trans hquiet)), rstAccepted_of_kept hr (by decide) htarget (State.coreHalt_rstKept _ x), fun h => ?_⟩
  exact State.coreHalt_self (.inr (by rw [hsame]; exact h))

theorem completes_clusterReset (hr : r = ⟨2, target, s.now, false, false, false, 0, false⟩) (hrun : exec c s = .next ((s.hubRstOn 2 target).rstStart 2 target))
    (hfree : ∀ a ∈ s.rsts, s.rstCovers a r = false) (hjobs : s.jobsWhere (fun j => j.ranks.any (· / 8 == target)) = []) :
    Completes c s fun t => RstAccepted s t r ∧ ∀ y, y / 8 = target → (s.coreSt y = 1 ∨ s.coreSt y = 2 ∨ s.coreSt y = 3) → t.coreSt y = 0 := by
  obtain ⟨rs, hstart⟩ := State.rstStart_alone hr (.inr (.inl rfl)) hfree
  have hquiet : ({ s.hubRstOn 2 target with rsts := rs ++ [r] } : State).rstQuiesce r = ({ s.hubRstOn 2 target with rsts := rs ++ [r] } : State).cluHalt target := by
    have hscope : r.scope = 2 := by rw [hr]
    have htgt : r.target = target := by rw [hr]
    have hnone : ({ s.hubRstOn 2 target with rsts := rs ++ [r] } : State).jobsWhere (fun j => j.ranks.any (· / 8 == target)) = [] := hjobs
    unfold State.rstQuiesce
    rw [hscope]
    dsimp only
    rw [htgt, hnone]
    rfl
  refine ⟨_, hrun.trans (congrArg _ (hstart.trans hquiet)), rstAccepted_of_kept hr (by decide) htarget (State.cluHalt_rstKept _ _), fun y hy h => ?_⟩
  have hsame : ({ s.hubRstOn 2 target with rsts := rs ++ [r] } : State).coreSt y = s.coreSt y := s.coreSt_hubRstOn 2 target y
  exact State.cluHalt_member hy (.inr (by rw [hsame]; exact h))

theorem completes_tileReset (hr : r = ⟨4, target, s.now, false, false, false, 0, false⟩) (hrun : exec c s = .next ((s.hubRstOn 4 target).rstStart 4 target))
    (hfree : ∀ a ∈ s.rsts, s.rstCovers a r = false) (hpts : s.ptsOnTile target = []) : Completes c s fun t => RstAccepted s t r := by
  obtain ⟨rs, hstart⟩ := State.rstStart_alone hr (.inr (.inr rfl)) hfree
  have hquiet : ({ s.hubRstOn 4 target with rsts := rs ++ [r] } : State).RstKept (({ s.hubRstOn 4 target with rsts := rs ++ [r] } : State).rstQuiesce r) := by
    have hscope : r.scope = 4 := by rw [hr]
    have htgt : r.target = target := by rw [hr]
    have hnone : ({ s.hubRstOn 4 target with rsts := rs ++ [r] } : State).ptsOnTile target = [] := (s.ptsOnTile_hubRstOn 4 target target).trans hpts
    unfold State.rstQuiesce
    rw [hscope]
    dsimp only
    rw [htgt, hnone]
    have hsubs : ({ s.hubRstOn 4 target with rsts := rs ++ [r] } : State).RstKept { s.hubRstOn 4 target with rsts := (rs ++ [r]) ++ [] } :=
      ⟨fun _ _ => rfl, List.append_nil _, rfl, rfl, rfl⟩
    exact (hsubs.trans (.each fun c _ u => u.cluHalt_rstKept _)).trans (.each fun k _ u => u.drainForReset_rstKept k)
  exact ⟨_, hrun.trans (congrArg _ hstart), rstAccepted_of_kept hr (by decide) htarget hquiet⟩

end

/-! The absorb point of a core. -/

/-- The list of resets and the stores are the same. -/
def State.StoresKept (s t : State) : Prop := t.rsts = s.rsts ∧ t.stores = s.stores

section
variable {s t u : State}

theorem State.StoresKept.refl (s : State) : s.StoresKept s := ⟨rfl, rfl⟩

theorem State.StoresKept.trans (h1 : s.StoresKept t) (h2 : t.StoresKept u) : s.StoresKept u := ⟨h2.1.trans h1.1, h2.2.trans h1.2⟩

theorem State.StoresKept.each {α : Type} {l : List α} {g : α → State → State} (h : ∀ a ∈ l, ∀ u : State, u.StoresKept (g a u)) : s.StoresKept (s.each l g) :=
  State.each_keeps (fun u => s.StoresKept u) s l g (fun a ha u hu => hu.trans (h a ha u)) (.refl s)

theorem State.QueueOnly.storesKept (h : s.QueueOnly t) : s.StoresKept t := by
  obtain ⟨_, _, _, _, _, _, rfl⟩ := h
  exact .refl s

theorem State.StoresKept.ite {c : Prop} [Decidable c] (h1 : s.StoresKept t) (h2 : s.StoresKept u) : s.StoresKept (if c then t else u) := by
  split
  · exact h1
  · exact h2

end

theorem State.cancelNote_storesKept (s : State) (n q num : Nat) : s.StoresKept (s.cancelNote n q num) := by
  have hend : ∀ u : State, u.StoresKept (u.cancelEnd n) := fun u => by
    unfold State.cancelEnd
    split
    · exact State.StoresKept.ite ⟨by simp, by simp⟩ (.refl u)
    · exact .refl u
  unfold State.cancelNote
  split
  · exact (State.StoresKept.trans ⟨rfl, rfl⟩ (hend _)).ite (.refl s)
  · exact .refl s

theorem State.cqWrite_storesKept (s : State) (n q : Nat) (e : CqEntry) (irq : Bool) : s.StoresKept (s.cqWrite n q e irq) := by
  have herr : s.StoresKept (s.cqError n q) :=
    State.StoresKept.trans (t := (s.setFld (P.queue n q) F.Q_STS_state 3).dropWaiting n q) ⟨rfl, rfl⟩
      ((State.tenErr_only _ _ _ _ _ _).trans (.event _ _ _)).queueOnly.storesKept
  exact State.StoresKept.ite ⟨rfl, rfl⟩ ((State.cqPut_only s n q e irq).storesKept.ite herr)

theorem State.complete_storesKept (s : State) (n q : Nat) (d : Desc) (r : Done) : s.StoresKept (s.complete n q d r) := by
  unfold State.complete
  dsimp only
  refine State.StoresKept.trans ?_ (State.cancelNote_storesKept _ _ _ _)
  have hset : ∀ v, s.StoresKept (s.setQueue n q v) := fun v => ⟨rfl, rfl⟩
  split
  · exact (hset _).trans (State.cqWrite_storesKept _ _ _ _ _)
  · exact hset _

theorem State.loadCheck_storesKept (s : State) (k : Nat) (desc : Option (Nat × Nat × Nat)) : s.StoresKept (s.loadCheck k desc) := by
  unfold State.loadCheck
  split
  · exact .refl s
  · refine (State.StoresKept.refl s).ite ?_
    split
    · exact State.complete_storesKept _ _ _ _ _
    · exact .refl s

theorem State.rd_clearStores (s : State) (x : Nat) {o : Nat} (ho : o < 0x100000) : (s.clearStores x).stores.rd (stoKey x o) = 0 := by
  have hin : stoKey x 0 ≤ stoKey x o ∧ stoKey x o < stoKey x 0 + 0x100000 := by
    simp only [stoKey]
    omega
  exact (Mem.rd_clear s.stores (stoKey x 0) 0x100000 _).trans (if_pos hin)

/-- Core x is reset and off. -/
def State.coreOff (s : State) (x : Nat) : State :=
  (((((s.setCore x Core.reset).setFld (P.core x) F.CORE_STS_state 0).setFld (P.core x) F.CORE_STS_rank 0).setFld (P.core x) F.CORE_STS_width 0).setFld
    (P.core x) F.CORE_STS_tenant 0).setFlag (P.core x) F.CORE_STS_rezinv false

theorem State.coreOff_spec (s : State) (x : Nat) : (s.coreOff x).core x = Core.reset ∧ (s.coreOff x).coreSt x = 0 ∧ s.StoresKept (s.coreOff x) := by
  refine ⟨?_, ?_, by simp [State.coreOff, State.setFlag], by simp [State.coreOff, State.setFlag]⟩
  · unfold State.coreOff State.setFlag State.core
    simp only [State.setFld_cores]
    exact State.core_setCore_self s x _
  · unfold State.coreSt State.coreOff
    rw [State.fld_setFlag_apart _ _ _ rfl, State.fld_setFld_apart _ _ _ _ rfl, State.fld_setFld_apart _ _ _ _ rfl, State.fld_setFld_apart _ _ _ _ rfl]
    exact State.fld_setFld_of_lt _ _ _ (by decide)

/-- What a wipe does to the loads that waited for the core, once its stores are cleared. -/
theorem State.coreWipe_eq (s : State) (x : Nat) : ∃ v u : State, s.coreWipe x = u.coreOff x ∧ v.rsts = s.rsts ∧ (v.clearStores x).StoresKept u := by
  have hdrop : (s.each (List.range 8) fun k s => s.rezDrop x k).rsts = s.rsts :=
    State.each_keeps (fun u => u.rsts = s.rsts) s _ _ (fun k _ u hu => by simp [State.rezDrop, State.setFlag, hu]) rfl
  refine ⟨s.each (List.range 8) fun k s => s.rezDrop x k, _, rfl, hdrop, ?_⟩
  generalize s.loadsOf x = ls
  generalize (State.clearStores _ x) = w
  refine State.StoresKept.trans ?_ (.each fun l _ u => u.loadCheck_storesKept _ _)
  have hlose : w.StoresKept (w.resLoseCore x) := .each fun _ _ _ => ⟨rfl, rfl⟩
  generalize w.resLoseCore x = z at hlose
  exact hlose

/-- A core that is wiped is reset and off, with its stores cleared. -/
theorem State.coreWipe_spec (s : State) (x : Nat) : (s.coreWipe x).core x = Core.reset ∧ (s.coreWipe x).coreSt x = 0 ∧ (s.coreWipe x).rsts = s.rsts ∧
    ∀ o, o < 0x100000 → (s.coreWipe x).stores.rd (stoKey x o) = 0 := by
  obtain ⟨v, u, hwipe, hv, hrsts, hstores⟩ := s.coreWipe_eq x
  obtain ⟨hcore, hst, hkeep, hsame⟩ := u.coreOff_spec x
  rw [hwipe]
  refine ⟨hcore, hst, hkeep.trans (hrsts.trans hv), fun o ho => ?_⟩
  rw [hsame, hstores]
  exact v.rd_clearStores x ho

theorem State.hdrResets_storesKept (s : State) (pgs : List Nat) : s.StoresKept (s.hdrResets pgs) :=
  .each fun _ _ _ => .each fun _ _ _ => ⟨rfl, rfl⟩

/-- The record that a lookup finds is in the list, with the scope and the target, and of its own trigger. -/
theorem State.findRst_some {s : State} {scope target : Nat} {r : Rst} (h : s.findRst scope target = some r) :
    r ∈ s.rsts ∧ r.scope = scope ∧ r.target = target ∧ r.sub = false := by
  have hp := List.find?_some h
  simp only [Bool.and_eq_true, beq_iff_eq, Bool.not_eq_true'] at hp
  exact ⟨List.mem_of_find?_eq_some h, hp.1.1, hp.1.2, hp.2⟩

theorem State.mem_setRst {s : State} {r : Rst} (h : r ∈ s.rsts) (r' : Rst) : r' ∈ (s.setRst r r').rsts :=
  List.mem_map.2 ⟨r, h, if_pos rfl⟩

theorem completes_coreAbsorb {s : State} {target : Fin 512} {x : Nat} {r : Rst} (hx : x = s.physOf target) (hfind : s.findRst 1 target = some r)
    (habs : r.absorbed = false) (hjobs : s.jobsWhere (fun j => j.ranks.contains x) = []) : Completes (.resetAbsorbPoint 1 target) s fun t =>
      t.core x = Core.reset ∧ t.coreSt x = 0 ∧ (∃ r' ∈ t.rsts, r'.scope = 1 ∧ r'.target = target ∧ r'.absorbed = true) ∧
        ∀ o, o < 0x100000 → t.stores.rd (stoKey x o) = 0 := by
  obtain ⟨hmem, hscope, htarget, -⟩ := State.findRst_some hfind
  have hrun : exec (.resetAbsorbPoint 1 target) s =
      .next ((((s.setRst r (s.rstAbsorbed r)).endJobs [] 8 1).hdrResets (coreBlocks x)).coreWipe x) := by
    have hphys : (s.setRst r (s.rstAbsorbed r)).physOf r.target = x := by rw [htarget, hx]; rfl
    have hnone : (s.setRst r (s.rstAbsorbed r)).jobsWhere (fun j => j.ranks.contains x) = [] := hjobs
    show execResetAbsorbPoint 1 target s = _
    unfold execResetAbsorbPoint
    rw [show s.findRst (1 : Fin 8) target = some r from hfind]
    dsimp only
    rw [habs, if_neg (by decide)]
    unfold State.rstAbsorb
    simp only [hscope, hphys]
    unfold State.coreAbsorb
    rw [hnone]
  have hkept : (s.setRst r (s.rstAbsorbed r)).StoresKept (((s.setRst r (s.rstAbsorbed r)).endJobs [] 8 1).hdrResets (coreBlocks x)) :=
    State.hdrResets_storesKept _ _
  obtain ⟨hcore, hst, hrsts, hzero⟩ := State.coreWipe_spec (((s.setRst r (s.rstAbsorbed r)).endJobs [] 8 1).hdrResets (coreBlocks x)) x
  refine ⟨_, hrun, hcore, hst, ⟨s.rstAbsorbed r, ?_, hscope, htarget, rfl⟩, hzero⟩
  rw [hrsts, hkept.1]
  exact State.mem_setRst hmem _

/-! The restore of a core. -/

/-- A record replaced by one of the same scope, target and trigger is found in its place. -/
theorem State.findRst_setRst {s : State} {scope target : Nat} {r r' : Rst} (h : s.findRst scope target = some r) (h1 : r'.scope = r.scope)
    (h2 : r'.target = r.target) (h3 : r'.sub = r.sub) : (s.setRst r r').findRst scope target = some r' := by
  have hsame : ((fun x : Rst => x.scope == scope && x.target == target && !x.sub) ∘ fun x => if x = r then r' else x) =
      fun x : Rst => x.scope == scope && x.target == target && !x.sub := by
    funext x
    by_cases hx : x = r
    · simp [hx, h1, h2, h3]
    · simp [hx]
  unfold State.findRst State.setRst
  dsimp only
  rw [List.find?_map, hsame]
  refine (congrArg _ h).trans ?_
  simp

theorem exec_resetRestore {s : State} {target : Fin 512} {r : Rst} (hfind : s.findRst 1 target = some r) :
    exec (.resetRestore 1 target) s = .next (s.rstRestore r) := by
  show execResetRestore 1 target s = _
  unfold execResetRestore
  rw [show s.findRst (1 : Fin 8) target = some r from hfind]

theorem completes_coreRebuild {s : State} {target : Fin 512} {x : Nat} {r : Rst} (hx : x = s.physOf target) (hfind : s.findRst 1 target = some r)
    (habs : r.absorbed = true) (hbuilt : r.rebuilt = false) (hlog : (s.logicalOf x).isSome = true) : Completes (.resetRestore 1 target) s fun t =>
      t.coreSt x = 1 ∧ { r with rebuilt := true } ∈ t.rsts := by
  obtain ⟨hmem, hscope, htarget, hsub⟩ := State.findRst_some hfind
  obtain ⟨w, hw⟩ : ∃ w, w = s.setRst r { r with rebuilt := true } := ⟨_, rfl⟩
  have hphys : w.physOf target = x := by
    rw [hw, hx]
    rfl
  have hboot : s.rstRebuild r = w.setFld (P.core x) F.CORE_STS_state 1 := by
    have hexposed : (w.logicalOf x).isSome = true := by
      rw [hw]
      exact hlog
    unfold State.rstRebuild
    dsimp only
    rw [← hw, htarget]
    split
    · rw [hphys]
      exact if_pos hexposed
    all_goals exact absurd hscope (by omega)
  have hmem' : { r with rebuilt := true } ∈ w.rsts := hw ▸ State.mem_setRst hmem _
  have hfind' : w.findRst r.scope r.target = some { r with rebuilt := true } := by
    rw [hw]
    exact State.findRst_setRst (by rw [hscope, htarget, hfind]) rfl rfl rfl
  clear hw
  have hst : (w.setFld (P.core x) F.CORE_STS_state 1).coreSt x = 1 := State.fld_setFld_of_lt _ _ _ (by decide)
  have hwait : (w.setFld (P.core x) F.CORE_STS_state 1).rstDone { r with rebuilt := true } = false := by
    have hclu : P.clu (target / 7) ≠ P.core x := by
      unfold P.core P.corePg P.clu
      omega
    have hkeep : (w.setFld (P.core x) F.CORE_STS_state 1).physOf target = x :=
      (congrArg (8 * (target.val / 7) + ·) (State.fld_setFld_page w _ _ _ hclu (cluPhys_inside _) rfl)).trans hphys
    unfold State.rstDone
    simp only [hscope, htarget, hkeep, hst]
    rfl
  have hready : s.rstReady r = true := by
    unfold State.rstReady
    rw [hscope]
    rfl
  have hagain : (w.setFld (P.core x) F.CORE_STS_state 1).findRst r.scope r.target = some { r with rebuilt := true } := by
    unfold State.findRst
    rw [State.setFld_rsts]
    exact hfind'
  have hlast : { r with rebuilt := true } ∈ (w.setFld (P.core x) F.CORE_STS_state 1).rsts := by
    rw [State.setFld_rsts]
    exact hmem'
  generalize w.setFld (P.core x) F.CORE_STS_state 1 = v at *
  have hrun : s.rstRestore r = v := by
    unfold State.rstRestore
    dsimp only
    rw [habs, hbuilt, hready, if_neg (by rw [hscope]; decide), if_neg (by decide), if_neg (by decide), if_pos rfl, hboot, hagain]
    dsimp only
    rw [hwait]
    rfl
  exact ⟨v, (exec_resetRestore hfind).trans (congrArg _ hrun), hst, hlast⟩

/-- The end of the HUB_RST_CMD reset that the record `r` carries. -/
theorem State.hubRstEnd_own {s : State} {r : Rst} {target : Nat} (hgo : s.flag (P.hub 2) F.HUB_RST_CMD_go = true) (hhub : s.hubRst = (1, target))
    (hscope : r.scope = 1) (htarget : r.target = target) (hsub : r.sub = false) : s.hubRstEnd r =
      (((s.setFlag (P.hub 2) F.HUB_RST_CMD_go false).setFlag (P.hub 2) F.HUB_RST_STS_busy false).setFld (P.hub 2) F.HUB_RST_STS_result 0).event (P.hub 2) 0 := by
  have hcovers : s.rstCovers r { r with scope := 1, target := target, sub := false } = true := by
    simp [State.rstCovers, hscope, htarget]
  unfold State.hubRstEnd
  dsimp only
  rw [hgo, hhub]
  dsimp only
  rw [hcovers, hscope, htarget, hsub, if_neg (by decide), if_neg (by decide), if_pos ⟨rfl, rfl, rfl⟩]

theorem completes_coreRelease {s : State} {target : Fin 512} {x : Nat} {r : Rst} (hx : x = s.physOf target) (hfind : s.findRst 1 target = some r)
    (habs : r.absorbed = true) (hbuilt : r.rebuilt = true) (hst : s.coreSt x ≠ 1) (hgo : s.flag (P.hub 2) F.HUB_RST_CMD_go = true)
    (hhub : s.hubRst = (1, target.val)) : Completes (.resetRestore 1 target) s fun t =>
      r ∉ t.rsts ∧ t.flag (P.hub 2) F.HUB_RST_CMD_go = false ∧ t.flag (P.hub 2) F.HUB_RST_STS_busy = false ∧
        t.fld (P.hub 2) F.HUB_RST_STS_result = 0 ∧ t.fld (P.hub 2) F.HUB_RST_LAST_scope = 1 := by
  obtain ⟨-, hscope, htarget, hsub⟩ := State.findRst_some hfind
  have hdone : s.rstDone r = true := by
    unfold State.rstDone
    simpa [hscope, htarget, ← hx] using hst
  have hrun : s.rstRestore r = (s.rstDrop r).rstLast r := by
    unfold State.rstRestore
    dsimp only
    rw [habs, hbuilt, if_neg (by rw [hscope]; decide), if_neg (by decide), if_pos rfl, hscope, htarget, hfind]
    dsimp only
    rw [hbuilt, hdone, Bool.and_true, if_pos rfl]
    unfold State.rstRelease
    rw [hscope]
    rfl
  have hdrop : (s.rstDrop r).rsts = s.rsts.filter (· != r) ∧ (s.rstDrop r).flag (P.hub 2) F.HUB_RST_CMD_go = false ∧
      (s.rstDrop r).flag (P.hub 2) F.HUB_RST_STS_busy = false ∧ (s.rstDrop r).fld (P.hub 2) F.HUB_RST_STS_result = 0 := by
    unfold State.rstDrop
    dsimp only
    rw [State.hubRstEnd_own hgo hhub hscope htarget hsub]
    refine ⟨?_, ?_, ?_, ?_⟩
    · rw [State.event_rsts]
      rfl
    · refine (State.flag_event_apart _ _ _ rfl _).trans ?_
      rw [State.flag_setFld_apart _ _ _ _ rfl, State.flag_setFlag_apart _ _ _ rfl, State.flag_setFlag_self _ _ (by decide)]
    · refine (State.flag_event_apart _ _ _ rfl _).trans ?_
      rw [State.flag_setFld_apart _ _ _ _ rfl, State.flag_setFlag_self _ _ (by decide)]
    · refine (State.fld_event_apart _ _ _ rfl _).trans ?_
      exact State.fld_setFld_self _ _ _ _
  obtain ⟨hrsts, h1, h2, h3⟩ := hdrop
  generalize s.rstDrop r = u at hrun hrsts h1 h2 h3
  refine ⟨_, (exec_resetRestore hfind).trans (congrArg _ hrun), ?_, ?_, ?_, ?_, ?_⟩
  · show r ∉ u.rsts
    rw [hrsts]
    simp
  all_goals unfold State.rstLast
  · rw [State.flag_setFlag_apart _ _ _ rfl, State.flag_setFld_apart _ _ _ _ rfl, State.flag_setFld_apart _ _ _ _ rfl, h1]
  · rw [State.flag_setFlag_apart _ _ _ rfl, State.flag_setFld_apart _ _ _ _ rfl, State.flag_setFld_apart _ _ _ _ rfl, h2]
  · rw [State.fld_setFlag_apart _ _ _ rfl, State.fld_setFld_apart _ _ _ _ rfl, State.fld_setFld_apart _ _ _ _ rfl, h3]
  · rw [State.fld_setFlag_apart _ _ _ rfl, State.fld_setFld_apart _ _ _ _ rfl, State.fld_setFld_self, hscope]
    rfl

/-! The obligation. -/

/-- Settles O34: the command is refused, ignored or taken with its record; a core's absorb point wipes it, and the two halves of its restore boot and release it. -/
theorem resetResults : Obligations.ResetResults := by
  unfold Obligations.ResetResults
  intro s rq target x hx
  refine ⟨fun hg r hr => ?command, fun r hfind habs hjobs => completes_coreAbsorb hx hfind habs hjobs, fun k r hfind habs => ?early,
    fun r hfind habs hbuilt hlog => completes_coreRebuild hx hfind habs hbuilt hlog,
    fun r hfind habs hbuilt hst hgo hhub => completes_coreRelease hx hfind habs hbuilt hst hgo hhub, fun k hnone => ⟨?_, ?_⟩⟩
  case command =>
    obtain ⟨hcore, hclu, htile⟩ := exec_resets hg (target := target)
    refine ⟨fun hsh c hc => ?shutdown, fun hsh hgo c hc => ?busy, fun hsh hgo => ⟨fun h448 hon hfree hjobs => ?core, fun hbad => ?refused,
      fun h64 hf hfree hjobs => ?cluster, fun h8 hfree hpts => ?tile⟩⟩
    case shutdown =>
      rcases hc with rfl | rfl | rfl
      · rw [hcore, State.hubRstWrite_shutdown hsh]
      · rw [hclu, State.hubRstWrite_shutdown hsh]
      · rw [htile, State.hubRstWrite_shutdown hsh]
    case busy =>
      rcases hc with rfl | rfl | rfl
      · rw [hcore, State.hubRstWrite_busy hsh hgo]
      · rw [hclu, State.hubRstWrite_busy hsh hgo]
      · rw [htile, State.hubRstWrite_busy hsh hgo]
    case core =>
      rw [State.hubRstWrite_idle hsh hgo, if_pos (by simp [State.rstTargetOk, h448, hon])] at hcore
      exact completes_coreReset target.isLt (hr 1) hcore hx hfree hjobs
    case refused =>
      rw [State.hubRstWrite_idle hsh hgo, if_neg (by rcases hbad with h | h <;> simp [State.rstTargetOk, h])] at hcore
      refine ⟨_, hcore, State.fld_setFld_of_lt _ _ _ (by decide), ?_, rfl, .refl s⟩
      rw [State.flag_setFld_apart _ _ _ _ rfl, State.flag_setFld_apart _ _ _ _ rfl, State.flag_setFld_apart _ _ _ _ rfl, hgo]
    case cluster =>
      rw [State.hubRstWrite_idle hsh hgo, if_pos (by simp [State.rstTargetOk, h64, hf])] at hclu
      exact completes_clusterReset target.isLt (hr 2) hclu hfree hjobs
    case tile =>
      rw [State.hubRstWrite_idle hsh hgo, if_pos (by simp [State.rstTargetOk, h8])] at htile
      exact completes_tileReset target.isLt (hr 4) htile hfree hpts
  case early =>
    show execResetAbsorbPoint k target s = _
    unfold execResetAbsorbPoint
    rw [hfind]
    dsimp only
    rw [habs, if_pos rfl]
  · show execResetAbsorbPoint k target s = _
    unfold execResetAbsorbPoint
    rw [hnone]
  · show execResetRestore k target s = _
    unfold execResetRestore
    rw [hnone]

end Sys2Proof.Machine
end

section
/-! Core boot fetch, slice training, power cycles and the device warm reset (04 R84, R94; 09 R240; 14 R343; 18 R421, R423). -/
namespace Sys2Proof.Machine

/-! The boot fetch of a core. -/

/-- The Hamper and the slices are the same. -/
def State.MemKept (s t : State) : Prop := t.hmp = s.hmp ∧ t.slices = s.slices

theorem State.MemKept.trans {s t u : State} (h1 : s.MemKept t) (h2 : t.MemKept u) : s.MemKept u := ⟨h2.1.trans h1.1, h2.2.trans h1.2⟩

/-- An image goes into the core's stores and counts in registers. -/
theorem State.putImage_memKept (s : State) (x : Nat) (d : ItinDesc) : s.MemKept (s.putImage x d) := by
  have hmoved : s.MemKept (s.each (segs 64 d.hamperOff d.len) fun sg s =>
      { s with stores := s.stores.wr (stoKey x (storeBase d.store + d.storeOff + (sg.1 - d.hamperOff))) (s.hmp.rdN sg.1 sg.2) false }) :=
    State.each_keeps (fun u => s.MemKept u) s _ _ (fun _ _ _ hu => hu) ⟨rfl, rfl⟩
  unfold State.putImage
  dsimp only
  generalize (s.each (segs 64 d.hamperOff d.len) fun sg s =>
      { s with stores := s.stores.wr (stoKey x (storeBase d.store + d.storeOff + (sg.1 - d.hamperOff))) (s.hmp.rdN sg.1 sg.2) false }) = u at hmoved
  refine hmoved.trans ?_
  unfold State.setFld64 State.setFlag
  split
  · exact ⟨rfl, rfl⟩
  · split <;> exact ⟨rfl, rfl⟩

theorem completes_coreBootFetch {s : State} {x : Fin 512} {g : Nat} {it : Itinerary} {r : ItinRule} {first second : List Bool} (hst : s.coreSt x = 1)
    (hdom : s.dom (x / 64) (72 + x % 64) = 3) (hfenced : s.fenced (x / 64) = false) (hlog : s.logicalOf x = some g) (hit : s.itin = some it)
    (hrule : it.ruleOf g = some r) (hgood : ∀ i d, (it.picked r)[i]? = some d → (first.getD i false = true ∨ second.getD i false = true) ∧ s.imageGood d = true) :
    Completes (.coreBootFetch x first second) s fun t =>
      t.coreSt x = 2 ∧ t.core x = { Core.reset with active := -1, pc := r.entry } ∧ t.hmp = s.hmp ∧ t.slices = s.slices := by
  have hrun : exec (.coreBootFetch x first second) s = .next (((s.each (it.picked r) fun d s => s.putImage x d).setCore x
      { Core.reset with active := -1, pc := r.entry }).setFld (P.core x) F.CORE_STS_state 2) := by
    show execCoreBootFetch x first second s = _
    unfold execCoreBootFetch
    simp only [hlog, hit, hst, hdom, hfenced, hrule]
    refine congrArg Host.Outcome.next ((if_neg (by simp)).trans (if_neg ?_))
    rw [Bool.not_eq_true, Bool.not_eq_false']
    refine List.all_eq_true.2 fun i hi => ?_
    obtain ⟨harrived, hcompares⟩ := hgood i _ (List.getElem?_eq_getElem (List.mem_range.1 hi))
    rw [List.getElem?_eq_getElem (List.mem_range.1 hi)]
    dsimp only
    rw [hcompares, Bool.and_true]
    simpa using harrived
  have hkept : s.MemKept (s.each (it.picked r) fun d s => s.putImage x d) :=
    State.each_keeps (fun u => s.MemKept u) s _ _ (fun d _ u hu => hu.trans (u.putImage_memKept x d)) ⟨rfl, rfl⟩
  generalize (s.each (it.picked r) fun d s => s.putImage x d) = u at hrun hkept
  exact ⟨_, hrun, State.fld_setFld_of_lt _ _ _ (by decide), State.core_setCore_self u x { Core.reset with active := -1, pc := r.entry }, hkept.1, hkept.2⟩

theorem exec_coreBootFetch_not {s : State} {x : Fin 512} (h : s.coreSt x ≠ 1) (first second : List Bool) : exec (.coreBootFetch x first second) s = .next s := by
  show execCoreBootFetch x first second s = _
  unfold execCoreBootFetch
  split
  · exact congrArg Host.Outcome.next (if_pos (.inl h))
  · rfl

/-! The training of a slice. -/

section
variable {s : State} {x : Fin 512} (hst : s.sliceState x = 0) (hfenced : s.fenced (x / 64) = false) (hstage : 8 ≤ s.stage)
  (hfailed : s.flag P.boot F.BOOT_STS_failed = false)
include hst hfenced hstage hfailed

theorem State.sliceTrained_due : ¬ (s.sliceState x ≠ 0 ∨ s.fenced (x / 64) = true ∨ s.stage < 8 ∨ s.flag P.boot F.BOOT_STS_failed = true) := by
  rintro (h | h | h | h)
  · exact h hst
  · rw [hfenced] at h
    exact Bool.false_ne_true h
  · omega
  · rw [hfailed] at h
    exact Bool.false_ne_true h

theorem completes_sliceTrained : Completes (.sliceTrainingDone x true) s fun t =>
    t.sliceState x = 1 ∧ (∀ y : Nat, y < 512 → y ≠ x → t.sliceState y = s.sliceState y) ∧ s.sameBytes t := by
  have hrun : exec (.sliceTrainingDone x true) s = .next (s.setSliceState x 1 0) :=
    congrArg Host.Outcome.next ((if_neg (State.sliceTrained_due hst hfenced hstage hfailed)).trans (if_pos rfl))
  obtain ⟨h1, -, -⟩ := s.setSliceState_fields (x := x) (cause := 0) (st := 1) (by decide) (by decide) (by rw [hst]; decide)
  refine ⟨_, hrun, h1, fun y _ hy => ?_, (s.setSliceState_notes x 1 0).sameBytes⟩
  exact State.fld_setSliceState_page (P.slc_ne hy) (P.slc_ne_trl y) (by decide) s 1

theorem completes_sliceMappedOut : Completes (.sliceTrainingDone x false) s fun t =>
    t.sliceState x = 4 ∧ t.fld (P.slc x) F.SLC_STS_fail_cause = 1 ∧ x.val ∈ t.boot.trainFail ∧ s.sameBytes t := by
  obtain ⟨h1, h2, -⟩ := s.setSliceState_fields (x := x) (cause := 1) (st := 4) (by decide) (by decide) (by rw [hst]; decide)
  have hsame := (s.setSliceState_notes x 4 1).sameBytes
  obtain ⟨b, hb, hmem⟩ : ∃ b : Boot, exec (.sliceTrainingDone x false) s = .next (if (s.setSliceState x 4 1).boot.prevTrainFail.contains x.val
      then ({ s.setSliceState x 4 1 with boot := b } : State).addFact ⟨x / 64, 1, x % 64 / 8, x % 8, 5⟩ else { s.setSliceState x 4 1 with boot := b }) ∧
        x.val ∈ b.trainFail := by
    refine ⟨{ (s.setSliceState x 4 1).boot with trainFail := if (s.setSliceState x 4 1).boot.trainFail.contains x.val then (s.setSliceState x 4 1).boot.trainFail
      else x.val :: (s.setSliceState x 4 1).boot.trainFail }, congrArg Host.Outcome.next ((if_neg (State.sliceTrained_due hst hfenced hstage hfailed)).trans
        (if_neg Bool.false_ne_true)), ?_⟩
    dsimp only
    split
    · next h => simpa using h
    · exact List.mem_cons_self
  generalize s.setSliceState x 4 1 = u at hb h1 h2 hsame
  have hfact : ∀ (w : State) (f : FieldFact), w.sliceState x = 4 → w.fld (P.slc x) F.SLC_STS_fail_cause = 1 → x.val ∈ w.boot.trainFail → s.sameBytes w →
      (w.addFact f).sliceState x = 4 ∧ (w.addFact f).fld (P.slc x) F.SLC_STS_fail_cause = 1 ∧ x.val ∈ (w.addFact f).boot.trainFail ∧
        s.sameBytes (w.addFact f) := fun w f hw1 hw2 hw3 hw4 => by
    unfold State.addFact
    split
    · exact ⟨hw1, hw2, hw3, hw4⟩
    · refine ⟨?_, ?_, ?_, ?_⟩
      · exact (State.fld_trailPut_page (P.slc_ne_trl x) (by decide) _ _ _ _ _).trans hw1
      · exact (State.fld_trailPut_page (P.slc_ne_trl x) (by decide) _ _ _ _ _).trans hw2
      · rw [State.trailPut_boot]
        exact hw3
      · exact (State.sameBytes.trans hw4 (.refl _)).trans (State.trailPut_notes _ _ _ _ _).sameBytes
  refine ⟨_, hb, ?_⟩
  split
  · exact hfact { u with boot := b } _ h1 h2 hmem hsame
  · exact ⟨h1, h2, hmem, hsame⟩

end

/-! Power cycles. -/

/-- A torn record spoils its own slot alone. -/
theorem State.trailTear_slots (s : State) : s.sameSlots s.trailTear := by
  intro k hk
  unfold State.trailTear
  split
  · rfl
  · next r l hq =>
    dsimp only
    split
    · rfl
    · have hother := Tab.get_set slot0 s.trail.slots (s.trailSlot (s.numbered r)) k none
      rw [if_neg (hk r l hq)] at hother
      exact hother

theorem State.powerOff_slots (s : State) : s.sameSlots s.powerOff := fun k hk => s.trailTear_slots k hk

/-- The fields of the Trail's own counts that a loss of power keeps. -/
theorem State.fld_powerOff (s : State) (pg : Nat) {f : Fld} (hf : f.inside = true) : s.powerOff.fld pg f =
    if pg == P.trl && (fkey 0 f == fkey 0 F.TRL_STS_next_slot || fkey 0 f == fkey 0 F.TRL_STS_fmap_cnt || fkey 0 f == fkey 0 F.TRL_SEQ_value ||
      fkey 0 f == fkey 0 F.TRL_BOOTCNT_value) then s.fld pg f else State.reset.fld pg f := by
  have htear : s.trailTear.fld pg f = s.fld pg f := by
    unfold State.trailTear
    split
    · rfl
    · dsimp only
      split <;> rfl
  unfold State.powerOff
  rw [State.fld_keepRegs hf, htear]

/-- Step 1 has scanned the Trail. -/
def State.powered (s : State) : State :=
  { s.powerOff with aoUp := true, hubOff := false, trail := { s.powerOff.trail with stepOne := s.now }
                    boot := { Boot.reset with prevTrainFail := s.boot.trainFail, start := s.now } }

/-- A cold power-on: step 1, the cycle counts that the Trail holds, the boot count and the fields with a fused reset value. -/
theorem State.powerOn_eq (s : State) : ∃ u : State, s.powerOn = (u.bootCount 2).fuseLoad.pinSync ∧ s.powered.FldsOnly u ∧
    ∀ (pg : Nat) (f : Fld), f.apart F.THM_T_CYC20_count = true → f.apart F.THM_T_CYC40_count = true → u.fld pg f = s.powered.fld pg f := by
  unfold State.powerOn
  dsimp only
  split
  · exact ⟨s.powered, rfl, .refl _, fun _ _ _ _ => rfl⟩
  · next r _ =>
    refine ⟨s.powered.each (List.range 8) fun i s =>
      (s.setFld (P.thmT i) F.THM_T_CYC20_count (cycleOf r.payload i)).setFld (P.thmT i) F.THM_T_CYC40_count (cycleOf r.payload (8 + i)), rfl, ?_, fun pg f h1 h2 => ?_⟩
    · exact State.each_keeps (fun u => s.powered.FldsOnly u) _ _ _ (fun _ _ _ hu => (hu.setFld _ _ _).setFld _ _ _) (.refl _)
    · exact State.each_keeps (fun u => u.fld pg f = s.powered.fld pg f) _ _ _
        (fun _ _ u hu => ((State.fld_setFld_apart _ _ _ _ h2).trans (State.fld_setFld_apart _ _ _ _ h1)).trans hu) rfl

theorem State.fld_powerOn (s : State) (pg : Nat) {f : Fld} (hf : f.inside = true) (hfuse : ∀ g ∈ fusedFlds, f.apart g = true) (hcnt : f.apart F.TRL_BOOTCNT_value = true)
    (h1 : f.apart F.THM_T_CYC20_count = true) (h2 : f.apart F.THM_T_CYC40_count = true) (hpg : (pg == P.trl) = false) :
    s.powerOn.fld pg f = State.reset.fld pg f := by
  obtain ⟨u, hu, -, hkeep⟩ := s.powerOn_eq
  rw [hu, State.fld_fuseLoad_pinSync hfuse, State.bootCount, State.addFld, State.fld_setFld_apart _ _ _ _ hcnt, hkeep _ _ h1 h2]
  refine (s.fld_powerOff pg hf).trans ?_
  rw [hpg, Bool.false_and, if_neg Bool.false_ne_true]

theorem State.bootCount_powerOn (s : State) : s.powerOn.fld P.trl F.TRL_BOOTCNT_value = (s.fld P.trl F.TRL_BOOTCNT_value + 2) % 2 ^ 32 := by
  obtain ⟨u, hu, -, hkeep⟩ := s.powerOn_eq
  rw [hu, State.fld_fuseLoad_pinSync (by decide), State.bootCount, State.addFld, State.fld_setFld_self, hkeep _ _ (by decide) (by decide)]
  have hcount : s.powered.fld P.trl F.TRL_BOOTCNT_value = s.fld P.trl F.TRL_BOOTCNT_value :=
    (s.fld_powerOff P.trl (by decide)).trans (if_pos (by decide))
  rw [hcount]
  rfl

theorem State.powerOn_only (s : State) : s.powered.FldsOnly s.powerOn := by
  obtain ⟨u, hu, honly, -⟩ := s.powerOn_eq
  rw [hu]
  exact ((honly.setFld _ _ _).trans (State.fuseLoad_only _)).trans (State.pinSync_only _)

theorem completes_coldPowerOn (s : State) : Completes .coldPowerOn s fun t => t.aoUp = true ∧ t.hubOff = false ∧ s.sameSlots t ∧ t.ready = false ∧ t.stage = 2 ∧
    t.fld P.trl F.TRL_BOOTCNT_value = (s.fld P.trl F.TRL_BOOTCNT_value + 2) % 2 ^ 32 ∧ (∀ y, t.core y = Core.reset) ∧ (∀ a, t.hmp.rd a = 0) := by
  obtain ⟨regs, hregs⟩ := s.powerOn_only
  refine ⟨s.powerOn, rfl, ?_, ?_, ?_, ?_, ?_, s.bootCount_powerOn, ?_, ?_⟩
  · rw [hregs]
    rfl
  · rw [hregs]
    rfl
  · rw [hregs]
    exact s.powerOff_slots
  · rw [State.ready, State.flag, s.fld_powerOn P.boot (by decide) (by decide) (by decide) (by decide) (by decide) (by decide)]
    decide
  · exact (s.fld_powerOn P.boot (by decide) (by decide) (by decide) (by decide) (by decide) (by decide)).trans (by decide)
  · intro y
    rw [hregs]
    rfl
  · intro a
    rw [hregs]
    rfl

theorem completes_vddAoLoss {s : State} (h : s.aoUp = true) : Completes .vddAoLoss s fun t => t.aoUp = false ∧ t.hubOff = true ∧ s.sameSlots t ∧
    t.trail.queue = [] ∧ (∀ y, t.core y = Core.reset) ∧ (∀ a, t.hmp.rd a = 0) :=
  ⟨s.powerOff, congrArg Host.Outcome.next (if_pos h), rfl, rfl, s.powerOff_slots, rfl, fun _ => rfl, fun _ => rfl⟩

/-! The device warm reset. -/

theorem State.warmReset_clears {s : State} (hcool : s.inShutdown = false) (hfree : s.stuck = false) :
    (∀ y, s.warmReset.core y = Core.reset) ∧ ∀ a, s.warmReset.hmp.rd a = 0 := by
  have hgo : s.warmReset = (s.trailPut 0x0A 0x01 1 [0]).rerun := if_neg (by rw [hcool, hfree]; exact Bool.false_ne_true)
  obtain ⟨_, hregs⟩ := (s.trailPut 0x0A 0x01 1 [0]).rerun_only
  rw [hgo, hregs]
  exact ⟨fun _ => rfl, fun _ => rfl⟩

section
variable {s : State} {rq : Requester} (hg : s.grants rq (P.hub 2) = true)
include hg

theorem exec_deviceWarmReset (key : BitVec 16) : exec (.deviceWarmReset rq key) s = .next (s.devReset rq key.toNat) :=
  congrArg Host.Outcome.next (State.privWrite_of_grants hg _ _)

end

/-! The obligation. -/

/-- Settles O29: a fetch whose images compare starts the monitor, a slice's training ends in service or mapped out, and each restart is `powerOn`, `powerOff` or `rerun`. -/
theorem bootUnitsResults : Obligations.BootUnitsResults := by
  unfold Obligations.BootUnitsResults
  intro s x rq
  refine ⟨fun g it r first second hst hdom hfenced hlog hit hrule hgood => completes_coreBootFetch hst hdom hfenced hlog hit hrule hgood,
    fun first second h => exec_coreBootFetch_not h first second,
    fun hst hfenced hstage hfailed => ⟨completes_sliceTrained hst hfenced hstage hfailed, completes_sliceMappedOut hst hfenced hstage hfailed⟩,
    fun hst ok => congrArg Host.Outcome.next (if_pos (.inl hst)), completes_coldPowerOn s, completes_vddAoLoss,
    fun h => congrArg Host.Outcome.next (if_neg (by rw [h]; decide)), fun hg => ⟨fun hcool hfree => ?warm, fun key hkey => ?wrongKey⟩⟩
  case warm =>
    obtain ⟨-, hready, hstage, hslots, hcount⟩ := State.warmReset_boot hcool hfree
    obtain ⟨hcores, hzero⟩ := State.warmReset_clears hcool hfree
    exact ⟨s.warmReset, exec_deviceWarmReset hg _, hready, hstage, hcount, hslots, hcores, hzero⟩
  case wrongKey =>
    rw [exec_deviceWarmReset hg, State.devReset, if_neg fun h : key.toNat = 0xA5C3 => hkey (BitVec.eq_of_toNat_eq h)]

end Sys2Proof.Machine
end

section
/-! The ends of bring-up steps, watchdogs and pushed boot (04 R73, R74, R87, R89, R91, R97). -/
namespace Sys2Proof.Machine

/-! Boot errors. -/

theorem State.fld_bootErr_other {f : Fld} (h1 : f.apart F.BOOT_ERR_code = true) (h2 : f.apart F.BOOT_ERR_detail = true) (h3 : f.apart F.BOOT_ERR_step = true)
    (hf : f.inside = true) (s : State) (code detail step : Nat) : (s.bootErr code detail step).fld P.boot f = s.fld P.boot f := by
  unfold State.bootErr State.bootTrail
  rw [State.fld_trailPut_page (by decide) hf, State.fld_setFld_apart _ _ _ _ h3, State.fld_setFld_apart _ _ _ _ h2, State.fld_setFld_apart _ _ _ _ h1]

theorem State.bootErr_spec (s : State) {code detail step : Nat} (hc : code < 2 ^ 8) (hd : detail < 2 ^ 12) :
    (s.bootErr code detail step).fld P.boot F.BOOT_ERR_code = code ∧ (s.bootErr code detail step).fld P.boot F.BOOT_ERR_detail = detail ∧
      (step < 2 ^ 4 → (s.bootErr code detail step).fld P.boot F.BOOT_ERR_step = step) := by
  unfold State.bootErr State.bootTrail
  refine ⟨?_, ?_, fun hs => ?_⟩
  · rw [State.fld_trailPut_page (by decide) (by decide), State.fld_setFld_apart _ _ _ _ rfl, State.fld_setFld_apart _ _ _ _ rfl]
    exact State.fld_setFld_of_lt _ _ _ hc
  · rw [State.fld_trailPut_page (by decide) (by decide), State.fld_setFld_apart _ _ _ _ rfl]
    exact State.fld_setFld_of_lt _ _ _ hd
  · rw [State.fld_trailPut_page (by decide) (by decide)]
    exact State.fld_setFld_of_lt _ _ _ hs

/-- Boot stops at step `n` with an error. -/
theorem State.bootFail_spec (s : State) {code detail n : Nat} (hc : code < 2 ^ 8) (hd : detail < 2 ^ 12) (hn : s.stage = n) (hn16 : n < 16) :
    (s.bootFail code detail).flag P.boot F.BOOT_STS_failed = true ∧ (s.bootFail code detail).stage = n ∧
    (s.bootFail code detail).fld P.boot F.BOOT_ERR_step = n ∧ (s.bootFail code detail).fld P.boot F.BOOT_ERR_code = code ∧
    (s.bootFail code detail).fld P.boot F.BOOT_ERR_detail = detail := by
  have hstage : ((s.setFlag P.boot F.BOOT_STS_failed true).setFld P.boot F.BOOT_TIME_ms s.bootMs).stage = n := by
    rw [State.stage, State.fld_setFld_apart _ _ _ _ rfl, State.fld_setFlag_apart _ _ _ rfl]
    exact hn
  obtain ⟨hcode, hdetail, hstep⟩ := ((s.setFlag P.boot F.BOOT_STS_failed true).setFld P.boot F.BOOT_TIME_ms s.bootMs).bootErr_spec (step := s.stage) hc hd
  unfold State.bootFail
  refine ⟨?_, ?_, ?_, ?_, ?_⟩
  · refine (State.flag_event_apart _ _ _ rfl _).trans ((State.flag_of_fld (State.fld_bootErr_other rfl rfl rfl rfl _ _ _ _)).trans ?_)
    rw [State.flag_setFld_apart _ _ _ _ rfl, State.flag_setFlag_self _ _ (by decide)]
  · exact (State.fld_event_apart _ _ _ rfl _).trans ((State.fld_bootErr_other rfl rfl rfl rfl _ _ _ _).trans hstage)
  · exact ((State.fld_event_apart _ _ _ rfl _).trans (hstep (hn ▸ hn16))).trans hn
  · exact (State.fld_event_apart _ _ _ rfl _).trans hcode
  · exact (State.fld_event_apart _ _ _ rfl _).trans hdetail

/-- Boot stops at the step in progress. -/
theorem completes_bootFail {s : State} {c : Instr} {code detail n : Nat} (hc : code < 2 ^ 8) (hd : detail < 2 ^ 12) (hn : s.stage = n) (hn16 : n < 16)
    (hrun : exec c s = .next (s.bootFail code detail)) : Completes c s fun t =>
      t.flag P.boot F.BOOT_STS_failed = true ∧ t.stage = n ∧ t.fld P.boot F.BOOT_ERR_code = code ∧ t.fld P.boot F.BOOT_ERR_detail = detail := by
  obtain ⟨h1, h2, -, h3, h4⟩ := s.bootFail_spec hc hd hn hn16
  exact ⟨_, hrun, h1, h2, h3, h4⟩

theorem State.waitPush_spec (s : State) : s.waitPush.flag P.boot F.BOOT_STS_wait_push = true ∧
    ∀ (pg : Nat) (f : Fld), f.apart F.BOOT_STS_wait_push = true → f.apart F.PG_INT_STS = true → s.waitPush.fld pg f = s.fld pg f := by
  refine ⟨?_, fun pg f h1 h2 => (State.fld_event_apart _ _ _ h2 _).trans (State.fld_setFlag_apart _ _ _ h1 _)⟩
  exact (State.flag_event_apart _ _ _ rfl _).trans (State.flag_setFlag_self _ _ (by decide) _)

theorem State.owner_waitPush (s : State) : s.waitPush.owner = s.owner :=
  (State.fld_event_page (by decide) rfl _ _).trans (State.fld_setFld_page _ _ _ _ (by decide) rfl rfl)

/-! Step 2. -/

/-- A field behind the fused ones. -/
theorem State.fld_fuseLoad {f : Fld} (h : ∀ g ∈ fusedFlds, f.apart g = true) (s : State) (pg : Nat) : s.fuseLoad.fld pg f = s.fld pg f := by
  simp only [fusedFlds, List.forall_mem_cons] at h
  obtain ⟨hrev, htclk, hs, hp, hms, hls, hlp, hcap, hreq, -, -⟩ := h
  refine State.each_keeps (fun t => t.fld pg f = s.fld pg f) _ _ _ (fun _ _ u hu => (State.fld_setFld_apart _ _ _ _ hreq).trans hu) ?_
  simp only [State.fld_setFld_apart _ _ _ _ hrev, State.fld_setFld_apart _ _ _ _ htclk, State.fld_setFld_apart _ _ _ _ hs, State.fld_setFld_apart _ _ _ _ hp,
    State.fld_setFld_apart _ _ _ _ hms, State.fld_setFld_apart _ _ _ _ hls, State.fld_setFld_apart _ _ _ _ hlp, State.fld_setFld_apart _ _ _ _ hcap]

theorem State.owner_fuseLoad (s : State) : s.fuseLoad.owner = s.owner := by
  have hboot : P.hub 0 ≠ P.boot := by decide
  have hpwr : P.hub 0 ≠ P.pwr := by decide
  refine State.each_keeps (fun t => t.owner = s.owner) _ _ _ (fun t _ u hu => (State.fld_setFld_page _ _ _ _ ?_ rfl rfl).trans hu) ?_
  · exact Nat.ne_of_lt (Nat.lt_of_lt_of_le (by decide) (P.pwrT_high t))
  · unfold State.owner
    rw [State.fld_setFld_page _ _ _ _ hpwr rfl rfl, State.fld_setFld_page _ _ _ _ hpwr rfl rfl, State.fld_setFld_page _ _ _ _ hpwr rfl rfl,
      State.fld_setFld_page _ _ _ _ hboot rfl rfl, State.fld_setFld_page _ _ _ _ hboot rfl rfl, State.fld_setFld_page _ _ _ _ hboot rfl rfl,
      State.fld_setFld_page _ _ _ _ hboot rfl rfl, State.fld_setFld_page _ _ _ _ hboot rfl rfl]

/-- The board's copies of the straps. -/
def Board.strapped (b : Board) (owner src mode media mgt : Nat) : Board :=
  { b with ownerPort := owner, bootSrc := src, clkMode := mode, media := media, mgtAddr := mgt }

/-- The straps that the BOOT page holds. -/
def State.sampleBoot (s : State) (owner src site build : Nat) : State :=
  (((s.setFld P.boot F.BOOT_STRAP_owner_port owner).setFld P.boot F.BOOT_STRAP_boot_src src).setFld P.boot F.BOOT_STRAP_hub_site site).setFld P.boot
    F.BOOT_STRAP_pkg_build build

/-- The owner and the straps that the hub's first page holds. -/
def State.sampleHub (s : State) (owner mode media mgt bad : Nat) : State :=
  ((((s.setFld (P.hub 0) F.HUB_OWNER_owner_port owner).setFld (P.hub 0) F.HUB_STRAP_EXT_clk_mode mode).setFld (P.hub 0)
    F.HUB_STRAP_EXT_stp_media media).setFld (P.hub 0) F.HUB_STRAP_EXT_mgt_addr mgt).setFld (P.hub 0) F.HUB_STRAP_EXT_port_clk_bad bad

/-- The ports whose clock mode is reserved. -/
def badClocks (mode : Nat) : Nat := (List.range 4).foldl (fun m n => if Machine.bits mode (2 * n) 2 = 3 then m + 2 ^ n else m) 0

/-- What step 2 samples, before its checks. -/
def State.sampled (s : State) (owner src site build mode media mgt : Nat) : State :=
  ((({ s with board := s.board.strapped owner src mode media mgt } : State).sampleBoot owner src site build).sampleHub owner mode media mgt (badClocks mode)).fuseLoad

theorem State.step2_eq (s : State) (owner src site build mode media mgt : Nat) : s.step2 owner src site build mode media mgt =
    if site ≠ 8 then (((s.sampled owner src site build mode media mgt).hubConflict 3).trailPut 0x07 0x0D 3 [0, 8, 3]).bootFail 0x01 3
    else if build ≠ 1 then (((s.sampled owner src site build mode media mgt).hubConflict 5).trailPut 0x07 0x0D 3 [0, 8, 5]).bootFail 0x01 5
    else if src = 3 then (s.sampled owner src site build mode media mgt).bootFail 0x02 3
    else if !s.board.variantOk then (s.sampled owner src site build mode media mgt).bootFail 0x03 0
    else (s.sampled owner src site build mode media mgt).stage4 := rfl

theorem State.sampleBoot_spec (s : State) {owner src site build : Nat} (ho : owner < 4) (hsrc : src < 4) (hsite : site < 16) (hbuild : build < 64) :
    (s.sampleBoot owner src site build).fld P.boot F.BOOT_STRAP_owner_port = owner ∧ (s.sampleBoot owner src site build).fld P.boot F.BOOT_STRAP_boot_src = src ∧
    (s.sampleBoot owner src site build).fld P.boot F.BOOT_STRAP_hub_site = site ∧ (s.sampleBoot owner src site build).fld P.boot F.BOOT_STRAP_pkg_build = build ∧
    (s.sampleBoot owner src site build).fld P.boot F.BOOT_STS_wait_push = s.fld P.boot F.BOOT_STS_wait_push ∧ (s.sampleBoot owner src site build).stage = s.stage := by
  unfold State.sampleBoot State.stage
  refine ⟨?_, ?_, ?_, ?_, ?_, ?_⟩
  · rw [State.fld_setFld_apart _ _ _ _ rfl, State.fld_setFld_apart _ _ _ _ rfl, State.fld_setFld_apart _ _ _ _ rfl]
    exact State.fld_setFld_of_lt _ _ _ ho
  · rw [State.fld_setFld_apart _ _ _ _ rfl, State.fld_setFld_apart _ _ _ _ rfl]
    exact State.fld_setFld_of_lt _ _ _ hsrc
  · rw [State.fld_setFld_apart _ _ _ _ rfl]
    exact State.fld_setFld_of_lt _ _ _ hsite
  · exact State.fld_setFld_of_lt _ _ _ hbuild
  · rw [State.fld_setFld_apart _ _ _ _ rfl, State.fld_setFld_apart _ _ _ _ rfl, State.fld_setFld_apart _ _ _ _ rfl, State.fld_setFld_apart _ _ _ _ rfl]
  · rw [State.fld_setFld_apart _ _ _ _ rfl, State.fld_setFld_apart _ _ _ _ rfl, State.fld_setFld_apart _ _ _ _ rfl, State.fld_setFld_apart _ _ _ _ rfl]

theorem State.fld_sampleHub (s : State) (owner mode media mgt bad : Nat) {pg : Nat} (hpg : pg ≠ P.hub 0) {f : Fld} (hf : f.inside = true) :
    (s.sampleHub owner mode media mgt bad).fld pg f = s.fld pg f := by
  unfold State.sampleHub
  rw [State.fld_setFld_page _ _ _ _ hpg hf rfl, State.fld_setFld_page _ _ _ _ hpg hf rfl, State.fld_setFld_page _ _ _ _ hpg hf rfl,
    State.fld_setFld_page _ _ _ _ hpg hf rfl, State.fld_setFld_page _ _ _ _ hpg hf rfl]

theorem State.owner_sampleHub (s : State) {owner : Nat} (ho : owner < 4) (mode media mgt bad : Nat) : (s.sampleHub owner mode media mgt bad).owner = owner := by
  unfold State.sampleHub State.owner
  rw [State.fld_setFld_apart _ _ _ _ rfl, State.fld_setFld_apart _ _ _ _ rfl, State.fld_setFld_apart _ _ _ _ rfl, State.fld_setFld_apart _ _ _ _ rfl]
  exact State.fld_setFld_of_lt _ _ _ ho

/-- The fields that step 2 leaves before its checks. -/
theorem State.sampled_spec (s : State) {owner src site build : Nat} (mode media mgt : Nat) (ho : owner < 4) (hsrc : src < 4) (hsite : site < 16) (hbuild : build < 64)
    (u : State) (hu : u = s.sampled owner src site build mode media mgt) :
    u.owner = owner ∧ u.fld P.boot F.BOOT_STRAP_owner_port = owner ∧ u.fld P.boot F.BOOT_STRAP_boot_src = src ∧ u.fld P.boot F.BOOT_STRAP_hub_site = site ∧
      u.fld P.boot F.BOOT_STRAP_pkg_build = build ∧ u.fld P.boot F.BOOT_STS_wait_push = s.fld P.boot F.BOOT_STS_wait_push ∧ u.stage = s.stage ∧
      u.board.bootSrc = src := by
  obtain ⟨w, hw, hboard⟩ : ∃ w : State, w = ({ s with board := s.board.strapped owner src mode media mgt } : State) ∧ w.board.bootSrc = src := ⟨_, rfl, rfl⟩
  have hregs : w.regs = s.regs := by rw [hw]
  obtain ⟨h1, h2, h3, h4, h5, h6⟩ := w.sampleBoot_spec ho hsrc hsite hbuild
  have hboot : ∀ {f : Fld}, (∀ g ∈ fusedFlds, f.apart g = true) → f.inside = true → u.fld P.boot f = (w.sampleBoot owner src site build).fld P.boot f := fun hfuse hf => by
    rw [hu, State.sampled, ← hw, State.fld_fuseLoad hfuse, State.fld_sampleHub _ _ _ _ _ _ (by decide) hf]
  refine ⟨?_, (hboot (by decide) rfl).trans h1, (hboot (by decide) rfl).trans h2, (hboot (by decide) rfl).trans h3, (hboot (by decide) rfl).trans h4,
    ((hboot (by decide) rfl).trans h5).trans (State.fld_of_regs hregs _ _), ((hboot (by decide) rfl).trans h6).trans (State.fld_of_regs hregs _ _), ?_⟩
  · rw [hu, State.sampled, ← hw, State.owner_fuseLoad]
    exact State.owner_sampleHub _ ho _ _ _ _
  · obtain ⟨_, honly⟩ := ((w.sampleBoot owner src site build).sampleHub owner mode media mgt (badClocks mode)).fuseLoad_only
    rw [hu, State.sampled, ← hw, honly]
    exact hboard

/-- The conflict that the hub's ends show and its record leave the step. -/
theorem State.stage_strapRefused (s : State) (code : Nat) (payload : List Nat) : ((s.hubConflict code).trailPut 0x07 0x0D 3 payload).stage = s.stage := by
  refine (State.fld_trailPut_page (by decide) rfl _ _ _ _ _).trans ?_
  refine State.each_keeps (fun u => u.stage = s.stage) _ _ _ (fun t _ u hu => (State.fld_setFld_page _ _ _ _ ?_ rfl rfl).trans hu) rfl
  unfold P.boot P.serHub
  omega

theorem State.stage4_spec (s : State) : s.stage4.stage = 4 ∧ s.stage4.owner = s.owner ∧
    (∀ f ∈ [F.BOOT_STRAP_owner_port, F.BOOT_STRAP_boot_src, F.BOOT_STRAP_hub_site, F.BOOT_STRAP_pkg_build], s.stage4.fld P.boot f = s.fld P.boot f) ∧
    (s.stage4.flag P.boot F.BOOT_STS_wait_push = true ↔ s.board.bootSrc = 1 ∨ s.flag P.boot F.BOOT_STS_wait_push = true) := by
  have hset : ∀ (pg : Nat) {f : Fld}, f.apart F.BOOT_STS_stage = true → (s.setStage 4).fld pg f = s.fld pg f := fun pg f hf => State.fld_setFld_apart _ _ _ _ hf
  have hstage : (s.setStage 4).stage = 4 := State.fld_setFld_of_lt _ _ _ (by decide)
  have howner : (s.setStage 4).owner = s.owner := State.fld_setFld_page _ _ _ _ (by decide) rfl rfl
  have hflds : ∀ f ∈ [F.BOOT_STRAP_owner_port, F.BOOT_STRAP_boot_src, F.BOOT_STRAP_hub_site, F.BOOT_STRAP_pkg_build],
      f.apart F.BOOT_STS_stage = true ∧ f.apart F.BOOT_STS_wait_push = true ∧ f.apart F.PG_INT_STS = true := by decide
  obtain ⟨hwait, hkeep⟩ := (s.setStage 4).waitPush_spec
  by_cases hsrc : s.board.bootSrc = 1
  · rw [show s.stage4 = (s.setStage 4).waitPush from if_pos hsrc]
    refine ⟨(hkeep _ _ rfl rfl).trans hstage, (State.owner_waitPush _).trans howner, fun f hf => ?_, fun _ => .inl hsrc, fun _ => hwait⟩
    obtain ⟨h1, h2, h3⟩ := hflds f hf
    exact (hkeep _ _ h2 h3).trans (hset _ h1)
  · rw [show s.stage4 = s.setStage 4 from if_neg hsrc]
    have hflag : (s.setStage 4).flag P.boot F.BOOT_STS_wait_push = s.flag P.boot F.BOOT_STS_wait_push := State.flag_of_fld (hset _ rfl)
    refine ⟨hstage, howner, fun f hf => hset _ (hflds f hf).1, fun h => .inr (hflag ▸ h), fun h => hflag.trans (h.resolve_left hsrc)⟩

/-! The Hamper after step 9. -/

theorem Tab.get_append {V : Type} (d : Nat → V) (l m : Tab V) (k : Nat) : Tab.get d (l ++ m) k = Tab.get (Tab.get d m) l k := by
  induction l with
  | nil => rfl
  | cons e l ih =>
    obtain ⟨j, v⟩ := e
    show (if k = j then v else Tab.get d (l ++ m) k) = if k = j then v else Tab.get (Tab.get d m) l k
    rw [ih]

/-- A table made of a value for each number of a list, shifted by `lo`. -/
theorem Tab.get_map_shift {V : Type} (d : Nat → V) (v : Nat → V) (lo : Nat) (l : List Nat) (k : Nat) :
    Tab.get d (l.map fun i => (lo + i, v i)) k = if lo ≤ k ∧ k - lo ∈ l then v (k - lo) else d k := by
  induction l with
  | nil => simp
  | cons i l ih =>
    show (if k = lo + i then v i else Tab.get d (l.map fun i => (lo + i, v i)) k) = _
    rw [ih]
    by_cases hk : k = lo + i
    · have hi : k - lo = i := by omega
      rw [if_pos hk, if_pos ⟨by omega, by rw [hi]; exact List.mem_cons_self⟩, hi]
    · rw [if_neg hk]
      refine if_congr ⟨fun h => ⟨h.1, List.mem_cons_of_mem _ h.2⟩, fun h => ⟨h.1, (List.mem_cons.1 h.2).resolve_left fun he => hk ?_⟩⟩ rfl rfl
      have := h.1
      omega

/-- The compartment map after step 9. -/
theorem comp_hmpMap {fw c : Nat} (hc : c < 4096) : (Tab.get comp0 (((List.range fw).map fun c =>
    (c, (⟨1, 0, 0, 0, false, false, false, 0⟩ : Comp))) ++ (List.range 72).map fun i =>
      (4024 + i, (⟨3, if i < 64 then 7 else 8, 0, 0, false, false, false, 0⟩ : Comp))) c).state = if c < fw then 1 else if c < 4024 then 0 else 3 := by
  have hfirst := Tab.get_map_shift (Tab.get comp0 ((List.range 72).map fun i => (4024 + i, (⟨3, if i < 64 then 7 else 8, 0, 0, false, false, false, 0⟩ : Comp))))
    (fun _ => (⟨1, 0, 0, 0, false, false, false, 0⟩ : Comp)) 0 (List.range fw) c
  have hlast := Tab.get_map_shift comp0 (fun i => (⟨3, if i < 64 then 7 else 8, 0, 0, false, false, false, 0⟩ : Comp)) 4024 (List.range 72) c
  simp only [Nat.zero_add, Nat.zero_le, Nat.sub_zero, true_and, List.mem_range] at hfirst hlast
  rw [Tab.get_append, hfirst, hlast]
  by_cases h1 : c < fw
  · rw [if_pos h1, if_pos h1]
  · rw [if_neg h1, if_neg h1]
    by_cases h2 : c < 4024
    · rw [if_neg (by omega), if_pos h2]
      rfl
    · rw [if_pos (by omega), if_neg h2]

theorem State.hmpInit_spec (s : State) (fw : Nat) :
    (∀ c, c < 4096 → ((s.hmpInit fw).comp c).state = if c < fw then 1 else if c < 4024 then 0 else 3) ∧
    (∀ a, 65536 * fw ≤ a → (s.hmpInit fw).hmp.rd a = 0) ∧ (s.hmpInit fw).stores = s.stores ∧ (s.hmpInit fw).slices = s.slices := by
  obtain ⟨m, hm⟩ : ∃ m : Mem, m.bytes = s.hmp.bytes.filter (decide <| ·.1 < 65536 * fw) ∧ ({ s with
      hmp := m, hmpPend := [], hmpClr := none
      cmap := ((List.range fw).map fun c => (c, (⟨1, 0, 0, 0, false, false, false, 0⟩ : Comp))) ++ (List.range 72).map fun i =>
        (4024 + i, (⟨3, if i < 64 then 7 else 8, 0, 0, false, false, false, 0⟩ : Comp)) } : State).FldsOnly (s.hmpInit fw) := by
    refine ⟨⟨s.hmp.bytes.filter (decide <| ·.1 < 65536 * fw), s.hmp.valid.filter (decide <| ·.1 < 1024 * fw), s.hmp.poison.filter (decide <| ·.1 < 1024 * fw)⟩,
      rfl, ?_⟩
    exact State.each_keeps _ _ _ _ (fun _ _ _ h => (h.setFld _ _ _).setFld _ _ _)
      (State.each_keeps _ _ _ _ (fun _ _ _ h => (h.setFld _ _ _).setFld _ _ _) (((State.FldsOnly.refl _).setFld _ _ _).setFld _ _ _))
  obtain ⟨hbytes, regs, hregs⟩ := hm
  rw [hregs]
  refine ⟨fun c hc => comp_hmpMap hc, fun a ha => ?_, rfl, rfl⟩
  show Tab.get byte0 m.bytes a = 0
  rw [hbytes, Tab.get_filter byte0 s.hmp.bytes (fun k => decide (k < 65536 * fw)), if_neg (by simpa using ha)]
  rfl

section
variable {s : State} (hfailed : s.flag P.boot F.BOOT_STS_failed = false)
include hfailed

theorem State.stepEnd_straps (h2 : s.stage = 2) (o b : Fin 4) (si : BitVec 4) (bu : BitVec 6) (cm : BitVec 8) (me ma : BitVec 2) :
    exec (.bringupStepEnd (.straps o b si bu cm me ma)) s = .next (s.step2 o b si.toNat bu.toNat cm.toNat me.toNat ma.toNat) :=
  congrArg Host.Outcome.next ((if_neg (by rw [hfailed]; decide)).trans (if_pos h2))

theorem completes_straps_ok (h2 : s.stage = 2) {o b : Fin 4} {si : BitVec 4} {bu : BitVec 6} (cm : BitVec 8) (me ma : BitVec 2) (hsi : si = 8) (hbu : bu = 1)
    (hb : b ≠ 3) (hv : s.board.variantOk = true) : Completes (.bringupStepEnd (.straps o b si bu cm me ma)) s fun t =>
      t.stage = 4 ∧ t.owner = o ∧ t.fld P.boot F.BOOT_STRAP_owner_port = o ∧ t.fld P.boot F.BOOT_STRAP_boot_src = b ∧
      t.fld P.boot F.BOOT_STRAP_hub_site = 8 ∧ t.fld P.boot F.BOOT_STRAP_pkg_build = 1 ∧
      (t.flag P.boot F.BOOT_STS_wait_push = true ↔ b = 1 ∨ s.flag P.boot F.BOOT_STS_wait_push = true) := by
  subst hsi
  subst hbu
  have hrun := State.stepEnd_straps hfailed h2 o b 8 1 cm me ma
  rw [State.step2_eq, if_neg (by decide), if_neg (by decide), if_neg fun h : b.val = 3 => hb (Fin.ext h), if_neg (by rw [hv]; decide)] at hrun
  obtain ⟨u, hu⟩ : ∃ u, u = s.sampled o b 8 1 cm.toNat me.toNat ma.toNat := ⟨_, rfl⟩
  obtain ⟨howner, h1, h3, h4, h5, hwait, -, hsrc⟩ := s.sampled_spec cm.toNat me.toNat ma.toNat o.isLt b.isLt (by decide) (by decide) u hu
  obtain ⟨hstage, hown, hkeep, hpush⟩ := u.stage4_spec
  refine ⟨u.stage4, hrun.trans (congrArg (fun v : State => Host.Outcome.next v.stage4) hu.symm), hstage, hown.trans howner, (hkeep _ (by simp)).trans h1,
    (hkeep _ (by simp)).trans h3, (hkeep _ (by simp)).trans h4, (hkeep _ (by simp)).trans h5, hpush.trans ?_⟩
  rw [hsrc, State.flag_of_fld hwait]
  exact or_congr ⟨fun h => Fin.ext h, fun h => congrArg Fin.val h⟩ Iff.rfl

theorem completes_straps_refused (h2 : s.stage = 2) {o b : Fin 4} {si : BitVec 4} {bu : BitVec 6} (cm : BitVec 8) (me ma : BitVec 2)
    (hbad : si ≠ 8 ∨ bu ≠ 1 ∨ b = 3 ∨ s.board.variantOk = false) : Completes (.bringupStepEnd (.straps o b si bu cm me ma)) s fun t =>
      t.flag P.boot F.BOOT_STS_failed = true ∧ t.stage = 2 ∧ t.fld P.boot F.BOOT_ERR_step = 2 ∧
      t.fld P.boot F.BOOT_ERR_code = (if si ≠ 8 ∨ bu ≠ 1 then 1 else if b = 3 then 2 else 3) ∧
      t.fld P.boot F.BOOT_ERR_detail = (if si ≠ 8 then 3 else if bu ≠ 1 then 5 else if b = 3 then 3 else 0) := by
  have hrun := State.stepEnd_straps hfailed h2 o b si bu cm me ma
  obtain ⟨u, hu⟩ : ∃ u, u = s.sampled o b si.toNat bu.toNat cm.toNat me.toNat ma.toNat := ⟨_, rfl⟩
  obtain ⟨-, -, -, -, -, -, hstage, -⟩ := s.sampled_spec cm.toNat me.toNat ma.toNat o.isLt b.isLt si.isLt bu.isLt u hu
  rw [State.step2_eq, ← hu] at hrun
  have hsite : si.toNat = 8 ↔ si = 8 := ⟨fun h => BitVec.eq_of_toNat_eq h, fun h => congrArg BitVec.toNat h⟩
  have hbuild : bu.toNat = 1 ↔ bu = 1 := ⟨fun h => BitVec.eq_of_toNat_eq h, fun h => congrArg BitVec.toNat h⟩
  have hsrc : b.val = 3 ↔ b = 3 := ⟨fun h => Fin.ext h, fun h => congrArg Fin.val h⟩
  have hstops : ∀ {v : State} {code detail : Nat}, v.stage = s.stage → code < 2 ^ 8 → detail < 2 ^ 12 → exec (.bringupStepEnd (.straps o b si bu cm me ma)) s =
      .next (v.bootFail code detail) → Completes (.bringupStepEnd (.straps o b si bu cm me ma)) s fun t => t.flag P.boot F.BOOT_STS_failed = true ∧
        t.stage = 2 ∧ t.fld P.boot F.BOOT_ERR_step = 2 ∧ t.fld P.boot F.BOOT_ERR_code = code ∧ t.fld P.boot F.BOOT_ERR_detail = detail :=
    fun hv hc hd hr => ⟨_, hr, State.bootFail_spec _ hc hd (hv.trans h2) (by decide)⟩
  by_cases h8 : si = 8
  · by_cases h1 : bu = 1
    · by_cases h3 : b = 3
      · rw [if_neg fun h : si.toNat ≠ 8 => h (hsite.2 h8), if_neg fun h : bu.toNat ≠ 1 => h (hbuild.2 h1), if_pos (hsrc.2 h3)] at hrun
        rw [if_neg (by tauto), if_pos h3, if_neg (not_not_intro h8), if_neg (not_not_intro h1), if_pos h3]
        exact hstops hstage (by decide) (by decide) hrun
      · have hv : s.board.variantOk = false := by tauto
        rw [if_neg fun h : si.toNat ≠ 8 => h (hsite.2 h8), if_neg fun h : bu.toNat ≠ 1 => h (hbuild.2 h1), if_neg fun h : b.val = 3 => h3 (hsrc.1 h), hv, if_pos (by decide)] at hrun
        rw [if_neg (by tauto), if_neg h3, if_neg (not_not_intro h8), if_neg (not_not_intro h1), if_neg h3]
        exact hstops hstage (by decide) (by decide) hrun
    · rw [if_neg fun h : si.toNat ≠ 8 => h (hsite.2 h8), if_pos fun h : bu.toNat = 1 => h1 (hbuild.1 h)] at hrun
      rw [if_pos (.inr h1), if_neg (not_not_intro h8), if_pos h1]
      exact hstops ((State.stage_strapRefused u 5 _).trans hstage) (by decide) (by decide) hrun
  · rw [if_pos fun h : si.toNat = 8 => h8 (hsite.1 h)] at hrun
    rw [if_pos (.inl h8), if_pos h8]
    exact hstops ((State.stage_strapRefused u 3 _).trans hstage) (by decide) (by decide) hrun

/-! Steps 6 to 11. -/

theorem exec_fuses_done (h6 : s.stage = 6) (hfuses : s.fusesDone = true) :
    exec (.bringupStepEnd (.fuses none)) s = .next (if s.bridgesDone then s.setStage 7 else s) := by
  refine congrArg Host.Outcome.next ((if_neg (by rw [hfailed]; decide)).trans ((if_neg (not_not_intro h6)).trans ?_))
  show s.step6 = _
  rw [State.step6, if_pos hfuses]

theorem completes_fuses_bad (h6 : s.stage = 6) (hfuses : s.fusesDone = false) (u : Fin 9) : Completes (.bringupStepEnd (.fuses (some u))) s fun t =>
    t.flag P.boot F.BOOT_STS_failed = true ∧ t.stage = 6 ∧ t.fld P.boot F.BOOT_ERR_code = 0x0B ∧ t.fld P.boot F.BOOT_ERR_detail = u :=
  completes_bootFail (by decide) (Nat.lt_trans u.isLt (by decide)) h6 (by decide) (congrArg Host.Outcome.next ((if_neg (by rw [hfailed]; decide)).trans
    ((if_neg (not_not_intro h6)).trans (if_neg (by rw [hfuses]; decide)))))

theorem completes_slices {n : Nat} (h8 : s.stage = 8) (hall : ∀ x, x < 512 → s.sliceState x ≠ 0 ∨ s.fenced (x / 64) = true)
    (hn : n = ((List.range 512).filter fun x => s.sliceServes x && !s.fenced (x / 64)).length) : Completes (.bringupStepEnd .slices) s fun t =>
      t.stage = 9 ∧ t.fld P.boot F.BOOT_MEM_slices_good = n ∧ t.fld P.boot F.BOOT_MEM_capacity_mib = 128 * n ∧ s.sameBytes t := by
  have hready : ((List.range 512).all fun x => s.sliceState x != 0 || s.fenced (x / 64)) = true := by
    refine List.all_eq_true.2 fun x hx => ?_
    simpa using hall x (List.mem_range.1 hx)
  have hle : n ≤ 512 := by
    have hlen := List.length_filter_le (fun x => s.sliceServes x && !s.fenced (x / 64)) (List.range 512)
    rw [← hn, List.length_range] at hlen
    exact hlen
  have hrun : exec (.bringupStepEnd .slices) s =
      .next (((s.setFld P.boot F.BOOT_MEM_slices_good n).setFld P.boot F.BOOT_MEM_capacity_mib (128 * n)).setStage 9) := by
    refine congrArg Host.Outcome.next ((if_neg (by rw [hfailed]; decide)).trans ((if_pos ⟨h8, hready⟩).trans ?_))
    rw [State.bootMem, ← hn]
  unfold State.setStage at hrun
  refine ⟨_, hrun, State.fld_setFld_of_lt _ _ _ (by decide), ?_, ?_, .refl s⟩
  · rw [State.fld_setFld_apart _ _ _ _ rfl, State.fld_setFld_apart _ _ _ _ rfl]
    exact State.fld_setFld_of_lt _ _ _ (by show n < 1024; omega)
  · rw [State.fld_setFld_apart _ _ _ _ rfl]
    exact State.fld_setFld_of_lt _ _ _ (by show 128 * n < 131072; omega)

theorem exec_slices_not (h : ∃ x, x < 512 ∧ s.sliceState x = 0 ∧ s.fenced (x / 64) = false) : exec (.bringupStepEnd .slices) s = .next s := by
  obtain ⟨x, hx, hst, hf⟩ := h
  refine congrArg Host.Outcome.next ((if_neg (by rw [hfailed]; decide)).trans (if_neg fun hall => ?_))
  have hone := List.all_eq_true.1 hall.2 x (List.mem_range.2 hx)
  rw [hst, hf] at hone
  exact absurd hone (by decide)

theorem completes_hamper_bad (h9 : s.stage = 9) (u : Fin 64) : Completes (.bringupStepEnd (.hamper (some u))) s fun t =>
    t.flag P.boot F.BOOT_STS_failed = true ∧ t.stage = 9 ∧ t.fld P.boot F.BOOT_ERR_code = 0x0C ∧ t.fld P.boot F.BOOT_ERR_detail = u :=
  completes_bootFail (by decide) (Nat.lt_trans u.isLt (by decide)) h9 (by decide) (congrArg Host.Outcome.next ((if_neg (by rw [hfailed]; decide)).trans
    (if_pos h9)))

theorem completes_hamper (h9 : s.stage = 9) : Completes (.bringupStepEnd (.hamper none)) s fun t => t.stage = 10 ∧
    (∀ c, c < 4096 → (t.comp c).state = (if c < 512 then 1 else if c < 4024 then 0 else 3)) ∧ (∀ a, 0x2000000 ≤ a → t.hmp.rd a = 0) ∧
    t.stores = s.stores ∧ t.slices = s.slices := by
  obtain ⟨u, hu⟩ : ∃ u, u = s.hmpInit 512 := ⟨_, rfl⟩
  obtain ⟨hcomp, hmem, hsto, hsl⟩ := s.hmpInit_spec 512
  rw [← hu] at hcomp hmem hsto hsl
  have hrun : exec (.bringupStepEnd (.hamper none)) s = .next ((u.setFld P.boot F.BOOT_FWREG_compartments 512).setStage 10) := by
    show Host.Outcome.next (s.stepEnd (.hamper none)) = _
    unfold State.stepEnd
    rw [if_neg (by rw [hfailed]; decide), hu]
    exact congrArg Host.Outcome.next (if_pos h9)
  clear hu
  exact ⟨_, hrun, State.fld_setFld_of_lt _ _ _ (by decide), hcomp, fun a ha => hmem a (by norm_num; exact ha), hsto, hsl⟩

theorem exec_cores (h11 : s.stage = 11) (hall : ∀ x, x < 512 → s.coreSt x ≠ 1 ∨ s.fenced (x / 64) = true) : exec (.bringupStepEnd .cores) s = .next (s.setStage 12) := by
  have hready : ((List.range 512).all fun x => s.coreSt x != 1 || s.fenced (x / 64)) = true := by
    refine List.all_eq_true.2 fun x hx => ?_
    simpa using hall x (List.mem_range.1 hx)
  exact congrArg Host.Outcome.next ((if_neg (by rw [hfailed]; decide)).trans (if_pos ⟨h11, hready⟩))

end

/-! Watchdogs and configuration space. -/

theorem exec_bootWatchdogExpiry_off {s : State} (h : s.flag P.boot F.BOOT_STS_failed = true ∨ s.ready = true) (w : BootWatch) :
    exec (.bootWatchdogExpiry w) s = .next s := by
  refine congrArg Host.Outcome.next (if_pos ?_)
  rcases h with h | h
  · rw [h, Bool.true_or]
  · rw [h, Bool.or_true]

section
variable {s : State} (hfailed : s.flag P.boot F.BOOT_STS_failed = false) (hready : s.ready = false)
include hfailed hready

theorem bootWatch_live : ¬ (s.flag P.boot F.BOOT_STS_failed || s.ready) = true := by
  rw [hfailed, hready]
  exact Bool.false_ne_true

theorem completes_stepWatch (h : s.stage = 2 ∨ s.stage = 12) : Completes (.bootWatchdogExpiry (if s.stage = 2 then .step2 else .step12)) s fun t =>
    t.flag P.boot F.BOOT_STS_failed = true ∧ t.fld P.boot F.BOOT_ERR_code = 0x10 ∧ t.fld P.boot F.BOOT_ERR_detail = s.stage ∧ t.stage = s.stage := by
  rcases h with h | h
  · rw [if_pos h]
    obtain ⟨t, hrun, h1, h2, h3, h4⟩ := completes_bootFail (s := s) (c := .bootWatchdogExpiry .step2) (code := 0x10) (detail := 2) (by decide) (by decide) h (by decide)
      (congrArg Host.Outcome.next ((if_neg (bootWatch_live hfailed hready)).trans (if_pos h)))
    exact ⟨t, hrun, h1, h3, h4.trans h.symm, h2.trans h.symm⟩
  · rw [if_neg (by rw [h]; decide)]
    obtain ⟨t, hrun, h1, h2, h3, h4⟩ := completes_bootFail (s := s) (c := .bootWatchdogExpiry .step12) (code := 0x10) (detail := 12) (by decide) (by decide) h (by decide)
      (congrArg Host.Outcome.next ((if_neg (bootWatch_live hfailed hready)).trans (if_pos h)))
    exact ⟨t, hrun, h1, h3, h4.trans h.symm, h2.trans h.symm⟩

theorem completes_pushWatch (h4 : s.stage = 4) (hgo : s.flag P.boot F.BOOT_PUSH_CTL_go = true) : Completes (.bootWatchdogExpiry .push) s fun t =>
    t.flag P.boot F.BOOT_PUSH_CTL_go = false ∧ t.flag P.boot F.BOOT_PUSH_CTL_busy = false ∧ t.flag P.boot F.BOOT_STS_wait_push = true ∧
    t.fld P.boot F.BOOT_ERR_code = 0x10 ∧ t.fld P.boot F.BOOT_ERR_detail = 4 ∧ t.stage = 4 := by
  obtain ⟨u, hu⟩ : ∃ u, u = ({ ((s.setFlag P.boot F.BOOT_PUSH_CTL_go false).setFlag P.boot F.BOOT_PUSH_CTL_busy false) with
    boot := { s.boot with pushHeld := false } } : State) := ⟨_, rfl⟩
  have hregs : u.regs = ((s.setFlag P.boot F.BOOT_PUSH_CTL_go false).setFlag P.boot F.BOOT_PUSH_CTL_busy false).regs := by rw [hu]
  have hrun : exec (.bootWatchdogExpiry .push) s = .next (u.waitPush.bootErr 0x10 4 4) := by
    refine congrArg Host.Outcome.next ((if_neg (bootWatch_live hfailed hready)).trans ((if_pos ⟨h4, by rw [hgo]; rfl⟩).trans ?_))
    rw [hu]
    rfl
  obtain ⟨hwait, hkeep⟩ := u.waitPush_spec
  obtain ⟨hcode, hdetail, -⟩ := u.waitPush.bootErr_spec (code := 0x10) (detail := 4) (step := 4) (by decide) (by decide)
  refine ⟨_, hrun, ?_, ?_, ?_, hcode, hdetail, ?_⟩
  · rw [State.flag_of_fld (State.fld_bootErr_other rfl rfl rfl rfl _ _ _ _), State.flag_of_fld (hkeep _ _ rfl rfl), State.flag_of_fld (State.fld_of_regs hregs _ _),
      State.flag_setFlag_apart _ _ _ rfl, State.flag_setFlag_self _ _ (by decide)]
  · rw [State.flag_of_fld (State.fld_bootErr_other rfl rfl rfl rfl _ _ _ _), State.flag_of_fld (hkeep _ _ rfl rfl), State.flag_of_fld (State.fld_of_regs hregs _ _),
      State.flag_setFlag_self _ _ (by decide)]
  · rw [State.flag_of_fld (State.fld_bootErr_other rfl rfl rfl rfl _ _ _ _), hwait]
  · rw [State.stage, State.fld_bootErr_other rfl rfl rfl rfl, hkeep _ _ rfl rfl, State.fld_of_regs hregs, State.fld_setFlag_apart _ _ _ rfl,
      State.fld_setFlag_apart _ _ _ rfl]
    exact h4

end

theorem exec_bootConfigSpaceReady {s : State} {port : Fin 4} (hup : s.linkUp port = true) (h : 4 ≤ s.stage ∨ s.flag P.boot F.BOOT_STS_failed = true) :
    exec (.bootConfigSpaceReady port) s = .next (s.setPort port { s.port port with cfgReady := true }) :=
  congrArg Host.Outcome.next (if_pos (by simpa [hup] using h))

theorem exec_bootConfigSpaceReady_not {s : State} {port : Fin 4} (h : s.linkUp port = false ∨ (s.stage < 4 ∧ s.flag P.boot F.BOOT_STS_failed = false)) :
    exec (.bootConfigSpaceReady port) s = .next s := by
  refine congrArg Host.Outcome.next (if_neg ?_)
  rcases h with h | ⟨h1, h2⟩
  · simp [h]
  · simp [h1, h2]

/-! Pushed boot. -/

/-- A push read is in progress and not yet issued. -/
def State.pushOn (s : State) : State :=
  { ((s.setFlag P.boot F.BOOT_STS_wait_push false).setFlag P.boot F.BOOT_PUSH_CTL_go true) with boot := { s.boot with pushHeld := true } }

theorem State.pushOn_spec (s : State) : s.pushOn.flag P.boot F.BOOT_PUSH_CTL_go = true ∧ s.pushOn.flag P.boot F.BOOT_STS_wait_push = false ∧
    s.pushOn.boot.pushHeld = true ∧ s.pushOn.outs = s.outs ∧ s.sameBytes s.pushOn ∧ s.pushOn.owner = s.owner ∧ s.pushOn.ports = s.ports ∧
    ∀ (pg : Nat) (f : Fld), f.apart F.BOOT_STS_wait_push = true → f.apart F.BOOT_PUSH_CTL_go = true → s.pushOn.fld pg f = s.fld pg f := by
  obtain ⟨w, hw⟩ : ∃ w, w = (s.setFlag P.boot F.BOOT_STS_wait_push false).setFlag P.boot F.BOOT_PUSH_CTL_go true := ⟨_, rfl⟩
  have hregs : s.pushOn.regs = w.regs := by rw [hw]; rfl
  refine ⟨?_, ?_, rfl, rfl, .refl s, ?_, rfl, fun pg f h1 h2 => ?_⟩
  · rw [State.flag_of_fld (State.fld_of_regs hregs _ _), hw, State.flag_setFlag_self _ _ (by decide)]
  · rw [State.flag_of_fld (State.fld_of_regs hregs _ _), hw, State.flag_setFlag_apart _ _ _ rfl, State.flag_setFlag_self _ _ (by decide)]
  · rw [State.owner, State.fld_of_regs hregs, hw]
    exact (State.fld_setFld_page _ _ _ _ (by decide) rfl rfl).trans (State.fld_setFld_page _ _ _ _ (by decide) rfl rfl)
  · rw [State.fld_of_regs hregs, hw, State.fld_setFlag_apart _ _ _ h2, State.fld_setFlag_apart _ _ _ h1]

section
variable {s : State} {rq : Requester} (hg : s.grants rq P.boot = true)
include hg

theorem exec_bootPushGo : exec (.bootPushGo rq) s = .next s.pushGo := congrArg Host.Outcome.next (State.privWrite_of_grants hg _ _)

theorem exec_bootPushGo_not (hwait : s.flag P.boot F.BOOT_STS_wait_push = false) : exec (.bootPushGo rq) s = .next s := by
  rw [exec_bootPushGo hg, State.pushGo, if_pos (by rw [hwait, Bool.not_false, Bool.or_true])]

variable (hbusy : s.flag P.boot F.BOOT_PUSH_CTL_busy = false) (hwait : s.flag P.boot F.BOOT_STS_wait_push = true)
include hbusy hwait

theorem exec_bootPushGo_on (hn : s.fld P.boot F.BOOT_PUSH_LEN_len ≤ 0x4000000) : exec (.bootPushGo rq) s = .next s.pushOn.pushIssue := by
  rw [exec_bootPushGo hg, State.pushGo, if_neg (by rw [hbusy, hwait]; decide), if_neg (Nat.not_lt.2 hn)]
  rfl

theorem completes_push_held (hn : s.fld P.boot F.BOOT_PUSH_LEN_len ≤ 0x4000000) (hd3 : (s.port s.owner).d3 = true) : Completes (.bootPushGo rq) s fun t =>
    t.flag P.boot F.BOOT_PUSH_CTL_go = true ∧ t.flag P.boot F.BOOT_STS_wait_push = false ∧ t.boot.pushHeld = true ∧ t.outs = s.outs ∧ s.sameBytes t := by
  have hrun := exec_bootPushGo_on hg hbusy hwait hn
  obtain ⟨h1, h2, h3, h4, h5, howner, hports, -⟩ := s.pushOn_spec
  generalize s.pushOn = u at hrun h1 h2 h3 h4 h5 howner hports
  have hd3' : (u.port u.owner).d3 = true := by
    rw [State.port, hports, howner]
    exact hd3
  rw [State.pushIssue, if_neg (by rw [hd3', Bool.not_true, Bool.and_false]; decide)] at hrun
  exact ⟨u, hrun, h1, h2, h3, h4, h5⟩

theorem completes_push_read (hn : s.fld P.boot F.BOOT_PUSH_LEN_len ≤ 0x4000000) (hd3 : (s.port s.owner).d3 = false) : Completes (.bootPushGo rq) s fun t =>
    t.flag P.boot F.BOOT_PUSH_CTL_go = true ∧ t.flag P.boot F.BOOT_STS_wait_push = false ∧ t.boot.pushHeld = false ∧
    t.outs = .dmaRead s.owner none (s.fld64 P.boot F.BOOT_PUSH_ADDR_LO_addr F.BOOT_PUSH_ADDR_HI_addr / 4096 * 4096) (s.fld P.boot F.BOOT_PUSH_LEN_len) :: s.outs ∧
    s.sameBytes t := by
  have hrun := exec_bootPushGo_on hg hbusy hwait hn
  obtain ⟨h1, h2, h3, h4, h5, howner, hports, hkeep⟩ := s.pushOn_spec
  generalize s.pushOn = u at hrun h1 h2 h3 h4 h5 howner hports hkeep
  have hd3' : (u.port u.owner).d3 = false := by
    rw [State.port, hports, howner]
    exact hd3
  have haddr : u.fld64 P.boot F.BOOT_PUSH_ADDR_LO_addr F.BOOT_PUSH_ADDR_HI_addr = s.fld64 P.boot F.BOOT_PUSH_ADDR_LO_addr F.BOOT_PUSH_ADDR_HI_addr := by
    rw [State.fld64, hkeep _ _ rfl rfl, hkeep _ _ rfl rfl, State.fld64]
  rw [State.pushIssue, if_pos (by rw [h3, h1, hd3']; rfl), haddr, hkeep _ F.BOOT_PUSH_LEN_len rfl rfl, howner] at hrun
  refine ⟨_, hrun, h1, h2, rfl, ?_, h5⟩
  rw [← h4]
  rfl

theorem completes_push_refused (hn : 0x4000000 < s.fld P.boot F.BOOT_PUSH_LEN_len) : Completes (.bootPushGo rq) s fun t =>
    t.fld P.boot F.BOOT_ERR_code = 5 ∧ t.fld P.boot F.BOOT_ERR_detail = 1 ∧ t.flag P.boot F.BOOT_STS_wait_push = true := by
  have hrun := exec_bootPushGo hg
  rw [State.pushGo, if_neg (by rw [hbusy, hwait]; decide), if_pos hn] at hrun
  obtain ⟨h1, h2, -⟩ := s.bootErr_spec (code := 5) (detail := 1) (step := s.stage) (by decide) (by decide)
  exact ⟨_, hrun, h1, h2, (State.flag_of_fld (State.fld_bootErr_other rfl rfl rfl rfl _ _ _ _)).trans hwait⟩

end

/-- An accepted image leaves the push controls alone. -/
theorem State.acceptStage1_go (s : State) (k src : Nat) (md : Medium) (m : Image) :
    (s.acceptStage1 k src md m).fld P.boot F.BOOT_PUSH_CTL_go = s.fld P.boot F.BOOT_PUSH_CTL_go := by
  obtain ⟨u, hu⟩ : ∃ u : State, u = { s with boot := { s.boot with stage1 := some m.accepted, medium := some md, alt := false } } := ⟨_, rfl⟩
  have hregs : u.regs = s.regs := by rw [hu]
  unfold State.acceptStage1
  dsimp only
  rw [← hu]
  refine (State.stage5_shows _ P.boot _ (by decide) rfl).trans ?_
  rw [State.setStage, State.fld_setFld_apart _ _ _ _ rfl, State.fld_setFld_page _ _ _ _ (by decide) rfl rfl, State.fld_setFld_apart _ _ _ _ rfl,
    State.fld_setFld_apart _ _ _ _ rfl, State.fld_setFld_apart _ _ _ _ rfl, State.fld_of_regs hregs]

theorem completes_bootPushReadDone {s s1 u : State} {md : Medium} {k : Nat} {im : Image} (hgo : s.flag P.boot F.BOOT_PUSH_CTL_go = true)
    (hheld : s.boot.pushHeld = false) (hstage : s.stage < 10) (hs1 : s1 = (s.setFlag P.boot F.BOOT_PUSH_CTL_go false).setFlag P.boot F.BOOT_PUSH_CTL_busy false)
    (hpick : s1.pickImage 1 (stage1s (md.take (s.fld P.boot F.BOOT_PUSH_LEN_len))) = (u, [], some (k, im))) (hk : k < 2) (hv : im.fwVersion < 2 ^ 32) :
    Completes (.bootPushReadDone md) s fun t => t.flag P.boot F.BOOT_PUSH_CTL_go = false ∧ t.flag P.boot F.BOOT_PUSH_CTL_busy = false ∧ t.stage = 5 ∧
      t.fld P.boot F.BOOT_STS_slot = k ∧ t.fld P.boot F.BOOT_STS_src = 1 ∧ t.fld P.boot F.BOOT_FW_VER_fw_version = im.fwVersion := by
  have hstage' : s1.stage < 10 := by
    rw [hs1, State.stage, State.fld_setFlag_apart _ _ _ (by decide), State.fld_setFlag_apart _ _ _ (by decide)]
    exact hstage
  have hregs : u.regs = s1.regs := by
    have h := s1.pickImage_regs 1 (stage1s (md.take (s.fld P.boot F.BOOT_PUSH_LEN_len)))
    rw [hpick] at h
    exact h
  have hread : s.pushDone (md.take (s.fld P.boot F.BOOT_PUSH_LEN_len)) 1 = u.acceptStage1 k 1 (md.take (s.fld P.boot F.BOOT_PUSH_LEN_len)) im := by
    rw [State.pushDone, ← hs1]
    dsimp only
    rw [if_pos hstage', State.mediumRead, hpick]
    rfl
  obtain ⟨h5, hslot, hsrc, hver, hpush⟩ := u.acceptStage1_shows hk (src := 1) (by decide) (md.take (s.fld P.boot F.BOOT_PUSH_LEN_len)) hv
  refine ⟨_, congrArg Host.Outcome.next ((if_pos (by rw [hgo, hheld]; rfl)).trans hread), ?_, ?_, h5, hslot, hsrc, hver⟩
  · rw [State.flag_of_fld (u.acceptStage1_go _ _ _ _), State.flag_of_fld (State.fld_of_regs hregs _ _), hs1, State.flag_setFlag_apart _ _ _ rfl,
      State.flag_setFlag_self _ _ (by decide)]
  · rw [State.flag_of_fld hpush, State.flag_of_fld (State.fld_of_regs hregs _ _), hs1, State.flag_setFlag_self _ _ (by decide)]

/-! The obligation. -/

/-- Settles O28: each end of a bring-up step, each watchdog and each part of a push is one equation of its command, read off through the fields it sets. -/
theorem bringupAndPush : Obligations.BringupAndPush := by
  unfold Obligations.BringupAndPush
  refine ⟨fun s hfailed => ⟨fun o b si bu cm me ma h2 v hv => ⟨fun hsi hbu hb hok => completes_straps_ok hfailed h2 cm me ma hsi hbu hb (hv ▸ hok),
      fun hbad => completes_straps_refused hfailed h2 cm me ma (hv ▸ hbad)⟩, fun h6 hf hb => ?fusesDone, fun h6 hf hb => ?fusesWait,
      fun u h6 hf => completes_fuses_bad hfailed h6 hf u, fun h8 => ⟨fun hall n hn => completes_slices hfailed h8 hall hn, exec_slices_not hfailed⟩,
      fun u h9 => completes_hamper_bad hfailed h9 u, completes_hamper hfailed, fun h11 hall => ⟨_, exec_cores hfailed h11 hall, rfl⟩⟩,
    fun s rq port m => ⟨completes_stepWatch, completes_pushWatch, fun w h => exec_bootWatchdogExpiry_off h w,
      fun hup h => ⟨_, exec_bootConfigSpaceReady hup h, rfl⟩, exec_bootConfigSpaceReady_not, fun hg hbusy hwait n hn => ?push, exec_bootPushGo_not,
      fun hgo hheld hstage s1 k im u hs1 hpick hk hv => completes_bootPushReadDone hgo hheld hstage hs1 hpick hk hv, fun h => ?notReading⟩⟩
  case fusesDone =>
    refine ⟨_, exec_fuses_done hfailed h6 hf, ?_⟩
    rw [hb, if_pos rfl]
  case fusesWait =>
    rw [exec_fuses_done hfailed h6 hf, hb, if_neg Bool.false_ne_true]
  case push =>
    subst hn
    exact ⟨completes_push_held hg hbusy hwait, completes_push_read hg hbusy hwait, fun hlen => completes_push_refused hg hbusy hwait hlen⟩
  case notReading =>
    refine congrArg Host.Outcome.next (if_neg ?_)
    rcases h with h | h
    · simp [h]
    · simp [h]

end Sys2Proof.Machine
end

section
/-! Cancels, bindings and the phases of a tenant reset (06 R129, R130, R141, R149, R435; 14 R342). -/
namespace Sys2Proof.Machine

/-! Cancels. -/

/-- The descriptors of queue q that a cancel of a tag covers. -/
def State.cancels (s : State) (n q tag : Nat) : List Desc :=
  (s.queue n q).fetched.filter fun d => d.tag == tag && match d.st with | .ended _ _ => false | _ => true

/-- A cancel of tenant n is in progress and waits for the jobs in `nums` alone. -/
def State.cancelling (s : State) (n q found : Nat) (nums : List Nat) : State :=
  (s.setFld (P.ten n 0) F.TN_CANCEL_RES_found found).setTen n { s.ten n with cancel := some ⟨q, none, nums⟩ }

/-- A cancel tells the descriptors `ds`, and waits for those of them that run. -/
def State.cancelRun (s : State) (n q : Nat) (ds : List Desc) : State :=
  let w := s.each ds fun d s => s.cancelDesc n q d
  (w.cancelling n q ds.length (((w.queue n q).fetched.filter fun d => d.st == .running && ds.any (·.num == d.num)).map (·.num))).cancelMore n q

/-- The state with the command's fields. -/
def State.cancelCmd (s : State) (n q : Nat) : State := (s.setFld (P.ten n 0) F.TN_CANCEL_CMD_queue q).setFlag (P.ten n 0) F.TN_CANCEL_CMD_all false

theorem State.cancels_cancelCmd (s : State) (n q tag : Nat) : (s.cancelCmd n q).cancels n q tag = s.cancels n q tag := rfl

section
variable {s : State} {n : Nat}

theorem State.cancel_off (h : s.tnState n = 3 ∨ (s.ten n).cancel ≠ none) (q : Nat) (all : Bool) : s.cancel n q all = s := by
  refine if_pos ?_
  rcases h with h | h
  · rw [h]
    rfl
  · rw [Option.isSome_iff_ne_none.2 h, Bool.or_true]

/-- A cancel of a tag: its fields, then the descriptors it covers. -/
theorem State.cancel_eq (h3 : s.tnState n ≠ 3) (hc : (s.ten n).cancel = none) (q : Nat) :
    s.cancel n q false = (s.cancelCmd n q).cancelRun n q (s.cancels n q (s.fld (P.ten n 0) F.TN_CANCEL_TAG_tag)) := by
  have hidle : ¬ (s.tnState n == 3 || (s.ten n).cancel.isSome) = true := by
    rw [hc]
    simpa using h3
  rw [← State.cancels_cancelCmd]
  unfold State.cancel
  rw [if_neg hidle]
  simp only [Bool.false_or, Bool.false_and, Bool.false_eq_true, if_false]
  rfl

/-- What a cancel of a tag does once its descriptors are told. -/
theorem State.cancelMore_cancelling (s : State) (n q found : Nat) (nums : List Nat) :
    (s.cancelling n q found nums).cancelMore n q = (s.cancelling n q found nums).cancelEnd n := by
  have hten : ((s.cancelling n q found nums).ten n).cancel = some ⟨q, none, nums⟩ := congrArg TenSt.cancel (State.ten_setTen_self _ n _)
  have hfetch : (s.cancelling n q found nums).cancelFetch n q 4096 = s.cancelling n q found nums := by
    rw [State.cancelFetch, hten]
    simp
  rw [State.cancelMore, hfetch]

theorem State.cancelEnd_done (s : State) (n q found : Nat) : (s.cancelling n q found []).cancelEnd n =
    ((s.cancelling n q found []).setTen n { (s.cancelling n q found []).ten n with cancel := none }).event (P.ten n 0) 2 := by
  have hten : ((s.cancelling n q found []).ten n).cancel = some ⟨q, none, []⟩ := congrArg TenSt.cancel (State.ten_setTen_self _ n _)
  rw [State.cancelEnd, hten]
  simp

end

section
variable {s : State} {rq : Requester} {n : Fin 128} {q : Fin 8} (hg : s.grantsTen rq n 0 = true)
include hg

theorem exec_tenantCancel (all : Bool) : exec (.tenantCancel rq n q all) s = .next (s.cancel n q all) :=
  congrArg Host.Outcome.next (State.tenWrite_of_grants hg _ _)

variable (h3 : s.tnState n ≠ 3) (hc : (s.ten n).cancel = none) {ds : List Desc} (hds : ds = s.cancels n q (s.fld (P.ten n 0) F.TN_CANCEL_TAG_tag))
include h3 hc hds

theorem completes_cancel_found (hlen : ds.length < 4096) : Completes (.tenantCancel rq n q false) s fun t => t.fld (P.ten n 0) F.TN_CANCEL_RES_found = ds.length := by
  have hcancel := State.cancel_eq h3 hc q
  rw [← hds, State.cancelRun] at hcancel
  generalize ((s.cancelCmd n q).each ds fun d s => s.cancelDesc n q d) = w at hcancel
  rw [State.cancelMore_cancelling] at hcancel
  refine ⟨_, (exec_tenantCancel hg false).trans (congrArg _ hcancel), ?_⟩
  beta_reduce
  rw [(State.cancelEnd_keeps _ n).2 _ _ rfl]
  exact State.fld_setFld_of_lt w _ _ (Nat.lt_trans hlen (by decide))

theorem completes_cancel_none (hnone : ds = []) : Completes (.tenantCancel rq n q false) s fun t => t.queues = s.queues ∧ t.jobs = s.jobs ∧ s.sameBytes t ∧
    (t.ten n).cancel = none ∧ bitOf (t.fld (P.ten n 0) F.PG_INT_STS) 2 = true := by
  have hcancel := State.cancel_eq h3 hc q
  have honly : s.FldsOnly (s.cancelCmd n q) := ((State.FldsOnly.refl s).setFld _ _ _).setFld _ _ _
  rw [← hds, hnone, State.cancelRun, State.each_nil] at hcancel
  generalize s.cancelCmd n q = w at hcancel honly
  have hnums : ((w.queue n q).fetched.filter fun d => d.st == .running && ([] : List Desc).any (·.num == d.num)) = [] := by simp
  rw [hnums, List.map_nil, State.cancelMore_cancelling, State.cancelEnd_done] at hcancel
  obtain ⟨_, hregs⟩ := honly
  obtain ⟨v, hv⟩ : ∃ v : State, v = w.cancelling n q ([] : List Desc).length [] := ⟨_, rfl⟩
  have hkeep : v.queues = s.queues ∧ v.jobs = s.jobs ∧ s.sameBytes v := by
    rw [hv, hregs]
    exact ⟨rfl, rfl, .refl s⟩
  rw [← hv] at hcancel
  refine ⟨_, (exec_tenantCancel hg false).trans (congrArg _ hcancel), ?_, ?_, ?_, ?_, State.bit_event _ _ (by decide)⟩
  · rw [State.event_queues]
    exact hkeep.1
  · rw [State.event_jobs]
    exact hkeep.2.1
  · exact hkeep.2.2.trans ((State.RegsOnly.event (v.setTen n { v.ten n with cancel := none }) _ _).sameBytes)
  · rw [State.ten_event]
    exact congrArg TenSt.cancel (State.ten_setTen_self v n _)

end

/-! The start of a tenant reset. -/

/-- No field of a page from `m` on differs. -/
def State.PagesFrom (m : Nat) (s t : State) : Prop := ∀ (pg : Nat) (f : Fld), m ≤ pg → f.inside = true → t.fld pg f = s.fld pg f

section
variable {m : Nat} {s t u : State}

theorem State.PagesFrom.refl (m : Nat) (s : State) : State.PagesFrom m s s := fun _ _ _ _ => rfl

theorem State.PagesFrom.trans (h1 : State.PagesFrom m s t) (h2 : State.PagesFrom m t u) : State.PagesFrom m s u :=
  fun pg f hp hf => (h2 pg f hp hf).trans (h1 pg f hp hf)

theorem State.PagesFrom.of_regs (h : t.regs = s.regs) : State.PagesFrom m s t := fun pg f _ _ => State.fld_of_regs h pg f

theorem State.PagesFrom.setFld (s : State) {q : Nat} (hq : q < m) {g : Fld} (hg : g.inside = true) (v : Nat) : State.PagesFrom m s (s.setFld q g v) :=
  fun _ _ hp hf => State.fld_setFld_page _ _ _ _ (by omega) hf hg

theorem State.PagesFrom.each {α : Type} {l : List α} {g : α → State → State} (h : ∀ a ∈ l, ∀ u : State, State.PagesFrom m u (g a u)) :
    State.PagesFrom m s (s.each l g) :=
  State.each_keeps (fun u => State.PagesFrom m s u) s l g (fun a ha u hu => hu.trans (h a ha u)) (.refl m s)

theorem State.PagesFrom.ite {c : Prop} [Decidable c] (h1 : State.PagesFrom m s t) (h2 : State.PagesFrom m s u) : State.PagesFrom m s (if c then t else u) := by
  split
  · exact h1
  · exact h2

end

theorem vcState_inside : ∀ k, k < 16 → (F.VCE_SS_STS_state k).inside = true := by decide

theorem State.stopJobs_regs (s : State) (ks : List Nat) (a b : Nat) : (s.stopJobs ks a b).regs = s.regs := by
  refine State.each_keeps (fun u => u.regs = s.regs) s ks _ (fun k _ u hu => ?_) rfl
  unfold State.stopJob
  dsimp only
  split
  · exact hu
  · exact hu

theorem State.skPut_regs (s : State) (k off : Nat) (bs : List Byte) : (s.skPut k off bs).regs = s.regs := by
  refine State.each_keeps (fun u => u.regs = s.regs) s _ _ (fun g _ u hu => ?_) rfl
  split
  · exact hu
  · exact hu

theorem State.skTransmit_regs (s : State) (m : SkSend) : (s.skTransmit m).regs = s.regs := by
  unfold State.skTransmit
  dsimp only
  split
  · rfl
  · split <;> rfl

theorem State.setSkState_from (s : State) {k : Nat} (hk : k < 512) (st : Nat) : State.PagesFrom 0x400 s (s.setSkState k st) := by
  unfold State.setSkState
  dsimp only
  refine State.PagesFrom.ite (.refl _ s) ?_
  have hpage : P.stream k < 0x400 := by
    unfold P.stream
    omega
  exact ((State.PagesFrom.setFld s hpage (skState_inside _ (Nat.mod_lt _ (by decide))) st).trans (.setFld _ (by decide) (by decide) _)).trans
    (.of_regs (State.skPut_regs _ _ _ _))

/-- The streams of a tenant halt: nothing of a tenant's own window is written. -/
theorem State.skTenantStart_from (s : State) (n : Nat) : State.PagesFrom 0x400 s (s.skTenantStart n) := by
  refine .each fun k hk u => .ite (.refl _ u) ?_
  have hk512 : k < 512 := List.mem_range.1 (List.mem_filter.1 hk).1
  refine (u.setSkState_from hk512 5).trans (.of_regs ?_)
  generalize u.setSkState k 5 = v
  have hcontrol : (v.skControl k 2).regs = v.regs := State.skTransmit_regs _ _
  unfold State.skPfcOn
  split
  · exact hcontrol
  · exact hcontrol

/-- The codec sessions of a tenant abandon their pictures. -/
theorem State.vcTenantStart_from (s : State) (n : Nat) : State.PagesFrom 0x400 s (s.vcTenantStart n) := by
  refine .each fun i hi u => .ite (.of_regs rfl) ?_
  have hi64 : i < 64 := List.mem_range.1 (List.mem_filter.1 hi).1
  have hsession : vcPg i < 0x400 := by
    unfold vcPg P.vce
    omega
  have hengines : State.PagesFrom 0x400 u (((u.setVc i { u.vc i with run := none, stall := none, ended := [] }).vcReserve i false).each
      (maskEngines (((u.setVc i { u.vc i with run := none, stall := none, ended := [] }).vcReserve i false).vcMask i))
      fun e s => if s.engine e = 1 then (s.setEngine e 0).setFld (P.vce e 0) F.VCE_STS_session 0 else s) := by
    refine State.PagesFrom.trans (.of_regs rfl) (.each fun e he v => .ite ?_ (.refl _ v))
    have hengine : P.vce e 0 < 0x400 := by
      have := List.mem_range.1 (List.mem_filter.1 he).1
      unfold P.vce
      omega
    exact (State.PagesFrom.setFld v hengine (by decide) _).trans (.setFld _ hengine (by decide) _)
  dsimp only
  exact .ite (hengines.trans (.setFld _ hsession (vcState_inside _ (Nat.mod_lt _ (by decide))) _)) hengines

theorem State.hpcStop_from (s : State) {h : Nat} (hh : h < 16) (cause : Nat) : State.PagesFrom 0x400 s (s.hpcStop h cause) := by
  have hpage : P.hpc h < 0x400 := by
    unfold P.hpc
    omega
  refine .ite ?_ (.refl _ s)
  exact State.PagesFrom.trans (.of_regs rfl) (State.PagesFrom.setFld { s with hpcCause := Tab.set nat0 s.hpcCause h cause } hpage (by decide) 5)

/-- The context of tenant n enters RESETTING with its next epoch. -/
def State.tnResetting (s : State) (n : Nat) : State :=
  ((s.setTnState n 3).setFld (P.ten n 0) F.TN_STS_epoch (if (s.epoch n + 1) % 65536 = 0 then 1 else (s.epoch n + 1) % 65536)).setFlag (P.ten n 0) F.TN_CTL_reset true

theorem State.tnResetting_spec (s : State) (n : Nat) : (s.tnResetting n).tnState n = 3 ∧
    (s.tnResetting n).epoch n = (if (s.epoch n + 1) % 65536 = 0 then 1 else (s.epoch n + 1) % 65536) ∧ (s.tnResetting n).flag (P.ten n 0) F.TN_CTL_reset = true := by
  have hlt : (if (s.epoch n + 1) % 65536 = 0 then 1 else (s.epoch n + 1) % 65536) < 2 ^ 16 := by
    split <;> omega
  unfold State.tnResetting State.setTnState
  refine ⟨?_, ?_, State.flag_setFlag_self _ _ (by decide) _⟩
  · rw [State.tnState, State.fld_setFlag_apart _ _ _ rfl, State.fld_setFld_apart _ _ _ _ rfl]
    exact State.fld_setFld_of_lt _ _ _ (by decide)
  · rw [State.epoch, State.fld_setFlag_apart _ _ _ rfl]
    exact State.fld_setFld_of_lt _ _ _ hlt

/-- What the start of a tenant reset leaves of the tenant's window. -/
theorem State.tnQuiesce_from (s : State) (n scope : Nat) (function : Bool) : State.PagesFrom 0x400 (s.tnResetting n) (s.tnQuiesce n scope function) := by
  unfold State.tnQuiesce
  dsimp only
  rw [show ((s.setTnState n 3).setFld (P.ten n 0) F.TN_STS_epoch (if (s.epoch n + 1) % 65536 = 0 then 1 else (s.epoch n + 1) % 65536)).setFlag (P.ten n 0)
    F.TN_CTL_reset true = s.tnResetting n from rfl]
  generalize s.tnResetting n = u
  have hten : ∀ v : TenSt, State.PagesFrom 0x400 u (u.setTen n v) := fun v => .of_regs rfl
  have hstop : ∀ w : State, State.PagesFrom 0x400 w (w.stopJobs (w.jobsWhere fun j => j.tn == n) 8 scope) := fun w => .of_regs (State.stopJobs_regs _ _ _ _)
  have hunits : ∀ w : State, State.PagesFrom 0x400 w ((w.skTenantStart n).vcTenantStart n) := fun w =>
    (w.skTenantStart_from n).trans (State.vcTenantStart_from _ n)
  have hhpcs : ∀ w : State, State.PagesFrom 0x400 w (w.each ((List.range 16).filter fun h => w.hpcGranted h && w.hpcTenant h == n) fun h s => s.hpcStop h 5) :=
    fun w => .each fun h hh v => v.hpcStop_from (List.mem_range.1 (List.mem_filter.1 hh).1) 5
  exact (((hten _).trans (hstop _)).trans (hunits _)).trans (hhpcs _)

section
variable {s : State} {rq : Requester} {n : Fin 128} (hg : s.grantsTen rq n 0 = true)
include hg

theorem exec_tenantResetCmd : exec (.tenantResetCmd rq n) s = .next (s.tnTrigger n false) := congrArg Host.Outcome.next (State.tenWrite_of_grants hg _ _)

theorem exec_tenantResetCmd_not (h : s.bound n = false ∨ s.inShutdown = true) : exec (.tenantResetCmd rq n) s = .next s := by
  refine (exec_tenantResetCmd hg).trans (congrArg _ (if_pos ?_))
  rcases h with h | h
  · rw [h]
    rfl
  · rw [h, Bool.or_true]

theorem completes_tenantResetCmd (hbound : s.bound n = true) (hcool : s.inShutdown = false) (hfree : s.tnInReset n = false) (h4 : s.tnState n ≠ 4) :
    Completes (.tenantResetCmd rq n) s fun t => t.rsts = ⟨5, n, s.now, false, false, false, 0, false⟩ :: s.rsts ∧ t.tnState n = 3 ∧
      t.epoch n = (if (s.epoch n + 1) % 65536 = 0 then 1 else (s.epoch n + 1) % 65536) ∧ t.flag (P.ten n 0) F.TN_CTL_reset = true := by
  have htrigger : s.tnTrigger n false = { s.tnQuiesce n 5 false with rsts := ⟨5, n, s.now, false, false, false, 0, false⟩ :: s.rsts } := by
    unfold State.tnTrigger
    rw [if_neg (by rw [hbound, hcool]; decide), if_neg (by rw [hfree]; decide), if_neg h4]
  have hkeep := s.tnQuiesce_from n 5 false
  obtain ⟨hst, hepoch, hctl⟩ := s.tnResetting_spec n
  have hpage : 0x400 ≤ P.ten n 0 := by
    unfold P.ten
    omega
  generalize s.tnQuiesce n 5 false = u at htrigger hkeep
  exact ⟨_, (exec_tenantResetCmd hg).trans (congrArg _ htrigger), rfl, (hkeep _ _ hpage (by decide)).trans hst, (hkeep _ _ hpage (by decide)).trans hepoch,
    (State.flag_of_fld (hkeep _ _ hpage (by decide))).trans hctl⟩

end

/-! Bindings. -/

/-- A field of the binding of tenant n. -/
def bindAt (n lo len : Nat) : Fld := ⟨0x040 + 4 * n, lo, len⟩

theorem bindAt_apart {n m : Nat} (hn : n < 128) (hm : m < 128) {a b : Nat} (hab : a < 32 ∧ b < 32) (hne : n ≠ m ∨ a ≠ b) (la lb : Nat) :
    (bindAt n a la).apart (bindAt m b lb) = true := by
  unfold Fld.apart bindAt
  simp
  omega

theorem bindAt_inside {n : Nat} (hn : n < 128) {a : Nat} (ha : a < 32) (la : Nat) : (bindAt n a la).inside = true := by
  unfold Fld.inside bindAt
  simp
  omega

/-- The fields of a binding take written values. -/
def State.bindPut (s : State) (n v : Nat) : State :=
  (((((s.setFld (P.disp 1) (bindAt n 0 6) (bits v 0 6)).setFld (P.disp 1) (bindAt n 6 2) (bits v 6 2)).setFld (P.disp 1) (bindAt n 8 3) (bits v 8 3)).setFld
    (P.disp 1) (bindAt n 11 4) (bindWeight v)).setFld (P.disp 1) (bindAt n 15 1) (bits v 15 1)).setFld (P.disp 1) (bindAt n 16 1) (bits v 16 1)

theorem bits_lt_pow (v lo len : Nat) : bits v lo len < 2 ^ len := Nat.mod_lt _ (Nat.two_pow_pos len)

/-- What a written binding reads. -/
theorem State.bindPut_spec (s : State) {n : Nat} (hn : n < 128) (v : Nat) : (s.bindPut n v).fld (P.disp 1) (bindAt n 0 6) = bits v 0 6 ∧
    (s.bindPut n v).fld (P.disp 1) (bindAt n 6 2) = bits v 6 2 ∧ (s.bindPut n v).fld (P.disp 1) (bindAt n 8 3) = bits v 8 3 ∧
    (s.bindPut n v).fld (P.disp 1) (bindAt n 15 1) = bits v 15 1 ∧ (s.bindPut n v).fld (P.disp 1) (bindAt n 16 1) = bits v 16 1 := by
  have hset : ∀ {a b : Nat}, a < 32 ∧ b < 32 ∧ a ≠ b → ∀ (la lb : Nat) (u : State) (x : Nat),
      (u.setFld (P.disp 1) (bindAt n b lb) x).fld (P.disp 1) (bindAt n a la) = u.fld (P.disp 1) (bindAt n a la) := fun h la lb u x =>
    State.fld_setFld_apart _ _ _ _ (bindAt_apart hn hn ⟨h.1, h.2.1⟩ (.inr h.2.2) la lb)
  unfold State.bindPut
  refine ⟨?_, ?_, ?_, ?_, State.fld_setFld_of_lt _ _ _ (bits_lt_pow _ _ _)⟩
  · rw [hset (by decide), hset (by decide), hset (by decide), hset (by decide), hset (by decide)]
    exact State.fld_setFld_of_lt _ _ _ (bits_lt_pow _ _ _)
  · rw [hset (by decide), hset (by decide), hset (by decide), hset (by decide)]
    exact State.fld_setFld_of_lt _ _ _ (bits_lt_pow _ _ _)
  · rw [hset (by decide), hset (by decide), hset (by decide)]
    exact State.fld_setFld_of_lt _ _ _ (bits_lt_pow _ _ _)
  · rw [hset (by decide)]
    exact State.fld_setFld_of_lt _ _ _ (bits_lt_pow _ _ _)

theorem State.bindPut_other (s : State) {n m : Nat} (hn : n < 128) (hm : m < 128) (hne : m ≠ n) (v : Nat) {a : Nat} (ha : a < 32) (la : Nat) :
    (s.bindPut n v).fld (P.disp 1) (bindAt m a la) = s.fld (P.disp 1) (bindAt m a la) := by
  have hset : ∀ {b : Nat}, b < 32 → ∀ (lb : Nat) (u : State) (x : Nat),
      (u.setFld (P.disp 1) (bindAt n b lb) x).fld (P.disp 1) (bindAt m a la) = u.fld (P.disp 1) (bindAt m a la) := fun hb lb u x =>
    State.fld_setFld_apart _ _ _ _ (bindAt_apart hm hn ⟨ha, hb⟩ (.inl hne) la lb)
  unfold State.bindPut
  rw [hset (by decide), hset (by decide), hset (by decide), hset (by decide), hset (by decide), hset (by decide)]

theorem State.bindPut_page (s : State) {n pg : Nat} (hn : n < 128) (hpg : pg ≠ P.disp 1) (v : Nat) {f : Fld} (hf : f.inside = true) :
    (s.bindPut n v).fld pg f = s.fld pg f := by
  have hset : ∀ {b : Nat}, b < 32 → ∀ (lb : Nat) (u : State) (x : Nat), (u.setFld (P.disp 1) (bindAt n b lb) x).fld pg f = u.fld pg f := fun hb lb u x =>
    State.fld_setFld_page _ _ _ _ hpg hf (bindAt_inside hn hb lb)
  unfold State.bindPut
  rw [hset (by decide), hset (by decide), hset (by decide), hset (by decide), hset (by decide), hset (by decide)]

/-- The fault log and the energy that a new tenant starts with are outside the binding and the partitions. -/
theorem State.fld_newTenant (s : State) (n : Nat) {pg : Nat} (hpg : pg < 0x400) {f : Fld} (hf : f.inside = true) : ((s.flogClear n).etDrop n).fld pg f = s.fld pg f := by
  have hne : pg ≠ P.ten n 10 := by
    unfold P.ten
    omega
  have hdrop : ∀ u : State, (u.etDrop n).fld pg f = u.fld pg f := fun _ => rfl
  rw [hdrop, State.flogClear]
  rw [State.fld_each_setFld_other _ fun i hi => fkey_ne_of_page hne hf (F.FL_ENTRY_dword_inside (List.mem_range.1 hi)),
    State.fld_setFld_page _ _ _ _ hne hf (by decide)]

theorem State.bindApply_new {s : State} {n : Nat} (h : s.bound n = false) {v : Nat} (hv : bitOf v 15 = true) :
    s.bindApply n v = (((s.bindPut n v).flogClear n).etDrop n).setTnState n ((((s.bindPut n v).flogClear n).etDrop n).tnSettled n) := by
  have hput : s.bindPut n v = ((((((s.setFld (P.disp 1) (F.DISP_TN_BIND_vf n) (bits v 0 6)).setFld (P.disp 1) (F.DISP_TN_BIND_port n) (bits v 6 2)).setFld (P.disp 1)
      (F.DISP_TN_BIND_partition n) (bits v 8 3)).setFld (P.disp 1) (F.DISP_TN_BIND_weight n) (bindWeight v)).setFld (P.disp 1)
      (F.DISP_TN_BIND_valid n) (bits v 15 1)).setFld (P.disp 1) (F.DISP_TN_BIND_enable n) (bits v 16 1)) := rfl
  unfold State.bindApply
  dsimp only
  rw [h, hv, ← hput]
  simp only [Bool.not_false, Bool.true_and, if_true]

/-- What a context that becomes bound reads. -/
theorem State.bindApply_spec {s : State} {n : Nat} (hn : n < 128) (h : s.bound n = false) {v : Nat} (hv : bitOf v 15 = true) (t : State) (ht : t = s.bindApply n v) :
    t.bound n = true ∧ t.tnPort n = bits v 6 2 ∧ t.tnFn n = 4 + 64 * bits v 6 2 + bits v 0 6 ∧ t.tnPart n = bits v 8 3 ∧
      t.tnState n = (if s.ptState (bits v 8 3) = 4 then 4 else if bitOf v 16 then 2 else 1) ∧
      ∀ m : Nat, m < 128 → m ≠ n → t.bound m = s.bound m ∧ t.tnFn m = s.tnFn m := by
  obtain ⟨u, hu⟩ : ∃ u, u = ((s.bindPut n v).flogClear n).etDrop n := ⟨_, rfl⟩
  have hpage : P.disp 1 ≠ P.ten n 0 := by
    unfold P.disp P.ten
    omega
  have hlow : ∀ {pg : Nat}, pg < 0x400 → ∀ {f : Fld}, f.inside = true → u.fld pg f = (s.bindPut n v).fld pg f := fun hpg f hf => by
    rw [hu]
    exact State.fld_newTenant _ n hpg hf
  rw [State.bindApply_new h hv, ← hu] at ht
  have hdisp : ∀ {m a la : Nat}, m < 128 → a < 32 → t.fld (P.disp 1) (bindAt m a la) = (s.bindPut n v).fld (P.disp 1) (bindAt m a la) := fun hm ha => by
    rw [ht]
    exact (State.fld_setFld_page _ _ _ _ hpage (bindAt_inside hm ha _) rfl).trans (hlow (by decide) (bindAt_inside hm ha _))
  obtain ⟨hvf, hport, hpart, hvalid, henable⟩ := s.bindPut_spec hn v
  have h15 : bits v 15 1 = 1 := by simpa [bits, bitOf] using hv
  have hbound : t.bound n = true := by
    rw [State.bound, State.flag, show t.fld (P.disp 1) (F.DISP_TN_BIND_valid n) = bits v 15 1 from (hdisp hn (by decide)).trans hvalid, h15]
    rfl
  have hp : t.tnPort n = bits v 6 2 := (hdisp hn (by decide)).trans hport
  have hf : t.fld (P.disp 1) (F.DISP_TN_BIND_vf n) = bits v 0 6 := (hdisp hn (by decide)).trans hvf
  refine ⟨hbound, hp, by rw [State.tnFn, hp, hf], (hdisp hn (by decide)).trans hpart, ?_, fun m hm hne => ⟨?_, ?_⟩⟩
  · have hubound : u.bound n = true := by
      rw [State.bound, State.flag, show u.fld (P.disp 1) (F.DISP_TN_BIND_valid n) = bits v 15 1 from
        (hlow (by decide) (bindAt_inside hn (by decide) _)).trans hvalid, h15]
      rfl
    have hupart : u.tnPart n = bits v 8 3 := (hlow (by decide) (bindAt_inside hn (by decide) _)).trans hpart
    have hustate : u.ptState (bits v 8 3) = s.ptState (bits v 8 3) := by
      have hlt := bits_lt_pow v 8 3
      have hpt : P.pt (bits v 8 3) < 0x40 := by
        unfold P.pt
        omega
      exact (hlow (by omega) (by decide)).trans (State.bindPut_page s hn (Nat.ne_of_lt (Nat.lt_trans hpt (by decide))) v (by decide))
    have huenable : bindF u n F.DISP_TN_BIND_enable = bits v 16 1 := (hlow (by decide) (bindAt_inside hn (by decide) _)).trans henable
    have hsettled : u.tnSettled n = (if s.ptState (bits v 8 3) = 4 then 4 else if bitOf v 16 then 2 else 1) := by
      unfold State.tnSettled
      rw [hubound, hupart, hustate, huenable]
      simp [bits, bitOf]
    rw [ht, hsettled]
    refine State.fld_setFld_of_lt _ _ _ ?_
    split
    · decide
    · split <;> decide
  · exact State.flag_of_fld ((hdisp hm (by decide)).trans (s.bindPut_other hn hm hne v (by decide) 1))
  · have hpm : t.tnPort m = s.tnPort m := (hdisp hm (by decide)).trans (s.bindPut_other hn hm hne v (by decide) 2)
    have hfm : t.fld (P.disp 1) (F.DISP_TN_BIND_vf m) = s.fld (P.disp 1) (F.DISP_TN_BIND_vf m) :=
      (hdisp hm (by decide)).trans (s.bindPut_other hn hm hne v (by decide) 6)
    rw [State.tnFn, hpm, hfm, State.tnFn]

/-- A written binding with its weight in range. -/
def bindMask (w : Nat) : Nat := w % 2 ^ 11 + 2 ^ 11 * bindWeight w + 2 ^ 15 * bits w 15 2

theorem bindMask_bits (w : Nat) : bits (bindMask w) 0 6 = bits w 0 6 ∧ bits (bindMask w) 6 2 = bits w 6 2 ∧ bits (bindMask w) 8 3 = bits w 8 3 ∧
    bitOf (bindMask w) 15 = bitOf w 15 ∧ bitOf (bindMask w) 16 = bitOf w 16 ∧ bindMask w % 256 = w % 256 := by
  have hweight : bindWeight w < 16 := by
    have := bits_lt_pow w 11 4
    unfold bindWeight
    omega
  have hbit : ∀ {x y : Nat}, x = y → (x == 1) = (y == 1) := fun h => by rw [h]
  unfold bindMask bits bitOf
  generalize bindWeight w = b at hweight
  refine ⟨by omega, by omega, by omega, hbit (by omega), hbit (by omega), by omega⟩

theorem exec_tenantBindWrite {s : State} {rq : Requester} (hg : s.grants rq (P.disp 1) = true) (n : Fin 128) (w : Word) :
    exec (.tenantBindWrite rq n w) s = .next (s.bindWrite rq n w.toNat) := congrArg Host.Outcome.next (State.privWrite_of_grants hg _ _)

section
variable {s : State} {rq : Requester} {n : Fin 128} (hg : s.grants rq (P.disp 1) = true) {w : Word} (h3 : s.tnState n ≠ 3) (hbound : s.bound n = false)
  (hoff : bitOf (s.bindVal n) 16 = false) (hvalid : bitOf w.toNat 15 = true)
include hg h3 hbound hoff hvalid

omit hvalid in
theorem exec_bindWrite_free (hfree : ∀ m : Nat, m < 128 → m ≠ n → (s.bound m = true → s.bindVal m % 256 ≠ w.toNat % 256) ∧
    ∀ b, (s.ten m).pendBind = some b → bitOf b 15 = true → b % 256 ≠ w.toNat % 256) :
    exec (.tenantBindWrite rq n w) s = .next (s.bindApply n (bindMask w.toNat)) := by
  obtain ⟨-, -, -, -, -, h256⟩ := bindMask_bits w.toNat
  rw [exec_tenantBindWrite hg]
  unfold State.bindWrite
  dsimp only
  rw [if_neg h3, if_neg (by rw [hoff]; decide), ← bindMask, h256, if_neg ?_, if_neg (by rw [hbound, Bool.false_and]; decide)]
  rw [Bool.and_eq_true, not_and_or]
  refine .inr (Bool.not_eq_true _ ▸ List.any_eq_false.2 fun m hm => ?_)
  by_cases hne : m = n
  · simp [hne]
  · obtain ⟨hlive, hpend⟩ := hfree m (List.mem_range.1 hm) hne
    cases hp : (s.ten m).pendBind with
    | none => simpa using fun _ => hlive
    | some b =>
      have hb := hpend b hp
      simpa using fun _ => ⟨hlive, hb⟩

omit hbound in
theorem exec_bindWrite_taken (htaken : ∃ m : Nat, m < 128 ∧ m ≠ n ∧ ((s.bound m = true ∧ s.bindVal m % 256 = w.toNat % 256) ∨
    ∃ b, (s.ten m).pendBind = some b ∧ bitOf b 15 = true ∧ b % 256 = w.toNat % 256)) : exec (.tenantBindWrite rq n w) s =
      .next (s.countErr (P.disp 1) 0x45 (rqCode rq) (accessAddr rq (P.disp 1) (F.DISP_TN_BIND_vf n).off)) := by
  obtain ⟨-, -, -, h15, -, h256⟩ := bindMask_bits w.toNat
  obtain ⟨m, hm, hne, hby⟩ := htaken
  rw [exec_tenantBindWrite hg]
  unfold State.bindWrite
  dsimp only
  rw [if_neg h3, if_neg (by rw [hoff]; decide), ← bindMask, h256, h15, hvalid, Bool.true_and, if_pos ?_]
  refine List.any_eq_true.2 ⟨m, List.mem_range.2 hm, ?_⟩
  rcases hby with ⟨hb, hv⟩ | ⟨b, hp, hb, hv⟩
  · simp [hne, hb, hv]
  · simp [hne, hp, hb, hv]

theorem completes_bindWrite (hfree : ∀ m : Nat, m < 128 → m ≠ n → (s.bound m = true → s.bindVal m % 256 ≠ w.toNat % 256) ∧
    ∀ b, (s.ten m).pendBind = some b → bitOf b 15 = true → b % 256 ≠ w.toNat % 256) : Completes (.tenantBindWrite rq n w) s fun t =>
      t.bound n = true ∧ t.tnPort n = bits w.toNat 6 2 ∧ t.tnFn n = 4 + 64 * bits w.toNat 6 2 + bits w.toNat 0 6 ∧ t.tnPart n = bits w.toNat 8 3 ∧
      t.tnState n = (if s.ptState (bits w.toNat 8 3) = 4 then 4 else if bitOf w.toNat 16 then 2 else 1) ∧
      ∀ m : Nat, m < 128 → m ≠ n → t.bound m = s.bound m ∧ t.tnFn m = s.tnFn m := by
  obtain ⟨h0, h6, h8, h15, h16, -⟩ := bindMask_bits w.toNat
  have hspec := State.bindApply_spec n.isLt hbound (h15.trans hvalid) _ rfl
  rw [h0, h6, h8, h16] at hspec
  exact ⟨_, exec_bindWrite_free hg h3 hbound hoff hfree, hspec⟩

end

/-! The absorb point and the end of a tenant reset. -/

section
variable {s : State} {n : Fin 128} {r : Rst} (hfind : s.findRst 5 n = some r)
include hfind

theorem exec_tenantReset_early (h : r.absorbed = true) : exec (.tenantReset n) s = .next s := by
  refine congrArg Host.Outcome.next ?_
  rw [State.tnAbsorbPoint, hfind]
  exact if_pos h

theorem completes_tenantReset (h : r.absorbed = false) : Completes (.tenantReset n) s fun t => (t.ten n).absorbed = true := by
  have hrun : exec (.tenantReset n) s = .next ((s.setRst r (s.rstAbsorbed r)).tnAbsorb n true) := by
    refine congrArg Host.Outcome.next ?_
    rw [State.tnAbsorbPoint, hfind]
    exact if_neg (by rw [h]; decide)
  generalize s.setRst r (s.rstAbsorbed r) = u at hrun
  refine ⟨_, hrun, ?_⟩
  unfold State.tnAbsorb
  dsimp only
  split
  · next habs => exact habs
  · exact congrArg TenSt.absorbed (State.ten_setTen_self _ n _)

theorem exec_tenantResetReport_early (h : r.absorbed = false) : exec (.tenantResetReport n) s = .next s := by
  refine congrArg Host.Outcome.next ?_
  rw [State.tnRelease, hfind]
  exact if_neg (by rw [h]; decide)

end

/-- The end of a reset leaves no trace of it in the tenant's context. -/
theorem State.tnFinish_spec {s : State} {n : Nat} (h : (s.ten n).pendBind = none) : (s.tnFinish n).flag (P.ten n 0) F.TN_CTL_reset = false ∧
    (s.tnFinish n).ten n = TenSt.reset := by
  unfold State.tnFinish
  dsimp only
  rw [h]
  dsimp only
  generalize (if (s.ten n).suppress = true then s
    else s.each ((List.range 8).filter fun q => s.qState n q == 1 || s.qState n q == 3) fun q s => s.putReport n q) = u
  constructor
  · rw [State.flag_event_apart _ _ _ rfl, State.setTnState, State.flag_setFld_apart _ _ _ _ rfl, State.flag_setFlag_self _ _ (by decide)]
  · rw [State.ten_event]
    exact State.ten_setTen_self u n TenSt.reset

theorem completes_tenantResetReport {s : State} {n : Fin 128} {r : Rst} (hfind : s.findRst 5 n = some r) (h : r.absorbed = true)
    (hpend : (s.ten n).pendBind = none) : Completes (.tenantResetReport n) s fun t =>
      t.flag (P.ten n 0) F.TN_CTL_reset = false ∧ t.fld (P.hub 2) F.HUB_RST_LAST_scope = r.scope ∧ t.ten n = TenSt.reset := by
  obtain ⟨-, hscope, -, -⟩ := State.findRst_some hfind
  obtain ⟨w, hw⟩ : ∃ w : State, w = { s with rsts := s.rsts.filter (· != r) } := ⟨_, rfl⟩
  have hpend' : (w.ten n).pendBind = none := by
    rw [hw]
    exact hpend
  have hrun : exec (.tenantResetReport n) s = .next ((w.tnFinish n).rstLast r) := by
    refine congrArg Host.Outcome.next ?_
    rw [State.tnRelease, hfind, hw]
    exact if_pos h
  obtain ⟨hctl, hten⟩ := State.tnFinish_spec hpend'
  generalize w.tnFinish n = u at hrun hctl hten
  have hpage : P.ten n 0 ≠ P.hub 2 := by
    unfold P.ten P.hub
    omega
  refine ⟨_, hrun, ?_, ?_, hten⟩
  · refine (State.flag_of_fld ?_).trans hctl
    exact ((State.fld_setFld_page _ _ _ _ hpage rfl rfl).trans (State.fld_setFld_page _ _ _ _ hpage rfl rfl)).trans (State.fld_setFld_page _ _ _ _ hpage rfl rfl)
  · unfold State.rstLast
    rw [State.fld_setFlag_apart _ _ _ rfl, State.fld_setFld_apart _ _ _ _ rfl]
    exact State.fld_setFld_of_lt _ _ _ (by rw [hscope]; decide)

/-! The obligation. -/

/-- Settles O37: a cancel tells what its tag covers, a binding is masked, refused or applied, and a reset quiesces, absorbs and ends by its record. -/
theorem tenantResults : Obligations.TenantResults := by
  unfold Obligations.TenantResults
  intro s rq n q
  refine ⟨fun hg => ⟨fun h3 hc ds hds => ⟨completes_cancel_found hg h3 hc hds, completes_cancel_none hg h3 hc hds⟩,
      fun h all => (exec_tenantCancel hg all).trans (congrArg _ (State.cancel_off h q all)), completes_tenantResetCmd hg, exec_tenantResetCmd_not hg⟩,
    fun hg w v hv => ⟨fun h3 hbound hoff hvalid hfree => ?bind, fun h3 hbound hoff hvalid htaken => ?taken⟩,
    fun r hfind => ⟨completes_tenantReset hfind, exec_tenantReset_early hfind, completes_tenantResetReport hfind, exec_tenantResetReport_early hfind⟩⟩
  case bind =>
    subst hv
    exact completes_bindWrite hg h3 hbound hoff hvalid hfree
  case taken =>
    subst hv
    exact exec_bindWrite_taken hg h3 hoff hvalid htaken

end Sys2Proof.Machine
end

section
/-! The two ends of a link: their registers and their traffic (02 R30-R45). -/
namespace Sys2Proof.Machine

/-! Pages of ends. -/

theorem endPg_inj : ∀ k, k < 48 → ∀ j, j < 48 → endPg k = endPg j → k = j := by decide +kernel

/-- The far end of a bridge end is a bridge end of another tile, whose far end it is. -/
theorem farEnd_bridge : ∀ k, k < 32 → ∀ e, farEnd k = some e → e < 32 ∧ e ≠ k ∧ e / 4 ≠ k / 4 ∧ farEnd e = some k := by
  have hall : ∀ k, k < 32 → ((farEnd k).all fun e => decide (e < 32 ∧ e ≠ k ∧ e / 4 ≠ k / 4 ∧ farEnd e = some k)) = true := by decide
  intro k hk e he
  have h := hall k hk
  rw [he] at h
  simpa using h

theorem isSer_of_lt {k : Nat} (h : k < 32) : isSer k = false := decide_eq_false (by omega)

theorem isSer_of_le {k : Nat} (h : 32 ≤ k) : isSer k = true := decide_eq_true h

theorem P.trl_ne_endPg : ∀ k, k < 48 → endPg k ≠ P.trl := by decide

/-! One end's registers. -/

/-- Two kinds of end field that share no register bits on either kind of page. -/
def endApart (l r l' r' : Fld) : Bool := l.apart l' && r.apart r'

theorem eFld_apart {k : Nat} {l r l' r' : Fld} (h : endApart l r l' r' = true) : (eFld k l r).apart (eFld k l' r') = true := by
  obtain ⟨h1, h2⟩ := Bool.and_eq_true_iff.1 h
  unfold eFld
  split
  · exact h2
  · exact h1

theorem eFld_apart_of {k : Nat} {l r g : Fld} (h1 : l.apart g = true) (h2 : r.apart g = true) : (eFld k l r).apart g = true := by
  unfold eFld
  split
  · exact h2
  · exact h1

theorem eFld_inside {k : Nat} {l r : Fld} (h1 : l.inside = true) (h2 : r.inside = true) : (eFld k l r).inside = true := by
  unfold eFld
  split
  · exact h2
  · exact h1

section
variable {s : State} {k j : Nat}

theorem State.eget_eset_self {l r : Fld} {v : Nat} (h1 : v < 2 ^ l.len) (h2 : v < 2 ^ r.len) : (s.eset k l r v).eget k l r = v := by
  have hlt : v < 2 ^ (eFld k l r).len := by
    unfold eFld
    split
    · exact h2
    · exact h1
  exact State.fld_setFld_of_lt _ _ _ hlt

theorem State.eget_eset_apart {l r l' r' : Fld} (h : endApart l' r' l r = true) (v : Nat) : (s.eset k l r v).eget k l' r' = s.eget k l' r' :=
  State.fld_setFld_apart _ _ _ _ (eFld_apart h)

theorem State.eget_eset_other (hk : k < 48) (hj : j < 48) (hne : j ≠ k) {l r l' r' : Fld} (h1 : l.inside = true) (h2 : r.inside = true) (h3 : l'.inside = true)
    (h4 : r'.inside = true) (v : Nat) : (s.eset k l r v).eget j l' r' = s.eget j l' r' :=
  State.fld_setFld_page _ _ _ _ (fun h => hne (endPg_inj j hj k hk h)) (eFld_inside h3 h4) (eFld_inside h1 h2)

theorem State.eget_setLend {l r : Fld} (v : LinkEnd) : (s.setLend j v).eget k l r = s.eget k l r := rfl

theorem State.eget_event {l r : Fld} (h1 : l.apart F.PG_INT_STS = true) (h2 : r.apart F.PG_INT_STS = true) (pg bit : Nat) :
    (s.event pg bit).eget k l r = s.eget k l r := State.fld_event_apart _ _ _ (eFld_apart_of h1 h2) _

theorem State.lend_setLend_other (h : j ≠ k) (v : LinkEnd) : (s.setLend k v).lend j = s.lend j := Tab.get_set_ne _ _ _ _ _ h

end

/-! An end that is cleared, and an end that takes a state. -/

/-- What `endClear` leaves of the register and traffic of the ends. -/
theorem State.endClear_lend (s : State) (k : Nat) : (s.endClear k).lend k = (s.lend k).cleared ∧ ∀ j, j ≠ k → (s.endClear k).lend j = s.lend j := by
  have hreplay : ∀ j, (s.setReplay k [] 0).lend j = (s.setLend k { s.lend k with replay := [], replays := 0 }).lend j := fun j => by
    unfold State.setReplay
    dsimp only
    split <;> rfl
  constructor
  · show ((s.setReplay k [] 0).setLend k (s.lend k).cleared).lend k = _
    exact State.lend_setLend_self _ _ _
  · intro j hj
    show ((s.setReplay k [] 0).setLend k (s.lend k).cleared).lend j = _
    rw [State.lend_setLend_other hj, hreplay, State.lend_setLend_other hj]

theorem State.fld_endClear (s : State) {k pg : Nat} {f : Fld} (h1 : fkey pg f ≠ fkey (endPg k) F.LNK_STS_unacked)
    (h2 : fkey pg f ≠ fkey (endPg k) (eFld k F.LNK_STS_tx_seq F.SER_STS_tx_seq))
    (h3 : fkey pg f ≠ fkey (endPg k) (eFld k F.LNK_STS_rx_expected F.SER_STS_rx_expected)) : (s.endClear k).fld pg f = s.fld pg f := by
  have hreplay : (s.setReplay k [] 0).fld pg f = s.fld pg f := by
    unfold State.setReplay
    dsimp only
    split
    · rfl
    · exact State.fld_setFld_ne _ _ _ _ _ _ h1
  exact (State.fld_setFld_ne _ _ _ _ _ _ h3).trans ((State.fld_setFld_ne _ _ _ _ _ _ h2).trans hreplay)

section
variable {s : State} {k j : Nat}

/-- The fields of an end that a clear leaves. -/
theorem State.eget_endClear {l r : Fld} (h1 : endApart l r F.LNK_STS_tx_seq F.SER_STS_tx_seq = true) (h2 : endApart l r F.LNK_STS_rx_expected F.SER_STS_rx_expected = true)
    (h3 : l.apart F.LNK_STS_unacked = true) (h4 : r.apart F.LNK_STS_unacked = true) : (s.endClear k).eget k l r = s.eget k l r :=
  s.fld_endClear (fkey_ne_of_apart (eFld_apart_of h3 h4) _ _) (fkey_ne_of_apart (eFld_apart h1) _ _) (fkey_ne_of_apart (eFld_apart h2) _ _)

theorem State.fld_endClear_page {pg : Nat} (hpg : pg ≠ endPg k) {f : Fld} (hf : f.inside = true) : (s.endClear k).fld pg f = s.fld pg f :=
  s.fld_endClear (fkey_ne_of_page hpg hf (by decide)) (fkey_ne_of_page hpg hf (eFld_inside (by decide) (by decide)))
    (fkey_ne_of_page hpg hf (eFld_inside (by decide) (by decide)))

theorem State.endClear_seqs (s : State) (k : Nat) : (s.endClear k).txSeq k = 0 ∧ (s.endClear k).rxExp k = 0 := by
  unfold State.endClear State.txSeq State.rxExp
  exact ⟨(State.eget_eset_apart (by decide) _).trans (State.eget_eset_self (by decide) (by decide)), State.eget_eset_self (by decide) (by decide)⟩

end

/-- One end of `linkSet`. -/
def State.endSet (s : State) (e v : Nat) : State :=
  if v = 1 ∨ v = 6 then
    if s.eState e = 1 ∨ s.eState e = 6 ∨ s.eState e = 0 then ((s.eset e F.LNK_STS_state F.SER_STS_state v).endClear e).setRetrain e false
    else (((s.eset e F.LNK_STS_state F.SER_STS_state v).endClear e).setRetrain e false).event (endPg e) 3
  else s.eset e F.LNK_STS_state F.SER_STS_state v

theorem State.linkSet_eq {s : State} {k e : Nat} (hfar : farEnd k = some e) (v : Nat) : s.linkSet k v = (s.endSet k v).endSet e v := by
  unfold State.linkSet
  dsimp only
  rw [hfar]
  rfl

section
variable {s : State} {k j v : Nat}

theorem State.endSet_self (hv : v < 8) : (s.endSet k v).eState k = v := by
  have hset : (s.eset k F.LNK_STS_state F.SER_STS_state v).eState k = v :=
    State.eget_eset_self (Nat.lt_trans hv (by decide)) (Nat.lt_trans hv (by decide))
  have hclear : (((s.eset k F.LNK_STS_state F.SER_STS_state v).endClear k).setRetrain k false).eState k = v :=
    (State.eget_eset_apart (by decide) _).trans ((State.eget_endClear (by decide) (by decide) (by decide) (by decide)).trans hset)
  unfold State.endSet
  split
  · split
    · exact hclear
    · exact (State.eget_event (by decide) (by decide) _ _).trans hclear
  · exact hset

/-- The pages of other blocks. -/
theorem State.fld_endSet_page {pg : Nat} (hpg : pg ≠ endPg k) {f : Fld} (hf : f.inside = true) : (s.endSet k v).fld pg f = s.fld pg f := by
  have hset : (s.eset k F.LNK_STS_state F.SER_STS_state v).fld pg f = s.fld pg f :=
    State.fld_setFld_page _ _ _ _ hpg hf (eFld_inside (by decide) (by decide))
  have hclear : (((s.eset k F.LNK_STS_state F.SER_STS_state v).endClear k).setRetrain k false).fld pg f = s.fld pg f :=
    (State.fld_setFld_page _ _ _ _ hpg hf (eFld_inside (by decide) (by decide))).trans ((State.fld_endClear_page hpg hf).trans hset)
  unfold State.endSet
  split
  · split
    · exact hclear
    · exact (State.fld_event_page hpg hf _ _).trans hclear
  · exact hset

theorem State.eget_endSet_other (hk : k < 48) (hj : j < 48) (hne : j ≠ k) {l r : Fld} (h1 : l.inside = true) (h2 : r.inside = true) :
    (s.endSet k v).eget j l r = s.eget j l r :=
  State.fld_endSet_page (fun h => hne (endPg_inj j hj k hk h)) (eFld_inside h1 h2)

/-- A field of the end that no state change writes. -/
theorem State.eget_endSet {l r : Fld} (h0 : endApart l r F.LNK_STS_state F.SER_STS_state = true) (h1 : endApart l r F.LNK_STS_tx_seq F.SER_STS_tx_seq = true)
    (h2 : endApart l r F.LNK_STS_rx_expected F.SER_STS_rx_expected = true) (h3 : l.apart F.LNK_STS_unacked = true) (h4 : r.apart F.LNK_STS_unacked = true)
    (h5 : endApart l r F.LNK_CTL_retrain F.SER_CTL_retrain = true) (h6 : l.apart F.PG_INT_STS = true) (h7 : r.apart F.PG_INT_STS = true) :
    (s.endSet k v).eget k l r = s.eget k l r := by
  have hset : (s.eset k F.LNK_STS_state F.SER_STS_state v).eget k l r = s.eget k l r := State.eget_eset_apart h0 _
  have hclear : (((s.eset k F.LNK_STS_state F.SER_STS_state v).endClear k).setRetrain k false).eget k l r = s.eget k l r :=
    (State.eget_eset_apart h5 _).trans ((State.eget_endClear h1 h2 h3 h4).trans hset)
  unfold State.endSet
  split
  · split
    · exact hclear
    · exact (State.eget_event h6 h7 _ _).trans hclear
  · exact hset

/-- The retrain bit of an end that goes DOWN. -/
theorem State.endSet_retrain (h : v = 1 ∨ v = 6) : (s.endSet k v).eget k F.LNK_CTL_retrain F.SER_CTL_retrain = 0 := by
  have hzero : ∀ u : State, (u.setRetrain k false).eget k F.LNK_CTL_retrain F.SER_CTL_retrain = 0 := fun u => State.eget_eset_self (by decide) (by decide)
  unfold State.endSet
  rw [if_pos h]
  split
  · exact hzero _
  · exact (State.eget_event (by decide) (by decide) _ _).trans (hzero _)

theorem State.lend_endSet_other (hne : j ≠ k) : (s.endSet k v).lend j = s.lend j := by
  have hclear : (((s.eset k F.LNK_STS_state F.SER_STS_state v).endClear k).setRetrain k false).lend j = s.lend j :=
    (State.endClear_lend (s.eset k F.LNK_STS_state F.SER_STS_state v) k).2 j hne
  unfold State.endSet
  split
  · split
    · exact hclear
    · exact (State.lend_event _ _ _ _).trans hclear
  · rfl

theorem State.lend_endSet_up (h : v ≠ 1 ∧ v ≠ 6) : (s.endSet k v).lend j = s.lend j := by
  unfold State.endSet
  rw [if_neg (not_or.2 h)]
  rfl

/-- An end that goes DOWN keeps what a clear keeps. -/
theorem State.lend_endSet_down (h : v = 1 ∨ v = 6) : (s.endSet k v).lend k = (s.lend k).cleared := by
  have hclear : (((s.eset k F.LNK_STS_state F.SER_STS_state v).endClear k).setRetrain k false).lend k = (s.lend k).cleared :=
    (State.endClear_lend (s.eset k F.LNK_STS_state F.SER_STS_state v) k).1
  unfold State.endSet
  rw [if_pos h]
  split
  · exact hclear
  · exact (State.lend_event _ _ _ _).trans hclear

end

end Sys2Proof.Machine
end

section
/-! Training and retrains of bridge links (02 R40, R45, R48). -/
namespace Sys2Proof.Machine

theorem farEnd_spec : ∀ k, k < 48 → ∀ e, farEnd k = some e → e < 48 ∧ e ≠ k := by
  have hall : ∀ k, k < 48 → ((farEnd k).all fun e => decide (e < 48 ∧ e ≠ k)) = true := by decide
  intro k hk e he
  have h := hall k hk
  rw [he] at h
  simpa using h

theorem P.pt_ne_endPg : ∀ p, p < 8 → ∀ j, j < 48 → P.pt p ≠ endPg j := by decide +kernel

/-- Every field outside the pages of the ends is as it was. -/
def State.OffLinks (s u : State) : Prop := ∀ pg, (∀ j, j < 48 → pg ≠ endPg j) → ∀ f, f.inside = true → u.fld pg f = s.fld pg f

/-- Every end is in the state it was in. -/
def State.StatesKept (s u : State) : Prop := ∀ j, u.eState j = s.eState j

/-- A field that the end of a retrain does not write. -/
def Fld.offRetrain (f : Fld) : Bool := f.apart F.LNK_CTL_retrain && f.apart F.SER_CTL_retrain && f.apart F.PG_INT_STS

theorem Fld.offRetrain_iff {f : Fld} :
    f.offRetrain = true ↔ f.apart F.LNK_CTL_retrain = true ∧ f.apart F.SER_CTL_retrain = true ∧ f.apart F.PG_INT_STS = true := by
  simp only [Fld.offRetrain, Bool.and_eq_true, and_assoc]

theorem Fld.apart_eFld {f l r : Fld} (h1 : f.apart l = true) (h2 : f.apart r = true) (k : Nat) : f.apart (eFld k l r) = true := by
  unfold eFld
  split
  · exact h2
  · exact h1

/-- No partition that runs or is held (02 R47 looks at these). -/
def State.noneRuns (s : State) : Prop := ∀ p, p < 8 → s.ptState p ≠ 2 ∧ s.ptState p ≠ 3

theorem State.OffLinks.refl (s : State) : s.OffLinks s := fun _ _ _ _ => rfl

theorem State.OffLinks.trans {s u w : State} (h : s.OffLinks u) (h' : u.OffLinks w) : s.OffLinks w :=
  fun pg hpg f hf => (h' pg hpg f hf).trans (h pg hpg f hf)

theorem State.OffLinks.noneRuns {s u : State} (h : s.OffLinks u) (hs : s.noneRuns) : u.noneRuns := fun p hp => by
  have hst : u.ptState p = s.ptState p := h (P.pt p) (P.pt_ne_endPg p hp) _ (by decide)
  rw [hst]
  exact hs p hp

section
variable {k : Nat} (hk : k < 48)
include hk

theorem State.offLinks_setFld (s : State) {f : Fld} (hf : f.inside = true) (v : Nat) : s.OffLinks (s.setFld (endPg k) f v) :=
  fun _ hpg _ hg => State.fld_setFld_page _ _ _ _ (hpg k hk) hg hf

theorem State.offLinks_event (s : State) (bit : Nat) : s.OffLinks (s.event (endPg k) bit) :=
  fun _ hpg _ hg => State.fld_event_page (hpg k hk) hg _ _

theorem State.offLinks_endSet (s : State) (v : Nat) : s.OffLinks (s.endSet k v) := fun _ hpg _ hg => State.fld_endSet_page (hpg k hk) hg

theorem State.offLinks_endClear (s : State) : s.OffLinks (s.endClear k) := fun _ hpg _ hg => State.fld_endClear_page (hpg k hk) hg

/-- Every end of the link stands on a page of an end. -/
theorem endPages_of_ends {e : Nat} (he : e ∈ k :: (farEnd k).toList) : e < 48 := by
  rcases List.mem_cons.1 he with rfl | h
  · exact hk
  · exact (farEnd_spec k hk e (Option.mem_toList.1 h)).1

end

/-! The two ends take a state. -/

section
variable {s : State} {k e v : Nat}

theorem State.linkSet_states (hk : k < 48) (hfar : farEnd k = some e) (hv : v < 8) : (s.linkSet k v).eState k = v ∧ (s.linkSet k v).eState e = v := by
  obtain ⟨he, hne⟩ := farEnd_spec k hk e hfar
  rw [State.linkSet_eq hfar]
  exact ⟨(State.eget_endSet_other he hk hne.symm (by decide) (by decide)).trans (State.endSet_self hv), State.endSet_self hv⟩

theorem State.offLinks_linkSet (hk : k < 48) (hfar : farEnd k = some e) : s.OffLinks (s.linkSet k v) := by
  rw [State.linkSet_eq hfar]
  exact (State.offLinks_endSet hk s v).trans (State.offLinks_endSet (farEnd_spec k hk e hfar).1 _ v)

/-- The link of an end that goes DOWN no longer has a retrain asked for. -/
theorem State.linkSet_retrain (hk : k < 48) (hfar : farEnd k = some e) (hv : v = 1 ∨ v = 6) :
    (s.linkSet k v).eget k F.LNK_CTL_retrain F.SER_CTL_retrain = 0 := by
  obtain ⟨he, hne⟩ := farEnd_spec k hk e hfar
  rw [State.linkSet_eq hfar]
  exact (State.eget_endSet_other he hk hne.symm (by decide) (by decide)).trans (State.endSet_retrain hv)

end

theorem State.lend_setFailed (s : State) (k : Nat) (b : Bool) (j : Nat) :
    (s.setFailed k b).lend j = if j ∈ k :: (farEnd k).toList then { s.lend j with failed := b } else s.lend j := by
  unfold State.setFailed
  generalize k :: (farEnd k).toList = l
  induction l generalizing s with
  | nil => rfl
  | cons e l ih =>
    rw [State.each_cons, ih, State.lend_setLend]
    by_cases hje : j = e
    · subst hje; simp
    · simp [hje]

theorem State.fld_setFailed (s : State) (k : Nat) (b : Bool) (pg : Nat) (f : Fld) : (s.setFailed k b).fld pg f = s.fld pg f :=
  State.each_keeps (fun u => u.fld pg f = s.fld pg f) s _ _ (fun _ _ _ h => h) rfl

theorem State.failed_setFailed (s : State) (k : Nat) (b : Bool) {j : Nat} (h : j ∈ k :: (farEnd k).toList) : ((s.setFailed k b).lend j).failed = b := by
  rw [State.lend_setFailed, if_pos h]

/-! The bits of a retrain that ends. -/

theorem State.retrainEnd_keeps (s : State) (k bit : Nat) :
    (∀ j, (s.retrainEnd k bit).lend j = s.lend j) ∧ ∀ pg f, f.offRetrain = true → (s.retrainEnd k bit).fld pg f = s.fld pg f := by
  have hone : ∀ (u : State) (e : Nat), (∀ j, ((u.setRetrain e false).event (endPg e) bit).lend j = u.lend j) ∧
      ∀ pg f, f.offRetrain = true → ((u.setRetrain e false).event (endPg e) bit).fld pg f = u.fld pg f := fun u e =>
    ⟨fun j => State.lend_event _ _ _ _, fun pg f hf => by
      obtain ⟨h1, h2, h3⟩ := Fld.offRetrain_iff.1 hf
      exact (State.fld_event_apart _ _ _ h3 _).trans (State.fld_setFld_apart _ _ _ _ (Fld.apart_eFld h1 h2 _))⟩
  refine State.each_keeps (fun u => (∀ j, u.lend j = s.lend j) ∧ ∀ pg f, f.offRetrain = true → u.fld pg f = s.fld pg f) s _ _ (fun e _ u hu => ?_)
    ⟨fun _ => rfl, fun _ _ _ => rfl⟩
  split
  · exact ⟨fun j => ((hone u e).1 j).trans (hu.1 j), fun pg f hf => ((hone u e).2 pg f hf).trans (hu.2 pg f hf)⟩
  · exact hu

theorem State.offLinks_retrainEnd (s : State) {k : Nat} (hk : k < 48) (bit : Nat) : s.OffLinks (s.retrainEnd k bit) := by
  refine State.each_keeps (fun u => s.OffLinks u) s _ _ (fun e he u hu => ?_) (State.OffLinks.refl s)
  have he48 := endPages_of_ends hk he
  split
  · exact hu.trans ((State.offLinks_setFld he48 u (eFld_inside (by decide) (by decide)) _).trans (State.offLinks_event he48 _ _))
  · exact hu

/-! Routes where no partition runs. -/

/-- Only the holds of the routes differ. -/
def State.Rehold (s u : State) : Prop := ∃ hold, u = { s with routeHold := hold }

theorem State.reachCheck_of_noneRuns {s : State} (h : s.noneRuns) : s.reachCheck = s := by
  have hnil : ((List.range 8).filter fun p => s.ptState p == 2 || s.ptState p == 3) = [] := by
    rw [List.filter_eq_nil_iff]
    intro p hp
    obtain ⟨h2, h3⟩ := h p (List.mem_range.1 hp)
    simp [h2, h3]
  unfold State.reachCheck
  rw [hnil, State.each_nil]

theorem State.reroute_of_noneRuns {s : State} (h : s.noneRuns) : s.Rehold s.reroute := by
  have hholds : s.Rehold (s.each ((List.range 8).filter fun t => !s.fenced t) fun t s =>
      s.each ((List.range 8).filter (· != t)) fun u s =>
        let r := s.routeOf t u
        s.setHold t u (if r = s.routeNow t u then none else some r)) := by
    refine State.each_keeps s.Rehold s _ _ (fun t _ u hu => State.each_keeps s.Rehold u _ _ (fun w _ u' hu' => ?_) hu) ⟨s.routeHold, rfl⟩
    obtain ⟨hold, rfl⟩ := hu'
    exact ⟨_, rfl⟩
  unfold State.reroute
  obtain ⟨hold, hw⟩ := hholds
  have hnone : State.noneRuns { s with routeHold := hold } := h
  exact ⟨hold, (congrArg State.reachCheck hw).trans (State.reachCheck_of_noneRuns hnone)⟩

section
variable {s u : State}

theorem State.Rehold.fld (h : s.Rehold u) (pg : Nat) (f : Fld) : u.fld pg f = s.fld pg f := by
  obtain ⟨hold, rfl⟩ := h
  rfl

theorem State.Rehold.lend (h : s.Rehold u) (j : Nat) : u.lend j = s.lend j := by
  obtain ⟨hold, rfl⟩ := h
  rfl

end

/-! What waits at a tile is sent on. -/

theorem State.StatesKept.trans {s u w : State} (h : s.StatesKept u) (h' : u.StatesKept w) : s.StatesKept w := fun j => (h' j).trans (h j)

theorem State.eState_setFld_apart (s : State) (pg : Nat) {f : Fld} (h : F.LNK_STS_state.apart f = true) (v j : Nat) : (s.setFld pg f v).eState j = s.eState j := by
  rw [State.eState_eq_fld, State.eState_eq_fld]
  exact State.fld_setFld_apart _ _ _ _ h

theorem State.statesKept_setReplay (s : State) (k : Nat) (l : List TxFlit) (n : Nat) : s.StatesKept (s.setReplay k l n) := fun j => by
  unfold State.setReplay
  dsimp only
  split
  · rfl
  · exact State.eState_setFld_apart _ _ (by decide) _ _

theorem State.statesKept_sendFlit (s : State) (k vc : Nat) (data : List Byte) : s.StatesKept (s.sendFlit k vc data) := fun j => by
  have hseq := (State.eState_setFld_apart (s.setReplay k ((s.lend k).replay ++ [⟨s.txSeq k, vc, data⟩]) (s.lend k).replays) (endPg k)
    (f := eFld k F.LNK_STS_tx_seq F.SER_STS_tx_seq) (Fld.apart_eFld (by decide) (by decide) k) ((s.txSeq k + 1) % seqMod k) j).trans (s.statesKept_setReplay k _ _ j)
  unfold State.sendFlit
  dsimp only
  split
  · exact hseq
  · exact hseq

theorem State.statesKept_fwdFlits (k : Nat) (l : List RxFlit) : ∀ (s : State) (stuck : List Nat), s.StatesKept (s.fwdFlits k stuck l).1 := by
  induction l with
  | nil => exact fun s _ j => rfl
  | cons f l ih =>
    intro s stuck
    unfold State.fwdFlits
    split
    · exact ih s stuck
    · split
      · exact State.StatesKept.trans (u := (s.sendFlit _ f.vc f.data).emit (.credit k f.vc)) (fun j => s.statesKept_sendFlit _ f.vc f.data j) (ih _ stuck)
      · exact ih s (f.vc :: stuck)

theorem State.statesKept_forward (s : State) (k : Nat) : s.StatesKept (s.forward k) := by
  unfold State.forward
  split
  · exact fun _ => rfl
  · exact State.each_keeps s.StatesKept s _ _ (fun d _ u hu => hu.trans (u.statesKept_fwdFlits _ _ _)) fun _ => rfl

/-- Only the records of the ends may stand in another order: every end and every register reads as before. -/
def State.LinksAs (s u : State) : Prop := (∀ j, u.lend j = s.lend j) ∧ ∀ pg f, u.fld pg f = s.fld pg f

/-- Where nothing waits at the tile of end k, nothing is sent on. -/
theorem State.forward_of_empty {s : State} {k : Nat} (h : ∀ y, y < 32 → y / 4 = k / 4 → (s.lend y).rxq = []) (hk : k < 32) : s.LinksAs (s.forward k) := by
  unfold State.forward
  rw [isSer_of_lt hk]
  refine State.each_keeps s.LinksAs s _ _ (fun d hd u hu => ?_) ⟨fun _ => rfl, fun _ _ => rfl⟩
  obtain ⟨hlend, hfld⟩ := hu
  have hd4 := List.mem_range.1 hd
  have hq : (u.lend (4 * (k / 4) + d)).rxq = [] := by
    rw [hlend]
    exact h _ (by omega) (by omega)
  dsimp only
  rw [hq]
  refine ⟨fun j => ?_, hfld⟩
  show (u.setLend (4 * (k / 4) + d) { u.lend (4 * (k / 4) + d) with rxq := [] }).lend j = _
  rw [State.lend_setLend]
  split
  · next hj => subst hj; rw [← hlend, ← hq]
  · exact hlend j

/-! A link that comes up. -/

/-- What a link that comes up makes of one of its ends. -/
def State.endReady (s : State) (e : Nat) : State :=
  let q := match farEnd e with | some f => (s.lend f).rxq | none => []
  (s.endClear e).setLend e { (s.lend e).cleared with failed := false, tries := 0, credit := (List.range 3).map fun vc => 32 - (q.filter fun f => f.vc == vc).length }

/-- An end that has just come up with nothing in its far receive buffer. -/
structure LinkEnd.Fresh (v : LinkEnd) : Prop where
  replay : v.replay = []
  replays : v.replays = 0
  pendA : v.pendA = none
  lastAcc : v.lastAcc = none
  failed : v.failed = false
  credit : v.credit = [32, 32, 32]

section
variable {s : State} {e j : Nat}

theorem State.lend_endReady_other (h : j ≠ e) : (s.endReady e).lend j = s.lend j :=
  (State.lend_setLend _ _ _ _).trans ((if_neg h).trans ((s.endClear_lend e).2 j h))

theorem State.lend_endReady_fresh {f : Nat} (hfar : farEnd e = some f) (h : (s.lend f).rxq = []) : ((s.endReady e).lend e).Fresh := by
  unfold State.endReady
  rw [hfar]
  dsimp only
  rw [h, State.lend_setLend_self]
  exact ⟨rfl, rfl, rfl, rfl, rfl, rfl⟩

theorem State.rxq_endReady : ((s.endReady e).lend j).rxq = (s.lend j).rxq := by
  by_cases h : j = e
  · subst h
    unfold State.endReady
    rw [State.lend_setLend_self]
    rfl
  · rw [State.lend_endReady_other h]

theorem State.fld_endReady (s : State) (e pg : Nat) (f : Fld) : (s.endReady e).fld pg f = (s.endClear e).fld pg f := rfl

end

section
variable {s : State} {k e : Nat}

theorem State.linkActive_eq (hk : k < 32) (hfar : farEnd k = some e) :
    s.linkActive k = ((((((s.endReady k).endReady e).retrainEnd k 1).linkSet k 3).reroute).forward k).forward e := by
  unfold State.linkActive
  dsimp only
  rw [isSer_of_lt hk, hfar]
  rfl

/-- The state of a link that comes up, before its tiles send on what waits. -/
def State.linkReady (s : State) (k e : Nat) : State := (((s.endReady k).endReady e).retrainEnd k 1).linkSet k 3

theorem State.offLinks_linkReady (hk : k < 48) (hfar : farEnd k = some e) : s.OffLinks (s.linkReady k e) := by
  have h1 : s.OffLinks (s.endReady k) := State.offLinks_endClear hk s
  have h2 : (s.endReady k).OffLinks ((s.endReady k).endReady e) := State.offLinks_endClear (farEnd_spec k hk e hfar).1 _
  exact ((h1.trans h2).trans (State.offLinks_retrainEnd _ hk 1)).trans (State.offLinks_linkSet hk hfar)

theorem State.lend_linkReady (hfar : farEnd k = some e) (j : Nat) : (s.linkReady k e).lend j = ((s.endReady k).endReady e).lend j := by
  unfold State.linkReady
  rw [State.linkSet_eq hfar, State.lend_endSet_up (by decide), State.lend_endSet_up (by decide)]
  exact (State.retrainEnd_keeps _ k 1).1 j

/-- Sequence fields keep their value from the clear on. -/
theorem State.eget_linkReady (hfar : farEnd k = some e) {l r : Fld} (h1 : l.offRetrain = true) (h2 : r.offRetrain = true)
    (h3 : l.apart F.LNK_STS_state = true) (h4 : r.apart F.LNK_STS_state = true) (j : Nat) :
    (s.linkReady k e).eget j l r = ((s.endReady k).endReady e).eget j l r := by
  have hset : ∀ (u : State) (x : Nat), (u.endSet x 3).eget j l r = u.eget j l r := fun u x => by
    unfold State.endSet
    rw [if_neg (by decide)]
    have hst : (eFld j l r).apart (eFld x F.LNK_STS_state F.SER_STS_state) = true := by
      rw [eFld_state]
      exact eFld_apart_of h3 h4
    exact State.fld_setFld_apart _ _ _ _ hst
  have hoff : (eFld j l r).offRetrain = true := by
    unfold eFld
    split
    · exact h2
    · exact h1
  unfold State.linkReady
  rw [State.linkSet_eq hfar, hset, hset]
  exact (State.retrainEnd_keeps _ k 1).2 _ _ hoff

theorem State.linkReady_seqs (hk : k < 48) (hfar : farEnd k = some e) :
    (s.linkReady k e).txSeq k = 0 ∧ (s.linkReady k e).rxExp k = 0 ∧ (s.linkReady k e).txSeq e = 0 ∧ (s.linkReady k e).rxExp e = 0 := by
  obtain ⟨he, hne⟩ := farEnd_spec k hk e hfar
  have hpage : endPg k ≠ endPg e := fun h => hne (endPg_inj k hk e he h).symm
  have hk0 := s.endClear_seqs k
  have he0 := (s.endReady k).endClear_seqs e
  have hkeep : ∀ l r : Fld, l.inside = true → r.inside = true → ((s.endReady k).endReady e).eget k l r = (s.endClear k).eget k l r :=
    fun l r hl hr => State.fld_endClear_page hpage (eFld_inside hl hr)
  have htx : ∀ j, (s.linkReady k e).txSeq j = ((s.endReady k).endReady e).txSeq j :=
    State.eget_linkReady hfar (by decide) (by decide) (by decide) (by decide)
  have hrx : ∀ j, (s.linkReady k e).rxExp j = ((s.endReady k).endReady e).rxExp j :=
    State.eget_linkReady hfar (by decide) (by decide) (by decide) (by decide)
  exact ⟨(htx k).trans ((hkeep _ _ (by decide) (by decide)).trans hk0.1), (hrx k).trans ((hkeep _ _ (by decide) (by decide)).trans hk0.2),
    (htx e).trans he0.1, (hrx e).trans he0.2⟩

variable (hk : k < 32) (hfar : farEnd k = some e) (hnone : s.noneRuns)
include hk hfar hnone

/-- A link that comes up is ACTIVE at both ends. -/
theorem State.linkActive_states : (s.linkActive k).eState k = 3 ∧ (s.linkActive k).eState e = 3 := by
  have hk48 : k < 48 := Nat.lt_trans hk (by decide)
  have hready : (s.linkReady k e).eState k = 3 ∧ (s.linkReady k e).eState e = 3 := State.linkSet_states hk48 hfar (by decide)
  have hroute := State.reroute_of_noneRuns ((State.offLinks_linkReady hk48 hfar).noneRuns hnone)
  rw [State.linkActive_eq hk hfar]
  have hall : (s.linkReady k e).StatesKept ((((s.linkReady k e).reroute).forward k).forward e) :=
    State.StatesKept.trans (fun j => hroute.fld _ _) ((State.statesKept_forward _ k).trans (State.statesKept_forward _ e))
  exact ⟨(hall k).trans hready.1, (hall e).trans hready.2⟩

/-- A link between tiles where nothing waits comes up with fresh sequences and ends. -/
theorem State.linkActive_fresh (hempty : ∀ y, y < 32 → y / 4 = k / 4 ∨ y / 4 = e / 4 → (s.lend y).rxq = []) :
    ((s.linkActive k).txSeq k = 0 ∧ (s.linkActive k).rxExp k = 0 ∧ (s.linkActive k).txSeq e = 0 ∧ (s.linkActive k).rxExp e = 0) ∧
      ((s.linkActive k).lend k).Fresh ∧ ((s.linkActive k).lend e).Fresh := by
  obtain ⟨he, hne, -, hback⟩ := farEnd_bridge k hk e hfar
  have hk48 : k < 48 := Nat.lt_trans hk (by decide)
  have hroute := State.reroute_of_noneRuns ((State.offLinks_linkReady hk48 hfar).noneRuns hnone)
  have hrxq : ∀ y, ((s.linkReady k e).reroute.lend y).rxq = (s.lend y).rxq := fun y => by
    rw [hroute.lend, State.lend_linkReady hfar, State.rxq_endReady, State.rxq_endReady]
  have hfwd := State.forward_of_empty (s := (s.linkReady k e).reroute) (k := k) (fun y hy hyk => (hrxq y).trans (hempty y hy (.inl hyk))) hk
  have hfwd' := State.forward_of_empty (s := (s.linkReady k e).reroute.forward k) (k := e)
    (fun y hy hye => by rw [hfwd.1]; exact (hrxq y).trans (hempty y hy (.inr hye))) he
  have hlend : ∀ j, (s.linkActive k).lend j = ((s.endReady k).endReady e).lend j := fun j => by
    rw [State.linkActive_eq hk hfar]
    exact (hfwd'.1 j).trans ((hfwd.1 j).trans ((hroute.lend j).trans (State.lend_linkReady hfar j)))
  have hfld : ∀ pg f, (s.linkActive k).fld pg f = (s.linkReady k e).fld pg f := fun pg f => by
    rw [State.linkActive_eq hk hfar]
    exact (hfwd'.2 pg f).trans ((hfwd.2 pg f).trans (hroute.fld pg f))
  obtain ⟨h1, h2, h3, h4⟩ := State.linkReady_seqs (s := s) hk48 hfar
  refine ⟨⟨(hfld _ _).trans h1, (hfld _ _).trans h2, (hfld _ _).trans h3, (hfld _ _).trans h4⟩, ?_, ?_⟩
  · rw [hlend, State.lend_endReady_other hne.symm]
    exact State.lend_endReady_fresh hfar (hempty e he (.inr rfl))
  · rw [hlend]
    exact State.lend_endReady_fresh hback (State.rxq_endReady.trans (hempty k hk (.inl rfl)))

end

end Sys2Proof.Machine
end

section
/-! Settles the bridge links (02 R40, R45, R47, R48): training, drains, retrains and the replay limit. -/
namespace Sys2Proof.Machine

theorem endPg_of_lt {k : Nat} (hk : k < 32) : endPg k = P.lnk (k / 4) (k % 4) := if_pos hk

theorem P.endPg_ne_trl (k : Nat) (hk : k < 48) : endPg k ≠ P.trl := P.trl_ne_endPg k hk

/-- A field of LNK pages as `eget` reads it at an end of a bridge. -/
theorem State.eget_bridge (s : State) {k : Nat} (hk : k < 32) (l r : Fld) : s.eget k l r = s.fld (endPg k) l := by
  unfold State.eget eFld
  rw [isSer_of_lt hk]
  rfl

/-- What is outside the ends' pages, and every end's traffic, is as it was. -/
structure State.EndRegsOnly (s u : State) : Prop where
  off : s.OffLinks u
  lend : ∀ j, u.lend j = s.lend j

theorem State.EndRegsOnly.trans {s u w : State} (h : s.EndRegsOnly u) (h' : u.EndRegsOnly w) : s.EndRegsOnly w :=
  ⟨h.off.trans h'.off, fun j => (h'.lend j).trans (h.lend j)⟩

theorem State.endRegsOnly_setFld {k : Nat} (hk : k < 48) (s : State) {f : Fld} (hf : f.inside = true) (v : Nat) : s.EndRegsOnly (s.setFld (endPg k) f v) :=
  ⟨State.offLinks_setFld hk s hf v, fun _ => rfl⟩

theorem State.endRegsOnly_event {k : Nat} (hk : k < 48) (s : State) (bit : Nat) : s.EndRegsOnly (s.event (endPg k) bit) :=
  ⟨State.offLinks_event hk s bit, fun _ => State.lend_event _ _ _ _⟩

/-! A bridge link that goes DOWN. -/

section
variable {s : State} {k e : Nat} (hk : k < 32) (hfar : farEnd k = some e) (hnone : s.noneRuns)
include hk hfar hnone

/-- DOWN at both ends, no retrain asked for. -/
theorem State.linkDown_reroute : (s.linkSet k 1).reroute.eState k = 1 ∧ (s.linkSet k 1).reroute.eState e = 1 ∧
    (s.linkSet k 1).reroute.eget k F.LNK_CTL_retrain F.SER_CTL_retrain = 0 := by
  have hk48 : k < 48 := Nat.lt_trans hk (by decide)
  have hroute := State.reroute_of_noneRuns ((State.offLinks_linkSet (v := 1) hk48 hfar).noneRuns hnone)
  obtain ⟨h1, h2⟩ := State.linkSet_states (s := s) (v := 1) hk48 hfar (by decide)
  exact ⟨(hroute.fld _ _).trans h1, (hroute.fld _ _).trans h2, (hroute.fld _ _).trans (State.linkSet_retrain hk48 hfar (.inl rfl))⟩

theorem State.bridgeDown_spec : (s.bridgeDown k).eState k = 1 ∧ (s.bridgeDown k).eState e = 1 ∧
    (s.bridgeDown k).eget k F.LNK_CTL_retrain F.SER_CTL_retrain = 0 := by
  have hk48 : k < 48 := Nat.lt_trans hk (by decide)
  have htrail : ∀ j, j < 48 → ∀ f : Fld, f.inside = true → (s.bridgeDown k).fld (endPg j) f = (s.linkSet k 1).reroute.fld (endPg j) f :=
    fun j hj f hf => State.fld_trailPut_page (P.endPg_ne_trl j hj) hf _ _ _ _ _
  obtain ⟨h1, h2, h3⟩ := State.linkDown_reroute hk hfar hnone
  exact ⟨(htrail k hk48 _ (eFld_inside (by decide) (by decide))).trans h1,
    (htrail e (farEnd_spec k hk48 e hfar).1 _ (eFld_inside (by decide) (by decide))).trans h2,
    (htrail k hk48 _ (eFld_inside (by decide) (by decide))).trans h3⟩

/-- A failure holds the link DOWN (02 R45). -/
theorem State.bridgeFail_spec : (s.bridgeFail k).eState k = 1 ∧ (s.bridgeFail k).eState e = 1 ∧ (s.bridgeFail k).fld (endPg k) F.LNK_CTL_retrain = 0 ∧
    ((s.bridgeFail k).lend k).failed = true := by
  obtain ⟨h1, h2, h3⟩ := State.bridgeDown_spec hk hfar hnone
  refine ⟨(State.fld_setFailed _ _ _ _ _).trans h1, (State.fld_setFailed _ _ _ _ _).trans h2, ?_, State.failed_setFailed _ _ _ List.mem_cons_self⟩
  exact (State.fld_setFailed _ _ _ _ _).trans ((State.eget_bridge _ hk _ F.SER_CTL_retrain).symm.trans h3)

end

theorem State.trainFailed_spec {s : State} {k e : Nat} (hk : k < 48) (hfar : farEnd k = some e) :
    (s.trainFailed k).eState k = 1 ∧ (s.trainFailed k).eState e = 1 ∧ ((s.trainFailed k).lend k).failed = true ∧ ((s.trainFailed k).lend e).failed = true := by
  obtain ⟨h1, h2⟩ := State.linkSet_states (s := s.retrainEnd k 2) (v := 1) hk hfar (by decide)
  have hmem : e ∈ k :: (farEnd k).toList := List.mem_cons_of_mem _ (Option.mem_toList.2 hfar)
  exact ⟨(State.fld_setFailed _ _ _ _ _).trans h1, (State.fld_setFailed _ _ _ _ _).trans h2, State.failed_setFailed _ _ _ List.mem_cons_self,
    State.failed_setFailed _ _ _ hmem⟩

/-! The runs. -/

/-- The spare wires that a run leaves in use, each end's transmit side the other's receive side. -/
def State.takeSpares (s : State) (k e tx rx : Nat) : State :=
  (((s.setFld (endPg k) F.LNK_WIRE_MAP_tx_spares_used tx).setFld (endPg k) F.LNK_WIRE_MAP_rx_spares_used rx).setFld
    (endPg e) F.LNK_WIRE_MAP_rx_spares_used tx).setFld (endPg e) F.LNK_WIRE_MAP_tx_spares_used rx

theorem State.endRegsOnly_takeSpares {k e : Nat} (hk : k < 32) (hfar : farEnd k = some e) (s : State) (tx rx : Nat) : s.EndRegsOnly (s.takeSpares k e tx rx) := by
  have hk48 : k < 48 := Nat.lt_trans hk (by decide)
  have he := (farEnd_spec k hk48 e hfar).1
  have h1 := State.endRegsOnly_setFld hk48 s (f := F.LNK_WIRE_MAP_tx_spares_used) (by decide) tx
  have h2 := h1.trans (State.endRegsOnly_setFld hk48 _ (f := F.LNK_WIRE_MAP_rx_spares_used) (by decide) rx)
  have h3 := h2.trans (State.endRegsOnly_setFld he _ (f := F.LNK_WIRE_MAP_rx_spares_used) (by decide) tx)
  exact h3.trans (State.endRegsOnly_setFld he _ (f := F.LNK_WIRE_MAP_tx_spares_used) (by decide) rx)

section
variable {s : State} {k e : Nat} {r : TrainIn} (hk : k < 32) (hfar : farEnd k = some e)
include hk hfar

/-- A run with spare wires for every bad one takes them. -/
theorem State.trainPhy_bridge (hdeskew : r.deskewOk = true) (htx : s.fld (endPg k) F.LNK_WIRE_MAP_tx_spares_used + r.badTx ≤ 32)
    (hrx : s.fld (endPg k) F.LNK_WIRE_MAP_rx_spares_used + r.badRx ≤ 32) : ∃ u, s.trainPhy k r = some u ∧ s.EndRegsOnly u := by
  have hspares : ¬ (32 < s.fld (endPg k) F.LNK_WIRE_MAP_tx_spares_used + r.badTx ∨ 32 < s.fld (endPg k) F.LNK_WIRE_MAP_rx_spares_used + r.badRx) := by omega
  refine ⟨_, ?_, State.endRegsOnly_takeSpares hk hfar s (s.fld (endPg k) F.LNK_WIRE_MAP_tx_spares_used + r.badTx)
    (s.fld (endPg k) F.LNK_WIRE_MAP_rx_spares_used + r.badRx)⟩
  unfold State.trainPhy
  rw [hdeskew, isSer_of_lt hk, hfar]
  exact if_neg hspares

omit hk hfar in
theorem State.trainPhy_of_noDeskew (hdeskew : r.deskewOk = false) : s.trainPhy k r = none := by
  unfold State.trainPhy
  rw [hdeskew]
  rfl

omit hk hfar in
theorem identCode_bridge {site want : Nat} (h : site = want) (hw : want < 9) : identCode false site want 0 0 = 0 := by
  subst h
  unfold identCode
  rw [if_neg (by decide), if_neg (by omega), if_neg (by simp), if_neg (by simp)]

/-- Two tiles that report the sites they stand at bring the link up. -/
theorem State.bridgeIdent_sites (hsite : r.site.toNat = e / 4) (hback : r.siteBack.toNat = k / 4) :
    ∃ u, s.bridgeIdent k r = u.linkActive k ∧ s.EndRegsOnly u := by
  have hk48 : k < 48 := Nat.lt_trans hk (by decide)
  have he := (farEnd_bridge k hk e hfar).1
  have he48 : e < 48 := Nat.lt_trans he (by decide)
  have hput : s.EndRegsOnly ((s.setFld (endPg k) F.LNK_STS_peer_site r.site.toNat).setFld (endPg e) F.LNK_STS_peer_site r.siteBack.toNat) :=
    (State.endRegsOnly_setFld hk48 s (by decide) _).trans (State.endRegsOnly_setFld he48 _ (by decide) _)
  unfold State.bridgeIdent
  rw [hfar]
  dsimp only
  rw [identCode_bridge hsite (by omega), identCode_bridge hback (by omega), if_neg (by decide), if_neg (by decide)]
  refine ⟨_, rfl, ?_⟩
  split
  · exact (hput.trans (State.endRegsOnly_event hk48 _ 5)).trans (State.endRegsOnly_event he48 _ 5)
  · exact hput

end

section
variable {s : State} {t : Fin 8} {d : Fin 4} {k e : Nat} (hk : k = 4 * t + d) (hfar : farEnd k = some e)
include hk hfar

theorem exec_linkTraining_idle {r : TrainIn}
    (h : (s.eState k ≠ 1 ∧ s.eState k ≠ 2) ∨ (s.lend k).failed = true ∨ s.mayTrain k = false ∨ s.trainTime k = false) :
    exec (.linkTraining (.bridge t d) r) s = .next s := by
  subst hk
  refine congrArg Host.Outcome.next (if_pos ?_)
  rcases h with ⟨h1, h2⟩ | h | h | h
  · simp [linkKey, h1, h2]
  · simp [linkKey, h]
  · simp [linkKey, h]
  · simp [linkKey, h]

/-- A run with its conditions met: what the wires leave, and the identities after them. -/
theorem exec_linkTraining_run {r : TrainIn} (hst : s.eState k = 1 ∨ s.eState k = 2) (hfail : (s.lend k).failed = false) (hmay : s.mayTrain k = true)
    (htime : s.trainTime k = true) :
    (s.trainPhy k r = none → exec (.linkTraining (.bridge t d) r) s = .next (s.trainFailed k)) ∧
      ∀ u, s.trainPhy k r = some u → exec (.linkTraining (.bridge t d) r) s = .next (u.bridgeIdent k r) := by
  have hser : isSer k = false := isSer_of_lt (by omega)
  have hkey : linkKey (.bridge t d) = k := hk.symm
  have hgo : ((farEnd k).isNone || (s.eState k != 1 && s.eState k != 2) || (s.lend k).failed || !s.mayTrain k || !s.trainTime k) = false := by
    rw [hfar, hfail, hmay, htime]
    rcases hst with h | h <;> simp [h]
  constructor
  · intro hphy
    show execLinkTraining _ _ _ = _
    simp [execLinkTraining, hkey, hgo, hser, hphy]
  · intro u hphy
    show execLinkTraining _ _ _ = _
    simp [execLinkTraining, hkey, hgo, hser, hphy]

theorem exec_linkRetrainDone_run {r : TrainIn} (hst : s.eState k = 5) :
    exec (.linkRetrainDone (.bridge t d) r) s =
      .next (match s.trainPhy k r with | none => s | some u => ((u.linkActive k).event (endPg k) 1).event (endPg e) 1) := by
  subst hk
  refine congrArg Host.Outcome.next ((if_neg (not_not_intro hst)).trans ?_)
  dsimp only [linkKey]
  rw [hfar]
  rfl

theorem exec_linkRetrainTimeout_due (h : (s.eState k = 4 ∧ (s.lend k).drainRetrain = true) ∨ s.eState k = 5) :
    exec (.linkRetrainTimeout (.bridge t d)) s =
      .next ((((((s.event (endPg k) 2).setRetrain k false).event (endPg e) 2).setRetrain e false)).bridgeFail k) := by
  have hk32 : k < 32 := by omega
  subst hk
  have hgo : ¬ (s.eState (4 * t.val + d.val) ≠ 5 ∧ (s.eState (4 * t.val + d.val) ≠ 4 ∨ (s.lend (4 * t.val + d.val)).drainRetrain = false)) := by
    rintro ⟨h5, h4⟩
    rcases h with ⟨hs, hd⟩ | hs
    · rcases h4 with h4 | h4
      · exact h4 hs
      · exact Bool.false_ne_true (h4.symm.trans hd)
    · exact h5 hs
  have hser : ¬ isSer (4 * t.val + d.val) = true := by rw [isSer_of_lt hk32]; decide
  refine congrArg Host.Outcome.next ((if_neg hgo).trans ((if_neg hser).trans ?_))
  dsimp only [linkKey]
  rw [hfar]
  rfl

/-! Drains that end. -/

omit hfar in
theorem exec_linkDrainDone_held (hfar : farEnd k = some e) (h : (s.lend k).replay ≠ [] ∨ (s.lend e).replay ≠ []) :
    exec (.linkDrainDone (.bridge t d)) s = .next s := by
  subst hk
  refine congrArg Host.Outcome.next (if_pos (Or.inr ?_))
  dsimp only [linkKey]
  rw [hfar]
  rcases h with h | h <;> simp [h]

theorem exec_linkDrainDone_retrain (hst : s.eState k = 4) (h1 : (s.lend k).replay = []) (h2 : (s.lend e).replay = []) (h3 : (s.lend k).drainRetrain = true)
    (h4 : (s.lend e).drainRetrain = true) : exec (.linkDrainDone (.bridge t d)) s = .next (((s.endClear k).endClear e).linkSet k 5) := by
  subst hk
  refine congrArg Host.Outcome.next ((if_neg ?_).trans ((if_pos ?_).trans ?_))
  · dsimp only [linkKey]
    rw [hfar]
    simp [hst, h1, h2]
  · dsimp only [linkKey]
    rw [hfar]
    simp [h3, h4]
  · dsimp only [linkKey]
    rw [hfar]
    rfl

theorem exec_linkDrainDone_down (hst : s.eState k = 4) (h1 : (s.lend k).replay = []) (h2 : (s.lend e).replay = []) (h3 : (s.lend k).drainRetrain = false) :
    exec (.linkDrainDone (.bridge t d)) s = .next (s.linkSet k 1).reroute ∨ exec (.linkDrainDone (.bridge t d)) s = .next (s.bridgeDown k) := by
  subst hk
  have hgo : exec (.linkDrainDone (.bridge t d)) s = .next
      (if isSer (4 * t.val + d.val) || ((4 * t.val + d.val) :: (farEnd (4 * t.val + d.val)).toList).any (fun x => s.rsts.any fun r => r.scope == 4 && r.target == x / 4)
        then (s.linkSet (4 * t.val + d.val) 1).reroute else s.bridgeDown (4 * t.val + d.val)) := by
    refine congrArg Host.Outcome.next ((if_neg ?_).trans (if_neg ?_))
    · dsimp only [linkKey]
      rw [hfar]
      simp [hst, h1, h2]
    · dsimp only [linkKey]
      rw [hfar]
      simp [h3]
  rw [hgo]
  split
  · exact .inl rfl
  · exact .inr rfl

end

/-! A link whose run has worked. -/

section
variable {s u : State} {k e : Nat} (hk : k < 32) (hfar : farEnd k = some e) (hnone : s.noneRuns)
include hk hfar hnone

theorem State.EndRegsOnly.linkActive_states (h : s.EndRegsOnly u) : (u.linkActive k).eState k = 3 ∧ (u.linkActive k).eState e = 3 :=
  State.linkActive_states hk hfar (h.off.noneRuns hnone)

theorem State.EndRegsOnly.linkActive_fresh (h : s.EndRegsOnly u) (hempty : ∀ y, y < 32 → y / 4 = k / 4 ∨ y / 4 = e / 4 → (s.lend y).rxq = []) :
    ((u.linkActive k).txSeq k = 0 ∧ (u.linkActive k).rxExp k = 0 ∧ (u.linkActive k).txSeq e = 0 ∧ (u.linkActive k).rxExp e = 0) ∧
      ((u.linkActive k).lend k).Fresh ∧ ((u.linkActive k).lend e).Fresh :=
  State.linkActive_fresh hk hfar (h.off.noneRuns hnone) fun y hy hyke => by rw [h.lend]; exact hempty y hy hyke

end

/-- What a run of training does, by what it finds. -/
theorem linkTraining_results {s : State} {t : Fin 8} {d : Fin 4} {k e : Nat} (hk : k = 4 * t + d) (hfar : farEnd k = some e) (hnone : s.noneRuns)
    {idle : Prop} (hidle : idle ↔ ∀ y, y < 32 → y / 4 = k / 4 ∨ y / 4 = e / 4 → (s.lend y).rxq = []) (r : TrainIn)
    (hst : s.eState k = 1 ∨ s.eState k = 2) (hfail : (s.lend k).failed = false) (hmay : s.mayTrain k = true) (htime : s.trainTime k = true) :
    (r.deskewOk = false → Completes (.linkTraining (.bridge t d) r) s fun u => u.eState k = 1 ∧ u.eState e = 1 ∧
      (u.lend k).failed = true ∧ (u.lend e).failed = true) ∧
    (r.deskewOk = true → s.fld (endPg k) F.LNK_WIRE_MAP_tx_spares_used + r.badTx ≤ 32 → s.fld (endPg k) F.LNK_WIRE_MAP_rx_spares_used + r.badRx ≤ 32 →
      r.site.toNat = e / 4 → r.siteBack.toNat = k / 4 → Completes (.linkTraining (.bridge t d) r) s fun u => u.eState k = 3 ∧ u.eState e = 3 ∧
        (idle → u.txSeq k = 0 ∧ u.rxExp k = 0 ∧ u.txSeq e = 0 ∧ u.rxExp e = 0 ∧ ∀ y, y = k ∨ y = e → (u.lend y).replay = [] ∧
          (u.lend y).replays = 0 ∧ (u.lend y).pendA = none ∧ (u.lend y).lastAcc = none ∧ (u.lend y).failed = false ∧ (u.lend y).credit = [32, 32, 32])) := by
  have hk32 : k < 32 := by omega
  have hrun := exec_linkTraining_run (r := r) hk hfar hst hfail hmay htime
  constructor
  · intro hdeskew
    exact ⟨_, hrun.1 (State.trainPhy_of_noDeskew hdeskew), State.trainFailed_spec (Nat.lt_trans hk32 (by decide)) hfar⟩
  · intro hdeskew htx hrx hsite hback
    obtain ⟨v, hv, honly⟩ := State.trainPhy_bridge hk32 hfar hdeskew htx hrx
    obtain ⟨u, hu, honly'⟩ := State.bridgeIdent_sites (s := v) hk32 hfar hsite hback
    have hall := honly.trans honly'
    have hrun' := hrun.2 v hv
    rw [hu] at hrun'
    obtain ⟨h1, h2⟩ := hall.linkActive_states hk32 hfar hnone
    refine ⟨_, hrun', h1, h2, fun hi => ?_⟩
    obtain ⟨⟨h3, h4, h5, h6⟩, hfresh, hfresh'⟩ := hall.linkActive_fresh hk32 hfar hnone (hidle.1 hi)
    refine ⟨h3, h4, h5, h6, ?_⟩
    rintro y (rfl | rfl)
    · exact ⟨hfresh.replay, hfresh.replays, hfresh.pendA, hfresh.lastAcc, hfresh.failed, hfresh.credit⟩
    · exact ⟨hfresh'.replay, hfresh'.replays, hfresh'.pendA, hfresh'.lastAcc, hfresh'.failed, hfresh'.credit⟩

theorem linkDrainDone_results {s : State} {t : Fin 8} {d : Fin 4} {k e : Nat} (hk : k = 4 * t + d) (hfar : farEnd k = some e) (hnone : s.noneRuns)
    (hst : s.eState k = 4) (h1 : (s.lend k).replay = []) (h2 : (s.lend e).replay = []) :
    ((s.lend k).drainRetrain = true → (s.lend e).drainRetrain = true →
      Completes (.linkDrainDone (.bridge t d)) s fun u => u.eState k = 5 ∧ u.eState e = 5) ∧
    ((s.lend k).drainRetrain = false → Completes (.linkDrainDone (.bridge t d)) s fun u => u.eState k = 1 ∧ u.eState e = 1) := by
  have hk32 : k < 32 := by omega
  refine ⟨fun h3 h4 => ⟨_, exec_linkDrainDone_retrain hk hfar hst h1 h2 h3 h4, State.linkSet_states (Nat.lt_trans hk32 (by decide)) hfar (by decide)⟩, fun h3 => ?_⟩
  rcases exec_linkDrainDone_down hk hfar hst h1 h2 h3 with hrun | hrun
  · obtain ⟨h4, h5, -⟩ := State.linkDown_reroute hk32 hfar hnone
    exact ⟨_, hrun, h4, h5⟩
  · obtain ⟨h4, h5, -⟩ := State.bridgeDown_spec hk32 hfar hnone
    exact ⟨_, hrun, h4, h5⟩

theorem linkRetrainDone_works {s : State} {t : Fin 8} {d : Fin 4} {k e : Nat} (hk : k = 4 * t + d) (hfar : farEnd k = some e) (hnone : s.noneRuns)
    {idle : Prop} (hidle : idle ↔ ∀ y, y < 32 → y / 4 = k / 4 ∨ y / 4 = e / 4 → (s.lend y).rxq = []) {r : TrainIn} (hst : s.eState k = 5)
    (hdeskew : r.deskewOk = true) (htx : s.fld (endPg k) F.LNK_WIRE_MAP_tx_spares_used + r.badTx ≤ 32)
    (hrx : s.fld (endPg k) F.LNK_WIRE_MAP_rx_spares_used + r.badRx ≤ 32) :
    Completes (.linkRetrainDone (.bridge t d) r) s fun u => u.eState k = 3 ∧ u.eState e = 3 ∧ (idle → u.txSeq k = 0 ∧ u.rxExp k = 0) := by
  have hk32 : k < 32 := by omega
  obtain ⟨v, hv, honly⟩ := State.trainPhy_bridge hk32 hfar hdeskew htx hrx
  have hrun := exec_linkRetrainDone_run (r := r) hk hfar hst
  rw [hv] at hrun
  have hev : ∀ (w : State) (j : Nat) (l r : Fld), l.apart F.PG_INT_STS = true → r.apart F.PG_INT_STS = true →
      ((w.event (endPg k) 1).event (endPg e) 1).eget j l r = w.eget j l r := fun w j l r hl hr =>
    (State.eget_event hl hr _ _).trans (State.eget_event hl hr _ _)
  obtain ⟨h1, h2⟩ := honly.linkActive_states hk32 hfar hnone
  refine ⟨_, hrun, (hev _ k _ _ (by decide) (by decide)).trans h1, (hev _ e _ _ (by decide) (by decide)).trans h2, fun hi => ?_⟩
  obtain ⟨⟨h3, h4, -, -⟩, -, -⟩ := honly.linkActive_fresh hk32 hfar hnone (hidle.1 hi)
  exact ⟨(hev _ k _ _ (by decide) (by decide)).trans h3, (hev _ k _ _ (by decide) (by decide)).trans h4⟩

theorem linkRetrainTimeout_due {s : State} {t : Fin 8} {d : Fin 4} {k e : Nat} (hk : k = 4 * t + d) (hfar : farEnd k = some e) (hnone : s.noneRuns)
    (h : (s.eState k = 4 ∧ (s.lend k).drainRetrain = true) ∨ s.eState k = 5) :
    Completes (.linkRetrainTimeout (.bridge t d)) s fun u => u.eState k = 1 ∧ u.eState e = 1 ∧ u.fld (endPg k) F.LNK_CTL_retrain = 0 ∧ (u.lend k).failed = true := by
  have hk32 : k < 32 := by omega
  have hk48 : k < 48 := by omega
  have he48 := (farEnd_spec k hk48 e hfar).1
  have hin : ∀ j, (eFld j F.LNK_CTL_retrain F.SER_CTL_retrain).inside = true := fun j => eFld_inside (by decide) (by decide)
  have honly : s.EndRegsOnly ((((s.event (endPg k) 2).setRetrain k false).event (endPg e) 2).setRetrain e false) :=
    ((State.endRegsOnly_event hk48 s 2).trans (State.endRegsOnly_setFld hk48 _ (hin k) _)).trans
      ((State.endRegsOnly_event he48 _ 2).trans (State.endRegsOnly_setFld he48 _ (hin e) _))
  exact ⟨_, exec_linkRetrainTimeout_due hk hfar h, State.bridgeFail_spec hk32 hfar (honly.off.noneRuns hnone)⟩

theorem replayLimitReached_due {s : State} {t : Fin 8} {d : Fin 4} {k e : Nat} (hk : k = 4 * t + d) (hfar : farEnd k = some e) (hst : s.eState k = 3)
    (hdue : max 1 (s.fld (endPg k) F.LNK_CTL_replay_limit) ≤ (s.lend k).replays) :
    Completes (.replayLimitReached (.bridge t d)) s fun u =>
      u.eState k = 4 ∧ u.eState e = 4 ∧ (u.lend k).drainRetrain = true ∧ (u.lend k).replay = (s.lend k).replay := by
  have hk32 : k < 32 := by omega
  subst hk
  have hst' : (s.event (endPg (4 * t.val + d.val)) 0).eState (4 * t.val + d.val) = 3 := (State.eState_event _ _ _ _).trans hst
  have hmem : e ∈ (4 * t.val + d.val) :: (farEnd (4 * t.val + d.val)).toList := List.mem_cons_of_mem _ (Option.mem_toList.2 hfar)
  have hlend := State.lend_retrain _ _ _ hst' List.mem_cons_self
  refine ⟨_, exec_replayLimitReached_of_due (.bridge t d) s hst ((State.eget_bridge s hk32 _ _).symm ▸ hdue), State.eState_retrain _ _ _ hst' List.mem_cons_self,
    State.eState_retrain _ _ _ hst' hmem, ?_, ?_⟩
  · exact congrArg LinkEnd.drainRetrain hlend
  · refine (congrArg LinkEnd.replay hlend).trans ?_
    show ((s.event _ 0).lend (4 * t.val + d.val)).replay = _
    rw [State.lend_event]

/-- Settles O31: the runs, drains and limits of a bridge link, where no partition looks at the routes that change. -/
theorem linkStateResults : Obligations.LinkStateResults := by
  unfold Obligations.LinkStateResults
  intro s t d k e hk hfar hnone idle hidle
  have hk32 : k < 32 := by omega
  refine ⟨fun r => linkTraining_results hk hfar hnone hidle r, fun r => exec_linkTraining_idle hk hfar,
    fun hst h1 h2 => linkDrainDone_results hk hfar hnone hst h1 h2, fun _ h => exec_linkDrainDone_held hk hfar h,
    fun r => linkRetrainDone_works hk hfar hnone hidle, fun r hst hdeskew => ?_, linkRetrainTimeout_due hk hfar hnone, fun hst hdrain => ?_,
    replayLimitReached_due hk hfar, fun hlt => ?_⟩
  · rw [exec_linkRetrainDone_run hk hfar hst, State.trainPhy_of_noDeskew hdeskew]
  · subst hk
    exact congrArg Host.Outcome.next (if_pos ⟨fun h => absurd (hst.symm.trans h) (by decide), .inr hdrain⟩)
  · subst hk
    refine congrArg Host.Outcome.next (if_neg fun h => ?_)
    rw [← State.eget_bridge s hk32 _ F.SER_CTL_replay_limit] at hlt
    exact absurd h.2 (Nat.not_le.2 hlt)

end Sys2Proof.Machine
end

section
/-! Traffic of the links (02 R29-R38): flits in, through and out, acknowledgements and replays. -/
namespace Sys2Proof.Machine

/-! Sequence fields hold the sequences of their end. -/

theorem seqMod_tx (k : Nat) : seqMod k = 2 ^ (eFld k F.LNK_STS_tx_seq F.SER_STS_tx_seq).len := by
  unfold seqMod eFld
  split
  · rfl
  · rfl

theorem seqMod_rx (k : Nat) : seqMod k = 2 ^ (eFld k F.LNK_STS_rx_expected F.SER_STS_rx_expected).len := by
  unfold seqMod eFld
  split
  · rfl
  · rfl

theorem seqMod_pos (k : Nat) : 0 < seqMod k := by rw [seqMod_tx]; exact Nat.two_pow_pos _

theorem seqMod_of_lt {k : Nat} (h : k < 32) : seqMod k = 256 := by
  unfold seqMod
  rw [isSer_of_lt h]
  rfl

theorem seqMod_of_le {k : Nat} (h : 32 ≤ k) : seqMod k = 1024 := if_pos (isSer_of_le h)

theorem State.txSeq_eset (s : State) (k v : Nat) : (s.eset k F.LNK_STS_tx_seq F.SER_STS_tx_seq (v % seqMod k)).txSeq k = v % seqMod k :=
  State.fld_setFld_of_lt _ _ _ (seqMod_tx k ▸ Nat.mod_lt _ (seqMod_pos k))

theorem State.rxExp_eset (s : State) (k v : Nat) : (s.eset k F.LNK_STS_rx_expected F.SER_STS_rx_expected (v % seqMod k)).rxExp k = v % seqMod k :=
  State.fld_setFld_of_lt _ _ _ (seqMod_rx k ▸ Nat.mod_lt _ (seqMod_pos k))

theorem eFld_apart_eFld {l r l' r' : Fld} (h1 : l.apart l' = true) (h2 : l.apart r' = true) (h3 : r.apart l' = true) (h4 : r.apart r' = true) (j k : Nat) :
    (eFld j l r).apart (eFld k l' r') = true := eFld_apart_of (Fld.apart_eFld h1 h2 k) (Fld.apart_eFld h3 h4 k)

theorem State.rxExp_eset_tx (s : State) (k v j : Nat) : (s.eset k F.LNK_STS_tx_seq F.SER_STS_tx_seq v).rxExp j = s.rxExp j :=
  State.fld_setFld_apart _ _ _ _ (eFld_apart_eFld (by decide) (by decide) (by decide) (by decide) j k)

/-! A replay buffer that changes. -/

section
variable (s : State) (k : Nat) (l : List TxFlit) (n : Nat)

theorem State.lend_setReplay (j : Nat) : (s.setReplay k l n).lend j = if j = k then { s.lend k with replay := l, replays := n } else s.lend j := by
  unfold State.setReplay
  dsimp only
  split
  · exact State.lend_setLend _ _ _ _
  · exact State.lend_setLend _ _ _ _

theorem State.rxq_setReplay (j : Nat) : ((s.setReplay k l n).lend j).rxq = (s.lend j).rxq := by
  rw [State.lend_setReplay]
  split
  · next hj => rw [hj]
  · rfl

theorem State.outs_setReplay : (s.setReplay k l n).outs = s.outs := by
  unfold State.setReplay
  dsimp only
  split
  · rfl
  · rfl

theorem State.fld_setReplay {f : Fld} (h : f.apart F.LNK_STS_unacked = true) (pg : Nat) : (s.setReplay k l n).fld pg f = s.fld pg f := by
  unfold State.setReplay
  dsimp only
  split
  · rfl
  · exact State.fld_setFld_apart _ _ _ _ h

end

/-! A flit that goes out. -/

section
variable (s : State) (k vc : Nat) (data : List Byte)

theorem State.lend_sendFlit_other {j : Nat} (h : j ≠ k) : (s.sendFlit k vc data).lend j = s.lend j := by
  have hrep := (s.lend_setReplay k ((s.lend k).replay ++ [⟨s.txSeq k, vc, data⟩]) (s.lend k).replays j).trans (if_neg h)
  unfold State.sendFlit
  dsimp only
  split
  · exact hrep
  · exact (State.lend_setLend _ _ _ _).trans ((if_neg h).trans hrep)

theorem State.lend_sendFlit_self : ((s.sendFlit k vc data).lend k).replay = (s.lend k).replay ++ [⟨s.txSeq k, vc, data⟩] ∧
    ((s.sendFlit k vc data).lend k).rxq = (s.lend k).rxq := by
  have hrep := (s.lend_setReplay k ((s.lend k).replay ++ [⟨s.txSeq k, vc, data⟩]) (s.lend k).replays k).trans (if_pos rfl)
  have hrxq := s.rxq_setReplay k ((s.lend k).replay ++ [⟨s.txSeq k, vc, data⟩]) (s.lend k).replays k
  unfold State.sendFlit
  dsimp only
  split
  · exact ⟨congrArg LinkEnd.replay hrep, hrxq⟩
  · have hcredits : ∀ u : State, ∀ m, ((u.setCredits k vc m).lend k).replay = (u.lend k).replay ∧ ((u.setCredits k vc m).lend k).rxq = (u.lend k).rxq := fun u m => by
      unfold State.setCredits
      rw [State.lend_setLend_self]
      exact ⟨rfl, rfl⟩
    exact ⟨(hcredits _ _).1.trans (congrArg LinkEnd.replay hrep), (hcredits _ _).2.trans hrxq⟩

theorem State.rxq_sendFlit (j : Nat) : ((s.sendFlit k vc data).lend j).rxq = (s.lend j).rxq := by
  by_cases h : j = k
  · subst h
    exact (s.lend_sendFlit_self j vc data).2
  · rw [State.lend_sendFlit_other _ _ _ _ h]

theorem State.outs_sendFlit : (s.sendFlit k vc data).outs = .flit k (s.txSeq k) :: s.outs := by
  have hrep := s.outs_setReplay k ((s.lend k).replay ++ [⟨s.txSeq k, vc, data⟩]) (s.lend k).replays
  unfold State.sendFlit
  dsimp only
  split
  · exact congrArg (Out.flit k (s.txSeq k) :: ·) hrep
  · exact congrArg (Out.flit k (s.txSeq k) :: ·) hrep

theorem State.txSeq_sendFlit : (s.sendFlit k vc data).txSeq k = (s.txSeq k + 1) % seqMod k := by
  have hset := State.txSeq_eset (s.setReplay k ((s.lend k).replay ++ [⟨s.txSeq k, vc, data⟩]) (s.lend k).replays) k (s.txSeq k + 1)
  unfold State.sendFlit
  dsimp only
  split
  · exact hset
  · exact hset

theorem State.rxExp_sendFlit (j : Nat) : (s.sendFlit k vc data).rxExp j = s.rxExp j := by
  have hrep : (s.setReplay k ((s.lend k).replay ++ [⟨s.txSeq k, vc, data⟩]) (s.lend k).replays).rxExp j = s.rxExp j :=
    State.fld_setReplay _ _ _ _ (eFld_apart_of (by decide) (by decide)) _
  have hset := (State.rxExp_eset_tx (s.setReplay k ((s.lend k).replay ++ [⟨s.txSeq k, vc, data⟩]) (s.lend k).replays) k ((s.txSeq k + 1) % seqMod k) j).trans hrep
  unfold State.sendFlit
  dsimp only
  split
  · exact hset
  · exact hset

end

/-! What a tile sends on. -/

/-- One port of the tile of end k sends on what it holds. -/
def State.fwdPort (s : State) (e : Nat) : State :=
  let r := s.fwdFlits e [] (s.lend e).rxq
  r.1.setLend e { r.1.lend e with rxq := r.2 }

theorem State.forward_eq {k : Nat} (hk : k < 32) (s : State) : s.forward k = s.each (List.range 4) fun d s => s.fwdPort (4 * (k / 4) + d) := by
  unfold State.forward
  rw [isSer_of_lt hk]
  rfl

/-- Every end and every register reads as before, and nothing was sent. -/
def State.Quiet (s u : State) : Prop := (∀ j, u.lend j = s.lend j) ∧ (∀ pg f, u.fld pg f = s.fld pg f) ∧ u.outs = s.outs

theorem State.Quiet.refl (s : State) : s.Quiet s := ⟨fun _ => rfl, fun _ _ => rfl, rfl⟩

theorem State.Quiet.trans {s u w : State} (h : s.Quiet u) (h' : u.Quiet w) : s.Quiet w :=
  ⟨fun j => (h'.1 j).trans (h.1 j), fun pg f => (h'.2.1 pg f).trans (h.2.1 pg f), h'.2.2.trans h.2.2⟩

theorem State.fwdPort_of_empty {s : State} {e : Nat} (h : (s.lend e).rxq = []) : s.Quiet (s.fwdPort e) := by
  unfold State.fwdPort
  rw [h]
  refine ⟨fun j => ?_, fun _ _ => rfl, rfl⟩
  show (s.setLend e { s.lend e with rxq := [] }).lend j = _
  rw [State.lend_setLend]
  split
  · next hj => rw [hj, ← h]
  · rfl

theorem State.each_fwdPort_of_empty {s : State} {b : Nat} (l : List Nat) (h : ∀ d ∈ l, (s.lend (b + d)).rxq = []) :
    s.Quiet (s.each l fun d s => s.fwdPort (b + d)) :=
  State.each_keeps s.Quiet s l _ (fun d hd u hu => hu.trans (State.fwdPort_of_empty (by rw [hu.1]; exact h d hd))) (.refl s)

theorem State.forward_quiet {s : State} {k : Nat} (h : ∀ y, y / 4 = k / 4 → (s.lend y).rxq = []) : s.Quiet (s.forward k) := by
  by_cases hk : k < 32
  · rw [State.forward_eq hk]
    refine State.each_fwdPort_of_empty _ fun d hd => h _ ?_
    have hd4 := List.mem_range.1 hd
    omega
  · unfold State.forward
    rw [isSer_of_le (Nat.le_of_not_lt hk)]
    exact .refl s

/-- The next port of a route is one of its ports. -/
theorem portAt_mem {u d : Nat} (l : List Nat) : ∀ t, portAt u t l = some d → d ∈ l := by
  induction l with
  | nil => exact fun t h => nomatch h
  | cons p l ih =>
    intro t h
    unfold portAt at h
    split at h
    · obtain rfl := Option.some.inj h
      exact List.mem_cons_self
    · split at h
      · exact List.mem_cons_of_mem _ (ih _ h)
      · exact nomatch h

theorem routePorts_lt : ∀ a, a < 8 → ∀ b, b < 8 → ∀ vc, vc < 4 → ∀ d ∈ routePorts a b vc, d < 4 := by decide

theorem fwdEnd_lt {k e : Nat} {f : RxFlit} (hk : k < 32) (hsrc : f.src < 8) (hdst : f.dst < 8) (hvc : f.vc < 4) (h : fwdEnd k f = some e) : e < 32 ∧ e / 4 = k / 4 := by
  obtain ⟨d, hd, rfl⟩ := Option.map_eq_some_iff.1 h
  have hd4 := routePorts_lt _ hsrc _ hdst _ hvc d (portAt_mem _ _ hd)
  omega

/-- Whether an end can send depends on its state, its buffer and its credits alone. -/
theorem State.canSend_congr {s u : State} {e : Nat} (h : u.eState e = s.eState e) (h' : u.lend e = s.lend e) (vc : Nat) : u.canSend e vc = s.canSend e vc := by
  unfold State.canSend State.credits
  rw [h, h']

/-- What the tile leaves when it sends on the one flit it holds. -/
structure State.SentOn (s u : State) (k e : Nat) (f : RxFlit) : Prop where
  outs : u.outs = .credit k f.vc :: .flit e (s.txSeq e) :: s.outs
  txSeq : u.txSeq e = (s.txSeq e + 1) % seqMod e
  replay : (u.lend e).replay = (s.lend e).replay ++ [⟨s.txSeq e, f.vc, f.data⟩]
  rxExp : ∀ j, u.rxExp j = s.rxExp j
  empty : (u.lend k).rxq = []
  rxq : ∀ y, y ≠ k → (u.lend y).rxq = (s.lend y).rxq

theorem State.SentOn.quiet_left {s u w : State} {k e : Nat} {f : RxFlit} (h : s.Quiet u) (hs : u.SentOn w k e f) : s.SentOn w k e f := by
  have htx : u.txSeq e = s.txSeq e := h.2.1 _ _
  obtain ⟨h1, h2, h3, h4, h5, h6⟩ := hs
  refine ⟨by rw [h1, htx, h.2.2], by rw [h2, htx], by rw [h3, htx, h.1], fun j => (h4 j).trans (h.2.1 _ _), h5, fun y hy => (h6 y hy).trans ?_⟩
  rw [h.1]

theorem State.SentOn.quiet_right {s u w : State} {k e : Nat} {f : RxFlit} (hs : s.SentOn u k e f) (h : u.Quiet w) : s.SentOn w k e f := by
  obtain ⟨h1, h2, h3, h4, h5, h6⟩ := hs
  exact ⟨h.2.2.trans h1, (h.2.1 _ _).trans h2, by rw [h.1, h3], fun j => (h.2.1 _ _).trans (h4 j), by rw [h.1, h5], fun y hy => by rw [h.1, h6 y hy]⟩

theorem State.fwdPort_sends {s : State} {k e : Nat} {f : RxFlit} (hq : (s.lend k).rxq = [f]) (hend : fwdEnd k f = some e) (hne : e ≠ k)
    (hcan : s.canSend e f.vc = true) : s.SentOn (s.fwdPort k) k e f := by
  obtain ⟨u, hu⟩ : ∃ u, u = (s.sendFlit e f.vc f.data).emit (.credit k f.vc) := ⟨_, rfl⟩
  have hfwd : s.fwdFlits k [] [f] = (u, []) := by
    unfold State.fwdFlits
    rw [hend]
    dsimp only
    rw [hcan, hu]
    rfl
  have hport : s.fwdPort k = u.setLend k { u.lend k with rxq := [] } := by
    unfold State.fwdPort
    rw [hq, hfwd]
  have hlend : ∀ j, j ≠ k → (s.fwdPort k).lend j = (s.sendFlit e f.vc f.data).lend j := fun j hj => by
    rw [hport, State.lend_setLend, if_neg hj, hu]
    rfl
  have hfld : ∀ pg g, (s.fwdPort k).fld pg g = (s.sendFlit e f.vc f.data).fld pg g := fun pg g => by
    rw [hport, hu]
    rfl
  refine ⟨?_, (hfld _ _).trans (s.txSeq_sendFlit e f.vc f.data), ?_, fun j => (hfld _ _).trans (s.rxExp_sendFlit e f.vc f.data j), ?_, fun y hy => ?_⟩
  · rw [hport, hu]
    exact congrArg (Out.credit k f.vc :: ·) (s.outs_sendFlit e f.vc f.data)
  · rw [hlend e hne]
    exact (s.lend_sendFlit_self e f.vc f.data).1
  · rw [hport, State.lend_setLend_self]
  · rw [hlend y hy]
    exact s.rxq_sendFlit e f.vc f.data y

/-- A tile that holds one flit sends it on. -/
theorem State.forward_sends {s : State} {k e : Nat} {f : RxFlit} (hk : k < 32) (hq : (s.lend k).rxq = [f])
    (hempty : ∀ y, y < 32 → y / 4 = k / 4 → y ≠ k → (s.lend y).rxq = []) (hend : fwdEnd k f = some e) (hne : e ≠ k)
    (hcan : s.canSend e f.vc = true) : s.SentOn (s.forward k) k e f := by
  have hport : 4 * (k / 4) + k % 4 = k := Nat.div_add_mod k 4
  obtain ⟨l1, l2, hl⟩ := List.append_of_mem (List.mem_range.2 (Nat.mod_lt k (by decide : 0 < 4)))
  have hnd : (l1 ++ (k % 4) :: l2).Nodup := hl ▸ List.nodup_range
  have hnotin := (List.nodup_cons.1 (List.nodup_middle.1 hnd)).1
  have hquiet : ∀ u : State, (∀ y, y ≠ k → (u.lend y).rxq = (s.lend y).rxq) → ∀ l : List Nat, (∀ d ∈ l, d ∈ l1 ++ l2) →
      u.Quiet (u.each l fun d s => s.fwdPort (4 * (k / 4) + d)) := fun u hu l hsub => by
    refine State.each_fwdPort_of_empty l fun d hd => ?_
    have hd4 : d < 4 := by
      have hmem : d ∈ List.range 4 := by
        rw [hl]
        rcases List.mem_append.1 (hsub d hd) with h | h
        · exact List.mem_append_left _ h
        · exact List.mem_append_right _ (List.mem_cons_of_mem _ h)
      exact List.mem_range.1 hmem
    have hdk : d ≠ k % 4 := fun h => hnotin (h ▸ hsub d hd)
    rw [hu _ (by omega)]
    exact hempty _ (by omega) (by omega) (by omega)
  rw [State.forward_eq hk, hl, State.each_append, State.each_cons, hport]
  have hbefore := hquiet s (fun _ _ => rfl) l1 fun d hd => List.mem_append_left _ hd
  have hcan' : (s.each l1 fun d s => s.fwdPort (4 * (k / 4) + d)).canSend e f.vc = true := (State.canSend_congr (hbefore.2.1 _ _) (hbefore.1 e) _).trans hcan
  have hsent := (State.fwdPort_sends (by rw [hbefore.1, hq]) hend hne hcan').quiet_left hbefore
  exact hsent.quiet_right (hquiet _ hsent.rxq l2 fun d hd => List.mem_append_right _ hd)

/-! A flit that is accepted. -/

/-- The end has taken the flit it expected. -/
def State.flitTaken (s : State) (k : Nat) : State :=
  (s.eset k F.LNK_STS_rx_expected F.SER_STS_rx_expected ((s.rxExp k + 1) % seqMod k)).setLend k
    { s.lend k with accSince := (s.lend k).accSince + 1, lastAcc := some (s.rxExp k) }

section
variable {s : State} {k seq ch src dst : Nat} {data : List Byte}

theorem State.flitIn_expected (hseq : seq % seqMod k = s.rxExp k) (hroom : s.rxRoom k ch = true) (hacc : (s.lend k).accSince < 7) :
    s.flitIn k seq ch src dst data = (s.flitTaken k).flitOut k ch src dst data := by
  unfold State.flitIn
  dsimp only
  rw [if_pos hseq, hroom]
  exact if_neg (show ¬ 8 ≤ (s.lend k).accSince + 1 by omega)

theorem State.rxExp_flitTaken : (s.flitTaken k).rxExp k = (s.rxExp k + 1) % seqMod k := s.rxExp_eset k _

theorem State.txSeq_flitTaken (j : Nat) : (s.flitTaken k).txSeq j = s.txSeq j :=
  State.fld_setFld_apart _ _ _ _ (eFld_apart_eFld (by decide) (by decide) (by decide) (by decide) j k)

theorem State.lend_flitTaken_self : (s.flitTaken k).lend k = { s.lend k with accSince := (s.lend k).accSince + 1, lastAcc := some (s.rxExp k) } :=
  State.lend_setLend_self _ _ _

theorem State.lend_flitTaken_other {j : Nat} (h : j ≠ k) : (s.flitTaken k).lend j = s.lend j := (State.lend_setLend _ _ _ _).trans (if_neg h)

theorem State.eState_flitTaken (j : Nat) : (s.flitTaken k).eState j = s.eState j :=
  State.eState_setFld_apart _ _ (Fld.apart_eFld (by decide) (by decide) k) _ _

end

/-! Acknowledgements. -/

/-- The end k holds `l` to acknowledge, replayed `n` times, `o` was sent; the rest of the ends is as it was, but the credits and counts of end k. -/
structure State.Acked (s u : State) (k : Nat) (l : List TxFlit) (n : Nat) (o : List Out) : Prop where
  replay : (u.lend k).replay = l
  replays : (u.lend k).replays = n
  rxq : (u.lend k).rxq = (s.lend k).rxq
  other : ∀ j, j ≠ k → u.lend j = s.lend j
  outs : u.outs = o

section
variable {s u w : State} {k : Nat} {l l' : List TxFlit} {n n' : Nat} {o o' : List Out}

theorem State.Acked.trans (h : s.Acked u k l n o) (h' : u.Acked w k l' n' o') : s.Acked w k l' n' o' :=
  ⟨h'.replay, h'.replays, h'.rxq.trans h.rxq, fun j hj => (h'.other j hj).trans (h.other j hj), h'.outs⟩

theorem State.acked_setReplay (s : State) (k : Nat) (l : List TxFlit) (n : Nat) : s.Acked (s.setReplay k l n) k l n s.outs := by
  have hk := (s.lend_setReplay k l n k).trans (if_pos rfl)
  exact ⟨congrArg LinkEnd.replay hk, congrArg LinkEnd.replays hk, s.rxq_setReplay k l n k, fun j hj => (s.lend_setReplay k l n j).trans (if_neg hj),
    s.outs_setReplay k l n⟩

theorem State.Acked.setCredits (h : s.Acked u k l n o) (vc m : Nat) : s.Acked (u.setCredits k vc m) k l n o := by
  obtain ⟨h1, h2, h3, h4, h5⟩ := h
  have hk : (u.setCredits k vc m).lend k = { u.lend k with credit := (u.lend k).credit.set vc m } := State.lend_setLend_self _ _ _
  exact ⟨(congrArg LinkEnd.replay hk).trans h1, (congrArg LinkEnd.replays hk).trans h2, (congrArg LinkEnd.rxq hk).trans h3,
    fun j hj => ((State.lend_setLend _ _ _ _).trans (if_neg hj)).trans (h4 j hj), h5⟩

theorem State.Acked.creditsIn (h : s.Acked u k l n o) (ns : List Nat) : s.Acked (u.creditsIn k ns) k l n o :=
  State.each_keeps (fun w => s.Acked w k l n o) u _ _ (fun vc _ _ hw => hw.setCredits vc _) h

theorem State.Acked.quiet (h : s.Acked u k l n o) (hq : u.Quiet w) : s.Acked w k l n o := by
  obtain ⟨h1, h2, h3, h4, h5⟩ := h
  exact ⟨by rw [hq.1, h1], by rw [hq.1, h2], by rw [hq.1, h3], fun j hj => (hq.1 j).trans (h4 j hj), hq.2.2.trans h5⟩

end

/-- Sending a list of flits again. -/
theorem State.each_flits (k : Nat) (l : List TxFlit) : ∀ s : State, (s.each l fun f s => s.emit (.flit k f.seq)).outs =
    (l.map fun f => Out.flit k f.seq).reverse ++ s.outs := by
  induction l with
  | nil => exact fun _ => rfl
  | cons f l ih =>
    intro s
    rw [State.each_cons, ih, List.map_cons, List.reverse_cons, List.append_assoc]
    rfl

theorem State.replayAll_acked {s : State} {k : Nat} (h : (s.lend k).replay ≠ []) : s.Acked (s.replayAll k) k (s.lend k).replay ((s.lend k).replays + 1)
    (((s.lend k).replay.map fun f => Out.flit k f.seq).reverse ++ s.outs) := by
  generalize hl : (s.lend k).replay = l at h
  have hset := s.acked_setReplay k l ((s.lend k).replays + 1)
  obtain ⟨u, hu, hcount⟩ : ∃ u, s.replayAll k = u.each l (fun f s => s.emit (.flit k f.seq)) ∧ s.Acked u k l ((s.lend k).replays + 1) s.outs := by
    unfold State.replayAll
    rw [hl]
    cases l with
    | nil => exact absurd rfl h
    | cons f l =>
      refine ⟨_, rfl, ?_⟩
      split
      · exact ⟨hset.replay, hset.replays, hset.rxq, hset.other, hset.outs⟩
      · exact ⟨hset.replay, hset.replays, hset.rxq, hset.other, hset.outs⟩
  rw [hu]
  have hlend : ∀ j, (u.each l (fun f s => s.emit (.flit k f.seq))).lend j = u.lend j := fun j =>
    State.each_keeps (fun w => w.lend j = u.lend j) u l _ (fun _ _ _ hw => hw) rfl
  exact ⟨(congrArg LinkEnd.replay (hlend k)).trans hcount.replay, (congrArg LinkEnd.replays (hlend k)).trans hcount.replays,
    (congrArg LinkEnd.rxq (hlend k)).trans hcount.rxq, fun j hj => (hlend j).trans (hcount.other j hj),
    (u.each_flits k l).trans (congrArg ((l.map fun f => Out.flit k f.seq).reverse ++ ·) hcount.outs)⟩

section
variable {s : State} {k seq i : Nat} (h : (s.lend k).replay.findIdx? (fun f => f.seq == seq % seqMod k) = some i)
include h

theorem State.ackIn_acked : s.Acked (s.ackIn k false seq) k ((s.lend k).replay.drop (i + 1)) 0 s.outs := by
  have hi : i < (s.lend k).replay.length := (List.findIdx?_eq_some_iff_getElem.1 h).1
  have hshort : ¬ ((s.lend k).replay.drop (i + 1)).length = (s.lend k).replay.length := by
    rw [List.length_drop]
    omega
  have hrun : s.ackIn k false seq = s.setReplay k ((s.lend k).replay.drop (i + 1)) 0 := by
    unfold State.ackIn
    dsimp only
    rw [h]
    exact congrArg (s.setReplay k _) (if_neg hshort)
  rw [hrun]
  exact s.acked_setReplay k _ _

theorem State.nakIn_acked : ∃ n, s.Acked (s.ackIn k true seq) k ((s.lend k).replay.drop i) n
    ((((s.lend k).replay.drop i).map fun f => Out.flit k f.seq).reverse ++ s.outs) := by
  have hi : i < (s.lend k).replay.length := (List.findIdx?_eq_some_iff_getElem.1 h).1
  obtain ⟨n, hrun⟩ : ∃ n, s.ackIn k true seq = (s.setReplay k ((s.lend k).replay.drop i) n).replayAll k := by
    unfold State.ackIn
    dsimp only
    rw [h]
    exact ⟨_, rfl⟩
  have hset := s.acked_setReplay k ((s.lend k).replay.drop i) n
  have hne : ((s.setReplay k ((s.lend k).replay.drop i) n).lend k).replay ≠ [] := by
    rw [hset.replay, Ne, List.drop_eq_nil_iff]
    omega
  have hall := hset.trans (State.replayAll_acked hne)
  rw [hset.replay, hset.outs] at hall
  rw [hrun]
  exact ⟨_, hall⟩

end

end Sys2Proof.Machine
end

section
/-! The rows of link traffic (02 R29-R35). -/
namespace Sys2Proof.Machine

/-! Bursts of a bridge. -/

section
variable {s : State} {t : Fin 8} {d : Fin 4} {k : Nat} (hk : k = 4 * t.val + d.val) (hcarries : s.carries k = true)
include hk hcarries

theorem exec_burst_first {b : Burst} (hbv : b.bv = true) (hhm : b.hm = false) (hpend : (s.lend k).pendA = none) :
    exec (.bridgeBurstReceive t d b) s = .next (s.setLend k { s.lend k with pendA := some b }) := by
  show execBridgeBurstReceive t d b s = _
  subst hk
  simp [execBridgeBurstReceive, hbv, hcarries, hpend, hhm]

theorem exec_burst_alone {b : Burst} (hbv : b.bv = true) (hhm : b.hm = true) (hpend : (s.lend k).pendA = none) :
    exec (.bridgeBurstReceive t d b) s = .next (s.halfErr k) := by
  show execBridgeBurstReceive t d b s = _
  subst hk
  simp [execBridgeBurstReceive, hbv, hcarries, hpend, hhm]

theorem exec_burst_mismatch {a b : Burst} (hbv : b.bv = true) (hhm : b.hm = true) (hpend : (s.lend k).pendA = some a) (hseq : a.seq ≠ b.seq) :
    exec (.bridgeBurstReceive t d b) s = .next (s.halfErr k) := by
  show execBridgeBurstReceive t d b s = _
  subst hk
  simp [execBridgeBurstReceive, hbv, hcarries, hpend, hhm, hseq]

omit hk hcarries in
theorem exec_burst_noBv {b : Burst} (hbv : b.bv = false) : exec (.bridgeBurstReceive t d b) s = .next s := by
  show execBridgeBurstReceive t d b s = _
  simp [execBridgeBurstReceive, hbv]

/-- The second half of a flit whose CRC checks. -/
theorem exec_burst_second {a b : Burst} (hbv : b.bv = true) (hhm : b.hm = true) (hpend : (s.lend k).pendA = some a) (hseq : a.seq = b.seq)
    (hcrc : burstCrc (a.data ++ b.data) a.seq.toNat a.vc.toNat = 2 ^ 16 * a.crcHalf.toNat + b.crcHalf.toNat) :
    exec (.bridgeBurstReceive t d b) s = .next ((s.setLend k { s.lend k with pendA := none }).flitIn k a.seq.toNat a.vc.toNat a.src.val a.dst.val (a.data ++ b.data)) := by
  show execBridgeBurstReceive t d b s = _
  subst hk
  simp [execBridgeBurstReceive, hbv, hcarries, hpend, hhm, hseq.symm, hcrc]

end

/-- The end has both halves of a flit, and none waits. -/
def State.paired (s : State) (k : Nat) : State := s.setLend k { s.lend k with pendA := none }

section
variable {s : State} {k : Nat}

theorem State.lend_paired_self : (s.paired k).lend k = { s.lend k with pendA := none } := State.lend_setLend_self _ _ _

theorem State.lend_paired_other {j : Nat} (h : j ≠ k) : (s.paired k).lend j = s.lend j := (State.lend_setLend _ _ _ _).trans (if_neg h)

/-- What a bridge end keeps of a pair whose flit it takes. -/
theorem State.lend_flitTaken_paired : ((s.paired k).flitTaken k).lend k =
    { s.lend k with pendA := none, accSince := (s.lend k).accSince + 1, lastAcc := some (s.rxExp k) } := by
  rw [State.lend_flitTaken_self, State.lend_paired_self]
  rfl

/-- Taking a flit changes no byte of the memories. -/
theorem State.sameBytes_flitTaken : s.sameBytes ((s.paired k).flitTaken k) :=
  State.sameBytes_of_mems (State.setLend_mem _ _ _ (State.eset_mem _ _ _ _ _ (State.setLend_mem _ _ _ s.mems_memsOf)))

theorem State.sameBytes_forward (s : State) (k : Nat) : s.sameBytes (s.forward k) := State.sameBytes_of_mems (State.forward_mem _ _ s.mems_memsOf)

variable {a b : Burst} {q vc : Nat} (hk : k < 32) (hq : q = a.seq.toNat) (hexp : q = s.rxExp k) (hroom : s.rxRoom k vc = true)
  (hacc : (s.lend k).accSince < 7)
include hk hq hexp hroom hacc

theorem State.flitIn_paired (src dst : Nat) (data : List Byte) :
    (s.paired k).flitIn k a.seq.toNat vc src dst data = ((s.paired k).flitTaken k).flitOut k vc src dst data := by
  have hlt : a.seq.toNat < 256 := a.seq.isLt
  refine State.flitIn_expected ?_ ?_ ?_
  · rw [seqMod_of_lt hk, Nat.mod_eq_of_lt hlt, ← hq, hexp]
    rfl
  · rw [← hroom]
    unfold State.rxRoom
    rw [State.lend_paired_self]
  · rw [State.lend_paired_self]
    exact hacc

omit hq hroom hacc in
theorem State.rxExp_taken_paired : ((s.paired k).flitTaken k).rxExp k = (q + 1) % 256 := by
  rw [State.rxExp_flitTaken, seqMod_of_lt hk, hexp]
  rfl

end

section
variable {s : State} {t : Fin 8} {d : Fin 4} {k : Nat} (hk : k = 4 * t.val + d.val) (hcarries : s.carries k = true) {a b : Burst} {q vc : Nat}
  (hbv : b.bv = true) (hhm : b.hm = true) (hpend : (s.lend k).pendA = some a) (hseq : a.seq = b.seq) (hq : q = a.seq.toNat) (hexp : q = s.rxExp k)
  (hvc : vc = a.vc.toNat) (hcrc : burstCrc (a.data ++ b.data) q vc = 2 ^ 16 * a.crcHalf.toNat + b.crcHalf.toNat) (hroom : s.rxRoom k vc = true)
  (hacc : (s.lend k).accSince < 7)
include hk hcarries hbv hhm hpend hseq hq hexp hvc hcrc hroom hacc

theorem exec_burst_taken : exec (.bridgeBurstReceive t d b) s = .next (((s.paired k).flitTaken k).flitOut k vc a.src.val a.dst.val (a.data ++ b.data)) := by
  have hk32 : k < 32 := by omega
  have hcrc' : burstCrc (a.data ++ b.data) a.seq.toNat a.vc.toNat = 2 ^ 16 * a.crcHalf.toNat + b.crcHalf.toNat := by rw [← hq, ← hvc, hcrc]
  refine (exec_burst_second hk hcarries hbv hhm hpend hseq hcrc').trans (congrArg Host.Outcome.next ?_)
  rw [← hvc]
  exact State.flitIn_paired hk32 hq hexp hroom hacc _ _ _

/-- A flit for this tile leaves the link. -/
theorem burst_delivers (hdst : a.dst = t) : Completes (.bridgeBurstReceive t d b) s fun u =>
    u.outs = .credit k vc :: .deliver k vc (a.data ++ b.data) :: s.outs ∧ u.rxExp k = (q + 1) % 256 ∧
    (u.lend k).pendA = none ∧ (u.lend k).lastAcc = some q ∧ (u.lend k).accSince = (s.lend k).accSince + 1 ∧ s.sameBytes u := by
  have hk32 : k < 32 := by omega
  have htile : t.val = k / 4 := by omega
  have hrun := exec_burst_taken hk hcarries hbv hhm hpend hseq hq hexp hvc hcrc hroom hacc
  have hlend := State.lend_flitTaken_paired (s := s) (k := k)
  have hrx : ((s.paired k).flitTaken k).rxExp k = (q + 1) % 256 := State.rxExp_taken_paired hk32 hexp
  have hbytes := State.sameBytes_flitTaken (s := s) (k := k)
  have houts : ((s.paired k).flitTaken k).outs = s.outs := rfl
  generalize (s.paired k).flitTaken k = w at hrun hlend hrx hbytes houts
  have hout : w.flitOut k vc a.src.val a.dst.val (a.data ++ b.data) = (w.emit (.deliver k vc (a.data ++ b.data))).emit (.credit k vc) := by
    unfold State.flitOut
    rw [isSer_of_lt hk32, hdst]
    exact (if_neg Bool.false_ne_true).trans (if_pos htile)
  rw [hout] at hrun
  refine ⟨_, hrun, ?_, hrx, ?_, ?_, ?_, hbytes⟩
  · rw [State.emit_outs, State.emit_outs, houts]
  · rw [State.lend_emit, State.lend_emit, hlend]
  · rw [State.lend_emit, State.lend_emit, hlend, hexp]
  · rw [State.lend_emit, State.lend_emit, hlend]

/-- A flit for another tile goes on at the next link. -/
theorem burst_forwards {e : Nat} (hdst : a.dst ≠ t) (hempty : ∀ y, y < 32 → y / 4 = k / 4 → (s.lend y).rxq = [])
    (hend : fwdEnd k ⟨vc, a.src, a.dst, a.data ++ b.data⟩ = some e) (hne : e ≠ k) (hcan : s.canSend e vc = true) :
    Completes (.bridgeBurstReceive t d b) s fun u =>
      u.outs = .credit k vc :: .flit e (s.txSeq e) :: s.outs ∧ u.rxExp k = (q + 1) % 256 ∧ u.txSeq e = (s.txSeq e + 1) % 256 ∧
      (u.lend e).replay = (s.lend e).replay ++ [⟨s.txSeq e, vc, a.data ++ b.data⟩] ∧ (u.lend k).rxq = [] ∧ s.sameBytes u := by
  have hk32 : k < 32 := by omega
  have hvc4 : vc < 4 := hvc ▸ a.vc.isLt
  have he := (fwdEnd_lt hk32 a.src.isLt a.dst.isLt hvc4 hend).1
  have hrun := exec_burst_taken hk hcarries hbv hhm hpend hseq hq hexp hvc hcrc hroom hacc
  have hlend := State.lend_flitTaken_paired (s := s) (k := k)
  have hother : ∀ j, j ≠ k → ((s.paired k).flitTaken k).lend j = s.lend j := fun j hj => (State.lend_flitTaken_other hj).trans (State.lend_paired_other hj)
  have hrx : ((s.paired k).flitTaken k).rxExp k = (q + 1) % 256 := State.rxExp_taken_paired hk32 hexp
  have htx : ((s.paired k).flitTaken k).txSeq e = s.txSeq e := State.txSeq_flitTaken (s := s.paired k) e
  have hstate : ((s.paired k).flitTaken k).eState e = s.eState e := State.eState_flitTaken (s := s.paired k) e
  have hbytes := State.sameBytes_flitTaken (s := s) (k := k)
  have houts : ((s.paired k).flitTaken k).outs = s.outs := rfl
  generalize (s.paired k).flitTaken k = w at hrun hlend hother hrx htx hstate hbytes houts
  obtain ⟨v, hv⟩ : ∃ v, v = w.setLend k { w.lend k with rxq := (w.lend k).rxq ++ [⟨vc, a.src, a.dst, a.data ++ b.data⟩] } := ⟨_, rfl⟩
  have hvlend : ∀ j, j ≠ k → v.lend j = s.lend j := fun j hj => by rw [hv, State.lend_setLend, if_neg hj, hother j hj]
  have hrxq : (v.lend k).rxq = [⟨vc, a.src, a.dst, a.data ++ b.data⟩] := by
    rw [hv, State.lend_setLend_self, hlend]
    dsimp only
    rw [hempty k hk32 rfl]
    rfl
  have hfld : ∀ pg f, v.fld pg f = w.fld pg f := fun pg f => by rw [hv, State.fld_setLend]
  have hsend : v.SentOn (v.forward k) k e ⟨vc, a.src, a.dst, a.data ++ b.data⟩ :=
    State.forward_sends hk32 hrxq (fun y hy hyk hyne => by rw [hvlend y hyne]; exact hempty y hy hyk) hend hne
      ((State.canSend_congr ((hfld _ _).trans hstate) (hvlend e hne) vc).trans hcan)
  have hout : w.flitOut k vc a.src.val a.dst.val (a.data ++ b.data) = v.forward k := by
    have hnot : ¬ a.dst.val = k / 4 := fun h => hdst (Fin.ext (by omega))
    rw [hv]
    unfold State.flitOut
    rw [isSer_of_lt hk32]
    exact (if_neg Bool.false_ne_true).trans (if_neg hnot)
  rw [hout] at hrun
  have hvtx : v.txSeq e = s.txSeq e := (hfld _ _).trans htx
  have hvouts : v.outs = s.outs := by rw [hv, State.setLend_outs, houts]
  have hvbytes : w.sameBytes v := by
    rw [hv]
    exact State.sameBytes_of_eq rfl rfl rfl
  refine ⟨_, hrun, ?_, (hsend.rxExp k).trans ((hfld _ _).trans hrx), ?_, ?_, hsend.empty, (hbytes.trans hvbytes).trans (v.sameBytes_forward k)⟩
  · rw [hsend.outs, hvtx, hvouts]
  · rw [hsend.txSeq, hvtx, seqMod_of_lt he]
  · rw [hsend.replay, hvtx, hvlend e hne]

end

/-! Flits of a bundle. -/

section
variable {s : State} {t : Fin 8} {hub : Bool} {k : Nat} {f : BundleFlit} (hk : k = (if hub then 40 else 32) + t.val) (hcarries : s.carries k = true)
include hk hcarries

theorem exec_flit_unfixable (hfix : flitFixable f = false) :
    exec (.bundleFlitReceive t hub f) s = .next (((s.fecCount k 0).satFld (endPg k) F.SER_CNT_fec_uncorr 1).serCrcErr k) := by
  show execBundleFlitReceive t hub f s = _
  simp [execBundleFlitReceive, ← hk, hcarries, hfix, flitCorrected]

theorem exec_flit_bad {h : Nat} (hh : h = leAt (flitBytes f) 0 4) (hfix : flitFixable f = true)
    (hbad : linkCrc (byteBits (slice (flitBytes f) 0 232)) ≠ leAt (flitBytes f) 232 4 ∨ 7 ≤ bits h 0 4) :
    exec (.bundleFlitReceive t hub f) s = .next ((s.fecCount k (flitCorrected f)).serCrcErr k) := by
  have hdrop : (!flitFixable f || linkCrc (byteBits (slice (flitBytes f) 0 232)) != leAt (flitBytes f) 232 4 || decide (7 ≤ bits h 0 4)) = true := by
    rcases hbad with hbad | hbad
    · simp [hbad]
    · simp [hbad]
  subst hh
  show execBundleFlitReceive t hub f s = _
  unfold execBundleFlitReceive
  dsimp only
  rw [← hk, hcarries, hdrop, hfix]
  rfl

/-- A good flit without an acknowledgement: its credits, and the flit by its sequence. -/
theorem exec_flit_good {h : Nat} (hh : h = leAt (flitBytes f) 0 4) (hfix : flitFixable f = true)
    (hcrc : linkCrc (byteBits (slice (flitBytes f) 0 232)) = leAt (flitBytes f) 232 4) (htype : bits h 0 4 < 7) (hack : bits h 24 2 = 0) :
    exec (.bundleFlitReceive t hub f) s = .next (((s.fecCount k (flitCorrected f)).setCredits k 0 ((s.fecCount k (flitCorrected f)).credits k 0 + bits h 26 6)).flitIn k
      (bits h 4 10) (bits h 0 4) 0 0 (slice (flitBytes f) 4 228)) := by
  have hkeep : (!flitFixable f || linkCrc (byteBits (slice (flitBytes f) 0 232)) != leAt (flitBytes f) 232 4 || decide (7 ≤ bits h 0 4)) = false := by
    simp [hfix, hcrc, htype]
  subst hh
  show execBundleFlitReceive t hub f s = _
  unfold execBundleFlitReceive
  dsimp only
  rw [← hk, hcarries, hkeep, hfix, hack]
  rfl

end

/-- Counting what FEC corrected keeps the sequences, what was sent and what waits for an acknowledgement. -/
theorem State.fecCount_keeps (s : State) (k n : Nat) : (s.fecCount k n).rxExp k = s.rxExp k ∧ (s.fecCount k n).outs = s.outs ∧
    ((s.fecCount k n).lend k).accSince = (s.lend k).accSince := by
  have hacc : ∀ w : LinkEnd, ((s.setLend k w).satFld (endPg k) F.SER_CNT_fec_corr n).lend k = w := fun w => State.lend_setLend_self _ _ _
  refine ⟨State.fld_setFld_apart _ _ _ _ (eFld_apart_of (by decide) (by decide)), rfl, ?_⟩
  unfold State.fecCount
  rw [hacc]
  split
  · rfl
  · split
    · rfl
    · rfl

theorem flit_delivers {s : State} {t : Fin 8} {hub : Bool} {k : Nat} {f : BundleFlit} {h : Nat} (hk : k = (if hub then 40 else 32) + t.val)
    (hcarries : s.carries k = true) (hh : h = leAt (flitBytes f) 0 4) (hfix : flitFixable f = true)
    (hcrc : linkCrc (byteBits (slice (flitBytes f) 0 232)) = leAt (flitBytes f) 232 4) (htype : bits h 0 4 < 7) (hack : bits h 24 2 = 0)
    (hseq : bits h 4 10 = s.rxExp k) (hacc : (s.lend k).accSince < 7) :
    Completes (.bundleFlitReceive t hub f) s fun u =>
      u.outs = .deliver k (bits h 0 4) (slice (flitBytes f) 4 228) :: s.outs ∧ u.rxExp k = (s.rxExp k + 1) % 1024 := by
  have hk32 : 32 ≤ k := by
    rw [hk]
    split <;> omega
  obtain ⟨hrx, houts, hsince⟩ := s.fecCount_keeps k (flitCorrected f)
  have hrun := exec_flit_good hk hcarries hh hfix hcrc htype hack
  obtain ⟨u, hu⟩ : ∃ u, u = (s.fecCount k (flitCorrected f)).setCredits k 0 ((s.fecCount k (flitCorrected f)).credits k 0 + bits h 26 6) := ⟨_, rfl⟩
  have hrx' : u.rxExp k = s.rxExp k := by rw [hu]; exact hrx
  have houts' : u.outs = s.outs := by rw [hu]; exact houts
  have hsince' : (u.lend k).accSince = (s.lend k).accSince := by
    rw [hu]
    unfold State.setCredits
    rw [State.lend_setLend_self]
    exact hsince
  have hlt : bits h 4 10 < 1024 := Nat.mod_lt _ (by decide)
  have hroom : u.rxRoom k (bits h 0 4) = true := by
    unfold State.rxRoom
    rw [isSer_of_le hk32]
    rfl
  have hin := State.flitIn_expected (s := u) (k := k) (src := 0) (dst := 0) (data := slice (flitBytes f) 4 228)
    (by rw [seqMod_of_le hk32, Nat.mod_eq_of_lt hlt, hrx', hseq]) hroom (by rw [hsince']; exact hacc)
  have hout : (u.flitTaken k).flitOut k (bits h 0 4) 0 0 (slice (flitBytes f) 4 228) = (u.flitTaken k).emit (.deliver k (bits h 0 4) (slice (flitBytes f) 4 228)) := by
    unfold State.flitOut
    rw [isSer_of_le hk32]
    rfl
  rw [← hu, hin, hout] at hrun
  refine ⟨_, hrun, ?_, ?_⟩
  · exact congrArg (Out.deliver k (bits h 0 4) (slice (flitBytes f) 4 228) :: ·) houts'
  · exact (State.rxExp_flitTaken (s := u)).trans (by rw [seqMod_of_le hk32, hrx'])

/-! Acknowledgements and timers. -/

section
variable {s : State} {e : LinkEndId} {k : Nat} (hk : k = endKey e) (hcarries : s.carries k = true)
include hk hcarries

theorem exec_ackNak_taken {w : AckWord} (hpar : w.parityOk = true) :
    (w.typ = .nak → exec (.ackNakReceive e w) s = .next
      (if isSer k then s.ackIn k true w.seq else ((s.ackIn k true w.seq).creditsIn k w.credits).forward k)) ∧
    (w.typ = .ack → exec (.ackNakReceive e w) s = .next
      (if isSer k then s.ackIn k false w.seq else ((s.ackIn k false w.seq).creditsIn k w.credits).forward k)) := by
  subst hk
  constructor
  · intro htyp
    show execAckNakReceive e w s = _
    simp [execAckNakReceive, hpar, hcarries, htyp]
  · intro htyp
    show execAckNakReceive e w s = _
    simp [execAckNakReceive, hpar, hcarries, htyp]

theorem exec_ackNak_none {w : AckWord} (htyp : w.typ = .none) (hser : isSer k = true) : exec (.ackNakReceive e w) s = .next s := by
  subst hk
  show execAckNakReceive e w s = _
  simp [execAckNakReceive, hcarries, htyp, hser]

omit hk hcarries in
theorem exec_ackNak_parity {w : AckWord} (hpar : w.parityOk = false) : exec (.ackNakReceive e w) s = .next s := by
  show execAckNakReceive e w s = _
  simp [execAckNakReceive, hpar]

omit hcarries hk in
/-- The credits that come with an acknowledgement free nothing where nothing waits. -/
theorem State.Acked.ackEnd {u : State} {l : List TxFlit} {n : Nat} {o : List Out} (h : s.Acked u k l n o) (ns : List Nat)
    (hidle : isSer k = true ∨ ∀ y, y / 4 = k / 4 → (s.lend y).rxq = []) : s.Acked (if isSer k then u else (u.creditsIn k ns).forward k) k l n o := by
  split
  · exact h
  · next hser =>
    have hempty := hidle.resolve_left hser
    have hcredits := h.creditsIn ns
    refine hcredits.quiet (State.forward_quiet fun y hy => ?_)
    by_cases hyk : y = k
    · subst hyk
      rw [hcredits.rxq, hempty y rfl]
    · rw [hcredits.other y hyk, hempty y hy]

theorem ackNak_results {w : AckWord} (hpar : w.parityOk = true) (hidle : isSer k = true ∨ ∀ y, y / 4 = k / 4 → (s.lend y).rxq = []) {i : Nat}
    (hfind : (s.lend k).replay.findIdx? (fun f => f.seq == w.seq % seqMod k) = some i) :
    (w.typ = .nak → Completes (.ackNakReceive e w) s fun u => (u.lend k).replay = (s.lend k).replay.drop i ∧
      u.outs = (((s.lend k).replay.drop i).map fun f => Out.flit k f.seq).reverse ++ s.outs ∧ (∀ j, j ≠ k → u.lend j = s.lend j)) ∧
    (w.typ = .ack → Completes (.ackNakReceive e w) s fun u => (u.lend k).replay = (s.lend k).replay.drop (i + 1) ∧ (u.lend k).replays = 0 ∧ u.outs = s.outs ∧
      (∀ j, j ≠ k → u.lend j = s.lend j)) := by
  obtain ⟨hnak, hack⟩ := exec_ackNak_taken hk hcarries hpar
  constructor
  · intro htyp
    obtain ⟨n, h⟩ := State.nakIn_acked hfind
    have hall := h.ackEnd w.credits hidle
    exact ⟨_, hnak htyp, hall.replay, hall.outs, hall.other⟩
  · intro htyp
    have hall := (State.ackIn_acked hfind).ackEnd w.credits hidle
    exact ⟨_, hack htyp, hall.replay, hall.replays, hall.outs, hall.other⟩

theorem replayTimer_replays (hne : (s.lend k).replay ≠ []) : Completes (.replayTimerExpiry e) s fun u => (u.lend k).replay = (s.lend k).replay ∧
    (u.lend k).replays = (s.lend k).replays + 1 ∧ u.outs = ((s.lend k).replay.map fun f => Out.flit k f.seq).reverse ++ s.outs := by
  have h := State.replayAll_acked hne
  subst hk
  exact ⟨_, congrArg Host.Outcome.next (if_pos hcarries), h.replay, h.replays, h.outs⟩

theorem ackTimer_acknowledges {q : Nat} (hlast : (s.lend k).lastAcc = some q) (hsince : (s.lend k).accSince ≠ 0) :
    Completes (.ackIntervalTimer e) s fun u => u.outs = .ack k false q :: s.outs ∧ (u.lend k).accSince = 0 := by
  have hsend : s.sendAck k = (s.setLend k { s.lend k with accSince := 0 }).emit (.ack k false q) := by
    unfold State.sendAck
    rw [hlast]
  subst hk
  refine ⟨_, congrArg Host.Outcome.next (if_pos ?_), ?_, ?_⟩
  · simp [hcarries, hsince]
  · rw [hsend]
    rfl
  · rw [hsend, State.lend_emit, State.lend_setLend_self]

omit hcarries in
theorem exec_ackTimer_idle (hsince : (s.lend k).accSince = 0) : exec (.ackIntervalTimer e) s = .next s := by
  subst hk
  exact congrArg Host.Outcome.next (if_neg (by simp [hsince]))

theorem exec_keepAlive_bridge (hlt : k < 32) : exec (.keepAliveSend e) s = .next (s.emit (.keepAlive k)) := by
  have hser := isSer_of_lt hlt
  subst hk
  show execKeepAliveSend e s = _
  simp [execKeepAliveSend, hcarries, hser]

theorem keepAlive_bundle (hle : 32 ≤ k) (hst : s.eState k = 3) (hspace : (s.lend k).replay.length < 256) : Completes (.keepAliveSend e) s fun u =>
    u.outs = .keepAlive k :: .flit k (s.txSeq k) :: s.outs ∧ u.txSeq k = (s.txSeq k + 1) % 1024 ∧
    (u.lend k).replay = (s.lend k).replay ++ [⟨s.txSeq k, 0, []⟩] := by
  have hser := isSer_of_le hle
  have hcap : ¬ replayCap k ≤ (s.lend k).replay.length := by
    unfold replayCap
    rw [hser]
    exact Nat.not_le.2 hspace
  have hrun : exec (.keepAliveSend e) s = .next ((s.sendFlit k 0 []).emit (.keepAlive k)) := by
    subst hk
    show execKeepAliveSend e s = _
    unfold execKeepAliveSend
    dsimp only
    rw [hcarries, hser]
    exact congrArg Host.Outcome.next (if_neg (not_or.2 ⟨not_not_intro hst, hcap⟩))
  refine ⟨_, hrun, congrArg (Out.keepAlive k :: ·) (s.outs_sendFlit k 0 []), ?_, (s.lend_sendFlit_self k 0 []).1⟩
  rw [← seqMod_of_le hle]
  exact s.txSeq_sendFlit k 0 []

theorem exec_keepAlive_held (hle : 32 ≤ k) (h : s.eState k ≠ 3 ∨ 256 ≤ (s.lend k).replay.length) : exec (.keepAliveSend e) s = .next s := by
  have hser := isSer_of_le hle
  have hcap : s.eState k ≠ 3 ∨ replayCap k ≤ (s.lend k).replay.length := by
    unfold replayCap
    rw [hser]
    exact h
  subst hk
  show execKeepAliveSend e s = _
  unfold execKeepAliveSend
  dsimp only
  rw [hcarries, hser]
  exact congrArg Host.Outcome.next (if_pos hcap)

/-- A loss of clock is reported and no byte changes. -/
theorem watchdog_reports : Completes (.linkWatchdogExpiry e) s fun u => .clockLoss (farTile k) ∈ u.outs ∧ s.sameBytes u := by
  subst hk
  refine ⟨_, congrArg Host.Outcome.next (if_pos (by simp [hcarries])), State.trailPut_sends _ _ _ _ _ List.mem_cons_self, ?_⟩
  exact State.sameBytes_of_mems (State.clockLost_mem _ _ _ _ s.mems_memsOf)

end

theorem exec_idleEnd {s : State} {e : LinkEndId} (h : s.carries (endKey e) = false) :
    exec (.keepAliveSend e) s = .next s ∧ exec (.replayTimerExpiry e) s = .next s := by
  constructor
  · show execKeepAliveSend e s = _
    simp [execKeepAliveSend, h]
  · show execReplayTimerExpiry e s = _
    simp [execReplayTimerExpiry, h]

theorem dclkLoss_reports (s : State) (x : Fin 512) : Completes (.dclkLossReport x) s fun u => .clockLoss (x / 64) ∈ u.outs ∧ s.sameBytes u :=
  ⟨_, rfl, State.trailPut_sends _ _ _ _ _ List.mem_cons_self, State.sameBytes_of_mems (State.trailPut_mem _ _ _ _ _ (State.emit_mem _ _ s.mems_memsOf))⟩

end Sys2Proof.Machine
end

section
/-! Settles the traffic and the control writes of the links (02 R29-R40, R49). -/
namespace Sys2Proof.Machine

theorem endPg_port (t : Fin 8) (d : Fin 4) : endPg (4 * t + d) = P.lnk t d := by
  have h : 4 * t.val + d.val < 32 := by omega
  rw [endPg_of_lt h]
  congr 1 <;> omega

theorem endPg_bundle : ∀ (t : Fin 8) (hub : Bool), endPg ((if hub then 40 else 32) + t) = if hub then P.serHub t else P.serTile t := by decide

theorem farEnd_bundle : ∀ t : Fin 8, farEnd (32 + t) = some (40 + t.val) ∧ farEnd (40 + t) = some (32 + t.val) := by decide

/-- Both ends of a bundle are the ends of either of them. -/
theorem bundle_ends : ∀ (t : Fin 8) (hub : Bool), ∀ j, j = 32 + t.val ∨ j = 40 + t.val →
    j ∈ ((if hub then 40 else 32) + t.val) :: (farEnd ((if hub then 40 else 32) + t.val)).toList := by
  intro t hub j hj
  obtain ⟨h32, h40⟩ := farEnd_bundle t
  cases hub
  · rw [if_neg Bool.false_ne_true, h32]
    rcases hj with rfl | rfl <;> simp
  · rw [if_pos rfl, h40]
    rcases hj with rfl | rfl <;> simp

/-! A write of a bit of LNK_CTL. -/

section
variable {s : State} {rq : Requester} {pg : Nat} {f : Fld} {v : Nat}

theorem State.rwlWrite_open (h : s.flag pg F.PG_LOCK_locked = false) (k : State → State) : s.rwlWrite rq pg f v k = k (s.setFld pg f v) := by
  unfold State.rwlWrite
  rw [h]
  rfl

theorem State.rwlWrite_locked (h : s.flag pg F.PG_LOCK_locked = true) (hne : s.fld pg f ≠ v) (k : State → State) :
    s.rwlWrite rq pg f v k = s.countErr pg 0x03 (rqCode rq) (accessAddr rq pg f.off) := by
  unfold State.rwlWrite
  rw [h]
  exact if_neg hne

end

theorem State.fld_endsTake {f : Fld} (h : f.apart F.LNK_STS_state = true) (s : State) (l : List Nat) (v pg : Nat) : (s.endsTake l v).fld pg f = s.fld pg f := by
  refine State.each_keeps (fun u => u.fld pg f = s.fld pg f) s l _ (fun e _ u hu => ?_) rfl
  have hset : (u.eset e F.LNK_STS_state F.SER_STS_state v).fld pg f = u.fld pg f := by
    unfold State.eset
    rw [eFld_state]
    exact State.fld_setFld_apart _ _ _ _ h
  exact hset.trans hu

theorem State.fld_endsNoteRetrain (s : State) (l : List Nat) (b : Bool) (pg : Nat) (f : Fld) : (s.endsNoteRetrain l b).fld pg f = s.fld pg f :=
  State.each_keeps (fun u => u.fld pg f = s.fld pg f) s l _ (fun _ _ _ hu => hu) rfl

/-! A retrain that is asked for. -/

section
variable {s : State} {k : Nat}

theorem State.lnkRetrainWrite_active (h : s.eState k = 3) : s.lnkRetrainWrite k = (s.retrain k).setRetrain k true := by
  have hasked : s.retrainAsked k = s.retrain k := by
    unfold State.retrainAsked
    rw [h]
    rfl
  unfold State.lnkRetrainWrite
  dsimp only
  rw [hasked]
  exact if_pos (.inl (State.eState_retrain s k k h List.mem_cons_self))

theorem State.lnkRetrainWrite_underWay (h : s.eState k = 4 ∨ s.eState k = 5) : s.lnkRetrainWrite k = s.setRetrain k true := by
  have hasked : s.retrainAsked k = s := by
    unfold State.retrainAsked State.retrain
    rcases h with h | h
    · rw [h]
      rfl
    · rw [h]
      rfl
  unfold State.lnkRetrainWrite
  dsimp only
  rw [hasked]
  refine if_pos ?_
  rcases h with h | h
  · exact .inl h
  · exact .inr (.inl h)

/-- What an ACTIVE link that is asked to retrain shows. -/
theorem State.lnkRetrainWrite_spec (h : s.eState k = 3) : (∀ j ∈ k :: (farEnd k).toList, (s.lnkRetrainWrite k).eState j = 4) ∧
    (s.lnkRetrainWrite k).eget k F.LNK_CTL_retrain F.SER_CTL_retrain = 1 ∧ ((s.lnkRetrainWrite k).lend k).drainRetrain = true := by
  rw [State.lnkRetrainWrite_active h]
  refine ⟨fun j hj => ?_, State.eget_eset_self (by decide) (by decide), ?_⟩
  · exact (State.eState_setFld_apart _ _ (Fld.apart_eFld (by decide) (by decide) k) _ _).trans (State.eState_retrain s k j h hj)
  · exact congrArg LinkEnd.drainRetrain (State.lend_retrain s k k h List.mem_cons_self)

/-- An ACTIVE link that is to go DOWN drains. -/
theorem State.drainDown_active (h : s.eState k = 3) : s.drainDown k = (s.endsNoteRetrain (k :: (farEnd k).toList) false).endsTake (k :: (farEnd k).toList) 4 := by
  unfold State.drainDown
  rw [h]
  exact State.linkSet_of_keeps _ _ _ (by decide) (by decide)

end

section
variable {s : State} {rq : Requester} {t : Fin 8} {d : Fin 4} {k pg : Nat} (hk : k = 4 * t + d) (hpg : pg = P.lnk t d)
include hk hpg

theorem endPg_of_port : endPg k = pg := by
  rw [hk, hpg]
  exact endPg_port t d

variable (hg : s.grants rq pg = true)
include hg

theorem exec_lnkRetrain : exec (.lnkRetrain rq t d) s = .next (s.lnkRetrainWrite k) := by
  subst hk hpg
  exact congrArg Host.Outcome.next (State.tileWrite_of_grants hg _ _ _)

theorem exec_lnkForceDown (v : Bool) : exec (.lnkForceDown rq t d v) s = .next (s.lnkForceWrite rq k v) := by
  subst hk hpg
  exact congrArg Host.Outcome.next (State.tileWrite_of_grants hg _ _ _)

theorem exec_lnkEnable (v : Bool) : exec (.lnkEnable rq t d v) s = .next (s.lnkEnableWrite rq k v) := by
  subst hk hpg
  exact congrArg Host.Outcome.next (State.tileWrite_of_grants hg _ _ _)

omit hk in
theorem exec_lnkClrCnt : exec (.lnkClrCnt rq t d) s = .next (((((s.setFld pg F.LNK_CNT0_replay_cnt 0).setFld pg F.LNK_CNT0_crc_err_cnt 0).setFld pg
    F.LNK_CNT1_half_err_cnt 0).setFld pg F.LNK_CNT1_dup_drop_cnt 0)) := by
  subst hpg
  exact congrArg Host.Outcome.next (State.tileWrite_of_grants hg _ _ _)

theorem lnkRetrain_active {e : Nat} (hfar : farEnd k = some e) (hst : s.eState k = 3) : Completes (.lnkRetrain rq t d) s fun u =>
    u.eState k = 4 ∧ u.eState e = 4 ∧ u.fld pg F.LNK_CTL_retrain = 1 ∧ (u.lend k).drainRetrain = true ∧ s.sameBytes u := by
  have hk32 : k < 32 := by omega
  obtain ⟨hstates, hret, hdrain⟩ := State.lnkRetrainWrite_spec hst
  have hfld : (s.lnkRetrainWrite k).fld pg F.LNK_CTL_retrain = 1 := by
    rw [← endPg_of_port hk hpg, ← State.eget_bridge _ hk32 _ F.SER_CTL_retrain, hret]
  exact ⟨_, exec_lnkRetrain hk hpg hg, hstates k List.mem_cons_self, hstates e (List.mem_cons_of_mem _ (Option.mem_toList.2 hfar)), hfld, hdrain,
    State.sameBytes_of_mems (State.lnkRetrainWrite_mem _ _ s.mems_memsOf)⟩

theorem exec_lnkRetrain_underWay (hst : s.eState k = 4 ∨ s.eState k = 5) : exec (.lnkRetrain rq t d) s = .next (s.setFld pg F.LNK_CTL_retrain 1) := by
  have hset : s.setRetrain k true = s.setFld pg F.LNK_CTL_retrain 1 := by
    unfold State.setRetrain State.eset eFld
    rw [isSer_of_lt (by omega), endPg_of_port hk hpg]
    rfl
  rw [exec_lnkRetrain hk hpg hg, State.lnkRetrainWrite_underWay hst, hset]

theorem exec_lnkForceDown_locked (hlock : s.flag pg F.PG_LOCK_locked = true) {v : Bool} (hne : s.fld pg F.LNK_CTL_force_down ≠ b2n v) :
    exec (.lnkForceDown rq t d v) s = .next (s.countErr pg 0x03 (rqCode rq) (accessAddr rq pg 0x040)) := by
  have hpage := endPg_of_port hk hpg
  rw [exec_lnkForceDown hk hpg hg]
  unfold State.lnkForceWrite
  rw [hpage]
  exact congrArg Host.Outcome.next (State.rwlWrite_locked hlock hne _)

variable (hopen : s.flag pg F.PG_LOCK_locked = false)
include hopen

theorem lnkForceDown_drains {e : Nat} (hfar : farEnd k = some e) (hst : s.eState k = 3) : Completes (.lnkForceDown rq t d true) s fun u =>
    u.fld pg F.LNK_CTL_force_down = 1 ∧ u.eState k = 4 ∧ u.eState e = 4 ∧ (u.lend k).drainRetrain = false := by
  have hpage := endPg_of_port hk hpg
  have hrun : exec (.lnkForceDown rq t d true) s = .next ((s.setFld pg F.LNK_CTL_force_down 1).drainDown k) := by
    rw [exec_lnkForceDown hk hpg hg]
    unfold State.lnkForceWrite
    rw [hpage, State.rwlWrite_open hopen]
    rfl
  have hst' : (s.setFld pg F.LNK_CTL_force_down 1).eState k = 3 := (State.eState_setFld_apart _ _ (by decide) _ _).trans hst
  rw [State.drainDown_active hst'] at hrun
  refine ⟨_, hrun, ?_, State.eState_endsTake _ _ 4 _ List.mem_cons_self, State.eState_endsTake _ _ 4 _ (List.mem_cons_of_mem _ (Option.mem_toList.2 hfar)), ?_⟩
  · exact (State.fld_endsTake (by decide) _ _ _ _).trans ((State.fld_endsNoteRetrain _ _ _ _ _).trans (State.fld_setFld_of_lt _ _ _ (by decide)))
  · rw [State.lend_endsTake, State.lend_endsNoteRetrain, if_pos List.mem_cons_self]

theorem exec_lnkForceDown_release : exec (.lnkForceDown rq t d false) s = .next (s.setFld pg F.LNK_CTL_force_down 0) := by
  have hpage := endPg_of_port hk hpg
  rw [exec_lnkForceDown hk hpg hg]
  unfold State.lnkForceWrite
  rw [hpage, State.rwlWrite_open hopen]
  rfl

theorem exec_lnkEnable_open : exec (.lnkEnable rq t d true) s = .next (if (s.setFld pg F.LNK_CTL_enable 1).eState k = 1 ∧ (s.setFld pg F.LNK_CTL_enable 1).mayTrain k ∧
    ((s.setFld pg F.LNK_CTL_enable 1).lend k).failed = false then (s.setFld pg F.LNK_CTL_enable 1).linkSet k 2 else s.setFld pg F.LNK_CTL_enable 1) := by
  have hpage := endPg_of_port hk hpg
  rw [exec_lnkEnable hk hpg hg]
  unfold State.lnkEnableWrite
  rw [hpage, State.rwlWrite_open hopen]
  rfl

theorem exec_lnkEnable_up (hst : s.eState k ≠ 1) : exec (.lnkEnable rq t d true) s = .next (s.setFld pg F.LNK_CTL_enable 1) := by
  rw [exec_lnkEnable_open hk hpg hg hopen]
  refine congrArg Host.Outcome.next (if_neg fun h => hst ?_)
  exact (State.eState_setFld_apart _ _ (by decide) _ _).symm.trans h.1

theorem lnkEnable_trains (hst : s.eState k = 1) (hmay : (s.setFld pg F.LNK_CTL_enable 1).mayTrain k = true) (hfail : (s.lend k).failed = false) :
    Completes (.lnkEnable rq t d true) s fun v => v.fld pg F.LNK_CTL_enable = 1 ∧ v.eState k = 2 := by
  have hst' : (s.setFld pg F.LNK_CTL_enable 1).eState k = 1 := (State.eState_setFld_apart _ _ (by decide) _ _).trans hst
  have hrun := exec_lnkEnable_open hk hpg hg hopen
  rw [if_pos ⟨hst', hmay, hfail⟩, State.linkSet_of_keeps _ _ _ (by decide) (by decide)] at hrun
  exact ⟨_, hrun, (State.fld_endsTake (by decide) _ _ _ _).trans (State.fld_setFld_of_lt _ _ _ (by decide)), State.eState_endsTake _ _ 2 _ List.mem_cons_self⟩

end

theorem lnkClrCnt_clears {s : State} {rq : Requester} {t : Fin 8} {d : Fin 4} {pg : Nat} (hpg : pg = P.lnk t d)
    (hg : s.grants rq pg = true) : Completes (.lnkClrCnt rq t d) s fun u =>
      u.fld pg F.LNK_CNT0_replay_cnt = 0 ∧ u.fld pg F.LNK_CNT0_crc_err_cnt = 0 ∧ u.fld pg F.LNK_CNT1_half_err_cnt = 0 ∧ u.fld pg F.LNK_CNT1_dup_drop_cnt = 0 ∧
      s.sameRegs u [fkey pg F.LNK_CNT0_replay_cnt, fkey pg F.LNK_CNT0_crc_err_cnt, fkey pg F.LNK_CNT1_half_err_cnt, fkey pg F.LNK_CNT1_dup_drop_cnt] := by
  refine ⟨_, exec_lnkClrCnt hpg hg, ?_, ?_, ?_, State.fld_setFld_of_lt _ _ _ (by decide),
    ((((State.sameRegs.refl s _).setFld (by simp) 0).setFld (by simp) 0).setFld (by simp) 0).setFld (by simp) 0⟩
  · exact (State.fld_setFld_apart _ _ _ _ (by decide)).trans ((State.fld_setFld_apart _ _ _ _ (by decide)).trans
      ((State.fld_setFld_apart _ _ _ _ (by decide)).trans (State.fld_setFld_of_lt _ _ _ (by decide))))
  · exact (State.fld_setFld_apart _ _ _ _ (by decide)).trans ((State.fld_setFld_apart _ _ _ _ (by decide)).trans (State.fld_setFld_of_lt _ _ _ (by decide)))
  · exact (State.fld_setFld_apart _ _ _ _ (by decide)).trans (State.fld_setFld_of_lt _ _ _ (by decide))

/-! Bundles. -/

section
variable {s : State} {rq : Requester} {t : Fin 8} {hub : Bool} {sp : Nat} (hsp : sp = if hub then P.serHub t else P.serTile t) (hg : s.grants rq sp = true)
include hsp hg

theorem serRetrain_active (hst : s.eState ((if hub then 40 else 32) + t) = 3) : Completes (.serRetrain rq t hub) s fun u =>
    u.eState (32 + t) = 4 ∧ u.eState (40 + t) = 4 ∧ u.fld sp F.SER_CTL_retrain = 1 := by
  have hrun : exec (.serRetrain rq t hub) s = .next (s.lnkRetrainWrite ((if hub then 40 else 32) + t)) := by
    subst hsp
    exact congrArg Host.Outcome.next (State.tileWrite_of_grants hg _ _ _)
  have hle : 32 ≤ (if hub then 40 else 32) + t.val := by
    split
    · omega
    · omega
  obtain ⟨hstates, hret, -⟩ := State.lnkRetrainWrite_spec hst
  refine ⟨_, hrun, hstates _ (bundle_ends t hub _ (.inl rfl)), hstates _ (bundle_ends t hub _ (.inr rfl)), ?_⟩
  rw [hsp, ← endPg_bundle]
  unfold State.eget eFld at hret
  rw [isSer_of_le hle] at hret
  exact hret

theorem serClrCnt_clears : Completes (.serClrCnt rq t hub) s fun u =>
    u.fld sp F.SER_CNT_fec_corr = 0 ∧ u.fld sp F.SER_CNT_fec_uncorr = 0 ∧ u.fld sp F.SER_CNT_replay_cnt = 0 ∧
    s.sameRegs u [fkey sp F.SER_CNT_fec_corr, fkey sp F.SER_CNT_fec_uncorr, fkey sp F.SER_CNT_replay_cnt] := by
  have hrun : exec (.serClrCnt rq t hub) s = .next (((s.setFld sp F.SER_CNT_fec_corr 0).setFld sp F.SER_CNT_fec_uncorr 0).setFld sp F.SER_CNT_replay_cnt 0) := by
    subst hsp
    exact congrArg Host.Outcome.next (State.tileWrite_of_grants hg _ _ _)
  refine ⟨_, hrun, ?_, ?_, State.fld_setFld_of_lt _ _ _ (by decide), (((State.sameRegs.refl s _).setFld (by simp) 0).setFld (by simp) 0).setFld (by simp) 0⟩
  · exact (State.fld_setFld_apart _ _ _ _ (by decide)).trans ((State.fld_setFld_apart _ _ _ _ (by decide)).trans (State.fld_setFld_of_lt _ _ _ (by decide)))
  · exact (State.fld_setFld_apart _ _ _ _ (by decide)).trans (State.fld_setFld_of_lt _ _ _ (by decide))

end

/-! The switch of a route. -/

theorem routeSwitch_results (s : State) (t v : Fin 8) :
    (∀ r, Tab.get hold0 s.routeHold (8 * t + v) = some r → r < 16 → s.requestsOut t v = false → Completes (.routeSwitchResume t v) s fun u =>
      u.routeNow t v = r ∧ Tab.get hold0 u.routeHold (8 * t + v) = none ∧ s.sameRegs u [fkey (P.serTile t) (F.SER_ROUTE_route v)]) ∧
    (Tab.get hold0 s.routeHold (8 * t + v) = none ∨ s.requestsOut t v = true → exec (.routeSwitchResume t v) s = .next s) := by
  have hlen : (F.SER_ROUTE_route v).len = 4 := rfl
  constructor
  · intro r hhold hr hout
    have hrun : exec (.routeSwitchResume t v) s = .next ((s.setHold t v none).setFld (P.serTile t) (F.SER_ROUTE_route v) r) := by
      show execRouteSwitchResume t v s = _
      simp [execRouteSwitchResume, hhold, hout]
    have hfree : Tab.get hold0 (s.setHold t v none).routeHold (8 * t + v) = none := by
      exact Tab.get_set_self hold0 s.routeHold (8 * t + v) none
    exact ⟨_, hrun, State.fld_setFld_of_lt _ _ _ (by rw [hlen]; exact hr), hfree, (State.sameRegs_of_regs rfl _).setFld (by simp) r⟩
  · intro h
    show execRouteSwitchResume t v s = _
    unfold execRouteSwitchResume
    rcases h with h | h
    · rw [h]
    · rw [h]
      split <;> rfl

/-- Settles O33: the rows of traffic from what each leaves of its end, and the control writes from what a granted write does. -/
theorem linkTrafficAndControl : Obligations.LinkTrafficAndControl := by
  unfold Obligations.LinkTrafficAndControl
  refine ⟨fun s t d => ⟨fun k hk hc => ⟨fun b hbv hhm hp => ⟨_, exec_burst_first hk hc hbv hhm hp, rfl⟩,
    fun a b q vc hbv hhm hp hseq hq hexp hvc hcrc hroom hacc =>
      ⟨burst_delivers hk hc hbv hhm hp hseq hq hexp hvc hcrc hroom hacc, fun e => burst_forwards hk hc hbv hhm hp hseq hq hexp hvc hcrc hroom hacc⟩,
    fun a b hbv hhm hp hseq => exec_burst_mismatch hk hc hbv hhm hp hseq, fun b hbv hhm hp => exec_burst_alone hk hc hbv hhm hp, fun b hbv => exec_burst_noBv hbv⟩,
    fun hub k f hk hc => ⟨exec_flit_unfixable hk hc, fun h hh hfix hbad => exec_flit_bad hk hc hh hfix hbad,
      fun h hh hfix hcrc htype hack hseq hacc => flit_delivers hk hc hh hfix hcrc htype hack hseq hacc⟩,
    fun e k hk hc => ⟨fun w hpar hidle i hfind => ackNak_results hk hc hpar hidle hfind, fun w htyp hser => exec_ackNak_none hk hc htyp hser,
      fun w hpar => exec_ackNak_parity hpar, replayTimer_replays hk hc, fun q hlast hsince => ackTimer_acknowledges hk hc hlast hsince,
      exec_ackTimer_idle hk, exec_keepAlive_bridge hk hc, keepAlive_bundle hk hc, exec_keepAlive_held hk hc, watchdog_reports hk hc⟩,
    fun e => exec_idleEnd, dclkLoss_reports s⟩, fun s t d rq k pg hk hpg => ⟨fun hg => ⟨fun e => lnkRetrain_active hk hpg hg, exec_lnkRetrain_underWay hk hpg hg,
      fun hopen => ⟨fun e => lnkForceDown_drains hk hpg hg hopen, exec_lnkForceDown_release hk hpg hg hopen, exec_lnkEnable_up hk hpg hg hopen, ?_⟩,
      fun hlock v => exec_lnkForceDown_locked hk hpg hg hlock, lnkClrCnt_clears hpg hg⟩,
    fun hub sp hsp hg => ⟨serRetrain_active hsp hg, serClrCnt_clears hsp hg⟩, routeSwitch_results s t⟩⟩
  rintro u rfl hst hmay hfail
  exact lnkEnable_trains hk hpg hg hopen hst hmay hfail

end Sys2Proof.Machine
end

section
/-! Samples, the power loop and the fast clamps (15 R361-R364). -/
namespace Sys2Proof.Machine

theorem P.pwr_ne_pwrT (t : Nat) : P.pwr ≠ P.pwrT t := by
  unfold P.pwr P.pwrT
  omega

theorem P.pwrT_inj {t u : Nat} (h : P.pwrT t = P.pwrT u) : t = u := by
  unfold P.pwrT at h
  omega

/-! What a sample leaves to the rows that follow it. -/

/-- The samples, the sums, the bucket and the two fields of the package that a sample writes are as they were. -/
structure State.SampleKept (s t : State) : Prop where
  samples : t.power.samples = s.power.samples
  energy : t.power.energy = s.power.energy
  n10 : t.power.n10 = s.power.n10
  sum10 : t.power.sum10 = s.power.sum10
  bucket : t.power.bucket = s.power.bucket
  watts : t.fld P.pwr F.PWR_PKG_p_w = s.fld P.pwr F.PWR_PKG_p_w
  vin : t.flag P.pwr F.PWR_STS_vin_ok = s.flag P.pwr F.PWR_STS_vin_ok

section
variable {s t u : State}

theorem State.SampleKept.refl (s : State) : s.SampleKept s := ⟨rfl, rfl, rfl, rfl, rfl, rfl, rfl⟩

theorem State.SampleKept.trans (h : s.SampleKept t) (h' : t.SampleKept u) : s.SampleKept u :=
  ⟨h'.samples.trans h.samples, h'.energy.trans h.energy, h'.n10.trans h.n10, h'.sum10.trans h.sum10, h'.bucket.trans h.bucket, h'.watts.trans h.watts,
    h'.vin.trans h.vin⟩

theorem State.SampleKept.ite {c : Prop} [Decidable c] (h : s.SampleKept t) (h' : s.SampleKept u) : s.SampleKept (if c then t else u) := by
  split
  · exact h
  · exact h'

theorem State.SampleKept.each {α : Type} {l : List α} {g : α → State → State} (h : ∀ a ∈ l, ∀ u : State, u.SampleKept (g a u)) : s.SampleKept (s.each l g) :=
  State.each_keeps (fun u => s.SampleKept u) s l g (fun a ha u hu => hu.trans (h a ha u)) (.refl s)

/-- A write that neither field of the package notices. -/
theorem State.SampleKept.setFld (s : State) {pg : Nat} {f : Fld} (v : Nat) (h1 : F.PWR_PKG_p_w.apart f = true) (h2 : F.PWR_STS_vin_ok.apart f = true) :
    s.SampleKept (s.setFld pg f v) :=
  ⟨rfl, rfl, rfl, rfl, rfl, State.fld_setFld_apart _ _ _ _ h1, State.flag_setFld_apart _ _ _ _ h2⟩

/-- A write of a tile's page. -/
theorem State.SampleKept.setTile (s : State) (t : Nat) {f : Fld} (hf : f.inside = true) (v : Nat) : s.SampleKept (s.setFld (P.pwrT t) f v) :=
  ⟨rfl, rfl, rfl, rfl, rfl, State.fld_setFld_page _ _ _ _ (P.pwr_ne_pwrT t) (by decide) hf,
    State.flag_of_fld (State.fld_setFld_page _ _ _ _ (P.pwr_ne_pwrT t) (by decide) hf)⟩

theorem State.SampleKept.event (s : State) (pg bit : Nat) : s.SampleKept (s.event pg bit) := by
  have hp := State.event_power s pg bit
  exact ⟨by rw [hp], by rw [hp], by rw [hp], by rw [hp], by rw [hp], State.fld_event_apart _ _ _ (by decide) _, State.flag_event_apart _ _ _ (by decide) _⟩

end

/-! The fast clamps. -/

theorem State.clampSync_kept (s : State) (t : Nat) : s.SampleKept (s.clampSync t) := .setTile s t (by decide) _

theorem State.setOwnClamp_kept (s : State) (t : Nat) (v : Bool) : s.SampleKept (s.setOwnClamp t v) :=
  State.SampleKept.trans (t := { s with power := { s.power with clamp := Tab.set bit0 s.power.clamp t v } }) ⟨rfl, rfl, rfl, rfl, rfl, rfl, rfl⟩
    (State.clampSync_kept _ t)

theorem State.setAllClamp_kept (s : State) (v : Bool) : s.SampleKept (s.setAllClamp v) :=
  (State.SampleKept.setFld s _ (by decide) (by decide)).trans (.each fun t _ u => u.clampSync_kept t)

theorem State.setCap_kept (s : State) (v : Nat) : s.SampleKept (s.setCap v) := by
  have hset := (State.SampleKept.setFld s (pg := P.pwr) (f := F.PWR_STS_cap) v (by decide) (by decide)).trans
    (.setFld _ (pg := P.pwr) (f := F.PWR_STS_limiting) (b2n (decide (v < s.maxOpp))) (by decide) (by decide))
  exact .ite (hset.trans (.event _ _ _)) hset

theorem State.clampAll_kept (s : State) : s.SampleKept s.clampAll :=
  .ite (.refl s) (.ite (((s.setAllClamp_kept true).trans (State.setCap_kept _ _)).trans (.event _ _ _)) (.refl s))

/-! A tile's part of a sample. -/

theorem State.setTileCap_kept (s : State) (t v : Nat) : s.SampleKept (s.setTileCap t v) := ⟨rfl, rfl, rfl, rfl, rfl, rfl, rfl⟩

theorem State.setAt_kept (s : State) (low : Bool) (t v : Nat) : s.SampleKept (s.setAt low t v) := by
  cases low
  · exact ⟨rfl, rfl, rfl, rfl, rfl, rfl, rfl⟩
  · exact ⟨rfl, rfl, rfl, rfl, rfl, rfl, rfl⟩

theorem State.tileTelemetry_kept (s : State) (t : Nat) : s.SampleKept (s.tileTelemetry t) := by
  have hpower : s.SampleKept { s with power := { s.power with tileEnergy := Tab.set nat0 s.power.tileEnergy t (Tab.get nat0 s.power.tileEnergy t +
      s.fld (P.pwrT t) F.PWR_T_STS_vdd_mv * ((s.power.samples.head?.map fun x => x.tiles.getD t 0).getD 0) / 1000) } } := ⟨rfl, rfl, rfl, rfl, rfl, rfl, rfl⟩
  exact hpower.trans ((State.SampleKept.setTile _ t (by decide) _).trans ((State.SampleKept.setTile _ t (by decide) _).trans
    ((State.SampleKept.setTile _ t (by decide) _).trans (.setTile _ t (by decide) _))))

/-- The tile's own clamp engages. -/
def State.capClamp (s : State) (t : Nat) : State :=
  if 320000 < s.tileMa t 1 ∧ !s.ownClamp t then
    ((s.setOwnClamp t true).setTileCap t (min (s.tileCap t) (s.fld (P.pwrT t) F.PWR_T_STS_opp - 2))).event (P.pwrT t) 2 else s

/-- The cap falls where the current is high, at the earliest 100 µs after the last fall. -/
def State.capFall (s : State) (t now : Nat) : State :=
  if 260000 < s.tileMa t 100 then
    (if Tab.get nat0 s.power.lowAt t = 0 ∨ Tab.get nat0 s.power.lowAt t + 100000 ≤ now then (s.setTileCap t (s.tileCap t - 1)).setAt true t now else s)
  else s.setAt true t 0

/-- The cap rises where the current `a` has been low since `ok`. -/
def State.capRise (s : State) (t now a ok : Nat) : State :=
  if a ≤ 240000 then
    if ok = 0 then s.setAt false t now
    else if ok + 10000000 ≤ now then (s.setTileCap t (s.tileCap t + 1)).setAt false t now
    else s
  else s.setAt false t 0

theorem State.capTile_eq (s : State) (t : Nat) : s.capTile t = ((s.capClamp t).capFall t (s.now + 1)).capRise t (s.now + 1) ((s.capClamp t).tileMa t 100)
    (Tab.get nat0 (s.capClamp t).power.okAt t) := rfl

theorem State.capMove_kept (s : State) (t v : Nat) (low : Bool) (w : Nat) : s.SampleKept ((s.setTileCap t v).setAt low t w) :=
  (s.setTileCap_kept t v).trans (State.setAt_kept _ low t w)

theorem State.capClamp_kept (s : State) (t : Nat) : s.SampleKept (s.capClamp t) :=
  .ite (((s.setOwnClamp_kept t true).trans (State.setTileCap_kept _ t _)).trans (.event _ _ _)) (.refl s)

theorem State.capFall_kept (s : State) (t now : Nat) : s.SampleKept (s.capFall t now) :=
  .ite (.ite (s.capMove_kept t _ true now) (.refl s)) (s.setAt_kept true t 0)

theorem State.capRise_kept (s : State) (t now a ok : Nat) : s.SampleKept (s.capRise t now a ok) :=
  .ite (.ite (s.setAt_kept false t now) (.ite (s.capMove_kept t _ false now) (.refl s))) (s.setAt_kept false t 0)

theorem State.capTile_kept (s : State) (t : Nat) : s.SampleKept (s.capTile t) := by
  rw [State.capTile_eq]
  exact ((s.capClamp_kept t).trans (State.capFall_kept _ t _)).trans (State.capRise_kept _ t _ _ _)

/-! The sample. -/

/-- The package's telemetry fields but the power. -/
def telemetryFlds : List Fld :=
  [F.PWR_PKG_bucket_mj, F.PWR_VIN_mv, F.PWR_VIN_amps, F.PWR_RAILS_dram_a, F.PWR_RAILS_ser_a, F.PWR_ENERGY_LO_mj, F.PWR_ENERGY_HI_mj]

/-- A field apart from those reads as after the write of the power. -/
theorem State.fld_pkgTelemetry {f : Fld} (h : ∀ g ∈ telemetryFlds, f.apart g = true) (s : State) :
    s.pkgTelemetry.fld P.pwr f = (s.setFld P.pwr F.PWR_PKG_p_w (min 4095 (s.pAvg / 1000))).fld P.pwr f := by
  simp only [telemetryFlds, List.forall_mem_cons] at h
  obtain ⟨h1, h2, h3, h4, h5, h6, h7, -⟩ := h
  simp only [State.pkgTelemetry, State.setFld64, State.fld_setFld_apart _ _ _ _ h7, State.fld_setFld_apart _ _ _ _ h6, State.fld_setFld_apart _ _ _ _ h5,
    State.fld_setFld_apart _ _ _ _ h4, State.fld_setFld_apart _ _ _ _ h3, State.fld_setFld_apart _ _ _ _ h2, State.fld_setFld_apart _ _ _ _ h1]

/-- The package's telemetry shows the mean of its samples, and leaves the rest of what a sample keeps. -/
theorem State.pkgTelemetry_shows (s : State) : s.pkgTelemetry.power = s.power ∧ s.pkgTelemetry.fld P.pwr F.PWR_PKG_p_w = min 4095 (s.pAvg / 1000) ∧
    s.pkgTelemetry.flag P.pwr F.PWR_STS_vin_ok = s.flag P.pwr F.PWR_STS_vin_ok := by
  refine ⟨by simp only [State.pkgTelemetry, State.setFld64, State.setFld_power], ?_, State.flag_of_fld ?_⟩
  · exact (s.fld_pkgTelemetry (by decide)).trans (State.fld_setFld_of_lt _ _ _ (Nat.lt_of_le_of_lt (Nat.min_le_left _ _) (by decide)))
  · exact (s.fld_pkgTelemetry (by decide)).trans (State.fld_setFld_apart _ _ _ _ (by decide))

/-- A sample joins the others: the energy and the sums of 10 ms rise. -/
def State.sampleIn (s : State) (i : PowerIn) : State :=
  { s with power := { s.power with samples := ((⟨packageMw i, i.vinMv, i.vinMa, i.dramMa, i.serMa, i.tileMa⟩ : PSample) :: s.power.samples).take 100,
                                   energy := s.power.energy + packageMw i, sum10 := s.power.sum10 + packageMw i, n10 := s.power.n10 + 1 } }

/-- The bucket and the extremes follow the mean. -/
def State.bucketIn (s : State) : State :=
  { s with power := { s.power with bucket := min s.bucketCap (s.power.bucket + s.pAvg - s.pSust), lo := some (min s.pAvg (s.power.lo.getD s.pAvg)), hi := max s.pAvg s.power.hi } }

/-- VIN_CORE in tolerance, with an event when it leaves it. -/
def State.vinIn (s : State) (vin : Bool) : State :=
  (if s.flag P.pwr F.PWR_STS_vin_ok && !vin then s.event P.pwr 2 else s).setFlag P.pwr F.PWR_STS_vin_ok vin

theorem exec_powerSample_on {s : State} (i : PowerIn) (hao : s.aoUp = true) (htrip : s.thm.tripped = false) :
    exec (.powerSample i) s = .next (((((s.sampleIn i).bucketIn.vinIn (decide (1746 ≤ i.vinMv ∧ i.vinMv ≤ 1854))).pkgTelemetry.each (List.range 8)
      fun t s => (s.tileTelemetry t).capTile t)).clampAll) :=
  congrArg Host.Outcome.next (if_neg (by rw [hao, htrip]; decide))

theorem State.vinIn_shows (s : State) (vin : Bool) : (s.vinIn vin).power = s.power ∧ (s.vinIn vin).flag P.pwr F.PWR_STS_vin_ok = vin := by
  refine ⟨?_, State.flag_setFlag_self _ _ (by decide) _⟩
  unfold State.vinIn
  split
  · exact State.event_power _ _ _
  · rfl

theorem State.pAvg_of_samples {s t : State} (h : t.power.samples = s.power.samples) : t.pAvg = s.pAvg := by
  unfold State.pAvg
  rw [h]

theorem powerSample_results {s : State} (i : PowerIn) (hao : s.aoUp = true) (htrip : s.thm.tripped = false) : Completes (.powerSample i) s fun t =>
    t.power.samples = (⟨packageMw i, i.vinMv, i.vinMa, i.dramMa, i.serMa, i.tileMa⟩ :: s.power.samples).take 100 ∧
    t.power.energy = s.power.energy + packageMw i ∧ t.power.n10 = s.power.n10 + 1 ∧ t.power.sum10 = s.power.sum10 + packageMw i ∧
    t.fld P.pwr F.PWR_PKG_p_w = min 4095 (t.pAvg / 1000) ∧ t.power.bucket = min s.bucketCap (s.power.bucket + t.pAvg - s.pSust) ∧
    t.flag P.pwr F.PWR_STS_vin_ok = decide (1746 ≤ i.vinMv ∧ i.vinMv ≤ 1854) ∧ s.sameBytes t := by
  have hrun := exec_powerSample_on i hao htrip
  have hbytes := State.sameBytes_of_out (execPowerSample_mem i s s.mems_memsOf) hrun
  obtain ⟨hpow, hvin⟩ := (s.sampleIn i).bucketIn.vinIn_shows (decide (1746 ≤ i.vinMv ∧ i.vinMv ≤ 1854))
  generalize hu : (s.sampleIn i).bucketIn.vinIn (decide (1746 ≤ i.vinMv ∧ i.vinMv ≤ 1854)) = u at hrun hbytes hpow hvin
  obtain ⟨hpow', hwatts, hvin'⟩ := u.pkgTelemetry_shows
  have hkept : u.pkgTelemetry.SampleKept (u.pkgTelemetry.each (List.range 8) fun t s => (s.tileTelemetry t).capTile t).clampAll :=
    (State.SampleKept.each fun t _ w => (w.tileTelemetry_kept t).trans (State.capTile_kept _ t)).trans (State.clampAll_kept _)
  generalize (u.pkgTelemetry.each (List.range 8) fun t s => (s.tileTelemetry t).capTile t).clampAll = t at hrun hbytes hkept
  generalize u.pkgTelemetry = w at hpow' hwatts hvin' hkept
  have hsamples : t.power.samples = u.power.samples := hkept.samples.trans (by rw [hpow'])
  refine ⟨t, hrun, hsamples.trans (by rw [hpow]; rfl), hkept.energy.trans (by rw [hpow', hpow]; rfl), hkept.n10.trans (by rw [hpow', hpow]; rfl),
    hkept.sum10.trans (by rw [hpow', hpow]; rfl), ?_, ?_, hkept.vin.trans (hvin'.trans hvin), hbytes⟩
  · rw [hkept.watts, hwatts, State.pAvg_of_samples hsamples]
  · rw [hkept.bucket, hpow', hpow, State.pAvg_of_samples (hsamples.trans (congrArg Power.samples hpow))]
    rfl

/-! The loop. -/

section
variable {s : State}

/-- The device cap moves to a point. -/
theorem State.setCap_shows (s : State) (v : Nat) : (s.setCap v).fld P.pwr F.PWR_STS_cap = v % 32 ∧
    (s.setCap v).flag P.pwr F.PWR_STS_limiting = decide (v < s.maxOpp) := by
  have hset : ∀ u : State, u = (s.setFld P.pwr F.PWR_STS_cap v).setFlag P.pwr F.PWR_STS_limiting (decide (v < s.maxOpp)) →
      u.fld P.pwr F.PWR_STS_cap = v % 32 ∧ u.flag P.pwr F.PWR_STS_limiting = decide (v < s.maxOpp) := by
    rintro u rfl
    exact ⟨(State.fld_setFlag_apart _ _ _ (by decide) _).trans (State.fld_setFld_self _ _ _ _), State.flag_setFlag_self _ _ (by decide) _⟩
  unfold State.setCap
  dsimp only
  split
  · exact ⟨(State.fld_event_apart _ _ _ (by decide) _).trans (hset _ rfl).1, (State.flag_event_apart _ _ _ (by decide) _).trans (hset _ rfl).2⟩
  · exact hset _ rfl

theorem State.setCap_event {v : Nat} (hmax : s.fld P.pwr F.PWR_STS_cap = s.maxOpp) (hlt : v < s.fld P.pwr F.PWR_STS_cap) :
    bitOf ((s.setCap v).fld P.pwr F.PG_INT_STS) 0 = true := by
  unfold State.setCap
  dsimp only
  rw [if_pos ⟨hmax, hlt⟩]
  exact State.bit_event _ _ (by decide)

theorem exec_powerLoopTick_clamped (h : s.flag P.pwr F.PWR_STS_clamp = true) : exec .powerLoopTick s = .next s := congrArg Host.Outcome.next (if_pos h)

variable (hclamp : s.flag P.pwr F.PWR_STS_clamp = false)
include hclamp

theorem exec_powerLoopTick_free : exec .powerLoopTick s = .next
    (if 9 * s.bucketCap ≤ 10 * s.power.bucket ∧ s.pSust < s.pAvg then s.setCap (s.fld P.pwr F.PWR_STS_cap - 1)
      else if 2 * s.power.bucket ≤ s.bucketCap ∧ 100 * s.pAvg ≤ 97 * s.pSust then s.setCap (min s.maxOpp (s.fld P.pwr F.PWR_STS_cap + 1)) else s) :=
  congrArg Host.Outcome.next (if_neg (by rw [hclamp]; exact Bool.false_ne_true))

theorem powerLoopTick_lowers (hcap : s.fld P.pwr F.PWR_STS_cap < 32) (hfull : 9 * s.bucketCap ≤ 10 * s.power.bucket) (hover : s.pSust < s.pAvg) :
    Completes .powerLoopTick s fun t => t.fld P.pwr F.PWR_STS_cap = s.fld P.pwr F.PWR_STS_cap - 1 ∧
      t.flag P.pwr F.PWR_STS_limiting = decide (s.fld P.pwr F.PWR_STS_cap - 1 < s.maxOpp) ∧
      (s.fld P.pwr F.PWR_STS_cap = s.maxOpp → 0 < s.fld P.pwr F.PWR_STS_cap → bitOf (t.fld P.pwr F.PG_INT_STS) 0 = true) ∧ s.sameBytes t := by
  have hrun := exec_powerLoopTick_free hclamp
  rw [if_pos ⟨hfull, hover⟩] at hrun
  obtain ⟨hval, hlim⟩ := s.setCap_shows (s.fld P.pwr F.PWR_STS_cap - 1)
  exact ⟨_, hrun, hval.trans (Nat.mod_eq_of_lt (by omega)), hlim, fun hmax hpos => State.setCap_event hmax (by omega),
    State.sameBytes_of_out (execPowerLoopTick_mem s s.mems_memsOf) hrun⟩

theorem powerLoopTick_raises (hfree : 10 * s.power.bucket < 9 * s.bucketCap) (hhalf : 2 * s.power.bucket ≤ s.bucketCap) (hunder : 100 * s.pAvg ≤ 97 * s.pSust) :
    Completes .powerLoopTick s fun t => t.fld P.pwr F.PWR_STS_cap = min s.maxOpp (s.fld P.pwr F.PWR_STS_cap + 1) % 32 := by
  have hrun := exec_powerLoopTick_free hclamp
  rw [if_neg (fun h => absurd h.1 (Nat.not_le.2 hfree)), if_pos ⟨hhalf, hunder⟩] at hrun
  exact ⟨_, hrun, (s.setCap_shows _).1⟩

theorem exec_powerLoopTick_idle (hfree : 10 * s.power.bucket < 9 * s.bucketCap) (h : s.bucketCap < 2 * s.power.bucket ∨ 97 * s.pSust < 100 * s.pAvg) :
    exec .powerLoopTick s = .next s := by
  rw [exec_powerLoopTick_free hclamp, if_neg (fun h => absurd h.1 (Nat.not_le.2 hfree))]
  refine congrArg Host.Outcome.next (if_neg fun hboth => ?_)
  rcases h with h | h
  · exact absurd hboth.1 (Nat.not_le.2 h)
  · exact absurd hboth.2 (Nat.not_le.2 h)

end

/-! The release of a clamp. -/

theorem State.ownClamp_setOwnClamp (s : State) (t : Nat) (v : Bool) (j : Nat) : (s.setOwnClamp t v).ownClamp j = if j = t then v else s.ownClamp j :=
  Tab.get_set bit0 s.power.clamp t j v

theorem fastClampRelease_own (s : State) (ti : Fin 8) : Completes (.fastClampRelease (some ti)) s fun t => t.ownClamp ti = false ∧
    t.flag (P.pwrT ti) F.PWR_T_STS_clamp = s.flag P.pwr F.PWR_STS_clamp ∧ (∀ j : Nat, j ≠ ti → t.ownClamp j = s.ownClamp j) ∧
    s.sameRegs t [fkey (P.pwrT ti) F.PWR_T_STS_clamp] ∧ s.sameBytes t := by
  have hown : State.ownClamp { s with power := { s.power with clamp := Tab.set bit0 s.power.clamp ti false } } ti = false := s.ownClamp_setOwnClamp ti false ti ▸ if_pos rfl
  refine ⟨s.setOwnClamp ti false, rfl, (s.ownClamp_setOwnClamp ti false ti).trans (if_pos rfl), ?_,
    fun j hj => (s.ownClamp_setOwnClamp ti false j).trans (if_neg hj), (State.sameRegs_of_regs rfl _).setFld (by simp) _, State.sameBytes_of_eq rfl rfl rfl⟩
  refine (State.flag_setFlag_self _ _ (by decide) _).trans ?_
  rw [hown]
  rfl

/-- The clamp on all tiles takes a value: each tile shows it or its own. -/
theorem State.setAllClamp_shows (s : State) (v : Bool) : (s.setAllClamp v).flag P.pwr F.PWR_STS_clamp = v ∧ (s.setAllClamp v).power = s.power ∧
    ∀ j, j < 8 → (s.setAllClamp v).flag (P.pwrT j) F.PWR_T_STS_clamp = (s.ownClamp j || v) := by
  have hkeep : ∀ l : List Nat, ∀ u : State, (u.each l fun t s => s.clampSync t).flag P.pwr F.PWR_STS_clamp = u.flag P.pwr F.PWR_STS_clamp ∧
      (u.each l fun t s => s.clampSync t).power = u.power := fun l u =>
    State.each_keeps (fun w => w.flag P.pwr F.PWR_STS_clamp = u.flag P.pwr F.PWR_STS_clamp ∧ w.power = u.power) u l _ (fun t _ w hw =>
      ⟨(State.flag_of_fld (State.fld_setFld_page _ _ _ _ (P.pwr_ne_pwrT t) (by decide) (by decide))).trans hw.1, hw.2⟩) ⟨rfl, rfl⟩
  have hset : (s.setFlag P.pwr F.PWR_STS_clamp v).flag P.pwr F.PWR_STS_clamp = v := State.flag_setFlag_self _ _ (by decide) _
  obtain ⟨hall, hpow⟩ := hkeep (List.range 8) (s.setFlag P.pwr F.PWR_STS_clamp v)
  refine ⟨hall.trans hset, hpow, fun j hj => ?_⟩
  obtain ⟨l1, l2, hl⟩ := List.append_of_mem (List.mem_range.2 hj)
  have hnd : (l1 ++ j :: l2).Nodup := hl ▸ List.nodup_range
  have hj2 : j ∉ l2 := fun h => (List.nodup_cons.1 (List.nodup_middle.1 hnd)).1 (List.mem_append_right _ h)
  unfold State.setAllClamp
  rw [hl, State.each_append, State.each_cons]
  obtain ⟨hflag, hpow'⟩ := hkeep l1 (s.setFlag P.pwr F.PWR_STS_clamp v)
  generalize ((s.setFlag P.pwr F.PWR_STS_clamp v).each l1 fun t s => s.clampSync t) = w at hflag hpow'
  have hsync : (w.clampSync j).flag (P.pwrT j) F.PWR_T_STS_clamp = (s.ownClamp j || v) := by
    refine (State.flag_setFlag_self _ _ (by decide) _).trans ?_
    rw [hflag, hset]
    unfold State.ownClamp
    rw [hpow']
    rfl
  refine State.each_keeps (fun u => u.flag (P.pwrT j) F.PWR_T_STS_clamp = (s.ownClamp j || v)) _ l2 _ (fun t ht u hu => ?_) hsync
  have hne : P.pwrT j ≠ P.pwrT t := fun h => hj2 (P.pwrT_inj h ▸ ht)
  exact (State.flag_of_fld (State.fld_setFld_page _ _ _ _ hne (by decide) (by decide))).trans hu

theorem fastClampRelease_all (s : State) : Completes (.fastClampRelease none) s fun t => t.flag P.pwr F.PWR_STS_clamp = false ∧
    (∀ j, j < 8 → t.flag (P.pwrT j) F.PWR_T_STS_clamp = s.ownClamp j ∧ t.ownClamp j = s.ownClamp j) ∧ s.sameBytes t := by
  obtain ⟨hall, hpow, htiles⟩ := s.setAllClamp_shows false
  refine ⟨s.setAllClamp false, rfl, hall, fun j hj => ⟨(htiles j hj).trans (Bool.or_false _), ?_⟩,
    State.sameBytes_of_out (execFastClampRelease_mem none s s.mems_memsOf) rfl⟩
  unfold State.ownClamp
  rw [hpow]

end Sys2Proof.Machine
end

section
/-! A regulator that faults and the tile it loses (02 R46; 15 R367). -/
namespace Sys2Proof.Machine

/-! What the loss of a tile keeps. -/

/-- The fields that the loss of tile `ti` is judged by: its regulator's, the partitions' states, its bundle's state and its clusters' online cores. -/
def Watched (ti pg : Nat) (f : Fld) : Prop :=
  (pg = P.pwrT ti ∧ (f = F.PWR_T_STS_reg_on ∨ f = F.PWR_T_STS_opp ∨ f = F.PWR_T_STS_vdd_mv)) ∨ (∃ p, p < 8 ∧ pg = P.pt p ∧ f = F.PT_STS_state) ∨
    (pg = P.serHub ti ∧ f = F.SER_STS_state) ∨ ∃ c, c < 8 ∧ pg = P.clu (8 * ti + c) ∧ f = F.CLU_MAP_online

def watchedFlds : List Fld := [F.PWR_T_STS_reg_on, F.PWR_T_STS_opp, F.PWR_T_STS_vdd_mv, F.PT_STS_state, F.SER_STS_state, F.CLU_MAP_online]

/-- Where the pages of watched fields stand. -/
def WatchedPage (pg : Nat) : Prop := (8 ≤ pg ∧ pg < 0x10) ∨ (0x20 ≤ pg ∧ pg < 0x28) ∨ (0x1000 ≤ pg ∧ (pg % 0x80 = 0 ∨ pg % 0x80 = 2))

theorem watchedPage_pwrT (t : Nat) : WatchedPage (P.pwrT t) := by
  unfold WatchedPage P.pwrT
  omega

theorem Watched.field {ti pg : Nat} {f : Fld} (h : Watched ti pg f) : f ∈ watchedFlds := by
  rcases h with ⟨-, rfl | rfl | rfl⟩ | ⟨p, -, -, rfl⟩ | ⟨-, rfl⟩ | ⟨c, -, -, rfl⟩ <;> simp [watchedFlds]

theorem Watched.page {ti pg : Nat} (hti : ti < 8) {f : Fld} (h : Watched ti pg f) : WatchedPage pg := by
  rcases h with ⟨rfl, -⟩ | ⟨p, hp, rfl, -⟩ | ⟨rfl, -⟩ | ⟨c, hc, rfl, -⟩
  · exact watchedPage_pwrT ti
  · unfold WatchedPage P.pt
    omega
  · unfold WatchedPage P.serHub
    omega
  · unfold WatchedPage P.clu
    omega

/-- Watched fields `W`, the tile's regulator event, the power state, the resets and the oldest Trail record are as they were. -/
structure State.Spares (ti : Nat) (W : Nat → Fld → Prop) (s t : State) : Prop where
  fld : ∀ pg f, W pg f → t.fld pg f = s.fld pg f
  bit : bitOf (s.fld (P.pwrT ti) F.PG_INT_STS) 3 = true → bitOf (t.fld (P.pwrT ti) F.PG_INT_STS) 3 = true
  power : t.power = s.power
  rsts : t.rsts = s.rsts
  head : ∀ r q, s.trail.queue = r :: q → ∃ q', t.trail.queue = r :: q'

section
variable {ti : Nat} {W : Nat → Fld → Prop} {s t u : State}

theorem State.Spares.of_eq (hr : t.regs = s.regs) (hp : t.power = s.power) (hs : t.rsts = s.rsts) (ht : t.trail = s.trail) : State.Spares ti W s t :=
  ⟨fun pg f _ => State.fld_of_regs hr pg f, fun h => by rw [State.fld_of_regs hr]; exact h, hp, hs, fun r q h => ⟨q, by rw [ht, h]⟩⟩

theorem State.Spares.refl (s : State) : State.Spares ti W s s := .of_eq rfl rfl rfl rfl

theorem State.Spares.trans (h : State.Spares ti W s t) (h' : State.Spares ti W t u) : State.Spares ti W s u := by
  refine ⟨fun pg f hw => (h'.fld pg f hw).trans (h.fld pg f hw), fun hb => h'.bit (h.bit hb), h'.power.trans h.power, h'.rsts.trans h.rsts, fun r q hq => ?_⟩
  obtain ⟨q', hq'⟩ := h.head r q hq
  exact h'.head r q' hq'

theorem State.Spares.ite {c : Prop} [Decidable c] (h : State.Spares ti W s t) (h' : State.Spares ti W s u) : State.Spares ti W s (if c then t else u) := by
  split
  · exact h
  · exact h'

theorem State.Spares.each {α : Type} {l : List α} {g : α → State → State} (h : ∀ a ∈ l, ∀ u : State, State.Spares ti W u (g a u)) : State.Spares ti W s (s.each l g) :=
  State.each_keeps (fun u => State.Spares ti W s u) s l g (fun a ha u hu => hu.trans (h a ha u)) (.refl s)

theorem State.Spares.setFld_ne (s : State) {pg : Nat} {f : Fld} (hW : ∀ pg' g, W pg' g → fkey pg' g ≠ fkey pg f) (hb : fkey (P.pwrT ti) F.PG_INT_STS ≠ fkey pg f)
    (v : Nat) : State.Spares ti W s (s.setFld pg f v) :=
  ⟨fun pg' g hw => State.fld_setFld_ne _ _ _ _ _ _ (hW pg' g hw), fun h => by rw [State.fld_setFld_ne _ _ _ _ _ _ hb]; exact h, rfl, rfl, fun r q h => ⟨q, h⟩⟩

variable (hW : ∀ pg f, W pg f → Watched ti pg f)
include hW

/-- A field that shares no bits with a watched one. -/
theorem State.Spares.setApart (s : State) (pg : Nat) {f : Fld} (hf : ∀ g ∈ F.PG_INT_STS :: watchedFlds, g.apart f = true) (v : Nat) :
    State.Spares ti W s (s.setFld pg f v) :=
  .setFld_ne s (fun _ g hw => fkey_ne_of_apart (hf g (List.mem_cons_of_mem _ (hW _ g hw).field)) _ _) (fkey_ne_of_apart (hf _ List.mem_cons_self) _ _) v

theorem State.Spares.setPage (hti : ti < 8) (s : State) {pg : Nat} (hpg : ¬ WatchedPage pg) {f : Fld} (hf : f.inside = true) (v : Nat) :
    State.Spares ti W s (s.setFld pg f v) := by
  have hinside : ∀ g ∈ watchedFlds, g.inside = true := by decide
  exact .setFld_ne s (fun pg' g hw => fkey_ne_of_page (fun h : pg' = pg => hpg (h ▸ (hW _ g hw).page hti)) (hinside g (hW _ g hw).field) hf)
    (fkey_ne_of_page (fun h : P.pwrT ti = pg => hpg (h ▸ watchedPage_pwrT ti)) (by decide) hf) v

theorem State.Spares.event (s : State) (pg bit : Nat) : State.Spares ti W s (s.event pg bit) := by
  have hapart : ∀ g ∈ watchedFlds, g.apart F.PG_INT_STS = true := by decide
  refine ⟨fun pg' g hw => State.fld_event_apart _ _ _ (hapart g (hW _ g hw).field) _, fun h => State.bit_event_of_bit h (by decide) _ _, State.event_power _ _ _,
    State.event_rsts _ _ _, fun r q h => ⟨q, ?_⟩⟩
  rw [State.event_trail, h]

end

/-- A Trail record joins the queue, or is counted as lost. -/
theorem State.Spares.trailPut {ti : Nat} {W : Nat → Fld → Prop} (hW : ∀ pg f, W pg f → Watched ti pg f) (hti : ti < 8) (s : State) (typ block sev : Nat) (payload : List Nat) :
    State.Spares ti W s (s.trailPut typ block sev payload) := by
  have htrl : ¬ WatchedPage P.trl := by
    unfold WatchedPage P.trl
    omega
  unfold State.trailPut
  split
  · have hqueue : ∀ x, State.Spares ti W s { s with trail := { s.trail with queue := s.trail.queue ++ [x] } } := fun x =>
      ⟨fun _ _ _ => rfl, fun h => h, rfl, rfl, fun r q h => ⟨q ++ [x], by rw [h]; rfl⟩⟩
    exact (hqueue _).trans (.setPage hW hti _ htrl (by decide) _)
  · have hlost : State.Spares ti W s { s with trail := { s.trail with lost := s.trail.lost + 1 } } := ⟨fun _ _ _ => rfl, fun h => h, rfl, rfl, fun r q h => ⟨q, h⟩⟩
    exact (hlost.trans (.setPage hW hti _ htrl (by decide) _)).trans (.event hW _ _ _)

/-! Descriptors that end with a core's loads. -/

section
variable {ti : Nat} {W : Nat → Fld → Prop} (hW : ∀ pg f, W pg f → Watched ti pg f)
include hW

theorem State.countErr_spares (s : State) (pg code rq addr : Nat) : State.Spares ti W s (s.countErr pg code rq addr) := by
  have hset : ∀ (u : State) {f : Fld}, (∀ g ∈ F.PG_INT_STS :: watchedFlds, g.apart f = true) → ∀ v, State.Spares ti W u (u.setFld pg f v) :=
    fun u _ hf v => .setApart hW u pg hf v
  unfold State.countErr
  dsimp only
  refine State.Spares.trans ?_ (.event hW _ _ _)
  have hcnt : State.Spares ti W s (s.satFld pg F.PG_ERR_CNT 1) := hset s (f := F.PG_ERR_CNT) (by decide) _
  refine hcnt.trans ?_
  generalize s.satFld pg F.PG_ERR_CNT 1 = w
  exact (State.Spares.refl w).ite (((((hset _ (f := F.PG_ERR_FIRST_code) (by decide) _).trans (hset _ (f := F.PG_ERR_FIRST_requester) (by decide) _)).trans
    (hset _ (f := F.PG_ERR_FIRST_valid) (by decide) _)).trans (hset _ (f := F.PG_ERR_ADDR_LO) (by decide) _)).trans (hset _ (f := F.PG_ERR_ADDR_HI) (by decide) _))

theorem State.cancelNote_spares (s : State) (n q num : Nat) : State.Spares ti W s (s.cancelNote n q num) := by
  have hset : ∀ (u : State) (v : TenSt), State.Spares ti W u (u.setTen n v) := fun u v => .of_eq rfl rfl rfl rfl
  have hend : ∀ u : State, State.Spares ti W u (u.cancelEnd n) := fun u => by
    unfold State.cancelEnd
    split
    · exact .ite ((hset _ _).trans (.event hW _ _ _)) (.refl u)
    · exact .refl u
  unfold State.cancelNote
  split
  · exact .ite ((hset _ _).trans (hend _)) (.refl s)
  · exact .refl s

omit hW in
theorem State.cqNotify_spares (s : State) (n q : Nat) (irq : Bool) : State.Spares ti W s (s.cqNotify n q irq) := by
  have hset : ∀ (u : State) v, State.Spares ti W u (u.setQueue n q v) := fun u v => .of_eq rfl rfl rfl rfl
  have hmsix : ∀ u : State, State.Spares ti W u (u.msix (u.tnFn n) q) := fun u => by
    rw [State.msix_eq]
    exact .of_eq rfl rfl rfl rfl
  have hsignal : ∀ u : State, State.Spares ti W u (u.cqSignal n q) := fun u => by
    unfold State.cqSignal
    dsimp only
    exact .ite (hset _ _) ((hset u _).trans (hmsix _))
  exact .ite ((hset s _).trans (hsignal _)) (hset s _)

variable (hti : ti < 8)
include hti

theorem State.flog_spares (s : State) (n kind block code detail addr : Nat) : State.Spares ti W s (s.flog n kind block code detail addr) := by
  have hpage : ¬ WatchedPage (P.ten n 10) := by
    unfold WatchedPage P.ten
    omega
  have hentry : ∀ j, j < 512 → (F.FL_ENTRY_dword j).inside = true := by decide +kernel
  unfold State.flog
  dsimp only
  refine State.Spares.trans (.each fun i hi u => .setPage hW hti u hpage (hentry _ ?_) _) ((State.Spares.setPage hW hti _ hpage (by decide) _).trans (.event hW _ _ _))
  have hi8 := List.mem_range.1 hi
  omega

theorem State.cqWrite_spares (s : State) (n q : Nat) (e : CqEntry) (irq : Bool) : State.Spares ti W s (s.cqWrite n q e irq) := by
  have hset : ∀ (u : State) v, State.Spares ti W u (u.setQueue n q v) := fun u v => .of_eq rfl rfl rfl rfl
  have hreg : ∀ (u : State) {f : Fld}, (∀ g ∈ F.PG_INT_STS :: watchedFlds, g.apart f = true) → ∀ v, State.Spares ti W u (u.setFld (P.queue n q) f v) :=
    fun u _ hf v => .setApart hW u _ hf v
  have hemit : ∀ (u : State) (o : Out), State.Spares ti W u (u.emit o) := fun u o => .of_eq rfl rfl rfl rfl
  have hput : State.Spares ti W s (s.cqPut n q e irq) := by
    unfold State.cqPut
    dsimp only
    exact (((hemit s _).trans (hreg _ (f := F.Q_CQ_TAIL_count) (by decide) _)).trans (hreg _ (f := F.Q_CQ_TAIL_phase) (by decide) _)).trans (State.cqNotify_spares _ n q irq)
  have herr : State.Spares ti W s (s.cqError n q) := by
    unfold State.cqError State.tenErr State.dropWaiting
    dsimp only
    exact ((((hreg s (f := F.Q_STS_state) (by decide) 3).trans (hset _ _)).trans (State.countErr_spares hW _ _ _ _ _)).trans (State.flog_spares hW hti _ _ _ _ _ _ _)).trans
      (.event hW _ _ _)
  exact .ite (hset s _) (.ite hput herr)

theorem State.complete_spares (s : State) (n q : Nat) (d : Desc) (r : Done) : State.Spares ti W s (s.complete n q d r) := by
  have hset : ∀ v, State.Spares ti W s (s.setQueue n q v) := fun v => .of_eq rfl rfl rfl rfl
  unfold State.complete
  dsimp only
  refine State.Spares.trans ?_ (State.cancelNote_spares hW _ _ _ _)
  exact .ite ((hset _).trans (State.cqWrite_spares hW hti _ _ _ _ _)) (hset _)

theorem State.loadCheck_spares (s : State) (k : Nat) (desc : Option (Nat × Nat × Nat)) : State.Spares ti W s (s.loadCheck k desc) := by
  unfold State.loadCheck
  split
  · exact .refl s
  · refine .ite (.refl s) ?_
    split
    · exact State.complete_spares hW hti _ _ _ _ _
    · exact .refl s

/-! A core that is wiped. -/

theorem State.setCorePage_spares (s : State) (x j : Nat) (hj : j < 8) {f : Fld} (hf : f.inside = true) (v : Nat) : State.Spares ti W s (s.setFld (P.corePg x j) f v) := by
  refine .setPage hW hti s ?_ hf v
  unfold WatchedPage P.corePg P.clu
  omega

theorem State.coreWipe_spares (s : State) (x : Nat) : State.Spares ti W s (s.coreWipe x) := by
  have hcore : ∀ (u : State) {f : Fld}, f.inside = true → ∀ v, State.Spares ti W u (u.setFld (P.core x) f v) := fun u _ hf v =>
    State.setCorePage_spares hW hti u x 0 (by decide) hf v
  have hdrop : ∀ (k : Nat), k < 8 → ∀ u : State, State.Spares ti W u (u.rezDrop x k) := fun k hk u => by
    have hin : ∀ k, k < 8 → (F.CORE_REZ_OWN_valid k).inside = true ∧ (F.CORE_REZ_BASE_base k).inside = true ∧ (F.CORE_REZ_LEN_len k).inside = true ∧
        (F.CORE_REZ_OWN_model_id k).inside = true ∧ (F.CORE_REZ_OWN_tenant k).inside = true ∧ (F.CORE_REZ_OWN_fw k).inside = true := by decide
    obtain ⟨h1, h2, h3, h4, h5, h6⟩ := hin k hk
    exact (((((hcore u h1 _).trans (hcore _ h2 _)).trans (hcore _ h3 _)).trans (hcore _ h4 _)).trans (hcore _ h5 _)).trans (hcore _ h6 _)
  have hlose : ∀ u : State, State.Spares ti W u (u.resLoseCore x) := fun u => .each fun _ _ _ => .of_eq rfl rfl rfl rfl
  have hclear : ∀ u : State, State.Spares ti W u (u.clearStores x) := fun u => .of_eq rfl rfl rfl rfl
  have hloads : ∀ u : State, State.Spares ti W u (u.setLoads x []) := fun u => .of_eq rfl rfl rfl rfl
  have hmov : ∀ u : State, State.Spares ti W u (u.setFlag (P.mov x) F.MOV_STS_loading false) := fun u => State.setCorePage_spares hW hti u x 3 (by decide) (by decide) _
  have hset : ∀ (u : State) (v : Core), State.Spares ti W u (u.setCore x v) := fun u v => .of_eq rfl rfl rfl rfl
  have hoff : ∀ u : State, State.Spares ti W u (u.coreOff x) := fun u =>
    (((((hset u _).trans (hcore _ (f := F.CORE_STS_state) (by decide) 0)).trans (hcore _ (f := F.CORE_STS_rank) (by decide) 0)).trans
      (hcore _ (f := F.CORE_STS_width) (by decide) 0)).trans (hcore _ (f := F.CORE_STS_tenant) (by decide) 0)).trans (hcore _ (f := F.CORE_STS_rezinv) (by decide) _)
  have hbefore : State.Spares ti W s (((((s.each (List.range 8) fun k s => s.rezDrop x k).clearStores x).resLoseCore x).setLoads x []).setFlag (P.mov x) F.MOV_STS_loading false) :=
    ((((State.Spares.each fun k hk u => hdrop k (List.mem_range.1 hk) u).trans (hclear _)).trans (hlose _)).trans (hloads _)).trans (hmov _)
  exact (hbefore.trans (.each fun l _ u => State.loadCheck_spares hW hti u _ _)).trans (hoff _)

end

end Sys2Proof.Machine
end

section
/-! The fault of a regulator (15 R367; 02 R46): its tile is fenced, its domains are off and its cores are offline. -/
namespace Sys2Proof.Machine

theorem P.pwrT_ne_endPg : ∀ t, t < 8 → ∀ j, j < 48 → P.pwrT t ≠ endPg j := by decide +kernel

/-! A regulator that turns off. -/

/-- The regulator's registers. -/
def State.regulatorRegs (s : State) (t : Nat) : State :=
  (((s.setFlag (P.pwrT t) F.PWR_T_STS_reg_on false).setFld (P.pwrT t) F.PWR_T_STS_opp 0).setFld (P.pwrT t) F.PWR_T_STS_vdd_mv 0).setFlag
    (P.pwrT t) F.PWR_T_STS_busy false

/-- The regulator's registers and records, before its domains follow. -/
def State.regulatorCut (s : State) (t : Nat) : State :=
  { s.regulatorRegs t with power := { (s.regulatorRegs t).power with
      chg := Tab.set chg0 (s.regulatorRegs t).power.chg t OppChg.none, clamp := Tab.set bit0 (s.regulatorRegs t).power.clamp t false } }

/-- A tile whose regulator is off. -/
structure State.TileCut (s : State) (ti : Nat) : Prop where
  regOn : s.regOn ti = false
  opp : s.fld (P.pwrT ti) F.PWR_T_STS_opp = 0
  vdd : s.fld (P.pwrT ti) F.PWR_T_STS_vdd_mv = 0
  chg : s.chg ti = OppChg.none

theorem State.TileCut.of_eq {s u : State} {ti : Nat} (h : s.TileCut ti)
    (hf : ∀ f ∈ [F.PWR_T_STS_reg_on, F.PWR_T_STS_opp, F.PWR_T_STS_vdd_mv], u.fld (P.pwrT ti) f = s.fld (P.pwrT ti) f) (hp : u.power = s.power) : u.TileCut ti := by
  obtain ⟨h1, h2, h3, h4⟩ := h
  refine ⟨(State.flag_of_fld (hf _ (by simp))).trans h1, (hf _ (by simp)).trans h2, (hf _ (by simp)).trans h3, ?_⟩
  unfold State.chg
  rw [hp]
  exact h4

section
variable (s : State) (t : Nat)

theorem State.regulatorOff_eq : s.regulatorOff t = (s.regulatorCut t).domSync t := rfl

theorem State.regulatorCut_regs : (s.regulatorCut t).regs = (s.regulatorRegs t).regs := by
  unfold State.regulatorCut
  generalize s.regulatorRegs t = w
  rfl

theorem State.regulatorCut_rest : (s.regulatorCut t).rsts = (s.regulatorRegs t).rsts ∧ (s.regulatorCut t).trail = (s.regulatorRegs t).trail := by
  unfold State.regulatorCut
  generalize s.regulatorRegs t = w
  exact ⟨rfl, rfl⟩

theorem State.regulatorRegs_keeps : (s.regulatorRegs t).rsts = s.rsts ∧ (s.regulatorRegs t).trail = s.trail := by
  unfold State.regulatorRegs State.setFlag
  simp only [State.setFld_rsts, State.setFld_trail, and_self]

theorem State.regulatorCut_cut : (s.regulatorCut t).TileCut t := by
  have hfld : ∀ f, (s.regulatorCut t).fld (P.pwrT t) f = (s.regulatorRegs t).fld (P.pwrT t) f := State.fld_of_regs (s.regulatorCut_regs t) _
  unfold State.regulatorRegs at hfld
  refine ⟨?_, ?_, ?_, ?_⟩
  · refine (State.flag_of_fld (hfld _)).trans ?_
    rw [State.flag_setFlag_apart _ _ _ (by decide), State.flag_setFld_apart _ _ _ _ (by decide), State.flag_setFld_apart _ _ _ _ (by decide)]
    exact State.flag_setFlag_self _ _ (by decide) _
  · rw [hfld, State.fld_setFlag_apart _ _ _ (by decide), State.fld_setFld_apart _ _ _ _ (by decide)]
    exact State.fld_setFld_of_lt _ _ _ (by decide)
  · rw [hfld, State.fld_setFlag_apart _ _ _ (by decide)]
    exact State.fld_setFld_of_lt _ _ _ (by decide)
  · exact Tab.get_set_self chg0 (s.regulatorRegs t).power.chg t OppChg.none

/-- The domains that follow the regulator change nothing but their own registers and ramps. -/
theorem State.domSync_keeps : (s.domSync t).power = s.power ∧ (s.domSync t).rsts = s.rsts ∧ (s.domSync t).trail = s.trail ∧
    (∀ pg f, f.inside = true → pg ≠ P.pwrT t → (s.domSync t).fld pg f = s.fld pg f) ∧
    ∀ f, (∀ i, i < 136 → f.apart (domFld i) = true) → ∀ pg, (s.domSync t).fld pg f = s.fld pg f := by
  have hin : ∀ i, i < 136 → (domFld i).inside = true := by decide +kernel
  refine State.each_keeps (fun u => u.power = s.power ∧ u.rsts = s.rsts ∧ u.trail = s.trail ∧ (∀ pg f, f.inside = true → pg ≠ P.pwrT t → u.fld pg f = s.fld pg f) ∧
    ∀ f, (∀ i, i < 136 → f.apart (domFld i) = true) → ∀ pg, u.fld pg f = s.fld pg f) s _ _ (fun i hi u hu => ?_)
    ⟨rfl, rfl, rfl, fun _ _ _ _ => rfl, fun _ _ _ => rfl⟩
  have hi136 := List.mem_range.1 hi
  obtain ⟨h1, h2, h3, h4, h5⟩ := hu
  have hset : ∀ v, (u.setDom t i v).power = s.power ∧ (u.setDom t i v).rsts = s.rsts ∧ (u.setDom t i v).trail = s.trail ∧
      (∀ pg f, f.inside = true → pg ≠ P.pwrT t → (u.setDom t i v).fld pg f = s.fld pg f) ∧
      ∀ f, (∀ i, i < 136 → f.apart (domFld i) = true) → ∀ pg, (u.setDom t i v).fld pg f = s.fld pg f := fun v =>
    ⟨h1, h2, h3, fun pg f hf hpg => (State.fld_setFld_page _ _ _ _ hpg hf (hin i hi136)).trans (h4 pg f hf hpg),
      fun f hf pg => (State.fld_setFld_apart _ _ _ _ (hf i hi136)).trans (h5 f hf pg)⟩
  split
  · exact ⟨h1, h2, h3, h4, h5⟩
  · split
    · split
      · exact hset 1
      · exact ⟨h1, h2, h3, h4, h5⟩
    · exact hset 0

theorem State.sameBytes_domSync : s.sameBytes (s.domSync t) := by
  refine State.each_keeps s.sameBytes s _ _ (fun i _ u hu => ?_) (.refl s)
  have hset : ∀ v, s.sameBytes (u.setDom t i v) := fun v => hu.trans (State.sameBytes_of_eq rfl rfl rfl)
  split
  · exact hu
  · split
    · split
      · exact hset 1
      · exact hu
    · exact (hset 0).trans (State.sameBytes_of_eq rfl rfl rfl)

theorem State.sameBytes_regulatorOff : s.sameBytes (s.regulatorOff t) := by
  have hregs : s.sameBytes (s.regulatorRegs t) := by
    unfold State.regulatorRegs State.setFlag
    exact State.sameBytes_of_mems (State.setFld_mem _ _ _ _ (State.setFld_mem _ _ _ _ (State.setFld_mem _ _ _ _ (State.setFld_mem _ _ _ _ s.mems_memsOf))))
  have hcut : (s.regulatorRegs t).sameBytes (s.regulatorCut t) := by
    unfold State.regulatorCut
    generalize s.regulatorRegs t = w
    exact State.sameBytes_of_eq rfl rfl rfl
  exact (hregs.trans hcut).trans (State.sameBytes_domSync _ t)

theorem pwrT_apart_dom : ∀ f ∈ [F.PWR_T_STS_reg_on, F.PWR_T_STS_opp, F.PWR_T_STS_vdd_mv, F.PG_INT_STS], ∀ i, i < 136 → f.apart (domFld i) = true := by decide +kernel

theorem State.regulatorOff_cut : (s.regulatorOff t).TileCut t := by
  obtain ⟨hp, -, -, -, hf⟩ := (s.regulatorCut t).domSync_keeps t
  refine (s.regulatorCut_cut t).of_eq (fun f hmem => hf f (pwrT_apart_dom f ?_) _) hp
  simp only [List.mem_cons, List.not_mem_nil, or_false] at hmem ⊢
  rcases hmem with h | h | h <;> simp [h]

/-- What a regulator that turns off leaves of the rest. -/
theorem State.regulatorOff_keeps : (s.regulatorOff t).rsts = s.rsts ∧ (s.regulatorOff t).trail = s.trail ∧
    (∀ pg f, f.inside = true → pg ≠ P.pwrT t → (s.regulatorOff t).fld pg f = s.fld pg f) ∧
    (s.regulatorOff t).fld (P.pwrT t) F.PG_INT_STS = s.fld (P.pwrT t) F.PG_INT_STS := by
  obtain ⟨-, hr, ht, hpage, hf⟩ := (s.regulatorCut t).domSync_keeps t
  obtain ⟨hr', ht'⟩ := s.regulatorCut_rest t
  obtain ⟨hr'', ht''⟩ := s.regulatorRegs_keeps t
  have hfld : ∀ pg f, (s.regulatorCut t).fld pg f = (s.regulatorRegs t).fld pg f := State.fld_of_regs (s.regulatorCut_regs t)
  unfold State.regulatorRegs at hfld
  refine ⟨hr.trans (hr'.trans hr''), ht.trans (ht'.trans ht''), fun pg f hin hpg => (hpage pg f hin hpg).trans ?_, (hf _ (pwrT_apart_dom _ (by simp)) _).trans ?_⟩
  · exact (hfld pg f).trans ((State.fld_setFlag_page hpg hin (by decide) _ _).trans ((State.fld_setFld_page _ _ _ _ hpg hin (by decide)).trans
      ((State.fld_setFld_page _ _ _ _ hpg hin (by decide)).trans (State.fld_setFlag_page hpg hin (by decide) _ _))))
  · exact (hfld _ _).trans ((State.fld_setFlag_apart _ _ _ (by decide) _).trans ((State.fld_setFld_apart _ _ _ _ (by decide)).trans
      ((State.fld_setFld_apart _ _ _ _ (by decide)).trans (State.fld_setFlag_apart _ _ _ (by decide) _))))

end

/-! The links of a tile that is lost. -/

/-- The states of the partitions. -/
def PartState (pg : Nat) (f : Fld) : Prop := ∃ p, p < 8 ∧ pg = P.pt p ∧ f = F.PT_STS_state

theorem PartState.watched {ti : Nat} : ∀ pg f, PartState pg f → Watched ti pg f := fun _ _ h => .inr (.inl h)

section
variable {ti : Nat} (hti : ti < 8)
include hti

theorem State.setEnd_spares {k : Nat} (hk : k < 48) (s : State) {f : Fld} (hf : f.inside = true) (v : Nat) :
    State.Spares ti PartState s (s.setFld (endPg k) f v) := by
  refine .setFld_ne s ?_ (fkey_ne_of_page (P.pwrT_ne_endPg ti hti k hk) (by decide) hf) v
  rintro pg g ⟨p, hp, rfl, rfl⟩
  exact fkey_ne_of_page (P.pt_ne_endPg p hp k hk) (by decide) hf

theorem State.endSet_spares {k : Nat} (hk : k < 48) (s : State) (v : Nat) : State.Spares ti PartState s (s.endSet k v) := by
  have hset : ∀ (u : State) {l r : Fld}, l.inside = true → r.inside = true → ∀ x, State.Spares ti PartState u (u.eset k l r x) := fun u _ _ hl hr x =>
    State.setEnd_spares hti hk u (eFld_inside hl hr) x
  have hlend : ∀ (u : State) v, State.Spares ti PartState u (u.setLend k v) := fun u v => .of_eq rfl rfl rfl rfl
  have hreplay : ∀ u : State, State.Spares ti PartState u (u.setReplay k [] 0) := fun u => by
    unfold State.setReplay
    dsimp only
    split
    · exact hlend _ _
    · exact (hlend _ _).trans (State.setEnd_spares hti hk _ (by decide) _)
  have hclear : ∀ u : State, State.Spares ti PartState u (u.endClear k) := fun u =>
    (((hreplay u).trans (hlend _ _)).trans (hset _ (l := F.LNK_STS_tx_seq) (r := F.SER_STS_tx_seq) (by decide) (by decide) 0)).trans
      (hset _ (l := F.LNK_STS_rx_expected) (r := F.SER_STS_rx_expected) (by decide) (by decide) 0)
  have hstate := hset s (l := F.LNK_STS_state) (r := F.SER_STS_state) (by decide) (by decide) v
  have hdown : State.Spares ti PartState s (((s.eset k F.LNK_STS_state F.SER_STS_state v).endClear k).setRetrain k false) :=
    (hstate.trans (hclear _)).trans (hset _ (l := F.LNK_CTL_retrain) (r := F.SER_CTL_retrain) (by decide) (by decide) _)
  exact .ite (.ite hdown (hdown.trans (.event PartState.watched _ _ _))) hstate

theorem State.linkSet_spares {k : Nat} (hk : k < 48) (s : State) (v : Nat) : State.Spares ti PartState s (s.linkSet k v) :=
  .each fun _ he u => u.endSet_spares hti (endPages_of_ends hk he) v

omit hti in
/-- The bundle of a tile is its first link, and the others are bridges. -/
theorem tileLinks_bridges : ∀ t, t < 8 → ∀ k ∈ ((List.range 4).filter fun d => (neighbour t d).isSome).map (4 * t + ·), k < 32 ∧ ∀ e ∈ k :: (farEnd k).toList, e < 32 := by
  decide

/-- The links of the tile are FENCED, its bundle among them. -/
theorem State.fenceLinks_spec (s : State) : State.Spares ti PartState s (s.each (tileLinks ti) fun k s => s.linkSet k 6) ∧
    (s.each (tileLinks ti) fun k s => s.linkSet k 6).fld (P.serHub ti) F.SER_STS_state = 6 := by
  have hlinks := tileLinks_bridges ti hti
  have hhub : endPg (40 + ti) = P.serHub ti := by
    unfold endPg
    rw [if_neg (by omega), if_neg (by omega), Nat.add_sub_cancel_left]
  have hfar : farEnd (32 + ti) = some (40 + ti) := by
    unfold farEnd
    rw [if_neg (by omega), if_pos (by omega)]
    congr 1
    omega
  have hbundle : (s.linkSet (32 + ti) 6).fld (P.serHub ti) F.SER_STS_state = 6 := by
    rw [← hhub, State.linkSet_eq hfar]
    have hself := State.endSet_self (s := s.endSet (32 + ti) 6) (k := 40 + ti) (v := 6) (by decide)
    rw [State.eState_eq_fld] at hself
    exact hself
  unfold tileLinks
  rw [State.each_cons]
  refine ⟨(s.linkSet_spares hti (by omega) 6).trans (.each fun k hk u => u.linkSet_spares hti (Nat.lt_trans (hlinks k hk).1 (by decide)) 6), ?_⟩
  refine State.each_keeps (fun u => u.fld (P.serHub ti) F.SER_STS_state = 6) _ _ _ (fun k hk u hu => ?_) hbundle
  refine State.each_keeps (fun u => u.fld (P.serHub ti) F.SER_STS_state = 6) u _ _ (fun e he w hw => ?_) hu
  have he32 := (hlinks k hk).2 e he
  have hne : P.serHub ti ≠ endPg e := by
    rw [endPg_of_lt he32]
    unfold P.serHub P.lnk
    omega
  exact (State.fld_endSet_page hne (by decide)).trans hw

end

/-! The cores of a tile that is lost. -/

/-- Watched fields but the clusters' online cores. -/
def StayWatched (ti pg : Nat) (f : Fld) : Prop := Watched ti pg f ∧ pg % 0x80 ≠ 0 ∨ PartState pg f ∨ (pg = P.serHub ti ∧ f = F.SER_STS_state)

theorem StayWatched.watched {ti : Nat} : ∀ pg f, StayWatched ti pg f → Watched ti pg f := by
  rintro pg f (⟨h, -⟩ | h | h)
  · exact h
  · exact .inr (.inl h)
  · exact .inr (.inr (.inl h))

theorem P.clu_inj {c d : Nat} (h : P.clu c = P.clu d) : c = d := by
  unfold P.clu at h
  omega

theorem P.clu_mod (c : Nat) : P.clu c % 0x80 = 0 := by
  unfold P.clu
  omega

/-- The cores of cluster c of the tile are wiped and offline. -/
def State.cluLost (s : State) (ti c : Nat) : State :=
  (s.each (List.range 8) fun p s => s.coreWipe (64 * ti + 8 * c + p)).setFld (P.clu (8 * ti + c)) F.CLU_MAP_online 0

section
variable {ti : Nat} (hti : ti < 8)
include hti

theorem State.cluLost_spares (s : State) (c : Nat) : State.Spares ti (StayWatched ti) s (s.cluLost ti c) := by
  have hwipe : State.Spares ti (StayWatched ti) s (s.each (List.range 8) fun p s => s.coreWipe (64 * ti + 8 * c + p)) :=
    .each fun p _ u => State.coreWipe_spares StayWatched.watched hti u _
  have hclu := P.clu_mod (8 * ti + c)
  have hhigh := P.clu_high (8 * ti + c)
  have hpwr : P.pwrT ti ≠ P.clu (8 * ti + c) := by
    intro h
    rw [← h] at hclu
    unfold P.pwrT at hclu
    omega
  refine hwipe.trans (.setFld_ne _ ?_ (fkey_ne_of_page hpwr (by decide) (by decide)) 0)
  rintro pg f (⟨hw, hmod⟩ | ⟨p, hp, rfl, rfl⟩ | ⟨rfl, rfl⟩)
  · have hinside : ∀ g ∈ watchedFlds, g.inside = true := by decide
    exact fkey_ne_of_page (fun h => hmod (h ▸ hclu)) (hinside f hw.field) (by decide)
  · refine fkey_ne_of_page (fun h => ?_) (by decide) (by decide)
    unfold P.pt at h
    omega
  · refine fkey_ne_of_page (fun h => ?_) (by decide) (by decide)
    unfold P.serHub at h
    omega

/-- Every cluster of the tile is offline. -/
theorem State.clusLost_online (s : State) {y : Nat} (hy : y < 8) : (s.each (List.range 8) fun c s => s.cluLost ti c).fld (P.clu (8 * ti + y)) F.CLU_MAP_online = 0 := by
  have hself : ∀ u : State, (u.cluLost ti y).fld (P.clu (8 * ti + y)) F.CLU_MAP_online = 0 := fun u => by
    unfold State.cluLost
    generalize (u.each (List.range 8) fun p s => s.coreWipe (64 * ti + 8 * y + p)) = w
    exact State.fld_setFld_of_lt w _ 0 (by decide)
  have hother : ∀ (c : Nat) (u : State), c ≠ y → (u.cluLost ti c).fld (P.clu (8 * ti + y)) F.CLU_MAP_online = u.fld (P.clu (8 * ti + y)) F.CLU_MAP_online := fun c u hcy => by
    have hne : P.clu (8 * ti + y) ≠ P.clu (8 * ti + c) := fun h => hcy (by have := P.clu_inj h; omega)
    have hwipe : State.Spares ti (Watched ti) u (u.each (List.range 8) fun p s => s.coreWipe (64 * ti + 8 * c + p)) :=
      .each fun p _ w => State.coreWipe_spares (fun _ _ h => h) hti w _
    have hpage := hwipe.fld (P.clu (8 * ti + y)) F.CLU_MAP_online (.inr (.inr (.inr ⟨y, hy, rfl, rfl⟩)))
    unfold State.cluLost
    generalize (u.each (List.range 8) fun p s => s.coreWipe (64 * ti + 8 * c + p)) = w at hpage ⊢
    exact (State.fld_setFld_page w _ _ 0 hne (by decide) (by decide)).trans hpage
  exact State.each_reaches_mem (P := fun u => u.fld (P.clu (8 * ti + y)) F.CLU_MAP_online = 0) (List.mem_range.2 hy) (fun c s => s.cluLost ti c) hself
    (fun c _ u hcy hu => (hother c u hcy).trans hu) s

end

end Sys2Proof.Machine
end

section
/-! A regulator fault from its record to the loss of the tile (15 R367; 02 R46). -/
namespace Sys2Proof.Machine

/-- The links of tile t are FENCED, and what waited for it is gone. -/
def State.tileFenced (s : State) (t : Nat) : State := ((s.each (tileLinks t) fun k s => s.linkSet k 6).tileBuffers t).heldLost t

/-- The tile's regulator is off, with the record of its loss. -/
def State.tileDown (s : State) (t : Nat) (cause : LostCause) : State := ((s.tileFenced t).regulatorOff t).trailPut 0x07 0x1B 2 [2, t, lostCode cause]

/-- Before ready the boot status notes a fenced tile. -/
def State.tileNoted (s : State) (t : Nat) (cause : LostCause) : State :=
  if (s.tileDown t cause).ready then s.tileDown t cause else (s.tileDown t cause).satFld P.boot F.BOOT_STS_tiles_fenced 1

section
variable {ti : Nat} (hti : ti < 8)
include hti

theorem State.tileFenced_spec (s : State) : State.Spares ti PartState s (s.tileFenced ti) ∧ (s.tileFenced ti).fld (P.serHub ti) F.SER_STS_state = 6 := by
  obtain ⟨hlinks, hhub⟩ := s.fenceLinks_spec hti
  unfold State.tileFenced
  generalize (s.each (tileLinks ti) fun k s => s.linkSet k 6) = w at hlinks hhub
  have hbuf : ∀ u : State, (u.tileBuffers ti).regs = u.regs ∧ State.Spares ti PartState u (u.tileBuffers ti) := fun u =>
    State.each_keeps (fun v => v.regs = u.regs ∧ State.Spares ti PartState u v) u _ _
      (fun _ _ v hv => ⟨hv.1, hv.2.trans (.of_eq rfl rfl rfl rfl)⟩) ⟨rfl, .refl u⟩
  have hheld : ∀ u : State, (u.heldLost ti).regs = u.regs ∧ State.Spares ti PartState u (u.heldLost ti) := fun u => by
    refine State.each_keeps (fun v => v.regs = u.regs ∧ State.Spares ti PartState u v) _ _ _ (fun c _ v hv => ?_) ⟨rfl, .of_eq rfl rfl rfl rfl⟩
    unfold State.heldDrop
    split
    · exact ⟨hv.1, hv.2.trans (.of_eq rfl rfl rfl rfl)⟩
    · exact ⟨hv.1, hv.2.trans (.of_eq rfl rfl rfl rfl)⟩
    · exact hv
  exact ⟨hlinks.trans ((hbuf w).2.trans (hheld _).2), (State.fld_of_regs ((hheld _).1.trans (hbuf w).1) _ _).trans hhub⟩

/-- What the loss of a tile has done before its cores are wiped. -/
structure State.TileFallen (s u : State) (ti : Nat) : Prop where
  fenced : u.fld (P.serHub ti) F.SER_STS_state = 6
  cut : u.TileCut ti
  parts : ∀ p, p < 8 → u.ptState p = s.ptState p
  bit : bitOf (s.fld (P.pwrT ti) F.PG_INT_STS) 3 = true → bitOf (u.fld (P.pwrT ti) F.PG_INT_STS) 3 = true
  rsts : u.rsts = s.rsts
  head : ∀ r q, s.trail.queue = r :: q → ∃ q', u.trail.queue = r :: q'

omit hti in
/-- A watched field of the regulator stays watched. -/
theorem stayWatched_pwrT {ti : Nat} {f : Fld} (hf : f ∈ [F.PWR_T_STS_reg_on, F.PWR_T_STS_opp, F.PWR_T_STS_vdd_mv]) : StayWatched ti (P.pwrT ti) f := by
  refine .inl ⟨.inl ⟨rfl, ?_⟩, ?_⟩
  · simpa using hf
  · unfold P.pwrT
    omega

omit hti in
theorem State.TileFallen.spares {s u w : State} {ti : Nat} (h : s.TileFallen u ti) (hs : State.Spares ti (StayWatched ti) u w) : s.TileFallen w ti := by
  obtain ⟨hfen, hcut, hparts, hbit, hrsts, hhead⟩ := h
  refine ⟨(hs.fld _ _ (.inr (.inr ⟨rfl, rfl⟩))).trans hfen, hcut.of_eq (fun f hf => hs.fld _ _ (stayWatched_pwrT hf)) hs.power,
    fun p hp => (hs.fld _ _ (.inr (.inl ⟨p, hp, rfl, rfl⟩))).trans (hparts p hp), fun hb => hs.bit (hbit hb), hs.rsts.trans hrsts, fun r q hq => ?_⟩
  obtain ⟨q', hq'⟩ := hhead r q hq
  exact hs.head r q' hq'

theorem State.tileDown_fallen (s : State) (cause : LostCause) : s.TileFallen (s.tileDown ti cause) ti := by
  obtain ⟨hspares, hhub⟩ := s.tileFenced_spec hti
  have hcut := (s.tileFenced ti).regulatorOff_cut ti
  obtain ⟨hrsts, htrail, hpage, hint⟩ := (s.tileFenced ti).regulatorOff_keeps ti
  have hoff : s.TileFallen ((s.tileFenced ti).regulatorOff ti) ti := by
    refine ⟨(hpage _ _ (by decide) fun h => ?_).trans hhub, hcut, fun p hp => (hpage _ _ (by decide) fun h => ?_).trans (hspares.fld _ _ ⟨p, hp, rfl, rfl⟩),
      fun hb => by rw [hint]; exact hspares.bit hb, hrsts.trans hspares.rsts, fun r q hq => by rw [htrail]; exact hspares.head r q hq⟩
    · unfold P.serHub P.pwrT at h
      omega
    · unfold P.pt P.pwrT at h
      omega
  exact hoff.spares (.trailPut StayWatched.watched hti _ _ _ _ _)

theorem State.tileNoted_fallen (s : State) (cause : LostCause) : s.TileFallen (s.tileNoted ti cause) ti := by
  have hboot : ¬ WatchedPage P.boot := by
    unfold WatchedPage P.boot
    omega
  exact (s.tileDown_fallen hti cause).spares (.ite (.refl _) (.setPage StayWatched.watched hti _ hboot (by decide) _))

variable {s : State} (hparts : ∀ p, p < 8 → s.ptState p = 0) (hrst : s.findRst 4 ti = none)
include hparts hrst

/-- The loss of a tile where no partition stands and no reset of the tile runs. -/
theorem State.tileLost_alone (hfen : s.fenced ti = false) (cause : LostCause) :
    s.tileLost ti cause = ((s.tileNoted ti cause).each (List.range 8) fun c s => s.cluLost ti c).reroute := by
  have hfall := s.tileNoted_fallen hti cause
  have hpts : (s.tileNoted ti cause).ptsOnTile ti = [] := by
    unfold State.ptsOnTile
    rw [List.filter_eq_nil_iff]
    intro p hp
    rw [hfall.parts p (List.mem_range.1 hp), hparts p (List.mem_range.1 hp)]
    simp
  have hlost : (s.tileNoted ti cause).tileRstLost ti = s.tileNoted ti cause := by
    have hfind : (s.tileNoted ti cause).findRst 4 ti = none := by
      unfold State.findRst at hrst ⊢
      rw [hfall.rsts]
      exact hrst
    unfold State.tileRstLost
    rw [hfind]
  unfold State.tileLost
  rw [hfen]
  show (State.each (((s.tileNoted ti cause).each ((s.tileNoted ti cause).ptsOnTile ti) fun p s => s.ptFaultEvent p 1).tileRstLost ti) (List.range 8) fun c s =>
    s.cluLost ti c).reroute = _
  rw [hpts, State.each_nil, hlost]

/-- The tile is lost: FENCED, its regulator off and its clusters offline. -/
theorem State.tileLost_fallen (hfen : s.fenced ti = false) (cause : LostCause) : s.TileFallen (s.tileLost ti cause) ti ∧
    ∀ y, y < 8 → (s.tileLost ti cause).fld (P.clu (8 * ti + y)) F.CLU_MAP_online = 0 := by
  have hfall := (s.tileNoted_fallen hti cause).spares (w := (s.tileNoted ti cause).each (List.range 8) fun c s => s.cluLost ti c)
    (.each fun c _ u => u.cluLost_spares hti c)
  have hoff := fun y hy => (s.tileNoted ti cause).clusLost_online hti (y := y) hy
  rw [State.tileLost_alone hti hparts hrst hfen cause]
  generalize (s.tileNoted ti cause).each (List.range 8) (fun c s => s.cluLost ti c) = w at hfall hoff
  have hnone : w.noneRuns := fun p hp => by
    rw [hfall.parts p hp, hparts p hp]
    exact ⟨by decide, by decide⟩
  have hroute := State.reroute_of_noneRuns hnone
  have hspares : State.Spares ti (StayWatched ti) w w.reroute := by
    obtain ⟨hold, hw⟩ := hroute
    rw [hw]
    exact .of_eq rfl rfl rfl rfl
  exact ⟨hfall.spares hspares, fun y hy => (hroute.fld _ _).trans (hoff y hy)⟩

end

/-! The fault. -/

/-- The regulator is off, with its record and its event. -/
def State.regulatorTrips (s : State) (t : Nat) (under : Bool) : State :=
  ((s.regulatorOff t).trailPut 0x06 0x0B 2 [1, t, b2n under]).event (P.pwrT t) 3

theorem exec_regulatorFault_on {s : State} {ti : Fin 8} (under : Bool) (hon : s.regOn ti = true) :
    exec (.regulatorFault ti under) s = .next ((s.regulatorTrips ti under).tileLost ti .regulator) :=
  congrArg Host.Outcome.next (if_neg (by rw [hon]; decide))

theorem State.regulatorTrips_spec {ti : Nat} (hti : ti < 8) (s : State) (under : Bool) : (s.regulatorTrips ti under).TileCut ti ∧
    (∀ pg f, f.inside = true → pg ≠ P.pwrT ti → pg ≠ P.trl → (s.regulatorTrips ti under).fld pg f = s.fld pg f) ∧
    bitOf ((s.regulatorTrips ti under).fld (P.pwrT ti) F.PG_INT_STS) 3 = true ∧ (s.regulatorTrips ti under).rsts = s.rsts ∧
    (s.trail.queue = [] → ∃ r, (s.regulatorTrips ti under).trail.queue = [r] ∧ r.typ = 6 ∧ r.payload = [1, ti, b2n under]) ∧ s.sameBytes (s.regulatorTrips ti under) := by
  have hcut := s.regulatorOff_cut ti
  obtain ⟨hrsts, htrail, hpage, -⟩ := s.regulatorOff_keeps ti
  have hbytes : s.sameBytes (s.regulatorOff ti) := s.sameBytes_regulatorOff ti
  unfold State.regulatorTrips
  generalize s.regulatorOff ti = w at hcut hrsts htrail hpage hbytes
  have hspares : State.Spares ti (StayWatched ti) w ((w.trailPut 0x06 0x0B 2 [1, ti, b2n under]).event (P.pwrT ti) 3) :=
    (State.Spares.trailPut StayWatched.watched hti w _ _ _ _).trans (.event StayWatched.watched _ _ _)
  refine ⟨hcut.of_eq (fun f hf => hspares.fld _ _ (stayWatched_pwrT hf)) hspares.power, fun pg f hf hpg htrl => ?_, State.bit_event _ _ (by decide),
    hspares.rsts.trans hrsts, fun hq => ?_, hbytes.trans (State.sameBytes_of_mems (State.event_mem _ _ _ (State.trailPut_mem _ _ _ _ _ w.mems_memsOf)))⟩
  · exact (State.fld_event_page hpg hf _ _).trans ((State.fld_trailPut_page htrl hf _ _ _ _ _).trans (hpage pg f hf hpg))
  · have hempty : w.trail.queue = [] := by rw [htrail, hq]
    obtain ⟨r, hr, htyp, hpay⟩ := State.trailPut_queue (s := w) (by rw [hempty]; decide) 0x06 0x0B 2 [1, ti, b2n under]
    exact ⟨r, by rw [State.event_trail, hr, hempty]; rfl, htyp, hpay⟩

section
variable {s : State} {ti : Fin 8} (under : Bool)

theorem State.fenced_regulatorTrips (s : State) (ti : Fin 8) (under : Bool) : (s.regulatorTrips ti under).fenced ti = s.fenced ti := by
  obtain ⟨-, hpage, -⟩ := s.regulatorTrips_spec ti.isLt under
  unfold State.fenced
  rw [hpage _ _ (by decide) (by unfold P.serHub P.pwrT; omega) (by unfold P.serHub P.trl; omega)]

/-- A regulator fault is the loss of the tile from the state with the regulator off. -/
theorem regulatorFault_is_tileLost (hon : s.regOn ti = true) : ∃ u, exec (.regulatorFault ti under) s = exec (.tileLost ti .regulator) u ∧ u.regOn ti = false ∧
    u.fenced ti = s.fenced ti ∧ u.fld (P.pwrT ti) F.PWR_T_STS_opp = 0 ∧ u.fld (P.pwrT ti) F.PWR_T_STS_vdd_mv = 0 ∧ u.chg ti = OppChg.none ∧ s.sameBytes u ∧
    bitOf (u.fld (P.pwrT ti) F.PG_INT_STS) 3 = true := by
  obtain ⟨hcut, -, hbit, -, -, hbytes⟩ := s.regulatorTrips_spec ti.isLt under
  exact ⟨s.regulatorTrips ti under, exec_regulatorFault_on under hon, hcut.regOn, s.fenced_regulatorTrips ti under, hcut.opp, hcut.vdd, hcut.chg, hbytes, hbit⟩

theorem regulatorFault_alone (hon : s.regOn ti = true) (hparts : ∀ p, p < 8 → s.ptState p = 0) (hrst : s.findRst 4 ti = none) :
    Completes (.regulatorFault ti under) s fun t => t.fenced ti = true ∧ t.regOn ti = false ∧ t.fld (P.pwrT ti) F.PWR_T_STS_opp = 0 ∧
      t.fld (P.pwrT ti) F.PWR_T_STS_vdd_mv = 0 ∧ t.chg ti = OppChg.none ∧ bitOf (t.fld (P.pwrT ti) F.PG_INT_STS) 3 = true ∧
      (s.fenced ti = false → ∀ y, y < 8 → t.fld (P.clu (8 * ti + y)) F.CLU_MAP_online = 0) ∧
      (s.trail.queue = [] → ∃ r q, t.trail.queue = r :: q ∧ r.typ = 6 ∧ r.payload = [1, ti.val, b2n under]) := by
  obtain ⟨hcut, hpage, hbit, hrsts, hqueue, -⟩ := s.regulatorTrips_spec ti.isLt under
  have hfen := s.fenced_regulatorTrips ti under
  have hrun := exec_regulatorFault_on under hon
  generalize s.regulatorTrips ti under = w at hcut hpage hbit hrsts hqueue hfen hrun
  by_cases hf : s.fenced ti = true
  · have hself : w.tileLost ti .regulator = w := if_pos (hfen.trans hf)
    rw [hself] at hrun
    refine ⟨w, hrun, hfen.trans hf, hcut.regOn, hcut.opp, hcut.vdd, hcut.chg, hbit, fun h => absurd (h.symm.trans hf) Bool.false_ne_true, fun hq => ?_⟩
    obtain ⟨r, hr, htyp, hpay⟩ := hqueue hq
    exact ⟨r, [], hr, htyp, hpay⟩
  · have hfalse : w.fenced ti = false := by rw [hfen]; exact Bool.eq_false_iff.2 hf
    have hparts' : ∀ p, p < 8 → w.ptState p = 0 := fun p hp =>
      (hpage _ _ (by decide) (by unfold P.pt P.pwrT; omega) (by unfold P.pt P.trl; omega)).trans (hparts p hp)
    have hrst' : w.findRst 4 ti = none := by
      unfold State.findRst at hrst ⊢
      rw [hrsts]
      exact hrst
    obtain ⟨hfall, honline⟩ := State.tileLost_fallen ti.isLt hparts' hrst' hfalse .regulator
    refine ⟨_, hrun, ?_, hfall.cut.regOn, hfall.cut.opp, hfall.cut.vdd, hfall.cut.chg, hfall.bit hbit, fun _ => honline, fun hq => ?_⟩
    · unfold State.fenced
      rw [hfall.fenced]
      rfl
    · obtain ⟨r, hr, htyp, hpay⟩ := hqueue hq
      obtain ⟨q', hq'⟩ := hfall.head r [] hr
      exact ⟨r, q', hq', htyp, hpay⟩

theorem exec_regulatorFault_off (hoff : s.regOn ti = false) : exec (.regulatorFault ti under) s = .next s :=
  congrArg Host.Outcome.next (if_pos (by rw [hoff]; rfl))

end

end Sys2Proof.Machine
end

section
/-! A port whose reset is due (06 R127): the port's own pins and page, and the power state, stay as they are. -/
namespace Sys2Proof.Machine

/-- The pages of the host ports, the pins of the ports and the power state are as they were. -/
structure State.PinsKept (s t : State) : Prop where
  fld : ∀ p, p < 4 → ∀ f, f.inside = true → t.fld (P.hpt p) f = s.fld (P.hpt p) f
  pins : ∀ j, (t.port j).railBad = (s.port j).railBad ∧ (t.port j).perst = (s.port j).perst
  power : t.power = s.power

/-- A page of no host port. -/
def OffPorts (pg : Nat) : Prop := pg < 0x60 ∨ 0x70 ≤ pg

section
variable {s t u : State}

theorem State.PinsKept.of_eq (hr : t.regs = s.regs) (hports : t.ports = s.ports) (hp : t.power = s.power) : s.PinsKept t :=
  ⟨fun p _ f _ => State.fld_of_regs hr _ f, fun j => by
    unfold State.port
    rw [hports]
    exact ⟨rfl, rfl⟩, hp⟩

theorem State.PinsKept.refl (s : State) : s.PinsKept s := .of_eq rfl rfl rfl

theorem State.PinsKept.trans (h : s.PinsKept t) (h' : t.PinsKept u) : s.PinsKept u :=
  ⟨fun p hp f hf => (h'.fld p hp f hf).trans (h.fld p hp f hf), fun j => ⟨(h'.pins j).1.trans (h.pins j).1, (h'.pins j).2.trans (h.pins j).2⟩, h'.power.trans h.power⟩

theorem State.PinsKept.ite {c : Prop} [Decidable c] (h : s.PinsKept t) (h' : s.PinsKept u) : s.PinsKept (if c then t else u) := by
  split
  · exact h
  · exact h'

theorem State.PinsKept.each {α : Type} {l : List α} {g : α → State → State} (h : ∀ a ∈ l, ∀ u : State, u.PinsKept (g a u)) : s.PinsKept (s.each l g) :=
  State.each_keeps (fun u => s.PinsKept u) s l g (fun a ha u hu => hu.trans (h a ha u)) (.refl s)

theorem State.PinsKept.setFld (s : State) {pg : Nat} (hpg : OffPorts pg) {f : Fld} (hf : f.inside = true) (v : Nat) : s.PinsKept (s.setFld pg f v) := by
  refine ⟨fun p hp g hg => State.fld_setFld_page _ _ _ _ (fun h => ?_) hg hf, fun _ => ⟨rfl, rfl⟩, rfl⟩
  rw [← h] at hpg
  unfold OffPorts P.hpt at hpg
  omega

theorem State.PinsKept.event (s : State) {pg : Nat} (hpg : OffPorts pg) (bit : Nat) : s.PinsKept (s.event pg bit) := by
  refine ⟨fun p hp g hg => State.fld_event_page (fun h => ?_) hg _ _, fun j => by rw [State.port_event]; exact ⟨rfl, rfl⟩, State.event_power _ _ _⟩
  rw [← h] at hpg
  unfold OffPorts P.hpt at hpg
  omega

/-- A port that keeps its pins. -/
theorem State.PinsKept.setPort (s : State) (k : Nat) {v : Port} (h1 : v.railBad = (s.port k).railBad) (h2 : v.perst = (s.port k).perst) : s.PinsKept (s.setPort k v) := by
  refine ⟨fun _ _ _ _ => rfl, fun j => ?_, rfl⟩
  rw [State.port_setPort]
  split
  · next hj =>
    rw [hj]
    exact ⟨h1, h2⟩
  · exact ⟨rfl, rfl⟩

end

theorem offPorts_ten (n k : Nat) : OffPorts (P.ten n k) := by
  unfold OffPorts P.ten
  omega

/-! The reset of a tenant that its port triggers. -/

theorem State.stopJobs_pins (s : State) (ks : List Nat) (a b : Nat) : s.PinsKept (s.stopJobs ks a b) := by
  refine .each fun k _ u => ?_
  unfold State.stopJob
  dsimp only
  split
  · exact .refl u
  · exact .of_eq rfl rfl rfl

theorem State.setSkState_pins (s : State) {k : Nat} (hk : k < 512) (st : Nat) : s.PinsKept (s.setSkState k st) := by
  have hput : ∀ (u : State) (off : Nat) (bs : List Byte), u.PinsKept (u.skPut k off bs) := fun u off bs => .each fun g _ w => by
    split
    · exact .of_eq rfl rfl rfl
    · exact .refl w
  have hstream : OffPorts (P.stream k) := by
    unfold OffPorts P.stream
    omega
  have hstp : OffPorts (P.stp 0) := by
    unfold OffPorts P.stp
    omega
  unfold State.setSkState
  dsimp only
  exact .ite (.refl s) (((State.PinsKept.setFld s hstream (skState_inside _ (Nat.mod_lt _ (by decide))) st).trans (.setFld _ hstp (by decide) _)).trans (hput _ _ _))

theorem State.skTenantStart_pins (s : State) (n : Nat) : s.PinsKept (s.skTenantStart n) := by
  refine .each fun k hk u => .ite (.refl u) ?_
  have hk512 : k < 512 := List.mem_range.1 (List.mem_filter.1 hk).1
  have htransmit : ∀ (w : State) (m : SkSend), w.PinsKept (w.skTransmit m) := fun w m => by
    unfold State.skTransmit
    dsimp only
    exact .ite (.refl w) (.ite (.of_eq rfl rfl rfl) (.of_eq rfl rfl rfl))
  have hcontrol : ∀ w : State, w.PinsKept (w.skControl k 2) := fun w =>
    State.PinsKept.trans (t := w.setSk k { w.sk k with ctl := ((w.sk k).ctl + 1) % 2 ^ 32, cur := (2, (w.sk k).ctl), resume := (w.sk k).resume }) (.of_eq rfl rfl rfl) (htransmit _ _)
  have hpfc : ∀ w : State, w.PinsKept (w.skPfcOn k) := fun w => .ite (.of_eq rfl rfl rfl) (.refl w)
  exact ((u.setSkState_pins hk512 5).trans (hcontrol _)).trans (hpfc _)

theorem State.vcTenantStart_pins (s : State) (n : Nat) : s.PinsKept (s.vcTenantStart n) := by
  refine .each fun i hi u => .ite (.of_eq rfl rfl rfl) ?_
  have hsession : OffPorts (vcPg i) := by
    unfold OffPorts vcPg P.vce
    omega
  have hengines : u.PinsKept (((u.setVc i { u.vc i with run := none, stall := none, ended := [] }).vcReserve i false).each
      (maskEngines (((u.setVc i { u.vc i with run := none, stall := none, ended := [] }).vcReserve i false).vcMask i))
      fun e s => if s.engine e = 1 then (s.setEngine e 0).setFld (P.vce e 0) F.VCE_STS_session 0 else s) := by
    refine State.PinsKept.trans (t := (u.setVc i { u.vc i with run := none, stall := none, ended := [] }).vcReserve i false) (.of_eq rfl rfl rfl)
      (.each fun e _ v => .ite ?_ (.refl v))
    have hengine : OffPorts (P.vce e 0) := by
      unfold OffPorts P.vce
      omega
    exact (State.PinsKept.setFld v hengine (by decide) _).trans (.setFld _ hengine (by decide) _)
  dsimp only
  exact .ite (hengines.trans (.setFld _ hsession (vcState_inside _ (Nat.mod_lt _ (by decide))) _)) hengines

theorem State.hpcStop_pins (s : State) (h cause : Nat) : s.PinsKept (s.hpcStop h cause) := by
  have hpage : OffPorts (P.hpc h) := by
    unfold OffPorts P.hpc
    omega
  exact .ite (State.PinsKept.trans (t := { s with hpcCause := Tab.set nat0 s.hpcCause h cause }) (.of_eq rfl rfl rfl) (.setFld _ hpage (by decide) 5)) (.refl s)

theorem State.tnQuiesce_pins (s : State) (n scope : Nat) (function : Bool) : s.PinsKept (s.tnQuiesce n scope function) := by
  have hten : ∀ (u : State) {f : Fld}, f.inside = true → ∀ v, u.PinsKept (u.setFld (P.ten n 0) f v) := fun u _ hf v => .setFld u (offPorts_ten n 0) hf v
  have hresetting : s.PinsKept (s.tnResetting n) :=
    ((hten s (f := F.TN_STS_state) (by decide) 3).trans (hten _ (f := F.TN_STS_epoch) (by decide) _)).trans (hten _ (f := F.TN_CTL_reset) (by decide) _)
  unfold State.tnQuiesce
  dsimp only
  rw [show ((s.setTnState n 3).setFld (P.ten n 0) F.TN_STS_epoch (if (s.epoch n + 1) % 65536 = 0 then 1 else (s.epoch n + 1) % 65536)).setFlag (P.ten n 0)
    F.TN_CTL_reset true = s.tnResetting n from rfl]
  refine hresetting.trans ?_
  generalize s.tnResetting n = u
  have hset : ∀ v : TenSt, u.PinsKept (u.setTen n v) := fun v => .of_eq rfl rfl rfl
  exact ((((hset _).trans (State.stopJobs_pins _ _ _ _)).trans (State.skTenantStart_pins _ n)).trans (State.vcTenantStart_pins _ n)).trans (.each fun h _ v => v.hpcStop_pins h 5)

theorem State.queueForget_pins (s : State) (n q : Nat) : s.PinsKept (s.queueForget n q) := by
  have hpage : OffPorts (P.queue n q) := by
    unfold OffPorts P.queue
    omega
  have hinside : ∀ f ∈ ([F.Q_SQ_CFG_enable, F.Q_SQ_CFG_log2_size, F.Q_SQ_CFG_priority, F.Q_SQ_CFG_ordered, F.Q_SQ_CFG_dup_en, F.Q_SQ_CFG_base, F.Q_CQ_BASE_LO_addr,
      F.Q_CQ_BASE_HI_addr, F.Q_CQ_CFG_log2_size, F.Q_CQ_CFG_coal_cnt, F.Q_CQ_CFG_coal_us, F.Q_PASID_pasid, F.Q_PASID_enable, F.Q_STS_state] : List Fld), f.inside = true := by decide +kernel
  have hqueue : ∀ (u : State) v, u.PinsKept (u.setQueue n q v) := fun u v => .of_eq rfl rfl rfl
  unfold State.queueForget
  dsimp only
  exact (State.PinsKept.each fun f hf u => .setFld u hpage (hinside f hf) 0).trans (hqueue _ _)

theorem State.tnTrigger_pins (s : State) (n : Nat) (function : Bool) : s.PinsKept (s.tnTrigger n function) := by
  have hset : ∀ v : TenSt, s.PinsKept (s.setTen n v) := fun v => .of_eq rfl rfl rfl
  have hmark : s.PinsKept (if function then s.setTen n { s.ten n with suppress := true } else s) := .ite (hset _) (.refl s)
  have hrst : ∀ u : State, s.PinsKept u → ∀ l, s.PinsKept { u with rsts := l } := fun u hu l => hu.trans (.of_eq rfl rfl rfl)
  unfold State.tnTrigger
  dsimp only
  exact .ite (.refl s) (.ite (.ite (hmark.trans (.each fun q _ u => u.queueForget_pins n q)) hmark) (.ite (hmark.trans (.setFld _ (offPorts_ten n 0) (by decide) _))
    (hrst _ (s.tnQuiesce_pins n 5 function) _)))

/-! The reset of a port. -/

theorem State.fnReset_pins (s : State) (k : Nat) : s.PinsKept (s.fnReset k) := .of_eq rfl rfl rfl

theorem State.portBare_pins (s : State) (p : Nat) : s.PinsKept (s.portBare p) := by
  have hmgt : ∀ m, s.PinsKept { s with mgt := m } := fun m => .of_eq rfl rfl rfl
  unfold State.portBare
  refine State.PinsKept.trans ?_ (State.fnReset_pins _ p)
  exact (hmgt _).trans (.setPort _ p rfl rfl)

theorem State.vfClear_pins (s : State) (p : Nat) : s.PinsKept (s.vfClear p) := by
  have hport : s.PinsKept (s.setPort p { s.port p with numVfs := 0 }) := .setPort s p rfl rfl
  have hfns : ∀ u : State, u.PinsKept (u.each (List.range 64) fun v s => s.fnReset (4 + 64 * p + v)) := fun u => .each fun v _ w => w.fnReset_pins (4 + 64 * p + v)
  have htens : ∀ (u : State) (l : List Nat), u.PinsKept (u.each l fun n s => s.tnTrigger n true) := fun u l => .each fun n _ w => w.tnTrigger_pins n true
  exact (hport.trans (hfns _)).trans (htens _ _)

theorem State.hmpTransitClear_pins (s : State) (p : Nat) : s.PinsKept (s.hmpTransitClear p) := by
  unfold State.hmpTransitClear State.hmpClearComps State.landAll
  exact .of_eq rfl rfl rfl

theorem State.pushStops_pins (s : State) (p : Nat) : s.PinsKept (s.pushStops p) := by
  have hboot : OffPorts P.boot := by
    unfold OffPorts P.boot
    omega
  have hclear : s.PinsKept ((s.setFlag P.boot F.BOOT_PUSH_CTL_go false).setFlag P.boot F.BOOT_PUSH_CTL_busy false) :=
    (State.PinsKept.setFld s hboot (by decide) _).trans (.setFld _ hboot (by decide) _)
  have hheld : ∀ (u : State) b, u.PinsKept { u with boot := b } := fun u b => .of_eq rfl rfl rfl
  have hwait : ∀ u : State, u.PinsKept u.waitPush := fun u => (State.PinsKept.setFld u hboot (by decide) _).trans (.event _ hboot _)
  unfold State.pushStops State.pushAbort
  exact .ite ((hclear.trans (hheld _ _)).trans (hwait _)) (.refl s)

theorem State.portReset_pins (s : State) (p : Nat) : s.PinsKept (s.portReset p) := by
  rw [State.portReset_eq]
  exact (((s.portBare_pins p).trans (State.vfClear_pins _ p)).trans (State.hmpTransitClear_pins _ p)).trans (State.pushStops_pins _ p)

end Sys2Proof.Machine
end

section
/-! Settles the samples, the regulators and the rails of the board (15 R361-R364, R367; 18 R423). -/
namespace Sys2Proof.Machine

/-! A supply of the regulators that fails or comes back. -/

theorem putBit_low_zero {r i : Nat} (hi : i < 4) (h : bitOf r i = true) : putBit r i false % 16 = 0 ↔ r % 16 = 2 ^ i := by
  have hput : putBit r i false = r - 2 ^ i := if_pos h
  have hbit : r / 2 ^ i % 2 = 1 := by simpa [bitOf] using h
  rw [hput]
  interval_cases i <;> norm_num at hbit ⊢ <;> omega

/-- The state in which a failed supply is noted, before everything but always-on logic stops. -/
def State.supplyNoted (s : State) (i : Nat) : State :=
  if i = 0 && s.flag P.pwr F.PWR_STS_vin_ok then (((s.setRail i true).trailPut 0x06 0x0B 2 [2, i]).setFlag P.pwr F.PWR_STS_vin_ok false).event P.pwr 2
  else (s.setRail i true).trailPut 0x06 0x0B 2 [2, i]

theorem State.supplyNoted_keeps (s : State) (i : Nat) : (s.supplyNoted i).trail = ((s.setRail i true).trailPut 0x06 0x0B 2 [2, i]).trail ∧
    (s.supplyNoted i).power = (s.setRail i true).power := by
  have hpow := State.trailPut_power (s.setRail i true) 0x06 0x0B 2 [2, i]
  unfold State.supplyNoted
  generalize (s.setRail i true).trailPut 0x06 0x0B 2 [2, i] = w at hpow
  split
  · rw [State.event_trail, State.event_power]
    exact ⟨rfl, hpow⟩
  · exact ⟨rfl, hpow⟩

/-- What the loss of a supply leaves. -/
structure State.SupplyOut (s t : State) (i : Nat) : Prop where
  hubOff : t.hubOff = true
  rail : bitOf t.power.rails i = true
  slots : t.trail.slots = s.trail.slots
  cores : ∀ x, t.core x = Core.reset
  hmp : ∀ a, t.hmp.rd a = 0
  links : ∀ p, p < 4 → t.linkUp p = false
  record : s.trail.queue.length < 16 → ∃ r, t.trail.queue = s.trail.queue ++ [r] ∧ r.typ = 0x06 ∧ r.payload = [2, i]

theorem State.supplyLost_out {s : State} (hoff : s.hubOff = false) (hstuck : s.stuck = false) (i : Nat) : s.SupplyOut (s.supplyLost i) i := by
  have hlost : s.supplyLost i = (s.supplyNoted i).dark := if_neg (by
    show ¬ (s.hubOff || s.stuck) = true
    rw [hoff, hstuck]
    exact Bool.false_ne_true)
  obtain ⟨htrail, hpow⟩ := s.supplyNoted_keeps i
  rw [hlost]
  refine ⟨State.dark_hubOff _, ?_, ?_, State.dark_core _, State.dark_hmp _, fun p hp => State.dark_linkUp _ hp, fun hroom => ?_⟩
  · rw [State.dark_rails, hpow]
    exact bitOf_putBit_true _ _
  · rw [State.dark_trail, htrail, State.trailPut_slots]
    rfl
  · obtain ⟨r, hr, htyp, hpay⟩ := State.trailPut_queue (s := s.setRail i true) hroom 0x06 0x0B 2 [2, i]
    exact ⟨r, by rw [State.dark_trail, htrail, hr]; rfl, htyp, hpay⟩

theorem supplies_lost {s : State} (hoff : s.hubOff = false) (hstuck : s.stuck = false) (c : Instr × Nat)
    (hc : c ∈ [(Instr.vinCoreLow, 0), (.railLoss .vddDram, 1), (.railLoss .vppDram, 2), (.railLoss .vddSer, 3)]) :
    Completes c.1 s fun t => t.hubOff = true ∧ bitOf t.power.rails c.2 = true ∧ t.trail.slots = s.trail.slots ∧ (∀ x, t.core x = Core.reset) ∧
      (∀ a, t.hmp.rd a = 0) ∧ (∀ p, p < 4 → t.linkUp p = false) ∧
      (s.trail.queue.length < 16 → ∃ r, t.trail.queue = s.trail.queue ++ [r] ∧ r.typ = 0x06 ∧ r.payload = [2, c.2]) := by
  have hrun : exec c.1 s = .next (s.supplyLost c.2) := by
    simp only [List.mem_cons, List.not_mem_nil, or_false] at hc
    rcases hc with rfl | rfl | rfl | rfl <;> rfl
  have h := State.supplyLost_out hoff hstuck c.2
  exact ⟨_, hrun, h.hubOff, h.rail, h.slots, h.cores, h.hmp, h.links, h.record⟩

/-- The supply that comes back last starts bring-up again. -/
theorem State.rerun_keeps (s : State) : s.rerun.hubOff = false ∧ s.rerun.power.rails = s.power.rails ∧ s.rerun.trail.slots = s.trail.slots := by
  have hbase : s.rerunBase.hubOff = false ∧ s.rerunBase.power.rails = s.power.rails ∧ s.rerunBase.trail.slots = s.trail.slots := ⟨rfl, rfl, rfl⟩
  obtain ⟨r, hr⟩ := s.rerun_only
  rw [hr]
  exact hbase

theorem supplies_back {s : State} (hstuck : s.stuck = false) (hoff : s.hubOff = true) (hshut : s.inShutdown = false) (c : Instr × Nat)
    (hc : c ∈ [(Instr.vinCoreRestored, 0), (.railRestored .vddDram, 1), (.railRestored .vppDram, 2), (.railRestored .vddSer, 3)])
    (hbit : bitOf s.power.rails c.2 = true) :
    (s.power.rails % 16 = 2 ^ c.2 → Completes c.1 s fun t => t.hubOff = false ∧ t.stage = 2 ∧ t.ready = false ∧ bitOf t.power.rails c.2 = false ∧
      t.trail.slots = s.trail.slots ∧ t.fld P.trl F.TRL_BOOTCNT_value = (s.fld P.trl F.TRL_BOOTCNT_value + 1) % 2 ^ 32) ∧
    (s.power.rails % 16 ≠ 2 ^ c.2 → Completes c.1 s fun t => bitOf t.power.rails c.2 = false ∧ t.regs = s.regs ∧ t.hubOff = true) := by
  have hrun : exec c.1 s = .next (s.supplyBack c.2) ∧ c.2 < 4 := by
    simp only [List.mem_cons, List.not_mem_nil, or_false] at hc
    rcases hc with rfl | rfl | rfl | rfl <;> exact ⟨rfl, by decide⟩
  obtain ⟨hrun, hi⟩ := hrun
  have hback : s.supplyBack c.2 = if (s.setRail c.2 false).power.rails % 16 = 0 then (s.setRail c.2 false).rerun else s.setRail c.2 false := by
    have hoff' : (s.setRail c.2 false).hubOff = true := hoff
    have hshut' : (s.setRail c.2 false).inShutdown = false := hshut
    have hstuck' : (s.setRail c.2 false).stuck = false := hstuck
    unfold State.supplyBack
    dsimp only
    rw [hbit, hoff', hshut', hstuck']
    simp
  have hzero : (s.setRail c.2 false).power.rails % 16 = 0 ↔ s.power.rails % 16 = 2 ^ c.2 := putBit_low_zero hi hbit
  have hclear : bitOf (s.setRail c.2 false).power.rails c.2 = false := bitOf_putBit_false _ _
  rw [hback] at hrun
  constructor
  · intro hlast
    rw [if_pos (hzero.2 hlast)] at hrun
    obtain ⟨hhub, hrails, hslots⟩ := (s.setRail c.2 false).rerun_keeps
    obtain ⟨hstage, hready, -, hcount⟩ := (s.setRail c.2 false).rerun_boot
    exact ⟨_, hrun, hhub, hstage, hready, by rw [hrails, hclear], hslots, hcount⟩
  · intro hmore
    rw [if_neg fun h => hmore (hzero.1 h)] at hrun
    exact ⟨_, hrun, hclear, rfl, hoff⟩

theorem exec_vinCoreRestored_idle {s : State} (h : bitOf s.power.rails 0 = false) : exec .vinCoreRestored s = .next s :=
  congrArg Host.Outcome.next (if_pos (by rw [h]; rfl))

/-! VDD_IO: the ports' PERST_N. -/

/-- One port sees the rail of its pads. -/
def State.ioPort (s : State) (p : Nat) (bad : Bool) : State := (s.setPort p { s.port p with railBad := bad }).perstSync p

/-- What a port whose link is down makes of its PERST_N. -/
structure State.PerstSeen (u t : State) (p : Nat) : Prop where
  perst : t.flag (P.hpt p) F.HPT_LINK_STS_perst = ((u.port p).perst || (u.port p).railBad)
  other : ∀ q, q < 4 → q ≠ p → t.flag (P.hpt q) F.HPT_LINK_STS_perst = u.flag (P.hpt q) F.HPT_LINK_STS_perst
  links : ∀ q, q < 4 → t.linkUp q = u.linkUp q
  pins : ∀ j, (t.port j).railBad = (u.port j).railBad ∧ (t.port j).perst = (u.port j).perst
  power : t.power = u.power

theorem P.hpt_inj {p q : Nat} (h : P.hpt p = P.hpt q) : p = q := by
  unfold P.hpt at h
  omega

theorem State.perstSync_seen {u : State} {p : Nat} (hp : p < 4) (hdown : u.linkUp p = false) : u.PerstSeen (u.perstSync p) p := by
  have hset : ∀ v, v = ((u.port p).perst || (u.port p).railBad) → u.PerstSeen (u.setFlag (P.hpt p) F.HPT_LINK_STS_perst v) p := by
    rintro v rfl
    exact ⟨State.flag_setFlag_self _ _ (by decide) _, fun q _ hq => State.flag_of_fld (State.fld_setFlag_page (fun h => hq (P.hpt_inj h)) (by decide) (by decide) _ _),
      fun q _ => State.flag_setFlag_apart _ _ _ (by decide) _, fun _ => ⟨rfl, rfl⟩, rfl⟩
  unfold State.perstSync
  dsimp only
  split
  · next h => exact ⟨h, fun _ _ _ => rfl, fun _ _ => rfl, fun _ => ⟨rfl, rfl⟩, rfl⟩
  · have hseen := hset _ rfl
    generalize u.setFlag (P.hpt p) F.HPT_LINK_STS_perst ((u.port p).perst || (u.port p).railBad) = w at hseen
    have hwdown : w.linkUp p = false := (hseen.links p hp).trans hdown
    split
    · rw [hwdown, if_neg Bool.false_ne_true]
      have hkept := w.portReset_pins p
      generalize w.portReset p = z at hkept
      have hflag : ∀ q, q < 4 → ∀ f : Fld, f.inside = true → f.apart F.PG_INT_STS = true → (z.event (P.hpt p) 2).flag (P.hpt q) f = w.flag (P.hpt q) f :=
        fun q hq f hf hapart => (State.flag_event_apart _ _ _ hapart _).trans (State.flag_of_fld (hkept.fld q hq f hf))
      refine ⟨(hflag p hp _ (by decide) (by decide)).trans hseen.perst, fun q hq hqp => (hflag q hq _ (by decide) (by decide)).trans (hseen.other q hq hqp),
        fun q hq => (hflag q hq _ (by decide) (by decide)).trans (hseen.links q hq), fun j => ?_, ?_⟩
      · rw [State.port_event]
        exact ⟨(hkept.pins j).1.trans (hseen.pins j).1, (hkept.pins j).2.trans (hseen.pins j).2⟩
      · rw [State.event_power]
        exact hkept.power.trans hseen.power
    · exact hseen

/-- What the ports of a list show once they see the rail: their own pins and flags, and those of the others as before. -/
structure State.RailSeen (s t : State) (l : List Nat) (bad : Bool) : Prop where
  seen : ∀ p ∈ l, (t.port p).railBad = bad ∧ t.flag (P.hpt p) F.HPT_LINK_STS_perst = ((s.port p).perst || bad)
  other : ∀ p, p < 4 → p ∉ l → (t.port p).railBad = (s.port p).railBad ∧ t.flag (P.hpt p) F.HPT_LINK_STS_perst = s.flag (P.hpt p) F.HPT_LINK_STS_perst
  links : ∀ p, p < 4 → t.linkUp p = s.linkUp p
  perst : ∀ p, (t.port p).perst = (s.port p).perst
  power : t.power = s.power

theorem State.ioPort_seen {s : State} {p : Nat} (hp : p < 4) (hdown : s.linkUp p = false) (bad : Bool) : s.RailSeen (s.ioPort p bad) [p] bad := by
  have hdown' : (s.setPort p { s.port p with railBad := bad }).linkUp p = false := hdown
  have hseen := State.perstSync_seen hp hdown'
  have hself : (s.setPort p { s.port p with railBad := bad }).port p = { s.port p with railBad := bad } := State.port_setPort_self _ _ _
  have hother : ∀ q, q ≠ p → (s.setPort p { s.port p with railBad := bad }).port q = s.port q := fun q hq => (State.port_setPort _ _ _ _).trans (if_neg hq)
  refine ⟨fun q hq => ?_, fun q hq hqp => ?_, fun q hq => hseen.links q hq, fun q => (hseen.pins q).2.trans ?_, hseen.power⟩
  · obtain rfl := List.mem_singleton.1 hq
    exact ⟨(hseen.pins q).1.trans (by rw [hself]), hseen.perst.trans (by rw [hself])⟩
  · have hne : q ≠ p := fun h => hqp (List.mem_singleton.2 h)
    exact ⟨(hseen.pins q).1.trans (by rw [hother q hne]), hseen.other q hq hne⟩
  · by_cases hq : q = p
    · rw [hq, hself]
    · rw [hother q hq]

theorem State.ioPorts_seen (bad : Bool) (l : List Nat) : ∀ s : State, (∀ p ∈ l, p < 4) → (∀ p, p < 4 → s.linkUp p = false) →
    s.RailSeen (s.each l fun p s => s.ioPort p bad) l bad := by
  induction l with
  | nil => exact fun s _ _ => ⟨fun p hp => absurd hp List.not_mem_nil, fun _ _ _ => ⟨rfl, rfl⟩, fun _ _ => rfl, fun _ => rfl, rfl⟩
  | cons x l ih =>
    intro s hl hdown
    have hx := hl x List.mem_cons_self
    have hone := State.ioPort_seen hx (hdown x hx) bad
    rw [State.each_cons]
    have hrest := ih (s.ioPort x bad) (fun p hp => hl p (List.mem_cons_of_mem _ hp)) fun p hp => (hone.links p hp).trans (hdown p hp)
    refine ⟨fun p hp => ?_, fun p hp hnot => ?_, fun p hp => (hrest.links p hp).trans (hone.links p hp), fun p => (hrest.perst p).trans (hone.perst p),
      hrest.power.trans hone.power⟩
    · by_cases hpl : p ∈ l
      · obtain ⟨h1, h2⟩ := hrest.seen p hpl
        exact ⟨h1, by rw [h2, hone.perst]⟩
      · obtain rfl : p = x := (List.mem_cons.1 hp).resolve_right hpl
        obtain ⟨h1, h2⟩ := hrest.other p hx hpl
        obtain ⟨h3, h4⟩ := hone.seen p (List.mem_singleton.2 rfl)
        exact ⟨h1.trans h3, h2.trans h4⟩
    · obtain ⟨h1, h2⟩ := hrest.other p hp fun h => hnot (List.mem_cons_of_mem _ h)
      obtain ⟨h3, h4⟩ := hone.other p hp fun h => hnot (List.mem_cons.2 (.inl (List.mem_singleton.1 h)))
      exact ⟨h1.trans h3, h2.trans h4⟩

theorem State.ioRail_seen {s : State} (hdown : ∀ p, p < 4 → s.linkUp p = false) (bad : Bool) : (s.setRail 4 bad).RailSeen (s.ioRail bad) (List.range 4) bad :=
  State.ioPorts_seen bad (List.range 4) (s.setRail 4 bad) (fun _ hp => List.mem_range.1 hp) hdown

theorem vddIo_results {s : State} (hdown : ∀ p, p < 4 → s.linkUp p = false) :
    (Completes (.railLoss .vddIo) s fun t => bitOf t.power.rails 4 = true ∧
      ∀ p, p < 4 → (t.port p).railBad = true ∧ t.flag (P.hpt p) F.HPT_LINK_STS_perst = true ∧ t.linkUp p = false) ∧
    ((∀ p, p < 4 → (s.port p).perst = false) → Completes (.railRestored .vddIo) s fun t => bitOf t.power.rails 4 = false ∧
      ∀ p, p < 4 → (t.port p).railBad = false ∧ t.flag (P.hpt p) F.HPT_LINK_STS_perst = false) := by
  constructor
  · have hseen := State.ioRail_seen hdown true
    refine ⟨s.ioRail true, rfl, by rw [hseen.power]; exact bitOf_putBit_true _ _, fun p hp => ?_⟩
    obtain ⟨h1, h2⟩ := hseen.seen p (List.mem_range.2 hp)
    exact ⟨h1, h2.trans (Bool.or_true _), (hseen.links p hp).trans (hdown p hp)⟩
  · intro hperst
    have hseen := State.ioRail_seen hdown false
    refine ⟨s.ioRail false, rfl, by rw [hseen.power]; exact bitOf_putBit_false _ _, fun p hp => ?_⟩
    obtain ⟨h1, h2⟩ := hseen.seen p (List.mem_range.2 hp)
    have hdeasserted : ((s.setRail 4 false).port p).perst = false := hperst p hp
    exact ⟨h1, h2.trans (by rw [hdeasserted]; rfl)⟩

/-! VAO_IO: a trip without its record. -/

theorem State.trailCommit_power (s : State) : s.trailCommit.power = s.power := by
  have hwrite : ∀ (u : State) (r : TrailRec), (u.trailWrite r).power = u.power := fun u r => by
    unfold State.trailWrite
    dsimp only
    split
    · exact State.event_power _ _ _
    · exact State.event_power _ _ _
    · exact State.event_power _ _ _
  have hlost : ∀ u : State, (if u.trail.lost = 0 then u else State.trailPut { u with trail := { u.trail with lost := 0 } } 0x0B 0x0C 1 [u.trail.lost]).power = u.power :=
    fun u => by
      split
      · rfl
      · exact State.trailPut_power _ _ _ _ _
  unfold State.trailCommit
  split
  · rfl
  · next r q _ => exact (hlost (State.trailWrite { s with trail := { s.trail with queue := q } } r)).trans (hwrite { s with trail := { s.trail with queue := q } } r)

/-- Before VAO_IO stops the device the Trail finishes its record and drops the rest. -/
theorem State.tripTrail_keeps (s : State) : s.tripTrail.board.fuseWrite = none ∧ s.tripTrail.power = s.power ∧
    (s.trail.queue = [] → s.tripTrail.trail.slots = s.trail.slots ∧ s.tripTrail.trail.queue = []) := by
  refine ⟨rfl, State.trailCommit_power _, fun hempty => ?_⟩
  have hcommit : State.trailCommit { s with trail := { s.trail with queue := s.trail.queue.take 1, lost := 0 } } =
      { s with trail := { s.trail with queue := s.trail.queue.take 1, lost := 0 } } := by
    unfold State.trailCommit
    rw [hempty]
    rfl
  unfold State.tripTrail
  dsimp only
  rw [hcommit]
  exact ⟨rfl, by rw [hempty]; rfl⟩

theorem vaoIo_lost (s : State) : Completes (.railLoss .vaoIo) s fun t => t.hubOff = true ∧ t.thm.tripped = true ∧ t.thm.tripPin = false ∧
    bitOf t.power.rails 5 = true ∧ t.board.fuseWrite = none ∧ (s.trail.queue = [] → t.trail.slots = s.trail.slots ∧ t.trail.queue = []) ∧ ∀ x, t.core x = Core.reset := by
  obtain ⟨hfuse, hpow, htrail⟩ := (s.setRail 5 true).tripTrail_keeps
  have hrun : exec (.railLoss .vaoIo) s = .next { (s.setRail 5 true).tripTrail.dark with
      thm := { (s.setRail 5 true).tripTrail.dark.thm with tripped := true, tripPin := false } } := rfl
  generalize (s.setRail 5 true).tripTrail = w at hfuse hpow htrail hrun
  refine ⟨_, hrun, rfl, rfl, rfl, ?_, hfuse, htrail, fun x => rfl⟩
  show bitOf w.power.rails 5 = true
  rw [hpow]
  exact bitOf_putBit_true _ _

/-- Settles O58: samples from what each row of a sample keeps, a regulator fault from the loss of its tile, and the rails from the state that each leaves. -/
theorem powerAndSupply : Obligations.PowerAndSupply := by
  unfold Obligations.PowerAndSupply
  refine ⟨fun s i ti => ⟨powerSample_results i, fun h => ?_, ?_, exec_powerLoopTick_clamped, fastClampRelease_own s ti, fastClampRelease_all s⟩,
    fun s ti under => ⟨regulatorFault_is_tileLost under, regulatorFault_alone under, exec_regulatorFault_off under, supplies_lost, supplies_back,
      exec_vinCoreRestored_idle, vddIo_results, vaoIo_lost s, ⟨s.setRail 5 false, rfl, bitOf_putBit_false _ _, rfl, rfl, rfl⟩⟩⟩
  · refine congrArg Host.Outcome.next (if_pos ?_)
    rcases h with h | h
    · rw [h]
      rfl
    · rw [h]
      exact Bool.or_true _
  · rintro e c p k rfl rfl rfl rfl hcap hclamp
    exact ⟨powerLoopTick_lowers hclamp hcap, powerLoopTick_raises hclamp, exec_powerLoopTick_idle hclamp⟩

end Sys2Proof.Machine
end
